-- ==== Sys2Proof/Word.lean ====
section
/-! DEFINITION. The word types of the T1024 and their plainest arithmetic: 8-bit bytes, 32-bit registers (R8) and the 64-bit
values of the Celil engines (R212). -/

namespace Sys2Proof

/-- One byte. -/
abbrev Byte := BitVec 8

/-- One register word (R8). -/
abbrev Word := BitVec 32

/-- One Celil general register (R212). -/
abbrev Dword := BitVec 64

end Sys2Proof
end

