-- ==== Sys2Proof/Syntax.lean ====
section
/-! DEFINITION. The commands that the T1024 takes: one constructor of `Instr` per row of the opcode table. The operand of a
command that names a numbered thing of the part is a `Fin` of that thing's number (R10, R26, R30, R71, R121, R152, R274). -/

namespace Sys2Proof

/-- An origin code of R320: 10 bits. Which codes are origins is the business of `WellFormed`. -/
abbrev Origin := BitVec 10

/-- A byte address in the 64 MiB register space (R386). -/
abbrev RegAddr := BitVec 26

/-- Chiplet SC0 to SC7. -/
abbrev ChipletIx := Fin 8
/-- Synthesis core 0 to 63. -/
abbrev CoreIx := Fin 64
/-- Half A (0) or B (1) of a core. -/
abbrev HalfIx := Fin 2
/-- Output port 0 to 1023. -/
abbrev PortIx := Fin 1024
/-- Teasel channel 0 to 1279. -/
abbrev ChannelIx := Fin 1280
/-- Record ring 0 to 31. -/
abbrev RingIx := Fin 32
/-- Yarrow engine 0 to 255. -/
abbrev EngineIx := Fin 256
/-- Hardware queue 0 to 32767. -/
abbrev QueueIx := Fin 32768
/-- Ryrel link 0 to 15. -/
abbrev LinkIx := Fin 16
/-- Ryrel worker entry. -/
abbrev WorkerIx := Fin 256
/-- Event source 0 to 383. -/
abbrev SourceIx := Fin 384
/-- MSI-X vector 0 to 383. -/
abbrev VectorIx := Fin 384
/-- Reference REFA (0) or REFB (1). -/
abbrev RefIx := Fin 2
/-- A Celil general register g0 to g31 (R212). -/
abbrev GReg := Fin 32
/-- A Celil time register t0 to t7 (R212). -/
abbrev TReg := Fin 8

/-- How an access to the NVM die ends (R10, R34, R267): it is done, the die fails it, or the die does not answer. -/
inductive NvmEnd where
  | done | failed | silent
  deriving DecidableEq, Repr

/-- One frame on the serial slave port as its pins show it until SSEL_N rises (R331 to R334): the levels of SIO3 to SIO0 at each rising
edge of SSCK, whether SSCK was high when SSEL_N fell (mode 3), the first edge that the host gave while SRDY was low, if it gave one,
the words already applied where a reset cut the frame off, and the ticks from its command byte to its end. -/
structure SspFrame where
  lanes : List (BitVec 4)
  mode3 : Bool
  low : Option Nat
  abort : Option Nat
  ticks : Nat
  deriving DecidableEq, Repr

/-- A Ryrel frame as a link receives it (R276): the fields of its header, its payload and its CRC. A row acts on frames of its own type; any
row brings a frame whose type R278 does not list. -/
structure RyFrame where
  type : BitVec 8
  rel : Bool
  flags : BitVec 7
  dst : BitVec 8
  src : BitVec 8
  lseq : BitVec 16
  len : BitVec 8
  rsvd : BitVec 8
  payload : List Byte
  crc : BitVec 32
  deriving DecidableEq, Repr

/-- A BAR0 request (R355): the offset, whether it writes, its length in DW, whether every byte enable is set, and the data of
a write. -/
structure BarRequest where
  addr : BitVec 26
  write : Bool
  dws : Nat
  allBytes : Bool
  data : List Word
  deriving DecidableEq, Repr

/-- The endpoint resets of R354. -/
inductive EndpointReset where
  | fundamental | hot | linkDown | flr
  deriving DecidableEq, Repr

/-- What the host configures once the link is up, before BAR requests can be served (R352, R355, R356): the bases of BAR0 and BAR2, and the
code of Max_Payload_Size in Device Control, 128, 256 or 512 B. -/
structure HostCfg where
  bar0 : BitVec 64 := 0
  bar2 : BitVec 64 := 0
  mps : Fin 3 := 0
  deriving DecidableEq, Repr

/-- What comes back in MSIX_UNMASK (R359): a vector's mask, the function mask, or Bus Master Enable. -/
inductive Unmask where
  | vector (v : VectorIx) | function | busMaster
  deriving DecidableEq, Repr

/-- The destination of WRD (R228): a pair of general registers from an even one up (T = 0), or a time register (T = 1). -/
inductive WrdDest where
  | pair (c : GReg)
  | time (t : TReg)
  deriving DecidableEq, Repr

/-- The completion code of ACK and NACK (R231): an immediate, or the low bits of a register. -/
inductive EndCode where
  | imm (n : BitVec 6)
  | reg (a : GReg)
  deriving DecidableEq, Repr


/-- The commands: one constructor per row of the opcode table, in its order. A row that is a register write carries the writing
origin and the word written; a row that is an event carries what the part measures or receives from outside at that event. -/
inductive Instr where
  /-- MAILBOX_SUBMIT (R189): An origin writes MB_REQ with OP SUBMIT, and the queue manager checks the item and accepts it into a
  queue or refuses it. -/
  | mailboxSubmit (o : Origin) (v : Word)
  /-- MAILBOX_TAKE (R193): An origin writes MB_REQ with OP TAKE to remove the head item of a host queue, which completes that item
  with HOSTTAKE. -/
  | mailboxTake (o : Origin) (v : Word)
  /-- MAILBOX_SNAP (R311): An origin writes MB_REQ with OP SNAP to capture a wide value atomically into its mailbox. -/
  | mailboxSnap (o : Origin) (v : Word)
  /-- MAILBOX_COMPLETE (R311): A mailbox request completes: the data words are written at once, BUSY clears and VALID or ERR is set. -/
  | mailboxComplete (o : Origin)
  /-- DISPATCH (R198): An eligible item is handed to the lowest-numbered idle owner engine, which starts the queue handler. -/
  | dispatch (q : QueueIx) (e : EngineIx)
  /-- STEAL (R198): An idle engine with steal enabled takes the head item of a candidate queue whose head has waited STEAL_AGE. -/
  | steal (q : QueueIx) (e : EngineIx)
  /-- ACTION_SEND (R13): A released action that was held by sequence order, a full commit FIFO or an armed epoch load is sent to
  its chiplet once the hold ends. -/
  | actionSend (n : ChipletIx) (q : QueueIx)
  /-- ACTION_ARRIVE (R18): An action reaches its chiplet, which admits it to the commit FIFO, discards it as a duplicate, refuses
  it, or treats it as late. -/
  | actionArrive (n : ChipletIx)
  /-- ABORT_VERDICT_ARRIVE (R203): A LATE, HORIZON or HOPSPACE verdict reaches the control die, which then releases no further
  actions of the item. -/
  | abortVerdictArrive
  /-- PHASE_APPLY (R131): At its stamp tick a PHASE action sets a new FINE target, and the port begins its fine-phase motion. -/
  | phaseApply (n : ChipletIx)
  /-- PORTSET_APPLY (R124): At its stamp tick a PORTSET action applies the masked port word after the port-word checks. -/
  | portsetApply (n : ChipletIx)
  /-- MARK_APPLY (R129): At its stamp tick a MARK action starts, replaces or stops the marker pulse train of a port. -/
  | markApply (n : ChipletIx)
  /-- ARM_APPLY (R160): At its arm tick an ARM action is checked and arms a measurement on a Teasel channel. -/
  | armApply (n : ChipletIx)
  /-- DISARM_APPLY (R159): At its stamp tick a DISARM action ends the measurement armed on its channel. -/
  | disarmApply (n : ChipletIx)
  /-- STAGING_STALL_RESUME (R14): An engine stalled by a full staging store resumes and posts its action once space frees. -/
  | stagingStallResume (e : EngineIx)
  /-- KEEPALIVE (R35): Every 1 us the control die sends a keep-alive to each chiplet, and each chiplet answers. -/
  | keepalive (answers : BitVec 8)
  /-- CHIPLET_LOST (R35): After 8 consecutive missing keep-alive answers the control die declares the chiplet lost. -/
  | chipletLost (n : ChipletIx)
  /-- CONTROL_DIE_LOST (R379): A chiplet declares the control die lost after 64 us without a keep-alive and enters the holdover
  behaviour of R36. -/
  | controlDieLost (n : ChipletIx)
  /-- ASYNC_SPEED_UPDATE (R25): Every 10 us ASYNC_SPEED is updated with the mean stage delay, and OVER_LIMIT is judged. -/
  | asyncSpeedUpdate (stage : BitVec 12)
  /-- MEMBANK (R29): An SRAM bank with four uncorrectable rows within 1 ms, or a failed handshake, is declared lost. -/
  | membank (b : Fin 16)
  /-- REF_FREQ_WRITE (R39): A write to REFA_FREQ or REFB_FREQ is checked and accepted, or refused with FREQ_ERR. -/
  | refFreqWrite (o : Origin) (r : RefIx) (v : Word)
  /-- MAN_SEL_WRITE (R45): A REF_CFG write naming a reference in manual mode starts a switchover, or is refused with SEL_REFUSED. -/
  | manSelWrite (o : Origin) (v : Word)
  /-- REF_ABSENT (R43): The missing-edge detector declares a reference absent after 4 declared periods without an edge. -/
  | refAbsent (r : RefIx)
  /-- FREQ_MONITOR_WINDOW (R43): At the end of each 1 ms window the frequency monitor judges each reference and may disqualify it. -/
  | freqMonitorWindow (countA countB : Nat)
  /-- REF_QUALIFIED (R44): A reference becomes qualified after its edges and frequency have been good for the qualification time. -/
  | refQualified (r : RefIx)
  /-- REVERT_TIMER (R45): In revertive mode the preferred reference has been qualified for REVERT_S seconds, and a switchover starts. -/
  | revertTimer
  /-- SWITCHOVER_FREEZE (R46): 64 tk after the decision every chiplet freezes its conditioner control word. -/
  | switchoverFreeze
  /-- SWITCHOVER_CLOSE (R46): After 3,200 tk of phase measurement each chiplet loads the build-out offset and closes its loop on
  the incoming reference. -/
  | switchoverClose (phase : Int)
  /-- SWITCHOVER_SETTLED (R47): The phase settles within 1 ps: STATE names the new reference, SWITCHED is set and REFSWITCH is raised. -/
  | switchoverSettled
  /-- HOLD_LIMIT (R51): Holdover has lasted MAX_S seconds, and HOLD_LIMIT is set. -/
  | holdLimit
  /-- ACQUISITION_COMPLETE (R53): The conditioners finish acquiring the first qualified reference, and STATE leaves free run. -/
  | acquisitionComplete
  /-- ALIGNMENT_STROBE (R55): At every multiple of 2^16 tk the time master drives the alignment strobe, and the control die
  compares the replicas. -/
  | alignmentStrobe (latched : List (Int × Int))
  /-- REPLICA_START (R56): Every replica loads tick 0 at the first alignment-line start pulse after reset release. -/
  | replicaStart
  /-- EPOCH_ARM (R59): A paired write of EPOCH_CTRL with ARM = 1 arms an epoch load, or is refused with REFUSED. -/
  | epochArm (o : Origin) (v : Word)
  /-- EPOCH_DISARM (R59): A paired write of EPOCH_CTRL with ARM = 0 disarms an armed epoch load. -/
  | epochDisarm (o : Origin) (v : Word)
  /-- EPOCH_IN_EDGE (R65): An EPOCH_IN edge of the selected polarity is taken for an armed load, or is stamped, counted and
  matched to its expected place. -/
  | epochInEdge (fall : Bool) (frac : BitVec 16)
  /-- EPOCH_MISSING (R65): TOL_TK passes after an expected EPOCH_IN place without an edge, and MISSING is set. -/
  | epochMissing
  /-- EPOCHLOAD (R64): Every replica loads the epoch count at one boundary: ARMED clears, any slew is discarded and PM_GEN increments. -/
  | epochLoad
  /-- TB_SLEW_WRITE (R67): A host write to TB_SLEW with GO = 1 requests a slew, or is ignored on an admitted worker. -/
  | tbSlewWrite (o : Origin) (v : Word)
  /-- SLEW_START (R67): All chiplets start the requested slew at the next alignment strobe. -/
  | slewStart
  /-- SLEW_END (R67): All chiplets end the slew at the same computed tick. -/
  | slewEnd
  /-- HALF_COMMIT (R81): A write of 1 to HALF_CMD.COMMIT captures the shadow registers as the half's pending word. -/
  | halfCommit (o : Origin) (c : CoreIx) (h : HalfIx) (v : Word)
  /-- HALF_WORD_APPLY (R83): At a comparison edge the pending or timed divider word is checked and, if it passes, applied to the half. -/
  | halfWordApply (c : CoreIx) (h : HalfIx)
  /-- CORE_POWER_WRITE (R85): A write to CORE_CTRL powers a half up or down, or is refused for the driving half. -/
  | corePowerWrite (o : Origin) (c : CoreIx) (v : Word)
  /-- HALF_READY (R85): A powered-up half sets READY and applies any held commit. -/
  | halfReady (c : CoreIx) (h : HalfIx)
  /-- LD_CFG_WRITE (R88): A write to LD_CFG is clamped and takes effect at the end of the window in progress. -/
  | ldCfgWrite (o : Origin) (c : CoreIx) (h : HalfIx) (v : Word)
  /-- LD_WINDOW_END (R87): At the end of each lock-detector window the half forms d and declares or withdraws lock. -/
  | ldWindowEnd (c : CoreIx) (h : HalfIx) (d : Int) (vtune : BitVec 8)
  /-- GROSS_MONITOR_WINDOW (R89): At the end of each 2^8-cycle monitor window a locked half's gross monitor may trip and withdraw lock. -/
  | grossMonitorWindow (c : CoreIx) (h : HalfIx) (d : Int)
  /-- GROSS_NO_FEEDBACK (R89): No feedback edge arrives for 64 comparison cycles, so the gross monitor trips and the half is
  declared failed. -/
  | grossNoFeedback (c : CoreIx) (h : HalfIx)
  /-- BAND_SEARCH_STEP (R252): A band-search step ends its 2,048 tk count window and accepts a band or moves to the next. -/
  | bandSearchStep (c : CoreIx) (h : HalfIx) (count span : Nat)
  /-- HOP_WINDOW_OPEN (R104): At W = Ts - L a ping-pong hop's window opens, and the captured word is loaded into the standby half. -/
  | hopWindowOpen (c : CoreIx)
  /-- HOP_PRELOCK_DONE (R105): The standby half's phase error stays below 2 ps for 256 cycles, which completes pre-lock. -/
  | hopPrelockDone (c : CoreIx)
  /-- HOP_PLACEMENT_DONE (R106): The placement rotator puts the incoming half on the context's phase-memory line. -/
  | hopPlacementDone (c : CoreIx) (rot : Word) (resid : Int)
  /-- HOP_READINESS_TEST (R107): At Ts - 256 tk the chiplet tests readiness and schedules the switch or fails the hop. -/
  | hopReadinessTest (c : CoreIx)
  /-- HOP_SWITCH (R109): At Ts the ceiling test is made, DRIVE changes and the ports pass to the incoming half, raising HOPDONE. -/
  | hopSwitch (c : CoreIx)
  /-- POST_SWITCH_GUARD_FAIL (R109): The incoming half fails its pre-lock criterion for 64 consecutive cycles after a switch,
  which counts as a lock withdrawal. -/
  | postSwitchGuardFail (c : CoreIx)
  /-- HOP_INPLACE (R117): At Ts an in-place HOP retunes the driving half and applies its port entries. -/
  | hopInplace (c : CoreIx)
  /-- RELOCK_START (R115): At Ts a relock hop sets RELOCKING and puts each port into its relock hold, or fails with PARTNER. -/
  | relockStart (c : CoreIx)
  /-- RELOCK_WORD_LOAD (R115): Once every port reports its hold, the captured word is loaded into the driving half, or is refused
  and ends the relock. -/
  | relockWordLoad (c : CoreIx)
  /-- RELOCK_RELEASE (R115): The relocked half is placed, the port test passes, the entries apply and the ports leave their hold. -/
  | relockRelease (c : CoreIx) (rot : Word) (resid : Int)
  /-- RELOCK_TIMEOUT (R115): At Ts + R an unfinished or failed relock ends with RELOCKTO or CEIL, and each port takes its
  lock-loss policy. -/
  | relockTimeout (c : CoreIx)
  /-- PORT_COMMIT (R125): A write of 1 to PORT_CMD.COMMIT captures the port shadow registers. -/
  | portCommit (o : Origin) (p : PortIx) (v : Word)
  /-- PORT_WORD_APPLY (R124): At the next tick boundary a captured port word is checked and applied to the port's edges. -/
  | portWordApply (p : PortIx)
  /-- MARKER_PULSE (R129): At each tick boundary of the marker schedule a pulse starts at the next rising edge of the port's pattern. -/
  | markerPulse (p : PortIx)
  /-- PORT_CEIL_WRITE (R132): A write to PORT_CEIL is stored, clamped, refused below the running frequency, or ignored while locked. -/
  | portCeilWrite (o : Origin) (p : PortIx) (v : Word)
  /-- CEIL_GUARD_WINDOW (R134): At the end of each 4,096 tk window the ceiling guard counts the unlocked half's edges and may
  squelch the port. -/
  | ceilGuardWindow (c : CoreIx) (h : HalfIx) (count : Nat)
  /-- PORT_MEN_WRITE (R135): A completed paired write of PORT_MEN squelches a chiplet's ports or restarts them. -/
  | portMenWrite (o : Origin) (v : Word)
  /-- HOLD_LIMIT_EXPIRY (R137): A port has been in HOLD for HOLD_LIM ms and is squelched as policy-squelched. -/
  | holdLimitExpiry (p : PortIx)
  /-- FAILOVER_SPARE_LOAD (R139): The failed half's word is loaded into the spare half, or refused, which starts the fallback policy. -/
  | failoverSpareLoad (c : CoreIx)
  /-- FAILOVER_SEARCH_DONE (R139): The narrow band search of the spare half ends at a band, or fails with FO_FAIL. -/
  | failoverSearchDone (c : CoreIx)
  /-- FAILOVER_PRELOCK_DONE (R139): The spare half completes pre-lock at the failed half's frequency. -/
  | failoverPrelockDone (c : CoreIx)
  /-- FAILOVER_PLACED (R139): The spare half is placed on the failed line, DRIVE is set, and each port passing the ceiling test is
  released. -/
  | failoverPlaced (c : CoreIx) (rot : Word) (resid : Int)
  /-- LG_CONFIG_WRITE (R144): A write to LG_MEM_LO, LG_MEM_HI or LG_SPARE is checked and applied at the chiplets, or refused with LGERR. -/
  | lgConfigWrite (o : Origin) (g : Fin 16) (w : Fin 3) (v : Word)
  /-- SKEW_MEAN_DONE (R145): The skew loop completes a mean over 2^14 edges or 1 ms, reports the error and corrects TRIM. -/
  | skewMeanDone (p : PortIx) (mean : Int)
  /-- SKEW_OFFSET_DONE (R146): A monitor-offset measurement on the reference line completes and switches the selector back to the port. -/
  | skewOffsetDone (p : PortIx) (offset : Int)
  /-- SKEW_TRIM_STEP (R147): Every 64 output cycles a started trim motion moves the port's edges by one 50 fs step. -/
  | skewTrimStep (p : PortIx)
  /-- PORT_TRIM_WRITE (R147): A host write of PORT_TRIM sets a new trim, which reaches the edges at the next boundary and starts a
  skew attempt. -/
  | portTrimWrite (o : Origin) (p : PortIx) (v : Word)
  /-- TEASEL_EDGE (R154): An edge reaches a Teasel channel and is accepted and stamped, or counted in HELD or OVERRUN. -/
  | teaselEdge (k : ChannelIx) (fall : Bool) (frac : BitVec 16)
  /-- SAMPLE_TAKE (R161): The sample path takes a stamp from the front FIFO, forms samples or pairs, and accumulates statistics
  and records. -/
  | sampleTake (k : ChannelIx)
  /-- MEAS_TIMEOUT (R166): The boundary Ta + 64 x TMO tk is reached, and the measurement ends with code TIMEOUT. -/
  | measTimeout (k : ChannelIx)
  /-- MEASDONE (R168): The result is formed and stored, DONE is set, MEASDONE is raised and the END record is queued. -/
  | measDone (k : ChannelIx)
  /-- TS_REG_ARM (R159): A write of 1 to TS_CMD.ARM captures TS_MEAS, TS_N and TS_TMO and arms at the next tick boundary after the
  checks. -/
  | tsRegArm (o : Origin) (k : ChannelIx) (v : Word)
  /-- TS_REG_DISARM (R159): A write of 1 to TS_CMD.DISARM ends the measurement at the next tick boundary. -/
  | tsRegDisarm (o : Origin) (k : ChannelIx) (v : Word)
  /-- RECORD_STORE (R172): A pending record is written to its ring when space allows, with a GAP record first after missed records. -/
  | recordStore (k : ChannelIx)
  /-- RING_CFG_WRITE (R171): A write to RING_CFG enables or configures a ring and resets WR, RD and LEVEL, or is refused with CFGBAD. -/
  | ringCfgWrite (o : Origin) (r : RingIx) (v : Word)
  /-- RING_RELEASE (R171): A write to RING_REL releases records and advances RD, or is refused with RELBAD. -/
  | ringRelease (o : Origin) (r : RingIx) (v : Word)
  /-- QUEUE_ENABLE (R186): A descriptor write setting EN from 0 to 1 is checked, reserves blocks and clears the queue's applied marks. -/
  | queueEnable (o : Origin) (q : QueueIx) (v : Word)
  /-- QUEUE_DISABLE (R187): A descriptor write clearing EN is accepted only with LEVEL = 0 and returns the blocks, or is refused
  with NOTEMPTY. -/
  | queueDisable (o : Origin) (q : QueueIx) (v : Word)
  /-- QUEUE_RESUME (R205): A write of RESUME = 1 clears STOPPED so that dispatch resumes. -/
  | queueResume (o : Origin) (q : QueueIx) (v : Word)
  /-- QUEUE_DESC_WRITE (R187): Any other queue descriptor write applies its allowed fields and refuses busy or invalid ones. -/
  | queueDescWrite (o : Origin) (q : QueueIx) (w : Fin 14) (v : Word)
  /-- ITEM_COMPLETE (R199): An item whose handler ended and whose actions and records are settled completes and frees its entries. -/
  | itemComplete (q : QueueIx) (seq : BitVec 48)
  /-- QUARANTINE_DEFERRED_MOVE (R206): When the quarantine queue frees space, a held third-fault item is moved into it. -/
  | quarantineDeferredMove (q : QueueIx) (seq : BitVec 48)
  /-- ENGINE_WDOG (R195): A handler holds its item for WDOG_US and faults with WDOG. -/
  | engineWdog (e : EngineIx)
  /-- ENGFAIL (R207): The fault handler declares an engine FAILED, and its held item is returned for re-dispatch. -/
  | engFail (e : EngineIx)
  /-- ENG_REINIT (R207): A write of 1 to ENG_CMD.REINIT re-initialises the engine, which returns to IDLE. -/
  | engReinit (o : Origin) (e : EngineIx) (v : Word)
  /-- YIELD_ELIGIBLE (R242): The delay named by a YIELD passes, and the returned item becomes eligible again. -/
  | yieldEligible (q : QueueIx) (seq : BitVec 48)
  /-- QM_LOAD_UPDATE (R209): Every 1 ms QM_LOAD is updated with the measured engine load. -/
  | qmLoadUpdate (pct : Fin 101)
  /-- ADD (R221): Sets gd = ga + gb. -/
  | cAdd (e : EngineIx) (d a b : GReg)
  /-- SUB (R221): Sets gd = ga - gb. -/
  | cSub (e : EngineIx) (d a b : GReg)
  /-- AND (R221): Bitwise AND of two registers. -/
  | cAnd (e : EngineIx) (d a b : GReg)
  /-- OR (R221): Bitwise OR of two registers. -/
  | cOr (e : EngineIx) (d a b : GReg)
  /-- XOR (R221): Bitwise XOR of two registers. -/
  | cXor (e : EngineIx) (d a b : GReg)
  /-- SLL (R221): Shifts ga left by gb[5:0]. -/
  | cSll (e : EngineIx) (d a b : GReg)
  /-- SRL (R221): Shifts ga right logically by gb[5:0]. -/
  | cSrl (e : EngineIx) (d a b : GReg)
  /-- SRA (R221): Shifts ga right arithmetically by gb[5:0]. -/
  | cSra (e : EngineIx) (d a b : GReg)
  /-- SLT (R221): Signed set-less-than of two registers. -/
  | cSlt (e : EngineIx) (d a b : GReg)
  /-- SLTU (R221): Unsigned set-less-than of two registers. -/
  | cSltu (e : EngineIx) (d a b : GReg)
  /-- MUL (R221): Low 64 bits of the product of two registers. -/
  | cMul (e : EngineIx) (d a b : GReg)
  /-- MULHU (R221): High 64 bits of the unsigned product of two registers. -/
  | cMulhu (e : EngineIx) (d a b : GReg)
  /-- DIVU (R221): Unsigned quotient, with a defined result for division by zero. -/
  | cDivu (e : EngineIx) (d a b : GReg)
  /-- REMU (R221): Unsigned remainder, with a defined result for division by zero. -/
  | cRemu (e : EngineIx) (d a b : GReg)
  /-- ADDI (R221): Adds a sign-extended immediate. -/
  | cAddi (e : EngineIx) (d a : GReg) (imm : BitVec 16)
  /-- ANDI (R221): Bitwise AND with a zero-extended immediate. -/
  | cAndi (e : EngineIx) (d a : GReg) (imm : BitVec 16)
  /-- ORI (R221): Bitwise OR with a zero-extended immediate. -/
  | cOri (e : EngineIx) (d a : GReg) (imm : BitVec 16)
  /-- XORI (R221): Bitwise XOR with a zero-extended immediate. -/
  | cXori (e : EngineIx) (d a : GReg) (imm : BitVec 16)
  /-- SLLI (R221): Shifts left by an immediate. -/
  | cSlli (e : EngineIx) (d a : GReg) (n : BitVec 6)
  /-- SRLI (R221): Shifts right logically by an immediate. -/
  | cSrli (e : EngineIx) (d a : GReg) (n : BitVec 6)
  /-- SRAI (R221): Shifts right arithmetically by an immediate. -/
  | cSrai (e : EngineIx) (d a : GReg) (n : BitVec 6)
  /-- SLTI (R221): Signed set-less-than against an immediate. -/
  | cSlti (e : EngineIx) (d a : GReg) (imm : BitVec 16)
  /-- LUI (R221): Loads a sign-extended immediate shifted left by 16. -/
  | cLui (e : EngineIx) (d : GReg) (imm : BitVec 16)
  /-- LDI (R221): Loads a sign-extended 32-bit immediate in long form. -/
  | cLdi (e : EngineIx) (d : GReg) (imm : Word)
  /-- LDI_U (R221): Loads a zero-extended 32-bit immediate in long form. -/
  | cLdiU (e : EngineIx) (d : GReg) (imm : Word)
  /-- LDI_H (R221): Loads a 32-bit immediate into the upper half of gd. -/
  | cLdiH (e : EngineIx) (d : GReg) (imm : Word)
  /-- BEQ (R222): Branches if two registers are equal. -/
  | cBeq (e : EngineIx) (a b : GReg) (imm : BitVec 16)
  /-- BNE (R222): Branches if two registers differ. -/
  | cBne (e : EngineIx) (a b : GReg) (imm : BitVec 16)
  /-- BLT (R222): Branches on signed less-than. -/
  | cBlt (e : EngineIx) (a b : GReg) (imm : BitVec 16)
  /-- BGE (R222): Branches on signed greater-or-equal. -/
  | cBge (e : EngineIx) (a b : GReg) (imm : BitVec 16)
  /-- BLTU (R222): Branches on unsigned less-than. -/
  | cBltu (e : EngineIx) (a b : GReg) (imm : BitVec 16)
  /-- BGEU (R222): Branches on unsigned greater-or-equal. -/
  | cBgeu (e : EngineIx) (a b : GReg) (imm : BitVec 16)
  /-- JAL (R222): Jumps PC-relative and links. -/
  | cJal (e : EngineIx) (d : GReg) (off : BitVec 21)
  /-- JALR (R222): Jumps to a register plus offset and links. -/
  | cJalr (e : EngineIx) (d a : GReg) (imm : BitVec 16)
  /-- JL (R222): Jumps to an absolute 32-bit address and links, in long form. -/
  | cJl (e : EngineIx) (d : GReg) (addr : Word)
  /-- LDS (R223): Loads from engine scratch. -/
  | cLds (e : EngineIx) (w : Fin 4) (u : Bool) (d a : GReg) (off : BitVec 13)
  /-- STS (R223): Stores to engine scratch. -/
  | cSts (e : EngineIx) (w : Fin 4) (d a : GReg) (off : BitVec 13)
  /-- LD (R224): Loads from the shared data space or the execute-in-place window. -/
  | cLd (e : EngineIx) (w : Fin 4) (u : Bool) (d a : GReg) (off : BitVec 13)
  /-- ST (R224): Stores to the program store in the shared data space. -/
  | cSt (e : EngineIx) (w : Fin 4) (d a : GReg) (off : BitVec 13)
  /-- AADD (R225): Atomic fetch-and-add on a program-store word. -/
  | cAadd (e : EngineIx) (d a b : GReg)
  /-- ASWP (R225): Atomic swap on a program-store word. -/
  | cAswp (e : EngineIx) (d a b : GReg)
  /-- ACAS (R225): Atomic compare-and-swap on a program-store word. -/
  | cAcas (e : EngineIx) (d a b : GReg)
  /-- RLD (R227): Reads a 32-bit register through Vetch as the engine's origin. -/
  | cRld (e : EngineIx) (d a : GReg) (imm : BitVec 16)
  /-- RST (R227): Writes a 32-bit register through Vetch as the engine's origin. -/
  | cRst (e : EngineIx) (d a : GReg) (imm : BitVec 16)
  /-- WRD (R228): Snapshots a wide value through the engine's mailbox into g or t registers. -/
  | cWrd (e : EngineIx) (a : GReg) (dest : WrdDest)
  /-- TAKE (R229): Copies the held item into scratch and returns its header. -/
  | cTake (e : EngineIx) (d b : GReg)
  /-- TAKE_H (R229): Takes the head item of a host queue into scratch. -/
  | cTakeH (e : EngineIx) (d b q : GReg)
  /-- PUT (R230): Submits an item from scratch to a queue, idempotently across re-runs. -/
  | cPut (e : EngineIx) (d b q : GReg) (busy : Bool)
  /-- PUT_WAIT_END (R230): A PUT held while acceptance ran above its rated speed is submitted once acceptance catches up. -/
  | putWaitEnd (e : EngineIx)
  /-- ACK (R231): Ends the handler with a code, releasing its staged actions toward completion. -/
  | cAck (e : EngineIx) (code : EndCode)
  /-- NACK (R231): Ends the handler finally with a NACK code, discarding its staged actions. -/
  | cNack (e : EngineIx) (code : EndCode)
  /-- TNOW (R232): Reads the time master's TS80 into a time register. -/
  | cTnow (e : EngineIx) (t : TReg)
  /-- TADD (R233): Adds signed ticks to a time register. -/
  | cTadd (e : EngineIx) (td ta : TReg) (b : GReg)
  /-- TADDF (R233): Adds signed fraction steps to a time register, with carry. -/
  | cTaddf (e : EngineIx) (td ta : TReg) (b : GReg)
  /-- TDIFF (R233): Takes the saturating difference of two time registers, in fraction steps. -/
  | cTdiff (e : EngineIx) (d : GReg) (ta tb : TReg)
  /-- TGET (R233): Splits a time register into tick and fraction. -/
  | cTget (e : EngineIx) (d b : GReg) (ta : TReg)
  /-- TPUT (R233): Builds a time register from a tick and a fraction. -/
  | cTput (e : EngineIx) (td : TReg) (a b : GReg)
  /-- TMOV (R233): Copies a time register. -/
  | cTmov (e : EngineIx) (td ta : TReg)
  /-- TWAIT (R234): Parks the engine until the time master's tick count reaches the operand. -/
  | cTwait (e : EngineIx) (ta : TReg)
  /-- TWAIT_RESUME (R234): The awaited tick is reached, and the waiting engine resumes. -/
  | twaitResume (e : EngineIx)
  /-- EVCNT (R236): Reads an event source's raise count. -/
  | cEvcnt (e : EngineIx) (d a : GReg)
  /-- WAITE (R236): Waits until an event source's raise count changes or a deadline passes. -/
  | cWaite (e : EngineIx) (d a b : GReg) (t : TReg)
  /-- WAITE_RESUME (R236): The count changes or the deadline is reached, and the waiting engine resumes with the count. -/
  | waiteResume (e : EngineIx)
  /-- CTXLD (R237): Copies a hop context atomically into scratch. -/
  | cCtxld (e : EngineIx) (a b : GReg)
  /-- CTXST (R237): Writes a hop context atomically from scratch, keeping USES. -/
  | cCtxst (e : EngineIx) (a b : GReg)
  /-- HOP (R239): Captures a hop context, anchors it, and posts a HOP action for a core. -/
  | cHop (e : EngineIx) (a b : GReg) (t : TReg)
  /-- PHASE (R239): Posts a PHASE action carrying FINE for a port. -/
  | cPhase (e : EngineIx) (a b : GReg) (t : TReg)
  /-- PORTSET (R239): Posts a PORTSET action carrying a masked port word. -/
  | cPortset (e : EngineIx) (a b c : GReg) (t : TReg)
  /-- MARK (R239): Posts a MARK action carrying a pulse count for a port. -/
  | cMark (e : EngineIx) (a b : GReg) (t : TReg)
  /-- ARM (R239): Posts an ARM action carrying a measurement word, N and TMO for a channel. -/
  | cArm (e : EngineIx) (a b c : GReg) (t : TReg)
  /-- DISARM (R239): Posts a DISARM action for a channel. -/
  | cDisarm (e : EngineIx) (a : GReg) (t : TReg)
  /-- STAT_R (R240): Reads a channel's result block into scratch. -/
  | cStatR (e : EngineIx) (d b a : GReg)
  /-- STAT_E (R240): Reads a channel's LAST_EDGE into a time register. -/
  | cStatE (e : EngineIx) (t : TReg) (a : GReg)
  /-- FENCE (R241): Releases the staged actions of the held item and continues. -/
  | cFence (e : EngineIx)
  /-- FENCE_W (R241): Releases the staged actions and waits for their verdicts. -/
  | cFenceW (e : EngineIx) (d : GReg)
  /-- FENCE_W_RESUME (R241): Every released action is judged, and FENCE.W returns the first hardware status. -/
  | fenceWResume (e : EngineIx)
  /-- YIELD (R242): Releases staged actions and returns the item to its queue's head for later. -/
  | cYield (e : EngineIx) (a : GReg)
  /-- TRAP (R243): Raises fault 0x40 + n. -/
  | cTrap (e : EngineIx) (n : BitVec 6)
  /-- HALT (R243): Raises NOACK. -/
  | cHalt (e : EngineIx)
  /-- HALT_S (R243): Raises NOACK and clears ENG_CFG.EN so that the engine goes OFF. -/
  | cHaltS (e : EngineIx)
  /-- XIP_INVALIDATE (R216): A write of 1 to XIP_CACHE.INV empties the XIP cache. -/
  | xipInvalidate (o : Origin) (v : Word)
  /-- XIP_FILL_START (R347): A waiting XIP line fill gets the master bus and starts its read frame. -/
  | xipFillStart
  /-- XIP_FILL_DONE (R349): An XIP line fill completes and the waiting engines continue. -/
  | xipFillDone (bytes : List Byte)
  /-- XIP_FILL_FAIL (R348): An XIP line fill times out or is ended, which faults each waiting engine. -/
  | xipFillFail
  /-- LMS_BLOCK_END (R255): An LMS block of 2^16 comparison cycles ends, the charge-pump trim moves, and convergence or timeout is
  judged. -/
  | lmsBlockEnd (c : CoreIx) (h : HalfIx) (move : Int)
  /-- DTC_BLOCK_END (R255): A DTC block ends, the gain trim and visited INL entries move, and convergence or timeout is judged. -/
  | dtcBlockEnd (c : CoreIx) (h : HalfIx) (move : Int) (bins : List (Nat × Int))
  /-- TRIM_BOUNDARY (R248): A driving-half slot passes free of hops and actions, and a pending trim change takes effect in bounded steps. -/
  | trimBoundary (c : CoreIx) (h : HalfIx)
  /-- SORREL_BACKGROUND_START (R251): A required unconverged instance, or one due for tracking after TRACK_S, starts a background run. -/
  | sorrelBackgroundStart (m : Fin 6) (t : Nat)
  /-- SORREL_REQUEST (R251): A write of SOR_REQ with GO = 1 starts a requested run, or is refused. -/
  | sorrelRequest (o : Origin) (v : Word)
  /-- CD_SYNC_TEST (R256): After 2^20 hits the code-density histogram is tested for synchrony. -/
  | cdSyncTest (k : ChannelIx) (codes most : Nat)
  /-- CD_AGREEMENT_TEST (R256): After each 2^22 hits the two half-tables are compared, and the run converges or continues. -/
  | cdAgreementTest (k : ChannelIx) (a b : List Nat)
  /-- CD_TIMEOUT (R256): A code-density run passes its timeout without converging. -/
  | cdTimeout (k : ChannelIx)
  /-- SKEW_ATTEMPT_TIMEOUT (R258): A skew attempt not converged after 1 s fails and restores TRIM. -/
  | skewAttemptTimeout (p : PortIx)
  /-- SKEW_FAIL_WAIT_END (R258): The 1 s pause after a failed skew attempt ends, and a new attempt starts. -/
  | skewFailWaitEnd (p : PortIx)
  /-- CDLY_TIMEOUT (R259): A cable-delay run passes 500 ms without converging. -/
  | cdlyTimeout (l : LinkIx)
  /-- CDLY_HI_WRITE (R259): A host write to CDLY_HI applies LO and HI together and ends any cable-delay run. -/
  | cdlyHiWrite (o : Origin) (l : LinkIx) (v : Word)
  /-- SOR_CTRL_WRITE (R258): A write to SOR_CTRL sets the background enables, TRACK_S and SK_FREEZE. -/
  | sorCtrlWrite (o : Origin) (v : Word)
  /-- NVM_STORE (R267): A paired write with CMD STORE passes the margin check and starts a calibration store, or is refused. -/
  | nvmStore (o : Origin) (v : Word)
  /-- NVM_AUTO_STORE (R267): With AUTO = 1, the first ALL_CONV after a cold reset starts a store. -/
  | nvmAutoStore
  /-- NVM_ERASE (R270): A paired write with CMD ERASE starts erasing a calibration bank, or is refused. -/
  | nvmErase (o : Origin) (v : Word)
  /-- NVM_ERASE_PHASE_DONE (R267): A store's sector erases complete and body programming begins. -/
  | nvmErasePhaseDone (r : NvmEnd := .done)
  /-- NVM_BODY_DONE (R267): A store's body is programmed and read back, and the check page is written, or the store ends with NVMFAIL. -/
  | nvmBodyDone (r : NvmEnd)
  /-- NVM_STORE_DONE (R267): A store writes its commit record, INUSE names the target and NVMOP is raised. -/
  | nvmStoreDone (r : NvmEnd := .done)
  /-- NVM_ERASE_DONE (R270): A bank erase completes. -/
  | nvmEraseDone (r : NvmEnd := .done)
  /-- RYREL_TRAINED (R273): A link gains CDR and block lock and leaves TRAIN. -/
  | ryrelTrained (l : LinkIx)
  /-- RYREL_BLOCK_LOCK_LOSS (R273): 16 invalid sync headers among 64 blocks drop the link to DOWN. -/
  | ryrelBlockLockLoss (l : LinkIx)
  /-- RY_ROLE_WRITE (R274): A write to RY_CFG.ROLE sets the link role, or stores off with CFG_ERR. -/
  | ryRoleWrite (o : Origin) (l : LinkIx) (v : Word)
  /-- HELLO_SEND (R279): Every 100 us a link in DISCOVER sends HELLO. -/
  | helloSend (l : LinkIx)
  /-- HELLO (R280): A received HELLO is checked for role, edition and depth pairing, and the join proceeds or is refused. -/
  | rxHello (l : LinkIx) (f : RyFrame)
  /-- JOIN (R280): The top manager receives a JOIN and admits, refuses or holds the candidate for approval. -/
  | rxJoin (l : LinkIx) (f : RyFrame)
  /-- ADMIT (R280): A received ADMIT assigns WID and level, then moves the link to CDLY or TIME, or to UP when FINAL. -/
  | rxAdmit (l : LinkIx) (f : RyFrame)
  /-- REFUSE (R281): A received REFUSE puts the link in REFUSED with its reason and raises RYREFUSE. -/
  | rxRefuse (l : LinkIx) (f : RyFrame)
  /-- LEAVE (R285): A received LEAVE declares the peer gone, parks the worker, or evicts. -/
  | rxLeave (l : LinkIx) (f : RyFrame)
  /-- READY (R280): The top manager receives READY, admits the worker, sends ADMIT FINAL and RESYNCs, and starts replay. -/
  | rxReady (l : LinkIx) (f : RyFrame)
  /-- HB_SEND (R282): Every 32,000 tk each end of a link sends HB. -/
  | hbSend (l : LinkIx)
  /-- HB (R282): A received HB restarts the miss count, and the peer is declared gone if CD_LOST or WRST is set. -/
  | rxHb (l : LinkIx) (f : RyFrame)
  /-- HB_MISS (R282): 32,000 tk pass without a valid HB; at the third miss the peer is declared gone. -/
  | hbMiss (l : LinkIx)
  /-- TT_SEND (R286): Every 16,384 tk each end sends a TT frame with its marker. -/
  | ttSend (l : LinkIx) (frac : BitVec 16)
  /-- TT (R286): A received TT completes an exchange, and round trip and offset are computed. -/
  | rxTt (l : LinkIx) (f : RyFrame) (frac : BitVec 16)
  /-- SERVO_PERIOD_END (R286): After 64 exchanges the worker requests a slew, and judges time lock and range. -/
  | servoPeriodEnd (l : LinkIx)
  /-- EPOCH (R287): A received EPOCH frame makes the worker compute the tick offset, step the replicas and slew the remainder. -/
  | rxEpoch (l : LinkIx) (f : RyFrame)
  /-- EPOCH_ARM_RETRY (R287): Every 10 us the time-transfer machine retries an epoch arm that was refused. -/
  | epochArmRetry
  /-- LACK_SEND (R277): At least every 2 us the receiver sends LACK with the highest in-order LSEQ. -/
  | lackSend (l : LinkIx)
  /-- LACK (R277): A received LACK retires acknowledged reliable frames. -/
  | rxLack (l : LinkIx) (f : RyFrame)
  /-- LNAK (R277): A received LNAK makes the sender resend from the named LSEQ. -/
  | rxLnak (l : LinkIx) (f : RyFrame)
  /-- RELIABLE_ACK_TIMEOUT (R277): A reliable frame goes 100 us unacknowledged, and the link goes DOWN. -/
  | reliableAckTimeout (l : LinkIx)
  /-- REFUSE_RETRY_TIMER (R281): 1 s after a FULL, DUPLICATE, CDLY or TIMEOUT refusal the link returns to DISCOVER. -/
  | refuseRetryTimer (l : LinkIx)
  /-- JOIN_TIMEOUT (R280): Steps 3 to 5 of a join do not end within 2 s, and the join is refused with TIMEOUT. -/
  | joinTimeout (l : LinkIx)
  /-- WT_APPROVE (R280): A write of APPROVE admits a pending candidate. -/
  | wtApprove (o : Origin) (w : WorkerIx) (v : Word)
  /-- WT_DENY (R281): A write of DENY refuses a pending candidate with reason HOST. -/
  | wtDeny (o : Origin) (w : WorkerIx) (v : Word)
  /-- WT_REPLAY (R295): A write of REPLAY sends the RESYNCs and starts a cold replay. -/
  | wtReplay (o : Origin) (w : WorkerIx) (v : Word)
  /-- WT_EVICT (R285): A paired write with EVICT removes a worker, frees its WID and ends its records. -/
  | wtEvict (o : Origin) (w : WorkerIx) (v : Word)
  /-- FWD_ENTRY_WRITE (R290): A write to a forwarding entry is applied, or refused with ERR. -/
  | fwdEntryWrite (o : Origin) (f : Fin 1024) (w : Fin 3) (v : Word)
  /-- FORWARDER_TAKE (R290): The forwarder takes an FQ head item, writes a mirror record and sends SUBMIT. -/
  | forwarderTake (f : Fin 1024)
  /-- SUBMIT (R291): A worker receives SUBMIT, deduplicates by MSEQ, submits the item and answers SUBRES. -/
  | rxSubmit (l : LinkIx) (f : RyFrame)
  /-- SUBRES (R291): The top manager acts on a SUBRES: record accepted, resend scheduled, or record ended. -/
  | rxSubres (l : LinkIx) (f : RyFrame)
  /-- FORWARD_RESEND (R291): RETRY_US after QFULL or GAP, the entry's SUBMITs are resent from that MSEQ. -/
  | forwardResend (f : Fin 1024)
  /-- DONE (R294): The top manager receives DONE, marks the record done, sends the completion record and DONEACK. -/
  | rxDone (l : LinkIx) (f : RyFrame)
  /-- DONEACK (R292): A worker receives DONEACK and removes the report from its ring. -/
  | rxDoneack (l : LinkIx) (f : RyFrame)
  /-- RESYNC (R291): A worker receives RESYNC and sets MM(q) to floor - 1. -/
  | rxResync (l : LinkIx) (f : RyFrame)
  /-- MIRROR_RETIRE (R294): The manager's tick passes HORIZON + 64, and a done mirror record retires. -/
  | mirrorRetire (k : Fin 16384)
  /-- EVENT_FORWARD (R297): An admitted worker sends EVENT for a Ryrel-routed source, at most once per us per source. -/
  | eventForward (src : SourceIx)
  /-- EVENT (R297): The top manager receives EVENT, stores it in WT_EVT and raises RYWEVT. -/
  | rxEvent (l : LinkIx) (f : RyFrame)
  /-- CDLOSS (R297): A received CDLOSS parks the reporting worker. -/
  | rxCdloss (l : LinkIx) (f : RyFrame)
  /-- RACC_GO (R298): A write of 1 to RY_RACC_CTRL.GO sends RREQ to a worker. -/
  | raccGo (o : Origin) (v : Word)
  /-- RREQ (R298): A worker receives RREQ, performs the register access and answers RRSP. -/
  | rxRreq (l : LinkIx) (f : RyFrame)
  /-- RRSP (R298): The top manager receives RRSP and sets RY_RACC_DATA and STATUS. -/
  | rxRrsp (l : LinkIx) (f : RyFrame)
  /-- RACC_TIMEOUT (R298): No RRSP arrives within 100 us, and STATUS reads TIMEOUT. -/
  | raccTimeout
  /-- REGISTER_WRITE (R306): A direct write to a register without behaviour of its own is applied under its access codes,
  arbitration and logging. -/
  | registerWrite (o : Origin) (a : RegAddr) (v : Word)
  /-- REGISTER_READ_CLEAR (R309): A direct read at the base offset returns the register and clears RCC bits whose cause has gone. -/
  | registerReadClear (o : Origin) (a : RegAddr)
  /-- ALIAS_SET (R302): A SET-alias write sets RW bits written as 1 in one read-modify-write. -/
  | aliasSet (o : Origin) (a : RegAddr) (v : Word)
  /-- ALIAS_CLEAR (R302): A CLEAR-alias write clears RW bits, and RCC bits whose cause has gone, written as 1. -/
  | aliasClear (o : Origin) (a : RegAddr) (v : Word)
  /-- ALIAS_TOGGLE (R302): A TOGGLE-alias write inverts RW bits written as 1. -/
  | aliasToggle (o : Origin) (a : RegAddr) (v : Word)
  /-- PAIR_OPEN (R314): A write of v to a PW register's _A address opens a pair for the origin. -/
  | pairOpen (o : Origin) (a : RegAddr) (v : Word)
  /-- PAIRED_WRITE (R314): A write of the complement to _B completes the pair and applies v, for a PW register without a command row. -/
  | pairedWrite (o : Origin) (a : RegAddr) (v : Word)
  /-- PERM_LOCK_SET (R323): A completed pair writing PERM_LOCK.LOCK = 1 locks the permission table until cold reset. -/
  | permLockSet (o : Origin)
  /-- TEST_MODE_WRITE (R303): A MAINT-class paired write of TEST_CTRL turns test mode on or off. -/
  | testModeWrite (o : Origin) (v : Word)
  /-- CFGPAR_SCRUB (R317): The scrubber checks configuration registers at least every 1 ms and corrects copies or freezes functions. -/
  | cfgparScrub (a : RegAddr) (v : Word)
  /-- TANSY_STORE (R326): Tansy stores a staged record in its ring, or loses it when the ring or staging FIFO is full. -/
  | tansyStore
  /-- TANSY_RD_WRITE (R326): A host write of TANSY_RD releases records and clears FULL in stop mode. -/
  | tansyRdWrite (o : Origin) (v : Word)
  /-- SSP_STATUS (R335): A STATUS frame returns the status byte only. -/
  | sspStatus (f : SspFrame)
  /-- SSP_READ (R336): A READ frame reads n registers in order as direct reads. -/
  | sspRead (f : SspFrame)
  /-- SSP_WRITE (R336): A WRITE frame, held whole, applies n register writes in order after SSEL_N rises. -/
  | sspWrite (f : SspFrame)
  /-- SSP_STREAM (R339): A STREAM frame submits its items to a queue in order until the first refusal. -/
  | sspStream (f : SspFrame)
  /-- SSP_MEMREAD (R336): A MEMREAD frame reads n words of on-chip memory. -/
  | sspMemread (f : SspFrame)
  /-- SSP_MEMWRITE (R336): A MEMWRITE frame writes n words of on-chip memory after SSEL_N rises. -/
  | sspMemwrite (f : SspFrame)
  /-- SM_GO (R344): A write of 1 to SM_CMD.GO starts a software master frame, or is refused. -/
  | smGo (o : Origin) (v : Word)
  /-- SM_FRAME_START (R344): A waiting software frame gets the free bus and begins clocking. -/
  | smFrameStart
  /-- SMDONE (R344): A software master frame ends: BUSY clears, DONE is set and SMDONE is raised. -/
  | smDone (rx : List Byte)
  /-- SM_GPIO_WRITE (R345): A write to SM_GPIO drives the general-purpose selects after earlier frames end. -/
  | smGpioWrite (o : Origin) (v : Word)
  /-- BAR0_REQUEST (R355): A BAR0 request is served as register accesses, or refused with Unsupported Request. -/
  | bar0Request (r : BarRequest)
  /-- BAR2_READ (R356): A BAR2 read returns on-chip memory, or is refused. -/
  | bar2Read (off : BitVec 25) (len : Nat)
  /-- BAR2_WRITE (R356): A BAR2 write stores to the program store, or is refused. -/
  | bar2Write (off : BitVec 25) (bytes : List (Option Byte))
  /-- PCIE_RESET (R354): A fundamental reset, hot reset, link-down or FLR resets only the endpoint. -/
  | pcieReset (k : EndpointReset)
  /-- PCIE_D3HOT (R354): The function enters D3hot and stops completing BAR requests and sending messages. -/
  | pcieD3hot
  /-- EVENT_RAISE (R357): A raise reaches the control die, which counts it, latches it in EV_STAT and routes it. -/
  | eventRaise
  /-- MSIX_MODERATION_END (R359): A vector's moderation interval ends, and merged raises send one message. -/
  | msixModerationEnd (v : VectorIx)
  /-- MSIX_UNMASK (R359): A vector or the function is unmasked, or bus mastering returns, and pending messages are sent. -/
  | msixUnmask (w : Unmask)
  /-- COLD_RESET (R364): PORST_N held low for 0.5 us or more cold-resets the T1024. -/
  | coldReset
  /-- WARM_RESET (R364): WRST_N held low for 0.5 us or more warm-resets the T1024. -/
  | warmReset
  /-- WARM_RESET_END (R379): A warm reset ends, keep-alives resume, and control-die loss faults are reported. -/
  | warmResetEnd
  /-- RST_WARM_CMD (R364): A paired write of RST_CTRL with CMD 0b01 makes a warm reset. -/
  | rstWarmCmd (o : Origin) (v : Word)
  /-- RST_COLD_CMD (R364): A paired write of RST_CTRL with CMD 0b10 makes a cold reset. -/
  | rstColdCmd (o : Origin) (v : Word)
  /-- CHIPLET_REINIT (R382): A paired write of RST_CTRL with CMD 0b11 starts re-initialising a chiplet. -/
  | chipletReinit (o : Origin) (v : Word)
  /-- CHIPLET_REINIT_DONE (R382): A chiplet re-initialisation completes within 50 ms, or fails with fault 0x09. -/
  | chipletReinitDone (n : ChipletIx) (ok : Bool)
  /-- BROWN_OUT (R365): A rail below 96 % for 2 us holds the T1024 in cold reset. -/
  | brownOut
  /-- BOOT_SRAM_TEST_DONE (R366): The SRAM test of boot step 1 ends, and the serial slave port is ready. -/
  | bootSramTestDone (bad : BitVec 16)
  /-- BOOT_CAL_LOADED (R266): The NVM loader loads the valid calibration bank, the seeds or the defaults. -/
  | bootCalLoaded (answers : Bool)
  /-- BOOT_IMAGE_LOADED (R368): The loader loads the valid boot slot's program and context images, or finds none. -/
  | bootImageLoaded (answers : Bool := true)
  /-- BOOT_CORE_BRINGUP (R366): Once the edition is selected and the reference locked, every half is powered and committed with a
  band search. -/
  | bootCoreBringup
  /-- BOOT_LIST_APPLY (R368): The boot image's register list is applied and the T1024 enters SL1. -/
  | bootListApply
  /-- HALF_BOOT_LOCK_TIMEOUT (R376): A half not locked within 2 ms of its boot commit is declared failed. -/
  | halfBootLockTimeout (c : CoreIx) (h : HalfIx)
  /-- HALF_RELOCK_TIMEOUT (R376): A powered half whose lock is not declared again within HALF_TMO_MS is declared failed. -/
  | halfRelockTimeout (c : CoreIx) (h : HalfIx)
  /-- EDITION_SELECT (R370): A write to EDITION_SEL selects edition A once, or is refused with ED_BAD. -/
  | editionSelect (o : Origin) (v : Word)
  /-- BOOT_ERASE (R369): A paired write of BOOT_CTRL with CMD ERASE erases a boot slot. -/
  | bootErase (o : Origin) (v : Word)
  /-- BOOT_PROGRAM (R369): A paired write with CMD PROGRAM copies bytes from the program store into a slot. -/
  | bootProgram (o : Origin) (v : Word)
  /-- BOOT_COMMIT (R369): A paired write with CMD COMMIT writes a slot's check page and commit record. -/
  | bootCommit (o : Origin) (v : Word)
  /-- BOOT_CMD_DONE (R369): A boot command completes and BOOT_STAT reports its outcome. -/
  | bootCmdDone (r : NvmEnd)
  /-- WDOG_KICK (R380): A write of 0x5AC3 to WDOG_KICK restarts the host watchdog. -/
  | wdogKick (o : Origin) (v : Word)
  /-- WDOG_CFG_WRITE (R380): A write to WDOG_CFG sets the period and action and starts the timer. -/
  | wdogCfgWrite (o : Origin) (v : Word)
  /-- WATCHDOG (R380): The host watchdog expires and acts under ACTION. -/
  | watchdog
  /-- REINIT_CORE (R381): REINIT with KIND 0 re-initialises a core and runs bring-up on it. -/
  | reinitCore (o : Origin) (v : Word)
  /-- REINIT_PORT (R381): REINIT with KIND 1 squelches a port and resets its page. -/
  | reinitPort (o : Origin) (v : Word)
  /-- REINIT_ENGINE (R381): REINIT with KIND 2 re-initialises an engine. -/
  | reinitEngine (o : Origin) (v : Word)
  /-- REINIT_LINK (R381): REINIT with KIND 3 takes a Ryrel link to DOWN and retrains it. -/
  | reinitLink (o : Origin) (v : Word)
  /-- REINIT_TEASEL_GROUP (R381): REINIT with KIND 4 aborts a Teasel group's measurements and clears its FIFOs. -/
  | reinitTeaselGroup (o : Origin) (v : Word)
  /-- REINIT_SORREL (R381): REINIT with KIND 5 re-initialises a Sorrel machine. -/
  | reinitSorrel (o : Origin) (v : Word)
  /-- REINIT_COMPLETE (R381): A function re-initialisation reaches its state, or fails at its limit with fault 0x09. -/
  | reinitComplete (ok : Bool) (j : Nat := 0)
  /-- CHIP_TEMP_UPDATE (R377): Every 1 ms CHIP_TEMP is updated, and the THERM fault is judged. -/
  | chipTempUpdate (temps : List Int)
  /-- ILLEGAL (R218): An engine executes a word with a reserved opcode, long opcode or func, a non-zero unused field, or a store
  with U = 1, and faults with ILLEGAL. -/
  | illegal (e : EngineIx) (w : Word)
  /-- REF_EDGES_RETURN (R44): Edges reappear on an absent reference, which sets its PRESENT bit and starts its qualification time. -/
  | refEdgesReturn (r : RefIx)
  /-- REF_ENABLE_WRITE (R43): A REF_CFG write that changes A_EN or B_EN enables a reference or disables it, which treats it as
  absent and may force a switchover or holdover. -/
  | refEnableWrite (o : Origin) (v : Word)
  /-- FINE_PHASE_STEP (R131): In each output cycle a port whose FINE target differs from its position moves toward it by at most
  2^-PH_SLEW of a period, and RAMPING clears when it arrives. -/
  | finePhaseStep (p : PortIx)
  /-- ENG_CFG_WRITE (R196): A write to ENG_CFG.EN takes an engine out of service at its next completion step, or brings an OFF
  engine back to IDLE so that it can be dispatched. -/
  | engCfgWrite (o : Origin) (e : EngineIx) (v : Word)
  /-- RESET_RELEASE (R366): PORST_N rises after a cold reset, and the boot sequence starts at step 1. -/
  | resetRelease
  /-- BROWN_OUT_END (R365): Every rail has been back within its operating range for 2 ms, so the brown-out cold reset is released
  and boot starts. -/
  | brownOutEnd
  /-- VDDH_MONITOR_LOW (R269): The VDDH monitor reads below 1.78 V, which makes stores refuse with PGMARGIN for the following 10 ms. -/
  | vddhMonitorLow
  /-- PCIE_LINK_UP (R352): The PCI Express link trains to L0 and sets LINK_UP, SPEED and WIDTH, after which BAR requests can be served. -/
  | pcieLinkUp (speed : Fin 5) (width : Fin 9) (host : HostCfg := {})
  /-- PCIE_D3HOT_EXIT (R354): The function returns from D3hot to D0, so BAR requests complete again and held MSI-X messages are sent. -/
  | pcieD3hotExit
  deriving DecidableEq, Repr

end Sys2Proof
end

