-- ==== Sys2Proof/Machine/Slave.lean ====
section
/-! DEFINITION. What the frames of the serial slave port say (R331 to R333): lanes, bytes, and the fields of a frame. -/

namespace Sys2Proof

/-! ## Lanes and bytes (R331) -/

/-- Bytes from bits, the most significant first. -/
def bytesOfBits : List Bool → List Byte
  | b7 :: b6 :: b5 :: b4 :: b3 :: b2 :: b1 :: b0 :: l =>
    BitVec.ofNat 8 ([b7, b6, b5, b4, b3, b2, b1, b0].foldl (fun v b => 2 * v + b.toNat) 0) :: bytesOfBits l
  | _ => []

/-- Bytes from nibbles, the high one first. -/
def bytesOfNibbles : List (BitVec 4) → List Byte
  | h :: l :: rest => (h ++ l) :: bytesOfNibbles rest
  | _ => []

/-- The bytes that the sampled lanes carry: the command on SIO0, the rest on SIO0, or on SIO3 to SIO0 where its `QUAD` is 1 (R332). -/
def laneBytes (l : List (BitVec 4)) : List Byte :=
  let single := fun (x : List (BitVec 4)) => bytesOfBits (x.map (·.getLsbD 0))
  let c := single (l.take 8)
  c ++ (if (c.headD 0).getLsbD 4 then bytesOfNibbles (l.drop 8) else single (l.drop 8))

/-- The lanes on which the host sends bytes: the command on SIO0, the rest on one lane or four. -/
def lanesOf (quad : Bool) (bs : List Byte) : List (BitVec 4) :=
  let bits := fun (b : Byte) => (List.range 8).map fun i => if b.getLsbD (7 - i) then (1 : BitVec 4) else 0
  let nibbles := fun (b : Byte) => [b.extractLsb' 4 4, b.extractLsb' 0 4]
  (bs.take 1).flatMap bits ++ (bs.drop 1).flatMap (if quad then nibbles else bits)

/-! ## Where SRDY can be low (R337) -/

/-- Whether edge `k`, after the edges sampled in `l`, can meet a low SRDY: the first of a frame, and one before a read word. -/
def srdyBoundary (k : Nat) (l : List (BitVec 4)) : Bool :=
  let bs := laneBytes l
  let at_ := fun (i : Nat) => (bs.getD i 0).toNat
  let quad := (at_ 0).testBit 4
  let op := at_ 0 % 16
  let head := if quad then 22 else 64
  let per := if quad then 8 else 32
  k == 0 || ((op == 1 || op == 4) && decide (head ≤ k) && (k - head) % per == 0 && decide ((k - head) / per < at_ 5 + 256 * at_ 6))

/-- Whether the host gave an edge while SRDY was low: at a boundary before which it can be, or anywhere in a frame that a reset
met (R341). -/
def SspFrame.viol (f : SspFrame) : Bool :=
  match f.low with
  | some k => decide (k < f.lanes.length) && (f.abort.isSome || srdyBoundary k (f.lanes.take k))
  | none => false

/-- The edges that the port samples: none from such an edge on. -/
def SspFrame.seen (f : SspFrame) : List (BitVec 4) := if f.viol then f.lanes.take (f.low.getD 0) else f.lanes

/-! ## Fields (R333) -/

/-- The bytes of a frame and its rising edges, as far as the port samples them. -/
def SspFrame.bytes (f : SspFrame) : List Byte := laneBytes f.seen
def SspFrame.edges (f : SspFrame) : Nat := f.seen.length

/-- Fields of a slave frame. -/
def SspFrame.byte (f : SspFrame) (i : Nat) : Nat := (f.bytes.getD i 0).toNat
def SspFrame.op (f : SspFrame) : Nat := f.byte 0 % 16
def SspFrame.quad (f : SspFrame) : Bool := (f.byte 0).testBit 4
def SspFrame.fixed (f : SspFrame) : Bool := (f.byte 0).testBit 5
def SspFrame.addr (f : SspFrame) : Nat := f.byte 1 + 256 * f.byte 2 + 65536 * f.byte 3 + 16777216 * f.byte 4
def SspFrame.count (f : SspFrame) : Nat := f.byte 5 + 256 * f.byte 6

/-- The edges after which the address and the count have arrived. -/
def SspFrame.addrEdge (f : SspFrame) : Nat := if f.quad then 16 else 40
def SspFrame.countEdge (f : SspFrame) : Nat := if f.quad then 20 else 56

/-- Whether the command, the address and the count have arrived. -/
def SspFrame.hasCmd (f : SspFrame) : Bool := decide (8 ≤ f.edges)
def SspFrame.hasAddr (f : SspFrame) : Bool := decide (f.addrEdge ≤ f.edges)
def SspFrame.hasCount (f : SspFrame) : Bool := decide (f.countEdge ≤ f.edges)

/-- Whether a frame reads. -/
def SspFrame.reads (f : SspFrame) : Bool := f.op == 1 || f.op == 4

/-- Whether SRDY goes low from the end of a frame until what it does is done (R337): one that writes or submits, and one rejected. -/
def SspFrame.stretches (f : SspFrame) (rej : Bool) : Bool := rej || [2, 3, 5].contains f.op

/-- The edge from which read data travels, and the edges of a word. -/
def SspFrame.dataEdge (f : SspFrame) : Nat := if f.quad then 22 else 64
def SspFrame.perWord (f : SspFrame) : Nat := if f.quad then 8 else 32

/-- The length of a frame in edges. -/
def SspFrame.length (f : SspFrame) : Nat :=
  if f.op = 0 then 8 else (if f.reads then f.dataEdge else f.countEdge) + f.perWord * f.count

/-- The address of word `i`. -/
def SspFrame.wordAddr (f : SspFrame) (i : Nat) : Nat := if f.fixed then f.addr else f.addr + 4 * i

/-- Data word `i` of a write frame. -/
def SspFrame.word (f : SspFrame) (i : Nat) : Word :=
  BitVec.ofNat 32 (f.byte (7 + 4 * i) + 256 * f.byte (8 + 4 * i) + 65536 * f.byte (9 + 4 * i) + 16777216 * f.byte (10 + 4 * i))

/-- How many words a read frame that ended early has been given: the first is fetched once the count is complete, each further one while
the one before shifts out (R336, R337). -/
def SspFrame.served (f : SspFrame) : Nat := min f.count (1 + (f.edges - f.dataEdge + f.perWord - 1) / f.perWord)

/-- The frame as it stood after `k` of its edges. -/
def SspFrame.upTo (f : SspFrame) (k : Nat) : SspFrame := { f with lanes := f.seen.take k, low := none }

/-! ## What the port drives (R331, R332, R334) -/

/-- The lanes that the port drives, and their levels, as each rising edge finds them: the status byte on SIO1, then 0 there but for the
data of a single-lane read; in a quad frame nothing, but for the data of a quad read on all four. From edge `bad` on, that of a
failed check, every lane that it drives is 1. -/
def SspFrame.driven (f : SspFrame) (status : Byte) (bad : Option Nat) (data : List Byte) : List (BitVec 4 × BitVec 4) :=
  let one := fun (b : Bool) => ((2 : BitVec 4), if b then (2 : BitVec 4) else 0)
  let byte := fun (i : Nat) => data.getD i 0
  (List.range f.lanes.length).map fun k =>
    let high := bad.any fun e => decide (e ≤ k)
    let i := k - f.dataEdge
    if k < 8 then one (status.getLsbD (7 - k))
    else if !f.quad then one (high || (f.reads && decide (64 ≤ k) && (byte (i / 8)).getLsbD (7 - i % 8)))
    else if f.reads && decide (22 ≤ k) then
      (15, if high then 15 else (byte (i / 2)).extractLsb' (if i % 2 = 0 then 4 else 0) 4)
    else (0, 0)

end Sys2Proof
end

