-- ==== Sys2Proof/Machine/CelilCode.lean ====
section
/-! DEFINITION. The encoding of Celil (R217, R218): the words of every instruction, and the decoder, which answers `none` for a
reserved opcode, long opcode or func, for a field that must be 0 and is not, and for a store with U = 1. -/

namespace Sys2Proof.Machine

/-! ## Encoding -/

/-- Format R. -/
def encR (op : Nat) (d a b : GReg) (func : Nat) : Word :=
  BitVec.ofNat 32 (op * 2 ^ 26 + d.val * 2 ^ 21 + a.val * 2 ^ 16 + b.val * 2 ^ 11 + func)
/-- Formats I, B and S: two register fields and 16 bits. -/
def encI (op : Nat) (d a : GReg) (imm : Nat) : Word :=
  BitVec.ofNat 32 (op * 2 ^ 26 + d.val * 2 ^ 21 + a.val * 2 ^ 16 + imm)
/-- Format J. -/
def encJ (op : Nat) (d : GReg) (off : BitVec 21) : Word := BitVec.ofNat 32 (op * 2 ^ 26 + d.val * 2 ^ 21 + off.toNat)
/-- Format M. -/
def encM (op : Nat) (d a : GReg) (w : Fin 4) (u : Bool) (off : BitVec 13) : Word :=
  BitVec.ofNat 32 (op * 2 ^ 26 + d.val * 2 ^ 21 + a.val * 2 ^ 16 + w.val * 2 ^ 14 + u.toNat * 2 ^ 13 + off.toNat)
/-- Format T. -/
def encT (op : Nat) (ga gb : GReg) (td ta tb : TReg) (func : Nat) : Word :=
  BitVec.ofNat 32 (op * 2 ^ 26 + ga.val * 2 ^ 21 + gb.val * 2 ^ 16 + td.val * 2 ^ 13 + ta.val * 2 ^ 10 + tb.val * 2 ^ 7 + func)
/-- Format A. -/
def encA (op : Nat) (a b c : GReg) (t : TReg) (func : Nat) : Word :=
  BitVec.ofNat 32 (op * 2 ^ 26 + a.val * 2 ^ 21 + b.val * 2 ^ 16 + c.val * 2 ^ 11 + t.val * 2 ^ 8 + func)
/-- Format L, word 0. -/
def encL (lop : Nat) (d : GReg) (func : Nat) : Word := BitVec.ofNat 32 (0x3F * 2 ^ 26 + lop * 2 ^ 20 + d.val * 2 ^ 15 + func)

/-- The words of an ACK (op 0x1A) or NACK (op 0x1B) (R231). -/
def encEnd (op : Nat) : EndCode → Word
  | .imm n => encI op 0 0 n.toNat
  | .reg a => encI op 0 a 0x8000

/-- The words of a WRD (R228). -/
def encWrd (a : GReg) : WrdDest → Word
  | .pair c => encA 0x17 a 0 c 0 0
  | .time t => encA 0x17 a 0 0 t 1

/-- The words of an instruction; `none` for a command that is no Celil instruction (R217, R221 to R243). -/
def celilWords : Instr → Option (List Word)
  | .cAdd _ d a b => some [encR 0 d a b 0]
  | .cSub _ d a b => some [encR 0 d a b 1]
  | .cAnd _ d a b => some [encR 0 d a b 2]
  | .cOr _ d a b => some [encR 0 d a b 3]
  | .cXor _ d a b => some [encR 0 d a b 4]
  | .cSll _ d a b => some [encR 0 d a b 5]
  | .cSrl _ d a b => some [encR 0 d a b 6]
  | .cSra _ d a b => some [encR 0 d a b 7]
  | .cSlt _ d a b => some [encR 0 d a b 8]
  | .cSltu _ d a b => some [encR 0 d a b 9]
  | .cMul _ d a b => some [encR 0 d a b 10]
  | .cMulhu _ d a b => some [encR 0 d a b 11]
  | .cDivu _ d a b => some [encR 0 d a b 12]
  | .cRemu _ d a b => some [encR 0 d a b 13]
  | .cAddi _ d a imm => some [encI 1 d a imm.toNat]
  | .cAndi _ d a imm => some [encI 2 d a imm.toNat]
  | .cOri _ d a imm => some [encI 3 d a imm.toNat]
  | .cXori _ d a imm => some [encI 4 d a imm.toNat]
  | .cSlli _ d a n => some [encI 5 d a n.toNat]
  | .cSrli _ d a n => some [encI 5 d a (64 + n.toNat)]
  | .cSrai _ d a n => some [encI 5 d a (128 + n.toNat)]
  | .cSlti _ d a imm => some [encI 6 d a imm.toNat]
  | .cLui _ d imm => some [encI 7 d 0 imm.toNat]
  | .cLdi _ d imm => some [encL 0 d 0, imm]
  | .cLdiU _ d imm => some [encL 0 d 1, imm]
  | .cLdiH _ d imm => some [encL 0 d 2, imm]
  | .cBeq _ a b imm => some [encI 8 a b imm.toNat]
  | .cBne _ a b imm => some [encI 9 a b imm.toNat]
  | .cBlt _ a b imm => some [encI 10 a b imm.toNat]
  | .cBge _ a b imm => some [encI 11 a b imm.toNat]
  | .cBltu _ a b imm => some [encI 12 a b imm.toNat]
  | .cBgeu _ a b imm => some [encI 13 a b imm.toNat]
  | .cJal _ d off => some [encJ 14 d off]
  | .cJalr _ d a imm => some [encI 15 d a imm.toNat]
  | .cJl _ d addr => some [encL 1 d 0, addr]
  | .cLds _ w u d a off => some [encM 0x10 d a w u off]
  | .cSts _ w d a off => some [encM 0x11 d a w false off]
  | .cLd _ w u d a off => some [encM 0x12 d a w u off]
  | .cSt _ w d a off => some [encM 0x13 d a w false off]
  | .cAadd _ d a b => some [encR 0x14 d a b 0]
  | .cAswp _ d a b => some [encR 0x14 d a b 1]
  | .cAcas _ d a b => some [encR 0x14 d a b 2]
  | .cRld _ d a imm => some [encI 0x15 d a imm.toNat]
  | .cRst _ d a imm => some [encI 0x16 d a imm.toNat]
  | .cWrd _ a dest => some [encWrd a dest]
  | .cTake _ d b => some [encA 0x18 0 b d 0 0]
  | .cTakeH _ d b q => some [encA 0x18 q b d 0 1]
  | .cPut _ d b q _ => some [encA 0x19 q b d 0 0]
  | .cAck _ c => some [encEnd 0x1A c]
  | .cNack _ c => some [encEnd 0x1B c]
  | .cTnow _ t => some [encT 0x1C 0 0 t 0 0 0]
  | .cTadd _ td ta b => some [encT 0x1D 0 b td ta 0 0]
  | .cTaddf _ td ta b => some [encT 0x1D 0 b td ta 0 1]
  | .cTdiff _ d ta tb => some [encT 0x1D d 0 0 ta tb 2]
  | .cTget _ d b ta => some [encT 0x1D d b 0 ta 0 3]
  | .cTput _ td a b => some [encT 0x1D a b td 0 0 4]
  | .cTmov _ td ta => some [encT 0x1D 0 0 td ta 0 5]
  | .cTwait _ ta => some [encT 0x1E 0 0 0 ta 0 0]
  | .cWaite _ d a b t => some [encA 0x1F a b d t 0]
  | .cEvcnt _ d a => some [encA 0x20 a 0 d 0 0]
  | .cCtxld _ a b => some [encA 0x21 a b 0 0 0]
  | .cCtxst _ a b => some [encA 0x22 a b 0 0 0]
  | .cHop _ a b t => some [encA 0x23 a b 0 t 0]
  | .cPhase _ a b t => some [encA 0x24 a b 0 t 0]
  | .cPortset _ a b c t => some [encA 0x25 a b c t 0]
  | .cMark _ a b t => some [encA 0x26 a b 0 t 0]
  | .cArm _ a b c t => some [encA 0x27 a b c t 0]
  | .cDisarm _ a t => some [encA 0x28 a 0 0 t 0]
  | .cStatR _ d b a => some [encA 0x29 a b d 0 0]
  | .cStatE _ t a => some [encA 0x29 a 0 0 t 1]
  | .cFence _ => some [encI 0x2A 0 0 0]
  | .cFenceW _ d => some [encI 0x2A d 0 1]
  | .cYield _ a => some [encI 0x2B 0 a 0]
  | .cTrap _ n => some [encI 0x2C 0 0 n.toNat]
  | .cHalt _ => some [encI 0x2D 0 0 0]
  | .cHaltS _ => some [encI 0x2D 0 0 1]
  | _ => none

/-! ## Decoding -/

/-- `w` bits of a word from bit `lo` up. -/
def bitsAt (n lo w : Nat) : Nat := n / 2 ^ lo % 2 ^ w

/-- A register named by a 5-bit field, and a time register by a 3-bit one. -/
def gOf (n lo : Nat) : GReg := Fin.ofNat 32 (bitsAt n lo 5)
def tOf (n lo : Nat) : TReg := Fin.ofNat 8 (bitsAt n lo 3)

/-- Op 0x00 by its func (R221). -/
def decInt (e : EngineIx) (n : Nat) : Option Instr :=
  let d := gOf n 21
  let a := gOf n 16
  let b := gOf n 11
  match bitsAt n 0 11 with
  | 0 => some (.cAdd e d a b)
  | 1 => some (.cSub e d a b)
  | 2 => some (.cAnd e d a b)
  | 3 => some (.cOr e d a b)
  | 4 => some (.cXor e d a b)
  | 5 => some (.cSll e d a b)
  | 6 => some (.cSrl e d a b)
  | 7 => some (.cSra e d a b)
  | 8 => some (.cSlt e d a b)
  | 9 => some (.cSltu e d a b)
  | 10 => some (.cMul e d a b)
  | 11 => some (.cMulhu e d a b)
  | 12 => some (.cDivu e d a b)
  | 13 => some (.cRemu e d a b)
  | _ => none

/-- Op 0x14 by its func (R225). -/
def decAtomic (e : EngineIx) (n : Nat) : Option Instr :=
  let d := gOf n 21
  let a := gOf n 16
  let b := gOf n 11
  match bitsAt n 0 11 with
  | 0 => some (.cAadd e d a b)
  | 1 => some (.cAswp e d a b)
  | 2 => some (.cAcas e d a b)
  | _ => none

/-- Op 0x05 (R221): imm[7:6] names the shift, imm[15:8] is 0. -/
def decShift (e : EngineIx) (n : Nat) : Option Instr :=
  let d := gOf n 21
  let a := gOf n 16
  let k := BitVec.ofNat 6 (bitsAt n 0 6)
  match bitsAt n 6 10 with
  | 0 => some (.cSlli e d a k)
  | 1 => some (.cSrli e d a k)
  | 2 => some (.cSrai e d a k)
  | _ => none

/-- ACK and NACK (R231). -/
def decEnd (n : Nat) : Option EndCode :=
  if bitsAt n 21 5 ≠ 0 || bitsAt n 6 9 ≠ 0 then none
  else if bitsAt n 15 1 = 0 then if bitsAt n 16 5 = 0 then some (.imm (BitVec.ofNat 6 (bitsAt n 0 6))) else none
  else if bitsAt n 0 6 = 0 then some (.reg (gOf n 16)) else none

/-- Op 0x1D by its func: the fields that an instruction does not name must be 0 (R233). -/
def decTime (e : EngineIx) (n : Nat) : Option Instr :=
  let z := fun (a b d x y : Bool) => -- which of ga, gb, td, ta, tb must be 0
    (!a || bitsAt n 21 5 == 0) && (!b || bitsAt n 16 5 == 0) && (!d || bitsAt n 13 3 == 0) && (!x || bitsAt n 10 3 == 0) &&
      (!y || bitsAt n 7 3 == 0)
  match bitsAt n 0 7 with
  | 0 => if z true false false false true then some (.cTadd e (tOf n 13) (tOf n 10) (gOf n 16)) else none
  | 1 => if z true false false false true then some (.cTaddf e (tOf n 13) (tOf n 10) (gOf n 16)) else none
  | 2 => if z false true true false false then some (.cTdiff e (gOf n 21) (tOf n 10) (tOf n 7)) else none
  | 3 => if z false false true false true then some (.cTget e (gOf n 21) (gOf n 16) (tOf n 10)) else none
  | 4 => if z false false false true true then some (.cTput e (tOf n 13) (gOf n 21) (gOf n 16)) else none
  | 5 => if z true true false false true then some (.cTmov e (tOf n 13) (tOf n 10)) else none
  | _ => none

/-- The long form by its long opcode and func; `w1` is its second word. -/
def decLong (e : EngineIx) (n : Nat) (w1 : Word) : Option Instr :=
  if bitsAt n 2 13 ≠ 0 then none
  else
    let d := gOf n 15
    match bitsAt n 20 6, bitsAt n 0 2 with
    | 0, 0 => some (.cLdi e d w1)
    | 0, 1 => some (.cLdiU e d w1)
    | 0, 2 => some (.cLdiH e d w1)
    | 1, 0 => some (.cJl e d w1)
    | _, _ => none

/-- Keep a decoded instruction only if a test on unused fields holds. -/
def onlyIf (b : Bool) (i : Instr) : Option Instr := if b then some i else none

/-- Format A instructions, ops 0x17 to 0x19, 0x1F to 0x29. -/
def decA (e : EngineIx) (op n : Nat) : Option Instr :=
  let a := gOf n 21
  let b := gOf n 16
  let c := gOf n 11
  let t := tOf n 8
  let f := bitsAt n 0 8
  let za := bitsAt n 21 5 == 0
  let zb := bitsAt n 16 5 == 0
  let zc := bitsAt n 11 5 == 0
  let zt := bitsAt n 8 3 == 0
  match op with
  | 0x17 =>
    if f = 0 then onlyIf (zb && zt) (.cWrd e a (.pair c)) else onlyIf (f == 1 && zb && zc) (.cWrd e a (.time t))
  | 0x18 => if f = 0 then onlyIf (za && zt) (.cTake e c b) else onlyIf (f == 1 && zt) (.cTakeH e c b a)
  | 0x19 => onlyIf (f == 0 && zt) (.cPut e c b a false)
  | 0x1F => onlyIf (f == 0) (.cWaite e c a b t)
  | 0x20 => onlyIf (f == 0 && zb && zt) (.cEvcnt e c a)
  | 0x21 => onlyIf (f == 0 && zc && zt) (.cCtxld e a b)
  | 0x22 => onlyIf (f == 0 && zc && zt) (.cCtxst e a b)
  | 0x23 => onlyIf (f == 0 && zc) (.cHop e a b t)
  | 0x24 => onlyIf (f == 0 && zc) (.cPhase e a b t)
  | 0x25 => onlyIf (f == 0) (.cPortset e a b c t)
  | 0x26 => onlyIf (f == 0 && zc) (.cMark e a b t)
  | 0x27 => onlyIf (f == 0) (.cArm e a b c t)
  | 0x28 => onlyIf (f == 0 && zb && zc) (.cDisarm e a t)
  | 0x29 => if f = 0 then onlyIf zt (.cStatR e c b a) else onlyIf (f == 1 && zb && zc) (.cStatE e t a)
  | _ => none

/-- Decode an instruction of engine `e` from its first word and, for the long form, its second (R217, R218). -/
def celilDecode (e : EngineIx) (w w1 : Word) : Option Instr :=
  let n := w.toNat
  let d := gOf n 21
  let a := gOf n 16
  let imm := BitVec.ofNat 16 (bitsAt n 0 16)
  let wd : Fin 4 := Fin.ofNat 4 (bitsAt n 14 2)
  let u := bitsAt n 13 1 == 1
  let off := BitVec.ofNat 13 (bitsAt n 0 13)
  let zd := bitsAt n 21 5 == 0
  let za := bitsAt n 16 5 == 0
  let zi := bitsAt n 0 16 == 0
  match bitsAt n 26 6 with
  | 0x00 => decInt e n
  | 0x01 => some (.cAddi e d a imm)
  | 0x02 => some (.cAndi e d a imm)
  | 0x03 => some (.cOri e d a imm)
  | 0x04 => some (.cXori e d a imm)
  | 0x05 => decShift e n
  | 0x06 => some (.cSlti e d a imm)
  | 0x07 => onlyIf za (.cLui e d imm)
  | 0x08 => some (.cBeq e d a imm)
  | 0x09 => some (.cBne e d a imm)
  | 0x0A => some (.cBlt e d a imm)
  | 0x0B => some (.cBge e d a imm)
  | 0x0C => some (.cBltu e d a imm)
  | 0x0D => some (.cBgeu e d a imm)
  | 0x0E => some (.cJal e d (BitVec.ofNat 21 (bitsAt n 0 21)))
  | 0x0F => some (.cJalr e d a imm)
  | 0x10 => some (.cLds e wd u d a off)
  | 0x11 => onlyIf (!u) (.cSts e wd d a off)
  | 0x12 => some (.cLd e wd u d a off)
  | 0x13 => onlyIf (!u) (.cSt e wd d a off)
  | 0x14 => decAtomic e n
  | 0x15 => some (.cRld e d a imm)
  | 0x16 => some (.cRst e d a imm)
  | 0x1A => (decEnd n).map (Instr.cAck e)
  | 0x1B => (decEnd n).map (Instr.cNack e)
  | 0x1C => onlyIf (zd && za && bitsAt n 0 13 == 0) (.cTnow e (tOf n 13))
  | 0x1D => decTime e n
  | 0x1E => onlyIf (zd && za && bitsAt n 13 3 == 0 && bitsAt n 0 10 == 0) (.cTwait e (tOf n 10))
  | 0x2A => if zi then onlyIf (zd && za) (.cFence e) else onlyIf (za && bitsAt n 0 16 == 1) (.cFenceW e d)
  | 0x2B => onlyIf (zd && zi) (.cYield e a)
  | 0x2C => onlyIf (zd && za && bitsAt n 6 10 == 0) (.cTrap e (BitVec.ofNat 6 (bitsAt n 0 6)))
  | 0x2D => if zi then onlyIf (zd && za) (.cHalt e) else onlyIf (zd && za && bitsAt n 0 16 == 1) (.cHaltS e)
  | 0x3F => decLong e n w1
  | op => decA e op n

end Sys2Proof.Machine
end

