-- ==== Sys2Proof/Config.lean ====
section
/-! DEFINITION. What one T1024 fixes for itself and the spec leaves open: the values below have no body, so nothing in Lean
can evaluate them and no statement can rest on a number. -/

namespace Sys2Proof

/-- A value that the spec leaves open, drawn afresh at each use: the use number is the state's counter `freeCtr`. -/
opaque Config.freeValue : Nat → Nat

/-- The 64-bit serial number of the part (R371). Each part carries its own. -/
opaque Config.serialNumber : BitVec 64

/-- The path delay of the alignment strobe at each chiplet, trimmed at manufacture (R55). -/
opaque Config.strobeDelay : Nat → Nat

/-- Whether what stands in an NVM sector, by its number and its erase cycles, fails to read back once it has been erased more often than
R416 endures (log entry 117). -/
opaque Config.wornFails : Nat → Nat → Bool

/-- The offset of the instantaneous divider ratio, within its order's range, at each comparison edge of a second- or third-order
modulator (R74). -/
opaque Config.modOffset : Nat → Nat

end Sys2Proof
end

