-- ==== Sys2Proof/Machine/RegMap.lean ====
section
/-! DEFINITION. The register map (R386, R389 to R394): every 32-bit register of the T1024 outside the mailbox page, with
its address, its index strides, its reset word and the access code of each of its bits (R9), and one named field per
field of the spec's register tables. The tables are those of the chapters that define the registers. -/

namespace Sys2Proof.Machine

/-- One name per register family of R389 to R394, spelled as the spec spells it. A family with an index (a chiplet, a core, a
half, a port, a queue) is one name; the index is an argument of its address. -/
inductive RegId where
  | ID_PART | EDITION_SEL | SL_CAP | SL_STAT | RST_CTRL_A | RST_CTRL_B | RST_STAT | FAULT_SUM | FAULT_CNT | FH_CFG
  | ASYNC_SPEED | ASYNC_LIMIT | CHIP_STAT | HALF_FAIL | ENG_FAIL | COMMIT_STAT | MEM_BANK_STAT | REINIT | WDOG_CFG
  | WDOG_KICK | BOOT_STAT | CHIP_TEMP | PORT_MEN_A | PORT_MEN_B | BOOT_CTRL_A | BOOT_CTRL_B | BOOT_SRC | BOOT_DST
  | BOOT_LEN | LG_MEM_LO | LG_MEM_HI | LG_SPARE | LG_CFG | LG_TGT | LG_STAT | LG_CNT | QM_CFG | QM_STAT | QM_LOAD
  | QM_CNT | XIP_CACHE | PCIE_CFG | PCIE_STAT | PCIE_CNT | PERM_CLASS | ORIGIN_CLASS | PERM_LOCK_A | PERM_LOCK_B
  | TEST_CTRL_A | TEST_CTRL_B | VETCH_STAT | VETCH_CNT | VETCH_CNT2 | CFGPAR_STAT | CFGPAR_CNT | CFGPAR_FROZEN
  | TANSY_CFG | TANSY_WR | TANSY_RD | TANSY_CNT | TANSY_STAT | REF_CFG | REFA_FREQ | REFB_FREQ | REF_QUAL | REF_STAT
  | REF_SWCNT | TB_STAT | EPOCH_CTRL_A | EPOCH_CTRL_B | EPOCH_TICK_LO | EPOCH_TICK_HI | EPOCH_STAT | EPOCH_TOL
  | HOLD_CFG | EPOCH_PER | TB_SLEW | PM_GEN | REPL_PHASE | EV_CFG | EV_GSUM | EV_STAT | EV_ROUTE | CORE_ID
  | CORE_CTRL | CORE_STAT | HOP_CFG | HOP_STAT | HOP_CNT | HOP_CNT2 | HALF_CFG | FB_INT | FB_FRAC_LO | FB_FRAC_HI
  | FB_NUM | FB_DEN | BAND_CFG | HALF_CMD | LD_CFG | HALF_STAT | HALF_ERR | HALF_CNT | LD_DIFF | SOR_CTRL | SOR_STAT
  | SOR_REQ | SOR_FAIL | SOR_CNT | CDLY_LO | CDLY_HI | CDLY_ASYM | CDLY_STAT | NVM_CFG | NVM_CTRL_A | NVM_CTRL_B
  | NVM_STAT | NVM_GEN_A | NVM_GEN_B | HT_STAT | HT_FORCE | CD_STAT | SSP_CFG | SSP_STAT | SSP_CNT | SSP_STREAM
  | SM_CFG | SM_GPIO | SM_TIME | SM_FRM0 | SM_FRM1 | SM_FRM2 | SM_CMD | SM_STAT | SM_XIP | SM_XIP_TMO | SM_CNT
  | SM_BUF | RY_GCFG | RY_GSTAT | RY_WORKERS | RY_RACC_ADDR | RY_RACC_DATA | RY_RACC_CTRL | RY_CFG | RY_STAT | RY_CNT
  | RY_CNT2 | RY_TT | FWD_CFG | FWD_DST | FWD_CQ | FWD_STAT | WT_STAT | WT_CTRL | WT_CTRL_A | WT_CTRL_B | ENG_CFG
  | ENG_WDOG | ENG_CMD | ENG_STAT | ENG_CNT | ENG_PC | TSG_CFG | TS_ID | TS_IN | TS_HOLDOFF | TS_MEAS | TS_N | TS_TMO
  | TS_CMD | TS_STAT | TS_ERR | TS_LIVE | TS_CNT1 | TS_CNT2 | TS_CNT3 | TS_CNT4 | RING_CFG | RING_WR | RING_RD
  | RING_STAT | RING_REL | PORT_ID | PORT_CFG | PORT_DIV | PORT_FINE | PORT_CMD | PORT_CEIL | PORT_LOCK | PORT_MK
  | PORT_MK2 | PORT_HOLD | PORT_SKEW | PORT_TRIM | PORT_STAT | PORT_ACT | PORT_ACTF | PORT_ERR | PORT_CNT
  | PORT_SKMEAS | QD_CTRL | QD_LEN | QD_ENTRY | QD_ARG | QD_AFF | QD_STAT | QD_CNT
  deriving DecidableEq, Repr

/-- One row of the register map. Register (i, j) of the family lies at `base + s1 * i + s2 * j`. The masks say which bits carry
which access code of R9; `rsvd` are the bits a table calls reserved with access RW, which are written back as read (R303). -/
structure RegRow where
  base : Nat
  s1 : Nat
  n1 : Nat
  s2 : Nat
  n2 : Nat
  reset : Nat
  rw : Nat
  rcc : Nat
  cnt : Nat
  hwo : Nat
  wo1 : Nat
  pw : Nat
  ro : Nat
  rsvd : Nat
  deriving DecidableEq, Repr

/-- A field of a register: its bits are [lo + w - 1 : lo]. -/
structure Fld where
  reg : RegId
  lo : Nat
  w : Nat
  deriving DecidableEq, Repr

/-- The rows of R389 to R394. -/
def regRow : RegId → RegRow
  | .ID_PART => ⟨0x0, 0x4, 1, 0x4, 1, 0x11024, 0x0, 0x0, 0x0, 0x0, 0x0, 0x0, 0xFFFFFFFF, 0x0⟩
  | .EDITION_SEL => ⟨0x4, 0x4, 1, 0x4, 1, 0x0, 0x0, 0x100, 0x0, 0x0, 0xFF, 0x0, 0x0, 0xFFFFFE00⟩
  | .SL_CAP => ⟨0x10, 0x4, 1, 0x4, 1, 0x0, 0x0, 0x0, 0x0, 0xFFFFFFFF, 0x0, 0x0, 0x0, 0x0⟩
  | .SL_STAT => ⟨0x14, 0x4, 1, 0x4, 1, 0x10, 0x0, 0x8, 0x0, 0x77, 0x0, 0x0, 0x0, 0xFFFFFF80⟩
  | .RST_CTRL_A => ⟨0x20, 0x4, 1, 0x4, 1, 0x0, 0x0, 0x0, 0x0, 0x0, 0x0, 0xFFFFFFFF, 0x0, 0x0⟩
  | .RST_CTRL_B => ⟨0x24, 0x4, 1, 0x4, 1, 0x0, 0x0, 0x0, 0x0, 0x0, 0x0, 0xFFFFFFFF, 0x0, 0x0⟩
  | .RST_STAT => ⟨0x28, 0x4, 1, 0x4, 1, 0x0, 0x0, 0x0, 0xFFFFFF0, 0x7, 0x0, 0x0, 0x0, 0xF0000008⟩
  | .FAULT_SUM => ⟨0x30, 0x4, 1, 0x4, 1, 0x0, 0x0, 0x1FF, 0x0, 0xFF0000, 0x0, 0x0, 0x0, 0xFF00FE00⟩
  | .FAULT_CNT => ⟨0x34, 0x4, 1, 0x4, 1, 0x0, 0x0, 0x0, 0xFFFF, 0x0, 0x0, 0x0, 0x0, 0xFFFF0000⟩
  | .FH_CFG => ⟨0x38, 0x4, 1, 0x4, 1, 0x64, 0xFF, 0x0, 0x0, 0x0, 0x0, 0x0, 0x0, 0xFFFFFF00⟩
  | .ASYNC_SPEED => ⟨0x40, 0x4, 1, 0x4, 1, 0x0, 0x0, 0x40000000, 0x0, 0x80000FFF, 0x0, 0x0, 0x0, 0x3FFFF000⟩
  | .ASYNC_LIMIT => ⟨0x44, 0x4, 1, 0x4, 1, 0x460, 0x1FFF, 0x0, 0x0, 0x0, 0x0, 0x0, 0x0, 0xFFFFE000⟩
  | .CHIP_STAT => ⟨0x48, 0x4, 1, 0x4, 1, 0x0, 0x0, 0x0, 0x0, 0xFFFFFF, 0x0, 0x0, 0x0, 0xFF000000⟩
  | .HALF_FAIL => ⟨0x50, 0x4, 4, 0x4, 1, 0x0, 0x0, 0x0, 0x0, 0xFFFFFFFF, 0x0, 0x0, 0x0, 0x0⟩
  | .ENG_FAIL => ⟨0x60, 0x4, 8, 0x4, 1, 0x0, 0x0, 0x0, 0x0, 0xFFFFFFFF, 0x0, 0x0, 0x0, 0x0⟩
  | .COMMIT_STAT => ⟨0x80, 0x4, 8, 0x4, 1, 0x0, 0x0, 0x60000000, 0x0, 0x80001FFF, 0x0, 0x0, 0x0, 0x1FFFE000⟩
  | .MEM_BANK_STAT => ⟨0xA0, 0x4, 1, 0x4, 1, 0x0, 0x0, 0x0, 0x0, 0xFFFF, 0x0, 0x0, 0x0, 0xFFFF0000⟩
  | .REINIT => ⟨0xA4, 0x4, 1, 0x4, 1, 0x0, 0x3FFF, 0x0, 0x0, 0xFC000, 0x0, 0x0, 0x0, 0xFFF00000⟩
  | .WDOG_CFG => ⟨0xB0, 0x4, 1, 0x4, 1, 0x0, 0x3FFFF, 0x40000, 0x0, 0x0, 0x0, 0x0, 0x0, 0xFFF80000⟩
  | .WDOG_KICK => ⟨0xB4, 0x4, 1, 0x4, 1, 0x0, 0xFFFF, 0x0, 0x0, 0x0, 0x0, 0x0, 0x0, 0xFFFF0000⟩
  | .BOOT_STAT => ⟨0xD0, 0x4, 1, 0x4, 1, 0x2, 0x0, 0x2C, 0x0, 0x3D3, 0x0, 0x0, 0x0, 0xFFFFFC00⟩
  | .CHIP_TEMP => ⟨0xE0, 0x4, 8, 0x4, 1, 0x0, 0x0, 0x0, 0x0, 0xFF, 0x0, 0x0, 0x0, 0xFFFFFF00⟩
  | .PORT_MEN_A => ⟨0x100, 0x4, 1, 0x4, 1, 0x0, 0x0, 0x0, 0x0, 0x0, 0x0, 0xFFFFFFFF, 0x0, 0x0⟩
  | .PORT_MEN_B => ⟨0x104, 0x4, 1, 0x4, 1, 0x0, 0x0, 0x0, 0x0, 0x0, 0x0, 0xFFFFFFFF, 0x0, 0x0⟩
  | .BOOT_CTRL_A => ⟨0x120, 0x4, 1, 0x4, 1, 0x0, 0x0, 0x0, 0x0, 0x0, 0x0, 0xFFFFFFFF, 0x0, 0x0⟩
  | .BOOT_CTRL_B => ⟨0x124, 0x4, 1, 0x4, 1, 0x0, 0x0, 0x0, 0x0, 0x0, 0x0, 0xFFFFFFFF, 0x0, 0x0⟩
  | .BOOT_SRC => ⟨0x128, 0x4, 1, 0x4, 1, 0x0, 0x3FFFFF, 0x0, 0x0, 0x0, 0x0, 0x0, 0x0, 0xFFC00000⟩
  | .BOOT_DST => ⟨0x12C, 0x4, 1, 0x4, 1, 0x0, 0x7FFFFF, 0x0, 0x0, 0x0, 0x0, 0x0, 0x0, 0xFF800000⟩
  | .BOOT_LEN => ⟨0x130, 0x4, 1, 0x4, 1, 0x0, 0x7FFFFF, 0x0, 0x0, 0x0, 0x0, 0x0, 0x0, 0xFF800000⟩
  | .LG_MEM_LO => ⟨0x400, 0x20, 16, 0x20, 1, 0x0, 0xFFFFFFFF, 0x0, 0x0, 0x0, 0x0, 0x0, 0x0, 0x0⟩
  | .LG_MEM_HI => ⟨0x404, 0x20, 16, 0x20, 1, 0x0, 0xFFFFFFFF, 0x0, 0x0, 0x0, 0x0, 0x0, 0x0, 0x0⟩
  | .LG_SPARE => ⟨0x408, 0x20, 16, 0x20, 1, 0x0, 0xFFFFFFFF, 0x0, 0x0, 0x0, 0x0, 0x0, 0x0, 0x0⟩
  | .LG_CFG => ⟨0x40C, 0x20, 16, 0x20, 1, 0x0, 0x1, 0x0, 0x0, 0x0, 0x0, 0x0, 0x0, 0xFFFFFFFE⟩
  | .LG_TGT => ⟨0x410, 0x20, 16, 0x20, 1, 0x0, 0xFFFF, 0x0, 0x0, 0x0, 0x0, 0x0, 0x0, 0xFFFF0000⟩
  | .LG_STAT => ⟨0x414, 0x20, 16, 0x20, 1, 0x0, 0x0, 0x600, 0x0, 0x1FF, 0x0, 0x0, 0x0, 0xFFFFF800⟩
  | .LG_CNT => ⟨0x418, 0x20, 16, 0x20, 1, 0x0, 0x0, 0x0, 0xFFFF, 0x0, 0x0, 0x0, 0x0, 0xFFFF0000⟩
  | .QM_CFG => ⟨0x800, 0x4, 1, 0x4, 1, 0x0, 0xFF, 0x0, 0x0, 0x0, 0x0, 0x0, 0x0, 0xFFFFFF00⟩
  | .QM_STAT => ⟨0x804, 0x4, 1, 0x4, 1, 0x3FC0, 0x0, 0x10000, 0x0, 0x1EFFFF, 0x0, 0x0, 0x0, 0xFFE00000⟩
  | .QM_LOAD => ⟨0x808, 0x4, 1, 0x4, 1, 0x0, 0x0, 0x0, 0x0, 0x7F, 0x0, 0x0, 0x0, 0xFFFFFF80⟩
  | .QM_CNT => ⟨0x80C, 0x4, 1, 0x4, 1, 0x0, 0x0, 0x0, 0xFFFFFFFF, 0x0, 0x0, 0x0, 0x0, 0x0⟩
  | .XIP_CACHE => ⟨0x880, 0x4, 1, 0x4, 1, 0x1, 0x3, 0x4, 0xFFFF0000, 0x0, 0x0, 0x0, 0x0, 0xFFF8⟩
  | .PCIE_CFG => ⟨0x900, 0x4, 1, 0x4, 1, 0x1, 0x1, 0x0, 0x0, 0x0, 0x0, 0x0, 0x0, 0xFFFFFFFE⟩
  | .PCIE_STAT => ⟨0x904, 0x4, 1, 0x4, 1, 0x0, 0x0, 0xE00, 0x0, 0x1FF, 0x0, 0x0, 0x0, 0xFFFFF000⟩
  | .PCIE_CNT => ⟨0x908, 0x4, 1, 0x4, 1, 0x0, 0x0, 0x0, 0xFFFFFFFF, 0x0, 0x0, 0x0, 0x0, 0x0⟩
  | .PERM_CLASS => ⟨0x44000, 0x4, 4, 0x4, 1, 0xFFFFFFFF, 0xFFFFFFFF, 0x0, 0x0, 0x0, 0x0, 0x0, 0x0, 0x0⟩
  | .ORIGIN_CLASS => ⟨0x44010, 0x4, 1, 0x4, 1, 0x0, 0x3, 0x0, 0x0, 0x0, 0x0, 0x0, 0x0, 0xFFFFFFFC⟩
  | .PERM_LOCK_A => ⟨0x44020, 0x4, 1, 0x4, 1, 0x0, 0x0, 0x0, 0x0, 0x0, 0x0, 0xFFFFFFFF, 0x0, 0x0⟩
  | .PERM_LOCK_B => ⟨0x44024, 0x4, 1, 0x4, 1, 0x0, 0x0, 0x0, 0x0, 0x0, 0x0, 0xFFFFFFFF, 0x0, 0x0⟩
  | .TEST_CTRL_A => ⟨0x44028, 0x4, 1, 0x4, 1, 0x0, 0x0, 0x0, 0x0, 0x0, 0x0, 0xFFFFFFFF, 0x0, 0x0⟩
  | .TEST_CTRL_B => ⟨0x4402C, 0x4, 1, 0x4, 1, 0x0, 0x0, 0x0, 0x0, 0x0, 0x0, 0xFFFFFFFF, 0x0, 0x0⟩
  | .VETCH_STAT => ⟨0x44040, 0x4, 1, 0x4, 1, 0x0, 0x0, 0x3F, 0x0, 0xF00, 0x0, 0x0, 0x0, 0xFFFFF0C0⟩
  | .VETCH_CNT => ⟨0x44044, 0x4, 1, 0x4, 1, 0x0, 0x0, 0x0, 0xFFFFFFFF, 0x0, 0x0, 0x0, 0x0, 0x0⟩
  | .VETCH_CNT2 => ⟨0x44048, 0x4, 1, 0x4, 1, 0x0, 0x0, 0x0, 0xFFFFFFFF, 0x0, 0x0, 0x0, 0x0, 0x0⟩
  | .CFGPAR_STAT => ⟨0x44050, 0x4, 1, 0x4, 1, 0x0, 0x0, 0x1000000, 0x0, 0xFFFFFF, 0x0, 0x0, 0x0, 0xFE000000⟩
  | .CFGPAR_CNT => ⟨0x44054, 0x4, 1, 0x4, 1, 0x0, 0x0, 0x0, 0xFFFFFFFF, 0x0, 0x0, 0x0, 0x0, 0x0⟩
  | .CFGPAR_FROZEN => ⟨0x44058, 0x4, 1, 0x4, 1, 0x0, 0x0, 0x0, 0x0, 0xFFF, 0x0, 0x0, 0x0, 0xFFFFF000⟩
  | .TANSY_CFG => ⟨0x48000, 0x4, 1, 0x4, 1, 0x0, 0x1, 0x0, 0x0, 0x0, 0x0, 0x0, 0x0, 0xFFFFFFFE⟩
  | .TANSY_WR => ⟨0x48004, 0x4, 1, 0x4, 1, 0x0, 0x0, 0x0, 0x0, 0x1FFFF, 0x0, 0x0, 0x0, 0xFFFE0000⟩
  | .TANSY_RD => ⟨0x48008, 0x4, 1, 0x4, 1, 0x0, 0xFFFF, 0x0, 0x0, 0x0, 0x0, 0x0, 0x0, 0xFFFF0000⟩
  | .TANSY_CNT => ⟨0x4800C, 0x4, 1, 0x4, 1, 0x0, 0x0, 0x0, 0xFFFFFFFF, 0x0, 0x0, 0x0, 0x0, 0x0⟩
  | .TANSY_STAT => ⟨0x48010, 0x4, 1, 0x4, 1, 0x0, 0x0, 0x7, 0x0, 0x0, 0x0, 0x0, 0x0, 0xFFFFFFF8⟩
  | .REF_CFG => ⟨0x80000, 0x4, 1, 0x4, 1, 0x10A6431, 0x3FFFF3F, 0x0, 0x0, 0x0, 0x0, 0x0, 0x0, 0xFC0000C0⟩
  | .REFA_FREQ => ⟨0x80004, 0x4, 1, 0x4, 1, 0x5F5E100, 0xFFFFFFFF, 0x0, 0x0, 0x0, 0x0, 0x0, 0x0, 0x0⟩
  | .REFB_FREQ => ⟨0x80008, 0x4, 1, 0x4, 1, 0x5F5E100, 0xFFFFFFFF, 0x0, 0x0, 0x0, 0x0, 0x0, 0x0, 0x0⟩
  | .REF_QUAL => ⟨0x8000C, 0x4, 1, 0x4, 1, 0x64, 0xFFFF, 0x0, 0x0, 0x0, 0x0, 0x0, 0x0, 0xFFFF0000⟩
  | .REF_STAT => ⟨0x80010, 0x4, 1, 0x4, 1, 0x30, 0x0, 0x1F80, 0x0, 0x7F, 0x0, 0x0, 0x0, 0xFFFFE000⟩
  | .REF_SWCNT => ⟨0x80014, 0x4, 1, 0x4, 1, 0x0, 0x0, 0x0, 0xFFFFFFFF, 0x0, 0x0, 0x0, 0x0, 0x0⟩
  | .TB_STAT => ⟨0x80020, 0x4, 1, 0x4, 1, 0x0, 0x0, 0x6000, 0x0, 0x1FFF, 0x0, 0x0, 0x0, 0xFFFF8000⟩
  | .EPOCH_CTRL_A => ⟨0x80030, 0x4, 1, 0x4, 1, 0x0, 0x0, 0x0, 0x0, 0x0, 0x0, 0xFFFFFFFF, 0x0, 0x0⟩
  | .EPOCH_CTRL_B => ⟨0x80034, 0x4, 1, 0x4, 1, 0x0, 0x0, 0x0, 0x0, 0x0, 0x0, 0xFFFFFFFF, 0x0, 0x0⟩
  | .EPOCH_TICK_LO => ⟨0x80038, 0x4, 1, 0x4, 1, 0x0, 0xFFFFFFFF, 0x0, 0x0, 0x0, 0x0, 0x0, 0x0, 0x0⟩
  | .EPOCH_TICK_HI => ⟨0x8003C, 0x4, 1, 0x4, 1, 0x0, 0xFFFFFFFF, 0x0, 0x0, 0x0, 0x0, 0x0, 0x0, 0x0⟩
  | .EPOCH_STAT => ⟨0x80040, 0x4, 1, 0x4, 1, 0x0, 0x0, 0x1E, 0xFFFF0000, 0x1, 0x0, 0x0, 0x0, 0xFFE0⟩
  | .EPOCH_TOL => ⟨0x80044, 0x4, 1, 0x4, 1, 0x20, 0xFFFF, 0x0, 0x0, 0x0, 0x0, 0x0, 0x0, 0xFFFF0000⟩
  | .HOLD_CFG => ⟨0x80048, 0x4, 1, 0x4, 1, 0x0, 0xFFFF, 0x0, 0x0, 0x0, 0x0, 0x0, 0x0, 0xFFFF0000⟩
  | .EPOCH_PER => ⟨0x8004C, 0x4, 1, 0x4, 1, 0xF4240, 0xFFFFFFFF, 0x0, 0x0, 0x0, 0x0, 0x0, 0x0, 0x0⟩
  | .TB_SLEW => ⟨0x80050, 0x4, 1, 0x4, 1, 0xA000000, 0xFFFFFFFF, 0x0, 0x0, 0x0, 0x0, 0x0, 0x0, 0x0⟩
  | .PM_GEN => ⟨0x80058, 0x4, 1, 0x4, 1, 0x0, 0x0, 0x0, 0x0, 0xFFFF, 0x0, 0x0, 0x0, 0xFFFF0000⟩
  | .REPL_PHASE => ⟨0x80060, 0x4, 8, 0x4, 1, 0x0, 0x0, 0x40000000, 0x0, 0x8000FFFF, 0x0, 0x0, 0x0, 0x3FFF0000⟩
  | .EV_CFG => ⟨0xC0000, 0x4, 1, 0x4, 1, 0x1000, 0x1FFF, 0x0, 0x0, 0x0, 0x0, 0x0, 0x0, 0xFFFFE000⟩
  | .EV_GSUM => ⟨0xC0004, 0x4, 1, 0x4, 1, 0x0, 0x0, 0x0, 0x0, 0xFFF, 0x0, 0x0, 0x0, 0xFFFFF000⟩
  | .EV_STAT => ⟨0xC0100, 0x4, 12, 0x4, 1, 0x0, 0x0, 0xFFFFFFFF, 0x0, 0x0, 0x0, 0x0, 0x0, 0x0⟩
  | .EV_ROUTE => ⟨0xC0800, 0x4, 384, 0x4, 1, 0x0, 0xFFF, 0x0, 0x0, 0x0, 0x0, 0x0, 0x0, 0xFFFFF000⟩
  | .CORE_ID => ⟨0x100000, 0x4000, 64, 0x4000, 1, 0x0, 0x0, 0x0, 0x0, 0x0, 0x0, 0x0, 0xFFFFFFFF, 0x0⟩
  | .CORE_CTRL => ⟨0x100004, 0x4000, 64, 0x4000, 1, 0x0, 0x3, 0x0, 0x0, 0x0, 0x0, 0x0, 0x0, 0xFFFFFFFC⟩
  | .CORE_STAT => ⟨0x100008, 0x4000, 64, 0x4000, 1, 0x0, 0x0, 0x8, 0x0, 0x7, 0x0, 0x0, 0x0, 0xFFFFFFF0⟩
  | .HOP_CFG => ⟨0x100040, 0x4000, 64, 0x4000, 1, 0x2, 0x3, 0x0, 0x0, 0x0, 0x0, 0x0, 0x0, 0xFFFFFFFC⟩
  | .HOP_STAT => ⟨0x100044, 0x4000, 64, 0x4000, 1, 0x0, 0x0, 0x3F0, 0x0, 0xFFFFC0F, 0x0, 0x0, 0x0, 0xF0000000⟩
  | .HOP_CNT => ⟨0x100048, 0x4000, 64, 0x4000, 1, 0x0, 0x0, 0x0, 0xFFFFFFFF, 0x0, 0x0, 0x0, 0x0, 0x0⟩
  | .HOP_CNT2 => ⟨0x10004C, 0x4000, 64, 0x4000, 1, 0x0, 0x0, 0x0, 0xFFFFFFFF, 0x0, 0x0, 0x0, 0x0, 0x0⟩
  | .HALF_CFG => ⟨0x100100, 0x4000, 64, 0x100, 2, 0x310, 0x73F, 0x0, 0x0, 0x0, 0x0, 0x0, 0x0, 0xFFFFF8C0⟩
  | .FB_INT => ⟨0x100104, 0x4000, 64, 0x100, 2, 0x4, 0x7F, 0x0, 0x0, 0x0, 0x0, 0x0, 0x0, 0xFFFFFF80⟩
  | .FB_FRAC_LO => ⟨0x100108, 0x4000, 64, 0x100, 2, 0x0, 0xFFFFFFFF, 0x0, 0x0, 0x0, 0x0, 0x0, 0x0, 0x0⟩
  | .FB_FRAC_HI => ⟨0x10010C, 0x4000, 64, 0x100, 2, 0x0, 0xFFFF, 0x0, 0x0, 0x0, 0x0, 0x0, 0x0, 0xFFFF0000⟩
  | .FB_NUM => ⟨0x100110, 0x4000, 64, 0x100, 2, 0x0, 0xFFFFFFFF, 0x0, 0x0, 0x0, 0x0, 0x0, 0x0, 0x0⟩
  | .FB_DEN => ⟨0x100114, 0x4000, 64, 0x100, 2, 0x1, 0xFFFFFFFF, 0x0, 0x0, 0x0, 0x0, 0x0, 0x0, 0x0⟩
  | .BAND_CFG => ⟨0x100118, 0x4000, 64, 0x100, 2, 0x0, 0x7FF, 0x0, 0x0, 0x0, 0x0, 0x0, 0x0, 0xFFFFF800⟩
  | .HALF_CMD => ⟨0x10011C, 0x4000, 64, 0x100, 2, 0x0, 0x1, 0x0, 0x0, 0x0, 0x0, 0x0, 0x0, 0xFFFFFFFE⟩
  | .LD_CFG => ⟨0x100120, 0x4000, 64, 0x100, 2, 0x4010409, 0xFFFFFF1F, 0x0, 0x0, 0x0, 0x0, 0x0, 0x0, 0xE0⟩
  | .HALF_STAT => ⟨0x100124, 0x4000, 64, 0x100, 2, 0x20400000, 0x0, 0xC, 0x0, 0x7FFFFFF3, 0x0, 0x0, 0x0, 0x80000000⟩
  | .HALF_ERR => ⟨0x100128, 0x4000, 64, 0x100, 2, 0x0, 0x0, 0x1FFF, 0x0, 0xF0000, 0x0, 0x0, 0x0, 0xFFF0E000⟩
  | .HALF_CNT => ⟨0x10012C, 0x4000, 64, 0x100, 2, 0x0, 0x0, 0x0, 0xFFFFFFFF, 0x0, 0x0, 0x0, 0x0, 0x0⟩
  | .LD_DIFF => ⟨0x100130, 0x4000, 64, 0x100, 2, 0x0, 0x0, 0x0, 0x0, 0xFFFFFFFF, 0x0, 0x0, 0x0, 0x0⟩
  | .SOR_CTRL => ⟨0x200000, 0x4, 1, 0x4, 1, 0x12C17, 0xFFFF1F, 0x0, 0x0, 0x0, 0x0, 0x0, 0x0, 0xFF0000E0⟩
  | .SOR_STAT => ⟨0x200004, 0x4, 1, 0x4, 1, 0xB, 0x0, 0x60, 0x0, 0x1F, 0x0, 0x0, 0x0, 0xFFFFFF80⟩
  | .SOR_REQ => ⟨0x200008, 0x4, 1, 0x4, 1, 0x0, 0x7FFF, 0x0, 0x0, 0x18000, 0x0, 0x0, 0x0, 0xFFFE0000⟩
  | .SOR_FAIL => ⟨0x20000C, 0x4, 1, 0x4, 1, 0x0, 0x0, 0x0, 0x0, 0x7FFFFF, 0x0, 0x0, 0x0, 0xFF800000⟩
  | .SOR_CNT => ⟨0x200010, 0x4, 1, 0x4, 1, 0x0, 0x0, 0x0, 0xFFFFFFFF, 0x0, 0x0, 0x0, 0x0, 0x0⟩
  | .CDLY_LO => ⟨0x200100, 0x10, 16, 0x10, 1, 0x0, 0xFFFFFFFF, 0x0, 0x0, 0x0, 0x0, 0x0, 0x0, 0x0⟩
  | .CDLY_HI => ⟨0x200104, 0x10, 16, 0x10, 1, 0x0, 0xFFFF, 0x0, 0x0, 0x0, 0x0, 0x0, 0x0, 0xFFFF0000⟩
  | .CDLY_ASYM => ⟨0x200108, 0x10, 16, 0x10, 1, 0x0, 0xFFFF, 0x0, 0x0, 0x0, 0x0, 0x0, 0x0, 0xFFFF0000⟩
  | .CDLY_STAT => ⟨0x20010C, 0x10, 16, 0x10, 1, 0x0, 0x0, 0x0, 0x0, 0x1F, 0x0, 0x0, 0x0, 0xFFFFFFE0⟩
  | .NVM_CFG => ⟨0x204000, 0x4, 1, 0x4, 1, 0x0, 0x1FFFF, 0x0, 0x0, 0x0, 0x0, 0x0, 0x0, 0xFFFE0000⟩
  | .NVM_CTRL_A => ⟨0x204004, 0x4, 1, 0x4, 1, 0x0, 0x0, 0x0, 0x0, 0x0, 0x0, 0xFFFFFFFF, 0x0, 0x0⟩
  | .NVM_CTRL_B => ⟨0x204008, 0x4, 1, 0x4, 1, 0x0, 0x0, 0x0, 0x0, 0x0, 0x0, 0xFFFFFFFF, 0x0, 0x0⟩
  | .NVM_STAT => ⟨0x20400C, 0x4, 1, 0x4, 1, 0x4C0000, 0x0, 0x380, 0x0, 0x3FFFFC7F, 0x0, 0x0, 0x0, 0xC0000000⟩
  | .NVM_GEN_A => ⟨0x204010, 0x4, 1, 0x4, 1, 0xFFFFFFFF, 0x0, 0x0, 0x0, 0xFFFFFFFF, 0x0, 0x0, 0x0, 0x0⟩
  | .NVM_GEN_B => ⟨0x204014, 0x4, 1, 0x4, 1, 0xFFFFFFFF, 0x0, 0x0, 0x0, 0xFFFFFFFF, 0x0, 0x0, 0x0, 0x0⟩
  | .HT_STAT => ⟨0x208100, 0x4000, 8, 0x10, 16, 0x0, 0x0, 0x100, 0x0, 0xFF, 0x0, 0x0, 0x0, 0xFFFFFE00⟩
  | .HT_FORCE => ⟨0x208104, 0x4000, 8, 0x10, 16, 0x200000, 0x0, 0x0, 0x0, 0x3FFFFF, 0x0, 0x0, 0x0, 0xFFC00000⟩
  | .CD_STAT => ⟨0x208400, 0x4000, 8, 0x4, 160, 0x0, 0x8, 0x0, 0x0, 0x17, 0x0, 0x0, 0x0, 0xFFFFFFE0⟩
  | .SSP_CFG => ⟨0x300000, 0x4, 1, 0x4, 1, 0x1, 0x1, 0x0, 0x0, 0x0, 0x0, 0x0, 0x0, 0xFFFFFFFE⟩
  | .SSP_STAT => ⟨0x300004, 0x4, 1, 0x4, 1, 0x0, 0x0, 0x70, 0x0, 0x18F, 0x0, 0x0, 0x0, 0xFFFFFE00⟩
  | .SSP_CNT => ⟨0x300008, 0x4, 1, 0x4, 1, 0x0, 0x0, 0x0, 0xFFFFFFFF, 0x0, 0x0, 0x0, 0x0, 0x0⟩
  | .SSP_STREAM => ⟨0x30000C, 0x4, 1, 0x4, 1, 0x0, 0x0, 0x0, 0x0, 0x7FFFFF7F, 0x0, 0x0, 0x0, 0x80000080⟩
  | .SM_CFG => ⟨0x304000, 0x4, 1, 0x4, 1, 0xC, 0xFFFF, 0x0, 0x0, 0x0, 0x0, 0x0, 0x0, 0xFFFF0000⟩
  | .SM_GPIO => ⟨0x304004, 0x4, 1, 0x4, 1, 0xF, 0xF, 0x0, 0x0, 0x0, 0x0, 0x0, 0x0, 0xFFFFFFF0⟩
  | .SM_TIME => ⟨0x304008, 0x4, 1, 0x4, 1, 0x80202, 0x3FFFFFF, 0x0, 0x0, 0x0, 0x0, 0x0, 0x0, 0xFC000000⟩
  | .SM_FRM0 => ⟨0x304010, 0x4, 1, 0x4, 1, 0x10000, 0x3FFFFFFF, 0x0, 0x0, 0x0, 0x0, 0x0, 0x0, 0xC0000000⟩
  | .SM_FRM1 => ⟨0x304014, 0x4, 1, 0x4, 1, 0x0, 0xFFFFFFFF, 0x0, 0x0, 0x0, 0x0, 0x0, 0x0, 0x0⟩
  | .SM_FRM2 => ⟨0x304018, 0x4, 1, 0x4, 1, 0x0, 0xFFFF, 0x0, 0x0, 0x0, 0x0, 0x0, 0x0, 0xFFFF0000⟩
  | .SM_CMD => ⟨0x30401C, 0x4, 1, 0x4, 1, 0x0, 0x1, 0x0, 0x0, 0x0, 0x0, 0x0, 0x0, 0xFFFFFFFE⟩
  | .SM_STAT => ⟨0x304020, 0x4, 1, 0x4, 1, 0x0, 0x0, 0x6E, 0x0, 0x791, 0x0, 0x0, 0x0, 0xFFFFF800⟩
  | .SM_XIP => ⟨0x304030, 0x4, 1, 0x4, 1, 0x18, 0x7FFFFF, 0x0, 0x0, 0x0, 0x0, 0x0, 0x0, 0xFF800000⟩
  | .SM_XIP_TMO => ⟨0x304034, 0x4, 1, 0x4, 1, 0x64, 0xFFFF, 0x0, 0x0, 0x0, 0x0, 0x0, 0x0, 0xFFFF0000⟩
  | .SM_CNT => ⟨0x304038, 0x4, 1, 0x4, 1, 0x0, 0x0, 0x0, 0xFFFFFFFF, 0x0, 0x0, 0x0, 0x0, 0x0⟩
  | .SM_BUF => ⟨0x304800, 0x4, 128, 0x4, 1, 0x0, 0xFFFFFFFF, 0x0, 0x0, 0x0, 0x0, 0x0, 0x0, 0x0⟩
  | .RY_GCFG => ⟨0x310000, 0x4, 1, 0x4, 1, 0xA2, 0xFF3, 0x0, 0x0, 0x0, 0x0, 0x0, 0x0, 0xFFFFF00C⟩
  | .RY_GSTAT => ⟨0x310004, 0x4, 1, 0x4, 1, 0x1001, 0x0, 0x6000, 0x0, 0x3FFF9FFF, 0x0, 0x0, 0x0, 0xC0000000⟩
  | .RY_WORKERS => ⟨0x310008, 0x4, 1, 0x4, 1, 0x0, 0x0, 0x0, 0x0, 0xFFFFFFFF, 0x0, 0x0, 0x0, 0x0⟩
  | .RY_RACC_ADDR => ⟨0x310010, 0x4, 1, 0x4, 1, 0x0, 0xFFFFFFFF, 0x0, 0x0, 0x0, 0x0, 0x0, 0x0, 0x0⟩
  | .RY_RACC_DATA => ⟨0x310014, 0x4, 1, 0x4, 1, 0x0, 0xFFFFFFFF, 0x0, 0x0, 0x0, 0x0, 0x0, 0x0, 0x0⟩
  | .RY_RACC_CTRL => ⟨0x310018, 0x4, 1, 0x4, 1, 0x0, 0x3FF, 0x0, 0x0, 0x3C00, 0x0, 0x0, 0x0, 0xFFFFC000⟩
  | .RY_CFG => ⟨0x320000, 0x4000, 16, 0x4000, 1, 0x0, 0x3, 0x0, 0x0, 0x0, 0x0, 0x0, 0x0, 0xFFFFFFFC⟩
  | .RY_STAT => ⟨0x320004, 0x4000, 16, 0x4000, 1, 0x0, 0x0, 0x3C0000, 0x0, 0x3FFFF, 0x0, 0x0, 0x0, 0xFFC00000⟩
  | .RY_CNT => ⟨0x320008, 0x4000, 16, 0x4000, 1, 0x0, 0x0, 0x0, 0xFFFFFFFF, 0x0, 0x0, 0x0, 0x0, 0x0⟩
  | .RY_CNT2 => ⟨0x32000C, 0x4000, 16, 0x4000, 1, 0x0, 0x0, 0x0, 0xFFFFFFFF, 0x0, 0x0, 0x0, 0x0, 0x0⟩
  | .RY_TT => ⟨0x320010, 0x4000, 16, 0x4000, 1, 0x0, 0x0, 0x18, 0x0, 0x7, 0x0, 0x0, 0x0, 0xFFFFFFE0⟩
  | .FWD_CFG => ⟨0x360000, 0x10, 1024, 0x10, 1, 0x0, 0xFFFF, 0x0, 0x0, 0x0, 0x0, 0x0, 0x0, 0xFFFF0000⟩
  | .FWD_DST => ⟨0x360004, 0x10, 1024, 0x10, 1, 0x0, 0x7FFFFF, 0x0, 0x0, 0x0, 0x0, 0x0, 0x0, 0xFF800000⟩
  | .FWD_CQ => ⟨0x360008, 0x10, 1024, 0x10, 1, 0x0, 0xFFFF, 0x0, 0x0, 0x0, 0x0, 0x0, 0x0, 0xFFFF0000⟩
  | .FWD_STAT => ⟨0x36000C, 0x10, 1024, 0x10, 1, 0x0, 0x0, 0x8000, 0x0, 0x17FFF, 0x0, 0x0, 0x0, 0xFFFE0000⟩
  | .WT_STAT => ⟨0x370000, 0x10, 256, 0x10, 1, 0x0, 0x0, 0x400, 0x0, 0x7FFFBFF, 0x0, 0x0, 0x0, 0xF8000000⟩
  | .WT_CTRL => ⟨0x370004, 0x10, 256, 0x10, 1, 0x0, 0x7, 0x0, 0x0, 0x0, 0x0, 0x0, 0x0, 0xFFFFFFF8⟩
  | .WT_CTRL_A => ⟨0x370008, 0x10, 256, 0x10, 1, 0x0, 0x0, 0x0, 0x0, 0x0, 0x0, 0xFFFFFFFF, 0x0, 0x0⟩
  | .WT_CTRL_B => ⟨0x37000C, 0x10, 256, 0x10, 1, 0x0, 0x0, 0x0, 0x0, 0x0, 0x0, 0xFFFFFFFF, 0x0, 0x0⟩
  | .ENG_CFG => ⟨0x400000, 0x4000, 256, 0x4000, 1, 0x3, 0x3, 0x0, 0x0, 0x0, 0x0, 0x0, 0x0, 0xFFFFFFFC⟩
  | .ENG_WDOG => ⟨0x400004, 0x4000, 256, 0x4000, 1, 0x2710, 0xFFFF, 0x0, 0x0, 0x0, 0x0, 0x0, 0x0, 0xFFFF0000⟩
  | .ENG_CMD => ⟨0x400008, 0x4000, 256, 0x4000, 1, 0x0, 0x1, 0x0, 0x0, 0x0, 0x0, 0x0, 0x0, 0xFFFFFFFE⟩
  | .ENG_STAT => ⟨0x40000C, 0x4000, 256, 0x4000, 1, 0x0, 0x0, 0x8040000, 0x0, 0x7FBFFFF, 0x0, 0x0, 0x0, 0xF0000000⟩
  | .ENG_CNT => ⟨0x400010, 0x4000, 256, 0x4000, 1, 0x0, 0x0, 0x0, 0xFFFFFFFF, 0x0, 0x0, 0x0, 0x0, 0x0⟩
  | .ENG_PC => ⟨0x400014, 0x4000, 256, 0x4000, 1, 0x0, 0x0, 0x0, 0x0, 0xFFFFFFFF, 0x0, 0x0, 0x0, 0x0⟩
  | .TSG_CFG => ⟨0x800000, 0x4000, 160, 0x4000, 1, 0x0, 0x1, 0x0, 0x0, 0x0, 0x0, 0x0, 0x0, 0xFFFFFFFE⟩
  | .TS_ID => ⟨0x800100, 0x4000, 160, 0x80, 8, 0x0, 0x0, 0x0, 0x0, 0x0, 0x0, 0x0, 0xFFFFFFFF, 0x0⟩
  | .TS_IN => ⟨0x800104, 0x4000, 160, 0x80, 8, 0x0, 0x3FFFF, 0x0, 0x0, 0x0, 0x0, 0x0, 0x0, 0xFFFC0000⟩
  | .TS_HOLDOFF => ⟨0x800108, 0x4000, 160, 0x80, 8, 0x0, 0xFFFF, 0x0, 0x0, 0x0, 0x0, 0x0, 0x0, 0xFFFF0000⟩
  | .TS_MEAS => ⟨0x80010C, 0x4000, 160, 0x80, 8, 0x8001, 0xFFFFFFFF, 0x0, 0x0, 0x0, 0x0, 0x0, 0x0, 0x0⟩
  | .TS_N => ⟨0x800110, 0x4000, 160, 0x80, 8, 0x1, 0xFFFFFFFF, 0x0, 0x0, 0x0, 0x0, 0x0, 0x0, 0x0⟩
  | .TS_TMO => ⟨0x800114, 0x4000, 160, 0x80, 8, 0x0, 0xFFFFFFFF, 0x0, 0x0, 0x0, 0x0, 0x0, 0x0, 0x0⟩
  | .TS_CMD => ⟨0x800118, 0x4000, 160, 0x80, 8, 0x0, 0x3, 0x0, 0x0, 0x0, 0x0, 0x0, 0x0, 0xFFFFFFFC⟩
  | .TS_STAT => ⟨0x80011C, 0x4000, 160, 0x80, 8, 0x10, 0x0, 0xE0, 0x0, 0xF1F, 0x0, 0x0, 0x0, 0xFFFFF000⟩
  | .TS_ERR => ⟨0x800120, 0x4000, 160, 0x80, 8, 0x0, 0x0, 0x1FF, 0x0, 0xF0000, 0x0, 0x0, 0x0, 0xFFF0FE00⟩
  | .TS_LIVE => ⟨0x800124, 0x4000, 160, 0x80, 8, 0x0, 0x0, 0x0, 0x0, 0xFFFFFFFF, 0x0, 0x0, 0x0, 0x0⟩
  | .TS_CNT1 => ⟨0x800128, 0x4000, 160, 0x80, 8, 0x0, 0x0, 0x0, 0xFFFFFFFF, 0x0, 0x0, 0x0, 0x0, 0x0⟩
  | .TS_CNT2 => ⟨0x80012C, 0x4000, 160, 0x80, 8, 0x0, 0x0, 0x0, 0xFFFFFFFF, 0x0, 0x0, 0x0, 0x0, 0x0⟩
  | .TS_CNT3 => ⟨0x800130, 0x4000, 160, 0x80, 8, 0x0, 0x0, 0x0, 0xFFFFFFFF, 0x0, 0x0, 0x0, 0x0, 0x0⟩
  | .TS_CNT4 => ⟨0x800134, 0x4000, 160, 0x80, 8, 0x0, 0x0, 0x0, 0xFFFF, 0x0, 0x0, 0x0, 0x0, 0xFFFF0000⟩
  | .RING_CFG => ⟨0x800800, 0x10, 32, 0x10, 1, 0x400, 0x1FFFFF, 0x0, 0x0, 0x0, 0x0, 0x0, 0x0, 0xFFE00000⟩
  | .RING_WR => ⟨0x800804, 0x10, 32, 0x10, 1, 0x0, 0x0, 0x0, 0x0, 0x3FFFF, 0x0, 0x0, 0x0, 0xFFFC0000⟩
  | .RING_RD => ⟨0x800808, 0x10, 32, 0x10, 1, 0x0, 0x0, 0x0, 0x0, 0x3FFFF, 0x0, 0x0, 0x0, 0xFFFC0000⟩
  | .RING_STAT => ⟨0x80080C, 0x10, 32, 0x10, 1, 0x0, 0x0, 0x1C0000, 0x0, 0x3FFFF, 0x0, 0x0, 0x0, 0xFFE00000⟩
  | .RING_REL => ⟨0x800A00, 0x4, 32, 0x4, 1, 0x0, 0x3FFFF, 0x0, 0x0, 0x0, 0x0, 0x0, 0x0, 0xFFFC0000⟩
  | .PORT_ID => ⟨0x1000000, 0x4000, 1024, 0x4000, 1, 0x0, 0x0, 0x0, 0x0, 0x0, 0x0, 0x0, 0xFFFFFFFF, 0x0⟩
  | .PORT_CFG => ⟨0x1000004, 0x4000, 1024, 0x4000, 1, 0x2A108, 0x7FFFF, 0x0, 0x0, 0x0, 0x0, 0x0, 0x0, 0xFFF80000⟩
  | .PORT_DIV => ⟨0x1000008, 0x4000, 1024, 0x4000, 1, 0x2, 0xFFFF, 0x0, 0x0, 0x0, 0x0, 0x0, 0x0, 0xFFFF0000⟩
  | .PORT_FINE => ⟨0x100000C, 0x4000, 1024, 0x4000, 1, 0x0, 0xFFFFF, 0x0, 0x0, 0x0, 0x0, 0x0, 0x0, 0xFFF00000⟩
  | .PORT_CMD => ⟨0x1000010, 0x4000, 1024, 0x4000, 1, 0x0, 0x1, 0x0, 0x0, 0x0, 0x0, 0x0, 0x0, 0xFFFFFFFE⟩
  | .PORT_CEIL => ⟨0x1000014, 0x4000, 1024, 0x4000, 1, 0xC35000, 0xFFFFFFFF, 0x0, 0x0, 0x0, 0x0, 0x0, 0x0, 0x0⟩
  | .PORT_LOCK => ⟨0x1000018, 0x4000, 1024, 0x4000, 1, 0x0, 0x0, 0x0, 0x0, 0x0, 0x1, 0x0, 0x0, 0xFFFFFFFE⟩
  | .PORT_MK => ⟨0x100001C, 0x4000, 1024, 0x4000, 1, 0xC80, 0xFFFFFFFF, 0x0, 0x0, 0x0, 0x0, 0x0, 0x0, 0x0⟩
  | .PORT_MK2 => ⟨0x1000020, 0x4000, 1024, 0x4000, 1, 0x1, 0xFFFF, 0x0, 0x0, 0x0, 0x0, 0x0, 0x0, 0xFFFF0000⟩
  | .PORT_HOLD => ⟨0x1000024, 0x4000, 1024, 0x4000, 1, 0xA, 0xFF, 0x0, 0x0, 0x0, 0x0, 0x0, 0x0, 0xFFFFFF00⟩
  | .PORT_SKEW => ⟨0x1000028, 0x4000, 1024, 0x4000, 1, 0x10000, 0x1FFFF, 0x0, 0x0, 0x0, 0x0, 0x0, 0x0, 0xFFFE0000⟩
  | .PORT_TRIM => ⟨0x100002C, 0x4000, 1024, 0x4000, 1, 0x0, 0x1FFF, 0x0, 0x0, 0x0, 0x0, 0x0, 0x0, 0xFFFFE000⟩
  | .PORT_STAT => ⟨0x1000030, 0x4000, 1024, 0x4000, 1, 0x0, 0x0, 0x3FC00, 0x0, 0x3FF, 0x0, 0x0, 0x0, 0xFFFC0000⟩
  | .PORT_ACT => ⟨0x1000034, 0x4000, 1024, 0x4000, 1, 0x10002, 0x0, 0x0, 0x0, 0x7FFFF, 0x0, 0x0, 0x0, 0xFFF80000⟩
  | .PORT_ACTF => ⟨0x1000038, 0x4000, 1024, 0x4000, 1, 0x0, 0x0, 0x0, 0x0, 0xFFFFF, 0x0, 0x0, 0x0, 0xFFF00000⟩
  | .PORT_ERR => ⟨0x100003C, 0x4000, 1024, 0x4000, 1, 0x0, 0x0, 0x3FF, 0x0, 0xF0000, 0x0, 0x0, 0x0, 0xFFF0FC00⟩
  | .PORT_CNT => ⟨0x1000040, 0x4000, 1024, 0x4000, 1, 0x0, 0x0, 0x0, 0xFFFFFFFF, 0x0, 0x0, 0x0, 0x0, 0x0⟩
  | .PORT_SKMEAS => ⟨0x1000044, 0x4000, 1024, 0x4000, 1, 0x0, 0x0, 0x0, 0x0, 0x80FFFFFF, 0x0, 0x0, 0x0, 0x7F000000⟩
  | .QD_CTRL => ⟨0x2000000, 0x40, 32768, 0x40, 1, 0x3C00, 0x7FFFFFFF, 0x0, 0x0, 0x0, 0x0, 0x0, 0x0, 0x80000000⟩
  | .QD_LEN => ⟨0x2000004, 0x40, 32768, 0x40, 1, 0x0, 0xFFFFF, 0x0, 0x0, 0x0, 0x0, 0x0, 0x0, 0xFFF00000⟩
  | .QD_ENTRY => ⟨0x2000008, 0x40, 32768, 0x40, 1, 0x0, 0x1FFFFFF, 0x0, 0x0, 0x0, 0x0, 0x0, 0x0, 0xFE000000⟩
  | .QD_ARG => ⟨0x200000C, 0x40, 32768, 0x40, 1, 0x0, 0xFFFFFFFF, 0x0, 0x0, 0x0, 0x0, 0x0, 0x0, 0x0⟩
  | .QD_AFF => ⟨0x2000010, 0x40, 32768, 0x4, 8, 0x0, 0xFFFFFFFF, 0x0, 0x0, 0x0, 0x0, 0x0, 0x0, 0x0⟩
  | .QD_STAT => ⟨0x2000030, 0x40, 32768, 0x40, 1, 0x0, 0x0, 0x1E00000, 0x0, 0x1FFFFF, 0x0, 0x0, 0x0, 0xFE000000⟩
  | .QD_CNT => ⟨0x2000034, 0x40, 32768, 0x40, 1, 0x0, 0x0, 0x0, 0xFFFFFF, 0xFF000000, 0x0, 0x0, 0x0, 0x0⟩

/-- The register families of the global region (R386). -/
def regIdsGlobal : List RegId :=
  [.ID_PART, .EDITION_SEL, .SL_CAP, .SL_STAT, .RST_CTRL_A, .RST_CTRL_B, .RST_STAT, .FAULT_SUM, .FAULT_CNT,
   .FH_CFG, .ASYNC_SPEED, .ASYNC_LIMIT, .CHIP_STAT, .HALF_FAIL, .ENG_FAIL, .COMMIT_STAT, .MEM_BANK_STAT, .REINIT,
   .WDOG_CFG, .WDOG_KICK, .BOOT_STAT, .CHIP_TEMP, .PORT_MEN_A, .PORT_MEN_B, .BOOT_CTRL_A, .BOOT_CTRL_B, .BOOT_SRC,
   .BOOT_DST, .BOOT_LEN, .LG_MEM_LO, .LG_MEM_HI, .LG_SPARE, .LG_CFG, .LG_TGT, .LG_STAT, .LG_CNT, .QM_CFG,
   .QM_STAT, .QM_LOAD, .QM_CNT, .XIP_CACHE, .PCIE_CFG, .PCIE_STAT, .PCIE_CNT]

/-- The register families of the services region (R386). -/
def regIdsServices : List RegId :=
  [.PERM_CLASS, .ORIGIN_CLASS, .PERM_LOCK_A, .PERM_LOCK_B, .TEST_CTRL_A, .TEST_CTRL_B, .VETCH_STAT, .VETCH_CNT,
   .VETCH_CNT2, .CFGPAR_STAT, .CFGPAR_CNT, .CFGPAR_FROZEN, .TANSY_CFG, .TANSY_WR, .TANSY_RD, .TANSY_CNT,
   .TANSY_STAT]

/-- The register families of the time region (R386). -/
def regIdsTime : List RegId :=
  [.REF_CFG, .REFA_FREQ, .REFB_FREQ, .REF_QUAL, .REF_STAT, .REF_SWCNT, .TB_STAT, .EPOCH_CTRL_A, .EPOCH_CTRL_B,
   .EPOCH_TICK_LO, .EPOCH_TICK_HI, .EPOCH_STAT, .EPOCH_TOL, .HOLD_CFG, .EPOCH_PER, .TB_SLEW, .PM_GEN, .REPL_PHASE,
   .EV_CFG, .EV_GSUM, .EV_STAT, .EV_ROUTE]

/-- The register families of the core region (R386). -/
def regIdsCore : List RegId :=
  [.CORE_ID, .CORE_CTRL, .CORE_STAT, .HOP_CFG, .HOP_STAT, .HOP_CNT, .HOP_CNT2, .HALF_CFG, .FB_INT, .FB_FRAC_LO,
   .FB_FRAC_HI, .FB_NUM, .FB_DEN, .BAND_CFG, .HALF_CMD, .LD_CFG, .HALF_STAT, .HALF_ERR, .HALF_CNT, .LD_DIFF]

/-- The register families of the sorrel region (R386). -/
def regIdsSorrel : List RegId :=
  [.SOR_CTRL, .SOR_STAT, .SOR_REQ, .SOR_FAIL, .SOR_CNT, .CDLY_LO, .CDLY_HI, .CDLY_ASYM, .CDLY_STAT, .NVM_CFG,
   .NVM_CTRL_A, .NVM_CTRL_B, .NVM_STAT, .NVM_GEN_A, .NVM_GEN_B, .HT_STAT, .HT_FORCE, .CD_STAT]

/-- The register families of the serial region (R386). -/
def regIdsSerial : List RegId :=
  [.SSP_CFG, .SSP_STAT, .SSP_CNT, .SSP_STREAM, .SM_CFG, .SM_GPIO, .SM_TIME, .SM_FRM0, .SM_FRM1, .SM_FRM2, .SM_CMD,
   .SM_STAT, .SM_XIP, .SM_XIP_TMO, .SM_CNT, .SM_BUF]

/-- The register families of the ryrel region (R386). -/
def regIdsRyrel : List RegId :=
  [.RY_GCFG, .RY_GSTAT, .RY_WORKERS, .RY_RACC_ADDR, .RY_RACC_DATA, .RY_RACC_CTRL, .RY_CFG, .RY_STAT, .RY_CNT,
   .RY_CNT2, .RY_TT, .FWD_CFG, .FWD_DST, .FWD_CQ, .FWD_STAT, .WT_STAT, .WT_CTRL, .WT_CTRL_A, .WT_CTRL_B]

/-- The register families of the engine region (R386). -/
def regIdsEngine : List RegId :=
  [.ENG_CFG, .ENG_WDOG, .ENG_CMD, .ENG_STAT, .ENG_CNT, .ENG_PC]

/-- The register families of the teasel region (R386). -/
def regIdsTeasel : List RegId :=
  [.TSG_CFG, .TS_ID, .TS_IN, .TS_HOLDOFF, .TS_MEAS, .TS_N, .TS_TMO, .TS_CMD, .TS_STAT, .TS_ERR, .TS_LIVE,
   .TS_CNT1, .TS_CNT2, .TS_CNT3, .TS_CNT4, .RING_CFG, .RING_WR, .RING_RD, .RING_STAT, .RING_REL]

/-- The register families of the port region (R386). -/
def regIdsPort : List RegId :=
  [.PORT_ID, .PORT_CFG, .PORT_DIV, .PORT_FINE, .PORT_CMD, .PORT_CEIL, .PORT_LOCK, .PORT_MK, .PORT_MK2, .PORT_HOLD,
   .PORT_SKEW, .PORT_TRIM, .PORT_STAT, .PORT_ACT, .PORT_ACTF, .PORT_ERR, .PORT_CNT, .PORT_SKMEAS]

/-- The register families of the queue region (R386). -/
def regIdsQueue : List RegId :=
  [.QD_CTRL, .QD_LEN, .QD_ENTRY, .QD_ARG, .QD_AFF, .QD_STAT, .QD_CNT]

/-- The register families of the region that holds byte address `a` (R386). -/
def regIdsAt (a : Nat) : List RegId :=
  if a < 0x40000 then regIdsGlobal
  else if a < 0x80000 then regIdsServices
  else if a < 0x100000 then regIdsTime
  else if a < 0x200000 then regIdsCore
  else if a < 0x300000 then regIdsSorrel
  else if a < 0x310000 then regIdsSerial
  else if a < 0x400000 then regIdsRyrel
  else if a < 0x800000 then regIdsEngine
  else if a < 0x1000000 then regIdsTeasel
  else if a < 0x2000000 then regIdsPort
  else regIdsQueue

/-- The byte address of register (i, j) of a family. A number beyond the family's last wraps, so that no register of another family
is ever named. -/
def RegId.at (r : RegId) (i j : Nat := 0) : Nat :=
  (regRow r).base + (regRow r).s1 * (i % (regRow r).n1) + (regRow r).s2 * (j % (regRow r).n2)

/-- The index pair of byte address `a` in a family, if the family has a register there. -/
def RegRow.index (w : RegRow) (a : Nat) : Option (Nat × Nat) :=
  if a < w.base then none
  else
    let d := a - w.base
    let i := d / w.s1
    let r := d % w.s1
    if i < w.n1 && r / w.s2 < w.n2 && r % w.s2 == 0 then some (i, r / w.s2) else none

/-- A register, named by its family and indices. -/
structure RegAt where
  id : RegId
  i : Nat
  j : Nat
  deriving DecidableEq, Repr

/-- The first family of a list with a register at byte address `a`. -/
def findReg (a : Nat) : List RegId → Option RegAt
  | [] => none
  | r :: rs =>
    match (regRow r).index a with
    | some (i, j) => some ⟨r, i, j⟩
    | none => findReg a rs

/-- The register at byte address `a`, if a table of R389 to R394 names one. Worker entries are w = 1 to 255 (R392), so entry 0
of the worker page is no register. -/
def regOf (a : Nat) : Option RegAt :=
  (findReg a (regIdsAt a)).filter fun r =>
    !((r.id == .WT_STAT || r.id == .WT_CTRL || r.id == .WT_CTRL_A || r.id == .WT_CTRL_B) && r.i == 0)

/-- The reset word of register (i, j) of a family (R389 to R394). The identity registers, the permission classes, the event
inputs, the ceilings of the wide-band ports, the event routes and the descriptor of queue 32767 depend on the index. `PORT_STAT`
is the table's: `STATE` reads 0 after a cold reset, and master-off (R135) once the master enable has acted on the port (DESIGN
CHOICE, log entry 107). -/
def resetWord (r : RegId) (i j : Nat) : Nat :=
  if r = .CORE_ID then i + 0x40 * (i / 8)
  else if r = .PORT_ID then i + 0x400 * (i / 128) + (if i % 16 = 0 then 0x2000 else 0)
  else if r = .PORT_CEIL then if i % 16 = 0 then 0x0124F800 else 0x00C35000
  else if r = .TS_ID then
    if i < 128 then 8 * i + j + 0x800 * (i / 16) + 0x4000 * (8 * (i % 16) + j)
    else 8 * i + j + 0x800 * ((i - 128) / 4) + 0x4000 * (128 + 8 * ((i - 128) % 4) + j) + 0x00400000
  else if r = .TS_IN then if i < 128 then 0 else 0x1600
  else if r = .EV_ROUTE then if 375 ≤ i ∧ i ≤ 379 then i + 0x400 else i
  else if r = .PERM_CLASS then if i = 1 then 0xFFFFFFFD else if i = 2 then 0xFFFFD830 else 0xFFFFFFFF
  else if r = .QD_CTRL then if i = 32767 then 0x3C8D else 0x3C00
  else if r = .QD_LEN then if i = 32767 then 0x1000 else 0
  else (regRow r).reset

/-- The word that the register at byte address `a` holds after a cold reset (R389 to R394); 0 where no register lies. -/
def resetAt (a : Nat) : BitVec 32 :=
  match regOf a with
  | some r => BitVec.ofNat 32 (resetWord r.id r.i r.j)
  | none => 0

/-! Fields of `ID_PART` (R389). -/
abbrev ID_PART.PART : Fld := ⟨.ID_PART, 0, 16⟩
abbrev ID_PART.REV : Fld := ⟨.ID_PART, 16, 8⟩
/-! Fields of `EDITION_SEL` (R389). -/
abbrev EDITION_SEL.ED : Fld := ⟨.EDITION_SEL, 0, 8⟩
abbrev EDITION_SEL.ED_BAD : Fld := ⟨.EDITION_SEL, 8, 1⟩
/-! Fields of `SL_CAP` (R389). -/
abbrev SL_CAP.CAP : Fld := ⟨.SL_CAP, 0, 32⟩
/-! Fields of `SL_STAT` (R389). -/
abbrev SL_STAT.LEVEL : Fld := ⟨.SL_STAT, 0, 2⟩
abbrev SL_STAT.SL2_SEEN : Fld := ⟨.SL_STAT, 2, 1⟩
abbrev SL_STAT.CHANGED : Fld := ⟨.SL_STAT, 3, 1⟩
abbrev SL_STAT.WAIT : Fld := ⟨.SL_STAT, 4, 3⟩
/-! Fields of `RST_CTRL_A` (R389). -/
abbrev RST_CTRL_A.CMD : Fld := ⟨.RST_CTRL_A, 0, 2⟩
abbrev RST_CTRL_A.CHIPLET : Fld := ⟨.RST_CTRL_A, 2, 3⟩
/-! Fields of `RST_CTRL_B` (R389). -/
abbrev RST_CTRL_B.CMD : Fld := ⟨.RST_CTRL_B, 0, 2⟩
abbrev RST_CTRL_B.CHIPLET : Fld := ⟨.RST_CTRL_B, 2, 3⟩
/-! Fields of `RST_STAT` (R389). -/
abbrev RST_STAT.CAUSE : Fld := ⟨.RST_STAT, 0, 3⟩
abbrev RST_STAT.COLD_CNT : Fld := ⟨.RST_STAT, 4, 16⟩
abbrev RST_STAT.WARM_CNT : Fld := ⟨.RST_STAT, 20, 8⟩
/-! Fields of `FAULT_SUM` (R389). -/
abbrev FAULT_SUM.BITS : Fld := ⟨.FAULT_SUM, 0, 9⟩
abbrev FAULT_SUM.LAST : Fld := ⟨.FAULT_SUM, 16, 8⟩
/-! Fields of `FAULT_CNT` (R389). -/
abbrev FAULT_CNT.FAULTS : Fld := ⟨.FAULT_CNT, 0, 16⟩
/-! Fields of `FH_CFG` (R389). -/
abbrev FH_CFG.HALF_TMO_MS : Fld := ⟨.FH_CFG, 0, 8⟩
/-! Fields of `ASYNC_SPEED` (R389). -/
abbrev ASYNC_SPEED.STAGE_PS : Fld := ⟨.ASYNC_SPEED, 0, 12⟩
abbrev ASYNC_SPEED.OVER_LIMIT : Fld := ⟨.ASYNC_SPEED, 30, 1⟩
abbrev ASYNC_SPEED.VALID : Fld := ⟨.ASYNC_SPEED, 31, 1⟩
/-! Fields of `ASYNC_LIMIT` (R389). -/
abbrev ASYNC_LIMIT.LIMIT_PS : Fld := ⟨.ASYNC_LIMIT, 0, 12⟩
abbrev ASYNC_LIMIT.EVT_EN : Fld := ⟨.ASYNC_LIMIT, 12, 1⟩
/-! Fields of `CHIP_STAT` (R389). -/
abbrev CHIP_STAT.LOST : Fld := ⟨.CHIP_STAT, 0, 8⟩
abbrev CHIP_STAT.REINIT_BUSY : Fld := ⟨.CHIP_STAT, 8, 8⟩
abbrev CHIP_STAT.CD_SEEN : Fld := ⟨.CHIP_STAT, 16, 8⟩
/-! Fields of `HALF_FAIL` (R389). -/
abbrev HALF_FAIL.HALF : Fld := ⟨.HALF_FAIL, 0, 32⟩
/-! Fields of `ENG_FAIL` (R389). -/
abbrev ENG_FAIL.ENG : Fld := ⟨.ENG_FAIL, 0, 32⟩
/-! Fields of `COMMIT_STAT` (R389). -/
abbrev COMMIT_STAT.LEVEL : Fld := ⟨.COMMIT_STAT, 0, 13⟩
abbrev COMMIT_STAT.FULL_SEEN : Fld := ⟨.COMMIT_STAT, 29, 1⟩
abbrev COMMIT_STAT.LATE_SEEN : Fld := ⟨.COMMIT_STAT, 30, 1⟩
abbrev COMMIT_STAT.PATH_UP : Fld := ⟨.COMMIT_STAT, 31, 1⟩
/-! Fields of `MEM_BANK_STAT` (R389). -/
abbrev MEM_BANK_STAT.LOST : Fld := ⟨.MEM_BANK_STAT, 0, 16⟩
/-! Fields of `REINIT` (R389). -/
abbrev REINIT.KIND : Fld := ⟨.REINIT, 0, 3⟩
abbrev REINIT.INDEX : Fld := ⟨.REINIT, 3, 10⟩
abbrev REINIT.GO : Fld := ⟨.REINIT, 13, 1⟩
abbrev REINIT.RESULT : Fld := ⟨.REINIT, 14, 2⟩
abbrev REINIT.CODE : Fld := ⟨.REINIT, 16, 4⟩
/-! Fields of `WDOG_CFG` (R389). -/
abbrev WDOG_CFG.PERIOD_MS : Fld := ⟨.WDOG_CFG, 0, 16⟩
abbrev WDOG_CFG.ACTION : Fld := ⟨.WDOG_CFG, 16, 2⟩
abbrev WDOG_CFG.EXPIRED : Fld := ⟨.WDOG_CFG, 18, 1⟩
/-! Fields of `WDOG_KICK` (R389). -/
abbrev WDOG_KICK.KEY : Fld := ⟨.WDOG_KICK, 0, 16⟩
/-! Fields of `BOOT_STAT` (R389). -/
abbrev BOOT_STAT.SRC : Fld := ⟨.BOOT_STAT, 0, 2⟩
abbrev BOOT_STAT.LOADBAD : Fld := ⟨.BOOT_STAT, 2, 1⟩
abbrev BOOT_STAT.LIST_ERR : Fld := ⟨.BOOT_STAT, 3, 1⟩
abbrev BOOT_STAT.BUSY : Fld := ⟨.BOOT_STAT, 4, 1⟩
abbrev BOOT_STAT.REFUSED : Fld := ⟨.BOOT_STAT, 5, 1⟩
abbrev BOOT_STAT.LAST_CODE : Fld := ⟨.BOOT_STAT, 6, 4⟩
/-! Fields of `CHIP_TEMP` (R389). -/
abbrev CHIP_TEMP.TEMP : Fld := ⟨.CHIP_TEMP, 0, 8⟩
/-! Fields of `PORT_MEN_A` (R389). -/
abbrev PORT_MEN_A.MEN : Fld := ⟨.PORT_MEN_A, 0, 8⟩
/-! Fields of `PORT_MEN_B` (R389). -/
abbrev PORT_MEN_B.MEN : Fld := ⟨.PORT_MEN_B, 0, 8⟩
/-! Fields of `BOOT_CTRL_A` (R389). -/
abbrev BOOT_CTRL_A.CMD : Fld := ⟨.BOOT_CTRL_A, 0, 2⟩
abbrev BOOT_CTRL_A.SLOT : Fld := ⟨.BOOT_CTRL_A, 2, 1⟩
abbrev BOOT_CTRL_A.FORCE : Fld := ⟨.BOOT_CTRL_A, 3, 1⟩
/-! Fields of `BOOT_CTRL_B` (R389). -/
abbrev BOOT_CTRL_B.CMD : Fld := ⟨.BOOT_CTRL_B, 0, 2⟩
abbrev BOOT_CTRL_B.SLOT : Fld := ⟨.BOOT_CTRL_B, 2, 1⟩
abbrev BOOT_CTRL_B.FORCE : Fld := ⟨.BOOT_CTRL_B, 3, 1⟩
/-! Fields of `BOOT_SRC` (R389). -/
abbrev BOOT_SRC.SRC : Fld := ⟨.BOOT_SRC, 0, 22⟩
/-! Fields of `BOOT_DST` (R389). -/
abbrev BOOT_DST.DST : Fld := ⟨.BOOT_DST, 0, 23⟩
/-! Fields of `BOOT_LEN` (R389). -/
abbrev BOOT_LEN.LEN : Fld := ⟨.BOOT_LEN, 0, 23⟩
/-! Fields of `LG_MEM_LO` (R389). -/
abbrev LG_MEM_LO.MEM_LO : Fld := ⟨.LG_MEM_LO, 0, 32⟩
/-! Fields of `LG_MEM_HI` (R389). -/
abbrev LG_MEM_HI.MEM_HI : Fld := ⟨.LG_MEM_HI, 0, 32⟩
/-! Fields of `LG_SPARE` (R389). -/
abbrev LG_SPARE.SPARES : Fld := ⟨.LG_SPARE, 0, 32⟩
/-! Fields of `LG_CFG` (R389). -/
abbrev LG_CFG.SK_EN : Fld := ⟨.LG_CFG, 0, 1⟩
/-! Fields of `LG_TGT` (R389). -/
abbrev LG_TGT.TGT : Fld := ⟨.LG_TGT, 0, 16⟩
/-! Fields of `LG_STAT` (R389). -/
abbrev LG_STAT.SPARE_USED : Fld := ⟨.LG_STAT, 0, 8⟩
abbrev LG_STAT.CONVERGED : Fld := ⟨.LG_STAT, 8, 1⟩
abbrev LG_STAT.LGERR : Fld := ⟨.LG_STAT, 9, 1⟩
abbrev LG_STAT.FO_FAIL : Fld := ⟨.LG_STAT, 10, 1⟩
/-! Fields of `LG_CNT` (R389). -/
abbrev LG_CNT.FAILOVERS : Fld := ⟨.LG_CNT, 0, 16⟩
/-! Fields of `QM_CFG` (R389). -/
abbrev QM_CFG.STEAL_AGE : Fld := ⟨.QM_CFG, 0, 8⟩
/-! Fields of `QM_STAT` (R389). -/
abbrev QM_STAT.POOL_FREE : Fld := ⟨.QM_STAT, 0, 15⟩
abbrev QM_STAT.ACC_OFF : Fld := ⟨.QM_STAT, 15, 1⟩
abbrev QM_STAT.QUAR_FULL : Fld := ⟨.QM_STAT, 16, 1⟩
abbrev QM_STAT.LAST_DESC : Fld := ⟨.QM_STAT, 17, 4⟩
/-! Fields of `QM_LOAD` (R389). -/
abbrev QM_LOAD.LOAD_PCT : Fld := ⟨.QM_LOAD, 0, 7⟩
/-! Fields of `QM_CNT` (R389). -/
abbrev QM_CNT.CQ_DROP : Fld := ⟨.QM_CNT, 0, 16⟩
abbrev QM_CNT.REDISP : Fld := ⟨.QM_CNT, 16, 16⟩
/-! Fields of `XIP_CACHE` (R389). -/
abbrev XIP_CACHE.EN : Fld := ⟨.XIP_CACHE, 0, 1⟩
abbrev XIP_CACHE.INV : Fld := ⟨.XIP_CACHE, 1, 1⟩
abbrev XIP_CACHE.ERR_SEEN : Fld := ⟨.XIP_CACHE, 2, 1⟩
abbrev XIP_CACHE.FILLS : Fld := ⟨.XIP_CACHE, 16, 16⟩
/-! Fields of `PCIE_CFG` (R389). -/
abbrev PCIE_CFG.PS_WR : Fld := ⟨.PCIE_CFG, 0, 1⟩
/-! Fields of `PCIE_STAT` (R389). -/
abbrev PCIE_STAT.LINK_UP : Fld := ⟨.PCIE_STAT, 0, 1⟩
abbrev PCIE_STAT.SPEED : Fld := ⟨.PCIE_STAT, 1, 3⟩
abbrev PCIE_STAT.WIDTH : Fld := ⟨.PCIE_STAT, 4, 4⟩
abbrev PCIE_STAT.D3 : Fld := ⟨.PCIE_STAT, 8, 1⟩
abbrev PCIE_STAT.DOWN_SEEN : Fld := ⟨.PCIE_STAT, 9, 1⟩
abbrev PCIE_STAT.BAR0_BAD : Fld := ⟨.PCIE_STAT, 10, 1⟩
abbrev PCIE_STAT.BAR2_BAD : Fld := ⟨.PCIE_STAT, 11, 1⟩
/-! Fields of `PCIE_CNT` (R389). -/
abbrev PCIE_CNT.REFUSED : Fld := ⟨.PCIE_CNT, 0, 16⟩
abbrev PCIE_CNT.LINKDOWNS : Fld := ⟨.PCIE_CNT, 16, 16⟩
/-! Fields of `PERM_CLASS` (R390). -/
abbrev PERM_CLASS.WR : Fld := ⟨.PERM_CLASS, 0, 16⟩
abbrev PERM_CLASS.RD : Fld := ⟨.PERM_CLASS, 16, 16⟩
/-! Fields of `ORIGIN_CLASS` (R390). -/
abbrev ORIGIN_CLASS.PCIE_MAINT : Fld := ⟨.ORIGIN_CLASS, 0, 1⟩
abbrev ORIGIN_CLASS.SSP_MAINT : Fld := ⟨.ORIGIN_CLASS, 1, 1⟩
/-! Fields of `PERM_LOCK_A` (R390). -/
abbrev PERM_LOCK_A.LOCK : Fld := ⟨.PERM_LOCK_A, 0, 1⟩
/-! Fields of `PERM_LOCK_B` (R390). -/
abbrev PERM_LOCK_B.LOCK : Fld := ⟨.PERM_LOCK_B, 0, 1⟩
/-! Fields of `TEST_CTRL_A` (R390). -/
abbrev TEST_CTRL_A.TEST_MODE : Fld := ⟨.TEST_CTRL_A, 0, 1⟩
/-! Fields of `TEST_CTRL_B` (R390). -/
abbrev TEST_CTRL_B.TEST_MODE : Fld := ⟨.TEST_CTRL_B, 0, 1⟩
/-! Fields of `VETCH_STAT` (R390). -/
abbrev VETCH_STAT.PAIRERR_SEEN : Fld := ⟨.VETCH_STAT, 0, 1⟩
abbrev VETCH_STAT.LOCKWR_SEEN : Fld := ⟨.VETCH_STAT, 1, 1⟩
abbrev VETCH_STAT.PERMERR_SEEN : Fld := ⟨.VETCH_STAT, 2, 1⟩
abbrev VETCH_STAT.CFGPAR_SEEN : Fld := ⟨.VETCH_STAT, 3, 1⟩
abbrev VETCH_STAT.RSVD_SEEN : Fld := ⟨.VETCH_STAT, 4, 1⟩
abbrev VETCH_STAT.HWOWR_SEEN : Fld := ⟨.VETCH_STAT, 5, 1⟩
abbrev VETCH_STAT.LAST_PAIR : Fld := ⟨.VETCH_STAT, 8, 4⟩
/-! Fields of `VETCH_CNT` (R390). -/
abbrev VETCH_CNT.RCC_KEPT : Fld := ⟨.VETCH_CNT, 0, 16⟩
abbrev VETCH_CNT.PERM_DENIED : Fld := ⟨.VETCH_CNT, 16, 16⟩
/-! Fields of `VETCH_CNT2` (R390). -/
abbrev VETCH_CNT2.PAIRERRS : Fld := ⟨.VETCH_CNT2, 0, 16⟩
abbrev VETCH_CNT2.LOCKWRS : Fld := ⟨.VETCH_CNT2, 16, 16⟩
/-! Fields of `CFGPAR_STAT` (R390). -/
abbrev CFGPAR_STAT.LAST_ADDR : Fld := ⟨.CFGPAR_STAT, 0, 24⟩
abbrev CFGPAR_STAT.MISMATCH : Fld := ⟨.CFGPAR_STAT, 24, 1⟩
/-! Fields of `CFGPAR_CNT` (R390). -/
abbrev CFGPAR_CNT.DISCARDS : Fld := ⟨.CFGPAR_CNT, 0, 16⟩
abbrev CFGPAR_CNT.CORRECTED : Fld := ⟨.CFGPAR_CNT, 16, 16⟩
/-! Fields of `CFGPAR_FROZEN` (R390). -/
abbrev CFGPAR_FROZEN.FROZEN : Fld := ⟨.CFGPAR_FROZEN, 0, 12⟩
/-! Fields of `TANSY_CFG` (R390). -/
abbrev TANSY_CFG.MODE : Fld := ⟨.TANSY_CFG, 0, 1⟩
/-! Fields of `TANSY_WR` (R390). -/
abbrev TANSY_WR.WR : Fld := ⟨.TANSY_WR, 0, 16⟩
abbrev TANSY_WR.FULL : Fld := ⟨.TANSY_WR, 16, 1⟩
/-! Fields of `TANSY_RD` (R390). -/
abbrev TANSY_RD.RD : Fld := ⟨.TANSY_RD, 0, 16⟩
/-! Fields of `TANSY_CNT` (R390). -/
abbrev TANSY_CNT.LOST : Fld := ⟨.TANSY_CNT, 0, 16⟩
abbrev TANSY_CNT.OVERWRITTEN : Fld := ⟨.TANSY_CNT, 16, 16⟩
/-! Fields of `TANSY_STAT` (R390). -/
abbrev TANSY_STAT.LOST_SEEN : Fld := ⟨.TANSY_STAT, 0, 1⟩
abbrev TANSY_STAT.FULL_SEEN : Fld := ⟨.TANSY_STAT, 1, 1⟩
abbrev TANSY_STAT.WRAPPED : Fld := ⟨.TANSY_STAT, 2, 1⟩
/-! Fields of `REF_CFG` (R390). -/
abbrev REF_CFG.MODE : Fld := ⟨.REF_CFG, 0, 2⟩
abbrev REF_CFG.PREF : Fld := ⟨.REF_CFG, 2, 1⟩
abbrev REF_CFG.MAN_SEL : Fld := ⟨.REF_CFG, 3, 1⟩
abbrev REF_CFG.A_EN : Fld := ⟨.REF_CFG, 4, 1⟩
abbrev REF_CFG.B_EN : Fld := ⟨.REF_CFG, 5, 1⟩
abbrev REF_CFG.TOL_PPM : Fld := ⟨.REF_CFG, 8, 8⟩
abbrev REF_CFG.REVERT_S : Fld := ⟨.REF_CFG, 16, 8⟩
abbrev REF_CFG.BW : Fld := ⟨.REF_CFG, 24, 2⟩
/-! Fields of `REFA_FREQ` (R390). -/
abbrev REFA_FREQ.HZ : Fld := ⟨.REFA_FREQ, 0, 32⟩
/-! Fields of `REFB_FREQ` (R390). -/
abbrev REFB_FREQ.HZ : Fld := ⟨.REFB_FREQ, 0, 32⟩
/-! Fields of `REF_QUAL` (R390). -/
abbrev REF_QUAL.REQUAL_MS : Fld := ⟨.REF_QUAL, 0, 16⟩
/-! Fields of `REF_STAT` (R390). -/
abbrev REF_STAT.A_PRESENT : Fld := ⟨.REF_STAT, 0, 1⟩
abbrev REF_STAT.A_QUAL : Fld := ⟨.REF_STAT, 1, 1⟩
abbrev REF_STAT.B_PRESENT : Fld := ⟨.REF_STAT, 2, 1⟩
abbrev REF_STAT.B_QUAL : Fld := ⟨.REF_STAT, 3, 1⟩
abbrev REF_STAT.STATE : Fld := ⟨.REF_STAT, 4, 2⟩
abbrev REF_STAT.SWITCHING : Fld := ⟨.REF_STAT, 6, 1⟩
abbrev REF_STAT.A_LOST : Fld := ⟨.REF_STAT, 7, 1⟩
abbrev REF_STAT.B_LOST : Fld := ⟨.REF_STAT, 8, 1⟩
abbrev REF_STAT.SWITCHED : Fld := ⟨.REF_STAT, 9, 1⟩
abbrev REF_STAT.FREQ_ERR : Fld := ⟨.REF_STAT, 10, 1⟩
abbrev REF_STAT.SEL_REFUSED : Fld := ⟨.REF_STAT, 11, 1⟩
abbrev REF_STAT.HOLD_LIMIT : Fld := ⟨.REF_STAT, 12, 1⟩
/-! Fields of `REF_SWCNT` (R390). -/
abbrev REF_SWCNT.SWITCHES : Fld := ⟨.REF_SWCNT, 0, 16⟩
abbrev REF_SWCNT.HOLDS : Fld := ⟨.REF_SWCNT, 16, 16⟩
/-! Fields of `TB_STAT` (R390). -/
abbrev TB_STAT.MASTER : Fld := ⟨.TB_STAT, 0, 3⟩
abbrev TB_STAT.REPL_OK : Fld := ⟨.TB_STAT, 3, 8⟩
abbrev TB_STAT.EPOCH_SET : Fld := ⟨.TB_STAT, 11, 1⟩
abbrev TB_STAT.SLEWING : Fld := ⟨.TB_STAT, 12, 1⟩
abbrev TB_STAT.TBSTEP : Fld := ⟨.TB_STAT, 13, 1⟩
abbrev TB_STAT.SLEW_CLAMP : Fld := ⟨.TB_STAT, 14, 1⟩
/-! Fields of `EPOCH_CTRL_A` (R390). -/
abbrev EPOCH_CTRL_A.SRC : Fld := ⟨.EPOCH_CTRL_A, 0, 2⟩
abbrev EPOCH_CTRL_A.ARM : Fld := ⟨.EPOCH_CTRL_A, 2, 1⟩
abbrev EPOCH_CTRL_A.LINK : Fld := ⟨.EPOCH_CTRL_A, 3, 4⟩
abbrev EPOCH_CTRL_A.FALL : Fld := ⟨.EPOCH_CTRL_A, 7, 1⟩
/-! Fields of `EPOCH_CTRL_B` (R390). -/
abbrev EPOCH_CTRL_B.SRC : Fld := ⟨.EPOCH_CTRL_B, 0, 2⟩
abbrev EPOCH_CTRL_B.ARM : Fld := ⟨.EPOCH_CTRL_B, 2, 1⟩
abbrev EPOCH_CTRL_B.LINK : Fld := ⟨.EPOCH_CTRL_B, 3, 4⟩
abbrev EPOCH_CTRL_B.FALL : Fld := ⟨.EPOCH_CTRL_B, 7, 1⟩
/-! Fields of `EPOCH_TICK_LO` (R390). -/
abbrev EPOCH_TICK_LO.TICK : Fld := ⟨.EPOCH_TICK_LO, 0, 32⟩
/-! Fields of `EPOCH_TICK_HI` (R390). -/
abbrev EPOCH_TICK_HI.TICK : Fld := ⟨.EPOCH_TICK_HI, 0, 32⟩
/-! Fields of `EPOCH_STAT` (R390). -/
abbrev EPOCH_STAT.ARMED : Fld := ⟨.EPOCH_STAT, 0, 1⟩
abbrev EPOCH_STAT.LOADED : Fld := ⟨.EPOCH_STAT, 1, 1⟩
abbrev EPOCH_STAT.REFUSED : Fld := ⟨.EPOCH_STAT, 2, 1⟩
abbrev EPOCH_STAT.DEV : Fld := ⟨.EPOCH_STAT, 3, 1⟩
abbrev EPOCH_STAT.MISSING : Fld := ⟨.EPOCH_STAT, 4, 1⟩
abbrev EPOCH_STAT.PPS_CNT : Fld := ⟨.EPOCH_STAT, 16, 16⟩
/-! Fields of `EPOCH_TOL` (R390). -/
abbrev EPOCH_TOL.TOL_TK : Fld := ⟨.EPOCH_TOL, 0, 16⟩
/-! Fields of `HOLD_CFG` (R390). -/
abbrev HOLD_CFG.MAX_S : Fld := ⟨.HOLD_CFG, 0, 16⟩
/-! Fields of `EPOCH_PER` (R390). -/
abbrev EPOCH_PER.PER_US : Fld := ⟨.EPOCH_PER, 0, 32⟩
/-! Fields of `TB_SLEW` (R390). -/
abbrev TB_SLEW.ADJ : Fld := ⟨.TB_SLEW, 0, 24⟩
abbrev TB_SLEW.RATE_PPB : Fld := ⟨.TB_SLEW, 24, 7⟩
abbrev TB_SLEW.GO : Fld := ⟨.TB_SLEW, 31, 1⟩
/-! Fields of `PM_GEN` (R390). -/
abbrev PM_GEN.GEN : Fld := ⟨.PM_GEN, 0, 16⟩
/-! Fields of `REPL_PHASE` (R390). -/
abbrev REPL_PHASE.PHASE : Fld := ⟨.REPL_PHASE, 0, 16⟩
abbrev REPL_PHASE.OUT_OF_STEP : Fld := ⟨.REPL_PHASE, 30, 1⟩
abbrev REPL_PHASE.VALID : Fld := ⟨.REPL_PHASE, 31, 1⟩
/-! Fields of `EV_CFG` (R390). -/
abbrev EV_CFG.GAP_US : Fld := ⟨.EV_CFG, 0, 12⟩
abbrev EV_CFG.IRQ_EN : Fld := ⟨.EV_CFG, 12, 1⟩
/-! Fields of `EV_GSUM` (R390). -/
abbrev EV_GSUM.GSUM : Fld := ⟨.EV_GSUM, 0, 12⟩
/-! Fields of `EV_STAT` (R390). -/
abbrev EV_STAT.STAT : Fld := ⟨.EV_STAT, 0, 32⟩
/-! Fields of `EV_ROUTE` (R390). -/
abbrev EV_ROUTE.VEC : Fld := ⟨.EV_ROUTE, 0, 9⟩
abbrev EV_ROUTE.MSIX : Fld := ⟨.EV_ROUTE, 9, 1⟩
abbrev EV_ROUTE.IRQ : Fld := ⟨.EV_ROUTE, 10, 1⟩
abbrev EV_ROUTE.RY : Fld := ⟨.EV_ROUTE, 11, 1⟩
/-! Fields of `CORE_ID` (R391). -/
abbrev CORE_ID.CORE : Fld := ⟨.CORE_ID, 0, 6⟩
abbrev CORE_ID.CHIPLET : Fld := ⟨.CORE_ID, 6, 3⟩
/-! Fields of `CORE_CTRL` (R391). -/
abbrev CORE_CTRL.A_PWR : Fld := ⟨.CORE_CTRL, 0, 1⟩
abbrev CORE_CTRL.B_PWR : Fld := ⟨.CORE_CTRL, 1, 1⟩
/-! Fields of `CORE_STAT` (R391). -/
abbrev CORE_STAT.DRIVE : Fld := ⟨.CORE_STAT, 0, 1⟩
abbrev CORE_STAT.A_LOCKED : Fld := ⟨.CORE_STAT, 1, 1⟩
abbrev CORE_STAT.B_LOCKED : Fld := ⟨.CORE_STAT, 2, 1⟩
abbrev CORE_STAT.PWR_REFUSED : Fld := ⟨.CORE_STAT, 3, 1⟩
/-! Fields of `HOP_CFG` (R391). -/
abbrev HOP_CFG.RELOCK_EN : Fld := ⟨.HOP_CFG, 0, 1⟩
abbrev HOP_CFG.WB_EN : Fld := ⟨.HOP_CFG, 1, 1⟩
/-! Fields of `HOP_STAT` (R391). -/
abbrev HOP_STAT.WINDOW : Fld := ⟨.HOP_STAT, 0, 1⟩
abbrev HOP_STAT.OOS : Fld := ⟨.HOP_STAT, 1, 1⟩
abbrev HOP_STAT.ON_LINE : Fld := ⟨.HOP_STAT, 2, 1⟩
abbrev HOP_STAT.RELOCKING : Fld := ⟨.HOP_STAT, 3, 1⟩
abbrev HOP_STAT.FAIL : Fld := ⟨.HOP_STAT, 4, 1⟩
abbrev HOP_STAT.UNANCHORED : Fld := ⟨.HOP_STAT, 5, 1⟩
abbrev HOP_STAT.PM_DEGR : Fld := ⟨.HOP_STAT, 6, 1⟩
abbrev HOP_STAT.CMT_BUSY : Fld := ⟨.HOP_STAT, 7, 1⟩
abbrev HOP_STAT.ENTRY_SKIP : Fld := ⟨.HOP_STAT, 8, 1⟩
abbrev HOP_STAT.WB_SKIP : Fld := ⟨.HOP_STAT, 9, 1⟩
abbrev HOP_STAT.LAST_REASON : Fld := ⟨.HOP_STAT, 10, 4⟩
abbrev HOP_STAT.LAST_CTX : Fld := ⟨.HOP_STAT, 14, 14⟩
/-! Fields of `HOP_CNT` (R391). -/
abbrev HOP_CNT.HOPS : Fld := ⟨.HOP_CNT, 0, 16⟩
abbrev HOP_CNT.FAILS : Fld := ⟨.HOP_CNT, 16, 16⟩
/-! Fields of `HOP_CNT2` (R391). -/
abbrev HOP_CNT2.SEARCHES : Fld := ⟨.HOP_CNT2, 0, 16⟩
abbrev HOP_CNT2.RELOCKS : Fld := ⟨.HOP_CNT2, 16, 16⟩
/-! Fields of `HALF_CFG` (R391). -/
abbrev HALF_CFG.CMP_DIV : Fld := ⟨.HALF_CFG, 0, 2⟩
abbrev HALF_CFG.MODE : Fld := ⟨.HALF_CFG, 2, 2⟩
abbrev HALF_CFG.MOD_ORDER : Fld := ⟨.HALF_CFG, 4, 2⟩
abbrev HALF_CFG.PRESET : Fld := ⟨.HALF_CFG, 8, 3⟩
/-! Fields of `FB_INT` (R391). -/
abbrev FB_INT.INT : Fld := ⟨.FB_INT, 0, 7⟩
/-! Fields of `FB_FRAC_LO` (R391). -/
abbrev FB_FRAC_LO.FRAC : Fld := ⟨.FB_FRAC_LO, 0, 32⟩
/-! Fields of `FB_FRAC_HI` (R391). -/
abbrev FB_FRAC_HI.FRAC : Fld := ⟨.FB_FRAC_HI, 0, 16⟩
/-! Fields of `FB_NUM` (R391). -/
abbrev FB_NUM.NUM : Fld := ⟨.FB_NUM, 0, 32⟩
/-! Fields of `FB_DEN` (R391). -/
abbrev FB_DEN.DEN : Fld := ⟨.FB_DEN, 0, 32⟩
/-! Fields of `BAND_CFG` (R391). -/
abbrev BAND_CFG.BAND : Fld := ⟨.BAND_CFG, 0, 10⟩
abbrev BAND_CFG.SEARCH : Fld := ⟨.BAND_CFG, 10, 1⟩
/-! Fields of `HALF_CMD` (R391). -/
abbrev HALF_CMD.COMMIT : Fld := ⟨.HALF_CMD, 0, 1⟩
/-! Fields of `LD_CFG` (R391). -/
abbrev LD_CFG.K : Fld := ⟨.LD_CFG, 0, 5⟩
abbrev LD_CFG.LOCK_RUN : Fld := ⟨.LD_CFG, 8, 8⟩
abbrev LD_CFG.LOCK_TOL : Fld := ⟨.LD_CFG, 16, 8⟩
abbrev LD_CFG.UNLOCK_TOL : Fld := ⟨.LD_CFG, 24, 8⟩
/-! Fields of `HALF_STAT` (R391). -/
abbrev HALF_STAT.READY : Fld := ⟨.HALF_STAT, 0, 1⟩
abbrev HALF_STAT.LOCKED : Fld := ⟨.HALF_STAT, 1, 1⟩
abbrev HALF_STAT.LOCK_LOST : Fld := ⟨.HALF_STAT, 2, 1⟩
abbrev HALF_STAT.GROSS : Fld := ⟨.HALF_STAT, 3, 1⟩
abbrev HALF_STAT.EFF_INT : Fld := ⟨.HALF_STAT, 4, 1⟩
abbrev HALF_STAT.VT_WARN : Fld := ⟨.HALF_STAT, 5, 1⟩
abbrev HALF_STAT.SEARCHING : Fld := ⟨.HALF_STAT, 6, 1⟩
abbrev HALF_STAT.PENDING : Fld := ⟨.HALF_STAT, 7, 1⟩
abbrev HALF_STAT.ACT_BAND : Fld := ⟨.HALF_STAT, 8, 10⟩
abbrev HALF_STAT.ACT_MODE : Fld := ⟨.HALF_STAT, 18, 2⟩
abbrev HALF_STAT.ACT_INT : Fld := ⟨.HALF_STAT, 20, 7⟩
abbrev HALF_STAT.ACT_DIV : Fld := ⟨.HALF_STAT, 27, 2⟩
abbrev HALF_STAT.ACT_ORDER : Fld := ⟨.HALF_STAT, 29, 2⟩
/-! Fields of `HALF_ERR` (R391). -/
abbrev HALF_ERR.INTRANGE : Fld := ⟨.HALF_ERR, 0, 1⟩
abbrev HALF_ERR.VCORANGE : Fld := ⟨.HALF_ERR, 1, 1⟩
abbrev HALF_ERR.DENZERO : Fld := ⟨.HALF_ERR, 2, 1⟩
abbrev HALF_ERR.NUMRANGE : Fld := ⟨.HALF_ERR, 3, 1⟩
abbrev HALF_ERR.MODEBAD : Fld := ⟨.HALF_ERR, 4, 1⟩
abbrev HALF_ERR.BANDBAD : Fld := ⟨.HALF_ERR, 5, 1⟩
abbrev HALF_ERR.PRESETBAD : Fld := ⟨.HALF_ERR, 6, 1⟩
abbrev HALF_ERR.STEPLIM : Fld := ⟨.HALF_ERR, 7, 1⟩
abbrev HALF_ERR.CEIL : Fld := ⟨.HALF_ERR, 8, 1⟩
abbrev HALF_ERR.DIVCHG : Fld := ⟨.HALF_ERR, 9, 1⟩
abbrev HALF_ERR.PWROFF : Fld := ⟨.HALF_ERR, 10, 1⟩
abbrev HALF_ERR.CMT_COLL : Fld := ⟨.HALF_ERR, 11, 1⟩
abbrev HALF_ERR.LDCLAMP : Fld := ⟨.HALF_ERR, 12, 1⟩
abbrev HALF_ERR.LAST_CODE : Fld := ⟨.HALF_ERR, 16, 4⟩
/-! Fields of `HALF_CNT` (R391). -/
abbrev HALF_CNT.LOSSES : Fld := ⟨.HALF_CNT, 0, 16⟩
abbrev HALF_CNT.COMMITS : Fld := ⟨.HALF_CNT, 16, 16⟩
/-! Fields of `LD_DIFF` (R391). -/
abbrev LD_DIFF.DIFF : Fld := ⟨.LD_DIFF, 0, 16⟩
abbrev LD_DIFF.RUN : Fld := ⟨.LD_DIFF, 16, 8⟩
abbrev LD_DIFF.VTUNE : Fld := ⟨.LD_DIFF, 24, 8⟩
/-! Fields of `SOR_CTRL` (R392). -/
abbrev SOR_CTRL.LMS_EN : Fld := ⟨.SOR_CTRL, 0, 1⟩
abbrev SOR_CTRL.DTC_EN : Fld := ⟨.SOR_CTRL, 1, 1⟩
abbrev SOR_CTRL.CD_EN : Fld := ⟨.SOR_CTRL, 2, 1⟩
abbrev SOR_CTRL.SK_FREEZE : Fld := ⟨.SOR_CTRL, 3, 1⟩
abbrev SOR_CTRL.CDLY_EN : Fld := ⟨.SOR_CTRL, 4, 1⟩
abbrev SOR_CTRL.TRACK_S : Fld := ⟨.SOR_CTRL, 8, 16⟩
/-! Fields of `SOR_STAT` (R392). -/
abbrev SOR_STAT.SRC : Fld := ⟨.SOR_STAT, 0, 2⟩
abbrev SOR_STAT.ALL_CONV : Fld := ⟨.SOR_STAT, 2, 1⟩
abbrev SOR_STAT.FIRST_USE : Fld := ⟨.SOR_STAT, 3, 1⟩
abbrev SOR_STAT.SK_MOVING : Fld := ⟨.SOR_STAT, 4, 1⟩
abbrev SOR_STAT.CALFAIL_SEEN : Fld := ⟨.SOR_STAT, 5, 1⟩
abbrev SOR_STAT.LOADBAD : Fld := ⟨.SOR_STAT, 6, 1⟩
/-! Fields of `SOR_REQ` (R392). -/
abbrev SOR_REQ.MACH : Fld := ⟨.SOR_REQ, 0, 3⟩
abbrev SOR_REQ.TARGET : Fld := ⟨.SOR_REQ, 3, 11⟩
abbrev SOR_REQ.GO : Fld := ⟨.SOR_REQ, 14, 1⟩
abbrev SOR_REQ.RESULT : Fld := ⟨.SOR_REQ, 15, 2⟩
/-! Fields of `SOR_FAIL` (R392). -/
abbrev SOR_FAIL.REASON : Fld := ⟨.SOR_FAIL, 0, 8⟩
abbrev SOR_FAIL.MACH : Fld := ⟨.SOR_FAIL, 8, 3⟩
abbrev SOR_FAIL.TARGET : Fld := ⟨.SOR_FAIL, 11, 11⟩
abbrev SOR_FAIL.REQUESTED : Fld := ⟨.SOR_FAIL, 22, 1⟩
/-! Fields of `SOR_CNT` (R392). -/
abbrev SOR_CNT.COMMITS : Fld := ⟨.SOR_CNT, 0, 16⟩
abbrev SOR_CNT.FAILS : Fld := ⟨.SOR_CNT, 16, 16⟩
/-! Fields of `CDLY_LO` (R392). -/
abbrev CDLY_LO.DELAY : Fld := ⟨.CDLY_LO, 0, 32⟩
/-! Fields of `CDLY_HI` (R392). -/
abbrev CDLY_HI.DELAY : Fld := ⟨.CDLY_HI, 0, 16⟩
/-! Fields of `CDLY_ASYM` (R392). -/
abbrev CDLY_ASYM.ASYM : Fld := ⟨.CDLY_ASYM, 0, 16⟩
/-! Fields of `CDLY_STAT` (R392). -/
abbrev CDLY_STAT.ST : Fld := ⟨.CDLY_STAT, 0, 3⟩
abbrev CDLY_STAT.VALID : Fld := ⟨.CDLY_STAT, 3, 1⟩
abbrev CDLY_STAT.USER : Fld := ⟨.CDLY_STAT, 4, 1⟩
/-! Fields of `NVM_CFG` (R392). -/
abbrev NVM_CFG.HOLDUP_MS : Fld := ⟨.NVM_CFG, 0, 16⟩
abbrev NVM_CFG.AUTO : Fld := ⟨.NVM_CFG, 16, 1⟩
/-! Fields of `NVM_CTRL_A` (R392). -/
abbrev NVM_CTRL_A.CMD : Fld := ⟨.NVM_CTRL_A, 0, 2⟩
abbrev NVM_CTRL_A.BANK : Fld := ⟨.NVM_CTRL_A, 2, 1⟩
abbrev NVM_CTRL_A.FORCE : Fld := ⟨.NVM_CTRL_A, 3, 1⟩
/-! Fields of `NVM_CTRL_B` (R392). -/
abbrev NVM_CTRL_B.CMD : Fld := ⟨.NVM_CTRL_B, 0, 2⟩
abbrev NVM_CTRL_B.BANK : Fld := ⟨.NVM_CTRL_B, 2, 1⟩
abbrev NVM_CTRL_B.FORCE : Fld := ⟨.NVM_CTRL_B, 3, 1⟩
/-! Fields of `NVM_STAT` (R392). -/
abbrev NVM_STAT.BUSY : Fld := ⟨.NVM_STAT, 0, 1⟩
abbrev NVM_STAT.PHASE : Fld := ⟨.NVM_STAT, 1, 2⟩
abbrev NVM_STAT.INUSE : Fld := ⟨.NVM_STAT, 3, 1⟩
abbrev NVM_STAT.A_VALID : Fld := ⟨.NVM_STAT, 4, 1⟩
abbrev NVM_STAT.B_VALID : Fld := ⟨.NVM_STAT, 5, 1⟩
abbrev NVM_STAT.SEED_VALID : Fld := ⟨.NVM_STAT, 6, 1⟩
abbrev NVM_STAT.STORED : Fld := ⟨.NVM_STAT, 7, 1⟩
abbrev NVM_STAT.REFUSED : Fld := ⟨.NVM_STAT, 8, 1⟩
abbrev NVM_STAT.FAILED : Fld := ⟨.NVM_STAT, 9, 1⟩
abbrev NVM_STAT.LAST_CODE : Fld := ⟨.NVM_STAT, 10, 4⟩
abbrev NVM_STAT.EST_MS : Fld := ⟨.NVM_STAT, 14, 16⟩
/-! Fields of `NVM_GEN_A` (R392). -/
abbrev NVM_GEN_A.GEN : Fld := ⟨.NVM_GEN_A, 0, 32⟩
/-! Fields of `NVM_GEN_B` (R392). -/
abbrev NVM_GEN_B.GEN : Fld := ⟨.NVM_GEN_B, 0, 32⟩
/-! Fields of `HT_STAT` (R392). -/
abbrev HT_STAT.LMS_ST : Fld := ⟨.HT_STAT, 0, 3⟩
abbrev HT_STAT.DTC_ST : Fld := ⟨.HT_STAT, 3, 3⟩
abbrev HT_STAT.FIRST : Fld := ⟨.HT_STAT, 6, 1⟩
abbrev HT_STAT.PEND : Fld := ⟨.HT_STAT, 7, 1⟩
abbrev HT_STAT.SEARCH_FAIL : Fld := ⟨.HT_STAT, 8, 1⟩
/-! Fields of `HT_FORCE` (R392). -/
abbrev HT_FORCE.CP : Fld := ⟨.HT_FORCE, 0, 10⟩
abbrev HT_FORCE.GAIN : Fld := ⟨.HT_FORCE, 10, 12⟩
/-! Fields of `CD_STAT` (R392). -/
abbrev CD_STAT.ST : Fld := ⟨.CD_STAT, 0, 3⟩
abbrev CD_STAT.EXT : Fld := ⟨.CD_STAT, 3, 1⟩
abbrev CD_STAT.LOADED : Fld := ⟨.CD_STAT, 4, 1⟩
/-! Fields of `SSP_CFG` (R392). -/
abbrev SSP_CFG.STREAM_EN : Fld := ⟨.SSP_CFG, 0, 1⟩
/-! Fields of `SSP_STAT` (R392). -/
abbrev SSP_STAT.LAST_REJ : Fld := ⟨.SSP_STAT, 0, 4⟩
abbrev SSP_STAT.REJ_SEEN : Fld := ⟨.SSP_STAT, 4, 1⟩
abbrev SSP_STAT.VIOL_SEEN : Fld := ⟨.SSP_STAT, 5, 1⟩
abbrev SSP_STAT.SHORT_SEEN : Fld := ⟨.SSP_STAT, 6, 1⟩
abbrev SSP_STAT.MODE3 : Fld := ⟨.SSP_STAT, 7, 1⟩
abbrev SSP_STAT.QUAD : Fld := ⟨.SSP_STAT, 8, 1⟩
/-! Fields of `SSP_CNT` (R392). -/
abbrev SSP_CNT.FRAMES : Fld := ⟨.SSP_CNT, 0, 16⟩
abbrev SSP_CNT.REJECTS : Fld := ⟨.SSP_CNT, 16, 16⟩
/-! Fields of `SSP_STREAM` (R392). -/
abbrev SSP_STREAM.ACCEPTED : Fld := ⟨.SSP_STREAM, 0, 7⟩
abbrev SSP_STREAM.LAST_ST : Fld := ⟨.SSP_STREAM, 8, 8⟩
abbrev SSP_STREAM.QUEUE : Fld := ⟨.SSP_STREAM, 16, 15⟩
/-! Fields of `SM_CFG` (R392). -/
abbrev SM_CFG.EN : Fld := ⟨.SM_CFG, 0, 1⟩
abbrev SM_CFG.CPOL : Fld := ⟨.SM_CFG, 1, 1⟩
abbrev SM_CFG.DIV : Fld := ⟨.SM_CFG, 2, 8⟩
abbrev SM_CFG.SAMPLE : Fld := ⟨.SM_CFG, 10, 2⟩
abbrev SM_CFG.SEL_HW : Fld := ⟨.SM_CFG, 12, 4⟩
/-! Fields of `SM_GPIO` (R392). -/
abbrev SM_GPIO.SEL_OUT : Fld := ⟨.SM_GPIO, 0, 4⟩
/-! Fields of `SM_TIME` (R392). -/
abbrev SM_TIME.SETUP : Fld := ⟨.SM_TIME, 0, 8⟩
abbrev SM_TIME.HOLD : Fld := ⟨.SM_TIME, 8, 8⟩
abbrev SM_TIME.GAP : Fld := ⟨.SM_TIME, 16, 10⟩
/-! Fields of `SM_FRM0` (R392). -/
abbrev SM_FRM0.CMD : Fld := ⟨.SM_FRM0, 0, 16⟩
abbrev SM_FRM0.CMD_BYTES : Fld := ⟨.SM_FRM0, 16, 2⟩
abbrev SM_FRM0.CMD_LANES : Fld := ⟨.SM_FRM0, 18, 2⟩
abbrev SM_FRM0.ADDR_BYTES : Fld := ⟨.SM_FRM0, 20, 3⟩
abbrev SM_FRM0.ADDR_LANES : Fld := ⟨.SM_FRM0, 23, 2⟩
abbrev SM_FRM0.DUMMY : Fld := ⟨.SM_FRM0, 25, 5⟩
/-! Fields of `SM_FRM1` (R392). -/
abbrev SM_FRM1.ADDR : Fld := ⟨.SM_FRM1, 0, 32⟩
/-! Fields of `SM_FRM2` (R392). -/
abbrev SM_FRM2.LEN : Fld := ⟨.SM_FRM2, 0, 10⟩
abbrev SM_FRM2.DATA_LANES : Fld := ⟨.SM_FRM2, 10, 2⟩
abbrev SM_FRM2.READ : Fld := ⟨.SM_FRM2, 12, 1⟩
abbrev SM_FRM2.HWSEL : Fld := ⟨.SM_FRM2, 13, 1⟩
abbrev SM_FRM2.SEL : Fld := ⟨.SM_FRM2, 14, 2⟩
/-! Fields of `SM_CMD` (R392). -/
abbrev SM_CMD.GO : Fld := ⟨.SM_CMD, 0, 1⟩
/-! Fields of `SM_STAT` (R392). -/
abbrev SM_STAT.BUSY : Fld := ⟨.SM_STAT, 0, 1⟩
abbrev SM_STAT.DONE : Fld := ⟨.SM_STAT, 1, 1⟩
abbrev SM_STAT.REFUSED : Fld := ⟨.SM_STAT, 2, 1⟩
abbrev SM_STAT.GO_LOST : Fld := ⟨.SM_STAT, 3, 1⟩
abbrev SM_STAT.XIP_WAIT : Fld := ⟨.SM_STAT, 4, 1⟩
abbrev SM_STAT.FILL_FAIL : Fld := ⟨.SM_STAT, 5, 1⟩
abbrev SM_STAT.CLAMP : Fld := ⟨.SM_STAT, 6, 1⟩
abbrev SM_STAT.LAST_CODE : Fld := ⟨.SM_STAT, 7, 4⟩
/-! Fields of `SM_XIP` (R392). -/
abbrev SM_XIP.EN : Fld := ⟨.SM_XIP, 0, 1⟩
abbrev SM_XIP.SEL : Fld := ⟨.SM_XIP, 1, 2⟩
abbrev SM_XIP.RCMD : Fld := ⟨.SM_XIP, 3, 8⟩
abbrev SM_XIP.CMD_LANES : Fld := ⟨.SM_XIP, 11, 2⟩
abbrev SM_XIP.ADDR4 : Fld := ⟨.SM_XIP, 13, 1⟩
abbrev SM_XIP.ADDR_LANES : Fld := ⟨.SM_XIP, 14, 2⟩
abbrev SM_XIP.DUMMY : Fld := ⟨.SM_XIP, 16, 5⟩
abbrev SM_XIP.DATA_LANES : Fld := ⟨.SM_XIP, 21, 2⟩
/-! Fields of `SM_XIP_TMO` (R392). -/
abbrev SM_XIP_TMO.TMO_US : Fld := ⟨.SM_XIP_TMO, 0, 16⟩
/-! Fields of `SM_CNT` (R392). -/
abbrev SM_CNT.FRAMES : Fld := ⟨.SM_CNT, 0, 16⟩
abbrev SM_CNT.FILL_FAILS : Fld := ⟨.SM_CNT, 16, 16⟩
/-! Fields of `SM_BUF` (R392). -/
abbrev SM_BUF.DATA : Fld := ⟨.SM_BUF, 0, 32⟩
/-! Fields of `RY_GCFG` (R392). -/
abbrev RY_GCFG.APPROVE : Fld := ⟨.RY_GCFG, 0, 1⟩
abbrev RY_GCFG.EVT_FWD : Fld := ⟨.RY_GCFG, 1, 1⟩
abbrev RY_GCFG.RETRY_US : Fld := ⟨.RY_GCFG, 4, 8⟩
/-! Fields of `RY_GSTAT` (R392). -/
abbrev RY_GSTAT.TOP : Fld := ⟨.RY_GSTAT, 0, 1⟩
abbrev RY_GSTAT.ADMITTED : Fld := ⟨.RY_GSTAT, 1, 1⟩
abbrev RY_GSTAT.WID : Fld := ⟨.RY_GSTAT, 2, 8⟩
abbrev RY_GSTAT.LEVEL : Fld := ⟨.RY_GSTAT, 10, 2⟩
abbrev RY_GSTAT.COLD : Fld := ⟨.RY_GSTAT, 12, 1⟩
abbrev RY_GSTAT.ORPHAN_SEEN : Fld := ⟨.RY_GSTAT, 13, 1⟩
abbrev RY_GSTAT.MIR_FULL : Fld := ⟨.RY_GSTAT, 14, 1⟩
abbrev RY_GSTAT.MIR_USED : Fld := ⟨.RY_GSTAT, 15, 15⟩
/-! Fields of `RY_WORKERS` (R392). -/
abbrev RY_WORKERS.NADM : Fld := ⟨.RY_WORKERS, 0, 8⟩
abbrev RY_WORKERS.NPARK : Fld := ⟨.RY_WORKERS, 8, 8⟩
abbrev RY_WORKERS.HEG : Fld := ⟨.RY_WORKERS, 16, 16⟩
/-! Fields of `RY_RACC_ADDR` (R392). -/
abbrev RY_RACC_ADDR.ADDR : Fld := ⟨.RY_RACC_ADDR, 0, 32⟩
/-! Fields of `RY_RACC_DATA` (R392). -/
abbrev RY_RACC_DATA.DATA : Fld := ⟨.RY_RACC_DATA, 0, 32⟩
/-! Fields of `RY_RACC_CTRL` (R392). -/
abbrev RY_RACC_CTRL.WID : Fld := ⟨.RY_RACC_CTRL, 0, 8⟩
abbrev RY_RACC_CTRL.WRITE : Fld := ⟨.RY_RACC_CTRL, 8, 1⟩
abbrev RY_RACC_CTRL.GO : Fld := ⟨.RY_RACC_CTRL, 9, 1⟩
abbrev RY_RACC_CTRL.STATUS : Fld := ⟨.RY_RACC_CTRL, 10, 4⟩
/-! Fields of `RY_CFG` (R392). -/
abbrev RY_CFG.ROLE : Fld := ⟨.RY_CFG, 0, 2⟩
/-! Fields of `RY_STAT` (R392). -/
abbrev RY_STAT.STATE : Fld := ⟨.RY_STAT, 0, 4⟩
abbrev RY_STAT.PEER_WID : Fld := ⟨.RY_STAT, 4, 8⟩
abbrev RY_STAT.PEER_LEVEL : Fld := ⟨.RY_STAT, 12, 2⟩
abbrev RY_STAT.LAST_REFUSE : Fld := ⟨.RY_STAT, 14, 4⟩
abbrev RY_STAT.DOWN_SEEN : Fld := ⟨.RY_STAT, 18, 1⟩
abbrev RY_STAT.REFUSED : Fld := ⟨.RY_STAT, 19, 1⟩
abbrev RY_STAT.CFG_ERR : Fld := ⟨.RY_STAT, 20, 1⟩
abbrev RY_STAT.HB_LATE : Fld := ⟨.RY_STAT, 21, 1⟩
/-! Fields of `RY_CNT` (R392). -/
abbrev RY_CNT.CRCERR : Fld := ⟨.RY_CNT, 0, 16⟩
abbrev RY_CNT.RETX : Fld := ⟨.RY_CNT, 16, 16⟩
/-! Fields of `RY_CNT2` (R392). -/
abbrev RY_CNT2.HBMISS : Fld := ⟨.RY_CNT2, 0, 16⟩
abbrev RY_CNT2.DOWNS : Fld := ⟨.RY_CNT2, 16, 16⟩
/-! Fields of `RY_TT` (R392). -/
abbrev RY_TT.TT_ST : Fld := ⟨.RY_TT, 0, 3⟩
abbrev RY_TT.UNLOCK_SEEN : Fld := ⟨.RY_TT, 3, 1⟩
abbrev RY_TT.RANGE : Fld := ⟨.RY_TT, 4, 1⟩
/-! Fields of `FWD_CFG` (R392). -/
abbrev FWD_CFG.FQ : Fld := ⟨.FWD_CFG, 0, 15⟩
abbrev FWD_CFG.EN : Fld := ⟨.FWD_CFG, 15, 1⟩
/-! Fields of `FWD_DST` (R392). -/
abbrev FWD_DST.WID : Fld := ⟨.FWD_DST, 0, 8⟩
abbrev FWD_DST.RQ : Fld := ⟨.FWD_DST, 8, 15⟩
/-! Fields of `FWD_CQ` (R392). -/
abbrev FWD_CQ.CQ : Fld := ⟨.FWD_CQ, 0, 15⟩
abbrev FWD_CQ.CQ_EN : Fld := ⟨.FWD_CQ, 15, 1⟩
/-! Fields of `FWD_STAT` (R392). -/
abbrev FWD_STAT.MIR : Fld := ⟨.FWD_STAT, 0, 15⟩
abbrev FWD_STAT.ERR : Fld := ⟨.FWD_STAT, 15, 1⟩
abbrev FWD_STAT.RESEND : Fld := ⟨.FWD_STAT, 16, 1⟩
/-! Fields of `WT_STAT` (R392). -/
abbrev WT_STAT.STATE : Fld := ⟨.WT_STAT, 0, 3⟩
abbrev WT_STAT.LINK : Fld := ⟨.WT_STAT, 3, 4⟩
abbrev WT_STAT.LEVEL : Fld := ⟨.WT_STAT, 7, 2⟩
abbrev WT_STAT.COLD : Fld := ⟨.WT_STAT, 9, 1⟩
abbrev WT_STAT.UNREP : Fld := ⟨.WT_STAT, 10, 1⟩
abbrev WT_STAT.RECORDS : Fld := ⟨.WT_STAT, 11, 15⟩
abbrev WT_STAT.REPLAYING : Fld := ⟨.WT_STAT, 26, 1⟩
/-! Fields of `WT_CTRL` (R392). -/
abbrev WT_CTRL.APPROVE : Fld := ⟨.WT_CTRL, 0, 1⟩
abbrev WT_CTRL.DENY : Fld := ⟨.WT_CTRL, 1, 1⟩
abbrev WT_CTRL.REPLAY : Fld := ⟨.WT_CTRL, 2, 1⟩
/-! Fields of `WT_CTRL_A` (R392). -/
abbrev WT_CTRL_A.EVICT : Fld := ⟨.WT_CTRL_A, 0, 1⟩
/-! Fields of `WT_CTRL_B` (R392). -/
abbrev WT_CTRL_B.EVICT : Fld := ⟨.WT_CTRL_B, 0, 1⟩
/-! Fields of `ENG_CFG` (R393). -/
abbrev ENG_CFG.EN : Fld := ⟨.ENG_CFG, 0, 1⟩
abbrev ENG_CFG.STEAL_EN : Fld := ⟨.ENG_CFG, 1, 1⟩
/-! Fields of `ENG_WDOG` (R393). -/
abbrev ENG_WDOG.WDOG_US : Fld := ⟨.ENG_WDOG, 0, 16⟩
/-! Fields of `ENG_CMD` (R393). -/
abbrev ENG_CMD.REINIT : Fld := ⟨.ENG_CMD, 0, 1⟩
/-! Fields of `ENG_STAT` (R393). -/
abbrev ENG_STAT.STATE : Fld := ⟨.ENG_STAT, 0, 3⟩
abbrev ENG_STAT.CUR_Q : Fld := ⟨.ENG_STAT, 3, 15⟩
abbrev ENG_STAT.FAULTED : Fld := ⟨.ENG_STAT, 18, 1⟩
abbrev ENG_STAT.LAST_FAULT : Fld := ⟨.ENG_STAT, 19, 8⟩
abbrev ENG_STAT.FAILED_SEEN : Fld := ⟨.ENG_STAT, 27, 1⟩
/-! Fields of `ENG_CNT` (R393). -/
abbrev ENG_CNT.ITEMS : Fld := ⟨.ENG_CNT, 0, 16⟩
abbrev ENG_CNT.FAULTS : Fld := ⟨.ENG_CNT, 16, 16⟩
/-! Fields of `ENG_PC` (R393). -/
abbrev ENG_PC.PC : Fld := ⟨.ENG_PC, 0, 32⟩
/-! Fields of `TSG_CFG` (R393). -/
abbrev TSG_CFG.TEST : Fld := ⟨.TSG_CFG, 0, 1⟩
/-! Fields of `TS_ID` (R393). -/
abbrev TS_ID.CHAN : Fld := ⟨.TS_ID, 0, 11⟩
abbrev TS_ID.CHIPLET : Fld := ⟨.TS_ID, 11, 3⟩
abbrev TS_ID.LOCAL : Fld := ⟨.TS_ID, 14, 8⟩
abbrev TS_ID.EVT : Fld := ⟨.TS_ID, 22, 1⟩
/-! Fields of `TS_IN` (R393). -/
abbrev TS_IN.THRESH : Fld := ⟨.TS_IN, 0, 10⟩
abbrev TS_IN.HYST : Fld := ⟨.TS_IN, 10, 4⟩
abbrev TS_IN.IN_EN : Fld := ⟨.TS_IN, 14, 1⟩
abbrev TS_IN.TRIG_EN : Fld := ⟨.TS_IN, 15, 1⟩
abbrev TS_IN.EDGE : Fld := ⟨.TS_IN, 16, 2⟩
/-! Fields of `TS_HOLDOFF` (R393). -/
abbrev TS_HOLDOFF.HOLDOFF : Fld := ⟨.TS_HOLDOFF, 0, 16⟩
/-! Fields of `TS_MEAS` (R393). -/
abbrev TS_MEAS.MEAS : Fld := ⟨.TS_MEAS, 0, 32⟩
/-! Fields of `TS_N` (R393). -/
abbrev TS_N.N : Fld := ⟨.TS_N, 0, 32⟩
/-! Fields of `TS_TMO` (R393). -/
abbrev TS_TMO.TMO : Fld := ⟨.TS_TMO, 0, 32⟩
/-! Fields of `TS_CMD` (R393). -/
abbrev TS_CMD.ARM : Fld := ⟨.TS_CMD, 0, 1⟩
abbrev TS_CMD.DISARM : Fld := ⟨.TS_CMD, 1, 1⟩
/-! Fields of `TS_STAT` (R393). -/
abbrev TS_STAT.ARMED : Fld := ⟨.TS_STAT, 0, 1⟩
abbrev TS_STAT.OPEN : Fld := ⟨.TS_STAT, 1, 1⟩
abbrev TS_STAT.SKEW : Fld := ⟨.TS_STAT, 2, 1⟩
abbrev TS_STAT.CAL : Fld := ⟨.TS_STAT, 3, 1⟩
abbrev TS_STAT.RED_PREC : Fld := ⟨.TS_STAT, 4, 1⟩
abbrev TS_STAT.DONE : Fld := ⟨.TS_STAT, 5, 1⟩
abbrev TS_STAT.FIFO_FULL : Fld := ⟨.TS_STAT, 6, 1⟩
abbrev TS_STAT.RING_STALL : Fld := ⟨.TS_STAT, 7, 1⟩
abbrev TS_STAT.LAST_END : Fld := ⟨.TS_STAT, 8, 4⟩
/-! Fields of `TS_ERR` (R393). -/
abbrev TS_ERR.MODEBAD : Fld := ⟨.TS_ERR, 0, 1⟩
abbrev TS_ERR.SRCBAD : Fld := ⟨.TS_ERR, 1, 1⟩
abbrev TS_ERR.INOFF : Fld := ⟨.TS_ERR, 2, 1⟩
abbrev TS_ERR.RINGBAD : Fld := ⟨.TS_ERR, 3, 1⟩
abbrev TS_ERR.NOGATE : Fld := ⟨.TS_ERR, 4, 1⟩
abbrev TS_ERR.NOTMO : Fld := ⟨.TS_ERR, 5, 1⟩
abbrev TS_ERR.BUSY : Fld := ⟨.TS_ERR, 6, 1⟩
abbrev TS_ERR.CMT_COLL : Fld := ⟨.TS_ERR, 7, 1⟩
abbrev TS_ERR.CLAMP : Fld := ⟨.TS_ERR, 8, 1⟩
abbrev TS_ERR.LAST_CODE : Fld := ⟨.TS_ERR, 16, 4⟩
/-! Fields of `TS_LIVE` (R393). -/
abbrev TS_LIVE.LIVE : Fld := ⟨.TS_LIVE, 0, 32⟩
/-! Fields of `TS_CNT1` (R393). -/
abbrev TS_CNT1.HELD : Fld := ⟨.TS_CNT1, 0, 16⟩
abbrev TS_CNT1.ORPHAN_STOP : Fld := ⟨.TS_CNT1, 16, 16⟩
/-! Fields of `TS_CNT2` (R393). -/
abbrev TS_CNT2.ORPHAN_START : Fld := ⟨.TS_CNT2, 0, 16⟩
abbrev TS_CNT2.UNRES : Fld := ⟨.TS_CNT2, 16, 16⟩
/-! Fields of `TS_CNT3` (R393). -/
abbrev TS_CNT3.OVERRUN : Fld := ⟨.TS_CNT3, 0, 16⟩
abbrev TS_CNT3.MISSED : Fld := ⟨.TS_CNT3, 16, 16⟩
/-! Fields of `TS_CNT4` (R393). -/
abbrev TS_CNT4.RANGE : Fld := ⟨.TS_CNT4, 0, 16⟩
/-! Fields of `RING_CFG` (R393). -/
abbrev RING_CFG.BASE : Fld := ⟨.RING_CFG, 0, 10⟩
abbrev RING_CFG.SIZE : Fld := ⟨.RING_CFG, 10, 10⟩
abbrev RING_CFG.EN : Fld := ⟨.RING_CFG, 20, 1⟩
/-! Fields of `RING_WR` (R393). -/
abbrev RING_WR.WR : Fld := ⟨.RING_WR, 0, 18⟩
/-! Fields of `RING_RD` (R393). -/
abbrev RING_RD.RD : Fld := ⟨.RING_RD, 0, 18⟩
/-! Fields of `RING_STAT` (R393). -/
abbrev RING_STAT.LEVEL : Fld := ⟨.RING_STAT, 0, 18⟩
abbrev RING_STAT.FULL_SEEN : Fld := ⟨.RING_STAT, 18, 1⟩
abbrev RING_STAT.RELBAD : Fld := ⟨.RING_STAT, 19, 1⟩
abbrev RING_STAT.CFGBAD : Fld := ⟨.RING_STAT, 20, 1⟩
/-! Fields of `RING_REL` (R393). -/
abbrev RING_REL.REL : Fld := ⟨.RING_REL, 0, 18⟩
/-! Fields of `PORT_ID` (R393). -/
abbrev PORT_ID.PORT : Fld := ⟨.PORT_ID, 0, 10⟩
abbrev PORT_ID.CHIPLET : Fld := ⟨.PORT_ID, 10, 3⟩
abbrev PORT_ID.WIDE : Fld := ⟨.PORT_ID, 13, 1⟩
/-! Fields of `PORT_CFG` (R393). -/
abbrev PORT_CFG.SRC : Fld := ⟨.PORT_CFG, 0, 3⟩
abbrev PORT_CFG.FMT : Fld := ⟨.PORT_CFG, 3, 2⟩
abbrev PORT_CFG.MARKER : Fld := ⟨.PORT_CFG, 5, 1⟩
abbrev PORT_CFG.EN : Fld := ⟨.PORT_CFG, 6, 1⟩
abbrev PORT_CFG.SQ_LEVEL : Fld := ⟨.PORT_CFG, 7, 1⟩
abbrev PORT_CFG.LL_POL : Fld := ⟨.PORT_CFG, 8, 2⟩
abbrev PORT_CFG.FO_ELSE : Fld := ⟨.PORT_CFG, 10, 1⟩
abbrev PORT_CFG.LL_RESUME : Fld := ⟨.PORT_CFG, 11, 1⟩
abbrev PORT_CFG.RL_POL : Fld := ⟨.PORT_CFG, 12, 2⟩
abbrev PORT_CFG.PH_SLEW : Fld := ⟨.PORT_CFG, 14, 5⟩
/-! Fields of `PORT_DIV` (R393). -/
abbrev PORT_DIV.DIV : Fld := ⟨.PORT_DIV, 0, 16⟩
/-! Fields of `PORT_FINE` (R393). -/
abbrev PORT_FINE.FINE : Fld := ⟨.PORT_FINE, 0, 20⟩
/-! Fields of `PORT_CMD` (R393). -/
abbrev PORT_CMD.COMMIT : Fld := ⟨.PORT_CMD, 0, 1⟩
/-! Fields of `PORT_CEIL` (R393). -/
abbrev PORT_CEIL.CEIL_KHZ : Fld := ⟨.PORT_CEIL, 0, 32⟩
/-! Fields of `PORT_LOCK` (R393). -/
abbrev PORT_LOCK.CEIL_LOCK : Fld := ⟨.PORT_LOCK, 0, 1⟩
/-! Fields of `PORT_MK` (R393). -/
abbrev PORT_MK.MK_PERIOD : Fld := ⟨.PORT_MK, 0, 32⟩
/-! Fields of `PORT_MK2` (R393). -/
abbrev PORT_MK2.MK_WIDTH : Fld := ⟨.PORT_MK2, 0, 16⟩
/-! Fields of `PORT_HOLD` (R393). -/
abbrev PORT_HOLD.HOLD_LIM : Fld := ⟨.PORT_HOLD, 0, 8⟩
/-! Fields of `PORT_SKEW` (R393). -/
abbrev PORT_SKEW.OFS : Fld := ⟨.PORT_SKEW, 0, 16⟩
abbrev PORT_SKEW.SK_EN : Fld := ⟨.PORT_SKEW, 16, 1⟩
/-! Fields of `PORT_TRIM` (R393). -/
abbrev PORT_TRIM.TRIM : Fld := ⟨.PORT_TRIM, 0, 13⟩
/-! Fields of `PORT_STAT` (R393). -/
abbrev PORT_STAT.RUNNING : Fld := ⟨.PORT_STAT, 0, 1⟩
abbrev PORT_STAT.ACT_SRC : Fld := ⟨.PORT_STAT, 1, 3⟩
abbrev PORT_STAT.STATE : Fld := ⟨.PORT_STAT, 4, 3⟩
abbrev PORT_STAT.STALE : Fld := ⟨.PORT_STAT, 7, 1⟩
abbrev PORT_STAT.ON_LINE : Fld := ⟨.PORT_STAT, 8, 1⟩
abbrev PORT_STAT.RAMPING : Fld := ⟨.PORT_STAT, 9, 1⟩
abbrev PORT_STAT.FO_FREE : Fld := ⟨.PORT_STAT, 10, 1⟩
abbrev PORT_STAT.CEIL_TRIP : Fld := ⟨.PORT_STAT, 11, 1⟩
abbrev PORT_STAT.LL_SEEN : Fld := ⟨.PORT_STAT, 12, 1⟩
abbrev PORT_STAT.SKEW_LIM : Fld := ⟨.PORT_STAT, 13, 1⟩
abbrev PORT_STAT.CEIL_REF : Fld := ⟨.PORT_STAT, 14, 1⟩
abbrev PORT_STAT.FO_PRESET : Fld := ⟨.PORT_STAT, 15, 1⟩
abbrev PORT_STAT.CEIL_CLAMP : Fld := ⟨.PORT_STAT, 16, 1⟩
abbrev PORT_STAT.HOLD_MARGIN : Fld := ⟨.PORT_STAT, 17, 1⟩
/-! Fields of `PORT_ACT` (R393). -/
abbrev PORT_ACT.ACT_DIV : Fld := ⟨.PORT_ACT, 0, 16⟩
abbrev PORT_ACT.ACT_FMT : Fld := ⟨.PORT_ACT, 16, 2⟩
abbrev PORT_ACT.ACT_MARKER : Fld := ⟨.PORT_ACT, 18, 1⟩
/-! Fields of `PORT_ACTF` (R393). -/
abbrev PORT_ACTF.ACT_FINE : Fld := ⟨.PORT_ACTF, 0, 20⟩
/-! Fields of `PORT_ERR` (R393). -/
abbrev PORT_ERR.DIVBAD : Fld := ⟨.PORT_ERR, 0, 1⟩
abbrev PORT_ERR.FMTBAD : Fld := ⟨.PORT_ERR, 1, 1⟩
abbrev PORT_ERR.SRCDOWN : Fld := ⟨.PORT_ERR, 2, 1⟩
abbrev PORT_ERR.SPARE : Fld := ⟨.PORT_ERR, 3, 1⟩
abbrev PORT_ERR.PORTRANGE : Fld := ⟨.PORT_ERR, 4, 1⟩
abbrev PORT_ERR.FMTRANGE : Fld := ⟨.PORT_ERR, 5, 1⟩
abbrev PORT_ERR.CEIL : Fld := ⟨.PORT_ERR, 6, 1⟩
abbrev PORT_ERR.MKBAD : Fld := ⟨.PORT_ERR, 7, 1⟩
abbrev PORT_ERR.CMT_COLL : Fld := ⟨.PORT_ERR, 8, 1⟩
abbrev PORT_ERR.SLEWCLAMP : Fld := ⟨.PORT_ERR, 9, 1⟩
abbrev PORT_ERR.LAST_CODE : Fld := ⟨.PORT_ERR, 16, 4⟩
/-! Fields of `PORT_CNT` (R393). -/
abbrev PORT_CNT.LLOSSES : Fld := ⟨.PORT_CNT, 0, 16⟩
abbrev PORT_CNT.COMMITS : Fld := ⟨.PORT_CNT, 16, 16⟩
/-! Fields of `PORT_SKMEAS` (R393). -/
abbrev PORT_SKMEAS.ERR : Fld := ⟨.PORT_SKMEAS, 0, 24⟩
abbrev PORT_SKMEAS.VALID : Fld := ⟨.PORT_SKMEAS, 31, 1⟩
/-! Fields of `QD_CTRL` (R394). -/
abbrev QD_CTRL.EN : Fld := ⟨.QD_CTRL, 0, 1⟩
abbrev QD_CTRL.SERIAL : Fld := ⟨.QD_CTRL, 1, 1⟩
abbrev QD_CTRL.ITEM_SZ : Fld := ⟨.QD_CTRL, 2, 2⟩
abbrev QD_CTRL.PRIO : Fld := ⟨.QD_CTRL, 4, 2⟩
abbrev QD_CTRL.NOSTEAL : Fld := ⟨.QD_CTRL, 6, 1⟩
abbrev QD_CTRL.HOSTQ : Fld := ⟨.QD_CTRL, 7, 1⟩
abbrev QD_CTRL.QSTOP : Fld := ⟨.QD_CTRL, 8, 1⟩
abbrev QD_CTRL.DRAIN : Fld := ⟨.QD_CTRL, 9, 1⟩
abbrev QD_CTRL.SUBMIT : Fld := ⟨.QD_CTRL, 10, 4⟩
abbrev QD_CTRL.CQ_EN : Fld := ⟨.QD_CTRL, 14, 1⟩
abbrev QD_CTRL.RESUME : Fld := ⟨.QD_CTRL, 15, 1⟩
abbrev QD_CTRL.CQ : Fld := ⟨.QD_CTRL, 16, 15⟩
/-! Fields of `QD_LEN` (R394). -/
abbrev QD_LEN.LEN : Fld := ⟨.QD_LEN, 0, 20⟩
/-! Fields of `QD_ENTRY` (R394). -/
abbrev QD_ENTRY.ENTRY : Fld := ⟨.QD_ENTRY, 0, 25⟩
/-! Fields of `QD_ARG` (R394). -/
abbrev QD_ARG.ARG : Fld := ⟨.QD_ARG, 0, 32⟩
/-! Fields of `QD_AFF` (R394). -/
abbrev QD_AFF.AFF : Fld := ⟨.QD_AFF, 0, 32⟩
/-! Fields of `QD_STAT` (R394). -/
abbrev QD_STAT.LEVEL : Fld := ⟨.QD_STAT, 0, 20⟩
abbrev QD_STAT.STOPPED : Fld := ⟨.QD_STAT, 20, 1⟩
abbrev QD_STAT.FULL_SEEN : Fld := ⟨.QD_STAT, 21, 1⟩
abbrev QD_STAT.STARVED : Fld := ⟨.QD_STAT, 22, 1⟩
abbrev QD_STAT.DESCERR : Fld := ⟨.QD_STAT, 23, 1⟩
abbrev QD_STAT.LENCLAMP : Fld := ⟨.QD_STAT, 24, 1⟩
/-! Fields of `QD_CNT` (R394). -/
abbrev QD_CNT.FAULTS : Fld := ⟨.QD_CNT, 0, 16⟩
abbrev QD_CNT.QUARS : Fld := ⟨.QD_CNT, 16, 8⟩
abbrev QD_CNT.LAST_ST : Fld := ⟨.QD_CNT, 24, 8⟩

end Sys2Proof.Machine
end

