-- ==== Sys2Proof/Machine/Store.lean ====
section
/-! DEFINITION. Sparse maps from natural-number keys to plain data, in one canonical form: keys strictly rising, and no
entry equal to what an unlisted key reads as. Registers, memory bytes, cores, ports, queues and every other numbered
collection of the model are held in one of these. -/

namespace Sys2Proof.Machine

/-- A sparse map: pairs of key and value. -/
abbrev SMap (α : Type) := List (Nat × α)

/-- The value at key `k`; an unlisted key reads `d k`. -/
def SMap.get {α : Type} (d : Nat → α) : SMap α → Nat → α
  | [], k => d k
  | (k', v) :: m, k => if k = k' then v else SMap.get d m k

/-- Put the entry of key `k` before the first entry with a higher key. -/
def SMap.place {α : Type} (k : Nat) (v : α) : SMap α → SMap α
  | [] => [(k, v)]
  | (k', v') :: m => if k < k' then (k, v) :: (k', v') :: m else (k', v') :: SMap.place k v m

/-- Store `v` at key `k`, keeping the canonical form: a value that key `k` reads as unlisted leaves no entry. -/
def SMap.set {α : Type} [DecidableEq α] (d : Nat → α) (m : SMap α) (k : Nat) (v : α) : SMap α :=
  if v = d k then m.filter fun e => e.1 ≠ k else SMap.place k v (m.filter fun e => e.1 ≠ k)

/-- The canonical form above a bound: keys strictly rising from `lo` on, no entry equal to its unlisted value. -/
def SMap.wfFrom {α : Type} [DecidableEq α] (d : Nat → α) : Nat → SMap α → Bool
  | _, [] => true
  | lo, (k, v) :: m => decide (lo ≤ k) && decide (v ≠ d k) && SMap.wfFrom d (k + 1) m

/-- The canonical form. -/
def SMap.wf {α : Type} [DecidableEq α] (d : Nat → α) (m : SMap α) : Bool := SMap.wfFrom d 0 m

/-- Store a list of values at consecutive keys. -/
def SMap.setMany {α : Type} [DecidableEq α] (d : Nat → α) (m : SMap α) (k : Nat) : List α → SMap α
  | [] => m
  | v :: vs => SMap.setMany d (SMap.set d m k v) (k + 1) vs

/-- Read `n` consecutive keys. -/
def SMap.getMany {α : Type} (d : Nat → α) (m : SMap α) (k : Nat) : Nat → List α
  | 0 => []
  | n + 1 => SMap.get d m k :: SMap.getMany d m (k + 1) n

/-- Store a block of values at consecutive keys from `lo` on, in one pass. -/
def SMap.fill {α : Type} [DecidableEq α] (d : Nat → α) (m : SMap α) (lo : Nat) (vs : List α) : SMap α :=
  m.filter (fun e => e.1 < lo) ++
    ((vs.zipIdx lo).filterMap fun x => if x.1 = d x.2 then none else some (x.2, x.1)) ++
    m.filter (fun e => lo + vs.length ≤ e.1)

/-- Drop every entry with a key in [lo, hi), so that these keys read their unlisted value again. -/
def SMap.clear {α : Type} (lo hi : Nat) (m : SMap α) : SMap α :=
  m.filter fun e => e.1 < lo || hi ≤ e.1

end Sys2Proof.Machine
end

