-- ==== Sys2Proof/Machine/State.lean ====
section
/-! DEFINITION. The state of the T1024: every register of the spec's tables (`regs`, keyed by byte address), every wide value
that is stored (`wide`), the on-chip memory, the NVM die, the hop and port machinery of the chiplets, the queues and
engines, the links, the services, and the queue of commands that wait. State is plain data. -/

namespace Sys2Proof.Machine

/-- What can stop a step for good. No command of this block ends in a fault: the spec gives every command an effect or no effect,
so this type has no constructor. -/
inductive Fault where
  deriving DecidableEq, Repr

/-- What the model refuses. -/
inductive Refusal where
  /-- The command has no meaning yet. Raised by the dispatcher alone. Safe: no next state is claimed. -/
  | notModelled (mnemonic : String)
  deriving DecidableEq, Repr

/-! ## Words, actions and items -/

/-- A divider word (R79): what a commit or a HOP loads into a half. -/
structure DivWord where
  cmpDiv : Nat
  mode : Nat
  order : Nat
  preset : Nat
  int : Nat
  frac : Nat
  num : Nat
  den : Nat
  band : Nat
  search : Bool
  deriving DecidableEq, Repr

/-- A phase-memory line (R111): its anchor as tick count and fraction, and the phase there. -/
structure PmLine where
  t0 : Nat
  t0frac : Nat
  phi0 : Nat
  deriving DecidableEq, Repr

/-- A port word (the section "The port word"): the fields that a commit or a PORTSET loads into a port. -/
structure PortWord where
  src : Nat
  fmt : Nat
  marker : Bool
  en : Bool
  sqLevel : Nat
  div : Nat
  fine : Nat
  deriving DecidableEq, Repr

/-- What an action does at its stamp (R239). A HOP carries the 32 captured words of its context. -/
inductive ActKind where
  | hop (core ctx : Nat) (words : List Word)
  | phase (port fine : Nat)
  | portset (port word mask : Nat)
  | mark (port count : Nat)
  | arm (chan : Nat) (meas n tmo : Nat)
  | disarm (chan : Nat)
  deriving DecidableEq, Repr

/-- An action (R11): its stamp, its place in the order of R201, its item's late policy, and what it does. -/
structure Action where
  tick : Nat
  frac : Nat
  q : Nat
  seq : Nat
  idx : Nat
  applyLate : Bool
  kind : ActKind
  deriving DecidableEq, Repr

/-- The class of a HOP, fixed at admission (R101). -/
inductive HopClass where
  | inPlace | pingPong | relock
  deriving DecidableEq, Repr

/-- An admitted action in a commit FIFO (R17): the action, the boundary at which it applies, and, for a HOP, its class, whether
it is cached and its lead (R101, R102). A HOP that has failed before its switch tick stays, dead, to that tick (R108). A step of the
replica past the boundary moves `due` to the tick after the step, and `passedAt` keeps the boundary passed (R57). -/
structure Admitted where
  act : Action
  due : Nat
  cls : HopClass
  cached : Bool
  lead : Nat
  dead : Bool := false
  passedAt : Option Nat := none
  deriving DecidableEq, Repr

/-- Where an item stands. -/
inductive ItemSt where
  /-- In its queue, eligible in its turn. -/
  | waiting
  /-- Returned by a YIELD until the named tick (R242). -/
  | yielded (tick : Nat)
  /-- Held by an engine (R194). -/
  | held (e : Nat)
  /-- Its handler executed ACK or NACK; the completion of R199 is outstanding. -/
  | ended
  /-- Waits for room in the quarantine queue (R206), with the fault and the engine of its third fault. -/
  | quarWait (fault e : Nat)
  deriving DecidableEq, Repr

/-- An accepted item (R182): the header fields, the payload in 64-bit words, and what its completion needs (R199); for an
item of the upstream link its manager sequence (R291) and the highest tick count of its admitted actions (R292). `since` is the clock of
its acceptance or return, `eligAt` that at which it last began to wait (R198, R242). -/
structure Item where
  seq : Nat
  late : Bool := false
  fcnt : Nat := 0
  cmpl : Bool := false
  puts : Nat := 0
  size : Nat := 16
  body : List Dword := []
  since : Nat := 0
  eligAt : Nat := 0
  st : ItemSt := .waiting
  entry : Nat := 0
  code : Nat := 0
  nact : Nat := 0
  relN : Nat := 0
  out : Nat := 0
  recs : List (Nat × Nat) := []
  hw : Option (Nat × Nat) := none
  lateApplied : Bool := false
  aborted : Bool := false
  mseq : Option Nat := none
  horizon : Nat := 0
  deriving DecidableEq, Repr

/-- The state of one hardware queue beside its descriptor: its accepted and not completed items, head first, the wide value
`QD_SEQ` of R183, the pool blocks it holds (R184), whether it has starved since its latest dispatch, and the clock at which its
head last came to be eligible other than by the item's own acceptance or return (R198). -/
structure Queue where
  items : List Item := []
  nextSeq : Nat := 0
  blocks : List Nat := []
  starved : Bool := false
  openAt : Nat := 0
  deriving DecidableEq, Repr

/-! ## Engines -/

/-- What an engine waits for in the middle of an instruction: a tick (R234), a raise count or deadline (R236), room in the staging
store (R14) or acceptance (R230) with the instruction that then goes on, its released actions' verdicts (R241), or the line of an
offset of the execute-in-place window, for a load or a fetch (R216). -/
inductive EngWait where
  | twait (tick : Nat)
  | waite (d : Nat) (src cnt deadline : Nat)
  | staging (i : Instr)
  | put (i : Instr)
  | fence (d : Nat)
  | xip (off : Nat) (load : Bool)
  deriving DecidableEq, Repr

/-- One Yarrow engine beside its registers (R212): the general and time registers, the scratch and its uncorrectable words, the
held item as queue and sequence, the PUTs issued and actions posted in this run, the staged list, the clock of dispatch, the
wait, the queue served last (R198), the clock of the latest change of state, the ticks spent in service and those of them outside
IDLE (R209), the own queues that were eligible as it became IDLE (R198), the clock at which a re-initialisation ends (R5, R207), and
the execute-in-place lines delivered to the fetches and loads of the instruction in hand (R216). The PC is `ENG_PC`. -/
structure Eng where
  g : SMap Dword := []
  t : SMap (BitVec 80) := []
  scratch : SMap Byte := []
  scrBad : List Nat := []
  held : Option (Nat × Nat) := none
  puts : Nat := 0
  nact : Nat := 0
  staged : List Action := []
  since : Nat := 0
  wait : Option EngWait := none
  lastQ : Nat := 0
  busyFrom : Nat := 0
  idleOwn : List Nat := []
  inService : Nat := 0
  ran : Nat := 0
  reinitAt : Option Nat := none
  lines : List ((Nat × Bool) × List Byte) := []
  deriving DecidableEq, Repr

/-- The execute-in-place cache (R216): its lines, most recently used first, the lines waiting to be filled, with the clock of
their miss, in the order of their misses, the fill that is reading, and whether an invalidation has met it. -/
structure Xip where
  lines : List (Nat × List Byte) := []
  misses : List (Nat × Nat) := []
  filling : Option Nat := none
  drop : Bool := false
  deriving DecidableEq, Repr

/-! ## Chiplets, halves, cores and ports -/

/-- One synthesis chiplet beside its registers: its replica of the time base, its copy of `GEN`, its commit FIFO, the actions on
their way to it, its applied marks (R15, one number per queue: 4096 times the sequence plus the index plus 1), the highest
that the control die has released to it (R382, the same numbers), the items it aborts (R203), the keep-alive of R35, and what it
latched at the last strobe (R55): its tick count, the strobe's phase and its path delay. -/
structure Chip where
  running : Bool := false
  tickOff : Nat := 0
  reload : Bool := false
  gen : Nat := 0
  fifo : List Admitted := []
  transit : List Action := []
  marks : SMap Nat := []
  relMarks : SMap Nat := []
  aborts : SMap Nat := []
  missed : Nat := 0
  lastKeep : Nat := 0
  cdLost : Bool := false
  cdLostAt : Nat := 0
  latchCount : Nat := 0
  latchPhase : Int := 0
  latchDelay : Nat := 0
  deriving DecidableEq, Repr

/-- A band search in progress on a half (R252): the LC cores still to try, the core in hand, the bisection interval (none once the
bisection is over), the band under test, the bands still to test, the steps made in this core, the best band so far with its
distance from mid-range, the clock of the start and of the last step, and whether it is the narrow search of R139. -/
structure BandSearch where
  narrow : Bool
  cores : List Nat
  core : Nat
  bis : Option (Nat × Nat)
  band : Nat
  todo : List Nat
  steps : Nat
  best : Option (Nat × Nat)
  since : Nat
  last : Nat
  deriving DecidableEq, Repr

/-- The trims of one half (R245, R271): the charge-pump trim and the DTC gain per LC core with their convergence bits, and the
DTC INL table with its bits, and whether the values of the LMS and of the DTC machine came from factory seeds or defaults (R255). -/
structure TrimSet where
  cp : List Int := [0, 0, 0]
  gain : List Nat := [2048, 2048, 2048]
  cpConv : Nat := 0
  gainConv : Nat := 0
  inl : SMap Int := []
  inlConv : Nat := 0
  cpSeed : Bool := true
  dtcSeed : Bool := true
  deriving DecidableEq, Repr

/-- A run of the LMS or the DTC machine on a half (R251, R255): whether it was requested, its counted blocks, the consecutive
blocks within the criterion, the residue bins those blocks visited, and the clock of the block's start. -/
structure TrimRun where
  requested : Bool
  blocks : Nat := 0
  streak : Nat := 0
  visited : Nat := 0
  since : Nat := 0
  deriving DecidableEq, Repr

/-- One instance of the LMS or DTC machine (R254): its run, whether its latest run failed, and the clock of its last commit. -/
structure TrimInst where
  run : Option TrimRun := none
  failed : Bool := false
  lastCommit : Nat := 0
  deriving DecidableEq, Repr

/-- One half of a Campion pair beside its registers. `pendBoot` tells that the pending word is that of a bring-up (R366).
`cmpFrom` is the clock of an edge of its comparison divider (R72), `modFrom` that of the edge at which its modulator's accumulator
was last cleared (R83). `own` is the phase of its VCO at a clock, in cycles, once a port's pattern has been placed on it (R112,
R123). -/
structure Half where
  pend : Option DivWord := none
  pendBoot : Bool := false
  lastTimed : Option Nat := none
  preset : Nat := 3
  cmpFrom : Nat := 0
  modFrom : Nat := 0
  ldCur : Word := 0x04010409
  ldNew : Bool := false
  winFrom : Nat := 0
  grossFrom : Nat := 0
  grossRun : Nat := 0
  loopOpen : Bool := false
  search : Option BandSearch := none
  searchBad : Bool := false
  line : Option PmLine := none
  own : Option (Rat × Nat) := none
  rot : Word := 0
  resid : Word := 0
  guard : Bool := false
  ceilFrom : Option Nat := none
  bootBy : Option Nat := none
  relockBy : Option Nat := none
  committed : TrimSet := {}
  working : TrimSet := {}
  inForce : TrimSet := {}
  lms : TrimInst := {}
  dtc : TrimInst := {}
  deriving DecidableEq, Repr

/-- A ping-pong hop in its window (R104): the admitted HOP, the stages passed and the clock at which pre-lock was complete. -/
structure HopRun where
  adm : Admitted
  loaded : Bool := false
  wordBad : Bool := false
  searchFail : Bool := false
  prelock : Bool := false
  prelockAt : Nat := 0
  placed : Bool := false
  free : Bool := false
  tested : Bool := false
  deriving DecidableEq, Repr

/-- A relock in progress (R115), with the clock at which pre-lock was complete. -/
structure RelockRun where
  adm : Admitted
  limit : Nat
  loaded : Bool := false
  searchFail : Bool := false
  prelock : Bool := false
  prelockAt : Nat := 0
  ceilBad : Bool := false
  free : Bool := false
  deriving DecidableEq, Repr

/-- A failover of a core's ports to the spare on its chiplet (R139): the failed core, the spare core and half, the decision
tick, the ports it covers, and the stages passed. -/
structure FailoverRun where
  spare : Nat
  spareHalf : Nat
  since : Nat
  ports : List Nat
  word : DivWord
  line : Option PmLine
  loaded : Bool := false
  found : Option Bool := none
  prelock : Bool := false
  prelockAt : Nat := 0
  deriving DecidableEq, Repr

/-- One core beside its registers: its hop window, relock and failover in progress, the busy intervals of its relocks (R103), and
the clock of the latest hop or action on it (R248). -/
structure CoreSt where
  hop : Option HopRun := none
  relock : Option RelockRun := none
  failover : Option FailoverRun := none
  busy : List (Nat × Nat) := []
  lastUse : Nat := 0
  deriving DecidableEq, Repr

/-- A marker pulse train (R129). -/
structure Train where
  start : Nat
  next : Nat
  left : Option Nat
  deriving DecidableEq, Repr

/-- The latest transition of a port's pattern (R110), in ticks: the switch boundary with its clock, the level held (true: high), how long
before the boundary the last outgoing edge E lay (none: the port has emitted no edge since its start), the shortest phase of the outgoing
pattern, h, and how long after the boundary the next edge comes. -/
structure PortTrans where
  ts : Nat
  at_ : Nat
  high : Bool
  lastEdge : Option Rat
  out : Rat
  h : Rat
  nextEdge : Rat
  deriving DecidableEq, Repr

/-- A marker pulse (R129): the tick at or after which it begins, with its clock, its width in cycles of the port's pattern, and how many
ticks after that boundary its rising and its falling edge come. -/
structure Pulse where
  start : Nat
  at_ : Nat
  width : Nat
  rise : Rat
  fall : Rat
  deriving DecidableEq, Repr

/-- One output port beside its registers. `rlPol` is the relock hold in force (R143), `trans` the latest transition, `pulse` the
latest marker pulse, `pulsesOn` those before it that were in progress as it began (R129), `startAt` the clock of the port's latest
start with the level that it leaves by its first edge (true: high; R110, R125), `divKey` the order of the action that set the
divider last with its clock (R118), `staleWord` the divider and fine phase that a run-stale hold goes on emitting after a word
(R125), and `ceilOld` the clock of the latest `PORT_CEIL` write with the ceiling before it (R127). The fields from `skOn` on are
its skew instance (R258): whether the loop measures it, the attempt in progress (its start, the trim then, and whether it was
requested), the end of a failure wait, whether it has converged, the consecutive means within 100 fs and beyond 150 fs, whether
the latest update was withheld or clamped, the clock at which the mean in hand began (R145, R175), and the temperature at the
latest monitor offset (R146). -/
structure PortSt where
  captured : Option PortWord := none
  lastTimed : Option Nat := none
  en : Bool := false
  sqLevel : Nat := 0
  fineTarget : Nat := 0
  train : Option Train := none
  holdSince : Nat := 0
  divKey : Option ((Nat × Nat × Nat × Nat) × Nat) := none
  trimInForce : Int := 0
  trimMotion : Option Int := none
  skewOfs : Int := 0
  skewMeans : Nat := 0
  ofsDue : Bool := true
  rlRun : Bool := false
  staleWord : Option (Nat × Nat) := none
  rlPol : Nat := 0
  trans : Option PortTrans := none
  pulse : Option Pulse := none
  pulsesOn : List Pulse := []
  startAt : Nat × Bool := (0, false)
  ceilOld : Option (Nat × Nat) := none
  skOn : Bool := false
  skAttempt : Option (Nat × Int × Bool) := none
  skWait : Option Nat := none
  skConv : Bool := false
  skGood : Nat := 0
  skBad : Nat := 0
  skLim : Bool := false
  skFrom : Nat := 0
  ofsTemp : Int := 0
  deriving DecidableEq, Repr

/-! ## Teasel channels -/

/-- An accepted edge on its way through the sample path (R155): its stamp, its direction, whether an edge counted in `OVERRUN`
came before it, the clock at which it came, and whether it lies so near the end of that tick that an edge within the window of R163 may
come in the next. -/
structure Edge where
  stamp : Nat
  fall : Bool
  ovr : Bool := false
  at_ : Nat := 0
  late : Bool := false
  deriving DecidableEq, Repr

/-- An armed measurement (R158 to R167): the measurement word, N, `TMO`, the arm tick, the action that armed it, the stamps at which the
gate opened and closed, the pending edges, the samples so far and the flags, and the boundary, as a stamp, at which a register disarm has
ended it. -/
structure Meas where
  word : Nat
  n : Nat
  tmo : Nat
  ta : Nat
  item : Option (Nat × Nat × Nat) := none
  openAt : Option Nat := none
  closing : Option Nat := none
  newRef : Bool := true
  prev : Nat := 0
  pendStart : Option Nat := none
  pendStop : Option Nat := none
  count : Nat := 0
  pivot : Int := 0
  s1 : Int := 0
  s2 : Nat := 0
  minX : Int := 0
  maxX : Int := 0
  sqOvf : Bool := false
  unres : Bool := false
  range : Bool := false
  overrun : Bool := false
  disAt : Option Nat := none
  deriving DecidableEq, Repr

/-- A record that waits in a channel's record buffer (R169, R172): the fields that its storing needs, and the action whose item
waits for an END record. -/
structure Rec where
  ring : Nat
  kind : Nat
  payload : Nat
  frac : Nat := 0
  redPrec : Bool := false
  unres : Bool := false
  item : Option (Nat × Nat × Nat) := none
  deriving DecidableEq, Repr

/-- A code-density run on a channel (R256). -/
structure CdRun where
  requested : Bool
  since : Nat
  synced : Bool := false
  deriving DecidableEq, Repr

/-- One Teasel channel beside its registers: the position of its last accepted edge on the clock, the front FIFO, the stop edges
tapped for its measurement, a captured register arm (word, N, `TMO`) and a written disarm that wait for the boundary (R159), the record
buffer and the GAP and END records that wait behind it (R172), the results to be stored, the number of measurements ended, its
code-density run, its code table (none: factory linear scaling), a table that waits for the measurement's end (R176) and the clock of the
table's commit. -/
structure Chan where
  lastAcc : Option Nat := none
  ovr : Bool := false
  fifo : List Edge := []
  taps : List Edge := []
  meas : Option Meas := none
  armPend : Option (Nat × Nat × Nat) := none
  disPend : Bool := false
  buf : List Rec := []
  late : List Rec := []
  stalled : Bool := false
  results : List (List Byte) := []
  gen : Nat := 0
  cd : Option CdRun := none
  cdTable : Option (List Nat) := none
  cdWait : Option (Option (List Nat)) := none
  cdLast : Nat := 0
  deriving DecidableEq, Repr

/-! ## Cable delay and the calibration store -/

/-- A cable-delay run (R259): its start, the round trips taken with their sum and sum of squares in fraction steps, the sum of the
1,024 in progress, and the sums of the last two. -/
structure CdlyRun where
  requested : Bool
  since : Nat
  n : Nat := 0
  s1 : Int := 0
  s2 : Nat := 0
  cur : Int := 0
  last : Option Int := none
  prev : Option Int := none
  deriving DecidableEq, Repr

/-- The cable delay of a link: the delay in force in fraction steps, its run, and the clock of its last commit. -/
structure Cdly where
  delay : Nat := 0
  run : Option CdlyRun := none
  lastCommit : Nat := 0
  deriving DecidableEq, Repr

/-- The committed values that a store writes, as they stood at its start (R267). -/
structure CalSnap where
  halves : SMap TrimSet := []
  tables : List (List Nat) := []
  preds : SMap Nat := []
  temps : List Nat := []
  deriving DecidableEq, Repr

/-- A store or an erase in progress (R267, R270): its target bank and, for a store, the new generation and the values. -/
structure NvmOp where
  bank : Nat
  store : Option (Nat × CalSnap) := none
  deriving DecidableEq, Repr

/-! ## Time base -/

/-- One reference input (R43, R44): whether its declared frequency stands accepted, since when it has been good, whether it has
been lost since reset release (the requalification time then applies), since when it is qualified, and the first window of
the frequency monitor to judge. -/
structure RefIn where
  freqOk : Bool := true
  goodFrom : Nat := 0
  requal : Bool := false
  qualFrom : Nat := 0
  judgeFrom : Nat := 0
  deriving DecidableEq, Repr

/-- The stages of a switchover (R46). -/
inductive SwStage where
  | decided | frozen | closed
  deriving DecidableEq, Repr

/-- A switchover in progress (R46): the incoming reference, the stage and the clock of its start. -/
structure Switchover where
  target : Nat
  stage : SwStage
  since : Nat
  deriving DecidableEq, Repr

/-- A slew requested or running (R67): its size in fraction steps, its rate, `TimeBase.strobes` as its request or an epoch load left
it and, once started, the clock at which it ends. -/
structure Slew where
  adj : Int
  rate : Nat
  from_ : Nat
  endsAt : Nat := 0
  deriving DecidableEq, Repr

/-- The expected places of EPOCH_IN after a load (R65): the count of the load, the period in force, the fraction of the first
edge, the first place not yet passed as missing, and the places that have their edge. -/
structure EpochPlaces where
  base : Nat
  period : Nat
  frac : Nat
  next : Nat
  matched : List Nat
  deriving DecidableEq, Repr

/-- What an armed load has been given (R62, R63, R287): an EPOCH_IN edge at a clock and fraction, the host's write, or a step of
the tick count from a manager's message. -/
inductive EpochTake where
  | edge (clock frac : Nat)
  | host
  | step (clock : Nat) (delta : Int)
  deriving DecidableEq, Repr

/-- The time base beside its registers and the chiplets' replicas. `strobes` numbers the latest strobe: its tick count over 2^16,
plus 1; 0 when none has come since a load of the count at a strobe's own tick. -/
structure TimeBase where
  ref0 : RefIn := {}
  ref1 : RefIn := {}
  acquiring : Option Nat := none
  sw : Option Switchover := none
  heldSel : Option Nat := none
  holdSince : Nat := 0
  freqWindows : Nat := 0
  strobes : Nat := 0
  take : Option EpochTake := none
  places : Option EpochPlaces := none
  slewReq : Option Slew := none
  slew : Option Slew := none
  bwInForce : Nat := 1
  devOk : Bool := true
  swEnded : Nat := 0
  edgeSinceMiss : Bool := true
  deriving DecidableEq, Repr

/-! ## Register services -/

/-- A change-log record on its way to the ring (R325). -/
structure LogRec where
  tick : Nat
  origin : Nat
  kind : Nat
  addr : Nat
  old : Word
  new : Word
  aux : Nat
  deriving DecidableEq, Repr

/-- The result of a mailbox request in progress (R311, R312): an error code, or the words written at completion. -/
structure MbResult where
  err : Nat
  words : List (Nat × Word)
  deriving DecidableEq, Repr

/-- What an origin owns (R310, R314): its mailbox page and its open pair (the register's _A address, the value and the accesses
left). -/
structure OriginSt where
  req : Word := 0
  stat : Word := 0
  data : SMap Word := []
  busy : Option MbResult := none
  pair : Option (Nat × Word × Nat) := none
  deriving DecidableEq, Repr

/-! ## Serial ports -/

/-- What the status byte of R335 tells of the latest frame of the slave port, and the clocks at which `SSP_CFG.STREAM_EN` has changed, the
latest first: a STREAM frame is judged against its value at the command byte (R350). -/
structure Ssp where
  prevRej : Bool := false
  prevPerm : Bool := false
  prevShort : Bool := false
  toggles : List Nat := []
  deriving DecidableEq, Repr

/-- A software frame of the master port, captured at its `GO` (R344): the frame words, the buffer, its origin and, once it runs,
the clock of its start. -/
structure SmFrame where
  frm0 : Word
  frm1 : Word
  frm2 : Word
  buf : List Word
  o : Nat
  running : Option Nat := none
  deriving DecidableEq, Repr

/-- A write of `SM_GPIO` that is held (R345): its value, whether it waits for the software frame and for the line fill in progress, and
the clock from which it may reach the pins. -/
structure HeldPins where
  v : Nat
  frame : Bool
  fill : Bool
  due : Nat := 0
  deriving DecidableEq, Repr

/-- What the master port clocks out in a frame (R342, R343, R346): the mode, the ticks from its start to the first MSCK edge, the ticks of
an MSCK cycle and by how many the sampling of the inputs is delayed, and of each cycle the MIO lines driven with their levels. -/
structure SmWave where
  mode3 : Bool
  setup : Nat
  period : Nat
  sample : Nat
  cycles : List (BitVec 8 × BitVec 8)
  deriving DecidableEq, Repr

/-- The master port: its frame, the `SM_CFG` in force, the levels of the select pins that follow `SM_GPIO`, the writes held, the oldest
first, with the clock of the last that reached the pins (R345), the hardware select that is low, one that still rises with the clock of
its rise (R350), the clock from which each is high (R346), and the clock at which the line fill started. -/
structure Sm where
  frame : Option SmFrame := none
  cfg : Word := 12
  pins : Nat := 15
  held : List HeldPins := []
  pinsAt : Option Nat := none
  low : Option Nat := none
  rising : Option (Nat × Nat) := none
  selUp : SMap Nat := []
  fillAt : Nat := 0
  deriving DecidableEq, Repr

/-! ## Ryrel -/

/-- A reliable frame not yet acknowledged (R277). -/
structure TxFrame where
  lseq : Nat
  at_ : Nat
  type : Nat
  dst : Nat
  src : Nat
  payload : List Byte
  deriving DecidableEq, Repr

/-- An exchange of R286 at the worker's end, by the number of the manager's marker: t2, then t1, then the number and departure of
the first marker sent after t2. -/
structure WExch where
  k : Nat
  t2 : Nat
  t1 : Option Nat := none
  tx : Option (Nat × Nat) := none
  deriving DecidableEq, Repr

/-- An exchange of R286 at the manager's end, by the number of the worker's marker: t1, t2 and t4; t3 completes it. -/
structure MExch where
  k : Nat
  t1 : Nat
  t2 : Nat
  t4 : Nat
  deriving DecidableEq, Repr

/-- Time transfer on one link (R286): the next marker's number, the latest departures and arrivals, the last peer marker that the
peer acknowledged, the open exchanges, the sums of the servo period, and the periods within and beyond the lock limits. -/
structure Tt where
  txK : Nat := 0
  deps : List (Nat × Nat) := []
  arrs : List (Nat × Nat) := []
  lastJ : Option Nat := none
  wex : List WExch := []
  mex : List MExch := []
  n : Nat := 0
  sumT : Int := 0
  sumD : Int := 0
  good : Nat := 0
  bad : Nat := 0
  deriving DecidableEq, Repr

/-- One Ryrel link beside its registers: reliable numbering (R277), the peer's latest HELLO, the timers of HELLO, HB and TT, the
misses, the join's deadline, the end of a refusal with the peer's HELLO that it met and this end's own (R281), whether the link becomes the
standby when it next trains (R284), time transfer, and the HEG of the ADMIT. -/
structure Lnk where
  rxNext : Nat := 0
  rxSeen : Bool := false
  txNext : Nat := 0
  unacked : List TxFrame := []
  hello : List Byte := []
  helloDue : Nat := 0
  hbDue : Nat := 0
  hbFrom : Nat := 0
  misses : Nat := 0
  ttDue : Nat := 0
  joinBy : Option Nat := none
  refuseUntil : Option Nat := none
  refuseHello : List Byte := []
  tt : Tt := {}
  heg : Nat := 0
  returning : Bool := false
  demoted : Bool := false
  refuseOwn : List Byte := []
  loaded : Bool := false
  readySent : Bool := false
  takeover : Bool := false
  keepTt : Bool := false
  epochDue : Bool := false
  cands : List Nat := []
  deriving DecidableEq, Repr

/-- A worker entry beside its registers (R280, R285, R295): the WID of the part above it, whether its candidate came back, came back cold,
and the mirror records that a replay in progress has still to resend. -/
structure WtSt where
  parent : Nat := 0
  returning : Bool := false
  cold : Bool := false
  replay : List Nat := []
  deriving DecidableEq, Repr

/-- A forwarding entry beside its registers: the clock and MSEQ of a pending resend (R291), and whether a RESYNC must go out before
its first SUBMIT (R290). -/
structure FwdSt where
  resend : Option (Nat × Nat) := none
  fresh : Bool := false
  deriving DecidableEq, Repr

/-- A mirror record (R293), the completion record that still waits for room in `CQ`, whether it ended by a status of
its own and is freed with that record, whether a DONEACK waits for it (R294), and whether its SUBMIT goes out with REPLAY and with
FORCE_ABORT (R295). -/
structure Mirror where
  mseq : Nat
  wid : Nat
  st : Nat
  unrep : Bool
  entry : Nat
  rq : Nat
  sz : Nat
  wseq : Nat
  horizon : Nat
  item : List Byte
  hold : Option (List (BitVec 64)) := none
  ended : Bool := false
  ackDue : Bool := false
  replay : Bool := false
  force : Bool := false
  deriving DecidableEq, Repr

/-- A completion report of a worker (R292): its slot, queue, MSEQ, the two words of the completion record, and HORIZON. -/
structure Report where
  slot : Nat
  q : Nat
  mseq : Nat
  w1 : Nat
  w2 : Nat
  horizon : Nat
  deriving DecidableEq, Repr

/-- The Ryrel machinery of the control die: the epoch load wanted and its next try (R287), the latest EPOCH frame (link, HEG, the
departure and the arrival of its marker), the load being made (link, HEG, remainder), the routes of a relay, the mirror, the
workers, the forwarding entries, the report ring, the sources that wait to be forwarded with the clock from which each may (R297),
and the remote access in progress (its tag and clock) with the next tag. -/
structure Ry where
  want : Option Nat := none
  retryAt : Nat := 0
  msg : Option (Nat × Nat × Nat × Nat) := none
  load : Option (Nat × Nat × Int) := none
  routes : SMap Nat := []
  mirrors : SMap (Option Mirror) := []
  wts : SMap WtSt := []
  fwd : SMap FwdSt := []
  reports : List Report := []
  evPend : List Nat := []
  evFrom : SMap Nat := []
  racc : Option (Nat × Nat) := none
  raccTag : Nat := 0
  deriving DecidableEq, Repr

/-! ## PCI Express -/

/-- Configuration space: what R353 gives, the Device Serial Number capability reading the part's own number; Interrupt Pin and the largest
Max_Payload_Size (R352); the extended capabilities of R352 by their numbers; the MSI-X capability (R360); and what changes in it: the bases
of BAR0 and BAR2 (R355, R356), Max_Payload_Size in Device Control, and the uncorrectable errors that AER has noted. The numbers of the
capabilities, of the codes and of the AER bits are those of the base specification (log entry 121). -/
structure CfgSpace where
  vendor : BitVec 16 := 0x1E5D
  device : BitVec 16 := 0x1024
  revision : BitVec 8 := 0x01
  classCode : BitVec 24 := 0x118000
  subVendor : BitVec 16 := 0x1E5D
  subDevice : BitVec 16 := 0x1024
  noSoftReset : Bool := true
  intPin : BitVec 8 := 0
  mpsSupported : BitVec 3 := 2
  extCaps : List (BitVec 16) := [0x0001, 0x0003, 0x0019, 0x0025, 0x0026, 0x0027]
  msixSize : BitVec 11 := 383
  msixTable : Word := 0x000D0000
  msixPba : Word := 0x000D8000
  bar0 : BitVec 64 := 0
  bar2 : BitVec 64 := 0
  mps : Fin 3 := 0
  aer : Word := 0
  deriving DecidableEq, Repr

/-- One MSI-X vector: its table entry, whether it is masked, its pending bit, whether a message waits for its interval to end, and the
clock of its latest message (R359, R360). -/
structure Vec where
  addrLo : Word := 0
  addrHi : Word := 0
  data : Word := 0
  ctrl : Word := 1
  pending : Bool := false
  merged : Bool := false
  last : Option Nat := none
  deriving DecidableEq, Repr

/-! ## Bring-up -/

/-- Where the boot sequence of R366 stands: the step that has not ended. -/
inductive Boot where
  | sram | cal | image | cores | list | up
  deriving DecidableEq, Repr

/-- A boot command in progress (R369). -/
structure BootCmd where
  cmd : Nat
  slot : Nat
  src : Nat := 0
  dst : Nat := 0
  len : Nat := 0
  gen : Nat := 0
  deriving DecidableEq, Repr

/-! ## The whole machine -/

/-- The check bits of on-chip memory (R28, R29): the 64-bit words, by offset / 8, that hold a single-bit error, the corrections made, the
uncorrectable errors returned, as bank, row and clock, and the records of the ring space that are flagged invalid, by number. No command
makes an error. -/
structure Ecc where
  weak : List Nat := []
  corrected : Nat := 0
  rows : List (Nat × Nat × Nat) := []
  badRecs : List Nat := []
  deriving DecidableEq, Repr

/-- With what a BAR read completes that returns no data (R355, R356): Unsupported Request or Completer Abort. -/
inductive Refused where
  | unsupported | abort
  deriving DecidableEq, Repr

/-- What the part has driven out, newest last: data returned to an origin, MSI-X messages, frames on a link or a serial port, the
levels of SRDY within a slave frame (R337) and the lanes that the port drives in it, the levels of MSEL3 to MSEL0, and the level
at which MSCK rests. -/
inductive Out where
  | readData (o : Nat) (addr : Nat) (v : Word)
  | memData (o : Nat) (off : Nat) (bytes : List Byte)
  | refusedAccess (o : Nat) (addr : Nat) (c : Refused := .unsupported)
  | msix (vec : Nat)
  | pulse (p : Nat) (u : Pulse)
  | sspStatus (v : Byte)
  | srdy (high : Bool)
  | sio (driven : List (BitVec 4 × BitVec 4))
  | smFrame (f : SmFrame) (w : SmWave)
  | smFill (f : SmFrame) (w : SmWave)
  | smPins (levels : Nat)
  | smIdle (high : Bool)
  | frame (l : Nat) (bytes : List Byte)
  deriving DecidableEq, Repr

/-- The state of the T1024. -/
structure State where
  /-- The commands that wait, first in, first out. -/
  pending : List Instr := []
  /-- Ticks of the conditioned clock since the last cold reset was released. -/
  clock : Nat := 0
  /-- The model's own: how many open values have been drawn (see `Config.freeValue`). -/
  freeCtr : Nat := 0
  /-- Every register of R389 to R394, by byte address. -/
  regs : SMap Word := []
  /-- Every stored wide value of R395, by its address. -/
  wide : SMap Nat := []
  /-- The on-chip SRAM of R26, by byte offset. An unlisted byte is 0: boot step 1 clears it (R366). -/
  mem : List Host.Cell := []
  chips : SMap Chip := []
  halves : SMap Half := []
  cores : SMap CoreSt := []
  ports : SMap PortSt := []
  /-- Band-prediction entries (R265), by 768 times the half index plus 256 times the LC core plus the band. -/
  preds : SMap Nat := []
  chans : SMap Chan := []
  cdlys : SMap Cdly := []
  /-- The NVM die (R265), by byte offset. An unlisted byte is 0xFF: erased. -/
  nvm : List Host.Cell := []
  nvmOp : Option NvmOp := none
  /-- The calibration generation that IDENTITY reports (R371). -/
  calGen : Nat := 0xFFFFFFFF
  /-- Whether `ALL_CONV` has been set, and whether the automatic store has been tried, since the cold reset (R267). -/
  convSeen : Bool := false
  autoDone : Bool := false
  /-- The clock until which the VDDH monitor fails the margin check (R269). -/
  vddhLow : Nat := 0
  /-- Records written to each ring since it was last enabled (R169). -/
  ringSeq : SMap Nat := []
  tb : TimeBase := {}
  queues : SMap Queue := []
  engines : SMap Eng := []
  xip : Xip := {}
  /-- Hop contexts marked invalid (R28). -/
  ctxBad : List Nat := []
  /-- On-chip 64-bit words, by offset / 8, that hold an uncorrectable error (R28). No command makes one. -/
  badWords : List Nat := []
  /-- The corrections of on-chip memory, and its rows in error (R28, R29). -/
  ecc : Ecc := {}
  /-- Released actions that wait to be sent (R13). -/
  rel : List Action := []
  /-- Verdicts on their way from a chiplet to the control die (R203): queue, sequence, index and status. -/
  verdicts : List (Nat × Nat × Nat × Nat) := []
  /-- Raises on their way to the event tree (R357). -/
  raising : List Nat := []
  /-- The raise counts of R235. -/
  raises : SMap Nat := []
  orgs : SMap OriginSt := []
  /-- The staging FIFO of the change log (R327), the records lost since the last store, and the sequence of the next record. -/
  tansyQ : List LogRec := []
  tansyGap : Nat := 0
  tansySeq : Nat := 1
  /-- How many slots of the change log's ring hold an unreleased record (R326). -/
  tansyUnrel : Nat := 0
  /-- The registers whose parity mismatches, with the word that a read of each finds (R317). The function that owns it keeps the
  good value, in `regs` (R318). -/
  parBad : SMap Word := []
  /-- How often each 64 KiB sector of the NVM die has been erased (R416). -/
  eraseCnt : SMap Nat := []
  /-- Whether the NVM die has stopped answering (fault 0x05 of R377). -/
  nvmLost : Bool := false
  /-- Next due clock of the periodic services (keys `tmKeepalive` and on). -/
  timers : SMap Nat := []
  /-- The ticks that all engines had spent in service, and those of them outside IDLE, at the latest load update (R209). -/
  loadMark : Nat × Nat := (0, 0)
  ssp : Ssp := {}
  sm : Sm := {}
  links : SMap Lnk := []
  ry : Ry := {}
  /-- The TS80 of the latest raise of each source (R297), and the clock of its latest routing, plus 1 (R362). -/
  raiseTs : SMap Nat := []
  routedAt : SMap Nat := []
  msix : SMap Vec := []
  /-- Configuration space (R352 to R356, R360). -/
  cfg : CfgSpace := {}
  /-- Bus Master Enable, the function's mask, and the clock of the latest message (R359). -/
  bme : Bool := false
  fnMask : Bool := true
  msgLast : Option Nat := none
  /-- PORST_N is low; a brown-out holds the part; a warm reset is signalled. -/
  porst : Bool := false
  brown : Bool := false
  warm : Bool := false
  boot : Boot := .sram
  bootCmd : Option BootCmd := none
  /-- The clock from which the host watchdog counts (R380); none while it is stopped. -/
  wdogFrom : Option Nat := none
  /-- The watchdog has expired and no kick has followed; the latest speed update found the limit passed (R25); the halves declared
  failed that the fault handler has not reported (R379). -/
  wdogOut : Bool := false
  asyncOver : Bool := false
  halfFaults : Nat := 0
  /-- The engines and chiplets that have failed while the control die did not work, each with its fault code (R379 step 4). -/
  lossFaults : List (Nat × Nat) := []
  /-- Chiplet re-initialisations in progress, by chiplet, with the clock of their start plus 1 (R382). -/
  chipReinit : SMap Nat := []
  /-- Function re-initialisations in progress: kind, index and clock of the start (R381). -/
  reinits : List (Nat × Nat × Nat) := []
  /-- The TS80 at which each chiplet declared the control die lost (R379). -/
  cdStamps : SMap Nat := []
  outs : List Out := []
  deriving DecidableEq, Repr

/-- The T1024 right after reset: a cold reset has set every field to its reset value, no command waits, and the first record of
the change log is the RESET record of R328. -/
def State.reset : State :=
  { tansyQ := [⟨0, 0x181, 0x12, 0x28, 0, 0, 2⟩] }

end Sys2Proof.Machine
end

