-- ==== Sys2Proof/Machine/Ops.lean ====
section
/-! DEFINITION. The named operations over the state that every meaning uses: registers and their fields, wide values, memory
bytes, the numbered collections, the time base's counts, raises (R357), the change log (R324, R325), open values, and exact
frequencies. -/

namespace Sys2Proof.Machine

/-! ## Registers -/

/-- The word of the register at byte address `a`. -/
def State.reg (s : State) (a : Nat) : Word := SMap.get resetAt s.regs a

/-- Store a word at register address `a`. -/
def State.setReg (s : State) (a : Nat) (v : Word) : State := { s with regs := SMap.set resetAt s.regs a v }

/-- Extract field bits [lo + w - 1 : lo] of a word. -/
def fieldOf (v : Word) (lo w : Nat) : Nat := v.toNat / 2 ^ lo % 2 ^ w

/-- Put the low `w` bits of `x` into bits [lo + w - 1 : lo] of a word. -/
def withField (v : Word) (lo w x : Nat) : Word :=
  BitVec.ofNat 32 (v.toNat / 2 ^ (lo + w) * 2 ^ (lo + w) + x % 2 ^ w * 2 ^ lo + v.toNat % 2 ^ lo)

/-- Read field `f` of register (i, j) of its family. -/
def State.get (s : State) (f : Fld) (i j : Nat := 0) : Nat := fieldOf (s.reg (f.reg.at i j)) f.lo f.w

/-- Write field `f` of register (i, j) of its family, as hardware does. -/
def State.put (s : State) (f : Fld) (v : Nat) (i j : Nat := 0) : State :=
  s.setReg (f.reg.at i j) (withField (s.reg (f.reg.at i j)) f.lo f.w v)

/-- Whether a one-bit field is set. -/
def State.isSet (s : State) (f : Fld) (i j : Nat := 0) : Bool := s.get f i j == 1

/-- Add to a counter field, which wraps. -/
def State.bump (s : State) (f : Fld) (i j : Nat := 0) (n : Nat := 1) : State := s.put f (s.get f i j + n) i j

/-- A field read as a two's-complement number. -/
def State.getSigned (s : State) (f : Fld) (i j : Nat := 0) : Int :=
  let v := s.get f i j
  if v < 2 ^ (f.w - 1) then (v : Int) else (v : Int) - 2 ^ f.w

/-- The `w`-bit two's-complement code of an integer. -/
def twos (w : Nat) (x : Int) : Nat := (x % (2 ^ w : Nat)).toNat

/-- Clamp an integer to [lo, hi]. -/
def clampInt (lo hi x : Int) : Int := if x < lo then lo else if hi < x then hi else x

/-- The wide value stored at its address (R395). One that nothing has written reads 0, `ACT_FRAC` and `ACT_RATIO` too, to which
the spec gives no reset value (DESIGN CHOICE, log entry 84). -/
def State.wideAt (s : State) (a : Nat) : Nat := SMap.get (fun _ => 0) s.wide a

/-- Store a wide value. -/
def State.setWide (s : State) (a v : Nat) : State := { s with wide := SMap.set (fun _ => 0) s.wide a v }

/-! Addresses of the stored wide values (R395). -/
abbrev aSL_ENTRY : Nat := 0x000000C4
abbrev aCD_LOSS_TS : Nat := 0x000000C8
abbrev aQM_ACCEPTED : Nat := 0x00000840
abbrev aQM_LATE : Nat := 0x00000844
abbrev aEPOCH_LAST : Nat := 0x00080104
abbrev aHOLD_START : Nat := 0x00080108
abbrev aREF_BUILDOUT : Nat := 0x0008010C
def aLAST_SWITCH (c : Nat) : Nat := 0x001000C0 + 0x4000 * c
def aLAST_PLACE (c : Nat) : Nat := 0x001000C4 + 0x4000 * c
def aACT_FRAC (c h : Nat) : Nat := 0x00100180 + 0x4000 * c + 0x100 * h
def aACT_RATIO (c h : Nat) : Nat := 0x00100184 + 0x4000 * c + 0x100 * h
def aLOCK_TS (c h : Nat) : Nat := 0x00100188 + 0x4000 * c + 0x100 * h
def aUNLOCK_TS (c h : Nat) : Nat := 0x0010018C + 0x4000 * c + 0x100 * h
def aLL_TS (p : Nat) : Nat := 0x010000C0 + 0x4000 * p
def aLAST_EDGE (k : Nat) : Nat := 0x00800160 + 0x4000 * (k / 8) + 0x80 * (k % 8)
def aENG_BUSY (e : Nat) : Nat := 0x004000C4 + 0x4000 * e
abbrev aSSP_STRSEQ : Nat := 0x003000C0
def aRY_PEER_ID (n : Nat) : Nat := 0x003200C0 + 0x4000 * n
def aRY_OFS (n : Nat) : Nat := 0x003200C4 + 0x4000 * n
def aRY_RTT (n : Nat) : Nat := 0x003200C8 + 0x4000 * n
def aWT_ID (w : Nat) : Nat := 0x00371000 + 8 * w
def aWT_EVT (w : Nat) : Nat := 0x00371004 + 8 * w

/-! ## Collections -/

def State.chip (s : State) (n : Nat) : Chip := SMap.get (fun _ => {}) s.chips n
def State.setChip (s : State) (n : Nat) (c : Chip) : State := { s with chips := SMap.set (fun _ => {}) s.chips n c }
def State.half (s : State) (c h : Nat) : Half := SMap.get (fun _ => {}) s.halves (2 * c + h)
def State.setHalf (s : State) (c h : Nat) (x : Half) : State :=
  { s with halves := SMap.set (fun _ => {}) s.halves (2 * c + h) x }
def State.core (s : State) (c : Nat) : CoreSt := SMap.get (fun _ => {}) s.cores c
def State.setCore (s : State) (c : Nat) (x : CoreSt) : State := { s with cores := SMap.set (fun _ => {}) s.cores c x }
def State.port (s : State) (p : Nat) : PortSt := SMap.get (fun _ => {}) s.ports p
def State.setPort (s : State) (p : Nat) (x : PortSt) : State := { s with ports := SMap.set (fun _ => {}) s.ports p x }

/-- A queue after a cold reset: `QD_SEQ` of queue 32767 reads 1, of every other queue 0 (R183, R188); queue 32767 holds 64 blocks
(R184). -/
def queueInit (q : Nat) : Queue :=
  if q = 32767 then { nextSeq := 1, blocks := (List.range 64).map (16320 + ·) } else {}
def State.queue (s : State) (q : Nat) : Queue := SMap.get queueInit s.queues q
def State.setQueue (s : State) (q : Nat) (x : Queue) : State := { s with queues := SMap.set queueInit s.queues q x }
def State.eng (s : State) (e : Nat) : Eng := SMap.get (fun _ => {}) s.engines e
def State.setEng (s : State) (e : Nat) (x : Eng) : State := { s with engines := SMap.set (fun _ => {}) s.engines e x }
def State.cdly (s : State) (l : Nat) : Cdly := SMap.get (fun _ => {}) s.cdlys l
def State.setCdly (s : State) (l : Nat) (x : Cdly) : State := { s with cdlys := SMap.set (fun _ => {}) s.cdlys l x }
def State.org (s : State) (o : Nat) : OriginSt := SMap.get (fun _ => {}) s.orgs o
def State.setOrg (s : State) (o : Nat) (x : OriginSt) : State := { s with orgs := SMap.set (fun _ => {}) s.orgs o x }

def State.lnk (s : State) (l : Nat) : Lnk := SMap.get (fun _ => {}) s.links l
def State.setLnk (s : State) (l : Nat) (x : Lnk) : State := { s with links := SMap.set (fun _ => {}) s.links l x }
def State.vec (s : State) (v : Nat) : Vec := SMap.get (fun _ => {}) s.msix v
def State.setVec (s : State) (v : Nat) (x : Vec) : State := { s with msix := SMap.set (fun _ => {}) s.msix v x }
def State.wt (s : State) (w : Nat) : WtSt := SMap.get (fun _ => {}) s.ry.wts w
def State.setWt (s : State) (w : Nat) (x : WtSt) : State :=
  { s with ry := { s.ry with wts := SMap.set (fun _ => {}) s.ry.wts w x } }
def State.fwdSt (s : State) (f : Nat) : FwdSt := SMap.get (fun _ => {}) s.ry.fwd f
def State.setFwdSt (s : State) (f : Nat) (x : FwdSt) : State :=
  { s with ry := { s.ry with fwd := SMap.set (fun _ => {}) s.ry.fwd f x } }
def State.mirror (s : State) (i : Nat) : Option Mirror := SMap.get (fun _ => none) s.ry.mirrors i

/-- Put something that the part drives out at the end of the trace. -/
def State.emit (s : State) (o : Out) : State := { s with outs := s.outs ++ [o] }

/-- Apply a state change for each number below `n`, in rising order. -/
def forBelow (n : Nat) (f : Nat → State → State) (s : State) : State := (List.range n).foldl (fun t i => f i t) s

/-- Apply a state change for each element of a list, in order. -/
def forList {α : Type} (l : List α) (f : α → State → State) (s : State) : State := l.foldl (fun t x => f x t) s

/-- Apply a state change under a condition. -/
def State.when (s : State) (b : Bool) (f : State → State) : State := if b then f s else s

/-! ## Time -/

/-- The number of replica counts, 2^64. -/
abbrev tickMod : Nat := 2 ^ 64

/-- The tick count of chiplet `n`'s replica (R56): 0 until it starts. -/
def State.count (s : State) (n : Nat) : Nat :=
  if (s.chip n).running then (s.clock + (s.chip n).tickOff) % tickMod else 0

/-- The time master's tick count (R54). -/
def State.mcount (s : State) : Nat := s.count (s.get TB_STAT.MASTER)

/-- The chiplet of channel `k` (R152). -/
def chanChip (k : Nat) : Nat := if k < 1024 then k / 128 else (k - 1024) / 32

/-- The chiplet that holds the register at `a` (R387). -/
def heldOn (a : Nat) : Option Nat :=
  if 0x100000 ≤ a && a < 0x200000 then some ((a - 0x100000) / 0x20000)
  else if 0x208000 ≤ a && a < 0x228000 then some ((a - 0x208000) / 0x4000)
  else if 0x800000 ≤ a && a < 0xA80000 then
    if 0x800800 ≤ a && a < 0x801000 then none else some (chanChip (8 * ((a - 0x800000) / 0x4000)))
  else if 0x1000000 ≤ a && a < 0x2000000 then some ((a - 0x1000000) / 0x200000)
  else none

/-- Whether chiplet `n` is declared lost (`CHIP_STAT.LOST`). -/
def State.chipLost (s : State) (n : Nat) : Bool := s.get CHIP_STAT.LOST / 2 ^ n % 2 == 1

/-- Whether a cold reset is held: by PORST_N or by a brown-out (R364, R365). -/
def State.coldHeld (s : State) : Bool := s.porst || s.brown

/-- Whether the control die is gone: a cold reset is held, or a chiplet has declared the control die lost and every chiplet that
lives has (R35). -/
def State.cdGone (s : State) : Bool :=
  s.coldHeld || ((List.range 8).all (fun n => s.chipLost n || (s.chip n).cdLost) &&
    (List.range 8).any (fun n => (s.chip n).cdLost && !s.chipLost n))

/-- Whether the control die does not work: it is gone, or a warm reset is signalled. -/
def State.cdDown (s : State) : Bool := s.cdGone || s.warm

/-- A TS80 with fraction 0 at a tick count (R7). -/
def ts80 (tick : Nat) (frac : Nat := 0) : Nat := tick * 65536 + frac

/-- Ticks in one microsecond, one millisecond and one second (R7). -/
abbrev usTk : Nat := 3200
abbrev msTk : Nat := 3200000
abbrev sTk : Nat := 3200000000

/-! Keys of the periodic services' timers. -/
abbrev tmKeepalive : Nat := 1
abbrev tmAsync : Nat := 2
abbrev tmTemp : Nat := 3
abbrev tmLoad : Nat := 4
abbrev tmVddh : Nat := 5

/-- The next due clock of a periodic service. -/
def State.timer (s : State) (k : Nat) : Nat := SMap.get (fun _ => 0) s.timers k
def State.setTimer (s : State) (k v : Nat) : State := { s with timers := SMap.set (fun _ => 0) s.timers k v }

/-! ## Open values, raises and the change log -/

/-- Draw an open value below 2^w: no statement can rest on it, for `Config.freeValue` has no body. -/
def State.free (s : State) (w : Nat) : Nat × State :=
  (Config.freeValue s.freeCtr % 2 ^ w, { s with freeCtr := s.freeCtr + 1 })

/-- An agent raises event source `src`; EVENT_RAISE delivers it to the event tree (R357). -/
def State.raise (s : State) (src : Nat) : State := { s with raising := s.raising ++ [src] }

/-- The record kinds of R325. -/
abbrev kWRITE : Nat := 0x01
abbrev kALIAS : Nat := 0x02
abbrev kPAIRED : Nat := 0x03
abbrev kLOCKSET : Nat := 0x04
abbrev kLOCKWR : Nat := 0x05
abbrev kPAIRERR : Nat := 0x06
abbrev kHWOWR : Nat := 0x07
abbrev kPERMDENY : Nat := 0x08
abbrev kRSVDWR : Nat := 0x09
abbrev kCFGPAR : Nat := 0x0A
abbrev kEVENT : Nat := 0x0B
abbrev kPROGLOAD : Nat := 0x0C
abbrev kCALCOMMIT : Nat := 0x0D
abbrev kNVMOP : Nat := 0x0E
abbrev kHWCHANGE : Nat := 0x0F
abbrev kGAP : Nat := 0x10
abbrev kLOST : Nat := 0x11
abbrev kRESET : Nat := 0x12
abbrev kPERM : Nat := 0x13

/-- The hardware origins of R320. -/
abbrev oSorrel : Nat := 0x180
abbrev oFault : Nat := 0x181
abbrev oNvm : Nat := 0x182
abbrev oPcie : Nat := 0x100
abbrev oSsp : Nat := 0x101

/-- Hand a record to the change log's staging FIFO of 256; a record that meets it full is lost (R327). -/
def State.stage (s : State) (r : LogRec) : State :=
  if s.tansyQ.length < 256 then { s with tansyQ := s.tansyQ ++ [r] }
  else { (s.bump TANSY_CNT.LOST).put TANSY_STAT.LOST_SEEN 1 with tansyGap := s.tansyGap + 1 }

/-- A record at the time master's tick. While the control die is gone the change log stops (R329). -/
def State.log (s : State) (origin kind addr : Nat) (old new : Word) (aux : Nat := 0) : State :=
  if s.cdGone then s else s.stage ⟨s.mcount, origin, kind, addr, old, new, aux⟩

/-- Record an event that register `addr` reports: `OLD` and `NEW` are that register before and after. An event of a register that a chiplet
holds has been decided there, at its own tick (R325). -/
def State.logEvent (s : State) (before : State) (addr aux : Nat) (origin : Nat := oFault) : State :=
  let tick := match heldOn addr with
    | some n => s.count n
    | none => s.mcount
  if s.cdGone then s else s.stage ⟨tick, origin, kEVENT, addr, before.reg addr, s.reg addr, aux⟩

/-- A write that meets a locked field (R316). -/
def lockViolation (o a : Nat) (old v : Word) (s : State) : State :=
  (((s.put VETCH_STAT.LOCKWR_SEEN 1).bump VETCH_CNT2.LOCKWRS).raise 367).log o kLOCKWR a old v

/-! ## Frozen functions (R317 to R319) -/

/-- The function that owns the register at address `a`, named by the lowest address it owns (R318): a lock group, a queue's
descriptor, or a page. -/
def fnOf (a : Nat) : Nat :=
  if 0x400 ≤ a ∧ a < 0x600 then a / 32 * 32
  else if 0x02000000 ≤ a ∧ a < 0x02200000 then a / 64 * 64
  else a / 0x4000 * 0x4000

/-- Whether the function that owns address `a` is frozen. -/
def State.frozen (s : State) (a : Nat) : Bool := s.parBad.any fun e => fnOf e.1 == fnOf a

/-- How many functions are frozen. -/
def State.frozenCount (s : State) : Nat := (s.parBad.map fun e => fnOf e.1).dedup.length

/-- A change to a frozen function is discarded, counted and recorded (R318). -/
def discardFrozen (s : State) : State :=
  let s0 := s
  (s.bump CFGPAR_CNT.DISCARDS).logEvent s0 RegId.CFGPAR_CNT.at 0

/-! ## Memory -/

/-- The bank of an on-chip memory offset (R26). The entry pool is spread over banks 1 to 8: entry e lies in bank 1 + (e mod 8) (R27). -/
def bankOf (off : Nat) : Nat :=
  if 0x200000 ≤ off ∧ off < 0x1200000 then 1 + (off - 0x200000) / 16 % 8 else off / 0x200000

/-- Whether bank `b` has been declared lost (R29). -/
def State.bankLost (s : State) (b : Nat) : Bool := (s.get MEM_BANK_STAT.LOST) / 2 ^ b % 2 == 1

/-- One byte of on-chip memory. -/
def State.byte (s : State) (off : Nat) : Byte := SMap.get (fun _ => (0 : Byte)) s.mem off

/-- Store one byte of on-chip memory. -/
def State.setByte (s : State) (off : Nat) (v : Byte) : State :=
  { s with mem := SMap.set (fun _ => (0 : Byte)) s.mem off v }

/-- Store bytes at consecutive offsets. -/
def State.setBytes (s : State) (off : Nat) : List Byte → State
  | [] => s
  | b :: bs => State.setBytes (s.setByte off b) (off + 1) bs

/-- Store bytes as one memory transaction: a word in error that is written whole is good again (R28). -/
def State.store (s : State) (off : Nat) (bs : List Byte) : State :=
  let t := s.setBytes off bs
  let part := fun (w : Nat) => decide (8 * w < off) || decide (off + bs.length < 8 * w + 8)
  { t with badWords := t.badWords.filter part, ecc := { t.ecc with weak := t.ecc.weak.filter part } }

/-- The 64-bit words of a list that a range of on-chip memory touches. -/
def touching (l : List Nat) (off n : Nat) : List Nat := l.filter fun w => decide (8 * w < off + n) && decide (off < 8 * w + 8)

/-- Whether a range of on-chip memory holds an uncorrectable word (R28). -/
def State.anyBad (s : State) (off n : Nat) : Bool :=
  s.badWords.any fun w => decide (8 * w < off + n) && decide (off < 8 * w + 8)

/-- Read `n` consecutive bytes. -/
def State.bytesAt (s : State) (off n : Nat) : List Byte := (List.range n).map fun i => s.byte (off + i)

/-- The little-endian number of a list of bytes. -/
def leNat : List Byte → Nat
  | [] => 0
  | b :: bs => b.toNat + 256 * leNat bs

/-- The `n` little-endian bytes of a number. -/
def leBytes (n v : Nat) : List Byte := (List.range n).map fun i => BitVec.ofNat 8 (v / 256 ^ i)

/-- `n` bits of a reflected CRC register, with the reflected polynomial of 0x1EDC6F41 (R266). -/
def crcBits : Nat → Nat → Nat
  | 0, c => c
  | n + 1, c => crcBits n (if c % 2 = 1 then Nat.xor (c / 2) 0x82F63B78 else c / 2)

/-- CRC-32C of a list of bytes (R266). -/
def crc32c (bs : List Byte) : Nat :=
  Nat.xor (bs.foldl (fun c b => crcBits 8 (Nat.xor c b.toNat)) 0xFFFFFFFF) 0xFFFFFFFF

/-- A little-endian 32-bit word of on-chip memory. -/
def State.word (s : State) (off : Nat) : Word := BitVec.ofNat 32 (leNat (s.bytesAt off 4))

/-- Store a little-endian 32-bit word of on-chip memory. -/
def State.setWord (s : State) (off : Nat) (v : Word) : State := s.setBytes off (leBytes 4 v.toNat)

/-! ## Frequencies -/

/-- An exact frequency n / d in Hz. -/
structure Freq where
  n : Nat
  d : Nat
  deriving DecidableEq, Repr

/-- a ≤ b, exactly. -/
def Freq.le (a b : Freq) : Bool := a.n * b.d ≤ b.n * a.d

/-- a < b, exactly. -/
def Freq.lt (a b : Freq) : Bool := a.n * b.d < b.n * a.d

def Freq.ofHz (hz : Nat) : Freq := ⟨hz, 1⟩

/-- The comparison divider's M (R72). -/
def mOf (cmpDiv : Nat) : Nat := 2 ^ (cmpDiv % 4)

/-- fVCO = fCMP x N of a word (R72, R73). An effectively integer word has N = INT. -/
def DivWord.fvco (w : DivWord) : Freq :=
  if w.mode = 1 then ⟨3200000000 * (w.int * 2 ^ 48 + w.frac), mOf w.cmpDiv * 2 ^ 48⟩
  else if w.mode = 2 then ⟨3200000000 * (w.int * w.den + w.num), mOf w.cmpDiv * w.den⟩
  else ⟨3200000000 * w.int, mOf w.cmpDiv⟩

/-- f / D for a port divider value v = 2 x D (R122). -/
def Freq.divBy (f : Freq) (v : Nat) : Freq := ⟨2 * f.n, v * f.d⟩

/-- The difference |a - b|. -/
def Freq.diff (a b : Freq) : Freq :=
  ⟨if b.n * a.d ≤ a.n * b.d then a.n * b.d - b.n * a.d else b.n * a.d - a.n * b.d, a.d * b.d⟩

/-- a + b. -/
def Freq.add (a b : Freq) : Freq := ⟨a.n * b.d + b.n * a.d, a.d * b.d⟩

/-- f x p / q. -/
def Freq.scale (f : Freq) (p q : Nat) : Freq := ⟨f.n * p, f.d * q⟩

end Sys2Proof.Machine
end

