-- ==== Sys2Proof/Machine/Time.lean ====
section
/-! DEFINITION. The time base (R39 to R70): references, qualification and switchover, holdover, the alignment strobe and the
replicas, the epoch, and slews. -/

namespace Sys2Proof.Machine

/-! ## References -/

/-- The fields of reference `r` (0 REFA, 1 REFB). -/
def refPresent (r : Nat) : Fld := if r = 0 then REF_STAT.A_PRESENT else REF_STAT.B_PRESENT
def refQual (r : Nat) : Fld := if r = 0 then REF_STAT.A_QUAL else REF_STAT.B_QUAL
def refLost (r : Nat) : Fld := if r = 0 then REF_STAT.A_LOST else REF_STAT.B_LOST
def refEn (r : Nat) : Fld := if r = 0 then REF_CFG.A_EN else REF_CFG.B_EN
def refHz (r : Nat) : Fld := if r = 0 then REFA_FREQ.HZ else REFB_FREQ.HZ

def State.refIn (s : State) (r : Nat) : RefIn := if r = 0 then s.tb.ref0 else s.tb.ref1
def State.setRefIn (s : State) (r : Nat) (x : RefIn) : State :=
  { s with tb := if r = 0 then { s.tb with ref0 := x } else { s.tb with ref1 := x } }

/-- Whether the conditioner is locked to reference `r` (`REF_STAT.STATE`). -/
def State.activeRef (s : State) (r : Nat) : Bool := s.get REF_STAT.STATE == r

/-- R39: a declared frequency is accepted when it lies in range and 3.2 GHz / f reduces to a denominator of at most 1,024. -/
def freqAccepted (f : Nat) : Bool :=
  decide (10000000 ≤ f) && decide (f ≤ 3200000000) && decide (f / Nat.gcd 3200000000 f ≤ 1024)

/-- R46: the time master decides a switchover to `r`. -/
def startSwitchover (r : Nat) (s : State) : State :=
  { (s.put REF_STAT.SWITCHING 1) with tb := { s.tb with sw := some ⟨r, .decided, s.clock⟩ } }

/-- R49: no qualified reference remains, and every chiplet holds its control word. Where a switchover that began in holdover ends
here, this is a new entry, and a `MAN_SEL` write that it held stays held (DESIGN CHOICE, log entry 79). -/
def enterHoldover (s : State) : State :=
  let s := ((s.put REF_STAT.STATE 2).put REF_STAT.SWITCHING 0).bump REF_SWCNT.HOLDS
  let s := (s.setWide aHOLD_START (ts80 s.mcount)).raise 258
  { s with tb := { s.tb with sw := none, holdSince := s.clock, swEnded := s.clock } }

/-- What the loss of reference `r` does to the conditioner (R45, R48, R49, R53). -/
def afterRefLoss (r : Nat) (s : State) : State :=
  let other := 1 - r
  let s : State :=
    if s.tb.acquiring = some r then
      { s with tb := { s.tb with acquiring := if s.isSet (refQual other) then some other else none } }
    else s
  match s.tb.sw with
  | some sw =>
    if sw.target = r then
      (enterHoldover s).when (s.isSet (refQual other)) (startSwitchover other)
    else s
  | none =>
    if s.activeRef r then
      if s.isSet (refQual other) then startSwitchover other s else enterHoldover s
    else s

/-- R44: a reference is absent or disqualified. -/
def loseRef (r : Nat) (s : State) : State :=
  let was := s.activeRef r || s.isSet (refQual r)
  let s := (s.put (refQual r) 0).put (refLost r) 1
  let s := s.setRefIn r { s.refIn r with requal := true, goodFrom := s.clock }
  afterRefLoss r (s.when was (·.raise 256))

/-- REF_ABSENT (R43): the missing-edge detector declares an enabled reference absent. -/
def refAbsentS (r : Nat) (s : State) : State :=
  if s.isSet (refEn r) && s.isSet (refPresent r) then loseRef r (s.put (refPresent r) 0) else s

/-- REF_EDGES_RETURN (R44): edges reappear on an enabled reference with an accepted frequency (R39). Its qualification time
starts, and the first monitor window judged is the first whole one after the return (R43). -/
def refEdgesReturnS (r : Nat) (s : State) : State :=
  if s.isSet (refEn r) && (s.refIn r).freqOk && !s.isSet (refPresent r) then
    let s := s.put (refPresent r) 1
    s.setRefIn r { s.refIn r with goodFrom := s.clock, judgeFrom := s.clock / msTk + 1 }
  else s

/-- The qualification time of R44 in ticks. -/
def qualTime (r : Nat) (s : State) : Nat :=
  if (s.refIn r).requal then s.get REF_QUAL.REQUAL_MS * msTk else 10 * msTk

/-- REF_QUALIFIED (R44): edges present and frequency good for the qualification time. In free run the conditioners begin to
acquire it (R53); in holdover it is taken by a switchover (R52). -/
def refQualifiedS (r : Nat) (s : State) : State :=
  if s.isSet (refEn r) && (s.refIn r).freqOk && s.isSet (refPresent r) && !s.isSet (refQual r) &&
      decide ((s.refIn r).goodFrom + qualTime r s ≤ s.clock) then
    let s := s.put (refQual r) 1
    let s := s.setRefIn r { s.refIn r with qualFrom := s.clock }
    if s.get REF_STAT.STATE = 3 then
      if s.tb.acquiring = none then { s with tb := { s.tb with acquiring := some r } } else s
    else if s.get REF_STAT.STATE = 2 && s.tb.sw.isNone then startSwitchover r s
    else s
  else s

/-- R43: whether a window count of 1 ms departs from the declared frequency by more than the tolerance. -/
def freqDeparts (hz tolPpm count : Nat) : Bool :=
  let d := if count * 1000 ≤ hz then hz - count * 1000 else count * 1000 - hz
  decide (tolPpm * hz < d * 1000000)

/-- R43: judge one reference at the end of a monitor window. -/
def judgeRef (r count window : Nat) (s : State) : State :=
  if s.isSet (refEn r) && s.isSet (refPresent r) && decide ((s.refIn r).judgeFrom ≤ window) &&
      freqDeparts (s.get (refHz r)) (s.get REF_CFG.TOL_PPM) count then loseRef r s
  else s

/-- FREQ_MONITOR_WINDOW (R43): the 1 ms windows run back to back from reset release. -/
def freqMonitorWindowS (countA countB : Nat) (s : State) : State :=
  if (s.tb.freqWindows + 1) * msTk ≤ s.clock then
    let w := s.tb.freqWindows
    let s := judgeRef 1 countB w (judgeRef 0 countA w s)
    { s with tb := { s.tb with freqWindows := w + 1 } }
  else s

/-- REVERT_TIMER (R45): in revertive mode the preferred reference has been qualified for `REVERT_S` seconds. -/
def revertTimerS (s : State) : State :=
  let r := s.get REF_CFG.PREF
  if s.get REF_CFG.MODE = 2 && s.isSet (refQual r) && s.activeRef (1 - r) && s.tb.sw.isNone &&
      decide ((s.refIn r).qualFrom + s.get REF_CFG.REVERT_S * sTk ≤ s.clock) then startSwitchover r s
  else s

/-- SWITCHOVER_FREEZE (R46 step 1): 64 tk after the decision. -/
def switchoverFreezeS (s : State) : State :=
  match s.tb.sw with
  | some ⟨r, .decided, t⟩ =>
    if t + 64 ≤ s.clock then { s with tb := { s.tb with sw := some ⟨r, .frozen, s.clock⟩ } } else s
  | _ => s

/-- SWITCHOVER_CLOSE (R46 steps 2 and 3, R47): after 3,200 tk of measurement the build-out offset is loaded and added to
`REF_BUILDOUT`. -/
def switchoverCloseS (phase : Int) (s : State) : State :=
  match s.tb.sw with
  | some ⟨r, .frozen, t⟩ =>
    if t + 3200 ≤ s.clock then
      let s := s.setWide aREF_BUILDOUT (twos 64 ((s.wideAt aREF_BUILDOUT : Int) + phase))
      { s with tb := { s.tb with sw := some ⟨r, .closed, s.clock⟩ } }
    else s
  | _ => s

/-- R45, R48: act on a `MAN_SEL` write that names reference `r`. It is refused when `r` is unqualified or disabled. Otherwise the
field takes it and, in manual mode, the conditioners switch to it. -/
def selectRef (r : Nat) (s : State) : State :=
  if s.isSet (refQual r) && s.isSet (refEn r) then
    let s := s.put REF_CFG.MAN_SEL r
    if s.get REF_CFG.MODE = 0 && !s.activeRef r then startSwitchover r s else s
  else s.put REF_STAT.SEL_REFUSED 1

/-- Whether a `MAN_SEL` write is held: during a switchover (R48), and while a reference is being acquired (R53; DEDUCED, log
entry 80). -/
def State.selHeld (s : State) : Bool := s.tb.sw.isSome || s.get REF_STAT.STATE == 3 && s.tb.acquiring.isSome

/-- A held `MAN_SEL` write is acted on. -/
def heldSelect (s : State) : State :=
  match s.tb.heldSel with
  | some r => selectRef r { s with tb := { s.tb with heldSel := none } }
  | none => s

/-- SWITCHOVER_SETTLED (R47): in one window `STATE` names the new reference, `SWITCHING` clears and `SWITCHED` is set; a held
`MAN_SEL` write is then acted on (R48). -/
def switchoverSettledS (s : State) : State :=
  match s.tb.sw with
  | some ⟨r, .closed, _⟩ =>
    let s := ((s.put REF_STAT.STATE r).put REF_STAT.SWITCHING 0).put REF_STAT.SWITCHED 1
    let s := (s.bump REF_SWCNT.SWITCHES).raise 257
    heldSelect { s with tb := { s.tb with sw := none, swEnded := s.clock } }
  | _ => s

/-- HOLD_LIMIT (R51). -/
def holdLimitS (s : State) : State :=
  if s.get REF_STAT.STATE = 2 && decide (s.get HOLD_CFG.MAX_S ≠ 0) &&
      decide (s.tb.holdSince + s.get HOLD_CFG.MAX_S * sTk ≤ s.clock) then s.put REF_STAT.HOLD_LIMIT 1
  else s

/-- ACQUISITION_COMPLETE (R53): `STATE` leaves free run and names the acquired reference. -/
def acquisitionCompleteS (s : State) : State :=
  match s.tb.acquiring with
  | some r =>
    if s.get REF_STAT.STATE = 3 then
      heldSelect { (s.put REF_STAT.STATE r) with tb := { s.tb with acquiring := none } }
    else s
  | none => s

/-! ## Time master and replicas -/

/-- Whether chiplet `n` is out of service: declared lost, or being re-initialised (R388). -/
def State.chipOut (s : State) (n : Nat) : Bool := s.chipLost n || s.get CHIP_STAT.REINIT_BUSY / 2 ^ n % 2 == 1

/-- The lowest-numbered chiplet in service (R54); 0 when none is. -/
def State.lowestLive (s : State) : Nat := ((List.range 8).find? fun n => !s.chipOut n).getD 0

/-- Give chiplet `n`'s replica tick count `t` at this boundary. -/
def loadCount (n t : Nat) (s : State) : State :=
  s.setChip n { s.chip n with tickOff := (t + tickMod - s.clock % tickMod) % tickMod }

/-- REPLICA_START (R56): every replica loads tick 0 at the first start pulse after reset release. That count is a strobe's (R55). -/
def replicaStartS (s : State) : State :=
  if (List.range 8).any fun n => (s.chip n).running then s
  else
    let s := s.put TB_STAT.MASTER s.lowestLive
    let s := forBelow 8 (fun n s =>
      if s.chipLost n then s else loadCount n 0 (s.setChip n { s.chip n with running := true })) s
    { s with tb := { s.tb with strobes := 0 } }

/-- R57: an action that a step to count `new` passes over is applied at the tick after the step, in the order of the stamps. -/
def Admitted.pass (new : Nat) (a : Admitted) : Admitted :=
  if a.due < new then { a with due := new + 1, passedAt := some (a.passedAt.getD a.due) } else a

/-- R57: the step of a replica to the master's count. A forward step passes over every action not yet applied whose boundary lies
before the new count; `LATE_SEEN` is set. -/
def stepReplica (n : Nat) (s : State) : State :=
  let old := s.count n
  let new := s.mcount
  let passed := decide (old < new) && (s.chip n).fifo.any fun a => decide (a.due < new)
  let s := loadCount n new s
  let s := s.setChip n { s.chip n with reload := false }
  s.when passed fun s =>
    let s := s.setChip n { s.chip n with fifo := (s.chip n).fifo.map (Admitted.pass new) }
    let s := forBelow 8 (fun j s =>
      let c := 8 * n + j
      s.setCore c { s.core c with hop := (s.core c).hop.map fun r => { r with adm := r.adm.pass new } }) s
    s.put COMMIT_STAT.LATE_SEEN 1 n

/-- R55: chiplet `n` latches its own tick count, the sub-tick phase of the strobe and the strobe's path delay. -/
def latchStrobe (n : Nat) (phase : Int) (s : State) : State :=
  s.setChip n { s.chip n with latchCount := s.count n, latchPhase := phase, latchDelay := Config.strobeDelay n }

/-- R57: the upset of a replica by `err` counts, which a strobe finds. -/
def upsetReplica (n : Nat) (err : Int) (s : State) : State :=
  s.setChip n { s.chip n with tickOff := ((((s.chip n).tickOff : Int) + err) % (tickMod : Int)).toNat }

/-- R55, R56, R57: one chiplet at a strobe. `err` is how far the latched count lies off the count the model holds for the replica (an
upset of the replica), `phase` the sub-tick phase, and `master` the time master's, against which `REPL_PHASEn` reports it. A step
commanded at the last strobe is made first. What `REPL_OK` and `REPL_PHASEn` read of a chiplet that is lost or being re-initialised
stays as it was (DESIGN CHOICE, log entry 124). -/
def strobeChip (master : Int) (n : Nat) (err phase : Int) (s : State) : State :=
  if s.chipOut n || !(s.chip n).running then s
  else
    let s := if (s.chip n).reload then stepReplica n s else s
    let s := latchStrobe n phase (upsetReplica n err s)
    let s := (s.put REPL_PHASE.PHASE (twos 16 (phase - master)) n).put REPL_PHASE.VALID 1 n
    let ok := s.count n == s.mcount
    let s := s.put TB_STAT.REPL_OK
      (if ok then s.get TB_STAT.REPL_OK ||| 2 ^ n else s.get TB_STAT.REPL_OK &&& (255 - 2 ^ n))
    if ok then s
    else
      let s := ((s.put REPL_PHASE.OUT_OF_STEP 1 n).put TB_STAT.TBSTEP 1).raise 259
      s.setChip n { s.chip n with reload := true }

/-- What a strobe leaves of a chiplet while the control die is lost (R55, R58): the chiplet latches, and nothing is compared. -/
def strobeAlone (n : Nat) (err phase : Int) (s : State) : State :=
  if s.chipLost n || !(s.chip n).running then s else latchStrobe n phase (upsetReplica n err s)

/-- The number of the strobe at the time master's present count or, where that is no strobe's own tick, of the one before. -/
def State.strobeNow (s : State) : Nat := s.mcount / 65536 + 1

/-- ALIGNMENT_STROBE (R54, R55, R57, R58, R41): at a multiple of 2^16 tk of the time master. A new time master takes the role, the
replicas latch and are compared unless the control die is lost, and a new conditioner bandwidth takes effect outside a
switchover. -/
def alignmentStrobeS (latched : List (Int × Int)) (s : State) : State :=
  let k := s.strobeNow
  if (s.chip (s.get TB_STAT.MASTER)).running && decide (k ≠ s.tb.strobes) then
    let s : State := { s with tb := { s.tb with strobes := k } }
    let s := s.put TB_STAT.MASTER s.lowestLive
    let one := if s.cdDown then strobeAlone else strobeChip (latched.getD (s.get TB_STAT.MASTER) (0, 0)).2
    let s := forList (latched.zipIdx.take 8) (fun x => one x.2 x.1.1 x.1.2) s
    if s.tb.sw.isNone then { s with tb := { s.tb with bwInForce := s.get REF_CFG.BW } } else s
  else s

/-! ## Epoch -/

/-- Whether a relock or a failover is in progress anywhere (R59, R61). -/
def State.relockOrFailover (s : State) : Bool :=
  (List.range 64).any fun c => s.isSet HOP_STAT.RELOCKING c || (s.core c).failover.isSome

/-- The 64-bit `EPOCH_TICK` (R62). -/
def State.epochTick (s : State) : Nat := s.get EPOCH_TICK_HI.TICK * 2 ^ 32 + s.get EPOCH_TICK_LO.TICK

/-- The arm and disarm of R59: what a completed pair on `EPOCH_CTRL` does with value `v`. A refused arm leaves the fields; the reserved bits
are as `v` has them (R303). -/
def epochCtrlWrite (v : Nat) (s : State) : State :=
  let src := v % 4
  if v / 4 % 2 = 1 then
    if (List.range 8).any (fun n => decide (s.get COMMIT_STAT.LEVEL n ≠ 0)) || s.relockOrFailover || src == 3 then
      (s.setReg RegId.EPOCH_CTRL_A.at (withField (BitVec.ofNat 32 v) 0 8 (fieldOf (s.reg RegId.EPOCH_CTRL_A.at) 0 8))).put
        EPOCH_STAT.REFUSED 1
    else
      let s := (s.setReg (RegId.EPOCH_CTRL_A.at) (BitVec.ofNat 32 v)).put EPOCH_STAT.ARMED 1
      { s with tb := { s.tb with take := if src = 2 then some .host else none } }
  else
    let s := (s.setReg (RegId.EPOCH_CTRL_A.at) (BitVec.ofNat 32 v)).put EPOCH_STAT.ARMED 0
    { s with tb := { s.tb with take := none } }

/-- The count that the time master's replica takes at an epoch load at this boundary, and the TS80 to record for an edge. -/
def epochNewCount (s : State) : EpochTake → Nat
  | .edge c _ => (s.epochTick + (s.clock - c)) % tickMod
  | .host => s.epochTick
  | .step _ d => (((s.mcount : Int) + d) % (tickMod : Int)).toNat

/-- When a load that has its edge or message may be made: 64 tk after an edge (R62) or an EPOCH frame (R287), at once otherwise. -/
def epochDue (s : State) : EpochTake → Bool
  | .edge c _ => decide (c + 64 ≤ s.clock)
  | .step c _ => decide (c + 64 ≤ s.clock)
  | .host => true

/-- R65: what a load from the host or a manager leaves of the expected places of an EPOCH_IN load: later edges are still stamped and
counted, the period of `EPOCH_PER` comes into force, and the first place expected is the first beyond the new count (DESIGN CHOICE,
log entry 81). -/
def EpochPlaces.reload (per new : Nat) (p : EpochPlaces) : EpochPlaces :=
  { p with period := per, next := if per = 0 then 1 else (new - p.base) / per + 1, matched := [] }

/-- `TimeBase.strobes` after a load of count `new`: the strobe of a count that is a multiple of 2^16 is still to come (R55). -/
def strobeAfterLoad (new : Nat) : Nat := if new % 65536 = 0 then 0 else new / 65536 + 1

/-- EPOCHLOAD (R61, R62, R64, R100): every replica loads the count at one boundary, once no relock or failover runs. -/
def epochLoadS (s : State) : State :=
  match s.tb.take with
  | some t =>
    if s.isSet EPOCH_STAT.ARMED && epochDue s t && !s.relockOrFailover then
      let new := epochNewCount s t
      let et := s.epochTick
      let s := forBelow 8 (fun n s =>
        if s.chipLost n || !(s.chip n).running then s
        else
          let s := loadCount n new s
          s.setChip n { s.chip n with gen := ((s.chip n).gen + 1) % 65536 }) s
      let s := ((s.put EPOCH_STAT.ARMED 0).put EPOCH_CTRL_A.ARM 0).put EPOCH_STAT.LOADED 1
      let s := ((s.put TB_STAT.EPOCH_SET 1).put EPOCH_STAT.PPS_CNT 0).bump PM_GEN.GEN
      let s := (s.put TB_STAT.SLEWING 0).raise 260
      let s := match t with
        | .edge _ f => s.setWide aEPOCH_LAST (ts80 et f)
        | _ => s
      let per := usTk * s.get EPOCH_PER.PER_US
      let places := match t with
        | .edge _ f => some ⟨et, per, f, 1, []⟩
        | _ => s.tb.places.map (EpochPlaces.reload per new)
      let k := strobeAfterLoad new
      { s with tb := { s.tb with
          take := none, slew := none, places := places, strobes := k,
          slewReq := s.tb.slewReq.map fun q => { q with from_ := k } } }
    else s
  | none => s

/-- The first number from `k` on that is not in the list. -/
def skipMatched (l : List Nat) (k : Nat) : Nat → Nat
  | 0 => k
  | n + 1 => if l.contains k then skipMatched l (k + 1) n else k

/-- R65: compare an edge at TS80 position `pos` with the expected place nearest to it, of two as near the later (DESIGN CHOICE, log entry
125). The load's own place is not expected again. -/
def matchEdge (p : EpochPlaces) (tol pos : Nat) (s : State) : State :=
  let s : State := { s with tb := { s.tb with edgeSinceMiss := true } }
  if p.period = 0 then s
  else
    let origin := p.base * 65536 + p.frac
    let per := p.period * 65536
    let k := if pos < origin then 1 else max 1 ((pos - origin + per / 2) / per)
    let place := origin + k * per
    let dist := if pos ≤ place then place - pos else pos - place
    if decide (dist ≤ tol * 65536) && !p.matched.contains k && decide (p.next ≤ k) then
      let m := k :: p.matched
      let nx := skipMatched m p.next (m.length + 1)
      { s with tb := { s.tb with devOk := true, places := some { p with matched := m.filter (nx ≤ ·), next := nx } } }
    else
      let s := (s.put EPOCH_STAT.DEV 1).raise 261
      { s with tb := { s.tb with devOk := decide (dist ≤ tol * 65536) } }

/-- R65: every edge of the selected polarity after an EPOCH_IN load is stamped, counted and compared with its expected places. -/
def laterEdge (frac : Nat) (s : State) : State :=
  match s.tb.places with
  | some p =>
    let pos := ts80 s.mcount frac
    matchEdge p (s.get EPOCH_TOL.TOL_TK) pos ((s.setWide aEPOCH_LAST pos).bump EPOCH_STAT.PPS_CNT)
  | none => s

/-- EPOCH_IN_EDGE (R61, R62, R65): an edge at fraction `frac` of this tick. An edge of the other polarity is none. -/
def epochInEdgeS (fall : Bool) (frac : Nat) (s : State) : State :=
  if s.isSet EPOCH_CTRL_A.FALL != fall then s
  else
    let take := s.isSet EPOCH_STAT.ARMED && s.get EPOCH_CTRL_A.SRC == 0 && s.tb.take.isNone && !s.relockOrFailover
    let s := laterEdge frac s
    if take then { s with tb := { s.tb with take := some (.edge s.clock frac) } } else s

/-- EPOCH_MISSING (R65): `TOL_TK` has passed after an expected place that has no edge. -/
def epochMissingS (s : State) : State :=
  match s.tb.places with
  | some p =>
    if decide (p.period ≠ 0) &&
        decide ((p.base + p.next * p.period + s.get EPOCH_TOL.TOL_TK) * 65536 + p.frac < ts80 s.mcount) then
      let s := s.put EPOCH_STAT.MISSING 1
      let nx := skipMatched p.matched (p.next + 1) (p.matched.length + 1)
      { s with tb := { s.tb with
          edgeSinceMiss := false, places := some { p with next := nx, matched := p.matched.filter (nx ≤ ·) } } }
    else s
  | none => s

/-! ## Slews -/

/-- The clamp of `RATE_PPB` (R67). -/
def clampRate (r : Nat) : Nat := if r = 0 then 1 else if 100 < r then 100 else r

/-- A request for a slew (R67): it discards the remainder of a slew in progress. -/
def requestSlew (adj : Int) (rate : Nat) (s : State) : State :=
  { (s.put TB_STAT.SLEWING 0) with
    tb := { s.tb with slew := none, slewReq := some { adj := adj, rate := rate, from_ := s.tb.strobes } } }

/-- How many ticks a slew lasts (R67): |ADJ| fraction steps at RATE_PPB, rounded up (DESIGN CHOICE, log entry 123). -/
def slewTicks (adj : Int) (rate : Nat) : Nat := (adj.natAbs * 1000000000 + 65536 * rate - 1) / (65536 * rate)

/-- SLEW_START (R67): all chiplets start the requested slew at the next alignment strobe. -/
def slewStartS (s : State) : State :=
  match s.tb.slewReq with
  | some q =>
    if s.strobeNow ≠ q.from_ then
      let s := (s.put TB_SLEW.GO 0).put TB_STAT.SLEWING 1
      { s with tb := { s.tb with
          slewReq := none, slew := some { q with endsAt := s.clock + slewTicks q.adj q.rate } } }
    else s
  | none => s

/-- SLEW_END (R67): all chiplets end the slew at the same computed tick. -/
def slewEndS (s : State) : State :=
  match s.tb.slew with
  | some q =>
    if q.endsAt ≤ s.clock then { (s.put TB_STAT.SLEWING 0) with tb := { s.tb with slew := none } } else s
  | none => s

/-! ## Register writes of the time base -/

/-- A write to REFA_FREQ or REFB_FREQ (R39, R40): the value to store and the state after the checks. -/
def hookRefFreq (r : Nat) (old new : Word) (s : State) : Word × State :=
  if s.activeRef r then (old, s.put REF_STAT.FREQ_ERR 1)
  else if freqAccepted new.toNat then (new, s.setRefIn r { s.refIn r with freqOk := true })
  else
    let s := s.put REF_STAT.FREQ_ERR 1
    let s := s.setRefIn r { s.refIn r with freqOk := false }
    (old, if s.isSet (refPresent r) then loseRef r (s.put (refPresent r) 0) else s)

/-- The value that a write to REF_CFG stores: a MODE of 0b11 keeps the field, zero tolerances and times are stored as 1. -/
def refCfgStore (old new : Word) : Word :=
  let v := if fieldOf new 0 2 = 3 then withField new 0 2 (fieldOf old 0 2) else new
  let v := if fieldOf v 8 8 = 0 then withField v 8 8 1 else v
  if fieldOf v 16 8 = 0 then withField v 16 8 1 else v

/-- A write to REF_CFG (R43, R45, R48) that covers the bits `m`: the enables act, and where `m` covers `MAN_SEL` that write is held, or
acted on as `selectRef` says. The field is unchanged until then. -/
def hookRefCfg (m old new : Word) (s : State) : Word × State :=
  let r := fieldOf new 3 1
  let v := withField (refCfgStore old new) 3 1 (fieldOf old 3 1)
  let s0 := s.setReg RegId.REF_CFG.at v
  let drop := fun (k : Nat) (bit : Nat) (t : State) =>
    if fieldOf old bit 1 = 1 ∧ fieldOf v bit 1 = 0 ∧ t.isSet (refPresent k) then loseRef k (t.put (refPresent k) 0) else t
  let s1 := drop 1 5 (drop 0 4 s0)
  let s2 :=
    if !m.getLsbD 3 then s1
    else if s.selHeld || s1.selHeld then { s1 with tb := { s1.tb with heldSel := some r } }
    else selectRef r s1
  (s2.reg RegId.REF_CFG.at, s2)

/-- A write to TB_SLEW (R67): the rate is clamped, and GO = 1 requests the slew. GO reads 1 until hardware clears it as the slew
starts. An `ADJ` of -8,388,608 is taken as written (DESIGN CHOICE, log entry 82). `ones` are the bits written as 1. -/
def hookTbSlew (ones old new : Word) (s : State) : Word × State :=
  let rate := fieldOf new 24 7
  let go := fieldOf ones 31 1 == 1
  let v := withField new 24 7 (clampRate rate)
  let v := if old.getLsbD 31 then withField v 31 1 1 else v
  let s := s.when (rate != clampRate rate) (·.put TB_STAT.SLEW_CLAMP 1)
  let a := fieldOf v 0 24
  let adj : Int := if a < 2 ^ 23 then (a : Int) else (a : Int) - 2 ^ 24
  (v, s.when go (requestSlew adj (clampRate rate)))

end Sys2Proof.Machine
end

