-- ==== Sys2Proof/Machine/Cores.lean ====
section
/-! DEFINITION. The service level and the fault report (R372, R375, R377), lock groups, and the synthesis cores (R71 to R95):
divider words, their checks and their application, power, and the status that lock detection keeps. -/

namespace Sys2Proof.Machine

/-! ## Service level and faults -/

/-- Whether hopping and full service are offered (R375): SL2, or SL3 once SL2 has been reached. -/
def State.fullService (s : State) : Bool :=
  s.get SL_STAT.LEVEL == 2 || (s.get SL_STAT.LEVEL == 3 && s.isSet SL_STAT.SL2_SEEN)

/-- Whether queue service is offered (R375): SL1 or above. -/
def State.queueService (s : State) : Bool := decide (1 ≤ s.get SL_STAT.LEVEL)

/-- Move to a service level (R372): `SL_ENTRY`, `CHANGED`, SLCHANGE and a HWCHANGE record. -/
def setLevel (l : Nat) (s : State) : State :=
  if s.get SL_STAT.LEVEL = l then s
  else
    let s0 := s
    let s := (s.put SL_STAT.LEVEL l).put SL_STAT.CHANGED 1
    let s := if l = 2 then s.put SL_STAT.SL2_SEEN 1 else s
    let s := (s.setWide aSL_ENTRY (ts80 s.mcount)).raise 377
    s.log oFault kHWCHANGE RegId.SL_STAT.at (s0.reg RegId.SL_STAT.at) (s.reg RegId.SL_STAT.at) 0

/-- Whether a capacity fault of R377 persists. -/
def State.capacityFault (s : State) : Bool :=
  (List.range 4).any (fun i => decide (s.get HALF_FAIL.HALF i ≠ 0)) ||
  (List.range 8).any (fun i => decide (s.get ENG_FAIL.ENG i ≠ 0)) ||
  decide (s.get MEM_BANK_STAT.LOST ≠ 0) || decide (s.get CHIP_STAT.LOST ≠ 0) || s.nvmLost

/-- R372: after SL0, the level follows the capacity faults and `ALL_CONV`. SL3 returns to SL1 before SL2 is first reached. -/
def refreshLevel (s : State) : State :=
  if s.get SL_STAT.LEVEL = 0 then s
  else if s.capacityFault then setLevel 3 s
  else if s.isSet SL_STAT.SL2_SEEN then setLevel 2 s
  else if s.isSet SOR_STAT.ALL_CONV then setLevel 2 (if s.get SL_STAT.LEVEL = 3 then setLevel 1 s else s)
  else setLevel 1 s

/-- The fault handler reports fault `code`, whose `FAULT_SUM` bit is code - 1 (R377). -/
def faultReport (code : Nat) (s : State) : State :=
  let s0 := s
  let s := (s.put FAULT_SUM.BITS (s.get FAULT_SUM.BITS ||| 2 ^ (code - 1))).put FAULT_SUM.LAST code
  let s := (s.bump FAULT_CNT.FAULTS).raise 376
  refreshLevel (s.logEvent s0 RegId.FAULT_SUM.at code)

/-! ## Lock groups -/

/-- Whether core `c` is a member of lock group `g` (R30). -/
def State.lgMember (s : State) (g c : Nat) : Bool :=
  if c < 32 then s.get LG_MEM_LO.MEM_LO g / 2 ^ c % 2 == 1 else s.get LG_MEM_HI.MEM_HI g / 2 ^ (c - 32) % 2 == 1

/-- The lock group of a core (R30). -/
def State.groupOf (s : State) (c : Nat) : Option Nat := (List.range 16).find? fun g => s.lgMember g c

/-- The spare core that group `g` names on chiplet `n` (R31). -/
def State.spareOf (s : State) (g n : Nat) : Option Nat :=
  let x := s.get LG_SPARE.SPARES g / 16 ^ n % 16
  if 8 ≤ x then some (8 * n + x % 8) else none

/-- Whether core `c` is the spare of some group. -/
def State.isSpare (s : State) (c : Nat) : Bool := (List.range 16).any fun g => s.spareOf g (c / 8) == some c

/-! ## Halves -/

/-- The half that drives (R71). -/
def State.drive (s : State) (c : Nat) : Nat := s.get CORE_STAT.DRIVE c

/-- A half's `PWR` bit. -/
def State.powered (s : State) (c h : Nat) : Bool := s.get CORE_CTRL.A_PWR c + 2 * s.get CORE_CTRL.B_PWR c |>.testBit h

/-- Whether the fault handler has declared the half failed: half index 2c + h (R376). -/
def State.halfFailed (s : State) (c h : Nat) : Bool :=
  s.get HALF_FAIL.HALF ((2 * c + h) / 32) / 2 ^ ((2 * c + h) % 32) % 2 == 1

/-- R101: a half is in service when it is powered and not failed. -/
def State.inService (s : State) (c h : Nat) : Bool := s.powered c h && !s.halfFailed c h

def State.locked (s : State) (c h : Nat) : Bool := s.isSet HALF_STAT.LOCKED c h

/-- Set or clear `LOCKED`, with its copy in `CORE_STAT`. `VT_WARN` tells of a locked half alone (R77). -/
def setLocked (c h : Nat) (b : Bool) (s : State) : State :=
  let v := if b then 1 else 0
  let s := s.when (!b) (·.put HALF_STAT.VT_WARN 0 c h)
  (s.put HALF_STAT.LOCKED v c h).put (if h = 0 then CORE_STAT.A_LOCKED else CORE_STAT.B_LOCKED) v c

/-- `HOP_STAT.OOS` follows the service of the half that does not drive. -/
def refreshOos (c : Nat) (s : State) : State :=
  s.put HOP_STAT.OOS (if s.inService c (1 - s.drive c) then 0 else 1) c

/-- The word in the shadow registers of a half (R81). -/
def State.shadowWord (s : State) (c h : Nat) : DivWord where
  cmpDiv := s.get HALF_CFG.CMP_DIV c h
  mode := s.get HALF_CFG.MODE c h
  order := s.get HALF_CFG.MOD_ORDER c h
  preset := s.get HALF_CFG.PRESET c h
  int := s.get FB_INT.INT c h
  frac := s.get FB_FRAC_LO.FRAC c h + s.get FB_FRAC_HI.FRAC c h * 2 ^ 32
  num := s.get FB_NUM.NUM c h
  den := s.get FB_DEN.DEN c h
  band := s.get BAND_CFG.BAND c h
  search := s.isSet BAND_CFG.SEARCH c h

/-- The active word of a half, from its status register and wide values (R83, R95). -/
def State.activeWord (s : State) (c h : Nat) : DivWord where
  cmpDiv := s.get HALF_STAT.ACT_DIV c h
  mode := s.get HALF_STAT.ACT_MODE c h
  order := s.get HALF_STAT.ACT_ORDER c h
  preset := (s.half c h).preset
  int := s.get HALF_STAT.ACT_INT c h
  frac := s.wideAt (aACT_FRAC c h)
  num := s.wideAt (aACT_RATIO c h) / 2 ^ 32
  den := s.wideAt (aACT_RATIO c h) % 2 ^ 32
  band := s.get HALF_STAT.ACT_BAND c h
  search := false

/-- fVCO of a half's active word. -/
def State.fvco (s : State) (c h : Nat) : Freq := (s.activeWord c h).fvco

/-! ## The comparison divider, the modulator and the DTC (R72, R74, R75) -/

/-- M of a half (R72). -/
def State.cmpM (s : State) (c h : Nat) : Nat := mOf (s.get HALF_STAT.ACT_DIV c h)

/-- Whether the half's comparison divider, which runs freely from power-up, emits an edge at this clock (R72). -/
def State.cmpEdge (s : State) (c h : Nat) : Bool := (s.clock - (s.half c h).cmpFrom) % s.cmpM c h == 0

/-- Whether a word that waits for the half may be checked and applied now (R81, R82, R85): at a comparison edge once `READY` is set. An
unpowered half refuses its word at once. -/
def State.wordEdge (s : State) (c h : Nat) : Bool :=
  !s.powered c h || (s.isSet HALF_STAT.READY c h && s.cmpEdge c h)

/-- The comparison edges that the modulator has run through since its accumulator was cleared (R83). -/
def State.modEdges (s : State) (c h : Nat) : Nat := (s.clock - (s.half c h).modFrom) / s.cmpM c h

/-- The fraction of a word's N as numerator and denominator; 0 in integer mode (R73). -/
def DivWord.fraction (w : DivWord) : Nat × Nat :=
  if w.mode = 1 then (w.frac, 2 ^ 48) else if w.mode = 2 then (w.num, max 1 w.den) else (0, 1)

/-- The first-order accumulator after `k` edges (R75): the residue in units of 1 / denominator of a VCO cycle. -/
def DivWord.residue (w : DivWord) (k : Nat) : Nat := k * w.fraction.1 % w.fraction.2

/-- Whether a word leaves the modulator and the DTC idle: integer mode, or effectively integer (R75). -/
def DivWord.idle (w : DivWord) : Bool := w.fraction.1 == 0

/-- The instantaneous divider ratio at edge `k` of a word (R74). First order adds the accumulator's carry; of the second and third
orders the spec gives only the range of the offset: which offset within it comes is open. -/
def DivWord.ratioAt (w : DivWord) (k : Nat) : Int :=
  if w.idle then (w.int : Int)
  else if w.order = 1 then (w.int : Int) + (if w.residue (k + 1) < w.residue k then 1 else 0)
  else if w.order = 2 then (w.int : Int) - 1 + (Config.modOffset k % 4 : Nat)
  else (w.int : Int) - 3 + (Config.modOffset k % 8 : Nat)

/-- A half's instantaneous divider ratio. -/
def State.divRatio (s : State) (c h : Nat) : Int := (s.activeWord c h).ratioAt (s.modEdges c h)

/-- The DTC's 12-bit code at edge `k` of a word (R75): in first order the residue times one VCO period, in steps of 112 ps / 4,096; the
mid-code in second and third order; none while it is idle. The code is rounded down (DESIGN CHOICE, log entry 106). -/
def DivWord.dtcCodeAt (w : DivWord) (k : Nat) : Option Nat :=
  if w.idle then none
  else if w.order = 1 then
    some (w.residue k * w.fvco.d * 4096 * 1000000000000 / (w.fraction.2 * w.fvco.n * 112) % 4096)
  else some 2048

/-- A half's DTC code. -/
def State.dtcCode (s : State) (c h : Nat) : Option Nat := (s.activeWord c h).dtcCodeAt (s.modEdges c h)

/-- The inclusive range of an LC core in MHz (R76). -/
def coreRange (sel : Nat) : Nat × Nat :=
  if sel = 0 then (9600, 13000) else if sel = 1 then (12400, 16200) else (15600, 19200)

def mhz (x : Nat) : Freq := Freq.ofHz (x * 1000000)

/-- Whether a frequency lies in an inclusive range in MHz. -/
def inRange (f : Freq) (r : Nat × Nat) : Bool := (mhz r.1).le f && f.le (mhz r.2)

/-- R74: the least INT of a mode and order. -/
def minInt (mode order : Nat) : Nat := if mode = 0 then 3 else if order = 1 then 3 else if order = 2 then 4 else 6

/-! ## What a port allows -/

/-- The port maximum of R121 in MHz. -/
def portMax (p : Nat) : Nat := if p % 16 = 0 then 19200 else 12800

/-- Check 8 of R124 on a marker port: `MK_PERIOD` ticks hold (`MK_WIDTH` + 1) port periods. -/
def markerFits (s : State) (p : Nat) (f : Freq) : Bool :=
  decide ((max (s.get PORT_MK2.MK_WIDTH p) 1 + 1) * 3200000000 * f.d ≤ s.get PORT_MK.MK_PERIOD p * f.n)

/-- The limits that the ceiling tests of R80 and R107 put on a port: the test frequency against `PORT_CEIL`, the nominal frequency
against the port maximum, the LVDS limit and check 8 of R124. -/
def portLimits (s : State) (p : Nat) (nominal test : Freq) : Bool :=
  test.le (Freq.ofHz (s.get PORT_CEIL.CEIL_KHZ p * 1000)) && nominal.le (mhz (portMax p)) &&
  (s.get PORT_ACT.ACT_FMT p != 2 || nominal.le (mhz 1600)) &&
  (!s.isSet PORT_ACT.ACT_MARKER p || markerFits s p nominal)

/-- The core that a port draws from (R121). -/
def State.srcCore (s : State) (p : Nat) : Nat := 8 * (p / 128) + s.get PORT_STAT.ACT_SRC p

/-- Whether core `c` drives port `p`: the port's active word names the core with EN = 1, and the port is not guard-squelched,
which would keep it static until a new word (R134). -/
def State.drivesPort (s : State) (c p : Nat) : Bool :=
  s.srcCore p == c && (s.port p).en && s.get PORT_STAT.STATE p != 7

/-- The ports that core `c` drives. -/
def State.drivenPorts (s : State) (c : Nat) : List Nat :=
  ((List.range 128).map (128 * (c / 8) + ·)).filter fun p => s.drivesPort c p

/-- Whether half `h` drives ports (R80, R248): `DRIVE` names it and some port draws from its core. -/
def State.halfDrives (s : State) (c h : Nat) : Bool := s.drive c == h && !(s.drivenPorts c).isEmpty

/-- The ceiling test of R107: every port that the core drives, at frequency `f` and the dividers that `divOf` names. -/
def ceilTest (s : State) (c : Nat) (f : Freq) (divOf : Nat → Nat) : Bool :=
  (s.drivenPorts c).all fun p => portLimits s p (f.divBy (divOf p)) (f.divBy (divOf p))

/-- The ceiling test of R80: the test frequency is (f_new + 0.2 x |f_new - f_old|) / D. -/
def retuneTest (s : State) (c : Nat) (fold fnew : Freq) (divOf : Nat → Nat) : Bool :=
  let t := fnew.add ((fnew.diff fold).scale 1 5)
  (s.drivenPorts c).all fun p => portLimits s p (fnew.divBy (divOf p)) (t.divBy (divOf p))

/-- The divider in force at a port. -/
def State.divInForce (s : State) (p : Nat) : Nat := s.get PORT_ACT.ACT_DIV p

/-! ## Checking a word -/

/-- R79: the `HALF_ERR` bit of the first check that fails, in the order of the table. Checks 9 to 11 are made when `inLock`. -/
def checkWord (s : State) (c h : Nat) (w : DivWord) (inLock : Bool) (divOf : Nat → Nat) : Option Nat :=
  let f := w.fvco
  let old := s.fvco c h
  if !s.powered c h then some 10
  else if w.mode = 3 || (w.mode ≠ 0 && w.order = 0) then some 4
  else if w.int < minInt w.mode w.order || 127 < w.int then some 0
  else if w.mode = 2 && w.den = 0 then some 2
  else if w.mode = 2 && w.den ≤ w.num then some 3
  else if !inRange f (9600, 19200) then some 1
  else if !w.search && (w.band / 256 = 3 || !inRange f (coreRange (w.band / 256))) then some 5
  else if w.preset = 7 && w.cmpDiv = 3 then some 6
  else if !inLock then none
  else if w.cmpDiv ≠ s.get HALF_STAT.ACT_DIV c h then some 9
  else if w.search || w.band ≠ s.get HALF_STAT.ACT_BAND c h || !((f.diff old).le (old.scale 1000 1000000)) then some 7
  else if !retuneTest s c old f divOf then some 8
  else none

/-- R79: a refused word changes nothing on the half; the error bit, `LAST_CODE`, WORDREF and the record tell of it. -/
def refuseWord (c h bit : Nat) (s : State) : State :=
  let s0 := s
  let s := (s.put ⟨.HALF_ERR, bit, 1⟩ 1 c h).put HALF_ERR.LAST_CODE (bit + 1) c h
  (s.raise 263).logEvent s0 (RegId.HALF_ERR.at c h) (bit + 1)

/-! ## Sorrel reports -/

/-- The register that reports a machine's instance (R245): `HT_STAT`, `CD_STAT`, `PORT_STAT` or `CDLY_STAT`. -/
def sorrelAddr (mach target : Nat) : Nat :=
  if mach = 2 then
    if target < 1024 then RegId.CD_STAT.at (target / 128) (target % 128)
    else RegId.CD_STAT.at ((target - 1024) / 32) (128 + target % 32)
  else if mach = 3 then RegId.PORT_STAT.at target
  else if mach = 4 then RegId.CDLY_STAT.at target
  else RegId.HT_STAT.at (target / 16) (target % 16)

/-- The end of a requested run (R251): `GO` reads 0 and `RESULT` tells the outcome. -/
def requestEnd (requested : Bool) (result : Nat) (s : State) : State :=
  s.when requested fun s => (s.put SOR_REQ.GO 0).put SOR_REQ.RESULT result

/-- R250: a failed run of machine `mach` on `target` is reported. -/
def calFail (mach target reason : Nat) (requested : Bool) (s : State) : State :=
  let s0 := s
  let s := ((s.put SOR_FAIL.REASON reason).put SOR_FAIL.MACH mach).put SOR_FAIL.TARGET target
  let s := (s.put SOR_FAIL.REQUESTED (if requested then 1 else 0)).put SOR_STAT.CALFAIL_SEEN 1
  let s := requestEnd requested 2 ((s.bump SOR_CNT.FAILS).raise 276)
  s.logEvent s0 RegId.SOR_FAIL.at reason oSorrel

/-- R247 step 3: a converged run is counted and recorded. -/
def calCommit (mach target : Nat) (requested : Bool) (s : State) : State :=
  let s := requestEnd requested 1 (s.bump SOR_CNT.COMMITS)
  let a := sorrelAddr mach target
  s.log oSorrel kCALCOMMIT a (s.reg a) (s.reg a) (mach + 8 * target)

/-! ## Loop trims -/

/-- The LC core of a half's active band code (R76). -/
def State.actSel (s : State) (c h : Nat) : Nat := s.get HALF_STAT.ACT_BAND c h / 256

/-- R254: whether the word in force of a half calls for the LMS machine (`dtc` false) or the DTC machine. -/
def State.wordTrims (s : State) (c h : Nat) (dtc : Bool) : Bool :=
  s.get HALF_STAT.ACT_MODE c h != 0 && !s.isSet HALF_STAT.EFF_INT c h && (!dtc || s.get HALF_STAT.ACT_ORDER c h == 1)

/-- R254: whether the LMS machine (`dtc` false) or the DTC machine is required on a half. -/
def State.trimRequired (s : State) (c h : Nat) (dtc : Bool) : Bool := s.powered c h && s.wordTrims c h dtc

/-- Whether the committed trim of an LC core has converged. -/
def TrimSet.converged (t : TrimSet) (dtc : Bool) (sel : Nat) : Bool := (if dtc then t.gainConv else t.cpConv).testBit sel

def Half.inst (x : Half) (dtc : Bool) : TrimInst := if dtc then x.dtc else x.lms
def Half.setInst (x : Half) (dtc : Bool) (i : TrimInst) : Half := if dtc then { x with dtc := i } else { x with lms := i }

/-- The state code of R254. -/
def State.trimCode (s : State) (c h : Nat) (dtc : Bool) : Nat :=
  let i := (s.half c h).inst dtc
  if !s.trimRequired c h dtc then 0
  else if i.run.isSome then if s.locked c h then 2 else 1
  else if i.failed then 4
  else if (s.half c h).committed.converged dtc (s.actSel c h) then 3
  else if s.locked c h then 2 else 1

/-- Whether a machine's values came from factory seeds or defaults (R255, R262). -/
def TrimSet.seeded (t : TrimSet) (dtc : Bool) : Bool := if dtc then t.dtcSeed else t.cpSeed

/-- Whether two sets of trims hold the same values (R248). -/
def TrimSet.sameValues (a b : TrimSet) : Bool := a.cp == b.cp && a.gain == b.gain && a.inl == b.inl

/-- Whether an instance uses the enlarged step of R255 for some value: the trim of the active LC core or, for the DTC machine, an INL
entry that has not converged since seeds or defaults. -/
def State.enlarged (s : State) (c h : Nat) (dtc : Bool) : Bool :=
  let t := (s.half c h).committed
  t.seeded dtc && s.trimRequired c h dtc &&
    (!t.converged dtc (s.actSel c h) || (dtc && t.inlConv % 2 ^ 64 != 2 ^ 64 - 1))

/-- R264: whether every required instance has converged. -/
def State.allConverged (s : State) : Bool :=
  (List.range 8).all (fun n => (List.range 160).all fun l => s.get CD_STAT.ST n l == 3) &&
  (List.range 16).all (fun g => !s.isSet LG_CFG.SK_EN g || s.isSet LG_STAT.CONVERGED g) &&
  (List.range 128).all (fun x =>
    let ok := fun (d : Bool) => !s.trimRequired (x / 2) (x % 2) d || s.trimCode (x / 2) (x % 2) d == 3
    ok false && ok true)

/-- R264: `ALL_CONV` follows the instances; its rising edge raises SORCONV, ends `FIRST_USE` and may bring SL2 (R372). -/
def refreshAllConv (s : State) : State :=
  let now := s.allConverged
  if now == s.isSet SOR_STAT.ALL_CONV then s
  else if now then
    refreshLevel { (((s.put SOR_STAT.ALL_CONV 1).put SOR_STAT.FIRST_USE 0).raise 277) with convSeen := true }
  else s.put SOR_STAT.ALL_CONV 0

/-- `HT_STAT` and `HT_FORCE` of a half follow its machines (R254, R248). -/
def trimRefresh (c h : Nat) (s : State) : State :=
  let n := c / 8
  let k := (2 * c + h) % 16
  let x := s.half c h
  let sel := s.actSel c h
  let s := (s.put HT_STAT.LMS_ST (s.trimCode c h false) n k).put HT_STAT.DTC_ST (s.trimCode c h true) n k
  let s := s.put HT_STAT.FIRST (if s.enlarged c h false || s.enlarged c h true then 1 else 0) n k
  let s := s.put HT_STAT.PEND (if x.inForce.sameValues x.working then 0 else 1) n k
  let s := s.put HT_FORCE.CP (twos 10 (x.inForce.cp.getD sel 0)) n k
  refreshAllConv (s.put HT_FORCE.GAIN (x.inForce.gain.getD sel 2048) n k)

/-- A move of `cur` towards `goal` by at most `lim`. -/
def towards (lim : Nat) (cur goal : Int) : Int := cur + clampInt (-lim) lim (goal - cur)

/-- R248: the step that a driving half's boundary allows. -/
def TrimSet.stepTo (f w : TrimSet) : TrimSet :=
  { w with
    cp := List.zipWith (towards 4) f.cp w.cp
    gain := List.zipWith (fun a b => (towards 8 (a : Int) (b : Int)).toNat) f.gain w.gain
    inl := (List.range 64).foldl (fun m i =>
      SMap.set (fun _ => 0) m i (towards 4 (SMap.get (fun _ => 0) f.inl i) (SMap.get (fun _ => 0) w.inl i))) [] }

/-- R36, R418: the trims in force of chiplet `n` are frozen: it has declared the control die lost, or the bank of the calibration cache
is lost. -/
def State.trimsFrozen (s : State) (n : Nat) : Bool := (s.chip n).cdLost || s.bankLost 14

/-- A boundary of R248: pending trims take effect, whole at a half that does not drive, limited at one that does. Frozen trims stay. -/
def trimBoundary (c h : Nat) (driving : Bool) (s : State) : State :=
  let x := s.half c h
  if s.trimsFrozen (c / 8) then trimRefresh c h s
  else
    trimRefresh c h
      (s.setHalf c h { x with inForce := if driving then x.inForce.stepTo x.working else x.working })

/-- A word load, and a change of the running state, discard the block in progress (R255). -/
def discardBlock (c h : Nat) (s : State) : State :=
  let x := s.half c h
  let re := fun (i : TrimInst) => { i with run := i.run.map fun r => { r with since := s.clock } }
  s.setHalf c h { x with lms := re x.lms, dtc := re x.dtc }

/-! ## Band search -/

/-- The centre of an LC core's range in MHz. -/
def coreCentre (sel : Nat) : Nat := ((coreRange sel).1 + (coreRange sel).2) / 2

/-- R252 step 2: the LC cores whose range holds the target, nearest centre first. -/
def searchCores (f : Freq) : List Nat :=
  let ok := [0, 1, 2].filter fun i => inRange f (coreRange i)
  ok.mergeSort fun a b => (f.diff (mhz (coreCentre a))).le (f.diff (mhz (coreCentre b)))

/-- The bands of a narrow search (R252): the given band, then one either way and so on, out to four. -/
def narrowBands (b : Nat) : List Nat :=
  [b, b + 1] ++ (if 1 ≤ b then [b - 1] else []) ++ [b + 2] ++ (if 2 ≤ b then [b - 2] else []) ++ [b + 3] ++
    (if 3 ≤ b then [b - 3] else []) ++ [b + 4] ++ (if 4 ≤ b then [b - 4] else []) |>.filter (· < 256)

/-- The four neighbour checks after a bisection (R252). -/
def neighbours (b : Nat) : List Nat :=
  [b + 1] ++ (if 1 ≤ b then [b - 1] else []) ++ [b + 2] ++ (if 2 ≤ b then [b - 2] else []) |>.filter (· < 256)

/-- The window sequence of the lock detector starts again with the `LD_CFG` stored (R83, R87, R88). -/
def restartWindows (c h : Nat) (s : State) : State :=
  let s := s.setHalf c h { s.half c h with winFrom := s.clock, ldNew := false, ldCur := s.reg (RegId.LD_CFG.at c h) }
  s.put LD_DIFF.RUN 0 c h

/-- R253: a failed search leaves the band code, closes the loop and reports under R250. -/
def searchFailed (c h reason : Nat) (s : State) : State :=
  let s := restartWindows c h (s.setHalf c h { s.half c h with search := none, loopOpen := false, searchBad := true })
  let s := (s.put HALF_STAT.SEARCHING 0 c h).put HT_STAT.SEARCH_FAIL 1 (c / 8) ((2 * c + h) % 16)
  calFail 5 (2 * c + h) reason false s

/-- R253: a successful search sets the band code, closes the loop and updates the prediction entry with the measured band-centre
offset, which the spec gives no number for: it is a free value. A lost calibration cache takes none (R418). -/
def searchFound (c h code : Nat) (s : State) : State :=
  let s := restartWindows c h (s.setHalf c h { s.half c h with search := none, loopOpen := false, searchBad := false })
  let s := (s.put HALF_STAT.SEARCHING 0 c h).put HALF_STAT.ACT_BAND code c h
  let (v, s) := s.free 16
  if s.bankLost 14 then trimRefresh c h s
  else trimRefresh c h { s with preds := SMap.set (fun _ => 0) s.preds (768 * (2 * c + h) + code) v }

/-- Begin a full band search on a half (R252). The band that a prediction entry gives for the target is not stated: it is a free
value. In free run the search fails at its start with NOREF (R246). -/
def startSearch (c h : Nat) (w : DivWord) (s : State) : State :=
  let s := s.put HALF_STAT.SEARCHING 1 c h
  if s.get REF_STAT.STATE = 3 then searchFailed c h 3 s
  else
    let cs := searchCores w.fvco
    let (b0, s) := s.free 8
    s.setHalf c h { s.half c h with
      loopOpen := true
      search := some {
        narrow := false, cores := cs.drop 1, core := cs.headD 0, bis := some (0, 255), band := b0, todo := [], steps := 0,
        best := none, since := s.clock, last := s.clock } }

/-- Begin the narrow search of a failover (R139, R252) about band code `code`. -/
def startNarrow (c h code : Nat) (s : State) : State :=
  let s := s.put HALF_STAT.SEARCHING 1 c h
  if s.get REF_STAT.STATE = 3 then searchFailed c h 3 s
  else
    let l := narrowBands (code % 256)
    s.setHalf c h { s.half c h with
      loopOpen := true
      search := some {
        narrow := true, cores := [], core := code / 256, bis := none, band := l.headD 0, todo := l.drop 1, steps := 0,
        best := none, since := s.clock, last := s.clock } }

/-- A search that a re-initialisation of its machine ends is a background run, which retries: it begins again (R250, R260; log entry
134). -/
def restartSearch (c h : Nat) (s : State) : State :=
  match (s.half c h).search with
  | some b => if b.narrow then startNarrow c h (s.get HALF_STAT.ACT_BAND c h) s else startSearch c h (s.activeWord c h) s
  | none => s

/-- Twice the distance of the count from the target count fVCO x 2,048 tk, and twice the span, on one scale. -/
def countDist (f : Freq) (count : Nat) : Nat :=
  let a := count * f.d * 3200000000
  let b := f.n * 2048
  2 * (if a ≤ b then b - a else a - b)

/-- Whether the target is above the counted frequency. -/
def targetAbove (f : Freq) (count : Nat) : Bool := decide (count * f.d * 3200000000 < f.n * 2048)

/-- What one step of a search leads to (R252). -/
inductive SearchNext where
  | accept (code : Nat)
  | fail (reason : Nat)
  | go (b : BandSearch)
  deriving DecidableEq, Repr

/-- The next band to test after a step: the bisection's, then the neighbours', then the next core's (R252). `b0` is the start
band of a new core. -/
def searchNext (b : BandSearch) (above : Bool) (b0 : Nat) : SearchNext :=
  let bis := b.bis.bind fun (lo, hi) =>
    let r := if above then (lo, b.band) else (b.band + 1, hi + 1)
    if b.steps + 1 < 8 && decide (r.1 < r.2) then some (r.1, r.2 - 1) else none
  match bis with
  | some (lo, hi) => .go { b with bis := some (lo, hi), band := (lo + hi) / 2, steps := b.steps + 1 }
  | none =>
    let todo := if b.bis.isSome then neighbours b.band else b.todo
    match todo with
    | x :: rest => .go { b with bis := none, band := x, todo := rest, steps := b.steps + 1 }
    | [] =>
      match b.best, b.cores with
      | some (x, _), _ => .accept (256 * b.core + x)
      | none, k :: ks => .go { b with core := k, cores := ks, bis := some (0, 255), band := b0, todo := [], steps := 0 }
      | none, [] => .fail 5

/-- One step of a search (R252): `count` edges were counted with the tuning voltage at mid-range, and the band's measured tuning
range spans `span` counts about it. -/
def searchStep (b : BandSearch) (f : Freq) (count span b0 now : Nat) : SearchNext :=
  let dist := countDist f count
  let unit := f.d * 3200000000
  let contains := decide (dist ≤ span * unit)
  let spare := decide (10 * dist ≤ 8 * span * unit)
  let better := contains && (match b.best with | some (_, d) => decide (dist < d) | none => true)
  let b := { b with best := if better then some (b.band, dist) else b.best, last := now }
  if b.since + (if b.narrow then 28800 else 122880) < now then .fail 9
  else if spare then .accept (256 * b.core + b.band)
  else searchNext b (targetAbove f count) b0

/-- BAND_SEARCH_STEP on a half: the state after the step and, when it ends the search, whether it succeeded. -/
def bandStep (c h count span : Nat) (s : State) : State × Option Bool :=
  match (s.half c h).search with
  | none => (s, none)
  | some b =>
    if b.last + 2048 ≤ s.clock then
      let (b0, s) := s.free 8
      match searchStep b (s.fvco c h) count span b0 s.clock with
      | .accept code => (searchFound c h code s, some true)
      | .fail r => (searchFailed c h r s, some false)
      | .go b => (s.setHalf c h { s.half c h with search := some b }, none)
    else (s, none)

/-! ## Applying a word -/

/-- R83: whether an applied word is a large change, which clears `LOCKED`. -/
def largeChange (s : State) (c h : Nat) (w : DivWord) : Bool :=
  let old := s.fvco c h
  w.search || w.band != s.get HALF_STAT.ACT_BAND c h || w.cmpDiv != s.get HALF_STAT.ACT_DIV c h ||
    !((w.fvco.diff old).le (old.scale 1000 1000000))

/-- R83: the word becomes active at one comparison edge, `search` beginning the band search that it asks for. The modulator's
accumulator is cleared; pending trims take effect with it (R248); a large change clears `LOCKED`; a half that held its loop open
closes it (R137). The gross monitor's window and its run of bad windows start again with the lock detector's (DESIGN CHOICE, log
entry 83), and a new `CMP_DIV` divides from this edge on (DESIGN CHOICE, log entry 126). -/
def applyWordWith (c h : Nat) (w : DivWord) (search : State → State) (s : State) : State :=
  let large := largeChange s c h w
  let divNew := w.cmpDiv != s.get HALF_STAT.ACT_DIV c h
  let s := if large then setLocked c h false s else s
  let s := ((s.put HALF_STAT.ACT_DIV w.cmpDiv c h).put HALF_STAT.ACT_MODE w.mode c h).put HALF_STAT.ACT_INT w.int c h
  let s := s.put HALF_STAT.ACT_ORDER w.order c h
  let eff := (w.mode == 1 && w.frac == 0) || (w.mode == 2 && w.num == 0)
  let s := s.put HALF_STAT.EFF_INT (if eff then 1 else 0) c h
  let s := if w.search then s else s.put HALF_STAT.ACT_BAND w.band c h
  let s := (s.setWide (aACT_FRAC c h) w.frac).setWide (aACT_RATIO c h) (w.num * 2 ^ 32 + w.den)
  let s := restartWindows c h (s.bump HALF_CNT.COMMITS c h)
  let s := s.setHalf c h { s.half c h with
    preset := w.preset, grossRun := 0, grossFrom := s.clock, loopOpen := false, line := none,
    cmpFrom := if divNew then s.clock else (s.half c h).cmpFrom, modFrom := s.clock
    search := none, guard := (s.half c h).guard && !large, own := none }
  let s := s.put HALF_STAT.SEARCHING 0 c h
  let s := if s.drive c = h then s.put HOP_STAT.ON_LINE 0 c else s
  let s := s.when w.search search
  trimBoundary c h (s.halfDrives c h) (discardBlock c h s)

/-- R83: a word is applied; a search that it asks for is a full one. -/
def applyWord (c h : Nat) (w : DivWord) (s : State) : State := applyWordWith c h w (startSearch c h w) s

/-- Check and apply a word to a half; on a refusal the status is left as R79 states. -/
def loadWord (c h : Nat) (w : DivWord) (inLock : Bool) (divOf : Nat → Nat) (s : State) : Bool × State :=
  match checkWord s c h w inLock divOf with
  | some bit => (false, refuseWord c h bit s)
  | none => (true, applyWord c h w s)

/-- R139: check the word of a failed half and apply it to the spare's, which searches the bands about code `band`. -/
def loadNarrow (c h : Nat) (w : DivWord) (band : Nat) (s : State) : Bool × State :=
  let w := { w with search := true }
  match checkWord s c h w false s.divInForce with
  | some bit => (false, refuseWord c h bit s)
  | none => (true, applyWordWith c h w (startNarrow c h band) s)

/-- Drop a half's pending register commit. -/
def dropPending (c h : Nat) (s : State) : State :=
  let s := s.setHalf c h { s.half c h with pend := none, pendBoot := false }
  (s.put HALF_STAT.PENDING 0 c h).put HALF_CMD.COMMIT 0 c h

/-! ## Commits and power -/

/-- A register commit discarded under R118 (`CMT_BUSY`). -/
def commitBusy (c : Nat) (s : State) : State :=
  let s0 := s
  (s.put HOP_STAT.CMT_BUSY 1 c).logEvent s0 (RegId.HOP_STAT.at c) 8

/-- R81 steps 1 and 2, R84, R118: a write of 1 to `HALF_CMD.COMMIT` captures the shadow registers. It is discarded when it meets
the standby half in an open hop window, or the driving half in a relock. -/
def captureCommit (c h : Nat) (s : State) : State :=
  let standby := s.drive c != h
  if (standby && s.isSet HOP_STAT.WINDOW c) || (!standby && s.isSet HOP_STAT.RELOCKING c) then
    (commitBusy c s).put HALF_CMD.COMMIT 0 c h
  else
    let s := s.setHalf c h { s.half c h with pend := some (s.shadowWord c h), pendBoot := false }
    (s.put HALF_STAT.PENDING 1 c h).put HALF_CMD.COMMIT 1 c h

/-- R81 steps 3 and 4: the pending word is checked and applied at a comparison edge; `divOf` gives the port dividers after every
change of this tick (R80). A half that is powered and not ready holds it (R85); a timed action's word at the same edge displaces
it (R84). The word of a bring-up is no step in lock: ports that a policy holds on a failed core wait for its lock (R137, R138, R381;
DEDUCED, log entry 104). -/
def applyPending (c h : Nat) (divOf : DivWord → Nat → Nat) (s : State) : State :=
  match (s.half c h).pend with
  | none => s
  | some w =>
    if !s.wordEdge c h then s
    else if (s.half c h).lastTimed = some s.clock then
      let s := dropPending c h s
      let s0 := s
      let s := (s.put HALF_ERR.CMT_COLL 1 c h).put HALF_ERR.LAST_CODE 12 c h
      s.logEvent s0 (RegId.HALF_ERR.at c h) 12
    else dropPending c h (loadWord c h w (s.halfDrives c h && !(s.half c h).pendBoot) (divOf w) s).2

/-- HALF_READY (R85): a powered-up half sets `READY`, and the window sequence starts (R87). A held commit is applied at the half's
next comparison edge. -/
def halfReadyS (c h : Nat) (s : State) : State :=
  if s.powered c h && !s.isSet HALF_STAT.READY c h then
    let s := restartWindows c h (s.put HALF_STAT.READY 1 c h)
    trimRefresh c h (s.setHalf c h { s.half c h with grossFrom := s.clock })
  else s

/-- R85: power down a half that is not driving. -/
def powerDown (c h : Nat) (s : State) : State :=
  let s := dropPending c h (setLocked c h false (s.put HALF_STAT.READY 0 c h))
  let s := s.put HALF_STAT.SEARCHING 0 c h
  trimRefresh c h
    (s.setHalf c h { s.half c h with search := none, loopOpen := false, relockBy := none, grossRun := 0, guard := false, own := none })

/-- R72, R85: a half is powered up; its comparison divider runs from this clock, and its active word stands reloaded. -/
def powerUp (c h : Nat) (s : State) : State := s.setHalf c h { s.half c h with cmpFrom := s.clock, modFrom := s.clock }

/-- A write to CORE_CTRL (R85): the bit of the driving half is kept, with `PWR_REFUSED`; a standby half is powered down. -/
def hookCoreCtrl (c : Nat) (old new : Word) (s : State) : Word × State :=
  let d := s.drive c
  let clears := fun (h : Nat) => fieldOf old h 1 == 1 && fieldOf new h 1 == 0
  let refused := clears d
  let v := if refused then withField new d 1 1 else new
  let s1 := s.setReg (RegId.CORE_CTRL.at c) v
  let up := fun (h : Nat) (t : State) =>
    if fieldOf old h 1 = 0 ∧ fieldOf v h 1 = 1 then powerUp c h t else t
  let s1 := up 1 (up 0 s1)
  let s2 := if clears (1 - d) then powerDown c (1 - d) s1 else s1
  let s3 := s2.when refused (fun t => (t.put CORE_STAT.PWR_REFUSED 1 c).logEvent s2 (RegId.CORE_STAT.at c) 4)
  (v, trimRefresh c 0 (trimRefresh c 1 (refreshOos c s3)))

/-- The clamps of R88 on a value written to LD_CFG. -/
def ldCfgStore (v : Word) : Word :=
  let k := fieldOf v 0 5
  let v := if k < 6 then withField v 0 5 6 else if 20 < k then withField v 0 5 20 else v
  let v := if fieldOf v 8 8 = 0 then withField v 8 8 1 else v
  let v := if fieldOf v 16 8 = 0 then withField v 16 8 1 else v
  if fieldOf v 24 8 < fieldOf v 16 8 then withField v 24 8 (fieldOf v 16 8) else v

/-- Whether a window of the lock detector is in progress (R87). -/
def State.windowOpen (s : State) (c h : Nat) : Bool := s.isSet HALF_STAT.READY c h && (s.half c h).search.isNone

/-- A write to LD_CFG (R88): clamped; it takes effect at the end of the window in progress, or at once when there is none. -/
def hookLdCfg (c h : Nat) (new : Word) (s : State) : Word × State :=
  let v := ldCfgStore new
  let s := s.when (v != new) (·.put HALF_ERR.LDCLAMP 1 c h)
  let x := s.half c h
  (v, s.setHalf c h (if s.windowOpen c h then { x with ldNew := true } else { x with ldNew := false, ldCur := v }))

end Sys2Proof.Machine
end

