-- ==== Sys2Proof/Machine/Context.lean ====
section
/-! DEFINITION. The hop context (R97) as a HOP has captured it, and what an admitted HOP carries. -/

namespace Sys2Proof.Machine

/-- A word of a captured context. -/
def ctxAt (ws : List Word) (i : Nat) : Word := ws.getD i 0

/-- The divider word of a captured context; a HOP that is not cached asks for a band search. -/
def ctxDiv (ws : List Word) (cached : Bool) : DivWord where
  cmpDiv := fieldOf (ctxAt ws 1) 0 2
  mode := fieldOf (ctxAt ws 1) 2 2
  order := fieldOf (ctxAt ws 1) 4 2
  preset := fieldOf (ctxAt ws 1) 8 3
  int := fieldOf (ctxAt ws 1) 16 7
  frac := (ctxAt ws 3).toNat + fieldOf (ctxAt ws 4) 0 16 * 2 ^ 32
  num := (ctxAt ws 5).toNat
  den := (ctxAt ws 6).toNat
  band := fieldOf (ctxAt ws 2) 0 10
  search := !cached

def ctxValid (ws : List Word) : Bool := fieldOf (ctxAt ws 0) 0 1 == 1
def ctxBandValid (ws : List Word) : Bool := fieldOf (ctxAt ws 0) 1 1 == 1
def ctxPmMode (ws : List Word) : Nat := fieldOf (ctxAt ws 0) 2 2
def ctxInPlace (ws : List Word) : Bool := fieldOf (ctxAt ws 0) 4 1 == 1
def ctxAnchored (ws : List Word) : Bool := fieldOf (ctxAt ws 0) 5 1 == 1
def ctxNPort (ws : List Word) : Nat := fieldOf (ctxAt ws 0) 8 4
def ctxGen (ws : List Word) : Nat := fieldOf (ctxAt ws 10) 16 16
def ctxUses (ws : List Word) : Nat := (ctxAt ws 12).toNat

/-- The signed `BAND_TEMP`. -/
def ctxTemp (ws : List Word) : Int :=
  let v := fieldOf (ctxAt ws 2) 16 8
  if v < 128 then (v : Int) else (v : Int) - 256

/-- The port entries in use: port and divider. -/
def ctxEntries (ws : List Word) : List (Nat × Nat) :=
  (List.range (min 8 (ctxNPort ws))).map fun i =>
    (fieldOf (ctxAt ws (16 + 2 * i)) 0 10, fieldOf (ctxAt ws (17 + 2 * i)) 0 16)

/-- The phase-memory line that a context defines (R111). -/
def ctxLine (ws : List Word) : PmLine where
  t0 := (ctxAt ws 8).toNat + (ctxAt ws 9).toNat * 2 ^ 32
  t0frac := fieldOf (ctxAt ws 10) 0 16
  phi0 := (ctxAt ws 11).toNat

/-- R100, R112: whether a hop runs in free phase at the chiplet whose copy of `GEN` is `gen`, and whether that sets `UNANCHORED`. -/
def freePhase (ws : List Word) (gen : Nat) : Bool × Bool :=
  if ctxPmMode ws = 2 then (false, false)
  else if ctxPmMode ws = 1 then
    let bad := !ctxAnchored ws || ctxGen ws != gen
    (bad, bad)
  else (true, false)

/-- The core, context and captured words of a HOP. -/
def Admitted.hopOf (a : Admitted) : Option (Nat × Nat × List Word) :=
  match a.act.kind with
  | .hop c n ws => some (c, n, ws)
  | _ => none

/-- Whether an in-place HOP waits for a comparison edge of the driving half (R82, R85). -/
def State.edgeWait (s : State) (a : Admitted) : Bool :=
  match a.hopOf with
  | some (c, _, _) => a.cls == .inPlace && !a.dead && !s.wordEdge c (s.drive c)
  | none => false

end Sys2Proof.Machine
end

