-- ==== Sys2Proof/Machine/Edges.lean ====
section
/-! DEFINITION. Phase-memory lines (R111) and the edges of a port: its pattern on its half's line (R123), the level at which it stands
when static (R126, R143), and the transition of R110 between two patterns. -/

namespace Sys2Proof.Machine

/-- R111: N / M of a word in VCO cycles per tick, as an exact fraction. -/
def DivWord.slope (w : DivWord) : Freq := w.fvco.scale 1 3200000000

/-- R111: the line's phase at tick `t` and fraction `f`, exactly, as a numerator over 2^32 x 65,536 x the slope's denominator, in
cycles. -/
def linePhase (l : PmLine) (w : DivWord) (t f : Nat) : Int × Nat :=
  let dt : Int := (t * 65536 + f : Int) - (l.t0 * 65536 + l.t0frac : Int)
  let k := w.slope
  ((l.phi0 : Int) * (65536 * k.d : Nat) + dt * (k.n * 2 ^ 32 : Nat), 2 ^ 32 * 65536 * k.d)

/-- A fraction as a rational number. -/
def Freq.rat (f : Freq) : Rat := (f.n : Rat) / f.d

/-- `x` modulo `m`, in [0, m). -/
def ratMod (x m : Rat) : Rat := if m = 0 then 0 else x - m * (x / m).floor

/-- A port's edge pattern (R123, R130): the slope of its half's line in VCO cycles per tick, the line's phase at the boundary, D, and
the phase of its rising edges, which `FINE` and the skew trim delay. -/
structure Pattern where
  slope : Rat
  phase : Rat
  div : Rat
  offset : Rat

/-- R123: the high phase of a cycle in VCO cycles, half of D rounded down. -/
def Pattern.high (a : Pattern) : Rat := (a.div.floor : Rat) / 2

/-- The shorter of a pattern's high and low phases, in ticks (R110, R123). -/
def Pattern.shortest (a : Pattern) : Rat :=
  if a.slope = 0 then 0 else min a.high (a.div - a.high) / a.slope

/-- How far the line is past the latest rising edge at or before the boundary, in VCO cycles. -/
def Pattern.since (a : Pattern) : Rat := ratMod (a.phase - a.offset) a.div

/-- R110: the last edge strictly before the boundary: how many ticks before it, and whether it leaves the port high. -/
def Pattern.lastEdge (a : Pattern) : Rat × Bool :=
  let u := a.since
  let (d, high) :=
    if u = 0 then (a.div - a.high, false) else if u ≤ a.high then (u, true) else (u - a.high, false)
  (if a.slope = 0 then 0 else d / a.slope, high)

/-- R110: the first edge at or after `x` ticks past the boundary that is rising (or falling), in ticks past the boundary. -/
def Pattern.nextEdge (a : Pattern) (rising : Bool) (x : Rat) : Rat :=
  let at_ := if rising then a.offset else a.offset + a.high
  let u := ratMod (a.phase + a.slope * x - at_) a.div
  if u = 0 || a.slope = 0 then x else x + (a.div - u) / a.slope

/-- The period of a pattern in ticks. -/
def Pattern.period (a : Pattern) : Rat := if a.slope = 0 then 0 else a.div / a.slope

/-- Whether a port that started on pattern `a` `x` ticks before the boundary, at level `high`, has emitted an edge before it: the first of
the opposite direction since its start (R125). -/
def Pattern.begun (a : Pattern) (high : Bool) (x : Rat) : Bool := a.slope != 0 && decide (a.nextEdge (!high) (-x) < 0)

/-- R110: the last edge of a port on pattern `a` before the boundary, and the level that it leaves, where the port started `x` ticks before
the boundary at level `high`: no edge, if it has emitted none since. -/
def Pattern.lastSince (a : Pattern) (high : Bool) (x : Rat) : Option Rat × Bool :=
  if a.begun high x then (some a.lastEdge.1, a.lastEdge.2) else (none, high)

/-- R110: the transition at a boundary from pattern `a` to pattern `b`, of a port that started at clock `start.1` at level `start.2`. An
earlier one at the same boundary, or one whose next edge is still to come, leaves its own last edge the last. A port that has emitted
no edge since its start has none that the next must keep away from. -/
def transition (ts at_ : Nat) (start : Nat × Bool) (old : Option PortTrans) (a b : Pattern) : PortTrans :=
  let (e, high, out) :=
    match old with
    | some o =>
      let x : Rat := (at_ : Rat) - o.at_
      if o.at_ = at_ then (o.lastEdge, o.high, o.out)
      else if 0 < x ∧ x ≤ o.nextEdge then (o.lastEdge.map (x + ·), o.high, a.shortest)
      else (some a.lastEdge.1, a.lastEdge.2, a.shortest)
    | none =>
      let l := a.lastSince start.2 ((at_ : Rat) - start.1)
      (l.1, l.2, a.shortest)
  let h := min out b.shortest
  let from_ : Rat := match e with
    | some d => max 0 (h - d)
    | none => 0
  { ts := ts, at_ := at_, high := high, lastEdge := e, out := out, h := h, nextEdge := b.nextEdge (!high) from_ }

/-- The clock of tick `ts` of chiplet `n`'s replica, which has come. -/
def State.clockOf (s : State) (n ts : Nat) : Nat := s.clock - (s.count n - ts)

/-- The phase of a half's line at tick `ts` (R111), or the half's own phase (R112). Where that is not known it is open; while the half
stays in lock on its word it runs on evenly, so that the edges of R123 come again. A line keeps its `T0` where an epoch load changes the
count, and is evaluated at the new count (DESIGN CHOICE, log entry 129). -/
def State.halfPhase (s : State) (c h ts : Nat) : Rat × State :=
  let x := s.half c h
  let now := s.clockOf (c / 8) ts
  let own := x.own.filter fun o => s.locked c h || x.guard || o.2 == now
  match x.line, own with
  | some l, _ =>
    let (n, d) := linePhase l (s.activeWord c h) ts 0
    ((n : Rat) / d, s)
  | none, some (v, since) => (v + (s.activeWord c h).slope.rat * ((now : Rat) - since), s)
  | none, none =>
    let (v, s) := s.free 44
    let v : Rat := (v : Rat) / 2 ^ 32
    (v, s.setHalf c h { x with own := some (v, now) })

/-- R130: the delay of a fine phase in VCO cycles, at divider `d` on a half of slope `f`: whole half-cycles from the divider, and
the rest from the interpolator, rounded to its step of 50 fs. -/
def fineDelay (d f : Rat) (fine : Nat) : Rat :=
  let t := d * (fine : Rat) / 2 ^ 20
  let whole : Rat := ((2 * t).floor : Rat) / 2
  if f = 0 then t else whole + ((((t - whole) / f * 6250 + 1 / 2).floor : Rat)) * f / 6250

/-- The pattern of port `p` drawing from half `h` of core `c` with divider value `v` and fine phase `fine`, on a line at phase `ph`
(R123, R130, R147). -/
def State.patternOf (s : State) (p c h v fine : Nat) (ph : Rat) : Pattern :=
  let d : Rat := (v : Rat) / 2
  let f := (s.activeWord c h).slope.rat
  { slope := f, phase := ph, div := d, offset := fineDelay d f fine + f * ((s.port p).trimInForce : Rat) / 6250 }

/-- The divider and fine phase that a port emits: its active word's, or those of the word before it in a run-stale hold (R125). -/
def State.emitted (s : State) (p : Nat) : Nat × Nat :=
  (s.port p).staleWord.getD (s.divInForce p, s.get PORT_ACTF.ACT_FINE p)

/-- R129: a marker pulse that a transition `t` meets `x` ticks after its boundary, from pattern `a` to pattern `b`. One that has
not begun begins at the first rising edge on `b`; of one in progress the cycle in hand ends at the falling edge of R110, and the
rest are counted on `b`. -/
def Pulse.moved (u : Pulse) (x : Rat) (t : PortTrans) (a b : Pattern) : Pulse :=
  let low : Rat := if b.slope = 0 then 0 else (b.div - b.high) / b.slope
  let high : Rat := if b.slope = 0 then 0 else b.high / b.slope
  if x ≤ u.rise then
    let r := x + t.nextEdge + (if t.high then low else 0)
    { u with rise := r, fall := r + (u.width - 1 : Nat) * b.period + high }
  else if x < u.fall then
    let left : Rat := if a.period = 0 then 0 else ((u.fall - x) / a.period).floor
    { u with fall := x + t.nextEdge + (if t.high then 0 else high) + left * b.period }
  else u

/-- PORT_TRANSITION (R110): port `p` passes from its pattern `a` to its pattern `b` at tick `ts`. A marker port's train keeps its timing
(R129). -/
def portTransition (p ts : Nat) (a b : Pattern) (s : State) : State :=
  let x := s.port p
  let at_ := s.clockOf (p / 128) ts
  let t := transition ts at_ x.startAt x.trans a b
  let move := fun (u : Pulse) => u.moved ((at_ : Rat) - u.at_) t a b
  s.setPort p { x with trans := some t, pulse := x.pulse.map move, pulsesOn := x.pulsesOn.map move }

/-- The pattern that port `p` emits from half `h` of core `c` at tick `ts` (R110). -/
def outgoing (p c h ts : Nat) (s : State) : Pattern × State :=
  let (ph, s) := s.halfPhase c h ts
  (s.patternOf p c h (s.emitted p).1 (s.emitted p).2 ph, s)

/-- R110: port `p`, which emitted `a` before tick `ts`, emits its active word's pattern on half `h` of core `c` from there on. -/
def incoming (p c h ts : Nat) (a : Pattern) (s : State) : State :=
  let (ph, s) := s.halfPhase c h ts
  portTransition p ts a (s.patternOf p c h (s.divInForce p) (s.get PORT_ACTF.ACT_FINE p) ph) s

/-- The level at which port `p` stands while it emits no edge (R126, R129, R143, R125): low outside a pulse at a marker port, as its
relock hold says, else its `SQ_LEVEL`. -/
def State.staticLevel (s : State) (p : Nat) : Nat :=
  if s.get PORT_STAT.STATE p = 5 then
    match (s.port p).rlPol with
    | 1 => 1
    | 2 => (s.port p).sqLevel
    | _ => 0
  else if s.get PORT_STAT.STATE p = 1 ∨ s.get PORT_STAT.STATE p = 2 then 0
  else (s.port p).sqLevel

/-- R129: whether a marker pulse is high at clock `now`: from its rising edge to the falling edge of its last cycle. -/
def Pulse.highAt (u : Pulse) (now : Nat) : Bool :=
  let x : Rat := (now : Rat) - u.at_
  decide (u.rise ≤ x) && decide (x < u.fall)

/-- The marker pulses of a port that may be in progress: its latest and those that were in progress as it began. -/
def PortSt.pulses (x : PortSt) : List Pulse := x.pulse.toList ++ x.pulsesOn

/-- R129: whether a marker pulse of port `p` is high. -/
def State.pulseHigh (s : State) (p : Nat) : Bool := (s.port p).pulses.any (·.highAt s.clock)

/-- R129: the pulse of port `p` that its train starts at tick `ts`, on the pattern that the port's source gives it. -/
def markerPulse (p ts : Nat) (s : State) : Pulse × State :=
  let c := s.srcCore p
  let (a, s) := outgoing p c (s.drive c) ts s
  let w := s.get PORT_MK2.MK_WIDTH p
  let r := a.nextEdge true 0
  ({ start := ts, at_ := s.clockOf (p / 128) ts, width := w, rise := r,
     fall := r + (w - 1 : Nat) * a.period + (if a.slope = 0 then 0 else a.high / a.slope) }, s)

end Sys2Proof.Machine
end

