-- ==== Sys2Proof/Machine/Ports.lean ====
section
/-! DEFINITION. The output ports (R121 to R151): port words and their checks, the state of a port, the lock-loss policies, the
start of a failover, lock gained and lost, the ceiling, the master enable, and lock-group writes. -/

namespace Sys2Proof.Machine

/-! ## States of a port (`PORT_STAT.STATE`) -/

abbrev psWord : Nat := 0
abbrev psRun : Nat := 1
abbrev psHold : Nat := 2
abbrev psPolicy : Nat := 3
abbrev psFailover : Nat := 4
abbrev psRelock : Nat := 5
abbrev psMaster : Nat := 6
abbrev psGuard : Nat := 7

/-- Whether a port emits edges: running, in HOLD, or in a run-stale relock hold (R137, R143). -/
def State.portRuns (s : State) (p : Nat) : Bool :=
  let st := s.get PORT_STAT.STATE p
  st == psRun || st == psHold || (st == psRelock && (s.port p).rlRun)

/-- The ports of core `c`'s chiplet whose active source is `c`. -/
def State.portsOf (s : State) (c : Nat) : List Nat :=
  ((List.range 128).map (128 * (c / 8) + ·)).filter fun p => s.srcCore p == c

/-- The group whose skew loop holds the ports of core `c`: the one that it is a member of, or the one whose spare it is while a failover
has it in use, for a failover's port is then held by the skew loop (R142, R258; DEDUCED, log entry 85). -/
def State.skewGroup (s : State) (c : Nat) : Option Nat :=
  match s.groupOf c with
  | some g => some g
  | none => (List.range 16).find? fun g =>
      s.spareOf g (c / 8) == some c && s.get LG_STAT.SPARE_USED g / 2 ^ (c / 8) % 2 == 1

/-- R145, R33: whether the skew loop measures port `p`: it runs, it takes part, and the loop of its core's group runs. -/
def State.skewWanted (s : State) (p : Nat) : Bool :=
  s.portRuns p && s.isSet PORT_SKEW.SK_EN p &&
    (match s.skewGroup (s.srcCore p) with
      | some g => s.isSet LG_CFG.SK_EN g
      | none => false)

/-- `LG_STAT.CONVERGED` of a group whose loop runs: every port that it measures has converged (R258). -/
def refreshGroup (g : Nat) (s : State) : State :=
  let ok := s.ports.all fun e => !e.2.skOn || s.skewGroup (s.srcCore e.1) != some g || e.2.skConv
  refreshAllConv (s.put LG_STAT.CONVERGED (if s.isSet LG_CFG.SK_EN g && ok then 1 else 0) g)

/-- The group of core `c` follows a change at a port that it has driven. -/
def refreshCoreGroup (c : Nat) (s : State) : State :=
  match s.skewGroup c with
  | some g => refreshGroup g s
  | none => s

/-- The group of a port's source core follows a change at the port. -/
def refreshPortGroup (p : Nat) (s : State) : State :=
  match s.skewGroup (s.srcCore p) with
  | some g => refreshGroup g s
  | none => refreshAllConv s

/-- An attempt of the skew loop starts (R258); one that nobody has requested does not while the memory of the trims is lost, when every run
ends (R418). -/
def startAttempt (p : Nat) (requested : Bool) (s : State) : State :=
  let run := if s.bankLost 14 && !requested then none else some (s.clock, s.getSigned PORT_TRIM.TRIM p, requested)
  s.setPort p { s.port p with skAttempt := run, skWait := none, skGood := 0, skBad := 0 }

/-- R258: a port begins or ceases to be measured. A requested attempt runs on to its timeout, and whether the port has converged stands. -/
def skewRefresh (p : Nat) (s : State) : State :=
  let x := s.port p
  let want := s.skewWanted p
  if want == x.skOn then s
  else if want then
    let s := s.setPort p { x with skOn := true, skFrom := s.clock }
    refreshPortGroup p (if x.skAttempt.isSome then s else startAttempt p false s)
  else
    let keep := x.skAttempt.filter fun a => a.2.2
    refreshPortGroup p (s.setPort p { x with skOn := false, skAttempt := keep, skWait := none })

/-- R248: a new `TRIM` starts a port's motion once a motion that has started has run to its end, unless trims are frozen: by its
chiplet, which has declared the control die lost (R36), or with the memory of the trims (R418). -/
def trimMotionStart (p : Nat) (s : State) : State :=
  let want := s.getSigned PORT_TRIM.TRIM p
  let x := s.port p
  if x.trimMotion.isSome || x.trimInForce = want || s.trimsFrozen (p / 128) then s
  else (s.setPort p { x with trimMotion := some want }).put SOR_STAT.SK_MOVING 1

/-- `RUNNING` and `STALE` follow the state of the port and its source half. A port that runs on in its relock hold is stale throughout
(R143). -/
def refreshPort (p : Nat) (s : State) : State :=
  let c := s.srcCore p
  let run := s.portRuns p
  let stale := run && (s.get PORT_STAT.STATE p == psRelock || !s.locked c (s.drive c))
  let s := s.put PORT_STAT.RUNNING (if run then 1 else 0) p
  skewRefresh p (s.put PORT_STAT.STALE (if stale then 1 else 0) p)

/-- R134: the guard's windows start when a running port first draws from an unlocked half, and end when none does. -/
def refreshGuard (c : Nat) (s : State) : State :=
  let d := s.drive c
  let on := !s.locked c d && (s.portsOf c).any s.portRuns
  let set := fun (h : Nat) (b : Bool) (s : State) =>
    let x := s.half c h
    if b then if x.ceilFrom.isSome then s else s.setHalf c h { x with ceilFrom := some s.clock }
    else s.setHalf c h { x with ceilFrom := none }
  set (1 - d) false (set d on s)

/-- Everything that follows a core's ports after a change of the core or of its driving half's lock. -/
def refreshPorts (c : Nat) (s : State) : State := refreshGuard c (forList (s.portsOf c) refreshPort s)

/-- `PORT_STAT.ON_LINE` of a core's ports follows the driving half's `HOP_STAT.ON_LINE`. -/
def portsLine (c : Nat) (s : State) : State :=
  forList (s.portsOf c) (fun p s => s.put PORT_STAT.ON_LINE (s.get HOP_STAT.ON_LINE c) p) s

/-- Put a port into a state, in which a relock hold runs on if `rl` (R143). A port that stops takes a pending trim at the next tick
boundary (R147, R248); one that starts leaves the level at which it stood (R125). -/
def setPortStateRl (p st : Nat) (rl : Bool) (s : State) : State :=
  let was := s.portRuns p
  let level := s.staticLevel p == 1
  let s := s.setPort p { s.port p with rlRun := rl }
  let s := s.put PORT_STAT.STATE st p
  let s := s.when (was && !s.portRuns p) fun s =>
    trimMotionStart p (s.setPort p { s.port p with trans := none, staleWord := none })
  let s := s.when (!was && s.portRuns p) fun s => s.setPort p { s.port p with startAt := (s.clock, level) }
  refreshPort p s

/-- Put a port into a state other than a run-stale hold. -/
def setPortState (p st : Nat) (s : State) : State := setPortStateRl p st false s

/-- R143: a port enters its relock hold, running on if `stale`. -/
def enterHold (p : Nat) (stale : Bool) (s : State) : State := setPortStateRl p psRelock stale s

/-- R137: a half's loop closes again when no port of the half is in HOLD; a band search keeps its own loop open. -/
def closeLoops (c : Nat) (s : State) : State :=
  let d := s.drive c
  let held := (s.portsOf c).any fun p => s.get PORT_STAT.STATE p == psHold
  let close := fun (h : Nat) (keep : Bool) (s : State) =>
    let x := s.half c h
    if x.loopOpen && !keep && x.search.isNone then s.setHalf c h { x with loopOpen := false } else s
  close (1 - d) false (close d held s)

/-- R141: a spare is in use while it drives any port. -/
def releaseSpare (c : Nat) (s : State) : State :=
  if (s.drivenPorts c).isEmpty then
    forBelow 16 (fun g s =>
      if s.spareOf g (c / 8) = some c then
        s.put LG_STAT.SPARE_USED (s.get LG_STAT.SPARE_USED g &&& (255 - 2 ^ (c / 8))) g
      else s) s
  else s

/-- The state in which the ceiling of every port is the one before a `PORT_CEIL` write of this boundary: what a timed action of the
boundary is checked against (R127). -/
def State.beforeCeil (s : State) : State :=
  forList s.ports (fun e t =>
    match e.2.ceilOld with
    | some (at_, old) => if at_ = s.clock then t.put PORT_CEIL.CEIL_KHZ old e.1 else t
    | none => t) s

/-- Whether the ports of chiplet `n` may run: its bit of `PORT_MEN` (R135), and a level above SL0 (R372). -/
def State.mayRun (s : State) (n : Nat) : Bool :=
  s.get PORT_MEN_A.MEN / 2 ^ n % 2 == 1 && s.queueService

/-! ## Port words -/

/-- R122: the valid values of a port divider. -/
def divValid (v : Nat) : Bool :=
  if v % 2 = 0 then decide (2 ≤ v) && decide (v ≤ 0x2000) else decide (3 ≤ v) && decide (v ≤ 0x1F)

/-- The word in a port's shadow registers. -/
def State.portShadow (s : State) (p : Nat) : PortWord where
  src := s.get PORT_CFG.SRC p
  fmt := s.get PORT_CFG.FMT p
  marker := s.isSet PORT_CFG.MARKER p
  en := s.isSet PORT_CFG.EN p
  sqLevel := s.get PORT_CFG.SQ_LEVEL p
  div := s.get PORT_DIV.DIV p
  fine := s.get PORT_FINE.FINE p

/-- The active word of a port. -/
def State.portActive (s : State) (p : Nat) : PortWord where
  src := s.get PORT_STAT.ACT_SRC p
  fmt := s.get PORT_ACT.ACT_FMT p
  marker := s.isSet PORT_ACT.ACT_MARKER p
  en := (s.port p).en
  sqLevel := (s.port p).sqLevel
  div := s.get PORT_ACT.ACT_DIV p
  fine := (s.port p).fineTarget

/-- The core that a failover is bringing in for port `p`, if one is (R139). -/
def State.incomingSpare (s : State) (p : Nat) : Option Nat :=
  ((List.range 8).map (8 * (p / 128) + ·)).findSome? fun c =>
    (s.core c).failover.bind fun f => if f.ports.contains p then some f.spare else none

/-- Whether port `p` is in a relock hold whose source, the relocking core, is the core `c` that a word names (R124, R125). -/
def State.relockHeldBy (s : State) (p c : Nat) : Bool :=
  s.get PORT_STAT.STATE p == psRelock && s.srcCore p == c && s.isSet HOP_STAT.RELOCKING c

/-- Whether check 3 of R124 is not applied: a relock hold whose source is the relocking core, or a failover whose source is the
spare being brought in. -/
def srcExempt (s : State) (p c : Nat) : Bool :=
  s.relockHeldBy p c ||
  (s.get PORT_STAT.STATE p == psFailover && s.incomingSpare p == some c)

/-- R124: the `PORT_ERR` bit of the first check that fails. Check 4 does not meet a port whose word names the spare that its failover is
bringing in (DESIGN CHOICE, log entry 86). -/
def checkPort (s : State) (p : Nat) (w : PortWord) : Option Nat :=
  let c := 8 * (p / 128) + w.src
  let d := s.drive c
  let f := (s.fvco c d).divBy w.div
  let mk := (max (s.get PORT_MK2.MK_WIDTH p) 1 + 1) * 3200000000 * f.d
  if !divValid w.div then some 0
  else if w.fmt = 3 then some 1
  else if w.en && !srcExempt s p c && (!s.inService c d || !s.locked c d) then some 2
  else if s.isSpare c && (s.drivenPorts c).isEmpty && s.incomingSpare p != some c then some 3
  else if w.en && !f.le (mhz (portMax p)) then some 4
  else if w.en && w.fmt == 2 && !f.le (mhz 1600) then some 5
  else if w.en && !f.le (Freq.ofHz (s.get PORT_CEIL.CEIL_KHZ p * 1000)) then some 6
  else if w.marker && decide (s.get PORT_MK.MK_PERIOD p * f.n < mk) then some 7
  else none

/-- R124: a refused word changes nothing at the port; the error bit, `LAST_CODE`, PORTREF and the record tell of it. -/
def refusePort (p bit : Nat) (s : State) : State :=
  let s0 := s
  let s := (s.put ⟨.PORT_ERR, bit, 1⟩ 1 p).put PORT_ERR.LAST_CODE (bit + 1) p
  (s.raise 266).logEvent s0 (RegId.PORT_ERR.at p) (bit + 1)

/-- R131: a new FINE value becomes the target. A port that does not run takes it at once. -/
def setFine (p fine : Nat) (s : State) : State :=
  let s := s.setPort p { s.port p with fineTarget := fine }
  if s.portRuns p then s.put PORT_STAT.RAMPING (if s.get PORT_ACTF.ACT_FINE p = fine then 0 else 1) p
  else (s.put PORT_ACTF.ACT_FINE fine p).put PORT_STAT.RAMPING 0 p

/-- The ports that a failover on core `c` still covers lose port `p`. -/
def leaveFailover (p : Nat) (s : State) : State :=
  forList ((List.range 8).map (8 * (p / 128) + ·)) (fun c s =>
    match (s.core c).failover with
    | some f =>
      if f.ports.contains p then s.setCore c { s.core c with failover := some { f with ports := f.ports.filter (· ≠ p) } }
      else s
    | none => s) s

/-- The state of a port after a word `w` has become active, from the state `st` before it (R125, R127, R134). A policy-squelched
port stays so under a word with EN = 1, for R138 names its ways back. -/
def stateAfterWord (s : State) (p st : Nat) (w : PortWord) : Nat :=
  let c := 8 * (p / 128) + w.src
  if !s.mayRun (p / 128) then psMaster
  else if s.relockHeldBy p c then psRelock
  else if st == psFailover && s.incomingSpare p == some c then psFailover
  else if !w.en then psWord
  else if st == psPolicy then psPolicy
  else psRun

/-- R125: whether a word changes `SRC` or `DIV` of a running port, which passes by a transition. In a relock hold a word moves no edge. -/
def State.wordMoves (s : State) (p : Nat) (w : PortWord) : Bool :=
  s.portRuns p && s.get PORT_STAT.STATE p != psRelock && (s.srcCore p != 8 * (p / 128) + w.src || s.divInForce p != w.div)

/-- The pattern that port `p` emits up to this tick. -/
def outgoingNow (p : Nat) (s : State) : Pattern × State :=
  outgoing p (s.srcCore p) (s.drive (s.srcCore p)) (s.count (p / 128)) s

/-- R110: port `p` passes at this tick from pattern `a` to that of its active word on its source. -/
def incomingNow (p : Nat) (a : Pattern) (s : State) : State :=
  incoming p (s.srcCore p) (s.drive (s.srcCore p)) (s.count (p / 128)) a s

/-- A port that leaves its hold does so on the word then active (R125): its fine phase, if a word has changed it in a run-stale hold. -/
def freshWord (p : Nat) (s : State) : State :=
  if (s.port p).staleWord.isSome then
    (s.setPort p { s.port p with staleWord := none }).put PORT_ACTF.ACT_FINE (s.port p).fineTarget p
  else s

/-- The fine phase of a new word at port `p`. In a run-stale hold that goes on, the word moves no edge: it becomes active, and the
port emits the pattern `was` until it leaves the hold (R125). -/
def wordFine (p fine : Nat) (was : Nat × Nat) (s : State) : State :=
  if s.get PORT_STAT.STATE p = psRelock && (s.port p).rlRun then
    (s.setPort p { s.port p with fineTarget := fine, staleWord := some was }).put PORT_STAT.RAMPING 0 p
  else setFine p fine s

/-- R125: a port word becomes active. A change of `MARKER` ends a train (DESIGN CHOICE, log entry 130). -/
def applyPortWord (p : Nat) (w : PortWord) (s : State) : State :=
  let st := s.get PORT_STAT.STATE p
  let old := s.srcCore p
  let rl := (s.port p).rlRun
  let was := s.emitted p
  let st' := stateAfterWord s p st w
  let moves := s.wordMoves p w
  let (out, s) := if moves then outgoingNow p s else (⟨0, 0, 0, 0⟩, s)
  let s := s.when (st == psFailover && st' != psFailover) (leaveFailover p)
  let s := (s.put PORT_STAT.ACT_SRC w.src p).put PORT_ACT.ACT_DIV w.div p
  let s := s.put PORT_ACT.ACT_FMT w.fmt p
  let wasMk := s.isSet PORT_ACT.ACT_MARKER p
  let s := s.put PORT_ACT.ACT_MARKER (if w.marker then 1 else 0) p
  let s := s.setPort p { s.port p with en := w.en, sqLevel := w.sqLevel, staleWord := none }
  let s := s.when moves (incomingNow p out)
  let s := s.when (wasMk != w.marker) fun s => s.setPort p { s.port p with train := none }
  let s := s.bump PORT_CNT.COMMITS p
  let s := setPortStateRl p st' (st' == psRelock && rl) s
  let s := wordFine p w.fine was s
  let c := s.srcCore p
  let s := s.put PORT_STAT.ON_LINE (s.get HOP_STAT.ON_LINE c) p
  let s := releaseSpare c (refreshGuard c (closeLoops c s))
  if c = old then s else refreshPortGroup p (refreshCoreGroup old (releaseSpare old (refreshGuard old (closeLoops old s))))

/-- Check and apply a port word; on a refusal only the report of R124 changes. -/
def loadPortWord (p : Nat) (w : PortWord) (s : State) : State :=
  match checkPort s p w with
  | some bit => refusePort p bit s
  | none => applyPortWord p w s

/-- Check a port word that a timed action carries against the ceiling before a write of the same boundary (R127), and apply it. -/
def loadTimedWord (p : Nat) (w : PortWord) (s : State) : State :=
  match checkPort s.beforeCeil p w with
  | some bit => refusePort p bit s
  | none => applyPortWord p w s

/-- The word that a PORTSET makes of a port's active word: fields whose mask bit is 0 keep their active values (R239). -/
def portsetWord (w : PortWord) (v mask : Nat) : PortWord where
  src := if mask.testBit 0 then v % 8 else w.src
  fmt := if mask.testBit 1 then v / 8 % 4 else w.fmt
  marker := if mask.testBit 2 then v.testBit 5 else w.marker
  en := if mask.testBit 3 then v.testBit 6 else w.en
  sqLevel := if mask.testBit 4 then v / 128 % 2 else w.sqLevel
  div := if mask.testBit 5 then v / 65536 % 65536 else w.div
  fine := if mask.testBit 6 then v / 2 ^ 32 % 2 ^ 20 else w.fine

/-- A timed action meets port `p` at this boundary (R127). -/
def portTimed (p : Nat) (s : State) : State := s.setPort p { s.port p with lastTimed := some s.clock }

/-- A hop port entry (R124): `DIV` only, under check 1 alone. -/
def applyEntry (p div : Nat) (key : Nat × Nat × Nat × Nat) (s : State) : State :=
  let s := portTimed p s
  if !divValid div then refusePort p 0 s
  else
    let s := (s.put PORT_ACT.ACT_DIV div p).bump PORT_CNT.COMMITS p
    s.setPort p { s.port p with divKey := some (key, s.clock) }

/-- R125: a write of 1 to `PORT_CMD.COMMIT` captures the shadow registers. -/
def capturePort (p : Nat) (s : State) : State :=
  (s.setPort p { s.port p with captured := some (s.portShadow p) }).put PORT_CMD.COMMIT 1 p

/-- The port that an action names, if it names one. -/
def ActKind.port : ActKind → Option Nat
  | .phase p _ => some p
  | .portset p _ _ => some p
  | .mark p _ => some p
  | _ => none

/-- Whether a HOP that is to act at its tick has an entry for port `p`, which its core drives (R124, R127). A relock's entries apply at its
release. -/
def State.hopEntryFor (s : State) (p : Nat) (a : Admitted) : Bool :=
  match a.hopOf with
  | some (c, _, ws) => !a.dead && a.cls != .relock && !s.edgeWait a && s.drivesPort c p && (ctxEntries ws).any fun e => e.1 == p
  | none => false

/-- Whether an admitted action on port `p`, or a HOP with an entry for it, is due and not yet applied. -/
def State.portActionDue (s : State) (p : Nat) : Bool :=
  (s.chip (p / 128)).fifo.any fun a =>
    (a.act.kind.port == some p || s.hopEntryFor p a) && decide (a.due ≤ s.count (p / 128))

/-- PORT_WORD_APPLY (R125, R127): at the next tick boundary the captured word is checked and applied, after the timed actions of that
boundary; one of them at the same port displaces it. -/
def portWordApplyS (p : Nat) (s : State) : State :=
  match (s.port p).captured with
  | none => s
  | some w =>
    if s.portActionDue p then s
    else
    let s := (s.setPort p { s.port p with captured := none }).put PORT_CMD.COMMIT 0 p
    if (s.port p).lastTimed = some s.clock then
      let s0 := s
      let s := (s.put PORT_ERR.CMT_COLL 1 p).put PORT_ERR.LAST_CODE 9 p
      s.logEvent s0 (RegId.PORT_ERR.at p) 9
    else loadPortWord p w s

/-! ## Failing a hop (R108, R139) -/

/-- Change one admitted action in its FIFO. -/
def editAdmitted (n : Nat) (a b : Admitted) (s : State) : State :=
  s.setChip n { s.chip n with fifo := (s.chip n).fifo.replace a b }

/-- R108: a failed hop is reported; reason codes as in `HOP_STAT.LAST_REASON`. -/
def failHop (c reason : Nat) (s : State) : State :=
  let s0 := s
  let s := ((s.put HOP_STAT.FAIL 1 c).put HOP_STAT.LAST_REASON reason c).bump HOP_CNT.FAILS c
  (s.raise 265).logEvent s0 (RegId.HOP_STAT.at c) reason

/-- The hop window of core `c` closes. -/
def closeWindow (c : Nat) (s : State) : State :=
  (s.setCore c { s.core c with hop := none, lastUse := s.clock }).put HOP_STAT.WINDOW 0 c

/-- The relock of core `c` ends. -/
def endRelock (c : Nat) (s : State) : State :=
  (s.setCore c { s.core c with relock := none, lastUse := s.clock }).put HOP_STAT.RELOCKING 0 c

/-- R139: every HOP on the spare `sp` that was admitted before the failover, which is decided now, fails with PARTNER, a relock in progress
there too. -/
def failHopsOn (sp : Nat) (s : State) : State :=
  let n := sp / 8
  let mine := (s.chip n).fifo.filter fun a =>
    !a.dead && (match a.hopOf with | some (k, _, _) => k == sp | none => false)
  let s := closeWindow sp s
  let s := if (s.core sp).relock.isSome then failHop sp 6 (endRelock sp s) else s
  forList mine (fun a s => failHop sp 6 (editAdmitted n a { a with dead := true } s)) s

/-! ## Lock-loss policies (R136 to R141) -/

/-- SQUELCH (R138). -/
def squelchPolicy (p : Nat) (s : State) : State := setPortState p psPolicy s

/-- R137: whether a port's nominal frequency exceeds PORT_CEIL x (1 - 400 ppm). -/
def beyondMargin (s : State) (p : Nat) : Bool :=
  let c := s.srcCore p
  let f := (s.fvco c (s.drive c)).divBy (s.divInForce p)
  decide (s.get PORT_CEIL.CEIL_KHZ p * 1000 * 999600 * f.d < f.n * 1000000)

/-- HOLD (R137): a static port, or one beyond the ceiling margin, takes SQUELCH; otherwise the half's loop opens. -/
def holdPolicy (p : Nat) (s : State) : State :=
  if !s.portRuns p then squelchPolicy p s
  else if beyondMargin s p then squelchPolicy p (s.put PORT_STAT.HOLD_MARGIN 1 p)
  else
    let c := s.srcCore p
    let d := s.drive c
    let s := s.setHalf c d { s.half c d with loopOpen := true }
    let since := if s.get PORT_STAT.STATE p = psHold then (s.port p).holdSince else s.clock
    setPortState p psHold (s.setPort p { s.port p with holdSince := since })

/-- R141: the fallback of a failover that cannot start or complete. -/
def failoverElse (p : Nat) (s : State) : State :=
  if s.isSet PORT_CFG.FO_ELSE p then holdPolicy p s else squelchPolicy p s

/-- R376: the fault handler declares a half failed. -/
def markFailed (c h : Nat) (s : State) : State :=
  let x := 2 * c + h
  let s := s.put HALF_FAIL.HALF (s.get HALF_FAIL.HALF (x / 32) ||| 2 ^ (x % 32)) (x / 32)
  let s := s.setHalf c h { s.half c h with relockBy := none, bootBy := none }
  refreshOos c s

/-- The report of newly failed halves, which a lost control die leaves to the scan of R379. -/
def reportFailed (s : State) : State :=
  if s.cdDown then { s with halfFaults := s.halfFaults + 1 } else faultReport 1 s

/-- Whether a failover is bringing in core `sp`. -/
def State.spareTaken (s : State) (sp : Nat) : Bool :=
  ((List.range 8).map (8 * (sp / 8) + ·)).any fun k => ((s.core k).failover.map (·.spare)) == some sp

/-- The half of a spare that receives a failover (R139): A if it is ready, else B. -/
def State.readyHalf (s : State) (c : Nat) : Option Nat :=
  if s.isSet HALF_STAT.READY c 0 then some 0 else if s.isSet HALF_STAT.READY c 1 then some 1 else none

/-- R139: the spare core and half that can receive the ports of core `c`. A spare that another failover is still bringing in drives no
port and has `SPARE_USED` = 0, but is not free: that failover has taken it (DESIGN CHOICE, log entry 87). -/
def State.freeSpare (s : State) (c : Nat) : Option (Nat × Nat × Nat) :=
  match s.groupOf c with
  | none => none
  | some g =>
    match s.spareOf g (c / 8) with
    | none => none
    | some sp =>
      if s.get LG_STAT.SPARE_USED g / 2 ^ (c / 8) % 2 = 1 || !(s.drivenPorts sp).isEmpty || s.spareTaken sp then none
      else (s.readyHalf sp).map fun h => (g, sp, h)

/-- R61: a failover that begins before the load of an EPOCH_IN edge lets that edge pass; the load is made at the first edge after it. -/
def dropEdge (s : State) : State :=
  match s.tb.take with
  | some (.edge _ _) => { s with tb := { s.tb with take := none } }
  | _ => s

/-- R139 step 1, or the fallback of R141, for the FAILOVER ports of a core whose driving half has left service. The HOPs on the spare
fail. -/
def startFailover (c : Nat) (ps : List Nat) (s : State) : State :=
  if ps.isEmpty then s
  else
    match s.freeSpare c with
    | none => forList ps failoverElse s
    | some (_, sp, h) =>
      let d := s.drive c
      let f : FailoverRun := {
        spare := sp, spareHalf := h, since := s.clock, ports := ps, word := s.activeWord c d
        line := if s.isSet HOP_STAT.ON_LINE c then (s.half c d).line else none }
      let s := forList ps (fun p => setPortState p psFailover) s
      let s := (dropEdge (s.setCore c { s.core c with failover := some f })).raise 268
      let s := failHopsOn sp s
      reportFailed (markFailed c 1 (markFailed c 0 s))

/-- R136: one port's share in the policy: the counter, the flag, the time and PORTLL. -/
def policySeen (p : Nat) (s : State) : State :=
  let s := (s.bump PORT_CNT.LLOSSES p).put PORT_STAT.LL_SEEN 1 p
  (s.setWide (aLL_TS p) (ts80 (s.count (p / 128)))).raise 267

/-- A port that a policy takes out of its relock hold leaves it on the word then active (R125): in a run-stale hold by the transition
of R110 from the word before it, and squelched by word if that word has `EN` = 0. -/
def holdToPolicy (p : Nat) (s : State) : State :=
  if s.get PORT_STAT.STATE p ≠ psRelock then s
  else if !(s.port p).en then setPortState p psWord s
  else if (s.port p).staleWord.isNone then s
  else
    let (out, s) := outgoingNow p s
    incomingNow p out (freshWord p s)

/-- LOCK_LOSS_POLICY (R136): the driving half of core `c` has left service. A port in its relock hold whose active word has `EN` = 0 is
squelched by that word (R125). -/
def lockLossPolicy (c : Nat) (s : State) : State :=
  let ps := (s.portsOf c).filter fun p => s.portRuns p || s.get PORT_STAT.STATE p == psRelock
  let pol := fun (p : Nat) => s.get PORT_CFG.LL_POL p
  let s := forList ps holdToPolicy (forList ps policySeen s)
  let ps := ps.filter fun p => s.get PORT_STAT.STATE p != psWord
  let s := forList (ps.filter fun p => pol p == 1 || pol p == 3) squelchPolicy s
  let s := forList (ps.filter fun p => pol p == 0) holdPolicy s
  let s := startFailover c (ps.filter fun p => pol p == 2) s
  refreshPorts c (closeLoops c s)

/-- R376: a half is declared failed; the ports of a driving half take their policy (R136). -/
def declareFailed (c h : Nat) (s : State) : State :=
  if s.halfFailed c h then s
  else
    let s := reportFailed (markFailed c h s)
    if s.drive c = h then lockLossPolicy c s else s

/-! ## Lock gained and lost (R87) -/

/-- LOCKLOSS (R87): lock is withdrawn, and the relock limit of R376 starts. -/
def lockWithdrawn (c h : Nat) (s : State) : State :=
  let s := (setLocked c h false s).put HALF_STAT.LOCK_LOST 1 c h
  let s := (s.setWide (aUNLOCK_TS c h) (ts80 (s.count (c / 8)))).bump HALF_CNT.LOSSES c h
  let s := (s.put HALF_STAT.VT_WARN 0 c h).raise (288 + c)
  let tmo := s.get FH_CFG.HALF_TMO_MS
  let s := s.setHalf c h { s.half c h with
    guard := false, grossRun := 0, relockBy := if tmo = 0 then none else some (s.clock + tmo * msTk) }
  trimRefresh c h (discardBlock c h s)

/-- A half whose lock is withdrawn leaves its line, which a failover follows by itself (R139): what it regains later is its own phase, with
`ON_LINE` = 0 (R138; DEDUCED, log entry 102). -/
def lineLost (c h : Nat) (s : State) : State :=
  let s := s.setHalf c h { s.half c h with line := none, own := none }
  if s.drive c = h then portsLine c (s.put HOP_STAT.ON_LINE 0 c) else s

/-- Lock is withdrawn, and the ports of a driving half take their policy (R136). -/
def lockLost (c h : Nat) (s : State) : State :=
  let s := lockWithdrawn c h s
  lineLost c h (if s.drive c = h then lockLossPolicy c s else s)

/-- What lock declared on a driving half does to one port of its core: HOLD ends (R137), and a port with `LL_RESUME` leaves its
policy squelch on the half's own phase (R138). -/
def portRegain (p : Nat) (s : State) : State :=
  let st := s.get PORT_STAT.STATE p
  if st = psHold then setPortState p psRun s
  else if st = psPolicy && s.isSet PORT_CFG.LL_RESUME p && (s.port p).en then
    (setPortState p psRun s).put PORT_STAT.ON_LINE 0 p
  else s

/-- LOCKGAIN (R87): lock is declared. -/
def lockGained (c h : Nat) (s : State) : State :=
  let s := (setLocked c h true s).setWide (aLOCK_TS c h) (ts80 (s.count (c / 8)))
  let s := s.raise 262
  let s := s.setHalf c h { s.half c h with
    guard := false, relockBy := none, bootBy := none, grossRun := 0, grossFrom := s.clock
    own := if (s.half c h).guard then (s.half c h).own else none }
  let s := trimRefresh c h (discardBlock c h s)
  if s.drive c = h then refreshPorts c (closeLoops c (forList (s.portsOf c) portRegain s)) else s

/-- The fields of the lock detector settings in force (R88). -/
def ldK (v : Word) : Nat := fieldOf v 0 5
def ldRun (v : Word) : Nat := fieldOf v 8 8
def ldTol (v : Word) : Nat := fieldOf v 16 8
def ldUnlock (v : Word) : Nat := fieldOf v 24 8

/-- LD_WINDOW_END (R87, R88): a window of 2^K comparison cycles ends with difference `d`. No window is judged during a search,
and an open loop declares no lock (R137). A written `LD_CFG` then takes effect. -/
def ldWindowEndS (c h : Nat) (d : Int) (vtune : Nat) (s : State) : State :=
  let x := s.half c h
  if s.isSet HALF_STAT.READY c h && x.search.isNone &&
      decide (x.winFrom + 2 ^ ldK x.ldCur * mOf (s.get HALF_STAT.ACT_DIV c h) ≤ s.clock) then
    let s := s.setHalf c h { x with winFrom := s.clock }
    let s := (s.put LD_DIFF.DIFF (twos 16 (clampInt (-32767) 32767 d)) c h).put LD_DIFF.VTUNE vtune c h
    let good := decide (d.natAbs ≤ ldTol x.ldCur)
    let run := if good then min 255 (s.get LD_DIFF.RUN c h + 1) else 0
    let s := s.put LD_DIFF.RUN run c h
    let s :=
      if s.locked c h then if ldUnlock x.ldCur < d.natAbs then lockLost c h s else s
      else if !x.loopOpen && good && decide (ldRun x.ldCur ≤ run) then lockGained c h s
      else s
    let s := s.put HALF_STAT.VT_WARN (if s.locked c h && (decide (vtune ≤ 25) || decide (230 ≤ vtune)) then 1 else 0) c h
    if x.ldNew then
      (s.setHalf c h { s.half c h with ldNew := false, ldCur := s.reg (RegId.LD_CFG.at c h) }).put LD_DIFF.RUN 0 c h
    else s
  else s

/-- A trip of the gross monitor (R89): lock is withdrawn at once and `GROSS` is set. -/
def grossTrip (c h : Nat) (s : State) : State := lockLost c h (s.put HALF_STAT.GROSS 1 c h)

/-- GROSS_MONITOR_WINDOW (R89): two consecutive windows of 2^8 comparison cycles beyond 4 counts trip the monitor. -/
def grossMonitorWindowS (c h : Nat) (d : Int) (s : State) : State :=
  let x := s.half c h
  if s.locked c h && x.search.isNone &&
      decide (x.grossFrom + 256 * mOf (s.get HALF_STAT.ACT_DIV c h) ≤ s.clock) then
    let n := if 4 < d.natAbs then x.grossRun + 1 else 0
    let s := s.setHalf c h { x with grossFrom := s.clock, grossRun := n }
    if 2 ≤ n then grossTrip c h s else s
  else s

/-- GROSS_NO_FEEDBACK (R89, R376): no feedback edge for 64 comparison cycles. The half is declared failed; its ports take their
policy once. -/
def grossNoFeedbackS (c h : Nat) (s : State) : State :=
  if s.locked c h then
    let s := reportFailed (markFailed c h s)
    let s := grossTrip c h s
    s.setHalf c h { s.half c h with relockBy := none }
  else s

/-- POST_SWITCH_GUARD_FAIL (R109): the criterion of R105 has failed for 64 consecutive comparison cycles under the guard. -/
def postSwitchGuardFailS (c : Nat) (s : State) : State :=
  let d := s.drive c
  if (s.half c d).guard then lockLost c d s else s

/-- HALF_RELOCK_TIMEOUT (R376): a withdrawn half has not declared lock again within `HALF_TMO_MS`. -/
def halfRelockTimeoutS (c h : Nat) (s : State) : State :=
  match (s.half c h).relockBy with
  | some t =>
    if s.powered c h && !s.locked c h && decide (t ≤ s.clock) then declareFailed c h s else s
  | none => s

/-! ## HOLD limit, ceiling, master enable -/

/-- HOLD_LIMIT_EXPIRY (R137). -/
def holdLimitExpiryS (p : Nat) (s : State) : State :=
  let lim := s.get PORT_HOLD.HOLD_LIM p
  if s.get PORT_STAT.STATE p = psHold && decide (lim ≠ 0) && decide ((s.port p).holdSince + lim * msTk ≤ s.clock) then
    let c := s.srcCore p
    refreshGuard c (closeLoops c (squelchPolicy p s))
  else s

/-- R134: whether the guard trips on a port when the window counted `count` VCO edges. -/
def guardTrips (s : State) (p count : Nat) : Bool :=
  decide (s.get PORT_CEIL.CEIL_KHZ p * 1000 * (s.emitted p).1 * 999800 * 4096 < (count - 1) * 2 * 3200000000 * 1000000)

/-- CEIL_GUARD_WINDOW (R134): a window of 4,096 tk on an unlocked half ends. -/
def ceilGuardWindowS (c h count : Nat) (s : State) : State :=
  match (s.half c h).ceilFrom with
  | some t =>
    if t + 4096 ≤ s.clock && s.drive c == h then
      let s := s.setHalf c h { s.half c h with ceilFrom := some s.clock }
      let hit := (s.portsOf c).filter fun p => s.portRuns p && guardTrips s p count
      let s := forList hit (fun p s =>
        (setPortState p psGuard (s.put PORT_STAT.CEIL_TRIP 1 p)).raise 269) s
      releaseSpare c (refreshGuard c (closeLoops c s))
    else s
  | none => s

/-- A write to `PORT_CEIL` (R132): the value to store. The ceiling before it is kept for the timed actions of this boundary (R127). -/
def hookPortCeil (p : Nat) (old new : Word) (s : State) : Word × State :=
  let x := s.port p
  let s := s.setPort p { x with ceilOld :=
    if (x.ceilOld.map (·.1)) = some s.clock then x.ceilOld else some (s.clock, old.toNat) }
  let m := portMax p * 1000
  let v := if m < new.toNat then BitVec.ofNat 32 m else new
  let s := s.when (decide (m < new.toNat)) (·.put PORT_STAT.CEIL_CLAMP 1 p)
  let c := s.srcCore p
  let f := (s.fvco c (s.drive c)).divBy (s.divInForce p)
  if s.portRuns p && (Freq.ofHz (v.toNat * 1000)).lt f then (old, s.put PORT_STAT.CEIL_REF 1 p) else (v, s)

/-- A write to `PORT_CFG` (R131, R136): the clamped fields. -/
def hookPortCfg (p : Nat) (new : Word) (s : State) : Word × State :=
  let v := if fieldOf new 8 2 = 3 then withField new 8 2 1 else new
  let v := if fieldOf v 14 5 < 6 then withField v 14 5 6 else if 16 < fieldOf v 14 5 then withField v 14 5 16 else v
  (v, s.when (v != new) fun s => (s.put PORT_ERR.SLEWCLAMP 1 p).put PORT_ERR.LAST_CODE 10 p)

/-- A port squelched or restarted by its chiplet's master enable (R135, R125). Master-off takes the place of every other squelch: a
guard-squelched port with an active `EN` = 1 restarts when the bit returns (DESIGN CHOICE, log entry 88). -/
def masterPort (p : Nat) (s : State) : State :=
  let st := s.get PORT_STAT.STATE p
  if s.mayRun (p / 128) then
    if st = psMaster then setPortState p (if (s.port p).en then psRun else psWord) s else s
  else if st = psMaster then s
  else setPortState p psMaster (s.when (st == psFailover) (leaveFailover p))

/-- Every port of chiplet `n` follows its master enable. -/
def masterChip (n : Nat) (s : State) : State :=
  let s := forList ((List.range 128).map (128 * n + ·)) masterPort s
  forList ((List.range 8).map (8 * n + ·)) (fun c s => refreshPorts c (closeLoops c s)) s

/-- A completed pair on `PORT_MEN` (R135). -/
def portMenS (v : Nat) (s : State) : State :=
  let old := s.get PORT_MEN_A.MEN
  let s := s.put PORT_MEN_A.MEN v
  forBelow 8 (fun n s => if old / 2 ^ n % 2 = v / 2 ^ n % 2 || s.chipLost n then s else masterChip n s) s

/-! ## Fine phase and marker pulses -/

/-- One output cycle of a motion (R131): from `cur` towards `tgt` in units of 2^-20 period, by at most `step`, the shorter way;
equal ways delay, and an advance needs headroom. -/
def fineMove (cur tgt step : Nat) (headroom : Bool) : Nat :=
  let delay := (tgt + 2 ^ 20 - cur) % 2 ^ 20
  let adv := 2 ^ 20 - delay
  if delay = 0 then cur
  else if delay ≤ adv || !headroom then (cur + min step delay) % 2 ^ 20
  else (cur + 2 ^ 20 - min step adv) % 2 ^ 20

/-- R131: whether f x (1 + 2^-slew) is at or below the port's ceiling. -/
def headroom (s : State) (p slew : Nat) : Bool :=
  let c := s.srcCore p
  (((s.fvco c (s.drive c)).divBy (s.divInForce p)).scale (2 ^ slew + 1) (2 ^ slew)).le
    (Freq.ofHz (s.get PORT_CEIL.CEIL_KHZ p * 1000))

/-- FINE_PHASE_STEP (R131): one output cycle of a port's motion. -/
def finePhaseStepS (p : Nat) (s : State) : State :=
  if s.isSet PORT_STAT.RAMPING p then
    let tgt := (s.port p).fineTarget
    let slew := s.get PORT_CFG.PH_SLEW p
    let cur := s.get PORT_ACTF.ACT_FINE p
    let new := if s.portRuns p then fineMove cur tgt (2 ^ (20 - slew)) (headroom s p slew) else tgt
    (s.put PORT_ACTF.ACT_FINE new p).put PORT_STAT.RAMPING (if new = tgt then 0 else 1) p
  else s

/-- MARKER_PULSE (R129): the next pulse of a running port's train begins at the first rising edge at or after its tick, and is high for
`MK_WIDTH` cycles, whatever becomes of the train; one in progress completes. A port that does not run emits none; its train keeps its
schedule. -/
def markerPulseS (p : Nat) (s : State) : State :=
  match (s.port p).train with
  | some t =>
    if s.isSet PORT_ACT.ACT_MARKER p && decide (t.next ≤ s.count (p / 128)) then
      let nxt : Train := { t with next := t.next + s.get PORT_MK.MK_PERIOD p, left := t.left.map (· - 1) }
      let s := s.setPort p { s.port p with train := if nxt.left = some 0 then none else some nxt }
      if s.portRuns p then
        let (u, s) := markerPulse p t.next s
        let on := (s.port p).pulses.filter (·.highAt s.clock)
        (s.setPort p { s.port p with pulse := some u, pulsesOn := on }).emit (.pulse p u)
      else s
    else s
  | none => s

/-- What a MARK action does at its port (R129). -/
def markPort (p cnt ts : Nat) (s : State) : State :=
  if !s.isSet PORT_ACT.ACT_MARKER p then refusePort p 7 s
  else
    s.setPort p { s.port p with
      train := if cnt = 0 then none
        else some { start := ts, next := ts, left := if cnt = 0xFFFF then none else some cnt } }

/-! ## Lock-group writes (R144) -/

/-- The members, as a list of cores, that a pair of membership words names. -/
def membersOf (lo hi : Word) : List Nat :=
  (List.range 64).filter fun c => if c < 32 then lo.toNat.testBit c else hi.toNat.testBit (c - 32)

/-- Whether a failover is in progress on chiplet `n`. -/
def State.failoverOn (s : State) (n : Nat) : Bool :=
  ((List.range 8).map (8 * n + ·)).any fun c => (s.core c).failover.isSome

/-- Whether a write to the membership of group `g` is refused. -/
def memRefused (s : State) (g : Nat) (lo hi : Word) : Bool :=
  (membersOf lo hi).any fun c =>
    ((List.range 16).any fun g' => g' != g && s.lgMember g' c) || s.isSpare c

/-- Whether a write of `v` to `LG_SPARE` of group `g` is refused. -/
def spareRefused (s : State) (g : Nat) (v : Word) : Bool :=
  (List.range 8).any fun n =>
    let x := fieldOf v (4 * n) 4
    let c := 8 * n + x % 8
    let changed := fieldOf v (4 * n) 4 != s.get LG_SPARE.SPARES g / 16 ^ n % 16
    (decide (8 ≤ x) && ((List.range 16).any (fun g' => s.lgMember g' c || (g' != g && s.spareOf g' n == some c)) ||
      !(s.drivenPorts c).isEmpty)) ||
    (changed && (s.get LG_STAT.SPARE_USED g / 2 ^ n % 2 == 1 || s.failoverOn n))

/-- A write to `LG_MEM_LO`, `LG_MEM_HI` or `LG_SPARE` (R144): `k` is 0, 1 or 2. -/
def hookLg (g k : Nat) (old new : Word) (s : State) : Word × State :=
  let lo := s.reg (RegId.LG_MEM_LO.at g)
  let hi := s.reg (RegId.LG_MEM_HI.at g)
  let bad := if k = 0 then memRefused s g new hi else if k = 1 then memRefused s g lo new else spareRefused s g new
  if bad then (old, s.put LG_STAT.LGERR 1 g) else (new, s)

end Sys2Proof.Machine
end

