-- ==== Sys2Proof/Machine/Sram.lean ====
section
/-! DEFINITION. The check bits of on-chip memory (R27 to R29): a single-bit error is corrected at a read, an uncorrectable word is handled
by its area, and rows in error are remembered until their bank is declared lost. -/

namespace Sys2Proof.Machine

/-! ## The pool and its parity (R27) -/

/-- The on-chip memory offset of pool entry `e` (R27); the pool has 2^20 entries. -/
def entryAddr (e : Nat) : Nat := 0x00200000 + 16 * (e % 2 ^ 20)

/-- The parity row `r` of bank 9: the XOR of row `r` of banks 1 to 8 (R27). -/
def State.parityRow (s : State) (r : Nat) : List Byte :=
  (List.range 16).map fun b => (List.range 8).foldl (fun x i => x ^^^ s.byte (entryAddr (8 * r + i) + b)) 0

/-- The memory offset of parity row `r`. -/
def parityAddr (r : Nat) : Nat := 0x01200000 + 16 * (r % 2 ^ 17)

/-- Write the parity row `r` of bank 9. -/
def writeParity (r : Nat) (s : State) : State := s.store (parityAddr r) (s.parityRow r)

/-- The bytes of entry `e` as its parity row and the seven other data banks tell them (R28). -/
def State.rebuiltEntry (s : State) (e : Nat) : List Byte :=
  (List.range 16).map fun b =>
    ((List.range 8).filter (· != e % 8)).foldl (fun x i => x ^^^ s.byte (entryAddr (e / 8 * 8 + i) + b))
      (s.byte (parityAddr (e / 8) + b))

/-! ## Areas of R26 -/

abbrev tansySlots : Nat := 65536

/-- The 32 bytes of a record with sequence number `seq` (R325). -/
def LogRec.bytes (r : LogRec) (seq : Nat) : List Byte :=
  leBytes 8 r.tick ++ leBytes 4 (r.origin % 1024 * 2 ^ 16 + r.kind % 64 * 2 ^ 26) ++ leBytes 4 r.addr ++
    leBytes 4 r.old.toNat ++ leBytes 4 r.new.toNat ++ leBytes 6 seq ++ leBytes 2 r.aux

/-- The memory offset of a slot. -/
def tansySlot (k : Nat) : Nat := 0x01800000 + 32 * (k % tansySlots)

/-- An uncorrectable word of the change log is replaced by a LOST record of the same sequence number (R28). -/
def tansyReplace (w : Nat) (s : State) : State :=
  let k := (8 * w - 0x01800000) / 32
  let seq := s.tansySeq - 1 - (s.tansySeq + tansySlots - 2 - k) % tansySlots
  s.store (tansySlot k) (LogRec.bytes ⟨s.mcount, oFault, kLOST, 0, 0, 0, 0⟩ seq)

/-- A read that meets an uncorrectable word marks its context invalid (R28). -/
def markCtx (n : Nat) (s : State) : State :=
  if s.anyBad (128 * n) 128 && !s.ctxBad.contains n then { s with ctxBad := s.ctxBad ++ [n] } else s

/-- The result block that holds the 64-bit word `w` is flagged invalid: its `VALID` reads 0 (R28, R181). -/
def dropResult (w : Nat) (s : State) : State :=
  let a := (8 * w - 0x01A00000) / 64 * 64 + 0x01A00000
  s.store a ((s.bytesAt a 5) ++ [s.byte (a + 5) &&& 0xFE#8] ++ s.bytesAt (a + 6) 2)

/-- The number of the record of the ring space that holds the byte at offset `a` (R170). -/
def ringRecord (a : Nat) : Nat := (a - 0x01A14000) / 16

/-- The record that holds the 64-bit word `w` of the ring space is flagged invalid (R28; log entry 13). -/
def flagRecord (w : Nat) (s : State) : State :=
  let k := ringRecord (8 * w)
  if s.ecc.badRecs.contains k then s else { s with ecc := { s.ecc with badRecs := s.ecc.badRecs ++ [k] } }

/-- A record is written: it is valid. -/
def freshRecord (a : Nat) (s : State) : State :=
  { s with ecc := { s.ecc with badRecs := s.ecc.badRecs.filter (· != ringRecord a) } }

/-- What an access that meets the uncorrectable 64-bit word `w` does by its area (R28). A word of the program store faults the engine that
meets it, and the calibration cache and the mirror area are handled where their functions meet the word. -/
def uncorrectable (w : Nat) (s : State) : State :=
  let a := 8 * w
  if a < 0x00200000 then markCtx (a / 128) s
  else if a < 0x01200000 then
    let e := (a - 0x00200000) / 16
    s.store (entryAddr e) (s.rebuiltEntry e)
  else if a < 0x01400000 then
    let r := (a - 0x01200000) / 16
    s.store (parityAddr r) (s.parityRow r)
  else if 0x01800000 ≤ a ∧ a < 0x01A00000 then tansyReplace w s
  else if 0x01A00000 ≤ a ∧ a < 0x01A14000 then dropResult w s
  else if 0x01A14000 ≤ a ∧ a < 0x01D00000 then flagRecord w s
  else s

/-! ## Reads (R28, R29) -/

/-- Single-bit errors in a range are corrected at its read: each word is written back and counted (R28). -/
def sramFix (off n : Nat) (s : State) : State :=
  let k := touching s.ecc.weak off n
  if k.isEmpty then s
  else { s with ecc := { s.ecc with weak := s.ecc.weak.filter (!k.contains ·), corrected := s.ecc.corrected + k.length } }

/-- The row of its bank in which a 64-bit word lies. R27 gives rows of 16 bytes to banks 1 to 9; those of the other banks are presumed so
(log entry 13). -/
def rowOf (w : Nat) : Nat :=
  if 0x00200000 ≤ 8 * w ∧ 8 * w < 0x01200000 then (8 * w - 0x00200000) / 128 else 8 * w % 0x00200000 / 16

/-- A read that meets uncorrectable words: their rows are noted (R29), and each is handled by its area (R28). -/
def sramMeets (off n : Nat) (s : State) : State :=
  forList (touching s.badWords off n) (fun w s =>
    uncorrectable w { s with ecc := { s.ecc with rows := s.ecc.rows ++ [(bankOf (8 * w), rowOf w, s.clock)] } }) (sramFix off n s)

/-- Whether one of the words at offsets `offs` of hop context `n` is uncorrectable. -/
def State.ctxWordsBad (s : State) (n : Nat) (offs : List Nat) : Bool := offs.any fun o => s.anyBad (128 * n + o) 4

/-- The control die reads the words at offsets `offs` of hop context `n`: they are corrected, or the context is marked invalid (R28). -/
def readCtxWords (n : Nat) (offs : List Nat) (s : State) : State := forList offs (fun o s => sramMeets (128 * n + o) 4 s) s

/-- R29: whether bank `b` has returned uncorrectable errors on four distinct rows within 1 ms. -/
def State.bankFails (s : State) (b : Nat) : Bool :=
  let l := s.ecc.rows.filter fun r => r.1 == b
  l.any fun r => decide (4 ≤ ((l.filter fun q => decide (q.2.2 ≤ r.2.2) && decide (r.2.2 < q.2.2 + msTk)).map (·.2.1)).dedup.length)

end Sys2Proof.Machine
end

