-- ==== Sys2Proof/Machine/Hop.lean ====
section
/-! DEFINITION. Hopping, Campion switchover and phase memory (R96 to R120): the hop context, the classes and intervals of a HOP,
the ping-pong window and switch, the in-place retune, the relock, and the failover to a spare (R139, R141). -/

namespace Sys2Proof.Machine

/-! ## Leads and limits (R102, R105, R115) -/

/-- How much later the lock part of pre-lock ends at `PRESET` 0 to 2. -/
def presetDelay (preset : Nat) : Nat :=
  if preset = 2 then 5120 else if preset = 1 then 15360 else if preset = 0 then 35840 else 0

/-- L of a ping-pong hop. -/
def pingPongLead (cached : Bool) (preset : Nat) : Nat := (if cached then 6400 else 129280) + presetDelay preset

/-- R of a relock. -/
def relockLimit (cached : Bool) (preset : Nat) : Nat := (if cached then 96000 else 224000) + presetDelay preset

/-- R101: whether a ping-pong hop or relock is cached: a valid band within 30 degrees of the chiplet's case temperature. -/
def State.hopCached (s : State) (n : Nat) (ws : List Word) : Bool :=
  ctxBandValid ws && decide ((s.getSigned CHIP_TEMP.TEMP n - ctxTemp ws).natAbs ≤ 30)

/-- R101: the class of a HOP at admission. -/
def State.hopClass (s : State) (c : Nat) (ws : List Word) : HopClass :=
  if ctxInPlace ws then .inPlace
  else if s.inService c (1 - s.drive c) then .pingPong else .relock

/-- The lead that the admission test of R18 uses for a HOP (R102). -/
def hopLead (cls : HopClass) (cached : Bool) (preset : Nat) : Nat :=
  match cls with
  | .pingPong => pingPongLead cached preset
  | _ => 8

/-- The busy interval of an admitted HOP with due tick `ts` (R102). -/
def busyOf (cls : HopClass) (cached : Bool) (preset lead ts : Nat) : Nat × Nat :=
  match cls with
  | .inPlace => (ts, ts)
  | .pingPong => (ts - lead, ts)
  | .relock => (ts, ts + relockLimit cached preset)

/-- R103: whether two busy intervals overlap: they share more than an end point, and neither is an in-place interval strictly
inside a ping-pong one. -/
def overlaps (a b : Nat × Nat) (aCls bCls : HopClass) : Bool :=
  let exempt := (aCls == .inPlace && bCls == .pingPong) || (aCls == .pingPong && bCls == .inPlace)
  !exempt && (decide (max a.1 b.1 < min a.2 b.2) ||
    (a.1 == a.2 && decide (b.1 < a.1) && decide (a.1 < b.2)) || (b.1 == b.2 && decide (a.1 < b.1) && decide (b.1 < a.2)))

/-! ## The commit FIFO (R17, R21, R201) -/

def Admitted.isPingPong (a : Admitted) : Bool := a.hopOf.isSome && a.cls == .pingPong

/-- The key of R17 and R201: due tick (or the one that a step passed, R57), then queue, sequence and index. -/
def Admitted.key (a : Admitted) : Nat × Nat × Nat × Nat := (a.passedAt.getD a.due, a.act.q, a.act.seq, a.act.idx)

def keyLt (a b : Nat × Nat × Nat × Nat) : Bool :=
  decide (a.1 < b.1) || (a.1 == b.1 && (decide (a.2.1 < b.2.1) || (a.2.1 == b.2.1 &&
    (decide (a.2.2.1 < b.2.2.1) || (a.2.2.1 == b.2.2.1 && decide (a.2.2.2 < b.2.2.2))))))

/-- The first element of a list of admitted actions in the order of application. -/
def firstOf : List Admitted → Option Admitted
  | [] => none
  | a :: l =>
    match firstOf l with
    | none => some a
    | some b => if keyLt b.key a.key then some b else some a

/-- The action to be applied next at chiplet `n`, if its boundary has come: the head of its FIFO among all but the ping-pong HOPs, which
are switched after every other action of their tick (R107), and the in-place HOPs that wait for an edge (R82). A ping-pong HOP of an
earlier boundary goes first (R17). One that a step of the replica has passed over comes at the tick after the step, behind those of the
step's own tick (R57). -/
def State.nextAction (s : State) (n : Nat) : Option Admitted :=
  let l := (s.chip n).fifo.filter fun a => decide (a.due ≤ s.count n)
  (firstOf (l.filter fun a => !a.isPingPong && !s.edgeWait a)).filter fun a =>
    !l.any fun b => b.isPingPong && decide (b.key.1 < a.key.1)

/-- `COMMIT_STAT.LEVEL` and `FULL_SEEN` follow the FIFO. -/
def refreshFifo (n : Nat) (s : State) : State :=
  let l := (s.chip n).fifo.length
  (s.put COMMIT_STAT.LEVEL l n).when (decide (4096 ≤ l)) (·.put COMMIT_STAT.FULL_SEEN 1 n)

/-- Take one admitted action out of its FIFO: one alone, for the numbering of a queue starts again when it is re-enabled (R22). -/
def dropAdmitted (n : Nat) (a : Admitted) (s : State) : State :=
  refreshFifo n (s.setChip n { s.chip n with fifo := (s.chip n).fifo.erase a })

/-- A HOP of core `c` leaves its FIFO at its boundary: its busy interval ends, or goes on as a relock's (R103, R248). -/
def takeHop (c : Nat) (a : Admitted) (s : State) : State :=
  let s := dropAdmitted (c / 8) a s
  s.setCore c { s.core c with lastUse := s.clock }

/-- The first admitted HOP of core `c` of a class. -/
def State.hopIn (s : State) (c : Nat) (cls : HopClass) : Option Admitted :=
  firstOf ((s.chip (c / 8)).fifo.filter fun a =>
    (match a.hopOf with | some (k, _, _) => k == c | none => false) && a.cls == cls)

/-! ## Failing and completing a hop -/

/-- Clear `BAND_VALID` of hop context `ctx` (R108). A word that cannot be read is not written. -/
def clearBandValid (ctx : Nat) (s : State) : State :=
  if s.bankLost 0 then s
  else if s.ctxWordsBad ctx [0] then readCtxWords ctx [0] s
  else (readCtxWords ctx [0] s).setWord (128 * ctx) (s.word (128 * ctx) &&& 0xFFFFFFFD#32)

/-- An open hop fails before its switch tick: it stays in the FIFO, dead, so that its interval still counts (R108). -/
def failOpenHop (c reason : Nat) (r : HopRun) (s : State) : State :=
  let s := editAdmitted (c / 8) r.adm { r.adm with dead := true } s
  failHop c reason (closeWindow c s)

/-- R118: whether a port action of a HOP's own tick, later in the order of R201, has set the divider of port `p`. -/
def State.laterDiv (s : State) (a : Admitted) (p : Nat) : Bool :=
  match (s.port p).divKey with
  | some (k, at_) => k.1 == a.key.1 && keyLt a.key k && decide (s.clockOf (p / 128) a.due ≤ at_)
  | none => false

/-- The divider that the tests of R107 and R116 see at port `p`: a valid entry's, unless a later action of the tick has set it. -/
def entryDiv (s : State) (a : Admitted) (es : List (Nat × Nat)) (p : Nat) : Nat :=
  match es.reverse.find? fun e => e.1 == p && divValid e.2 with
  | some e => if s.laterDiv a p then s.divInForce p else e.2
  | none => s.divInForce p

/-- Apply a HOP's port entries (R124, R118): an entry for a port that the core does not drive is skipped. -/
def applyEntries (c : Nat) (a : Admitted) (es : List (Nat × Nat)) (s : State) : State :=
  forList es (fun e s =>
    if s.drivesPort c e.1 then
      if s.laterDiv a e.1 then portTimed e.1 s else applyEntry e.1 e.2 a.key s
    else s.put HOP_STAT.ENTRY_SKIP 1 c) s

/-- `LAST_PLACE` of R120: the driving half's rotator and residual. Where no placement follows a word load, the rotator keeps its
setting and the residual its value (DESIGN CHOICE, log entry 89). -/
def setLastPlace (c : Nat) (s : State) : State :=
  let x := s.half c (s.drive c)
  s.setWide (aLAST_PLACE c) (x.rot.toNat * 2 ^ 32 + x.resid.toNat)

/-- What a successful switch or release does to a port that its lock-loss policy holds (R137, R138). -/
def portIncoming (p : Nat) (squelched : Bool) (s : State) : State :=
  let st := s.get PORT_STAT.STATE p
  if st = psHold || (squelched && st == psPolicy && (s.port p).en) then setPortState p psRun s else s

/-! ## The ping-pong hop (R104 to R109) -/

/-- R103: whether a relock that core `c` made, or is making, covers part of an interval. -/
def State.spaceLost (s : State) (c : Nat) (iv : Nat × Nat) (cls : HopClass) : Bool :=
  (s.core c).busy.any fun b => overlaps iv b cls .relock

/-- A relock of core `c` holds an interval (R103). Intervals that ended more than 25,600 tk ago concern no test any more (R248). -/
def holdBusy (c : Nat) (iv : Nat × Nat) (s : State) : State :=
  let keep := (s.core c).busy.filter fun b => decide (s.count (c / 8) < b.2 + 25600)
  s.setCore c { s.core c with busy := iv :: keep }

/-- Load the captured word into the standby half (R104 stage 1). -/
def hopLoad (c : Nat) (r : HopRun) (s : State) : State :=
  match r.adm.hopOf with
  | none => s
  | some (_, _, ws) =>
    let h := 1 - s.drive c
    let w := ctxDiv ws r.adm.cached
    let s := s.setHalf c h { s.half c h with lastTimed := some s.clock }
    let (ok, s) := loadWord c h w false s.divInForce s
    let s := s.when (ok && w.search) (·.bump HOP_CNT2.SEARCHES c)
    let bad := ok && w.search && (s.half c h).search.isNone
    s.setCore c { s.core c with hop := some { r with loaded := true, wordBad := !ok, searchFail := bad } }

/-- The window of the first ping-pong HOP of core `c` opens, at W or where a step has passed over W (R104, R118), unless a relock has
covered it (R103) or the standby half is out of service, which makes it a relock (R101). -/
def openWindow (c : Nat) (s : State) : State :=
  let n := c / 8
  match s.hopIn c .pingPong with
  | none => s
  | some a =>
    if (s.core c).hop.isSome || a.dead || decide (s.count n < a.due - a.lead) then s
    else if s.spaceLost c (a.due - a.lead, a.due) .pingPong then
      failHop c 9 (editAdmitted n a { a with dead := true } s)
    else if !s.inService c (1 - s.drive c) then
      let pre := match a.hopOf with | some (_, _, ws) => (ctxDiv ws a.cached).preset | none => 3
      let s := editAdmitted n a { a with cls := .relock } s
      holdBusy c (a.due, a.due + relockLimit a.cached pre) s
    else
      let free := match a.hopOf with | some (_, _, ws) => (freePhase ws (s.chip n).gen).1 | none => true
      (s.setCore c { s.core c with hop := some { adm := a, free := free } }).put HOP_STAT.WINDOW 1 c

/-- The timed word of an open window that is still to be loaded. -/
def hopLoadDue (c : Nat) (s : State) : Option HopRun :=
  (s.core c).hop.filter fun r => !r.loaded && s.wordEdge c (1 - s.drive c) && decide (r.adm.due - r.adm.lead + 16 ≤ s.count (c / 8))

/-- HOP_WINDOW_OPEN (R104): the window opens; from W + 16 tk on the word is loaded with it, at a comparison edge of the half (R82). -/
def hopWindowOpenS (c : Nat) (s : State) : State :=
  if (s.core c).hop.isSome then s
  else
    let s := openWindow c s
    match hopLoadDue c s with
    | some r => hopLoad c r s
    | none => s

/-- HOP_PRELOCK_DONE (R105): the half that a hop or relock has loaded meets the pre-lock criterion. -/
def hopPrelockDoneS (c : Nat) (s : State) : State :=
  let x := s.core c
  match x.hop, x.relock with
  | some r, _ =>
    if r.loaded && !r.wordBad && !r.searchFail && (s.half c (1 - s.drive c)).search.isNone then
      s.setCore c { x with hop := some { r with prelock := true, prelockAt := s.clock } }
    else s
  | none, some r =>
    if r.loaded && !r.searchFail && (s.half c (s.drive c)).search.isNone then
      s.setCore c { x with relock := some { r with prelock := true, prelockAt := s.clock } }
    else s
  | none, none => s

/-- Place a half on a line (R106, R113): the rotator setting and the residual in fs. A switchover's settling that overlaps the placement
stage, which began at the clock `since`, degrades it. -/
def placeHalf (c h since : Nat) (l : Option PmLine) (rot : Word) (resid : Int) (s : State) : State :=
  let s := s.setHalf c h { s.half c h with line := l, rot := rot, resid := BitVec.ofInt 32 resid }
  s.when (l.isSome && (s.tb.sw.isSome || decide (since < s.tb.swEnded))) (·.put HOP_STAT.PM_DEGR 1 c)

/-- HOP_PLACEMENT_DONE (R106, R112): the incoming half stands on its context's line. A hop in free phase skips this stage. -/
def hopPlacementDoneS (c : Nat) (rot : Word) (resid : Int) (s : State) : State :=
  match (s.core c).hop with
  | some r =>
    if r.prelock && !r.free && !r.placed then
      let l := r.adm.hopOf.map fun x => ctxLine x.2.2
      let s := placeHalf c (1 - s.drive c) r.prelockAt l rot resid s
      s.setCore c { s.core c with hop := some { r with placed := true } }
    else s
  | none => s

/-- R107: the first reason for which a hop is not ready. -/
def notReady (s : State) (c : Nat) (r : HopRun) : Option Nat :=
  let d := s.drive c
  if !s.fullService then some 7
  else if r.wordBad then some 1
  else if !s.inService c (1 - d) || !s.inService c d then some 6
  else if r.searchFail then some 3
  else if !r.prelock then some 2
  else if !r.free && !r.placed then some 4
  else none

/-- The failure of an open hop under R107, with the clearing of a cached band on NOLOCK (R108, R118). -/
def failReady (c reason : Nat) (r : HopRun) (s : State) : State :=
  let s := failOpenHop c reason r s
  match r.adm.hopOf with
  | some (_, ctx, _) => if reason = 2 && r.adm.cached && !s.cdDown then clearBandValid ctx s else s
  | none => s

/-- A window of core `c` that a step of the replica has passed over, up to the readiness test of its HOP, opens only now (R118), unless the
core is frozen (R318). -/
def openMissed (c : Nat) (s : State) : State :=
  match s.hopIn c .pingPong with
  | some a =>
    if !s.frozen (RegId.CORE_CTRL.at c) && (s.core c).hop.isNone && decide (a.due ≤ s.count (c / 8) + 256) then openWindow c s else s
  | none => s

/-- HOP_READINESS_TEST (R107, R119): at Ts - 256 tk, or at the tick after a step that has passed it, even where the step has
passed the whole window (R118). -/
def hopReadinessTestS (c : Nat) (s : State) : State :=
  let s := openMissed c s
  match (s.core c).hop with
  | some r =>
    if !r.tested && decide (r.adm.due ≤ s.count (c / 8) + 256) then
      match notReady s c r with
      | some reason => failReady c reason r s
      | none => s.setCore c { s.core c with hop := some { r with tested := true } }
    else s
  | none => s

/-- The effects of a successful hop that every class shares (R109, R115, R117). -/
def hopSucceeds (c ctx : Nat) (s : State) : State :=
  let s := (s.bump HOP_CNT.HOPS c).put HOP_STAT.LAST_CTX ctx c
  s.setCore c { s.core c with lastUse := s.clock }

/-- A switch or release: `LAST_SWITCH`, `LAST_PLACE`, the line, and the ports that follow it. -/
def hopLands (c ctx : Nat) (ws : List Word) (at_ : Nat) (s : State) : State :=
  let fp := freePhase ws (s.chip (c / 8)).gen
  let s := (hopSucceeds c ctx s).raise 264
  let s := s.setWide (aLAST_SWITCH c) (ts80 at_)
  let d := s.drive c
  let s := s.when fp.1 fun s => s.setHalf c d { s.half c d with line := none }
  let s := s.put HOP_STAT.ON_LINE (if (s.half c d).line.isSome then 1 else 0) c
  let s := s.when fp.2 (·.put HOP_STAT.UNANCHORED 1 c)
  portsLine c (refreshPorts c (closeLoops c (setLastPlace c s)))

/-- The ports `ps` with the patterns that they emit from half `h` of core `c` up to tick `ts` (R110). -/
def outgoingOf (ps : List Nat) (c h ts : Nat) (s : State) : List (Nat × Pattern) × State :=
  ps.foldl (fun (l, s) p =>
    let (a, s) := outgoing p c h ts s
    (l ++ [(p, a)], s)) ([], s)

/-- The running ports of core `c` with the patterns that they emit. -/
def outgoingAll (c h ts : Nat) (s : State) : List (Nat × Pattern) × State :=
  outgoingOf ((s.portsOf c).filter s.portRuns) c h ts s

/-- R110 at the ports that ran: each passes from the pattern it emitted to its active word's on half `h`. -/
def incomingAll (c h ts : Nat) (outs : List (Nat × Pattern)) (s : State) : State :=
  forList outs (fun x s => incoming x.1 c h ts x.2 s) s

/-- The switch of R109: `DRIVE` changes, the entries apply, and the ports pass to the incoming half. -/
def switchNow (c ctx : Nat) (ws : List Word) (r : HopRun) (s : State) : State :=
  let h := 1 - s.drive c
  let (outs, s) := outgoingAll c (s.drive c) r.adm.due s
  let s := closeWindow c s
  let s := (s.put CORE_STAT.DRIVE h c).setHalf c h { s.half c h with guard := !s.locked c h }
  let s := incomingAll c h r.adm.due outs (applyEntries c r.adm (ctxEntries ws) (refreshOos c s))
  let s := s.when (s.locked c h) fun s => forList (s.portsOf c) (fun p => portIncoming p true) s
  forList (s.portsOf c) trimMotionStart (hopLands c ctx ws r.adm.due s)

/-- Whether another action must be applied at chiplet `n` before the ping-pong switch of `a`: every other action of its tick (R107), and
a ping-pong HOP that comes before it in the order of R17 and R201. One of its tick that still waits for a comparison edge (R82) holds
the switch back (DESIGN CHOICE, log entry 127). -/
def State.othersDue (s : State) (n : Nat) (a : Admitted) : Bool :=
  (s.chip n).fifo.any fun b => decide (b.due ≤ s.count n) &&
    ((!b.isPingPong && decide (b.key.1 ≤ a.key.1)) || (b.isPingPong && keyLt b.key a.key))

/-- The switch of core `c`'s first ping-pong HOP, once it is due (R107, R109): the ceiling test is made and the ports pass to the incoming
half, or the hop fails. -/
def switchDue (c : Nat) (s : State) : State :=
  match s.hopIn c .pingPong with
  | none => s
  | some a =>
    if s.count (c / 8) < a.due then s
    else if a.dead then takeHop c a s
    else
      match (s.core c).hop, a.hopOf with
      | some r, some (_, ctx, ws) =>
        if !r.tested then failReady c ((notReady s c r).getD 2) r (takeHop c a s)
        else if !s.inService c (s.drive c) then failReady c 6 r (takeHop c a s)
        else
          let h := 1 - s.drive c
          let s := takeHop c a s
          if ceilTest s.beforeCeil c (s.fvco c h) (entryDiv s a (ctxEntries ws)) then switchNow c ctx ws r s
          else failHop c 5 (closeWindow c s)
      | _, _ => s

/-- HOP_SWITCH (R107, R109): at Ts, after every other action of that tick, the ceiling test is made and the ports pass to the
incoming half. A hop that has failed leaves the FIFO here. A driving half that has left service since the test, as when a failover has
begun (R118), fails it with PARTNER (R101). -/
def hopSwitchS (c : Nat) (s : State) : State :=
  let n := c / 8
  match s.hopIn c .pingPong with
  | none => s
  | some a =>
    if s.count n < a.due || s.othersDue n a then s
    else switchDue c (openMissed c s)

/-! ## In place (R117) -/

/-- Check an in-lock word of a timed action against the ceilings before a write of the same boundary (R127), and apply it. -/
def loadTimed (c h : Nat) (w : DivWord) (divOf : Nat → Nat) (s : State) : Bool × State :=
  match checkWord s.beforeCeil c h w true divOf with
  | some bit => (false, refuseWord c h bit s)
  | none => (true, applyWord c h w s)

/-- R80: the dividers in force after every action applied at this tick: the state `s` has the word applied and the HOP's entries, and
the due port actions of the chiplet follow in the order of R201. -/
def State.divsAfter (s : State) (n : Nat) : State :=
  let due := (s.chip n).fifo.filter fun a => decide (a.due ≤ s.count n) && a.act.kind.port.isSome
  forList (due.mergeSort fun a b => !keyLt b.key a.key) (fun a s =>
    match a.act.kind with
    | .portset p v mask => if mask.testBit 5 then loadTimedWord p (portsetWord (s.portActive p) v mask) s else s
    | _ => s) s

/-- R80: the divider that port `p` will have once the word `w` of core `c`'s half `h`, the HOP entries `es` and every port action of this
tick have been applied. -/
def retuneDiv (s : State) (c h : Nat) (a : Option Admitted) (es : List (Nat × Nat)) (w : DivWord) (p : Nat) : Nat :=
  let due := (s.chip (c / 8)).fifo.any fun b => decide (b.due ≤ s.count (c / 8)) && b.act.kind.port == some p
  let waits := (s.port p).captured.isSome
  let own := match a with
    | some a => entryDiv s a es p
    | none => s.divInForce p
  if !due && !waits then own
  else
    let t := applyWord c h w s
    let t := match a with
      | some a => applyEntries c a es t
      | none => t
    let t := t.divsAfter (c / 8)
    (if waits then portWordApplyS p t else t).divInForce p

/-- HOP_INPLACE (R117, R119): the next action of the chiplet is an in-place HOP on core `c`, at a comparison edge of its driving half.
Where several reasons to fail hold at once, NOSERVICE is reported before SPACE and SPACE before PARTNER (DESIGN CHOICE, log entry
90). No line is placed, so that `UNANCHORED` is not set, whatever the context's anchor (DESIGN CHOICE, log entry 101). -/
def hopInplaceS (c : Nat) (s : State) : State :=
  let n := c / 8
  match s.nextAction n with
  | none => s
  | some a =>
    match a.hopOf with
    | none => s
    | some (k, ctx, ws) =>
      if k ≠ c || a.cls ≠ .inPlace then s
      else
        let s := takeHop c a s
        let d := s.drive c
        if a.dead then s
        else if !s.fullService then failHop c 7 s
        else if s.spaceLost c (a.due, a.due) .inPlace then failHop c 9 s
        else if !s.inService c d then failHop c 6 s
        else
          let es := (ctxEntries ws).filter fun e => s.srcCore e.1 == c
          let s := s.setHalf c d { s.half c d with lastTimed := some s.clock }
          let w := ctxDiv ws true
          let ts := s.count n
          let ps := (s.portsOf c).filter fun p => s.portRuns p && es.any fun e => e.1 == p && e.2 != s.divInForce p
          let (outs, s) := outgoingOf ps c d ts s
          let ph := (s.halfPhase c d ts).1
          let (ok, s) := loadTimed c d w (retuneDiv s c d (some a) es w) s
          if ok then
            let s := s.when (!ps.isEmpty) fun s => s.setHalf c d { s.half c d with own := some (ph, s.clock) }
            let s := incomingAll c d ts outs (applyEntries c a (ctxEntries ws) s)
            let s := hopSucceeds c ctx s
            portsLine c (refreshPorts c (closeLoops c s))
          else failHop c 1 s

/-! ## Relock (R115, R116) -/

/-- R116: the top of the VCO during a relock: the higher of the old frequency and the top of the new LC core. -/
def relockTop (s : State) (c : Nat) (w : DivWord) : Freq :=
  let old := s.fvco c (s.drive c)
  let top := mhz (if w.search then 19200 else (coreRange (w.band / 256)).2)
  if old.le top then top else old

/-- R143: one running port enters its relock hold: run-stale where R116 allows it, else static at the level that `RL_POL` names. -/
def enterRelock (c : Nat) (w : DivWord) (p : Nat) (s : State) : State :=
  if !s.portRuns p then s
  else
    let stale := s.get PORT_CFG.RL_POL p == 3 &&
      ((relockTop s c w).divBy (s.divInForce p)).le (Freq.ofHz (s.beforeCeil.get PORT_CEIL.CEIL_KHZ p * 1000))
    let pol := s.get PORT_CFG.RL_POL p
    enterHold p stale (s.setPort p { s.port p with rlPol := if pol = 3 && !stale then 0 else pol })

/-- The ports of a core leave their relock hold: those whose active word has `EN` = 1 run (R125), a run-stale port by the transition of
R110 from the pattern `outs` that it emitted (R143). -/
def leaveRelock (c : Nat) (outs : List (Nat × Pattern)) (s : State) : State :=
  let s := forList (s.portsOf c) freshWord s
  let s := incomingAll c (s.drive c) (s.count (c / 8)) outs s
  forList (s.portsOf c) (fun p s =>
    if s.get PORT_STAT.STATE p = psRelock then setPortState p (if (s.port p).en then psRun else psWord) s else s) s

/-- The ports of a core leave their relock hold on the unchanged half (R115). -/
def leaveUnmoved (c : Nat) (s : State) : State :=
  let (outs, s) := outgoingAll c (s.drive c) (s.count (c / 8)) s
  leaveRelock c outs s

/-- R118: a register commit that waits for the driving half as a relock begins is discarded with `CMT_BUSY`. -/
def relockDrops (c h : Nat) (s : State) : State :=
  if (s.half c h).pend.isSome then commitBusy c (dropPending c h s) else s

/-- RELOCK_START (R115 step 1, R119): the next action of the chiplet is a relock HOP on core `c`. The order of the reasons is that of
HOP_INPLACE (log entry 90). -/
def relockStartS (c : Nat) (s : State) : State :=
  let n := c / 8
  match s.nextAction n with
  | none => s
  | some a =>
    match a.hopOf with
    | none => s
    | some (k, _, ws) =>
      if k ≠ c || a.cls ≠ .relock then s
      else
        let s := takeHop c a s
        let w := ctxDiv ws a.cached
        let lim := relockLimit a.cached w.preset
        let lost := decide (a.lead ≤ 8) && s.spaceLost c (a.due, a.due + lim) .relock
        let s := holdBusy c (a.due, a.due + lim) s
        if a.dead then s
        else if !s.fullService then failHop c 7 s
        else if lost then failHop c 9 s
        else if !s.inService c (s.drive c) || !s.isSet HOP_CFG.RELOCK_EN c then failHop c 6 s
        else
          let free := (freePhase ws (s.chip n).gen).1
          let r : RelockRun := { adm := a, limit := a.due + lim, free := free }
          let s := (s.setCore c { s.core c with relock := some r, lastUse := s.clock })
          let s := relockDrops c (s.drive c) (s.put HOP_STAT.RELOCKING 1 c)
          refreshPorts c (closeLoops c (forList (s.portsOf c) (enterRelock c w) s))

/-- RELOCK_WORD_LOAD (R115 step 2): every port reports its hold, and the captured word is loaded, or refused and the relock ends. -/
def relockWordLoadS (c : Nat) (s : State) : State :=
  match (s.core c).relock with
  | some r =>
    match r.loaded, r.adm.hopOf with
    | false, some (_, _, ws) =>
      let d := s.drive c
      let w := ctxDiv ws r.adm.cached
      if !s.wordEdge c d then s
      else
      let s := s.setHalf c d { s.half c d with lastTimed := some s.clock }
      let (ok, s) := loadWord c d w false s.divInForce s
      if ok then
        let s := s.when w.search (·.bump HOP_CNT2.SEARCHES c)
        let bad := w.search && (s.half c d).search.isNone
        refreshPorts c (portsLine c (s.setCore c { s.core c with relock := some { r with loaded := true, searchFail := bad } }))
      else
        refreshPorts c (leaveUnmoved c (failHop c 1 (endRelock c s)))
    | _, _ => s
  | none => s

/-- RELOCK_RELEASE (R115 steps 3 and 4, R116): the relocked half has met R105 and is placed with rotator `rot` and residual
`resid`; if every port passes the test, the entries apply and the ports leave their hold. -/
def relockReleaseS (c : Nat) (rot : Word) (resid : Int) (s : State) : State :=
  match (s.core c).relock with
  | some r =>
    match r.adm.hopOf with
    | some (_, ctx, ws) =>
      let d := s.drive c
      if r.prelock && !r.ceilBad && (s.half c d).search.isNone &&
          decide (s.count (c / 8) < r.limit) then
        let (outs, s) := outgoingAll c d (s.count (c / 8)) s
        let s := s.when (!r.free) (placeHalf c d r.prelockAt (some (ctxLine ws)) rot resid)
        if ceilTest s.beforeCeil c (s.fvco c d) (entryDiv s r.adm (ctxEntries ws)) then
          let s := leaveRelock c outs (applyEntries c r.adm (ctxEntries ws) (endRelock c s))
          let s := (s.bump HOP_CNT2.RELOCKS c).when (s.locked c d) fun s =>
            forList (s.portsOf c) (fun p => portIncoming p false) s
          hopLands c ctx ws (s.count (c / 8)) s
        else s.setCore c { s.core c with relock := some { r with ceilBad := true } }
      else s
    | none => s
  | none => s

/-- RELOCK_TIMEOUT (R115 step 5, R137): at Ts + R lock is lost, whether the half has declared it or not, and the ports take their policies
(DEDUCED, log entry 100). -/
def relockTimeoutS (c : Nat) (s : State) : State :=
  match (s.core c).relock with
  | some r =>
    if r.limit ≤ s.count (c / 8) then
      let d := s.drive c
      let s := endRelock c s
      let s := if s.locked c d then lockWithdrawn c d s else s.raise (288 + c)
      lineLost c d (lockLossPolicy c (failHop c (if r.ceilBad then 5 else 8) s))
    else s
  | none => s

/-! ## Words, searches and write-back -/

/-- R114: after an uncached hop's or relock's search has found band `code`, the control die writes it back to the table. A context of
which a word that it reads is uncorrectable is marked, and takes none (R28). -/
def bandWriteBack (c code : Nat) (a : Admitted) (s : State) : State :=
  match a.hopOf with
  | none => s
  | some (_, ctx, ws) =>
    if !s.isSet HOP_CFG.WB_EN c then s
    else if s.cdDown || s.bankLost 0 then s.put HOP_STAT.WB_SKIP 1 c
    else
      let bad := s.ctxWordsBad ctx [0, 8, 48]
      let s := readCtxWords ctx [0, 8, 48] s
      if bad || (s.word (128 * ctx + 48)).toNat != ctxUses ws then s.put HOP_STAT.WB_SKIP 1 c
      else
        let w2 := withField (withField (s.word (128 * ctx + 8)) 0 10 code) 16 8 (s.get CHIP_TEMP.TEMP (c / 8))
        (s.setWord (128 * ctx + 8) w2).setWord (128 * ctx) (s.word (128 * ctx) ||| 2#32)

/-- BAND_SEARCH_STEP (R252, R253): one step of the search on a half, with what its end means for a hop, relock or failover. -/
def bandSearchStepS (c h count span : Nat) (s : State) : State :=
  let (s, res) := bandStep c h count span s
  match res with
  | none => s
  | some ok =>
    let code := s.get HALF_STAT.ACT_BAND c h
    let x := s.core c
    let standby := s.drive c != h
    let s := match x.hop, x.relock with
      | some r, _ =>
        if standby && r.loaded then
          if ok then bandWriteBack c code r.adm s else s.setCore c { s.core c with hop := some { r with searchFail := true } }
        else s
      | none, some r =>
        if standby || !r.loaded then s
        else if ok then bandWriteBack c code r.adm s
        else s.setCore c { s.core c with relock := some { r with searchFail := true } }
      | none, none => s
    forBelow 64 (fun k s =>
      match (s.core k).failover with
      | some f =>
        if f.spare = c && f.spareHalf = h && f.loaded && f.found.isNone then
          s.setCore k { s.core k with failover := some { f with found := some ok } }
        else s
      | none => s) s

/-- Whether an in-place HOP of core `c` is due, so that its word goes first at this edge (R84). -/
def State.inPlaceDue (s : State) (c : Nat) : Bool :=
  (s.chip (c / 8)).fifo.any fun a =>
    a.cls == .inPlace && !a.dead && decide (a.due ≤ s.count (c / 8)) &&
      (match a.hopOf with | some (k, _, _) => k == c | none => false)

/-- HALF_WORD_APPLY (R81, R82, R83, R84, R118): at a comparison edge of the half the timed word of an open window is loaded, or the
pending register commit is checked and applied, after a timed word of the same edge. A register commit pending for the standby half
of an open window is discarded. -/
def halfWordApplyS (c h : Nat) (s : State) : State :=
  let standby := s.drive c != h
  if !s.wordEdge c h then s
  else
  match if standby then hopLoadDue c s else none with
  | some r => hopLoad c r s
  | none =>
    if (s.half c h).pend.isSome && ((standby && s.isSet HOP_STAT.WINDOW c) || (!standby && s.isSet HOP_STAT.RELOCKING c)) then
      commitBusy c (dropPending c h s)
    else if !standby && s.inPlaceDue c then s
    else
      let s := applyPending c h (retuneDiv s c h none []) s
      if standby then s else refreshPorts c (portsLine c (closeLoops c s))

/-! ## Failover to a spare (R139 to R141) -/

/-- A failover that cannot complete (R141). -/
def failoverFails (c : Nat) (f : FailoverRun) (s : State) : State :=
  let s := s.setCore c { s.core c with failover := none }
  let s := match s.groupOf c with
    | some g => s.put LG_STAT.FO_FAIL 1 g
    | none => s
  refreshPorts c (forList f.ports failoverElse s)

/-- FAILOVER_SPARE_LOAD (R139 steps 2 and 3, R140): the failed half's word is loaded into
the spare with a `PRESET` of at least 3 at a comparison edge, and the narrow search begins. -/
def failoverSpareLoadS (c : Nat) (s : State) : State :=
  match (s.core c).failover with
  | some f =>
    if f.loaded || !s.wordEdge f.spare f.spareHalf then s
    else
      let low := decide (f.word.preset < 3)
      let w := if low then { f.word with preset := 3 } else f.word
      let s := s.when low fun s => forList f.ports (fun p s => s.put PORT_STAT.FO_PRESET 1 p) s
      let (ok, s) := loadNarrow f.spare f.spareHalf w f.word.band s
      if ok then
        let bad := (s.half f.spare f.spareHalf).search.isNone
        s.setCore c { s.core c with
          failover := some { f with loaded := true, found := if bad then some false else none } }
      else failoverFails c f s
  | none => s

/-- FAILOVER_SEARCH_DONE (R139, R141): the narrow search has ended, at a band or without one. -/
def failoverSearchDoneS (c : Nat) (s : State) : State :=
  match (s.core c).failover with
  | some f => if f.found = some false then failoverFails c f s else s
  | none => s

/-- FAILOVER_PRELOCK_DONE (R139 step 4). -/
def failoverPrelockDoneS (c : Nat) (s : State) : State :=
  match (s.core c).failover with
  | some f =>
    if f.found = some true then s.setCore c { s.core c with failover := some { f with prelock := true, prelockAt := s.clock } } else s
  | none => s

/-- R139 step 6 at one port: it takes the spare as its source and leaves its squelch, or fails the ceiling test. One whose active word has
`EN` = 0 is squelched by that word (R125). -/
def failoverPort (sp : Nat) (onLine : Bool) (p : Nat) (s : State) : State :=
  let s := s.put PORT_STAT.ACT_SRC (sp % 8) p
  let f := (s.fvco sp (s.drive sp)).divBy (s.divInForce p)
  let s := s.when (!onLine) (·.put PORT_STAT.FO_FREE 1 p)
  if !(s.port p).en then setPortState p psWord s
  else if portLimits s p f f then
    let s := setPortState p psRun s
    s.put PORT_STAT.ON_LINE (if onLine then 1 else 0) p
  else squelchPolicy p (s.put PORT_STAT.CEIL_TRIP 1 p)

/-- FAILOVER_PLACED (R139 steps 5 to 7, R141): the spare half stands on the failed half's line, or is aligned in free phase; the ports
are released on the spare, which is in use if it drives one of them. A released port begins to be measured, which starts an
attempt of the skew loop (R258). -/
def failoverPlacedS (c : Nat) (rot : Word) (resid : Int) (s : State) : State :=
  match (s.core c).failover with
  | some f =>
    if f.prelock then
      let sp := f.spare
      let s := s.setCore c { s.core c with failover := none }
      let s := placeHalf sp f.spareHalf f.prelockAt f.line rot resid s
      let s := s.put CORE_STAT.DRIVE f.spareHalf sp
      let s := (s.setHalf sp f.spareHalf { s.half sp f.spareHalf with guard := !s.locked sp f.spareHalf })
      let s := setLastPlace sp (s.put HOP_STAT.ON_LINE (if f.line.isSome then 1 else 0) sp)
      let s := match s.groupOf c with
        | some g =>
          if f.ports.isEmpty then s
          else (s.put LG_STAT.SPARE_USED (s.get LG_STAT.SPARE_USED g ||| 2 ^ (c / 8)) g).bump LG_CNT.FAILOVERS g
        | none => s
      let s := releaseSpare sp (forList f.ports (failoverPort sp f.line.isSome) (refreshOos sp s))
      refreshPorts sp (refreshPorts c s)
    else s
  | none => s

end Sys2Proof.Machine
end

