-- ==== Sys2Proof/Machine/Teasel.lean ====
section
/-! DEFINITION. Teasel (R152 to R181): edges and stamps, triggers and gates, measurements and their samples, statistics and
results, records and rings. -/

namespace Sys2Proof.Machine

/-! ## Channels -/


/-- The local index of channel `k` (R152). -/
def chanLocal (k : Nat) : Nat := if k < 1024 then k % 128 else 128 + (k - 1024) % 32

/-- The channel with local index `l` on chiplet `n`. -/
def chanOf (n l : Nat) : Nat := if l < 128 then 128 * n + l else 1024 + 32 * n + (l - 128)

/-- The channels of chiplet `n`. -/
def chansOn (n : Nat) : List Nat := (List.range 160).map (chanOf n)

def State.chan (s : State) (k : Nat) : Chan := SMap.get (fun _ => {}) s.chans k
def State.setChan (s : State) (k : Nat) (x : Chan) : State := { s with chans := SMap.set (fun _ => {}) s.chans k x }

/-- Read and write a field of a channel's block. -/
def State.ts (s : State) (f : Fld) (k : Nat) : Nat := s.get f (k / 8) (k % 8)
def State.tsSet (s : State) (f : Fld) (k v : Nat) : State := s.put f v (k / 8) (k % 8)
def State.tsBump (s : State) (f : Fld) (k : Nat) : State := s.bump f (k / 8) (k % 8)

/-! ## The measurement word (R158) -/

def mwMode (w : Nat) : Nat := w % 4
def mwSigned (w : Nat) : Bool := w.testBit 2
def mwStart (w : Nat) : Nat := w / 8 % 4
def mwStop (w : Nat) : Nat := w / 32 % 4
def mwStopSrc (w : Nat) : Nat := w / 128 % 256
def mwOut (w : Nat) : Nat := w / 32768 % 4
def mwRing (w : Nat) : Nat := w / 131072 % 32
def mwGate (w : Nat) : Nat := w / 4194304 % 4
def mwGateSrc (w : Nat) : Nat := w / 16777216 % 32

/-- Whether an edge has the polarity of an edge field: 0 rising, 1 falling, 2 both. -/
def polarity (f : Nat) (fall : Bool) : Bool := f == 2 || (f == 1 && fall) || (f == 0 && !fall)

/-- The stop channel of a measurement on channel `k`. -/
def stopChan (k w : Nat) : Nat := if mwStopSrc w = 255 then k else chanOf (chanChip k) (mwStopSrc w)

/-- The gate channel of a measurement on channel `k`. -/
def gateChan (k w : Nat) : Nat := 1024 + 32 * chanChip k + mwGateSrc w

/-- Whether a channel is an event channel with its comparator disabled (R160 check 3). -/
def State.inOff (s : State) (k : Nat) : Bool := decide (1024 ≤ k) && s.ts TS_IN.IN_EN k == 0

/-- R160: the `TS_ERR` bit of the first check that fails. No check looks at the reserved bits [31:29] of the word: they are ignored (DESIGN
CHOICE, log entry 110). -/
def checkArm (s : State) (k w tmo : Nat) : Option Nat :=
  let m := mwMode w
  let test := s.get TSG_CFG.TEST (k / 8) == 1
  if m = 3 || mwOut w = 0 || (m = 0 && mwOut w % 2 = 1) || mwStart w = 3 || (m = 1 && mwStop w = 3) then some 0
  else if m = 1 && 160 ≤ mwStopSrc w && mwStopSrc w ≠ 255 then some 1
  else if s.inOff k || (m == 1 && s.inOff (stopChan k w)) || (mwGate w != 0 && s.inOff (gateChan k w)) then some 2
  else if 2 ≤ mwOut w && s.get RING_CFG.EN (mwRing w) = 0 then some 3
  else if mwGate w = 0 && s.fullService && !test then some 4
  else if tmo = 0 && (mwGate w == 0 || !s.fullService || test) then some 5
  else if (s.chan k).meas.any fun m => m.disAt.isNone then some 6
  else none

/-! ## Items that wait for END records (R173) -/

/-- The item of queue `q` with sequence `n`. -/
def State.item (s : State) (q n : Nat) : Option Item := (s.queue q).items.find? fun i => i.seq == n

/-- Change one item of a queue. -/
def editItem (q n : Nat) (f : Item → Item) (s : State) : State :=
  let x := s.queue q
  s.setQueue q { x with items := x.items.map fun i => if i.seq == n then f i else i }

/-- An ARM's wait begins or ends. -/
def addWait (k : Nat) (r : Nat × Nat × Nat) (s : State) : State :=
  editItem r.1 r.2.1 (fun i => { i with recs := i.recs ++ [(k, r.2.2)] }) s
def endWait (k : Nat) (r : Nat × Nat × Nat) (s : State) : State :=
  editItem r.1 r.2.1 (fun i => { i with recs := i.recs.erase (k, r.2.2) }) s

/-! ## Records and rings -/

/-- The records a ring holds (R170). -/
def State.ringCap (s : State) (r : Nat) : Nat := 256 * s.get RING_CFG.SIZE r

def State.ringFull (s : State) (r : Nat) : Bool := decide (s.ringCap r ≤ s.get RING_STAT.LEVEL r)

/-- R172: records of a channel wait on a full ring. -/
def markStall (k : Nat) (s : State) : State :=
  let s := s.tsSet TS_STAT.RING_STALL k 1
  if (s.chan k).stalled then s else (s.setChan k { s.chan k with stalled := true }).raise 273

/-- R172: a record that the full buffer has no room for is counted into the GAP record that waits behind it. -/
def missRec (r : Rec) (late : List Rec) : List Rec :=
  match late.getLast? with
  | some g =>
    if g.kind = 3 && g.ring == r.ring then late.dropLast ++ [{ g with payload := g.payload + 1 }]
    else late ++ [{ ring := r.ring, kind := 3, payload := 1, redPrec := r.redPrec }]
  | none => [{ ring := r.ring, kind := 3, payload := 1, redPrec := r.redPrec }]

/-- R172: hand a record to the channel's record buffer of 16; with a full buffer, or a GAP or END record that waits behind it, none is
formed. -/
def pushRec (k : Nat) (r : Rec) (s : State) : State :=
  let s := s.when (s.ringFull r.ring) (markStall k)
  let x := s.chan k
  if x.buf.length < 16 && x.late.isEmpty then s.setChan k { x with buf := x.buf ++ [r] }
  else (s.setChan k { x with late := missRec r x.late }).tsBump TS_CNT3.MISSED k

/-- The END record comes after every other record of its measurement, and waits for space as any record does (R172). -/
def pushEnd (k : Nat) (r : Rec) (s : State) : State :=
  let x := s.chan k
  if x.buf.length < 16 && x.late.isEmpty then s.setChan k { x with buf := x.buf ++ [r] }
  else s.setChan k { x with late := x.late ++ [r] }

/-- R172: space returns in the buffer, and the first GAP or END record that waits behind it enters. -/
def Chan.refill (x : Chan) : Chan :=
  match x.late with
  | [] => x
  | r :: rest => if x.buf.length < 16 then { x with buf := x.buf ++ [r], late := rest } else x

/-- The 16 bytes of a record (R169). -/
def recBytes (k seq : Nat) (r : Rec) : List Byte :=
  leBytes 8 r.payload ++ leBytes 2 r.frac ++
    leBytes 2 (k + r.kind * 2 ^ 11 + (if r.redPrec then 2 ^ 14 else 0) + (if r.unres then 2 ^ 15 else 0)) ++
    leBytes 2 seq ++ [0, 0]

/-- The memory offset of record `w` of ring `r` (R170). -/
def State.ringAddr (s : State) (r w : Nat) : Nat := 0x01A14000 + 4096 * s.get RING_CFG.BASE r + 16 * w

/-- After a record has left the buffer. -/
def afterRecord (k : Nat) (rest : List Rec) (r : Rec) (s : State) : State :=
  let x := Chan.refill { s.chan k with buf := rest }
  let s := s.setChan k { x with stalled := !x.buf.isEmpty && x.stalled }
  if r.kind = 4 then (r.item.map fun i => endWait k i s).getD s else s

/-- RECORD_STORE (R171, R172, R173): the first waiting record of a channel is written to its ring when space allows. A lost bank
takes no record: it is counted in `MISSED`, and an END record counts as stored (R418). -/
def recordStoreS (k : Nat) (s : State) : State :=
  match (s.chan k).buf with
  | [] => s
  | r :: rest =>
    if s.cdDown || s.get RING_CFG.EN r.ring = 0 then s
    else if s.ringFull r.ring then markStall k s
    else
      let w := s.get RING_WR.WR r.ring
      let a := s.ringAddr r.ring w
      if s.bankLost (bankOf a) then afterRecord k rest r (s.tsBump TS_CNT3.MISSED k)
      else
        let n := (SMap.get (fun _ => 0) s.ringSeq r.ring + 1) % 65536
        let s := freshRecord a (s.store a (recBytes k n r))
        let s := { s with ringSeq := SMap.set (fun _ => 0) s.ringSeq r.ring n }
        let s := (s.put RING_WR.WR ((w + 1) % s.ringCap r.ring) r.ring).bump RING_STAT.LEVEL r.ring
        afterRecord k rest r (s.when (s.ringFull r.ring) (·.put RING_STAT.FULL_SEEN 1 r.ring))

/-- Whether an armed measurement whose `OUT` includes records names ring `r` (R171; DESIGN CHOICE, log entry 132). -/
def State.ringNamed (s : State) (r : Nat) : Bool :=
  s.chans.any fun e => match e.2.meas with
    | some m => decide (2 ≤ mwOut m.word) && mwRing m.word == r
    | none => false

/-- A write to `RING_CFG` (R171): the value to store. -/
def hookRingCfg (r : Nat) (old new : Word) (s : State) : Word × State :=
  let v := if fieldOf new 10 10 = 0 then withField new 10 10 1 else new
  let lo := fieldOf v 0 10
  let hi := lo + fieldOf v 10 10
  let clash := (List.range 32).any fun q =>
    q != r && s.isSet RING_CFG.EN q && decide (lo < s.get RING_CFG.BASE q + s.get RING_CFG.SIZE q) &&
      decide (s.get RING_CFG.BASE q < hi)
  let en := fieldOf v 20 1 == 1
  if s.ringNamed r || (en && (decide (748 < hi) || clash)) then (old, s.put RING_STAT.CFGBAD 1 r)
  else if en then
    let s := ((s.put RING_WR.WR 0 r).put RING_RD.RD 0 r).put RING_STAT.LEVEL 0 r
    (v, { s with ringSeq := SMap.set (fun _ => 0) s.ringSeq r 0 })
  else (v, s)

/-- A write to `RING_REL` (R171). It reads 0. -/
def ringRelS (r : Nat) (v : Word) (s : State) : State :=
  let n := fieldOf v 0 18
  let lvl := s.get RING_STAT.LEVEL r
  if lvl < n then s.put RING_STAT.RELBAD 1 r
  else (s.put RING_RD.RD ((s.get RING_RD.RD r + n) % s.ringCap r) r).put RING_STAT.LEVEL (lvl - n) r

/-! ## Results (R167, R168, R181) -/

/-- The integer square root, bit by bit from bit `k` down. -/
def isqrtFrom (x : Nat) : Nat → Nat → Nat
  | 0, r => r
  | k + 1, r => isqrtFrom x k (if (r + 2 ^ k) * (r + 2 ^ k) ≤ x then r + 2 ^ k else r)

/-- The integer square root of a number below 2^192. -/
def isqrt (x : Nat) : Nat := isqrtFrom x 96 0

/-- Round a / n to the nearest integer, ties away from zero (R168). -/
def roundDiv (a : Int) (n : Nat) : Int :=
  let q : Nat := (2 * a.natAbs + n) / (2 * n)
  if a < 0 then -(q : Int) else q

/-- `SDEV` of R168 before its 64-bit field: whole steps and sixty-five-thousand-five-hundred-and-thirty-sixths. -/
def sdevOf (n : Nat) (s1 : Int) (s2 : Nat) : Nat :=
  if n ≤ 1 then 0 else isqrt ((s2 * n - s1.natAbs * s1.natAbs) * 2 ^ 32 / (n * (n - 1)))

/-- The result block of R181. `endTs` is the TS80 of the end, `gen` the channel's count of ended measurements. -/
def resultBytes (m : Meas) (code : Nat) (redPrec : Bool) (gen endTs sdev : Nat) : List Byte :=
  let b := fun (x : Bool) (i : Nat) => if x then 2 ^ i else 0
  let stats := mwMode m.word != 0 && m.count != 0
  let mean := if stats then roundDiv (m.pivot * m.count + m.s1) m.count else 0
  let mean80 := twos 80 mean
  leBytes 4 m.count ++
    leBytes 4 (code + b m.sqOvf 4 + b m.unres 5 + b redPrec 6 + b (m.count != 0) 8 + b m.range 9 + b m.overrun 10 +
      gen % 65536 * 65536) ++
    leBytes 8 (mean80 / 65536) ++ leBytes 2 mean80 ++ leBytes 6 0 ++ leBytes 8 sdev ++
    leBytes 8 (twos 64 (if stats then m.minX else 0)) ++ leBytes 8 (twos 64 (if stats then m.maxX else 0)) ++
    leBytes 8 (endTs / 65536) ++ leBytes 2 endTs ++ leBytes 6 0

/-- R145, R175: the skew loop's partial mean at a port monitor is discarded, and a new one begins at the next boundary. -/
def skewAgain (k : Nat) (s : State) : State :=
  if k < 1024 then s.setPort k { s.port k with skFrom := s.clock + 1 } else s

/-- Put the state code of a channel's code-density instance. -/
def cdState (k v : Nat) (s : State) : State := s.put CD_STAT.ST v (chanChip k) (chanLocal k)

/-- A code table, or none for factory linear scaling, takes effect on channel `k` from the bank that holds it (R257, R260). The offset of a
port monitor is taken again after a change of its table (R146). -/
def cdInstall (k : Nat) (t : Option (List Nat)) (s : State) : State :=
  let s := s.setChan k { s.chan k with cdTable := t, cdWait := none, cdLast := if t.isSome then s.clock else (s.chan k).cdLast }
  let s := (cdState k (if t.isSome then 3 else 0) s).put CD_STAT.LOADED (if t.isSome then 1 else 0) (chanChip k) (chanLocal k)
  let s := s.tsSet TS_STAT.RED_PREC k (if t.isSome && s.get SOR_STAT.SRC != 3 then 0 else 1)
  if k < 1024 then s.setPort k { s.port k with ofsDue := true } else s

/-- A code table that is loaded takes effect while no measurement is armed on its channel, else at the measurement's end (R176). With the
calibration cache lost nothing is loaded, and the table in force is kept (R418). -/
def reloadTable (k : Nat) (t : Option (List Nat)) (s : State) : State :=
  if s.bankLost 14 then s
  else if (s.chan k).meas.isSome then s.setChan k { s.chan k with cdWait := some t } else cdInstall k t s

/-- R176: a measurement runs to its end on the table that it began with; a table that waits for the end takes effect there, but not while
the trims of its chiplet are frozen (R36, R418). -/
def cdInstallDue (k : Nat) (s : State) : State :=
  match (s.chan k).cdWait with
  | some t => if s.trimsFrozen (chanChip k) then s else cdInstall k t s
  | none => s

/-- MEAS_END (R166, R168): the measurement on channel `k` ends with a code at stamp `endTs`. With ABORT no result is formed, so that neither
`DONE` nor MEASDONE follows (DESIGN CHOICE, log entry 108). A deviation that does not fit its 64 bits is not stated: it is a free value. -/
def measEnd (k code endTs : Nat) (s : State) : State :=
  match (s.chan k).meas with
  | none => s
  | some m =>
    let x := s.chan k
    let red := s.ts TS_STAT.RED_PREC k == 1
    let s := ((s.tsSet TS_STAT.ARMED k 0).tsSet TS_STAT.OPEN k 0).tsSet TS_STAT.LAST_END k code
    let gen := (x.gen + 1) % 65536
    let raw := sdevOf m.count m.s1 m.s2
    let (f, s) := if 2 ^ 64 ≤ raw then s.free 64 else (raw, s)
    let sd := if mwMode m.word = 0 || m.count = 0 then 0 else if m.sqOvf then 2 ^ 64 - 1 else f
    let res := if code = 6 then [] else [resultBytes m code red gen endTs sd]
    let s := s.setChan k { s.chan k with meas := none, taps := [], gen := gen, results := x.results ++ res }
    let s := cdInstallDue k (skewAgain k s)
    if 2 ≤ mwOut m.word then
      pushEnd k { ring := mwRing m.word, kind := 4, payload := m.count + code * 2 ^ 32, redPrec := red, item := m.item } s
    else s

/-- MEASDONE (R166, R168, R180): the result of an ended measurement is stored, `DONE` is set and MEASDONE is raised. -/
def measDoneS (k : Nat) (s : State) : State :=
  match (s.chan k).results with
  | [] => s
  | r :: rest =>
    if s.cdDown then s
    else
      let s := s.setChan k { s.chan k with results := rest }
      let s := if s.bankLost 13 then s else s.store (0x01A00000 + 64 * k) r
      (s.tsSet TS_STAT.DONE k 1).raise 271

/-! ## Samples (R161 to R164) -/

/-- The resolution window of R163 as a test on a difference in fraction steps: 1.0 ps between port monitors, else 2.0 ps. -/
def unresolved (k stop diff : Nat) : Bool :=
  decide (diff * 3125 < (if k < 1024 && stop < 1024 then 655360 else 1310720))

/-- A sample `x` is taken into the statistics (R167). -/
def Meas.accumulate (m : Meas) (x : Int) : Meas :=
  let p := if m.count = 0 then x else m.pivot
  let d := x - p
  let s2 := m.s2 + d.natAbs * d.natAbs
  { m with
    count := m.count + 1, pivot := p, s1 := m.s1 + d
    s2 := if 2 ^ 128 ≤ s2 then 2 ^ 128 - 1 else s2
    sqOvf := m.sqOvf || decide (2 ^ 128 ≤ s2)
    minX := if m.count = 0 || x < m.minX then x else m.minX
    maxX := if m.count = 0 || m.maxX < x then x else m.maxX }

/-- After a sample or stamp: `LIVE`, the record, and the end by count (R166). -/
def sampleDone (k : Nat) (m : Meas) (stamp : Nat) (r : Rec) (s : State) : State :=
  let s := s.setChan k { s.chan k with meas := some m }
  let s := s.tsSet TS_LIVE.LIVE k m.count
  let s := s.when (decide (2 ≤ mwOut m.word)) (pushRec k r)
  if m.n ≠ 0 && m.n ≤ m.count then measEnd k 1 stamp s
  else if m.n = 0 && 4294967295 ≤ m.count then measEnd k 5 stamp s
  else s

/-- A sample `x` of an INTERVAL (kind 1) or PERIOD (kind 2) measurement, unless it is out of range (R164). -/
def takeSample (k : Nat) (m : Meas) (x : Int) (un : Bool) (kind stamp : Nat) (s : State) : State :=
  if 2 ^ 48 ≤ x.natAbs then
    (s.setChan k { s.chan k with meas := some { m with range := true } }).tsBump TS_CNT4.RANGE k
  else
    let m := { m.accumulate x with unres := m.unres || un }
    let s := s.when un (·.tsBump TS_CNT2.UNRES k)
    sampleDone k m stamp
      { ring := mwRing m.word, kind := kind, payload := twos 64 x, redPrec := s.ts TS_STAT.RED_PREC k == 1, unres := un } s

/-- The sample of a pair (R163). -/
def takePair (k : Nat) (m : Meas) (tStart tStop stamp : Nat) (s : State) : State :=
  let x : Int := (tStop : Int) - tStart
  let un := unresolved k (stopChan k m.word) x.natAbs
  takeSample k m (if un then 0 else x) un 1 stamp s

/-- Discard a pending edge older than 2^32 tk (R164). -/
def fresh (now : Nat) (p : Option Nat) : Option Nat := p.filter fun t => decide (now ≤ t + 2 ^ 48)

/-- R166: the boundary of the timeout as a stamp; only edges stamped before it take part. -/
def Meas.limit (m : Meas) : Option Nat := if m.tmo = 0 then none else some ((m.ta + 64 * m.tmo) * 65536)

/-- Whether an edge stamped `t` comes before every end of the measurement that is known (R165, R166). -/
def Meas.takesPart (m : Meas) (t : Nat) : Bool :=
  (match m.openAt with | some u => decide (u ≤ t) | none => false) && decide (m.ta * 65536 ≤ t) &&
    (match m.limit with | some u => decide (t < u) | none => true)

/-- A start edge in INTERVAL mode (R162). In STRICT mode a stop that came just before, within the window of R163, still pairs. -/
def startEdge (k : Nat) (m : Meas) (t : Nat) (s : State) : State :=
  match m.pendStop with
  | some u =>
    if mwSigned m.word || unresolved k (stopChan k m.word) (t - u) then
      takePair k { m with pendStop := none, pendStart := none } t u t s
    else
      (s.setChan k { s.chan k with meas := some { m with pendStop := none, pendStart := some t } }).tsBump
        TS_CNT1.ORPHAN_STOP k
  | none =>
    let s := s.when m.pendStart.isSome (·.tsBump TS_CNT2.ORPHAN_START k)
    s.setChan k { s.chan k with meas := some { m with pendStart := some t } }

/-- R163: whether a start of the measurement, which follows in the front FIFO, falls within the window of a stop stamped `t`. -/
def State.startFollows (s : State) (k : Nat) (m : Meas) (t : Nat) : Bool :=
  (s.chan k).fifo.any fun e => decide (t ≤ e.stamp) && polarity (mwStart m.word) e.fall && m.takesPart e.stamp &&
    unresolved k (stopChan k m.word) (e.stamp - t)

/-- A stop edge in INTERVAL mode (R162). A STRICT stop with no pending start is an orphan, unless a start follows within the
window of R163. -/
def stopEdge (k : Nat) (m : Meas) (t : Nat) (s : State) : State :=
  match m.pendStart with
  | some u => takePair k { m with pendStart := none } u t t s
  | none =>
    if !mwSigned m.word && !s.startFollows k m t then
      (s.setChan k { s.chan k with meas := some m }).tsBump TS_CNT1.ORPHAN_STOP k
    else
    let s := s.when m.pendStop.isSome (·.tsBump TS_CNT1.ORPHAN_STOP k)
    s.setChan k { s.chan k with meas := some { m with pendStop := some t } }

/-- One edge of the channel's own input (`own`) or a tapped stop edge takes part in the measurement (R161, R165). -/
def useEdge (k : Nat) (own : Bool) (e : Edge) (s : State) : State :=
  match (s.chan k).meas with
  | none => s
  | some m =>
    let m := { m with newRef := m.newRef || (own && e.ovr) }
    let s := s.setChan k { s.chan k with meas := some m }
    if !m.takesPart e.stamp then s
    else
      let start := own && polarity (mwStart m.word) e.fall
      let m := { m with pendStart := fresh e.stamp m.pendStart, pendStop := fresh e.stamp m.pendStop }
      if mwMode m.word = 0 then
        if start then
          sampleDone k { m with count := m.count + 1 } e.stamp
            { ring := mwRing m.word, kind := 0, payload := e.stamp / 65536, frac := e.stamp % 65536,
              redPrec := s.ts TS_STAT.RED_PREC k == 1 } s
        else s
      else if mwMode m.word = 2 then
        if start then
          if m.newRef then s.setChan k { s.chan k with meas := some { m with newRef := false, prev := e.stamp } }
          else takeSample k { m with prev := e.stamp } ((e.stamp : Int) - m.prev) false 2 e.stamp s
        else s
      else
        let stop := (!own || stopChan k m.word == k) && polarity (mwStop m.word) e.fall
        let s := s.setChan k { s.chan k with meas := some m }
        if start && stop && m.pendStart.isSome then
          let s := stopEdge k m e.stamp s
          match (s.chan k).meas with
          | some m' => startEdge k m' e.stamp s
          | none => s
        else if start then startEdge k m e.stamp s
        else if stop then stopEdge k m e.stamp s
        else s

/-- The edge with the earliest stamp in the front FIFO and the taps. -/
def Chan.nextEdge (x : Chan) : Option Edge :=
  match x.fifo, x.taps with
  | [], [] => none
  | e :: _, [] => some e
  | [], e :: _ => some e
  | e :: _, u :: _ => if e.stamp ≤ u.stamp then some e else some u

/-- Take the earliest stamp from the front FIFO or the taps (R161). -/
def takeOne (k : Nat) (s : State) : State :=
  let x := s.chan k
  match x.fifo, x.taps with
  | [], [] => s
  | e :: es, [] => useEdge k true e (s.setChan k { x with fifo := es })
  | [], e :: es => useEdge k false e (s.setChan k { x with taps := es })
  | e :: es, u :: us =>
    if e.stamp ≤ u.stamp then useEdge k true e (s.setChan k { x with fifo := es })
    else useEdge k false u (s.setChan k { x with taps := us })

/-- SAMPLE_TAKE (R155, R161): the sample path takes one stamp, once its tick has passed: every edge stamped before it, every gate
edge of its own stamp, and every edge within the window of R163 has then arrived (R165, R177). -/
def sampleTakeS (k : Nat) (s : State) : State :=
  if (s.chan k).nextEdge.any fun e => decide (e.at_ + (if e.late then 1 else 0) < s.clock) then takeOne k s else s

/-- Take every stamp that the channel and its taps hold, while the measurement runs. -/
def drain (k : Nat) : Nat → State → State
  | 0, s => s
  | n + 1, s => if (s.chan k).meas.isSome then drain k n (takeOne k s) else s

/-- Every edge that satisfies `p` takes part, in stamp order; the others stay in the front FIFO. -/
def takeThose (k : Nat) (p : Edge → Bool) (f : State → State) (s : State) : State :=
  let x := s.chan k
  let s := s.setChan k { x with fifo := x.fifo.filter p, taps := x.taps.filter p }
  let s := f (drain k (x.fifo.length + x.taps.length) s)
  s.setChan k { s.chan k with fifo := (s.chan k).fifo ++ x.fifo.filter fun e => !p e }

/-- The measurement on channel `k` ends with a code at stamp `endTs`: every edge stamped before it has taken part. An edge of that
very stamp that ends it with a lower code does so (R166, R177). -/
def endNow (k code endTs : Nat) (s : State) : State :=
  let v := takeThose k (fun e => decide (e.stamp < endTs)) id s
  let u := takeThose k (fun e => decide (e.stamp ≤ endTs)) id s
  if (v.chan k).meas.isNone then v
  else if (u.chan k).meas.isNone && decide (u.ts TS_STAT.LAST_END k < code) then u
  else takeThose k (fun e => decide (e.stamp < endTs)) (measEnd k code endTs) s

/-- The end events of a measurement that are known, each with its code and stamp: a gate that has closed, the timeout, and a register
disarm that has applied. -/
def Meas.ends (m : Meas) : List (Nat × Nat) :=
  (m.closing.map ((2, ·))).toList ++ (m.limit.map ((3, ·))).toList ++ (m.disAt.map ((4, ·))).toList

/-- Of two end events the one that comes first, or has the lower code on one stamp (R166). -/
def earlierEnd (a b : Nat × Nat) : Nat × Nat := if b.2 < a.2 || (b.2 == a.2 && decide (b.1 < a.1)) then b else a

/-- The end event of a measurement that comes first (R166): one that is known, or the event of the given code and stamp. -/
def Meas.firstEnd (m : Meas) (code endTs : Nat) : Nat × Nat := m.ends.foldl earlierEnd (code, endTs)

/-- A measurement ends at a boundary, or at the end event that came before it (R166). -/
def endAt (k code endTs : Nat) (s : State) : State :=
  match (s.chan k).meas with
  | none => s
  | some m =>
    let e := m.firstEnd code endTs
    endNow k e.1 e.2 s

/-! ## Code-density runs on a channel (R256) -/

/-- A code-density run leaves its channel. -/
def cdLeave (k : Nat) (s : State) : State := skewAgain k ((s.setChan k { s.chan k with cd := none }).tsSet TS_STAT.CAL k 0)

/-- A failed code-density run (R250). -/
def cdFail (k reason : Nat) (requested : Bool) (s : State) : State :=
  refreshAllConv (cdState k 4 (calFail 2 k reason requested (cdLeave k s)))

/-- The state of an instance whose run has ended without a result: its table stands, or it has none (R254). -/
def State.cdRest (s : State) (k : Nat) : Nat := if (s.chan k).cdTable.isSome then 3 else 0

/-- CD_RUN_ABANDON (R176): an arm for the channel abandons its code-density run. A background run is retried later; a requested one has
failed with BUSY (R246, R250). -/
def cdAbandon (k : Nat) (s : State) : State :=
  match (s.chan k).cd with
  | some r => if r.requested then cdFail k 11 true s else refreshAllConv (cdState k (s.cdRest k) (cdLeave k s))
  | none => s

/-! ## Arming -/

/-- R160: a refused arm changes nothing on the channel. -/
def refuseArm (k bit : Nat) (s : State) : State :=
  let s0 := s
  let s := (s.put ⟨.TS_ERR, bit, 1⟩ 1 (k / 8) (k % 8)).tsSet TS_ERR.LAST_CODE k (bit + 1)
  (s.raise 272).logEvent s0 (RegId.TS_ERR.at (k / 8) (k % 8)) (bit + 1)

/-- A measurement whose gate has closed, or that a register disarm has ended, gives its result once the tick of that stamp has passed, for
an edge of the very stamp may end it with a lower code (R165, R166). -/
def endKnown (k : Nat) (s : State) : State :=
  match (s.chan k).meas with
  | none => s
  | some m =>
    match m.closing, m.disAt with
    | some t, _ => endAt k 2 t s
    | none, some t => endAt k 4 t s
    | none, none => s

/-- Arm a measurement at arm tick `ta` after the checks of R160; whether it was armed. `LAST_END` reads 0 while it runs (R166). One that a
register disarm of this boundary has ended gives its result first (R177). -/
def armChan (k w n tmo ta : Nat) (item : Option (Nat × Nat × Nat)) (s : State) : Bool × State :=
  match checkArm s k w tmo with
  | some bit => (false, refuseArm k bit s)
  | none =>
    let free := mwGate w == 0
    let m : Meas := {
      word := w, n := n, tmo := tmo, ta := ta, item := item, openAt := if free then some (ta * 65536) else none }
    let s := s.when ((s.chan k).meas.bind (·.disAt)).isSome (endKnown k)
    let s := s.setChan k { s.chan k with meas := some m, taps := [] }
    let s := (s.tsSet TS_STAT.ARMED k 1).tsSet TS_STAT.OPEN k (if free then 1 else 0)
    (true, skewAgain k ((s.tsSet TS_STAT.LAST_END k 0).tsSet TS_LIVE.LIVE k 0))

/-- Whether a timed ARM is to apply to channel `k` at tick `t` (R177). -/
def State.armDue (s : State) (k t : Nat) : Bool :=
  (s.chip (chanChip k)).fifo.any fun a =>
    a.due == t && (match a.act.kind with | .arm c _ _ _ => c == k | _ => false)

/-- A write to `TS_CMD` (R159): an arm captures the shadow registers, and either bit reads 1 until the boundary acts on it. A second arm
before the boundary captures them again (DESIGN CHOICE, log entry 112). `ones` are the bits that the access writes as 1, `new` the word
that it leaves. -/
def hookTsCmd (k : Nat) (ones new : Word) (s : State) : Word × State :=
  let x := s.chan k
  let x := if ones.getLsbD 0 then
      { x with armPend := some (s.ts TS_MEAS.MEAS k, s.ts TS_N.N k, s.ts TS_TMO.TMO k) } else x
  let x := if ones.getLsbD 1 then { x with disPend := true } else x
  (withField new 0 2 ((if x.armPend.isSome then 1 else 0) + (if x.disPend then 2 else 0)), s.setChan k x)

/-- A captured register arm meets its boundary, Ta (R159, R160, R177): it arms after the checks, unless a timed ARM applies there. The
code-density run that holds the channel is abandoned (R176), but not for an arm that is refused, which changes nothing there (R160). A
frozen group's is discarded (R318). -/
def regArm (k : Nat) (s : State) : State :=
  match (s.chan k).armPend with
  | none => s
  | some (w, n, tmo) =>
    let ta := s.count (chanChip k)
    let s := (s.setChan k { s.chan k with armPend := none }).tsSet TS_CMD.ARM k 0
    if s.frozen (RegId.TSG_CFG.at (k / 8)) then discardFrozen s
    else if s.armDue k ta then
      let s0 := s
      let s := (s.tsSet TS_ERR.CMT_COLL k 1).tsSet TS_ERR.LAST_CODE k 8
      s.logEvent s0 (RegId.TS_ERR.at (k / 8) (k % 8)) 8
    else (armChan k w n tmo ta none (if (checkArm s k w tmo).isNone then cdAbandon k s else s)).2

/-- A written register disarm meets its boundary (R159): the measurement has ended there, and gives its result a tick later (log entry 20).
In a frozen group it runs to its end (R318). -/
def regDisarm (k : Nat) (s : State) : State :=
  if (s.chan k).disPend then
    let at_ := ts80 (s.count (chanChip k))
    let s := (s.setChan k { s.chan k with disPend := false }).tsSet TS_CMD.DISARM k 0
    match (s.chan k).meas with
    | none => s
    | some m =>
      if s.frozen (RegId.TSG_CFG.at (k / 8)) then discardFrozen s
      else s.setChan k { s.chan k with meas := some { m with disAt := some at_ } }
  else s

/-- Whether a measurement has ended at a stamp whose tick is still in progress. -/
def Meas.ending (m : Meas) : Bool := m.closing.isSome || m.disAt.isSome

/-- What a tick boundary does on the channels: measurements that a gate or a register disarm ended in the tick before give their results,
and register arms and disarms are acted on, an arm before a disarm (R177; log entry 20). -/
def chanBoundary (s : State) : State :=
  let due := s.chans.filter fun e => e.2.armPend.isSome || e.2.disPend || e.2.meas.any (·.ending)
  forList (due.map (·.1)) (fun k s => regDisarm k (regArm k (endKnown k s))) s

/-- MEAS_TIMEOUT (R166): the boundary Ta + 64 x `TMO` tk is reached. -/
def measTimeoutS (k : Nat) (s : State) : State :=
  match (s.chan k).meas with
  | some m =>
    if m.tmo ≠ 0 && m.ta + 64 * m.tmo ≤ s.count (chanChip k) then endAt k 3 (ts80 (m.ta + 64 * m.tmo)) s else s
  | none => s

/-- Every measurement of chiplet `n` ends with code TIMEBASE at its present count (R166). -/
def endTimebase (n : Nat) (s : State) : State :=
  forList ((chansOn n).filter fun k => (s.chan k).meas.isSome) (fun k s => endAt k 7 (ts80 (s.count n)) s) s

/-! ## Edges (R153 to R157, R165) -/

/-- What an accepted edge of gate channel `g` does to a measurement on channel `k` (R165). -/
def gateEdge (k : Nat) (stamp : Nat) (fall : Bool) (s : State) : State :=
  match (s.chan k).meas with
  | none => s
  | some m =>
    if stamp < m.ta * 65536 then s
    else
      let g := mwGate m.word
      match m.openAt with
      | none =>
        if g = 2 || !fall then
          (s.setChan k { s.chan k with meas := some { m with openAt := some stamp } }).tsSet TS_STAT.OPEN k 1
        else s
      | some _ =>
        if ((g = 1 && fall) || g = 2) && m.closing.isNone then
          s.setChan k { s.chan k with meas := some { m with closing := some stamp } }
        else s

/-- Whether channel `k` carries a measurement that satisfies `f`. -/
def State.measOn (s : State) (k : Nat) (f : Meas → Bool) : Bool :=
  match (s.chan k).meas with
  | some m => f m
  | none => false

/-- An accepted edge: its stamp goes to the front FIFO and the taps, stamps a trigger and moves gates (R155, R157, R165). -/
def acceptEdge (k : Nat) (fall : Bool) (pos stamp : Nat) (s : State) : State :=
  let n := chanChip k
  let x := s.chan k
  let late := decide (65536 ≤ pos % 65536 + 420)
  let e : Edge := { stamp := stamp, fall := fall, ovr := x.ovr, at_ := s.clock, late := late }
  let s := s.setChan k { x with lastAcc := some pos, ovr := false, fifo := x.fifo ++ [e] }
  let trig := decide (1024 ≤ k) && s.ts TS_IN.TRIG_EN k == 1 && polarity (s.ts TS_IN.EDGE k) fall
  let s := s.when trig fun s => (s.setWide (aLAST_EDGE k) stamp).raise (k - 1024)
  let tapped := (chansOn n).filter fun j =>
    j != k && s.measOn j fun m => mwMode m.word == 1 && stopChan j m.word == k && polarity (mwStop m.word) fall
  let s := forList tapped (fun j s =>
    s.setChan j { s.chan j with taps := (s.chan j).taps ++ [{ stamp := stamp, fall := fall, at_ := s.clock, late := late }] }) s
  let gated := (chansOn n).filter fun j => s.measOn j fun m => mwGate m.word != 0 && gateChan j m.word == k
  forList gated (fun j s => gateEdge j stamp fall s) s

/-- An edge counted in `OVERRUN` (R154, R155). `FIFO_FULL` is set when an edge finds the front FIFO full, not when the 16th stamp
fills it (DESIGN CHOICE, log entry 109). `OVERRUN_SEEN` of a measurement takes the overruns of its own channel from the arm on,
gate open or not, and none of its stop channel (DESIGN CHOICE, log entry 111). -/
def overrunEdge (k : Nat) (full : Bool) (s : State) : State :=
  let s := (s.tsBump TS_CNT3.OVERRUN k).when full (·.tsSet TS_STAT.FIFO_FULL k 1)
  let x := s.chan k
  s.setChan k { x with ovr := true, meas := x.meas.map fun m => { m with overrun := true } }

/-- R156: the stamp of an edge at fraction `frac` of this tick on chiplet `n`, referred to the time master by `REPL_PHASEn`, which is
added as R145 adds it. -/
def State.edgeStamp (s : State) (n frac : Nat) : Nat :=
  ((ts80 (s.count n) frac : Int) + s.getSigned REPL_PHASE.PHASE n).toNat

/-- TEASEL_EDGE (R153, R154, R155, R156): an edge of the channel's input at fraction `frac` of this tick. A disabled comparator has no
edges. -/
def teaselEdgeS (k : Nat) (fall : Bool) (frac : Nat) (s : State) : State :=
  if s.inOff k then s
  else
    let pos := s.clock * 65536 + frac
    let x := s.chan k
    let since := x.lastAcc.map fun p => pos - p
    let within := fun (tk : Nat) => match since with
      | some d => decide (d < tk * 65536)
      | none => false
    if within (s.ts TS_HOLDOFF.HOLDOFF k) then s.tsBump TS_CNT1.HELD k
    else if within 8 then overrunEdge k false s
    else if 16 ≤ x.fifo.length then overrunEdge k true s
    else acceptEdge k fall pos (s.edgeStamp (chanChip k) frac) s

/-- A write to `TS_IN` (R153, R157): a port monitor ignores [14:0]; a trigger polarity of 0b11 is stored as 0b00. -/
def hookTsIn (k : Nat) (new : Word) (s : State) : Word × State :=
  let v := if k < 1024 then withField new 0 15 0 else new
  if fieldOf v 16 2 = 3 then
    (withField v 16 2 0, (s.tsSet TS_ERR.CLAMP k 1).tsSet TS_ERR.LAST_CODE k 9)
  else (v, s)

/-- The result block of a channel as STAT and `STAT_RES` return it (R28, R181, R176, R418). -/
def State.resultBlock (s : State) (k : Nat) : List Byte :=
  if s.bankLost 13 then List.replicate 64 0
  else
    let b := s.bytesAt (0x01A00000 + 64 * k) 64
    let b := if s.anyBad (0x01A00000 + 64 * k) 64 then b.mapIdx fun i x => if i = 5 then x &&& 0xFE#8 else x else b
    if (s.chan k).cd.isSome then b.mapIdx fun i x => if i = 4 then x ||| 0x80#8 else x else b

end Sys2Proof.Machine
end

