-- ==== Sys2Proof/Machine/Actions.lean ====
section
/-! DEFINITION. The timed commit (R11 to R24, R201 to R203): sending released actions, their arrival and judgement at the chiplet,
verdicts, and the application of PHASE, PORTSET, MARK, ARM and DISARM. -/

namespace Sys2Proof.Machine

/-- The chiplet that owns an action's target (R10, R152). -/
def ActKind.chip : ActKind → Nat
  | .hop c _ _ => c / 8
  | .phase p _ => p / 128
  | .portset p _ _ => p / 128
  | .mark p _ => p / 128
  | .arm k _ _ _ => chanChip k
  | .disarm k => chanChip k

/-! ## Completion statuses (R199) -/

abbrev stLATE : Nat := 0x80
abbrev stHORIZON : Nat := 0x81
abbrev stTGTLOST : Nat := 0x82
abbrev stHOPSPACE : Nat := 0x83
abbrev stHOSTTAKE : Nat := 0x84

/-- The hardware status set by the lowest action index stands (R199). -/
def Item.setHw (i : Item) (status idx : Nat) : Item :=
  match i.hw with
  | some (_, j) => if idx < j then { i with hw := some (status, idx) } else i
  | none => { i with hw := some (status, idx) }

/-- One released action of an item has been admitted, discarded, refused or found late. -/
def judged (a : Action) (s : State) : State := editItem a.q a.seq (fun i => { i with out := i.out - 1 }) s

/-! ## Sending (R13, R20, R23, R60) -/

/-- R13: whether every item of queue `q` with a lower sequence is settled. -/
def State.settledBelow (s : State) (q n : Nat) : Bool :=
  (s.queue q).items.all fun i => decide (n ≤ i.seq) || i.st == .ended

/-- The released action of queue `q` that is sent next to chiplet `n`: the lowest in sequence, then in index. -/
def firstAct : List Action → Option Action
  | [] => none
  | a :: l =>
    match firstAct l with
    | none => some a
    | some b => if keyLt (0, b.q, b.seq, b.idx) (0, a.q, a.seq, a.idx) then some b else some a

def State.nextRel (s : State) (n q : Nat) : Option Action :=
  firstAct (s.rel.filter fun a => a.q == q && a.kind.chip == n)

/-- R20: the actions admitted at a chiplet and not yet applied, and those sent to it and not yet judged. -/
def State.fifoLoad (s : State) (n : Nat) : Nat := (s.chip n).fifo.length + (s.chip n).transit.length

/-- ACTION_SEND (R13, R20, R23, R60): the next released action of queue `q` for chiplet `n` is sent once nothing holds it. One for a
lost chiplet is not sent: its item takes TGTLOST. A chiplet under re-initialisation counts as lost (R382). -/
def actionSendS (n q : Nat) (s : State) : State :=
  match s.nextRel n q with
  | none => s
  | some a =>
    if s.cdDown || !s.settledBelow q a.seq then s
    else if s.chipLost n || s.get CHIP_STAT.REINIT_BUSY / 2 ^ n % 2 = 1 then
      judged a (editItem q a.seq (·.setHw stTGTLOST a.idx) { s with rel := s.rel.erase a })
    else if s.isSet EPOCH_STAT.ARMED || 4096 ≤ s.fifoLoad n then s
    else
      let s : State := { s with rel := s.rel.erase a }
      s.setChip n { s.chip n with transit := (s.chip n).transit ++ [a] }

/-! ## Arrival (R15, R18, R19, R103, R202, R203) -/

/-- The number under which an action moves the applied mark of its queue (R15). -/
def markOf (seq idx : Nat) : Nat := 4096 * seq + idx + 1

/-- The applied mark of queue `q` at chiplet `n`; 0 before any admission. -/
def State.mark (s : State) (n q : Nat) : Nat := SMap.get (fun _ => 0) (s.chip n).marks q

def setMark (n q v : Nat) (s : State) : State :=
  s.setChip n { s.chip n with marks := SMap.set (fun _ => 0) (s.chip n).marks q v }

/-- R203 at the chiplet: action `a` starts the abort of its item there, and a verdict goes to the control die. -/
def abortAt (n : Nat) (a : Action) (status : Nat) (s : State) : State :=
  let s := setMark n a.q (markOf a.seq a.idx) s
  let s := s.setChip n { s.chip n with aborts := SMap.set (fun _ => 0) (s.chip n).aborts a.q a.seq }
  judged a { s with verdicts := s.verdicts ++ [(a.q, a.seq, a.idx, status)] }

/-- The report of a late action (R202, R203). -/
def lateReport (n : Nat) (s : State) : State :=
  let s := (s.put COMMIT_STAT.LATE_SEEN 1 n).raise 275
  s.setWide aQM_LATE ((s.wideAt aQM_LATE + 1) % 2 ^ 64)

/-- Whether the busy interval of a HOP overlaps one already admitted on its core, or the core's relock (R103). A HOP that has
become a relock holds its window too. -/
def State.hopOverlaps (s : State) (c : Nat) (iv : Nat × Nat) (cls : HopClass) : Bool :=
  s.spaceLost c iv cls ||
  (s.chip (c / 8)).fifo.any fun b =>
    match b.hopOf with
    | some (k, _, ws) =>
      let ib := busyOf b.cls b.cached (ctxDiv ws b.cached).preset b.lead b.due
      let ib := if b.cls = .relock ∧ 8 < b.lead then (b.due - b.lead, ib.2) else ib
      k == c && overlaps iv ib cls b.cls
    | none => false

/-- ACTION_ADMIT (R15, R17): the action enters the FIFO and moves the mark. An ARM with records makes its item wait (R173). -/
def admitAction (n : Nat) (b : Admitted) (s : State) : State :=
  let a := b.act
  let s := setMark n a.q (markOf a.seq a.idx) s
  let s := refreshFifo n (s.setChip n { s.chip n with fifo := (s.chip n).fifo ++ [b] })
  let s := editItem a.q a.seq (fun i => { i with horizon := max i.horizon b.due }) (judged a s)
  match a.kind with
  | .arm k w _ _ => cdAbandon k (if 2 ≤ mwOut w then addWait k (a.q, a.seq, a.idx) s else s)
  | _ => s

/-- ACTION_LATE, HOPSPACE and ACTION_ADMIT for a HOP (R101, R102, R103). -/
def arriveHop (n c : Nat) (ws : List Word) (a : Action) (s : State) : State :=
  let cls := s.hopClass c ws
  let cached := s.hopCached n ws
  let pre := (ctxDiv ws cached).preset
  let lead := hopLead cls cached pre
  let late := decide (a.tick < s.count n + lead)
  if late && !a.applyLate then failHop c 10 (abortAt n a stLATE (lateReport n s))
  else
    let ts := if late then s.count n + lead else a.tick
    let s := s.when late (lateReport n)
    if s.hopOverlaps c (busyOf cls cached pre lead ts) cls then failHop c 9 (abortAt n a stHOPSPACE s)
    else
      let s := s.when late (editItem a.q a.seq fun i => { i with lateApplied := true })
      admitAction n { act := a, due := ts, cls := cls, cached := cached, lead := lead } s

/-- ACTION_LATE and ACTION_ADMIT for every other action (R18, R202). A late ARM that is admitted under APPLY-LATE sets the wait of R173
(DESIGN CHOICE, log entry 131). -/
def arriveOther (n : Nat) (a : Action) (s : State) : State :=
  let plain : Admitted := { act := a, due := a.tick, cls := .inPlace, cached := true, lead := 8 }
  if s.count n + 8 ≤ a.tick then admitAction n plain s
  else
    let s := lateReport n s
    if a.applyLate then
      let s := editItem a.q a.seq (fun i => { i with lateApplied := true }) s
      admitAction n { plain with due := s.count n + 8 } s
    else abortAt n a stLATE s

/-- ACTION_ARRIVE (R15, R18, R19, R203): the first action in transit to chiplet `n` arrives and is judged. While an epoch load is armed
nothing is admitted: what is on its way waits for the load and is tested against the new count (R60). -/
def actionArriveS (n : Nat) (s : State) : State :=
  match (s.chip n).transit with
  | [] => s
  | a :: rest =>
    if s.isSet EPOCH_STAT.ARMED then s
    else
    let s := s.setChip n { s.chip n with transit := rest }
    if markOf a.seq a.idx ≤ s.mark n a.q then judged a s
    else if SMap.get (fun _ => 0) (s.chip n).aborts a.q = a.seq then judged a (setMark n a.q (markOf a.seq a.idx) s)
    else if s.count n + 2 ^ 32 < a.tick then (abortAt n a stHORIZON s).raise 274
    else
      match a.kind with
      | .hop c _ ws => arriveHop n c ws a s
      | _ => arriveOther n a s

/-- ABORT_VERDICT_ARRIVE (R203): the control die releases no further actions of the item. -/
def abortVerdictArriveS (s : State) : State :=
  match s.verdicts with
  | [] => s
  | (q, n, idx, status) :: rest =>
    if s.cdDown then s
    else
      let mine := fun (a : Action) => a.q == q && a.seq == n
      let gone := (s.rel.filter mine).length
      let s : State := { s with verdicts := rest, rel := s.rel.filter fun a => !mine a }
      editItem q n (fun i => { i.setHw status idx with aborted := true, out := i.out - gone }) s

/-! ## Application (R21, R201) -/

/-- A register of the function that an action would change (R318). -/
def ActKind.page : ActKind → Nat
  | .hop c _ _ => RegId.CORE_CTRL.at c
  | .phase p _ => RegId.PORT_CFG.at p
  | .portset p _ _ => RegId.PORT_CFG.at p
  | .mark p _ => RegId.PORT_CFG.at p
  | .arm k _ _ _ => RegId.TSG_CFG.at (k / 8)
  | .disarm k => RegId.TSG_CFG.at (k / 8)

/-- An action that meets a frozen function is discarded; its item completes as if it had been admitted (R318). -/
def frozenAction (a : Admitted) (s : State) : State :=
  match a.act.kind with
  | .arm k _ _ _ => endWait k (a.act.q, a.act.seq, a.act.idx) (discardFrozen s)
  | _ => discardFrozen s

/-- Apply the next action of chiplet `n` if it is of the wanted kind. -/
def applyNext (n : Nat) (want : ActKind → Bool) (f : Admitted → State → State) (s : State) : State :=
  match s.nextAction n with
  | some a =>
    if want a.act.kind then
      if s.frozen a.act.kind.page then frozenAction a (dropAdmitted n a s) else f a (dropAdmitted n a s)
    else s
  | none => s

/-- PHASE_APPLY (R125, R131). -/
def phaseApplyS (n : Nat) (s : State) : State :=
  applyNext n (fun k => match k with | .phase _ _ => true | _ => false) (fun a s =>
    match a.act.kind with
    | .phase p fine => let s := portTimed p s; loadTimedWord p { s.portActive p with fine := fine % 2 ^ 20 } s
    | _ => s) s

/-- PORTSET_APPLY (R124, R125, R118): the masked word is checked and applied; a divider it sets is ordered with hop entries. -/
def portsetApplyS (n : Nat) (s : State) : State :=
  applyNext n (fun k => match k with | .portset _ _ _ => true | _ => false) (fun a s =>
    match a.act.kind with
    | .portset p v mask =>
      let s := portTimed p s
      let w := portsetWord (s.portActive p) v mask
      let ok := (checkPort s.beforeCeil p w).isNone
      let s := loadTimedWord p w s
      s.when (ok && mask.testBit 5) fun s => s.setPort p { s.port p with divKey := some (a.key, s.clock) }
    | _ => s) s

/-- MARK_APPLY (R129). -/
def markApplyS (n : Nat) (s : State) : State :=
  applyNext n (fun k => match k with | .mark _ _ => true | _ => false) (fun a s =>
    match a.act.kind with
    | .mark p cnt => markPort p (cnt % 65536) a.due (portTimed p s)
    | _ => s) s

/-- ARM_APPLY (R159, R160, R173): an arm that is refused ends its item's wait. -/
def armApplyS (n : Nat) (s : State) : State :=
  applyNext n (fun k => match k with | .arm _ _ _ _ => true | _ => false) (fun a s =>
    match a.act.kind with
    | .arm k w cnt tmo =>
      let id := (a.act.q, a.act.seq, a.act.idx)
      let (ok, s) := armChan k w cnt tmo a.due (some id) s
      if ok || mwOut w < 2 then s else endWait k id s
    | _ => s) s

/-- DISARM_APPLY (R159). -/
def disarmApplyS (n : Nat) (s : State) : State :=
  applyNext n (fun k => match k with | .disarm _ => true | _ => false) (fun a s =>
    match a.act.kind with
    | .disarm k => endAt k 4 (ts80 a.due) s
    | _ => s) s

end Sys2Proof.Machine
end

