-- ==== Sys2Proof/Machine/Link.lean ====
section
/-! DEFINITION. What the queues need of Ryrel: sending frames (R276 to R278), the links in their roles (R274), the manager marks and
the report ring of a worker (R291, R292). -/

namespace Sys2Proof.Machine

/-! The frame types of R278. -/
abbrev fHELLO : Nat := 0x01
abbrev fJOIN : Nat := 0x02
abbrev fADMIT : Nat := 0x03
abbrev fREFUSE : Nat := 0x04
abbrev fLEAVE : Nat := 0x05
abbrev fREADY : Nat := 0x06
abbrev fHB : Nat := 0x08
abbrev fTT : Nat := 0x10
abbrev fEPOCH : Nat := 0x11
abbrev fSUBMIT : Nat := 0x20
abbrev fSUBRES : Nat := 0x21
abbrev fDONE : Nat := 0x22
abbrev fDONEACK : Nat := 0x23
abbrev fRESYNC : Nat := 0x24
abbrev fEVENT : Nat := 0x28
abbrev fCDLOSS : Nat := 0x29
abbrev fRREQ : Nat := 0x30
abbrev fRRSP : Nat := 0x31
abbrev fLACK : Nat := 0x3E
abbrev fLNAK : Nat := 0x3F

/-! The link states of R279. -/
abbrev lsOff : Nat := 0
abbrev lsDown : Nat := 1
abbrev lsTrain : Nat := 2
abbrev lsDiscover : Nat := 3
abbrev lsPending : Nat := 4
abbrev lsCdly : Nat := 5
abbrev lsTime : Nat := 6
abbrev lsUp : Nat := 7
abbrev lsStandby : Nat := 8
abbrev lsRefused : Nat := 9

def State.linkState (s : State) (l : Nat) : Nat := s.get RY_STAT.STATE l
def setLinkState (l st : Nat) (s : State) : State := s.put RY_STAT.STATE st l
def State.role (s : State) (l : Nat) : Nat := s.get RY_CFG.ROLE l

/-- The chiplet of a link. -/
def linkChip (l : Nat) : Nat := l / 2

/-- Whether this part is a top manager (R274). -/
def State.isTop (s : State) : Bool := s.isSet RY_GSTAT.TOP

/-- Whether this part is an admitted worker. -/
def State.isAdmitted (s : State) : Bool := s.isSet RY_GSTAT.ADMITTED

/-- Whether a type is carried by reliable frames (R278). -/
def reliableType (t : Nat) : Bool :=
  [fJOIN, fADMIT, fREFUSE, fLEAVE, fREADY, fEPOCH, fSUBMIT, fSUBRES, fDONE, fDONEACK, fRESYNC, fEVENT, fCDLOSS, fRREQ, fRRSP].contains t

/-- The source WID of this part's frames (R276). -/
def State.ownSrc (s : State) : Nat :=
  if s.isTop then 0 else if s.get RY_GSTAT.WID = 0 then 0xFF else s.get RY_GSTAT.WID

/-- The types that R278 lists. -/
def listedType (t : Nat) : Bool := reliableType t || [fHELLO, fHB, fTT, fLACK, fLNAK].contains t

/-- The header of R276. -/
def ryHeader (type : Nat) (rel : Bool) (flags dst src lseq len rsvd : Nat) : Nat :=
  type + (if rel then 2 ^ 8 else 0) + flags * 2 ^ 9 + dst % 256 * 2 ^ 16 + src % 256 * 2 ^ 24 + lseq % 65536 * 2 ^ 32 +
    len % 256 * 2 ^ 48 + rsvd * 2 ^ 56

/-- The CRC-32C over a header and a payload (R276). -/
def ryCrc (header : Nat) (p : List Byte) : Nat := crc32c (leBytes 8 header ++ p)

/-- The header of a received frame. -/
def headerOf (f : RyFrame) : Nat :=
  ryHeader f.type.toNat f.rel f.flags.toNat f.dst.toNat f.src.toNat f.lseq.toNat f.len.toNat f.rsvd.toNat

/-- Whether a received frame is whole (R276): its CRC is right, and `LEN` is the length of its payload, at most 88 and a multiple
of 8. A frame with another `LEN` is discarded as one whose CRC fails (log entry 95). -/
def frameGood (f : RyFrame) : Bool :=
  f.crc.toNat == ryCrc (headerOf f) f.payload && f.len.toNat == f.payload.length && f.len.toNat % 8 == 0 && decide (f.len.toNat ≤ 88)

/-- The bytes of a frame that this part sends (R276): header, payload and CRC. Unused flags and reserved bits are 0. -/
def frameBytes (type lseq dst src : Nat) (p : List Byte) : List Byte :=
  let h := ryHeader type (reliableType type) 0 dst src lseq p.length 0
  leBytes 8 h ++ p ++ leBytes 4 (ryCrc h p)

/-- A frame goes out on link `l`. -/
def frameOut (l type lseq dst src : Nat) (p : List Byte) : Out := .frame l (frameBytes type lseq dst src p)

/-- Send a frame on a link that has block lock. A reliable frame takes the next `LSEQ` and is kept for resending, among the last 256
(R277). -/
def sendFrom (l type dst src : Nat) (p : List Byte) (s : State) : State :=
  if s.linkState l < lsDiscover then s
  else if reliableType type then
    let x := s.lnk l
    let f : TxFrame := { lseq := x.txNext, at_ := s.clock, type := type, dst := dst, src := src, payload := p }
    let u := x.unacked ++ [f]
    let s := s.setLnk l { x with txNext := (x.txNext + 1) % 65536, unacked := u.drop (u.length - 256) }
    s.emit (frameOut l type f.lseq dst src p)
  else s.emit (frameOut l type 0 dst src p)

/-- Send a frame of this part's own. -/
def sendFrame (l type dst : Nat) (p : List Byte) (s : State) : State := sendFrom l type dst s.ownSrc p s

/-- The link toward the manager: the one with role upstream that stands in a join or is up. -/
def State.upLink (s : State) : Option Nat :=
  (List.range 16).find? fun l => s.role l == 2 && decide (lsPending ≤ s.linkState l) && decide (s.linkState l ≤ lsUp)

/-- The link toward worker `w`: of the worker entry at a top manager, of the route table at a relay (R280). -/
def State.routeTo (s : State) (w : Nat) : Option Nat :=
  if s.isTop then (if s.get WT_STAT.STATE w = 0 then none else some (s.get WT_STAT.LINK w))
  else
    let v := SMap.get (fun _ => 0) s.ry.routes w
    if v = 0 then none else some (v - 1)

/-- Send a frame to the top manager. -/
def sendTop (type : Nat) (p : List Byte) (s : State) : State :=
  match s.upLink with
  | some l => sendFrame l type 0 p s
  | none => s

/-- Send a frame to worker `w`. -/
def sendWorker (w type : Nat) (p : List Byte) (s : State) : State :=
  match s.routeTo w with
  | some l => sendFrame l type w p s
  | none => s

/-- Whether link `l` is this part's admitted upstream link (R291). -/
def State.isManagerLink (s : State) (l : Nat) : Bool :=
  s.role l == 2 && s.linkState l == lsUp && s.isAdmitted

/-! ## Manager marks and reports (R291, R292) -/

/-- The memory offsets of the report ring and of MM(q). -/
def reportAddr (slot : Nat) : Nat := 0x01E00000 + 32 * slot
def mmAddr (q : Nat) : Nat := 0x01E20000 + 8 * q

/-- The manager mark MM(q). -/
def State.mm (s : State) (q : Nat) : Nat := leNat (s.bytesAt (mmAddr q) 6)
def setMm (q v : Nat) (s : State) : State := s.store (mmAddr q) (leBytes 8 (v % 2 ^ 48))

/-- The payload of DONE (R278). -/
def donePayload (r : Report) : List Byte :=
  leBytes 8 r.q ++ leBytes 8 r.mseq ++ leBytes 8 r.w1 ++ leBytes 8 r.w2 ++ leBytes 8 r.horizon

/-- Send the DONE of a report while admitted; otherwise it is held (R283, R292). -/
def sendDone (r : Report) (s : State) : State := s.when s.isAdmitted (sendTop fDONE (donePayload r))

/-- Whether the report ring is full. -/
def State.reportsFull (s : State) : Bool := decide (4096 ≤ s.ry.reports.length)

/-- Place a report in the lowest free slot of the ring and send its DONE. -/
def placeReport (q mseq w1 w2 horizon : Nat) (s : State) : State :=
  let slot := ((List.range 4096).find? fun k => !s.ry.reports.any fun r => r.slot == k).getD 0
  let r : Report := { slot := slot, q := q, mseq := mseq, w1 := w1, w2 := w2, horizon := horizon }
  let s : State := { s with ry := { s.ry with reports := s.ry.reports ++ [r] } }
  let s := s.store (reportAddr slot) (leBytes 6 mseq ++ leBytes 2 q ++ leBytes 8 w1 ++ leBytes 8 w2 ++ leBytes 8 horizon)
  sendDone r s

end Sys2Proof.Machine
end

