-- ==== Sys2Proof/Machine/Queues.lean ====
section
/-! DEFINITION. Queues (R182 to R211): the entry pool, descriptors, acceptance, takes, dispatch and stealing, completion and its
record, handler faults, quarantine, and engine failure. -/

namespace Sys2Proof.Machine

/-! ## Items and the pool -/

/-- The quarantine queue (R188). -/
abbrev quarQ : Nat := 32767

/-- Entries of an item of queue `q` (R182, R188). -/
def State.qEntries (s : State) (q : Nat) : Nat := 2 ^ s.get QD_CTRL.ITEM_SZ q

/-- The item size of queue `q` in bytes. -/
def State.qItemSize (s : State) (q : Nat) : Nat := 16 * s.qEntries q

/-- The header of an item (R182). -/
def Item.header (i : Item) : Nat :=
  i.seq % 2 ^ 48 + (if i.late then 2 ^ 48 else 0) + i.fcnt % 4 * 2 ^ 49 + (if i.cmpl then 2 ^ 51 else 0) + i.puts % 4096 * 2 ^ 52

/-- The bytes of an item as its entries hold them, at most eight (R182, R188). -/
def Item.bytes (i : Item) : List Byte := (leBytes 8 i.header ++ i.body.flatMap fun d => leBytes 8 d.toNat).take 128

/-- Write an item's entries and their parity rows in one memory transaction (R27, R189). -/
def mirrorItem (i : Item) (s : State) : State :=
  let s := s.store (entryAddr i.entry) i.bytes
  let n := i.bytes.length / 16
  forList ((List.range (n + 1)).map (fun k => (i.entry + min k (n - 1)) / 8)).dedup writeParity s

/-- Change one item of a queue and write its entries again. -/
def rewriteItem (q n : Nat) (f : Item → Item) (s : State) : State :=
  let s := editItem q n f s
  match s.item q n with
  | some i => mirrorItem i s
  | none => s

/-- The first entry of slot `k` of a queue's blocks. A slot holds one item and lies within one block (R182). -/
def slotEntry (blocks : List Nat) (e k : Nat) : Nat := 64 * blocks.getD (k / (64 / e)) 0 + k % (64 / e) * e

/-- A slot of queue `q` that no item uses. The spec does not say which one an item takes: `pick` is a free value. -/
def State.freeSlot (s : State) (q pick : Nat) : Nat :=
  let x := s.queue q
  let e := s.qEntries q
  let slots := x.blocks.length * (64 / e)
  let at_ := fun k => slotEntry x.blocks e ((pick + k) % slots)
  at_ (((List.range slots).find? fun k => !x.items.any fun i => i.entry == at_ k).getD 0)

/-! ## Acceptance (R189, R190) -/

/-- R198: whether an engine is an owner of queue `q`. -/
def State.isOwner (s : State) (q e : Nat) : Bool := s.get QD_AFF.AFF q (e / 32) / 2 ^ (e % 32) % 2 == 1

/-- The owners of queue `q`, in rising order. -/
def State.owners (s : State) (q : Nat) : List Nat := (List.range 256).filter (s.isOwner q)

/-- Engine states of R196. -/
abbrev esIdle : Nat := 0
abbrev esRun : Nat := 1
abbrev esWait : Nat := 2
abbrev esStall : Nat := 3
abbrev esOff : Nat := 4
abbrev esFailed : Nat := 5
abbrev esReinit : Nat := 6

def State.engState (s : State) (e : Nat) : Nat := s.get ENG_STAT.STATE e

/-- The head of queue `q`: its first waiting item. -/
def State.headItem (s : State) (q : Nat) : Option Item := (s.queue q).items.find? fun i => i.st == .waiting

/-- Whether a YIELD still holds queue `q` back (R242). -/
def State.yieldHeld (s : State) (q : Nat) : Bool :=
  (s.queue q).items.any fun i => match i.st with | .yielded _ => true | _ => false

/-- Whether an engine holds an item of queue `q`. -/
def State.anyHeld (s : State) (q : Nat) : Bool :=
  (s.queue q).items.any fun i => match i.st with | .held _ => true | _ => false

/-- The item of queue `q` that is eligible for dispatch (R197, R206, R242). -/
def State.eligible (s : State) (q : Nat) : Option Item :=
  if s.isSet QD_CTRL.EN q && !s.isSet QD_STAT.STOPPED q && !s.isSet QD_CTRL.HOSTQ q && !s.yieldHeld q &&
      !(s.isSet QD_CTRL.SERIAL q && s.anyHeld q) && !s.frozen (RegId.QD_CTRL.at q) then s.headItem q
  else none

/-- R198: items of queue `q` wait with no owner in service and `NOSTEAL` = 1. -/
def State.starving (s : State) (q : Nat) : Bool :=
  s.isSet QD_CTRL.NOSTEAL q && (s.eligible q).isSome && (s.owners q).all fun e => decide (4 ≤ s.engState e)

/-- R198: report starvation of queue `q` when it sets in. -/
def checkStarve (q : Nat) (s : State) : State :=
  if s.starving q && !(s.queue q).starved then
    ((s.setQueue q { s.queue q with starved := true }).put QD_STAT.STARVED 1 q).raise 352
  else s

/-- Report starvation of every queue that has items. -/
def checkStarveAll (s : State) : State := forList (s.queues.map (·.1)) checkStarve s

/-- ITEM_ACCEPT (R182, R189): the next sequence, the entries with their parity rows, and `LEVEL`, in one transaction. -/
def acceptItem (q : Nat) (late cmpl : Bool) (body : List Dword) (s : State) : State :=
  let (pick, s) := s.free 20
  let x := s.queue q
  let i : Item := {
    seq := x.nextSeq, late := late, cmpl := cmpl, size := s.qItemSize q, body := body, since := s.clock, eligAt := s.clock,
    entry := s.freeSlot q pick }
  let s := s.setQueue q { x with items := x.items ++ [i], nextSeq := x.nextSeq + 1 }
  let s := mirrorItem i (s.bump QD_STAT.LEVEL q 0 (s.qEntries q))
  checkStarve q (s.setWide aQM_ACCEPTED ((s.wideAt aQM_ACCEPTED + 1) % 2 ^ 64))

/-- R29, R189: whether acceptance is stopped (`QM_STAT.ACC_OFF`). -/
def State.accOff (s : State) : Bool :=
  decide (2 ≤ ((List.range 9).filter fun b => s.bankLost (b + 1)).length) || !s.queueService

/-- The highest sequence of R190. -/
abbrev seqEnd : Nat := 2 ^ 48 - 1

/-- A submission of an item of `size` bytes to queue `q` by class `cls` (R189): the status, the sequence assigned (0 on a refusal),
and the state. The header's `LATE` and the payload are the submitter's. -/
def submitS (q cls size : Nat) (late : Bool) (body : List Dword) (s : State) : Nat × Nat × State :=
  if s.accOff then (6, 0, s)
  else if q = quarQ || !(s.get QD_CTRL.SUBMIT q).testBit cls then (3, 0, s)
  else if !s.isSet QD_CTRL.EN q || s.isSet QD_CTRL.DRAIN q || s.frozen (RegId.QD_CTRL.at q) then (1, 0, s)
  else if size ≠ s.qItemSize q then (4, 0, s)
  else if seqEnd ≤ (s.queue q).nextSeq then (5, 0, s)
  else if s.get QD_LEN.LEN q < s.get QD_STAT.LEVEL q + s.qEntries q then (2, 0, s.put QD_STAT.FULL_SEEN 1 q)
  else (0, (s.queue q).nextSeq, acceptItem q late false body s)

/-- Little-endian 64-bit words of a list of bytes. -/
def dwordsOf : List Byte → List Dword
  | b0 :: b1 :: b2 :: b3 :: b4 :: b5 :: b6 :: b7 :: l => BitVec.ofNat 64 (leNat [b0, b1, b2, b3, b4, b5, b6, b7]) :: dwordsOf l
  | _ => []

/-- A submission given as the item's bytes, header first: only the header's `LATE` bit counts (R182). -/
def submitBytes (q cls : Nat) (bs : List Byte) (s : State) : Nat × Nat × State :=
  submitS q cls bs.length ((bs.getD 6 0).getLsbD 0) ((dwordsOf bs).drop 1) s

/-! ## Completion (R199) -/

/-- The completion status of an item and `FIRST_IDX`. -/
def Item.status (i : Item) : Nat × Nat := i.hw.getD (i.code, 0)

/-- The payload of a completion record for a `CQ` item of `size` bytes (R199). -/
def completionBody (q size tick : Nat) (i : Item) : List Dword :=
  let w0 := i.seq % 2 ^ 48 + q * 2 ^ 48
  let w1 := i.status.1 % 256 + (if i.lateApplied then 256 else 0) + i.status.2 % 4096 * 2 ^ 9 + i.nact % 8192 * 2 ^ 21 +
    i.fcnt % 4 * 2 ^ 34
  [BitVec.ofNat 64 w0, BitVec.ofNat 64 w1, BitVec.ofNat 64 tick] ++ List.replicate (size / 8 - 4) 0

/-- R199: whether queue `cq` can take completion records at all. -/
def State.cqUsable (s : State) (cq : Nat) : Bool :=
  cq != quarQ && s.isSet QD_CTRL.EN cq && s.get QD_CTRL.ITEM_SZ cq != 0 && decide ((s.queue cq).nextSeq < seqEnd) && !s.accOff

/-- R199: whether queue `cq` has no room for a completion record. -/
def State.cqFull (s : State) (cq : Nat) : Bool :=
  decide (s.get QD_LEN.LEN cq < s.get QD_STAT.LEVEL cq + s.qEntries cq)

/-- Take an item out of its queue and free its entries. -/
def freeItem (q n : Nat) (s : State) : State :=
  let x := s.queue q
  let s := s.setQueue q { x with items := x.items.filter fun i => i.seq != n }
  s.put QD_STAT.LEVEL (s.get QD_STAT.LEVEL q - s.qEntries q) q

/-- Whether a verdict on an item is still on its way from a chiplet (R203): one of its actions is not settled for the control die. -/
def State.verdictDue (s : State) (q n : Nat) : Bool := s.verdicts.any fun v => v.1 == q && v.2.1 == n

/-- ITEM_COMPLETE (R199, R203, R292): an item whose handler has ended and whose actions and records are settled completes, unless its
completion record must wait for room in `CQ`. -/
def itemCompleteS (q n : Nat) (s : State) : State :=
  match s.item q n with
  | none => s
  | some i =>
    if s.cdDown || i.st ≠ .ended || i.out ≠ 0 || !i.recs.isEmpty || s.verdictDue q n then s
    else
      let cq := s.get QD_CTRL.CQ q
      let wants := s.isSet QD_CTRL.CQ_EN q && !i.cmpl
      if (wants && s.cqUsable cq && s.cqFull cq) || (i.mseq.isSome && s.reportsFull) then s
      else
        let s := (freeItem q n s).put QD_CNT.LAST_ST i.status.1 q
        let s := match i.mseq with
          | some m =>
            let b := completionBody q 32 s.mcount i
            placeReport q m (b.getD 1 0).toNat (b.getD 2 0).toNat (if i.horizon = 0 then s.mcount else i.horizon) s
          | none => s
        if !wants then s
        else if s.cqUsable cq then acceptItem cq false true (completionBody q (s.qItemSize cq) s.mcount i) s
        else (s.bump QM_CNT.CQ_DROP).raise 353

/-! ## Host takes (R193) -/

/-- The entries of an item are read: a word of them in error is corrected, or rebuilt from its parity row (R28). -/
def readEntries (i : Item) (s : State) : State := sramMeets (entryAddr i.entry) i.bytes.length s

/-- A take from host queue `q` by class `cls`: the status, the item taken, and the state. Taking completes the item at once; a
completion record that finds no room waits as for any item. -/
def takeS (q cls : Nat) (s : State) : Nat × Option Item × State :=
  if !s.isSet QD_CTRL.EN q then (1, none, s)
  else if !s.isSet QD_CTRL.HOSTQ q || !(s.get QD_CTRL.SUBMIT q).testBit cls then (3, none, s)
  else
    match s.headItem q with
    | none => (7, none, s)
    | some i =>
      let s := editItem q i.seq (fun i => { i with st := .ended, hw := some (stHOSTTAKE, 0) }) (readEntries i s)
      (0, some i, itemCompleteS q i.seq s)

/-! ## Engines -/

/-- The ticks that engine `e` has spent in service, and those of them outside IDLE (R209). -/
def State.engLoad (s : State) (e : Nat) : Nat × Nat :=
  let x := s.eng e
  let d := s.clock - x.busyFrom
  (x.inService + (if s.engState e < esOff then d else 0),
    x.ran + (if s.engState e < esOff ∧ s.engState e ≠ esIdle then d else 0))

/-- The queues that have an eligible item, in rising order. -/
def State.readyQueues (s : State) : List Nat := (s.queues.map (·.1)).filter fun q => (s.eligible q).isSome

/-- The eligible queues that engine `e` owns (R198). -/
def State.ownReady (s : State) (e : Nat) : List Nat := s.readyQueues.filter fun q => s.isOwner q e

/-- Put engine `e` into a state, keeping `ENG_BUSY` (R211), the times of R209, and the own queues that are eligible as it becomes
IDLE (R198). -/
def setEngState (e st : Nat) (s : State) : State :=
  let x := s.eng e
  let spent := if s.engState e = esIdle then 0 else s.clock - x.busyFrom
  let l := s.engLoad e
  let s := s.setWide (aENG_BUSY e) ((s.wideAt (aENG_BUSY e) + spent) % 2 ^ 64)
  let own := if st = esIdle then s.ownReady e else []
  (s.setEng e { x with busyFrom := s.clock, inService := l.1, ran := l.2, idleOwn := own }).put ENG_STAT.STATE st e

/-- R213: what an engine loses at a completion step. -/
def Eng.cleared (x : Eng) : Eng :=
  { x with g := [], t := [], held := none, puts := 0, nact := 0, staged := [], wait := none, lines := [] }

/-- Whether engine `e` is in service: enabled and not frozen (R196, R318). -/
def State.engOn (s : State) (e : Nat) : Bool := s.isSet ENG_CFG.EN e && !s.frozen (RegId.ENG_CFG.at e)

/-- The head of queue `q` may be eligible from now on: its lock is free, its head has moved on, or it runs again (R197, R205, R319). -/
def queueOpens (q : Nat) (s : State) : State := s.setQueue q { s.queue q with openAt := s.clock }

/-- The engine's handler has ended: it goes to IDLE, or to OFF if `EN` = 0 (R195, R196). Its queue's lock is free (R197). -/
def engineFree (e : Nat) (s : State) : State :=
  let s := match (s.eng e).held with
    | some (q, _) => queueOpens q s
    | none => s
  let s := (s.setEng e (s.eng e).cleared).put ENG_PC.PC 0 e
  checkStarveAll (setEngState e (if s.engOn e then esIdle else esOff) s)

/-- Hand the head of queue `q` to engine `e` (R192), which reads its entries. -/
def giveItem (q e : Nat) (i : Item) (s : State) : State :=
  let s := editItem q i.seq (fun i => { i with st := .held e }) (readEntries i s)
  let s := queueOpens q (s.setQueue q { s.queue q with starved := false })
  let x := (s.eng e).cleared
  let g := SMap.set (fun _ => 0) (SMap.set (fun _ => 0) [] 1 (BitVec.ofNat 64 q)) 2 (BitVec.ofNat 64 (s.get QD_ARG.ARG q))
  let s := s.setEng e { x with g := g, held := some (q, i.seq), since := s.clock, lastQ := q }
  let s := s.put ENG_PC.PC (4 * s.get QD_ENTRY.ENTRY q) e
  setEngState e esRun (s.put ENG_STAT.CUR_Q q e)

/-- The highest `PRIO` of a list of queues. -/
def State.topPrio (s : State) (l : List Nat) : Nat := (l.map fun q => s.get QD_CTRL.PRIO q).foldl max 0

/-- The eligible queues that engine `e` owns whose head was eligible already when the engine became IDLE. -/
def State.waitedFor (s : State) (e : Nat) : List Nat :=
  (s.ownReady e).filter fun q => (s.eng e).idleOwn.contains q &&
    (s.eligible q).any fun i => decide (max i.eligAt (s.queue q).openAt ≤ (s.eng e).busyFrom)

/-- R198: the queue that an engine that has become IDLE serves among its own queues that were eligible then. The round-robin of an
engine that has served no queue yet starts after queue 0 (DESIGN CHOICE, log entry 115). -/
def State.ownPick (s : State) (e : Nat) : Option Nat :=
  let own := s.waitedFor e
  let top := own.filter fun q => s.get QD_CTRL.PRIO q == s.topPrio own
  (top.find? fun q => decide ((s.eng e).lastQ < q)).or top.head?

/-- R198: the lowest-numbered IDLE owner of queue `q`. -/
def State.idleOwner (s : State) (q : Nat) : Option Nat := (s.owners q).find? fun e => s.engState e == esIdle

/-- R198: whether engine `e`, an IDLE owner, is the one that serves queue `q` next. An engine that became IDLE while own queues waited
takes the one that it picks; any other item goes, as it becomes eligible, to the lowest-numbered IDLE owner. -/
def State.takesFrom (s : State) (q e : Nat) : Bool :=
  if (s.waitedFor e).isEmpty then s.idleOwner q == some e else s.ownPick e == some q

/-- DISPATCH (R198, R197): the head of queue `q` goes to its lowest-numbered IDLE owner, or to the engine that has become IDLE and
picks the queue. -/
def dispatchS (q e : Nat) (s : State) : State :=
  match s.eligible q with
  | some i =>
    if !s.cdDown && s.engState e = esIdle && s.isOwner q e && s.takesFrom q e then
      giveItem q e i s
    else s
  | none => s

/-- Waiting entries of queue `q`. -/
def State.waitingEntries (s : State) (q : Nat) : Nat :=
  ((s.queue q).items.filter fun i => i.st == .waiting).length * s.qEntries q

/-- R198: whether queue `q` may be stolen from. -/
def State.stealable (s : State) (q : Nat) : Bool :=
  match s.eligible q with
  | some i =>
    !s.isSet QD_CTRL.NOSTEAL q && decide (i.since + 32 * s.get QM_CFG.STEAL_AGE ≤ s.clock) && (s.idleOwner q).isNone
  | none => false

/-- R198: whether candidate `a` comes before candidate `b`. -/
def State.stealBefore (s : State) (a b : Nat) : Bool :=
  let pa := s.get QD_CTRL.PRIO a
  let pb := s.get QD_CTRL.PRIO b
  decide (pb < pa) || (pa == pb && (decide (s.waitingEntries b < s.waitingEntries a) ||
    (s.waitingEntries a == s.waitingEntries b && decide (a < b))))

/-- STEAL (R198): an IDLE engine with no eligible queue of its own takes the head of the first candidate queue. -/
def stealS (q e : Nat) (s : State) : State :=
  match s.eligible q with
  | some i =>
    if !s.cdDown && s.engState e = esIdle && s.isSet ENG_CFG.STEAL_EN e && (s.ownReady e).isEmpty && s.stealable q &&
        (s.readyQueues.filter s.stealable).all (fun r => r == q || s.stealBefore q r) then giveItem q e i s
    else s
  | none => s

/-! ## Releases and completion steps -/

/-- ACTION_RELEASE (R12): the staged actions of an engine's item are released; those of an aborted item are discarded (R203). -/
def releaseStaged (e : Nat) (s : State) : State :=
  let x := s.eng e
  match x.held with
  | none => s
  | some (q, n) =>
    let s := s.setEng e { x with staged := [] }
    match s.item q n with
    | some i =>
      if i.aborted then s
      else
        let k := x.staged.length
        let s := editItem q n (fun i => { i with out := i.out + k, relN := max i.relN x.nact }) s
        let s := forList x.staged (fun a s =>
          let c := s.chip a.kind.chip
          let m := SMap.get (fun _ => 0) c.relMarks q
          s.setChip a.kind.chip { c with relMarks := SMap.set (fun _ => 0) c.relMarks q (max m (markOf a.seq a.idx)) }) s
        { s with rel := s.rel ++ x.staged }
    | none => s

/-- A completion step (R195): ACK releases, NACK discards; the item waits for the completion of R199. -/
def endHandler (e code : Nat) (release : Bool) (s : State) : State :=
  match (s.eng e).held with
  | none => s
  | some (q, n) =>
    let posted := (s.eng e).nact
    let s := if release then releaseStaged e s else s
    let s := editItem q n (fun i => { i with st := .ended, code := code, nact := posted }) s
    engineFree e (s.bump ENG_CNT.ITEMS e)

/-- Return an item to the head of its queue, ahead of every waiting item (R204, R207, R242). -/
def returnItem (q n : Nat) (f : Item → Item) (s : State) : State :=
  match s.item q n with
  | none => s
  | some i =>
    let x := s.queue q
    let j := f { i with st := .waiting, since := s.clock, eligAt := s.clock }
    mirrorItem j (s.setQueue q { x with items := j :: x.items.filter fun k => k.seq != n })

/-! ## Faults and quarantine (R204 to R206) -/

/-- Whether queue 32767 has room for a record (R188). -/
def State.quarRoom (s : State) : Bool := decide (s.get QD_STAT.LEVEL quarQ + 8 ≤ s.get QD_LEN.LEN quarQ)

/-- The payload of a quarantine record (R205): everything after its header. -/
def quarBody (q fault e sz : Nat) (i : Item) : List Dword :=
  let w := q + fault % 256 * 2 ^ 15 + e * 2 ^ 23 + sz * 2 ^ 31
  let l := BitVec.ofNat 64 w :: BitVec.ofNat 64 i.header :: i.body
  l ++ List.replicate (15 - l.length) 0

/-- QUARANTINE (R205): the item is read, leaves its queue, and a record enters queue 32767, in one transaction. -/
def quarantineS (q n fault e : Nat) (s : State) : State :=
  match s.item q n with
  | none => s
  | some i =>
    let body := quarBody q fault e (s.get QD_CTRL.ITEM_SZ q) { i with fcnt := 2 }
    let s := acceptItem quarQ false false body (freeItem q n (readEntries i s))
    let s := (s.bump QD_CNT.QUARS q).raise 356
    s.when (s.isSet QD_CTRL.QSTOP q) (·.put QD_STAT.STOPPED 1 q)

/-- What reports a fault of engine `e` in an item of queue `q` (R204 step 4). -/
def faultSeen (e q code : Nat) (s : State) : State :=
  let s := (s.bump QD_CNT.FAULTS q).bump ENG_CNT.FAULTS e
  ((s.put ENG_STAT.LAST_FAULT code e).put ENG_STAT.FAULTED 1 e).raise 354

/-- HANDLER_FAULT (R204, R205, R206): engine `e`'s handler faults with `code`. -/
def handlerFault (e code : Nat) (s : State) : State :=
  match (s.eng e).held with
  | none => s
  | some (q, n) =>
    let fc := ((s.item q n).map (·.fcnt)).getD 0
    let s :=
      if fc < 2 then returnItem q n (fun i => { i with fcnt := fc + 1 }) s
      else if s.quarRoom then quarantineS q n code e s
      else
        let s := returnItem q n (fun i => { i with fcnt := 2, st := .quarWait code e }) s
        ((s.put QD_STAT.STOPPED 1 q).put QM_STAT.QUAR_FULL 1).raise 357
    engineFree e (faultSeen e q code (s.bump ENG_CNT.ITEMS e))

/-- QUARANTINE_DEFERRED_MOVE (R206): space has freed in queue 32767, and the item that waits for it moves. -/
def quarantineDeferredMoveS (q n : Nat) (s : State) : State :=
  match (s.item q n).map Item.st with
  | some (ItemSt.quarWait fault e) => if s.quarRoom && !s.cdDown then quarantineS q n fault e s else s
  | _ => s

/-- The sequence of the item of queue `q` that waits for quarantine. -/
def State.quarWaiting (s : State) (q : Nat) : Option Nat :=
  ((s.queue q).items.find? fun i => match i.st with | .quarWait _ _ => true | _ => false).map (·.seq)

/-! ## Engine failure, watchdog, yields, load -/

/-- The item that engine `e` holds returns to its queue with `FCNT` unchanged (R207). -/
def redispatch (e : Nat) (s : State) : State :=
  match (s.eng e).held with
  | none => s
  | some (q, n) => (returnItem q n id s).bump QM_CNT.REDISP

/-- The state of an engine page that R207 and R213 discard. -/
def engWipe (e : Nat) (s : State) : State :=
  let s := redispatch e s
  (s.setEng e { (s.eng e).cleared with scratch := [], scrBad := [], reinitAt := none }).put ENG_PC.PC 0 e

/-- Mark engine `e` in `ENG_FAILn`. -/
def markEngine (e : Nat) (b : Bool) (s : State) : State :=
  let v := s.get ENG_FAIL.ENG (e / 32)
  let bit := 2 ^ (e % 32)
  s.put ENG_FAIL.ENG (if b then v ||| bit else v &&& (2 ^ 32 - 1 - bit)) (e / 32)

/-- A failure of kind `code` at part `i`, while the control die does not work: the scan at its return finds it (R379 step 4). -/
def failsUnseen (code i : Nat) (s : State) : State :=
  if s.lossFaults.contains (code, i) then s else { s with lossFaults := s.lossFaults ++ [(code, i)] }

/-- ENGFAIL (R207, R377): the fault handler declares an engine failed; after a loss of the control die or a warm reset, at its end (R379,
R384). -/
def engFailS (e : Nat) (s : State) : State :=
  if s.coldHeld || s.engState e = esFailed then s
  else if s.cdDown then failsUnseen 2 e s
  else
    let s := setEngState e esFailed (engWipe e s)
    let s := (markEngine e true (s.put ENG_STAT.FAILED_SEEN 1 e)).raise 355
    checkStarveAll (faultReport 2 s)

/-- ENG_REINIT (R5, R207, R213): the engine is being re-initialised. It returns at some tick within 2 µs, a different one on each
occasion: which one is open. -/
def engReinitS (e : Nat) (s : State) : State :=
  let (d, s) := s.free 13
  let s := setEngState e esReinit (markEngine e false (engWipe e s))
  let s := s.setEng e { s.eng e with reinitAt := some (s.clock + 1 + d % 6400) }
  checkStarveAll (refreshLevel (s.put ENG_CMD.REINIT 1 e))

/-- R207: a re-initialised engine returns to IDLE, or to OFF if `EN` = 0. -/
def engReturn (e : Nat) (s : State) : State :=
  let s := s.setEng e { s.eng e with reinitAt := none }
  checkStarveAll (setEngState e (if s.engOn e then esIdle else esOff) (s.put ENG_CMD.REINIT 0 e))

/-- The engines whose re-initialisation ends at this tick return. -/
def engReturns (s : State) : State :=
  forList (s.engines.filter fun x => x.2.reinitAt.any fun t => decide (t ≤ s.clock)) (fun x => engReturn x.1) s

/-- ENGINE_WDOG (R195): the handler has held its item for `WDOG_US`. -/
def engineWdogS (e : Nat) (s : State) : State :=
  let us := s.get ENG_WDOG.WDOG_US e
  if (s.eng e).held.isSome && us ≠ 0 && !s.cdDown && (s.eng e).since + us * usTk ≤ s.clock then handlerFault e 0x0E s else s

/-- YIELD_ELIGIBLE (R242, R198): the delay that a YIELD named has passed. The item's wait is measured from its return. -/
def yieldEligibleS (q n : Nat) (s : State) : State :=
  match (s.item q n).map Item.st with
  | some (ItemSt.yielded due) =>
    if due ≤ s.clock then checkStarve q (editItem q n (fun i => { i with st := .waiting, eligAt := s.clock }) s) else s
  | _ => s

/-- The ticks that all engines have spent in service, and those of them outside IDLE (R209). -/
def State.loadTotal (s : State) : Nat × Nat :=
  (List.range 256).foldl (fun a e => (a.1 + (s.engLoad e).1, a.2 + (s.engLoad e).2)) (0, 0)

/-- R209: whether `pct` is the load since the last update in per cent. The spec does not say how it is rounded. -/
def State.loadIs (s : State) (pct : Nat) : Bool :=
  let t := s.loadTotal
  let all := t.1 - s.loadMark.1
  let ran := t.2 - s.loadMark.2
  if all = 0 then pct == 0 else decide (pct * all < 100 * ran + all) && decide (100 * ran < pct * all + all)

/-- QM_LOAD_UPDATE (R209): every 1 ms the load over that time is reported. -/
def qmLoadUpdateS (pct : Nat) (s : State) : State :=
  if s.timer tmLoad ≤ s.clock && !s.cdDown && s.loadIs pct then
    let s : State := { s with loadMark := s.loadTotal }
    (s.put QM_LOAD.LOAD_PCT pct).setTimer tmLoad (s.timer tmLoad + msTk)
  else s

/-- A write to `ENG_CFG` has stored its value (R196): `EN` = 0 takes effect at the next completion step, `EN` = 1 brings an OFF
engine back to IDLE. -/
def engCfgWritten (e : Nat) (s : State) : State :=
  let st := s.engState e
  let en := s.engOn e
  let s := if en && st = esOff then setEngState e esIdle s else if !en && st = esIdle then setEngState e esOff s else s
  checkStarveAll s

/-! ## Descriptors (R183 to R188) -/

/-- A refused descriptor write: `DESCERR`, `LAST_DESC` and the record. -/
def descErr (q code : Nat) (s : State) : State :=
  let s0 := s
  let s := if code = 8 then s else s.put QD_STAT.DESCERR 1 q
  (s.put QM_STAT.LAST_DESC code).logEvent s0 (if code = 8 then RegId.QM_STAT.at else RegId.QD_STAT.at q) code

/-- R186: the code of the first enable check that fails, for the `QD_CTRL` word `v`. -/
def enableCheck (s : State) (q : Nat) (v : Word) : Option Nat :=
  let len := s.get QD_LEN.LEN q
  if fieldOf v 2 2 = 3 then some 1
  else if len = 0 then some 2
  else if s.get QM_STAT.POOL_FREE < (len + 63) / 64 then some 3
  else if fieldOf v 7 1 = 0 && fieldOf v 6 1 = 1 && (List.range 8).all (fun w => s.get QD_AFF.AFF q w == 0) then some 4
  else if fieldOf v 14 1 = 1 && (fieldOf v 16 15 == q || fieldOf v 16 15 == quarQ) then some 5
  else none

/-- R186: `LEN` is rounded down to a multiple of the item's entries. -/
def roundLen (q : Nat) (v : Word) (s : State) : State :=
  let e := 2 ^ fieldOf v 2 2
  let len := s.get QD_LEN.LEN q
  if fieldOf v 2 2 = 3 || len % e = 0 then s else (s.put QD_LEN.LEN (len - len % e) q).put QD_STAT.LENCLAMP 1 q

/-- Pool blocks that no queue holds, starting the search at block `pick`. -/
def State.freeBlocks (s : State) (pick : Nat) : List Nat :=
  let used := s.queues.flatMap fun e => e.2.blocks
  ((List.range 16320).map fun k => (pick + k) % 16320).filter fun b => !used.contains b

/-- A successful enable (R186): blocks reserved (which ones the spec leaves open), `QD_SEQ` = 1, and the applied marks cleared on
every chiplet, with the abort that one of the old numbers left there (R15, R203). -/
def enableQueue (q : Nat) (s : State) : State :=
  let n := (s.get QD_LEN.LEN q + 63) / 64
  let (pick, s) := s.free 14
  let s := s.setQueue q { items := [], nextSeq := 1, blocks := (s.freeBlocks pick).take n }
  let s := s.put QM_STAT.POOL_FREE (s.get QM_STAT.POOL_FREE - n)
  forBelow 8 (fun c s =>
    let s := setMark c q 0 s
    s.setChip c { s.chip c with
      relMarks := SMap.set (fun _ => 0) (s.chip c).relMarks q 0, aborts := SMap.set (fun _ => 0) (s.chip c).aborts q 0 }) s

/-- A write to a queue's `QD_CTRL` (R186, R187, R188, R205): the value to store. What a refused write carries beside `EN` is applied, and
a bad `CQ` is reported last (DESIGN CHOICE, log entry 133). -/
def hookQdCtrl (q : Nat) (old new : Word) (s : State) : Word × State :=
  let resume := fieldOf new 15 1 == 1
  let v := withField new 15 1 0
  let s := s.when (resume && s.isSet QD_STAT.STOPPED q) fun s => queueOpens q (s.put QD_STAT.STOPPED 0 q)
  let keep := fun (v : Word) (lo w : Nat) => withField v lo w (fieldOf old lo w)
  let (v, s) :=
      if q = quarQ then
        let k := keep (keep (keep v 0 1) 2 2) 7 1
        let j := keep k 1 1
        (j, (s.when (k != v) (descErr q 8)).when (j != k) (descErr q 7))
      else if fieldOf old 0 1 = 1 then
        let k := keep (keep (keep v 1 1) 2 2) 7 1
        let s := s.when (k != v) (descErr q 7)
        if fieldOf k 0 1 = 0 then
          if s.get QD_STAT.LEVEL q ≠ 0 then (withField k 0 1 1, descErr q 6 s)
          else
            let n := (s.queue q).blocks.length
            (k, (s.setQueue q { s.queue q with blocks := [] }).put QM_STAT.POOL_FREE (s.get QM_STAT.POOL_FREE + n))
        else (k, s)
      else if fieldOf v 0 1 = 1 then
        let s := roundLen q v s
        match enableCheck s q v with
        | some code => (withField v 0 1 0, descErr q code s)
        | none => (v, enableQueue q s)
      else (v, s)
  if fieldOf v 14 1 = 1 && (fieldOf v 16 15 == q || fieldOf v 16 15 == quarQ) then
    let reported := fieldOf old 0 1 == 0 && fieldOf new 0 1 == 1 && s.get QM_STAT.LAST_DESC == 5
    (keep (keep v 14 1) 16 15, if reported then s else descErr q 5 s)
  else (v, s)

/-- A write to a queue's `QD_LEN` (R187, R188). -/
def hookQdLen (q : Nat) (old new : Word) (s : State) : Word × State :=
  if (q = quarQ || s.isSet QD_CTRL.EN q) && fieldOf old 0 20 ≠ fieldOf new 0 20 then
    (withField new 0 20 (fieldOf old 0 20), descErr q (if q = quarQ then 8 else 7) s)
  else (new, s)

end Sys2Proof.Machine
end

