-- ==== Sys2Proof/Machine/Celil.lean ====
section
/-! DEFINITION. The engines' instruction execution (R212 to R222): fetch through the program store or the execute-in-place window,
faults, and the integer, logic, branch and jump instructions. -/

namespace Sys2Proof.Machine

/-- The outcome type of every command's meaning. -/
abbrev Res := Host.Outcome State Fault Refusal

/-! ## Engine registers (R212) -/

/-- General register `k`: g0 reads 0. -/
def State.gr (s : State) (e k : Nat) : Dword := if k = 0 then 0 else SMap.get (fun _ => 0) (s.eng e).g k

/-- Write general register `k`: a write to g0 is discarded. -/
def setGr (e k : Nat) (v : Dword) (s : State) : State :=
  if k = 0 then s else s.setEng e { s.eng e with g := SMap.set (fun _ => 0) (s.eng e).g k v }

/-- Time register `k` in TS80 form (R7). -/
def State.tr (s : State) (e k : Nat) : BitVec 80 := SMap.get (fun _ => 0) (s.eng e).t k
def setTr (e k : Nat) (v : BitVec 80) (s : State) : State :=
  s.setEng e { s.eng e with t := SMap.set (fun _ => 0) (s.eng e).t k v }

/-- The tick count and the fraction of a TS80. -/
def tickOf (t : BitVec 80) : Nat := t.toNat / 65536
def fracOf (t : BitVec 80) : Nat := t.toNat % 65536

/-- The PC, reported in `ENG_PC`. -/
def State.pc (s : State) (e : Nat) : Nat := s.get ENG_PC.PC e
def setPc (e a : Nat) (s : State) : State := s.put ENG_PC.PC a e

/-! Fault codes of R219. Where an instruction meets several causes, its meaning below tests TGTRANGE first, and OPERAND before RACC (DESIGN
CHOICE, log entry 116). -/
abbrev fILLEGAL : Nat := 0x01
abbrev fIADDR : Nat := 0x02
abbrev fIFETCH : Nat := 0x03
abbrev fSADDR : Nat := 0x04
abbrev fDADDR : Nat := 0x05
abbrev fDMEM : Nat := 0x06
abbrev fRACC : Nat := 0x07
abbrev fOPERAND : Nat := 0x08
abbrev fTGTRANGE : Nat := 0x09
abbrev fCTXBAD : Nat := 0x0A
abbrev fACTLIMIT : Nat := 0x0B
abbrev fPUTLIMIT : Nat := 0x0C
abbrev fNOACK : Nat := 0x0D

/-! ## Code space and fetch (R215, R216) -/

/-- R347: whether the master port, with the `SM_CFG` in force (R350), is set up for execute-in-place. -/
def State.xipSet (s : State) : Bool :=
  fieldOf s.sm.cfg 0 1 == 1 && s.isSet SM_XIP.EN && (fieldOf s.sm.cfg 12 4).testBit (s.get SM_XIP.SEL)

/-- R347: whether the execute-in-place window is set up at window offset `off`. -/
def State.xipOn (s : State) (off : Nat) : Bool :=
  s.xipSet && (s.isSet SM_XIP.ADDR4 || decide (off < 2 ^ 24))

/-- The line that holds window offset `off`, if the cache has it (with `EN` = 1) or a fill has delivered it to engine `e` for this very
fetch or load of the instruction in hand: with `EN` = 0 every fetch and load is a fill of its own. -/
def State.xipLine (s : State) (e off : Nat) (load : Bool) : Option (List Byte) :=
  let line := off / 64 * 64
  let own := (s.eng e).lines.find? fun l => l.1 == (off, load)
  let kept := if s.isSet XIP_CACHE.EN then s.xip.lines.find? fun l => l.1 == line else none
  (own.map (·.2)).or (kept.map (·.2))

/-- A hit makes its line the most recently used one. -/
def xipTouch (off : Nat) (s : State) : State :=
  let line := off / 64 * 64
  match s.xip.lines.find? fun l => l.1 == line with
  | some l => { s with xip := { s.xip with lines := l :: s.xip.lines.filter fun m => m.1 != line } }
  | none => s

/-- Engine `e` misses on the line of window offset `off`: it waits, and the line joins the misses unless it is among them. -/
def xipMiss (e off : Nat) (load : Bool) (s : State) : State :=
  let line := off / 64 * 64
  let s := s.setEng e { s.eng e with wait := some (.xip off load) }
  if s.xip.misses.any (fun m => m.1 == line) || (s.xip.filling == some line && !s.xip.drop) then s
  else { s with xip := { s.xip with misses := s.xip.misses ++ [(line, s.clock)] } }

/-- What a fetch or a load finds. -/
inductive Found where
  | val (v : Nat)
  | fault (code : Nat)
  | miss (off : Nat)
  deriving DecidableEq, Repr

/-- Whether a code address lies in code space and is word-aligned (R192). -/
def codeAddrOk (a : Nat) : Bool :=
  a % 4 == 0 && (decide (a < 0x400000) || (decide (0x04000000 ≤ a) && decide (a < 0x08000000)))

/-- Fetch the word at code address `a` (R215, R216, R418). -/
def State.fetchWord (s : State) (e a : Nat) : Found :=
  if !codeAddrOk a then .fault fIADDR
  else if a < 0x400000 then
    if s.bankLost (bankOf (0x01400000 + a)) || s.anyBad (0x01400000 + a) 4 then .fault fIFETCH
    else .val (s.word (0x01400000 + a)).toNat
  else
    let off := a - 0x04000000
    if !s.xipOn off then .fault fIADDR
    else
      match s.xipLine e off false with
      | some l => .val (leNat ((l.drop (off % 64)).take 4))
      | none => .miss off

/-- Whether engine `e` may execute an instruction: it runs a handler and waits for nothing. -/
def State.canRun (s : State) (e : Nat) : Bool :=
  !s.cdDown && s.engState e == esRun && (s.eng e).wait.isNone

/-- After an instruction the lines delivered for it are gone, unless it waits for another. -/
def dropLines (e : Nat) (s : State) : State :=
  match (s.eng e).wait with
  | some (.xip _ _) => s
  | _ => s.setEng e { s.eng e with lines := [] }

/-- A fetch of the word at code address `a`: a single-bit error of the program store is corrected (R28), and a cached line is the
most recently used one (R216). -/
def fetchTouch (a : Nat) (s : State) : State :=
  if a < 0x04000000 then sramFix (0x01400000 + a) 4 s else xipTouch (a - 0x04000000) s

/-- A fetch that faults notes the uncorrectable rows that it met (R29). -/
def fetchMeets (a c : Nat) (s : State) : State := if c = fIFETCH then sramMeets (0x01400000 + a) 4 s else s

/-- Engine `e` executes the instruction whose words are `ws`: they are fetched at PC, and if they are these words `body` acts. A
failed fetch faults, a miss waits (R215, R216, R219). -/
def runCelil (e : Nat) (ws : List Word) (body : State → State) (s : State) : State :=
  if !s.canRun e then s
  else
    let go := fun (s : State) => dropLines e (body s)
    match s.fetchWord e (s.pc e) with
    | .fault c => handlerFault e c (fetchMeets (s.pc e) c s)
    | .miss off => xipMiss e off false s
    | .val v =>
      match ws with
      | [w] => if v = w.toNat then go (fetchTouch (s.pc e) s) else s
      | [w, w1] =>
        if v = w.toNat then
          match s.fetchWord e (s.pc e + 4) with
          | .fault c => handlerFault e c (fetchMeets (s.pc e + 4) c s)
          | .miss off => xipMiss e off false s
          | .val v1 => if v1 = w1.toNat then go (fetchTouch (s.pc e + 4) (fetchTouch (s.pc e) s)) else s
        else s
      | _ => s

/-- Go on `n` words further. -/
def advance (e n : Nat) (s : State) : State := setPc e (s.pc e + 4 * n) s

/-- Write g`d` and go on with the next word. -/
def writeNext (e d : Nat) (v : Dword) (s : State) : State := advance e 1 (setGr e d v s)

/-- The 16-bit immediate, sign-extended or zero-extended. -/
def sx16 (imm : BitVec 16) : Dword := imm.signExtend 64
def zx16 (imm : BitVec 16) : Dword := imm.setWidth 64

/-- A one-bit result. -/
def boolWord (b : Bool) : Dword := if b then 1 else 0

/-! ## Integer and logic (R221) -/

/-- A three-register integer instruction. -/
def intOp (e : EngineIx) (d a b : GReg) (func : Nat) (f : Dword → Dword → Dword) (s : State) : Res :=
  .next (runCelil e [encR 0 d a b func] (fun s => writeNext e d (f (s.gr e a) (s.gr e b)) s) s)

def execCAdd (e : EngineIx) (d a b : GReg) (s : State) : Res := intOp e d a b 0 (fun x y => x + y) s
def execCSub (e : EngineIx) (d a b : GReg) (s : State) : Res := intOp e d a b 1 (fun x y => x - y) s
def execCAnd (e : EngineIx) (d a b : GReg) (s : State) : Res := intOp e d a b 2 (fun x y => x &&& y) s
def execCOr (e : EngineIx) (d a b : GReg) (s : State) : Res := intOp e d a b 3 (fun x y => x ||| y) s
def execCXor (e : EngineIx) (d a b : GReg) (s : State) : Res := intOp e d a b 4 (fun x y => x ^^^ y) s
def execCSll (e : EngineIx) (d a b : GReg) (s : State) : Res := intOp e d a b 5 (fun x y => x <<< (y.toNat % 64)) s
def execCSrl (e : EngineIx) (d a b : GReg) (s : State) : Res := intOp e d a b 6 (fun x y => x >>> (y.toNat % 64)) s
def execCSra (e : EngineIx) (d a b : GReg) (s : State) : Res := intOp e d a b 7 (fun x y => x.sshiftRight (y.toNat % 64)) s
def execCSlt (e : EngineIx) (d a b : GReg) (s : State) : Res := intOp e d a b 8 (fun x y => boolWord (x.slt y)) s
def execCSltu (e : EngineIx) (d a b : GReg) (s : State) : Res := intOp e d a b 9 (fun x y => boolWord (x.ult y)) s
def execCMul (e : EngineIx) (d a b : GReg) (s : State) : Res := intOp e d a b 10 (fun x y => x * y) s
def execCMulhu (e : EngineIx) (d a b : GReg) (s : State) : Res :=
  intOp e d a b 11 (fun x y => BitVec.ofNat 64 (x.toNat * y.toNat / 2 ^ 64)) s
/-- Division by 0 gives all ones. -/
def execCDivu (e : EngineIx) (d a b : GReg) (s : State) : Res :=
  intOp e d a b 12 (fun x y => if y = 0 then BitVec.ofNat 64 (2 ^ 64 - 1) else x / y) s
/-- The remainder by 0 is the dividend. -/
def execCRemu (e : EngineIx) (d a b : GReg) (s : State) : Res := intOp e d a b 13 (fun x y => if y = 0 then x else x % y) s

/-- An instruction with one register operand and an immediate. -/
def immOp (e : EngineIx) (op : Nat) (d a : GReg) (imm : Nat) (f : Dword → Dword) (s : State) : Res :=
  .next (runCelil e [encI op d a imm] (fun s => writeNext e d (f (s.gr e a)) s) s)

def execCAddi (e : EngineIx) (d a : GReg) (imm : BitVec 16) (s : State) : Res := immOp e 1 d a imm.toNat (· + sx16 imm) s
def execCAndi (e : EngineIx) (d a : GReg) (imm : BitVec 16) (s : State) : Res := immOp e 2 d a imm.toNat (· &&& zx16 imm) s
def execCOri (e : EngineIx) (d a : GReg) (imm : BitVec 16) (s : State) : Res := immOp e 3 d a imm.toNat (· ||| zx16 imm) s
def execCXori (e : EngineIx) (d a : GReg) (imm : BitVec 16) (s : State) : Res := immOp e 4 d a imm.toNat (· ^^^ zx16 imm) s
def execCSlli (e : EngineIx) (d a : GReg) (n : BitVec 6) (s : State) : Res := immOp e 5 d a n.toNat (· <<< n.toNat) s
def execCSrli (e : EngineIx) (d a : GReg) (n : BitVec 6) (s : State) : Res := immOp e 5 d a (64 + n.toNat) (· >>> n.toNat) s
def execCSrai (e : EngineIx) (d a : GReg) (n : BitVec 6) (s : State) : Res :=
  immOp e 5 d a (128 + n.toNat) (·.sshiftRight n.toNat) s
def execCSlti (e : EngineIx) (d a : GReg) (imm : BitVec 16) (s : State) : Res :=
  immOp e 6 d a imm.toNat (fun x => boolWord (x.slt (sx16 imm))) s
def execCLui (e : EngineIx) (d : GReg) (imm : BitVec 16) (s : State) : Res :=
  immOp e 7 d 0 imm.toNat (fun _ => (BitVec.ofNat 32 (imm.toNat * 65536)).signExtend 64) s

/-- A long-form load of an immediate. -/
def longOp (e : EngineIx) (d : GReg) (func : Nat) (imm : Word) (f : Dword → Dword) (s : State) : Res :=
  .next (runCelil e [encL 0 d func, imm] (fun s => advance e 2 (setGr e d (f (s.gr e d)) s)) s)

def execCLdi (e : EngineIx) (d : GReg) (imm : Word) (s : State) : Res := longOp e d 0 imm (fun _ => imm.signExtend 64) s
def execCLdiU (e : EngineIx) (d : GReg) (imm : Word) (s : State) : Res := longOp e d 1 imm (fun _ => imm.setWidth 64) s
def execCLdiH (e : EngineIx) (d : GReg) (imm : Word) (s : State) : Res :=
  longOp e d 2 imm (fun x => BitVec.ofNat 64 (imm.toNat * 2 ^ 32 + x.toNat % 2 ^ 32)) s

/-! ## Branches and jumps (R222) -/

/-- The address `n` words from the instruction at `pc`, modulo 2^64. -/
def branchTarget (pc : Nat) (words : Int) : Nat := (((pc : Int) + 4 * words) % 2 ^ 64).toNat

/-- Jump to `target`, writing the link first if there is one; a target outside code space or misaligned raises IADDR and changes
nothing (R215, R219). -/
def jumpTo (e target : Nat) (link : Option (Nat × Nat)) (s : State) : State :=
  if codeAddrOk target then
    let s := match link with
      | some (d, n) => setGr e d (BitVec.ofNat 64 (s.pc e + 4 * n)) s
      | none => s
    setPc e target s
  else handlerFault e fIADDR s

/-- A conditional branch. -/
def branchOp (e : EngineIx) (op : Nat) (a b : GReg) (imm : BitVec 16) (c : Dword → Dword → Bool) (s : State) : Res :=
  .next (runCelil e [encI op a b imm.toNat] (fun s =>
    if c (s.gr e a) (s.gr e b) then jumpTo e (branchTarget (s.pc e) imm.toInt) none s else advance e 1 s) s)

def execCBeq (e : EngineIx) (a b : GReg) (imm : BitVec 16) (s : State) : Res := branchOp e 8 a b imm (fun x y => x == y) s
def execCBne (e : EngineIx) (a b : GReg) (imm : BitVec 16) (s : State) : Res := branchOp e 9 a b imm (fun x y => x != y) s
def execCBlt (e : EngineIx) (a b : GReg) (imm : BitVec 16) (s : State) : Res := branchOp e 10 a b imm (fun x y => x.slt y) s
def execCBge (e : EngineIx) (a b : GReg) (imm : BitVec 16) (s : State) : Res := branchOp e 11 a b imm (fun x y => !x.slt y) s
def execCBltu (e : EngineIx) (a b : GReg) (imm : BitVec 16) (s : State) : Res := branchOp e 12 a b imm (fun x y => x.ult y) s
def execCBgeu (e : EngineIx) (a b : GReg) (imm : BitVec 16) (s : State) : Res := branchOp e 13 a b imm (fun x y => !x.ult y) s

def execCJal (e : EngineIx) (d : GReg) (off : BitVec 21) (s : State) : Res :=
  .next (runCelil e [encJ 14 d off] (fun s => jumpTo e (branchTarget (s.pc e) off.toInt) (some (d, 1)) s) s)

/-- The target is computed before g`d` is written. -/
def execCJalr (e : EngineIx) (d a : GReg) (imm : BitVec 16) (s : State) : Res :=
  .next (runCelil e [encI 15 d a imm.toNat] (fun s => jumpTo e (s.gr e a + sx16 imm).toNat (some (d, 1)) s) s)

def execCJl (e : EngineIx) (d : GReg) (addr : Word) (s : State) : Res :=
  .next (runCelil e [encL 1 d 0, addr] (fun s => jumpTo e addr.toNat (some (d, 2)) s) s)

/-! ## System instructions that only fault (R218, R243) -/

/-- ILLEGAL (R218): the fetched word decodes to no instruction. -/
def execIllegal (e : EngineIx) (w : Word) (s : State) : Res :=
  .next (if (celilDecode e w 0).isSome then s else runCelil e [w] (handlerFault e fILLEGAL) s)

def execCTrap (e : EngineIx) (n : BitVec 6) (s : State) : Res :=
  .next (runCelil e [encI 0x2C 0 0 n.toNat] (handlerFault e (0x40 + n.toNat)) s)

def execCHalt (e : EngineIx) (s : State) : Res := .next (runCelil e [encI 0x2D 0 0 0] (handlerFault e fNOACK) s)

/-- HALT.S also clears `ENG_CFG.EN` at the completion step, logged as a hardware change by the fault handler. -/
def execCHaltS (e : EngineIx) (s : State) : Res :=
  .next (runCelil e [encI 0x2D 0 0 1] (fun s =>
    let t := s.put ENG_CFG.EN 0 e
    handlerFault e fNOACK
      (t.log oFault kHWCHANGE (RegId.ENG_CFG.at e) (s.reg (RegId.ENG_CFG.at e)) (t.reg (RegId.ENG_CFG.at e)) 0)) s)

end Sys2Proof.Machine
end

