-- ==== Sys2Proof/Machine/CelilData.lean ====
section
/-! DEFINITION. The Celil instructions that reach memory, queues, time, events and the chiplets (R223 to R226, R229 to R243), and
the events that end their waits. -/

namespace Sys2Proof.Machine

/-! ## Scratch (R223) -/

/-- `n` bytes of scratch from offset `off`. -/
def State.scratchAt (s : State) (e off n : Nat) : List Byte :=
  (List.range n).map fun i => SMap.get (fun _ => (0 : Byte)) (s.eng e).scratch (off + i)

/-- Store bytes in scratch; a word written whole is good again. -/
def setScratch (e off : Nat) (bs : List Byte) (s : State) : State :=
  let x := s.eng e
  s.setEng e { x with
    scratch := SMap.setMany (fun _ => (0 : Byte)) x.scratch off bs
    scrBad := x.scrBad.filter fun w => decide (8 * w < off) || decide (off + bs.length < 8 * w + 8) }

/-- Whether a range of scratch holds an uncorrectable word. -/
def State.scratchBad (s : State) (e off n : Nat) : Bool :=
  (s.eng e).scrBad.any fun w => decide (8 * w < off + n) && decide (off < 8 * w + 8)

/-- Whether `n` bytes at `off`, aligned to `al`, lie within scratch. -/
def scratchOk (off n al : Nat) : Bool := off % al == 0 && decide (off + n ≤ 0x1000)

/-- The loaded value of `n` bytes, zero-extended (`u`) or sign-extended. -/
def extendLoad (n : Nat) (u : Bool) (v : Nat) : Dword :=
  if u then BitVec.ofNat 64 v else (BitVec.ofNat (8 * n) v).signExtend 64

/-- The effective address g`a` + s(off13), modulo 2^64. -/
def State.effAddr (s : State) (e a : Nat) (off : BitVec 13) : Nat := (s.gr e a + off.signExtend 64).toNat

/-- LDS (R223). -/
def execCLds (e : EngineIx) (w : Fin 4) (u : Bool) (d a : GReg) (off : BitVec 13) (s : State) : Res :=
  .next (runCelil e [encM 0x10 d a w u off] (fun s =>
    let n := 2 ^ w.val
    let x := s.effAddr e a off
    if !scratchOk x n n then handlerFault e fSADDR s
    else if s.scratchBad e x n then handlerFault e fDMEM s
    else writeNext e d (extendLoad n u (leNat (s.scratchAt e x n))) s) s)

/-- STS (R223). -/
def execCSts (e : EngineIx) (w : Fin 4) (d a : GReg) (off : BitVec 13) (s : State) : Res :=
  .next (runCelil e [encM 0x11 d a w false off] (fun s =>
    let n := 2 ^ w.val
    let x := s.effAddr e a off
    if !scratchOk x n n then handlerFault e fSADDR s
    else advance e 1 (setScratch e x (leBytes n (s.gr e d).toNat) s)) s)

/-! ## Shared data (R224, R225) -/

/-- Whether an address lies in the program store. -/
def inStore (x : Nat) : Bool := decide (0x01400000 ≤ x) && decide (x < 0x01800000)

/-- Whether LD may read an on-chip address: program store, Tansy log or record ring space. -/
def loadable (x : Nat) : Bool :=
  (decide (0x01400000 ≤ x) && decide (x < 0x01A00000)) || (decide (0x01A14000 ≤ x) && decide (x < 0x01D00000))

/-- Load `n` bytes at data address `x` (R224, R28, R418). -/
def State.sharedLoad (s : State) (e x n : Nat) : Found :=
  if x % n ≠ 0 then .fault fDADDR
  else if loadable x then
    if s.bankLost (bankOf x) || s.anyBad x n then .fault fDMEM else .val (leNat (s.bytesAt x n))
  else if 0x04000000 ≤ x && x < 0x08000000 then
    let off := x - 0x04000000
    if !s.xipOn off then .fault fDADDR
    else
      match s.xipLine e off true with
      | some l => .val (leNat ((l.drop (off % 64)).take n))
      | none => .miss off
  else .fault fDADDR

/-- LD (R224). -/
def execCLd (e : EngineIx) (w : Fin 4) (u : Bool) (d a : GReg) (off : BitVec 13) (s : State) : Res :=
  .next (runCelil e [encM 0x12 d a w u off] (fun s =>
    let n := 2 ^ w.val
    let x := s.effAddr e a off
    match s.sharedLoad e x n with
    | .fault c => handlerFault e c (if c = fDMEM then sramMeets x n s else s)
    | .miss o => xipMiss e o true s
    | .val v =>
      let s := if x < 0x04000000 then sramFix x n s else xipTouch (x - 0x04000000) s
      writeNext e d (extendLoad n u v) s) s)

/-- The fault of a store or atomic of `n` bytes at `x`, if it has one. -/
def State.storeFault (s : State) (x n : Nat) : Option Nat :=
  if x % n ≠ 0 || !inStore x then some fDADDR else if s.bankLost (bankOf x) then some fDMEM else none

/-- ST (R224). -/
def execCSt (e : EngineIx) (w : Fin 4) (d a : GReg) (off : BitVec 13) (s : State) : Res :=
  .next (runCelil e [encM 0x13 d a w false off] (fun s =>
    let n := 2 ^ w.val
    let x := s.effAddr e a off
    match s.storeFault x n with
    | some c => handlerFault e c s
    | none => advance e 1 (s.store x (leBytes n (s.gr e d).toNat))) s)

/-- An atomic (R225): `f` makes the new word from the old one, g`d` and g`b`. -/
def atomicOp (e : EngineIx) (d a b : GReg) (func : Nat) (f : Dword → Dword → Dword → Dword) (s : State) : Res :=
  .next (runCelil e [encR 0x14 d a b func] (fun s =>
    let x := (s.gr e a).toNat
    match s.storeFault x 8 with
    | some c => handlerFault e c s
    | none =>
      if s.anyBad x 8 then handlerFault e fDMEM (sramMeets x 8 s)
      else
        let old := BitVec.ofNat 64 (leNat (s.bytesAt x 8))
        writeNext e d old ((sramFix x 8 s).store x (leBytes 8 (f old (s.gr e d) (s.gr e b)).toNat))) s)

def execCAadd (e : EngineIx) (d a b : GReg) (s : State) : Res := atomicOp e d a b 0 (fun old _ y => old + y) s
def execCAswp (e : EngineIx) (d a b : GReg) (s : State) : Res := atomicOp e d a b 1 (fun _ _ y => y) s
def execCAcas (e : EngineIx) (d a b : GReg) (s : State) : Res :=
  atomicOp e d a b 2 (fun old x y => if old = x then y else old) s

/-! ## Queue instructions (R229, R230) -/

/-- The 64-bit result of a submission or take. -/
def queueResult (status seq : Nat) : Dword := BitVec.ofNat 64 (status % 256 + seq * 65536)

/-- The item that engine `e` holds. -/
def State.heldItem (s : State) (e : Nat) : Option Item := (s.eng e).held.bind fun h => s.item h.1 h.2

/-- TAKE. -/
def execCTake (e : EngineIx) (d b : GReg) (s : State) : Res :=
  .next (runCelil e [encA 0x18 0 b d 0 0] (fun s =>
    match s.heldItem e with
    | none => s
    | some i =>
      let off := (s.gr e b).toNat
      if !scratchOk off i.size 16 then handlerFault e fSADDR s
      else writeNext e d (BitVec.ofNat 64 i.header) (setScratch e off i.bytes s)) s)

/-- TAKE.H: the permission class is ENGINE (R214). -/
def execCTakeH (e : EngineIx) (d b q : GReg) (s : State) : Res :=
  .next (runCelil e [encA 0x18 q b d 0 1] (fun s =>
    let k := (s.gr e q).toNat
    let off := (s.gr e b).toNat
    if 32767 < k then handlerFault e fTGTRANGE s
    else if !scratchOk off (s.qItemSize k) 16 then handlerFault e fSADDR s
    else
      match takeS k 2 s with
      | (st, some i, t) => writeNext e d (queueResult st i.seq) (setScratch e off i.bytes t)
      | (st, none, t) => writeNext e d (queueResult st 0) t) s)

/-- The submission of a PUT once nothing holds it (R230, R194). -/
def putNow (e : Nat) (d b q : GReg) (s : State) : State :=
  let k := (s.gr e q).toNat
  let off := (s.gr e b).toNat
  let size := if s.get QD_CTRL.ITEM_SZ k = 3 then 16 else s.qItemSize k
  if 32767 < k then handlerFault e fTGTRANGE s
  else if !scratchOk off size 16 then handlerFault e fSADDR s
  else
    let n := (s.eng e).puts + 1
    if n = 4096 then handlerFault e fPUTLIMIT s
    else if s.scratchBad e off size then handlerFault e fDMEM s
    else
      match (s.eng e).held, s.heldItem e with
      | some (hq, hn), some i =>
        let s := s.setEng e { s.eng e with puts := n, wait := none }
        if n ≤ i.puts then writeNext e d (queueResult 8 0) s
        else
          let r := submitBytes k 2 (s.scratchAt e off size) s
          let t := if r.1 = 0 then rewriteItem hq hn (fun i => { i with puts := n }) r.2.2 else r.2.2
          writeNext e d (queueResult r.1 r.2.1) t
      | _, _ => s

/-- PUT: while acceptance runs above its rates (`busy`) it waits at the engine. -/
def execCPut (e : EngineIx) (d b q : GReg) (busy : Bool) (s : State) : Res :=
  .next (runCelil e [encA 0x19 q b d 0 0] (fun s =>
    if busy then setEngState e esStall (s.setEng e { s.eng e with wait := some (.put (.cPut e d b q false)) })
    else putNow e d b q s) s)

/-- PUT_WAIT_END (R230): acceptance has caught up. -/
def execPutWaitEnd (e : EngineIx) (s : State) : Res :=
  .next (match (s.eng e).wait with
    | some (.put (.cPut _ d b q _)) =>
      if s.cdDown || s.engState e != esStall then s
      else dropLines e (putNow e d b q (setEngState e esRun (s.setEng e { s.eng e with wait := none })))
    | _ => s)

/-- The code of an ACK or NACK. -/
def endCode (s : State) (e : Nat) : EndCode → Nat
  | .imm n => n.toNat
  | .reg a => (s.gr e a).toNat % 64

/-- ACK (R231): releases the staged actions and enters the completion of R199. -/
def execCAck (e : EngineIx) (c : EndCode) (s : State) : Res :=
  .next (runCelil e [encEnd 0x1A c] (fun s => endHandler e (endCode s e c) true s) s)

/-- NACK (R231, R200). -/
def execCNack (e : EngineIx) (c : EndCode) (s : State) : Res :=
  .next (runCelil e [encEnd 0x1B c] (fun s => endHandler e (0x40 + endCode s e c) false s) s)

/-! ## Time (R232 to R234) -/

/-- TNOW. -/
def execCTnow (e : EngineIx) (t : TReg) (s : State) : Res :=
  .next (runCelil e [encT 0x1C 0 0 t 0 0 0] (fun s => advance e 1 (setTr e t (BitVec.ofNat 80 (ts80 s.mcount)) s)) s)

/-- TADD: the fraction is kept. -/
def execCTadd (e : EngineIx) (td ta : TReg) (b : GReg) (s : State) : Res :=
  .next (runCelil e [encT 0x1D 0 b td ta 0 0] (fun s =>
    let x := s.tr e ta
    advance e 1 (setTr e td (BitVec.ofNat 80 (ts80 ((tickOf x + (s.gr e b).toNat) % tickMod) (fracOf x))) s)) s)

/-- TADDF: modulo 2^80. -/
def execCTaddf (e : EngineIx) (td ta : TReg) (b : GReg) (s : State) : Res :=
  .next (runCelil e [encT 0x1D 0 b td ta 0 1] (fun s =>
    advance e 1 (setTr e td (s.tr e ta + (s.gr e b).signExtend 80) s)) s)

/-- TDIFF: saturates at +-(2^63 - 1). -/
def execCTdiff (e : EngineIx) (d : GReg) (ta tb : TReg) (s : State) : Res :=
  .next (runCelil e [encT 0x1D d 0 0 ta tb 2] (fun s =>
    let x : Int := ((s.tr e ta).toNat : Int) - (s.tr e tb).toNat
    writeNext e d (BitVec.ofInt 64 (clampInt (-(2 ^ 63 - 1)) (2 ^ 63 - 1) x)) s) s)

/-- TGET. -/
def execCTget (e : EngineIx) (d b : GReg) (ta : TReg) (s : State) : Res :=
  .next (runCelil e [encT 0x1D d b 0 ta 0 3] (fun s =>
    let x := s.tr e ta
    writeNext e b (BitVec.ofNat 64 (fracOf x)) (setGr e d (BitVec.ofNat 64 (tickOf x)) s)) s)

/-- TPUT. -/
def execCTput (e : EngineIx) (td : TReg) (a b : GReg) (s : State) : Res :=
  .next (runCelil e [encT 0x1D a b td 0 0 4] (fun s =>
    advance e 1 (setTr e td (BitVec.ofNat 80 (ts80 (s.gr e a).toNat ((s.gr e b).toNat % 65536))) s)) s)

/-- TMOV. -/
def execCTmov (e : EngineIx) (td ta : TReg) (s : State) : Res :=
  .next (runCelil e [encT 0x1D 0 0 td ta 0 5] (fun s => advance e 1 (setTr e td (s.tr e ta) s)) s)

/-- Park the engine in WAIT (R196). -/
def park (e : Nat) (w : EngWait) (s : State) : State := setEngState e esWait (s.setEng e { s.eng e with wait := some w })

/-- Resume an engine at the next instruction. -/
def resume (e : Nat) (s : State) : State :=
  advance e 1 (setEngState e esRun (s.setEng e { s.eng e with wait := none, lines := [] }))

/-- TWAIT (R234). -/
def execCTwait (e : EngineIx) (ta : TReg) (s : State) : Res :=
  .next (runCelil e [encT 0x1E 0 0 0 ta 0 0] (fun s =>
    let t := tickOf (s.tr e ta)
    if t ≤ s.mcount then advance e 1 s else park e (.twait t) s) s)

/-- TWAIT_RESUME (R234): the awaited tick is reached. -/
def execTwaitResume (e : EngineIx) (s : State) : Res :=
  .next (match (s.eng e).wait with
    | some (.twait t) => if !s.cdDown && t ≤ s.mcount then resume e s else s
    | _ => s)

/-! ## Events (R235, R236) -/

/-- The raise count of an event source. -/
def State.raiseCount (s : State) (src : Nat) : Nat := SMap.get (fun _ => 0) s.raises src

/-- EVCNT. -/
def execCEvcnt (e : EngineIx) (d a : GReg) (s : State) : Res :=
  .next (runCelil e [encA 0x20 a 0 d 0 0] (fun s =>
    let src := (s.gr e a).toNat
    if 383 < src then handlerFault e fTGTRANGE s else writeNext e d (BitVec.ofNat 64 (s.raiseCount src)) s) s)

/-- What WAITE finds: its result if the count has changed or the deadline has passed. A deadline of 0 is none. -/
def waiteResult (s : State) (src cnt deadline : Nat) : Option Dword :=
  if s.raiseCount src ≠ cnt then some (BitVec.ofNat 64 (s.raiseCount src))
  else if deadline ≠ 0 && deadline ≤ s.mcount then some (BitVec.ofNat 64 (s.raiseCount src + 2 ^ 32))
  else none

/-- WAITE. -/
def execCWaite (e : EngineIx) (d a b : GReg) (t : TReg) (s : State) : Res :=
  .next (runCelil e [encA 0x1F a b d t 0] (fun s =>
    let src := (s.gr e a).toNat
    let cnt := (s.gr e b).toNat % 2 ^ 32
    let dl := tickOf (s.tr e t)
    if 383 < src then handlerFault e fTGTRANGE s
    else
      match waiteResult s src cnt dl with
      | some v => writeNext e d v s
      | none => park e (.waite d src cnt dl) s) s)

/-- WAITE_RESUME (R236). -/
def execWaiteResume (e : EngineIx) (s : State) : Res :=
  .next (match (s.eng e).wait with
    | some (.waite d src cnt dl) =>
      match waiteResult s src cnt dl with
      | some v => if s.cdDown then s else setGr e d v (resume e s)
      | none => s
    | _ => s)

/-! ## Hop contexts (R237) -/

/-- Whether hop context `n` cannot be read: its bank is lost, or it is or becomes marked invalid (R28, R418). -/
def State.ctxInvalid (s : State) (n : Nat) : Bool := s.bankLost 0 || s.ctxBad.contains n || s.anyBad (128 * n) 128

/-- CTXLD. -/
def execCCtxld (e : EngineIx) (a b : GReg) (s : State) : Res :=
  .next (runCelil e [encA 0x21 a b 0 0 0] (fun s =>
    let n := (s.gr e a).toNat
    let off := (s.gr e b).toNat
    if 16383 < n then handlerFault e fTGTRANGE s
    else if !scratchOk off 128 16 then handlerFault e fSADDR s
    else if s.ctxInvalid n then handlerFault e fCTXBAD (if s.bankLost 0 then s else sramMeets (128 * n) 128 s)
    else advance e 1 (setScratch e off (s.bytesAt (128 * n) 128) (sramFix (128 * n) 128 s))) s)

/-- CTXST: the stored `USES` is kept, and the invalid mark is cleared. -/
def execCCtxst (e : EngineIx) (a b : GReg) (s : State) : Res :=
  .next (runCelil e [encA 0x22 a b 0 0 0] (fun s =>
    let n := (s.gr e a).toNat
    let off := (s.gr e b).toNat
    if 16383 < n then handlerFault e fTGTRANGE s
    else if !scratchOk off 128 16 then handlerFault e fSADDR s
    else if s.bankLost 0 then handlerFault e fCTXBAD s
    else if s.scratchBad e off 128 then handlerFault e fDMEM s
    else
      let bs := s.scratchAt e off 48 ++ s.bytesAt (128 * n + 48) 4 ++ s.scratchAt e (off + 52) 76
      let s := s.store (128 * n) bs
      advance e 1 { s with ctxBad := s.ctxBad.filter (· != n) }) s)

/-! ## Timed actions (R238, R239) -/

/-- Actions in the staging store (R14). -/
def State.stagingLoad (s : State) : Nat :=
  s.rel.length + (s.engines.map fun e => e.2.staged.length).foldl (· + ·) 0

/-- Post one action to the staged list of the held item (R11, R238). -/
def postAction (e : Nat) (kind : ActKind) (t : BitVec 80) (s : State) : State :=
  match (s.eng e).held, s.heldItem e with
  | some (q, n), some i =>
    let x := s.eng e
    let a : Action := {
      tick := tickOf t, frac := fracOf t, q := q, seq := n, idx := x.nact, applyLate := i.late, kind := kind }
    advance e 1 (s.setEng e { x with staged := x.staged ++ [a], nact := x.nact + 1, wait := none })
  | _, _ => s

/-- R11, R14: the limits that every timed-action instruction meets before it posts. -/
def actionGate (e : Nat) (i : Instr) (post : State → State) (s : State) : State :=
  if 4096 ≤ (s.eng e).nact then handlerFault e fACTLIMIT s
  else if 65536 ≤ s.stagingLoad then setEngState e esStall (s.setEng e { s.eng e with wait := some (.staging i) })
  else post s

/-- Words 0 to 31 of a hop context. -/
def State.ctxWords (s : State) (n : Nat) : List Word := (List.range 32).map fun i => s.word (128 * n + 4 * i)

/-- R98: whether a HOP on core `c` faults on captured context words. -/
def ctxRefused (c : Nat) (ws : List Word) : Bool :=
  !ctxValid ws || ctxPmMode ws == 3 || decide (8 < ctxNPort ws) || (ctxEntries ws).any fun x => x.1 / 128 != c / 8

/-- The captured words of R100 and what the table holds after it: `USES` counts, an unanchored context anchors at tick `t` if the
epoch is set, and without an epoch no capture is anchored, whatever the table says. -/
def captureCtx (s : State) (ws : List Word) (t : Nat) : List Word × List Word :=
  let gen := s.get PM_GEN.GEN % 65536
  let ws := ws.set 12 (ctxAt ws 12 + 1)
  if ctxPmMode ws = 1 && !s.isSet TB_STAT.EPOCH_SET then (ws.set 0 (withField (ctxAt ws 0) 5 1 0), ws)
  else if ctxPmMode ws = 1 && (!ctxAnchored ws || ctxGen ws != gen) then
      let ws := (ws.set 8 (BitVec.ofNat 32 t)).set 9 (BitVec.ofNat 32 (t / 2 ^ 32))
      let ws := (ws.set 10 (BitVec.ofNat 32 (gen * 65536))).set 0 (withField (ctxAt ws 0) 5 1 1)
      (ws, ws)
  else (ws, ws)

/-- HOP once it may post (R239, R98, R100). -/
def hopNow (e : Nat) (a b : GReg) (t : TReg) (s : State) : State :=
  let c := (s.gr e a).toNat
  let n := (s.gr e b).toNat
  let stamp := s.tr e t
  let r := captureCtx s (s.ctxWords n) (tickOf stamp)
  postAction e (.hop c n r.1) stamp ((sramFix (128 * n) 128 s).store (128 * n) (r.2.flatMap fun w => leBytes 4 w.toNat))

/-- HOP. -/
def hopOp (e : EngineIx) (a b : GReg) (t : TReg) (s : State) : State :=
  let c := (s.gr e a).toNat
  let n := (s.gr e b).toNat
  if 63 < c || 16383 < n then handlerFault e fTGTRANGE s
  else if s.ctxInvalid n then handlerFault e fCTXBAD (if s.bankLost 0 then s else sramMeets (128 * n) 128 s)
  else if ctxRefused c (s.ctxWords n) then handlerFault e fCTXBAD s
  else actionGate e (.cHop e a b t) (hopNow e a b t) s

def execCHop (e : EngineIx) (a b : GReg) (t : TReg) (s : State) : Res :=
  .next (runCelil e [encA 0x23 a b 0 t 0] (hopOp e a b t) s)

/-- An action on a target whose number is at most `top`. -/
def timedOp (e : EngineIx) (i : Instr) (target : GReg) (t : TReg) (top : Nat) (kind : Nat → State → ActKind) (s : State) :
    State :=
  let x := (s.gr e target).toNat
  if top < x then handlerFault e fTGTRANGE s
  else actionGate e i (fun s => postAction e (kind x s) (s.tr e t) s) s

/-- PHASE. -/
def phaseOp (e : EngineIx) (a b : GReg) (t : TReg) (s : State) : State :=
  timedOp e (.cPhase e a b t) a t 1023 (fun p s => .phase p ((s.gr e b).toNat % 2 ^ 20)) s
def execCPhase (e : EngineIx) (a b : GReg) (t : TReg) (s : State) : Res :=
  .next (runCelil e [encA 0x24 a b 0 t 0] (phaseOp e a b t) s)

/-- PORTSET: a mask of 0 raises OPERAND. -/
def portsetOp (e : EngineIx) (a b c : GReg) (t : TReg) (s : State) : State :=
  if 1023 < (s.gr e a).toNat then handlerFault e fTGTRANGE s
  else if (s.gr e c).toNat % 128 = 0 then handlerFault e fOPERAND s
  else timedOp e (.cPortset e a b c t) a t 1023 (fun p s => .portset p (s.gr e b).toNat ((s.gr e c).toNat % 128)) s
def execCPortset (e : EngineIx) (a b c : GReg) (t : TReg) (s : State) : Res :=
  .next (runCelil e [encA 0x25 a b c t 0] (portsetOp e a b c t) s)

/-- MARK. -/
def markOp (e : EngineIx) (a b : GReg) (t : TReg) (s : State) : State :=
  timedOp e (.cMark e a b t) a t 1023 (fun p s => .mark p ((s.gr e b).toNat % 65536)) s
def execCMark (e : EngineIx) (a b : GReg) (t : TReg) (s : State) : Res :=
  .next (runCelil e [encA 0x26 a b 0 t 0] (markOp e a b t) s)

/-- ARM. -/
def armOp (e : EngineIx) (a b c : GReg) (t : TReg) (s : State) : State :=
  timedOp e (.cArm e a b c t) a t 1279 (fun k s =>
    .arm k ((s.gr e b).toNat % 2 ^ 32) ((s.gr e b).toNat / 2 ^ 32) ((s.gr e c).toNat % 2 ^ 32)) s
def execCArm (e : EngineIx) (a b c : GReg) (t : TReg) (s : State) : Res :=
  .next (runCelil e [encA 0x27 a b c t 0] (armOp e a b c t) s)

/-- DISARM. -/
def disarmOp (e : EngineIx) (a : GReg) (t : TReg) (s : State) : State :=
  timedOp e (.cDisarm e a t) a t 1279 (fun k _ => .disarm k) s
def execCDisarm (e : EngineIx) (a : GReg) (t : TReg) (s : State) : Res :=
  .next (runCelil e [encA 0x28 a 0 0 t 0] (disarmOp e a t) s)

/-- The timed action that an instruction posts. -/
def actionOf : Instr → State → State
  | .cHop e a b t => hopOp e a b t
  | .cPhase e a b t => phaseOp e a b t
  | .cPortset e a b c t => portsetOp e a b c t
  | .cMark e a b t => markOp e a b t
  | .cArm e a b c t => armOp e a b c t
  | .cDisarm e a t => disarmOp e a t
  | _ => id

/-- STAGING_STALL_RESUME (R14): space has freed, and the stalled instruction posts its action. -/
def execStagingStallResume (e : EngineIx) (s : State) : Res :=
  .next (match (s.eng e).wait with
    | some (.staging i) =>
      if s.cdDown || s.engState e != esStall || 65536 ≤ s.stagingLoad then s
      else dropLines e (actionOf i (setEngState e esRun (s.setEng e { s.eng e with wait := none })))
    | _ => s)

/-! ## Statistics (R240) -/

/-- STAT.R. -/
def execCStatR (e : EngineIx) (d b a : GReg) (s : State) : Res :=
  .next (runCelil e [encA 0x29 a b d 0 0] (fun s =>
    let k := (s.gr e a).toNat
    let off := (s.gr e b).toNat
    if 1279 < k then handlerFault e fTGTRANGE s
    else if !scratchOk off 64 64 then handlerFault e fSADDR s
    else
      let bs := s.resultBlock k
      writeNext e d (BitVec.ofNat 64 (leNat ((bs.drop 4).take 4)))
        (setScratch e off bs (if s.bankLost 13 then s else sramMeets (0x01A00000 + 64 * k) 64 s))) s)

/-- STAT.E: a port-monitor channel stamps no trigger. -/
def execCStatE (e : EngineIx) (t : TReg) (a : GReg) (s : State) : Res :=
  .next (runCelil e [encA 0x29 a 0 0 t 1] (fun s =>
    let k := (s.gr e a).toNat
    if 1279 < k then handlerFault e fTGTRANGE s
    else advance e 1 (setTr e t (BitVec.ofNat 80 (s.wideAt (aLAST_EDGE k))) s)) s)

/-! ## System instructions (R241, R242) -/

/-- FENCE. -/
def execCFence (e : EngineIx) (s : State) : Res :=
  .next (runCelil e [encI 0x2A 0 0 0] (fun s => advance e 1 (releaseStaged e s)) s)

/-- What FENCE.W returns once every released action is judged: the first hardware status, or 0. -/
def State.fenceStatus (s : State) (e : Nat) : Option Nat :=
  (s.heldItem e).bind fun i =>
    if i.out = 0 && !((s.eng e).held.any fun h => s.verdictDue h.1 h.2) then some (i.hw.map (·.1) |>.getD 0) else none

/-- FENCE.W: the engine stays in RUN while it waits. -/
def execCFenceW (e : EngineIx) (d : GReg) (s : State) : Res :=
  .next (runCelil e [encI 0x2A d 0 1] (fun s =>
    let s := releaseStaged e s
    match s.fenceStatus e with
    | some st => writeNext e d (BitVec.ofNat 64 st) s
    | none => s.setEng e { s.eng e with wait := some (.fence d) }) s)

/-- FENCE_W_RESUME (R241). -/
def execFenceWResume (e : EngineIx) (s : State) : Res :=
  .next (match (s.eng e).wait with
    | some (.fence d) =>
      match s.fenceStatus e with
      | some st =>
        if s.cdDown then s
        else writeNext e d (BitVec.ofNat 64 st) (s.setEng e { s.eng e with wait := none, lines := [] })
      | none => s
    | _ => s)

/-- YIELD (R242). -/
def execCYield (e : EngineIx) (a : GReg) (s : State) : Res :=
  .next (runCelil e [encI 0x2B 0 a 0] (fun s =>
    let n := (s.gr e a).toNat % 2 ^ 32
    match (s.eng e).held with
    | some (q, k) =>
      let s := releaseStaged e s
      let s := returnItem q k (fun i => { i with st := if n = 0 then .waiting else .yielded (s.clock + n) }) s
      engineFree e (s.bump ENG_CNT.ITEMS e)
    | none => s) s)

end Sys2Proof.Machine
end

