-- ==== Sys2Proof/Machine/Sorrel.lean ====
section
/-! DEFINITION. Sorrel (R245 to R264, R145 to R147): loop-trim blocks, trim boundaries, code-density runs, the skew loop, cable
delay, requests and background runs. -/

namespace Sys2Proof.Machine

/-- Whether the calibration cache is lost: every run then ends without a commit (R418). -/
def State.calLost (s : State) : Bool := s.bankLost 14

/-! ## Loop trims (R248, R254, R255) -/

/-- The values of one machine's trims come from `w`, the rest from `t`: the DTC machine owns gain and INL, LMS the charge pump. -/
def TrimSet.take (t w : TrimSet) (dtc : Bool) : TrimSet :=
  if dtc then { t with gain := w.gain, gainConv := w.gainConv, inl := w.inl, inlConv := w.inlConv, dtcSeed := w.dtcSeed }
  else { t with cp := w.cp, cpConv := w.cpConv, cpSeed := w.cpSeed }

/-- The half's index x (R245). -/
def halfIx (c h : Nat) : Nat := 2 * c + h

/-- Whether pending trims may take effect at the half now (R248): it is powered, drives no port, no hop window is open on its core, and
its comparison divider emits an edge. -/
def State.standbyEdge (s : State) (c h : Nat) : Bool :=
  s.powered c h && s.cmpEdge c h && !s.halfDrives c h && !s.isSet HOP_STAT.WINDOW c

/-- A half that drives no port, with no hop window open on its core, takes pending trims whole at its next comparison edge (R248): here,
or at the TRIM_BOUNDARY that comes at one. -/
def standbyTrim (c h : Nat) (s : State) : State :=
  if s.standbyEdge c h then trimBoundary c h false s else trimRefresh c h s

/-- A failed run of LMS or DTC on a half (R247 step 4, R250). -/
def trimFail (c h : Nat) (dtc : Bool) (reason : Nat) (s : State) : State :=
  let x := s.half c h
  let i := x.inst dtc
  let req := (i.run.map (·.requested)).getD true
  let x := (x.setInst dtc { i with run := none, failed := true })
  let s := s.setHalf c h { x with working := x.working.take x.committed dtc }
  standbyTrim c h (calFail (if dtc then 1 else 0) (halfIx c h) reason req s)

/-- A run ends without a commit and without a report (R418, R250). -/
def trimEnd (c h : Nat) (dtc : Bool) (s : State) : State :=
  let x := s.half c h
  let i := x.inst dtc
  let s := s.when ((i.run.map (·.requested)).getD false) (requestEnd true 2)
  let x := x.setInst dtc { i with run := none }
  standbyTrim c h (s.setHalf c h { x with working := x.working.take x.committed dtc })

/-- A converged run commits (R247 step 3). -/
def trimCommit (c h : Nat) (dtc : Bool) (s : State) : State :=
  let x := s.half c h
  let i := x.inst dtc
  let req := (i.run.map (·.requested)).getD false
  let sel := s.actSel c h
  let w := x.working
  let w := if dtc then
      { w with gainConv := w.gainConv ||| 2 ^ sel, inlConv := w.inlConv ||| ((i.run.map (·.visited)).getD 0) }
    else { w with cpConv := w.cpConv ||| 2 ^ sel }
  let x := x.setInst dtc { i with run := none, failed := false, lastCommit := s.clock }
  let s := s.setHalf c h { x with committed := x.committed.take w dtc, working := x.working.take w dtc }
  standbyTrim c h (calCommit (if dtc then 1 else 0) (halfIx c h) req s)

/-- R255: the timeout in counted blocks, by where the machine's values came from. -/
def blockLimit (w : TrimSet) (dtc : Bool) : Nat := if w.seeded dtc then 98304 else 12288

/-- The reason for which a run on a half cannot go on where its word does not call for the machine: NODTC at a fractional word of higher
order, else NOSEQ (R246, R254). -/
def wordReason (s : State) (c h : Nat) (dtc : Bool) : Nat := if dtc && s.wordTrims c h false then 2 else 1

/-- What one block does once it counts (R255): `w` are the new working values, `rail` whether a value met its limit, `small` whether
none moved by more than 1 LSB, `bins` the residue bins visited. -/
def blockCounted (c h : Nat) (dtc : Bool) (r : TrimRun) (w : TrimSet) (rail small : Bool) (bins : Nat) (s : State) : State :=
  let x := s.half c h
  let r := { r with
    blocks := r.blocks + 1, streak := if small then r.streak + 1 else 0
    visited := if small then r.visited ||| bins else 0, since := s.clock }
  let i := x.inst dtc
  let x := { x.setInst dtc { i with run := some r } with working := w }
  let s := s.setHalf c h x
  if rail then trimFail c h dtc 10 s
  else if 8 ≤ r.streak then trimCommit c h dtc s
  else if blockLimit w dtc ≤ r.blocks then trimFail c h dtc 9 s
  else standbyTrim c h s

/-- The frame of a block's end (R246, R254, R255): a run on a word that does not call for it fails if requested and pauses
otherwise; a block in a half that is not locked, or that overlaps a switchover, is discarded; else `f` acts on the run. -/
def blockEnd (c h : Nat) (dtc : Bool) (f : TrimRun → State → State) (s : State) : State :=
  let x := s.half c h
  let i := x.inst dtc
  match i.run with
  | none => s
  | some r =>
    if s.cdDown then s
    else if s.calLost then trimEnd c h dtc s
    else if !s.wordTrims c h dtc then
      if r.requested then trimFail c h dtc (wordReason s c h dtc) s else s
    else if !s.powered c h then s
    else if s.clock < r.since + 65536 * mOf (s.get HALF_STAT.ACT_DIV c h) then s
    else if !s.locked c h || s.tb.sw.isSome || decide (r.since < s.tb.swEnded) then
      s.setHalf c h (x.setInst dtc { i with run := some { r with since := s.clock } })
    else f r s

/-- R255: the step of a working value, 8 times as large for a value that has not converged since seeds or defaults. -/
def stepSize (seeded conv : Bool) (move : Int) : Int := if seeded && !conv then 8 * move else move

/-- A value moved within its converter's range, and whether it would have passed it. -/
def moved (lo hi cur move : Int) : Int × Bool := (clampInt lo hi (cur + move), decide (cur + move < lo) || decide (hi < cur + move))

/-- LMS_BLOCK_END (R255): `move` is the normal step times the block's correlation, in LSB. -/
def lmsBlockEndS (c h : Nat) (move : Int) (s : State) : State :=
  blockEnd c h false (fun r s =>
    let w := (s.half c h).working
    let sel := s.actSel c h
    let cur := w.cp.getD sel 0
    let m := stepSize w.cpSeed (w.cpConv.testBit sel) move
    let v := moved (-512) 511 cur m
    blockCounted c h false r { w with cp := w.cp.set sel v.1 } v.2 (decide ((v.1 - cur).natAbs ≤ 1)) 0 s) s

/-- The moves of the INL entries that a block visited: the new table, whether one met its limit, whether all moved by at most 1. -/
def inlMoves (w : TrimSet) : List (Nat × Int) → SMap Int × Bool × Bool
  | [] => (w.inl, false, true)
  | (i, m) :: l =>
    let (t, rail, small) := inlMoves w l
    let k := i % 64
    let cur := SMap.get (fun _ => 0) t k
    let v := moved (-128) 127 cur (stepSize w.dtcSeed (w.inlConv.testBit k) m)
    (SMap.set (fun _ => 0) t k v.1, rail || v.2, small && decide ((v.1 - cur).natAbs ≤ 1))

/-- DTC_BLOCK_END (R255): `move` is the normal step of the gain trim, `bins` those of the entries whose bins the block visited. -/
def dtcBlockEndS (c h : Nat) (move : Int) (bins : List (Nat × Int)) (s : State) : State :=
  blockEnd c h true (fun r s =>
    let w := (s.half c h).working
    let sel := s.actSel c h
    let cur : Int := (w.gain.getD sel 2048 : Nat)
    let v := moved 0 4095 cur (stepSize w.dtcSeed (w.gainConv.testBit sel) move)
    let (inl, rail, small) := inlMoves w bins
    let mask := bins.foldl (fun m b => m ||| 2 ^ (b.1 % 64)) 0
    blockCounted c h true r { w with gain := w.gain.set sel v.1.toNat, inl := inl } (v.2 || rail)
      (small && decide ((v.1 - cur).natAbs ≤ 1)) mask s) s

/-- R248: whether a driving half's slot may end here, at X: the 25,600 tk before hold no hop busy interval of the core (R102, R103, to Ts
where the hop has failed, R108) and no action applied to it, and no HOP admitted for the core is stamped before X + 3,200 tk. -/
def State.drivingSlot (s : State) (c : Nat) : Bool :=
  let x := s.core c
  let now := s.count (c / 8)
  x.hop.isNone && x.relock.isNone && decide (x.lastUse + 25600 ≤ s.clock) &&
    !(x.busy.any fun b => decide (b.1 < now) && decide (now < b.2 + 25600)) &&
    !(s.chip (c / 8)).fifo.any fun a =>
      match a.hopOf with
      | some (k, _, _) => k == c && (decide (a.due < now + 3200) || decide (a.due - (if a.isPingPong then a.lead else 0) < now))
      | none => false

/-- TRIM_BOUNDARY (R248): pending trims of a half take effect, in bounded steps at a driving half, whose ports' pending motions
start too. -/
def trimBoundaryS (c h : Nat) (s : State) : State :=
  if s.cdDown then s
  else if !s.halfDrives c h then standbyTrim c h s
  else if s.drivingSlot c then forList (s.portsOf c) trimMotionStart (trimBoundary c h true s)
  else s

/-! ## Code density (R256, R257) -/

/-- The agreement of R256 step 3: 0.2 ps is 41.9 units of 1/65,536 tk. -/
def tablesAgree (a b : List Nat) : Bool :=
  decide (a.length = b.length) && (a.zip b).all fun x => decide (x.1 ≤ x.2 + 41) && decide (x.2 ≤ x.1 + 41)

/-- CD_SYNC_TEST (R256 step 2): after 2^20 hits, `codes` codes hold a hit and the fullest holds `most`. -/
def cdSyncTestS (k codes most : Nat) (s : State) : State :=
  match (s.chan k).cd with
  | some r =>
    if r.synced || s.cdDown then s
    else if codes < 960 || 16384 < most then cdFail k 6 r.requested s
    else s.setChan k { s.chan k with cd := some { r with synced := true } }
  | none => s

/-- CD_AGREEMENT_TEST (R256 steps 3 and 4, R257): the tables formed from the two halves of the hits. -/
def cdAgreementTestS (k : Nat) (a b : List Nat) (s : State) : State :=
  match (s.chan k).cd with
  | some r =>
    if !r.synced || s.cdDown || (s.chip (chanChip k)).cdLost || (s.chan k).meas.isSome then s
    else if s.calLost then
      refreshAllConv (cdState k (s.cdRest k) (requestEnd r.requested 2 (cdLeave k s)))
    else if a.length = 128 && tablesAgree a b then
      let s := cdLeave k s
      let s := s.setChan k { s.chan k with cdTable := some (List.zipWith (fun x y => (x + y) / 2 % 65536) a b), cdLast := s.clock }
      let s := (cdState k 3 s).put CD_STAT.LOADED 0 (chanChip k) (chanLocal k)
      let s := if s.get SOR_STAT.SRC = 3 then s else s.tsSet TS_STAT.RED_PREC k 0
      let s := if k < 1024 then s.setPort k { s.port k with ofsDue := true } else s
      refreshAllConv (calCommit 2 k r.requested s)
    else s
  | none => s

/-- Whether the channel takes its edges from its own input (R256). -/
def State.cdExt (s : State) (k : Nat) : Bool := s.isSet CD_STAT.EXT (chanChip k) (chanLocal k)

/-- R246, R256: a run on the channel's own input fails with NOTRUN once that input is disabled. -/
def cdInputCheck (k : Nat) (s : State) : State :=
  match (s.chan k).cd with
  | some r => if s.cdExt k && s.ts TS_IN.IN_EN k = 0 then cdFail k 7 r.requested s else s
  | none => s

/-- CD_TIMEOUT (R246): 200 ms on the internal source, 2 s on the external one. -/
def cdTimeoutS (k : Nat) (s : State) : State :=
  match (s.chan k).cd with
  | some r =>
    if !s.cdDown && r.since + (if s.cdExt k then 2 * sTk else 200 * msTk) ≤ s.clock then cdFail k 9 r.requested s else s
  | none => s

/-- Whether channel `k` is armed, or an action for it waits in the commit FIFO or for the boundary (R159, R176). -/
def State.chanTaken (s : State) (k : Nat) : Bool :=
  (s.chan k).meas.isSome || (s.chan k).armPend.isSome || (s.chip (chanChip k)).fifo.any fun a =>
    match a.act.kind with
    | .arm c _ _ _ => c == k
    | .disarm c => c == k
    | _ => false

/-- The Teasel group of a channel on its chiplet. -/
def chanGroup (k : Nat) : Nat := chanLocal k / 8

/-- R256, R257: whether the calibration oscillator feeds another group of the chiplet. -/
def State.oscElsewhere (s : State) (k : Nat) : Bool :=
  s.chans.any fun e => e.2.cd.isSome && chanChip e.1 == chanChip k && chanGroup e.1 != chanGroup k && !s.cdExt e.1

/-- R256: the oscillator turns to the group of channel `k`: the background runs that it feeds elsewhere on the chiplet end, and are
retried later. -/
def oscTurn (k : Nat) (s : State) : State :=
  let l := s.chans.filter fun e => e.2.cd.isSome && chanChip e.1 == chanChip k && chanGroup e.1 != chanGroup k && !s.cdExt e.1
  forList (l.map (·.1)) (fun j s => refreshAllConv (cdState j (s.cdRest j) (cdLeave j s))) s

/-- Start a code-density run on channel `k`. A requested run on the oscillator takes it from the background runs of another group (DESIGN
CHOICE, log entry 91). -/
def cdStart (k : Nat) (requested : Bool) (s : State) : State :=
  if s.cdExt k && s.ts TS_IN.IN_EN k = 0 then cdFail k 7 requested s
  else
    let s := s.when (!s.cdExt k) (oscTurn k)
    let s := s.setChan k { s.chan k with cd := some { requested := requested, since := s.clock } }
    refreshAllConv ((cdState k 2 s).tsSet TS_STAT.CAL k 1)

/-! ## Skew loop (R145 to R147, R258) -/

/-- Round x * p / q to the nearest integer, ties away from zero. -/
def scaleRound (x : Int) (p q : Nat) : Int := roundDiv (x * (p : Int)) q

/-- R145: the error of port `p` in fs, from the mean edge time less its ideal, in fs. Fraction steps are 312,500 / 65,536 fs. -/
def skewError (s : State) (p : Nat) (mean : Int) : Int :=
  let tgt := match s.skewGroup (s.srcCore p) with
    | some g => s.getSigned LG_TGT.TGT g
    | none => 0
  let steps := s.getSigned REPL_PHASE.PHASE (p / 128) - tgt - s.getSigned PORT_SKEW.OFS p
  mean - (s.port p).skewOfs + scaleRound steps 312500 65536

/-- A motion waits or moves at some port. -/
def refreshMoving (s : State) : State :=
  s.put SOR_STAT.SK_MOVING (if s.ports.any fun e => e.2.trimMotion.isSome then 1 else 0)

/-- A port that does not run starts its motion at the next tick boundary (R248). -/
def trimIfStatic (p : Nat) (s : State) : State := if s.portRuns p then s else trimMotionStart p s

/-- R147: correct `TRIM` by half the error in 50 fs steps, within +-4,095; an advance needs headroom at `PH_SLEW` = 16. -/
def skewCorrect (p : Nat) (err : Int) (s : State) : State :=
  let old := s.getSigned PORT_TRIM.TRIM p
  let want := old - scaleRound err 1 100
  let new := clampInt (-4095) 4095 want
  if new < old && !headroom s p 16 then
    ((s.setPort p { s.port p with skLim := true }).put PORT_STAT.SKEW_LIM 1 p).raise 270
  else
    let s := s.setPort p { s.port p with skLim := decide (new ≠ want) }
    let s := s.when (decide (new ≠ want)) (·.put PORT_STAT.SKEW_LIM 1 p)
    trimIfStatic p (s.put PORT_TRIM.TRIM (twos 13 new) p)

/-- R258: convergence and its loss. Four means within 100 fs end an attempt, also one at a port that has converged before. -/
def skewJudge (p : Nat) (err : Int) (s : State) : State :=
  let x := s.port p
  let x := { x with
    skGood := if err.natAbs ≤ 100 then x.skGood + 1 else 0, skBad := if 150 < err.natAbs then x.skBad + 1 else 0 }
  let s := s.setPort p x
  if x.skConv && decide (2 ≤ x.skBad) then
    let s := s.setPort p { x with skConv := false, skGood := 0 }
    refreshPortGroup p (s.log oSorrel kEVENT (RegId.PORT_STAT.at p) (s.reg (RegId.PORT_STAT.at p)) (s.reg (RegId.PORT_STAT.at p)) 0)
  else if 4 ≤ x.skGood ∧ (!x.skConv || x.skAttempt.isSome) then
    let req := (x.skAttempt.map (·.2.2)).getD false
    let s := s.setPort p { x with skConv := true, skBad := 0, skAttempt := none }
    if s.calLost then refreshPortGroup p (requestEnd req 2 s) else refreshPortGroup p (calCommit 3 p req s)
  else s

/-- Whether the loop holds channel `p` and may measure (R145, R175, R176). Its trims freeze once its chiplet has declared the control die
lost (R36). -/
def State.skewHolds (s : State) (p : Nat) : Bool :=
  (s.port p).skOn && (s.chan p).meas.isNone && (s.chan p).cd.isNone && !s.cdDown && !(s.chip (p / 128)).cdLost

/-- R145: whether the mean in hand is complete: 1 ms has passed since it began, or 2^14 edges of the port have come. -/
def State.skewMeanFull (s : State) (p : Nat) : Bool :=
  let x := s.port p
  let c := s.srcCore p
  let f := (s.fvco c (s.drive c)).divBy (s.divInForce p)
  decide (x.skFrom + msTk ≤ s.clock) || decide (2 ^ 14 * f.d * sTk ≤ (s.clock - x.skFrom) * f.n)

/-- SKEW_MEAN_DONE (R145, R147, R258): `mean` is the mean edge time less its ideal, in fs, taken since the loop last had the channel
(R175). A write to `PORT_TRIM` in the same window, which begins an attempt, wins (R260). -/
def skewMeanDoneS (p : Nat) (mean : Int) (s : State) : State :=
  if !s.skewHolds p || !s.skewMeanFull p then s
  else
    let err := skewError s p mean
    let s := (s.put PORT_SKMEAS.ERR (twos 24 err) p).put PORT_SKMEAS.VALID 1 p
    let x := s.port p
    let s := s.setPort p { x with
      skFrom := s.clock, skewMeans := (x.skewMeans + 1) % 16, ofsDue := x.ofsDue || decide (x.skewMeans + 1 = 16) }
    let wrote := (x.skAttempt.map (·.1)) == some s.clock
    let s := if s.isSet SOR_CTRL.SK_FREEZE || x.skWait.isSome || s.calLost || wrote then s else skewCorrect p err s
    skewJudge p err s

/-- The case temperature of chiplet `n` in degrees. -/
def State.temp (s : State) (n : Nat) : Int := s.getSigned CHIP_TEMP.TEMP n

/-- SKEW_OFFSET_DONE (R146): the monitor offset, in fs, is taken and the selector returns to the port. -/
def skewOffsetDoneS (p : Nat) (offset : Int) (s : State) : State :=
  if s.skewHolds p && (s.port p).ofsDue then
    s.setPort p { s.port p with skewOfs := offset, ofsDue := false, ofsTemp := s.temp (p / 128), skFrom := s.clock }
  else s

/-- SKEW_TRIM_STEP (R147): one 50 fs step of a motion; a port that does not run takes the trim at once. Trims of a chiplet that has
declared the control die lost, or whose memory is lost, stand still (R36, R260, R418). -/
def skewTrimStepS (p : Nat) (s : State) : State :=
  let x := s.port p
  match x.trimMotion with
  | none => s
  | some goal =>
    if s.trimsFrozen (p / 128) then s
    else
      let new := if s.portRuns p then towards 1 x.trimInForce goal else goal
      let s := s.setPort p { x with trimInForce := new, trimMotion := if new = goal then none else some goal }
      refreshMoving (if new = goal then trimIfStatic p s else s)

/-- A write to `PORT_TRIM` (R147, R258): the code beyond the range is clamped. -/
def hookPortTrim (p : Nat) (new : Word) (s : State) : Word × State :=
  if fieldOf new 0 13 = 0x1000 then
    (withField new 0 13 0x1001, (s.setPort p { s.port p with skLim := true }).put PORT_STAT.SKEW_LIM 1 p)
  else (new, s.setPort p { s.port p with skLim := false })

/-- After a host write of `TRIM`: it starts an attempt if the port is measured, and its motion if the port does not run. -/
def portTrimWritten (p : Nat) (s : State) : State :=
  let req := ((s.port p).skAttempt.map (·.2.2)).getD false
  let s := if (s.port p).skOn then refreshPortGroup p (startAttempt p req s) else s
  trimIfStatic p s

/-- SKEW_ATTEMPT_TIMEOUT (R258): an attempt not converged 1 s after its start fails, unless the loop is frozen. While a measurement or a
code-density run holds the channel, `PORT_TRIM` holds its value (R175), and the attempt fails once it has ended (DESIGN CHOICE, log
entry 92). -/
def skewAttemptTimeoutS (p : Nat) (s : State) : State :=
  match (s.port p).skAttempt with
  | some (t, trim, req) =>
    if s.cdDown || (s.chip (p / 128)).cdLost || s.isSet SOR_CTRL.SK_FREEZE || s.clock < t + sTk || (s.chan p).meas.isSome ||
        (s.chan p).cd.isSome then s
    else
      let s := s.put PORT_TRIM.TRIM (twos 13 trim) p
      let s := s.setPort p { s.port p with skAttempt := none, skWait := some (s.clock + sTk), skConv := false, skGood := 0 }
      refreshPortGroup p (trimIfStatic p (calFail 3 p 9 req s))
  | none => s

/-- SKEW_FAIL_WAIT_END (R258): a new attempt starts. -/
def skewFailWaitEndS (p : Nat) (s : State) : State :=
  match (s.port p).skWait with
  | some t =>
    if t ≤ s.clock && (s.port p).skOn && !s.cdDown then startAttempt p false s else s
  | none => s

/-! ## Cable delay (R259) -/

/-- Whether link `l` exchanges time-transfer frames (R279): CDLY, TIME, UP or STANDBY. -/
def State.linkTimed (s : State) (l : Nat) : Bool := decide (5 ≤ s.get RY_STAT.STATE l) && decide (s.get RY_STAT.STATE l ≤ 8)

def cdlyStart (l : Nat) (requested : Bool) (s : State) : State :=
  let s := s.setCdly l { s.cdly l with run := some { requested := requested, since := s.clock } }
  s.put CDLY_STAT.ST 2 l

/-- A failed cable-delay run. -/
def cdlyFail (l reason : Nat) (requested : Bool) (s : State) : State :=
  (calFail 4 l reason requested (s.setCdly l { s.cdly l with run := none })).put CDLY_STAT.ST 4 l

/-- A link that leaves the up state fails its run with NOLINK. -/
def cdlyLinkLost (l : Nat) (s : State) : State :=
  match (s.cdly l).run with
  | some r => cdlyFail l 8 r.requested s
  | none => s

/-- CDLY_TIMEOUT (R246): 500 ms. -/
def cdlyTimeoutS (l : Nat) (s : State) : State :=
  match (s.cdly l).run with
  | some r => if !s.cdDown && r.since + 500 * msTk ≤ s.clock then cdlyFail l 9 r.requested s else s
  | none => s

/-- Write a delay of 48 bits into the registers and into force. -/
def setDelay (l d : Nat) (s : State) : State :=
  let d := d % 2 ^ 48
  let s := (s.put CDLY_LO.DELAY (d % 2 ^ 32) l).put CDLY_HI.DELAY (d / 2 ^ 32) l
  s.setCdly l { s.cdly l with delay := d }

/-- The criterion of R259: 0.1 ps is 65,536 / 3,125 fraction steps. -/
def cdlyConverged (r : CdlyRun) : Bool :=
  match r.last, r.prev with
  | some a, some b =>
    let n : Int := (r.n : Int)
    decide (4096 ≤ r.n) &&
    decide ((n * (r.s2 : Int) - r.s1 * r.s1) * 3125 ^ 2 ≤ 65536 ^ 2 * (n * n * (n - 1))) &&
    decide ((a - b).natAbs * 3125 ≤ 5 * 65536 * 1024)
  | _, _ => false

/-- One round trip enters a link's run (R259); at convergence the result is half the mean plus `ASYM`. -/
def cdlySample (l : Nat) (rtt : Int) (s : State) : State :=
  match (s.cdly l).run with
  | none => s
  | some r =>
    let n := r.n + 1
    let cur := r.cur + rtt
    let full := decide (n % 1024 = 0)
    let r := { r with
      n := n, s1 := r.s1 + rtt, s2 := r.s2 + rtt.natAbs * rtt.natAbs, cur := if full then 0 else cur
      prev := if full then r.last else r.prev, last := if full then some cur else r.last }
    if cdlyConverged r then
      if s.calLost then requestEnd r.requested 2 ((s.setCdly l { s.cdly l with run := none }).put CDLY_STAT.ST 0 l)
      else
        let d := roundDiv r.s1 (2 * n) + s.getSigned CDLY_ASYM.ASYM l
        let s := setDelay l (twos 48 d) (s.setCdly l { s.cdly l with run := none, lastCommit := s.clock })
        let s := ((s.put CDLY_STAT.ST 3 l).put CDLY_STAT.VALID 1 l).put CDLY_STAT.USER 0 l
        calCommit 4 l r.requested s
    else s.setCdly l { s.cdly l with run := some r }

/-- After a host write to `CDLY_HI` (R259): LO and HI apply together, and the write ends the link's run. -/
def cdlyHiWritten (l : Nat) (s : State) : State :=
  let d := s.get CDLY_HI.DELAY l * 2 ^ 32 + s.get CDLY_LO.DELAY l
  let s := match (s.cdly l).run with
    | some r =>
      let s := (s.setCdly l { s.cdly l with run := none }).put CDLY_STAT.ST 0 l
      if r.requested then (calFail 4 l 12 true s).put CDLY_STAT.ST 4 l else s
    | none => s
  ((s.setCdly l { s.cdly l with delay := d }).put CDLY_STAT.VALID 1 l).put CDLY_STAT.USER 1 l

/-! ## Starts (R251) -/

/-- Whether `TRACK_S` seconds have passed since a commit. -/
def State.trackDue (s : State) (last : Nat) : Bool := decide (last + s.get SOR_CTRL.TRACK_S * sTk ≤ s.clock)

/-- Start a run of LMS or DTC: the working values are the committed ones. -/
def trimStart (c h : Nat) (dtc requested : Bool) (s : State) : State :=
  let x := s.half c h
  let x := x.setInst dtc { x.inst dtc with run := some { requested := requested, since := s.clock }, failed := false }
  trimRefresh c h (s.setHalf c h { x with working := x.working.take x.committed dtc })

/-- SORREL_BACKGROUND_START (R251) of machine `m` on target `t`. The skew loop runs under R145, and band searches start only from
a word. -/
def sorrelBackgroundStartS (m t : Nat) (s : State) : State :=
  if s.cdDown || s.calLost then s
  else if m < 2 then
    let dtc := m == 1
    let c := t / 2
    let h := t % 2
    let i := (s.half c h).inst dtc
    let on := if dtc then s.isSet SOR_CTRL.DTC_EN else s.isSet SOR_CTRL.LMS_EN
    let conv := (s.half c h).committed.converged dtc (s.actSel c h)
    if t < 128 && on && s.trimRequired c h dtc && i.run.isNone && (!conv || i.failed || s.trackDue i.lastCommit) &&
        !s.chipLost (c / 8) then
      trimStart c h dtc false s
    else s
  else if m = 2 then
    let x := s.chan t
    if t < 1280 && s.isSet SOR_CTRL.CD_EN && x.cd.isNone &&
        (x.cdTable.isNone || s.get CD_STAT.ST (chanChip t) (chanLocal t) ≠ 3 || s.trackDue x.cdLast) &&
        !s.chipLost (chanChip t) then
      if s.chanTaken t then if x.cdTable.isNone then cdState t 1 s else s
      else if !s.cdExt t && s.oscElsewhere t then s
      else cdStart t false s
    else s
  else if m = 4 then
    let x := s.cdly t
    if t < 16 && s.isSet SOR_CTRL.CDLY_EN && s.linkTimed t && x.run.isNone &&
        (s.get CDLY_STAT.ST t ≠ 3 || s.trackDue x.lastCommit) then cdlyStart t false s
    else s
  else s

/-- Targets of a machine (R245). -/
def machTargets (m : Nat) : Nat := if m < 2 then 128 else if m = 2 then 1280 else if m = 3 then 1024 else 16

/-- The chiplet of a machine's target, if it has one. -/
def machChip (m t : Nat) : Nat :=
  if m < 2 then t / 16 else if m = 2 then chanChip t else if m = 3 then t / 128 else t / 2

/-- A requested run of an accepted request (R246, R251): it takes a background run over, paused or running, with its progress so far, and
is then checked. -/
def startRequested (m t : Nat) (s : State) : State :=
  if s.chipLost (machChip m t) then calFail m t 12 true s
  else if m < 2 then
    let dtc := m == 1
    let c := t / 2
    let h := t % 2
    let i := (s.half c h).inst dtc
    let i' : TrimInst := { i with run := i.run.map fun r => { r with requested := true } }
    let s := s.setHalf c h ((s.half c h).setInst dtc i')
    if !s.wordTrims c h dtc then trimFail c h dtc (wordReason s c h dtc) s
    else if !s.trimRequired c h dtc || !s.locked c h then trimFail c h dtc 4 s
    else if i.run.isSome then s
    else trimStart c h dtc true s
  else if m = 2 then
    match (s.chan t).cd with
    | some r => s.setChan t { s.chan t with cd := some { r with requested := true } }
    | none => if s.chanTaken t then cdFail t 11 true s else cdStart t true s
  else if m = 3 then
    if !s.skewWanted t then calFail 3 t 7 true s
    else
      match (s.port t).skAttempt with
      | some (a, b, _) => s.setPort t { s.port t with skAttempt := some (a, b, true) }
      | none => refreshPortGroup t (startAttempt t true s)
  else
    match (s.cdly t).run with
    | some r => s.setCdly t { s.cdly t with run := some { r with requested := true } }
    | none => if s.linkTimed t then cdlyStart t true s else cdlyFail t 8 true s

/-- A request refused while a requested run is in progress (R251, R250): it does not end that run. -/
def refuseRequest (m t reason : Nat) (s : State) : State :=
  let res := s.get SOR_REQ.RESULT
  ((calFail m t reason true s).put SOR_REQ.GO 1).put SOR_REQ.RESULT res

/-- SORREL_REQUEST (R251): a write of `SOR_REQ`, in which `GO` acts where it is among the bits `ones` written as 1. `RESULT` is
hardware-owned. -/
def hookSorReq (ones old new : Word) (s : State) : Word × State :=
  let m := fieldOf new 0 3
  let t := fieldOf new 3 11
  let busy := fieldOf old 14 1 == 1
  if fieldOf ones 14 1 = 0 then
    (if busy then old else withField new 15 2 (fieldOf old 15 2), s)
  else
    let bad := decide (5 ≤ m) || decide (machTargets m ≤ t)
    let s := if busy then s
      else s.setReg RegId.SOR_REQ.at (withField (withField new 15 2 0) 14 1 1)
    let s := if busy then refuseRequest m t (if bad then 13 else 11) s
      else if bad then calFail m t 13 true s
      else startRequested m t s
    (s.reg RegId.SOR_REQ.at, s)

/-- A write to `SOR_CTRL` (R251): a `TRACK_S` of 0 is stored as 1. -/
def hookSorCtrl (new : Word) (s : State) : Word × State := (if fieldOf new 8 16 = 0 then withField new 8 16 1 else new, s)

/-! ## Runs that a reset or re-initialisation ends (R260) -/

/-- End every run of machine `m` on a target that `on` names: requested runs report ABORT, the others retry. Committed values are kept. -/
def endRunsOn (on : Nat → Bool) (m : Nat) (s : State) : State :=
  let abort := fun (t : Nat) (req : Bool) (s : State) => s.when req (calFail m t 12 true)
  if m < 2 then
    forBelow 128 (fun t s =>
      let c := t / 2
      let h := t % 2
      let dtc := m == 1
      let i := (s.half c h).inst dtc
      match i.run.filter fun _ => on t with
      | some r =>
        let x := (s.half c h).setInst dtc { i with run := none, failed := r.requested }
        abort t r.requested (trimRefresh c h (s.setHalf c h { x with working := x.working.take x.committed dtc }))
      | none => s) s
  else if m = 2 then
    forList (s.chans.map (·.1)) (fun k s =>
      match (s.chan k).cd.filter fun _ => on k with
      | some r =>
        if r.requested then cdFail k 12 true s else refreshAllConv (cdState k (s.cdRest k) (cdLeave k s))
      | none => s) s
  else if m = 3 then
    forList (s.ports.map (·.1)) (fun p s =>
      match (s.port p).skAttempt.filter fun _ => on p with
      | some (_, _, req) =>
        let s := (abort p req s).setPort p { s.port p with skAttempt := none }
        s.when ((s.port p).skOn && !s.calLost) (startAttempt p false)
      | none => s) s
  else if m = 4 then
    forBelow 16 (fun l s =>
      match (s.cdly l).run.filter fun _ => on l with
      | some r => abort l r.requested ((s.setCdly l { s.cdly l with run := none }).put CDLY_STAT.ST (if r.requested then 4 else 0) l)
      | none => s) s
  else if m = 5 then forBelow 128 (fun x s => s.when (on x) (restartSearch (x / 2) (x % 2))) s
  else s

/-- End every run of machine `m`. -/
def endRuns (m : Nat) (s : State) : State := endRunsOn (fun _ => true) m s

/-- Partial means and histograms of chiplet `n` restart at a step of its time base (R260). -/
def restartRuns (n : Nat) (s : State) : State :=
  let s := forList ((s.ports.map (·.1)).filter fun p => p / 128 == n) (fun p s => s.setPort p { s.port p with skFrom := s.clock }) s
  forList ((s.chans.map (·.1)).filter fun k => chanChip k == n) (fun k s =>
    match (s.chan k).cd with
    | some r => s.setChan k { s.chan k with cd := some { r with synced := false } }
    | none => s) s

end Sys2Proof.Machine
end

