-- ==== Sys2Proof/Machine/Nvm.lean ====
section
/-! DEFINITION. The NVM die and the calibration store (R265 to R271): the half record, the CRC, the validity tests, stores,
erases and the load at boot. -/

namespace Sys2Proof.Machine

/-! ## Bytes and check words -/

/-- One byte of the NVM die; an unlisted byte is erased. -/
def State.nvmByte (s : State) (a : Nat) : Byte := SMap.get (fun _ => (0xFF : Byte)) s.nvm a

def State.nvmBytes (s : State) (a n : Nat) : List Byte := (List.range n).map fun i => s.nvmByte (a + i)

/-- A little-endian word of the NVM die. -/
def State.nvmWord (s : State) (a : Nat) : Nat := leNat (s.nvmBytes a 4)

/-- Program bytes at an NVM offset. -/
def nvmProgram (a : Nat) (bs : List Byte) (s : State) : State :=
  { s with nvm := SMap.fill (fun _ => (0xFF : Byte)) s.nvm a bs }

/-- Erase [lo, hi) of the NVM die, in sectors of 64 KiB, each of which counts the cycle (R416). -/
def nvmEraseRange (lo hi : Nat) (s : State) : State :=
  let sectors := if lo < hi then (List.range ((hi - 1) / 65536 + 1 - lo / 65536)).map (lo / 65536 + ·) else []
  { s with
    nvm := SMap.clear lo hi s.nvm
    eraseCnt := sectors.foldl (fun m k => SMap.set (fun _ => 0) m k (SMap.get (fun _ => 0) m k + 1)) s.eraseCnt }

/-- R416: whether a sector of [lo, hi), erased more than 10,000 times, fails to hold its data: which of them do is open. -/
def State.worn (s : State) (lo hi : Nat) : Bool :=
  s.eraseCnt.any fun e => decide (10000 < e.2) && decide (lo < 65536 * (e.1 + 1)) && decide (65536 * e.1 < hi) &&
    Config.wornFails e.1 e.2

/-! ## Records of R271 -/

/-- The 128 B half record of R271. -/
def halfRecord (t : TrimSet) : List Byte :=
  (List.range 3).flatMap (fun i => leBytes 2 (twos 16 (t.cp.getD i 0))) ++
  (List.range 3).flatMap (fun i => leBytes 2 (t.gain.getD i 0)) ++
  leBytes 4 (t.cpConv % 8 + t.gainConv % 8 * 8) ++
  (List.range 64).map (fun i => BitVec.ofNat 8 (twos 8 (SMap.get (fun _ => 0) t.inl i))) ++
  leBytes 8 t.inlConv ++ List.replicate 40 0

/-- A signed number of `w` bits. -/
def signedOf (w v : Nat) : Int := if v % 2 ^ w < 2 ^ (w - 1) then ((v % 2 ^ w : Nat) : Int) else ((v % 2 ^ w : Nat) : Int) - 2 ^ w

/-- The trims that a half record holds. Those of the seed area have not converged, and are known as seeds (R255). -/
def recordTrims (bs : List Byte) (conv : Bool) : TrimSet :=
  let at2 := fun (o : Nat) => leNat ((bs.drop o).take 2)
  let b := leNat ((bs.drop 12).take 1)
  { cp := (List.range 3).map fun i => signedOf 10 (at2 (2 * i))
    gain := (List.range 3).map fun i => at2 (6 + 2 * i) % 4096
    cpConv := if conv then b % 8 else 0
    gainConv := if conv then b / 8 % 8 else 0
    inl := (List.range 64).foldl (fun m i => SMap.set (fun _ => 0) m i (signedOf 8 ((bs.getD (16 + i) 0).toNat))) []
    inlConv := if conv then leNat ((bs.drop 80).take 8) else 0
    cpSeed := !conv
    dtcSeed := !conv }

/-- The knots of factory linear scaling: 128 steps of 512 over one tick. -/
def linearKnots : List Nat := (List.range 128).map (512 * ·)

/-- The code table in force for a channel. -/
def State.knots (s : State) (k : Nat) : List Nat := (s.chan k).cdTable.getD linearKnots

/-! ## Banks -/

/-- The base of calibration bank A (0) or B (1). -/
def bankBase (b : Nat) : Nat := 0x400000 * b

abbrev seedBase : Nat := 0x1800000
abbrev bodyLen : Nat := 0x95000
abbrev seedBodyLen : Nat := 0x9E000
abbrev bankCommit : Nat := 0x3FF000
abbrev bankCheck : Nat := 0x3FE000

/-- The magics and the header version of R265. -/
abbrev headMagic : Nat := 0x53424B31
abbrev commitMagic : Nat := 0x53434D54

/-- The commit record of R265 and R367. -/
def commitRecord (magic gen len check : Nat) : List Byte :=
  let b := leBytes 4 magic ++ leBytes 4 gen ++ leBytes 4 len ++ leBytes 4 check
  b ++ leBytes 4 (crc32c b)

/-- The generation in the commit record at `a`. -/
def State.commitGen (s : State) (a : Nat) : Nat := s.nvmWord (a + 4)

/-- Whether the commit page at `a` is erased. -/
def State.commitErased (s : State) (a : Nat) : Bool := (s.nvmBytes a 20).all (· == 0xFF)

/-- The tests of R266 that the banks, the seed area and the boot slots share: the commit record's magic and CRC, its copy of the
check word, and the check page against the CRC of the body of length `len`. -/
def State.areaChecks (s : State) (base check commit magic len : Nat) : Bool :=
  s.nvmWord (base + commit) == magic &&
  s.nvmWord (base + commit + 16) == crc32c (s.nvmBytes (base + commit) 16) &&
  s.nvmWord (base + commit + 12) == s.nvmWord (base + check) &&
  s.nvmWord (base + check) == crc32c (s.nvmBytes base len)

/-- The header tests of R266. -/
def State.headerOk (s : State) (base : Nat) : Bool :=
  s.nvmWord base == headMagic && s.nvmWord (base + 4) == 1 && s.nvmWord (base + 8) == 1

/-- R266: whether bank `b` is valid. The data of a worn bank may fail these tests (R416). -/
def State.bankValid (s : State) (b : Nat) : Bool :=
  !s.worn (bankBase b) (bankBase b + 0x400000) &&
  s.areaChecks (bankBase b) bankCheck bankCommit commitMagic bodyLen && s.commitGen (bankBase b + bankCommit) != 0 &&
  s.commitGen (bankBase b + bankCommit) != 0xFFFFFFFF && s.headerOk (bankBase b)

/-- R266: whether the seed area is valid. -/
def State.seedValid (s : State) : Bool :=
  s.areaChecks seedBase 0xFE000 0xFF000 commitMagic seedBodyLen && s.commitGen (seedBase + 0xFF000) == 0 && s.headerOk seedBase

/-! Fields of bank `b`. -/
def nvmValid (b : Nat) : Fld := if b = 0 then NVM_STAT.A_VALID else NVM_STAT.B_VALID
def nvmGen (b : Nat) : Fld := if b = 0 then NVM_GEN_A.GEN else NVM_GEN_B.GEN

/-- The highest valid generation and its bank. -/
def State.bestBank (s : State) : Option (Nat × Nat) :=
  let g := fun b => s.get (nvmGen b)
  if s.isSet NVM_STAT.A_VALID && (!s.isSet NVM_STAT.B_VALID || decide (g 1 ≤ g 0)) then some (0, g 0)
  else if s.isSet NVM_STAT.B_VALID then some (1, g 1)
  else none

/-! ## Stores and erases -/

/-- An NVM operation is recorded with kind NVMOP (R261, R325). -/
def logNvm (s0 : State) (s : State) : State :=
  s.log oNvm kNVMOP RegId.NVM_STAT.at (s0.reg RegId.NVM_STAT.at) (s.reg RegId.NVM_STAT.at) (s.get NVM_STAT.LAST_CODE)

/-- A refused store or erase (R269, R270). -/
def refuseNvm (code : Nat) (s : State) : State :=
  logNvm s ((s.put NVM_STAT.REFUSED 1).put NVM_STAT.LAST_CODE code)

/-- A store or erase ends: the operation is over, `CMD` reads 0, `LAST_CODE` tells how. -/
def endNvm (code : Nat) (failed : Bool) (s : State) : State :=
  let s0 := s
  let s : State := { s with nvmOp := none }
  let s := ((s.put NVM_STAT.BUSY 0).put NVM_STAT.PHASE 0).put NVM_STAT.LAST_CODE code
  let s := (s.put NVM_CTRL_A.CMD 0).when failed (·.put NVM_STAT.FAILED 1)
  logNvm s0 s

/-- R269: the margin check, with the time `est` that the operation needs. -/
def State.marginOk (s : State) (est : Nat) : Bool := decide (est ≤ s.get NVM_CFG.HOLDUP_MS) && decide (s.vddhLow ≤ s.clock)

/-- R269: the code with which a store is refused. -/
def State.storeRefused (s : State) : Option Nat :=
  if !s.marginOk (s.get NVM_STAT.EST_MS) then some 2
  else if s.nvmOp.isSome then some 3
  else if (s.bestBank.map (·.2)).getD 0 = 0xFFFFFFFE then some 6
  else if s.nvmLost then some 7
  else none

/-- The committed values as they stand (R267). -/
def State.calSnap (s : State) : CalSnap where
  halves := s.halves.map fun e => (e.1, e.2.committed)
  tables := (List.range 1280).map s.knots
  preds := s.preds
  temps := (List.range 8).map fun n => s.get CHIP_TEMP.TEMP n

/-- Erase the commit sector of bank `b`: from then on the bank is invalid (R267 step 1). -/
def eraseCommit (b : Nat) (s : State) : State :=
  let s := nvmEraseRange (bankBase b + 0x3F0000) (bankBase b + 0x400000) s
  (s.put (nvmValid b) 0).put (nvmGen b) 0xFFFFFFFF

/-- An operation starts on bank `b`. -/
def startNvm (b : Nat) (store : Option (Nat × CalSnap)) (s : State) : State :=
  let s : State := { s with nvmOp := some { bank := b, store := store } }
  eraseCommit b ((s.put NVM_STAT.BUSY 1).put NVM_STAT.PHASE 1)

/-- A store (R267, R269): refused, failed for want of the calibration cache (R29), or started. -/
def startStore (s : State) : State :=
  match s.storeRefused with
  | some c => refuseNvm c s
  | none =>
    if s.calLost then endNvm 4 true s
    else
      let (target, gen) := match s.bestBank with
        | some (b, g) => (1 - b, g + 1)
        | none => (0, 1)
      startNvm target (some (gen, s.calSnap)) s

/-- R270: the code with which an erase of bank `b` is refused. -/
def State.eraseRefused (s : State) (b : Nat) (force : Bool) : Option Nat :=
  if s.nvmOp.isSome then some 3
  else if s.nvmLost then some 7
  else if !force && s.isSet (nvmValid b) && !s.isSet (nvmValid (1 - b)) then some 5
  else none

/-- A completed pair on `NVM_CTRL` with value `v` (R267, R270): the present value shows the running command. -/
def nvmCtrlWrite (v : Nat) (s : State) : State :=
  let show_ := fun (s : State) => if s.nvmOp.isSome then s.setReg RegId.NVM_CTRL_A.at (BitVec.ofNat 32 v)
    else s.setReg RegId.NVM_CTRL_A.at (withField (BitVec.ofNat 32 v) 0 2 0)
  if v % 4 = 1 then
    if s.nvmOp.isSome then startStore s else show_ (startStore s)
  else if v % 4 = 2 then
    let b := v / 4 % 2
    match s.eraseRefused b (v / 8 % 2 == 1) with
    | some c => if s.nvmOp.isSome then refuseNvm c s else show_ (refuseNvm c s)
    | none => show_ (startNvm b none s)
  else if s.nvmOp.isSome then
    s.setReg RegId.NVM_CTRL_A.at (withField (BitVec.ofNat 32 v) 0 4 (fieldOf (s.reg RegId.NVM_CTRL_A.at) 0 4))
  else show_ s

/-- NVM_AUTO_STORE (R267): once after the first `ALL_CONV` following a cold reset. -/
def nvmAutoStoreS (s : State) : State :=
  if s.convSeen && !s.autoDone && s.isSet NVM_CFG.AUTO && !s.cdDown then startStore { s with autoDone := true } else s

/-- Pad a list of bytes with erased bytes to a length. -/
def padTo (n : Nat) (bs : List Byte) : List Byte := bs ++ List.replicate (n - bs.length) 0xFF

/-- The body of a bank (R265). -/
def bankBody (gen : Nat) (c : CalSnap) : List Byte :=
  let head := leBytes 4 headMagic ++ leBytes 4 1 ++ leBytes 4 1 ++ leBytes 4 0 ++ leBytes 8 Config.serialNumber.toNat ++
    leBytes 4 gen ++ c.temps.flatMap (fun t => leBytes 1 t)
  let pred := fun (x : Nat) => (List.range 768).flatMap fun i => leBytes 2 (SMap.get (fun _ => 0) c.preds (768 * x + i))
  padTo 0x1000 head ++
  (List.range 128).flatMap (fun x => halfRecord (SMap.get (fun _ => {}) c.halves x)) ++
  c.tables.flatMap (fun t => t.flatMap fun k => leBytes 2 k) ++
  (List.range 128).flatMap (fun x => padTo 2048 (pred x))

/-- What a store or an erase has done of the phase in hand where it stands (R267, R270): a part whose length is open, in the order of the
addresses; of the commit record at most the first `cap` bytes (log entry 93). -/
def nvmPartial (cap : Nat) (s : State) : State :=
  match s.nvmOp with
  | none => s
  | some op =>
    let (n, s) := s.free 24
    let b := bankBase op.bank
    match op.store with
    | none => nvmEraseRange b (b + min n 0x3F0000) s
    | some (gen, c) =>
      let body := bankBody gen c
      if s.get NVM_STAT.PHASE = 1 then nvmEraseRange b (b + min n 0xA0000) s
      else if s.get NVM_STAT.PHASE = 2 then
        nvmProgram (b + bankCheck) ((leBytes 4 (crc32c body)).take (n - bodyLen)) (nvmProgram b (body.take n) s)
      else nvmProgram (b + bankCommit) ((commitRecord commitMagic gen bodyLen (s.nvmWord (b + bankCheck))).take (min n cap)) s

/-- R270: a reset, a loss of power or a control-die loss ends a store or erase where it stands. -/
def abandonNvm (s : State) : State := s.when s.nvmOp.isSome fun s => endNvm 9 true (nvmPartial 19 s)

/-- The NVM die's end of an access: a die that does not answer is lost, fault 0x05 (R10, R34, R377). -/
def nvmEnded (r : NvmEnd) (s : State) : State :=
  if r = .silent ∧ !s.nvmLost then faultReport 5 { s with nvmLost := true } else s

/-- R267: a store or an erase that the NVM die fails, or does not answer, ends with NVMFAIL where it stands; no commit record is
complete. -/
def nvmFails (r : NvmEnd) (s : State) : State := endNvm 4 true (nvmEnded r (nvmPartial 12 s))

/-- NVM_ERASE_PHASE_DONE (R267 step 2): sectors 0 to 9 are erased. -/
def nvmErasePhaseDoneS (r : NvmEnd) (s : State) : State :=
  match s.nvmOp with
  | some ⟨b, some _⟩ =>
    if s.get NVM_STAT.PHASE = 1 && !s.cdDown then
      if r = .done then (nvmEraseRange (bankBase b) (bankBase b + 0xA0000) s).put NVM_STAT.PHASE 2 else nvmFails r s
    else s
  | _ => s

/-- NVM_BODY_DONE (R267 steps 3 and 4): the body is programmed, read back, and the check page written; or the store ends with
NVMFAIL. -/
def nvmBodyDoneS (r : NvmEnd) (s : State) : State :=
  match s.nvmOp with
  | some ⟨b, some (gen, c)⟩ =>
    if s.get NVM_STAT.PHASE = 2 && !s.cdDown then
      let body := bankBody gen c
      if r = .done then
        (nvmProgram (bankBase b + bankCheck) (leBytes 4 (crc32c body)) (nvmProgram (bankBase b) body s)).put NVM_STAT.PHASE 3
      else nvmFails r s
    else s
  | _ => s

/-- NVM_STORE_DONE (R267 step 5): the commit record is written, or its program failure ends the store. -/
def nvmStoreDoneS (r : NvmEnd) (s : State) : State :=
  match s.nvmOp with
  | some ⟨b, some (gen, _)⟩ =>
    if s.get NVM_STAT.PHASE = 3 && !s.cdDown then
      if r ≠ .done then nvmFails r s
      else
      let check := s.nvmWord (bankBase b + bankCheck)
      let s := nvmProgram (bankBase b + bankCommit) (commitRecord commitMagic gen bodyLen check) s
      let s := (((s.put NVM_STAT.INUSE b).put NVM_STAT.STORED 1).put (nvmGen b) gen).put (nvmValid b) 1
      (endNvm 1 false s).raise 278
    else s
  | _ => s

/-- NVM_ERASE_DONE (R270): the whole bank is erased, its commit sector since the start, or the erase fails. -/
def nvmEraseDoneS (r : NvmEnd) (s : State) : State :=
  match s.nvmOp with
  | some ⟨b, none⟩ =>
    if s.cdDown then s
    else if r ≠ .done then nvmFails r s
    else endNvm 8 false (nvmEraseRange (bankBase b) (bankBase b + 0x3F0000) s)
  | _ => s

/-- VDDH_MONITOR_LOW (R269): stores refuse for the following 10 ms. -/
def vddhMonitorLowS (s : State) : State := { s with vddhLow := s.clock + 10 * msTk }

/-! ## The load at boot (R262, R263, R266) -/

/-- Factory linear scaling takes the place of every code table that is loaded or waits (R257, R263). -/
def dropTables (s : State) : State :=
  forBelow 1280 (fun k s => if (s.chan k).cdTable.isSome || (s.chan k).cdWait.isSome then reloadTable k none s else s) s

/-- Load the committed values of the area at NVM offset `base`; `bank` tells a bank from the seed area, which holds no tables. -/
def loadArea (base : Nat) (bank : Bool) (s : State) : State :=
  let s := forBelow 128 (fun x s =>
    let t := recordTrims (s.nvmBytes (base + 0x1000 + 128 * x) 128) bank
    s.setHalf (x / 2) (x % 2) { s.half (x / 2) (x % 2) with committed := t, working := t, inForce := t }) s
  let s := if !bank then dropTables s else forBelow 1280 (fun k s =>
    reloadTable k (some ((List.range 128).map fun j => leNat (s.nvmBytes (base + 0x5000 + 256 * k + 2 * j) 2))) s) s
  forBelow 128 (fun x s => forBelow 768 (fun i s =>
    { s with preds := SMap.set (fun _ => 0) s.preds (768 * x + i) (leNat (s.nvmBytes (base + 0x55000 + 2048 * x + 2 * i) 2)) }) s) s

/-- The fixed defaults of R263: mid-scale trims, nominal gain, linear scaling and nominal band predictions. -/
def loadDefaults (s : State) : State :=
  let s := forBelow 128 (fun x s =>
    s.setHalf (x / 2) (x % 2) { s.half (x / 2) (x % 2) with committed := {}, working := {}, inForce := {} }) (s.put SOR_STAT.SRC 3)
  dropTables { s with preds := [] }

/-- NVM loader (R266): the valid bank with the higher generation, else the seeds, else the defaults. `answers` tells whether the
NVM die answers; if it does not, fault 0x05 is reported (R377). -/
def loadCalibration (answers : Bool) (s : State) : State :=
  let done := fun (s : State) => s.log oNvm kNVMOP RegId.NVM_STAT.at (s.reg RegId.NVM_STAT.at) (s.reg RegId.NVM_STAT.at) 0xF
  if !answers then
    let s : State := { s with nvmLost := true, calGen := 0xFFFFFFFF }
    done (faultReport 5 (loadDefaults s))
  else
    let s : State := { s with nvmLost := false }
    let one := fun (b : Nat) (s : State) =>
      let a := bankBase b + bankCommit
      let v := s.bankValid b
      let s := (s.put (nvmValid b) (if v then 1 else 0)).put (nvmGen b) (s.commitGen a)
      s.when (!v && !s.commitErased a) (·.put SOR_STAT.LOADBAD 1)
    let s := one 1 (one 0 s)
    let s := s.put NVM_STAT.SEED_VALID (if s.seedValid then 1 else 0)
    done <| match s.bestBank with
      | some (b, g) => ({ loadArea (bankBase b) true (s.put SOR_STAT.SRC b) with calGen := g }).put NVM_STAT.INUSE b
      | none =>
        if s.isSet NVM_STAT.SEED_VALID then { loadArea seedBase false (s.put SOR_STAT.SRC 2) with calGen := 0 }
        else loadDefaults { s with calGen := 0xFFFFFFFF }

/-- The mailbox values `HT_COMMIT` and `HT_WORK` (R272) of half index `x`. -/
def State.trimRecord (s : State) (x : Nat) (work : Bool) : Nat :=
  let h := s.half (x / 2) (x % 2)
  leNat (halfRecord (if work then h.working else h.committed))

/-- The mailbox value `CD_TABLE` (R272) of channel `k`. -/
def State.cdTableValue (s : State) (k : Nat) : Nat := leNat ((s.knots k).flatMap fun v => leBytes 2 v)

end Sys2Proof.Machine
end

