-- ==== Sys2Proof/Machine/Events.lean ====
section
/-! DEFINITION. The event tree and the PCI Express endpoint's own state (R352 to R362). -/

namespace Sys2Proof.Machine

/-! ## Status bits and pins -/

/-- `EV_GSUM` (R357): bit g tells whether some bit of `EV_STATg` is set. -/
def State.gsum (s : State) : Nat :=
  (List.range 12).foldl (fun n g => if s.get EV_STAT.STAT g = 0 then n else n + 2 ^ g) 0

/-- Whether source `i` has its status bit set. -/
def State.evSet (s : State) (i : Nat) : Bool := (s.get EV_STAT.STAT (i / 32)).testBit (i % 32)

/-- Whether a chiplet pulls IRQ_N (R36): one that has declared the control die lost. -/
def State.chipPulls (s : State) : Bool := (List.range 8).any fun n => (s.chip n).cdLost && !s.chipLost n

/-- The level of IRQ_N (R358): true when it is low. -/
def State.irqLow (s : State) : Bool :=
  (s.isSet EV_CFG.IRQ_EN && (List.range 384).any fun i => s.evSet i && s.isSet EV_ROUTE.IRQ i) || s.chipPulls

/-! ## MSI-X (R359, R360) -/

/-- The moderation interval in ticks. -/
def State.gapTicks (s : State) : Nat := max 1600 (usTk * s.get EV_CFG.GAP_US)

/-- Whether vector `v` may send no message for now: masked, or without bus mastering, or in D3hot. -/
def State.vecHeld (s : State) (v : Nat) : Bool :=
  (s.vec v).ctrl.getLsbD 0 || s.fnMask || !s.bme || s.isSet PCIE_STAT.D3

/-- Whether moderation lets vector `v` send: its own interval is over, and the endpoint's of 0.5 us across all vectors. -/
def State.vecFree (s : State) (v : Nat) : Bool :=
  (match (s.vec v).last with | some t => decide (t + s.gapTicks ≤ s.clock) | none => true) &&
  (match s.msgLast with | some t => decide (t + 1600 ≤ s.clock) | none => true)

/-- MSIX_SEND (R359): a message due on vector `v` is held as pending, waits for the interval, or goes out. -/
def msixSend (v : Nat) (s : State) : State :=
  if s.vecHeld v || s.cdDown then s.setVec v { s.vec v with pending := true, merged := false }
  else if s.vecFree v then
    let s := s.setVec v { s.vec v with pending := false, merged := false, last := some s.clock }
    { s with msgLast := some s.clock }.emit (.msix v)
  else s.setVec v { s.vec v with pending := false, merged := true }

/-- A message held on vector `v` goes out if it may; one that waits for its interval does at the interval's end, where a mask makes it
pending (R362). -/
def msixFlush (v : Nat) (s : State) : State :=
  let x := s.vec v
  if (x.pending && !s.vecHeld v) || (x.merged && s.vecFree v) then msixSend v s else s

/-- Every vector that holds a message. -/
def msixFlushAll (s : State) : State := forList (s.msix.map (·.1)) msixFlush s

/-- MSIX_MODERATION_END (R359, R362). -/
def msixModerationEndS (v : Nat) (s : State) : State :=
  if (s.vec v).merged && s.vecFree v && !s.cdDown then msixSend v s else s

/-- A read of word `i` of the MSI-X table (R360). -/
def msixTableRead (i : Nat) (s : State) : Word :=
  let x := s.vec (i / 4)
  if i % 4 = 0 then x.addrLo else if i % 4 = 1 then x.addrHi else if i % 4 = 2 then x.data else x.ctrl

/-- A write of word `i` of the MSI-X table (R360): clearing a mask sends what is pending. -/
def msixTableWrite (i : Nat) (v : Word) (s : State) : State :=
  let x := s.vec (i / 4)
  if i % 4 = 0 then s.setVec (i / 4) { x with addrLo := v &&& 0xFFFFFFFC }
  else if i % 4 = 1 then s.setVec (i / 4) { x with addrHi := v }
  else if i % 4 = 2 then s.setVec (i / 4) { x with data := v }
  else msixFlush (i / 4) (s.setVec (i / 4) { x with ctrl := v &&& 1 })

/-- A read of word `i` of the pending bit array (R360). -/
def msixPbaRead (i : Nat) (s : State) : Word :=
  BitVec.ofNat 32 ((List.range 32).foldl (fun n b => if (s.vec (32 * i + b)).pending then n + 2 ^ b else n) 0)

/-! ## Raises -/

/-- The routes of source `i` act (R358). -/
def routeRaise (i : Nat) (s : State) : State :=
  let s : State := { s with routedAt := SMap.set (fun _ => 0) s.routedAt i (s.clock + 1) }
  let s := s.when (s.isSet EV_ROUTE.MSIX i) (msixSend (s.get EV_ROUTE.VEC i))
  if s.isSet EV_ROUTE.RY i && !s.isTop && s.isSet RY_GCFG.EVT_FWD && !s.ry.evPend.contains i then
    { s with ry := { s.ry with evPend := s.ry.evPend ++ [i] } }
  else s

/-- EVENT_RAISE (R357): the first raise on its way is counted, latched and routed; a further raise of its source in one tick is not routed
again (R362; log entry 122). While the control die is lost nothing is (R362); in a warm reset the counts and bits move on and a message
waits for its end (R235, R362). -/
def eventRaiseS (s : State) : State :=
  match s.raising with
  | [] => s
  | i :: rest =>
    let s : State := { s with raising := rest }
    if s.cdGone then s
    else
      let s : State := { s with
        raises := SMap.set (fun _ => 0) s.raises i ((SMap.get (fun _ => 0) s.raises i + 1) % 2 ^ 32)
        raiseTs := SMap.set (fun _ => 0) s.raiseTs i (ts80 s.mcount) }
      let s := s.put EV_STAT.STAT (s.get EV_STAT.STAT (i / 32) ||| 2 ^ (i % 32)) (i / 32)
      if SMap.get (fun _ => 0) s.routedAt i = s.clock + 1 then s else routeRaise i s

/-- A write to `EV_ROUTE` (R358): a vector above 383 is stored as 383. -/
def hookEvRoute (new : Word) (s : State) : Word × State :=
  (if 383 < fieldOf new 0 9 then withField new 0 9 383 else new, s)

/-! ## The endpoint -/

/-- A register of configuration space to which R352, R353, R355, R356 or R360 gives a value. -/
inductive CfgReg where
  | vendorId | deviceId | revisionId | classCode | subsystemVendorId | subsystemId | deviceSerialNumber | noSoftReset
  | interruptPin | bar (n : Fin 6) | maxPayloadSupported | maxPayload | extendedCapability (n : Fin 6)
  | msixTableSize | msixTable | msixPba | aerUncorrectable
  deriving DecidableEq, Repr

/-- The BAR registers (R355, R356): two 64-bit memory BARs, of 64 MiB and, prefetchable, of 32 MiB; BAR4 and BAR5 are not implemented. -/
def CfgSpace.barReg (c : CfgSpace) (n : Nat) : Nat :=
  if n = 0 then c.bar0.toNat % 2 ^ 32 / 2 ^ 26 * 2 ^ 26 + 0x4
  else if n = 1 then c.bar0.toNat / 2 ^ 32
  else if n = 2 then c.bar2.toNat % 2 ^ 32 / 2 ^ 25 * 2 ^ 25 + 0xC
  else if n = 3 then c.bar2.toNat / 2 ^ 32
  else 0

/-- Max_Payload_Size as configured, in bytes (R352, R356). -/
def State.maxPayload (s : State) : Nat := 128 * 2 ^ s.cfg.mps.val

/-- What a read of configuration space returns. The serial number is that of IDENTITY (R371). -/
def State.cfgRead (s : State) : CfgReg → Nat
  | .vendorId => s.cfg.vendor.toNat
  | .deviceId => s.cfg.device.toNat
  | .revisionId => s.cfg.revision.toNat
  | .classCode => s.cfg.classCode.toNat
  | .subsystemVendorId => s.cfg.subVendor.toNat
  | .subsystemId => s.cfg.subDevice.toNat
  | .deviceSerialNumber => Config.serialNumber.toNat
  | .noSoftReset => s.cfg.noSoftReset.toNat
  | .interruptPin => s.cfg.intPin.toNat
  | .bar n => s.cfg.barReg n.val
  | .maxPayloadSupported => s.cfg.mpsSupported.toNat
  | .maxPayload => s.cfg.mps.val
  | .extendedCapability n => (s.cfg.extCaps.getD n.val 0).toNat
  | .msixTableSize => s.cfg.msixSize.toNat
  | .msixTable => s.cfg.msixTable.toNat
  | .msixPba => s.cfg.msixPba.toNat
  | .aerUncorrectable => s.cfg.aer.toNat

/-- PCIE_RESET (R354): the endpoint's own state alone is reset, configuration space with it; every such event is a link-down. The intervals
between messages (R360) run on. -/
def pcieResetS (s : State) : State :=
  let s : State := { s with cfg := {}, bme := false, fnMask := true }
  let s := forList (s.msix.map (·.1)) (fun v s => s.setVec v { last := (s.vec v).last, merged := (s.vec v).merged }) s
  let s := s.setOrg oPcie { s.org oPcie with pair := none }
  let s := (((s.put PCIE_STAT.LINK_UP 0).put PCIE_STAT.SPEED 0).put PCIE_STAT.WIDTH 0).put PCIE_STAT.D3 0
  ((s.put PCIE_STAT.DOWN_SEEN 1).bump PCIE_CNT.LINKDOWNS).raise 380

/-- PCIE_LINK_UP (R352): the speeds and widths supported. With it comes what the host then configures, for which the table has no row
(log entry 121). -/
def pcieLinkUpS (speed width : Nat) (host : HostCfg) (s : State) : State :=
  if s.cdDown || speed = 0 || !([1, 2, 4, 8].contains width) then s
  else
    let s : State := { s with cfg := { s.cfg with bar0 := host.bar0, bar2 := host.bar2, mps := host.mps } }
    ((s.put PCIE_STAT.LINK_UP 1).put PCIE_STAT.SPEED speed).put PCIE_STAT.WIDTH width

/-- PCIE_D3HOT and PCIE_D3HOT_EXIT (R354). -/
def pcieD3hotS (s : State) : State := if s.isSet PCIE_STAT.LINK_UP && !s.cdDown then s.put PCIE_STAT.D3 1 else s
def pcieD3hotExitS (s : State) : State :=
  if s.isSet PCIE_STAT.D3 && !s.cdDown then msixFlushAll (s.put PCIE_STAT.D3 0) else s

/-- Whether BAR requests complete: the link is up, the function is in D0 and the control die works (R354, R379). -/
def State.barOn (s : State) : Bool := s.isSet PCIE_STAT.LINK_UP && !s.isSet PCIE_STAT.D3 && !s.cdDown

/-- Whether an access of origin `o` can arrive: the host's come by BAR0 alone (R354, R355). -/
def State.busOn (s : State) (o : Nat) : Bool := o != oPcie || s.barOn

/-- MSIX_UNMASK (R359): a vector is unmasked by a BAR0 write, the function and bus mastering in configuration space, which the
link has to be up for (R354). -/
def msixUnmaskS (w : Unmask) (s : State) : State :=
  match w with
  | .vector v =>
    s.when s.barOn fun s => msixFlush v.val (s.setVec v.val { s.vec v.val with ctrl := (s.vec v.val).ctrl &&& 0xFFFFFFFE })
  | .function => s.when (s.isSet PCIE_STAT.LINK_UP) fun s => msixFlushAll { s with fnMask := false }
  | .busMaster => s.when (s.isSet PCIE_STAT.LINK_UP) fun s => msixFlushAll { s with bme := true }

/-- A refused BAR request (R355, R356). -/
def barRefused (f : Fld) (s : State) : State := ((s.put f 1).bump PCIE_CNT.REFUSED).raise 380

/-- Whether BAR2 may read the on-chip byte at `x` (R356). -/
def barReads (x : Nat) : Bool :=
  (decide (0x01400000 ≤ x) && decide (x < 0x01A00000)) || (decide (0x01A14000 ≤ x) && decide (x < 0x01D00000)) ||
    (decide (0x01E00000 ≤ x) && decide (x < 0x02000000))

/-- Whether BAR2 may write the on-chip byte at `x` (R356). -/
def State.barWrites (s : State) (x : Nat) : Bool :=
  s.isSet PCIE_CFG.PS_WR && decide (0x01400000 ≤ x) && decide (x < 0x01800000)

/-- Bytes enter the program store. No write reaches a lost bank: it is discarded and sets `BAR2_BAD` (R418). -/
def storeProgram (off : Nat) (bs : List (Option Byte)) (s : State) : State :=
  if s.bankLost (bankOf off) || s.bankLost (bankOf (off + bs.length - 1)) then
    let s := s.put PCIE_STAT.BAR2_BAD 1
    forList (bs.zipIdx off) (fun x s => match x.1 with
      | some b => if s.bankLost (bankOf x.2) then s else s.store x.2 [b]
      | none => s) s
  else if bs.all (·.isSome) then s.store off (bs.map (·.getD 0))
  else forList (bs.zipIdx off) (fun x s => match x.1 with | some b => s.store x.2 [b] | none => s) s

/-- A program load (R324): one record tells of the first byte's code address and the byte count. -/
def programLoad (o off count : Nat) (bs : List (Option Byte)) (s : State) : State :=
  (storeProgram off bs s).log o kPROGLOAD (off - 0x01400000) 0 (BitVec.ofNat 32 count)

end Sys2Proof.Machine
end

