-- ==== Sys2Proof/Machine/Serial.lean ====
section
/-! DEFINITION. The serial master port and execute-in-place (R342 to R350). -/

namespace Sys2Proof.Machine

/-! ## Selects -/

/-- Whether some select in general-purpose mode is low (R347). -/
def State.gpLow (s : State) : Bool :=
  (List.range 4).any fun n => !(fieldOf s.sm.cfg 12 4).testBit n && !s.sm.pins.testBit n

/-- Whether a frame runs on the bus. -/
def State.smRunning (s : State) : Bool := match s.sm.frame with | some f => f.running.isSome | none => false

/-- Whether the bus is free of frames and fills, and of a select that has still to rise. -/
def State.busFree (s : State) : Bool := !s.smRunning && s.xip.filling.isNone && s.sm.rising.isNone

/-- The levels of MSEL3 to MSEL0 (R342, R346): a hardware select is high but for its frame; another follows `SM_GPIO`. -/
def State.mselLevels (s : State) : Nat :=
  (List.range 4).foldl (fun v n =>
    let low := if (fieldOf s.sm.cfg 12 4).testBit n then s.sm.low == some n || s.sm.rising.any (·.1 == n) else !s.sm.pins.testBit n
    if low then v else v + 2 ^ n) 0

/-- The select pins take their levels. -/
def showPins (s : State) : State := s.emit (.smPins s.mselLevels)

/-- A hardware select falls (R346). -/
def lowerSel (n : Nat) (s : State) : State := showPins { s with sm := { s.sm with low := some n } }

/-- The hardware select that is low rises (R346). -/
def raiseSel (s : State) : State :=
  match s.sm.low with
  | some n => showPins { s with sm := { s.sm with low := none, selUp := SMap.set (fun _ => 0) s.sm.selUp n s.clock } }
  | none => s

/-- The hardware select that is low rises at clock `t`, at a tick (R350). -/
def raiseLater (t : Nat) (s : State) : State :=
  match s.sm.low with
  | some n => { s with sm := { s.sm with low := none, rising := some (n, t) } }
  | none => s

/-- A write of `SM_GPIO` reaches the pins. -/
def setPins (v : Nat) (s : State) : State := showPins { s with sm := { s.sm with pins := v % 16, pinsAt := some s.clock } }

/-- Whether a held write may reach the pins (R345). -/
def HeldPins.free (h : HeldPins) (clock : Nat) : Bool := !h.frame && !h.fill && decide (h.due ≤ clock)

/-- The held writes that may reach the pins do, in their order. -/
def releasePins (s : State) : State :=
  forList (s.sm.held.takeWhile (·.free s.clock)) (fun h s => setPins h.v { s with sm := { s.sm with held := s.sm.held.drop 1 } }) s

/-- The software frame, or the fill, has come to its last MSCK edge at clock `edge`: writes held for it wait 10 ns more (R345). -/
def heldOver (fill : Bool) (edge : Nat) (s : State) : State :=
  let over_ := fun (h : HeldPins) => if (if fill then h.fill else h.frame) then
      { h with frame := h.frame && fill, fill := h.fill && !fill, due := max h.due (edge + 32) }
    else h
  { s with sm := { s.sm with held := s.sm.held.map over_ } }

/-- The same, with the writes that may then reach the pins. -/
def heldEnd (fill : Bool) (edge : Nat) (s : State) : State := releasePins (heldOver fill edge s)

/-- A write to `SM_GPIO` (R345): it waits for an earlier frame of its origin, for any frame or fill in progress, and for the writes held
before it (log entry 120). -/
def hookSmGpio (o : Nat) (new : Word) (s : State) : Word × State :=
  let h : HeldPins := {
    v := fieldOf new 0 4, fill := s.xip.filling.isSome
    frame := (s.sm.frame.any fun f => f.o == o || f.running.isSome) || s.sm.held.any (·.frame) }
  (new, if h.free s.clock && s.sm.held.isEmpty && s.busFree then setPins h.v s
    else { s with sm := { s.sm with held := s.sm.held ++ [h] } })

/-! ## Software frames -/

/-- The cycles of one phase of `n` bytes on the lanes of code `lanes` (R343). -/
def phaseCycles (n lanes : Nat) : Nat := (8 * n + 2 ^ lanes - 1) / 2 ^ lanes

/-- Ticks of one MSCK cycle: (`DIV` + 1) x 5 ns. -/
def State.msckTicks (s : State) : Nat := 16 * (fieldOf s.sm.cfg 2 8 + 1)

/-- The fields of a captured frame. -/
def SmFrame.len (f : SmFrame) : Nat := fieldOf f.frm2 0 10
def SmFrame.hwsel (f : SmFrame) : Bool := fieldOf f.frm2 13 1 == 1
def SmFrame.sel (f : SmFrame) : Nat := fieldOf f.frm2 14 2
def SmFrame.read (f : SmFrame) : Bool := fieldOf f.frm2 12 1 == 1

/-- The cycles C of a frame (R343). -/
def SmFrame.cycles (f : SmFrame) : Nat :=
  phaseCycles (fieldOf f.frm0 16 2) (fieldOf f.frm0 18 2) + phaseCycles (fieldOf f.frm0 20 3) (fieldOf f.frm0 23 2) +
    fieldOf f.frm0 25 5 + phaseCycles f.len (fieldOf f.frm2 10 2)

/-- The code with which a start is refused (R344). -/
def State.smRefused (s : State) : Option Nat :=
  if !s.isSet SM_CFG.EN then some 1
  else if s.get SM_FRM0.CMD_BYTES = 3 || 4 < s.get SM_FRM0.ADDR_BYTES || 512 < s.get SM_FRM2.LEN then some 2
  else if s.isSet SM_FRM2.HWSEL && !(s.get SM_CFG.SEL_HW).testBit (s.get SM_FRM2.SEL) then some 3
  else none

/-- A write to `SM_CMD` (R344): `GO` reads 0. -/
def hookSmCmd (o : Nat) (new : Word) (s : State) : Word × State :=
  let v := withField new 0 1 0
  if fieldOf new 0 1 = 0 then (v, s)
  else if s.isSet SM_STAT.BUSY then (v, s.put SM_STAT.GO_LOST 1)
  else
    match s.smRefused with
    | some c => (v, ((s.put SM_STAT.REFUSED 1).put SM_STAT.LAST_CODE c).raise 373)
    | none =>
      let f : SmFrame := {
        frm0 := s.reg RegId.SM_FRM0.at, frm1 := s.reg RegId.SM_FRM1.at, frm2 := s.reg RegId.SM_FRM2.at
        buf := (List.range 128).map fun i => s.reg (RegId.SM_BUF.at i), o := o }
      (v, { (s.put SM_STAT.BUSY 1) with sm := { s.sm with frame := some f } })

/-- R346: whether a hardware select has been high for `GAP`. -/
def State.selRested (s : State) (n : Nat) : Bool :=
  let t := SMap.get (fun _ => 0) s.sm.selUp n
  decide (t = 0) || decide (t + 16 * s.get SM_TIME.GAP ≤ s.clock)

/-- Whether a fill waits for no more than the bus and its select (R347): a GO then waits for it. -/
def State.fillWaits (s : State) : Bool := !s.xip.misses.isEmpty && s.xipSet && !s.gpLow

/-- Whether the first fill that waits could start now (R347). -/
def State.fillReady (s : State) : Bool := s.fillWaits && s.busFree && s.selRested (s.get SM_XIP.SEL)

/-- Ticks from the start of a frame to its first MSCK edge, and to its last (R343, R346). -/
def State.setupTicks (s : State) (f : SmFrame) : Nat := if f.hwsel then 16 * s.get SM_TIME.SETUP else 0
def State.lastEdge (s : State) (f : SmFrame) : Nat := s.setupTicks f + f.cycles * s.msckTicks

/-- Ticks from the start of a frame to its end: setup, cycles and hold. -/
def State.frameTicks (s : State) (f : SmFrame) : Nat := s.lastEdge f + (if f.hwsel then 16 * s.get SM_TIME.HOLD else 0)

/-! ## What a frame clocks out (R342, R343) -/

/-- One phase of the bytes `bs` on the lanes of code `lanes`: the most significant bit first, on the highest lane; bits beyond the last
are 0. -/
def phaseOut (lanes : Nat) (bs : List Byte) : List (Byte × Byte) :=
  let w := 2 ^ lanes
  let bit := fun (i : Nat) => (bs.getD (i / 8) 0).getLsbD (7 - i % 8)
  (List.range (phaseCycles bs.length lanes)).map fun k =>
    (BitVec.ofNat 8 (2 ^ w - 1), BitVec.ofNat 8 ((List.range w).foldl (fun v j => 2 * v + (bit (w * k + j)).toNat) 0))

/-- The `n` low bytes of a field, the most significant first. -/
def topFirst (n : Nat) (v : Nat) : List Byte := (leBytes n v).reverse

/-- The cycles of a frame, with the lines driven: command, address, dummy cycles, in which none is, and data, which a read does not
drive. -/
def SmFrame.clocked (f : SmFrame) : List (Byte × Byte) :=
  let lanes := fieldOf f.frm2 10 2
  phaseOut (fieldOf f.frm0 18 2) (topFirst (fieldOf f.frm0 16 2) (fieldOf f.frm0 0 16)) ++
    phaseOut (fieldOf f.frm0 23 2) (topFirst (fieldOf f.frm0 20 3) f.frm1.toNat) ++
    List.replicate (fieldOf f.frm0 25 5) (0, 0) ++
    (if f.read then List.replicate (phaseCycles f.len lanes) (0, 0)
      else phaseOut lanes ((List.range f.len).map fun j => BitVec.ofNat 8 ((f.buf.getD (j / 4) 0).toNat / 256 ^ (j % 4))))

/-- The wave of a frame under the `SM_CFG` in force: `CPOL` gives the mode, `SAMPLE` delays the inputs by 2.5 ns each. -/
def State.waveOf (s : State) (f : SmFrame) : SmWave where
  mode3 := fieldOf s.sm.cfg 1 1 == 1
  setup := s.setupTicks f
  period := s.msckTicks
  sample := 8 * fieldOf s.sm.cfg 10 2
  cycles := f.clocked

/-- The cycles at which the bytes of a frame end; the dummy cycles end as one (R350). -/
def SmFrame.byteEnds (f : SmFrame) : List Nat :=
  let ends := fun (base n lanes : Nat) => (List.range n).map fun i => base + phaseCycles (i + 1) lanes
  let c := phaseCycles (fieldOf f.frm0 16 2) (fieldOf f.frm0 18 2)
  let a := c + phaseCycles (fieldOf f.frm0 20 3) (fieldOf f.frm0 23 2)
  let d := a + fieldOf f.frm0 25 5
  ends 0 (fieldOf f.frm0 16 2) (fieldOf f.frm0 18 2) ++ ends c (fieldOf f.frm0 20 3) (fieldOf f.frm0 23 2) ++ [d] ++
    ends d f.len (fieldOf f.frm2 10 2)

/-- The clock at which a frame that runs since clock `t` stops if it stops at the next byte (R350). -/
def State.byteStop (s : State) (f : SmFrame) (t : Nat) : Nat :=
  let t0 := t + s.setupTicks f
  if s.clock ≤ t0 then s.clock
  else
    ((f.byteEnds.map fun c => t0 + c * s.msckTicks).find? fun x => decide (s.clock ≤ x)).getD (t + s.lastEdge f)

/-- The `SM_CFG` written comes into force (R350): the selects and the rest level of MSCK follow it (R342). -/
def takeSmCfg (s : State) : State :=
  let t : State := { s with sm := { s.sm with cfg := s.reg RegId.SM_CFG.at } }
  let cpol := fun (s : State) => fieldOf s.sm.cfg 1 1 == 1
  (t.when (cpol t != cpol s) (·.emit (.smIdle (cpol t)))).when (t.mselLevels != s.mselLevels) showPins

/-- SM_FRAME_START (R344, R345, R347): a waiting frame gets the free bus, after a fill that waits for it, and after the `SM_GPIO`
writes before its `GO`. -/
def smFrameStartS (s : State) : State :=
  match s.sm.frame with
  | some f =>
    if f.running.isNone && s.busFree && !s.fillWaits && !s.cdDown && s.sm.held.all (·.frame) &&
        s.sm.pinsAt.all (fun t => decide (t + 64 ≤ s.clock)) && (!f.hwsel || s.selRested f.sel) then
      let g := { f with running := some s.clock }
      let s := s.when f.hwsel (lowerSel f.sel)
      ({ s with sm := { s.sm with frame := some g } }).emit (.smFrame g (s.waveOf g))
    else s
  | none => s

/-- Word `i` of `SM_BUF` after a read of `n` bytes: the bytes received replace the word's. -/
def bufWord (old : Word) (rx : List Byte) (n i : Nat) : Word :=
  BitVec.ofNat 32 (leNat ((List.range 4).map fun b =>
    if 4 * i + b < n then rx.getD (4 * i + b) 0 else BitVec.ofNat 8 (old.toNat / 256 ^ b)))

/-! ## Execute-in-place fills -/

/-- The frame of a line fill (R347). -/
def State.fillFrame (s : State) (line : Nat) : SmFrame where
  frm0 := BitVec.ofNat 32 (s.get SM_XIP.RCMD + 2 ^ 16 + s.get SM_XIP.CMD_LANES * 2 ^ 18 +
    (if s.isSet SM_XIP.ADDR4 then 4 else 3) * 2 ^ 20 + s.get SM_XIP.ADDR_LANES * 2 ^ 23 + s.get SM_XIP.DUMMY * 2 ^ 25)
  frm1 := BitVec.ofNat 32 line
  frm2 := BitVec.ofNat 32 (64 + s.get SM_XIP.DATA_LANES * 2 ^ 10 + 2 ^ 12 + 2 ^ 13 + s.get SM_XIP.SEL * 2 ^ 14)
  buf := []
  o := 0

/-- XIP_FILL_START (R216, R347): the first miss takes the bus. -/
def xipFillStartS (s : State) : State :=
  match s.xip.misses with
  | (line, _) :: rest =>
    if s.fillReady && !s.cdDown then
      let s := s.bump XIP_CACHE.FILLS
      let s : State := { lowerSel (s.get SM_XIP.SEL) s with xip := { s.xip with misses := rest, filling := some line, drop := false } }
      ({ s with sm := { s.sm with fillAt := s.clock } }).emit (.smFill (s.fillFrame line) (s.waveOf (s.fillFrame line)))
    else s
  | [] => s

/-- The engines that wait on a line, with the offset and whether it is for a load. -/
def State.xipWaiters (s : State) (line : Nat) : List (Nat × Nat × Bool) :=
  s.engines.filterMap fun e => match e.2.wait with
    | some (.xip off load) => if off / 64 * 64 = line then some (e.1, off, load) else none
    | _ => none

/-- A fill delivers its line to the engines that wait for it. -/
def xipDeliver (line : Nat) (bs : List Byte) (s : State) : State :=
  forList (s.xipWaiters line) (fun w s =>
    let x := s.eng w.1
    s.setEng w.1 { x with wait := none, lines := (w.2, bs) :: x.lines }) s

/-- Engines whose line was discarded miss again. -/
def xipRemiss (line : Nat) (s : State) : State :=
  if (s.xipWaiters line).isEmpty || s.xip.misses.any (fun m => m.1 == line) then s
  else { s with xip := { s.xip with misses := s.xip.misses ++ [(line, s.clock)] } }

/-- XIP_FILL_DONE (R216): the line enters the cache, or is discarded after an invalidation and missed again. -/
def xipFillDoneS (bytes : List Byte) (s : State) : State :=
  match s.xip.filling with
  | some line =>
    if s.cdDown || s.clock < s.sm.fillAt + s.frameTicks (s.fillFrame line) then s
    else
      let bs := (List.range 64).map fun i => bytes.getD i 0
      let dropped := s.xip.drop
      let edge := s.sm.fillAt + s.lastEdge (s.fillFrame line)
      let s := heldEnd true edge (raiseSel { s with xip := { s.xip with filling := none, drop := false } })
      if dropped then xipRemiss line s
      else
        let keep := s.isSet XIP_CACHE.EN
        let s : State := { s with xip := { s.xip with
          lines := if keep then ((line, bs) :: s.xip.lines.filter fun l => l.1 != line).take 256 else [] } }
        xipDeliver line bs s
  | none => s

/-- A frame that runs since clock `t` stops at its next byte; its select rises after `HOLD` (R350). The result is the clock of the stop. -/
def smStop (f : SmFrame) (t : Nat) (s : State) : Nat × State :=
  (s.byteStop f t, raiseLater (s.byteStop f t + 16 * s.get SM_TIME.HOLD) s)

/-- A failed fill of `line` (R348): every engine that waits on it faults, as `fault` has it. -/
def failLine (fault : Nat → Nat → State → State) (line : Nat) (s : State) : State :=
  let ws := s.xipWaiters line
  let s := ((s.put SM_STAT.FILL_FAIL 1).bump SM_CNT.FILL_FAILS).put XIP_CACHE.ERR_SEEN 1
  forList ws (fun w s =>
    fault w.1 (if w.2.2 then fDMEM else fIFETCH) (s.setEng w.1 { s.eng w.1 with wait := none })) (s.raise 373)

/-- Every fill that waits or runs fails (R348). One that runs stops at its next byte, and its select rises after `HOLD` (R346;
DESIGN CHOICE, log entry 138). -/
def failFills (fault : Nat → Nat → State → State) (s : State) : State :=
  let lines := s.xip.filling.toList ++ s.xip.misses.map (·.1)
  let s := s.xip.filling.elim s fun line =>
    let (edge, t) := smStop (s.fillFrame line) s.sm.fillAt s
    heldEnd true edge { t with xip := { t.xip with filling := none } }
  forList lines (failLine fault) { s with xip := { s.xip with misses := [], drop := false } }

/-- Fills that wait or run fail once the port is no longer set up for them (R348). -/
def fillsFollow (s : State) : State :=
  if s.xipSet || (s.xip.filling.isNone && s.xip.misses.isEmpty) then s else failFills handlerFault s

/-- A frame whose last MSCK edge came at clock `edge` is over: `BUSY` clears, held writes reach the pins, and the `SM_CFG` written
meanwhile applies (R350), with what it means for fills (R348). -/
def smOver (edge : Nat) (s : State) : State :=
  fillsFollow (heldEnd false edge (takeSmCfg ({ s with sm := { s.sm with frame := none } }.put SM_STAT.BUSY 0)))

/-- SMDONE (R344): the frame ends, with the bytes received if it reads. -/
def smDoneS (rx : List Byte) (s : State) : State :=
  match s.sm.frame with
  | some f =>
    match f.running with
    | some t =>
      if t + s.frameTicks f ≤ s.clock && !s.cdDown then
        let s := s.when f.read (forBelow ((f.len + 3) / 4) fun i s =>
          s.setReg (RegId.SM_BUF.at i) (bufWord (s.reg (RegId.SM_BUF.at i)) rx f.len i))
        ((((smOver (t + s.lastEdge f) (raiseSel s)).put SM_STAT.DONE 1).bump SM_CNT.FRAMES)).raise 372
      else s
    | none => s
  | none => s

/-- XIP_FILL_FAIL (R348): the first fill has waited `TMO_US` without starting, or the port is no longer set up for fills. -/
def xipFillFailS (s : State) : State :=
  if s.cdDown then s
  else if !s.xipSet then failFills handlerFault s
  else
    match s.xip.misses with
    | (line, t) :: rest =>
      if t + usTk * s.get SM_XIP_TMO.TMO_US ≤ s.clock then failLine handlerFault line { s with xip := { s.xip with misses := rest } }
      else s
    | [] => s

/-- A write to `XIP_CACHE` (R216): `INV` empties the cache; with `EN` = 0 no line is kept. -/
def hookXipCache (new : Word) (s : State) : Word × State :=
  let inv := fieldOf new 1 1 == 1
  let s : State := if inv then { s with xip := { s.xip with lines := [], drop := s.xip.filling.isSome } } else s
  let s : State := if fieldOf new 0 1 = 0 then { s with xip := { s.xip with lines := [] } } else s
  (withField new 1 1 0, s)

/-! ## Register writes -/

/-- A write to `SM_CFG` (R342): a `DIV` of 0 is stored as 1. -/
def hookSmCfg (new : Word) (s : State) : Word × State :=
  if fieldOf new 2 8 = 0 then (withField new 2 8 1, s.put SM_STAT.CLAMP 1) else (new, s)

/-- After a write to `SM_CFG` or `SM_XIP`: a configuration written while a frame is in progress waits (R350); fills fail when
the port is no longer set up (R348). -/
def smCfgWritten (s : State) : State :=
  fillsFollow (if s.isSet SM_STAT.BUSY then s else takeSmCfg s)

/-- A write to `SM_TIME` (R346): zero fields are stored as 1. -/
def hookSmTime (new : Word) (s : State) : Word × State :=
  let one := fun (lo w : Nat) (v : Word) => if fieldOf v lo w = 0 then withField v lo w 1 else v
  let v := one 16 10 (one 8 8 (one 0 8 new))
  (v, s.when (v != new) (·.put SM_STAT.CLAMP 1))

/-- The fault that a warm reset raises in an engine that waits on a fill (R348, R216): it is reported; its item returns with its count of
faults unchanged, as at any warm reset (R208; DESIGN CHOICE, log entry 138). -/
def warmFault (e code : Nat) (s : State) : State :=
  match (s.eng e).held with
  | some (q, _) => faultSeen e q code s
  | none => s

/-- A warm reset at the master port (R350, R348): fills fail, and the frame stops without `DONE`. -/
def smWarm (s : State) : State :=
  let s := failFills warmFault s
  let s := match s.sm.frame with
    | some f =>
      let (edge, s) := f.running.elim (s.clock, s) fun t => smStop f t s
      smOver edge s
    | none => s
  { s with xip := {} }

/-- The writes held for a frame or fill that has come to its last edge, while its select stays low for `HOLD`, wait for it no more
(R345). -/
def heldTick (s : State) : State :=
  let passed := fun (fill : Bool) (edge : Nat) (s : State) => if edge ≤ s.clock then heldOver fill edge s else s
  let s := match s.sm.frame with
    | some f => f.running.elim s fun t => passed false (t + s.lastEdge f) s
    | none => s
  s.xip.filling.elim s fun line => passed true (s.sm.fillAt + s.lastEdge (s.fillFrame line)) s

/-- A tick at the master port: a select rises that a frame stopped early has left to rise, and held writes reach the pins (R345, R350). -/
def smTick (s : State) : State :=
  let s := match s.sm.rising with
    | some (n, t) =>
      if t ≤ s.clock then showPins { s with sm := { s.sm with rising := none, selUp := SMap.set (fun _ => 0) s.sm.selUp n t } } else s
    | none => s
  releasePins (heldTick s)

/-! ## The configuration of the slave port -/

/-- `SSP_CFG.STREAM_EN` as it stood `ticks` ago (R350). -/
def State.streamEnAt (s : State) (ticks : Nat) : Bool :=
  s.isSet SSP_CFG.STREAM_EN != ((s.ssp.toggles.filter fun t => decide (s.clock < t + ticks)).length % 2 == 1)

/-- After a write to `SSP_CFG`: a change of `STREAM_EN` is noted. -/
def sspCfgWritten (old : Word) (s : State) : State :=
  s.when (old.getLsbD 0 != s.isSet SSP_CFG.STREAM_EN) fun s => { s with ssp := { s.ssp with toggles := s.clock :: s.ssp.toggles } }

end Sys2Proof.Machine
end

