-- ==== Sys2Proof/Machine/Ryrel.lean ====
section
/-! DEFINITION. Ryrel (R273 to R298): links and their states, joining and refusal, heartbeats and departure, time transfer and the
epoch load. -/

namespace Sys2Proof.Machine

/-! ## The capability word -/

/-- The capability word of R375. -/
def State.slCap (s : State) : Nat :=
  let bit := fun (b : Bool) (i : Nat) => if b then 2 ^ i else 0
  let full := s.fullService
  s.get SL_STAT.LEVEL + bit s.queueService 2 + bit full 3 + bit full 4 + bit full 5 + bit (s.isSet SOR_STAT.ALL_CONV) 6 +
    bit (s.isSet TB_STAT.EPOCH_SET) 7 + s.get REF_STAT.STATE * 2 ^ 8 + bit s.isAdmitted 10 +
    bit ((List.range 16).all fun g => !s.isSet LG_CFG.SK_EN g || s.isSet LG_STAT.CONVERGED g) 11 +
    (255 - s.get CHIP_STAT.LOST) * 2 ^ 12 + bit (decide (s.get MEM_BANK_STAT.LOST ≠ 0)) 20 + bit s.accOff 21 +
    bit (!s.nvmLost) 22 + bit (s.get EDITION_SEL.ED == 1) 23

/-! ## Payloads -/

/-- A little-endian field of a payload. -/
def pfld (p : List Byte) (off n : Nat) : Nat := leNat ((p.drop off).take n)

/-- Append zeros up to a length. -/
def zeroTo (n : Nat) (p : List Byte) : List Byte := p ++ List.replicate (n - p.length) 0

/-- The fields of a HELLO (R278). -/
def hSerial (p : List Byte) : Nat := pfld p 0 8
def hEditions (p : List Byte) : Nat := pfld p 8 1
def hSelected (p : List Byte) : Nat := pfld p 9 1
def hRole (p : List Byte) : Nat := pfld p 10 1 % 4
def hLevel (p : List Byte) : Nat := pfld p 10 1 / 4 % 4
def hCold (p : List Byte) : Bool := (pfld p 10 1).testBit 4
def hTakeover (p : List Byte) : Bool := (pfld p 10 1).testBit 6
def hAdmitted (p : List Byte) : Bool := (pfld p 10 1).testBit 7

/-- The fields of a HELLO with COLD = 0. -/
def warmHello (p : List Byte) : List Byte := p.set 10 (p.getD 10 0 &&& 0xEF)

/-- This part's serial number. -/
def ownSerial : Nat := Config.serialNumber.toNat

/-- The HELLO fields that this part sends on link `l` (R278, R280). -/
def State.helloBytes (s : State) (l : Nat) : List Byte :=
  let bit := fun (b : Bool) (i : Nat) => if b then 2 ^ i else 0
  let b := s.role l + s.get RY_GSTAT.LEVEL * 4 + bit (s.isSet RY_GSTAT.COLD) 4 + bit (s.role l == 3) 5 +
    bit (s.lnk l).takeover 6 + bit s.isAdmitted 7
  leBytes 8 ownSerial ++ leBytes 1 1 ++ leBytes 1 (s.get EDITION_SEL.ED) ++ leBytes 2 b ++
    leBytes 4 (s.get RY_WORKERS.HEG) ++ leBytes 4 s.slCap ++ leBytes 4 0

/-- The payload of JOIN, ADMIT, REFUSE, LEAVE and READY. -/
def joinPayload (hello : List Byte) (l : Nat) : List Byte := zeroTo 32 (zeroTo 24 hello ++ leBytes 8 l)
def admitPayload (serial w level heg : Nat) (final : Bool) : List Byte :=
  leBytes 8 serial ++ leBytes 1 w ++ leBytes 1 level ++ leBytes 2 (if final then 1 else 0) ++ leBytes 4 heg
def refusePayload (serial reason : Nat) : List Byte := leBytes 8 serial ++ leBytes 8 reason
def leavePayload (w reason : Nat) : List Byte := leBytes 1 w ++ leBytes 7 reason

/-! ## Refusal, departure -/

/-- Whether a refusal ends by itself after 1 s (R281). -/
def timedRefusal (reason : Nat) : Bool := [4, 5, 7, 8].contains reason

/-- A refusal on this end of link `l` (R281). A cable-delay run ends with the up state (R259). -/
def refuseLink (l reason : Nat) (s : State) : State :=
  let s := cdlyLinkLost l s
  let s0 := s
  let x := s.lnk l
  let s := s.setLnk l { x with
    refuseUntil := if timedRefusal reason then some (s.clock + sTk) else none, refuseHello := x.hello, refuseOwn := s.helloBytes l
    joinBy := none
    loaded := false, readySent := false, takeover := false }
  let s := setLinkState l lsRefused ((s.put RY_STAT.REFUSED 1 l).put RY_STAT.LAST_REFUSE reason l)
  (s.raise 360).logEvent s0 (RegId.RY_STAT.at l) reason

/-- Send REFUSE to the candidate on link `l` and take the refusal here too. -/
def sendRefusal (l serial reason : Nat) (s : State) : State :=
  refuseLink l reason (sendFrame l fREFUSE 0xFE (refusePayload serial reason) s)

/-- `NADM` and `NPARK` follow the worker entries. -/
def refreshWorkers (s : State) : State :=
  let n := fun (st : Nat) => ((List.range 255).filter fun w => s.get WT_STAT.STATE (w + 1) == st).length
  (s.put RY_WORKERS.NADM (n 3)).put RY_WORKERS.NPARK (n 4)

/-- A pending resend of entry `f` is over (R291). -/
def endResend (f : Nat) (s : State) : State := (s.put FWD_STAT.RESEND 0 f).setFwdSt f { s.fwdSt f with resend := none }

/-- A replay stops (R295, R299), and with it the resends that the worker's entries wait for: the next replay sends their records. -/
def stopReplay (w : Nat) (s : State) : State :=
  let s := forList ((s.ry.fwd.filter fun e => e.2.resend.isSome && s.get FWD_DST.WID e.1 == w).map (·.1)) endResend s
  (s.setWt w { s.wt w with replay := [] }).put WT_STAT.REPLAYING 0 w

/-- Park one worker entry (R283): a pending candidate is forgotten. A remote access to it ends with GONE. -/
def parkWorker (w : Nat) (s : State) : State :=
  let st := s.get WT_STAT.STATE w
  let s := if st = 2 || st = 3 then s.put WT_STAT.STATE 4 w else if st = 1 then s.put WT_STAT.STATE 0 w else s
  let s := stopReplay w s
  if s.ry.racc.isSome && s.get RY_RACC_CTRL.WID = w then
    { ((s.put RY_RACC_CTRL.STATUS 4).put RY_RACC_CTRL.GO 0) with ry := { s.ry with racc := none } }
  else s

/-- The workers whose path to the top goes through worker `w`. -/
def State.below (s : State) (w : Nat) : List Nat :=
  (List.range 255).map (· + 1) |>.filter fun v =>
    let a := (s.wt v).parent
    let b := (s.wt a).parent
    s.get WT_STAT.STATE v ≠ 0 && v ≠ w && (a == w || (a ≠ 0 && b == w) || (a ≠ 0 && b ≠ 0 && (s.wt b).parent == w))

/-- Park a worker and those below it, and report RYGONE (R283). -/
def parkTree (w : Nat) (s : State) : State :=
  refreshWorkers ((forList (w :: s.below w) parkWorker s).raise 359)

/-- R284: an orphaned worker with a standby link sends JOIN with TAKEOVER on it, which takes the upstream role. The old upstream link
becomes the standby when it next trains. -/
def takeOver (s : State) : State :=
  match (List.range 16).find? fun l => s.role l == 3 && s.linkState l == lsStandby with
  | none => s
  | some l =>
    let s := forBelow 16 (fun k s => s.when (s.role k == 2) fun s => s.setLnk k { s.lnk k with demoted := true }) s
    let s := s.put RY_CFG.ROLE 2 l
    let s := cdlyLinkLost l (s.setLnk l { s.lnk l with takeover := true, hbFrom := s.clock, misses := 0 })
    sendFrame l fJOIN 0 (joinPayload (s.helloBytes l) 0) (setLinkState l lsPending s)

/-- RYORPHAN (R283): an admitted worker has lost its upstream. -/
def orphan (l : Nat) (s : State) : State :=
  if s.isAdmitted then
    let s := ((s.put RY_GSTAT.ADMITTED 0).put RY_GSTAT.ORPHAN_SEEN 1).raise 361
    let s := s.put RY_TT.TT_ST 4 l
    takeOver { s with tb := { s.tb with slewReq := none }, ry := { s.ry with want := none, msg := none } }
  else s

/-- The workers whose own path stands on link `l` of this top manager, without those below them (R283, R284). -/
def State.directOn (s : State) (l : Nat) : List Nat :=
  (List.range 255).map (· + 1) |>.filter fun w =>
    s.get WT_STAT.STATE w ≠ 0 && s.get WT_STAT.STATE w ≠ 4 && s.get WT_STAT.LINK w == l && (s.wt w).parent == 0

/-- What a top manager does for a worker entry whose path is gone (R283): a candidate that waits for approval is forgotten, any other
is parked with those below it. -/
def entryGone (w : Nat) (s : State) : State :=
  if s.get WT_STAT.STATE w = 1 then refreshWorkers (parkWorker w s) else parkTree w s

/-- The peer of link `l` is gone (R282, R283): the link goes to state `st`. `keep` tells that time transfer goes on (R299). -/
def peerGone (l st : Nat) (keep : Bool) (s : State) : State :=
  let old := s.linkState l
  if old < lsPending || old = lsRefused then setLinkState l st s
  else
    let peer := s.get RY_STAT.PEER_WID l
    let s := s.when (old == lsUp || old == lsStandby) (·.put RY_STAT.DOWN_SEEN 1 l)
    let s := setLinkState l st s
    let s := s.setLnk l { s.lnk l with
      joinBy := none, loaded := false, readySent := false, takeover := false, keepTt := keep && decide (lsCdly ≤ old) }
    let s := s.when (decide (lsCdly ≤ old)) (cdlyLinkLost l)
    let s := s.when (!keep) (·.put RY_TT.TT_ST 0 l)
    if s.role l = 1 then
      if s.isTop then forList (s.directOn l) entryGone s
      else s.when (decide (old ≤ lsUp) && decide (peer ≠ 0)) (sendTop fLEAVE (leavePayload peer 2))
    else if s.role l = 2 then orphan l s
    else s

/-- A link loses block lock (R273, R279): it goes to DOWN and then retrains. -/
def linkDown (l : Nat) (s : State) : State :=
  if s.linkState l = lsOff || s.linkState l = lsDown then s
  else
    let s := peerGone l lsDown false (s.bump RY_CNT2.DOWNS l)
    s.setLnk l { s.lnk l with unacked := [], keepTt := false }

/-- RYREL_BLOCK_LOCK_LOSS (R273). -/
def ryrelBlockLockLossS (l : Nat) (s : State) : State := if lsTrain ≤ s.linkState l then linkDown l s else s

/-- RYREL_TRAINED (R273, R279): CDR and block lock are gained; numbering starts again. A former upstream link is now the standby
(R284); where another link has taken that role meanwhile, it turns off with `CFG_ERR`, as a write of it would (R274; log entry 118). -/
def ryrelTrainedS (l : Nat) (s : State) : State :=
  if (s.linkState l = lsTrain || s.linkState l = lsDown) && !s.chipLost (linkChip l) then
    let demoted := (s.lnk l).demoted && s.role l == 2
    if demoted && (List.range 16).any (fun k => k ≠ l && s.role k == 3) then
      setLinkState l lsOff (((s.setLnk l {}).put RY_CFG.ROLE 0 l).put RY_STAT.CFG_ERR 1 l)
    else
      let s := s.when demoted (·.put RY_CFG.ROLE 3 l)
      setLinkState l lsDiscover (s.setLnk l { helloDue := s.clock, heg := (s.lnk l).heg })
  else s

/-- R279: a link that has gone to DOWN retrains. -/
def retrain (s : State) : State :=
  forList ((List.range 16).filter fun l => s.linkState l == lsDown && s.role l != 0 && !s.chipLost (linkChip l))
    (fun l s => setLinkState l lsTrain s) s

/-! ## Roles (R274) -/

/-- `TOP` reads 1 while no link holds an upstream role; a top manager is at level 0 and has WID 0 (R275). -/
def refreshTop (s : State) : State :=
  if (List.range 16).any fun l => decide (2 ≤ s.role l) then s.put RY_GSTAT.TOP 0
  else ((s.put RY_GSTAT.TOP 1).put RY_GSTAT.LEVEL 0).put RY_GSTAT.WID 0

/-- A write to `RY_CFG` (R274): a second upstream or standby role is stored as off. -/
def hookRyCfg (l : Nat) (new : Word) (s : State) : Word × State :=
  let r := fieldOf new 0 2
  let taken := decide (2 ≤ r) && (List.range 16).any fun k => k ≠ l && s.role k == r
  if taken then (withField new 0 2 0, s.put RY_STAT.CFG_ERR 1 l) else (new, s)

/-- A worker whose upstream link is turned off leaves in order: LEAVE reason 0 (R285). -/
def leaveInOrder (l old : Nat) (s : State) : State :=
  s.when (decide (old = 2) && decide (lsPending ≤ s.linkState l) && decide (s.linkState l ≤ lsUp) && s.get RY_GSTAT.WID != 0)
    fun s => sendFrame l fLEAVE 0 (leavePayload (s.get RY_GSTAT.WID) 0) s

/-- After a write to `RY_CFG` (R274, R281, R285): the link takes its role, from `old`. -/
def ryCfgWritten (l old : Nat) (s : State) : State :=
  let r := s.role l
  let s := if r = 0 then leaveInOrder l old s else s
  let keepsRole := fun (s : State) => s.setLnk l { s.lnk l with demoted := false }
  let s := refreshTop (s.when ((s.lnk l).demoted && old != 0) keepsRole)
  if r = 0 then setLinkState l lsOff (s.when (old ≠ 0) fun s =>
    let t := keepsRole (peerGone l lsDown false (s.put RY_CFG.ROLE old l))
    refreshTop (t.put RY_CFG.ROLE 0 l))
  else if old = 0 then setLinkState l lsTrain s
  else if s.linkState l = lsRefused then setLinkState l lsDiscover s
  else if r = old || s.linkState l < lsDiscover then s
  else
    let t := keepsRole (peerGone l lsDiscover false (s.put RY_CFG.ROLE old l))
    refreshTop (t.put RY_CFG.ROLE r l)

/-! ## Reception (R277) -/

/-- A received frame that has block lock: a bad CRC or a broken order discards it, counts it and names the next `LSEQ`; a type
that R278 does not list discards and counts it; else `body` acts, on frames of the row's type. The chiplets number and acknowledge
frames also while the control die does not work; what a reliable one then carries is lost (DESIGN CHOICE, log entry 136). -/
def receive (l type : Nat) (f : RyFrame) (body : State → State) (s : State) : State :=
  if s.linkState l < lsDiscover || s.chipLost (linkChip l) then s
  else
    let x := s.lnk l
    let bad := fun (s : State) =>
      let s := s.bump RY_CNT.CRCERR l
      sendFrame l fLNAK 0xFF (leBytes 8 x.rxNext) s
    if !frameGood f then bad s
    else if !listedType f.type.toNat then s.bump RY_CNT.CRCERR l
    else if f.type.toNat ≠ type then s
    else if !reliableType type then body s
    else if f.lseq.toNat ≠ x.rxNext then bad s
    else (s.setLnk l { x with rxNext := (x.rxNext + 1) % 65536, rxSeen := true }).when (!s.cdDown) body

/-- LACK_SEND (R277). -/
def lackSendS (l : Nat) (s : State) : State :=
  if (s.lnk l).rxSeen && decide (lsDiscover ≤ s.linkState l) && !s.chipLost (linkChip l) then
    sendFrame l fLACK 0xFF (leBytes 8 (((s.lnk l).rxNext + 65535) % 65536)) s
  else s

/-- The unacknowledged frames after `LSEQ` `n`. -/
def afterSeq (n : Nat) (u : List TxFrame) : List TxFrame :=
  if u.any fun f => f.lseq == n then (u.dropWhile fun f => f.lseq != n).drop 1 else u

/-- LACK (R277): the frames up to the one named are acknowledged. -/
def rxLackS (l : Nat) (f : RyFrame) (s : State) : State :=
  receive l fLACK f (fun s =>
    s.setLnk l { s.lnk l with unacked := afterSeq (pfld f.payload 0 2) (s.lnk l).unacked }) s

/-- LNAK (R277): the frames from the one named on are resent. -/
def rxLnakS (l : Nat) (f : RyFrame) (s : State) : State :=
  receive l fLNAK f (fun s =>
    let u := afterSeq ((pfld f.payload 0 2 + 65535) % 65536) (s.lnk l).unacked
    let s := (s.setLnk l { s.lnk l with unacked := u }).bump RY_CNT.RETX l 0 u.length
    forList u (fun g s => s.emit (frameOut l g.type g.lseq g.dst g.src g.payload)) s) s

/-- RELIABLE_ACK_TIMEOUT (R277): 100 us without acknowledgement. -/
def reliableAckTimeoutS (l : Nat) (s : State) : State :=
  match (s.lnk l).unacked with
  | f :: _ => if f.at_ + 100 * usTk ≤ s.clock && !s.chipLost (linkChip l) then linkDown l s else s
  | [] => s

/-- R283: an orphaned worker, one that has been admitted, discards an EVENT bound upstream and counts it. -/
def dropEvent (s : State) : State :=
  if s.isSet RY_GSTAT.COLD then s
  else
    match (List.range 16).find? fun k => s.role k == 2 && !(s.lnk k).demoted with
    | some k => s.bump RY_CNT.RETX k
    | none => s

/-- Pass a routed frame on: up for WID 0, down for another worker (R277). -/
def relay (type : Nat) (f : RyFrame) (s : State) : State :=
  let d := f.dst.toNat
  if d = 0 then
    match s.upLink with
    | some k =>
      if type = fEVENT && !s.isAdmitted then dropEvent s else sendFrom k type d f.src.toNat f.payload s
    | none => if type = fEVENT then dropEvent s else s
  else
    match s.routeTo d with
    | some k => sendFrom k type d f.src.toNat f.payload s
    | none => s

/-- Whether a routed frame is for this part. -/
def State.forMe (s : State) (f : RyFrame) : Bool :=
  if s.isTop then f.dst == 0 else f.dst.toNat == s.get RY_GSTAT.WID && f.dst != 0

/-- A routed frame acts here or is passed on. -/
def routed (type : Nat) (f : RyFrame) (body : State → State) (s : State) : State :=
  if s.forMe f then body s else relay type f s

/-! ## Joining (R280, R281) -/

/-- The worker entry of a serial number, in any state but free. -/
def State.workerOf (s : State) (serial : Nat) : Option Nat :=
  (List.range 255).map (· + 1) |>.find? fun w => s.get WT_STAT.STATE w ≠ 0 && s.wideAt (aWT_ID w) == serial

/-- A link enters the epoch step (R280 step 4): the worker wants the epoch unless it returns with the same one (R287). -/
def enterTime (l : Nat) (s : State) : State :=
  let s := setLinkState l lsTime s
  let x := s.lnk l
  if s.role l = 2 then
    let same := x.returning && s.isSet TB_STAT.EPOCH_SET && s.get RY_WORKERS.HEG == x.heg
    let s := s.put RY_TT.TT_ST 1 l
    if same then s else { s with ry := { s.ry with want := some l, retryAt := s.clock } }
  else s.setLnk l { x with epochDue := true }

/-- R280 step 3: whether the worker of link `l` holds a valid cable delay. No frame tells it to the manager's end, where it is an open value
(log entry 96). -/
def workerDelayKnown (l : Nat) (s : State) : Bool × State :=
  if s.role l = 1 then
    let (v, s) := s.free 1
    (v == 1, s)
  else (s.isSet CDLY_STAT.VALID l, s)

/-- The end of link `l` toward an admitted candidate, or of a candidate's own link, moves on with ADMIT (R280 steps 2 and 5). -/
def linkAdmitted (l : Nat) (final : Bool) (s : State) : State :=
  if final then
    setLinkState l lsUp (s.setLnk l { s.lnk l with joinBy := none, takeover := false })
  else
    let s := s.setLnk l { s.lnk l with joinBy := some (s.clock + 2 * sTk), loaded := false, readySent := false, keepTt := false, tt := {} }
    let (known, s) := workerDelayKnown l s
    if known then enterTime l s
    else
      let s := setLinkState l lsCdly s
      if (s.cdly l).run.isNone then cdlyStart l false s else s

/-- Whether the candidate of worker entry `w` still stands in PENDING: its own link here, or the worker that relays it (R280). -/
def State.candWaits (s : State) (w : Nat) : Bool :=
  let l := s.get WT_STAT.LINK w
  if (s.wt w).parent = 0 then s.linkState l == lsPending && hSerial (s.lnk l).hello == s.wideAt (aWT_ID w)
  else s.get WT_STAT.STATE (s.wt w).parent == 3

/-- The top manager sends ADMIT for worker `w` (R280 steps 2 and 5). -/
def sendAdmit (w : Nat) (final : Bool) (s : State) : State :=
  let l := s.get WT_STAT.LINK w
  let lv := s.get WT_STAT.LEVEL w
  let s := sendFrame l fADMIT 0xFE (admitPayload (s.wideAt (aWT_ID w)) w lv (s.get RY_WORKERS.HEG) final) s
  if (s.wt w).parent = 0 then linkAdmitted l final ((s.put RY_STAT.PEER_WID w l).put RY_STAT.PEER_LEVEL lv l) else s

/-- Refuse a candidate that came on link `l`, of this part's own when `direct`. -/
def refuseCandidate (l serial reason : Nat) (direct : Bool) (s : State) : State :=
  if direct then sendRefusal l serial reason s else sendFrame l fREFUSE 0xFE (refusePayload serial reason) s

/-- The top manager handles the JOIN of a candidate below the part with WID `src` (0: itself), toward link `l` (R280 step 2). -/
def handleJoin (l src : Nat) (p : List Byte) (s : State) : State :=
  let serial := hSerial p
  let level := if src = 0 then 1 else s.get WT_STAT.LEVEL src + 1
  let place := fun (w st : Nat) (ret : Bool) (s : State) =>
    let s := (((s.put WT_STAT.STATE st w).put WT_STAT.LINK l w).put WT_STAT.LEVEL level w).put WT_STAT.COLD 0 w
    (s.setWide (aWT_ID w) serial).setWt w { parent := src, returning := ret, cold := hCold p }
  if 3 < level then refuseCandidate l serial 3 (src == 0) s
  else
    match s.workerOf serial with
    | some w =>
      let st := s.get WT_STAT.STATE w
      let elsewhere := s.get WT_STAT.LINK w ≠ l || (s.wt w).parent ≠ src
      if st = 3 && elsewhere && !hTakeover p then refuseCandidate l serial 5 (src == 0) s
      else if st = 1 then refreshWorkers (place w 1 false s)
      else
        let s := s.when (st = 3) (parkTree w)
        sendAdmit w false (refreshWorkers (place w 2 (decide (3 ≤ st) || (s.wt w).returning) s))
    | none =>
      match (List.range 255).map (· + 1) |>.find? fun w => s.get WT_STAT.STATE w == 0 with
      | none => refuseCandidate l serial 4 (src == 0) s
      | some w =>
        if s.isSet RY_GCFG.APPROVE then refreshWorkers (place w 1 false s)
        else sendAdmit w false (refreshWorkers (place w 2 false s))

/-- A relay notes that link `l` leads to a candidate, and no other link does (R280). -/
def noteCandidate (l serial : Nat) (s : State) : State :=
  forBelow 16 (fun k s =>
    let x := s.lnk k
    let others := x.cands.filter (· ≠ serial)
    s.setLnk k { x with cands := if k = l then serial :: others else others }) s

/-- The downstream end of link `l` sends JOIN for its peer, whose fields are `hello` (R280 step 2). The peer has no WID until ADMIT. -/
def joinFor (l : Nat) (hello : List Byte) (s : State) : State :=
  let s := setLinkState l lsPending (s.setLnk l { s.lnk l with hbFrom := s.clock, misses := 0, keepTt := false })
  let s := s.put RY_STAT.PEER_WID 0 l
  if s.isTop then handleJoin l 0 (joinPayload hello l) s
  else sendTop fJOIN (joinPayload hello l) (noteCandidate l (hSerial hello) s)

/-- R280 step 1: the reason for which a peer's HELLO, from source `src`, is refused. The top manager's source is WID 0 (R275, R276). -/
def State.helloRefused (s : State) (l src : Nat) (p : List Byte) : Option Nat :=
  let r := s.role l
  let pairs := (r == 1 && decide (2 ≤ hRole p)) || (decide (2 ≤ r) && hRole p == 1)
  if !pairs then some 1
  else if !(hEditions p).testBit (s.get EDITION_SEL.ED - 1) then some 2
  else if r = 1 then
    if s.isTop || (s.isAdmitted && decide (s.get RY_GSTAT.LEVEL ≤ 2)) then none else some 3
  else if src = 0 || (hAdmitted p && decide (hLevel p ≤ 2)) then none else some 3

/-- Whether link `l` is refused for a reason that ends when a field of either end's HELLO changes (R281). -/
def State.refusedByHello (s : State) (l : Nat) : Bool :=
  s.linkState l == lsRefused && [1, 2, 3].contains (s.get RY_STAT.LAST_REFUSE l)

/-- HELLO (R280): the peer's fields are kept; in DISCOVER they are checked, and the join goes on. -/
def rxHelloS (l : Nat) (f : RyFrame) (s : State) : State :=
  receive l fHELLO f (fun s =>
    if s.cdDown then s
    else
      let p := f.payload
      let s := (s.setWide (aRY_PEER_ID l) (hSerial p)).put RY_STAT.PEER_LEVEL (hLevel p) l
      let x := s.lnk l
      let changed := s.refusedByHello l && x.refuseHello != p
      let s := s.setLnk l { x with hello := p }
      let s := if changed then setLinkState l lsDiscover s else s
      if s.linkState l ≠ lsDiscover || s.get EDITION_SEL.ED = 0 || hSelected p = 0 || (s.lnk l).demoted then s
      else
        match s.helloRefused l f.src.toNat p with
        | some r => sendRefusal l (if s.role l = 1 then hSerial p else ownSerial) r s
        | none =>
          if s.role l = 3 || hRole p = 3 then
            setLinkState l lsStandby (s.setLnk l { s.lnk l with hbFrom := s.clock, misses := 0 })
          else if s.role l = 2 then
            setLinkState l lsPending (s.setLnk l { s.lnk l with hbFrom := s.clock, misses := 0, keepTt := false })
          else joinFor l p s) s

/-- HELLO_SEND (R279, R281): in DISCOVER, and in a refusal that a changed HELLO field ends; a change of this end's own fields ends
it here. -/
def helloSendS (l : Nat) (s : State) : State :=
  let x := s.lnk l
  if (s.linkState l = lsDiscover || s.refusedByHello l) && decide (x.helloDue ≤ s.clock) && !s.cdDown then
    let s := if s.refusedByHello l && x.refuseOwn != s.helloBytes l then setLinkState l lsDiscover s else s
    sendFrame l fHELLO 0xFF (s.helloBytes l) (s.setLnk l { x with helloDue := s.clock + 100 * usTk })
  else s

/-- JOIN (R280, R284): handled at the top manager, passed on by a relay; a takeover on a standby link is this part's own candidate. -/
def rxJoinS (l : Nat) (f : RyFrame) (s : State) : State :=
  receive l fJOIN f (fun s =>
    let p := f.payload
    if s.linkState l = lsStandby && s.role l = 1 && hTakeover p then
      if s.isTop || s.isAdmitted then joinFor l (p.take 24) s else s
    else if s.isTop then handleJoin l f.src.toNat p s
    else relay fJOIN f (noteCandidate l (hSerial p) s)) s

/-- The downstream link that leads to a candidate (R280). -/
def State.candLink (s : State) (serial : Nat) : Option Nat := (List.range 16).find? fun l => (s.lnk l).cands.contains serial

/-- What an admitted worker does (R280 step 5, R283, R292): RYJOIN, the reports again, and JOIN again for its peers, which have
not been reset since. -/
def workerAdmitted (l : Nat) (s : State) : State :=
  let s := ((s.put RY_GSTAT.ADMITTED 1).put RY_GSTAT.COLD 0).raise 358
  let s := linkAdmitted l true s
  let s := forList s.ry.reports sendDone s
  forBelow 16 (fun k s => s.when (s.role k == 1 && s.linkState k == lsUp) (joinFor k (warmHello (s.lnk k).hello))) s

/-- A candidate of this top manager that did not get in: a new one's entry is free again, a returning one's is parked. -/
def dropCandidate (w : Nat) (s : State) : State :=
  if s.get WT_STAT.STATE w = 2 then refreshWorkers (s.put WT_STAT.STATE (if (s.wt w).returning then 4 else 0) w) else s

/-- The join of a candidate at the downstream end of its link, or below it, has ended: the top manager ends its entry, and a relay passes
the REFUSE up to it (R280, R281; log entry 119). -/
def joinOver (serial reason : Nat) (s : State) : State :=
  if s.isTop then (s.workerOf serial).elim s fun w => dropCandidate w s
  else s.upLink.elim s fun k => sendFrame k fREFUSE 0xFE (refusePayload serial reason) s

/-- A relay's own link `k` takes the ADMIT of its candidate; where the candidate is gone, the join is over (log entry 119). -/
def relayAdmit (k serial w lv : Nat) (final : Bool) (s : State) : State :=
  let waits := if final then decide (lsPending ≤ s.linkState k) && decide (s.linkState k ≤ lsUp) else s.linkState k == lsPending
  if waits then linkAdmitted k final ((s.put RY_STAT.PEER_WID w k).put RY_STAT.PEER_LEVEL lv k) else joinOver serial 8 s

/-- ADMIT (R280). -/
def rxAdmitS (l : Nat) (f : RyFrame) (s : State) : State :=
  receive l fADMIT f (fun s =>
    let p := f.payload
    let serial := pfld p 0 8
    let w := pfld p 8 1
    let final := (pfld p 10 1).testBit 0
    if s.isTop then s
    else if serial = ownSerial && s.role l = 2 then
      if s.linkState l < lsPending || s.linkState l = lsRefused then s
      else
        let s := (s.put RY_GSTAT.WID w).put RY_GSTAT.LEVEL (pfld p 9 1)
        let s := s.setLnk l { s.lnk l with heg := pfld p 12 2, returning := !s.isSet RY_GSTAT.COLD }
        if final then workerAdmitted l s else linkAdmitted l false s
    else
      match s.candLink serial with
      | some k =>
        let s : State := { s with ry := { s.ry with routes := SMap.set (fun _ => 0) s.ry.routes w (k + 1) } }
        let s := sendFrom k fADMIT 0xFE f.src.toNat p s
        if hSerial (s.lnk k).hello = serial then relayAdmit k serial w (pfld p 9 1) final s else s
      | none => s) s

/-- REFUSE (R281). -/
def rxRefuseS (l : Nat) (f : RyFrame) (s : State) : State :=
  receive l fREFUSE f (fun s =>
    let serial := pfld f.payload 0 8
    let reason := pfld f.payload 8 1
    if serial = ownSerial then refuseLink l reason s
    else if s.role l = 1 then
      let s := joinOver serial reason s
      s.when (decide (hSerial (s.lnk l).hello = serial)) (refuseLink l reason)
    else
      match s.candLink serial with
      | some k =>
        let s := sendFrom k fREFUSE 0xFE f.src.toNat f.payload s
        s.when (decide (hSerial (s.lnk k).hello = serial)) (refuseLink k reason)
      | none => s) s

/-- REFUSE_RETRY_TIMER (R281): 1 s after a refusal of these kinds the link returns to DISCOVER. -/
def refuseRetryTimerS (l : Nat) (s : State) : State :=
  match (s.lnk l).refuseUntil with
  | some t =>
    if s.linkState l = lsRefused && decide (t ≤ s.clock) && !s.cdDown then
      setLinkState l lsDiscover (s.setLnk l { s.lnk l with refuseUntil := none })
    else s
  | none => s

/-- A join in progress on link `l` ends with a refusal (R280). -/
def endJoin (l reason : Nat) (s : State) : State :=
  if s.role l = 1 then joinOver (hSerial (s.lnk l).hello) reason (sendRefusal l (hSerial (s.lnk l).hello) reason s)
  else sendRefusal l ownSerial reason s

/-- JOIN_TIMEOUT (R280): steps 3 to 5 have not ended within 2 s. -/
def joinTimeoutS (l : Nat) (s : State) : State :=
  match (s.lnk l).joinBy with
  | some t =>
    if decide (t ≤ s.clock) && decide (lsPending ≤ s.linkState l) && decide (s.linkState l ≤ lsTime) && !s.cdDown then
      endJoin l 8 s
    else s
  | none => s

/-- After the cable-delay machine of link `l` has ended in a join: failure ends the join, a delay moves it on (R280 step 3). -/
def cdlyEnded (l : Nat) (s : State) : State :=
  if s.linkState l ≠ lsCdly || (s.cdly l).run.isSome then s
  else if s.isSet CDLY_STAT.VALID l then enterTime l s
  else endJoin l 7 s

/-! ## Heartbeats (R282) -/

/-- Whether a link stands in PENDING or a later state of its join. -/
def State.hbOn (s : State) (l : Nat) : Bool := decide (lsPending ≤ s.linkState l) && decide (s.linkState l ≤ lsStandby)

/-- Whether this worker's time is locked on a link. -/
def State.timeLocked (s : State) (l : Nat) : Bool := s.get RY_TT.TT_ST l == 3

/-- The first word of an HB. -/
def State.hbWord (s : State) (l : Nat) : Nat :=
  let bit := fun (b : Bool) (i : Nat) => if b then 2 ^ i else 0
  s.get SL_STAT.LEVEL + bit (s.chip (linkChip l)).cdLost 2 + bit s.warm 3 + bit (!s.isTop && !s.isAdmitted && s.role l == 1) 4 +
    bit (s.timeLocked l && s.queueService) 5

/-- HB_SEND (R282, R379): from the chiplet, every 32,000 tk. -/
def hbSendS (l : Nat) (s : State) : State :=
  let x := s.lnk l
  if s.hbOn l && decide (x.hbDue ≤ s.clock) && !s.chipLost (linkChip l) then
    sendFrame l fHB 0xFF (leBytes 4 (s.hbWord l) ++ leBytes 4 s.slCap) (s.setLnk l { x with hbDue := s.clock + 32000 })
  else s

/-- HB (R282). -/
def rxHbS (l : Nat) (f : RyFrame) (s : State) : State :=
  receive l fHB f (fun s =>
    let s := s.setLnk l { s.lnk l with hbFrom := s.clock, misses := 0 }
    let s := s.when (f.src != 0xFF && s.hbOn l && decide (2 ≤ s.role l)) (·.put RY_STAT.PEER_WID f.src.toNat l)
    let w := pfld f.payload 0 1
    if s.cdDown then s
    else if (w.testBit 2 || w.testBit 3) && s.hbOn l then peerGone l lsDiscover true s else s) s

/-- HB_MISS (R282): at the third miss the peer is gone. -/
def hbMissS (l : Nat) (s : State) : State :=
  let x := s.lnk l
  if s.hbOn l && decide (x.hbFrom + 32000 ≤ s.clock) && !s.chipLost (linkChip l) then
    let s := (s.bump RY_CNT2.HBMISS l).put RY_STAT.HB_LATE 1 l
    let s := s.setLnk l { x with hbFrom := x.hbFrom + 32000, misses := x.misses + 1 }
    if 3 ≤ x.misses + 1 && !s.cdDown then peerGone l lsDiscover false s else s
  else s

/-- LEAVE (R283, R285). At a top manager a relay's report holds for a worker that stands below that relay on this link. -/
def rxLeaveS (l : Nat) (f : RyFrame) (s : State) : State :=
  receive l fLEAVE f (fun s =>
    let w := pfld f.payload 0 1
    let reason := pfld f.payload 1 1
    if s.role l = 1 then
      if s.get RY_STAT.PEER_WID l = w then peerGone l lsDiscover false s
      else if s.isTop then
        s.when (s.get WT_STAT.LINK w == l && (s.wt w).parent == f.src.toNat && s.get WT_STAT.STATE w ≠ 0) (parkTree w)
      else relay fLEAVE f s
    else if !s.isTop && w = s.get RY_GSTAT.WID then
      let s := peerGone l lsDiscover false s
      s.when (decide (reason = 1)) (refuseLink l 6)
    else
      let s := relay fLEAVE f s
      match s.routeTo w with
      | some k => s.when (decide (reason = 1) && s.role k == 1 && s.get RY_STAT.PEER_WID k == w) (refuseLink k 6)
      | none => s) s

/-- CDLOSS (R297, R379): the peer's control die is lost. -/
def rxCdlossS (l : Nat) (f : RyFrame) (s : State) : State :=
  receive l fCDLOSS f (fun s => if s.hbOn l then peerGone l lsDiscover true s else s) s

/-! ## Epoch over Ryrel (R287, R288) -/

/-- An EPOCH frame meets the arm (R287): the step and the remainder are computed from the departure and the arrival of its marker. -/
def applyEpochMsg (s : State) : State :=
  match s.ry.msg with
  | some (l, heg, t1, t2) =>
    if s.isSet EPOCH_STAT.ARMED && s.get EPOCH_CTRL_A.SRC == 1 && s.get EPOCH_CTRL_A.LINK == l && s.tb.take.isNone then
      let d : Int := (t1 : Int) + (s.cdly l).delay - t2
      let w := roundDiv d 65536
      { s with tb := { s.tb with take := some (.step s.clock w) }, ry := { s.ry with msg := none, load := some (l, heg, d - 65536 * w) } }
    else s
  | none => s

/-- The time-transfer machine tries to arm the load under the test of R59; a refused arm is tried again every 10 us. -/
def tryArm (l : Nat) (s : State) : State :=
  if (List.range 8).any (fun n => decide (s.get COMMIT_STAT.LEVEL n ≠ 0)) || s.relockOrFailover then
    { s with ry := { s.ry with want := some l, retryAt := s.clock + 10 * usTk } }
  else
    let old := s.reg RegId.EPOCH_CTRL_A.at
    let s := epochCtrlWrite (withField old 0 8 (1 + 4 + 8 * l)).toNat s
    let s := s.log (0x110 + l) kPAIRED RegId.EPOCH_CTRL_A.at old (s.reg RegId.EPOCH_CTRL_A.at)
    applyEpochMsg { s with ry := { s.ry with want := none } }

/-- EPOCH_ARM_RETRY (R287). -/
def epochArmRetryS (s : State) : State :=
  match s.ry.want with
  | some l => if decide (s.ry.retryAt ≤ s.clock) && !s.cdDown then tryArm l s else s
  | none => s

/-- EPOCH (R287, R288, R299): a new HEG makes a worker that is UP, or in step 4 of its join, load again; the latest frame is kept
for the arm, with the arrival of the marker that it names. -/
def rxEpochS (l : Nat) (f : RyFrame) (s : State) : State :=
  receive l fEPOCH f (fun s =>
    let heg := pfld f.payload 0 2
    match (s.lnk l).tt.arrs.find? fun a => a.1 == pfld f.payload 2 2 with
    | none => s
    | some (_, t2) =>
      let s : State := { s with ry := { s.ry with msg := some (l, heg, pfld f.payload 8 10, t2) } }
      let again := s.role l == 2 && (s.linkState l == lsUp || s.linkState l == lsTime) && heg ≠ s.get RY_WORKERS.HEG &&
        !s.isSet EPOCH_STAT.ARMED && s.ry.want.isNone
      if again then tryArm l (s.when (s.linkState l == lsTime) fun s => s.setLnk l { s.lnk l with readySent := false })
      else applyEpochMsg s) s

/-- Send EPOCH on link `l` once a marker of the present time base has arrived at the peer (R287, R288). -/
def sendEpoch (l : Nat) (s : State) : State :=
  let x := s.lnk l
  let up := s.linkState l == lsTime || s.linkState l == lsUp
  match x.tt.lastJ.bind fun j => x.tt.deps.find? fun d => d.1 == j with
  | some (m, dep) =>
    if x.epochDue && up && s.role l == 1 && !s.cdDown then
      sendFrame l fEPOCH 0xFF (zeroTo 24 (leBytes 2 (s.get RY_WORKERS.HEG) ++ leBytes 6 m ++ leBytes 10 dep))
        (s.setLnk l { x with epochDue := false })
    else s
  | none => s

/-- After the time base has stepped, stamps of the old count are of no use. -/
def clearStamps (s : State) : State :=
  forBelow 16 (fun l s =>
    let x := s.lnk l
    let k := x.tt.txK
    s.setLnk l { x with tt := { txK := k } }) { s with ry := { s.ry with msg := none } }

/-- R288: EPOCH is due on every downstream link that is UP or in its epoch step (R299). -/
def epochToAll (s : State) : State :=
  forBelow 16 (fun l s =>
    if s.role l == 1 && (s.linkState l == lsUp || s.linkState l == lsTime) then s.setLnk l { s.lnk l with epochDue := true } else s) s

/-- What follows an epoch load for Ryrel (R287, R288): HEG, the slew of the remainder, and EPOCH to the workers. Time lock is withdrawn
by the means alone (R286). -/
def afterEpochLoad (s : State) : State :=
  let s := clearStamps s
  match s.ry.load with
  | some (l, heg, r) =>
    let s := (s.put RY_WORKERS.HEG heg).put RY_TT.TT_ST (if s.timeLocked l then 3 else 2) l
    let s := s.setLnk l { s.lnk l with loaded := true }
    epochToAll { requestSlew r 100 s with ry := { s.ry with load := none } }
  | none => if s.isTop then epochToAll (s.bump RY_WORKERS.HEG) else s

/-! ## Time transfer (R286) -/

/-- Whether a link exchanges TT frames. -/
def State.ttOn (s : State) (l : Nat) : Bool := (s.linkTimed l || (s.lnk l).keepTt) && !s.chipLost (linkChip l)

/-- TT_SEND (R286): a TT frame departs at fraction `frac` of this tick. -/
def ttSendS (l frac : Nat) (s : State) : State :=
  let x := s.lnk l
  if s.ttOn l && decide (x.ttDue ≤ s.clock) then
    let dep := ts80 (s.count (linkChip l)) frac
    let k := x.tt.txK
    let (j, arr) := x.tt.arrs.headD (0, 0)
    let prev := (x.tt.deps.headD (0, 0)).2
    let p := zeroTo 32 (leBytes 2 k ++ leBytes 6 j ++ leBytes 10 prev ++ leBytes 10 arr)
    let wex := x.tt.wex.map fun e => if e.tx.isNone then { e with tx := some (k, dep) } else e
    sendFrame l fTT 0xFF p (s.setLnk l { x with
      ttDue := s.clock + 16384, tt := { x.tt with txK := (k + 1) % 65536, deps := ((k, dep) :: x.tt.deps).take 8, wex := wex } })
  else s

/-- One exchange is complete (R286): round trip and offset enter the servo period and the cable-delay run. -/
def exchange (l t1 t2 t3 t4 : Nat) (s : State) : State :=
  let d : Int := ((t4 : Int) - t1) - ((t3 : Int) - t2)
  let o : Int := ((t2 : Int) - t1) - (s.cdly l).delay
  let x := s.lnk l
  let s := s.setLnk l { x with tt := { x.tt with n := x.tt.n + 1, sumT := x.tt.sumT + o, sumD := x.tt.sumD + d } }
  if s.cdDown then s else cdlyEnded l (cdlySample l d s)

/-- TT at the worker's end: marker `k` arrives at `ta`; the frame tells the departure of marker k - 1 and the arrival of marker `j`. -/
def ttWorker (l k j dep arr ta : Nat) (s : State) : State :=
  let x := s.lnk l
  let ws := x.tt.wex.map fun e => if (e.k + 1) % 65536 = k && dep ≠ 0 then { e with t1 := some dep } else e
  let hit := ws.find? fun e => match e.tx with | some (n, _) => n == j && e.t1.isSome && arr ≠ 0 | none => false
  let rest := match hit with | some h => ws.filter fun e => e.k != h.k | none => ws
  let ws' := rest ++ [{ k := k, t2 := ta }]
  let s := s.setLnk l { x with tt := { x.tt with wex := ws'.drop (ws'.length - 4) } }
  match hit with
  | some h => exchange l (h.t1.getD 0) h.t2 ((h.tx.map (·.2)).getD 0) arr s
  | none => s

/-- TT at the manager's end. -/
def ttManager (l k j dep arr ta : Nat) (s : State) : State :=
  let x := s.lnk l
  let hit := x.tt.mex.find? fun e => (e.k + 1) % 65536 == k && dep ≠ 0
  let own := if x.tt.lastJ = some j || arr = 0 then none else x.tt.deps.find? fun d => d.1 == j
  let mex := (x.tt.mex.filter fun e => (e.k + 1) % 65536 != k) ++
    (match own with | some (_, t1) => [{ k := k, t1 := t1, t2 := arr, t4 := ta }] | none => [])
  let s := s.setLnk l { x with tt := { x.tt with mex := mex.drop (mex.length - 4), lastJ := some j } }
  let s := match hit with
    | some e => exchange l e.t1 e.t2 dep e.t4 s
    | none => s
  sendEpoch l s

/-- TT (R286): a TT frame whose marker arrives at fraction `frac` of this tick. -/
def rxTtS (l : Nat) (f : RyFrame) (frac : Nat) (s : State) : State :=
  receive l fTT f (fun s =>
    if s.ttOn l then
      let ta := ts80 (s.count (linkChip l)) frac
      let k := pfld f.payload 0 2
      let x := s.lnk l
      let s := s.setLnk l { x with tt := { x.tt with arrs := ((k, ta) :: x.tt.arrs).take 8 } }
      let go := if s.role l = 1 then ttManager else ttWorker
      go l k (pfld f.payload 2 2) (pfld f.payload 8 10) (pfld f.payload 18 10) ta s
    else s) s

/-- The rate of R286: the lowest whole one that completes the slew within 163.84 us, at most 100. -/
def servoRate (adj : Int) : Nat := clampRate ((adj.natAbs * 1000000000 + 65536 * 524288 - 1) / (65536 * 524288))

/-- READY (R280 step 5): sent once time is locked and the level is SL1 or above. -/
def sendReady (l : Nat) (s : State) : State :=
  let x := s.lnk l
  if s.linkState l = lsTime && s.timeLocked l && s.queueService && !x.readySent then
    sendFrame l fREADY 0 (zeroTo 16 (leBytes 8 ownSerial ++ leBytes 1 (s.get SL_STAT.LEVEL))) (s.setLnk l { x with readySent := true })
  else s

/-- R286: time lock is declared after 4 periods within 1 ps and withdrawn after 2 beyond 2 ps; 1 ps is 655,360 / 3,125 steps. -/
def judgeLock (l : Nat) (sum : Int) (n : Nat) (s : State) : State :=
  let x := s.lnk l
  let good := if sum.natAbs * 3125 ≤ n * 655360 then x.tt.good + 1 else 0
  let bad := if 2 * n * 655360 < sum.natAbs * 3125 then x.tt.bad + 1 else 0
  let s := s.setLnk l { x with tt := { x.tt with good := good, bad := bad } }
  if s.timeLocked l then
    if 2 ≤ bad then ((s.put RY_TT.TT_ST 2 l).put RY_TT.UNLOCK_SEEN 1 l).raise 362 else s
  else if 4 ≤ good then s.put RY_TT.TT_ST 3 l else s

/-- The worker's servo at the end of a period (R286, R287). -/
def servo (l : Nat) (sum : Int) (n : Nat) (s : State) : State :=
  let beyond := fun (tk : Nat) => decide (tk * 65536 * n < sum.natAbs)
  let s := judgeLock l sum n s
  if s.ry.want = some l || (s.isSet EPOCH_STAT.ARMED && s.get EPOCH_CTRL_A.SRC == 1) then s
  else if beyond 64 then tryArm l (s.put RY_TT.RANGE 1 l)
  else if !(s.lnk l).loaded && s.linkState l == lsTime && beyond 32 then tryArm l s
  else
    let s := s.setLnk l { s.lnk l with loaded := true }
    let s := s.when (s.get RY_TT.TT_ST l == 1) (·.put RY_TT.TT_ST 2 l)
    let adj := - roundDiv sum (2 * n)
    sendReady l (requestSlew adj (servoRate adj) s)

/-- SERVO_PERIOD_END (R286): after 64 exchanges. The upstream end sends EPOCH again while the worker's epoch step lasts, whose arm
no frame tells it (R287; log entry 97). -/
def servoPeriodEndS (l : Nat) (s : State) : State :=
  let x := s.lnk l
  let n := x.tt.n
  if n < 64 then s
  else
    let sum := x.tt.sumT
    let s := (s.setWide (aRY_OFS l) (twos 64 (roundDiv sum n))).setWide (aRY_RTT l) (twos 64 (roundDiv x.tt.sumD n))
    let s := s.setLnk l { x with tt := { x.tt with n := 0, sumT := 0, sumD := 0 } }
    if s.cdDown then s
    else if s.role l = 2 && (s.linkState l = lsTime || s.linkState l = lsUp) then servo l sum n s
    else if s.role l = 1 && (s.linkState l = lsTime || decide (64 * 65536 * n < sum.natAbs)) then
      s.setLnk l { s.lnk l with epochDue := true }
    else s

end Sys2Proof.Machine
end

