-- ==== Sys2Proof/Machine/Forward.lean ====
section
/-! DEFINITION. Forwarding, the mirror and replay, worker entries, events and remote register access over Ryrel (R290 to R298). -/

namespace Sys2Proof.Machine

/-! ## The mirror (R293) -/

/-- The 128 bytes of a mirror record. -/
def Mirror.bytes (m : Mirror) : List Byte :=
  zeroTo 128 (leBytes 8 (m.mseq % 2 ^ 48 + m.wid * 2 ^ 48 + m.st * 2 ^ 56 + (if m.unrep then 2 ^ 59 else 0)) ++
    leBytes 8 (m.entry + m.rq * 2 ^ 10 + m.sz * 2 ^ 25) ++ leBytes 8 m.wseq ++ leBytes 8 m.horizon ++ zeroTo 64 m.item)

/-- Whether the mirror area is lost (R418). -/
def State.mirrorLost (s : State) : Bool := s.bankLost 15

/-- The counts of records in use, of an entry and of a worker. -/
def refreshMirror (f w : Nat) (s : State) : State :=
  let n := fun (p : Mirror → Bool) => (s.ry.mirrors.filter fun e => (e.2.map p).getD false).length
  ((s.put RY_GSTAT.MIR_USED (n fun _ => true)).put FWD_STAT.MIR (n fun m => m.entry == f) f).put WT_STAT.RECORDS (n fun m => m.wid == w) w

/-- Store mirror record `i` whole, in the model and in memory. -/
def setMirror (i : Nat) (m : Mirror) (s : State) : State :=
  let s : State := { s with ry := { s.ry with mirrors := SMap.set (fun _ => none) s.ry.mirrors i (some m) } }
  refreshMirror m.entry m.wid (if s.mirrorLost then s else s.store (0x01E00000 + 128 * i) m.bytes)

/-- An access that meets an uncorrectable word of mirror record `i` marks the record unreplayable and reports its worker (R28,
R293, R299); `m` is the record as it is written back. -/
def updateMirror (i : Nat) (m : Mirror) (s : State) : State :=
  let a := 0x01E00000 + 128 * i
  if s.anyBad a 128 then setMirror i { m with unrep := true } ((sramMeets a 128 s).put WT_STAT.UNREP 1 m.wid)
  else setMirror i m (sramFix a 128 s)

/-- Record `i` has no turn left in the replay of worker `w`, which ends with its last (R295). -/
def leaveReplay (i w : Nat) (s : State) : State :=
  if (s.wt w).replay.contains i then
    let rest := (s.wt w).replay.filter (· ≠ i)
    (s.setWt w { s.wt w with replay := rest }).when rest.isEmpty (·.put WT_STAT.REPLAYING 0 w)
  else s

/-- Free mirror record `i`. -/
def freeMirror (i : Nat) (s : State) : State :=
  match s.mirror i with
  | none => s
  | some m =>
    let s := leaveReplay i m.wid s
    let s : State := { s with ry := { s.ry with mirrors := SMap.set (fun _ => none) s.ry.mirrors i none } }
    refreshMirror m.entry m.wid (if s.mirrorLost then s else s.store (0x01E00000 + 128 * i) (List.replicate 128 0))

/-- The records that satisfy `p`, with their indexes, in rising order of MSEQ. -/
def State.mirrorsWhere (s : State) (p : Mirror → Bool) : List (Nat × Mirror) :=
  (s.ry.mirrors.filterMap fun e => match e.2 with
    | some m => if p m then some (e.1, m) else none
    | none => none).mergeSort fun a b => a.2.mseq ≤ b.2.mseq

/-- The first free record. -/
def State.freeMirror? (s : State) : Option Nat := (List.range 16384).find? fun i => (s.mirror i).isNone

/-! ## Completion records (R294) -/

/-- The payload of the completion record of a forwarded item, before padding. -/
def remoteBody (fq mseq w1 w2 : Nat) : List Dword :=
  [BitVec.ofNat 64 (mseq % 2 ^ 48 + fq * 2 ^ 48), BitVec.ofNat 64 w1, BitVec.ofNat 64 w2]

/-- Put a completion record of entry `f` into its `CQ`: whether it is settled, accepted or dropped under R199. -/
def remoteRecord (f : Nat) (body : List Dword) (s : State) : Bool × State :=
  let cq := s.get FWD_CQ.CQ f
  if !s.isSet FWD_CQ.CQ_EN f || !s.cqUsable cq then (true, (s.bump QM_CNT.CQ_DROP).raise 353)
  else if s.cqFull cq then (false, s)
  else (true, acceptItem cq false true (body ++ List.replicate (s.qItemSize cq / 8 - 4) 0) s)

/-- A record ends by a status of its own (R294): its completion record is sent, and it is freed. A record whose DONE has come
completes by that DONE alone (R296). -/
def endMirror (i status : Nat) (s : State) : State :=
  match s.mirror i with
  | none => s
  | some m =>
    if m.st = 3 then if m.hold.isNone then freeMirror i s else updateMirror i { m with ended := true } s
    else
    let body := remoteBody (s.get FWD_CFG.FQ m.entry) m.mseq status s.mcount
    let (settled, s) := remoteRecord m.entry body s
    if settled then freeMirror i s else updateMirror i { m with st := 3, hold := some body, ended := true } s

/-- Acknowledge a DONE (R294). -/
def sendDoneAck (w rq mseq : Nat) (s : State) : State := sendWorker w fDONEACK (leBytes 8 rq ++ leBytes 8 mseq) s

/-- MIRROR_RETIRE (R294): a completion record that waited for room is sent, and a done record retires once the tick count passes
HORIZON + 64. -/
def mirrorRetireS (i : Nat) (s : State) : State :=
  match s.mirror i with
  | none => s
  | some m =>
    if s.cdDown || m.st ≠ 3 then s
    else
      match m.hold with
      | some body =>
        let (settled, s) := remoteRecord m.entry body s
        if !settled then s
        else
          let s := if m.ended then freeMirror i s else updateMirror i { m with hold := none, ackDue := false } s
          s.when m.ackDue (sendDoneAck m.wid m.rq m.mseq)
      | none => if m.horizon + 64 < s.mcount then freeMirror i s else s

/-! ## Submission to a worker (R290, R291, R295) -/

/-- Send SUBMIT for a record. -/
def sendSubmit (m : Mirror) (s : State) : State :=
  let w := m.rq + (if m.replay then 2 ^ 15 else 0) + (if m.force then 2 ^ 16 else 0)
  sendWorker m.wid fSUBMIT (leBytes 8 w ++ leBytes 8 m.mseq ++ m.item) s

/-- Send RESYNC for entry `f` with a floor. -/
def sendResync (f floor : Nat) (s : State) : State :=
  sendWorker (s.get FWD_DST.WID f) fRESYNC (leBytes 8 (s.get FWD_DST.RQ f) ++ leBytes 8 floor) s

/-- The floor of an entry (R290): its lowest unretired MSEQ, or the `QD_SEQ` of its `FQ`. -/
def State.entryFloor (s : State) (f : Nat) : Nat :=
  match s.mirrorsWhere fun m => m.entry == f with
  | (_, m) :: _ => m.mseq
  | [] => (s.queue (s.get FWD_CFG.FQ f)).nextSeq

/-- The enabled entries of worker `w`. -/
def State.entriesOf (s : State) (w : Nat) : List Nat :=
  (List.range 1024).filter fun f => s.isSet FWD_CFG.EN f && s.get FWD_DST.WID f == w

/-- FORWARDER_TAKE (R290): the head item of `FQ` is taken, mirrored and sent. -/
def forwarderTakeS (f : Nat) (s : State) : State :=
  let q := s.get FWD_CFG.FQ f
  let w := s.get FWD_DST.WID f
  if s.cdDown || !s.isTop || !s.isSet FWD_CFG.EN f || !s.isSet QD_CTRL.EN q || !s.isSet QD_CTRL.HOSTQ q ||
      s.get WT_STAT.STATE w ≠ 3 || s.isSet WT_STAT.COLD w || s.isSet WT_STAT.REPLAYING w || s.isSet FWD_STAT.RESEND f ||
      s.mirrorLost then s
  else
    match s.headItem q with
    | none => s
    | some i =>
      match s.freeMirror? with
      | none => if s.isSet RY_GSTAT.MIR_FULL then s else (s.put RY_GSTAT.MIR_FULL 1).raise 363
      | some k =>
        let m : Mirror := {
          mseq := i.seq, wid := w, st := 1, unrep := false, entry := f, rq := s.get FWD_DST.RQ f
          sz := s.get QD_CTRL.ITEM_SZ q, wseq := 0, horizon := 0, item := i.bytes }
        let s := editItem q i.seq (fun i => { i with st := .ended, hw := some (stHOSTTAKE, 0) }) (readEntries i s)
        let s := setMirror k m (itemCompleteS q i.seq s)
        let s := if (s.fwdSt f).fresh then sendResync f (s.entryFloor f) (s.setFwdSt f { s.fwdSt f with fresh := false }) else s
        sendSubmit m s

/-- SUBMIT at a worker (R291, R418): status, the worker's sequence, and the state. -/
def submitRemote (l q mseq : Nat) (force : Bool) (bs : List Byte) (s : State) : Nat × Nat × State :=
  if s.mirrorLost then (6, 0, s)
  else if !s.isManagerLink l then (3, 0, s)
  else if mseq ≤ s.mm q then (9, 0, s)
  else if s.mm q + 1 < mseq then (0xA, 0, s)
  else
    let bs := if force then bs.set 6 (bs.getD 6 0 &&& 0xFE) else bs
    let (st, n, s) := submitBytes q 1 bs s
    if st = 0 then (st, n, editItem q n (fun i => { i with mseq := some mseq }) (setMm q mseq s)) else (st, n, s)

/-- SUBMIT (R291). -/
def rxSubmitS (l : Nat) (f : RyFrame) (s : State) : State :=
  receive l fSUBMIT f (routed fSUBMIT f fun s =>
    let w := pfld f.payload 0 4
    let q := w % 2 ^ 15
    let mseq := pfld f.payload 8 6
    let (st, n, s) := submitRemote l q mseq (w.testBit 16) (f.payload.drop 16) s
    sendFrame l fSUBRES 0 (leBytes 2 q ++ leBytes 6 st ++ leBytes 8 mseq ++ leBytes 8 n) s) s

/-- A record that the worker has accepted (R291); a done one, which a cold replay sends again, stays done. -/
def Mirror.taken (m : Mirror) (wseq : Nat) : Mirror :=
  { m with st := if m.st = 3 then 3 else 2, wseq := wseq, replay := false, force := false }

/-- SUBRES (R291): of several refusals of an entry the lowest MSEQ is resent from. The records of a worker that is not admitted stay
as they are for its replay (R299). -/
def rxSubresS (l : Nat) (f : RyFrame) (s : State) : State :=
  receive l fSUBRES f (routed fSUBRES f fun s =>
    let q := pfld f.payload 0 2
    let st := pfld f.payload 2 1
    let mseq := pfld f.payload 8 6
    match s.mirrorsWhere fun m => m.wid == f.src.toNat && m.rq == q && m.mseq == mseq && (m.st < 3 || m.replay) with
    | (i, m) :: _ =>
      if s.get WT_STAT.STATE m.wid ≠ 3 then s
      else if st = 0 then updateMirror i (m.taken (pfld f.payload 16 6)) s
      else if st = 9 then updateMirror i (m.taken 0) s
      else if st = 2 || st = 0xA then
        (s.put FWD_STAT.RESEND 1 m.entry).setFwdSt m.entry { s.fwdSt m.entry with resend := some ((s.fwdSt m.entry).resend.elim
          (s.clock + usTk * s.get RY_GCFG.RETRY_US, mseq) fun r => (r.1, min r.2 mseq)) }
      else endMirror i (0xA0 + st) s
    | [] => s) s

/-- A read of mirror record `i`. -/
def mirrorMeets (i : Nat) (s : State) : State :=
  let a := 0x01E00000 + 128 * i
  match s.mirror i with
  | some m => if s.anyBad a 128 then updateMirror i m s else sramFix a 128 s
  | none => s

/-- One record at its turn in a replay (R295): sent again, or ended as unreplayable. -/
def replayRecord (i : Nat) (s : State) : State :=
  let s := mirrorMeets i s
  match s.mirror i with
  | some m => if m.unrep then endMirror i 0xA8 (s.raise 365) else sendSubmit m s
  | none => s

/-- FORWARD_RESEND (R291, R295): the entry's SUBMITs are resent from the MSEQ named, those of a replay as that replay sends them. A record
whose turn in the replay is still to come waits for it. -/
def forwardResendS (f : Nat) (s : State) : State :=
  match (s.fwdSt f).resend with
  | some (t, mseq) =>
    if t ≤ s.clock && !s.cdDown then
      let s := endResend f s
      let again := (s.mirrorsWhere fun m => m.entry == f && (m.st == 1 || m.replay) && decide (mseq ≤ m.mseq)).filter
        fun e => !(s.wt e.2.wid).replay.contains e.1 && s.get WT_STAT.STATE e.2.wid == 3
      forList again (fun e => replayRecord e.1) s
    else s
  | none => s

/-- DONE (R294). -/
def rxDoneS (l : Nat) (f : RyFrame) (s : State) : State :=
  receive l fDONE f (routed fDONE f fun s =>
    let q := pfld f.payload 0 2
    let mseq := pfld f.payload 8 6
    match s.mirrorsWhere fun m => m.wid == f.src.toNat && m.rq == q && m.mseq == mseq with
    | (i, m) :: _ =>
      if m.st = 3 then s.when (!m.ackDue) (sendDoneAck f.src.toNat q mseq)
      else
        let body := remoteBody (s.get FWD_CFG.FQ m.entry) mseq (pfld f.payload 16 8) (pfld f.payload 24 8)
        let (settled, s) := remoteRecord m.entry body s
        let s := updateMirror i {
          m with st := 3, horizon := pfld f.payload 32 8, hold := if settled then none else some body, ackDue := !settled } s
        s.when settled (sendDoneAck f.src.toNat q mseq)
    | [] => sendDoneAck f.src.toNat q mseq s) s

/-- DONEACK (R292): the report leaves the ring. -/
def rxDoneackS (l : Nat) (f : RyFrame) (s : State) : State :=
  receive l fDONEACK f (routed fDONEACK f fun s =>
    let q := pfld f.payload 0 2
    let mseq := pfld f.payload 8 6
    { s with ry := { s.ry with reports := s.ry.reports.filter fun r => !(r.q == q && r.mseq == mseq) } }) s

/-- RESYNC (R291): MM(q) becomes floor - 1. -/
def rxResyncS (l : Nat) (f : RyFrame) (s : State) : State :=
  receive l fRESYNC f (routed fRESYNC f fun s =>
    if s.isManagerLink l && !s.mirrorLost then setMm (pfld f.payload 0 2 % 2 ^ 15) (pfld f.payload 8 6 - 1) s else s) s

/-! ## Replay (R295) -/

/-- The entries that hold a mirror record of worker `w`. -/
def State.entriesHeld (s : State) (w : Nat) : List Nat :=
  (List.range 1024).filter fun f => !(s.mirrorsWhere fun m => m.entry == f && m.wid == w).isEmpty

/-- REPLAY_START (R295): the records to resend are lined up, entry by entry, in order of MSEQ; a cold replay resends every unretired record
under FORCE_ABORT. `REPLAYING` reads 1 until the last has had its turn. -/
def replay (w : Nat) (cold : Bool) (s : State) : State :=
  let s := forList (s.mirrorsWhere fun m => m.wid == w && m.replay)
    (fun e => updateMirror e.1 { e.2 with replay := false, force := false }) s
  let l := (s.entriesHeld w).flatMap fun f =>
    s.mirrorsWhere fun m => m.entry == f && m.wid == w && (cold || m.st == 1 || m.st == 2)
  let s := forList l (fun e s =>
    updateMirror e.1 { e.2 with replay := true, force := cold } s) s
  (s.setWt w { s.wt w with replay := l.map (·.1) }).put WT_STAT.REPLAYING (if l.isEmpty then 0 else 1) w

/-- The next record of worker `w`'s replay has its turn. The SUBMITs of an entry that waits for a resend are withheld (R291). -/
def replayStep (w : Nat) (s : State) : State :=
  match (s.wt w).replay.find? fun i => (s.mirror i).all fun m => !s.isSet FWD_STAT.RESEND m.entry with
  | none => s
  | some i =>
    let rest := (s.wt w).replay.filter (· ≠ i)
    let s := replayRecord i (s.setWt w { s.wt w with replay := rest })
    s.when rest.isEmpty (·.put WT_STAT.REPLAYING 0 w)

/-- One turn of every replay in progress, which a tick gives (log entry 98). -/
def replayTurns (s : State) : State :=
  if s.cdDown then s
  else forList ((s.ry.wts.filter fun e => !e.2.replay.isEmpty).map (·.1)) replayStep s

/-- RESYNC for every entry of a worker that is enabled or holds records of it (R290). -/
def resyncAll (w : Nat) (s : State) : State :=
  forList ((List.range 1024).filter fun f => (s.entriesOf w).contains f || (s.entriesHeld w).contains f)
    (fun f s => sendResync f (s.entryFloor f) (s.setFwdSt f { s.fwdSt f with fresh := false })) s

/-- READY (R280 step 5): the top manager admits the worker. -/
def rxReadyS (l : Nat) (f : RyFrame) (s : State) : State :=
  receive l fREADY f (routed fREADY f fun s =>
    match s.workerOf (pfld f.payload 0 8) with
    | some w =>
      if s.get WT_STAT.STATE w = 2 then
        let s := sendAdmit w true (refreshWorkers (s.put WT_STAT.STATE 3 w))
        let x := s.wt w
        if !x.returning then resyncAll w s
        else if x.cold then s.put WT_STAT.COLD 1 w
        else replay w false s
      else s
    | none => s) s

/-! ## Worker entries (R280, R281, R285, R295) -/

/-- A write to `WT_CTRL` (R280, R281, R295): its bits read 0. An approval acts while its candidate waits; a candidate whose link has
gone meanwhile keeps its entry until it joins again (R299; log entry 119). -/
def hookWtCtrl (w : Nat) (new : Word) (s : State) : Word × State :=
  let st := s.get WT_STAT.STATE w
  let l := s.get WT_STAT.LINK w
  let direct := (s.wt w).parent == 0
  let s :=
    if st = 1 && fieldOf new 0 1 = 1 then
      s.when (s.candWaits w) fun s => sendAdmit w false (refreshWorkers (s.put WT_STAT.STATE 2 w))
    else if st = 1 && fieldOf new 1 1 = 1 then
      refreshWorkers ((s.when (s.candWaits w) (refuseCandidate l (s.wideAt (aWT_ID w)) 6 direct)).put WT_STAT.STATE 0 w)
    else s
  let s := if fieldOf new 2 1 = 1 && s.get WT_STAT.STATE w = 3 && s.isSet WT_STAT.COLD w then
      replay w true (resyncAll w (s.put WT_STAT.COLD 0 w))
    else s
  (withField new 0 3 0, s)

/-- A completed pair on `WT_CTRL_A` of worker `w` (R285): the worker is removed, its number freed, its records end with 0xA9. -/
def wtEvict (w v : Nat) (s : State) : State :=
  let st := s.get WT_STAT.STATE w
  if v % 2 = 0 || w = 0 || st = 0 then s
  else
    let s := if st = 2 || st = 3 then sendWorker w fLEAVE (leavePayload w 1) s else s
    let l := s.get WT_STAT.LINK w
    let s := s.when ((s.wt w).parent == 0 && s.get RY_STAT.PEER_WID l == w && (st == 2 || st == 3)) (refuseLink l 6)
    let s := forList (s.mirrorsWhere fun m => m.wid == w && !m.ended) (fun e => endMirror e.1 0xA9) s
    let s := forList (s.below w) parkWorker s
    let s := stopReplay w ((s.put WT_STAT.STATE 0 w).put WT_STAT.COLD 0 w)
    refreshWorkers ((s.setWide (aWT_ID w) 0).setWt w {})

/-! ## Forwarding entries (R290) -/

/-- Whether an entry may be enabled with the words given. -/
def State.entryRefused (s : State) (f : Nat) (cfg dst : Word) : Bool :=
  let fq := fieldOf cfg 0 15
  let wid := fieldOf dst 0 8
  let rq := fieldOf dst 8 15
  wid == 0 || rq == 32767 || (List.range 1024).any fun g =>
    g ≠ f && s.isSet FWD_CFG.EN g && (s.get FWD_CFG.FQ g == fq || (s.get FWD_DST.WID g == wid && s.get FWD_DST.RQ g == rq))

/-- A write to word `k` of forwarding entry `f` (R290). -/
def hookFwd (f k : Nat) (old new : Word) (s : State) : Word × State :=
  let enabled := s.isSet FWD_CFG.EN f
  let refused :=
    if k = 0 then
      (enabled && fieldOf new 0 15 ≠ fieldOf old 0 15) ||
        (!enabled && fieldOf new 15 1 == 1 && s.entryRefused f new (s.reg (RegId.FWD_DST.at f)))
    else if k = 1 then enabled && fieldOf new 0 23 ≠ fieldOf old 0 23
    else enabled && fieldOf new 0 16 ≠ fieldOf old 0 16
  if refused then
    let s0 := s
    (old, (s.put FWD_STAT.ERR 1 f).logEvent s0 (RegId.FWD_STAT.at f) 16)
  else if k = 0 && !enabled && fieldOf new 15 1 = 1 then
    (new, s.setFwdSt f { s.fwdSt f with fresh := s.get WT_STAT.STATE (s.get FWD_DST.WID f) == 3 })
  else (new, s)

/-- After queue `q` has been enabled (R186, R290): the entry that forwards it sends RESYNC with floor `QD_SEQ`. -/
def queueEnabledRy (q : Nat) (s : State) : State :=
  forList ((List.range 1024).filter fun f => s.isTop && s.isSet FWD_CFG.EN f && s.get FWD_CFG.FQ f == q &&
      s.get WT_STAT.STATE (s.get FWD_DST.WID f) == 3)
    (fun f s => sendResync f (s.queue q).nextSeq s) s

/-! ## Events and remote access (R297, R298) -/

/-- EVENT_FORWARD (R297): at most one EVENT per source per 1 us; an orphaned worker discards it. -/
def eventForwardS (i : Nat) (s : State) : State :=
  if s.ry.evPend.contains i && decide (SMap.get (fun _ => 0) s.ry.evFrom i ≤ s.clock) && !s.cdDown then
    let s : State := { s with ry := { s.ry with
      evPend := s.ry.evPend.filter (· ≠ i), evFrom := SMap.set (fun _ => 0) s.ry.evFrom i (s.clock + usTk) } }
    if !s.isSet RY_GCFG.EVT_FWD then s
    else if s.isAdmitted then
      sendTop fEVENT (zeroTo 24 (leBytes 4 i ++ leBytes 4 (SMap.get (fun _ => 0) s.raises i) ++
        leBytes 10 (SMap.get (fun _ => 0) s.raiseTs i))) s
    else dropEvent s
  else s

/-- EVENT (R297): the top manager keeps the worker's latest. -/
def rxEventS (l : Nat) (f : RyFrame) (s : State) : State :=
  receive l fEVENT f (routed fEVENT f fun s =>
    let v := pfld f.payload 8 10 + pfld f.payload 0 2 % 512 * 2 ^ 80 + pfld f.payload 4 4 * 2 ^ 96
    (s.setWide (aWT_EVT f.src.toNat) v).raise 364) s

/-- A write to `RY_RACC_CTRL` (R298): `GO` sends RREQ to the worker; while it reads 1 another write of it is not taken. -/
def hookRacc (old new : Word) (s : State) : Word × State :=
  if fieldOf old 9 1 = 1 then (old, s)
  else if fieldOf new 9 1 = 0 then (withField new 10 4 (fieldOf old 10 4), s)
  else
    let w := fieldOf new 0 8
    let st := s.get WT_STAT.STATE w
    if !s.isTop || st < 3 then (withField (withField new 9 1 0) 10 4 1, s)
    else if st = 4 then (withField (withField new 9 1 0) 10 4 4, s)
    else
      let tag := s.ry.raccTag
      let s : State := { s with ry := { s.ry with racc := some (tag, s.clock), raccTag := (tag + 1) % 256 } }
      let p := leBytes 4 (s.get RY_RACC_ADDR.ADDR) ++ leBytes 4 (s.get RY_RACC_DATA.DATA) ++ leBytes 1 (fieldOf new 8 1) ++ leBytes 7 tag
      (withField new 10 4 0, sendWorker w fRREQ p s)

/-- A remote access is over. -/
def raccEnd (status : Nat) (s : State) : State :=
  { ((s.put RY_RACC_CTRL.GO 0).put RY_RACC_CTRL.STATUS status) with ry := { s.ry with racc := none } }

/-- RRSP (R298). -/
def rxRrspS (l : Nat) (f : RyFrame) (s : State) : State :=
  receive l fRRSP f (routed fRRSP f fun s =>
    match s.ry.racc with
    | some (tag, _) =>
      if tag ≠ pfld f.payload 5 1 then s
      else if pfld f.payload 4 1 ≠ 0 then raccEnd 2 s
      else raccEnd 0 (s.when (!s.isSet RY_RACC_CTRL.WRITE) (·.put RY_RACC_DATA.DATA (pfld f.payload 0 4)))
    | none => s) s

/-- RACC_TIMEOUT (R298): no answer within 100 us. -/
def raccTimeoutS (s : State) : State :=
  match s.ry.racc with
  | some (_, t) => if t + 100 * usTk ≤ s.clock && !s.cdDown then raccEnd 3 s else s
  | none => s

/-- A write to `RY_GCFG`: a `RETRY_US` of 0 is stored as 1. -/
def hookRyGcfg (new : Word) (s : State) : Word × State := (if fieldOf new 4 8 = 0 then withField new 4 8 1 else new, s)

/-- The loss of the mirror bank (R418): at a top manager every record ends with 0xA8; at a worker the reports are lost. -/
def mirrorBankLost (s : State) : State :=
  if s.isTop then forList (s.mirrorsWhere fun m => !m.ended) (fun e => endMirror e.1 0xA8) s
  else { s with ry := { s.ry with reports := [] } }

/-! ## Warm reset (R299) -/

/-- What a warm reset does to the joins at its start: workers are parked, candidates that wait for approval keep their entries,
and an admitted worker is so no longer. The links stay up meanwhile, with WRST in their HB. Time transfer goes on. -/
def ryWarm (s : State) : State :=
  let s := if s.isTop then
      refreshWorkers (forBelow 255 (fun w s => if s.get WT_STAT.STATE (w + 1) = 1 then s else parkWorker (w + 1) s) s)
    else s.put RY_GSTAT.ADMITTED 0
  let s := s.put RY_RACC_CTRL.GO 0
  { s with ry := { s.ry with want := none, msg := none, load := none, racc := none } }

/-- At the end of a warm reset the links of a join return to DISCOVER (R299). -/
def ryWarmEnd (s : State) : State :=
  forBelow 16 (fun l s =>
    if s.hbOn l then
      let x := s.lnk l
      let s := s.when (s.linkState l == lsUp || s.linkState l == lsStandby) (·.put RY_STAT.DOWN_SEEN 1 l)
      let keep := decide (lsCdly ≤ s.linkState l)
      setLinkState l lsDiscover (s.setLnk l { x with
        joinBy := none, loaded := false, readySent := false, takeover := false, keepTt := keep })
    else s) s

end Sys2Proof.Machine
end

