-- ==== Sys2Proof/Machine/Bringup.lean ====
section
/-! DEFINITION. Supervision and recovery (R22, R25, R29, R34 to R36, R363 to R384): keep-alives and losses, the periodic
measurements, core bring-up, boot commands, cold and warm resets, the host watchdog and the re-initialisations. -/

namespace Sys2Proof.Machine

/-! ## Keep-alives and chiplet loss (R35) -/

/-- Whether the events of chiplet `n` have no effect: it is declared lost and no re-initialisation runs on it. The spec makes no
promise about what it does then (R35). -/
def State.chipDead (s : State) (n : Nat) : Bool := s.chipLost n && s.get CHIP_STAT.REINIT_BUSY / 2 ^ n % 2 == 0

/-- KEEPALIVE (R35): every 1 us. Bit n of `answers` tells whether chiplet n answers. One whose answer is missing has not had the keep-alive
either (DESIGN CHOICE, log entry 99). -/
def keepaliveS (answers : Nat) (s : State) : State :=
  if s.cdDown || s.clock < s.timer tmKeepalive then s
  else
    let s := s.setTimer tmKeepalive (s.clock + usTk)
    forBelow 8 (fun n s =>
      if s.chipLost n then s
      else
        let x := s.chip n
        if answers.testBit n then
          (s.setChip n { x with missed := 0, lastKeep := s.clock }).put COMMIT_STAT.PATH_UP 1 n
        else (s.setChip n { x with missed := x.missed + 1 }).put COMMIT_STAT.PATH_UP 0 n) s

/-- The channels of chiplet `n` that hold anything. -/
def State.chansIn (s : State) (n : Nat) : List Nat := (s.chans.map (·.1)).filter fun k => chanChip k == n

/-- Items that wait for the END record of a measurement on chiplet `n` wait no more: TGTLOST, at the ARM's index (R178, R199). -/
def dropWaits (n : Nat) (s : State) : State :=
  forList (s.queues.map (·.1)) (fun q s =>
    let x := s.queue q
    s.setQueue q { x with items := x.items.map fun i =>
      let gone := i.recs.filter fun r => chanChip r.1 == n
      let j := gone.foldl (fun (i : Item) r => i.setHw stTGTLOST r.2) i
      { j with recs := i.recs.filter fun r => chanChip r.1 != n } }) s

/-- What the loss or the reset of chiplet `n` undoes (R22, R35, R178): its actions, its measurements, its runs, the work on its
cores, its ports' skew instances, and its links. The boot waits for none of its halves any more (R384). -/
def loseChip (n : Nat) (s : State) : State :=
  let s := forList (s.chip n).transit (fun a s => judged a (editItem a.q a.seq (·.setHw stTGTLOST a.idx) s)) s
  let s := dropWaits n s
  let s := forBelow 4 (fun m s => endRunsOn (fun t => machChip m t == n) m s) s
  let s := forList (s.chansIn n) (fun k s =>
    let x := s.chan k
    s.setChan k { cdTable := x.cdTable, cdLast := x.cdLast }) s
  let s := forBelow 8 (fun i s =>
    let c := 8 * n + i
    ((s.setCore c {}).put HOP_STAT.RELOCKING 0 c).put HOP_STAT.WINDOW 0 c) s
  let s := forList ((s.ports.map (·.1)).filter fun p => p / 128 == n) (fun p s =>
    s.setPort p { s.port p with skOn := false, skAttempt := none, skWait := none, skConv := false, trimMotion := none }) s
  let s := refreshMoving (forBelow 16 refreshGroup s)
  let s := forBelow 16 (fun x s =>
    let c := 8 * n + x / 2
    s.when (s.half c (x % 2)).bootBy.isSome (·.setHalf c (x % 2) { s.half c (x % 2) with bootBy := none })) s
  let s := linkDown (2 * n + 1) (linkDown (2 * n) s)
  let s := s.setChip n { s.chip n with fifo := [], transit := [], aborts := [] }
  (s.put COMMIT_STAT.LEVEL 0 n).put COMMIT_STAT.PATH_UP 0 n

/-- Chiplet `n` is declared lost (R35, R377). -/
def declareLost (n : Nat) (s : State) : State :=
  let s := s.put CHIP_STAT.LOST (s.get CHIP_STAT.LOST ||| 2 ^ n)
  faultReport 4 ((loseChip n s).raise 378)

/-- CHIPLET_LOST (R35, R377): 8 consecutive answers are missing. A chiplet that fails while the control die does not work is found
by the scan at its return (R379 step 4). -/
def chipletLostS (n : Nat) (s : State) : State :=
  if s.coldHeld || s.chipLost n then s
  else if s.cdDown then failsUnseen 4 n s
  else if (s.chip n).missed < 8 then s
  else declareLost n s

/-! ## Periodic measurements -/

/-- ASYNC_SPEED_UPDATE (R25): every 10 us. -/
def asyncSpeedUpdateS (stage : Nat) (s : State) : State :=
  if s.cdDown || s.clock < s.timer tmAsync then s
  else
    let s := s.setTimer tmAsync (s.clock + 10 * usTk)
    let s := (s.put ASYNC_SPEED.STAGE_PS stage).put ASYNC_SPEED.VALID 1
    let over_ := decide (s.get ASYNC_LIMIT.LIMIT_PS < stage)
    let rising := over_ && !s.isSet ASYNC_SPEED.OVER_LIMIT
    let s : State := { s with asyncOver := over_ }
    let s := s.when over_ (·.put ASYNC_SPEED.OVER_LIMIT 1)
    s.when (rising && s.isSet ASYNC_LIMIT.EVT_EN) (·.raise 374)

/-- CHIP_TEMP_UPDATE (R377, R146): every 1 ms. A temperature that passes 85 degrees is fault 0x07; a port whose chiplet has moved by
more than 1 degree since its monitor offset is due for a new one. -/
def chipTempUpdateS (temps : List Int) (s : State) : State :=
  if s.cdDown || s.clock < s.timer tmTemp then s
  else
    let s := s.setTimer tmTemp (s.clock + msTk)
    let hot := fun (n : Nat) (s : State) => decide (85 < s.temp n)
    let t := forBelow 8 (fun n t => if t.chipLost n then t else t.put CHIP_TEMP.TEMP (twos 8 (temps.getD n 0)) n) s
    let t := forList (t.ports.map (·.1)) (fun p t =>
      let x := t.port p
      t.when (decide (1 < (t.temp (p / 128) - x.ofsTemp).natAbs)) (·.setPort p { x with ofsDue := true })) t
    if (List.range 8).any fun n => hot n t && !hot n s then faultReport 7 t else t

/-- MEMBANK (R29, R418, R377): a bank is declared lost. -/
def membankS (b : Nat) (s : State) : State :=
  if s.cdDown || s.bankLost b then s
  else
    let s := s.put MEM_BANK_STAT.LOST (s.get MEM_BANK_STAT.LOST ||| 2 ^ b)
    let s := faultReport 3 (s.raise 375)
    if b = 15 then mirrorBankLost s
    else if b = 14 then forBelow 5 endRuns s
    else s

/-! ## Core bring-up (R366 step 5) -/

/-- Step 5 of R366 on one core: both halves are powered, half A drives, and each half commits the reset word of its shadow
registers with a band search. -/
def bringUpCore (c : Nat) (s : State) : State :=
  let s := ((s.put CORE_CTRL.A_PWR 1 c).put CORE_CTRL.B_PWR 1 c).put CORE_STAT.DRIVE 0 c
  let s := forBelow 2 (fun h s =>
    let w := ({} : State).shadowWord c h
    let s := s.setHalf c h { s.half c h with pend := some { w with search := true }, pendBoot := true, bootBy := some (s.clock + 2 * msTk) }
    trimRefresh c h (powerUp c h ((s.put HALF_STAT.PENDING 1 c h).put HALF_CMD.COMMIT 1 c h))) s
  refreshOos c s

/-- HALF_BOOT_LOCK_TIMEOUT (R366, R376): a half has not locked within 2 ms of its boot commit. -/
def halfBootLockTimeoutS (c h : Nat) (s : State) : State :=
  match (s.half c h).bootBy with
  | some t =>
    if !s.locked c h && decide (t ≤ s.clock) then declareFailed c h (s.setHalf c h { s.half c h with bootBy := none }) else s
  | none => s

/-! ## Boot commands (R369) -/

abbrev slotLen : Nat := 0x800000
abbrev bootMaxBody : Nat := 0x681000
def slotBase (k : Nat) : Nat := 0x800000 + slotLen * k

/-- The fields of a slot's header (R367). -/
structure SlotHead where
  edition : Nat
  progLen : Nat
  progAt : Nat
  ctxLen : Nat
  ctxAt : Nat
  entries : Nat
  deriving DecidableEq, Repr

def State.slotHead (s : State) (k : Nat) : SlotHead where
  edition := (s.nvmByte (slotBase k + 9)).toNat
  progLen := s.nvmWord (slotBase k + 0xC)
  progAt := s.nvmWord (slotBase k + 0x10)
  ctxLen := s.nvmWord (slotBase k + 0x14)
  ctxAt := s.nvmWord (slotBase k + 0x18)
  entries := s.nvmWord (slotBase k + 0x1C)

def State.slotGen (s : State) (k : Nat) : Nat := s.commitGen (slotBase k + 0x7FF000)
def State.slotBody (s : State) (k : Nat) : Nat := s.nvmWord (slotBase k + 0x7FF008)

/-- Every test of R367 on slot `k` but the check word of the body, which the load computes (R368). -/
def State.slotFits (s : State) (k : Nat) : Bool :=
  let b := slotBase k
  let m := b + 0x7FF000
  let h := s.slotHead k
  s.nvmWord m == 0x5342434D && s.nvmWord (m + 16) == crc32c (s.nvmBytes m 16) &&
  s.nvmWord (m + 12) == s.nvmWord (b + 0x7FE000) && s.slotGen k != 0 && s.slotGen k != 0xFFFFFFFF &&
  decide (s.slotBody k ≤ bootMaxBody) && s.nvmWord b == 0x5342494D && s.nvmWord (b + 4) == 1 &&
  (s.nvmByte (b + 8)).toNat.testBit 0 && h.progLen % 4 == 0 && decide (h.progAt + h.progLen ≤ 0x400000) &&
  h.ctxLen % 128 == 0 && decide (h.ctxAt + h.ctxLen / 128 ≤ 16384) && decide (h.entries ≤ 65536)

/-- The check word of the body against the check page, which a worn slot may fail (R416). -/
def State.slotChecks (s : State) (k : Nat) : Bool :=
  !s.worn (slotBase k) (slotBase k + slotLen) && s.nvmWord (slotBase k + 0x7FE000) == crc32c (s.nvmBytes (slotBase k) (s.slotBody k))

def State.slotValid (s : State) (k : Nat) : Bool := s.slotFits k && s.slotChecks k

/-- The highest generation of a valid slot; 0 when there is none. -/
def State.topSlotGen (s : State) : Nat :=
  max (if s.slotValid 0 then s.slotGen 0 else 0) (if s.slotValid 1 then s.slotGen 1 else 0)

/-- `BOOT_STAT` tells an outcome, and Tansy records it with kind NVMOP. -/
def logBoot (s0 s : State) : State :=
  s.log oNvm kNVMOP RegId.BOOT_STAT.at (s0.reg RegId.BOOT_STAT.at) (s.reg RegId.BOOT_STAT.at) (s.get BOOT_STAT.LAST_CODE)

def refuseBoot (code : Nat) (s : State) : State := logBoot s ((s.put BOOT_STAT.REFUSED 1).put BOOT_STAT.LAST_CODE code)

/-- A boot command ends: `CMD` reads 0b00. -/
def endBoot (code : Nat) (s : State) : State :=
  let t : State := { s with bootCmd := none }
  logBoot s (((t.put BOOT_STAT.BUSY 0).put BOOT_STAT.LAST_CODE code).put BOOT_CTRL_A.CMD 0)

/-- The bytes of an uncorrectable 64-bit word `w` of memory, where they stand among bytes read from offset `a`, are an open value (R28). -/
def patchBad (a : Nat) (r : List Byte × State) (w : Nat) : List Byte × State :=
  let (v, s) := r.2.free 64
  (r.1.mapIdx fun i x => if (a + i) / 8 = w then (leBytes 8 v).getD ((a + i) % 8) 0 else x, s)

/-- The bytes that PROGRAM copies, whose read corrects and notes errors of the program store (R28). -/
def bootRead (b : BootCmd) (s : State) : List Byte × State :=
  let a := 0x01400000 + b.src
  (touching s.badWords a b.len).foldl (patchBad a) (s.bytesAt a b.len, sramMeets a b.len s)

/-- Erase the sector that holds a slot's check page and commit record. -/
def eraseSlotCommit (k : Nat) (s : State) : State := nvmEraseRange (slotBase k + 0x7F0000) (slotBase k + slotLen) s

/-- A slot whose command has not come to its end is invalid (R369). -/
def voidSlot (k : Nat) (s : State) : State :=
  { s with nvm := SMap.clear (slotBase k + 0x7F0000) (slotBase k + slotLen) s.nvm }

/-- What a boot command `b` has done where it stands: how far it came is an open value (log entry 93). -/
def bootPartial (b : BootCmd) (s : State) : State :=
  let (n, s) := s.free 24
  if b.cmd = 1 then nvmEraseRange (slotBase b.slot) (slotBase b.slot + min n 0x7F0000) s
  else if b.cmd = 2 then
    let (bs, s) := bootRead b s
    nvmProgram (slotBase b.slot + b.dst) (bs.take n) s
  else
    let base := slotBase b.slot
    let check := crc32c (s.nvmBytes base b.len)
    nvmProgram (base + 0x7FF000) ((commitRecord 0x5342434D b.gen b.len check).take (min (n - 4) 12))
      (nvmProgram (base + 0x7FE000) ((leBytes 4 check).take n) s)

/-- A boot command that a reset or a loss ends (R369): how far it came is an open value; its slot is invalid. -/
def abandonBoot (s : State) : State :=
  match s.bootCmd with
  | none => s
  | some b => endBoot 0xA (voidSlot b.slot (bootPartial b s))

/-- The refusals of R369. -/
def State.bootRefused (s : State) (b : BootCmd) (force : Bool) : Option Nat :=
  if s.bootCmd.isSome || s.nvmOp.isSome then some 3
  else if s.nvmLost then some 7
  else if b.cmd = 1 then if !force && s.slotValid b.slot && !s.slotValid (1 - b.slot) then some 5 else none
  else if b.cmd = 2 then
    if 0x400000 < b.src + b.len || slotLen < b.dst + b.len then some 6
    else if (s.nvmBytes (slotBase b.slot + b.dst) b.len).all (· == 0xFF) then none else some 8
  else if bootMaxBody < b.len then some 6
  else if s.topSlotGen = 0xFFFFFFFE then some 9
  else if !s.marginOk 2 then some 2
  else none

/-- A completed pair on `BOOT_CTRL` with value `v` (R369): the present value shows the running command. -/
def bootCtrlWrite (v : Nat) (s : State) : State :=
  let show_ := fun (s : State) =>
    let shown := if s.bootCmd.isSome then withField (BitVec.ofNat 32 v) 0 4 (fieldOf (s.reg RegId.BOOT_CTRL_A.at) 0 4)
      else withField (BitVec.ofNat 32 v) 0 2 0
    s.setReg RegId.BOOT_CTRL_A.at shown
  if v % 4 = 0 then show_ s
  else
    let b : BootCmd := {
      cmd := v % 4, slot := v / 4 % 2, src := s.get BOOT_SRC.SRC, dst := s.get BOOT_DST.DST, len := s.get BOOT_LEN.LEN
      gen := s.topSlotGen + 1 }
    match s.bootRefused b (v / 8 % 2 == 1) with
    | some c => show_ (refuseBoot c s)
    | none =>
      let s : State := { s with bootCmd := some b }
      let s := (s.setReg RegId.BOOT_CTRL_A.at (BitVec.ofNat 32 v)).put BOOT_STAT.BUSY 1
      if b.cmd = 1 then eraseSlotCommit b.slot s else s

/-- BOOT_CMD_DONE (R369): the running boot command ends, with NVMFAIL where the NVM die failed it or did not answer (R34). -/
def bootCmdDoneS (r : NvmEnd) (s : State) : State :=
  match s.bootCmd with
  | none => s
  | some b =>
    if s.cdDown then s
    else if r ≠ .done then endBoot 4 (nvmEnded r (bootPartial b s))
    else
      let base := slotBase b.slot
      let s :=
        if b.cmd = 1 then nvmEraseRange base (base + 0x7F0000) s
        else if b.cmd = 2 then
          let (bs, s) := bootRead b s
          nvmProgram (base + b.dst) bs s
        else
          let check := crc32c (s.nvmBytes base b.len)
          nvmProgram (base + 0x7FF000) (commitRecord 0x5342434D b.gen b.len check)
            (nvmProgram (base + 0x7FE000) (leBytes 4 check) s)
      endBoot 1 s

/-! ## Control-die loss (R36, R379) -/

/-- CONTROL_DIE_LOST (R35, R36, R379): chiplet `n` has had no keep-alive for 64 us. It records its stamp and reports on its links that
are up. Once every live chiplet has declared the loss, the control die's own work ends where it stands (R270). -/
def controlDieLostS (n : Nat) (s : State) : State :=
  let x := s.chip n
  if s.warm || s.coldHeld || s.chipLost n || x.cdLost || s.clock < x.lastKeep + 64 * usTk then s
  else
    let ts := ts80 (s.count n)
    let s : State := { s.setChip n { x with cdLost := true, cdLostAt := s.clock } with
      cdStamps := SMap.set (fun _ => 0) s.cdStamps n ts }
    let s := s.put COMMIT_STAT.PATH_UP 0 n
    let s := forList [2 * n, 2 * n + 1] (fun l s =>
      s.when (s.linkState l == lsUp) (sendFrame l fCDLOSS 0xFF (leBytes 8 n ++ leBytes 10 ts ++ leBytes 6 0))) s
    if s.cdDown then abandonBoot (abandonNvm s) else s

/-! ## Cold reset (R363 to R366) -/

/-- The record of a reset (R328). -/
def logReset (s0 : State) (aux : Nat) (s : State) : State :=
  s.log oFault kRESET RegId.RST_STAT.at (s0.reg RegId.RST_STAT.at) (s.reg RegId.RST_STAT.at) aux

/-- A removal of the rails (R383 rung 5), or what a cold reset shares with it: the NVM contents stay, a running store or command
ends where it stands, and everything else is at its reset value. The commands that wait and what has been driven out are the
model's own. No row of the table removes the rails: a power cycle is not a command (log entry 105). -/
def powerCycle (s : State) : State :=
  let s := abandonBoot (abandonNvm s)
  { pending := s.pending, freeCtr := s.freeCtr, nvm := s.nvm, eraseCnt := s.eraseCnt, outs := s.outs }

/-- A cold reset with cause `cause` (R383 rung 4): the NVM contents and two fields of `RST_STAT` stay. SRDY is low from then on (R341). -/
def coldOf (cause : Nat) (s : State) : State :=
  let r := powerCycle s
  let r := (r.put RST_STAT.CAUSE cause).put RST_STAT.COLD_CNT (s.get RST_STAT.COLD_CNT + 1)
  (logReset r 2 r).emit (.srdy false)

/-- COLD_RESET (R364): PORST_N has been low for 0.5 us. -/
def coldResetS (s : State) : State := if s.porst then s else { coldOf 1 s with porst := true, brown := s.brown }

/-- RESET_RELEASE (R366): PORST_N rises; the clock starts, and the boot sequence with it unless a brown-out holds the part. -/
def resetReleaseS (s : State) : State := if s.porst then { s with porst := false, clock := 0 } else s

/-- BROWN_OUT (R365). -/
def brownOutS (s : State) : State := if s.brown then s else { coldOf 5 s with brown := true, porst := s.porst }

/-- BROWN_OUT_END (R365): every rail has been back for 2 ms. -/
def brownOutEndS (s : State) : State := if s.brown then { s with brown := false, clock := 0 } else s

/-- A software cold reset (R364): as a 10 us PORST_N pulse, whose end RESET_RELEASE is. -/
def softCold (s : State) : State := { coldOf 4 s with porst := true }

/-! ## Warm reset (R364, R379, R383, R384) -/

/-- Every request in a mailbox ends with ABORT (R312), and open pairs are discarded without PAIRERR (R314). -/
def abortMailboxes (s : State) : State :=
  forList (s.orgs.map (·.1)) (fun o s =>
    let x := s.org o
    let st := if x.busy.isSome then withField (withField (withField x.stat 0 1 0) 1 1 0) 8 4 5 else x.stat
    s.setOrg o { x with busy := none, pair := none, stat := st }) s

/-- A warm reset at one engine (R208, R213): its registers are lost and its item returns to its queue's head with `FCNT` unchanged. The
engines are taken in their order, so that of several items of one queue that of the highest-numbered engine stands first (DESIGN CHOICE, log
entry 114). -/
def warmEngine (e : Nat) (s : State) : State :=
  let s := match (s.eng e).held with
    | some (q, n) => returnItem q n id s
    | none => s
  let s := (s.setEng e { (s.eng e).cleared with reinitAt := none }).put ENG_PC.PC 0 e
  let s := s.put ENG_CMD.REINIT 0 e
  if s.engState e = esFailed then s else setEngState e (if s.engOn e then esIdle else esOff) s

/-- The pending commits of halves and ports are discarded (R86, R150), but those of a chiplet re-initialisation, which continues (R384). -/
def dropCommits (s : State) : State :=
  let kept := fun (x : Nat) => (s.half (x / 2) (x % 2)).pendBoot && s.get CHIP_STAT.REINIT_BUSY / 2 ^ (x / 16) % 2 == 1
  let s := forList ((s.halves.map (·.1)).filter fun x => !kept x) (fun x s => dropPending (x / 2) (x % 2) s) s
  forList (s.ports.map (·.1)) (fun p s =>
    (s.setPort p { s.port p with captured := none }).put PORT_CMD.COMMIT 0 p) s

/-- Register arms and disarms that wait for their boundary are discarded (R178). -/
def dropArms (s : State) : State :=
  forList ((s.chans.filter fun e => e.2.armPend.isSome || e.2.disPend).map (·.1)) (fun k s =>
    ((s.setChan k { s.chan k with armPend := none, disPend := false }).tsSet TS_CMD.ARM k 0).tsSet TS_CMD.DISARM k 0) s

/-- The control die works on a state in which no chiplet counts it as lost (R379). -/
def withDie (f : State → State) (s : State) : State :=
  let t := f (forBelow 8 (fun n s => s.setChip n { s.chip n with cdLost := false }) s)
  forBelow 8 (fun n t => t.setChip n { t.chip n with cdLost := (s.chip n).cdLost }) t

/-- A warm reset starts (R364, R383 rung 3): `CAUSE` and the count, everything that rung loses, and the RESET record. It is
ignored while a cold reset or step 1 of the boot runs (R384); before SL1 it restarts the boot at step 2 (R383). `ASYNC_SPEED`, `ASYNC_LIMIT`
and `COMMIT_STAT`, whose Meanings do not say whether they survive it, are kept (DESIGN CHOICE, log entry 94). -/
def warmReset (cause : Nat) (s : State) : State :=
  if s.coldHeld || s.warm || s.boot = .sram then s
  else
    let s := withDie (fun s =>
      let s0 := s
      let s := (s.put RST_STAT.CAUSE cause).bump RST_STAT.WARM_CNT
      let s := logReset s0 1 s
      let s := abandonBoot (abandonNvm s)
      let s := forBelow 5 endRuns s
      let s := dropArms (dropCommits s)
      let s := forBelow 256 warmEngine (smWarm s)
      let s := abortMailboxes (ryWarm s)
      ((s.put REINIT.GO 0).put SOR_REQ.GO 0).emit (.srdy false)) s
    { s with warm := true, reinits := [], boot := if s.boot = .up then .up else .cal }

/-- WARM_RESET (R364): WRST_N has been low for 0.5 us. -/
def warmResetS (s : State) : State := warmReset 2 s

/-- R379 step 4: the scan reports every fault of a half, engine or chiplet that arose while the control die did not work, in ascending
order of their codes (R377). -/
def scanFaults (s : State) : State :=
  let of := fun (code : Nat) => (s.lossFaults.filter fun f => f.1 == code).map (·.2)
  let s : State := forBelow s.halfFaults (fun _ s => faultReport 1 s) { s with halfFaults := 0, lossFaults := [] }
  forList (of 4) declareLost (forList (of 2) engFailS s)

/-- The end of a control-die loss (R379): `CD_SEEN`, `CD_LOSS_TS`, fault 0x06, the scan, and the GAP record (R329), which R379 has follow
the reports (DEDUCED, log entry 103). -/
def lossEnd (seen : List Nat) (s : State) : State :=
  let ts := seen.map fun n => SMap.get (fun _ => 0) s.cdStamps n
  let s := s.put CHIP_STAT.CD_SEEN (seen.foldl (fun v n => v ||| 2 ^ n) 0)
  let s := s.setWide aCD_LOSS_TS (ts.foldl min (ts.headD 0))
  let s := faultReport 6 { s with raising := [] }
  (scanFaults s).log oFault kGAP RegId.TANSY_CNT.at 0 0 0

/-- Tables that have waited for the end of a control-die loss take effect where no measurement is armed (R36, R176). -/
def tablesDue (s : State) : State :=
  forList ((s.chans.filter fun e => e.2.cdWait.isSome && e.2.meas.isNone).map (·.1)) cdInstallDue s

/-- WARM_RESET_END (R379, R380, R362, R341): keep-alives resume, a loss is reported, messages that waited are sent, the watchdog restarts,
and the serial slave port is ready again. -/
def warmResetEndS (s : State) : State :=
  if !s.warm then s
  else
    let seen := (List.range 8).filter fun n => (s.chip n).cdLost && !s.chipLost n
    let s : State := { s with warm := false }
    let s := forBelow 8 (fun n s =>
      s.setChip n { s.chip n with cdLost := false, lastKeep := s.clock, missed := 0 }) s
    let s := if seen.isEmpty then scanFaults s else lossEnd seen (tablesDue s)
    let s : State := { s with wdogFrom := if s.get WDOG_CFG.PERIOD_MS = 0 then none else some s.clock }
    let s := checkStarveAll (msixFlushAll (ryWarmEnd s))
    s.when (!s.cdDown) (·.emit (.srdy true))

/-! ## The host watchdog (R380) -/

/-- A write of `WDOG_KICK`. -/
def hookWdogKick (new : Word) (s : State) : Word × State :=
  (withField new 0 16 0,
    if fieldOf new 0 16 = 0x5AC3 then
      { s with wdogOut := false, wdogFrom := if s.get WDOG_CFG.PERIOD_MS = 0 then none else some s.clock }
    else s)

/-- A write of `WDOG_CFG`: action 0b11 is stored as 0b00; a non-zero period starts the timer. -/
def hookWdogCfg (new : Word) (s : State) : Word × State :=
  let v := if fieldOf new 16 2 = 3 then withField new 16 2 0 else new
  (v, { s with wdogFrom := if fieldOf v 0 16 = 0 then none else some s.clock })

/-- WATCHDOG (R380): the period has passed without a kick. -/
def watchdogS (s : State) : State :=
  match s.wdogFrom with
  | none => s
  | some t =>
    if s.cdDown || s.clock < t + s.get WDOG_CFG.PERIOD_MS * msTk then s
    else
      let act := s.get WDOG_CFG.ACTION
      let s : State := { s with wdogOut := true, wdogFrom := if act = 0 then some s.clock else none }
      let s := faultReport 8 ((s.put WDOG_CFG.EXPIRED 1).raise 379)
      if act = 1 then
        let s0 := s
        let s := portMenS 0 s
        s.log oFault kHWCHANGE RegId.PORT_MEN_A.at (s0.reg RegId.PORT_MEN_A.at) (s.reg RegId.PORT_MEN_A.at) 0
      else if act = 2 then warmReset 6 s
      else s

/-! ## Re-initialising a function (R381) -/

/-- Every register from `lo` below `hi` but those that `keep` names returns to its reset value. -/
def clearRegs (lo hi : Nat) (keep : Nat → Bool) (s : State) : State :=
  { s with
    regs := s.regs.filter fun e => decide (e.1 < lo) || decide (hi ≤ e.1) || keep e.1
    wide := s.wide.filter fun e => decide (e.1 < lo) || decide (hi ≤ e.1) }

/-- The `HALF_FAILn` bits of core `c` clear. -/
def clearFailed (c : Nat) (s : State) : State :=
  let i := c / 16
  s.put HALF_FAIL.HALF (s.get HALF_FAIL.HALF i &&& (0xFFFFFFFF - 3 * 2 ^ (2 * (c % 16)))) i

/-- A half as it is after a reset of its chiplet's part, with its committed values (R381, R382), or, where the calibration cache that holds
them is lost, with its trims in force (R418; log entry 135). -/
def resetHalf (c h : Nat) (s : State) : State :=
  let x := s.half c h
  let t := if s.calLost then x.inForce else x.committed
  s.setHalf c h { committed := x.committed, working := t, inForce := t }

/-- Core `c`'s ports leave a relock hold, and an open hop or relock fails with PARTNER. -/
def failCoreHops (c : Nat) (s : State) : State :=
  let s := match (s.core c).hop with
    | some r => failOpenHop c 6 r s
    | none => s
  if (s.core c).relock.isSome then leaveUnmoved c (failHop c 6 (endRelock c s)) else s

/-- `KIND` 0: core `c`. The runs of LMS and DTC on its halves end (R250). -/
def reinitCore (c : Nat) (s : State) : State :=
  let s := forList [0, 1] (endRunsOn fun x => x / 2 == c) (failCoreHops c s)
  let p := 0x100000 + 0x4000 * c
  let keep := fun (a : Nat) => [p + 0x40, p + 0x48, p + 0x4C, p + 0x12C, p + 0x22C].contains a
  let s := clearRegs p (p + 0x4000) keep s
  let s := clearFailed c (resetHalf c 1 (resetHalf c 0 (s.setCore c { lastUse := s.clock })))
  refreshPorts c (refreshLevel (bringUpCore c s))

/-- `KIND` 1: port `p`. An attempt of the skew loop on it ends (R250). -/
def reinitPort (p : Nat) (s : State) : State :=
  let c := s.srcCore p
  let s := leaveFailover p (endRunsOn (· == p) 3 s)
  let x := s.port p
  let q := 0x01000000 + 0x4000 * p
  let locked := s.isSet PORT_LOCK.CEIL_LOCK p
  let keep := fun (a : Nat) => [q + 0x28, q + 0x2C, q + 0x40].contains a || (locked && [q + 0x14, q + 0x18].contains a)
  let s := clearRegs q (q + 0x4000) keep (setPortState p psWord s)
  let s := s.setPort p {
    trimInForce := x.trimInForce, trimMotion := x.trimMotion, skewOfs := x.skewOfs, ofsDue := x.ofsDue, ofsTemp := x.ofsTemp }
  let s := s.put PORT_STAT.STATE (if s.mayRun (p / 128) then psWord else psMaster) p
  refreshCoreGroup c (refreshGuard c (closeLoops c (releaseSpare c (refreshPort p s))))

/-- `KIND` 3: link `l` goes to DOWN, its counters clear, and it retrains. -/
def reinitLink (l : Nat) (s : State) : State :=
  let s := linkDown l s
  (s.setReg (RegId.RY_CNT.at l) 0).setReg (RegId.RY_CNT2.at l) 0

/-- `KIND` 4: the eight channels of group `g` end their measurements with ABORT, and their front FIFOs are cleared (R178). -/
def reinitTeasel (g : Nat) (s : State) : State :=
  forBelow 8 (fun j s =>
    let k := 8 * g + j
    let s := if (s.chan k).meas.isSome then endAt k 6 (ts80 (s.count (chanChip k))) s else s
    s.setChan k { s.chan k with fifo := [], taps := [] }) s

/-- The area that committed values are reloaded from (R260): the bank in use, else by R266 the valid bank of the higher
generation, the seeds, or none. -/
def State.calSource (s : State) : Option (Nat × Bool) :=
  let b := s.get NVM_STAT.INUSE
  if s.nvmLost then none
  else if s.bankValid b then some (bankBase b, true)
  else if s.bankValid (1 - b) then some (bankBase (1 - b), true)
  else if s.seedValid then some (seedBase, false)
  else none

/-- `KIND` 5: machine `m` ends its runs and reloads its committed values (R260). A lost calibration cache takes none, and the trims in
force are kept (R418). -/
def reinitSorrel (m : Nat) (s : State) : State :=
  let s := endRuns m s
  let src := s.calSource
  if s.calLost then s
  else if m < 2 then
    forBelow 128 (fun x s =>
      let t := match src with
        | some (base, bank) => recordTrims (s.nvmBytes (base + 0x1000 + 128 * x) 128) bank
        | none => {}
      let h := s.half (x / 2) (x % 2)
      trimRefresh (x / 2) (x % 2) (s.setHalf (x / 2) (x % 2) { h with
        committed := h.committed.take t (m == 1), working := h.working.take t (m == 1) })) s
  else if m = 2 then
    forBelow 1280 (fun k s =>
      match src with
      | some (base, true) => reloadTable k (some ((List.range 128).map fun j => leNat (s.nvmBytes (base + 0x5000 + 256 * k + 2 * j) 2))) s
      | _ => reloadTable k none s) s |> refreshAllConv
  else if m = 5 then
    match src with
    | some (base, _) => forBelow 128 (fun x s => forBelow 768 (fun i s =>
        { s with preds := SMap.set (fun _ => 0) s.preds (768 * x + i) (leNat (s.nvmBytes (base + 0x55000 + 2048 * x + 2 * i) 2)) }) s) s
    | none => { s with preds := [] }
  else s

/-- R28: an access of machine `m` that meets an uncorrectable word of the calibration cache restarts the machine from the active
bank; the spec gives the cache no layout, so any word of it is taken as that machine's (log entry 13). Else `f` acts. -/
def calMeets (m : Nat) (f : State → State) (s : State) : State :=
  if s.cdDown || s.calLost || !s.anyBad 0x01D00000 0x00100000 then f (s.when (!s.cdDown) (sramFix 0x01D00000 0x00100000))
  else
    let s := sramMeets 0x01D00000 0x00100000 s
    reinitSorrel m { s with badWords := s.badWords.filter fun w => decide (8 * w < 0x01D00000) || decide (0x01E00000 ≤ 8 * w) }

/-- How many functions a kind has, and on which chiplet function `i` lies. -/
def reinitRange : Nat → Nat
  | 0 => 64
  | 1 => 1024
  | 2 => 256
  | 3 => 16
  | 4 => 160
  | _ => 6

def reinitChip (k i : Nat) : Option Nat :=
  if k = 0 then some (i / 8) else if k = 1 then some (i / 128) else if k = 3 then some (i / 2)
  else if k = 4 then some (chanChip (8 * i)) else none

/-- The code with which a re-initialisation is refused (R381). -/
def State.reinitRefused (s : State) (k i : Nat) : Option Nat :=
  if 6 ≤ k then some 1
  else if reinitRange k ≤ i then some 2
  else if ((reinitChip k i).map s.chipOut).getD false then some 4
  else if s.reinits.any (fun r => r.1 == k && r.2.1 == i) || (k == 0 && (s.core i).failover.isSome) ||
      (k == 2 && s.engState i == esReinit) then some 5
  else if k = 0 && (s.portsOf i).any s.portRuns && !s.halfFailed i (s.drive i) then some 3
  else none

/-- The time that R381 allows a function. -/
def State.reinitLimit (s : State) (k i : Nat) : Nat :=
  let f := (s.fvco (s.srcCore i) (s.drive (s.srcCore i))).divBy (s.divInForce i)
  if k = 0 then 200 * usTk else if k = 1 then usTk + (3200000000 * f.d + f.n - 1) / f.n
  else if k = 2 then 2 * usTk else if k = 5 then msTk else usTk

/-- What a re-initialisation does. -/
def reinitDo (k i : Nat) (s : State) : State :=
  if k = 0 then reinitCore i s else if k = 1 then reinitPort i s else if k = 2 then engReinitS i s
  else if k = 3 then reinitLink i s else if k = 4 then reinitTeasel i s else reinitSorrel i s

/-- A write of `REINIT` (R381): `GO` acts where it is among the bits `ones` written as 1. -/
def hookReinit (ones old new : Word) (s : State) : Word × State :=
  let k := fieldOf new 0 3
  let i := fieldOf new 3 10
  let keep := withField (withField new 14 2 (fieldOf old 14 2)) 16 4 (fieldOf old 16 4)
  if fieldOf ones 13 1 = 0 then (withField keep 13 1 (fieldOf old 13 1), s)
  else
    match s.reinitRefused k i with
    | some c => (withField (withField (withField new 13 1 0) 14 2 2) 16 4 c, s)
    | none =>
      let due := s.clock + s.reinitLimit k i
      (withField (withField new 14 2 0) 16 4 0, { reinitDo k i s with reinits := s.reinits ++ [(k, i, due)] })

/-- REINIT_COMPLETE (R381): the `j`-th function in progress reaches its state within its limit, or has failed at its limit. An engine has
reached it when it has left REINIT (R207). -/
def reinitCompleteS (ok : Bool) (j : Nat) (s : State) : State :=
  match s.reinits[j]? with
  | none => s
  | some (k, i, due) =>
    if s.cdDown then s
    else
      let t : State := { s with reinits := s.reinits.eraseIdx j }
      let t := t.put REINIT.GO 0
      if ok && decide (s.clock ≤ due) then if k = 2 ∧ s.engState i = esReinit then s else t.put REINIT.RESULT 1
      else if due ≤ s.clock then faultReport 9 (t.put REINIT.RESULT 3)
      else s

/-! ## Re-initialising a chiplet (R382) -/

/-- The Teasel groups of chiplet `n`. -/
def chipGroups (n : Nat) : List Nat := (List.range 16).map (16 * n + ·) ++ (List.range 4).map (128 + 4 * n + ·)

/-- Whether address `a` lies in the page of a link of chiplet `n`. -/
def linkPage (n a : Nat) : Bool := decide (0x320000 + 0x8000 * n ≤ a) && decide (a < 0x328000 + 0x8000 * n)

/-- Steps 1 to 3 of R382: everything on chiplet `n` returns to its reset values, but the locked ceilings of its ports, which only
a cold reset unlocks (R133); halves and channels take their committed values, and the applied marks the highest that the control
die has released to the chiplet. Registers whose parity mismatched are good again (R388). A failed half stays failed (R376). -/
def resetChip (n : Nat) (s : State) : State :=
  let now := s.mcount
  let s := loseChip n s
  let all := fun (_ : Nat) => false
  let s := clearRegs (0x100000 + 0x20000 * n) (0x100000 + 0x20000 * (n + 1)) all s
  let ceil := fun (a : Nat) => s.isSet PORT_LOCK.CEIL_LOCK ((a - 0x01000000) / 0x4000) && [0x14, 0x18].contains (a % 0x4000)
  let s := clearRegs (0x01000000 + 0x200000 * n) (0x01000000 + 0x200000 * (n + 1)) ceil s
  let s := clearRegs (0x208000 + 0x4000 * n) (0x20C000 + 0x4000 * n) all s
  let ring := fun (a : Nat) => decide (0x00800800 ≤ a) && decide (a < 0x00801000)
  let s := forList (chipGroups n) (fun g s => clearRegs (0x00800000 + 0x4000 * g) (0x00804000 + 0x4000 * g) ring s) s
  let s := forList [2 * n, 2 * n + 1] (fun l s =>
    (clearRegs (0x320000 + 0x4000 * l) (0x324000 + 0x4000 * l) all s).setLnk l {}) s
  let s := refreshTop { s with parBad := s.parBad.filter fun e => heldOn e.1 != some n && linkPage n e.1 == false }
  let s := forBelow 8 (fun i s => refreshOos (8 * n + i) (resetHalf (8 * n + i) 1 (resetHalf (8 * n + i) 0 s))) s
  let s := forList ((s.ports.map (·.1)).filter fun p => p / 128 == n) (fun p s => s.setPort p {}) s
  let s := forList (s.chansIn n) (fun k s =>
    s.when (s.chan k).cdTable.isSome fun s => cdState k 3 (s.when (s.get SOR_STAT.SRC != 3) (·.tsSet TS_STAT.RED_PREC k 0))) s
  let s := forBelow 16 (fun g s => s.put LG_STAT.SPARE_USED (s.get LG_STAT.SPARE_USED g &&& (255 - 2 ^ n)) g) s
  let x := s.chip n
  let s := s.setChip n { running := true, gen := s.get PM_GEN.GEN, marks := x.relMarks, relMarks := x.relMarks, lastKeep := s.clock }
  loadCount n now s

/-- CHIPLET_REINIT (R382): a completed pair on `RST_CTRL` with `CMD` = 0b11. -/
def chipletReinit (n : Nat) (s : State) : State :=
  if s.get CHIP_STAT.REINIT_BUSY / 2 ^ n % 2 = 1 then s
  else
    let s := s.put CHIP_STAT.REINIT_BUSY (s.get CHIP_STAT.REINIT_BUSY ||| 2 ^ n)
    let s := resetChip n { s with chipReinit := SMap.set (fun _ => 0) s.chipReinit n (s.clock + 1) }
    refreshLevel (forBelow 8 (fun i s => bringUpCore (8 * n + i) s) s)

/-- CHIPLET_REINIT_DONE (R382 step 5): its ports run as `PORT_MEN` allows, within 50 ms, or the chiplet stays lost and fault 0x09
is reported. -/
def chipletReinitDoneS (n : Nat) (ok : Bool) (s : State) : State :=
  let t := SMap.get (fun _ => 0) s.chipReinit n
  let bit := 2 ^ n
  if t = 0 || s.cdDown || s.coldHeld then s
  else
    let due := t - 1 + 50 * msTk
    let r := s.put CHIP_STAT.REINIT_BUSY (s.get CHIP_STAT.REINIT_BUSY &&& (255 - bit))
    let r : State := { r with chipReinit := SMap.set (fun _ => 0) s.chipReinit n 0 }
    if ok && decide (s.clock ≤ due) then
      let now := s.mcount
      let r := r.put CHIP_STAT.LOST (r.get CHIP_STAT.LOST &&& (255 - bit))
      let r := (r.setChip n { r.chip n with missed := 0, lastKeep := r.clock, cdLost := false, gen := r.get PM_GEN.GEN }).put
        COMMIT_STAT.PATH_UP 1 n
      refreshLevel (masterChip n (loadCount n now r))
    else if due ≤ s.clock then
      let r := r.put CHIP_STAT.LOST (r.get CHIP_STAT.LOST ||| bit)
      faultReport 9 (loseChip n r)
    else s

/-- A completed pair on `RST_CTRL` (R364, R382). A read of the register returns 0. -/
def rstCtrlWrite (v : Nat) (s : State) : State :=
  if v % 4 = 1 then warmReset 3 s
  else if v % 4 = 2 then softCold s
  else if v % 4 = 3 then chipletReinit (v / 4 % 8) s
  else s

/-! ## Editions and the boot sequence (R366 to R371) -/

/-- A write of `EDITION_SEL` whose `ED` is not locked (R370): the value to store. -/
def hookEdition (o : Nat) (old new : Word) (s : State) : Word × State :=
  let ed := fieldOf new 0 8
  if ed ≤ 1 then (new, s)
  else
    let t := s.put EDITION_SEL.ED_BAD 1
    let v := withField (withField new 0 8 (fieldOf old 0 8)) 8 1 1
    (v, t.log o kEVENT RegId.EDITION_SEL.at old v 9)

/-- `SL_STAT.WAIT` (R366, R372): the step that holds the boot. -/
def State.bootWait (s : State) : Nat :=
  match s.boot with
  | .sram | .cal | .image => 1
  | .cores => if s.get EDITION_SEL.ED ≠ 1 then 2 else if 2 ≤ s.get REF_STAT.STATE then 3 else 4
  | .list => if (List.range 128).any (fun x => (s.half (x / 2) (x % 2)).bootBy.isSome) then 4 else 5
  | .up => if s.isSet SL_STAT.SL2_SEEN then 0 else 6

/-- BOOT_SRAM_TEST_DONE (R366 step 1): the memory is clear, and the banks of `bad` are lost anew. The serial slave port is ready (R341). -/
def bootSramTestDoneS (bad : Nat) (s : State) : State :=
  if s.boot ≠ .sram || s.cdDown then s
  else
    let s : State := { s with boot := .cal, mem := [], badWords := [], ctxBad := [] }
    (forBelow 16 (fun b s => s.when (bad.testBit b) (membankS b)) s).emit (.srdy true)

/-- BOOT_CAL_LOADED (R366 step 2, R266). -/
def bootCalLoadedS (answers : Bool) (s : State) : State :=
  if s.boot ≠ .cal || s.cdDown then s
  else
    let s := loadCalibration answers { s with boot := .image }
    forBelow 128 (fun x s => trimRefresh (x / 2) (x % 2) s) s

/-- The `EDITION_SEL` value of a boot image (R368, R370): a selection stands, and the write is a violation (R316). -/
def imageEdition (ed : Nat) (s : State) : State :=
  if ed = 0 then s
  else
    let old := s.reg RegId.EDITION_SEL.at
    if s.get EDITION_SEL.ED ≠ 0 then lockViolation oNvm RegId.EDITION_SEL.at old (BitVec.ofNat 32 ed) s
    else if ed = 1 then
      let s := s.put EDITION_SEL.ED 1
      s.log oNvm kLOCKSET RegId.EDITION_SEL.at old (s.reg RegId.EDITION_SEL.at) 0
    else
      let s := s.put EDITION_SEL.ED_BAD 1
      s.log oNvm kEVENT RegId.EDITION_SEL.at old (s.reg RegId.EDITION_SEL.at) 9

/-- Load slot `k` (R368 steps 1 to 4). Nothing goes into a lost bank (R418). -/
def loadSlot (k : Nat) (s : State) : State :=
  let h := s.slotHead k
  let b := slotBase k
  let prog := s.nvmBytes (b + 0x81000) h.progLen
  let s := s.when (decide (h.progLen ≠ 0) && (s.bankLost 10 || s.bankLost 11)) (·.put BOOT_STAT.LOADBAD 1)
  let s := forList prog.zipIdx (fun e s =>
    let a := 0x01400000 + h.progAt + e.2
    if s.bankLost (bankOf a) then s else s.setByte a e.1) s
  let s := if s.bankLost 0 then s else s.setBytes (128 * h.ctxAt) (s.nvmBytes (b + 0x481000) h.ctxLen)
  imageEdition h.edition (s.put BOOT_STAT.SRC k)

/-- A slot whose check word differs (R368): the program store is zeroed, and `VALID` is cleared in the contexts it wrote. -/
def slotBad (k : Nat) (s : State) : State :=
  let h := s.slotHead k
  let s : State := { s with mem := SMap.clear 0x01400000 0x01800000 s.mem }
  let s := if s.bankLost 0 then s else
    s.setBytes (128 * h.ctxAt) (s.nvmBytes (slotBase k + 0x481000) h.ctxLen)
  let s := if s.bankLost 0 then s else forBelow (h.ctxLen / 128) (fun i s =>
    let a := 128 * (h.ctxAt + i)
    s.setWord a (s.word a &&& 0xFFFFFFFE#32)) s
  s.put BOOT_STAT.LOADBAD 1

/-- BOOT_IMAGE_LOADED (R366 step 3, R368): the fitting slot with the higher generation is loaded, else the other, else none; none too
where the NVM die does not answer (R34). -/
def bootImageLoadedS (answers : Bool) (s : State) : State :=
  if s.boot ≠ .image || s.cdDown then s
  else
    let s0 := s
    let s : State := { s with boot := .cores }
    let s := if answers then s else nvmEnded .silent s
    let s :=
      if s.nvmLost then s.put BOOT_STAT.SRC 3
      else
        let order := if s.slotGen 0 < s.slotGen 1 then [1, 0] else [0, 1]
        let fit := order.filter s.slotFits
        let bad := fit.takeWhile fun k => !s.slotChecks k
        let s := forList bad slotBad (s.put BOOT_STAT.SRC 2)
        match fit.drop bad.length with
        | k :: _ => loadSlot k s
        | [] => s
    s.log oNvm kNVMOP RegId.BOOT_STAT.at (s0.reg RegId.BOOT_STAT.at) (s.reg RegId.BOOT_STAT.at) 0xF

/-- BOOT_CORE_BRINGUP (R366 steps 4 and 5): edition A is selected and the conditioner is locked to a reference. -/
def bootCoreBringupS (s : State) : State :=
  if s.boot ≠ .cores || s.cdDown || s.get EDITION_SEL.ED ≠ 1 || decide (2 ≤ s.get REF_STAT.STATE) then s
  else forBelow 64 (fun c s => if s.chipDead (c / 8) then s else bringUpCore c s) { s with boot := .list }

end Sys2Proof.Machine
end

