-- ==== Sys2Proof/Machine/Wide.lean ====
section
/-! DEFINITION. Wide values (R395) and the mailboxes of R310 to R313. -/

namespace Sys2Proof.Machine

/-! ## Origins and permissions (R320, R321) -/

/-- The permission class of an origin: 0 OWNER, 1 MANAGER, 2 ENGINE, 3 MAINT. -/
def State.classOf (s : State) (o : Nat) : Nat :=
  if o < 0x100 then 2
  else if o = oPcie then if s.isSet ORIGIN_CLASS.PCIE_MAINT then 3 else 0
  else if o = oSsp then if s.isSet ORIGIN_CLASS.SSP_MAINT then 3 else 0
  else if 0x110 ≤ o && o < 0x120 then 1
  else 0

/-- The register address of an alias view: the base view of its page. The queue descriptors and hop contexts have none (R301), and
the 1,024 forwarding entries of R290 fill their page with the addresses of R392, which leaves it no alias view (DEDUCED). -/
def baseOf (a : Nat) : Nat :=
  if 0x360000 ≤ a && a < 0x364000 then a
  else if a < 0x02000000 then a / 0x4000 * 0x4000 + a % 0x1000 else a

/-- The block of R321 that holds address `a`. -/
def blockOf (a : Nat) : Option Nat :=
  let b := baseOf a
  if b < 0x40000 then
    if 0x400 ≤ b && b < 0x600 then some (if b % 0x20 = 0x10 then 7 else 13)
    else if b = 0x100 || b = 0x104 then some 13
    else some 0
  else if b < 0x44000 then none
  else if b < 0x48000 then some 1
  else if b < 0x4C000 then some 2
  else if b < 0x80000 then none
  else if b < 0xC0000 then some 3
  else if b < 0x100000 then some 4
  else if b < 0x200000 then some 5
  else if b < 0x300000 then
    some (if 0x200100 ≤ b && b < 0x200200 && b % 0x10 ≠ 0xC then 7 else 6)
  else if b < 0x310000 then some 8
  else if b < 0x400000 then some 9
  else if b < 0x800000 then some 10
  else if b < 0xC00000 then some 11
  else if b < 0x1000000 then none
  else if b < 0x2000000 then some (if b % 0x4000 = 0x28 || b % 0x4000 = 0x2C then 7 else 12)
  else if b < 0x2200000 then some 14
  else if b < 0x2400000 then some 15
  else none

/-- Whether origin `o` is a link that is not the admitted upstream link: every access of it is refused (R320). -/
def State.linkRefused (s : State) (o : Nat) : Bool := decide (0x110 ≤ o) && decide (o < 0x120) && !s.isManagerLink (o - 0x110)

/-- Whether origin `o` may access address `a` (R320, R321): hardware is not checked, and a link is served only while it is the admitted
upstream link. -/
def State.mayAccess (s : State) (o a : Nat) (write : Bool) : Bool :=
  if 0x180 ≤ o then true
  else if s.linkRefused o then false
  else
    match blockOf a with
    | none => true
    | some b => (s.reg (RegId.PERM_CLASS.at (s.classOf o))).toNat.testBit (if write then b else 16 + b)

/-! ## Wide values -/

/-- A wide value: its width, the chiplet that holds it, and its present value. -/
structure WideVal where
  width : Nat
  chip : Option Nat
  val : Nat
  deriving DecidableEq, Repr

/-- IDENTITY (R371). -/
def State.identity (s : State) : Nat := ownSerial + 2 ^ 64 + s.get EDITION_SEL.ED * 2 ^ 72 + s.calGen * 2 ^ 96

/-- `ENG_BUSY` (R211): the ticks spent outside IDLE. -/
def State.engBusy (s : State) (e : Nat) : Nat :=
  (s.wideAt (aENG_BUSY e) + (if s.engState e = esIdle then 0 else s.clock - (s.eng e).busyFrom)) % 2 ^ 64

/-- `QD_DONE` (R183): every item of this sequence or below has completed. An item that has gone to quarantine holds it back no more
(DESIGN CHOICE, log entry 113). -/
def State.queueDone (s : State) (q : Nat) : Nat :=
  let x := s.queue q
  x.items.foldl (fun m i => min m (i.seq - 1)) (x.nextSeq - 1)

/-- The wide values of the global, services and time regions. -/
def State.wideControl (s : State) (a : Nat) : Option WideVal :=
  if a = 0xC0 then some ⟨128, none, s.identity⟩
  else if a = aSL_ENTRY || a = aCD_LOSS_TS then some ⟨80, none, s.wideAt a⟩
  else if a = aQM_ACCEPTED || a = aQM_LATE then some ⟨64, none, s.wideAt a⟩
  else if a = 0x480C0 then some ⟨48, none, s.tansySeq⟩
  else if a = 0x80100 then some ⟨80, none, ts80 s.mcount⟩
  else if a = aEPOCH_LAST || a = aHOLD_START then some ⟨80, none, s.wideAt a⟩
  else if a = aREF_BUILDOUT then some ⟨64, none, s.wideAt a⟩
  else if 0x80120 ≤ a && a < 0x80140 && a % 4 = 0 then
    let n := (a - 0x80120) / 4
    some ⟨80, some n, ts80 (s.count n)⟩
  else none

/-- The wide values of a core page, at page offset `off`. -/
def State.wideCore (s : State) (c off : Nat) : Option WideVal :=
  let a := 0x100000 + 0x4000 * c + off
  if off = 0xC0 then some ⟨80, some (c / 8), s.wideAt a⟩
  else if off = 0xC4 then some ⟨64, some (c / 8), s.wideAt a⟩
  else if off = 0x180 || off = 0x280 then some ⟨48, some (c / 8), s.wideAt a⟩
  else if off = 0x184 || off = 0x284 then some ⟨64, some (c / 8), s.wideAt a⟩
  else if off = 0x188 || off = 0x18C || off = 0x288 || off = 0x28C then some ⟨80, some (c / 8), s.wideAt a⟩
  else none

/-- The wide values of a Sorrel chiplet page (R272). -/
def State.wideSorrel (s : State) (n off : Nat) : Option WideVal :=
  if off % 4 ≠ 0 then none
  else if 0xB00 ≤ off && off < 0xB80 then
    some ⟨1024, some n, s.trimRecord (16 * n + (off - 0xB00) / 8) (off % 8 == 4)⟩
  else if 0xC00 ≤ off && off < 0xE80 then some ⟨2048, some n, s.cdTableValue (chanOf n ((off - 0xC00) / 4))⟩
  else none

/-- The wide value at address `a`, if a table names one (R395). -/
def State.wideOf (s : State) (a : Nat) : Option WideVal :=
  if a < 0x100000 then s.wideControl a
  else if a < 0x200000 then s.wideCore ((a - 0x100000) / 0x4000) (a % 0x4000)
  else if 0x208000 ≤ a && a < 0x228000 then s.wideSorrel ((a - 0x208000) / 0x4000) (a % 0x4000)
  else if a = aSSP_STRSEQ then some ⟨48, none, s.wideAt a⟩
  else if 0x320000 ≤ a && a < 0x360000 then
    if a % 0x4000 = 0xC0 || a % 0x4000 = 0xC4 || a % 0x4000 = 0xC8 then some ⟨64, none, s.wideAt a⟩ else none
  else if 0x371008 ≤ a && a < 0x371800 then
    if a % 8 = 0 then some ⟨64, none, s.wideAt a⟩ else if a % 8 = 4 then some ⟨128, none, s.wideAt a⟩ else none
  else if 0x400000 ≤ a && a < 0x800000 then
    let e := (a - 0x400000) / 0x4000
    if a % 0x4000 = 0xC0 then some ⟨48, none, ((s.eng e).held.map (·.2)).getD 0⟩
    else if a % 0x4000 = 0xC4 then some ⟨64, none, s.engBusy e⟩
    else none
  else if 0x800000 ≤ a && a < 0xA80000 then
    let off := a % 0x4000
    let k := 8 * ((a - 0x800000) / 0x4000) + (off - 0x100) / 0x80
    if off < 0x100 || 0x500 ≤ off then none
    else if off % 0x80 = 0x60 then some ⟨80, some (chanChip k), s.wideAt a⟩
    else if off % 0x80 = 0x64 then some ⟨512, none, leNat (s.resultBlock k)⟩
    else none
  else if 0x1000000 ≤ a && a < 0x2000000 then
    if a % 0x4000 = 0xC0 then some ⟨80, some ((a - 0x1000000) / 0x200000), s.wideAt a⟩ else none
  else if 0x2000000 ≤ a && a < 0x2200000 then
    let q := (a - 0x2000000) / 64
    if a % 64 = 0x38 then some ⟨48, none, (s.queue q).nextSeq⟩
    else if a % 64 = 0x3C then some ⟨48, none, s.queueDone q⟩
    else none
  else none

/-! ## Mailboxes (R310 to R313) -/

/-- Word `i` of a number, 32 bits. -/
def word32 (v i : Nat) : Word := BitVec.ofNat 32 (v / 2 ^ (32 * i))

/-- The words of a 64-bit result of R189 or R193 in `MB_DATA0` and `MB_DATA1`. -/
def resultWords (status seq : Nat) : List (Nat × Word) :=
  let r := (queueResult status seq).toNat
  [(0, word32 r 0), (1, word32 r 1)]

/-- The error of a SNAP that a lost chiplet ends (R312, R329). -/
def State.snapLost (s : State) (a : Nat) : Bool :=
  match (s.wideOf a).bind (·.chip) with
  | some n => s.chipLost n
  | none => false

/-- The count, the status bit and the event of every refusal (R322). -/
def countRefusal (s : State) : State := ((s.bump VETCH_CNT.PERM_DENIED).put VETCH_STAT.PERMERR_SEEN 1).raise 368

/-- A SNAP of `STAT_RES` reads the result block in on-chip memory (R28, R181). -/
def snapMeets (a : Nat) (s : State) : State :=
  let off := a % 0x4000
  if 0x800000 ≤ a ∧ a < 0xA80000 ∧ 0x100 ≤ off ∧ off < 0x500 ∧ off % 0x80 = 0x64 ∧ !s.bankLost 13 then
    sramMeets (0x01A00000 + 64 * (8 * ((a - 0x800000) / 0x4000) + (off - 0x100) / 0x80)) 64 s
  else s

/-- A SNAP request of origin `o` for the value at `a`. -/
def mbSnap (o a : Nat) (s : State) : MbResult × State :=
  match s.wideOf a with
  | none => (⟨1, []⟩, s)
  | some w =>
    if !s.mayAccess o a false then (⟨2, []⟩, countRefusal s)
    else if s.snapLost a then (⟨4, []⟩, s)
    else (⟨0, (List.range 64).map fun i => (i, word32 (w.val % 2 ^ w.width) i)⟩, snapMeets a s)

/-- A SUBMIT request: the item is in `MB_DATA4` upward (R189). -/
def mbSubmit (o q size : Nat) (data : SMap Word) (s : State) : MbResult × State :=
  if size = 3 then (⟨3, []⟩, s)
  else
    let ws := SMap.getMany (fun _ => 0#32) data 4 (4 * 2 ^ size)
    let (st, seq, s) := submitBytes q (s.classOf o) (ws.flatMap fun w => leBytes 4 w.toNat) s
    (⟨0, resultWords st seq⟩, s)

/-- A TAKE request: the item taken goes into `MB_DATA4` upward (R193). -/
def mbTake (o q : Nat) (s : State) : MbResult × State :=
  let (st, item, s) := takeS q (s.classOf o) s
  match item with
  | some i =>
    let v := leNat i.bytes
    (⟨0, resultWords st i.seq ++ (List.range (i.bytes.length / 4)).map fun k => (4 + k, word32 v k)⟩, s)
  | none => (⟨0, resultWords st 0⟩, s)

/-- A write of `MB_REQ` (R311). The reserved bits are kept. -/
def mbRequest (o : Nat) (v : Word) (s : State) : State :=
  let x := s.org o
  let op := fieldOf v 24 4
  if fieldOf x.stat 1 1 = 1 then
    if op = 0 then s else s.setOrg o { x with stat := withField x.stat 2 1 1 }
  else
    let req := withField v 30 2 (fieldOf x.req 30 2)
    if op = 0 then s.setOrg o { x with req := req }
    else
      let stat := withField (withField (withField x.stat 0 1 0) 1 1 1) 16 16 (fieldOf x.stat 16 16 + 1)
      let (r, s) :=
        if op = 1 then mbSnap o (4 * fieldOf v 0 24) s
        else if op = 2 then mbSubmit o (fieldOf v 0 15) (fieldOf v 28 2) x.data s
        else if op = 3 then mbTake o (fieldOf v 0 15) s
        else (⟨3, []⟩, s)
      s.setOrg o { s.org o with req := req, stat := stat, busy := some r }

/-- MAILBOX_COMPLETE (R311, R312, R329): the data words are written at once. -/
def mailboxCompleteS (o : Nat) (s : State) : State :=
  let x := s.org o
  match x.busy with
  | none => s
  | some r =>
    if s.cdDown then s
    else
      let lost := fieldOf x.req 24 4 == 1 && s.snapLost (4 * fieldOf x.req 0 24)
      let err := if r.err = 0 && lost then 4 else r.err
      let stat := withField (withField (withField x.stat 1 1 0) 0 1 (if err = 0 then 1 else 0)) 8 4 err
      let data := if err = 0 then r.words.foldl (fun d e => SMap.set (fun _ => 0#32) d e.1 e.2) x.data else x.data
      s.setOrg o { x with busy := none, stat := stat, data := data }

/-- `MB_PAIR` as an origin reads it. -/
def OriginSt.pairWord (x : OriginSt) : Word :=
  match x.pair with
  | some (a, _, left) => BitVec.ofNat 32 (a / 4 + left * 2 ^ 24 + 2 ^ 31)
  | none => 0

/-- A read in the mailbox page at page offset `off`: a direct read of `MB_STAT` clears `REQ_LOST` (R309). -/
def mailboxRead (o off : Nat) (s : State) : Word × State :=
  let x := s.org o
  if off = 0 then (x.req, s)
  else if off = 4 then (x.stat, s.setOrg o { x with stat := withField x.stat 2 1 0 })
  else if off = 8 then (x.pairWord, s)
  else if off = 0xC then (BitVec.ofNat 32 (o + s.classOf o * 1024), s)
  else if 0x100 ≤ off && off < 0x200 && off % 4 = 0 then (SMap.get (fun _ => 0#32) x.data ((off - 0x100) / 4), s)
  else (0, s)

/-- A write in the mailbox page (R305, R324): no record. -/
def mailboxWrite (o off : Nat) (v : Word) (s : State) : State :=
  let x := s.org o
  if off = 0 then mbRequest o v s
  else if 0x100 ≤ off && off < 0x200 && off % 4 = 0 then
    s.setOrg o { x with data := SMap.set (fun _ => 0#32) x.data ((off - 0x100) / 4) v }
  else s

end Sys2Proof.Machine
end

