-- ==== Sys2Proof/Machine/Vetch.lean ====
section
/-! DEFINITION. Vetch, the register arbiter (R301 to R323, R388): what one direct write, alias write, paired write or read of an origin
does to a register, with the side effects that the register's chapter gives. -/

namespace Sys2Proof.Machine

/-! ## Where a register is held, and what it reads as -/

/-- Whether R388 bars the register at `a`. -/
def State.barred (s : State) (a : Nat) : Bool :=
  match heldOn a with
  | some n => s.chipOut n
  | none => false

/-- Put field `f` of a word. -/
def setFld (w : Word) (f : Fld) (v : Nat) : Word := withField w f.lo f.w v

/-- The register's word with the fields that the model computes on reading. -/
def State.computed (s : State) (r : RegAt) (w : Word) : Word :=
  match r.id with
  | .SL_CAP => BitVec.ofNat 32 s.slCap
  | .SL_STAT => setFld w SL_STAT.WAIT s.bootWait
  | .EV_GSUM => BitVec.ofNat 32 s.gsum
  | .CFGPAR_FROZEN => setFld w CFGPAR_FROZEN.FROZEN s.frozenCount
  | .QM_STAT => setFld w QM_STAT.ACC_OFF (if s.accOff then 1 else 0)
  | .SM_STAT => setFld w SM_STAT.XIP_WAIT (if s.xip.misses.isEmpty then 0 else 1)
  | .TS_STAT => if r.i < 128 then setFld w TS_STAT.SKEW (if s.skewHolds (8 * r.i + r.j) then 1 else 0) else w
  | _ => w

/-- The word in which a parity mismatch has been found at `a`, if there is one (R317). -/
def State.badAt (s : State) (a : Nat) : Option Word := (s.parBad.find? fun e => e.1 == a).map (·.2)

/-- The word that register `r` at `a` holds, as an alias read returns it. -/
def State.view (s : State) (r : RegAt) (a : Nat) : Word :=
  match s.badAt a with
  | some w => w
  | none => s.computed r (s.reg a)

/-- Whether a family is the `_A` or the `_B` of a pair. -/
def RegId.isPairA (r : RegId) : Bool :=
  [RegId.RST_CTRL_A, .PORT_MEN_A, .BOOT_CTRL_A, .PERM_LOCK_A, .TEST_CTRL_A, .EPOCH_CTRL_A, .NVM_CTRL_A, .WT_CTRL_A].contains r

def RegId.isPairB (r : RegId) : Bool :=
  [RegId.RST_CTRL_B, .PORT_MEN_B, .BOOT_CTRL_B, .PERM_LOCK_B, .TEST_CTRL_B, .EPOCH_CTRL_B, .NVM_CTRL_B, .WT_CTRL_B].contains r

/-- Registers that read 0: every `_B`, `RST_CTRL_A`, `WDOG_KICK` and `RING_REL`. -/
def RegId.readsZero (r : RegId) : Bool := r.isPairB || [RegId.RST_CTRL_A, .WDOG_KICK, .RING_REL].contains r

/-- The bits of a paired value that a table names (R303). -/
def pairMask : RegId → Nat
  | .RST_CTRL_A => 0x1F
  | .PORT_MEN_A => 0xFF
  | .BOOT_CTRL_A => 0xF
  | .EPOCH_CTRL_A => 0xFF
  | .NVM_CTRL_A => 0xF
  | _ => 1

/-! ## Latched status (R308, R309) -/

/-- Whether the fault that `FAULT_SUM` bit `b` reports has gone (R377). -/
def State.faultGone (s : State) (b : Nat) : Bool :=
  if b = 0 then (List.range 4).all fun i => s.get HALF_FAIL.HALF i == 0
  else if b = 1 then (List.range 256).all fun e => s.engState e != esFailed
  else if b = 2 then s.get MEM_BANK_STAT.LOST == 0
  else if b = 3 then s.get CHIP_STAT.LOST == 0
  else if b = 4 then !s.nvmLost
  else if b = 6 then (List.range 8).all fun n => decide (s.temp n ≤ 85)
  else if b = 7 then !s.wdogOut
  else true

/-- Whether the cause of RCC bit `b` of register `r` has gone, as its Meaning states. A bit that reports an event has it gone at the
first read after. -/
def State.causeGone (s : State) (r : RegAt) (b : Nat) : Bool :=
  let i := r.i
  let k := 8 * r.i + r.j
  match r.id with
  | .REF_STAT =>
    if b = REF_STAT.A_LOST.lo then s.isSet REF_STAT.A_QUAL
    else if b = REF_STAT.B_LOST.lo then s.isSet REF_STAT.B_QUAL
    else if b = REF_STAT.HOLD_LIMIT.lo then s.get REF_STAT.STATE != 2
    else true
  | .EPOCH_STAT =>
    if b = EPOCH_STAT.DEV.lo then s.tb.devOk else if b = EPOCH_STAT.MISSING.lo then s.tb.edgeSinceMiss else true
  | .REPL_PHASE => !(s.chip i).reload
  | .ASYNC_SPEED => !s.asyncOver
  | .COMMIT_STAT => if b = COMMIT_STAT.FULL_SEEN.lo then decide (s.get COMMIT_STAT.LEVEL i < 4096) else true
  | .FAULT_SUM => s.faultGone b
  | .WDOG_CFG => !s.wdogOut
  | .QM_STAT => s.quarRoom
  | .PCIE_STAT => if b = PCIE_STAT.DOWN_SEEN.lo then s.isSet PCIE_STAT.LINK_UP else true
  | .CFGPAR_STAT => s.frozenCount == 0
  | .TANSY_STAT => if b = TANSY_STAT.FULL_SEEN.lo then !s.isSet TANSY_WR.FULL else true
  | .HALF_STAT => s.isSet HALF_STAT.LOCKED i r.j
  | .PORT_STAT =>
    if b = PORT_STAT.CEIL_TRIP.lo then s.get PORT_STAT.STATE i != psGuard
    else if b = PORT_STAT.LL_SEEN.lo then s.get PORT_STAT.STATE i == psRun
    else if b = PORT_STAT.SKEW_LIM.lo then !(s.port i).skLim
    else true
  | .HT_STAT => !(s.half (8 * i + r.j / 2) (r.j % 2)).searchBad
  | .TS_STAT =>
    if b = TS_STAT.FIFO_FULL.lo then decide ((s.chan k).fifo.length < 16)
    else if b = TS_STAT.RING_STALL.lo then (s.chan k).buf.isEmpty
    else true
  | .RING_STAT => if b = RING_STAT.FULL_SEEN.lo then decide (s.get RING_STAT.LEVEL i < s.ringCap i) else true
  | .QD_STAT =>
    if b = QD_STAT.FULL_SEEN.lo then decide (s.get QD_STAT.LEVEL i + s.qEntries i ≤ s.get QD_LEN.LEN i)
    else if b = QD_STAT.STARVED.lo then !(s.queue i).starved
    else true
  | .ENG_STAT => if b = ENG_STAT.FAILED_SEEN.lo then s.engState i != esFailed else true
  | .RY_GSTAT =>
    if b = RY_GSTAT.ORPHAN_SEEN.lo then s.isSet RY_GSTAT.ADMITTED else decide (s.get RY_GSTAT.MIR_USED < 16384)
  | .RY_STAT =>
    if b = RY_STAT.DOWN_SEEN.lo then s.linkState i == lsUp || s.linkState i == lsStandby
    else if b = RY_STAT.HB_LATE.lo then (s.lnk i).misses == 0
    else true
  | .RY_TT => if b = RY_TT.UNLOCK_SEEN.lo then s.get RY_TT.TT_ST i == 3 else true
  | _ => true

/-- The RCC bits of `mask` that are set in register `r` and clear, and whether some set bit stays. -/
def State.rccClears (s : State) (r : RegAt) (w : Word) (mask : Nat) : Nat × Bool :=
  (List.range 32).foldl (fun (m, kept) b =>
    if (regRow r.id).rcc.testBit b && mask.testBit b && w.getLsbD b then
      if s.causeGone r b then (m + 2 ^ b, kept) else (m, true)
    else (m, kept)) (0, false)

/-- Clear bits of the word that register `a` stores. -/
def clearBits (a m : Nat) (s : State) : State := s.setReg a (s.reg a &&& ~~~(BitVec.ofNat 32 m))

/-- A direct read at the base offset (R309): the word, and the state with the RCC bits cleared whose cause has gone. -/
def readReg (r : RegAt) (a : Nat) (s : State) : Word × State :=
  if r.id.readsZero then (0, s)
  else
    let w := s.view r a
    if (regRow r.id).rcc = 0 then (w, s)
    else
      let (m, kept) := s.rccClears r w 0xFFFFFFFF
      (w, ((if m = 0 then s else clearBits a m s)).when kept (·.bump VETCH_CNT.RCC_KEPT))

/-! ## Side effects of a direct or alias write -/

/-- A command bit that reads 1 until it is acted on: a write of 0 leaves it. -/
def keepBit (old new : Word) (b : Nat) : Word := if old.getLsbD b then withField new b 1 1 else new

/-- What a write does on its way to the register: the word to store, and the state after the checks and effects of the register's
chapter. `old` is the word stored, `new` the word that the access codes leave, `m` the bits that the access writes: a command bit acts
where it is written as 1 (R301, R302). -/
def writeHook (o : Nat) (r : RegAt) (m old new : Word) (s : State) : Word × State :=
  let i := r.i
  let j := r.j
  let k := 8 * i + j
  let ones := m &&& new
  match r.id with
  | .EDITION_SEL => if fieldOf old 0 8 = fieldOf new 0 8 then (new, s) else hookEdition o old new s
  | .REINIT => hookReinit ones old new s
  | .WDOG_CFG => hookWdogCfg new s
  | .WDOG_KICK => hookWdogKick new s
  | .LG_MEM_LO => hookLg i 0 old new s
  | .LG_MEM_HI => hookLg i 1 old new s
  | .LG_SPARE => hookLg i 2 old new s
  | .XIP_CACHE => hookXipCache new s
  | .TANSY_RD =>
    let rd := fieldOf new 0 16
    let wr := s.get TANSY_WR.WR
    if rd ≠ wr then (new, { (s.put TANSY_WR.FULL 0) with tansyUnrel := (wr + 65536 - rd) % 65536 })
    else if s.isSet TANSY_WR.FULL then (new, s)
    else (new, { s with tansyUnrel := 0 })
  | .REF_CFG => hookRefCfg m old new s
  | .REF_QUAL => (if fieldOf new 0 16 = 0 then withField new 0 16 1 else new, s)
  | .REFA_FREQ => hookRefFreq 0 old new s
  | .REFB_FREQ => hookRefFreq 1 old new s
  | .TB_SLEW => hookTbSlew ones old new s
  | .EV_ROUTE => hookEvRoute new s
  | .CORE_CTRL => hookCoreCtrl i old new s
  | .LD_CFG => hookLdCfg i j new s
  | .HALF_CMD =>
    if new.getLsbD 0 then
      let t := captureCommit i j s
      (withField new 0 1 (t.get HALF_CMD.COMMIT i j), t)
    else (keepBit old new 0, s)
  | .SOR_CTRL => hookSorCtrl new s
  | .SOR_REQ => hookSorReq ones old new s
  | .SM_CFG => hookSmCfg new s
  | .SM_GPIO => hookSmGpio o new s
  | .SM_TIME => hookSmTime new s
  | .SM_CMD => hookSmCmd o new s
  | .SM_XIP_TMO => (if fieldOf new 0 16 = 0 then withField new 0 16 1 else new, s)
  | .RY_GCFG => hookRyGcfg new s
  | .RY_CFG => hookRyCfg i new s
  | .RY_RACC_CTRL => hookRacc old new s
  | .FWD_CFG => hookFwd i 0 old new s
  | .FWD_DST => hookFwd i 1 old new s
  | .FWD_CQ => hookFwd i 2 old new s
  | .WT_CTRL => hookWtCtrl i new s
  | .ENG_CMD =>
    if new.getLsbD 0 then
      let t := engReinitS i s
      (withField new 0 1 (t.get ENG_CMD.REINIT i), t)
    else (keepBit old new 0, s)
  | .TS_IN => hookTsIn k new s
  | .TS_CMD => hookTsCmd k ones new s
  | .RING_CFG => hookRingCfg i old new s
  | .RING_REL => (withField new 0 18 0, ringRelS i new s)
  | .PORT_CFG => hookPortCfg i new s
  | .PORT_CMD =>
    if new.getLsbD 0 then
      let t := capturePort i s
      (withField new 0 1 (t.get PORT_CMD.COMMIT i), t)
    else (keepBit old new 0, s)
  | .PORT_CEIL => hookPortCeil i old new s
  | .PORT_MK2 => (if fieldOf new 0 16 = 0 then withField new 0 16 1 else new, s)
  | .CD_STAT => (if r.j < 128 then withField new 3 1 0 else new, s)
  | .PORT_TRIM => hookPortTrim i new s
  | .QD_CTRL => hookQdCtrl i old new s
  | .QD_LEN => hookQdLen i old new s
  | _ => (new, s)

/-- The ports whose skew loop a group's membership or loop enable concerns follow it. -/
def groupWritten (s : State) : State :=
  forBelow 16 refreshGroup (forList (s.ports.map (·.1)) skewRefresh s)

/-- What follows once the word is stored. -/
def afterWrite (r : RegAt) (old : Word) (s : State) : State :=
  let i := r.i
  match r.id with
  | .LG_MEM_LO | .LG_MEM_HI | .LG_SPARE | .LG_CFG => groupWritten s
  | .CDLY_HI =>
    let ran := (s.cdly i).run.isSome
    let s := cdlyHiWritten i s
    if ran then cdlyEnded i s else s
  | .SM_CFG | .SM_XIP => smCfgWritten s
  | .SSP_CFG => sspCfgWritten old s
  | .RY_CFG => ryCfgWritten i (fieldOf old 0 2) s
  | .ENG_CFG => engCfgWritten i s
  | .PORT_SKEW => refreshPort i s
  | .PORT_TRIM => portTrimWritten i s
  | .PORT_CEIL => skewRefresh i s
  | .TS_IN => cdInputCheck (8 * i + r.j) s
  | .CD_STAT => cdInputCheck (chanOf i r.j) s
  | .QD_CTRL =>
    let s := if !old.getLsbD 0 && s.isSet QD_CTRL.EN i then queueEnabledRy i s else s
    checkStarve i s
  | .QD_AFF => checkStarve i s
  | _ => s

/-! ## Violations (R303, R304, R308, R316) -/

def rsvdViolation (o a : Nat) (old v : Word) (s : State) : State :=
  (s.put VETCH_STAT.RSVD_SEEN 1).log o kRSVDWR a old v

def hwoViolation (o a : Nat) (old v : Word) (s : State) : State :=
  (s.put VETCH_STAT.HWOWR_SEEN 1).log o kHWOWR a old v

/-- Test mode (R303). -/
def State.testMode (s : State) : Bool := s.isSet TEST_CTRL_A.TEST_MODE

/-- Whether the RW fields of register `r` are locked by another field (R133, R316, R323). -/
def State.lockedBy (s : State) (r : RegAt) : Bool :=
  match r.id with
  | .PORT_CEIL => s.isSet PORT_LOCK.CEIL_LOCK r.i
  | .PERM_CLASS | .ORIGIN_CLASS => s.isSet PERM_LOCK_A.LOCK
  | _ => false

/-- Whether the RW fields of register `r` are hardware-owned at present (R68). -/
def State.ownedNow (s : State) (r : RegAt) : Bool := r.id == .TB_SLEW && s.isAdmitted

/-- Whether the write-once field of register `r` has been set (R316). -/
def State.onceSet (s : State) (r : RegAt) (a : Nat) : Bool :=
  let m := BitVec.ofNat 32 (regRow r.id).wo1
  (regRow r.id).wo1 != 0 && (s.reg a &&& m) != (resetAt a &&& m)

/-- The bits that a direct write stores. -/
def State.writable (s : State) (r : RegAt) (a : Nat) : Word :=
  let w := regRow r.id
  let rw := if s.lockedBy r || s.ownedNow r then 0 else w.rw
  let wo := if s.onceSet r a then 0 else w.wo1
  let rs := if s.testMode then w.rsvd else 0
  BitVec.ofNat 32 (rw ||| w.cnt ||| wo ||| rs)

/-- The record kind of a write that changes a stored value (R316, R323). -/
def writeKind (s : State) (r : RegAt) (a : Nat) (v : Word) : Nat :=
  let m := BitVec.ofNat 32 (regRow r.id).wo1
  if (regRow r.id).wo1 != 0 && !s.onceSet r a && (v &&& m) != (resetAt a &&& m) then kLOCKSET
  else if r.id == .PERM_CLASS || r.id == .ORIGIN_CLASS then kPERM
  else kWRITE

/-- The violations of a direct write of `v`, in the order of R324; their records carry the word `held` before the write. `RING_REL` produces
no record (R324). -/
def violations (o : Nat) (r : RegAt) (a : Nat) (held v : Word) (s : State) : State :=
  let w := regRow r.id
  let seen := s.view r a
  let differs := fun (m : Nat) => (v ^^^ seen) &&& BitVec.ofNat 32 m != 0
  let lockBad := (s.lockedBy r && w.rw != 0) || s.onceSet r a
  let rsvdBad := !s.testMode && differs w.rsvd
  let hwoBad := differs w.hwo || (s.ownedNow r && differs w.rw)
  let s := s.when lockBad (lockViolation o a held v)
  let s := s.when rsvdBad fun s =>
    if r.id == .RING_REL then s.put VETCH_STAT.RSVD_SEEN 1 else rsvdViolation o a held v s
  s.when hwoBad (hwoViolation o a held v)

/-- The word in which a direct write finds a register, as its records show it, and whether storing `w` changes it: `bad` is the
word in which a parity mismatch had been found, which this write restores (R319). -/
def State.heldWord (s : State) (r : RegAt) (a : Nat) (bad : Option Word) : Word := bad.getD (s.view r a)

def State.changedBy (s : State) (a : Nat) (bad : Option Word) (w : Word) : Bool := bad.getD (s.reg a) != w

/-- A direct write to a register that is not paired (R303, R308, R316, R324). Its records stand together: what the register's chapter does
beyond the stored value follows them. `bad` is the word of a mismatch that the write restores (R319). -/
def directWrite (o : Nat) (r : RegAt) (a : Nat) (v : Word) (s : State) (bad : Option Word := none) : State :=
  let old := s.reg a
  let wr := s.writable r a
  let kind := writeKind s r a v
  let new := (old &&& ~~~wr) ||| (v &&& wr)
  let act := wr != 0 && !((s.lockedBy r || s.ownedNow r) && (regRow r.id).rw != 0) && !s.onceSet r a
  let held := s.heldWord r a bad
  let s := violations o r a held v s
  let stored := if act then (writeHook o r wr old new s).1 else new
  let changed := bad.isSome && s.changedBy a bad stored || (stored ^^^ old) &&& wr != 0
  let s := s.when (changed && r.id != .RING_REL) (·.log o kind a held (s.computed r stored))
  if act then afterWrite r old ((writeHook o r wr old new s).2.setReg a stored) else s.setReg a stored

/-! ## Alias writes (R302) -/

/-- The word that an alias view makes of `old` with the bits `v`: 1 SET, 2 CLEAR, 3 TOGGLE. -/
def aliasWord (view : Nat) (old v : Word) : Word :=
  if view = 1 then old ||| v else if view = 2 then old &&& ~~~v else old ^^^ v

/-! ## Paired writes (R314, R315) -/

/-- A pair fails with `code`: `v` is the value of the `_A` write, `w` that of the failing access at `a`. -/
def pairFail (o a code : Nat) (v w : Word) (s : State) : State :=
  let s := ((s.put VETCH_STAT.PAIRERR_SEEN 1).put VETCH_STAT.LAST_PAIR code).bump VETCH_CNT2.PAIRERRS
  (s.raise 366).log o kPAIRERR a v w code

/-- Discard the open pair of an origin. -/
def dropPair (o : Nat) (s : State) : State := s.setOrg o { s.org o with pair := none }

/-- Each register access of an origin counts toward its open pair's 64; the 65th finds it expired. A write of the pair's own `_B` does
not count down. -/
def pairTick (o a : Nat) (write : Bool) (v : Word) (s : State) : State :=
  match (s.org o).pair with
  | none => s
  | some (pa, pv, left) =>
    if left = 0 then pairFail o a 3 pv (if write then v else 0) (dropPair o s)
    else if write && a = pa + 4 then s
    else s.setOrg o { s.org o with pair := some (pa, pv, left - 1) }

/-- What a completed pair does beside storing its value, by its register (R59, R135, R267, R285, R303, R323, R364, R369). -/
def pairApply (r : RegAt) (a : Nat) (v : Word) (s : State) : State :=
  let n := v.toNat
  match r.id with
  | .RST_CTRL_A => rstCtrlWrite n s
  | .PORT_MEN_A => portMenS (n % 256) (s.setReg a (withField v 0 8 (s.get PORT_MEN_A.MEN)))
  | .BOOT_CTRL_A => bootCtrlWrite n s
  | .EPOCH_CTRL_A => epochCtrlWrite n s
  | .NVM_CTRL_A => nvmCtrlWrite n s
  | .WT_CTRL_A => wtEvict r.i n (s.setReg a (withField v 0 1 0))
  | _ => s.setReg a v

/-- The value that a completed pair with `v` gives its register: outside test mode the reserved bits stay as they are. -/
def State.pairValue (s : State) (r : RegAt) (a : Nat) (v : Word) : Word :=
  let mask := BitVec.ofNat 32 (pairMask r.id)
  if s.testMode then v else (s.reg a &&& ~~~mask) ||| (v &&& mask)

/-- The violation of a completed pair whose `v` differs in a reserved bit (R303). -/
def pairRsvd (o : Nat) (r : RegAt) (a : Nat) (v : Word) (s : State) : State :=
  let mask := BitVec.ofNat 32 (pairMask r.id)
  s.when (!s.testMode && ((v ^^^ s.reg a) &&& ~~~mask) != 0) (rsvdViolation o a (s.reg a) v)

/-- Whether a completed pair meets a `PERM_LOCK.LOCK` that has been set (R316). -/
def State.pairLocked (s : State) (r : RegAt) : Bool := r.id == .PERM_LOCK_A && s.isSet PERM_LOCK_A.LOCK

/-- A completed pair (R314): `v` is applied as one Control write and recorded with kind PAIRED. `PERM_LOCK.LOCK` is written once (R316):
the write that sets it is recorded as LOCKSET, one of its reset value before leaves no record, and any later one is a violation. -/
def pairComplete (o : Nat) (r : RegAt) (a : Nat) (v : Word) (s : State) : State :=
  let old := s.reg a
  let w := s.pairValue r a v
  if s.pairLocked r then pairRsvd o r a v (lockViolation o a old v s)
  else
  let s := pairRsvd o r a v s
  if r.id == .PERM_LOCK_A then
    pairApply r a w (s.when (v.getLsbD 0) (·.log o kLOCKSET a old v))
  else pairApply r a w (s.log o kPAIRED a old v)

/-- A function that has thawed takes up its work (R319). -/
def thawed (a : Nat) (s : State) : State :=
  match regOf a with
  | some r =>
    if r.id ∈ regIdsEngine then engCfgWritten r.i s
    else if r.id ∈ regIdsQueue then checkStarve r.i (queueOpens r.i s)
    else s
  | none => s

/-- Restore the parity of register `a` (R319). -/
def restoreParity (a : Nat) (s : State) : State := { s with parBad := s.parBad.filter fun e => e.1 != a }

/-- Whether a completed pair with `v` changes something: the register's value, or it carries a command (R318). -/
def State.pairActs (s : State) (r : RegAt) (a : Nat) (v : Word) : Bool :=
  match r.id with
  | .RST_CTRL_A => fieldOf v 0 2 != 0
  | .WT_CTRL_A => v.getLsbD 0
  | .BOOT_CTRL_A | .NVM_CTRL_A => fieldOf v 0 2 != 0 || s.pairValue r a v != s.reg a
  | .EPOCH_CTRL_A => v.getLsbD 2 || s.isSet EPOCH_STAT.ARMED || s.pairValue r a v != s.reg a
  | _ => s.pairValue r a v != s.reg a

/-- A completed pair whose register's function is frozen (R318, R319): one that would change something is discarded; one on a set lock is a
violation as ever (R316). -/
def frozenPair (o : Nat) (r : RegAt) (a : Nat) (v : Word) (s : State) : State :=
  if (s.badAt a).isNone then
    if s.pairLocked r || !s.pairActs r a v then pairComplete o r a v s else discardFrozen s
  else
    let t := restoreParity a s
    if t.frozen a then
      if t.pairLocked r then pairComplete o r a v t
      else ((pairRsvd o r a v t).setReg a (t.pairValue r a v)).log o kPAIRED a (t.reg a) v
    else thawed a (pairComplete o r a v t)

/-- A direct write to a register of a pair. -/
def pairWrite (o : Nat) (r : RegAt) (a : Nat) (v : Word) (s : State) : State :=
  let x := s.org o
  if r.id.isPairA then
    let s := match x.pair with
      | some (_, pv, _) => pairFail o a 4 pv v s
      | none => s
    s.setOrg o { s.org o with pair := some (a, v, 64) }
  else
    match x.pair with
    | none => pairFail o a 1 0 v s
    | some (pa, pv, _) =>
      let s := dropPair o s
      if pa + 4 ≠ a then pairFail o a 5 pv v s
      else if v ≠ ~~~pv then pairFail o a 2 pv v s
      else
        match regOf pa with
        | some ra => if s.frozen pa then frozenPair o ra pa pv s else pairComplete o ra pa pv s
        | none => s

/-- A write at alias view `view` of the register at base address `a`. -/
def aliasWrite (o : Nat) (r : RegAt) (a view : Nat) (v : Word) (s : State) : State :=
  let w := regRow r.id
  if w.pw ≠ 0 then pairFail o a 6 0 v s
  else
    let bits := v &&& BitVec.ofNat 32 w.rw
    let locked := s.lockedBy r && bits != 0
    let owned := s.ownedNow r
    let s := s.when locked (lockViolation o a (s.view r a) v)
    let bits := if locked || owned then 0 else bits
    let old := s.reg a
    let seen := s.view r a
    let (stored, t) :=
      if bits = 0 then (old, s)
      else writeHook o r bits old (aliasWord view old bits) s
    let t := if bits = 0 then t else t.setReg a stored
    let t := if view = 2 then
        let m := (t.rccClears r (t.view r a) v.toNat).1
        if m = 0 then t else clearBits a m t
      else t
    let perm := r.id == .PERM_CLASS || r.id == .ORIGIN_CLASS
    let t := t.when (t.reg a != old && r.id != .RING_REL) fun t =>
      t.log o (if perm then kPERM else kALIAS) a seen (t.view r a) (if perm then 0 else view)
    if bits = 0 then t else afterWrite r old t

/-! ## Frozen functions (R318, R319) -/

/-- Whether a write that writes the bits `ones` as 1 and leaves the word `new` carries a command, so that it acts even where it leaves the
register as it was. -/
def RegId.commandIn (r : RegId) (ones new : Word) : Bool :=
  match r with
  | .HALF_CMD | .PORT_CMD | .ENG_CMD => ones.getLsbD 0
  | .TS_CMD => fieldOf ones 0 2 != 0
  | .SOR_REQ => ones.getLsbD 14
  | .REINIT => ones.getLsbD 13
  | .TB_SLEW => ones.getLsbD 31
  | .RING_REL => fieldOf new 0 18 != 0
  | .WDOG_KICK => fieldOf new 0 16 == 0x5AC3
  | .WDOG_CFG => fieldOf new 0 16 != 0
  | .RING_CFG => new.getLsbD 20
  | .CDLY_HI | .PORT_TRIM => true
  | _ => false

/-- R318: a direct write to a frozen function is discarded and counted where it would change something; the violations of one that would
not are reported as ever. -/
def frozenDiscard (o : Nat) (r : RegAt) (a : Nat) (v : Word) (s : State) : State :=
  let wr := s.writable r a
  if ((s.reg a ^^^ v) &&& wr) != 0 || (wr != 0 && r.id.commandIn (v &&& wr) v) then discardFrozen s
  else violations o r a (s.view r a) v s

/-- R318: an alias write to a frozen function, where it would change an RW bit or clear an RCC bit. One to a paired register is a failed
pair all the same (R302), and one to a locked field a violation (R316). -/
def frozenAlias (o : Nat) (r : RegAt) (a view : Nat) (v : Word) (s : State) : State :=
  let w := regRow r.id
  let named := v &&& BitVec.ofNat 32 w.rw
  let bits := if s.lockedBy r || s.ownedNow r then 0 else named
  let s := s.when (w.pw == 0 && s.lockedBy r && named != 0) (lockViolation o a (s.view r a) v)
  if w.pw ≠ 0 then aliasWrite o r a view v s
  else
    let new := aliasWord view (s.reg a) bits
    if (new != s.reg a && bits != 0) || (view = 2 && (s.rccClears r (s.view r a) v.toNat).1 != 0) ||
        (bits != 0 && r.id.commandIn (bits &&& new) new) then discardFrozen s
    else s

/-- A direct write to a register of a frozen function: it is discarded unless it rewrites a register that mismatches, whose parity it
restores. While another register of the function mismatches, the value is stored without effect; what it carries in locked, reserved
and hardware-owned bits is still a violation (R303, R308, R316). -/
def frozenWrite (o : Nat) (r : RegAt) (a : Nat) (v : Word) (s : State) : State :=
  if (s.badAt a).isNone then frozenDiscard o r a v s
  else
    let t := restoreParity a s
    if t.frozen a then
      let kind := writeKind t r a v
      let wr := t.writable r a
      let old := t.reg a
      let new := (old &&& ~~~wr) ||| (v &&& wr)
      let held := t.heldWord r a (s.badAt a)
      let changed := t.changedBy a (s.badAt a) new && r.id != .RING_REL
      let t := violations o r a held v t
      (t.setReg a new).when changed (·.log o kind a held (t.computed r new))
    else thawed a (directWrite o r a v t (s.badAt a))

/-! ## Accesses (R301, R304, R305, R321, R322) -/

/-- Whether an address lies in the MSI-X table or the pending bits (R359). -/
def msixTableAt (a : Nat) : Option Nat := if 0xD0000 ≤ a && a < 0xD1800 then some ((a - 0xD0000) / 4) else none
def msixPbaAt (a : Nat) : Option Nat := if 0xD8000 ≤ a && a < 0xD8030 then some ((a - 0xD8000) / 4) else none

/-- A refused access (R322), which leaves no record in the MSI-X areas (R360); a refused write to the open pair's `_B` ends the
pair (R329). -/
def refuseAccess (o a : Nat) (write : Bool) (v : Word) (s : State) : State :=
  let old := match regOf (baseOf a) with
    | some r => s.view r (baseOf a)
    | none => 0
  let s := match (s.org o).pair with
    | some (pa, _, _) => if write && a = pa + 4 then dropPair o s else s
    | none => s
  let s := countRefusal s
  s.when (write && (msixTableAt a).isNone && (msixPbaAt a).isNone) (·.log o kPERMDENY a old v ((blockOf a).getD 0))

/-- A write to a reserved address (R304). -/
def reservedWrite (o a : Nat) (v : Word) (s : State) : State := rsvdViolation o a 0 v s

/-- The table offset of a word of the hop context window (R96). -/
def ctxOffset (a : Nat) : Option Nat := if 0x02200000 ≤ a && a < 0x02400000 then some (a - 0x02200000) else none

/-- A write in the hop context window: a change is recorded; a lost bank takes nothing (R418). A context that was marked invalid is
good again once no word of it is uncorrectable (R28). `USES` is written like the rest (log entry 128). -/
def ctxWrite (o a off : Nat) (v : Word) (s : State) : State :=
  if s.bankLost 0 then s.log o kEVENT a 0 v 5
  else
    let n := off / 128
    let old := s.word off
    let t : State := { s.setWord off v with
      badWords := s.badWords.filter fun w => w != off / 8, ecc := { s.ecc with weak := s.ecc.weak.filter (· != off / 8) } }
    let t : State := if t.anyBad (128 * n) 128 then t else { t with ctxBad := t.ctxBad.filter fun c => c != n }
    t.when (old != v) (·.log o kWRITE a old v)

/-- A read in the hop context window: an uncorrectable word marks its context invalid, and what it reads as is open (R28, R418). -/
def ctxRead (off : Nat) (s : State) : Word × State :=
  if s.bankLost 0 then (0, s)
  else if s.anyBad off 4 then
    let (x, t) := (sramMeets off 4 s).free 32
    (BitVec.ofNat 32 x, t)
  else (s.word off, sramFix off 4 s)

/-- Whether Vetch does not serve: the control die is lost or a cold reset is held (R329). -/
def State.vetchOff (s : State) : Bool := s.cdDown

/-- Whether origin `o` is barred from `TEST_CTRL` (R303). -/
def State.testBarred (s : State) (o : Nat) (r : RegAt) : Bool :=
  (r.id == .TEST_CTRL_A || r.id == .TEST_CTRL_B) && decide (o < 0x180) && s.classOf o != 3

/-- A served write to a register address that is no mailbox, MSI-X or context word. -/
def registerWrite (o a : Nat) (v : Word) (s : State) : Bool × State :=
  let b := baseOf a
  match regOf b with
  | none => (false, reservedWrite o a v s)
  | some r =>
    if s.testBarred o r then (true, refuseAccess o a true v s)
    else if s.barred b then
      let w := s.view r b
      (false, s.log o kEVENT b w v 4)
    else if a ≠ b then (false, (if s.frozen b then frozenAlias else aliasWrite) o r b ((a - b) / 0x1000) v s)
    else if r.id.isPairA || r.id.isPairB then (false, pairWrite o r a v s)
    else if s.frozen a then (false, frozenWrite o r a v s)
    else (false, directWrite o r a v s)

/-- Whether `a` lies in the mailbox page. -/
def mailboxAt (a : Nat) : Bool := decide (0x40000 ≤ a) && decide (a < 0x44000)

/-- One write by origin `o` at address `a`: whether it was refused, and the state. An engine reaches no mailbox by an access (R310). A
link that is not the admitted upstream link is refused every access (R320). -/
def vetchWrite (o a : Nat) (v : Word) (s : State) : Bool × State :=
  if s.vetchOff then (false, s)
  else if mailboxAt a then
    if o < 256 then (true, s)
    else if s.linkRefused o then (true, refuseAccess o a true v s)
    else (false, if a < 0x41000 then mailboxWrite o (a - 0x40000) v s else s)
  else
    let s := pairTick o a true v s
    if s.linkRefused o then (true, refuseAccess o a true v s)
    else if a % 4 ≠ 0 then (false, reservedWrite o a v s)
    else if !s.mayAccess o a true then (true, refuseAccess o a true v s)
    else
      match msixTableAt a, ctxOffset a with
      | some i, _ => (false, msixTableWrite i v s)
      | none, some off => (false, ctxWrite o a off v s)
      | none, none => if (msixPbaAt a).isSome then (false, s) else registerWrite o a v s

/-- A served read of a register address that is no mailbox, MSI-X or context word. -/
def registerRead (a : Nat) (s : State) : Word × State :=
  let b := baseOf a
  match regOf b with
  | none => (0, s)
  | some r =>
    if s.barred b then (0, s)
    else if a ≠ b then (if r.id.readsZero then 0 else s.view r b, s)
    else readReg r a s

/-- One read by origin `o` at address `a`: the word, or none when the read is refused. -/
def vetchRead (o a : Nat) (s : State) : Option Word × State :=
  if s.vetchOff then (some 0, s)
  else if mailboxAt a then
    if o < 256 then (none, s)
    else if s.linkRefused o then (none, refuseAccess o a false 0 s)
    else if a < 0x41000 then
      let (w, t) := mailboxRead o (a - 0x40000) s
      (some w, t)
    else (some 0, s)
  else
    let s := pairTick o a false 0 s
    if s.linkRefused o then (none, refuseAccess o a false 0 s)
    else if a % 4 ≠ 0 then (some 0, s)
    else if !s.mayAccess o a false then (none, refuseAccess o a false 0 s)
    else
      match msixTableAt a, msixPbaAt a, ctxOffset a with
      | some i, _, _ => (some (msixTableRead i s), s)
      | none, some i, _ => (some (msixPbaRead i s), s)
      | none, none, some off =>
        let (w, t) := ctxRead off s
        (some w, t)
      | none, none, none =>
        let (w, t) := registerRead a s
        (some w, t)

/-- Whether address `a` is reserved under R304, for a Celil register access: no table names it, or it names a wide value (R227). -/
def reservedAt (a : Nat) : Bool :=
  a % 4 != 0 || decide (0x4000000 ≤ a) ||
    ((regOf (baseOf a)).isNone && (msixTableAt a).isNone && (msixPbaAt a).isNone && (ctxOffset a).isNone)

end Sys2Proof.Machine
end

