-- ==== Sys2Proof/Machine/Tansy.lean ====
section
/-! DEFINITION. The configuration scrubber (R317, R318) and the change log's ring (R325 to R328). -/

namespace Sys2Proof.Machine

/-! ## Parity (R317, R318) -/

/-- Whether register `r` is a configuration register: it has an RW, WO1 or PW field, or is a word of a queue descriptor. -/
def RegAt.configuration (r : RegAt) : Bool :=
  let w := regRow r.id
  w.rw != 0 || w.wo1 != 0 || w.pw != 0 || r.id ∈ regIdsQueue

/-- Whether register `r` is held in three copies: it has a WO1 field, is write-once under R316, or is locked at present. -/
def State.threeCopies (s : State) (r : RegAt) : Bool :=
  (regRow r.id).wo1 != 0 || r.id == .PERM_LOCK_A || s.lockedBy r

/-- Whether a byte has an odd number of ones. -/
def oddByte (v : Nat) : Bool := ((List.range 8).filter fun i => v.testBit i).length % 2 == 1

/-- Whether the parity bits, one per byte, tell `w` from the word `good` that they were made for. -/
def parityTells (good w : Word) : Bool :=
  (List.range 4).any fun i => oddByte ((good ^^^ w).toNat / 256 ^ i % 256)

/-- The first address of the region that holds address `a` (R386). -/
def regionOf (a : Nat) : Nat :=
  ([0x40000, 0x80000, 0xC0000, 0x100000, 0x200000, 0x300000, 0x310000, 0x400000, 0x800000, 0x1000000, 0x2000000].filter
    (· ≤ a)).foldl max 0

/-- CFGPAR_SCRUB (R317): the scrubber, or a use, checks the register at `a`, in which `v` stands. One copy of three is corrected; a
parity mismatch is reported and freezes the function that owns the register (R318). -/
def cfgparScrubS (a : Nat) (v : Word) (s : State) : State :=
  match regOf a with
  | none => s
  | some r =>
    if s.vetchOff || s.barred a || !r.configuration || r.id.isPairB then s
    else if s.threeCopies r then if v = s.reg a then s else s.bump CFGPAR_CNT.CORRECTED
    else if (s.badAt a).isSome || !parityTells (s.reg a) v then s
    else
      let old := s.reg a
      let t := ((s.put CFGPAR_STAT.LAST_ADDR (a / 4)).put CFGPAR_STAT.MISMATCH 1).put VETCH_STAT.CFGPAR_SEEN 1
      let t := (t.raise 369).log oFault kCFGPAR a old v ((a - regionOf a) / 0x4000)
      thawed a { t with parBad := t.parBad ++ [(a, v)] }

/-! ## The ring (R325 to R327) -/

/-- Whether the ring is full in stop mode. -/
def State.tansyStopped (s : State) : Bool := s.isSet TANSY_CFG.MODE && s.isSet TANSY_WR.FULL

/-- A record is lost at the ring (R327, R418). -/
def tansyLose (s : State) : State := (s.bump TANSY_CNT.LOST).put TANSY_STAT.LOST_SEEN 1

/-- Store one record in the next slot (R326). -/
def tansyPut (r : LogRec) (s : State) : State :=
  let w := s.get TANSY_WR.WR
  let s := s.store (tansySlot w) (r.bytes s.tansySeq)
  let s : State := { s.put TANSY_WR.WR (w + 1) with tansySeq := s.tansySeq + 1 }
  if s.isSet TANSY_CFG.MODE then
    if s.get TANSY_WR.WR = s.get TANSY_RD.RD then
      { (s.put TANSY_WR.FULL 1).put TANSY_STAT.FULL_SEEN 1 with tansyUnrel := tansySlots }
    else { s with tansyUnrel := (s.get TANSY_WR.WR + tansySlots - s.get TANSY_RD.RD) % tansySlots }
  else if s.tansyUnrel < tansySlots then { s with tansyUnrel := s.tansyUnrel + 1 }
  else (s.bump TANSY_CNT.OVERWRITTEN).put TANSY_STAT.WRAPPED 1

/-- The GAP record that follows lost records once there is space (R327). -/
def gapRecord (s : State) : LogRec :=
  ⟨s.mcount, oFault, kGAP, RegId.TANSY_CNT.at, 0, 0, min s.tansyGap 0xFFFF⟩

/-- A staged record as it is stored: the GAP record of R329 carries the tick of its store, as that of R327 does. -/
def LogRec.stored (r : LogRec) (s : State) : LogRec := if r.kind = kGAP then { r with tick := s.mcount } else r

/-- TANSY_STORE (R326, R327, R418): the oldest staged record goes into the ring, or is lost there. -/
def tansyStoreS (s : State) : State :=
  if s.vetchOff || s.boot == .sram then s
  else if s.bankLost 12 then
    match s.tansyQ with
    | [] => s
    | _ :: rest => tansyLose { s with tansyQ := rest, tansyGap := 0 }
  else if s.tansyStopped then
    match s.tansyQ with
    | [] => s
    | _ :: rest => tansyLose { s with tansyQ := rest, tansyGap := s.tansyGap + 1 }
  else if s.tansyGap ≠ 0 && s.tansyQ.length < 256 then
    let r := gapRecord s
    (tansyPut r { s with tansyGap := 0 }).raise 370
  else
    match s.tansyQ with
    | [] => s
    | r :: rest => tansyPut (r.stored s) { s with tansyQ := rest }

end Sys2Proof.Machine
end

