-- ==== Sys2Proof/Machine/Frames.lean ====
section
/-! DEFINITION. The ways to Vetch and to the on-chip memory from outside a register command: BAR0 and BAR2 (R355, R356), the frames of
the serial slave port (R331 to R339), RREQ of a manager (R298), RLD, RST and WRD of an engine (R227, R228), and the boot
image's register list (R368). -/

namespace Sys2Proof.Machine

/-! ## BAR0 and BAR2 -/

/-- One BAR0 access. -/
def bar0Access (a : Nat) (write : Bool) (v : Word) (s : State) : State :=
  if write then (vetchWrite oPcie a v s).2
  else
    let (w, t) := vetchRead oPcie a s
    t.emit (.readData oPcie a (w.getD 0))

/-- BAR0_REQUEST (R355): 1 or 2 DW, aligned, every byte enabled; any other is refused. -/
def bar0RequestS (r : BarRequest) (s : State) : State :=
  let a := r.addr.toNat
  if !s.barOn then s
  else if (r.dws = 1 || r.dws = 2) && r.allBytes && a % (4 * r.dws) = 0 then
    forBelow r.dws (fun i s => bar0Access (a + 4 * i) r.write (r.data.getD i 0) s) s
  else
    let s := barRefused PCIE_STAT.BAR0_BAD s
    if r.write then s else s.emit (.refusedAccess oPcie a)

/-- What a read that meets uncorrectable words does by area (R28), for the areas that BAR2 reaches: of the mirror area, the record of each
word is marked. -/
def handleBad (off n : Nat) (s : State) : State :=
  let l := (touching s.badWords off n).filter fun w => decide (0x01E00000 ≤ 8 * w)
  forList (l.map fun w => (8 * w - 0x01E00000) / 128).dedup mirrorMeets (sramMeets off n s)

/-- Whether a range holds a word in a lost bank whose contents are gone (R29, R418), or an uncorrectable word (R28). -/
def State.readFails (s : State) (off n : Nat) : Bool :=
  ((List.range 16).any fun b => (b == 0 || decide (10 ≤ b)) && s.bankLost b && (List.range n).any fun i => bankOf (off + i) == b) ||
    s.anyBad off n

/-- The completions of a read of `len` bytes from offset `off` (R356): each as long as `mps` allows that ends at a 64 B boundary or with the
request (log entry 121). `fuel` is at least their number. -/
def completions (mps : Nat) : Nat → Nat → Nat → List (Nat × Nat)
  | 0, _, _ => []
  | fuel + 1, off, len =>
    let n := min len ((off + mps) / 64 * 64 - off)
    if len = 0 then [] else (off, n) :: completions mps fuel (off + n) (len - n)

/-- A BAR2 read returns its data. -/
def bar2Data (off len : Nat) (s : State) : List Out :=
  (completions s.maxPayload (len + 1) off len).map fun c => .memData oPcie c.1 (s.bytesAt c.1 c.2)

/-- BAR2_READ (R356, R418). -/
def bar2ReadS (off len : Nat) (s : State) : State :=
  if !s.barOn then s
  else if !(List.range len).all (fun i => barReads (off + i)) then
    (barRefused PCIE_STAT.BAR2_BAD s).emit (.refusedAccess oPcie off)
  else if s.readFails off len then
    (handleBad off len s).emit (.refusedAccess oPcie off .abort)
  else forList (bar2Data off len s) (fun x s => s.emit x) (sramFix off len s)

/-- The enabled bytes of a BAR2 write, with their offsets. -/
def touched (off : Nat) (bs : List (Option Byte)) : List Nat :=
  (bs.zipIdx off).filterMap fun x => if x.1.isSome then some x.2 else none

/-- The payload of a write TLP of `n` bytes from offset `off`, in whole DW. -/
def tlpPayload (off n : Nat) : Nat := (off % 4 + n + 3) / 4 * 4

/-- A malformed TLP (R356): the endpoint discards it, and AER notes it (bit 18 of the base specification; log entry 121). -/
def malformedTlp (s : State) : State := { s with cfg := { s.cfg with aer := s.cfg.aer ||| 0x00040000 } }

/-- BAR2_WRITE (R356): a write to the program store is one program load; a refused one is recorded with the bank of the first refused
offset; one whose payload exceeds Max_Payload_Size is malformed. -/
def bar2WriteS (off : Nat) (bs : List (Option Byte)) (s : State) : State :=
  if !s.barOn then s
  else if s.maxPayload < tlpPayload off bs.length then malformedTlp s
  else
    match (touched off bs).find? fun x => !s.barWrites x with
    | some x => (barRefused PCIE_STAT.BAR2_BAD s).logEvent s RegId.PCIE_STAT.at (bankOf x) oPcie
    | none =>
      match touched off bs with
      | [] => s
      | x :: rest => programLoad oPcie x (rest.length + 1) (bs.drop (x - off)) s

/-! ## The serial slave port (R331 to R339) -/

/-- The words of a stream item of queue `q` (R334): an `ITEM_SZ` of 0b11 counts as 4. -/
def State.streamWords (s : State) (q : Nat) : Nat :=
  let z := s.get QD_CTRL.ITEM_SZ q
  if z = 3 then 4 else 4 * 2 ^ z

/-- Whether the memory word at `a` lies outside what BAR2 may reach. -/
def State.memBad (s : State) (write : Bool) (a : Nat) : Bool := if write then !s.barWrites a else !barReads a

/-- The first check of orders 1 to 4 of R334 that a frame fails, as far as its fields have arrived. -/
def State.sspFails (s : State) (f : SspFrame) : Option Nat :=
  let op := f.op
  let regs := op == 1 || op == 2
  let mem := op == 4 || op == 5
  let reach := if f.hasCount then (List.range f.count).map f.wordAddr else []
  if f.hasCmd && (6 ≤ op || 64 ≤ f.byte 0 || (op == 3 && f.fixed)) then some 1
  else if f.hasCmd && op == 3 && !s.streamEnAt f.ticks then some 0xA
  else if op != 0 && f.hasAddr && (((regs || mem) && f.addr % 4 != 0) ||
      (regs && (0x4000000 ≤ f.addr || reach.any (0x4000000 ≤ ·))) || (op == 3 && 0x8000 ≤ f.addr)) then some 2
  else if mem && f.hasAddr && (s.memBad (op == 5) f.addr || reach.any (s.memBad (op == 5))) then some 9
  else none

/-- The edge after which a frame has failed such a check: that of the command, the address or the count. -/
def State.sspFailEdge (s : State) (f : SspFrame) : Option Nat :=
  [8, f.addrEdge, f.countEdge].find? fun e => decide (e ≤ f.edges) && (s.sspFails (f.upTo e)).isSome

/-- The code of the first failing check of R334 on a frame. A STATUS frame fails no other than LONG and ABORT. -/
def State.sspRejects (s : State) (f : SspFrame) : Option Nat :=
  let op := f.op
  match s.sspFails f with
  | some c => some c
  | none =>
    if op != 0 && f.hasCount && (f.count = 0 || 256 < f.count) then some 3
    else if op == 3 && f.hasCount && f.count % s.streamWords f.addr != 0 then some 7
    else if f.viol && !(f.hasCmd && op == 0) then some 6
    else if f.edges < f.length || (op != 0 && !f.hasCount) then some 4
    else if f.length < f.edges then some 5
    else if f.abort.isSome then some 8
    else none

/-- The status byte (R335). -/
def State.sspStatusByte (s : State) : Byte :=
  let bit := fun (b : Bool) (i : Nat) => if b then 2 ^ i else 0
  let st := (s.org oSsp).stat
  BitVec.ofNat 8 (0x80 + bit s.ssp.prevRej 5 + bit s.ssp.prevPerm 4 + bit s.ssp.prevShort 3 + bit (st.getLsbD 0) 2 +
    bit (st.getLsbD 1) 1 + bit s.irqLow 0)

/-- A read word comes back: SRDY is low until it is there (R337); with the word, whether it was refused, and the words before it. -/
def sspWord (r : Bool × List Byte) (bad : Bool) (w : Word) (out : Out) (s : State) : (Bool × List Byte) × State :=
  ((r.1 || bad, r.2 ++ leBytes 4 w.toNat), ((s.emit (.srdy false)).emit out).emit (.srdy true))

/-- Serve the `n` first words of a READ frame as direct reads, in order; the flag tells of a refused one, which reads 0 (R336). -/
def sspReadWords (f : SspFrame) (n : Nat) (s : State) : (Bool × List Byte) × State :=
  (List.range n).foldl (fun (r, s) i =>
    let (w, t) := vetchRead oSsp (f.wordAddr i) s
    sspWord r w.isNone (w.getD 0) (.readData oSsp (f.wordAddr i) (w.getD 0)) t) ((false, []), s)

/-- Serve the `n` first words of a MEMREAD frame: a word of a lost bank, or an uncorrectable one, reads 0 (R418). -/
def sspMemWords (f : SspFrame) (n : Nat) (s : State) : (Bool × List Byte) × State :=
  (List.range n).foldl (fun (r, s) i =>
    let a := f.wordAddr i
    if s.readFails a 4 then sspWord r false 0 (.memData oSsp a [0, 0, 0, 0]) (handleBad a 4 s)
    else sspWord r false (s.word a) (.memData oSsp a (s.bytesAt a 4)) (sramFix a 4 s)) ((false, []), s)

/-- Apply the `n` first words of a WRITE frame in order (R336). -/
def sspWriteWords (f : SspFrame) (n : Nat) (s : State) : Bool × State :=
  (List.range n).foldl (fun (bad, s) i =>
    let (b, t) := vetchWrite oSsp (f.wordAddr i) (f.word i) s
    (bad || b, t)) (false, s)

/-- Apply the `n` first words of a MEMWRITE frame: one program load (R336). -/
def sspMemWrite (f : SspFrame) (n : Nat) (s : State) : State :=
  let ws := if f.fixed then [f.word (n - 1)] else (List.range n).map f.word
  if n = 0 then s else programLoad oSsp f.addr (4 * n) ((ws.flatMap fun w => leBytes 4 w.toNat).map some) s

/-- Submit items, each of `size` bytes, until the first refusal: how many were accepted, the first sequence and the refusing
status (R339). -/
def streamItems (q size : Nat) : List (List Byte) → Nat → Nat → State → Nat × Nat × Nat × State
  | [], n, first, s => (n, first, 0, s)
  | b :: bs, n, first, s =>
    let (st, seq, t) := submitBytes q (s.classOf oSsp) b s
    if st = 0 then streamItems q size bs (n + 1) (if n = 0 then seq else first) t else (n, first, st, t)

/-- Item `j` of a STREAM frame, of `k` words (R339). -/
def sspItem (f : SspFrame) (k j : Nat) : List Byte := (List.range k).flatMap fun i => leBytes 4 (f.word (k * j + i)).toNat

/-- The items in the first words of a STREAM frame (R339): the flag tells of items left unsubmitted. A rejected frame, of which no
word acts, changes nothing (R334). -/
def sspStreamDo (f : SspFrame) (words : Nat) (s : State) : Bool × State :=
  if words = 0 then (false, s) else
  let q := f.addr
  let k := s.streamWords q
  let (n, first, st, s) := streamItems q (4 * k) ((List.range (words / k)).map (sspItem f k)) 0 0 s
  let s := ((s.put SSP_STREAM.QUEUE q).put SSP_STREAM.ACCEPTED n).put SSP_STREAM.LAST_ST st
  let s := s.setWide aSSP_STRSEQ first
  (st != 0, s.when (st != 0) (·.put SSP_STAT.SHORT_SEEN 1))

/-- A rejected frame (R334). -/
def sspReject (c : Nat) (s : State) : State :=
  let t := ((s.put SSP_STAT.REJ_SEEN 1).put SSP_STAT.LAST_REJ c).bump SSP_CNT.REJECTS
  (t.raise 371).logEvent s RegId.SSP_STAT.at c oSsp

/-- What the `n` first words of a frame that reads give: whether an access was refused, with the data. -/
def sspGive (f : SspFrame) (n : Nat) (s : State) : (Bool × List Byte) × State :=
  if f.op = 1 then sspReadWords f n s else if f.op = 4 then sspMemWords f n s else ((false, []), s)

/-- What the `n` first words of a frame that writes do: whether an access was refused, and whether items were left. -/
def sspApply (f : SspFrame) (n : Nat) (s : State) : (Bool × Bool) × State :=
  if f.op = 2 then
    let (b, t) := sspWriteWords f n s
    ((b, false), t)
  else if f.op = 3 then
    let (b, t) := sspStreamDo f n s
    ((false, b), t)
  else if f.op = 5 then ((false, false), sspMemWrite f n s)
  else ((false, false), s)

/-- How many words a frame that is rejected with code `c` has been given before: reads served while it ran (R334). -/
def sspServed (f : SspFrame) (c : Nat) : Nat := if [3, 4, 5, 6, 8].contains c && f.hasCount then f.served else 0

/-- How many of its words a frame that is rejected with code `c` has applied: those before the reset that cut it off (R341, R350). -/
def sspKept (f : SspFrame) (c : Nat) : Nat := if c = 8 then min (f.abort.getD 0) f.count else 0

/-- SSEL_N has risen: SRDY is low while `body` does what is left to do (R337), and the frame counts. The status of the next frame tells that
this one was rejected (`rej`), that an access was refused, in it or in the words read before (`perm`), and that items were left. Where the
frame's own words have reset the part, nothing of it stays after a cold reset (R341), and after a warm reset it reports ABORT, whichever
of its words that was (R350; DESIGN CHOICE, log entry 137). -/
def sspEnd (f : SspFrame) (rej perm : Bool) (body : State → (Bool × Bool) × State) (s : State) : State :=
  let ready := !s.vetchOff
  let ((bad, short), s) := body (s.when (ready && f.stretches rej) (·.emit (.srdy false)))
  if s.coldHeld then s
  else
    let cut := ready && s.warm
    let s := s.when cut (sspReject 8)
    let s := ((s.bump SSP_CNT.FRAMES).put SSP_STAT.MODE3 (if f.mode3 then 1 else 0)).put SSP_STAT.QUAD (if f.hasCmd && f.quad then 1 else 0)
    let s := s.when f.viol (·.put SSP_STAT.VIOL_SEEN 1)
    let s := s.when (!s.vetchOff && f.stretches rej) (·.emit (.srdy true))
    { s with ssp := { s.ssp with prevRej := rej || cut, prevPerm := perm || bad, prevShort := short } }

/-- A frame of opcode `want` ends: SSEL_N rises (R331 to R339). The port does not answer before it is ready, or while the control die is
lost; in a warm reset it judges the frame that the reset cut off (R341). A frame of another opcode is another command's. -/
def sspFrame (want : Nat) (f : SspFrame) (s : State) : State :=
  let off := s.vetchOff
  if (off && !(f.abort.isSome && !s.cdGone)) || s.boot == .sram || (f.hasCmd && f.op < 6 && f.op != want) then s
  else
    let status := s.sspStatusByte
    let judged := s.sspRejects f
    let given := if off then 0 else judged.elim f.count (sspServed f)
    let ((perm, data), t) := sspGive f given (s.when f.hasCmd (·.emit (.sspStatus status)))
    let t := t.emit (.sio (f.driven status (s.sspFailEdge f) data))
    match judged with
    | some c =>
      sspEnd f true perm (fun t =>
        let ((bad, _), t) := sspApply f (if off then 0 else sspKept f c) t
        ((bad, false), sspReject c t)) t
    | none => sspEnd f false perm (sspApply f f.count) t

/-! ## Remote access at a worker (R298) -/

/-- RREQ: the worker performs the access as the origin of the link, and answers RRSP. Vetch refuses a link that is not the admitted
upstream link every access (R320). -/
def rxRreqS (l : Nat) (f : RyFrame) (s : State) : State :=
  receive l fRREQ f (routed fRREQ f fun s =>
    let a := pfld f.payload 0 4
    let v := BitVec.ofNat 32 (pfld f.payload 4 4)
    let tag := pfld f.payload 9 1
    let answer := fun (x : Word) (st : Nat) (s : State) =>
      sendFrame l fRRSP 0 (leBytes 4 x.toNat ++ leBytes 1 st ++ leBytes 3 tag) s
    if pfld f.payload 8 1 % 2 = 1 then
      let (bad, t) := vetchWrite (0x110 + l) a v s
      answer 0 (if bad then 2 else 0) t
    else
      let (w, t) := vetchRead (0x110 + l) a s
      answer (w.getD 0) (if w.isNone then 2 else 0) t) s

/-! ## Register access by an engine (R227, R228) -/

/-- The register address of RLD and RST. -/
def State.regAddr (s : State) (e : Nat) (a : GReg) (imm : BitVec 16) : Nat := (s.gr e a + sx16 imm).toNat

/-- Whether RLD and RST raise RACC before any access: the address is unaligned, reserved, a wide value or in the mailbox page (R310). -/
def raccAddr (a : Nat) : Bool := mailboxAt a || reservedAt a

/-- A write that engine `e` makes: RACC where it is refused (R227, R310, R322). A write to a reserved address is refused too, and
recorded as R304 says. -/
def engineWrite (e a : Nat) (v : Word) (s : State) : Bool × State :=
  if s.vetchOff then (false, s)
  else
    let (bad, t) := vetchWrite e a v s
    let bad := bad || raccAddr a
    (bad, if bad then handlerFault e fRACC t else t)

/-- A read that engine `e` makes: the word, or none with the fault. -/
def engineRead (e a : Nat) (s : State) : Option Word × State :=
  if s.vetchOff then (some 0, s)
  else if raccAddr a then (none, handlerFault e fRACC s)
  else
    match vetchRead e a s with
    | (some w, t) => (some w, t)
    | (none, t) => (none, handlerFault e fRACC t)

def execCRld (e : EngineIx) (d a : GReg) (imm : BitVec 16) (s : State) : Res :=
  .next (runCelil e [encI 0x15 d a imm.toNat] (fun s =>
    match engineRead e (s.regAddr e a imm) s with
    | (some w, t) => writeNext e d (w.setWidth 64) t
    | (none, t) => t) s)

def execCRst (e : EngineIx) (d a : GReg) (imm : BitVec 16) (s : State) : Res :=
  .next (runCelil e [encI 0x16 d a imm.toNat] (fun s =>
    let x := s.regAddr e a imm
    let v := (s.gr e d).setWidth 32
    if (vetchWrite e x v s).1 || raccAddr x then handlerFault e fRACC (vetchWrite e x v s).2
    else (vetchWrite e x v (advance e 1 s)).2) s)

/-- WRD: what a value on a lost chiplet reads as is open. -/
def execCWrd (e : EngineIx) (a : GReg) (dest : WrdDest) (s : State) : Res :=
  .next (runCelil e [encWrd a dest] (fun s =>
    let x := (s.gr e a).toNat
    let odd := match dest with | .pair c => c.val % 2 == 1 | .time _ => false
    if odd then handlerFault e fOPERAND s
    else
      match s.wideOf x with
      | none => handlerFault e fRACC s
      | some w =>
        let fits := match dest with | .pair _ => decide (w.width ≤ 128) | .time _ => w.width == 80
        if !fits then handlerFault e fOPERAND s
        else if !s.mayAccess e x false then handlerFault e fRACC (countRefusal s)
        else
          let (v, s) := if s.snapLost x then s.free w.width else (w.val % 2 ^ w.width, s)
          match dest with
          | .pair c => writeNext e (c.val + 1) (BitVec.ofNat 64 (v / 2 ^ 64)) (setGr e c (BitVec.ofNat 64 v) s)
          | .time t => advance e 1 (setTr e t (BitVec.ofNat 80 v) s)) s)

/-! ## The boot image's register list (R366 steps 6 and 7, R368) -/

/-- Entry `i` of the list of slot `k`. -/
def State.listEntry (s : State) (k i : Nat) : Nat × Word :=
  let b := slotBase k + 0x1000 + 8 * i
  (s.nvmWord b, BitVec.ofNat 32 (s.nvmWord (b + 4)))

/-- Apply one list entry: a direct write from origin 0x182, or a skip. -/
def listApply (x : Nat × Word) (s : State) : State :=
  if [0x004, 0x020, 0x024, 0x120, 0x124].contains x.1 then s.put BOOT_STAT.LIST_ERR 1 else (vetchWrite oNvm x.1 x.2 s).2

/-- BOOT_LIST_APPLY (R366 steps 6 and 7): once every half has locked or been declared failed, the list is applied and the T1024 enters
SL1, from which the capacity faults and `ALL_CONV` take it on (R372). -/
def bootListApplyS (s : State) : State :=
  if s.boot ≠ .list || s.vetchOff || s.bootWait = 4 then s
  else
    let k := s.get BOOT_STAT.SRC
    let n := if k < 2 then (s.slotHead k).entries else 0
    let s := (List.range n).foldl (fun s i => listApply (s.listEntry k i) s) s
    let s := refreshLevel (setLevel 1 { s with boot := .up })
    checkStarveAll (forBelow 8 (fun n s => if s.chipLost n then s else masterChip n s) s)

end Sys2Proof.Machine
end

