-- ==== Sys2Proof/Machine/Rows.lean ====
section
/-! DEFINITION. The shapes that the rows of the opcode table share: an event of the part, an event of one chiplet, a register write,
and a paired write. -/

namespace Sys2Proof.Machine

/-- An event: while a cold reset is held nothing happens in the part (R364, R365). -/
def act (f : State → State) (s : State) : Res := .next (if s.coldHeld then s else f s)

/-- An event on chiplet `n`: a lost chiplet has none (R35). -/
def actOn (n : Nat) (f : State → State) (s : State) : Res :=
  .next (if s.coldHeld || s.chipDead n then s else f s)

/-- Origin `o`'s write of `v` at register address `a`: whether it is refused, and the state. An engine's handler faults on a
refusal (R322), and the host's do not arrive while the endpoint serves no BAR request (R354). -/
def originWrite (o a : Nat) (v : Word) (s : State) : Bool × State :=
  if !s.busOn o then (false, s)
  else if o < 256 then engineWrite o a v s else vetchWrite o a v s

/-- Origin `o` writes `v` at register address `a`. -/
def busWrite (o : Origin) (a : Nat) (v : Word) (s : State) : Res := .next (originWrite o.toNat a v s).2

/-- Origin `o` writes the pair whose `_A` lies at `a`: `v` there and its complement to the `_B` (R314). A handler that faulted at the
first makes no second write. -/
def busPair (o : Origin) (a : Nat) (v : Word) (s : State) : Res :=
  let (bad, t) := originWrite o.toNat a v s
  if bad && decide (o.toNat < 256) then .next t else .next (originWrite o.toNat (a + 4) (~~~v) t).2

/-- R29: the banks that have returned uncorrectable errors on four distinct rows within 1 ms are declared lost. -/
def bankTick (s : State) : State :=
  forList ((List.range 16).filter s.bankFails) membankS s

/-- A tick of the conditioned clock, which an empty queue lets pass: the channels act on what waits for the boundary (R159, R165),
and re-initialised engines return (R207), links that are down retrain (R279), replays go on (R295), held writes reach the select
pins (R345), and a bank whose errors meet R29 is declared lost. The clock stands still while a cold reset is held (R366). -/
def tick (s : State) : State :=
  if s.coldHeld then s
  else bankTick (smTick (replayTurns (retrain (engReturns (chanBoundary { s with clock := s.clock + 1 })))))

end Sys2Proof.Machine
end

