-- ==== Sys2Proof/Machine/Access.lean ====
section
/-! DEFINITION. The rows of the bus: mailboxes, register accesses, alias and paired writes, Tansy, the serial slave port, PCIe and
events. -/

namespace Sys2Proof.Machine

/-- A direct read on the bus: what it returns goes out; a refused read returns 0, and faults an engine's handler (R322). The host's does not
arrive while the endpoint serves no BAR request (R354). -/
def readOut (o a : Nat) (s : State) : State :=
  if s.vetchOff || !s.busOn o then s
  else
    let (w, t) := if o < 256 then engineRead o a s else vetchRead o a s
    t.emit (.readData o a (w.getD 0))

/-- MAILBOX_SUBMIT (R189). `MB_REQ` is written with OP = 2. -/
def execMailboxSubmit (o : Origin) (v : Word) (s : State) : Res := busWrite o (0x40000) (withField v 24 4 2) s

/-- MAILBOX_TAKE (R193). `MB_REQ` is written with OP = 3. -/
def execMailboxTake (o : Origin) (v : Word) (s : State) : Res := busWrite o (0x40000) (withField v 24 4 3) s

/-- MAILBOX_SNAP (R311). `MB_REQ` is written with OP = 1. -/
def execMailboxSnap (o : Origin) (v : Word) (s : State) : Res := busWrite o (0x40000) (withField v 24 4 1) s

/-- MAILBOX_COMPLETE (R311). -/
def execMailboxComplete (o : Origin) (s : State) : Res := act (mailboxCompleteS o.toNat) s

/-- RACC_GO (R298). `RY_RACC_CTRL` is written with `GO` = 1. -/
def execRaccGo (o : Origin) (v : Word) (s : State) : Res := busWrite o (RegId.RY_RACC_CTRL.at) (withField v 9 1 1) s

/-- REGISTER_WRITE (R306). A direct write, or a write at any address that the origin chooses. -/
def execRegisterWrite (o : Origin) (a : RegAddr) (v : Word) (s : State) : Res := busWrite o (a.toNat) v s

/-- REGISTER_READ_CLEAR (R309). -/
def execRegisterReadClear (o : Origin) (a : RegAddr) (s : State) : Res := .next (readOut o.toNat a.toNat s)

/-- ALIAS_SET (R302). `a` is the register's base address. -/
def execAliasSet (o : Origin) (a : RegAddr) (v : Word) (s : State) : Res := busWrite o (a.toNat + 0x1000) v s

/-- ALIAS_CLEAR (R302). `a` is the register's base address. -/
def execAliasClear (o : Origin) (a : RegAddr) (v : Word) (s : State) : Res := busWrite o (a.toNat + 0x2000) v s

/-- ALIAS_TOGGLE (R302). `a` is the register's base address. -/
def execAliasToggle (o : Origin) (a : RegAddr) (v : Word) (s : State) : Res := busWrite o (a.toNat + 0x3000) v s

/-- PAIR_OPEN (R314). `a` is the address of a pair's `_A`. -/
def execPairOpen (o : Origin) (a : RegAddr) (v : Word) (s : State) : Res := busWrite o (a.toNat) v s

/-- PAIRED_WRITE (R314). The complement of `v` goes to the `_B` after the `_A` at `a`. -/
def execPairedWrite (o : Origin) (a : RegAddr) (v : Word) (s : State) : Res := busWrite o (a.toNat + 4) (~~~v) s

/-- PERM_LOCK_SET (R323). A paired write of `LOCK` = 1; the other bits as they stand. -/
def execPermLockSet (o : Origin) (s : State) : Res :=
  busPair o (RegId.PERM_LOCK_A.at) (withField (s.reg RegId.PERM_LOCK_A.at) 0 1 1) s

/-- TEST_MODE_WRITE (R303). -/
def execTestModeWrite (o : Origin) (v : Word) (s : State) : Res := busPair o (RegId.TEST_CTRL_A.at) v s

/-- CFGPAR_SCRUB (R317). Each check of one register: the word that stands at `a` is `v`. -/
def execCfgparScrub (a : RegAddr) (v : Word) (s : State) : Res := act (cfgparScrubS a.toNat v) s

/-- TANSY_STORE (R326). -/
def execTansyStore (s : State) : Res := act (tansyStoreS) s

/-- TANSY_RD_WRITE (R326). -/
def execTansyRdWrite (o : Origin) (v : Word) (s : State) : Res := busWrite o (RegId.TANSY_RD.at) v s

/-- SSP_STATUS (R335). -/
def execSspStatus (f : SspFrame) (s : State) : Res := act (sspFrame 0 f) s

/-- SSP_READ (R336). -/
def execSspRead (f : SspFrame) (s : State) : Res := act (sspFrame 1 f) s

/-- SSP_WRITE (R336). -/
def execSspWrite (f : SspFrame) (s : State) : Res := act (sspFrame 2 f) s

/-- SSP_STREAM (R339). -/
def execSspStream (f : SspFrame) (s : State) : Res := act (sspFrame 3 f) s

/-- SSP_MEMREAD (R336). -/
def execSspMemread (f : SspFrame) (s : State) : Res := act (sspFrame 4 f) s

/-- SSP_MEMWRITE (R336). -/
def execSspMemwrite (f : SspFrame) (s : State) : Res := act (sspFrame 5 f) s

/-- BAR0_REQUEST (R355). -/
def execBar0Request (r : BarRequest) (s : State) : Res := act (bar0RequestS r) s

/-- BAR2_READ (R356). -/
def execBar2Read (off : BitVec 25) (len : Nat) (s : State) : Res := act (bar2ReadS off.toNat len) s

/-- BAR2_WRITE (R356). -/
def execBar2Write (off : BitVec 25) (bytes : List (Option Byte)) (s : State) : Res := act (bar2WriteS off.toNat bytes) s

/-- PCIE_RESET (R354). Each of the four is treated alike. -/
def execPcieReset (k : EndpointReset) (s : State) : Res :=
  match k with
  | .fundamental | .hot | .linkDown | .flr => act pcieResetS s

/-- PCIE_D3HOT (R354). -/
def execPcieD3hot (s : State) : Res := act (pcieD3hotS) s

/-- EVENT_RAISE (R357). -/
def execEventRaise (s : State) : Res := act (eventRaiseS) s

/-- MSIX_MODERATION_END (R359). -/
def execMsixModerationEnd (v : VectorIx) (s : State) : Res := act (msixModerationEndS v.val) s

/-- MSIX_UNMASK (R359). -/
def execMsixUnmask (w : Unmask) (s : State) : Res := act (msixUnmaskS w) s

/-- PCIE_LINK_UP (R352). -/
def execPcieLinkUp (speed : Fin 5) (width : Fin 9) (s : State) (host : HostCfg := {}) : Res := act (pcieLinkUpS speed.val width.val host) s

/-- PCIE_D3HOT_EXIT (R354). -/
def execPcieD3hotExit (s : State) : Res := act (pcieD3hotExitS) s

end Sys2Proof.Machine
end

