-- ==== Sys2Proof/Machine/CoreRows.lean ====
section
/-! DEFINITION. The rows of the synthesis cores: words, locks, searches, hops, relocks, failovers and their calibration. -/

namespace Sys2Proof.Machine

/-- Whether core `c` is frozen (R318): its HOPs, commits and power changes are discarded. -/
def State.coreFrozen (s : State) (c : Nat) : Bool := s.frozen (RegId.CORE_CTRL.at c)

/-- A pending commit of a frozen core is discarded. -/
def dropFrozenCommit (c h : Nat) (s : State) : State :=
  if (s.half c h).pend.isSome then discardFrozen (dropPending c h s) else s

/-- HALF_WORD_APPLY with R318. -/
def halfWordApply (c h : Nat) (s : State) : State :=
  if s.coreFrozen c then dropFrozenCommit c h s else halfWordApplyS c h s

/-- HALF_READY with R318; the ports follow. -/
def halfReady (c h : Nat) (s : State) : State :=
  if s.powered c h && !s.isSet HALF_STAT.READY c h then
    refreshPorts c (halfReadyS c h (if s.coreFrozen c then dropFrozenCommit c h s else s))
  else s

/-- HOP_WINDOW_OPEN with R318: at W a frozen core's hop is discarded. -/
def hopWindowOpen (c : Nat) (s : State) : State :=
  if s.coreFrozen c then
    match s.hopIn c .pingPong with
    | none => s
    | some a =>
      if (s.core c).hop.isSome || a.dead || decide (s.count (c / 8) < a.due - a.lead) then s
      else discardFrozen (dropAdmitted (c / 8) a s)
  else hopWindowOpenS c s

/-- HOP_SWITCH with R318: a hop whose core has frozen is discarded at Ts, and its window closes. -/
def hopSwitch (c : Nat) (s : State) : State :=
  if s.coreFrozen c then
    match s.hopIn c .pingPong with
    | none => s
    | some a =>
      if s.count (c / 8) < a.due || s.othersDue (c / 8) a then s
      else if a.dead then takeHop c a s
      else discardFrozen (closeWindow c (takeHop c a s))
  else hopSwitchS c s

/-- The next action of core `c`'s chiplet, if it is a HOP of class `cls` on the core. -/
def State.nextHop (s : State) (c : Nat) (cls : HopClass) : Option Admitted :=
  (s.nextAction (c / 8)).filter fun a =>
    a.cls == cls && (match a.hopOf with | some (k, _, _) => k == c | none => false)

/-- An in-place or relock HOP on a frozen core is discarded at Ts (R318). -/
def dropFrozenHop (c : Nat) (cls : HopClass) (s : State) : State :=
  match s.nextHop c cls with
  | none => s
  | some a => if a.dead then takeHop c a s else discardFrozen (takeHop c a s)

/-- HOP_INPLACE with R318. -/
def hopInplace (c : Nat) (s : State) : State := if s.coreFrozen c then dropFrozenHop c .inPlace s else hopInplaceS c s

/-- RELOCK_START with R318. -/
def relockStart (c : Nat) (s : State) : State := if s.coreFrozen c then dropFrozenHop c .relock s else relockStartS c s

/-- RELOCK_WORD_LOAD with R318: a core that has frozen keeps its word, and the relock is over. -/
def relockWordLoad (c : Nat) (s : State) : State :=
  match (s.core c).relock with
  | some r =>
    if s.coreFrozen c && !r.loaded then refreshPorts c (leaveUnmoved c (endRelock c (discardFrozen s))) else relockWordLoadS c s
  | none => s

/-- HALF_COMMIT (R81). `HALF_CMD` is written with `COMMIT` = 1. -/
def execHalfCommit (o : Origin) (c : CoreIx) (h : HalfIx) (v : Word) (s : State) : Res :=
  busWrite o (RegId.HALF_CMD.at c h) (withField v 0 1 1) s

/-- HALF_WORD_APPLY (R83). -/
def execHalfWordApply (c : CoreIx) (h : HalfIx) (s : State) : Res := actOn (c.val / 8) (halfWordApply c h) s

/-- CORE_POWER_WRITE (R85). -/
def execCorePowerWrite (o : Origin) (c : CoreIx) (v : Word) (s : State) : Res := busWrite o (RegId.CORE_CTRL.at c) v s

/-- HALF_READY (R85). -/
def execHalfReady (c : CoreIx) (h : HalfIx) (s : State) : Res := actOn (c.val / 8) (halfReady c h) s

/-- LD_CFG_WRITE (R88). -/
def execLdCfgWrite (o : Origin) (c : CoreIx) (h : HalfIx) (v : Word) (s : State) : Res := busWrite o (RegId.LD_CFG.at c h) v s

/-- LD_WINDOW_END (R87). -/
def execLdWindowEnd (c : CoreIx) (h : HalfIx) (d : Int) (vtune : BitVec 8) (s : State) : Res :=
  actOn (c.val / 8) (ldWindowEndS c h d vtune.toNat) s

/-- GROSS_MONITOR_WINDOW (R89). -/
def execGrossMonitorWindow (c : CoreIx) (h : HalfIx) (d : Int) (s : State) : Res := actOn (c.val / 8) (grossMonitorWindowS c h d) s

/-- GROSS_NO_FEEDBACK (R89). -/
def execGrossNoFeedback (c : CoreIx) (h : HalfIx) (s : State) : Res := actOn (c.val / 8) (grossNoFeedbackS c h) s

/-- BAND_SEARCH_STEP (R252). -/
def execBandSearchStep (c : CoreIx) (h : HalfIx) (count span : Nat) (s : State) : Res :=
  actOn (c.val / 8) (bandSearchStepS c h count span) s

/-- HOP_WINDOW_OPEN (R104). -/
def execHopWindowOpen (c : CoreIx) (s : State) : Res := actOn (c.val / 8) (hopWindowOpen c) s

/-- HOP_PRELOCK_DONE (R105). -/
def execHopPrelockDone (c : CoreIx) (s : State) : Res := actOn (c.val / 8) (hopPrelockDoneS c) s

/-- HOP_PLACEMENT_DONE (R106). -/
def execHopPlacementDone (c : CoreIx) (rot : Word) (resid : Int) (s : State) : Res :=
  actOn (c.val / 8) (hopPlacementDoneS c rot resid) s

/-- HOP_READINESS_TEST (R107). -/
def execHopReadinessTest (c : CoreIx) (s : State) : Res := actOn (c.val / 8) (hopReadinessTestS c) s

/-- HOP_SWITCH (R109). -/
def execHopSwitch (c : CoreIx) (s : State) : Res := actOn (c.val / 8) (hopSwitch c) s

/-- POST_SWITCH_GUARD_FAIL (R109). -/
def execPostSwitchGuardFail (c : CoreIx) (s : State) : Res := actOn (c.val / 8) (postSwitchGuardFailS c) s

/-- HOP_INPLACE (R117). -/
def execHopInplace (c : CoreIx) (s : State) : Res := actOn (c.val / 8) (hopInplace c) s

/-- RELOCK_START (R115). -/
def execRelockStart (c : CoreIx) (s : State) : Res := actOn (c.val / 8) (relockStart c) s

/-- RELOCK_WORD_LOAD (R115). -/
def execRelockWordLoad (c : CoreIx) (s : State) : Res := actOn (c.val / 8) (relockWordLoad c) s

/-- RELOCK_RELEASE (R115). -/
def execRelockRelease (c : CoreIx) (rot : Word) (resid : Int) (s : State) : Res := actOn (c.val / 8) (relockReleaseS c rot resid) s

/-- RELOCK_TIMEOUT (R115). -/
def execRelockTimeout (c : CoreIx) (s : State) : Res := actOn (c.val / 8) (relockTimeoutS c) s

/-- CEIL_GUARD_WINDOW (R134). -/
def execCeilGuardWindow (c : CoreIx) (h : HalfIx) (count : Nat) (s : State) : Res :=
  actOn (c.val / 8) (ceilGuardWindowS c h count) s

/-- FAILOVER_SPARE_LOAD (R139). -/
def execFailoverSpareLoad (c : CoreIx) (s : State) : Res := actOn (c.val / 8) (failoverSpareLoadS c) s

/-- FAILOVER_SEARCH_DONE (R139). -/
def execFailoverSearchDone (c : CoreIx) (s : State) : Res := actOn (c.val / 8) (failoverSearchDoneS c) s

/-- FAILOVER_PRELOCK_DONE (R139). -/
def execFailoverPrelockDone (c : CoreIx) (s : State) : Res := actOn (c.val / 8) (failoverPrelockDoneS c) s

/-- FAILOVER_PLACED (R139). -/
def execFailoverPlaced (c : CoreIx) (rot : Word) (resid : Int) (s : State) : Res :=
  actOn (c.val / 8) (failoverPlacedS c rot resid) s

/-- LG_CONFIG_WRITE (R144). Word 0 is `LG_MEM_LO`, 1 `LG_MEM_HI`, 2 `LG_SPARE`. -/
def execLgConfigWrite (o : Origin) (g : Fin 16) (w : Fin 3) (v : Word) (s : State) : Res :=
  busWrite o ((if w.val = 0 then RegId.LG_MEM_LO else if w.val = 1 then RegId.LG_MEM_HI else RegId.LG_SPARE).at g) v s

/-- LMS_BLOCK_END (R255). -/
def execLmsBlockEnd (c : CoreIx) (h : HalfIx) (move : Int) (s : State) : Res :=
  actOn (c.val / 8) (fun s => if ((s.half c h).inst false).run.isSome then calMeets 0 (lmsBlockEndS c h move) s else s) s

/-- DTC_BLOCK_END (R255). -/
def execDtcBlockEnd (c : CoreIx) (h : HalfIx) (move : Int) (bins : List (Nat × Int)) (s : State) : Res :=
  actOn (c.val / 8) (fun s => if ((s.half c h).inst true).run.isSome then calMeets 1 (dtcBlockEndS c h move bins) s else s) s

/-- TRIM_BOUNDARY (R248). -/
def execTrimBoundary (c : CoreIx) (h : HalfIx) (s : State) : Res := actOn (c.val / 8) (trimBoundaryS c h) s

/-- HALF_BOOT_LOCK_TIMEOUT (R376). -/
def execHalfBootLockTimeout (c : CoreIx) (h : HalfIx) (s : State) : Res := actOn (c.val / 8) (halfBootLockTimeoutS c h) s

/-- HALF_RELOCK_TIMEOUT (R376). -/
def execHalfRelockTimeout (c : CoreIx) (h : HalfIx) (s : State) : Res := actOn (c.val / 8) (halfRelockTimeoutS c h) s

end Sys2Proof.Machine
end

