-- ==== Sys2Proof/Machine/PortRows.lean ====
section
/-! DEFINITION. The rows of the ports, of Teasel, and of the timed actions that apply to them. -/

namespace Sys2Proof.Machine

/-- PORT_WORD_APPLY with R318: a frozen port's commit is discarded. -/
def portWordApply (p : Nat) (s : State) : State :=
  if s.frozen (RegId.PORT_CFG.at p) then
    match (s.port p).captured with
    | some _ => discardFrozen ((s.setPort p { s.port p with captured := none }).put PORT_CMD.COMMIT 0 p)
    | none => s
  else portWordApplyS p s

/-- ACTION_SEND (R13). -/
def execActionSend (n : ChipletIx) (q : QueueIx) (s : State) : Res := act (actionSendS n q) s

/-- ACTION_ARRIVE (R18). -/
def execActionArrive (n : ChipletIx) (s : State) : Res := actOn (n.val) (actionArriveS n) s

/-- ABORT_VERDICT_ARRIVE (R203). -/
def execAbortVerdictArrive (s : State) : Res := act (abortVerdictArriveS) s

/-- PHASE_APPLY (R131). -/
def execPhaseApply (n : ChipletIx) (s : State) : Res := actOn (n.val) (phaseApplyS n) s

/-- PORTSET_APPLY (R124). -/
def execPortsetApply (n : ChipletIx) (s : State) : Res := actOn (n.val) (portsetApplyS n) s

/-- MARK_APPLY (R129). -/
def execMarkApply (n : ChipletIx) (s : State) : Res := actOn (n.val) (markApplyS n) s

/-- ARM_APPLY (R160). -/
def execArmApply (n : ChipletIx) (s : State) : Res := actOn (n.val) (armApplyS n) s

/-- DISARM_APPLY (R159). -/
def execDisarmApply (n : ChipletIx) (s : State) : Res := actOn (n.val) (disarmApplyS n) s

/-- PORT_COMMIT (R125). `PORT_CMD` is written with `COMMIT` = 1. -/
def execPortCommit (o : Origin) (p : PortIx) (v : Word) (s : State) : Res := busWrite o (RegId.PORT_CMD.at p) (withField v 0 1 1) s

/-- PORT_WORD_APPLY (R124). -/
def execPortWordApply (p : PortIx) (s : State) : Res := actOn (p.val / 128) (portWordApply p) s

/-- MARKER_PULSE (R129). -/
def execMarkerPulse (p : PortIx) (s : State) : Res := actOn (p.val / 128) (markerPulseS p) s

/-- PORT_CEIL_WRITE (R132). -/
def execPortCeilWrite (o : Origin) (p : PortIx) (v : Word) (s : State) : Res := busWrite o (RegId.PORT_CEIL.at p) v s

/-- PORT_MEN_WRITE (R135). -/
def execPortMenWrite (o : Origin) (v : Word) (s : State) : Res := busPair o (RegId.PORT_MEN_A.at) v s

/-- HOLD_LIMIT_EXPIRY (R137). -/
def execHoldLimitExpiry (p : PortIx) (s : State) : Res := actOn (p.val / 128) (holdLimitExpiryS p) s

/-- SKEW_MEAN_DONE (R145). -/
def execSkewMeanDone (p : PortIx) (mean : Int) (s : State) : Res := actOn (p.val / 128) (skewMeanDoneS p mean) s

/-- SKEW_OFFSET_DONE (R146). -/
def execSkewOffsetDone (p : PortIx) (offset : Int) (s : State) : Res := actOn (p.val / 128) (skewOffsetDoneS p offset) s

/-- SKEW_TRIM_STEP (R147). -/
def execSkewTrimStep (p : PortIx) (s : State) : Res := actOn (p.val / 128) (skewTrimStepS p) s

/-- PORT_TRIM_WRITE (R147). -/
def execPortTrimWrite (o : Origin) (p : PortIx) (v : Word) (s : State) : Res := busWrite o (RegId.PORT_TRIM.at p) v s

/-- TEASEL_EDGE (R154). -/
def execTeaselEdge (k : ChannelIx) (fall : Bool) (frac : BitVec 16) (s : State) : Res :=
  actOn (chanChip k) (teaselEdgeS k fall frac.toNat) s

/-- SAMPLE_TAKE (R161). -/
def execSampleTake (k : ChannelIx) (s : State) : Res := actOn (chanChip k) (sampleTakeS k) s

/-- MEAS_TIMEOUT (R166). -/
def execMeasTimeout (k : ChannelIx) (s : State) : Res := actOn (chanChip k) (measTimeoutS k) s

/-- MEASDONE (R168). -/
def execMeasDone (k : ChannelIx) (s : State) : Res := actOn (chanChip k) (measDoneS k) s

/-- TS_REG_ARM (R159). `TS_CMD` is written with `ARM` = 1. -/
def execTsRegArm (o : Origin) (k : ChannelIx) (v : Word) (s : State) : Res :=
  busWrite o (RegId.TS_CMD.at (k.val / 8) (k.val % 8)) (withField (withField v 0 1 1) 1 1 0) s

/-- TS_REG_DISARM (R159). `TS_CMD` is written with `DISARM` = 1. -/
def execTsRegDisarm (o : Origin) (k : ChannelIx) (v : Word) (s : State) : Res :=
  busWrite o (RegId.TS_CMD.at (k.val / 8) (k.val % 8)) (withField (withField v 0 1 0) 1 1 1) s

/-- RECORD_STORE (R172). -/
def execRecordStore (k : ChannelIx) (s : State) : Res := actOn (chanChip k) (recordStoreS k) s

/-- RING_CFG_WRITE (R171). -/
def execRingCfgWrite (o : Origin) (r : RingIx) (v : Word) (s : State) : Res := busWrite o (RegId.RING_CFG.at r) v s

/-- RING_RELEASE (R171). -/
def execRingRelease (o : Origin) (r : RingIx) (v : Word) (s : State) : Res := busWrite o (RegId.RING_REL.at r) v s

/-- CD_SYNC_TEST (R256). -/
def execCdSyncTest (k : ChannelIx) (codes most : Nat) (s : State) : Res := actOn (chanChip k) (cdSyncTestS k codes most) s

/-- CD_AGREEMENT_TEST (R256). -/
def execCdAgreementTest (k : ChannelIx) (a b : List Nat) (s : State) : Res :=
  actOn (chanChip k) (fun s => if (s.chan k).cd.isSome then calMeets 2 (cdAgreementTestS k a b) s else s) s

/-- CD_TIMEOUT (R256). -/
def execCdTimeout (k : ChannelIx) (s : State) : Res := actOn (chanChip k) (cdTimeoutS k) s

/-- SKEW_ATTEMPT_TIMEOUT (R258). -/
def execSkewAttemptTimeout (p : PortIx) (s : State) : Res := actOn (p.val / 128) (skewAttemptTimeoutS p) s

/-- SKEW_FAIL_WAIT_END (R258). -/
def execSkewFailWaitEnd (p : PortIx) (s : State) : Res := actOn (p.val / 128) (skewFailWaitEndS p) s

/-- FINE_PHASE_STEP (R131). -/
def execFinePhaseStep (p : PortIx) (s : State) : Res := actOn (p.val / 128) (finePhaseStepS p) s

end Sys2Proof.Machine
end

