-- ==== Sys2Proof/Machine/QueueRows.lean ====
section
/-! DEFINITION. The rows of the queues and of the engines' registers. -/

namespace Sys2Proof.Machine

/-- DISPATCH (R198). -/
def execDispatch (q : QueueIx) (e : EngineIx) (s : State) : Res := act (dispatchS q e) s

/-- STEAL (R198). -/
def execSteal (q : QueueIx) (e : EngineIx) (s : State) : Res := act (stealS q e) s

/-- QUEUE_ENABLE (R186). `EN` is written as 1. -/
def execQueueEnable (o : Origin) (q : QueueIx) (v : Word) (s : State) : Res := busWrite o (RegId.QD_CTRL.at q) (withField v 0 1 1) s

/-- QUEUE_DISABLE (R187). `EN` is written as 0. -/
def execQueueDisable (o : Origin) (q : QueueIx) (v : Word) (s : State) : Res :=
  busWrite o (RegId.QD_CTRL.at q) (withField v 0 1 0) s

/-- QUEUE_RESUME (R205). `RESUME` is written as 1. -/
def execQueueResume (o : Origin) (q : QueueIx) (v : Word) (s : State) : Res :=
  busWrite o (RegId.QD_CTRL.at q) (withField v 15 1 1) s

/-- QUEUE_DESC_WRITE (R187). Word `w` of the descriptor; a write of word 0 keeps `EN` and does not resume, which have rows
of their own. -/
def execQueueDescWrite (o : Origin) (q : QueueIx) (w : Fin 14) (v : Word) (s : State) : Res :=
  busWrite o (RegId.QD_CTRL.at q + 4 * w) (if w.val = 0 then withField (withField v 0 1 (s.get QD_CTRL.EN q)) 15 1 0 else v) s

/-- ITEM_COMPLETE (R199). -/
def execItemComplete (q : QueueIx) (seq : BitVec 48) (s : State) : Res := act (itemCompleteS q seq.toNat) s

/-- QUARANTINE_DEFERRED_MOVE (R206). -/
def execQuarantineDeferredMove (q : QueueIx) (seq : BitVec 48) (s : State) : Res := act (quarantineDeferredMoveS q seq.toNat) s

/-- ENGINE_WDOG (R195). -/
def execEngineWdog (e : EngineIx) (s : State) : Res := act (engineWdogS e) s

/-- ENGFAIL (R207). -/
def execEngFail (e : EngineIx) (s : State) : Res := act (engFailS e) s

/-- ENG_REINIT (R207). `ENG_CMD` is written with `REINIT` = 1. -/
def execEngReinit (o : Origin) (e : EngineIx) (v : Word) (s : State) : Res := busWrite o (RegId.ENG_CMD.at e) (withField v 0 1 1) s

/-- YIELD_ELIGIBLE (R242). -/
def execYieldEligible (q : QueueIx) (seq : BitVec 48) (s : State) : Res := act (yieldEligibleS q seq.toNat) s

/-- QM_LOAD_UPDATE (R209). -/
def execQmLoadUpdate (pct : Fin 101) (s : State) : Res := act (qmLoadUpdateS pct.val) s

/-- ENG_CFG_WRITE (R196). -/
def execEngCfgWrite (o : Origin) (e : EngineIx) (v : Word) (s : State) : Res := busWrite o (RegId.ENG_CFG.at e) v s

end Sys2Proof.Machine
end

