-- ==== Sys2Proof/Machine/ResetRows.lean ====
section
/-! DEFINITION. The rows of bring-up, faults and resets. -/

namespace Sys2Proof.Machine

/-- KEEPALIVE (R35). -/
def execKeepalive (answers : BitVec 8) (s : State) : Res := act (keepaliveS answers.toNat) s

/-- CHIPLET_LOST (R35). -/
def execChipletLost (n : ChipletIx) (s : State) : Res := act (chipletLostS n) s

/-- CONTROL_DIE_LOST (R379). -/
def execControlDieLost (n : ChipletIx) (s : State) : Res := act (controlDieLostS n) s

/-- ASYNC_SPEED_UPDATE (R25). -/
def execAsyncSpeedUpdate (stage : BitVec 12) (s : State) : Res := act (asyncSpeedUpdateS stage.toNat) s

/-- MEMBANK (R29). -/
def execMembank (b : Fin 16) (s : State) : Res := act (membankS b) s

/-- COLD_RESET (R364). -/
def execColdReset (s : State) : Res := .next (coldResetS s)

/-- WARM_RESET (R364). -/
def execWarmReset (s : State) : Res := act (warmResetS) s

/-- WARM_RESET_END (R379). -/
def execWarmResetEnd (s : State) : Res := act (warmResetEndS) s

/-- RST_WARM_CMD (R364). A paired write with `CMD` = 0b01. -/
def execRstWarmCmd (o : Origin) (v : Word) (s : State) : Res := busPair o (RegId.RST_CTRL_A.at) (withField v 0 2 1) s

/-- RST_COLD_CMD (R364). A paired write with `CMD` = 0b10. -/
def execRstColdCmd (o : Origin) (v : Word) (s : State) : Res := busPair o (RegId.RST_CTRL_A.at) (withField v 0 2 2) s

/-- CHIPLET_REINIT (R382). A paired write with `CMD` = 0b11. -/
def execChipletReinit (o : Origin) (v : Word) (s : State) : Res := busPair o (RegId.RST_CTRL_A.at) (withField v 0 2 3) s

/-- CHIPLET_REINIT_DONE (R382). -/
def execChipletReinitDone (n : ChipletIx) (ok : Bool) (s : State) : Res := act (chipletReinitDoneS n ok) s

/-- BROWN_OUT (R365). -/
def execBrownOut (s : State) : Res := .next (brownOutS s)

/-- BOOT_SRAM_TEST_DONE (R366). -/
def execBootSramTestDone (bad : BitVec 16) (s : State) : Res := act (bootSramTestDoneS bad.toNat) s

/-- BOOT_CAL_LOADED (R266). -/
def execBootCalLoaded (answers : Bool) (s : State) : Res := act (bootCalLoadedS answers) s

/-- BOOT_IMAGE_LOADED (R368). -/
def execBootImageLoaded (s : State) (answers : Bool := true) : Res := act (bootImageLoadedS answers) s

/-- BOOT_CORE_BRINGUP (R366). -/
def execBootCoreBringup (s : State) : Res := act (bootCoreBringupS) s

/-- BOOT_LIST_APPLY (R368). -/
def execBootListApply (s : State) : Res := act (bootListApplyS) s

/-- EDITION_SELECT (R370). -/
def execEditionSelect (o : Origin) (v : Word) (s : State) : Res := busWrite o (RegId.EDITION_SEL.at) v s

/-- BOOT_ERASE (R369). A paired write with `CMD` = 1. -/
def execBootErase (o : Origin) (v : Word) (s : State) : Res := busPair o (RegId.BOOT_CTRL_A.at) (withField v 0 2 1) s

/-- BOOT_PROGRAM (R369). A paired write with `CMD` = 2. -/
def execBootProgram (o : Origin) (v : Word) (s : State) : Res := busPair o (RegId.BOOT_CTRL_A.at) (withField v 0 2 2) s

/-- BOOT_COMMIT (R369). A paired write with `CMD` = 3. -/
def execBootCommit (o : Origin) (v : Word) (s : State) : Res := busPair o (RegId.BOOT_CTRL_A.at) (withField v 0 2 3) s

/-- BOOT_CMD_DONE (R369). -/
def execBootCmdDone (r : NvmEnd) (s : State) : Res := act (bootCmdDoneS r) s

/-- WDOG_KICK (R380). -/
def execWdogKick (o : Origin) (v : Word) (s : State) : Res := busWrite o (RegId.WDOG_KICK.at) v s

/-- WDOG_CFG_WRITE (R380). -/
def execWdogCfgWrite (o : Origin) (v : Word) (s : State) : Res := busWrite o (RegId.WDOG_CFG.at) v s

/-- WATCHDOG (R380). -/
def execWatchdog (s : State) : Res := act (watchdogS) s

/-- REINIT_CORE (R381). `REINIT` is written with `KIND` = 0 and `GO` = 1. -/
def execReinitCore (o : Origin) (v : Word) (s : State) : Res :=
  busWrite o (RegId.REINIT.at) (withField (withField v 0 3 0) 13 1 1) s

/-- REINIT_PORT (R381). `REINIT` is written with `KIND` = 1 and `GO` = 1. -/
def execReinitPort (o : Origin) (v : Word) (s : State) : Res :=
  busWrite o (RegId.REINIT.at) (withField (withField v 0 3 1) 13 1 1) s

/-- REINIT_ENGINE (R381). `REINIT` is written with `KIND` = 2 and `GO` = 1. -/
def execReinitEngine (o : Origin) (v : Word) (s : State) : Res :=
  busWrite o (RegId.REINIT.at) (withField (withField v 0 3 2) 13 1 1) s

/-- REINIT_LINK (R381). `REINIT` is written with `KIND` = 3 and `GO` = 1. -/
def execReinitLink (o : Origin) (v : Word) (s : State) : Res :=
  busWrite o (RegId.REINIT.at) (withField (withField v 0 3 3) 13 1 1) s

/-- REINIT_TEASEL_GROUP (R381). `REINIT` is written with `KIND` = 4 and `GO` = 1. -/
def execReinitTeaselGroup (o : Origin) (v : Word) (s : State) : Res :=
  busWrite o (RegId.REINIT.at) (withField (withField v 0 3 4) 13 1 1) s

/-- REINIT_SORREL (R381). `REINIT` is written with `KIND` = 5 and `GO` = 1. -/
def execReinitSorrel (o : Origin) (v : Word) (s : State) : Res :=
  busWrite o (RegId.REINIT.at) (withField (withField v 0 3 5) 13 1 1) s

/-- REINIT_COMPLETE (R381). -/
def execReinitComplete (ok : Bool) (s : State) (j : Nat := 0) : Res := act (reinitCompleteS ok j) s

/-- CHIP_TEMP_UPDATE (R377). -/
def execChipTempUpdate (temps : List Int) (s : State) : Res := act (chipTempUpdateS temps) s

/-- RESET_RELEASE (R366). -/
def execResetRelease (s : State) : Res := .next (resetReleaseS s)

/-- BROWN_OUT_END (R365). -/
def execBrownOutEnd (s : State) : Res := .next (brownOutEndS s)

end Sys2Proof.Machine
end

