-- ==== Sys2Proof/Machine/RyrelRows.lean ====
section
/-! DEFINITION. The rows of Ryrel. -/

namespace Sys2Proof.Machine

/-- RYREL_TRAINED (R273). -/
def execRyrelTrained (l : LinkIx) (s : State) : Res := actOn (linkChip l) (ryrelTrainedS l) s

/-- RYREL_BLOCK_LOCK_LOSS (R273). -/
def execRyrelBlockLockLoss (l : LinkIx) (s : State) : Res := actOn (linkChip l) (ryrelBlockLockLossS l) s

/-- RY_ROLE_WRITE (R274). -/
def execRyRoleWrite (o : Origin) (l : LinkIx) (v : Word) (s : State) : Res := busWrite o (RegId.RY_CFG.at l) v s

/-- HELLO_SEND (R279). -/
def execHelloSend (l : LinkIx) (s : State) : Res := actOn (linkChip l) (helloSendS l) s

/-- HELLO (R280). -/
def execRxHello (l : LinkIx) (f : RyFrame) (s : State) : Res := actOn (linkChip l) (rxHelloS l f) s

/-- JOIN (R280). -/
def execRxJoin (l : LinkIx) (f : RyFrame) (s : State) : Res := actOn (linkChip l) (rxJoinS l f) s

/-- ADMIT (R280). -/
def execRxAdmit (l : LinkIx) (f : RyFrame) (s : State) : Res := actOn (linkChip l) (rxAdmitS l f) s

/-- REFUSE (R281). -/
def execRxRefuse (l : LinkIx) (f : RyFrame) (s : State) : Res := actOn (linkChip l) (rxRefuseS l f) s

/-- LEAVE (R285). -/
def execRxLeave (l : LinkIx) (f : RyFrame) (s : State) : Res := actOn (linkChip l) (rxLeaveS l f) s

/-- READY (R280). -/
def execRxReady (l : LinkIx) (f : RyFrame) (s : State) : Res := actOn (linkChip l) (rxReadyS l f) s

/-- HB_SEND (R282). -/
def execHbSend (l : LinkIx) (s : State) : Res := actOn (linkChip l) (hbSendS l) s

/-- HB (R282). -/
def execRxHb (l : LinkIx) (f : RyFrame) (s : State) : Res := actOn (linkChip l) (rxHbS l f) s

/-- HB_MISS (R282). -/
def execHbMiss (l : LinkIx) (s : State) : Res := actOn (linkChip l) (hbMissS l) s

/-- TT_SEND (R286). -/
def execTtSend (l : LinkIx) (frac : BitVec 16) (s : State) : Res := actOn (linkChip l) (ttSendS l frac.toNat) s

/-- TT (R286). -/
def execRxTt (l : LinkIx) (f : RyFrame) (frac : BitVec 16) (s : State) : Res := actOn (linkChip l) (rxTtS l f frac.toNat) s

/-- SERVO_PERIOD_END (R286). -/
def execServoPeriodEnd (l : LinkIx) (s : State) : Res := actOn (linkChip l) (servoPeriodEndS l) s

/-- EPOCH (R287). -/
def execRxEpoch (l : LinkIx) (f : RyFrame) (s : State) : Res := actOn (linkChip l) (rxEpochS l f) s

/-- EPOCH_ARM_RETRY (R287). -/
def execEpochArmRetry (s : State) : Res := act (epochArmRetryS) s

/-- LACK_SEND (R277). -/
def execLackSend (l : LinkIx) (s : State) : Res := actOn (linkChip l) (lackSendS l) s

/-- LACK (R277). -/
def execRxLack (l : LinkIx) (f : RyFrame) (s : State) : Res := actOn (linkChip l) (rxLackS l f) s

/-- LNAK (R277). -/
def execRxLnak (l : LinkIx) (f : RyFrame) (s : State) : Res := actOn (linkChip l) (rxLnakS l f) s

/-- RELIABLE_ACK_TIMEOUT (R277). -/
def execReliableAckTimeout (l : LinkIx) (s : State) : Res := actOn (linkChip l) (reliableAckTimeoutS l) s

/-- REFUSE_RETRY_TIMER (R281). -/
def execRefuseRetryTimer (l : LinkIx) (s : State) : Res := actOn (linkChip l) (refuseRetryTimerS l) s

/-- JOIN_TIMEOUT (R280). -/
def execJoinTimeout (l : LinkIx) (s : State) : Res := actOn (linkChip l) (joinTimeoutS l) s

/-- WT_APPROVE (R280). `APPROVE` is written as 1. -/
def execWtApprove (o : Origin) (w : WorkerIx) (v : Word) (s : State) : Res := busWrite o (RegId.WT_CTRL.at w) (withField v 0 1 1) s

/-- WT_DENY (R281). `DENY` is written as 1. -/
def execWtDeny (o : Origin) (w : WorkerIx) (v : Word) (s : State) : Res := busWrite o (RegId.WT_CTRL.at w) (withField v 1 1 1) s

/-- WT_REPLAY (R295). `REPLAY` is written as 1. -/
def execWtReplay (o : Origin) (w : WorkerIx) (v : Word) (s : State) : Res := busWrite o (RegId.WT_CTRL.at w) (withField v 2 1 1) s

/-- WT_EVICT (R285). A paired write with `EVICT` = 1. -/
def execWtEvict (o : Origin) (w : WorkerIx) (v : Word) (s : State) : Res := busPair o (RegId.WT_CTRL_A.at w) (withField v 0 1 1) s

/-- FWD_ENTRY_WRITE (R290). Word 0 is `FWD_CFG`, 1 `FWD_DST`, 2 `FWD_CQ`. -/
def execFwdEntryWrite (o : Origin) (f : Fin 1024) (w : Fin 3) (v : Word) (s : State) : Res :=
  busWrite o ((if w.val = 0 then RegId.FWD_CFG else if w.val = 1 then RegId.FWD_DST else RegId.FWD_CQ).at f) v s

/-- FORWARDER_TAKE (R290). -/
def execForwarderTake (f : Fin 1024) (s : State) : Res := act (forwarderTakeS f) s

/-- SUBMIT (R291). -/
def execRxSubmit (l : LinkIx) (f : RyFrame) (s : State) : Res := actOn (linkChip l) (rxSubmitS l f) s

/-- SUBRES (R291). -/
def execRxSubres (l : LinkIx) (f : RyFrame) (s : State) : Res := actOn (linkChip l) (rxSubresS l f) s

/-- FORWARD_RESEND (R291). -/
def execForwardResend (f : Fin 1024) (s : State) : Res := act (forwardResendS f) s

/-- DONE (R294). -/
def execRxDone (l : LinkIx) (f : RyFrame) (s : State) : Res := actOn (linkChip l) (rxDoneS l f) s

/-- DONEACK (R292). -/
def execRxDoneack (l : LinkIx) (f : RyFrame) (s : State) : Res := actOn (linkChip l) (rxDoneackS l f) s

/-- RESYNC (R291). -/
def execRxResync (l : LinkIx) (f : RyFrame) (s : State) : Res := actOn (linkChip l) (rxResyncS l f) s

/-- MIRROR_RETIRE (R294). -/
def execMirrorRetire (k : Fin 16384) (s : State) : Res := act (mirrorRetireS k) s

/-- EVENT_FORWARD (R297). -/
def execEventForward (src : SourceIx) (s : State) : Res := act (eventForwardS src) s

/-- EVENT (R297). -/
def execRxEvent (l : LinkIx) (f : RyFrame) (s : State) : Res := actOn (linkChip l) (rxEventS l f) s

/-- CDLOSS (R297). -/
def execRxCdloss (l : LinkIx) (f : RyFrame) (s : State) : Res := actOn (linkChip l) (rxCdlossS l f) s

/-- RREQ (R298). -/
def execRxRreq (l : LinkIx) (f : RyFrame) (s : State) : Res := actOn (linkChip l) (rxRreqS l f) s

/-- RRSP (R298). -/
def execRxRrsp (l : LinkIx) (f : RyFrame) (s : State) : Res := actOn (linkChip l) (rxRrspS l f) s

/-- RACC_TIMEOUT (R298). -/
def execRaccTimeout (s : State) : Res := act (raccTimeoutS) s

end Sys2Proof.Machine
end

