-- ==== Sys2Proof/Machine/ServiceRows.lean ====
section
/-! DEFINITION. The rows of Sorrel, of the NVM and of the serial master port. -/

namespace Sys2Proof.Machine

/-- CDLY_TIMEOUT, and what the end of a run means for a join (R280). -/
def cdlyTimeout (l : Nat) (s : State) : State :=
  let ran := (s.cdly l).run.isSome
  let t := cdlyTimeoutS l s
  if ran && (t.cdly l).run.isNone then cdlyEnded l t else t

/-- XIP_INVALIDATE (R216). `XIP_CACHE` is written with `INV` = 1. -/
def execXipInvalidate (o : Origin) (v : Word) (s : State) : Res := busWrite o (RegId.XIP_CACHE.at) (withField v 1 1 1) s

/-- XIP_FILL_START (R347). -/
def execXipFillStart (s : State) : Res := act (xipFillStartS) s

/-- XIP_FILL_DONE (R349). -/
def execXipFillDone (bytes : List Byte) (s : State) : Res := act (xipFillDoneS bytes) s

/-- XIP_FILL_FAIL (R348). -/
def execXipFillFail (s : State) : Res := act (xipFillFailS) s

/-- SORREL_BACKGROUND_START (R251). -/
def execSorrelBackgroundStart (m : Fin 6) (t : Nat) (s : State) : Res := act (sorrelBackgroundStartS m t) s

/-- SORREL_REQUEST (R251). `SOR_REQ` is written with `GO` = 1. -/
def execSorrelRequest (o : Origin) (v : Word) (s : State) : Res := busWrite o (RegId.SOR_REQ.at) (withField v 14 1 1) s

/-- CDLY_TIMEOUT (R259). -/
def execCdlyTimeout (l : LinkIx) (s : State) : Res := actOn (linkChip l) (cdlyTimeout l) s

/-- CDLY_HI_WRITE (R259). -/
def execCdlyHiWrite (o : Origin) (l : LinkIx) (v : Word) (s : State) : Res := busWrite o (RegId.CDLY_HI.at l) v s

/-- SOR_CTRL_WRITE (R258). -/
def execSorCtrlWrite (o : Origin) (v : Word) (s : State) : Res := busWrite o (RegId.SOR_CTRL.at) v s

/-- NVM_STORE (R267). A paired write with `CMD` = 0b01. -/
def execNvmStore (o : Origin) (v : Word) (s : State) : Res := busPair o (RegId.NVM_CTRL_A.at) (withField v 0 2 1) s

/-- NVM_AUTO_STORE (R267). -/
def execNvmAutoStore (s : State) : Res := act (nvmAutoStoreS) s

/-- NVM_ERASE (R270). A paired write with `CMD` = 0b10. -/
def execNvmErase (o : Origin) (v : Word) (s : State) : Res := busPair o (RegId.NVM_CTRL_A.at) (withField v 0 2 2) s

/-- NVM_ERASE_PHASE_DONE (R267). -/
def execNvmErasePhaseDone (s : State) (r : NvmEnd := .done) : Res := act (nvmErasePhaseDoneS r) s

/-- NVM_BODY_DONE (R267). -/
def execNvmBodyDone (r : NvmEnd) (s : State) : Res := act (nvmBodyDoneS r) s

/-- NVM_STORE_DONE (R267). -/
def execNvmStoreDone (s : State) (r : NvmEnd := .done) : Res := act (nvmStoreDoneS r) s

/-- NVM_ERASE_DONE (R270). -/
def execNvmEraseDone (s : State) (r : NvmEnd := .done) : Res := act (nvmEraseDoneS r) s

/-- SM_GO (R344). `SM_CMD` is written with `GO` = 1. -/
def execSmGo (o : Origin) (v : Word) (s : State) : Res := busWrite o (RegId.SM_CMD.at) (withField v 0 1 1) s

/-- SM_FRAME_START (R344). -/
def execSmFrameStart (s : State) : Res := act (smFrameStartS) s

/-- SMDONE (R344). -/
def execSmDone (rx : List Byte) (s : State) : Res := act (smDoneS rx) s

/-- SM_GPIO_WRITE (R345). -/
def execSmGpioWrite (o : Origin) (v : Word) (s : State) : Res := busWrite o (RegId.SM_GPIO.at) v s

/-- VDDH_MONITOR_LOW (R269). -/
def execVddhMonitorLow (s : State) : Res := act (vddhMonitorLowS) s

end Sys2Proof.Machine
end

