-- ==== Sys2Proof/Machine/TimeBase.lean ====
section
/-! DEFINITION. The rows of the references and the time base. -/

namespace Sys2Proof.Machine

/-- The chiplets whose replicas step at this strobe (R57): commanded at the last one, and in service. -/
def State.stepping (s : State) : List Nat :=
  (List.range 8).filter fun n => (s.chip n).reload && (s.chip n).running && !s.chipOut n

/-- The stamps of the links of a chiplet whose replica has stepped are of no use. -/
def clearChipStamps (n : Nat) (s : State) : State :=
  forList [2 * n, 2 * n + 1] (fun l s => s.setLnk l { s.lnk l with tt := { txK := (s.lnk l).tt.txK } }) s

/-- A strobe with what a step of a replica does beside (R57, R166, R260): the chiplet's measurements end with TIMEBASE, its
calibration runs restart their partial results. -/
def strobeAll (latched : List (Int × Int)) (s : State) : State :=
  let on := (s.chip (s.get TB_STAT.MASTER)).running && decide (s.strobeNow ≠ s.tb.strobes) && !s.cdDown
  let ns := if on then s.stepping.filter fun n => decide (n < latched.length) else []
  alignmentStrobeS latched (forList ns (fun n s => clearChipStamps n (restartRuns n (endTimebase n s))) s)

/-- An epoch load with what it ends (R64, R166, R260) and what it starts at Ryrel (R287, R288). -/
def epochLoadAll (s : State) : State :=
  match s.tb.take with
  | some t =>
    if s.isSet EPOCH_STAT.ARMED && epochDue s t && !s.relockOrFailover then
      let s := forBelow 8 (fun n s => if s.chipLost n then s else restartRuns n (endTimebase n s)) s
      afterEpochLoad (epochLoadS s)
    else s
  | none => s

/-- REF_FREQ_WRITE (R39). -/
def execRefFreqWrite (o : Origin) (r : RefIx) (v : Word) (s : State) : Res :=
  busWrite o (if r.val = 0 then RegId.REFA_FREQ.at else RegId.REFB_FREQ.at) v s

/-- MAN_SEL_WRITE (R45). -/
def execManSelWrite (o : Origin) (v : Word) (s : State) : Res := busWrite o (RegId.REF_CFG.at) v s

/-- REF_ABSENT (R43). -/
def execRefAbsent (r : RefIx) (s : State) : Res := act (refAbsentS r.val) s

/-- FREQ_MONITOR_WINDOW (R43). -/
def execFreqMonitorWindow (countA countB : Nat) (s : State) : Res := act (freqMonitorWindowS countA countB) s

/-- REF_QUALIFIED (R44). -/
def execRefQualified (r : RefIx) (s : State) : Res := act (refQualifiedS r.val) s

/-- REVERT_TIMER (R45). -/
def execRevertTimer (s : State) : Res := act (revertTimerS) s

/-- SWITCHOVER_FREEZE (R46). -/
def execSwitchoverFreeze (s : State) : Res := act (switchoverFreezeS) s

/-- SWITCHOVER_CLOSE (R46). -/
def execSwitchoverClose (phase : Int) (s : State) : Res := act (switchoverCloseS phase) s

/-- SWITCHOVER_SETTLED (R47). -/
def execSwitchoverSettled (s : State) : Res := act (switchoverSettledS) s

/-- HOLD_LIMIT (R51). -/
def execHoldLimit (s : State) : Res := act (holdLimitS) s

/-- ACQUISITION_COMPLETE (R53). -/
def execAcquisitionComplete (s : State) : Res := act (acquisitionCompleteS) s

/-- ALIGNMENT_STROBE (R55). -/
def execAlignmentStrobe (latched : List (Int × Int)) (s : State) : Res := act (strobeAll latched) s

/-- REPLICA_START (R56). -/
def execReplicaStart (s : State) : Res := act (replicaStartS) s

/-- EPOCH_ARM (R59). A paired write with `ARM` = 1. -/
def execEpochArm (o : Origin) (v : Word) (s : State) : Res := busPair o (RegId.EPOCH_CTRL_A.at) (withField v 2 1 1) s

/-- EPOCH_DISARM (R59). A paired write with `ARM` = 0. -/
def execEpochDisarm (o : Origin) (v : Word) (s : State) : Res := busPair o (RegId.EPOCH_CTRL_A.at) (withField v 2 1 0) s

/-- EPOCH_IN_EDGE (R65). -/
def execEpochInEdge (fall : Bool) (frac : BitVec 16) (s : State) : Res := act (epochInEdgeS fall frac.toNat) s

/-- EPOCH_MISSING (R65). -/
def execEpochMissing (s : State) : Res := act (epochMissingS) s

/-- EPOCHLOAD (R64). -/
def execEpochLoad (s : State) : Res := act (epochLoadAll) s

/-- TB_SLEW_WRITE (R67). `TB_SLEW` is written with `GO` = 1. -/
def execTbSlewWrite (o : Origin) (v : Word) (s : State) : Res := busWrite o (RegId.TB_SLEW.at) (withField v 31 1 1) s

/-- SLEW_START (R67). -/
def execSlewStart (s : State) : Res := act (slewStartS) s

/-- SLEW_END (R67). -/
def execSlewEnd (s : State) : Res := act (slewEndS) s

/-- REF_EDGES_RETURN (R44). -/
def execRefEdgesReturn (r : RefIx) (s : State) : Res := act (refEdgesReturnS r.val) s

/-- REF_ENABLE_WRITE (R43). -/
def execRefEnableWrite (o : Origin) (v : Word) (s : State) : Res := busWrite o (RegId.REF_CFG.at) v s

end Sys2Proof.Machine
end

