-- ==== Sys2Proof/Machine/Dispatch.lean ====
section
/-! DEFINITION. One arm per command: each is one direct call of the command's meaning. -/

namespace Sys2Proof.Machine

def exec (i : Instr) (s : State) : Host.Outcome State Fault Refusal :=
  match i with
  | .mailboxSubmit o v => Sys2Proof.Machine.execMailboxSubmit o v s
  | .mailboxTake o v => Sys2Proof.Machine.execMailboxTake o v s
  | .mailboxSnap o v => Sys2Proof.Machine.execMailboxSnap o v s
  | .mailboxComplete o => Sys2Proof.Machine.execMailboxComplete o s
  | .dispatch q e => Sys2Proof.Machine.execDispatch q e s
  | .steal q e => Sys2Proof.Machine.execSteal q e s
  | .actionSend n q => Sys2Proof.Machine.execActionSend n q s
  | .actionArrive n => Sys2Proof.Machine.execActionArrive n s
  | .abortVerdictArrive => Sys2Proof.Machine.execAbortVerdictArrive s
  | .phaseApply n => Sys2Proof.Machine.execPhaseApply n s
  | .portsetApply n => Sys2Proof.Machine.execPortsetApply n s
  | .markApply n => Sys2Proof.Machine.execMarkApply n s
  | .armApply n => Sys2Proof.Machine.execArmApply n s
  | .disarmApply n => Sys2Proof.Machine.execDisarmApply n s
  | .stagingStallResume e => Sys2Proof.Machine.execStagingStallResume e s
  | .keepalive answers => Sys2Proof.Machine.execKeepalive answers s
  | .chipletLost n => Sys2Proof.Machine.execChipletLost n s
  | .controlDieLost n => Sys2Proof.Machine.execControlDieLost n s
  | .asyncSpeedUpdate stage => Sys2Proof.Machine.execAsyncSpeedUpdate stage s
  | .membank b => Sys2Proof.Machine.execMembank b s
  | .refFreqWrite o r v => Sys2Proof.Machine.execRefFreqWrite o r v s
  | .manSelWrite o v => Sys2Proof.Machine.execManSelWrite o v s
  | .refAbsent r => Sys2Proof.Machine.execRefAbsent r s
  | .freqMonitorWindow countA countB => Sys2Proof.Machine.execFreqMonitorWindow countA countB s
  | .refQualified r => Sys2Proof.Machine.execRefQualified r s
  | .revertTimer => Sys2Proof.Machine.execRevertTimer s
  | .switchoverFreeze => Sys2Proof.Machine.execSwitchoverFreeze s
  | .switchoverClose phase => Sys2Proof.Machine.execSwitchoverClose phase s
  | .switchoverSettled => Sys2Proof.Machine.execSwitchoverSettled s
  | .holdLimit => Sys2Proof.Machine.execHoldLimit s
  | .acquisitionComplete => Sys2Proof.Machine.execAcquisitionComplete s
  | .alignmentStrobe latched => Sys2Proof.Machine.execAlignmentStrobe latched s
  | .replicaStart => Sys2Proof.Machine.execReplicaStart s
  | .epochArm o v => Sys2Proof.Machine.execEpochArm o v s
  | .epochDisarm o v => Sys2Proof.Machine.execEpochDisarm o v s
  | .epochInEdge fall frac => Sys2Proof.Machine.execEpochInEdge fall frac s
  | .epochMissing => Sys2Proof.Machine.execEpochMissing s
  | .epochLoad => Sys2Proof.Machine.execEpochLoad s
  | .tbSlewWrite o v => Sys2Proof.Machine.execTbSlewWrite o v s
  | .slewStart => Sys2Proof.Machine.execSlewStart s
  | .slewEnd => Sys2Proof.Machine.execSlewEnd s
  | .halfCommit o c h v => Sys2Proof.Machine.execHalfCommit o c h v s
  | .halfWordApply c h => Sys2Proof.Machine.execHalfWordApply c h s
  | .corePowerWrite o c v => Sys2Proof.Machine.execCorePowerWrite o c v s
  | .halfReady c h => Sys2Proof.Machine.execHalfReady c h s
  | .ldCfgWrite o c h v => Sys2Proof.Machine.execLdCfgWrite o c h v s
  | .ldWindowEnd c h d vtune => Sys2Proof.Machine.execLdWindowEnd c h d vtune s
  | .grossMonitorWindow c h d => Sys2Proof.Machine.execGrossMonitorWindow c h d s
  | .grossNoFeedback c h => Sys2Proof.Machine.execGrossNoFeedback c h s
  | .bandSearchStep c h count span => Sys2Proof.Machine.execBandSearchStep c h count span s
  | .hopWindowOpen c => Sys2Proof.Machine.execHopWindowOpen c s
  | .hopPrelockDone c => Sys2Proof.Machine.execHopPrelockDone c s
  | .hopPlacementDone c rot resid => Sys2Proof.Machine.execHopPlacementDone c rot resid s
  | .hopReadinessTest c => Sys2Proof.Machine.execHopReadinessTest c s
  | .hopSwitch c => Sys2Proof.Machine.execHopSwitch c s
  | .postSwitchGuardFail c => Sys2Proof.Machine.execPostSwitchGuardFail c s
  | .hopInplace c => Sys2Proof.Machine.execHopInplace c s
  | .relockStart c => Sys2Proof.Machine.execRelockStart c s
  | .relockWordLoad c => Sys2Proof.Machine.execRelockWordLoad c s
  | .relockRelease c rot resid => Sys2Proof.Machine.execRelockRelease c rot resid s
  | .relockTimeout c => Sys2Proof.Machine.execRelockTimeout c s
  | .portCommit o p v => Sys2Proof.Machine.execPortCommit o p v s
  | .portWordApply p => Sys2Proof.Machine.execPortWordApply p s
  | .markerPulse p => Sys2Proof.Machine.execMarkerPulse p s
  | .portCeilWrite o p v => Sys2Proof.Machine.execPortCeilWrite o p v s
  | .ceilGuardWindow c h count => Sys2Proof.Machine.execCeilGuardWindow c h count s
  | .portMenWrite o v => Sys2Proof.Machine.execPortMenWrite o v s
  | .holdLimitExpiry p => Sys2Proof.Machine.execHoldLimitExpiry p s
  | .failoverSpareLoad c => Sys2Proof.Machine.execFailoverSpareLoad c s
  | .failoverSearchDone c => Sys2Proof.Machine.execFailoverSearchDone c s
  | .failoverPrelockDone c => Sys2Proof.Machine.execFailoverPrelockDone c s
  | .failoverPlaced c rot resid => Sys2Proof.Machine.execFailoverPlaced c rot resid s
  | .lgConfigWrite o g w v => Sys2Proof.Machine.execLgConfigWrite o g w v s
  | .skewMeanDone p mean => Sys2Proof.Machine.execSkewMeanDone p mean s
  | .skewOffsetDone p offset => Sys2Proof.Machine.execSkewOffsetDone p offset s
  | .skewTrimStep p => Sys2Proof.Machine.execSkewTrimStep p s
  | .portTrimWrite o p v => Sys2Proof.Machine.execPortTrimWrite o p v s
  | .teaselEdge k fall frac => Sys2Proof.Machine.execTeaselEdge k fall frac s
  | .sampleTake k => Sys2Proof.Machine.execSampleTake k s
  | .measTimeout k => Sys2Proof.Machine.execMeasTimeout k s
  | .measDone k => Sys2Proof.Machine.execMeasDone k s
  | .tsRegArm o k v => Sys2Proof.Machine.execTsRegArm o k v s
  | .tsRegDisarm o k v => Sys2Proof.Machine.execTsRegDisarm o k v s
  | .recordStore k => Sys2Proof.Machine.execRecordStore k s
  | .ringCfgWrite o r v => Sys2Proof.Machine.execRingCfgWrite o r v s
  | .ringRelease o r v => Sys2Proof.Machine.execRingRelease o r v s
  | .queueEnable o q v => Sys2Proof.Machine.execQueueEnable o q v s
  | .queueDisable o q v => Sys2Proof.Machine.execQueueDisable o q v s
  | .queueResume o q v => Sys2Proof.Machine.execQueueResume o q v s
  | .queueDescWrite o q w v => Sys2Proof.Machine.execQueueDescWrite o q w v s
  | .itemComplete q seq => Sys2Proof.Machine.execItemComplete q seq s
  | .quarantineDeferredMove q seq => Sys2Proof.Machine.execQuarantineDeferredMove q seq s
  | .engineWdog e => Sys2Proof.Machine.execEngineWdog e s
  | .engFail e => Sys2Proof.Machine.execEngFail e s
  | .engReinit o e v => Sys2Proof.Machine.execEngReinit o e v s
  | .yieldEligible q seq => Sys2Proof.Machine.execYieldEligible q seq s
  | .qmLoadUpdate pct => Sys2Proof.Machine.execQmLoadUpdate pct s
  | .cAdd e d a b => Sys2Proof.Machine.execCAdd e d a b s
  | .cSub e d a b => Sys2Proof.Machine.execCSub e d a b s
  | .cAnd e d a b => Sys2Proof.Machine.execCAnd e d a b s
  | .cOr e d a b => Sys2Proof.Machine.execCOr e d a b s
  | .cXor e d a b => Sys2Proof.Machine.execCXor e d a b s
  | .cSll e d a b => Sys2Proof.Machine.execCSll e d a b s
  | .cSrl e d a b => Sys2Proof.Machine.execCSrl e d a b s
  | .cSra e d a b => Sys2Proof.Machine.execCSra e d a b s
  | .cSlt e d a b => Sys2Proof.Machine.execCSlt e d a b s
  | .cSltu e d a b => Sys2Proof.Machine.execCSltu e d a b s
  | .cMul e d a b => Sys2Proof.Machine.execCMul e d a b s
  | .cMulhu e d a b => Sys2Proof.Machine.execCMulhu e d a b s
  | .cDivu e d a b => Sys2Proof.Machine.execCDivu e d a b s
  | .cRemu e d a b => Sys2Proof.Machine.execCRemu e d a b s
  | .cAddi e d a imm => Sys2Proof.Machine.execCAddi e d a imm s
  | .cAndi e d a imm => Sys2Proof.Machine.execCAndi e d a imm s
  | .cOri e d a imm => Sys2Proof.Machine.execCOri e d a imm s
  | .cXori e d a imm => Sys2Proof.Machine.execCXori e d a imm s
  | .cSlli e d a n => Sys2Proof.Machine.execCSlli e d a n s
  | .cSrli e d a n => Sys2Proof.Machine.execCSrli e d a n s
  | .cSrai e d a n => Sys2Proof.Machine.execCSrai e d a n s
  | .cSlti e d a imm => Sys2Proof.Machine.execCSlti e d a imm s
  | .cLui e d imm => Sys2Proof.Machine.execCLui e d imm s
  | .cLdi e d imm => Sys2Proof.Machine.execCLdi e d imm s
  | .cLdiU e d imm => Sys2Proof.Machine.execCLdiU e d imm s
  | .cLdiH e d imm => Sys2Proof.Machine.execCLdiH e d imm s
  | .cBeq e a b imm => Sys2Proof.Machine.execCBeq e a b imm s
  | .cBne e a b imm => Sys2Proof.Machine.execCBne e a b imm s
  | .cBlt e a b imm => Sys2Proof.Machine.execCBlt e a b imm s
  | .cBge e a b imm => Sys2Proof.Machine.execCBge e a b imm s
  | .cBltu e a b imm => Sys2Proof.Machine.execCBltu e a b imm s
  | .cBgeu e a b imm => Sys2Proof.Machine.execCBgeu e a b imm s
  | .cJal e d off => Sys2Proof.Machine.execCJal e d off s
  | .cJalr e d a imm => Sys2Proof.Machine.execCJalr e d a imm s
  | .cJl e d addr => Sys2Proof.Machine.execCJl e d addr s
  | .cLds e w u d a off => Sys2Proof.Machine.execCLds e w u d a off s
  | .cSts e w d a off => Sys2Proof.Machine.execCSts e w d a off s
  | .cLd e w u d a off => Sys2Proof.Machine.execCLd e w u d a off s
  | .cSt e w d a off => Sys2Proof.Machine.execCSt e w d a off s
  | .cAadd e d a b => Sys2Proof.Machine.execCAadd e d a b s
  | .cAswp e d a b => Sys2Proof.Machine.execCAswp e d a b s
  | .cAcas e d a b => Sys2Proof.Machine.execCAcas e d a b s
  | .cRld e d a imm => Sys2Proof.Machine.execCRld e d a imm s
  | .cRst e d a imm => Sys2Proof.Machine.execCRst e d a imm s
  | .cWrd e a dest => Sys2Proof.Machine.execCWrd e a dest s
  | .cTake e d b => Sys2Proof.Machine.execCTake e d b s
  | .cTakeH e d b q => Sys2Proof.Machine.execCTakeH e d b q s
  | .cPut e d b q busy => Sys2Proof.Machine.execCPut e d b q busy s
  | .putWaitEnd e => Sys2Proof.Machine.execPutWaitEnd e s
  | .cAck e code => Sys2Proof.Machine.execCAck e code s
  | .cNack e code => Sys2Proof.Machine.execCNack e code s
  | .cTnow e t => Sys2Proof.Machine.execCTnow e t s
  | .cTadd e td ta b => Sys2Proof.Machine.execCTadd e td ta b s
  | .cTaddf e td ta b => Sys2Proof.Machine.execCTaddf e td ta b s
  | .cTdiff e d ta tb => Sys2Proof.Machine.execCTdiff e d ta tb s
  | .cTget e d b ta => Sys2Proof.Machine.execCTget e d b ta s
  | .cTput e td a b => Sys2Proof.Machine.execCTput e td a b s
  | .cTmov e td ta => Sys2Proof.Machine.execCTmov e td ta s
  | .cTwait e ta => Sys2Proof.Machine.execCTwait e ta s
  | .twaitResume e => Sys2Proof.Machine.execTwaitResume e s
  | .cEvcnt e d a => Sys2Proof.Machine.execCEvcnt e d a s
  | .cWaite e d a b t => Sys2Proof.Machine.execCWaite e d a b t s
  | .waiteResume e => Sys2Proof.Machine.execWaiteResume e s
  | .cCtxld e a b => Sys2Proof.Machine.execCCtxld e a b s
  | .cCtxst e a b => Sys2Proof.Machine.execCCtxst e a b s
  | .cHop e a b t => Sys2Proof.Machine.execCHop e a b t s
  | .cPhase e a b t => Sys2Proof.Machine.execCPhase e a b t s
  | .cPortset e a b c t => Sys2Proof.Machine.execCPortset e a b c t s
  | .cMark e a b t => Sys2Proof.Machine.execCMark e a b t s
  | .cArm e a b c t => Sys2Proof.Machine.execCArm e a b c t s
  | .cDisarm e a t => Sys2Proof.Machine.execCDisarm e a t s
  | .cStatR e d b a => Sys2Proof.Machine.execCStatR e d b a s
  | .cStatE e t a => Sys2Proof.Machine.execCStatE e t a s
  | .cFence e => Sys2Proof.Machine.execCFence e s
  | .cFenceW e d => Sys2Proof.Machine.execCFenceW e d s
  | .fenceWResume e => Sys2Proof.Machine.execFenceWResume e s
  | .cYield e a => Sys2Proof.Machine.execCYield e a s
  | .cTrap e n => Sys2Proof.Machine.execCTrap e n s
  | .cHalt e => Sys2Proof.Machine.execCHalt e s
  | .cHaltS e => Sys2Proof.Machine.execCHaltS e s
  | .xipInvalidate o v => Sys2Proof.Machine.execXipInvalidate o v s
  | .xipFillStart => Sys2Proof.Machine.execXipFillStart s
  | .xipFillDone bytes => Sys2Proof.Machine.execXipFillDone bytes s
  | .xipFillFail => Sys2Proof.Machine.execXipFillFail s
  | .lmsBlockEnd c h move => Sys2Proof.Machine.execLmsBlockEnd c h move s
  | .dtcBlockEnd c h move bins => Sys2Proof.Machine.execDtcBlockEnd c h move bins s
  | .trimBoundary c h => Sys2Proof.Machine.execTrimBoundary c h s
  | .sorrelBackgroundStart m t => Sys2Proof.Machine.execSorrelBackgroundStart m t s
  | .sorrelRequest o v => Sys2Proof.Machine.execSorrelRequest o v s
  | .cdSyncTest k codes most => Sys2Proof.Machine.execCdSyncTest k codes most s
  | .cdAgreementTest k a b => Sys2Proof.Machine.execCdAgreementTest k a b s
  | .cdTimeout k => Sys2Proof.Machine.execCdTimeout k s
  | .skewAttemptTimeout p => Sys2Proof.Machine.execSkewAttemptTimeout p s
  | .skewFailWaitEnd p => Sys2Proof.Machine.execSkewFailWaitEnd p s
  | .cdlyTimeout l => Sys2Proof.Machine.execCdlyTimeout l s
  | .cdlyHiWrite o l v => Sys2Proof.Machine.execCdlyHiWrite o l v s
  | .sorCtrlWrite o v => Sys2Proof.Machine.execSorCtrlWrite o v s
  | .nvmStore o v => Sys2Proof.Machine.execNvmStore o v s
  | .nvmAutoStore => Sys2Proof.Machine.execNvmAutoStore s
  | .nvmErase o v => Sys2Proof.Machine.execNvmErase o v s
  | .nvmErasePhaseDone r => Sys2Proof.Machine.execNvmErasePhaseDone s r
  | .nvmBodyDone r => Sys2Proof.Machine.execNvmBodyDone r s
  | .nvmStoreDone r => Sys2Proof.Machine.execNvmStoreDone s r
  | .nvmEraseDone r => Sys2Proof.Machine.execNvmEraseDone s r
  | .ryrelTrained l => Sys2Proof.Machine.execRyrelTrained l s
  | .ryrelBlockLockLoss l => Sys2Proof.Machine.execRyrelBlockLockLoss l s
  | .ryRoleWrite o l v => Sys2Proof.Machine.execRyRoleWrite o l v s
  | .helloSend l => Sys2Proof.Machine.execHelloSend l s
  | .rxHello l f => Sys2Proof.Machine.execRxHello l f s
  | .rxJoin l f => Sys2Proof.Machine.execRxJoin l f s
  | .rxAdmit l f => Sys2Proof.Machine.execRxAdmit l f s
  | .rxRefuse l f => Sys2Proof.Machine.execRxRefuse l f s
  | .rxLeave l f => Sys2Proof.Machine.execRxLeave l f s
  | .rxReady l f => Sys2Proof.Machine.execRxReady l f s
  | .hbSend l => Sys2Proof.Machine.execHbSend l s
  | .rxHb l f => Sys2Proof.Machine.execRxHb l f s
  | .hbMiss l => Sys2Proof.Machine.execHbMiss l s
  | .ttSend l frac => Sys2Proof.Machine.execTtSend l frac s
  | .rxTt l f frac => Sys2Proof.Machine.execRxTt l f frac s
  | .servoPeriodEnd l => Sys2Proof.Machine.execServoPeriodEnd l s
  | .rxEpoch l f => Sys2Proof.Machine.execRxEpoch l f s
  | .epochArmRetry => Sys2Proof.Machine.execEpochArmRetry s
  | .lackSend l => Sys2Proof.Machine.execLackSend l s
  | .rxLack l f => Sys2Proof.Machine.execRxLack l f s
  | .rxLnak l f => Sys2Proof.Machine.execRxLnak l f s
  | .reliableAckTimeout l => Sys2Proof.Machine.execReliableAckTimeout l s
  | .refuseRetryTimer l => Sys2Proof.Machine.execRefuseRetryTimer l s
  | .joinTimeout l => Sys2Proof.Machine.execJoinTimeout l s
  | .wtApprove o w v => Sys2Proof.Machine.execWtApprove o w v s
  | .wtDeny o w v => Sys2Proof.Machine.execWtDeny o w v s
  | .wtReplay o w v => Sys2Proof.Machine.execWtReplay o w v s
  | .wtEvict o w v => Sys2Proof.Machine.execWtEvict o w v s
  | .fwdEntryWrite o f w v => Sys2Proof.Machine.execFwdEntryWrite o f w v s
  | .forwarderTake f => Sys2Proof.Machine.execForwarderTake f s
  | .rxSubmit l f => Sys2Proof.Machine.execRxSubmit l f s
  | .rxSubres l f => Sys2Proof.Machine.execRxSubres l f s
  | .forwardResend f => Sys2Proof.Machine.execForwardResend f s
  | .rxDone l f => Sys2Proof.Machine.execRxDone l f s
  | .rxDoneack l f => Sys2Proof.Machine.execRxDoneack l f s
  | .rxResync l f => Sys2Proof.Machine.execRxResync l f s
  | .mirrorRetire k => Sys2Proof.Machine.execMirrorRetire k s
  | .eventForward src => Sys2Proof.Machine.execEventForward src s
  | .rxEvent l f => Sys2Proof.Machine.execRxEvent l f s
  | .rxCdloss l f => Sys2Proof.Machine.execRxCdloss l f s
  | .raccGo o v => Sys2Proof.Machine.execRaccGo o v s
  | .rxRreq l f => Sys2Proof.Machine.execRxRreq l f s
  | .rxRrsp l f => Sys2Proof.Machine.execRxRrsp l f s
  | .raccTimeout => Sys2Proof.Machine.execRaccTimeout s
  | .registerWrite o a v => Sys2Proof.Machine.execRegisterWrite o a v s
  | .registerReadClear o a => Sys2Proof.Machine.execRegisterReadClear o a s
  | .aliasSet o a v => Sys2Proof.Machine.execAliasSet o a v s
  | .aliasClear o a v => Sys2Proof.Machine.execAliasClear o a v s
  | .aliasToggle o a v => Sys2Proof.Machine.execAliasToggle o a v s
  | .pairOpen o a v => Sys2Proof.Machine.execPairOpen o a v s
  | .pairedWrite o a v => Sys2Proof.Machine.execPairedWrite o a v s
  | .permLockSet o => Sys2Proof.Machine.execPermLockSet o s
  | .testModeWrite o v => Sys2Proof.Machine.execTestModeWrite o v s
  | .cfgparScrub a v => Sys2Proof.Machine.execCfgparScrub a v s
  | .tansyStore => Sys2Proof.Machine.execTansyStore s
  | .tansyRdWrite o v => Sys2Proof.Machine.execTansyRdWrite o v s
  | .sspStatus f => Sys2Proof.Machine.execSspStatus f s
  | .sspRead f => Sys2Proof.Machine.execSspRead f s
  | .sspWrite f => Sys2Proof.Machine.execSspWrite f s
  | .sspStream f => Sys2Proof.Machine.execSspStream f s
  | .sspMemread f => Sys2Proof.Machine.execSspMemread f s
  | .sspMemwrite f => Sys2Proof.Machine.execSspMemwrite f s
  | .smGo o v => Sys2Proof.Machine.execSmGo o v s
  | .smFrameStart => Sys2Proof.Machine.execSmFrameStart s
  | .smDone rx => Sys2Proof.Machine.execSmDone rx s
  | .smGpioWrite o v => Sys2Proof.Machine.execSmGpioWrite o v s
  | .bar0Request r => Sys2Proof.Machine.execBar0Request r s
  | .bar2Read off len => Sys2Proof.Machine.execBar2Read off len s
  | .bar2Write off bytes => Sys2Proof.Machine.execBar2Write off bytes s
  | .pcieReset k => Sys2Proof.Machine.execPcieReset k s
  | .pcieD3hot => Sys2Proof.Machine.execPcieD3hot s
  | .eventRaise => Sys2Proof.Machine.execEventRaise s
  | .msixModerationEnd v => Sys2Proof.Machine.execMsixModerationEnd v s
  | .msixUnmask w => Sys2Proof.Machine.execMsixUnmask w s
  | .coldReset => Sys2Proof.Machine.execColdReset s
  | .warmReset => Sys2Proof.Machine.execWarmReset s
  | .warmResetEnd => Sys2Proof.Machine.execWarmResetEnd s
  | .rstWarmCmd o v => Sys2Proof.Machine.execRstWarmCmd o v s
  | .rstColdCmd o v => Sys2Proof.Machine.execRstColdCmd o v s
  | .chipletReinit o v => Sys2Proof.Machine.execChipletReinit o v s
  | .chipletReinitDone n ok => Sys2Proof.Machine.execChipletReinitDone n ok s
  | .brownOut => Sys2Proof.Machine.execBrownOut s
  | .bootSramTestDone bad => Sys2Proof.Machine.execBootSramTestDone bad s
  | .bootCalLoaded answers => Sys2Proof.Machine.execBootCalLoaded answers s
  | .bootImageLoaded answers => Sys2Proof.Machine.execBootImageLoaded s answers
  | .bootCoreBringup => Sys2Proof.Machine.execBootCoreBringup s
  | .bootListApply => Sys2Proof.Machine.execBootListApply s
  | .halfBootLockTimeout c h => Sys2Proof.Machine.execHalfBootLockTimeout c h s
  | .halfRelockTimeout c h => Sys2Proof.Machine.execHalfRelockTimeout c h s
  | .editionSelect o v => Sys2Proof.Machine.execEditionSelect o v s
  | .bootErase o v => Sys2Proof.Machine.execBootErase o v s
  | .bootProgram o v => Sys2Proof.Machine.execBootProgram o v s
  | .bootCommit o v => Sys2Proof.Machine.execBootCommit o v s
  | .bootCmdDone r => Sys2Proof.Machine.execBootCmdDone r s
  | .wdogKick o v => Sys2Proof.Machine.execWdogKick o v s
  | .wdogCfgWrite o v => Sys2Proof.Machine.execWdogCfgWrite o v s
  | .watchdog => Sys2Proof.Machine.execWatchdog s
  | .reinitCore o v => Sys2Proof.Machine.execReinitCore o v s
  | .reinitPort o v => Sys2Proof.Machine.execReinitPort o v s
  | .reinitEngine o v => Sys2Proof.Machine.execReinitEngine o v s
  | .reinitLink o v => Sys2Proof.Machine.execReinitLink o v s
  | .reinitTeaselGroup o v => Sys2Proof.Machine.execReinitTeaselGroup o v s
  | .reinitSorrel o v => Sys2Proof.Machine.execReinitSorrel o v s
  | .reinitComplete ok j => Sys2Proof.Machine.execReinitComplete ok s j
  | .chipTempUpdate temps => Sys2Proof.Machine.execChipTempUpdate temps s
  | .illegal e w => Sys2Proof.Machine.execIllegal e w s
  | .refEdgesReturn r => Sys2Proof.Machine.execRefEdgesReturn r s
  | .refEnableWrite o v => Sys2Proof.Machine.execRefEnableWrite o v s
  | .finePhaseStep p => Sys2Proof.Machine.execFinePhaseStep p s
  | .engCfgWrite o e v => Sys2Proof.Machine.execEngCfgWrite o e v s
  | .resetRelease => Sys2Proof.Machine.execResetRelease s
  | .brownOutEnd => Sys2Proof.Machine.execBrownOutEnd s
  | .vddhMonitorLow => Sys2Proof.Machine.execVddhMonitorLow s
  | .pcieLinkUp speed width host => Sys2Proof.Machine.execPcieLinkUp speed width s host
  | .pcieD3hotExit => Sys2Proof.Machine.execPcieD3hotExit s

end Sys2Proof.Machine
end

