-- ==== Sys2Proof/WellFormed.lean ====
section
/-! DEFINITION. The commands that can occur: the origins of R320, the addresses that a row names, the payload lengths of R278, and
the sizes of what a measurement or a transfer delivers. -/

namespace Sys2Proof

/-- A code of R320 that sends commands: an engine, PCI Express, the serial slave port, or a link. -/
def originOk (o : Origin) : Bool :=
  let n := o.toNat
  decide (n < 256) || n == 0x100 || n == 0x101 || (decide (0x110 ≤ n) && decide (n < 0x120))

/-- The base view of a page that has alias views (R301); the forwarding table's page has none (R392). -/
def baseView (a : RegAddr) : Bool :=
  decide (a.toNat < 0x02000000) && decide (a.toNat % 0x4000 < 0x1000) && !(decide (0x360000 ≤ a.toNat) && decide (a.toNat < 0x364000))

/-- The `_A` of a pair (R314). -/
def pairAt (a : RegAddr) : Bool :=
  match Machine.regOf a.toNat with
  | some r => [Machine.RegId.RST_CTRL_A, .PORT_MEN_A, .BOOT_CTRL_A, .PERM_LOCK_A, .TEST_CTRL_A, .EPOCH_CTRL_A, .NVM_CTRL_A,
      .WT_CTRL_A].contains r.id
  | none => false

/-- A frame of the serial slave port whose opcode is the row's, or none that a row has (R331, R333). -/
def slaveOk (op : Nat) (f : SspFrame) : Bool :=
  decide (f.edges < 8) || f.op == op || decide (6 ≤ f.op)

/-- A frame whose type is `type` has one of the payload lengths of that type (R278). -/
def frameFits (type : Nat) (lens : List Nat) (f : RyFrame) : Bool := f.type.toNat != type || lens.contains f.payload.length

/-- Worker numbers are 1 to 255 (R274). -/
def workerOk (w : WorkerIx) : Bool := decide (1 ≤ w.val)

/-- Whether a command can occur. -/
def wellFormed : Instr → Bool
  | .mailboxSubmit o _ | .mailboxTake o _ | .mailboxSnap o _ | .mailboxComplete o | .refFreqWrite o _ _ | .manSelWrite o _
  | .epochArm o _ | .epochDisarm o _ | .tbSlewWrite o _ | .halfCommit o _ _ _ | .corePowerWrite o _ _ | .ldCfgWrite o _ _ _
  | .portCommit o _ _ | .portCeilWrite o _ _ | .portMenWrite o _ | .lgConfigWrite o _ _ _ | .portTrimWrite o _ _
  | .tsRegArm o _ _ | .tsRegDisarm o _ _ | .ringCfgWrite o _ _ | .ringRelease o _ _ | .queueEnable o _ _ | .queueDisable o _ _
  | .queueResume o _ _ | .queueDescWrite o _ _ _ | .engReinit o _ _ | .xipInvalidate o _ | .sorrelRequest o _
  | .cdlyHiWrite o _ _ | .sorCtrlWrite o _ | .nvmStore o _ | .nvmErase o _ | .ryRoleWrite o _ _ | .fwdEntryWrite o _ _ _
  | .raccGo o _ | .registerWrite o _ _ | .registerReadClear o _ | .permLockSet o | .testModeWrite o _ | .tansyRdWrite o _
  | .smGo o _ | .smGpioWrite o _ | .rstWarmCmd o _ | .rstColdCmd o _ | .chipletReinit o _ | .editionSelect o _ | .bootErase o _
  | .bootProgram o _ | .bootCommit o _ | .wdogKick o _ | .wdogCfgWrite o _ | .reinitCore o _ | .reinitPort o _
  | .reinitEngine o _ | .reinitLink o _ | .reinitTeaselGroup o _ | .reinitSorrel o _ | .refEnableWrite o _
  | .engCfgWrite o _ _ => originOk o
  | .alignmentStrobe latched => latched.length == 8
  | .xipFillDone bytes => bytes.length == 64
  | .dtcBlockEnd _ _ _ bins => bins.all fun x => decide (x.1 < 64)
  | .cdAgreementTest _ a b => a.length == 128 && b.length == 128
  | .rxHello _ f => frameFits 0x01 [24] f
  | .rxJoin _ f => frameFits 0x02 [32] f
  | .rxAdmit _ f => frameFits 0x03 [16] f
  | .rxRefuse _ f => frameFits 0x04 [16] f
  | .rxLeave _ f => frameFits 0x05 [8] f
  | .rxReady _ f => frameFits 0x06 [16] f
  | .rxHb _ f => frameFits 0x08 [8] f
  | .rxTt _ f _ => frameFits 0x10 [32] f
  | .rxEpoch _ f => frameFits 0x11 [24] f
  | .rxLack _ f => frameFits 0x3E [8] f
  | .rxLnak _ f => frameFits 0x3F [8] f
  | .wtApprove o w _ => originOk o && workerOk w
  | .wtDeny o w _ => originOk o && workerOk w
  | .wtReplay o w _ => originOk o && workerOk w
  | .wtEvict o w _ => originOk o && workerOk w
  | .rxSubmit _ f => frameFits 0x20 [32, 48, 80] f
  | .rxSubres _ f => frameFits 0x21 [24] f
  | .rxDone _ f => frameFits 0x22 [40] f
  | .rxDoneack _ f => frameFits 0x23 [16] f
  | .rxResync _ f => frameFits 0x24 [16] f
  | .rxEvent _ f => frameFits 0x28 [24] f
  | .rxCdloss _ f => frameFits 0x29 [24] f
  | .rxRreq _ f => frameFits 0x30 [16] f
  | .rxRrsp _ f => frameFits 0x31 [8] f
  | .aliasSet o a _ => originOk o && baseView a
  | .aliasClear o a _ => originOk o && baseView a
  | .aliasToggle o a _ => originOk o && baseView a
  | .pairOpen o a _ => originOk o && pairAt a
  | .pairedWrite o a _ => originOk o && pairAt a
  | .sspStatus f => slaveOk 0 f
  | .sspRead f => slaveOk 1 f
  | .sspWrite f => slaveOk 2 f
  | .sspStream f => slaveOk 3 f
  | .sspMemread f => slaveOk 4 f
  | .sspMemwrite f => slaveOk 5 f
  | .bar0Request r => r.write == (r.data.length == r.dws && 0 < r.dws)
  | .chipTempUpdate temps => temps.length == 8
  | .illegal e w => (Machine.celilDecode e w 0).isNone
  | .pcieLinkUp speed width _ => decide (1 ≤ speed.val) && [1, 2, 4, 8].contains width.val
  | .dispatch _ _ | .steal _ _ | .actionSend _ _ | .actionArrive _ | .abortVerdictArrive | .phaseApply _ | .portsetApply _
  | .markApply _ | .armApply _ | .disarmApply _ | .stagingStallResume _ | .keepalive _ | .chipletLost _ | .controlDieLost _
  | .asyncSpeedUpdate _ | .membank _ | .refAbsent _ | .freqMonitorWindow _ _ | .refQualified _ | .revertTimer | .switchoverFreeze
  | .switchoverClose _ | .switchoverSettled | .holdLimit | .acquisitionComplete | .replicaStart | .epochInEdge _ _
  | .epochMissing | .epochLoad | .slewStart | .slewEnd | .halfWordApply _ _ | .halfReady _ _ | .ldWindowEnd _ _ _ _
  | .grossMonitorWindow _ _ _ | .grossNoFeedback _ _ | .bandSearchStep _ _ _ _ | .hopWindowOpen _ | .hopPrelockDone _
  | .hopPlacementDone _ _ _ | .hopReadinessTest _ | .hopSwitch _ | .postSwitchGuardFail _ | .hopInplace _ | .relockStart _
  | .relockWordLoad _ | .relockRelease _ _ _ | .relockTimeout _ | .portWordApply _ | .markerPulse _ | .ceilGuardWindow _ _ _
  | .holdLimitExpiry _ | .failoverSpareLoad _ | .failoverSearchDone _ | .failoverPrelockDone _ | .failoverPlaced _ _ _
  | .skewMeanDone _ _ | .skewOffsetDone _ _ | .skewTrimStep _ | .teaselEdge _ _ _ | .sampleTake _ | .measTimeout _ | .measDone _
  | .recordStore _ | .itemComplete _ _ | .quarantineDeferredMove _ _ | .engineWdog _ | .engFail _ | .yieldEligible _ _
  | .qmLoadUpdate _ | .cAdd _ _ _ _ | .cSub _ _ _ _ | .cAnd _ _ _ _ | .cOr _ _ _ _ | .cXor _ _ _ _ | .cSll _ _ _ _
  | .cSrl _ _ _ _ | .cSra _ _ _ _ | .cSlt _ _ _ _ | .cSltu _ _ _ _ | .cMul _ _ _ _ | .cMulhu _ _ _ _ | .cDivu _ _ _ _
  | .cRemu _ _ _ _ | .cAddi _ _ _ _ | .cAndi _ _ _ _ | .cOri _ _ _ _ | .cXori _ _ _ _ | .cSlli _ _ _ _ | .cSrli _ _ _ _
  | .cSrai _ _ _ _ | .cSlti _ _ _ _ | .cLui _ _ _ | .cLdi _ _ _ | .cLdiU _ _ _ | .cLdiH _ _ _ | .cBeq _ _ _ _ | .cBne _ _ _ _
  | .cBlt _ _ _ _ | .cBge _ _ _ _ | .cBltu _ _ _ _ | .cBgeu _ _ _ _ | .cJal _ _ _ | .cJalr _ _ _ _ | .cJl _ _ _
  | .cLds _ _ _ _ _ _ | .cSts _ _ _ _ _ | .cLd _ _ _ _ _ _ | .cSt _ _ _ _ _ | .cAadd _ _ _ _ | .cAswp _ _ _ _ | .cAcas _ _ _ _
  | .cRld _ _ _ _ | .cRst _ _ _ _ | .cWrd _ _ _ | .cTake _ _ _ | .cTakeH _ _ _ _ | .cPut _ _ _ _ _ | .putWaitEnd _ | .cAck _ _
  | .cNack _ _ | .cTnow _ _ | .cTadd _ _ _ _ | .cTaddf _ _ _ _ | .cTdiff _ _ _ _ | .cTget _ _ _ _ | .cTput _ _ _ _ | .cTmov _ _ _
  | .cTwait _ _ | .twaitResume _ | .cEvcnt _ _ _ | .cWaite _ _ _ _ _ | .waiteResume _ | .cCtxld _ _ _ | .cCtxst _ _ _
  | .cHop _ _ _ _ | .cPhase _ _ _ _ | .cPortset _ _ _ _ _ | .cMark _ _ _ _ | .cArm _ _ _ _ _ | .cDisarm _ _ _ | .cStatR _ _ _ _
  | .cStatE _ _ _ | .cFence _ | .cFenceW _ _ | .fenceWResume _ | .cYield _ _ | .cTrap _ _ | .cHalt _ | .cHaltS _ | .xipFillStart
  | .xipFillFail | .lmsBlockEnd _ _ _ | .trimBoundary _ _ | .sorrelBackgroundStart _ _ | .cdSyncTest _ _ _ | .cdTimeout _
  | .skewAttemptTimeout _ | .skewFailWaitEnd _ | .cdlyTimeout _ | .nvmAutoStore | .nvmErasePhaseDone _ | .nvmBodyDone _
  | .nvmStoreDone _ | .nvmEraseDone _ | .ryrelTrained _ | .ryrelBlockLockLoss _ | .helloSend _ | .hbSend _ | .hbMiss _ | .ttSend _ _
  | .servoPeriodEnd _ | .epochArmRetry | .lackSend _ | .reliableAckTimeout _ | .refuseRetryTimer _ | .joinTimeout _
  | .forwarderTake _ | .forwardResend _ | .mirrorRetire _ | .eventForward _ | .raccTimeout | .cfgparScrub _ _ | .tansyStore
  | .smFrameStart | .smDone _ | .bar2Read _ _ | .bar2Write _ _ | .pcieReset _ | .pcieD3hot | .eventRaise | .msixModerationEnd _
  | .msixUnmask _ | .coldReset | .warmReset | .warmResetEnd | .chipletReinitDone _ _ | .brownOut | .bootSramTestDone _
  | .bootCalLoaded _ | .bootImageLoaded _ | .bootCoreBringup | .bootListApply | .halfBootLockTimeout _ _ | .halfRelockTimeout _ _
  | .bootCmdDone _ | .watchdog | .reinitComplete _ _ | .refEdgesReturn _ | .finePhaseStep _ | .resetRelease | .brownOutEnd
  | .vddhMonitorLow | .pcieD3hotExit => true

end Sys2Proof
end

