-- ==== Sys2Proof/Safety.lean ====
section
/-! DEFINITION. What claims mean by a safe state and a safe run: every sparse collection stands in its canonical form, so that equal
contents are equal data, and a run goes on from command to command. -/

namespace Sys2Proof.Machine

/-- The canonical form of the on-chip memory (R26): addresses strictly rising, no byte listed that reads 0. -/
def Memory.wf (m : List Host.Cell) : Bool := SMap.wf (fun _ => (0 : Byte)) m

/-- The canonical form of the NVM die (R265): no byte listed that is erased. -/
def Nvm.wf (m : List Host.Cell) : Bool := SMap.wf (fun _ => (0xFF : Byte)) m

/-- The memories and the register file of a state stand in canonical form. -/
structure State.Canonical (s : State) : Prop where
  mem : Memory.wf s.mem = true
  nvm : Nvm.wf s.nvm = true
  regs : SMap.wf resetAt s.regs = true
  wide : SMap.wf (fun _ => (0 : Nat)) s.wide = true

/-- Every command that waits can occur. -/
def State.queueOk (s : State) : Prop := ∀ c ∈ s.pending, wellFormed c = true

/-- A command completes from a state. -/
def completes (c : Instr) (s : State) : Prop := ∃ t, exec c s = .next t

/-! ## What a command leaves as it was -/

/-- The components of the state. -/
inductive Part where
  | pending | clock | freeCtr | regs | wide | mem | chips | halves | cores | ports | preds | chans | cdlys | nvm | eraseCnt | nvmOp
  | calGen | convSeen | autoDone | vddhLow | ringSeq | tb | queues | engines | xip | ctxBad | badWords | ecc | rel | verdicts
  | raising | raises | orgs | tansyQ | tansyGap | tansySeq | tansyUnrel | parBad | nvmLost | timers | loadMark | ssp | sm | links | ry
  | raiseTs | routedAt | msix | cfg | bme | fnMask | msgLast | porst | brown | warm | boot | bootCmd | wdogFrom | wdogOut | asyncOver
  | halfFaults | lossFaults | chipReinit | reinits | cdStamps | outs
  deriving DecidableEq, Repr

/-- Two states agree in a component. -/
def Part.same (s t : State) : Part → Prop
  | .pending => t.pending = s.pending
  | .clock => t.clock = s.clock
  | .freeCtr => t.freeCtr = s.freeCtr
  | .regs => t.regs = s.regs
  | .wide => t.wide = s.wide
  | .mem => t.mem = s.mem
  | .chips => t.chips = s.chips
  | .halves => t.halves = s.halves
  | .cores => t.cores = s.cores
  | .ports => t.ports = s.ports
  | .preds => t.preds = s.preds
  | .chans => t.chans = s.chans
  | .cdlys => t.cdlys = s.cdlys
  | .nvm => t.nvm = s.nvm
  | .eraseCnt => t.eraseCnt = s.eraseCnt
  | .nvmOp => t.nvmOp = s.nvmOp
  | .calGen => t.calGen = s.calGen
  | .convSeen => t.convSeen = s.convSeen
  | .autoDone => t.autoDone = s.autoDone
  | .vddhLow => t.vddhLow = s.vddhLow
  | .ringSeq => t.ringSeq = s.ringSeq
  | .tb => t.tb = s.tb
  | .queues => t.queues = s.queues
  | .engines => t.engines = s.engines
  | .xip => t.xip = s.xip
  | .ctxBad => t.ctxBad = s.ctxBad
  | .badWords => t.badWords = s.badWords
  | .ecc => t.ecc = s.ecc
  | .rel => t.rel = s.rel
  | .verdicts => t.verdicts = s.verdicts
  | .raising => t.raising = s.raising
  | .raises => t.raises = s.raises
  | .orgs => t.orgs = s.orgs
  | .tansyQ => t.tansyQ = s.tansyQ
  | .tansyGap => t.tansyGap = s.tansyGap
  | .tansySeq => t.tansySeq = s.tansySeq
  | .tansyUnrel => t.tansyUnrel = s.tansyUnrel
  | .parBad => t.parBad = s.parBad
  | .nvmLost => t.nvmLost = s.nvmLost
  | .timers => t.timers = s.timers
  | .loadMark => t.loadMark = s.loadMark
  | .ssp => t.ssp = s.ssp
  | .sm => t.sm = s.sm
  | .links => t.links = s.links
  | .ry => t.ry = s.ry
  | .raiseTs => t.raiseTs = s.raiseTs
  | .routedAt => t.routedAt = s.routedAt
  | .msix => t.msix = s.msix
  | .cfg => t.cfg = s.cfg
  | .bme => t.bme = s.bme
  | .fnMask => t.fnMask = s.fnMask
  | .msgLast => t.msgLast = s.msgLast
  | .porst => t.porst = s.porst
  | .brown => t.brown = s.brown
  | .warm => t.warm = s.warm
  | .boot => t.boot = s.boot
  | .bootCmd => t.bootCmd = s.bootCmd
  | .wdogFrom => t.wdogFrom = s.wdogFrom
  | .wdogOut => t.wdogOut = s.wdogOut
  | .asyncOver => t.asyncOver = s.asyncOver
  | .halfFaults => t.halfFaults = s.halfFaults
  | .lossFaults => t.lossFaults = s.lossFaults
  | .chipReinit => t.chipReinit = s.chipReinit
  | .reinits => t.reinits = s.reinits
  | .cdStamps => t.cdStamps = s.cdStamps
  | .outs => t.outs = s.outs

/-- Beside the named components, `t` is `s`. -/
def Kept (ps : List Part) (s t : State) : Prop := ∀ p, p ∉ ps → p.same s t

/-- Beside the registers at the named addresses, every register reads as before. -/
def RegsKept (l : List Nat) (s t : State) : Prop := ∀ a, a ∉ l → t.reg a = s.reg a

/-! ## What Vetch serves (R301 to R322) -/

/-- Whether Vetch serves origin `o`'s access to the register at base address `a`, with nothing beside it to do: Vetch works, the
access can arrive (R354), the origin has no open pair, its class may make the access, the address is no mailbox, MSI-X or context
word, its chiplet is in service and, for a write, its function is not frozen. -/
def State.serves (s : State) (o a : Nat) (write : Bool) : Bool :=
  !s.vetchOff && s.busOn o && (s.org o).pair.isNone && a % 4 == 0 && baseOf a == a && s.mayAccess o a write &&
    !mailboxAt a && (msixTableAt a).isNone && (msixPbaAt a).isNone && (ctxOffset a).isNone &&
    !s.barred a && !(write && s.frozen a)

/-- Whether a served write of `v` at `a` meets no rule against it: every reserved bit is written back as read and no hardware-owned bit
changes (R303, R304, R308), no lock or ownership holds the register (R68, R316, R323), and the change log has room (R327). -/
def State.clean (s : State) (r : RegAt) (a : Nat) (v : Word) : Bool :=
  ((v ^^^ s.view r a) &&& BitVec.ofNat 32 ((regRow r.id).rsvd ||| (regRow r.id).hwo)) == 0 && !s.lockedBy r && !s.ownedNow r &&
    !s.onceSet r a && !s.testMode && decide (s.tansyQ.length < 256)

/-- Whether origin `o`'s write of `v` to register (i, j) of a family is served and meets no rule against it. -/
def State.writes (s : State) (o : Origin) (id : RegId) (i j : Nat) (v : Word) : Bool :=
  s.serves o.toNat (id.at i j) true && s.clean ⟨id, i, j⟩ (id.at i j) v

/-- Whether origin `o`'s paired write of `v` to the pair whose `_A` is register `i` of a family is served, with the bits that no table
names written back as read, and the change log has room (R303, R314, R327). -/
def State.writesPair (s : State) (o : Origin) (id : RegId) (i : Nat) (v : Word) : Bool :=
  s.serves o.toNat (id.at i) true && s.serves o.toNat (id.at i + 4) true && id.isPairA && !s.testMode &&
    ((v ^^^ s.reg (id.at i)) &&& ~~~(BitVec.ofNat 32 (pairMask id))) == 0 && decide (s.tansyQ.length < 256)

/-! ## What an engine does to the state (R212) -/

/-- Engine `e` executes the words `ws`: it runs a handler, waits for nothing, and they stand at its PC (R192, R215). -/
def State.fetches (s : State) (e : Nat) (ws : List Word) : Bool :=
  s.canRun e && (List.range ws.length).all fun k => s.fetchWord e (s.pc e + 4 * k) == .val (ws.getD k 0).toNat

/-- One byte of an engine's scratch. -/
def State.scratchByte (s : State) (e k : Nat) : Byte := SMap.get (fun _ => (0 : Byte)) (s.eng e).scratch k

/-- Beside engine `e`, its PC, the order of the lines in the execute-in-place cache, and the single-bit errors that its fetches correct
(R28), `t` is `s`. -/
structure OnlyEngine (e : Nat) (s t : State) : Prop where
  engines : ∀ k, k ≠ e → t.eng k = s.eng k
  regs : ∀ a, a ≠ RegId.ENG_PC.at e → t.reg a = s.reg a
  rest : ∃ es rs ls wk n, t = { s with
    engines := es, regs := rs, xip := { s.xip with lines := ls }, ecc := { s.ecc with weak := wk, corrected := n } }

/-- Beside engine `e`, its PC, the order of the lines in the execute-in-place cache, on-chip memory with its uncorrectable words, and
the single-bit errors that are corrected, `t` is `s`. -/
structure OnlyEngineMem (e : Nat) (s t : State) : Prop where
  engines : ∀ k, k ≠ e → t.eng k = s.eng k
  regs : ∀ a, a ≠ RegId.ENG_PC.at e → t.reg a = s.reg a
  rest : ∃ es rs ls m bad wk n, t = { s with
    engines := es, regs := rs, xip := { s.xip with lines := ls }, mem := m, badWords := bad
    ecc := { s.ecc with weak := wk, corrected := n } }

/-- The general registers of engine `e` after g`d` takes `v`: g0 reads 0 (R212). -/
def WroteG (e d : Nat) (v : Dword) (s t : State) : Prop :=
  ∀ k, t.gr e k = if k = 0 then 0 else if k = d then v else s.gr e k

/-- The time registers of engine `e` after t`d` takes `v`. -/
def WroteT (e d : Nat) (v : BitVec 80) (s t : State) : Prop := ∀ k, t.tr e k = if k = d then v else s.tr e k

/-- The scratch of engine `e` after bytes `bs` are stored at `x`; a 64-bit word stored whole is good again (R28). -/
def WroteScratch (e x : Nat) (bs : List Byte) (s t : State) : Prop :=
  (∀ k, t.scratchByte e k = if x ≤ k ∧ k < x + bs.length then bs.getD (k - x) 0 else s.scratchByte e k) ∧
    ∀ w, w ∈ (t.eng e).scrBad ↔ w ∈ (s.eng e).scrBad ∧ ¬ (x ≤ 8 * w ∧ 8 * w + 8 ≤ x + bs.length)

/-- On-chip memory after bytes `bs` are stored at `x`; a 64-bit word stored whole is good again (R28). -/
def WroteMem (x : Nat) (bs : List Byte) (s t : State) : Prop :=
  (∀ a, t.byte a = if x ≤ a ∧ a < x + bs.length then bs.getD (a - x) 0 else s.byte a) ∧
    ∀ w, w ∈ t.badWords ↔ w ∈ s.badWords ∧ ¬ (x ≤ 8 * w ∧ 8 * w + 8 ≤ x + bs.length)

/-- Engine `e` goes on `n` words further, and of its own state only what the statement names changes: general registers,
time registers, scratch. The lines delivered to the instruction are gone. -/
structure WentOn (e n : Nat) (g t' scr : Bool) (s t : State) : Prop where
  pc : t.pc e = s.pc e + 4 * n
  engine : t.eng e = { s.eng e with
    g := if g then (t.eng e).g else (s.eng e).g
    t := if t' then (t.eng e).t else (s.eng e).t
    scratch := if scr then (t.eng e).scratch else (s.eng e).scratch
    scrBad := if scr then (t.eng e).scrBad else (s.eng e).scrBad
    lines := [] }

/-- The signed or unsigned number that `n` little-endian bytes spell. -/
def numberOf (unsigned : Bool) (bs : List Byte) : Int :=
  if !unsigned && decide (2 ^ (8 * bs.length) ≤ 2 * leNat bs) then (leNat bs : Int) - 2 ^ (8 * bs.length) else leNat bs

end Sys2Proof.Machine
end

