-- ==== Sys2Proof/Certificates/Slice0/Obligations.lean ====
section
/-! DEFINITION. The statements about the T1024, each from the rules of the spec that its docstring names. A command is said to
complete by its conclusion `exec c s = .next t`, with what `t` holds and what it leaves as it was. Of all of them: an event acts only where its
condition holds, at no earlier clock than its time, and what a circuit of the part measures is an operand of its row (log entries 1, 2, 4
and 5, the model's choices). -/

/-- The byte order of R8: the least significant byte lies first. -/
def Sys2Proof.Claims.bytesOf (n v : Nat) : List Sys2Proof.Byte := (List.range n).map fun k => BitVec.ofNat 8 (v / 256 ^ k)

/-- The registers to which a write does more than store its value, by their chapters; the pairs are among them. -/
def Sys2Proof.Claims.hooked (r : Sys2Proof.Machine.RegId) : Bool :=
  r.isPairA || r.isPairB ||
    [.EDITION_SEL, .REINIT, .WDOG_CFG, .WDOG_KICK, .LG_MEM_LO, .LG_MEM_HI, .LG_SPARE, .LG_CFG, .XIP_CACHE, .TANSY_RD, .REF_CFG,
      .REF_QUAL, .REFA_FREQ, .REFB_FREQ, .TB_SLEW, .EV_ROUTE, .CORE_CTRL, .LD_CFG, .HALF_CMD, .SOR_CTRL, .SOR_REQ, .SM_CFG, .SM_GPIO,
      .SM_TIME,
      .SM_CMD, .SM_XIP_TMO, .SM_XIP, .RY_GCFG, .RY_CFG, .RY_RACC_CTRL, .FWD_CFG, .FWD_DST, .FWD_CQ, .WT_CTRL, .ENG_CMD, .ENG_CFG,
      .TS_IN, .TS_CMD, .RING_CFG, .RING_REL, .PORT_CFG, .PORT_CMD, .PORT_CEIL, .PORT_MK2, .CD_STAT, .PORT_TRIM, .PORT_SKEW, .QD_CTRL,
      .QD_LEN, .QD_AFF,
      .CDLY_HI, .SSP_CFG].contains r

open Sys2Proof Sys2Proof.Machine Sys2Proof.Claims

/-! ## The block as a whole -/

/-- A step runs the command at the front of the queue, with the queue's rest. -/
def Obligations.StepRunsTheFrontCommand : Prop :=
  ∀ (c : Instr) (rest : List Instr) (s : State), s.pending = c :: rest → step s = exec c { s with pending := rest }

/-- What could act at the next tick, each alone: a channel other than `k` with a register command or a closed gate, an engine
other than `e` whose re-initialisation ends, a link other than `l` that is down and has a role, a replay, a select of the master
port that has still to rise or a write held for its pins, a bank other than `b` whose errors meet R29. -/
def Sys2Proof.Claims.chansQuiet (k : Option Nat) (s : State) : Prop :=
  ∀ x ∈ s.chans, k = some x.1 ∨ (x.2.armPend = none ∧ x.2.disPend = false ∧ x.2.meas.any (·.ending) = false)

def Sys2Proof.Claims.enginesQuiet (e : Option Nat) (s : State) : Prop :=
  ∀ x ∈ s.engines, e = some x.1 ∨ ∀ t, x.2.reinitAt = some t → s.clock + 1 < t

def Sys2Proof.Claims.linksQuiet (l : Option Nat) (s : State) : Prop :=
  ∀ k, k < 16 → l = some k ∨ s.linkState k ≠ lsDown ∨ s.role k = 0 ∨ s.chipLost (linkChip k) = true

def Sys2Proof.Claims.replaysQuiet (s : State) : Prop := ∀ x ∈ s.ry.wts, x.2.replay = []

def Sys2Proof.Claims.pinsQuiet (s : State) : Prop := s.sm.rising = none ∧ s.sm.held = []

def Sys2Proof.Claims.banksQuiet (b : Option Nat) (s : State) : Prop :=
  ∀ k, k < 16 → b = some k ∨ s.bankFails k = false ∨ s.bankLost k = true

/-- With no command waiting, a step is one tick of the conditioned clock, and nothing while a cold reset is held. This is the
model's choice (log entry 1). Where nothing waits for the boundary, the clock alone moves (R5). A re-initialised engine returns to
IDLE, or to OFF (R207); a link that is down retrains (R279); a bank with uncorrectable errors on four rows is declared lost (R29);
a write held for the select pins reaches them once it is due (R345), and a select that a warm reset left low rises (R350). -/
def Obligations.AnEmptyQueueLetsATickPass : Prop :=
  (∀ (s : State), s.pending = [] → s.coldHeld = true → step s = .next s) ∧
  (∀ (s : State), s.pending = [] → s.coldHeld = false → chansQuiet none s → enginesQuiet none s → linksQuiet none s →
    replaysQuiet s → pinsQuiet s →
    banksQuiet none s → step s = .next { s with clock := s.clock + 1 }) ∧
  (∀ (e : EngineIx) (due : Nat) (s : State), s.pending = [] → s.coldHeld = false → chansQuiet none s → enginesQuiet (some e) s →
    linksQuiet none s → replaysQuiet s → pinsQuiet s → banksQuiet none s → (s.eng e).reinitAt = some due → due ≤ s.clock + 1 →
    ∃ t, step s = .next t ∧ t.clock = s.clock + 1 ∧ t.engState e = (if s.engOn e then esIdle else esOff) ∧
      t.isSet ENG_CMD.REINIT e = false ∧ (t.eng e).reinitAt = none) ∧
  (∀ (l : LinkIx) (s : State), s.pending = [] → s.coldHeld = false → chansQuiet none s → enginesQuiet none s → linksQuiet (some l.val) s →
    replaysQuiet s → pinsQuiet s → banksQuiet none s → s.linkState l = lsDown → s.role l ≠ 0 → s.chipLost (linkChip l) = false →
    ∃ t, step s = .next t ∧ t.clock = s.clock + 1 ∧ t.linkState l = lsTrain) ∧
  (∀ (b : Nat) (s : State), s.pending = [] → s.coldHeld = false → chansQuiet none s → enginesQuiet none s → linksQuiet none s →
    replaysQuiet s → pinsQuiet s → banksQuiet (some b) s → b < 16 → s.bankFails b = true → s.cdDown = false →
    ∃ t, step s = .next t ∧ t.clock = s.clock + 1 ∧ t.bankLost b = true) ∧
  (∀ (h : HeldPins) (s : State), s.pending = [] → s.coldHeld = false → chansQuiet none s → enginesQuiet none s → linksQuiet none s →
    replaysQuiet s → s.sm.rising = none → s.sm.held = [h] → h.frame = false → h.fill = false → h.due ≤ s.clock + 1 → banksQuiet none s →
    ∃ t, step s = .next t ∧ t.clock = s.clock + 1 ∧ t.sm.pins = h.v % 16 ∧ t.sm.held = [] ∧ t.outs = s.outs ++ [.smPins t.mselLevels] ∧
      Kept [.clock, .sm, .outs] s t) ∧
  (∀ (n : Fin 4) (due : Nat) (s : State), s.pending = [] → s.coldHeld = false → chansQuiet none s → enginesQuiet none s →
    linksQuiet none s → replaysQuiet s → s.sm.rising = some (n.val, due) → s.sm.held = [] → due ≤ s.clock + 1 → banksQuiet none s →
    ∃ t, step s = .next t ∧ t.clock = s.clock + 1 ∧ t.sm.rising = none ∧ SMap.get (fun _ => 0) t.sm.selUp n = due ∧
      t.outs = s.outs ++ [.smPins t.mselLevels] ∧ Kept [.clock, .sm, .outs] s t)

/-- R363, R364, R366, R389 to R394: after a cold reset the boot stands at step 1, the level is SL0, nothing waits or runs, every
register holds the reset value of its table, and every collection stands in canonical form. It rests on choices of the model,
which are in the log: entry 3 (where commands come from), entry 9 (on-chip memory before it is cleared), entry 11 (reset values of
the machinery behind the registers), entry 32 (PCI Express beside the registers), entry 84 (ACT_FRAC and ACT_RATIO before a word). -/
def Obligations.ResetLeavesTheTabledValues : Prop :=
  (∀ a, State.reset.reg a = resetAt a) ∧ resetAt RegId.ASYNC_LIMIT.at = 0x460 ∧ resetAt RegId.SL_STAT.at = 0x10 ∧
    resetAt RegId.ID_PART.at = 0x11024 ∧
    (∀ k, k < 4 → resetAt (RegId.PERM_CLASS.at k) = [0xFFFFFFFF#32, 0xFFFFFFFD, 0xFFFFD830, 0xFFFFFFFF].getD k 0) ∧
    State.reset.get SL_STAT.LEVEL = 0 ∧ State.reset.boot = .sram ∧ State.reset.pending = [] ∧ State.reset.mem = [] ∧
    State.reset.coldHeld = false ∧ State.reset.warm = false ∧ State.reset.get PORT_MEN_A.MEN = 0 ∧
    (∀ p, p < 1024 → State.reset.get PORT_STAT.RUNNING p = 0) ∧ (∀ e, e < 256 → State.reset.pc e = 0) ∧ State.reset.Canonical

/-- R364, R365: while a cold reset is held nothing happens in the part: of all commands only those of the reset itself act. -/
def Obligations.NothingActsDuringAColdReset : Prop :=
  ∀ (c : Instr) (s : State), s.coldHeld = true → c ∉ [Instr.coldReset, .brownOut, .resetRelease, .brownOutEnd] →
    exec c s = .next s

/-- Every command completes; none touches the commands that wait behind it; and what has gone out of the part stays out. It rests on
choices of the model, which are in the log: entry 2 (a row whose condition does not hold), entry 3 (where commands come from),
entry 8 (what the part drives out). -/
def Obligations.CommandsCompleteAndKeepTheQueue : Prop :=
  ∀ (c : Instr) (s : State), ∃ t, exec c s = .next t ∧ t.pending = s.pending ∧ ∃ l, t.outs = s.outs ++ l

/-- Every step keeps the canonical form of the memories, the register file and the wide values: equal contents are equal data (R26,
R265, R389 to R395). It rests on choices of the model, which are in the log: entry 9 (on-chip memory before it is cleared), entry
10 (the NVM die as delivered). -/
def Obligations.StepsKeepTheCanonicalForm : Prop :=
  ∀ (s t : State), s.Canonical → step s = .next t → t.Canonical

/-- R217, R218, R221 to R243: the words of every Celil instruction decode to it, with every operand at every value, and words that
decode are those of the instruction that they decode to. A PUT that repeats because acceptance is behind (R230) has the words of a
first one. It rests on choices of the model, which are in the log: entry 28 (rates of acceptance). -/
def Obligations.CelilWordsAndInstructionsAgree : Prop :=
  (∀ (i : Instr) (w w1 : Word), celilWords i = some [w] → (∀ e d b q, i ≠ .cPut e d b q true) →
    ∃ e, celilDecode e w w1 = some i) ∧
  (∀ (i : Instr) (w w1 : Word), celilWords i = some [w, w1] → ∃ e, celilDecode e w w1 = some i) ∧
  (∀ (e : EngineIx) (w w1 : Word) (i : Instr), celilDecode e w w1 = some i → celilWords i = some [w] ∨ celilWords i = some [w, w1])

/-- R364, R208: while a cold reset is held no engine holds an item: the state after reset is so, and every step keeps it so. -/
def Obligations.EnginesHoldNothingInAColdReset : Prop :=
  (∀ e, (State.reset.eng e).held = none) ∧
  ∀ (s t : State), (s.coldHeld = true → ∀ e, (s.eng e).held = none) → step s = .next t →
    t.coldHeld = true → ∀ e, (t.eng e).held = none

/-! ## Celil: integer, branches, memory -/

/-- What an instruction of R221 writes: its engine, the destination, the value as an integer modulo 2^64, and its length in words. -/
def Sys2Proof.Claims.integerValue (s : State) : Instr → Option (EngineIx × GReg × Int × Nat)
  | .cAdd e d a b => some (e, d, (s.gr e a).toNat + (s.gr e b).toNat, 1)
  | .cSub e d a b => some (e, d, (s.gr e a).toNat - (s.gr e b).toNat, 1)
  | .cAnd e d a b => some (e, d, (s.gr e a &&& s.gr e b).toNat, 1)
  | .cOr e d a b => some (e, d, (s.gr e a ||| s.gr e b).toNat, 1)
  | .cXor e d a b => some (e, d, (s.gr e a ^^^ s.gr e b).toNat, 1)
  | .cSll e d a b => some (e, d, (s.gr e a).toNat * 2 ^ ((s.gr e b).toNat % 64), 1)
  | .cSrl e d a b => some (e, d, (s.gr e a).toNat / 2 ^ ((s.gr e b).toNat % 64), 1)
  | .cSra e d a b => some (e, d, (s.gr e a).toInt / 2 ^ ((s.gr e b).toNat % 64), 1)
  | .cSlt e d a b => some (e, d, if (s.gr e a).toInt < (s.gr e b).toInt then 1 else 0, 1)
  | .cSltu e d a b => some (e, d, if (s.gr e a).toNat < (s.gr e b).toNat then 1 else 0, 1)
  | .cMul e d a b => some (e, d, (s.gr e a).toNat * (s.gr e b).toNat, 1)
  | .cMulhu e d a b => some (e, d, (s.gr e a).toNat * (s.gr e b).toNat / 2 ^ 64, 1)
  | .cDivu e d a b =>
    some (e, d, if (s.gr e b).toNat = 0 then 0xFFFFFFFFFFFFFFFF else (s.gr e a).toNat / (s.gr e b).toNat, 1)
  | .cRemu e d a b => some (e, d, if (s.gr e b).toNat = 0 then (s.gr e a).toNat else (s.gr e a).toNat % (s.gr e b).toNat, 1)
  | .cAddi e d a imm => some (e, d, (s.gr e a).toNat + imm.toInt, 1)
  | .cAndi e d a imm => some (e, d, (s.gr e a &&& imm.setWidth 64).toNat, 1)
  | .cOri e d a imm => some (e, d, (s.gr e a ||| imm.setWidth 64).toNat, 1)
  | .cXori e d a imm => some (e, d, (s.gr e a ^^^ imm.setWidth 64).toNat, 1)
  | .cSlli e d a n => some (e, d, (s.gr e a).toNat * 2 ^ n.toNat, 1)
  | .cSrli e d a n => some (e, d, (s.gr e a).toNat / 2 ^ n.toNat, 1)
  | .cSrai e d a n => some (e, d, (s.gr e a).toInt / 2 ^ n.toNat, 1)
  | .cSlti e d a imm => some (e, d, if (s.gr e a).toInt < imm.toInt then 1 else 0, 1)
  | .cLui e d imm => some (e, d, imm.toInt * 65536, 1)
  | .cLdi e d imm => some (e, d, imm.toInt, 2)
  | .cLdiU e d imm => some (e, d, imm.toNat, 2)
  | .cLdiH e d imm => some (e, d, imm.toNat * 2 ^ 32 + (s.gr e d).toNat % 2 ^ 32, 2)
  | _ => none

/-- R221, every instruction of its table: the value written, PC, and nothing else. -/
def Sys2Proof.Claims.IntegerInstructionsComplete : Prop :=
  ∀ (i : Instr) (s : State) (e : EngineIx) (d : GReg) (v : Int) (n : Nat) (ws : List Word),
    integerValue s i = some (e, d, v, n) → celilWords i = some ws → s.fetches e ws = true →
    ∃ t, exec i s = .next t ∧ OnlyEngine e s t ∧ WroteG e d (BitVec.ofInt 64 v) s t ∧ WentOn e n true false false s t

/-- What an instruction of R222 does: its engine, whether it jumps, the address as an integer, the register that takes the return
address, and its length in words. -/
def Sys2Proof.Claims.jumpOf (s : State) : Instr → Option (EngineIx × Bool × Int × Option GReg × Nat)
  | .cBeq e a b imm => some (e, decide (s.gr e a = s.gr e b), s.pc e + 4 * imm.toInt, none, 1)
  | .cBne e a b imm => some (e, decide (s.gr e a ≠ s.gr e b), s.pc e + 4 * imm.toInt, none, 1)
  | .cBlt e a b imm => some (e, decide ((s.gr e a).toInt < (s.gr e b).toInt), s.pc e + 4 * imm.toInt, none, 1)
  | .cBge e a b imm => some (e, decide ((s.gr e b).toInt ≤ (s.gr e a).toInt), s.pc e + 4 * imm.toInt, none, 1)
  | .cBltu e a b imm => some (e, decide ((s.gr e a).toNat < (s.gr e b).toNat), s.pc e + 4 * imm.toInt, none, 1)
  | .cBgeu e a b imm => some (e, decide ((s.gr e b).toNat ≤ (s.gr e a).toNat), s.pc e + 4 * imm.toInt, none, 1)
  | .cJal e d off => some (e, true, s.pc e + 4 * off.toInt, some d, 1)
  | .cJalr e d a imm => some (e, true, (s.gr e a).toNat + imm.toInt, some d, 1)
  | .cJl e d addr => some (e, true, addr.toNat, some d, 2)
  | _ => none

/-- The two ranges of code space and its alignment (R192). -/
def Sys2Proof.Claims.inCode (a : Int) : Prop := a % 4 = 0 ∧ (0 ≤ a ∧ a < 0x400000 ∨ 0x04000000 ≤ a ∧ a < 0x08000000)

/-- R222, every branch and jump: PC and the return address, and nothing else, where the branch is not taken or its target, modulo
2^64, is a code address. -/
def Sys2Proof.Claims.BranchesAndJumpsComplete : Prop :=
  ∀ (i : Instr) (s : State) (e : EngineIx) (taken : Bool) (x : Int) (link : Option GReg) (n : Nat) (ws : List Word),
    jumpOf s i = some (e, taken, x, link, n) → celilWords i = some ws → s.fetches e ws = true →
    (taken = true → inCode (x % 2 ^ 64)) →
    ∃ t, exec i s = .next t ∧ OnlyEngine e s t ∧
      (t.pc e : Int) = (if taken then x % 2 ^ 64 else (s.pc e : Int) + 4 * n) ∧
      (match link with
        | some d => WroteG e d (BitVec.ofNat 64 (s.pc e + 4 * n)) s t
        | none => ∀ k, t.gr e k = s.gr e k) ∧
      t.eng e = { s.eng e with g := (t.eng e).g, lines := [] }

/-- R221, every instruction of its table: the value written, PC, and nothing else. R222, every branch and jump: PC and the return
address, and nothing else, where the branch is not taken or its target, modulo 2^64, is a code address. It rests on choices of the
model, which are in the log: entry 67 (the execute-in-place cache). -/
def Obligations.IntegersAndBranchesComplete : Prop :=
  Claims.IntegerInstructionsComplete ∧ Claims.BranchesAndJumpsComplete

/-- R223: LDS reads scratch, little-endian, sign-extended or zero-extended; STS stores the low bytes of g`d`. Both for an access that is
aligned and lies within scratch, LDS for one that meets no uncorrectable word. -/
def Sys2Proof.Claims.ScratchAccessesComplete : Prop :=
  ∀ (e : EngineIx) (w : Fin 4) (d a : GReg) (off : BitVec 13) (s : State) (x : Nat),
    (x : Int) = ((s.gr e a).toNat + off.toInt) % 2 ^ 64 → x % 2 ^ w.val = 0 → x + 2 ^ w.val ≤ 0x1000 →
    (∀ u : Bool, s.fetches e [encM 0x10 d a w u off] = true → s.scratchBad e x (2 ^ w.val) = false →
      ∃ t, exec (.cLds e w u d a off) s = .next t ∧ OnlyEngine e s t ∧
        WroteG e d (BitVec.ofInt 64 (numberOf u ((List.range (2 ^ w.val)).map fun k => s.scratchByte e (x + k)))) s t ∧
        WentOn e 1 true false false s t) ∧
    (s.fetches e [encM 0x11 d a w false off] = true →
      ∃ t, exec (.cSts e w d a off) s = .next t ∧ OnlyEngine e s t ∧
        WroteScratch e x (bytesOf (2 ^ w.val) (s.gr e d).toNat) s t ∧
        WentOn e 1 false false true s t)

/-- R224: LD reads the program store, the Tansy log, the record ring space, or a line of the execute-in-place window that the cache or a
fill has; ST stores to the program store. Both for an aligned access whose bank is not lost, LD for one that meets no uncorrectable
word. -/
def Sys2Proof.Claims.SharedAccessesComplete : Prop :=
  ∀ (e : EngineIx) (w : Fin 4) (d a : GReg) (off : BitVec 13) (s : State) (x : Nat),
    (x : Int) = ((s.gr e a).toNat + off.toInt) % 2 ^ 64 → x % 2 ^ w.val = 0 →
    (∀ u : Bool, s.fetches e [encM 0x12 d a w u off] = true →
      (0x01400000 ≤ x ∧ x < 0x01A00000 ∨ 0x01A14000 ≤ x ∧ x < 0x01D00000) → s.bankLost (bankOf x) = false →
      s.anyBad x (2 ^ w.val) = false →
      ∃ t, exec (.cLd e w u d a off) s = .next t ∧ OnlyEngine e s t ∧
        WroteG e d (BitVec.ofInt 64 (numberOf u ((List.range (2 ^ w.val)).map fun k => s.byte (x + k)))) s t ∧
        WentOn e 1 true false false s t) ∧
    (∀ (u : Bool) (line : List Byte), s.fetches e [encM 0x12 d a w u off] = true → 0x04000000 ≤ x → x < 0x08000000 →
      s.xipOn (x - 0x04000000) = true → s.xipLine e (x - 0x04000000) true = some line → line.length = 64 →
      ∃ t, exec (.cLd e w u d a off) s = .next t ∧ OnlyEngine e s t ∧
        WroteG e d (BitVec.ofInt 64 (numberOf u ((line.drop (x % 64)).take (2 ^ w.val)))) s t ∧
        WentOn e 1 true false false s t) ∧
    (s.fetches e [encM 0x13 d a w false off] = true → 0x01400000 ≤ x → x < 0x01800000 → s.bankLost (bankOf x) = false →
      ∃ t, exec (.cSt e w d a off) s = .next t ∧ OnlyEngineMem e s t ∧
        WroteMem x (bytesOf (2 ^ w.val) (s.gr e d).toNat) s t ∧
        WentOn e 1 false false false s t)

/-- R223: LDS reads scratch, little-endian, sign-extended or zero-extended; STS stores the low bytes of g`d`. Both for an access that
is aligned and lies within scratch, LDS for one that meets no uncorrectable word. R224: LD reads the program store, the Tansy log,
the record ring space, or a line of the execute-in-place window that the cache or a fill has; ST stores to the program store. Both
for an aligned access whose bank is not lost, LD for one that meets no uncorrectable word. It rests on choices of the model, which
are in the log: entry 13 (errors of on-chip memory), entry 67 (the execute-in-place cache). -/
def Obligations.LoadsAndStoresComplete : Prop :=
  Claims.ScratchAccessesComplete ∧ Claims.SharedAccessesComplete

/-- What a read that returns word `w` does to its register (R309): a latched status bit that is read as 1 clears if its cause has gone,
and every other register but the count of kept bits stays. -/
def Sys2Proof.Claims.ReadLeaves (r : RegAt) (a : Nat) (w : Word) (except : List Nat) (s t : State) : Prop :=
  (∀ b < 32, (t.reg a).getLsbD b =
    ((s.reg a).getLsbD b && !((regRow r.id).rcc.testBit b && w.getLsbD b && s.causeGone r b))) ∧
  (∀ x, x ≠ a → x ≠ RegId.VETCH_CNT.at → x ∉ except → t.reg x = s.reg x)

/-- R227: RLD of a register that the engine's class may read takes its word, zero-extended, with the effect of R309; RST of a register
that its class may write is the direct write of the low half of g`d`, here to a register without rules of its own (R303, R308). -/
def Sys2Proof.Claims.CelilRegisterAccessesComplete : Prop :=
  ∀ (e : EngineIx) (d a : GReg) (imm : BitVec 16) (s : State) (x : Nat) (r : RegAt),
    (x : Int) = ((s.gr e a).toNat + imm.toInt) % 2 ^ 64 → regOf x = some r →
    (s.fetches e [encI 0x15 d a imm.toNat] = true → s.serves e x false = true →
      ∃ t, exec (.cRld e d a imm) s = .next t ∧
        WroteG e d ((if r.id.readsZero then 0 else s.view r x).setWidth 64) s t ∧
        (r.id.readsZero = false → x ≠ RegId.ENG_PC.at e →
          ReadLeaves r x (s.view r x) [RegId.ENG_PC.at e] s t) ∧
        t.pc e = s.pc e + 4 ∧ t.mem = s.mem ∧ (∀ k, k ≠ e → t.eng k = s.eng k)) ∧
    (s.fetches e [encI 0x16 d a imm.toNat] = true → s.serves e x true = true → hooked r.id = false →
      s.clean r x ((s.gr e d).setWidth 32) = true → x ≠ RegId.ENG_PC.at e →
      ∃ t, exec (.cRst e d a imm) s = .next t ∧
        t.reg x = (s.reg x &&& ~~~(s.writable r x)) ||| ((s.gr e d).setWidth 32 &&& s.writable r x) ∧
        (∀ y, y ≠ x → y ≠ RegId.ENG_PC.at e → t.reg y = s.reg y) ∧
        t.pc e = s.pc e + 4 ∧ t.mem = s.mem ∧ (∀ k, k ≠ e → t.eng k = s.eng k) ∧ (∀ k, t.gr e k = s.gr e k))

/-- R228: WRD of a wide value that fits its destination and that the engine's class may read. -/
def Sys2Proof.Claims.WideReadsComplete : Prop :=
  ∀ (e : EngineIx) (a : GReg) (s : State) (x : Nat) (w : WideVal),
    x = (s.gr e a).toNat → s.wideOf x = some w → s.mayAccess e x false = true → s.snapLost x = false →
    (∀ c : GReg, s.fetches e [encWrd a (.pair c)] = true → c.val % 2 = 0 → w.width ≤ 128 →
      ∃ t, exec (.cWrd e a (.pair c)) s = .next t ∧ OnlyEngine e s t ∧
        (∀ k, t.gr e k =
          if k = 0 then 0
          else if k = c.val then BitVec.ofNat 64 (w.val % 2 ^ w.width)
          else if k = c.val + 1 then BitVec.ofNat 64 (w.val % 2 ^ w.width / 2 ^ 64)
          else s.gr e k) ∧
        WentOn e 1 true false false s t) ∧
    (∀ k : TReg, s.fetches e [encWrd a (.time k)] = true → w.width = 80 →
      ∃ t, exec (.cWrd e a (.time k)) s = .next t ∧ OnlyEngine e s t ∧ WroteT e k (BitVec.ofNat 80 (w.val % 2 ^ 80)) s t ∧
        WentOn e 1 false true false s t)

/-- R227: RLD of a register that the engine's class may read takes its word, zero-extended, with the effect of R309; RST of a register
that its class may write is the direct write of the low half of g`d`, here to a register without rules of its own (R303, R308).
R228: WRD of a wide value that fits its destination and that the engine's class may read. It rests on choices of the model, which
are in the log: entry 44 (RCC bits), entry 67 (the execute-in-place cache). -/
def Obligations.CelilRegisterAccessesComplete : Prop :=
  Claims.CelilRegisterAccessesComplete ∧ Claims.WideReadsComplete

/-- R232, R233: what TNOW and the time arithmetic write, beside TDIFF and TGET. A TS80 is a tick count and a 16-bit fraction. -/
def Sys2Proof.Claims.timeValue (s : State) : Instr → Option (EngineIx × TReg × Nat)
  | .cTnow e td => some (e, td, s.mcount * 65536)
  | .cTadd e td ta b =>
    some (e, td, (tickOf (s.tr e ta) + (s.gr e b).toNat) % 2 ^ 64 * 65536 + fracOf (s.tr e ta))
  | .cTaddf e td ta b => some (e, td, (((s.tr e ta).toNat + (s.gr e b).toInt) % 2 ^ 80).toNat)
  | .cTput e td a b => some (e, td, (s.gr e a).toNat * 65536 + (s.gr e b).toNat % 65536)
  | .cTmov e td ta => some (e, td, (s.tr e ta).toNat)
  | _ => none

/-- R232, R233: TNOW, TADD, TADDF, TPUT and TMOV write a time register, TDIFF the difference held within ±(2^63 − 1), TGET the tick count
and the fraction (the latter last). -/
def Sys2Proof.Claims.TimeInstructionsComplete : Prop :=
  (∀ (i : Instr) (s : State) (e : EngineIx) (td : TReg) (v : Nat) (ws : List Word),
    timeValue s i = some (e, td, v) → celilWords i = some ws → s.fetches e ws = true →
    ∃ t, exec i s = .next t ∧ OnlyEngine e s t ∧ WroteT e td (BitVec.ofNat 80 v) s t ∧ WentOn e 1 false true false s t) ∧
  (∀ (e : EngineIx) (d : GReg) (ta tb : TReg) (s : State), s.fetches e [encT 0x1D d 0 0 ta tb 2] = true →
    ∃ t, exec (.cTdiff e d ta tb) s = .next t ∧ OnlyEngine e s t ∧
      WroteG e d (BitVec.ofInt 64 (max (-(2 ^ 63 - 1)) (min (2 ^ 63 - 1) (((s.tr e ta).toNat : Int) - (s.tr e tb).toNat)))) s t ∧
      WentOn e 1 true false false s t) ∧
  (∀ (e : EngineIx) (d b : GReg) (ta : TReg) (s : State), s.fetches e [encT 0x1D d b 0 ta 0 3] = true →
    ∃ t, exec (.cTget e d b ta) s = .next t ∧ OnlyEngine e s t ∧
      (∀ k, t.gr e k =
        if k = 0 then 0
        else if k = b.val then BitVec.ofNat 64 (fracOf (s.tr e ta))
        else if k = d.val then BitVec.ofNat 64 (tickOf (s.tr e ta))
        else s.gr e k) ∧
      WentOn e 1 true false false s t)

/-- R234, R236: TWAIT whose tick has come and WAITE whose source has counted or whose deadline has passed complete at once; else the
engine parks, and TWAIT_RESUME and WAITE_RESUME complete them. EVCNT reads the raise count. -/
def Sys2Proof.Claims.WaitsComplete : Prop :=
  (∀ (e : EngineIx) (ta : TReg) (s : State), s.fetches e [encT 0x1E 0 0 0 ta 0 0] = true → tickOf (s.tr e ta) ≤ s.mcount →
    ∃ t, exec (.cTwait e ta) s = .next t ∧ OnlyEngine e s t ∧ WentOn e 1 false false false s t) ∧
  (∀ (e : EngineIx) (ta : TReg) (s : State), s.fetches e [encT 0x1E 0 0 0 ta 0 0] = true → s.mcount < tickOf (s.tr e ta) →
    ∃ t, exec (.cTwait e ta) s = .next t ∧ t.engState e = esWait ∧ (t.eng e).wait = some (.twait (tickOf (s.tr e ta))) ∧
      t.pc e = s.pc e ∧ (∀ k, t.gr e k = s.gr e k) ∧ t.mem = s.mem) ∧
  (∀ (e : EngineIx) (tick : Nat) (s : State), (s.eng e).wait = some (.twait tick) → s.cdDown = false → tick ≤ s.mcount →
    ∃ t, exec (.twaitResume e) s = .next t ∧ t.engState e = esRun ∧ (t.eng e).wait = none ∧
      t.pc e = (s.pc e + 4) % 2 ^ 32 ∧ (∀ k, t.gr e k = s.gr e k) ∧ t.mem = s.mem) ∧
  (∀ (e : EngineIx) (d a : GReg) (s : State), s.fetches e [encA 0x20 a 0 d 0 0] = true → (s.gr e a).toNat ≤ 383 →
    ∃ t, exec (.cEvcnt e d a) s = .next t ∧ OnlyEngine e s t ∧
      WroteG e d (BitVec.ofNat 64 (s.raiseCount (s.gr e a).toNat)) s t ∧ WentOn e 1 true false false s t) ∧
  (∀ (e : EngineIx) (d a b : GReg) (k : TReg) (s : State), s.fetches e [encA 0x1F a b d k 0] = true → (s.gr e a).toNat ≤ 383 →
    s.raiseCount (s.gr e a).toNat ≠ (s.gr e b).toNat % 2 ^ 32 →
    ∃ t, exec (.cWaite e d a b k) s = .next t ∧ OnlyEngine e s t ∧
      WroteG e d (BitVec.ofNat 64 (s.raiseCount (s.gr e a).toNat)) s t ∧ WentOn e 1 true false false s t) ∧
  (∀ (e : EngineIx) (d a b : GReg) (k : TReg) (s : State), s.fetches e [encA 0x1F a b d k 0] = true → (s.gr e a).toNat ≤ 383 →
    s.raiseCount (s.gr e a).toNat = (s.gr e b).toNat % 2 ^ 32 → tickOf (s.tr e k) ≠ 0 → tickOf (s.tr e k) ≤ s.mcount →
    ∃ t, exec (.cWaite e d a b k) s = .next t ∧ OnlyEngine e s t ∧
      WroteG e d (BitVec.ofNat 64 (s.raiseCount (s.gr e a).toNat + 2 ^ 32)) s t ∧ WentOn e 1 true false false s t) ∧
  (∀ (e : EngineIx) (d a b : GReg) (k : TReg) (s : State), s.fetches e [encA 0x1F a b d k 0] = true → (s.gr e a).toNat ≤ 383 →
    s.raiseCount (s.gr e a).toNat = (s.gr e b).toNat % 2 ^ 32 → (tickOf (s.tr e k) = 0 ∨ s.mcount < tickOf (s.tr e k)) →
    ∃ t, exec (.cWaite e d a b k) s = .next t ∧ t.engState e = esWait ∧
      (t.eng e).wait = some (.waite d (s.gr e a).toNat ((s.gr e b).toNat % 2 ^ 32) (tickOf (s.tr e k))) ∧
      t.pc e = s.pc e ∧ (∀ j, t.gr e j = s.gr e j) ∧ t.mem = s.mem) ∧
  (∀ (e : EngineIx) (d src cnt dl : Nat) (s : State), (s.eng e).wait = some (.waite d src cnt dl) → s.cdDown = false →
    s.raiseCount src = cnt → dl ≠ 0 → dl ≤ s.mcount →
    ∃ t, exec (.waiteResume e) s = .next t ∧ WroteG e d (BitVec.ofNat 64 (s.raiseCount src + 2 ^ 32)) s t ∧ t.engState e = esRun ∧
      (t.eng e).wait = none ∧ t.pc e = (s.pc e + 4) % 2 ^ 32 ∧ t.mem = s.mem) ∧
  (∀ (e : EngineIx) (d src cnt dl : Nat) (s : State), (s.eng e).wait = some (.waite d src cnt dl) → s.cdDown = false →
    s.raiseCount src ≠ cnt →
    ∃ t, exec (.waiteResume e) s = .next t ∧ WroteG e d (BitVec.ofNat 64 (s.raiseCount src)) s t ∧ t.engState e = esRun ∧
      (t.eng e).wait = none ∧ t.pc e = (s.pc e + 4) % 2 ^ 32 ∧ t.mem = s.mem)

/-- R232, R233: TNOW, TADD, TADDF, TPUT and TMOV write a time register, TDIFF the difference held within ±(2^63 − 1), TGET the tick
count and the fraction (the latter last). R234, R236: TWAIT whose tick has come and WAITE whose source has counted or whose
deadline has passed complete at once; else the engine parks, and TWAIT_RESUME and WAITE_RESUME complete them. EVCNT reads the
raise count. It rests on choices of the model, which are in the log: entry 2 (a row whose condition does not hold), entry 67 (the
execute-in-place cache). -/
def Obligations.TimeAndWaitInstructionsComplete : Prop :=
  Claims.TimeInstructionsComplete ∧ Claims.WaitsComplete

/-- R229: TAKE copies the held item, header first, into scratch and its header into g`d`. R193, R229: TAKE.H takes the head of a host
queue whose `SUBMIT` admits ENGINE, here one that owes no record, and completes it at once; of an empty one it reports status 7. Taking
reads the item's entries, which changes memory only where a word of them is in error (R28). -/
def Sys2Proof.Claims.TakesComplete : Prop :=
  (∀ (e : EngineIx) (d b : GReg) (s : State) (i : Item), s.fetches e [encA 0x18 0 b d 0 0] = true → s.heldItem e = some i →
    (s.gr e b).toNat % 16 = 0 → (s.gr e b).toNat + i.size ≤ 0x1000 →
    ∃ t, exec (.cTake e d b) s = .next t ∧ OnlyEngine e s t ∧ WroteG e d (BitVec.ofNat 64 i.header) s t ∧
      WroteScratch e (s.gr e b).toNat i.bytes s t ∧ WentOn e 1 true false true s t) ∧
  (∀ (e : EngineIx) (d b q : GReg) (s : State) (k : Nat) (i : Item), s.fetches e [encA 0x18 q b d 0 1] = true →
    k = (s.gr e q).toNat → k ≤ 32767 → (s.gr e b).toNat % 16 = 0 → (s.gr e b).toNat + s.qItemSize k ≤ 0x1000 →
    s.isSet QD_CTRL.EN k = true → s.isSet QD_CTRL.HOSTQ k = true → (s.get QD_CTRL.SUBMIT k).testBit 2 = true →
    s.headItem k = some i → s.item k i.seq = some i → i.out = 0 → i.recs = [] → s.verdictDue k i.seq = false → i.mseq = none →
    s.isSet QD_CTRL.CQ_EN k = false →
    ∃ t, exec (.cTakeH e d b q) s = .next t ∧ WroteG e d (BitVec.ofNat 64 (i.seq * 65536)) s t ∧
      WroteScratch e (s.gr e b).toNat i.bytes s t ∧ WentOn e 1 true false true s t ∧
      (t.queue k).items = (s.queue k).items.filter (fun j => j.seq != i.seq) ∧
      (s.anyBad (entryAddr i.entry) i.bytes.length = false → t.mem = s.mem) ∧
      (∀ a, a < 0x00200000 ∨ 0x01400000 ≤ a → t.byte a = s.byte a)) ∧
  (∀ (e : EngineIx) (d b q : GReg) (s : State) (k : Nat), s.fetches e [encA 0x18 q b d 0 1] = true →
    k = (s.gr e q).toNat → k ≤ 32767 → (s.gr e b).toNat % 16 = 0 → (s.gr e b).toNat + s.qItemSize k ≤ 0x1000 →
    s.isSet QD_CTRL.EN k = true → s.isSet QD_CTRL.HOSTQ k = true → (s.get QD_CTRL.SUBMIT k).testBit 2 = true →
    s.headItem k = none →
    ∃ t, exec (.cTakeH e d b q) s = .next t ∧ OnlyEngine e s t ∧ WroteG e d 7 s t ∧ WentOn e 1 true false false s t)

/-- Whether queue `k` accepts an item of `size` bytes from permission class `cls` (R189). -/
def Sys2Proof.Claims.accepts (s : State) (k cls size : Nat) : Prop :=
  s.accOff = false ∧ k ≠ quarQ ∧ (s.get QD_CTRL.SUBMIT k).testBit cls = true ∧ s.isSet QD_CTRL.EN k = true ∧
    s.isSet QD_CTRL.DRAIN k = false ∧ s.frozen (RegId.QD_CTRL.at k) = false ∧ size = s.qItemSize k ∧ (s.queue k).nextSeq < seqEnd ∧
    s.get QD_STAT.LEVEL k + s.qEntries k ≤ s.get QD_LEN.LEN k

/-- The item that queue `k` accepts of the bytes in scratch of engine `e` at `off`, in the entries from `entry` on: header first, of which
only `LATE` is the submitter's (R182, R189). -/
def Sys2Proof.Claims.newItem (s : State) (e k off entry : Nat) : Item :=
  { seq := (s.queue k).nextSeq, late := (s.scratchByte e (off + 6)).getLsbD 0, size := s.qItemSize k
    body := (dwordsOf (s.scratchAt e off (s.qItemSize k))).drop 1, since := s.clock, eligAt := s.clock, entry := entry }

/-- Whether `len` bytes at `a` hold none of the item's bytes in memory. -/
def Sys2Proof.Claims.apart (i : Item) (a len : Nat) : Prop :=
  a + len ≤ entryAddr i.entry ∨ entryAddr i.entry + i.bytes.length ≤ a

/-- Whether `r` is the parity row of an entry of the item (R27). -/
def Sys2Proof.Claims.rowOfItem (i : Item) (r : Nat) : Prop := ∃ m < max 1 (i.bytes.length / 16), r = (i.entry + m) / 8

/-- R27, R182, R189, R194, R230: a PUT that nothing holds back submits the item that stands in scratch: the queue assigns its next
sequence, which g`d` takes above status 0, and the run has issued one PUT more. The item stands last in the queue, with its bytes in a
slot of the queue's blocks. The held item is written again with its count of PUTs. Row r of bank 9 stays the XOR of row r of banks 1 to
8 for each entry written, and no other byte of memory changes. PUT_WAIT_END does the same for a PUT that waited. Each completes; a PUT
that acceptance holds back completes by waiting at the engine. -/
def Sys2Proof.Claims.PutsComplete : Prop :=
  ∀ (e : EngineIx) (d b q : GReg) (s : State) (k off hq hn : Nat) (i : Item),
    k = (s.gr e q).toNat → off = (s.gr e b).toNat → k ≤ 32767 → off % 16 = 0 → off + s.qItemSize k ≤ 0x1000 →
    s.get QD_CTRL.ITEM_SZ k ≠ 3 → s.scratchBad e off (s.qItemSize k) = false → accepts s k 2 (s.qItemSize k) →
    (s.eng e).held = some (hq, hn) → s.item hq hn = some i → i.puts ≤ (s.eng e).puts → (s.eng e).puts + 1 < 4096 →
    let done := fun (x : Instr) =>
      ∃ t, exec x s = .next t ∧ WroteG e d (BitVec.ofNat 64 ((s.queue k).nextSeq * 65536)) s t ∧
        t.pc e = (s.pc e + 4) % 2 ^ 32 ∧ t.engState e = esRun ∧ (t.eng e).puts = (s.eng e).puts + 1 ∧ (t.eng e).wait = none ∧
        (t.queue k).nextSeq = (s.queue k).nextSeq + 1 ∧ (t.queue k).items.length = (s.queue k).items.length + 1 ∧
        t.item hq hn = some { i with puts := (s.eng e).puts + 1 } ∧
        (∃ slot, let j := newItem s e k off (slotEntry (s.queue k).blocks (s.qEntries k) slot)
          (t.queue k).items.getLast? =
            some { j with puts := if hq = k ∧ hn = (s.queue k).nextSeq then (s.eng e).puts + 1 else 0 } ∧
          (∀ m < s.qItemSize k, apart i (entryAddr j.entry + m) 1 → t.byte (entryAddr j.entry + m) = j.bytes.getD m 0) ∧
          (∀ r, rowOfItem i r → t.bytesAt (parityAddr r) 16 = t.parityRow r) ∧
          (∀ r, rowOfItem j r → apart i (entryAddr (8 * r)) 128 → apart i (parityAddr r) 16 →
            t.bytesAt (parityAddr r) 16 = t.parityRow r) ∧
          (∀ a, apart j a 1 → apart i a 1 → (∀ r, rowOfItem i r ∨ rowOfItem j r → a < parityAddr r ∨ parityAddr r + 16 ≤ a) →
            t.byte a = s.byte a))
    (s.fetches e [encA 0x19 q b d 0 0] = true → done (.cPut e d b q false)) ∧
    ((s.eng e).wait = some (.put (.cPut e d b q false)) → s.cdDown = false → s.engState e = esStall →
      done (.putWaitEnd e)) ∧
    (s.fetches e [encA 0x19 q b d 0 0] = true →
      ∃ t, exec (.cPut e d b q true) s = .next t ∧ t.engState e = esStall ∧ t.pc e = s.pc e ∧ t.mem = s.mem ∧
        t.queues = s.queues ∧ (t.eng e).wait = some (.put (.cPut e d b q false)))

/-- R229: TAKE copies the held item, header first, into scratch and its header into g`d`. R193, R229: TAKE.H takes the head of a host
queue whose `SUBMIT` admits ENGINE, here one that owes no record, and completes it at once; of an empty one it reports status 7.
Taking reads the item's entries, which changes memory only where a word of them is in error (R28). R27, R182, R189, R194, R230: a
PUT that nothing holds back submits the item that stands in scratch: the queue assigns its next sequence, which g`d` takes above
status 0, and the run has issued one PUT more. The item stands last in the queue, with its bytes in a slot of the queue's blocks.
The held item is written again with its count of PUTs. Row r of bank 9 stays the XOR of row r of banks 1 to 8 for each entry
written, and no other byte of memory changes. PUT_WAIT_END does the same for a PUT that waited. Each completes; a PUT that
acceptance holds back completes by waiting at the engine. It rests on choices of the model, which are in the log: entry 28 (rates
of acceptance), entry 29 (a host take with a full completion queue), entry 67 (the execute-in-place cache). -/
def Obligations.TakesAndPutsComplete : Prop :=
  Claims.TakesComplete ∧ Claims.PutsComplete

/-- The code of an ACK or NACK: 6 bits (R231). -/
def Sys2Proof.Claims.codeOf (s : State) (e : EngineIx) : EndCode → Nat
  | .imm n => n.toNat
  | .reg a => (s.gr e a).toNat % 64

/-- R195, R199, R231, R242: ACK releases the staged actions and NACK discards them; the item has ended with its code and the number of
actions posted. YIELD releases them and returns the item to the head of its queue. Each frees the engine, which keeps its scratch. -/
def Sys2Proof.Claims.CompletionStepsComplete : Prop :=
  ∀ (e : EngineIx) (s : State) (q n : Nat) (i : Item), (s.eng e).held = some (q, n) → s.item q n = some i → i.aborted = false →
    let freed := fun (t : State) =>
      t.engState e = (if s.isSet ENG_CFG.EN e && !s.frozen (RegId.ENG_CFG.at e) then esIdle else esOff) ∧ t.pc e = 0 ∧
        (∀ k, t.gr e k = 0) ∧ (∀ k, t.tr e k = 0) ∧ (t.eng e).held = none ∧ (t.eng e).staged = [] ∧
        (∀ k, t.scratchByte e k = s.scratchByte e k) ∧ (∀ k, k ≠ e → t.eng k = s.eng k)
    (∀ c : EndCode, s.fetches e [encEnd 0x1A c] = true →
      ∃ t, exec (.cAck e c) s = .next t ∧ freed t ∧ t.rel = s.rel ++ (s.eng e).staged ∧ t.mem = s.mem ∧
        t.item q n = some { i with
          st := .ended, code := codeOf s e c, nact := (s.eng e).nact, out := i.out + (s.eng e).staged.length
          relN := max i.relN (s.eng e).nact }) ∧
    (∀ c : EndCode, s.fetches e [encEnd 0x1B c] = true →
      ∃ t, exec (.cNack e c) s = .next t ∧ freed t ∧ t.rel = s.rel ∧ t.mem = s.mem ∧
        t.item q n = some { i with st := .ended, code := 0x40 + codeOf s e c, nact := (s.eng e).nact }) ∧
    (∀ a : GReg, s.fetches e [encI 0x2B 0 a 0] = true →
      ∃ t, exec (.cYield e a) s = .next t ∧ freed t ∧ t.rel = s.rel ++ (s.eng e).staged ∧
        (t.queue q).items.head? = some { i with
          st := if (s.gr e a).toNat % 2 ^ 32 = 0 then .waiting else .yielded (s.clock + (s.gr e a).toNat % 2 ^ 32)
          since := s.clock, eligAt := s.clock, out := i.out + (s.eng e).staged.length, relN := max i.relN (s.eng e).nact } ∧
        (∀ x, x < 0x00200000 ∨ 0x01400000 ≤ x → t.byte x = s.byte x))

/-- R241, R203: FENCE releases the staged actions and goes on; FENCE.W of an item with no action under way and no verdict on its
way takes its first hardware status, or 0, and of any other waits until FENCE_W_RESUME. -/
def Sys2Proof.Claims.FencesComplete : Prop :=
  ∀ (e : EngineIx) (d : GReg) (s : State) (q n : Nat) (i : Item),
    (s.eng e).held = some (q, n) → s.item q n = some i → i.aborted = false →
    (s.fetches e [encI 0x2A 0 0 0] = true →
      ∃ t, exec (.cFence e) s = .next t ∧ t.rel = s.rel ++ (s.eng e).staged ∧ (t.eng e).staged = [] ∧ t.pc e = s.pc e + 4 ∧
        (∀ k, t.gr e k = s.gr e k) ∧ t.mem = s.mem ∧ t.regs = (setPc e (s.pc e + 4) s).regs) ∧
    (s.fetches e [encI 0x2A d 0 1] = true → i.out = 0 → s.verdictDue q n = false → (s.eng e).staged = [] →
      ∃ t, exec (.cFenceW e d) s = .next t ∧ WroteG e d (BitVec.ofNat 64 ((i.hw.map (·.1)).getD 0)) s t ∧ t.rel = s.rel ∧
        t.pc e = s.pc e + 4 ∧ (t.eng e).wait = none ∧ t.mem = s.mem) ∧
    (s.fetches e [encI 0x2A d 0 1] = true → 0 < i.out + (s.eng e).staged.length ∨ s.verdictDue q n = true →
      ∃ t, exec (.cFenceW e d) s = .next t ∧ t.rel = s.rel ++ (s.eng e).staged ∧ (t.eng e).wait = some (.fence d) ∧
        t.engState e = esRun ∧ t.pc e = s.pc e ∧ (∀ k, t.gr e k = s.gr e k) ∧ t.mem = s.mem) ∧
    ((s.eng e).wait = some (.fence d) → s.cdDown = false → i.out = 0 → s.verdictDue q n = false →
      ∃ t, exec (.fenceWResume e) s = .next t ∧ WroteG e d (BitVec.ofNat 64 ((i.hw.map (·.1)).getD 0)) s t ∧
        t.pc e = (s.pc e + 4) % 2 ^ 32 ∧ (t.eng e).wait = none ∧ t.rel = s.rel ∧ t.mem = s.mem)

/-- R195, R199, R231, R242: ACK releases the staged actions and NACK discards them; the item has ended with its code and the number of
actions posted. YIELD releases them and returns the item to the head of its queue. Each frees the engine, which keeps its scratch.
R241, R203: FENCE releases the staged actions and goes on; FENCE.W of an item with no action under way and no verdict on its way
takes its first hardware status, or 0, and of any other waits until FENCE_W_RESUME. It rests on choices of the model, which are in
the log: entry 24 (returned items). -/
def Obligations.AcknowledgesAndFencesComplete : Prop :=
  Claims.CompletionStepsComplete ∧ Claims.FencesComplete

/-- R237: CTXLD of a context that can be read copies its 128 bytes to scratch; CTXST of scratch that can be read copies them back but
for the word that holds `USES`, and the context is valid again. -/
def Sys2Proof.Claims.ContextMovesComplete : Prop :=
  ∀ (e : EngineIx) (a b : GReg) (s : State) (n off : Nat), n = (s.gr e a).toNat → off = (s.gr e b).toNat → n ≤ 16383 →
    off % 16 = 0 → off + 128 ≤ 0x1000 →
    (s.fetches e [encA 0x21 a b 0 0 0] = true → s.ctxInvalid n = false →
      ∃ t, exec (.cCtxld e a b) s = .next t ∧ OnlyEngine e s t ∧ WroteScratch e off (s.bytesAt (128 * n) 128) s t ∧
        WentOn e 1 false false true s t) ∧
    (s.fetches e [encA 0x22 a b 0 0 0] = true → s.bankLost 0 = false → s.scratchBad e off 128 = false →
      ∃ t, exec (.cCtxst e a b) s = .next t ∧ n ∉ t.ctxBad ∧ (∀ m, m ≠ n → (m ∈ t.ctxBad ↔ m ∈ s.ctxBad)) ∧
        (∀ x, t.byte x =
          if 128 * n ≤ x ∧ x < 128 * n + 128 ∧ (x < 128 * n + 48 ∨ 128 * n + 52 ≤ x) then s.scratchByte e (off + x - 128 * n)
          else s.byte x) ∧
        (∀ k, t.gr e k = s.gr e k) ∧ (∀ y, y ≠ RegId.ENG_PC.at e → t.reg y = s.reg y) ∧ WentOn e 1 false false false s t)

/-- The target of a timed action, its highest number, and what it does (R239), beside HOP. -/
def Sys2Proof.Claims.timedAction (s : State) : Instr → Option (EngineIx × TReg × Nat × Nat × ActKind)
  | .cPhase e a b t => some (e, t, (s.gr e a).toNat, 1023, .phase (s.gr e a).toNat ((s.gr e b).toNat % 2 ^ 20))
  | .cPortset e a b c t =>
    if (s.gr e c).toNat % 128 = 0 then none
    else some (e, t, (s.gr e a).toNat, 1023, .portset (s.gr e a).toNat (s.gr e b).toNat ((s.gr e c).toNat % 128))
  | .cMark e a b t => some (e, t, (s.gr e a).toNat, 1023, .mark (s.gr e a).toNat ((s.gr e b).toNat % 65536))
  | .cArm e a b c t => some (e, t, (s.gr e a).toNat, 1279,
      .arm (s.gr e a).toNat ((s.gr e b).toNat % 2 ^ 32) ((s.gr e b).toNat / 2 ^ 32) ((s.gr e c).toNat % 2 ^ 32))
  | .cDisarm e a t => some (e, t, (s.gr e a).toNat, 1279, .disarm (s.gr e a).toNat)
  | _ => none

/-- The action that engine `e` posts for its held item (q, n): stamped by t`k`, in the order of posting, with the item's late policy
(R11, R238). -/
def Sys2Proof.Claims.posted (s : State) (e q n : Nat) (k : TReg) (i : Item) (kind : ActKind) : Action :=
  { tick := tickOf (s.tr e k), frac := fracOf (s.tr e k), q := q, seq := n, idx := (s.eng e).nact, applyLate := i.late, kind := kind }

/-- R11, R238, R239: PHASE, PORTSET, MARK, ARM and DISARM post one action to the staged list; HOP posts one with the context's words as
they are captured, and counts its use (R100). Each for a target in range, within the limits of R11 and R14. -/
def Sys2Proof.Claims.TimedActionsComplete : Prop :=
  (∀ (x : Instr) (s : State) (e : EngineIx) (k : TReg) (target top q n : Nat) (kind : ActKind) (i : Item) (ws : List Word),
    timedAction s x = some (e, k, target, top, kind) → target ≤ top → celilWords x = some ws → s.fetches e ws = true →
    (s.eng e).nact < 4096 → s.stagingLoad < 65536 → (s.eng e).held = some (q, n) → s.item q n = some i →
    ∃ t, exec x s = .next t ∧ OnlyEngine e s t ∧ t.pc e = s.pc e + 4 ∧
      t.eng e = { s.eng e with
        staged := (s.eng e).staged ++ [posted s e q n k i kind], nact := (s.eng e).nact + 1, lines := [] }) ∧
  (∀ (s : State) (e : EngineIx) (a b : GReg) (k : TReg) (q n c m : Nat) (i : Item),
    c = (s.gr e a).toNat → m = (s.gr e b).toNat → c ≤ 63 → m ≤ 16383 → s.ctxInvalid m = false →
    ctxRefused c (s.ctxWords m) = false → s.fetches e [encA 0x23 a b 0 k 0] = true → (s.eng e).nact < 4096 →
    s.stagingLoad < 65536 → (s.eng e).held = some (q, n) → s.item q n = some i →
    ∃ t, exec (.cHop e a b k) s = .next t ∧ t.pc e = s.pc e + 4 ∧
      t.eng e = { s.eng e with
        staged := (s.eng e).staged ++
          [posted s e q n k i (.hop c m (captureCtx s (s.ctxWords m) (tickOf (s.tr e k))).1)]
        nact := (s.eng e).nact + 1, lines := [] } ∧
      (∀ x, x < 128 * m ∨ 128 * m + 128 ≤ x → t.byte x = s.byte x) ∧
      (∀ y, y ≠ RegId.ENG_PC.at e → t.reg y = s.reg y) ∧
      (ctxPmMode (s.ctxWords m) ≠ 1 →
        ∀ j < 32, t.word (128 * m + 4 * j) = if j = 12 then s.word (128 * m + 48) + 1 else s.word (128 * m + 4 * j)))

/-- R14: an engine whose timed action found the staging store full posts it once space has freed, a HOP as one of the others. -/
def Sys2Proof.Claims.StalledActionsResume : Prop :=
  ∀ (x : Instr) (s : State) (e : EngineIx) (q n : Nat) (i : Item), (s.eng e).wait = some (.staging x) → s.cdDown = false →
    s.engState e = esStall → (s.eng e).nact < 4096 → s.stagingLoad < 65536 → (s.eng e).held = some (q, n) → s.item q n = some i →
    let done := fun (k : TReg) (kind : ActKind) =>
      ∃ t, exec (.stagingStallResume e) s = .next t ∧ t.engState e = esRun ∧ t.pc e = (s.pc e + 4) % 2 ^ 32 ∧
        (t.eng e).staged = (s.eng e).staged ++ [posted s e q n k i kind] ∧ (t.eng e).wait = none ∧ (∀ j, t.gr e j = s.gr e j) ∧
        (∀ y, y ≠ RegId.ENG_PC.at e → y ≠ RegId.ENG_STAT.at e → t.reg y = s.reg y)
    (∀ (k : TReg) (target top : Nat) (kind : ActKind), timedAction s x = some (e, k, target, top, kind) → target ≤ top →
      done k kind) ∧
    (∀ (a b : GReg) (k : TReg) (c m : Nat), x = .cHop e a b k → c = (s.gr e a).toNat → m = (s.gr e b).toNat → c ≤ 63 →
      m ≤ 16383 → s.ctxInvalid m = false → ctxRefused c (s.ctxWords m) = false →
      done k (.hop c m (captureCtx s (s.ctxWords m) (tickOf (s.tr e k))).1))

/-- R11, R238, R239: PHASE, PORTSET, MARK, ARM and DISARM post one action to the staged list; HOP posts one with the context's words
as they are captured, and counts its use (R100). Each for a target in range, within the limits of R11 and R14. R14: an engine
whose timed action found the staging store full posts it once space has freed, a HOP as one of the others. It rests on choices of
the model, which are in the log: entry 67 (the execute-in-place cache). -/
def Obligations.TimedActionsComplete : Prop :=
  Claims.TimedActionsComplete ∧ Claims.StalledActionsResume

/-- R240: STAT.R copies a channel's result block, here one without an uncorrectable word, to scratch and its word 1 to g`d`; STAT.E takes
the channel's latest edge. -/
def Sys2Proof.Claims.StatisticsComplete : Prop :=
  ∀ (e : EngineIx) (a : GReg) (s : State) (k : Nat), k = (s.gr e a).toNat → k ≤ 1279 →
    (∀ d b : GReg, s.fetches e [encA 0x29 a b d 0 0] = true → s.anyBad (0x01A00000 + 64 * k) 64 = false → (s.gr e b).toNat % 64 = 0 →
    (s.gr e b).toNat + 64 ≤ 0x1000 →
      ∃ t, exec (.cStatR e d b a) s = .next t ∧ OnlyEngine e s t ∧ WroteScratch e (s.gr e b).toNat (s.resultBlock k) s t ∧
        WroteG e d (BitVec.ofNat 64 (leNat (((s.resultBlock k).drop 4).take 4))) s t ∧ WentOn e 1 true false true s t) ∧
    (∀ x : TReg, s.fetches e [encA 0x29 a 0 0 x 1] = true →
      ∃ t, exec (.cStatE e x a) s = .next t ∧ OnlyEngine e s t ∧ WroteT e x (BitVec.ofNat 80 (s.wideAt (aLAST_EDGE k))) s t ∧
        WentOn e 1 false true false s t)

/-- R237: CTXLD of a context that can be read copies its 128 bytes to scratch; CTXST of scratch that can be read copies them back but
for the word that holds `USES`, and the context is valid again. R240: STAT.R copies a channel's result block, here one without an
uncorrectable word, to scratch and its word 1 to g`d`; STAT.E takes the channel's latest edge. It rests on choices of the model,
which are in the log: entry 13 (errors of on-chip memory), entry 67 (the execute-in-place cache). -/
def Obligations.ContextsAndStatisticsComplete : Prop :=
  Claims.ContextMovesComplete ∧ Claims.StatisticsComplete

/-- The fault that an instruction raises by itself (R218, R243), with its words. -/
def Sys2Proof.Claims.ownFault : Instr → Option (EngineIx × Nat × List Word)
  | .illegal e w => if celilDecode e w 0 = none then some (e, 0x01, [w]) else none
  | .cTrap e n => some (e, 0x40 + n.toNat, [encI 0x2C 0 0 n.toNat])
  | .cHalt e => some (e, 0x0D, [encI 0x2D 0 0 0])
  | .cHaltS e => some (e, 0x0D, [encI 0x2D 0 0 1])
  | _ => none

/-- What every fault of engine `e` with `code` leaves (R204, R219): the code is reported and the faults are counted, the staged actions are
gone, and the engine is free with its scratch kept. -/
def Sys2Proof.Claims.FaultEnds (e : EngineIx) (code q : Nat) (s t : State) : Prop :=
  t.get ENG_STAT.LAST_FAULT e = code ∧ t.isSet ENG_STAT.FAULTED e = true ∧
    t.get ENG_CNT.FAULTS e = (s.get ENG_CNT.FAULTS e + 1) % 2 ^ ENG_CNT.FAULTS.w ∧
    t.get QD_CNT.FAULTS q = (s.get QD_CNT.FAULTS q + 1) % 2 ^ QD_CNT.FAULTS.w ∧ 354 ∈ t.raising ∧
    (t.eng e).held = none ∧ (t.eng e).staged = [] ∧ t.pc e = 0 ∧ (∀ k, t.gr e k = 0) ∧ (∀ k, t.tr e k = 0) ∧
    (∀ k, t.scratchByte e k = s.scratchByte e k) ∧ (∀ k, k ≠ e → t.eng k = s.eng k) ∧ t.rel = s.rel ∧
    (∀ a, a < 0x00200000 ∨ 0x01400000 ≤ a → t.byte a = s.byte a)

/-- The fault of an item that has faulted less than twice: it stands at the head of its queue with one fault more (R204). -/
def Sys2Proof.Claims.Faulted (e : EngineIx) (code q : Nat) (i : Item) (s t : State) : Prop :=
  (t.queue q).items.head? = some { i with st := .waiting, since := s.clock, eligAt := s.clock, fcnt := i.fcnt + 1 } ∧
    FaultEnds e code q s t

/-- The third fault of item `n` of queue `q`, with room in the quarantine queue (R205): a record of it is the last of that queue, the item
has left its own, which stops if `QSTOP` says so. -/
def Sys2Proof.Claims.Quarantined (e : EngineIx) (code q n : Nat) (i : Item) (s t : State) : Prop :=
  t.item q n = none ∧ (t.queue quarQ).nextSeq = (s.queue quarQ).nextSeq + 1 ∧
    (∃ entry, (t.queue quarQ).items = (s.queue quarQ).items ++ [{
      seq := (s.queue quarQ).nextSeq, size := s.qItemSize quarQ, since := s.clock, eligAt := s.clock, entry := entry
      body := quarBody q code e (s.get QD_CTRL.ITEM_SZ q) { i with fcnt := 2 } }]) ∧
    t.get QD_CNT.QUARS q = (s.get QD_CNT.QUARS q + 1) % 2 ^ QD_CNT.QUARS.w ∧ 356 ∈ t.raising ∧
    t.isSet QD_STAT.STOPPED q = (s.isSet QD_STAT.STOPPED q || s.isSet QD_CTRL.QSTOP q) ∧ FaultEnds e code q s t

/-- The third fault of an item when the quarantine queue has no room (R206): it waits for it at the head of its queue, which is stopped. -/
def Sys2Proof.Claims.KeptBack (e : EngineIx) (code q : Nat) (i : Item) (s t : State) : Prop :=
  (t.queue q).items.head? = some { i with st := .quarWait code e, since := s.clock, eligAt := s.clock, fcnt := 2 } ∧
    t.isSet QD_STAT.STOPPED q = true ∧ t.isSet QM_STAT.QUAR_FULL = true ∧ 357 ∈ t.raising ∧ FaultEnds e code q s t

/-- R204, R205, R206, R218, R219, R243: a word that is no instruction, TRAP, HALT and HALT.S fault the handler, for the third time into
quarantine; HALT.S clears the engine's `EN`. -/
def Sys2Proof.Claims.OwnFaultsComplete : Prop :=
  ∀ (x : Instr) (s : State) (e : EngineIx) (code : Nat) (ws : List Word) (q n : Nat) (i : Item),
    ownFault x = some (e, code, ws) → s.fetches e ws = true → (s.eng e).held = some (q, n) → s.item q n = some i →
    let en := fun (t : State) => t.get ENG_CFG.EN e = (match x with | .cHaltS _ => 0 | _ => s.get ENG_CFG.EN e)
    (i.fcnt < 2 → ∃ t, exec x s = .next t ∧ Faulted e code q i s t ∧ en t) ∧
    (i.fcnt = 2 → q ≠ quarQ → s.quarRoom = true → ∃ t, exec x s = .next t ∧ Quarantined e code q n i s t ∧ en t) ∧
    (i.fcnt = 2 → s.quarRoom = false → ∃ t, exec x s = .next t ∧ KeptBack e code q i s t ∧ en t)

/-- Whether an instruction of `e` meets the fault `code` (R219), for each code that an operand raises. Where two hold, the one named is
the model's choice (log entry 116): TGTRANGE before every other, and OPERAND of an odd pair before RACC. -/
def Sys2Proof.Claims.operandFault (s : State) : Instr → Option (EngineIx × Nat)
  | .cJalr e _ a imm =>
    if ((s.gr e a).toNat + imm.toInt) % 4 ≠ 0 then some (e, 0x02) else none
  | .cJl e _ addr => if 0x08000000 ≤ addr.toNat then some (e, 0x02) else none
  | .cLds e w _ _ a off => if (s.effAddr e a off) % 2 ^ w.val ≠ 0 ∨ 0x1000 < s.effAddr e a off + 2 ^ w.val then some (e, 0x04) else none
  | .cSts e w _ a off => if (s.effAddr e a off) % 2 ^ w.val ≠ 0 ∨ 0x1000 < s.effAddr e a off + 2 ^ w.val then some (e, 0x04) else none
  | .cLd e w _ _ a off => if (s.effAddr e a off) % 2 ^ w.val ≠ 0 ∨ s.effAddr e a off < 0x01400000 then some (e, 0x05) else none
  | .cSt e w _ a off => if (s.effAddr e a off) % 2 ^ w.val ≠ 0 ∨ 0x01800000 ≤ s.effAddr e a off then some (e, 0x05) else none
  | .cAadd e _ a _ | .cAswp e _ a _ | .cAcas e _ a _ => if (s.gr e a).toNat % 8 ≠ 0 then some (e, 0x05) else none
  | .cWrd e _ (.pair c) => if c.val % 2 = 1 then some (e, 0x08) else none
  | .cEvcnt e _ a | .cWaite e _ a _ _ => if 383 < (s.gr e a).toNat then some (e, 0x09) else none
  | .cCtxld e a _ | .cCtxst e a _ => if 16383 < (s.gr e a).toNat then some (e, 0x09) else none
  | .cHop e a _ _ => if 63 < (s.gr e a).toNat then some (e, 0x09) else none
  | .cPhase e a _ _ | .cMark e a _ _ => if 1023 < (s.gr e a).toNat then some (e, 0x09) else none
  | .cPortset e a _ c _ =>
    if 1023 < (s.gr e a).toNat then some (e, 0x09) else if (s.gr e c).toNat % 128 = 0 then some (e, 0x08) else none
  | .cArm e a _ _ _ | .cDisarm e a _ => if 1279 < (s.gr e a).toNat then some (e, 0x09) else none
  | .cStatR e _ _ a | .cStatE e _ a => if 1279 < (s.gr e a).toNat then some (e, 0x09) else none
  | .cTakeH e _ _ q | .cPut e _ _ q false => if 32767 < (s.gr e q).toNat then some (e, 0x09) else none
  | _ => none

/-- R219: a fault is precise. An instruction that an operand makes fault changes no register, scratch byte, memory word beside the item
pool, queue or staged list beyond what R204 to R206 do. -/
def Sys2Proof.Claims.OperandFaultsArePrecise : Prop :=
  ∀ (x : Instr) (s : State) (e : EngineIx) (code : Nat) (ws : List Word) (q n : Nat) (i : Item),
    operandFault s x = some (e, code) → celilWords x = some ws → s.fetches e ws = true → (s.eng e).held = some (q, n) →
    s.item q n = some i →
    let en := fun (t : State) => t.get ENG_CFG.EN e = s.get ENG_CFG.EN e
    (i.fcnt < 2 → ∃ t, exec x s = .next t ∧ Faulted e code q i s t ∧ en t) ∧
    (i.fcnt = 2 → q ≠ quarQ → s.quarRoom = true → ∃ t, exec x s = .next t ∧ Quarantined e code q n i s t ∧ en t) ∧
    (i.fcnt = 2 → s.quarRoom = false → ∃ t, exec x s = .next t ∧ KeptBack e code q i s t ∧ en t)

/-- R204, R205, R206, R218, R219, R243: a word that is no instruction, TRAP, HALT and HALT.S fault the handler, for the third time
into quarantine; HALT.S clears the engine's `EN`. R219: a fault is precise. An instruction that an operand makes fault changes no
register, scratch byte, memory word beside the item pool, queue or staged list beyond what R204 to R206 do. It rests on choices of
the model, which are in the log: entry 23 (leaving code space), entry 24 (returned items), entry 116 (the order of the faults of
an instruction). -/
def Obligations.CelilFaultsComplete : Prop :=
  Claims.OwnFaultsComplete ∧ Claims.OperandFaultsArePrecise

/-- R225: an atomic on an aligned word of the program store reads it, stores the word that its row gives, and g`d` takes the old one, all
in one step; any other address raises DADDR, for the third time of its item into quarantine (R205, R206). -/
def Obligations.AtomicsComplete : Prop :=
  (∀ (e : EngineIx) (d a b : GReg) (s : State) (x : Nat) (old : Dword),
    x = (s.gr e a).toNat → x % 8 = 0 → 0x01400000 ≤ x → x < 0x01800000 → s.bankLost (bankOf x) = false → s.anyBad x 8 = false →
    old = BitVec.ofNat 64 (leNat (s.bytesAt x 8)) →
    let done := fun (i : Instr) (new : Dword) =>
      ∃ t, exec i s = .next t ∧ OnlyEngineMem e s t ∧
        WroteMem x (bytesOf 8 new.toNat) s t ∧ WroteG e d old s t ∧
        WentOn e 1 true false false s t
    (s.fetches e [encR 0x14 d a b 0] = true →
      done (.cAadd e d a b) (BitVec.ofNat 64 (old.toNat + (s.gr e b).toNat))) ∧
    (s.fetches e [encR 0x14 d a b 1] = true → done (.cAswp e d a b) (s.gr e b)) ∧
    (s.fetches e [encR 0x14 d a b 2] = true → old = s.gr e d → done (.cAcas e d a b) (s.gr e b)) ∧
    (s.fetches e [encR 0x14 d a b 2] = true → old ≠ s.gr e d → done (.cAcas e d a b) old)) ∧
  (∀ (x : Instr) (e : EngineIx) (d a b : GReg) (func q n : Nat) (i : Item) (s : State),
    (func, x) ∈ [(0, Instr.cAadd e d a b), (1, .cAswp e d a b), (2, .cAcas e d a b)] → s.fetches e [encR 0x14 d a b func] = true →
    ((s.gr e a).toNat % 8 ≠ 0 ∨ (s.gr e a).toNat < 0x01400000 ∨ 0x01800000 ≤ (s.gr e a).toNat) →
    (s.eng e).held = some (q, n) → s.item q n = some i →
    (i.fcnt < 2 → ∃ t, exec x s = .next t ∧ Faulted e 0x05 q i s t) ∧
    (i.fcnt = 2 → q ≠ quarQ → s.quarRoom = true → ∃ t, exec x s = .next t ∧ Quarantined e 0x05 q n i s t) ∧
    (i.fcnt = 2 → s.quarRoom = false → ∃ t, exec x s = .next t ∧ KeptBack e 0x05 q i s t))

/-- R235: each source's raise count rises by one at every raise, modulo 2^32, whatever its masks and routes; a warm reset keeps the counts
and a cold reset clears them. -/
def Obligations.RaiseCountsWrapAndSurviveWarmResets : Prop :=
  (∀ (i : Nat) (rest : List Nat) (s : State), s.cdGone = false → s.raising = i :: rest →
    ∃ t, exec .eventRaise s = .next t ∧ t.raiseCount i = (s.raiseCount i + 1) % 2 ^ 32 ∧
      (∀ j, j ≠ i → t.raiseCount j = s.raiseCount j)) ∧
  (∀ (s : State), ∃ t, exec .warmReset s = .next t ∧ t.raises = s.raises) ∧
  (∀ (s : State), s.porst = false → ∃ t, exec .coldReset s = .next t ∧ ∀ j, t.raiseCount j = 0) ∧
  (∀ (s : State), s.brown = false → ∃ t, exec .brownOut s = .next t ∧ ∀ j, t.raiseCount j = 0)

/-- R40: a write to the declared frequency of the reference in use changes nothing but `REF_STAT.FREQ_ERR`, which it sets. -/
def Obligations.ActiveReferenceFrequencyIsFixed : Prop :=
  ∀ (o : Origin) (r : RefIx) (v : Word) (s : State), s.writes o (if r.val = 0 then .REFA_FREQ else .REFB_FREQ) 0 0 v = true →
    s.get REF_STAT.STATE = r.val →
    ∃ t, exec (.refFreqWrite o r v) s = .next t ∧ t.isSet REF_STAT.FREQ_ERR = true ∧ RegsKept [RegId.REF_STAT.at] s t ∧
      (∀ b, b ≠ REF_STAT.FREQ_ERR.lo → (t.reg RegId.REF_STAT.at).getLsbD b = (s.reg RegId.REF_STAT.at).getLsbD b) ∧
      Kept [.regs] s t

/-! ## References and the time base -/

/-- R43, R44: an enabled reference found absent loses its marks; one whose edges return is present; one that has been good for its time
qualifies, and in free run is acquired, in holdover switched to. A monitor window within tolerance changes no mark, and one beyond it
disqualifies the reference. -/
def Sys2Proof.Claims.ReferenceMonitorsComplete : Prop :=
  (∀ (r : RefIx) (s : State), s.coldHeld = false → s.isSet (refEn r) = true → s.isSet (refPresent r) = true →
    ∃ t, exec (.refAbsent r) s = .next t ∧ t.isSet (refPresent r) = false ∧ t.isSet (refQual r) = false ∧
      t.isSet (refLost r) = true ∧ (s.isSet (refQual r) = true → 256 ∈ t.raising) ∧
      RegsKept [RegId.REF_STAT.at, RegId.REF_SWCNT.at] s t ∧ Kept [.regs, .tb, .raising, .wide] s t) ∧
  (∀ (r : RefIx) (s : State), s.coldHeld = false → s.isSet (refEn r) = true → (s.refIn r).freqOk = true →
    s.isSet (refPresent r) = false →
    ∃ t, exec (.refEdgesReturn r) s = .next t ∧ t.isSet (refPresent r) = true ∧ (t.refIn r).goodFrom = s.clock ∧
      RegsKept [RegId.REF_STAT.at] s t ∧ Kept [.regs, .tb] s t) ∧
  (∀ (r : RefIx) (s : State), s.coldHeld = false → s.isSet (refEn r) = true → (s.refIn r).freqOk = true →
    s.isSet (refPresent r) = true → s.isSet (refQual r) = false → (s.refIn r).goodFrom + qualTime r s ≤ s.clock →
    ∃ t, exec (.refQualified r) s = .next t ∧ t.isSet (refQual r) = true ∧
      (s.get REF_STAT.STATE = 3 → s.tb.acquiring = none → t.tb.acquiring = some r.val) ∧
      (s.get REF_STAT.STATE = 2 → s.tb.sw = none → t.tb.sw = some ⟨r, .decided, s.clock⟩ ∧ t.isSet REF_STAT.SWITCHING = true) ∧
      RegsKept [RegId.REF_STAT.at] s t ∧ Kept [.regs, .tb] s t) ∧
  (∀ (countA countB : Nat) (s : State), s.coldHeld = false → (s.tb.freqWindows + 1) * msTk ≤ s.clock →
    ((countA * 1000 : Int) - s.get REFA_FREQ.HZ).natAbs * 1000000 ≤ s.get REF_CFG.TOL_PPM * s.get REFA_FREQ.HZ →
    ((countB * 1000 : Int) - s.get REFB_FREQ.HZ).natAbs * 1000000 ≤ s.get REF_CFG.TOL_PPM * s.get REFB_FREQ.HZ →
    ∃ t, exec (.freqMonitorWindow countA countB) s = .next t ∧ t.tb.freqWindows = s.tb.freqWindows + 1 ∧ Kept [.tb] s t) ∧
  (∀ (countA countB : Nat) (s : State), s.coldHeld = false → (s.tb.freqWindows + 1) * msTk ≤ s.clock →
    s.isSet REF_CFG.A_EN = true → s.isSet REF_STAT.A_PRESENT = true → s.tb.ref0.judgeFrom ≤ s.tb.freqWindows →
    s.get REF_CFG.TOL_PPM * s.get REFA_FREQ.HZ < ((countA * 1000 : Int) - s.get REFA_FREQ.HZ).natAbs * 1000000 →
    ∃ t, exec (.freqMonitorWindow countA countB) s = .next t ∧ t.tb.freqWindows = s.tb.freqWindows + 1 ∧
      t.isSet REF_STAT.A_QUAL = false ∧ t.isSet REF_STAT.A_LOST = true) ∧
  (∀ (countA countB : Nat) (s : State), s.coldHeld = false → (s.tb.freqWindows + 1) * msTk ≤ s.clock →
    s.isSet REF_CFG.B_EN = true → s.isSet REF_STAT.B_PRESENT = true → s.tb.ref1.judgeFrom ≤ s.tb.freqWindows →
    s.get REF_CFG.TOL_PPM * s.get REFB_FREQ.HZ < ((countB * 1000 : Int) - s.get REFB_FREQ.HZ).natAbs * 1000000 →
    ∃ t, exec (.freqMonitorWindow countA countB) s = .next t ∧ t.tb.freqWindows = s.tb.freqWindows + 1 ∧
      t.isSet REF_STAT.B_QUAL = false ∧ t.isSet REF_STAT.B_LOST = true)

/-- R45 to R48, R51, R53: the reversion decides a switchover; its steps freeze, load the build-out and settle on the new reference;
holdover meets its limit; free run ends when the reference is acquired. It rests on choices of the model, which are in the log:
entry 4 (limits), entry 5 (measured values), entry 76 (the incoming reference lost during a switchover), entry 79 (holdover after
a switchover begun in it), entry 80 (MAN_SEL during acquisition). -/
def Obligations.SwitchoversComplete : Prop :=
  (∀ s : State, s.coldHeld = false → s.get REF_CFG.MODE = 2 → s.isSet (refQual (s.get REF_CFG.PREF)) = true →
    s.get REF_STAT.STATE = 1 - s.get REF_CFG.PREF → s.tb.sw = none →
    (s.refIn (s.get REF_CFG.PREF)).qualFrom + s.get REF_CFG.REVERT_S * sTk ≤ s.clock →
    ∃ t, exec .revertTimer s = .next t ∧ t.tb.sw = some ⟨s.get REF_CFG.PREF, .decided, s.clock⟩ ∧
      t.isSet REF_STAT.SWITCHING = true ∧ t.get REF_STAT.STATE = s.get REF_STAT.STATE ∧ RegsKept [RegId.REF_STAT.at] s t ∧
      Kept [.regs, .tb] s t) ∧
  (∀ (r from_ : Nat) (s : State), s.coldHeld = false → s.tb.sw = some ⟨r, .decided, from_⟩ → from_ + 64 ≤ s.clock →
    ∃ t, exec .switchoverFreeze s = .next t ∧ t.tb.sw = some ⟨r, .frozen, s.clock⟩ ∧ Kept [.tb] s t) ∧
  (∀ (r from_ : Nat) (phase : Int) (s : State), s.coldHeld = false → s.tb.sw = some ⟨r, .frozen, from_⟩ → from_ + 3200 ≤ s.clock →
    ∃ t, exec (.switchoverClose phase) s = .next t ∧ t.tb.sw = some ⟨r, .closed, s.clock⟩ ∧
      (t.wideAt aREF_BUILDOUT : Int) = (s.wideAt aREF_BUILDOUT + phase) % 2 ^ 64 ∧
      (∀ a, a ≠ aREF_BUILDOUT → t.wideAt a = s.wideAt a) ∧ Kept [.tb, .wide] s t) ∧
  (∀ (r from_ : Nat) (s : State), s.coldHeld = false → s.tb.sw = some ⟨r, .closed, from_⟩ → s.tb.heldSel = none → r < 2 →
    ∃ t, exec .switchoverSettled s = .next t ∧ t.get REF_STAT.STATE = r ∧ t.isSet REF_STAT.SWITCHING = false ∧
      t.isSet REF_STAT.SWITCHED = true ∧ t.tb.sw = none ∧ t.raising = s.raising ++ [257] ∧
      RegsKept [RegId.REF_STAT.at, RegId.REF_SWCNT.at] s t ∧ Kept [.regs, .tb, .raising] s t) ∧
  (∀ s : State, s.coldHeld = false → s.get REF_STAT.STATE = 2 → s.get HOLD_CFG.MAX_S ≠ 0 →
    s.tb.holdSince + s.get HOLD_CFG.MAX_S * sTk ≤ s.clock →
    ∃ t, exec .holdLimit s = .next t ∧ t.isSet REF_STAT.HOLD_LIMIT = true ∧ t.get REF_STAT.STATE = 2 ∧
      RegsKept [RegId.REF_STAT.at] s t ∧ Kept [.regs] s t) ∧
  (∀ (r : Nat) (s : State), s.coldHeld = false → s.tb.acquiring = some r → s.get REF_STAT.STATE = 3 → s.tb.heldSel = none → r < 2 →
    ∃ t, exec .acquisitionComplete s = .next t ∧ t.get REF_STAT.STATE = r ∧ t.tb.acquiring = none ∧
      RegsKept [RegId.REF_STAT.at] s t ∧ Kept [.regs, .tb] s t)

/-- R54 to R58: at the start pulse every replica in service counts from 0; at a strobe each is compared with the time master, its
phase is reported, and one that is out of step raises TBSTEP; the next strobe steps it to the time master's count, and a forward
step passes over the actions whose tick lies before that count, which come at the tick after. While the control die does not work
a new time master still takes the role, and nothing is compared. It rests on choices of the model, which are in the log: entry 5
(measured values), entry 14 (upsets of a replica and of a register), entry 124 (the replica report of a chiplet that latches no
strobe). -/
def Obligations.ReplicasComplete : Prop :=
  (∀ s : State, s.coldHeld = false → (∀ n < 8, (s.chip n).running = false) →
    ∃ t, exec .replicaStart s = .next t ∧ (∀ n < 8, s.chipLost n = false → (t.chip n).running = true ∧ t.count n = 0) ∧
      t.get TB_STAT.MASTER = s.lowestLive ∧ t.tb.strobes = 0 ∧ RegsKept [RegId.TB_STAT.at] s t ∧ Kept [.regs, .chips, .tb] s t) ∧
  (∀ (l : List (Int × Int)) (s : State), s.coldHeld = false → s.cdDown = false → l.length = 8 → (∀ x ∈ l, x.1 = 0) →
    (∀ n < 8, (s.chip n).reload = false) → s.get TB_STAT.MASTER = s.lowestLive →
    (s.chip (s.get TB_STAT.MASTER)).running = true → s.mcount / 65536 + 1 ≠ s.tb.strobes →
    ∃ t, exec (.alignmentStrobe l) s = .next t ∧ t.tb.strobes = s.mcount / 65536 + 1 ∧
      (∀ n < 8, s.chipOut n = false → (s.chip n).running = true →
        (t.get REPL_PHASE.PHASE n : Int) = ((l.getD n (0, 0)).2 - (l.getD s.lowestLive (0, 0)).2) % 2 ^ 16 ∧
        t.isSet REPL_PHASE.VALID n = true ∧
          (t.get TB_STAT.REPL_OK).testBit n = (s.count n == s.mcount) ∧ (t.chip n).latchCount = s.count n ∧
          (t.chip n).latchPhase = (l.getD n (0, 0)).2 ∧
          (s.count n ≠ s.mcount → (t.chip n).reload = true ∧ t.isSet REPL_PHASE.OUT_OF_STEP n = true ∧
            t.isSet TB_STAT.TBSTEP = true ∧ 259 ∈ t.raising)) ∧
      (s.tb.sw = none → t.tb.bwInForce = s.get REF_CFG.BW) ∧ Kept [.regs, .chips, .tb, .raising] s t) ∧
  (∀ (l : List (Int × Int)) (n : ChipletIx) (s : State), s.coldHeld = false → s.cdDown = false → l.length = 8 →
    (∀ x ∈ l, x.1 = 0) → (∀ k < 8, k ≠ n.val → (s.chip k).reload = false) → s.get TB_STAT.MASTER = s.lowestLive →
    s.lowestLive ≠ n.val → (s.chip s.lowestLive).running = true → s.mcount / 65536 + 1 ≠ s.tb.strobes → s.chipOut n = false →
    (s.chip n).running = true → (s.chip n).reload = true →
    ∃ t, exec (.alignmentStrobe l) s = .next t ∧ t.count n = s.mcount ∧ (t.chip n).reload = false ∧
      (t.get TB_STAT.REPL_OK).testBit n = true ∧
      (t.chip n).fifo =
        (if s.count n < s.mcount then (s.chip n).fifo.map (Admitted.pass s.mcount) else (s.chip n).fifo) ∧
      t.isSet COMMIT_STAT.LATE_SEEN n =
        (s.isSet COMMIT_STAT.LATE_SEEN n || decide (s.count n < s.mcount) && (s.chip n).fifo.any fun a => decide (a.due < s.mcount))) ∧
  (∀ (l : List (Int × Int)) (s : State), s.coldHeld = false → s.cdDown = true → l.length = 8 →
    (s.chip (s.get TB_STAT.MASTER)).running = true → s.mcount / 65536 + 1 ≠ s.tb.strobes →
    ∃ t, exec (.alignmentStrobe l) s = .next t ∧ t.get TB_STAT.MASTER = s.lowestLive ∧
      (∀ n, (t.chip n).reload = (s.chip n).reload) ∧ RegsKept [RegId.TB_STAT.at] s t ∧ Kept [.regs, .chips, .tb] s t)

/-- R59, R61 to R65: EPOCH_ARM arms the load unless an action waits or a relock or failover runs, EPOCH_DISARM ends it; the input's edge
is taken, and every edge after a load is stamped and counted; the load gives every replica in service the epoch's count. -/
def Sys2Proof.Claims.EpochsComplete : Prop :=
  (∀ (o : Origin) (v : Word) (s : State), s.writesPair o .EPOCH_CTRL_A 0 (withField v 2 1 1) = true →
    (∀ n < 8, s.get COMMIT_STAT.LEVEL n = 0) → s.relockOrFailover = false → v.toNat % 4 ≠ 3 →
    ∃ t, exec (.epochArm o v) s = .next t ∧ t.isSet EPOCH_STAT.ARMED = true ∧ t.get EPOCH_CTRL_A.SRC = v.toNat % 4 ∧
      t.tb.take = (if v.toNat % 4 = 2 then some .host else none) ∧
      RegsKept [RegId.EPOCH_CTRL_A.at, RegId.EPOCH_STAT.at] s t ∧ Kept [.regs, .tb, .tansyQ, .orgs] s t) ∧
  (∀ (o : Origin) (v : Word) (s : State), s.writesPair o .EPOCH_CTRL_A 0 (withField v 2 1 1) = true →
    ((∃ n < 8, s.get COMMIT_STAT.LEVEL n ≠ 0) ∨ s.relockOrFailover = true ∨ v.toNat % 4 = 3) →
    ∃ t, exec (.epochArm o v) s = .next t ∧ t.isSet EPOCH_STAT.REFUSED = true ∧ t.tb = s.tb ∧
      RegsKept [RegId.EPOCH_STAT.at] s t) ∧
  (∀ (o : Origin) (v : Word) (s : State), s.writesPair o .EPOCH_CTRL_A 0 (withField v 2 1 0) = true →
    ∃ t, exec (.epochDisarm o v) s = .next t ∧ t.isSet EPOCH_STAT.ARMED = false ∧ t.tb.take = none ∧
      RegsKept [RegId.EPOCH_CTRL_A.at, RegId.EPOCH_STAT.at] s t ∧ Kept [.regs, .tb, .tansyQ, .orgs] s t) ∧
  (∀ (fall : Bool) (frac : BitVec 16) (s : State), s.coldHeld = false → s.isSet EPOCH_CTRL_A.FALL = fall →
    s.isSet EPOCH_STAT.ARMED = true → s.get EPOCH_CTRL_A.SRC = 0 → s.tb.take = none → s.relockOrFailover = false →
    s.tb.places = none →
    ∃ t, exec (.epochInEdge fall frac) s = .next t ∧ t.tb.take = some (.edge s.clock frac.toNat) ∧ Kept [.tb] s t) ∧
  (∀ (fall : Bool) (frac : BitVec 16) (p : EpochPlaces) (s : State), s.coldHeld = false → s.isSet EPOCH_CTRL_A.FALL = fall →
    s.tb.places = some p → p.period = 0 →
    ∃ t, exec (.epochInEdge fall frac) s = .next t ∧ t.wideAt aEPOCH_LAST = s.mcount * 65536 + frac.toNat ∧
      t.get EPOCH_STAT.PPS_CNT = (s.get EPOCH_STAT.PPS_CNT + 1) % 2 ^ EPOCH_STAT.PPS_CNT.w ∧ t.tb.places = some p ∧
      RegsKept [RegId.EPOCH_STAT.at] s t ∧ Kept [.regs, .wide, .tb] s t) ∧
  (∀ s : State, s.coldHeld = false → s.isSet EPOCH_STAT.ARMED = true → s.tb.take = some .host → s.relockOrFailover = false →
    ∃ t, exec .epochLoad s = .next t ∧
      (∀ n < 8, s.chipLost n = false → (s.chip n).running = true →
        t.count n = s.get EPOCH_TICK_HI.TICK * 2 ^ 32 + s.get EPOCH_TICK_LO.TICK ∧
          (t.chip n).gen = ((s.chip n).gen + 1) % 65536) ∧
      t.isSet EPOCH_STAT.ARMED = false ∧ t.isSet EPOCH_STAT.LOADED = true ∧ t.isSet TB_STAT.EPOCH_SET = true ∧
      t.tb.take = none ∧ t.tb.slew = none ∧ 260 ∈ t.raising ∧ t.nvm = s.nvm ∧ t.engines = s.engines) ∧
  (∀ (p : EpochPlaces) (s : State), s.coldHeld = false → s.tb.places = some p → p.period ≠ 0 →
    (p.base + p.next * p.period + s.get EPOCH_TOL.TOL_TK) * 65536 + p.frac < ts80 s.mcount →
    ∃ t, exec .epochMissing s = .next t ∧ t.isSet EPOCH_STAT.MISSING = true ∧ RegsKept [RegId.EPOCH_STAT.at] s t ∧
      Kept [.regs, .tb] s t)

/-- R67: a write of TB_SLEW with GO = 1 requests a slew at the clamped rate; it starts at the next strobe for its computed number of ticks
and ends there. -/
def Sys2Proof.Claims.SlewsComplete : Prop :=
  (∀ (o : Origin) (v : Word) (s : State), s.writes o .TB_SLEW 0 0 (withField v 31 1 1) = true →
    ∃ t, exec (.tbSlewWrite o v) s = .next t ∧
      t.tb.slewReq = some {
        adj := (v.setWidth 24).toInt, rate := max 1 (min 100 (fieldOf v 24 7)), from_ := s.tb.strobes } ∧
      t.tb.slew = none ∧ t.isSet TB_STAT.SLEWING = false ∧ t.get TB_SLEW.RATE_PPB = max 1 (min 100 (fieldOf v 24 7)) ∧
      t.get TB_SLEW.ADJ = v.toNat % 2 ^ 24 ∧ (¬ (1 ≤ fieldOf v 24 7 ∧ fieldOf v 24 7 ≤ 100) → t.isSet TB_STAT.SLEW_CLAMP = true) ∧
      RegsKept [RegId.TB_SLEW.at, RegId.TB_STAT.at] s t ∧ Kept [.regs, .tb, .tansyQ] s t) ∧
  (∀ (q : Slew) (s : State), s.coldHeld = false → s.tb.slewReq = some q → s.mcount / 65536 + 1 ≠ q.from_ →
    ∃ t, exec .slewStart s = .next t ∧ t.tb.slewReq = none ∧
      t.tb.slew = some { q with endsAt := s.clock + (q.adj.natAbs * 1000000000 + 65536 * q.rate - 1) / (65536 * q.rate) } ∧
      t.isSet TB_STAT.SLEWING = true ∧ t.isSet TB_SLEW.GO = false ∧ RegsKept [RegId.TB_SLEW.at, RegId.TB_STAT.at] s t ∧
      Kept [.regs, .tb] s t) ∧
  (∀ (q : Slew) (s : State), s.coldHeld = false → s.tb.slew = some q → q.endsAt ≤ s.clock →
    ∃ t, exec .slewEnd s = .next t ∧ t.tb.slew = none ∧ t.isSet TB_STAT.SLEWING = false ∧ RegsKept [RegId.TB_STAT.at] s t ∧
      Kept [.regs, .tb] s t)

/-- R59, R61 to R65: EPOCH_ARM arms the load unless an action waits or a relock or failover runs, EPOCH_DISARM ends it; the input's
edge is taken, and every edge after a load is stamped and counted; the load gives every replica in service the epoch's count. R67:
a write of TB_SLEW with GO = 1 requests a slew at the clamped rate; it starts at the next strobe for its computed number of ticks
and ends there. It rests on choices of the model, which are in the log: entry 4 (limits), entry 70 (paired rows), entry 81 (places
of EPOCH_IN after a load from elsewhere), entry 82 (ADJ at its end of range), entry 123 (the end of a slew), entry 125 (an
EPOCH_IN edge midway between two places). -/
def Obligations.EpochsAndSlewsComplete : Prop :=
  Claims.EpochsComplete ∧ Claims.SlewsComplete

/-- The frequency register of a reference (R39). -/
def Sys2Proof.Claims.freqReg (r : RefIx) : RegId := if r.val = 0 then .REFA_FREQ else .REFB_FREQ

/-- R39, R43, R45, R48: an accepted frequency is stored; in manual mode the named reference is switched to; an unqualified or
disabled one is refused; a selection during a switchover is held; a reference whose enable is cleared is absent. -/
def Sys2Proof.Claims.ReferenceWritesComplete : Prop :=
  (∀ (o : Origin) (r : RefIx) (v : Word) (s : State), s.writes o (freqReg r) 0 0 v = true → s.get REF_STAT.STATE ≠ r.val →
    10000000 ≤ v.toNat → v.toNat ≤ 3200000000 → v.toNat / Nat.gcd 3200000000 v.toNat ≤ 1024 →
    ∃ t, exec (.refFreqWrite o r v) s = .next t ∧ t.reg ((freqReg r).at) = v ∧ (t.refIn r).freqOk = true ∧
      RegsKept [(freqReg r).at] s t ∧ Kept [.regs, .tb, .tansyQ] s t) ∧
  (∀ (o : Origin) (v : Word) (s : State) (r : Nat), s.writes o .REF_CFG 0 0 v = true → r = fieldOf v 3 1 → fieldOf v 0 2 = 0 →
    fieldOf v 4 2 = fieldOf (s.reg RegId.REF_CFG.at) 4 2 → s.isSet (refEn r) = true → s.isSet (refQual r) = true →
    s.get REF_STAT.STATE < 2 → s.get REF_STAT.STATE ≠ r → s.tb.sw = none →
    ∃ t, exec (.manSelWrite o v) s = .next t ∧ t.get REF_CFG.MAN_SEL = r ∧ t.get REF_CFG.MODE = 0 ∧
      t.tb.sw = some ⟨r, .decided, s.clock⟩ ∧ t.isSet REF_STAT.SWITCHING = true ∧
      RegsKept [RegId.REF_CFG.at, RegId.REF_STAT.at] s t ∧ Kept [.regs, .tb, .tansyQ] s t) ∧
  (∀ (o : Origin) (v : Word) (s : State) (r : Nat), s.writes o .REF_CFG 0 0 v = true → r = fieldOf v 3 1 →
    fieldOf v 4 2 = fieldOf (s.reg RegId.REF_CFG.at) 4 2 → s.isSet (refQual r) = false ∨ s.isSet (refEn r) = false →
    s.tb.sw = none → s.tb.acquiring = none →
    ∃ t, exec (.manSelWrite o v) s = .next t ∧ t.get REF_CFG.MAN_SEL = s.get REF_CFG.MAN_SEL ∧
      t.isSet REF_STAT.SEL_REFUSED = true ∧ t.tb = s.tb) ∧
  (∀ (o : Origin) (v : Word) (s : State) (r : Nat), s.writes o .REF_CFG 0 0 v = true → r = fieldOf v 3 1 →
    fieldOf v 4 2 = fieldOf (s.reg RegId.REF_CFG.at) 4 2 → s.tb.sw.isSome = true →
    ∃ t, exec (.manSelWrite o v) s = .next t ∧ t.get REF_CFG.MAN_SEL = s.get REF_CFG.MAN_SEL ∧ t.tb.heldSel = some r ∧
      t.tb.sw = s.tb.sw ∧ RegsKept [RegId.REF_CFG.at] s t) ∧
  (∀ (o : Origin) (v : Word) (s : State), s.writes o .REF_CFG 0 0 v = true → fieldOf v 0 2 = 1 → s.isSet REF_CFG.A_EN = true →
    fieldOf v 4 1 = 0 → s.isSet REF_STAT.A_PRESENT = true →
    ∃ t, exec (.refEnableWrite o v) s = .next t ∧ t.isSet REF_CFG.A_EN = false ∧ t.isSet REF_STAT.A_PRESENT = false ∧
      t.isSet REF_STAT.A_QUAL = false ∧ t.isSet REF_STAT.A_LOST = true) ∧
  (∀ (o : Origin) (v : Word) (s : State), s.writes o .REF_CFG 0 0 v = true → fieldOf v 0 2 = 1 → s.isSet REF_CFG.B_EN = false →
    s.isSet REF_CFG.A_EN = false → fieldOf v 4 2 = 3 →
    ∃ t, exec (.refEnableWrite o v) s = .next t ∧ t.isSet REF_CFG.A_EN = true ∧ t.isSet REF_CFG.B_EN = true ∧
      (∀ b, b ≠ REF_STAT.SEL_REFUSED.lo → (t.reg RegId.REF_STAT.at).getLsbD b = (s.reg RegId.REF_STAT.at).getLsbD b) ∧
      RegsKept [RegId.REF_CFG.at, RegId.REF_STAT.at] s t ∧ Kept [.regs, .tb, .tansyQ] s t)

/-- R43, R44: an enabled reference found absent loses its marks; one whose edges return is present; one that has been good for its
time qualifies, and in free run is acquired, in holdover switched to. A monitor window within tolerance changes no mark, and one
beyond it disqualifies the reference. R39, R43, R45, R48: an accepted frequency is stored; in manual mode the named reference is
switched to; an unqualified or disabled one is refused; a selection during a switchover is held; a reference whose enable is
cleared is absent. It rests on choices of the model, which are in the log: entry 4 (limits), entry 5 (measured values), entry 80
(MAN_SEL during acquisition). -/
def Obligations.ReferencesComplete : Prop :=
  Claims.ReferenceMonitorsComplete ∧ Claims.ReferenceWritesComplete

/-! ## Synthesis cores -/

/-- Chiplet `n` works: no cold reset is held and the chiplet is not lost (R35, R364). -/
def Sys2Proof.Claims.alive (n : Nat) (s : State) : Prop := s.coldHeld = false ∧ s.chipDead n = false

/-- R81, R83, R118: a commit captures the shadow registers; at a comparison edge a word that passes its checks becomes the active
word, and one that fails a check changes nothing but the report. A commit on the standby half of an open hop window is discarded.
It rests on choices of the model, which are in the log: entry 56 (collisions at one boundary), entry 83 (the gross monitor at an
applied word), entry 126 (the comparison divider after a change of CMP_DIV). -/
def Obligations.CoreWordsComplete : Prop :=
  (∀ (o : Origin) (c : CoreIx) (h : HalfIx) (v : Word) (s : State), s.writes o .HALF_CMD c h (withField v 0 1 1) = true →
    s.isSet HOP_STAT.WINDOW c = false → s.isSet HOP_STAT.RELOCKING c = false →
    ∃ t, exec (.halfCommit o c h v) s = .next t ∧ (t.half c h).pend = some (s.shadowWord c h) ∧
      t.isSet HALF_STAT.PENDING c h = true ∧ t.isSet HALF_CMD.COMMIT c h = true ∧
      RegsKept [RegId.HALF_STAT.at c h, RegId.HALF_CMD.at c h] s t ∧ Kept [.regs, .halves, .tansyQ] s t) ∧
  (∀ (o : Origin) (c : CoreIx) (h : HalfIx) (v : Word) (s : State), s.writes o .HALF_CMD c h (withField v 0 1 1) = true →
    s.isSet HOP_STAT.WINDOW c = true → s.drive c ≠ h →
    ∃ t, exec (.halfCommit o c h v) s = .next t ∧ t.halves = s.halves ∧ t.isSet HOP_STAT.CMT_BUSY c = true ∧
      t.isSet HALF_CMD.COMMIT c h = false) ∧
  (∀ (c : CoreIx) (h : HalfIx) (w : DivWord) (s : State), alive (c.val / 8) s → s.coreFrozen c = false →
    (s.half c h).pend = some w → s.wordEdge c h = true → (s.half c h).lastTimed ≠ some s.clock → (s.core c).hop = none →
    s.isSet HOP_STAT.WINDOW c = false → s.isSet HOP_STAT.RELOCKING c = false → (s.drive c = h → s.inPlaceDue c = false) →
    w.search = false → checkWord s c h w (s.halfDrives c h) (retuneDiv s c h none [] w) = none →
    ∃ t, exec (.halfWordApply c h) s = .next t ∧ (t.half c h).pend = none ∧ t.isSet HALF_STAT.PENDING c h = false ∧
      t.get HALF_STAT.ACT_INT c h = w.int % 128 ∧ t.get HALF_STAT.ACT_MODE c h = w.mode % 4 ∧
      t.get HALF_STAT.ACT_DIV c h = w.cmpDiv % 4 ∧ t.get HALF_STAT.ACT_BAND c h = w.band % 1024 ∧
      t.wideAt (aACT_FRAC c h) = w.frac ∧ t.mem = s.mem) ∧
  (∀ (c : CoreIx) (h : HalfIx) (w : DivWord) (bit : Nat) (s : State), alive (c.val / 8) s → s.coreFrozen c = false →
    (s.half c h).pend = some w → s.wordEdge c h = true → s.drive c ≠ h →
    (s.half c h).lastTimed ≠ some s.clock → (s.core c).hop = none → s.isSet HOP_STAT.WINDOW c = false →
    checkWord s c h w false s.divInForce = some bit →
    ∃ t, exec (.halfWordApply c h) s = .next t ∧ (t.half c h).pend = none ∧ t.get ⟨.HALF_ERR, bit, 1⟩ c h = 1 ∧
      t.get HALF_ERR.LAST_CODE c h = bit + 1 ∧ t.get HALF_STAT.ACT_INT c h = s.get HALF_STAT.ACT_INT c h ∧
      t.wide = s.wide ∧ t.raising = s.raising ++ [263])

/-- R85, R88: a powered half becomes ready; the standby half's power may be cleared, which ends its lock, and the driving half's may not;
LD_CFG keeps its fields in range. -/
def Sys2Proof.Claims.CorePowerAndReadinessComplete : Prop :=
  (∀ (c : CoreIx) (h : HalfIx) (s : State), alive (c.val / 8) s → s.powered c h = true → s.isSet HALF_STAT.READY c h = false →
    ∃ t, exec (.halfReady c h) s = .next t ∧ t.isSet HALF_STAT.READY c h = true ∧ t.get LD_DIFF.RUN c h = 0 ∧
      (t.half c h).winFrom = s.clock ∧ t.mem = s.mem) ∧
  (∀ (o : Origin) (c : CoreIx) (v : Word) (s : State), s.writes o .CORE_CTRL c 0 v = true → s.drive c = 0 →
    fieldOf v 0 1 = 1 → s.isSet CORE_CTRL.B_PWR c = true → fieldOf v 1 1 = 0 →
    ∃ t, exec (.corePowerWrite o c v) s = .next t ∧ t.isSet CORE_CTRL.A_PWR c = true ∧ t.isSet CORE_CTRL.B_PWR c = false ∧
      t.isSet HALF_STAT.READY c 1 = false ∧ t.locked c 1 = false ∧ (t.half c 1).pend = none ∧ t.mem = s.mem) ∧
  (∀ (o : Origin) (c : CoreIx) (v : Word) (s : State), s.writes o .CORE_CTRL c 0 v = true → s.drive c = 0 →
    s.isSet CORE_CTRL.A_PWR c = true → fieldOf v 0 1 = 0 → fieldOf v 1 1 = s.get CORE_CTRL.B_PWR c →
    ∃ t, exec (.corePowerWrite o c v) s = .next t ∧ t.isSet CORE_CTRL.A_PWR c = true ∧
      t.isSet CORE_STAT.PWR_REFUSED c = true ∧ t.isSet HALF_STAT.READY c 0 = s.isSet HALF_STAT.READY c 0) ∧
  (∀ (o : Origin) (c : CoreIx) (h : HalfIx) (v : Word) (s : State), s.writes o .LD_CFG c h v = true →
    ∃ t, exec (.ldCfgWrite o c h v) s = .next t ∧ t.get LD_CFG.K c h = max 6 (min 20 (fieldOf v 0 5)) ∧
      t.get LD_CFG.LOCK_RUN c h = max 1 (fieldOf v 8 8) ∧ t.get LD_CFG.LOCK_TOL c h = max 1 (fieldOf v 16 8) ∧
      t.get LD_CFG.UNLOCK_TOL c h = max (max 1 (fieldOf v 16 8)) (fieldOf v 24 8) ∧
      RegsKept [RegId.LD_CFG.at c h, RegId.HALF_ERR.at c h] s t ∧ Kept [.regs, .halves, .tansyQ] s t)

/-- R87, R89: a window stores its difference and the tuning voltage, counts good windows in a row, and locks or unlocks the half; the
gross monitor trips at its second bad window, or at once when no feedback comes. R376: no feedback also declares the half failed, as does
a withdrawn lock not declared again within `HALF_TMO_MS`, and a half that does not lock in time at the boot. R109: the post-switch guard,
at its 64th failing comparison cycle, withdraws the driving half's lock with every effect of R87. -/
def Sys2Proof.Claims.LockDetectionComplete : Prop :=
  (∀ (c : CoreIx) (h : HalfIx) (d : Int) (vt : BitVec 8) (s : State), alive (c.val / 8) s →
    s.isSet HALF_STAT.READY c h = true → (s.half c h).search = none → (s.half c h).ldNew = false →
    (s.half c h).winFrom + 2 ^ ldK (s.half c h).ldCur * mOf (s.get HALF_STAT.ACT_DIV c h) ≤ s.clock →
    ∃ t, exec (.ldWindowEnd c h d vt) s = .next t ∧
      (t.get LD_DIFF.DIFF c h : Int) = max (-32767) (min 32767 d) % 65536 ∧ t.get LD_DIFF.VTUNE c h = vt.toNat ∧
      (d.natAbs ≤ ldTol (s.half c h).ldCur → t.get LD_DIFF.RUN c h = min 255 (s.get LD_DIFF.RUN c h + 1)) ∧
      (ldTol (s.half c h).ldCur < d.natAbs → t.get LD_DIFF.RUN c h = 0) ∧
      (s.locked c h = false → (s.half c h).loopOpen = false → d.natAbs ≤ ldTol (s.half c h).ldCur →
        ldRun (s.half c h).ldCur ≤ min 255 (s.get LD_DIFF.RUN c h + 1) → t.locked c h = true ∧ 262 ∈ t.raising) ∧
      (s.locked c h = true → ldUnlock (s.half c h).ldCur < d.natAbs →
        t.locked c h = false ∧ t.isSet HALF_STAT.LOCK_LOST c h = true ∧ 288 + c.val ∈ t.raising) ∧
      (s.locked c h = true → d.natAbs ≤ ldUnlock (s.half c h).ldCur → t.locked c h = true ∧ t.raising = s.raising)) ∧
  (∀ (c : CoreIx) (h : HalfIx) (d : Int) (s : State), alive (c.val / 8) s → s.locked c h = true → (s.half c h).search = none →
    (s.half c h).grossFrom + 256 * mOf (s.get HALF_STAT.ACT_DIV c h) ≤ s.clock →
    ∃ t, exec (.grossMonitorWindow c h d) s = .next t ∧
      (d.natAbs ≤ 4 → (t.half c h).grossRun = 0 ∧ (t.half c h).grossFrom = s.clock ∧ Kept [.halves] s t) ∧
      (4 < d.natAbs → 1 ≤ (s.half c h).grossRun →
        t.isSet HALF_STAT.GROSS c h = true ∧ t.locked c h = false ∧ 288 + c.val ∈ t.raising)) ∧
  (∀ (c : CoreIx) (h : HalfIx) (s : State), alive (c.val / 8) s → s.locked c h = true →
    ∃ t, exec (.grossNoFeedback c h) s = .next t ∧ t.isSet HALF_STAT.GROSS c h = true ∧ t.locked c h = false ∧
      t.halfFailed c h = true ∧ (t.half c h).relockBy = none ∧ 288 + c.val ∈ t.raising) ∧
  (∀ (c : CoreIx) (s : State), alive (c.val / 8) s → (s.half c (s.drive c)).guard = true →
    ∃ t, exec (.postSwitchGuardFail c) s = .next t ∧ t.locked c (s.drive c) = false ∧
      t.isSet HALF_STAT.LOCK_LOST c (s.drive c) = true ∧ 288 + c.val ∈ t.raising) ∧
  (∀ (c : CoreIx) (h : HalfIx) (by_ : Nat) (s : State), alive (c.val / 8) s → (s.half c h).relockBy = some by_ →
    s.powered c h = true → s.locked c h = false → by_ ≤ s.clock → s.halfFailed c h = false →
    ∃ t, exec (.halfRelockTimeout c h) s = .next t ∧ t.halfFailed c h = true ∧ (t.half c h).relockBy = none) ∧
  (∀ (c : CoreIx) (h : HalfIx) (by_ : Nat) (s : State), alive (c.val / 8) s → (s.half c h).bootBy = some by_ →
    s.locked c h = false → by_ ≤ s.clock → s.halfFailed c h = false →
    ∃ t, exec (.halfBootLockTimeout c h) s = .next t ∧ t.halfFailed c h = true ∧ (t.half c h).bootBy = none)

/-- R85, R88: a powered half becomes ready; the standby half's power may be cleared, which ends its lock, and the driving half's may
not; LD_CFG keeps its fields in range. R87, R89: a window stores its difference and the tuning voltage, counts good windows in a
row, and locks or unlocks the half; the gross monitor trips at its second bad window, or at once when no feedback comes. R376: no
feedback also declares the half failed, as does a withdrawn lock not declared again within `HALF_TMO_MS`, and a half that does not
lock in time at the boot. R109: the post-switch guard, at its 64th failing comparison cycle, withdraws the driving half's lock
with every effect of R87. It rests on choices of the model, which are in the log: entry 4 (limits), entry 5 (measured values),
entry 83 (the gross monitor at an applied word). -/
def Obligations.CorePowerAndLockComplete : Prop :=
  Claims.CorePowerAndReadinessComplete ∧ Claims.LockDetectionComplete

/-- R104 to R109, R82: the window of a ping-pong hop opens, its word is loaded at a comparison edge, its half prelocks and is placed,
it passes its readiness test, or fails it where its word was refused, and at Ts the incoming half drives the core. -/
def Sys2Proof.Claims.PingPongHopsComplete : Prop :=
  (∀ (c : CoreIx) (a : Admitted) (s : State), alive (c.val / 8) s → s.coreFrozen c = false → s.hopIn c .pingPong = some a →
    (s.core c).hop = none → a.dead = false → a.due - a.lead ≤ s.count (c.val / 8) → s.count (c.val / 8) < a.due - a.lead + 16 →
    s.spaceLost c (a.due - a.lead, a.due) .pingPong = false → s.inService c (1 - s.drive c) = true →
    ∃ t, exec (.hopWindowOpen c) s = .next t ∧ ((t.core c).hop.map (·.adm)) = some a ∧
      ((t.core c).hop.map (·.loaded)) = some false ∧ t.isSet HOP_STAT.WINDOW c = true ∧
      RegsKept [RegId.HOP_STAT.at c] s t ∧ Kept [.regs, .cores] s t) ∧
  (∀ (c : CoreIx) (r : HopRun) (s : State), alive (c.val / 8) s → (s.core c).hop = some r → r.loaded = true →
    r.wordBad = false → r.searchFail = false → (s.half c (1 - s.drive c)).search = none →
    ∃ t, exec (.hopPrelockDone c) s = .next t ∧ (t.core c).hop = some { r with prelock := true, prelockAt := s.clock } ∧
    Kept [.cores] s t) ∧
  (∀ (c : CoreIx) (h : HalfIx) (r : HopRun) (ctx : Nat) (ws : List Word) (s : State), alive (c.val / 8) s → s.coreFrozen c = false →
    h.val = 1 - s.drive c → (s.core c).hop = some r → r.loaded = false → s.wordEdge c h = true →
    r.adm.due - r.adm.lead + 16 ≤ s.count (c.val / 8) → r.adm.hopOf = some (c.val, ctx, ws) →
    (ctxDiv ws r.adm.cached).search = false → checkWord s c h (ctxDiv ws r.adm.cached) false s.divInForce = none →
    ∃ t, exec (.halfWordApply c h) s = .next t ∧ ((t.core c).hop.map (·.loaded)) = some true ∧
      ((t.core c).hop.map (·.wordBad)) = some false ∧
      t.get HALF_STAT.ACT_INT c h = (ctxDiv ws r.adm.cached).int % 128 ∧ t.drive c = s.drive c ∧ t.mem = s.mem) ∧
  (∀ (c : CoreIx) (r : HopRun) (rot : Word) (resid : Int) (s : State), alive (c.val / 8) s → (s.core c).hop = some r →
    r.prelock = true → r.free = false → r.placed = false →
    ∃ t, exec (.hopPlacementDone c rot resid) s = .next t ∧ (t.core c).hop = some { r with placed := true } ∧
      (t.half c (1 - s.drive c)).rot = rot ∧ (t.half c (1 - s.drive c)).resid = BitVec.ofInt 32 resid ∧
      RegsKept [RegId.HOP_STAT.at c] s t ∧ Kept [.regs, .cores, .halves] s t) ∧
  (∀ (c : CoreIx) (r : HopRun) (s : State), alive (c.val / 8) s → (s.core c).hop = some r → r.tested = false →
    r.adm.due ≤ s.count (c.val / 8) + 256 → s.fullService = true → r.wordBad = false → s.inService c 0 = true →
    s.inService c 1 = true → r.searchFail = false → r.prelock = true → (r.free = true ∨ r.placed = true) →
    ∃ t, exec (.hopReadinessTest c) s = .next t ∧ (t.core c).hop = some { r with tested := true } ∧ Kept [.cores] s t) ∧
  (∀ (c : CoreIx) (r : HopRun) (s : State), alive (c.val / 8) s → (s.core c).hop = some r → r.tested = false →
    r.adm.due ≤ s.count (c.val / 8) + 256 → s.fullService = true → r.wordBad = true →
    ∃ t, exec (.hopReadinessTest c) s = .next t ∧ (t.core c).hop = none ∧ t.isSet HOP_STAT.WINDOW c = false ∧
      t.isSet HOP_STAT.FAIL c = true ∧ t.get HOP_STAT.LAST_REASON c = 1 ∧ t.raising = s.raising ++ [265] ∧ t.halves = s.halves) ∧
  (∀ (c : CoreIx) (a : Admitted) (r : HopRun) (ctx : Nat) (ws : List Word) (s : State), alive (c.val / 8) s →
    s.coreFrozen c = false → s.hopIn c .pingPong = some a → a.hopOf = some (c.val, ctx, ws) → a.due ≤ s.count (c.val / 8) →
    s.othersDue (c.val / 8) a = false → a.dead = false → (s.core c).hop = some r → r.tested = true → ctx < 16384 →
    s.inService c (s.drive c) = true →
    ceilTest s.beforeCeil c (s.fvco c (1 - s.drive c)) (entryDiv s a (ctxEntries ws)) = true →
    ∃ t, exec (.hopSwitch c) s = .next t ∧ t.drive c = 1 - s.drive c ∧ (t.core c).hop = none ∧
      t.isSet HOP_STAT.WINDOW c = false ∧ t.get HOP_STAT.LAST_CTX c = ctx ∧
      t.get HOP_CNT.HOPS c = (s.get HOP_CNT.HOPS c + 1) % 65536 ∧ t.wideAt (aLAST_SWITCH c) = r.adm.due * 65536 ∧
      264 ∈ t.raising ∧ t.mem = s.mem)

/-- R115 to R118: an in-place HOP retunes the driving half; a relock sets `RELOCKING` with its limit, holds each running port
whose policy is not to run on, discards the commit that waits, loads its word, and is released or times out, here on a core that
is no group's spare. -/
def Sys2Proof.Claims.InPlaceAndRelockHopsComplete : Prop :=
  (∀ (c : CoreIx) (a : Admitted) (ctx : Nat) (ws : List Word) (s : State), alive (c.val / 8) s → s.coreFrozen c = false →
    s.nextAction (c.val / 8) = some a → a.hopOf = some (c.val, ctx, ws) → a.cls = .inPlace → a.dead = false →
    s.fullService = true → s.spaceLost c (a.due, a.due) .inPlace = false → s.inService c (s.drive c) = true → ctx < 16384 →
    let u := (takeHop c a s).setHalf c (s.drive c) { s.half c (s.drive c) with lastTimed := some s.clock }
    checkWord u.beforeCeil c (s.drive c) (ctxDiv ws true) true
      (retuneDiv u c (s.drive c) (some a) ((ctxEntries ws).filter fun e => s.srcCore e.1 == c.val) (ctxDiv ws true)) = none →
    ∃ t, exec (.hopInplace c) s = .next t ∧ t.get HALF_STAT.ACT_INT c (s.drive c) = (ctxDiv ws true).int % 128 ∧
      t.wideAt (aACT_FRAC c (s.drive c)) = (ctxDiv ws true).frac ∧ t.get HOP_STAT.LAST_CTX c = ctx ∧
      t.get HOP_CNT.HOPS c = (s.get HOP_CNT.HOPS c + 1) % 65536 ∧ t.drive c = s.drive c ∧ t.mem = s.mem) ∧
  (∀ (c : CoreIx) (a : Admitted) (ctx : Nat) (ws : List Word) (s : State), alive (c.val / 8) s → s.coreFrozen c = false →
    s.nextAction (c.val / 8) = some a → a.hopOf = some (c.val, ctx, ws) → a.cls = .relock → a.dead = false →
    s.fullService = true → 8 < a.lead → s.inService c (s.drive c) = true → s.isSet HOP_CFG.RELOCK_EN c = true →
    ∃ t, exec (.relockStart c) s = .next t ∧ t.isSet HOP_STAT.RELOCKING c = true ∧
      ((t.core c).relock.map (·.adm)) = some a ∧
      ((t.core c).relock.map (·.limit)) = some (a.due + relockLimit a.cached (ctxDiv ws a.cached).preset) ∧
      (t.half c (s.drive c)).pend = none ∧
      (∀ p ∈ s.portsOf c, s.get PORT_STAT.STATE p = psRun → s.get PORT_CFG.RL_POL p ≠ 3 → t.get PORT_STAT.STATE p = psRelock) ∧
      t.mem = s.mem) ∧
  (∀ (c : CoreIx) (r : RelockRun) (ctx : Nat) (ws : List Word) (s : State), alive (c.val / 8) s → s.coreFrozen c = false →
    (s.core c).relock = some r → r.loaded = false → s.wordEdge c (s.drive c) = true → r.adm.hopOf = some (c.val, ctx, ws) →
    (ctxDiv ws r.adm.cached).search = false →
    checkWord s c (s.drive c) (ctxDiv ws r.adm.cached) false s.divInForce = none →
    ∃ t, exec (.relockWordLoad c) s = .next t ∧ ((t.core c).relock.map (·.loaded)) = some true ∧
      t.get HALF_STAT.ACT_INT c (s.drive c) = (ctxDiv ws r.adm.cached).int % 128 ∧ t.mem = s.mem) ∧
  (∀ (c : CoreIx) (r : RelockRun) (rot : Word) (resid : Int) (ctx : Nat) (ws : List Word) (s : State), alive (c.val / 8) s →
    (s.core c).relock = some r → r.adm.hopOf = some (c.val, ctx, ws) → r.prelock = true → r.ceilBad = false →
    (s.half c (s.drive c)).search = none → s.count (c.val / 8) < r.limit → ctx < 16384 →
    ceilTest s.beforeCeil c (s.fvco c (s.drive c)) (entryDiv s r.adm (ctxEntries ws)) = true →
    ∃ t, exec (.relockRelease c rot resid) s = .next t ∧ (t.core c).relock = none ∧ t.isSet HOP_STAT.RELOCKING c = false ∧
      t.get HOP_STAT.LAST_CTX c = ctx ∧ t.get HOP_CNT2.RELOCKS c = (s.get HOP_CNT2.RELOCKS c + 1) % 65536 ∧
      264 ∈ t.raising ∧ t.mem = s.mem) ∧
  (∀ (c : CoreIx) (r : RelockRun) (s : State), alive (c.val / 8) s → (s.core c).relock = some r → r.limit ≤ s.count (c.val / 8) →
    s.isSpare c = false →
    ∃ t, exec (.relockTimeout c) s = .next t ∧ (t.core c).relock = none ∧ t.isSet HOP_STAT.RELOCKING c = false ∧
      t.isSet HOP_STAT.FAIL c = true ∧ t.get HOP_STAT.LAST_REASON c = (if r.ceilBad then 5 else 8) ∧ 288 + c.val ∈ t.raising)

/-- R104 to R109, R82: the window of a ping-pong hop opens, its word is loaded at a comparison edge, its half prelocks and is placed,
it passes its readiness test, or fails it where its word was refused, and at Ts the incoming half drives the core. R115 to R118:
an in-place HOP retunes the driving half; a relock sets `RELOCKING` with its limit, holds each running port whose policy is not to
run on, discards the commit that waits, loads its word, and is released or times out, here on a core that is no group's spare. It
rests on choices of the model, which are in the log: entry 4 (limits), entry 5 (measured values), entry 16 (hops on a spare core),
entry 17 (busy interval of a relock), entry 89 (LAST_PLACE without a placement), entry 90 (order of reasons at Ts), entry 101
(UNANCHORED of a hop in place), entry 127 (a ping-pong switch and a HOP that waits for its comparison edge). -/
def Obligations.HopsComplete : Prop :=
  Claims.PingPongHopsComplete ∧ Claims.InPlaceAndRelockHopsComplete

/-- R139 to R141, R144: a failover loads the failed half's word into the spare, fails or goes on with the search's result, prelocks,
and ends with the spare half driving its core, and with the spare in use if and only if it drives a port that the failover covers.
A member list whose checks pass is stored, and a spare list that a check refuses is not. It rests on choices of the model, which
are in the log: entry 5 (measured values), entry 86 (check 4 during a failover), entry 87 (a spare that a failover has taken). -/
def Obligations.FailoversComplete : Prop :=
  (∀ (c : CoreIx) (f : FailoverRun) (s : State), alive (c.val / 8) s → (s.core c).failover = some f → f.loaded = false →
    s.wordEdge f.spare f.spareHalf = true → f.spare < 64 → f.spareHalf < 2 → 3 ≤ f.word.preset →
    checkWord s f.spare f.spareHalf { f.word with search := true } false s.divInForce = none →
    ∃ t, exec (.failoverSpareLoad c) s = .next t ∧ ((t.core c).failover.map (·.loaded)) = some true ∧
      t.get HALF_STAT.ACT_INT f.spare f.spareHalf = f.word.int % 128 ∧ t.mem = s.mem) ∧
  (∀ (c : CoreIx) (f : FailoverRun) (g : Nat) (s : State), alive (c.val / 8) s → (s.core c).failover = some f →
    f.found = some false → s.groupOf c = some g →
    ∃ t, exec (.failoverSearchDone c) s = .next t ∧ (t.core c).failover = none ∧ t.isSet LG_STAT.FO_FAIL g = true) ∧
  (∀ (c : CoreIx) (f : FailoverRun) (s : State), alive (c.val / 8) s → (s.core c).failover = some f → f.found = some true →
    ∃ t, exec (.failoverPrelockDone c) s = .next t ∧ (t.core c).failover = some { f with prelock := true, prelockAt := s.clock } ∧
    Kept [.cores] s t) ∧
  (∀ (c : CoreIx) (f : FailoverRun) (rot : Word) (resid : Int) (g : Nat) (s : State), alive (c.val / 8) s →
    (s.core c).failover = some f → f.prelock = true → f.spare < 64 → f.spareHalf < 2 → s.groupOf c = some g →
    ∃ t, exec (.failoverPlaced c rot resid) s = .next t ∧ (t.core c).failover = none ∧ t.drive f.spare = f.spareHalf ∧
      (f.ports ≠ [] → t.get LG_CNT.FAILOVERS g = (s.get LG_CNT.FAILOVERS g + 1) % 65536) ∧
      (f.ports = [] → t.get LG_CNT.FAILOVERS g = s.get LG_CNT.FAILOVERS g) ∧
      (s.spareOf g (c.val / 8) = some f.spare →
        (f.ports ≠ [] → t.drivenPorts f.spare ≠ [] → (t.get LG_STAT.SPARE_USED g).testBit (c.val / 8) = true) ∧
        (t.drivenPorts f.spare = [] → (t.get LG_STAT.SPARE_USED g).testBit (c.val / 8) = false)) ∧ t.mem = s.mem) ∧
  (∀ (o : Origin) (g : Fin 16) (v : Word) (s : State), s.writes o .LG_MEM_LO g 0 v = true →
    memRefused s g v (s.reg (RegId.LG_MEM_HI.at g)) = false →
    ∃ t, exec (.lgConfigWrite o g 0 v) s = .next t ∧ t.reg (RegId.LG_MEM_LO.at g) = v ∧ t.mem = s.mem) ∧
  (∀ (o : Origin) (g : Fin 16) (v : Word) (s : State), s.writes o .LG_SPARE g 0 v = true → spareRefused s g v = true →
    ∃ t, exec (.lgConfigWrite o g 2 v) s = .next t ∧ t.reg (RegId.LG_SPARE.at g) = s.reg (RegId.LG_SPARE.at g) ∧
      t.isSet LG_STAT.LGERR g = true)

/-- R252, R253: a search step that finds a band with room sets its code, closes the loop and ends the search. R248, R255: a block of
the LMS or DTC adaptation moves the working trim, and at a boundary, which at a half that drives no port is its comparison edge,
the trims in force take the working ones' value or a step towards it, but for those of a chiplet that has declared the control die
lost and those beside a lost calibration cache (R36, R418). It rests on choices of the model, which are in the log: entry 4
(limits), entry 5 (measured values), entry 21 (band prediction), entry 69 (the reset word of the band search), entry 106 (the code
of the DTC). -/
def Obligations.CoreCalibrationComplete : Prop :=
  (∀ (c : CoreIx) (h : HalfIx) (count span : Nat) (b : BandSearch) (s : State), alive (c.val / 8) s →
    (s.half c h).search = some b → b.last + 2048 ≤ s.clock →
    s.clock ≤ b.since + (if b.narrow then 28800 else 122880) →
    10 * countDist (s.fvco c h) count ≤ 8 * span * ((s.fvco c h).d * 3200000000) → b.core < 3 → b.band < 256 →
    ∃ t, exec (.bandSearchStep c h count span) s = .next t ∧ (t.half c h).search = none ∧ (t.half c h).loopOpen = false ∧
      t.isSet HALF_STAT.SEARCHING c h = false ∧ t.get HALF_STAT.ACT_BAND c h = 256 * b.core + b.band) ∧
  (∀ (c : CoreIx) (h : HalfIx) (move : Int) (r : TrimRun) (s : State), alive (c.val / 8) s →
    (s.half c h).lms.run = some r → s.cdDown = false → s.calLost = false → s.anyBad 0x01D00000 0x00100000 = false →
    s.trimRequired c h false = true →
    r.since + 65536 * mOf (s.get HALF_STAT.ACT_DIV c h) ≤ s.clock → s.locked c h = true → s.tb.sw = none →
    s.tb.swEnded ≤ r.since → ((s.half c h).working.cpSeed = false ∨ (s.half c h).working.cpConv.testBit (s.actSel c h) = true) →
    -512 ≤ (s.half c h).working.cp.getD (s.actSel c h) 0 + move → (s.half c h).working.cp.getD (s.actSel c h) 0 + move ≤ 511 →
    r.streak < 7 → r.blocks + 1 < blockLimit (s.half c h).working false →
    ∃ t, exec (.lmsBlockEnd c h move) s = .next t ∧
      (t.half c h).working.cp =
        (s.half c h).working.cp.set (s.actSel c h) ((s.half c h).working.cp.getD (s.actSel c h) 0 + move) ∧
      ((t.half c h).lms.run.map (·.blocks)) = some (r.blocks + 1) ∧ t.mem = s.mem) ∧
  (∀ (c : CoreIx) (h : HalfIx) (move : Int) (r : TrimRun) (s : State), alive (c.val / 8) s →
    (s.half c h).dtc.run = some r → s.cdDown = false → s.calLost = false → s.anyBad 0x01D00000 0x00100000 = false →
    s.trimRequired c h true = true →
    r.since + 65536 * mOf (s.get HALF_STAT.ACT_DIV c h) ≤ s.clock → s.locked c h = true → s.tb.sw = none →
    s.tb.swEnded ≤ r.since → ((s.half c h).working.dtcSeed = false ∨ (s.half c h).working.gainConv.testBit (s.actSel c h) = true) →
    0 ≤ ((s.half c h).working.gain.getD (s.actSel c h) 2048 : Int) + move →
    ((s.half c h).working.gain.getD (s.actSel c h) 2048 : Int) + move ≤ 4095 → r.streak < 7 →
    r.blocks + 1 < blockLimit (s.half c h).working true →
    ∃ t, exec (.dtcBlockEnd c h move []) s = .next t ∧
      (t.half c h).working.gain = (s.half c h).working.gain.set (s.actSel c h)
        (((s.half c h).working.gain.getD (s.actSel c h) 2048 : Int) + move).toNat ∧
      ((t.half c h).dtc.run.map (·.blocks)) = some (r.blocks + 1) ∧ t.mem = s.mem) ∧
  (∀ (c : CoreIx) (h : HalfIx) (s : State), alive (c.val / 8) s → s.cdDown = false → s.halfDrives c h = false →
    s.isSet HOP_STAT.WINDOW c = false → s.powered c h = true → s.cmpEdge c h = true → s.trimsFrozen (c.val / 8) = false →
    ∃ t, exec (.trimBoundary c h) s = .next t ∧ (t.half c h).inForce = (s.half c h).working ∧ t.mem = s.mem) ∧
  (∀ (c : CoreIx) (h : HalfIx) (s : State), alive (c.val / 8) s → s.halfDrives c h = false → s.cmpEdge c h = false →
    ∃ t, exec (.trimBoundary c h) s = .next t ∧ (t.half c h).inForce = (s.half c h).inForce ∧ t.mem = s.mem) ∧
  (∀ (c : CoreIx) (h : HalfIx) (s : State), alive (c.val / 8) s → s.cdDown = false → s.halfDrives c h = true →
    s.drivingSlot c = true → s.trimsFrozen (c.val / 8) = false →
    ∃ t, exec (.trimBoundary c h) s = .next t ∧
      (t.half c h).inForce = (s.half c h).inForce.stepTo (s.half c h).working ∧ t.mem = s.mem) ∧
  (∀ (c : CoreIx) (h : HalfIx) (s : State), s.trimsFrozen (c.val / 8) = true →
    ∃ t, exec (.trimBoundary c h) s = .next t ∧ (t.half c h).inForce = (s.half c h).inForce ∧ t.mem = s.mem)

/-! ## Ports -/

/-- What an event at port `p` may touch beside the components in `ps` and the registers at `rs`: the port and its registers, its
source core's loops and guard, the lock groups' and Sorrel's status, and the service level. -/
structure Sys2Proof.Claims.PortFrame (ps : List Part) (rs : List Nat) (p : Nat) (s t : State) : Prop where
  parts : Kept ([.regs, .ports, .halves, .cores, .wide, .raising, .tansyQ, .tansyGap, .convSeen, .freeCtr] ++ ps) s t
  others : ∀ q, q ≠ p → t.port q = s.port q
  regs : ∀ a, fnOf a ≠ fnOf (RegId.PORT_CFG.at p) →
    a ∉ [RegId.SL_STAT.at, RegId.SOR_STAT.at, RegId.TANSY_CNT.at, RegId.TANSY_STAT.at] ++ rs →
    a ∉ (List.range 16).map (fun g => RegId.LG_STAT.at g) → t.reg a = s.reg a

/-- A port word `w` is active at port `p`: its fields stand in the port's status and it counts as a commit (R125). -/
structure Sys2Proof.Claims.WordActive (p : Nat) (w : PortWord) (s t : State) : Prop where
  src : t.get PORT_STAT.ACT_SRC p = w.src % 8
  div : t.get PORT_ACT.ACT_DIV p = w.div % 65536
  fmt : t.get PORT_ACT.ACT_FMT p = w.fmt % 4
  marker : t.isSet PORT_ACT.ACT_MARKER p = w.marker
  en : (t.port p).en = w.en
  level : (t.port p).sqLevel = w.sqLevel
  fine : (t.port p).fineTarget = w.fine
  commits : t.get PORT_CNT.COMMITS p = (s.get PORT_CNT.COMMITS p + 1) % 65536

/-- R13, R20, R23, R60: a released action that nothing holds is sent to its chiplet; one for a lost chiplet is not, and its item takes
TGTLOST. R382: the same holds of a chiplet that is being re-initialised; that it does so from step 1 on is the model's reading (log
entry 58). R203: a verdict at the control die ends the release of its item's actions. -/
def Sys2Proof.Claims.ActionsAreSent : Prop :=
  (∀ (n : ChipletIx) (q : QueueIx) (a : Action) (s : State), s.coldHeld = false → s.nextRel n q = some a → s.cdDown = false →
    s.settledBelow q a.seq = true → s.chipOut n = false → s.isSet EPOCH_STAT.ARMED = false → s.fifoLoad n < 4096 →
    ∃ t, exec (.actionSend n q) s = .next t ∧ t.chip n = { s.chip n with transit := (s.chip n).transit ++ [a] } ∧
      t.rel = s.rel.erase a ∧ (∀ m, m ≠ n.val → t.chip m = s.chip m) ∧ Kept [.chips, .rel] s t) ∧
  (∀ (n : ChipletIx) (q : QueueIx) (a : Action) (i : Item) (s : State), s.coldHeld = false → s.nextRel n q = some a →
    s.cdDown = false → s.settledBelow q a.seq = true → s.chipOut n = true → s.item q a.seq = some i → i.hw = none →
    ∃ t, exec (.actionSend n q) s = .next t ∧ t.rel = s.rel.erase a ∧
      (t.item q a.seq).bind (·.hw) = some (stTGTLOST, a.idx) ∧ (t.item q a.seq).map (·.out) = some (i.out - 1) ∧
      Kept [.rel, .queues] s t) ∧
  (∀ (q n idx status : Nat) (rest : List (Nat × Nat × Nat × Nat)) (i : Item) (s : State), s.coldHeld = false →
    s.cdDown = false → s.verdicts = (q, n, idx, status) :: rest → s.item q n = some i → i.hw = none →
    ∃ t, exec .abortVerdictArrive s = .next t ∧ t.verdicts = rest ∧
      t.rel = s.rel.filter (fun a => !(a.q == q && a.seq == n)) ∧ (t.item q n).bind (·.hw) = some (status, idx) ∧
      (t.item q n).map (·.aborted) = some true ∧
      (t.item q n).map (·.out) = some (i.out - (s.rel.filter fun a => a.q == q && a.seq == n).length) ∧
      Kept [.verdicts, .rel, .queues] s t)

/-- R15, R18, R19, R101 to R103, R202, R203: an action that arrives is discarded if its number is not above the applied mark, aborts its
item if it is late or beyond the horizon, applies at the lead if its item says so, and else is admitted at its stamp. A HOP that its core
has no room for aborts its item with HOPSPACE, and one that fails here is reported at its core (R108). An ARM whose words are to be kept
makes its item wait for them (R173), and ends the channel's code-density run (R176). While an epoch load is armed nothing is admitted
(R60). -/
def Sys2Proof.Claims.ActionsAreJudged : Prop :=
  (∀ (n : ChipletIx) (a : Action) (rest : List Action) (s : State), alive n s → (s.chip n).transit = a :: rest →
    s.isSet EPOCH_STAT.ARMED = false → markOf a.seq a.idx ≤ s.mark n a.q →
    ∃ t, exec (.actionArrive n) s = .next t ∧ t.chip n = { s.chip n with transit := rest } ∧ Kept [.chips, .queues] s t) ∧
  (∀ (n : ChipletIx) (a : Action) (rest : List Action) (s : State), alive n s → (s.chip n).transit = a :: rest →
    s.isSet EPOCH_STAT.ARMED = false → s.mark n a.q < markOf a.seq a.idx → SMap.get (fun _ => 0) (s.chip n).aborts a.q ≠ a.seq →
    a.kind.chip = n.val →
    (∀ c x ws, a.kind ≠ .hop c x ws) → (∀ k w m u, a.kind ≠ .arm k w m u) →
    s.count n + 8 ≤ a.tick → a.tick ≤ s.count n + 2 ^ 32 →
    ∃ t, exec (.actionArrive n) s = .next t ∧
      (t.chip n).fifo = (s.chip n).fifo ++ [{ act := a, due := a.tick, cls := .inPlace, cached := true, lead := 8 }] ∧
      (t.chip n).transit = rest ∧ t.mark n a.q = markOf a.seq a.idx ∧
      t.get COMMIT_STAT.LEVEL n = ((s.chip n).fifo.length + 1) % 8192 ∧
      RegsKept [RegId.COMMIT_STAT.at n] s t ∧ Kept [.chips, .queues, .regs] s t) ∧
  (∀ (n : ChipletIx) (a : Action) (rest : List Action) (s : State), alive n s → (s.chip n).transit = a :: rest →
    s.isSet EPOCH_STAT.ARMED = false → s.mark n a.q < markOf a.seq a.idx → SMap.get (fun _ => 0) (s.chip n).aborts a.q ≠ a.seq →
    (∀ c x ws, a.kind ≠ .hop c x ws) → a.tick < s.count n + 8 → a.applyLate = false →
    ∃ t, exec (.actionArrive n) s = .next t ∧ (t.chip n).fifo = (s.chip n).fifo ∧ t.isSet COMMIT_STAT.LATE_SEEN n = true ∧
      t.wideAt aQM_LATE = (s.wideAt aQM_LATE + 1) % 2 ^ 64 ∧ t.raising = s.raising ++ [275] ∧
      t.verdicts = s.verdicts ++ [(a.q, a.seq, a.idx, stLATE)] ∧ t.mark n a.q = markOf a.seq a.idx ∧
      RegsKept [RegId.COMMIT_STAT.at n] s t ∧ Kept [.chips, .queues, .regs, .wide, .raising, .verdicts] s t) ∧
  (∀ (n : ChipletIx) (a : Action) (rest : List Action) (s : State), alive n s → (s.chip n).transit = a :: rest →
    s.isSet EPOCH_STAT.ARMED = false → s.mark n a.q < markOf a.seq a.idx → SMap.get (fun _ => 0) (s.chip n).aborts a.q ≠ a.seq →
    (∀ c x ws, a.kind ≠ .hop c x ws) → (∀ k w m u, a.kind ≠ .arm k w m u) → a.tick < s.count n + 8 → a.applyLate = true →
    ∃ t, exec (.actionArrive n) s = .next t ∧
      (t.chip n).fifo = (s.chip n).fifo ++
        [{ act := a, due := s.count n + 8, cls := .inPlace, cached := true, lead := 8 }] ∧
      t.verdicts = s.verdicts ∧ t.wideAt aQM_LATE = (s.wideAt aQM_LATE + 1) % 2 ^ 64 ∧
      t.mark n a.q = markOf a.seq a.idx) ∧
  (∀ (n : ChipletIx) (a : Action) (rest : List Action) (s : State), alive n s → (s.chip n).transit = a :: rest →
    s.isSet EPOCH_STAT.ARMED = false → s.mark n a.q < markOf a.seq a.idx → SMap.get (fun _ => 0) (s.chip n).aborts a.q ≠ a.seq →
    s.count n + 2 ^ 32 < a.tick →
    ∃ t, exec (.actionArrive n) s = .next t ∧ (t.chip n).fifo = (s.chip n).fifo ∧ t.raising = s.raising ++ [274] ∧
      t.verdicts = s.verdicts ++ [(a.q, a.seq, a.idx, stHORIZON)] ∧ Kept [.chips, .queues, .raising, .verdicts] s t) ∧
  (∀ (n : ChipletIx) (c ctx : Nat) (ws : List Word) (a : Action) (rest : List Action) (s : State), alive n s →
    (s.chip n).transit = a :: rest → s.isSet EPOCH_STAT.ARMED = false → s.mark n a.q < markOf a.seq a.idx →
    SMap.get (fun _ => 0) (s.chip n).aborts a.q ≠ a.seq → a.kind = .hop c ctx ws → c / 8 = n.val →
    let cls := s.hopClass c ws
    let cached := s.hopCached n ws
    let lead := hopLead cls cached (ctxDiv ws cached).preset
    s.count n + lead ≤ a.tick → a.tick ≤ s.count n + 2 ^ 32 →
    s.hopOverlaps c (busyOf cls cached (ctxDiv ws cached).preset lead a.tick) cls = false →
    ∃ t, exec (.actionArrive n) s = .next t ∧
      (t.chip n).fifo = (s.chip n).fifo ++ [{ act := a, due := a.tick, cls := cls, cached := cached, lead := lead }] ∧
      t.mark n a.q = markOf a.seq a.idx ∧ RegsKept [RegId.COMMIT_STAT.at n] s t ∧ Kept [.chips, .queues, .regs] s t) ∧
  (∀ (n : ChipletIx) (c ctx : Nat) (ws : List Word) (a : Action) (rest : List Action) (s : State), alive n s →
    (s.chip n).transit = a :: rest → s.isSet EPOCH_STAT.ARMED = false → s.mark n a.q < markOf a.seq a.idx →
    SMap.get (fun _ => 0) (s.chip n).aborts a.q ≠ a.seq → a.kind = .hop c ctx ws → c / 8 = n.val →
    let cls := s.hopClass c ws
    let cached := s.hopCached n ws
    let pre := (ctxDiv ws cached).preset
    let lead := hopLead cls cached pre
    let failed := fun (t : State) (status reason : Nat) => (t.chip n).fifo = (s.chip n).fifo ∧ (t.chip n).transit = rest ∧
      t.verdicts = s.verdicts ++ [(a.q, a.seq, a.idx, status)] ∧ t.mark n a.q = markOf a.seq a.idx ∧
      t.isSet HOP_STAT.FAIL c = true ∧ t.get HOP_STAT.LAST_REASON c = reason ∧ t.halves = s.halves ∧ t.mem = s.mem
    (a.tick ≤ s.count n + 2 ^ 32 → s.count n + lead ≤ a.tick → s.hopOverlaps c (busyOf cls cached pre lead a.tick) cls = true →
      ∃ t, exec (.actionArrive n) s = .next t ∧ failed t stHOPSPACE 9 ∧ t.raising = s.raising ++ [265]) ∧
    (a.tick < s.count n + lead → a.applyLate = false →
      ∃ t, exec (.actionArrive n) s = .next t ∧ failed t stLATE 10 ∧ t.raising = s.raising ++ [275, 265] ∧
        t.isSet COMMIT_STAT.LATE_SEEN n = true ∧ t.wideAt aQM_LATE = (s.wideAt aQM_LATE + 1) % 2 ^ 64) ∧
    (a.tick < s.count n + lead → a.applyLate = true →
      s.hopOverlaps c (busyOf cls cached pre lead (s.count n + lead)) cls = false →
      ∃ t, exec (.actionArrive n) s = .next t ∧ t.raising = s.raising ++ [275] ∧
        (t.chip n).fifo = (s.chip n).fifo ++
          [{ act := a, due := s.count n + lead, cls := cls, cached := cached, lead := lead }] ∧
        t.verdicts = s.verdicts ∧ t.mark n a.q = markOf a.seq a.idx ∧ t.isSet COMMIT_STAT.LATE_SEEN n = true ∧
        t.wideAt aQM_LATE = (s.wideAt aQM_LATE + 1) % 2 ^ 64)) ∧
  (∀ (n : ChipletIx) (k w m u : Nat) (a : Action) (rest : List Action) (i : Item) (s : State), alive n s →
    (s.chip n).transit = a :: rest → s.isSet EPOCH_STAT.ARMED = false → s.mark n a.q < markOf a.seq a.idx →
    SMap.get (fun _ => 0) (s.chip n).aborts a.q ≠ a.seq → a.kind = .arm k w m u → chanChip k = n.val → s.item a.q a.seq = some i →
    s.count n + 8 ≤ a.tick → a.tick ≤ s.count n + 2 ^ 32 →
    ∃ t, exec (.actionArrive n) s = .next t ∧
      (t.chip n).fifo = (s.chip n).fifo ++ [{ act := a, due := a.tick, cls := .inPlace, cached := true, lead := 8 }] ∧
      (t.chip n).transit = rest ∧ t.mark n a.q = markOf a.seq a.idx ∧ (t.chan k).cd = none ∧
      (t.item a.q a.seq).map (·.recs) = some (i.recs ++ if 2 ≤ mwOut w then [(k, a.idx)] else []) ∧
      t.get COMMIT_STAT.LEVEL n = ((s.chip n).fifo.length + 1) % 8192 ∧ t.mem = s.mem) ∧
  (∀ (n : ChipletIx) (s : State), s.isSet EPOCH_STAT.ARMED = true → exec (.actionArrive n) s = .next s)

/-- R13, R20, R23, R60: a released action that nothing holds is sent to its chiplet; one for a lost chiplet is not, and its item takes
TGTLOST. R382: the same holds of a chiplet that is being re-initialised; that it does so from step 1 on is the model's reading
(log entry 58). R203: a verdict at the control die ends the release of its item's actions. R15, R18, R19, R101 to R103, R202,
R203: an action that arrives is discarded if its number is not above the applied mark, aborts its item if it is late or beyond the
horizon, applies at the lead if its item says so, and else is admitted at its stamp. A HOP that its core has no room for aborts
its item with HOPSPACE, and one that fails here is reported at its core (R108). An ARM whose words are to be kept makes its item
wait for them (R173), and ends the channel's code-density run (R176). While an epoch load is armed nothing is admitted (R60). It
rests on choices of the model, which are in the log: entry 57 (applied marks), entry 58 (re-initialisation of a chiplet and
actions), entry 131 (a late ARM under APPLY-LATE). -/
def Obligations.ActionsAreSentAndJudged : Prop :=
  Claims.ActionsAreSent ∧ Claims.ActionsAreJudged

/-- R124, R125, R131: a PHASE or a PORTSET that passes the checks is active at its boundary, as is a committed word that no timed
action displaces; a PORTSET that fails a check, and a committed word that a timed action of the same boundary displaces, leave the
port's word as it was and report it. -/
def Sys2Proof.Claims.PortWordsComplete : Prop :=
  (∀ (n : ChipletIx) (a : Admitted) (p fine : Nat) (s : State), alive n s → s.nextAction n = some a →
    a.act.kind = .phase p fine → s.frozen (RegId.PORT_CFG.at p) = false →
    checkPort s.beforeCeil p { s.portActive p with fine := fine % 2 ^ 20 } = none →
    ∃ t, exec (.phaseApply n) s = .next t ∧ WordActive p { s.portActive p with fine := fine % 2 ^ 20 } s t ∧
      (t.chip n).fifo = (s.chip n).fifo.erase a ∧
      PortFrame [.chips] [RegId.COMMIT_STAT.at n] p s t) ∧
  (∀ (n : ChipletIx) (a : Admitted) (p v mask : Nat) (s : State), alive n s → s.nextAction n = some a →
    a.act.kind = .portset p v mask → s.frozen (RegId.PORT_CFG.at p) = false →
    checkPort s.beforeCeil p (portsetWord (s.portActive p) v mask) = none →
    ∃ t, exec (.portsetApply n) s = .next t ∧ WordActive p (portsetWord (s.portActive p) v mask) s t ∧
      (mask.testBit 5 = true → (t.port p).divKey = some (a.key, s.clock)) ∧
      (t.chip n).fifo = (s.chip n).fifo.erase a ∧
      PortFrame [.chips] [RegId.COMMIT_STAT.at n] p s t) ∧
  (∀ (n : ChipletIx) (a : Admitted) (p v mask bit : Nat) (s : State), alive n s → s.nextAction n = some a →
    a.act.kind = .portset p v mask → s.frozen (RegId.PORT_CFG.at p) = false →
    checkPort s.beforeCeil p (portsetWord (s.portActive p) v mask) = some bit →
    ∃ t, exec (.portsetApply n) s = .next t ∧ t.get ⟨.PORT_ERR, bit, 1⟩ p = 1 ∧ t.get PORT_ERR.LAST_CODE p = bit + 1 ∧
      t.raising = s.raising ++ [266] ∧ t.portActive p = s.portActive p ∧
      t.get PORT_STAT.STATE p = s.get PORT_STAT.STATE p ∧ t.halves = s.halves ∧ t.cores = s.cores) ∧
  (∀ (o : Origin) (p : PortIx) (v : Word) (s : State), s.writes o .PORT_CMD p 0 (withField v 0 1 1) = true →
    ∃ t, exec (.portCommit o p v) s = .next t ∧ (t.port p).captured = some (s.portShadow p) ∧
      t.isSet PORT_CMD.COMMIT p = true ∧ (∀ q, q ≠ p.val → t.port q = s.port q) ∧ RegsKept [RegId.PORT_CMD.at p] s t ∧
      Kept [.regs, .ports, .tansyQ] s t) ∧
  (∀ (p : PortIx) (w : PortWord) (s : State), alive (p.val / 128) s → s.frozen (RegId.PORT_CFG.at p) = false →
    (s.port p).captured = some w → s.portActionDue p = false → (s.port p).lastTimed ≠ some s.clock → checkPort s p w = none →
    ∃ t, exec (.portWordApply p) s = .next t ∧ WordActive p w s t ∧ (t.port p).captured = none ∧
      t.isSet PORT_CMD.COMMIT p = false ∧ PortFrame [] [] p s t) ∧
  (∀ (p : PortIx) (w : PortWord) (s : State), alive (p.val / 128) s → s.frozen (RegId.PORT_CFG.at p) = false →
    (s.port p).captured = some w → s.portActionDue p = false → (s.port p).lastTimed = some s.clock →
    ∃ t, exec (.portWordApply p) s = .next t ∧ (t.port p).captured = none ∧ t.isSet PORT_ERR.CMT_COLL p = true ∧
      t.get PORT_ERR.LAST_CODE p = 9 ∧ t.portActive p = s.portActive p ∧ t.get PORT_STAT.STATE p = s.get PORT_STAT.STATE p)

/-- R129, R131: a MARK starts a train at its tick, a pulse moves it on and is emitted, from a rising edge of the port's pattern,
if the port runs, and a port's phase moves by at most one step in each cycle. -/
def Sys2Proof.Claims.MarkersAndMotionsComplete : Prop :=
  (∀ (n : ChipletIx) (a : Admitted) (p cnt : Nat) (s : State), alive n s → s.nextAction n = some a →
    a.act.kind = .mark p cnt → s.frozen (RegId.PORT_CFG.at p) = false → s.isSet PORT_ACT.ACT_MARKER p = true →
    ∃ t, exec (.markApply n) s = .next t ∧
      (t.port p).train = (if cnt % 65536 = 0 then none
        else some ⟨a.due, a.due, if cnt % 65536 = 0xFFFF then none else some (cnt % 65536)⟩) ∧
      (t.port p).lastTimed = some s.clock ∧ RegsKept [RegId.COMMIT_STAT.at n] s t ∧ Kept [.chips, .regs, .ports] s t) ∧
  (∀ (p : PortIx) (m : Train) (s : State), alive (p.val / 128) s → (s.port p).train = some m →
    s.isSet PORT_ACT.ACT_MARKER p = true → m.next ≤ s.count (p.val / 128) →
    ∃ t, exec (.markerPulse p) s = .next t ∧
      (t.port p).train = (if m.left.map (· - 1) = some 0 then none
        else some ⟨m.start, m.next + s.get PORT_MK.MK_PERIOD p, m.left.map (· - 1)⟩) ∧
      (s.portRuns p = true → ∃ (u : Pulse) (a : Pattern), u.start = m.next ∧ u.width = s.get PORT_MK2.MK_WIDTH p ∧
        a.slope = (s.activeWord (s.srcCore p) (s.drive (s.srcCore p))).slope.rat ∧ a.div = ((s.emitted p).1 : Rat) / 2 ∧
        u.rise = a.nextEdge true 0 ∧
        u.fall = u.rise + (u.width - 1 : Nat) * a.period + (if a.slope = 0 then 0 else a.high / a.slope) ∧
        (t.port p).pulse = some u ∧ t.outs = s.outs ++ [.pulse p u]) ∧
      (s.portRuns p = false → (t.port p).pulse = (s.port p).pulse ∧ t.outs = s.outs) ∧
      (∀ q, q ≠ p.val → t.port q = s.port q) ∧ Kept [.ports, .outs, .halves, .freeCtr] s t) ∧
  (∀ (p : PortIx) (s : State), alive (p.val / 128) s → s.isSet PORT_STAT.RAMPING p = true → s.portRuns p = true →
    (s.port p).fineTarget < 2 ^ 20 →
    ∃ t, exec (.finePhaseStep p) s = .next t ∧
      t.get PORT_ACTF.ACT_FINE p = fineMove (s.get PORT_ACTF.ACT_FINE p) (s.port p).fineTarget
        (2 ^ (20 - s.get PORT_CFG.PH_SLEW p)) (headroom s p (s.get PORT_CFG.PH_SLEW p)) ∧
      (t.isSet PORT_STAT.RAMPING p = false ↔ t.get PORT_ACTF.ACT_FINE p = (s.port p).fineTarget) ∧
      RegsKept [RegId.PORT_ACTF.at p, RegId.PORT_STAT.at p] s t ∧ Kept [.regs] s t)

/-- R132, R134, R135, R137: the ceiling is stored within the port's range and never below a running port's frequency; the guard stops a
port beyond its ceiling; the master enable stops and restarts ports; and a port in HOLD is squelched at its limit. -/
def Sys2Proof.Claims.PortLimitsComplete : Prop :=
  (∀ (o : Origin) (p : PortIx) (v : Word) (s : State), s.writes o .PORT_CEIL p 0 v = true → v.toNat ≤ portMax p * 1000 →
    (s.portRuns p = true → ((s.fvco (s.srcCore p) (s.drive (s.srcCore p))).divBy (s.divInForce p)).le
      (Freq.ofHz (v.toNat * 1000)) = true) →
    ∃ t, exec (.portCeilWrite o p v) s = .next t ∧ t.reg (RegId.PORT_CEIL.at p) = v ∧ t.mem = s.mem) ∧
  (∀ (o : Origin) (p : PortIx) (v : Word) (s : State), s.writes o .PORT_CEIL p 0 v = true → portMax p * 1000 < v.toNat →
    s.portRuns p = false →
    ∃ t, exec (.portCeilWrite o p v) s = .next t ∧ (t.reg (RegId.PORT_CEIL.at p)).toNat = portMax p * 1000 ∧
      t.isSet PORT_STAT.CEIL_CLAMP p = true) ∧
  (∀ (o : Origin) (p : PortIx) (v : Word) (s : State), s.writes o .PORT_CEIL p 0 v = true → v.toNat ≤ portMax p * 1000 →
    s.portRuns p = true → (Freq.ofHz (v.toNat * 1000)).lt
      ((s.fvco (s.srcCore p) (s.drive (s.srcCore p))).divBy (s.divInForce p)) = true →
    ∃ t, exec (.portCeilWrite o p v) s = .next t ∧ t.reg (RegId.PORT_CEIL.at p) = s.reg (RegId.PORT_CEIL.at p) ∧
      t.isSet PORT_STAT.CEIL_REF p = true) ∧
  (∀ (c : CoreIx) (h : HalfIx) (count t0 : Nat) (s : State), alive (c.val / 8) s → (s.half c h).ceilFrom = some t0 →
    t0 + 4096 ≤ s.clock → s.drive c = h →
    ∃ t, exec (.ceilGuardWindow c h count) s = .next t ∧ t.mem = s.mem ∧
      ∀ p ∈ s.portsOf c, s.portRuns p = true →
        (guardTrips s p count = true → t.get PORT_STAT.STATE p = psGuard ∧ t.isSet PORT_STAT.RUNNING p = false ∧
          t.isSet PORT_STAT.CEIL_TRIP p = true ∧ 269 ∈ t.raising) ∧
        (guardTrips s p count = false → t.get PORT_STAT.STATE p = s.get PORT_STAT.STATE p)) ∧
  (∀ (o : Origin) (v : Word) (s : State), s.writesPair o .PORT_MEN_A 0 v = true →
    ∃ t, exec (.portMenWrite o v) s = .next t ∧ t.get PORT_MEN_A.MEN = fieldOf v 0 8 ∧ t.mem = s.mem ∧
      ∀ p, p < 1024 → s.chipLost (p / 128) = false →
        (s.get PORT_MEN_A.MEN / 2 ^ (p / 128) % 2 = 1 → v.toNat / 2 ^ (p / 128) % 2 = 0 →
          t.get PORT_STAT.STATE p = psMaster ∧ t.isSet PORT_STAT.RUNNING p = false) ∧
        (s.get PORT_MEN_A.MEN / 2 ^ (p / 128) % 2 = 0 → v.toNat / 2 ^ (p / 128) % 2 = 1 → s.queueService = true →
          s.get PORT_STAT.STATE p = psMaster →
          t.get PORT_STAT.STATE p = (if (s.port p).en then psRun else psWord))) ∧
  (∀ (p : PortIx) (s : State), alive (p.val / 128) s → s.get PORT_STAT.STATE p = psHold → s.get PORT_HOLD.HOLD_LIM p ≠ 0 →
    (s.port p).holdSince + s.get PORT_HOLD.HOLD_LIM p * msTk ≤ s.clock →
    ∃ t, exec (.holdLimitExpiry p) s = .next t ∧ t.get PORT_STAT.STATE p = psPolicy ∧ t.isSet PORT_STAT.RUNNING p = false ∧
      PortFrame [] [] p s t)

/-- R124, R125, R131: a PHASE or a PORTSET that passes the checks is active at its boundary, as is a committed word that no timed
action displaces; a PORTSET that fails a check, and a committed word that a timed action of the same boundary displaces, leave the
port's word as it was and report it. R132, R134, R135, R137: the ceiling is stored within the port's range and never below a
running port's frequency; the guard stops a port beyond its ceiling; the master enable stops and restarts ports; and a port in
HOLD is squelched at its limit. It rests on choices of the model, which are in the log: entry 4 (limits), entry 5 (measured
values), entry 18 (the master enable and port words), entry 56 (collisions at one boundary), entry 77 (a word at a
policy-squelched port), entry 86 (check 4 during a failover), entry 88 (the master enable over another squelch). -/
def Obligations.PortWordsAndLimitsComplete : Prop :=
  Claims.PortWordsComplete ∧ Claims.PortLimitsComplete

/-- R145 to R147, R258, R260: a mean gives the error and corrects the trim by half of it in steps of 50 fs, but not where a write of the
same clock has begun an attempt, which wins; the offset is taken; the trim in
force moves by one step at a time, and stands still where trims are frozen (R36, R418); an attempt not converged in its second fails, and
the next starts a second later. -/
def Sys2Proof.Claims.SkewLoopCompletes : Prop :=
  (∀ (p : PortIx) (mean : Int) (s : State), alive (p.val / 128) s → s.skewHolds p = true → s.skewMeanFull p = true →
    ∃ t, exec (.skewMeanDone p mean) s = .next t ∧ t.get PORT_SKMEAS.ERR p = twos 24 (skewError s p mean) ∧
      t.isSet PORT_SKMEAS.VALID p = true ∧ t.mem = s.mem ∧
      (s.isSet SOR_CTRL.SK_FREEZE = true ∨ s.calLost = true ∨ (s.port p).skAttempt.map (·.1) = some s.clock →
        t.get PORT_TRIM.TRIM p = s.get PORT_TRIM.TRIM p) ∧
      (s.isSet SOR_CTRL.SK_FREEZE = false → s.calLost = false → (s.port p).skWait = none →
        (s.port p).skAttempt.map (·.1) ≠ some s.clock →
        let new := s.getSigned PORT_TRIM.TRIM p - scaleRound (skewError s p mean) 1 100;
        -4095 ≤ new → new ≤ 4095 → (s.getSigned PORT_TRIM.TRIM p ≤ new ∨ headroom s p 16 = true) →
        t.get PORT_TRIM.TRIM p = twos 13 new)) ∧
  (∀ (p : PortIx) (offset : Int) (s : State), alive (p.val / 128) s → s.skewHolds p = true → (s.port p).ofsDue = true →
    ∃ t, exec (.skewOffsetDone p offset) s = .next t ∧
      t.port p = { s.port p with skewOfs := offset, ofsDue := false, ofsTemp := s.temp (p.val / 128), skFrom := s.clock } ∧
      (∀ q, q ≠ p.val → t.port q = s.port q) ∧ Kept [.ports] s t) ∧
  (∀ (p : PortIx) (goal : Int) (s : State), alive (p.val / 128) s → (s.port p).trimMotion = some goal → s.portRuns p = true →
    s.trimsFrozen (p.val / 128) = false →
    ∃ t, exec (.skewTrimStep p) s = .next t ∧ (t.port p).trimInForce = towards 1 (s.port p).trimInForce goal ∧
      ((t.port p).trimMotion = none ↔ (t.port p).trimInForce = goal) ∧ (∀ q, q ≠ p.val → t.port q = s.port q) ∧
      RegsKept [RegId.SOR_STAT.at] s t ∧ Kept [.regs, .ports] s t) ∧
  (∀ (o : Origin) (p : PortIx) (v : Word) (s : State), s.writes o .PORT_TRIM p 0 v = true →
    ∃ t, exec (.portTrimWrite o p v) s = .next t ∧
      t.get PORT_TRIM.TRIM p = (if fieldOf v 0 13 = 0x1000 then 0x1001 else fieldOf v 0 13) ∧
      (fieldOf v 0 13 = 0x1000 → t.isSet PORT_STAT.SKEW_LIM p = true) ∧ t.mem = s.mem) ∧
  (∀ (p : PortIx) (since : Nat) (trim : Int) (req : Bool) (s : State), alive (p.val / 128) s →
    (s.port p).skAttempt = some (since, trim, req) → (s.chan p).meas.isSome = false → (s.chan p).cd.isSome = false → s.cdDown = false →
    (s.chip (p.val / 128)).cdLost = false → s.isSet SOR_CTRL.SK_FREEZE = false → since + sTk ≤ s.clock →
    ∃ t, exec (.skewAttemptTimeout p) s = .next t ∧ t.get PORT_TRIM.TRIM p = twos 13 trim ∧ (t.port p).skAttempt = none ∧
      (t.port p).skWait = some (s.clock + sTk) ∧ (t.port p).skConv = false ∧ 276 ∈ t.raising ∧
      t.get SOR_FAIL.REASON = 9 ∧ t.get SOR_FAIL.MACH = 3 ∧ t.mem = s.mem) ∧
  (∀ (p : PortIx) (s : State), s.trimsFrozen (p.val / 128) = true → exec (.skewTrimStep p) s = .next s) ∧
  (∀ (p : PortIx) (w : Nat) (s : State), alive (p.val / 128) s → (s.port p).skWait = some w → w ≤ s.clock →
    (s.port p).skOn = true → s.cdDown = false → s.calLost = false →
    ∃ t, exec (.skewFailWaitEnd p) s = .next t ∧
      (t.port p).skAttempt = some (s.clock, s.getSigned PORT_TRIM.TRIM p, false) ∧ (t.port p).skWait = none ∧
      (t.port p).skConv = (s.port p).skConv ∧
      (∀ q, q ≠ p.val → t.port q = s.port q) ∧ Kept [.ports] s t)

/-- R129, R131: a MARK starts a train at its tick, a pulse moves it on and is emitted, from a rising edge of the port's pattern, if
the port runs, and a port's phase moves by at most one step in each cycle. R145 to R147, R258, R260: a mean gives the error and
corrects the trim by half of it in steps of 50 fs, but not where a write of the same clock has begun an attempt, which wins; the
offset is taken; the trim in force moves by one step at a time, and stands still where trims are frozen (R36, R418); an attempt
not converged in its second fails, and the next starts a second later. It rests on choices of the model, which are in the log:
entry 4 (limits), entry 5 (measured values), entry 26 (the skew loop), entry 85 (the skew loop on a spare), entry 92 (an attempt
whose time ends while its channel is taken), entry 129 (the line of a half at an epoch load), entry 130 (a marker train under a
word). -/
def Obligations.MarkersMotionsAndSkewComplete : Prop :=
  Claims.MarkersAndMotionsComplete ∧ Claims.SkewLoopCompletes

/-! ## Teasel -/

/-- Memory after bytes `bs` are stored at `x`; every other byte is as before. -/
def Sys2Proof.Claims.Stored (x : Nat) (bs : List Byte) (s t : State) : Prop :=
  ∀ a, t.byte a = if x ≤ a ∧ a < x + bs.length then bs.getD (a - x) 0 else s.byte a

/-- The measurement that an ARM of word `w` starts at arm tick `ta` (R159, R165). -/
def Sys2Proof.Claims.armed (w n tmo ta : Nat) (item : Option (Nat × Nat × Nat)) : Meas :=
  { word := w, n := n, tmo := tmo, ta := ta, item := item, openAt := if mwGate w = 0 then some (ta * 65536) else none }

/-- R154: an edge at fraction `frac` of this tick comes at least 8 tk, and at least `HOLDOFF`, after the channel's last accepted edge, if
there is one. -/
def Sys2Proof.Claims.clearOfLast (k frac : Nat) (s : State) : Prop :=
  ∀ last ∈ (s.chan k).lastAcc, max 8 (s.ts TS_HOLDOFF.HOLDOFF k) * 65536 ≤ s.clock * 65536 + frac - last

/-- R153 to R157, R165: an edge within the hold-off counts as HELD, one within 8 tk but beyond the hold-off, or one that meets a full FIFO,
as OVERRUN, and any other is stamped, as REPL_PHASE refers it to the time master, and enters the FIFO; a trigger's stamp is kept and its
event raised; and it opens the gate of a measurement that waits for it. -/
def Sys2Proof.Claims.EdgesComplete : Prop :=
  (∀ (k : ChannelIx) (fall : Bool) (frac : BitVec 16) (s : State), alive (chanChip k) s → s.inOff k = false →
    clearOfLast k frac.toNat s → (s.chan k).fifo.length < 16 →
    (∀ j, s.measOn j (fun m => mwGate m.word != 0 && gateChan j m.word == k.val) = false) →
    ∃ t, exec (.teaselEdge k fall frac) s = .next t ∧ (t.chan k).lastAcc = some (s.clock * 65536 + frac.toNat) ∧
      (t.chan k).fifo = (s.chan k).fifo ++
        [⟨s.edgeStamp (chanChip k) frac.toNat, fall, (s.chan k).ovr, s.clock, decide (65536 ≤ frac.toNat + 420)⟩] ∧
      (1024 ≤ k.val → s.ts TS_IN.TRIG_EN k = 1 → polarity (s.ts TS_IN.EDGE k) fall = true →
        t.wideAt (aLAST_EDGE k) = s.edgeStamp (chanChip k) frac.toNat ∧ t.raising = s.raising ++ [k.val - 1024]) ∧
      (k.val < 1024 → t.raising = s.raising) ∧ Kept [.chans, .wide, .raising] s t) ∧
  (∀ (k : ChannelIx) (fall : Bool) (frac : BitVec 16) (last : Nat) (s : State), alive (chanChip k) s → s.inOff k = false →
    (s.chan k).lastAcc = some last → s.clock * 65536 + frac.toNat - last < s.ts TS_HOLDOFF.HOLDOFF k * 65536 →
    ∃ t, exec (.teaselEdge k fall frac) s = .next t ∧
      t.ts TS_CNT1.HELD k = (s.ts TS_CNT1.HELD k + 1) % 65536 ∧ RegsKept [RegId.TS_CNT1.at (k.val / 8) (k.val % 8)] s t ∧
      Kept [.regs] s t) ∧
  (∀ (k : ChannelIx) (fall : Bool) (frac : BitVec 16) (last : Nat) (s : State), alive (chanChip k) s → s.inOff k = false →
    (s.chan k).lastAcc = some last → s.ts TS_HOLDOFF.HOLDOFF k * 65536 ≤ s.clock * 65536 + frac.toNat - last →
    s.clock * 65536 + frac.toNat - last < 8 * 65536 →
    ∃ t, exec (.teaselEdge k fall frac) s = .next t ∧ t.ts TS_CNT3.OVERRUN k = (s.ts TS_CNT3.OVERRUN k + 1) % 65536 ∧
      t.chan k = { s.chan k with ovr := true, meas := (s.chan k).meas.map fun m => { m with overrun := true } } ∧
      (∀ j, j ≠ k.val → t.chan j = s.chan j) ∧ RegsKept [RegId.TS_CNT3.at (k.val / 8) (k.val % 8)] s t ∧
      Kept [.regs, .chans] s t) ∧
  (∀ (k : ChannelIx) (fall : Bool) (frac : BitVec 16) (s : State), alive (chanChip k) s → s.inOff k = false →
    clearOfLast k frac.toNat s → 16 ≤ (s.chan k).fifo.length →
    ∃ t, exec (.teaselEdge k fall frac) s = .next t ∧ t.ts TS_CNT3.OVERRUN k = (s.ts TS_CNT3.OVERRUN k + 1) % 65536 ∧
      t.ts TS_STAT.FIFO_FULL k = 1 ∧ (t.chan k).ovr = true ∧ (t.chan k).fifo = (s.chan k).fifo ∧
      RegsKept [RegId.TS_CNT3.at (k.val / 8) (k.val % 8), RegId.TS_STAT.at (k.val / 8) (k.val % 8)] s t ∧
      Kept [.regs, .chans] s t) ∧
  (∀ (k j : ChannelIx) (fall : Bool) (frac : BitVec 16) (m : Meas) (s : State), alive (chanChip k) s → s.inOff k = false →
    clearOfLast k frac.toNat s → (s.chan k).fifo.length < 16 → chanChip j = chanChip k → (s.chan j).meas = some m →
    mwGate m.word ≠ 0 → gateChan j m.word = k.val → m.openAt = none → (mwGate m.word = 2 ∨ fall = false) →
    m.ta * 65536 ≤ s.edgeStamp (chanChip k) frac.toNat →
    ∃ t, exec (.teaselEdge k fall frac) s = .next t ∧
      (t.chan j).meas = some { m with openAt := some (s.edgeStamp (chanChip k) frac.toNat) } ∧ t.ts TS_STAT.OPEN j = 1)

/-- R161 to R163, R165, R167: the sample path takes the edges of a channel in order. An edge of a STAMP measurement counts and is
recorded; in PERIOD mode the first is a reference, as is the first after an overrun, and each later one gives the distance from the one
before; in INTERVAL mode a start and its stop give their difference, negative in SIGNED mode where the stop came first. -/
def Sys2Proof.Claims.SamplesComplete : Prop :=
  (∀ (k : ChannelIx) (e : Edge) (es : List Edge) (s : State), alive (chanChip k) s → (s.chan k).fifo = e :: es →
    e.at_ + (if e.late then 1 else 0) < s.clock → (s.chan k).taps = [] → (s.chan k).meas = none →
    ∃ t, exec (.sampleTake k) s = .next t ∧ t.chan k = { s.chan k with fifo := es } ∧
      (∀ j, j ≠ k.val → t.chan j = s.chan j) ∧ Kept [.chans] s t) ∧
  (∀ (k : ChannelIx) (e : Edge) (es : List Edge) (m : Meas) (opened : Nat) (s : State), alive (chanChip k) s →
    (s.chan k).fifo = e :: es → e.at_ + (if e.late then 1 else 0) < s.clock → (s.chan k).taps = [] → (s.chan k).meas = some m →
    mwMode m.word = 0 →
    (∀ u, m.limit = some u → e.stamp < u) →
    m.openAt = some opened → opened ≤ e.stamp → m.ta * 65536 ≤ e.stamp → polarity (mwStart m.word) e.fall = true →
    (m.n = 0 ∨ m.count + 1 < m.n) → m.count + 1 < 2 ^ 32 - 1 →
    ∃ t, exec (.sampleTake k) s = .next t ∧ ((t.chan k).meas.map (·.count)) = some (m.count + 1) ∧
      t.ts TS_LIVE.LIVE k = m.count + 1 ∧
      (2 ≤ mwOut m.word → (s.chan k).late = [] → (s.chan k).buf.length < 16 →
        (t.chan k).buf = (s.chan k).buf ++
          [{ ring := mwRing m.word, kind := 0, payload := e.stamp / 65536, frac := e.stamp % 65536,
             redPrec := s.ts TS_STAT.RED_PREC k == 1 }]) ∧ t.mem = s.mem) ∧
  (∀ (k : ChannelIx) (e : Edge) (es : List Edge) (m : Meas) (opened u : Nat) (s : State), alive (chanChip k) s →
    (s.chan k).fifo = e :: es → e.at_ + (if e.late then 1 else 0) < s.clock → (s.chan k).taps = [] → (s.chan k).meas = some m →
    mwMode m.word = 1 →
    (∀ u, m.limit = some u → e.stamp < u) →
    m.openAt = some opened → opened ≤ e.stamp → m.ta * 65536 ≤ e.stamp → stopChan k m.word = k →
    polarity (mwStart m.word) e.fall = false → polarity (mwStop m.word) e.fall = true → m.pendStart = some u →
    u ≤ e.stamp → e.stamp ≤ u + 2 ^ 48 - 1 → unresolved k k (e.stamp - u) = false →
    (m.n = 0 ∨ m.count + 1 < m.n) → m.count + 1 < 2 ^ 32 - 1 →
    ∃ t, exec (.sampleTake k) s = .next t ∧ ∃ m', (t.chan k).meas = some m' ∧ m'.count = m.count + 1 ∧
      m'.pendStart = none ∧ (m.count = 0 → m'.pivot = (e.stamp : Int) - u ∧ m'.minX = (e.stamp : Int) - u) ∧
      (0 < m.count → m'.pivot = m.pivot ∧ m'.s1 = m.s1 + ((e.stamp : Int) - u - m.pivot)) ∧
      t.ts TS_LIVE.LIVE k = m.count + 1 ∧ t.mem = s.mem) ∧
  (∀ (k : ChannelIx) (e : Edge) (es : List Edge) (m : Meas) (opened : Nat) (s : State), alive (chanChip k) s →
    (s.chan k).fifo = e :: es → e.at_ + (if e.late then 1 else 0) < s.clock → (s.chan k).taps = [] → (s.chan k).meas = some m →
    mwMode m.word = 2 → (∀ u, m.limit = some u → e.stamp < u) → m.openAt = some opened → opened ≤ e.stamp →
    m.ta * 65536 ≤ e.stamp → polarity (mwStart m.word) e.fall = true → (m.newRef = true ∨ e.ovr = true) →
    ∃ t, exec (.sampleTake k) s = .next t ∧ ∃ m', (t.chan k).meas = some m' ∧ m'.newRef = false ∧ m'.prev = e.stamp ∧
      m'.count = m.count ∧ m'.s1 = m.s1 ∧ (t.chan k).fifo = es ∧ Kept [.chans] s t) ∧
  (∀ (k : ChannelIx) (e : Edge) (es : List Edge) (m : Meas) (opened : Nat) (s : State), alive (chanChip k) s →
    (s.chan k).fifo = e :: es → e.at_ + (if e.late then 1 else 0) < s.clock → (s.chan k).taps = [] → (s.chan k).meas = some m →
    mwMode m.word = 2 → (∀ u, m.limit = some u → e.stamp < u) → m.openAt = some opened → opened ≤ e.stamp →
    m.ta * 65536 ≤ e.stamp → polarity (mwStart m.word) e.fall = true → m.newRef = false → e.ovr = false →
    m.prev ≤ e.stamp → e.stamp < m.prev + 2 ^ 48 → (m.n = 0 ∨ m.count + 1 < m.n) → m.count + 1 < 2 ^ 32 - 1 →
    ∃ t, exec (.sampleTake k) s = .next t ∧ ∃ m', (t.chan k).meas = some m' ∧ m'.count = m.count + 1 ∧ m'.prev = e.stamp ∧
      (m.count = 0 → m'.pivot = (e.stamp : Int) - m.prev ∧ m'.minX = (e.stamp : Int) - m.prev) ∧
      (0 < m.count → m'.pivot = m.pivot ∧ m'.s1 = m.s1 + ((e.stamp : Int) - m.prev - m.pivot)) ∧
      t.ts TS_LIVE.LIVE k = m.count + 1 ∧ t.mem = s.mem) ∧
  (∀ (k : ChannelIx) (e : Edge) (es : List Edge) (m : Meas) (opened u : Nat) (s : State), alive (chanChip k) s →
    (s.chan k).fifo = e :: es → e.at_ + (if e.late then 1 else 0) < s.clock → (s.chan k).taps = [] → (s.chan k).meas = some m →
    mwMode m.word = 1 → mwSigned m.word = true → (∀ u, m.limit = some u → e.stamp < u) → m.openAt = some opened →
    opened ≤ e.stamp → m.ta * 65536 ≤ e.stamp → stopChan k m.word ≠ k → polarity (mwStart m.word) e.fall = true →
    m.pendStop = some u → u ≤ e.stamp → e.stamp < u + 2 ^ 48 → unresolved k (stopChan k m.word) (e.stamp - u) = false →
    (m.n = 0 ∨ m.count + 1 < m.n) → m.count + 1 < 2 ^ 32 - 1 →
    ∃ t, exec (.sampleTake k) s = .next t ∧ ∃ m', (t.chan k).meas = some m' ∧ m'.count = m.count + 1 ∧
      m'.pendStart = none ∧ m'.pendStop = none ∧
      (m.count = 0 → m'.pivot = (u : Int) - e.stamp ∧ m'.minX = (u : Int) - e.stamp) ∧
      (0 < m.count → m'.pivot = m.pivot ∧ m'.s1 = m.s1 + ((u : Int) - e.stamp - m.pivot)) ∧
      t.ts TS_LIVE.LIVE k = m.count + 1 ∧ t.mem = s.mem)

/-- R153 to R157, R161 to R163, R165, R167: an edge within the hold-off counts as HELD, one within 8 tk but beyond the hold-off, or
one that meets a full FIFO, as OVERRUN, and any other is stamped, whatever edge came before it; the sample path takes the edges in
order, and each sample of a STAMP, PERIOD or INTERVAL measurement, SIGNED or not, enters the statistics. It rests on choices of
the model, which are in the log: entry 5 (measured values), entry 26 (the skew loop), entry 60 (STRICT pairs), entry 109
(FIFO_FULL), entry 111 (OVERRUN_SEEN). -/
def Obligations.EdgesAndSamplesComplete : Prop :=
  Claims.EdgesComplete ∧ Claims.SamplesComplete

/-- R159, R160, R166, R168: an ARM that passes its checks arms the channel and one that fails a check changes nothing but the report;
a disarm or the timeout ends the measurement; a register command waits for the next boundary, which arms as the timed action does,
or ends the measurement, whose result is formed a tick later; and the result of an ended measurement is stored. It rests on
choices of the model, which are in the log: entry 1 (time and the empty queue), entry 4 (limits), entry 20 (the boundary of
register arms and disarms), entry 56 (collisions at one boundary), entry 108 (DONE at the end ABORT), entry 110 (reserved bits of
the measurement word), entry 112 (a second arm before the boundary). -/
def Obligations.MeasurementsComplete : Prop :=
  (∀ (n : ChipletIx) (a : Admitted) (k w cnt tmo : Nat) (s : State), alive n s → s.nextAction n = some a →
    a.act.kind = .arm k w cnt tmo → s.frozen (RegId.TSG_CFG.at (k / 8)) = false → checkArm s k w tmo = none → (s.chan k).meas = none →
    ∃ t, exec (.armApply n) s = .next t ∧
      (t.chan k).meas = some (armed w cnt tmo a.due (some (a.act.q, a.act.seq, a.act.idx))) ∧ t.ts TS_STAT.ARMED k = 1 ∧
      t.ts TS_LIVE.LIVE k = 0 ∧ t.ts TS_STAT.LAST_END k = 0 ∧ t.ts TS_STAT.OPEN k = (if mwGate w = 0 then 1 else 0) ∧
      (∀ j, j ≠ k → t.chan j = s.chan j) ∧ (∀ p, p ≠ k → t.port p = s.port p) ∧
      (k < 1024 → (t.port k).skFrom = s.clock + 1) ∧ Kept [.chips, .regs, .chans, .ports] s t ∧
      RegsKept [RegId.COMMIT_STAT.at n, RegId.TS_STAT.at (k / 8) (k % 8), RegId.TS_LIVE.at (k / 8) (k % 8)] s t) ∧
  (∀ (n : ChipletIx) (a : Admitted) (k w cnt tmo u : Nat) (m : Meas) (s : State), alive n s → s.nextAction n = some a →
    a.act.kind = .arm k w cnt tmo → s.frozen (RegId.TSG_CFG.at (k / 8)) = false → checkArm s k w tmo = none →
    (s.chan k).meas = some m → m.disAt = some u → m.closing = none → (∀ v, m.limit = some v → u < v) → (s.chan k).fifo = [] →
    (s.chan k).taps = [] →
    ∃ t, exec (.armApply n) s = .next t ∧
      (t.chan k).meas = some (armed w cnt tmo a.due (some (a.act.q, a.act.seq, a.act.idx))) ∧
      (t.chan k).results.length = (s.chan k).results.length + 1) ∧
  (∀ (n : ChipletIx) (a : Admitted) (k w cnt tmo bit : Nat) (s : State), alive n s → s.nextAction n = some a →
    a.act.kind = .arm k w cnt tmo → s.frozen (RegId.TSG_CFG.at (k / 8)) = false → checkArm s k w tmo = some bit →
    ∃ t, exec (.armApply n) s = .next t ∧ t.chans = s.chans ∧ t.ts ⟨.TS_ERR, bit, 1⟩ k = 1 ∧
      t.ts TS_ERR.LAST_CODE k = bit + 1 ∧ t.raising = s.raising ++ [272]) ∧
  (∀ (n : ChipletIx) (a : Admitted) (k : Nat) (m : Meas) (s : State), alive n s → s.nextAction n = some a →
    a.act.kind = .disarm k → s.frozen (RegId.TSG_CFG.at (k / 8)) = false → (s.chan k).meas = some m →
    m.closing = none → m.disAt = none → (∀ u, m.limit = some u → a.due * 65536 < u) → (s.chan k).fifo = [] → (s.chan k).taps = [] →
    ∃ t, exec (.disarmApply n) s = .next t ∧ (t.chan k).meas = none ∧ t.ts TS_STAT.ARMED k = 0 ∧ t.ts TS_STAT.OPEN k = 0 ∧
      t.ts TS_STAT.LAST_END k = 4 ∧ (t.chan k).results.length = (s.chan k).results.length + 1 ∧ t.mem = s.mem) ∧
  (∀ (o : Origin) (k : ChannelIx) (v : Word) (s : State),
    s.writes o .TS_CMD (k.val / 8) (k.val % 8) (withField (withField v 0 1 1) 1 1 0) = true →
    ∃ t, exec (.tsRegArm o k v) s = .next t ∧
      t.chan k = { s.chan k with armPend := some (s.ts TS_MEAS.MEAS k, s.ts TS_N.N k, s.ts TS_TMO.TMO k) } ∧
      t.ts TS_CMD.ARM k = 1 ∧ (∀ j, j ≠ k.val → t.chan j = s.chan j) ∧
      RegsKept [RegId.TS_CMD.at (k.val / 8) (k.val % 8)] s t ∧ Kept [.regs, .chans, .tansyQ] s t) ∧
  (∀ (k : ChannelIx) (w n tmo : Nat) (s : State), s.pending = [] → s.coldHeld = false → chansQuiet (some k.val) s →
    enginesQuiet none s → linksQuiet none s → replaysQuiet s → pinsQuiet s → banksQuiet none s → (s.chan k).armPend = some (w, n, tmo) →
    (s.chan k).disPend = false → (s.chan k).cd = none → (s.chan k).meas = none → checkArm s k w tmo = none →
    s.frozen (RegId.TSG_CFG.at (k.val / 8)) = false →
    let ta := { s with clock := s.clock + 1 }.count (chanChip k)
    s.armDue k ta = false →
    ∃ t, step s = .next t ∧ t.clock = s.clock + 1 ∧ (t.chan k).meas = some (armed w n tmo ta none) ∧
      (t.chan k).armPend = none ∧ t.ts TS_CMD.ARM k = 0 ∧ t.ts TS_STAT.ARMED k = 1 ∧ t.ts TS_LIVE.LIVE k = 0 ∧
      t.ts TS_STAT.LAST_END k = 0) ∧
  (∀ (o : Origin) (k : ChannelIx) (v : Word) (s : State),
    s.writes o .TS_CMD (k.val / 8) (k.val % 8) (withField (withField v 0 1 0) 1 1 1) = true →
    ∃ t, exec (.tsRegDisarm o k v) s = .next t ∧ t.chan k = { s.chan k with disPend := true } ∧ t.ts TS_CMD.DISARM k = 1 ∧
      (∀ j, j ≠ k.val → t.chan j = s.chan j) ∧
      RegsKept [RegId.TS_CMD.at (k.val / 8) (k.val % 8)] s t ∧ Kept [.regs, .chans, .tansyQ] s t) ∧
  (∀ (k : ChannelIx) (m : Meas) (s : State), s.pending = [] → s.coldHeld = false → chansQuiet (some k.val) s →
    enginesQuiet none s → linksQuiet none s → replaysQuiet s → pinsQuiet s → banksQuiet none s → (s.chan k).disPend = true →
    (s.chan k).armPend = none → (s.chan k).meas = some m → m.closing = none → m.disAt = none →
    s.frozen (RegId.TSG_CFG.at (k.val / 8)) = false →
    ∃ t, step s = .next t ∧ t.clock = s.clock + 1 ∧ t.ts TS_CMD.DISARM k = 0 ∧
      t.chan k = { s.chan k with
        disPend := false, meas := some { m with disAt := some ({ s with clock := s.clock + 1 }.count (chanChip k) * 65536) } } ∧
      Kept [.clock, .chans, .regs] s t ∧ RegsKept [RegId.TS_CMD.at (k.val / 8) (k.val % 8)] s t) ∧
  (∀ (k : ChannelIx) (m : Meas) (u : Nat) (s : State), s.pending = [] → s.coldHeld = false → chansQuiet (some k.val) s →
    enginesQuiet none s → linksQuiet none s → replaysQuiet s → pinsQuiet s → banksQuiet none s → (s.chan k).disPend = false →
    (s.chan k).armPend = none → (s.chan k).meas = some m → m.closing = none → m.disAt = some u → (s.chan k).fifo = [] →
    (s.chan k).taps = [] → (∀ v, m.limit = some v → u < v) →
    ∃ t, step s = .next t ∧ t.clock = s.clock + 1 ∧ (t.chan k).meas = none ∧ t.ts TS_STAT.ARMED k = 0 ∧
      t.ts TS_STAT.LAST_END k = 4 ∧ (t.chan k).results.length = (s.chan k).results.length + 1) ∧
  (∀ (k : ChannelIx) (m : Meas) (s : State), alive (chanChip k) s → (s.chan k).meas = some m → m.tmo ≠ 0 → m.closing = none →
    m.disAt = none →
    m.ta + 64 * m.tmo ≤ s.count (chanChip k) → (s.chan k).fifo = [] → (s.chan k).taps = [] →
    ∃ t, exec (.measTimeout k) s = .next t ∧ (t.chan k).meas = none ∧ t.ts TS_STAT.ARMED k = 0 ∧
      t.ts TS_STAT.LAST_END k = 3 ∧ (t.chan k).results.length = (s.chan k).results.length + 1 ∧ t.mem = s.mem) ∧
  (∀ (k : ChannelIx) (r : List Byte) (rest : List (List Byte)) (s : State), alive (chanChip k) s →
    (s.chan k).results = r :: rest → s.cdDown = false → s.bankLost 13 = false →
    ∃ t, exec (.measDone k) s = .next t ∧ Stored (0x01A00000 + 64 * k.val) r s t ∧ t.ts TS_STAT.DONE k = 1 ∧
      t.chan k = { s.chan k with results := rest } ∧ t.raising = s.raising ++ [271] ∧
      RegsKept [RegId.TS_STAT.at (k.val / 8) (k.val % 8)] s t ∧ Kept [.chans, .mem, .badWords, .ecc, .regs, .raising] s t)

/-- R169 to R173: a record is written at the ring's write place, which moves on; a ring is configured or the write is refused, and a
release moves its read place or is refused. -/
def Sys2Proof.Claims.RingsComplete : Prop :=
  (∀ (k : ChannelIx) (r : Rec) (rest : List Rec) (s : State), alive (chanChip k) s → (s.chan k).buf = r :: rest →
    s.cdDown = false → s.get RING_CFG.EN r.ring = 1 → s.ringFull r.ring = false →
    s.bankLost (bankOf (s.ringAddr r.ring (s.get RING_WR.WR r.ring))) = false →
    ∃ t, exec (.recordStore k) s = .next t ∧ (t.chan k).buf = (Chan.refill { s.chan k with buf := rest }).buf ∧
      Stored (s.ringAddr r.ring (s.get RING_WR.WR r.ring))
        (recBytes k ((SMap.get (fun _ => 0) s.ringSeq r.ring + 1) % 65536) r) s t ∧
      t.get RING_WR.WR r.ring = (s.get RING_WR.WR r.ring + 1) % s.ringCap r.ring ∧
      t.get RING_STAT.LEVEL r.ring = s.get RING_STAT.LEVEL r.ring + 1 ∧
      (t.ringFull r.ring = true → t.isSet RING_STAT.FULL_SEEN r.ring = true) ∧
      RegsKept [RegId.RING_WR.at r.ring, RegId.RING_STAT.at r.ring] s t ∧
      Kept [.chans, .mem, .badWords, .ecc, .regs, .ringSeq, .queues] s t) ∧
  (∀ (k : ChannelIx) (r : Rec) (rest : List Rec) (s : State), alive (chanChip k) s → (s.chan k).buf = r :: rest →
    s.cdDown = false → s.get RING_CFG.EN r.ring = 1 → s.ringFull r.ring = true →
    ∃ t, exec (.recordStore k) s = .next t ∧ (t.chan k).buf = (s.chan k).buf ∧
      t.ts TS_STAT.RING_STALL k = 1 ∧ (t.chan k).stalled = true ∧
      t.raising = s.raising ++ (if (s.chan k).stalled then [] else [273]) ∧ t.mem = s.mem) ∧
  (∀ (o : Origin) (r : RingIx) (v : Word) (s : State), s.writes o .RING_CFG r 0 v = true → s.ringNamed r = false →
    fieldOf v 10 10 ≠ 0 → fieldOf v 20 1 = 1 → fieldOf v 0 10 + fieldOf v 10 10 ≤ 748 →
    (∀ q, q < 32 → q ≠ r.val → s.isSet RING_CFG.EN q = true →
      s.get RING_CFG.BASE q + s.get RING_CFG.SIZE q ≤ fieldOf v 0 10 ∨
      fieldOf v 0 10 + fieldOf v 10 10 ≤ s.get RING_CFG.BASE q) →
    ∃ t, exec (.ringCfgWrite o r v) s = .next t ∧ t.get RING_CFG.BASE r = fieldOf v 0 10 ∧
      t.get RING_CFG.SIZE r = fieldOf v 10 10 ∧ t.get RING_CFG.EN r = 1 ∧ t.get RING_WR.WR r = 0 ∧ t.get RING_RD.RD r = 0 ∧
      t.get RING_STAT.LEVEL r = 0 ∧ Kept [.regs, .ringSeq, .tansyQ] s t ∧
      RegsKept [RegId.RING_CFG.at r, RegId.RING_WR.at r, RegId.RING_RD.at r, RegId.RING_STAT.at r] s t) ∧
  (∀ (o : Origin) (r : RingIx) (v : Word) (s : State), s.writes o .RING_CFG r 0 v = true →
    (s.ringNamed r = true ∨ (fieldOf v 20 1 = 1 ∧ 748 < fieldOf v 0 10 + fieldOf v 10 10)) →
    ∃ t, exec (.ringCfgWrite o r v) s = .next t ∧ t.isSet RING_STAT.CFGBAD r = true ∧
      RegsKept [RegId.RING_STAT.at r] s t ∧ Kept [.regs] s t) ∧
  (∀ (o : Origin) (r : RingIx) (v : Word) (s : State), s.writes o .RING_REL r 0 v = true →
    fieldOf v 0 18 ≤ s.get RING_STAT.LEVEL r → 0 < s.get RING_CFG.SIZE r →
    ∃ t, exec (.ringRelease o r v) s = .next t ∧
      t.get RING_RD.RD r = (s.get RING_RD.RD r + fieldOf v 0 18) % s.ringCap r ∧
      t.get RING_STAT.LEVEL r = s.get RING_STAT.LEVEL r - fieldOf v 0 18 ∧
      RegsKept [RegId.RING_RD.at r, RegId.RING_STAT.at r, RegId.RING_REL.at r] s t ∧ Kept [.regs] s t) ∧
  (∀ (o : Origin) (r : RingIx) (v : Word) (s : State), s.writes o .RING_REL r 0 v = true →
    s.get RING_STAT.LEVEL r < fieldOf v 0 18 →
    ∃ t, exec (.ringRelease o r v) s = .next t ∧ t.isSet RING_STAT.RELBAD r = true ∧
      t.get RING_RD.RD r = s.get RING_RD.RD r ∧ t.get RING_STAT.LEVEL r = s.get RING_STAT.LEVEL r ∧ Kept [.regs] s t)

/-- R256, R257: a code-density run whose source is not synchronous goes on to its tables, which are committed if they agree; a
synchronous source or the timeout fails it. -/
def Sys2Proof.Claims.CodeDensityCompletes : Prop :=
  (∀ (k : ChannelIx) (codes most : Nat) (r : CdRun) (s : State), alive (chanChip k) s → (s.chan k).cd = some r →
    r.synced = false → s.cdDown = false → 960 ≤ codes → most ≤ 16384 →
    ∃ t, exec (.cdSyncTest k codes most) s = .next t ∧ t.chan k = { s.chan k with cd := some { r with synced := true } } ∧
      (∀ j, j ≠ k.val → t.chan j = s.chan j) ∧ Kept [.chans] s t) ∧
  (∀ (k : ChannelIx) (codes most : Nat) (r : CdRun) (s : State), alive (chanChip k) s → (s.chan k).cd = some r →
    r.synced = false → s.cdDown = false → (codes < 960 ∨ 16384 < most) →
    ∃ t, exec (.cdSyncTest k codes most) s = .next t ∧ (t.chan k).cd = none ∧ t.ts TS_STAT.CAL k = 0 ∧
      t.get CD_STAT.ST (chanChip k) (chanLocal k) = 4 ∧ 276 ∈ t.raising ∧ t.get SOR_FAIL.REASON = 6 ∧
      t.get SOR_FAIL.MACH = 2 ∧ t.mem = s.mem) ∧
  (∀ (k : ChannelIx) (a b : List Nat) (r : CdRun) (s : State), alive (chanChip k) s → (s.chan k).cd = some r →
    r.synced = true → (s.chan k).meas = none → s.anyBad 0x01D00000 0x00100000 = false → s.cdDown = false →
    (s.chip (chanChip k)).cdLost = false → s.calLost = false → a.length = 128 → tablesAgree a b = true →
    ∃ t, exec (.cdAgreementTest k a b) s = .next t ∧ (t.chan k).cd = none ∧
      (t.chan k).cdTable = some (List.zipWith (fun x y => (x + y) / 2 % 65536) a b) ∧ (t.chan k).cdLast = s.clock ∧
      t.get CD_STAT.ST (chanChip k) (chanLocal k) = 3 ∧ t.get SOR_CNT.COMMITS = (s.get SOR_CNT.COMMITS + 1) % 65536 ∧
      t.mem = s.mem) ∧
  (∀ (k : ChannelIx) (r : CdRun) (s : State), alive (chanChip k) s → (s.chan k).cd = some r → s.cdDown = false →
    r.since + (if s.cdExt k then 2 * sTk else 200 * msTk) ≤ s.clock →
    ∃ t, exec (.cdTimeout k) s = .next t ∧ (t.chan k).cd = none ∧ t.get CD_STAT.ST (chanChip k) (chanLocal k) = 4 ∧
      276 ∈ t.raising ∧ t.get SOR_FAIL.REASON = 9 ∧ t.get SOR_FAIL.MACH = 2 ∧ t.mem = s.mem)

/-- R169 to R173: a record is written at the ring's write place, which moves on; a ring is configured or the write is refused, and a
release moves its read place or is refused. R256, R257: a code-density run whose source is not synchronous goes on to its tables,
which are committed if they agree; a synchronous source or the timeout fails it. It rests on choices of the model, which are in
the log: entry 4 (limits), entry 5 (measured values), entry 19 (a ring enable), entry 91 (the calibration oscillator), entry 132
(the rings that measurements name). -/
def Obligations.RingsAndCodeDensityComplete : Prop :=
  Claims.RingsComplete ∧ Claims.CodeDensityCompletes

/-! ## Queues and engines -/

/-- Engine `e` runs the handler of queue `q` on item `i` (R192): g1 and g2 hold the queue and its argument, every other register of its
own is 0, the PC is the queue's entry, and the scratch is as it was. Reading the item's entries corrects or rebuilds words of them that
hold an error (R28). -/
structure Sys2Proof.Claims.Handed (q e : Nat) (i : Item) (s t : State) : Prop where
  gr : ∀ k, t.gr e k = if k = 1 then BitVec.ofNat 64 q else if k = 2 then BitVec.ofNat 64 (s.get QD_ARG.ARG q) else 0
  tr : ∀ k, t.tr e k = 0
  pc : t.pc e = 4 * s.get QD_ENTRY.ENTRY q
  state : t.engState e = esRun
  curQ : t.get ENG_STAT.CUR_Q e = q
  held : (t.eng e).held = some (q, i.seq)
  item : t.item q i.seq = some { i with st := .held e }
  scratch : (t.eng e).scratch = (s.eng e).scratch
  others : ∀ k, k ≠ e → t.eng k = s.eng k
  queues : ∀ k, k ≠ q → t.queue k = s.queue k
  regs : RegsKept [RegId.ENG_PC.at e, RegId.ENG_STAT.at e] s t
  kept : Kept [.queues, .engines, .regs, .wide, .mem, .badWords, .ecc] s t
  whole : s.anyBad (entryAddr i.entry) i.bytes.length = false → t.mem = s.mem ∧ t.badWords = s.badWords
  memory : ∀ a, a < 0x200000 ∨ 0x1400000 ≤ a → t.byte a = s.byte a

/-- R192, R197, R198: the head of a queue goes to its idle owner or to the owner that picked the queue as it became idle, and an idle
engine with no queue of its own steals. It rests on choices of the model, which are in the log: entry 25 (DISPATCH), entry 115
(the first round of an engine). -/
def Obligations.DispatchCompletes : Prop :=
  (∀ (q : QueueIx) (e : EngineIx) (i : Item) (s : State), s.coldHeld = false → s.cdDown = false → s.eligible q = some i →
    s.item q i.seq = some i → s.engState e = esIdle → s.isOwner q e = true →
    ((s.waitedFor e = [] ∧ s.idleOwner q = some e.val) ∨ s.ownPick e = some q.val) →
    ∃ t, exec (.dispatch q e) s = .next t ∧ Handed q e i s t) ∧
  (∀ (q : QueueIx) (e : EngineIx) (i : Item) (s : State), s.coldHeld = false → s.cdDown = false → s.eligible q = some i →
    s.item q i.seq = some i → s.engState e = esIdle → s.isSet ENG_CFG.STEAL_EN e = true → s.ownReady e = [] →
    s.stealable q = true → (∀ r ∈ s.readyQueues, s.stealable r = true → r = q.val ∨ s.stealBefore q r = true) →
    ∃ t, exec (.steal q e) s = .next t ∧ Handed q e i s t)

/-- R183 to R187, R205: enabling a queue reserves its blocks, empties it and starts its sequences at 1; disabling an empty queue frees
them; a queue that holds items stays enabled; a resume ends a stop; and the other descriptor words are stored, with the length
fixed while the queue is enabled. It rests on choices of the model, which are in the log: entry 27 (queue descriptors), entry 43
(command bits), entry 133 (refused writes of QD_CTRL). -/
def Obligations.DescriptorWritesComplete : Prop :=
  (∀ (o : Origin) (q : QueueIx) (v : Word) (s : State), s.writes o .QD_CTRL q 0 (withField v 0 1 1) = true → q.val ≠ quarQ →
    s.get QD_CTRL.EN q = 0 → fieldOf v 15 1 = 0 → enableCheck s q (withField v 0 1 1) = none →
    s.get QD_LEN.LEN q % 2 ^ fieldOf v 2 2 = 0 → (s.get QD_LEN.LEN q + 63) / 64 ≤ (s.freeBlocks 0).length →
    ∃ t, exec (.queueEnable o q v) s = .next t ∧ t.get QD_CTRL.EN q = 1 ∧ (t.queue q).items = [] ∧
      (t.queue q).nextSeq = 1 ∧ (t.queue q).blocks.length = (s.get QD_LEN.LEN q + 63) / 64 ∧
      (∀ b ∈ (t.queue q).blocks, ∀ r, b ∉ (s.queue r).blocks) ∧
      t.get QM_STAT.POOL_FREE = s.get QM_STAT.POOL_FREE - (s.get QD_LEN.LEN q + 63) / 64 ∧
      (∀ n, n < 8 → t.mark n q = 0)) ∧
  (∀ (o : Origin) (q : QueueIx) (v : Word) (s : State), s.writes o .QD_CTRL q 0 (withField v 0 1 1) = true → q.val ≠ quarQ →
    s.get QD_CTRL.EN q = 0 → fieldOf v 2 2 ≠ 3 → s.get QD_LEN.LEN q = 0 →
    ∃ t, exec (.queueEnable o q v) s = .next t ∧ t.get QD_CTRL.EN q = 0 ∧ t.isSet QD_STAT.DESCERR q = true ∧
      t.queues = s.queues) ∧
  (∀ (o : Origin) (q : QueueIx) (v : Word) (s : State), s.writes o .QD_CTRL q 0 (withField v 0 1 0) = true → q.val ≠ quarQ →
    s.get QD_CTRL.EN q = 1 → s.get QD_STAT.LEVEL q = 0 →
    ∃ t, exec (.queueDisable o q v) s = .next t ∧ t.get QD_CTRL.EN q = 0 ∧ (t.queue q).blocks = [] ∧
      t.get QM_STAT.POOL_FREE = (s.get QM_STAT.POOL_FREE + (s.queue q).blocks.length) % 2 ^ 15 ∧ t.mem = s.mem) ∧
  (∀ (o : Origin) (q : QueueIx) (v : Word) (s : State), s.writes o .QD_CTRL q 0 (withField v 0 1 0) = true → q.val ≠ quarQ →
    s.get QD_CTRL.EN q = 1 → s.get QD_STAT.LEVEL q ≠ 0 → fieldOf v 14 1 = 0 →
    ∃ t, exec (.queueDisable o q v) s = .next t ∧ t.get QD_CTRL.EN q = 1 ∧ t.isSet QD_STAT.DESCERR q = true ∧
      t.get QM_STAT.LAST_DESC = 6 ∧ (t.queue q).blocks = (s.queue q).blocks) ∧
  (∀ (o : Origin) (q : QueueIx) (v : Word) (s : State), s.writes o .QD_CTRL q 0 (withField v 15 1 1) = true →
    ∃ t, exec (.queueResume o q v) s = .next t ∧ t.isSet QD_STAT.STOPPED q = false ∧ t.isSet QD_CTRL.RESUME q = false) ∧
  (∀ (o : Origin) (q : QueueIx) (v : Word) (s : State), s.writes o .QD_ENTRY q 0 v = true →
    ∃ t, exec (.queueDescWrite o q 2 v) s = .next t ∧ t.get QD_ENTRY.ENTRY q = fieldOf v 0 25 ∧
      RegsKept [RegId.QD_ENTRY.at q] s t ∧ Kept [.regs, .tansyQ] s t) ∧
  (∀ (o : Origin) (q : QueueIx) (v : Word) (s : State), s.writes o .QD_ARG q 0 v = true →
    ∃ t, exec (.queueDescWrite o q 3 v) s = .next t ∧ t.reg (RegId.QD_ARG.at q) = v ∧
      RegsKept [RegId.QD_ARG.at q] s t ∧ Kept [.regs, .tansyQ] s t) ∧
  (∀ (o : Origin) (q : QueueIx) (w : Fin 8) (v : Word) (s : State), s.writes o .QD_AFF q w v = true →
    ∃ t, exec (.queueDescWrite o q ⟨w.val + 4, by omega⟩ v) s = .next t ∧ t.reg (RegId.QD_AFF.at q w) = v ∧
      RegsKept [RegId.QD_AFF.at q w, RegId.QD_STAT.at q] s t ∧ Kept [.regs, .tansyQ, .queues, .raising] s t) ∧
  (∀ (o : Origin) (q : QueueIx) (v : Word) (s : State), s.writes o .QD_LEN q 0 v = true → q.val ≠ quarQ →
    s.get QD_CTRL.EN q = 0 →
    ∃ t, exec (.queueDescWrite o q 1 v) s = .next t ∧ t.get QD_LEN.LEN q = fieldOf v 0 20 ∧
      RegsKept [RegId.QD_LEN.at q] s t ∧ Kept [.regs, .tansyQ] s t) ∧
  (∀ (o : Origin) (q : QueueIx) (v : Word) (s : State), s.writes o .QD_LEN q 0 v = true → q.val ≠ quarQ →
    s.get QD_CTRL.EN q = 1 → s.get QD_LEN.LEN q ≠ fieldOf v 0 20 →
    ∃ t, exec (.queueDescWrite o q 1 v) s = .next t ∧ t.get QD_LEN.LEN q = s.get QD_LEN.LEN q ∧
      t.isSet QD_STAT.DESCERR q = true ∧ t.get QM_STAT.LAST_DESC = 7 ∧ t.queues = s.queues) ∧
  (∀ (o : Origin) (q : QueueIx) (v : Word) (s : State),
    s.writes o .QD_CTRL q 0 (withField (withField v 0 1 (s.get QD_CTRL.EN q)) 15 1 0) = true →
    ∃ t, exec (.queueDescWrite o q 0 v) s = .next t ∧ t.get QD_CTRL.EN q = s.get QD_CTRL.EN q ∧
      t.get QD_CTRL.PRIO q = fieldOf v 4 2 ∧ t.get QD_CTRL.SUBMIT q = fieldOf v 10 4 ∧
      t.get QD_CTRL.DRAIN q = fieldOf v 9 1 ∧ t.mem = s.mem)

/-- R199, R206, R242: an item whose effects are settled completes, with a completion record where its queue asks for one; an item that
waits for quarantine moves when there is room; a yielded item is eligible again at its tick. It rests on choices of the model,
which are in the log: entry 4 (limits), entry 29 (a host take with a full completion queue). -/
def Obligations.ItemsComplete : Prop :=
  (∀ (q : QueueIx) (seq : BitVec 48) (i : Item) (s : State), s.coldHeld = false → s.cdDown = false →
    s.item q seq.toNat = some i → i.st = .ended → i.out = 0 → i.recs = [] → s.verdictDue q seq.toNat = false → i.mseq = none →
    s.isSet QD_CTRL.CQ_EN q = false →
    ∃ t, exec (.itemComplete q seq) s = .next t ∧ t.item q seq.toNat = none ∧
      t.get QD_STAT.LEVEL q = s.get QD_STAT.LEVEL q - s.qEntries q ∧ t.get QD_CNT.LAST_ST q = i.status.1 % 256 ∧
      (∀ r, r ≠ q.val → t.queue r = s.queue r) ∧ RegsKept [RegId.QD_STAT.at q, RegId.QD_CNT.at q] s t ∧
      Kept [.queues, .regs] s t) ∧
  (∀ (q : QueueIx) (seq : BitVec 48) (i : Item) (cq : Nat) (s : State), s.coldHeld = false → s.cdDown = false →
    s.item q seq.toNat = some i → i.st = .ended → i.out = 0 → i.recs = [] → s.verdictDue q seq.toNat = false → i.mseq = none →
    i.cmpl = false →
    s.isSet QD_CTRL.CQ_EN q = true → s.get QD_CTRL.CQ q = cq → cq ≠ q.val → s.cqUsable cq = true → s.cqFull cq = false →
    ∃ t, exec (.itemComplete q seq) s = .next t ∧ t.item q seq.toNat = none ∧
      (∃ j, (t.queue cq).items = (s.queue cq).items ++ [j] ∧ j.seq = (s.queue cq).nextSeq ∧ j.cmpl = true ∧
        j.st = .waiting ∧ j.body = completionBody q (s.qItemSize cq) s.mcount i) ∧
      (t.queue cq).nextSeq = (s.queue cq).nextSeq + 1 ∧
      t.wideAt aQM_ACCEPTED = (s.wideAt aQM_ACCEPTED + 1) % 2 ^ 64) ∧
  (∀ (q : QueueIx) (seq : BitVec 48) (i : Item) (s : State), s.coldHeld = false → s.cdDown = false →
    s.item q seq.toNat = some i → i.st = .ended → i.out = 0 → i.recs = [] → s.verdictDue q seq.toNat = false → i.mseq = none →
    i.cmpl = false →
    s.isSet QD_CTRL.CQ_EN q = true → s.cqUsable (s.get QD_CTRL.CQ q) = false →
    ∃ t, exec (.itemComplete q seq) s = .next t ∧ t.item q seq.toNat = none ∧
      t.get QM_CNT.CQ_DROP = (s.get QM_CNT.CQ_DROP + 1) % 65536 ∧ t.raising = s.raising ++ [353] ∧ t.mem = s.mem) ∧
  (∀ (q : QueueIx) (seq : BitVec 48) (i : Item) (fault e : Nat) (s : State), s.coldHeld = false → s.cdDown = false →
    s.item q seq.toNat = some i → i.st = .quarWait fault e → s.quarRoom = true → q.val ≠ quarQ →
    ∃ t, exec (.quarantineDeferredMove q seq) s = .next t ∧ t.item q seq.toNat = none ∧
      (∃ j, (t.queue quarQ).items = (s.queue quarQ).items ++ [j] ∧
        j.body = quarBody q fault e (s.get QD_CTRL.ITEM_SZ q) { i with fcnt := 2 }) ∧
      t.get QD_CNT.QUARS q = (s.get QD_CNT.QUARS q + 1) % 256 ∧ 356 ∈ t.raising) ∧
  (∀ (q : QueueIx) (seq : BitVec 48) (i : Item) (due : Nat) (s : State), s.coldHeld = false →
    s.item q seq.toNat = some i → i.st = .yielded due → due ≤ s.clock →
    ∃ t, exec (.yieldEligible q seq) s = .next t ∧
      t.item q seq.toNat = some { i with st := .waiting, eligAt := s.clock } ∧
      (∀ r, r ≠ q.val → t.queue r = s.queue r) ∧ RegsKept [RegId.QD_STAT.at q] s t ∧ Kept [.queues, .regs, .raising] s t)

/-- R195, R196, R207, R209, R213: a handler that holds its item too long faults; a failed engine leaves its item to its queue, and is
only noted while the control die does not work (R379); an engine under re-initialisation is clear and returns within 2 us; a write
to `ENG_CFG` takes an engine out of service and brings it back; and the load is reported each millisecond. The third fault puts
the item into quarantine, or stops its queue until there is room (R205, R206). It rests on choices of the model, which are in the
log: entry 4 (limits), entry 5 (measured values), entry 24 (returned items), entry 25 (DISPATCH), entry 37 (order of
re-initialisation refusals). -/
def Obligations.EngineServiceCompletes : Prop :=
  (∀ (e : EngineIx) (q n : Nat) (i : Item) (s : State), s.coldHeld = false → s.cdDown = false →
    (s.eng e).held = some (q, n) → s.get ENG_WDOG.WDOG_US e ≠ 0 →
    (s.eng e).since + s.get ENG_WDOG.WDOG_US e * usTk ≤ s.clock → s.item q n = some i → i.fcnt < 2 →
    ∃ t, exec (.engineWdog e) s = .next t ∧
      t.item q n = some { i with st := .waiting, since := s.clock, eligAt := s.clock, fcnt := i.fcnt + 1 } ∧
      (t.queue q).items.head?.map (·.seq) = some i.seq ∧ (t.eng e).held = none ∧ t.pc e = 0 ∧
      t.engState e = (if s.engOn e then esIdle else esOff) ∧ t.get ENG_STAT.LAST_FAULT e = 0x0E ∧
      t.isSet ENG_STAT.FAULTED e = true ∧ t.get ENG_CNT.FAULTS e = (s.get ENG_CNT.FAULTS e + 1) % 65536 ∧
      t.get QD_CNT.FAULTS q = (s.get QD_CNT.FAULTS q + 1) % 65536 ∧ 354 ∈ t.raising) ∧
  (∀ (e : EngineIx) (q n : Nat) (i : Item) (s : State), s.coldHeld = false → s.cdDown = false →
    (s.eng e).held = some (q, n) → s.get ENG_WDOG.WDOG_US e ≠ 0 →
    (s.eng e).since + s.get ENG_WDOG.WDOG_US e * usTk ≤ s.clock → s.item q n = some i → i.fcnt = 2 →
    (q ≠ quarQ → s.quarRoom = true → ∃ t, exec (.engineWdog e) s = .next t ∧ Quarantined e 0x0E q n i s t) ∧
    (s.quarRoom = false → ∃ t, exec (.engineWdog e) s = .next t ∧ KeptBack e 0x0E q i s t)) ∧
  (∀ (e : EngineIx) (s : State), s.coldHeld = false → s.cdDown = false → s.engState e ≠ esFailed →
    ∃ t, exec (.engFail e) s = .next t ∧ t.engState e = esFailed ∧ t.isSet ENG_STAT.FAILED_SEEN e = true ∧
      (t.get ENG_FAIL.ENG (e.val / 32)).testBit (e.val % 32) = true ∧ 355 ∈ t.raising ∧ 376 ∈ t.raising ∧
      (t.eng e).held = none ∧ (t.eng e).scratch = [] ∧ t.pc e = 0 ∧
      (∀ q n i, (s.eng e).held = some (q, n) → s.item q n = some i →
        t.item q n = some { i with st := .waiting, since := s.clock, eligAt := s.clock } ∧
        t.get QM_CNT.REDISP = (s.get QM_CNT.REDISP + 1) % 65536)) ∧
  (∀ (e : EngineIx) (s : State), s.coldHeld = false → s.cdDown = true → s.engState e ≠ esFailed → (2, e.val) ∉ s.lossFaults →
    exec (.engFail e) s = .next { s with lossFaults := s.lossFaults ++ [(2, e.val)] }) ∧
  (∀ (o : Origin) (e : EngineIx) (v : Word) (s : State), s.writes o .ENG_CMD e 0 (withField v 0 1 1) = true →
    ∃ t, exec (.engReinit o e v) s = .next t ∧ t.engState e = esReinit ∧
      (∃ due, (t.eng e).reinitAt = some due ∧ s.clock < due ∧ due ≤ s.clock + 2 * usTk) ∧
      (t.get ENG_FAIL.ENG (e.val / 32)).testBit (e.val % 32) = false ∧ t.isSet ENG_CMD.REINIT e = true ∧
      (t.eng e).held = none ∧ (t.eng e).scratch = [] ∧ (∀ k, t.gr e k = 0) ∧ t.pc e = 0) ∧
  (∀ (o : Origin) (e : EngineIx) (v : Word) (s : State), s.writes o .ENG_CFG e 0 v = true →
    ∃ t, exec (.engCfgWrite o e v) s = .next t ∧ t.get ENG_CFG.EN e = fieldOf v 0 1 ∧
      t.get ENG_CFG.STEAL_EN e = fieldOf v 1 1 ∧
      t.engState e = (if fieldOf v 0 1 = 1 ∧ s.engState e = esOff then esIdle
        else if fieldOf v 0 1 = 0 ∧ s.engState e = esIdle then esOff else s.engState e) ∧ t.mem = s.mem) ∧
  (∀ (pct : Fin 101) (s : State), s.coldHeld = false → s.cdDown = false → s.timer tmLoad ≤ s.clock → s.loadIs pct = true →
    ∃ t, exec (.qmLoadUpdate pct) s = .next t ∧ t.get QM_LOAD.LOAD_PCT = pct.val ∧
      t.timer tmLoad = s.timer tmLoad + msTk ∧ t.loadMark = s.loadTotal ∧ RegsKept [RegId.QM_LOAD.at] s t ∧
      Kept [.regs, .timers, .loadMark] s t)

/-! ## Execute-in-place, the serial master port, Sorrel and the NVM -/

/-- R216, R347 to R349: an invalidation empties the cache; a miss takes the free bus; a fill delivers its line to the engines that
wait for it and enters the cache; a fill that cannot start in its time fails. It rests on choices of the model, which are in the
log: entry 4 (limits), entry 66 (the serial master port), entry 67 (the execute-in-place cache), entry 138 (a running line fill
that fails). -/
def Obligations.ExecuteInPlaceCompletes : Prop :=
  (∀ (o : Origin) (v : Word) (s : State), s.writes o .XIP_CACHE 0 0 (withField v 1 1 1) = true →
    ∃ t, exec (.xipInvalidate o v) s = .next t ∧ t.xip.lines = [] ∧ t.xip.misses = s.xip.misses ∧
      t.xip.filling = s.xip.filling ∧ t.xip.drop = s.xip.filling.isSome ∧ t.isSet XIP_CACHE.INV = false ∧
      t.get XIP_CACHE.EN = fieldOf v 0 1 ∧ RegsKept [RegId.XIP_CACHE.at] s t ∧ Kept [.regs, .xip, .tansyQ] s t) ∧
  (∀ (line t0 : Nat) (rest : List (Nat × Nat)) (s : State), s.coldHeld = false → s.xip.misses = (line, t0) :: rest →
    s.fillReady = true → s.cdDown = false →
    ∃ t, exec .xipFillStart s = .next t ∧ t.xip.filling = some line ∧ t.xip.misses = rest ∧ t.xip.drop = false ∧
      t.xip.lines = s.xip.lines ∧ t.get XIP_CACHE.FILLS = (s.get XIP_CACHE.FILLS + 1) % 65536 ∧
      t.sm.low = some (s.get SM_XIP.SEL) ∧
      t.outs = s.outs ++ [.smPins t.mselLevels, .smFill (s.fillFrame line) (s.waveOf (s.fillFrame line))] ∧ t.sm.fillAt = s.clock ∧
      RegsKept [RegId.XIP_CACHE.at] s t ∧
      Kept [.regs, .xip, .sm, .outs] s t) ∧
  (∀ (bytes : List Byte) (line : Nat) (s : State), s.coldHeld = false → s.xip.filling = some line → s.cdDown = false →
    s.sm.fillAt + s.frameTicks (s.fillFrame line) ≤ s.clock → s.xip.drop = false → s.isSet XIP_CACHE.EN = true →
    ∃ t, exec (.xipFillDone bytes) s = .next t ∧ t.xip.filling = none ∧ t.sm.low = none ∧
      (let bs := (List.range 64).map fun i => bytes.getD i 0;
       t.xip.lines = ((line, bs) :: s.xip.lines.filter fun l => l.1 != line).take 256 ∧
       (∀ e off load, (s.eng e).wait = some (.xip off load) → off / 64 * 64 = line →
         (t.eng e).wait = none ∧ ((off, load), bs) ∈ (t.eng e).lines)) ∧
      (∀ e, e ∉ (s.xipWaiters line).map (·.1) → t.eng e = s.eng e) ∧
      Kept [.xip, .sm, .outs, .engines] s t) ∧
  (∀ (line t0 : Nat) (rest : List (Nat × Nat)) (s : State), s.coldHeld = false → s.cdDown = false → s.xipSet = true →
    s.xip.misses = (line, t0) :: rest → t0 + usTk * s.get SM_XIP_TMO.TMO_US ≤ s.clock →
    ∃ t, exec .xipFillFail s = .next t ∧ t.xip.misses = rest ∧ t.isSet SM_STAT.FILL_FAIL = true ∧
      t.get SM_CNT.FILL_FAILS = (s.get SM_CNT.FILL_FAILS + 1) % 65536 ∧ t.isSet XIP_CACHE.ERR_SEEN = true ∧
      373 ∈ t.raising ∧ (∀ e off load, (s.eng e).wait = some (.xip off load) → off / 64 * 64 = line → (t.eng e).wait = none))

/-- Whether the port is set up for fills once the `SM_CFG` written is in force (R347, R350). -/
def Sys2Proof.Machine.State.xipSetNext (s : State) : Bool := { s with sm := { s.sm with cfg := s.reg RegId.SM_CFG.at } }.xipSet

/-- R342 to R348, R350: a start captures the frame registers or is refused; the frame takes the free bus when no fill waits for it and
no held write stands before it, clocks out its wave with its select low, and ends after its cycles, with the bytes that a read
returns and the `SM_CFG` written meanwhile in force, with which a waiting fill fails if the port is no longer set up for it; and a
write of the select levels reaches the pins at once, or waits for the frame, the fill and the writes held before it (log entry
120). It rests on choices of the model, which are in the log: entry 4 (limits), entry 66 (the serial master port), entry 120 (held
writes of SM_GPIO), entry 138 (a running line fill that fails). -/
def Obligations.SerialMasterCompletes : Prop :=
  (∀ (o : Origin) (v : Word) (s : State), s.writes o .SM_CMD 0 0 (withField v 0 1 1) = true → s.isSet SM_STAT.BUSY = false →
    s.smRefused = none →
    ∃ t, exec (.smGo o v) s = .next t ∧ t.isSet SM_STAT.BUSY = true ∧ t.isSet SM_CMD.GO = false ∧
      t.sm.frame = some { frm0 := s.reg RegId.SM_FRM0.at, frm1 := s.reg RegId.SM_FRM1.at, frm2 := s.reg RegId.SM_FRM2.at,
                          buf := (List.range 128).map fun i => s.reg (RegId.SM_BUF.at i), o := o.toNat } ∧
      RegsKept [RegId.SM_STAT.at, RegId.SM_CMD.at] s t ∧ Kept [.regs, .sm, .tansyQ] s t) ∧
  (∀ (o : Origin) (v : Word) (code : Nat) (s : State), s.writes o .SM_CMD 0 0 (withField v 0 1 1) = true →
    s.isSet SM_STAT.BUSY = false → s.smRefused = some code →
    ∃ t, exec (.smGo o v) s = .next t ∧ t.isSet SM_STAT.REFUSED = true ∧ t.get SM_STAT.LAST_CODE = code ∧ t.sm = s.sm ∧
      t.raising = s.raising ++ [373]) ∧
  (∀ (f : SmFrame) (s : State), s.coldHeld = false → s.sm.frame = some f → f.running = none → s.busFree = true →
    s.fillWaits = false → s.cdDown = false → (∀ h ∈ s.sm.held, h.frame = true) → (∀ w, s.sm.pinsAt = some w → w + 64 ≤ s.clock) →
    (f.hwsel = true → s.selRested f.sel = true) →
    let g := { f with running := some s.clock }
    ∃ t, exec .smFrameStart s = .next t ∧ t.sm.frame = some g ∧ t.sm.low = (if f.hwsel then some f.sel else s.sm.low) ∧
      t.outs = s.outs ++ (if f.hwsel then [.smPins t.mselLevels] else []) ++ [.smFrame g (s.waveOf g)] ∧ Kept [.sm, .outs] s t) ∧
  (∀ (rx : List Byte) (f : SmFrame) (start : Nat) (s : State), s.coldHeld = false → s.sm.frame = some f →
    f.running = some start → start + s.frameTicks f ≤ s.clock → s.cdDown = false → f.len ≤ 512 →
    ((s.xip.misses = [] ∧ s.xip.filling = none) ∨ s.xipSetNext = true) →
    ∃ t, exec (.smDone rx) s = .next t ∧ t.sm.frame = none ∧ t.isSet SM_STAT.BUSY = false ∧ t.isSet SM_STAT.DONE = true ∧
      t.get SM_CNT.FRAMES = (s.get SM_CNT.FRAMES + 1) % 65536 ∧ t.raising = s.raising ++ [372] ∧
      t.sm.cfg = s.reg RegId.SM_CFG.at ∧ t.sm.low = none ∧
      (∀ i, i < 128 → t.reg (RegId.SM_BUF.at i) =
        if f.read = true ∧ 4 * i < f.len then bufWord (s.reg (RegId.SM_BUF.at i)) rx f.len i else s.reg (RegId.SM_BUF.at i)) ∧
      Kept [.regs, .sm, .raising, .outs] s t) ∧
  (∀ (rx : List Byte) (f : SmFrame) (start : Nat) (s : State), s.coldHeld = false → s.sm.frame = some f →
    f.running = some start → start + s.frameTicks f ≤ s.clock → s.cdDown = false → s.xip.misses ≠ [] → s.xipSetNext = false →
    ∃ t, exec (.smDone rx) s = .next t ∧ t.sm.frame = none ∧ t.isSet SM_STAT.DONE = true ∧ t.sm.cfg = s.reg RegId.SM_CFG.at ∧
      t.xip.misses = [] ∧ t.xip.filling = none ∧ t.isSet SM_STAT.FILL_FAIL = true ∧ 372 ∈ t.raising ∧ 373 ∈ t.raising) ∧
  (∀ (o : Origin) (v : Word) (s : State), s.writes o .SM_GPIO 0 0 v = true → s.sm.frame = none → s.busFree = true → s.sm.held = [] →
    ∃ t, exec (.smGpioWrite o v) s = .next t ∧ t.get SM_GPIO.SEL_OUT = fieldOf v 0 4 ∧ t.sm.pins = fieldOf v 0 4 ∧
      t.sm.held = [] ∧ t.outs = s.outs ++ [.smPins t.mselLevels] ∧ RegsKept [RegId.SM_GPIO.at] s t ∧
      Kept [.regs, .sm, .outs, .tansyQ] s t) ∧
  (∀ (o : Origin) (v : Word) (s : State), s.writes o .SM_GPIO 0 0 v = true → s.busFree = false ∨ s.sm.held ≠ [] →
    ∃ t, exec (.smGpioWrite o v) s = .next t ∧ t.get SM_GPIO.SEL_OUT = fieldOf v 0 4 ∧ t.sm.pins = s.sm.pins ∧
      t.sm.held = s.sm.held ++ [{
        v := fieldOf v 0 4, fill := s.xip.filling.isSome
        frame := (s.sm.frame.any fun f => f.o == o.toNat || f.running.isSome) || s.sm.held.any (·.frame) }] ∧ t.outs = s.outs)

/-- R246, R251, R258, R259: a machine starts on a target of its own or at a request, which is refused while one runs or for a target
that does not exist; a cable-delay run times out; a host's delay applies at once; and the tracking time is at least 1 s. It rests
on choices of the model, which are in the log: entry 4 (limits), entry 43 (command bits), entry 91 (the calibration oscillator). -/
def Obligations.CalibrationRunsComplete : Prop :=
  (∀ (m : Fin 6) (x : Nat) (s : State), s.coldHeld = false → s.cdDown = false → s.calLost = false → m.val < 2 → x < 128 →
    (m = 0 → s.isSet SOR_CTRL.LMS_EN = true) → (m = 1 → s.isSet SOR_CTRL.DTC_EN = true) →
    s.trimRequired (x / 2) (x % 2) (m == 1) = true → ((s.half (x / 2) (x % 2)).inst (m == 1)).run = none →
    (s.half (x / 2) (x % 2)).committed.converged (m == 1) (s.actSel (x / 2) (x % 2)) = false → s.chipLost (x / 16) = false →
    ∃ t, exec (.sorrelBackgroundStart m x) s = .next t ∧
      ((t.half (x / 2) (x % 2)).inst (m == 1)).run = some { requested := false, since := s.clock } ∧
      (t.half (x / 2) (x % 2)).committed = (s.half (x / 2) (x % 2)).committed ∧ t.mem = s.mem) ∧
  (∀ (x : Nat) (s : State), s.coldHeld = false → s.cdDown = false → s.calLost = false → x < 1280 →
    s.isSet SOR_CTRL.CD_EN = true → (s.chan x).cd = none → (s.chan x).cdTable = none → s.chipLost (chanChip x) = false →
    s.chanTaken x = false → s.cdExt x = false → s.oscElsewhere x = false →
    ∃ t, exec (.sorrelBackgroundStart 2 x) s = .next t ∧ (t.chan x).cd = some { requested := false, since := s.clock } ∧
      t.get CD_STAT.ST (chanChip x) (chanLocal x) = 2 ∧ t.ts TS_STAT.CAL x = 1 ∧
      (∀ j, j ≠ x → t.chan j = s.chan j) ∧ t.mem = s.mem) ∧
  (∀ (x : Nat) (s : State), s.coldHeld = false → s.cdDown = false → s.calLost = false → x < 16 →
    s.isSet SOR_CTRL.CDLY_EN = true → s.linkTimed x = true → (s.cdly x).run = none → s.get CDLY_STAT.ST x ≠ 3 →
    ∃ t, exec (.sorrelBackgroundStart 4 x) s = .next t ∧ (t.cdly x).run = some { requested := false, since := s.clock } ∧
      t.get CDLY_STAT.ST x = 2 ∧ (t.cdly x).delay = (s.cdly x).delay ∧ RegsKept [RegId.CDLY_STAT.at x] s t ∧
      Kept [.regs, .cdlys] s t) ∧
  (∀ (o : Origin) (v : Word) (s : State), s.writes o .SOR_REQ 0 0 (withField v 14 1 1) = true → s.isSet SOR_REQ.GO = false →
    fieldOf v 0 3 = 4 → fieldOf v 3 11 < 16 → s.chipLost (fieldOf v 3 11 / 2) = false → s.linkTimed (fieldOf v 3 11) = true →
    (s.cdly (fieldOf v 3 11)).run = none →
    ∃ t, exec (.sorrelRequest o v) s = .next t ∧ t.isSet SOR_REQ.GO = true ∧ t.get SOR_REQ.MACH = 4 ∧
      t.get SOR_REQ.TARGET = fieldOf v 3 11 ∧ t.get SOR_REQ.RESULT = 0 ∧
      (t.cdly (fieldOf v 3 11)).run = some { requested := true, since := s.clock } ∧
      t.get CDLY_STAT.ST (fieldOf v 3 11) = 2) ∧
  (∀ (o : Origin) (v : Word) (s : State), s.writes o .SOR_REQ 0 0 (withField v 14 1 1) = true → s.isSet SOR_REQ.GO = false →
    (5 ≤ fieldOf v 0 3 ∨ machTargets (fieldOf v 0 3) ≤ fieldOf v 3 11) →
    ∃ t, exec (.sorrelRequest o v) s = .next t ∧ t.isSet SOR_REQ.GO = false ∧ t.get SOR_REQ.RESULT = 2 ∧
      t.get SOR_FAIL.REASON = 13 ∧ t.get SOR_FAIL.MACH = fieldOf v 0 3 ∧ t.get SOR_FAIL.TARGET = fieldOf v 3 11 ∧
      t.raising = s.raising ++ [276]) ∧
  (∀ (o : Origin) (v : Word) (s : State), s.writes o .SOR_REQ 0 0 (withField v 14 1 1) = true → s.isSet SOR_REQ.GO = true →
    fieldOf v 0 3 < 5 → fieldOf v 3 11 < machTargets (fieldOf v 0 3) →
    ∃ t, exec (.sorrelRequest o v) s = .next t ∧ t.reg RegId.SOR_REQ.at = s.reg RegId.SOR_REQ.at ∧
      t.get SOR_FAIL.REASON = 11 ∧ t.raising = s.raising ++ [276] ∧ t.halves = s.halves ∧ t.chans = s.chans ∧ t.cdlys = s.cdlys) ∧
  (∀ (l : LinkIx) (r : CdlyRun) (s : State), alive (linkChip l) s → (s.cdly l).run = some r → s.cdDown = false →
    r.since + 500 * msTk ≤ s.clock → s.linkState l ≠ lsCdly →
    ∃ t, exec (.cdlyTimeout l) s = .next t ∧ (t.cdly l).run = none ∧ t.get CDLY_STAT.ST l = 4 ∧ t.get SOR_FAIL.REASON = 9 ∧
      t.get SOR_FAIL.MACH = 4 ∧ 276 ∈ t.raising ∧ (t.cdly l).delay = (s.cdly l).delay) ∧
  (∀ (o : Origin) (l : LinkIx) (v : Word) (s : State), s.writes o .CDLY_HI l 0 v = true → (s.cdly l).run = none →
    ∃ t, exec (.cdlyHiWrite o l v) s = .next t ∧ (t.cdly l).delay = fieldOf v 0 16 * 2 ^ 32 + s.get CDLY_LO.DELAY l ∧
      t.isSet CDLY_STAT.VALID l = true ∧ t.isSet CDLY_STAT.USER l = true ∧
      RegsKept [RegId.CDLY_HI.at l, RegId.CDLY_STAT.at l] s t ∧ Kept [.regs, .cdlys, .tansyQ] s t) ∧
  (∀ (o : Origin) (v : Word) (s : State), s.writes o .SOR_CTRL 0 0 v = true →
    ∃ t, exec (.sorCtrlWrite o v) s = .next t ∧ t.get SOR_CTRL.TRACK_S = max 1 (fieldOf v 8 16) ∧
      t.get SOR_CTRL.LMS_EN = fieldOf v 0 1 ∧ t.get SOR_CTRL.DTC_EN = fieldOf v 1 1 ∧ t.get SOR_CTRL.CD_EN = fieldOf v 2 1 ∧
      t.get SOR_CTRL.SK_FREEZE = fieldOf v 3 1 ∧ t.get SOR_CTRL.CDLY_EN = fieldOf v 4 1 ∧
      RegsKept [RegId.SOR_CTRL.at] s t ∧ Kept [.regs, .tansyQ] s t)

/-- The NVM die after bytes `bs` are programmed at `x`. -/
def Sys2Proof.Claims.Programmed (x : Nat) (bs : List Byte) (s t : State) : Prop :=
  ∀ a, t.nvmByte a = if x ≤ a ∧ a < x + bs.length then bs.getD (a - x) 0xFF else s.nvmByte a

/-- The NVM die after [lo, hi) is erased. -/
def Sys2Proof.Claims.Erased (lo hi : Nat) (s t : State) : Prop :=
  ∀ a, t.nvmByte a = if lo ≤ a ∧ a < hi then 0xFF else s.nvmByte a

/-- Byte `a` of the NVM die is the byte of `bs` programmed there. -/
def Sys2Proof.Claims.PartOf (x : Nat) (bs : List Byte) (a : Nat) (t : State) : Prop :=
  x ≤ a ∧ a < x + bs.length ∧ t.nvmByte a = bs.getD (a - x) 0xFF

/-- A store or an erase has ended with NVMFAIL (R267), and a die that does not answer is lost (R34). -/
structure Sys2Proof.Claims.NvmFailed (r : NvmEnd) (s t : State) : Prop where
  op : t.nvmOp = none
  failed : t.isSet NVM_STAT.FAILED = true
  code : t.get NVM_STAT.LAST_CODE = 4
  idle : t.isSet NVM_STAT.BUSY = false
  lost : t.nvmLost = (s.nvmLost || r == .silent)
  mem : t.mem = s.mem

/-- The bank and the generation of the next store (R267). -/
def Sys2Proof.Claims.nextStore (s : State) : Nat × Nat := (s.bestBank.map fun x => (1 - x.1, x.2 + 1)).getD (0, 1)

/-- A store has started (R267 step 1): the bank's commit sector is erased and the bank is no longer valid. -/
structure Sys2Proof.Claims.StoreStarted (s t : State) : Prop where
  op : t.nvmOp = some ⟨(nextStore s).1, some ((nextStore s).2, s.calSnap)⟩
  busy : t.isSet NVM_STAT.BUSY = true
  phase : t.get NVM_STAT.PHASE = 1
  valid : t.isSet (nvmValid (nextStore s).1) = false
  erased : Erased (bankBase (nextStore s).1 + 0x3F0000) (bankBase (nextStore s).1 + 0x400000) s t
  mem : t.mem = s.mem

/-- R267, R269, R270, R416: a store or an erase is refused for its reasons or starts by invalidating its bank; its phases erase the
body, which counts a cycle of each sector, program it with its check, and commit it with the next generation; a phase that the die
fails, or does not answer, ends the operation with NVMFAIL where it stands, and a die that does not answer is lost (R34). How much
of the phase is done is open (log entry 93). It rests on choices of the model, which are in the log: entry 4 (limits), entry 30
(order of NVM refusals), entry 31 (contents of a calibration bank), entry 70 (paired rows), entry 72 (the power monitor), entry 93
(how far NVM work came), entry 117 (wear of the NVM die). -/
def Obligations.CalibrationStoreCompletes : Prop :=
  (∀ (o : Origin) (v : Word) (s : State), s.writesPair o .NVM_CTRL_A 0 (withField v 0 2 1) = true → s.storeRefused = none →
    s.calLost = false →
    ∃ t, exec (.nvmStore o v) s = .next t ∧ StoreStarted s t) ∧
  (∀ (o : Origin) (v : Word) (c : Nat) (s : State), s.writesPair o .NVM_CTRL_A 0 (withField v 0 2 1) = true →
    s.storeRefused = some c →
    ∃ t, exec (.nvmStore o v) s = .next t ∧ t.isSet NVM_STAT.REFUSED = true ∧ t.get NVM_STAT.LAST_CODE = c ∧
      t.nvm = s.nvm ∧ t.nvmOp = s.nvmOp) ∧
  (∀ (s : State), s.coldHeld = false → s.convSeen = true → s.autoDone = false → s.isSet NVM_CFG.AUTO = true →
    s.cdDown = false → s.storeRefused = none → s.calLost = false →
    ∃ t, exec .nvmAutoStore s = .next t ∧ StoreStarted s t ∧ t.autoDone = true) ∧
  (∀ (o : Origin) (v : Word) (s : State), s.writesPair o .NVM_CTRL_A 0 (withField v 0 2 2) = true →
    s.eraseRefused (fieldOf v 2 1) (fieldOf v 3 1 == 1) = none →
    ∃ t, exec (.nvmErase o v) s = .next t ∧ t.nvmOp = some ⟨fieldOf v 2 1, none⟩ ∧ t.isSet NVM_STAT.BUSY = true ∧
      t.isSet (nvmValid (fieldOf v 2 1)) = false ∧
      Erased (bankBase (fieldOf v 2 1) + 0x3F0000) (bankBase (fieldOf v 2 1) + 0x400000) s t ∧ t.mem = s.mem) ∧
  (∀ (b gen : Nat) (c : CalSnap) (s : State), s.coldHeld = false → s.cdDown = false → s.nvmOp = some ⟨b, some (gen, c)⟩ →
    s.get NVM_STAT.PHASE = 1 →
    ∃ t, exec (.nvmErasePhaseDone .done) s = .next t ∧ t.get NVM_STAT.PHASE = 2 ∧
      Erased (bankBase b) (bankBase b + 0xA0000) s t ∧
      (∀ k, SMap.get (fun _ => 0) t.eraseCnt k =
        SMap.get (fun _ => 0) s.eraseCnt k + (if 64 * b ≤ k ∧ k < 64 * b + 10 then 1 else 0)) ∧
      RegsKept [RegId.NVM_STAT.at] s t ∧ Kept [.regs, .nvm, .eraseCnt] s t) ∧
  (∀ (b gen : Nat) (c : CalSnap) (s : State), s.coldHeld = false → s.cdDown = false → s.nvmOp = some ⟨b, some (gen, c)⟩ →
    s.get NVM_STAT.PHASE = 2 →
    ∃ t, exec (.nvmBodyDone .done) s = .next t ∧ t.get NVM_STAT.PHASE = 3 ∧
      (∃ u, Programmed (bankBase b) (bankBody gen c) s u ∧
        Programmed (bankBase b + bankCheck) (leBytes 4 (crc32c (bankBody gen c))) u t) ∧
      RegsKept [RegId.NVM_STAT.at] s t ∧ Kept [.regs, .nvm] s t) ∧
  (∀ (r : NvmEnd) (b gen : Nat) (c : CalSnap) (s : State), s.coldHeld = false → s.cdDown = false →
    s.nvmOp = some ⟨b, some (gen, c)⟩ → s.get NVM_STAT.PHASE = 1 → r ≠ .done →
    ∃ t, exec (.nvmErasePhaseDone r) s = .next t ∧ NvmFailed r s t ∧
      ∀ a, t.nvmByte a = s.nvmByte a ∨ (bankBase b ≤ a ∧ a < bankBase b + 0xA0000 ∧ t.nvmByte a = 0xFF)) ∧
  (∀ (r : NvmEnd) (b gen : Nat) (c : CalSnap) (s : State), s.coldHeld = false → s.cdDown = false →
    s.nvmOp = some ⟨b, some (gen, c)⟩ → s.get NVM_STAT.PHASE = 2 → r ≠ .done →
    ∃ t, exec (.nvmBodyDone r) s = .next t ∧ NvmFailed r s t ∧
      ∀ a, t.nvmByte a = s.nvmByte a ∨ PartOf (bankBase b) (bankBody gen c) a t ∨
        PartOf (bankBase b + bankCheck) (leBytes 4 (crc32c (bankBody gen c))) a t) ∧
  (∀ (r : NvmEnd) (b gen : Nat) (c : CalSnap) (s : State), s.coldHeld = false → s.cdDown = false →
    s.nvmOp = some ⟨b, some (gen, c)⟩ → s.get NVM_STAT.PHASE = 3 → r ≠ .done →
    ∃ t, exec (.nvmStoreDone r) s = .next t ∧ NvmFailed r s t ∧
      ∀ a, t.nvmByte a = s.nvmByte a ∨ PartOf (bankBase b + bankCommit)
        ((commitRecord commitMagic gen bodyLen (s.nvmWord (bankBase b + bankCheck))).take 12) a t) ∧
  (∀ (r : NvmEnd) (b : Nat) (s : State), s.coldHeld = false → s.cdDown = false → s.nvmOp = some ⟨b, none⟩ → r ≠ .done →
    ∃ t, exec (.nvmEraseDone r) s = .next t ∧ NvmFailed r s t ∧
      ∀ a, t.nvmByte a = s.nvmByte a ∨ (bankBase b ≤ a ∧ a < bankBase b + 0x400000 ∧ t.nvmByte a = 0xFF)) ∧
  (∀ (b gen : Nat) (c : CalSnap) (s : State), s.coldHeld = false → s.cdDown = false → s.nvmOp = some ⟨b, some (gen, c)⟩ →
    s.get NVM_STAT.PHASE = 3 → b < 2 → gen < 2 ^ 32 →
    ∃ t, exec (.nvmStoreDone .done) s = .next t ∧ t.nvmOp = none ∧ t.isSet (nvmValid b) = true ∧ t.get (nvmGen b) = gen ∧
      t.get NVM_STAT.INUSE = b ∧ t.isSet NVM_STAT.STORED = true ∧ t.get NVM_STAT.LAST_CODE = 1 ∧
      t.isSet NVM_STAT.BUSY = false ∧ t.raising = s.raising ++ [278] ∧
      Programmed (bankBase b + bankCommit)
        (commitRecord commitMagic gen bodyLen (s.nvmWord (bankBase b + bankCheck))) s t ∧ t.mem = s.mem) ∧
  (∀ (b : Nat) (s : State), s.coldHeld = false → s.cdDown = false → s.nvmOp = some ⟨b, none⟩ →
    ∃ t, exec (.nvmEraseDone .done) s = .next t ∧ t.nvmOp = none ∧ t.isSet NVM_STAT.BUSY = false ∧ t.get NVM_STAT.LAST_CODE = 8 ∧
      Erased (bankBase b) (bankBase b + 0x400000) s t ∧ t.mem = s.mem) ∧
  (∀ (s : State), s.coldHeld = false →
    ∃ t, exec .vddhMonitorLow s = .next t ∧ t.vddhLow = s.clock + 10 * msTk ∧ Kept [.vddhLow] s t)

/-! ## Ryrel -/

/-- Link `l` receives frame `f` of a type: it has block lock, the frame is whole (R276), and a reliable frame has the next number (R277). -/
structure Sys2Proof.Claims.Hears (l type : Nat) (f : RyFrame) (s : State) : Prop where
  alive : alive (linkChip l) s
  chip : s.chipLost (linkChip l) = false
  locked : lsDiscover ≤ s.linkState l
  typed : f.type.toNat = type
  whole : frameGood f = true
  order : reliableType type = true → s.cdDown = false ∧ f.lseq.toNat = (s.lnk l).rxNext

/-- R273, R274, R279, R284: a link that trains goes to DISCOVER, a former upstream one as the standby, or turns off where another link has
become the standby (log entry 118); one that loses block lock goes to DOWN; a role is stored, except a second upstream
one; and a link in DISCOVER sends HELLO each 100 us, as does one refused for reason 1 to 3, which a change of its own fields returns to
DISCOVER. -/
def Sys2Proof.Claims.LinksComeAndGo : Prop :=
  (∀ (l : LinkIx) (s : State), alive (linkChip l) s → s.chipLost (linkChip l) = false →
    (s.linkState l = lsTrain ∨ s.linkState l = lsDown) → (s.lnk l).demoted = true → s.role l = 2 →
    (∃ k, k < 16 ∧ k ≠ l.val ∧ s.role k = 3) →
    ∃ t, exec (.ryrelTrained l) s = .next t ∧ t.linkState l = lsOff ∧ t.role l = 0 ∧ t.isSet RY_STAT.CFG_ERR l = true ∧ t.lnk l = {} ∧
      (∀ k, k ≠ l.val → t.lnk k = s.lnk k) ∧ RegsKept [RegId.RY_STAT.at l, RegId.RY_CFG.at l] s t ∧ Kept [.regs, .links] s t) ∧
  (∀ (l : LinkIx) (s : State), alive (linkChip l) s → s.chipLost (linkChip l) = false →
    (s.linkState l = lsTrain ∨ s.linkState l = lsDown) →
    ((s.lnk l).demoted = true → s.role l = 2 → ∀ k, k < 16 → k ≠ l.val → s.role k ≠ 3) →
    ∃ t, exec (.ryrelTrained l) s = .next t ∧ t.linkState l = lsDiscover ∧
      t.lnk l = { helloDue := s.clock, heg := (s.lnk l).heg } ∧ (∀ k, k ≠ l.val → t.lnk k = s.lnk k) ∧
      t.role l = (if (s.lnk l).demoted = true ∧ s.role l = 2 then 3 else s.role l) ∧
      RegsKept [RegId.RY_STAT.at l, RegId.RY_CFG.at l] s t ∧ Kept [.regs, .links] s t) ∧
  (∀ (l : LinkIx) (s : State), alive (linkChip l) s → lsTrain ≤ s.linkState l →
    ∃ t, exec (.ryrelBlockLockLoss l) s = .next t ∧ t.linkState l = lsDown ∧ (t.lnk l).unacked = [] ∧
      t.get RY_CNT2.DOWNS l = (s.get RY_CNT2.DOWNS l + 1) % 65536 ∧
      ((s.linkState l = lsUp ∨ s.linkState l = lsStandby) → t.isSet RY_STAT.DOWN_SEEN l = true) ∧ t.mem = s.mem) ∧
  (∀ (o : Origin) (l : LinkIx) (v : Word) (s : State), s.writes o .RY_CFG l 0 v = true → s.role l = 0 → fieldOf v 0 2 ≠ 0 →
    (2 ≤ fieldOf v 0 2 → ∀ k, k < 16 → k ≠ l.val → s.role k ≠ fieldOf v 0 2) →
    ∃ t, exec (.ryRoleWrite o l v) s = .next t ∧ t.role l = fieldOf v 0 2 ∧ t.linkState l = lsTrain ∧
      (2 ≤ fieldOf v 0 2 → t.isTop = false) ∧
      RegsKept [RegId.RY_CFG.at l, RegId.RY_STAT.at l, RegId.RY_GSTAT.at] s t ∧ Kept [.regs, .tansyQ] s t) ∧
  (∀ (o : Origin) (l : LinkIx) (v : Word) (k : Nat) (s : State), s.writes o .RY_CFG l 0 v = true → s.role l = 0 →
    2 ≤ fieldOf v 0 2 → k < 16 → k ≠ l.val → s.role k = fieldOf v 0 2 →
    ∃ t, exec (.ryRoleWrite o l v) s = .next t ∧ t.role l = 0 ∧ t.isSet RY_STAT.CFG_ERR l = true ∧ t.links = s.links) ∧
  (∀ (l : LinkIx) (s : State), alive (linkChip l) s → s.linkState l = lsDiscover → (s.lnk l).helloDue ≤ s.clock →
    s.cdDown = false →
    ∃ t, exec (.helloSend l) s = .next t ∧ t.outs = s.outs ++ [frameOut l fHELLO 0 0xFF s.ownSrc (s.helloBytes l)] ∧
      t.lnk l = { s.lnk l with helloDue := s.clock + 100 * usTk } ∧ Kept [.links, .outs] s t) ∧
  (∀ (l : LinkIx) (s : State), alive (linkChip l) s → s.refusedByHello l = true → (s.lnk l).helloDue ≤ s.clock →
    s.cdDown = false →
    ∃ t, exec (.helloSend l) s = .next t ∧ t.outs = s.outs ++ [frameOut l fHELLO 0 0xFF s.ownSrc (s.helloBytes l)] ∧
      t.linkState l = (if (s.lnk l).refuseOwn = s.helloBytes l then lsRefused else lsDiscover) ∧
      RegsKept [RegId.RY_STAT.at l] s t ∧ Kept [.regs, .links, .outs] s t)

/-- R280, R281: peers that fit move to PENDING and others are refused; the top manager gives a new candidate a number; the admitted
worker is up; and a refusal, a timeout or a decision of the host ends a join. A decision meets a candidate while it stands in
PENDING; one whose link has gone keeps its entry at an approval and loses it at a denial (log entry 119). It rests on choices of
the model, which are in the log: entry 4 (limits), entry 62 (Ryrel lines beside frames), entry 95 (frames with another length),
entry 96 (whether the worker knows its cable delay), entry 119 (joins that end below a relay). -/
def Obligations.JoinsComplete : Prop :=
  (∀ (l : LinkIx) (f : RyFrame) (s : State), Hears l fHELLO f s → s.cdDown = false → s.linkState l = lsDiscover →
    s.get EDITION_SEL.ED ≠ 0 → hSelected f.payload ≠ 0 → s.helloRefused l f.src.toNat f.payload = none → s.role l = 2 →
    hRole f.payload ≠ 3 → (s.lnk l).demoted = false →
    ∃ t, exec (.rxHello l f) s = .next t ∧ t.linkState l = lsPending ∧ t.wideAt (aRY_PEER_ID l) = hSerial f.payload ∧
      t.get RY_STAT.PEER_LEVEL l = hLevel f.payload ∧ (t.lnk l).hello = f.payload ∧ (t.lnk l).hbFrom = s.clock ∧
      RegsKept [RegId.RY_STAT.at l] s t ∧ Kept [.regs, .links, .wide] s t) ∧
  (∀ (l : LinkIx) (f : RyFrame) (reason : Nat) (s : State), Hears l fHELLO f s → s.cdDown = false →
    s.linkState l = lsDiscover → s.get EDITION_SEL.ED ≠ 0 → hSelected f.payload ≠ 0 →
    (s.lnk l).demoted = false → (s.cdly l).run = none → s.helloRefused l f.src.toNat f.payload = some reason →
    ∃ t, exec (.rxHello l f) s = .next t ∧ t.linkState l = lsRefused ∧ t.get RY_STAT.LAST_REFUSE l = reason ∧
      t.isSet RY_STAT.REFUSED l = true ∧ t.raising = s.raising ++ [360] ∧ t.mem = s.mem) ∧
  (∀ (l : LinkIx) (f : RyFrame) (w : Nat) (s : State), Hears l fJOIN f s → s.isTop = true → s.linkState l = lsPending →
    f.src = 0 → s.workerOf (hSerial f.payload) = none →
    ((List.range 255).map (· + 1)).find? (fun w => s.get WT_STAT.STATE w == 0) = some w → s.isSet RY_GCFG.APPROVE = true →
    ∃ t, exec (.rxJoin l f) s = .next t ∧ t.get WT_STAT.STATE w = 1 ∧ t.get WT_STAT.LINK w = l.val ∧
      t.get WT_STAT.LEVEL w = 1 ∧ t.wideAt (aWT_ID w) = hSerial f.payload ∧
      RegsKept [RegId.WT_STAT.at w, RegId.RY_WORKERS.at] s t ∧ Kept [.regs, .wide, .links, .ry] s t) ∧
  (∀ (l : LinkIx) (f : RyFrame) (s : State), Hears l fADMIT f s → s.isTop = false → pfld f.payload 0 8 = ownSerial →
    s.role l = 2 → lsPending ≤ s.linkState l → s.linkState l ≠ lsRefused → (pfld f.payload 10 1).testBit 0 = true →
    ∃ t, exec (.rxAdmit l f) s = .next t ∧ t.isAdmitted = true ∧ t.isSet RY_GSTAT.COLD = false ∧ t.linkState l = lsUp ∧
      t.get RY_GSTAT.WID = pfld f.payload 8 1 ∧ t.get RY_GSTAT.LEVEL = pfld f.payload 9 1 % 4 ∧ 358 ∈ t.raising ∧
      t.mem = s.mem) ∧
  (∀ (l : LinkIx) (f : RyFrame) (s : State), Hears l fREFUSE f s → (s.cdly l).run = none →
    (pfld f.payload 0 8 = ownSerial ∨ (s.role l = 1 ∧ hSerial (s.lnk l).hello = pfld f.payload 0 8)) →
    ∃ t, exec (.rxRefuse l f) s = .next t ∧ t.linkState l = lsRefused ∧ t.isSet RY_STAT.REFUSED l = true ∧
      t.get RY_STAT.LAST_REFUSE l = pfld f.payload 8 1 % 16 ∧ t.raising = s.raising ++ [360] ∧
      (t.lnk l).refuseUntil = (if timedRefusal (pfld f.payload 8 1) then some (s.clock + sTk) else none) ∧ t.mem = s.mem) ∧
  (∀ (l : LinkIx) (f : RyFrame) (w : Nat) (s : State), Hears l fREADY f s → s.isTop = true → f.dst = 0 →
    s.workerOf (pfld f.payload 0 8) = some w → s.get WT_STAT.STATE w = 2 → (s.wt w).returning = false → (s.wt w).parent = 0 →
    ∃ t, exec (.rxReady l f) s = .next t ∧ t.get WT_STAT.STATE w = 3 ∧ t.linkState (s.get WT_STAT.LINK w) = lsUp ∧
      t.get RY_STAT.PEER_WID (s.get WT_STAT.LINK w) = w ∧ t.mem = s.mem) ∧
  (∀ (l : LinkIx) (by_ : Nat) (s : State), alive (linkChip l) s → (s.lnk l).joinBy = some by_ → by_ ≤ s.clock →
    lsPending ≤ s.linkState l → s.linkState l ≤ lsTime → s.cdDown = false → (s.cdly l).run = none →
    ∃ t, exec (.joinTimeout l) s = .next t ∧ t.linkState l = lsRefused ∧ t.get RY_STAT.LAST_REFUSE l = 8 ∧
      (t.lnk l).refuseUntil = some (s.clock + sTk) ∧ t.raising = s.raising ++ [360] ∧ t.mem = s.mem) ∧
  (∀ (l : LinkIx) (until_ : Nat) (s : State), alive (linkChip l) s → (s.lnk l).refuseUntil = some until_ →
    s.linkState l = lsRefused → until_ ≤ s.clock → s.cdDown = false →
    ∃ t, exec (.refuseRetryTimer l) s = .next t ∧ t.linkState l = lsDiscover ∧
      t.lnk l = { s.lnk l with refuseUntil := none } ∧ RegsKept [RegId.RY_STAT.at l] s t ∧ Kept [.regs, .links] s t) ∧
  (∀ (o : Origin) (w : WorkerIx) (v : Word) (s : State), s.writes o .WT_CTRL w 0 (withField v 0 1 1) = true →
    s.get WT_STAT.STATE w = 1 → fieldOf v 2 1 = 0 → s.candWaits w = true →
    ∃ t, exec (.wtApprove o w v) s = .next t ∧ t.get WT_STAT.STATE w = 2 ∧ t.get WT_CTRL.APPROVE w = 0 ∧ t.mem = s.mem) ∧
  (∀ (o : Origin) (w : WorkerIx) (v : Word) (s : State), s.writes o .WT_CTRL w 0 (withField v 0 1 1) = true →
    s.get WT_STAT.STATE w = 1 → fieldOf v 2 1 = 0 → s.candWaits w = false →
    ∃ t, exec (.wtApprove o w v) s = .next t ∧ t.get WT_STAT.STATE w = 1 ∧ t.get WT_CTRL.APPROVE w = 0 ∧
      Kept [.regs, .tansyQ] s t ∧ RegsKept [RegId.WT_CTRL.at w] s t) ∧
  (∀ (o : Origin) (w : WorkerIx) (v : Word) (s : State), s.writes o .WT_CTRL w 0 (withField v 1 1 1) = true →
    s.get WT_STAT.STATE w = 1 → fieldOf v 0 1 = 0 →
    ∃ t, exec (.wtDeny o w v) s = .next t ∧ t.get WT_STAT.STATE w = 0 ∧ t.get WT_CTRL.DENY w = 0 ∧ t.mem = s.mem ∧
      ((s.wt w).parent = 0 → s.candWaits w = true → t.linkState (s.get WT_STAT.LINK w) = lsRefused ∧
        t.get RY_STAT.LAST_REFUSE (s.get WT_STAT.LINK w) = 6) ∧
      (s.candWaits w = false → t.links = s.links ∧ t.outs = s.outs))

/-- R282, R283, R285, R379: heartbeats are sent each 32,000 tk and a peer that stays silent for three is gone, as is one whose
control die is lost or that leaves; the host removes a worker, or has its items replayed. -/
def Sys2Proof.Claims.HeartbeatsAndDeparturesComplete : Prop :=
  (∀ (l : LinkIx) (s : State), alive (linkChip l) s → s.hbOn l = true → (s.lnk l).hbDue ≤ s.clock →
    s.chipLost (linkChip l) = false →
    ∃ t, exec (.hbSend l) s = .next t ∧
      t.outs = s.outs ++ [frameOut l fHB 0 0xFF s.ownSrc (leBytes 4 (s.hbWord l) ++ leBytes 4 s.slCap)] ∧
      t.lnk l = { s.lnk l with hbDue := s.clock + 32000 } ∧ Kept [.links, .outs] s t) ∧
  (∀ (l : LinkIx) (f : RyFrame) (s : State), Hears l fHB f s → s.cdDown = false → (pfld f.payload 0 1).testBit 2 = false →
    (pfld f.payload 0 1).testBit 3 = false →
    ∃ t, exec (.rxHb l f) s = .next t ∧ t.lnk l = { s.lnk l with hbFrom := s.clock, misses := 0 } ∧
      t.linkState l = s.linkState l ∧ RegsKept [RegId.RY_STAT.at l] s t ∧ Kept [.regs, .links] s t) ∧
  (∀ (l : LinkIx) (f : RyFrame) (s : State), Hears l fHB f s → s.cdDown = false → s.hbOn l = true →
    ((pfld f.payload 0 1).testBit 2 = true ∨ (pfld f.payload 0 1).testBit 3 = true) →
    ∃ t, exec (.rxHb l f) s = .next t ∧ t.linkState l = lsDiscover ∧ t.mem = s.mem) ∧
  (∀ (l : LinkIx) (s : State), alive (linkChip l) s → s.hbOn l = true → (s.lnk l).hbFrom + 32000 ≤ s.clock →
    s.chipLost (linkChip l) = false → (s.lnk l).misses < 2 →
    ∃ t, exec (.hbMiss l) s = .next t ∧
      t.lnk l = { s.lnk l with hbFrom := (s.lnk l).hbFrom + 32000, misses := (s.lnk l).misses + 1 } ∧
      t.get RY_CNT2.HBMISS l = (s.get RY_CNT2.HBMISS l + 1) % 65536 ∧ t.isSet RY_STAT.HB_LATE l = true ∧
      t.linkState l = s.linkState l ∧ RegsKept [RegId.RY_CNT2.at l, RegId.RY_STAT.at l] s t ∧ Kept [.regs, .links] s t) ∧
  (∀ (l : LinkIx) (s : State), alive (linkChip l) s → s.hbOn l = true → (s.lnk l).hbFrom + 32000 ≤ s.clock →
    s.chipLost (linkChip l) = false → 2 ≤ (s.lnk l).misses → s.cdDown = false →
    ∃ t, exec (.hbMiss l) s = .next t ∧ t.linkState l = lsDiscover ∧
      t.get RY_CNT2.HBMISS l = (s.get RY_CNT2.HBMISS l + 1) % 65536 ∧ t.mem = s.mem) ∧
  (∀ (l : LinkIx) (f : RyFrame) (s : State), Hears l fLEAVE f s → s.role l = 1 → s.hbOn l = true →
    s.get RY_STAT.PEER_WID l = pfld f.payload 0 1 →
    ∃ t, exec (.rxLeave l f) s = .next t ∧ t.linkState l = lsDiscover ∧ t.mem = s.mem) ∧
  (∀ (l : LinkIx) (f : RyFrame) (s : State), Hears l fCDLOSS f s → s.hbOn l = true →
    ∃ t, exec (.rxCdloss l f) s = .next t ∧ t.linkState l = lsDiscover ∧ t.mem = s.mem) ∧
  (∀ (o : Origin) (w : WorkerIx) (v : Word) (s : State), s.writesPair o .WT_CTRL_A w (withField v 0 1 1) = true →
    w.val ≠ 0 → s.get WT_STAT.STATE w ≠ 0 →
    ∃ t, exec (.wtEvict o w v) s = .next t ∧ t.get WT_STAT.STATE w = 0 ∧ t.isSet WT_STAT.COLD w = false ∧
      t.wideAt (aWT_ID w) = 0 ∧ t.wt w = {}) ∧
  (∀ (o : Origin) (w : WorkerIx) (v : Word) (s : State), s.writes o .WT_CTRL w 0 (withField v 2 1 1) = true →
    s.get WT_STAT.STATE w = 3 → s.isSet WT_STAT.COLD w = true →
    ∃ t, exec (.wtReplay o w v) s = .next t ∧ t.isSet WT_STAT.COLD w = false ∧ t.get WT_STAT.STATE w = 3 ∧
      t.get WT_CTRL.REPLAY w = 0 ∧
      ((∃ i m, s.mirror i = some m ∧ m.wid = w.val) → (∀ e ∈ s.ry.mirrors, ∀ m, e.2 = some m → m.entry < 1024) →
        t.isSet WT_STAT.REPLAYING w = true))

/-- R273, R274, R279, R284: a link that trains goes to DISCOVER, a former upstream one as the standby, or turns off where another link
has become the standby (log entry 118); one that loses block lock goes to DOWN; a role is stored, except a second upstream one;
and a link in DISCOVER sends HELLO each 100 us, as does one refused for reason 1 to 3, which a change of its own fields returns to
DISCOVER. R282, R283, R285, R379: heartbeats are sent each 32,000 tk and a peer that stays silent for three is gone, as is one
whose control die is lost or that leaves; the host removes a worker, or has its items replayed. It rests on choices of the model,
which are in the log: entry 4 (limits), entry 62 (Ryrel lines beside frames), entry 70 (paired rows), entry 95 (frames with
another length), entry 118 (a demoted link that finds another standby). -/
def Obligations.LinksAndHeartbeatsComplete : Prop :=
  Claims.LinksComeAndGo ∧ Claims.HeartbeatsAndDeparturesComplete

/-- R277: reliable frames are acknowledged, resent from the one named, or bring the link down. The chiplets do so also while the
control die does not work, and what a frame then carries, here an event, is lost (log entry 136). It rests on choices of the
model, which are in the log: entry 4 (limits), entry 62 (Ryrel lines beside frames), entry 95 (frames with another length), entry
136 (reliable frames while the control die does not work). -/
def Obligations.ReliableFramesComplete : Prop :=
  (∀ (l : LinkIx) (s : State), alive (linkChip l) s → (s.lnk l).rxSeen = true → lsDiscover ≤ s.linkState l →
    s.chipLost (linkChip l) = false →
    ∃ t, exec (.lackSend l) s = .next t ∧
      t.outs = s.outs ++ [frameOut l fLACK 0 0xFF s.ownSrc (leBytes 8 (((s.lnk l).rxNext + 65535) % 65536))] ∧
      Kept [.outs] s t) ∧
  (∀ (l : LinkIx) (f : RyFrame) (s : State), Hears l fLACK f s →
    ∃ t, exec (.rxLack l f) s = .next t ∧
      t.lnk l = { s.lnk l with unacked := afterSeq (pfld f.payload 0 2) (s.lnk l).unacked } ∧
      (∀ k, k ≠ l.val → t.lnk k = s.lnk k) ∧ Kept [.links] s t) ∧
  (∀ (l : LinkIx) (f : RyFrame) (s : State), Hears l fLNAK f s →
    ∃ t, exec (.rxLnak l f) s = .next t ∧
      (let u := afterSeq ((pfld f.payload 0 2 + 65535) % 65536) (s.lnk l).unacked;
       t.lnk l = { s.lnk l with unacked := u } ∧
       t.outs = s.outs ++ u.map (fun g => frameOut l g.type g.lseq g.dst g.src g.payload) ∧
       t.get RY_CNT.RETX l = (s.get RY_CNT.RETX l + u.length) % 65536) ∧
      RegsKept [RegId.RY_CNT.at l] s t ∧ Kept [.links, .outs, .regs] s t) ∧
  (∀ (l : LinkIx) (f : TxFrame) (rest : List TxFrame) (s : State), alive (linkChip l) s → (s.lnk l).unacked = f :: rest →
    f.at_ + 100 * usTk ≤ s.clock → s.chipLost (linkChip l) = false → lsTrain ≤ s.linkState l →
    ∃ t, exec (.reliableAckTimeout l) s = .next t ∧ t.linkState l = lsDown ∧ (t.lnk l).unacked = [] ∧ t.mem = s.mem) ∧
  (∀ (l : LinkIx) (f : RyFrame) (s : State), alive (linkChip l) s → s.chipLost (linkChip l) = false → lsDiscover ≤ s.linkState l →
    f.type.toNat = fEVENT → frameGood f = true → f.lseq.toNat = (s.lnk l).rxNext → s.cdDown = true →
    ∃ t, exec (.rxEvent l f) s = .next t ∧
      t.lnk l = { s.lnk l with rxNext := ((s.lnk l).rxNext + 1) % 65536, rxSeen := true } ∧
      (∀ k, k ≠ l.val → t.lnk k = s.lnk k) ∧ Kept [.links] s t)

/-- R286 to R288: time transfer numbers its markers and keeps their stamps; a servo period gives the offset and the round trip; an
EPOCH frame is kept for the arm with the arrival of its marker, which is tried each 10 us until it succeeds. It rests on choices
of the model, which are in the log: entry 4 (limits), entry 5 (measured values), entry 65 (the servo), entry 97 (when EPOCH is
sent again). -/
def Obligations.TimeTransferCompletes : Prop :=
  (∀ (l : LinkIx) (frac : BitVec 16) (s : State), alive (linkChip l) s → s.ttOn l = true → (s.lnk l).ttDue ≤ s.clock →
    lsDiscover ≤ s.linkState l →
    ∃ t p, exec (.ttSend l frac) s = .next t ∧ t.outs = s.outs ++ [frameOut l fTT 0 0xFF s.ownSrc p] ∧
      pfld p 0 2 = (s.lnk l).tt.txK % 65536 ∧ (t.lnk l).tt.txK = ((s.lnk l).tt.txK + 1) % 65536 ∧
      (t.lnk l).tt.deps = (((s.lnk l).tt.txK, ts80 (s.count (linkChip l)) frac.toNat) :: (s.lnk l).tt.deps).take 8 ∧
      (t.lnk l).ttDue = s.clock + 16384 ∧ Kept [.links, .outs] s t) ∧
  (∀ (l : LinkIx) (f : RyFrame) (frac : BitVec 16) (s : State), Hears l fTT f s → s.ttOn l = true →
    ∃ t, exec (.rxTt l f frac) s = .next t ∧ t.mem = s.mem ∧
      (t.lnk l).tt.arrs =
        ((pfld f.payload 0 2, ts80 (s.count (linkChip l)) frac.toNat) :: (s.lnk l).tt.arrs).take 8) ∧
  (∀ (l : LinkIx) (s : State), alive (linkChip l) s → 64 ≤ (s.lnk l).tt.n →
    ∃ t, exec (.servoPeriodEnd l) s = .next t ∧
      t.wideAt (aRY_OFS l) = twos 64 (roundDiv (s.lnk l).tt.sumT (s.lnk l).tt.n) ∧
      t.wideAt (aRY_RTT l) = twos 64 (roundDiv (s.lnk l).tt.sumD (s.lnk l).tt.n) ∧ (t.lnk l).tt.n = 0 ∧
      (t.lnk l).tt.sumT = 0 ∧ (t.lnk l).tt.sumD = 0 ∧ t.mem = s.mem) ∧
  (∀ (l : LinkIx) (f : RyFrame) (m t2 : Nat) (s : State), Hears l fEPOCH f s → s.isSet EPOCH_STAT.ARMED = false →
    (s.role l ≠ 2 ∨ pfld f.payload 0 2 = s.get RY_WORKERS.HEG) →
    (s.lnk l).tt.arrs.find? (fun a => a.1 == pfld f.payload 2 2) = some (m, t2) →
    ∃ t, exec (.rxEpoch l f) s = .next t ∧
      t.ry.msg = some (l.val, pfld f.payload 0 2, pfld f.payload 8 10, t2) ∧ Kept [.links, .ry] s t) ∧
  (∀ (l : Nat) (s : State), s.coldHeld = false → s.cdDown = false → s.ry.want = some l → l < 16 → s.ry.retryAt ≤ s.clock →
    (∃ n, n < 8 ∧ s.get COMMIT_STAT.LEVEL n ≠ 0) →
    ∃ t, exec .epochArmRetry s = .next t ∧ t.ry.want = some l ∧ t.ry.retryAt = s.clock + 10 * usTk ∧ Kept [.ry] s t) ∧
  (∀ (l : Nat) (s : State), s.coldHeld = false → s.cdDown = false → s.ry.want = some l → l < 16 → s.ry.retryAt ≤ s.clock →
    (∀ n, n < 8 → s.get COMMIT_STAT.LEVEL n = 0) → s.relockOrFailover = false →
    ∃ t, exec .epochArmRetry s = .next t ∧ t.ry.want = none ∧ t.isSet EPOCH_STAT.ARMED = true ∧
      t.get EPOCH_CTRL_A.SRC = 1 ∧ t.get EPOCH_CTRL_A.LINK = l ∧ t.isSet EPOCH_CTRL_A.ARM = true ∧ t.mem = s.mem)

/-- The payload of the SUBMIT of a mirror record (R278, R291, R295): queue, REPLAY, FORCE_ABORT, manager sequence and item. -/
def Sys2Proof.Claims.submitPayload (m : Mirror) : List Byte :=
  leBytes 8 (m.rq + (if m.replay then 2 ^ 15 else 0) + (if m.force then 2 ^ 16 else 0)) ++ leBytes 8 m.mseq ++ m.item

/-- A SUBMIT of each of the records has gone out, in their order, on the link toward its worker, if that has block lock. -/
def Sys2Proof.Claims.SubmitsSent (ms : List Mirror) (s t : State) : Prop :=
  (∀ m ∈ ms, ∃ l, s.routeTo m.wid = some l ∧ lsDiscover ≤ s.linkState l) →
    ∃ fs, t.outs = s.outs ++ fs ∧ List.Forall₂ (fun m o => ∃ l seq, s.routeTo m.wid = some l ∧
      o = frameOut l fSUBMIT seq m.wid s.ownSrc (submitPayload m)) ms fs

/-- The records that an answer of link frame `f` names (R291). -/
def Sys2Proof.Claims.answered (f : RyFrame) (s : State) : List (Nat × Mirror) :=
  s.mirrorsWhere fun m => m.wid == f.src.toNat && m.rq == pfld f.payload 0 2 && m.mseq == pfld f.payload 8 6 && (m.st < 3 || m.replay)

/-- R27, R290, R291, R293 to R295, R299: a forwarding entry is enabled or refused; the head of its queue is mirrored and sent, after a
RESYNC if it is the first since the entry was enabled; a worker accepts the item with the next number, with the frame's bytes; and
the mirror follows its answers until the record retires; an answer that meets an uncorrectable word of its record marks it and its
worker (R28). A DONE whose completion record waits for room is not acknowledged yet. A worker that is not admitted changes no
record by its answers. An entry that a worker has refused for room or order sends its SUBMITs again from the lowest refused. A
replay sends one record at each tick (log entry 98), but those of an entry that waits for such a resend. It rests on choices of
the model, which are in the log: entry 1 (time and the empty queue), entry 4 (limits), entry 63 (the mirror and the reports),
entry 64 (manager marks and DUP), entry 98 (the pace of a replay). -/
def Obligations.ForwardingCompletes : Prop :=
  (∀ (o : Origin) (f : Fin 1024) (v : Word) (s : State), s.writes o .FWD_CFG f 0 v = true → s.isSet FWD_CFG.EN f = false →
    fieldOf v 15 1 = 1 → s.entryRefused f v (s.reg (RegId.FWD_DST.at f)) = false →
    ∃ t, exec (.fwdEntryWrite o f 0 v) s = .next t ∧ t.isSet FWD_CFG.EN f = true ∧ t.get FWD_CFG.FQ f = fieldOf v 0 15 ∧
      RegsKept [RegId.FWD_CFG.at f] s t ∧ Kept [.regs, .ry, .tansyQ] s t) ∧
  (∀ (o : Origin) (f : Fin 1024) (v : Word) (s : State), s.writes o .FWD_CFG f 0 v = true → s.isSet FWD_CFG.EN f = false →
    fieldOf v 15 1 = 1 → s.entryRefused f v (s.reg (RegId.FWD_DST.at f)) = true →
    ∃ t, exec (.fwdEntryWrite o f 0 v) s = .next t ∧ t.reg (RegId.FWD_CFG.at f) = s.reg (RegId.FWD_CFG.at f) ∧
      t.isSet FWD_STAT.ERR f = true ∧ RegsKept [RegId.FWD_STAT.at f] s t ∧ Kept [.regs, .tansyQ] s t) ∧
  (∀ (o : Origin) (f : Fin 1024) (v : Word) (s : State), s.writes o .FWD_DST f 0 v = true → s.isSet FWD_CFG.EN f = false →
    ∃ t, exec (.fwdEntryWrite o f 1 v) s = .next t ∧ t.get FWD_DST.WID f = fieldOf v 0 8 ∧
      t.get FWD_DST.RQ f = fieldOf v 8 15 ∧ RegsKept [RegId.FWD_DST.at f] s t ∧ Kept [.regs, .tansyQ] s t) ∧
  (∀ (o : Origin) (f : Fin 1024) (v : Word) (s : State), s.writes o .FWD_CQ f 0 v = true → s.isSet FWD_CFG.EN f = false →
    ∃ t, exec (.fwdEntryWrite o f 2 v) s = .next t ∧ t.get FWD_CQ.CQ f = fieldOf v 0 15 ∧
      t.get FWD_CQ.CQ_EN f = fieldOf v 15 1 ∧ RegsKept [RegId.FWD_CQ.at f] s t ∧ Kept [.regs, .tansyQ] s t) ∧
  (∀ (f : Fin 1024) (i : Item) (k : Nat) (s : State), s.coldHeld = false → s.cdDown = false → s.isTop = true →
    s.isSet FWD_CFG.EN f = true → s.isSet QD_CTRL.EN (s.get FWD_CFG.FQ f) = true →
    s.isSet QD_CTRL.HOSTQ (s.get FWD_CFG.FQ f) = true → s.get WT_STAT.STATE (s.get FWD_DST.WID f) = 3 →
    s.isSet WT_STAT.COLD (s.get FWD_DST.WID f) = false → s.isSet WT_STAT.REPLAYING (s.get FWD_DST.WID f) = false →
    s.isSet FWD_STAT.RESEND f = false → s.mirrorLost = false →
    s.headItem (s.get FWD_CFG.FQ f) = some i → s.freeMirror? = some k →
    let w := s.get FWD_DST.WID f
    let l := s.get WT_STAT.LINK w
    let fresh := (s.fwdSt f).fresh
    let seq := (s.lnk l).txNext
    ∃ t, exec (.forwarderTake f) s = .next t ∧
      (i.mseq = none → lsDiscover ≤ s.linkState l → ∃ floor, t.outs = s.outs ++
        (if fresh then [frameOut l fRESYNC seq w 0 (leBytes 8 (s.get FWD_DST.RQ f) ++ leBytes 8 floor)] else []) ++
        [frameOut l fSUBMIT (if fresh then (seq + 1) % 65536 else seq) w 0
          (leBytes 8 (s.get FWD_DST.RQ f) ++ leBytes 8 i.seq ++ i.bytes)]) ∧
      t.mirror k = some { mseq := i.seq, wid := s.get FWD_DST.WID f, st := 1, unrep := false, entry := f.val,
                          rq := s.get FWD_DST.RQ f, sz := s.get QD_CTRL.ITEM_SZ (s.get FWD_CFG.FQ f), wseq := 0, horizon := 0,
                          item := i.bytes } ∧
      (∀ j, j ≠ k → t.mirror j = s.mirror j)) ∧
  (∀ (l : LinkIx) (f : RyFrame) (s : State), Hears l fSUBMIT f s → s.isTop = false → s.forMe f = true →
    s.isManagerLink l = true → s.mirrorLost = false → s.accOff = false →
    let q := pfld f.payload 0 4 % 2 ^ 15;
    let mseq := pfld f.payload 8 6;
    mseq = s.mm q + 1 → q ≠ quarQ → (s.get QD_CTRL.SUBMIT q).testBit 1 = true → s.isSet QD_CTRL.EN q = true →
    s.isSet QD_CTRL.DRAIN q = false → s.frozen (RegId.QD_CTRL.at q) = false → f.payload.length = 16 + s.qItemSize q →
    (s.queue q).nextSeq < seqEnd → s.get QD_STAT.LEVEL q + s.qEntries q ≤ s.get QD_LEN.LEN q →
    ∃ t, exec (.rxSubmit l f) s = .next t ∧ t.mm q = mseq ∧ (t.queue q).nextSeq = (s.queue q).nextSeq + 1 ∧
      (t.item q (s.queue q).nextSeq).bind (·.mseq) = some mseq ∧
      (∃ slot, let j : Item := {
          seq := (s.queue q).nextSeq, size := s.qItemSize q, since := s.clock, eligAt := s.clock, mseq := some mseq
          late := !(pfld f.payload 0 4).testBit 16 && (f.payload.getD 22 0).getLsbD 0
          body := (dwordsOf (f.payload.drop 16)).drop 1, entry := slotEntry (s.queue q).blocks (s.qEntries q) slot }
        (t.queue q).items.getLast? = some j ∧
          (∀ m < s.qItemSize q, t.byte (entryAddr j.entry + m) = j.bytes.getD m 0) ∧
          (∀ r, rowOfItem j r → t.bytesAt (parityAddr r) 16 = t.parityRow r)) ∧
      t.outs = s.outs ++ [frameOut l fSUBRES (s.lnk l).txNext 0 s.ownSrc
        (leBytes 2 q ++ leBytes 6 0 ++ leBytes 8 mseq ++ leBytes 8 (s.queue q).nextSeq)]) ∧
  (∀ (l : LinkIx) (f : RyFrame) (i : Nat) (m : Mirror) (rest : List (Nat × Mirror)) (s : State), Hears l fSUBRES f s →
    s.forMe f = true → answered f s = (i, m) :: rest → s.get WT_STAT.STATE m.wid = 3 →
    (pfld f.payload 2 1 = 0 ∨ pfld f.payload 2 1 = 9 →
      ∃ t, exec (.rxSubres l f) s = .next t ∧
        (let m' := m.taken (if pfld f.payload 2 1 = 9 then 0 else pfld f.payload 16 6);
         t.mirror i = some { m' with unrep := m'.unrep || s.anyBad (0x01E00000 + 128 * i) 128 }) ∧
        (m.entry < 1024 → s.anyBad (0x01E00000 + 128 * i) 128 = true → t.isSet WT_STAT.UNREP m.wid = true) ∧
        (∀ j, j ≠ i → t.mirror j = s.mirror j)) ∧
    (pfld f.payload 2 1 = 2 ∨ pfld f.payload 2 1 = 0xA →
      ∃ t, exec (.rxSubres l f) s = .next t ∧ t.isSet FWD_STAT.RESEND m.entry = true ∧
        (t.fwdSt m.entry).resend = some (match (s.fwdSt m.entry).resend with
          | some r => (r.1, min r.2 (pfld f.payload 8 6))
          | none => (s.clock + usTk * s.get RY_GCFG.RETRY_US, pfld f.payload 8 6)) ∧
        t.ry.mirrors = s.ry.mirrors ∧ RegsKept [RegId.FWD_STAT.at m.entry] s t ∧ Kept [.regs, .links, .ry] s t)) ∧
  (∀ (l : LinkIx) (f : RyFrame) (i : Nat) (m : Mirror) (rest : List (Nat × Mirror)) (s : State), Hears l fSUBRES f s →
    s.forMe f = true → answered f s = (i, m) :: rest → s.get WT_STAT.STATE m.wid ≠ 3 →
    ∃ t, exec (.rxSubres l f) s = .next t ∧ Kept [.links] s t) ∧
  (∀ (f : Fin 1024) (due mseq : Nat) (s : State), s.coldHeld = false → s.cdDown = false →
    (s.fwdSt f).resend = some (due, mseq) → due ≤ s.clock →
    (∀ e ∈ s.mirrorsWhere (fun m => m.entry == f.val && (m.st == 1 || m.replay) && decide (mseq ≤ m.mseq)),
      s.anyBad (0x01E00000 + 128 * e.1) 128 = false ∧ ∀ m, s.mirror e.1 = some m → m.unrep = false) →
    let again := (s.mirrorsWhere fun m => m.entry == f.val && (m.st == 1 || m.replay) && decide (mseq ≤ m.mseq)).filter
      fun e => !(s.wt e.2.wid).replay.contains e.1 && s.get WT_STAT.STATE e.2.wid == 3
    ∃ t, exec (.forwardResend f) s = .next t ∧ (t.fwdSt f).resend = none ∧ t.isSet FWD_STAT.RESEND f = false ∧
      SubmitsSent (again.filterMap fun e => s.mirror e.1) s t ∧
      t.ry.mirrors = s.ry.mirrors ∧ RegsKept [RegId.FWD_STAT.at f] s t ∧ Kept [.regs, .ry, .links, .outs, .ecc] s t) ∧
  (∀ (l : LinkIx) (f : RyFrame) (i : Nat) (m : Mirror) (rest : List (Nat × Mirror)) (s : State), Hears l fDONE f s →
    s.forMe f = true → m.st ≠ 3 → s.isSet FWD_CQ.CQ_EN m.entry = false →
    s.mirrorsWhere (fun m => m.wid == f.src.toNat && m.rq == pfld f.payload 0 2 && m.mseq == pfld f.payload 8 6) =
      (i, m) :: rest →
    ∃ t, exec (.rxDone l f) s = .next t ∧
      t.mirror i = some { m with
        st := 3, horizon := pfld f.payload 32 8, hold := none, ackDue := false
        unrep := m.unrep || s.anyBad (0x01E00000 + 128 * i) 128 } ∧
      t.get QM_CNT.CQ_DROP = (s.get QM_CNT.CQ_DROP + 1) % 65536 ∧ t.raising = s.raising ++ [353]) ∧
  (∀ (l : LinkIx) (f : RyFrame) (i : Nat) (m : Mirror) (rest : List (Nat × Mirror)) (s : State), Hears l fDONE f s →
    s.forMe f = true → m.st = 3 → m.ackDue = true →
    s.mirrorsWhere (fun m => m.wid == f.src.toNat && m.rq == pfld f.payload 0 2 && m.mseq == pfld f.payload 8 6) =
      (i, m) :: rest →
    ∃ t, exec (.rxDone l f) s = .next t ∧ Kept [.links] s t) ∧
  (∀ (l : LinkIx) (f : RyFrame) (s : State), Hears l fDONEACK f s → s.forMe f = true →
    ∃ t, exec (.rxDoneack l f) s = .next t ∧
      t.ry.reports = s.ry.reports.filter (fun r => !(r.q == pfld f.payload 0 2 && r.mseq == pfld f.payload 8 6)) ∧
      t.ry.mirrors = s.ry.mirrors ∧ Kept [.links, .ry] s t) ∧
  (∀ (l : LinkIx) (f : RyFrame) (s : State), Hears l fRESYNC f s → s.forMe f = true → s.isManagerLink l = true →
    s.mirrorLost = false →
    ∃ t, exec (.rxResync l f) s = .next t ∧ t.mm (pfld f.payload 0 2 % 2 ^ 15) = pfld f.payload 8 6 - 1 ∧
      Kept [.links, .mem, .badWords, .ecc] s t) ∧
  (∀ (k : Fin 16384) (m : Mirror) (s : State), s.coldHeld = false → s.cdDown = false → s.mirror k = some m → m.st = 3 →
    m.hold = none → m.horizon + 64 < s.mcount →
    ∃ t, exec (.mirrorRetire k) s = .next t ∧ t.mirror k = none ∧ (∀ j, j ≠ k.val → t.mirror j = s.mirror j) ∧
      RegsKept [RegId.RY_GSTAT.at, RegId.FWD_STAT.at m.entry, RegId.WT_STAT.at m.wid] s t ∧
      Kept [.regs, .ry, .mem, .badWords, .ecc] s t) ∧
  (∀ (w i : Nat) (rest : List Nat) (m : Mirror) (s : State), s.pending = [] → s.coldHeld = false → s.cdDown = false →
    chansQuiet none s → enginesQuiet none s → linksQuiet none s → pinsQuiet s → banksQuiet none s →
    (s.ry.wts.filter fun e => !e.2.replay.isEmpty).map (·.1) = [w] → (s.wt w).replay = i :: rest → s.mirror i = some m →
    s.anyBad (0x01E00000 + 128 * i) 128 = false → s.isSet FWD_STAT.RESEND m.entry = false →
    ∃ t, step s = .next t ∧ t.clock = s.clock + 1 ∧ (t.wt w).replay = rest.filter (· ≠ i) ∧
      (rest.filter (· ≠ i) = [] → t.isSet WT_STAT.REPLAYING w = false) ∧
      (m.unrep = false → t.mirror i = some m ∧ SubmitsSent [m] s t) ∧ (m.unrep = true → 365 ∈ t.raising)) ∧
  (∀ (w : Nat) (s : State), s.pending = [] → s.coldHeld = false → s.cdDown = false →
    chansQuiet none s → enginesQuiet none s → linksQuiet none s → pinsQuiet s → banksQuiet none s →
    (s.ry.wts.filter fun e => !e.2.replay.isEmpty).map (·.1) = [w] →
    (∀ i ∈ (s.wt w).replay, ∃ m, s.mirror i = some m ∧ s.isSet FWD_STAT.RESEND m.entry = true) →
    step s = .next { s with clock := s.clock + 1 })

/-- R297, R298: a worker's events go up at most once per microsecond and source, and the manager keeps the latest; a remote access is
served as the link's origin, and its answer or its timeout ends it. It rests on choices of the model, which are in the log: entry
4 (limits), entry 54 (PCI Express refusals). -/
def Obligations.RemoteEventsAndAccessesComplete : Prop :=
  (∀ (src : SourceIx) (l : Nat) (s : State), s.coldHeld = false → s.cdDown = false → s.ry.evPend.contains src.val = true →
    SMap.get (fun _ => 0) s.ry.evFrom src ≤ s.clock → s.isAdmitted = true → s.isSet RY_GCFG.EVT_FWD = true →
    s.upLink = some l →
    ∃ t p, exec (.eventForward src) s = .next t ∧ t.ry.evPend = s.ry.evPend.filter (· ≠ src.val) ∧
      SMap.get (fun _ => 0) t.ry.evFrom src = s.clock + usTk ∧
      t.outs = s.outs ++ [frameOut l fEVENT (s.lnk l).txNext 0 s.ownSrc p] ∧ pfld p 0 4 = src.val ∧
      Kept [.ry, .links, .outs] s t) ∧
  (∀ (l : LinkIx) (f : RyFrame) (s : State), Hears l fEVENT f s → s.forMe f = true →
    ∃ t, exec (.rxEvent l f) s = .next t ∧
      t.wideAt (aWT_EVT f.src.toNat) =
        pfld f.payload 8 10 + pfld f.payload 0 2 % 512 * 2 ^ 80 + pfld f.payload 4 4 * 2 ^ 96 ∧
      t.raising = s.raising ++ [364] ∧ Kept [.links, .wide, .raising] s t) ∧
  (∀ (l : LinkIx) (f : RyFrame) (s : State), Hears l fRREQ f s → s.forMe f = true → s.isManagerLink l = false →
    ∃ t, exec (.rxRreq l f) s = .next t ∧
      t.outs = s.outs ++ [frameOut l fRRSP (s.lnk l).txNext 0 s.ownSrc
        (leBytes 4 0 ++ leBytes 1 2 ++ leBytes 3 (pfld f.payload 9 1))] ∧ t.mem = s.mem) ∧
  (∀ (l : LinkIx) (f : RyFrame) (r : RegAt) (s : State), Hears l fRREQ f s → s.forMe f = true → s.isManagerLink l = true →
    pfld f.payload 8 1 % 2 = 0 → s.serves (0x110 + l) (pfld f.payload 0 4) false = true →
    regOf (pfld f.payload 0 4) = some r → r.id.readsZero = false →
    ∃ t, exec (.rxRreq l f) s = .next t ∧
      t.outs = s.outs ++ [frameOut l fRRSP (s.lnk l).txNext 0 s.ownSrc
        (leBytes 4 (s.view r (pfld f.payload 0 4)).toNat ++ leBytes 1 0 ++ leBytes 3 (pfld f.payload 9 1))] ∧
      t.mem = s.mem) ∧
  (∀ (l : LinkIx) (f : RyFrame) (tag since : Nat) (s : State), Hears l fRRSP f s → s.forMe f = true →
    s.ry.racc = some (tag, since) → pfld f.payload 5 1 = tag → pfld f.payload 4 1 = 0 → s.isSet RY_RACC_CTRL.WRITE = false →
    ∃ t, exec (.rxRrsp l f) s = .next t ∧ t.get RY_RACC_DATA.DATA = pfld f.payload 0 4 ∧ t.isSet RY_RACC_CTRL.GO = false ∧
      t.get RY_RACC_CTRL.STATUS = 0 ∧ t.ry.racc = none ∧
      RegsKept [RegId.RY_RACC_DATA.at, RegId.RY_RACC_CTRL.at] s t ∧ Kept [.links, .regs, .ry] s t) ∧
  (∀ (tag since : Nat) (s : State), s.coldHeld = false → s.cdDown = false → s.ry.racc = some (tag, since) →
    since + 100 * usTk ≤ s.clock →
    ∃ t, exec .raccTimeout s = .next t ∧ t.isSet RY_RACC_CTRL.GO = false ∧ t.get RY_RACC_CTRL.STATUS = 3 ∧
      t.ry.racc = none ∧ RegsKept [RegId.RY_RACC_CTRL.at] s t ∧ Kept [.regs, .ry] s t)

/-! ## Supervision, resets, boot and re-initialisation -/

/-- The registers that a fault report touches (R372, R377): `FAULT_SUM`, `FAULT_CNT`, `SL_STAT`, and the change log's own when it has no
room. -/
def Sys2Proof.Claims.reportRegs : List Nat :=
  [RegId.FAULT_SUM.at, RegId.FAULT_CNT.at, RegId.SL_STAT.at, RegId.TANSY_CNT.at, RegId.TANSY_STAT.at]

/-- Fault `code` has been reported (R377): its `FAULT_SUM` bit, the last code, the count and the event. -/
structure Sys2Proof.Claims.Reported (code : Nat) (s t : State) : Prop where
  bit : (t.get FAULT_SUM.BITS).testBit (code - 1) = true
  last : t.get FAULT_SUM.LAST = code
  count : t.get FAULT_CNT.FAULTS = (s.get FAULT_CNT.FAULTS + 1) % 65536
  raised : 376 ∈ t.raising

/-- R25, R29, R35, R36, R377, R380: keep-alives each microsecond, a chiplet lost after eight missing answers, the control die lost
after 64 us, the asynchronous speed, the temperatures, a lost bank, and the host watchdog with its actions. A chiplet that fails
while the control die does not work waits for the scan (R379). It rests on choices of the model, which are in the log: entry 4
(limits), entry 5 (measured values), entry 13 (errors of on-chip memory), entry 35 (the end of a control-die loss), entry 39 (the
watchdog), entry 41 (the thermal fault and bank 14), entry 43 (command bits), entry 74 (the row CONTROL_DIE_LOST), entry 99 (a
keep-alive whose answer is missing). -/
def Obligations.SupervisionCompletes : Prop :=
  (∀ (answers : BitVec 8) (s : State), s.coldHeld = false → s.cdDown = false → s.timer tmKeepalive ≤ s.clock →
    ∃ t, exec (.keepalive answers) s = .next t ∧ t.timer tmKeepalive = s.clock + usTk ∧
      (∀ n, n < 8 → s.chipLost n = false → answers.getLsbD n = true →
        t.chip n = { s.chip n with missed := 0, lastKeep := s.clock } ∧ t.get COMMIT_STAT.PATH_UP n = 1) ∧
      (∀ n, n < 8 → s.chipLost n = false → answers.getLsbD n = false →
        t.chip n = { s.chip n with missed := (s.chip n).missed + 1 } ∧ t.get COMMIT_STAT.PATH_UP n = 0) ∧
      (∀ n, s.chipLost n = true → t.chip n = s.chip n) ∧
      RegsKept ((List.range 8).map fun n => RegId.COMMIT_STAT.at n) s t ∧ Kept [.regs, .chips, .timers] s t) ∧
  (∀ (n : ChipletIx) (s : State), s.coldHeld = false → s.cdDown = false → s.chipLost n = false → 8 ≤ (s.chip n).missed →
    ∃ t, exec (.chipletLost n) s = .next t ∧ t.chipLost n = true ∧
      t.get CHIP_STAT.LOST = s.get CHIP_STAT.LOST ||| 2 ^ n.val ∧ t.get COMMIT_STAT.LEVEL n = 0 ∧
      t.get COMMIT_STAT.PATH_UP n = 0 ∧ (t.chip n).fifo = [] ∧ (t.chip n).transit = [] ∧ (t.chip n).aborts = [] ∧
      378 ∈ t.raising ∧ 376 ∈ t.raising ∧ t.get FAULT_SUM.LAST = 4 ∧ t.nvm = s.nvm ∧ t.clock = s.clock) ∧
  (∀ (n : ChipletIx) (s : State), s.coldHeld = false → s.warm = false → s.chipLost n = false → (s.chip n).cdLost = false →
    (s.chip n).lastKeep + 64 * usTk ≤ s.clock →
    ∃ t, exec (.controlDieLost n) s = .next t ∧
      t.chip n = { s.chip n with cdLost := true, cdLostAt := s.clock } ∧
      SMap.get (fun _ => 0) t.cdStamps n = ts80 (s.count n) ∧ t.get COMMIT_STAT.PATH_UP n = 0 ∧
      (∀ m, m ≠ n.val → t.chip m = s.chip m) ∧ (s.badWords = [] → t.mem = s.mem)) ∧
  (∀ (stage : BitVec 12) (s : State), s.coldHeld = false → s.cdDown = false → s.timer tmAsync ≤ s.clock →
    ∃ t, exec (.asyncSpeedUpdate stage) s = .next t ∧ t.get ASYNC_SPEED.STAGE_PS = stage.toNat ∧
      t.get ASYNC_SPEED.VALID = 1 ∧
      t.get ASYNC_SPEED.OVER_LIMIT = (if s.get ASYNC_LIMIT.LIMIT_PS < stage.toNat then 1 else s.get ASYNC_SPEED.OVER_LIMIT) ∧
      t.raising = s.raising ++ (if s.get ASYNC_LIMIT.LIMIT_PS < stage.toNat ∧ s.get ASYNC_SPEED.OVER_LIMIT = 0 ∧
        s.get ASYNC_LIMIT.EVT_EN = 1 then [374] else []) ∧
      t.timer tmAsync = s.clock + 10 * usTk ∧ RegsKept [RegId.ASYNC_SPEED.at] s t ∧
      Kept [.regs, .timers, .asyncOver, .raising] s t) ∧
  (∀ (temps : List Int) (s : State), s.coldHeld = false → s.cdDown = false → s.timer tmTemp ≤ s.clock →
    (∀ n, n < 8 → -128 ≤ temps.getD n 0 ∧ temps.getD n 0 ≤ 85) →
    ∃ t, exec (.chipTempUpdate temps) s = .next t ∧
      (∀ n, n < 8 → s.chipLost n = false → t.temp n = temps.getD n 0) ∧
      (∀ n, n < 8 → s.chipLost n = true → t.temp n = s.temp n) ∧ t.timer tmTemp = s.clock + msTk ∧
      RegsKept ((List.range 8).map fun n => RegId.CHIP_TEMP.at n) s t ∧ Kept [.regs, .timers, .ports] s t) ∧
  (∀ (temps : List Int) (n : Nat) (s : State), s.coldHeld = false → s.cdDown = false → s.timer tmTemp ≤ s.clock →
    n < 8 → s.chipLost n = false → s.temp n ≤ 85 → 85 < temps.getD n 0 → temps.getD n 0 ≤ 127 →
    ∃ t, exec (.chipTempUpdate temps) s = .next t ∧ t.temp n = temps.getD n 0 ∧ Reported 7 s t ∧
      RegsKept (((List.range 8).map fun n => RegId.CHIP_TEMP.at n) ++ reportRegs) s t ∧ t.mem = s.mem) ∧
  (∀ (b : Fin 16) (s : State), s.coldHeld = false → s.cdDown = false → s.bankLost b = false → b.val < 14 →
    ∃ t, exec (.membank b) s = .next t ∧ t.bankLost b = true ∧ Reported 3 s t ∧ 375 ∈ t.raising ∧
      RegsKept (RegId.MEM_BANK_STAT.at :: reportRegs) s t ∧ Kept [.regs, .wide, .raising, .tansyQ, .tansyGap] s t) ∧
  (∀ (b : Fin 16) (s : State), s.coldHeld = false → s.cdDown = false → s.bankLost b = false → 14 ≤ b.val →
    ∃ t, exec (.membank b) s = .next t ∧ t.bankLost b = true ∧ t.get FAULT_SUM.LAST = 3 ∧ 375 ∈ t.raising ∧
      376 ∈ t.raising ∧ t.nvm = s.nvm) ∧
  (∀ (o : Origin) (v : Word) (s : State), s.writes o .WDOG_KICK 0 0 v = true → fieldOf v 0 16 = 0x5AC3 →
    ∃ t, exec (.wdogKick o v) s = .next t ∧ t.wdogOut = false ∧
      t.wdogFrom = (if s.get WDOG_CFG.PERIOD_MS = 0 then none else some s.clock) ∧
      RegsKept [RegId.WDOG_KICK.at] s t ∧ Kept [.regs, .tansyQ, .wdogFrom, .wdogOut] s t) ∧
  (∀ (o : Origin) (v : Word) (s : State), s.writes o .WDOG_KICK 0 0 v = true → fieldOf v 0 16 ≠ 0x5AC3 →
    ∃ t, exec (.wdogKick o v) s = .next t ∧ RegsKept [RegId.WDOG_KICK.at] s t ∧ Kept [.regs, .tansyQ] s t) ∧
  (∀ (o : Origin) (v : Word) (s : State), s.writes o .WDOG_CFG 0 0 v = true →
    ∃ t, exec (.wdogCfgWrite o v) s = .next t ∧ t.get WDOG_CFG.PERIOD_MS = fieldOf v 0 16 ∧
      t.get WDOG_CFG.ACTION = (if fieldOf v 16 2 = 3 then 0 else fieldOf v 16 2) ∧
      t.get WDOG_CFG.EXPIRED = s.get WDOG_CFG.EXPIRED ∧
      t.wdogFrom = (if fieldOf v 0 16 = 0 then none else some s.clock) ∧
      RegsKept [RegId.WDOG_CFG.at] s t ∧ Kept [.regs, .tansyQ, .wdogFrom] s t) ∧
  (∀ (from_ : Nat) (s : State), s.coldHeld = false → s.cdDown = false → s.wdogFrom = some from_ →
    from_ + s.get WDOG_CFG.PERIOD_MS * msTk ≤ s.clock → s.get WDOG_CFG.ACTION = 0 →
    ∃ t, exec .watchdog s = .next t ∧ t.get WDOG_CFG.EXPIRED = 1 ∧ t.wdogFrom = some s.clock ∧ t.wdogOut = true ∧
      Reported 8 s t ∧ 379 ∈ t.raising ∧ RegsKept (RegId.WDOG_CFG.at :: reportRegs) s t ∧
      Kept [.regs, .wide, .raising, .tansyQ, .tansyGap, .wdogFrom, .wdogOut] s t) ∧
  (∀ (from_ : Nat) (s : State), s.coldHeld = false → s.cdDown = false → s.wdogFrom = some from_ →
    from_ + s.get WDOG_CFG.PERIOD_MS * msTk ≤ s.clock → s.get WDOG_CFG.ACTION = 1 →
    ∃ t, exec .watchdog s = .next t ∧ t.get WDOG_CFG.EXPIRED = 1 ∧ t.wdogFrom = none ∧ t.get PORT_MEN_A.MEN = 0 ∧
      379 ∈ t.raising ∧ 376 ∈ t.raising ∧ t.mem = s.mem) ∧
  (∀ (from_ : Nat) (s : State), s.coldHeld = false → s.cdDown = false → s.boot ≠ .sram → s.wdogFrom = some from_ →
    from_ + s.get WDOG_CFG.PERIOD_MS * msTk ≤ s.clock → s.get WDOG_CFG.ACTION = 2 →
    ∃ t, exec .watchdog s = .next t ∧ t.get WDOG_CFG.EXPIRED = 1 ∧ t.warm = true ∧ t.get RST_STAT.CAUSE = 6 ∧
      t.get RST_STAT.WARM_CNT = (s.get RST_STAT.WARM_CNT + 1) % 256) ∧
  (∀ (n : ChipletIx) (s : State), s.coldHeld = false → s.cdDown = true → s.chipLost n = false →
    ∃ t, exec (.chipletLost n) s = .next t ∧
      t.lossFaults = (if (4, n.val) ∈ s.lossFaults then s.lossFaults else s.lossFaults ++ [(4, n.val)]) ∧ Kept [.lossFaults] s t)

/-- A cold reset with cause `cause` (R341, R364, R365, R383): SRDY goes low, and beside the NVM, the cause and its count,
everything is as State.reset has it, with one record in the change log. What waits in the queue and what has gone out are the
model's own. -/
structure Sys2Proof.Claims.ColdStarted (cause : Nat) (s t : State) : Prop where
  cause : t.get RST_STAT.CAUSE = cause
  count : t.get RST_STAT.COLD_CNT = (s.get RST_STAT.COLD_CNT + 1) % 65536
  regs : ∀ a, a ≠ RegId.RST_STAT.at → t.reg a = resetAt a
  log : t.tansyQ.length = 1
  nvm : s.bootCmd = none → s.nvmOp = none → t.nvm = s.nvm ∧ t.eraseCnt = s.eraseCnt
  own : t.pending = s.pending ∧ t.outs = s.outs ++ [.srdy false]
  rest : Kept [.pending, .freeCtr, .regs, .nvm, .eraseCnt, .outs, .tansyQ, .porst, .brown] State.reset t

/-- A warm reset with cause `cause` (R364, R383): what that rung loses. -/
structure Sys2Proof.Claims.WarmStarted (cause : Nat) (s t : State) : Prop where
  warm : t.warm = true
  cause : t.get RST_STAT.CAUSE = cause
  count : t.get RST_STAT.WARM_CNT = (s.get RST_STAT.WARM_CNT + 1) % 256
  engines : ∀ e, e < 256 → (t.eng e).held = none ∧ (t.eng e).staged = [] ∧ t.pc e = 0 ∧ (t.eng e).scratch = (s.eng e).scratch ∧
    (t.eng e).reinitAt = none ∧ t.engState e ≠ esReinit
  arms : ∀ x ∈ t.chans, x.2.armPend = none ∧ x.2.disPend = false
  mailboxes : ∀ o, (t.org o).busy = none ∧ (t.org o).pair = none
  commits : ∀ x, (t.half (x / 2) (x % 2)).pend =
    if (s.half (x / 2) (x % 2)).pendBoot = true ∧ s.get CHIP_STAT.REINIT_BUSY / 2 ^ (x / 16) % 2 = 1 then (s.half (x / 2) (x % 2)).pend
    else none
  reinits : t.reinits = []
  boot : t.boot = if s.boot = .up then .up else .cal
  clock : t.clock = s.clock

/-- R364, R365, R382 to R384: cold resets from the pin, a brown-out and a command; warm resets from the pin and a command, ignored in
step 1 of a cold boot; and the re-initialisation of a chiplet. It rests on choices of the model, which are in the log: entry 4
(limits), entry 11 (reset values of the machinery behind the registers), entry 33 (software cold reset), entry 34 (the RESET
record), entry 35 (the end of a control-die loss), entry 36 (warm reset and queues), entry 37 (order of re-initialisation
refusals), entry 70 (paired rows), entry 94 (registers that a warm reset may keep), entry 103 (the GAP record of a control-die
return), entry 114 (the head of a queue at a warm reset). -/
def Obligations.ResetsComplete : Prop :=
  (∀ (s : State), s.porst = false →
    ∃ t, exec .coldReset s = .next t ∧ ColdStarted 1 s t ∧ t.porst = true ∧ t.brown = s.brown) ∧
  (∀ (s : State), s.brown = false →
    ∃ t, exec .brownOut s = .next t ∧ ColdStarted 5 s t ∧ t.brown = true ∧ t.porst = s.porst) ∧
  (∀ (o : Origin) (v : Word) (s : State), s.writesPair o .RST_CTRL_A 0 (withField v 0 2 2) = true →
    ∃ t, exec (.rstColdCmd o v) s = .next t ∧ ColdStarted 4 s t ∧ t.porst = true ∧ t.brown = false) ∧
  (∀ (s : State), s.porst = true → exec .resetRelease s = .next { s with porst := false, clock := 0 }) ∧
  (∀ (s : State), s.brown = true → exec .brownOutEnd s = .next { s with brown := false, clock := 0 }) ∧
  (∀ (s : State), s.coldHeld = false → s.warm = false → s.boot ≠ .sram →
    ∃ t, exec .warmReset s = .next t ∧ WarmStarted 2 s t) ∧
  (∀ (s : State), s.boot = .sram → exec .warmReset s = .next s) ∧
  (∀ (o : Origin) (v : Word) (s : State), s.writesPair o .RST_CTRL_A 0 (withField v 0 2 1) = true → s.boot ≠ .sram →
    ∃ t, exec (.rstWarmCmd o v) s = .next t ∧ WarmStarted 3 s t) ∧
  (∀ (s : State), s.coldHeld = false → s.warm = true → (∀ n, n < 8 → s.chipLost n = false → (s.chip n).cdLost = false) →
    s.halfFaults = 0 → s.lossFaults = [] →
    ∃ t, exec .warmResetEnd s = .next t ∧ t.warm = false ∧ t.mem = s.mem ∧
      (∀ n, n < 8 → t.chip n = { s.chip n with cdLost := false, lastKeep := s.clock, missed := 0 }) ∧
      t.wdogFrom = (if s.get WDOG_CFG.PERIOD_MS = 0 then none else some s.clock)) ∧
  (∀ (m : Nat) (s : State), s.coldHeld = false → s.warm = true → m < 8 → s.chipLost m = false → (s.chip m).cdLost = true →
    (∀ f ∈ s.lossFaults, f.1 = 2 ∧ f.2 < 256 ∨ f.1 = 4 ∧ f.2 < 8) →
    ∃ t, exec .warmResetEnd s = .next t ∧ t.warm = false ∧ (t.get CHIP_STAT.CD_SEEN).testBit m = true ∧
      t.wideAt aCD_LOSS_TS ≤ SMap.get (fun _ => 0) s.cdStamps m ∧ (t.chip m).cdLost = false ∧ 376 ∈ t.raising ∧
      (t.get FAULT_SUM.BITS).testBit 5 = true ∧ (∀ e, (2, e) ∈ s.lossFaults → t.engState e = esFailed) ∧
      (∀ n, (4, n) ∈ s.lossFaults → t.chipLost n = true)) ∧
  (∀ (o : Origin) (v : Word) (s : State), s.writesPair o .RST_CTRL_A 0 (withField v 0 2 3) = true →
    s.get CHIP_STAT.REINIT_BUSY / 2 ^ fieldOf v 2 3 % 2 = 0 →
    ∃ t, exec (.chipletReinit o v) s = .next t ∧
      t.get CHIP_STAT.REINIT_BUSY = s.get CHIP_STAT.REINIT_BUSY ||| 2 ^ fieldOf v 2 3 ∧
      SMap.get (fun _ => 0) t.chipReinit (fieldOf v 2 3) = s.clock + 1 ∧
      (t.chip (fieldOf v 2 3)).fifo = [] ∧ (t.chip (fieldOf v 2 3)).running = true ∧
      (∀ i h, i < 8 → h < 2 → (t.half (8 * fieldOf v 2 3 + i) h).pend.isSome = true ∧
        (t.half (8 * fieldOf v 2 3 + i) h).committed = (s.half (8 * fieldOf v 2 3 + i) h).committed ∧
        t.halfFailed (8 * fieldOf v 2 3 + i) h = s.halfFailed (8 * fieldOf v 2 3 + i) h) ∧
      (∀ a, linkPage (fieldOf v 2 3) a = true → t.reg a = resetAt a) ∧
      (∀ e ∈ t.parBad, linkPage (fieldOf v 2 3) e.1 = false ∧ e ∈ s.parBad) ∧ t.nvm = s.nvm) ∧
  (∀ (n : ChipletIx) (start : Nat) (s : State), s.coldHeld = false → s.cdDown = false →
    SMap.get (fun _ => 0) s.chipReinit n = start + 1 → s.clock ≤ start + 50 * msTk →
    ∃ t, exec (.chipletReinitDone n true) s = .next t ∧ t.chipOut n = false ∧ t.get COMMIT_STAT.PATH_UP n = 1 ∧
      (t.chip n).missed = 0 ∧ (t.chip n).lastKeep = s.clock ∧ (t.chip n).cdLost = false ∧
      (s.mayRun n = false → ∀ p, p < 1024 → p / 128 = n.val → t.get PORT_STAT.STATE p = psMaster) ∧
      SMap.get (fun _ => 0) t.chipReinit n = 0 ∧ (∀ m, m ≠ n.val → t.chip m = s.chip m) ∧ t.mem = s.mem) ∧
  (∀ (n : ChipletIx) (start : Nat) (s : State), s.coldHeld = false → s.cdDown = false →
    SMap.get (fun _ => 0) s.chipReinit n = start + 1 → start + 50 * msTk ≤ s.clock →
    ∃ t, exec (.chipletReinitDone n false) s = .next t ∧ t.chipLost n = true ∧
      t.get CHIP_STAT.REINIT_BUSY / 2 ^ n.val % 2 = 0 ∧ t.get FAULT_SUM.LAST = 9 ∧ 376 ∈ t.raising ∧
      SMap.get (fun _ => 0) t.chipReinit n = 0 ∧ t.nvm = s.nvm)

/-- The command that a paired write of `v` on `BOOT_CTRL` gives (R369). -/
def Sys2Proof.Claims.bootOf (cmd : Nat) (v : Word) (s : State) : BootCmd where
  cmd := cmd
  slot := fieldOf v 2 1
  src := s.get BOOT_SRC.SRC
  dst := s.get BOOT_DST.DST
  len := s.get BOOT_LEN.LEN
  gen := s.topSlotGen + 1

/-- A boot command is running (R369). -/
structure Sys2Proof.Claims.BootRuns (b : BootCmd) (s t : State) : Prop where
  cmd : t.bootCmd = some b
  busy : t.get BOOT_STAT.BUSY = 1
  reads : t.get BOOT_CTRL_A.CMD = b.cmd
  mem : t.mem = s.mem

/-- A boot command is over with `code` (R369). -/
structure Sys2Proof.Claims.BootOver (code : Nat) (s t : State) : Prop where
  cmd : t.bootCmd = none
  busy : t.get BOOT_STAT.BUSY = 0
  code : t.get BOOT_STAT.LAST_CODE = code
  reads : t.get BOOT_CTRL_A.CMD = 0
  mem : s.badWords = [] → t.mem = s.mem

/-- `bs` is what PROGRAM reads of memory (R28): the bytes that stand there, but in an uncorrectable 64-bit word. -/
def Sys2Proof.Claims.ReadFor (b : BootCmd) (s : State) (bs : List Byte) : Prop :=
  bs.length = b.len ∧
    ∀ i, i < b.len → (0x01400000 + b.src + i) / 8 ∉ s.badWords → bs.getD i 0 = s.byte (0x01400000 + b.src + i)

/-- R266, R366 to R370: each step of the boot, the selection of the edition, and the boot commands with their refusals. It rests on
choices of the model, which are in the log: entry 4 (limits), entry 31 (contents of a calibration bank), entry 38 (an interrupted
boot command), entry 40 (the boot load), entry 55 (an unchanged edition), entry 70 (paired rows), entry 93 (how far NVM work
came). -/
def Obligations.BootCompletes : Prop :=
  (∀ (s : State), s.coldHeld = false → s.boot = .sram → s.cdDown = false →
    exec (.bootSramTestDone 0) s =
      .next { s with boot := .cal, mem := [], badWords := [], ctxBad := [], outs := s.outs ++ [.srdy true] }) ∧
  (∀ (bad : BitVec 16) (s : State), s.coldHeld = false → s.boot = .sram → s.cdDown = false →
    ∃ t, exec (.bootSramTestDone bad) s = .next t ∧ t.boot = .cal ∧
      (∀ b, b < 16 → (t.bankLost b = true ↔ s.bankLost b = true ∨ bad.getLsbD b = true))) ∧
  (∀ (s : State), s.coldHeld = false → s.boot = .cal → s.cdDown = false →
    ∃ t, exec (.bootCalLoaded false) s = .next t ∧ t.boot = .image ∧ t.nvmLost = true ∧ t.get SOR_STAT.SRC = 3 ∧
      Reported 5 s t ∧ t.mem = s.mem) ∧
  (∀ (b : Nat) (s : State), s.coldHeld = false → s.boot = .cal → s.cdDown = false → b < 2 → s.bankValid b = true →
    s.bankValid (1 - b) = false →
    ∃ t, exec (.bootCalLoaded true) s = .next t ∧ t.boot = .image ∧ t.nvmLost = false ∧ t.get SOR_STAT.SRC = b ∧
      t.get NVM_STAT.INUSE = b ∧ t.isSet (nvmValid b) = true ∧ t.isSet (nvmValid (1 - b)) = false ∧
      t.get (nvmGen b) = s.commitGen (bankBase b + bankCommit) ∧
      (∀ x, x < 128 → (t.half (x / 2) (x % 2)).committed =
        recordTrims (s.nvmBytes (bankBase b + 0x1000 + 128 * x) 128) true) ∧ t.mem = s.mem ∧ t.nvm = s.nvm) ∧
  (∀ (s : State), s.coldHeld = false → s.boot = .image → s.cdDown = false → s.nvmLost = false →
    s.slotFits 0 = false → s.slotFits 1 = false →
    ∃ t, exec (.bootImageLoaded true) s = .next t ∧ t.boot = .cores ∧ t.get BOOT_STAT.SRC = 2 ∧ t.mem = s.mem) ∧
  (∀ (answers : Bool) (s : State), s.coldHeld = false → s.boot = .image → s.cdDown = false → s.nvmLost = true →
    ∃ t, exec (.bootImageLoaded answers) s = .next t ∧ t.boot = .cores ∧ t.get BOOT_STAT.SRC = 3 ∧ t.mem = s.mem) ∧
  (∀ (s : State), s.coldHeld = false → s.boot = .image → s.cdDown = false → s.nvmLost = false →
    ∃ t, exec (.bootImageLoaded false) s = .next t ∧ t.boot = .cores ∧ t.get BOOT_STAT.SRC = 3 ∧ t.nvmLost = true ∧ Reported 5 s t ∧
      t.mem = s.mem) ∧
  (∀ (k : Nat) (s : State), s.coldHeld = false → s.boot = .image → s.cdDown = false → s.nvmLost = false → k < 2 →
    s.slotValid k = true → (s.slotFits (1 - k) = false ∨ s.slotGen (1 - k) < s.slotGen k) →
    s.bankLost 0 = false → s.bankLost 10 = false → s.bankLost 11 = false →
    ∃ t, exec (.bootImageLoaded true) s = .next t ∧ t.boot = .cores ∧ t.get BOOT_STAT.SRC = k ∧
      t.get BOOT_STAT.LOADBAD = s.get BOOT_STAT.LOADBAD ∧
      (∀ a, t.byte a =
        if 0x01400000 + (s.slotHead k).progAt ≤ a ∧ a < 0x01400000 + (s.slotHead k).progAt + (s.slotHead k).progLen then
          s.nvmByte (slotBase k + 0x81000 + (a - 0x01400000 - (s.slotHead k).progAt))
        else if 128 * (s.slotHead k).ctxAt ≤ a ∧ a < 128 * (s.slotHead k).ctxAt + (s.slotHead k).ctxLen then
          s.nvmByte (slotBase k + 0x481000 + (a - 128 * (s.slotHead k).ctxAt))
        else s.byte a) ∧
      (s.get EDITION_SEL.ED = 0 → (s.slotHead k).edition = 1 → t.get EDITION_SEL.ED = 1) ∧
      (s.get EDITION_SEL.ED ≠ 0 → t.get EDITION_SEL.ED = s.get EDITION_SEL.ED ∧
        ((s.slotHead k).edition ≠ 0 → t.get VETCH_STAT.LOCKWR_SEEN = 1 ∧ 367 ∈ t.raising ∧
          t.get VETCH_CNT2.LOCKWRS = (s.get VETCH_CNT2.LOCKWRS + 1) % 65536))) ∧
  (∀ (s : State), s.coldHeld = false → s.boot = .cores → s.cdDown = false → s.get EDITION_SEL.ED = 1 →
    s.get REF_STAT.STATE < 2 →
    ∃ t, exec .bootCoreBringup s = .next t ∧ t.boot = .list ∧
      (∀ c, c < 64 → s.chipDead (c / 8) = false → t.get CORE_CTRL.A_PWR c = 1 ∧ t.get CORE_CTRL.B_PWR c = 1 ∧
        t.get CORE_STAT.DRIVE c = 0 ∧
        (∀ h, h < 2 → (t.half c h).pend = some { State.reset.shadowWord c h with search := true } ∧ (t.half c h).pendBoot = true ∧
          (t.half c h).bootBy = some (s.clock + 2 * msTk))) ∧ t.mem = s.mem) ∧
  (∀ (s : State), s.coldHeld = false → s.boot = .list → s.cdDown = false → s.bootWait ≠ 4 → 2 ≤ s.get BOOT_STAT.SRC →
    s.capacityFault = false → s.isSet SL_STAT.SL2_SEEN = false → s.isSet SOR_STAT.ALL_CONV = false →
    ∃ t, exec .bootListApply s = .next t ∧ t.boot = .up ∧ t.get SL_STAT.LEVEL = 1 ∧ t.mem = s.mem) ∧
  (∀ (q : QueueIx) (v : Word) (s : State), s.coldHeld = false → s.boot = .list → s.bootWait ≠ 4 → s.get BOOT_STAT.SRC < 2 →
    (s.slotHead (s.get BOOT_STAT.SRC)).entries = 1 → s.listEntry (s.get BOOT_STAT.SRC) 0 = (RegId.QD_ARG.at q, v) →
    s.writes 0x182 .QD_ARG q 0 v = true →
    ∃ t, exec .bootListApply s = .next t ∧ t.boot = .up ∧ t.reg (RegId.QD_ARG.at q) = v) ∧
  (∀ (v : Word) (s : State), s.coldHeld = false → s.boot = .list → s.cdDown = false → s.bootWait ≠ 4 →
    s.get BOOT_STAT.SRC < 2 → (s.slotHead (s.get BOOT_STAT.SRC)).entries = 1 →
    s.listEntry (s.get BOOT_STAT.SRC) 0 = (RegId.EDITION_SEL.at, v) →
    ∃ t, exec .bootListApply s = .next t ∧ t.boot = .up ∧ t.get BOOT_STAT.LIST_ERR = 1 ∧
      t.reg RegId.EDITION_SEL.at = s.reg RegId.EDITION_SEL.at) ∧
  (∀ (o : Origin) (v : Word) (s : State), s.writes o .EDITION_SEL 0 0 v = true → fieldOf v 0 8 ≤ 1 →
    ∃ t, exec (.editionSelect o v) s = .next t ∧ t.get EDITION_SEL.ED = fieldOf v 0 8 ∧
      RegsKept [RegId.EDITION_SEL.at] s t ∧ Kept [.regs, .tansyQ] s t) ∧
  (∀ (o : Origin) (v : Word) (s : State), s.writes o .EDITION_SEL 0 0 v = true → 1 < fieldOf v 0 8 →
    ∃ t, exec (.editionSelect o v) s = .next t ∧ t.get EDITION_SEL.ED = s.get EDITION_SEL.ED ∧
      t.get EDITION_SEL.ED_BAD = 1 ∧ RegsKept [RegId.EDITION_SEL.at] s t) ∧
  (∀ (o : Origin) (v : Word) (s : State), s.serves o.toNat RegId.EDITION_SEL.at true = true → s.get EDITION_SEL.ED ≠ 0 →
    ∃ t, exec (.editionSelect o v) s = .next t ∧ t.get EDITION_SEL.ED = s.get EDITION_SEL.ED ∧
      t.get VETCH_STAT.LOCKWR_SEEN = 1 ∧ t.get VETCH_CNT2.LOCKWRS = (s.get VETCH_CNT2.LOCKWRS + 1) % 65536 ∧
      t.raising = s.raising ++ [367]) ∧
  (∀ (o : Origin) (v : Word) (s : State), s.writesPair o .BOOT_CTRL_A 0 (withField v 0 2 1) = true →
    s.bootRefused (bootOf 1 v s) (fieldOf v 3 1 == 1) = none →
    ∃ t, exec (.bootErase o v) s = .next t ∧ BootRuns (bootOf 1 v s) s t ∧
      Erased (slotBase (fieldOf v 2 1) + 0x7F0000) (slotBase (fieldOf v 2 1) + slotLen) s t) ∧
  (∀ (o : Origin) (v : Word) (s : State), s.writesPair o .BOOT_CTRL_A 0 (withField v 0 2 2) = true →
    s.bootRefused (bootOf 2 v s) (fieldOf v 3 1 == 1) = none →
    ∃ t, exec (.bootProgram o v) s = .next t ∧ BootRuns (bootOf 2 v s) s t ∧ t.nvm = s.nvm) ∧
  (∀ (o : Origin) (v : Word) (s : State), s.writesPair o .BOOT_CTRL_A 0 (withField v 0 2 3) = true →
    s.bootRefused (bootOf 3 v s) (fieldOf v 3 1 == 1) = none →
    ∃ t, exec (.bootCommit o v) s = .next t ∧ BootRuns (bootOf 3 v s) s t ∧ t.nvm = s.nvm) ∧
  (∀ (o : Origin) (v : Word) (code : Nat) (s : State), s.writesPair o .BOOT_CTRL_A 0 (withField v 0 2 1) = true →
    s.bootRefused (bootOf 1 v s) (fieldOf v 3 1 == 1) = some code →
    ∃ t, exec (.bootErase o v) s = .next t ∧ t.bootCmd = s.bootCmd ∧ t.get BOOT_STAT.REFUSED = 1 ∧
      t.get BOOT_STAT.LAST_CODE = code ∧ t.nvm = s.nvm ∧ t.mem = s.mem) ∧
  (∀ (o : Origin) (v : Word) (code : Nat) (s : State), s.writesPair o .BOOT_CTRL_A 0 (withField v 0 2 2) = true →
    s.bootRefused (bootOf 2 v s) (fieldOf v 3 1 == 1) = some code →
    ∃ t, exec (.bootProgram o v) s = .next t ∧ t.bootCmd = s.bootCmd ∧ t.get BOOT_STAT.REFUSED = 1 ∧
      t.get BOOT_STAT.LAST_CODE = code ∧ t.nvm = s.nvm ∧ t.mem = s.mem) ∧
  (∀ (o : Origin) (v : Word) (code : Nat) (s : State), s.writesPair o .BOOT_CTRL_A 0 (withField v 0 2 3) = true →
    s.bootRefused (bootOf 3 v s) (fieldOf v 3 1 == 1) = some code →
    ∃ t, exec (.bootCommit o v) s = .next t ∧ t.bootCmd = s.bootCmd ∧ t.get BOOT_STAT.REFUSED = 1 ∧
      t.get BOOT_STAT.LAST_CODE = code ∧ t.nvm = s.nvm ∧ t.mem = s.mem) ∧
  (∀ (r : NvmEnd) (b : BootCmd) (s : State), s.coldHeld = false → s.cdDown = false → s.bootCmd = some b → r ≠ .done →
    ∃ t, exec (.bootCmdDone r) s = .next t ∧ BootOver 4 s t ∧ t.nvmLost = (s.nvmLost || r == .silent) ∧
      ∀ a, t.nvmByte a = s.nvmByte a ∨
        (b.cmd = 1 ∧ slotBase b.slot ≤ a ∧ a < slotBase b.slot + slotLen ∧ t.nvmByte a = 0xFF) ∨
        (b.cmd = 2 ∧ ∃ bs, ReadFor b s bs ∧ PartOf (slotBase b.slot + b.dst) bs a t) ∨
        (b.cmd ≠ 1 ∧ b.cmd ≠ 2 ∧
          (PartOf (slotBase b.slot + 0x7FE000) (leBytes 4 (crc32c (s.nvmBytes (slotBase b.slot) b.len))) a t ∨
            PartOf (slotBase b.slot + 0x7FF000)
              ((commitRecord 0x5342434D b.gen b.len (crc32c (s.nvmBytes (slotBase b.slot) b.len))).take 12) a t))) ∧
  (∀ (b : BootCmd) (s : State), s.coldHeld = false → s.cdDown = false → s.bootCmd = some b → b.cmd = 1 →
    ∃ t, exec (.bootCmdDone .done) s = .next t ∧ BootOver 1 s t ∧
      Erased (slotBase b.slot) (slotBase b.slot + 0x7F0000) s t) ∧
  (∀ (b : BootCmd) (s : State), s.coldHeld = false → s.cdDown = false → s.bootCmd = some b → b.cmd = 2 →
    ∃ t bs, exec (.bootCmdDone .done) s = .next t ∧ BootOver 1 s t ∧ ReadFor b s bs ∧
      Programmed (slotBase b.slot + b.dst) bs s t) ∧
  (∀ (b : BootCmd) (s : State), s.coldHeld = false → s.cdDown = false → s.bootCmd = some b → b.cmd = 3 →
    ∃ t, exec (.bootCmdDone .done) s = .next t ∧ BootOver 1 s t ∧
      (∃ u, Programmed (slotBase b.slot + 0x7FE000) (leBytes 4 (crc32c (s.nvmBytes (slotBase b.slot) b.len))) s u ∧
        Programmed (slotBase b.slot + 0x7FF000)
          (commitRecord 0x5342434D b.gen b.len (crc32c (s.nvmBytes (slotBase b.slot) b.len))) u t))

/-- A re-initialisation of function `i` of kind `k` has started (R381): `GO` reads 1 and the limit runs. -/
structure Sys2Proof.Claims.ReinitStarted (k i : Nat) (s t : State) : Prop where
  go : t.get REINIT.GO = 1
  kind : t.get REINIT.KIND = k
  index : t.get REINIT.INDEX = i
  result : t.get REINIT.RESULT = 0
  runs : t.reinits = s.reinits ++ [(k, i, s.clock + s.reinitLimit k i)]
  nvm : t.nvm = s.nvm

/-- R381: a write of `REINIT` re-initialises one function of each kind, or is refused with its code; the result is set within the
limit, or reads failed at it. It rests on choices of the model, which are in the log: entry 4 (limits), entry 37 (order of
re-initialisation refusals), entry 43 (command bits), entry 134 (band searches at a re-initialisation of machine 5), entry 135 (a
re-initialisation with the calibration cache lost). -/
def Obligations.ReinitsComplete : Prop :=
  (∀ (o : Origin) (v : Word) (s : State), s.writes o .REINIT 0 0 (withField (withField v 0 3 0) 13 1 1) = true →
    s.reinitRefused 0 (fieldOf v 3 10) = none →
    ∃ t, exec (.reinitCore o v) s = .next t ∧ ReinitStarted 0 (fieldOf v 3 10) s t ∧
      t.get CORE_CTRL.A_PWR (fieldOf v 3 10) = 1 ∧ t.get CORE_CTRL.B_PWR (fieldOf v 3 10) = 1 ∧
      (t.core (fieldOf v 3 10)).hop = none ∧ t.halfFailed (fieldOf v 3 10) 0 = false ∧
      t.halfFailed (fieldOf v 3 10) 1 = false ∧
      (∀ h, h < 2 → (t.half (fieldOf v 3 10) h).pend.isSome = true ∧
        (t.half (fieldOf v 3 10) h).committed = (s.half (fieldOf v 3 10) h).committed)) ∧
  (∀ (o : Origin) (v : Word) (s : State), s.writes o .REINIT 0 0 (withField (withField v 0 3 1) 13 1 1) = true →
    s.reinitRefused 1 (fieldOf v 3 10) = none →
    ∃ t, exec (.reinitPort o v) s = .next t ∧ ReinitStarted 1 (fieldOf v 3 10) s t ∧
      t.reg (RegId.PORT_CFG.at (fieldOf v 3 10)) = resetAt (RegId.PORT_CFG.at (fieldOf v 3 10)) ∧
      t.get PORT_STAT.STATE (fieldOf v 3 10) = (if s.mayRun (fieldOf v 3 10 / 128) then psWord else psMaster) ∧
      t.reg (RegId.PORT_TRIM.at (fieldOf v 3 10)) = s.reg (RegId.PORT_TRIM.at (fieldOf v 3 10)) ∧
      (s.isSet PORT_LOCK.CEIL_LOCK (fieldOf v 3 10) = true →
        t.reg (RegId.PORT_CEIL.at (fieldOf v 3 10)) = s.reg (RegId.PORT_CEIL.at (fieldOf v 3 10)) ∧
        t.isSet PORT_LOCK.CEIL_LOCK (fieldOf v 3 10) = true)) ∧
  (∀ (o : Origin) (v : Word) (s : State), s.writes o .REINIT 0 0 (withField (withField v 0 3 2) 13 1 1) = true →
    s.reinitRefused 2 (fieldOf v 3 10) = none →
    ∃ t, exec (.reinitEngine o v) s = .next t ∧ ReinitStarted 2 (fieldOf v 3 10) s t ∧
      t.engState (fieldOf v 3 10) = esReinit ∧ t.isSet ENG_CMD.REINIT (fieldOf v 3 10) = true ∧
      (∃ due, (t.eng (fieldOf v 3 10)).reinitAt = some due ∧ s.clock < due ∧ due ≤ s.clock + 2 * usTk) ∧
      (t.eng (fieldOf v 3 10)).held = none ∧ (t.eng (fieldOf v 3 10)).scratch = [] ∧ t.pc (fieldOf v 3 10) = 0) ∧
  (∀ (o : Origin) (v : Word) (s : State), s.writes o .REINIT 0 0 (withField (withField v 0 3 3) 13 1 1) = true →
    s.reinitRefused 3 (fieldOf v 3 10) = none → s.linkState (fieldOf v 3 10) ≠ lsOff →
    ∃ t, exec (.reinitLink o v) s = .next t ∧ ReinitStarted 3 (fieldOf v 3 10) s t ∧
      t.linkState (fieldOf v 3 10) = lsDown ∧ t.reg (RegId.RY_CNT.at (fieldOf v 3 10)) = 0 ∧
      t.reg (RegId.RY_CNT2.at (fieldOf v 3 10)) = 0) ∧
  (∀ (o : Origin) (v : Word) (s : State), s.writes o .REINIT 0 0 (withField (withField v 0 3 4) 13 1 1) = true →
    s.reinitRefused 4 (fieldOf v 3 10) = none →
    ∃ t, exec (.reinitTeaselGroup o v) s = .next t ∧ ReinitStarted 4 (fieldOf v 3 10) s t ∧
      (∀ j, j < 8 → (t.chan (8 * fieldOf v 3 10 + j)).fifo = [] ∧ (t.chan (8 * fieldOf v 3 10 + j)).meas = none ∧
        ((s.chan (8 * fieldOf v 3 10 + j)).cdWait = none →
          (t.chan (8 * fieldOf v 3 10 + j)).cdTable = (s.chan (8 * fieldOf v 3 10 + j)).cdTable))) ∧
  (∀ (o : Origin) (v : Word) (s : State), s.writes o .REINIT 0 0 (withField (withField v 0 3 5) 13 1 1) = true →
    s.reinitRefused 5 (fieldOf v 3 10) = none → fieldOf v 3 10 < 2 → s.calLost = false →
    ∃ t, exec (.reinitSorrel o v) s = .next t ∧ ReinitStarted 5 (fieldOf v 3 10) s t ∧
      (∀ x, x < 128 → ((t.half (x / 2) (x % 2)).inst (fieldOf v 3 10 == 1)).run = none ∧
        (t.half (x / 2) (x % 2)).committed = (s.half (x / 2) (x % 2)).committed.take
          (match s.calSource with
            | some (base, bank) => recordTrims (s.nvmBytes (base + 0x1000 + 128 * x) 128) bank
            | none => {}) (fieldOf v 3 10 == 1))) ∧
  (∀ (o : Origin) (v : Word) (s : State), s.writes o .REINIT 0 0 (withField (withField v 0 3 5) 13 1 1) = true →
    s.reinitRefused 5 (fieldOf v 3 10) = none → fieldOf v 3 10 < 2 → s.calLost = true →
    ∃ t, exec (.reinitSorrel o v) s = .next t ∧ ReinitStarted 5 (fieldOf v 3 10) s t ∧
      (∀ x, x < 128 → ((t.half (x / 2) (x % 2)).inst (fieldOf v 3 10 == 1)).run = none ∧
        (t.half (x / 2) (x % 2)).committed = (s.half (x / 2) (x % 2)).committed)) ∧
  (∀ (o : Origin) (v : Word) (code : Nat) (s : State),
    s.writes o .REINIT 0 0 (withField (withField v 0 3 5) 13 1 1) = true → s.reinitRefused 5 (fieldOf v 3 10) = some code →
    ∃ t, exec (.reinitSorrel o v) s = .next t ∧ t.get REINIT.GO = 0 ∧ t.get REINIT.RESULT = 2 ∧ t.get REINIT.CODE = code ∧
      RegsKept [RegId.REINIT.at] s t ∧ Kept [.regs, .tansyQ] s t) ∧
  (∀ (j k i due : Nat) (s : State), s.coldHeld = false → s.cdDown = false →
    s.reinits[j]? = some (k, i, due) → s.clock ≤ due → (k = 2 → s.engState i ≠ esReinit) →
    ∃ t, exec (.reinitComplete true j) s = .next t ∧ t.get REINIT.GO = 0 ∧ t.get REINIT.RESULT = 1 ∧ t.reinits = s.reinits.eraseIdx j ∧
      RegsKept [RegId.REINIT.at] s t ∧ Kept [.regs, .reinits] s t) ∧
  (∀ (j k i due : Nat) (s : State), s.coldHeld = false → s.cdDown = false →
    s.reinits[j]? = some (k, i, due) → due ≤ s.clock →
    ∃ t, exec (.reinitComplete false j) s = .next t ∧ t.get REINIT.GO = 0 ∧ t.get REINIT.RESULT = 3 ∧ t.reinits = s.reinits.eraseIdx j ∧
      Reported 9 s t ∧ RegsKept (RegId.REINIT.at :: reportRegs) s t ∧
      Kept [.regs, .wide, .raising, .tansyQ, .tansyGap, .reinits] s t)

/-! ## The bus, the change log, the serial slave port, PCI Express and events -/

/-- Origin `o` may reach its mailbox: Vetch works, the access can arrive (R354), it is no engine (R310), and if it is a link, it is the
admitted upstream one (R320). -/
def Sys2Proof.Claims.hasMailbox (o : Origin) (s : State) : Prop :=
  s.cdDown = false ∧ s.busOn o.toNat = true ∧ 256 ≤ o.toNat ∧ s.linkRefused o.toNat = false

/-- Origin `o` may reach its mailbox, and the mailbox is idle (R311). -/
def Sys2Proof.Claims.mailboxIdle (o : Origin) (s : State) : Prop := hasMailbox o s ∧ fieldOf (s.org o.toNat).stat 1 1 = 0

/-- Origin `o`'s mailbox runs a request written as `v` with operation `op`, which will end with `r` (R311): `BUSY` is set, `VALID` is
clear, and the count of requests has risen; no other mailbox has changed. -/
structure Sys2Proof.Claims.Requested (o : Origin) (op : Nat) (v : Word) (r : MbResult) (s t : State) : Prop where
  busy : (t.org o.toNat).busy = some r
  flags : fieldOf (t.org o.toNat).stat 0 2 = 2
  count : fieldOf (t.org o.toNat).stat 16 16 = (fieldOf (s.org o.toNat).stat 16 16 + 1) % 65536
  reads : fieldOf (t.org o.toNat).req 24 4 = op ∧ fieldOf (t.org o.toNat).req 0 24 = fieldOf v 0 24
  data : (t.org o.toNat).data = (s.org o.toNat).data
  others : ∀ k, k ≠ o.toNat → t.org k = s.org k

/-- The bytes of an item that an origin has put into `MB_DATA4` upward, with size code `z` (R189). -/
def Sys2Proof.Claims.mailboxItem (o : Origin) (z : Nat) (s : State) : List Byte :=
  (SMap.getMany (fun _ => 0#32) (s.org o.toNat).data 4 (4 * 2 ^ z)).flatMap fun w => leBytes 4 w.toNat

/-- Queue `q` has accepted an item with payload `body` (R182, R189). -/
structure Sys2Proof.Claims.Appended (q : Nat) (body : List Dword) (s t : State) : Prop where
  item : ∃ j, (t.queue q).items = (s.queue q).items ++ [j] ∧ j.seq = (s.queue q).nextSeq ∧ j.st = .waiting ∧ j.body = body
  seq : (t.queue q).nextSeq = (s.queue q).nextSeq + 1
  level : t.get QD_STAT.LEVEL q = s.get QD_STAT.LEVEL q + s.qEntries q
  count : t.wideAt aQM_ACCEPTED = (s.wideAt aQM_ACCEPTED + 1) % 2 ^ 64
  others : ∀ r, r ≠ q → t.queue r = s.queue r

/-- An access is refused (R322): it is counted and reported, and changes nothing. -/
structure Sys2Proof.Claims.Denied (n : Nat) (s t : State) : Prop where
  count : t.get VETCH_CNT.PERM_DENIED = (s.get VETCH_CNT.PERM_DENIED + n) % 65536
  seen : t.isSet VETCH_STAT.PERMERR_SEEN = true
  raised : t.raising = s.raising ++ List.replicate n 368
  regs : RegsKept [RegId.VETCH_CNT.at, RegId.VETCH_STAT.at] s t
  rest : Kept [.regs, .raising, .tansyQ] s t

/-- A refused access of an engine faults its handler with RACC (R322). -/
def Sys2Proof.Claims.faulted (o : Origin) (s : State) : State := if o.toNat < 256 then handlerFault o.toNat fRACC s else s

/-- R189, R193, R298, R310 to R312, R320: an engine reaches no mailbox, nor does a link that is not the admitted upstream one; mailbox
requests start with what they will answer, a request on a busy mailbox is lost, and a request that completes, a SNAP or another,
writes its words at once, or ends in error where the chiplet of a SNAP has been lost; a remote access starts, or is refused where
its worker cannot be reached. It rests on choices of the model, which are in the log: entry 29 (a host take with a full completion
queue), entry 47 (mailboxes), entry 71 (what a read of an absent chiplet returns in a SNAP). -/
def Obligations.MailboxesComplete : Prop :=
  (∀ (o : Origin) (v : Word) (w : WideVal) (s : State), mailboxIdle o s → s.wideOf (4 * fieldOf v 0 24) = some w →
    s.mayAccess o.toNat (4 * fieldOf v 0 24) false = true → s.snapLost (4 * fieldOf v 0 24) = false →
    ∃ t, exec (.mailboxSnap o v) s = .next t ∧
      Requested o 1 v ⟨0, (List.range 64).map fun i => (i, word32 (w.val % 2 ^ w.width) i)⟩ s t ∧
      Kept [.orgs, .mem, .badWords, .ecc] s t ∧ (s.badWords = [] → s.ecc.weak = [] → Kept [.orgs] s t)) ∧
  (∀ (o : Origin) (v : Word) (w : WideVal) (s : State), mailboxIdle o s → s.wideOf (4 * fieldOf v 0 24) = some w →
    s.mayAccess o.toNat (4 * fieldOf v 0 24) false = false →
    ∃ t, exec (.mailboxSnap o v) s = .next t ∧ Requested o 1 v ⟨2, []⟩ s t ∧
      t.get VETCH_CNT.PERM_DENIED = (s.get VETCH_CNT.PERM_DENIED + 1) % 65536 ∧ t.isSet VETCH_STAT.PERMERR_SEEN = true ∧
      t.raising = s.raising ++ [368] ∧ RegsKept [RegId.VETCH_CNT.at, RegId.VETCH_STAT.at] s t ∧
      Kept [.orgs, .regs, .raising] s t) ∧
  (∀ (o : Origin) (v : Word) (s : State), mailboxIdle o s → s.wideOf (4 * fieldOf v 0 24) = none →
    ∃ t, exec (.mailboxSnap o v) s = .next t ∧ Requested o 1 v ⟨1, []⟩ s t ∧ Kept [.orgs] s t) ∧
  (∀ (o : Origin) (v : Word) (q z : Nat) (s : State), mailboxIdle o s → q = fieldOf v 0 15 → z = fieldOf v 28 2 → z ≠ 3 →
    accepts s q (s.classOf o.toNat) (16 * 2 ^ z) →
    ∃ t, exec (.mailboxSubmit o v) s = .next t ∧ Requested o 2 v ⟨0, resultWords 0 (s.queue q).nextSeq⟩ s t ∧
      Appended q ((dwordsOf (mailboxItem o z s)).drop 1) s t) ∧
  (∀ (o : Origin) (v : Word) (s : State), mailboxIdle o s → fieldOf v 28 2 ≠ 3 → s.accOff = true →
    ∃ t, exec (.mailboxSubmit o v) s = .next t ∧ Requested o 2 v ⟨0, resultWords 6 0⟩ s t ∧ Kept [.orgs] s t) ∧
  (∀ (o : Origin) (v : Word) (q : Nat) (i : Item) (s : State), mailboxIdle o s → q = fieldOf v 0 15 →
    s.isSet QD_CTRL.EN q = true → s.isSet QD_CTRL.HOSTQ q = true → (s.get QD_CTRL.SUBMIT q).testBit (s.classOf o.toNat) = true →
    s.headItem q = some i → s.item q i.seq = some i → i.out = 0 → i.recs = [] → s.verdictDue q i.seq = false → i.mseq = none →
    s.isSet QD_CTRL.CQ_EN q = false →
    ∃ t, exec (.mailboxTake o v) s = .next t ∧
      Requested o 3 v ⟨0, resultWords 0 i.seq ++
        (List.range (i.bytes.length / 4)).map fun k => (4 + k, word32 (leNat i.bytes) k)⟩ s t ∧
      (t.queue q).items = (s.queue q).items.filter (fun j => j.seq != i.seq) ∧ (s.badWords = [] → t.mem = s.mem)) ∧
  (∀ (o : Origin) (v : Word) (q : Nat) (s : State), mailboxIdle o s → q = fieldOf v 0 15 →
    s.isSet QD_CTRL.EN q = true → s.isSet QD_CTRL.HOSTQ q = true → (s.get QD_CTRL.SUBMIT q).testBit (s.classOf o.toNat) = true →
    s.headItem q = none →
    ∃ t, exec (.mailboxTake o v) s = .next t ∧ Requested o 3 v ⟨0, resultWords 7 0⟩ s t ∧ Kept [.orgs] s t) ∧
  (∀ (o : Origin) (v : Word) (x : Instr) (s : State),
    x ∈ [Instr.mailboxSnap o v, .mailboxSubmit o v, .mailboxTake o v] → hasMailbox o s →
    fieldOf (s.org o.toNat).stat 1 1 = 1 →
    ∃ t, exec x s = .next t ∧ t.org o.toNat = { s.org o.toNat with stat := withField (s.org o.toNat).stat 2 1 1 } ∧
      (∀ k, k ≠ o.toNat → t.org k = s.org k) ∧ Kept [.orgs] s t) ∧
  (∀ (o : Origin) (v : Word) (x : Instr) (s : State),
    x ∈ [Instr.mailboxSnap o v, .mailboxSubmit o v, .mailboxTake o v] → o.toNat < 256 → s.cdDown = false →
    exec x s = .next (handlerFault o.toNat fRACC s)) ∧
  (∀ (o : Origin) (v : Word) (x : Instr) (s : State),
    x ∈ [Instr.mailboxSnap o v, .mailboxSubmit o v, .mailboxTake o v] → s.cdDown = false → s.linkRefused o.toNat = true →
    (s.org o.toNat).pair = none → ∃ t, exec x s = .next t ∧ Denied 1 s t ∧ t.outs = s.outs) ∧
  (∀ (o : Origin) (words : List (Nat × Word)) (s : State), s.coldHeld = false → s.cdDown = false →
    (s.org o.toNat).busy = some ⟨0, words⟩ → (words.map (·.1)).Nodup →
    (fieldOf (s.org o.toNat).req 24 4 = 1 → s.snapLost (4 * fieldOf (s.org o.toNat).req 0 24) = false) →
    ∃ t, exec (.mailboxComplete o) s = .next t ∧ (t.org o.toNat).busy = none ∧ fieldOf (t.org o.toNat).stat 0 2 = 1 ∧
      fieldOf (t.org o.toNat).stat 8 4 = 0 ∧
      (∀ k w, (k, w) ∈ words → SMap.get (fun _ => 0#32) (t.org o.toNat).data k = w) ∧
      (∀ k, k ∉ words.map (·.1) →
        SMap.get (fun _ => 0#32) (t.org o.toNat).data k = SMap.get (fun _ => 0#32) (s.org o.toNat).data k) ∧
      (∀ k, k ≠ o.toNat → t.org k = s.org k) ∧ Kept [.orgs] s t) ∧
  (∀ (o : Origin) (words : List (Nat × Word)) (s : State), s.coldHeld = false → s.cdDown = false →
    (s.org o.toNat).busy = some ⟨0, words⟩ → fieldOf (s.org o.toNat).req 24 4 = 1 →
    s.snapLost (4 * fieldOf (s.org o.toNat).req 0 24) = true →
    ∃ t, exec (.mailboxComplete o) s = .next t ∧ (t.org o.toNat).busy = none ∧ fieldOf (t.org o.toNat).stat 0 2 = 0 ∧
      fieldOf (t.org o.toNat).stat 8 4 = 4 ∧ (t.org o.toNat).data = (s.org o.toNat).data ∧ Kept [.orgs] s t) ∧
  (∀ (o : Origin) (r : MbResult) (s : State), s.coldHeld = false → s.cdDown = false → (s.org o.toNat).busy = some r →
    r.err ≠ 0 →
    ∃ t, exec (.mailboxComplete o) s = .next t ∧ (t.org o.toNat).busy = none ∧ fieldOf (t.org o.toNat).stat 0 2 = 0 ∧
      fieldOf (t.org o.toNat).stat 8 4 = r.err % 16 ∧ (t.org o.toNat).data = (s.org o.toNat).data ∧ Kept [.orgs] s t) ∧
  (∀ (o : Origin) (v : Word) (l : Nat) (s : State), s.writes o .RY_RACC_CTRL 0 0 (withField v 9 1 1) = true →
    s.isSet RY_RACC_CTRL.GO = false → s.isTop = true → s.get WT_STAT.STATE (fieldOf v 0 8) = 3 →
    s.get WT_STAT.LINK (fieldOf v 0 8) = l → lsDiscover ≤ s.linkState l →
    ∃ t, exec (.raccGo o v) s = .next t ∧ t.isSet RY_RACC_CTRL.GO = true ∧ t.get RY_RACC_CTRL.STATUS = 0 ∧
      t.ry.racc = some (s.ry.raccTag, s.clock) ∧ t.ry.raccTag = (s.ry.raccTag + 1) % 256 ∧
      t.outs = s.outs ++ [frameOut l fRREQ (s.lnk l).txNext (fieldOf v 0 8) 0
        (leBytes 4 (s.get RY_RACC_ADDR.ADDR) ++ leBytes 4 (s.get RY_RACC_DATA.DATA) ++ leBytes 1 (fieldOf v 8 1) ++
          leBytes 7 s.ry.raccTag)] ∧
      RegsKept [RegId.RY_RACC_CTRL.at] s t ∧ Kept [.regs, .ry, .links, .outs, .tansyQ] s t) ∧
  (∀ (o : Origin) (v : Word) (s : State), s.writes o .RY_RACC_CTRL 0 0 (withField v 9 1 1) = true →
    s.isSet RY_RACC_CTRL.GO = false → (s.isTop = false ∨ s.get WT_STAT.STATE (fieldOf v 0 8) < 3) →
    ∃ t, exec (.raccGo o v) s = .next t ∧ t.isSet RY_RACC_CTRL.GO = false ∧ t.get RY_RACC_CTRL.STATUS = 1 ∧
      RegsKept [RegId.RY_RACC_CTRL.at] s t ∧ Kept [.regs, .tansyQ] s t)

/-- The bits of a register that its table lets a write change (R303). -/
def Sys2Proof.Claims.writableBits (id : RegId) : Word := BitVec.ofNat 32 ((regRow id).rw ||| (regRow id).cnt ||| (regRow id).wo1)

/-- What register (i, j) of a family holds after a direct write of `v`. -/
def Sys2Proof.Claims.written (s : State) (id : RegId) (i j : Nat) (v : Word) : Word :=
  (s.reg (id.at i j) &&& ~~~writableBits id) ||| (v &&& writableBits id)

/-- The change log takes one record of kind `kind` from `o` where the register at `a` has changed (R324), and none where it has not. -/
def Sys2Proof.Claims.Logged (o kind a aux : Nat) (s t : State) : Prop :=
  t.tansyQ = s.tansyQ ++ if t.reg a = s.reg a then [] else [⟨s.mcount, o, kind, a, s.reg a, t.reg a, aux⟩]

/-- The record of a write at alias view `view` of register `r`, where that has changed (R302, R323): the values are those of the whole
register. -/
def Sys2Proof.Claims.AliasLogged (o a view : Nat) (r : RegAt) (s t : State) : Prop :=
  let perm := r.id == .PERM_CLASS || r.id == .ORIGIN_CLASS
  t.tansyQ = s.tansyQ ++ if t.reg a = s.reg a then [] else
    [⟨s.mcount, o, if perm then kPERM else kALIAS, a, s.view r a, t.view r a, if perm then 0 else view⟩]

/-- R227, R302 to R304, R306, R308 to R310, R314, R322 to R324: a direct write stores what its fields take; each alias view changes
its bits; a read returns the register and clears the latched bits whose cause has gone; a write to a reserved address is recorded;
and a refused access changes nothing but for an engine, whose handler it faults. An engine's access to a reserved address is
refused so too: a read makes no access, and a write is recorded still, which is the model's choice (log entry 48). For a register
whose chapter gives a write a further effect, see that chapter's statements. It rests on choices of the model, which are in the
log: entry 42 (order of a write's records), entry 44 (RCC bits), entry 48 (Celil register accesses), entry 75 (the page of the
forwarding table). -/
def Obligations.RegisterAccessesComplete : Prop :=
  (∀ (o : Origin) (a : RegAddr) (v : Word) (id : RegId) (i j : Nat) (s : State), a.toNat = id.at i j →
    regOf a.toNat = some ⟨id, i, j⟩ → hooked id = false → id ≠ .PERM_CLASS → id ≠ .ORIGIN_CLASS → (regRow id).wo1 = 0 →
    s.writes o id i j v = true →
    ∃ t, exec (.registerWrite o a v) s = .next t ∧ t.reg a.toNat = written s id i j v ∧
      Logged o.toNat kWRITE a.toNat 0 s t ∧ RegsKept [a.toNat] s t ∧ Kept [.regs, .tansyQ] s t) ∧
  (∀ (o : Origin) (a : RegAddr) (v : Word) (k : Fin 4) (s : State), a.toNat = RegId.PERM_CLASS.at k →
    s.writes o .PERM_CLASS k 0 v = true →
    ∃ t, exec (.registerWrite o a v) s = .next t ∧ t.reg a.toNat = v ∧ Logged o.toNat kPERM a.toNat 0 s t ∧
      RegsKept [a.toNat] s t ∧ Kept [.regs, .tansyQ] s t) ∧
  (∀ (o : Origin) (a : RegAddr) (v : Word) (s : State), s.cdDown = false → s.busOn o.toNat = true → a.toNat % 4 = 0 →
    ¬ (0x40000 ≤ a.toNat ∧ a.toNat < 0x44000) → (s.org o.toNat).pair = none → s.mayAccess o.toNat a.toNat true = false →
    s.tansyQ.length < 256 →
    ∃ t, exec (.registerWrite o a v) s = .next (faulted o t) ∧ Denied 1 s t ∧
      (if (msixTableAt a.toNat).isSome ∨ (msixPbaAt a.toNat).isSome then t.tansyQ = s.tansyQ
        else ∃ r, t.tansyQ = s.tansyQ ++ [r] ∧ r.kind = kPERMDENY ∧ r.origin = o.toNat ∧ r.addr = a.toNat ∧ r.new = v)) ∧
  (∀ (o : Origin) (a : RegAddr) (id : RegId) (i j : Nat) (s : State), a.toNat = id.at i j →
    regOf a.toNat = some ⟨id, i, j⟩ → id.readsZero = false → s.serves o.toNat a.toNat false = true →
    ∃ t, exec (.registerReadClear o a) s = .next t ∧
      t.outs = s.outs ++ [.readData o.toNat a.toNat (s.view ⟨id, i, j⟩ a.toNat)] ∧
      (∀ b, b < 32 → (t.reg a.toNat).getLsbD b = ((s.reg a.toNat).getLsbD b &&
        !((regRow id).rcc.testBit b && (s.view ⟨id, i, j⟩ a.toNat).getLsbD b && s.causeGone ⟨id, i, j⟩ b))) ∧
      RegsKept [a.toNat, RegId.VETCH_CNT.at] s t ∧ Kept [.regs, .outs] s t) ∧
  (∀ (o : Origin) (a : RegAddr) (id : RegId) (i j : Nat) (s : State), a.toNat = id.at i j →
    regOf a.toNat = some ⟨id, i, j⟩ → id.readsZero = true → s.serves o.toNat a.toNat false = true →
    ∃ t, exec (.registerReadClear o a) s = .next t ∧ t.outs = s.outs ++ [.readData o.toNat a.toNat 0] ∧ Kept [.outs] s t) ∧
  (∀ (o : Origin) (a : RegAddr) (s : State), s.cdDown = false → s.busOn o.toNat = true → a.toNat % 4 = 0 →
    ¬ (0x40000 ≤ a.toNat ∧ a.toNat < 0x44000) → (s.org o.toNat).pair = none → s.mayAccess o.toNat a.toNat false = false →
    (o.toNat < 256 → reservedAt a.toNat = false) →
    ∃ t, exec (.registerReadClear o a) s = .next ((faulted o t).emit (.readData o.toNat a.toNat 0)) ∧ Denied 1 s t ∧
      t.tansyQ = s.tansyQ) ∧
  (∀ (o : Origin) (a : RegAddr) (v : Word) (s : State), s.cdDown = false → o.toNat < 256 →
    (0x40000 ≤ a.toNat ∧ a.toNat < 0x44000 ∨ reservedAt a.toNat = true) →
    (0x40000 ≤ a.toNat ∧ a.toNat < 0x44000 → exec (.registerWrite o a v) s = .next (handlerFault o.toNat fRACC s)) ∧
      exec (.registerReadClear o a) s = .next ((handlerFault o.toNat fRACC s).emit (.readData o.toNat a.toNat 0))) ∧
  (∀ (o : Origin) (a : RegAddr) (v : Word) (s : State), s.cdDown = false → s.busOn o.toNat = true →
    ¬ (0x40000 ≤ a.toNat ∧ a.toNat < 0x44000) →
    reservedAt a.toNat = true → (s.org o.toNat).pair = none → s.mayAccess o.toNat a.toNat true = true → s.tansyQ.length < 256 →
    ∃ t, exec (.registerWrite o a v) s = .next (faulted o t) ∧ t.isSet VETCH_STAT.RSVD_SEEN = true ∧
      t.tansyQ = s.tansyQ ++ [⟨s.mcount, o.toNat, kRSVDWR, a.toNat, 0, v, 0⟩] ∧ RegsKept [RegId.VETCH_STAT.at] s t ∧
      Kept [.regs, .tansyQ] s t) ∧
  (∀ (o : Origin) (a : RegAddr) (v : Word) (id : RegId) (i j : Nat) (s : State), a.toNat = id.at i j →
    regOf a.toNat = some ⟨id, i, j⟩ → a.toNat < 0x02000000 → a.toNat % 0x4000 < 0x1000 →
    ¬ (0x360000 ≤ a.toNat ∧ a.toNat < 0x364000) → hooked id = false →
    s.serves o.toNat a.toNat true = true → s.lockedBy ⟨id, i, j⟩ = false → s.tansyQ.length < 256 → (regRow id).rcc = 0 →
    let bits := v &&& BitVec.ofNat 32 (regRow id).rw
    let done := fun (c : Instr) (view : Nat) (w : Word) =>
      ∃ t, exec c s = .next t ∧ t.reg a.toNat = w ∧ AliasLogged o.toNat a.toNat view ⟨id, i, j⟩ s t ∧
        RegsKept [a.toNat] s t ∧ Kept [.regs, .tansyQ] s t
    done (.aliasSet o a v) 1 (s.reg a.toNat ||| bits) ∧ done (.aliasClear o a v) 2 (s.reg a.toNat &&& ~~~bits) ∧
      done (.aliasToggle o a v) 3 (s.reg a.toNat ^^^ bits)) ∧
  (∀ (o : Origin) (a : RegAddr) (v : Word) (id : RegId) (i j : Nat) (s : State), a.toNat = id.at i j →
    regOf a.toNat = some ⟨id, i, j⟩ → a.toNat < 0x02000000 → a.toNat % 0x4000 < 0x1000 →
    ¬ (0x360000 ≤ a.toNat ∧ a.toNat < 0x364000) → hooked id = false →
    s.serves o.toNat a.toNat true = true → s.tansyQ.length < 256 → (regRow id).rw = 0 →
    ∃ t, exec (.aliasClear o a v) s = .next t ∧
      (∀ b, b < 32 → (t.reg a.toNat).getLsbD b = ((s.reg a.toNat).getLsbD b &&
        !((regRow id).rcc.testBit b && v.getLsbD b && (s.view ⟨id, i, j⟩ a.toNat).getLsbD b && s.causeGone ⟨id, i, j⟩ b))) ∧
      AliasLogged o.toNat a.toNat 2 ⟨id, i, j⟩ s t ∧ RegsKept [a.toNat] s t ∧ Kept [.regs, .tansyQ] s t)

/-- The pair of origin `o`, opened with value `old`, fails with `code` at an access to `a` that writes `new` (R315): it is counted, reported
and recorded, and changes no register of the pair. -/
structure Sys2Proof.Claims.PairFailed (o a why : Nat) (old new : Word) (s t : State) : Prop where
  seen : t.isSet VETCH_STAT.PAIRERR_SEEN = true
  code : t.get VETCH_STAT.LAST_PAIR = why
  count : t.get VETCH_CNT2.PAIRERRS = (s.get VETCH_CNT2.PAIRERRS + 1) % 65536
  raised : t.raising = s.raising ++ [366]
  regs : RegsKept [RegId.VETCH_STAT.at, RegId.VETCH_CNT2.at] s t
  log : t.tansyQ = s.tansyQ ++ [⟨s.mcount, o, kPAIRERR, a, old, new, why⟩]
  rest : Kept [.regs, .raising, .orgs, .tansyQ] s t

/-- The command `x` that the paired write of `u` to register (id, i) is. -/
def Sys2Proof.Claims.pairRow (o : Origin) (v : Word) (w : WorkerIx) (id : RegId) (i : Nat) (u : Word) (x : Instr) : Prop :=
  (id, i, u, x) ∈ [(RegId.RST_CTRL_A, 0, withField v 0 2 1, Instr.rstWarmCmd o v), (.RST_CTRL_A, 0, withField v 0 2 2, .rstColdCmd o v),
    (.RST_CTRL_A, 0, withField v 0 2 3, .chipletReinit o v), (.PORT_MEN_A, 0, v, .portMenWrite o v),
    (.EPOCH_CTRL_A, 0, withField v 2 1 1, .epochArm o v), (.EPOCH_CTRL_A, 0, withField v 2 1 0, .epochDisarm o v),
    (.BOOT_CTRL_A, 0, withField v 0 2 1, .bootErase o v), (.BOOT_CTRL_A, 0, withField v 0 2 2, .bootProgram o v),
    (.BOOT_CTRL_A, 0, withField v 0 2 3, .bootCommit o v), (.NVM_CTRL_A, 0, withField v 0 2 1, .nvmStore o v),
    (.NVM_CTRL_A, 0, withField v 0 2 2, .nvmErase o v), (.WT_CTRL_A, w.val, withField v 0 1 1, .wtEvict o w v),
    (.TEST_CTRL_A, 0, v, .testModeWrite o v)]

/-- R303, R314 to R316, R323, R324: a write of a pair's `_A` opens it, and its complement at the `_B` applies it, once and with its
record: for every paired register it then acts as the command of that register does. A missing, mismatched, expired, open or
foreign pair, and an alias write to a paired register, fails with its code, 1 to 6. The permission lock sets once and for all, and
only class MAINT may set test mode. It rests on choices of the model, which are in the log: entry 42 (order of a write's records),
entry 49 (paired writes), entry 70 (paired rows). -/
def Obligations.PairedWritesComplete : Prop :=
  (∀ (o : Origin) (a : RegAddr) (v : Word) (id : RegId) (i : Nat) (s : State), a.toNat = id.at i →
    regOf a.toNat = some ⟨id, i, 0⟩ → id.isPairA = true → s.serves o.toNat a.toNat true = true →
    s.testBarred o.toNat ⟨id, i, 0⟩ = false →
    ∃ t, exec (.pairOpen o a v) s = .next t ∧ (t.org o.toNat).pair = some (a.toNat, v, 64) ∧
      (∀ k, k ≠ o.toNat → t.org k = s.org k) ∧ Kept [.orgs] s t) ∧
  (∀ (o : Origin) (a : RegAddr) (v pv : Word) (id : RegId) (i pa left : Nat) (s : State), a.toNat = id.at i →
    regOf a.toNat = some ⟨id, i, 0⟩ → id.isPairA = true → s.cdDown = false → s.busOn o.toNat = true →
    s.mayAccess o.toNat a.toNat true = true → s.testBarred o.toNat ⟨id, i, 0⟩ = false → s.barred a.toNat = false →
    (s.org o.toNat).pair = some (pa, pv, left) → s.tansyQ.length < 256 →
    ∃ t, exec (.pairOpen o a v) s = .next t ∧ PairFailed o.toNat a.toNat (if left = 0 then 3 else 4) pv v s t ∧
      (t.org o.toNat).pair = some (a.toNat, v, 64)) ∧
  (∀ (o : Origin) (v : Word) (w : WorkerIx) (id : RegId) (i : Nat) (u : Word) (x : Instr) (a : RegAddr) (s : State),
    pairRow o v w id i u x → a.toNat = id.at i → s.writesPair o id i u = true → (id = .TEST_CTRL_A → s.classOf o.toNat = 3) →
    ∃ m t, exec (.pairOpen o a u) s = .next m ∧ (m.org o.toNat).pair = some (a.toNat, u, 64) ∧
      exec (.pairedWrite o a u) m = .next t ∧ exec x s = .next t) ∧
  (∀ (o : Origin) (a : RegAddr) (v : Word) (id : RegId) (i left : Nat) (s : State), a.toNat = id.at i →
    regOf a.toNat = some ⟨id, i, 0⟩ → id.isPairA = true → id ≠ .PERM_LOCK_A → (id = .TEST_CTRL_A → s.classOf o.toNat = 3) →
    (id = .RST_CTRL_A → fieldOf v 0 2 ≠ 2) → s.cdDown = false → s.busOn o.toNat = true →
    s.mayAccess o.toNat (a.toNat + 4) true = true → s.barred (a.toNat + 4) = false → (s.org o.toNat).pair = some (a.toNat, v, left) →
    left ≠ 0 → (v ^^^ s.reg a.toNat) &&& ~~~(BitVec.ofNat 32 (pairMask id)) = 0 → s.testMode = false → s.frozen a.toNat = false →
    s.tansyQ.length < 256 →
    ∃ t l, exec (.pairedWrite o a v) s = .next t ∧ (t.org o.toNat).pair = none ∧
      t.tansyQ = s.tansyQ ++ ⟨s.mcount, o.toNat, kPAIRED, a.toNat, s.reg a.toNat, v, 0⟩ :: l ∧
      (id = .PORT_MEN_A → t.get PORT_MEN_A.MEN = fieldOf v 0 8) ∧ (id = .TEST_CTRL_A → t.reg a.toNat = v)) ∧
  (∀ (o : Origin) (a : RegAddr) (v : Word) (left : Nat) (s : State), a.toNat = RegId.PERM_LOCK_A.at → s.cdDown = false →
    s.busOn o.toNat = true → s.mayAccess o.toNat (a.toNat + 4) true = true → (s.org o.toNat).pair = some (a.toNat, v, left) → left ≠ 0 →
    s.isSet PERM_LOCK_A.LOCK = false → (v ^^^ s.reg a.toNat) &&& 0xFFFFFFFE#32 = 0 → s.testMode = false →
    s.frozen a.toNat = false → s.tansyQ.length < 256 →
    ∃ t, exec (.pairedWrite o a v) s = .next t ∧ t.reg a.toNat = v ∧ (t.org o.toNat).pair = none ∧
      t.tansyQ = s.tansyQ ++
        (if v.getLsbD 0 then [⟨s.mcount, o.toNat, kLOCKSET, a.toNat, s.reg a.toNat, v, 0⟩] else []) ∧ RegsKept [a.toNat] s t ∧
      Kept [.regs, .orgs, .tansyQ] s t) ∧
  (∀ (o : Origin) (a : RegAddr) (v pv : Word) (id : RegId) (i left : Nat) (s : State), a.toNat = id.at i →
    regOf a.toNat = some ⟨id, i, 0⟩ → id.isPairA = true → (id = .TEST_CTRL_A → s.classOf o.toNat = 3) → s.cdDown = false →
    s.busOn o.toNat = true → s.mayAccess o.toNat (a.toNat + 4) true = true → s.barred (a.toNat + 4) = false →
    (s.org o.toNat).pair = some (a.toNat, pv, left) → left ≠ 0 → pv ≠ v → s.tansyQ.length < 256 →
    ∃ t, exec (.pairedWrite o a v) s = .next t ∧ PairFailed o.toNat (a.toNat + 4) 2 pv (~~~v) s t ∧ (t.org o.toNat).pair = none) ∧
  (∀ (o : Origin) (a : RegAddr) (v pv : Word) (id : RegId) (i pa left : Nat) (s : State), a.toNat = id.at i →
    regOf a.toNat = some ⟨id, i, 0⟩ → id.isPairA = true → (id = .TEST_CTRL_A → s.classOf o.toNat = 3) → s.cdDown = false →
    s.busOn o.toNat = true → s.mayAccess o.toNat (a.toNat + 4) true = true → s.barred (a.toNat + 4) = false →
    (s.org o.toNat).pair = some (pa, pv, left) → left ≠ 0 → pa ≠ a.toNat → s.tansyQ.length < 256 →
    ∃ t, exec (.pairedWrite o a v) s = .next t ∧ PairFailed o.toNat (a.toNat + 4) 5 pv (~~~v) s t ∧ (t.org o.toNat).pair = none) ∧
  (∀ (o : Origin) (a : RegAddr) (v : Word) (id : RegId) (i : Nat) (s : State), a.toNat = id.at i →
    regOf a.toNat = some ⟨id, i, 0⟩ → id.isPairA = true → (id = .TEST_CTRL_A → s.classOf o.toNat = 3) → s.cdDown = false →
    s.busOn o.toNat = true → s.mayAccess o.toNat (a.toNat + 4) true = true → s.barred (a.toNat + 4) = false →
    (s.org o.toNat).pair = none → s.tansyQ.length < 256 →
    ∃ t, exec (.pairedWrite o a v) s = .next t ∧ PairFailed o.toNat (a.toNat + 4) 1 0 (~~~v) s t ∧ (t.org o.toNat).pair = none) ∧
  (∀ (o : Origin) (a : RegAddr) (v : Word) (id : RegId) (i : Nat) (x : Instr) (s : State), a.toNat = id.at i →
    regOf a.toNat = some ⟨id, i, 0⟩ → id.isPairA = true → s.serves o.toNat a.toNat true = true →
    s.testBarred o.toNat ⟨id, i, 0⟩ = false → s.tansyQ.length < 256 → x ∈ [Instr.aliasSet o a v, .aliasClear o a v, .aliasToggle o a v] →
    ∃ t, exec x s = .next t ∧ PairFailed o.toNat a.toNat 6 0 v s t ∧ (t.org o.toNat).pair = none) ∧
  (∀ (o : Origin) (s : State), s.isSet PERM_LOCK_A.LOCK = false →
    s.writesPair o .PERM_LOCK_A 0 (withField (s.reg RegId.PERM_LOCK_A.at) 0 1 1) = true →
    ∃ t, exec (.permLockSet o) s = .next t ∧ t.isSet PERM_LOCK_A.LOCK = true ∧ RegsKept [RegId.PERM_LOCK_A.at] s t ∧
      Kept [.regs, .orgs, .tansyQ] s t) ∧
  (∀ (o : Origin) (s : State), s.isSet PERM_LOCK_A.LOCK = true →
    s.writesPair o .PERM_LOCK_A 0 (withField (s.reg RegId.PERM_LOCK_A.at) 0 1 1) = true →
    ∃ t, exec (.permLockSet o) s = .next t ∧ t.isSet PERM_LOCK_A.LOCK = true ∧ t.isSet VETCH_STAT.LOCKWR_SEEN = true ∧
      t.raising = s.raising ++ [367] ∧ RegsKept [RegId.VETCH_STAT.at, RegId.VETCH_CNT2.at] s t ∧
      Kept [.regs, .orgs, .raising, .tansyQ] s t) ∧
  (∀ (o : Origin) (v : Word) (s : State), s.writesPair o .TEST_CTRL_A 0 v = true → s.classOf o.toNat = 3 →
    ∃ t, exec (.testModeWrite o v) s = .next t ∧ t.reg RegId.TEST_CTRL_A.at = v ∧ RegsKept [RegId.TEST_CTRL_A.at] s t ∧
      Kept [.regs, .orgs, .tansyQ] s t) ∧
  (∀ (o : Origin) (v : Word) (s : State), s.writesPair o .TEST_CTRL_A 0 v = true → 256 ≤ o.toNat → o.toNat < 0x180 →
    s.classOf o.toNat ≠ 3 →
    s.tansyQ.length < 255 →
    ∃ t, exec (.testModeWrite o v) s = .next t ∧ Denied 2 s t) ∧
  (∀ (o : Origin) (v : Word) (s : State), s.writesPair o .TEST_CTRL_A 0 v = true → o.toNat < 256 → s.classOf o.toNat ≠ 3 →
    ∃ t, exec (.testModeWrite o v) s = .next (handlerFault o.toNat fRACC t) ∧ Denied 1 s t)

/-- R317, R318, R325 to R327: the scrubber corrects a copy of three and reports a parity mismatch, which freezes its function; the
oldest staged record goes into the next slot of the ring, is lost there, or is preceded by the GAP record of those lost; and a
write of `TANSY_RD` releases records. It rests on choices of the model, which are in the log: entry 45 (parity and copies), entry
52 (the change log). -/
def Obligations.ScrubberAndChangeLogComplete : Prop :=
  (∀ (a : RegAddr) (v : Word) (r : RegAt) (s : State), s.coldHeld = false → s.cdDown = false → regOf a.toNat = some r →
    s.barred a.toNat = false → r.configuration = true → r.id.isPairB = false → s.threeCopies r = true → v ≠ s.reg a.toNat →
    ∃ t, exec (.cfgparScrub a v) s = .next t ∧ t.get CFGPAR_CNT.CORRECTED = (s.get CFGPAR_CNT.CORRECTED + 1) % 65536 ∧
      RegsKept [RegId.CFGPAR_CNT.at] s t ∧ Kept [.regs] s t) ∧
  (∀ (a : RegAddr) (v : Word) (r : RegAt) (s : State), s.coldHeld = false → s.cdDown = false → regOf a.toNat = some r →
    s.barred a.toNat = false → r.configuration = true → r.id.isPairB = false → s.threeCopies r = false →
    s.badAt a.toNat = none → parityTells (s.reg a.toNat) v = true → s.tansyQ.length < 256 →
    r.id ∉ regIdsEngine → r.id ∉ regIdsQueue →
    ∃ t, exec (.cfgparScrub a v) s = .next t ∧ t.isSet CFGPAR_STAT.MISMATCH = true ∧
      t.get CFGPAR_STAT.LAST_ADDR = a.toNat / 4 ∧ t.isSet VETCH_STAT.CFGPAR_SEEN = true ∧ t.raising = s.raising ++ [369] ∧
      t.frozen a.toNat = true ∧ t.badAt a.toNat = some v ∧ RegsKept [RegId.CFGPAR_STAT.at, RegId.VETCH_STAT.at] s t ∧
      Kept [.regs, .raising, .tansyQ, .parBad] s t) ∧
  (∀ (a : RegAddr) (s : State), s.badAt a.toNat = none → exec (.cfgparScrub a (s.reg a.toNat)) s = .next s) ∧
  (∀ (r : LogRec) (rest : List LogRec) (s : State), s.coldHeld = false → s.cdDown = false → s.boot ≠ .sram →
    s.bankLost 12 = false → s.tansyStopped = false → s.tansyGap = 0 → s.tansyQ = r :: rest → s.isSet TANSY_CFG.MODE = false →
    ∃ t, exec .tansyStore s = .next t ∧ t.tansyQ = rest ∧ WroteMem (tansySlot (s.get TANSY_WR.WR)) ((r.stored s).bytes s.tansySeq) s t ∧
      t.get TANSY_WR.WR = (s.get TANSY_WR.WR + 1) % 65536 ∧ t.tansySeq = s.tansySeq + 1 ∧
      (s.tansyUnrel < 65536 → t.tansyUnrel = s.tansyUnrel + 1 ∧ RegsKept [RegId.TANSY_WR.at] s t) ∧
      (65536 ≤ s.tansyUnrel → t.get TANSY_CNT.OVERWRITTEN = (s.get TANSY_CNT.OVERWRITTEN + 1) % 65536 ∧
        t.isSet TANSY_STAT.WRAPPED = true) ∧
      RegsKept [RegId.TANSY_WR.at, RegId.TANSY_CNT.at, RegId.TANSY_STAT.at] s t ∧
      Kept [.regs, .mem, .badWords, .ecc, .tansyQ, .tansySeq, .tansyUnrel] s t) ∧
  (∀ (r : LogRec) (rest : List LogRec) (s : State), s.coldHeld = false → s.cdDown = false → s.boot ≠ .sram →
    s.bankLost 12 = false → s.tansyStopped = true → s.tansyQ = r :: rest →
    ∃ t, exec .tansyStore s = .next t ∧ t.tansyQ = rest ∧ t.tansyGap = s.tansyGap + 1 ∧
      t.get TANSY_CNT.LOST = (s.get TANSY_CNT.LOST + 1) % 65536 ∧ t.isSet TANSY_STAT.LOST_SEEN = true ∧
      RegsKept [RegId.TANSY_CNT.at, RegId.TANSY_STAT.at] s t ∧ Kept [.regs, .tansyQ, .tansyGap] s t) ∧
  (∀ (s : State), s.coldHeld = false → s.cdDown = false → s.boot ≠ .sram → s.bankLost 12 = false → s.tansyStopped = false →
    s.tansyGap ≠ 0 → s.tansyQ.length < 256 →
    ∃ t, exec .tansyStore s = .next t ∧ t.tansyQ = s.tansyQ ∧ t.tansyGap = 0 ∧ t.raising = s.raising ++ [370] ∧
      WroteMem (tansySlot (s.get TANSY_WR.WR)) ((gapRecord s).bytes s.tansySeq) s t ∧ t.tansySeq = s.tansySeq + 1) ∧
  (∀ (o : Origin) (v : Word) (s : State), s.writes o .TANSY_RD 0 0 v = true → fieldOf v 0 16 ≠ s.get TANSY_WR.WR →
    ∃ t, exec (.tansyRdWrite o v) s = .next t ∧ t.get TANSY_RD.RD = fieldOf v 0 16 ∧ t.isSet TANSY_WR.FULL = false ∧
      t.tansyUnrel = (s.get TANSY_WR.WR + 65536 - fieldOf v 0 16) % 65536 ∧
      RegsKept [RegId.TANSY_RD.at, RegId.TANSY_WR.at] s t ∧ Kept [.regs, .tansyQ, .tansyUnrel] s t) ∧
  (∀ (o : Origin) (v : Word) (s : State), s.writes o .TANSY_RD 0 0 v = true → fieldOf v 0 16 = s.get TANSY_WR.WR →
    ∃ t, exec (.tansyRdWrite o v) s = .next t ∧ t.get TANSY_RD.RD = fieldOf v 0 16 ∧
      t.tansyUnrel = (if s.isSet TANSY_WR.FULL then s.tansyUnrel else 0) ∧
      RegsKept [RegId.TANSY_RD.at] s t ∧ Kept [.regs, .tansyQ, .tansyUnrel] s t)

/-- A frame of opcode `op` with its command byte reaches a slave port that answers (R341). -/
structure Sys2Proof.Claims.Framed (op : Nat) (f : SspFrame) (s : State) : Prop where
  on : s.cdDown = false
  cold : s.coldHeld = false
  ready : s.boot ≠ .sram
  cmd : f.hasCmd = true
  op : f.op = op

/-- The frame has been taken without a reject (R335, R337): counted, with its mode; the status byte has gone out before everything
in `more`, then what its lanes showed, with `data` read, and after a frame that writes or submits SRDY is low until its work is
done. -/
structure Sys2Proof.Claims.Taken (f : SspFrame) (perm short : Bool) (more : List Out) (data : List Byte) (s t : State) : Prop where
  frames : t.get SSP_CNT.FRAMES = (s.get SSP_CNT.FRAMES + 1) % 65536
  mode : t.isSet SSP_STAT.MODE3 = f.mode3
  quad : t.isSet SSP_STAT.QUAD = f.quad
  outs : t.outs = s.outs ++ .sspStatus s.sspStatusByte :: more ++ [.sio (f.driven s.sspStatusByte (s.sspFailEdge f) data)] ++
    if f.op = 2 ∨ f.op = 3 ∨ f.op = 5 then [.srdy false, .srdy true] else []
  ssp : t.ssp = { s.ssp with prevRej := false, prevPerm := perm, prevShort := short }

/-- A read word goes out as `o` with SRDY low until it is there (R337). -/
def Sys2Proof.Claims.waited (o : Out) : List Out := [.srdy false, o, .srdy true]

/-- The frame has been rejected with `code` before any word of it acted (R334); in a warm reset SRDY is low already (R341). -/
structure Sys2Proof.Claims.Rejected (f : SspFrame) (code : Nat) (s t : State) : Prop where
  seen : t.isSet SSP_STAT.REJ_SEEN = true
  last : t.get SSP_STAT.LAST_REJ = code
  count : t.get SSP_CNT.REJECTS = (s.get SSP_CNT.REJECTS + 1) % 65536
  frames : t.get SSP_CNT.FRAMES = (s.get SSP_CNT.FRAMES + 1) % 65536
  viol : t.isSet SSP_STAT.VIOL_SEEN = (s.isSet SSP_STAT.VIOL_SEEN || f.viol)
  raised : t.raising = s.raising ++ [371]
  log : ∃ r, t.tansyQ = s.tansyQ ++ [r] ∧ r.kind = kEVENT ∧ r.origin = oSsp ∧ r.addr = RegId.SSP_STAT.at ∧ r.aux = code
  outs : t.outs = s.outs ++ [.sspStatus s.sspStatusByte, .sio (f.driven s.sspStatusByte (s.sspFailEdge f) [])] ++
    if s.warm then [] else [.srdy false, .srdy true]
  ssp : t.ssp = { s.ssp with prevRej := true, prevPerm := false, prevShort := false }
  regs : RegsKept [RegId.SSP_CNT.at, RegId.SSP_STAT.at] s t
  rest : Kept [.regs, .outs, .ssp, .raising, .tansyQ] s t

/-- The command of a frame of the slave port with opcode `op` (R333). -/
def Sys2Proof.Claims.sspRow (f : SspFrame) (op : Nat) (c : Instr) : Prop :=
  (op, c) ∈ [(0, Instr.sspStatus f), (1, .sspRead f), (2, .sspWrite f), (3, .sspStream f), (4, .sspMemread f), (5, .sspMemwrite f)]

/-- The register at `a` reads its word and nothing else happens: origin `o` is served, and no bit of the register clears on reading. -/
def Sys2Proof.Claims.plainRead (o a : Nat) (s : State) : Prop :=
  s.serves o a false = true ∧ ∃ r, regOf a = some r ∧ r.id.readsZero = false ∧ (regRow r.id).rcc = 0

/-- The word that a plain read returns. -/
def Sys2Proof.Claims.wordAt (a : Nat) (s : State) : Word := match regOf a with | some r => s.view r a | none => 0

/-- R331 to R339, R341, R350: each frame of the serial slave port serves its words, or is rejected with the code of its first failing
check. A WRITE frame whose own words warm-reset the part reports ABORT. It rests on choices of the model, which are in the log:
entry 8 (what the part drives out), entry 53 (frames of the serial slave port), entry 120 (held writes of SM_GPIO), entry 137 (a
frame whose own words reset the part). -/
def Obligations.SlavePortCompletes : Prop :=
  (∀ (f : SspFrame) (s : State), Framed 0 f s → s.sspRejects f = none →
    ∃ t, exec (.sspStatus f) s = .next t ∧ Taken f false false [] [] s t ∧
      t.isSet SSP_STAT.VIOL_SEEN = (s.isSet SSP_STAT.VIOL_SEEN || f.viol) ∧ RegsKept [RegId.SSP_CNT.at, RegId.SSP_STAT.at] s t ∧
      Kept [.regs, .outs, .ssp] s t) ∧
  (∀ (f : SspFrame) (s : State), Framed 1 f s → s.sspRejects f = none →
    (∀ i, i < f.count → plainRead oSsp (f.wordAddr i) s) →
    ∃ t, exec (.sspRead f) s = .next t ∧
      Taken f false false
        ((List.range f.count).flatMap fun i => waited (.readData oSsp (f.wordAddr i) (wordAt (f.wordAddr i) s)))
        ((List.range f.count).flatMap fun i => leBytes 4 (wordAt (f.wordAddr i) s).toNat) s t ∧
      RegsKept [RegId.SSP_CNT.at, RegId.SSP_STAT.at] s t ∧ Kept [.regs, .outs, .ssp] s t) ∧
  (∀ (f : SspFrame) (id : RegId) (i j : Nat) (s : State), Framed 2 f s → s.sspRejects f = none → f.count = 1 →
    f.addr = id.at i j → regOf f.addr = some ⟨id, i, j⟩ → hooked id = false → id ≠ .SSP_STAT → id ≠ .SSP_CNT →
    s.writes 0x101 id i j (f.word 0) = true →
    ∃ t, exec (.sspWrite f) s = .next t ∧ Taken f false false [] [] s t ∧ t.reg f.addr = written s id i j (f.word 0) ∧
      RegsKept [f.addr, RegId.SSP_CNT.at, RegId.SSP_STAT.at] s t ∧ Kept [.regs, .outs, .ssp, .tansyQ] s t) ∧
  (∀ (f : SspFrame) (s : State), Framed 3 f s → s.sspRejects f = none → f.addr < 0x8000 → f.count = s.streamWords f.addr →
    accepts s f.addr (s.classOf oSsp) (4 * f.count) →
    ∃ t, exec (.sspStream f) s = .next t ∧ Taken f false false [] [] s t ∧ t.get SSP_STREAM.QUEUE = f.addr ∧
      t.get SSP_STREAM.ACCEPTED = 1 ∧ t.get SSP_STREAM.LAST_ST = 0 ∧ t.wideAt aSSP_STRSEQ = (s.queue f.addr).nextSeq ∧
      Appended f.addr ((dwordsOf ((List.range f.count).flatMap fun i => leBytes 4 (f.word i).toNat)).drop 1) s t) ∧
  (∀ (f : SspFrame) (s : State), Framed 3 f s → s.sspRejects f = none → f.addr < 0x8000 → f.count ≠ 0 → s.accOff = true →
    ∃ t, exec (.sspStream f) s = .next t ∧ Taken f false true [] [] s t ∧ t.get SSP_STREAM.QUEUE = f.addr ∧
      t.get SSP_STREAM.ACCEPTED = 0 ∧ t.get SSP_STREAM.LAST_ST = 6 ∧ t.isSet SSP_STAT.SHORT_SEEN = true ∧
      t.queues = s.queues ∧ t.mem = s.mem) ∧
  (∀ (f : SspFrame) (s : State), Framed 4 f s → s.sspRejects f = none →
    (∀ i, i < f.count → s.readFails (f.wordAddr i) 4 = false) →
    ∃ t, exec (.sspMemread f) s = .next t ∧
      Taken f false false ((List.range f.count).flatMap fun i => waited (.memData oSsp (f.wordAddr i) (s.bytesAt (f.wordAddr i) 4)))
        ((List.range f.count).flatMap fun i => leBytes 4 (s.word (f.wordAddr i)).toNat) s t ∧
      RegsKept [RegId.SSP_CNT.at, RegId.SSP_STAT.at] s t ∧ Kept [.regs, .outs, .ssp, .ecc] s t) ∧
  (∀ (f : SspFrame) (s : State), Framed 5 f s → s.sspRejects f = none → f.fixed = false → s.tansyQ.length < 256 →
    s.bankLost (bankOf f.addr) = false → s.bankLost (bankOf (f.addr + 4 * f.count - 1)) = false →
    ∃ t, exec (.sspMemwrite f) s = .next t ∧ Taken f false false [] [] s t ∧
      WroteMem f.addr ((List.range f.count).flatMap fun i => leBytes 4 (f.word i).toNat) s t ∧
      RegsKept [RegId.SSP_CNT.at, RegId.SSP_STAT.at] s t ∧ Kept [.regs, .mem, .badWords, .ecc, .outs, .ssp, .tansyQ] s t) ∧
  (∀ (f : SspFrame) (op code : Nat) (c : Instr) (s : State),
    sspRow f op c → Framed op f s → s.sspRejects f = some code → (f.reads = true → sspServed f code = 0) →
    (f.reads = false → sspKept f code = 0) → s.tansyQ.length < 256 →
    ∃ t, exec c s = .next t ∧ Rejected f code s t) ∧
  (∀ (f : SspFrame) (op code : Nat) (c : Instr) (s : State),
    sspRow f op c → s.cdGone = false → s.warm = true → s.boot ≠ .sram → f.hasCmd = true → f.op = op → f.abort.isSome = true →
    s.sspRejects f = some code → s.tansyQ.length < 256 → ∃ t, exec c s = .next t ∧ Rejected f code s t) ∧
  (∀ (f : SspFrame) (s : State), Framed 2 f s → s.sspRejects f = none → f.fixed = false → f.count = 2 →
    f.addr = RegId.RST_CTRL_A.at → f.word 1 = ~~~f.word 0 → fieldOf (f.word 0) 0 2 = 1 →
    s.writesPair 0x101 .RST_CTRL_A 0 (f.word 0) = true →
    ∃ t, exec (.sspWrite f) s = .next t ∧ t.warm = true ∧ t.isSet SSP_STAT.REJ_SEEN = true ∧ t.get SSP_STAT.LAST_REJ = 8 ∧
      t.get SSP_CNT.REJECTS = (s.get SSP_CNT.REJECTS + 1) % 65536 ∧ t.ssp.prevRej = true ∧ 371 ∈ t.raising)

/-- R352 to R356: configuration space reads the values of R353 after a reset; BAR0 serves one or two registers, and BAR2 the memory
that it may reach, in completions that end at 64 B boundaries, with a malformed write discarded; the link trains, is reset, and
goes through D3hot. It rests on choices of the model, which are in the log: entry 8 (what the part drives out), entry 12 (reset
values of the MSI-X table), entry 32 (PCI Express beside the registers), entry 54 (PCI Express refusals), entry 121 (configuration
space of the endpoint). -/
def Obligations.PcieRequestsComplete : Prop :=
  (∀ (r : BarRequest) (s : State), s.coldHeld = false → s.barOn = true → (r.dws = 1 ∨ r.dws = 2) → r.allBytes = true →
    r.addr.toNat % (4 * r.dws) = 0 → r.write = false → (∀ i, i < r.dws → plainRead oPcie (r.addr.toNat + 4 * i) s) →
    ∃ t, exec (.bar0Request r) s = .next t ∧
      t.outs = s.outs ++ (List.range r.dws).map (fun i =>
        .readData oPcie (r.addr.toNat + 4 * i) (wordAt (r.addr.toNat + 4 * i) s)) ∧ Kept [.outs] s t) ∧
  (∀ (r : BarRequest) (v : Word) (id : RegId) (i j : Nat) (s : State), s.coldHeld = false → s.barOn = true → r.dws = 1 →
    r.allBytes = true → r.write = true → r.data = [v] → r.addr.toNat = id.at i j →
    regOf r.addr.toNat = some ⟨id, i, j⟩ → hooked id = false → s.writes 0x100 id i j v = true →
    ∃ t, exec (.bar0Request r) s = .next t ∧ t.reg r.addr.toNat = written s id i j v ∧ RegsKept [r.addr.toNat] s t ∧
      Kept [.regs, .tansyQ] s t) ∧
  (∀ (r : BarRequest) (s : State), s.coldHeld = false → s.barOn = true →
    (r.dws = 0 ∨ 2 < r.dws ∨ r.allBytes = false ∨ r.addr.toNat % (4 * r.dws) ≠ 0) →
    ∃ t, exec (.bar0Request r) s = .next t ∧ t.isSet PCIE_STAT.BAR0_BAD = true ∧
      t.get PCIE_CNT.REFUSED = (s.get PCIE_CNT.REFUSED + 1) % 65536 ∧ t.raising = s.raising ++ [380] ∧
      t.outs = s.outs ++ (if r.write then [] else [.refusedAccess oPcie r.addr.toNat]) ∧
      RegsKept [RegId.PCIE_STAT.at, RegId.PCIE_CNT.at] s t ∧ Kept [.regs, .raising, .outs] s t) ∧
  (∀ (off : BitVec 25) (len : Nat) (s : State), s.coldHeld = false → s.barOn = true →
    (∀ i, i < len → barReads (off.toNat + i) = true) → s.readFails off.toNat len = false →
    ∃ (cs : List (Nat × Nat)) (t : State), exec (.bar2Read off len) s = .next t ∧
      t.outs = s.outs ++ cs.map (fun c => .memData oPcie c.1 (s.bytesAt c.1 c.2)) ∧
      cs.flatMap (fun c => s.bytesAt c.1 c.2) = s.bytesAt off.toNat len ∧
      (∀ c ∈ cs, 0 < c.2 ∧ c.2 ≤ s.maxPayload ∧ ((c.1 + c.2) % 64 = 0 ∨ c.1 + c.2 = off.toNat + len)) ∧
      Kept [.outs, .ecc] s t) ∧
  (∀ (off : BitVec 25) (len : Nat) (s : State), s.coldHeld = false → s.barOn = true →
    (∀ i, i < len → barReads (off.toNat + i) = true) → s.badWords = [] → s.readFails off.toNat len = true →
    ∃ t, exec (.bar2Read off len) s = .next t ∧ t.outs = s.outs ++ [.refusedAccess oPcie off.toNat .abort] ∧
      Kept [.outs, .ecc] s t) ∧
  (∀ (off : BitVec 25) (len i : Nat) (s : State), s.coldHeld = false → s.barOn = true → i < len →
    barReads (off.toNat + i) = false →
    ∃ t, exec (.bar2Read off len) s = .next t ∧ t.isSet PCIE_STAT.BAR2_BAD = true ∧
      t.get PCIE_CNT.REFUSED = (s.get PCIE_CNT.REFUSED + 1) % 65536 ∧ t.raising = s.raising ++ [380] ∧
      t.outs = s.outs ++ [.refusedAccess oPcie off.toNat] ∧
      RegsKept [RegId.PCIE_STAT.at, RegId.PCIE_CNT.at] s t ∧ Kept [.regs, .raising, .outs] s t) ∧
  (∀ (off : BitVec 25) (data : List Byte) (s : State), s.coldHeld = false → s.barOn = true → data ≠ [] →
    tlpPayload off.toNat data.length ≤ s.maxPayload → s.isSet PCIE_CFG.PS_WR = true → 0x01400000 ≤ off.toNat →
    off.toNat + data.length ≤ 0x01800000 →
    s.bankLost 10 = false → s.bankLost 11 = false → s.tansyQ.length < 256 →
    ∃ t, exec (.bar2Write off (data.map some)) s = .next t ∧ WroteMem off.toNat data s t ∧
      t.tansyQ = s.tansyQ ++ [⟨s.mcount, oPcie, kPROGLOAD, off.toNat - 0x01400000, 0, BitVec.ofNat 32 data.length, 0⟩] ∧
      Kept [.mem, .badWords, .ecc, .tansyQ] s t) ∧
  (∀ (off : BitVec 25) (b : Byte) (rest : List (Option Byte)) (s : State), s.coldHeld = false → s.barOn = true →
    tlpPayload off.toNat (rest.length + 1) ≤ s.maxPayload → s.barWrites off.toNat = false → s.tansyQ.length < 256 →
    ∃ t, exec (.bar2Write off (some b :: rest)) s = .next t ∧ t.isSet PCIE_STAT.BAR2_BAD = true ∧
      t.get PCIE_CNT.REFUSED = (s.get PCIE_CNT.REFUSED + 1) % 65536 ∧ t.raising = s.raising ++ [380] ∧
      RegsKept [RegId.PCIE_STAT.at, RegId.PCIE_CNT.at] s t ∧ Kept [.regs, .raising, .tansyQ] s t) ∧
  (∀ (off : BitVec 25) (bs : List (Option Byte)) (s : State), s.coldHeld = false → s.barOn = true →
    s.maxPayload < tlpPayload off.toNat bs.length →
    exec (.bar2Write off bs) s = .next { s with cfg := { s.cfg with aer := s.cfg.aer ||| 0x00040000 } }) ∧
  (∀ (k : EndpointReset) (s : State), s.coldHeld = false →
    ∃ t, exec (.pcieReset k) s = .next t ∧ fieldOf (t.reg RegId.PCIE_STAT.at) 0 9 = 0 ∧
      t.isSet PCIE_STAT.DOWN_SEEN = true ∧ t.get PCIE_CNT.LINKDOWNS = (s.get PCIE_CNT.LINKDOWNS + 1) % 65536 ∧
      t.raising = s.raising ++ [380] ∧ (∀ v, t.vec v = { last := (s.vec v).last, merged := (s.vec v).merged }) ∧ t.bme = false ∧
      t.fnMask = true ∧ (t.org oPcie).pair = none ∧
      t.cfgRead .vendorId = 0x1E5D ∧ t.cfgRead .deviceId = 0x1024 ∧ t.cfgRead .revisionId = 1 ∧ t.cfgRead .classCode = 0x118000 ∧
      t.cfgRead .subsystemVendorId = 0x1E5D ∧ t.cfgRead .subsystemId = 0x1024 ∧
      t.cfgRead .deviceSerialNumber = t.identity % 2 ^ 64 ∧ t.cfgRead .noSoftReset = 1 ∧ t.cfgRead .interruptPin = 0 ∧
      t.cfgRead .maxPayloadSupported = 2 ∧ t.cfgRead .msixTableSize = 383 ∧ t.cfg = State.reset.cfg ∧
      RegsKept [RegId.PCIE_STAT.at, RegId.PCIE_CNT.at] s t ∧
      Kept [.regs, .cfg, .msix, .bme, .fnMask, .orgs, .raising] s t) ∧
  (∀ (speed : Fin 5) (width : Fin 9) (host : HostCfg) (s : State), s.coldHeld = false → s.cdDown = false → speed ≠ 0 →
    width.val ∈ [1, 2, 4, 8] →
    ∃ t, exec (.pcieLinkUp speed width host) s = .next t ∧
      t.cfg = { s.cfg with bar0 := host.bar0, bar2 := host.bar2, mps := host.mps } ∧ t.isSet PCIE_STAT.LINK_UP = true ∧
      t.get PCIE_STAT.SPEED = speed.val ∧ t.get PCIE_STAT.WIDTH = width.val ∧ RegsKept [RegId.PCIE_STAT.at] s t ∧
      Kept [.regs, .cfg] s t) ∧
  (∀ (s : State), s.coldHeld = false → s.cdDown = false → s.isSet PCIE_STAT.LINK_UP = true →
    ∃ t, exec .pcieD3hot s = .next t ∧ t.isSet PCIE_STAT.D3 = true ∧ RegsKept [RegId.PCIE_STAT.at] s t ∧ Kept [.regs] s t) ∧
  (∀ (s : State), s.coldHeld = false → s.cdDown = false → s.isSet PCIE_STAT.D3 = true →
    (∀ v, (s.vec v).pending = false ∧ (s.vec v).merged = false) →
    ∃ t, exec .pcieD3hotExit s = .next t ∧ t.isSet PCIE_STAT.D3 = false ∧ RegsKept [RegId.PCIE_STAT.at] s t ∧
      Kept [.regs] s t) ∧
  (∀ (v : Nat) (x : Vec) (s : State), s.coldHeld = false → s.cdDown = false → s.isSet PCIE_STAT.D3 = true →
    s.msix = [(v, x)] → x.pending = true → x.ctrl.getLsbD 0 = false → s.fnMask = false → s.bme = true → s.vecFree v = true →
    ∃ t, exec .pcieD3hotExit s = .next t ∧ t.isSet PCIE_STAT.D3 = false ∧ t.outs = s.outs ++ [.msix v] ∧
      (t.vec v).pending = false)

/-- The message of vector `v` has gone out (R359). -/
structure Sys2Proof.Claims.Sent (v : Nat) (s t : State) : Prop where
  outs : t.outs = s.outs ++ [.msix v]
  vec : (t.vec v).pending = false ∧ (t.vec v).merged = false ∧ (t.vec v).last = some s.clock
  last : t.msgLast = some s.clock
  others : ∀ k, k ≠ v → t.vec k = s.vec k

/-- R235, R357 to R360, R362: a raise is counted, latched with its tick, and routed to its message and to the manager, the message
waiting in a warm reset; while the control die is lost it does nothing; a held message goes out when its interval ends or its mask
goes. It rests on choices of the model, which are in the log: entry 4 (limits), entry 8 (what the part drives out), entry 12
(reset values of the MSI-X table), entry 32 (PCI Express beside the registers), entry 122 (the window of a merged raise). -/
def Obligations.EventsComplete : Prop :=
  (∀ (i : Nat) (rest : List Nat) (s : State), s.coldHeld = false → s.cdDown = false → s.raising = i :: rest → i < 384 →
    s.isSet EV_ROUTE.MSIX i = false → s.isSet EV_ROUTE.RY i = false →
    ∃ t, exec .eventRaise s = .next t ∧ t.raising = rest ∧
      t.get EV_STAT.STAT (i / 32) = s.get EV_STAT.STAT (i / 32) ||| 2 ^ (i % 32) ∧
      SMap.get (fun _ => 0) t.raises i = (SMap.get (fun _ => 0) s.raises i + 1) % 2 ^ 32 ∧
      SMap.get (fun _ => 0) t.raiseTs i = ts80 s.mcount ∧ RegsKept [RegId.EV_STAT.at (i / 32)] s t ∧
      Kept [.regs, .raising, .raises, .raiseTs, .routedAt] s t) ∧
  (∀ (i v : Nat) (rest : List Nat) (s : State), s.coldHeld = false → s.cdDown = false → s.raising = i :: rest → i < 384 →
    SMap.get (fun _ => 0) s.routedAt i ≠ s.clock + 1 → s.isSet EV_ROUTE.MSIX i = true → s.get EV_ROUTE.VEC i = v →
    s.isSet EV_ROUTE.RY i = false → s.vecHeld v = false → s.vecFree v = true →
    ∃ t, exec .eventRaise s = .next t ∧ t.raising = rest ∧ t.evSet i = true ∧ Sent v s t ∧
      Kept [.regs, .raising, .raises, .raiseTs, .routedAt, .msix, .msgLast, .outs] s t) ∧
  (∀ (i v : Nat) (rest : List Nat) (s : State), s.coldHeld = false → s.cdDown = false → s.raising = i :: rest → i < 384 →
    SMap.get (fun _ => 0) s.routedAt i ≠ s.clock + 1 → s.isSet EV_ROUTE.MSIX i = true → s.get EV_ROUTE.VEC i = v →
    s.isSet EV_ROUTE.RY i = false → s.vecHeld v = true →
    ∃ t, exec .eventRaise s = .next t ∧ t.raising = rest ∧ t.evSet i = true ∧ (t.vec v).pending = true ∧ t.outs = s.outs ∧
      Kept [.regs, .raising, .raises, .raiseTs, .routedAt, .msix] s t) ∧
  (∀ (i : Nat) (rest : List Nat) (s : State), s.coldHeld = false → s.cdDown = false → s.raising = i :: rest → i < 384 →
    SMap.get (fun _ => 0) s.routedAt i ≠ s.clock + 1 → s.isSet EV_ROUTE.MSIX i = false → s.isSet EV_ROUTE.RY i = true →
    s.isTop = false → s.isSet RY_GCFG.EVT_FWD = true → i ∉ s.ry.evPend →
    ∃ t, exec .eventRaise s = .next t ∧ t.raising = rest ∧ t.evSet i = true ∧ t.ry.evPend = s.ry.evPend ++ [i] ∧
      Kept [.regs, .raising, .raises, .raiseTs, .routedAt, .ry] s t) ∧
  (∀ (i v : Nat) (rest : List Nat) (s : State), s.coldHeld = false → s.cdGone = false → s.warm = true → s.raising = i :: rest →
    i < 384 → SMap.get (fun _ => 0) s.routedAt i ≠ s.clock + 1 → s.isSet EV_ROUTE.MSIX i = true → s.get EV_ROUTE.VEC i = v →
    s.isSet EV_ROUTE.RY i = false →
    ∃ t, exec .eventRaise s = .next t ∧ t.raising = rest ∧ t.evSet i = true ∧ (t.vec v).pending = true ∧ t.outs = s.outs ∧
      SMap.get (fun _ => 0) t.raises i = (SMap.get (fun _ => 0) s.raises i + 1) % 2 ^ 32 ∧
      Kept [.regs, .raising, .raises, .raiseTs, .routedAt, .msix] s t) ∧
  (∀ (i : Nat) (rest : List Nat) (s : State), s.coldHeld = false → s.cdGone = false → s.raising = i :: rest → i < 384 →
    SMap.get (fun _ => 0) s.routedAt i = s.clock + 1 →
    ∃ t, exec .eventRaise s = .next t ∧ t.raising = rest ∧ t.evSet i = true ∧
      SMap.get (fun _ => 0) t.raises i = (SMap.get (fun _ => 0) s.raises i + 1) % 2 ^ 32 ∧
      Kept [.regs, .raising, .raises, .raiseTs] s t) ∧
  (∀ (i : Nat) (rest : List Nat) (s : State), s.coldHeld = false → s.cdGone = true → s.raising = i :: rest →
    exec .eventRaise s = .next { s with raising := rest }) ∧
  (∀ (v : VectorIx) (s : State), s.coldHeld = false → s.cdDown = false → (s.vec v).merged = true → s.vecFree v = true →
    s.vecHeld v = false →
    ∃ t, exec (.msixModerationEnd v) s = .next t ∧ Sent v s t ∧ Kept [.msix, .msgLast, .outs] s t) ∧
  (∀ (v : VectorIx) (s : State), s.coldHeld = false → s.cdDown = false → (s.vec v).pending = true → s.fnMask = false →
    s.bme = true → s.barOn = true → s.vecFree v = true →
    ∃ t, exec (.msixUnmask (.vector v)) s = .next t ∧ Sent v s t ∧ (t.vec v).ctrl.getLsbD 0 = false ∧
      Kept [.msix, .msgLast, .outs] s t) ∧
  (∀ (v : Nat) (x : Vec) (s : State), s.coldHeld = false → s.cdDown = false → s.msix = [(v, x)] → x.pending = true →
    x.ctrl.getLsbD 0 = false → s.bme = true → s.isSet PCIE_STAT.LINK_UP = true → s.isSet PCIE_STAT.D3 = false → s.vecFree v = true →
    ∃ t, exec (.msixUnmask .function) s = .next t ∧ t.fnMask = false ∧ Sent v s t ∧
      Kept [.fnMask, .msix, .msgLast, .outs] s t) ∧
  (∀ (v : Nat) (x : Vec) (s : State), s.coldHeld = false → s.cdDown = false → s.msix = [(v, x)] → x.pending = true →
    x.ctrl.getLsbD 0 = false → s.fnMask = false → s.isSet PCIE_STAT.LINK_UP = true → s.isSet PCIE_STAT.D3 = false →
    s.vecFree v = true →
    ∃ t, exec (.msixUnmask .busMaster) s = .next t ∧ t.bme = true ∧ Sent v s t ∧
      Kept [.bme, .msix, .msgLast, .outs] s t)
end

