-- ==== Sys2Proof/Laws/RegMap.lean ====
section
/-! SUPPORT. The register map names each register once: the register at the address of register (i, j) of a family is that register,
and two registers have two addresses. -/

namespace Sys2Proof.Machine

/-- The strides of a family keep its registers apart. -/
def RegRow.ok (w : RegRow) : Bool :=
  decide (0 < w.s2) && decide (w.s2 * w.n2 ≤ w.s1) && decide (0 < w.n1) && decide (0 < w.n2)

/-- The families of a family's region. -/
def regIds (r : RegId) : List RegId := regIdsAt (regRow r).base

/-- The last address of a family. -/
def RegRow.top (w : RegRow) : Nat := w.base + w.s1 * (w.n1 - 1) + w.s2 * (w.n2 - 1)

/-- The end of a region. -/
def regionTop (a : Nat) : Nat :=
  if a < 0x40000 then 0x40000 else if a < 0x80000 then 0x80000 else if a < 0x100000 then 0x100000
  else if a < 0x200000 then 0x200000 else if a < 0x300000 then 0x300000 else if a < 0x310000 then 0x310000
  else if a < 0x400000 then 0x400000 else if a < 0x800000 then 0x800000 else if a < 0x1000000 then 0x1000000
  else if a < 0x2000000 then 0x2000000 else 0x4000000

/-- Every register of a family lies in the region of its base. -/
def RegId.regionOk (r : RegId) : Bool := decide ((regRow r).top < regionTop (regRow r).base)

/-- The addresses of a family. -/
def RegRow.addrs (w : RegRow) : List Nat :=
  (List.range w.n1).flatMap fun i => (List.range w.n2).map fun j => w.base + w.s1 * i + w.s2 * j

/-- No register of family `w` lies in family `r`: the two lie one after the other, or side by side in a common stride, or few enough
to look at each. -/
def RegRow.apart (r w : RegRow) : Bool :=
  decide (w.top < r.base) || decide (r.top < w.base) ||
    (r.s1 == w.s1 && decide (r.base / r.s1 * r.s1 ≤ w.base) && (List.range w.n2).all fun j =>
      let d := (w.base + w.s2 * j + r.s1 - r.base % r.s1) % r.s1
      !(decide (d / r.s2 < r.n2) && d % r.s2 == 0)) ||
    (decide (w.n1 * w.n2 ≤ 64) && w.addrs.all fun a => (r.index a).isNone) ||
    (decide (r.n1 * r.n2 ≤ 64) && r.addrs.all fun a => (w.index a).isNone)

def regAll : List RegId :=
  regIdsGlobal ++ regIdsServices ++ regIdsTime ++ regIdsCore ++ regIdsSorrel ++ regIdsSerial ++ regIdsRyrel ++ regIdsEngine ++
    regIdsTeasel ++ regIdsPort ++ regIdsQueue

theorem rows_ok : (regAll.all fun r => (regRow r).ok && r.regionOk && (regIds r).contains r) = true := by decide +kernel

theorem rows_apart : (regAll.all fun r => (regIds r).all fun q => q == r || (regRow q).apart (regRow r)) = true := by decide +kernel

theorem mem_regAll (r : RegId) : r ∈ regAll := by
  have : regAll.contains r = true := by cases r <;> rfl
  simpa using this

theorem RegId.ok (r : RegId) : 0 < (regRow r).s2 ∧ (regRow r).s2 * (regRow r).n2 ≤ (regRow r).s1 ∧
    (regRow r).top < regionTop (regRow r).base ∧ r ∈ regIds r := by
  have h := List.all_eq_true.mp rows_ok r (mem_regAll r)
  simp only [RegRow.ok, RegId.regionOk, Bool.and_eq_true, decide_eq_true_eq, List.contains_iff_mem] at h
  exact ⟨h.1.1.1.1.1, h.1.1.1.1.2, h.1.2, h.2⟩

/-- Every family has a register. -/
theorem RegId.pos (r : RegId) : 0 < (regRow r).n1 ∧ 0 < (regRow r).n2 := by
  have h := List.all_eq_true.mp rows_ok r (mem_regAll r)
  simp only [RegRow.ok, RegId.regionOk, Bool.and_eq_true, decide_eq_true_eq, List.contains_iff_mem] at h
  exact ⟨h.1.1.1.2, h.1.1.2⟩

/-- The address of a register that the family has. -/
theorem RegId.at_eq (r : RegId) (i j : Nat) (hi : i < (regRow r).n1) (hj : j < (regRow r).n2) :
    r.at i j = (regRow r).base + (regRow r).s1 * i + (regRow r).s2 * j := by
  unfold RegId.at; rw [Nat.mod_eq_of_lt hi, Nat.mod_eq_of_lt hj]

theorem RegId.at_mod (r : RegId) (i j : Nat) : r.at (i % (regRow r).n1) (j % (regRow r).n2) = r.at i j := by
  unfold RegId.at; rw [Nat.mod_mod, Nat.mod_mod]

/-- The index of an address within its own family. -/
theorem RegRow.index_addr (w : RegRow) (h2 : 0 < w.s2) (h1 : w.s2 * w.n2 ≤ w.s1) (i j : Nat) (hi : i < w.n1) (hj : j < w.n2) :
    w.index (w.base + w.s1 * i + w.s2 * j) = some (i, j) := by
  have hlt : w.s2 * j < w.s1 := Nat.lt_of_lt_of_le (Nat.mul_lt_mul_of_pos_left hj h2) h1
  have hd : w.base + w.s1 * i + w.s2 * j - w.base = w.s2 * j + w.s1 * i := by omega
  have hdiv : (w.s2 * j + w.s1 * i) / w.s1 = i := by
    rw [Nat.add_mul_div_left _ _ (by omega), Nat.div_eq_of_lt hlt, Nat.zero_add]
  have hmod : (w.s2 * j + w.s1 * i) % w.s1 = w.s2 * j := by
    rw [Nat.add_mul_mod_self_left, Nat.mod_eq_of_lt hlt]
  unfold RegRow.index
  rw [if_neg (by omega)]
  simp only [hd, hdiv, hmod, Nat.mul_div_cancel_left j h2, Nat.mul_mod_right]
  simp [hi, hj]

/-- An indexed address lies between the family's first and last. -/
theorem RegRow.index_some (w : RegRow) (a i j : Nat) (h : w.index a = some (i, j)) :
    i < w.n1 ∧ j < w.n2 ∧ a = w.base + w.s1 * i + w.s2 * j := by
  unfold RegRow.index at h
  split at h
  · cases h
  · rename_i hb
    simp only at h
    split at h
    · rename_i hc
      simp only [Bool.and_eq_true, decide_eq_true_eq, beq_iff_eq] at hc
      simp only [Option.some.injEq, Prod.mk.injEq] at h
      obtain ⟨h3, h4⟩ := h
      have e1 := Nat.div_add_mod (a - w.base) w.s1
      have e2 := Nat.div_add_mod ((a - w.base) % w.s1) w.s2
      subst h3; subst h4
      exact ⟨hc.1.1, hc.1.2, by omega⟩
    · cases h

theorem RegRow.le_top (w : RegRow) (i j : Nat) (hi : i < w.n1) (hj : j < w.n2) :
    w.base + w.s1 * i + w.s2 * j ≤ w.top := by
  have e1 : w.s1 * i ≤ w.s1 * (w.n1 - 1) := Nat.mul_le_mul_left _ (by omega)
  have e2 : w.s2 * j ≤ w.s2 * (w.n2 - 1) := Nat.mul_le_mul_left _ (by omega)
  unfold RegRow.top; omega

theorem RegRow.apart_index (r w : RegRow) (hr2 : 0 < r.s2) (hr1 : r.s2 * r.n2 ≤ r.s1) (hw2 : 0 < w.s2) (hw1 : w.s2 * w.n2 ≤ w.s1)
    (h : r.apart w = true) (i j : Nat) (hi : i < w.n1) (hj : j < w.n2) :
    r.index (w.base + w.s1 * i + w.s2 * j) = none := by
  by_contra hne
  obtain ⟨⟨x, y⟩, hxy⟩ := Option.ne_none_iff_exists'.mp hne
  obtain ⟨hx, hy, he⟩ := r.index_some _ _ _ hxy
  have t1 := w.le_top i j hi hj
  have t2 := r.le_top x y hx hy
  simp only [RegRow.apart, Bool.or_eq_true, Bool.and_eq_true, decide_eq_true_eq] at h
  rcases h with (((h | h) | h) | h) | h
  · omega
  · omega
  · obtain ⟨⟨hs, hb⟩, hall⟩ := h
    have hs : r.s1 = w.s1 := by simpa using hs
    have hall := List.all_eq_true.mp hall j (by simpa using hj)
    simp only [Bool.not_eq_true', Bool.and_eq_false_iff, decide_eq_false_iff_not, beq_eq_false_iff_ne] at hall
    have hylt : r.s2 * y < r.s1 := Nat.lt_of_lt_of_le (Nat.mul_lt_mul_of_pos_left hy hr2) hr1
    have hpos : 0 < r.s1 := by omega
    have hm := Nat.mod_lt r.base hpos
    have hdm := Nat.div_add_mod r.base r.s1
    have hmod : (w.base + w.s2 * j + r.s1 - r.base % r.s1) % r.s1 = r.s2 * y := by
      have e : w.base + w.s2 * j + r.s1 - r.base % r.s1 + r.s1 * i =
          r.s2 * y + r.s1 * (x + r.base / r.s1 + 1) := by
        rw [← hs] at he
        have : r.s1 * (x + r.base / r.s1 + 1) = r.s1 * x + r.s1 * (r.base / r.s1) + r.s1 := by ring
        rw [this]; omega
      have := congrArg (· % r.s1) e
      simp only [Nat.add_mul_mod_self_left] at this
      rw [this, Nat.mod_eq_of_lt hylt]
    rw [hmod, Nat.mul_div_cancel_left y hr2] at hall
    rcases hall with h | h
    · exact h hy
    · exact h (Nat.mul_mod_right _ _)
  · have := List.all_eq_true.mp h.2 (w.base + w.s1 * i + w.s2 * j)
      (List.mem_flatMap.mpr ⟨i, by simpa using hi, List.mem_map.mpr ⟨j, by simpa using hj, rfl⟩⟩)
    rw [hxy] at this; simp at this
  · have := List.all_eq_true.mp h.2 (r.base + r.s1 * x + r.s2 * y)
      (List.mem_flatMap.mpr ⟨x, by simpa using hx, List.mem_map.mpr ⟨y, by simpa using hy, rfl⟩⟩)
    rw [← he, w.index_addr hw2 hw1 i j hi hj] at this; simp at this

theorem findReg_mem (a : Nat) (i j : Nat) (r : RegId) (hr : (regRow r).index a = some (i, j)) :
    ∀ l : List RegId, r ∈ l → (∀ q ∈ l, q = r ∨ (regRow q).index a = none) → findReg a l = some ⟨r, i, j⟩
  | [], hm, _ => by cases hm
  | q :: l, hm, ha => by
    rcases ha q (by simp) with hq | hq
    · subst hq; simp [findReg, hr]
    · have hne : q ≠ r := by intro h; subst h; rw [hr] at hq; cases hq
      simp only [findReg, hq]
      exact findReg_mem a i j r hr l (by rcases List.mem_cons.mp hm with h | h; exact absurd h.symm hne; exact h)
        (fun x hx => ha x (by simp [hx]))

theorem regIdsAt_between (b a : Nat) (h1 : b ≤ a) (h2 : a < regionTop b) : regIdsAt a = regIdsAt b := by
  unfold regionTop at h2
  unfold regIdsAt
  by_cases c0 : b < 0x40000
  · rw [if_pos c0] at h2; rw [if_pos c0, if_pos h2]
  rw [if_neg c0] at h2; rw [if_neg c0, if_neg (show ¬ a < 0x40000 by omega)]
  by_cases c1 : b < 0x80000
  · rw [if_pos c1] at h2; rw [if_pos c1, if_pos h2]
  rw [if_neg c1] at h2; rw [if_neg c1, if_neg (show ¬ a < 0x80000 by omega)]
  by_cases c2 : b < 0x100000
  · rw [if_pos c2] at h2; rw [if_pos c2, if_pos h2]
  rw [if_neg c2] at h2; rw [if_neg c2, if_neg (show ¬ a < 0x100000 by omega)]
  by_cases c3 : b < 0x200000
  · rw [if_pos c3] at h2; rw [if_pos c3, if_pos h2]
  rw [if_neg c3] at h2; rw [if_neg c3, if_neg (show ¬ a < 0x200000 by omega)]
  by_cases c4 : b < 0x300000
  · rw [if_pos c4] at h2; rw [if_pos c4, if_pos h2]
  rw [if_neg c4] at h2; rw [if_neg c4, if_neg (show ¬ a < 0x300000 by omega)]
  by_cases c5 : b < 0x310000
  · rw [if_pos c5] at h2; rw [if_pos c5, if_pos h2]
  rw [if_neg c5] at h2; rw [if_neg c5, if_neg (show ¬ a < 0x310000 by omega)]
  by_cases c6 : b < 0x400000
  · rw [if_pos c6] at h2; rw [if_pos c6, if_pos h2]
  rw [if_neg c6] at h2; rw [if_neg c6, if_neg (show ¬ a < 0x400000 by omega)]
  by_cases c7 : b < 0x800000
  · rw [if_pos c7] at h2; rw [if_pos c7, if_pos h2]
  rw [if_neg c7] at h2; rw [if_neg c7, if_neg (show ¬ a < 0x800000 by omega)]
  by_cases c8 : b < 0x1000000
  · rw [if_pos c8] at h2; rw [if_pos c8, if_pos h2]
  rw [if_neg c8] at h2; rw [if_neg c8, if_neg (show ¬ a < 0x1000000 by omega)]
  by_cases c9 : b < 0x2000000
  · rw [if_pos c9] at h2; rw [if_pos c9, if_pos h2]
  rw [if_neg c9] at h2; rw [if_neg c9, if_neg (show ¬ a < 0x2000000 by omega)]

/-- Whether a register is one of the worker entry 0, which is none (R392). -/
def RegAt.entry0 (r : RegAt) : Bool :=
  (r.id == .WT_STAT || r.id == .WT_CTRL || r.id == .WT_CTRL_A || r.id == .WT_CTRL_B) && r.i == 0

/-- The register at the address of register (i, j) of a family is that register. -/
theorem regOf_at (r : RegId) (i j : Nat) (hi : i < (regRow r).n1) (hj : j < (regRow r).n2)
    (h0 : (RegAt.mk r i j).entry0 = false) : regOf (r.at i j) = some ⟨r, i, j⟩ := by
  obtain ⟨h2, h1, ht, hm⟩ := r.ok
  have hidx := (regRow r).index_addr h2 h1 i j hi hj
  have hle := (regRow r).le_top i j hi hj
  have hat := r.at_eq i j hi hj
  have hreg : regIdsAt (r.at i j) = regIds r := regIdsAt_between _ _ (by omega) (by omega)
  have hf : findReg (r.at i j) (regIdsAt (r.at i j)) = some ⟨r, i, j⟩ := by
    rw [hreg, hat]
    refine findReg_mem _ i j r hidx _ hm ?_
    intro q hq
    by_cases hqr : q = r
    · exact .inl hqr
    · right
      have ha := List.all_eq_true.mp (List.all_eq_true.mp rows_apart r (mem_regAll r)) q hq
      simp only [Bool.or_eq_true, beq_iff_eq, hqr, false_or] at ha
      obtain ⟨q2, q1, -, -⟩ := q.ok
      exact (regRow q).apart_index (regRow r) q2 q1 h2 h1 ha i j hi hj
  unfold regOf
  rw [hf]
  have : (!((r == .WT_STAT || r == .WT_CTRL || r == .WT_CTRL_A || r == .WT_CTRL_B) && i == 0)) = true := by
    have h0' : ((r == .WT_STAT || r == .WT_CTRL || r == .WT_CTRL_A || r == .WT_CTRL_B) && i == 0) = false := h0
    rw [h0']; rfl
  simp only [Option.filter, this, if_true]

/-- Two registers have two addresses. -/
theorem RegId.at_inj (r q : RegId) (i j x y : Nat) (hi : i < (regRow r).n1) (hj : j < (regRow r).n2) (hx : x < (regRow q).n1)
    (hy : y < (regRow q).n2) (h : r.at i j = q.at x y) : r = q ∧ i = x ∧ j = y := by
  obtain ⟨h2, h1, ht, hm⟩ := r.ok
  obtain ⟨q2, q1, qt, qm⟩ := q.ok
  have hle := (regRow r).le_top i j hi hj
  have qle := (regRow q).le_top x y hx hy
  have hat := r.at_eq i j hi hj
  have qat := q.at_eq x y hx hy
  have e1 : regIdsAt (r.at i j) = regIds r := regIdsAt_between _ _ (by omega) (by omega)
  have e2 : regIdsAt (q.at x y) = regIds q := regIdsAt_between _ _ (by omega) (by omega)
  have hreg : regIds r = regIds q := by rw [← e1, ← e2, h]
  have hidx := (regRow r).index_addr h2 h1 i j hi hj
  have qidx := (regRow q).index_addr q2 q1 x y hx hy
  by_cases hqr : q = r
  · subst hqr
    have e : (regRow q).base + (regRow q).s1 * i + (regRow q).s2 * j = (regRow q).base + (regRow q).s1 * x + (regRow q).s2 * y := by
      rw [← hat, ← qat, h]
    rw [e, qidx] at hidx
    simp only [Option.some.injEq, Prod.mk.injEq] at hidx
    exact ⟨rfl, hidx.1.symm, hidx.2.symm⟩
  · exfalso
    have ha := List.all_eq_true.mp (List.all_eq_true.mp rows_apart r (mem_regAll r)) q (by rw [hreg]; exact qm)
    simp only [Bool.or_eq_true, beq_iff_eq, hqr, false_or] at ha
    have := (regRow q).apart_index (regRow r) q2 q1 h2 h1 ha i j hi hj
    have e : (regRow r).base + (regRow r).s1 * i + (regRow r).s2 * j = (regRow q).base + (regRow q).s1 * x + (regRow q).s2 * y := by
      rw [← hat, ← qat, h]
    rw [e, qidx] at this
    cases this

/-- Registers of two families have two addresses, whatever their numbers. -/
theorem RegId.at_ne (r q : RegId) (i j x y : Nat) (h : r ≠ q) : r.at i j ≠ q.at x y := by
  intro e
  rw [← r.at_mod, ← q.at_mod] at e
  exact h (RegId.at_inj r q _ _ _ _ (Nat.mod_lt _ r.pos.1) (Nat.mod_lt _ r.pos.2) (Nat.mod_lt _ q.pos.1) (Nat.mod_lt _ q.pos.2) e).1

/-- Two registers of one family have two addresses. -/
theorem RegId.at_ne_self (r : RegId) (i j x y : Nat) (hi : i < (regRow r).n1) (hj : j < (regRow r).n2) (hx : x < (regRow r).n1)
    (hy : y < (regRow r).n2) (h : i ≠ x ∨ j ≠ y) : r.at i j ≠ r.at x y := by
  intro e
  have := RegId.at_inj r r i j x y hi hj hx hy e
  omega

end Sys2Proof.Machine
end

