-- ==== Sys2Proof/Laws/Store.lean ====
section
/-! SUPPORT. The laws of the sparse maps: read after write, and the canonical form. -/

namespace Sys2Proof.Machine

variable {α : Type}

@[simp] theorem SMap.get_nil (d : Nat → α) (k : Nat) : SMap.get d [] k = d k := rfl

theorem SMap.get_place (d : Nat → α) (k : Nat) (v : α) (m : SMap α) (h : ∀ e ∈ m, e.1 ≠ k) (j : Nat) :
    SMap.get d (SMap.place k v m) j = if j = k then v else SMap.get d m j := by
  induction m with
  | nil => simp [SMap.place, SMap.get]
  | cons e m ih =>
    obtain ⟨k', v'⟩ := e
    have hk : k' ≠ k := h (k', v') (by simp)
    have ih := ih (fun e he => h e (by simp [he]))
    by_cases h1 : k < k'
    · simp [SMap.place, h1, SMap.get]
    · simp only [SMap.place, h1, if_false, SMap.get, ih]
      by_cases h2 : j = k' <;> simp [h2, hk]

theorem SMap.get_drop (d : Nat → α) (p : Nat → Bool) (m : SMap α) (j : Nat) :
    SMap.get d (m.filter fun e => p e.1) j = if p j then SMap.get d m j else d j := by
  induction m with
  | nil => simp [SMap.get]
  | cons e m ih =>
    obtain ⟨k', v'⟩ := e
    by_cases h1 : p k'
    · simp only [List.filter_cons, h1, if_true, SMap.get, ih]
      by_cases h2 : j = k'
      · subst h2; simp [h1]
      · simp [h2]
    · simp only [List.filter_cons, h1, SMap.get]
      by_cases h2 : j = k'
      · subst h2; simp [h1, ih]
      · simp [h2, ih]

/-- Read after write, at every key. -/
theorem SMap.get_set [DecidableEq α] (d : Nat → α) (m : SMap α) (k : Nat) (v : α) (j : Nat) :
    SMap.get d (SMap.set d m k v) j = if j = k then v else SMap.get d m j := by
  have hf : SMap.get d (m.filter fun e => e.1 ≠ k) j = _ := SMap.get_drop d (fun x => decide (x ≠ k)) m j
  unfold SMap.set
  split
  · rename_i h
    refine hf.trans ?_
    by_cases h2 : j = k <;> simp [h2, h]
  · rw [SMap.get_place d k v _ (by simp), hf]
    by_cases h2 : j = k <;> simp [h2]

@[simp] theorem SMap.get_set_same [DecidableEq α] (d : Nat → α) (m : SMap α) (k : Nat) (v : α) :
    SMap.get d (SMap.set d m k v) k = v := by simp [SMap.get_set]

theorem SMap.get_set_ne [DecidableEq α] (d : Nat → α) (m : SMap α) {k j : Nat} (v : α) (h : j ≠ k) :
    SMap.get d (SMap.set d m k v) j = SMap.get d m j := by simp [SMap.get_set, h]

/-- A cleared range reads as unlisted. -/
theorem SMap.get_clear (d : Nat → α) (lo hi : Nat) (m : SMap α) (j : Nat) :
    SMap.get d (SMap.clear lo hi m) j = if lo ≤ j ∧ j < hi then d j else SMap.get d m j := by
  have := SMap.get_drop d (fun x => decide (x < lo) || decide (hi ≤ x)) m j
  rw [SMap.clear, this]
  by_cases h : lo ≤ j ∧ j < hi
  · rw [if_pos h, if_neg (by simp; omega)]
  · rw [if_neg h, if_pos (by simp; omega)]

/-! ## The canonical form -/

theorem SMap.wfFrom_mono [DecidableEq α] (d : Nat → α) {lo lo' : Nat} (h : lo' ≤ lo) :
    ∀ m : SMap α, SMap.wfFrom d lo m = true → SMap.wfFrom d lo' m = true
  | [], _ => rfl
  | (k, v) :: m, hm => by
    simp only [SMap.wfFrom, Bool.and_eq_true, decide_eq_true_eq] at hm ⊢
    exact ⟨⟨by omega, hm.1.2⟩, hm.2⟩

theorem SMap.wfFrom_filter [DecidableEq α] (d : Nat → α) (p : Nat × α → Bool) :
    ∀ (lo : Nat) (m : SMap α), SMap.wfFrom d lo m = true → SMap.wfFrom d lo (m.filter p) = true
  | _, [], _ => rfl
  | lo, (k, v) :: m, hm => by
    simp only [SMap.wfFrom, Bool.and_eq_true, decide_eq_true_eq] at hm
    have ih := SMap.wfFrom_filter d p (k + 1) m hm.2
    by_cases hp : p (k, v)
    · simp only [List.filter_cons, hp, if_true, SMap.wfFrom, Bool.and_eq_true, decide_eq_true_eq]
      exact ⟨hm.1, ih⟩
    · simp only [List.filter_cons, hp]
      exact SMap.wfFrom_mono d (by omega) _ ih

theorem SMap.wfFrom_place [DecidableEq α] (d : Nat → α) (k : Nat) (v : α) (hv : v ≠ d k) :
    ∀ (lo : Nat) (m : SMap α), lo ≤ k → (∀ e ∈ m, e.1 ≠ k) → SMap.wfFrom d lo m = true →
      SMap.wfFrom d lo (SMap.place k v m) = true
  | lo, [], hlo, _, _ => by simp [SMap.place, SMap.wfFrom, hlo, hv]
  | lo, (k', v') :: m, hlo, hne, hm => by
    simp only [SMap.wfFrom, Bool.and_eq_true, decide_eq_true_eq] at hm
    have hk : k' ≠ k := hne (k', v') (by simp)
    by_cases h : k < k'
    · simp only [SMap.place, h, if_true, SMap.wfFrom, Bool.and_eq_true, decide_eq_true_eq]
      exact ⟨⟨hlo, hv⟩, ⟨by omega, hm.1.2⟩, hm.2⟩
    · simp only [SMap.place, h, if_false, SMap.wfFrom, Bool.and_eq_true, decide_eq_true_eq]
      exact ⟨hm.1, SMap.wfFrom_place d k v hv (k' + 1) m (by omega) (fun e he => hne e (by simp [he])) hm.2⟩

/-- A write keeps the canonical form. -/
theorem SMap.wf_set [DecidableEq α] (d : Nat → α) (m : SMap α) (k : Nat) (v : α) (h : SMap.wf d m = true) :
    SMap.wf d (SMap.set d m k v) = true := by
  have hf := SMap.wfFrom_filter d (fun e => decide (e.1 ≠ k)) 0 m h
  unfold SMap.set
  split
  · exact hf
  · rename_i hv
    exact SMap.wfFrom_place d k v hv 0 _ (by omega) (by simp) hf

theorem SMap.wf_clear [DecidableEq α] (d : Nat → α) (lo hi : Nat) (m : SMap α) (h : SMap.wf d m = true) :
    SMap.wf d (SMap.clear lo hi m) = true := SMap.wfFrom_filter d _ 0 m h

theorem SMap.wf_setMany [DecidableEq α] (d : Nat → α) : ∀ (vs : List α) (m : SMap α) (k : Nat),
    SMap.wf d m = true → SMap.wf d (SMap.setMany d m k vs) = true
  | [], _, _, h => h
  | v :: vs, m, k, h => SMap.wf_setMany d vs _ (k + 1) (SMap.wf_set d m k v h)

/-- Two canonical maps that read alike everywhere are equal data. -/
theorem SMap.ext_wf [DecidableEq α] (d : Nat → α) : ∀ (lo : Nat) (m n : SMap α), SMap.wfFrom d lo m = true →
    SMap.wfFrom d lo n = true → (∀ j, lo ≤ j → SMap.get d m j = SMap.get d n j) → m = n
  | _, [], [], _, _, _ => rfl
  | lo, [], (k, v) :: n, _, hn, h => by
    simp only [SMap.wfFrom, Bool.and_eq_true, decide_eq_true_eq] at hn
    have := h k hn.1.1
    simp [SMap.get] at this
    exact absurd this.symm hn.1.2
  | lo, (k, v) :: m, [], hm, _, h => by
    simp only [SMap.wfFrom, Bool.and_eq_true, decide_eq_true_eq] at hm
    have := h k hm.1.1
    simp [SMap.get] at this
    exact absurd this hm.1.2
  | lo, (k, v) :: m, (k', v') :: n, hm, hn, h => by
    simp only [SMap.wfFrom, Bool.and_eq_true, decide_eq_true_eq] at hm hn
    have below : ∀ (l : SMap α) (b j : Nat), SMap.wfFrom d b l = true → j < b → SMap.get d l j = d j := by
      intro l
      induction l with
      | nil => intros; rfl
      | cons e l ih =>
        intro b j hl hj
        obtain ⟨x, y⟩ := e
        simp only [SMap.wfFrom, Bool.and_eq_true, decide_eq_true_eq] at hl
        rw [SMap.get, if_neg (by omega)]
        exact ih (x + 1) j hl.2 (by omega)
    have hk : k = k' := by
      rcases Nat.lt_trichotomy k k' with hlt | heq | hgt
      · have h1 := h k hm.1.1
        rw [SMap.get, if_pos rfl, SMap.get, if_neg (by omega), below n (k' + 1) k hn.2 (by omega)] at h1
        exact absurd h1 hm.1.2
      · exact heq
      · have h1 := h k' hn.1.1
        rw [SMap.get, if_neg (by omega), below m (k + 1) k' hm.2 (by omega), SMap.get, if_pos rfl] at h1
        exact absurd h1.symm hn.1.2
    subst hk
    have hv : v = v' := by simpa [SMap.get] using h k hm.1.1
    subst hv
    have := SMap.ext_wf d (k + 1) m n hm.2 hn.2 (fun j hj => by
      have h1 := h j (by omega)
      rwa [SMap.get, if_neg (by omega), SMap.get, if_neg (by omega)] at h1)
    rw [this]

end Sys2Proof.Machine
end

