-- ==== Sys2Proof/Laws/State.lean ====
section
/-! SUPPORT. What each named update of the state leaves alone, one lemma per update and field, and what each read gives after each
write. -/

namespace Sys2Proof.Machine

/-! ## Fields that an update leaves alone -/

@[simp] theorem State.setReg_pending (s : State) (a : Nat) (v : Word) : (s.setReg a v).pending = s.pending := rfl
@[simp] theorem State.setReg_clock (s : State) (a : Nat) (v : Word) : (s.setReg a v).clock = s.clock := rfl
@[simp] theorem State.setReg_freeCtr (s : State) (a : Nat) (v : Word) : (s.setReg a v).freeCtr = s.freeCtr := rfl
@[simp] theorem State.setReg_wide (s : State) (a : Nat) (v : Word) : (s.setReg a v).wide = s.wide := rfl
@[simp] theorem State.setReg_mem (s : State) (a : Nat) (v : Word) : (s.setReg a v).mem = s.mem := rfl
@[simp] theorem State.setReg_chips (s : State) (a : Nat) (v : Word) : (s.setReg a v).chips = s.chips := rfl
@[simp] theorem State.setReg_halves (s : State) (a : Nat) (v : Word) : (s.setReg a v).halves = s.halves := rfl
@[simp] theorem State.setReg_cores (s : State) (a : Nat) (v : Word) : (s.setReg a v).cores = s.cores := rfl
@[simp] theorem State.setReg_ports (s : State) (a : Nat) (v : Word) : (s.setReg a v).ports = s.ports := rfl
@[simp] theorem State.setReg_preds (s : State) (a : Nat) (v : Word) : (s.setReg a v).preds = s.preds := rfl
@[simp] theorem State.setReg_chans (s : State) (a : Nat) (v : Word) : (s.setReg a v).chans = s.chans := rfl
@[simp] theorem State.setReg_cdlys (s : State) (a : Nat) (v : Word) : (s.setReg a v).cdlys = s.cdlys := rfl
@[simp] theorem State.setReg_nvm (s : State) (a : Nat) (v : Word) : (s.setReg a v).nvm = s.nvm := rfl
@[simp] theorem State.setReg_nvmOp (s : State) (a : Nat) (v : Word) : (s.setReg a v).nvmOp = s.nvmOp := rfl
@[simp] theorem State.setReg_calGen (s : State) (a : Nat) (v : Word) : (s.setReg a v).calGen = s.calGen := rfl
@[simp] theorem State.setReg_convSeen (s : State) (a : Nat) (v : Word) : (s.setReg a v).convSeen = s.convSeen := rfl
@[simp] theorem State.setReg_autoDone (s : State) (a : Nat) (v : Word) : (s.setReg a v).autoDone = s.autoDone := rfl
@[simp] theorem State.setReg_vddhLow (s : State) (a : Nat) (v : Word) : (s.setReg a v).vddhLow = s.vddhLow := rfl
@[simp] theorem State.setReg_ringSeq (s : State) (a : Nat) (v : Word) : (s.setReg a v).ringSeq = s.ringSeq := rfl
@[simp] theorem State.setReg_tb (s : State) (a : Nat) (v : Word) : (s.setReg a v).tb = s.tb := rfl
@[simp] theorem State.setReg_queues (s : State) (a : Nat) (v : Word) : (s.setReg a v).queues = s.queues := rfl
@[simp] theorem State.setReg_engines (s : State) (a : Nat) (v : Word) : (s.setReg a v).engines = s.engines := rfl
@[simp] theorem State.setReg_xip (s : State) (a : Nat) (v : Word) : (s.setReg a v).xip = s.xip := rfl
@[simp] theorem State.setReg_ctxBad (s : State) (a : Nat) (v : Word) : (s.setReg a v).ctxBad = s.ctxBad := rfl
@[simp] theorem State.setReg_badWords (s : State) (a : Nat) (v : Word) : (s.setReg a v).badWords = s.badWords := rfl
@[simp] theorem State.setReg_ecc (s : State) (a : Nat) (v : Word) : (s.setReg a v).ecc = s.ecc := rfl
@[simp] theorem State.setReg_rel (s : State) (a : Nat) (v : Word) : (s.setReg a v).rel = s.rel := rfl
@[simp] theorem State.setReg_verdicts (s : State) (a : Nat) (v : Word) : (s.setReg a v).verdicts = s.verdicts := rfl
@[simp] theorem State.setReg_raising (s : State) (a : Nat) (v : Word) : (s.setReg a v).raising = s.raising := rfl
@[simp] theorem State.setReg_raises (s : State) (a : Nat) (v : Word) : (s.setReg a v).raises = s.raises := rfl
@[simp] theorem State.setReg_orgs (s : State) (a : Nat) (v : Word) : (s.setReg a v).orgs = s.orgs := rfl
@[simp] theorem State.setReg_tansyQ (s : State) (a : Nat) (v : Word) : (s.setReg a v).tansyQ = s.tansyQ := rfl
@[simp] theorem State.setReg_tansyGap (s : State) (a : Nat) (v : Word) : (s.setReg a v).tansyGap = s.tansyGap := rfl
@[simp] theorem State.setReg_tansySeq (s : State) (a : Nat) (v : Word) : (s.setReg a v).tansySeq = s.tansySeq := rfl
@[simp] theorem State.setReg_tansyUnrel (s : State) (a : Nat) (v : Word) : (s.setReg a v).tansyUnrel = s.tansyUnrel := rfl
@[simp] theorem State.setReg_parBad (s : State) (a : Nat) (v : Word) : (s.setReg a v).parBad = s.parBad := rfl
@[simp] theorem State.setReg_eraseCnt (s : State) (a : Nat) (v : Word) : (s.setReg a v).eraseCnt = s.eraseCnt := rfl
@[simp] theorem State.setReg_nvmLost (s : State) (a : Nat) (v : Word) : (s.setReg a v).nvmLost = s.nvmLost := rfl
@[simp] theorem State.setReg_timers (s : State) (a : Nat) (v : Word) : (s.setReg a v).timers = s.timers := rfl
@[simp] theorem State.setReg_loadMark (s : State) (a : Nat) (v : Word) : (s.setReg a v).loadMark = s.loadMark := rfl
@[simp] theorem State.setReg_ssp (s : State) (a : Nat) (v : Word) : (s.setReg a v).ssp = s.ssp := rfl
@[simp] theorem State.setReg_sm (s : State) (a : Nat) (v : Word) : (s.setReg a v).sm = s.sm := rfl
@[simp] theorem State.setReg_links (s : State) (a : Nat) (v : Word) : (s.setReg a v).links = s.links := rfl
@[simp] theorem State.setReg_ry (s : State) (a : Nat) (v : Word) : (s.setReg a v).ry = s.ry := rfl
@[simp] theorem State.setReg_raiseTs (s : State) (a : Nat) (v : Word) : (s.setReg a v).raiseTs = s.raiseTs := rfl
@[simp] theorem State.setReg_routedAt (s : State) (a : Nat) (v : Word) : (s.setReg a v).routedAt = s.routedAt := rfl
@[simp] theorem State.setReg_msix (s : State) (a : Nat) (v : Word) : (s.setReg a v).msix = s.msix := rfl
@[simp] theorem State.setReg_cfg (s : State) (a : Nat) (v : Word) : (s.setReg a v).cfg = s.cfg := rfl
@[simp] theorem State.setReg_bme (s : State) (a : Nat) (v : Word) : (s.setReg a v).bme = s.bme := rfl
@[simp] theorem State.setReg_fnMask (s : State) (a : Nat) (v : Word) : (s.setReg a v).fnMask = s.fnMask := rfl
@[simp] theorem State.setReg_msgLast (s : State) (a : Nat) (v : Word) : (s.setReg a v).msgLast = s.msgLast := rfl
@[simp] theorem State.setReg_porst (s : State) (a : Nat) (v : Word) : (s.setReg a v).porst = s.porst := rfl
@[simp] theorem State.setReg_brown (s : State) (a : Nat) (v : Word) : (s.setReg a v).brown = s.brown := rfl
@[simp] theorem State.setReg_warm (s : State) (a : Nat) (v : Word) : (s.setReg a v).warm = s.warm := rfl
@[simp] theorem State.setReg_boot (s : State) (a : Nat) (v : Word) : (s.setReg a v).boot = s.boot := rfl
@[simp] theorem State.setReg_bootCmd (s : State) (a : Nat) (v : Word) : (s.setReg a v).bootCmd = s.bootCmd := rfl
@[simp] theorem State.setReg_wdogFrom (s : State) (a : Nat) (v : Word) : (s.setReg a v).wdogFrom = s.wdogFrom := rfl
@[simp] theorem State.setReg_wdogOut (s : State) (a : Nat) (v : Word) : (s.setReg a v).wdogOut = s.wdogOut := rfl
@[simp] theorem State.setReg_asyncOver (s : State) (a : Nat) (v : Word) : (s.setReg a v).asyncOver = s.asyncOver := rfl
@[simp] theorem State.setReg_halfFaults (s : State) (a : Nat) (v : Word) : (s.setReg a v).halfFaults = s.halfFaults := rfl
@[simp] theorem State.setReg_lossFaults (s : State) (a : Nat) (v : Word) : (s.setReg a v).lossFaults = s.lossFaults := rfl
@[simp] theorem State.setReg_chipReinit (s : State) (a : Nat) (v : Word) : (s.setReg a v).chipReinit = s.chipReinit := rfl
@[simp] theorem State.setReg_reinits (s : State) (a : Nat) (v : Word) : (s.setReg a v).reinits = s.reinits := rfl
@[simp] theorem State.setReg_cdStamps (s : State) (a : Nat) (v : Word) : (s.setReg a v).cdStamps = s.cdStamps := rfl
@[simp] theorem State.setReg_outs (s : State) (a : Nat) (v : Word) : (s.setReg a v).outs = s.outs := rfl

@[simp] theorem State.put_pending (s : State) (f : Fld) (v i j : Nat) : (s.put f v i j).pending = s.pending := rfl
@[simp] theorem State.put_clock (s : State) (f : Fld) (v i j : Nat) : (s.put f v i j).clock = s.clock := rfl
@[simp] theorem State.put_freeCtr (s : State) (f : Fld) (v i j : Nat) : (s.put f v i j).freeCtr = s.freeCtr := rfl
@[simp] theorem State.put_wide (s : State) (f : Fld) (v i j : Nat) : (s.put f v i j).wide = s.wide := rfl
@[simp] theorem State.put_mem (s : State) (f : Fld) (v i j : Nat) : (s.put f v i j).mem = s.mem := rfl
@[simp] theorem State.put_chips (s : State) (f : Fld) (v i j : Nat) : (s.put f v i j).chips = s.chips := rfl
@[simp] theorem State.put_halves (s : State) (f : Fld) (v i j : Nat) : (s.put f v i j).halves = s.halves := rfl
@[simp] theorem State.put_cores (s : State) (f : Fld) (v i j : Nat) : (s.put f v i j).cores = s.cores := rfl
@[simp] theorem State.put_ports (s : State) (f : Fld) (v i j : Nat) : (s.put f v i j).ports = s.ports := rfl
@[simp] theorem State.put_preds (s : State) (f : Fld) (v i j : Nat) : (s.put f v i j).preds = s.preds := rfl
@[simp] theorem State.put_chans (s : State) (f : Fld) (v i j : Nat) : (s.put f v i j).chans = s.chans := rfl
@[simp] theorem State.put_cdlys (s : State) (f : Fld) (v i j : Nat) : (s.put f v i j).cdlys = s.cdlys := rfl
@[simp] theorem State.put_nvm (s : State) (f : Fld) (v i j : Nat) : (s.put f v i j).nvm = s.nvm := rfl
@[simp] theorem State.put_nvmOp (s : State) (f : Fld) (v i j : Nat) : (s.put f v i j).nvmOp = s.nvmOp := rfl
@[simp] theorem State.put_calGen (s : State) (f : Fld) (v i j : Nat) : (s.put f v i j).calGen = s.calGen := rfl
@[simp] theorem State.put_convSeen (s : State) (f : Fld) (v i j : Nat) : (s.put f v i j).convSeen = s.convSeen := rfl
@[simp] theorem State.put_autoDone (s : State) (f : Fld) (v i j : Nat) : (s.put f v i j).autoDone = s.autoDone := rfl
@[simp] theorem State.put_vddhLow (s : State) (f : Fld) (v i j : Nat) : (s.put f v i j).vddhLow = s.vddhLow := rfl
@[simp] theorem State.put_ringSeq (s : State) (f : Fld) (v i j : Nat) : (s.put f v i j).ringSeq = s.ringSeq := rfl
@[simp] theorem State.put_tb (s : State) (f : Fld) (v i j : Nat) : (s.put f v i j).tb = s.tb := rfl
@[simp] theorem State.put_queues (s : State) (f : Fld) (v i j : Nat) : (s.put f v i j).queues = s.queues := rfl
@[simp] theorem State.put_engines (s : State) (f : Fld) (v i j : Nat) : (s.put f v i j).engines = s.engines := rfl
@[simp] theorem State.put_xip (s : State) (f : Fld) (v i j : Nat) : (s.put f v i j).xip = s.xip := rfl
@[simp] theorem State.put_ctxBad (s : State) (f : Fld) (v i j : Nat) : (s.put f v i j).ctxBad = s.ctxBad := rfl
@[simp] theorem State.put_badWords (s : State) (f : Fld) (v i j : Nat) : (s.put f v i j).badWords = s.badWords := rfl
@[simp] theorem State.put_ecc (s : State) (f : Fld) (v i j : Nat) : (s.put f v i j).ecc = s.ecc := rfl
@[simp] theorem State.put_rel (s : State) (f : Fld) (v i j : Nat) : (s.put f v i j).rel = s.rel := rfl
@[simp] theorem State.put_verdicts (s : State) (f : Fld) (v i j : Nat) : (s.put f v i j).verdicts = s.verdicts := rfl
@[simp] theorem State.put_raising (s : State) (f : Fld) (v i j : Nat) : (s.put f v i j).raising = s.raising := rfl
@[simp] theorem State.put_raises (s : State) (f : Fld) (v i j : Nat) : (s.put f v i j).raises = s.raises := rfl
@[simp] theorem State.put_orgs (s : State) (f : Fld) (v i j : Nat) : (s.put f v i j).orgs = s.orgs := rfl
@[simp] theorem State.put_tansyQ (s : State) (f : Fld) (v i j : Nat) : (s.put f v i j).tansyQ = s.tansyQ := rfl
@[simp] theorem State.put_tansyGap (s : State) (f : Fld) (v i j : Nat) : (s.put f v i j).tansyGap = s.tansyGap := rfl
@[simp] theorem State.put_tansySeq (s : State) (f : Fld) (v i j : Nat) : (s.put f v i j).tansySeq = s.tansySeq := rfl
@[simp] theorem State.put_tansyUnrel (s : State) (f : Fld) (v i j : Nat) : (s.put f v i j).tansyUnrel = s.tansyUnrel := rfl
@[simp] theorem State.put_parBad (s : State) (f : Fld) (v i j : Nat) : (s.put f v i j).parBad = s.parBad := rfl
@[simp] theorem State.put_eraseCnt (s : State) (f : Fld) (v i j : Nat) : (s.put f v i j).eraseCnt = s.eraseCnt := rfl
@[simp] theorem State.put_nvmLost (s : State) (f : Fld) (v i j : Nat) : (s.put f v i j).nvmLost = s.nvmLost := rfl
@[simp] theorem State.put_timers (s : State) (f : Fld) (v i j : Nat) : (s.put f v i j).timers = s.timers := rfl
@[simp] theorem State.put_loadMark (s : State) (f : Fld) (v i j : Nat) : (s.put f v i j).loadMark = s.loadMark := rfl
@[simp] theorem State.put_ssp (s : State) (f : Fld) (v i j : Nat) : (s.put f v i j).ssp = s.ssp := rfl
@[simp] theorem State.put_sm (s : State) (f : Fld) (v i j : Nat) : (s.put f v i j).sm = s.sm := rfl
@[simp] theorem State.put_links (s : State) (f : Fld) (v i j : Nat) : (s.put f v i j).links = s.links := rfl
@[simp] theorem State.put_ry (s : State) (f : Fld) (v i j : Nat) : (s.put f v i j).ry = s.ry := rfl
@[simp] theorem State.put_raiseTs (s : State) (f : Fld) (v i j : Nat) : (s.put f v i j).raiseTs = s.raiseTs := rfl
@[simp] theorem State.put_routedAt (s : State) (f : Fld) (v i j : Nat) : (s.put f v i j).routedAt = s.routedAt := rfl
@[simp] theorem State.put_msix (s : State) (f : Fld) (v i j : Nat) : (s.put f v i j).msix = s.msix := rfl
@[simp] theorem State.put_cfg (s : State) (f : Fld) (v i j : Nat) : (s.put f v i j).cfg = s.cfg := rfl
@[simp] theorem State.put_bme (s : State) (f : Fld) (v i j : Nat) : (s.put f v i j).bme = s.bme := rfl
@[simp] theorem State.put_fnMask (s : State) (f : Fld) (v i j : Nat) : (s.put f v i j).fnMask = s.fnMask := rfl
@[simp] theorem State.put_msgLast (s : State) (f : Fld) (v i j : Nat) : (s.put f v i j).msgLast = s.msgLast := rfl
@[simp] theorem State.put_porst (s : State) (f : Fld) (v i j : Nat) : (s.put f v i j).porst = s.porst := rfl
@[simp] theorem State.put_brown (s : State) (f : Fld) (v i j : Nat) : (s.put f v i j).brown = s.brown := rfl
@[simp] theorem State.put_warm (s : State) (f : Fld) (v i j : Nat) : (s.put f v i j).warm = s.warm := rfl
@[simp] theorem State.put_boot (s : State) (f : Fld) (v i j : Nat) : (s.put f v i j).boot = s.boot := rfl
@[simp] theorem State.put_bootCmd (s : State) (f : Fld) (v i j : Nat) : (s.put f v i j).bootCmd = s.bootCmd := rfl
@[simp] theorem State.put_wdogFrom (s : State) (f : Fld) (v i j : Nat) : (s.put f v i j).wdogFrom = s.wdogFrom := rfl
@[simp] theorem State.put_wdogOut (s : State) (f : Fld) (v i j : Nat) : (s.put f v i j).wdogOut = s.wdogOut := rfl
@[simp] theorem State.put_asyncOver (s : State) (f : Fld) (v i j : Nat) : (s.put f v i j).asyncOver = s.asyncOver := rfl
@[simp] theorem State.put_halfFaults (s : State) (f : Fld) (v i j : Nat) : (s.put f v i j).halfFaults = s.halfFaults := rfl
@[simp] theorem State.put_lossFaults (s : State) (f : Fld) (v i j : Nat) : (s.put f v i j).lossFaults = s.lossFaults := rfl
@[simp] theorem State.put_chipReinit (s : State) (f : Fld) (v i j : Nat) : (s.put f v i j).chipReinit = s.chipReinit := rfl
@[simp] theorem State.put_reinits (s : State) (f : Fld) (v i j : Nat) : (s.put f v i j).reinits = s.reinits := rfl
@[simp] theorem State.put_cdStamps (s : State) (f : Fld) (v i j : Nat) : (s.put f v i j).cdStamps = s.cdStamps := rfl
@[simp] theorem State.put_outs (s : State) (f : Fld) (v i j : Nat) : (s.put f v i j).outs = s.outs := rfl

@[simp] theorem State.bump_pending (s : State) (f : Fld) (i j n : Nat) : (s.bump f i j n).pending = s.pending := rfl
@[simp] theorem State.bump_clock (s : State) (f : Fld) (i j n : Nat) : (s.bump f i j n).clock = s.clock := rfl
@[simp] theorem State.bump_freeCtr (s : State) (f : Fld) (i j n : Nat) : (s.bump f i j n).freeCtr = s.freeCtr := rfl
@[simp] theorem State.bump_wide (s : State) (f : Fld) (i j n : Nat) : (s.bump f i j n).wide = s.wide := rfl
@[simp] theorem State.bump_mem (s : State) (f : Fld) (i j n : Nat) : (s.bump f i j n).mem = s.mem := rfl
@[simp] theorem State.bump_chips (s : State) (f : Fld) (i j n : Nat) : (s.bump f i j n).chips = s.chips := rfl
@[simp] theorem State.bump_halves (s : State) (f : Fld) (i j n : Nat) : (s.bump f i j n).halves = s.halves := rfl
@[simp] theorem State.bump_cores (s : State) (f : Fld) (i j n : Nat) : (s.bump f i j n).cores = s.cores := rfl
@[simp] theorem State.bump_ports (s : State) (f : Fld) (i j n : Nat) : (s.bump f i j n).ports = s.ports := rfl
@[simp] theorem State.bump_preds (s : State) (f : Fld) (i j n : Nat) : (s.bump f i j n).preds = s.preds := rfl
@[simp] theorem State.bump_chans (s : State) (f : Fld) (i j n : Nat) : (s.bump f i j n).chans = s.chans := rfl
@[simp] theorem State.bump_cdlys (s : State) (f : Fld) (i j n : Nat) : (s.bump f i j n).cdlys = s.cdlys := rfl
@[simp] theorem State.bump_nvm (s : State) (f : Fld) (i j n : Nat) : (s.bump f i j n).nvm = s.nvm := rfl
@[simp] theorem State.bump_nvmOp (s : State) (f : Fld) (i j n : Nat) : (s.bump f i j n).nvmOp = s.nvmOp := rfl
@[simp] theorem State.bump_calGen (s : State) (f : Fld) (i j n : Nat) : (s.bump f i j n).calGen = s.calGen := rfl
@[simp] theorem State.bump_convSeen (s : State) (f : Fld) (i j n : Nat) : (s.bump f i j n).convSeen = s.convSeen := rfl
@[simp] theorem State.bump_autoDone (s : State) (f : Fld) (i j n : Nat) : (s.bump f i j n).autoDone = s.autoDone := rfl
@[simp] theorem State.bump_vddhLow (s : State) (f : Fld) (i j n : Nat) : (s.bump f i j n).vddhLow = s.vddhLow := rfl
@[simp] theorem State.bump_ringSeq (s : State) (f : Fld) (i j n : Nat) : (s.bump f i j n).ringSeq = s.ringSeq := rfl
@[simp] theorem State.bump_tb (s : State) (f : Fld) (i j n : Nat) : (s.bump f i j n).tb = s.tb := rfl
@[simp] theorem State.bump_queues (s : State) (f : Fld) (i j n : Nat) : (s.bump f i j n).queues = s.queues := rfl
@[simp] theorem State.bump_engines (s : State) (f : Fld) (i j n : Nat) : (s.bump f i j n).engines = s.engines := rfl
@[simp] theorem State.bump_xip (s : State) (f : Fld) (i j n : Nat) : (s.bump f i j n).xip = s.xip := rfl
@[simp] theorem State.bump_ctxBad (s : State) (f : Fld) (i j n : Nat) : (s.bump f i j n).ctxBad = s.ctxBad := rfl
@[simp] theorem State.bump_badWords (s : State) (f : Fld) (i j n : Nat) : (s.bump f i j n).badWords = s.badWords := rfl
@[simp] theorem State.bump_ecc (s : State) (f : Fld) (i j n : Nat) : (s.bump f i j n).ecc = s.ecc := rfl
@[simp] theorem State.bump_rel (s : State) (f : Fld) (i j n : Nat) : (s.bump f i j n).rel = s.rel := rfl
@[simp] theorem State.bump_verdicts (s : State) (f : Fld) (i j n : Nat) : (s.bump f i j n).verdicts = s.verdicts := rfl
@[simp] theorem State.bump_raising (s : State) (f : Fld) (i j n : Nat) : (s.bump f i j n).raising = s.raising := rfl
@[simp] theorem State.bump_raises (s : State) (f : Fld) (i j n : Nat) : (s.bump f i j n).raises = s.raises := rfl
@[simp] theorem State.bump_orgs (s : State) (f : Fld) (i j n : Nat) : (s.bump f i j n).orgs = s.orgs := rfl
@[simp] theorem State.bump_tansyQ (s : State) (f : Fld) (i j n : Nat) : (s.bump f i j n).tansyQ = s.tansyQ := rfl
@[simp] theorem State.bump_tansyGap (s : State) (f : Fld) (i j n : Nat) : (s.bump f i j n).tansyGap = s.tansyGap := rfl
@[simp] theorem State.bump_tansySeq (s : State) (f : Fld) (i j n : Nat) : (s.bump f i j n).tansySeq = s.tansySeq := rfl
@[simp] theorem State.bump_tansyUnrel (s : State) (f : Fld) (i j n : Nat) : (s.bump f i j n).tansyUnrel = s.tansyUnrel := rfl
@[simp] theorem State.bump_parBad (s : State) (f : Fld) (i j n : Nat) : (s.bump f i j n).parBad = s.parBad := rfl
@[simp] theorem State.bump_eraseCnt (s : State) (f : Fld) (i j n : Nat) : (s.bump f i j n).eraseCnt = s.eraseCnt := rfl
@[simp] theorem State.bump_nvmLost (s : State) (f : Fld) (i j n : Nat) : (s.bump f i j n).nvmLost = s.nvmLost := rfl
@[simp] theorem State.bump_timers (s : State) (f : Fld) (i j n : Nat) : (s.bump f i j n).timers = s.timers := rfl
@[simp] theorem State.bump_loadMark (s : State) (f : Fld) (i j n : Nat) : (s.bump f i j n).loadMark = s.loadMark := rfl
@[simp] theorem State.bump_ssp (s : State) (f : Fld) (i j n : Nat) : (s.bump f i j n).ssp = s.ssp := rfl
@[simp] theorem State.bump_sm (s : State) (f : Fld) (i j n : Nat) : (s.bump f i j n).sm = s.sm := rfl
@[simp] theorem State.bump_links (s : State) (f : Fld) (i j n : Nat) : (s.bump f i j n).links = s.links := rfl
@[simp] theorem State.bump_ry (s : State) (f : Fld) (i j n : Nat) : (s.bump f i j n).ry = s.ry := rfl
@[simp] theorem State.bump_raiseTs (s : State) (f : Fld) (i j n : Nat) : (s.bump f i j n).raiseTs = s.raiseTs := rfl
@[simp] theorem State.bump_routedAt (s : State) (f : Fld) (i j n : Nat) : (s.bump f i j n).routedAt = s.routedAt := rfl
@[simp] theorem State.bump_msix (s : State) (f : Fld) (i j n : Nat) : (s.bump f i j n).msix = s.msix := rfl
@[simp] theorem State.bump_cfg (s : State) (f : Fld) (i j n : Nat) : (s.bump f i j n).cfg = s.cfg := rfl
@[simp] theorem State.bump_bme (s : State) (f : Fld) (i j n : Nat) : (s.bump f i j n).bme = s.bme := rfl
@[simp] theorem State.bump_fnMask (s : State) (f : Fld) (i j n : Nat) : (s.bump f i j n).fnMask = s.fnMask := rfl
@[simp] theorem State.bump_msgLast (s : State) (f : Fld) (i j n : Nat) : (s.bump f i j n).msgLast = s.msgLast := rfl
@[simp] theorem State.bump_porst (s : State) (f : Fld) (i j n : Nat) : (s.bump f i j n).porst = s.porst := rfl
@[simp] theorem State.bump_brown (s : State) (f : Fld) (i j n : Nat) : (s.bump f i j n).brown = s.brown := rfl
@[simp] theorem State.bump_warm (s : State) (f : Fld) (i j n : Nat) : (s.bump f i j n).warm = s.warm := rfl
@[simp] theorem State.bump_boot (s : State) (f : Fld) (i j n : Nat) : (s.bump f i j n).boot = s.boot := rfl
@[simp] theorem State.bump_bootCmd (s : State) (f : Fld) (i j n : Nat) : (s.bump f i j n).bootCmd = s.bootCmd := rfl
@[simp] theorem State.bump_wdogFrom (s : State) (f : Fld) (i j n : Nat) : (s.bump f i j n).wdogFrom = s.wdogFrom := rfl
@[simp] theorem State.bump_wdogOut (s : State) (f : Fld) (i j n : Nat) : (s.bump f i j n).wdogOut = s.wdogOut := rfl
@[simp] theorem State.bump_asyncOver (s : State) (f : Fld) (i j n : Nat) : (s.bump f i j n).asyncOver = s.asyncOver := rfl
@[simp] theorem State.bump_halfFaults (s : State) (f : Fld) (i j n : Nat) : (s.bump f i j n).halfFaults = s.halfFaults := rfl
@[simp] theorem State.bump_lossFaults (s : State) (f : Fld) (i j n : Nat) : (s.bump f i j n).lossFaults = s.lossFaults := rfl
@[simp] theorem State.bump_chipReinit (s : State) (f : Fld) (i j n : Nat) : (s.bump f i j n).chipReinit = s.chipReinit := rfl
@[simp] theorem State.bump_reinits (s : State) (f : Fld) (i j n : Nat) : (s.bump f i j n).reinits = s.reinits := rfl
@[simp] theorem State.bump_cdStamps (s : State) (f : Fld) (i j n : Nat) : (s.bump f i j n).cdStamps = s.cdStamps := rfl
@[simp] theorem State.bump_outs (s : State) (f : Fld) (i j n : Nat) : (s.bump f i j n).outs = s.outs := rfl

@[simp] theorem State.setWide_pending (s : State) (a v : Nat) : (s.setWide a v).pending = s.pending := rfl
@[simp] theorem State.setWide_clock (s : State) (a v : Nat) : (s.setWide a v).clock = s.clock := rfl
@[simp] theorem State.setWide_freeCtr (s : State) (a v : Nat) : (s.setWide a v).freeCtr = s.freeCtr := rfl
@[simp] theorem State.setWide_regs (s : State) (a v : Nat) : (s.setWide a v).regs = s.regs := rfl
@[simp] theorem State.setWide_mem (s : State) (a v : Nat) : (s.setWide a v).mem = s.mem := rfl
@[simp] theorem State.setWide_chips (s : State) (a v : Nat) : (s.setWide a v).chips = s.chips := rfl
@[simp] theorem State.setWide_halves (s : State) (a v : Nat) : (s.setWide a v).halves = s.halves := rfl
@[simp] theorem State.setWide_cores (s : State) (a v : Nat) : (s.setWide a v).cores = s.cores := rfl
@[simp] theorem State.setWide_ports (s : State) (a v : Nat) : (s.setWide a v).ports = s.ports := rfl
@[simp] theorem State.setWide_preds (s : State) (a v : Nat) : (s.setWide a v).preds = s.preds := rfl
@[simp] theorem State.setWide_chans (s : State) (a v : Nat) : (s.setWide a v).chans = s.chans := rfl
@[simp] theorem State.setWide_cdlys (s : State) (a v : Nat) : (s.setWide a v).cdlys = s.cdlys := rfl
@[simp] theorem State.setWide_nvm (s : State) (a v : Nat) : (s.setWide a v).nvm = s.nvm := rfl
@[simp] theorem State.setWide_nvmOp (s : State) (a v : Nat) : (s.setWide a v).nvmOp = s.nvmOp := rfl
@[simp] theorem State.setWide_calGen (s : State) (a v : Nat) : (s.setWide a v).calGen = s.calGen := rfl
@[simp] theorem State.setWide_convSeen (s : State) (a v : Nat) : (s.setWide a v).convSeen = s.convSeen := rfl
@[simp] theorem State.setWide_autoDone (s : State) (a v : Nat) : (s.setWide a v).autoDone = s.autoDone := rfl
@[simp] theorem State.setWide_vddhLow (s : State) (a v : Nat) : (s.setWide a v).vddhLow = s.vddhLow := rfl
@[simp] theorem State.setWide_ringSeq (s : State) (a v : Nat) : (s.setWide a v).ringSeq = s.ringSeq := rfl
@[simp] theorem State.setWide_tb (s : State) (a v : Nat) : (s.setWide a v).tb = s.tb := rfl
@[simp] theorem State.setWide_queues (s : State) (a v : Nat) : (s.setWide a v).queues = s.queues := rfl
@[simp] theorem State.setWide_engines (s : State) (a v : Nat) : (s.setWide a v).engines = s.engines := rfl
@[simp] theorem State.setWide_xip (s : State) (a v : Nat) : (s.setWide a v).xip = s.xip := rfl
@[simp] theorem State.setWide_ctxBad (s : State) (a v : Nat) : (s.setWide a v).ctxBad = s.ctxBad := rfl
@[simp] theorem State.setWide_badWords (s : State) (a v : Nat) : (s.setWide a v).badWords = s.badWords := rfl
@[simp] theorem State.setWide_ecc (s : State) (a v : Nat) : (s.setWide a v).ecc = s.ecc := rfl
@[simp] theorem State.setWide_rel (s : State) (a v : Nat) : (s.setWide a v).rel = s.rel := rfl
@[simp] theorem State.setWide_verdicts (s : State) (a v : Nat) : (s.setWide a v).verdicts = s.verdicts := rfl
@[simp] theorem State.setWide_raising (s : State) (a v : Nat) : (s.setWide a v).raising = s.raising := rfl
@[simp] theorem State.setWide_raises (s : State) (a v : Nat) : (s.setWide a v).raises = s.raises := rfl
@[simp] theorem State.setWide_orgs (s : State) (a v : Nat) : (s.setWide a v).orgs = s.orgs := rfl
@[simp] theorem State.setWide_tansyQ (s : State) (a v : Nat) : (s.setWide a v).tansyQ = s.tansyQ := rfl
@[simp] theorem State.setWide_tansyGap (s : State) (a v : Nat) : (s.setWide a v).tansyGap = s.tansyGap := rfl
@[simp] theorem State.setWide_tansySeq (s : State) (a v : Nat) : (s.setWide a v).tansySeq = s.tansySeq := rfl
@[simp] theorem State.setWide_tansyUnrel (s : State) (a v : Nat) : (s.setWide a v).tansyUnrel = s.tansyUnrel := rfl
@[simp] theorem State.setWide_parBad (s : State) (a v : Nat) : (s.setWide a v).parBad = s.parBad := rfl
@[simp] theorem State.setWide_eraseCnt (s : State) (a v : Nat) : (s.setWide a v).eraseCnt = s.eraseCnt := rfl
@[simp] theorem State.setWide_nvmLost (s : State) (a v : Nat) : (s.setWide a v).nvmLost = s.nvmLost := rfl
@[simp] theorem State.setWide_timers (s : State) (a v : Nat) : (s.setWide a v).timers = s.timers := rfl
@[simp] theorem State.setWide_loadMark (s : State) (a v : Nat) : (s.setWide a v).loadMark = s.loadMark := rfl
@[simp] theorem State.setWide_ssp (s : State) (a v : Nat) : (s.setWide a v).ssp = s.ssp := rfl
@[simp] theorem State.setWide_sm (s : State) (a v : Nat) : (s.setWide a v).sm = s.sm := rfl
@[simp] theorem State.setWide_links (s : State) (a v : Nat) : (s.setWide a v).links = s.links := rfl
@[simp] theorem State.setWide_ry (s : State) (a v : Nat) : (s.setWide a v).ry = s.ry := rfl
@[simp] theorem State.setWide_raiseTs (s : State) (a v : Nat) : (s.setWide a v).raiseTs = s.raiseTs := rfl
@[simp] theorem State.setWide_routedAt (s : State) (a v : Nat) : (s.setWide a v).routedAt = s.routedAt := rfl
@[simp] theorem State.setWide_msix (s : State) (a v : Nat) : (s.setWide a v).msix = s.msix := rfl
@[simp] theorem State.setWide_cfg (s : State) (a v : Nat) : (s.setWide a v).cfg = s.cfg := rfl
@[simp] theorem State.setWide_bme (s : State) (a v : Nat) : (s.setWide a v).bme = s.bme := rfl
@[simp] theorem State.setWide_fnMask (s : State) (a v : Nat) : (s.setWide a v).fnMask = s.fnMask := rfl
@[simp] theorem State.setWide_msgLast (s : State) (a v : Nat) : (s.setWide a v).msgLast = s.msgLast := rfl
@[simp] theorem State.setWide_porst (s : State) (a v : Nat) : (s.setWide a v).porst = s.porst := rfl
@[simp] theorem State.setWide_brown (s : State) (a v : Nat) : (s.setWide a v).brown = s.brown := rfl
@[simp] theorem State.setWide_warm (s : State) (a v : Nat) : (s.setWide a v).warm = s.warm := rfl
@[simp] theorem State.setWide_boot (s : State) (a v : Nat) : (s.setWide a v).boot = s.boot := rfl
@[simp] theorem State.setWide_bootCmd (s : State) (a v : Nat) : (s.setWide a v).bootCmd = s.bootCmd := rfl
@[simp] theorem State.setWide_wdogFrom (s : State) (a v : Nat) : (s.setWide a v).wdogFrom = s.wdogFrom := rfl
@[simp] theorem State.setWide_wdogOut (s : State) (a v : Nat) : (s.setWide a v).wdogOut = s.wdogOut := rfl
@[simp] theorem State.setWide_asyncOver (s : State) (a v : Nat) : (s.setWide a v).asyncOver = s.asyncOver := rfl
@[simp] theorem State.setWide_halfFaults (s : State) (a v : Nat) : (s.setWide a v).halfFaults = s.halfFaults := rfl
@[simp] theorem State.setWide_lossFaults (s : State) (a v : Nat) : (s.setWide a v).lossFaults = s.lossFaults := rfl
@[simp] theorem State.setWide_chipReinit (s : State) (a v : Nat) : (s.setWide a v).chipReinit = s.chipReinit := rfl
@[simp] theorem State.setWide_reinits (s : State) (a v : Nat) : (s.setWide a v).reinits = s.reinits := rfl
@[simp] theorem State.setWide_cdStamps (s : State) (a v : Nat) : (s.setWide a v).cdStamps = s.cdStamps := rfl
@[simp] theorem State.setWide_outs (s : State) (a v : Nat) : (s.setWide a v).outs = s.outs := rfl

@[simp] theorem State.setChip_pending (s : State) (n : Nat) (x : Chip) : (s.setChip n x).pending = s.pending := rfl
@[simp] theorem State.setChip_clock (s : State) (n : Nat) (x : Chip) : (s.setChip n x).clock = s.clock := rfl
@[simp] theorem State.setChip_freeCtr (s : State) (n : Nat) (x : Chip) : (s.setChip n x).freeCtr = s.freeCtr := rfl
@[simp] theorem State.setChip_regs (s : State) (n : Nat) (x : Chip) : (s.setChip n x).regs = s.regs := rfl
@[simp] theorem State.setChip_wide (s : State) (n : Nat) (x : Chip) : (s.setChip n x).wide = s.wide := rfl
@[simp] theorem State.setChip_mem (s : State) (n : Nat) (x : Chip) : (s.setChip n x).mem = s.mem := rfl
@[simp] theorem State.setChip_halves (s : State) (n : Nat) (x : Chip) : (s.setChip n x).halves = s.halves := rfl
@[simp] theorem State.setChip_cores (s : State) (n : Nat) (x : Chip) : (s.setChip n x).cores = s.cores := rfl
@[simp] theorem State.setChip_ports (s : State) (n : Nat) (x : Chip) : (s.setChip n x).ports = s.ports := rfl
@[simp] theorem State.setChip_preds (s : State) (n : Nat) (x : Chip) : (s.setChip n x).preds = s.preds := rfl
@[simp] theorem State.setChip_chans (s : State) (n : Nat) (x : Chip) : (s.setChip n x).chans = s.chans := rfl
@[simp] theorem State.setChip_cdlys (s : State) (n : Nat) (x : Chip) : (s.setChip n x).cdlys = s.cdlys := rfl
@[simp] theorem State.setChip_nvm (s : State) (n : Nat) (x : Chip) : (s.setChip n x).nvm = s.nvm := rfl
@[simp] theorem State.setChip_nvmOp (s : State) (n : Nat) (x : Chip) : (s.setChip n x).nvmOp = s.nvmOp := rfl
@[simp] theorem State.setChip_calGen (s : State) (n : Nat) (x : Chip) : (s.setChip n x).calGen = s.calGen := rfl
@[simp] theorem State.setChip_convSeen (s : State) (n : Nat) (x : Chip) : (s.setChip n x).convSeen = s.convSeen := rfl
@[simp] theorem State.setChip_autoDone (s : State) (n : Nat) (x : Chip) : (s.setChip n x).autoDone = s.autoDone := rfl
@[simp] theorem State.setChip_vddhLow (s : State) (n : Nat) (x : Chip) : (s.setChip n x).vddhLow = s.vddhLow := rfl
@[simp] theorem State.setChip_ringSeq (s : State) (n : Nat) (x : Chip) : (s.setChip n x).ringSeq = s.ringSeq := rfl
@[simp] theorem State.setChip_tb (s : State) (n : Nat) (x : Chip) : (s.setChip n x).tb = s.tb := rfl
@[simp] theorem State.setChip_queues (s : State) (n : Nat) (x : Chip) : (s.setChip n x).queues = s.queues := rfl
@[simp] theorem State.setChip_engines (s : State) (n : Nat) (x : Chip) : (s.setChip n x).engines = s.engines := rfl
@[simp] theorem State.setChip_xip (s : State) (n : Nat) (x : Chip) : (s.setChip n x).xip = s.xip := rfl
@[simp] theorem State.setChip_ctxBad (s : State) (n : Nat) (x : Chip) : (s.setChip n x).ctxBad = s.ctxBad := rfl
@[simp] theorem State.setChip_badWords (s : State) (n : Nat) (x : Chip) : (s.setChip n x).badWords = s.badWords := rfl
@[simp] theorem State.setChip_ecc (s : State) (n : Nat) (x : Chip) : (s.setChip n x).ecc = s.ecc := rfl
@[simp] theorem State.setChip_rel (s : State) (n : Nat) (x : Chip) : (s.setChip n x).rel = s.rel := rfl
@[simp] theorem State.setChip_verdicts (s : State) (n : Nat) (x : Chip) : (s.setChip n x).verdicts = s.verdicts := rfl
@[simp] theorem State.setChip_raising (s : State) (n : Nat) (x : Chip) : (s.setChip n x).raising = s.raising := rfl
@[simp] theorem State.setChip_raises (s : State) (n : Nat) (x : Chip) : (s.setChip n x).raises = s.raises := rfl
@[simp] theorem State.setChip_orgs (s : State) (n : Nat) (x : Chip) : (s.setChip n x).orgs = s.orgs := rfl
@[simp] theorem State.setChip_tansyQ (s : State) (n : Nat) (x : Chip) : (s.setChip n x).tansyQ = s.tansyQ := rfl
@[simp] theorem State.setChip_tansyGap (s : State) (n : Nat) (x : Chip) : (s.setChip n x).tansyGap = s.tansyGap := rfl
@[simp] theorem State.setChip_tansySeq (s : State) (n : Nat) (x : Chip) : (s.setChip n x).tansySeq = s.tansySeq := rfl
@[simp] theorem State.setChip_tansyUnrel (s : State) (n : Nat) (x : Chip) : (s.setChip n x).tansyUnrel = s.tansyUnrel := rfl
@[simp] theorem State.setChip_parBad (s : State) (n : Nat) (x : Chip) : (s.setChip n x).parBad = s.parBad := rfl
@[simp] theorem State.setChip_eraseCnt (s : State) (n : Nat) (x : Chip) : (s.setChip n x).eraseCnt = s.eraseCnt := rfl
@[simp] theorem State.setChip_nvmLost (s : State) (n : Nat) (x : Chip) : (s.setChip n x).nvmLost = s.nvmLost := rfl
@[simp] theorem State.setChip_timers (s : State) (n : Nat) (x : Chip) : (s.setChip n x).timers = s.timers := rfl
@[simp] theorem State.setChip_loadMark (s : State) (n : Nat) (x : Chip) : (s.setChip n x).loadMark = s.loadMark := rfl
@[simp] theorem State.setChip_ssp (s : State) (n : Nat) (x : Chip) : (s.setChip n x).ssp = s.ssp := rfl
@[simp] theorem State.setChip_sm (s : State) (n : Nat) (x : Chip) : (s.setChip n x).sm = s.sm := rfl
@[simp] theorem State.setChip_links (s : State) (n : Nat) (x : Chip) : (s.setChip n x).links = s.links := rfl
@[simp] theorem State.setChip_ry (s : State) (n : Nat) (x : Chip) : (s.setChip n x).ry = s.ry := rfl
@[simp] theorem State.setChip_raiseTs (s : State) (n : Nat) (x : Chip) : (s.setChip n x).raiseTs = s.raiseTs := rfl
@[simp] theorem State.setChip_routedAt (s : State) (n : Nat) (x : Chip) : (s.setChip n x).routedAt = s.routedAt := rfl
@[simp] theorem State.setChip_msix (s : State) (n : Nat) (x : Chip) : (s.setChip n x).msix = s.msix := rfl
@[simp] theorem State.setChip_cfg (s : State) (n : Nat) (x : Chip) : (s.setChip n x).cfg = s.cfg := rfl
@[simp] theorem State.setChip_bme (s : State) (n : Nat) (x : Chip) : (s.setChip n x).bme = s.bme := rfl
@[simp] theorem State.setChip_fnMask (s : State) (n : Nat) (x : Chip) : (s.setChip n x).fnMask = s.fnMask := rfl
@[simp] theorem State.setChip_msgLast (s : State) (n : Nat) (x : Chip) : (s.setChip n x).msgLast = s.msgLast := rfl
@[simp] theorem State.setChip_porst (s : State) (n : Nat) (x : Chip) : (s.setChip n x).porst = s.porst := rfl
@[simp] theorem State.setChip_brown (s : State) (n : Nat) (x : Chip) : (s.setChip n x).brown = s.brown := rfl
@[simp] theorem State.setChip_warm (s : State) (n : Nat) (x : Chip) : (s.setChip n x).warm = s.warm := rfl
@[simp] theorem State.setChip_boot (s : State) (n : Nat) (x : Chip) : (s.setChip n x).boot = s.boot := rfl
@[simp] theorem State.setChip_bootCmd (s : State) (n : Nat) (x : Chip) : (s.setChip n x).bootCmd = s.bootCmd := rfl
@[simp] theorem State.setChip_wdogFrom (s : State) (n : Nat) (x : Chip) : (s.setChip n x).wdogFrom = s.wdogFrom := rfl
@[simp] theorem State.setChip_wdogOut (s : State) (n : Nat) (x : Chip) : (s.setChip n x).wdogOut = s.wdogOut := rfl
@[simp] theorem State.setChip_asyncOver (s : State) (n : Nat) (x : Chip) : (s.setChip n x).asyncOver = s.asyncOver := rfl
@[simp] theorem State.setChip_halfFaults (s : State) (n : Nat) (x : Chip) : (s.setChip n x).halfFaults = s.halfFaults := rfl
@[simp] theorem State.setChip_lossFaults (s : State) (n : Nat) (x : Chip) : (s.setChip n x).lossFaults = s.lossFaults := rfl
@[simp] theorem State.setChip_chipReinit (s : State) (n : Nat) (x : Chip) : (s.setChip n x).chipReinit = s.chipReinit := rfl
@[simp] theorem State.setChip_reinits (s : State) (n : Nat) (x : Chip) : (s.setChip n x).reinits = s.reinits := rfl
@[simp] theorem State.setChip_cdStamps (s : State) (n : Nat) (x : Chip) : (s.setChip n x).cdStamps = s.cdStamps := rfl
@[simp] theorem State.setChip_outs (s : State) (n : Nat) (x : Chip) : (s.setChip n x).outs = s.outs := rfl

@[simp] theorem State.setHalf_pending (s : State) (c h : Nat) (x : Half) : (s.setHalf c h x).pending = s.pending := rfl
@[simp] theorem State.setHalf_clock (s : State) (c h : Nat) (x : Half) : (s.setHalf c h x).clock = s.clock := rfl
@[simp] theorem State.setHalf_freeCtr (s : State) (c h : Nat) (x : Half) : (s.setHalf c h x).freeCtr = s.freeCtr := rfl
@[simp] theorem State.setHalf_regs (s : State) (c h : Nat) (x : Half) : (s.setHalf c h x).regs = s.regs := rfl
@[simp] theorem State.setHalf_wide (s : State) (c h : Nat) (x : Half) : (s.setHalf c h x).wide = s.wide := rfl
@[simp] theorem State.setHalf_mem (s : State) (c h : Nat) (x : Half) : (s.setHalf c h x).mem = s.mem := rfl
@[simp] theorem State.setHalf_chips (s : State) (c h : Nat) (x : Half) : (s.setHalf c h x).chips = s.chips := rfl
@[simp] theorem State.setHalf_cores (s : State) (c h : Nat) (x : Half) : (s.setHalf c h x).cores = s.cores := rfl
@[simp] theorem State.setHalf_ports (s : State) (c h : Nat) (x : Half) : (s.setHalf c h x).ports = s.ports := rfl
@[simp] theorem State.setHalf_preds (s : State) (c h : Nat) (x : Half) : (s.setHalf c h x).preds = s.preds := rfl
@[simp] theorem State.setHalf_chans (s : State) (c h : Nat) (x : Half) : (s.setHalf c h x).chans = s.chans := rfl
@[simp] theorem State.setHalf_cdlys (s : State) (c h : Nat) (x : Half) : (s.setHalf c h x).cdlys = s.cdlys := rfl
@[simp] theorem State.setHalf_nvm (s : State) (c h : Nat) (x : Half) : (s.setHalf c h x).nvm = s.nvm := rfl
@[simp] theorem State.setHalf_nvmOp (s : State) (c h : Nat) (x : Half) : (s.setHalf c h x).nvmOp = s.nvmOp := rfl
@[simp] theorem State.setHalf_calGen (s : State) (c h : Nat) (x : Half) : (s.setHalf c h x).calGen = s.calGen := rfl
@[simp] theorem State.setHalf_convSeen (s : State) (c h : Nat) (x : Half) : (s.setHalf c h x).convSeen = s.convSeen := rfl
@[simp] theorem State.setHalf_autoDone (s : State) (c h : Nat) (x : Half) : (s.setHalf c h x).autoDone = s.autoDone := rfl
@[simp] theorem State.setHalf_vddhLow (s : State) (c h : Nat) (x : Half) : (s.setHalf c h x).vddhLow = s.vddhLow := rfl
@[simp] theorem State.setHalf_ringSeq (s : State) (c h : Nat) (x : Half) : (s.setHalf c h x).ringSeq = s.ringSeq := rfl
@[simp] theorem State.setHalf_tb (s : State) (c h : Nat) (x : Half) : (s.setHalf c h x).tb = s.tb := rfl
@[simp] theorem State.setHalf_queues (s : State) (c h : Nat) (x : Half) : (s.setHalf c h x).queues = s.queues := rfl
@[simp] theorem State.setHalf_engines (s : State) (c h : Nat) (x : Half) : (s.setHalf c h x).engines = s.engines := rfl
@[simp] theorem State.setHalf_xip (s : State) (c h : Nat) (x : Half) : (s.setHalf c h x).xip = s.xip := rfl
@[simp] theorem State.setHalf_ctxBad (s : State) (c h : Nat) (x : Half) : (s.setHalf c h x).ctxBad = s.ctxBad := rfl
@[simp] theorem State.setHalf_badWords (s : State) (c h : Nat) (x : Half) : (s.setHalf c h x).badWords = s.badWords := rfl
@[simp] theorem State.setHalf_ecc (s : State) (c h : Nat) (x : Half) : (s.setHalf c h x).ecc = s.ecc := rfl
@[simp] theorem State.setHalf_rel (s : State) (c h : Nat) (x : Half) : (s.setHalf c h x).rel = s.rel := rfl
@[simp] theorem State.setHalf_verdicts (s : State) (c h : Nat) (x : Half) : (s.setHalf c h x).verdicts = s.verdicts := rfl
@[simp] theorem State.setHalf_raising (s : State) (c h : Nat) (x : Half) : (s.setHalf c h x).raising = s.raising := rfl
@[simp] theorem State.setHalf_raises (s : State) (c h : Nat) (x : Half) : (s.setHalf c h x).raises = s.raises := rfl
@[simp] theorem State.setHalf_orgs (s : State) (c h : Nat) (x : Half) : (s.setHalf c h x).orgs = s.orgs := rfl
@[simp] theorem State.setHalf_tansyQ (s : State) (c h : Nat) (x : Half) : (s.setHalf c h x).tansyQ = s.tansyQ := rfl
@[simp] theorem State.setHalf_tansyGap (s : State) (c h : Nat) (x : Half) : (s.setHalf c h x).tansyGap = s.tansyGap := rfl
@[simp] theorem State.setHalf_tansySeq (s : State) (c h : Nat) (x : Half) : (s.setHalf c h x).tansySeq = s.tansySeq := rfl
@[simp] theorem State.setHalf_tansyUnrel (s : State) (c h : Nat) (x : Half) : (s.setHalf c h x).tansyUnrel = s.tansyUnrel := rfl
@[simp] theorem State.setHalf_parBad (s : State) (c h : Nat) (x : Half) : (s.setHalf c h x).parBad = s.parBad := rfl
@[simp] theorem State.setHalf_eraseCnt (s : State) (c h : Nat) (x : Half) : (s.setHalf c h x).eraseCnt = s.eraseCnt := rfl
@[simp] theorem State.setHalf_nvmLost (s : State) (c h : Nat) (x : Half) : (s.setHalf c h x).nvmLost = s.nvmLost := rfl
@[simp] theorem State.setHalf_timers (s : State) (c h : Nat) (x : Half) : (s.setHalf c h x).timers = s.timers := rfl
@[simp] theorem State.setHalf_loadMark (s : State) (c h : Nat) (x : Half) : (s.setHalf c h x).loadMark = s.loadMark := rfl
@[simp] theorem State.setHalf_ssp (s : State) (c h : Nat) (x : Half) : (s.setHalf c h x).ssp = s.ssp := rfl
@[simp] theorem State.setHalf_sm (s : State) (c h : Nat) (x : Half) : (s.setHalf c h x).sm = s.sm := rfl
@[simp] theorem State.setHalf_links (s : State) (c h : Nat) (x : Half) : (s.setHalf c h x).links = s.links := rfl
@[simp] theorem State.setHalf_ry (s : State) (c h : Nat) (x : Half) : (s.setHalf c h x).ry = s.ry := rfl
@[simp] theorem State.setHalf_raiseTs (s : State) (c h : Nat) (x : Half) : (s.setHalf c h x).raiseTs = s.raiseTs := rfl
@[simp] theorem State.setHalf_routedAt (s : State) (c h : Nat) (x : Half) : (s.setHalf c h x).routedAt = s.routedAt := rfl
@[simp] theorem State.setHalf_msix (s : State) (c h : Nat) (x : Half) : (s.setHalf c h x).msix = s.msix := rfl
@[simp] theorem State.setHalf_cfg (s : State) (c h : Nat) (x : Half) : (s.setHalf c h x).cfg = s.cfg := rfl
@[simp] theorem State.setHalf_bme (s : State) (c h : Nat) (x : Half) : (s.setHalf c h x).bme = s.bme := rfl
@[simp] theorem State.setHalf_fnMask (s : State) (c h : Nat) (x : Half) : (s.setHalf c h x).fnMask = s.fnMask := rfl
@[simp] theorem State.setHalf_msgLast (s : State) (c h : Nat) (x : Half) : (s.setHalf c h x).msgLast = s.msgLast := rfl
@[simp] theorem State.setHalf_porst (s : State) (c h : Nat) (x : Half) : (s.setHalf c h x).porst = s.porst := rfl
@[simp] theorem State.setHalf_brown (s : State) (c h : Nat) (x : Half) : (s.setHalf c h x).brown = s.brown := rfl
@[simp] theorem State.setHalf_warm (s : State) (c h : Nat) (x : Half) : (s.setHalf c h x).warm = s.warm := rfl
@[simp] theorem State.setHalf_boot (s : State) (c h : Nat) (x : Half) : (s.setHalf c h x).boot = s.boot := rfl
@[simp] theorem State.setHalf_bootCmd (s : State) (c h : Nat) (x : Half) : (s.setHalf c h x).bootCmd = s.bootCmd := rfl
@[simp] theorem State.setHalf_wdogFrom (s : State) (c h : Nat) (x : Half) : (s.setHalf c h x).wdogFrom = s.wdogFrom := rfl
@[simp] theorem State.setHalf_wdogOut (s : State) (c h : Nat) (x : Half) : (s.setHalf c h x).wdogOut = s.wdogOut := rfl
@[simp] theorem State.setHalf_asyncOver (s : State) (c h : Nat) (x : Half) : (s.setHalf c h x).asyncOver = s.asyncOver := rfl
@[simp] theorem State.setHalf_halfFaults (s : State) (c h : Nat) (x : Half) : (s.setHalf c h x).halfFaults = s.halfFaults := rfl
@[simp] theorem State.setHalf_lossFaults (s : State) (c h : Nat) (x : Half) : (s.setHalf c h x).lossFaults = s.lossFaults := rfl
@[simp] theorem State.setHalf_chipReinit (s : State) (c h : Nat) (x : Half) : (s.setHalf c h x).chipReinit = s.chipReinit := rfl
@[simp] theorem State.setHalf_reinits (s : State) (c h : Nat) (x : Half) : (s.setHalf c h x).reinits = s.reinits := rfl
@[simp] theorem State.setHalf_cdStamps (s : State) (c h : Nat) (x : Half) : (s.setHalf c h x).cdStamps = s.cdStamps := rfl
@[simp] theorem State.setHalf_outs (s : State) (c h : Nat) (x : Half) : (s.setHalf c h x).outs = s.outs := rfl

@[simp] theorem State.setCore_pending (s : State) (c : Nat) (x : CoreSt) : (s.setCore c x).pending = s.pending := rfl
@[simp] theorem State.setCore_clock (s : State) (c : Nat) (x : CoreSt) : (s.setCore c x).clock = s.clock := rfl
@[simp] theorem State.setCore_freeCtr (s : State) (c : Nat) (x : CoreSt) : (s.setCore c x).freeCtr = s.freeCtr := rfl
@[simp] theorem State.setCore_regs (s : State) (c : Nat) (x : CoreSt) : (s.setCore c x).regs = s.regs := rfl
@[simp] theorem State.setCore_wide (s : State) (c : Nat) (x : CoreSt) : (s.setCore c x).wide = s.wide := rfl
@[simp] theorem State.setCore_mem (s : State) (c : Nat) (x : CoreSt) : (s.setCore c x).mem = s.mem := rfl
@[simp] theorem State.setCore_chips (s : State) (c : Nat) (x : CoreSt) : (s.setCore c x).chips = s.chips := rfl
@[simp] theorem State.setCore_halves (s : State) (c : Nat) (x : CoreSt) : (s.setCore c x).halves = s.halves := rfl
@[simp] theorem State.setCore_ports (s : State) (c : Nat) (x : CoreSt) : (s.setCore c x).ports = s.ports := rfl
@[simp] theorem State.setCore_preds (s : State) (c : Nat) (x : CoreSt) : (s.setCore c x).preds = s.preds := rfl
@[simp] theorem State.setCore_chans (s : State) (c : Nat) (x : CoreSt) : (s.setCore c x).chans = s.chans := rfl
@[simp] theorem State.setCore_cdlys (s : State) (c : Nat) (x : CoreSt) : (s.setCore c x).cdlys = s.cdlys := rfl
@[simp] theorem State.setCore_nvm (s : State) (c : Nat) (x : CoreSt) : (s.setCore c x).nvm = s.nvm := rfl
@[simp] theorem State.setCore_nvmOp (s : State) (c : Nat) (x : CoreSt) : (s.setCore c x).nvmOp = s.nvmOp := rfl
@[simp] theorem State.setCore_calGen (s : State) (c : Nat) (x : CoreSt) : (s.setCore c x).calGen = s.calGen := rfl
@[simp] theorem State.setCore_convSeen (s : State) (c : Nat) (x : CoreSt) : (s.setCore c x).convSeen = s.convSeen := rfl
@[simp] theorem State.setCore_autoDone (s : State) (c : Nat) (x : CoreSt) : (s.setCore c x).autoDone = s.autoDone := rfl
@[simp] theorem State.setCore_vddhLow (s : State) (c : Nat) (x : CoreSt) : (s.setCore c x).vddhLow = s.vddhLow := rfl
@[simp] theorem State.setCore_ringSeq (s : State) (c : Nat) (x : CoreSt) : (s.setCore c x).ringSeq = s.ringSeq := rfl
@[simp] theorem State.setCore_tb (s : State) (c : Nat) (x : CoreSt) : (s.setCore c x).tb = s.tb := rfl
@[simp] theorem State.setCore_queues (s : State) (c : Nat) (x : CoreSt) : (s.setCore c x).queues = s.queues := rfl
@[simp] theorem State.setCore_engines (s : State) (c : Nat) (x : CoreSt) : (s.setCore c x).engines = s.engines := rfl
@[simp] theorem State.setCore_xip (s : State) (c : Nat) (x : CoreSt) : (s.setCore c x).xip = s.xip := rfl
@[simp] theorem State.setCore_ctxBad (s : State) (c : Nat) (x : CoreSt) : (s.setCore c x).ctxBad = s.ctxBad := rfl
@[simp] theorem State.setCore_badWords (s : State) (c : Nat) (x : CoreSt) : (s.setCore c x).badWords = s.badWords := rfl
@[simp] theorem State.setCore_ecc (s : State) (c : Nat) (x : CoreSt) : (s.setCore c x).ecc = s.ecc := rfl
@[simp] theorem State.setCore_rel (s : State) (c : Nat) (x : CoreSt) : (s.setCore c x).rel = s.rel := rfl
@[simp] theorem State.setCore_verdicts (s : State) (c : Nat) (x : CoreSt) : (s.setCore c x).verdicts = s.verdicts := rfl
@[simp] theorem State.setCore_raising (s : State) (c : Nat) (x : CoreSt) : (s.setCore c x).raising = s.raising := rfl
@[simp] theorem State.setCore_raises (s : State) (c : Nat) (x : CoreSt) : (s.setCore c x).raises = s.raises := rfl
@[simp] theorem State.setCore_orgs (s : State) (c : Nat) (x : CoreSt) : (s.setCore c x).orgs = s.orgs := rfl
@[simp] theorem State.setCore_tansyQ (s : State) (c : Nat) (x : CoreSt) : (s.setCore c x).tansyQ = s.tansyQ := rfl
@[simp] theorem State.setCore_tansyGap (s : State) (c : Nat) (x : CoreSt) : (s.setCore c x).tansyGap = s.tansyGap := rfl
@[simp] theorem State.setCore_tansySeq (s : State) (c : Nat) (x : CoreSt) : (s.setCore c x).tansySeq = s.tansySeq := rfl
@[simp] theorem State.setCore_tansyUnrel (s : State) (c : Nat) (x : CoreSt) : (s.setCore c x).tansyUnrel = s.tansyUnrel := rfl
@[simp] theorem State.setCore_parBad (s : State) (c : Nat) (x : CoreSt) : (s.setCore c x).parBad = s.parBad := rfl
@[simp] theorem State.setCore_eraseCnt (s : State) (c : Nat) (x : CoreSt) : (s.setCore c x).eraseCnt = s.eraseCnt := rfl
@[simp] theorem State.setCore_nvmLost (s : State) (c : Nat) (x : CoreSt) : (s.setCore c x).nvmLost = s.nvmLost := rfl
@[simp] theorem State.setCore_timers (s : State) (c : Nat) (x : CoreSt) : (s.setCore c x).timers = s.timers := rfl
@[simp] theorem State.setCore_loadMark (s : State) (c : Nat) (x : CoreSt) : (s.setCore c x).loadMark = s.loadMark := rfl
@[simp] theorem State.setCore_ssp (s : State) (c : Nat) (x : CoreSt) : (s.setCore c x).ssp = s.ssp := rfl
@[simp] theorem State.setCore_sm (s : State) (c : Nat) (x : CoreSt) : (s.setCore c x).sm = s.sm := rfl
@[simp] theorem State.setCore_links (s : State) (c : Nat) (x : CoreSt) : (s.setCore c x).links = s.links := rfl
@[simp] theorem State.setCore_ry (s : State) (c : Nat) (x : CoreSt) : (s.setCore c x).ry = s.ry := rfl
@[simp] theorem State.setCore_raiseTs (s : State) (c : Nat) (x : CoreSt) : (s.setCore c x).raiseTs = s.raiseTs := rfl
@[simp] theorem State.setCore_routedAt (s : State) (c : Nat) (x : CoreSt) : (s.setCore c x).routedAt = s.routedAt := rfl
@[simp] theorem State.setCore_msix (s : State) (c : Nat) (x : CoreSt) : (s.setCore c x).msix = s.msix := rfl
@[simp] theorem State.setCore_cfg (s : State) (c : Nat) (x : CoreSt) : (s.setCore c x).cfg = s.cfg := rfl
@[simp] theorem State.setCore_bme (s : State) (c : Nat) (x : CoreSt) : (s.setCore c x).bme = s.bme := rfl
@[simp] theorem State.setCore_fnMask (s : State) (c : Nat) (x : CoreSt) : (s.setCore c x).fnMask = s.fnMask := rfl
@[simp] theorem State.setCore_msgLast (s : State) (c : Nat) (x : CoreSt) : (s.setCore c x).msgLast = s.msgLast := rfl
@[simp] theorem State.setCore_porst (s : State) (c : Nat) (x : CoreSt) : (s.setCore c x).porst = s.porst := rfl
@[simp] theorem State.setCore_brown (s : State) (c : Nat) (x : CoreSt) : (s.setCore c x).brown = s.brown := rfl
@[simp] theorem State.setCore_warm (s : State) (c : Nat) (x : CoreSt) : (s.setCore c x).warm = s.warm := rfl
@[simp] theorem State.setCore_boot (s : State) (c : Nat) (x : CoreSt) : (s.setCore c x).boot = s.boot := rfl
@[simp] theorem State.setCore_bootCmd (s : State) (c : Nat) (x : CoreSt) : (s.setCore c x).bootCmd = s.bootCmd := rfl
@[simp] theorem State.setCore_wdogFrom (s : State) (c : Nat) (x : CoreSt) : (s.setCore c x).wdogFrom = s.wdogFrom := rfl
@[simp] theorem State.setCore_wdogOut (s : State) (c : Nat) (x : CoreSt) : (s.setCore c x).wdogOut = s.wdogOut := rfl
@[simp] theorem State.setCore_asyncOver (s : State) (c : Nat) (x : CoreSt) : (s.setCore c x).asyncOver = s.asyncOver := rfl
@[simp] theorem State.setCore_halfFaults (s : State) (c : Nat) (x : CoreSt) : (s.setCore c x).halfFaults = s.halfFaults := rfl
@[simp] theorem State.setCore_lossFaults (s : State) (c : Nat) (x : CoreSt) : (s.setCore c x).lossFaults = s.lossFaults := rfl
@[simp] theorem State.setCore_chipReinit (s : State) (c : Nat) (x : CoreSt) : (s.setCore c x).chipReinit = s.chipReinit := rfl
@[simp] theorem State.setCore_reinits (s : State) (c : Nat) (x : CoreSt) : (s.setCore c x).reinits = s.reinits := rfl
@[simp] theorem State.setCore_cdStamps (s : State) (c : Nat) (x : CoreSt) : (s.setCore c x).cdStamps = s.cdStamps := rfl
@[simp] theorem State.setCore_outs (s : State) (c : Nat) (x : CoreSt) : (s.setCore c x).outs = s.outs := rfl

@[simp] theorem State.setPort_pending (s : State) (p : Nat) (x : PortSt) : (s.setPort p x).pending = s.pending := rfl
@[simp] theorem State.setPort_clock (s : State) (p : Nat) (x : PortSt) : (s.setPort p x).clock = s.clock := rfl
@[simp] theorem State.setPort_freeCtr (s : State) (p : Nat) (x : PortSt) : (s.setPort p x).freeCtr = s.freeCtr := rfl
@[simp] theorem State.setPort_regs (s : State) (p : Nat) (x : PortSt) : (s.setPort p x).regs = s.regs := rfl
@[simp] theorem State.setPort_wide (s : State) (p : Nat) (x : PortSt) : (s.setPort p x).wide = s.wide := rfl
@[simp] theorem State.setPort_mem (s : State) (p : Nat) (x : PortSt) : (s.setPort p x).mem = s.mem := rfl
@[simp] theorem State.setPort_chips (s : State) (p : Nat) (x : PortSt) : (s.setPort p x).chips = s.chips := rfl
@[simp] theorem State.setPort_halves (s : State) (p : Nat) (x : PortSt) : (s.setPort p x).halves = s.halves := rfl
@[simp] theorem State.setPort_cores (s : State) (p : Nat) (x : PortSt) : (s.setPort p x).cores = s.cores := rfl
@[simp] theorem State.setPort_preds (s : State) (p : Nat) (x : PortSt) : (s.setPort p x).preds = s.preds := rfl
@[simp] theorem State.setPort_chans (s : State) (p : Nat) (x : PortSt) : (s.setPort p x).chans = s.chans := rfl
@[simp] theorem State.setPort_cdlys (s : State) (p : Nat) (x : PortSt) : (s.setPort p x).cdlys = s.cdlys := rfl
@[simp] theorem State.setPort_nvm (s : State) (p : Nat) (x : PortSt) : (s.setPort p x).nvm = s.nvm := rfl
@[simp] theorem State.setPort_nvmOp (s : State) (p : Nat) (x : PortSt) : (s.setPort p x).nvmOp = s.nvmOp := rfl
@[simp] theorem State.setPort_calGen (s : State) (p : Nat) (x : PortSt) : (s.setPort p x).calGen = s.calGen := rfl
@[simp] theorem State.setPort_convSeen (s : State) (p : Nat) (x : PortSt) : (s.setPort p x).convSeen = s.convSeen := rfl
@[simp] theorem State.setPort_autoDone (s : State) (p : Nat) (x : PortSt) : (s.setPort p x).autoDone = s.autoDone := rfl
@[simp] theorem State.setPort_vddhLow (s : State) (p : Nat) (x : PortSt) : (s.setPort p x).vddhLow = s.vddhLow := rfl
@[simp] theorem State.setPort_ringSeq (s : State) (p : Nat) (x : PortSt) : (s.setPort p x).ringSeq = s.ringSeq := rfl
@[simp] theorem State.setPort_tb (s : State) (p : Nat) (x : PortSt) : (s.setPort p x).tb = s.tb := rfl
@[simp] theorem State.setPort_queues (s : State) (p : Nat) (x : PortSt) : (s.setPort p x).queues = s.queues := rfl
@[simp] theorem State.setPort_engines (s : State) (p : Nat) (x : PortSt) : (s.setPort p x).engines = s.engines := rfl
@[simp] theorem State.setPort_xip (s : State) (p : Nat) (x : PortSt) : (s.setPort p x).xip = s.xip := rfl
@[simp] theorem State.setPort_ctxBad (s : State) (p : Nat) (x : PortSt) : (s.setPort p x).ctxBad = s.ctxBad := rfl
@[simp] theorem State.setPort_badWords (s : State) (p : Nat) (x : PortSt) : (s.setPort p x).badWords = s.badWords := rfl
@[simp] theorem State.setPort_ecc (s : State) (p : Nat) (x : PortSt) : (s.setPort p x).ecc = s.ecc := rfl
@[simp] theorem State.setPort_rel (s : State) (p : Nat) (x : PortSt) : (s.setPort p x).rel = s.rel := rfl
@[simp] theorem State.setPort_verdicts (s : State) (p : Nat) (x : PortSt) : (s.setPort p x).verdicts = s.verdicts := rfl
@[simp] theorem State.setPort_raising (s : State) (p : Nat) (x : PortSt) : (s.setPort p x).raising = s.raising := rfl
@[simp] theorem State.setPort_raises (s : State) (p : Nat) (x : PortSt) : (s.setPort p x).raises = s.raises := rfl
@[simp] theorem State.setPort_orgs (s : State) (p : Nat) (x : PortSt) : (s.setPort p x).orgs = s.orgs := rfl
@[simp] theorem State.setPort_tansyQ (s : State) (p : Nat) (x : PortSt) : (s.setPort p x).tansyQ = s.tansyQ := rfl
@[simp] theorem State.setPort_tansyGap (s : State) (p : Nat) (x : PortSt) : (s.setPort p x).tansyGap = s.tansyGap := rfl
@[simp] theorem State.setPort_tansySeq (s : State) (p : Nat) (x : PortSt) : (s.setPort p x).tansySeq = s.tansySeq := rfl
@[simp] theorem State.setPort_tansyUnrel (s : State) (p : Nat) (x : PortSt) : (s.setPort p x).tansyUnrel = s.tansyUnrel := rfl
@[simp] theorem State.setPort_parBad (s : State) (p : Nat) (x : PortSt) : (s.setPort p x).parBad = s.parBad := rfl
@[simp] theorem State.setPort_eraseCnt (s : State) (p : Nat) (x : PortSt) : (s.setPort p x).eraseCnt = s.eraseCnt := rfl
@[simp] theorem State.setPort_nvmLost (s : State) (p : Nat) (x : PortSt) : (s.setPort p x).nvmLost = s.nvmLost := rfl
@[simp] theorem State.setPort_timers (s : State) (p : Nat) (x : PortSt) : (s.setPort p x).timers = s.timers := rfl
@[simp] theorem State.setPort_loadMark (s : State) (p : Nat) (x : PortSt) : (s.setPort p x).loadMark = s.loadMark := rfl
@[simp] theorem State.setPort_ssp (s : State) (p : Nat) (x : PortSt) : (s.setPort p x).ssp = s.ssp := rfl
@[simp] theorem State.setPort_sm (s : State) (p : Nat) (x : PortSt) : (s.setPort p x).sm = s.sm := rfl
@[simp] theorem State.setPort_links (s : State) (p : Nat) (x : PortSt) : (s.setPort p x).links = s.links := rfl
@[simp] theorem State.setPort_ry (s : State) (p : Nat) (x : PortSt) : (s.setPort p x).ry = s.ry := rfl
@[simp] theorem State.setPort_raiseTs (s : State) (p : Nat) (x : PortSt) : (s.setPort p x).raiseTs = s.raiseTs := rfl
@[simp] theorem State.setPort_routedAt (s : State) (p : Nat) (x : PortSt) : (s.setPort p x).routedAt = s.routedAt := rfl
@[simp] theorem State.setPort_msix (s : State) (p : Nat) (x : PortSt) : (s.setPort p x).msix = s.msix := rfl
@[simp] theorem State.setPort_cfg (s : State) (p : Nat) (x : PortSt) : (s.setPort p x).cfg = s.cfg := rfl
@[simp] theorem State.setPort_bme (s : State) (p : Nat) (x : PortSt) : (s.setPort p x).bme = s.bme := rfl
@[simp] theorem State.setPort_fnMask (s : State) (p : Nat) (x : PortSt) : (s.setPort p x).fnMask = s.fnMask := rfl
@[simp] theorem State.setPort_msgLast (s : State) (p : Nat) (x : PortSt) : (s.setPort p x).msgLast = s.msgLast := rfl
@[simp] theorem State.setPort_porst (s : State) (p : Nat) (x : PortSt) : (s.setPort p x).porst = s.porst := rfl
@[simp] theorem State.setPort_brown (s : State) (p : Nat) (x : PortSt) : (s.setPort p x).brown = s.brown := rfl
@[simp] theorem State.setPort_warm (s : State) (p : Nat) (x : PortSt) : (s.setPort p x).warm = s.warm := rfl
@[simp] theorem State.setPort_boot (s : State) (p : Nat) (x : PortSt) : (s.setPort p x).boot = s.boot := rfl
@[simp] theorem State.setPort_bootCmd (s : State) (p : Nat) (x : PortSt) : (s.setPort p x).bootCmd = s.bootCmd := rfl
@[simp] theorem State.setPort_wdogFrom (s : State) (p : Nat) (x : PortSt) : (s.setPort p x).wdogFrom = s.wdogFrom := rfl
@[simp] theorem State.setPort_wdogOut (s : State) (p : Nat) (x : PortSt) : (s.setPort p x).wdogOut = s.wdogOut := rfl
@[simp] theorem State.setPort_asyncOver (s : State) (p : Nat) (x : PortSt) : (s.setPort p x).asyncOver = s.asyncOver := rfl
@[simp] theorem State.setPort_halfFaults (s : State) (p : Nat) (x : PortSt) : (s.setPort p x).halfFaults = s.halfFaults := rfl
@[simp] theorem State.setPort_lossFaults (s : State) (p : Nat) (x : PortSt) : (s.setPort p x).lossFaults = s.lossFaults := rfl
@[simp] theorem State.setPort_chipReinit (s : State) (p : Nat) (x : PortSt) : (s.setPort p x).chipReinit = s.chipReinit := rfl
@[simp] theorem State.setPort_reinits (s : State) (p : Nat) (x : PortSt) : (s.setPort p x).reinits = s.reinits := rfl
@[simp] theorem State.setPort_cdStamps (s : State) (p : Nat) (x : PortSt) : (s.setPort p x).cdStamps = s.cdStamps := rfl
@[simp] theorem State.setPort_outs (s : State) (p : Nat) (x : PortSt) : (s.setPort p x).outs = s.outs := rfl

@[simp] theorem State.setChan_pending (s : State) (k : Nat) (x : Chan) : (s.setChan k x).pending = s.pending := rfl
@[simp] theorem State.setChan_clock (s : State) (k : Nat) (x : Chan) : (s.setChan k x).clock = s.clock := rfl
@[simp] theorem State.setChan_freeCtr (s : State) (k : Nat) (x : Chan) : (s.setChan k x).freeCtr = s.freeCtr := rfl
@[simp] theorem State.setChan_regs (s : State) (k : Nat) (x : Chan) : (s.setChan k x).regs = s.regs := rfl
@[simp] theorem State.setChan_wide (s : State) (k : Nat) (x : Chan) : (s.setChan k x).wide = s.wide := rfl
@[simp] theorem State.setChan_mem (s : State) (k : Nat) (x : Chan) : (s.setChan k x).mem = s.mem := rfl
@[simp] theorem State.setChan_chips (s : State) (k : Nat) (x : Chan) : (s.setChan k x).chips = s.chips := rfl
@[simp] theorem State.setChan_halves (s : State) (k : Nat) (x : Chan) : (s.setChan k x).halves = s.halves := rfl
@[simp] theorem State.setChan_cores (s : State) (k : Nat) (x : Chan) : (s.setChan k x).cores = s.cores := rfl
@[simp] theorem State.setChan_ports (s : State) (k : Nat) (x : Chan) : (s.setChan k x).ports = s.ports := rfl
@[simp] theorem State.setChan_preds (s : State) (k : Nat) (x : Chan) : (s.setChan k x).preds = s.preds := rfl
@[simp] theorem State.setChan_cdlys (s : State) (k : Nat) (x : Chan) : (s.setChan k x).cdlys = s.cdlys := rfl
@[simp] theorem State.setChan_nvm (s : State) (k : Nat) (x : Chan) : (s.setChan k x).nvm = s.nvm := rfl
@[simp] theorem State.setChan_nvmOp (s : State) (k : Nat) (x : Chan) : (s.setChan k x).nvmOp = s.nvmOp := rfl
@[simp] theorem State.setChan_calGen (s : State) (k : Nat) (x : Chan) : (s.setChan k x).calGen = s.calGen := rfl
@[simp] theorem State.setChan_convSeen (s : State) (k : Nat) (x : Chan) : (s.setChan k x).convSeen = s.convSeen := rfl
@[simp] theorem State.setChan_autoDone (s : State) (k : Nat) (x : Chan) : (s.setChan k x).autoDone = s.autoDone := rfl
@[simp] theorem State.setChan_vddhLow (s : State) (k : Nat) (x : Chan) : (s.setChan k x).vddhLow = s.vddhLow := rfl
@[simp] theorem State.setChan_ringSeq (s : State) (k : Nat) (x : Chan) : (s.setChan k x).ringSeq = s.ringSeq := rfl
@[simp] theorem State.setChan_tb (s : State) (k : Nat) (x : Chan) : (s.setChan k x).tb = s.tb := rfl
@[simp] theorem State.setChan_queues (s : State) (k : Nat) (x : Chan) : (s.setChan k x).queues = s.queues := rfl
@[simp] theorem State.setChan_engines (s : State) (k : Nat) (x : Chan) : (s.setChan k x).engines = s.engines := rfl
@[simp] theorem State.setChan_xip (s : State) (k : Nat) (x : Chan) : (s.setChan k x).xip = s.xip := rfl
@[simp] theorem State.setChan_ctxBad (s : State) (k : Nat) (x : Chan) : (s.setChan k x).ctxBad = s.ctxBad := rfl
@[simp] theorem State.setChan_badWords (s : State) (k : Nat) (x : Chan) : (s.setChan k x).badWords = s.badWords := rfl
@[simp] theorem State.setChan_ecc (s : State) (k : Nat) (x : Chan) : (s.setChan k x).ecc = s.ecc := rfl
@[simp] theorem State.setChan_rel (s : State) (k : Nat) (x : Chan) : (s.setChan k x).rel = s.rel := rfl
@[simp] theorem State.setChan_verdicts (s : State) (k : Nat) (x : Chan) : (s.setChan k x).verdicts = s.verdicts := rfl
@[simp] theorem State.setChan_raising (s : State) (k : Nat) (x : Chan) : (s.setChan k x).raising = s.raising := rfl
@[simp] theorem State.setChan_raises (s : State) (k : Nat) (x : Chan) : (s.setChan k x).raises = s.raises := rfl
@[simp] theorem State.setChan_orgs (s : State) (k : Nat) (x : Chan) : (s.setChan k x).orgs = s.orgs := rfl
@[simp] theorem State.setChan_tansyQ (s : State) (k : Nat) (x : Chan) : (s.setChan k x).tansyQ = s.tansyQ := rfl
@[simp] theorem State.setChan_tansyGap (s : State) (k : Nat) (x : Chan) : (s.setChan k x).tansyGap = s.tansyGap := rfl
@[simp] theorem State.setChan_tansySeq (s : State) (k : Nat) (x : Chan) : (s.setChan k x).tansySeq = s.tansySeq := rfl
@[simp] theorem State.setChan_tansyUnrel (s : State) (k : Nat) (x : Chan) : (s.setChan k x).tansyUnrel = s.tansyUnrel := rfl
@[simp] theorem State.setChan_parBad (s : State) (k : Nat) (x : Chan) : (s.setChan k x).parBad = s.parBad := rfl
@[simp] theorem State.setChan_eraseCnt (s : State) (k : Nat) (x : Chan) : (s.setChan k x).eraseCnt = s.eraseCnt := rfl
@[simp] theorem State.setChan_nvmLost (s : State) (k : Nat) (x : Chan) : (s.setChan k x).nvmLost = s.nvmLost := rfl
@[simp] theorem State.setChan_timers (s : State) (k : Nat) (x : Chan) : (s.setChan k x).timers = s.timers := rfl
@[simp] theorem State.setChan_loadMark (s : State) (k : Nat) (x : Chan) : (s.setChan k x).loadMark = s.loadMark := rfl
@[simp] theorem State.setChan_ssp (s : State) (k : Nat) (x : Chan) : (s.setChan k x).ssp = s.ssp := rfl
@[simp] theorem State.setChan_sm (s : State) (k : Nat) (x : Chan) : (s.setChan k x).sm = s.sm := rfl
@[simp] theorem State.setChan_links (s : State) (k : Nat) (x : Chan) : (s.setChan k x).links = s.links := rfl
@[simp] theorem State.setChan_ry (s : State) (k : Nat) (x : Chan) : (s.setChan k x).ry = s.ry := rfl
@[simp] theorem State.setChan_raiseTs (s : State) (k : Nat) (x : Chan) : (s.setChan k x).raiseTs = s.raiseTs := rfl
@[simp] theorem State.setChan_routedAt (s : State) (k : Nat) (x : Chan) : (s.setChan k x).routedAt = s.routedAt := rfl
@[simp] theorem State.setChan_msix (s : State) (k : Nat) (x : Chan) : (s.setChan k x).msix = s.msix := rfl
@[simp] theorem State.setChan_cfg (s : State) (k : Nat) (x : Chan) : (s.setChan k x).cfg = s.cfg := rfl
@[simp] theorem State.setChan_bme (s : State) (k : Nat) (x : Chan) : (s.setChan k x).bme = s.bme := rfl
@[simp] theorem State.setChan_fnMask (s : State) (k : Nat) (x : Chan) : (s.setChan k x).fnMask = s.fnMask := rfl
@[simp] theorem State.setChan_msgLast (s : State) (k : Nat) (x : Chan) : (s.setChan k x).msgLast = s.msgLast := rfl
@[simp] theorem State.setChan_porst (s : State) (k : Nat) (x : Chan) : (s.setChan k x).porst = s.porst := rfl
@[simp] theorem State.setChan_brown (s : State) (k : Nat) (x : Chan) : (s.setChan k x).brown = s.brown := rfl
@[simp] theorem State.setChan_warm (s : State) (k : Nat) (x : Chan) : (s.setChan k x).warm = s.warm := rfl
@[simp] theorem State.setChan_boot (s : State) (k : Nat) (x : Chan) : (s.setChan k x).boot = s.boot := rfl
@[simp] theorem State.setChan_bootCmd (s : State) (k : Nat) (x : Chan) : (s.setChan k x).bootCmd = s.bootCmd := rfl
@[simp] theorem State.setChan_wdogFrom (s : State) (k : Nat) (x : Chan) : (s.setChan k x).wdogFrom = s.wdogFrom := rfl
@[simp] theorem State.setChan_wdogOut (s : State) (k : Nat) (x : Chan) : (s.setChan k x).wdogOut = s.wdogOut := rfl
@[simp] theorem State.setChan_asyncOver (s : State) (k : Nat) (x : Chan) : (s.setChan k x).asyncOver = s.asyncOver := rfl
@[simp] theorem State.setChan_halfFaults (s : State) (k : Nat) (x : Chan) : (s.setChan k x).halfFaults = s.halfFaults := rfl
@[simp] theorem State.setChan_lossFaults (s : State) (k : Nat) (x : Chan) : (s.setChan k x).lossFaults = s.lossFaults := rfl
@[simp] theorem State.setChan_chipReinit (s : State) (k : Nat) (x : Chan) : (s.setChan k x).chipReinit = s.chipReinit := rfl
@[simp] theorem State.setChan_reinits (s : State) (k : Nat) (x : Chan) : (s.setChan k x).reinits = s.reinits := rfl
@[simp] theorem State.setChan_cdStamps (s : State) (k : Nat) (x : Chan) : (s.setChan k x).cdStamps = s.cdStamps := rfl
@[simp] theorem State.setChan_outs (s : State) (k : Nat) (x : Chan) : (s.setChan k x).outs = s.outs := rfl

@[simp] theorem State.setQueue_pending (s : State) (q : Nat) (x : Queue) : (s.setQueue q x).pending = s.pending := rfl
@[simp] theorem State.setQueue_clock (s : State) (q : Nat) (x : Queue) : (s.setQueue q x).clock = s.clock := rfl
@[simp] theorem State.setQueue_freeCtr (s : State) (q : Nat) (x : Queue) : (s.setQueue q x).freeCtr = s.freeCtr := rfl
@[simp] theorem State.setQueue_regs (s : State) (q : Nat) (x : Queue) : (s.setQueue q x).regs = s.regs := rfl
@[simp] theorem State.setQueue_wide (s : State) (q : Nat) (x : Queue) : (s.setQueue q x).wide = s.wide := rfl
@[simp] theorem State.setQueue_mem (s : State) (q : Nat) (x : Queue) : (s.setQueue q x).mem = s.mem := rfl
@[simp] theorem State.setQueue_chips (s : State) (q : Nat) (x : Queue) : (s.setQueue q x).chips = s.chips := rfl
@[simp] theorem State.setQueue_halves (s : State) (q : Nat) (x : Queue) : (s.setQueue q x).halves = s.halves := rfl
@[simp] theorem State.setQueue_cores (s : State) (q : Nat) (x : Queue) : (s.setQueue q x).cores = s.cores := rfl
@[simp] theorem State.setQueue_ports (s : State) (q : Nat) (x : Queue) : (s.setQueue q x).ports = s.ports := rfl
@[simp] theorem State.setQueue_preds (s : State) (q : Nat) (x : Queue) : (s.setQueue q x).preds = s.preds := rfl
@[simp] theorem State.setQueue_chans (s : State) (q : Nat) (x : Queue) : (s.setQueue q x).chans = s.chans := rfl
@[simp] theorem State.setQueue_cdlys (s : State) (q : Nat) (x : Queue) : (s.setQueue q x).cdlys = s.cdlys := rfl
@[simp] theorem State.setQueue_nvm (s : State) (q : Nat) (x : Queue) : (s.setQueue q x).nvm = s.nvm := rfl
@[simp] theorem State.setQueue_nvmOp (s : State) (q : Nat) (x : Queue) : (s.setQueue q x).nvmOp = s.nvmOp := rfl
@[simp] theorem State.setQueue_calGen (s : State) (q : Nat) (x : Queue) : (s.setQueue q x).calGen = s.calGen := rfl
@[simp] theorem State.setQueue_convSeen (s : State) (q : Nat) (x : Queue) : (s.setQueue q x).convSeen = s.convSeen := rfl
@[simp] theorem State.setQueue_autoDone (s : State) (q : Nat) (x : Queue) : (s.setQueue q x).autoDone = s.autoDone := rfl
@[simp] theorem State.setQueue_vddhLow (s : State) (q : Nat) (x : Queue) : (s.setQueue q x).vddhLow = s.vddhLow := rfl
@[simp] theorem State.setQueue_ringSeq (s : State) (q : Nat) (x : Queue) : (s.setQueue q x).ringSeq = s.ringSeq := rfl
@[simp] theorem State.setQueue_tb (s : State) (q : Nat) (x : Queue) : (s.setQueue q x).tb = s.tb := rfl
@[simp] theorem State.setQueue_engines (s : State) (q : Nat) (x : Queue) : (s.setQueue q x).engines = s.engines := rfl
@[simp] theorem State.setQueue_xip (s : State) (q : Nat) (x : Queue) : (s.setQueue q x).xip = s.xip := rfl
@[simp] theorem State.setQueue_ctxBad (s : State) (q : Nat) (x : Queue) : (s.setQueue q x).ctxBad = s.ctxBad := rfl
@[simp] theorem State.setQueue_badWords (s : State) (q : Nat) (x : Queue) : (s.setQueue q x).badWords = s.badWords := rfl
@[simp] theorem State.setQueue_ecc (s : State) (q : Nat) (x : Queue) : (s.setQueue q x).ecc = s.ecc := rfl
@[simp] theorem State.setQueue_rel (s : State) (q : Nat) (x : Queue) : (s.setQueue q x).rel = s.rel := rfl
@[simp] theorem State.setQueue_verdicts (s : State) (q : Nat) (x : Queue) : (s.setQueue q x).verdicts = s.verdicts := rfl
@[simp] theorem State.setQueue_raising (s : State) (q : Nat) (x : Queue) : (s.setQueue q x).raising = s.raising := rfl
@[simp] theorem State.setQueue_raises (s : State) (q : Nat) (x : Queue) : (s.setQueue q x).raises = s.raises := rfl
@[simp] theorem State.setQueue_orgs (s : State) (q : Nat) (x : Queue) : (s.setQueue q x).orgs = s.orgs := rfl
@[simp] theorem State.setQueue_tansyQ (s : State) (q : Nat) (x : Queue) : (s.setQueue q x).tansyQ = s.tansyQ := rfl
@[simp] theorem State.setQueue_tansyGap (s : State) (q : Nat) (x : Queue) : (s.setQueue q x).tansyGap = s.tansyGap := rfl
@[simp] theorem State.setQueue_tansySeq (s : State) (q : Nat) (x : Queue) : (s.setQueue q x).tansySeq = s.tansySeq := rfl
@[simp] theorem State.setQueue_tansyUnrel (s : State) (q : Nat) (x : Queue) : (s.setQueue q x).tansyUnrel = s.tansyUnrel := rfl
@[simp] theorem State.setQueue_parBad (s : State) (q : Nat) (x : Queue) : (s.setQueue q x).parBad = s.parBad := rfl
@[simp] theorem State.setQueue_eraseCnt (s : State) (q : Nat) (x : Queue) : (s.setQueue q x).eraseCnt = s.eraseCnt := rfl
@[simp] theorem State.setQueue_nvmLost (s : State) (q : Nat) (x : Queue) : (s.setQueue q x).nvmLost = s.nvmLost := rfl
@[simp] theorem State.setQueue_timers (s : State) (q : Nat) (x : Queue) : (s.setQueue q x).timers = s.timers := rfl
@[simp] theorem State.setQueue_loadMark (s : State) (q : Nat) (x : Queue) : (s.setQueue q x).loadMark = s.loadMark := rfl
@[simp] theorem State.setQueue_ssp (s : State) (q : Nat) (x : Queue) : (s.setQueue q x).ssp = s.ssp := rfl
@[simp] theorem State.setQueue_sm (s : State) (q : Nat) (x : Queue) : (s.setQueue q x).sm = s.sm := rfl
@[simp] theorem State.setQueue_links (s : State) (q : Nat) (x : Queue) : (s.setQueue q x).links = s.links := rfl
@[simp] theorem State.setQueue_ry (s : State) (q : Nat) (x : Queue) : (s.setQueue q x).ry = s.ry := rfl
@[simp] theorem State.setQueue_raiseTs (s : State) (q : Nat) (x : Queue) : (s.setQueue q x).raiseTs = s.raiseTs := rfl
@[simp] theorem State.setQueue_routedAt (s : State) (q : Nat) (x : Queue) : (s.setQueue q x).routedAt = s.routedAt := rfl
@[simp] theorem State.setQueue_msix (s : State) (q : Nat) (x : Queue) : (s.setQueue q x).msix = s.msix := rfl
@[simp] theorem State.setQueue_cfg (s : State) (q : Nat) (x : Queue) : (s.setQueue q x).cfg = s.cfg := rfl
@[simp] theorem State.setQueue_bme (s : State) (q : Nat) (x : Queue) : (s.setQueue q x).bme = s.bme := rfl
@[simp] theorem State.setQueue_fnMask (s : State) (q : Nat) (x : Queue) : (s.setQueue q x).fnMask = s.fnMask := rfl
@[simp] theorem State.setQueue_msgLast (s : State) (q : Nat) (x : Queue) : (s.setQueue q x).msgLast = s.msgLast := rfl
@[simp] theorem State.setQueue_porst (s : State) (q : Nat) (x : Queue) : (s.setQueue q x).porst = s.porst := rfl
@[simp] theorem State.setQueue_brown (s : State) (q : Nat) (x : Queue) : (s.setQueue q x).brown = s.brown := rfl
@[simp] theorem State.setQueue_warm (s : State) (q : Nat) (x : Queue) : (s.setQueue q x).warm = s.warm := rfl
@[simp] theorem State.setQueue_boot (s : State) (q : Nat) (x : Queue) : (s.setQueue q x).boot = s.boot := rfl
@[simp] theorem State.setQueue_bootCmd (s : State) (q : Nat) (x : Queue) : (s.setQueue q x).bootCmd = s.bootCmd := rfl
@[simp] theorem State.setQueue_wdogFrom (s : State) (q : Nat) (x : Queue) : (s.setQueue q x).wdogFrom = s.wdogFrom := rfl
@[simp] theorem State.setQueue_wdogOut (s : State) (q : Nat) (x : Queue) : (s.setQueue q x).wdogOut = s.wdogOut := rfl
@[simp] theorem State.setQueue_asyncOver (s : State) (q : Nat) (x : Queue) : (s.setQueue q x).asyncOver = s.asyncOver := rfl
@[simp] theorem State.setQueue_halfFaults (s : State) (q : Nat) (x : Queue) : (s.setQueue q x).halfFaults = s.halfFaults := rfl
@[simp] theorem State.setQueue_lossFaults (s : State) (q : Nat) (x : Queue) : (s.setQueue q x).lossFaults = s.lossFaults := rfl
@[simp] theorem State.setQueue_chipReinit (s : State) (q : Nat) (x : Queue) : (s.setQueue q x).chipReinit = s.chipReinit := rfl
@[simp] theorem State.setQueue_reinits (s : State) (q : Nat) (x : Queue) : (s.setQueue q x).reinits = s.reinits := rfl
@[simp] theorem State.setQueue_cdStamps (s : State) (q : Nat) (x : Queue) : (s.setQueue q x).cdStamps = s.cdStamps := rfl
@[simp] theorem State.setQueue_outs (s : State) (q : Nat) (x : Queue) : (s.setQueue q x).outs = s.outs := rfl

@[simp] theorem State.setEng_pending (s : State) (e : Nat) (x : Eng) : (s.setEng e x).pending = s.pending := rfl
@[simp] theorem State.setEng_clock (s : State) (e : Nat) (x : Eng) : (s.setEng e x).clock = s.clock := rfl
@[simp] theorem State.setEng_freeCtr (s : State) (e : Nat) (x : Eng) : (s.setEng e x).freeCtr = s.freeCtr := rfl
@[simp] theorem State.setEng_regs (s : State) (e : Nat) (x : Eng) : (s.setEng e x).regs = s.regs := rfl
@[simp] theorem State.setEng_wide (s : State) (e : Nat) (x : Eng) : (s.setEng e x).wide = s.wide := rfl
@[simp] theorem State.setEng_mem (s : State) (e : Nat) (x : Eng) : (s.setEng e x).mem = s.mem := rfl
@[simp] theorem State.setEng_chips (s : State) (e : Nat) (x : Eng) : (s.setEng e x).chips = s.chips := rfl
@[simp] theorem State.setEng_halves (s : State) (e : Nat) (x : Eng) : (s.setEng e x).halves = s.halves := rfl
@[simp] theorem State.setEng_cores (s : State) (e : Nat) (x : Eng) : (s.setEng e x).cores = s.cores := rfl
@[simp] theorem State.setEng_ports (s : State) (e : Nat) (x : Eng) : (s.setEng e x).ports = s.ports := rfl
@[simp] theorem State.setEng_preds (s : State) (e : Nat) (x : Eng) : (s.setEng e x).preds = s.preds := rfl
@[simp] theorem State.setEng_chans (s : State) (e : Nat) (x : Eng) : (s.setEng e x).chans = s.chans := rfl
@[simp] theorem State.setEng_cdlys (s : State) (e : Nat) (x : Eng) : (s.setEng e x).cdlys = s.cdlys := rfl
@[simp] theorem State.setEng_nvm (s : State) (e : Nat) (x : Eng) : (s.setEng e x).nvm = s.nvm := rfl
@[simp] theorem State.setEng_nvmOp (s : State) (e : Nat) (x : Eng) : (s.setEng e x).nvmOp = s.nvmOp := rfl
@[simp] theorem State.setEng_calGen (s : State) (e : Nat) (x : Eng) : (s.setEng e x).calGen = s.calGen := rfl
@[simp] theorem State.setEng_convSeen (s : State) (e : Nat) (x : Eng) : (s.setEng e x).convSeen = s.convSeen := rfl
@[simp] theorem State.setEng_autoDone (s : State) (e : Nat) (x : Eng) : (s.setEng e x).autoDone = s.autoDone := rfl
@[simp] theorem State.setEng_vddhLow (s : State) (e : Nat) (x : Eng) : (s.setEng e x).vddhLow = s.vddhLow := rfl
@[simp] theorem State.setEng_ringSeq (s : State) (e : Nat) (x : Eng) : (s.setEng e x).ringSeq = s.ringSeq := rfl
@[simp] theorem State.setEng_tb (s : State) (e : Nat) (x : Eng) : (s.setEng e x).tb = s.tb := rfl
@[simp] theorem State.setEng_queues (s : State) (e : Nat) (x : Eng) : (s.setEng e x).queues = s.queues := rfl
@[simp] theorem State.setEng_xip (s : State) (e : Nat) (x : Eng) : (s.setEng e x).xip = s.xip := rfl
@[simp] theorem State.setEng_ctxBad (s : State) (e : Nat) (x : Eng) : (s.setEng e x).ctxBad = s.ctxBad := rfl
@[simp] theorem State.setEng_badWords (s : State) (e : Nat) (x : Eng) : (s.setEng e x).badWords = s.badWords := rfl
@[simp] theorem State.setEng_ecc (s : State) (e : Nat) (x : Eng) : (s.setEng e x).ecc = s.ecc := rfl
@[simp] theorem State.setEng_rel (s : State) (e : Nat) (x : Eng) : (s.setEng e x).rel = s.rel := rfl
@[simp] theorem State.setEng_verdicts (s : State) (e : Nat) (x : Eng) : (s.setEng e x).verdicts = s.verdicts := rfl
@[simp] theorem State.setEng_raising (s : State) (e : Nat) (x : Eng) : (s.setEng e x).raising = s.raising := rfl
@[simp] theorem State.setEng_raises (s : State) (e : Nat) (x : Eng) : (s.setEng e x).raises = s.raises := rfl
@[simp] theorem State.setEng_orgs (s : State) (e : Nat) (x : Eng) : (s.setEng e x).orgs = s.orgs := rfl
@[simp] theorem State.setEng_tansyQ (s : State) (e : Nat) (x : Eng) : (s.setEng e x).tansyQ = s.tansyQ := rfl
@[simp] theorem State.setEng_tansyGap (s : State) (e : Nat) (x : Eng) : (s.setEng e x).tansyGap = s.tansyGap := rfl
@[simp] theorem State.setEng_tansySeq (s : State) (e : Nat) (x : Eng) : (s.setEng e x).tansySeq = s.tansySeq := rfl
@[simp] theorem State.setEng_tansyUnrel (s : State) (e : Nat) (x : Eng) : (s.setEng e x).tansyUnrel = s.tansyUnrel := rfl
@[simp] theorem State.setEng_parBad (s : State) (e : Nat) (x : Eng) : (s.setEng e x).parBad = s.parBad := rfl
@[simp] theorem State.setEng_eraseCnt (s : State) (e : Nat) (x : Eng) : (s.setEng e x).eraseCnt = s.eraseCnt := rfl
@[simp] theorem State.setEng_nvmLost (s : State) (e : Nat) (x : Eng) : (s.setEng e x).nvmLost = s.nvmLost := rfl
@[simp] theorem State.setEng_timers (s : State) (e : Nat) (x : Eng) : (s.setEng e x).timers = s.timers := rfl
@[simp] theorem State.setEng_loadMark (s : State) (e : Nat) (x : Eng) : (s.setEng e x).loadMark = s.loadMark := rfl
@[simp] theorem State.setEng_ssp (s : State) (e : Nat) (x : Eng) : (s.setEng e x).ssp = s.ssp := rfl
@[simp] theorem State.setEng_sm (s : State) (e : Nat) (x : Eng) : (s.setEng e x).sm = s.sm := rfl
@[simp] theorem State.setEng_links (s : State) (e : Nat) (x : Eng) : (s.setEng e x).links = s.links := rfl
@[simp] theorem State.setEng_ry (s : State) (e : Nat) (x : Eng) : (s.setEng e x).ry = s.ry := rfl
@[simp] theorem State.setEng_raiseTs (s : State) (e : Nat) (x : Eng) : (s.setEng e x).raiseTs = s.raiseTs := rfl
@[simp] theorem State.setEng_routedAt (s : State) (e : Nat) (x : Eng) : (s.setEng e x).routedAt = s.routedAt := rfl
@[simp] theorem State.setEng_msix (s : State) (e : Nat) (x : Eng) : (s.setEng e x).msix = s.msix := rfl
@[simp] theorem State.setEng_cfg (s : State) (e : Nat) (x : Eng) : (s.setEng e x).cfg = s.cfg := rfl
@[simp] theorem State.setEng_bme (s : State) (e : Nat) (x : Eng) : (s.setEng e x).bme = s.bme := rfl
@[simp] theorem State.setEng_fnMask (s : State) (e : Nat) (x : Eng) : (s.setEng e x).fnMask = s.fnMask := rfl
@[simp] theorem State.setEng_msgLast (s : State) (e : Nat) (x : Eng) : (s.setEng e x).msgLast = s.msgLast := rfl
@[simp] theorem State.setEng_porst (s : State) (e : Nat) (x : Eng) : (s.setEng e x).porst = s.porst := rfl
@[simp] theorem State.setEng_brown (s : State) (e : Nat) (x : Eng) : (s.setEng e x).brown = s.brown := rfl
@[simp] theorem State.setEng_warm (s : State) (e : Nat) (x : Eng) : (s.setEng e x).warm = s.warm := rfl
@[simp] theorem State.setEng_boot (s : State) (e : Nat) (x : Eng) : (s.setEng e x).boot = s.boot := rfl
@[simp] theorem State.setEng_bootCmd (s : State) (e : Nat) (x : Eng) : (s.setEng e x).bootCmd = s.bootCmd := rfl
@[simp] theorem State.setEng_wdogFrom (s : State) (e : Nat) (x : Eng) : (s.setEng e x).wdogFrom = s.wdogFrom := rfl
@[simp] theorem State.setEng_wdogOut (s : State) (e : Nat) (x : Eng) : (s.setEng e x).wdogOut = s.wdogOut := rfl
@[simp] theorem State.setEng_asyncOver (s : State) (e : Nat) (x : Eng) : (s.setEng e x).asyncOver = s.asyncOver := rfl
@[simp] theorem State.setEng_halfFaults (s : State) (e : Nat) (x : Eng) : (s.setEng e x).halfFaults = s.halfFaults := rfl
@[simp] theorem State.setEng_lossFaults (s : State) (e : Nat) (x : Eng) : (s.setEng e x).lossFaults = s.lossFaults := rfl
@[simp] theorem State.setEng_chipReinit (s : State) (e : Nat) (x : Eng) : (s.setEng e x).chipReinit = s.chipReinit := rfl
@[simp] theorem State.setEng_reinits (s : State) (e : Nat) (x : Eng) : (s.setEng e x).reinits = s.reinits := rfl
@[simp] theorem State.setEng_cdStamps (s : State) (e : Nat) (x : Eng) : (s.setEng e x).cdStamps = s.cdStamps := rfl
@[simp] theorem State.setEng_outs (s : State) (e : Nat) (x : Eng) : (s.setEng e x).outs = s.outs := rfl

@[simp] theorem State.setCdly_pending (s : State) (l : Nat) (x : Cdly) : (s.setCdly l x).pending = s.pending := rfl
@[simp] theorem State.setCdly_clock (s : State) (l : Nat) (x : Cdly) : (s.setCdly l x).clock = s.clock := rfl
@[simp] theorem State.setCdly_freeCtr (s : State) (l : Nat) (x : Cdly) : (s.setCdly l x).freeCtr = s.freeCtr := rfl
@[simp] theorem State.setCdly_regs (s : State) (l : Nat) (x : Cdly) : (s.setCdly l x).regs = s.regs := rfl
@[simp] theorem State.setCdly_wide (s : State) (l : Nat) (x : Cdly) : (s.setCdly l x).wide = s.wide := rfl
@[simp] theorem State.setCdly_mem (s : State) (l : Nat) (x : Cdly) : (s.setCdly l x).mem = s.mem := rfl
@[simp] theorem State.setCdly_chips (s : State) (l : Nat) (x : Cdly) : (s.setCdly l x).chips = s.chips := rfl
@[simp] theorem State.setCdly_halves (s : State) (l : Nat) (x : Cdly) : (s.setCdly l x).halves = s.halves := rfl
@[simp] theorem State.setCdly_cores (s : State) (l : Nat) (x : Cdly) : (s.setCdly l x).cores = s.cores := rfl
@[simp] theorem State.setCdly_ports (s : State) (l : Nat) (x : Cdly) : (s.setCdly l x).ports = s.ports := rfl
@[simp] theorem State.setCdly_preds (s : State) (l : Nat) (x : Cdly) : (s.setCdly l x).preds = s.preds := rfl
@[simp] theorem State.setCdly_chans (s : State) (l : Nat) (x : Cdly) : (s.setCdly l x).chans = s.chans := rfl
@[simp] theorem State.setCdly_nvm (s : State) (l : Nat) (x : Cdly) : (s.setCdly l x).nvm = s.nvm := rfl
@[simp] theorem State.setCdly_nvmOp (s : State) (l : Nat) (x : Cdly) : (s.setCdly l x).nvmOp = s.nvmOp := rfl
@[simp] theorem State.setCdly_calGen (s : State) (l : Nat) (x : Cdly) : (s.setCdly l x).calGen = s.calGen := rfl
@[simp] theorem State.setCdly_convSeen (s : State) (l : Nat) (x : Cdly) : (s.setCdly l x).convSeen = s.convSeen := rfl
@[simp] theorem State.setCdly_autoDone (s : State) (l : Nat) (x : Cdly) : (s.setCdly l x).autoDone = s.autoDone := rfl
@[simp] theorem State.setCdly_vddhLow (s : State) (l : Nat) (x : Cdly) : (s.setCdly l x).vddhLow = s.vddhLow := rfl
@[simp] theorem State.setCdly_ringSeq (s : State) (l : Nat) (x : Cdly) : (s.setCdly l x).ringSeq = s.ringSeq := rfl
@[simp] theorem State.setCdly_tb (s : State) (l : Nat) (x : Cdly) : (s.setCdly l x).tb = s.tb := rfl
@[simp] theorem State.setCdly_queues (s : State) (l : Nat) (x : Cdly) : (s.setCdly l x).queues = s.queues := rfl
@[simp] theorem State.setCdly_engines (s : State) (l : Nat) (x : Cdly) : (s.setCdly l x).engines = s.engines := rfl
@[simp] theorem State.setCdly_xip (s : State) (l : Nat) (x : Cdly) : (s.setCdly l x).xip = s.xip := rfl
@[simp] theorem State.setCdly_ctxBad (s : State) (l : Nat) (x : Cdly) : (s.setCdly l x).ctxBad = s.ctxBad := rfl
@[simp] theorem State.setCdly_badWords (s : State) (l : Nat) (x : Cdly) : (s.setCdly l x).badWords = s.badWords := rfl
@[simp] theorem State.setCdly_ecc (s : State) (l : Nat) (x : Cdly) : (s.setCdly l x).ecc = s.ecc := rfl
@[simp] theorem State.setCdly_rel (s : State) (l : Nat) (x : Cdly) : (s.setCdly l x).rel = s.rel := rfl
@[simp] theorem State.setCdly_verdicts (s : State) (l : Nat) (x : Cdly) : (s.setCdly l x).verdicts = s.verdicts := rfl
@[simp] theorem State.setCdly_raising (s : State) (l : Nat) (x : Cdly) : (s.setCdly l x).raising = s.raising := rfl
@[simp] theorem State.setCdly_raises (s : State) (l : Nat) (x : Cdly) : (s.setCdly l x).raises = s.raises := rfl
@[simp] theorem State.setCdly_orgs (s : State) (l : Nat) (x : Cdly) : (s.setCdly l x).orgs = s.orgs := rfl
@[simp] theorem State.setCdly_tansyQ (s : State) (l : Nat) (x : Cdly) : (s.setCdly l x).tansyQ = s.tansyQ := rfl
@[simp] theorem State.setCdly_tansyGap (s : State) (l : Nat) (x : Cdly) : (s.setCdly l x).tansyGap = s.tansyGap := rfl
@[simp] theorem State.setCdly_tansySeq (s : State) (l : Nat) (x : Cdly) : (s.setCdly l x).tansySeq = s.tansySeq := rfl
@[simp] theorem State.setCdly_tansyUnrel (s : State) (l : Nat) (x : Cdly) : (s.setCdly l x).tansyUnrel = s.tansyUnrel := rfl
@[simp] theorem State.setCdly_parBad (s : State) (l : Nat) (x : Cdly) : (s.setCdly l x).parBad = s.parBad := rfl
@[simp] theorem State.setCdly_eraseCnt (s : State) (l : Nat) (x : Cdly) : (s.setCdly l x).eraseCnt = s.eraseCnt := rfl
@[simp] theorem State.setCdly_nvmLost (s : State) (l : Nat) (x : Cdly) : (s.setCdly l x).nvmLost = s.nvmLost := rfl
@[simp] theorem State.setCdly_timers (s : State) (l : Nat) (x : Cdly) : (s.setCdly l x).timers = s.timers := rfl
@[simp] theorem State.setCdly_loadMark (s : State) (l : Nat) (x : Cdly) : (s.setCdly l x).loadMark = s.loadMark := rfl
@[simp] theorem State.setCdly_ssp (s : State) (l : Nat) (x : Cdly) : (s.setCdly l x).ssp = s.ssp := rfl
@[simp] theorem State.setCdly_sm (s : State) (l : Nat) (x : Cdly) : (s.setCdly l x).sm = s.sm := rfl
@[simp] theorem State.setCdly_links (s : State) (l : Nat) (x : Cdly) : (s.setCdly l x).links = s.links := rfl
@[simp] theorem State.setCdly_ry (s : State) (l : Nat) (x : Cdly) : (s.setCdly l x).ry = s.ry := rfl
@[simp] theorem State.setCdly_raiseTs (s : State) (l : Nat) (x : Cdly) : (s.setCdly l x).raiseTs = s.raiseTs := rfl
@[simp] theorem State.setCdly_routedAt (s : State) (l : Nat) (x : Cdly) : (s.setCdly l x).routedAt = s.routedAt := rfl
@[simp] theorem State.setCdly_msix (s : State) (l : Nat) (x : Cdly) : (s.setCdly l x).msix = s.msix := rfl
@[simp] theorem State.setCdly_cfg (s : State) (l : Nat) (x : Cdly) : (s.setCdly l x).cfg = s.cfg := rfl
@[simp] theorem State.setCdly_bme (s : State) (l : Nat) (x : Cdly) : (s.setCdly l x).bme = s.bme := rfl
@[simp] theorem State.setCdly_fnMask (s : State) (l : Nat) (x : Cdly) : (s.setCdly l x).fnMask = s.fnMask := rfl
@[simp] theorem State.setCdly_msgLast (s : State) (l : Nat) (x : Cdly) : (s.setCdly l x).msgLast = s.msgLast := rfl
@[simp] theorem State.setCdly_porst (s : State) (l : Nat) (x : Cdly) : (s.setCdly l x).porst = s.porst := rfl
@[simp] theorem State.setCdly_brown (s : State) (l : Nat) (x : Cdly) : (s.setCdly l x).brown = s.brown := rfl
@[simp] theorem State.setCdly_warm (s : State) (l : Nat) (x : Cdly) : (s.setCdly l x).warm = s.warm := rfl
@[simp] theorem State.setCdly_boot (s : State) (l : Nat) (x : Cdly) : (s.setCdly l x).boot = s.boot := rfl
@[simp] theorem State.setCdly_bootCmd (s : State) (l : Nat) (x : Cdly) : (s.setCdly l x).bootCmd = s.bootCmd := rfl
@[simp] theorem State.setCdly_wdogFrom (s : State) (l : Nat) (x : Cdly) : (s.setCdly l x).wdogFrom = s.wdogFrom := rfl
@[simp] theorem State.setCdly_wdogOut (s : State) (l : Nat) (x : Cdly) : (s.setCdly l x).wdogOut = s.wdogOut := rfl
@[simp] theorem State.setCdly_asyncOver (s : State) (l : Nat) (x : Cdly) : (s.setCdly l x).asyncOver = s.asyncOver := rfl
@[simp] theorem State.setCdly_halfFaults (s : State) (l : Nat) (x : Cdly) : (s.setCdly l x).halfFaults = s.halfFaults := rfl
@[simp] theorem State.setCdly_lossFaults (s : State) (l : Nat) (x : Cdly) : (s.setCdly l x).lossFaults = s.lossFaults := rfl
@[simp] theorem State.setCdly_chipReinit (s : State) (l : Nat) (x : Cdly) : (s.setCdly l x).chipReinit = s.chipReinit := rfl
@[simp] theorem State.setCdly_reinits (s : State) (l : Nat) (x : Cdly) : (s.setCdly l x).reinits = s.reinits := rfl
@[simp] theorem State.setCdly_cdStamps (s : State) (l : Nat) (x : Cdly) : (s.setCdly l x).cdStamps = s.cdStamps := rfl
@[simp] theorem State.setCdly_outs (s : State) (l : Nat) (x : Cdly) : (s.setCdly l x).outs = s.outs := rfl

@[simp] theorem State.setOrg_pending (s : State) (o : Nat) (x : OriginSt) : (s.setOrg o x).pending = s.pending := rfl
@[simp] theorem State.setOrg_clock (s : State) (o : Nat) (x : OriginSt) : (s.setOrg o x).clock = s.clock := rfl
@[simp] theorem State.setOrg_freeCtr (s : State) (o : Nat) (x : OriginSt) : (s.setOrg o x).freeCtr = s.freeCtr := rfl
@[simp] theorem State.setOrg_regs (s : State) (o : Nat) (x : OriginSt) : (s.setOrg o x).regs = s.regs := rfl
@[simp] theorem State.setOrg_wide (s : State) (o : Nat) (x : OriginSt) : (s.setOrg o x).wide = s.wide := rfl
@[simp] theorem State.setOrg_mem (s : State) (o : Nat) (x : OriginSt) : (s.setOrg o x).mem = s.mem := rfl
@[simp] theorem State.setOrg_chips (s : State) (o : Nat) (x : OriginSt) : (s.setOrg o x).chips = s.chips := rfl
@[simp] theorem State.setOrg_halves (s : State) (o : Nat) (x : OriginSt) : (s.setOrg o x).halves = s.halves := rfl
@[simp] theorem State.setOrg_cores (s : State) (o : Nat) (x : OriginSt) : (s.setOrg o x).cores = s.cores := rfl
@[simp] theorem State.setOrg_ports (s : State) (o : Nat) (x : OriginSt) : (s.setOrg o x).ports = s.ports := rfl
@[simp] theorem State.setOrg_preds (s : State) (o : Nat) (x : OriginSt) : (s.setOrg o x).preds = s.preds := rfl
@[simp] theorem State.setOrg_chans (s : State) (o : Nat) (x : OriginSt) : (s.setOrg o x).chans = s.chans := rfl
@[simp] theorem State.setOrg_cdlys (s : State) (o : Nat) (x : OriginSt) : (s.setOrg o x).cdlys = s.cdlys := rfl
@[simp] theorem State.setOrg_nvm (s : State) (o : Nat) (x : OriginSt) : (s.setOrg o x).nvm = s.nvm := rfl
@[simp] theorem State.setOrg_nvmOp (s : State) (o : Nat) (x : OriginSt) : (s.setOrg o x).nvmOp = s.nvmOp := rfl
@[simp] theorem State.setOrg_calGen (s : State) (o : Nat) (x : OriginSt) : (s.setOrg o x).calGen = s.calGen := rfl
@[simp] theorem State.setOrg_convSeen (s : State) (o : Nat) (x : OriginSt) : (s.setOrg o x).convSeen = s.convSeen := rfl
@[simp] theorem State.setOrg_autoDone (s : State) (o : Nat) (x : OriginSt) : (s.setOrg o x).autoDone = s.autoDone := rfl
@[simp] theorem State.setOrg_vddhLow (s : State) (o : Nat) (x : OriginSt) : (s.setOrg o x).vddhLow = s.vddhLow := rfl
@[simp] theorem State.setOrg_ringSeq (s : State) (o : Nat) (x : OriginSt) : (s.setOrg o x).ringSeq = s.ringSeq := rfl
@[simp] theorem State.setOrg_tb (s : State) (o : Nat) (x : OriginSt) : (s.setOrg o x).tb = s.tb := rfl
@[simp] theorem State.setOrg_queues (s : State) (o : Nat) (x : OriginSt) : (s.setOrg o x).queues = s.queues := rfl
@[simp] theorem State.setOrg_engines (s : State) (o : Nat) (x : OriginSt) : (s.setOrg o x).engines = s.engines := rfl
@[simp] theorem State.setOrg_xip (s : State) (o : Nat) (x : OriginSt) : (s.setOrg o x).xip = s.xip := rfl
@[simp] theorem State.setOrg_ctxBad (s : State) (o : Nat) (x : OriginSt) : (s.setOrg o x).ctxBad = s.ctxBad := rfl
@[simp] theorem State.setOrg_badWords (s : State) (o : Nat) (x : OriginSt) : (s.setOrg o x).badWords = s.badWords := rfl
@[simp] theorem State.setOrg_ecc (s : State) (o : Nat) (x : OriginSt) : (s.setOrg o x).ecc = s.ecc := rfl
@[simp] theorem State.setOrg_rel (s : State) (o : Nat) (x : OriginSt) : (s.setOrg o x).rel = s.rel := rfl
@[simp] theorem State.setOrg_verdicts (s : State) (o : Nat) (x : OriginSt) : (s.setOrg o x).verdicts = s.verdicts := rfl
@[simp] theorem State.setOrg_raising (s : State) (o : Nat) (x : OriginSt) : (s.setOrg o x).raising = s.raising := rfl
@[simp] theorem State.setOrg_raises (s : State) (o : Nat) (x : OriginSt) : (s.setOrg o x).raises = s.raises := rfl
@[simp] theorem State.setOrg_tansyQ (s : State) (o : Nat) (x : OriginSt) : (s.setOrg o x).tansyQ = s.tansyQ := rfl
@[simp] theorem State.setOrg_tansyGap (s : State) (o : Nat) (x : OriginSt) : (s.setOrg o x).tansyGap = s.tansyGap := rfl
@[simp] theorem State.setOrg_tansySeq (s : State) (o : Nat) (x : OriginSt) : (s.setOrg o x).tansySeq = s.tansySeq := rfl
@[simp] theorem State.setOrg_tansyUnrel (s : State) (o : Nat) (x : OriginSt) : (s.setOrg o x).tansyUnrel = s.tansyUnrel := rfl
@[simp] theorem State.setOrg_parBad (s : State) (o : Nat) (x : OriginSt) : (s.setOrg o x).parBad = s.parBad := rfl
@[simp] theorem State.setOrg_eraseCnt (s : State) (o : Nat) (x : OriginSt) : (s.setOrg o x).eraseCnt = s.eraseCnt := rfl
@[simp] theorem State.setOrg_nvmLost (s : State) (o : Nat) (x : OriginSt) : (s.setOrg o x).nvmLost = s.nvmLost := rfl
@[simp] theorem State.setOrg_timers (s : State) (o : Nat) (x : OriginSt) : (s.setOrg o x).timers = s.timers := rfl
@[simp] theorem State.setOrg_loadMark (s : State) (o : Nat) (x : OriginSt) : (s.setOrg o x).loadMark = s.loadMark := rfl
@[simp] theorem State.setOrg_ssp (s : State) (o : Nat) (x : OriginSt) : (s.setOrg o x).ssp = s.ssp := rfl
@[simp] theorem State.setOrg_sm (s : State) (o : Nat) (x : OriginSt) : (s.setOrg o x).sm = s.sm := rfl
@[simp] theorem State.setOrg_links (s : State) (o : Nat) (x : OriginSt) : (s.setOrg o x).links = s.links := rfl
@[simp] theorem State.setOrg_ry (s : State) (o : Nat) (x : OriginSt) : (s.setOrg o x).ry = s.ry := rfl
@[simp] theorem State.setOrg_raiseTs (s : State) (o : Nat) (x : OriginSt) : (s.setOrg o x).raiseTs = s.raiseTs := rfl
@[simp] theorem State.setOrg_routedAt (s : State) (o : Nat) (x : OriginSt) : (s.setOrg o x).routedAt = s.routedAt := rfl
@[simp] theorem State.setOrg_msix (s : State) (o : Nat) (x : OriginSt) : (s.setOrg o x).msix = s.msix := rfl
@[simp] theorem State.setOrg_cfg (s : State) (o : Nat) (x : OriginSt) : (s.setOrg o x).cfg = s.cfg := rfl
@[simp] theorem State.setOrg_bme (s : State) (o : Nat) (x : OriginSt) : (s.setOrg o x).bme = s.bme := rfl
@[simp] theorem State.setOrg_fnMask (s : State) (o : Nat) (x : OriginSt) : (s.setOrg o x).fnMask = s.fnMask := rfl
@[simp] theorem State.setOrg_msgLast (s : State) (o : Nat) (x : OriginSt) : (s.setOrg o x).msgLast = s.msgLast := rfl
@[simp] theorem State.setOrg_porst (s : State) (o : Nat) (x : OriginSt) : (s.setOrg o x).porst = s.porst := rfl
@[simp] theorem State.setOrg_brown (s : State) (o : Nat) (x : OriginSt) : (s.setOrg o x).brown = s.brown := rfl
@[simp] theorem State.setOrg_warm (s : State) (o : Nat) (x : OriginSt) : (s.setOrg o x).warm = s.warm := rfl
@[simp] theorem State.setOrg_boot (s : State) (o : Nat) (x : OriginSt) : (s.setOrg o x).boot = s.boot := rfl
@[simp] theorem State.setOrg_bootCmd (s : State) (o : Nat) (x : OriginSt) : (s.setOrg o x).bootCmd = s.bootCmd := rfl
@[simp] theorem State.setOrg_wdogFrom (s : State) (o : Nat) (x : OriginSt) : (s.setOrg o x).wdogFrom = s.wdogFrom := rfl
@[simp] theorem State.setOrg_wdogOut (s : State) (o : Nat) (x : OriginSt) : (s.setOrg o x).wdogOut = s.wdogOut := rfl
@[simp] theorem State.setOrg_asyncOver (s : State) (o : Nat) (x : OriginSt) : (s.setOrg o x).asyncOver = s.asyncOver := rfl
@[simp] theorem State.setOrg_halfFaults (s : State) (o : Nat) (x : OriginSt) : (s.setOrg o x).halfFaults = s.halfFaults := rfl
@[simp] theorem State.setOrg_lossFaults (s : State) (o : Nat) (x : OriginSt) : (s.setOrg o x).lossFaults = s.lossFaults := rfl
@[simp] theorem State.setOrg_chipReinit (s : State) (o : Nat) (x : OriginSt) : (s.setOrg o x).chipReinit = s.chipReinit := rfl
@[simp] theorem State.setOrg_reinits (s : State) (o : Nat) (x : OriginSt) : (s.setOrg o x).reinits = s.reinits := rfl
@[simp] theorem State.setOrg_cdStamps (s : State) (o : Nat) (x : OriginSt) : (s.setOrg o x).cdStamps = s.cdStamps := rfl
@[simp] theorem State.setOrg_outs (s : State) (o : Nat) (x : OriginSt) : (s.setOrg o x).outs = s.outs := rfl

@[simp] theorem State.setLnk_pending (s : State) (l : Nat) (x : Lnk) : (s.setLnk l x).pending = s.pending := rfl
@[simp] theorem State.setLnk_clock (s : State) (l : Nat) (x : Lnk) : (s.setLnk l x).clock = s.clock := rfl
@[simp] theorem State.setLnk_freeCtr (s : State) (l : Nat) (x : Lnk) : (s.setLnk l x).freeCtr = s.freeCtr := rfl
@[simp] theorem State.setLnk_regs (s : State) (l : Nat) (x : Lnk) : (s.setLnk l x).regs = s.regs := rfl
@[simp] theorem State.setLnk_wide (s : State) (l : Nat) (x : Lnk) : (s.setLnk l x).wide = s.wide := rfl
@[simp] theorem State.setLnk_mem (s : State) (l : Nat) (x : Lnk) : (s.setLnk l x).mem = s.mem := rfl
@[simp] theorem State.setLnk_chips (s : State) (l : Nat) (x : Lnk) : (s.setLnk l x).chips = s.chips := rfl
@[simp] theorem State.setLnk_halves (s : State) (l : Nat) (x : Lnk) : (s.setLnk l x).halves = s.halves := rfl
@[simp] theorem State.setLnk_cores (s : State) (l : Nat) (x : Lnk) : (s.setLnk l x).cores = s.cores := rfl
@[simp] theorem State.setLnk_ports (s : State) (l : Nat) (x : Lnk) : (s.setLnk l x).ports = s.ports := rfl
@[simp] theorem State.setLnk_preds (s : State) (l : Nat) (x : Lnk) : (s.setLnk l x).preds = s.preds := rfl
@[simp] theorem State.setLnk_chans (s : State) (l : Nat) (x : Lnk) : (s.setLnk l x).chans = s.chans := rfl
@[simp] theorem State.setLnk_cdlys (s : State) (l : Nat) (x : Lnk) : (s.setLnk l x).cdlys = s.cdlys := rfl
@[simp] theorem State.setLnk_nvm (s : State) (l : Nat) (x : Lnk) : (s.setLnk l x).nvm = s.nvm := rfl
@[simp] theorem State.setLnk_nvmOp (s : State) (l : Nat) (x : Lnk) : (s.setLnk l x).nvmOp = s.nvmOp := rfl
@[simp] theorem State.setLnk_calGen (s : State) (l : Nat) (x : Lnk) : (s.setLnk l x).calGen = s.calGen := rfl
@[simp] theorem State.setLnk_convSeen (s : State) (l : Nat) (x : Lnk) : (s.setLnk l x).convSeen = s.convSeen := rfl
@[simp] theorem State.setLnk_autoDone (s : State) (l : Nat) (x : Lnk) : (s.setLnk l x).autoDone = s.autoDone := rfl
@[simp] theorem State.setLnk_vddhLow (s : State) (l : Nat) (x : Lnk) : (s.setLnk l x).vddhLow = s.vddhLow := rfl
@[simp] theorem State.setLnk_ringSeq (s : State) (l : Nat) (x : Lnk) : (s.setLnk l x).ringSeq = s.ringSeq := rfl
@[simp] theorem State.setLnk_tb (s : State) (l : Nat) (x : Lnk) : (s.setLnk l x).tb = s.tb := rfl
@[simp] theorem State.setLnk_queues (s : State) (l : Nat) (x : Lnk) : (s.setLnk l x).queues = s.queues := rfl
@[simp] theorem State.setLnk_engines (s : State) (l : Nat) (x : Lnk) : (s.setLnk l x).engines = s.engines := rfl
@[simp] theorem State.setLnk_xip (s : State) (l : Nat) (x : Lnk) : (s.setLnk l x).xip = s.xip := rfl
@[simp] theorem State.setLnk_ctxBad (s : State) (l : Nat) (x : Lnk) : (s.setLnk l x).ctxBad = s.ctxBad := rfl
@[simp] theorem State.setLnk_badWords (s : State) (l : Nat) (x : Lnk) : (s.setLnk l x).badWords = s.badWords := rfl
@[simp] theorem State.setLnk_ecc (s : State) (l : Nat) (x : Lnk) : (s.setLnk l x).ecc = s.ecc := rfl
@[simp] theorem State.setLnk_rel (s : State) (l : Nat) (x : Lnk) : (s.setLnk l x).rel = s.rel := rfl
@[simp] theorem State.setLnk_verdicts (s : State) (l : Nat) (x : Lnk) : (s.setLnk l x).verdicts = s.verdicts := rfl
@[simp] theorem State.setLnk_raising (s : State) (l : Nat) (x : Lnk) : (s.setLnk l x).raising = s.raising := rfl
@[simp] theorem State.setLnk_raises (s : State) (l : Nat) (x : Lnk) : (s.setLnk l x).raises = s.raises := rfl
@[simp] theorem State.setLnk_orgs (s : State) (l : Nat) (x : Lnk) : (s.setLnk l x).orgs = s.orgs := rfl
@[simp] theorem State.setLnk_tansyQ (s : State) (l : Nat) (x : Lnk) : (s.setLnk l x).tansyQ = s.tansyQ := rfl
@[simp] theorem State.setLnk_tansyGap (s : State) (l : Nat) (x : Lnk) : (s.setLnk l x).tansyGap = s.tansyGap := rfl
@[simp] theorem State.setLnk_tansySeq (s : State) (l : Nat) (x : Lnk) : (s.setLnk l x).tansySeq = s.tansySeq := rfl
@[simp] theorem State.setLnk_tansyUnrel (s : State) (l : Nat) (x : Lnk) : (s.setLnk l x).tansyUnrel = s.tansyUnrel := rfl
@[simp] theorem State.setLnk_parBad (s : State) (l : Nat) (x : Lnk) : (s.setLnk l x).parBad = s.parBad := rfl
@[simp] theorem State.setLnk_eraseCnt (s : State) (l : Nat) (x : Lnk) : (s.setLnk l x).eraseCnt = s.eraseCnt := rfl
@[simp] theorem State.setLnk_nvmLost (s : State) (l : Nat) (x : Lnk) : (s.setLnk l x).nvmLost = s.nvmLost := rfl
@[simp] theorem State.setLnk_timers (s : State) (l : Nat) (x : Lnk) : (s.setLnk l x).timers = s.timers := rfl
@[simp] theorem State.setLnk_loadMark (s : State) (l : Nat) (x : Lnk) : (s.setLnk l x).loadMark = s.loadMark := rfl
@[simp] theorem State.setLnk_ssp (s : State) (l : Nat) (x : Lnk) : (s.setLnk l x).ssp = s.ssp := rfl
@[simp] theorem State.setLnk_sm (s : State) (l : Nat) (x : Lnk) : (s.setLnk l x).sm = s.sm := rfl
@[simp] theorem State.setLnk_ry (s : State) (l : Nat) (x : Lnk) : (s.setLnk l x).ry = s.ry := rfl
@[simp] theorem State.setLnk_raiseTs (s : State) (l : Nat) (x : Lnk) : (s.setLnk l x).raiseTs = s.raiseTs := rfl
@[simp] theorem State.setLnk_routedAt (s : State) (l : Nat) (x : Lnk) : (s.setLnk l x).routedAt = s.routedAt := rfl
@[simp] theorem State.setLnk_msix (s : State) (l : Nat) (x : Lnk) : (s.setLnk l x).msix = s.msix := rfl
@[simp] theorem State.setLnk_cfg (s : State) (l : Nat) (x : Lnk) : (s.setLnk l x).cfg = s.cfg := rfl
@[simp] theorem State.setLnk_bme (s : State) (l : Nat) (x : Lnk) : (s.setLnk l x).bme = s.bme := rfl
@[simp] theorem State.setLnk_fnMask (s : State) (l : Nat) (x : Lnk) : (s.setLnk l x).fnMask = s.fnMask := rfl
@[simp] theorem State.setLnk_msgLast (s : State) (l : Nat) (x : Lnk) : (s.setLnk l x).msgLast = s.msgLast := rfl
@[simp] theorem State.setLnk_porst (s : State) (l : Nat) (x : Lnk) : (s.setLnk l x).porst = s.porst := rfl
@[simp] theorem State.setLnk_brown (s : State) (l : Nat) (x : Lnk) : (s.setLnk l x).brown = s.brown := rfl
@[simp] theorem State.setLnk_warm (s : State) (l : Nat) (x : Lnk) : (s.setLnk l x).warm = s.warm := rfl
@[simp] theorem State.setLnk_boot (s : State) (l : Nat) (x : Lnk) : (s.setLnk l x).boot = s.boot := rfl
@[simp] theorem State.setLnk_bootCmd (s : State) (l : Nat) (x : Lnk) : (s.setLnk l x).bootCmd = s.bootCmd := rfl
@[simp] theorem State.setLnk_wdogFrom (s : State) (l : Nat) (x : Lnk) : (s.setLnk l x).wdogFrom = s.wdogFrom := rfl
@[simp] theorem State.setLnk_wdogOut (s : State) (l : Nat) (x : Lnk) : (s.setLnk l x).wdogOut = s.wdogOut := rfl
@[simp] theorem State.setLnk_asyncOver (s : State) (l : Nat) (x : Lnk) : (s.setLnk l x).asyncOver = s.asyncOver := rfl
@[simp] theorem State.setLnk_halfFaults (s : State) (l : Nat) (x : Lnk) : (s.setLnk l x).halfFaults = s.halfFaults := rfl
@[simp] theorem State.setLnk_lossFaults (s : State) (l : Nat) (x : Lnk) : (s.setLnk l x).lossFaults = s.lossFaults := rfl
@[simp] theorem State.setLnk_chipReinit (s : State) (l : Nat) (x : Lnk) : (s.setLnk l x).chipReinit = s.chipReinit := rfl
@[simp] theorem State.setLnk_reinits (s : State) (l : Nat) (x : Lnk) : (s.setLnk l x).reinits = s.reinits := rfl
@[simp] theorem State.setLnk_cdStamps (s : State) (l : Nat) (x : Lnk) : (s.setLnk l x).cdStamps = s.cdStamps := rfl
@[simp] theorem State.setLnk_outs (s : State) (l : Nat) (x : Lnk) : (s.setLnk l x).outs = s.outs := rfl

@[simp] theorem State.setVec_pending (s : State) (v : Nat) (x : Vec) : (s.setVec v x).pending = s.pending := rfl
@[simp] theorem State.setVec_clock (s : State) (v : Nat) (x : Vec) : (s.setVec v x).clock = s.clock := rfl
@[simp] theorem State.setVec_freeCtr (s : State) (v : Nat) (x : Vec) : (s.setVec v x).freeCtr = s.freeCtr := rfl
@[simp] theorem State.setVec_regs (s : State) (v : Nat) (x : Vec) : (s.setVec v x).regs = s.regs := rfl
@[simp] theorem State.setVec_wide (s : State) (v : Nat) (x : Vec) : (s.setVec v x).wide = s.wide := rfl
@[simp] theorem State.setVec_mem (s : State) (v : Nat) (x : Vec) : (s.setVec v x).mem = s.mem := rfl
@[simp] theorem State.setVec_chips (s : State) (v : Nat) (x : Vec) : (s.setVec v x).chips = s.chips := rfl
@[simp] theorem State.setVec_halves (s : State) (v : Nat) (x : Vec) : (s.setVec v x).halves = s.halves := rfl
@[simp] theorem State.setVec_cores (s : State) (v : Nat) (x : Vec) : (s.setVec v x).cores = s.cores := rfl
@[simp] theorem State.setVec_ports (s : State) (v : Nat) (x : Vec) : (s.setVec v x).ports = s.ports := rfl
@[simp] theorem State.setVec_preds (s : State) (v : Nat) (x : Vec) : (s.setVec v x).preds = s.preds := rfl
@[simp] theorem State.setVec_chans (s : State) (v : Nat) (x : Vec) : (s.setVec v x).chans = s.chans := rfl
@[simp] theorem State.setVec_cdlys (s : State) (v : Nat) (x : Vec) : (s.setVec v x).cdlys = s.cdlys := rfl
@[simp] theorem State.setVec_nvm (s : State) (v : Nat) (x : Vec) : (s.setVec v x).nvm = s.nvm := rfl
@[simp] theorem State.setVec_nvmOp (s : State) (v : Nat) (x : Vec) : (s.setVec v x).nvmOp = s.nvmOp := rfl
@[simp] theorem State.setVec_calGen (s : State) (v : Nat) (x : Vec) : (s.setVec v x).calGen = s.calGen := rfl
@[simp] theorem State.setVec_convSeen (s : State) (v : Nat) (x : Vec) : (s.setVec v x).convSeen = s.convSeen := rfl
@[simp] theorem State.setVec_autoDone (s : State) (v : Nat) (x : Vec) : (s.setVec v x).autoDone = s.autoDone := rfl
@[simp] theorem State.setVec_vddhLow (s : State) (v : Nat) (x : Vec) : (s.setVec v x).vddhLow = s.vddhLow := rfl
@[simp] theorem State.setVec_ringSeq (s : State) (v : Nat) (x : Vec) : (s.setVec v x).ringSeq = s.ringSeq := rfl
@[simp] theorem State.setVec_tb (s : State) (v : Nat) (x : Vec) : (s.setVec v x).tb = s.tb := rfl
@[simp] theorem State.setVec_queues (s : State) (v : Nat) (x : Vec) : (s.setVec v x).queues = s.queues := rfl
@[simp] theorem State.setVec_engines (s : State) (v : Nat) (x : Vec) : (s.setVec v x).engines = s.engines := rfl
@[simp] theorem State.setVec_xip (s : State) (v : Nat) (x : Vec) : (s.setVec v x).xip = s.xip := rfl
@[simp] theorem State.setVec_ctxBad (s : State) (v : Nat) (x : Vec) : (s.setVec v x).ctxBad = s.ctxBad := rfl
@[simp] theorem State.setVec_badWords (s : State) (v : Nat) (x : Vec) : (s.setVec v x).badWords = s.badWords := rfl
@[simp] theorem State.setVec_ecc (s : State) (v : Nat) (x : Vec) : (s.setVec v x).ecc = s.ecc := rfl
@[simp] theorem State.setVec_rel (s : State) (v : Nat) (x : Vec) : (s.setVec v x).rel = s.rel := rfl
@[simp] theorem State.setVec_verdicts (s : State) (v : Nat) (x : Vec) : (s.setVec v x).verdicts = s.verdicts := rfl
@[simp] theorem State.setVec_raising (s : State) (v : Nat) (x : Vec) : (s.setVec v x).raising = s.raising := rfl
@[simp] theorem State.setVec_raises (s : State) (v : Nat) (x : Vec) : (s.setVec v x).raises = s.raises := rfl
@[simp] theorem State.setVec_orgs (s : State) (v : Nat) (x : Vec) : (s.setVec v x).orgs = s.orgs := rfl
@[simp] theorem State.setVec_tansyQ (s : State) (v : Nat) (x : Vec) : (s.setVec v x).tansyQ = s.tansyQ := rfl
@[simp] theorem State.setVec_tansyGap (s : State) (v : Nat) (x : Vec) : (s.setVec v x).tansyGap = s.tansyGap := rfl
@[simp] theorem State.setVec_tansySeq (s : State) (v : Nat) (x : Vec) : (s.setVec v x).tansySeq = s.tansySeq := rfl
@[simp] theorem State.setVec_tansyUnrel (s : State) (v : Nat) (x : Vec) : (s.setVec v x).tansyUnrel = s.tansyUnrel := rfl
@[simp] theorem State.setVec_parBad (s : State) (v : Nat) (x : Vec) : (s.setVec v x).parBad = s.parBad := rfl
@[simp] theorem State.setVec_eraseCnt (s : State) (v : Nat) (x : Vec) : (s.setVec v x).eraseCnt = s.eraseCnt := rfl
@[simp] theorem State.setVec_nvmLost (s : State) (v : Nat) (x : Vec) : (s.setVec v x).nvmLost = s.nvmLost := rfl
@[simp] theorem State.setVec_timers (s : State) (v : Nat) (x : Vec) : (s.setVec v x).timers = s.timers := rfl
@[simp] theorem State.setVec_loadMark (s : State) (v : Nat) (x : Vec) : (s.setVec v x).loadMark = s.loadMark := rfl
@[simp] theorem State.setVec_ssp (s : State) (v : Nat) (x : Vec) : (s.setVec v x).ssp = s.ssp := rfl
@[simp] theorem State.setVec_sm (s : State) (v : Nat) (x : Vec) : (s.setVec v x).sm = s.sm := rfl
@[simp] theorem State.setVec_links (s : State) (v : Nat) (x : Vec) : (s.setVec v x).links = s.links := rfl
@[simp] theorem State.setVec_ry (s : State) (v : Nat) (x : Vec) : (s.setVec v x).ry = s.ry := rfl
@[simp] theorem State.setVec_raiseTs (s : State) (v : Nat) (x : Vec) : (s.setVec v x).raiseTs = s.raiseTs := rfl
@[simp] theorem State.setVec_routedAt (s : State) (v : Nat) (x : Vec) : (s.setVec v x).routedAt = s.routedAt := rfl
@[simp] theorem State.setVec_cfg (s : State) (v : Nat) (x : Vec) : (s.setVec v x).cfg = s.cfg := rfl
@[simp] theorem State.setVec_bme (s : State) (v : Nat) (x : Vec) : (s.setVec v x).bme = s.bme := rfl
@[simp] theorem State.setVec_fnMask (s : State) (v : Nat) (x : Vec) : (s.setVec v x).fnMask = s.fnMask := rfl
@[simp] theorem State.setVec_msgLast (s : State) (v : Nat) (x : Vec) : (s.setVec v x).msgLast = s.msgLast := rfl
@[simp] theorem State.setVec_porst (s : State) (v : Nat) (x : Vec) : (s.setVec v x).porst = s.porst := rfl
@[simp] theorem State.setVec_brown (s : State) (v : Nat) (x : Vec) : (s.setVec v x).brown = s.brown := rfl
@[simp] theorem State.setVec_warm (s : State) (v : Nat) (x : Vec) : (s.setVec v x).warm = s.warm := rfl
@[simp] theorem State.setVec_boot (s : State) (v : Nat) (x : Vec) : (s.setVec v x).boot = s.boot := rfl
@[simp] theorem State.setVec_bootCmd (s : State) (v : Nat) (x : Vec) : (s.setVec v x).bootCmd = s.bootCmd := rfl
@[simp] theorem State.setVec_wdogFrom (s : State) (v : Nat) (x : Vec) : (s.setVec v x).wdogFrom = s.wdogFrom := rfl
@[simp] theorem State.setVec_wdogOut (s : State) (v : Nat) (x : Vec) : (s.setVec v x).wdogOut = s.wdogOut := rfl
@[simp] theorem State.setVec_asyncOver (s : State) (v : Nat) (x : Vec) : (s.setVec v x).asyncOver = s.asyncOver := rfl
@[simp] theorem State.setVec_halfFaults (s : State) (v : Nat) (x : Vec) : (s.setVec v x).halfFaults = s.halfFaults := rfl
@[simp] theorem State.setVec_lossFaults (s : State) (v : Nat) (x : Vec) : (s.setVec v x).lossFaults = s.lossFaults := rfl
@[simp] theorem State.setVec_chipReinit (s : State) (v : Nat) (x : Vec) : (s.setVec v x).chipReinit = s.chipReinit := rfl
@[simp] theorem State.setVec_reinits (s : State) (v : Nat) (x : Vec) : (s.setVec v x).reinits = s.reinits := rfl
@[simp] theorem State.setVec_cdStamps (s : State) (v : Nat) (x : Vec) : (s.setVec v x).cdStamps = s.cdStamps := rfl
@[simp] theorem State.setVec_outs (s : State) (v : Nat) (x : Vec) : (s.setVec v x).outs = s.outs := rfl

@[simp] theorem State.setTimer_pending (s : State) (k v : Nat) : (s.setTimer k v).pending = s.pending := rfl
@[simp] theorem State.setTimer_clock (s : State) (k v : Nat) : (s.setTimer k v).clock = s.clock := rfl
@[simp] theorem State.setTimer_freeCtr (s : State) (k v : Nat) : (s.setTimer k v).freeCtr = s.freeCtr := rfl
@[simp] theorem State.setTimer_regs (s : State) (k v : Nat) : (s.setTimer k v).regs = s.regs := rfl
@[simp] theorem State.setTimer_wide (s : State) (k v : Nat) : (s.setTimer k v).wide = s.wide := rfl
@[simp] theorem State.setTimer_mem (s : State) (k v : Nat) : (s.setTimer k v).mem = s.mem := rfl
@[simp] theorem State.setTimer_chips (s : State) (k v : Nat) : (s.setTimer k v).chips = s.chips := rfl
@[simp] theorem State.setTimer_halves (s : State) (k v : Nat) : (s.setTimer k v).halves = s.halves := rfl
@[simp] theorem State.setTimer_cores (s : State) (k v : Nat) : (s.setTimer k v).cores = s.cores := rfl
@[simp] theorem State.setTimer_ports (s : State) (k v : Nat) : (s.setTimer k v).ports = s.ports := rfl
@[simp] theorem State.setTimer_preds (s : State) (k v : Nat) : (s.setTimer k v).preds = s.preds := rfl
@[simp] theorem State.setTimer_chans (s : State) (k v : Nat) : (s.setTimer k v).chans = s.chans := rfl
@[simp] theorem State.setTimer_cdlys (s : State) (k v : Nat) : (s.setTimer k v).cdlys = s.cdlys := rfl
@[simp] theorem State.setTimer_nvm (s : State) (k v : Nat) : (s.setTimer k v).nvm = s.nvm := rfl
@[simp] theorem State.setTimer_nvmOp (s : State) (k v : Nat) : (s.setTimer k v).nvmOp = s.nvmOp := rfl
@[simp] theorem State.setTimer_calGen (s : State) (k v : Nat) : (s.setTimer k v).calGen = s.calGen := rfl
@[simp] theorem State.setTimer_convSeen (s : State) (k v : Nat) : (s.setTimer k v).convSeen = s.convSeen := rfl
@[simp] theorem State.setTimer_autoDone (s : State) (k v : Nat) : (s.setTimer k v).autoDone = s.autoDone := rfl
@[simp] theorem State.setTimer_vddhLow (s : State) (k v : Nat) : (s.setTimer k v).vddhLow = s.vddhLow := rfl
@[simp] theorem State.setTimer_ringSeq (s : State) (k v : Nat) : (s.setTimer k v).ringSeq = s.ringSeq := rfl
@[simp] theorem State.setTimer_tb (s : State) (k v : Nat) : (s.setTimer k v).tb = s.tb := rfl
@[simp] theorem State.setTimer_queues (s : State) (k v : Nat) : (s.setTimer k v).queues = s.queues := rfl
@[simp] theorem State.setTimer_engines (s : State) (k v : Nat) : (s.setTimer k v).engines = s.engines := rfl
@[simp] theorem State.setTimer_xip (s : State) (k v : Nat) : (s.setTimer k v).xip = s.xip := rfl
@[simp] theorem State.setTimer_ctxBad (s : State) (k v : Nat) : (s.setTimer k v).ctxBad = s.ctxBad := rfl
@[simp] theorem State.setTimer_badWords (s : State) (k v : Nat) : (s.setTimer k v).badWords = s.badWords := rfl
@[simp] theorem State.setTimer_ecc (s : State) (k v : Nat) : (s.setTimer k v).ecc = s.ecc := rfl
@[simp] theorem State.setTimer_rel (s : State) (k v : Nat) : (s.setTimer k v).rel = s.rel := rfl
@[simp] theorem State.setTimer_verdicts (s : State) (k v : Nat) : (s.setTimer k v).verdicts = s.verdicts := rfl
@[simp] theorem State.setTimer_raising (s : State) (k v : Nat) : (s.setTimer k v).raising = s.raising := rfl
@[simp] theorem State.setTimer_raises (s : State) (k v : Nat) : (s.setTimer k v).raises = s.raises := rfl
@[simp] theorem State.setTimer_orgs (s : State) (k v : Nat) : (s.setTimer k v).orgs = s.orgs := rfl
@[simp] theorem State.setTimer_tansyQ (s : State) (k v : Nat) : (s.setTimer k v).tansyQ = s.tansyQ := rfl
@[simp] theorem State.setTimer_tansyGap (s : State) (k v : Nat) : (s.setTimer k v).tansyGap = s.tansyGap := rfl
@[simp] theorem State.setTimer_tansySeq (s : State) (k v : Nat) : (s.setTimer k v).tansySeq = s.tansySeq := rfl
@[simp] theorem State.setTimer_tansyUnrel (s : State) (k v : Nat) : (s.setTimer k v).tansyUnrel = s.tansyUnrel := rfl
@[simp] theorem State.setTimer_parBad (s : State) (k v : Nat) : (s.setTimer k v).parBad = s.parBad := rfl
@[simp] theorem State.setTimer_eraseCnt (s : State) (k v : Nat) : (s.setTimer k v).eraseCnt = s.eraseCnt := rfl
@[simp] theorem State.setTimer_nvmLost (s : State) (k v : Nat) : (s.setTimer k v).nvmLost = s.nvmLost := rfl
@[simp] theorem State.setTimer_loadMark (s : State) (k v : Nat) : (s.setTimer k v).loadMark = s.loadMark := rfl
@[simp] theorem State.setTimer_ssp (s : State) (k v : Nat) : (s.setTimer k v).ssp = s.ssp := rfl
@[simp] theorem State.setTimer_sm (s : State) (k v : Nat) : (s.setTimer k v).sm = s.sm := rfl
@[simp] theorem State.setTimer_links (s : State) (k v : Nat) : (s.setTimer k v).links = s.links := rfl
@[simp] theorem State.setTimer_ry (s : State) (k v : Nat) : (s.setTimer k v).ry = s.ry := rfl
@[simp] theorem State.setTimer_raiseTs (s : State) (k v : Nat) : (s.setTimer k v).raiseTs = s.raiseTs := rfl
@[simp] theorem State.setTimer_routedAt (s : State) (k v : Nat) : (s.setTimer k v).routedAt = s.routedAt := rfl
@[simp] theorem State.setTimer_msix (s : State) (k v : Nat) : (s.setTimer k v).msix = s.msix := rfl
@[simp] theorem State.setTimer_cfg (s : State) (k v : Nat) : (s.setTimer k v).cfg = s.cfg := rfl
@[simp] theorem State.setTimer_bme (s : State) (k v : Nat) : (s.setTimer k v).bme = s.bme := rfl
@[simp] theorem State.setTimer_fnMask (s : State) (k v : Nat) : (s.setTimer k v).fnMask = s.fnMask := rfl
@[simp] theorem State.setTimer_msgLast (s : State) (k v : Nat) : (s.setTimer k v).msgLast = s.msgLast := rfl
@[simp] theorem State.setTimer_porst (s : State) (k v : Nat) : (s.setTimer k v).porst = s.porst := rfl
@[simp] theorem State.setTimer_brown (s : State) (k v : Nat) : (s.setTimer k v).brown = s.brown := rfl
@[simp] theorem State.setTimer_warm (s : State) (k v : Nat) : (s.setTimer k v).warm = s.warm := rfl
@[simp] theorem State.setTimer_boot (s : State) (k v : Nat) : (s.setTimer k v).boot = s.boot := rfl
@[simp] theorem State.setTimer_bootCmd (s : State) (k v : Nat) : (s.setTimer k v).bootCmd = s.bootCmd := rfl
@[simp] theorem State.setTimer_wdogFrom (s : State) (k v : Nat) : (s.setTimer k v).wdogFrom = s.wdogFrom := rfl
@[simp] theorem State.setTimer_wdogOut (s : State) (k v : Nat) : (s.setTimer k v).wdogOut = s.wdogOut := rfl
@[simp] theorem State.setTimer_asyncOver (s : State) (k v : Nat) : (s.setTimer k v).asyncOver = s.asyncOver := rfl
@[simp] theorem State.setTimer_halfFaults (s : State) (k v : Nat) : (s.setTimer k v).halfFaults = s.halfFaults := rfl
@[simp] theorem State.setTimer_lossFaults (s : State) (k v : Nat) : (s.setTimer k v).lossFaults = s.lossFaults := rfl
@[simp] theorem State.setTimer_chipReinit (s : State) (k v : Nat) : (s.setTimer k v).chipReinit = s.chipReinit := rfl
@[simp] theorem State.setTimer_reinits (s : State) (k v : Nat) : (s.setTimer k v).reinits = s.reinits := rfl
@[simp] theorem State.setTimer_cdStamps (s : State) (k v : Nat) : (s.setTimer k v).cdStamps = s.cdStamps := rfl
@[simp] theorem State.setTimer_outs (s : State) (k v : Nat) : (s.setTimer k v).outs = s.outs := rfl

@[simp] theorem State.raise_pending (s : State) (src : Nat) : (s.raise src).pending = s.pending := rfl
@[simp] theorem State.raise_clock (s : State) (src : Nat) : (s.raise src).clock = s.clock := rfl
@[simp] theorem State.raise_freeCtr (s : State) (src : Nat) : (s.raise src).freeCtr = s.freeCtr := rfl
@[simp] theorem State.raise_regs (s : State) (src : Nat) : (s.raise src).regs = s.regs := rfl
@[simp] theorem State.raise_wide (s : State) (src : Nat) : (s.raise src).wide = s.wide := rfl
@[simp] theorem State.raise_mem (s : State) (src : Nat) : (s.raise src).mem = s.mem := rfl
@[simp] theorem State.raise_chips (s : State) (src : Nat) : (s.raise src).chips = s.chips := rfl
@[simp] theorem State.raise_halves (s : State) (src : Nat) : (s.raise src).halves = s.halves := rfl
@[simp] theorem State.raise_cores (s : State) (src : Nat) : (s.raise src).cores = s.cores := rfl
@[simp] theorem State.raise_ports (s : State) (src : Nat) : (s.raise src).ports = s.ports := rfl
@[simp] theorem State.raise_preds (s : State) (src : Nat) : (s.raise src).preds = s.preds := rfl
@[simp] theorem State.raise_chans (s : State) (src : Nat) : (s.raise src).chans = s.chans := rfl
@[simp] theorem State.raise_cdlys (s : State) (src : Nat) : (s.raise src).cdlys = s.cdlys := rfl
@[simp] theorem State.raise_nvm (s : State) (src : Nat) : (s.raise src).nvm = s.nvm := rfl
@[simp] theorem State.raise_nvmOp (s : State) (src : Nat) : (s.raise src).nvmOp = s.nvmOp := rfl
@[simp] theorem State.raise_calGen (s : State) (src : Nat) : (s.raise src).calGen = s.calGen := rfl
@[simp] theorem State.raise_convSeen (s : State) (src : Nat) : (s.raise src).convSeen = s.convSeen := rfl
@[simp] theorem State.raise_autoDone (s : State) (src : Nat) : (s.raise src).autoDone = s.autoDone := rfl
@[simp] theorem State.raise_vddhLow (s : State) (src : Nat) : (s.raise src).vddhLow = s.vddhLow := rfl
@[simp] theorem State.raise_ringSeq (s : State) (src : Nat) : (s.raise src).ringSeq = s.ringSeq := rfl
@[simp] theorem State.raise_tb (s : State) (src : Nat) : (s.raise src).tb = s.tb := rfl
@[simp] theorem State.raise_queues (s : State) (src : Nat) : (s.raise src).queues = s.queues := rfl
@[simp] theorem State.raise_engines (s : State) (src : Nat) : (s.raise src).engines = s.engines := rfl
@[simp] theorem State.raise_xip (s : State) (src : Nat) : (s.raise src).xip = s.xip := rfl
@[simp] theorem State.raise_ctxBad (s : State) (src : Nat) : (s.raise src).ctxBad = s.ctxBad := rfl
@[simp] theorem State.raise_badWords (s : State) (src : Nat) : (s.raise src).badWords = s.badWords := rfl
@[simp] theorem State.raise_ecc (s : State) (src : Nat) : (s.raise src).ecc = s.ecc := rfl
@[simp] theorem State.raise_rel (s : State) (src : Nat) : (s.raise src).rel = s.rel := rfl
@[simp] theorem State.raise_verdicts (s : State) (src : Nat) : (s.raise src).verdicts = s.verdicts := rfl
@[simp] theorem State.raise_raises (s : State) (src : Nat) : (s.raise src).raises = s.raises := rfl
@[simp] theorem State.raise_orgs (s : State) (src : Nat) : (s.raise src).orgs = s.orgs := rfl
@[simp] theorem State.raise_tansyQ (s : State) (src : Nat) : (s.raise src).tansyQ = s.tansyQ := rfl
@[simp] theorem State.raise_tansyGap (s : State) (src : Nat) : (s.raise src).tansyGap = s.tansyGap := rfl
@[simp] theorem State.raise_tansySeq (s : State) (src : Nat) : (s.raise src).tansySeq = s.tansySeq := rfl
@[simp] theorem State.raise_tansyUnrel (s : State) (src : Nat) : (s.raise src).tansyUnrel = s.tansyUnrel := rfl
@[simp] theorem State.raise_parBad (s : State) (src : Nat) : (s.raise src).parBad = s.parBad := rfl
@[simp] theorem State.raise_eraseCnt (s : State) (src : Nat) : (s.raise src).eraseCnt = s.eraseCnt := rfl
@[simp] theorem State.raise_nvmLost (s : State) (src : Nat) : (s.raise src).nvmLost = s.nvmLost := rfl
@[simp] theorem State.raise_timers (s : State) (src : Nat) : (s.raise src).timers = s.timers := rfl
@[simp] theorem State.raise_loadMark (s : State) (src : Nat) : (s.raise src).loadMark = s.loadMark := rfl
@[simp] theorem State.raise_ssp (s : State) (src : Nat) : (s.raise src).ssp = s.ssp := rfl
@[simp] theorem State.raise_sm (s : State) (src : Nat) : (s.raise src).sm = s.sm := rfl
@[simp] theorem State.raise_links (s : State) (src : Nat) : (s.raise src).links = s.links := rfl
@[simp] theorem State.raise_ry (s : State) (src : Nat) : (s.raise src).ry = s.ry := rfl
@[simp] theorem State.raise_raiseTs (s : State) (src : Nat) : (s.raise src).raiseTs = s.raiseTs := rfl
@[simp] theorem State.raise_routedAt (s : State) (src : Nat) : (s.raise src).routedAt = s.routedAt := rfl
@[simp] theorem State.raise_msix (s : State) (src : Nat) : (s.raise src).msix = s.msix := rfl
@[simp] theorem State.raise_cfg (s : State) (src : Nat) : (s.raise src).cfg = s.cfg := rfl
@[simp] theorem State.raise_bme (s : State) (src : Nat) : (s.raise src).bme = s.bme := rfl
@[simp] theorem State.raise_fnMask (s : State) (src : Nat) : (s.raise src).fnMask = s.fnMask := rfl
@[simp] theorem State.raise_msgLast (s : State) (src : Nat) : (s.raise src).msgLast = s.msgLast := rfl
@[simp] theorem State.raise_porst (s : State) (src : Nat) : (s.raise src).porst = s.porst := rfl
@[simp] theorem State.raise_brown (s : State) (src : Nat) : (s.raise src).brown = s.brown := rfl
@[simp] theorem State.raise_warm (s : State) (src : Nat) : (s.raise src).warm = s.warm := rfl
@[simp] theorem State.raise_boot (s : State) (src : Nat) : (s.raise src).boot = s.boot := rfl
@[simp] theorem State.raise_bootCmd (s : State) (src : Nat) : (s.raise src).bootCmd = s.bootCmd := rfl
@[simp] theorem State.raise_wdogFrom (s : State) (src : Nat) : (s.raise src).wdogFrom = s.wdogFrom := rfl
@[simp] theorem State.raise_wdogOut (s : State) (src : Nat) : (s.raise src).wdogOut = s.wdogOut := rfl
@[simp] theorem State.raise_asyncOver (s : State) (src : Nat) : (s.raise src).asyncOver = s.asyncOver := rfl
@[simp] theorem State.raise_halfFaults (s : State) (src : Nat) : (s.raise src).halfFaults = s.halfFaults := rfl
@[simp] theorem State.raise_lossFaults (s : State) (src : Nat) : (s.raise src).lossFaults = s.lossFaults := rfl
@[simp] theorem State.raise_chipReinit (s : State) (src : Nat) : (s.raise src).chipReinit = s.chipReinit := rfl
@[simp] theorem State.raise_reinits (s : State) (src : Nat) : (s.raise src).reinits = s.reinits := rfl
@[simp] theorem State.raise_cdStamps (s : State) (src : Nat) : (s.raise src).cdStamps = s.cdStamps := rfl
@[simp] theorem State.raise_outs (s : State) (src : Nat) : (s.raise src).outs = s.outs := rfl

@[simp] theorem State.emit_pending (s : State) (o : Out) : (s.emit o).pending = s.pending := rfl
@[simp] theorem State.emit_clock (s : State) (o : Out) : (s.emit o).clock = s.clock := rfl
@[simp] theorem State.emit_freeCtr (s : State) (o : Out) : (s.emit o).freeCtr = s.freeCtr := rfl
@[simp] theorem State.emit_regs (s : State) (o : Out) : (s.emit o).regs = s.regs := rfl
@[simp] theorem State.emit_wide (s : State) (o : Out) : (s.emit o).wide = s.wide := rfl
@[simp] theorem State.emit_mem (s : State) (o : Out) : (s.emit o).mem = s.mem := rfl
@[simp] theorem State.emit_chips (s : State) (o : Out) : (s.emit o).chips = s.chips := rfl
@[simp] theorem State.emit_halves (s : State) (o : Out) : (s.emit o).halves = s.halves := rfl
@[simp] theorem State.emit_cores (s : State) (o : Out) : (s.emit o).cores = s.cores := rfl
@[simp] theorem State.emit_ports (s : State) (o : Out) : (s.emit o).ports = s.ports := rfl
@[simp] theorem State.emit_preds (s : State) (o : Out) : (s.emit o).preds = s.preds := rfl
@[simp] theorem State.emit_chans (s : State) (o : Out) : (s.emit o).chans = s.chans := rfl
@[simp] theorem State.emit_cdlys (s : State) (o : Out) : (s.emit o).cdlys = s.cdlys := rfl
@[simp] theorem State.emit_nvm (s : State) (o : Out) : (s.emit o).nvm = s.nvm := rfl
@[simp] theorem State.emit_nvmOp (s : State) (o : Out) : (s.emit o).nvmOp = s.nvmOp := rfl
@[simp] theorem State.emit_calGen (s : State) (o : Out) : (s.emit o).calGen = s.calGen := rfl
@[simp] theorem State.emit_convSeen (s : State) (o : Out) : (s.emit o).convSeen = s.convSeen := rfl
@[simp] theorem State.emit_autoDone (s : State) (o : Out) : (s.emit o).autoDone = s.autoDone := rfl
@[simp] theorem State.emit_vddhLow (s : State) (o : Out) : (s.emit o).vddhLow = s.vddhLow := rfl
@[simp] theorem State.emit_ringSeq (s : State) (o : Out) : (s.emit o).ringSeq = s.ringSeq := rfl
@[simp] theorem State.emit_tb (s : State) (o : Out) : (s.emit o).tb = s.tb := rfl
@[simp] theorem State.emit_queues (s : State) (o : Out) : (s.emit o).queues = s.queues := rfl
@[simp] theorem State.emit_engines (s : State) (o : Out) : (s.emit o).engines = s.engines := rfl
@[simp] theorem State.emit_xip (s : State) (o : Out) : (s.emit o).xip = s.xip := rfl
@[simp] theorem State.emit_ctxBad (s : State) (o : Out) : (s.emit o).ctxBad = s.ctxBad := rfl
@[simp] theorem State.emit_badWords (s : State) (o : Out) : (s.emit o).badWords = s.badWords := rfl
@[simp] theorem State.emit_ecc (s : State) (o : Out) : (s.emit o).ecc = s.ecc := rfl
@[simp] theorem State.emit_rel (s : State) (o : Out) : (s.emit o).rel = s.rel := rfl
@[simp] theorem State.emit_verdicts (s : State) (o : Out) : (s.emit o).verdicts = s.verdicts := rfl
@[simp] theorem State.emit_raising (s : State) (o : Out) : (s.emit o).raising = s.raising := rfl
@[simp] theorem State.emit_raises (s : State) (o : Out) : (s.emit o).raises = s.raises := rfl
@[simp] theorem State.emit_orgs (s : State) (o : Out) : (s.emit o).orgs = s.orgs := rfl
@[simp] theorem State.emit_tansyQ (s : State) (o : Out) : (s.emit o).tansyQ = s.tansyQ := rfl
@[simp] theorem State.emit_tansyGap (s : State) (o : Out) : (s.emit o).tansyGap = s.tansyGap := rfl
@[simp] theorem State.emit_tansySeq (s : State) (o : Out) : (s.emit o).tansySeq = s.tansySeq := rfl
@[simp] theorem State.emit_tansyUnrel (s : State) (o : Out) : (s.emit o).tansyUnrel = s.tansyUnrel := rfl
@[simp] theorem State.emit_parBad (s : State) (o : Out) : (s.emit o).parBad = s.parBad := rfl
@[simp] theorem State.emit_eraseCnt (s : State) (o : Out) : (s.emit o).eraseCnt = s.eraseCnt := rfl
@[simp] theorem State.emit_nvmLost (s : State) (o : Out) : (s.emit o).nvmLost = s.nvmLost := rfl
@[simp] theorem State.emit_timers (s : State) (o : Out) : (s.emit o).timers = s.timers := rfl
@[simp] theorem State.emit_loadMark (s : State) (o : Out) : (s.emit o).loadMark = s.loadMark := rfl
@[simp] theorem State.emit_ssp (s : State) (o : Out) : (s.emit o).ssp = s.ssp := rfl
@[simp] theorem State.emit_sm (s : State) (o : Out) : (s.emit o).sm = s.sm := rfl
@[simp] theorem State.emit_links (s : State) (o : Out) : (s.emit o).links = s.links := rfl
@[simp] theorem State.emit_ry (s : State) (o : Out) : (s.emit o).ry = s.ry := rfl
@[simp] theorem State.emit_raiseTs (s : State) (o : Out) : (s.emit o).raiseTs = s.raiseTs := rfl
@[simp] theorem State.emit_routedAt (s : State) (o : Out) : (s.emit o).routedAt = s.routedAt := rfl
@[simp] theorem State.emit_msix (s : State) (o : Out) : (s.emit o).msix = s.msix := rfl
@[simp] theorem State.emit_cfg (s : State) (o : Out) : (s.emit o).cfg = s.cfg := rfl
@[simp] theorem State.emit_bme (s : State) (o : Out) : (s.emit o).bme = s.bme := rfl
@[simp] theorem State.emit_fnMask (s : State) (o : Out) : (s.emit o).fnMask = s.fnMask := rfl
@[simp] theorem State.emit_msgLast (s : State) (o : Out) : (s.emit o).msgLast = s.msgLast := rfl
@[simp] theorem State.emit_porst (s : State) (o : Out) : (s.emit o).porst = s.porst := rfl
@[simp] theorem State.emit_brown (s : State) (o : Out) : (s.emit o).brown = s.brown := rfl
@[simp] theorem State.emit_warm (s : State) (o : Out) : (s.emit o).warm = s.warm := rfl
@[simp] theorem State.emit_boot (s : State) (o : Out) : (s.emit o).boot = s.boot := rfl
@[simp] theorem State.emit_bootCmd (s : State) (o : Out) : (s.emit o).bootCmd = s.bootCmd := rfl
@[simp] theorem State.emit_wdogFrom (s : State) (o : Out) : (s.emit o).wdogFrom = s.wdogFrom := rfl
@[simp] theorem State.emit_wdogOut (s : State) (o : Out) : (s.emit o).wdogOut = s.wdogOut := rfl
@[simp] theorem State.emit_asyncOver (s : State) (o : Out) : (s.emit o).asyncOver = s.asyncOver := rfl
@[simp] theorem State.emit_halfFaults (s : State) (o : Out) : (s.emit o).halfFaults = s.halfFaults := rfl
@[simp] theorem State.emit_lossFaults (s : State) (o : Out) : (s.emit o).lossFaults = s.lossFaults := rfl
@[simp] theorem State.emit_chipReinit (s : State) (o : Out) : (s.emit o).chipReinit = s.chipReinit := rfl
@[simp] theorem State.emit_reinits (s : State) (o : Out) : (s.emit o).reinits = s.reinits := rfl
@[simp] theorem State.emit_cdStamps (s : State) (o : Out) : (s.emit o).cdStamps = s.cdStamps := rfl

/-! ## Reads of what an update leaves alone -/

@[simp] theorem State.wideAt_setReg_keep (s : State) (a : Nat) (v : Word) (b : Nat) : (s.setReg a v).wideAt b = s.wideAt b := rfl
@[simp] theorem State.chip_setReg_keep (s : State) (a : Nat) (v : Word) (b : Nat) : (s.setReg a v).chip b = s.chip b := rfl
@[simp] theorem State.half_setReg_keep (s : State) (a : Nat) (v : Word) (c2 h2 : Nat) : (s.setReg a v).half c2 h2 = s.half c2 h2 := rfl
@[simp] theorem State.core_setReg_keep (s : State) (a : Nat) (v : Word) (b : Nat) : (s.setReg a v).core b = s.core b := rfl
@[simp] theorem State.port_setReg_keep (s : State) (a : Nat) (v : Word) (b : Nat) : (s.setReg a v).port b = s.port b := rfl
@[simp] theorem State.chan_setReg_keep (s : State) (a : Nat) (v : Word) (b : Nat) : (s.setReg a v).chan b = s.chan b := rfl
@[simp] theorem State.queue_setReg_keep (s : State) (a : Nat) (v : Word) (b : Nat) : (s.setReg a v).queue b = s.queue b := rfl
@[simp] theorem State.eng_setReg_keep (s : State) (a : Nat) (v : Word) (b : Nat) : (s.setReg a v).eng b = s.eng b := rfl
@[simp] theorem State.cdly_setReg_keep (s : State) (a : Nat) (v : Word) (b : Nat) : (s.setReg a v).cdly b = s.cdly b := rfl
@[simp] theorem State.org_setReg_keep (s : State) (a : Nat) (v : Word) (b : Nat) : (s.setReg a v).org b = s.org b := rfl
@[simp] theorem State.lnk_setReg_keep (s : State) (a : Nat) (v : Word) (b : Nat) : (s.setReg a v).lnk b = s.lnk b := rfl
@[simp] theorem State.vec_setReg_keep (s : State) (a : Nat) (v : Word) (b : Nat) : (s.setReg a v).vec b = s.vec b := rfl
@[simp] theorem State.timer_setReg_keep (s : State) (a : Nat) (v : Word) (b : Nat) : (s.setReg a v).timer b = s.timer b := rfl
@[simp] theorem State.byte_setReg_keep (s : State) (a : Nat) (v : Word) (b : Nat) : (s.setReg a v).byte b = s.byte b := rfl

@[simp] theorem State.wideAt_put_keep (s : State) (f : Fld) (v i j : Nat) (b : Nat) : (s.put f v i j).wideAt b = s.wideAt b := rfl
@[simp] theorem State.chip_put_keep (s : State) (f : Fld) (v i j : Nat) (b : Nat) : (s.put f v i j).chip b = s.chip b := rfl
@[simp] theorem State.half_put_keep (s : State) (f : Fld) (v i j : Nat) (c2 h2 : Nat) : (s.put f v i j).half c2 h2 = s.half c2 h2 := rfl
@[simp] theorem State.core_put_keep (s : State) (f : Fld) (v i j : Nat) (b : Nat) : (s.put f v i j).core b = s.core b := rfl
@[simp] theorem State.port_put_keep (s : State) (f : Fld) (v i j : Nat) (b : Nat) : (s.put f v i j).port b = s.port b := rfl
@[simp] theorem State.chan_put_keep (s : State) (f : Fld) (v i j : Nat) (b : Nat) : (s.put f v i j).chan b = s.chan b := rfl
@[simp] theorem State.queue_put_keep (s : State) (f : Fld) (v i j : Nat) (b : Nat) : (s.put f v i j).queue b = s.queue b := rfl
@[simp] theorem State.eng_put_keep (s : State) (f : Fld) (v i j : Nat) (b : Nat) : (s.put f v i j).eng b = s.eng b := rfl
@[simp] theorem State.cdly_put_keep (s : State) (f : Fld) (v i j : Nat) (b : Nat) : (s.put f v i j).cdly b = s.cdly b := rfl
@[simp] theorem State.org_put_keep (s : State) (f : Fld) (v i j : Nat) (b : Nat) : (s.put f v i j).org b = s.org b := rfl
@[simp] theorem State.lnk_put_keep (s : State) (f : Fld) (v i j : Nat) (b : Nat) : (s.put f v i j).lnk b = s.lnk b := rfl
@[simp] theorem State.vec_put_keep (s : State) (f : Fld) (v i j : Nat) (b : Nat) : (s.put f v i j).vec b = s.vec b := rfl
@[simp] theorem State.timer_put_keep (s : State) (f : Fld) (v i j : Nat) (b : Nat) : (s.put f v i j).timer b = s.timer b := rfl
@[simp] theorem State.byte_put_keep (s : State) (f : Fld) (v i j : Nat) (b : Nat) : (s.put f v i j).byte b = s.byte b := rfl

@[simp] theorem State.wideAt_bump_keep (s : State) (f : Fld) (i j n : Nat) (b : Nat) : (s.bump f i j n).wideAt b = s.wideAt b := rfl
@[simp] theorem State.chip_bump_keep (s : State) (f : Fld) (i j n : Nat) (b : Nat) : (s.bump f i j n).chip b = s.chip b := rfl
@[simp] theorem State.half_bump_keep (s : State) (f : Fld) (i j n : Nat) (c2 h2 : Nat) : (s.bump f i j n).half c2 h2 = s.half c2 h2 := rfl
@[simp] theorem State.core_bump_keep (s : State) (f : Fld) (i j n : Nat) (b : Nat) : (s.bump f i j n).core b = s.core b := rfl
@[simp] theorem State.port_bump_keep (s : State) (f : Fld) (i j n : Nat) (b : Nat) : (s.bump f i j n).port b = s.port b := rfl
@[simp] theorem State.chan_bump_keep (s : State) (f : Fld) (i j n : Nat) (b : Nat) : (s.bump f i j n).chan b = s.chan b := rfl
@[simp] theorem State.queue_bump_keep (s : State) (f : Fld) (i j n : Nat) (b : Nat) : (s.bump f i j n).queue b = s.queue b := rfl
@[simp] theorem State.eng_bump_keep (s : State) (f : Fld) (i j n : Nat) (b : Nat) : (s.bump f i j n).eng b = s.eng b := rfl
@[simp] theorem State.cdly_bump_keep (s : State) (f : Fld) (i j n : Nat) (b : Nat) : (s.bump f i j n).cdly b = s.cdly b := rfl
@[simp] theorem State.org_bump_keep (s : State) (f : Fld) (i j n : Nat) (b : Nat) : (s.bump f i j n).org b = s.org b := rfl
@[simp] theorem State.lnk_bump_keep (s : State) (f : Fld) (i j n : Nat) (b : Nat) : (s.bump f i j n).lnk b = s.lnk b := rfl
@[simp] theorem State.vec_bump_keep (s : State) (f : Fld) (i j n : Nat) (b : Nat) : (s.bump f i j n).vec b = s.vec b := rfl
@[simp] theorem State.timer_bump_keep (s : State) (f : Fld) (i j n : Nat) (b : Nat) : (s.bump f i j n).timer b = s.timer b := rfl
@[simp] theorem State.byte_bump_keep (s : State) (f : Fld) (i j n : Nat) (b : Nat) : (s.bump f i j n).byte b = s.byte b := rfl

@[simp] theorem State.reg_setWide_keep (s : State) (a v : Nat) (b : Nat) : (s.setWide a v).reg b = s.reg b := rfl
@[simp] theorem State.get_setWide_keep (s : State) (a v : Nat) (g : Fld) (x2 y2 : Nat) : (s.setWide a v).get g x2 y2 = s.get g x2 y2 := rfl
@[simp] theorem State.chip_setWide_keep (s : State) (a v : Nat) (b : Nat) : (s.setWide a v).chip b = s.chip b := rfl
@[simp] theorem State.half_setWide_keep (s : State) (a v : Nat) (c2 h2 : Nat) : (s.setWide a v).half c2 h2 = s.half c2 h2 := rfl
@[simp] theorem State.core_setWide_keep (s : State) (a v : Nat) (b : Nat) : (s.setWide a v).core b = s.core b := rfl
@[simp] theorem State.port_setWide_keep (s : State) (a v : Nat) (b : Nat) : (s.setWide a v).port b = s.port b := rfl
@[simp] theorem State.chan_setWide_keep (s : State) (a v : Nat) (b : Nat) : (s.setWide a v).chan b = s.chan b := rfl
@[simp] theorem State.queue_setWide_keep (s : State) (a v : Nat) (b : Nat) : (s.setWide a v).queue b = s.queue b := rfl
@[simp] theorem State.eng_setWide_keep (s : State) (a v : Nat) (b : Nat) : (s.setWide a v).eng b = s.eng b := rfl
@[simp] theorem State.cdly_setWide_keep (s : State) (a v : Nat) (b : Nat) : (s.setWide a v).cdly b = s.cdly b := rfl
@[simp] theorem State.org_setWide_keep (s : State) (a v : Nat) (b : Nat) : (s.setWide a v).org b = s.org b := rfl
@[simp] theorem State.lnk_setWide_keep (s : State) (a v : Nat) (b : Nat) : (s.setWide a v).lnk b = s.lnk b := rfl
@[simp] theorem State.vec_setWide_keep (s : State) (a v : Nat) (b : Nat) : (s.setWide a v).vec b = s.vec b := rfl
@[simp] theorem State.timer_setWide_keep (s : State) (a v : Nat) (b : Nat) : (s.setWide a v).timer b = s.timer b := rfl
@[simp] theorem State.byte_setWide_keep (s : State) (a v : Nat) (b : Nat) : (s.setWide a v).byte b = s.byte b := rfl

@[simp] theorem State.reg_setChip_keep (s : State) (n : Nat) (x : Chip) (b : Nat) : (s.setChip n x).reg b = s.reg b := rfl
@[simp] theorem State.get_setChip_keep (s : State) (n : Nat) (x : Chip) (g : Fld) (x2 y2 : Nat) : (s.setChip n x).get g x2 y2 = s.get g x2 y2 := rfl
@[simp] theorem State.wideAt_setChip_keep (s : State) (n : Nat) (x : Chip) (b : Nat) : (s.setChip n x).wideAt b = s.wideAt b := rfl
@[simp] theorem State.half_setChip_keep (s : State) (n : Nat) (x : Chip) (c2 h2 : Nat) : (s.setChip n x).half c2 h2 = s.half c2 h2 := rfl
@[simp] theorem State.core_setChip_keep (s : State) (n : Nat) (x : Chip) (b : Nat) : (s.setChip n x).core b = s.core b := rfl
@[simp] theorem State.port_setChip_keep (s : State) (n : Nat) (x : Chip) (b : Nat) : (s.setChip n x).port b = s.port b := rfl
@[simp] theorem State.chan_setChip_keep (s : State) (n : Nat) (x : Chip) (b : Nat) : (s.setChip n x).chan b = s.chan b := rfl
@[simp] theorem State.queue_setChip_keep (s : State) (n : Nat) (x : Chip) (b : Nat) : (s.setChip n x).queue b = s.queue b := rfl
@[simp] theorem State.eng_setChip_keep (s : State) (n : Nat) (x : Chip) (b : Nat) : (s.setChip n x).eng b = s.eng b := rfl
@[simp] theorem State.cdly_setChip_keep (s : State) (n : Nat) (x : Chip) (b : Nat) : (s.setChip n x).cdly b = s.cdly b := rfl
@[simp] theorem State.org_setChip_keep (s : State) (n : Nat) (x : Chip) (b : Nat) : (s.setChip n x).org b = s.org b := rfl
@[simp] theorem State.lnk_setChip_keep (s : State) (n : Nat) (x : Chip) (b : Nat) : (s.setChip n x).lnk b = s.lnk b := rfl
@[simp] theorem State.vec_setChip_keep (s : State) (n : Nat) (x : Chip) (b : Nat) : (s.setChip n x).vec b = s.vec b := rfl
@[simp] theorem State.timer_setChip_keep (s : State) (n : Nat) (x : Chip) (b : Nat) : (s.setChip n x).timer b = s.timer b := rfl
@[simp] theorem State.byte_setChip_keep (s : State) (n : Nat) (x : Chip) (b : Nat) : (s.setChip n x).byte b = s.byte b := rfl

@[simp] theorem State.reg_setHalf_keep (s : State) (c h : Nat) (x : Half) (b : Nat) : (s.setHalf c h x).reg b = s.reg b := rfl
@[simp] theorem State.get_setHalf_keep (s : State) (c h : Nat) (x : Half) (g : Fld) (x2 y2 : Nat) : (s.setHalf c h x).get g x2 y2 = s.get g x2 y2 := rfl
@[simp] theorem State.wideAt_setHalf_keep (s : State) (c h : Nat) (x : Half) (b : Nat) : (s.setHalf c h x).wideAt b = s.wideAt b := rfl
@[simp] theorem State.chip_setHalf_keep (s : State) (c h : Nat) (x : Half) (b : Nat) : (s.setHalf c h x).chip b = s.chip b := rfl
@[simp] theorem State.core_setHalf_keep (s : State) (c h : Nat) (x : Half) (b : Nat) : (s.setHalf c h x).core b = s.core b := rfl
@[simp] theorem State.port_setHalf_keep (s : State) (c h : Nat) (x : Half) (b : Nat) : (s.setHalf c h x).port b = s.port b := rfl
@[simp] theorem State.chan_setHalf_keep (s : State) (c h : Nat) (x : Half) (b : Nat) : (s.setHalf c h x).chan b = s.chan b := rfl
@[simp] theorem State.queue_setHalf_keep (s : State) (c h : Nat) (x : Half) (b : Nat) : (s.setHalf c h x).queue b = s.queue b := rfl
@[simp] theorem State.eng_setHalf_keep (s : State) (c h : Nat) (x : Half) (b : Nat) : (s.setHalf c h x).eng b = s.eng b := rfl
@[simp] theorem State.cdly_setHalf_keep (s : State) (c h : Nat) (x : Half) (b : Nat) : (s.setHalf c h x).cdly b = s.cdly b := rfl
@[simp] theorem State.org_setHalf_keep (s : State) (c h : Nat) (x : Half) (b : Nat) : (s.setHalf c h x).org b = s.org b := rfl
@[simp] theorem State.lnk_setHalf_keep (s : State) (c h : Nat) (x : Half) (b : Nat) : (s.setHalf c h x).lnk b = s.lnk b := rfl
@[simp] theorem State.vec_setHalf_keep (s : State) (c h : Nat) (x : Half) (b : Nat) : (s.setHalf c h x).vec b = s.vec b := rfl
@[simp] theorem State.timer_setHalf_keep (s : State) (c h : Nat) (x : Half) (b : Nat) : (s.setHalf c h x).timer b = s.timer b := rfl
@[simp] theorem State.byte_setHalf_keep (s : State) (c h : Nat) (x : Half) (b : Nat) : (s.setHalf c h x).byte b = s.byte b := rfl

@[simp] theorem State.reg_setCore_keep (s : State) (c : Nat) (x : CoreSt) (b : Nat) : (s.setCore c x).reg b = s.reg b := rfl
@[simp] theorem State.get_setCore_keep (s : State) (c : Nat) (x : CoreSt) (g : Fld) (x2 y2 : Nat) : (s.setCore c x).get g x2 y2 = s.get g x2 y2 := rfl
@[simp] theorem State.wideAt_setCore_keep (s : State) (c : Nat) (x : CoreSt) (b : Nat) : (s.setCore c x).wideAt b = s.wideAt b := rfl
@[simp] theorem State.chip_setCore_keep (s : State) (c : Nat) (x : CoreSt) (b : Nat) : (s.setCore c x).chip b = s.chip b := rfl
@[simp] theorem State.half_setCore_keep (s : State) (c : Nat) (x : CoreSt) (c2 h2 : Nat) : (s.setCore c x).half c2 h2 = s.half c2 h2 := rfl
@[simp] theorem State.port_setCore_keep (s : State) (c : Nat) (x : CoreSt) (b : Nat) : (s.setCore c x).port b = s.port b := rfl
@[simp] theorem State.chan_setCore_keep (s : State) (c : Nat) (x : CoreSt) (b : Nat) : (s.setCore c x).chan b = s.chan b := rfl
@[simp] theorem State.queue_setCore_keep (s : State) (c : Nat) (x : CoreSt) (b : Nat) : (s.setCore c x).queue b = s.queue b := rfl
@[simp] theorem State.eng_setCore_keep (s : State) (c : Nat) (x : CoreSt) (b : Nat) : (s.setCore c x).eng b = s.eng b := rfl
@[simp] theorem State.cdly_setCore_keep (s : State) (c : Nat) (x : CoreSt) (b : Nat) : (s.setCore c x).cdly b = s.cdly b := rfl
@[simp] theorem State.org_setCore_keep (s : State) (c : Nat) (x : CoreSt) (b : Nat) : (s.setCore c x).org b = s.org b := rfl
@[simp] theorem State.lnk_setCore_keep (s : State) (c : Nat) (x : CoreSt) (b : Nat) : (s.setCore c x).lnk b = s.lnk b := rfl
@[simp] theorem State.vec_setCore_keep (s : State) (c : Nat) (x : CoreSt) (b : Nat) : (s.setCore c x).vec b = s.vec b := rfl
@[simp] theorem State.timer_setCore_keep (s : State) (c : Nat) (x : CoreSt) (b : Nat) : (s.setCore c x).timer b = s.timer b := rfl
@[simp] theorem State.byte_setCore_keep (s : State) (c : Nat) (x : CoreSt) (b : Nat) : (s.setCore c x).byte b = s.byte b := rfl

@[simp] theorem State.reg_setPort_keep (s : State) (p : Nat) (x : PortSt) (b : Nat) : (s.setPort p x).reg b = s.reg b := rfl
@[simp] theorem State.get_setPort_keep (s : State) (p : Nat) (x : PortSt) (g : Fld) (x2 y2 : Nat) : (s.setPort p x).get g x2 y2 = s.get g x2 y2 := rfl
@[simp] theorem State.wideAt_setPort_keep (s : State) (p : Nat) (x : PortSt) (b : Nat) : (s.setPort p x).wideAt b = s.wideAt b := rfl
@[simp] theorem State.chip_setPort_keep (s : State) (p : Nat) (x : PortSt) (b : Nat) : (s.setPort p x).chip b = s.chip b := rfl
@[simp] theorem State.half_setPort_keep (s : State) (p : Nat) (x : PortSt) (c2 h2 : Nat) : (s.setPort p x).half c2 h2 = s.half c2 h2 := rfl
@[simp] theorem State.core_setPort_keep (s : State) (p : Nat) (x : PortSt) (b : Nat) : (s.setPort p x).core b = s.core b := rfl
@[simp] theorem State.chan_setPort_keep (s : State) (p : Nat) (x : PortSt) (b : Nat) : (s.setPort p x).chan b = s.chan b := rfl
@[simp] theorem State.queue_setPort_keep (s : State) (p : Nat) (x : PortSt) (b : Nat) : (s.setPort p x).queue b = s.queue b := rfl
@[simp] theorem State.eng_setPort_keep (s : State) (p : Nat) (x : PortSt) (b : Nat) : (s.setPort p x).eng b = s.eng b := rfl
@[simp] theorem State.cdly_setPort_keep (s : State) (p : Nat) (x : PortSt) (b : Nat) : (s.setPort p x).cdly b = s.cdly b := rfl
@[simp] theorem State.org_setPort_keep (s : State) (p : Nat) (x : PortSt) (b : Nat) : (s.setPort p x).org b = s.org b := rfl
@[simp] theorem State.lnk_setPort_keep (s : State) (p : Nat) (x : PortSt) (b : Nat) : (s.setPort p x).lnk b = s.lnk b := rfl
@[simp] theorem State.vec_setPort_keep (s : State) (p : Nat) (x : PortSt) (b : Nat) : (s.setPort p x).vec b = s.vec b := rfl
@[simp] theorem State.timer_setPort_keep (s : State) (p : Nat) (x : PortSt) (b : Nat) : (s.setPort p x).timer b = s.timer b := rfl
@[simp] theorem State.byte_setPort_keep (s : State) (p : Nat) (x : PortSt) (b : Nat) : (s.setPort p x).byte b = s.byte b := rfl

@[simp] theorem State.reg_setChan_keep (s : State) (k : Nat) (x : Chan) (b : Nat) : (s.setChan k x).reg b = s.reg b := rfl
@[simp] theorem State.get_setChan_keep (s : State) (k : Nat) (x : Chan) (g : Fld) (x2 y2 : Nat) : (s.setChan k x).get g x2 y2 = s.get g x2 y2 := rfl
@[simp] theorem State.wideAt_setChan_keep (s : State) (k : Nat) (x : Chan) (b : Nat) : (s.setChan k x).wideAt b = s.wideAt b := rfl
@[simp] theorem State.chip_setChan_keep (s : State) (k : Nat) (x : Chan) (b : Nat) : (s.setChan k x).chip b = s.chip b := rfl
@[simp] theorem State.half_setChan_keep (s : State) (k : Nat) (x : Chan) (c2 h2 : Nat) : (s.setChan k x).half c2 h2 = s.half c2 h2 := rfl
@[simp] theorem State.core_setChan_keep (s : State) (k : Nat) (x : Chan) (b : Nat) : (s.setChan k x).core b = s.core b := rfl
@[simp] theorem State.port_setChan_keep (s : State) (k : Nat) (x : Chan) (b : Nat) : (s.setChan k x).port b = s.port b := rfl
@[simp] theorem State.queue_setChan_keep (s : State) (k : Nat) (x : Chan) (b : Nat) : (s.setChan k x).queue b = s.queue b := rfl
@[simp] theorem State.eng_setChan_keep (s : State) (k : Nat) (x : Chan) (b : Nat) : (s.setChan k x).eng b = s.eng b := rfl
@[simp] theorem State.cdly_setChan_keep (s : State) (k : Nat) (x : Chan) (b : Nat) : (s.setChan k x).cdly b = s.cdly b := rfl
@[simp] theorem State.org_setChan_keep (s : State) (k : Nat) (x : Chan) (b : Nat) : (s.setChan k x).org b = s.org b := rfl
@[simp] theorem State.lnk_setChan_keep (s : State) (k : Nat) (x : Chan) (b : Nat) : (s.setChan k x).lnk b = s.lnk b := rfl
@[simp] theorem State.vec_setChan_keep (s : State) (k : Nat) (x : Chan) (b : Nat) : (s.setChan k x).vec b = s.vec b := rfl
@[simp] theorem State.timer_setChan_keep (s : State) (k : Nat) (x : Chan) (b : Nat) : (s.setChan k x).timer b = s.timer b := rfl
@[simp] theorem State.byte_setChan_keep (s : State) (k : Nat) (x : Chan) (b : Nat) : (s.setChan k x).byte b = s.byte b := rfl

@[simp] theorem State.reg_setQueue_keep (s : State) (q : Nat) (x : Queue) (b : Nat) : (s.setQueue q x).reg b = s.reg b := rfl
@[simp] theorem State.get_setQueue_keep (s : State) (q : Nat) (x : Queue) (g : Fld) (x2 y2 : Nat) : (s.setQueue q x).get g x2 y2 = s.get g x2 y2 := rfl
@[simp] theorem State.wideAt_setQueue_keep (s : State) (q : Nat) (x : Queue) (b : Nat) : (s.setQueue q x).wideAt b = s.wideAt b := rfl
@[simp] theorem State.chip_setQueue_keep (s : State) (q : Nat) (x : Queue) (b : Nat) : (s.setQueue q x).chip b = s.chip b := rfl
@[simp] theorem State.half_setQueue_keep (s : State) (q : Nat) (x : Queue) (c2 h2 : Nat) : (s.setQueue q x).half c2 h2 = s.half c2 h2 := rfl
@[simp] theorem State.core_setQueue_keep (s : State) (q : Nat) (x : Queue) (b : Nat) : (s.setQueue q x).core b = s.core b := rfl
@[simp] theorem State.port_setQueue_keep (s : State) (q : Nat) (x : Queue) (b : Nat) : (s.setQueue q x).port b = s.port b := rfl
@[simp] theorem State.chan_setQueue_keep (s : State) (q : Nat) (x : Queue) (b : Nat) : (s.setQueue q x).chan b = s.chan b := rfl
@[simp] theorem State.eng_setQueue_keep (s : State) (q : Nat) (x : Queue) (b : Nat) : (s.setQueue q x).eng b = s.eng b := rfl
@[simp] theorem State.cdly_setQueue_keep (s : State) (q : Nat) (x : Queue) (b : Nat) : (s.setQueue q x).cdly b = s.cdly b := rfl
@[simp] theorem State.org_setQueue_keep (s : State) (q : Nat) (x : Queue) (b : Nat) : (s.setQueue q x).org b = s.org b := rfl
@[simp] theorem State.lnk_setQueue_keep (s : State) (q : Nat) (x : Queue) (b : Nat) : (s.setQueue q x).lnk b = s.lnk b := rfl
@[simp] theorem State.vec_setQueue_keep (s : State) (q : Nat) (x : Queue) (b : Nat) : (s.setQueue q x).vec b = s.vec b := rfl
@[simp] theorem State.timer_setQueue_keep (s : State) (q : Nat) (x : Queue) (b : Nat) : (s.setQueue q x).timer b = s.timer b := rfl
@[simp] theorem State.byte_setQueue_keep (s : State) (q : Nat) (x : Queue) (b : Nat) : (s.setQueue q x).byte b = s.byte b := rfl

@[simp] theorem State.reg_setEng_keep (s : State) (e : Nat) (x : Eng) (b : Nat) : (s.setEng e x).reg b = s.reg b := rfl
@[simp] theorem State.get_setEng_keep (s : State) (e : Nat) (x : Eng) (g : Fld) (x2 y2 : Nat) : (s.setEng e x).get g x2 y2 = s.get g x2 y2 := rfl
@[simp] theorem State.wideAt_setEng_keep (s : State) (e : Nat) (x : Eng) (b : Nat) : (s.setEng e x).wideAt b = s.wideAt b := rfl
@[simp] theorem State.chip_setEng_keep (s : State) (e : Nat) (x : Eng) (b : Nat) : (s.setEng e x).chip b = s.chip b := rfl
@[simp] theorem State.half_setEng_keep (s : State) (e : Nat) (x : Eng) (c2 h2 : Nat) : (s.setEng e x).half c2 h2 = s.half c2 h2 := rfl
@[simp] theorem State.core_setEng_keep (s : State) (e : Nat) (x : Eng) (b : Nat) : (s.setEng e x).core b = s.core b := rfl
@[simp] theorem State.port_setEng_keep (s : State) (e : Nat) (x : Eng) (b : Nat) : (s.setEng e x).port b = s.port b := rfl
@[simp] theorem State.chan_setEng_keep (s : State) (e : Nat) (x : Eng) (b : Nat) : (s.setEng e x).chan b = s.chan b := rfl
@[simp] theorem State.queue_setEng_keep (s : State) (e : Nat) (x : Eng) (b : Nat) : (s.setEng e x).queue b = s.queue b := rfl
@[simp] theorem State.cdly_setEng_keep (s : State) (e : Nat) (x : Eng) (b : Nat) : (s.setEng e x).cdly b = s.cdly b := rfl
@[simp] theorem State.org_setEng_keep (s : State) (e : Nat) (x : Eng) (b : Nat) : (s.setEng e x).org b = s.org b := rfl
@[simp] theorem State.lnk_setEng_keep (s : State) (e : Nat) (x : Eng) (b : Nat) : (s.setEng e x).lnk b = s.lnk b := rfl
@[simp] theorem State.vec_setEng_keep (s : State) (e : Nat) (x : Eng) (b : Nat) : (s.setEng e x).vec b = s.vec b := rfl
@[simp] theorem State.timer_setEng_keep (s : State) (e : Nat) (x : Eng) (b : Nat) : (s.setEng e x).timer b = s.timer b := rfl
@[simp] theorem State.byte_setEng_keep (s : State) (e : Nat) (x : Eng) (b : Nat) : (s.setEng e x).byte b = s.byte b := rfl

@[simp] theorem State.reg_setCdly_keep (s : State) (l : Nat) (x : Cdly) (b : Nat) : (s.setCdly l x).reg b = s.reg b := rfl
@[simp] theorem State.get_setCdly_keep (s : State) (l : Nat) (x : Cdly) (g : Fld) (x2 y2 : Nat) : (s.setCdly l x).get g x2 y2 = s.get g x2 y2 := rfl
@[simp] theorem State.wideAt_setCdly_keep (s : State) (l : Nat) (x : Cdly) (b : Nat) : (s.setCdly l x).wideAt b = s.wideAt b := rfl
@[simp] theorem State.chip_setCdly_keep (s : State) (l : Nat) (x : Cdly) (b : Nat) : (s.setCdly l x).chip b = s.chip b := rfl
@[simp] theorem State.half_setCdly_keep (s : State) (l : Nat) (x : Cdly) (c2 h2 : Nat) : (s.setCdly l x).half c2 h2 = s.half c2 h2 := rfl
@[simp] theorem State.core_setCdly_keep (s : State) (l : Nat) (x : Cdly) (b : Nat) : (s.setCdly l x).core b = s.core b := rfl
@[simp] theorem State.port_setCdly_keep (s : State) (l : Nat) (x : Cdly) (b : Nat) : (s.setCdly l x).port b = s.port b := rfl
@[simp] theorem State.chan_setCdly_keep (s : State) (l : Nat) (x : Cdly) (b : Nat) : (s.setCdly l x).chan b = s.chan b := rfl
@[simp] theorem State.queue_setCdly_keep (s : State) (l : Nat) (x : Cdly) (b : Nat) : (s.setCdly l x).queue b = s.queue b := rfl
@[simp] theorem State.eng_setCdly_keep (s : State) (l : Nat) (x : Cdly) (b : Nat) : (s.setCdly l x).eng b = s.eng b := rfl
@[simp] theorem State.org_setCdly_keep (s : State) (l : Nat) (x : Cdly) (b : Nat) : (s.setCdly l x).org b = s.org b := rfl
@[simp] theorem State.lnk_setCdly_keep (s : State) (l : Nat) (x : Cdly) (b : Nat) : (s.setCdly l x).lnk b = s.lnk b := rfl
@[simp] theorem State.vec_setCdly_keep (s : State) (l : Nat) (x : Cdly) (b : Nat) : (s.setCdly l x).vec b = s.vec b := rfl
@[simp] theorem State.timer_setCdly_keep (s : State) (l : Nat) (x : Cdly) (b : Nat) : (s.setCdly l x).timer b = s.timer b := rfl
@[simp] theorem State.byte_setCdly_keep (s : State) (l : Nat) (x : Cdly) (b : Nat) : (s.setCdly l x).byte b = s.byte b := rfl

@[simp] theorem State.reg_setOrg_keep (s : State) (o : Nat) (x : OriginSt) (b : Nat) : (s.setOrg o x).reg b = s.reg b := rfl
@[simp] theorem State.get_setOrg_keep (s : State) (o : Nat) (x : OriginSt) (g : Fld) (x2 y2 : Nat) : (s.setOrg o x).get g x2 y2 = s.get g x2 y2 := rfl
@[simp] theorem State.wideAt_setOrg_keep (s : State) (o : Nat) (x : OriginSt) (b : Nat) : (s.setOrg o x).wideAt b = s.wideAt b := rfl
@[simp] theorem State.chip_setOrg_keep (s : State) (o : Nat) (x : OriginSt) (b : Nat) : (s.setOrg o x).chip b = s.chip b := rfl
@[simp] theorem State.half_setOrg_keep (s : State) (o : Nat) (x : OriginSt) (c2 h2 : Nat) : (s.setOrg o x).half c2 h2 = s.half c2 h2 := rfl
@[simp] theorem State.core_setOrg_keep (s : State) (o : Nat) (x : OriginSt) (b : Nat) : (s.setOrg o x).core b = s.core b := rfl
@[simp] theorem State.port_setOrg_keep (s : State) (o : Nat) (x : OriginSt) (b : Nat) : (s.setOrg o x).port b = s.port b := rfl
@[simp] theorem State.chan_setOrg_keep (s : State) (o : Nat) (x : OriginSt) (b : Nat) : (s.setOrg o x).chan b = s.chan b := rfl
@[simp] theorem State.queue_setOrg_keep (s : State) (o : Nat) (x : OriginSt) (b : Nat) : (s.setOrg o x).queue b = s.queue b := rfl
@[simp] theorem State.eng_setOrg_keep (s : State) (o : Nat) (x : OriginSt) (b : Nat) : (s.setOrg o x).eng b = s.eng b := rfl
@[simp] theorem State.cdly_setOrg_keep (s : State) (o : Nat) (x : OriginSt) (b : Nat) : (s.setOrg o x).cdly b = s.cdly b := rfl
@[simp] theorem State.lnk_setOrg_keep (s : State) (o : Nat) (x : OriginSt) (b : Nat) : (s.setOrg o x).lnk b = s.lnk b := rfl
@[simp] theorem State.vec_setOrg_keep (s : State) (o : Nat) (x : OriginSt) (b : Nat) : (s.setOrg o x).vec b = s.vec b := rfl
@[simp] theorem State.timer_setOrg_keep (s : State) (o : Nat) (x : OriginSt) (b : Nat) : (s.setOrg o x).timer b = s.timer b := rfl
@[simp] theorem State.byte_setOrg_keep (s : State) (o : Nat) (x : OriginSt) (b : Nat) : (s.setOrg o x).byte b = s.byte b := rfl

@[simp] theorem State.reg_setLnk_keep (s : State) (l : Nat) (x : Lnk) (b : Nat) : (s.setLnk l x).reg b = s.reg b := rfl
@[simp] theorem State.get_setLnk_keep (s : State) (l : Nat) (x : Lnk) (g : Fld) (x2 y2 : Nat) : (s.setLnk l x).get g x2 y2 = s.get g x2 y2 := rfl
@[simp] theorem State.wideAt_setLnk_keep (s : State) (l : Nat) (x : Lnk) (b : Nat) : (s.setLnk l x).wideAt b = s.wideAt b := rfl
@[simp] theorem State.chip_setLnk_keep (s : State) (l : Nat) (x : Lnk) (b : Nat) : (s.setLnk l x).chip b = s.chip b := rfl
@[simp] theorem State.half_setLnk_keep (s : State) (l : Nat) (x : Lnk) (c2 h2 : Nat) : (s.setLnk l x).half c2 h2 = s.half c2 h2 := rfl
@[simp] theorem State.core_setLnk_keep (s : State) (l : Nat) (x : Lnk) (b : Nat) : (s.setLnk l x).core b = s.core b := rfl
@[simp] theorem State.port_setLnk_keep (s : State) (l : Nat) (x : Lnk) (b : Nat) : (s.setLnk l x).port b = s.port b := rfl
@[simp] theorem State.chan_setLnk_keep (s : State) (l : Nat) (x : Lnk) (b : Nat) : (s.setLnk l x).chan b = s.chan b := rfl
@[simp] theorem State.queue_setLnk_keep (s : State) (l : Nat) (x : Lnk) (b : Nat) : (s.setLnk l x).queue b = s.queue b := rfl
@[simp] theorem State.eng_setLnk_keep (s : State) (l : Nat) (x : Lnk) (b : Nat) : (s.setLnk l x).eng b = s.eng b := rfl
@[simp] theorem State.cdly_setLnk_keep (s : State) (l : Nat) (x : Lnk) (b : Nat) : (s.setLnk l x).cdly b = s.cdly b := rfl
@[simp] theorem State.org_setLnk_keep (s : State) (l : Nat) (x : Lnk) (b : Nat) : (s.setLnk l x).org b = s.org b := rfl
@[simp] theorem State.vec_setLnk_keep (s : State) (l : Nat) (x : Lnk) (b : Nat) : (s.setLnk l x).vec b = s.vec b := rfl
@[simp] theorem State.timer_setLnk_keep (s : State) (l : Nat) (x : Lnk) (b : Nat) : (s.setLnk l x).timer b = s.timer b := rfl
@[simp] theorem State.byte_setLnk_keep (s : State) (l : Nat) (x : Lnk) (b : Nat) : (s.setLnk l x).byte b = s.byte b := rfl

@[simp] theorem State.reg_setVec_keep (s : State) (v : Nat) (x : Vec) (b : Nat) : (s.setVec v x).reg b = s.reg b := rfl
@[simp] theorem State.get_setVec_keep (s : State) (v : Nat) (x : Vec) (g : Fld) (x2 y2 : Nat) : (s.setVec v x).get g x2 y2 = s.get g x2 y2 := rfl
@[simp] theorem State.wideAt_setVec_keep (s : State) (v : Nat) (x : Vec) (b : Nat) : (s.setVec v x).wideAt b = s.wideAt b := rfl
@[simp] theorem State.chip_setVec_keep (s : State) (v : Nat) (x : Vec) (b : Nat) : (s.setVec v x).chip b = s.chip b := rfl
@[simp] theorem State.half_setVec_keep (s : State) (v : Nat) (x : Vec) (c2 h2 : Nat) : (s.setVec v x).half c2 h2 = s.half c2 h2 := rfl
@[simp] theorem State.core_setVec_keep (s : State) (v : Nat) (x : Vec) (b : Nat) : (s.setVec v x).core b = s.core b := rfl
@[simp] theorem State.port_setVec_keep (s : State) (v : Nat) (x : Vec) (b : Nat) : (s.setVec v x).port b = s.port b := rfl
@[simp] theorem State.chan_setVec_keep (s : State) (v : Nat) (x : Vec) (b : Nat) : (s.setVec v x).chan b = s.chan b := rfl
@[simp] theorem State.queue_setVec_keep (s : State) (v : Nat) (x : Vec) (b : Nat) : (s.setVec v x).queue b = s.queue b := rfl
@[simp] theorem State.eng_setVec_keep (s : State) (v : Nat) (x : Vec) (b : Nat) : (s.setVec v x).eng b = s.eng b := rfl
@[simp] theorem State.cdly_setVec_keep (s : State) (v : Nat) (x : Vec) (b : Nat) : (s.setVec v x).cdly b = s.cdly b := rfl
@[simp] theorem State.org_setVec_keep (s : State) (v : Nat) (x : Vec) (b : Nat) : (s.setVec v x).org b = s.org b := rfl
@[simp] theorem State.lnk_setVec_keep (s : State) (v : Nat) (x : Vec) (b : Nat) : (s.setVec v x).lnk b = s.lnk b := rfl
@[simp] theorem State.timer_setVec_keep (s : State) (v : Nat) (x : Vec) (b : Nat) : (s.setVec v x).timer b = s.timer b := rfl
@[simp] theorem State.byte_setVec_keep (s : State) (v : Nat) (x : Vec) (b : Nat) : (s.setVec v x).byte b = s.byte b := rfl

@[simp] theorem State.reg_setTimer_keep (s : State) (k v : Nat) (b : Nat) : (s.setTimer k v).reg b = s.reg b := rfl
@[simp] theorem State.get_setTimer_keep (s : State) (k v : Nat) (g : Fld) (x2 y2 : Nat) : (s.setTimer k v).get g x2 y2 = s.get g x2 y2 := rfl
@[simp] theorem State.wideAt_setTimer_keep (s : State) (k v : Nat) (b : Nat) : (s.setTimer k v).wideAt b = s.wideAt b := rfl
@[simp] theorem State.chip_setTimer_keep (s : State) (k v : Nat) (b : Nat) : (s.setTimer k v).chip b = s.chip b := rfl
@[simp] theorem State.half_setTimer_keep (s : State) (k v : Nat) (c2 h2 : Nat) : (s.setTimer k v).half c2 h2 = s.half c2 h2 := rfl
@[simp] theorem State.core_setTimer_keep (s : State) (k v : Nat) (b : Nat) : (s.setTimer k v).core b = s.core b := rfl
@[simp] theorem State.port_setTimer_keep (s : State) (k v : Nat) (b : Nat) : (s.setTimer k v).port b = s.port b := rfl
@[simp] theorem State.chan_setTimer_keep (s : State) (k v : Nat) (b : Nat) : (s.setTimer k v).chan b = s.chan b := rfl
@[simp] theorem State.queue_setTimer_keep (s : State) (k v : Nat) (b : Nat) : (s.setTimer k v).queue b = s.queue b := rfl
@[simp] theorem State.eng_setTimer_keep (s : State) (k v : Nat) (b : Nat) : (s.setTimer k v).eng b = s.eng b := rfl
@[simp] theorem State.cdly_setTimer_keep (s : State) (k v : Nat) (b : Nat) : (s.setTimer k v).cdly b = s.cdly b := rfl
@[simp] theorem State.org_setTimer_keep (s : State) (k v : Nat) (b : Nat) : (s.setTimer k v).org b = s.org b := rfl
@[simp] theorem State.lnk_setTimer_keep (s : State) (k v : Nat) (b : Nat) : (s.setTimer k v).lnk b = s.lnk b := rfl
@[simp] theorem State.vec_setTimer_keep (s : State) (k v : Nat) (b : Nat) : (s.setTimer k v).vec b = s.vec b := rfl
@[simp] theorem State.byte_setTimer_keep (s : State) (k v : Nat) (b : Nat) : (s.setTimer k v).byte b = s.byte b := rfl

@[simp] theorem State.reg_raise_keep (s : State) (src : Nat) (b : Nat) : (s.raise src).reg b = s.reg b := rfl
@[simp] theorem State.get_raise_keep (s : State) (src : Nat) (g : Fld) (x2 y2 : Nat) : (s.raise src).get g x2 y2 = s.get g x2 y2 := rfl
@[simp] theorem State.wideAt_raise_keep (s : State) (src : Nat) (b : Nat) : (s.raise src).wideAt b = s.wideAt b := rfl
@[simp] theorem State.chip_raise_keep (s : State) (src : Nat) (b : Nat) : (s.raise src).chip b = s.chip b := rfl
@[simp] theorem State.half_raise_keep (s : State) (src : Nat) (c2 h2 : Nat) : (s.raise src).half c2 h2 = s.half c2 h2 := rfl
@[simp] theorem State.core_raise_keep (s : State) (src : Nat) (b : Nat) : (s.raise src).core b = s.core b := rfl
@[simp] theorem State.port_raise_keep (s : State) (src : Nat) (b : Nat) : (s.raise src).port b = s.port b := rfl
@[simp] theorem State.chan_raise_keep (s : State) (src : Nat) (b : Nat) : (s.raise src).chan b = s.chan b := rfl
@[simp] theorem State.queue_raise_keep (s : State) (src : Nat) (b : Nat) : (s.raise src).queue b = s.queue b := rfl
@[simp] theorem State.eng_raise_keep (s : State) (src : Nat) (b : Nat) : (s.raise src).eng b = s.eng b := rfl
@[simp] theorem State.cdly_raise_keep (s : State) (src : Nat) (b : Nat) : (s.raise src).cdly b = s.cdly b := rfl
@[simp] theorem State.org_raise_keep (s : State) (src : Nat) (b : Nat) : (s.raise src).org b = s.org b := rfl
@[simp] theorem State.lnk_raise_keep (s : State) (src : Nat) (b : Nat) : (s.raise src).lnk b = s.lnk b := rfl
@[simp] theorem State.vec_raise_keep (s : State) (src : Nat) (b : Nat) : (s.raise src).vec b = s.vec b := rfl
@[simp] theorem State.timer_raise_keep (s : State) (src : Nat) (b : Nat) : (s.raise src).timer b = s.timer b := rfl
@[simp] theorem State.byte_raise_keep (s : State) (src : Nat) (b : Nat) : (s.raise src).byte b = s.byte b := rfl

@[simp] theorem State.reg_emit_keep (s : State) (o : Out) (b : Nat) : (s.emit o).reg b = s.reg b := rfl
@[simp] theorem State.get_emit_keep (s : State) (o : Out) (g : Fld) (x2 y2 : Nat) : (s.emit o).get g x2 y2 = s.get g x2 y2 := rfl
@[simp] theorem State.wideAt_emit_keep (s : State) (o : Out) (b : Nat) : (s.emit o).wideAt b = s.wideAt b := rfl
@[simp] theorem State.chip_emit_keep (s : State) (o : Out) (b : Nat) : (s.emit o).chip b = s.chip b := rfl
@[simp] theorem State.half_emit_keep (s : State) (o : Out) (c2 h2 : Nat) : (s.emit o).half c2 h2 = s.half c2 h2 := rfl
@[simp] theorem State.core_emit_keep (s : State) (o : Out) (b : Nat) : (s.emit o).core b = s.core b := rfl
@[simp] theorem State.port_emit_keep (s : State) (o : Out) (b : Nat) : (s.emit o).port b = s.port b := rfl
@[simp] theorem State.chan_emit_keep (s : State) (o : Out) (b : Nat) : (s.emit o).chan b = s.chan b := rfl
@[simp] theorem State.queue_emit_keep (s : State) (o : Out) (b : Nat) : (s.emit o).queue b = s.queue b := rfl
@[simp] theorem State.eng_emit_keep (s : State) (o : Out) (b : Nat) : (s.emit o).eng b = s.eng b := rfl
@[simp] theorem State.cdly_emit_keep (s : State) (o : Out) (b : Nat) : (s.emit o).cdly b = s.cdly b := rfl
@[simp] theorem State.org_emit_keep (s : State) (o : Out) (b : Nat) : (s.emit o).org b = s.org b := rfl
@[simp] theorem State.lnk_emit_keep (s : State) (o : Out) (b : Nat) : (s.emit o).lnk b = s.lnk b := rfl
@[simp] theorem State.vec_emit_keep (s : State) (o : Out) (b : Nat) : (s.emit o).vec b = s.vec b := rfl
@[simp] theorem State.timer_emit_keep (s : State) (o : Out) (b : Nat) : (s.emit o).timer b = s.timer b := rfl
@[simp] theorem State.byte_emit_keep (s : State) (o : Out) (b : Nat) : (s.emit o).byte b = s.byte b := rfl

/-! ## A read depends on its field alone -/

theorem State.reg_congr {s t : State} (h : t.regs = s.regs) (b : Nat) : t.reg b = s.reg b := by
  unfold State.reg; rw [h]

theorem State.get_congr {s t : State} (h : t.regs = s.regs) (g : Fld) (x2 y2 : Nat) : t.get g x2 y2 = s.get g x2 y2 := by
  unfold State.get State.reg; rw [h]

theorem State.wideAt_congr {s t : State} (h : t.wide = s.wide) (b : Nat) : t.wideAt b = s.wideAt b := by
  unfold State.wideAt; rw [h]

theorem State.chip_congr {s t : State} (h : t.chips = s.chips) (b : Nat) : t.chip b = s.chip b := by
  unfold State.chip; rw [h]

theorem State.half_congr {s t : State} (h : t.halves = s.halves) (c2 h2 : Nat) : t.half c2 h2 = s.half c2 h2 := by
  unfold State.half; rw [h]

theorem State.core_congr {s t : State} (h : t.cores = s.cores) (b : Nat) : t.core b = s.core b := by
  unfold State.core; rw [h]

theorem State.port_congr {s t : State} (h : t.ports = s.ports) (b : Nat) : t.port b = s.port b := by
  unfold State.port; rw [h]

theorem State.chan_congr {s t : State} (h : t.chans = s.chans) (b : Nat) : t.chan b = s.chan b := by
  unfold State.chan; rw [h]

theorem State.queue_congr {s t : State} (h : t.queues = s.queues) (b : Nat) : t.queue b = s.queue b := by
  unfold State.queue; rw [h]

theorem State.eng_congr {s t : State} (h : t.engines = s.engines) (b : Nat) : t.eng b = s.eng b := by
  unfold State.eng; rw [h]

theorem State.cdly_congr {s t : State} (h : t.cdlys = s.cdlys) (b : Nat) : t.cdly b = s.cdly b := by
  unfold State.cdly; rw [h]

theorem State.org_congr {s t : State} (h : t.orgs = s.orgs) (b : Nat) : t.org b = s.org b := by
  unfold State.org; rw [h]

theorem State.lnk_congr {s t : State} (h : t.links = s.links) (b : Nat) : t.lnk b = s.lnk b := by
  unfold State.lnk; rw [h]

theorem State.vec_congr {s t : State} (h : t.msix = s.msix) (b : Nat) : t.vec b = s.vec b := by
  unfold State.vec; rw [h]

theorem State.timer_congr {s t : State} (h : t.timers = s.timers) (b : Nat) : t.timer b = s.timer b := by
  unfold State.timer; rw [h]

theorem State.byte_congr {s t : State} (h : t.mem = s.mem) (b : Nat) : t.byte b = s.byte b := by
  unfold State.byte; rw [h]

/-! ## Reads after writes -/

@[simp] theorem State.reg_setReg (s : State) (a : Nat) (v : Word) (b : Nat) :
    (s.setReg a v).reg b = if b = a then v else s.reg b := SMap.get_set resetAt s.regs a v b

@[simp] theorem State.wideAt_setWide (s : State) (a v b : Nat) :
    (s.setWide a v).wideAt b = if b = a then v else s.wideAt b := SMap.get_set _ s.wide a v b

@[simp] theorem State.chip_setChip (s : State) (k : Nat) (x : Chip) (j : Nat) :
    (s.setChip k x).chip j = if j = k then x else s.chip j := SMap.get_set _ s.chips k x j

@[simp] theorem State.core_setCore (s : State) (k : Nat) (x : CoreSt) (j : Nat) :
    (s.setCore k x).core j = if j = k then x else s.core j := SMap.get_set _ s.cores k x j

@[simp] theorem State.port_setPort (s : State) (k : Nat) (x : PortSt) (j : Nat) :
    (s.setPort k x).port j = if j = k then x else s.port j := SMap.get_set _ s.ports k x j

@[simp] theorem State.chan_setChan (s : State) (k : Nat) (x : Chan) (j : Nat) :
    (s.setChan k x).chan j = if j = k then x else s.chan j := SMap.get_set _ s.chans k x j

@[simp] theorem State.queue_setQueue (s : State) (k : Nat) (x : Queue) (j : Nat) :
    (s.setQueue k x).queue j = if j = k then x else s.queue j := SMap.get_set _ s.queues k x j

@[simp] theorem State.eng_setEng (s : State) (k : Nat) (x : Eng) (j : Nat) :
    (s.setEng k x).eng j = if j = k then x else s.eng j := SMap.get_set _ s.engines k x j

@[simp] theorem State.cdly_setCdly (s : State) (k : Nat) (x : Cdly) (j : Nat) :
    (s.setCdly k x).cdly j = if j = k then x else s.cdly j := SMap.get_set _ s.cdlys k x j

@[simp] theorem State.org_setOrg (s : State) (k : Nat) (x : OriginSt) (j : Nat) :
    (s.setOrg k x).org j = if j = k then x else s.org j := SMap.get_set _ s.orgs k x j

@[simp] theorem State.lnk_setLnk (s : State) (k : Nat) (x : Lnk) (j : Nat) :
    (s.setLnk k x).lnk j = if j = k then x else s.lnk j := SMap.get_set _ s.links k x j

@[simp] theorem State.vec_setVec (s : State) (k : Nat) (x : Vec) (j : Nat) :
    (s.setVec k x).vec j = if j = k then x else s.vec j := SMap.get_set _ s.msix k x j

@[simp] theorem State.timer_setTimer (s : State) (k v j : Nat) :
    (s.setTimer k v).timer j = if j = k then v else s.timer j := SMap.get_set _ s.timers k v j

theorem State.half_setHalf (s : State) (c h : Nat) (x : Half) (d g : Nat) :
    (s.setHalf c h x).half d g = if 2 * d + g = 2 * c + h then x else s.half d g := SMap.get_set _ s.halves (2 * c + h) x (2 * d + g)

/-! ## Fields of a word -/

/-- A field reads back what was put into it. -/
theorem fieldOf_withField (v : Word) (lo w x : Nat) (h : lo + w ≤ 32) : fieldOf (withField v lo w x) lo w = x % 2 ^ w := by
  unfold fieldOf withField
  have h1 : x % 2 ^ w < 2 ^ w := Nat.mod_lt _ (Nat.two_pow_pos w)
  have h2 : v.toNat % 2 ^ lo < 2 ^ lo := Nat.mod_lt _ (Nat.two_pow_pos lo)
  have h3 : v.toNat / 2 ^ (lo + w) < 2 ^ (32 - (lo + w)) := by
    rw [Nat.div_lt_iff_lt_mul (Nat.two_pow_pos _), ← Nat.pow_add]
    have : 32 - (lo + w) + (lo + w) = 32 := by omega
    rw [this]; exact v.isLt
  have e : v.toNat / 2 ^ (lo + w) * 2 ^ (lo + w) + x % 2 ^ w * 2 ^ lo + v.toNat % 2 ^ lo =
      2 ^ lo * (2 ^ w * (v.toNat / 2 ^ (lo + w)) + x % 2 ^ w) + v.toNat % 2 ^ lo := by
    rw [Nat.pow_add]; ring
  have hlow : 2 ^ w * (v.toNat / 2 ^ (lo + w)) + x % 2 ^ w < 2 ^ w * 2 ^ (32 - (lo + w)) := by
    calc 2 ^ w * (v.toNat / 2 ^ (lo + w)) + x % 2 ^ w < 2 ^ w * (v.toNat / 2 ^ (lo + w)) + 2 ^ w := by omega
      _ = 2 ^ w * (v.toNat / 2 ^ (lo + w) + 1) := by ring
      _ ≤ 2 ^ w * 2 ^ (32 - (lo + w)) := Nat.mul_le_mul_left _ h3
  have hlt : v.toNat / 2 ^ (lo + w) * 2 ^ (lo + w) + x % 2 ^ w * 2 ^ lo + v.toNat % 2 ^ lo < 2 ^ 32 := by
    rw [e]
    have hp : (2 : Nat) ^ 32 = 2 ^ lo * (2 ^ w * 2 ^ (32 - (lo + w))) := by
      rw [← Nat.pow_add, ← Nat.pow_add]; congr 1; omega
    rw [hp]
    calc 2 ^ lo * (2 ^ w * (v.toNat / 2 ^ (lo + w)) + x % 2 ^ w) + v.toNat % 2 ^ lo
        < 2 ^ lo * (2 ^ w * (v.toNat / 2 ^ (lo + w)) + x % 2 ^ w) + 2 ^ lo := by omega
      _ = 2 ^ lo * (2 ^ w * (v.toNat / 2 ^ (lo + w)) + x % 2 ^ w + 1) := by ring
      _ ≤ _ := Nat.mul_le_mul_left _ hlow
  rw [BitVec.toNat_ofNat, Nat.mod_eq_of_lt hlt, e, Nat.mul_add_div (Nat.two_pow_pos lo), Nat.div_eq_of_lt h2, Nat.add_zero,
    Nat.mul_add_mod, Nat.mod_eq_of_lt h1]

/-- A field reads back what was put into it. -/
theorem State.get_put (s : State) (f : Fld) (v i j : Nat) (h : f.lo + f.w ≤ 32) : (s.put f v i j).get f i j = v % 2 ^ f.w := by
  simp only [State.get, State.put, State.reg_setReg, if_true]
  exact fieldOf_withField _ _ _ _ h

/-- A field of another register keeps its value. -/
theorem State.get_put_reg (s : State) (f g : Fld) (v i j x y : Nat) (h : g.reg.at x y ≠ f.reg.at i j) :
    (s.put f v i j).get g x y = s.get g x y := by
  simp only [State.get, State.put, State.reg_setReg, if_neg h]

theorem toNat_withField (v : Word) (lo w x : Nat) (h : lo + w ≤ 32) :
    (withField v lo w x).toNat = 2 ^ (lo + w) * (v.toNat / 2 ^ (lo + w)) + (x % 2 ^ w * 2 ^ lo + v.toNat % 2 ^ lo) ∧
      x % 2 ^ w * 2 ^ lo + v.toNat % 2 ^ lo < 2 ^ (lo + w) := by
  have h1 : x % 2 ^ w < 2 ^ w := Nat.mod_lt _ (Nat.two_pow_pos w)
  have h2 : v.toNat % 2 ^ lo < 2 ^ lo := Nat.mod_lt _ (Nat.two_pow_pos lo)
  have h3 : v.toNat / 2 ^ (lo + w) < 2 ^ (32 - (lo + w)) := by
    rw [Nat.div_lt_iff_lt_mul (Nat.two_pow_pos _), ← Nat.pow_add]
    have : 32 - (lo + w) + (lo + w) = 32 := by omega
    rw [this]; exact v.isLt
  have hm : x % 2 ^ w * 2 ^ lo + v.toNat % 2 ^ lo < 2 ^ (lo + w) := by
    calc x % 2 ^ w * 2 ^ lo + v.toNat % 2 ^ lo < x % 2 ^ w * 2 ^ lo + 2 ^ lo := by omega
      _ = (x % 2 ^ w + 1) * 2 ^ lo := by ring
      _ ≤ 2 ^ w * 2 ^ lo := Nat.mul_le_mul_right _ h1
      _ = 2 ^ (lo + w) := by rw [Nat.pow_add]; ring
  refine ⟨?_, hm⟩
  have hp : (2 : Nat) ^ 32 = 2 ^ (lo + w) * 2 ^ (32 - (lo + w)) := by rw [← Nat.pow_add]; congr 1; omega
  unfold withField
  rw [BitVec.toNat_ofNat, Nat.mod_eq_of_lt]
  · ring
  · rw [hp, Nat.mul_comm (v.toNat / _)]
    calc 2 ^ (lo + w) * (v.toNat / 2 ^ (lo + w)) + x % 2 ^ w * 2 ^ lo + v.toNat % 2 ^ lo
        < 2 ^ (lo + w) * (v.toNat / 2 ^ (lo + w)) + 2 ^ (lo + w) := by omega
      _ = 2 ^ (lo + w) * (v.toNat / 2 ^ (lo + w) + 1) := by ring
      _ ≤ _ := Nat.mul_le_mul_left _ h3

/-- A field beside the one written keeps its value. -/
theorem fieldOf_withField_ne (v : Word) (lo w x lo' w' : Nat) (h : lo + w ≤ 32) (hd : lo' + w' ≤ lo ∨ lo + w ≤ lo') :
    fieldOf (withField v lo w x) lo' w' = fieldOf v lo' w' := by
  obtain ⟨e, hm⟩ := toNat_withField v lo w x h
  unfold fieldOf
  rcases hd with hd | hd
  · rw [← Nat.mod_mul_right_div_self, ← Nat.mod_mul_right_div_self, ← Nat.pow_add]
    congr 1
    have hdvd : 2 ^ (lo' + w') ∣ 2 ^ lo := Nat.pow_dvd_pow 2 hd
    have hlo : (withField v lo w x).toNat % 2 ^ lo = v.toNat % 2 ^ lo := by
      rw [e, Nat.pow_add]
      have : 2 ^ lo * 2 ^ w * (v.toNat / (2 ^ lo * 2 ^ w)) + (x % 2 ^ w * 2 ^ lo + v.toNat % 2 ^ lo) =
          v.toNat % 2 ^ lo + 2 ^ lo * (2 ^ w * (v.toNat / (2 ^ lo * 2 ^ w)) + x % 2 ^ w) := by ring
      rw [this, Nat.add_mul_mod_self_left, Nat.mod_mod]
    rw [← Nat.mod_mod_of_dvd _ hdvd, hlo, Nat.mod_mod_of_dvd _ hdvd]
  · have hk : 2 ^ lo' = 2 ^ (lo + w) * 2 ^ (lo' - (lo + w)) := by rw [← Nat.pow_add]; congr 1; omega
    rw [hk, ← Nat.div_div_eq_div_mul, ← Nat.div_div_eq_div_mul, e, Nat.mul_add_div (Nat.two_pow_pos _), Nat.div_eq_of_lt hm, Nat.add_zero]

/-- Another field of the same register keeps its value. -/
theorem State.get_put_field (s : State) (f g : Fld) (v i j x y : Nat) (h : f.lo + f.w ≤ 32)
    (hd : g.lo + g.w ≤ f.lo ∨ f.lo + f.w ≤ g.lo) : (s.put f v i j).get g x y = s.get g x y := by
  by_cases ha : g.reg.at x y = f.reg.at i j
  · simp only [State.get, State.put, State.reg_setReg, ha, if_true]
    exact fieldOf_withField_ne _ _ _ _ _ _ h hd
  · exact s.get_put_reg f g v i j x y ha
/-- The word of another register stays. -/
theorem State.reg_put (s : State) (f : Fld) (v i j a : Nat) (h : a ≠ f.reg.at i j) : (s.put f v i j).reg a = s.reg a := by
  simp only [State.put, State.reg_setReg, if_neg h]

/-- A field of a register of another family keeps its value. -/
theorem State.get_put_fam (s : State) (f g : Fld) (v i j x y : Nat) (h : g.reg ≠ f.reg) :
    (s.put f v i j).get g x y = s.get g x y :=
  s.get_put_reg f g v i j x y (RegId.at_ne _ _ _ _ _ _ h)

/-- A field of the same family, at another register of it, keeps its value. -/
theorem State.get_put_index (s : State) (f g : Fld) (v i j x y : Nat) (h : g.reg.at x y ≠ f.reg.at i j) :
    (s.put f v i j).get g x y = s.get g x y := s.get_put_reg f g v i j x y h

@[simp] theorem State.reg_setWide (s : State) (a v b : Nat) : (s.setWide a v).reg b = s.reg b := rfl

end Sys2Proof.Machine
end

