-- ==== Sys2Proof/Laws/Celil.lean ====
section
/-! SUPPORT. What fetching and finishing an instruction does, once for every Celil instruction: a fetched instruction runs its body on
the state with the cache's order renewed, and beside the engine, its PC and that order nothing changes. -/

namespace Sys2Proof.Machine

/-- Beside the order of the lines in the execute-in-place cache and the single-bit errors that a fetch corrects, `t` is `s`. -/
def SameButCache (s t : State) : Prop :=
  ∃ ls wk n, t = { s with xip := { s.xip with lines := ls }, ecc := { s.ecc with weak := wk, corrected := n } }

theorem SameButCache.refl (s : State) : SameButCache s s := ⟨s.xip.lines, s.ecc.weak, s.ecc.corrected, rfl⟩

theorem xipTouch_same (off : Nat) (s : State) : SameButCache s (xipTouch off s) := by
  unfold SameButCache xipTouch
  dsimp only
  split
  · exact ⟨_, s.ecc.weak, s.ecc.corrected, rfl⟩
  · exact SameButCache.refl s

theorem sramFix_same (off n : Nat) (s : State) : SameButCache s (sramFix off n s) := by
  unfold sramFix
  dsimp only
  split
  · exact SameButCache.refl s
  · exact ⟨s.xip.lines, _, _, rfl⟩

theorem fetchTouch_same (a : Nat) (s : State) : SameButCache s (fetchTouch a s) := by
  unfold fetchTouch
  split
  · exact sramFix_same _ _ s
  · exact xipTouch_same _ s

theorem SameButCache.trans {s t u : State} (h : SameButCache s t) (k : SameButCache t u) : SameButCache s u := by
  obtain ⟨l, _, _, rfl⟩ := h
  obtain ⟨m, wk, n, rfl⟩ := k
  exact ⟨m, wk, n, rfl⟩

/-- A fetched one-word instruction runs its body. -/
theorem runCelil_one (e : Nat) (w : Word) (body : State → State) (s : State) (h : s.fetches e [w] = true) :
    ∃ u, SameButCache s u ∧ runCelil e [w] body s = dropLines e (body u) := by
  simp only [State.fetches, List.length_singleton, List.range_one, List.all_cons, List.all_nil, Bool.and_true, Nat.mul_zero,
    Nat.add_zero, Bool.and_eq_true, beq_iff_eq, List.getD_cons_zero] at h
  refine ⟨fetchTouch (s.pc e) s, fetchTouch_same _ s, ?_⟩
  simp [runCelil, h.1, h.2]

/-- A fetched two-word instruction runs its body. -/
theorem runCelil_two (e : Nat) (w w1 : Word) (body : State → State) (s : State) (h : s.fetches e [w, w1] = true) :
    ∃ u, SameButCache s u ∧ runCelil e [w, w1] body s = dropLines e (body u) := by
  have hr : List.range [w, w1].length = [0, 1] := rfl
  simp only [State.fetches, hr, List.all_cons, List.all_nil, Bool.and_true, Nat.mul_zero,
    Nat.add_zero, Bool.and_eq_true, beq_iff_eq, List.getD_cons_zero, List.getD_cons_succ, Nat.mul_one] at h
  refine ⟨fetchTouch (s.pc e + 4) (fetchTouch (s.pc e) s), (fetchTouch_same _ s).trans (fetchTouch_same _ _), ?_⟩
  simp [runCelil, h.1, h.2.1, h.2.2]

/-- An engine that runs waits for nothing. -/
theorem fetches_wait (e : Nat) (ws : List Word) (s : State) (h : s.fetches e ws = true) : (s.eng e).wait = none := by
  simp only [State.fetches, State.canRun, Bool.and_eq_true, Option.isNone_iff_eq_none] at h
  exact h.1.2

/-- A fetched instruction's last word ends below the top of code space. -/
theorem fetches_pc (e : Nat) (w : Word) (ws : List Word) (s : State) (h : s.fetches e (w :: ws) = true) :
    s.pc e + 4 * (ws.length + 1) ≤ 0x08000000 := by
  simp only [State.fetches, Bool.and_eq_true, List.all_eq_true, List.mem_range, beq_iff_eq, List.length_cons] at h
  have hl := h.2 ws.length (by omega)
  unfold State.fetchWord at hl
  split at hl
  · cases hl
  · rename_i hc
    simp only [codeAddrOk, Bool.not_eq_true', Bool.not_eq_false, Bool.and_eq_true, Bool.or_eq_true, beq_iff_eq,
      decide_eq_true_eq] at hc
    omega

@[simp] theorem State.gr_cache (s t : State) (h : SameButCache s t) (e k : Nat) : t.gr e k = s.gr e k := by
  obtain ⟨_, _, _, rfl⟩ := h; rfl
@[simp] theorem State.tr_cache (s t : State) (h : SameButCache s t) (e k : Nat) : t.tr e k = s.tr e k := by
  obtain ⟨_, _, _, rfl⟩ := h; rfl
@[simp] theorem State.pc_cache (s t : State) (h : SameButCache s t) (e : Nat) : t.pc e = s.pc e := by
  obtain ⟨_, _, _, rfl⟩ := h; exact State.get_congr rfl _ _ _

/-- Going on writes the PC. -/
theorem pc_setPc (e a : Nat) (s : State) : (setPc e a s).pc e = a % 2 ^ 32 := s.get_put ENG_PC.PC a e 0 (by decide)

theorem reg_setPc (e a : Nat) (s : State) (b : Nat) (h : b ≠ RegId.ENG_PC.at e) : (setPc e a s).reg b = s.reg b :=
  s.reg_put ENG_PC.PC a e 0 b h

theorem OnlyEngine.of_cache {e : Nat} {s u t : State} (h : SameButCache s u) (k : OnlyEngine e u t) : OnlyEngine e s t := by
  obtain ⟨_, _, _, rfl⟩ := h
  exact ⟨k.engines, k.regs, k.rest⟩

theorem WroteG.of_cache {e d : Nat} {v : Dword} {s u t : State} (h : SameButCache s u) (k : WroteG e d v u t) :
    WroteG e d v s t := by
  obtain ⟨_, _, _, rfl⟩ := h
  exact k

theorem WentOn.of_cache {e n : Nat} {g tt scr : Bool} {s u t : State} (h : SameButCache s u) (k : WentOn e n g tt scr u t) :
    WentOn e n g tt scr s t := by
  obtain ⟨_, _, _, rfl⟩ := h
  exact ⟨k.pc, k.engine⟩

theorem dropLines_none (e : Nat) (s : State) (h : (s.eng e).wait = none) :
    dropLines e s = s.setEng e { s.eng e with lines := [] } := by
  unfold dropLines; rw [h]

theorem gr_setGr (e k : Nat) (v : Dword) (s : State) (j : Nat) :
    (setGr e k v s).gr e j = if j = 0 then 0 else if j = k then v else s.gr e j := by
  unfold State.gr setGr
  by_cases hj : j = 0
  · simp [hj]
  · by_cases hk : k = 0
    · have : j ≠ k := by omega
      simp [hj, hk]
    · simp only [hj, hk, if_false, State.eng_setEng, if_true, SMap.get_set]

theorem eng_setGr (e k : Nat) (v : Dword) (s : State) (j : Nat) :
    (setGr e k v s).eng j = if j = e then { s.eng e with g := ((setGr e k v s).eng e).g } else s.eng j := by
  by_cases hj : j = e
  · subst hj
    unfold setGr
    by_cases hk : k = 0 <;> simp [hk]
  · unfold setGr
    by_cases hk : k = 0 <;> simp [hk, hj]

theorem setGr_rest (e k : Nat) (v : Dword) (s : State) : ∃ es, setGr e k v s = { s with engines := es } := by
  unfold setGr
  by_cases hk : k = 0
  · rw [if_pos hk]; exact ⟨s.engines, rfl⟩
  · rw [if_neg hk]; exact ⟨_, rfl⟩

/-- Writing g`d`, going on `n` words and dropping the delivered lines: what a register-to-register instruction does. -/
theorem writeOn_spec (e d n : Nat) (v : Dword) (s : State) (hw : (s.eng e).wait = none) (hp : s.pc e + 4 * n < 2 ^ 32) :
    OnlyEngine e s (dropLines e (advance e n (setGr e d v s))) ∧ WroteG e d v s (dropLines e (advance e n (setGr e d v s))) ∧
      WentOn e n true false false s (dropLines e (advance e n (setGr e d v s))) := by
  have he := eng_setGr e d v s
  have hg := gr_setGr e d v s
  obtain ⟨es, hr⟩ := setGr_rest e d v s
  generalize setGr e d v s = u at he hg hr
  have hpc : u.pc e = s.pc e := State.get_congr (by rw [hr]) _ _ _
  have heng : ∀ j, (advance e n u).eng j = u.eng j := fun j => State.eng_put_keep u ENG_PC.PC (u.pc e + 4 * n) e 0 j
  have hwt : ((advance e n u).eng e).wait = none := by rw [heng, he, if_pos rfl]; exact hw
  rw [dropLines_none _ _ hwt]
  refine ⟨⟨?_, ?_, ?_⟩, ?_, ⟨?_, ?_⟩⟩
  · intro k hk
    rw [State.eng_setEng, if_neg hk, heng, he, if_neg hk]
  · intro a ha
    rw [State.reg_setEng_keep]
    unfold advance
    rw [reg_setPc _ _ _ _ ha]; exact State.reg_congr (by rw [hr]) _
  · obtain ⟨rs, hp⟩ : ∃ rs, advance e n u = { u with regs := rs } := ⟨_, rfl⟩
    rw [hp, hr]
    exact ⟨_, rs, s.xip.lines, s.ecc.weak, s.ecc.corrected, rfl⟩
  · intro k
    rw [← hg k]
    simp [State.gr, heng]
  · have hk : ∀ (x : State) y, (x.setEng e y).pc e = x.pc e := fun x y => State.get_congr rfl _ _ _
    rw [hk]
    unfold advance
    rw [pc_setPc, hpc]; exact Nat.mod_eq_of_lt hp
  · simp only [State.eng_setEng, if_true, heng]
    rw [he, if_pos rfl]; rfl

end Sys2Proof.Machine
end

