-- ==== Sys2Proof/Laws/Memory.lean ====
section
/-! SUPPORT. The on-chip memory and the NVM die: every operation keeps their canonical form, and a read after a write gives what was
written inside it and what was there before outside it. -/

namespace Sys2Proof.Machine

/-! ## Blocks of a sparse map -/

variable {α : Type}

theorem SMap.get_append_of_ne (d : Nat → α) (m x : SMap α) (k : Nat) (h : ∀ e ∈ m, e.1 ≠ k) :
    SMap.get d (m ++ x) k = SMap.get d x k := by
  induction m with
  | nil => rfl
  | cons e m ih =>
    have := h e (by simp)
    rw [List.cons_append, SMap.get, if_neg (Ne.symm this), ih fun e he => h e (by simp [he])]

theorem SMap.get_none (d : Nat → α) (m : SMap α) (k : Nat) (h : ∀ e ∈ m, e.1 ≠ k) : SMap.get d m k = d k := by
  simpa using SMap.get_append_of_ne d m [] k h

theorem SMap.get_append_left (d : Nat → α) (m x : SMap α) (k : Nat) (h : ∀ e ∈ x, e.1 ≠ k) :
    SMap.get d (m ++ x) k = SMap.get d m k := by
  induction m with
  | nil => exact SMap.get_none d x k h
  | cons e m ih => simp only [List.cons_append, SMap.get, ih]

/-- The entries that a block of values at `lo` makes. -/
def SMap.block [DecidableEq α] (d : Nat → α) (lo : Nat) (vs : List α) : SMap α :=
  (vs.zipIdx lo).filterMap fun x => if x.1 = d x.2 then none else some (x.2, x.1)

theorem SMap.block_cons [DecidableEq α] (d : Nat → α) (lo : Nat) (v : α) (vs : List α) :
    SMap.block d lo (v :: vs) = if v = d lo then SMap.block d (lo + 1) vs else (lo, v) :: SMap.block d (lo + 1) vs := by
  by_cases h : v = d lo <;> simp [SMap.block, h]

theorem SMap.block_key [DecidableEq α] (d : Nat → α) (vs : List α) : ∀ (lo : Nat), ∀ e ∈ SMap.block d lo vs,
    lo ≤ e.1 ∧ e.1 < lo + vs.length := by
  induction vs with
  | nil => intro lo e he; simp [SMap.block] at he
  | cons v vs ih =>
    intro lo e he
    rw [SMap.block_cons] at he
    split at he
    · have := ih _ _ he
      simp only [List.length_cons]; omega
    · rcases List.mem_cons.1 he with rfl | he
      · simp
      · have := ih _ _ he
        simp only [List.length_cons]; omega

theorem SMap.get_block [DecidableEq α] (d : Nat → α) (vs : List α) : ∀ (lo j : Nat),
    SMap.get d (SMap.block d lo vs) j = if lo ≤ j ∧ j < lo + vs.length then vs.getD (j - lo) (d j) else d j := by
  induction vs with
  | nil => intro lo j; simp [SMap.block]
  | cons v vs ih =>
    intro lo j
    rw [SMap.block_cons]
    by_cases hj : j = lo
    · subst hj
      by_cases h : v = d j
      · rw [if_pos h, ih, if_neg (by omega)]
        simp [h]
      · simp [h, SMap.get]
    · have e : SMap.get d (if v = d lo then SMap.block d (lo + 1) vs else (lo, v) :: SMap.block d (lo + 1) vs) j =
          SMap.get d (SMap.block d (lo + 1) vs) j := by
        split
        · rfl
        · rw [SMap.get, if_neg hj]
      rw [e, ih]
      by_cases h : lo ≤ j ∧ j < lo + (v :: vs).length
      · have : j - lo = (j - (lo + 1)) + 1 := by omega
        rw [if_pos h, if_pos (by simp only [List.length_cons] at h; omega), this, List.getD_cons_succ]
      · rw [if_neg h, if_neg (by simp only [List.length_cons] at h; omega)]

/-- Read after a block write, at every key. -/
theorem SMap.get_fill [DecidableEq α] (d : Nat → α) (m : SMap α) (lo : Nat) (vs : List α) (j : Nat) :
    SMap.get d (SMap.fill d m lo vs) j =
      if lo ≤ j ∧ j < lo + vs.length then vs.getD (j - lo) (d j) else SMap.get d m j := by
  have low : ∀ e ∈ m.filter (fun e => e.1 < lo), e.1 < lo := fun e he => by simpa using (List.mem_filter.1 he).2
  have high : ∀ e ∈ m.filter (fun e => lo + vs.length ≤ e.1), lo + vs.length ≤ e.1 :=
    fun e he => by simpa using (List.mem_filter.1 he).2
  have mid := SMap.block_key d vs lo
  change SMap.get d (m.filter (fun e => e.1 < lo) ++ SMap.block d lo vs ++ m.filter (fun e => lo + vs.length ≤ e.1)) j = _
  by_cases h1 : j < lo
  · rw [if_neg (by omega), List.append_assoc, SMap.get_append_left _ _ _ _ (fun e he => ?_)]
    · exact (SMap.get_drop d (fun k => decide (k < lo)) m j).trans (if_pos (by simpa using h1))
    · rcases List.mem_append.1 he with he | he
      · have := mid e he; omega
      · have := high e he; omega
  · rw [List.append_assoc, SMap.get_append_of_ne _ _ _ _ (fun e he => by have := low e he; omega)]
    by_cases h2 : j < lo + vs.length
    · rw [SMap.get_append_left _ _ _ _ (fun e he => by have := high e he; omega), SMap.get_block]
      simp only [show lo ≤ j ∧ j < lo + vs.length from ⟨by omega, h2⟩, and_self, if_true]
    · rw [if_neg (by omega), SMap.get_append_of_ne _ _ _ _ (fun e he => by have := mid e he; omega)]
      exact (SMap.get_drop d (fun k => decide (lo + vs.length ≤ k)) m j).trans (if_pos (by simp; omega))

theorem SMap.wfFrom_block [DecidableEq α] (d : Nat → α) (vs : List α) : ∀ lo, SMap.wfFrom d lo (SMap.block d lo vs) = true := by
  induction vs with
  | nil => intro lo; rfl
  | cons v vs ih =>
    intro lo
    rw [SMap.block_cons]
    split
    · exact SMap.wfFrom_mono d (by omega) _ (ih (lo + 1))
    · rename_i h
      simp [SMap.wfFrom, h, ih]

theorem SMap.wfFrom_append [DecidableEq α] (d : Nat → α) (mid : Nat) (x : SMap α) (hx : SMap.wfFrom d mid x = true) :
    ∀ (m : SMap α) (lo : Nat), lo ≤ mid → (∀ e ∈ m, e.1 < mid) → SMap.wfFrom d lo m = true → SMap.wfFrom d lo (m ++ x) = true
  | [], lo, hl, _, _ => SMap.wfFrom_mono d hl x hx
  | (k, v) :: m, lo, _, hk, hm => by
    simp only [SMap.wfFrom, Bool.and_eq_true, decide_eq_true_eq, List.cons_append] at hm ⊢
    exact ⟨hm.1, SMap.wfFrom_append d mid x hx m (k + 1) (hk (k, v) (by simp)) (fun e he => hk e (by simp [he])) hm.2⟩

theorem SMap.wfFrom_raise [DecidableEq α] (d : Nat → α) (b : Nat) : ∀ (m : SMap α) (lo : Nat), SMap.wfFrom d lo m = true →
    (∀ e ∈ m, b ≤ e.1) → SMap.wfFrom d b m = true
  | [], _, _, _ => rfl
  | (k, v) :: m, lo, hm, hb => by
    simp only [SMap.wfFrom, Bool.and_eq_true, decide_eq_true_eq] at hm ⊢
    exact ⟨⟨hb (k, v) (by simp), hm.1.2⟩, hm.2⟩

/-- A block write keeps the canonical form. -/
theorem SMap.wf_fill [DecidableEq α] (d : Nat → α) (m : SMap α) (lo : Nat) (vs : List α) (h : SMap.wf d m = true) :
    SMap.wf d (SMap.fill d m lo vs) = true := by
  change SMap.wfFrom d 0 (m.filter (fun e => e.1 < lo) ++ SMap.block d lo vs ++ m.filter (fun e => lo + vs.length ≤ e.1)) = true
  have high : SMap.wfFrom d (lo + vs.length) (m.filter (fun e => lo + vs.length ≤ e.1)) = true :=
    SMap.wfFrom_raise d _ _ 0 (SMap.wfFrom_filter d _ 0 m h) fun e he => by simpa using (List.mem_filter.1 he).2
  have mid := SMap.wfFrom_append d _ _ high (SMap.block d lo vs) lo (by omega) (fun e he => (SMap.block_key d vs lo e he).2)
    (SMap.wfFrom_block d vs lo)
  rw [List.append_assoc]
  exact SMap.wfFrom_append d lo _ mid _ 0 (by omega) (fun e he => by simpa using (List.mem_filter.1 he).2)
    (SMap.wfFrom_filter d _ 0 m h)

/-! ## On-chip memory -/

theorem setByte_wf (s : State) (a : Nat) (v : Byte) (h : Memory.wf s.mem = true) : Memory.wf (s.setByte a v).mem = true :=
  SMap.wf_set _ _ _ _ h

theorem setBytes_wf : ∀ (bs : List Byte) (s : State) (a : Nat), Memory.wf s.mem = true → Memory.wf (s.setBytes a bs).mem = true
  | [], _, _, h => h
  | b :: bs, s, a, h => setBytes_wf bs _ (a + 1) (setByte_wf s a b h)

theorem store_wf (s : State) (a : Nat) (bs : List Byte) (h : Memory.wf s.mem = true) : Memory.wf (s.store a bs).mem = true :=
  setBytes_wf bs s a h

theorem setWord_wf (s : State) (a : Nat) (v : Word) (h : Memory.wf s.mem = true) : Memory.wf (s.setWord a v).mem = true :=
  setBytes_wf _ s a h

theorem clear_mem_wf (lo hi : Nat) (m : List Host.Cell) (h : Memory.wf m = true) : Memory.wf (SMap.clear lo hi m) = true :=
  SMap.wf_clear _ lo hi m h

/-- A byte read after a byte write. -/
theorem byte_setByte (s : State) (a : Nat) (v : Byte) (x : Nat) : (s.setByte a v).byte x = if x = a then v else s.byte x :=
  SMap.get_set _ _ _ _ _

/-- A byte read after a write of bytes: theirs inside, as before outside. -/
theorem byte_setBytes : ∀ (bs : List Byte) (s : State) (a x : Nat),
    (s.setBytes a bs).byte x = if a ≤ x ∧ x < a + bs.length then bs.getD (x - a) 0 else s.byte x
  | [], s, a, x => by rw [if_neg (by simp)]; rfl
  | b :: bs, s, a, x => by
    rw [State.setBytes, byte_setBytes bs, byte_setByte]
    by_cases h : x = a
    · subst h; simp
    · by_cases h2 : a ≤ x ∧ x < a + (b :: bs).length
      · have e : x - a = (x - (a + 1)) + 1 := by omega
        rw [if_pos h2, if_pos (by simp only [List.length_cons] at h2; omega), e, List.getD_cons_succ]
      · rw [if_neg h2, if_neg (by simp only [List.length_cons] at h2; omega), if_neg h]

/-- A byte read after a store. -/
theorem byte_store (s : State) (a : Nat) (bs : List Byte) (x : Nat) :
    (s.store a bs).byte x = if a ≤ x ∧ x < a + bs.length then bs.getD (x - a) 0 else s.byte x := byte_setBytes bs s a x

/-- Bytes read where they were written. -/
theorem bytesAt_setBytes (s : State) (a : Nat) (bs : List Byte) : (s.setBytes a bs).bytesAt a bs.length = bs := by
  apply List.ext_getElem
  · simp [State.bytesAt]
  · intro i h1 h2
    simp [State.bytesAt, byte_setBytes, h2]

/-- All that a store does: its bytes, and the uncorrectable words that it writes whole are good again (R28). -/
theorem store_wrote (s : State) (a : Nat) (bs : List Byte) : WroteMem a bs s (s.store a bs) := by
  refine ⟨byte_store s a bs, fun w => ?_⟩
  have e : (s.setBytes a bs).badWords = s.badWords := by
    suffices h : ∀ (l : List Byte) (s : State) (a : Nat), (s.setBytes a l).badWords = s.badWords from h bs s a
    intro l
    induction l with
    | nil => intros; rfl
    | cons b l ih => intro s a; rw [State.setBytes, ih]; rfl
  simp only [State.store, e, List.mem_filter, Bool.or_eq_true, decide_eq_true_eq, not_and, not_le]
  constructor
  · rintro ⟨h, h2⟩; exact ⟨h, by omega⟩
  · rintro ⟨h, h2⟩; exact ⟨h, by omega⟩

/-! ## The NVM die -/

theorem nvmProgram_wf (a : Nat) (bs : List Byte) (s : State) (h : Nvm.wf s.nvm = true) : Nvm.wf (nvmProgram a bs s).nvm = true :=
  SMap.wf_fill _ _ _ _ h

theorem nvmEraseRange_wf (lo hi : Nat) (s : State) (h : Nvm.wf s.nvm = true) : Nvm.wf (nvmEraseRange lo hi s).nvm = true :=
  SMap.wf_clear _ _ _ _ h

theorem nvmByte_nvmProgram (a : Nat) (bs : List Byte) (s : State) (x : Nat) :
    (nvmProgram a bs s).nvmByte x = if a ≤ x ∧ x < a + bs.length then bs.getD (x - a) 0xFF else s.nvmByte x :=
  SMap.get_fill _ _ _ _ _

theorem nvmByte_nvmEraseRange (lo hi : Nat) (s : State) (x : Nat) :
    (nvmEraseRange lo hi s).nvmByte x = if lo ≤ x ∧ x < hi then 0xFF else s.nvmByte x := SMap.get_clear _ _ _ _ _

/-! ## Reset -/

theorem reset_mem_wf : Memory.wf State.reset.mem = true ∧ Nvm.wf State.reset.nvm = true := ⟨rfl, rfl⟩

/-! ## What keeps the whole canonical form -/

theorem setReg_canonical (s : State) (a : Nat) (v : Word) (h : s.Canonical) : (s.setReg a v).Canonical :=
  ⟨h.mem, h.nvm, SMap.wf_set _ _ _ _ h.regs, h.wide⟩

theorem setWide_canonical (s : State) (a v : Nat) (h : s.Canonical) : (s.setWide a v).Canonical :=
  ⟨h.mem, h.nvm, h.regs, SMap.wf_set _ _ _ _ h.wide⟩

theorem setByte_canonical (s : State) (a : Nat) (v : Byte) (h : s.Canonical) : (s.setByte a v).Canonical :=
  ⟨setByte_wf s a v h.mem, h.nvm, h.regs, h.wide⟩

theorem setBytes_canonical : ∀ (bs : List Byte) (s : State) (a : Nat), s.Canonical → (s.setBytes a bs).Canonical
  | [], _, _, h => h
  | b :: bs, s, a, h => setBytes_canonical bs _ (a + 1) (setByte_canonical s a b h)

theorem nvmProgram_canonical (a : Nat) (bs : List Byte) (s : State) (h : s.Canonical) : (nvmProgram a bs s).Canonical :=
  ⟨h.mem, nvmProgram_wf a bs s h.nvm, h.regs, h.wide⟩

theorem nvmEraseRange_canonical (lo hi : Nat) (s : State) (h : s.Canonical) : (nvmEraseRange lo hi s).Canonical :=
  ⟨h.mem, nvmEraseRange_wf lo hi s h.nvm, h.regs, h.wide⟩

end Sys2Proof.Machine
end

