-- ==== Sys2Proof/Laws/Ops.lean ====
section
/-! SUPPORT. What some shared operations can do: the end event of a measurement that comes first, an access that cannot arrive, and the
end of a re-initialisation. -/

namespace Sys2Proof.Laws

open Sys2Proof Sys2Proof.Machine

/-- Of two end events one is taken. -/
theorem earlierEnd_eq (a b : Nat × Nat) : earlierEnd a b = a ∨ earlierEnd a b = b := by
  unfold earlierEnd; split
  · exact .inr rfl
  · exact .inl rfl

/-- The end event that is taken is no later than either (R166). -/
theorem earlierEnd_le (a b : Nat × Nat) : (earlierEnd a b).2 ≤ a.2 ∧ (earlierEnd a b).2 ≤ b.2 := by
  unfold earlierEnd; split <;> rename_i h <;> simp at h <;> omega

/-- The fold of `Meas.firstEnd` takes an event of its list and none later than any. -/
theorem foldl_earlierEnd (l : List (Nat × Nat)) (a : Nat × Nat) :
    l.foldl earlierEnd a ∈ a :: l ∧ ∀ b ∈ a :: l, (l.foldl earlierEnd a).2 ≤ b.2 := by
  induction l generalizing a with
  | nil => simp
  | cons x l ih =>
    obtain ⟨m, le⟩ := ih (earlierEnd a x)
    have e := earlierEnd_eq a x
    have k := earlierEnd_le a x
    have h := le _ List.mem_cons_self
    refine ⟨?_, ?_⟩
    · simp only [List.foldl_cons, List.mem_cons] at m ⊢
      rcases m with m | m
      · rw [m]; exact e.imp id .inl
      · exact .inr (.inr m)
    · intro b hb
      simp only [List.mem_cons] at hb
      rcases hb with rfl | rfl | hb
      · exact Nat.le_trans h k.1
      · exact Nat.le_trans h k.2
      · exact le b (List.mem_cons_of_mem _ hb)

/-- The end of a measurement is the given event or one that is known, and no known event comes before it (R166). -/
theorem firstEnd_spec (m : Meas) (code endTs : Nat) :
    m.firstEnd code endTs ∈ (code, endTs) :: m.ends ∧ ∀ e ∈ (code, endTs) :: m.ends, (m.firstEnd code endTs).2 ≤ e.2 :=
  foldl_earlierEnd m.ends (code, endTs)

/-- Only the host's accesses can fail to arrive (R354). -/
theorem busOn_of_ne {o : Nat} (h : o ≠ oPcie) (s : State) : s.busOn o = true := by simp [State.busOn, h]

/-- A write that cannot arrive changes nothing (R354). -/
theorem busWrite_off {o : Origin} {s : State} (h : s.busOn o.toNat = false) (a : Nat) (v : Word) : busWrite o a v s = .next s := by
  simp [busWrite, originWrite, h]

/-- A re-initialisation that is not in progress does not end (R381). -/
theorem reinitCompleteS_none {s : State} {j : Nat} (h : s.reinits[j]? = none) (ok : Bool) : reinitCompleteS ok j s = s := by
  simp [reinitCompleteS, h]

end Sys2Proof.Laws
end

