-- ==== Sys2Proof/Tests/Slice0.lean ====
section
/-! SUPPORT. Tests: for every statement with hypotheses a state and operands that meet all of them together, clause by clause and at
the boundary of their ranges; an ill-formed command for each check; Celil words written bit by bit; the manual's worked examples. -/

namespace Sys2Proof.Tests

set_option Elab.async false

open Sys2Proof Sys2Proof.Machine Sys2Proof.Claims

/-! ## States -/

/-- A part in full service with every chiplet running and every port enabled, two seconds after reset. -/
def up : State :=
  let s : State := { State.reset with boot := .up, clock := 6400000000, tansyQ := [], bme := true, fnMask := false }
  let s := ((((s.put SL_STAT.LEVEL 2).put SOR_STAT.SRC 0).put PORT_MEN_A.MEN 255).put EDITION_SEL.ED 1).put PCIE_STAT.LINK_UP 1
  { s with chips := (List.range 8).map fun n => (n, { running := true }) }

/-- The item that the engines of these states hold: number 1 of queue 5. -/
def it : Item := { seq := 1, st := .held 255, size := 16 }

/-- It after two faults. -/
def it2 : Item := { it with fcnt := 2 }

/-- Queue 5 holds the item after two faults; the quarantine queue has room for `len` items. -/
def twice (len : Nat) (s : State) : State :=
  ((s.setQueue 5 { nextSeq := 2, items := [it2] }).put QD_CTRL.EN 1 quarQ).put QD_LEN.LEN len quarQ

/-- Engine 255 runs a handler for that item; its code starts at address 0. -/
def runs (ws : List Word) (g : SMap Dword := []) (t : SMap (BitVec 80) := []) (s : State := up) : State :=
  let s := s.setBytes 0x01400000 (ws.flatMap fun w => leBytes 4 w.toNat)
  let s := (s.put ENG_STAT.STATE esRun 255).setQueue 5 { nextSeq := 2, items := [it] }
  let s := ((s.put QD_CTRL.EN 1 5).put QD_LEN.LEN 4 5).put QD_STAT.LEVEL 1 5
  s.setEng 255 { g := g, t := t, held := some (5, 1) }

/-- A valid hop context for core 0: 12.8 GHz on LC core 0 by band 4, in-place, one port entry (port 0, divider 8). -/
def hopCtx (flags : Nat := 0x113) : List Word :=
  (((((List.replicate 32 (0 : Word)).set 0 (BitVec.ofNat 32 flags)).set 1 0x00040000).set 2 4).set 16 0).set 17 8

/-- That context as the last of the table. -/
def withCtx (s : State) (ws : List Word := hopCtx) : State := s.setBytes (128 * 16383) (ws.flatMap fun w => leBytes 4 w.toNat)

/-- Queue 32766 serves hosts and engines. -/
def hostQ (items : List Item := []) (s : State := up) : State :=
  let s := (((s.put QD_CTRL.EN 1 32766).put QD_CTRL.HOSTQ 1 32766).put QD_CTRL.SUBMIT 15 32766).put QD_LEN.LEN 2 32766
  (s.put QD_STAT.LEVEL items.length 32766).setQueue 32766 { nextSeq := 7 + items.length, items := items }

/-- An engine whose wait is `w`, in engine state `st`. -/
def waits (st : Nat) (w : EngWait) (s : State) : State :=
  (s.put ENG_STAT.STATE st 255).setEng 255 { s.eng 255 with wait := some w }
/-- Both references present and qualified, the one of `REF_STAT.STATE` = `st` in use. -/
def refs (st : Nat) (s : State := up) : State :=
  (((((s.put REF_STAT.A_PRESENT 1).put REF_STAT.A_QUAL 1).put REF_STAT.B_PRESENT 1).put REF_STAT.B_QUAL 1).put REF_STAT.STATE st)
/-- 12.8 GHz: INT 4 on the tick clock, band 4. -/
def word : DivWord := ⟨0, 0, 0, 3, 4, 0, 0, 0, 4, false⟩

/-- Core 63 with both halves powered and ready at 12.8 GHz, half A driving and locked; port 1023 draws from it at divider 8. -/
def cored (s : State := up) : State :=
  let s := (s.put CORE_CTRL.A_PWR 1 63).put CORE_CTRL.B_PWR 1 63
  let s := forBelow 2 (fun h s => ((s.put HALF_STAT.READY 1 63 h).put HALF_STAT.ACT_INT 4 63 h).put HALF_STAT.ACT_BAND 4 63 h) s
  let s := ((s.put HALF_STAT.LOCKED 1 63 0).put PORT_STAT.ACT_SRC 7 1023).put PORT_ACT.ACT_DIV 8 1023
  (s.put HOP_CFG.RELOCK_EN 1 63).setPort 1023 { en := true }

/-- A HOP of core 63, admitted for tick `due`. -/
def hop (cls : HopClass) (due lead : Nat) : Admitted :=
  { act := ⟨due, 0, 5, 1, 0, false, .hop 63 16383 hopCtx⟩, due := due, cls := cls, cached := true, lead := lead }

/-- Chiplet 7 holds one admitted action. -/
def admitted (a : Admitted) (s : State) : State := s.setChip 7 { s.chip 7 with fifo := [a] }

/-- Core 63 in a ping-pong hop. -/
def hopping (r : HopRun) (s : State := cored) : State :=
  ((admitted r.adm s).put HOP_STAT.WINDOW 1 63).setCore 63 { hop := some r }

/-- Half B of core 63 replaced. -/
def halfB (x : Half) (s : State := cored) : State := s.setHalf 63 1 x
/-- Port 1023 in state `st` of `PORT_STAT.STATE`, running, with a ceiling of 3.2 GHz, its word's frequency. -/
def ported (st : Nat := 1) (x : PortSt := { en := true }) (s : State := cored) : State :=
  (((s.put PORT_CEIL.CEIL_KHZ 3200000 1023).put PORT_STAT.STATE st 1023).put PORT_STAT.RUNNING (if st = 1 then 1 else 0) 1023).setPort 1023 x

/-- An action of kind `k` for `tick`. -/
def act (k : ActKind) (tick : Nat) (late : Bool := false) : Action := ⟨tick, 0, 5, 1, 0, late, k⟩

/-- It as admitted. -/
def adm (k : ActKind) (due : Nat := 6400000000) : Admitted := { act := act k due, due := due, cls := .inPlace, cached := true, lead := 8 }

/-- Queue 5 holds an ended item 1 with one action under way. -/
def ended (s : State) : State := s.setQueue 5 { nextSeq := 2, items := [{ it with st := .ended, out := 1 }] }

/-- An action on its way to chiplet 7. -/
def sent (a : Action) (s : State := up) : State := s.setChip 7 { s.chip 7 with transit := [a] }

/-- Event channel 1279 with its input enabled. -/
def chan (x : Chan) (s : State := up) : State := { (s.put TS_IN.IN_EN 1 159 7) with chans := [(1279, x)] }

/-- Mode STAMP on ring 31, gated by channel 1279. -/
def stampWord : Nat := 65536 + 31 * 131072 + 4194304 + 31 * 16777216

/-- Ring 31, the last block of the ring space. -/
def ringed (level : Nat) (s : State) : State :=
  (((s.put RING_CFG.EN 1 31).put RING_CFG.BASE 747 31).put RING_CFG.SIZE 1 31).put RING_STAT.LEVEL level 31
/-- Link 15 in link state `st` with role `r`. -/
def linked (st r : Nat) (x : Lnk := {}) (s : State := up) : State :=
  ((s.put RY_STAT.STATE st 15).put RY_CFG.ROLE r 15).setLnk 15 x

/-- This part is worker 7, admitted. -/
def worker (s : State := up) : State := ((s.put RY_GSTAT.TOP 0).put RY_GSTAT.ADMITTED 1).put RY_GSTAT.WID 7

/-- A top manager with worker 255 in state `st` on link 15. -/
def manages (st : Nat) (s : State := linked lsUp 1) : State := (s.put WT_STAT.STATE st 255).put WT_STAT.LINK 15 255

/-- A whole frame of type `type`, in order: its CRC is that of its header and payload. -/
def fr (type : Nat) (payload : List Byte) (dst : BitVec 8 := 0) (src : BitVec 8 := 255) : RyFrame :=
  let f : RyFrame := ⟨BitVec.ofNat 8 type, reliableType type, 0, dst, src, 0, BitVec.ofNat 8 payload.length, 0, payload, 0⟩
  { f with crc := BitVec.ofNat 32 (ryCrc (headerOf f) payload) }

/-- Little-endian fields (bytes, value) in a row. -/
def fields (l : List (Nat × Nat)) : List Byte := l.flatMap fun p => leBytes p.1 p.2

/-- Forwarding entry 1023 of host queue 32766 to queue 9 of worker 255. -/
def forwards (s : State := manages 3) : State :=
  ((((hostQ [{ seq := 7 }] s).put FWD_CFG.EN 1 1023).put FWD_CFG.FQ 32766 1023).put FWD_DST.WID 255 1023).put FWD_DST.RQ 9 1023
/-- The mirror record in state `st` of the item that queue 32766 forwarded as its number 7. -/
def record (st : Nat) : Mirror :=
  { mseq := 7, wid := 255, st := st, unrep := false, entry := 1023, rq := 9, sz := 0, wseq := 0, horizon := 0, item := [] }

/-- A forwarding table whose only record, the first, is `m`. -/
def mirrored (m : Mirror) (s : State) : State := { s with ry := { s.ry with mirrors := [(0, some m)] } }

/-- Bytes as cells of the NVM die. -/
def cells (a : Nat) (bs : List Byte) : List Host.Cell := (bs.zipIdx a).map fun x => (x.2, x.1)

/-- Boot slot `k` with generation 5, an empty body by its commit record, and one list entry. -/
def slot (k : Nat) (a v : Nat) : List Host.Cell :=
  let b := slotBase k
  cells b (fields [(4, 0x5342494D), (4, 1), (1, 1), (1, 1), (2, 0), (4, 4), (4, 0x3FFFFC), (4, 128), (4, 16383), (4, 1)]) ++
    cells (b + 0x1000) (fields [(4, a), (4, v)]) ++ cells (b + 0x7FE000) (leBytes 4 (crc32c [])) ++
    cells (b + 0x7FF000) (commitRecord 0x5342434D 5 0 (crc32c []))

/-- A part that stands at boot step `b`. -/
def booting (b : Boot) (nvm : List Host.Cell := []) : State :=
  { State.reset with boot := b, tansyQ := [], nvm := nvm, chips := up.chips }

/-- A whole single-lane frame of the serial slave port: for a read the edges of `words` words follow the count. -/
def ssp (op addr words : Nat) (data : List Byte := []) (more : Nat := 0) (abort : Option Nat := none) : SspFrame :=
  let bs := if op = 0 then [BitVec.ofNat 8 op] else fields [(1, op), (4, addr), (2, words)] ++ data
  ⟨lanesOf false bs ++ List.replicate ((if op = 1 || op = 4 then 8 + 32 * words else 0) + more) 0, false, none, abort, 0⟩

/-- The PCI Express link is up. -/
def linkUp (s : State := up) : State := s.put PCIE_STAT.LINK_UP 1
theorem pfld_prefix (n : Nat) (p : List Byte) : pfld (leBytes 8 n ++ p) 0 8 = n % 2 ^ 64 := by
  have e : (leBytes 8 n ++ p).take 8 = leBytes 8 n := by
    simp [leBytes, List.range_succ]
  simp only [pfld, List.drop_zero, e]
  simp [leBytes, leNat, List.range_succ]; omega

/-- A frame that begins with this part's serial number carries it. -/
theorem pfld_own (p : List Byte) : pfld (leBytes 8 ownSerial ++ p) 0 8 = ownSerial := by
  rw [pfld_prefix]; exact Nat.mod_eq_of_lt Config.serialNumber.isLt

theorem crcBits_lt (n c : Nat) (h : c < 2 ^ 32) : crcBits n c < 2 ^ 32 := by
  induction n generalizing c with
  | zero => exact h
  | succ n ih =>
    simp only [crcBits]
    apply ih
    split
    · exact Nat.xor_lt_two_pow (by omega) (by decide)
    · omega

theorem crc32c_lt (bs : List Byte) : crc32c bs < 2 ^ 32 := by
  have h : ∀ (l : List Byte) (c : Nat), c < 2 ^ 32 → l.foldl (fun c b => crcBits 8 (Nat.xor c b.toNat)) c < 2 ^ 32 := by
    intro l
    induction l with
    | nil => exact fun c h => h
    | cons b l ih => exact fun c h => ih _ (crcBits_lt 8 _ (Nat.xor_lt_two_pow h (by have := b.isLt; omega)))
  exact Nat.xor_lt_two_pow (h bs _ (by decide)) (by decide)

/-- A frame built with its own CRC is whole. -/
theorem fr_good (type : Nat) (p : List Byte) (d s : BitVec 8) (h8 : p.length % 8 = 0) (h88 : p.length ≤ 88) :
    frameGood (fr type p d s) = true := by
  have hp : p.length % 2 ^ 8 = p.length := Nat.mod_eq_of_lt (by omega)
  have hc : (fr type p d s).crc.toNat = ryCrc (headerOf (fr type p d s)) p := by
    simp only [fr, BitVec.toNat_ofNat]
    exact Nat.mod_eq_of_lt (crc32c_lt _)
  have hl : (fr type p d s).len.toNat = p.length := by simp only [fr, BitVec.toNat_ofNat, hp]
  have hq : (fr type p d s).payload = p := rfl
  simp [frameGood, hc, hl, hq, h8, h88]

/-- Where the table holds one record, a search finds it or nothing. -/
theorem mirrorsWhere_record {m : Mirror} {s : State} {p : Mirror → Bool} {e : Nat × Mirror}
    (h : e ∈ (mirrored m s).mirrorsWhere p) : e = (0, m) := by
  simp only [State.mirrorsWhere, mirrored, List.mem_mergeSort, List.mem_filterMap, List.mem_singleton] at h
  obtain ⟨x, rfl, hx⟩ := h
  split at hx <;> simp_all

theorem record_whole {m : Mirror} {s : State} {p : Mirror → Bool} (h : (mirrored m s).anyBad 0x01E00000 128 = false)
    (hu : m.unrep = false) : ∀ e ∈ (mirrored m s).mirrorsWhere p,
      (mirrored m s).anyBad (0x01E00000 + 128 * e.1) 128 = false ∧ ∀ x, (mirrored m s).mirror e.1 = some x → x.unrep = false := by
  intro e he
  obtain rfl := mirrorsWhere_record he
  exact ⟨h, fun x hx => Option.some.inj hx ▸ hu⟩

/-- What a link hears, as one condition. -/
theorem hears_iff (l type : Nat) (f : RyFrame) (s : State) :
    Hears l type f s ↔ (alive (linkChip l) s ∧ s.chipLost (linkChip l) = false ∧ lsDiscover ≤ s.linkState l) ∧
      f.type.toNat = type ∧ frameGood f = true ∧ (reliableType type = true → s.cdDown = false ∧ f.lseq.toNat = (s.lnk l).rxNext) :=
  ⟨fun h => ⟨⟨h.alive, h.chip, h.locked⟩, h.typed, h.whole, h.order⟩, fun ⟨⟨a, c, l⟩, t, w, o⟩ => ⟨a, c, l, t, w, o⟩⟩

/-- What the slave port takes as a frame, as one condition. -/
theorem framed_iff (op : Nat) (f : SspFrame) (s : State) :
    Framed op f s ↔ (s.cdDown = false ∧ s.coldHeld = false ∧ s.boot ≠ .sram) ∧ f.hasCmd = true ∧ f.op = op :=
  ⟨fun h => ⟨⟨h.on, h.cold, h.ready⟩, h.cmd, h.op⟩, fun ⟨⟨a, b, c⟩, d, e⟩ => ⟨a, b, c, d, e⟩⟩

theorem enginesQuiet_of {e : Option Nat} {s : State} (h : (s.engines.all fun x => e == some x.1 || x.2.reinitAt == none) = true) :
    enginesQuiet e s := fun x hx => by
  rcases Bool.or_eq_true _ _ ▸ List.all_eq_true.1 h x hx with h | h
  · exact .inl (by simpa using h)
  · exact .inr fun t ht => by simp [ht] at h

/-- The slave port may read the last argument word. -/
theorem plain_ssp (i : Nat) (hi : i < (ssp 1 (RegId.QD_ARG.at 32766) 1).count) :
    plainRead oSsp ((ssp 1 (RegId.QD_ARG.at 32766) 1).wordAddr i) up := by
  have h : (ssp 1 (RegId.QD_ARG.at 32766) 1).count = 1 := by decide +kernel
  obtain rfl : i = 0 := by omega
  exact ⟨by decide +kernel, ⟨.QD_ARG, 32766, 0⟩, by decide +kernel⟩

/-- PCI Express may read the last queue's two words. -/
theorem plain_pcie (i : Nat) (hi : i < 2) :
    plainRead oPcie ((BitVec.ofNat 26 (RegId.QD_ENTRY.at 32766)).toNat + 4 * i) linkUp := by
  interval_cases i
  · exact ⟨by decide +kernel, ⟨.QD_ENTRY, 32766, 0⟩, by decide +kernel⟩
  · exact ⟨by decide +kernel, ⟨.QD_ARG, 32766, 0⟩, by decide +kernel⟩

/-! ## Commands that can occur -/

/-- One command for each check of `wellFormed`, which it fails. -/
theorem test_ill_formed_refused :
  ([.mailboxSnap 0x102 0, .aliasSet 0x100 0x1030 0, .aliasSet 0x100 0x360000 0, .aliasSet 0x120 0x0030 0, .pairOpen 0x100 0x24 0,
    .pairedWrite 0x100 0x28 0, .sspStatus (ssp 1 0 0), .sspRead (ssp 2 0 0),
    .sspWrite (ssp 1 0 0), .sspStream (ssp 4 0 0), .sspMemread (ssp 5 0 0),
    .sspMemwrite (ssp 4 0 0), .wtApprove 0x100 0 1, .wtEvict 0x100 0 0,
    .wtDeny 0x100 0 2, .wtReplay 0x100 0 4, .rxHello 0 (fr fHELLO []), .rxJoin 0 (fr fJOIN []), .rxAdmit 0 (fr fADMIT []), .rxRefuse 0 (fr fREFUSE []),
    .rxLeave 0 (fr fLEAVE []), .rxReady 0 (fr fREADY []), .rxHb 0 (fr fHB []), .rxTt 0 (fr fTT []) 0, .rxEpoch 0 (fr fEPOCH []), .rxLack 0 (fr fLACK []),
    .rxLnak 0 (fr fLNAK []), .rxSubmit 0 (fr fSUBMIT []), .rxSubres 0 (fr fSUBRES []), .rxDone 0 (fr fDONE []), .rxDoneack 0 (fr fDONEACK []), .rxResync 0 (fr fRESYNC []),
    .rxEvent 0 (fr fEVENT []), .rxCdloss 0 (fr fCDLOSS []), .rxRreq 0 (fr fRREQ []), .rxRrsp 0 (fr fRRSP []), .bar0Request ⟨0, false, 1, true, [5]⟩,
    .bar0Request ⟨0, true, 2, true, [5]⟩, .chipTempUpdate [20], .illegal 0 0, .pcieLinkUp 0 8, .pcieLinkUp 4 3,
    .alignmentStrobe [], .xipFillDone [], .dtcBlockEnd 0 0 0 [(64, 0)], .cdAgreementTest 0 [] []] : List Instr).all
    (fun c => !wellFormed c) = true := by decide +kernel

theorem test_well_formed_admitted : [Instr.mailboxSnap 0x11F 0, .aliasSet 0x101 0x0030 0, .pairOpen 255 0x20 0,
    .sspRead (ssp 1 0 1), .sspRead ⟨[], false, none, none, 0⟩, .wtApprove 0x100 255 1, .bar0Request ⟨0, true, 1, true, [5]⟩, .pcieLinkUp 4 8].all wellFormed =
    true := by decide +kernel

/-! ## Celil words, written bit by bit from R217 -/

/-- The first example of the section "Celil assembler": `hop g5, g10, t1`. -/
theorem test_word_hop : celilDecode 0 0b10001100101010100000000100000000 0 = some (.cHop 0 5 10 1) := by decide +kernel

/-- Its second: `bne g6, g0, loop` with off16 = -5. -/
theorem test_word_bne : celilDecode 0 0b00100100110000001111111111111011 0 = some (.cBne 0 6 0 0xFFFB) := by decide +kernel

/-- Its third: `ldi g8, 0x0AC08002` in two words. -/
theorem test_word_ldi : celilDecode 0 0b11111100000001000000000000000000 0x0AC08002 = some (.cLdi 0 8 0x0AC08002) := by decide +kernel

/-- R218: the word of zeros is ADD g0, g0, g0, and the word of ones is ILLEGAL. -/
theorem test_word_zero : celilDecode 7 0 0 = some (.cAdd 7 0 0 0) ∧ celilDecode 7 0xFFFFFFFF 0xFFFFFFFF = none := by decide +kernel

/-- Formats I, J, M, T and S: ADDI g1, g2, -1; JAL g31, -1; LDS.HU g10, 0(g9); TADD t1, t1, g8; NACK 63; ACK 63. -/
theorem test_words_of_formats :
    celilDecode 0 0b00000100001000101111111111111111 0 = some (.cAddi 0 1 2 0xFFFF) ∧
    celilDecode 0 0b00111011111111111111111111111111 0 = some (.cJal 0 31 0x1FFFFF) ∧
    celilDecode 0 0b01000001010010010110000000000000 0 = some (.cLds 0 1 true 10 9 0) ∧
    celilDecode 0 0b01110100000010000010010000000000 0 = some (.cTadd 0 1 1 8) ∧
    celilDecode 0 0b01101100000000000000000000111111 0 = some (.cNack 0 (.imm 63)) ∧
    celilDecode 0 0b01101000000000000000000000111111 0 = some (.cAck 0 (.imm 63)) := by decide +kernel

/-! ## The manual's examples -/

/-- The example of R395's section: 0x0114_A030 is the CLEAR alias of `PORT_STAT` of port 82. -/
theorem test_alias_address : regOf (baseOf 0x0114A030) = some ⟨.PORT_STAT, 82, 0⟩ ∧ (0x0114A030 - baseOf 0x0114A030) / 0x1000 = 2 := by
  decide +kernel

/-- The example of R40: 122.88 MHz and 10.24 MHz are accepted, 100,000,001 Hz is not. -/
theorem test_reference_frequencies :
    freqAccepted 122880000 = true ∧ freqAccepted 10240000 = true ∧ freqAccepted 100000001 = false := by decide +kernel

/-- R266: the check word of "123456789". -/
theorem test_check_word : crc32c [0x31, 0x32, 0x33, 0x34, 0x35, 0x36, 0x37, 0x38, 0x39] = 0xE3069283 := by decide +kernel

/-- The example of R333's section: a single-lane frame of 64 words is 2,104 edges long. -/
theorem test_stream_length : (ssp 3 4161 64).length = 2104 := by decide +kernel

/-- The example of R347's section: with `SM_XIP` = 0x0046_A759 a quad read of a line takes 150 cycles. -/
theorem test_quad_fill : ((up.setReg RegId.SM_XIP.at 0x0046A759).fillFrame 0).cycles = 150 := by decide +kernel

/-- The example of R112's section: context 300's line stands at 58,982.65 cycles at Ts. -/
theorem test_line_at_switch :
    let w : DivWord := ⟨0, 2, 2, 3, 4, 0, 76, 125, 4, false⟩
    let p := linePhase ⟨10000000, 0, 0x40000000⟩ w 10012800 0
    p.1 * 100 = 5898265 * (p.2 : Int) := by decide +kernel

/-- The example of R80's section: a half at 12.8 GHz drives a port at D = 1 below a ceiling of 12.81 GHz; a retune of +500 ppm passes,
+800 ppm is refused with CEIL, +1,200 ppm with STEPLIM. -/
theorem test_ceiling :
    let s := (((cored.put PORT_CEIL.CEIL_KHZ 12810000 1008).put PORT_STAT.ACT_SRC 7 1008).put PORT_ACT.ACT_DIV 2 1008).setPort 1008
      { en := true }
    let w : DivWord := { word with mode := 2, order := 1 }
    checkWord s 63 0 { w with num := 1, den := 500 } true s.divInForce = none ∧
      checkWord s 63 0 { w with num := 2, den := 625 } true s.divInForce = some 8 ∧
      checkWord s 63 0 { w with num := 3, den := 625 } true s.divInForce = some 7 := by decide +kernel

/-- `MEN` and the records after a step. -/
def menAfter (r : Host.Outcome State Fault Refusal) : Option (Nat × List LogRec) :=
  match r with
  | .next t => some (t.get PORT_MEN_A.MEN, t.tansyQ)
  | _ => none

/-- The example of R315's section: PCI Express has written 0x0F to `PORT_MEN_A`; 0xFFFF_FFF1 does not complete the pair: `MEN` stays,
and the record has kind 0x06, address 0x104, old 0x0F and aux 2. -/
theorem test_pair_mismatch :
    menAfter (execPairedWrite 0x100 0x100 0x0E
      ((up.put PORT_MEN_A.MEN 0).setOrg 0x100 { pair := some (0x100, 0x0F, 63) })) =
    some (0, [⟨6400000000, 0x100, 6, 0x104, 0x0F, 0xFFFFFFF1, 2⟩]) := by decide +kernel

/-! ## Every statement's hypotheses can be met -/

theorem witness_EnginesHoldNothingInAColdReset :
  (∃ (s t : State), (s.coldHeld = true → ∀ e, (s.eng e).held = none) ∧ step s = .next t ∧ t.coldHeld = true) :=
  ⟨{ State.reset with porst := true }, { State.reset with porst := true }, fun _ _ => rfl, rfl, rfl⟩

theorem witness_StepsKeepTheCanonicalForm :
  (∃ (s t : State), s.Canonical ∧ step s = .next t) :=
  ⟨up, tick up, .mk (by decide +kernel) (by decide +kernel) (by decide +kernel) (by decide +kernel), rfl⟩

theorem witness_CelilWordsAndInstructionsAgree :
  (∃ (i : Instr) (w : Word), celilWords i = some [w] ∧ (∀ e d b q, i ≠ .cPut e d b q true)) ∧
  (∃ (i : Instr) (w w1 : Word), celilWords i = some [w, w1]) ∧
  (∃ (e : EngineIx) (w w1 : Word) (i : Instr), celilDecode e w w1 = some i) :=
  ⟨⟨.cHop 255 31 30 7, 0x8FFE0700, by decide +kernel, nofun⟩,
    ⟨.cLdi 255 31 0xFFFFFFFF, 0xFC0F8000, 0xFFFFFFFF, by decide +kernel⟩,
    ⟨255, 0x8FFE0700, 0, .cHop 255 31 30 7, by decide +kernel⟩⟩

theorem witness_StepRunsTheFrontCommand :
  (∃ (c : Instr), ∃ (rest : List Instr), ∃ (s : State), s.pending = c :: rest) :=
  ⟨.revertTimer, [.keepalive 255], { up with pending := [.revertTimer, .keepalive 255] }, by decide +kernel⟩

theorem witness_AnEmptyQueueLetsATickPass :
  (∃ (s : State), s.pending = [] ∧ s.coldHeld = true) ∧
  (∃ (s : State), (s.pending = [] ∧ s.coldHeld = false ∧ chansQuiet none s ∧ linksQuiet none s ∧ replaysQuiet s ∧ pinsQuiet s ∧
    banksQuiet none s) ∧ enginesQuiet none s) ∧
  (∃ (e : EngineIx), ∃ (due : Nat), ∃ (s : State), (s.pending = [] ∧ s.coldHeld = false ∧ chansQuiet none s ∧ linksQuiet none s ∧
    replaysQuiet s ∧ pinsQuiet s ∧ banksQuiet none s ∧ (s.eng e).reinitAt = some due ∧ due ≤ s.clock + 1) ∧ enginesQuiet (some
    e) s) ∧
  (∃ (l : LinkIx), ∃ (s : State), (s.pending = [] ∧ s.coldHeld = false ∧ chansQuiet none s ∧ linksQuiet (some l.val) s ∧
    replaysQuiet s ∧ pinsQuiet s ∧ banksQuiet none s ∧ s.linkState l = lsDown ∧ s.role l ≠ 0 ∧ s.chipLost (linkChip l) = false)
    ∧ enginesQuiet none s) ∧
  (∃ (b : Nat), ∃ (s : State), (s.pending = [] ∧ s.coldHeld = false ∧ chansQuiet none s ∧ linksQuiet none s ∧ replaysQuiet s ∧
    pinsQuiet s ∧ banksQuiet (some b) s ∧ b < 16 ∧ s.bankFails b = true ∧ s.cdDown = false) ∧ enginesQuiet none s) ∧
  (∃ (h : HeldPins), ∃ (s : State), (s.pending = [] ∧ s.coldHeld = false ∧ chansQuiet none s ∧ linksQuiet none s ∧ replaysQuiet s
    ∧ s.sm.rising = none ∧ s.sm.held = [h] ∧ h.frame = false ∧ h.fill = false ∧ h.due ≤ s.clock + 1 ∧ banksQuiet none s) ∧
    enginesQuiet none s) ∧
  (∃ (n : Fin 4), ∃ (due : Nat), ∃ (s : State), (s.pending = [] ∧ s.coldHeld = false ∧ chansQuiet none s ∧ linksQuiet none s ∧
    replaysQuiet s ∧ s.sm.rising = some (n.val, due) ∧ s.sm.held = [] ∧ due ≤ s.clock + 1 ∧ banksQuiet none s) ∧ enginesQuiet
    none s) :=
  ⟨⟨{ up with porst := true }, by decide +kernel⟩,
  ⟨up, by unfold chansQuiet linksQuiet pinsQuiet replaysQuiet banksQuiet; decide +kernel, enginesQuiet_of (by decide +kernel)⟩,
  ⟨255, 6400000001, (let s := up.setEng 255 { (up.eng 255) with reinitAt := some 6400000001 }; s),
    by unfold chansQuiet linksQuiet pinsQuiet replaysQuiet banksQuiet; decide +kernel, enginesQuiet_of (by decide +kernel)⟩,
  ⟨15, linked lsDown 2, by unfold chansQuiet linksQuiet pinsQuiet replaysQuiet banksQuiet; decide +kernel, enginesQuiet_of
    (by decide +kernel)⟩,
  ⟨15, { up with ecc := { up.ecc with rows := (List.range 4).map fun k => (15, k, 6400000000 - k) } },
    by unfold chansQuiet linksQuiet pinsQuiet replaysQuiet banksQuiet; decide +kernel, enginesQuiet_of (by decide +kernel)⟩,
  ⟨⟨9, false, false, 6400000001⟩, { up with sm := { held := [⟨9, false, false, 6400000001⟩] } },
    by unfold chansQuiet linksQuiet replaysQuiet banksQuiet; decide +kernel, enginesQuiet_of (by decide +kernel)⟩,
  ⟨3, 6400000001, { up with sm := { low := some 3, rising := some (3, 6400000001) } },
    by unfold chansQuiet linksQuiet replaysQuiet banksQuiet; decide +kernel, enginesQuiet_of (by decide +kernel)⟩⟩

theorem witness_NothingActsDuringAColdReset :
  (∃ (c : Instr), ∃ (s : State), s.coldHeld = true ∧ c ∉ [Instr.coldReset, .brownOut, .resetRelease, .brownOutEnd]) :=
  ⟨.keepalive 255, { up with porst := true }, by decide +kernel⟩


theorem witness_IntegerInstructionsComplete :
  (∃ (i : Instr), ∃ (s : State), ∃ (e : EngineIx), ∃ (d : GReg), ∃ (v : Int), ∃ (n : Nat), ∃ (ws : List Word), integerValue s i =
    some (e, d, v, n) ∧ celilWords i = some ws ∧ s.fetches e ws = true) :=
  ⟨.cLdi 255 31 0xFFFFFFFF, runs [0xFC0F8000, 0xFFFFFFFF], 255, 31, -1, 2, [0xFC0F8000, 0xFFFFFFFF], by decide +kernel⟩

theorem witness_BranchesAndJumpsComplete :
  (∃ (i : Instr), ∃ (s : State), ∃ (e : EngineIx), ∃ (taken : Bool), ∃ (x : Int), ∃ (link : Option GReg), ∃ (n : Nat), ∃ (ws :
    List Word), jumpOf s i = some (e, taken, x, link, n) ∧ celilWords i = some ws ∧ s.fetches e ws = true ∧ ((taken = true →
    inCode (x % 2 ^ 64)))) :=
  ⟨.cJalr 255 31 31 0x7FFF, runs [encI 0x0F 31 31 0x7FFF] [(31, 0xFFFFFFFFFFFF8005)], 255, true, 0x10000000000000004, some 31, 1,
    [encI 0x0F 31 31 0x7FFF], by unfold inCode; decide +kernel⟩

theorem witness_ScratchAccessesComplete :
  (∃ (e : EngineIx), ∃ (w : Fin 4), ∃ (d : GReg), ∃ (a : GReg), ∃ (off : BitVec 13), ∃ (s : State), ∃ (x : Nat), ∃ (u : Bool), (x
    : Int) = ((s.gr e a).toNat + off.toInt) % 2 ^ 64 ∧ x % 2 ^ w.val = 0 ∧ x + 2 ^ w.val ≤ 0x1000 ∧ s.fetches e [encM 0x10 d a w
    u off] = true ∧ s.scratchBad e x (2 ^ w.val) = false) ∧
  (∃ (e : EngineIx), ∃ (w : Fin 4), ∃ (d : GReg), ∃ (a : GReg), ∃ (off : BitVec 13), ∃ (s : State), ∃ (x : Nat), (x : Int) =
    ((s.gr e a).toNat + off.toInt) % 2 ^ 64 ∧ x % 2 ^ w.val = 0 ∧ x + 2 ^ w.val ≤ 0x1000 ∧ s.fetches e [encM 0x11 d a w false
    off] = true) :=
  ⟨⟨255, 3, 31, 31, 0x1FF8, runs [encM 0x10 31 31 3 true 0x1FF8] [(31, 0x1000)], 0xFF8, true, by decide +kernel⟩,
  ⟨255, 0, 31, 31, 0xFFF, runs [encM 0x11 31 31 0 false 0xFFF], 0xFFF, by decide +kernel⟩⟩

theorem witness_SharedAccessesComplete :
  (∃ (e : EngineIx), ∃ (w : Fin 4), ∃ (d : GReg), ∃ (a : GReg), ∃ (off : BitVec 13), ∃ (s : State), ∃ (x : Nat), ∃ (u : Bool), (x
    : Int) = ((s.gr e a).toNat + off.toInt) % 2 ^ 64 ∧ x % 2 ^ w.val = 0 ∧ s.fetches e [encM 0x12 d a w u off] = true ∧
    ((0x01400000 ≤ x ∧ x < 0x01A00000 ∨ 0x01A14000 ≤ x ∧ x < 0x01D00000)) ∧ s.bankLost (bankOf x) = false ∧ s.anyBad x (2 ^
    w.val) = false) ∧
  (∃ (e : EngineIx), ∃ (w : Fin 4), ∃ (d : GReg), ∃ (a : GReg), ∃ (off : BitVec 13), ∃ (s : State), ∃ (x : Nat), ∃ (u : Bool), ∃
    (line : List Byte), (x : Int) = ((s.gr e a).toNat + off.toInt) % 2 ^ 64 ∧ x % 2 ^ w.val = 0 ∧ s.fetches e [encM 0x12 d a w u
    off] = true ∧ 0x04000000 ≤ x ∧ x < 0x08000000 ∧ s.xipOn (x - 0x04000000) = true ∧ s.xipLine e (x - 0x04000000) true = some
    line ∧ line.length = 64) ∧
  (∃ (e : EngineIx), ∃ (w : Fin 4), ∃ (d : GReg), ∃ (a : GReg), ∃ (off : BitVec 13), ∃ (s : State), ∃ (x : Nat), (x : Int) =
    ((s.gr e a).toNat + off.toInt) % 2 ^ 64 ∧ x % 2 ^ w.val = 0 ∧ s.fetches e [encM 0x13 d a w false off] = true ∧ 0x01400000 ≤
    x ∧ x < 0x01800000 ∧ s.bankLost (bankOf x) = false) :=
  ⟨⟨255, 3, 31, 31, 0, runs [encM 0x12 31 31 3 false 0] [(31, 0x019FFFF8)], 0x019FFFF8, false, by decide +kernel⟩,
  ⟨255, 3, 31, 31, 0,
    (let s := runs [encM 0x12 31 31 3 false 0] [(31, 0x04FFFFF8)]; { (s.put SM_XIP.EN 1).put XIP_CACHE.EN 1 with sm := { s.sm with cfg := 0x100D }, xip := { lines := [(0xFFFFC0, List.replicate 64 0xA5)] } }),
    0x04FFFFF8, false, List.replicate 64 0xA5, by decide +kernel⟩,
  ⟨255, 2, 31, 31, 0, runs [encM 0x13 31 31 2 false 0] [(31, 0x017FFFFC)], 0x017FFFFC, by decide +kernel⟩⟩

theorem witness_CelilRegisterAccessesComplete :
  (∃ (e : EngineIx), ∃ (d : GReg), ∃ (a : GReg), ∃ (imm : BitVec 16), ∃ (s : State), ∃ (x : Nat), ∃ (r : RegAt), (x : Int) =
    ((s.gr e a).toNat + imm.toInt) % 2 ^ 64 ∧ regOf x = some r ∧ s.fetches e [encI 0x15 d a imm.toNat] = true ∧ s.serves e x
    false = true) ∧
  (∃ (e : EngineIx), ∃ (d : GReg), ∃ (a : GReg), ∃ (imm : BitVec 16), ∃ (s : State), ∃ (x : Nat), ∃ (r : RegAt), (x : Int) =
    ((s.gr e a).toNat + imm.toInt) % 2 ^ 64 ∧ regOf x = some r ∧ s.fetches e [encI 0x16 d a imm.toNat] = true ∧ s.serves e x
    true = true ∧ hooked r.id = false ∧ s.clean r x ((s.gr e d).setWidth 32) = true ∧ x ≠ RegId.ENG_PC.at e) :=
  ⟨⟨255, 31, 31, 0, runs [encI 0x15 31 31 0] [(31, 0x80000)], 0x80000, ⟨.REF_CFG, 0, 0⟩, by decide +kernel⟩,
  ⟨255, 31, 30, 0, runs [encI 0x16 31 30 0] [(30, RegId.QD_ARG.at 32766)], RegId.QD_ARG.at 32766, ⟨.QD_ARG, 32766, 0⟩,
    by decide +kernel⟩⟩

theorem witness_WideReadsComplete :
  (∃ (e : EngineIx), ∃ (a : GReg), ∃ (s : State), ∃ (x : Nat), ∃ (w : WideVal), ∃ (c : GReg), x = (s.gr e a).toNat ∧ s.wideOf x =
    some w ∧ s.mayAccess e x false = true ∧ s.snapLost x = false ∧ s.fetches e [encWrd a (.pair c)] = true ∧ c.val % 2 = 0 ∧
    w.width ≤ 128) ∧
  (∃ (e : EngineIx), ∃ (a : GReg), ∃ (s : State), ∃ (x : Nat), ∃ (w : WideVal), ∃ (k : TReg), x = (s.gr e a).toNat ∧ s.wideOf x =
    some w ∧ s.mayAccess e x false = true ∧ s.snapLost x = false ∧ s.fetches e [encWrd a (.time k)] = true ∧ w.width = 80) :=
  ⟨⟨255, 31, runs [encWrd 31 (.pair 30)] [(31, 0x844)], 0x844, ⟨64, none, 0⟩, 30, by decide +kernel⟩,
  ⟨255, 31, runs [encWrd 31 (.time 7)] [(31, 0x8013C)], 0x8013C, ⟨80, some 7, 6400000000 * 65536⟩, 7, by decide +kernel⟩⟩

theorem witness_TimeInstructionsComplete :
  (∃ (i : Instr), ∃ (s : State), ∃ (e : EngineIx), ∃ (td : TReg), ∃ (v : Nat), ∃ (ws : List Word), timeValue s i = some (e, td, v)
    ∧ celilWords i = some ws ∧ s.fetches e ws = true) ∧
  (∃ (e : EngineIx), ∃ (d : GReg), ∃ (ta : TReg), ∃ (tb : TReg), ∃ (s : State), s.fetches e [encT 0x1D d 0 0 ta tb 2] = true) ∧
  (∃ (e : EngineIx), ∃ (d : GReg), ∃ (b : GReg), ∃ (ta : TReg), ∃ (s : State), s.fetches e [encT 0x1D d b 0 ta 0 3] = true) :=
  ⟨⟨.cTadd 255 7 6 31, runs [encT 0x1D 0 31 7 6 0 0] [(31, 0xFFFFFFFFFFFFFFFF)] [(6, 0x10001)], 255, 7, 1, [encT 0x1D 0 31 7 6 0
    0], by decide +kernel⟩,
  ⟨255, 31, 6, 7, runs [encT 0x1D 31 0 0 6 7 2] [] [(6, 0xFFFFFFFFFFFFFFFFFFFF)], by decide +kernel⟩,
  ⟨255, 31, 31, 7, runs [encT 0x1D 31 31 0 7 0 3] [] [(7, 0x1FFFF)], by decide +kernel⟩⟩

theorem witness_WaitsComplete :
  (∃ (e : EngineIx), ∃ (ta : TReg), ∃ (s : State), s.fetches e [encT 0x1E 0 0 0 ta 0 0] = true ∧ tickOf (s.tr e ta) ≤ s.mcount) ∧
  (∃ (e : EngineIx), ∃ (ta : TReg), ∃ (s : State), s.fetches e [encT 0x1E 0 0 0 ta 0 0] = true ∧ s.mcount < tickOf (s.tr e ta)) ∧
  (∃ (e : EngineIx), ∃ (tick : Nat), ∃ (s : State), (s.eng e).wait = some (.twait tick) ∧ s.cdDown = false ∧ tick ≤ s.mcount) ∧
  (∃ (e : EngineIx), ∃ (d : GReg), ∃ (a : GReg), ∃ (s : State), s.fetches e [encA 0x20 a 0 d 0 0] = true ∧ (s.gr e a).toNat ≤ 383) ∧
  (∃ (e : EngineIx), ∃ (d : GReg), ∃ (a : GReg), ∃ (b : GReg), ∃ (k : TReg), ∃ (s : State), s.fetches e [encA 0x1F a b d k 0] =
    true ∧ (s.gr e a).toNat ≤ 383 ∧ s.raiseCount (s.gr e a).toNat ≠ (s.gr e b).toNat % 2 ^ 32) ∧
  (∃ (e : EngineIx), ∃ (d : GReg), ∃ (a : GReg), ∃ (b : GReg), ∃ (k : TReg), ∃ (s : State), s.fetches e [encA 0x1F a b d k 0] =
    true ∧ (s.gr e a).toNat ≤ 383 ∧ s.raiseCount (s.gr e a).toNat = (s.gr e b).toNat % 2 ^ 32 ∧ tickOf (s.tr e k) ≠ 0 ∧ tickOf
    (s.tr e k) ≤ s.mcount) ∧
  (∃ (e : EngineIx), ∃ (d : GReg), ∃ (a : GReg), ∃ (b : GReg), ∃ (k : TReg), ∃ (s : State), s.fetches e [encA 0x1F a b d k 0] =
    true ∧ (s.gr e a).toNat ≤ 383 ∧ s.raiseCount (s.gr e a).toNat = (s.gr e b).toNat % 2 ^ 32 ∧ ((tickOf (s.tr e k) = 0 ∨
    s.mcount < tickOf (s.tr e k)))) ∧
  (∃ (e : EngineIx), ∃ (d : Nat), ∃ (src : Nat), ∃ (cnt : Nat), ∃ (dl : Nat), ∃ (s : State), (s.eng e).wait = some (.waite d src
    cnt dl) ∧ s.cdDown = false ∧ s.raiseCount src = cnt ∧ dl ≠ 0 ∧ dl ≤ s.mcount) ∧
  (∃ (e : EngineIx), ∃ (d : Nat), ∃ (src : Nat), ∃ (cnt : Nat), ∃ (dl : Nat), ∃ (s : State), (s.eng e).wait = some (.waite d src
    cnt dl) ∧ s.cdDown = false ∧ s.raiseCount src ≠ cnt) :=
  ⟨⟨255, 7, runs [encT 0x1E 0 0 0 7 0 0] [] [(7, 6400000000 * 65536 + 65535)], by decide +kernel⟩,
  ⟨255, 7, runs [encT 0x1E 0 0 0 7 0 0] [] [(7, 6400000001 * 65536)], by decide +kernel⟩,
  ⟨255, 6400000000, waits esWait (.twait 6400000000) (runs [encT 0x1E 0 0 0 7 0 0]), by decide +kernel⟩,
  ⟨255, 31, 30, runs [encA 0x20 30 0 31 0 0] [(30, 383)], by decide +kernel⟩,
  ⟨255, 31, 30, 29, 0, runs [encA 0x1F 30 29 31 0 0] [(29, 0x1FFFFFFFF), (30, 383)], by decide +kernel⟩,
  ⟨255, 31, 30, 29, 7, runs [encA 0x1F 30 29 31 7 0] [(29, 0x100000000), (30, 383)] [(7, 0x10000)], by decide +kernel⟩,
  ⟨255, 31, 30, 29, 7, runs [encA 0x1F 30 29 31 7 0] [(29, 0x100000000), (30, 383)] [(7, 6400000001 * 65536)], by decide +kernel⟩,
  ⟨255, 31, 383, 0, 6400000000, waits esWait (.waite 31 383 0 6400000000) (runs []), by decide +kernel⟩,
  ⟨255, 31, 383, 0xFFFFFFFF, 0, waits esWait (.waite 31 383 0xFFFFFFFF 0) (runs []), by decide +kernel⟩⟩

theorem witness_TakesComplete :
  (∃ (e : EngineIx), ∃ (d : GReg), ∃ (b : GReg), ∃ (s : State), ∃ (i : Item), s.fetches e [encA 0x18 0 b d 0 0] = true ∧
    s.heldItem e = some i ∧ (s.gr e b).toNat % 16 = 0 ∧ (s.gr e b).toNat + i.size ≤ 0x1000) ∧
  (∃ (e : EngineIx), ∃ (d : GReg), ∃ (b : GReg), ∃ (q : GReg), ∃ (s : State), ∃ (k : Nat), ∃ (i : Item), s.fetches e [encA 0x18 q
    b d 0 1] = true ∧ k = (s.gr e q).toNat ∧ k ≤ 32767 ∧ (s.gr e b).toNat % 16 = 0 ∧ (s.gr e b).toNat + s.qItemSize k ≤ 0x1000 ∧
    s.isSet QD_CTRL.EN k = true ∧ s.isSet QD_CTRL.HOSTQ k = true ∧ (s.get QD_CTRL.SUBMIT k).testBit 2 = true ∧ s.headItem k =
    some i ∧ s.item k i.seq = some i ∧ i.out = 0 ∧ i.recs = [] ∧ s.verdictDue k i.seq = false ∧ i.mseq = none ∧ s.isSet
    QD_CTRL.CQ_EN k = false) ∧
  (∃ (e : EngineIx), ∃ (d : GReg), ∃ (b : GReg), ∃ (q : GReg), ∃ (s : State), ∃ (k : Nat), s.fetches e [encA 0x18 q b d 0 1] =
    true ∧ k = (s.gr e q).toNat ∧ k ≤ 32767 ∧ (s.gr e b).toNat % 16 = 0 ∧ (s.gr e b).toNat + s.qItemSize k ≤ 0x1000 ∧ s.isSet
    QD_CTRL.EN k = true ∧ s.isSet QD_CTRL.HOSTQ k = true ∧ (s.get QD_CTRL.SUBMIT k).testBit 2 = true ∧ s.headItem k = none) :=
  ⟨⟨255, 31, 30, runs [encA 0x18 0 30 31 0 0] [(30, 0xFF0)], it, by decide +kernel⟩,
  ⟨255, 31, 30, 29, runs [encA 0x18 29 30 31 0 1] [(29, 32766), (30, 0xFF0)] [] (hostQ [{ seq := 7 }]), 32766, { seq := 7 },
    by decide +kernel⟩,
  ⟨255, 31, 30, 29, runs [encA 0x18 29 30 31 0 1] [(29, 32766), (30, 0xFF0)] [] hostQ, 32766, by decide +kernel⟩⟩

theorem witness_PutsComplete :
  (∃ (e : EngineIx), ∃ (d : GReg), ∃ (b : GReg), ∃ (q : GReg), ∃ (s : State), ∃ (k : Nat), ∃ (off : Nat), ∃ (hq : Nat), ∃ (hn :
    Nat), ∃ (i : Item), k = (s.gr e q).toNat ∧ off = (s.gr e b).toNat ∧ k ≤ 32767 ∧ off % 16 = 0 ∧ off + s.qItemSize k ≤ 0x1000
    ∧ s.get QD_CTRL.ITEM_SZ k ≠ 3 ∧ s.scratchBad e off (s.qItemSize k) = false ∧ accepts s k 2 (s.qItemSize k) ∧ (s.eng e).held
    = some (hq, hn) ∧ s.item hq hn = some i ∧ i.puts ≤ (s.eng e).puts ∧ (s.eng e).puts + 1 < 4096 ∧ s.fetches e [encA 0x19 q b d
    0 0] = true) ∧
  (∃ (e : EngineIx), ∃ (d : GReg), ∃ (b : GReg), ∃ (q : GReg), ∃ (s : State), ∃ (k : Nat), ∃ (off : Nat), ∃ (hq : Nat), ∃ (hn :
    Nat), ∃ (i : Item), k = (s.gr e q).toNat ∧ off = (s.gr e b).toNat ∧ k ≤ 32767 ∧ off % 16 = 0 ∧ off + s.qItemSize k ≤ 0x1000
    ∧ s.get QD_CTRL.ITEM_SZ k ≠ 3 ∧ s.scratchBad e off (s.qItemSize k) = false ∧ accepts s k 2 (s.qItemSize k) ∧ (s.eng e).held
    = some (hq, hn) ∧ s.item hq hn = some i ∧ i.puts ≤ (s.eng e).puts ∧ (s.eng e).puts + 1 < 4096 ∧ (s.eng e).wait = some (.put
    (.cPut e d b q false)) ∧ s.cdDown = false ∧ s.engState e = esStall) ∧
  (∃ (e : EngineIx), ∃ (d : GReg), ∃ (b : GReg), ∃ (q : GReg), ∃ (s : State), ∃ (k : Nat), ∃ (off : Nat), ∃ (hq : Nat), ∃ (hn :
    Nat), ∃ (i : Item), k = (s.gr e q).toNat ∧ off = (s.gr e b).toNat ∧ k ≤ 32767 ∧ off % 16 = 0 ∧ off + s.qItemSize k ≤ 0x1000
    ∧ s.get QD_CTRL.ITEM_SZ k ≠ 3 ∧ s.scratchBad e off (s.qItemSize k) = false ∧ accepts s k 2 (s.qItemSize k) ∧ (s.eng e).held
    = some (hq, hn) ∧ s.item hq hn = some i ∧ i.puts ≤ (s.eng e).puts ∧ (s.eng e).puts + 1 < 4096 ∧ s.fetches e [encA 0x19 q b d
    0 0] = true) :=
  ⟨⟨255, 31, 30, 29, runs [encA 0x19 29 30 31 0 0] [(29, 32766), (30, 0xFF0)] [] (hostQ [{ seq := 7 }]), 32766, 0xFF0, 5, 1, it,
    by unfold accepts; decide +kernel⟩,
  ⟨255, 31, 30, 29, waits esStall (.put (.cPut 255 31 30 29 false)) (runs [encA 0x19 29 30 31 0 0] [(29, 32766), (30, 0xFF0)] []
    (hostQ [{ seq := 7 }])), 32766, 0xFF0, 5, 1, it, by unfold accepts; decide +kernel⟩,
  ⟨255, 31, 30, 29, runs [encA 0x19 29 30 31 0 0] [(29, 32766), (30, 0xFF0)] [] (hostQ [{ seq := 7 }]), 32766, 0xFF0, 5, 1, it,
    by unfold accepts; decide +kernel⟩⟩

theorem witness_CompletionStepsComplete :
  (∃ (e : EngineIx), ∃ (s : State), ∃ (q : Nat), ∃ (n : Nat), ∃ (i : Item), ∃ (c : EndCode), (s.eng e).held = some (q, n) ∧ s.item
    q n = some i ∧ i.aborted = false ∧ s.fetches e [encEnd 0x1A c] = true) ∧
  (∃ (e : EngineIx), ∃ (s : State), ∃ (q : Nat), ∃ (n : Nat), ∃ (i : Item), ∃ (c : EndCode), (s.eng e).held = some (q, n) ∧ s.item
    q n = some i ∧ i.aborted = false ∧ s.fetches e [encEnd 0x1B c] = true) ∧
  (∃ (e : EngineIx), ∃ (s : State), ∃ (q : Nat), ∃ (n : Nat), ∃ (i : Item), ∃ (a : GReg), (s.eng e).held = some (q, n) ∧ s.item q
    n = some i ∧ i.aborted = false ∧ s.fetches e [encI 0x2B 0 a 0] = true) :=
  ⟨⟨255, (let s := runs [encEnd 0x1A (.reg 31)] [(29, 0xFFFFFFFF), (31, 63)]; s.setEng 255
    { s.eng 255 with nact := 1, staged := [⟨7000000000, 0, 5, 1, 0, false, .mark 0 1⟩] }), 5, 1, it, .reg 31, by decide +kernel⟩,
  ⟨255, (let s := runs [encEnd 0x1B (.imm 63)] [(29, 0xFFFFFFFF), (31, 63)]; s.setEng 255
    { s.eng 255 with nact := 1, staged := [⟨7000000000, 0, 5, 1, 0, false, .mark 0 1⟩] }), 5, 1, it, .imm 63, by decide +kernel⟩,
  ⟨255, (let s := runs [encI 0x2B 0 29 0] [(29, 0xFFFFFFFF), (31, 63)]; s.setEng 255
    { s.eng 255 with nact := 1, staged := [⟨7000000000, 0, 5, 1, 0, false, .mark 0 1⟩] }), 5, 1, it, 29, by decide +kernel⟩⟩

theorem witness_FencesComplete :
  (∃ (e : EngineIx), ∃ (s : State), ∃ (q : Nat), ∃ (n : Nat), ∃ (i : Item), (s.eng e).held = some (q, n) ∧ s.item q n = some i ∧
    i.aborted = false ∧ s.fetches e [encI 0x2A 0 0 0] = true) ∧
  (∃ (e : EngineIx), ∃ (d : GReg), ∃ (s : State), ∃ (q : Nat), ∃ (n : Nat), ∃ (i : Item), (s.eng e).held = some (q, n) ∧ s.item q
    n = some i ∧ i.aborted = false ∧ s.fetches e [encI 0x2A d 0 1] = true ∧ i.out = 0 ∧ s.verdictDue q n = false ∧ (s.eng
    e).staged = []) ∧
  (∃ (e : EngineIx), ∃ (d : GReg), ∃ (s : State), ∃ (q : Nat), ∃ (n : Nat), ∃ (i : Item), (s.eng e).held = some (q, n) ∧ s.item q
    n = some i ∧ i.aborted = false ∧ s.fetches e [encI 0x2A d 0 1] = true ∧ (0 < i.out + (s.eng e).staged.length ∨ s.verdictDue
    q n = true)) ∧
  (∃ (e : EngineIx), ∃ (d : GReg), ∃ (s : State), ∃ (q : Nat), ∃ (n : Nat), ∃ (i : Item), (s.eng e).held = some (q, n) ∧ s.item q
    n = some i ∧ i.aborted = false ∧ (s.eng e).wait = some (.fence d) ∧ s.cdDown = false ∧ i.out = 0 ∧ s.verdictDue q n = false) :=
  ⟨⟨255, (let s := runs [encI 0x2A 0 0 0] [(29, 0xFFFFFFFF), (31, 63)]; s.setEng 255
    { s.eng 255 with nact := 1, staged := [⟨7000000000, 0, 5, 1, 0, false, .mark 0 1⟩] }), 5, 1, it, by decide +kernel⟩,
  ⟨255, 31, runs [encI 0x2A 31 0 1], 5, 1, it, by decide +kernel⟩,
  ⟨255, 31, (let s := runs [encI 0x2A 31 0 1] [(29, 0xFFFFFFFF), (31, 63)]; s.setEng 255
    { s.eng 255 with nact := 1, staged := [⟨7000000000, 0, 5, 1, 0, false, .mark 0 1⟩] }), 5, 1, it, by decide +kernel⟩,
  ⟨255, 31, waits esRun (.fence 31) (runs []), 5, 1, it, by decide +kernel⟩⟩

theorem witness_ContextMovesComplete :
  (∃ (e : EngineIx), ∃ (a : GReg), ∃ (b : GReg), ∃ (s : State), ∃ (n : Nat), ∃ (off : Nat), n = (s.gr e a).toNat ∧ off = (s.gr e
    b).toNat ∧ n ≤ 16383 ∧ off % 16 = 0 ∧ off + 128 ≤ 0x1000 ∧ s.fetches e [encA 0x21 a b 0 0 0] = true ∧ s.ctxInvalid n =
    false) ∧
  (∃ (e : EngineIx), ∃ (a : GReg), ∃ (b : GReg), ∃ (s : State), ∃ (n : Nat), ∃ (off : Nat), n = (s.gr e a).toNat ∧ off = (s.gr e
    b).toNat ∧ n ≤ 16383 ∧ off % 16 = 0 ∧ off + 128 ≤ 0x1000 ∧ s.fetches e [encA 0x22 a b 0 0 0] = true ∧ s.bankLost 0 = false ∧
    s.scratchBad e off 128 = false) :=
  ⟨⟨255, 31, 30, runs [encA 0x21 31 30 0 0 0] [(30, 0xF80), (31, 16383)] [] (withCtx up), 16383, 0xF80, by decide +kernel⟩,
  ⟨255, 31, 30, (let s := runs [encA 0x22 31 30 0 0 0] [(30, 0xF80), (31, 16383)] [] (withCtx up); (s.setEng 255
    { s.eng 255 with scratch := [(0xF80, 0x13), (0xFB0, 7), (0xFFF, 0xFF)] })), 16383, 0xF80, by decide +kernel⟩⟩

theorem witness_TimedActionsComplete :
  (∃ (x : Instr), ∃ (s : State), ∃ (e : EngineIx), ∃ (k : TReg), ∃ (target : Nat), ∃ (top : Nat), ∃ (q : Nat), ∃ (n : Nat), ∃
    (kind : ActKind), ∃ (i : Item), ∃ (ws : List Word), timedAction s x = some (e, k, target, top, kind) ∧ target ≤ top ∧
    celilWords x = some ws ∧ s.fetches e ws = true ∧ (s.eng e).nact < 4096 ∧ s.stagingLoad < 65536 ∧ (s.eng e).held = some (q,
    n) ∧ s.item q n = some i) ∧
  (∃ (s : State), ∃ (e : EngineIx), ∃ (a : GReg), ∃ (b : GReg), ∃ (k : TReg), ∃ (q : Nat), ∃ (n : Nat), ∃ (c : Nat), ∃ (m : Nat),
    ∃ (i : Item), c = (s.gr e a).toNat ∧ m = (s.gr e b).toNat ∧ c ≤ 63 ∧ m ≤ 16383 ∧ s.ctxInvalid m = false ∧ ctxRefused c
    (s.ctxWords m) = false ∧ s.fetches e [encA 0x23 a b 0 k 0] = true ∧ (s.eng e).nact < 4096 ∧ s.stagingLoad < 65536 ∧ (s.eng
    e).held = some (q, n) ∧ s.item q n = some i) :=
  ⟨⟨.cDisarm 255 31 7, (let s := runs [encA 0x28 31 0 0 7 0] [(31, 1279)] [(7, 0xFFFFFFFF)]; s.setEng 255
    { s.eng 255 with nact := 4095 }), 255, 7, 1279, 1279, 5, 1, .disarm 1279, it, [encA 0x28 31 0 0 7 0], by decide +kernel⟩,
  ⟨runs [encA 0x23 31 30 0 7 0] [(30, 16383), (31, 63)] [(7, 0xFFFFFFFF0000)] (withCtx up (hopCtx 0x013)), 255, 31, 30, 7, 5, 1,
    63, 16383, it, by decide +kernel⟩⟩

theorem witness_StalledActionsResume :
  (∃ (x : Instr), ∃ (s : State), ∃ (e : EngineIx), ∃ (q : Nat), ∃ (n : Nat), ∃ (i : Item), ∃ (k : TReg), ∃ (target : Nat), ∃ (top
    : Nat), ∃ (kind : ActKind), (s.eng e).wait = some (.staging x) ∧ s.cdDown = false ∧ s.engState e = esStall ∧ (s.eng e).nact
    < 4096 ∧ s.stagingLoad < 65536 ∧ (s.eng e).held = some (q, n) ∧ s.item q n = some i ∧ timedAction s x = some (e, k, target,
    top, kind) ∧ target ≤ top) ∧
  (∃ (x : Instr), ∃ (s : State), ∃ (e : EngineIx), ∃ (q : Nat), ∃ (n : Nat), ∃ (i : Item), ∃ (a : GReg), ∃ (b : GReg), ∃ (k :
    TReg), ∃ (c : Nat), ∃ (m : Nat), (s.eng e).wait = some (.staging x) ∧ s.cdDown = false ∧ s.engState e = esStall ∧ (s.eng
    e).nact < 4096 ∧ s.stagingLoad < 65536 ∧ (s.eng e).held = some (q, n) ∧ s.item q n = some i ∧ x = .cHop e a b k ∧ c = (s.gr
    e a).toNat ∧ m = (s.gr e b).toNat ∧ c ≤ 63 ∧ m ≤ 16383 ∧ s.ctxInvalid m = false ∧ ctxRefused c (s.ctxWords m) = false) :=
  ⟨⟨.cMark 255 31 30 7, waits esStall (.staging (.cMark 255 31 30 7)) (runs [] [(30, 0xFFFF), (31, 1023)]), 255, 5, 1, it, 7, 1023,
    1023, .mark 1023 0xFFFF, by decide +kernel⟩,
  ⟨.cHop 255 31 30 7, waits esStall (.staging (.cHop 255 31 30 7)) (runs [] [(30, 16383), (31, 63)] [] (withCtx up (hopCtx
    0x013))), 255, 5, 1, it, 31, 30, 7, 63, 16383, by decide +kernel⟩⟩

theorem witness_StatisticsComplete :
  (∃ (e : EngineIx), ∃ (a : GReg), ∃ (s : State), ∃ (k : Nat), ∃ (d : GReg), ∃ (b : GReg), k = (s.gr e a).toNat ∧ k ≤ 1279 ∧
    s.fetches e [encA 0x29 a b d 0 0] = true ∧ s.anyBad (0x01A00000 + 64 * k) 64 = false ∧ (s.gr e b).toNat % 64 = 0 ∧ (s.gr e
    b).toNat + 64 ≤ 0x1000) ∧
  (∃ (e : EngineIx), ∃ (a : GReg), ∃ (s : State), ∃ (k : Nat), ∃ (x : TReg), k = (s.gr e a).toNat ∧ k ≤ 1279 ∧ s.fetches e [encA
    0x29 a 0 0 x 1] = true) :=
  ⟨⟨255, 31, runs [encA 0x29 31 30 29 0 0] [(30, 0xFC0), (31, 1279)], 1279, 29, 30, by decide +kernel⟩,
  ⟨255, 31, (runs [encA 0x29 31 0 0 7 1] [(31, 1279)]).setWide (aLAST_EDGE 1279) 12345, 1279, 7, by decide +kernel⟩⟩

theorem witness_OwnFaultsComplete :
  (∃ (x : Instr), ∃ (s : State), ∃ (e : EngineIx), ∃ (code : Nat), ∃ (ws : List Word), ∃ (q : Nat), ∃ (n : Nat), ∃ (i : Item),
    ownFault x = some (e, code, ws) ∧ s.fetches e ws = true ∧ (s.eng e).held = some (q, n) ∧ s.item q n = some i ∧ i.fcnt < 2) ∧
  (∃ (x : Instr), ∃ (s : State), ∃ (e : EngineIx), ∃ (code : Nat), ∃ (ws : List Word), ∃ (q : Nat), ∃ (n : Nat), ∃ (i : Item),
    ownFault x = some (e, code, ws) ∧ s.fetches e ws = true ∧ (s.eng e).held = some (q, n) ∧ s.item q n = some i ∧ i.fcnt = 2 ∧
    q ≠ quarQ ∧ s.quarRoom = true) ∧
  (∃ (x : Instr), ∃ (s : State), ∃ (e : EngineIx), ∃ (code : Nat), ∃ (ws : List Word), ∃ (q : Nat), ∃ (n : Nat), ∃ (i : Item),
    ownFault x = some (e, code, ws) ∧ s.fetches e ws = true ∧ (s.eng e).held = some (q, n) ∧ s.item q n = some i ∧ i.fcnt = 2 ∧
    s.quarRoom = false) :=
  ⟨⟨.cTrap 255 15, runs [encI 0x2C 0 0 15], 255, 0x4F, [encI 0x2C 0 0 15], 5, 1, it, by decide +kernel⟩,
  ⟨.cTrap 255 15, twice 8 (runs [encI 0x2C 0 0 15]), 255, 0x4F, [encI 0x2C 0 0 15], 5, 1, it2, by decide +kernel⟩,
  ⟨.cTrap 255 15, twice 0 (runs [encI 0x2C 0 0 15]), 255, 0x4F, [encI 0x2C 0 0 15], 5, 1, it2, by decide +kernel⟩⟩

theorem witness_OperandFaultsArePrecise :
  (∃ (x : Instr), ∃ (s : State), ∃ (e : EngineIx), ∃ (code : Nat), ∃ (ws : List Word), ∃ (q : Nat), ∃ (n : Nat), ∃ (i : Item),
    operandFault s x = some (e, code) ∧ celilWords x = some ws ∧ s.fetches e ws = true ∧ (s.eng e).held = some (q, n) ∧ s.item q
    n = some i ∧ i.fcnt < 2) ∧
  (∃ (x : Instr), ∃ (s : State), ∃ (e : EngineIx), ∃ (code : Nat), ∃ (ws : List Word), ∃ (q : Nat), ∃ (n : Nat), ∃ (i : Item),
    operandFault s x = some (e, code) ∧ celilWords x = some ws ∧ s.fetches e ws = true ∧ (s.eng e).held = some (q, n) ∧ s.item q
    n = some i ∧ i.fcnt = 2 ∧ q ≠ quarQ ∧ s.quarRoom = true) ∧
  (∃ (x : Instr), ∃ (s : State), ∃ (e : EngineIx), ∃ (code : Nat), ∃ (ws : List Word), ∃ (q : Nat), ∃ (n : Nat), ∃ (i : Item),
    operandFault s x = some (e, code) ∧ celilWords x = some ws ∧ s.fetches e ws = true ∧ (s.eng e).held = some (q, n) ∧ s.item q
    n = some i ∧ i.fcnt = 2 ∧ s.quarRoom = false) :=
  ⟨⟨.cSts 255 3 1 31 0, runs [encM 0x11 1 31 3 false 0] [(31, 0xFF9)], 255, 4, [encM 0x11 1 31 3 false 0], 5, 1, it,
    by decide +kernel⟩,
  ⟨.cSts 255 3 1 31 0, twice 8 (runs [encM 0x11 1 31 3 false 0] [(31, 0xFF9)]), 255, 4, [encM 0x11 1 31 3 false 0], 5, 1, it2,
    by decide +kernel⟩,
  ⟨.cSts 255 3 1 31 0, twice 0 (runs [encM 0x11 1 31 3 false 0] [(31, 0xFF9)]), 255, 4, [encM 0x11 1 31 3 false 0], 5, 1, it2,
    by decide +kernel⟩⟩

theorem witness_AtomicsComplete :
  (∃ (e : EngineIx), ∃ (d : GReg), ∃ (a : GReg), ∃ (b : GReg), ∃ (s : State), ∃ (x : Nat), ∃ (old : Dword), x = (s.gr e a).toNat ∧
    x % 8 = 0 ∧ 0x01400000 ≤ x ∧ x < 0x01800000 ∧ s.bankLost (bankOf x) = false ∧ s.anyBad x 8 = false ∧ old = BitVec.ofNat 64
    (leNat (s.bytesAt x 8)) ∧ s.fetches e [encR 0x14 d a b 0] = true) ∧
  (∃ (e : EngineIx), ∃ (d : GReg), ∃ (a : GReg), ∃ (b : GReg), ∃ (s : State), ∃ (x : Nat), ∃ (old : Dword), x = (s.gr e a).toNat ∧
    x % 8 = 0 ∧ 0x01400000 ≤ x ∧ x < 0x01800000 ∧ s.bankLost (bankOf x) = false ∧ s.anyBad x 8 = false ∧ old = BitVec.ofNat 64
    (leNat (s.bytesAt x 8)) ∧ s.fetches e [encR 0x14 d a b 1] = true) ∧
  (∃ (e : EngineIx), ∃ (d : GReg), ∃ (a : GReg), ∃ (b : GReg), ∃ (s : State), ∃ (x : Nat), ∃ (old : Dword), x = (s.gr e a).toNat ∧
    x % 8 = 0 ∧ 0x01400000 ≤ x ∧ x < 0x01800000 ∧ s.bankLost (bankOf x) = false ∧ s.anyBad x 8 = false ∧ old = BitVec.ofNat 64
    (leNat (s.bytesAt x 8)) ∧ s.fetches e [encR 0x14 d a b 2] = true ∧ old = s.gr e d) ∧
  (∃ (e : EngineIx), ∃ (d : GReg), ∃ (a : GReg), ∃ (b : GReg), ∃ (s : State), ∃ (x : Nat), ∃ (old : Dword), x = (s.gr e a).toNat ∧
    x % 8 = 0 ∧ 0x01400000 ≤ x ∧ x < 0x01800000 ∧ s.bankLost (bankOf x) = false ∧ s.anyBad x 8 = false ∧ old = BitVec.ofNat 64
    (leNat (s.bytesAt x 8)) ∧ s.fetches e [encR 0x14 d a b 2] = true ∧ old ≠ s.gr e d) ∧
  (∃ (x : Instr), ∃ (e : EngineIx), ∃ (d : GReg), ∃ (a : GReg), ∃ (b : GReg), ∃ (func : Nat), ∃ (q : Nat), ∃ (n : Nat), ∃ (i :
    Item), ∃ (s : State), (func, x) ∈ [(0, Instr.cAadd e d a b), (1, .cAswp e d a b), (2, .cAcas e d a b)] ∧ s.fetches e [encR
    0x14 d a b func] = true ∧ (((s.gr e a).toNat % 8 ≠ 0 ∨ (s.gr e a).toNat < 0x01400000 ∨ 0x01800000 ≤ (s.gr e a).toNat)) ∧
    (s.eng e).held = some (q, n) ∧ s.item q n = some i ∧ i.fcnt < 2) ∧
  (∃ (x : Instr), ∃ (e : EngineIx), ∃ (d : GReg), ∃ (a : GReg), ∃ (b : GReg), ∃ (func : Nat), ∃ (q : Nat), ∃ (n : Nat), ∃ (i :
    Item), ∃ (s : State), (func, x) ∈ [(0, Instr.cAadd e d a b), (1, .cAswp e d a b), (2, .cAcas e d a b)] ∧ s.fetches e [encR
    0x14 d a b func] = true ∧ (((s.gr e a).toNat % 8 ≠ 0 ∨ (s.gr e a).toNat < 0x01400000 ∨ 0x01800000 ≤ (s.gr e a).toNat)) ∧
    (s.eng e).held = some (q, n) ∧ s.item q n = some i ∧ i.fcnt = 2 ∧ q ≠ quarQ ∧ s.quarRoom = true) ∧
  (∃ (x : Instr), ∃ (e : EngineIx), ∃ (d : GReg), ∃ (a : GReg), ∃ (b : GReg), ∃ (func : Nat), ∃ (q : Nat), ∃ (n : Nat), ∃ (i :
    Item), ∃ (s : State), (func, x) ∈ [(0, Instr.cAadd e d a b), (1, .cAswp e d a b), (2, .cAcas e d a b)] ∧ s.fetches e [encR
    0x14 d a b func] = true ∧ (((s.gr e a).toNat % 8 ≠ 0 ∨ (s.gr e a).toNat < 0x01400000 ∨ 0x01800000 ≤ (s.gr e a).toNat)) ∧
    (s.eng e).held = some (q, n) ∧ s.item q n = some i ∧ i.fcnt = 2 ∧ s.quarRoom = false) :=
  ⟨⟨255, 31, 30, 29, runs [encR 0x14 31 30 29 0] [(29, 0xFFFFFFFFFFFFFFFF), (30, 0x017FFFF8)] [] (up.setBytes 0x017FFFF8 (leBytes 8
    1)), 0x017FFFF8, 1, by decide +kernel⟩,
  ⟨255, 31, 30, 29, runs [encR 0x14 31 30 29 1] [(29, 0xFFFFFFFFFFFFFFFF), (30, 0x017FFFF8)] [] (up.setBytes 0x017FFFF8 (leBytes 8
    7)), 0x017FFFF8, 7, by decide +kernel⟩,
  ⟨255, 31, 30, 29, runs [encR 0x14 31 30 29 2] [(29, 0xFFFFFFFFFFFFFFFF), (30, 0x017FFFF8)] [] (up.setBytes 0x017FFFF8 (leBytes 8
    0)), 0x017FFFF8, 0, by decide +kernel⟩,
  ⟨255, 31, 30, 29, runs [encR 0x14 31 30 29 2] [(29, 0xFFFFFFFFFFFFFFFF), (30, 0x017FFFF8)] [] (up.setBytes 0x017FFFF8 (leBytes 8
    5)), 0x017FFFF8, 5, by decide +kernel⟩,
  ⟨.cAcas 255 31 30 29, 255, 31, 30, 29, 2, 5, 1, it, runs [encR 0x14 31 30 29 2] [(30, 0x01800000)], by decide +kernel⟩,
  ⟨.cAcas 255 31 30 29, 255, 31, 30, 29, 2, 5, 1, it2, twice 8 (runs [encR 0x14 31 30 29 2] [(30, 0x01800000)]),
    by decide +kernel⟩,
  ⟨.cAcas 255 31 30 29, 255, 31, 30, 29, 2, 5, 1, it2, twice 0 (runs [encR 0x14 31 30 29 2] [(30, 0x01800000)]),
    by decide +kernel⟩⟩

theorem witness_RaiseCountsWrapAndSurviveWarmResets :
  (∃ (i : Nat), ∃ (rest : List Nat), ∃ (s : State), s.cdGone = false ∧ s.raising = i :: rest) ∧
  (∃ (s : State), s.porst = false) ∧
  (∃ (s : State), s.brown = false) :=
  ⟨⟨383, [0], { up with raising := [383, 0], raises := [(383, 0xFFFFFFFF)] }, by decide +kernel⟩,
  ⟨up, by decide +kernel⟩,
  ⟨up, by decide +kernel⟩⟩

theorem witness_ActiveReferenceFrequencyIsFixed :
  (∃ (o : Origin), ∃ (r : RefIx), ∃ (v : Word), ∃ (s : State), s.writes o (if r.val = 0 then .REFA_FREQ else .REFB_FREQ) 0 0 v =
    true ∧ s.get REF_STAT.STATE = r.val) :=
  ⟨0x100, 1, 100000000, up.put REF_STAT.STATE 1, by decide +kernel⟩

theorem witness_ReferenceMonitorsComplete :
  (∃ (r : RefIx), ∃ (s : State), s.coldHeld = false ∧ s.isSet (refEn r) = true ∧ s.isSet (refPresent r) = true) ∧
  (∃ (r : RefIx), ∃ (s : State), s.coldHeld = false ∧ s.isSet (refEn r) = true ∧ (s.refIn r).freqOk = true ∧ s.isSet (refPresent
    r) = false) ∧
  (∃ (r : RefIx), ∃ (s : State), s.coldHeld = false ∧ s.isSet (refEn r) = true ∧ (s.refIn r).freqOk = true ∧ s.isSet (refPresent
    r) = true ∧ s.isSet (refQual r) = false ∧ (s.refIn r).goodFrom + qualTime r s ≤ s.clock) ∧
  (∃ (countA : Nat), ∃ (countB : Nat), ∃ (s : State), s.coldHeld = false ∧ (s.tb.freqWindows + 1) * msTk ≤ s.clock ∧ ((countA *
    1000 : Int) - s.get REFA_FREQ.HZ).natAbs * 1000000 ≤ s.get REF_CFG.TOL_PPM * s.get REFA_FREQ.HZ ∧ ((countB * 1000 : Int) -
    s.get REFB_FREQ.HZ).natAbs * 1000000 ≤ s.get REF_CFG.TOL_PPM * s.get REFB_FREQ.HZ) ∧
  (∃ (countA : Nat), ∃ (s : State), s.coldHeld = false ∧ (s.tb.freqWindows + 1) * msTk ≤ s.clock ∧ s.isSet REF_CFG.A_EN = true ∧
    s.isSet REF_STAT.A_PRESENT = true ∧ s.tb.ref0.judgeFrom ≤ s.tb.freqWindows ∧ s.get REF_CFG.TOL_PPM * s.get REFA_FREQ.HZ <
    ((countA * 1000 : Int) - s.get REFA_FREQ.HZ).natAbs * 1000000) ∧
  (∃ (countB : Nat), ∃ (s : State), s.coldHeld = false ∧ (s.tb.freqWindows + 1) * msTk ≤ s.clock ∧ s.isSet REF_CFG.B_EN = true ∧
    s.isSet REF_STAT.B_PRESENT = true ∧ s.tb.ref1.judgeFrom ≤ s.tb.freqWindows ∧ s.get REF_CFG.TOL_PPM * s.get REFB_FREQ.HZ <
    ((countB * 1000 : Int) - s.get REFB_FREQ.HZ).natAbs * 1000000) :=
  ⟨⟨1, refs 0, by decide +kernel⟩,
  ⟨0, (refs 1).put REF_STAT.A_PRESENT 0, by decide +kernel⟩,
  ⟨1, (let s := (refs 2).put REF_STAT.B_QUAL 0; s.setRefIn 1 { goodFrom := 3200000000, requal := true }), by decide +kernel⟩,
  ⟨100010, 99990, (let s := (refs 0); { s with tb := { s.tb with freqWindows := 1999 } }), by decide +kernel⟩,
  ⟨100011, refs 0, by decide +kernel⟩,
  ⟨100011, (refs 0).put REF_CFG.B_EN 1, by decide +kernel⟩⟩

theorem witness_SwitchoversComplete :
  (∃ (s : State), s.coldHeld = false ∧ s.get REF_CFG.MODE = 2 ∧ s.isSet (refQual (s.get REF_CFG.PREF)) = true ∧ s.get
    REF_STAT.STATE = 1 - s.get REF_CFG.PREF ∧ s.tb.sw = none ∧ (s.refIn (s.get REF_CFG.PREF)).qualFrom + s.get REF_CFG.REVERT_S
    * sTk ≤ s.clock) ∧
  (∃ (r : Nat), ∃ (from_ : Nat), ∃ (s : State), s.coldHeld = false ∧ s.tb.sw = some ⟨r, .decided, from_⟩ ∧ from_ + 64 ≤ s.clock) ∧
  (∃ (r : Nat), ∃ (from_ : Nat), ∃ (s : State), s.coldHeld = false ∧ s.tb.sw = some ⟨r, .frozen, from_⟩ ∧ from_ + 3200 ≤ s.clock) ∧
  (∃ (r : Nat), ∃ (from_ : Nat), ∃ (s : State), s.coldHeld = false ∧ s.tb.sw = some ⟨r, .closed, from_⟩ ∧ s.tb.heldSel = none ∧ r
    < 2) ∧
  (∃ (s : State), s.coldHeld = false ∧ s.get REF_STAT.STATE = 2 ∧ s.get HOLD_CFG.MAX_S ≠ 0 ∧ s.tb.holdSince + s.get HOLD_CFG.MAX_S
    * sTk ≤ s.clock) ∧
  (∃ (r : Nat), ∃ (s : State), s.coldHeld = false ∧ s.tb.acquiring = some r ∧ s.get REF_STAT.STATE = 3 ∧ s.tb.heldSel = none ∧ r <
    2) :=
  ⟨⟨(let s := (((refs 0).put REF_CFG.MODE 2).put REF_CFG.PREF 1).put REF_CFG.REVERT_S 2; s), by decide +kernel⟩,
  ⟨1, 6399999936, (let s := refs 0; { s with tb := { s.tb with sw := some ⟨1, .decided, 6399999936⟩ } }), by decide +kernel⟩,
  ⟨1, 6399996800, (let s := refs 0; { s with tb := { s.tb with sw := some ⟨1, .frozen, 6399996800⟩ } }), by decide +kernel⟩,
  ⟨1, 6399996800, (let s := refs 0; { s with tb := { s.tb with sw := some ⟨1, .closed, 6399996800⟩ } }), by decide +kernel⟩,
  ⟨(let s := (refs 2).put HOLD_CFG.MAX_S 1; { s with tb := { s.tb with holdSince := 3200000000 } }), by decide +kernel⟩,
  ⟨1, (let s := refs 3; { s with tb := { s.tb with acquiring := some 1 } }), by decide +kernel⟩⟩

theorem witness_ReplicasComplete :
  (∃ (s : State), s.coldHeld = false ∧ ((∀ n < 8, (s.chip n).running = false))) ∧
  (∃ (l : List (Int × Int)), ∃ (s : State), s.coldHeld = false ∧ s.cdDown = false ∧ l.length = 8 ∧ ((∀ x ∈ l, x.1 = 0)) ∧ ((∀ n <
    8, (s.chip n).reload = false)) ∧ s.get TB_STAT.MASTER = s.lowestLive ∧ (s.chip (s.get TB_STAT.MASTER)).running = true ∧
    s.mcount / 65536 + 1 ≠ s.tb.strobes) ∧
  (∃ (l : List (Int × Int)), ∃ (n : ChipletIx), ∃ (s : State), s.coldHeld = false ∧ s.cdDown = false ∧ l.length = 8 ∧ ((∀ x ∈ l,
    x.1 = 0)) ∧ ((∀ k < 8, k ≠ n.val → (s.chip k).reload = false)) ∧ s.get TB_STAT.MASTER = s.lowestLive ∧ s.lowestLive ≠ n.val
    ∧ (s.chip s.lowestLive).running = true ∧ s.mcount / 65536 + 1 ≠ s.tb.strobes ∧ s.chipOut n = false ∧ (s.chip n).running =
    true ∧ (s.chip n).reload = true) ∧
  (∃ (l : List (Int × Int)), ∃ (s : State), s.coldHeld = false ∧ s.cdDown = true ∧ l.length = 8 ∧ (s.chip (s.get
    TB_STAT.MASTER)).running = true ∧ s.mcount / 65536 + 1 ≠ s.tb.strobes) :=
  ⟨⟨{ up with chips := [] }, by decide +kernel⟩,
  ⟨List.replicate 8 (0, -1),
    { up with chips := [(0, { running := true }), (1, { running := true, tickOff := 1 }), (7, { running := true })] },
    by decide +kernel⟩,
  ⟨List.replicate 8 (0, -1), 7,
    { up with chips := [(0, { running := true }), (7, { running := true, tickOff := 5, reload := true })] }, by decide +kernel⟩,
  ⟨List.replicate 8 (0, -1), { up with chips := (List.range 8).map fun n => (n, { running := true, cdLost := true }) },
    by decide +kernel⟩⟩

theorem witness_EpochsComplete :
  (∃ (o : Origin), ∃ (v : Word), ∃ (s : State), s.writesPair o .EPOCH_CTRL_A 0 (withField v 2 1 1) = true ∧ ((∀ n < 8, s.get
    COMMIT_STAT.LEVEL n = 0)) ∧ s.relockOrFailover = false ∧ v.toNat % 4 ≠ 3) ∧
  (∃ (o : Origin), ∃ (v : Word), ∃ (s : State), s.writesPair o .EPOCH_CTRL_A 0 (withField v 2 1 1) = true ∧ (((∃ n < 8, s.get
    COMMIT_STAT.LEVEL n ≠ 0) ∨ s.relockOrFailover = true ∨ v.toNat % 4 = 3))) ∧
  (∃ (o : Origin), ∃ (v : Word), ∃ (s : State), s.writesPair o .EPOCH_CTRL_A 0 (withField v 2 1 0) = true) ∧
  (∃ (fall : Bool), ∃ (s : State), s.coldHeld = false ∧ s.isSet EPOCH_CTRL_A.FALL = fall ∧ s.isSet EPOCH_STAT.ARMED = true ∧ s.get
    EPOCH_CTRL_A.SRC = 0 ∧ s.tb.take = none ∧ s.relockOrFailover = false ∧ s.tb.places = none) ∧
  (∃ (fall : Bool), ∃ (p : EpochPlaces), ∃ (s : State), s.coldHeld = false ∧ s.isSet EPOCH_CTRL_A.FALL = fall ∧ s.tb.places = some
    p ∧ p.period = 0) ∧
  (∃ (s : State), s.coldHeld = false ∧ s.isSet EPOCH_STAT.ARMED = true ∧ s.tb.take = some .host ∧ s.relockOrFailover = false) ∧
  (∃ (p : EpochPlaces), ∃ (s : State), s.coldHeld = false ∧ s.tb.places = some p ∧ p.period ≠ 0 ∧ (p.base + p.next * p.period +
    s.get EPOCH_TOL.TOL_TK) * 65536 + p.frac < ts80 s.mcount) :=
  ⟨⟨0x100, 2, up, by decide +kernel⟩,
  ⟨0x100, 3, up, by decide +kernel⟩,
  ⟨0x100, 0, up.put EPOCH_STAT.ARMED 1, by decide +kernel⟩,
  ⟨true, (up.put EPOCH_CTRL_A.FALL 1).put EPOCH_STAT.ARMED 1, by decide +kernel⟩,
  ⟨true, ⟨6399999999, 0, 65535, 1, []⟩,
    { up.put EPOCH_CTRL_A.FALL 1 with tb := { places := some ⟨6399999999, 0, 65535, 1, []⟩ } }, by decide +kernel⟩,
  ⟨(let s := (up.put EPOCH_STAT.ARMED 1).put EPOCH_TICK_LO.TICK 5; { s with tb := { s.tb with take := some .host } }),
    by decide +kernel⟩,
  ⟨⟨0, 3200000000, 65535, 1, []⟩, { up with clock := 3200000100000, tb := { places := some ⟨0, 3200000000, 65535, 1, []⟩ } },
    by decide +kernel⟩⟩

theorem witness_SlewsComplete :
  (∃ (o : Origin), ∃ (v : Word), ∃ (s : State), s.writes o .TB_SLEW 0 0 (withField v 31 1 1) = true) ∧
  (∃ (q : Slew), ∃ (s : State), s.coldHeld = false ∧ s.tb.slewReq = some q ∧ s.mcount / 65536 + 1 ≠ q.from_) ∧
  (∃ (q : Slew), ∃ (s : State), s.coldHeld = false ∧ s.tb.slew = some q ∧ q.endsAt ≤ s.clock) :=
  ⟨⟨0x100, 0x80800000, up, by decide +kernel⟩,
  ⟨⟨-1, 100, 1, 0⟩, { up with tb := { slewReq := some ⟨-1, 100, 1, 0⟩ } }, by decide +kernel⟩,
  ⟨⟨-1, 100, 1, 6400000000⟩, { up with tb := { slew := some ⟨-1, 100, 1, 6400000000⟩ } }, by decide +kernel⟩⟩

theorem witness_ReferenceWritesComplete :
  (∃ (o : Origin), ∃ (r : RefIx), ∃ (v : Word), ∃ (s : State), s.writes o (freqReg r) 0 0 v = true ∧ s.get REF_STAT.STATE ≠ r.val
    ∧ 10000000 ≤ v.toNat ∧ v.toNat ≤ 3200000000 ∧ v.toNat / Nat.gcd 3200000000 v.toNat ≤ 1024) ∧
  (∃ (o : Origin), ∃ (v : Word), ∃ (s : State), ∃ (r : Nat), s.writes o .REF_CFG 0 0 v = true ∧ r = fieldOf v 3 1 ∧ fieldOf v 0 2
    = 0 ∧ fieldOf v 4 2 = fieldOf (s.reg RegId.REF_CFG.at) 4 2 ∧ s.isSet (refEn r) = true ∧ s.isSet (refQual r) = true ∧ s.get
    REF_STAT.STATE < 2 ∧ s.get REF_STAT.STATE ≠ r ∧ s.tb.sw = none) ∧
  (∃ (o : Origin), ∃ (v : Word), ∃ (s : State), ∃ (r : Nat), s.writes o .REF_CFG 0 0 v = true ∧ r = fieldOf v 3 1 ∧ fieldOf v 4 2
    = fieldOf (s.reg RegId.REF_CFG.at) 4 2 ∧ (s.isSet (refQual r) = false ∨ s.isSet (refEn r) = false) ∧ s.tb.sw = none ∧
    s.tb.acquiring = none) ∧
  (∃ (o : Origin), ∃ (v : Word), ∃ (s : State), ∃ (r : Nat), s.writes o .REF_CFG 0 0 v = true ∧ r = fieldOf v 3 1 ∧ fieldOf v 4 2
    = fieldOf (s.reg RegId.REF_CFG.at) 4 2 ∧ s.tb.sw.isSome = true) ∧
  (∃ (o : Origin), ∃ (v : Word), ∃ (s : State), s.writes o .REF_CFG 0 0 v = true ∧ fieldOf v 0 2 = 1 ∧ s.isSet REF_CFG.A_EN = true
    ∧ fieldOf v 4 1 = 0 ∧ s.isSet REF_STAT.A_PRESENT = true) ∧
  (∃ (o : Origin), ∃ (v : Word), ∃ (s : State), s.writes o .REF_CFG 0 0 v = true ∧ fieldOf v 0 2 = 1 ∧ s.isSet REF_CFG.B_EN =
    false ∧ s.isSet REF_CFG.A_EN = false ∧ fieldOf v 4 2 = 3) :=
  ⟨⟨0x100, 1, 10000000, refs 0, by decide +kernel⟩,
  ⟨0x100, 0x010A6438, refs 0, 1, by decide +kernel⟩,
  ⟨0x100, 0x010A6438, (refs 0).put REF_STAT.B_QUAL 0, 1, by decide +kernel⟩,
  ⟨0x100, 0x010A6438, (let s := refs 0; { s with tb := { s.tb with sw := some ⟨1, .decided, 6399999936⟩ } }), 1,
    by decide +kernel⟩,
  ⟨0x100, 0x010A6421, refs 1, by decide +kernel⟩,
  ⟨0x100, 0x010A6431, (up.put REF_CFG.A_EN 0).put REF_CFG.B_EN 0, by decide +kernel⟩⟩

theorem witness_CoreWordsComplete :
  (∃ (o : Origin), ∃ (c : CoreIx), ∃ (h : HalfIx), ∃ (v : Word), ∃ (s : State), s.writes o .HALF_CMD c h (withField v 0 1 1) =
    true ∧ s.isSet HOP_STAT.WINDOW c = false ∧ s.isSet HOP_STAT.RELOCKING c = false) ∧
  (∃ (o : Origin), ∃ (c : CoreIx), ∃ (h : HalfIx), ∃ (v : Word), ∃ (s : State), s.writes o .HALF_CMD c h (withField v 0 1 1) =
    true ∧ s.isSet HOP_STAT.WINDOW c = true ∧ s.drive c ≠ h) ∧
  (∃ (c : CoreIx), ∃ (h : HalfIx), ∃ (w : DivWord), ∃ (s : State), alive (c.val / 8) s ∧ s.coreFrozen c = false ∧ (s.half c
    h).pend = some w ∧ s.wordEdge c h = true ∧ (s.half c h).lastTimed ≠ some s.clock ∧ (s.core c).hop = none ∧ s.isSet
    HOP_STAT.WINDOW c = false ∧ s.isSet HOP_STAT.RELOCKING c = false ∧ ((s.drive c = h → s.inPlaceDue c = false)) ∧ w.search =
    false ∧ checkWord s c h w (s.halfDrives c h) (retuneDiv s c h none [] w) = none) ∧
  (∃ (c : CoreIx), ∃ (h : HalfIx), ∃ (w : DivWord), ∃ (bit : Nat), ∃ (s : State), alive (c.val / 8) s ∧ s.coreFrozen c = false ∧
    (s.half c h).pend = some w ∧ s.wordEdge c h = true ∧ s.drive c ≠ h ∧ (s.half c h).lastTimed ≠ some s.clock ∧ (s.core c).hop
    = none ∧ s.isSet HOP_STAT.WINDOW c = false ∧ checkWord s c h w false s.divInForce = some bit) :=
  ⟨⟨0x100, 63, 1, 0, cored, by decide +kernel⟩,
  ⟨0x100, 63, 1, 0, cored.put HOP_STAT.WINDOW 1 63, by decide +kernel⟩,
  ⟨63, 1, { word with int := 5, band := 512 }, halfB { pend := some { word with int := 5, band := 512 } },
    by unfold alive; decide +kernel⟩,
  ⟨63, 1, { word with int := 128 }, 0, halfB { pend := some { word with int := 128 } }, by unfold alive; decide +kernel⟩⟩

theorem witness_CorePowerAndReadinessComplete :
  (∃ (c : CoreIx), ∃ (h : HalfIx), ∃ (s : State), alive (c.val / 8) s ∧ s.powered c h = true ∧ s.isSet HALF_STAT.READY c h =
    false) ∧
  (∃ (o : Origin), ∃ (c : CoreIx), ∃ (v : Word), ∃ (s : State), s.writes o .CORE_CTRL c 0 v = true ∧ s.drive c = 0 ∧ fieldOf v 0 1
    = 1 ∧ s.isSet CORE_CTRL.B_PWR c = true ∧ fieldOf v 1 1 = 0) ∧
  (∃ (o : Origin), ∃ (c : CoreIx), ∃ (v : Word), ∃ (s : State), s.writes o .CORE_CTRL c 0 v = true ∧ s.drive c = 0 ∧ s.isSet
    CORE_CTRL.A_PWR c = true ∧ fieldOf v 0 1 = 0 ∧ fieldOf v 1 1 = s.get CORE_CTRL.B_PWR c) ∧
  (∃ (o : Origin), ∃ (c : CoreIx), ∃ (h : HalfIx), ∃ (v : Word), ∃ (s : State), s.writes o .LD_CFG c h v = true) :=
  ⟨⟨63, 1, (cored.put HALF_STAT.READY 0 63 1), by unfold alive; decide +kernel⟩,
  ⟨0x100, 63, (cored.reg (RegId.CORE_CTRL.at 63)) &&& 0xFFFFFFFD, cored, by decide +kernel⟩,
  ⟨0x100, 63, (cored.reg (RegId.CORE_CTRL.at 63)) &&& 0xFFFFFFFE, cored, by decide +kernel⟩,
  ⟨0x100, 63, 1, 0xFF00001F, cored, by decide +kernel⟩⟩

theorem witness_LockDetectionComplete :
  (∃ (c : CoreIx), ∃ (h : HalfIx), ∃ (s : State), alive (c.val / 8) s ∧ s.isSet HALF_STAT.READY c h = true ∧ (s.half c h).search =
    none ∧ (s.half c h).ldNew = false ∧ (s.half c h).winFrom + 2 ^ ldK (s.half c h).ldCur * mOf (s.get HALF_STAT.ACT_DIV c h) ≤
    s.clock) ∧
  (∃ (c : CoreIx), ∃ (h : HalfIx), ∃ (s : State), alive (c.val / 8) s ∧ s.locked c h = true ∧ (s.half c h).search = none ∧ (s.half
    c h).grossFrom + 256 * mOf (s.get HALF_STAT.ACT_DIV c h) ≤ s.clock) ∧
  (∃ (c : CoreIx), ∃ (h : HalfIx), ∃ (s : State), alive (c.val / 8) s ∧ s.locked c h = true) ∧
  (∃ (c : CoreIx), ∃ (s : State), alive (c.val / 8) s ∧ (s.half c (s.drive c)).guard = true) ∧
  (∃ (c : CoreIx), ∃ (h : HalfIx), ∃ (by_ : Nat), ∃ (s : State), alive (c.val / 8) s ∧ (s.half c h).relockBy = some by_ ∧
    s.powered c h = true ∧ s.locked c h = false ∧ by_ ≤ s.clock ∧ s.halfFailed c h = false) ∧
  (∃ (c : CoreIx), ∃ (h : HalfIx), ∃ (by_ : Nat), ∃ (s : State), alive (c.val / 8) s ∧ (s.half c h).bootBy = some by_ ∧ s.locked c
    h = false ∧ by_ ≤ s.clock ∧ s.halfFailed c h = false) :=
  ⟨⟨63, 1, halfB {} (cored.put LD_DIFF.RUN 254 63 1), by unfold alive; decide +kernel⟩,
  ⟨63, 0, cored.setHalf 63 0 { grossRun := 1 }, by unfold alive; decide +kernel⟩,
  ⟨63, 0, cored, by unfold alive; decide +kernel⟩,
  ⟨63, cored.setHalf 63 0 { guard := true }, by unfold alive; decide +kernel⟩,
  ⟨63, 1, 6400000000, halfB { relockBy := some 6400000000 }, by unfold alive; decide +kernel⟩,
  ⟨63, 1, 6400000000, halfB { bootBy := some 6400000000 }, by unfold alive; decide +kernel⟩⟩

theorem witness_PingPongHopsComplete :
  (∃ (c : CoreIx), ∃ (a : Admitted), ∃ (s : State), alive (c.val / 8) s ∧ s.coreFrozen c = false ∧ s.hopIn c .pingPong = some a ∧
    (s.core c).hop = none ∧ a.dead = false ∧ a.due - a.lead ≤ s.count (c.val / 8) ∧ s.count (c.val / 8) < a.due - a.lead + 16 ∧
    s.spaceLost c (a.due - a.lead, a.due) .pingPong = false ∧ s.inService c (1 - s.drive c) = true) ∧
  (∃ (c : CoreIx), ∃ (r : HopRun), ∃ (s : State), alive (c.val / 8) s ∧ (s.core c).hop = some r ∧ r.loaded = true ∧ r.wordBad =
    false ∧ r.searchFail = false ∧ (s.half c (1 - s.drive c)).search = none) ∧
  (∃ (c : CoreIx), ∃ (h : HalfIx), ∃ (r : HopRun), ∃ (ctx : Nat), ∃ (ws : List Word), ∃ (s : State), alive (c.val / 8) s ∧
    s.coreFrozen c = false ∧ h.val = 1 - s.drive c ∧ (s.core c).hop = some r ∧ r.loaded = false ∧ s.wordEdge c h = true ∧
    r.adm.due - r.adm.lead + 16 ≤ s.count (c.val / 8) ∧ r.adm.hopOf = some (c.val, ctx, ws) ∧ (ctxDiv ws r.adm.cached).search =
    false ∧ checkWord s c h (ctxDiv ws r.adm.cached) false s.divInForce = none) ∧
  (∃ (c : CoreIx), ∃ (r : HopRun), ∃ (s : State), alive (c.val / 8) s ∧ (s.core c).hop = some r ∧ r.prelock = true ∧ r.free =
    false ∧ r.placed = false) ∧
  (∃ (c : CoreIx), ∃ (r : HopRun), ∃ (s : State), alive (c.val / 8) s ∧ (s.core c).hop = some r ∧ r.tested = false ∧ r.adm.due ≤
    s.count (c.val / 8) + 256 ∧ s.fullService = true ∧ r.wordBad = false ∧ s.inService c 0 = true ∧ s.inService c 1 = true ∧
    r.searchFail = false ∧ r.prelock = true ∧ ((r.free = true ∨ r.placed = true))) ∧
  (∃ (c : CoreIx), ∃ (r : HopRun), ∃ (s : State), alive (c.val / 8) s ∧ (s.core c).hop = some r ∧ r.tested = false ∧ r.adm.due ≤
    s.count (c.val / 8) + 256 ∧ s.fullService = true ∧ r.wordBad = true) ∧
  (∃ (c : CoreIx), ∃ (a : Admitted), ∃ (r : HopRun), ∃ (ctx : Nat), ∃ (ws : List Word), ∃ (s : State), alive (c.val / 8) s ∧
    s.coreFrozen c = false ∧ s.hopIn c .pingPong = some a ∧ a.hopOf = some (c.val, ctx, ws) ∧ a.due ≤ s.count (c.val / 8) ∧
    s.othersDue (c.val / 8) a = false ∧ a.dead = false ∧ (s.core c).hop = some r ∧ r.tested = true ∧ ctx < 16384 ∧ s.inService c
    (s.drive c) = true ∧ ceilTest s.beforeCeil c (s.fvco c (1 - s.drive c)) (entryDiv s a (ctxEntries ws)) = true) :=
  ⟨⟨63, hop .pingPong 6400006400 6400, admitted (hop .pingPong 6400006400 6400) cored, by unfold alive; decide +kernel⟩,
  ⟨63, { adm := hop .pingPong 6400000300 6400, loaded := true }, hopping { adm := hop .pingPong 6400000300 6400, loaded := true },
    by unfold alive; decide +kernel⟩,
  ⟨63, 1, { adm := hop .pingPong 6400006384 6400 }, 16383, hopCtx, hopping { adm := hop .pingPong 6400006384 6400 },
    by unfold alive; decide +kernel⟩,
  ⟨63, { adm := hop .pingPong 6400000300 6400, loaded := true, prelock := true }, hopping
    { adm := hop .pingPong 6400000300 6400, loaded := true, prelock := true }, by unfold alive; decide +kernel⟩,
  ⟨63, { adm := hop .pingPong 6400000256 6400, loaded := true, prelock := true, placed := true }, hopping
    { adm := hop .pingPong 6400000256 6400, loaded := true, prelock := true, placed := true }, by unfold alive; decide +kernel⟩,
  ⟨63, { adm := hop .pingPong 6400000256 6400, wordBad := true }, hopping
    { adm := hop .pingPong 6400000256 6400, wordBad := true }, by unfold alive; decide +kernel⟩,
  ⟨63, hop .pingPong 6400000000 6400,
    { adm := hop .pingPong 6400000000 6400, loaded := true, prelock := true, placed := true, tested := true }, 16383, hopCtx,
    hopping { adm := hop .pingPong 6400000000 6400, loaded := true, prelock := true, placed := true, tested := true } (cored.put
    PORT_CEIL.CEIL_KHZ 3200000 1023), by unfold alive; decide +kernel⟩⟩

theorem witness_InPlaceAndRelockHopsComplete :
  (∃ (c : CoreIx), ∃ (a : Admitted), ∃ (ctx : Nat), ∃ (ws : List Word), ∃ (s : State), alive (c.val / 8) s ∧ s.coreFrozen c =
    false ∧ s.nextAction (c.val / 8) = some a ∧ a.hopOf = some (c.val, ctx, ws) ∧ a.cls = .inPlace ∧ a.dead = false ∧
    s.fullService = true ∧ s.spaceLost c (a.due, a.due) .inPlace = false ∧ s.inService c (s.drive c) = true ∧ ctx < 16384 ∧
    checkWord ((takeHop c a s).setHalf c (s.drive c) { s.half c (s.drive c) with lastTimed := some s.clock }).beforeCeil c
    (s.drive c) (ctxDiv ws true) true (retuneDiv ((takeHop c a s).setHalf c (s.drive c)
    { s.half c (s.drive c) with lastTimed := some s.clock }) c (s.drive c) (some a) ((ctxEntries ws).filter fun e => s.srcCore
    e.1 == c.val) (ctxDiv ws true)) = none) ∧
  (∃ (c : CoreIx), ∃ (a : Admitted), ∃ (ctx : Nat), ∃ (ws : List Word), ∃ (s : State), alive (c.val / 8) s ∧ s.coreFrozen c =
    false ∧ s.nextAction (c.val / 8) = some a ∧ a.hopOf = some (c.val, ctx, ws) ∧ a.cls = .relock ∧ a.dead = false ∧
    s.fullService = true ∧ 8 < a.lead ∧ s.inService c (s.drive c) = true ∧ s.isSet HOP_CFG.RELOCK_EN c = true) ∧
  (∃ (c : CoreIx), ∃ (r : RelockRun), ∃ (ctx : Nat), ∃ (ws : List Word), ∃ (s : State), alive (c.val / 8) s ∧ s.coreFrozen c =
    false ∧ (s.core c).relock = some r ∧ r.loaded = false ∧ s.wordEdge c (s.drive c) = true ∧ r.adm.hopOf = some (c.val, ctx,
    ws) ∧ (ctxDiv ws r.adm.cached).search = false ∧ checkWord s c (s.drive c) (ctxDiv ws r.adm.cached) false s.divInForce =
    none) ∧
  (∃ (c : CoreIx), ∃ (r : RelockRun), ∃ (ctx : Nat), ∃ (ws : List Word), ∃ (s : State), alive (c.val / 8) s ∧ (s.core c).relock =
    some r ∧ r.adm.hopOf = some (c.val, ctx, ws) ∧ r.prelock = true ∧ r.ceilBad = false ∧ (s.half c (s.drive c)).search = none ∧
    s.count (c.val / 8) < r.limit ∧ ctx < 16384 ∧ ceilTest s.beforeCeil c (s.fvco c (s.drive c)) (entryDiv s r.adm (ctxEntries
    ws)) = true) ∧
  (∃ (c : CoreIx), ∃ (r : RelockRun), ∃ (s : State), alive (c.val / 8) s ∧ (s.core c).relock = some r ∧ r.limit ≤ s.count (c.val /
    8) ∧ s.isSpare c = false) :=
  ⟨⟨63, hop .inPlace 6400000000 8, 16383, hopCtx, admitted (hop .inPlace 6400000000 8) (cored.put PORT_CEIL.CEIL_KHZ 3200000 1023),
    by unfold alive; decide +kernel⟩,
  ⟨63, hop .relock 6400000000 9, 16383, hopCtx, admitted (hop .relock 6400000000 9) (cored.put CORE_CTRL.B_PWR 0 63),
    by unfold alive; decide +kernel⟩,
  ⟨63, { adm := hop .relock 6399990000 9, limit := 6400086000 }, 16383, hopCtx, cored.setCore 63
    { relock := some { adm := hop .relock 6399990000 9, limit := 6400086000 } }, by unfold alive; decide +kernel⟩,
  ⟨63, { adm := hop .relock 6399990000 9, limit := 6400000001, loaded := true, prelock := true }, 16383, hopCtx, admitted (hop
    .relock 6399990000 9) (((cored.put PORT_CEIL.CEIL_KHZ 3200000 1023).put HOP_STAT.RELOCKING 1 63).setCore 63
    { relock := some { adm := hop .relock 6399990000 9, limit := 6400000001, loaded := true, prelock := true } }),
    by unfold alive; decide +kernel⟩,
  ⟨63, { adm := hop .relock 6399990000 9, limit := 6400000000, ceilBad := true }, (cored.put HOP_STAT.RELOCKING 1 63).setCore 63
    { relock := some { adm := hop .relock 6399990000 9, limit := 6400000000, ceilBad := true } },
    by unfold alive; decide +kernel⟩⟩

theorem witness_FailoversComplete :
  (∃ (c : CoreIx), ∃ (f : FailoverRun), ∃ (s : State), alive (c.val / 8) s ∧ (s.core c).failover = some f ∧ f.loaded = false ∧
    s.wordEdge f.spare f.spareHalf = true ∧ f.spare < 64 ∧ f.spareHalf < 2 ∧ 3 ≤ f.word.preset ∧ checkWord s f.spare f.spareHalf
    { f.word with search := true } false s.divInForce = none) ∧
  (∃ (c : CoreIx), ∃ (f : FailoverRun), ∃ (g : Nat), ∃ (s : State), alive (c.val / 8) s ∧ (s.core c).failover = some f ∧ f.found =
    some false ∧ s.groupOf c = some g) ∧
  (∃ (c : CoreIx), ∃ (f : FailoverRun), ∃ (s : State), alive (c.val / 8) s ∧ (s.core c).failover = some f ∧ f.found = some true) ∧
  (∃ (c : CoreIx), ∃ (f : FailoverRun), ∃ (g : Nat), ∃ (s : State), alive (c.val / 8) s ∧ (s.core c).failover = some f ∧ f.prelock
    = true ∧ f.spare < 64 ∧ f.spareHalf < 2 ∧ s.groupOf c = some g) ∧
  (∃ (o : Origin), ∃ (g : Fin 16), ∃ (v : Word), ∃ (s : State), s.writes o .LG_MEM_LO g 0 v = true ∧ memRefused s g v (s.reg
    (RegId.LG_MEM_HI.at g)) = false) ∧
  (∃ (o : Origin), ∃ (g : Fin 16), ∃ (v : Word), ∃ (s : State), s.writes o .LG_SPARE g 0 v = true ∧ spareRefused s g v = true) :=
  ⟨⟨63, { spare := 56, spareHalf := 1, since := 6399999000, ports := [1023], word := word, line := none }, ((cored.put
    CORE_CTRL.B_PWR 1 56).put HALF_STAT.READY 1 56 1).setCore 63
    { failover := some { spare := 56, spareHalf := 1, since := 6399999000, ports := [1023], word := word, line := none } },
    by unfold alive; decide +kernel⟩,
  ⟨63,
    { spare := 56, spareHalf := 1, since := 6399999000, ports := [1023], word := word, line := none, loaded := true, found := some false },
    15, (cored.put LG_MEM_HI.MEM_HI 0x80000000 15).setCore 63
    { failover := some { spare := 56, spareHalf := 1, since := 6399999000, ports := [1023], word := word, line := none, loaded := true, found := some false } },
    by unfold alive; decide +kernel⟩,
  ⟨63,
    { spare := 56, spareHalf := 1, since := 6399999000, ports := [1023], word := word, line := none, loaded := true, found := some true },
    cored.setCore 63
    { failover := some { spare := 56, spareHalf := 1, since := 6399999000, ports := [1023], word := word, line := none, loaded := true, found := some true } },
    by unfold alive; decide +kernel⟩,
  ⟨63,
    { spare := 56, spareHalf := 1, since := 6399999000, ports := [1023], word := word, line := none, loaded := true, found := some true, prelock := true },
    15, (cored.put LG_MEM_HI.MEM_HI 0x80000000 15).setCore 63
    { failover := some { spare := 56, spareHalf := 1, since := 6399999000, ports := [1023], word := word, line := none, loaded := true, found := some true, prelock := true } },
    by unfold alive; decide +kernel⟩,
  ⟨0x100, 15, 1, up, by decide +kernel⟩,
  ⟨0x100, 15, 0xF0000000, up.put LG_MEM_HI.MEM_HI 0x80000000 15, by decide +kernel⟩⟩

theorem witness_CoreCalibrationComplete :
  (∃ (c : CoreIx), ∃ (h : HalfIx), ∃ (count : Nat), ∃ (span : Nat), ∃ (b : BandSearch), ∃ (s : State), alive (c.val / 8) s ∧
    (s.half c h).search = some b ∧ b.last + 2048 ≤ s.clock ∧ s.clock ≤ b.since + (if b.narrow then 28800 else 122880) ∧ 10 *
    countDist (s.fvco c h) count ≤ 8 * span * ((s.fvco c h).d * 3200000000) ∧ b.core < 3 ∧ b.band < 256) ∧
  (∃ (c : CoreIx), ∃ (h : HalfIx), ∃ (move : Int), ∃ (r : TrimRun), ∃ (s : State), alive (c.val / 8) s ∧ (s.half c h).lms.run =
    some r ∧ s.cdDown = false ∧ s.calLost = false ∧ s.anyBad 0x01D00000 0x00100000 = false ∧ s.trimRequired c h false = true ∧
    r.since + 65536 * mOf (s.get HALF_STAT.ACT_DIV c h) ≤ s.clock ∧ s.locked c h = true ∧ s.tb.sw = none ∧ s.tb.swEnded ≤
    r.since ∧ (((s.half c h).working.cpSeed = false ∨ (s.half c h).working.cpConv.testBit (s.actSel c h) = true)) ∧ -512 ≤
    (s.half c h).working.cp.getD (s.actSel c h) 0 + move ∧ (s.half c h).working.cp.getD (s.actSel c h) 0 + move ≤ 511 ∧ r.streak
    < 7 ∧ r.blocks + 1 < blockLimit (s.half c h).working false) ∧
  (∃ (c : CoreIx), ∃ (h : HalfIx), ∃ (move : Int), ∃ (r : TrimRun), ∃ (s : State), alive (c.val / 8) s ∧ (s.half c h).dtc.run =
    some r ∧ s.cdDown = false ∧ s.calLost = false ∧ s.anyBad 0x01D00000 0x00100000 = false ∧ s.trimRequired c h true = true ∧
    r.since + 65536 * mOf (s.get HALF_STAT.ACT_DIV c h) ≤ s.clock ∧ s.locked c h = true ∧ s.tb.sw = none ∧ s.tb.swEnded ≤
    r.since ∧ (((s.half c h).working.dtcSeed = false ∨ (s.half c h).working.gainConv.testBit (s.actSel c h) = true)) ∧ 0 ≤
    ((s.half c h).working.gain.getD (s.actSel c h) 2048 : Int) + move ∧ ((s.half c h).working.gain.getD (s.actSel c h) 2048 :
    Int) + move ≤ 4095 ∧ r.streak < 7 ∧ r.blocks + 1 < blockLimit (s.half c h).working true) ∧
  (∃ (c : CoreIx), ∃ (h : HalfIx), ∃ (s : State), alive (c.val / 8) s ∧ s.cdDown = false ∧ s.halfDrives c h = false ∧ s.isSet
    HOP_STAT.WINDOW c = false ∧ s.powered c h = true ∧ s.cmpEdge c h = true ∧ s.trimsFrozen (c.val / 8) = false) ∧
  (∃ (c : CoreIx), ∃ (h : HalfIx), ∃ (s : State), alive (c.val / 8) s ∧ s.halfDrives c h = false ∧ s.cmpEdge c h = false) ∧
  (∃ (c : CoreIx), ∃ (h : HalfIx), ∃ (s : State), alive (c.val / 8) s ∧ s.cdDown = false ∧ s.halfDrives c h = true ∧ s.drivingSlot
    c = true ∧ s.trimsFrozen (c.val / 8) = false) ∧
  (∃ (c : CoreIx), ∃ (s : State), s.trimsFrozen (c.val / 8) = true) :=
  ⟨⟨63, 1, 8192, 1,
    { narrow := false, cores := [], core := 0, bis := none, band := 255, todo := [], steps := 9, best := none, since := 6399990000, last := 6399997952 },
    halfB
    { search := some { narrow := false, cores := [], core := 0, bis := none, band := 255, todo := [], steps := 9, best := none, since := 6399990000, last := 6399997952 } },
    by unfold alive; decide +kernel⟩,
  ⟨63, 1, -512, { requested := true, since := 6399934464 }, ((((cored.put HALF_STAT.ACT_MODE 1 63 1).put HALF_STAT.ACT_ORDER 1 63
    1).put HALF_STAT.LOCKED 1 63 1).setHalf 63 1
    { working := { cpSeed := false, dtcSeed := false }, lms := { run := some { requested := true, since := 6399934464 } } }),
    by unfold alive; decide +kernel⟩,
  ⟨63, 1, 2047, { requested := true, since := 6399934464 }, ((((cored.put HALF_STAT.ACT_MODE 1 63 1).put HALF_STAT.ACT_ORDER 1 63
    1).put HALF_STAT.LOCKED 1 63 1).setHalf 63 1
    { working := { cpSeed := false, dtcSeed := false }, dtc := { run := some { requested := true, since := 6399934464 } } }),
    by unfold alive; decide +kernel⟩,
  ⟨63, 1, halfB { working := { cpConv := 7 } }, by unfold alive; decide +kernel⟩,
  ⟨63, 1, halfB { working := { cpConv := 7 }, cmpFrom := 6399999999 } (cored.put HALF_STAT.ACT_DIV 1 63 1),
    by unfold alive; decide +kernel⟩,
  ⟨63, 0, cored.setHalf 63 0 { working := { cp := [511, 0, 0], gain := [0, 0, 0] } }, by unfold alive; decide +kernel⟩,
  ⟨63, (cored.setHalf 63 0 { working := { cp := [511, 0, 0], gain := [0, 0, 0] } }).setChip 7 { running := true, cdLost := true },
    by decide +kernel⟩⟩

theorem witness_ActionsAreSent :
  (∃ (n : ChipletIx), ∃ (q : QueueIx), ∃ (a : Action), ∃ (s : State), s.coldHeld = false ∧ s.nextRel n q = some a ∧ s.cdDown =
    false ∧ s.settledBelow q a.seq = true ∧ s.chipOut n = false ∧ s.isSet EPOCH_STAT.ARMED = false ∧ s.fifoLoad n < 4096) ∧
  (∃ (n : ChipletIx), ∃ (q : QueueIx), ∃ (a : Action), ∃ (i : Item), ∃ (s : State), s.coldHeld = false ∧ s.nextRel n q = some a ∧
    s.cdDown = false ∧ s.settledBelow q a.seq = true ∧ s.chipOut n = true ∧ s.item q a.seq = some i ∧ i.hw = none) ∧
  (∃ (q : Nat), ∃ (n : Nat), ∃ (idx : Nat), ∃ (status : Nat), ∃ (rest : List (Nat × Nat × Nat × Nat)), ∃ (i : Item), ∃ (s :
    State), s.coldHeld = false ∧ s.cdDown = false ∧ s.verdicts = (q, n, idx, status) :: rest ∧ s.item q n = some i ∧ i.hw =
    none) :=
  ⟨⟨7, 5, act (.mark 1023 1) 7000000000, ended { up with rel := [act (.mark 1023 1) 7000000000] }, by decide +kernel⟩,
  ⟨7, 5, act (.mark 1023 1) 7000000000, { it with st := .ended, out := 1 }, (ended
    { up with rel := [act (.mark 1023 1) 7000000000] }).put CHIP_STAT.LOST 128, by decide +kernel⟩,
  ⟨5, 1, 0, 1, [], { it with st := .ended, out := 1 }, ended
    { up with verdicts := [(5, 1, 0, 1)], rel := [act (.mark 1022 1) 7000000000] }, by decide +kernel⟩⟩

theorem witness_ActionsAreJudged :
  (∃ (n : ChipletIx), ∃ (a : Action), ∃ (rest : List Action), ∃ (s : State), alive n s ∧ (s.chip n).transit = a :: rest ∧ s.isSet
    EPOCH_STAT.ARMED = false ∧ markOf a.seq a.idx ≤ s.mark n a.q) ∧
  (∃ (n : ChipletIx), ∃ (a : Action), ∃ (rest : List Action), ∃ (s : State), (alive n s ∧ (s.chip n).transit = a :: rest ∧ s.isSet
    EPOCH_STAT.ARMED = false ∧ s.mark n a.q < markOf a.seq a.idx ∧ SMap.get (fun _ => 0) (s.chip n).aborts a.q ≠ a.seq ∧
    a.kind.chip = n.val ∧ s.count n + 8 ≤ a.tick ∧ a.tick ≤ s.count n + 2 ^ 32) ∧ ((∀ c x ws, a.kind ≠ .hop c x ws)) ∧ ((∀ k w m
    u, a.kind ≠ .arm k w m u))) ∧
  (∃ (n : ChipletIx), ∃ (a : Action), ∃ (rest : List Action), ∃ (s : State), (alive n s ∧ (s.chip n).transit = a :: rest ∧ s.isSet
    EPOCH_STAT.ARMED = false ∧ s.mark n a.q < markOf a.seq a.idx ∧ SMap.get (fun _ => 0) (s.chip n).aborts a.q ≠ a.seq ∧ a.tick
    < s.count n + 8 ∧ a.applyLate = false) ∧ ((∀ c x ws, a.kind ≠ .hop c x ws))) ∧
  (∃ (n : ChipletIx), ∃ (a : Action), ∃ (rest : List Action), ∃ (s : State), (alive n s ∧ (s.chip n).transit = a :: rest ∧ s.isSet
    EPOCH_STAT.ARMED = false ∧ s.mark n a.q < markOf a.seq a.idx ∧ SMap.get (fun _ => 0) (s.chip n).aborts a.q ≠ a.seq ∧ a.tick
    < s.count n + 8 ∧ a.applyLate = true) ∧ ((∀ c x ws, a.kind ≠ .hop c x ws)) ∧ ((∀ k w m u, a.kind ≠ .arm k w m u))) ∧
  (∃ (n : ChipletIx), ∃ (a : Action), ∃ (rest : List Action), ∃ (s : State), alive n s ∧ (s.chip n).transit = a :: rest ∧ s.isSet
    EPOCH_STAT.ARMED = false ∧ s.mark n a.q < markOf a.seq a.idx ∧ SMap.get (fun _ => 0) (s.chip n).aborts a.q ≠ a.seq ∧ s.count
    n + 2 ^ 32 < a.tick) ∧
  (∃ (n : ChipletIx), ∃ (c : Nat), ∃ (ctx : Nat), ∃ (ws : List Word), ∃ (a : Action), ∃ (rest : List Action), ∃ (s : State), alive
    n s ∧ (s.chip n).transit = a :: rest ∧ s.isSet EPOCH_STAT.ARMED = false ∧ s.mark n a.q < markOf a.seq a.idx ∧ SMap.get
    (fun _ => 0) (s.chip n).aborts a.q ≠ a.seq ∧ a.kind = .hop c ctx ws ∧ c / 8 = n.val ∧ s.count n + (hopLead (s.hopClass c ws)
    (s.hopCached n ws) (ctxDiv ws (s.hopCached n ws)).preset) ≤ a.tick ∧ a.tick ≤ s.count n + 2 ^ 32 ∧ s.hopOverlaps c (busyOf
    (s.hopClass c ws) (s.hopCached n ws) (ctxDiv ws (s.hopCached n ws)).preset (hopLead (s.hopClass c ws) (s.hopCached n ws)
    (ctxDiv ws (s.hopCached n ws)).preset) a.tick) (s.hopClass c ws) = false) ∧
  (∃ (n : ChipletIx), ∃ (c : Nat), ∃ (ctx : Nat), ∃ (ws : List Word), ∃ (a : Action), ∃ (rest : List Action), ∃ (s : State), alive
    n s ∧ (s.chip n).transit = a :: rest ∧ s.isSet EPOCH_STAT.ARMED = false ∧ s.mark n a.q < markOf a.seq a.idx ∧ SMap.get
    (fun _ => 0) (s.chip n).aborts a.q ≠ a.seq ∧ a.kind = .hop c ctx ws ∧ c / 8 = n.val ∧ a.tick ≤ s.count n + 2 ^ 32 ∧ s.count
    n + (hopLead (s.hopClass c ws) (s.hopCached n ws) ((ctxDiv ws (s.hopCached n ws)).preset)) ≤ a.tick ∧ s.hopOverlaps c
    (busyOf (s.hopClass c ws) (s.hopCached n ws) ((ctxDiv ws (s.hopCached n ws)).preset) (hopLead (s.hopClass c ws) (s.hopCached
    n ws) ((ctxDiv ws (s.hopCached n ws)).preset)) a.tick) (s.hopClass c ws) = true) ∧
  (∃ (n : ChipletIx), ∃ (c : Nat), ∃ (ctx : Nat), ∃ (ws : List Word), ∃ (a : Action), ∃ (rest : List Action), ∃ (s : State), alive
    n s ∧ (s.chip n).transit = a :: rest ∧ s.isSet EPOCH_STAT.ARMED = false ∧ s.mark n a.q < markOf a.seq a.idx ∧ SMap.get
    (fun _ => 0) (s.chip n).aborts a.q ≠ a.seq ∧ a.kind = .hop c ctx ws ∧ c / 8 = n.val ∧ a.tick < s.count n + (hopLead
    (s.hopClass c ws) (s.hopCached n ws) ((ctxDiv ws (s.hopCached n ws)).preset)) ∧ a.applyLate = false) ∧
  (∃ (n : ChipletIx), ∃ (c : Nat), ∃ (ctx : Nat), ∃ (ws : List Word), ∃ (a : Action), ∃ (rest : List Action), ∃ (s : State), alive
    n s ∧ (s.chip n).transit = a :: rest ∧ s.isSet EPOCH_STAT.ARMED = false ∧ s.mark n a.q < markOf a.seq a.idx ∧ SMap.get
    (fun _ => 0) (s.chip n).aborts a.q ≠ a.seq ∧ a.kind = .hop c ctx ws ∧ c / 8 = n.val ∧ a.tick < s.count n + (hopLead
    (s.hopClass c ws) (s.hopCached n ws) ((ctxDiv ws (s.hopCached n ws)).preset)) ∧ a.applyLate = true ∧ s.hopOverlaps c (busyOf
    (s.hopClass c ws) (s.hopCached n ws) ((ctxDiv ws (s.hopCached n ws)).preset) (hopLead (s.hopClass c ws) (s.hopCached n ws)
    ((ctxDiv ws (s.hopCached n ws)).preset)) (s.count n + (hopLead (s.hopClass c ws) (s.hopCached n ws) ((ctxDiv ws (s.hopCached
    n ws)).preset)))) (s.hopClass c ws) = false) ∧
  (∃ (n : ChipletIx), ∃ (k : Nat), ∃ (w : Nat), ∃ (m : Nat), ∃ (u : Nat), ∃ (a : Action), ∃ (rest : List Action), ∃ (i : Item), ∃
    (s : State), alive n s ∧ (s.chip n).transit = a :: rest ∧ s.isSet EPOCH_STAT.ARMED = false ∧ s.mark n a.q < markOf a.seq
    a.idx ∧ SMap.get (fun _ => 0) (s.chip n).aborts a.q ≠ a.seq ∧ a.kind = .arm k w m u ∧ chanChip k = n.val ∧ s.item a.q a.seq
    = some i ∧ s.count n + 8 ≤ a.tick ∧ a.tick ≤ s.count n + 2 ^ 32) ∧
  (∃ (s : State), s.isSet EPOCH_STAT.ARMED = true) :=
  ⟨⟨7, act (.mark 1023 1) 7000000000, [], (let s := sent (act (.mark 1023 1) 7000000000); s.setChip 7
    { s.chip 7 with marks := [(5, markOf 1 0)] }), by unfold alive; decide +kernel⟩,
  ⟨7, act (.mark 1023 1) (6400000000 + 2 ^ 32), [], sent (act (.mark 1023 1) (6400000000 + 2 ^ 32)),
    by unfold alive; decide +kernel, nofun, nofun⟩,
  ⟨7, act (.mark 1023 1) 6400000007, [], (ended up) |> sent (act (.mark 1023 1) 6400000007), by unfold alive; decide +kernel,
    nofun⟩,
  ⟨7, act (.mark 1023 1) 0 true, [], (ended up) |> sent (act (.mark 1023 1) 0 true), by unfold alive; decide +kernel, nofun,
    nofun⟩,
  ⟨7, act (.mark 1023 1) (6400000001 + 2 ^ 32), [], (ended up) |> sent (act (.mark 1023 1) (6400000001 + 2 ^ 32)),
    by unfold alive; decide +kernel⟩,
  ⟨7, 63, 16383, hopCtx 3, act (.hop 63 16383 (hopCtx 3)) 6400050000, [], sent (act (.hop 63 16383 (hopCtx 3)) 6400050000) cored,
    by unfold alive; decide +kernel⟩,
  ⟨7, 63, 16383, hopCtx 3, act (.hop 63 16383 (hopCtx 3)) 6400050000 false, [],
    (let s := sent (act (.hop 63 16383 (hopCtx 3)) 6400050000 false) cored; s.setChip 7
    { s.chip 7 with fifo := [hop .pingPong 6400050000 6400] }), by unfold alive; decide +kernel⟩,
  ⟨7, 63, 16383, hopCtx 3, act (.hop 63 16383 (hopCtx 3)) 6400000000 false, [], sent (act (.hop 63 16383 (hopCtx 3)) 6400000000
    false) cored, by unfold alive; decide +kernel⟩,
  ⟨7, 63, 16383, hopCtx 3, act (.hop 63 16383 (hopCtx 3)) 6400000000 true, [], sent (act (.hop 63 16383 (hopCtx 3)) 6400000000
    true) cored, by unfold alive; decide +kernel⟩,
  ⟨7, 1279, stampWord, 2, 0, act (.arm 1279 stampWord 2 0) 6400000008, [], { it with st := .ended, out := 1 }, ended (sent (act
    (.arm 1279 stampWord 2 0) 6400000008)), by unfold alive; decide +kernel⟩,
  ⟨(sent (act (.mark 1023 1) 7000000000)).put EPOCH_STAT.ARMED 1, by decide +kernel⟩⟩

theorem witness_PortWordsComplete :
  (∃ (n : ChipletIx), ∃ (a : Admitted), ∃ (p : Nat), ∃ (fine : Nat), ∃ (s : State), alive n s ∧ s.nextAction n = some a ∧
    a.act.kind = .phase p fine ∧ s.frozen (RegId.PORT_CFG.at p) = false ∧ checkPort s.beforeCeil p
    { s.portActive p with fine := fine % 2 ^ 20 } = none) ∧
  (∃ (n : ChipletIx), ∃ (a : Admitted), ∃ (p : Nat), ∃ (v : Nat), ∃ (mask : Nat), ∃ (s : State), alive n s ∧ s.nextAction n = some
    a ∧ a.act.kind = .portset p v mask ∧ s.frozen (RegId.PORT_CFG.at p) = false ∧ checkPort s.beforeCeil p (portsetWord
    (s.portActive p) v mask) = none) ∧
  (∃ (n : ChipletIx), ∃ (a : Admitted), ∃ (p : Nat), ∃ (v : Nat), ∃ (mask : Nat), ∃ (bit : Nat), ∃ (s : State), alive n s ∧
    s.nextAction n = some a ∧ a.act.kind = .portset p v mask ∧ s.frozen (RegId.PORT_CFG.at p) = false ∧ checkPort s.beforeCeil p
    (portsetWord (s.portActive p) v mask) = some bit) ∧
  (∃ (o : Origin), ∃ (p : PortIx), ∃ (v : Word), ∃ (s : State), s.writes o .PORT_CMD p 0 (withField v 0 1 1) = true) ∧
  (∃ (p : PortIx), ∃ (w : PortWord), ∃ (s : State), alive (p.val / 128) s ∧ s.frozen (RegId.PORT_CFG.at p) = false ∧ (s.port
    p).captured = some w ∧ s.portActionDue p = false ∧ (s.port p).lastTimed ≠ some s.clock ∧ checkPort s p w = none) ∧
  (∃ (p : PortIx), ∃ (w : PortWord), ∃ (s : State), alive (p.val / 128) s ∧ s.frozen (RegId.PORT_CFG.at p) = false ∧ (s.port
    p).captured = some w ∧ s.portActionDue p = false ∧ (s.port p).lastTimed = some s.clock) :=
  ⟨⟨7, adm (.phase 1023 0x1FFFFF), 1023, 0x1FFFFF, admitted (adm (.phase 1023 0x1FFFFF)) ported, by unfold alive; decide +kernel⟩,
  ⟨7, adm (.portset 1023 0x80008 0x20), 1023, 0x80008, 0x20, admitted (adm (.portset 1023 0x80008 0x20)) ported,
    by unfold alive; decide +kernel⟩,
  ⟨7, adm (.portset 1023 0 0x20), 1023, 0, 0x20, 0, admitted (adm (.portset 1023 0 0x20)) ported, by unfold alive; decide +kernel⟩,
  ⟨0x100, 1023, 0, ported, by decide +kernel⟩,
  ⟨1023, { src := 7, fmt := 1, marker := false, en := true, sqLevel := 0, div := 8, fine := 0xFFFFF }, ported 1
    { en := true, captured := some { src := 7, fmt := 1, marker := false, en := true, sqLevel := 0, div := 8, fine := 0xFFFFF } },
    by unfold alive; decide +kernel⟩,
  ⟨1023, { src := 7, fmt := 1, marker := false, en := true, sqLevel := 0, div := 8, fine := 0 }, ported 1
    { en := true, lastTimed := some 6400000000, captured := some { src := 7, fmt := 1, marker := false, en := true, sqLevel := 0, div := 8, fine := 0 } },
    by unfold alive; decide +kernel⟩⟩

theorem witness_MarkersAndMotionsComplete :
  (∃ (n : ChipletIx), ∃ (a : Admitted), ∃ (p : Nat), ∃ (cnt : Nat), ∃ (s : State), alive n s ∧ s.nextAction n = some a ∧
    a.act.kind = .mark p cnt ∧ s.frozen (RegId.PORT_CFG.at p) = false ∧ s.isSet PORT_ACT.ACT_MARKER p = true) ∧
  (∃ (p : PortIx), ∃ (m : Train), ∃ (s : State), alive (p.val / 128) s ∧ (s.port p).train = some m ∧ s.isSet PORT_ACT.ACT_MARKER p
    = true ∧ m.next ≤ s.count (p.val / 128)) ∧
  (∃ (p : PortIx), ∃ (s : State), alive (p.val / 128) s ∧ s.isSet PORT_STAT.RAMPING p = true ∧ s.portRuns p = true ∧ (s.port
    p).fineTarget < 2 ^ 20) :=
  ⟨⟨7, adm (.mark 1023 0xFFFF), 1023, 0xFFFF, admitted (adm (.mark 1023 0xFFFF)) (ported.put PORT_ACT.ACT_MARKER 1 1023),
    by unfold alive; decide +kernel⟩,
  ⟨1023, ⟨6400000000, 6400000000, some 1⟩, (ported 1 { en := true, train := some ⟨6400000000, 6400000000, some 1⟩ }).put
    PORT_ACT.ACT_MARKER 1 1023, by unfold alive; decide +kernel⟩,
  ⟨1023, (ported 1 { en := true, fineTarget := 0xFFFFF }).put PORT_STAT.RAMPING 1 1023, by unfold alive; decide +kernel⟩⟩

theorem witness_PortLimitsComplete :
  (∃ (o : Origin), ∃ (p : PortIx), ∃ (v : Word), ∃ (s : State), s.writes o .PORT_CEIL p 0 v = true ∧ v.toNat ≤ portMax p * 1000 ∧
    ((s.portRuns p = true → ((s.fvco (s.srcCore p) (s.drive (s.srcCore p))).divBy (s.divInForce p)).le (Freq.ofHz (v.toNat *
    1000)) = true))) ∧
  (∃ (o : Origin), ∃ (p : PortIx), ∃ (v : Word), ∃ (s : State), s.writes o .PORT_CEIL p 0 v = true ∧ portMax p * 1000 < v.toNat ∧
    s.portRuns p = false) ∧
  (∃ (o : Origin), ∃ (p : PortIx), ∃ (v : Word), ∃ (s : State), s.writes o .PORT_CEIL p 0 v = true ∧ v.toNat ≤ portMax p * 1000 ∧
    s.portRuns p = true ∧ (Freq.ofHz (v.toNat * 1000)).lt ((s.fvco (s.srcCore p) (s.drive (s.srcCore p))).divBy (s.divInForce
    p)) = true) ∧
  (∃ (c : CoreIx), ∃ (h : HalfIx), ∃ (t0 : Nat), ∃ (s : State), alive (c.val / 8) s ∧ (s.half c h).ceilFrom = some t0 ∧ t0 + 4096
    ≤ s.clock ∧ s.drive c = h) ∧
  (∃ (o : Origin), ∃ (v : Word), ∃ (s : State), s.writesPair o .PORT_MEN_A 0 v = true) ∧
  (∃ (p : PortIx), ∃ (s : State), alive (p.val / 128) s ∧ s.get PORT_STAT.STATE p = psHold ∧ s.get PORT_HOLD.HOLD_LIM p ≠ 0 ∧
    (s.port p).holdSince + s.get PORT_HOLD.HOLD_LIM p * msTk ≤ s.clock) :=
  ⟨⟨0x100, 1023, 3200000, ported, by decide +kernel⟩,
  ⟨0x100, 1023, 12800001, ported 0, by decide +kernel⟩,
  ⟨0x100, 1023, 3199999, ported, by decide +kernel⟩,
  ⟨63, 0, 6399995904, ported.setHalf 63 0 { ceilFrom := some 6399995904 }, by unfold alive; decide +kernel⟩,
  ⟨0x100, 0x7F, ported, by decide +kernel⟩,
  ⟨1023, ((ported 2).put PORT_STAT.RUNNING 1 1023).put PORT_HOLD.HOLD_LIM 2000 1023, by unfold alive; decide +kernel⟩⟩

theorem witness_SkewLoopCompletes :
  (∃ (p : PortIx), ∃ (s : State), alive (p.val / 128) s ∧ s.skewHolds p = true ∧ s.skewMeanFull p = true) ∧
  (∃ (p : PortIx), ∃ (s : State), alive (p.val / 128) s ∧ s.skewHolds p = true ∧ (s.port p).ofsDue = true) ∧
  (∃ (p : PortIx), ∃ (goal : Int), ∃ (s : State), alive (p.val / 128) s ∧ (s.port p).trimMotion = some goal ∧ s.portRuns p = true
    ∧ s.trimsFrozen (p.val / 128) = false) ∧
  (∃ (o : Origin), ∃ (p : PortIx), ∃ (v : Word), ∃ (s : State), s.writes o .PORT_TRIM p 0 v = true) ∧
  (∃ (p : PortIx), ∃ (since : Nat), ∃ (trim : Int), ∃ (req : Bool), ∃ (s : State), alive (p.val / 128) s ∧ (s.port p).skAttempt =
    some (since, trim, req) ∧ (s.chan p).meas.isSome = false ∧ (s.chan p).cd.isSome = false ∧ s.cdDown = false ∧ (s.chip (p.val
    / 128)).cdLost = false ∧ s.isSet SOR_CTRL.SK_FREEZE = false ∧ since + sTk ≤ s.clock) ∧
  (∃ (p : PortIx), ∃ (s : State), s.trimsFrozen (p.val / 128) = true) ∧
  (∃ (p : PortIx), ∃ (w : Nat), ∃ (s : State), alive (p.val / 128) s ∧ (s.port p).skWait = some w ∧ w ≤ s.clock ∧ (s.port p).skOn
    = true ∧ s.cdDown = false ∧ s.calLost = false) :=
  ⟨⟨1023, ported 1 { en := true, skOn := true }, by unfold alive; decide +kernel⟩,
  ⟨1023, ported 1 { en := true, skOn := true }, by unfold alive; decide +kernel⟩,
  ⟨1023, -1, ported 1 { en := true, trimMotion := some (-1) }, by unfold alive; decide +kernel⟩,
  ⟨0x100, 1023, 0x1000, ported, by decide +kernel⟩,
  ⟨1023, 3200000000, -4095, true, ported 1 { en := true, skOn := true, skAttempt := some (3200000000, -4095, true) },
    by unfold alive; decide +kernel⟩,
  ⟨1023, (let s := ported 1 { en := true, trimMotion := some (-1) }; s.setChip 7 { s.chip 7 with cdLost := true }),
    by decide +kernel⟩,
  ⟨1023, 6400000000, ported 1 { en := true, skOn := true, skWait := some 6400000000 }, by unfold alive; decide +kernel⟩⟩

theorem witness_EdgesComplete :
  (∃ (k : ChannelIx), ∃ (frac : BitVec 16), ∃ (s : State), (alive (chanChip k) s ∧ s.inOff k = false ∧ clearOfLast k frac.toNat s
    ∧ (s.chan k).fifo.length < 16) ∧ ((∀ j, s.measOn j (fun m => mwGate m.word != 0 && gateChan j m.word == k.val) = false))) ∧
  (∃ (k : ChannelIx), ∃ (frac : BitVec 16), ∃ (last : Nat), ∃ (s : State), alive (chanChip k) s ∧ s.inOff k = false ∧ (s.chan
    k).lastAcc = some last ∧ s.clock * 65536 + frac.toNat - last < s.ts TS_HOLDOFF.HOLDOFF k * 65536) ∧
  (∃ (k : ChannelIx), ∃ (frac : BitVec 16), ∃ (last : Nat), ∃ (s : State), alive (chanChip k) s ∧ s.inOff k = false ∧ (s.chan
    k).lastAcc = some last ∧ s.ts TS_HOLDOFF.HOLDOFF k * 65536 ≤ s.clock * 65536 + frac.toNat - last ∧ s.clock * 65536 +
    frac.toNat - last < 8 * 65536) ∧
  (∃ (k : ChannelIx), ∃ (frac : BitVec 16), ∃ (s : State), alive (chanChip k) s ∧ s.inOff k = false ∧ clearOfLast k frac.toNat s ∧
    16 ≤ (s.chan k).fifo.length) ∧
  (∃ (k : ChannelIx), ∃ (j : ChannelIx), ∃ (fall : Bool), ∃ (frac : BitVec 16), ∃ (m : Meas), ∃ (s : State), alive (chanChip k) s
    ∧ s.inOff k = false ∧ clearOfLast k frac.toNat s ∧ (s.chan k).fifo.length < 16 ∧ chanChip j = chanChip k ∧ (s.chan j).meas =
    some m ∧ mwGate m.word ≠ 0 ∧ gateChan j m.word = k.val ∧ m.openAt = none ∧ ((mwGate m.word = 2 ∨ fall = false)) ∧ m.ta *
    65536 ≤ s.edgeStamp (chanChip k) frac.toNat) :=
  ⟨⟨1279, 0, chan { lastAcc := some (6399999992 * 65536) }, by unfold clearOfLast alive; decide +kernel, fun j => by by_cases h : j
    = 1279 <;> simp [State.measOn, State.chan, chan, SMap.get, h]⟩,
  ⟨1279, 0, 6399999937 * 65536, (chan { lastAcc := some (6399999937 * 65536) }).put TS_HOLDOFF.HOLDOFF 64 159 7,
    by unfold alive; decide +kernel⟩,
  ⟨1279, 0, 6399999993 * 65536, (chan { lastAcc := some (6399999993 * 65536) }).put TS_HOLDOFF.HOLDOFF 7 159 7,
    by unfold alive; decide +kernel⟩,
  ⟨1279, 0, chan { fifo := List.replicate 16 ⟨1, true, false, 0, false⟩ }, by unfold clearOfLast alive; decide +kernel⟩,
  ⟨1279, 1023, false, 0, { word := stampWord, n := 0, tmo := 0, ta := 6400000000 },
    (let s := chan {}; { s with chans := [(1023, { meas := some { word := stampWord, n := 0, tmo := 0, ta := 6400000000 } })] }),
    by unfold clearOfLast alive; decide +kernel⟩⟩

theorem witness_SamplesComplete :
  (∃ (k : ChannelIx), ∃ (e : Edge), ∃ (es : List Edge), ∃ (s : State), alive (chanChip k) s ∧ (s.chan k).fifo = e :: es ∧ e.at_ +
    (if e.late then 1 else 0) < s.clock ∧ (s.chan k).taps = [] ∧ (s.chan k).meas = none) ∧
  (∃ (k : ChannelIx), ∃ (e : Edge), ∃ (es : List Edge), ∃ (m : Meas), ∃ (opened : Nat), ∃ (s : State), (alive (chanChip k) s ∧
    (s.chan k).fifo = e :: es ∧ e.at_ + (if e.late then 1 else 0) < s.clock ∧ (s.chan k).taps = [] ∧ (s.chan k).meas = some m ∧
    mwMode m.word = 0 ∧ m.openAt = some opened ∧ opened ≤ e.stamp ∧ m.ta * 65536 ≤ e.stamp ∧ polarity (mwStart m.word) e.fall =
    true ∧ ((m.n = 0 ∨ m.count + 1 < m.n)) ∧ m.count + 1 < 2 ^ 32 - 1) ∧ ((∀ u, m.limit = some u → e.stamp < u))) ∧
  (∃ (k : ChannelIx), ∃ (e : Edge), ∃ (es : List Edge), ∃ (m : Meas), ∃ (opened : Nat), ∃ (u : Nat), ∃ (s : State), (alive
    (chanChip k) s ∧ (s.chan k).fifo = e :: es ∧ e.at_ + (if e.late then 1 else 0) < s.clock ∧ (s.chan k).taps = [] ∧ (s.chan
    k).meas = some m ∧ mwMode m.word = 1 ∧ m.openAt = some opened ∧ opened ≤ e.stamp ∧ m.ta * 65536 ≤ e.stamp ∧ stopChan k
    m.word = k ∧ polarity (mwStart m.word) e.fall = false ∧ polarity (mwStop m.word) e.fall = true ∧ m.pendStart = some u ∧ u ≤
    e.stamp ∧ e.stamp ≤ u + 2 ^ 48 - 1 ∧ unresolved k k (e.stamp - u) = false ∧ ((m.n = 0 ∨ m.count + 1 < m.n)) ∧ m.count + 1 <
    2 ^ 32 - 1) ∧ ((∀ u, m.limit = some u → e.stamp < u))) ∧
  (∃ (k : ChannelIx), ∃ (e : Edge), ∃ (es : List Edge), ∃ (m : Meas), ∃ (opened : Nat), ∃ (s : State), (alive (chanChip k) s ∧
    (s.chan k).fifo = e :: es ∧ e.at_ + (if e.late then 1 else 0) < s.clock ∧ (s.chan k).taps = [] ∧ (s.chan k).meas = some m ∧
    mwMode m.word = 2 ∧ m.openAt = some opened ∧ opened ≤ e.stamp ∧ m.ta * 65536 ≤ e.stamp ∧ polarity (mwStart m.word) e.fall =
    true ∧ ((m.newRef = true ∨ e.ovr = true))) ∧ ((∀ u, m.limit = some u → e.stamp < u))) ∧
  (∃ (k : ChannelIx), ∃ (e : Edge), ∃ (es : List Edge), ∃ (m : Meas), ∃ (opened : Nat), ∃ (s : State), (alive (chanChip k) s ∧
    (s.chan k).fifo = e :: es ∧ e.at_ + (if e.late then 1 else 0) < s.clock ∧ (s.chan k).taps = [] ∧ (s.chan k).meas = some m ∧
    mwMode m.word = 2 ∧ m.openAt = some opened ∧ opened ≤ e.stamp ∧ m.ta * 65536 ≤ e.stamp ∧ polarity (mwStart m.word) e.fall =
    true ∧ m.newRef = false ∧ e.ovr = false ∧ m.prev ≤ e.stamp ∧ e.stamp < m.prev + 2 ^ 48 ∧ ((m.n = 0 ∨ m.count + 1 < m.n)) ∧
    m.count + 1 < 2 ^ 32 - 1) ∧ ((∀ u, m.limit = some u → e.stamp < u))) ∧
  (∃ (k : ChannelIx), ∃ (e : Edge), ∃ (es : List Edge), ∃ (m : Meas), ∃ (opened : Nat), ∃ (u : Nat), ∃ (s : State), (alive
    (chanChip k) s ∧ (s.chan k).fifo = e :: es ∧ e.at_ + (if e.late then 1 else 0) < s.clock ∧ (s.chan k).taps = [] ∧ (s.chan
    k).meas = some m ∧ mwMode m.word = 1 ∧ mwSigned m.word = true ∧ m.openAt = some opened ∧ opened ≤ e.stamp ∧ m.ta * 65536 ≤
    e.stamp ∧ stopChan k m.word ≠ k ∧ polarity (mwStart m.word) e.fall = true ∧ m.pendStop = some u ∧ u ≤ e.stamp ∧ e.stamp < u
    + 2 ^ 48 ∧ unresolved k (stopChan k m.word) (e.stamp - u) = false ∧ ((m.n = 0 ∨ m.count + 1 < m.n)) ∧ m.count + 1 < 2 ^ 32 -
    1) ∧ ((∀ u, m.limit = some u → e.stamp < u))) :=
  ⟨⟨1279, ⟨1, true, false, 0, true⟩, [⟨2, false, false, 0, false⟩], chan
    { fifo := [⟨1, true, false, 0, true⟩, ⟨2, false, false, 0, false⟩] }, by unfold alive; decide +kernel⟩,
  ⟨1279, ⟨6399999999 * 65536, false, false, 6399999999, false⟩, [],
    { word := stampWord, n := 2, tmo := 0, ta := 6399999999, openAt := some 5 }, 5, chan
    { fifo := [⟨6399999999 * 65536, false, false, 6399999999, false⟩], meas := some { word := stampWord, n := 2, tmo := 0, ta := 6399999999, openAt := some 5 } },
    by unfold alive; decide +kernel, by simp [Meas.limit]⟩,
  ⟨1279, ⟨6399999999 * 65536, true, false, 6399999999, false⟩, [],
    { word := 1 + 32 + 255 * 128 + 32768, n := 0, tmo := 0, ta := 6399999999, openAt := some 5, pendStart := some (6399999998 * 65536) },
    5, 6399999998 * 65536, chan
    { fifo := [⟨6399999999 * 65536, true, false, 6399999999, false⟩], meas := some { word := 1 + 32 + 255 * 128 + 32768, n := 0, tmo := 0, ta := 6399999999, openAt := some 5, pendStart := some (6399999998 * 65536) } },
    by unfold alive; decide +kernel, by simp [Meas.limit]⟩,
  ⟨1279, ⟨6399999999 * 65536, false, false, 6399999999, false⟩, [],
    { word := stampWord + 2, n := 2, tmo := 0, ta := 6399999999, openAt := some 5 }, 5, chan
    { fifo := [⟨6399999999 * 65536, false, false, 6399999999, false⟩], meas := some { word := stampWord + 2, n := 2, tmo := 0, ta := 6399999999, openAt := some 5 } },
    by unfold alive; decide +kernel, by simp [Meas.limit]⟩,
  ⟨1279, ⟨6399999999 * 65536, false, false, 6399999999, false⟩, [],
    { word := stampWord + 2, n := 2, tmo := 0, ta := 6399999999, openAt := some 5, newRef := false, prev := 6399999998 * 65536 },
    5, chan
    { fifo := [⟨6399999999 * 65536, false, false, 6399999999, false⟩], meas := some { word := stampWord + 2, n := 2, tmo := 0, ta := 6399999999, openAt := some 5, newRef := false, prev := 6399999998 * 65536 } },
    by unfold alive; decide +kernel, by simp [Meas.limit]⟩,
  ⟨1279, ⟨6399999999 * 65536, false, false, 6399999999, false⟩, [],
    { word := 1 + 4 + 32768, n := 2, tmo := 0, ta := 6399999999, openAt := some 5, pendStop := some (6399999998 * 65536) }, 5,
    6399999998 * 65536, chan
    { fifo := [⟨6399999999 * 65536, false, false, 6399999999, false⟩], meas := some { word := 1 + 4 + 32768, n := 2, tmo := 0, ta := 6399999999, openAt := some 5, pendStop := some (6399999998 * 65536) } },
    by unfold alive; decide +kernel, by simp [Meas.limit]⟩⟩

theorem witness_MeasurementsComplete :
  (∃ (n : ChipletIx), ∃ (a : Admitted), ∃ (k : Nat), ∃ (w : Nat), ∃ (cnt : Nat), ∃ (tmo : Nat), ∃ (s : State), alive n s ∧
    s.nextAction n = some a ∧ a.act.kind = .arm k w cnt tmo ∧ s.frozen (RegId.TSG_CFG.at (k / 8)) = false ∧ checkArm s k w tmo =
    none ∧ (s.chan k).meas = none) ∧
  (∃ (n : ChipletIx), ∃ (a : Admitted), ∃ (k : Nat), ∃ (w : Nat), ∃ (cnt : Nat), ∃ (tmo : Nat), ∃ (u : Nat), ∃ (m : Meas), ∃ (s :
    State), (alive n s ∧ s.nextAction n = some a ∧ a.act.kind = .arm k w cnt tmo ∧ s.frozen (RegId.TSG_CFG.at (k / 8)) = false ∧
    checkArm s k w tmo = none ∧ (s.chan k).meas = some m ∧ m.disAt = some u ∧ m.closing = none ∧ (s.chan k).fifo = [] ∧ (s.chan
    k).taps = []) ∧ ((∀ v, m.limit = some v → u < v))) ∧
  (∃ (n : ChipletIx), ∃ (a : Admitted), ∃ (k : Nat), ∃ (w : Nat), ∃ (cnt : Nat), ∃ (tmo : Nat), ∃ (bit : Nat), ∃ (s : State),
    alive n s ∧ s.nextAction n = some a ∧ a.act.kind = .arm k w cnt tmo ∧ s.frozen (RegId.TSG_CFG.at (k / 8)) = false ∧ checkArm
    s k w tmo = some bit) ∧
  (∃ (n : ChipletIx), ∃ (a : Admitted), ∃ (k : Nat), ∃ (m : Meas), ∃ (s : State), (alive n s ∧ s.nextAction n = some a ∧
    a.act.kind = .disarm k ∧ s.frozen (RegId.TSG_CFG.at (k / 8)) = false ∧ (s.chan k).meas = some m ∧ m.closing = none ∧ m.disAt
    = none ∧ (s.chan k).fifo = [] ∧ (s.chan k).taps = []) ∧ ((∀ u, m.limit = some u → a.due * 65536 < u))) ∧
  (∃ (o : Origin), ∃ (k : ChannelIx), ∃ (v : Word), ∃ (s : State), s.writes o .TS_CMD (k.val / 8) (k.val % 8) (withField
    (withField v 0 1 1) 1 1 0) = true) ∧
  (∃ (k : ChannelIx), ∃ (w : Nat), ∃ (n : Nat), ∃ (tmo : Nat), ∃ (s : State), (s.pending = [] ∧ s.coldHeld = false ∧ chansQuiet
    (some k.val) s ∧ linksQuiet none s ∧ replaysQuiet s ∧ pinsQuiet s ∧ banksQuiet none s ∧ (s.chan k).armPend = some (w, n,
    tmo) ∧ (s.chan k).disPend = false ∧ (s.chan k).cd = none ∧ (s.chan k).meas = none ∧ checkArm s k w tmo = none ∧ s.frozen
    (RegId.TSG_CFG.at (k.val / 8)) = false ∧ s.armDue k ({ s with clock := s.clock + 1 }.count (chanChip k)) = false) ∧
    enginesQuiet none s) ∧
  (∃ (o : Origin), ∃ (k : ChannelIx), ∃ (v : Word), ∃ (s : State), s.writes o .TS_CMD (k.val / 8) (k.val % 8) (withField
    (withField v 0 1 0) 1 1 1) = true) ∧
  (∃ (k : ChannelIx), ∃ (m : Meas), ∃ (s : State), (s.pending = [] ∧ s.coldHeld = false ∧ chansQuiet (some k.val) s ∧ linksQuiet
    none s ∧ replaysQuiet s ∧ pinsQuiet s ∧ banksQuiet none s ∧ (s.chan k).disPend = true ∧ (s.chan k).armPend = none ∧ (s.chan
    k).meas = some m ∧ m.closing = none ∧ m.disAt = none ∧ s.frozen (RegId.TSG_CFG.at (k.val / 8)) = false) ∧ enginesQuiet none
    s) ∧
  (∃ (k : ChannelIx), ∃ (m : Meas), ∃ (u : Nat), ∃ (s : State), (s.pending = [] ∧ s.coldHeld = false ∧ chansQuiet (some k.val) s ∧
    linksQuiet none s ∧ replaysQuiet s ∧ pinsQuiet s ∧ banksQuiet none s ∧ (s.chan k).disPend = false ∧ (s.chan k).armPend =
    none ∧ (s.chan k).meas = some m ∧ m.closing = none ∧ m.disAt = some u ∧ (s.chan k).fifo = [] ∧ (s.chan k).taps = []) ∧
    enginesQuiet none s ∧ ((∀ v, m.limit = some v → u < v))) ∧
  (∃ (k : ChannelIx), ∃ (m : Meas), ∃ (s : State), alive (chanChip k) s ∧ (s.chan k).meas = some m ∧ m.tmo ≠ 0 ∧ m.closing = none
    ∧ m.disAt = none ∧ m.ta + 64 * m.tmo ≤ s.count (chanChip k) ∧ (s.chan k).fifo = [] ∧ (s.chan k).taps = []) ∧
  (∃ (k : ChannelIx), ∃ (r : List Byte), ∃ (rest : List (List Byte)), ∃ (s : State), alive (chanChip k) s ∧ (s.chan k).results = r
    :: rest ∧ s.cdDown = false ∧ s.bankLost 13 = false) :=
  ⟨⟨7, adm (.arm 1279 stampWord 0xFFFFFFFF 0), 1279, stampWord, 0xFFFFFFFF, 0, admitted (adm (.arm 1279 stampWord 0xFFFFFFFF 0))
    (ringed 0 (chan {})), by unfold alive; decide +kernel⟩,
  ⟨7, adm (.arm 1279 stampWord 0xFFFFFFFF 0), 1279, stampWord, 0xFFFFFFFF, 0, 6400000000 * 65536,
    { word := stampWord, n := 0, tmo := 0, ta := 6399999936, disAt := some (6400000000 * 65536) }, admitted (adm (.arm 1279
    stampWord 0xFFFFFFFF 0)) (ringed 0 (chan
    { meas := some { word := stampWord, n := 0, tmo := 0, ta := 6399999936, disAt := some (6400000000 * 65536) } })),
    by unfold alive; decide +kernel, by simp [Meas.limit]⟩,
  ⟨7, adm (.arm 1279 stampWord 0xFFFFFFFF 0), 1279, stampWord, 0xFFFFFFFF, 0, 3, admitted (adm (.arm 1279 stampWord 0xFFFFFFFF 0))
    (chan {}), by unfold alive; decide +kernel⟩,
  ⟨7, adm (.disarm 1279), 1279, { word := stampWord, n := 0, tmo := 0, ta := 0 }, admitted (adm (.disarm 1279)) (chan
    { meas := some { word := stampWord, n := 0, tmo := 0, ta := 0 } }), by unfold alive; decide +kernel, by simp [Meas.limit]⟩,
  ⟨0x100, 1279, 1, chan {}, by decide +kernel⟩,
  ⟨1279, stampWord, 7, 0, ringed 0 (chan { armPend := some (stampWord, 7, 0) }),
    by unfold chansQuiet linksQuiet pinsQuiet replaysQuiet banksQuiet; decide +kernel, enginesQuiet_of (by decide +kernel)⟩,
  ⟨0x100, 1279, 2, chan {}, by decide +kernel⟩,
  ⟨1279, { word := stampWord, n := 0, tmo := 0, ta := 6399999936 }, chan
    { meas := some { word := stampWord, n := 0, tmo := 0, ta := 6399999936 }, disPend := true },
    by unfold chansQuiet linksQuiet pinsQuiet replaysQuiet banksQuiet; decide +kernel, enginesQuiet_of (by decide +kernel)⟩,
  ⟨1279, { word := stampWord, n := 0, tmo := 0, ta := 6399999936, disAt := some (6400000000 * 65536) }, 6400000000 * 65536, chan
    { meas := some { word := stampWord, n := 0, tmo := 0, ta := 6399999936, disAt := some (6400000000 * 65536) } },
    by unfold chansQuiet linksQuiet pinsQuiet replaysQuiet banksQuiet; decide +kernel, enginesQuiet_of (by decide +kernel),
    by simp [Meas.limit]⟩,
  ⟨1279, { word := stampWord, n := 0, tmo := 1, ta := 6399999936 }, chan
    { meas := some { word := stampWord, n := 0, tmo := 1, ta := 6399999936 } }, by unfold alive; decide +kernel⟩,
  ⟨1279, List.replicate 64 0xA5, [[]], chan { results := [List.replicate 64 0xA5, []] }, by unfold alive; decide +kernel⟩⟩

theorem witness_RingsComplete :
  (∃ (k : ChannelIx), ∃ (r : Rec), ∃ (rest : List Rec), ∃ (s : State), alive (chanChip k) s ∧ (s.chan k).buf = r :: rest ∧
    s.cdDown = false ∧ s.get RING_CFG.EN r.ring = 1 ∧ s.ringFull r.ring = false ∧ s.bankLost (bankOf (s.ringAddr r.ring (s.get
    RING_WR.WR r.ring))) = false) ∧
  (∃ (k : ChannelIx), ∃ (r : Rec), ∃ (rest : List Rec), ∃ (s : State), alive (chanChip k) s ∧ (s.chan k).buf = r :: rest ∧
    s.cdDown = false ∧ s.get RING_CFG.EN r.ring = 1 ∧ s.ringFull r.ring = true) ∧
  (∃ (o : Origin), ∃ (r : RingIx), ∃ (v : Word), ∃ (s : State), s.writes o .RING_CFG r 0 v = true ∧ s.ringNamed r = false ∧
    fieldOf v 10 10 ≠ 0 ∧ fieldOf v 20 1 = 1 ∧ fieldOf v 0 10 + fieldOf v 10 10 ≤ 748 ∧ ((∀ q, q < 32 → q ≠ r.val → s.isSet
    RING_CFG.EN q = true → s.get RING_CFG.BASE q + s.get RING_CFG.SIZE q ≤ fieldOf v 0 10 ∨ fieldOf v 0 10 + fieldOf v 10 10 ≤
    s.get RING_CFG.BASE q))) ∧
  (∃ (o : Origin), ∃ (r : RingIx), ∃ (v : Word), ∃ (s : State), s.writes o .RING_CFG r 0 v = true ∧ ((s.ringNamed r = true ∨
    (fieldOf v 20 1 = 1 ∧ 748 < fieldOf v 0 10 + fieldOf v 10 10)))) ∧
  (∃ (o : Origin), ∃ (r : RingIx), ∃ (v : Word), ∃ (s : State), s.writes o .RING_REL r 0 v = true ∧ fieldOf v 0 18 ≤ s.get
    RING_STAT.LEVEL r ∧ 0 < s.get RING_CFG.SIZE r) ∧
  (∃ (o : Origin), ∃ (r : RingIx), ∃ (v : Word), ∃ (s : State), s.writes o .RING_REL r 0 v = true ∧ s.get RING_STAT.LEVEL r <
    fieldOf v 0 18) :=
  ⟨⟨1279, { ring := 31, kind := 0, payload := 0xFFFFFFFFFFFFFFFF, frac := 0xFFFF }, [], (ringed 255 (chan
    { buf := [{ ring := 31, kind := 0, payload := 0xFFFFFFFFFFFFFFFF, frac := 0xFFFF }] })).put RING_WR.WR 255 31,
    by unfold alive; decide +kernel⟩,
  ⟨1279, { ring := 31, kind := 0, payload := 0xFFFFFFFFFFFFFFFF, frac := 0xFFFF }, [], ringed 256 (chan
    { buf := [{ ring := 31, kind := 0, payload := 0xFFFFFFFFFFFFFFFF, frac := 0xFFFF }] }), by unfold alive; decide +kernel⟩,
  ⟨0x100, 31, 747 + 1024 + 0x100000, up, by decide +kernel⟩,
  ⟨0x100, 31, 747 + 2048 + 0x100000, up, by decide +kernel⟩,
  ⟨0x100, 31, 256, ringed 256 up, by decide +kernel⟩,
  ⟨0x100, 31, 257, ringed 256 up, by decide +kernel⟩⟩

theorem witness_CodeDensityCompletes :
  (∃ (k : ChannelIx), ∃ (codes : Nat), ∃ (most : Nat), ∃ (r : CdRun), ∃ (s : State), alive (chanChip k) s ∧ (s.chan k).cd = some r
    ∧ r.synced = false ∧ s.cdDown = false ∧ 960 ≤ codes ∧ most ≤ 16384) ∧
  (∃ (k : ChannelIx), ∃ (codes : Nat), ∃ (most : Nat), ∃ (r : CdRun), ∃ (s : State), alive (chanChip k) s ∧ (s.chan k).cd = some r
    ∧ r.synced = false ∧ s.cdDown = false ∧ ((codes < 960 ∨ 16384 < most))) ∧
  (∃ (k : ChannelIx), ∃ (a : List Nat), ∃ (b : List Nat), ∃ (r : CdRun), ∃ (s : State), alive (chanChip k) s ∧ (s.chan k).cd =
    some r ∧ r.synced = true ∧ (s.chan k).meas = none ∧ s.anyBad 0x01D00000 0x00100000 = false ∧ s.cdDown = false ∧ (s.chip
    (chanChip k)).cdLost = false ∧ s.calLost = false ∧ a.length = 128 ∧ tablesAgree a b = true) ∧
  (∃ (k : ChannelIx), ∃ (r : CdRun), ∃ (s : State), alive (chanChip k) s ∧ (s.chan k).cd = some r ∧ s.cdDown = false ∧ r.since +
    (if s.cdExt k then 2 * sTk else 200 * msTk) ≤ s.clock) :=
  ⟨⟨1279, 960, 16384, ⟨true, 6399000000, false⟩, chan { cd := some ⟨true, 6399000000, false⟩ }, by unfold alive; decide +kernel⟩,
  ⟨1279, 959, 0, ⟨true, 6399000000, false⟩, chan { cd := some ⟨true, 6399000000, false⟩ }, by unfold alive; decide +kernel⟩,
  ⟨1279, List.replicate 128 5, List.replicate 128 5, ⟨false, 6399000000, true⟩, chan { cd := some ⟨false, 6399000000, true⟩ },
    by unfold alive; decide +kernel⟩,
  ⟨1279, ⟨true, 0, true⟩, chan { cd := some ⟨true, 0, true⟩ }, by unfold alive; decide +kernel⟩⟩

theorem witness_DispatchCompletes :
  (∃ (q : QueueIx), ∃ (e : EngineIx), ∃ (i : Item), ∃ (s : State), s.coldHeld = false ∧ s.cdDown = false ∧ s.eligible q = some i ∧
    s.item q i.seq = some i ∧ s.engState e = esIdle ∧ s.isOwner q e = true ∧ (((s.waitedFor e = [] ∧ s.idleOwner q = some e.val)
    ∨ s.ownPick e = some q.val))) ∧
  (∃ (q : QueueIx), ∃ (e : EngineIx), ∃ (i : Item), ∃ (s : State), s.coldHeld = false ∧ s.cdDown = false ∧ s.eligible q = some i ∧
    s.item q i.seq = some i ∧ s.engState e = esIdle ∧ s.isSet ENG_CFG.STEAL_EN e = true ∧ s.ownReady e = [] ∧ s.stealable q =
    true ∧ ((∀ r ∈ s.readyQueues, s.stealable r = true → r = q.val ∨ s.stealBefore q r = true))) :=
  ⟨⟨32766, 255, { seq := 1, size := 16 }, (((((up.put QD_CTRL.EN 1 32766).put QD_LEN.LEN 4 32766).put QD_STAT.LEVEL 1
    32766).setQueue 32766 { nextSeq := 2, items := [{ seq := 1, size := 16 }] })).put QD_AFF.AFF 0x80000000 32766 7,
    by decide +kernel⟩,
  ⟨32766, 255, { seq := 1, size := 16 }, (((((up.put QD_CTRL.EN 1 32766).put QD_LEN.LEN 4 32766).put QD_STAT.LEVEL 1
    32766).setQueue 32766 { nextSeq := 2, items := [{ seq := 1, size := 16 }] })).put ENG_CFG.STEAL_EN 1 255, by decide +kernel⟩⟩

theorem witness_DescriptorWritesComplete :
  (∃ (o : Origin), ∃ (q : QueueIx), ∃ (v : Word), ∃ (s : State), s.writes o .QD_CTRL q 0 (withField v 0 1 1) = true ∧ q.val ≠
    quarQ ∧ s.get QD_CTRL.EN q = 0 ∧ fieldOf v 15 1 = 0 ∧ enableCheck s q (withField v 0 1 1) = none ∧ s.get QD_LEN.LEN q % 2 ^
    fieldOf v 2 2 = 0 ∧ (s.get QD_LEN.LEN q + 63) / 64 ≤ (s.freeBlocks 0).length) ∧
  (∃ (o : Origin), ∃ (q : QueueIx), ∃ (v : Word), ∃ (s : State), s.writes o .QD_CTRL q 0 (withField v 0 1 1) = true ∧ q.val ≠
    quarQ ∧ s.get QD_CTRL.EN q = 0 ∧ fieldOf v 2 2 ≠ 3 ∧ s.get QD_LEN.LEN q = 0) ∧
  (∃ (o : Origin), ∃ (q : QueueIx), ∃ (v : Word), ∃ (s : State), s.writes o .QD_CTRL q 0 (withField v 0 1 0) = true ∧ q.val ≠
    quarQ ∧ s.get QD_CTRL.EN q = 1 ∧ s.get QD_STAT.LEVEL q = 0) ∧
  (∃ (o : Origin), ∃ (q : QueueIx), ∃ (v : Word), ∃ (s : State), s.writes o .QD_CTRL q 0 (withField v 0 1 0) = true ∧ q.val ≠
    quarQ ∧ s.get QD_CTRL.EN q = 1 ∧ s.get QD_STAT.LEVEL q ≠ 0 ∧ fieldOf v 14 1 = 0) ∧
  (∃ (o : Origin), ∃ (q : QueueIx), ∃ (v : Word), ∃ (s : State), s.writes o .QD_CTRL q 0 (withField v 15 1 1) = true) ∧
  (∃ (o : Origin), ∃ (q : QueueIx), ∃ (v : Word), ∃ (s : State), s.writes o .QD_ENTRY q 0 v = true) ∧
  (∃ (o : Origin), ∃ (q : QueueIx), ∃ (v : Word), ∃ (s : State), s.writes o .QD_ARG q 0 v = true) ∧
  (∃ (o : Origin), ∃ (q : QueueIx), ∃ (w : Fin 8), ∃ (v : Word), ∃ (s : State), s.writes o .QD_AFF q w v = true) ∧
  (∃ (o : Origin), ∃ (q : QueueIx), ∃ (v : Word), ∃ (s : State), s.writes o .QD_LEN q 0 v = true ∧ q.val ≠ quarQ ∧ s.get
    QD_CTRL.EN q = 0) ∧
  (∃ (o : Origin), ∃ (q : QueueIx), ∃ (v : Word), ∃ (s : State), s.writes o .QD_LEN q 0 v = true ∧ q.val ≠ quarQ ∧ s.get
    QD_CTRL.EN q = 1 ∧ s.get QD_LEN.LEN q ≠ fieldOf v 0 20) ∧
  (∃ (o : Origin), ∃ (q : QueueIx), ∃ (v : Word), ∃ (s : State), s.writes o .QD_CTRL q 0 (withField (withField v 0 1 (s.get
    QD_CTRL.EN q)) 15 1 0) = true) :=
  ⟨⟨0x100, 32766, 0x41, (up.put QD_LEN.LEN 65 32766).put QD_AFF.AFF 1 32766 0, by decide +kernel⟩,
  ⟨0x100, 32766, 0x01, up, by decide +kernel⟩,
  ⟨0x100, 32766, 0, up.put QD_CTRL.EN 1 32766, by decide +kernel⟩,
  ⟨0x100, 32766, 0, ((((up.put QD_CTRL.EN 1 32766).put QD_LEN.LEN 4 32766).put QD_STAT.LEVEL 1 32766).setQueue 32766
    { nextSeq := 2, items := [{ seq := 1, size := 16 }] }), by decide +kernel⟩,
  ⟨0x100, 32766, 0x8000, (up.put QD_STAT.STOPPED 1 32766), by decide +kernel⟩,
  ⟨0x100, 32766, 0xFFFFFF, up, by decide +kernel⟩,
  ⟨0x100, 32766, 0xFFFFFFFF, up, by decide +kernel⟩,
  ⟨0x100, 32766, 7, 0xFFFFFFFF, up, by decide +kernel⟩,
  ⟨0x100, 32766, 0xFFFFF, up, by decide +kernel⟩,
  ⟨0x100, 32766, 5, ((((up.put QD_CTRL.EN 1 32766).put QD_LEN.LEN 4 32766).put QD_STAT.LEVEL 1 32766).setQueue 32766
    { nextSeq := 2, items := [{ seq := 1, size := 16 }] }), by decide +kernel⟩,
  ⟨0x100, 32766, 1, ((((up.put QD_CTRL.EN 1 32766).put QD_LEN.LEN 4 32766).put QD_STAT.LEVEL 1 32766).setQueue 32766
    { nextSeq := 2, items := [{ seq := 1, size := 16 }] }), by decide +kernel⟩⟩

theorem witness_ItemsComplete :
  (∃ (q : QueueIx), ∃ (seq : BitVec 48), ∃ (i : Item), ∃ (s : State), s.coldHeld = false ∧ s.cdDown = false ∧ s.item q seq.toNat =
    some i ∧ i.st = .ended ∧ i.out = 0 ∧ i.recs = [] ∧ s.verdictDue q seq.toNat = false ∧ i.mseq = none ∧ s.isSet QD_CTRL.CQ_EN
    q = false) ∧
  (∃ (q : QueueIx), ∃ (seq : BitVec 48), ∃ (i : Item), ∃ (cq : Nat), ∃ (s : State), s.coldHeld = false ∧ s.cdDown = false ∧ s.item
    q seq.toNat = some i ∧ i.st = .ended ∧ i.out = 0 ∧ i.recs = [] ∧ s.verdictDue q seq.toNat = false ∧ i.mseq = none ∧ i.cmpl =
    false ∧ s.isSet QD_CTRL.CQ_EN q = true ∧ s.get QD_CTRL.CQ q = cq ∧ cq ≠ q.val ∧ s.cqUsable cq = true ∧ s.cqFull cq = false) ∧
  (∃ (q : QueueIx), ∃ (seq : BitVec 48), ∃ (i : Item), ∃ (s : State), s.coldHeld = false ∧ s.cdDown = false ∧ s.item q seq.toNat =
    some i ∧ i.st = .ended ∧ i.out = 0 ∧ i.recs = [] ∧ s.verdictDue q seq.toNat = false ∧ i.mseq = none ∧ i.cmpl = false ∧
    s.isSet QD_CTRL.CQ_EN q = true ∧ s.cqUsable (s.get QD_CTRL.CQ q) = false) ∧
  (∃ (q : QueueIx), ∃ (seq : BitVec 48), ∃ (i : Item), ∃ (fault : Nat), ∃ (e : Nat), ∃ (s : State), s.coldHeld = false ∧ s.cdDown
    = false ∧ s.item q seq.toNat = some i ∧ i.st = .quarWait fault e ∧ s.quarRoom = true ∧ q.val ≠ quarQ) ∧
  (∃ (q : QueueIx), ∃ (seq : BitVec 48), ∃ (i : Item), ∃ (due : Nat), ∃ (s : State), s.coldHeld = false ∧ s.item q seq.toNat =
    some i ∧ i.st = .yielded due ∧ due ≤ s.clock) :=
  ⟨⟨32766, 7, { seq := 7, st := .ended, code := 63 }, ((((((up.put QD_CTRL.EN 1 32766).put QD_LEN.LEN 4 32766).put QD_STAT.LEVEL 1
    32766).setQueue 32766 { nextSeq := 2, items := [{ seq := 1, size := 16 }] })).setQueue 32766
    { nextSeq := 8, items := [{ seq := 7, st := .ended, code := 63 }] }), by decide +kernel⟩,
  ⟨32766, 7, { seq := 7, st := .ended, code := 63 }, 9, (((((((((((((up.put QD_CTRL.EN 1 32766).put QD_LEN.LEN 4 32766).put
    QD_STAT.LEVEL 1 32766).setQueue 32766 { nextSeq := 2, items := [{ seq := 1, size := 16 }] })).setQueue 32766
    { nextSeq := 8, items := [{ seq := 7, st := .ended, code := 63 }] })).put QD_CTRL.CQ_EN 1 32766).put QD_CTRL.CQ 9
    32766)).put QD_CTRL.EN 1 9).put QD_CTRL.ITEM_SZ 1 9).put QD_LEN.LEN 2 9).setQueue 9 { nextSeq := 1, blocks := [3] },
    by decide +kernel⟩,
  ⟨32766, 7, { seq := 7, st := .ended, code := 63 }, (((((((((up.put QD_CTRL.EN 1 32766).put QD_LEN.LEN 4 32766).put QD_STAT.LEVEL
    1 32766).setQueue 32766 { nextSeq := 2, items := [{ seq := 1, size := 16 }] })).setQueue 32766
    { nextSeq := 8, items := [{ seq := 7, st := .ended, code := 63 }] })).put QD_CTRL.CQ_EN 1 32766).put QD_CTRL.CQ 9 32766),
    by decide +kernel⟩,
  ⟨32766, 7, { seq := 7, st := .quarWait 14 255, fcnt := 3 }, 14, 255, (((((((up.put QD_CTRL.EN 1 32766).put QD_LEN.LEN 4
    32766).put QD_STAT.LEVEL 1 32766).setQueue 32766 { nextSeq := 2, items := [{ seq := 1, size := 16 }] })).put QD_LEN.LEN 64
    32767).put QD_CTRL.EN 1 32767).setQueue 32766 { nextSeq := 8, items := [{ seq := 7, st := .quarWait 14 255, fcnt := 3 }] },
    by decide +kernel⟩,
  ⟨32766, 7, { seq := 7, st := .yielded 6400000000 }, 6400000000, (((((up.put QD_CTRL.EN 1 32766).put QD_LEN.LEN 4 32766).put
    QD_STAT.LEVEL 1 32766).setQueue 32766 { nextSeq := 2, items := [{ seq := 1, size := 16 }] })).setQueue 32766
    { nextSeq := 8, items := [{ seq := 7, st := .yielded 6400000000 }] }, by decide +kernel⟩⟩

theorem witness_EngineServiceCompletes :
  (∃ (e : EngineIx), ∃ (q : Nat), ∃ (n : Nat), ∃ (i : Item), ∃ (s : State), s.coldHeld = false ∧ s.cdDown = false ∧ (s.eng e).held
    = some (q, n) ∧ s.get ENG_WDOG.WDOG_US e ≠ 0 ∧ (s.eng e).since + s.get ENG_WDOG.WDOG_US e * usTk ≤ s.clock ∧ s.item q n =
    some i ∧ i.fcnt < 2) ∧
  (∃ (e : EngineIx), ∃ (q : Nat), ∃ (n : Nat), ∃ (i : Item), ∃ (s : State), s.coldHeld = false ∧ s.cdDown = false ∧ (s.eng e).held
    = some (q, n) ∧ s.get ENG_WDOG.WDOG_US e ≠ 0 ∧ (s.eng e).since + s.get ENG_WDOG.WDOG_US e * usTk ≤ s.clock ∧ s.item q n =
    some i ∧ i.fcnt = 2 ∧ q ≠ quarQ ∧ s.quarRoom = true) ∧
  (∃ (e : EngineIx), ∃ (q : Nat), ∃ (n : Nat), ∃ (i : Item), ∃ (s : State), s.coldHeld = false ∧ s.cdDown = false ∧ (s.eng e).held
    = some (q, n) ∧ s.get ENG_WDOG.WDOG_US e ≠ 0 ∧ (s.eng e).since + s.get ENG_WDOG.WDOG_US e * usTk ≤ s.clock ∧ s.item q n =
    some i ∧ i.fcnt = 2 ∧ s.quarRoom = false) ∧
  (∃ (e : EngineIx), ∃ (s : State), s.coldHeld = false ∧ s.cdDown = false ∧ s.engState e ≠ esFailed) ∧
  (∃ (e : EngineIx), ∃ (s : State), s.coldHeld = false ∧ s.cdDown = true ∧ s.engState e ≠ esFailed ∧ (2, e.val) ∉ s.lossFaults) ∧
  (∃ (o : Origin), ∃ (e : EngineIx), ∃ (v : Word), ∃ (s : State), s.writes o .ENG_CMD e 0 (withField v 0 1 1) = true) ∧
  (∃ (o : Origin), ∃ (e : EngineIx), ∃ (v : Word), ∃ (s : State), s.writes o .ENG_CFG e 0 v = true) ∧
  (∃ (pct : Fin 101), ∃ (s : State), s.coldHeld = false ∧ s.cdDown = false ∧ s.timer tmLoad ≤ s.clock ∧ s.loadIs pct = true) :=
  ⟨⟨255, 5, 1, it, (let s := (runs []).put ENG_WDOG.WDOG_US 1000000 255; s.setEng 255 { s.eng 255 with since := 3200000000 }),
    by decide +kernel⟩,
  ⟨255, 5, 1, it2, (let s := (twice 8 (runs [])).put ENG_WDOG.WDOG_US 1000000 255; s.setEng 255
    { s.eng 255 with since := 3200000000 }), by decide +kernel⟩,
  ⟨255, 5, 1, it2, (let s := (twice 0 (runs [])).put ENG_WDOG.WDOG_US 1000000 255; s.setEng 255
    { s.eng 255 with since := 3200000000 }), by decide +kernel⟩,
  ⟨255, runs [], by decide +kernel⟩,
  ⟨255, { runs [] with warm := true }, by decide +kernel⟩,
  ⟨0x100, 255, 1, up, by decide +kernel⟩,
  ⟨0x100, 255, 0, up, by decide +kernel⟩,
  ⟨1, runs [], by decide +kernel⟩⟩

theorem witness_ExecuteInPlaceCompletes :
  (∃ (o : Origin), ∃ (v : Word), ∃ (s : State), s.writes o .XIP_CACHE 0 0 (withField v 1 1 1) = true) ∧
  (∃ (line : Nat), ∃ (t0 : Nat), ∃ (rest : List (Nat × Nat)), ∃ (s : State), s.coldHeld = false ∧ s.xip.misses = (line, t0) ::
    rest ∧ s.fillReady = true ∧ s.cdDown = false) ∧
  (∃ (line : Nat), ∃ (s : State), s.coldHeld = false ∧ s.xip.filling = some line ∧ s.cdDown = false ∧ s.sm.fillAt + s.frameTicks
    (s.fillFrame line) ≤ s.clock ∧ s.xip.drop = false ∧ s.isSet XIP_CACHE.EN = true) ∧
  (∃ (line : Nat), ∃ (t0 : Nat), ∃ (rest : List (Nat × Nat)), ∃ (s : State), s.coldHeld = false ∧ s.cdDown = false ∧ s.xipSet =
    true ∧ s.xip.misses = (line, t0) :: rest ∧ t0 + usTk * s.get SM_XIP_TMO.TMO_US ≤ s.clock) :=
  ⟨⟨0x100, 1, up, by decide +kernel⟩,
  ⟨0, 6399999999, [],
    { (((up).put SM_XIP.EN 1).put XIP_CACHE.EN 1) with sm := { up.sm with cfg := 0x100D }, xip := { misses := [(0, 6399999999)] } },
    by decide +kernel⟩,
  ⟨0xFFFFC0,
    { (((up).put SM_XIP.EN 1).put XIP_CACHE.EN 1) with sm := { up.sm with cfg := 0x100D, fillAt := 6399900000 }, xip := { filling := some 0xFFFFC0 } },
    by decide +kernel⟩,
  ⟨0, 6000000000, [],
    { (((up).put SM_XIP.EN 1).put XIP_CACHE.EN 1) with sm := { up.sm with cfg := 0x100D }, xip := { misses := [(0, 6000000000)] } },
    by decide +kernel⟩⟩

theorem witness_SerialMasterCompletes :
  (∃ (o : Origin), ∃ (v : Word), ∃ (s : State), s.writes o .SM_CMD 0 0 (withField v 0 1 1) = true ∧ s.isSet SM_STAT.BUSY = false ∧
    s.smRefused = none) ∧
  (∃ (o : Origin), ∃ (v : Word), ∃ (code : Nat), ∃ (s : State), s.writes o .SM_CMD 0 0 (withField v 0 1 1) = true ∧ s.isSet
    SM_STAT.BUSY = false ∧ s.smRefused = some code) ∧
  (∃ (f : SmFrame), ∃ (s : State), s.coldHeld = false ∧ s.sm.frame = some f ∧ f.running = none ∧ s.busFree = true ∧ s.fillWaits =
    false ∧ s.cdDown = false ∧ ((∀ h ∈ s.sm.held, h.frame = true)) ∧ ((∀ w, s.sm.pinsAt = some w → w + 64 ≤ s.clock)) ∧
    ((f.hwsel = true → s.selRested f.sel = true))) ∧
  (∃ (f : SmFrame), ∃ (start : Nat), ∃ (s : State), s.coldHeld = false ∧ s.sm.frame = some f ∧ f.running = some start ∧ start +
    s.frameTicks f ≤ s.clock ∧ s.cdDown = false ∧ f.len ≤ 512 ∧ (((s.xip.misses = [] ∧ s.xip.filling = none) ∨ s.xipSetNext =
    true))) ∧
  (∃ (f : SmFrame), ∃ (start : Nat), ∃ (s : State), s.coldHeld = false ∧ s.sm.frame = some f ∧ f.running = some start ∧ start +
    s.frameTicks f ≤ s.clock ∧ s.cdDown = false ∧ s.xip.misses ≠ [] ∧ s.xipSetNext = false) ∧
  (∃ (o : Origin), ∃ (v : Word), ∃ (s : State), s.writes o .SM_GPIO 0 0 v = true ∧ s.sm.frame = none ∧ s.busFree = true ∧
    s.sm.held = []) ∧
  (∃ (o : Origin), ∃ (v : Word), ∃ (s : State), s.writes o .SM_GPIO 0 0 v = true ∧ (s.busFree = false ∨ s.sm.held ≠ [])) :=
  ⟨⟨0x100, 1, (up.put SM_CFG.EN 1), by decide +kernel⟩,
  ⟨0x100, 1, 1, up, by decide +kernel⟩,
  ⟨{ frm0 := 0x10001, frm1 := 0, frm2 := 0x1002, buf := [], o := 0x100 },
    { (up.put SM_STAT.BUSY 1) with sm := { frame := some { frm0 := 0x10001, frm1 := 0, frm2 := 0x1002, buf := [], o := 0x100 } } },
    by decide +kernel⟩,
  ⟨{ frm0 := 0x10001, frm1 := 0, frm2 := 0x1002, buf := [], o := 0x100, running := some 6399000000 }, 6399000000,
    { (up.put SM_STAT.BUSY 1) with sm := { frame := some { frm0 := 0x10001, frm1 := 0, frm2 := 0x1002, buf := [], o := 0x100, running := some 6399000000 } } },
    by decide +kernel⟩,
  ⟨{ frm0 := 0x10001, frm1 := 0, frm2 := 0x1002, buf := [], o := 0x100, running := some 6399000000 }, 6399000000,
    { (up.put SM_STAT.BUSY 1) with sm := { frame := some { frm0 := 0x10001, frm1 := 0, frm2 := 0x1002, buf := [], o := 0x100, running := some 6399000000 } }, xip := { misses := [(0xFFFFC0, 6399000000)] } },
    by decide +kernel⟩,
  ⟨0x100, 0, up, by decide +kernel⟩,
  ⟨0x100, 0,
    { (up.put SM_STAT.BUSY 1) with sm := { frame := some { frm0 := 0x10001, frm1 := 0, frm2 := 0x1002, buf := [], o := 0x100, running := some 6399000000 } } },
    by decide +kernel⟩⟩

theorem witness_CalibrationRunsComplete :
  (∃ (m : Fin 6), ∃ (x : Nat), ∃ (s : State), s.coldHeld = false ∧ s.cdDown = false ∧ s.calLost = false ∧ m.val < 2 ∧ x < 128 ∧
    ((m = 0 → s.isSet SOR_CTRL.LMS_EN = true)) ∧ ((m = 1 → s.isSet SOR_CTRL.DTC_EN = true)) ∧ s.trimRequired (x / 2) (x % 2) (m
    == 1) = true ∧ ((s.half (x / 2) (x % 2)).inst (m == 1)).run = none ∧ (s.half (x / 2) (x % 2)).committed.converged (m == 1)
    (s.actSel (x / 2) (x % 2)) = false ∧ s.chipLost (x / 16) = false) ∧
  (∃ (x : Nat), ∃ (s : State), s.coldHeld = false ∧ s.cdDown = false ∧ s.calLost = false ∧ x < 1280 ∧ s.isSet SOR_CTRL.CD_EN =
    true ∧ (s.chan x).cd = none ∧ (s.chan x).cdTable = none ∧ s.chipLost (chanChip x) = false ∧ s.chanTaken x = false ∧ s.cdExt
    x = false ∧ s.oscElsewhere x = false) ∧
  (∃ (x : Nat), ∃ (s : State), s.coldHeld = false ∧ s.cdDown = false ∧ s.calLost = false ∧ x < 16 ∧ s.isSet SOR_CTRL.CDLY_EN =
    true ∧ s.linkTimed x = true ∧ (s.cdly x).run = none ∧ s.get CDLY_STAT.ST x ≠ 3) ∧
  (∃ (o : Origin), ∃ (v : Word), ∃ (s : State), s.writes o .SOR_REQ 0 0 (withField v 14 1 1) = true ∧ s.isSet SOR_REQ.GO = false ∧
    fieldOf v 0 3 = 4 ∧ fieldOf v 3 11 < 16 ∧ s.chipLost (fieldOf v 3 11 / 2) = false ∧ s.linkTimed (fieldOf v 3 11) = true ∧
    (s.cdly (fieldOf v 3 11)).run = none) ∧
  (∃ (o : Origin), ∃ (v : Word), ∃ (s : State), s.writes o .SOR_REQ 0 0 (withField v 14 1 1) = true ∧ s.isSet SOR_REQ.GO = false ∧
    ((5 ≤ fieldOf v 0 3 ∨ machTargets (fieldOf v 0 3) ≤ fieldOf v 3 11))) ∧
  (∃ (o : Origin), ∃ (v : Word), ∃ (s : State), s.writes o .SOR_REQ 0 0 (withField v 14 1 1) = true ∧ s.isSet SOR_REQ.GO = true ∧
    fieldOf v 0 3 < 5 ∧ fieldOf v 3 11 < machTargets (fieldOf v 0 3)) ∧
  (∃ (l : LinkIx), ∃ (r : CdlyRun), ∃ (s : State), alive (linkChip l) s ∧ (s.cdly l).run = some r ∧ s.cdDown = false ∧ r.since +
    500 * msTk ≤ s.clock ∧ s.linkState l ≠ lsCdly) ∧
  (∃ (o : Origin), ∃ (l : LinkIx), ∃ (v : Word), ∃ (s : State), s.writes o .CDLY_HI l 0 v = true ∧ (s.cdly l).run = none) ∧
  (∃ (o : Origin), ∃ (v : Word), ∃ (s : State), s.writes o .SOR_CTRL 0 0 v = true) :=
  ⟨⟨1, 127, ((((up.put CORE_CTRL.A_PWR 1 63).put CORE_CTRL.B_PWR 1 63).put HALF_STAT.ACT_MODE 1 63 1).put HALF_STAT.ACT_ORDER 1 63
    1).put SOR_CTRL.DTC_EN 1, by decide +kernel⟩,
  ⟨1279, up.put SOR_CTRL.CD_EN 1, by decide +kernel⟩,
  ⟨15, (linked lsUp 2).put SOR_CTRL.CDLY_EN 1, by decide +kernel⟩,
  ⟨0x100, 124, linked lsCdly 1, by decide +kernel⟩,
  ⟨0x100, 2045, up, by decide +kernel⟩,
  ⟨0x100, 8, up.put SOR_REQ.GO 1, by decide +kernel⟩,
  ⟨15, { requested := true, since := 3200000000 }, (linked lsUp 2).setCdly 15
    { run := some { requested := true, since := 3200000000 } }, by unfold alive; decide +kernel⟩,
  ⟨0x100, 15, 0xFFFF, up, by decide +kernel⟩,
  ⟨0x100, 0, up, by decide +kernel⟩⟩

theorem witness_CalibrationStoreCompletes :
  (∃ (o : Origin), ∃ (v : Word), ∃ (s : State), s.writesPair o .NVM_CTRL_A 0 (withField v 0 2 1) = true ∧ s.storeRefused = none ∧
    s.calLost = false) ∧
  (∃ (o : Origin), ∃ (v : Word), ∃ (c : Nat), ∃ (s : State), s.writesPair o .NVM_CTRL_A 0 (withField v 0 2 1) = true ∧
    s.storeRefused = some c) ∧
  (∃ (s : State), s.coldHeld = false ∧ s.convSeen = true ∧ s.autoDone = false ∧ s.isSet NVM_CFG.AUTO = true ∧ s.cdDown = false ∧
    s.storeRefused = none ∧ s.calLost = false) ∧
  (∃ (o : Origin), ∃ (v : Word), ∃ (s : State), s.writesPair o .NVM_CTRL_A 0 (withField v 0 2 2) = true ∧ s.eraseRefused (fieldOf
    v 2 1) (fieldOf v 3 1 == 1) = none) ∧
  (∃ (b : Nat), ∃ (gen : Nat), ∃ (c : CalSnap), ∃ (s : State), s.coldHeld = false ∧ s.cdDown = false ∧ s.nvmOp = some ⟨b, some
    (gen, c)⟩ ∧ s.get NVM_STAT.PHASE = 1) ∧
  (∃ (b : Nat), ∃ (gen : Nat), ∃ (c : CalSnap), ∃ (s : State), s.coldHeld = false ∧ s.cdDown = false ∧ s.nvmOp = some ⟨b, some
    (gen, c)⟩ ∧ s.get NVM_STAT.PHASE = 2) ∧
  (∃ (r : NvmEnd), ∃ (b : Nat), ∃ (gen : Nat), ∃ (c : CalSnap), ∃ (s : State), s.coldHeld = false ∧ s.cdDown = false ∧ s.nvmOp =
    some ⟨b, some (gen, c)⟩ ∧ s.get NVM_STAT.PHASE = 1 ∧ r ≠ .done) ∧
  (∃ (r : NvmEnd), ∃ (b : Nat), ∃ (gen : Nat), ∃ (c : CalSnap), ∃ (s : State), s.coldHeld = false ∧ s.cdDown = false ∧ s.nvmOp =
    some ⟨b, some (gen, c)⟩ ∧ s.get NVM_STAT.PHASE = 2 ∧ r ≠ .done) ∧
  (∃ (r : NvmEnd), ∃ (b : Nat), ∃ (gen : Nat), ∃ (c : CalSnap), ∃ (s : State), s.coldHeld = false ∧ s.cdDown = false ∧ s.nvmOp =
    some ⟨b, some (gen, c)⟩ ∧ s.get NVM_STAT.PHASE = 3 ∧ r ≠ .done) ∧
  (∃ (r : NvmEnd), ∃ (b : Nat), ∃ (s : State), s.coldHeld = false ∧ s.cdDown = false ∧ s.nvmOp = some ⟨b, none⟩ ∧ r ≠ .done) ∧
  (∃ (b : Nat), ∃ (gen : Nat), ∃ (c : CalSnap), ∃ (s : State), s.coldHeld = false ∧ s.cdDown = false ∧ s.nvmOp = some ⟨b, some
    (gen, c)⟩ ∧ s.get NVM_STAT.PHASE = 3 ∧ b < 2 ∧ gen < 2 ^ 32) ∧
  (∃ (b : Nat), ∃ (s : State), s.coldHeld = false ∧ s.cdDown = false ∧ s.nvmOp = some ⟨b, none⟩) ∧
  (∃ (s : State), s.coldHeld = false) :=
  ⟨⟨0x100, 0, (up.put NVM_CFG.HOLDUP_MS 65535).put NVM_STAT.EST_MS 1, by decide +kernel⟩,
  ⟨0x100, 0, 3, { (up.put NVM_CFG.HOLDUP_MS 65535) with nvmOp := some ⟨1, none⟩ }, by decide +kernel⟩,
  ⟨{ (up.put NVM_CFG.HOLDUP_MS 65535).put NVM_CFG.AUTO 1 with convSeen := true }, by decide +kernel⟩,
  ⟨0x100, 4, up, by decide +kernel⟩,
  ⟨1, 5, { halves := [(127, { cp := [511, -512, 0] })], temps := [25] },
    { (up.put NVM_STAT.PHASE 1).put NVM_STAT.BUSY 1 with nvmOp := some ⟨1, some (5, { halves := [(127, { cp := [511, -512, 0] })], temps := [25] })⟩ },
    by decide +kernel⟩,
  ⟨1, 5, { halves := [(127, { cp := [511, -512, 0] })], temps := [25] },
    { (up.put NVM_STAT.PHASE 2).put NVM_STAT.BUSY 1 with nvmOp := some ⟨1, some (5, { halves := [(127, { cp := [511, -512, 0] })], temps := [25] })⟩ },
    by decide +kernel⟩,
  ⟨.silent, 1, 5, { halves := [(127, { cp := [511, -512, 0] })], temps := [25] },
    { (up.put NVM_STAT.PHASE 1).put NVM_STAT.BUSY 1 with nvmOp := some ⟨1, some (5, { halves := [(127, { cp := [511, -512, 0] })], temps := [25] })⟩ },
    by decide +kernel⟩,
  ⟨.failed, 1, 5, { halves := [(127, { cp := [511, -512, 0] })], temps := [25] },
    { (up.put NVM_STAT.PHASE 2).put NVM_STAT.BUSY 1 with nvmOp := some ⟨1, some (5, { halves := [(127, { cp := [511, -512, 0] })], temps := [25] })⟩ },
    by decide +kernel⟩,
  ⟨.failed, 1, 5, { halves := [(127, { cp := [511, -512, 0] })], temps := [25] },
    { (up.put NVM_STAT.PHASE 3).put NVM_STAT.BUSY 1 with nvmOp := some ⟨1, some (5, { halves := [(127, { cp := [511, -512, 0] })], temps := [25] })⟩ },
    by decide +kernel⟩,
  ⟨.silent, 1, { (up.put NVM_STAT.PHASE 1).put NVM_STAT.BUSY 1 with nvmOp := some ⟨1, none⟩ }, by decide +kernel⟩,
  ⟨1, 5, { halves := [(127, { cp := [511, -512, 0] })], temps := [25] },
    { (up.put NVM_STAT.PHASE 3).put NVM_STAT.BUSY 1 with nvmOp := some ⟨1, some (5, { halves := [(127, { cp := [511, -512, 0] })], temps := [25] })⟩ },
    by decide +kernel⟩,
  ⟨1, { (up.put NVM_STAT.PHASE 1).put NVM_STAT.BUSY 1 with nvmOp := some ⟨1, none⟩ }, by decide +kernel⟩,
  ⟨up, by decide +kernel⟩⟩

theorem witness_LinksComeAndGo :
  (∃ (l : LinkIx), ∃ (s : State), (alive (linkChip l) s ∧ s.chipLost (linkChip l) = false ∧ ((s.linkState l = lsTrain ∨
    s.linkState l = lsDown)) ∧ (s.lnk l).demoted = true ∧ s.role l = 2) ∧ ((∃ k, k < 16 ∧ k ≠ l.val ∧ s.role k = 3))) ∧
  (∃ (l : LinkIx), ∃ (s : State), alive (linkChip l) s ∧ s.chipLost (linkChip l) = false ∧ ((s.linkState l = lsTrain ∨ s.linkState
    l = lsDown)) ∧ (((s.lnk l).demoted = true → s.role l = 2 → ∀ k, k < 16 → k ≠ l.val → s.role k ≠ 3))) ∧
  (∃ (l : LinkIx), ∃ (s : State), alive (linkChip l) s ∧ lsTrain ≤ s.linkState l) ∧
  (∃ (o : Origin), ∃ (l : LinkIx), ∃ (v : Word), ∃ (s : State), s.writes o .RY_CFG l 0 v = true ∧ s.role l = 0 ∧ fieldOf v 0 2 ≠ 0
    ∧ ((2 ≤ fieldOf v 0 2 → ∀ k, k < 16 → k ≠ l.val → s.role k ≠ fieldOf v 0 2))) ∧
  (∃ (o : Origin), ∃ (l : LinkIx), ∃ (v : Word), ∃ (k : Nat), ∃ (s : State), s.writes o .RY_CFG l 0 v = true ∧ s.role l = 0 ∧ 2 ≤
    fieldOf v 0 2 ∧ k < 16 ∧ k ≠ l.val ∧ s.role k = fieldOf v 0 2) ∧
  (∃ (l : LinkIx), ∃ (s : State), alive (linkChip l) s ∧ s.linkState l = lsDiscover ∧ (s.lnk l).helloDue ≤ s.clock ∧ s.cdDown =
    false) ∧
  (∃ (l : LinkIx), ∃ (s : State), alive (linkChip l) s ∧ s.refusedByHello l = true ∧ (s.lnk l).helloDue ≤ s.clock ∧ s.cdDown =
    false) :=
  ⟨⟨15, (linked lsTrain 2 { demoted := true }).put RY_CFG.ROLE 3 14, by unfold alive; decide +kernel, ⟨14, by decide +kernel⟩⟩,
  ⟨15, linked lsDown 2, by unfold alive; decide +kernel⟩,
  ⟨15, linked lsUp 2 { unacked := [⟨0, 0, 1, 0, 0, []⟩] } worker, by unfold alive; decide +kernel⟩,
  ⟨0x100, 15, 3, up, by decide +kernel⟩,
  ⟨0x100, 15, 2, 14, up.put RY_CFG.ROLE 2 14, by decide +kernel⟩,
  ⟨15, linked lsDiscover 1, by unfold alive; decide +kernel⟩,
  ⟨15, (linked lsRefused 1).put RY_STAT.LAST_REFUSE 3 15, by unfold alive; decide +kernel⟩⟩

theorem witness_JoinsComplete :
  (∃ (l : LinkIx), ∃ (f : RyFrame), ∃ (s : State), Hears l fHELLO f s ∧ s.cdDown = false ∧ s.linkState l = lsDiscover ∧ s.get
    EDITION_SEL.ED ≠ 0 ∧ hSelected f.payload ≠ 0 ∧ s.helloRefused l f.src.toNat f.payload = none ∧ s.role l = 2 ∧ hRole
    f.payload ≠ 3 ∧ (s.lnk l).demoted = false) ∧
  (∃ (l : LinkIx), ∃ (f : RyFrame), ∃ (reason : Nat), ∃ (s : State), Hears l fHELLO f s ∧ s.cdDown = false ∧ s.linkState l =
    lsDiscover ∧ s.get EDITION_SEL.ED ≠ 0 ∧ hSelected f.payload ≠ 0 ∧ (s.lnk l).demoted = false ∧ (s.cdly l).run = none ∧
    s.helloRefused l f.src.toNat f.payload = some reason) ∧
  (∃ (l : LinkIx), ∃ (f : RyFrame), ∃ (w : Nat), ∃ (s : State), Hears l fJOIN f s ∧ s.isTop = true ∧ s.linkState l = lsPending ∧
    f.src = 0 ∧ s.workerOf (hSerial f.payload) = none ∧ ((List.range 255).map (· + 1)).find? (fun w => s.get WT_STAT.STATE w ==
    0) = some w ∧ s.isSet RY_GCFG.APPROVE = true) ∧
  (∃ (l : LinkIx), ∃ (f : RyFrame), ∃ (s : State), (s.isTop = false ∧ s.role l = 2 ∧ lsPending ≤ s.linkState l ∧ s.linkState l ≠
    lsRefused ∧ (pfld f.payload 10 1).testBit 0 = true) ∧ Hears l fADMIT f s ∧ pfld f.payload 0 8 = ownSerial) ∧
  (∃ (l : LinkIx), ∃ (f : RyFrame), ∃ (s : State), (Hears l fREFUSE f s ∧ (s.cdly l).run = none) ∧ ((pfld f.payload 0 8 =
    ownSerial ∨ (s.role l = 1 ∧ hSerial (s.lnk l).hello = pfld f.payload 0 8)))) ∧
  (∃ (l : LinkIx), ∃ (f : RyFrame), ∃ (w : Nat), ∃ (s : State), Hears l fREADY f s ∧ s.isTop = true ∧ f.dst = 0 ∧ s.workerOf (pfld
    f.payload 0 8) = some w ∧ s.get WT_STAT.STATE w = 2 ∧ (s.wt w).returning = false ∧ (s.wt w).parent = 0) ∧
  (∃ (l : LinkIx), ∃ (by_ : Nat), ∃ (s : State), alive (linkChip l) s ∧ (s.lnk l).joinBy = some by_ ∧ by_ ≤ s.clock ∧ lsPending ≤
    s.linkState l ∧ s.linkState l ≤ lsTime ∧ s.cdDown = false ∧ (s.cdly l).run = none) ∧
  (∃ (l : LinkIx), ∃ (until_ : Nat), ∃ (s : State), alive (linkChip l) s ∧ (s.lnk l).refuseUntil = some until_ ∧ s.linkState l =
    lsRefused ∧ until_ ≤ s.clock ∧ s.cdDown = false) ∧
  (∃ (o : Origin), ∃ (w : WorkerIx), ∃ (v : Word), ∃ (s : State), s.writes o .WT_CTRL w 0 (withField v 0 1 1) = true ∧ s.get
    WT_STAT.STATE w = 1 ∧ fieldOf v 2 1 = 0 ∧ s.candWaits w = true) ∧
  (∃ (o : Origin), ∃ (w : WorkerIx), ∃ (v : Word), ∃ (s : State), s.writes o .WT_CTRL w 0 (withField v 0 1 1) = true ∧ s.get
    WT_STAT.STATE w = 1 ∧ fieldOf v 2 1 = 0 ∧ s.candWaits w = false) ∧
  (∃ (o : Origin), ∃ (w : WorkerIx), ∃ (v : Word), ∃ (s : State), s.writes o .WT_CTRL w 0 (withField v 1 1 1) = true ∧ s.get
    WT_STAT.STATE w = 1 ∧ fieldOf v 0 1 = 0) :=
  ⟨⟨15, fr fHELLO (fields [(8, 99), (1, 1), (1, 1), (2, 1), (4, 0), (4, 0), (4, 0)]) 0 0, linked lsDiscover 2 {} (up.put
    RY_GSTAT.TOP 0), by rw [hears_iff]; unfold alive; decide +kernel⟩,
  ⟨15, fr fHELLO (fields [(8, 99), (1, 1), (1, 1), (2, 2), (4, 0), (4, 0), (4, 0)]), 1, linked lsDiscover 2,
    by rw [hears_iff]; unfold alive; decide +kernel⟩,
  ⟨15, fr fJOIN (fields [(8, 99), (1, 1), (1, 1), (2, 2), (4, 0), (4, 0), (4, 0)]) 0 0, 1, (linked lsPending 1).put
    RY_GCFG.APPROVE 1, by rw [hears_iff]; unfold alive; decide +kernel⟩,
  ⟨15, fr fADMIT (leBytes 8 ownSerial ++ fields [(1, 7), (1, 2), (2, 1), (4, 9)]), linked lsPending 2 {} (up.put RY_GSTAT.TOP 0),
    by decide +kernel, .mk (by unfold alive; decide +kernel) (by decide +kernel) (by decide +kernel) rfl (fr_good _ _ _ _ rfl
    (by decide)) fun _ => ⟨by decide +kernel, rfl⟩, pfld_own _⟩,
  ⟨15, fr fREFUSE (fields [(8, 99), (8, 4)]), linked lsPending 1 { hello := fields [(8, 99)] },
    by rw [hears_iff]; unfold alive; decide +kernel, .inr (by decide +kernel)⟩,
  ⟨15, fr fREADY (fields [(8, 99)]), 255, (manages 2 (linked lsTime 1)).setWide (aWT_ID 255) 99,
    by rw [hears_iff]; unfold alive; decide +kernel⟩,
  ⟨15, 6400000000, linked lsPending 1 { joinBy := some 6400000000 }, by unfold alive; decide +kernel⟩,
  ⟨15, 6400000000, linked lsRefused 1 { refuseUntil := some 6400000000 }, by unfold alive; decide +kernel⟩,
  ⟨0x100, 255, 1, manages 1 (linked lsPending 1 { hello := [] }), by decide +kernel⟩,
  ⟨0x100, 255, 1, manages 1 (linked lsDown 1), by decide +kernel⟩,
  ⟨0x100, 255, 2, manages 1, by decide +kernel⟩⟩

theorem witness_HeartbeatsAndDeparturesComplete :
  (∃ (l : LinkIx), ∃ (s : State), alive (linkChip l) s ∧ s.hbOn l = true ∧ (s.lnk l).hbDue ≤ s.clock ∧ s.chipLost (linkChip l) =
    false) ∧
  (∃ (l : LinkIx), ∃ (f : RyFrame), ∃ (s : State), Hears l fHB f s ∧ s.cdDown = false ∧ (pfld f.payload 0 1).testBit 2 = false ∧
    (pfld f.payload 0 1).testBit 3 = false) ∧
  (∃ (l : LinkIx), ∃ (f : RyFrame), ∃ (s : State), Hears l fHB f s ∧ s.cdDown = false ∧ s.hbOn l = true ∧ (((pfld f.payload 0
    1).testBit 2 = true ∨ (pfld f.payload 0 1).testBit 3 = true))) ∧
  (∃ (l : LinkIx), ∃ (s : State), alive (linkChip l) s ∧ s.hbOn l = true ∧ (s.lnk l).hbFrom + 32000 ≤ s.clock ∧ s.chipLost
    (linkChip l) = false ∧ (s.lnk l).misses < 2) ∧
  (∃ (l : LinkIx), ∃ (s : State), alive (linkChip l) s ∧ s.hbOn l = true ∧ (s.lnk l).hbFrom + 32000 ≤ s.clock ∧ s.chipLost
    (linkChip l) = false ∧ 2 ≤ (s.lnk l).misses ∧ s.cdDown = false) ∧
  (∃ (l : LinkIx), ∃ (f : RyFrame), ∃ (s : State), Hears l fLEAVE f s ∧ s.role l = 1 ∧ s.hbOn l = true ∧ s.get RY_STAT.PEER_WID l
    = pfld f.payload 0 1) ∧
  (∃ (l : LinkIx), ∃ (f : RyFrame), ∃ (s : State), Hears l fCDLOSS f s ∧ s.hbOn l = true) ∧
  (∃ (o : Origin), ∃ (w : WorkerIx), ∃ (v : Word), ∃ (s : State), s.writesPair o .WT_CTRL_A w (withField v 0 1 1) = true ∧ w.val ≠
    0 ∧ s.get WT_STAT.STATE w ≠ 0) ∧
  (∃ (o : Origin), ∃ (w : WorkerIx), ∃ (v : Word), ∃ (s : State), s.writes o .WT_CTRL w 0 (withField v 2 1 1) = true ∧ s.get
    WT_STAT.STATE w = 3 ∧ s.isSet WT_STAT.COLD w = true) :=
  ⟨⟨15, linked lsUp 2 {} worker, by unfold alive; decide +kernel⟩,
  ⟨15, fr fHB (fields [(1, 0), (7, 0), (8, 0)]), linked lsUp 1, by rw [hears_iff]; unfold alive; decide +kernel⟩,
  ⟨15, fr fHB (fields [(1, 12), (7, 0), (8, 0)]), linked lsUp 1, by rw [hears_iff]; unfold alive; decide +kernel⟩,
  ⟨15, linked lsUp 1 { hbFrom := 6399968000, misses := 1 }, by unfold alive; decide +kernel⟩,
  ⟨15, linked lsUp 2 { hbFrom := 6399968000, misses := 2 } worker, by unfold alive; decide +kernel⟩,
  ⟨15, fr fLEAVE (fields [(1, 255), (7, 2)]), (manages 3).put RY_STAT.PEER_WID 255 15,
    by rw [hears_iff]; unfold alive; decide +kernel⟩,
  ⟨15, fr fCDLOSS (fields [(8, 6400000000)]), (manages 3).put RY_STAT.PEER_WID 255 15,
    by rw [hears_iff]; unfold alive; decide +kernel⟩,
  ⟨0x100, 255, 0, manages 3, by decide +kernel⟩,
  ⟨0x100, 255, 4, (manages 3).put WT_STAT.COLD 1 255, by decide +kernel⟩⟩

theorem witness_ReliableFramesComplete :
  (∃ (l : LinkIx), ∃ (s : State), alive (linkChip l) s ∧ (s.lnk l).rxSeen = true ∧ lsDiscover ≤ s.linkState l ∧ s.chipLost
    (linkChip l) = false) ∧
  (∃ (l : LinkIx), ∃ (f : RyFrame), ∃ (s : State), Hears l fLACK f s) ∧
  (∃ (l : LinkIx), ∃ (f : RyFrame), ∃ (s : State), Hears l fLNAK f s) ∧
  (∃ (l : LinkIx), ∃ (f : TxFrame), ∃ (rest : List TxFrame), ∃ (s : State), alive (linkChip l) s ∧ (s.lnk l).unacked = f :: rest ∧
    f.at_ + 100 * usTk ≤ s.clock ∧ s.chipLost (linkChip l) = false ∧ lsTrain ≤ s.linkState l) ∧
  (∃ (l : LinkIx), ∃ (f : RyFrame), ∃ (s : State), alive (linkChip l) s ∧ s.chipLost (linkChip l) = false ∧ lsDiscover ≤
    s.linkState l ∧ f.type.toNat = fEVENT ∧ frameGood f = true ∧ f.lseq.toNat = (s.lnk l).rxNext ∧ s.cdDown = true) :=
  ⟨⟨15, linked lsDiscover 1 { rxSeen := true }, by unfold alive; decide +kernel⟩,
  ⟨15, fr fLACK (fields [(8, 65535)]), linked lsUp 1
    { unacked := [{ lseq := 65535, at_ := 6399680000, type := 34, dst := 0, src := 7, payload := [] }] },
    by rw [hears_iff]; unfold alive; decide +kernel⟩,
  ⟨15, fr fLNAK (fields [(8, 65535)]), linked lsUp 1
    { unacked := [{ lseq := 65535, at_ := 6399680000, type := 34, dst := 0, src := 7, payload := [] }] },
    by rw [hears_iff]; unfold alive; decide +kernel⟩,
  ⟨15, { lseq := 65535, at_ := 6399680000, type := 34, dst := 0, src := 7, payload := [] }, [], linked lsUp 1
    { unacked := [{ lseq := 65535, at_ := 6399680000, type := 34, dst := 0, src := 7, payload := [] }] },
    by unfold alive; decide +kernel⟩,
  ⟨15, fr fEVENT (fields [(4, 383), (4, 1), (8, 0), (8, 0)]), { linked lsUp 1 with warm := true },
    by unfold alive; decide +kernel⟩⟩

theorem witness_TimeTransferCompletes :
  (∃ (l : LinkIx), ∃ (s : State), alive (linkChip l) s ∧ s.ttOn l = true ∧ (s.lnk l).ttDue ≤ s.clock ∧ lsDiscover ≤ s.linkState l) ∧
  (∃ (l : LinkIx), ∃ (f : RyFrame), ∃ (s : State), Hears l fTT f s ∧ s.ttOn l = true) ∧
  (∃ (l : LinkIx), ∃ (s : State), alive (linkChip l) s ∧ 64 ≤ (s.lnk l).tt.n) ∧
  (∃ (l : LinkIx), ∃ (f : RyFrame), ∃ (m : Nat), ∃ (t2 : Nat), ∃ (s : State), Hears l fEPOCH f s ∧ s.isSet EPOCH_STAT.ARMED =
    false ∧ ((s.role l ≠ 2 ∨ pfld f.payload 0 2 = s.get RY_WORKERS.HEG)) ∧ (s.lnk l).tt.arrs.find? (fun a => a.1 == pfld
    f.payload 2 2) = some (m, t2)) ∧
  (∃ (l : Nat), ∃ (s : State), s.coldHeld = false ∧ s.cdDown = false ∧ s.ry.want = some l ∧ l < 16 ∧ s.ry.retryAt ≤ s.clock ∧ ((∃
    n, n < 8 ∧ s.get COMMIT_STAT.LEVEL n ≠ 0))) ∧
  (∃ (l : Nat), ∃ (s : State), s.coldHeld = false ∧ s.cdDown = false ∧ s.ry.want = some l ∧ l < 16 ∧ s.ry.retryAt ≤ s.clock ∧ ((∀
    n, n < 8 → s.get COMMIT_STAT.LEVEL n = 0)) ∧ s.relockOrFailover = false) :=
  ⟨⟨15, linked lsUp 2 {} worker, by unfold alive; decide +kernel⟩,
  ⟨15, fr fTT (fields [(8, 1), (8, 0), (8, 0), (8, 0)]), linked lsUp 1, by rw [hears_iff]; unfold alive; decide +kernel⟩,
  ⟨15, linked lsUp 2 { tt := { n := 64, sumT := -640, sumD := 128000 } } worker, by unfold alive; decide +kernel⟩,
  ⟨15, fr fEPOCH (fields [(2, 0), (2, 5), (4, 0), (8, 3), (2, 0), (6, 0)]), 5, 99, linked lsTime 2 { tt := { arrs := [(5, 99)] } }
    worker, by rw [hears_iff]; unfold alive; decide +kernel⟩,
  ⟨15, { (up.put COMMIT_STAT.LEVEL 1 7) with ry := { up.ry with want := some 15 } }, by decide +kernel⟩,
  ⟨15, { up with ry := { up.ry with want := some 15 } }, by decide +kernel⟩⟩

theorem witness_ForwardingCompletes :
  (∃ (o : Origin), ∃ (f : Fin 1024), ∃ (v : Word), ∃ (s : State), s.writes o .FWD_CFG f 0 v = true ∧ s.isSet FWD_CFG.EN f = false
    ∧ fieldOf v 15 1 = 1 ∧ s.entryRefused f v (s.reg (RegId.FWD_DST.at f)) = false) ∧
  (∃ (o : Origin), ∃ (f : Fin 1024), ∃ (v : Word), ∃ (s : State), s.writes o .FWD_CFG f 0 v = true ∧ s.isSet FWD_CFG.EN f = false
    ∧ fieldOf v 15 1 = 1 ∧ s.entryRefused f v (s.reg (RegId.FWD_DST.at f)) = true) ∧
  (∃ (o : Origin), ∃ (f : Fin 1024), ∃ (v : Word), ∃ (s : State), s.writes o .FWD_DST f 0 v = true ∧ s.isSet FWD_CFG.EN f = false) ∧
  (∃ (o : Origin), ∃ (f : Fin 1024), ∃ (v : Word), ∃ (s : State), s.writes o .FWD_CQ f 0 v = true ∧ s.isSet FWD_CFG.EN f = false) ∧
  (∃ (f : Fin 1024), ∃ (i : Item), ∃ (k : Nat), ∃ (s : State), s.coldHeld = false ∧ s.cdDown = false ∧ s.isTop = true ∧ s.isSet
    FWD_CFG.EN f = true ∧ s.isSet QD_CTRL.EN (s.get FWD_CFG.FQ f) = true ∧ s.isSet QD_CTRL.HOSTQ (s.get FWD_CFG.FQ f) = true ∧
    s.get WT_STAT.STATE (s.get FWD_DST.WID f) = 3 ∧ s.isSet WT_STAT.COLD (s.get FWD_DST.WID f) = false ∧ s.isSet
    WT_STAT.REPLAYING (s.get FWD_DST.WID f) = false ∧ s.isSet FWD_STAT.RESEND f = false ∧ s.mirrorLost = false ∧ s.headItem
    (s.get FWD_CFG.FQ f) = some i ∧ s.freeMirror? = some k) ∧
  (∃ (l : LinkIx), ∃ (f : RyFrame), ∃ (s : State), Hears l fSUBMIT f s ∧ s.isTop = false ∧ s.forMe f = true ∧ s.isManagerLink l =
    true ∧ s.mirrorLost = false ∧ s.accOff = false ∧ (pfld f.payload 8 6) = s.mm (pfld f.payload 0 4 % 2 ^ 15) + 1 ∧ (pfld
    f.payload 0 4 % 2 ^ 15) ≠ quarQ ∧ (s.get QD_CTRL.SUBMIT (pfld f.payload 0 4 % 2 ^ 15)).testBit 1 = true ∧ s.isSet QD_CTRL.EN
    (pfld f.payload 0 4 % 2 ^ 15) = true ∧ s.isSet QD_CTRL.DRAIN (pfld f.payload 0 4 % 2 ^ 15) = false ∧ s.frozen
    (RegId.QD_CTRL.at (pfld f.payload 0 4 % 2 ^ 15)) = false ∧ f.payload.length = 16 + s.qItemSize (pfld f.payload 0 4 % 2 ^ 15)
    ∧ (s.queue (pfld f.payload 0 4 % 2 ^ 15)).nextSeq < seqEnd ∧ s.get QD_STAT.LEVEL (pfld f.payload 0 4 % 2 ^ 15) + s.qEntries
    (pfld f.payload 0 4 % 2 ^ 15) ≤ s.get QD_LEN.LEN (pfld f.payload 0 4 % 2 ^ 15)) ∧
  (∃ (l : LinkIx), ∃ (f : RyFrame), ∃ (i : Nat), ∃ (m : Mirror), ∃ (rest : List (Nat × Mirror)), ∃ (s : State), Hears l fSUBRES f
    s ∧ s.forMe f = true ∧ answered f s = (i, m) :: rest ∧ s.get WT_STAT.STATE m.wid = 3 ∧ (pfld f.payload 2 1 = 0 ∨ pfld
    f.payload 2 1 = 9)) ∧
  (∃ (l : LinkIx), ∃ (f : RyFrame), ∃ (i : Nat), ∃ (m : Mirror), ∃ (rest : List (Nat × Mirror)), ∃ (s : State), Hears l fSUBRES f
    s ∧ s.forMe f = true ∧ answered f s = (i, m) :: rest ∧ s.get WT_STAT.STATE m.wid = 3 ∧ (pfld f.payload 2 1 = 2 ∨ pfld
    f.payload 2 1 = 0xA)) ∧
  (∃ (l : LinkIx), ∃ (f : RyFrame), ∃ (i : Nat), ∃ (m : Mirror), ∃ (rest : List (Nat × Mirror)), ∃ (s : State), Hears l fSUBRES f
    s ∧ s.forMe f = true ∧ answered f s = (i, m) :: rest ∧ s.get WT_STAT.STATE m.wid ≠ 3) ∧
  (∃ (f : Fin 1024), ∃ (due : Nat), ∃ (mseq : Nat), ∃ (s : State), (s.coldHeld = false ∧ s.cdDown = false ∧ (s.fwdSt f).resend =
    some (due, mseq) ∧ due ≤ s.clock) ∧ ((∀ e ∈ s.mirrorsWhere (fun m => m.entry == f.val && (m.st == 1 || m.replay) && decide
    (mseq ≤ m.mseq)), s.anyBad (0x01E00000 + 128 * e.1) 128 = false ∧ ∀ m, s.mirror e.1 = some m → m.unrep = false))) ∧
  (∃ (l : LinkIx), ∃ (f : RyFrame), ∃ (i : Nat), ∃ (m : Mirror), ∃ (rest : List (Nat × Mirror)), ∃ (s : State), Hears l fDONE f s
    ∧ s.forMe f = true ∧ m.st ≠ 3 ∧ s.isSet FWD_CQ.CQ_EN m.entry = false ∧ s.mirrorsWhere (fun m => m.wid == f.src.toNat && m.rq
    == pfld f.payload 0 2 && m.mseq == pfld f.payload 8 6) = (i, m) :: rest) ∧
  (∃ (l : LinkIx), ∃ (f : RyFrame), ∃ (i : Nat), ∃ (m : Mirror), ∃ (rest : List (Nat × Mirror)), ∃ (s : State), Hears l fDONE f s
    ∧ s.forMe f = true ∧ m.st = 3 ∧ m.ackDue = true ∧ s.mirrorsWhere (fun m => m.wid == f.src.toNat && m.rq == pfld f.payload 0
    2 && m.mseq == pfld f.payload 8 6) = (i, m) :: rest) ∧
  (∃ (l : LinkIx), ∃ (f : RyFrame), ∃ (s : State), Hears l fDONEACK f s ∧ s.forMe f = true) ∧
  (∃ (l : LinkIx), ∃ (f : RyFrame), ∃ (s : State), Hears l fRESYNC f s ∧ s.forMe f = true ∧ s.isManagerLink l = true ∧
    s.mirrorLost = false) ∧
  (∃ (k : Fin 16384), ∃ (m : Mirror), ∃ (s : State), s.coldHeld = false ∧ s.cdDown = false ∧ s.mirror k = some m ∧ m.st = 3 ∧
    m.hold = none ∧ m.horizon + 64 < s.mcount) ∧
  (∃ (w : Nat), ∃ (i : Nat), ∃ (rest : List Nat), ∃ (m : Mirror), ∃ (s : State), (s.pending = [] ∧ s.coldHeld = false ∧ s.cdDown =
    false ∧ chansQuiet none s ∧ linksQuiet none s ∧ pinsQuiet s ∧ banksQuiet none s ∧ (s.ry.wts.filter fun e =>
    !e.2.replay.isEmpty).map (·.1) = [w] ∧ (s.wt w).replay = i :: rest ∧ s.mirror i = some m ∧ s.anyBad (0x01E00000 + 128 * i)
    128 = false ∧ s.isSet FWD_STAT.RESEND m.entry = false) ∧ enginesQuiet none s) ∧
  (∃ (w : Nat), ∃ (s : State), (s.pending = [] ∧ s.coldHeld = false ∧ s.cdDown = false ∧ chansQuiet none s ∧ linksQuiet none s ∧
    pinsQuiet s ∧ banksQuiet none s ∧ (s.ry.wts.filter fun e => !e.2.replay.isEmpty).map (·.1) = [w]) ∧ enginesQuiet none s ∧
    ((∀ i ∈ (s.wt w).replay, ∃ m, s.mirror i = some m ∧ s.isSet FWD_STAT.RESEND m.entry = true))) :=
  ⟨⟨0x100, 1023, 0xFFFE, up.put FWD_DST.WID 255 1023, by decide +kernel⟩,
  ⟨0x100, 1023, 0xFFFE, up, by decide +kernel⟩,
  ⟨0x100, 1023, 0x7FFFFF, up, by decide +kernel⟩,
  ⟨0x100, 1023, 0xFFFF, up, by decide +kernel⟩,
  ⟨1023, { seq := 7 }, 0, forwards, by decide +kernel⟩,
  ⟨15, fr fSUBMIT (fields [(2, 32766), (6, 0), (6, 1), (2, 0), (8, 0), (8, 5)]) 7 0, (linked lsUp 2 {} (hostQ [] worker)).put
    QD_CTRL.HOSTQ 0 32766, by rw [hears_iff]; unfold alive; decide +kernel⟩,
  ⟨15, fr fSUBRES (fields [(2, 9), (1, 0), (5, 0), (6, 7), (2, 0), (8, 55)]), 0, record 1, [], mirrored (record 1) (forwards),
    by rw [hears_iff]; unfold alive; decide +kernel⟩,
  ⟨15, fr fSUBRES (fields [(2, 9), (1, 2), (5, 0), (6, 7), (2, 0), (8, 55)]), 0, record 1, [], mirrored (record 1) forwards,
    by rw [hears_iff]; unfold alive; decide +kernel⟩,
  ⟨15, fr fSUBRES (fields [(2, 9), (1, 15), (5, 0), (6, 7), (2, 0), (8, 55)]), 0, record 1, [], mirrored (record 1) (forwards
    (manages 4)), by rw [hears_iff]; unfold alive; decide +kernel⟩,
  ⟨1023, 6400000000, 7, mirrored (record 1) ((forwards.put FWD_STAT.RESEND 1 1023).setFwdSt 1023
    { resend := some (6400000000, 7) }), by decide +kernel, record_whole (by decide +kernel) rfl⟩,
  ⟨15, fr fDONE (fields [(2, 9), (6, 0), (6, 7), (2, 0), (8, 3), (8, 4), (8, 5)]), 0, record 2, [], mirrored (record 2)
    (forwards), by rw [hears_iff]; unfold alive; decide +kernel⟩,
  ⟨15, fr fDONE (fields [(2, 9), (6, 0), (6, 7), (2, 0), (8, 3), (8, 4), (8, 5)]), 0, { record 3 with ackDue := true }, [],
    mirrored { record 3 with ackDue := true } forwards, by rw [hears_iff]; unfold alive; decide +kernel⟩,
  ⟨15, fr fDONEACK (fields [(8, 9), (8, 7)]) 7 0,
    (let s := linked lsUp 2 {} worker; { s with ry := { s.ry with reports := [⟨3, 9, 7, 0, 0, 0⟩] } }),
    by rw [hears_iff]; unfold alive; decide +kernel⟩,
  ⟨15, fr fRESYNC (fields [(8, 9), (8, 77)]) 7 0, linked lsUp 2 {} worker, by rw [hears_iff]; unfold alive; decide +kernel⟩,
  ⟨0, record 3, mirrored (record 3) (forwards), by decide +kernel⟩,
  ⟨255, 0, [], record 1,
    (let s := mirrored (record 1) forwards; { s with ry := { s.ry with wts := [(255, { replay := [0] })] } }),
    by unfold chansQuiet linksQuiet pinsQuiet banksQuiet; decide +kernel, enginesQuiet_of (by decide +kernel)⟩,
  ⟨255,
    (let s := mirrored (record 1) (forwards.put FWD_STAT.RESEND 1 1023); { s with ry := { s.ry with wts := [(255, { replay := [0] })] } }),
    by unfold chansQuiet linksQuiet pinsQuiet banksQuiet; decide +kernel, enginesQuiet_of (by decide +kernel), fun i hi =>
    ⟨record 1, by obtain rfl : i = 0 := List.mem_singleton.1 hi; decide +kernel⟩⟩⟩

theorem witness_RemoteEventsAndAccessesComplete :
  (∃ (src : SourceIx), ∃ (l : Nat), ∃ (s : State), s.coldHeld = false ∧ s.cdDown = false ∧ s.ry.evPend.contains src.val = true ∧
    SMap.get (fun _ => 0) s.ry.evFrom src ≤ s.clock ∧ s.isAdmitted = true ∧ s.isSet RY_GCFG.EVT_FWD = true ∧ s.upLink = some l) ∧
  (∃ (l : LinkIx), ∃ (f : RyFrame), ∃ (s : State), Hears l fEVENT f s ∧ s.forMe f = true) ∧
  (∃ (l : LinkIx), ∃ (f : RyFrame), ∃ (s : State), Hears l fRREQ f s ∧ s.forMe f = true ∧ s.isManagerLink l = false) ∧
  (∃ (l : LinkIx), ∃ (f : RyFrame), ∃ (r : RegAt), ∃ (s : State), Hears l fRREQ f s ∧ s.forMe f = true ∧ s.isManagerLink l = true
    ∧ pfld f.payload 8 1 % 2 = 0 ∧ s.serves (0x110 + l) (pfld f.payload 0 4) false = true ∧ regOf (pfld f.payload 0 4) = some r
    ∧ r.id.readsZero = false) ∧
  (∃ (l : LinkIx), ∃ (f : RyFrame), ∃ (tag : Nat), ∃ (since : Nat), ∃ (s : State), Hears l fRRSP f s ∧ s.forMe f = true ∧
    s.ry.racc = some (tag, since) ∧ pfld f.payload 5 1 = tag ∧ pfld f.payload 4 1 = 0 ∧ s.isSet RY_RACC_CTRL.WRITE = false) ∧
  (∃ (tag : Nat), ∃ (since : Nat), ∃ (s : State), s.coldHeld = false ∧ s.cdDown = false ∧ s.ry.racc = some (tag, since) ∧ since +
    100 * usTk ≤ s.clock) :=
  ⟨⟨383, 15, (let s := (linked lsUp 2 {} worker).put RY_GCFG.EVT_FWD 1; { s with ry := { s.ry with evPend := [383] } }),
    by decide +kernel⟩,
  ⟨15, fr fEVENT (fields [(4, 383), (4, 1), (8, 0), (8, 0)]), linked lsUp 1, by rw [hears_iff]; unfold alive; decide +kernel⟩,
  ⟨15, fr fRREQ (fields [(4, 0x28), (4, 0), (1, 0), (1, 200), (6, 0)]), linked lsUp 1,
    by rw [hears_iff]; unfold alive; decide +kernel⟩,
  ⟨15, fr fRREQ (fields [(4, RegId.QM_STAT.at), (4, 0), (1, 0), (1, 200), (6, 0)]) 7 0, ⟨.QM_STAT, 0, 0⟩, linked lsUp 2 {} worker,
    by rw [hears_iff]; unfold alive; decide +kernel⟩,
  ⟨15, fr fRRSP (fields [(4, 0xDEADBEEF), (1, 0), (1, 255), (2, 0)]), 255, 6399000000,
    (let s := linked lsUp 1; { s with ry := { s.ry with racc := some (255, 6399000000) } }),
    by rw [hears_iff]; unfold alive; decide +kernel⟩,
  ⟨255, 6399680000, { up with ry := { up.ry with racc := some (255, 6399680000) } }, by decide +kernel⟩⟩

theorem witness_SupervisionCompletes :
  (∃ (s : State), s.coldHeld = false ∧ s.cdDown = false ∧ s.timer tmKeepalive ≤ s.clock) ∧
  (∃ (n : ChipletIx), ∃ (s : State), s.coldHeld = false ∧ s.cdDown = false ∧ s.chipLost n = false ∧ 8 ≤ (s.chip n).missed) ∧
  (∃ (n : ChipletIx), ∃ (s : State), s.coldHeld = false ∧ s.warm = false ∧ s.chipLost n = false ∧ (s.chip n).cdLost = false ∧
    (s.chip n).lastKeep + 64 * usTk ≤ s.clock) ∧
  (∃ (s : State), s.coldHeld = false ∧ s.cdDown = false ∧ s.timer tmAsync ≤ s.clock) ∧
  (∃ (temps : List Int), ∃ (s : State), s.coldHeld = false ∧ s.cdDown = false ∧ s.timer tmTemp ≤ s.clock ∧ ((∀ n, n < 8 → -128 ≤
    temps.getD n 0 ∧ temps.getD n 0 ≤ 85))) ∧
  (∃ (temps : List Int), ∃ (n : Nat), ∃ (s : State), s.coldHeld = false ∧ s.cdDown = false ∧ s.timer tmTemp ≤ s.clock ∧ n < 8 ∧
    s.chipLost n = false ∧ s.temp n ≤ 85 ∧ 85 < temps.getD n 0 ∧ temps.getD n 0 ≤ 127) ∧
  (∃ (b : Fin 16), ∃ (s : State), s.coldHeld = false ∧ s.cdDown = false ∧ s.bankLost b = false ∧ b.val < 14) ∧
  (∃ (b : Fin 16), ∃ (s : State), s.coldHeld = false ∧ s.cdDown = false ∧ s.bankLost b = false ∧ 14 ≤ b.val) ∧
  (∃ (o : Origin), ∃ (v : Word), ∃ (s : State), s.writes o .WDOG_KICK 0 0 v = true ∧ fieldOf v 0 16 = 0x5AC3) ∧
  (∃ (o : Origin), ∃ (v : Word), ∃ (s : State), s.writes o .WDOG_KICK 0 0 v = true ∧ fieldOf v 0 16 ≠ 0x5AC3) ∧
  (∃ (o : Origin), ∃ (v : Word), ∃ (s : State), s.writes o .WDOG_CFG 0 0 v = true) ∧
  (∃ (from_ : Nat), ∃ (s : State), s.coldHeld = false ∧ s.cdDown = false ∧ s.wdogFrom = some from_ ∧ from_ + s.get
    WDOG_CFG.PERIOD_MS * msTk ≤ s.clock ∧ s.get WDOG_CFG.ACTION = 0) ∧
  (∃ (from_ : Nat), ∃ (s : State), s.coldHeld = false ∧ s.cdDown = false ∧ s.wdogFrom = some from_ ∧ from_ + s.get
    WDOG_CFG.PERIOD_MS * msTk ≤ s.clock ∧ s.get WDOG_CFG.ACTION = 1) ∧
  (∃ (from_ : Nat), ∃ (s : State), s.coldHeld = false ∧ s.cdDown = false ∧ s.boot ≠ .sram ∧ s.wdogFrom = some from_ ∧ from_ +
    s.get WDOG_CFG.PERIOD_MS * msTk ≤ s.clock ∧ s.get WDOG_CFG.ACTION = 2) ∧
  (∃ (n : ChipletIx), ∃ (s : State), s.coldHeld = false ∧ s.cdDown = true ∧ s.chipLost n = false) :=
  ⟨⟨up, by decide +kernel⟩,
  ⟨7, up.setChip 7 { running := true, missed := 8 }, by decide +kernel⟩,
  ⟨7, up.setChip 7 { running := true, lastKeep := 6399795200 }, by decide +kernel⟩,
  ⟨up, by decide +kernel⟩,
  ⟨[85, -128, 0, 0, 0, 0, 0, 0], up, by decide +kernel⟩,
  ⟨[0, 0, 0, 0, 0, 0, 0, 86], 7, up, by decide +kernel⟩,
  ⟨13, up, by decide +kernel⟩,
  ⟨14, up, by decide +kernel⟩,
  ⟨0x100, 0x5AC3, up, by decide +kernel⟩,
  ⟨0x100, 0, up, by decide +kernel⟩,
  ⟨0x100, 0x200FF, up, by decide +kernel⟩,
  ⟨6000000000, { (up.put WDOG_CFG.PERIOD_MS 1) with wdogFrom := some 6000000000 }, by decide +kernel⟩,
  ⟨6000000000, { ((up.put WDOG_CFG.PERIOD_MS 1).put WDOG_CFG.ACTION 1) with wdogFrom := some 6000000000 }, by decide +kernel⟩,
  ⟨6000000000, { ((up.put WDOG_CFG.PERIOD_MS 1).put WDOG_CFG.ACTION 2) with wdogFrom := some 6000000000 }, by decide +kernel⟩,
  ⟨7, { (up.setChip 7 { running := true, missed := 8 }) with warm := true }, by decide +kernel⟩⟩

theorem witness_ResetsComplete :
  (∃ (s : State), s.porst = false) ∧
  (∃ (s : State), s.brown = false) ∧
  (∃ (o : Origin), ∃ (v : Word), ∃ (s : State), s.writesPair o .RST_CTRL_A 0 (withField v 0 2 2) = true) ∧
  (∃ (s : State), s.porst = true) ∧
  (∃ (s : State), s.brown = true) ∧
  (∃ (s : State), s.coldHeld = false ∧ s.warm = false ∧ s.boot ≠ .sram) ∧
  (∃ (s : State), s.boot = .sram) ∧
  (∃ (o : Origin), ∃ (v : Word), ∃ (s : State), s.writesPair o .RST_CTRL_A 0 (withField v 0 2 1) = true ∧ s.boot ≠ .sram) ∧
  (∃ (s : State), s.coldHeld = false ∧ s.warm = true ∧ ((∀ n, n < 8 → s.chipLost n = false → (s.chip n).cdLost = false)) ∧
    s.halfFaults = 0 ∧ s.lossFaults = []) ∧
  (∃ (m : Nat), ∃ (s : State), s.coldHeld = false ∧ s.warm = true ∧ m < 8 ∧ s.chipLost m = false ∧ (s.chip m).cdLost = true ∧ ((∀
    f ∈ s.lossFaults, f.1 = 2 ∧ f.2 < 256 ∨ f.1 = 4 ∧ f.2 < 8))) ∧
  (∃ (o : Origin), ∃ (v : Word), ∃ (s : State), s.writesPair o .RST_CTRL_A 0 (withField v 0 2 3) = true ∧ s.get
    CHIP_STAT.REINIT_BUSY / 2 ^ fieldOf v 2 3 % 2 = 0) ∧
  (∃ (n : ChipletIx), ∃ (start : Nat), ∃ (s : State), s.coldHeld = false ∧ s.cdDown = false ∧ SMap.get (fun _ => 0) s.chipReinit n
    = start + 1 ∧ s.clock ≤ start + 50 * msTk) ∧
  (∃ (n : ChipletIx), ∃ (start : Nat), ∃ (s : State), s.coldHeld = false ∧ s.cdDown = false ∧ SMap.get (fun _ => 0) s.chipReinit n
    = start + 1 ∧ start + 50 * msTk ≤ s.clock) :=
  ⟨⟨up, by decide +kernel⟩,
  ⟨up, by decide +kernel⟩,
  ⟨0x100, 2, up, by decide +kernel⟩,
  ⟨{ up with porst := true }, by decide +kernel⟩,
  ⟨{ up with brown := true }, by decide +kernel⟩,
  ⟨runs [], by decide +kernel⟩,
  ⟨booting .sram, by decide +kernel⟩,
  ⟨0x100, 1, runs [], by decide +kernel⟩,
  ⟨{ up with warm := true }, by decide +kernel⟩,
  ⟨7, (let s : State := { up with warm := true }; (s.setChip 7 { running := true, cdLost := true, cdLostAt := 6399000000 }).put
    SL_STAT.LEVEL 2), by decide +kernel⟩,
  ⟨0x100, 0x1F, up, by decide +kernel⟩,
  ⟨7, 6399000000, { up with chipReinit := [(7, 6399000001)] }, by decide +kernel⟩,
  ⟨7, 6240000000, { up with chipReinit := [(7, 6240000001)] }, by decide +kernel⟩⟩

theorem witness_BootCompletes :
  (∃ (s : State), s.coldHeld = false ∧ s.boot = .sram ∧ s.cdDown = false) ∧
  (∃ (s : State), s.coldHeld = false ∧ s.boot = .sram ∧ s.cdDown = false) ∧
  (∃ (s : State), s.coldHeld = false ∧ s.boot = .cal ∧ s.cdDown = false) ∧
  (∃ (s : State), s.coldHeld = false ∧ s.boot = .image ∧ s.cdDown = false ∧ s.nvmLost = false ∧ s.slotFits 0 = false ∧ s.slotFits
    1 = false) ∧
  (∃ (s : State), s.coldHeld = false ∧ s.boot = .image ∧ s.cdDown = false ∧ s.nvmLost = true) ∧
  (∃ (s : State), s.coldHeld = false ∧ s.boot = .image ∧ s.cdDown = false ∧ s.nvmLost = false) ∧
  (∃ (k : Nat), ∃ (s : State), s.coldHeld = false ∧ s.boot = .image ∧ s.cdDown = false ∧ s.nvmLost = false ∧ k < 2 ∧ s.slotValid k
    = true ∧ ((s.slotFits (1 - k) = false ∨ s.slotGen (1 - k) < s.slotGen k)) ∧ s.bankLost 0 = false ∧ s.bankLost 10 = false ∧
    s.bankLost 11 = false) ∧
  (∃ (s : State), s.coldHeld = false ∧ s.boot = .cores ∧ s.cdDown = false ∧ s.get EDITION_SEL.ED = 1 ∧ s.get REF_STAT.STATE < 2) ∧
  (∃ (s : State), s.coldHeld = false ∧ s.boot = .list ∧ s.cdDown = false ∧ s.bootWait ≠ 4 ∧ 2 ≤ s.get BOOT_STAT.SRC ∧
    s.capacityFault = false ∧ s.isSet SL_STAT.SL2_SEEN = false ∧ s.isSet SOR_STAT.ALL_CONV = false) ∧
  (∃ (q : QueueIx), ∃ (v : Word), ∃ (s : State), s.coldHeld = false ∧ s.boot = .list ∧ s.bootWait ≠ 4 ∧ s.get BOOT_STAT.SRC < 2 ∧
    (s.slotHead (s.get BOOT_STAT.SRC)).entries = 1 ∧ s.listEntry (s.get BOOT_STAT.SRC) 0 = (RegId.QD_ARG.at q, v) ∧ s.writes
    0x182 .QD_ARG q 0 v = true) ∧
  (∃ (v : Word), ∃ (s : State), s.coldHeld = false ∧ s.boot = .list ∧ s.cdDown = false ∧ s.bootWait ≠ 4 ∧ s.get BOOT_STAT.SRC < 2
    ∧ (s.slotHead (s.get BOOT_STAT.SRC)).entries = 1 ∧ s.listEntry (s.get BOOT_STAT.SRC) 0 = (RegId.EDITION_SEL.at, v)) ∧
  (∃ (o : Origin), ∃ (v : Word), ∃ (s : State), s.writes o .EDITION_SEL 0 0 v = true ∧ fieldOf v 0 8 ≤ 1) ∧
  (∃ (o : Origin), ∃ (v : Word), ∃ (s : State), s.writes o .EDITION_SEL 0 0 v = true ∧ 1 < fieldOf v 0 8) ∧
  (∃ (o : Origin), ∃ (s : State), s.serves o.toNat RegId.EDITION_SEL.at true = true ∧ s.get EDITION_SEL.ED ≠ 0) ∧
  (∃ (o : Origin), ∃ (v : Word), ∃ (s : State), s.writesPair o .BOOT_CTRL_A 0 (withField v 0 2 1) = true ∧ s.bootRefused (bootOf 1
    v s) (fieldOf v 3 1 == 1) = none) ∧
  (∃ (o : Origin), ∃ (v : Word), ∃ (s : State), s.writesPair o .BOOT_CTRL_A 0 (withField v 0 2 2) = true ∧ s.bootRefused (bootOf 2
    v s) (fieldOf v 3 1 == 1) = none) ∧
  (∃ (o : Origin), ∃ (v : Word), ∃ (s : State), s.writesPair o .BOOT_CTRL_A 0 (withField v 0 2 3) = true ∧ s.bootRefused (bootOf 3
    v s) (fieldOf v 3 1 == 1) = none) ∧
  (∃ (o : Origin), ∃ (v : Word), ∃ (code : Nat), ∃ (s : State), s.writesPair o .BOOT_CTRL_A 0 (withField v 0 2 1) = true ∧
    s.bootRefused (bootOf 1 v s) (fieldOf v 3 1 == 1) = some code) ∧
  (∃ (o : Origin), ∃ (v : Word), ∃ (code : Nat), ∃ (s : State), s.writesPair o .BOOT_CTRL_A 0 (withField v 0 2 2) = true ∧
    s.bootRefused (bootOf 2 v s) (fieldOf v 3 1 == 1) = some code) ∧
  (∃ (o : Origin), ∃ (v : Word), ∃ (code : Nat), ∃ (s : State), s.writesPair o .BOOT_CTRL_A 0 (withField v 0 2 3) = true ∧
    s.bootRefused (bootOf 3 v s) (fieldOf v 3 1 == 1) = some code) ∧
  (∃ (r : NvmEnd), ∃ (b : BootCmd), ∃ (s : State), s.coldHeld = false ∧ s.cdDown = false ∧ s.bootCmd = some b ∧ r ≠ .done) ∧
  (∃ (b : BootCmd), ∃ (s : State), s.coldHeld = false ∧ s.cdDown = false ∧ s.bootCmd = some b ∧ b.cmd = 1) ∧
  (∃ (b : BootCmd), ∃ (s : State), s.coldHeld = false ∧ s.cdDown = false ∧ s.bootCmd = some b ∧ b.cmd = 2) ∧
  (∃ (b : BootCmd), ∃ (s : State), s.coldHeld = false ∧ s.cdDown = false ∧ s.bootCmd = some b ∧ b.cmd = 3) :=
  ⟨⟨booting .sram, by decide +kernel⟩,
  ⟨booting .sram, by decide +kernel⟩,
  ⟨booting .cal, by decide +kernel⟩,
  ⟨booting .image, by decide +kernel⟩,
  ⟨{ booting .image with nvmLost := true }, by decide +kernel⟩,
  ⟨booting .image, by decide +kernel⟩,
  ⟨1, booting .image (slot 1 0 0), by decide +kernel⟩,
  ⟨((booting .cores).put EDITION_SEL.ED 1).put REF_STAT.STATE 1, by decide +kernel⟩,
  ⟨((booting .list).put BOOT_STAT.SRC 2).put EDITION_SEL.ED 1, by decide +kernel⟩,
  ⟨32766, 0xFFFFFFFF, ((booting .list (slot 1 (RegId.QD_ARG.at 32766) 0xFFFFFFFF)).put BOOT_STAT.SRC 1).put EDITION_SEL.ED 1,
    by decide +kernel⟩,
  ⟨1, ((booting .list (slot 1 (RegId.EDITION_SEL.at) 1)).put BOOT_STAT.SRC 1), by decide +kernel⟩,
  ⟨0x100, 1, linkUp (booting .cores), by decide +kernel⟩,
  ⟨0x100, 2, linkUp (booting .cores), by decide +kernel⟩,
  ⟨0x100, up, by decide +kernel⟩,
  ⟨0x100, 5, up, by decide +kernel⟩,
  ⟨0x100, 6, ((up.put BOOT_LEN.LEN 4).put BOOT_SRC.SRC 0x3FFFFC).put BOOT_DST.DST 0x680FFC, by decide +kernel⟩,
  ⟨0x100, 7, up.put NVM_CFG.HOLDUP_MS 2, by decide +kernel⟩,
  ⟨0x100, 5, 3, { up with nvmOp := some ⟨1, none⟩ }, by decide +kernel⟩,
  ⟨0x100, 6, 3, { up with nvmOp := some ⟨1, none⟩ }, by decide +kernel⟩,
  ⟨0x100, 7, 2, (up.put NVM_CFG.HOLDUP_MS 0), by decide +kernel⟩,
  ⟨.silent, ⟨1, 1, 0, 0, 0, 0⟩, { up with bootCmd := some ⟨1, 1, 0, 0, 0, 0⟩ }, by decide +kernel⟩,
  ⟨⟨1, 1, 0, 0, 0, 0⟩, { up with bootCmd := some ⟨1, 1, 0, 0, 0, 0⟩ }, by decide +kernel⟩,
  ⟨⟨2, 1, 0x3FFFFC, 0x680FFC, 4, 0⟩, { up with bootCmd := some ⟨2, 1, 0x3FFFFC, 0x680FFC, 4, 0⟩ }, by decide +kernel⟩,
  ⟨⟨3, 1, 0, 0, 16, 6⟩, { up with bootCmd := some ⟨3, 1, 0, 0, 16, 6⟩ }, by decide +kernel⟩⟩

theorem witness_ReinitsComplete :
  (∃ (o : Origin), ∃ (v : Word), ∃ (s : State), s.writes o .REINIT 0 0 (withField (withField v 0 3 0) 13 1 1) = true ∧
    s.reinitRefused 0 (fieldOf v 3 10) = none) ∧
  (∃ (o : Origin), ∃ (v : Word), ∃ (s : State), s.writes o .REINIT 0 0 (withField (withField v 0 3 1) 13 1 1) = true ∧
    s.reinitRefused 1 (fieldOf v 3 10) = none) ∧
  (∃ (o : Origin), ∃ (v : Word), ∃ (s : State), s.writes o .REINIT 0 0 (withField (withField v 0 3 2) 13 1 1) = true ∧
    s.reinitRefused 2 (fieldOf v 3 10) = none) ∧
  (∃ (o : Origin), ∃ (v : Word), ∃ (s : State), s.writes o .REINIT 0 0 (withField (withField v 0 3 3) 13 1 1) = true ∧
    s.reinitRefused 3 (fieldOf v 3 10) = none ∧ s.linkState (fieldOf v 3 10) ≠ lsOff) ∧
  (∃ (o : Origin), ∃ (v : Word), ∃ (s : State), s.writes o .REINIT 0 0 (withField (withField v 0 3 4) 13 1 1) = true ∧
    s.reinitRefused 4 (fieldOf v 3 10) = none) ∧
  (∃ (o : Origin), ∃ (v : Word), ∃ (s : State), s.writes o .REINIT 0 0 (withField (withField v 0 3 5) 13 1 1) = true ∧
    s.reinitRefused 5 (fieldOf v 3 10) = none ∧ fieldOf v 3 10 < 2 ∧ s.calLost = false) ∧
  (∃ (o : Origin), ∃ (v : Word), ∃ (s : State), s.writes o .REINIT 0 0 (withField (withField v 0 3 5) 13 1 1) = true ∧
    s.reinitRefused 5 (fieldOf v 3 10) = none ∧ fieldOf v 3 10 < 2 ∧ s.calLost = true) ∧
  (∃ (o : Origin), ∃ (v : Word), ∃ (code : Nat), ∃ (s : State), s.writes o .REINIT 0 0 (withField (withField v 0 3 5) 13 1 1) =
    true ∧ s.reinitRefused 5 (fieldOf v 3 10) = some code) ∧
  (∃ (j : Nat), ∃ (k : Nat), ∃ (i : Nat), ∃ (due : Nat), ∃ (s : State), s.coldHeld = false ∧ s.cdDown = false ∧ s.reinits[j]? =
    some (k, i, due) ∧ s.clock ≤ due ∧ ((k = 2 → s.engState i ≠ esReinit))) ∧
  (∃ (j : Nat), ∃ (k : Nat), ∃ (i : Nat), ∃ (due : Nat), ∃ (s : State), s.coldHeld = false ∧ s.cdDown = false ∧ s.reinits[j]? =
    some (k, i, due) ∧ due ≤ s.clock) :=
  ⟨⟨0x100, 504, up, by decide +kernel⟩,
  ⟨0x100, 8184, up, by decide +kernel⟩,
  ⟨0x100, 2040, runs [], by decide +kernel⟩,
  ⟨0x100, 120, linked lsUp 1, by decide +kernel⟩,
  ⟨0x100, 1272, up, by decide +kernel⟩,
  ⟨0x100, 12, up, by decide +kernel⟩,
  ⟨0x100, 12, up.put MEM_BANK_STAT.LOST 0x4000, by decide +kernel⟩,
  ⟨0x100, 8184, 2, up, by decide +kernel⟩,
  ⟨1, 0, 63, 6400000000, { up with reinits := [(1, 5, 6400000000), (0, 63, 6400000000)] }, by decide +kernel⟩,
  ⟨1, 0, 63, 6400000000, { up with reinits := [(1, 5, 6400000000), (0, 63, 6400000000)] }, by decide +kernel⟩⟩

theorem witness_MailboxesComplete :
  (∃ (o : Origin), ∃ (v : Word), ∃ (w : WideVal), ∃ (s : State), mailboxIdle o s ∧ s.wideOf (4 * fieldOf v 0 24) = some w ∧
    s.mayAccess o.toNat (4 * fieldOf v 0 24) false = true ∧ s.snapLost (4 * fieldOf v 0 24) = false) ∧
  (∃ (o : Origin), ∃ (v : Word), ∃ (w : WideVal), ∃ (s : State), mailboxIdle o s ∧ s.wideOf (4 * fieldOf v 0 24) = some w ∧
    s.mayAccess o.toNat (4 * fieldOf v 0 24) false = false) ∧
  (∃ (o : Origin), ∃ (v : Word), ∃ (s : State), mailboxIdle o s ∧ s.wideOf (4 * fieldOf v 0 24) = none) ∧
  (∃ (o : Origin), ∃ (v : Word), ∃ (q : Nat), ∃ (z : Nat), ∃ (s : State), mailboxIdle o s ∧ q = fieldOf v 0 15 ∧ z = fieldOf v 28
    2 ∧ z ≠ 3 ∧ accepts s q (s.classOf o.toNat) (16 * 2 ^ z)) ∧
  (∃ (o : Origin), ∃ (v : Word), ∃ (s : State), mailboxIdle o s ∧ fieldOf v 28 2 ≠ 3 ∧ s.accOff = true) ∧
  (∃ (o : Origin), ∃ (v : Word), ∃ (q : Nat), ∃ (i : Item), ∃ (s : State), mailboxIdle o s ∧ q = fieldOf v 0 15 ∧ s.isSet
    QD_CTRL.EN q = true ∧ s.isSet QD_CTRL.HOSTQ q = true ∧ (s.get QD_CTRL.SUBMIT q).testBit (s.classOf o.toNat) = true ∧
    s.headItem q = some i ∧ s.item q i.seq = some i ∧ i.out = 0 ∧ i.recs = [] ∧ s.verdictDue q i.seq = false ∧ i.mseq = none ∧
    s.isSet QD_CTRL.CQ_EN q = false) ∧
  (∃ (o : Origin), ∃ (v : Word), ∃ (q : Nat), ∃ (s : State), mailboxIdle o s ∧ q = fieldOf v 0 15 ∧ s.isSet QD_CTRL.EN q = true ∧
    s.isSet QD_CTRL.HOSTQ q = true ∧ (s.get QD_CTRL.SUBMIT q).testBit (s.classOf o.toNat) = true ∧ s.headItem q = none) ∧
  (∃ (o : Origin), ∃ (v : Word), ∃ (x : Instr), ∃ (s : State), x ∈ [Instr.mailboxSnap o v, .mailboxSubmit o v, .mailboxTake o v] ∧
    hasMailbox o s ∧ fieldOf (s.org o.toNat).stat 1 1 = 1) ∧
  (∃ (o : Origin), ∃ (v : Word), ∃ (x : Instr), ∃ (s : State), x ∈ [Instr.mailboxSnap o v, .mailboxSubmit o v, .mailboxTake o v] ∧
    o.toNat < 256 ∧ s.cdDown = false) ∧
  (∃ (o : Origin), ∃ (v : Word), ∃ (x : Instr), ∃ (s : State), x ∈ [Instr.mailboxSnap o v, .mailboxSubmit o v, .mailboxTake o v] ∧
    s.cdDown = false ∧ s.linkRefused o.toNat = true ∧ (s.org o.toNat).pair = none) ∧
  (∃ (o : Origin), ∃ (words : List (Nat × Word)), ∃ (s : State), s.coldHeld = false ∧ s.cdDown = false ∧ (s.org o.toNat).busy =
    some ⟨0, words⟩ ∧ (words.map (·.1)).Nodup ∧ ((fieldOf (s.org o.toNat).req 24 4 = 1 → s.snapLost (4 * fieldOf (s.org
    o.toNat).req 0 24) = false))) ∧
  (∃ (o : Origin), ∃ (words : List (Nat × Word)), ∃ (s : State), s.coldHeld = false ∧ s.cdDown = false ∧ (s.org o.toNat).busy =
    some ⟨0, words⟩ ∧ fieldOf (s.org o.toNat).req 24 4 = 1 ∧ s.snapLost (4 * fieldOf (s.org o.toNat).req 0 24) = true) ∧
  (∃ (o : Origin), ∃ (r : MbResult), ∃ (s : State), s.coldHeld = false ∧ s.cdDown = false ∧ (s.org o.toNat).busy = some r ∧ r.err
    ≠ 0) ∧
  (∃ (o : Origin), ∃ (v : Word), ∃ (l : Nat), ∃ (s : State), s.writes o .RY_RACC_CTRL 0 0 (withField v 9 1 1) = true ∧ s.isSet
    RY_RACC_CTRL.GO = false ∧ s.isTop = true ∧ s.get WT_STAT.STATE (fieldOf v 0 8) = 3 ∧ s.get WT_STAT.LINK (fieldOf v 0 8) = l
    ∧ lsDiscover ≤ s.linkState l) ∧
  (∃ (o : Origin), ∃ (v : Word), ∃ (s : State), s.writes o .RY_RACC_CTRL 0 0 (withField v 9 1 1) = true ∧ s.isSet RY_RACC_CTRL.GO
    = false ∧ ((s.isTop = false ∨ s.get WT_STAT.STATE (fieldOf v 0 8) < 3))) :=
  ⟨⟨0x100, 0x20040, (up.wideOf 0x80100).getD ⟨0, none, 0⟩, up, by unfold mailboxIdle hasMailbox; decide +kernel⟩,
  ⟨0x100, 0x20040, (up.wideOf 0x80100).getD ⟨0, none, 0⟩, up.setReg (RegId.PERM_CLASS.at 0) 0,
    by unfold mailboxIdle hasMailbox; decide +kernel⟩,
  ⟨0x100, 0, up, by unfold mailboxIdle hasMailbox; decide +kernel⟩,
  ⟨0x100, 32766, 32766, 0, hostQ, by unfold mailboxIdle accepts hasMailbox; decide +kernel⟩,
  ⟨0x100, 0, up.put MEM_BANK_STAT.LOST 6, by unfold mailboxIdle hasMailbox; decide +kernel⟩,
  ⟨0x100, 32766, 32766, { seq := 7 }, hostQ [{ seq := 7 }], by unfold mailboxIdle hasMailbox; decide +kernel⟩,
  ⟨0x100, 32766, 32766, hostQ, by unfold mailboxIdle hasMailbox; decide +kernel⟩,
  ⟨0x100, 0, .mailboxTake 0x100 0, up.setOrg 0x100 { stat := 2 }, by unfold hasMailbox; decide +kernel⟩,
  ⟨255, 0, .mailboxTake 255 0, up, by decide +kernel⟩,
  ⟨0x11F, 0, .mailboxTake 0x11F 0, up, by decide +kernel⟩,
  ⟨0x100, [(3, 0xFFFFFFFF), (0, 1)], up.setOrg 0x100
    { req := 0x01020040, stat := 2, busy := some ⟨0, [(3, 0xFFFFFFFF), (0, 1)]⟩ }, by decide +kernel⟩,
  ⟨0x100, [(3, 0xFFFFFFFF), (0, 1)], (up.setOrg 0x100
    { req := BitVec.ofNat 32 (0x01000000 + aLAST_EDGE 1279 / 4), stat := 2, busy := some ⟨0, [(3, 0xFFFFFFFF), (0, 1)]⟩ }).put
    CHIP_STAT.LOST 0x80, by decide +kernel⟩,
  ⟨0x100, ⟨2, []⟩, up.setOrg 0x100 { stat := 2, busy := some ⟨2, []⟩ }, by decide +kernel⟩,
  ⟨0x100, 255, 15, manages 3, by decide +kernel⟩,
  ⟨0x100, 255, up, by decide +kernel⟩⟩

theorem witness_RegisterAccessesComplete :
  (∃ (o : Origin), ∃ (a : RegAddr), ∃ (v : Word), ∃ (id : RegId), ∃ (i : Nat), ∃ (j : Nat), ∃ (s : State), a.toNat = id.at i j ∧
    regOf a.toNat = some ⟨id, i, j⟩ ∧ hooked id = false ∧ id ≠ .PERM_CLASS ∧ id ≠ .ORIGIN_CLASS ∧ (regRow id).wo1 = 0 ∧ s.writes
    o id i j v = true) ∧
  (∃ (o : Origin), ∃ (a : RegAddr), ∃ (v : Word), ∃ (k : Fin 4), ∃ (s : State), a.toNat = RegId.PERM_CLASS.at k ∧ s.writes o
    .PERM_CLASS k 0 v = true) ∧
  (∃ (o : Origin), ∃ (a : RegAddr), ∃ (s : State), s.cdDown = false ∧ s.busOn o.toNat = true ∧ a.toNat % 4 = 0 ∧ (¬ (0x40000 ≤
    a.toNat ∧ a.toNat < 0x44000)) ∧ (s.org o.toNat).pair = none ∧ s.mayAccess o.toNat a.toNat true = false ∧ s.tansyQ.length <
    256) ∧
  (∃ (o : Origin), ∃ (a : RegAddr), ∃ (id : RegId), ∃ (i : Nat), ∃ (j : Nat), ∃ (s : State), a.toNat = id.at i j ∧ regOf a.toNat =
    some ⟨id, i, j⟩ ∧ id.readsZero = false ∧ s.serves o.toNat a.toNat false = true) ∧
  (∃ (o : Origin), ∃ (a : RegAddr), ∃ (id : RegId), ∃ (i : Nat), ∃ (j : Nat), ∃ (s : State), a.toNat = id.at i j ∧ regOf a.toNat =
    some ⟨id, i, j⟩ ∧ id.readsZero = true ∧ s.serves o.toNat a.toNat false = true) ∧
  (∃ (o : Origin), ∃ (a : RegAddr), ∃ (s : State), s.cdDown = false ∧ s.busOn o.toNat = true ∧ a.toNat % 4 = 0 ∧ (¬ (0x40000 ≤
    a.toNat ∧ a.toNat < 0x44000)) ∧ (s.org o.toNat).pair = none ∧ s.mayAccess o.toNat a.toNat false = false ∧ ((o.toNat < 256 →
    reservedAt a.toNat = false))) ∧
  (∃ (o : Origin), ∃ (a : RegAddr), ∃ (s : State), s.cdDown = false ∧ o.toNat < 256 ∧ ((0x40000 ≤ a.toNat ∧ a.toNat < 0x44000 ∨
    reservedAt a.toNat = true))) ∧
  (∃ (o : Origin), ∃ (a : RegAddr), ∃ (s : State), s.cdDown = false ∧ s.busOn o.toNat = true ∧ (¬ (0x40000 ≤ a.toNat ∧ a.toNat <
    0x44000)) ∧ reservedAt a.toNat = true ∧ (s.org o.toNat).pair = none ∧ s.mayAccess o.toNat a.toNat true = true ∧
    s.tansyQ.length < 256) ∧
  (∃ (o : Origin), ∃ (a : RegAddr), ∃ (id : RegId), ∃ (i : Nat), ∃ (j : Nat), ∃ (s : State), a.toNat = id.at i j ∧ regOf a.toNat =
    some ⟨id, i, j⟩ ∧ a.toNat < 0x02000000 ∧ a.toNat % 0x4000 < 0x1000 ∧ (¬ (0x360000 ≤ a.toNat ∧ a.toNat < 0x364000)) ∧ hooked
    id = false ∧ s.serves o.toNat a.toNat true = true ∧ s.lockedBy ⟨id, i, j⟩ = false ∧ s.tansyQ.length < 256 ∧ (regRow id).rcc
    = 0) ∧
  (∃ (o : Origin), ∃ (a : RegAddr), ∃ (id : RegId), ∃ (i : Nat), ∃ (j : Nat), ∃ (s : State), a.toNat = id.at i j ∧ regOf a.toNat =
    some ⟨id, i, j⟩ ∧ a.toNat < 0x02000000 ∧ a.toNat % 0x4000 < 0x1000 ∧ (¬ (0x360000 ≤ a.toNat ∧ a.toNat < 0x364000)) ∧ hooked
    id = false ∧ s.serves o.toNat a.toNat true = true ∧ s.tansyQ.length < 256 ∧ (regRow id).rw = 0) :=
  ⟨⟨0x100, BitVec.ofNat 26 (RegId.QD_ARG.at 32766), 0xFFFFFFFF, .QD_ARG, 32766, 0, up, by decide +kernel⟩,
  ⟨0x100, BitVec.ofNat 26 (RegId.PERM_CLASS.at 3), 0, 3, up, by decide +kernel⟩,
  ⟨0x100, BitVec.ofNat 26 (RegId.QD_ARG.at 32766), up.setReg (RegId.PERM_CLASS.at 0) 0, by decide +kernel⟩,
  ⟨0x100, BitVec.ofNat 26 (RegId.PORT_STAT.at 1023), .PORT_STAT, 1023, 0, up.put PORT_STAT.CEIL_TRIP 1 1023, by decide +kernel⟩,
  ⟨0x100, BitVec.ofNat 26 RegId.RST_CTRL_A.at, .RST_CTRL_A, 0, 0, up, by decide +kernel⟩,
  ⟨0x100, BitVec.ofNat 26 (RegId.QD_ARG.at 32766), up.setReg (RegId.PERM_CLASS.at 0) 0, by decide +kernel⟩,
  ⟨255, BitVec.ofNat 26 0x40000, up, by decide +kernel⟩,
  ⟨255, BitVec.ofNat 26 0x3FFFFFC, runs [], by decide +kernel⟩,
  ⟨0x100, BitVec.ofNat 26 (RegId.ENG_WDOG.at 255), .ENG_WDOG, 255, 0, up, by decide +kernel⟩,
  ⟨0x100, BitVec.ofNat 26 (RegId.PORT_STAT.at 1023), .PORT_STAT, 1023, 0, up.put PORT_STAT.CEIL_TRIP 1 1023, by decide +kernel⟩⟩

theorem witness_PairedWritesComplete :
  (∃ (o : Origin), ∃ (a : RegAddr), ∃ (id : RegId), ∃ (i : Nat), ∃ (s : State), a.toNat = id.at i ∧ regOf a.toNat = some ⟨id, i,
    0⟩ ∧ id.isPairA = true ∧ s.serves o.toNat a.toNat true = true ∧ s.testBarred o.toNat ⟨id, i, 0⟩ = false) ∧
  (∃ (o : Origin), ∃ (a : RegAddr), ∃ (pv : Word), ∃ (id : RegId), ∃ (i : Nat), ∃ (pa : Nat), ∃ (left : Nat), ∃ (s : State),
    a.toNat = id.at i ∧ regOf a.toNat = some ⟨id, i, 0⟩ ∧ id.isPairA = true ∧ s.cdDown = false ∧ s.busOn o.toNat = true ∧
    s.mayAccess o.toNat a.toNat true = true ∧ s.testBarred o.toNat ⟨id, i, 0⟩ = false ∧ s.barred a.toNat = false ∧ (s.org
    o.toNat).pair = some (pa, pv, left) ∧ s.tansyQ.length < 256) ∧
  (∃ (o : Origin), ∃ (v : Word), ∃ (w : WorkerIx), ∃ (id : RegId), ∃ (i : Nat), ∃ (u : Word), ∃ (x : Instr), ∃ (a : RegAddr), ∃ (s
    : State), (a.toNat = id.at i ∧ s.writesPair o id i u = true ∧ ((id = .TEST_CTRL_A → s.classOf o.toNat = 3))) ∧ pairRow o v w
    id i u x) ∧
  (∃ (o : Origin), ∃ (a : RegAddr), ∃ (v : Word), ∃ (id : RegId), ∃ (i : Nat), ∃ (left : Nat), ∃ (s : State), a.toNat = id.at i ∧
    regOf a.toNat = some ⟨id, i, 0⟩ ∧ id.isPairA = true ∧ id ≠ .PERM_LOCK_A ∧ ((id = .TEST_CTRL_A → s.classOf o.toNat = 3)) ∧
    ((id = .RST_CTRL_A → fieldOf v 0 2 ≠ 2)) ∧ s.cdDown = false ∧ s.busOn o.toNat = true ∧ s.mayAccess o.toNat (a.toNat + 4)
    true = true ∧ s.barred (a.toNat + 4) = false ∧ (s.org o.toNat).pair = some (a.toNat, v, left) ∧ left ≠ 0 ∧ (v ^^^ s.reg
    a.toNat) &&& ~~~(BitVec.ofNat 32 (pairMask id)) = 0 ∧ s.testMode = false ∧ s.frozen a.toNat = false ∧ s.tansyQ.length < 256) ∧
  (∃ (o : Origin), ∃ (a : RegAddr), ∃ (v : Word), ∃ (left : Nat), ∃ (s : State), a.toNat = RegId.PERM_LOCK_A.at ∧ s.cdDown = false
    ∧ s.busOn o.toNat = true ∧ s.mayAccess o.toNat (a.toNat + 4) true = true ∧ (s.org o.toNat).pair = some (a.toNat, v, left) ∧
    left ≠ 0 ∧ s.isSet PERM_LOCK_A.LOCK = false ∧ (v ^^^ s.reg a.toNat) &&& 0xFFFFFFFE#32 = 0 ∧ s.testMode = false ∧ s.frozen
    a.toNat = false ∧ s.tansyQ.length < 256) ∧
  (∃ (o : Origin), ∃ (a : RegAddr), ∃ (v : Word), ∃ (pv : Word), ∃ (id : RegId), ∃ (i : Nat), ∃ (left : Nat), ∃ (s : State),
    a.toNat = id.at i ∧ regOf a.toNat = some ⟨id, i, 0⟩ ∧ id.isPairA = true ∧ ((id = .TEST_CTRL_A → s.classOf o.toNat = 3)) ∧
    s.cdDown = false ∧ s.busOn o.toNat = true ∧ s.mayAccess o.toNat (a.toNat + 4) true = true ∧ s.barred (a.toNat + 4) = false ∧
    (s.org o.toNat).pair = some (a.toNat, pv, left) ∧ left ≠ 0 ∧ pv ≠ v ∧ s.tansyQ.length < 256) ∧
  (∃ (o : Origin), ∃ (a : RegAddr), ∃ (pv : Word), ∃ (id : RegId), ∃ (i : Nat), ∃ (pa : Nat), ∃ (left : Nat), ∃ (s : State),
    a.toNat = id.at i ∧ regOf a.toNat = some ⟨id, i, 0⟩ ∧ id.isPairA = true ∧ ((id = .TEST_CTRL_A → s.classOf o.toNat = 3)) ∧
    s.cdDown = false ∧ s.busOn o.toNat = true ∧ s.mayAccess o.toNat (a.toNat + 4) true = true ∧ s.barred (a.toNat + 4) = false ∧
    (s.org o.toNat).pair = some (pa, pv, left) ∧ left ≠ 0 ∧ pa ≠ a.toNat ∧ s.tansyQ.length < 256) ∧
  (∃ (o : Origin), ∃ (a : RegAddr), ∃ (id : RegId), ∃ (i : Nat), ∃ (s : State), a.toNat = id.at i ∧ regOf a.toNat = some ⟨id, i,
    0⟩ ∧ id.isPairA = true ∧ ((id = .TEST_CTRL_A → s.classOf o.toNat = 3)) ∧ s.cdDown = false ∧ s.busOn o.toNat = true ∧
    s.mayAccess o.toNat (a.toNat + 4) true = true ∧ s.barred (a.toNat + 4) = false ∧ (s.org o.toNat).pair = none ∧
    s.tansyQ.length < 256) ∧
  (∃ (o : Origin), ∃ (a : RegAddr), ∃ (v : Word), ∃ (id : RegId), ∃ (i : Nat), ∃ (x : Instr), ∃ (s : State), a.toNat = id.at i ∧
    regOf a.toNat = some ⟨id, i, 0⟩ ∧ id.isPairA = true ∧ s.serves o.toNat a.toNat true = true ∧ s.testBarred o.toNat ⟨id, i, 0⟩
    = false ∧ s.tansyQ.length < 256 ∧ x ∈ [Instr.aliasSet o a v, .aliasClear o a v, .aliasToggle o a v]) ∧
  (∃ (o : Origin), ∃ (s : State), s.isSet PERM_LOCK_A.LOCK = false ∧ s.writesPair o .PERM_LOCK_A 0 (withField (s.reg
    RegId.PERM_LOCK_A.at) 0 1 1) = true) ∧
  (∃ (o : Origin), ∃ (s : State), s.isSet PERM_LOCK_A.LOCK = true ∧ s.writesPair o .PERM_LOCK_A 0 (withField (s.reg
    RegId.PERM_LOCK_A.at) 0 1 1) = true) ∧
  (∃ (o : Origin), ∃ (v : Word), ∃ (s : State), s.writesPair o .TEST_CTRL_A 0 v = true ∧ s.classOf o.toNat = 3) ∧
  (∃ (o : Origin), ∃ (v : Word), ∃ (s : State), s.writesPair o .TEST_CTRL_A 0 v = true ∧ 256 ≤ o.toNat ∧ o.toNat < 0x180 ∧
    s.classOf o.toNat ≠ 3 ∧ s.tansyQ.length < 255) ∧
  (∃ (o : Origin), ∃ (v : Word), ∃ (s : State), s.writesPair o .TEST_CTRL_A 0 v = true ∧ o.toNat < 256 ∧ s.classOf o.toNat ≠ 3) :=
  ⟨⟨0x100, BitVec.ofNat 26 RegId.PORT_MEN_A.at, .PORT_MEN_A, 0, up, by decide +kernel⟩,
  ⟨0x100, BitVec.ofNat 26 RegId.PORT_MEN_A.at, 5, .PORT_MEN_A, 0, RegId.PORT_MEN_A.at, 1, up.setOrg 0x100
    { pair := some (RegId.PORT_MEN_A.at, 5, 1) }, by decide +kernel⟩,
  ⟨0x100, 0xFF, 255, .PORT_MEN_A, 0, 0xFF, .portMenWrite 0x100 0xFF, BitVec.ofNat 26 RegId.PORT_MEN_A.at, up, by decide +kernel,
    by simp [pairRow]⟩,
  ⟨0x100, BitVec.ofNat 26 RegId.PORT_MEN_A.at, 0xFF, .PORT_MEN_A, 0, 1, up.setOrg 0x100
    { pair := some (RegId.PORT_MEN_A.at, 0xFF, 1) }, by decide +kernel⟩,
  ⟨0x100, BitVec.ofNat 26 RegId.PERM_LOCK_A.at, 1, 1, up.setOrg 0x100 { pair := some (RegId.PERM_LOCK_A.at, 1, 1) },
    by decide +kernel⟩,
  ⟨0x100, BitVec.ofNat 26 RegId.PORT_MEN_A.at, 0xFE, 0xFF, .PORT_MEN_A, 0, 1, up.setOrg 0x100
    { pair := some (RegId.PORT_MEN_A.at, 0xFF, 1) }, by decide +kernel⟩,
  ⟨0x100, BitVec.ofNat 26 RegId.PORT_MEN_A.at, 0xFF, .PORT_MEN_A, 0, RegId.RST_CTRL_A.at, 1, up.setOrg 0x100
    { pair := some (RegId.RST_CTRL_A.at, 0xFF, 1) }, by decide +kernel⟩,
  ⟨0x100, BitVec.ofNat 26 RegId.PORT_MEN_A.at, .PORT_MEN_A, 0, up, by decide +kernel⟩,
  ⟨0x100, BitVec.ofNat 26 RegId.PORT_MEN_A.at, 1, .PORT_MEN_A, 0, .aliasToggle 0x100 (BitVec.ofNat 26 RegId.PORT_MEN_A.at) 1, up,
    by decide +kernel⟩,
  ⟨0x100, up, by decide +kernel⟩,
  ⟨0x100, up.put PERM_LOCK_A.LOCK 1, by decide +kernel⟩,
  ⟨0x100, 1, up.put ORIGIN_CLASS.PCIE_MAINT 1, by decide +kernel⟩,
  ⟨0x100, 1, up, by decide +kernel⟩,
  ⟨255, 1, up.setReg (RegId.PERM_CLASS.at 2) 0xFFFFFFFF, by decide +kernel⟩⟩

theorem witness_ScrubberAndChangeLogComplete :
  (∃ (a : RegAddr), ∃ (v : Word), ∃ (r : RegAt), ∃ (s : State), s.coldHeld = false ∧ s.cdDown = false ∧ regOf a.toNat = some r ∧
    s.barred a.toNat = false ∧ r.configuration = true ∧ r.id.isPairB = false ∧ s.threeCopies r = true ∧ v ≠ s.reg a.toNat) ∧
  (∃ (a : RegAddr), ∃ (v : Word), ∃ (r : RegAt), ∃ (s : State), s.coldHeld = false ∧ s.cdDown = false ∧ regOf a.toNat = some r ∧
    s.barred a.toNat = false ∧ r.configuration = true ∧ r.id.isPairB = false ∧ s.threeCopies r = false ∧ s.badAt a.toNat = none
    ∧ parityTells (s.reg a.toNat) v = true ∧ s.tansyQ.length < 256 ∧ r.id ∉ regIdsEngine ∧ r.id ∉ regIdsQueue) ∧
  (∃ (a : RegAddr), ∃ (s : State), s.badAt a.toNat = none) ∧
  (∃ (r : LogRec), ∃ (rest : List LogRec), ∃ (s : State), s.coldHeld = false ∧ s.cdDown = false ∧ s.boot ≠ .sram ∧ s.bankLost 12 =
    false ∧ s.tansyStopped = false ∧ s.tansyGap = 0 ∧ s.tansyQ = r :: rest ∧ s.isSet TANSY_CFG.MODE = false) ∧
  (∃ (r : LogRec), ∃ (rest : List LogRec), ∃ (s : State), s.coldHeld = false ∧ s.cdDown = false ∧ s.boot ≠ .sram ∧ s.bankLost 12 =
    false ∧ s.tansyStopped = true ∧ s.tansyQ = r :: rest) ∧
  (∃ (s : State), s.coldHeld = false ∧ s.cdDown = false ∧ s.boot ≠ .sram ∧ s.bankLost 12 = false ∧ s.tansyStopped = false ∧
    s.tansyGap ≠ 0 ∧ s.tansyQ.length < 256) ∧
  (∃ (o : Origin), ∃ (v : Word), ∃ (s : State), s.writes o .TANSY_RD 0 0 v = true ∧ fieldOf v 0 16 ≠ s.get TANSY_WR.WR) ∧
  (∃ (o : Origin), ∃ (v : Word), ∃ (s : State), s.writes o .TANSY_RD 0 0 v = true ∧ fieldOf v 0 16 = s.get TANSY_WR.WR) :=
  ⟨⟨4, 0, ⟨.EDITION_SEL, 0, 0⟩, up, by decide +kernel⟩,
  ⟨BitVec.ofNat 26 (RegId.PORT_CEIL.at 1023), 1, ⟨.PORT_CEIL, 1023, 0⟩, up.put PORT_CEIL.CEIL_KHZ 0 1023, by decide +kernel⟩,
  ⟨0, up, by decide +kernel⟩,
  ⟨⟨5, 0x100, 1, 0x28, 0, 1, 0⟩, [], { up with tansyQ := [⟨5, 0x100, 1, 0x28, 0, 1, 0⟩] }, by decide +kernel⟩,
  ⟨⟨5, 0x100, 1, 0x28, 0, 1, 0⟩, [],
    { ((up.put TANSY_CFG.MODE 1).put TANSY_WR.FULL 1) with tansyQ := [⟨5, 0x100, 1, 0x28, 0, 1, 0⟩] }, by decide +kernel⟩,
  ⟨{ up with tansyGap := 3 }, by decide +kernel⟩,
  ⟨0x100, 5, up, by decide +kernel⟩,
  ⟨0x100, 0, up, by decide +kernel⟩⟩

theorem witness_SlavePortCompletes :
  (∃ (f : SspFrame), ∃ (s : State), Framed 0 f s ∧ s.sspRejects f = none) ∧
  (∃ (f : SspFrame), ∃ (s : State), (Framed 1 f s ∧ s.sspRejects f = none) ∧ ((∀ i, i < f.count → plainRead oSsp (f.wordAddr i)
    s))) ∧
  (∃ (f : SspFrame), ∃ (id : RegId), ∃ (i : Nat), ∃ (j : Nat), ∃ (s : State), Framed 2 f s ∧ s.sspRejects f = none ∧ f.count = 1 ∧
    f.addr = id.at i j ∧ regOf f.addr = some ⟨id, i, j⟩ ∧ hooked id = false ∧ id ≠ .SSP_STAT ∧ id ≠ .SSP_CNT ∧ s.writes 0x101 id
    i j (f.word 0) = true) ∧
  (∃ (f : SspFrame), ∃ (s : State), Framed 3 f s ∧ s.sspRejects f = none ∧ f.addr < 0x8000 ∧ f.count = s.streamWords f.addr ∧
    accepts s f.addr (s.classOf oSsp) (4 * f.count)) ∧
  (∃ (f : SspFrame), ∃ (s : State), Framed 3 f s ∧ s.sspRejects f = none ∧ f.addr < 0x8000 ∧ f.count ≠ 0 ∧ s.accOff = true) ∧
  (∃ (f : SspFrame), ∃ (s : State), Framed 4 f s ∧ s.sspRejects f = none ∧ ((∀ i, i < f.count → s.readFails (f.wordAddr i) 4 =
    false))) ∧
  (∃ (f : SspFrame), ∃ (s : State), Framed 5 f s ∧ s.sspRejects f = none ∧ f.fixed = false ∧ s.tansyQ.length < 256 ∧ s.bankLost
    (bankOf f.addr) = false ∧ s.bankLost (bankOf (f.addr + 4 * f.count - 1)) = false) ∧
  (∃ (f : SspFrame), ∃ (op : Nat), ∃ (code : Nat), ∃ (c : Instr), ∃ (s : State), (Framed op f s ∧ s.sspRejects f = some code ∧
    ((f.reads = true → sspServed f code = 0)) ∧ ((f.reads = false → sspKept f code = 0)) ∧ s.tansyQ.length < 256) ∧ sspRow f op
    c) ∧
  (∃ (f : SspFrame), ∃ (op : Nat), ∃ (code : Nat), ∃ (c : Instr), ∃ (s : State), (s.cdGone = false ∧ s.warm = true ∧ s.boot ≠
    .sram ∧ f.hasCmd = true ∧ f.op = op ∧ f.abort.isSome = true ∧ s.sspRejects f = some code ∧ s.tansyQ.length < 256) ∧ sspRow f
    op c) ∧
  (∃ (f : SspFrame), ∃ (s : State), Framed 2 f s ∧ s.sspRejects f = none ∧ f.fixed = false ∧ f.count = 2 ∧ f.addr =
    RegId.RST_CTRL_A.at ∧ f.word 1 = ~~~f.word 0 ∧ fieldOf (f.word 0) 0 2 = 1 ∧ s.writesPair 0x101 .RST_CTRL_A 0 (f.word 0) =
    true) :=
  ⟨⟨ssp 0 0 0, up, by rw [framed_iff]; decide +kernel⟩,
  ⟨ssp 1 (RegId.QD_ARG.at 32766) 1, up, by rw [framed_iff]; decide +kernel, plain_ssp⟩,
  ⟨ssp 2 (RegId.QD_ARG.at 32766) 1 (leBytes 4 0xFFFFFFFF), .QD_ARG, 32766, 0, up, by rw [framed_iff]; decide +kernel⟩,
  ⟨ssp 3 32766 4 (List.replicate 16 1), hostQ [] (up.put SSP_CFG.STREAM_EN 1), by rw [framed_iff]; unfold accepts; decide +kernel⟩,
  ⟨ssp 3 32766 4 (List.replicate 16 1), (up.put SSP_CFG.STREAM_EN 1).put MEM_BANK_STAT.LOST 6, by rw [framed_iff]; decide +kernel⟩,
  ⟨ssp 4 0x01FFFFFC 1, up, by rw [framed_iff]; decide +kernel⟩,
  ⟨ssp 5 0x017FFFFC 1 (List.replicate 4 255), up.put PCIE_CFG.PS_WR 1, by rw [framed_iff]; decide +kernel⟩,
  ⟨ssp 0 0 0 [] 1, 0, 5, .sspStatus (ssp 0 0 0 [] 1), up, by rw [framed_iff]; decide +kernel, by simp [sspRow]⟩,
  ⟨ssp 2 (RegId.QD_ARG.at 32766) 1 [1, 2, 3, 4] 0 (some 0), 2, 8, .sspWrite (ssp 2 (RegId.QD_ARG.at 32766) 1 [1, 2, 3, 4] 0 (some
    0)), { up with warm := true }, by decide +kernel, by simp [sspRow]⟩,
  ⟨ssp 2 RegId.RST_CTRL_A.at 2 (leBytes 4 1 ++ leBytes 4 0xFFFFFFFE), up, by rw [framed_iff]; decide +kernel⟩⟩

theorem witness_PcieRequestsComplete :
  (∃ (r : BarRequest), ∃ (s : State), (s.coldHeld = false ∧ s.barOn = true ∧ ((r.dws = 1 ∨ r.dws = 2)) ∧ r.allBytes = true ∧
    r.addr.toNat % (4 * r.dws) = 0 ∧ r.write = false) ∧ ((∀ i, i < r.dws → plainRead oPcie (r.addr.toNat + 4 * i) s))) ∧
  (∃ (r : BarRequest), ∃ (v : Word), ∃ (id : RegId), ∃ (i : Nat), ∃ (j : Nat), ∃ (s : State), s.coldHeld = false ∧ s.barOn = true
    ∧ r.dws = 1 ∧ r.allBytes = true ∧ r.write = true ∧ r.data = [v] ∧ r.addr.toNat = id.at i j ∧ regOf r.addr.toNat = some ⟨id,
    i, j⟩ ∧ hooked id = false ∧ s.writes 0x100 id i j v = true) ∧
  (∃ (r : BarRequest), ∃ (s : State), s.coldHeld = false ∧ s.barOn = true ∧ ((r.dws = 0 ∨ 2 < r.dws ∨ r.allBytes = false ∨
    r.addr.toNat % (4 * r.dws) ≠ 0))) ∧
  (∃ (off : BitVec 25), ∃ (len : Nat), ∃ (s : State), s.coldHeld = false ∧ s.barOn = true ∧ ((∀ i, i < len → barReads (off.toNat +
    i) = true)) ∧ s.readFails off.toNat len = false) ∧
  (∃ (off : BitVec 25), ∃ (len : Nat), ∃ (s : State), s.coldHeld = false ∧ s.barOn = true ∧ ((∀ i, i < len → barReads (off.toNat +
    i) = true)) ∧ s.badWords = [] ∧ s.readFails off.toNat len = true) ∧
  (∃ (off : BitVec 25), ∃ (len : Nat), ∃ (i : Nat), ∃ (s : State), s.coldHeld = false ∧ s.barOn = true ∧ i < len ∧ barReads
    (off.toNat + i) = false) ∧
  (∃ (off : BitVec 25), ∃ (data : List Byte), ∃ (s : State), s.coldHeld = false ∧ s.barOn = true ∧ data ≠ [] ∧ tlpPayload
    off.toNat data.length ≤ s.maxPayload ∧ s.isSet PCIE_CFG.PS_WR = true ∧ 0x01400000 ≤ off.toNat ∧ off.toNat + data.length ≤
    0x01800000 ∧ s.bankLost 10 = false ∧ s.bankLost 11 = false ∧ s.tansyQ.length < 256) ∧
  (∃ (off : BitVec 25), ∃ (rest : List (Option Byte)), ∃ (s : State), s.coldHeld = false ∧ s.barOn = true ∧ tlpPayload off.toNat
    (rest.length + 1) ≤ s.maxPayload ∧ s.barWrites off.toNat = false ∧ s.tansyQ.length < 256) ∧
  (∃ (off : BitVec 25), ∃ (bs : List (Option Byte)), ∃ (s : State), s.coldHeld = false ∧ s.barOn = true ∧ s.maxPayload <
    tlpPayload off.toNat bs.length) ∧
  (∃ (s : State), s.coldHeld = false) ∧
  (∃ (speed : Fin 5), ∃ (width : Fin 9), ∃ (s : State), s.coldHeld = false ∧ s.cdDown = false ∧ speed ≠ 0 ∧ width.val ∈ [1, 2, 4,
    8]) ∧
  (∃ (s : State), s.coldHeld = false ∧ s.cdDown = false ∧ s.isSet PCIE_STAT.LINK_UP = true) ∧
  (∃ (s : State), (s.coldHeld = false ∧ s.cdDown = false ∧ s.isSet PCIE_STAT.D3 = true) ∧ ((∀ v, (s.vec v).pending = false ∧
    (s.vec v).merged = false))) ∧
  (∃ (v : Nat), ∃ (x : Vec), ∃ (s : State), s.coldHeld = false ∧ s.cdDown = false ∧ s.isSet PCIE_STAT.D3 = true ∧ s.msix = [(v,
    x)] ∧ x.pending = true ∧ x.ctrl.getLsbD 0 = false ∧ s.fnMask = false ∧ s.bme = true ∧ s.vecFree v = true) :=
  ⟨⟨⟨BitVec.ofNat 26 (RegId.QD_ENTRY.at 32766), false, 2, true, []⟩, linkUp, by decide +kernel, plain_pcie⟩,
  ⟨⟨BitVec.ofNat 26 (RegId.QD_ARG.at 32766), true, 1, true, [0xFFFFFFFF]⟩, 0xFFFFFFFF, .QD_ARG, 32766, 0, linkUp,
    by decide +kernel⟩,
  ⟨⟨BitVec.ofNat 26 (RegId.QD_ARG.at 32766), false, 2, true, []⟩, linkUp, by decide +kernel⟩,
  ⟨0x1FFFFBF, 65, linkUp, by decide +kernel⟩,
  ⟨0x1FFFFFF, 1, linkUp (up.put MEM_BANK_STAT.LOST 0x8000), by decide +kernel⟩,
  ⟨0x13FFFFF, 2, 0, linkUp, by decide +kernel⟩,
  ⟨0x17FFFFF, [0xFF], linkUp (up.put PCIE_CFG.PS_WR 1), by decide +kernel⟩,
  ⟨0x1800000, [none], linkUp (up.put PCIE_CFG.PS_WR 1), by decide +kernel⟩,
  ⟨0x17FFF7F, List.replicate 128 (some 0), linkUp (up.put PCIE_CFG.PS_WR 1), by decide +kernel⟩,
  ⟨linkUp, by decide +kernel⟩,
  ⟨4, 8, up, by decide +kernel⟩,
  ⟨linkUp, by decide +kernel⟩,
  ⟨linkUp (up.put PCIE_STAT.D3 1), by decide +kernel, fun _ => ⟨rfl, rfl⟩⟩,
  ⟨383, { pending := true, ctrl := 0 }, { up.put PCIE_STAT.D3 1 with msix := [(383, { pending := true, ctrl := 0 })] },
    by decide +kernel⟩⟩

theorem witness_EventsComplete :
  (∃ (i : Nat), ∃ (rest : List Nat), ∃ (s : State), s.coldHeld = false ∧ s.cdDown = false ∧ s.raising = i :: rest ∧ i < 384 ∧
    s.isSet EV_ROUTE.MSIX i = false ∧ s.isSet EV_ROUTE.RY i = false) ∧
  (∃ (i : Nat), ∃ (v : Nat), ∃ (rest : List Nat), ∃ (s : State), s.coldHeld = false ∧ s.cdDown = false ∧ s.raising = i :: rest ∧ i
    < 384 ∧ SMap.get (fun _ => 0) s.routedAt i ≠ s.clock + 1 ∧ s.isSet EV_ROUTE.MSIX i = true ∧ s.get EV_ROUTE.VEC i = v ∧
    s.isSet EV_ROUTE.RY i = false ∧ s.vecHeld v = false ∧ s.vecFree v = true) ∧
  (∃ (i : Nat), ∃ (v : Nat), ∃ (rest : List Nat), ∃ (s : State), s.coldHeld = false ∧ s.cdDown = false ∧ s.raising = i :: rest ∧ i
    < 384 ∧ SMap.get (fun _ => 0) s.routedAt i ≠ s.clock + 1 ∧ s.isSet EV_ROUTE.MSIX i = true ∧ s.get EV_ROUTE.VEC i = v ∧
    s.isSet EV_ROUTE.RY i = false ∧ s.vecHeld v = true) ∧
  (∃ (i : Nat), ∃ (rest : List Nat), ∃ (s : State), s.coldHeld = false ∧ s.cdDown = false ∧ s.raising = i :: rest ∧ i < 384 ∧
    SMap.get (fun _ => 0) s.routedAt i ≠ s.clock + 1 ∧ s.isSet EV_ROUTE.MSIX i = false ∧ s.isSet EV_ROUTE.RY i = true ∧ s.isTop
    = false ∧ s.isSet RY_GCFG.EVT_FWD = true ∧ i ∉ s.ry.evPend) ∧
  (∃ (i : Nat), ∃ (v : Nat), ∃ (rest : List Nat), ∃ (s : State), s.coldHeld = false ∧ s.cdGone = false ∧ s.warm = true ∧ s.raising
    = i :: rest ∧ i < 384 ∧ SMap.get (fun _ => 0) s.routedAt i ≠ s.clock + 1 ∧ s.isSet EV_ROUTE.MSIX i = true ∧ s.get
    EV_ROUTE.VEC i = v ∧ s.isSet EV_ROUTE.RY i = false) ∧
  (∃ (i : Nat), ∃ (rest : List Nat), ∃ (s : State), s.coldHeld = false ∧ s.cdGone = false ∧ s.raising = i :: rest ∧ i < 384 ∧
    SMap.get (fun _ => 0) s.routedAt i = s.clock + 1) ∧
  (∃ (i : Nat), ∃ (rest : List Nat), ∃ (s : State), s.coldHeld = false ∧ s.cdGone = true ∧ s.raising = i :: rest) ∧
  (∃ (v : VectorIx), ∃ (s : State), s.coldHeld = false ∧ s.cdDown = false ∧ (s.vec v).merged = true ∧ s.vecFree v = true ∧
    s.vecHeld v = false) ∧
  (∃ (v : VectorIx), ∃ (s : State), s.coldHeld = false ∧ s.cdDown = false ∧ (s.vec v).pending = true ∧ s.fnMask = false ∧ s.bme =
    true ∧ s.barOn = true ∧ s.vecFree v = true) ∧
  (∃ (v : Nat), ∃ (x : Vec), ∃ (s : State), s.coldHeld = false ∧ s.cdDown = false ∧ s.msix = [(v, x)] ∧ x.pending = true ∧
    x.ctrl.getLsbD 0 = false ∧ s.bme = true ∧ s.isSet PCIE_STAT.LINK_UP = true ∧ s.isSet PCIE_STAT.D3 = false ∧ s.vecFree v =
    true) ∧
  (∃ (v : Nat), ∃ (x : Vec), ∃ (s : State), s.coldHeld = false ∧ s.cdDown = false ∧ s.msix = [(v, x)] ∧ x.pending = true ∧
    x.ctrl.getLsbD 0 = false ∧ s.fnMask = false ∧ s.isSet PCIE_STAT.LINK_UP = true ∧ s.isSet PCIE_STAT.D3 = false ∧ s.vecFree v
    = true) :=
  ⟨⟨383, [0], { up with raising := [383, 0] }, by decide +kernel⟩,
  ⟨383, 383, [],
    { ((up.put EV_ROUTE.MSIX 1 383).put EV_ROUTE.VEC 383 383) with raising := [383], msix := [(383, { ctrl := 0 })] },
    by decide +kernel⟩,
  ⟨383, 383, [], { ((up.put EV_ROUTE.MSIX 1 383).put EV_ROUTE.VEC 383 383) with raising := [383] }, by decide +kernel⟩,
  ⟨383, [], { (worker (up.put EV_ROUTE.RY 1 383)).put RY_GCFG.EVT_FWD 1 with raising := [383] }, by decide +kernel⟩,
  ⟨383, 31, [0], { (up.put EV_ROUTE.MSIX 1 383).put EV_ROUTE.VEC 31 383 with raising := [383, 0], warm := true },
    by decide +kernel⟩,
  ⟨383, [0], { up with raising := [383, 0], routedAt := [(383, 6400000001)] }, by decide +kernel⟩,
  ⟨383, [], { up with raising := [383], chips := (List.range 8).map fun n => (n, { running := true, cdLost := true }) },
    by decide +kernel⟩,
  ⟨383, { up with msix := [(383, { merged := true, ctrl := 0 })] }, by decide +kernel⟩,
  ⟨383, { linkUp with msix := [(383, { pending := true })] }, by decide +kernel⟩,
  ⟨383, { pending := true, ctrl := 0 }, { linkUp with msix := [(383, { pending := true, ctrl := 0 })] }, by decide +kernel⟩,
  ⟨383, { pending := true, ctrl := 0 }, { linkUp with msix := [(383, { pending := true, ctrl := 0 })] }, by decide +kernel⟩⟩

/-! ## A valid calibration bank, whose check word is the CRC of 610,304 bytes -/

theorem get_append {α : Type} (d : Nat → α) (m x : SMap α) (k : Nat) (h : ∀ e ∈ x, e.1 ≠ k) :
    SMap.get d (m ++ x) k = SMap.get d m k := by
  induction m with
  | nil =>
    induction x with
    | nil => rfl
    | cons e x ih =>
      have := h e (by simp)
      simp only [List.nil_append, SMap.get] at *
      rw [if_neg (Ne.symm this), ih fun e he => h e (by simp [he])]
  | cons e m ih => simp only [List.cons_append, SMap.get, ih]

theorem cells_key (a : Nat) (bs : List Byte) (e : Nat × Byte) (h : e ∈ cells a bs) : a ≤ e.1 ∧ e.1 < a + bs.length := by
  simp only [cells, List.mem_map, Prod.exists] at h
  obtain ⟨b, k, hm, rfl⟩ := h
  have := List.mem_zipIdx hm
  simp at this ⊢; omega

/-- Bank B with the check word `c`. -/
def bankNvm (c : Nat) : List Host.Cell :=
  cells 0x400000 (fields [(4, headMagic), (4, 1), (4, 1)]) ++
    (cells 0x7FE000 (leBytes 4 c) ++ cells 0x7FF000 (commitRecord commitMagic 5 bodyLen c))

theorem bank_body (c i : Nat) (h : i < bodyLen) :
    (booting .cal (bankNvm c)).nvmByte (0x400000 + i) = (booting .cal (cells 0x400000 (fields [(4, headMagic), (4, 1), (4, 1)]))).nvmByte (0x400000 + i) := by
  refine get_append _ _ _ _ fun e he => ?_
  rcases List.mem_append.1 he with he | he <;> have := cells_key _ _ _ he <;> simp only [bodyLen] at h <;> omega

theorem bank_bytes (c : Nat) (n : Nat) (h : n ≤ bodyLen) :
    (booting .cal (bankNvm c)).nvmBytes 0x400000 n =
      (booting .cal (cells 0x400000 (fields [(4, headMagic), (4, 1), (4, 1)]))).nvmBytes 0x400000 n := by
  unfold State.nvmBytes
  exact List.map_congr_left fun i hi => bank_body c i (Nat.lt_of_lt_of_le (List.mem_range.1 hi) h)

theorem bank_valid (n : Nat) (hn : n = bodyLen) : ∃ c, (booting .cal (bankNvm c)).bankValid 1 = true := by
  refine ⟨crc32c ((booting .cal (cells 0x400000 (fields [(4, headMagic), (4, 1), (4, 1)]))).nvmBytes 0x400000 n), ?_⟩
  generalize hc : crc32c ((booting .cal (cells 0x400000 (fields [(4, headMagic), (4, 1), (4, 1)]))).nvmBytes 0x400000 n) = c
  have hlt : c < 2 ^ 32 := hc ▸ crc32c_lt _
  have body := bank_bytes c n (Nat.le_of_eq hn)
  have word : leNat (leBytes 4 c) = c := by simp [leBytes, leNat, List.range_succ]; omega
  have w1 : (booting .cal (bankNvm c)).nvmWord 0x7FE000 = c := (show _ = leNat (leBytes 4 c) from rfl).trans word
  have w2 : (booting .cal (bankNvm c)).nvmWord 0x7FF00C = c := (show _ = leNat (leBytes 4 c) from rfl).trans word
  let b := leBytes 4 commitMagic ++ leBytes 4 5 ++ leBytes 4 0x95000 ++ leBytes 4 c
  have b16 : (booting .cal (bankNvm c)).nvmBytes 0x7FF000 16 = b := rfl
  have w3 : (booting .cal (bankNvm c)).nvmWord 0x7FF010 = crc32c b :=
    (show _ = leNat (leBytes 4 (crc32c b)) from rfl).trans (by
      have := crc32c_lt b
      generalize crc32c b = x at *
      simp [leBytes, leNat, List.range_succ]; omega)
  have w4 : (booting .cal (bankNvm c)).nvmWord 0x7FF000 = commitMagic :=
    (show _ = leNat (leBytes 4 commitMagic) from rfl).trans (by decide)
  have w5 : (booting .cal (bankNvm c)).nvmWord 0x7FF004 = 5 := rfl
  have w6 : (booting .cal (bankNvm c)).nvmWord 0x400000 = headMagic :=
    (show _ = leNat (leBytes 4 headMagic) from rfl).trans (by decide)
  have w7 : (booting .cal (bankNvm c)).nvmWord 0x400004 = 1 := rfl
  have w8 : (booting .cal (bankNvm c)).nvmWord 0x400008 = 1 := rfl
  have w0 : (booting .cal (bankNvm c)).worn 0x400000 0x800000 = false := rfl
  simp only [State.bankValid, State.areaChecks, ← hn, State.headerOk, State.commitGen, bankBase, bankCheck, bankCommit, Nat.mul_one,
    Nat.reduceAdd, w0, w1, w2, w3, w4, w5, w6, w7, w8, b16, body, hc, headMagic]
  simp
theorem bank_other (c : Nat) : (booting .cal (bankNvm c)).bankValid 0 = false := by
  have w : (booting .cal (bankNvm c)).nvmWord 0x3FF000 = 0xFFFFFFFF :=
    (show _ = leNat [0xFF, 0xFF, 0xFF, 0xFF] from rfl).trans (by decide)
  simp only [State.bankValid, State.areaChecks, bankBase, bankCommit, Nat.mul_zero, Nat.zero_add, w, commitMagic]
  rfl
theorem bank_boot (c : Nat) : (booting .cal (bankNvm c)).coldHeld = false ∧ (booting .cal (bankNvm c)).boot = .cal ∧
    (booting .cal (bankNvm c)).cdDown = false :=
  ⟨rfl, rfl, (show _ = (booting .cal []).cdDown from rfl).trans (by decide +kernel)⟩

/-- The clause of `BootCompletes` about a valid calibration bank. -/
theorem witness_BootCompletes_bank :
  (∃ (b : Nat), ∃ (s : State), s.coldHeld = false ∧ s.boot = .cal ∧ s.cdDown = false ∧ b < 2 ∧ s.bankValid b = true ∧
    s.bankValid (1 - b) = false) := by
  obtain ⟨c, h⟩ := bank_valid _ rfl
  obtain ⟨h1, h2, h3⟩ := bank_boot c
  exact ⟨1, _, h1, h2, h3, by omega, h, bank_other c⟩

end Sys2Proof.Tests
end

/-! ## The time base: a write to the declared frequency of the active reference (R40)

The proof follows the write's way: `originWrite_of_serves` brings a served write to `directWrite`, `directWrite_of_hook_keeps` says what
that leaves of the state when the register's chapter keeps the stored word, and `hookRefFreq_active` says that R40 is such a case. -/

namespace Sys2Proof.Proofs

open Sys2Proof Sys2Proof.Machine Sys2Proof.Claims

/-! ### Words and registers -/

/-- A bit of a word is the field of width 1 that stands there. -/
theorem getLsbD_eq_fieldOf (v : Word) (b : Nat) : v.getLsbD b = decide (fieldOf v b 1 = 1) := by
  simp [fieldOf, BitVec.getLsbD, Nat.testBit_eq_decide_div_mod_eq]

/-- A bit outside the field written keeps its value. -/
theorem getLsbD_withField_ne (v : Word) (lo w x b : Nat) (h : lo + w ≤ 32) (hb : b + 1 ≤ lo ∨ lo + w ≤ b) :
    (withField v lo w x).getLsbD b = v.getLsbD b := by
  rw [getLsbD_eq_fieldOf, getLsbD_eq_fieldOf, fieldOf_withField_ne v lo w x b 1 h hb]

/-- Storing what a register reads as changes no register. -/
theorem reg_setReg_self (s : State) (a b : Nat) : (s.setReg a (s.reg a)).reg b = s.reg b := by
  rw [State.reg_setReg]; split
  · next hb => rw [hb]
  · rfl

/-- A new register file is all that differs. -/
theorem kept_regs (s : State) (rs : SMap Word) : Kept [.regs] s { s with regs := rs } := by
  intro p hp
  cases p
  case regs => exact absurd (List.mem_singleton.mpr rfl) hp
  all_goals rfl

/-! ### A served write that meets no rule against it (R301 to R324) -/

/-- An origin that may access an address is no link that R320 refuses. -/
theorem linkRefused_of_mayAccess {s : State} {o a : Nat} {w : Bool} (h : s.mayAccess o a w = true) : s.linkRefused o = false := by
  by_cases ho : 0x180 ≤ o
  · simp [State.linkRefused, show ¬ o < 0x120 by omega]
  · by_contra hl
    simp [State.mayAccess, ho, hl] at h

/-- A served write to an unpaired register is a direct write to it, and no origin is refused it. -/
theorem originWrite_of_serves {o a : Nat} {r : RegAt} {s : State} (h : s.serves o a true = true) (hr : regOf a = some r)
    (hA : r.id.isPairA = false) (hB : r.id.isPairB = false) (hres : reservedAt a = false) (v : Word) :
    originWrite o a v s = (false, directWrite o r a v s) := by
  simp only [State.serves, Bool.and_eq_true, Bool.not_eq_true', Bool.true_and, Option.isNone_iff_eq_none, beq_iff_eq] at h
  obtain ⟨⟨⟨⟨⟨⟨⟨⟨⟨⟨⟨hoff, hon⟩, hpair⟩, halign⟩, hbase⟩, hmay⟩, hmail⟩, hmsix⟩, hpba⟩, hctx⟩, hbar⟩, hfrozen⟩ := h
  have htick : pairTick o a true v s = s := by simp [pairTick, hpair]
  have hlink : s.linkRefused o = false := linkRefused_of_mayAccess hmay
  have htest : s.testBarred o r = false := by
    have hTA : r.id ≠ .TEST_CTRL_A := by rintro e; rw [e] at hA; cases hA
    have hTB : r.id ≠ .TEST_CTRL_B := by rintro e; rw [e] at hB; cases hB
    simp [State.testBarred, hTA, hTB]
  have hreg : registerWrite o a v s = (false, directWrite o r a v s) := by
    simp [registerWrite, hbase, hr, htest, hbar, hA, hB, hfrozen]
  have hvetch : vetchWrite o a v s = (false, directWrite o r a v s) := by
    simp [vetchWrite, hoff, hmail, htick, hlink, halign, hmay, hmsix, hctx, hpba, hreg]
  have hracc : raccAddr a = false := by simp [raccAddr, hmail, hres]
  simp [originWrite, hon, engineWrite, hoff, hvetch, hracc]

/-- A write that meets no rule against it makes no violation. -/
theorem violations_of_clean {s : State} {r : RegAt} {a : Nat} {v : Word} (h : s.clean r a v = true) (o : Nat) (held : Word) :
    violations o r a held v s = s := by
  simp only [State.clean, Bool.and_eq_true, Bool.not_eq_true', beq_iff_eq, BitVec.ofNat_or, BitVec.and_or_distrib_left,
    BitVec.ofNat_eq_ofNat, BitVec.or_eq_zero_iff] at h
  obtain ⟨⟨⟨⟨⟨⟨hrsvd, hhwo⟩, hlock⟩, hown⟩, honce⟩, -⟩, -⟩ := h
  simp [violations, hlock, hown, honce, hrsvd, hhwo, State.when]

/-- The bits that a write stores where no rule stands against it. -/
theorem writable_of_clean {s : State} {r : RegAt} {a : Nat} {v : Word} (h : s.clean r a v = true) :
    s.writable r a = BitVec.ofNat 32 ((regRow r.id).rw ||| (regRow r.id).cnt ||| (regRow r.id).wo1) := by
  simp only [State.clean, Bool.and_eq_true, Bool.not_eq_true'] at h
  obtain ⟨⟨⟨⟨⟨-, hlock⟩, hown⟩, honce⟩, htest⟩, -⟩ := h
  simp [State.writable, hlock, hown, honce, htest]

/-- The word that the access codes make of a direct write. -/
def writtenWord (s : State) (r : RegAt) (a : Nat) (v : Word) : Word :=
  (s.reg a &&& ~~~s.writable r a) ||| (v &&& s.writable r a)

/-- A write that meets no rule against it, of which the register's chapter keeps the stored word, leaves no record: the state is that of
the chapter's effects. -/
theorem directWrite_of_hook_keeps {s t : State} {r : RegAt} {a : Nat} {v : Word} (o : Nat) (h : s.clean r a v = true)
    (hw : s.writable r a ≠ 0#32) (hhook : writeHook o r (s.writable r a) (s.reg a) (writtenWord s r a v) s = (s.reg a, t)) :
    directWrite o r a v s = afterWrite r (s.reg a) (t.setReg a (s.reg a)) := by
  have hviol := violations_of_clean h o (s.heldWord r a none)
  simp only [State.clean, Bool.and_eq_true, Bool.not_eq_true'] at h
  obtain ⟨⟨⟨⟨⟨-, hlock⟩, hown⟩, honce⟩, -⟩, -⟩ := h
  rw [writtenWord] at hhook
  simp [directWrite, hviol, hlock, hown, honce, hw, hhook, State.when]

/-! ### The declared frequencies -/

/-- All that the map says of the two declared frequencies: each is one unpaired register, every bit of which can be written, and none
is `REF_STAT`. -/
theorem freqReg_facts (r : RefIx) : regOf (freqReg r).at = some ⟨freqReg r, 0, 0⟩ ∧ (freqReg r).isPairA = false ∧
    (freqReg r).isPairB = false ∧ reservedAt (freqReg r).at = false ∧
    BitVec.ofNat 32 ((regRow (freqReg r)).rw ||| (regRow (freqReg r)).cnt ||| (regRow (freqReg r)).wo1) ≠ 0#32 ∧
    RegId.REF_STAT ≠ freqReg r := by
  revert r; decide +kernel

/-- What the chapter of a declared frequency does on a write. -/
theorem writeHook_freqReg (o : Nat) (r : RefIx) (m old new : Word) (s : State) :
    writeHook o ⟨freqReg r, 0, 0⟩ m old new s = hookRefFreq r.val old new s := by
  match r with
  | 0 => rfl
  | 1 => rfl

/-- Nothing follows once a declared frequency is stored. -/
theorem afterWrite_freqReg (r : RefIx) (old : Word) (s : State) : afterWrite ⟨freqReg r, 0, 0⟩ old s = s := by
  match r with
  | 0 => rfl
  | 1 => rfl

/-- R40: a write to the declared frequency of the active reference keeps the word and sets `FREQ_ERR`. -/
theorem hookRefFreq_active {r : Nat} {s : State} (h : s.get REF_STAT.STATE = r) (old new : Word) :
    hookRefFreq r old new s = (old, s.put REF_STAT.FREQ_ERR 1) := by
  simp [hookRefFreq, State.activeRef, h]

/-- The state after a write to the declared frequency of the active reference. -/
theorem exec_refFreqWrite_active {o : Origin} {r : RefIx} {v : Word} {s : State} (h : s.writes o (freqReg r) 0 0 v = true)
    (hact : s.get REF_STAT.STATE = r.val) :
    exec (.refFreqWrite o r v) s = .next ((s.put REF_STAT.FREQ_ERR 1).setReg (freqReg r).at (s.reg (freqReg r).at)) := by
  obtain ⟨hreg, hA, hB, hres, hbits, -⟩ := freqReg_facts r
  obtain ⟨hserves, hclean⟩ := Bool.and_eq_true_iff.mp h
  have hat : (if r.val = 0 then RegId.REFA_FREQ.at else RegId.REFB_FREQ.at) = (freqReg r).at := by
    unfold Claims.freqReg; split <;> rfl
  have hdirect := directWrite_of_hook_keeps o.toNat hclean (by rwa [writable_of_clean hclean])
    ((writeHook_freqReg ..).trans (hookRefFreq_active hact ..))
  rw [afterWrite_freqReg] at hdirect
  calc exec (.refFreqWrite o r v) s = busWrite o (freqReg r).at v s := by rw [← hat]; rfl
    _ = _ := by rw [busWrite, originWrite_of_serves hserves hreg hA hB hres, hdirect]

/-- Settles O20: the write stores the word that stood there, so that only the bit `FREQ_ERR` of `REF_STAT` differs. -/
theorem activeReferenceFrequencyIsFixed : Obligations.ActiveReferenceFrequencyIsFixed := by
  unfold Obligations.ActiveReferenceFrequencyIsFixed
  intro o r v s h hact
  obtain ⟨-, -, -, -, -, hne⟩ := freqReg_facts r
  have hword : (s.put REF_STAT.FREQ_ERR 1).reg (freqReg r).at = s.reg (freqReg r).at :=
    s.reg_put _ _ _ _ _ (RegId.at_ne _ _ _ _ _ _ hne.symm)
  have hregs (b : Nat) : ((s.put REF_STAT.FREQ_ERR 1).setReg (freqReg r).at (s.reg (freqReg r).at)).reg b =
      (s.put REF_STAT.FREQ_ERR 1).reg b := by
    rw [← hword]; exact reg_setReg_self ..
  refine ⟨_, exec_refFreqWrite_active h hact, ?_, ?_, ?_, ?_⟩
  · have hset : (s.put REF_STAT.FREQ_ERR 1).get REF_STAT.FREQ_ERR = 1 := s.get_put _ _ _ _ (by decide)
    rw [State.isSet, State.get, hregs]
    simpa [State.get] using hset
  · intro a ha
    rw [hregs]
    exact s.reg_put _ _ _ _ _ (by simpa using ha)
  · intro b hb
    rw [hregs, State.put, State.reg_setReg, if_pos rfl]
    exact getLsbD_withField_ne _ _ _ _ _ (by decide) (Nat.lt_or_gt_of_ne hb)
  · exact kept_regs s _

end Sys2Proof.Proofs

/-! ## What a handler fault does (R204 to R206, R219)

The proof follows the fault's way: its item returns, moves to the quarantine queue or waits for it, and then `faultEnd` reports it and
frees the engine. `PoolOnly`, `FaultFrame` and `SameItems` say of each step what it leaves as it was. -/

namespace Sys2Proof.Proofs

open Sys2Proof Sys2Proof.Machine Sys2Proof.Claims

/-! ### The pool: what storing and reading an item changes (R27, R28, R182) -/

/-- Whether an offset lies outside the item pool and its parity (R26, R27). -/
def OutsidePool (a : Nat) : Prop := a < 0x00200000 ∨ 0x01400000 ≤ a

/-- Beside on-chip memory with its check bits, `t` is `s`. -/
def SameButMem (s t : State) : Prop := ∃ m bad ecc, t = { s with mem := m, badWords := bad, ecc := ecc }

/-- Beside the item pool, its parity and the check bits of memory, `t` is `s`. -/
structure PoolOnly (s t : State) : Prop where
  same : SameButMem s t
  bytes : ∀ a, OutsidePool a → t.byte a = s.byte a

/-- Storing bytes changes memory alone. -/
theorem setBytes_sameButMem (bs : List Byte) (s : State) (a : Nat) : ∃ m, s.setBytes a bs = { s with mem := m } := by
  induction bs generalizing s a with
  | nil => exact ⟨s.mem, rfl⟩
  | cons b bs ih =>
    obtain ⟨m, hm⟩ := ih (s.setByte a b) (a + 1)
    exact ⟨m, hm⟩

theorem store_sameButMem (s : State) (a : Nat) (bs : List Byte) : SameButMem s (s.store a bs) := by
  obtain ⟨m, hm⟩ := setBytes_sameButMem bs s a
  rw [State.store, hm]
  exact ⟨_, _, _, rfl⟩

namespace PoolOnly

variable {s t u : State}

theorem refl : PoolOnly s s := ⟨⟨_, _, _, rfl⟩, fun _ _ => rfl⟩

theorem trans (h : PoolOnly s t) (k : PoolOnly t u) : PoolOnly s u := by
  obtain ⟨⟨_, _, _, rfl⟩, hbytes⟩ := h
  obtain ⟨⟨_, _, _, rfl⟩, kbytes⟩ := k
  exact ⟨⟨_, _, _, rfl⟩, fun a ha => (kbytes a ha).trans (hbytes a ha)⟩

theorem setEcc {x : Ecc} : PoolOnly s { s with ecc := x } := ⟨⟨_, _, _, rfl⟩, fun _ _ => rfl⟩

theorem store {a : Nat} {bs : List Byte} (hlo : 0x00200000 ≤ a) (hhi : a + bs.length ≤ 0x01400000) : PoolOnly s (s.store a bs) :=
  ⟨store_sameButMem s a bs, fun b hb => by
    unfold OutsidePool at hb
    rw [byte_store, if_neg (by omega)]⟩

theorem forList {α : Type} {l : List α} {f : α → State → State} (h : ∀ x ∈ l, ∀ t, PoolOnly t (f x t)) : PoolOnly s (forList l f s) :=
  List.foldlRecOn (motive := PoolOnly s) l _ refl fun t ht x hx => ht.trans (h x hx t)

theorem writeParity {r : Nat} : PoolOnly s (writeParity r s) :=
  store (by unfold parityAddr; omega) (by simp only [parityAddr, State.parityRow, List.length_map, List.length_range]; omega)

theorem uncorrectable {w : Nat} (hlo : 0x00200000 ≤ 8 * w) (hhi : 8 * w < 0x01400000) : PoolOnly s (uncorrectable w s) := by
  unfold Machine.uncorrectable
  dsimp only
  rw [if_neg (by omega), if_pos hhi]
  split
  · exact store (by unfold entryAddr; omega) (by simp only [entryAddr, State.rebuiltEntry, List.length_map, List.length_range]; omega)
  · exact writeParity

end PoolOnly

/-- An item's bytes are eight entries at most. -/
theorem bytes_length_le (i : Item) : i.bytes.length ≤ 128 := List.length_take_le ..

theorem mirrorItem_poolOnly (i : Item) (s : State) : PoolOnly s (mirrorItem i s) := by
  have hlen := bytes_length_le i
  exact (PoolOnly.store (by unfold entryAddr; omega) (by unfold entryAddr; omega)).trans
    (PoolOnly.forList fun _ _ _ => PoolOnly.writeParity)

theorem readEntries_poolOnly (i : Item) (s : State) : PoolOnly s (readEntries i s) := by
  have hfix : PoolOnly s (sramFix (entryAddr i.entry) i.bytes.length s) := by
    unfold sramFix
    dsimp only
    split
    · exact PoolOnly.refl
    · exact PoolOnly.setEcc
  refine hfix.trans (PoolOnly.forList fun w hw t => ?_)
  have hlen := bytes_length_le i
  simp only [touching, List.mem_filter, Bool.and_eq_true, decide_eq_true_eq] at hw
  unfold entryAddr at hw
  obtain ⟨-, hbelow, habove⟩ := hw
  exact PoolOnly.trans PoolOnly.setEcc (PoolOnly.uncorrectable (by omega) (by omega))

/-! ### What a fault leaves as it was (R204 to R206) -/

/-- A source raised is on its way to the event tree. -/
theorem mem_raising_raise (s : State) (n : Nat) : n ∈ (s.raise n).raising := List.mem_append_right _ (List.mem_singleton.mpr rfl)

/-- Fields `f` and `g` are apart: in two families of registers, or in different bits. -/
abbrev Apart (f g : Fld) : Prop := f.lo + f.w ≤ 32 ∧ (g.reg ≠ f.reg ∨ g.lo + g.w ≤ f.lo ∨ f.lo + f.w ≤ g.lo)

/-- A field apart from the one written keeps its value, in whatever register. -/
theorem get_put_of_apart {f g : Fld} (h : Apart f g) (s : State) (v i j x y : Nat) : (s.put f v i j).get g x y = s.get g x y := by
  obtain ⟨hw, hne | hbits⟩ := h
  · exact s.get_put_fam f g v i j x y hne
  · exact s.get_put_field f g v i j x y hw hbits

/-- What a part of a fault of engine `e` leaves as it was: the clock, the released actions, the raise counts, memory outside the pool, the
other engines, the scratch of `e`, and every field apart from `fs`; and no raise is taken back. -/
structure FaultFrame (e : Nat) (fs : List Fld) (s t : State) : Prop where
  clock : t.clock = s.clock
  rel : t.rel = s.rel
  raises : t.raises = s.raises
  raising : s.raising ⊆ t.raising
  bytes : ∀ a, OutsidePool a → t.byte a = s.byte a
  engines : ∀ k, k ≠ e → t.eng k = s.eng k
  scratch : (t.eng e).scratch = (s.eng e).scratch
  fields : ∀ g, (∀ f ∈ fs, Apart f g) → ∀ x y, t.get g x y = s.get g x y

namespace FaultFrame

variable {e : Nat} {fs : List Fld} {s t u : State}

theorem refl : FaultFrame e fs s s where
  clock := rfl
  rel := rfl
  raises := rfl
  raising := List.Subset.refl _
  bytes _ _ := rfl
  engines _ _ := rfl
  scratch := rfl
  fields _ _ _ _ := rfl

theorem trans (h : FaultFrame e fs s t) (k : FaultFrame e fs t u) : FaultFrame e fs s u where
  clock := k.clock.trans h.clock
  rel := k.rel.trans h.rel
  raises := k.raises.trans h.raises
  raising := List.Subset.trans h.raising k.raising
  bytes a ha := (k.bytes a ha).trans (h.bytes a ha)
  engines n hn := (k.engines n hn).trans (h.engines n hn)
  scratch := k.scratch.trans h.scratch
  fields g hg x y := (k.fields g hg x y).trans (h.fields g hg x y)

theorem mono {gs : List Fld} (hsub : fs ⊆ gs) (h : FaultFrame e fs s t) : FaultFrame e gs s t where
  __ := h
  fields g hg := h.fields g fun f hf => hg f (hsub hf)

theorem put {f : Fld} {v i j : Nat} (hf : f ∈ fs) (h : FaultFrame e fs s t) : FaultFrame e fs s (t.put f v i j) where
  __ := h
  fields g hg x y := (get_put_of_apart (hg f hf) t v i j x y).trans (h.fields g hg x y)

theorem bump {f : Fld} {i j n : Nat} (hf : f ∈ fs) (h : FaultFrame e fs s t) : FaultFrame e fs s (t.bump f i j n) := h.put hf

theorem raise {n : Nat} (h : FaultFrame e fs s t) : FaultFrame e fs s (t.raise n) where
  __ := h
  raising := List.subset_append_of_subset_left _ h.raising

theorem setWide {a v : Nat} (h : FaultFrame e fs s t) : FaultFrame e fs s (t.setWide a v) := { h with }

theorem free {w : Nat} (h : FaultFrame e fs s t) : FaultFrame e fs s (t.free w).2 := { h with }

theorem setQueue {q : Nat} {x : Queue} (h : FaultFrame e fs s t) : FaultFrame e fs s (t.setQueue q x) := { h with }

theorem setEng {x : Eng} (hx : x.scratch = (t.eng e).scratch) (h : FaultFrame e fs s t) : FaultFrame e fs s (t.setEng e x) where
  __ := h
  engines k hk := by rw [State.eng_setEng, if_neg hk]; exact h.engines k hk
  scratch := by rw [State.eng_setEng, if_pos rfl, hx]; exact h.scratch

theorem pool (hp : PoolOnly t u) (h : FaultFrame e fs s t) : FaultFrame e fs s u := by
  obtain ⟨⟨_, _, _, rfl⟩, hbytes⟩ := hp
  exact { h with bytes := fun a ha => (hbytes a ha).trans (h.bytes a ha) }

theorem ite {c : Prop} [Decidable c] (h : FaultFrame e fs s t) (k : FaultFrame e fs s u) : FaultFrame e fs s (if c then t else u) := by
  split
  · exact h
  · exact k

theorem forList {α : Type} {l : List α} {f : α → State → State} (hf : ∀ x {t}, FaultFrame e fs s t → FaultFrame e fs s (f x t))
    (h : FaultFrame e fs s t) : FaultFrame e fs s (forList l f t) :=
  List.foldlRecOn l _ h fun _ ht x _ => hf x ht

theorem checkStarve {q : Nat} (hf : QD_STAT.STARVED ∈ fs) (h : FaultFrame e fs s t) : FaultFrame e fs s (checkStarve q t) :=
  ite (raise <| put hf <| setQueue h) h

theorem returnItem {q n : Nat} {f : Item → Item} (h : FaultFrame e fs s t) : FaultFrame e fs s (returnItem q n f t) := by
  unfold Machine.returnItem
  split
  · exact h
  · exact pool (mirrorItem_poolOnly ..) <| setQueue h

theorem acceptItem {q : Nat} {l c : Bool} {b : List Dword} (hl : QD_STAT.LEVEL ∈ fs) (hs : QD_STAT.STARVED ∈ fs)
    (h : FaultFrame e fs s t) : FaultFrame e fs s (acceptItem q l c b t) :=
  checkStarve hs <| setWide <| pool (mirrorItem_poolOnly ..) <| bump hl <| setQueue <| free (w := 20) h

theorem freeItem {q n : Nat} (hl : QD_STAT.LEVEL ∈ fs) (h : FaultFrame e fs s t) : FaultFrame e fs s (freeItem q n t) :=
  put hl <| setQueue h

theorem faultSeen {q c : Nat} (h1 : QD_CNT.FAULTS ∈ fs) (h2 : ENG_CNT.FAULTS ∈ fs) (h3 : ENG_STAT.LAST_FAULT ∈ fs)
    (h4 : ENG_STAT.FAULTED ∈ fs) (h : FaultFrame e fs s t) : FaultFrame e fs s (faultSeen e q c t) :=
  raise <| put h4 <| put h3 <| bump h2 <| bump h1 h

theorem dropLines (h : FaultFrame e fs s t) : FaultFrame e fs s (dropLines e t) := by
  unfold Machine.dropLines
  split
  · exact h
  · exact setEng rfl h

theorem checkStarveAll (hs : QD_STAT.STARVED ∈ fs) (h : FaultFrame e fs s t) : FaultFrame e fs s (checkStarveAll t) :=
  forList (fun _ _ => checkStarve hs) h

theorem setEngState {st : Nat} (he : ENG_STAT.STATE ∈ fs) (h : FaultFrame e fs s t) : FaultFrame e fs s (setEngState e st t) :=
  put he <| setEng (by rw [State.eng_setWide_keep]) <| setWide h

theorem cleared (h : FaultFrame e fs s t) : FaultFrame e fs s (t.setEng e (t.eng e).cleared) := setEng (by rw [Eng.cleared]) h

theorem engineFree (hp : ENG_PC.PC ∈ fs) (he : ENG_STAT.STATE ∈ fs) (hs : QD_STAT.STARVED ∈ fs) (h : FaultFrame e fs s t) :
    FaultFrame e fs s (engineFree e t) := by
  refine checkStarveAll hs <| setEngState he <| put hp <| cleared ?_
  split
  · exact setQueue h
  · exact h

end FaultFrame

/-! ### The queues in a fault -/

/-- Every queue has the items and the next sequence that it had. -/
def SameItems (s t : State) : Prop := ∀ k, (t.queue k).items = (s.queue k).items ∧ (t.queue k).nextSeq = (s.queue k).nextSeq

namespace SameItems

variable {s t u : State}

theorem refl : SameItems s s := fun _ => ⟨rfl, rfl⟩

theorem trans (h : SameItems s t) (k : SameItems t u) : SameItems s u :=
  fun n => ⟨(k n).1.trans (h n).1, (k n).2.trans (h n).2⟩

theorem item (h : SameItems s t) (q n : Nat) : t.item q n = s.item q n := by rw [State.item, State.item, (h q).1]

theorem put {f : Fld} {v i j : Nat} (h : SameItems s t) : SameItems s (t.put f v i j) := h
theorem bump {f : Fld} {i j n : Nat} (h : SameItems s t) : SameItems s (t.bump f i j n) := h
theorem raise {n : Nat} (h : SameItems s t) : SameItems s (t.raise n) := h
theorem setWide {a v : Nat} (h : SameItems s t) : SameItems s (t.setWide a v) := h
theorem setEng {e : Nat} {x : Eng} (h : SameItems s t) : SameItems s (t.setEng e x) := h

/-- A queue takes another mark or time. -/
theorem setQueue {q : Nat} {x : Queue} (hi : x.items = (t.queue q).items) (hn : x.nextSeq = (t.queue q).nextSeq)
    (h : SameItems s t) : SameItems s (t.setQueue q x) := by
  intro k
  rw [State.queue_setQueue]
  split
  · next hk => rw [hk, hi, hn]; exact h q
  · exact h k

theorem pool (hp : PoolOnly t u) (h : SameItems s t) : SameItems s u := by
  obtain ⟨⟨_, _, _, rfl⟩, -⟩ := hp
  exact h

theorem checkStarve {q : Nat} (h : SameItems s t) : SameItems s (checkStarve q t) := by
  unfold Machine.checkStarve
  split
  · exact raise <| put <| setQueue rfl rfl h
  · exact h

theorem faultSeen {e q c : Nat} (h : SameItems s t) : SameItems s (faultSeen e q c t) := raise <| put <| put <| bump <| bump h

theorem engineFree {e : Nat} (h : SameItems s t) : SameItems s (engineFree e t) := by
  refine List.foldlRecOn (motive := SameItems s) _ _ (put <| setEng <| setWide <| put <| setEng ?_) fun _ h _ _ => h.checkStarve
  split
  · exact setQueue rfl rfl h
  · exact h

theorem dropLines {e : Nat} (h : SameItems s t) : SameItems s (dropLines e t) := by
  unfold Machine.dropLines
  split
  · exact h
  · exact setEng h

end SameItems

/-- The item that a handler returns is the head of its queue (R204, R206). -/
theorem head_returnItem {q n : Nat} {i : Item} {s : State} (hi : s.item q n = some i) (f : Item → Item) :
    ((returnItem q n f s).queue q).items.head? = some (f { i with st := .waiting, since := s.clock, eligAt := s.clock }) := by
  rw [returnItem, hi]
  dsimp only
  rw [(SameItems.pool (mirrorItem_poolOnly ..) SameItems.refl q).1, State.queue_setQueue, if_pos rfl, List.head?_cons]

/-- What is left of the queues once an item is taken out of its own. -/
theorem queue_freeItem (q n k : Nat) (s : State) : (freeItem q n s).queue k =
    if k = q then { s.queue q with items := (s.queue q).items.filter fun i => i.seq != n } else s.queue k :=
  (State.queue_put_keep ..).trans (State.queue_setQueue ..)

/-- An item taken out of its queue is in it no longer. -/
theorem item_freeItem (q n : Nat) (s : State) : (freeItem q n s).item q n = none := by
  rw [State.item, queue_freeItem, if_pos rfl]
  simp

/-- What an acceptance makes of the queues: the item is the last of its own (R189). -/
theorem acceptItem_sameItems (q : Nat) (body : List Dword) (s : State) : ∃ entry,
    SameItems (s.setQueue q { s.queue q with
      items := (s.queue q).items ++ [{
        seq := (s.queue q).nextSeq, size := s.qItemSize q, since := s.clock, eligAt := s.clock, entry := entry, body := body }]
      nextSeq := (s.queue q).nextSeq + 1 }) (acceptItem q false false body s) :=
  ⟨_, SameItems.checkStarve <| SameItems.setWide <| SameItems.pool (mirrorItem_poolOnly ..) <| SameItems.bump fun _ => ⟨rfl, rfl⟩⟩

/-! ### The engine after a fault (R204, R213) -/

theorem cleared_cleared (x : Eng) : x.cleared.cleared = x.cleared := rfl

theorem checkStarveAll_eng (s : State) (k : Nat) : (checkStarveAll s).eng k = s.eng k :=
  List.foldlRecOn (motive := fun t : State => t.eng k = s.eng k) _ _ rfl fun t h q _ => by
    unfold checkStarve
    split
    · rw [State.eng_raise_keep, State.eng_put_keep, State.eng_setQueue_keep, h]
    · exact h

/-- A change of an engine's state keeps what a completion step has cleared. -/
theorem setEngState_cleared {e : Nat} {s : State} (h : (s.eng e).cleared = s.eng e) (st : Nat) :
    ((setEngState e st s).eng e).cleared = (setEngState e st s).eng e := by
  unfold setEngState
  dsimp only
  rw [State.eng_put_keep, State.eng_setEng, if_pos rfl, ← h]
  rfl

/-- An engine that is free holds and waits for nothing, and its registers are 0. -/
theorem freed_cleared (e : Nat) (s : State) : ((dropLines e (engineFree e s)).eng e).cleared = (dropLines e (engineFree e s)).eng e := by
  have h : ((engineFree e s).eng e).cleared = (engineFree e s).eng e := by
    unfold engineFree
    rw [checkStarveAll_eng]
    apply setEngState_cleared
    rw [State.eng_put_keep, State.eng_setEng, if_pos rfl, cleared_cleared]
  unfold dropLines
  split
  · exact h
  · rw [State.eng_setEng, if_pos rfl, ← h]
    rfl

/-- The PC of an engine that is free is 0. -/
theorem freed_pc (e : Nat) (s : State) : (dropLines e (engineFree e s)).pc e = 0 := by
  unfold engineFree
  dsimp only
  generalize State.setEng _ e _ = u
  have frame (st : Nat) : FaultFrame e [ENG_STAT.STATE, QD_STAT.STARVED] (u.put ENG_PC.PC 0 e)
      (dropLines e (checkStarveAll (setEngState e st (u.put ENG_PC.PC 0 e)))) :=
    FaultFrame.dropLines <| FaultFrame.checkStarveAll (by decide) <| FaultFrame.setEngState (by decide) FaultFrame.refl
  exact ((frame _).fields ENG_PC.PC (by decide) e 0).trans (u.get_put ENG_PC.PC 0 e 0 (by decide))

/-! ### The report of a fault (R204 step 4) -/

/-- Each field that the report of a fault writes. -/
theorem get_faultSeen (e q code : Nat) (s : State) :
    (faultSeen e q code s).get ENG_STAT.LAST_FAULT e = code % 2 ^ 8 ∧
    (faultSeen e q code s).get ENG_STAT.FAULTED e = 1 ∧
    (faultSeen e q code s).get ENG_CNT.FAULTS e = (s.get ENG_CNT.FAULTS e + 1) % 2 ^ 16 ∧
    (faultSeen e q code s).get QD_CNT.FAULTS q = (s.get QD_CNT.FAULTS q + 1) % 2 ^ 16 := by
  unfold faultSeen State.bump
  dsimp only
  refine ⟨?_, ?_, ?_, ?_⟩
  · rw [State.get_raise_keep, get_put_of_apart (by decide), State.get_put _ _ _ _ _ (by decide)]
  · rw [State.get_raise_keep, State.get_put _ _ _ _ _ (by decide)]; rfl
  · rw [State.get_raise_keep, get_put_of_apart (by decide), get_put_of_apart (by decide), State.get_put _ _ _ _ _ (by decide),
      get_put_of_apart (by decide)]
  · rw [State.get_raise_keep, get_put_of_apart (by decide), get_put_of_apart (by decide), get_put_of_apart (by decide),
      State.get_put _ _ _ _ _ (by decide)]

/-- The fields that the item of a fault changes on its way. -/
def itemFields : List Fld := [QD_STAT.LEVEL, QD_STAT.STARVED, QD_STAT.STOPPED, QD_CNT.QUARS, QM_STAT.QUAR_FULL]

/-- The fields that the end of a fault changes. -/
def endFields : List Fld :=
  [QD_CNT.FAULTS, ENG_CNT.FAULTS, ENG_CNT.ITEMS, ENG_STAT.LAST_FAULT, ENG_STAT.FAULTED, ENG_STAT.STATE, ENG_PC.PC, QD_STAT.STARVED]

/-- The end of a fault, once its item has gone its way (R204 to R206): it is reported, and the engine is free. -/
def faultEnd (e q code : Nat) (s : State) : State := dropLines e (engineFree e (faultSeen e q code (s.bump ENG_CNT.ITEMS e)))

theorem faultEnd_frame (e q code : Nat) (s : State) : FaultFrame e endFields s (faultEnd e q code s) :=
  FaultFrame.dropLines <| FaultFrame.engineFree (by decide) (by decide) (by decide) <|
    FaultFrame.faultSeen (by decide) (by decide) (by decide) (by decide) <| FaultFrame.bump (by decide) FaultFrame.refl

theorem faultEnd_sameItems (e q code : Nat) (s : State) : SameItems s (faultEnd e q code s) :=
  SameItems.dropLines <| SameItems.engineFree <| SameItems.faultSeen <| SameItems.bump SameItems.refl

/-- Whatever way its item goes, a fault ends as R204 and R219 say. -/
theorem faultEnds_faultEnd {e : EngineIx} {s u : State} (h : FaultFrame e itemFields s u) {code : Nat} (hcode : code < 2 ^ 8) (q : Nat) :
    FaultEnds e code q s (faultEnd e q code u) := by
  have frame := faultEnd_frame e q code u
  have clear := freed_cleared e (faultSeen e q code (u.bump ENG_CNT.ITEMS e))
  have free : FaultFrame e [ENG_PC.PC, ENG_STAT.STATE, QD_STAT.STARVED] (faultSeen e q code (u.bump ENG_CNT.ITEMS e))
      (faultEnd e q code u) :=
    FaultFrame.dropLines <| FaultFrame.engineFree (by decide) (by decide) (by decide) FaultFrame.refl
  have items : FaultFrame e (ENG_CNT.ITEMS :: itemFields) s (u.bump ENG_CNT.ITEMS e) :=
    FaultFrame.bump (by simp) (h.mono (List.subset_cons_self _ _))
  obtain ⟨hlast, hfaulted, hfaults, hqfaults⟩ := get_faultSeen e q code (u.bump ENG_CNT.ITEMS e)
  refine ⟨?_, ?_, ?_, ?_, ?_, ?_, ?_, freed_pc .., ?_, ?_, ?_, ?_, frame.rel.trans h.rel, ?_⟩
  · rw [free.fields _ (by decide), hlast, Nat.mod_eq_of_lt hcode]
  · rw [State.isSet, free.fields _ (by decide), hfaulted]; rfl
  · rw [free.fields _ (by decide), hfaults, items.fields _ (by decide)]
  · rw [free.fields _ (by decide), hqfaults, items.fields _ (by decide)]
  · exact free.raising (mem_raising_raise ..)
  · rw [faultEnd, ← clear]; rfl
  · rw [faultEnd, ← clear]; rfl
  · intro k
    rw [faultEnd, State.gr, ← clear]
    split <;> rfl
  · intro k
    rw [faultEnd, State.tr, ← clear]; rfl
  · intro k
    rw [State.scratchByte, frame.scratch, h.scratch, State.scratchByte]
  · intro k hk
    have hk := Fin.val_ne_of_ne hk
    rw [frame.engines k hk, h.engines k hk]
  · intro a ha
    rw [frame.bytes a ha, h.bytes a ha]

/-! ### The three ways of a fault (R204 to R206) -/

section

variable {e code q n : Nat} {i : Item} {s : State}

/-- A fault of an item that has faulted less than twice returns it (R204). -/
theorem handlerFault_returns (hheld : (s.eng e).held = some (q, n)) (hitem : s.item q n = some i) (hf : i.fcnt < 2) :
    dropLines e (handlerFault e code s) = faultEnd e q code (returnItem q n (fun i' => { i' with fcnt := i.fcnt + 1 }) s) := by
  rw [handlerFault, hheld]
  dsimp only
  rw [hitem, Option.map_some, Option.getD_some, if_pos hf, faultEnd]

/-- The third fault of an item moves it to the quarantine queue, where that has room (R205). -/
theorem handlerFault_quarantines (hheld : (s.eng e).held = some (q, n)) (hitem : s.item q n = some i) (hf : i.fcnt = 2)
    (hroom : s.quarRoom = true) : dropLines e (handlerFault e code s) = faultEnd e q code (quarantineS q n code e s) := by
  rw [handlerFault, hheld]
  dsimp only
  rw [hitem, Option.map_some, Option.getD_some, if_neg (by omega), if_pos hroom, faultEnd]

/-- Where the quarantine queue has no room, the item waits for it at the head of its queue (R206). -/
theorem handlerFault_keepsBack (hheld : (s.eng e).held = some (q, n)) (hitem : s.item q n = some i) (hf : i.fcnt = 2)
    (hroom : s.quarRoom = false) : dropLines e (handlerFault e code s) = faultEnd e q code
      ((((returnItem q n (fun i' => { i' with fcnt := 2, st := .quarWait code e }) s).put QD_STAT.STOPPED 1 q).put
        QM_STAT.QUAR_FULL 1).raise 357) := by
  rw [handlerFault, hheld]
  dsimp only
  rw [hitem, Option.map_some, Option.getD_some, if_neg (by omega), if_neg (by simp [hroom]), faultEnd]

end

section

variable {e : EngineIx} {code q n : Nat} {i : Item} {s : State}

/-! ### What stands after each of them -/

/-- An item that has faulted less than twice (R204). -/
theorem handlerFault_faulted (hheld : (s.eng e).held = some (q, n)) (hitem : s.item q n = some i) (hcode : code < 2 ^ 8)
    (hf : i.fcnt < 2) : Faulted e code q i s (dropLines e (handlerFault e code s)) := by
  rw [handlerFault_returns hheld hitem hf]
  refine ⟨?_, faultEnds_faultEnd (FaultFrame.returnItem FaultFrame.refl) hcode q⟩
  rw [(faultEnd_sameItems e q code _ q).1, head_returnItem hitem]

/-- The third fault of an item, with no room in the quarantine queue (R206). -/
theorem handlerFault_keptBack (hheld : (s.eng e).held = some (q, n)) (hitem : s.item q n = some i) (hcode : code < 2 ^ 8)
    (hf : i.fcnt = 2) (hroom : s.quarRoom = false) : KeptBack e code q i s (dropLines e (handlerFault e code s)) := by
  rw [handlerFault_keepsBack hheld hitem hf hroom]
  generalize hr : returnItem q n (fun i' => { i' with fcnt := 2, st := .quarWait code e }) s = r
  have frame : FaultFrame e itemFields s r := hr ▸ FaultFrame.returnItem FaultFrame.refl
  have hhead := head_returnItem hitem fun i' => { i' with fcnt := 2, st := .quarWait code e }
  rw [hr] at hhead
  have ends := faultEnd_frame e q code (((r.put QD_STAT.STOPPED 1 q).put QM_STAT.QUAR_FULL 1).raise 357)
  refine ⟨?_, ?_, ?_, ?_, faultEnds_faultEnd
    (FaultFrame.raise <| FaultFrame.put (by decide) <| FaultFrame.put (by decide) frame) hcode q⟩
  · rw [(faultEnd_sameItems e q code _ q).1, State.queue_raise_keep, State.queue_put_keep, State.queue_put_keep, hhead]
  · rw [State.isSet, ends.fields _ (by decide), State.get_raise_keep, get_put_of_apart (by decide), State.get_put _ _ _ _ _ (by decide)]
    rfl
  · rw [State.isSet, ends.fields _ (by decide), State.get_raise_keep, State.get_put _ _ _ _ _ (by decide)]
    rfl
  · exact ends.raising (mem_raising_raise ..)

end

section

variable {e code q n : Nat} {i : Item} {s : State}

/-- The record of the quarantined item `i` is accepted once the item has left its queue (R205). -/
def quarantineMove (q n code e : Nat) (i : Item) (s : State) : State :=
  acceptItem quarQ false false (quarBody q code e (s.get QD_CTRL.ITEM_SZ q) { i with fcnt := 2 }) (freeItem q n (readEntries i s))

/-- The move is counted and raises its event, and a queue with `QSTOP` stops (R205). -/
def quarantineReport (q : Nat) (s : State) : State :=
  let t := (s.bump QD_CNT.QUARS q).raise 356
  t.when (t.isSet QD_CTRL.QSTOP q) (·.put QD_STAT.STOPPED 1 q)

theorem quarantineS_eq (hitem : s.item q n = some i) :
    quarantineS q n code e s = quarantineReport q (quarantineMove q n code e i s) := by
  rw [quarantineS, hitem]
  rfl

theorem quarantineMove_frame (k : Nat) : FaultFrame k [QD_STAT.LEVEL, QD_STAT.STARVED] s (quarantineMove q n code e i s) :=
  FaultFrame.acceptItem (by decide) (by decide) <| FaultFrame.freeItem (by decide) <|
    FaultFrame.pool (readEntries_poolOnly i s) FaultFrame.refl

/-- The item has left its queue. -/
theorem item_quarantineMove (hq : q ≠ quarQ) : (quarantineMove q n code e i s).item q n = none := by
  obtain ⟨entry, hsame⟩ := acceptItem_sameItems quarQ (quarBody q code e (s.get QD_CTRL.ITEM_SZ q) { i with fcnt := 2 })
    (freeItem q n (readEntries i s))
  rw [quarantineMove, hsame.item, State.item, State.queue_setQueue, if_neg hq]
  exact item_freeItem ..

/-- Its record is the last of the quarantine queue. -/
theorem queue_quarantineMove (hq : q ≠ quarQ) : ∃ entry,
    ((quarantineMove q n code e i s).queue quarQ).items = (s.queue quarQ).items ++ [{
      seq := (s.queue quarQ).nextSeq, size := s.qItemSize quarQ, since := s.clock, eligAt := s.clock, entry := entry
      body := quarBody q code e (s.get QD_CTRL.ITEM_SZ q) { i with fcnt := 2 } }] ∧
    ((quarantineMove q n code e i s).queue quarQ).nextSeq = (s.queue quarQ).nextSeq + 1 := by
  obtain ⟨entry, hsame⟩ := acceptItem_sameItems quarQ (quarBody q code e (s.get QD_CTRL.ITEM_SZ q) { i with fcnt := 2 })
    (freeItem q n (readEntries i s))
  have read := readEntries_poolOnly i s
  have frame : FaultFrame 0 [QD_STAT.LEVEL] s (freeItem q n (readEntries i s)) :=
    FaultFrame.freeItem (by decide) <| FaultFrame.pool read FaultFrame.refl
  obtain ⟨hitems, hseq⟩ := SameItems.pool read SameItems.refl quarQ
  obtain ⟨jitems, jseq⟩ := hsame quarQ
  rw [State.queue_setQueue, if_pos rfl, queue_freeItem, if_neg hq.symm] at jitems jseq
  refine ⟨entry, ?_, ?_⟩
  · rw [quarantineMove, jitems, hitems, hseq, frame.clock, State.qItemSize, State.qEntries, frame.fields _ (by decide)]
    rfl
  · rw [quarantineMove, jseq, hseq]

theorem quarantineReport_frame (k : Nat) : FaultFrame k [QD_CNT.QUARS, QD_STAT.STOPPED] s (quarantineReport q s) :=
  have h : FaultFrame k [QD_CNT.QUARS, QD_STAT.STOPPED] s ((s.bump QD_CNT.QUARS q).raise 356) :=
    FaultFrame.raise <| FaultFrame.bump (by decide) FaultFrame.refl
  FaultFrame.ite (FaultFrame.put (by decide) h) h

theorem quarantineReport_sameItems : SameItems s (quarantineReport q s) := by
  unfold quarantineReport State.when
  dsimp only
  split
  · exact SameItems.put <| SameItems.raise <| SameItems.bump SameItems.refl
  · exact SameItems.raise <| SameItems.bump SameItems.refl

theorem get_quars_quarantineReport : (quarantineReport q s).get QD_CNT.QUARS q = (s.get QD_CNT.QUARS q + 1) % 2 ^ 8 := by
  have h : ((s.bump QD_CNT.QUARS q).raise 356).get QD_CNT.QUARS q = (s.get QD_CNT.QUARS q + 1) % 2 ^ 8 := by
    rw [State.get_raise_keep, State.bump, State.get_put _ _ _ _ _ (by decide)]
  unfold quarantineReport State.when
  dsimp only
  split
  · rw [get_put_of_apart (by decide), h]
  · exact h

theorem isSet_stopped_quarantineReport :
    (quarantineReport q s).isSet QD_STAT.STOPPED q = (s.isSet QD_STAT.STOPPED q || s.isSet QD_CTRL.QSTOP q) := by
  have h (g : Fld) (hg : Apart QD_CNT.QUARS g) : ((s.bump QD_CNT.QUARS q).raise 356).isSet g q = s.isSet g q := by
    rw [State.isSet, State.get_raise_keep, State.bump, get_put_of_apart hg, State.isSet]
  unfold quarantineReport State.when
  dsimp only
  rw [h _ (by decide)]
  split
  · next hstop => rw [hstop, Bool.or_true, State.isSet, State.get_put _ _ _ _ _ (by decide)]; rfl
  · next hstop => rw [h _ (by decide), Bool.eq_false_iff.mpr hstop, Bool.or_false]

theorem raising_quarantineReport : 356 ∈ (quarantineReport q s).raising :=
  have h : FaultFrame 0 [QD_STAT.STOPPED] ((s.bump QD_CNT.QUARS q).raise 356) (quarantineReport q s) :=
    FaultFrame.ite (FaultFrame.put (by decide) FaultFrame.refl) FaultFrame.refl
  h.raising (mem_raising_raise ..)

end

/-- The third fault of an item, with room in the quarantine queue (R205). -/
theorem handlerFault_quarantined {e : EngineIx} {code q n : Nat} {i : Item} {s : State} (hheld : (s.eng e).held = some (q, n))
    (hitem : s.item q n = some i) (hcode : code < 2 ^ 8) (hf : i.fcnt = 2) (hq : q ≠ quarQ) (hroom : s.quarRoom = true) :
    Quarantined e code q n i s (dropLines e (handlerFault e code s)) := by
  rw [handlerFault_quarantines hheld hitem hf hroom, quarantineS_eq hitem]
  have hgone : (quarantineMove q n code e i s).item q n = none := item_quarantineMove hq
  obtain ⟨entry, hitems, hseq⟩ := queue_quarantineMove (n := n) (code := code) (e := e) (i := i) (s := s) hq
  have moved : FaultFrame e [QD_STAT.LEVEL, QD_STAT.STARVED] s (quarantineMove q n code e i s) := quarantineMove_frame e
  generalize quarantineMove q n code e i s = m at *
  have told : FaultFrame e [QD_CNT.QUARS, QD_STAT.STOPPED] m (quarantineReport q m) := quarantineReport_frame e
  have ends := faultEnd_frame e q code (quarantineReport q m)
  have same : SameItems m (faultEnd e q code (quarantineReport q m)) := quarantineReport_sameItems.trans (faultEnd_sameItems e q code _)
  refine ⟨?_, ?_, ⟨entry, ?_⟩, ?_, ends.raising raising_quarantineReport, ?_,
    faultEnds_faultEnd ((moved.mono (by decide)).trans (told.mono (by decide))) hcode q⟩
  · rw [same.item, hgone]
  · rw [(same quarQ).2, hseq]
  · rw [(same quarQ).1, hitems]
  · rw [ends.fields _ (by decide), get_quars_quarantineReport, moved.fields _ (by decide)]
  · rw [State.isSet, ends.fields _ (by decide), ← State.isSet, isSet_stopped_quarantineReport, State.isSet, State.isSet,
      moved.fields _ (by decide), moved.fields _ (by decide), ← State.isSet, ← State.isSet]

end Sys2Proof.Proofs

/-! ## The atomics (R225)

An atomic is fetched, and then stores and writes its register, or faults with DADDR. -/

namespace Sys2Proof.Proofs

open Sys2Proof Sys2Proof.Machine Sys2Proof.Claims

/-- After a store, an engine that writes g`d` and goes on by one word. -/
theorem writeOn_store {e d x : Nat} {v : Dword} {bs : List Byte} {s y : State} {w : Word} (hfetch : s.fetches e [w] = true)
    (hy : ∃ ls m bad wk n, y = { s with
      xip := { s.xip with lines := ls }, mem := m, badWords := bad, ecc := { s.ecc with weak := wk, corrected := n } })
    (hwrote : WroteMem x bs s y) :
    OnlyEngineMem e s (dropLines e (advance e 1 (setGr e d v y))) ∧ WroteMem x bs s (dropLines e (advance e 1 (setGr e d v y))) ∧
      WroteG e d v s (dropLines e (advance e 1 (setGr e d v y))) ∧
      WentOn e 1 true false false s (dropLines e (advance e 1 (setGr e d v y))) := by
  have hwait := fetches_wait e _ s hfetch
  have hpc := fetches_pc e w [] s hfetch
  obtain ⟨ls, m, bad, wk, n, hy⟩ := hy
  have hpcy : y.pc e = s.pc e := State.get_congr (by rw [hy]) ..
  obtain ⟨honly, hg, hon⟩ := writeOn_spec e d 1 v y (by rw [hy]; exact hwait) (by rw [hpcy]; omega)
  obtain ⟨es, rs, ls', wk', n', hrest⟩ := honly.rest
  generalize dropLines e (advance e 1 (setGr e d v y)) = t at *
  subst hy
  refine ⟨⟨honly.engines, honly.regs, ⟨_, _, _, _, _, _, _, hrest⟩⟩, ?_, hg, ⟨hon.pc, hon.engine⟩⟩
  rw [hrest]
  exact hwrote

/-- An atomic on a word of the program store that can be read: the word takes the new value, and g`d` the old one. -/
theorem atomicOp_completes {e : EngineIx} {d a b : GReg} {func : Nat} {s : State} {x : Nat} {old : Dword}
    (f : Dword → Dword → Dword → Dword) (hfetch : s.fetches e [encR 0x14 d a b func] = true) (hx : x = (s.gr e a).toNat)
    (halign : x % 8 = 0) (hlo : 0x01400000 ≤ x) (hhi : x < 0x01800000) (hbank : s.bankLost (bankOf x) = false)
    (hgood : s.anyBad x 8 = false) (hold : old = BitVec.ofNat 64 (leNat (s.bytesAt x 8))) :
    ∃ t, atomicOp e d a b func f s = .next t ∧ OnlyEngineMem e s t ∧
      WroteMem x (bytesOf 8 (f old (s.gr e d) (s.gr e b)).toNat) s t ∧ WroteG e d old s t ∧ WentOn e 1 true false false s t := by
  obtain ⟨u, hu, hrun⟩ := runCelil_one e _ _ s hfetch
  obtain ⟨ls, wk, n, hfix⟩ := hu.trans (sramFix_same x 8 u)
  have hwrote := store_wrote (sramFix x 8 u) x (bytesOf 8 (f old (s.gr e d) (s.gr e b)).toNat)
  have hstored : ∃ ls m bad wk n, (sramFix x 8 u).store x (bytesOf 8 (f old (s.gr e d) (s.gr e b)).toNat) = { s with
      xip := { s.xip with lines := ls }, mem := m, badWords := bad, ecc := { s.ecc with weak := wk, corrected := n } } := by
    obtain ⟨m, hset⟩ := setBytes_sameButMem (bytesOf 8 (f old (s.gr e d) (s.gr e b)).toNat) (sramFix x 8 u) x
    rw [State.store, hset, hfix]
    exact ⟨_, _, _, _, _, rfl⟩
  refine ⟨_, congrArg Host.Outcome.next (hrun.trans ?_), writeOn_store hfetch hstored (by rw [hfix] at hwrote ⊢; exact hwrote)⟩
  have hstore : u.storeFault x 8 = none := by
    obtain ⟨_, _, _, rfl⟩ := hu
    have hin : inStore x = true := by simp [inStore, hlo, hhi]
    rw [State.storeFault, if_neg (by simp [halign, hin])]
    exact if_neg (by rw [Bool.not_eq_true]; exact hbank)
  have hbad : u.anyBad x 8 = false := by
    obtain ⟨_, _, _, rfl⟩ := hu
    exact hgood
  have hbytes : BitVec.ofNat 64 (leNat (u.bytesAt x 8)) = old := by
    obtain ⟨_, _, _, rfl⟩ := hu
    exact hold.symm
  dsimp only
  rw [State.gr_cache s u hu, State.gr_cache s u hu, State.gr_cache s u hu, ← hx, hstore]
  dsimp only
  rw [if_neg (by simp [hbad]), hbytes]
  rfl

/-- An atomic elsewhere raises DADDR. -/
theorem atomicOp_faults {e : EngineIx} {d a b : GReg} {func : Nat} {s : State} (f : Dword → Dword → Dword → Dword)
    (hfetch : s.fetches e [encR 0x14 d a b func] = true)
    (hx : (s.gr e a).toNat % 8 ≠ 0 ∨ (s.gr e a).toNat < 0x01400000 ∨ 0x01800000 ≤ (s.gr e a).toNat) :
    ∃ u, SameButCache s u ∧ atomicOp e d a b func f s = .next (dropLines e (handlerFault e fDADDR u)) := by
  obtain ⟨u, hu, hrun⟩ := runCelil_one e _ _ s hfetch
  refine ⟨u, hu, congrArg Host.Outcome.next (hrun.trans ?_)⟩
  have hstore : u.storeFault (u.gr e a).toNat 8 = some fDADDR := by
    rw [State.gr_cache s u hu, State.storeFault, inStore, if_pos]
    simp only [Bool.or_eq_true, Bool.not_eq_true', Bool.and_eq_false_iff, decide_eq_true_eq, decide_eq_false_iff_not]
    omega
  dsimp only
  rw [hstore]

/-! ### What a fetch touches does not show in the end of a fault -/

theorem faulted_of_cache {e : EngineIx} {code q : Nat} {i : Item} {s u t : State} (h : SameButCache s u) (k : Faulted e code q i u t) :
    Faulted e code q i s t := by
  obtain ⟨_, _, _, rfl⟩ := h
  exact k

theorem quarantined_of_cache {e : EngineIx} {code q n : Nat} {i : Item} {s u t : State} (h : SameButCache s u)
    (k : Quarantined e code q n i u t) : Quarantined e code q n i s t := by
  obtain ⟨_, _, _, rfl⟩ := h
  exact k

theorem keptBack_of_cache {e : EngineIx} {code q : Nat} {i : Item} {s u t : State} (h : SameButCache s u) (k : KeptBack e code q i u t) :
    KeptBack e code q i s t := by
  obtain ⟨_, _, _, rfl⟩ := h
  exact k

/-! ### The three atomics -/

theorem exec_cAadd (e : EngineIx) (d a b : GReg) (s : State) :
    exec (.cAadd e d a b) s = atomicOp e d a b 0 (fun old _ y => old + y) s := rfl

theorem exec_cAswp (e : EngineIx) (d a b : GReg) (s : State) : exec (.cAswp e d a b) s = atomicOp e d a b 1 (fun _ _ y => y) s := rfl

theorem exec_cAcas (e : EngineIx) (d a b : GReg) (s : State) :
    exec (.cAcas e d a b) s = atomicOp e d a b 2 (fun old x y => if old = x then y else old) s := rfl

/-- Each of the three atomics raises DADDR on an address that is no aligned word of the program store. -/
theorem exec_atomic_faults {x : Instr} {e : EngineIx} {d a b : GReg} {func : Nat} {s : State}
    (hmem : (func, x) ∈ [(0, Instr.cAadd e d a b), (1, .cAswp e d a b), (2, .cAcas e d a b)])
    (hfetch : s.fetches e [encR 0x14 d a b func] = true)
    (hx : (s.gr e a).toNat % 8 ≠ 0 ∨ (s.gr e a).toNat < 0x01400000 ∨ 0x01800000 ≤ (s.gr e a).toNat) :
    ∃ u, SameButCache s u ∧ exec x s = .next (dropLines e (handlerFault e fDADDR u)) := by
  simp only [List.mem_cons, Prod.mk.injEq, List.not_mem_nil, or_false] at hmem
  obtain ⟨rfl, rfl⟩ | ⟨rfl, rfl⟩ | ⟨rfl, rfl⟩ := hmem
  · rw [exec_cAadd]; exact atomicOp_faults _ hfetch hx
  · rw [exec_cAswp]; exact atomicOp_faults _ hfetch hx
  · rw [exec_cAcas]; exact atomicOp_faults _ hfetch hx

/-- Settles O18: a fetched atomic runs its body on a state that differs in what a fetch may touch. On a word of the program store it is a
store and a register write; elsewhere it is the fault DADDR, which ends in one of the three ways of R204 to R206. -/
theorem atomicsComplete : Obligations.AtomicsComplete := by
  unfold Obligations.AtomicsComplete
  refine ⟨fun e d a b s x old hx halign hlo hhi hbank hgood hold => ?_, fun x e d a b func q n i s hmem hfetch hx hheld hitem => ?_⟩
  · have done {func : Nat} (f : Dword → Dword → Dword → Dword) (hfetch : s.fetches e [encR 0x14 d a b func] = true) :=
      atomicOp_completes f hfetch hx halign hlo hhi hbank hgood hold
    dsimp only
    rw [exec_cAadd, exec_cAswp, exec_cAcas]
    refine ⟨done _, done _, fun hfetch heq => ?_, fun hfetch hne => ?_⟩
    · have h := done (fun old x y => if old = x then y else old) hfetch
      rwa [if_pos heq] at h
    · have h := done (fun old x y => if old = x then y else old) hfetch
      rwa [if_neg hne] at h
  · obtain ⟨u, hu, hrun⟩ := exec_atomic_faults hmem hfetch hx
    have hheld' : (u.eng e).held = some (q, n) := by rw [← hheld]; obtain ⟨_, _, _, rfl⟩ := hu; rfl
    have hitem' : u.item q n = some i := by rw [← hitem]; obtain ⟨_, _, _, rfl⟩ := hu; rfl
    have hroom' : u.quarRoom = s.quarRoom := by obtain ⟨_, _, _, rfl⟩ := hu; rfl
    rw [hrun, ← hroom']
    exact ⟨fun hf => ⟨_, rfl, faulted_of_cache hu (handlerFault_faulted hheld' hitem' (by decide) hf)⟩,
      fun hf hq hroom => ⟨_, rfl, quarantined_of_cache hu (handlerFault_quarantined hheld' hitem' (by decide) hf hq hroom)⟩,
      fun hf hroom => ⟨_, rfl, keptBack_of_cache hu (handlerFault_keptBack hheld' hitem' (by decide) hf hroom)⟩⟩

end Sys2Proof.Proofs

/-! ## The raise counts (R235)

Of a warm reset the proof says, part by part, that it keeps the counts: one lemma per function of the model, each of which follows the
function's own text. -/

namespace Sys2Proof.Proofs

open Sys2Proof Sys2Proof.Machine

/-- The raise counts of a state (R235). -/
def Counts (m : SMap Nat) (s : State) : Prop := s.raises = m

namespace Counts

variable {m : SMap Nat} {s : State}

/-! ### Operations that every chapter uses -/

theorem put {f : Fld} {v i j : Nat} (h : Counts m s) : Counts m (s.put f v i j) := h
theorem bump {f : Fld} {i j n : Nat} (h : Counts m s) : Counts m (s.bump f i j n) := h
theorem setWide {a v : Nat} (h : Counts m s) : Counts m (s.setWide a v) := h
theorem raise {n : Nat} (h : Counts m s) : Counts m (s.raise n) := h
theorem emit {o : Out} (h : Counts m s) : Counts m (s.emit o) := h
theorem setChip {n : Nat} {x : Chip} (h : Counts m s) : Counts m (s.setChip n x) := h
theorem setHalf {c k : Nat} {x : Half} (h : Counts m s) : Counts m (s.setHalf c k x) := h
theorem setPort {p : Nat} {x : PortSt} (h : Counts m s) : Counts m (s.setPort p x) := h
theorem setChan {k : Nat} {x : Chan} (h : Counts m s) : Counts m (s.setChan k x) := h
theorem setCdly {l : Nat} {x : Cdly} (h : Counts m s) : Counts m (s.setCdly l x) := h
theorem setQueue {q : Nat} {x : Queue} (h : Counts m s) : Counts m (s.setQueue q x) := h
theorem setEng {e : Nat} {x : Eng} (h : Counts m s) : Counts m (s.setEng e x) := h
theorem setOrg {o : Nat} {x : OriginSt} (h : Counts m s) : Counts m (s.setOrg o x) := h
theorem setVec {v : Nat} {x : Vec} (h : Counts m s) : Counts m (s.setVec v x) := h
theorem setEcc {x : Ecc} (h : Counts m s) : Counts m { s with ecc := x } := h
theorem setRy {x : Ry} (h : Counts m s) : Counts m { s with ry := x } := h
theorem setMsgLast {x : Option Nat} (h : Counts m s) : Counts m { s with msgLast := x } := h
theorem setWarm {b : Bool} {x : List (Nat × Nat × Nat)} {y : Boot} (h : Counts m s) :
    Counts m { s with warm := b, reinits := x, boot := y } := h
theorem free {w : Nat} (h : Counts m s) : Counts m (s.free w).2 := h
theorem setWt {w : Nat} {x : WtSt} (h : Counts m s) : Counts m (s.setWt w x) := h
theorem setFwdSt {k : Nat} {x : FwdSt} (h : Counts m s) : Counts m (s.setFwdSt k x) := h

theorem ite {c : Prop} [Decidable c] {a b : State} (ha : Counts m a) (hb : Counts m b) : Counts m (if c then a else b) := by
  split
  · exact ha
  · exact hb

theorem when {b : Bool} {f : State → State} (hf : ∀ {t}, Counts m t → Counts m (f t)) (h : Counts m s) : Counts m (s.when b f) :=
  ite (hf h) h

theorem forList {α : Type} {l : List α} {f : α → State → State} (hf : ∀ x {t}, Counts m t → Counts m (f x t)) (h : Counts m s) :
    Counts m (forList l f s) :=
  List.foldlRecOn l _ h fun _ ht x _ => hf x ht

theorem forBelow {n : Nat} {f : Nat → State → State} (hf : ∀ x {t}, Counts m t → Counts m (f x t)) (h : Counts m s) :
    Counts m (forBelow n f s) := forList hf h

theorem stage {r : LogRec} (h : Counts m s) : Counts m (s.stage r) := ite h h

theorem log {o k a : Nat} {old new : Word} {x : Nat} (h : Counts m s) : Counts m (s.log o k a old new x) := ite h h.stage

theorem logEvent {s0 : State} {a x o : Nat} (h : Counts m s) : Counts m (s.logEvent s0 a x o) := ite h h.stage

theorem setBytes {bs : List Byte} {a : Nat} (h : Counts m s) : Counts m (s.setBytes a bs) := by
  induction bs generalizing s a with
  | nil => exact h
  | cons b bs ih => exact ih (s := s.setByte a b) h

theorem store {bs : List Byte} {a : Nat} (h : Counts m s) : Counts m (s.store a bs) := h.setBytes

/-! ### On-chip memory and the NVM die -/

theorem uncorrectable {w : Nat} (h : Counts m s) : Counts m (uncorrectable w s) :=
  ite (ite h h) <| ite h.store <| ite h.store <| ite h.store <| ite h.store <| ite (ite h h) h

theorem sramMeets {a n : Nat} (h : Counts m s) : Counts m (sramMeets a n s) :=
  forList (fun _ _ h => uncorrectable <| setEcc h) (ite h (setEcc h))

theorem nvmPartial {cap : Nat} (h : Counts m s) : Counts m (nvmPartial cap s) := by
  unfold Machine.nvmPartial
  split
  · exact h
  · dsimp only
    split
    · exact h
    · exact ite h (ite h h)

theorem endNvm {code : Nat} {failed : Bool} (h : Counts m s) : Counts m (endNvm code failed s) :=
  log <| when put <| put <| put <| put <| put h

theorem abandonNvm (h : Counts m s) : Counts m (abandonNvm s) := when (fun h => h.nvmPartial.endNvm) h

theorem bootRead {b : BootCmd} (h : Counts m s) : Counts m (bootRead b s).2 :=
  List.foldlRecOn (motive := fun r : List Byte × State => Counts m r.2) _ (patchBad _) h.sramMeets fun _ hr _ _ => hr

theorem bootPartial {b : BootCmd} (h : Counts m s) : Counts m (bootPartial b s) :=
  have h' : Counts m (s.free 24).2 := h
  ite h (ite h'.bootRead h)

theorem endBoot {code : Nat} (h : Counts m s) : Counts m (endBoot code s) := log <| put <| put <| put h

theorem abandonBoot (h : Counts m s) : Counts m (abandonBoot s) := by
  unfold Machine.abandonBoot
  split
  · exact h
  · exact endBoot (s := voidSlot _ _) h.bootPartial

/-! ### Calibration runs (R256 to R260) -/

theorem calFail {k t r : Nat} {b : Bool} (h : Counts m s) : Counts m (calFail k t r b s) :=
  logEvent <| when (fun h => put <| put h) <| raise <| bump <| put <| put <| put <| put <| put h

theorem setLevel {l : Nat} (h : Counts m s) : Counts m (setLevel l s) :=
  ite h <| log <| raise <| setWide <| ite (put <| put <| put h) (put <| put h)

theorem refreshLevel (h : Counts m s) : Counts m (refreshLevel s) :=
  ite h <| ite h.setLevel <| ite h.setLevel <| ite (setLevel <| ite h.setLevel h) h.setLevel

theorem refreshAllConv (h : Counts m s) : Counts m (refreshAllConv s) :=
  ite h <| ite (refreshLevel (s := { ((s.put _ 1).put _ 0).raise 277 with convSeen := true }) h) (put h)

theorem trimRefresh {c k : Nat} (h : Counts m s) : Counts m (trimRefresh c k s) :=
  refreshAllConv <| put <| put <| put <| put <| put <| put h

theorem cdState {k v : Nat} (h : Counts m s) : Counts m (cdState k v s) := put h

theorem cdLeave {k : Nat} (h : Counts m s) : Counts m (cdLeave k s) :=
  ite (setPort <| put <| setChan h) (put <| setChan h)

theorem cdFail {k r : Nat} {b : Bool} (h : Counts m s) : Counts m (cdFail k r b s) :=
  refreshAllConv <| cdState <| calFail <| cdLeave h

theorem searchFailed {c k r : Nat} (h : Counts m s) : Counts m (searchFailed c k r s) :=
  calFail <| put <| put <| put <| setHalf <| setHalf h

theorem restartSearch {c k : Nat} (h : Counts m s) : Counts m (restartSearch c k s) := by
  unfold Machine.restartSearch
  split
  · exact ite (ite (searchFailed <| put h) (setHalf <| put h)) (ite (searchFailed <| put h) (setHalf <| free (w := 8) <| put h))
  · exact h

theorem endRuns (k : Nat) (h : Counts m s) : Counts m (endRuns k s) := by
  have abort {t : Nat} {req : Bool} {s : State} (h : Counts m s) : Counts m (s.when req (Machine.calFail k t 12 true)) :=
    when calFail h
  refine ite (forBelow (fun t s h => ?_) h) <| ite (forList (fun k s h => ?_) h) <| ite (forList (fun p s h => ?_) h) <|
    ite (forBelow (fun l s h => ?_) h) <| ite (forBelow (fun x s h => when restartSearch h) h) h
  · dsimp only
    split
    · exact abort <| trimRefresh <| setHalf h
    · exact h
  · dsimp only
    split
    · exact ite h.cdFail (refreshAllConv <| cdState <| cdLeave h)
    · exact h
  · dsimp only
    split
    · exact when setPort <| setPort <| abort h
    · exact h
  · dsimp only
    split
    · exact abort <| put <| setCdly h
    · exact h

/-! ### Engines, queues and their items -/

/-- What a part of a fault leaves as it was includes the counts. -/
theorem of_frame {e : Nat} {fs : List Fld} {t : State} (hf : FaultFrame e fs s t) (h : Counts m s) : Counts m t := hf.raises.trans h

theorem returnItem {q n : Nat} {f : Item → Item} (h : Counts m s) : Counts m (returnItem q n f s) :=
  of_frame (FaultFrame.returnItem (e := 0) (fs := []) FaultFrame.refl) h

theorem setEngState {e st : Nat} (h : Counts m s) : Counts m (setEngState e st s) := put <| setEng <| setWide h

theorem engineFree {e : Nat} (h : Counts m s) : Counts m (engineFree e s) :=
  of_frame (FaultFrame.engineFree (fs := endFields) (by decide) (by decide) (by decide) FaultFrame.refl) h

theorem quarantineS {q n c e : Nat} (h : Counts m s) : Counts m (quarantineS q n c e s) := by
  cases hitem : s.item q n with
  | none => rw [Machine.quarantineS, hitem]; exact h
  | some i =>
    rw [quarantineS_eq hitem]
    exact of_frame (quarantineReport_frame 0) (of_frame (quarantineMove_frame 0) h)

theorem faultSeen {e q c : Nat} (h : Counts m s) : Counts m (faultSeen e q c s) := raise <| put <| put <| bump <| bump h

theorem handlerFault {e c : Nat} (h : Counts m s) : Counts m (handlerFault e c s) := by
  unfold Machine.handlerFault
  split
  · exact h
  · exact engineFree <| faultSeen <| bump <| ite h.returnItem <| ite h.quarantineS <| raise <| put <| put h.returnItem

theorem warmEngine {e : Nat} (h : Counts m s) : Counts m (warmEngine e s) := by
  have rest {s : State} (h : Counts m s) :
      Counts m (((s.setEng e { (s.eng e).cleared with reinitAt := none }).put ENG_PC.PC 0 e).put ENG_CMD.REINIT 0 e) :=
    put <| put <| setEng h
  unfold Machine.warmEngine
  dsimp only
  split
  · exact ite (rest h.returnItem) (setEngState <| rest h.returnItem)
  · exact ite (rest h) (setEngState <| rest h)

/-! ### The serial master port and its fills (R348, R350) -/

theorem smStop {f : SmFrame} {t : Nat} (h : Counts m s) : Counts m (smStop f t s).2 := by
  unfold Machine.smStop raiseLater
  dsimp only
  split
  · exact h
  · exact h

theorem heldEnd {fill : Bool} {t : Nat} (h : Counts m s) : Counts m (heldEnd fill t s) := forList (fun _ _ h => emit h) h

theorem failFills {fault : Nat → Nat → State → State} (hf : ∀ {e c t}, Counts m t → Counts m (fault e c t)) (h : Counts m s) :
    Counts m (failFills fault s) := by
  refine forList (fun _ _ h => forList (fun _ _ h => hf <| setEng h) <| raise <| put <| bump <| put h) ?_
  unfold Counts
  cases s.xip.filling with
  | none => exact h
  | some line => exact heldEnd (s := { (Machine.smStop _ _ s).2 with xip := _ }) h.smStop

theorem warmFault {e c : Nat} (h : Counts m s) : Counts m (warmFault e c s) := by
  unfold Machine.warmFault
  split
  · exact h.faultSeen
  · exact h

theorem takeSmCfg (h : Counts m s) : Counts m (takeSmCfg s) := when emit <| when emit h

theorem smOver {t : Nat} (h : Counts m s) : Counts m (smOver t s) := by
  have follow {s : State} (h : Counts m s) : Counts m (fillsFollow s) := ite h (failFills handlerFault h)
  exact follow <| heldEnd <| takeSmCfg <| put h

theorem smWarm (h : Counts m s) : Counts m (smWarm s) := by
  have fills : Counts m (Machine.failFills Machine.warmFault s) := failFills warmFault h
  unfold Machine.smWarm
  dsimp only
  split
  · next f _ =>
    refine smOver ?_
    cases f.running with
    | none => exact fills
    | some t => exact fills.smStop
  · exact fills

/-! ### Ryrel, mailboxes and what else a warm reset drops -/

theorem parkWorker {w : Nat} (h : Counts m s) : Counts m (parkWorker w s) := by
  have replay {s : State} (h : Counts m s) : Counts m (stopReplay w s) := put <| setWt <| forList (fun _ _ h => setFwdSt <| put h) h
  have stopped {b c : Prop} [Decidable b] [Decidable c] (v w' : Nat) :
      Counts m (stopReplay w (if b then s.put WT_STAT.STATE v w else if c then s.put WT_STAT.STATE w' w else s)) :=
    replay (ite (put h) (ite (put h) h))
  exact ite (setRy <| put <| put <| stopped ..) (stopped ..)

theorem ryWarm (h : Counts m s) : Counts m (ryWarm s) :=
  setRy <| put <| ite (put <| put <| forBelow (fun _ _ h => ite h h.parkWorker) h) (put h)

theorem abortMailboxes (h : Counts m s) : Counts m (abortMailboxes s) := forList (fun _ _ => setOrg) h

theorem dropCommits (h : Counts m s) : Counts m (dropCommits s) :=
  forList (fun _ _ h => put <| setPort h) <| forList (fun _ _ h => put <| put <| setHalf h) h

theorem dropArms (h : Counts m s) : Counts m (dropArms s) := forList (fun _ _ h => put <| put <| setChan h) h

/-! ### What R235 names -/

theorem withDie {f : State → State} (hf : ∀ {t}, Counts m t → Counts m (f t)) (h : Counts m s) : Counts m (withDie f s) :=
  forBelow (fun _ _ => setChip) <| hf <| forBelow (fun _ _ => setChip) h

/-- A warm reset keeps the counts, as every part of it does. -/
theorem warmReset {cause : Nat} (h : Counts m s) : Counts m (warmReset cause s) :=
  ite h <| setWarm <| withDie (fun h => emit <| put <| put <| abortMailboxes <| ryWarm <| forBelow (fun _ _ => warmEngine) <| smWarm <|
    dropArms <| dropCommits <| forBelow (fun k _ => endRuns k) <| abandonBoot <| abandonNvm <| log <| bump <| put h) h

/-- A cold reset starts from a state that has counted no raise. -/
theorem coldOf (cause : Nat) (s : State) : Counts [] (coldOf cause s) := emit <| log <| put <| put rfl

/-- The routes of a source do not count its raises. -/
theorem routeRaise {i : Nat} (h : Counts m s) : Counts m (routeRaise i s) := by
  have send (v : Nat) {s : State} (h : Counts m s) : Counts m (msixSend v s) :=
    ite (setVec h) (ite (emit <| setMsgLast <| setVec h) (setVec h))
  have route {b : Bool} {v : Nat} {s : State} (h : Counts m s) : Counts m (s.when b (msixSend v)) := when (send v) h
  exact ite (setRy <| route h) (route h)

end Counts

/-- A raise that is delivered while the control die is there counts one more of its source, and nothing else. -/
theorem eventRaiseS_raises {i : Nat} {rest : List Nat} {s : State} (hgone : s.cdGone = false) (h : s.raising = i :: rest) :
    (eventRaiseS s).raises = SMap.set (fun _ => 0) s.raises i ((s.raiseCount i + 1) % 2 ^ 32) := by
  have hgone' : State.cdGone { s with raising := rest } = false := hgone
  unfold eventRaiseS
  rw [h]
  dsimp only
  rw [if_neg (by simp [hgone'])]
  exact Counts.ite (Counts.put rfl) (Counts.routeRaise <| Counts.put rfl)

/-- Settles O19: only EVENT_RAISE writes the counts, of which it changes the one of the source raised; every part of a warm reset keeps
them, and a cold reset starts without any. -/
theorem raiseCountsWrapAndSurviveWarmResets : Obligations.RaiseCountsWrapAndSurviveWarmResets := by
  unfold Obligations.RaiseCountsWrapAndSurviveWarmResets
  refine ⟨fun i rest s hgone h => ?_, fun s => ?_, fun s h => ?_, fun s h => ?_⟩
  · have hheld : s.coldHeld = false := (Bool.or_eq_false_iff.mp hgone).1
    have hcount := eventRaiseS_raises hgone h
    refine ⟨eventRaiseS s, by simp [exec, execEventRaise, act, hheld], ?_, fun j hj => ?_⟩
    · rw [State.raiseCount, hcount, SMap.get_set_same]
    · rw [State.raiseCount, hcount, SMap.get_set_ne _ _ _ hj, State.raiseCount]
  · exact ⟨_, rfl, Counts.ite rfl (Counts.warmReset rfl)⟩
  · have hcold : coldResetS s = _ := if_neg (by simp [h])
    exact ⟨_, rfl, fun j => by rw [hcold]; exact congrArg (SMap.get _ · j) (Counts.coldOf 1 s)⟩
  · have hcold : brownOutS s = _ := if_neg (by simp [h])
    exact ⟨_, rfl, fun j => by rw [hcold]; exact congrArg (SMap.get _ · j) (Counts.coldOf 5 s)⟩

end Sys2Proof.Proofs

/-! ## What every operation of the part keeps (R26, R208, R265, R364, R389 to R395)

Four things are followed through the model at once: the commands that wait stay, what has gone out stays out, the canonical form is
kept, and so is it that no engine holds an item in a cold reset. `Evolves s t` says that from `s` to `t` all four are kept. Of each
function of the model one lemma says that it keeps them, and follows the function's own text. -/

namespace Sys2Proof.Proofs

set_option Elab.async false

open Sys2Proof Sys2Proof.Machine

/-- The parts of the state that the four facts speak of. -/
structure Watched where
  pending : List Instr
  outs : List Out
  mem : List Host.Cell
  nvm : List Host.Cell
  regs : SMap Word
  wide : SMap Nat
  engines : SMap Eng
  held : Bool

/-- What is watched of a state. -/
def watched (s : State) : Watched := ⟨s.pending, s.outs, s.mem, s.nvm, s.regs, s.wide, s.engines, s.porst || s.brown⟩

/-- The memories, the register file and the wide values stand in canonical form. -/
def Watched.Canonical (w : Watched) : Prop :=
  Memory.wf w.mem = true ∧ Nvm.wf w.nvm = true ∧ SMap.wf resetAt w.regs = true ∧ SMap.wf (fun _ => (0 : Nat)) w.wide = true

/-- In a cold reset no engine holds an item. -/
def Watched.Idle (w : Watched) : Prop := w.held = true → ∀ e, (SMap.get (fun _ => ({} : Eng)) w.engines e).held = none

/-- The four facts are kept from `v` to `w`. -/
structure Watched.Follows (v w : Watched) : Prop where
  pending : w.pending = v.pending
  outs : v.outs <+: w.outs
  canonical : v.Canonical → w.Canonical
  idle : v.Idle → w.Idle

/-- The four facts are kept from `s` to `t`. A change of anything that is not watched keeps them by definition. -/
def Evolves (s t : State) : Prop := (watched s).Follows (watched t)

/-- A state is canonical in the sense of the statement. -/
theorem canonical_iff (s : State) : s.Canonical ↔ (watched s).Canonical :=
  ⟨fun h => ⟨h.mem, h.nvm, h.regs, h.wide⟩, fun ⟨hm, hn, hr, hw⟩ => ⟨hm, hn, hr, hw⟩⟩

namespace Evolves

variable {s t : State}

theorem refl : Evolves s s := ⟨rfl, List.prefix_rfl, id, id⟩

theorem trans {u : State} (h : Evolves s t) (k : Evolves t u) : Evolves s u :=
  ⟨k.pending.trans h.pending, h.outs.trans k.outs, k.canonical ∘ h.canonical, k.idle ∘ h.idle⟩

/-! ### Control -/

theorem ite {c : Prop} [Decidable c] {a b : State} (ha : Evolves s a) (hb : Evolves s b) : Evolves s (if c then a else b) := by
  split
  · exact ha
  · exact hb

theorem iteSnd {α : Type} {c : Prop} [Decidable c] {a b : α × State} (ha : Evolves s a.2) (hb : Evolves s b.2) :
    Evolves s (if c then a else b).2 := by
  split
  · exact ha
  · exact hb

theorem iteSnd2 {α β : Type} {c : Prop} [Decidable c] {a b : α × β × State} (ha : Evolves s a.2.2) (hb : Evolves s b.2.2) :
    Evolves s (if c then a else b).2.2 := by
  split
  · exact ha
  · exact hb

/-- The state of a pair that is known by another name. -/
theorem of_eq {α : Type} {p q : α × State} (he : p = q) (h : Evolves s p.2) : Evolves s q.2 := he ▸ h

theorem when {b : Bool} {f : State → State} (hf : ∀ {t}, Evolves s t → Evolves s (f t)) (h : Evolves s t) :
    Evolves s (t.when b f) := ite (hf h) h

theorem forList {α : Type} {l : List α} {f : α → State → State} (hf : ∀ x {t}, Evolves s t → Evolves s (f x t)) (h : Evolves s t) :
    Evolves s (forList l f t) := List.foldlRecOn l _ h fun _ ht x _ => hf x ht

theorem forBelow {n : Nat} {f : Nat → State → State} (hf : ∀ x {t}, Evolves s t → Evolves s (f x t)) (h : Evolves s t) :
    Evolves s (forBelow n f t) := forList hf h

/-! ### The stores -/

theorem setReg {a : Nat} {v : Word} (h : Evolves s t) : Evolves s (t.setReg a v) where
  pending := h.pending
  outs := h.outs
  canonical hs := have ⟨hm, hn, hr, hw⟩ := h.canonical hs; ⟨hm, hn, SMap.wf_set _ _ _ _ hr, hw⟩
  idle := h.idle

theorem put {f : Fld} {v i j : Nat} (h : Evolves s t) : Evolves s (t.put f v i j) := h.setReg

theorem bump {f : Fld} {i j n : Nat} (h : Evolves s t) : Evolves s (t.bump f i j n) := h.put

theorem setWide {a v : Nat} (h : Evolves s t) : Evolves s (t.setWide a v) where
  pending := h.pending
  outs := h.outs
  canonical hs := have ⟨hm, hn, hr, hw⟩ := h.canonical hs; ⟨hm, hn, hr, SMap.wf_set _ _ _ _ hw⟩
  idle := h.idle

theorem setByte {a : Nat} {v : Byte} (h : Evolves s t) : Evolves s (t.setByte a v) where
  pending := h.pending
  outs := h.outs
  canonical hs := have ⟨hm, hn, hr, hw⟩ := h.canonical hs; ⟨SMap.wf_set _ _ _ _ hm, hn, hr, hw⟩
  idle := h.idle

theorem setBytes {bs : List Byte} {a : Nat} (h : Evolves s t) : Evolves s (t.setBytes a bs) := by
  induction bs generalizing t a with
  | nil => exact h
  | cons b bs ih => exact ih (setByte h)

theorem store {bs : List Byte} {a : Nat} (h : Evolves s t) : Evolves s (t.store a bs) := h.setBytes

theorem setWord {a : Nat} {v : Word} (h : Evolves s t) : Evolves s (t.setWord a v) := h.setBytes

/-- A range of on-chip memory is cleared. -/
theorem clearMem {lo hi : Nat} (h : Evolves s t) : Evolves s { t with mem := SMap.clear lo hi t.mem } where
  pending := h.pending
  outs := h.outs
  canonical hs := have ⟨hm, hn, hr, hw⟩ := h.canonical hs; ⟨clear_mem_wf lo hi _ hm, hn, hr, hw⟩
  idle := h.idle

theorem nvmProgram {a : Nat} {bs : List Byte} (h : Evolves s t) : Evolves s (nvmProgram a bs t) where
  pending := h.pending
  outs := h.outs
  canonical hs := have ⟨hm, hn, hr, hw⟩ := h.canonical hs; ⟨hm, nvmProgram_wf a bs t hn, hr, hw⟩
  idle := h.idle

/-- A range of the NVM die is erased. -/
theorem clearNvm {lo hi : Nat} (h : Evolves s t) : Evolves s { t with nvm := SMap.clear lo hi t.nvm } where
  pending := h.pending
  outs := h.outs
  canonical hs := have ⟨hm, hn, hr, hw⟩ := h.canonical hs; ⟨hm, nvmEraseRange_wf lo hi t hn, hr, hw⟩
  idle := h.idle

theorem nvmEraseRange {lo hi : Nat} (h : Evolves s t) : Evolves s (nvmEraseRange lo hi t) := clearNvm h

theorem emit {o : Out} (h : Evolves s t) : Evolves s (t.emit o) where
  pending := h.pending
  outs := h.outs.trans (List.prefix_append _ _)
  canonical := h.canonical
  idle := h.idle

/-! ### What is not watched -/

theorem withAsyncOver {x : Bool} (h : Evolves s t) : Evolves s { t with asyncOver := x } := h
theorem withAutoDone {x : Bool} (h : Evolves s t) : Evolves s { t with autoDone := x } := h
theorem withBadWordsEcc {x : List Nat} {y : Ecc} (h : Evolves s t) : Evolves s { t with badWords := x, ecc := y } := h
theorem withBme {x : Bool} (h : Evolves s t) : Evolves s { t with bme := x } := h
theorem withBoot {x : Boot} (h : Evolves s t) : Evolves s { t with boot := x } := h
theorem withBootCmd {x : Option BootCmd} (h : Evolves s t) : Evolves s { t with bootCmd := x } := h
theorem withCalGen {x : Nat} (h : Evolves s t) : Evolves s { t with calGen := x } := h
theorem withCalGenNvmLost {x : Nat} {y : Bool} (h : Evolves s t) : Evolves s { t with calGen := x, nvmLost := y } := h
theorem withCdStamps {x : SMap Nat} (h : Evolves s t) : Evolves s { t with cdStamps := x } := h
theorem withCdlys {x : SMap Cdly} (h : Evolves s t) : Evolves s { t with cdlys := x } := h
theorem withCfg {x : CfgSpace} (h : Evolves s t) : Evolves s { t with cfg := x } := h
theorem withCfgBmeFnMask {x : CfgSpace} {y : Bool} {z : Bool} (h : Evolves s t) : Evolves s { t with cfg := x, bme := y, fnMask := z } := h
theorem withChans {x : SMap Chan} (h : Evolves s t) : Evolves s { t with chans := x } := h
theorem withChipReinit {x : SMap Nat} (h : Evolves s t) : Evolves s { t with chipReinit := x } := h
theorem withChips {x : SMap Chip} (h : Evolves s t) : Evolves s { t with chips := x } := h
theorem withClock {x : Nat} (h : Evolves s t) : Evolves s { t with clock := x } := h
theorem withConvSeen {x : Bool} (h : Evolves s t) : Evolves s { t with convSeen := x } := h
theorem withCores {x : SMap CoreSt} (h : Evolves s t) : Evolves s { t with cores := x } := h
theorem withCtxBad {x : List Nat} (h : Evolves s t) : Evolves s { t with ctxBad := x } := h
theorem withEcc {x : Ecc} (h : Evolves s t) : Evolves s { t with ecc := x } := h
theorem withFnMask {x : Bool} (h : Evolves s t) : Evolves s { t with fnMask := x } := h
theorem withFreeCtr {x : Nat} (h : Evolves s t) : Evolves s { t with freeCtr := x } := h
theorem withHalfFaults {x : Nat} (h : Evolves s t) : Evolves s { t with halfFaults := x } := h
theorem withHalfFaultsLossFaults {x : Nat} {y : List (Nat × Nat)} (h : Evolves s t) : Evolves s { t with halfFaults := x, lossFaults := y } := h
theorem withHalves {x : SMap Half} (h : Evolves s t) : Evolves s { t with halves := x } := h
theorem withLinks {x : SMap Lnk} (h : Evolves s t) : Evolves s { t with links := x } := h
theorem withLoadMark {x : Nat × Nat} (h : Evolves s t) : Evolves s { t with loadMark := x } := h
theorem withLossFaults {x : List (Nat × Nat)} (h : Evolves s t) : Evolves s { t with lossFaults := x } := h
theorem withMsgLast {x : Option Nat} (h : Evolves s t) : Evolves s { t with msgLast := x } := h
theorem withMsix {x : SMap Vec} (h : Evolves s t) : Evolves s { t with msix := x } := h
theorem withNvmLost {x : Bool} (h : Evolves s t) : Evolves s { t with nvmLost := x } := h
theorem withNvmOp {x : Option NvmOp} (h : Evolves s t) : Evolves s { t with nvmOp := x } := h
theorem withOrgs {x : SMap OriginSt} (h : Evolves s t) : Evolves s { t with orgs := x } := h
theorem withParBad {x : SMap Word} (h : Evolves s t) : Evolves s { t with parBad := x } := h
theorem withPorts {x : SMap PortSt} (h : Evolves s t) : Evolves s { t with ports := x } := h
theorem withPreds {x : SMap Nat} (h : Evolves s t) : Evolves s { t with preds := x } := h
theorem withQueues {x : SMap Queue} (h : Evolves s t) : Evolves s { t with queues := x } := h
theorem withRaisesRaiseTs {x : SMap Nat} {y : SMap Nat} (h : Evolves s t) : Evolves s { t with raises := x, raiseTs := y } := h
theorem withRaising {x : List Nat} (h : Evolves s t) : Evolves s { t with raising := x } := h
theorem withReinits {x : List (Nat × Nat × Nat)} (h : Evolves s t) : Evolves s { t with reinits := x } := h
theorem withRel {x : List Action} (h : Evolves s t) : Evolves s { t with rel := x } := h
theorem withRelVerdicts {x : List Action} {y : List (Nat × Nat × Nat × Nat)} (h : Evolves s t) : Evolves s { t with rel := x, verdicts := y } := h
theorem withRingSeq {x : SMap Nat} (h : Evolves s t) : Evolves s { t with ringSeq := x } := h
theorem withRoutedAt {x : SMap Nat} (h : Evolves s t) : Evolves s { t with routedAt := x } := h
theorem withRy {x : Ry} (h : Evolves s t) : Evolves s { t with ry := x } := h
theorem withSm {x : Sm} (h : Evolves s t) : Evolves s { t with sm := x } := h
theorem withSsp {x : Ssp} (h : Evolves s t) : Evolves s { t with ssp := x } := h
theorem withTansyGap {x : Nat} (h : Evolves s t) : Evolves s { t with tansyGap := x } := h
theorem withTansyQ {x : List LogRec} (h : Evolves s t) : Evolves s { t with tansyQ := x } := h
theorem withTansyQTansyGap {x : List LogRec} {y : Nat} (h : Evolves s t) : Evolves s { t with tansyQ := x, tansyGap := y } := h
theorem withTansySeq {x : Nat} (h : Evolves s t) : Evolves s { t with tansySeq := x } := h
theorem withTansyUnrel {x : Nat} (h : Evolves s t) : Evolves s { t with tansyUnrel := x } := h
theorem withTb {x : TimeBase} (h : Evolves s t) : Evolves s { t with tb := x } := h
theorem withTbRy {x : TimeBase} {y : Ry} (h : Evolves s t) : Evolves s { t with tb := x, ry := y } := h
theorem withTimers {x : SMap Nat} (h : Evolves s t) : Evolves s { t with timers := x } := h
theorem withVddhLow {x : Nat} (h : Evolves s t) : Evolves s { t with vddhLow := x } := h
theorem withVerdicts {x : List (Nat × Nat × Nat × Nat)} (h : Evolves s t) : Evolves s { t with verdicts := x } := h
theorem withWarm {x : Bool} (h : Evolves s t) : Evolves s { t with warm := x } := h
theorem withWarmBootReinits {x : Bool} {y : Boot} {z : List (Nat × Nat × Nat)} (h : Evolves s t) : Evolves s { t with warm := x, boot := y, reinits := z } := h
theorem withWdogFrom {x : Option Nat} (h : Evolves s t) : Evolves s { t with wdogFrom := x } := h
theorem withWdogFromWdogOut {x : Option Nat} {y : Bool} (h : Evolves s t) : Evolves s { t with wdogFrom := x, wdogOut := y } := h
theorem withXip {x : Xip} (h : Evolves s t) : Evolves s { t with xip := x } := h

/-! ### Engines -/

/-- An engine takes a state that holds no item which it did not hold before. -/
theorem setEngOf {e : Nat} {x : Eng} (hx : x.held = none ∨ x.held = (t.eng e).held) (h : Evolves s t) : Evolves s (t.setEng e x) where
  pending := h.pending
  outs := h.outs
  canonical := h.canonical
  idle hs hheld k := by
    have hk : (t.eng k).held = none := h.idle hs hheld k
    change ((t.setEng e x).eng k).held = none
    rw [State.eng_setEng]
    split
    · next hke => exact hx.elim id fun hx => hx.trans (hke ▸ hk)
    · exact hk

theorem setEng {e : Nat} {x : Eng} (hx : x.held = (t.eng e).held) (h : Evolves s t) : Evolves s (t.setEng e x) := setEngOf (.inr hx) h

/-- An engine that is free holds nothing. -/
theorem setEngFree {e : Nat} {x : Eng} (hx : x.held = none) (h : Evolves s t) : Evolves s (t.setEng e x) := setEngOf (.inl hx) h

/-- Outside a cold reset an engine may take any state. -/
theorem setEngUp {e : Nat} {x : Eng} (hup : t.coldHeld = false) (h : Evolves s t) : Evolves s (t.setEng e x) where
  pending := h.pending
  outs := h.outs
  canonical := h.canonical
  idle _ hheld := absurd hheld (Bool.eq_false_iff.mp hup)

/-! ### Resets -/

/-- A state with no registers, wide values or memory of its own in which no engine holds an item. -/
theorem cleared {u : State} (hp : u.pending = t.pending) (ho : u.outs = t.outs) (hn : u.nvm = t.nvm) (hm : u.mem = [])
    (hr : u.regs = []) (hw : u.wide = []) (he : u.engines = []) (h : Evolves s t) : Evolves s u where
  pending := hp.trans h.pending
  outs := by change s.outs <+: u.outs; rw [ho]; exact h.outs
  canonical hs := by
    obtain ⟨-, hnvm, -, -⟩ := h.canonical hs
    change Memory.wf u.mem = true ∧ Nvm.wf u.nvm = true ∧ SMap.wf resetAt u.regs = true ∧ SMap.wf (fun _ => (0 : Nat)) u.wide = true
    rw [hm, hn, hr, hw]
    exact ⟨rfl, hnvm, rfl, rfl⟩
  idle _ _ e := by change (SMap.get _ u.engines e).held = none; rw [he]; rfl

/-- On-chip memory is empty. -/
theorem dropMem (h : Evolves s t) : Evolves s { t with mem := [] } where
  pending := h.pending
  outs := h.outs
  canonical hs := have ⟨_, hn, hr, hw⟩ := h.canonical hs; ⟨rfl, hn, hr, hw⟩
  idle := h.idle

/-- A cold reset is held once no engine has a state of its own. -/
theorem hold {p b : Bool} (he : t.engines = []) (h : Evolves s t) : Evolves s { t with porst := p, brown := b } where
  pending := h.pending
  outs := h.outs
  canonical := h.canonical
  idle _ _ e := by change (SMap.get _ t.engines e).held = none; rw [he]; rfl

/-- A cold reset ends, by one of its two ways. -/
theorem lower {p b : Bool} {c : Nat} (hp : p = true → t.porst = true) (hb : b = true → t.brown = true) (h : Evolves s t) :
    Evolves s { t with porst := p, brown := b, clock := c } where
  pending := h.pending
  outs := h.outs
  canonical := h.canonical
  idle hs hheld := h.idle hs (by
    change (p || b) = true at hheld
    change (t.porst || t.brown) = true
    rw [Bool.or_eq_true] at hheld ⊢
    exact hheld.imp hp hb)

end Evolves

end Sys2Proof.Proofs

namespace Sys2Proof.Proofs
set_option Elab.async false

open Sys2Proof Sys2Proof.Machine
namespace Evolves
variable {s t : State}

theorem setChip {n : ℕ} {c : Chip} (h : Evolves s t) : Evolves s (t.setChip n c) := withChips h

theorem setHalf {c k : ℕ} {x : Half} (h : Evolves s t) : Evolves s (t.setHalf c k x) := withHalves h

theorem setCore {c : ℕ} {x : CoreSt} (h : Evolves s t) : Evolves s (t.setCore c x) := withCores h

theorem setPort {p : ℕ} {x : PortSt} (h : Evolves s t) : Evolves s (t.setPort p x) := withPorts h

theorem setQueue {q : ℕ} {x : Queue} (h : Evolves s t) : Evolves s (t.setQueue q x) := withQueues h

theorem setCdly {l : ℕ} {x : Cdly} (h : Evolves s t) : Evolves s (t.setCdly l x) := withCdlys h

theorem setOrg {o : ℕ} {x : OriginSt} (h : Evolves s t) : Evolves s (t.setOrg o x) := withOrgs h

theorem setLnk {l : ℕ} {x : Lnk} (h : Evolves s t) : Evolves s (t.setLnk l x) := withLinks h

theorem setVec {v : ℕ} {x : Vec} (h : Evolves s t) : Evolves s (t.setVec v x) := withMsix h

theorem setWt {w : ℕ} {x : WtSt} (h : Evolves s t) : Evolves s (t.setWt w x) := withRy h

theorem setFwdSt {f : ℕ} {x : FwdSt} (h : Evolves s t) : Evolves s (t.setFwdSt f x) := withRy h

theorem setTimer {k v : ℕ} (h : Evolves s t) : Evolves s (t.setTimer k v) := withTimers h

theorem free {w : ℕ} (h : Evolves s t) : Evolves s (t.free w).2 := withFreeCtr h

theorem raise {src : ℕ} (h : Evolves s t) : Evolves s (t.raise src) := withRaising h

theorem stage {r : LogRec} (h : Evolves s t) : Evolves s (t.stage r) := ite (withTansyQ h) (withTansyGap <| put <| bump h)

theorem log {origin kind addr : ℕ} {old new : Word} {aux : ℕ} (h : Evolves s t) : Evolves s (t.log origin kind addr old new aux) :=
  ite h (stage h)

theorem logEvent {before : State} {addr aux origin : ℕ} (h : Evolves s t) : Evolves s (t.logEvent before addr aux origin) :=
  ite h (stage h)

theorem lockViolation {o a : ℕ} {old v : Word} (h : Evolves s t) : Evolves s (Machine.lockViolation o a old v t) :=
  log <| raise <| bump <| put h

theorem discardFrozen (h : Evolves s t) : Evolves s (Machine.discardFrozen t) := logEvent <| bump h

theorem setRefIn {r : ℕ} {x : RefIn} (h : Evolves s t) : Evolves s (t.setRefIn r x) := withTb h

theorem startSwitchover {r : ℕ} (h : Evolves s t) : Evolves s (Machine.startSwitchover r t) := withTb <| put h

theorem enterHoldover (h : Evolves s t) : Evolves s (Machine.enterHoldover t) := withTb <| raise <| setWide <| bump <| put <| put h

theorem afterRefLoss {r : ℕ} (h : Evolves s t) : Evolves s (Machine.afterRefLoss r t) := by
  unfold Machine.afterRefLoss
  dsimp only
  split
  · exact ite (when startSwitchover <| enterHoldover <| ite (withTb h) h) (ite (withTb h) h)
  · exact ite (ite (startSwitchover <| ite (withTb h) h) (enterHoldover <| ite (withTb h) h)) (ite (withTb h) h)

theorem loseRef {r : ℕ} (h : Evolves s t) : Evolves s (Machine.loseRef r t) := afterRefLoss <| when raise <| setRefIn <| put <| put h

theorem refAbsentS {r : ℕ} (h : Evolves s t) : Evolves s (Machine.refAbsentS r t) := ite (loseRef <| put h) h

theorem refEdgesReturnS {r : ℕ} (h : Evolves s t) : Evolves s (Machine.refEdgesReturnS r t) := ite (setRefIn <| put h) h

theorem refQualifiedS {r : ℕ} (h : Evolves s t) : Evolves s (Machine.refQualifiedS r t) :=
  ite (trans (setRefIn <| put h) <| ite (ite (withTb refl) refl) (ite (startSwitchover refl) refl)) h

theorem judgeRef {r count window : ℕ} (h : Evolves s t) : Evolves s (Machine.judgeRef r count window t) := ite (loseRef h) h

theorem freqMonitorWindowS {countA countB : ℕ} (h : Evolves s t) : Evolves s (Machine.freqMonitorWindowS countA countB t) :=
  ite (withTb <| judgeRef <| judgeRef h) h

theorem revertTimerS (h : Evolves s t) : Evolves s (Machine.revertTimerS t) := ite (startSwitchover h) h

theorem switchoverFreezeS (h : Evolves s t) : Evolves s (Machine.switchoverFreezeS t) := by
  unfold Machine.switchoverFreezeS
  split
  · exact ite (withTb h) h
  · exact h

theorem switchoverCloseS {phase : ℤ} (h : Evolves s t) : Evolves s (Machine.switchoverCloseS phase t) := by
  unfold Machine.switchoverCloseS
  split
  · exact ite (withTb <| setWide h) h
  · exact h

theorem selectRef {r : ℕ} (h : Evolves s t) : Evolves s (Machine.selectRef r t) := ite (ite (startSwitchover <| put h) (put h)) (put h)

theorem heldSelect (h : Evolves s t) : Evolves s (Machine.heldSelect t) := by
  unfold Machine.heldSelect
  split
  · exact selectRef <| withTb h
  · exact h

theorem switchoverSettledS (h : Evolves s t) : Evolves s (Machine.switchoverSettledS t) := by
  unfold Machine.switchoverSettledS
  split
  · exact heldSelect <| withTb <| raise <| bump <| put <| put <| put h
  · exact h

theorem holdLimitS (h : Evolves s t) : Evolves s (Machine.holdLimitS t) := ite (put h) h

theorem acquisitionCompleteS (h : Evolves s t) : Evolves s (Machine.acquisitionCompleteS t) := by
  unfold Machine.acquisitionCompleteS
  split
  · exact ite (heldSelect <| withTb <| put h) h
  · exact h

theorem loadCount {n t1 : ℕ} (h : Evolves s t) : Evolves s (Machine.loadCount n t1 t) := setChip h

theorem replicaStartS (h : Evolves s t) : Evolves s (Machine.replicaStartS t) :=
  ite h (withTb <| forBelow (fun _ _ h => ite h (loadCount <| setChip h)) <| put h)

theorem stepReplica {n : ℕ} (h : Evolves s t) : Evolves s (Machine.stepReplica n t) :=
  when (fun h => put <| forBelow (fun _ _ h => setCore h) <| setChip h) <| setChip <| loadCount h

theorem latchStrobe {n : ℕ} {phase : ℤ} (h : Evolves s t) : Evolves s (Machine.latchStrobe n phase t) := setChip h

theorem upsetReplica {n : ℕ} {err : ℤ} (h : Evolves s t) : Evolves s (Machine.upsetReplica n err t) := setChip h

theorem strobeChip {master : ℤ} {n : ℕ} {err phase : ℤ} (h : Evolves s t) : Evolves s (Machine.strobeChip master n err phase t) :=
  ite h (trans (latchStrobe <| upsetReplica <| ite (stepReplica h) h) <| trans (put <| put refl) <| ite (put refl) (setChip <| raise <|
    put <| put <| put refl))

theorem strobeAlone {n : ℕ} {err phase : ℤ} (h : Evolves s t) : Evolves s (Machine.strobeAlone n err phase t) :=
  ite h (latchStrobe <| upsetReplica h)

theorem alignmentStrobeS {latched : List (ℤ × ℤ)} (h : Evolves s t) : Evolves s (Machine.alignmentStrobeS latched t) := by
  have one {t : State} {b : Bool} {n : ℕ} {d c p : ℤ} (h : Evolves s t) :
      Evolves s ((if b then Machine.strobeAlone else Machine.strobeChip d) n c p t) := by
    split
    · exact strobeAlone h
    · exact strobeChip h
  have last {t : State} (h : Evolves s t) :
      Evolves s (if t.tb.sw.isNone then { t with tb := { t.tb with bwInForce := t.get REF_CFG.BW } } else t) := ite (withTb h) h
  unfold Machine.alignmentStrobeS
  refine ite ?_ h
  refine last <| forList (fun x u hu => ?_) <| put <| withTb h
  exact one hu

theorem epochCtrlWrite {v : ℕ} (h : Evolves s t) : Evolves s (Machine.epochCtrlWrite v t) :=
  ite (ite (put <| setReg h) (withTb <| put <| setReg h)) (withTb <| put <| setReg h)

theorem epochLoadS (h : Evolves s t) : Evolves s (Machine.epochLoadS t) := by
  unfold Machine.epochLoadS
  split
  · split
    · exact withTb <| (by
        split
        · exact setWide <| raise <| put <| bump <| put <| put <| put <| put <| put <| forBelow (fun _ _ h => ite h (setChip <| loadCount
            h)) h
        · exact raise <| put <| bump <| put <| put <| put <| put <| put <| forBelow (fun _ _ h => ite h (setChip <| loadCount h)) h)
    · exact h
  · exact h

theorem matchEdge {p : EpochPlaces} {tol pos : ℕ} (h : Evolves s t) : Evolves s (Machine.matchEdge p tol pos t) :=
  ite (withTb h) (ite (withTb <| withTb h) (withTb <| raise <| put <| withTb h))

theorem laterEdge {frac : ℕ} (h : Evolves s t) : Evolves s (Machine.laterEdge frac t) := by
  unfold Machine.laterEdge
  split
  · exact matchEdge <| bump <| setWide h
  · exact h

theorem epochInEdgeS {fall : Bool} {frac : ℕ} (h : Evolves s t) : Evolves s (Machine.epochInEdgeS fall frac t) :=
  ite h (ite (withTb <| laterEdge h) (laterEdge h))

theorem epochMissingS (h : Evolves s t) : Evolves s (Machine.epochMissingS t) := by
  unfold Machine.epochMissingS
  split
  · exact ite (withTb <| put h) h
  · exact h

theorem requestSlew {adj : ℤ} {rate : ℕ} (h : Evolves s t) : Evolves s (Machine.requestSlew adj rate t) := withTb <| put h

theorem slewStartS (h : Evolves s t) : Evolves s (Machine.slewStartS t) := by
  unfold Machine.slewStartS
  split
  · exact ite (withTb <| put <| put h) h
  · exact h

theorem slewEndS (h : Evolves s t) : Evolves s (Machine.slewEndS t) := by
  unfold Machine.slewEndS
  split
  · exact ite (withTb <| put h) h
  · exact h

theorem hookRefFreq {r : ℕ} {old new : Word} (h : Evolves s t) : Evolves s (Machine.hookRefFreq r old new t).2 :=
  iteSnd (put h) (iteSnd (setRefIn h) (trans (setRefIn <| put h) <| ite (loseRef <| put refl) refl))

theorem hookRefCfg {m old new : Word} (h : Evolves s t) : Evolves s (Machine.hookRefCfg m old new t).2 :=
  ite (ite (loseRef <| put <| ite (loseRef <| put <| setReg h) (setReg h)) (ite (loseRef <| put <| setReg h) (setReg h))) (ite (withTb <|
    ite (loseRef <| put <| ite (loseRef <| put <| setReg h) (setReg h)) (ite (loseRef <| put <| setReg h) (setReg h))) (selectRef <|
    ite (loseRef <| put <| ite (loseRef <| put <| setReg h) (setReg h)) (ite (loseRef <| put <| setReg h) (setReg h))))

theorem hookTbSlew {ones old new : Word} (h : Evolves s t) : Evolves s (Machine.hookTbSlew ones old new t).2 :=
  when requestSlew <| when put h

theorem setLevel {l : ℕ} (h : Evolves s t) : Evolves s (Machine.setLevel l t) :=
  ite h (trans (put <| put h) <| log <| raise <| setWide <| ite (put refl) refl)

theorem refreshLevel (h : Evolves s t) : Evolves s (Machine.refreshLevel t) :=
  ite h (ite (setLevel h) (ite (setLevel h) (ite (setLevel <| ite (setLevel h) h) (setLevel h))))

theorem faultReport {code : ℕ} (h : Evolves s t) : Evolves s (Machine.faultReport code t) :=
  refreshLevel <| logEvent <| raise <| bump <| put <| put h

theorem setLocked {c k : ℕ} {b : Bool} (h : Evolves s t) : Evolves s (Machine.setLocked c k b t) := put <| put <| when put h

theorem refreshOos {c : ℕ} (h : Evolves s t) : Evolves s (Machine.refreshOos c t) := put h

theorem refuseWord {c k bit : ℕ} (h : Evolves s t) : Evolves s (Machine.refuseWord c k bit t) := logEvent <| raise <| put <| put h

theorem requestEnd {requested : Bool} {result : ℕ} (h : Evolves s t) : Evolves s (Machine.requestEnd requested result t) :=
  when (fun h => put <| put h) h

theorem calFail {mach target reason : ℕ} {requested : Bool} (h : Evolves s t) : Evolves s (Machine.calFail mach target reason requested
    t) :=
  logEvent <| requestEnd <| raise <| bump <| put <| put <| put <| put <| put h

theorem calCommit {mach target : ℕ} {requested : Bool} (h : Evolves s t) : Evolves s (Machine.calCommit mach target requested t) :=
  log <| requestEnd <| bump h

theorem refreshAllConv (h : Evolves s t) : Evolves s (Machine.refreshAllConv t) :=
  ite h (ite (refreshLevel <| withConvSeen <| raise <| put <| put h) (put h))

theorem trimRefresh {c k : ℕ} (h : Evolves s t) : Evolves s (Machine.trimRefresh c k t) :=
  refreshAllConv <| put <| put <| put <| put <| put <| put h

theorem trimBoundary {c k : ℕ} {driving : Bool} (h : Evolves s t) : Evolves s (Machine.trimBoundary c k driving t) :=
  ite (trimRefresh h) (trimRefresh <| setHalf h)

theorem discardBlock {c k : ℕ} (h : Evolves s t) : Evolves s (Machine.discardBlock c k t) := setHalf h

theorem restartWindows {c k : ℕ} (h : Evolves s t) : Evolves s (Machine.restartWindows c k t) := put <| setHalf h

theorem searchFailed {c k reason : ℕ} (h : Evolves s t) : Evolves s (Machine.searchFailed c k reason t) :=
  calFail <| put <| put <| restartWindows <| setHalf h

theorem searchFound {c k code : ℕ} (h : Evolves s t) : Evolves s (Machine.searchFound c k code t) :=
  ite (trimRefresh <| withFreeCtr <| put <| put <| restartWindows <| setHalf h) (trimRefresh <| withPreds <| withFreeCtr <| put <| put <|
    restartWindows <| setHalf h)

theorem startSearch {c k : ℕ} {w : DivWord} (h : Evolves s t) : Evolves s (Machine.startSearch c k w t) :=
  ite (searchFailed <| put h) (setHalf <| withFreeCtr <| put h)

theorem startNarrow {c k code : ℕ} (h : Evolves s t) : Evolves s (Machine.startNarrow c k code t) :=
  ite (searchFailed <| put h) (setHalf <| put h)

theorem restartSearch {c k : ℕ} (h : Evolves s t) : Evolves s (Machine.restartSearch c k t) := by
  unfold Machine.restartSearch
  split
  · exact ite (startNarrow h) (startSearch h)
  · exact h

theorem applyWordWith {c k : ℕ} {w : DivWord} {search : State → State} (hf : ∀ {t}, Evolves s t → Evolves s (search t))
    (h : Evolves s t) : Evolves s (Machine.applyWordWith c k w search t) :=
  have hlock : Evolves s (if largeChange t c k w then Machine.setLocked c k false t else t) := ite (setLocked h) h
  have hword {u : State} (h : Evolves s u) : Evolves s (if w.search then u else u.put HALF_STAT.ACT_BAND w.band c k) := ite h (put h)
  have hline {u : State} (h : Evolves s u) : Evolves s (if u.drive c = k then u.put HOP_STAT.ON_LINE 0 c else u) := ite (put h) h
  trimBoundary <| discardBlock <| when hf <| hline <| put <| setHalf <| restartWindows <| bump <| setWide <| setWide <| hword <|
    put <| put <| put <| put <| put hlock

theorem applyWord {c k : ℕ} {w : DivWord} (h : Evolves s t) : Evolves s (Machine.applyWord c k w t) := applyWordWith startSearch h

theorem loadWord {c k : ℕ} {w : DivWord} {inLock : Bool} {divOf : ℕ → ℕ} (h : Evolves s t) : Evolves s (Machine.loadWord c k w inLock
    divOf t).2 := by
  unfold Machine.loadWord
  split
  · exact refuseWord h
  · exact applyWord h

theorem loadNarrow {c k : ℕ} {w : DivWord} {band : ℕ} (h : Evolves s t) : Evolves s (Machine.loadNarrow c k w band t).2 := by
  unfold Machine.loadNarrow
  dsimp only
  split
  · exact refuseWord h
  · exact applyWordWith startNarrow h

theorem dropPending {c k : ℕ} (h : Evolves s t) : Evolves s (Machine.dropPending c k t) := put <| put <| setHalf h

theorem commitBusy {c : ℕ} (h : Evolves s t) : Evolves s (Machine.commitBusy c t) := logEvent <| put h

theorem captureCommit {c k : ℕ} (h : Evolves s t) : Evolves s (Machine.captureCommit c k t) :=
  ite (put <| commitBusy h) (put <| put <| setHalf h)

theorem applyPending {c k : ℕ} {divOf : DivWord → ℕ → ℕ} (h : Evolves s t) : Evolves s (Machine.applyPending c k divOf t) := by
  unfold Machine.applyPending
  split
  · exact h
  · exact ite h (ite (logEvent <| put <| put <| dropPending h) (dropPending <| loadWord h))

theorem halfReadyS {c k : ℕ} (h : Evolves s t) : Evolves s (Machine.halfReadyS c k t) :=
  ite (trimRefresh <| setHalf <| restartWindows <| put h) h

theorem powerDown {c k : ℕ} (h : Evolves s t) : Evolves s (Machine.powerDown c k t) :=
  trimRefresh <| setHalf <| put <| dropPending <| setLocked <| put h

theorem powerUp {c k : ℕ} (h : Evolves s t) : Evolves s (Machine.powerUp c k t) := setHalf h

theorem hookCoreCtrl {c : ℕ} {old new : Word} (h : Evolves s t) : Evolves s (Machine.hookCoreCtrl c old new t).2 :=
  trimRefresh <| trimRefresh <| refreshOos <| when (fun h => logEvent <| put h) <| ite (powerDown <| ite (powerUp <| ite (powerUp <|
    setReg h) (setReg h)) (ite (powerUp <| setReg h) (setReg h))) (ite (powerUp <| ite (powerUp <| setReg h) (setReg h)) (ite (powerUp <|
    setReg h) (setReg h)))

theorem hookLdCfg {c k : ℕ} {new : Word} (h : Evolves s t) : Evolves s (Machine.hookLdCfg c k new t).2 := setHalf <| when put h

theorem halfPhase {c k ts : ℕ} (h : Evolves s t) : Evolves s (t.halfPhase c k ts).2 := by
  unfold State.halfPhase
  dsimp only
  split
  · exact h
  · exact h
  · exact setHalf <| withFreeCtr h

theorem portTransition {p ts : ℕ} {a b : Pattern} (h : Evolves s t) : Evolves s (Machine.portTransition p ts a b t) := setPort h

theorem outgoing {p c k ts : ℕ} (h : Evolves s t) : Evolves s (Machine.outgoing p c k ts t).2 := halfPhase h

theorem incoming {p c k ts : ℕ} {a : Pattern} (h : Evolves s t) : Evolves s (Machine.incoming p c k ts a t) :=
  portTransition <| halfPhase h

theorem markerPulse {p ts : ℕ} (h : Evolves s t) : Evolves s (Machine.markerPulse p ts t).2 :=
  outgoing (p := p) (c := t.srcCore p) (k := t.drive (t.srcCore p)) (ts := ts) h

theorem refreshGroup {g : ℕ} (h : Evolves s t) : Evolves s (Machine.refreshGroup g t) := refreshAllConv <| put h

theorem refreshCoreGroup {c : ℕ} (h : Evolves s t) : Evolves s (Machine.refreshCoreGroup c t) := by
  unfold Machine.refreshCoreGroup
  split
  · exact refreshGroup h
  · exact h

theorem refreshPortGroup {p : ℕ} (h : Evolves s t) : Evolves s (Machine.refreshPortGroup p t) := by
  unfold Machine.refreshPortGroup
  split
  · exact refreshGroup h
  · exact refreshAllConv h

theorem startAttempt {p : ℕ} {requested : Bool} (h : Evolves s t) : Evolves s (Machine.startAttempt p requested t) := setPort h

theorem skewRefresh {p : ℕ} (h : Evolves s t) : Evolves s (Machine.skewRefresh p t) :=
  ite h (ite (refreshPortGroup <| ite (setPort h) (startAttempt <| setPort h)) (refreshPortGroup <| setPort h))

theorem trimMotionStart {p : ℕ} (h : Evolves s t) : Evolves s (Machine.trimMotionStart p t) := ite h (put <| setPort h)

theorem refreshPort {p : ℕ} (h : Evolves s t) : Evolves s (Machine.refreshPort p t) := skewRefresh <| put <| put h

theorem refreshGuard {c : ℕ} (h : Evolves s t) : Evolves s (Machine.refreshGuard c t) :=
  ite (ite (ite (ite h (setHalf h)) (setHalf h)) (setHalf <| ite (ite h (setHalf h)) (setHalf h))) (setHalf <| ite (ite h (setHalf h))
    (setHalf h))

theorem refreshPorts {c : ℕ} (h : Evolves s t) : Evolves s (Machine.refreshPorts c t) :=
  refreshGuard <| forList (fun _ _ h => refreshPort h) h

theorem portsLine {c : ℕ} (h : Evolves s t) : Evolves s (Machine.portsLine c t) := forList (fun _ _ h => put h) h

theorem setPortStateRl {p st : ℕ} {rl : Bool} (h : Evolves s t) : Evolves s (Machine.setPortStateRl p st rl t) :=
  refreshPort <| when setPort <| when (fun h => trimMotionStart <| setPort h) <| put <| setPort h

theorem setPortState {p st : ℕ} (h : Evolves s t) : Evolves s (Machine.setPortState p st t) := setPortStateRl h

theorem enterHold {p : ℕ} {stale : Bool} (h : Evolves s t) : Evolves s (Machine.enterHold p stale t) := setPortStateRl h

theorem closeLoops {c : ℕ} (h : Evolves s t) : Evolves s (Machine.closeLoops c t) :=
  ite (setHalf <| ite (setHalf h) h) (ite (setHalf h) h)

theorem releaseSpare {c : ℕ} (h : Evolves s t) : Evolves s (Machine.releaseSpare c t) := ite (forBelow (fun _ _ h => ite (put h) h) h) h

theorem beforeCeil (h : Evolves s t) : Evolves s (t.beforeCeil) := by
  unfold State.beforeCeil
  exact forList (fun _ _ h => (by
    split
    · exact ite (put h) h
    · exact h)) h

theorem refusePort {p bit : ℕ} (h : Evolves s t) : Evolves s (Machine.refusePort p bit t) := logEvent <| raise <| put <| put h

theorem setFine {p fine : ℕ} (h : Evolves s t) : Evolves s (Machine.setFine p fine t) := ite (put <| setPort h) (put <| put <| setPort h)

theorem leaveFailover {p : ℕ} (h : Evolves s t) : Evolves s (Machine.leaveFailover p t) := by
  unfold Machine.leaveFailover
  exact forList (fun _ _ h => (by
    split
    · exact ite (setCore h) h
    · exact h)) h

theorem outgoingNow {p : ℕ} (h : Evolves s t) : Evolves s (Machine.outgoingNow p t).2 := outgoing h

theorem incomingNow {p : ℕ} {a : Pattern} (h : Evolves s t) : Evolves s (Machine.incomingNow p a t) := incoming h

theorem freshWord {p : ℕ} (h : Evolves s t) : Evolves s (Machine.freshWord p t) := ite (put <| setPort h) h

theorem wordFine {p fine : ℕ} {was : ℕ × ℕ} (h : Evolves s t) : Evolves s (Machine.wordFine p fine was t) :=
  ite (put <| setPort h) (setFine h)

theorem applyPortWord {p : ℕ} {w : PortWord} (h : Evolves s t) : Evolves s (Machine.applyPortWord p w t) :=
  ite (releaseSpare <| refreshGuard <| closeLoops <| put <| wordFine <| setPortStateRl <| bump <| when setPort <| when incomingNow <|
    setPort <| put <| put <| put <| put <| when leaveFailover <| iteSnd (outgoingNow h) h) (refreshPortGroup <| refreshCoreGroup <|
    releaseSpare <| refreshGuard <| closeLoops <| releaseSpare <| refreshGuard <| closeLoops <| put <| wordFine <| setPortStateRl <|
    bump <| when setPort <| when incomingNow <| setPort <| put <| put <| put <| put <| when leaveFailover <| iteSnd (outgoingNow h) h)

theorem loadPortWord {p : ℕ} {w : PortWord} (h : Evolves s t) : Evolves s (Machine.loadPortWord p w t) := by
  unfold Machine.loadPortWord
  split
  · exact refusePort h
  · exact applyPortWord h

theorem loadTimedWord {p : ℕ} {w : PortWord} (h : Evolves s t) : Evolves s (Machine.loadTimedWord p w t) := by
  unfold Machine.loadTimedWord
  split
  · exact refusePort h
  · exact applyPortWord h

theorem portTimed {p : ℕ} (h : Evolves s t) : Evolves s (Machine.portTimed p t) := setPort h

theorem applyEntry {p div : ℕ} {key : ℕ × ℕ × ℕ × ℕ} (h : Evolves s t) : Evolves s (Machine.applyEntry p div key t) :=
  ite (refusePort <| portTimed h) (setPort <| bump <| put <| portTimed h)

theorem capturePort {p : ℕ} (h : Evolves s t) : Evolves s (Machine.capturePort p t) := put <| setPort h

theorem portWordApplyS {p : ℕ} (h : Evolves s t) : Evolves s (Machine.portWordApplyS p t) := by
  unfold Machine.portWordApplyS
  split
  · exact h
  · exact ite h (trans (put <| setPort h) <| ite (logEvent <| put <| put refl) (loadPortWord refl))

theorem editAdmitted {n : ℕ} {a b : Admitted} (h : Evolves s t) : Evolves s (Machine.editAdmitted n a b t) := setChip h

theorem failHop {c reason : ℕ} (h : Evolves s t) : Evolves s (Machine.failHop c reason t) := logEvent <| raise <| bump <| put <| put h

theorem closeWindow {c : ℕ} (h : Evolves s t) : Evolves s (Machine.closeWindow c t) := put <| setCore h

theorem endRelock {c : ℕ} (h : Evolves s t) : Evolves s (Machine.endRelock c t) := put <| setCore h

theorem failHopsOn {sp : ℕ} (h : Evolves s t) : Evolves s (Machine.failHopsOn sp t) :=
  forList (fun _ _ h => failHop <| editAdmitted h) <| ite (failHop <| endRelock <| closeWindow h) (closeWindow h)

theorem squelchPolicy {p : ℕ} (h : Evolves s t) : Evolves s (Machine.squelchPolicy p t) := setPortState h

theorem holdPolicy {p : ℕ} (h : Evolves s t) : Evolves s (Machine.holdPolicy p t) :=
  ite (squelchPolicy h) (ite (squelchPolicy <| put h) (setPortState <| setPort <| setHalf h))

theorem failoverElse {p : ℕ} (h : Evolves s t) : Evolves s (Machine.failoverElse p t) := ite (holdPolicy h) (squelchPolicy h)

theorem markFailed {c k : ℕ} (h : Evolves s t) : Evolves s (Machine.markFailed c k t) := refreshOos <| setHalf <| put h

theorem reportFailed (h : Evolves s t) : Evolves s (Machine.reportFailed t) := ite (withHalfFaults h) (faultReport h)

theorem dropEdge (h : Evolves s t) : Evolves s (Machine.dropEdge t) := by
  unfold Machine.dropEdge
  split
  · exact withTb h
  · exact h

theorem startFailover {c : ℕ} {ps : List ℕ} (h : Evolves s t) : Evolves s (Machine.startFailover c ps t) := by
  unfold Machine.startFailover
  split
  · exact h
  · split
    · exact forList (fun _ _ h => failoverElse h) h
    · exact reportFailed <| markFailed <| markFailed <| failHopsOn <| raise <| dropEdge <| setCore <| forList (fun _ _ h => setPortState
        h) h

theorem policySeen {p : ℕ} (h : Evolves s t) : Evolves s (Machine.policySeen p t) := raise <| setWide <| put <| bump h

theorem holdToPolicy {p : ℕ} (h : Evolves s t) : Evolves s (Machine.holdToPolicy p t) :=
  ite h (ite (setPortState h) (ite h (incomingNow <| freshWord <| outgoingNow h)))

theorem lockLossPolicy {c : ℕ} (h : Evolves s t) : Evolves s (Machine.lockLossPolicy c t) :=
  refreshPorts <| closeLoops <| startFailover <| forList (fun _ _ h => holdPolicy h) <| forList (fun _ _ h => squelchPolicy h) <|
    forList (fun _ _ h => holdToPolicy h) <| forList (fun _ _ h => policySeen h) h

theorem declareFailed {c k : ℕ} (h : Evolves s t) : Evolves s (Machine.declareFailed c k t) :=
  ite h (trans (reportFailed <| markFailed h) <| ite (lockLossPolicy refl) refl)

theorem lockWithdrawn {c k : ℕ} (h : Evolves s t) : Evolves s (Machine.lockWithdrawn c k t) :=
  trimRefresh <| discardBlock <| setHalf <| raise <| put <| bump <| setWide <| put <| setLocked h

theorem lineLost {c k : ℕ} (h : Evolves s t) : Evolves s (Machine.lineLost c k t) := ite (portsLine <| put <| setHalf h) (setHalf h)

theorem lockLost {c k : ℕ} (h : Evolves s t) : Evolves s (Machine.lockLost c k t) :=
  lineLost <| ite (lockLossPolicy <| lockWithdrawn h) (lockWithdrawn h)

theorem portRegain {p : ℕ} (h : Evolves s t) : Evolves s (Machine.portRegain p t) := ite (setPortState h) (ite (put <| setPortState h) h)

theorem lockGained {c k : ℕ} (h : Evolves s t) : Evolves s (Machine.lockGained c k t) :=
  ite (refreshPorts <| closeLoops <| forList (fun _ _ h => portRegain h) <| trimRefresh <| discardBlock <| setHalf <| raise <| setWide <|
    setLocked h) (trimRefresh <| discardBlock <| setHalf <| raise <| setWide <| setLocked h)

theorem ldWindowEndS {c k : ℕ} {d : ℤ} {vtune : ℕ} (h : Evolves s t) : Evolves s (Machine.ldWindowEndS c k d vtune t) :=
  ite (trans (put <| put <| setHalf h) <| trans (ite (ite (lockLost <| put refl) (put refl)) (ite (lockGained <| put refl) (put refl))) <|
    ite (put <| setHalf <| put refl) (put refl)) h

theorem grossTrip {c k : ℕ} (h : Evolves s t) : Evolves s (Machine.grossTrip c k t) := lockLost <| put h

theorem grossMonitorWindowS {c k : ℕ} {d : ℤ} (h : Evolves s t) : Evolves s (Machine.grossMonitorWindowS c k d t) :=
  ite (ite (grossTrip <| setHalf h) (setHalf h)) h

theorem grossNoFeedbackS {c k : ℕ} (h : Evolves s t) : Evolves s (Machine.grossNoFeedbackS c k t) :=
  ite (setHalf <| grossTrip <| reportFailed <| markFailed h) h

theorem postSwitchGuardFailS {c : ℕ} (h : Evolves s t) : Evolves s (Machine.postSwitchGuardFailS c t) := ite (lockLost h) h

theorem halfRelockTimeoutS {c k : ℕ} (h : Evolves s t) : Evolves s (Machine.halfRelockTimeoutS c k t) := by
  unfold Machine.halfRelockTimeoutS
  split
  · exact ite (declareFailed h) h
  · exact h

theorem holdLimitExpiryS {p : ℕ} (h : Evolves s t) : Evolves s (Machine.holdLimitExpiryS p t) :=
  ite (refreshGuard <| closeLoops <| squelchPolicy h) h

theorem ceilGuardWindowS {c k count : ℕ} (h : Evolves s t) : Evolves s (Machine.ceilGuardWindowS c k count t) := by
  unfold Machine.ceilGuardWindowS
  split
  · exact ite (releaseSpare <| refreshGuard <| closeLoops <| forList (fun _ _ h => raise <| setPortState <| put h) <| setHalf h) h
  · exact h

theorem hookPortCeil {p : ℕ} {old new : Word} (h : Evolves s t) : Evolves s (Machine.hookPortCeil p old new t).2 :=
  iteSnd (put <| when put <| setPort h) (when put <| setPort h)

theorem hookPortCfg {p : ℕ} {new : Word} (h : Evolves s t) : Evolves s (Machine.hookPortCfg p new t).2 := when (fun h => put <| put h) h

theorem masterPort {p : ℕ} (h : Evolves s t) : Evolves s (Machine.masterPort p t) :=
  ite (ite (setPortState h) h) (ite h (setPortState <| when leaveFailover h))

theorem masterChip {n : ℕ} (h : Evolves s t) : Evolves s (Machine.masterChip n t) :=
  forList (fun _ _ h => refreshPorts <| closeLoops h) <| forList (fun _ _ h => masterPort h) h

theorem portMenS {v : ℕ} (h : Evolves s t) : Evolves s (Machine.portMenS v t) := forBelow (fun _ _ h => ite h (masterChip h)) <| put h

theorem finePhaseStepS {p : ℕ} (h : Evolves s t) : Evolves s (Machine.finePhaseStepS p t) := ite (put <| put h) h

theorem markerPulseS {p : ℕ} (h : Evolves s t) : Evolves s (Machine.markerPulseS p t) := by
  unfold Machine.markerPulseS
  split
  · exact ite (ite (emit <| setPort <| markerPulse <| setPort h) (setPort h)) h
  · exact h

theorem markPort {p cnt ts : ℕ} (h : Evolves s t) : Evolves s (Machine.markPort p cnt ts t) := ite (refusePort h) (setPort h)

theorem hookLg {g k : ℕ} {old new : Word} (h : Evolves s t) : Evolves s (Machine.hookLg g k old new t).2 := iteSnd (put h) h

theorem writeParity {r : ℕ} (h : Evolves s t) : Evolves s (Machine.writeParity r t) := store h

theorem tansyReplace {w : ℕ} (h : Evolves s t) : Evolves s (Machine.tansyReplace w t) := store h

theorem markCtx {n : ℕ} (h : Evolves s t) : Evolves s (Machine.markCtx n t) := ite (withCtxBad h) h

theorem dropResult {w : ℕ} (h : Evolves s t) : Evolves s (Machine.dropResult w t) := store h

theorem flagRecord {w : ℕ} (h : Evolves s t) : Evolves s (Machine.flagRecord w t) := ite h (withEcc h)

theorem freshRecord {a : ℕ} (h : Evolves s t) : Evolves s (Machine.freshRecord a t) := withEcc h

theorem uncorrectable {w : ℕ} (h : Evolves s t) : Evolves s (Machine.uncorrectable w t) :=
  ite (markCtx h) (ite (store h) (ite (store h) (ite (tansyReplace h) (ite (dropResult h) (ite (flagRecord h) h)))))

theorem sramFix {off n : ℕ} (h : Evolves s t) : Evolves s (Machine.sramFix off n t) := ite h (withEcc h)

theorem sramMeets {off n : ℕ} (h : Evolves s t) : Evolves s (Machine.sramMeets off n t) :=
  forList (fun _ _ h => uncorrectable <| withEcc h) <| sramFix h

theorem readCtxWords {n : ℕ} {offs : List ℕ} (h : Evolves s t) : Evolves s (Machine.readCtxWords n offs t) :=
  forList (fun _ _ h => sramMeets h) h

theorem refreshFifo {n : ℕ} (h : Evolves s t) : Evolves s (Machine.refreshFifo n t) := when put <| put h

theorem dropAdmitted {n : ℕ} {a : Admitted} (h : Evolves s t) : Evolves s (Machine.dropAdmitted n a t) := refreshFifo <| setChip h

theorem takeHop {c : ℕ} {a : Admitted} (h : Evolves s t) : Evolves s (Machine.takeHop c a t) := setCore <| dropAdmitted h

theorem clearBandValid {ctx : ℕ} (h : Evolves s t) : Evolves s (Machine.clearBandValid ctx t) :=
  ite h (ite (readCtxWords h) (setWord <| readCtxWords h))

theorem failOpenHop {c reason : ℕ} {r : HopRun} (h : Evolves s t) : Evolves s (Machine.failOpenHop c reason r t) :=
  failHop <| closeWindow <| editAdmitted h

theorem applyEntries {c : ℕ} {a : Admitted} {es : List (ℕ × ℕ)} (h : Evolves s t) : Evolves s (Machine.applyEntries c a es t) :=
  forList (fun _ _ h => ite (ite (portTimed h) (applyEntry h)) (put h)) h

theorem setLastPlace {c : ℕ} (h : Evolves s t) : Evolves s (Machine.setLastPlace c t) := setWide h

theorem portIncoming {p : ℕ} {squelched : Bool} (h : Evolves s t) : Evolves s (Machine.portIncoming p squelched t) :=
  ite (setPortState h) h

theorem holdBusy {c : ℕ} {iv : ℕ × ℕ} (h : Evolves s t) : Evolves s (Machine.holdBusy c iv t) := setCore h

theorem hopLoad {c : ℕ} {r : HopRun} (h : Evolves s t) : Evolves s (Machine.hopLoad c r t) := by
  unfold Machine.hopLoad
  split
  · exact h
  · exact setCore <| when bump <| loadWord <| setHalf h

theorem openWindow {c : ℕ} (h : Evolves s t) : Evolves s (Machine.openWindow c t) := by
  unfold Machine.openWindow
  dsimp only
  split
  · exact h
  · exact ite h (ite (failHop <| editAdmitted h) (ite (holdBusy <| editAdmitted h) (put <| setCore h)))

theorem hopWindowOpenS {c : ℕ} (h : Evolves s t) : Evolves s (Machine.hopWindowOpenS c t) := by
  unfold Machine.hopWindowOpenS
  split
  · exact h
  · dsimp only
    split
    · exact hopLoad <| openWindow h
    · exact openWindow h

theorem hopPrelockDoneS {c : ℕ} (h : Evolves s t) : Evolves s (Machine.hopPrelockDoneS c t) := by
  unfold Machine.hopPrelockDoneS
  dsimp only
  split
  · exact ite (setCore h) h
  · exact ite (setCore h) h
  · exact h

theorem placeHalf {c k since : ℕ} {l : Option PmLine} {rot : Word} {resid : ℤ} (h : Evolves s t) : Evolves s (Machine.placeHalf c k
    since l rot resid t) :=
  when put <| setHalf h

theorem hopPlacementDoneS {c : ℕ} {rot : Word} {resid : ℤ} (h : Evolves s t) : Evolves s (Machine.hopPlacementDoneS c rot resid t) := by
  unfold Machine.hopPlacementDoneS
  split
  · exact ite (setCore <| placeHalf h) h
  · exact h

theorem failReady {c reason : ℕ} {r : HopRun} (h : Evolves s t) : Evolves s (Machine.failReady c reason r t) := by
  unfold Machine.failReady
  dsimp only
  split
  · exact ite (clearBandValid <| failOpenHop h) (failOpenHop h)
  · exact failOpenHop h

theorem openMissed {c : ℕ} (h : Evolves s t) : Evolves s (Machine.openMissed c t) := by
  unfold Machine.openMissed
  split
  · exact ite (openWindow h) h
  · exact h

theorem hopReadinessTestS {c : ℕ} (h : Evolves s t) : Evolves s (Machine.hopReadinessTestS c t) := by
  unfold Machine.hopReadinessTestS
  dsimp only
  split
  · split
    · split
      · exact failReady <| openMissed h
      · exact setCore <| openMissed h
    · exact openMissed h
  · exact openMissed h

theorem hopSucceeds {c ctx : ℕ} (h : Evolves s t) : Evolves s (Machine.hopSucceeds c ctx t) := setCore <| put <| bump h

theorem hopLands {c ctx : ℕ} {ws : List Word} {at_ : ℕ} (h : Evolves s t) : Evolves s (Machine.hopLands c ctx ws at_ t) :=
  portsLine <| refreshPorts <| closeLoops <| setLastPlace <| when put <| put <| when setHalf <| setWide <| raise <| hopSucceeds h

theorem outgoingOf {ps : List ℕ} {c k ts : ℕ} (h : Evolves s t) : Evolves s (Machine.outgoingOf ps c k ts t).2 :=
  List.foldlRecOn (motive := fun r : List (ℕ × Pattern) × State => Evolves s r.2) ps _ h fun _ hr p _ =>
    outgoing (p := p) (c := c) (k := k) (ts := ts) hr

theorem outgoingAll {c k ts : ℕ} (h : Evolves s t) : Evolves s (Machine.outgoingAll c k ts t).2 := outgoingOf h

theorem incomingAll {c k ts : ℕ} {outs : List (ℕ × Pattern)} (h : Evolves s t) : Evolves s (Machine.incomingAll c k ts outs t) :=
  forList (fun _ _ h => incoming h) h

theorem switchNow {c ctx : ℕ} {ws : List Word} {r : HopRun} (h : Evolves s t) : Evolves s (Machine.switchNow c ctx ws r t) :=
  forList (fun _ _ h => trimMotionStart h) <| hopLands <| when (fun h => forList (fun _ _ h => portIncoming h) h) <| incomingAll <|
    applyEntries <| refreshOos <| setHalf <| put <| closeWindow <| outgoingAll h

theorem switchDue {c : ℕ} (h : Evolves s t) : Evolves s (Machine.switchDue c t) := by
  unfold Machine.switchDue
  split
  · exact h
  · split
    · exact h
    · split
      · exact takeHop h
      · split
        · exact ite (failReady <| takeHop h) (ite (failReady <| takeHop h) (ite (switchNow <| takeHop h) (failHop <| closeWindow <|
            takeHop h)))
        · exact h

theorem hopSwitchS {c : ℕ} (h : Evolves s t) : Evolves s (Machine.hopSwitchS c t) := by
  unfold Machine.hopSwitchS
  dsimp only
  split
  · exact h
  · exact ite h (switchDue <| openMissed h)

theorem loadTimed {c k : ℕ} {w : DivWord} {divOf : ℕ → ℕ} (h : Evolves s t) : Evolves s (Machine.loadTimed c k w divOf t).2 := by
  unfold Machine.loadTimed
  split
  · exact refuseWord h
  · exact applyWord h

theorem divsAfter {n : ℕ} (h : Evolves s t) : Evolves s (t.divsAfter n) := by
  unfold State.divsAfter
  exact forList (fun _ _ h => (by
    split
    · exact ite (loadTimedWord h) h
    · exact h)) h

theorem hopInplaceS {c : ℕ} (h : Evolves s t) : Evolves s (Machine.hopInplaceS c t) := by
  unfold Machine.hopInplaceS
  dsimp only
  split
  · exact h
  · split
    · exact h
    · exact ite h (ite (takeHop h) (ite (failHop <| takeHop h) (ite (failHop <| takeHop h) (ite (failHop <| takeHop h) (trans (setHalf <|
        takeHop h) <| ite (portsLine <| refreshPorts <| closeLoops <| hopSucceeds <| incomingAll <| applyEntries <| when setHalf <|
        loadTimed <| outgoingOf refl) (failHop <| loadTimed <| outgoingOf refl))))))

theorem enterRelock {c : ℕ} {w : DivWord} {p : ℕ} (h : Evolves s t) : Evolves s (Machine.enterRelock c w p t) :=
  ite h (enterHold <| setPort h)

theorem leaveRelock {c : ℕ} {outs : List (ℕ × Pattern)} (h : Evolves s t) : Evolves s (Machine.leaveRelock c outs t) :=
  forList (fun _ _ h => ite (setPortState h) h) <| incomingAll <| forList (fun _ _ h => freshWord h) h

theorem leaveUnmoved {c : ℕ} (h : Evolves s t) : Evolves s (Machine.leaveUnmoved c t) := leaveRelock <| outgoingAll h

theorem relockDrops {c k : ℕ} (h : Evolves s t) : Evolves s (Machine.relockDrops c k t) := ite (commitBusy <| dropPending h) h

theorem relockStartS {c : ℕ} (h : Evolves s t) : Evolves s (Machine.relockStartS c t) := by
  unfold Machine.relockStartS
  dsimp only
  split
  · exact h
  · split
    · exact h
    · exact ite h (trans (holdBusy <| takeHop h) <| ite refl (ite (failHop refl) (ite (failHop refl) (ite (failHop refl) (refreshPorts <|
        closeLoops <| forList (fun _ _ h => enterRelock h) <| relockDrops <| put <| setCore refl)))))

theorem relockWordLoadS {c : ℕ} (h : Evolves s t) : Evolves s (Machine.relockWordLoadS c t) := by
  unfold Machine.relockWordLoadS
  split
  · split
    · exact ite h (ite (refreshPorts <| portsLine <| setCore <| when bump <| loadWord <| setHalf h) (refreshPorts <| leaveUnmoved <|
        failHop <| endRelock <| loadWord <| setHalf h))
    · exact h
  · exact h

theorem relockReleaseS {c : ℕ} {rot : Word} {resid : ℤ} (h : Evolves s t) : Evolves s (Machine.relockReleaseS c rot resid t) := by
  unfold Machine.relockReleaseS
  split
  · split
    · exact ite (trans (when placeHalf <| outgoingAll h) <| ite (hopLands <| when (fun h => forList (fun _ _ h => portIncoming h) h) <|
        bump <| leaveRelock <| applyEntries <| endRelock refl) (setCore refl)) h
    · exact h
  · exact h

theorem relockTimeoutS {c : ℕ} (h : Evolves s t) : Evolves s (Machine.relockTimeoutS c t) := by
  unfold Machine.relockTimeoutS
  split
  · exact ite (lineLost <| lockLossPolicy <| failHop <| ite (lockWithdrawn <| endRelock h) (raise <| endRelock h)) h
  · exact h

theorem bandWriteBack {c code : ℕ} {a : Admitted} (h : Evolves s t) : Evolves s (Machine.bandWriteBack c code a t) := by
  unfold Machine.bandWriteBack
  split
  · exact h
  · exact ite h (ite (put h) (ite (put <| readCtxWords h) (setWord <| setWord <| readCtxWords h)))

theorem bandStep {c k count span : ℕ} (h : Evolves s t) : Evolves s (Machine.bandStep c k count span t).1 := by
  unfold Machine.bandStep
  split
  · exact h
  · split
    · dsimp only
      split
      · exact searchFound <| withFreeCtr h
      · exact searchFailed <| withFreeCtr h
      · exact setHalf <| withFreeCtr h
    · exact h

theorem bandSearchStepS {c k count span : ℕ} (h : Evolves s t) : Evolves s (Machine.bandSearchStepS c k count span t) := by
  unfold Machine.bandSearchStepS
  have hstep : Evolves s (Machine.bandStep c k count span t).1 := bandStep h
  split
  next u res heq =>
  rw [heq] at hstep
  split
  · exact hstep
  · refine forBelow (fun n v hv => ?_) ?_
    · split
      · exact ite hv hv
      · exact hv
    · dsimp only
      split
      · exact ite (ite (bandWriteBack hstep) hstep) hstep
      · exact ite hstep (ite (bandWriteBack hstep) hstep)
      · exact hstep

theorem halfWordApplyS {c k : ℕ} (h : Evolves s t) : Evolves s (Machine.halfWordApplyS c k t) := by
  unfold Machine.halfWordApplyS
  dsimp only
  split
  · exact h
  · split
    · exact hopLoad h
    · exact ite (commitBusy <| dropPending h) (ite h (ite (applyPending h) (refreshPorts <| portsLine <| closeLoops <| applyPending h)))

theorem failoverFails {c : ℕ} {f : FailoverRun} (h : Evolves s t) : Evolves s (Machine.failoverFails c f t) := by
  unfold Machine.failoverFails
  exact refreshPorts <| forList (fun _ _ h => failoverElse h) <| (by
    split
    · exact put <| setCore h
    · exact setCore h)

theorem failoverSpareLoadS {c : ℕ} (h : Evolves s t) : Evolves s (Machine.failoverSpareLoadS c t) := by
  unfold Machine.failoverSpareLoadS
  split
  · exact ite h (ite (setCore <| loadNarrow <| when (fun h => forList (fun _ _ h => put h) h) h) (failoverFails <| loadNarrow <| when
      (fun h => forList (fun _ _ h => put h) h) h))
  · exact h

theorem failoverSearchDoneS {c : ℕ} (h : Evolves s t) : Evolves s (Machine.failoverSearchDoneS c t) := by
  unfold Machine.failoverSearchDoneS
  split
  · exact ite (failoverFails h) h
  · exact h

theorem failoverPrelockDoneS {c : ℕ} (h : Evolves s t) : Evolves s (Machine.failoverPrelockDoneS c t) := by
  unfold Machine.failoverPrelockDoneS
  split
  · exact ite (setCore h) h
  · exact h

theorem failoverPort {sp : ℕ} {onLine : Bool} {p : ℕ} (h : Evolves s t) : Evolves s (Machine.failoverPort sp onLine p t) :=
  ite (setPortState <| when put <| put h) (ite (put <| setPortState <| when put <| put h) (squelchPolicy <| put <| when put <| put h))

theorem failoverPlacedS {c : ℕ} {rot : Word} {resid : ℤ} (h : Evolves s t) : Evolves s (Machine.failoverPlacedS c rot resid t) := by
  unfold Machine.failoverPlacedS
  split
  · split
    · exact refreshPorts <| refreshPorts <| releaseSpare <| forList (fun _ _ h => failoverPort h) <| refreshOos <| (by
        split
        · exact ite (setLastPlace <| put <| setHalf <| put <| placeHalf <| setCore h) (bump <| put <| setLastPlace <| put <| setHalf <|
            put <| placeHalf <| setCore h)
        · exact setLastPlace <| put <| setHalf <| put <| placeHalf <| setCore h)
    · exact h
  · exact h

theorem setChan {k : ℕ} {x : Chan} (h : Evolves s t) : Evolves s (t.setChan k x) := withChans h

theorem tsSet {f : Fld} {k v : ℕ} (h : Evolves s t) : Evolves s (t.tsSet f k v) := put h

theorem tsBump {f : Fld} {k : ℕ} (h : Evolves s t) : Evolves s (t.tsBump f k) := bump h

theorem editItem {q n : ℕ} {f : Item → Item} (h : Evolves s t) : Evolves s (Machine.editItem q n f t) := setQueue h

theorem addWait {k : ℕ} {r : ℕ × ℕ × ℕ} (h : Evolves s t) : Evolves s (Machine.addWait k r t) := editItem h

theorem endWait {k : ℕ} {r : ℕ × ℕ × ℕ} (h : Evolves s t) : Evolves s (Machine.endWait k r t) := editItem h

theorem markStall {k : ℕ} (h : Evolves s t) : Evolves s (Machine.markStall k t) := ite (tsSet h) (raise <| setChan <| tsSet h)

theorem pushRec {k : ℕ} {r : Rec} (h : Evolves s t) : Evolves s (Machine.pushRec k r t) :=
  ite (setChan <| when markStall h) (tsBump <| setChan <| when markStall h)

theorem pushEnd {k : ℕ} {r : Rec} (h : Evolves s t) : Evolves s (Machine.pushEnd k r t) := ite (setChan h) (setChan h)

theorem afterRecord {k : ℕ} {rest : List Rec} {r : Rec} (h : Evolves s t) : Evolves s (Machine.afterRecord k rest r t) := by
  unfold Machine.afterRecord
  dsimp only
  split
  · cases r.item with
    | none => exact h
    | some i => exact endWait (t := t.setChan k _) h
  · exact h

theorem recordStoreS {k : ℕ} (h : Evolves s t) : Evolves s (Machine.recordStoreS k t) := by
  unfold Machine.recordStoreS
  split
  · exact h
  · exact ite h (ite (markStall h) (ite (afterRecord <| tsBump h) (afterRecord <| when put <| bump <| put <| withRingSeq <| freshRecord <|
      store h)))

theorem hookRingCfg {r : ℕ} {old new : Word} (h : Evolves s t) : Evolves s (Machine.hookRingCfg r old new t).2 :=
  iteSnd (put h) (iteSnd (withRingSeq <| put <| put <| put h) h)

theorem ringRelS {r : ℕ} {v : Word} (h : Evolves s t) : Evolves s (Machine.ringRelS r v t) := ite (put h) (put <| put h)

theorem skewAgain {k : ℕ} (h : Evolves s t) : Evolves s (Machine.skewAgain k t) := ite (setPort h) h

theorem cdState {k v : ℕ} (h : Evolves s t) : Evolves s (Machine.cdState k v t) := put h

theorem cdInstall {k : ℕ} {t1 : Option (List ℕ)} (h : Evolves s t) : Evolves s (Machine.cdInstall k t1 t) :=
  ite (setPort <| tsSet <| put <| cdState <| setChan h) (tsSet <| put <| cdState <| setChan h)

theorem reloadTable {k : ℕ} {t1 : Option (List ℕ)} (h : Evolves s t) : Evolves s (Machine.reloadTable k t1 t) :=
  ite h (ite (setChan h) (cdInstall h))

theorem cdInstallDue {k : ℕ} (h : Evolves s t) : Evolves s (Machine.cdInstallDue k t) := by
  unfold Machine.cdInstallDue
  split
  · exact ite h (cdInstall h)
  · exact h

theorem measEnd {k code endTs : ℕ} (h : Evolves s t) : Evolves s (Machine.measEnd k code endTs t) := by
  unfold Machine.measEnd
  split
  · exact h
  · exact ite (pushEnd <| cdInstallDue <| skewAgain <| setChan <| iteSnd (withFreeCtr <| tsSet <| tsSet <| tsSet h) (tsSet <| tsSet <|
      tsSet h)) (cdInstallDue <| skewAgain <| setChan <| iteSnd (withFreeCtr <| tsSet <| tsSet <| tsSet h) (tsSet <| tsSet <| tsSet h))

theorem measDoneS {k : ℕ} (h : Evolves s t) : Evolves s (Machine.measDoneS k t) := by
  unfold Machine.measDoneS
  split
  · exact h
  · exact ite h (raise <| tsSet <| ite (setChan h) (store <| setChan h))

theorem sampleDone {k : ℕ} {m : Meas} {stamp : ℕ} {r : Rec} (h : Evolves s t) : Evolves s (Machine.sampleDone k m stamp r t) :=
  ite (measEnd <| when pushRec <| tsSet <| setChan h) (ite (measEnd <| when pushRec <| tsSet <| setChan h) (when pushRec <| tsSet <|
    setChan h))

theorem takeSample {k : ℕ} {m : Meas} {x : ℤ} {un : Bool} {kind stamp : ℕ} (h : Evolves s t) : Evolves s (Machine.takeSample k m x un
    kind stamp t) :=
  ite (tsBump <| setChan h) (sampleDone <| when tsBump h)

theorem takePair {k : ℕ} {m : Meas} {tStart tStop stamp : ℕ} (h : Evolves s t) : Evolves s (Machine.takePair k m tStart tStop stamp t) :=
  takeSample h

theorem startEdge {k : ℕ} {m : Meas} {t1 : ℕ} (h : Evolves s t) : Evolves s (Machine.startEdge k m t1 t) := by
  unfold Machine.startEdge
  split
  · exact ite (takePair h) (tsBump <| setChan h)
  · exact setChan <| when tsBump h

theorem stopEdge {k : ℕ} {m : Meas} {t1 : ℕ} (h : Evolves s t) : Evolves s (Machine.stopEdge k m t1 t) := by
  unfold Machine.stopEdge
  split
  · exact takePair h
  · exact ite (tsBump <| setChan h) (setChan <| when tsBump h)

theorem useEdge {k : ℕ} {own : Bool} {e : Edge} (h : Evolves s t) : Evolves s (Machine.useEdge k own e t) := by
  unfold Machine.useEdge
  split
  · exact h
  · dsimp only
    split
    · exact setChan h
    · split
      · exact ite (sampleDone <| setChan h) (setChan h)
      · split
        · exact ite (ite (setChan <| setChan h) (takeSample <| setChan h)) (setChan h)
        · split
          · split
            · exact startEdge <| stopEdge <| setChan <| setChan h
            · exact stopEdge <| setChan <| setChan h
          · exact ite (startEdge <| setChan <| setChan h) (ite (stopEdge <| setChan <| setChan h) (setChan <| setChan h))

theorem takeOne {k : ℕ} (h : Evolves s t) : Evolves s (Machine.takeOne k t) := by
  unfold Machine.takeOne
  dsimp only
  split
  · exact h
  · exact useEdge <| setChan h
  · exact useEdge <| setChan h
  · exact ite (useEdge <| setChan h) (useEdge <| setChan h)

theorem sampleTakeS {k : ℕ} (h : Evolves s t) : Evolves s (Machine.sampleTakeS k t) := ite (takeOne h) h

theorem drain {k n : ℕ} (h : Evolves s t) : Evolves s (Machine.drain k n t) := by
  induction n generalizing t with
  | zero => exact h
  | succ n ih => exact ite (ih (takeOne h)) h

theorem takeThose {k : ℕ} {p : Edge → Bool} {f : State → State} (hf : ∀ {t}, Evolves s t → Evolves s (f t)) (h : Evolves s t) :
    Evolves s (Machine.takeThose k p f t) := setChan <| hf <| drain <| setChan h

theorem endNow {k code endTs : ℕ} (h : Evolves s t) : Evolves s (Machine.endNow k code endTs t) :=
  ite (takeThose id h) (ite (takeThose id h) (takeThose measEnd h))

theorem endAt {k code endTs : ℕ} (h : Evolves s t) : Evolves s (Machine.endAt k code endTs t) := by
  unfold Machine.endAt
  split
  · exact h
  · exact endNow h

theorem cdLeave {k : ℕ} (h : Evolves s t) : Evolves s (Machine.cdLeave k t) := skewAgain <| tsSet <| setChan h

theorem cdFail {k reason : ℕ} {requested : Bool} (h : Evolves s t) : Evolves s (Machine.cdFail k reason requested t) :=
  refreshAllConv <| cdState <| calFail <| cdLeave h

theorem cdAbandon {k : ℕ} (h : Evolves s t) : Evolves s (Machine.cdAbandon k t) := by
  unfold Machine.cdAbandon
  split
  · exact ite (cdFail h) (refreshAllConv <| cdState <| cdLeave h)
  · exact h

theorem refuseArm {k bit : ℕ} (h : Evolves s t) : Evolves s (Machine.refuseArm k bit t) := logEvent <| raise <| tsSet <| put h

theorem endKnown {k : ℕ} (h : Evolves s t) : Evolves s (Machine.endKnown k t) := by
  unfold Machine.endKnown
  split
  · exact h
  · split
    · exact endAt h
    · exact endAt h
    · exact h

theorem armChan {k w n tmo ta : ℕ} {item : Option (ℕ × ℕ × ℕ)} (h : Evolves s t) : Evolves s (Machine.armChan k w n tmo ta item t).2 := by
  unfold Machine.armChan
  split
  · exact refuseArm h
  · exact skewAgain <| tsSet <| tsSet <| tsSet <| tsSet <| setChan <| when endKnown h

theorem hookTsCmd {k : ℕ} {ones new : Word} (h : Evolves s t) : Evolves s (Machine.hookTsCmd k ones new t).2 := setChan h

theorem regArm {k : ℕ} (h : Evolves s t) : Evolves s (Machine.regArm k t) := by
  unfold Machine.regArm
  split
  · exact h
  · exact ite (discardFrozen <| tsSet <| setChan h) (ite (logEvent <| tsSet <| tsSet <| tsSet <| setChan h) (armChan <| ite (cdAbandon <|
      tsSet <| setChan h) (tsSet <| setChan h)))

theorem regDisarm {k : ℕ} (h : Evolves s t) : Evolves s (Machine.regDisarm k t) := by
  unfold Machine.regDisarm
  split
  · dsimp only
    split
    · exact tsSet <| setChan h
    · exact ite (discardFrozen <| tsSet <| setChan h) (setChan <| tsSet <| setChan h)
  · exact h

theorem chanBoundary (h : Evolves s t) : Evolves s (Machine.chanBoundary t) := forList (fun _ _ h => regDisarm <| regArm <| endKnown h) h

theorem measTimeoutS {k : ℕ} (h : Evolves s t) : Evolves s (Machine.measTimeoutS k t) := by
  unfold Machine.measTimeoutS
  split
  · exact ite (endAt h) h
  · exact h

theorem endTimebase {n : ℕ} (h : Evolves s t) : Evolves s (Machine.endTimebase n t) := forList (fun _ _ h => endAt h) h

theorem gateEdge {k stamp : ℕ} {fall : Bool} (h : Evolves s t) : Evolves s (Machine.gateEdge k stamp fall t) := by
  unfold Machine.gateEdge
  split
  · exact h
  · split
    · exact h
    · dsimp only
      split
      · exact ite (tsSet <| setChan h) h
      · exact ite (setChan h) h

theorem acceptEdge {k : ℕ} {fall : Bool} {pos stamp : ℕ} (h : Evolves s t) : Evolves s (Machine.acceptEdge k fall pos stamp t) :=
  forList (fun _ _ h => gateEdge h) <| forList (fun _ _ h => setChan h) <| when (fun h => raise <| setWide h) <| setChan h

theorem overrunEdge {k : ℕ} {full : Bool} (h : Evolves s t) : Evolves s (Machine.overrunEdge k full t) :=
  setChan <| when tsSet <| tsBump h

theorem teaselEdgeS {k : ℕ} {fall : Bool} {frac : ℕ} (h : Evolves s t) : Evolves s (Machine.teaselEdgeS k fall frac t) :=
  ite h (ite (tsBump h) (ite (overrunEdge h) (ite (overrunEdge h) (acceptEdge h))))

theorem hookTsIn {k : ℕ} {new : Word} (h : Evolves s t) : Evolves s (Machine.hookTsIn k new t).2 := iteSnd (tsSet <| tsSet h) h

theorem judged {a : Action} (h : Evolves s t) : Evolves s (Machine.judged a t) := editItem h

theorem actionSendS {n q : ℕ} (h : Evolves s t) : Evolves s (Machine.actionSendS n q t) := by
  unfold Machine.actionSendS
  split
  · exact h
  · exact ite h (ite (judged <| editItem <| withRel h) (ite h (setChip <| withRel h)))

theorem setMark {n q v : ℕ} (h : Evolves s t) : Evolves s (Machine.setMark n q v t) := setChip h

theorem abortAt {n : ℕ} {a : Action} {status : ℕ} (h : Evolves s t) : Evolves s (Machine.abortAt n a status t) :=
  judged <| withVerdicts <| setChip <| setMark h

theorem lateReport {n : ℕ} (h : Evolves s t) : Evolves s (Machine.lateReport n t) := setWide <| raise <| put h

theorem admitAction {n : ℕ} {b : Admitted} (h : Evolves s t) : Evolves s (Machine.admitAction n b t) := by
  unfold Machine.admitAction
  dsimp only
  split
  · exact cdAbandon <| ite (addWait <| editItem <| judged <| refreshFifo <| setChip <| setMark h) (editItem <| judged <| refreshFifo <|
      setChip <| setMark h)
  · exact editItem <| judged <| refreshFifo <| setChip <| setMark h

theorem arriveHop {n c : ℕ} {ws : List Word} {a : Action} (h : Evolves s t) : Evolves s (Machine.arriveHop n c ws a t) :=
  ite (failHop <| abortAt <| lateReport h) (ite (failHop <| abortAt <| when lateReport h) (admitAction <| when editItem <| when
    lateReport h))

theorem arriveOther {n : ℕ} {a : Action} (h : Evolves s t) : Evolves s (Machine.arriveOther n a t) :=
  ite (admitAction h) (ite (admitAction <| editItem <| lateReport h) (abortAt <| lateReport h))

theorem actionArriveS {n : ℕ} (h : Evolves s t) : Evolves s (Machine.actionArriveS n t) := by
  unfold Machine.actionArriveS
  split
  · exact h
  · split
    · exact h
    · dsimp only
      split
      · exact judged <| setChip h
      · split
        · exact judged <| setMark <| setChip h
        · split
          · exact raise <| abortAt <| setChip h
          · split
            · exact arriveHop <| setChip h
            · exact arriveOther <| setChip h

theorem abortVerdictArriveS (h : Evolves s t) : Evolves s (Machine.abortVerdictArriveS t) := by
  unfold Machine.abortVerdictArriveS
  split
  · exact h
  · exact ite h (editItem <| withRelVerdicts h)

theorem frozenAction {a : Admitted} (h : Evolves s t) : Evolves s (Machine.frozenAction a t) := by
  unfold Machine.frozenAction
  split
  · exact endWait <| discardFrozen h
  · exact discardFrozen h

theorem applyNext {n : ℕ} {want : ActKind → Bool} {f : Admitted → State → State} (hf : ∀ a {t}, Evolves s t → Evolves s (f a t))
    (h : Evolves s t) : Evolves s (Machine.applyNext n want f t) := by
  unfold Machine.applyNext
  split
  · exact ite (ite (frozenAction <| dropAdmitted h) (hf _ <| dropAdmitted h)) h
  · exact h

theorem phaseApplyS {n : ℕ} (h : Evolves s t) : Evolves s (Machine.phaseApplyS n t) := by
  unfold Machine.phaseApplyS
  exact applyNext (fun _ _ h => (by
    split
    · exact loadTimedWord <| portTimed h
    · exact h)) h

theorem portsetApplyS {n : ℕ} (h : Evolves s t) : Evolves s (Machine.portsetApplyS n t) := by
  unfold Machine.portsetApplyS
  exact applyNext (fun _ _ h => (by
    split
    · exact when setPort <| loadTimedWord <| portTimed h
    · exact h)) h

theorem markApplyS {n : ℕ} (h : Evolves s t) : Evolves s (Machine.markApplyS n t) := by
  unfold Machine.markApplyS
  exact applyNext (fun _ _ h => (by
    split
    · exact markPort <| portTimed h
    · exact h)) h

theorem armApplyS {n : ℕ} (h : Evolves s t) : Evolves s (Machine.armApplyS n t) := by
  unfold Machine.armApplyS
  exact applyNext (fun _ _ h => (by
    split
    · exact ite (armChan h) (endWait <| armChan h)
    · exact h)) h

theorem disarmApplyS {n : ℕ} (h : Evolves s t) : Evolves s (Machine.disarmApplyS n t) := by
  unfold Machine.disarmApplyS
  exact applyNext (fun _ _ h => (by
    split
    · exact endAt h
    · exact h)) h

theorem setLinkState {l st : ℕ} (h : Evolves s t) : Evolves s (Machine.setLinkState l st t) := put h

theorem sendFrom {l type dst src : ℕ} {p : List Byte} (h : Evolves s t) : Evolves s (Machine.sendFrom l type dst src p t) :=
  ite h (ite (emit <| setLnk h) (emit h))

theorem sendFrame {l type dst : ℕ} {p : List Byte} (h : Evolves s t) : Evolves s (Machine.sendFrame l type dst p t) := sendFrom h

theorem sendTop {type : ℕ} {p : List Byte} (h : Evolves s t) : Evolves s (Machine.sendTop type p t) := by
  unfold Machine.sendTop
  split
  · exact sendFrame h
  · exact h

theorem sendWorker {w type : ℕ} {p : List Byte} (h : Evolves s t) : Evolves s (Machine.sendWorker w type p t) := by
  unfold Machine.sendWorker
  split
  · exact sendFrame h
  · exact h

theorem setMm {q v : ℕ} (h : Evolves s t) : Evolves s (Machine.setMm q v t) := store h

theorem sendDone {r : Report} (h : Evolves s t) : Evolves s (Machine.sendDone r t) := when sendTop h

theorem placeReport {q mseq w1 w2 horizon : ℕ} (h : Evolves s t) : Evolves s (Machine.placeReport q mseq w1 w2 horizon t) :=
  sendDone <| store <| withRy h

theorem mirrorItem {i : Item} (h : Evolves s t) : Evolves s (Machine.mirrorItem i t) := forList (fun _ _ h => writeParity h) <| store h

theorem rewriteItem {q n : ℕ} {f : Item → Item} (h : Evolves s t) : Evolves s (Machine.rewriteItem q n f t) := by
  unfold Machine.rewriteItem
  dsimp only
  split
  · exact mirrorItem <| editItem h
  · exact editItem h

theorem checkStarve {q : ℕ} (h : Evolves s t) : Evolves s (Machine.checkStarve q t) := ite (raise <| put <| setQueue h) h

theorem checkStarveAll (h : Evolves s t) : Evolves s (Machine.checkStarveAll t) := forList (fun _ _ h => checkStarve h) h

theorem acceptItem {q : ℕ} {late cmpl : Bool} {body : List Dword} (h : Evolves s t) : Evolves s (Machine.acceptItem q late cmpl body t) :=
  checkStarve <| setWide <| mirrorItem <| bump <| setQueue <| withFreeCtr h

theorem submitS {q cls size : ℕ} {late : Bool} {body : List Dword} (h : Evolves s t) : Evolves s (Machine.submitS q cls size late body
    t).2.2 :=
  iteSnd2 h (iteSnd2 h (iteSnd2 h (iteSnd2 h (iteSnd2 h (iteSnd2 (put h) (acceptItem h))))))

theorem submitBytes {q cls : ℕ} {bs : List Byte} (h : Evolves s t) : Evolves s (Machine.submitBytes q cls bs t).2.2 := submitS h

theorem freeItem {q n : ℕ} (h : Evolves s t) : Evolves s (Machine.freeItem q n t) := put <| setQueue h

theorem itemCompleteS {q n : ℕ} (h : Evolves s t) : Evolves s (Machine.itemCompleteS q n t) := by
  unfold Machine.itemCompleteS
  split
  · exact h
  · next i _ =>
      have hfree : Evolves s ((Machine.freeItem q n t).put QD_CNT.LAST_ST i.status.1 q) := put <| freeItem h
      refine ite h <| ite h ?_
      dsimp only
      cases i.mseq with
      | none => exact ite hfree <| ite (acceptItem hfree) (raise <| bump hfree)
      | some k => exact trans (placeReport hfree) <| ite refl <| ite (acceptItem refl) (raise <| bump refl)

theorem readEntries {i : Item} (h : Evolves s t) : Evolves s (Machine.readEntries i t) := sramMeets h

theorem takeS {q cls : ℕ} (h : Evolves s t) : Evolves s (Machine.takeS q cls t).2.2 := by
  unfold Machine.takeS
  split
  · exact h
  · split
    · exact h
    · split
      · exact h
      · exact itemCompleteS <| editItem <| readEntries h

theorem setEngState {e st : ℕ} (h : Evolves s t) : Evolves s (Machine.setEngState e st t) := put <| setEng rfl <| setWide h

theorem queueOpens {q : ℕ} (h : Evolves s t) : Evolves s (Machine.queueOpens q t) := setQueue h

theorem engineFree {e : ℕ} (h : Evolves s t) : Evolves s (Machine.engineFree e t) := by
  unfold Machine.engineFree
  exact checkStarveAll <| setEngState <| put <| setEngFree rfl <| (by
    split
    · exact queueOpens h
    · exact h)

theorem coldHeld_readEntries (i : Item) (t : State) : (Machine.readEntries i t).coldHeld = t.coldHeld := by
  obtain ⟨⟨_, _, _, he⟩, -⟩ := readEntries_poolOnly i t
  rw [he]
  rfl

theorem coldHeld_editItem {q n : ℕ} {f : Item → Item} (t : State) : (Machine.editItem q n f t).coldHeld = t.coldHeld := rfl

/-- A control die that works is in no cold reset. -/
theorem coldHeld_of_not_cdDown {t : State} (h : (!t.cdDown) = true) : t.coldHeld = false := by
  simp only [State.cdDown, State.cdGone, Bool.not_or, Bool.and_eq_true, Bool.not_eq_true'] at h
  exact h.1.1

theorem giveItem {q e : ℕ} {i : Item} (hup : t.coldHeld = false) (h : Evolves s t) : Evolves s (Machine.giveItem q e i t) := by
  have hread : Evolves s (Machine.editItem q i.seq (fun i => { i with st := .held e }) (Machine.readEntries i t)) :=
    editItem <| readEntries h
  have hup' := (coldHeld_editItem (q := q) (n := i.seq) (f := fun i => { i with st := .held e }) _).trans
    ((coldHeld_readEntries i t).trans hup)
  unfold Machine.giveItem
  generalize Machine.editItem q i.seq (fun i => { i with st := .held e }) (Machine.readEntries i t) = u at *
  exact setEngState <| put <| put <| setEngUp hup' <| queueOpens <| setQueue hread

theorem dispatchS {q e : ℕ} (h : Evolves s t) : Evolves s (Machine.dispatchS q e t) := by
  unfold Machine.dispatchS
  split
  · split
    · next hc =>
        simp only [Bool.and_eq_true] at hc
        exact giveItem (coldHeld_of_not_cdDown hc.1.1.1) h
    · exact h
  · exact h

theorem stealS {q e : ℕ} (h : Evolves s t) : Evolves s (Machine.stealS q e t) := by
  unfold Machine.stealS
  split
  · split
    · next hc =>
        simp only [Bool.and_eq_true] at hc
        exact giveItem (coldHeld_of_not_cdDown hc.1.1.1.1.1) h
    · exact h
  · exact h

theorem releaseStaged {e : ℕ} (h : Evolves s t) : Evolves s (Machine.releaseStaged e t) := by
  unfold Machine.releaseStaged
  dsimp only
  split
  · exact h
  · split
    · exact ite (setEng rfl h) (withRel <| forList (fun _ _ h => setChip h) <| editItem <| setEng rfl h)
    · exact setEng rfl h

theorem endHandler {e code : ℕ} {release : Bool} (h : Evolves s t) : Evolves s (Machine.endHandler e code release t) := by
  unfold Machine.endHandler
  split
  · exact h
  · exact engineFree <| bump <| editItem <| ite (releaseStaged h) h

theorem returnItem {q n : ℕ} {f : Item → Item} (h : Evolves s t) : Evolves s (Machine.returnItem q n f t) := by
  unfold Machine.returnItem
  split
  · exact h
  · exact mirrorItem <| setQueue h

theorem quarantineS {q n fault e : ℕ} (h : Evolves s t) : Evolves s (Machine.quarantineS q n fault e t) := by
  unfold Machine.quarantineS
  split
  · exact h
  · exact when put <| raise <| bump <| acceptItem <| freeItem <| readEntries h

theorem faultSeen {e q code : ℕ} (h : Evolves s t) : Evolves s (Machine.faultSeen e q code t) := raise <| put <| put <| bump <| bump h

theorem handlerFault {e code : ℕ} (h : Evolves s t) : Evolves s (Machine.handlerFault e code t) := by
  unfold Machine.handlerFault
  split
  · exact h
  · exact engineFree <| faultSeen <| bump <| ite (returnItem h) (ite (quarantineS h) (raise <| put <| put <| returnItem h))

theorem quarantineDeferredMoveS {q n : ℕ} (h : Evolves s t) : Evolves s (Machine.quarantineDeferredMoveS q n t) := by
  unfold Machine.quarantineDeferredMoveS
  split
  · exact ite (quarantineS h) h
  · exact h

theorem redispatch {e : ℕ} (h : Evolves s t) : Evolves s (Machine.redispatch e t) := by
  unfold Machine.redispatch
  split
  · exact h
  · exact bump <| returnItem h

theorem engWipe {e : ℕ} (h : Evolves s t) : Evolves s (Machine.engWipe e t) := put <| setEngFree rfl <| redispatch h

theorem markEngine {e : ℕ} {b : Bool} (h : Evolves s t) : Evolves s (Machine.markEngine e b t) := put h

theorem failsUnseen {code i : ℕ} (h : Evolves s t) : Evolves s (Machine.failsUnseen code i t) := ite h (withLossFaults h)

theorem engFailS {e : ℕ} (h : Evolves s t) : Evolves s (Machine.engFailS e t) :=
  ite h (ite (failsUnseen h) (checkStarveAll <| faultReport <| raise <| markEngine <| put <| setEngState <| engWipe h))

theorem engReinitS {e : ℕ} (h : Evolves s t) : Evolves s (Machine.engReinitS e t) :=
  checkStarveAll <| refreshLevel <| put <| setEng rfl <| setEngState <| markEngine <| engWipe <| withFreeCtr h

theorem engReturn {e : ℕ} (h : Evolves s t) : Evolves s (Machine.engReturn e t) := checkStarveAll <| setEngState <| put <| setEng rfl h

theorem engReturns (h : Evolves s t) : Evolves s (Machine.engReturns t) := forList (fun _ _ h => engReturn h) h

theorem engineWdogS {e : ℕ} (h : Evolves s t) : Evolves s (Machine.engineWdogS e t) := ite (handlerFault h) h

theorem yieldEligibleS {q n : ℕ} (h : Evolves s t) : Evolves s (Machine.yieldEligibleS q n t) := by
  unfold Machine.yieldEligibleS
  split
  · exact ite (checkStarve <| editItem h) h
  · exact h

theorem qmLoadUpdateS {pct : ℕ} (h : Evolves s t) : Evolves s (Machine.qmLoadUpdateS pct t) := ite (setTimer <| put <| withLoadMark h) h

theorem engCfgWritten {e : ℕ} (h : Evolves s t) : Evolves s (Machine.engCfgWritten e t) :=
  checkStarveAll <| ite (setEngState h) (ite (setEngState h) h)

theorem descErr {q code : ℕ} (h : Evolves s t) : Evolves s (Machine.descErr q code t) := logEvent <| put <| ite h (put h)

theorem roundLen {q : ℕ} {v : Word} (h : Evolves s t) : Evolves s (Machine.roundLen q v t) := ite h (put <| put h)

theorem enableQueue {q : ℕ} (h : Evolves s t) : Evolves s (Machine.enableQueue q t) :=
  forBelow (fun _ _ h => setChip <| setMark h) <| put <| setQueue <| withFreeCtr h

theorem hookQdCtrl {q : ℕ} {old new : Word} (h : Evolves s t) : Evolves s (Machine.hookQdCtrl q old new t).2 := by
  have hresume {b : Bool} : Evolves s (t.when b fun s => Machine.queueOpens q (s.put QD_STAT.STOPPED 0 q)) :=
    when (fun h => queueOpens <| put h) h
  unfold Machine.hookQdCtrl
  dsimp only
  refine iteSnd (ite ?_ (descErr ?_)) ?_
  all_goals
    refine iteSnd (when descErr <| when descErr hresume) <| iteSnd ?_ <| iteSnd ?_ hresume
    · exact trans (when descErr hresume) <| iteSnd (iteSnd (descErr refl) (put <| setQueue refl)) refl
    · split
      · exact descErr <| roundLen hresume
      · exact enableQueue <| roundLen hresume

theorem hookQdLen {q : ℕ} {old new : Word} (h : Evolves s t) : Evolves s (Machine.hookQdLen q old new t).2 := iteSnd (descErr h) h

theorem setGr {e k : ℕ} {v : Dword} (h : Evolves s t) : Evolves s (Machine.setGr e k v t) := ite h (setEng rfl h)

theorem setTr {e k : ℕ} {v : BitVec 80} (h : Evolves s t) : Evolves s (Machine.setTr e k v t) := setEng rfl h

theorem setPc {e a : ℕ} (h : Evolves s t) : Evolves s (Machine.setPc e a t) := put h

theorem xipTouch {off : ℕ} (h : Evolves s t) : Evolves s (Machine.xipTouch off t) := by
  unfold Machine.xipTouch
  dsimp only
  split
  · exact withXip h
  · exact h

theorem xipMiss {e off : ℕ} {load : Bool} (h : Evolves s t) : Evolves s (Machine.xipMiss e off load t) :=
  ite (setEng rfl h) (withXip <| setEng rfl h)

theorem dropLines {e : ℕ} (h : Evolves s t) : Evolves s (Machine.dropLines e t) := by
  unfold Machine.dropLines
  split
  · exact h
  · exact setEng rfl h

theorem fetchTouch {a : ℕ} (h : Evolves s t) : Evolves s (Machine.fetchTouch a t) := ite (sramFix h) (xipTouch h)

theorem fetchMeets {a c : ℕ} (h : Evolves s t) : Evolves s (Machine.fetchMeets a c t) := ite (sramMeets h) h

theorem runCelil {e : ℕ} {ws : List Word} {body : State → State} (hf : ∀ {t}, Evolves s t → Evolves s (body t)) (h : Evolves s t) :
    Evolves s (Machine.runCelil e ws body t) := by
  unfold Machine.runCelil
  refine ite h ?_
  dsimp only
  split
  · exact handlerFault <| fetchMeets h
  · exact xipMiss h
  · split
    · exact ite (dropLines <| hf <| fetchTouch h) h
    · refine ite ?_ h
      split
      · exact handlerFault <| fetchMeets h
      · exact xipMiss h
      · exact ite (dropLines <| hf <| fetchTouch <| fetchTouch h) h
    · exact h

theorem advance {e n : ℕ} (h : Evolves s t) : Evolves s (Machine.advance e n t) := setPc h

theorem writeNext {e d : ℕ} {v : Dword} (h : Evolves s t) : Evolves s (Machine.writeNext e d v t) := advance <| setGr h

theorem jumpTo {e target : ℕ} {link : Option (ℕ × ℕ)} (h : Evolves s t) : Evolves s (Machine.jumpTo e target link t) := by
  unfold Machine.jumpTo
  split
  · exact setPc <| (by
      split
      · exact setGr h
      · exact h)
  · exact handlerFault h

theorem setScratch {e off : ℕ} {bs : List Byte} (h : Evolves s t) : Evolves s (Machine.setScratch e off bs t) := setEng rfl h

theorem putNow {e : ℕ} {d b q : GReg} (h : Evolves s t) : Evolves s (Machine.putNow e d b q t) := by
  have result {u : State} {c : Prop} [Decidable c] {q n : ℕ} {f : Item → Item} {v : Dword} (h : Evolves s u) :
      Evolves s (Machine.writeNext e d v (if c then Machine.rewriteItem q n f u else u)) := writeNext <| ite (rewriteItem h) h
  unfold Machine.putNow
  refine ite (handlerFault h) <| ite (handlerFault h) <| ite (handlerFault h) <| ite (handlerFault h) ?_
  dsimp only
  split
  · exact ite (writeNext <| setEng rfl h) (result <| submitBytes <| setEng rfl h)
  · exact h

theorem park {e : ℕ} {w : EngWait} (h : Evolves s t) : Evolves s (Machine.park e w t) := setEngState <| setEng rfl h

theorem resume {e : ℕ} (h : Evolves s t) : Evolves s (Machine.resume e t) := advance <| setEngState <| setEng rfl h

theorem postAction {e : ℕ} {kind : ActKind} {t1 : BitVec 80} (h : Evolves s t) : Evolves s (Machine.postAction e kind t1 t) := by
  unfold Machine.postAction
  split
  · exact advance <| setEng rfl h
  · exact h

theorem actionGate {e : ℕ} {i : Instr} {post : State → State} (hf : ∀ {t}, Evolves s t → Evolves s (post t)) (h : Evolves s t) :
    Evolves s (Machine.actionGate e i post t) := ite (handlerFault h) (ite (setEngState <| setEng rfl h) (hf h))

theorem hopNow {e : ℕ} {a b : GReg} {t1 : TReg} (h : Evolves s t) : Evolves s (Machine.hopNow e a b t1 t) :=
  postAction <| store <| sramFix h

theorem hopOp {e : EngineIx} {a b : GReg} {t1 : TReg} (h : Evolves s t) : Evolves s (Machine.hopOp e a b t1 t) :=
  ite (handlerFault h) (ite (handlerFault <| ite h (sramMeets h)) (ite (handlerFault h) (actionGate hopNow h)))

theorem timedOp {e : EngineIx} {i : Instr} {target : GReg} {t1 : TReg} {top : ℕ} {kind : ℕ → State → ActKind} (h : Evolves s t) :
    Evolves s (Machine.timedOp e i target t1 top kind t) :=
  ite (handlerFault h) (actionGate postAction h)

theorem phaseOp {e : EngineIx} {a b : GReg} {t1 : TReg} (h : Evolves s t) : Evolves s (Machine.phaseOp e a b t1 t) := timedOp h

theorem portsetOp {e : EngineIx} {a b c : GReg} {t1 : TReg} (h : Evolves s t) : Evolves s (Machine.portsetOp e a b c t1 t) :=
  ite (handlerFault h) (ite (handlerFault h) (timedOp h))

theorem markOp {e : EngineIx} {a b : GReg} {t1 : TReg} (h : Evolves s t) : Evolves s (Machine.markOp e a b t1 t) := timedOp h

theorem armOp {e : EngineIx} {a b c : GReg} {t1 : TReg} (h : Evolves s t) : Evolves s (Machine.armOp e a b c t1 t) := timedOp h

theorem disarmOp {e : EngineIx} {a : GReg} {t1 : TReg} (h : Evolves s t) : Evolves s (Machine.disarmOp e a t1 t) := timedOp h

theorem actionOf {i : Instr} (h : Evolves s t) : Evolves s (Machine.actionOf i t) := by
  unfold Machine.actionOf
  split
  · exact hopOp h
  · exact phaseOp h
  · exact portsetOp h
  · exact markOp h
  · exact armOp h
  · exact disarmOp h
  · exact h

theorem standbyTrim {c k : ℕ} (h : Evolves s t) : Evolves s (Machine.standbyTrim c k t) := ite (trimBoundary h) (trimRefresh h)

theorem trimFail {c k : ℕ} {dtc : Bool} {reason : ℕ} (h : Evolves s t) : Evolves s (Machine.trimFail c k dtc reason t) :=
  standbyTrim <| calFail <| setHalf h

theorem trimEnd {c k : ℕ} {dtc : Bool} (h : Evolves s t) : Evolves s (Machine.trimEnd c k dtc t) :=
  standbyTrim <| setHalf <| when requestEnd h

theorem trimCommit {c k : ℕ} {dtc : Bool} (h : Evolves s t) : Evolves s (Machine.trimCommit c k dtc t) :=
  standbyTrim <| calCommit <| setHalf h

theorem blockCounted {c k : ℕ} {dtc : Bool} {r : TrimRun} {w : TrimSet} {rail small : Bool} {bins : ℕ} (h : Evolves s t) : Evolves s
    (Machine.blockCounted c k dtc r w rail small bins t) :=
  ite (trimFail <| setHalf h) (ite (trimCommit <| setHalf h) (ite (trimFail <| setHalf h) (standbyTrim <| setHalf h)))

theorem blockEnd {c k : ℕ} {dtc : Bool} {f : TrimRun → State → State} (hf : ∀ r {t}, Evolves s t → Evolves s (f r t))
    (h : Evolves s t) : Evolves s (Machine.blockEnd c k dtc f t) := by
  unfold Machine.blockEnd
  dsimp only
  split
  · exact h
  · exact ite h <| ite (trimEnd h) <| ite (ite (trimFail h) h) <| ite h <| ite h <| ite (setHalf h) (hf _ h)

theorem lmsBlockEndS {c k : ℕ} {move : ℤ} (h : Evolves s t) : Evolves s (Machine.lmsBlockEndS c k move t) :=
  blockEnd (fun _ _ h => blockCounted h) h

theorem dtcBlockEndS {c k : ℕ} {move : ℤ} {bins : List (ℕ × ℤ)} (h : Evolves s t) : Evolves s (Machine.dtcBlockEndS c k move bins t) :=
  blockEnd (fun _ _ h => blockCounted h) h

theorem trimBoundaryS {c k : ℕ} (h : Evolves s t) : Evolves s (Machine.trimBoundaryS c k t) :=
  ite h (ite (standbyTrim h) (ite (forList (fun _ _ h => trimMotionStart h) <| trimBoundary h) h))

theorem cdSyncTestS {k codes most : ℕ} (h : Evolves s t) : Evolves s (Machine.cdSyncTestS k codes most t) := by
  unfold Machine.cdSyncTestS
  split
  · exact ite h (ite (cdFail h) (setChan h))
  · exact h

theorem cdAgreementTestS {k : ℕ} {a b : List ℕ} (h : Evolves s t) : Evolves s (Machine.cdAgreementTestS k a b t) := by
  unfold Machine.cdAgreementTestS
  split
  · exact ite h (ite (refreshAllConv <| cdState <| requestEnd <| cdLeave h) (ite (trans (setChan <| cdLeave h) <| trans (put <| cdState
      refl) <| refreshAllConv <| calCommit <| ite (setPort <| ite refl (tsSet refl)) (ite refl (tsSet refl))) h))
  · exact h

theorem cdInputCheck {k : ℕ} (h : Evolves s t) : Evolves s (Machine.cdInputCheck k t) := by
  unfold Machine.cdInputCheck
  split
  · exact ite (cdFail h) h
  · exact h

theorem cdTimeoutS {k : ℕ} (h : Evolves s t) : Evolves s (Machine.cdTimeoutS k t) := by
  unfold Machine.cdTimeoutS
  split
  · exact ite (cdFail h) h
  · exact h

theorem oscTurn {k : ℕ} (h : Evolves s t) : Evolves s (Machine.oscTurn k t) :=
  forList (fun _ _ h => refreshAllConv <| cdState <| cdLeave h) h

theorem cdStart {k : ℕ} {requested : Bool} (h : Evolves s t) : Evolves s (Machine.cdStart k requested t) :=
  ite (cdFail h) (refreshAllConv <| tsSet <| cdState <| setChan <| when oscTurn h)

theorem refreshMoving (h : Evolves s t) : Evolves s (Machine.refreshMoving t) := put h

theorem trimIfStatic {p : ℕ} (h : Evolves s t) : Evolves s (Machine.trimIfStatic p t) := ite h (trimMotionStart h)

theorem skewCorrect {p : ℕ} {err : ℤ} (h : Evolves s t) : Evolves s (Machine.skewCorrect p err t) :=
  ite (raise <| put <| setPort h) (trimIfStatic <| put <| when put <| setPort h)

theorem skewJudge {p : ℕ} {err : ℤ} (h : Evolves s t) : Evolves s (Machine.skewJudge p err t) :=
  ite (refreshPortGroup <| log <| setPort <| setPort h) (ite (trans (setPort <| setPort h) <| ite (refreshPortGroup <| requestEnd refl)
    (refreshPortGroup <| calCommit refl)) (setPort h))

theorem skewMeanDoneS {p : ℕ} {mean : ℤ} (h : Evolves s t) : Evolves s (Machine.skewMeanDoneS p mean t) :=
  ite h (trans (put <| put h) <| skewJudge <| ite (setPort refl) (skewCorrect <| setPort refl))

theorem skewOffsetDoneS {p : ℕ} {offset : ℤ} (h : Evolves s t) : Evolves s (Machine.skewOffsetDoneS p offset t) := ite (setPort h) h

theorem skewTrimStepS {p : ℕ} (h : Evolves s t) : Evolves s (Machine.skewTrimStepS p t) := by
  unfold Machine.skewTrimStepS
  dsimp only
  split
  · exact h
  · exact ite h (refreshMoving <| ite (trimIfStatic <| setPort h) (setPort h))

theorem hookPortTrim {p : ℕ} {new : Word} (h : Evolves s t) : Evolves s (Machine.hookPortTrim p new t).2 :=
  iteSnd (put <| setPort h) (setPort h)

theorem portTrimWritten {p : ℕ} (h : Evolves s t) : Evolves s (Machine.portTrimWritten p t) :=
  trimIfStatic <| ite (refreshPortGroup <| startAttempt h) h

theorem skewAttemptTimeoutS {p : ℕ} (h : Evolves s t) : Evolves s (Machine.skewAttemptTimeoutS p t) := by
  unfold Machine.skewAttemptTimeoutS
  split
  · exact ite h (refreshPortGroup <| trimIfStatic <| calFail <| setPort <| put h)
  · exact h

theorem skewFailWaitEndS {p : ℕ} (h : Evolves s t) : Evolves s (Machine.skewFailWaitEndS p t) := by
  unfold Machine.skewFailWaitEndS
  split
  · exact ite (startAttempt h) h
  · exact h

theorem cdlyStart {l : ℕ} {requested : Bool} (h : Evolves s t) : Evolves s (Machine.cdlyStart l requested t) := put <| setCdly h

theorem cdlyFail {l reason : ℕ} {requested : Bool} (h : Evolves s t) : Evolves s (Machine.cdlyFail l reason requested t) :=
  put <| calFail <| setCdly h

theorem cdlyLinkLost {l : ℕ} (h : Evolves s t) : Evolves s (Machine.cdlyLinkLost l t) := by
  unfold Machine.cdlyLinkLost
  split
  · exact cdlyFail h
  · exact h

theorem cdlyTimeoutS {l : ℕ} (h : Evolves s t) : Evolves s (Machine.cdlyTimeoutS l t) := by
  unfold Machine.cdlyTimeoutS
  split
  · exact ite (cdlyFail h) h
  · exact h

theorem setDelay {l d : ℕ} (h : Evolves s t) : Evolves s (Machine.setDelay l d t) := setCdly <| put <| put h

theorem cdlySample {l : ℕ} {rtt : ℤ} (h : Evolves s t) : Evolves s (Machine.cdlySample l rtt t) := by
  unfold Machine.cdlySample
  split
  · exact h
  · exact ite (ite (requestEnd <| put <| setCdly h) (calCommit <| put <| put <| put <| setDelay <| setCdly h)) (setCdly h)

theorem cdlyHiWritten {l : ℕ} (h : Evolves s t) : Evolves s (Machine.cdlyHiWritten l t) := by
  unfold Machine.cdlyHiWritten
  exact put <| put <| setCdly <| (by
    split
    · exact ite (put <| calFail <| put <| setCdly h) (put <| setCdly h)
    · exact h)

theorem trimStart {c k : ℕ} {dtc requested : Bool} (h : Evolves s t) : Evolves s (Machine.trimStart c k dtc requested t) :=
  trimRefresh <| setHalf h

theorem sorrelBackgroundStartS {m t1 : ℕ} (h : Evolves s t) : Evolves s (Machine.sorrelBackgroundStartS m t1 t) :=
  ite h (ite (ite (trimStart h) h) (ite (ite (ite (ite (cdState h) h) (ite h (cdStart h))) h) (ite (ite (cdlyStart h) h) h)))

theorem startRequested {m t1 : ℕ} (h : Evolves s t) : Evolves s (Machine.startRequested m t1 t) := by
  unfold Machine.startRequested
  split
  · exact calFail h
  · split
    · exact ite (trimFail <| setHalf h) (ite (trimFail <| setHalf h) (ite (setHalf h) (trimStart <| setHalf h)))
    · split
      · split
        · exact setChan h
        · exact ite (cdFail h) (cdStart h)
      · split
        · split
          · exact calFail h
          · split
            · exact setPort h
            · exact refreshPortGroup <| startAttempt h
        · split
          · exact setCdly h
          · exact ite (cdlyStart h) (cdlyFail h)

theorem refuseRequest {m t1 reason : ℕ} (h : Evolves s t) : Evolves s (Machine.refuseRequest m t1 reason t) := put <| put <| calFail h

theorem hookSorReq {ones old new : Word} (h : Evolves s t) : Evolves s (Machine.hookSorReq ones old new t).2 :=
  iteSnd h (ite (refuseRequest <| ite h (setReg h)) (ite (calFail <| ite h (setReg h)) (startRequested <| ite h (setReg h))))

theorem hookSorCtrl {new : Word} (h : Evolves s t) : Evolves s (Machine.hookSorCtrl new t).2 := h

theorem endRunsOn {on : ℕ → Bool} {m : ℕ} (h : Evolves s t) : Evolves s (Machine.endRunsOn on m t) := by
  unfold Machine.endRunsOn
  dsimp only
  split
  · exact forBelow (fun _ _ h => (by
      split
      · exact when calFail <| trimRefresh <| setHalf h
      · exact h)) h
  · split
    · exact forList (fun _ _ h => (by
        split
        · exact ite (cdFail h) (refreshAllConv <| cdState <| cdLeave h)
        · exact h)) h
    · split
      · exact forList (fun _ _ h => (by
          split
          · exact when startAttempt <| setPort <| when calFail h
          · exact h)) h
      · split
        · exact forBelow (fun _ _ h => (by
            split
            · exact when calFail <| put <| setCdly h
            · exact h)) h
        · exact ite (forBelow (fun _ _ h => when restartSearch h) h) h

theorem endRuns {m : ℕ} (h : Evolves s t) : Evolves s (Machine.endRuns m t) := endRunsOn h

theorem restartRuns {n : ℕ} (h : Evolves s t) : Evolves s (Machine.restartRuns n t) := by
  unfold Machine.restartRuns
  exact forList (fun _ _ h => (by
    split
    · exact setChan h
    · exact h)) <| forList (fun _ _ h => setPort h) h

theorem logNvm {s0 : State} (h : Evolves s t) : Evolves s (Machine.logNvm s0 t) := log h

theorem refuseNvm {code : ℕ} (h : Evolves s t) : Evolves s (Machine.refuseNvm code t) := logNvm <| put <| put h

theorem endNvm {code : ℕ} {failed : Bool} (h : Evolves s t) : Evolves s (Machine.endNvm code failed t) :=
  logNvm <| when put <| put <| put <| put <| put <| withNvmOp h

theorem eraseCommit {b : ℕ} (h : Evolves s t) : Evolves s (Machine.eraseCommit b t) := put <| put <| nvmEraseRange h

theorem startNvm {b : ℕ} {store : Option (ℕ × CalSnap)} (h : Evolves s t) : Evolves s (Machine.startNvm b store t) :=
  eraseCommit <| put <| put <| withNvmOp h

theorem startStore (h : Evolves s t) : Evolves s (Machine.startStore t) := by
  unfold Machine.startStore
  split
  · exact refuseNvm h
  · exact ite (endNvm h) (startNvm h)

theorem nvmCtrlWrite {v : ℕ} (h : Evolves s t) : Evolves s (Machine.nvmCtrlWrite v t) := by
  unfold Machine.nvmCtrlWrite
  dsimp only
  split
  · exact ite (startStore h) (ite (setReg <| startStore h) (setReg <| startStore h))
  · split
    · split
      · exact ite (refuseNvm h) (ite (setReg <| refuseNvm h) (setReg <| refuseNvm h))
      · exact ite (setReg <| startNvm h) (setReg <| startNvm h)
    · exact ite (setReg h) (ite (setReg h) (setReg h))

theorem nvmAutoStoreS (h : Evolves s t) : Evolves s (Machine.nvmAutoStoreS t) := ite (startStore <| withAutoDone h) h

theorem nvmPartial {cap : ℕ} (h : Evolves s t) : Evolves s (Machine.nvmPartial cap t) := by
  unfold Machine.nvmPartial
  split
  · exact h
  ·
    dsimp only
    split
    · exact nvmEraseRange <| withFreeCtr h
    · exact ite (nvmEraseRange <| withFreeCtr h) (ite (nvmProgram <| nvmProgram <| withFreeCtr h) (nvmProgram <| withFreeCtr h))

theorem abandonNvm (h : Evolves s t) : Evolves s (Machine.abandonNvm t) := when (fun h => endNvm <| nvmPartial h) h

theorem nvmEnded {r : NvmEnd} (h : Evolves s t) : Evolves s (Machine.nvmEnded r t) := ite (faultReport <| withNvmLost h) h

theorem nvmFails {r : NvmEnd} (h : Evolves s t) : Evolves s (Machine.nvmFails r t) := endNvm <| nvmEnded <| nvmPartial h

theorem nvmErasePhaseDoneS {r : NvmEnd} (h : Evolves s t) : Evolves s (Machine.nvmErasePhaseDoneS r t) := by
  unfold Machine.nvmErasePhaseDoneS
  split
  · exact ite (ite (put <| nvmEraseRange h) (nvmFails h)) h
  · exact h

theorem nvmBodyDoneS {r : NvmEnd} (h : Evolves s t) : Evolves s (Machine.nvmBodyDoneS r t) := by
  unfold Machine.nvmBodyDoneS
  split
  · exact ite (ite (put <| nvmProgram <| nvmProgram h) (nvmFails h)) h
  · exact h

theorem nvmStoreDoneS {r : NvmEnd} (h : Evolves s t) : Evolves s (Machine.nvmStoreDoneS r t) := by
  unfold Machine.nvmStoreDoneS
  split
  · exact ite (ite (nvmFails h) (raise <| endNvm <| put <| put <| put <| put <| nvmProgram h)) h
  · exact h

theorem nvmEraseDoneS {r : NvmEnd} (h : Evolves s t) : Evolves s (Machine.nvmEraseDoneS r t) := by
  unfold Machine.nvmEraseDoneS
  split
  · exact ite h (ite (nvmFails h) (endNvm <| nvmEraseRange h))
  · exact h

theorem vddhMonitorLowS (h : Evolves s t) : Evolves s (Machine.vddhMonitorLowS t) := withVddhLow h

theorem dropTables (h : Evolves s t) : Evolves s (Machine.dropTables t) := forBelow (fun _ _ h => ite (reloadTable h) h) h

theorem loadArea {base : ℕ} {bank : Bool} (h : Evolves s t) : Evolves s (Machine.loadArea base bank t) :=
  forBelow (fun _ _ h => forBelow (fun _ _ h => withPreds h) h) <| ite (dropTables <| forBelow (fun _ _ h => setHalf h) h) (forBelow
    (fun _ _ h => reloadTable h) <| forBelow (fun _ _ h => setHalf h) h)

theorem loadDefaults (h : Evolves s t) : Evolves s (Machine.loadDefaults t) :=
  dropTables <| withPreds <| forBelow (fun _ _ h => setHalf h) <| put h

theorem loadCalibration {answers : Bool} (h : Evolves s t) : Evolves s (Machine.loadCalibration answers t) := by
  unfold Machine.loadCalibration
  dsimp only
  split
  · exact log <| faultReport <| loadDefaults <| withCalGenNvmLost h
  · exact log <| (by
      split
      · exact put <| withCalGen <| loadArea <| put <| put <| when put <| put <| put <| when put <| put <| put <| withNvmLost h
      · exact ite (withCalGen <| loadArea <| put <| put <| when put <| put <| put <| when put <| put <| put <| withNvmLost h)
          (loadDefaults <| withCalGen <| put <| when put <| put <| put <| when put <| put <| put <| withNvmLost h))

theorem msixSend {v : ℕ} (h : Evolves s t) : Evolves s (Machine.msixSend v t) :=
  ite (setVec h) (ite (emit <| withMsgLast <| setVec h) (setVec h))

theorem msixFlush {v : ℕ} (h : Evolves s t) : Evolves s (Machine.msixFlush v t) := ite (msixSend h) h

theorem msixFlushAll (h : Evolves s t) : Evolves s (Machine.msixFlushAll t) := forList (fun _ _ h => msixFlush h) h

theorem msixModerationEndS {v : ℕ} (h : Evolves s t) : Evolves s (Machine.msixModerationEndS v t) := ite (msixSend h) h

theorem msixTableWrite {i : ℕ} {v : Word} (h : Evolves s t) : Evolves s (Machine.msixTableWrite i v t) :=
  ite (setVec h) (ite (setVec h) (ite (setVec h) (msixFlush <| setVec h)))

theorem routeRaise {i : ℕ} (h : Evolves s t) : Evolves s (Machine.routeRaise i t) :=
  ite (withRy <| when msixSend <| withRoutedAt h) (when msixSend <| withRoutedAt h)

theorem eventRaiseS (h : Evolves s t) : Evolves s (Machine.eventRaiseS t) := by
  unfold Machine.eventRaiseS
  split
  · exact h
  · exact ite (withRaising h) (trans (withRaisesRaiseTs <| withRaising h) <| ite (put refl) (routeRaise <| put refl))

theorem hookEvRoute {new : Word} (h : Evolves s t) : Evolves s (Machine.hookEvRoute new t).2 := h

theorem pcieResetS (h : Evolves s t) : Evolves s (Machine.pcieResetS t) :=
  raise <| bump <| put <| put <| put <| put <| put <| setOrg <| forList (fun _ _ h => setVec h) <| withCfgBmeFnMask h

theorem pcieLinkUpS {speed width : ℕ} {host : HostCfg} (h : Evolves s t) : Evolves s (Machine.pcieLinkUpS speed width host t) :=
  ite h (put <| put <| put <| withCfg h)

theorem pcieD3hotS (h : Evolves s t) : Evolves s (Machine.pcieD3hotS t) := ite (put h) h

theorem pcieD3hotExitS (h : Evolves s t) : Evolves s (Machine.pcieD3hotExitS t) := ite (msixFlushAll <| put h) h

theorem msixUnmaskS {w : Unmask} (h : Evolves s t) : Evolves s (Machine.msixUnmaskS w t) := by
  unfold Machine.msixUnmaskS
  split
  · exact when (fun h => msixFlush <| setVec h) h
  · exact when (fun h => msixFlushAll <| withFnMask h) h
  · exact when (fun h => msixFlushAll <| withBme h) h

theorem barRefused {f : Fld} (h : Evolves s t) : Evolves s (Machine.barRefused f t) := raise <| bump <| put h

theorem storeProgram {off : ℕ} {bs : List (Option Byte)} (h : Evolves s t) : Evolves s (Machine.storeProgram off bs t) := by
  unfold Machine.storeProgram
  split
  · exact forList (fun _ _ h => (by
      split
      · exact ite h (store h)
      · exact h)) <| put h
  · split
    · exact store h
    · exact forList (fun _ _ h => (by
        split
        · exact store h
        · exact h)) h

theorem programLoad {o off count : ℕ} {bs : List (Option Byte)} (h : Evolves s t) : Evolves s (Machine.programLoad o off count bs t) :=
  log <| storeProgram h

theorem showPins (h : Evolves s t) : Evolves s (Machine.showPins t) := emit h

theorem lowerSel {n : ℕ} (h : Evolves s t) : Evolves s (Machine.lowerSel n t) := showPins <| withSm h

theorem raiseSel (h : Evolves s t) : Evolves s (Machine.raiseSel t) := by
  unfold Machine.raiseSel
  split
  · exact showPins <| withSm h
  · exact h

theorem raiseLater {t1 : ℕ} (h : Evolves s t) : Evolves s (Machine.raiseLater t1 t) := by
  unfold Machine.raiseLater
  split
  · exact withSm h
  · exact h

theorem setPins {v : ℕ} (h : Evolves s t) : Evolves s (Machine.setPins v t) := showPins <| withSm h

theorem releasePins (h : Evolves s t) : Evolves s (Machine.releasePins t) := forList (fun _ _ h => setPins <| withSm h) h

theorem heldOver {fill : Bool} {edge : ℕ} (h : Evolves s t) : Evolves s (Machine.heldOver fill edge t) := withSm h

theorem heldEnd {fill : Bool} {edge : ℕ} (h : Evolves s t) : Evolves s (Machine.heldEnd fill edge t) := releasePins <| heldOver h

theorem hookSmGpio {o : ℕ} {new : Word} (h : Evolves s t) : Evolves s (Machine.hookSmGpio o new t).2 := ite (setPins h) (withSm h)

theorem hookSmCmd {o : ℕ} {new : Word} (h : Evolves s t) : Evolves s (Machine.hookSmCmd o new t).2 := by
  unfold Machine.hookSmCmd
  dsimp only
  split
  · exact h
  · split
    · exact put h
    · split
      · exact raise <| put <| put h
      · exact withSm <| put h

theorem takeSmCfg (h : Evolves s t) : Evolves s (Machine.takeSmCfg t) := when showPins <| when emit <| withSm h

theorem smFrameStartS (h : Evolves s t) : Evolves s (Machine.smFrameStartS t) := by
  unfold Machine.smFrameStartS
  split
  · exact ite (emit <| withSm <| when lowerSel h) h
  · exact h

theorem xipFillStartS (h : Evolves s t) : Evolves s (Machine.xipFillStartS t) := by
  unfold Machine.xipFillStartS
  split
  · exact ite (emit <| withSm <| withXip <| lowerSel <| bump h) h
  · exact h

theorem xipDeliver {line : ℕ} {bs : List Byte} (h : Evolves s t) : Evolves s (Machine.xipDeliver line bs t) :=
  forList (fun _ _ h => setEng rfl h) h

theorem xipRemiss {line : ℕ} (h : Evolves s t) : Evolves s (Machine.xipRemiss line t) := ite h (withXip h)

theorem xipFillDoneS {bytes : List Byte} (h : Evolves s t) : Evolves s (Machine.xipFillDoneS bytes t) := by
  unfold Machine.xipFillDoneS
  split
  · exact ite h (trans (heldEnd <| raiseSel <| withXip h) <| ite (xipRemiss refl) (xipDeliver <| withXip refl))
  · exact h

theorem smStop {f : SmFrame} {t1 : ℕ} (h : Evolves s t) : Evolves s (Machine.smStop f t1 t).2 := raiseLater h

theorem failLine {fault : ℕ → ℕ → State → State} {line : ℕ} (hf : ∀ e c {t}, Evolves s t → Evolves s (fault e c t))
    (h : Evolves s t) : Evolves s (Machine.failLine fault line t) :=
  forList (fun _ _ h => hf _ _ <| setEng rfl h) <| raise <| put <| bump <| put h

theorem failFills {fault : ℕ → ℕ → State → State} (hf : ∀ e c {t}, Evolves s t → Evolves s (fault e c t)) (h : Evolves s t) :
    Evolves s (Machine.failFills fault t) := by
  refine forList (fun _ _ h => failLine hf h) ?_
  have hstop : Evolves s (t.xip.filling.elim t fun line =>
      Machine.heldEnd true (Machine.smStop (t.fillFrame line) t.sm.fillAt t).1 { (Machine.smStop (t.fillFrame line) t.sm.fillAt t).2 with
        xip := { (Machine.smStop (t.fillFrame line) t.sm.fillAt t).2.xip with filling := none } }) := by
    cases t.xip.filling with
    | none => exact h
    | some line => exact heldEnd (t := { (Machine.smStop _ _ t).2 with xip := _ }) (smStop h)
  exact hstop

theorem fillsFollow (h : Evolves s t) : Evolves s (Machine.fillsFollow t) := ite h (failFills (fun _ _ _ h => handlerFault h) h)

theorem smOver {edge : ℕ} (h : Evolves s t) : Evolves s (Machine.smOver edge t) := fillsFollow <| heldEnd <| takeSmCfg <| put <| withSm h

theorem smDoneS {rx : List Byte} (h : Evolves s t) : Evolves s (Machine.smDoneS rx t) := by
  unfold Machine.smDoneS
  split
  · split
    · exact ite (raise <| bump <| put <| smOver <| raiseSel <| when (fun h => forBelow (fun _ _ h => setReg h) h) h) h
    · exact h
  · exact h

theorem xipFillFailS (h : Evolves s t) : Evolves s (Machine.xipFillFailS t) := by
  unfold Machine.xipFillFailS
  split
  · exact h
  · split
    · exact failFills (fun _ _ _ h => handlerFault h) h
    · split
      · exact ite (failLine (fun _ _ _ h => handlerFault h) <| withXip h) h
      · exact h

theorem hookXipCache {new : Word} (h : Evolves s t) : Evolves s (Machine.hookXipCache new t).2 :=
  ite (withXip <| ite (withXip h) h) (ite (withXip h) h)

theorem hookSmCfg {new : Word} (h : Evolves s t) : Evolves s (Machine.hookSmCfg new t).2 := iteSnd (put h) h

theorem smCfgWritten (h : Evolves s t) : Evolves s (Machine.smCfgWritten t) := fillsFollow <| ite h (takeSmCfg h)

theorem hookSmTime {new : Word} (h : Evolves s t) : Evolves s (Machine.hookSmTime new t).2 := when put h

theorem warmFault {e code : ℕ} (h : Evolves s t) : Evolves s (Machine.warmFault e code t) := by
  unfold Machine.warmFault
  split
  · exact faultSeen h
  · exact h

theorem smWarm (h : Evolves s t) : Evolves s (Machine.smWarm t) := by
  have hfail : Evolves s (Machine.failFills Machine.warmFault t) := failFills (fun _ _ _ h => warmFault h) h
  unfold Machine.smWarm
  dsimp only
  split
  · next f _ =>
      refine smOver ?_
      cases f.running with
      | none => exact hfail
      | some n => exact smStop hfail
  · exact hfail

theorem heldTick (h : Evolves s t) : Evolves s (Machine.heldTick t) := by
  have passed {fill : Bool} {edge : ℕ} {t : State} (h : Evolves s t) :
      Evolves s (if edge ≤ t.clock then Machine.heldOver fill edge t else t) := ite (heldOver h) h
  have frame {f : SmFrame} : Evolves s (f.running.elim t fun n =>
      if n + t.lastEdge f ≤ t.clock then Machine.heldOver false (n + t.lastEdge f) t else t) := by
    cases f.running with
    | none => exact h
    | some n => exact passed h
  have fill {u : State} (h : Evolves s u) : Evolves s (u.xip.filling.elim u fun line =>
      if u.sm.fillAt + u.lastEdge (u.fillFrame line) ≤ u.clock then
        Machine.heldOver true (u.sm.fillAt + u.lastEdge (u.fillFrame line)) u else u) := by
    cases u.xip.filling with
    | none => exact h
    | some line => rw [Option.elim_some]; exact passed h
  refine fill ?_
  split
  · exact frame
  · exact h

theorem smTick (h : Evolves s t) : Evolves s (Machine.smTick t) := by
  unfold Machine.smTick
  exact releasePins <| heldTick <| (by
    split
    · exact ite (showPins <| withSm h) h
    · exact h)

theorem sspCfgWritten {old : Word} (h : Evolves s t) : Evolves s (Machine.sspCfgWritten old t) := when withSsp h

theorem refuseLink {l reason : ℕ} (h : Evolves s t) : Evolves s (Machine.refuseLink l reason t) :=
  logEvent <| raise <| setLinkState <| put <| put <| setLnk <| cdlyLinkLost h

theorem sendRefusal {l serial reason : ℕ} (h : Evolves s t) : Evolves s (Machine.sendRefusal l serial reason t) :=
  refuseLink <| sendFrame h

theorem refreshWorkers (h : Evolves s t) : Evolves s (Machine.refreshWorkers t) := put <| put h

theorem endResend {f : ℕ} (h : Evolves s t) : Evolves s (Machine.endResend f t) := setFwdSt <| put h

theorem stopReplay {w : ℕ} (h : Evolves s t) : Evolves s (Machine.stopReplay w t) := put <| setWt <| forList (fun _ _ h => endResend h) h

theorem parkWorker {w : ℕ} (h : Evolves s t) : Evolves s (Machine.parkWorker w t) :=
  ite (withRy <| put <| put <| stopReplay <| ite (put h) (ite (put h) h)) (stopReplay <| ite (put h) (ite (put h) h))

theorem parkTree {w : ℕ} (h : Evolves s t) : Evolves s (Machine.parkTree w t) :=
  refreshWorkers <| raise <| forList (fun _ _ h => parkWorker h) h

theorem takeOver (h : Evolves s t) : Evolves s (Machine.takeOver t) := by
  unfold Machine.takeOver
  split
  · exact h
  · exact sendFrame <| setLinkState <| cdlyLinkLost <| setLnk <| put <| forBelow (fun _ _ h => when setLnk h) h

theorem orphan {l : ℕ} (h : Evolves s t) : Evolves s (Machine.orphan l t) := ite (takeOver <| withTbRy <| put <| raise <| put <| put h) h

theorem entryGone {w : ℕ} (h : Evolves s t) : Evolves s (Machine.entryGone w t) := ite (refreshWorkers <| parkWorker h) (parkTree h)

theorem peerGone {l st : ℕ} {keep : Bool} (h : Evolves s t) : Evolves s (Machine.peerGone l st keep t) :=
  ite (setLinkState h) (trans (setLinkState <| when put h) <| trans (when cdlyLinkLost <| setLnk refl) <| ite (ite (forList (fun _ _ h
    => entryGone h) <| when put refl) (when sendTop <| when put refl)) (ite (orphan <| when put refl) (when put refl)))

theorem linkDown {l : ℕ} (h : Evolves s t) : Evolves s (Machine.linkDown l t) := ite h (setLnk <| peerGone <| bump h)

theorem ryrelBlockLockLossS {l : ℕ} (h : Evolves s t) : Evolves s (Machine.ryrelBlockLockLossS l t) := ite (linkDown h) h

theorem ryrelTrainedS {l : ℕ} (h : Evolves s t) : Evolves s (Machine.ryrelTrainedS l t) :=
  ite (ite (setLinkState <| put <| put <| setLnk h) (setLinkState <| setLnk <| when put h)) h

theorem retrain (h : Evolves s t) : Evolves s (Machine.retrain t) := forList (fun _ _ h => setLinkState h) h

theorem refreshTop (h : Evolves s t) : Evolves s (Machine.refreshTop t) := ite (put h) (put <| put <| put h)

theorem hookRyCfg {l : ℕ} {new : Word} (h : Evolves s t) : Evolves s (Machine.hookRyCfg l new t).2 := iteSnd (put h) h

theorem leaveInOrder {l old : ℕ} (h : Evolves s t) : Evolves s (Machine.leaveInOrder l old t) := when sendFrame h

theorem ryCfgWritten {l old : ℕ} (h : Evolves s t) : Evolves s (Machine.ryCfgWritten l old t) :=
  ite (setLinkState <| when (fun h => refreshTop <| put <| setLnk <| peerGone <| put h) <| refreshTop <| when setLnk <| ite
    (leaveInOrder h) h) (ite (setLinkState <| refreshTop <| when setLnk <| ite (leaveInOrder h) h) (ite (setLinkState <| refreshTop <|
    when setLnk <| ite (leaveInOrder h) h) (ite (refreshTop <| when setLnk <| ite (leaveInOrder h) h) (refreshTop <| put <| setLnk <|
    peerGone <| put <| refreshTop <| when setLnk <| ite (leaveInOrder h) h))))

theorem receive {l type : ℕ} {f : RyFrame} {body : State → State} (hf : ∀ {t}, Evolves s t → Evolves s (body t)) (h : Evolves s t) :
    Evolves s (Machine.receive l type f body t) :=
  ite h <| ite (sendFrame <| bump h) <| ite (bump h) <| ite h <| ite (hf h) <| ite (sendFrame <| bump h) (when hf <| setLnk h)

theorem lackSendS {l : ℕ} (h : Evolves s t) : Evolves s (Machine.lackSendS l t) := ite (sendFrame h) h

theorem rxLackS {l : ℕ} {f : RyFrame} (h : Evolves s t) : Evolves s (Machine.rxLackS l f t) := receive setLnk h

theorem rxLnakS {l : ℕ} {f : RyFrame} (h : Evolves s t) : Evolves s (Machine.rxLnakS l f t) :=
  receive (fun h => forList (fun _ _ h => emit h) <| bump <| setLnk h) h

theorem reliableAckTimeoutS {l : ℕ} (h : Evolves s t) : Evolves s (Machine.reliableAckTimeoutS l t) := by
  unfold Machine.reliableAckTimeoutS
  split
  · exact ite (linkDown h) h
  · exact h

theorem dropEvent (h : Evolves s t) : Evolves s (Machine.dropEvent t) := by
  unfold Machine.dropEvent
  split
  · exact h
  · split
    · exact bump h
    · exact h

theorem relay {type : ℕ} {f : RyFrame} (h : Evolves s t) : Evolves s (Machine.relay type f t) := by
  unfold Machine.relay
  dsimp only
  split
  · split
    · exact ite (dropEvent h) (sendFrom h)
    · exact ite (dropEvent h) h
  · split
    · exact sendFrom h
    · exact h

theorem routed {type : ℕ} {f : RyFrame} {body : State → State} (hf : ∀ {t}, Evolves s t → Evolves s (body t)) (h : Evolves s t) :
    Evolves s (Machine.routed type f body t) := ite (hf h) (relay h)

theorem enterTime {l : ℕ} (h : Evolves s t) : Evolves s (Machine.enterTime l t) :=
  ite (trans (put <| setLinkState h) <| ite refl (withRy refl)) (setLnk <| setLinkState h)

theorem workerDelayKnown {l : ℕ} (h : Evolves s t) : Evolves s (Machine.workerDelayKnown l t).2 := iteSnd (withFreeCtr h) h

theorem linkAdmitted {l : ℕ} {final : Bool} (h : Evolves s t) : Evolves s (Machine.linkAdmitted l final t) :=
  ite (setLinkState <| setLnk h) (ite (enterTime <| workerDelayKnown <| setLnk h) (trans (setLinkState <| workerDelayKnown <| setLnk h) <|
    ite (cdlyStart refl) refl))

theorem sendAdmit {w : ℕ} {final : Bool} (h : Evolves s t) : Evolves s (Machine.sendAdmit w final t) :=
  ite (linkAdmitted <| put <| put <| sendFrame h) (sendFrame h)

theorem refuseCandidate {l serial reason : ℕ} {direct : Bool} (h : Evolves s t) : Evolves s (Machine.refuseCandidate l serial reason
    direct t) :=
  ite (sendRefusal h) (sendFrame h)

theorem handleJoin {l src : ℕ} {p : List Byte} (h : Evolves s t) : Evolves s (Machine.handleJoin l src p t) := by
  unfold Machine.handleJoin
  refine ite (refuseCandidate h) ?_
  split
  · exact ite (refuseCandidate h) <| ite (refreshWorkers <| setWt <| setWide <| put <| put <| put <| put h)
      (sendAdmit <| refreshWorkers <| setWt <| setWide <| put <| put <| put <| put <| when parkTree h)
  · split
    · exact refuseCandidate h
    · exact ite (refreshWorkers <| setWt <| setWide <| put <| put <| put <| put h)
        (sendAdmit <| refreshWorkers <| setWt <| setWide <| put <| put <| put <| put h)

theorem noteCandidate {l serial : ℕ} (h : Evolves s t) : Evolves s (Machine.noteCandidate l serial t) :=
  forBelow (fun _ _ h => setLnk h) h

theorem joinFor {l : ℕ} {hello : List Byte} (h : Evolves s t) : Evolves s (Machine.joinFor l hello t) :=
  ite (handleJoin <| put <| setLinkState <| setLnk h) (sendTop <| noteCandidate <| put <| setLinkState <| setLnk h)

theorem rxHelloS {l : ℕ} {f : RyFrame} (h : Evolves s t) : Evolves s (Machine.rxHelloS l f t) := by
  unfold Machine.rxHelloS
  exact receive (fun h => ite h (ite (ite (setLinkState <| setLnk <| put <| setWide h) (setLnk <| put <| setWide h)) ((by
    split
    · exact sendRefusal <| ite (setLinkState <| setLnk <| put <| setWide h) (setLnk <| put <| setWide h)
    · exact ite (setLinkState <| setLnk <| ite (setLinkState <| setLnk <| put <| setWide h) (setLnk <| put <| setWide h)) (ite
        (setLinkState <| setLnk <| ite (setLinkState <| setLnk <| put <| setWide h) (setLnk <| put <| setWide h)) (joinFor <| ite
        (setLinkState <| setLnk <| put <| setWide h) (setLnk <| put <| setWide h))))))) h

theorem helloSendS {l : ℕ} (h : Evolves s t) : Evolves s (Machine.helloSendS l t) := ite (sendFrame <| setLnk <| ite (setLinkState h) h) h

theorem rxJoinS {l : ℕ} {f : RyFrame} (h : Evolves s t) : Evolves s (Machine.rxJoinS l f t) :=
  receive (fun h => ite (ite (joinFor h) h) (ite (handleJoin h) (relay <| noteCandidate h))) h

theorem workerAdmitted {l : ℕ} (h : Evolves s t) : Evolves s (Machine.workerAdmitted l t) :=
  forBelow (fun _ _ h => when joinFor h) <| forList (fun _ _ h => sendDone h) <| linkAdmitted <| raise <| put <| put h

theorem dropCandidate {w : ℕ} (h : Evolves s t) : Evolves s (Machine.dropCandidate w t) := ite (refreshWorkers <| put h) h

theorem joinOver {serial reason : ℕ} (h : Evolves s t) : Evolves s (Machine.joinOver serial reason t) := by
  refine ite ?_ ?_
  · cases t.workerOf serial with
    | none => exact h
    | some w => exact dropCandidate h
  · cases t.upLink with
    | none => exact h
    | some k => exact sendFrame h

theorem relayAdmit {k serial w lv : ℕ} {final : Bool} (h : Evolves s t) : Evolves s (Machine.relayAdmit k serial w lv final t) :=
  ite (linkAdmitted <| put <| put h) (joinOver h)

theorem rxAdmitS {l : ℕ} {f : RyFrame} (h : Evolves s t) : Evolves s (Machine.rxAdmitS l f t) := by
  unfold Machine.rxAdmitS
  exact receive (fun h => ite h (ite (ite h (trans (put <| put h) <| ite (workerAdmitted <| setLnk refl) (linkAdmitted <| setLnk refl)))
    ((by
    split
    · exact ite (relayAdmit <| sendFrom <| withRy h) (sendFrom <| withRy h)
    · exact h)))) h

theorem rxRefuseS {l : ℕ} {f : RyFrame} (h : Evolves s t) : Evolves s (Machine.rxRefuseS l f t) := by
  unfold Machine.rxRefuseS
  exact receive (fun h => ite (refuseLink h) (ite (when refuseLink <| joinOver h) ((by
    split
    · exact when refuseLink <| sendFrom h
    · exact h)))) h

theorem refuseRetryTimerS {l : ℕ} (h : Evolves s t) : Evolves s (Machine.refuseRetryTimerS l t) := by
  unfold Machine.refuseRetryTimerS
  split
  · exact ite (setLinkState <| setLnk h) h
  · exact h

theorem endJoin {l reason : ℕ} (h : Evolves s t) : Evolves s (Machine.endJoin l reason t) :=
  ite (joinOver <| sendRefusal h) (sendRefusal h)

theorem joinTimeoutS {l : ℕ} (h : Evolves s t) : Evolves s (Machine.joinTimeoutS l t) := by
  unfold Machine.joinTimeoutS
  split
  · exact ite (endJoin h) h
  · exact h

theorem cdlyEnded {l : ℕ} (h : Evolves s t) : Evolves s (Machine.cdlyEnded l t) := ite h (ite (enterTime h) (endJoin h))

theorem hbSendS {l : ℕ} (h : Evolves s t) : Evolves s (Machine.hbSendS l t) := ite (sendFrame <| setLnk h) h

theorem rxHbS {l : ℕ} {f : RyFrame} (h : Evolves s t) : Evolves s (Machine.rxHbS l f t) :=
  receive (fun h => trans (when put <| setLnk h) <| ite refl (ite (peerGone refl) refl)) h

theorem hbMissS {l : ℕ} (h : Evolves s t) : Evolves s (Machine.hbMissS l t) :=
  ite (trans (put <| bump h) <| ite (peerGone <| setLnk refl) (setLnk refl)) h

theorem rxLeaveS {l : ℕ} {f : RyFrame} (h : Evolves s t) : Evolves s (Machine.rxLeaveS l f t) := by
  unfold Machine.rxLeaveS
  exact receive (fun h => ite (ite (peerGone h) (ite (when parkTree h) (relay h))) (ite (when refuseLink <| peerGone h) ((by
    dsimp only
    split
    · exact when refuseLink <| relay h
    · exact relay h)))) h

theorem rxCdlossS {l : ℕ} {f : RyFrame} (h : Evolves s t) : Evolves s (Machine.rxCdlossS l f t) := receive (fun h => ite (peerGone h) h) h

theorem applyEpochMsg (h : Evolves s t) : Evolves s (Machine.applyEpochMsg t) := by
  unfold Machine.applyEpochMsg
  split
  · exact ite (withTbRy h) h
  · exact h

theorem tryArm {l : ℕ} (h : Evolves s t) : Evolves s (Machine.tryArm l t) :=
  ite (withRy h) (applyEpochMsg <| withRy <| log <| epochCtrlWrite h)

theorem epochArmRetryS (h : Evolves s t) : Evolves s (Machine.epochArmRetryS t) := by
  unfold Machine.epochArmRetryS
  split
  · exact ite (tryArm h) h
  · exact h

theorem rxEpochS {l : ℕ} {f : RyFrame} (h : Evolves s t) : Evolves s (Machine.rxEpochS l f t) := by
  unfold Machine.rxEpochS
  exact receive (fun h => (by
    dsimp only
    split
    · exact h
    · exact ite (tryArm <| when setLnk <| withRy h) (applyEpochMsg <| withRy h))) h

theorem sendEpoch {l : ℕ} (h : Evolves s t) : Evolves s (Machine.sendEpoch l t) := by
  unfold Machine.sendEpoch
  dsimp only
  split
  · exact ite (sendFrame <| setLnk h) h
  · exact h

theorem clearStamps (h : Evolves s t) : Evolves s (Machine.clearStamps t) := forBelow (fun _ _ h => setLnk h) <| withRy h

theorem epochToAll (h : Evolves s t) : Evolves s (Machine.epochToAll t) := forBelow (fun _ _ h => ite (setLnk h) h) h

theorem afterEpochLoad (h : Evolves s t) : Evolves s (Machine.afterEpochLoad t) := by
  unfold Machine.afterEpochLoad
  dsimp only
  split
  · exact epochToAll <| withRy <| requestSlew <| setLnk <| put <| put <| clearStamps h
  · exact ite (epochToAll <| bump <| clearStamps h) (clearStamps h)

theorem ttSendS {l frac : ℕ} (h : Evolves s t) : Evolves s (Machine.ttSendS l frac t) := ite (sendFrame <| setLnk h) h

theorem exchange {l t1 t2 t3 t4 : ℕ} (h : Evolves s t) : Evolves s (Machine.exchange l t1 t2 t3 t4 t) :=
  ite (setLnk h) (cdlyEnded <| cdlySample <| setLnk h)

theorem ttWorker {l k j dep arr ta : ℕ} (h : Evolves s t) : Evolves s (Machine.ttWorker l k j dep arr ta t) := by
  unfold Machine.ttWorker
  dsimp only
  split
  · exact exchange <| setLnk h
  · exact setLnk h

theorem ttManager {l k j dep arr ta : ℕ} (h : Evolves s t) : Evolves s (Machine.ttManager l k j dep arr ta t) := by
  unfold Machine.ttManager
  exact sendEpoch <| (by
    split
    · exact exchange <| setLnk h
    · exact setLnk h)

theorem rxTtS {l : ℕ} {f : RyFrame} {frac : ℕ} (h : Evolves s t) : Evolves s (Machine.rxTtS l f frac t) := by
  have go {b : Prop} [Decidable b] {k j t1 t2 ta : ℕ} {t : State} (h : Evolves s t) :
      Evolves s ((if b then Machine.ttManager else Machine.ttWorker) l k j t1 t2 ta t) := by
    split
    · exact ttManager h
    · exact ttWorker h
  exact receive (fun h => ite (go <| setLnk h) h) h

theorem sendReady {l : ℕ} (h : Evolves s t) : Evolves s (Machine.sendReady l t) := ite (sendFrame <| setLnk h) h

theorem judgeLock {l : ℕ} {sum : ℤ} {n : ℕ} (h : Evolves s t) : Evolves s (Machine.judgeLock l sum n t) :=
  ite (ite (raise <| put <| put <| setLnk h) (setLnk h)) (ite (put <| setLnk h) (setLnk h))

theorem servo {l : ℕ} {sum : ℤ} {n : ℕ} (h : Evolves s t) : Evolves s (Machine.servo l sum n t) :=
  ite (judgeLock h) (ite (tryArm <| put <| judgeLock h) (ite (tryArm <| judgeLock h) (sendReady <| requestSlew <| when put <| setLnk <|
    judgeLock h)))

theorem servoPeriodEndS {l : ℕ} (h : Evolves s t) : Evolves s (Machine.servoPeriodEndS l t) :=
  ite h (trans (setWide <| setWide h) <| ite (setLnk refl) (ite (servo <| setLnk refl) (ite (setLnk <| setLnk refl) (setLnk refl))))

theorem refreshMirror {f w : ℕ} (h : Evolves s t) : Evolves s (Machine.refreshMirror f w t) := put <| put <| put h

theorem setMirror {i : ℕ} {m : Mirror} (h : Evolves s t) : Evolves s (Machine.setMirror i m t) :=
  refreshMirror <| ite (withRy h) (store <| withRy h)

theorem updateMirror {i : ℕ} {m : Mirror} (h : Evolves s t) : Evolves s (Machine.updateMirror i m t) :=
  ite (setMirror <| put <| sramMeets h) (setMirror <| sramFix h)

theorem leaveReplay {i w : ℕ} (h : Evolves s t) : Evolves s (Machine.leaveReplay i w t) := ite (when put <| setWt h) h

theorem freeMirror {i : ℕ} (h : Evolves s t) : Evolves s (Machine.freeMirror i t) := by
  unfold Machine.freeMirror
  split
  · exact h
  · exact refreshMirror <| ite (withRy <| leaveReplay h) (store <| withRy <| leaveReplay h)

theorem remoteRecord {f : ℕ} {body : List Dword} (h : Evolves s t) : Evolves s (Machine.remoteRecord f body t).2 :=
  iteSnd (raise <| bump h) (iteSnd h (acceptItem h))

theorem endMirror {i status : ℕ} (h : Evolves s t) : Evolves s (Machine.endMirror i status t) := by
  unfold Machine.endMirror
  split
  · exact h
  · exact ite (ite (freeMirror h) (updateMirror h)) (ite (freeMirror <| remoteRecord h) (updateMirror <| remoteRecord h))

theorem sendDoneAck {w rq mseq : ℕ} (h : Evolves s t) : Evolves s (Machine.sendDoneAck w rq mseq t) := sendWorker h

theorem mirrorRetireS {i : ℕ} (h : Evolves s t) : Evolves s (Machine.mirrorRetireS i t) := by
  unfold Machine.mirrorRetireS
  split
  · exact h
  · split
    · exact h
    · split
      · exact ite (remoteRecord h) (when sendDoneAck <| ite (freeMirror <| remoteRecord h) (updateMirror <| remoteRecord h))
      · exact ite (freeMirror h) h

theorem sendSubmit {m : Mirror} (h : Evolves s t) : Evolves s (Machine.sendSubmit m t) := sendWorker h

theorem sendResync {f floor : ℕ} (h : Evolves s t) : Evolves s (Machine.sendResync f floor t) := sendWorker h

theorem forwarderTakeS {f : ℕ} (h : Evolves s t) : Evolves s (Machine.forwarderTakeS f t) := by
  unfold Machine.forwarderTakeS
  dsimp only
  split
  · exact h
  · split
    · exact h
    · split
      · exact ite h (raise <| put h)
      · exact sendSubmit <| ite (sendResync <| setFwdSt <| setMirror <| itemCompleteS <| editItem <| readEntries h) (setMirror <|
          itemCompleteS <| editItem <| readEntries h)

theorem submitRemote {l q mseq : ℕ} {force : Bool} {bs : List Byte} (h : Evolves s t) : Evolves s (Machine.submitRemote l q mseq force
    bs t).2.2 :=
  iteSnd2 h (iteSnd2 h (iteSnd2 h (iteSnd2 h (iteSnd2 (editItem <| setMm <| submitBytes h) (submitBytes h)))))

theorem rxSubmitS {l : ℕ} {f : RyFrame} (h : Evolves s t) : Evolves s (Machine.rxSubmitS l f t) :=
  receive (fun h => routed (fun h => sendFrame <| submitRemote h) h) h

theorem rxSubresS {l : ℕ} {f : RyFrame} (h : Evolves s t) : Evolves s (Machine.rxSubresS l f t) := by
  unfold Machine.rxSubresS
  exact receive (fun h => routed (fun h => (by
    dsimp only
    split
    · exact ite h (ite (updateMirror h) (ite (updateMirror h) (ite (setFwdSt <| put h) (endMirror h))))
    · exact h)) h) h

theorem mirrorMeets {i : ℕ} (h : Evolves s t) : Evolves s (Machine.mirrorMeets i t) := by
  unfold Machine.mirrorMeets
  dsimp only
  split
  · exact ite (updateMirror h) (sramFix h)
  · exact h

theorem replayRecord {i : ℕ} (h : Evolves s t) : Evolves s (Machine.replayRecord i t) := by
  unfold Machine.replayRecord
  dsimp only
  split
  · exact ite (endMirror <| raise <| mirrorMeets h) (sendSubmit <| mirrorMeets h)
  · exact mirrorMeets h

theorem forwardResendS {f : ℕ} (h : Evolves s t) : Evolves s (Machine.forwardResendS f t) := by
  unfold Machine.forwardResendS
  split
  · exact ite (forList (fun _ _ h => replayRecord h) <| endResend h) h
  · exact h

theorem rxDoneS {l : ℕ} {f : RyFrame} (h : Evolves s t) : Evolves s (Machine.rxDoneS l f t) := by
  unfold Machine.rxDoneS
  exact receive (fun h => routed (fun h => (by
    dsimp only
    split
    · exact ite (when sendDoneAck h) (when sendDoneAck <| updateMirror <| remoteRecord h)
    · exact sendDoneAck h)) h) h

theorem rxDoneackS {l : ℕ} {f : RyFrame} (h : Evolves s t) : Evolves s (Machine.rxDoneackS l f t) := receive (fun h => routed withRy h) h

theorem rxResyncS {l : ℕ} {f : RyFrame} (h : Evolves s t) : Evolves s (Machine.rxResyncS l f t) :=
  receive (fun h => routed (fun h => ite (setMm h) h) h) h

theorem replay {w : ℕ} {cold : Bool} (h : Evolves s t) : Evolves s (Machine.replay w cold t) :=
  put <| setWt <| forList (fun _ _ h => updateMirror h) <| forList (fun _ _ h => updateMirror h) h

theorem replayStep {w : ℕ} (h : Evolves s t) : Evolves s (Machine.replayStep w t) := by
  unfold Machine.replayStep
  split
  · exact h
  · exact when put <| replayRecord <| setWt h

theorem replayTurns (h : Evolves s t) : Evolves s (Machine.replayTurns t) := ite h (forList (fun _ _ h => replayStep h) h)

theorem resyncAll {w : ℕ} (h : Evolves s t) : Evolves s (Machine.resyncAll w t) := forList (fun _ _ h => sendResync <| setFwdSt h) h

theorem rxReadyS {l : ℕ} {f : RyFrame} (h : Evolves s t) : Evolves s (Machine.rxReadyS l f t) := by
  unfold Machine.rxReadyS
  exact receive (fun h => routed (fun h => (by
    split
    · exact ite (trans (sendAdmit <| refreshWorkers <| put h) <| ite (resyncAll refl) (ite (put refl) (replay refl))) h
    · exact h)) h) h

theorem hookWtCtrl {w : ℕ} {new : Word} (h : Evolves s t) : Evolves s (Machine.hookWtCtrl w new t).2 :=
  ite (replay <| resyncAll <| put <| ite (when (fun h => sendAdmit <| refreshWorkers <| put h) h) (ite (refreshWorkers <| put <| when
    refuseCandidate h) h)) (ite (when (fun h => sendAdmit <| refreshWorkers <| put h) h) (ite (refreshWorkers <| put <| when
    refuseCandidate h) h))

theorem wtEvict {w v : ℕ} (h : Evolves s t) : Evolves s (Machine.wtEvict w v t) :=
  ite h (refreshWorkers <| setWt <| setWide <| stopReplay <| put <| put <| forList (fun _ _ h => parkWorker h) <| forList (fun _ _ h =>
    endMirror h) <| when refuseLink <| ite (sendWorker h) h)

theorem hookFwd {f k : ℕ} {old new : Word} (h : Evolves s t) : Evolves s (Machine.hookFwd f k old new t).2 :=
  iteSnd (logEvent <| put h) (iteSnd (setFwdSt h) h)

theorem queueEnabledRy {q : ℕ} (h : Evolves s t) : Evolves s (Machine.queueEnabledRy q t) := forList (fun _ _ h => sendResync h) h

theorem eventForwardS {i : ℕ} (h : Evolves s t) : Evolves s (Machine.eventForwardS i t) :=
  ite (ite (withRy h) (ite (sendTop <| withRy h) (dropEvent <| withRy h))) h

theorem rxEventS {l : ℕ} {f : RyFrame} (h : Evolves s t) : Evolves s (Machine.rxEventS l f t) :=
  receive (fun h => routed (fun h => raise <| setWide h) h) h

theorem hookRacc {old new : Word} (h : Evolves s t) : Evolves s (Machine.hookRacc old new t).2 :=
  iteSnd h (iteSnd h (iteSnd h (iteSnd h (sendWorker <| withRy h))))

theorem raccEnd {status : ℕ} (h : Evolves s t) : Evolves s (Machine.raccEnd status t) := withRy <| put <| put h

theorem rxRrspS {l : ℕ} {f : RyFrame} (h : Evolves s t) : Evolves s (Machine.rxRrspS l f t) := by
  unfold Machine.rxRrspS
  exact receive (fun h => routed (fun h => (by
    split
    · exact ite h (ite (raccEnd h) (raccEnd <| when put h))
    · exact h)) h) h

theorem raccTimeoutS (h : Evolves s t) : Evolves s (Machine.raccTimeoutS t) := by
  unfold Machine.raccTimeoutS
  split
  · exact ite (raccEnd h) h
  · exact h

theorem hookRyGcfg {new : Word} (h : Evolves s t) : Evolves s (Machine.hookRyGcfg new t).2 := h

theorem mirrorBankLost (h : Evolves s t) : Evolves s (Machine.mirrorBankLost t) := ite (forList (fun _ _ h => endMirror h) h) (withRy h)

theorem ryWarm (h : Evolves s t) : Evolves s (Machine.ryWarm t) :=
  withRy <| put <| ite (refreshWorkers <| forBelow (fun _ _ h => ite h (parkWorker h)) h) (put h)

theorem ryWarmEnd (h : Evolves s t) : Evolves s (Machine.ryWarmEnd t) :=
  forBelow (fun _ _ h => ite (setLinkState <| setLnk <| when put h) h) h

theorem keepaliveS {answers : ℕ} (h : Evolves s t) : Evolves s (Machine.keepaliveS answers t) :=
  ite h (forBelow (fun _ _ h => ite h (ite (put <| setChip h) (put <| setChip h))) <| setTimer h)

theorem dropWaits {n : ℕ} (h : Evolves s t) : Evolves s (Machine.dropWaits n t) := forList (fun _ _ h => setQueue h) h

theorem loseChip {n : ℕ} (h : Evolves s t) : Evolves s (Machine.loseChip n t) :=
  put <| put <| setChip <| linkDown <| linkDown <| forBelow (fun _ _ h => when setHalf h) <| refreshMoving <| forBelow (fun _ _ h =>
    refreshGroup h) <| forList (fun _ _ h => setPort h) <| forBelow (fun _ _ h => put <| put <| setCore h) <| forList (fun _ _ h =>
    setChan h) <| forBelow (fun _ _ h => endRunsOn h) <| dropWaits <| forList (fun _ _ h => judged <| editItem h) h

theorem declareLost {n : ℕ} (h : Evolves s t) : Evolves s (Machine.declareLost n t) := faultReport <| raise <| loseChip <| put h

theorem chipletLostS {n : ℕ} (h : Evolves s t) : Evolves s (Machine.chipletLostS n t) :=
  ite h (ite (failsUnseen h) (ite h (declareLost h)))

theorem asyncSpeedUpdateS {stage : ℕ} (h : Evolves s t) : Evolves s (Machine.asyncSpeedUpdateS stage t) :=
  ite h (when raise <| when put <| withAsyncOver <| put <| put <| setTimer h)

theorem chipTempUpdateS {temps : List ℤ} (h : Evolves s t) : Evolves s (Machine.chipTempUpdateS temps t) :=
  ite h (trans (forBelow (fun _ _ h => ite h (put h)) <| setTimer h) <| ite (faultReport <| forList (fun _ _ h => when setPort h) refl)
    (forList (fun _ _ h => when setPort h) refl))

theorem membankS {b : ℕ} (h : Evolves s t) : Evolves s (Machine.membankS b t) :=
  ite h (trans (faultReport <| raise <| put h) <| ite (mirrorBankLost refl) (ite (forBelow (fun _ _ h => endRuns h) refl) refl))

theorem bringUpCore {c : ℕ} (h : Evolves s t) : Evolves s (Machine.bringUpCore c t) :=
  refreshOos <| forBelow (fun _ _ h => trimRefresh <| powerUp <| put <| put <| setHalf h) <| put <| put <| put h

theorem halfBootLockTimeoutS {c k : ℕ} (h : Evolves s t) : Evolves s (Machine.halfBootLockTimeoutS c k t) := by
  unfold Machine.halfBootLockTimeoutS
  split
  · exact ite (declareFailed <| setHalf h) h
  · exact h

theorem logBoot {s0 : State} (h : Evolves s t) : Evolves s (Machine.logBoot s0 t) := log h

theorem refuseBoot {code : ℕ} (h : Evolves s t) : Evolves s (Machine.refuseBoot code t) := logBoot <| put <| put h

theorem endBoot {code : ℕ} (h : Evolves s t) : Evolves s (Machine.endBoot code t) := logBoot <| put <| put <| put <| withBootCmd h

theorem bootRead {b : BootCmd} (h : Evolves s t) : Evolves s (Machine.bootRead b t).2 :=
  List.foldlRecOn (motive := fun r : List Byte × State => Evolves s r.2) _ (patchBad _) (sramMeets h) fun _ hr _ _ => hr

theorem eraseSlotCommit {k : ℕ} (h : Evolves s t) : Evolves s (Machine.eraseSlotCommit k t) := nvmEraseRange h

theorem voidSlot {k : ℕ} (h : Evolves s t) : Evolves s (Machine.voidSlot k t) := clearNvm h

theorem bootPartial {b : BootCmd} (h : Evolves s t) : Evolves s (Machine.bootPartial b t) :=
  ite (nvmEraseRange <| withFreeCtr h) (ite (nvmProgram <| bootRead <| withFreeCtr h) (nvmProgram <| nvmProgram <| withFreeCtr h))

theorem abandonBoot (h : Evolves s t) : Evolves s (Machine.abandonBoot t) := by
  unfold Machine.abandonBoot
  split
  · exact h
  · exact endBoot <| voidSlot <| bootPartial h

theorem bootCtrlWrite {v : ℕ} (h : Evolves s t) : Evolves s (Machine.bootCtrlWrite v t) := by
  unfold Machine.bootCtrlWrite
  dsimp only
  split
  · exact setReg h
  · split
    · exact setReg <| refuseBoot h
    · exact ite (eraseSlotCommit <| put <| setReg <| withBootCmd h) (put <| setReg <| withBootCmd h)

theorem bootCmdDoneS {r : NvmEnd} (h : Evolves s t) : Evolves s (Machine.bootCmdDoneS r t) := by
  unfold Machine.bootCmdDoneS
  split
  · exact h
  · exact ite h (ite (endBoot <| nvmEnded <| bootPartial h) (endBoot <| ite (nvmEraseRange h) (ite (nvmProgram <| bootRead h)
      (nvmProgram <| nvmProgram h))))

theorem controlDieLostS {n : ℕ} (h : Evolves s t) : Evolves s (Machine.controlDieLostS n t) :=
  ite h (trans (withCdStamps <| setChip h) <| trans (forList (fun _ _ h => when sendFrame h) <| put refl) <| ite (abandonBoot <|
    abandonNvm refl) refl)

theorem logReset {s0 : State} {aux : ℕ} (h : Evolves s t) : Evolves s (Machine.logReset s0 aux t) := log h

theorem powerCycle (h : Evolves s t) : Evolves s (Machine.powerCycle t) :=
  have hend : Evolves s (Machine.abandonBoot (Machine.abandonNvm t)) := abandonBoot <| abandonNvm h
  cleared (t := Machine.abandonBoot (Machine.abandonNvm t)) rfl rfl rfl rfl rfl rfl rfl hend

theorem coldOf {cause : ℕ} (h : Evolves s t) : Evolves s (Machine.coldOf cause t) := emit <| logReset <| put <| put <| powerCycle h

/-- After a cold reset no engine has a state of its own. -/
theorem engines_coldOf (cause : ℕ) (t : State) : (Machine.coldOf cause t).engines = [] := by
  unfold Machine.coldOf Machine.logReset State.log State.stage
  dsimp only
  split
  · rfl
  · split <;> rfl

theorem coldResetS (h : Evolves s t) : Evolves s (Machine.coldResetS t) := ite h (hold (engines_coldOf ..) <| coldOf h)

theorem resetReleaseS (h : Evolves s t) : Evolves s (Machine.resetReleaseS t) := ite (lower (by simp) id h) h

theorem brownOutS (h : Evolves s t) : Evolves s (Machine.brownOutS t) := ite h (hold (engines_coldOf ..) <| coldOf h)

theorem brownOutEndS (h : Evolves s t) : Evolves s (Machine.brownOutEndS t) := ite (lower id (by simp) h) h

theorem softCold (h : Evolves s t) : Evolves s (Machine.softCold t) := hold (engines_coldOf ..) <| coldOf h

theorem abortMailboxes (h : Evolves s t) : Evolves s (Machine.abortMailboxes t) := forList (fun _ _ h => setOrg h) h

theorem warmEngine {e : ℕ} (h : Evolves s t) : Evolves s (Machine.warmEngine e t) := by
  have rest {t : State} (h : Evolves s t) :
      Evolves s (((t.setEng e { (t.eng e).cleared with reinitAt := none }).put ENG_PC.PC 0 e).put ENG_CMD.REINIT 0 e) :=
    put <| put <| setEngFree rfl h
  have hret : Evolves s (match (t.eng e).held with | some (q, n) => Machine.returnItem q n id t | none => t) := by
    split
    · exact returnItem h
    · exact h
  exact trans (rest hret) <| ite refl (setEngState refl)

theorem dropCommits (h : Evolves s t) : Evolves s (Machine.dropCommits t) :=
  forList (fun _ _ h => put <| setPort h) <| forList (fun _ _ h => dropPending h) h

theorem dropArms (h : Evolves s t) : Evolves s (Machine.dropArms t) := forList (fun _ _ h => tsSet <| tsSet <| setChan h) h

theorem withDie {f : State → State} (hf : ∀ {t}, Evolves s t → Evolves s (f t)) (h : Evolves s t) : Evolves s (Machine.withDie f t) :=
  forBelow (fun _ _ => setChip) <| hf <| forBelow (fun _ _ => setChip) h

theorem warmReset {cause : ℕ} (h : Evolves s t) : Evolves s (Machine.warmReset cause t) :=
  ite h (withWarmBootReinits <| withDie (fun h => emit <| put <| put <| abortMailboxes <| ryWarm <| forBelow (fun _ _ h => warmEngine h) <|
    smWarm <| dropArms <| dropCommits <| forBelow (fun _ _ h => endRuns h) <| abandonBoot <| abandonNvm <| logReset <| bump <| put h)
    h)

theorem warmResetS (h : Evolves s t) : Evolves s (Machine.warmResetS t) := warmReset h

theorem scanFaults (h : Evolves s t) : Evolves s (Machine.scanFaults t) :=
  forList (fun _ _ h => declareLost h) <| forList (fun _ _ h => engFailS h) <| forBelow (fun _ _ h => faultReport h) <|
    withHalfFaultsLossFaults h

theorem lossEnd {seen : List ℕ} (h : Evolves s t) : Evolves s (Machine.lossEnd seen t) :=
  log <| scanFaults <| faultReport <| withRaising <| setWide <| put h

theorem tablesDue (h : Evolves s t) : Evolves s (Machine.tablesDue t) := forList (fun _ _ h => cdInstallDue h) h

theorem warmResetEndS (h : Evolves s t) : Evolves s (Machine.warmResetEndS t) :=
  ite h (trans (forBelow (fun _ _ h => setChip h) <| withWarm h) <| when emit <| checkStarveAll <| msixFlushAll <| ryWarmEnd <|
    withWdogFrom <| ite (scanFaults refl) (lossEnd <| tablesDue refl))

theorem hookWdogKick {new : Word} (h : Evolves s t) : Evolves s (Machine.hookWdogKick new t).2 := ite (withWdogFromWdogOut h) h

theorem hookWdogCfg {new : Word} (h : Evolves s t) : Evolves s (Machine.hookWdogCfg new t).2 := withWdogFrom h

theorem watchdogS (h : Evolves s t) : Evolves s (Machine.watchdogS t) := by
  unfold Machine.watchdogS
  split
  · exact h
  · exact ite h (trans (faultReport <| raise <| put <| withWdogFromWdogOut h) <| ite (log <| portMenS refl) (ite (warmReset refl) refl))

theorem clearRegs {lo hi : ℕ} {keep : ℕ → Bool} (h : Evolves s t) : Evolves s (Machine.clearRegs lo hi keep t) where
  pending := h.pending
  outs := h.outs
  canonical hs := have ⟨hm, hn, hr, hw⟩ := h.canonical hs; ⟨hm, hn, SMap.wfFrom_filter _ _ 0 _ hr, SMap.wfFrom_filter _ _ 0 _ hw⟩
  idle := h.idle

theorem clearFailed {c : ℕ} (h : Evolves s t) : Evolves s (Machine.clearFailed c t) := put h

theorem resetHalf {c k : ℕ} (h : Evolves s t) : Evolves s (Machine.resetHalf c k t) := setHalf h

theorem failCoreHops {c : ℕ} (h : Evolves s t) : Evolves s (Machine.failCoreHops c t) := by
  have hopen : Evolves s (match (t.core c).hop with | some r => Machine.failOpenHop c 6 r t | none => t) := by
    split
    · exact failOpenHop h
    · exact h
  exact trans hopen <| ite (leaveUnmoved <| failHop <| endRelock refl) refl

theorem reinitCore {c : ℕ} (h : Evolves s t) : Evolves s (Machine.reinitCore c t) :=
  refreshPorts <| refreshLevel <| bringUpCore <| clearFailed <| resetHalf <| resetHalf <| setCore <| clearRegs <| forList (fun _ _ h =>
    endRunsOn h) <| failCoreHops h

theorem reinitPort {p : ℕ} (h : Evolves s t) : Evolves s (Machine.reinitPort p t) :=
  refreshCoreGroup <| refreshGuard <| closeLoops <| releaseSpare <| refreshPort <| put <| setPort <| clearRegs <| setPortState <|
    leaveFailover <| endRunsOn h

theorem reinitLink {l : ℕ} (h : Evolves s t) : Evolves s (Machine.reinitLink l t) := setReg <| setReg <| linkDown h

theorem reinitTeasel {g : ℕ} (h : Evolves s t) : Evolves s (Machine.reinitTeasel g t) :=
  forBelow (fun _ _ h => setChan <| ite (endAt h) h) h

theorem reinitSorrel {m : ℕ} (h : Evolves s t) : Evolves s (Machine.reinitSorrel m t) := by
  unfold Machine.reinitSorrel
  dsimp only
  split
  · exact endRuns h
  · split
    · exact forBelow (fun _ _ h => trimRefresh <| setHalf h) <| endRuns h
    · split
      · exact refreshAllConv <| forBelow (fun _ _ h => (by
          split
          · exact reloadTable h
          · exact reloadTable h)) <| endRuns h
      · split
        · split
          · exact forBelow (fun _ _ h => forBelow (fun _ _ h => withPreds h) h) <| endRuns h
          · exact withPreds <| endRuns h
        · exact endRuns h

theorem calMeets {m : ℕ} {f : State → State} (hf : ∀ {t}, Evolves s t → Evolves s (f t)) (h : Evolves s t) :
    Evolves s (Machine.calMeets m f t) := by
  unfold Machine.calMeets
  refine ite (hf <| when sramFix h) ?_
  have hmeets : Evolves s (Machine.sramMeets 0x01D00000 0x00100000 t) := sramMeets h
  exact reinitSorrel (t := { Machine.sramMeets 0x01D00000 0x00100000 t with badWords := _ }) hmeets

theorem reinitDo {k i : ℕ} (h : Evolves s t) : Evolves s (Machine.reinitDo k i t) :=
  ite (reinitCore h) (ite (reinitPort h) (ite (engReinitS h) (ite (reinitLink h) (ite (reinitTeasel h) (reinitSorrel h)))))

theorem hookReinit {ones old new : Word} (h : Evolves s t) : Evolves s (Machine.hookReinit ones old new t).2 := by
  unfold Machine.hookReinit
  dsimp only
  split
  · exact h
  · split
    · exact h
    · exact withReinits <| reinitDo h

theorem reinitCompleteS {ok : Bool} {j : ℕ} (h : Evolves s t) : Evolves s (Machine.reinitCompleteS ok j t) := by
  unfold Machine.reinitCompleteS
  split
  · exact h
  · exact ite h (ite (ite h (put <| put <| withReinits h)) (ite (faultReport <| put <| put <| withReinits h) h))

theorem resetChip {n : ℕ} (h : Evolves s t) : Evolves s (Machine.resetChip n t) :=
  loadCount <| setChip <| forBelow (fun _ _ h => put h) <| forList (fun _ _ h => when (fun h => cdState <| when tsSet h) h) <| forList
    (fun _ _ h => setPort h) <| forBelow (fun _ _ h => refreshOos <| resetHalf <| resetHalf h) <| refreshTop <| withParBad <| forList
    (fun _ _ h => setLnk <| clearRegs h) <| forList (fun _ _ h => clearRegs h) <| clearRegs <| clearRegs <| clearRegs <| loseChip h

theorem chipletReinit {n : ℕ} (h : Evolves s t) : Evolves s (Machine.chipletReinit n t) :=
  ite h (refreshLevel <| forBelow (fun _ _ h => bringUpCore h) <| resetChip <| withChipReinit <| put h)

theorem chipletReinitDoneS {n : ℕ} {ok : Bool} (h : Evolves s t) : Evolves s (Machine.chipletReinitDoneS n ok t) :=
  ite h (ite (refreshLevel <| masterChip <| loadCount <| put <| setChip <| put <| withChipReinit <| put h) (ite (faultReport <| loseChip <|
    put <| withChipReinit <| put h) h))

theorem rstCtrlWrite {v : ℕ} (h : Evolves s t) : Evolves s (Machine.rstCtrlWrite v t) :=
  ite (warmReset h) (ite (softCold h) (ite (chipletReinit h) h))

theorem hookEdition {o : ℕ} {old new : Word} (h : Evolves s t) : Evolves s (Machine.hookEdition o old new t).2 := iteSnd h (log <| put h)

theorem bootSramTestDoneS {bad : ℕ} (h : Evolves s t) : Evolves s (Machine.bootSramTestDoneS bad t) :=
  ite h <| emit <| forBelow (fun _ _ h => when membankS h) <| dropMem h

theorem bootCalLoadedS {answers : Bool} (h : Evolves s t) : Evolves s (Machine.bootCalLoadedS answers t) :=
  ite h (forBelow (fun _ _ h => trimRefresh h) <| loadCalibration <| withBoot h)

theorem imageEdition {ed : ℕ} (h : Evolves s t) : Evolves s (Machine.imageEdition ed t) :=
  ite h (ite (lockViolation h) (ite (log <| put h) (log <| put h)))

theorem loadSlot {k : ℕ} (h : Evolves s t) : Evolves s (Machine.loadSlot k t) :=
  imageEdition <| put <| ite (forList (fun _ _ h => ite h (setByte h)) <| when put h) (setBytes <| forList (fun _ _ h => ite h (setByte
    h)) <| when put h)

theorem slotBad {k : ℕ} (h : Evolves s t) : Evolves s (Machine.slotBad k t) := by
  have hload {u : State} {a : ℕ} {bs : List Byte} (h : Evolves s u) : Evolves s (if u.bankLost 0 then u else u.setBytes a bs) :=
    ite h (setBytes h)
  have hvoid {u : State} {n m : ℕ} (h : Evolves s u) : Evolves s (if u.bankLost 0 then u else Machine.forBelow n (fun i s =>
      s.setWord (128 * (m + i)) (s.word (128 * (m + i)) &&& 0xFFFFFFFE#32)) u) := ite h (forBelow (fun _ _ h => setWord h) h)
  exact put <| hvoid <| hload <| clearMem h

theorem bootImageLoadedS {answers : Bool} (h : Evolves s t) : Evolves s (Machine.bootImageLoadedS answers t) := by
  have hanswer : Evolves s (if answers then { t with boot := .cores } else Machine.nvmEnded .silent { t with boot := .cores }) :=
    ite (withBoot h) (nvmEnded <| withBoot h)
  unfold Machine.bootImageLoadedS
  refine ite h ?_
  dsimp only
  generalize (if answers then _ else _ : State) = u at *
  refine log <| ite (put hanswer) ?_
  split
  · exact loadSlot <| forList (fun _ _ h => slotBad h) <| put hanswer
  · exact forList (fun _ _ h => slotBad h) <| put hanswer

theorem bootCoreBringupS (h : Evolves s t) : Evolves s (Machine.bootCoreBringupS t) :=
  ite h (forBelow (fun _ _ h => ite h (bringUpCore h)) <| withBoot h)

theorem countRefusal (h : Evolves s t) : Evolves s (Machine.countRefusal t) := raise <| put <| bump h

theorem snapMeets {a : ℕ} (h : Evolves s t) : Evolves s (Machine.snapMeets a t) := ite (sramMeets h) h

theorem mbSnap {o a : ℕ} (h : Evolves s t) : Evolves s (Machine.mbSnap o a t).2 := by
  unfold Machine.mbSnap
  split
  · exact h
  · exact iteSnd (countRefusal h) (iteSnd h (snapMeets h))

theorem mbSubmit {o q size : ℕ} {data : SMap Word} (h : Evolves s t) : Evolves s (Machine.mbSubmit o q size data t).2 :=
  iteSnd h (submitBytes h)

theorem mbTake {o q : ℕ} (h : Evolves s t) : Evolves s (Machine.mbTake o q t).2 := by
  have htake : Evolves s (Machine.takeS q (t.classOf o) t).2.2 := takeS h
  unfold Machine.mbTake
  dsimp only
  split
  · exact htake
  · exact htake

theorem mbRequest {o : ℕ} {v : Word} (h : Evolves s t) : Evolves s (Machine.mbRequest o v t) :=
  ite (ite h (setOrg h)) (ite (setOrg h) (setOrg <| iteSnd (mbSnap h) (iteSnd (mbSubmit h) (iteSnd (mbTake h) h))))

theorem mailboxCompleteS {o : ℕ} (h : Evolves s t) : Evolves s (Machine.mailboxCompleteS o t) := by
  unfold Machine.mailboxCompleteS
  dsimp only
  split
  · exact h
  · exact ite h (setOrg h)

theorem mailboxRead {o off : ℕ} (h : Evolves s t) : Evolves s (Machine.mailboxRead o off t).2 :=
  iteSnd h (iteSnd (setOrg h) (iteSnd h (iteSnd h (iteSnd h h))))

theorem mailboxWrite {o off : ℕ} {v : Word} (h : Evolves s t) : Evolves s (Machine.mailboxWrite o off v t) :=
  ite (mbRequest h) (ite (setOrg h) h)

theorem clearBits {a m : ℕ} (h : Evolves s t) : Evolves s (Machine.clearBits a m t) := setReg h

theorem readReg {r : RegAt} {a : ℕ} (h : Evolves s t) : Evolves s (Machine.readReg r a t).2 :=
  iteSnd h (iteSnd h (when bump <| ite h (clearBits h)))

theorem writeHook {o : ℕ} {r : RegAt} {m old new : Word} (h : Evolves s t) : Evolves s (Machine.writeHook o r m old new t).2 := by
  unfold Machine.writeHook
  dsimp only
  split
  · exact iteSnd h (hookEdition h)
  · exact hookReinit h
  · exact hookWdogCfg h
  · exact hookWdogKick h
  · exact hookLg h
  · exact hookLg h
  · exact hookLg h
  · exact hookXipCache h
  · exact iteSnd (withTansyUnrel <| put h) (iteSnd h (withTansyUnrel h))
  · exact hookRefCfg h
  · exact h
  · exact hookRefFreq h
  · exact hookRefFreq h
  · exact hookTbSlew h
  · exact hookEvRoute h
  · exact hookCoreCtrl h
  · exact hookLdCfg h
  · exact iteSnd (captureCommit h) h
  · exact hookSorCtrl h
  · exact hookSorReq h
  · exact hookSmCfg h
  · exact hookSmGpio h
  · exact hookSmTime h
  · exact hookSmCmd h
  · exact h
  · exact hookRyGcfg h
  · exact hookRyCfg h
  · exact hookRacc h
  · exact hookFwd h
  · exact hookFwd h
  · exact hookFwd h
  · exact hookWtCtrl h
  · exact iteSnd (engReinitS h) h
  · exact hookTsIn h
  · exact hookTsCmd h
  · exact hookRingCfg h
  · exact ringRelS h
  · exact hookPortCfg h
  · exact iteSnd (capturePort h) h
  · exact hookPortCeil h
  · exact h
  · exact h
  · exact hookPortTrim h
  · exact hookQdCtrl h
  · exact hookQdLen h
  · exact h

theorem groupWritten (h : Evolves s t) : Evolves s (Machine.groupWritten t) :=
  forBelow (fun _ _ h => refreshGroup h) <| forList (fun _ _ h => skewRefresh h) h

theorem afterWrite {r : RegAt} {old : Word} (h : Evolves s t) : Evolves s (Machine.afterWrite r old t) := by
  unfold Machine.afterWrite
  dsimp only
  split
  · exact groupWritten h
  · exact groupWritten h
  · exact groupWritten h
  · exact groupWritten h
  · exact ite (cdlyEnded <| cdlyHiWritten h) (cdlyHiWritten h)
  · exact smCfgWritten h
  · exact smCfgWritten h
  · exact sspCfgWritten h
  · exact ryCfgWritten h
  · exact engCfgWritten h
  · exact refreshPort h
  · exact portTrimWritten h
  · exact skewRefresh h
  · exact cdInputCheck h
  · exact cdInputCheck h
  · exact checkStarve <| ite (queueEnabledRy h) h
  · exact checkStarve h
  · exact h

theorem rsvdViolation {o a : ℕ} {old v : Word} (h : Evolves s t) : Evolves s (Machine.rsvdViolation o a old v t) := log <| put h

theorem hwoViolation {o a : ℕ} {old v : Word} (h : Evolves s t) : Evolves s (Machine.hwoViolation o a old v t) := log <| put h

theorem violations {o : ℕ} {r : RegAt} {a : ℕ} {held v : Word} (h : Evolves s t) : Evolves s (Machine.violations o r a held v t) :=
  when hwoViolation <| when (fun h => ite (put h) (rsvdViolation h)) <| when lockViolation h

theorem directWrite {o : ℕ} {r : RegAt} {a : ℕ} {v : Word} {bad : Option Word} (h : Evolves s t) : Evolves s (Machine.directWrite o r a
    v t bad) :=
  ite (afterWrite <| setReg <| writeHook <| when log <| violations h) (setReg <| when log <| violations h)

theorem pairFail {o a code : ℕ} {v w : Word} (h : Evolves s t) : Evolves s (Machine.pairFail o a code v w t) :=
  log <| raise <| bump <| put <| put h

theorem dropPair {o : ℕ} (h : Evolves s t) : Evolves s (Machine.dropPair o t) := setOrg h

theorem pairTick {o a : ℕ} {write : Bool} {v : Word} (h : Evolves s t) : Evolves s (Machine.pairTick o a write v t) := by
  unfold Machine.pairTick
  split
  · exact h
  · exact ite (pairFail <| dropPair h) (ite h (setOrg h))

theorem pairApply {r : RegAt} {a : ℕ} {v : Word} (h : Evolves s t) : Evolves s (Machine.pairApply r a v t) := by
  unfold Machine.pairApply
  dsimp only
  split
  · exact rstCtrlWrite h
  · exact portMenS <| setReg h
  · exact bootCtrlWrite h
  · exact epochCtrlWrite h
  · exact nvmCtrlWrite h
  · exact wtEvict <| setReg h
  · exact setReg h

theorem pairRsvd {o : ℕ} {r : RegAt} {a : ℕ} {v : Word} (h : Evolves s t) : Evolves s (Machine.pairRsvd o r a v t) := when rsvdViolation h

theorem pairComplete {o : ℕ} {r : RegAt} {a : ℕ} {v : Word} (h : Evolves s t) : Evolves s (Machine.pairComplete o r a v t) :=
  ite (pairRsvd <| lockViolation h) (ite (pairApply <| when log <| pairRsvd h) (pairApply <| log <| pairRsvd h))

theorem thawed {a : ℕ} (h : Evolves s t) : Evolves s (Machine.thawed a t) := by
  unfold Machine.thawed
  split
  · exact ite (engCfgWritten h) (ite (checkStarve <| queueOpens h) h)
  · exact h

theorem restoreParity {a : ℕ} (h : Evolves s t) : Evolves s (Machine.restoreParity a t) := withParBad h

theorem frozenPair {o : ℕ} {r : RegAt} {a : ℕ} {v : Word} (h : Evolves s t) : Evolves s (Machine.frozenPair o r a v t) :=
  ite (ite (pairComplete h) (discardFrozen h)) (ite (ite (pairComplete <| restoreParity h) (log <| setReg <| pairRsvd <| restoreParity
    h)) (thawed <| pairComplete <| restoreParity h))

theorem pairWrite {o : ℕ} {r : RegAt} {a : ℕ} {v : Word} (h : Evolves s t) : Evolves s (Machine.pairWrite o r a v t) := by
  unfold Machine.pairWrite
  dsimp only
  split
  · exact setOrg <| (by
      split
      · exact pairFail h
      · exact h)
  · split
    · exact pairFail h
    · split
      · exact pairFail <| dropPair h
      · split
        · exact pairFail <| dropPair h
        · split
          · exact ite (frozenPair <| dropPair h) (pairComplete <| dropPair h)
          · exact dropPair h

theorem aliasWrite {o : ℕ} {r : RegAt} {a view : ℕ} {v : Word} (h : Evolves s t) : Evolves s (Machine.aliasWrite o r a view v t) :=
  ite (pairFail h) (trans (ite (iteSnd (when lockViolation h) (writeHook <| when lockViolation h)) (setReg <| iteSnd (when lockViolation
    h) (writeHook <| when lockViolation h))) <| trans (when log <| ite (ite refl (clearBits refl)) refl) <| ite refl (afterWrite refl))

theorem frozenDiscard {o : ℕ} {r : RegAt} {a : ℕ} {v : Word} (h : Evolves s t) : Evolves s (Machine.frozenDiscard o r a v t) :=
  ite (discardFrozen h) (violations h)

theorem frozenAlias {o : ℕ} {r : RegAt} {a view : ℕ} {v : Word} (h : Evolves s t) : Evolves s (Machine.frozenAlias o r a view v t) :=
  ite (aliasWrite <| when lockViolation h) (ite (discardFrozen <| when lockViolation h) (when lockViolation h))

theorem frozenWrite {o : ℕ} {r : RegAt} {a : ℕ} {v : Word} (h : Evolves s t) : Evolves s (Machine.frozenWrite o r a v t) :=
  ite (frozenDiscard h) (ite (when log <| setReg <| violations <| restoreParity h) (thawed <| directWrite <| restoreParity h))

theorem refuseAccess {o a : ℕ} {write : Bool} {v : Word} (h : Evolves s t) : Evolves s (Machine.refuseAccess o a write v t) := by
  unfold Machine.refuseAccess
  exact when log <| countRefusal <| (by
    split
    · exact ite (dropPair h) h
    · exact h)

theorem reservedWrite {o a : ℕ} {v : Word} (h : Evolves s t) : Evolves s (Machine.reservedWrite o a v t) := rsvdViolation h

theorem ctxWrite {o a off : ℕ} {v : Word} (h : Evolves s t) : Evolves s (Machine.ctxWrite o a off v t) :=
  ite (log h) (trans (withBadWordsEcc <| setWord h) <| when log <| ite refl (withCtxBad refl))

theorem ctxRead {off : ℕ} (h : Evolves s t) : Evolves s (Machine.ctxRead off t).2 :=
  iteSnd h (iteSnd (withFreeCtr <| sramMeets h) (sramFix h))

theorem registerWrite {o a : ℕ} {v : Word} (h : Evolves s t) : Evolves s (Machine.registerWrite o a v t).2 := by
  have halias {b : Bool} {r : RegAt} {x view : ℕ} :
      Evolves s ((if b then Machine.frozenAlias else Machine.aliasWrite) o r x view v t) := by
    split
    · exact frozenAlias h
    · exact aliasWrite h
  unfold Machine.registerWrite
  dsimp only
  split
  · exact reservedWrite h
  · exact iteSnd (refuseAccess h) <| iteSnd (log h) <| iteSnd halias <| iteSnd (pairWrite h) <| iteSnd (frozenWrite h) (directWrite h)

theorem vetchWrite {o a : ℕ} {v : Word} (h : Evolves s t) : Evolves s (Machine.vetchWrite o a v t).2 := by
  unfold Machine.vetchWrite
  split
  · exact h
  · split
    · exact iteSnd h (iteSnd (refuseAccess h) (ite (mailboxWrite h) h))
    · dsimp only
      split
      · exact refuseAccess <| pairTick h
      · split
        · exact reservedWrite <| pairTick h
        · split
          · exact refuseAccess <| pairTick h
          · split
            · exact msixTableWrite <| pairTick h
            · exact ctxWrite <| pairTick h
            · exact iteSnd (pairTick h) (registerWrite <| pairTick h)

theorem registerRead {a : ℕ} (h : Evolves s t) : Evolves s (Machine.registerRead a t).2 := by
  unfold Machine.registerRead
  dsimp only
  split
  · exact h
  · exact iteSnd h (iteSnd h (readReg h))

/-- The mailbox branch of `Machine.vetchRead`, with the read and its bounds left open: a numeral bound would be evaluated. -/
theorem mailboxEnds {r : Word × State} {b c d : Prop} [Decidable b] [Decidable c] [Decidable d] {u : State}
    (h : Evolves s t) (hrefused : Evolves s u) (hread : Evolves s r.2) :
    Evolves s (if b then (none, t) else if c then (none, u) else
      if d then (match r with | (w, t) => (some w, t)) else ((some 0 : Option Word), t)).2 :=
  iteSnd h <| iteSnd hrefused <| iteSnd hread h

theorem vetchRead {o a : ℕ} (h : Evolves s t) : Evolves s (Machine.vetchRead o a t).2 := by
  have htick : Evolves s (Machine.pairTick o a false 0 t) := pairTick h
  unfold Machine.vetchRead
  refine iteSnd h <| iteSnd ?_ ?_
  · generalize 0x41000 = c, a - 0x40000 = off
    generalize hr : Machine.mailboxRead o off t = r
    exact mailboxEnds h (refuseAccess h) (hr ▸ mailboxRead h)
  generalize Machine.pairTick o a false 0 t = u at *
  refine iteSnd (refuseAccess htick) <| iteSnd htick <| iteSnd (refuseAccess htick) ?_
  split
  · exact htick
  · exact htick
  · next off _ _ _ =>
      have hread : Evolves s (Machine.ctxRead off u).2 := ctxRead htick
      generalize Machine.ctxRead off u = r at *
      exact hread
  · have hread : Evolves s (Machine.registerRead a u).2 := registerRead htick
    generalize Machine.registerRead a u = r at *
    exact hread

theorem cfgparScrubS {a : ℕ} {v : Word} (h : Evolves s t) : Evolves s (Machine.cfgparScrubS a v t) := by
  unfold Machine.cfgparScrubS
  split
  · exact h
  · exact ite h (ite (ite h (bump h)) (ite h (thawed <| withParBad <| log <| raise <| put <| put <| put h)))

theorem tansyLose (h : Evolves s t) : Evolves s (Machine.tansyLose t) := put <| bump h

theorem tansyPut {r : LogRec} (h : Evolves s t) : Evolves s (Machine.tansyPut r t) :=
  ite (ite (withTansyUnrel <| put <| put <| withTansySeq <| put <| store h) (withTansyUnrel <| withTansySeq <| put <| store h)) (ite
    (withTansyUnrel <| withTansySeq <| put <| store h) (put <| bump <| withTansySeq <| put <| store h))

theorem tansyStoreS (h : Evolves s t) : Evolves s (Machine.tansyStoreS t) := by
  unfold Machine.tansyStoreS
  split
  · exact h
  · split
    · split
      · exact h
      · exact tansyLose <| withTansyQTansyGap h
    · split
      · split
        · exact h
        · exact tansyLose <| withTansyQTansyGap h
      · split
        · exact raise <| tansyPut <| withTansyGap h
        · split
          · exact h
          · exact tansyPut <| withTansyQ h

theorem bar0Access {a : ℕ} {write : Bool} {v : Word} (h : Evolves s t) : Evolves s (Machine.bar0Access a write v t) :=
  ite (vetchWrite h) (emit <| vetchRead h)

theorem bar0RequestS {r : BarRequest} (h : Evolves s t) : Evolves s (Machine.bar0RequestS r t) :=
  ite h (ite (forBelow (fun _ _ h => bar0Access h) h) (ite (barRefused h) (emit <| barRefused h)))

theorem handleBad {off n : ℕ} (h : Evolves s t) : Evolves s (Machine.handleBad off n t) :=
  forList (fun _ _ h => mirrorMeets h) <| sramMeets h

theorem bar2ReadS {off len : ℕ} (h : Evolves s t) : Evolves s (Machine.bar2ReadS off len t) :=
  ite h (ite (emit <| barRefused h) (ite (emit <| handleBad h) (forList (fun _ _ h => emit h) <| sramFix h)))

theorem malformedTlp (h : Evolves s t) : Evolves s (Machine.malformedTlp t) := withCfg h

theorem bar2WriteS {off : ℕ} {bs : List (Option Byte)} (h : Evolves s t) : Evolves s (Machine.bar2WriteS off bs t) := by
  unfold Machine.bar2WriteS
  split
  · exact h
  · split
    · exact malformedTlp h
    · split
      · exact logEvent <| barRefused h
      · split
        · exact h
        · exact programLoad h

theorem sspWord {r : Bool × List Byte} {bad : Bool} {w : Word} {out : Out} (h : Evolves s t) : Evolves s (Machine.sspWord r bad w out
    t).2 :=
  emit <| emit <| emit h

theorem sspReadWords {f : SspFrame} {n : ℕ} (h : Evolves s t) : Evolves s (Machine.sspReadWords f n t).2 :=
  List.foldlRecOn (motive := fun r : (Bool × List Byte) × State => Evolves s r.2) _ _ h fun _ hr _ _ => sspWord <| vetchRead hr

theorem sspMemWords {f : SspFrame} {n : ℕ} (h : Evolves s t) : Evolves s (Machine.sspMemWords f n t).2 :=
  List.foldlRecOn (motive := fun r : (Bool × List Byte) × State => Evolves s r.2) _ _ h fun _ hr _ _ =>
    iteSnd (sspWord <| handleBad hr) (sspWord <| sramFix hr)

theorem sspWriteWords {f : SspFrame} {n : ℕ} (h : Evolves s t) : Evolves s (Machine.sspWriteWords f n t).2 :=
  List.foldlRecOn (motive := fun r : Bool × State => Evolves s r.2) _ _ h fun _ hr _ _ => vetchWrite hr

theorem sspMemWrite {f : SspFrame} {n : ℕ} (h : Evolves s t) : Evolves s (Machine.sspMemWrite f n t) := ite h (programLoad h)

theorem streamItems {q size n first : ℕ} {l : List (List Byte)} (h : Evolves s t) :
    Evolves s (Machine.streamItems q size l n first t).2.2.2 := by
  induction l generalizing n first t with
  | nil => exact h
  | cons b bs ih =>
    have hone : Evolves s (Machine.submitBytes q (t.classOf oSsp) b t).2.2 := submitBytes h
    unfold Machine.streamItems
    dsimp only
    split
    · exact ih hone
    · exact hone

theorem sspStreamDo {f : SspFrame} {words : ℕ} (h : Evolves s t) : Evolves s (Machine.sspStreamDo f words t).2 :=
  iteSnd h (when put <| setWide <| put <| put <| put <| streamItems h)

theorem sspReject {c : ℕ} (h : Evolves s t) : Evolves s (Machine.sspReject c t) := logEvent <| raise <| bump <| put <| put h

theorem sspGive {f : SspFrame} {n : ℕ} (h : Evolves s t) : Evolves s (Machine.sspGive f n t).2 :=
  iteSnd (sspReadWords h) (iteSnd (sspMemWords h) h)

theorem sspApply {f : SspFrame} {n : ℕ} (h : Evolves s t) : Evolves s (Machine.sspApply f n t).2 :=
  iteSnd (sspWriteWords h) (iteSnd (sspStreamDo h) (iteSnd (sspMemWrite h) h))

theorem sspEnd {f : SspFrame} {rej perm : Bool} {body : State → (Bool × Bool) × State}
    (hf : ∀ {t}, Evolves s t → Evolves s (body t).2) (h : Evolves s t) : Evolves s (Machine.sspEnd f rej perm body t) :=
  have hbody : Evolves s (body (t.when _ (·.emit (.srdy false)))).2 := hf <| when emit h
  ite hbody <| when emit <| when put <| put <| put <| bump <| when sspReject hbody

theorem sspFrame {want : ℕ} {f : SspFrame} (h : Evolves s t) : Evolves s (Machine.sspFrame want f t) := by
  unfold Machine.sspFrame
  dsimp only
  refine ite h ?_
  split
  · exact sspEnd (fun h => sspReject <| sspApply h) <| emit <| sspGive <| when emit h
  · exact sspEnd sspApply <| emit <| sspGive <| when emit h

theorem rxRreqS {l : ℕ} {f : RyFrame} (h : Evolves s t) : Evolves s (Machine.rxRreqS l f t) :=
  receive (fun h => routed (fun h => ite (sendFrame <| vetchWrite h) (sendFrame <| vetchRead h)) h) h

theorem engineWrite {e a : ℕ} {v : Word} (h : Evolves s t) : Evolves s (Machine.engineWrite e a v t).2 :=
  iteSnd h (ite (handlerFault <| vetchWrite h) (vetchWrite h))

theorem engineRead {e a : ℕ} (h : Evolves s t) : Evolves s (Machine.engineRead e a t).2 := by
  unfold Machine.engineRead
  refine iteSnd h <| iteSnd (handlerFault h) ?_
  have hread : Evolves s (Machine.vetchRead e a t).2 := vetchRead h
  split
  · next heq => exact of_eq heq hread
  · next heq => exact handlerFault <| of_eq heq hread

theorem listApply {x : ℕ × Word} (h : Evolves s t) : Evolves s (Machine.listApply x t) := ite (put h) (vetchWrite h)

theorem bootListApplyS (h : Evolves s t) : Evolves s (Machine.bootListApplyS t) := by
  unfold Machine.bootListApplyS
  refine ite h <| checkStarveAll <| forBelow (fun _ _ h => ite h (masterChip h)) <| refreshLevel <| setLevel ?_
  exact List.foldlRecOn (motive := Evolves s) _ _ h fun _ hr _ _ => listApply hr

theorem originWrite {o a : ℕ} {v : Word} (h : Evolves s t) : Evolves s (Machine.originWrite o a v t).2 :=
  iteSnd h (iteSnd (engineWrite h) (vetchWrite h))

theorem bankTick (h : Evolves s t) : Evolves s (Machine.bankTick t) := forList (fun _ _ h => membankS h) h

theorem tick (h : Evolves s t) : Evolves s (Machine.tick t) :=
  ite h (bankTick <| smTick <| replayTurns <| retrain <| engReturns <| chanBoundary <| withClock h)

theorem readOut {o a : ℕ} (h : Evolves s t) : Evolves s (Machine.readOut o a t) := ite h (emit <| iteSnd (engineRead h) (vetchRead h))

theorem dropFrozenCommit {c k : ℕ} (h : Evolves s t) : Evolves s (Machine.dropFrozenCommit c k t) :=
  ite (discardFrozen <| dropPending h) h

theorem halfWordApply {c k : ℕ} (h : Evolves s t) : Evolves s (Machine.halfWordApply c k t) := ite (dropFrozenCommit h) (halfWordApplyS h)

theorem halfReady {c k : ℕ} (h : Evolves s t) : Evolves s (Machine.halfReady c k t) :=
  ite (refreshPorts <| halfReadyS <| ite (dropFrozenCommit h) h) h

theorem hopWindowOpen {c : ℕ} (h : Evolves s t) : Evolves s (Machine.hopWindowOpen c t) := by
  unfold Machine.hopWindowOpen
  split
  · split
    · exact h
    · exact ite h (discardFrozen <| dropAdmitted h)
  · exact hopWindowOpenS h

theorem hopSwitch {c : ℕ} (h : Evolves s t) : Evolves s (Machine.hopSwitch c t) := by
  unfold Machine.hopSwitch
  split
  · split
    · exact h
    · exact ite h (ite (takeHop h) (discardFrozen <| closeWindow <| takeHop h))
  · exact hopSwitchS h

theorem dropFrozenHop {c : ℕ} {cls : HopClass} (h : Evolves s t) : Evolves s (Machine.dropFrozenHop c cls t) := by
  unfold Machine.dropFrozenHop
  split
  · exact h
  · exact ite (takeHop h) (discardFrozen <| takeHop h)

theorem hopInplace {c : ℕ} (h : Evolves s t) : Evolves s (Machine.hopInplace c t) := ite (dropFrozenHop h) (hopInplaceS h)

theorem relockStart {c : ℕ} (h : Evolves s t) : Evolves s (Machine.relockStart c t) := ite (dropFrozenHop h) (relockStartS h)

theorem relockWordLoad {c : ℕ} (h : Evolves s t) : Evolves s (Machine.relockWordLoad c t) := by
  unfold Machine.relockWordLoad
  split
  · exact ite (refreshPorts <| leaveUnmoved <| endRelock <| discardFrozen h) (relockWordLoadS h)
  · exact h

theorem portWordApply {p : ℕ} (h : Evolves s t) : Evolves s (Machine.portWordApply p t) := by
  unfold Machine.portWordApply
  split
  · split
    · exact discardFrozen <| put <| setPort h
    · exact h
  · exact portWordApplyS h

theorem cdlyTimeout {l : ℕ} (h : Evolves s t) : Evolves s (Machine.cdlyTimeout l t) := ite (cdlyEnded <| cdlyTimeoutS h) (cdlyTimeoutS h)

theorem clearChipStamps {n : ℕ} (h : Evolves s t) : Evolves s (Machine.clearChipStamps n t) := forList (fun _ _ h => setLnk h) h

theorem strobeAll {latched : List (ℤ × ℤ)} (h : Evolves s t) : Evolves s (Machine.strobeAll latched t) :=
  alignmentStrobeS <| forList (fun _ _ h => clearChipStamps <| restartRuns <| endTimebase h) h

theorem epochLoadAll (h : Evolves s t) : Evolves s (Machine.epochLoadAll t) := by
  unfold Machine.epochLoadAll
  split
  · exact ite (afterEpochLoad <| epochLoadS <| forBelow (fun _ _ h => ite h (restartRuns <| endTimebase h)) h) h
  · exact h

end Evolves
end Sys2Proof.Proofs

namespace Sys2Proof.Proofs
set_option Elab.async false

open Sys2Proof Sys2Proof.Machine Sys2Proof.Claims

/-! ## Every command and every tick -/

/-- A command completes, and keeps the four facts. -/
def Ends (s : State) (r : Res) : Prop := ∃ t, r = .next t ∧ Evolves s t

namespace Ends

open Evolves

variable {s t : State} {e d a b : ℕ}

theorem next (h : Evolves s t) : Ends s (.next t) := ⟨t, rfl, h⟩

theorem act {f : State → State} (h : Evolves s (f s)) : Ends s (Machine.act f s) := next <| ite refl h

theorem actOn {n : ℕ} {f : State → State} (h : Evolves s (f s)) : Ends s (Machine.actOn n f s) := next <| ite refl h

theorem originWrite {o : ℕ} {v : Word} (h : Evolves s t) : Evolves s (Machine.originWrite o a v t).2 :=
  iteSnd h <| iteSnd (engineWrite h) (vetchWrite h)

theorem busWrite {o : Origin} {v : Word} : Ends s (Machine.busWrite o a v s) := next <| originWrite refl

theorem busPair {o : Origin} {v : Word} : Ends s (Machine.busPair o a v s) := by
  unfold Machine.busPair
  dsimp only
  split
  · exact next <| originWrite refl
  · exact next <| originWrite <| originWrite refl

theorem atomicOp {e : EngineIx} {d a b : GReg} {k : ℕ} {f : Dword → Dword → Dword → Dword} :
    Ends s (Machine.atomicOp e d a b k f s) := by
  refine next <| runCelil (fun h => ?_) refl
  dsimp only
  split
  · exact handlerFault h
  · exact ite (handlerFault <| sramMeets h) (writeNext <| store <| sramFix h)

theorem execCAadd {e : EngineIx} {d a b : GReg} : Ends s (Machine.execCAadd e d a b s) := atomicOp

theorem execCAswp {e : EngineIx} {d a b : GReg} : Ends s (Machine.execCAswp e d a b s) := atomicOp

theorem execCAcas {e : EngineIx} {d a b : GReg} : Ends s (Machine.execCAcas e d a b s) := atomicOp

theorem execCLd {e : EngineIx} {w : Fin 4} {u : Bool} {d a : GReg} {off : BitVec 13} :
    Ends s (Machine.execCLd e w u d a off s) := by
  refine next <| runCelil (fun h => ?_) refl
  dsimp only
  split
  · exact handlerFault <| ite (sramMeets h) h
  · exact xipMiss h
  · exact writeNext <| ite (sramFix h) (xipTouch h)

theorem execCSt {e : EngineIx} {w : Fin 4} {d a : GReg} {off : BitVec 13} : Ends s (Machine.execCSt e w d a off s) := by
  refine next <| runCelil (fun h => ?_) refl
  dsimp only
  split
  · exact handlerFault h
  · exact advance <| store h

theorem execCRld {e : EngineIx} {d a : GReg} {imm : BitVec 16} : Ends s (Machine.execCRld e d a imm s) := by
  refine next <| runCelil (fun {t} h => ?_) refl
  have hread : Evolves s (Machine.engineRead e (t.regAddr e a imm) t).2 := engineRead h
  generalize Machine.engineRead e (t.regAddr e a imm) t = r at *
  obtain ⟨w, u⟩ := r
  cases w with
  | none => exact hread
  | some w => exact writeNext hread

theorem execCWrd {e : EngineIx} {a : GReg} {dest : WrdDest} : Ends s (Machine.execCWrd e a dest s) := by
  refine next <| runCelil (fun h => ite (handlerFault h) ?_) refl
  split
  · exact handlerFault h
  · next w _ =>
      refine ite (handlerFault h) <| ite (handlerFault <| countRefusal h) ?_
      cases dest with
      | pair c => exact writeNext <| setGr <| iteSnd (withFreeCtr h) h
      | time k => exact advance <| setTr <| iteSnd (withFreeCtr h) h

theorem execCTake {e : EngineIx} {d b : GReg} : Ends s (Machine.execCTake e d b s) := by
  refine next <| runCelil (fun h => ?_) refl
  split
  · exact h
  · exact ite (handlerFault h) (writeNext <| setScratch h)

theorem execCTakeH {e : EngineIx} {d b q : GReg} : Ends s (Machine.execCTakeH e d b q s) := by
  refine next <| runCelil (fun {t} h => ite (handlerFault h) <| ite (handlerFault h) ?_) refl
  have htake : Evolves s (Machine.takeS (t.gr e q).toNat 2 t).2.2 := takeS h
  generalize Machine.takeS (t.gr e q).toNat 2 t = r at *
  obtain ⟨st, i, u⟩ := r
  cases i with
  | none => exact writeNext htake
  | some i => exact writeNext <| setScratch htake

theorem execStagingStallResume {e : EngineIx} : Ends s (Machine.execStagingStallResume e s) := by
  refine next ?_
  split
  · exact ite refl (dropLines <| actionOf <| setEngState <| setEng rfl refl)
  · exact refl

theorem execPutWaitEnd {e : EngineIx} : Ends s (Machine.execPutWaitEnd e s) := by
  refine next ?_
  split
  · exact ite refl (dropLines <| putNow <| setEngState <| setEng rfl refl)
  · exact refl

theorem execTwaitResume {e : EngineIx} : Ends s (Machine.execTwaitResume e s) := by
  refine next ?_
  split
  · exact ite (resume refl) refl
  · exact refl

theorem execCWaite {e : EngineIx} {d a b : GReg} {k : TReg} : Ends s (Machine.execCWaite e d a b k s) := by
  refine next <| runCelil (fun h => ite (handlerFault h) ?_) refl
  split
  · exact writeNext h
  · exact park h

theorem execWaiteResume {e : EngineIx} : Ends s (Machine.execWaiteResume e s) := by
  refine next ?_
  split
  · split
    · exact ite refl (setGr <| resume refl)
    · exact refl
  · exact refl

theorem execCCtxld {e : EngineIx} {a b : GReg} : Ends s (Machine.execCCtxld e a b s) :=
  next <| runCelil (fun h => ite (handlerFault h) <| ite (handlerFault h) <|
    ite (handlerFault <| ite h <| sramMeets h) <| advance <| setScratch <| sramFix h) refl

theorem execCCtxst {e : EngineIx} {a b : GReg} : Ends s (Machine.execCCtxst e a b s) :=
  next <| runCelil (fun h => ite (handlerFault h) <| ite (handlerFault h) <| ite (handlerFault h) <| ite (handlerFault h) <|
    advance <| withCtxBad <| store h) refl

theorem execCStatR {e : EngineIx} {d b a : GReg} : Ends s (Machine.execCStatR e d b a s) :=
  next <| runCelil (fun h => ite (handlerFault h) <| ite (handlerFault h) <|
    writeNext <| setScratch <| ite h <| sramMeets h) refl

theorem execCFenceW {e : EngineIx} {d : GReg} : Ends s (Machine.execCFenceW e d s) := by
  refine next <| runCelil (fun h => ?_) refl
  dsimp only
  split
  · exact writeNext <| releaseStaged h
  · exact setEng rfl <| releaseStaged h

theorem execFenceWResume {e : EngineIx} : Ends s (Machine.execFenceWResume e s) := by
  refine next ?_
  split
  · split
    · exact ite refl (writeNext <| setEng rfl refl)
    · exact refl
  · exact refl

theorem execCYield {e : EngineIx} {a : GReg} : Ends s (Machine.execCYield e a s) := by
  refine next <| runCelil (fun h => ?_) refl
  dsimp only
  split
  · exact engineFree <| bump <| returnItem <| releaseStaged h
  · exact h

/-- Every command completes and keeps the four facts. -/
theorem exec (c : Instr) (s : State) : Ends s (Machine.exec c s) := by
  cases c with
  | mailboxSubmit | mailboxTake | mailboxSnap | refFreqWrite | manSelWrite | tbSlewWrite | halfCommit | corePowerWrite
  | ldCfgWrite | portCommit | portCeilWrite | lgConfigWrite | portTrimWrite | tsRegArm | tsRegDisarm | ringCfgWrite | ringRelease
  | queueEnable | queueDisable | queueResume | queueDescWrite | engReinit | xipInvalidate | sorrelRequest | cdlyHiWrite
  | sorCtrlWrite | ryRoleWrite | wtApprove | wtDeny | wtReplay | fwdEntryWrite | raccGo | registerWrite | aliasSet | aliasClear
  | aliasToggle | pairOpen | pairedWrite | tansyRdWrite | smGo | smGpioWrite | editionSelect | wdogKick | wdogCfgWrite
  | reinitCore | reinitPort | reinitEngine | reinitLink | reinitTeaselGroup | reinitSorrel | refEnableWrite | engCfgWrite =>
    exact busWrite
  | mailboxComplete => exact act <| mailboxCompleteS refl
  | dispatch => exact act <| dispatchS refl
  | steal => exact act <| stealS refl
  | actionSend => exact act <| actionSendS refl
  | actionArrive => exact actOn <| actionArriveS refl
  | abortVerdictArrive => exact act <| abortVerdictArriveS refl
  | phaseApply => exact actOn <| phaseApplyS refl
  | portsetApply => exact actOn <| portsetApplyS refl
  | markApply => exact actOn <| markApplyS refl
  | armApply => exact actOn <| armApplyS refl
  | disarmApply => exact actOn <| disarmApplyS refl
  | stagingStallResume => exact execStagingStallResume
  | keepalive => exact act <| keepaliveS refl
  | chipletLost => exact act <| chipletLostS refl
  | controlDieLost => exact act <| controlDieLostS refl
  | asyncSpeedUpdate => exact act <| asyncSpeedUpdateS refl
  | membank => exact act <| membankS refl
  | refAbsent => exact act <| refAbsentS refl
  | freqMonitorWindow => exact act <| freqMonitorWindowS refl
  | refQualified => exact act <| refQualifiedS refl
  | revertTimer => exact act <| revertTimerS refl
  | switchoverFreeze => exact act <| switchoverFreezeS refl
  | switchoverClose => exact act <| switchoverCloseS refl
  | switchoverSettled => exact act <| switchoverSettledS refl
  | holdLimit => exact act <| holdLimitS refl
  | acquisitionComplete => exact act <| acquisitionCompleteS refl
  | alignmentStrobe => exact act <| strobeAll refl
  | replicaStart => exact act <| replicaStartS refl
  | epochArm | epochDisarm | portMenWrite | nvmStore | nvmErase | wtEvict | permLockSet | testModeWrite | rstWarmCmd | rstColdCmd
  | chipletReinit | bootErase | bootProgram | bootCommit => exact busPair
  | epochInEdge => exact act <| epochInEdgeS refl
  | epochMissing => exact act <| epochMissingS refl
  | epochLoad => exact act <| epochLoadAll refl
  | slewStart => exact act <| slewStartS refl
  | slewEnd => exact act <| slewEndS refl
  | halfWordApply => exact actOn <| halfWordApply refl
  | halfReady => exact actOn <| halfReady refl
  | ldWindowEnd => exact actOn <| ldWindowEndS refl
  | grossMonitorWindow => exact actOn <| grossMonitorWindowS refl
  | grossNoFeedback => exact actOn <| grossNoFeedbackS refl
  | bandSearchStep => exact actOn <| bandSearchStepS refl
  | hopWindowOpen => exact actOn <| hopWindowOpen refl
  | hopPrelockDone => exact actOn <| hopPrelockDoneS refl
  | hopPlacementDone => exact actOn <| hopPlacementDoneS refl
  | hopReadinessTest => exact actOn <| hopReadinessTestS refl
  | hopSwitch => exact actOn <| hopSwitch refl
  | postSwitchGuardFail => exact actOn <| postSwitchGuardFailS refl
  | hopInplace => exact actOn <| hopInplace refl
  | relockStart => exact actOn <| relockStart refl
  | relockWordLoad => exact actOn <| relockWordLoad refl
  | relockRelease => exact actOn <| relockReleaseS refl
  | relockTimeout => exact actOn <| relockTimeoutS refl
  | portWordApply => exact actOn <| portWordApply refl
  | markerPulse => exact actOn <| markerPulseS refl
  | ceilGuardWindow => exact actOn <| ceilGuardWindowS refl
  | holdLimitExpiry => exact actOn <| holdLimitExpiryS refl
  | failoverSpareLoad => exact actOn <| failoverSpareLoadS refl
  | failoverSearchDone => exact actOn <| failoverSearchDoneS refl
  | failoverPrelockDone => exact actOn <| failoverPrelockDoneS refl
  | failoverPlaced => exact actOn <| failoverPlacedS refl
  | skewMeanDone => exact actOn <| skewMeanDoneS refl
  | skewOffsetDone => exact actOn <| skewOffsetDoneS refl
  | skewTrimStep => exact actOn <| skewTrimStepS refl
  | teaselEdge => exact actOn <| teaselEdgeS refl
  | sampleTake => exact actOn <| sampleTakeS refl
  | measTimeout => exact actOn <| measTimeoutS refl
  | measDone => exact actOn <| measDoneS refl
  | recordStore => exact actOn <| recordStoreS refl
  | itemComplete => exact act <| itemCompleteS refl
  | quarantineDeferredMove => exact act <| quarantineDeferredMoveS refl
  | engineWdog => exact act <| engineWdogS refl
  | engFail => exact act <| engFailS refl
  | yieldEligible => exact act <| yieldEligibleS refl
  | qmLoadUpdate => exact act <| qmLoadUpdateS refl
  | cAdd | cSub | cAnd | cOr | cXor | cSll | cSrl | cSra | cSlt | cSltu | cMul | cMulhu | cDivu | cRemu | cAddi | cAndi | cOri
  | cXori | cSlli | cSrli | cSrai | cSlti | cLui | cTdiff => exact next <| runCelil writeNext refl
  | cLdi | cLdiU | cLdiH => exact next <| runCelil (fun h => advance <| setGr h) refl
  | cBeq | cBne | cBlt | cBge | cBltu | cBgeu => exact next <| runCelil (fun h => ite (jumpTo h) (advance h)) refl
  | cJal | cJalr | cJl => exact next <| runCelil jumpTo refl
  | cLds => exact next <| runCelil (fun h => ite (handlerFault h) (ite (handlerFault h) (writeNext h))) refl
  | cSts => exact next <| runCelil (fun h => ite (handlerFault h) (advance <| setScratch h)) refl
  | cLd => exact execCLd
  | cSt => exact execCSt
  | cRld => exact execCRld
  | cRst => exact next <| runCelil (fun h => ite (handlerFault <| vetchWrite h) (vetchWrite <| advance h)) refl
  | cWrd => exact execCWrd
  | cTake => exact execCTake
  | cTakeH => exact execCTakeH
  | cPut => exact next <| runCelil (fun h => ite (setEngState <| setEng rfl h) (putNow h)) refl
  | putWaitEnd => exact execPutWaitEnd
  | cAck | cNack => exact next <| runCelil endHandler refl
  | cTnow | cTadd | cTaddf | cTput | cTmov => exact next <| runCelil (fun h => advance <| setTr h) refl
  | cTget => exact next <| runCelil (fun h => writeNext <| setGr h) refl
  | cTwait => exact next <| runCelil (fun h => ite (advance h) (park h)) refl
  | twaitResume => exact execTwaitResume
  | cEvcnt => exact next <| runCelil (fun h => ite (handlerFault h) (writeNext h)) refl
  | cWaite => exact execCWaite
  | waiteResume => exact execWaiteResume
  | cCtxld => exact execCCtxld
  | cCtxst => exact execCCtxst
  | cHop => exact next <| runCelil hopOp refl
  | cPhase => exact next <| runCelil phaseOp refl
  | cPortset => exact next <| runCelil portsetOp refl
  | cMark => exact next <| runCelil markOp refl
  | cArm => exact next <| runCelil armOp refl
  | cDisarm => exact next <| runCelil disarmOp refl
  | cStatR => exact execCStatR
  | cStatE => exact next <| runCelil (fun h => ite (handlerFault h) (advance <| setTr h)) refl
  | cFence => exact next <| runCelil (fun h => advance <| releaseStaged h) refl
  | cFenceW => exact execCFenceW
  | fenceWResume => exact execFenceWResume
  | cYield => exact execCYield
  | cTrap | cHalt => exact next <| runCelil handlerFault refl
  | cHaltS => exact next <| runCelil (fun h => handlerFault <| log <| put h) refl
  | xipFillStart => exact act <| xipFillStartS refl
  | xipFillDone => exact act <| xipFillDoneS refl
  | xipFillFail => exact act <| xipFillFailS refl
  | lmsBlockEnd => exact actOn <| ite (calMeets lmsBlockEndS refl) refl
  | dtcBlockEnd => exact actOn <| ite (calMeets dtcBlockEndS refl) refl
  | trimBoundary => exact actOn <| trimBoundaryS refl
  | sorrelBackgroundStart => exact act <| sorrelBackgroundStartS refl
  | cdSyncTest => exact actOn <| cdSyncTestS refl
  | cdAgreementTest => exact actOn <| ite (calMeets cdAgreementTestS refl) refl
  | cdTimeout => exact actOn <| cdTimeoutS refl
  | skewAttemptTimeout => exact actOn <| skewAttemptTimeoutS refl
  | skewFailWaitEnd => exact actOn <| skewFailWaitEndS refl
  | cdlyTimeout => exact actOn <| cdlyTimeout refl
  | nvmAutoStore => exact act <| nvmAutoStoreS refl
  | nvmErasePhaseDone => exact act <| nvmErasePhaseDoneS refl
  | nvmBodyDone => exact act <| nvmBodyDoneS refl
  | nvmStoreDone => exact act <| nvmStoreDoneS refl
  | nvmEraseDone => exact act <| nvmEraseDoneS refl
  | ryrelTrained => exact actOn <| ryrelTrainedS refl
  | ryrelBlockLockLoss => exact actOn <| ryrelBlockLockLossS refl
  | helloSend => exact actOn <| helloSendS refl
  | rxHello => exact actOn <| rxHelloS refl
  | rxJoin => exact actOn <| rxJoinS refl
  | rxAdmit => exact actOn <| rxAdmitS refl
  | rxRefuse => exact actOn <| rxRefuseS refl
  | rxLeave => exact actOn <| rxLeaveS refl
  | rxReady => exact actOn <| rxReadyS refl
  | hbSend => exact actOn <| hbSendS refl
  | rxHb => exact actOn <| rxHbS refl
  | hbMiss => exact actOn <| hbMissS refl
  | ttSend => exact actOn <| ttSendS refl
  | rxTt => exact actOn <| rxTtS refl
  | servoPeriodEnd => exact actOn <| servoPeriodEndS refl
  | rxEpoch => exact actOn <| rxEpochS refl
  | epochArmRetry => exact act <| epochArmRetryS refl
  | lackSend => exact actOn <| lackSendS refl
  | rxLack => exact actOn <| rxLackS refl
  | rxLnak => exact actOn <| rxLnakS refl
  | reliableAckTimeout => exact actOn <| reliableAckTimeoutS refl
  | refuseRetryTimer => exact actOn <| refuseRetryTimerS refl
  | joinTimeout => exact actOn <| joinTimeoutS refl
  | forwarderTake => exact act <| forwarderTakeS refl
  | rxSubmit => exact actOn <| rxSubmitS refl
  | rxSubres => exact actOn <| rxSubresS refl
  | forwardResend => exact act <| forwardResendS refl
  | rxDone => exact actOn <| rxDoneS refl
  | rxDoneack => exact actOn <| rxDoneackS refl
  | rxResync => exact actOn <| rxResyncS refl
  | mirrorRetire => exact act <| mirrorRetireS refl
  | eventForward => exact act <| eventForwardS refl
  | rxEvent => exact actOn <| rxEventS refl
  | rxCdloss => exact actOn <| rxCdlossS refl
  | rxRreq => exact actOn <| rxRreqS refl
  | rxRrsp => exact actOn <| rxRrspS refl
  | raccTimeout => exact act <| raccTimeoutS refl
  | registerReadClear => exact next <| readOut refl
  | cfgparScrub => exact act <| cfgparScrubS refl
  | tansyStore => exact act <| tansyStoreS refl
  | sspStatus | sspRead | sspWrite | sspStream | sspMemread | sspMemwrite => exact act <| sspFrame refl
  | smFrameStart => exact act <| smFrameStartS refl
  | smDone => exact act <| smDoneS refl
  | bar0Request => exact act <| bar0RequestS refl
  | bar2Read => exact act <| bar2ReadS refl
  | bar2Write => exact act <| bar2WriteS refl
  | pcieReset k => cases k <;> exact act <| pcieResetS refl
  | pcieD3hot => exact act <| pcieD3hotS refl
  | eventRaise => exact act <| eventRaiseS refl
  | msixModerationEnd => exact act <| msixModerationEndS refl
  | msixUnmask => exact act <| msixUnmaskS refl
  | coldReset => exact next <| coldResetS refl
  | warmReset => exact act <| warmResetS refl
  | warmResetEnd => exact act <| warmResetEndS refl
  | chipletReinitDone => exact act <| chipletReinitDoneS refl
  | brownOut => exact next <| brownOutS refl
  | bootSramTestDone => exact act <| bootSramTestDoneS refl
  | bootCalLoaded => exact act <| bootCalLoadedS refl
  | bootImageLoaded => exact act <| bootImageLoadedS refl
  | bootCoreBringup => exact act <| bootCoreBringupS refl
  | bootListApply => exact act <| bootListApplyS refl
  | halfBootLockTimeout => exact actOn <| halfBootLockTimeoutS refl
  | halfRelockTimeout => exact actOn <| halfRelockTimeoutS refl
  | bootCmdDone => exact act <| bootCmdDoneS refl
  | watchdog => exact act <| watchdogS refl
  | reinitComplete => exact act <| reinitCompleteS refl
  | chipTempUpdate => exact act <| chipTempUpdateS refl
  | illegal => exact next <| ite refl (runCelil handlerFault refl)
  | refEdgesReturn => exact act <| refEdgesReturnS refl
  | finePhaseStep => exact actOn <| finePhaseStepS refl
  | resetRelease => exact next <| resetReleaseS refl
  | brownOutEnd => exact next <| brownOutEndS refl
  | vddhMonitorLow => exact act <| vddhMonitorLowS refl
  | pcieLinkUp => exact act <| pcieLinkUpS refl
  | pcieD3hotExit => exact act <| pcieD3hotExitS refl
  | cAadd => exact execCAadd
  | cAswp => exact execCAswp
  | cAcas => exact execCAcas

end Ends

/-- The commands that wait are watched as they are: the other facts do not speak of them. -/
theorem Evolves.exec_rest {s t : State} {c : Instr} {rest : List Instr} (h : Machine.exec c { s with pending := rest } = .next t) :
    ((watched s).Canonical → (watched t).Canonical) ∧ ((watched s).Idle → (watched t).Idle) := by
  obtain ⟨u, hu, hevolves⟩ := Ends.exec c { s with pending := rest }
  obtain rfl : u = t := by simpa [h] using hu.symm
  exact ⟨hevolves.canonical, hevolves.idle⟩

/-- What a step keeps: a command's facts, or a tick's. -/
theorem step_keeps {s t : State} (h : step s = .next t) :
    ((watched s).Canonical → (watched t).Canonical) ∧ ((watched s).Idle → (watched t).Idle) := by
  unfold step at h
  split at h
  · cases h
    exact ⟨(Evolves.tick .refl).canonical, (Evolves.tick .refl).idle⟩
  · exact Evolves.exec_rest h

/-- Settles O5: every operation of the model keeps the queue and extends what has gone out. -/
theorem commandsCompleteAndKeepTheQueue : Obligations.CommandsCompleteAndKeepTheQueue := by
  intro c s
  obtain ⟨t, ht, hevolves⟩ := Ends.exec c s
  obtain ⟨l, hl⟩ := hevolves.outs
  exact ⟨t, ht, hevolves.pending, l, hl.symm⟩

/-- Settles O6: every store of the model keeps the canonical form of the map that it writes. -/
theorem stepsKeepTheCanonicalForm : Obligations.StepsKeepTheCanonicalForm := by
  intro s t hs h
  exact (canonical_iff t).2 <| (step_keeps h).1 <| (canonical_iff s).1 hs

/-- Settles O8: an engine takes an item only where no cold reset is held, and a cold reset clears every engine. -/
theorem enginesHoldNothingInAColdReset : Obligations.EnginesHoldNothingInAColdReset :=
  ⟨fun _ => rfl, fun _ _ hs h => (step_keeps h).2 hs⟩

end Sys2Proof.Proofs

/-! ## A held cold reset stops everything but the reset itself (R364, R365) -/

namespace Sys2Proof.Proofs.ColdHeld

set_option Elab.async false

open Sys2Proof Sys2Proof.Machine Sys2Proof.Claims

variable {s : State} (h : s.coldHeld = true)

include h

theorem cdDown : s.cdDown = true := by simp [State.cdDown, State.cdGone, h]

theorem act (f : State → State) : Machine.act f s = .next s := by simp [Machine.act, h]

theorem actOn (n : ℕ) (f : State → State) : Machine.actOn n f s = .next s := by simp [Machine.actOn, h]

theorem originWrite (o a : ℕ) (v : Word) : Machine.originWrite o a v s = (false, s) := by
  simp [Machine.originWrite, engineWrite, vetchWrite, State.vetchOff, cdDown h]

theorem busWrite (o : Origin) (a : ℕ) (v : Word) : Machine.busWrite o a v s = .next s := by
  simp [Machine.busWrite, originWrite h]

theorem busPair (o : Origin) (a : ℕ) (v : Word) : Machine.busPair o a v s = .next s := by
  simp [Machine.busPair, originWrite h]

theorem runCelil (e : ℕ) (ws : List Word) (body : State → State) :
    (.next (Machine.runCelil e ws body s) : Res) = .next s := by
  simp [Machine.runCelil, State.canRun, cdDown h]

/-! An engine that waits is not resumed, whatever it waits for. -/

theorem stagingStallResume (e : EngineIx) : execStagingStallResume e s = .next s := by
  unfold execStagingStallResume
  split <;> simp [cdDown h]

theorem putWaitEnd (e : EngineIx) : execPutWaitEnd e s = .next s := by
  unfold execPutWaitEnd
  split <;> simp [cdDown h]

theorem twaitResume (e : EngineIx) : execTwaitResume e s = .next s := by
  unfold execTwaitResume
  split <;> simp [cdDown h]

theorem waiteResume (e : EngineIx) : execWaiteResume e s = .next s := by
  unfold execWaiteResume
  split
  · split <;> simp [cdDown h]
  · rfl

theorem fenceWResume (e : EngineIx) : execFenceWResume e s = .next s := by
  unfold execFenceWResume
  split
  · split <;> simp [cdDown h]
  · rfl

theorem illegal (e : EngineIx) (w : Word) : execIllegal e w s = .next s := by
  simp [execIllegal, Machine.runCelil, State.canRun, cdDown h]

theorem registerReadClear (o : Origin) (a : RegAddr) : execRegisterReadClear o a s = .next s := by
  simp [execRegisterReadClear, readOut, State.vetchOff, cdDown h]

/-- Every command but those of the reset itself leaves the state as it is. -/
theorem nothingActs (c : Instr) (hc : c ∉ [Instr.coldReset, .brownOut, .resetRelease, .brownOutEnd]) :
    exec c s = .next s := by
  cases c with
  | mailboxComplete | dispatch | steal | actionSend | abortVerdictArrive | keepalive | chipletLost | controlDieLost
  | asyncSpeedUpdate | membank | refAbsent | freqMonitorWindow | refQualified | revertTimer | switchoverFreeze
  | switchoverClose | switchoverSettled | holdLimit | acquisitionComplete | alignmentStrobe | replicaStart | epochInEdge
  | epochMissing | epochLoad | slewStart | slewEnd | itemComplete | quarantineDeferredMove | engineWdog | engFail
  | yieldEligible | qmLoadUpdate | xipFillStart | xipFillDone | xipFillFail | sorrelBackgroundStart | nvmAutoStore
  | nvmErasePhaseDone | nvmBodyDone | nvmStoreDone | nvmEraseDone | epochArmRetry | forwarderTake | forwardResend
  | mirrorRetire | eventForward | raccTimeout | cfgparScrub | tansyStore | sspStatus | sspRead | sspWrite | sspStream
  | sspMemread | sspMemwrite | smFrameStart | smDone | bar0Request | bar2Read | bar2Write | pcieD3hot | eventRaise
  | msixModerationEnd | msixUnmask | warmReset | warmResetEnd | chipletReinitDone | bootSramTestDone | bootCalLoaded
  | bootImageLoaded | bootCoreBringup | bootListApply | bootCmdDone | watchdog | reinitComplete | chipTempUpdate
  | refEdgesReturn | vddhMonitorLow | pcieLinkUp | pcieD3hotExit =>
    exact act h _
  | actionArrive | phaseApply | portsetApply | markApply | armApply | disarmApply | halfWordApply | halfReady | ldWindowEnd
  | grossMonitorWindow | grossNoFeedback | bandSearchStep | hopWindowOpen | hopPrelockDone | hopPlacementDone
  | hopReadinessTest | hopSwitch | postSwitchGuardFail | hopInplace | relockStart | relockWordLoad | relockRelease
  | relockTimeout | portWordApply | markerPulse | ceilGuardWindow | holdLimitExpiry | failoverSpareLoad | failoverSearchDone
  | failoverPrelockDone | failoverPlaced | skewMeanDone | skewOffsetDone | skewTrimStep | teaselEdge | sampleTake | measTimeout
  | measDone | recordStore | lmsBlockEnd | dtcBlockEnd | trimBoundary | cdSyncTest | cdAgreementTest | cdTimeout
  | skewAttemptTimeout | skewFailWaitEnd | cdlyTimeout | ryrelTrained | ryrelBlockLockLoss | helloSend | rxHello | rxJoin
  | rxAdmit | rxRefuse | rxLeave | rxReady | hbSend | rxHb | hbMiss | ttSend | rxTt | servoPeriodEnd | rxEpoch | lackSend
  | rxLack | rxLnak | reliableAckTimeout | refuseRetryTimer | joinTimeout | rxSubmit | rxSubres | rxDone | rxDoneack | rxResync
  | rxEvent | rxCdloss | rxRreq | rxRrsp | halfBootLockTimeout | halfRelockTimeout | finePhaseStep =>
    exact actOn h _ _
  | mailboxSubmit | mailboxTake | mailboxSnap | refFreqWrite | manSelWrite | tbSlewWrite | halfCommit | corePowerWrite
  | ldCfgWrite | portCommit | portCeilWrite | lgConfigWrite | portTrimWrite | tsRegArm | tsRegDisarm | ringCfgWrite
  | ringRelease | queueEnable | queueDisable | queueResume | queueDescWrite | engReinit | xipInvalidate | sorrelRequest
  | cdlyHiWrite | sorCtrlWrite | ryRoleWrite | wtApprove | wtDeny | wtReplay | fwdEntryWrite | raccGo | registerWrite
  | aliasSet | aliasClear | aliasToggle | pairOpen | pairedWrite | tansyRdWrite | smGo | smGpioWrite | editionSelect | wdogKick
  | wdogCfgWrite | reinitCore | reinitPort | reinitEngine | reinitLink | reinitTeaselGroup | reinitSorrel | refEnableWrite
  | engCfgWrite =>
    exact busWrite h _ _ _
  | epochArm | epochDisarm | portMenWrite | nvmStore | nvmErase | wtEvict | permLockSet | testModeWrite | rstWarmCmd
  | rstColdCmd | chipletReinit | bootErase | bootProgram | bootCommit =>
    exact busPair h _ _ _
  | cAdd | cSub | cAnd | cOr | cXor | cSll | cSrl | cSra | cSlt | cSltu | cMul | cMulhu | cDivu | cRemu | cAddi | cAndi | cOri
  | cXori | cSlli | cSrli | cSrai | cSlti | cLui | cLdi | cLdiU | cLdiH | cBeq | cBne | cBlt | cBge | cBltu | cBgeu | cJal
  | cJalr | cJl | cLds | cSts | cLd | cSt | cAadd | cAswp | cAcas | cRld | cRst | cWrd | cTake | cTakeH | cPut | cAck | cNack
  | cTnow | cTadd | cTaddf | cTdiff | cTget | cTput | cTmov | cTwait | cEvcnt | cWaite | cCtxld | cCtxst | cHop | cPhase
  | cPortset | cMark | cArm | cDisarm | cStatR | cStatE | cFence | cFenceW | cYield | cTrap | cHalt | cHaltS =>
    exact runCelil h _ _ _
  | pcieReset k => cases k <;> exact act h _
  | registerReadClear => exact registerReadClear h _ _
  | stagingStallResume => exact stagingStallResume h _
  | putWaitEnd => exact putWaitEnd h _
  | twaitResume => exact twaitResume h _
  | waiteResume => exact waiteResume h _
  | fenceWResume => exact fenceWResume h _
  | illegal => exact illegal h _ _
  | coldReset | brownOut | resetRelease | brownOutEnd => simp at hc

end Sys2Proof.Proofs.ColdHeld

namespace Sys2Proof.Proofs

set_option Elab.async false

open Sys2Proof Sys2Proof.Machine

/-- Settles O4: each row asks for a working control die, and bus accesses and engines do too. -/
theorem nothingActsDuringAColdReset : Obligations.NothingActsDuringAColdReset :=
  fun c _ h hc => ColdHeld.nothingActs h c hc

end Sys2Proof.Proofs

/-! ## The step and the state after a reset -/

namespace Sys2Proof.Proofs

set_option Elab.async false

open Sys2Proof Sys2Proof.Machine

/-- Settles O1: `step` takes the front command of the queue by definition. -/
theorem stepRunsTheFrontCommand : Obligations.StepRunsTheFrontCommand := by
  intro c rest s h
  unfold step
  rw [h]

/-- A register that the part has reads the word of its table after a reset. -/
theorem reg_reset_at (r : RegId) (i j : ℕ) (hi : i < (regRow r).n1) (hj : j < (regRow r).n2)
    (h0 : (RegAt.mk r i j).entry0 = false) : State.reset.reg (r.at i j) = BitVec.ofNat 32 (resetWord r i j) := by
  change resetAt (r.at i j) = _
  rw [resetAt, regOf_at r i j hi hj h0]

/-- No port runs after a reset. -/
theorem running_reset (p : ℕ) (hp : p < 1024) : State.reset.get PORT_STAT.RUNNING p = 0 := by
  rw [State.get, reg_reset_at .PORT_STAT p 0 hp (by decide) rfl]
  simp [resetWord, regRow, fieldOf]

/-- Every engine's PC reads 0 after a reset. -/
theorem pc_reset (e : ℕ) (he : e < 256) : State.reset.pc e = 0 := by
  rw [State.pc, State.get, reg_reset_at .ENG_PC e 0 he (by decide) rfl]
  simp [resetWord, regRow, fieldOf]

/-- Settles O3: the register file is empty after a reset, so that each register reads its table's word. -/
theorem resetLeavesTheTabledValues : Obligations.ResetLeavesTheTabledValues :=
  ⟨fun _ => rfl, by decide, by decide, by decide, by decide, by decide, rfl, rfl, rfl, rfl, rfl, by decide,
    running_reset, pc_reset, ⟨rfl, rfl, rfl, rfl⟩⟩

end Sys2Proof.Proofs

/-! ## The words of Celil (R217, R218) -/

namespace Sys2Proof.Proofs

set_option Elab.async false

open Sys2Proof Sys2Proof.Machine

namespace Words

theorem bitsAt_lt (n lo w : ℕ) : bitsAt n lo w < 2 ^ w := Nat.mod_lt _ (by positivity)

/-! ### The fields of each format, read back from its word -/

section Fields

variable {op func imm : ℕ} {d a b c : GReg} {t ta tb td : TReg}

theorem encR_fields (hop : op < 64) (hf : func < 2048) :
    bitsAt (encR op d a b func).toNat 26 6 = op ∧ bitsAt (encR op d a b func).toNat 21 5 = d ∧
      bitsAt (encR op d a b func).toNat 16 5 = a ∧ bitsAt (encR op d a b func).toNat 11 5 = b ∧
      bitsAt (encR op d a b func).toNat 0 11 = func := by
  unfold bitsAt encR
  rw [BitVec.toNat_ofNat]
  omega

theorem encI_fields (hop : op < 64) (hi : imm < 65536) :
    bitsAt (encI op d a imm).toNat 26 6 = op ∧ bitsAt (encI op d a imm).toNat 21 5 = d ∧
      bitsAt (encI op d a imm).toNat 16 5 = a ∧ bitsAt (encI op d a imm).toNat 0 16 = imm := by
  unfold bitsAt encI
  rw [BitVec.toNat_ofNat]
  omega

/-- The 16 bits of a shift: its kind above its count (R221). -/
theorem encI_shift {k : ℕ} (n : BitVec 6) (hk : k < 3) (hi : imm = 64 * k + n.toNat) :
    bitsAt (encI 5 d a imm).toNat 26 6 = 5 ∧ bitsAt (encI 5 d a imm).toNat 21 5 = d ∧
      bitsAt (encI 5 d a imm).toNat 16 5 = a ∧ bitsAt (encI 5 d a imm).toNat 6 10 = k ∧
      bitsAt (encI 5 d a imm).toNat 0 6 = n.toNat := by
  unfold bitsAt encI
  rw [BitVec.toNat_ofNat]
  omega

/-- The fields of an operand of 6 bits (R231, R243). -/
theorem encI_low (n : BitVec 6) :
    bitsAt (encI op d a n.toNat).toNat 0 6 = n.toNat ∧ bitsAt (encI op d a n.toNat).toNat 6 9 = 0 ∧
      bitsAt (encI op d a n.toNat).toNat 6 10 = 0 ∧ bitsAt (encI op d a n.toNat).toNat 15 1 = 0 := by
  unfold bitsAt encI
  rw [BitVec.toNat_ofNat]
  omega

/-- The fields of the register form of ACK and NACK (R231). -/
theorem encI_reg :
    bitsAt (encI op d a 0x8000).toNat 0 6 = 0 ∧ bitsAt (encI op d a 0x8000).toNat 6 9 = 0 ∧
      bitsAt (encI op d a 0x8000).toNat 15 1 = 1 := by
  unfold bitsAt encI
  rw [BitVec.toNat_ofNat]
  omega

theorem encJ_fields (hop : op < 64) (off : BitVec 21) :
    bitsAt (encJ op d off).toNat 26 6 = op ∧ bitsAt (encJ op d off).toNat 21 5 = d ∧
      bitsAt (encJ op d off).toNat 0 21 = off.toNat := by
  unfold bitsAt encJ
  rw [BitVec.toNat_ofNat]
  omega

theorem encM_fields (hop : op < 64) (w : Fin 4) (u : Bool) (off : BitVec 13) :
    bitsAt (encM op d a w u off).toNat 26 6 = op ∧ bitsAt (encM op d a w u off).toNat 21 5 = d ∧
      bitsAt (encM op d a w u off).toNat 16 5 = a ∧ bitsAt (encM op d a w u off).toNat 14 2 = w ∧
      bitsAt (encM op d a w u off).toNat 13 1 = u.toNat ∧ bitsAt (encM op d a w u off).toNat 0 13 = off.toNat := by
  unfold bitsAt encM
  rw [BitVec.toNat_ofNat]
  have := u.toNat_lt
  omega

theorem encT_fields (hop : op < 64) (hf : func < 128) :
    bitsAt (encT op a b td ta tb func).toNat 26 6 = op ∧ bitsAt (encT op a b td ta tb func).toNat 21 5 = a ∧
      bitsAt (encT op a b td ta tb func).toNat 16 5 = b ∧ bitsAt (encT op a b td ta tb func).toNat 13 3 = td ∧
      bitsAt (encT op a b td ta tb func).toNat 10 3 = ta ∧ bitsAt (encT op a b td ta tb func).toNat 7 3 = tb ∧
      bitsAt (encT op a b td ta tb func).toNat 0 7 = func ∧ bitsAt (encT op a b td ta tb func).toNat 0 10 = tb * 128 + func ∧
      bitsAt (encT op a b td ta tb func).toNat 0 13 = ta * 1024 + tb * 128 + func := by
  unfold bitsAt encT
  rw [BitVec.toNat_ofNat]
  omega

theorem encA_fields (hop : op < 64) (hf : func < 256) :
    bitsAt (encA op a b c t func).toNat 26 6 = op ∧ bitsAt (encA op a b c t func).toNat 21 5 = a ∧
      bitsAt (encA op a b c t func).toNat 16 5 = b ∧ bitsAt (encA op a b c t func).toNat 11 5 = c ∧
      bitsAt (encA op a b c t func).toNat 8 3 = t ∧ bitsAt (encA op a b c t func).toNat 0 8 = func := by
  unfold bitsAt encA
  rw [BitVec.toNat_ofNat]
  omega

theorem encL_fields (hop : op < 64) (hf : func < 4) :
    bitsAt (encL op d func).toNat 26 6 = 0x3F ∧ bitsAt (encL op d func).toNat 20 6 = op ∧
      bitsAt (encL op d func).toNat 15 5 = d ∧ bitsAt (encL op d func).toNat 2 13 = 0 ∧
      bitsAt (encL op d func).toNat 0 2 = func := by
  unfold bitsAt encL
  rw [BitVec.toNat_ofNat]
  omega

end Fields

/-! ### A word is made of its fields -/

theorem gOf_val (n lo : ℕ) : (gOf n lo : ℕ) = bitsAt n lo 5 := Nat.mod_eq_of_lt (bitsAt_lt n lo 5)

theorem tOf_val (n lo : ℕ) : (tOf n lo : ℕ) = bitsAt n lo 3 := Nat.mod_eq_of_lt (bitsAt_lt n lo 3)

theorem ofNat_bitsAt_toNat (n lo k : ℕ) : (BitVec.ofNat k (bitsAt n lo k)).toNat = bitsAt n lo k := by
  rw [BitVec.toNat_ofNat, Nat.mod_eq_of_lt (bitsAt_lt n lo k)]

section Made

variable {w : Word} {op func imm : ℕ} {d a b c : GReg} {t ta tb td : TReg}

theorem encR_eq (hop : bitsAt w.toNat 26 6 = op) (hf : bitsAt w.toNat 0 11 = func) :
    encR op (gOf w.toNat 21) (gOf w.toNat 16) (gOf w.toNat 11) func = w := by
  apply BitVec.eq_of_toNat_eq
  rw [encR, BitVec.toNat_ofNat, gOf_val, gOf_val, gOf_val]
  unfold bitsAt at *
  omega

theorem encI_eq (hop : bitsAt w.toNat 26 6 = op) (hd : (d : ℕ) = bitsAt w.toNat 21 5) (ha : (a : ℕ) = bitsAt w.toNat 16 5)
    (hi : imm = bitsAt w.toNat 0 16) : encI op d a imm = w := by
  apply BitVec.eq_of_toNat_eq
  rw [encI, BitVec.toNat_ofNat]
  unfold bitsAt at *
  omega

theorem encJ_eq (hop : bitsAt w.toNat 26 6 = op) :
    encJ op (gOf w.toNat 21) (BitVec.ofNat 21 (bitsAt w.toNat 0 21)) = w := by
  apply BitVec.eq_of_toNat_eq
  rw [encJ, BitVec.toNat_ofNat, gOf_val, ofNat_bitsAt_toNat]
  unfold bitsAt at *
  omega

theorem encM_eq (hop : bitsAt w.toNat 26 6 = op) {u : Bool} (hu : u.toNat = bitsAt w.toNat 13 1) :
    encM op (gOf w.toNat 21) (gOf w.toNat 16) (Fin.ofNat 4 (bitsAt w.toNat 14 2)) u
      (BitVec.ofNat 13 (bitsAt w.toNat 0 13)) = w := by
  apply BitVec.eq_of_toNat_eq
  rw [encM, BitVec.toNat_ofNat, gOf_val, gOf_val, ofNat_bitsAt_toNat, Fin.val_ofNat, hu]
  unfold bitsAt at *
  omega

theorem encT_eq (hop : bitsAt w.toNat 26 6 = op) (ha : (a : ℕ) = bitsAt w.toNat 21 5) (hb : (b : ℕ) = bitsAt w.toNat 16 5)
    (htd : (td : ℕ) = bitsAt w.toNat 13 3) (hta : (ta : ℕ) = bitsAt w.toNat 10 3) (htb : (tb : ℕ) = bitsAt w.toNat 7 3)
    (hf : func = bitsAt w.toNat 0 7) : encT op a b td ta tb func = w := by
  apply BitVec.eq_of_toNat_eq
  rw [encT, BitVec.toNat_ofNat]
  unfold bitsAt at *
  omega

theorem encA_eq (hop : bitsAt w.toNat 26 6 = op) (ha : (a : ℕ) = bitsAt w.toNat 21 5) (hb : (b : ℕ) = bitsAt w.toNat 16 5)
    (hc : (c : ℕ) = bitsAt w.toNat 11 5) (ht : (t : ℕ) = bitsAt w.toNat 8 3) (hf : func = bitsAt w.toNat 0 8) :
    encA op a b c t func = w := by
  apply BitVec.eq_of_toNat_eq
  rw [encA, BitVec.toNat_ofNat]
  unfold bitsAt at *
  omega

theorem encL_eq (hlong : bitsAt w.toNat 26 6 = 0x3F) (hop : bitsAt w.toNat 20 6 = op) (hz : bitsAt w.toNat 2 13 = 0)
    (hf : bitsAt w.toNat 0 2 = func) : encL op (gOf w.toNat 15) func = w := by
  apply BitVec.eq_of_toNat_eq
  rw [encL, BitVec.toNat_ofNat, gOf_val]
  unfold bitsAt at *
  omega

end Made

/-! ### The words of what a decoder answers -/

section Decoders

variable {e : EngineIx} {w w1 : Word} {i : Instr}

theorem words_of_decInt (hop : bitsAt w.toNat 26 6 = 0) (h : decInt e w.toNat = some i) : celilWords i = some [w] := by
  unfold decInt at h
  dsimp only at h
  split at h <;> cases h <;> exact congrArg (some [·]) (encR_eq hop ‹_›)

theorem words_of_decAtomic (hop : bitsAt w.toNat 26 6 = 0x14) (h : decAtomic e w.toNat = some i) : celilWords i = some [w] := by
  unfold decAtomic at h
  dsimp only at h
  split at h <;> cases h <;> exact congrArg (some [·]) (encR_eq hop ‹_›)

theorem words_of_decShift (hop : bitsAt w.toNat 26 6 = 5) (h : decShift e w.toNat = some i) : celilWords i = some [w] := by
  unfold decShift at h
  dsimp only at h
  split at h <;> cases h <;> refine congrArg (some [·]) (encI_eq hop (gOf_val ..) (gOf_val ..) ?_)
  all_goals
    rw [ofNat_bitsAt_toNat]
    unfold bitsAt at *
    omega

theorem words_of_decEnd {op : ℕ} {c : EndCode} (hop : bitsAt w.toNat 26 6 = op) (h : decEnd w.toNat = some c) :
    encEnd op c = w := by
  unfold decEnd at h
  split at h
  · cases h
  · next hz =>
    simp only [ne_eq, Bool.or_eq_true, decide_eq_true_eq, not_or, not_not] at hz
    obtain ⟨hd, hmid⟩ := hz
    split at h
    · split at h <;> cases h
      refine encI_eq hop (by simp [hd]) (by simp [*]) ?_
      rw [ofNat_bitsAt_toNat]
      unfold bitsAt at *
      omega
    · split at h <;> cases h
      refine encI_eq hop (by simp [hd]) (gOf_val ..) ?_
      unfold bitsAt at *
      omega

theorem words_of_onlyIf {b : Bool} {j : Instr} (h : onlyIf b j = some i) (hw : b = true → celilWords j = some [w]) :
    celilWords i = some [w] := by
  unfold onlyIf at h
  split at h
  · cases h
    exact hw ‹_›
  · cases h

theorem words_of_decTime (hop : bitsAt w.toNat 26 6 = 0x1D) (h : decTime e w.toNat = some i) : celilWords i = some [w] := by
  unfold decTime at h
  dsimp only at h
  split at h <;> try cases h
  all_goals
    split at h <;> cases h
    simp at *
    refine congrArg (some [·]) (encT_eq hop ?_ ?_ ?_ ?_ ?_ ?_) <;> simp [gOf_val, tOf_val, *]

theorem words_of_decLong (hop : bitsAt w.toNat 26 6 = 0x3F) (h : decLong e w.toNat w1 = some i) :
    celilWords i = some [w, w1] := by
  unfold decLong at h
  split at h
  · cases h
  · next hz =>
    dsimp only at h
    split at h <;> cases h <;> exact congrArg (some [·, w1]) (encL_eq hop ‹_› (not_not.mp hz) ‹_›)

/-- A format A instruction whose unused fields are 0. -/
theorem words_of_decA (h : decA e (bitsAt w.toNat 26 6) w.toNat = some i) : celilWords i = some [w] := by
  unfold decA at h
  dsimp only at h
  split at h
  case h_1 hop | h_2 hop | h_14 hop =>
    split at h <;> refine words_of_onlyIf h fun hz => congrArg (some [·]) (encA_eq hop ?_ ?_ ?_ ?_ ?_) <;>
      simp_all [gOf_val, tOf_val]
  case h_15 => cases h
  all_goals
    refine words_of_onlyIf h fun hz => congrArg (some [·]) (encA_eq ‹_› ?_ ?_ ?_ ?_ ?_) <;> simp_all [gOf_val, tOf_val]

/-- What decodes is an instruction whose words were read. -/
theorem words_of_decode (h : celilDecode e w w1 = some i) : celilWords i = some [w] ∨ celilWords i = some [w, w1] := by
  unfold celilDecode at h
  dsimp only at h
  split at h
  case h_1 hop => exact .inl (words_of_decInt hop h)
  case h_2 hop | h_3 hop | h_4 hop | h_5 hop | h_7 hop | h_9 hop | h_10 hop | h_11 hop | h_12 hop | h_13 hop | h_14 hop
      | h_16 hop | h_22 hop | h_23 hop =>
    cases h
    exact .inl (congrArg (some [·]) (encI_eq hop (gOf_val ..) (gOf_val ..) (ofNat_bitsAt_toNat ..)))
  case h_6 hop => exact .inl (words_of_decShift hop h)
  case h_8 hop =>
    refine .inl (words_of_onlyIf h fun hz => congrArg (some [·]) ?_)
    exact encI_eq hop (gOf_val ..) (by simp_all) (ofNat_bitsAt_toNat ..)
  case h_15 hop =>
    cases h
    exact .inl (congrArg (some [·]) (encJ_eq hop))
  case h_17 hop | h_19 hop =>
    cases h
    refine .inl (congrArg (some [·]) (encM_eq hop ?_))
    have hlt := bitsAt_lt w.toNat 13 1
    interval_cases hu : bitsAt w.toNat 13 1 <;> rfl
  case h_18 hop | h_20 hop =>
    refine .inl (words_of_onlyIf h fun hz => congrArg (some [·]) (encM_eq hop ?_))
    have hlt := bitsAt_lt w.toNat 13 1
    simp at hz
    simp only [Bool.toNat_false]
    omega
  case h_21 hop => exact .inl (words_of_decAtomic hop h)
  case h_24 hop | h_25 hop =>
    obtain ⟨c, hc, rfl⟩ := Option.map_eq_some_iff.mp h
    exact .inl (congrArg (some [·]) (words_of_decEnd hop hc))
  case h_26 hop =>
    refine .inl (words_of_onlyIf h fun hz => congrArg (some [·]) ?_)
    simp only [Bool.and_eq_true, beq_iff_eq] at hz
    obtain ⟨⟨hd, ha⟩, hlow⟩ := hz
    refine encT_eq hop (by simp [hd]) (by simp [ha]) (tOf_val ..) ?_ ?_ ?_ <;> simp [bitsAt] at * <;> omega
  case h_27 hop => exact .inl (words_of_decTime hop h)
  case h_28 hop =>
    refine .inl (words_of_onlyIf h fun hz => congrArg (some [·]) ?_)
    simp only [Bool.and_eq_true, beq_iff_eq] at hz
    obtain ⟨⟨⟨hd, ha⟩, htd⟩, hlow⟩ := hz
    refine encT_eq hop (by simp [hd]) (by simp [ha]) (by simp [htd]) (tOf_val ..) ?_ ?_ <;> simp [bitsAt] at * <;> omega
  case h_29 hop | h_32 hop =>
    split at h <;> refine .inl (words_of_onlyIf h fun hz => congrArg (some [·]) (encI_eq hop ?_ ?_ ?_)) <;>
      simp_all [gOf_val]
  case h_30 hop =>
    refine .inl (words_of_onlyIf h fun hz => congrArg (some [·]) (encI_eq hop ?_ (gOf_val ..) ?_)) <;> simp_all
  case h_31 hop =>
    refine .inl (words_of_onlyIf h fun hz => congrArg (some [·]) (encI_eq hop ?_ ?_ ?_)) <;>
      simp [bitsAt] at * <;> omega
  case h_33 hop => exact .inr (words_of_decLong hop h)
  case h_34 => exact .inl (words_of_decA h)

end Decoders

theorem eq_of_single {x w : Word} (h : some [x] = some [w]) : x = w := by simpa using h

theorem eq_of_double {x y w v : Word} (h : some [x, y] = some [w, v]) : x = w ∧ y = v := by simpa using h

/-- The words of a short instruction decode to it. -/
theorem decode_of_short {i : Instr} {w : Word} (w1 : Word) (h : celilWords i = some [w])
    (hput : ∀ e d b q, i ≠ .cPut e d b q true) : ∃ e, celilDecode e w w1 = some i := by
  cases i with
  | cAdd e | cSub e | cAnd e | cOr e | cXor e | cSll e | cSrl e | cSra e | cSlt e | cSltu e | cMul e | cMulhu e | cDivu e
  | cRemu e | cAadd e | cAswp e | cAcas e =>
    obtain rfl := eq_of_single h
    exact ⟨e, by simp [celilDecode, decInt, decAtomic, encR_fields, gOf]⟩
  | cAddi e | cAndi e | cOri e | cXori e | cSlti e | cLui e | cBeq e | cBne e | cBlt e | cBge e | cBltu e | cBgeu e | cJalr e
  | cRld e | cRst e | cFence e | cFenceW e | cYield e | cHalt e | cHaltS e =>
    obtain rfl := eq_of_single h
    exact ⟨e, by simp (disch := omega) [celilDecode, onlyIf, encI_fields, gOf]⟩
  | cSlli e d a n =>
    obtain rfl := eq_of_single h
    exact ⟨e, by simp [celilDecode, decShift, encI_shift (k := 0) n, gOf]⟩
  | cSrli e d a n =>
    obtain rfl := eq_of_single h
    exact ⟨e, by simp [celilDecode, decShift, encI_shift (k := 1) n, gOf]⟩
  | cSrai e d a n =>
    obtain rfl := eq_of_single h
    exact ⟨e, by simp [celilDecode, decShift, encI_shift (k := 2) n, gOf]⟩
  | cTrap e n =>
    obtain rfl := eq_of_single h
    exact ⟨e, by simp (disch := omega) [celilDecode, onlyIf, encI_fields, encI_low]⟩
  | cAck e c | cNack e c =>
    obtain rfl := eq_of_single h
    cases c with
    | imm n => exact ⟨e, by simp (disch := omega) [celilDecode, decEnd, encEnd, encI_fields, encI_low]⟩
    | reg a => exact ⟨e, by simp [celilDecode, decEnd, encEnd, encI_fields, encI_reg, gOf]⟩
  | cJal e =>
    obtain rfl := eq_of_single h
    exact ⟨e, by simp [celilDecode, encJ_fields, gOf]⟩
  | cLds e w u | cLd e w u =>
    obtain rfl := eq_of_single h
    exact ⟨e, by cases u <;> simp [celilDecode, encM_fields, gOf]⟩
  | cSts e | cSt e =>
    obtain rfl := eq_of_single h
    exact ⟨e, by simp [celilDecode, onlyIf, encM_fields, gOf]⟩
  | cTnow e | cTadd e | cTaddf e | cTdiff e | cTget e | cTput e | cTmov e | cTwait e =>
    obtain rfl := eq_of_single h
    exact ⟨e, by simp [celilDecode, decTime, onlyIf, encT_fields, gOf, tOf]⟩
  | cTake e | cTakeH e | cWaite e | cEvcnt e | cCtxld e | cCtxst e | cHop e | cPhase e | cPortset e | cMark e | cArm e
  | cDisarm e | cStatR e | cStatE e =>
    obtain rfl := eq_of_single h
    exact ⟨e, by simp [celilDecode, decA, onlyIf, encA_fields, gOf, tOf]⟩
  | cWrd e a c =>
    obtain rfl := eq_of_single h
    cases c with
    | pair c => exact ⟨e, by simp [celilDecode, decA, onlyIf, encWrd, encA_fields, gOf]⟩
    | time t => exact ⟨e, by simp [celilDecode, decA, onlyIf, encWrd, encA_fields, gOf, tOf]⟩
  | cPut e d b q busy =>
    obtain rfl := eq_of_single h
    cases busy with
    | false => exact ⟨e, by simp [celilDecode, decA, onlyIf, encA_fields, gOf]⟩
    | true => exact absurd rfl (hput e d b q)
  | _ => simp [celilWords] at h

/-- The words of a long instruction decode to it. -/
theorem decode_of_long {i : Instr} {w w1 : Word} (h : celilWords i = some [w, w1]) : ∃ e, celilDecode e w w1 = some i := by
  cases i with
  | cLdi e | cLdiU e | cLdiH e | cJl e =>
    obtain ⟨rfl, rfl⟩ := eq_of_double h
    exact ⟨e, by simp [celilDecode, decLong, encL_fields, gOf]⟩
  | _ => simp [celilWords] at h

end Words

/-- Settles O7: the fields of a word are those that it was made of, and a word that passes the decoder's tests is made of its fields. -/
theorem celilWordsAndInstructionsAgree : Obligations.CelilWordsAndInstructionsAgree :=
  ⟨fun _ _ w1 h hput => Words.decode_of_short w1 h hput, fun _ _ _ h => Words.decode_of_long h,
    fun _ _ _ _ h => Words.words_of_decode h⟩

end Sys2Proof.Proofs

/-! ## Integer instructions, branches and jumps (R221, R222) -/

namespace Sys2Proof.Proofs

set_option Elab.async false

open Sys2Proof Sys2Proof.Machine Sys2Proof.Claims

section

variable {s : State} {e : EngineIx} {d : GReg}

/-! ### What a fetched instruction that writes one register does -/

/-- A fetched one-word instruction runs its body once the fetch has touched its line or corrected its word. -/
theorem runCelil_fetched {e : ℕ} {w : Word} {body : State → State} (hfetch : s.fetches e [w] = true) :
    runCelil e [w] body s = dropLines e (body (fetchTouch (s.pc e) s)) := by
  simp only [State.fetches, List.length_singleton, List.range_one, List.all_cons, List.all_nil, Bool.and_true, Nat.mul_zero,
    Nat.add_zero, Bool.and_eq_true, beq_iff_eq, List.getD_cons_zero] at hfetch
  simp [runCelil, hfetch.1, hfetch.2]

/-- What a fetched instruction leaves that writes `v` to g`d` and goes on `n` words. -/
def Wrote (r : Res) (s : State) (e : EngineIx) (d : GReg) (v : Dword) (n : ℕ) : Prop :=
  ∃ t, r = .next t ∧ OnlyEngine e s t ∧ WroteG e d v s t ∧ WentOn e n true false false s t

/-- A fetched instruction whose body, run after the fetch's touch, writes `v` to g`d`. -/
theorem wrote_fetched {w : Word} {body : State → State} {v : Dword} (hfetch : s.fetches e [w] = true)
    (hbody : ∃ u, SameButCache s u ∧ body (fetchTouch (s.pc e) s) = writeNext e d v u) :
    Wrote (.next (runCelil e [w] body s)) s e d v 1 := by
  obtain ⟨u, hu, hbody⟩ := hbody
  have hwait : (u.eng e).wait = none := by
    obtain ⟨_, _, _, rfl⟩ := hu
    exact fetches_wait e [w] s hfetch
  have hpc : u.pc e + 4 * 1 < 2 ^ 32 := by
    have := fetches_pc e w [] s hfetch
    rw [State.pc_cache s u hu, List.length_nil] at *
    omega
  obtain ⟨honly, hwrote, hwent⟩ := writeOn_spec e d 1 v u hwait hpc
  rw [runCelil_fetched hfetch, hbody]
  exact ⟨_, rfl, honly.of_cache hu, hwrote.of_cache hu, hwent.of_cache hu⟩

/-- A body that does so on every state with the same contents. -/
theorem wrote_body {w : Word} {body : State → State} {v : Dword} (hfetch : s.fetches e [w] = true)
    (hbody : ∀ u, SameButCache s u → ∃ y, SameButCache u y ∧ body u = writeNext e d v y) :
    Wrote (.next (runCelil e [w] body s)) s e d v 1 :=
  have ⟨y, hy, hrun⟩ := hbody _ (fetchTouch_same (s.pc e) s)
  wrote_fetched hfetch ⟨y, (fetchTouch_same _ s).trans hy, hrun⟩

/-- A body whose value rests on anything but the order of the cache's lines and the single-bit errors. -/
theorem wrote_one {w : Word} {f : State → Dword} {v : Dword} (hfetch : s.fetches e [w] = true)
    (hf : ∀ u, SameButCache s u → f u = v) :
    Wrote (.next (runCelil e [w] (fun s => writeNext e d (f s) s) s)) s e d v 1 :=
  wrote_body hfetch fun u hu => ⟨u, .refl u, by rw [hf u hu]⟩

theorem wrote_two {w w1 : Word} {f : State → Dword} {v : Dword} (hfetch : s.fetches e [w, w1] = true)
    (hf : ∀ u, SameButCache s u → f u = v) :
    Wrote (.next (runCelil e [w, w1] (fun s => advance e 2 (setGr e d (f s) s)) s)) s e d v 2 := by
  obtain ⟨u, hu, hrun⟩ := runCelil_two e w w1 (fun s => advance e 2 (setGr e d (f s) s)) s hfetch
  have hwait : (u.eng e).wait = none := by
    obtain ⟨_, _, _, rfl⟩ := hu
    exact fetches_wait e [w, w1] s hfetch
  have hpc : u.pc e + 4 * 2 < 2 ^ 32 := by
    have := fetches_pc e w [w1] s hfetch
    rw [State.pc_cache s u hu, List.length_singleton] at *
    omega
  obtain ⟨honly, hwrote, hwent⟩ := writeOn_spec e d 2 (f u) u hwait hpc
  refine ⟨_, congrArg _ hrun, honly.of_cache hu, ?_, hwent.of_cache hu⟩
  rw [← hf u hu]
  exact hwrote.of_cache hu

/-! ### The values of R221 -/

section Values

variable (x y : Dword) (imm : BitVec 16) (l : Word) (n : ℕ)

theorem add_value : x + y = BitVec.ofInt 64 (x.toNat + y.toNat) := by
  simp [BitVec.ofInt_add]

theorem sub_value : x - y = BitVec.ofInt 64 (x.toNat - y.toNat) := by
  apply BitVec.eq_of_toNat_eq
  rw [BitVec.toNat_ofInt, BitVec.toNat_sub]
  omega

theorem nat_value : x = BitVec.ofInt 64 (x.toNat) := by simp

theorem shl_value : x <<< n = BitVec.ofInt 64 (x.toNat * 2 ^ n) := by
  apply BitVec.eq_of_toNat_eq
  rw [show (x.toNat * 2 ^ n : ℤ) = ((x.toNat * 2 ^ n : ℕ) : ℤ) by push_cast; rfl, BitVec.ofInt_natCast]
  simp [Nat.shiftLeft_eq]

theorem shr_value : x >>> n = BitVec.ofInt 64 (x.toNat / 2 ^ n) := by
  rw [show (x.toNat / 2 ^ n : ℤ) = ((x.toNat / 2 ^ n : ℕ) : ℤ) by push_cast; rfl, BitVec.ofInt_natCast]
  apply BitVec.eq_of_toNat_eq
  simp [Nat.shiftRight_eq_div_pow]
  rw [Nat.mod_eq_of_lt]
  exact (Nat.div_le_self _ _).trans_lt x.isLt

theorem sra_value : x.sshiftRight n = BitVec.ofInt 64 (x.toInt / 2 ^ n) := by
  rw [BitVec.sshiftRight, Int.shiftRight_eq_div_pow]
  simp

theorem slt_value : boolWord (x.slt y) = BitVec.ofInt 64 (if x.toInt < y.toInt then 1 else 0) := by
  unfold boolWord BitVec.slt
  by_cases h : x.toInt < y.toInt <;> simp [h]

theorem ult_value : boolWord (x.ult y) = BitVec.ofInt 64 (if x.toNat < y.toNat then 1 else 0) := by
  unfold boolWord BitVec.ult
  by_cases h : x.toNat < y.toNat <;> simp [h]

theorem mul_value : x * y = BitVec.ofInt 64 (x.toNat * y.toNat) := by
  simp [BitVec.ofInt_mul]

theorem mulhu_value : BitVec.ofNat 64 (x.toNat * y.toNat / 2 ^ 64) = BitVec.ofInt 64 (x.toNat * y.toNat / 2 ^ 64) := by
  rw [← BitVec.ofInt_natCast]
  push_cast
  rfl

theorem divu_value : (if y = 0 then BitVec.ofNat 64 (2 ^ 64 - 1) else x / y) =
    BitVec.ofInt 64 (if y.toNat = 0 then 0xFFFFFFFFFFFFFFFF else x.toNat / y.toNat) := by
  have hy : y.toNat = 0 ↔ y = 0 := ⟨fun h => BitVec.eq_of_toNat_eq (y := 0) h, fun h => by simp [h]⟩
  by_cases h : y = 0
  · rw [if_pos h, if_pos (hy.2 h)]
    rfl
  · rw [if_neg h, if_neg (mt hy.1 h)]
    rw [show (x.toNat / y.toNat : ℤ) = ((x / y).toNat : ℤ) by simp]
    exact nat_value _

theorem remu_value : (if y = 0 then x else x % y) =
    BitVec.ofInt 64 (if y.toNat = 0 then x.toNat else x.toNat % y.toNat) := by
  have hy : y.toNat = 0 ↔ y = 0 := ⟨fun h => BitVec.eq_of_toNat_eq (y := 0) h, fun h => by simp [h]⟩
  by_cases h : y = 0
  · rw [if_pos h, if_pos (hy.2 h)]
    simp
  · rw [if_neg h, if_neg (mt hy.1 h)]
    rw [show (x.toNat % y.toNat : ℤ) = ((x % y).toNat : ℤ) by simp]
    exact nat_value _

theorem sx16_value : sx16 imm = BitVec.ofInt 64 imm.toInt := by
  simp [sx16, BitVec.signExtend]

theorem addi_value : x + sx16 imm = BitVec.ofInt 64 (x.toNat + imm.toInt) := by
  simp [BitVec.ofInt_add, sx16_value]

theorem slti_value : boolWord (x.slt (sx16 imm)) = BitVec.ofInt 64 (if x.toInt < imm.toInt then 1 else 0) := by
  rw [slt_value, sx16, BitVec.toInt_signExtend_of_le (by decide)]

theorem lui_value : (BitVec.ofNat 32 (imm.toNat * 65536)).signExtend 64 = BitVec.ofInt 64 (imm.toInt * 65536) := by
  rw [BitVec.signExtend]
  congr 1
  have := imm.isLt
  rw [BitVec.toInt_eq_toNat_cond, BitVec.toInt_eq_toNat_cond, BitVec.toNat_ofNat]
  split <;> split <;> omega

theorem ldi_value : l.signExtend 64 = BitVec.ofInt 64 l.toInt := rfl

theorem ldiu_value : l.setWidth 64 = BitVec.ofInt 64 l.toNat := by
  rw [BitVec.ofInt_natCast]
  apply BitVec.eq_of_toNat_eq
  simp

theorem ldih_value :
    BitVec.ofNat 64 (l.toNat * 2 ^ 32 + x.toNat % 2 ^ 32) = BitVec.ofInt 64 (l.toNat * 2 ^ 32 + x.toNat % 2 ^ 32) := by
  rw [← BitVec.ofInt_natCast]
  push_cast
  rfl

end Values

/-! ### Each instruction of R221 -/

/-- A fetched instruction of the three-register form. -/
theorem intOp_wrote {a b : GReg} {func : ℕ} {f : Dword → Dword → Dword} {ws : List Word} {v : Dword}
    (hws : some [encR 0 d a b func] = some ws) (hfetch : s.fetches e ws = true)
    (hv : f (s.gr e a) (s.gr e b) = v) : Wrote (intOp e d a b func f s) s e d v 1 := by
  obtain rfl := Option.some.inj hws
  refine wrote_one (f := fun s => f (s.gr e a) (s.gr e b)) hfetch fun u hu => ?_
  rw [State.gr_cache s u hu, State.gr_cache s u hu, hv]

/-- A fetched instruction with a register and an immediate. -/
theorem immOp_wrote {a : GReg} {op imm : ℕ} {f : Dword → Dword} {ws : List Word} {v : Dword}
    (hws : some [encI op d a imm] = some ws) (hfetch : s.fetches e ws = true)
    (hv : f (s.gr e a) = v) : Wrote (immOp e op d a imm f s) s e d v 1 := by
  obtain rfl := Option.some.inj hws
  refine wrote_one (f := fun s => f (s.gr e a)) hfetch fun u hu => ?_
  rw [State.gr_cache s u hu, hv]

/-- A fetched long-form load. -/
theorem longOp_wrote {func : ℕ} {imm : Word} {f : Dword → Dword} {ws : List Word} {v : Dword}
    (hws : some [encL 0 d func, imm] = some ws) (hfetch : s.fetches e ws = true)
    (hv : f (s.gr e d) = v) : Wrote (longOp e d func imm f s) s e d v 2 := by
  obtain rfl := Option.some.inj hws
  refine wrote_two (f := fun s => f (s.gr e d)) hfetch fun u hu => ?_
  rw [State.gr_cache s u hu, hv]

theorem integerInstructionsComplete : Claims.IntegerInstructionsComplete := by
  intro i s e d v n ws hi hws hfetch
  change Wrote (exec i s) s e d (BitVec.ofInt 64 v) n
  cases i with
  | cAdd => cases hi; unfold exec; exact intOp_wrote hws hfetch (add_value ..)
  | cSub => cases hi; unfold exec; exact intOp_wrote hws hfetch (sub_value ..)
  | cAnd | cOr | cXor => cases hi; unfold exec; exact intOp_wrote hws hfetch (nat_value _)
  | cSll => cases hi; unfold exec; exact intOp_wrote hws hfetch (shl_value ..)
  | cSrl => cases hi; unfold exec; exact intOp_wrote hws hfetch (shr_value ..)
  | cSra => cases hi; unfold exec; exact intOp_wrote hws hfetch (sra_value ..)
  | cSlt => cases hi; unfold exec; exact intOp_wrote hws hfetch (slt_value ..)
  | cSltu => cases hi; unfold exec; exact intOp_wrote hws hfetch (ult_value ..)
  | cMul => cases hi; unfold exec; exact intOp_wrote hws hfetch (mul_value ..)
  | cMulhu => cases hi; unfold exec; exact intOp_wrote hws hfetch (mulhu_value ..)
  | cDivu => cases hi; unfold exec; exact intOp_wrote hws hfetch (divu_value ..)
  | cRemu => cases hi; unfold exec; exact intOp_wrote hws hfetch (remu_value ..)
  | cAddi => cases hi; unfold exec; exact immOp_wrote hws hfetch (addi_value ..)
  | cAndi | cOri | cXori => cases hi; unfold exec; exact immOp_wrote hws hfetch (nat_value _)
  | cSlli => cases hi; unfold exec; exact immOp_wrote hws hfetch (shl_value ..)
  | cSrli => cases hi; unfold exec; exact immOp_wrote hws hfetch (shr_value ..)
  | cSrai => cases hi; unfold exec; exact immOp_wrote hws hfetch (sra_value ..)
  | cSlti => cases hi; unfold exec; exact immOp_wrote hws hfetch (slti_value ..)
  | cLui => cases hi; unfold exec; exact immOp_wrote hws hfetch (lui_value _)
  | cLdi => cases hi; unfold exec; exact longOp_wrote hws hfetch (ldi_value _)
  | cLdiU => cases hi; unfold exec; exact longOp_wrote hws hfetch (ldiu_value _)
  | cLdiH => cases hi; unfold exec; exact longOp_wrote hws hfetch (ldih_value ..)
  | _ => cases hi

/-! ### Branches and jumps (R222) -/

/-- Writing g`d`, moving the PC to `x` and dropping the delivered lines. -/
theorem writeTo_spec (e d x : ℕ) (v : Dword) (s : State) (hwait : (s.eng e).wait = none) (hx : x < 2 ^ 32) :
    OnlyEngine e s (dropLines e (setPc e x (setGr e d v s))) ∧ (dropLines e (setPc e x (setGr e d v s))).pc e = x ∧
      WroteG e d v s (dropLines e (setPc e x (setGr e d v s))) ∧
      (dropLines e (setPc e x (setGr e d v s))).eng e =
        { s.eng e with g := ((dropLines e (setPc e x (setGr e d v s))).eng e).g, lines := [] } := by
  have heng := eng_setGr e d v s
  have hgr := gr_setGr e d v s
  obtain ⟨es, hrest⟩ := setGr_rest e d v s
  generalize setGr e d v s = u at heng hgr hrest
  have hkeep : ∀ j, (setPc e x u).eng j = u.eng j := fun j => State.eng_put_keep u ENG_PC.PC x e 0 j
  have hwait' : ((setPc e x u).eng e).wait = none := by rw [hkeep, heng, if_pos rfl]; exact hwait
  rw [dropLines_none _ _ hwait']
  refine ⟨⟨fun k hk => ?_, fun a ha => ?_, ?_⟩, ?_, fun k => ?_, ?_⟩
  · rw [State.eng_setEng, if_neg hk, hkeep, heng, if_neg hk]
  · rw [State.reg_setEng_keep, reg_setPc _ _ _ _ ha]
    exact State.reg_congr (by rw [hrest]) _
  · obtain ⟨rs, hpc⟩ : ∃ rs, setPc e x u = { u with regs := rs } := ⟨_, rfl⟩
    rw [hpc, hrest]
    exact ⟨_, rs, s.xip.lines, s.ecc.weak, s.ecc.corrected, rfl⟩
  · have hset : ∀ (z : State) y, (z.setEng e y).pc e = z.pc e := fun z y => State.get_congr rfl _ _ _
    rw [hset, pc_setPc]
    exact Nat.mod_eq_of_lt hx
  · rw [← hgr k]
    simp [State.gr, hkeep]
  · simp only [State.eng_setEng, if_true, hkeep]
    rw [heng, if_pos rfl]

/-- A code address, and the number that it is. -/
theorem codeAddrOk_of_inCode {x : ℕ} (h : inCode x) : codeAddrOk x = true ∧ x < 2 ^ 32 := by
  unfold inCode at h
  simp only [codeAddrOk, Bool.and_eq_true, Bool.or_eq_true, beq_iff_eq, decide_eq_true_eq]
  omega

/-- What a fetched instruction leaves that moves the PC to `x` and writes the return address, if it writes one, to g`link`. -/
def Jumped (r : Res) (s : State) (e : EngineIx) (x : ℤ) (link : Option GReg) (n : ℕ) : Prop :=
  ∃ t, r = .next t ∧ OnlyEngine e s t ∧ (t.pc e : ℤ) = x ∧
    (match link with
      | some d => WroteG e d (BitVec.ofNat 64 (s.pc e + 4 * n)) s t
      | none => ∀ k, t.gr e k = s.gr e k) ∧
    t.eng e = { s.eng e with g := (t.eng e).g, lines := [] }

section Run

variable {ws : List Word} {body : State → State} {x n : ℕ}
  (hfetch : s.fetches e ws = true) (hrun : ∃ u, SameButCache s u ∧ runCelil e ws body s = dropLines e (body u)) (hx : x < 2 ^ 32)

include hfetch hrun hx

/-- A fetched instruction whose body writes g`k` and moves the PC. -/
theorem ran_writeTo {k : ℕ} {v : Dword} (hbody : ∀ u, SameButCache s u → body u = setPc e x (setGr e k v u)) :
    ∃ t, (.next (runCelil e ws body s) : Res) = .next t ∧ OnlyEngine e s t ∧ (t.pc e : ℤ) = x ∧ WroteG e k v s t ∧
      t.eng e = { s.eng e with g := (t.eng e).g, lines := [] } := by
  obtain ⟨u, hu, heq⟩ := hrun
  have hwait : (u.eng e).wait = none := by
    obtain ⟨_, _, _, rfl⟩ := hu
    exact fetches_wait e ws s hfetch
  obtain ⟨honly, hpc, hwrote, heng⟩ := writeTo_spec e k x v u hwait hx
  rw [← hbody u hu, ← heq] at honly hpc hwrote heng
  refine ⟨_, rfl, honly.of_cache hu, congrArg _ hpc, hwrote.of_cache hu, ?_⟩
  obtain ⟨_, _, _, rfl⟩ := hu
  exact heng

theorem jumped_link {d : GReg}
    (hbody : ∀ u, SameButCache s u → body u = setPc e x (setGr e d (BitVec.ofNat 64 (u.pc e + 4 * n)) u)) :
    Jumped (.next (runCelil e ws body s)) s e x (some d) n :=
  ran_writeTo hfetch hrun hx fun u hu => by rw [hbody u hu, State.pc_cache s u hu]

theorem jumped_plain (hbody : ∀ u, SameButCache s u → body u = setPc e x u) :
    Jumped (.next (runCelil e ws body s)) s e x none n := by
  obtain ⟨t, ht, honly, hpc, hwrote, heng⟩ := ran_writeTo (k := 0) (v := 0) hfetch hrun hx hbody
  refine ⟨t, ht, honly, hpc, fun k => ?_, heng⟩
  rw [hwrote k]
  split
  · next hk => simp [hk, State.gr]
  · rfl

end Run

/-- A jump within code space. -/
theorem jumpTo_of_inCode {x : ℕ} (h : inCode x) (u : State) :
    jumpTo e x none u = setPc e x u ∧
      ∀ k n : ℕ, jumpTo e x (some (k, n)) u = setPc e x (setGr e k (BitVec.ofNat 64 (u.pc e + 4 * n)) u) := by
  unfold jumpTo
  rw [if_pos (codeAddrOk_of_inCode h).1]
  exact ⟨rfl, fun k n => by rw [if_pos (codeAddrOk_of_inCode h).1]⟩

theorem branchTarget_cast (pc : ℕ) (words : ℤ) : (branchTarget pc words : ℤ) = (pc + 4 * words) % 2 ^ 64 := by
  unfold branchTarget
  omega

/-- A branch of R222: the PC, whether it is taken or not. -/
theorem branchOp_jumped {op : ℕ} {a b : GReg} {imm : BitVec 16} {c : Dword → Dword → Bool} {ws : List Word} {taken : Bool}
    (hws : some [encI op a b imm.toNat] = some ws) (hfetch : s.fetches e ws = true) (htaken : c (s.gr e a) (s.gr e b) = taken)
    (hcode : taken = true → inCode ((s.pc e + 4 * imm.toInt) % 2 ^ 64)) :
    Jumped (branchOp e op a b imm c s) s e (if taken then (s.pc e + 4 * imm.toInt) % 2 ^ 64 else (s.pc e : ℤ) + 4 * (1 : ℕ))
      none 1 := by
  obtain rfl := Option.some.inj hws
  have hrun := runCelil_one e (encI op a b imm.toNat) (fun s =>
    if c (s.gr e a) (s.gr e b) then jumpTo e (branchTarget (s.pc e) imm.toInt) none s else advance e 1 s) s hfetch
  subst htaken
  by_cases hc : c (s.gr e a) (s.gr e b) = true
  · have hin : inCode (branchTarget (s.pc e) imm.toInt) := branchTarget_cast .. ▸ hcode hc
    rw [if_pos hc, ← branchTarget_cast]
    refine jumped_plain hfetch hrun (codeAddrOk_of_inCode hin).2 fun u hu => ?_
    rw [State.gr_cache s u hu, State.gr_cache s u hu, State.pc_cache s u hu, if_pos hc, (jumpTo_of_inCode hin u).1]
  · rw [if_neg hc, show (s.pc e : ℤ) + 4 * (1 : ℕ) = (s.pc e + 4 * 1 : ℕ) by push_cast; rfl]
    have hpc := fetches_pc e _ [] s hfetch
    refine jumped_plain hfetch hrun (by simp at hpc; omega) fun u hu => ?_
    rw [State.gr_cache s u hu, State.gr_cache s u hu, if_neg hc, advance, State.pc_cache s u hu]

/-- A jump of R222 to a target that its body computes. -/
theorem jump_jumped {ws : List Word} {target : State → ℕ} {x : ℤ} {n : ℕ} (hfetch : s.fetches e ws = true)
    (hrun : ∃ u, SameButCache s u ∧ runCelil e ws (fun s => jumpTo e (target s) (some (d, n)) s) s =
      dropLines e (jumpTo e (target u) (some (d, n)) u))
    (htarget : ∀ u, SameButCache s u → (target u : ℤ) = x % 2 ^ 64) (hcode : inCode (x % 2 ^ 64)) :
    Jumped (.next (runCelil e ws (fun s => jumpTo e (target s) (some (d, n)) s) s)) s e (x % 2 ^ 64) (some d) n := by
  have hin : inCode (target s) := htarget s (.refl s) ▸ hcode
  rw [← htarget s (.refl s)]
  refine jumped_link hfetch hrun (codeAddrOk_of_inCode hin).2 fun u hu => ?_
  have heq : target u = target s := by
    have := htarget u hu
    have := htarget s (.refl s)
    omega
  rw [heq, (jumpTo_of_inCode hin u).2]

theorem branchesAndJumpsComplete : Claims.BranchesAndJumpsComplete := by
  intro i s e taken x link n ws hi hws hfetch hcode
  change Jumped (exec i s) s e (if taken then x % 2 ^ 64 else (s.pc e : ℤ) + 4 * n) link n
  cases i with
  | cBeq | cBne => cases hi; unfold exec; exact branchOp_jumped hws hfetch (by rw [Bool.eq_iff_iff]; simp) hcode
  | cBlt | cBltu => cases hi; unfold exec; exact branchOp_jumped hws hfetch rfl hcode
  | cBge | cBgeu => cases hi; unfold exec; exact branchOp_jumped hws hfetch (by rw [Bool.eq_iff_iff]; simp [BitVec.slt, BitVec.ult]) hcode
  | cJal e d off =>
    cases hi
    cases hws
    refine jump_jumped hfetch (runCelil_one _ _ _ _ hfetch) (fun u hu => ?_) (hcode rfl)
    rw [branchTarget_cast, State.pc_cache s u hu]
  | cJalr e d a imm =>
    cases hi
    cases hws
    refine jump_jumped hfetch (runCelil_one _ _ _ _ hfetch) (fun u hu => ?_) (hcode rfl)
    rw [State.gr_cache s u hu, addi_value, BitVec.toNat_ofInt]
    omega
  | cJl e d addr =>
    cases hi
    cases hws
    refine jump_jumped hfetch (runCelil_two _ _ _ _ _ hfetch) (fun u hu => ?_) (hcode rfl)
    omega
  | _ => cases hi

end

/-- Settles O9: each instruction is one write of a general register, or one move of the PC, with the value that its row names. -/
theorem integersAndBranchesComplete : Obligations.IntegersAndBranchesComplete :=
  ⟨integerInstructionsComplete, branchesAndJumpsComplete⟩

end Sys2Proof.Proofs

/-! ## Loads and stores (R223, R224) -/

namespace Sys2Proof.Proofs

set_option Elab.async false

open Sys2Proof Sys2Proof.Machine Sys2Proof.Claims

/-! ### Numbers and their bytes -/

theorem leNat_lt (bs : List Byte) : leNat bs < 2 ^ (8 * bs.length) := by
  induction bs with
  | nil => simp [leNat]
  | cons b bs ih =>
    have := b.isLt
    rw [leNat, List.length_cons, show 8 * (bs.length + 1) = 8 * bs.length + 8 by ring, pow_add]
    omega

/-- A load extends the number that its bytes spell. -/
theorem extendLoad_leNat (u : Bool) (bs : List Byte) :
    extendLoad bs.length u (leNat bs) = BitVec.ofInt 64 (numberOf u bs) := by
  have hlt := leNat_lt bs
  cases u with
  | true => simp [extendLoad, numberOf]
  | false =>
    rw [extendLoad, if_neg Bool.false_ne_true, BitVec.signExtend, numberOf, BitVec.toInt_eq_toNat_cond, BitVec.toNat_ofNat,
      Nat.mod_eq_of_lt hlt]
    congr 1
    simp only [Bool.not_false, Bool.true_and, decide_eq_true_eq]
    split <;> split <;> first | omega | simp

section

variable {s : State} {e : EngineIx}

/-- An engine that goes on `n` words: its PC, its delivered lines, and nothing else. -/
theorem advance_spec {e n : ℕ} {y : State} (hwait : (y.eng e).wait = none) (hpc : y.pc e + 4 * n < 2 ^ 32) :
    (∀ k, k ≠ e → (dropLines e (advance e n y)).eng k = y.eng k) ∧
      (dropLines e (advance e n y)).eng e = { y.eng e with lines := [] } ∧
      (∀ a, a ≠ RegId.ENG_PC.at e → (dropLines e (advance e n y)).reg a = y.reg a) ∧
      (dropLines e (advance e n y)).pc e = y.pc e + 4 * n ∧
      ∃ es rs, dropLines e (advance e n y) = { y with engines := es, regs := rs } := by
  have hkeep : ∀ j, (advance e n y).eng j = y.eng j := fun j => State.eng_put_keep y ENG_PC.PC (y.pc e + 4 * n) e 0 j
  rw [dropLines_none _ _ (by rw [hkeep]; exact hwait)]
  refine ⟨fun k hk => ?_, ?_, fun a ha => ?_, ?_, ?_⟩
  · rw [State.eng_setEng, if_neg hk, hkeep]
  · rw [State.eng_setEng, if_pos rfl, hkeep]
  · rw [State.reg_setEng_keep]
    exact reg_setPc _ _ _ _ ha
  · have hset : ∀ (z : State) x, (z.setEng e x).pc e = z.pc e := fun z x => State.get_congr rfl _ _ _
    rw [hset, advance, pc_setPc]
    exact Nat.mod_eq_of_lt hpc
  · obtain ⟨rs, hrs⟩ : ∃ rs, advance e n y = { y with regs := rs } := ⟨_, rfl⟩
    rw [hrs]
    exact ⟨_, rs, rfl⟩

/-- A body that changes its engine alone, and then goes on. -/
theorem onlyEngine_advance {n : ℕ} {u : State} {z : Eng} (hu : SameButCache s u) (hz : z.wait = none)
    (hpc : s.pc e + 4 * n < 2 ^ 32) :
    OnlyEngine e s (dropLines e (advance e n (u.setEng e z))) ∧
      (dropLines e (advance e n (u.setEng e z))).pc e = s.pc e + 4 * n ∧
      (dropLines e (advance e n (u.setEng e z))).eng e = { z with lines := [] } := by
  have hset : (u.setEng e z).eng e = z := by rw [State.eng_setEng, if_pos rfl]
  have hpcu : (u.setEng e z).pc e = s.pc e := (State.get_congr rfl _ _ _ : _ = u.pc e).trans (State.pc_cache s u hu e)
  obtain ⟨hother, heng, hregs, hpc', es, rs, hrest⟩ := advance_spec (n := n) (e := e) (by rw [hset]; exact hz) (by rw [hpcu]; exact hpc)
  refine ⟨OnlyEngine.of_cache hu ⟨fun k hk => ?_, fun a ha => ?_, ?_⟩, hpc'.trans (by rw [hpcu]), heng.trans (by rw [hset])⟩
  · rw [hother k hk, State.eng_setEng, if_neg hk]
  · rw [hregs a ha, State.reg_setEng_keep]
  · rw [hrest]
    exact ⟨es, rs, u.xip.lines, u.ecc.weak, u.ecc.corrected, rfl⟩

/-- A fetched one-word instruction has room to go on. -/
theorem pc_room {w : Word} (hfetch : s.fetches e [w] = true) : s.pc e + 4 * 1 < 2 ^ 32 := by
  have := fetches_pc e w [] s hfetch
  rw [List.length_nil] at this
  omega

theorem eng_cache {u : State} (hu : SameButCache s u) (k : ℕ) : u.eng k = s.eng k := by
  obtain ⟨_, _, _, rfl⟩ := hu
  rfl

/-! ### Scratch (R223) -/

/-- A read after a write of several keys. -/
theorem get_setMany {α : Type} [DecidableEq α] (d : ℕ → α) : ∀ (vs : List α) (m : SMap α) (k j : ℕ),
    SMap.get d (SMap.setMany d m k vs) j = if k ≤ j ∧ j < k + vs.length then vs.getD (j - k) (d j) else SMap.get d m j
  | [], m, k, j => by rw [if_neg (by simp)]; rfl
  | v :: vs, m, k, j => by
    rw [SMap.setMany, get_setMany d vs, SMap.get_set]
    by_cases hj : j = k
    · subst hj
      simp
    · by_cases hin : k ≤ j ∧ j < k + (v :: vs).length
      · rw [if_pos hin, if_pos (by rw [List.length_cons] at hin; omega), show j - k = (j - (k + 1)) + 1 by omega,
          List.getD_cons_succ]
      · rw [if_neg hin, if_neg (by rw [List.length_cons] at hin; omega), if_neg hj]

/-- An engine after bytes are stored in its scratch. -/
def scratchStored (x : ℕ) (bs : List Byte) (z : Eng) : Eng :=
  { z with
    scratch := SMap.setMany (fun _ => (0 : Byte)) z.scratch x bs
    scrBad := z.scrBad.filter fun w => decide (8 * w < x) || decide (x + bs.length < 8 * w + 8) }

theorem setScratch_eq (x : ℕ) (bs : List Byte) (u : State) : setScratch e x bs u = u.setEng e (scratchStored x bs (u.eng e)) := rfl

theorem wroteScratch_of_stored {x : ℕ} {bs : List Byte} {t : State}
    (ht : t.eng e = { scratchStored x bs (s.eng e) with lines := [] }) : WroteScratch e x bs s t := by
  refine ⟨fun k => ?_, fun w => ?_⟩
  · rw [State.scratchByte, ht]
    exact get_setMany ..
  · rw [ht]
    simp only [scratchStored, List.mem_filter, Bool.or_eq_true, decide_eq_true_eq]
    constructor <;> rintro ⟨hw, hout⟩ <;> exact ⟨hw, by omega⟩

/-- The effective address of a load or store. -/
theorem effAddr_eq {a : GReg} {off : BitVec 13} {x : ℕ} (hx : (x : ℤ) = ((s.gr e a).toNat + off.toInt) % 2 ^ 64) {u : State}
    (hu : SameButCache s u) : u.effAddr e a off = x := by
  have hsum : s.gr e a + off.signExtend 64 = BitVec.ofInt 64 ((s.gr e a).toNat + off.toInt) := by
    simp [BitVec.ofInt_add, BitVec.signExtend]
  rw [State.effAddr, State.gr_cache s u hu, hsum, BitVec.toNat_ofInt]
  omega

theorem scratchAccessesComplete : Claims.ScratchAccessesComplete := by
  intro e w d a off s x hx halign hin
  have hok : scratchOk x (2 ^ w.val) (2 ^ w.val) = true := by
    simp only [scratchOk, Bool.and_eq_true, beq_iff_eq, decide_eq_true_eq]
    exact ⟨halign, hin⟩
  refine ⟨fun v hfetch hgood => wrote_body hfetch fun u hu => ⟨u, .refl u, ?_⟩, fun hfetch => ?_⟩
  · have hscratch : u.scratchAt e x (2 ^ w.val) = (List.range (2 ^ w.val)).map fun k => s.scratchByte e (x + k) := by
      simp only [State.scratchAt, eng_cache hu, State.scratchByte]
    have hbad : u.scratchBad e x (2 ^ w.val) = false := by rw [State.scratchBad, eng_cache hu]; exact hgood
    have hload := extendLoad_leNat v ((List.range (2 ^ w.val)).map fun k => s.scratchByte e (x + k))
    rw [List.length_map, List.length_range] at hload
    dsimp only
    rw [effAddr_eq hx hu, hok, hbad, hscratch, hload]
    rfl
  · obtain ⟨u, hu, hrun⟩ := runCelil_one e _ _ s hfetch
    refine ⟨_, congrArg Host.Outcome.next hrun, ?_⟩
    dsimp only
    rw [effAddr_eq hx hu, hok, State.gr_cache s u hu, Bool.not_true, if_neg Bool.false_ne_true]
    rw [setScratch_eq, eng_cache hu]
    have hwait : (scratchStored x (leBytes (2 ^ w.val) (s.gr e d).toNat) (s.eng e)).wait = none := fetches_wait e _ s hfetch
    obtain ⟨honly, hpc, heng⟩ := onlyEngine_advance hu hwait (pc_room hfetch)
    refine ⟨honly, wroteScratch_of_stored heng, hpc, ?_⟩
    rw [heng]
    rfl

/-! ### Shared memory (R224) -/

/-- Beside on-chip memory with its uncorrectable words, the order of the cache's lines and the single-bit errors, `y` is `s`. -/
def SameButStored (s y : State) : Prop :=
  ∃ ls m bad wk n, y = { s with
    xip := { s.xip with lines := ls }, mem := m, badWords := bad, ecc := { s.ecc with weak := wk, corrected := n } }

theorem sameButStored_store {u : State} (hu : SameButCache s u) (x : ℕ) (bs : List Byte) : SameButStored s (u.store x bs) := by
  obtain ⟨ls, wk, n, hu⟩ := hu
  obtain ⟨m, hset⟩ := setBytes_sameButMem bs u x
  rw [State.store, hset, hu]
  exact ⟨_, _, _, _, _, rfl⟩

/-- Going on after a store to on-chip memory. -/
theorem onlyEngineMem_advance {n x : ℕ} {bs : List Byte} {y : State} (hy : SameButStored s y) (hwrote : WroteMem x bs s y)
    (hwait : (s.eng e).wait = none) (hpc : s.pc e + 4 * n < 2 ^ 32) :
    OnlyEngineMem e s (dropLines e (advance e n y)) ∧ WroteMem x bs s (dropLines e (advance e n y)) ∧
      WentOn e n false false false s (dropLines e (advance e n y)) := by
  obtain ⟨ls, m, bad, wk, c, hy⟩ := hy
  have heng : ∀ k, y.eng k = s.eng k := fun k => by rw [hy]; rfl
  have hpcy : y.pc e = s.pc e := State.get_congr (by rw [hy]) ..
  obtain ⟨hother, hme, hregs, hpc', es, rs, hrest⟩ :=
    advance_spec (n := n) (e := e) (y := y) (by rw [heng]; exact hwait) (by rw [hpcy]; exact hpc)
  generalize dropLines e (advance e n y) = t at *
  refine ⟨⟨fun k hk => (hother k hk).trans (heng k), fun a ha => (hregs a ha).trans (State.reg_congr (by rw [hy]) a), ?_⟩, ?_,
    hpc'.trans (by rw [hpcy]), ?_⟩
  · rw [hrest, hy]
    exact ⟨es, rs, ls, m, bad, wk, c, rfl⟩
  · rw [hrest]
    exact hwrote
  · rw [hme, heng]
    rfl

/-- Bringing an entry to the front changes no look-up: it is the first of its key. -/
theorem find?_renew {α : Type} {ls : List (ℕ × α)} {key : ℕ} {l : ℕ × α} (h : ls.find? (fun m => m.1 == key) = some l) (k : ℕ) :
    (l :: ls.filter fun m => m.1 != key).find? (fun m => m.1 == k) = ls.find? (fun m => m.1 == k) := by
  have hl : l.1 = key := by simpa using List.find?_some h
  rw [List.find?_cons]
  by_cases hk : k = key
  · rw [hl, hk, beq_self_eq_true, h]
  · rw [hl, beq_eq_false_iff_ne.mpr (Ne.symm hk), List.find?_filter]
    change ls.find? _ = _
    congr 1
    funext m
    by_cases hm : m.1 = k <;> simp [hm, hk]

/-- A hit renews its line, and any later look-up of a line finds the same. -/
theorem xipLine_xipTouch (off k e : ℕ) (load : Bool) (s : State) : (xipTouch off s).xipLine e k load = s.xipLine e k load := by
  unfold xipTouch
  dsimp only
  split
  · next l hl =>
    simp only [State.xipLine]
    rw [find?_renew hl]
    rfl
  · rfl

/-- A fetch changes no look-up of a line. -/
theorem xipLine_fetchTouch (a k e : ℕ) (load : Bool) (s : State) : (fetchTouch a s).xipLine e k load = s.xipLine e k load := by
  unfold fetchTouch
  split
  · unfold sramFix
    dsimp only
    split <;> rfl
  · exact xipLine_xipTouch ..

theorem xipOn_cache {u : State} (hu : SameButCache s u) (off : ℕ) : u.xipOn off = s.xipOn off := by
  obtain ⟨_, _, _, rfl⟩ := hu
  rfl

/-- Where a load finds a value, g`d` takes it. -/
theorem wrote_load {w : Fin 4} {u : Bool} {d a : GReg} {off : BitVec 13} {x v : ℕ}
    (hx : (x : ℤ) = ((s.gr e a).toNat + off.toInt) % 2 ^ 64) (hfetch : s.fetches e [encM 0x12 d a w u off] = true)
    (hload : (fetchTouch (s.pc e) s).sharedLoad e x (2 ^ w.val) = .val v) :
    Wrote (execCLd e w u d a off s) s e d (extendLoad (2 ^ w.val) u v) 1 := by
  have htouch := fetchTouch_same (s.pc e) s
  refine wrote_fetched hfetch ?_
  dsimp only
  rw [effAddr_eq hx htouch, hload]
  dsimp only
  split
  · exact ⟨_, htouch.trans (sramFix_same ..), rfl⟩
  · exact ⟨_, htouch.trans (xipTouch_same ..), rfl⟩

theorem sharedAccessesComplete : Claims.SharedAccessesComplete := by
  intro e w d a off s x hx halign
  refine ⟨fun v hfetch hin hbank hgood => ?_, fun v line hfetch hlo hhi hon hline hlen => ?_, fun hfetch hlo hhi hbank => ?_⟩
  · have hload : (fetchTouch (s.pc e) s).sharedLoad e x (2 ^ w.val) =
        .val (leNat ((List.range (2 ^ w.val)).map fun k => s.byte (x + k))) := by
      obtain ⟨_, _, _, hu⟩ := fetchTouch_same (s.pc e) s
      have hloadable : loadable x = true := by simpa [loadable] using hin
      rw [hu, State.sharedLoad, if_neg (not_not.mpr halign), if_pos hloadable, if_neg]
      · rfl
      · rw [Bool.not_eq_true, Bool.or_eq_false_iff]
        exact ⟨hbank, hgood⟩
    have hvalue := extendLoad_leNat v ((List.range (2 ^ w.val)).map fun k => s.byte (x + k))
    rw [List.length_map, List.length_range] at hvalue
    rw [← hvalue]
    exact wrote_load hx hfetch hload
  · have hload : (fetchTouch (s.pc e) s).sharedLoad e x (2 ^ w.val) = .val (leNat ((line.drop (x % 64)).take (2 ^ w.val))) := by
      have hnot : ¬ loadable x = true := by
        simp only [loadable, Bool.or_eq_true, Bool.and_eq_true, decide_eq_true_eq]
        omega
      rw [State.sharedLoad, if_neg (not_not.mpr halign), if_neg hnot, if_pos (by simp [hlo, hhi])]
      have hline' : (x - 0x04000000) % 64 = x % 64 := by omega
      dsimp only
      rw [xipOn_cache (fetchTouch_same (s.pc e) s), hon, xipLine_fetchTouch, hline, hline']
      rfl
    have hvalue := extendLoad_leNat v ((line.drop (x % 64)).take (2 ^ w.val))
    have hroom : 2 ^ w.val ≤ 64 - x % 64 := by
      have := w.isLt
      interval_cases hw : w.val <;> omega
    rw [List.length_take, List.length_drop, hlen, Nat.min_eq_left hroom] at hvalue
    rw [← hvalue]
    exact wrote_load hx hfetch hload
  · obtain ⟨u, hu, hrun⟩ := runCelil_one e _ _ s hfetch
    have hstore : u.storeFault x (2 ^ w.val) = none := by
      obtain ⟨_, _, _, rfl⟩ := hu
      have hin : inStore x = true := by simp [inStore, hlo, hhi]
      rw [State.storeFault, if_neg (by simp [halign, hin])]
      exact if_neg (by rw [Bool.not_eq_true]; exact hbank)
    refine ⟨_, congrArg Host.Outcome.next hrun, ?_⟩
    have hwrote : WroteMem x (leBytes (2 ^ w.val) (s.gr e d).toNat) s (u.store x (leBytes (2 ^ w.val) (s.gr e d).toNat)) := by
      obtain ⟨_, _, _, rfl⟩ := hu
      exact store_wrote ..
    dsimp only
    rw [effAddr_eq hx hu, hstore, State.gr_cache s u hu]
    exact onlyEngineMem_advance (sameButStored_store hu ..) hwrote (fetches_wait e _ s hfetch) (pc_room hfetch)

end

/-- Settles O10: each access finds its bytes, and goes on. -/
theorem loadsAndStoresComplete : Obligations.LoadsAndStoresComplete := ⟨scratchAccessesComplete, sharedAccessesComplete⟩

end Sys2Proof.Proofs

/-! ## Time and waits (R232 to R236) -/

namespace Sys2Proof.Proofs

set_option Elab.async false

open Sys2Proof Sys2Proof.Machine Sys2Proof.Claims

section

variable {s : State} {e : EngineIx}

/-! ### Time registers -/

/-- What a fetched instruction leaves that writes `v` to t`d`. -/
def WroteTime (r : Res) (s : State) (e : EngineIx) (d : TReg) (v : BitVec 80) : Prop :=
  ∃ t, r = .next t ∧ OnlyEngine e s t ∧ WroteT e d v s t ∧ WentOn e 1 false true false s t

/-- An engine after a write of a time register. -/
def timeStored (d : ℕ) (v : BitVec 80) (z : Eng) : Eng := { z with t := SMap.set (fun _ => 0) z.t d v }

theorem wroteTime_advance {d : TReg} {v : BitVec 80} {u : State} (hu : SameButCache s u) (hwait : (s.eng e).wait = none)
    (hpc : s.pc e + 4 * 1 < 2 ^ 32) : WroteTime (.next (dropLines e (advance e 1 (setTr e d v u)))) s e d v := by
  have heq : setTr e d v u = u.setEng e (timeStored d v (s.eng e)) := by rw [← eng_cache hu]; rfl
  obtain ⟨honly, hpc', heng⟩ := onlyEngine_advance hu (z := timeStored d v (s.eng e)) hwait hpc
  rw [heq]
  refine ⟨_, rfl, honly, fun k => ?_, hpc', ?_⟩
  · rw [State.tr, heng]
    exact SMap.get_set ..
  · rw [heng]
    rfl

/-- A fetched instruction whose body writes a time register and goes on. -/
theorem wroteTime_one {w : Word} {d : TReg} {f : State → BitVec 80} {v : BitVec 80} (hfetch : s.fetches e [w] = true)
    (hf : ∀ u, SameButCache s u → f u = v) :
    WroteTime (.next (runCelil e [w] (fun s => advance e 1 (setTr e d (f s) s)) s)) s e d v := by
  obtain ⟨u, hu, hrun⟩ := runCelil_one e w (fun s => advance e 1 (setTr e d (f s) s)) s hfetch
  rw [hrun, hf u hu]
  exact wroteTime_advance hu (fetches_wait e _ s hfetch) (pc_room hfetch)

theorem mcount_cache {u : State} (hu : SameButCache s u) : u.mcount = s.mcount := by
  obtain ⟨_, _, _, rfl⟩ := hu
  rfl

/-- The sum of a time and a signed number, modulo 2^80. -/
theorem add_signExtend_value (x : BitVec 80) (y : Dword) :
    x + y.signExtend 80 = BitVec.ofNat 80 ((x.toNat + y.toInt) % 2 ^ 80).toNat := by
  have hsum : x + y.signExtend 80 = BitVec.ofInt 80 (x.toNat + y.toInt) := by simp [BitVec.ofInt_add, BitVec.signExtend]
  apply BitVec.eq_of_toNat_eq
  rw [hsum, BitVec.toNat_ofInt, BitVec.toNat_ofNat]
  omega

theorem wroteTime_of_timeValue {i : Instr} {td : TReg} {v : ℕ} {ws : List Word} (hi : timeValue s i = some (e, td, v))
    (hws : celilWords i = some ws) (hfetch : s.fetches e ws = true) : WroteTime (exec i s) s e td (BitVec.ofNat 80 v) := by
  cases i with
  | cTnow =>
    cases hi
    obtain rfl := Option.some.inj hws
    exact wroteTime_one hfetch fun u hu => by rw [mcount_cache hu, ts80, Nat.add_zero]
  | cTadd =>
    cases hi
    obtain rfl := Option.some.inj hws
    refine wroteTime_one hfetch fun u hu => ?_
    rw [State.tr_cache s u hu, State.gr_cache s u hu]
    rfl
  | cTaddf =>
    cases hi
    obtain rfl := Option.some.inj hws
    refine wroteTime_one hfetch fun u hu => ?_
    rw [State.tr_cache s u hu, State.gr_cache s u hu, add_signExtend_value]
  | cTput =>
    cases hi
    obtain rfl := Option.some.inj hws
    refine wroteTime_one hfetch fun u hu => ?_
    rw [State.gr_cache s u hu, State.gr_cache s u hu]
    rfl
  | cTmov =>
    cases hi
    obtain rfl := Option.some.inj hws
    refine wroteTime_one hfetch fun u hu => ?_
    rw [State.tr_cache s u hu, BitVec.ofNat_toNat, BitVec.setWidth_eq]
  | _ => cases hi

theorem clampInt_eq {lo hi : ℤ} (h : lo ≤ hi) (x : ℤ) : clampInt lo hi x = max lo (min hi x) := by
  unfold clampInt
  split
  · omega
  · split <;> omega

theorem onlyEngine_trans {u t : State} (h : OnlyEngine e s u) (k : OnlyEngine e u t) : OnlyEngine e s t := by
  refine ⟨fun j hj => (k.engines j hj).trans (h.engines j hj), fun a ha => (k.regs a ha).trans (h.regs a ha), ?_⟩
  obtain ⟨es, rs, ls, wk, n, hu⟩ := h.rest
  obtain ⟨es', rs', ls', wk', n', ht⟩ := k.rest
  rw [ht, hu]
  exact ⟨es', rs', ls', wk', n', rfl⟩

theorem onlyEngine_setGr (d : ℕ) (v : Dword) (u : State) : OnlyEngine e u (setGr e d v u) := by
  obtain ⟨es, hrest⟩ := setGr_rest e d v u
  refine ⟨fun k hk => by rw [eng_setGr, if_neg hk], fun a _ => State.reg_congr (by rw [hrest]) a, ?_⟩
  rw [hrest]
  exact ⟨es, u.regs, u.xip.lines, u.ecc.weak, u.ecc.corrected, rfl⟩

/-- A fetched instruction that writes two general registers, the second over the first, and goes on. -/
theorem wrote_two_registers {w : Word} {d b : ℕ} {x y : Dword} {body : State → State} (hfetch : s.fetches e [w] = true)
    (hbody : ∀ u, SameButCache s u → ∃ z, SameButCache s z ∧ body u = writeNext e b y (setGr e d x z)) :
    ∃ t, (.next (runCelil e [w] body s) : Res) = .next t ∧ OnlyEngine e s t ∧
      (∀ k, t.gr e k = if k = 0 then 0 else if k = b then y else if k = d then x else s.gr e k) ∧
      WentOn e 1 true false false s t := by
  obtain ⟨u, hu, hrun⟩ := runCelil_one e w body s hfetch
  obtain ⟨z, hz, hbody⟩ := hbody u hu
  have heng := eng_setGr e d x z e
  rw [if_pos rfl, eng_cache hz] at heng
  have hpc : (setGr e d x z).pc e = s.pc e := by
    obtain ⟨es, hrest⟩ := setGr_rest e d x z
    exact (State.get_congr (by rw [hrest]) _ _ _ : _ = z.pc e).trans (State.pc_cache s z hz e)
  have hwait : ((setGr e d x z).eng e).wait = none := by
    rw [heng]
    exact fetches_wait e _ s hfetch
  obtain ⟨honly, hwrote, hwent⟩ := writeOn_spec e b 1 y (setGr e d x z) hwait (by rw [hpc]; exact pc_room hfetch)
  rw [hrun, hbody]
  refine ⟨_, rfl, onlyEngine_trans (.of_cache hz (onlyEngine_setGr ..)) honly, fun k => ?_, ⟨by rw [← hpc]; exact hwent.pc, ?_⟩⟩
  · refine (hwrote k).trans ?_
    rw [gr_setGr, State.gr_cache s z hz]
    split <;> rfl
  · refine hwent.engine.trans ?_
    rw [heng]
    rfl

theorem timeInstructionsComplete : Claims.TimeInstructionsComplete := by
  refine ⟨fun i s e td v ws hi hws hfetch => wroteTime_of_timeValue hi hws hfetch, fun e d ta tb s hfetch => ?_,
    fun e d b ta s hfetch => ?_⟩
  · refine wrote_one hfetch fun u hu => ?_
    rw [State.tr_cache s u hu, State.tr_cache s u hu, clampInt_eq (by norm_num)]
  · refine wrote_two_registers hfetch fun u hu => ⟨u, hu, ?_⟩
    rw [State.tr_cache s u hu]

/-! ### Waits -/

/-- Beside its account of time, engine `y` is `x`. -/
def SameButTimes (x y : Eng) : Prop :=
  y = { x with busyFrom := y.busyFrom, inService := y.inService, ran := y.ran, idleOwn := y.idleOwn }

/-- What a change of an engine's state leaves. -/
theorem setEngState_spec (k st : ℕ) (u : State) :
    SameButTimes (u.eng k) ((setEngState k st u).eng k) ∧ (setEngState k st u).engState k = st % 8 ∧
      (setEngState k st u).pc k = u.pc k ∧ (setEngState k st u).mem = u.mem := by
  unfold setEngState SameButTimes
  dsimp only
  refine ⟨?_, State.get_put _ _ _ _ _ (by decide), ?_, rfl⟩
  · rw [State.eng_put_keep, State.eng_setEng, if_pos rfl]
  · rw [State.pc, State.get_put_fam _ _ _ _ _ _ _ _ (by decide)]
    exact State.get_congr rfl ..

/-- Dropping the delivered lines, where the engine does not wait for one. -/
theorem dropLines_spec {k : ℕ} {u : State} (h : ∀ off load, (u.eng k).wait ≠ some (.xip off load)) :
    dropLines k u = u.setEng k { u.eng k with lines := [] } := by
  unfold dropLines
  split
  · exact absurd ‹_› (h _ _)
  · rfl

theorem get_setGr (k d : ℕ) (v : Dword) (u : State) (f : Fld) (i j : ℕ) : (setGr k d v u).get f i j = u.get f i j := by
  unfold setGr
  split
  · rfl
  · exact State.get_congr rfl ..

theorem mem_setGr (k d : ℕ) (v : Dword) (u : State) : (setGr k d v u).mem = u.mem := by
  unfold setGr
  split <;> simp

theorem pc_setEng (u : State) (k j : ℕ) (z : Eng) : (u.setEng k z).pc j = u.pc j := State.get_congr rfl ..

/-- What an engine that parks leaves: it waits where it stands. -/
def Parked (r : Res) (s : State) (e : EngineIx) (w : EngWait) : Prop :=
  ∃ t, r = .next t ∧ t.engState e = esWait ∧ (t.eng e).wait = some w ∧ t.pc e = s.pc e ∧ (∀ k, t.gr e k = s.gr e k) ∧ t.mem = s.mem

theorem parked_of_park {w : EngWait} (hw : ∀ off load, w ≠ .xip off load) {u : State} (hu : SameButCache s u) :
    Parked (.next (dropLines e (park e w u))) s e w := by
  obtain ⟨heng, hstate, hpc, hmem⟩ := setEngState_spec e esWait (u.setEng e { u.eng e with wait := some w })
  change SameButTimes _ ((park e w u).eng e) at heng
  change (park e w u).engState e = _ at hstate
  change (park e w u).pc e = _ at hpc
  change (park e w u).mem = _ at hmem
  rw [State.eng_setEng, if_pos rfl, eng_cache hu] at heng
  rw [dropLines_spec fun off load h => hw off load (Option.some.inj (by rw [← h, heng]))]
  refine ⟨_, rfl, (State.get_congr rfl _ _ _ : _ = (park e w u).engState e).trans hstate, ?_, ?_, fun k => ?_, ?_⟩
  · rw [State.eng_setEng, if_pos rfl, heng]
  · rw [pc_setEng, hpc, pc_setEng, State.pc_cache s u hu]
  · rw [State.gr, State.eng_setEng, if_pos rfl, heng]
    rfl
  · rw [State.setEng_mem, hmem, State.setEng_mem]
    obtain ⟨_, _, _, rfl⟩ := hu
    rfl

/-- An engine that is resumed goes on by one word. -/
theorem resume_spec (u : State) :
    (resume e u).engState e = esRun ∧ ((resume e u).eng e).wait = none ∧ (resume e u).pc e = (u.pc e + 4) % 2 ^ 32 ∧
      (∀ k, (resume e u).gr e k = u.gr e k) ∧ (resume e u).mem = u.mem := by
  obtain ⟨heng, hstate, hpc, hmem⟩ := setEngState_spec e esRun (u.setEng e { u.eng e with wait := none, lines := [] })
  unfold resume
  generalize setEngState e esRun (u.setEng e { u.eng e with wait := none, lines := [] }) = y at *
  rw [State.eng_setEng, if_pos rfl] at heng
  have hkeep : (advance e 1 y).eng e = y.eng e := State.eng_put_keep y ENG_PC.PC (y.pc e + 4 * 1) e 0 e
  refine ⟨?_, ?_, ?_, fun k => ?_, (State.put_mem ..).trans (hmem.trans (State.setEng_mem ..))⟩
  · rw [State.engState, advance, setPc, State.get_put_fam _ _ _ _ _ _ _ _ (by decide)]
    exact hstate
  · rw [hkeep, heng]
  · rw [advance, pc_setPc, hpc, pc_setEng]
  · rw [State.gr, hkeep, heng]
    rfl

theorem raiseCount_cache {u : State} (hu : SameButCache s u) (src : ℕ) : u.raiseCount src = s.raiseCount src := by
  obtain ⟨_, _, _, rfl⟩ := hu
  rfl

theorem waiteResult_cache {u : State} (hu : SameButCache s u) (src cnt dl : ℕ) : waiteResult u src cnt dl = waiteResult s src cnt dl := by
  rw [waiteResult, waiteResult, raiseCount_cache hu, mcount_cache hu]

/-! The three answers of WAITE (R236). -/

theorem waiteResult_counted {src cnt dl : ℕ} (h : s.raiseCount src ≠ cnt) :
    waiteResult s src cnt dl = some (BitVec.ofNat 64 (s.raiseCount src)) := by
  rw [waiteResult, if_pos h]

theorem waiteResult_passed {src cnt dl : ℕ} (h : s.raiseCount src = cnt) (hset : dl ≠ 0) (hdue : dl ≤ s.mcount) :
    waiteResult s src cnt dl = some (BitVec.ofNat 64 (s.raiseCount src + 2 ^ 32)) := by
  rw [waiteResult, if_neg (not_not.mpr h), if_pos (by simp [hset, hdue])]

theorem waiteResult_none {src cnt dl : ℕ} (h : s.raiseCount src = cnt) (hdl : dl = 0 ∨ s.mcount < dl) :
    waiteResult s src cnt dl = none := by
  rw [waiteResult, if_neg (not_not.mpr h), if_neg]
  simp only [ne_eq, Bool.and_eq_true, decide_eq_true_eq]
  omega

/-- WAITE of a source that exists: its result, or the wait for one. -/
theorem waite_wrote {d a b : GReg} {k : TReg} {v : Dword} (hfetch : s.fetches e [encA 0x1F a b d k 0] = true)
    (hsrc : (s.gr e a).toNat ≤ 383)
    (hres : waiteResult s (s.gr e a).toNat ((s.gr e b).toNat % 2 ^ 32) (tickOf (s.tr e k)) = some v) :
    Wrote (exec (.cWaite e d a b k) s) s e d v 1 := by
  refine wrote_body hfetch fun u hu => ⟨u, .refl u, ?_⟩
  dsimp only
  rw [State.gr_cache s u hu, State.gr_cache s u hu, State.tr_cache s u hu, if_neg (by omega), waiteResult_cache hu, hres]

theorem waite_parked {d a b : GReg} {k : TReg} (hfetch : s.fetches e [encA 0x1F a b d k 0] = true)
    (hsrc : (s.gr e a).toNat ≤ 383)
    (hres : waiteResult s (s.gr e a).toNat ((s.gr e b).toNat % 2 ^ 32) (tickOf (s.tr e k)) = none) :
    Parked (exec (.cWaite e d a b k) s) s e (.waite d (s.gr e a).toNat ((s.gr e b).toNat % 2 ^ 32) (tickOf (s.tr e k))) := by
  obtain ⟨u, hu, hrun⟩ := runCelil_one e _ _ s hfetch
  change Parked (.next (runCelil e _ _ s)) s e _
  rw [hrun]
  dsimp only
  rw [State.gr_cache s u hu, State.gr_cache s u hu, State.tr_cache s u hu, if_neg (by omega), waiteResult_cache hu, hres]
  exact parked_of_park (by simp) hu

/-- The end of a WAITE's wait. -/
theorem waiteResume_spec {d src cnt dl : ℕ} {v : Dword} (hwait : (s.eng e).wait = some (.waite d src cnt dl))
    (hdown : s.cdDown = false) (hres : waiteResult s src cnt dl = some v) :
    ∃ t, exec (.waiteResume e) s = .next t ∧ WroteG e d v s t ∧ t.engState e = esRun ∧ (t.eng e).wait = none ∧
      t.pc e = (s.pc e + 4) % 2 ^ 32 ∧ t.mem = s.mem := by
  have hexec : exec (.waiteResume e) s = .next (setGr e d v (resume e s)) := by
    change execWaiteResume e s = _
    rw [execWaiteResume, hwait]
    dsimp only
    rw [hres]
    dsimp only
    rw [hdown, if_neg Bool.false_ne_true]
  obtain ⟨hstate, hnone, hpc, hgr, hmem⟩ := resume_spec (e := e) s
  refine ⟨_, hexec, fun k => ?_, (get_setGr ..).trans hstate, ?_, (get_setGr ..).trans hpc, (mem_setGr ..).trans hmem⟩
  · rw [gr_setGr, hgr]
  · rw [eng_setGr, if_pos rfl]
    exact hnone

/-- An engine that goes on and writes nothing. -/
theorem wentOn_advance {n : ℕ} {u : State} (hu : SameButCache s u) (hwait : (s.eng e).wait = none) (hpc : s.pc e + 4 * n < 2 ^ 32) :
    OnlyEngine e s (dropLines e (advance e n u)) ∧ WentOn e n false false false s (dropLines e (advance e n u)) := by
  obtain ⟨hother, heng, hregs, hpc', es, rs, hrest⟩ := advance_spec (n := n) (e := e) (y := u) (by rw [eng_cache hu]; exact hwait)
    (by rw [State.pc_cache s u hu]; exact hpc)
  refine ⟨.of_cache hu ⟨hother, hregs, ?_⟩, .of_cache hu ⟨hpc', heng⟩⟩
  rw [hrest]
  exact ⟨es, rs, u.xip.lines, u.ecc.weak, u.ecc.corrected, rfl⟩

theorem waitsComplete : Claims.WaitsComplete := by
  refine ⟨fun e ta s hfetch hdue => ?_, fun e ta s hfetch hlate => ?_, fun e tick s hwait hdown hdue => ?_,
    fun e d a s hfetch hsrc => ?_, fun e d a b k s hfetch hsrc hne => waite_wrote hfetch hsrc (waiteResult_counted hne),
    fun e d a b k s hfetch hsrc heq hset hdue => waite_wrote hfetch hsrc (waiteResult_passed heq hset hdue),
    fun e d a b k s hfetch hsrc heq hdl => waite_parked hfetch hsrc (waiteResult_none heq hdl),
    fun e d src cnt dl s hwait hdown heq hset hdue => waiteResume_spec hwait hdown (waiteResult_passed heq hset hdue),
    fun e d src cnt dl s hwait hdown hne => waiteResume_spec hwait hdown (waiteResult_counted hne)⟩
  · obtain ⟨u, hu, hrun⟩ := runCelil_one e _ _ s hfetch
    refine ⟨_, congrArg Host.Outcome.next hrun, ?_⟩
    dsimp only
    rw [State.tr_cache s u hu, mcount_cache hu, if_pos hdue]
    exact wentOn_advance hu (fetches_wait e _ s hfetch) (pc_room hfetch)
  · obtain ⟨u, hu, hrun⟩ := runCelil_one e _ _ s hfetch
    change Parked (.next (runCelil e _ _ s)) s e _
    rw [hrun]
    dsimp only
    rw [State.tr_cache s u hu, mcount_cache hu, if_neg (by omega)]
    exact parked_of_park (by simp) hu
  · obtain ⟨hstate, hnone, hpc, hgr, hmem⟩ := resume_spec (e := e) s
    refine ⟨resume e s, ?_, hstate, hnone, hpc, hgr, hmem⟩
    change execTwaitResume e s = _
    rw [execTwaitResume, hwait]
    dsimp only
    rw [hdown, if_pos (by simpa using hdue)]
  · refine wrote_body hfetch fun u hu => ⟨u, .refl u, ?_⟩
    dsimp only
    rw [State.gr_cache s u hu, if_neg (by omega), raiseCount_cache hu]

end

/-- Settles O12: an instruction writes its register and goes on, or parks; a resumption goes on where the engine stands. -/
theorem timeAndWaitInstructionsComplete : Obligations.TimeAndWaitInstructionsComplete :=
  ⟨timeInstructionsComplete, waitsComplete⟩

end Sys2Proof.Proofs

/-! ## Register accesses of an engine (R227, R228, R303, R308, R309) -/

namespace Sys2Proof.Proofs

set_option Elab.async false

open Sys2Proof Sys2Proof.Machine Sys2Proof.Claims

section

variable {s : State} {r : RegAt} {a o : ℕ} {v : Word}

/-! ### The register map read backwards -/

theorem findReg_some : ∀ {l : List RegId}, findReg a l = some r → r.id ∈ l ∧ (regRow r.id).index a = some (r.i, r.j)
  | [], h => by cases h
  | q :: l, h => by
    unfold findReg at h
    split at h
    · next hq =>
      cases h
      exact ⟨List.mem_cons_self, hq⟩
    · obtain ⟨hm, hi⟩ := findReg_some h
      exact ⟨List.mem_cons_of_mem _ hm, hi⟩

/-- A register's address is that of its family and place. -/
theorem regOf_some (h : regOf a = some r) : r.i < (regRow r.id).n1 ∧ r.j < (regRow r.id).n2 ∧ a = r.id.at r.i r.j := by
  obtain ⟨hf, -⟩ := Option.filter_eq_some_iff.mp h
  obtain ⟨hi, hj, ha⟩ := RegRow.index_some _ _ _ _ (findReg_some hf).2
  exact ⟨hi, hj, ha.trans (RegId.at_eq _ _ _ hi hj).symm⟩

theorem regionTop_le (b : ℕ) : regionTop b ≤ 0x4000000 := by
  unfold regionTop
  repeat' split
  all_goals omega

/-- No register lies beyond the descriptors and contexts. -/
theorem regOf_lt (h : regOf a = some r) : a < 0x4000000 := by
  obtain ⟨hi, hj, rfl⟩ := regOf_some h
  obtain ⟨-, -, htop, -⟩ := r.id.ok
  have hle := (regRow r.id).le_top r.i r.j hi hj
  rw [← RegId.at_eq _ _ _ hi hj] at hle
  exact (hle.trans_lt htop).trans_le (regionTop_le _)

/-- The address of another family's register differs. -/
theorem ne_at_of_id (h : regOf a = some r) {q : RegId} (hq : r.id ≠ q) (i j : ℕ) : a ≠ q.at i j := by
  obtain ⟨-, -, rfl⟩ := regOf_some h
  exact RegId.at_ne _ _ _ _ _ _ hq

/-! ### Served accesses -/

/-- What a served access finds. -/
structure Served (s : State) (o a : ℕ) (write : Bool) : Prop where
  on : s.vetchOff = false
  bus : s.busOn o = true
  pair : (s.org o).pair = none
  aligned : a % 4 = 0
  base : baseOf a = a
  may : s.mayAccess o a write = true
  noMail : mailboxAt a = false
  noMsix : msixTableAt a = none
  noPba : msixPbaAt a = none
  noCtx : ctxOffset a = none
  free : s.barred a = false
  thawed : write = true → s.frozen a = false

theorem serves_iff {write : Bool} : s.serves o a write = true ↔ Served s o a write := by
  simp only [State.serves, Bool.and_eq_true, Bool.not_eq_true', Option.isNone_iff_eq_none, beq_iff_eq, Bool.and_eq_false_iff]
  constructor
  · rintro ⟨⟨⟨⟨⟨⟨⟨⟨⟨⟨⟨h1, h2⟩, h3⟩, h4⟩, h5⟩, h6⟩, h7⟩, h8⟩, h9⟩, h10⟩, h11⟩, h12⟩
    exact ⟨h1, h2, h3, h4, h5, h6, h7, h8, h9, h10, h11, fun hw => h12.resolve_left (by simp [hw])⟩
  · rintro ⟨h1, h2, h3, h4, h5, h6, h7, h8, h9, h10, h11, h12⟩
    refine ⟨⟨⟨⟨⟨⟨⟨⟨⟨⟨⟨h1, h2⟩, h3⟩, h4⟩, h5⟩, h6⟩, h7⟩, h8⟩, h9⟩, h10⟩, h11⟩, ?_⟩
    cases write
    · exact .inl rfl
    · exact .inr (h12 rfl)

/-- A register is no reserved address. -/
theorem reservedAt_of_served {write : Bool} (h : Served s o a write) (hr : regOf a = some r) : reservedAt a = false := by
  have hlt := regOf_lt hr
  simp [reservedAt, h.aligned, h.base, hr, hlt]

theorem raccAddr_of_served {write : Bool} (h : Served s o a write) (hr : regOf a = some r) : raccAddr a = false := by
  simp [raccAddr, h.noMail, reservedAt_of_served h hr]

/-- A served read of a register is a direct read of it. -/
theorem vetchRead_of_served (h : Served s o a false) (hr : regOf a = some r) :
    vetchRead o a s = (some (readReg r a s).1, (readReg r a s).2) := by
  have htick : pairTick o a false 0#32 s = s := by simp [pairTick, h.pair]
  have hlink : s.linkRefused o = false := linkRefused_of_mayAccess h.may
  have hread : registerRead a s = readReg r a s := by simp [registerRead, h.base, hr, h.free]
  simp [vetchRead, h.on, h.noMail, htick, hlink, h.aligned, h.may, h.noMsix, h.noCtx, h.noPba, hread]

theorem engineRead_of_served {e : ℕ} (h : Served s e a false) (hr : regOf a = some r) :
    engineRead e a s = (some (readReg r a s).1, (readReg r a s).2) := by
  simp [engineRead, h.on, raccAddr_of_served h hr, vetchRead_of_served h hr]

/-- A served write of a register that is not of a pair is a direct write of it. -/
theorem vetchWrite_of_served (h : Served s o a true) (hr : regOf a = some r) (hA : r.id.isPairA = false) (hB : r.id.isPairB = false)
    (v : Word) : vetchWrite o a v s = (false, directWrite o r a v s) := by
  have htick : pairTick o a true v s = s := by simp [pairTick, h.pair]
  have hlink : s.linkRefused o = false := linkRefused_of_mayAccess h.may
  have htest : s.testBarred o r = false := by
    have hTA : r.id ≠ .TEST_CTRL_A := by rintro e; rw [e] at hA; cases hA
    have hTB : r.id ≠ .TEST_CTRL_B := by rintro e; rw [e] at hB; cases hB
    simp [State.testBarred, hTA, hTB]
  have hreg : registerWrite o a v s = (false, directWrite o r a v s) := by
    simp [registerWrite, h.base, hr, htest, h.free, hA, hB, h.thawed rfl]
  simp [vetchWrite, h.on, h.noMail, htick, hlink, h.aligned, h.may, h.noMsix, h.noCtx, h.noPba, hreg]

/-! ### What a direct read leaves (R309) -/

/-- The bits that a fold over bit numbers collects. -/
theorem foldl_bits (p q : ℕ → Bool) (n : ℕ) :
    let x := (List.range n).foldl (fun (m : ℕ × Bool) b => if p b then (if q b then (m.1 + 2 ^ b, m.2) else (m.1, true)) else m) (0, false)
    x.1 < 2 ^ n ∧ ∀ b, x.1.testBit b = (decide (b < n) && (p b && q b)) := by
  induction n with
  | zero => simp
  | succ n ih =>
    obtain ⟨hlt, hbits⟩ := ih
    dsimp only at hlt hbits ⊢
    rw [List.range_succ, List.foldl_append]
    generalize (List.range n).foldl _ (0, false) = x at *
    have hkeep : ∀ b, x.1.testBit b = (decide (b < n + 1) && (p b && q b)) ↔ ¬ (b = n ∧ p b = true ∧ q b = true) := by
      intro b
      rw [hbits]
      rcases lt_trichotomy b n with h | h | h
      · simp [h, h.ne, Nat.lt_succ_of_lt h]
      · subst h
        simp
      · simp [h.ne', show ¬ b < n by omega, show ¬ b < n + 1 by omega]
    have hpow : 2 ^ (n + 1) = 2 ^ n + 2 ^ n := by ring
    simp only [List.foldl_cons, List.foldl_nil]
    split
    · next hp =>
      split
      · next hq =>
        refine ⟨by dsimp only; omega, fun b => ?_⟩
        dsimp only
        rcases lt_trichotomy b n with h | h | h
        · rw [Nat.add_comm, Nat.testBit_two_pow_add_gt h, hbits]
          simp [h, Nat.lt_succ_of_lt h]
        · subst h
          rw [Nat.add_comm, Nat.testBit_two_pow_add_eq, hbits]
          simp [hp, hq]
        · have hsmall : x.1 + 2 ^ n < 2 ^ b :=
            (show x.1 + 2 ^ n < 2 ^ (n + 1) by omega).trans_le (Nat.pow_le_pow_right (by norm_num) h)
          simp [Nat.testBit_lt_two_pow hsmall, show ¬ b < n + 1 by omega]
      · next hq => exact ⟨by dsimp only; omega, fun b => (hkeep b).mpr fun hb => hq (hb.1 ▸ hb.2.2)⟩
    · next hp => exact ⟨by omega, fun b => (hkeep b).mpr fun hb => hp (hb.1 ▸ hb.2.1)⟩

/-- The bits of R309 that a read or a clear takes. -/
theorem rccClears_bits (w : Word) (mask b : ℕ) : (s.rccClears r w mask).1.testBit b =
    (decide (b < 32) && (((regRow r.id).rcc.testBit b && mask.testBit b && w.getLsbD b) && s.causeGone r b)) :=
  (foldl_bits (fun b => (regRow r.id).rcc.testBit b && mask.testBit b && w.getLsbD b) (s.causeGone r) 32).2 b

theorem getLsbD_clearBits (m b : ℕ) (hb : b < 32) : ((clearBits a m s).reg a).getLsbD b = ((s.reg a).getLsbD b && !m.testBit b) := by
  rw [clearBits, State.reg_setReg, if_pos rfl]
  rw [BitVec.getLsbD_and, BitVec.getLsbD_not, BitVec.getLsbD_ofNat, decide_eq_true hb, Bool.true_and, Bool.true_and]

theorem reg_clearBits_ne {m x : ℕ} (hx : x ≠ a) : (clearBits a m s).reg x = s.reg x := by
  rw [clearBits, State.reg_setReg, if_neg hx]

/-- No register of R309 is the count of kept bits, a PC or one that reads 0. -/
theorem rcc_families : (regAll.all fun q => decide ((regRow q).rcc = 0) ||
    !(q == RegId.VETCH_CNT) && !(q == RegId.ENG_PC)) = true := by decide +kernel

theorem ne_of_rcc (h : (regRow r.id).rcc ≠ 0) : r.id ≠ .VETCH_CNT ∧ r.id ≠ .ENG_PC := by
  have := List.all_eq_true.mp rcc_families r.id (mem_regAll _)
  simpa [h] using this

/-- A direct read changes registers only. -/
theorem readReg_rest : ∃ rs, (readReg r a s).2 = { s with regs := rs } := by
  unfold readReg
  split
  · exact ⟨s.regs, rfl⟩
  · dsimp only
    split
    · exact ⟨s.regs, rfl⟩
    · unfold State.when
      split <;> split <;> exact ⟨_, rfl⟩

/-- What R309 leaves of the registers. -/
theorem readReg_leaves (hr : regOf a = some r) (hzero : r.id.readsZero = false) :
    ReadLeaves r a (s.view r a) [] s (readReg r a s).2 := by
  unfold readReg
  rw [hzero, if_neg Bool.false_ne_true]
  dsimp only
  by_cases hrcc : (regRow r.id).rcc = 0
  · rw [if_pos hrcc]
    exact ⟨fun b _ => by simp [hrcc], fun _ _ _ _ => rfl⟩
  · rw [if_neg hrcc]
    have hcnt : a ≠ RegId.VETCH_CNT.at := ne_at_of_id hr (ne_of_rcc hrcc).1 0 0
    have hbits := rccClears_bits (s := s) (r := r) (s.view r a) 0xFFFFFFFF
    generalize s.rccClears r (s.view r a) 0xFFFFFFFF = x at *
    have hmask : ∀ b < 32, (0xFFFFFFFF : ℕ).testBit b = true := fun b hb => by
      rw [show (0xFFFFFFFF : ℕ) = 2 ^ 32 - 1 by norm_num, Nat.testBit_two_pow_sub_one, decide_eq_true hb]
    have hclear : ∀ (b : ℕ), b < 32 → ((if x.1 = 0 then s else clearBits a x.1 s).reg a).getLsbD b =
        ((s.reg a).getLsbD b && !((regRow r.id).rcc.testBit b && (s.view r a).getLsbD b && s.causeGone r b)) := by
      intro b hb
      have hx : x.1.testBit b = ((regRow r.id).rcc.testBit b && (s.view r a).getLsbD b && s.causeGone r b) := by
        rw [hbits, decide_eq_true hb, hmask b hb, Bool.true_and, Bool.and_true]
      rw [← hx]
      split
      · next h0 => simp [h0]
      · exact getLsbD_clearBits _ _ hb
    have hother : ∀ y, y ≠ a → (if x.1 = 0 then s else clearBits a x.1 s).reg y = s.reg y := by
      intro y hy
      split
      · rfl
      · exact reg_clearBits_ne hy
    generalize (if x.1 = 0 then s else clearBits a x.1 s) = u at *
    unfold State.when
    split
    · refine ⟨fun b hb => ?_, fun y hy hyc _ => ?_⟩
      · rw [← hclear b hb]
        exact congrArg (BitVec.getLsbD · b) (State.reg_put u VETCH_CNT.RCC_KEPT _ 0 0 a hcnt)
      · exact (State.reg_put u VETCH_CNT.RCC_KEPT _ 0 0 y hyc).trans (hother y hy)
    · exact ⟨hclear, fun y hy _ _ => hother y hy⟩

/-- A direct read leaves every PC. -/
theorem pc_readReg (hr : regOf a = some r) (e : ℕ) : (readReg r a s).2.pc e = s.pc e := by
  rw [State.pc, State.pc, State.get, State.get]
  congr 1
  by_cases hzero : r.id.readsZero = true
  · simp [readReg, hzero]
  · by_cases hrcc : (regRow r.id).rcc = 0
    · simp [readReg, hzero, hrcc]
    · obtain ⟨-, hother⟩ := readReg_leaves (s := s) hr (by simpa using hzero)
      exact hother _ (ne_at_of_id hr (ne_of_rcc hrcc).2 e 0).symm (RegId.at_ne _ _ _ _ _ _ (by decide)) (by simp)

/-! ### A write to a register without rules of its own -/

theorem writeHook_plain (h : hooked r.id = false) (m old new : Word) : writeHook o r m old new s = (new, s) := by
  obtain ⟨id, i, j⟩ := r
  change hooked id = false at h
  cases id <;> first | rfl | exact absurd h (by decide)

theorem afterWrite_plain (h : hooked r.id = false) (old : Word) : afterWrite r old s = s := by
  obtain ⟨id, i, j⟩ := r
  change hooked id = false at h
  cases id <;> first | rfl | exact absurd h (by decide)

theorem not_paired (h : hooked r.id = false) : r.id.isPairA = false ∧ r.id.isPairB = false := by
  simp only [hooked, Bool.or_eq_false_iff] at h
  exact h.1

/-- While the change log has room, a record only stands in it. -/
theorem log_room (hroom : s.tansyQ.length < 256) (k x : ℕ) (old new : Word) (aux : ℕ) :
    ∃ q, s.log o k x old new aux = { s with tansyQ := q } := by
  by_cases hgone : s.cdGone = true
  · exact ⟨s.tansyQ, if_pos hgone⟩
  · exact ⟨_, (if_neg hgone).trans (if_pos hroom)⟩

/-- A write that meets no rule against it stores its bits; its record stands in the change log. -/
theorem directWrite_plain (hplain : hooked r.id = false) (h : s.clean r a v = true) :
    ∃ q, directWrite o r a v s = ({ s with tansyQ := q } : State).setReg a (writtenWord s r a v) := by
  have hviol := violations_of_clean h o (s.heldWord r a none)
  have hroom : s.tansyQ.length < 256 := by
    simp only [State.clean, Bool.and_eq_true, decide_eq_true_eq] at h
    exact h.2
  have hlog : ∀ (b : Bool) k w w', ∃ q, s.when b (·.log o k a w w') = { s with tansyQ := q } := by
    intro b k w w'
    unfold State.when
    split
    · exact log_room hroom ..
    · exact ⟨s.tansyQ, rfl⟩
  unfold directWrite
  dsimp only
  simp only [hviol, writeHook_plain hplain, afterWrite_plain hplain, ite_self]
  obtain ⟨q, hq⟩ := hlog _ _ _ _
  exact ⟨q, congrArg (fun t : State => t.setReg a (writtenWord s r a v)) hq⟩

end


/-! ### RLD, RST and WRD -/

section

variable {s u : State} {e : EngineIx} {r : RegAt} {x : ℕ}

theorem serves_cache (hu : SameButCache s u) (o : ℕ) (w : Bool) : u.serves o x w = s.serves o x w := by
  obtain ⟨_, _, _, rfl⟩ := hu
  rfl

theorem view_cache (hu : SameButCache s u) : u.view r x = s.view r x := by
  obtain ⟨_, _, _, rfl⟩ := hu
  rfl

theorem clean_cache (hu : SameButCache s u) (v : Word) : u.clean r x v = s.clean r x v := by
  obtain ⟨_, _, _, rfl⟩ := hu
  rfl

theorem writtenWord_cache (hu : SameButCache s u) (v : Word) : writtenWord u r x v = writtenWord s r x v := by
  obtain ⟨_, _, _, rfl⟩ := hu
  rfl

theorem mem_cache (hu : SameButCache s u) : u.mem = s.mem := by
  obtain ⟨_, _, _, rfl⟩ := hu
  rfl

theorem reg_cache (hu : SameButCache s u) (b : ℕ) : u.reg b = s.reg b := by
  obtain ⟨_, _, _, rfl⟩ := hu
  rfl

theorem readLeaves_of_cache {w : Word} {l : List ℕ} {t : State} (hu : SameButCache s u) (h : ReadLeaves r x w l u t) :
    ReadLeaves r x w l s t := by
  obtain ⟨_, _, _, rfl⟩ := hu
  exact h

/-- The address of RLD and RST. -/
theorem regAddr_eq {a : GReg} {imm : BitVec 16} (hx : (x : ℤ) = ((s.gr e a).toNat + imm.toInt) % 2 ^ 64) (hu : SameButCache s u) :
    u.regAddr e a imm = x := by
  have hsum : s.gr e a + sx16 imm = BitVec.ofInt 64 ((s.gr e a).toNat + imm.toInt) := by
    simp [BitVec.ofInt_add, BitVec.signExtend, sx16]
  rw [State.regAddr, State.gr_cache s u hu, hsum, BitVec.toNat_ofInt]
  omega

/-- The value that a direct read returns. -/
theorem readReg_value : (readReg r x s).1 = if r.id.readsZero then 0 else s.view r x := by
  unfold readReg
  split
  · rfl
  · dsimp only
    split <;> rfl

/-- What RLD leaves. -/
theorem rld_spec {d a : GReg} {imm : BitVec 16} (hx : (x : ℤ) = ((s.gr e a).toNat + imm.toInt) % 2 ^ 64) (hr : regOf x = some r)
    (hfetch : s.fetches e [encI 0x15 d a imm.toNat] = true) (hserves : s.serves e x false = true) :
    ∃ t, exec (.cRld e d a imm) s = .next t ∧
      WroteG e d ((if r.id.readsZero then 0 else s.view r x).setWidth 64) s t ∧
      (r.id.readsZero = false → x ≠ RegId.ENG_PC.at e → ReadLeaves r x (s.view r x) [RegId.ENG_PC.at e] s t) ∧
      t.pc e = s.pc e + 4 ∧ t.mem = s.mem ∧ (∀ k, k ≠ e → t.eng k = s.eng k) := by
  obtain ⟨u, hu, hrun⟩ := runCelil_one e _ (fun s => match engineRead e (s.regAddr e a imm) s with
    | (some w, t) => writeNext e d (w.setWidth 64) t
    | (none, t) => t) s hfetch
  rw [← serves_cache hu, serves_iff] at hserves
  have hwait : (u.eng e).wait = none := by
    rw [eng_cache hu]
    exact fetches_wait e _ s hfetch
  have hpc := pc_room hfetch
  rw [← State.pc_cache s u hu] at hpc
  obtain ⟨rs, hrest⟩ := readReg_rest (s := u) (r := r) (a := x)
  have hleaves := readReg_leaves (s := u) hr
  have hpcRead := pc_readReg (s := u) hr e
  have hexec : exec (.cRld e d a imm) s =
      .next (dropLines e (advance e 1 (setGr e d ((if r.id.readsZero then 0 else s.view r x).setWidth 64) (readReg r x u).2))) := by
    refine (congrArg Host.Outcome.next hrun).trans ?_
    rw [regAddr_eq hx hu, engineRead_of_served hserves hr]
    dsimp only
    rw [readReg_value, view_cache hu]
    rfl
  generalize (readReg r x u).2 = y at *
  obtain ⟨honly, hwrote, hwent⟩ := writeOn_spec e d 1 ((if r.id.readsZero then 0 else s.view r x).setWidth 64) y
    (by rw [hrest]; exact hwait) (by rw [hpcRead]; exact hpc)
  refine ⟨_, hexec, fun k => ?_, fun hzero hne => ?_, ?_, ?_, fun k hk => ?_⟩
  · rw [← State.gr_cache s u hu, ← show y.gr e k = u.gr e k by rw [hrest]; rfl]
    exact hwrote k
  · refine readLeaves_of_cache hu ?_
    obtain ⟨hbits, hother⟩ := hleaves hzero
    rw [view_cache hu] at hbits
    refine ⟨fun b hb => ?_, fun z hz hcnt hex => ?_⟩
    · rw [honly.regs x hne]
      exact hbits b hb
    · rw [honly.regs z (by simpa using hex)]
      exact hother z hz hcnt (by simp)
  · rw [hwent.pc, hpcRead, State.pc_cache s u hu]
  · obtain ⟨_, _, _, _, _, hall⟩ := honly.rest
    rw [hall, hrest]
    obtain ⟨_, _, _, rfl⟩ := hu
    rfl
  · rw [honly.engines k fun h => hk (Fin.ext h), ← eng_cache hu, hrest]
    rfl

/-! What a change of the PC leaves of the access that follows it. -/

/-- Beside the PC of engine `k`, `t` is `s`. -/
structure SameButPc (k : ℕ) (s t : State) : Prop where
  regs : ∀ b, b ≠ RegId.ENG_PC.at k → t.reg b = s.reg b
  rest : ∃ rs, t = { s with regs := rs }

theorem sameButPc_setPc (k n : ℕ) (s : State) : SameButPc k s (setPc k n s) := ⟨fun b hb => reg_setPc k n s b hb, _, rfl⟩

section

variable {k o n : ℕ} (h : SameButPc k s u)

include h

theorem SameButPc.get (f : Fld) (i j : ℕ) (hf : f.reg ≠ .ENG_PC) : u.get f i j = s.get f i j := by
  rw [State.get, State.get, h.regs _ (RegId.at_ne _ _ _ _ _ _ hf)]

theorem SameButPc.isSet (f : Fld) (i j : ℕ) (hf : f.reg ≠ .ENG_PC) : u.isSet f i j = s.isSet f i j := by
  rw [State.isSet, State.isSet, h.get f i j hf]

theorem SameButPc.chipLost : u.chipLost n = s.chipLost n := by
  rw [State.chipLost, State.chipLost, h.get _ _ _ (by decide)]

theorem SameButPc.chipOut : u.chipOut n = s.chipOut n := by
  rw [State.chipOut, State.chipOut, h.chipLost, h.get _ _ _ (by decide)]

theorem SameButPc.cdGone : u.cdGone = s.cdGone := by
  have hlost (n : ℕ) := h.chipLost (n := n)
  obtain ⟨rs, rfl⟩ := h.rest
  simp only [State.cdGone, hlost]
  rfl

theorem SameButPc.linkRefused : u.linkRefused o = s.linkRefused o := by
  simp (disch := decide) only [State.linkRefused, State.isManagerLink, State.role, State.linkState, State.isAdmitted, h.get, h.isSet]

theorem SameButPc.classOf : u.classOf o = s.classOf o := by
  simp (disch := decide) only [State.classOf, h.isSet]

theorem SameButPc.mayAccess {w : Bool} : u.mayAccess o x w = s.mayAccess o x w := by
  have hperm (i : ℕ) : u.reg (RegId.PERM_CLASS.at i) = s.reg (RegId.PERM_CLASS.at i) :=
    h.regs _ (RegId.at_ne _ _ _ _ _ _ (by decide))
  simp only [State.mayAccess, h.linkRefused, h.classOf, hperm]

theorem SameButPc.cdDown : u.cdDown = s.cdDown := by
  have hwarm : u.warm = s.warm := by
    obtain ⟨rs, rfl⟩ := h.rest
    rfl
  rw [State.cdDown, State.cdDown, h.cdGone, hwarm]

theorem SameButPc.barOn : u.barOn = s.barOn := by
  simp (disch := decide) only [State.barOn, h.isSet, h.cdDown]

theorem SameButPc.barred : u.barred x = s.barred x := by
  simp only [State.barred, h.chipOut]

theorem SameButPc.serves {w : Bool} : u.serves o x w = s.serves o x w := by
  have hfrozen : u.frozen x = s.frozen x := by
    obtain ⟨rs, rfl⟩ := h.rest
    rfl
  have horg : u.org o = s.org o := by
    obtain ⟨rs, rfl⟩ := h.rest
    rfl
  simp only [State.serves, State.vetchOff, h.cdDown, State.busOn, h.barOn, h.mayAccess, h.barred, hfrozen, horg]

theorem SameButPc.queueService : u.queueService = s.queueService := by
  rw [State.queueService, State.queueService, h.get _ _ _ (by decide)]

theorem SameButPc.accOff : u.accOff = s.accOff := by
  simp (disch := decide) only [State.accOff, State.bankLost, h.queueService, h.get]
  rfl

theorem SameButPc.slCap : u.slCap = s.slCap := by
  have hnvm : u.nvmLost = s.nvmLost := by
    obtain ⟨rs, rfl⟩ := h.rest
    rfl
  simp (disch := decide) only [State.slCap, h.queueService, State.fullService, State.isAdmitted, h.accOff, hnvm, h.get, h.isSet]
  rfl

theorem SameButPc.bootWait : u.bootWait = s.bootWait := by
  have hboot : u.boot = s.boot := by
    obtain ⟨rs, rfl⟩ := h.rest
    rfl
  have hhalf (c k : ℕ) : u.half c k = s.half c k := by
    obtain ⟨rs, rfl⟩ := h.rest
    rfl
  simp (disch := decide) only [State.bootWait, hboot, hhalf, h.get, h.isSet]

theorem SameButPc.skewHolds (p : ℕ) : u.skewHolds p = s.skewHolds p := by
  have hdown := h.cdDown
  obtain ⟨rs, rfl⟩ := h.rest
  simp only [State.skewHolds, hdown]
  rfl

/-- The fields that are computed on reading read no PC. -/
theorem SameButPc.computed (w : Word) : u.computed r w = s.computed r w := by
  have hgsum : u.gsum = s.gsum := by simp (disch := decide) only [State.gsum, h.get]
  have hfrozen : u.frozenCount = s.frozenCount := by
    obtain ⟨rs, rfl⟩ := h.rest
    rfl
  have hxip : u.xip = s.xip := by
    obtain ⟨rs, rfl⟩ := h.rest
    rfl
  simp only [State.computed, h.slCap, h.bootWait, hgsum, hfrozen, h.accOff, hxip, h.skewHolds]

theorem SameButPc.badAt : u.badAt x = s.badAt x := by
  obtain ⟨rs, rfl⟩ := h.rest
  rfl

theorem SameButPc.view (hx : x ≠ RegId.ENG_PC.at k) : u.view r x = s.view r x := by
  simp only [State.view, h.badAt, h.computed, h.regs x hx]

theorem SameButPc.lockedBy : u.lockedBy r = s.lockedBy r := by
  simp (disch := decide) only [State.lockedBy, h.isSet]

theorem SameButPc.ownedNow : u.ownedNow r = s.ownedNow r := by
  simp (disch := decide) only [State.ownedNow, State.isAdmitted, h.isSet]

theorem SameButPc.testMode : u.testMode = s.testMode := by
  simp (disch := decide) only [State.testMode, h.isSet]

theorem SameButPc.onceSet (hx : x ≠ RegId.ENG_PC.at k) : u.onceSet r x = s.onceSet r x := by
  simp only [State.onceSet, h.regs x hx]

theorem SameButPc.clean {v : Word} (hx : x ≠ RegId.ENG_PC.at k) : u.clean r x v = s.clean r x v := by
  have hq : u.tansyQ = s.tansyQ := by
    obtain ⟨rs, rfl⟩ := h.rest
    rfl
  simp only [State.clean, h.view hx, h.lockedBy, h.ownedNow, h.onceSet hx, h.testMode, hq]

theorem SameButPc.writtenWord {v : Word} (hx : x ≠ RegId.ENG_PC.at k) : writtenWord u r x v = writtenWord s r x v := by
  simp only [Proofs.writtenWord, State.writable, h.regs x hx, h.lockedBy, h.ownedNow, h.onceSet hx, h.testMode]

end

/-- What RST leaves. -/
theorem rst_spec {d a : GReg} {imm : BitVec 16} (hx : (x : ℤ) = ((s.gr e a).toNat + imm.toInt) % 2 ^ 64) (hr : regOf x = some r)
    (hfetch : s.fetches e [encI 0x16 d a imm.toNat] = true) (hserves : s.serves e x true = true) (hplain : hooked r.id = false)
    (hclean : s.clean r x ((s.gr e d).setWidth 32) = true) (hne : x ≠ RegId.ENG_PC.at e) :
    ∃ t, exec (.cRst e d a imm) s = .next t ∧
      t.reg x = (s.reg x &&& ~~~(s.writable r x)) ||| ((s.gr e d).setWidth 32 &&& s.writable r x) ∧
      (∀ y, y ≠ x → y ≠ RegId.ENG_PC.at e → t.reg y = s.reg y) ∧
      t.pc e = s.pc e + 4 ∧ t.mem = s.mem ∧ (∀ k, k ≠ e → t.eng k = s.eng k) ∧ (∀ k, t.gr e k = s.gr e k) := by
  obtain ⟨u, hu, hrun⟩ := runCelil_one e _ (fun s =>
    let x := s.regAddr e a imm
    let v := (s.gr e d).setWidth 32
    if (vetchWrite e x v s).1 || raccAddr x then handlerFault e fRACC (vetchWrite e x v s).2
    else (vetchWrite e x v (advance e 1 s)).2) s hfetch
  obtain ⟨hA, hB⟩ := not_paired hplain
  have hpc := sameButPc_setPc e (u.pc e + 4 * 1) u
  change SameButPc e u (advance e 1 u) at hpc
  have hroom := pc_room hfetch
  have hpcAt : (advance e 1 u).pc e = s.pc e + 4 := by
    rw [advance, pc_setPc, State.pc_cache s u hu]
    exact Nat.mod_eq_of_lt hroom
  rw [← serves_cache hu] at hserves
  rw [← clean_cache hu, ← hpc.clean hne] at hclean
  have hserved := serves_iff.mp hserves
  have hserved' := serves_iff.mp (hpc.serves.trans hserves)
  have hword := (hpc.writtenWord (r := r) (v := (s.gr e d).setWidth 32) hne).trans (writtenWord_cache hu _)
  have hmem := mem_cache hu
  have hregs := reg_cache hu
  dsimp only at hrun
  rw [regAddr_eq hx hu, State.gr_cache s u hu, vetchWrite_of_served hserved hr hA hB, raccAddr_of_served hserved hr] at hrun
  generalize advance e 1 u = z at *
  rw [vetchWrite_of_served hserved' hr hA hB] at hrun
  obtain ⟨q, hq⟩ := directWrite_plain (o := e) hplain hclean
  rw [hq, hword] at hrun
  obtain ⟨rs, hz⟩ := hpc.rest
  have heng (k : ℕ) : (({ z with tansyQ := q } : State).setReg x (writtenWord s r x ((s.gr e d).setWidth 32))).eng k = s.eng k := by
    rw [← eng_cache hu, hz]
    rfl
  have hset (y : ℕ) : (({ z with tansyQ := q } : State).setReg x (writtenWord s r x ((s.gr e d).setWidth 32))).reg y =
      if y = x then writtenWord s r x ((s.gr e d).setWidth 32) else z.reg y := by
    rw [State.reg_setReg, State.reg_congr (s := { z with tansyQ := q }) (t := z) rfl]
  have hmem' : (({ z with tansyQ := q } : State).setReg x (writtenWord s r x ((s.gr e d).setWidth 32))).mem = s.mem := by
    rw [← hmem, hz]
    rfl
  generalize ({ z with tansyQ := q } : State).setReg x (writtenWord s r x ((s.gr e d).setWidth 32)) = y at *
  change runCelil e _ _ s = dropLines e y at hrun
  rw [dropLines_none _ _ (by rw [heng]; exact fetches_wait e _ s hfetch)] at hrun
  have hreg (z : ℕ) : (y.setEng e { y.eng e with lines := [] }).reg z = y.reg z := State.reg_setEng_keep ..
  refine ⟨_, congrArg Host.Outcome.next hrun, ?_, fun w hw hwe => ?_, ?_, (State.setEng_mem ..).trans hmem', fun k hk => ?_, fun k => ?_⟩
  · rw [hreg, hset, if_pos rfl]
    rfl
  · rw [hreg, hset, if_neg hw, hpc.regs w hwe, hregs]
  · rw [pc_setEng, ← hpcAt, State.pc, State.pc, State.get, State.get, hset, if_neg hne.symm]
  · rw [State.eng_setEng, if_neg fun h => hk (Fin.ext h), heng]
  · rw [State.gr, State.eng_setEng, if_pos rfl, heng]
    rfl

theorem celilRegisterAccesses : Claims.CelilRegisterAccessesComplete :=
  fun _ _ _ _ _ _ _ hx hr => ⟨rld_spec hx hr, rst_spec hx hr⟩

theorem wideOf_cache (hu : SameButCache s u) : u.wideOf x = s.wideOf x := by
  obtain ⟨_, _, _, rfl⟩ := hu
  rfl

theorem mayAccess_cache (hu : SameButCache s u) (o : ℕ) (w : Bool) : u.mayAccess o x w = s.mayAccess o x w := by
  obtain ⟨_, _, _, rfl⟩ := hu
  rfl

theorem snapLost_cache (hu : SameButCache s u) : u.snapLost x = s.snapLost x := by
  obtain ⟨_, _, _, rfl⟩ := hu
  rfl

/-- The two halves of a wide value that fits a register pair, as WRD writes them. -/
theorem ofNat_mod_pow {v n : ℕ} : BitVec.ofNat n (v % 2 ^ n) = BitVec.ofNat n v := by
  apply BitVec.eq_of_toNat_eq
  simp

theorem wideReads : Claims.WideReadsComplete := by
  intro e a s x w hx hw hmay hlost
  subst hx
  refine ⟨fun c hfetch heven hfits => ?_, fun k hfetch hwidth => ?_⟩
  · have hbody (body : State → State) (hbody : ∀ u, SameButCache s u → ∃ z, SameButCache s z ∧ body u =
        writeNext e (c + 1) (BitVec.ofNat 64 (w.val % 2 ^ w.width / 2 ^ 64)) (setGr e c (BitVec.ofNat 64 (w.val % 2 ^ w.width)) z)) :
        ∃ t, (.next (runCelil e [encWrd a (.pair c)] body s) : Res) = .next t ∧ OnlyEngine e s t ∧
          (∀ k, t.gr e k =
            if k = 0 then 0
            else if k = c.val then BitVec.ofNat 64 (w.val % 2 ^ w.width)
            else if k = c.val + 1 then BitVec.ofNat 64 (w.val % 2 ^ w.width / 2 ^ 64)
            else s.gr e k) ∧
          WentOn e 1 true false false s t := by
      obtain ⟨t, hexec, honly, hregs, hwent⟩ := wrote_two_registers hfetch hbody
      refine ⟨t, hexec, honly, fun k => (hregs k).trans ?_, hwent⟩
      by_cases hk : k = c.val + 1
      · rw [if_pos hk, if_pos hk, if_neg (show k ≠ c.val by omega)]
      · rw [if_neg hk, if_neg hk]
    change ∃ t, execCWrd e a (.pair c) s = .next t ∧ _
    unfold execCWrd
    refine hbody _ fun u hu => ⟨u, hu, ?_⟩
    dsimp only
    rw [State.gr_cache s u hu, wideOf_cache hu, hw]
    dsimp only
    rw [mayAccess_cache hu, hmay, snapLost_cache hu, hlost, show (c.val % 2 == 1) = false by simp [heven]]
    simp only [hfits]
    rfl
  · change WroteTime (execCWrd e a (.time k) s) s e k _
    unfold execCWrd
    obtain ⟨u, hu, hrun⟩ := runCelil_one e (encWrd a (.time k)) _ s hfetch
    rw [hrun]
    dsimp only
    rw [State.gr_cache s u hu, wideOf_cache hu, hw]
    dsimp only
    rw [mayAccess_cache hu, hmay, snapLost_cache hu, hlost, hwidth]
    exact wroteTime_advance hu (fetches_wait e _ s hfetch) (pc_room hfetch)

end

/-- Settles O11: a served access is a direct read or write of its register; a wide value is read whole. -/
theorem celilRegisterAccessesComplete : Obligations.CelilRegisterAccessesComplete := ⟨celilRegisterAccesses, wideReads⟩

end Sys2Proof.Proofs

/-! ## What a state's operations leave as they were

`RegsKept` and `Kept` follow the operations of a state: each operation keeps all but its own component and register. -/

namespace Sys2Proof.Proofs

set_option Elab.async false

open Sys2Proof Sys2Proof.Machine Sys2Proof.Claims

/-! ### Events -/

/-- While no cold reset is held an event acts. -/
theorem act_next {s : State} (h : s.coldHeld = false) (f : State → State) : act f s = .next (f s) := by simp [act, h]

section

variable {s : State}

/-! ### Reads after a change beside the registers -/

@[simp] theorem reg_withTb (x : TimeBase) (a : ℕ) : ({ s with tb := x } : State).reg a = s.reg a := rfl

@[simp] theorem get_withTb (x : TimeBase) (f : Fld) (i j : ℕ) : ({ s with tb := x } : State).get f i j = s.get f i j := rfl

@[simp] theorem isSet_withTb (x : TimeBase) (f : Fld) (i j : ℕ) : ({ s with tb := x } : State).isSet f i j = s.isSet f i j := rfl

@[simp] theorem reg_withSm (x : Sm) (a : ℕ) : ({ s with sm := x } : State).reg a = s.reg a := rfl

@[simp] theorem get_withSm (x : Sm) (f : Fld) (i j : ℕ) : ({ s with sm := x } : State).get f i j = s.get f i j := rfl

@[simp] theorem isSet_withSm (x : Sm) (f : Fld) (i j : ℕ) : ({ s with sm := x } : State).isSet f i j = s.isSet f i j := rfl

@[simp] theorem reg_withRy (x : Ry) (a : ℕ) : ({ s with ry := x } : State).reg a = s.reg a := rfl

@[simp] theorem get_withRy (x : Ry) (f : Fld) (i j : ℕ) : ({ s with ry := x } : State).get f i j = s.get f i j := rfl

@[simp] theorem isSet_withRy (x : Ry) (f : Fld) (i j : ℕ) : ({ s with ry := x } : State).isSet f i j = s.isSet f i j := rfl

@[simp] theorem reg_withXip (x : Xip) (a : ℕ) : ({ s with xip := x } : State).reg a = s.reg a := rfl

@[simp] theorem get_withXip (x : Xip) (f : Fld) (i j : ℕ) : ({ s with xip := x } : State).get f i j = s.get f i j := rfl

@[simp] theorem isSet_withXip (x : Xip) (f : Fld) (i j : ℕ) : ({ s with xip := x } : State).isSet f i j = s.isSet f i j := rfl

@[simp] theorem reg_withClock (x : ℕ) (a : ℕ) : ({ s with clock := x } : State).reg a = s.reg a := rfl

@[simp] theorem get_withClock (x : ℕ) (f : Fld) (i j : ℕ) : ({ s with clock := x } : State).get f i j = s.get f i j := rfl

@[simp] theorem isSet_withClock (x : ℕ) (f : Fld) (i j : ℕ) : ({ s with clock := x } : State).isSet f i j = s.isSet f i j := rfl

@[simp] theorem reg_withTansyQ (x : List LogRec) (a : ℕ) : ({ s with tansyQ := x } : State).reg a = s.reg a := rfl

@[simp] theorem get_withTansyQ (x : List LogRec) (f : Fld) (i j : ℕ) : ({ s with tansyQ := x } : State).get f i j = s.get f i j := rfl

@[simp] theorem isSet_withTansyQ (x : List LogRec) (f : Fld) (i j : ℕ) : ({ s with tansyQ := x } : State).isSet f i j = s.isSet f i j := rfl

@[simp] theorem wideAt_withTb (x : TimeBase) (a : ℕ) : ({ s with tb := x } : State).wideAt a = s.wideAt a := rfl

@[simp] theorem raise_raising (n : ℕ) : (s.raise n).raising = s.raising ++ [n] := rfl

@[simp] theorem isSet_raise (n : ℕ) (f : Fld) (i j : ℕ) : (s.raise n).isSet f i j = s.isSet f i j := rfl

@[simp] theorem isSet_setWide (a v : ℕ) (f : Fld) (i j : ℕ) : (s.setWide a v).isSet f i j = s.isSet f i j := rfl

/-! ### A field after a write of a field -/

theorem isSet_put_of_apart {f g : Fld} (h : Apart f g) (v i j x y : ℕ) : (s.put f v i j).isSet g x y = s.isSet g x y := by
  rw [State.isSet, State.isSet, get_put_of_apart h]

theorem get_bump_of_apart {f g : Fld} (h : Apart f g) (n i j x y : ℕ) : (s.bump f i j n).get g x y = s.get g x y :=
  get_put_of_apart h ..

theorem isSet_bump_of_apart {f g : Fld} (h : Apart f g) (n i j x y : ℕ) : (s.bump f i j n).isSet g x y = s.isSet g x y :=
  isSet_put_of_apart h ..

/-- A bit that is set reads as set. -/
theorem isSet_put_one {f : Fld} (i j : ℕ) (h : f.lo + f.w ≤ 32 ∧ 0 < f.w) : (s.put f 1 i j).isSet f i j = true := by
  rw [State.isSet, State.get_put _ _ _ _ _ h.1, Nat.mod_eq_of_lt (Nat.one_lt_two_pow (by omega)), beq_self_eq_true]

theorem isSet_put_zero {f : Fld} (i j : ℕ) (h : f.lo + f.w ≤ 32) : (s.put f 0 i j).isSet f i j = false := by
  rw [State.isSet, State.get_put _ _ _ _ _ h, Nat.zero_mod]
  rfl

/-- A field that is wide enough reads back what was put. -/
theorem get_put_lt {f : Fld} {v : ℕ} (i j : ℕ) (h : f.lo + f.w ≤ 32) (hv : v < 2 ^ f.w) : (s.put f v i j).get f i j = v := by
  rw [State.get_put _ _ _ _ _ h, Nat.mod_eq_of_lt hv]

end

end Sys2Proof.Proofs

namespace Sys2Proof.Machine

section

variable {l : List ℕ} {s t u : State}

namespace RegsKept

theorem refl : RegsKept l s s := fun _ _ => rfl

theorem setReg {a : ℕ} {v : Word} (h : RegsKept l s t) (ha : a ∈ l := by simp) : RegsKept l s (t.setReg a v) := fun b hb => by
  have hne : b ≠ a := fun e => hb (by rwa [e])
  rw [State.reg_setReg, if_neg hne]
  exact h b hb

theorem put {f : Fld} {v i j : ℕ} (h : RegsKept l s t) (ha : f.reg.at i j ∈ l := by simp) : RegsKept l s (t.put f v i j) :=
  setReg h ha

theorem bump {f : Fld} {n i j : ℕ} (h : RegsKept l s t) (ha : f.reg.at i j ∈ l := by simp) : RegsKept l s (t.bump f i j n) :=
  put h ha

theorem congr (h : RegsKept l s t) (hu : u.regs = t.regs) : RegsKept l s u := fun a ha => (State.reg_congr hu a).trans (h a ha)

theorem raise {n : ℕ} (h : RegsKept l s t) : RegsKept l s (t.raise n) := h

theorem setWide {a v : ℕ} (h : RegsKept l s t) : RegsKept l s (t.setWide a v) := h

theorem setChip {n : ℕ} {x : Chip} (h : RegsKept l s t) : RegsKept l s (t.setChip n x) := h

theorem setHalf {c k : ℕ} {x : Half} (h : RegsKept l s t) : RegsKept l s (t.setHalf c k x) := h

theorem setCore {c : ℕ} {x : CoreSt} (h : RegsKept l s t) : RegsKept l s (t.setCore c x) := h

theorem setPort {p : ℕ} {x : PortSt} (h : RegsKept l s t) : RegsKept l s (t.setPort p x) := h

theorem setChan {k : ℕ} {x : Chan} (h : RegsKept l s t) : RegsKept l s (t.setChan k x) := h

theorem setQueue {q : ℕ} {x : Queue} (h : RegsKept l s t) : RegsKept l s (t.setQueue q x) := h

theorem setEng {e : ℕ} {x : Eng} (h : RegsKept l s t) : RegsKept l s (t.setEng e x) := h

theorem setCdly {n : ℕ} {x : Cdly} (h : RegsKept l s t) : RegsKept l s (t.setCdly n x) := h

theorem setOrg {o : ℕ} {x : OriginSt} (h : RegsKept l s t) : RegsKept l s (t.setOrg o x) := h

theorem setLnk {n : ℕ} {x : Lnk} (h : RegsKept l s t) : RegsKept l s (t.setLnk n x) := h

theorem setVec {n : ℕ} {x : Vec} (h : RegsKept l s t) : RegsKept l s (t.setVec n x) := h

theorem setTimer {k v : ℕ} (h : RegsKept l s t) : RegsKept l s (t.setTimer k v) := h

theorem emit {o : Out} (h : RegsKept l s t) : RegsKept l s (t.emit o) := h

theorem withChips {x : SMap Chip} (h : RegsKept l s t) : RegsKept l s ({ t with chips := x }) := h

theorem withCores {x : SMap CoreSt} (h : RegsKept l s t) : RegsKept l s ({ t with cores := x }) := h

theorem withTb {x : TimeBase} (h : RegsKept l s t) : RegsKept l s ({ t with tb := x }) := h

theorem withClock {x : ℕ} (h : RegsKept l s t) : RegsKept l s ({ t with clock := x }) := h

theorem withSm {x : Sm} (h : RegsKept l s t) : RegsKept l s ({ t with sm := x }) := h

theorem withRy {x : Ry} (h : RegsKept l s t) : RegsKept l s ({ t with ry := x }) := h

theorem withTansyQ {x : List LogRec} (h : RegsKept l s t) : RegsKept l s ({ t with tansyQ := x }) := h

theorem withXip {x : Xip} (h : RegsKept l s t) : RegsKept l s ({ t with xip := x }) := h

theorem trans (h : RegsKept l s t) (k : RegsKept l t u) : RegsKept l s u := fun a ha => (k a ha).trans (h a ha)

theorem mono {l' : List ℕ} (h : RegsKept l s t) (hl : ∀ a ∈ l, a ∈ l') : RegsKept l' s t := fun a ha => h a fun hm => ha (hl a hm)

theorem ite {c : Prop} [Decidable c] {a b : State} (ha : RegsKept l s a) (hb : RegsKept l s b) : RegsKept l s (if c then a else b) := by
  split
  · exact ha
  · exact hb

theorem get (h : RegsKept l s t) {f : Fld} {i j : ℕ} (ha : f.reg.at i j ∉ l) : t.get f i j = s.get f i j := by
  rw [State.get, State.get, h _ ha]

end RegsKept

variable {ps : List Part}

namespace Kept

theorem refl : Kept ps s s := fun p _ => by cases p <;> rfl

theorem trans (h : Kept ps s t) (k : Kept ps t u) : Kept ps s u := by
  intro p hp
  have hst := h p hp
  have htu := k p hp
  cases p <;> exact Eq.trans htu hst

theorem mono {qs : List Part} (h : Kept ps s t) (hl : ∀ p ∈ ps, p ∈ qs) : Kept qs s t := fun p hp => h p fun hm => hp (hl p hm)

theorem ite {c : Prop} [Decidable c] {a b : State} (ha : Kept ps s a) (hb : Kept ps s b) : Kept ps s (if c then a else b) := by
  split
  · exact ha
  · exact hb

/-- A change of one component keeps the others. -/
theorem of_part {q : Part} (h : Kept ps s t) (hq : q ∈ ps) (hu : Kept [q] t u) : Kept ps s u :=
  h.trans (hu.mono fun p hp => by rw [List.mem_singleton.mp hp]; exact hq)

theorem setReg {a : ℕ} {v : Word} (h : Kept ps s t) (hm : Part.regs ∈ ps := by simp) : Kept ps s (t.setReg a v) := h.of_part hm fun p hp => by
  cases p <;> first | rfl | exact absurd (List.mem_singleton.mpr rfl) hp

theorem put {f : Fld} {v i j : ℕ} (h : Kept ps s t) (hm : Part.regs ∈ ps := by simp) : Kept ps s (t.put f v i j) := h.of_part hm fun p hp => by
  cases p <;> first | rfl | exact absurd (List.mem_singleton.mpr rfl) hp

theorem bump {f : Fld} {i j n : ℕ} (h : Kept ps s t) (hm : Part.regs ∈ ps := by simp) : Kept ps s (t.bump f i j n) := h.of_part hm fun p hp => by
  cases p <;> first | rfl | exact absurd (List.mem_singleton.mpr rfl) hp

theorem raise {n : ℕ} (h : Kept ps s t) (hm : Part.raising ∈ ps := by simp) : Kept ps s (t.raise n) := h.of_part hm fun p hp => by
  cases p <;> first | rfl | exact absurd (List.mem_singleton.mpr rfl) hp

theorem setWide {a v : ℕ} (h : Kept ps s t) (hm : Part.wide ∈ ps := by simp) : Kept ps s (t.setWide a v) := h.of_part hm fun p hp => by
  cases p <;> first | rfl | exact absurd (List.mem_singleton.mpr rfl) hp

theorem setChip {n : ℕ} {x : Chip} (h : Kept ps s t) (hm : Part.chips ∈ ps := by simp) : Kept ps s (t.setChip n x) := h.of_part hm fun p hp => by
  cases p <;> first | rfl | exact absurd (List.mem_singleton.mpr rfl) hp

theorem setHalf {c k : ℕ} {x : Half} (h : Kept ps s t) (hm : Part.halves ∈ ps := by simp) : Kept ps s (t.setHalf c k x) := h.of_part hm fun p hp => by
  cases p <;> first | rfl | exact absurd (List.mem_singleton.mpr rfl) hp

theorem setCore {c : ℕ} {x : CoreSt} (h : Kept ps s t) (hm : Part.cores ∈ ps := by simp) : Kept ps s (t.setCore c x) := h.of_part hm fun p hp => by
  cases p <;> first | rfl | exact absurd (List.mem_singleton.mpr rfl) hp

theorem setPort {p : ℕ} {x : PortSt} (h : Kept ps s t) (hm : Part.ports ∈ ps := by simp) : Kept ps s (t.setPort p x) := h.of_part hm fun p hp => by
  cases p <;> first | rfl | exact absurd (List.mem_singleton.mpr rfl) hp

theorem setChan {k : ℕ} {x : Chan} (h : Kept ps s t) (hm : Part.chans ∈ ps := by simp) : Kept ps s (t.setChan k x) := h.of_part hm fun p hp => by
  cases p <;> first | rfl | exact absurd (List.mem_singleton.mpr rfl) hp

theorem setQueue {q : ℕ} {x : Queue} (h : Kept ps s t) (hm : Part.queues ∈ ps := by simp) : Kept ps s (t.setQueue q x) := h.of_part hm fun p hp => by
  cases p <;> first | rfl | exact absurd (List.mem_singleton.mpr rfl) hp

theorem setEng {e : ℕ} {x : Eng} (h : Kept ps s t) (hm : Part.engines ∈ ps := by simp) : Kept ps s (t.setEng e x) := h.of_part hm fun p hp => by
  cases p <;> first | rfl | exact absurd (List.mem_singleton.mpr rfl) hp

theorem setCdly {n : ℕ} {x : Cdly} (h : Kept ps s t) (hm : Part.cdlys ∈ ps := by simp) : Kept ps s (t.setCdly n x) := h.of_part hm fun p hp => by
  cases p <;> first | rfl | exact absurd (List.mem_singleton.mpr rfl) hp

theorem setOrg {o : ℕ} {x : OriginSt} (h : Kept ps s t) (hm : Part.orgs ∈ ps := by simp) : Kept ps s (t.setOrg o x) := h.of_part hm fun p hp => by
  cases p <;> first | rfl | exact absurd (List.mem_singleton.mpr rfl) hp

theorem setLnk {n : ℕ} {x : Lnk} (h : Kept ps s t) (hm : Part.links ∈ ps := by simp) : Kept ps s (t.setLnk n x) := h.of_part hm fun p hp => by
  cases p <;> first | rfl | exact absurd (List.mem_singleton.mpr rfl) hp

theorem setVec {n : ℕ} {x : Vec} (h : Kept ps s t) (hm : Part.msix ∈ ps := by simp) : Kept ps s (t.setVec n x) := h.of_part hm fun p hp => by
  cases p <;> first | rfl | exact absurd (List.mem_singleton.mpr rfl) hp

theorem setTimer {k v : ℕ} (h : Kept ps s t) (hm : Part.timers ∈ ps := by simp) : Kept ps s (t.setTimer k v) := h.of_part hm fun p hp => by
  cases p <;> first | rfl | exact absurd (List.mem_singleton.mpr rfl) hp

theorem emit {o : Out} (h : Kept ps s t) (hm : Part.outs ∈ ps := by simp) : Kept ps s (t.emit o) := h.of_part hm fun p hp => by
  cases p <;> first | rfl | exact absurd (List.mem_singleton.mpr rfl) hp

theorem withChips {x : SMap Chip} (h : Kept ps s t) (hm : Part.chips ∈ ps := by simp) : Kept ps s ({ t with chips := x }) := h.of_part hm fun p hp => by
  cases p <;> first | rfl | exact absurd (List.mem_singleton.mpr rfl) hp

theorem withCores {x : SMap CoreSt} (h : Kept ps s t) (hm : Part.cores ∈ ps := by simp) : Kept ps s ({ t with cores := x }) := h.of_part hm fun p hp => by
  cases p <;> first | rfl | exact absurd (List.mem_singleton.mpr rfl) hp

theorem withTb {x : TimeBase} (h : Kept ps s t) (hm : Part.tb ∈ ps := by simp) : Kept ps s ({ t with tb := x }) := h.of_part hm fun p hp => by
  cases p <;> first | rfl | exact absurd (List.mem_singleton.mpr rfl) hp

theorem withClock {x : ℕ} (h : Kept ps s t) (hm : Part.clock ∈ ps := by simp) : Kept ps s ({ t with clock := x }) := h.of_part hm fun p hp => by
  cases p <;> first | rfl | exact absurd (List.mem_singleton.mpr rfl) hp

theorem withSm {x : Sm} (h : Kept ps s t) (hm : Part.sm ∈ ps := by simp) : Kept ps s ({ t with sm := x }) := h.of_part hm fun p hp => by
  cases p <;> first | rfl | exact absurd (List.mem_singleton.mpr rfl) hp

theorem withRy {x : Ry} (h : Kept ps s t) (hm : Part.ry ∈ ps := by simp) : Kept ps s ({ t with ry := x }) := h.of_part hm fun p hp => by
  cases p <;> first | rfl | exact absurd (List.mem_singleton.mpr rfl) hp

theorem withTansyQ {x : List LogRec} (h : Kept ps s t) (hm : Part.tansyQ ∈ ps := by simp) : Kept ps s ({ t with tansyQ := x }) := h.of_part hm fun p hp => by
  cases p <;> first | rfl | exact absurd (List.mem_singleton.mpr rfl) hp

theorem withXip {x : Xip} (h : Kept ps s t) (hm : Part.xip ∈ ps := by simp) : Kept ps s ({ t with xip := x }) := h.of_part hm fun p hp => by
  cases p <;> first | rfl | exact absurd (List.mem_singleton.mpr rfl) hp

end Kept

end

end Sys2Proof.Machine

/-! ## Switchovers, holdover and free run (R45 to R53) -/

namespace Sys2Proof.Proofs

set_option Elab.async false

open Sys2Proof Sys2Proof.Machine Sys2Proof.Claims

/-- What the start of a switchover to reference `r` leaves (R48). -/
theorem startSwitchover_spec (r : ℕ) (s : State) :
    (startSwitchover r s).tb.sw = some ⟨r, .decided, s.clock⟩ ∧ (startSwitchover r s).isSet REF_STAT.SWITCHING = true ∧
      (startSwitchover r s).get REF_STAT.STATE = s.get REF_STAT.STATE ∧ RegsKept [RegId.REF_STAT.at] s (startSwitchover r s) ∧
      Kept [.regs, .tb] s (startSwitchover r s) := by
  unfold startSwitchover
  refine ⟨rfl, ?_, ?_, RegsKept.refl.put.withTb, Kept.refl.put.withTb⟩
  · rw [isSet_withTb, isSet_put_one 0 0 (by decide)]
  · rw [get_withTb, get_put_of_apart (by decide)]

/-- The number of a reference fits the field `STATE`. -/
theorem get_put_state {s : State} {r : ℕ} (hr : r < 2) : (s.put REF_STAT.STATE r).get REF_STAT.STATE = r :=
  get_put_lt 0 0 (by decide) (hr.trans (by decide))

/-- Settles O21: each step changes its marks in `REF_STAT` and the time base. -/
theorem switchoversComplete : Obligations.SwitchoversComplete := by
  unfold Obligations.SwitchoversComplete
  refine ⟨fun s hcold hmode hqual hstate hsw hdue => ?_, fun r from_ s hcold hsw hdue => ?_, fun r from_ phase s hcold hsw hdue => ?_,
    fun r from_ s hcold hsw hheld hr => ?_, fun s hcold hstate hmax hdue => ?_, fun r s hcold hacq hstate hheld hr => ?_⟩
  · have hexec : exec .revertTimer s = .next (startSwitchover (s.get REF_CFG.PREF) s) := by
      refine (act_next hcold _).trans (congrArg _ ?_)
      simp [revertTimerS, hmode, hqual, State.activeRef, hstate, hsw, hdue]
    exact ⟨_, hexec, startSwitchover_spec _ s⟩
  · refine ⟨{ s with tb := { s.tb with sw := some ⟨r, .frozen, s.clock⟩ } }, (act_next hcold _).trans (congrArg _ ?_), rfl,
      Kept.refl.withTb⟩
    simp [switchoverFreezeS, hsw, hdue]
  · refine ⟨{ s.setWide aREF_BUILDOUT (twos 64 (s.wideAt aREF_BUILDOUT + phase)) with
      tb := { s.tb with sw := some ⟨r, .closed, s.clock⟩ } }, (act_next hcold _).trans (congrArg _ ?_), rfl, ?_, fun a ha => ?_,
      Kept.refl.setWide.withTb⟩
    · simp [switchoverCloseS, hsw, hdue]
    · rw [wideAt_withTb, State.wideAt_setWide, if_pos rfl, twos]
      omega
    · rw [wideAt_withTb, State.wideAt_setWide, if_neg ha]
  · refine ⟨{ (((s.put REF_STAT.STATE r).put REF_STAT.SWITCHING 0).put REF_STAT.SWITCHED 1 |>.bump REF_SWCNT.SWITCHES).raise 257 with
      tb := { s.tb with sw := none, swEnded := s.clock } }, (act_next hcold _).trans (congrArg _ ?_), ?_, ?_, ?_, rfl, ?_,
      RegsKept.refl.put.put.put.bump.raise.withTb, Kept.refl.put.put.put.bump.raise.withTb⟩
    · simp [switchoverSettledS, hsw, heldSelect, hheld]
    · rw [get_withTb, State.get_raise_keep, get_bump_of_apart (by decide), get_put_of_apart (by decide), get_put_of_apart (by decide),
        get_put_state hr]
    · rw [isSet_withTb, isSet_raise, isSet_bump_of_apart (by decide), isSet_put_of_apart (by decide), isSet_put_zero _ _ (by decide)]
    · rw [isSet_withTb, isSet_raise, isSet_bump_of_apart (by decide), isSet_put_one _ _ (by decide)]
    · rw [raise_raising, State.bump_raising, State.put_raising, State.put_raising, State.put_raising]
  · refine ⟨s.put REF_STAT.HOLD_LIMIT 1, (act_next hcold _).trans (congrArg _ ?_), isSet_put_one _ _ (by decide), ?_,
      RegsKept.refl.put, Kept.refl.put⟩
    · simp [holdLimitS, hstate, hmax, hdue]
    · rw [get_put_of_apart (by decide), hstate]
  · refine ⟨{ s.put REF_STAT.STATE r with tb := { s.tb with acquiring := none } }, (act_next hcold _).trans (congrArg _ ?_), ?_, rfl,
      RegsKept.refl.put.withTb, Kept.refl.put.withTb⟩
    · simp [acquisitionCompleteS, hacq, hstate, heldSelect, hheld]
    · rw [get_withTb, get_put_state hr]

end Sys2Proof.Proofs

/-! ## Frames: what each function of the model can change

A scope names components of the state and families of registers. `Frame w s t` says that `t` is `s` beside scope `w`. Each function of
the model has a scope, made of those of the functions that it calls, and a lemma that says that it keeps the rest. -/

namespace Sys2Proof.Proofs

set_option Elab.async false

open Sys2Proof Sys2Proof.Machine Sys2Proof.Claims

/-- Components and families of registers, as two sets of numbers. -/
structure Scope where
  parts : ℕ
  regs : ℕ

namespace Scope

def ofParts (l : List Part) : Scope := ⟨l.foldr (fun p n => 2 ^ p.ctorIdx ||| n) 0, 0⟩

/-- Families of registers, with the register file. -/
def ofRegs (l : List RegId) : Scope := ⟨2 ^ Part.regs.ctorIdx, l.foldr (fun r n => 2 ^ r.ctorIdx ||| n) 0⟩

/-- Registers at any address: the number 255 stands for them. -/
def allRegs : Scope := ⟨2 ^ Part.regs.ctorIdx, 2 ^ 255⟩

/-- The scopes of a list together. -/
def join (l : List Scope) : Scope := ⟨l.foldr (fun a n => a.parts ||| n) 0, l.foldr (fun a n => a.regs ||| n) 0⟩

/-- Whether one scope lies in another. -/
def within (a b : Scope) : Bool := (a.parts ||| b.parts == b.parts) && (a.regs ||| b.regs == b.regs)

theorem within_trans {a b c : Scope} (h : a.within b = true) (k : b.within c = true) : a.within c = true := by
  simp only [within, Bool.and_eq_true, beq_iff_eq] at *
  exact ⟨by rw [← k.1, ← Nat.or_assoc, h.1], by rw [← k.2, ← Nat.or_assoc, h.2]⟩

def hasPart (w : Scope) (p : Part) : Bool := w.parts.testBit p.ctorIdx

/-- Whether a scope names no address beside those of its families. -/
def bounded (w : Scope) : Bool := !w.regs.testBit 255

def hasReg (w : Scope) (r : RegId) : Bool := w.regs.testBit r.ctorIdx || w.regs.testBit 255

end Scope

/-- Beside scope `w`, `t` is `s`. -/
structure Frame (w : Scope) (s t : State) : Prop where
  part : ∀ p, w.hasPart p = false → p.same s t
  addr : w.bounded = true → ∀ a, (∀ r i j, w.hasReg r = true → a ≠ r.at i j) → t.reg a = s.reg a

namespace Frame

variable {w v : Scope} {s t u : State}

theorem refl : Frame w s s := ⟨fun p _ => by cases p <;> rfl, fun _ _ _ => rfl⟩

theorem reg (h : Frame w s t) (r : RegId) (hr : w.hasReg r = false) (i j : ℕ) : t.reg (r.at i j) = s.reg (r.at i j) := by
  refine h.addr ?_ _ fun q _ _ hq => RegId.at_ne _ _ _ _ _ _ ?_
  · rw [Scope.hasReg, Bool.or_eq_false_iff] at hr
    rw [Scope.bounded, hr.2, Bool.not_false]
  · rintro rfl
    rw [hr] at hq
    cases hq

theorem trans (h : Frame w s t) (k : Frame w t u) : Frame w s u := by
  refine ⟨fun p hp => ?_, fun hb a ha => (k.addr hb a ha).trans (h.addr hb a ha)⟩
  have hst := h.part p hp
  have htu := k.part p hp
  cases p <;> exact Eq.trans htu hst

theorem mono (h : Frame v s t) (hv : v.within w = true) : Frame w s t := by
  simp only [Scope.within, Bool.and_eq_true, beq_iff_eq] at hv
  obtain ⟨hparts, hregs⟩ := hv
  have hbit {n : ℕ} (hn : v.regs.testBit n = true) : w.regs.testBit n = true := by rw [← hregs, Nat.testBit_or, hn, Bool.true_or]
  refine ⟨fun p hp => h.part p ?_, fun hb a ha => h.addr ?_ a fun r i j hr => ha r i j ?_⟩
  · rw [Scope.hasPart, ← hparts, Nat.testBit_or, Bool.or_eq_false_iff] at hp
    exact hp.1
  · simp only [Scope.bounded, Bool.not_eq_true'] at hb ⊢
    exact Bool.eq_false_iff.mpr fun hv => by rw [hbit hv] at hb; cases hb
  · simp only [Scope.hasReg, Bool.or_eq_true] at hr ⊢
    exact hr.imp hbit hbit

/-- A step within a smaller scope. -/
theorem lift (h : Frame w s t) (hv : v.within w = true) (k : Frame v t u) : Frame w s u := h.trans (k.mono hv)

theorem ite {c : Prop} [Decidable c] {a b : State} (ha : Frame w s a) (hb : Frame w s b) : Frame w s (if c then a else b) := by
  split
  · exact ha
  · exact hb

theorem iteSnd {α : Type} {c : Prop} [Decidable c] {a b : α × State} (ha : Frame w s a.2) (hb : Frame w s b.2) :
    Frame w s (if c then a else b).2 := by
  split
  · exact ha
  · exact hb

theorem iteSnd2 {α β : Type} {c : Prop} [Decidable c] {a b : α × β × State} (ha : Frame w s a.2.2) (hb : Frame w s b.2.2) :
    Frame w s (if c then a else b).2.2 := by
  split
  · exact ha
  · exact hb

theorem of_eq {α : Type} {p q : α × State} (he : p = q) (h : Frame w s p.2) : Frame w s q.2 := he ▸ h

theorem when {b : Bool} {f : State → State} (hf : ∀ {t}, Frame w s t → Frame w s (f t)) (h : Frame w s t) : Frame w s (t.when b f) :=
  ite (hf h) h

theorem forList {α : Type} {l : List α} {f : α → State → State} (hf : ∀ x {t}, Frame w s t → Frame w s (f x t)) (h : Frame w s t) :
    Frame w s (Machine.forList l f t) := by
  induction l generalizing t with
  | nil => exact h
  | cons x l ih => exact ih (hf x h)

theorem forBelow {n : ℕ} {f : ℕ → State → State} (hf : ∀ x {t}, Frame w s t → Frame w s (f x t)) (h : Frame w s t) :
    Frame w s (Machine.forBelow n f t) := forList hf h

/-- The components of a list are those of its scope. -/
theorem hasPart_ofParts {ps : List Part} {p : Part} : (Scope.ofParts ps).hasPart p = true ↔ p ∈ ps := by
  induction ps with
  | nil => simp [Scope.hasPart, Scope.ofParts]
  | cons q ps ih =>
    have hinj : q.ctorIdx = p.ctorIdx ↔ p = q :=
      ⟨fun h => by rw [← Part.ofNat_ctorIdx p, ← h, Part.ofNat_ctorIdx], fun h => by rw [h]⟩
    simp only [Scope.hasPart, Scope.ofParts, List.foldr_cons, Nat.testBit_or, Bool.or_eq_true, Nat.testBit_two_pow, decide_eq_true_eq,
      List.mem_cons] at ih ⊢
    rw [ih, hinj]

/-- A change of components beside the registers. -/
theorem of_parts {ps : List Part} (h : Frame w s t) (hps : (Scope.ofParts ps).within w = true) (hr : u.regs = t.regs) (hu : Kept ps t u) :
    Frame w s u :=
  h.lift hps ⟨fun q hq => hu q fun hm => absurd (hasPart_ofParts.mpr hm) (by rw [hq]; exact Bool.false_ne_true),
    fun _ a _ => State.reg_congr hr a⟩

/-! ### Reads -/

theorem get (h : Frame w s t) {f : Fld} {i j : ℕ} (hf : w.hasReg f.reg = false := by decide) : t.get f i j = s.get f i j := by
  rw [State.get, State.get, h.reg _ hf]

theorem isSet (h : Frame w s t) {f : Fld} {i j : ℕ} (hf : w.hasReg f.reg = false := by decide) : t.isSet f i j = s.isSet f i j := by
  rw [State.isSet, State.isSet, h.get hf]

theorem clock (h : Frame w s t) (hp : w.hasPart .clock = false := by decide) : t.clock = s.clock := h.part .clock hp

theorem tb (h : Frame w s t) (hp : w.hasPart .tb = false := by decide) : t.tb = s.tb := h.part .tb hp

theorem mem (h : Frame w s t) (hp : w.hasPart .mem = false := by decide) : t.mem = s.mem := h.part .mem hp

theorem chip (h : Frame w s t) (n : ℕ) (hp : w.hasPart .chips = false := by decide) : t.chip n = s.chip n :=
  State.chip_congr (h.part .chips hp) n

theorem core (h : Frame w s t) (n : ℕ) (hp : w.hasPart .cores = false := by decide) : t.core n = s.core n :=
  State.core_congr (h.part .cores hp) n

theorem half (h : Frame w s t) (c k : ℕ) (hp : w.hasPart .halves = false := by decide) : t.half c k = s.half c k :=
  State.half_congr (h.part .halves hp) c k

theorem port (h : Frame w s t) (n : ℕ) (hp : w.hasPart .ports = false := by decide) : t.port n = s.port n :=
  State.port_congr (h.part .ports hp) n

theorem chan (h : Frame w s t) (n : ℕ) (hp : w.hasPart .chans = false := by decide) : t.chan n = s.chan n :=
  State.chan_congr (h.part .chans hp) n

theorem queue (h : Frame w s t) (n : ℕ) (hp : w.hasPart .queues = false := by decide) : t.queue n = s.queue n :=
  State.queue_congr (h.part .queues hp) n

theorem eng (h : Frame w s t) (n : ℕ) (hp : w.hasPart .engines = false := by decide) : t.eng n = s.eng n :=
  State.eng_congr (h.part .engines hp) n

theorem wideAt (h : Frame w s t) (a : ℕ) (hp : w.hasPart .wide = false := by decide) : t.wideAt a = s.wideAt a :=
  State.wideAt_congr (h.part .wide hp) a

/-- Beside the components of a list that covers the scope's, the state is kept. -/
theorem kept (h : Frame w s t) {ps : List Part} (hw : (w.parts ||| (Scope.ofParts ps).parts == (Scope.ofParts ps).parts) = true := by decide) :
    Kept ps s t := fun p hm => h.part p <| by
  have hno : (Scope.ofParts ps).hasPart p = false := Bool.eq_false_iff.mpr fun hy => hm (hasPart_ofParts.mp hy)
  rw [Scope.hasPart, ← beq_iff_eq.mp hw, Nat.testBit_or, Bool.or_eq_false_iff] at hno
  exact hno.1

/-- Beside the registers of a list that covers the scope's families, each of one register, the registers are kept. -/
theorem regsKept (h : Frame w s t) (qs : List RegId)
    (hw : (regAll.all fun r => !w.hasReg r || qs.contains r && (regRow r).n1 == 1 && (regRow r).n2 == 1) = true := by decide)
    (hb : w.bounded = true := by decide) : RegsKept (qs.map fun r => r.at) s t := fun a ha => h.addr hb a fun r i j hr he => ha <| by
  have hone := List.all_eq_true.mp hw r (mem_regAll r)
  simp only [hr, Bool.not_true, Bool.false_or, Bool.and_eq_true, List.contains_iff_mem, beq_iff_eq] at hone
  obtain ⟨⟨hmem, h1⟩, h2⟩ := hone
  refine List.mem_map.mpr ⟨r, hmem, ?_⟩
  rw [he, RegId.at, RegId.at, h1, h2, Nat.mod_one, Nat.mod_one, Nat.mod_one]

/-! ### Registers -/

theorem same_setReg {a : ℕ} {x : Word} {p : Part} (hp : p ≠ .regs) : p.same t (t.setReg a x) := by
  cases p <;> first | rfl | exact absurd rfl hp

theorem setReg {r : RegId} {i j : ℕ} {x : Word} (h : Frame w s t) (hw : (Scope.ofRegs [r]).within w = true := by decide) :
    Frame w s (t.setReg (r.at i j) x) := by
  refine h.lift hw ⟨fun p hp => same_setReg ?_, fun _ a ha => ?_⟩
  · rintro rfl
    exact absurd hp (by simp [Scope.hasPart, Scope.ofRegs])
  · rw [State.reg_setReg, if_neg (ha r i j (by simp [Scope.hasReg, Scope.ofRegs]))]

theorem setRegAny {a : ℕ} {x : Word} (h : Frame w s t) (hw : Scope.allRegs.within w = true := by decide) : Frame w s (t.setReg a x) := by
  refine h.lift hw ⟨fun p hp => same_setReg ?_, fun hb => absurd hb (by decide)⟩
  rintro rfl
  exact absurd hp (by simp [Scope.hasPart, Scope.allRegs])

theorem put {f : Fld} {x i j : ℕ} (h : Frame w s t) (hw : (Scope.ofRegs [f.reg]).within w = true := by decide) :
    Frame w s (t.put f x i j) := setReg h hw

theorem bump {f : Fld} {i j n : ℕ} (h : Frame w s t) (hw : (Scope.ofRegs [f.reg]).within w = true := by decide) :
    Frame w s (t.bump f i j n) := put h hw

theorem tsSet {f : Fld} {k x : ℕ} (h : Frame w s t) (hw : (Scope.ofRegs [f.reg]).within w = true := by decide) :
    Frame w s (t.tsSet f k x) := put h hw

theorem tsBump {f : Fld} {k : ℕ} (h : Frame w s t) (hw : (Scope.ofRegs [f.reg]).within w = true := by decide) :
    Frame w s (t.tsBump f k) := bump h hw

end Frame

end Sys2Proof.Proofs

/-! ## Frames of the model's functions -/

namespace Sys2Proof.Proofs

set_option Elab.async false

open Sys2Proof Sys2Proof.Machine Sys2Proof.Claims

namespace Frame

open Scope (ofParts ofRegs allRegs join)

-- Hundreds of proofs that evaluate scopes are checked one at a time: side by side they need more threads than memory allows.
set_option Elab.async false

variable {σ : Scope} {s t u : State}

theorem withAsyncOver {x : Bool} (h : Frame σ s t) (hw : (Scope.ofParts [.asyncOver]).within σ = true := by decide) :
    Frame σ s { t with asyncOver := x } := h.of_parts hw rfl fun p hp => by
  cases p <;> first | rfl | exact absurd hp (by decide)

theorem withAutoDone {x : Bool} (h : Frame σ s t) (hw : (Scope.ofParts [.autoDone]).within σ = true := by decide) :
    Frame σ s { t with autoDone := x } := h.of_parts hw rfl fun p hp => by
  cases p <;> first | rfl | exact absurd hp (by decide)

theorem withBadWordsEcc {x0 : List Nat} {x1 : Ecc} (h : Frame σ s t) (hw : (Scope.ofParts [.badWords, .ecc]).within σ = true := by decide) :
    Frame σ s { t with badWords := x0, ecc := x1 } := h.of_parts hw rfl fun p hp => by
  cases p <;> first | rfl | exact absurd hp (by decide)

theorem withBme {x : Bool} (h : Frame σ s t) (hw : (Scope.ofParts [.bme]).within σ = true := by decide) :
    Frame σ s { t with bme := x } := h.of_parts hw rfl fun p hp => by
  cases p <;> first | rfl | exact absurd hp (by decide)

theorem withBoot {x : Boot} (h : Frame σ s t) (hw : (Scope.ofParts [.boot]).within σ = true := by decide) :
    Frame σ s { t with boot := x } := h.of_parts hw rfl fun p hp => by
  cases p <;> first | rfl | exact absurd hp (by decide)

theorem withBootCmd {x : Option BootCmd} (h : Frame σ s t) (hw : (Scope.ofParts [.bootCmd]).within σ = true := by decide) :
    Frame σ s { t with bootCmd := x } := h.of_parts hw rfl fun p hp => by
  cases p <;> first | rfl | exact absurd hp (by decide)

theorem withCalGen {x : Nat} (h : Frame σ s t) (hw : (Scope.ofParts [.calGen]).within σ = true := by decide) :
    Frame σ s { t with calGen := x } := h.of_parts hw rfl fun p hp => by
  cases p <;> first | rfl | exact absurd hp (by decide)

theorem withCalGenNvmLost {x0 : Nat} {x1 : Bool} (h : Frame σ s t) (hw : (Scope.ofParts [.calGen, .nvmLost]).within σ = true := by decide) :
    Frame σ s { t with calGen := x0, nvmLost := x1 } := h.of_parts hw rfl fun p hp => by
  cases p <;> first | rfl | exact absurd hp (by decide)

theorem withCdStamps {x : SMap Nat} (h : Frame σ s t) (hw : (Scope.ofParts [.cdStamps]).within σ = true := by decide) :
    Frame σ s { t with cdStamps := x } := h.of_parts hw rfl fun p hp => by
  cases p <;> first | rfl | exact absurd hp (by decide)

theorem withCdlys {x : SMap Cdly} (h : Frame σ s t) (hw : (Scope.ofParts [.cdlys]).within σ = true := by decide) :
    Frame σ s { t with cdlys := x } := h.of_parts hw rfl fun p hp => by
  cases p <;> first | rfl | exact absurd hp (by decide)

theorem withCfg {x : CfgSpace} (h : Frame σ s t) (hw : (Scope.ofParts [.cfg]).within σ = true := by decide) :
    Frame σ s { t with cfg := x } := h.of_parts hw rfl fun p hp => by
  cases p <;> first | rfl | exact absurd hp (by decide)

theorem withCfgBmeFnMask {x0 : CfgSpace} {x1 : Bool} {x2 : Bool} (h : Frame σ s t) (hw : (Scope.ofParts [.cfg, .bme, .fnMask]).within σ = true := by decide) :
    Frame σ s { t with cfg := x0, bme := x1, fnMask := x2 } := h.of_parts hw rfl fun p hp => by
  cases p <;> first | rfl | exact absurd hp (by decide)

theorem withChans {x : SMap Chan} (h : Frame σ s t) (hw : (Scope.ofParts [.chans]).within σ = true := by decide) :
    Frame σ s { t with chans := x } := h.of_parts hw rfl fun p hp => by
  cases p <;> first | rfl | exact absurd hp (by decide)

theorem withChipReinit {x : SMap Nat} (h : Frame σ s t) (hw : (Scope.ofParts [.chipReinit]).within σ = true := by decide) :
    Frame σ s { t with chipReinit := x } := h.of_parts hw rfl fun p hp => by
  cases p <;> first | rfl | exact absurd hp (by decide)

theorem withChips {x : SMap Chip} (h : Frame σ s t) (hw : (Scope.ofParts [.chips]).within σ = true := by decide) :
    Frame σ s { t with chips := x } := h.of_parts hw rfl fun p hp => by
  cases p <;> first | rfl | exact absurd hp (by decide)

theorem withClock {x : Nat} (h : Frame σ s t) (hw : (Scope.ofParts [.clock]).within σ = true := by decide) :
    Frame σ s { t with clock := x } := h.of_parts hw rfl fun p hp => by
  cases p <;> first | rfl | exact absurd hp (by decide)

theorem withClockBrown {x0 : Nat} {x1 : Bool} (h : Frame σ s t) (hw : (Scope.ofParts [.clock, .brown]).within σ = true := by decide) :
    Frame σ s { t with clock := x0, brown := x1 } := h.of_parts hw rfl fun p hp => by
  cases p <;> first | rfl | exact absurd hp (by decide)

theorem withClockPorst {x0 : Nat} {x1 : Bool} (h : Frame σ s t) (hw : (Scope.ofParts [.clock, .porst]).within σ = true := by decide) :
    Frame σ s { t with clock := x0, porst := x1 } := h.of_parts hw rfl fun p hp => by
  cases p <;> first | rfl | exact absurd hp (by decide)

theorem withConvSeen {x : Bool} (h : Frame σ s t) (hw : (Scope.ofParts [.convSeen]).within σ = true := by decide) :
    Frame σ s { t with convSeen := x } := h.of_parts hw rfl fun p hp => by
  cases p <;> first | rfl | exact absurd hp (by decide)

theorem withCores {x : SMap CoreSt} (h : Frame σ s t) (hw : (Scope.ofParts [.cores]).within σ = true := by decide) :
    Frame σ s { t with cores := x } := h.of_parts hw rfl fun p hp => by
  cases p <;> first | rfl | exact absurd hp (by decide)

theorem withCtxBad {x : List Nat} (h : Frame σ s t) (hw : (Scope.ofParts [.ctxBad]).within σ = true := by decide) :
    Frame σ s { t with ctxBad := x } := h.of_parts hw rfl fun p hp => by
  cases p <;> first | rfl | exact absurd hp (by decide)

theorem withEcc {x : Ecc} (h : Frame σ s t) (hw : (Scope.ofParts [.ecc]).within σ = true := by decide) :
    Frame σ s { t with ecc := x } := h.of_parts hw rfl fun p hp => by
  cases p <;> first | rfl | exact absurd hp (by decide)

theorem withFnMask {x : Bool} (h : Frame σ s t) (hw : (Scope.ofParts [.fnMask]).within σ = true := by decide) :
    Frame σ s { t with fnMask := x } := h.of_parts hw rfl fun p hp => by
  cases p <;> first | rfl | exact absurd hp (by decide)

theorem withFreeCtr {x : Nat} (h : Frame σ s t) (hw : (Scope.ofParts [.freeCtr]).within σ = true := by decide) :
    Frame σ s { t with freeCtr := x } := h.of_parts hw rfl fun p hp => by
  cases p <;> first | rfl | exact absurd hp (by decide)

theorem withHalfFaults {x : Nat} (h : Frame σ s t) (hw : (Scope.ofParts [.halfFaults]).within σ = true := by decide) :
    Frame σ s { t with halfFaults := x } := h.of_parts hw rfl fun p hp => by
  cases p <;> first | rfl | exact absurd hp (by decide)

theorem withHalfFaultsLossFaults {x0 : Nat} {x1 : List (Nat × Nat)} (h : Frame σ s t) (hw : (Scope.ofParts [.halfFaults, .lossFaults]).within σ = true := by decide) :
    Frame σ s { t with halfFaults := x0, lossFaults := x1 } := h.of_parts hw rfl fun p hp => by
  cases p <;> first | rfl | exact absurd hp (by decide)

theorem withHalves {x : SMap Half} (h : Frame σ s t) (hw : (Scope.ofParts [.halves]).within σ = true := by decide) :
    Frame σ s { t with halves := x } := h.of_parts hw rfl fun p hp => by
  cases p <;> first | rfl | exact absurd hp (by decide)

theorem withLinks {x : SMap Lnk} (h : Frame σ s t) (hw : (Scope.ofParts [.links]).within σ = true := by decide) :
    Frame σ s { t with links := x } := h.of_parts hw rfl fun p hp => by
  cases p <;> first | rfl | exact absurd hp (by decide)

theorem withLoadMark {x : Nat × Nat} (h : Frame σ s t) (hw : (Scope.ofParts [.loadMark]).within σ = true := by decide) :
    Frame σ s { t with loadMark := x } := h.of_parts hw rfl fun p hp => by
  cases p <;> first | rfl | exact absurd hp (by decide)

theorem withLossFaults {x : List (Nat × Nat)} (h : Frame σ s t) (hw : (Scope.ofParts [.lossFaults]).within σ = true := by decide) :
    Frame σ s { t with lossFaults := x } := h.of_parts hw rfl fun p hp => by
  cases p <;> first | rfl | exact absurd hp (by decide)

theorem withMem {x : List Host.Cell} (h : Frame σ s t) (hw : (Scope.ofParts [.mem]).within σ = true := by decide) :
    Frame σ s { t with mem := x } := h.of_parts hw rfl fun p hp => by
  cases p <;> first | rfl | exact absurd hp (by decide)

theorem withMemCtxBadBadWordsBoot {x0 : List Host.Cell} {x1 : List Nat} {x2 : List Nat} {x3 : Boot} (h : Frame σ s t) (hw : (Scope.ofParts [.mem, .ctxBad, .badWords, .boot]).within σ = true := by decide) :
    Frame σ s { t with mem := x0, ctxBad := x1, badWords := x2, boot := x3 } := h.of_parts hw rfl fun p hp => by
  cases p <;> first | rfl | exact absurd hp (by decide)

theorem withMsgLast {x : Option Nat} (h : Frame σ s t) (hw : (Scope.ofParts [.msgLast]).within σ = true := by decide) :
    Frame σ s { t with msgLast := x } := h.of_parts hw rfl fun p hp => by
  cases p <;> first | rfl | exact absurd hp (by decide)

theorem withMsix {x : SMap Vec} (h : Frame σ s t) (hw : (Scope.ofParts [.msix]).within σ = true := by decide) :
    Frame σ s { t with msix := x } := h.of_parts hw rfl fun p hp => by
  cases p <;> first | rfl | exact absurd hp (by decide)

theorem withNvm {x : List Host.Cell} (h : Frame σ s t) (hw : (Scope.ofParts [.nvm]).within σ = true := by decide) :
    Frame σ s { t with nvm := x } := h.of_parts hw rfl fun p hp => by
  cases p <;> first | rfl | exact absurd hp (by decide)

theorem withNvmLost {x : Bool} (h : Frame σ s t) (hw : (Scope.ofParts [.nvmLost]).within σ = true := by decide) :
    Frame σ s { t with nvmLost := x } := h.of_parts hw rfl fun p hp => by
  cases p <;> first | rfl | exact absurd hp (by decide)

theorem withNvmOp {x : Option NvmOp} (h : Frame σ s t) (hw : (Scope.ofParts [.nvmOp]).within σ = true := by decide) :
    Frame σ s { t with nvmOp := x } := h.of_parts hw rfl fun p hp => by
  cases p <;> first | rfl | exact absurd hp (by decide)

theorem withOrgs {x : SMap OriginSt} (h : Frame σ s t) (hw : (Scope.ofParts [.orgs]).within σ = true := by decide) :
    Frame σ s { t with orgs := x } := h.of_parts hw rfl fun p hp => by
  cases p <;> first | rfl | exact absurd hp (by decide)

theorem withParBad {x : SMap Word} (h : Frame σ s t) (hw : (Scope.ofParts [.parBad]).within σ = true := by decide) :
    Frame σ s { t with parBad := x } := h.of_parts hw rfl fun p hp => by
  cases p <;> first | rfl | exact absurd hp (by decide)

theorem withPorst {x : Bool} (h : Frame σ s t) (hw : (Scope.ofParts [.porst]).within σ = true := by decide) :
    Frame σ s { t with porst := x } := h.of_parts hw rfl fun p hp => by
  cases p <;> first | rfl | exact absurd hp (by decide)

theorem withPorstBrown {x0 : Bool} {x1 : Bool} (h : Frame σ s t) (hw : (Scope.ofParts [.porst, .brown]).within σ = true := by decide) :
    Frame σ s { t with porst := x0, brown := x1 } := h.of_parts hw rfl fun p hp => by
  cases p <;> first | rfl | exact absurd hp (by decide)

theorem withPorts {x : SMap PortSt} (h : Frame σ s t) (hw : (Scope.ofParts [.ports]).within σ = true := by decide) :
    Frame σ s { t with ports := x } := h.of_parts hw rfl fun p hp => by
  cases p <;> first | rfl | exact absurd hp (by decide)

theorem withPreds {x : SMap Nat} (h : Frame σ s t) (hw : (Scope.ofParts [.preds]).within σ = true := by decide) :
    Frame σ s { t with preds := x } := h.of_parts hw rfl fun p hp => by
  cases p <;> first | rfl | exact absurd hp (by decide)

theorem withQueues {x : SMap Queue} (h : Frame σ s t) (hw : (Scope.ofParts [.queues]).within σ = true := by decide) :
    Frame σ s { t with queues := x } := h.of_parts hw rfl fun p hp => by
  cases p <;> first | rfl | exact absurd hp (by decide)

theorem withRaisesRaiseTs {x0 : SMap Nat} {x1 : SMap Nat} (h : Frame σ s t) (hw : (Scope.ofParts [.raises, .raiseTs]).within σ = true := by decide) :
    Frame σ s { t with raises := x0, raiseTs := x1 } := h.of_parts hw rfl fun p hp => by
  cases p <;> first | rfl | exact absurd hp (by decide)

theorem withRaising {x : List Nat} (h : Frame σ s t) (hw : (Scope.ofParts [.raising]).within σ = true := by decide) :
    Frame σ s { t with raising := x } := h.of_parts hw rfl fun p hp => by
  cases p <;> first | rfl | exact absurd hp (by decide)

theorem withReinits {x : List (Nat × Nat × Nat)} (h : Frame σ s t) (hw : (Scope.ofParts [.reinits]).within σ = true := by decide) :
    Frame σ s { t with reinits := x } := h.of_parts hw rfl fun p hp => by
  cases p <;> first | rfl | exact absurd hp (by decide)

theorem withRel {x : List Action} (h : Frame σ s t) (hw : (Scope.ofParts [.rel]).within σ = true := by decide) :
    Frame σ s { t with rel := x } := h.of_parts hw rfl fun p hp => by
  cases p <;> first | rfl | exact absurd hp (by decide)

theorem withRelVerdicts {x0 : List Action} {x1 : List (Nat × Nat × Nat × Nat)} (h : Frame σ s t) (hw : (Scope.ofParts [.rel, .verdicts]).within σ = true := by decide) :
    Frame σ s { t with rel := x0, verdicts := x1 } := h.of_parts hw rfl fun p hp => by
  cases p <;> first | rfl | exact absurd hp (by decide)

theorem withRingSeq {x : SMap Nat} (h : Frame σ s t) (hw : (Scope.ofParts [.ringSeq]).within σ = true := by decide) :
    Frame σ s { t with ringSeq := x } := h.of_parts hw rfl fun p hp => by
  cases p <;> first | rfl | exact absurd hp (by decide)

theorem withRoutedAt {x : SMap Nat} (h : Frame σ s t) (hw : (Scope.ofParts [.routedAt]).within σ = true := by decide) :
    Frame σ s { t with routedAt := x } := h.of_parts hw rfl fun p hp => by
  cases p <;> first | rfl | exact absurd hp (by decide)

theorem withRy {x : Ry} (h : Frame σ s t) (hw : (Scope.ofParts [.ry]).within σ = true := by decide) :
    Frame σ s { t with ry := x } := h.of_parts hw rfl fun p hp => by
  cases p <;> first | rfl | exact absurd hp (by decide)

theorem withSm {x : Sm} (h : Frame σ s t) (hw : (Scope.ofParts [.sm]).within σ = true := by decide) :
    Frame σ s { t with sm := x } := h.of_parts hw rfl fun p hp => by
  cases p <;> first | rfl | exact absurd hp (by decide)

theorem withSsp {x : Ssp} (h : Frame σ s t) (hw : (Scope.ofParts [.ssp]).within σ = true := by decide) :
    Frame σ s { t with ssp := x } := h.of_parts hw rfl fun p hp => by
  cases p <;> first | rfl | exact absurd hp (by decide)

theorem withTansyGap {x : Nat} (h : Frame σ s t) (hw : (Scope.ofParts [.tansyGap]).within σ = true := by decide) :
    Frame σ s { t with tansyGap := x } := h.of_parts hw rfl fun p hp => by
  cases p <;> first | rfl | exact absurd hp (by decide)

theorem withTansyQ {x : List LogRec} (h : Frame σ s t) (hw : (Scope.ofParts [.tansyQ]).within σ = true := by decide) :
    Frame σ s { t with tansyQ := x } := h.of_parts hw rfl fun p hp => by
  cases p <;> first | rfl | exact absurd hp (by decide)

theorem withTansyQTansyGap {x0 : List LogRec} {x1 : Nat} (h : Frame σ s t) (hw : (Scope.ofParts [.tansyQ, .tansyGap]).within σ = true := by decide) :
    Frame σ s { t with tansyQ := x0, tansyGap := x1 } := h.of_parts hw rfl fun p hp => by
  cases p <;> first | rfl | exact absurd hp (by decide)

theorem withTansySeq {x : Nat} (h : Frame σ s t) (hw : (Scope.ofParts [.tansySeq]).within σ = true := by decide) :
    Frame σ s { t with tansySeq := x } := h.of_parts hw rfl fun p hp => by
  cases p <;> first | rfl | exact absurd hp (by decide)

theorem withTansyUnrel {x : Nat} (h : Frame σ s t) (hw : (Scope.ofParts [.tansyUnrel]).within σ = true := by decide) :
    Frame σ s { t with tansyUnrel := x } := h.of_parts hw rfl fun p hp => by
  cases p <;> first | rfl | exact absurd hp (by decide)

theorem withTb {x : TimeBase} (h : Frame σ s t) (hw : (Scope.ofParts [.tb]).within σ = true := by decide) :
    Frame σ s { t with tb := x } := h.of_parts hw rfl fun p hp => by
  cases p <;> first | rfl | exact absurd hp (by decide)

theorem withTbRy {x0 : TimeBase} {x1 : Ry} (h : Frame σ s t) (hw : (Scope.ofParts [.tb, .ry]).within σ = true := by decide) :
    Frame σ s { t with tb := x0, ry := x1 } := h.of_parts hw rfl fun p hp => by
  cases p <;> first | rfl | exact absurd hp (by decide)

theorem withTimers {x : SMap Nat} (h : Frame σ s t) (hw : (Scope.ofParts [.timers]).within σ = true := by decide) :
    Frame σ s { t with timers := x } := h.of_parts hw rfl fun p hp => by
  cases p <;> first | rfl | exact absurd hp (by decide)

theorem withVddhLow {x : Nat} (h : Frame σ s t) (hw : (Scope.ofParts [.vddhLow]).within σ = true := by decide) :
    Frame σ s { t with vddhLow := x } := h.of_parts hw rfl fun p hp => by
  cases p <;> first | rfl | exact absurd hp (by decide)

theorem withVerdicts {x : List (Nat × Nat × Nat × Nat)} (h : Frame σ s t) (hw : (Scope.ofParts [.verdicts]).within σ = true := by decide) :
    Frame σ s { t with verdicts := x } := h.of_parts hw rfl fun p hp => by
  cases p <;> first | rfl | exact absurd hp (by decide)

theorem withWarm {x : Bool} (h : Frame σ s t) (hw : (Scope.ofParts [.warm]).within σ = true := by decide) :
    Frame σ s { t with warm := x } := h.of_parts hw rfl fun p hp => by
  cases p <;> first | rfl | exact absurd hp (by decide)

theorem withWarmBootReinits {x0 : Bool} {x1 : Boot} {x2 : List (Nat × Nat × Nat)} (h : Frame σ s t) (hw : (Scope.ofParts [.warm, .boot, .reinits]).within σ = true := by decide) :
    Frame σ s { t with warm := x0, boot := x1, reinits := x2 } := h.of_parts hw rfl fun p hp => by
  cases p <;> first | rfl | exact absurd hp (by decide)

theorem withWdogFrom {x : Option Nat} (h : Frame σ s t) (hw : (Scope.ofParts [.wdogFrom]).within σ = true := by decide) :
    Frame σ s { t with wdogFrom := x } := h.of_parts hw rfl fun p hp => by
  cases p <;> first | rfl | exact absurd hp (by decide)

theorem withWdogFromWdogOut {x0 : Option Nat} {x1 : Bool} (h : Frame σ s t) (hw : (Scope.ofParts [.wdogFrom, .wdogOut]).within σ = true := by decide) :
    Frame σ s { t with wdogFrom := x0, wdogOut := x1 } := h.of_parts hw rfl fun p hp => by
  cases p <;> first | rfl | exact absurd hp (by decide)

theorem withXip {x : Xip} (h : Frame σ s t) (hw : (Scope.ofParts [.xip]).within σ = true := by decide) :
    Frame σ s { t with xip := x } := h.of_parts hw rfl fun p hp => by
  cases p <;> first | rfl | exact absurd hp (by decide)

theorem withBadWords {x : List Nat} (h : Frame σ s t) (hw : (Scope.ofParts [.badWords]).within σ = true := by decide) :
    Frame σ s { t with badWords := x } := h.of_parts hw rfl fun p hp => by
  cases p <;> first | rfl | exact absurd hp (by decide)

theorem setWide {a x : ℕ} (h : Frame σ s t) (hw : (Scope.ofParts [.wide]).within σ = true := by decide) :
    Frame σ s (t.setWide a x) := h.of_parts hw rfl fun p hp => by
  cases p <;> first | rfl | exact absurd hp (by decide)

theorem emit {o : Out} (h : Frame σ s t) (hw : (Scope.ofParts [.outs]).within σ = true := by decide) :
    Frame σ s (t.emit o) := h.of_parts hw rfl fun p hp => by
  cases p <;> first | rfl | exact absurd hp (by decide)

theorem setEng {e : ℕ} {x : Eng} (h : Frame σ s t) (hw : (Scope.ofParts [.engines]).within σ = true := by decide) :
    Frame σ s (t.setEng e x) := h.of_parts hw rfl fun p hp => by
  cases p <;> first | rfl | exact absurd hp (by decide)

theorem setByte {a : ℕ} {x : Byte} (h : Frame σ s t) (hw : (Scope.ofParts [.mem]).within σ = true := by decide) :
    Frame σ s (t.setByte a x) := withMem h hw

theorem setBytes {a : ℕ} {bs : List Byte} (h : Frame σ s t) (hw : (Scope.ofParts [.mem]).within σ = true := by decide) :
    Frame σ s (t.setBytes a bs) := by
  induction bs generalizing a t with
  | nil => exact h
  | cons b bs ih => exact ih (setByte h hw)

theorem setWord {a : ℕ} {x : Word} (h : Frame σ s t) (hw : (Scope.ofParts [.mem]).within σ = true := by decide) :
    Frame σ s (t.setWord a x) := setBytes h hw

theorem store {a : ℕ} {bs : List Byte} (h : Frame σ s t)
    (hw : (Scope.ofParts [.mem, .badWords, .ecc]).within σ = true := by decide) : Frame σ s (t.store a bs) :=
  withBadWordsEcc (setBytes h (Scope.within_trans (by decide) hw)) (Scope.within_trans (by decide +kernel) hw)

theorem nvmProgram {a : ℕ} {bs : List Byte} (h : Frame σ s t) (hw : (Scope.ofParts [.nvm]).within σ = true := by decide) :
    Frame σ s (Machine.nvmProgram a bs t) := withNvm h hw

theorem nvmEraseRange {lo hi : ℕ} (h : Frame σ s t) (hw : (Scope.ofParts [.nvm, .eraseCnt]).within σ = true := by decide) :
    Frame σ s (Machine.nvmEraseRange lo hi t) := h.of_parts hw rfl fun p hp => by
  cases p <;> first | rfl | exact absurd hp (by decide)

def Scope.setChip : Scope := ofParts [.chips]

theorem setChip {n : ℕ} {c : Chip} (h : Frame σ s t) (hw : Scope.setChip.within σ = true := by decide) : Frame σ s (t.setChip n c) := by
  refine h.lift hw ?_
  unfold State.setChip
  exact withChips refl

def Scope.setHalf : Scope := ofParts [.halves]

theorem setHalf {c k : ℕ} {x : Half} (h : Frame σ s t) (hw : Scope.setHalf.within σ = true := by decide) : Frame σ s (t.setHalf c k x)
    := by
  refine h.lift hw ?_
  unfold State.setHalf
  exact withHalves refl

def Scope.setCore : Scope := ofParts [.cores]

theorem setCore {c : ℕ} {x : CoreSt} (h : Frame σ s t) (hw : Scope.setCore.within σ = true := by decide) : Frame σ s (t.setCore c x) := by
  refine h.lift hw ?_
  unfold State.setCore
  exact withCores refl

def Scope.setPort : Scope := ofParts [.ports]

theorem setPort {p : ℕ} {x : PortSt} (h : Frame σ s t) (hw : Scope.setPort.within σ = true := by decide) : Frame σ s (t.setPort p x) := by
  refine h.lift hw ?_
  unfold State.setPort
  exact withPorts refl

def Scope.setQueue : Scope := ofParts [.queues]

theorem setQueue {q : ℕ} {x : Queue} (h : Frame σ s t) (hw : Scope.setQueue.within σ = true := by decide) : Frame σ s (t.setQueue q x)
    := by
  refine h.lift hw ?_
  unfold State.setQueue
  exact withQueues refl

def Scope.setCdly : Scope := ofParts [.cdlys]

theorem setCdly {l : ℕ} {x : Cdly} (h : Frame σ s t) (hw : Scope.setCdly.within σ = true := by decide) : Frame σ s (t.setCdly l x) := by
  refine h.lift hw ?_
  unfold State.setCdly
  exact withCdlys refl

def Scope.setOrg : Scope := ofParts [.orgs]

theorem setOrg {o : ℕ} {x : OriginSt} (h : Frame σ s t) (hw : Scope.setOrg.within σ = true := by decide) : Frame σ s (t.setOrg o x) := by
  refine h.lift hw ?_
  unfold State.setOrg
  exact withOrgs refl

def Scope.setLnk : Scope := ofParts [.links]

theorem setLnk {l : ℕ} {x : Lnk} (h : Frame σ s t) (hw : Scope.setLnk.within σ = true := by decide) : Frame σ s (t.setLnk l x) := by
  refine h.lift hw ?_
  unfold State.setLnk
  exact withLinks refl

def Scope.setVec : Scope := ofParts [.msix]

theorem setVec {v : ℕ} {x : Vec} (h : Frame σ s t) (hw : Scope.setVec.within σ = true := by decide) : Frame σ s (t.setVec v x) := by
  refine h.lift hw ?_
  unfold State.setVec
  exact withMsix refl

def Scope.setWt : Scope := ofParts [.ry]

theorem setWt {w : ℕ} {x : WtSt} (h : Frame σ s t) (hw : Scope.setWt.within σ = true := by decide) : Frame σ s (t.setWt w x) := by
  refine h.lift hw ?_
  unfold State.setWt
  exact withRy refl

def Scope.setFwdSt : Scope := ofParts [.ry]

theorem setFwdSt {f : ℕ} {x : FwdSt} (h : Frame σ s t) (hw : Scope.setFwdSt.within σ = true := by decide) : Frame σ s (t.setFwdSt f x)
    := by
  refine h.lift hw ?_
  unfold State.setFwdSt
  exact withRy refl

def Scope.setTimer : Scope := ofParts [.timers]

theorem setTimer {k v : ℕ} (h : Frame σ s t) (hw : Scope.setTimer.within σ = true := by decide) : Frame σ s (t.setTimer k v) := by
  refine h.lift hw ?_
  unfold State.setTimer
  exact withTimers refl

def Scope.free : Scope := ofParts [.freeCtr]

theorem free {w : ℕ} (h : Frame σ s t) (hw : Scope.free.within σ = true := by decide) : Frame σ s (t.free w).2 := by
  refine h.lift hw ?_
  unfold State.free
  exact withFreeCtr refl

def Scope.raise : Scope := ofParts [.raising]

theorem raise {src : ℕ} (h : Frame σ s t) (hw : Scope.raise.within σ = true := by decide) : Frame σ s (t.raise src) := by
  refine h.lift hw ?_
  unfold State.raise
  exact withRaising refl

def Scope.stage : Scope := join [ofParts [.tansyQ, .tansyGap], ofRegs [.TANSY_STAT, .TANSY_CNT]]

theorem stage {r : LogRec} (h : Frame σ s t) (hw : Scope.stage.within σ = true := by decide) : Frame σ s (t.stage r) := by
  refine h.lift hw ?_
  unfold State.stage
  exact ite (withTansyQ refl) (withTansyGap <| put <| bump refl)

def Scope.log : Scope := Scope.stage

theorem log {origin kind addr : ℕ} {old new : Word} {aux : ℕ} (h : Frame σ s t) (hw : Scope.log.within σ = true := by decide) : Frame σ
    s (t.log origin kind addr old new aux) := by
  refine h.lift hw ?_
  unfold State.log
  exact ite refl (stage refl)

def Scope.logEvent : Scope := Scope.stage

theorem logEvent {before : State} {addr aux origin : ℕ} (h : Frame σ s t) (hw : Scope.logEvent.within σ = true := by decide) : Frame σ s
    (t.logEvent before addr aux origin) := by
  refine h.lift hw ?_
  unfold State.logEvent
  exact ite refl (stage refl)

def Scope.lockViolation : Scope := join [ofRegs [.VETCH_CNT2, .VETCH_STAT], Scope.log, Scope.raise]

theorem lockViolation {o a : ℕ} {old v : Word} (h : Frame σ s t) (hw : Scope.lockViolation.within σ = true := by decide) : Frame σ s
    (Machine.lockViolation o a old v t) := by
  refine h.lift hw ?_
  unfold Machine.lockViolation
  exact log <| raise <| bump <| put refl

def Scope.discardFrozen : Scope := join [ofRegs [.CFGPAR_CNT], Scope.logEvent]

theorem discardFrozen (h : Frame σ s t) (hw : Scope.discardFrozen.within σ = true := by decide) : Frame σ s (Machine.discardFrozen t) :=
    by
  refine h.lift hw ?_
  unfold Machine.discardFrozen
  exact logEvent <| bump refl

def Scope.setRefIn : Scope := ofParts [.tb]

theorem setRefIn {r : ℕ} {x : RefIn} (h : Frame σ s t) (hw : Scope.setRefIn.within σ = true := by decide) : Frame σ s (t.setRefIn r x)
    := by
  refine h.lift hw ?_
  unfold State.setRefIn
  exact withTb refl

def Scope.startSwitchover : Scope := join [ofParts [.tb], ofRegs [.REF_STAT]]

theorem startSwitchover {r : ℕ} (h : Frame σ s t) (hw : Scope.startSwitchover.within σ = true := by decide) : Frame σ s
    (Machine.startSwitchover r t) := by
  refine h.lift hw ?_
  unfold Machine.startSwitchover
  exact withTb <| put refl

def Scope.enterHoldover : Scope := join [ofParts [.tb, .wide], ofRegs [.REF_SWCNT, .REF_STAT], Scope.raise]

theorem enterHoldover (h : Frame σ s t) (hw : Scope.enterHoldover.within σ = true := by decide) : Frame σ s (Machine.enterHoldover t) :=
    by
  refine h.lift hw ?_
  unfold Machine.enterHoldover
  exact withTb <| raise <| setWide <| bump <| put <| put refl

def Scope.afterRefLoss : Scope := join [ofParts [.tb], Scope.enterHoldover, Scope.startSwitchover]

theorem afterRefLoss {r : ℕ} (h : Frame σ s t) (hw : Scope.afterRefLoss.within σ = true := by decide) : Frame σ s (Machine.afterRefLoss
    r t) := by
  refine h.lift hw ?_
  unfold Machine.afterRefLoss
  dsimp only
  split
  · exact ite (when (fun h => startSwitchover h) <| enterHoldover <| ite (withTb refl) refl) (ite (withTb refl) refl)
  · exact ite (ite (startSwitchover <| ite (withTb refl) refl) (enterHoldover <| ite (withTb refl) refl)) (ite (withTb refl) refl)

def Scope.loseRef : Scope := join [ofRegs [.REF_STAT], Scope.afterRefLoss, Scope.setRefIn, Scope.raise]

theorem loseRef {r : ℕ} (h : Frame σ s t) (hw : Scope.loseRef.within σ = true := by decide) : Frame σ s (Machine.loseRef r t) := by
  refine h.lift hw ?_
  unfold Machine.loseRef
  exact afterRefLoss <| when (fun h => raise h) <| setRefIn <| put (put refl (by unfold refQual; split <;> decide))
      (by unfold refLost; split <;> decide)

def Scope.refAbsentS : Scope := join [ofRegs [.REF_STAT], Scope.loseRef]

theorem refAbsentS {r : ℕ} (h : Frame σ s t) (hw : Scope.refAbsentS.within σ = true := by decide) : Frame σ s (Machine.refAbsentS r t)
    := by
  refine h.lift hw ?_
  unfold Machine.refAbsentS
  exact ite (loseRef <| put refl (by unfold refPresent; split <;> decide)) refl

def Scope.refEdgesReturnS : Scope := join [ofRegs [.REF_STAT], Scope.setRefIn]

theorem refEdgesReturnS {r : ℕ} (h : Frame σ s t) (hw : Scope.refEdgesReturnS.within σ = true := by decide) : Frame σ s
    (Machine.refEdgesReturnS r t) := by
  refine h.lift hw ?_
  unfold Machine.refEdgesReturnS
  exact ite (setRefIn <| put refl (by unfold refPresent; split <;> decide)) refl

def Scope.refQualifiedS : Scope := join [ofParts [.tb], ofRegs [.REF_STAT], Scope.setRefIn, Scope.startSwitchover]

theorem refQualifiedS {r : ℕ} (h : Frame σ s t) (hw : Scope.refQualifiedS.within σ = true := by decide) : Frame σ s
    (Machine.refQualifiedS r t) := by
  refine h.lift hw ?_
  unfold Machine.refQualifiedS
  exact ite (ite (ite (withTb <| setRefIn <| put refl (by unfold refQual; split <;> decide)) (setRefIn <| put refl
      (by unfold refQual; split <;> decide))) (ite (startSwitchover <| setRefIn <| put refl (by unfold refQual; split <;> decide))
      (setRefIn <| put refl (by unfold refQual; split <;> decide)))) refl

def Scope.judgeRef : Scope := Scope.loseRef

theorem judgeRef {r count window : ℕ} (h : Frame σ s t) (hw : Scope.judgeRef.within σ = true := by decide) : Frame σ s (Machine.judgeRef
    r count window t) := by
  refine h.lift hw ?_
  unfold Machine.judgeRef
  exact ite (loseRef refl) refl

def Scope.freqMonitorWindowS : Scope := join [ofParts [.tb], Scope.judgeRef]

theorem freqMonitorWindowS {countA countB : ℕ} (h : Frame σ s t) (hw : Scope.freqMonitorWindowS.within σ = true := by decide) : Frame σ
    s (Machine.freqMonitorWindowS countA countB t) := by
  refine h.lift hw ?_
  unfold Machine.freqMonitorWindowS
  exact ite (withTb <| judgeRef <| judgeRef refl) refl

def Scope.revertTimerS : Scope := Scope.startSwitchover

theorem revertTimerS (h : Frame σ s t) (hw : Scope.revertTimerS.within σ = true := by decide) : Frame σ s (Machine.revertTimerS t) := by
  refine h.lift hw ?_
  unfold Machine.revertTimerS
  exact ite (startSwitchover refl) refl

def Scope.switchoverFreezeS : Scope := ofParts [.tb]

theorem switchoverFreezeS (h : Frame σ s t) (hw : Scope.switchoverFreezeS.within σ = true := by decide) : Frame σ s
    (Machine.switchoverFreezeS t) := by
  refine h.lift hw ?_
  unfold Machine.switchoverFreezeS
  split
  · exact ite (withTb refl) refl
  · exact refl

def Scope.switchoverCloseS : Scope := ofParts [.tb, .wide]

theorem switchoverCloseS {phase : ℤ} (h : Frame σ s t) (hw : Scope.switchoverCloseS.within σ = true := by decide) : Frame σ s
    (Machine.switchoverCloseS phase t) := by
  refine h.lift hw ?_
  unfold Machine.switchoverCloseS
  split
  · exact ite (withTb <| setWide refl) refl
  · exact refl

def Scope.selectRef : Scope := join [ofRegs [.REF_CFG, .REF_STAT], Scope.startSwitchover]

theorem selectRef {r : ℕ} (h : Frame σ s t) (hw : Scope.selectRef.within σ = true := by decide) : Frame σ s (Machine.selectRef r t) := by
  refine h.lift hw ?_
  unfold Machine.selectRef
  exact ite (ite (startSwitchover <| put refl) (put refl)) (put refl)

def Scope.heldSelect : Scope := join [ofParts [.tb], Scope.selectRef]

theorem heldSelect (h : Frame σ s t) (hw : Scope.heldSelect.within σ = true := by decide) : Frame σ s (Machine.heldSelect t) := by
  refine h.lift hw ?_
  unfold Machine.heldSelect
  split
  · exact selectRef <| withTb refl
  · exact refl

def Scope.switchoverSettledS : Scope := join [ofParts [.tb], ofRegs [.REF_SWCNT, .REF_STAT], Scope.heldSelect, Scope.raise]

theorem switchoverSettledS (h : Frame σ s t) (hw : Scope.switchoverSettledS.within σ = true := by decide) : Frame σ s
    (Machine.switchoverSettledS t) := by
  refine h.lift hw ?_
  unfold Machine.switchoverSettledS
  split
  · exact heldSelect <| withTb <| raise <| bump <| put <| put <| put refl
  · exact refl

def Scope.holdLimitS : Scope := ofRegs [.REF_STAT]

theorem holdLimitS (h : Frame σ s t) (hw : Scope.holdLimitS.within σ = true := by decide) : Frame σ s (Machine.holdLimitS t) := by
  refine h.lift hw ?_
  unfold Machine.holdLimitS
  exact ite (put refl) refl

def Scope.acquisitionCompleteS : Scope := join [ofParts [.tb], ofRegs [.REF_STAT], Scope.heldSelect]

theorem acquisitionCompleteS (h : Frame σ s t) (hw : Scope.acquisitionCompleteS.within σ = true := by decide) : Frame σ s
    (Machine.acquisitionCompleteS t) := by
  refine h.lift hw ?_
  unfold Machine.acquisitionCompleteS
  split
  · exact ite (heldSelect <| withTb <| put refl) refl
  · exact refl

def Scope.loadCount : Scope := Scope.setChip

theorem loadCount {n t1 : ℕ} (h : Frame σ s t) (hw : Scope.loadCount.within σ = true := by decide) : Frame σ s (Machine.loadCount n t1
    t) := by
  refine h.lift hw ?_
  unfold Machine.loadCount
  exact setChip refl

def Scope.replicaStartS : Scope := join [ofParts [.tb], ofRegs [.TB_STAT], Scope.loadCount, Scope.setChip]

theorem replicaStartS (h : Frame σ s t) (hw : Scope.replicaStartS.within σ = true := by decide) : Frame σ s (Machine.replicaStartS t) :=
    by
  refine h.lift hw ?_
  unfold Machine.replicaStartS
  exact ite refl (withTb <| forBelow (fun _ _ h => ite h (loadCount <| setChip h)) <| put refl)

def Scope.stepReplica : Scope := join [ofRegs [.COMMIT_STAT], Scope.setChip, Scope.loadCount, Scope.setCore]

theorem stepReplica {n : ℕ} (h : Frame σ s t) (hw : Scope.stepReplica.within σ = true := by decide) : Frame σ s (Machine.stepReplica n
    t) := by
  refine h.lift hw ?_
  unfold Machine.stepReplica
  exact when (fun h => put <| forBelow (fun _ _ h => setCore h) <| setChip h) <| setChip <| loadCount refl

def Scope.latchStrobe : Scope := Scope.setChip

theorem latchStrobe {n : ℕ} {phase : ℤ} (h : Frame σ s t) (hw : Scope.latchStrobe.within σ = true := by decide) : Frame σ s
    (Machine.latchStrobe n phase t) := by
  refine h.lift hw ?_
  unfold Machine.latchStrobe
  exact setChip refl

def Scope.upsetReplica : Scope := Scope.setChip

theorem upsetReplica {n : ℕ} {err : ℤ} (h : Frame σ s t) (hw : Scope.upsetReplica.within σ = true := by decide) : Frame σ s
    (Machine.upsetReplica n err t) := by
  refine h.lift hw ?_
  unfold Machine.upsetReplica
  exact setChip refl

def Scope.strobeChip : Scope := join [ofRegs [.REPL_PHASE, .TB_STAT], Scope.latchStrobe, Scope.upsetReplica, Scope.stepReplica,
    Scope.setChip, Scope.raise]

theorem strobeChip {master : ℤ} {n : ℕ} {err phase : ℤ} (h : Frame σ s t) (hw : Scope.strobeChip.within σ = true := by decide) : Frame σ
    s (Machine.strobeChip master n err phase t) := by
  refine h.lift hw ?_
  unfold Machine.strobeChip
  exact ite refl (ite (put <| put <| put <| latchStrobe <| upsetReplica <| ite (stepReplica refl) refl) (setChip <| raise <| put <| put <|
      put <| put <| put <| latchStrobe <| upsetReplica <| ite (stepReplica refl) refl))

def Scope.strobeAlone : Scope := join [Scope.latchStrobe, Scope.upsetReplica]

theorem strobeAlone {n : ℕ} {err phase : ℤ} (h : Frame σ s t) (hw : Scope.strobeAlone.within σ = true := by decide) : Frame σ s
    (Machine.strobeAlone n err phase t) := by
  refine h.lift hw ?_
  unfold Machine.strobeAlone
  exact ite refl (latchStrobe <| upsetReplica refl)

def Scope.alignmentStrobeS : Scope := join [ofParts [.tb], ofRegs [.TB_STAT], Scope.strobeAlone, Scope.strobeChip]

theorem alignmentStrobeS {latched : List (ℤ × ℤ)} (h : Frame σ s t) (hw : Scope.alignmentStrobeS.within σ = true := by decide) :
    Frame σ s (Machine.alignmentStrobeS latched t) := by
  suffices core : ∀ {s}, Frame Scope.alignmentStrobeS s t → Frame Scope.alignmentStrobeS s (Machine.alignmentStrobeS latched t) from
      h.lift hw (core refl)
  intro s h
  have one {t : State} {b : Bool} {n : ℕ} {d c p : ℤ} (h : Frame Scope.alignmentStrobeS s t) :
      Frame Scope.alignmentStrobeS s ((if b then Machine.strobeAlone else Machine.strobeChip d) n c p t) := by
    split
    · exact strobeAlone h
    · exact strobeChip h
  have last {t : State} (h : Frame Scope.alignmentStrobeS s t) :
      Frame Scope.alignmentStrobeS s (if t.tb.sw.isNone then { t with tb := { t.tb with bwInForce := t.get REF_CFG.BW } } else t) := ite
          (withTb h) h
  unfold Machine.alignmentStrobeS
  refine ite ?_ h
  refine last <| forList (fun x u hu => ?_) <| put <| withTb h
  exact one hu

def Scope.epochCtrlWrite : Scope := join [ofParts [.tb], ofRegs [.EPOCH_STAT, .EPOCH_CTRL_A]]

theorem epochCtrlWrite {v : ℕ} (h : Frame σ s t) (hw : Scope.epochCtrlWrite.within σ = true := by decide) : Frame σ s
    (Machine.epochCtrlWrite v t) := by
  refine h.lift hw ?_
  unfold Machine.epochCtrlWrite
  exact ite (ite (put <| setReg refl) (withTb <| put <| setReg refl)) (withTb <| put <| setReg refl)

def Scope.epochLoadS : Scope := join [ofParts [.tb, .wide], ofRegs [.TB_STAT, .PM_GEN, .EPOCH_STAT, .EPOCH_CTRL_A], Scope.raise,
    Scope.setChip, Scope.loadCount]

theorem epochLoadS (h : Frame σ s t) (hw : Scope.epochLoadS.within σ = true := by decide) : Frame σ s (Machine.epochLoadS t) := by
  refine h.lift hw ?_
  unfold Machine.epochLoadS
  split
  · split
    · exact withTb <| (by
        split
        · exact setWide <| raise <| put <| bump <| put <| put <| put <| put <| put <| forBelow (fun _ _ h => ite h (setChip <| loadCount
              h)) refl
        · exact raise <| put <| bump <| put <| put <| put <| put <| put <| forBelow (fun _ _ h => ite h (setChip <| loadCount h)) refl)
    · exact refl
  · exact refl

def Scope.matchEdge : Scope := join [ofParts [.tb], ofRegs [.EPOCH_STAT], Scope.raise]

theorem matchEdge {p : EpochPlaces} {tol pos : ℕ} (h : Frame σ s t) (hw : Scope.matchEdge.within σ = true := by decide) : Frame σ s
    (Machine.matchEdge p tol pos t) := by
  refine h.lift hw ?_
  unfold Machine.matchEdge
  exact ite (withTb refl) (ite (withTb <| withTb refl) (withTb <| raise <| put <| withTb refl))

def Scope.laterEdge : Scope := join [ofParts [.wide], ofRegs [.EPOCH_STAT], Scope.matchEdge]

theorem laterEdge {frac : ℕ} (h : Frame σ s t) (hw : Scope.laterEdge.within σ = true := by decide) : Frame σ s (Machine.laterEdge frac
    t) := by
  refine h.lift hw ?_
  unfold Machine.laterEdge
  split
  · exact matchEdge <| bump <| setWide refl
  · exact refl

def Scope.epochInEdgeS : Scope := join [ofParts [.tb], Scope.laterEdge]

theorem epochInEdgeS {fall : Bool} {frac : ℕ} (h : Frame σ s t) (hw : Scope.epochInEdgeS.within σ = true := by decide) : Frame σ s
    (Machine.epochInEdgeS fall frac t) := by
  refine h.lift hw ?_
  unfold Machine.epochInEdgeS
  exact ite refl (ite (withTb <| laterEdge refl) (laterEdge refl))

def Scope.epochMissingS : Scope := join [ofParts [.tb], ofRegs [.EPOCH_STAT]]

theorem epochMissingS (h : Frame σ s t) (hw : Scope.epochMissingS.within σ = true := by decide) : Frame σ s (Machine.epochMissingS t) :=
    by
  refine h.lift hw ?_
  unfold Machine.epochMissingS
  split
  · exact ite (withTb <| put refl) refl
  · exact refl

def Scope.requestSlew : Scope := join [ofParts [.tb], ofRegs [.TB_STAT]]

theorem requestSlew {adj : ℤ} {rate : ℕ} (h : Frame σ s t) (hw : Scope.requestSlew.within σ = true := by decide) : Frame σ s
    (Machine.requestSlew adj rate t) := by
  refine h.lift hw ?_
  unfold Machine.requestSlew
  exact withTb <| put refl

def Scope.slewStartS : Scope := join [ofParts [.tb], ofRegs [.TB_STAT, .TB_SLEW]]

theorem slewStartS (h : Frame σ s t) (hw : Scope.slewStartS.within σ = true := by decide) : Frame σ s (Machine.slewStartS t) := by
  refine h.lift hw ?_
  unfold Machine.slewStartS
  split
  · exact ite (withTb <| put <| put refl) refl
  · exact refl

def Scope.slewEndS : Scope := join [ofParts [.tb], ofRegs [.TB_STAT]]

theorem slewEndS (h : Frame σ s t) (hw : Scope.slewEndS.within σ = true := by decide) : Frame σ s (Machine.slewEndS t) := by
  refine h.lift hw ?_
  unfold Machine.slewEndS
  split
  · exact ite (withTb <| put refl) refl
  · exact refl

def Scope.hookRefFreq : Scope := join [ofRegs [.REF_STAT], Scope.setRefIn, Scope.loseRef]

theorem hookRefFreq {r : ℕ} {old new : Word} (h : Frame σ s t) (hw : Scope.hookRefFreq.within σ = true := by decide) : Frame σ s
    (Machine.hookRefFreq r old new t).2 := by
  refine h.lift hw ?_
  unfold Machine.hookRefFreq
  exact iteSnd (put refl) (iteSnd (setRefIn refl) (ite (loseRef <| put (setRefIn <| put refl) (by unfold refPresent; split <;> decide))
      (setRefIn <| put refl)))

def Scope.hookRefCfg : Scope := join [ofParts [.tb], ofRegs [.REF_CFG, .REF_STAT], Scope.loseRef, Scope.selectRef]

theorem hookRefCfg {m old new : Word} (h : Frame σ s t) (hw : Scope.hookRefCfg.within σ = true := by decide) : Frame σ s
    (Machine.hookRefCfg m old new t).2 := by
  refine h.lift hw ?_
  unfold Machine.hookRefCfg
  exact ite (ite (loseRef <| put <| ite (loseRef <| put <| setReg refl) (setReg refl)) (ite (loseRef <| put <| setReg refl) (setReg
      refl))) (ite (withTb <| ite (loseRef <| put <| ite (loseRef <| put <| setReg refl) (setReg refl)) (ite (loseRef <| put <| setReg
      refl) (setReg refl))) (selectRef <| ite (loseRef <| put <| ite (loseRef <| put <| setReg refl) (setReg refl)) (ite (loseRef <| put <|
      setReg refl) (setReg refl))))

def Scope.hookTbSlew : Scope := join [ofRegs [.TB_STAT], Scope.requestSlew]

theorem hookTbSlew {ones old new : Word} (h : Frame σ s t) (hw : Scope.hookTbSlew.within σ = true := by decide) : Frame σ s
    (Machine.hookTbSlew ones old new t).2 := by
  refine h.lift hw ?_
  unfold Machine.hookTbSlew
  exact when (fun h => requestSlew h) <| when (fun h => put h) refl

def Scope.setLevel : Scope := join [ofParts [.wide], ofRegs [.SL_STAT], Scope.log, Scope.raise]

theorem setLevel {l : ℕ} (h : Frame σ s t) (hw : Scope.setLevel.within σ = true := by decide) : Frame σ s (Machine.setLevel l t) := by
  refine h.lift hw ?_
  unfold Machine.setLevel
  exact ite refl (log <| raise <| setWide <| ite (put <| put <| put refl) (put <| put refl))

def Scope.refreshLevel : Scope := Scope.setLevel

theorem refreshLevel (h : Frame σ s t) (hw : Scope.refreshLevel.within σ = true := by decide) : Frame σ s (Machine.refreshLevel t) := by
  refine h.lift hw ?_
  unfold Machine.refreshLevel
  exact ite refl (ite (setLevel refl) (ite (setLevel refl) (ite (setLevel <| ite (setLevel refl) refl) (setLevel refl))))

def Scope.faultReport : Scope := join [ofRegs [.FAULT_CNT, .FAULT_SUM], Scope.refreshLevel, Scope.logEvent, Scope.raise]

theorem faultReport {code : ℕ} (h : Frame σ s t) (hw : Scope.faultReport.within σ = true := by decide) : Frame σ s (Machine.faultReport
    code t) := by
  refine h.lift hw ?_
  unfold Machine.faultReport
  exact refreshLevel <| logEvent <| raise <| bump <| put <| put refl

def Scope.setLocked : Scope := ofRegs [.CORE_STAT, .HALF_STAT]

theorem setLocked {c k : ℕ} {b : Bool} (h : Frame σ s t) (hw : Scope.setLocked.within σ = true := by decide) : Frame σ s
    (Machine.setLocked c k b t) := by
  refine h.lift hw ?_
  unfold Machine.setLocked
  exact put (put <| when (fun h => put h) refl) (by split <;> decide)

def Scope.refreshOos : Scope := ofRegs [.HOP_STAT]

theorem refreshOos {c : ℕ} (h : Frame σ s t) (hw : Scope.refreshOos.within σ = true := by decide) : Frame σ s (Machine.refreshOos c t)
    := by
  refine h.lift hw ?_
  unfold Machine.refreshOos
  exact put refl

def Scope.refuseWord : Scope := join [ofRegs [.HALF_ERR], Scope.logEvent, Scope.raise]

theorem refuseWord {c k bit : ℕ} (h : Frame σ s t) (hw : Scope.refuseWord.within σ = true := by decide) : Frame σ s (Machine.refuseWord
    c k bit t) := by
  refine h.lift hw ?_
  unfold Machine.refuseWord
  exact logEvent <| raise <| put <| put refl (show (ofRegs [.HALF_ERR]).within _ = true by decide)

def Scope.requestEnd : Scope := ofRegs [.SOR_REQ]

theorem requestEnd {requested : Bool} {result : ℕ} (h : Frame σ s t) (hw : Scope.requestEnd.within σ = true := by decide) : Frame σ s
    (Machine.requestEnd requested result t) := by
  refine h.lift hw ?_
  unfold Machine.requestEnd
  exact when (fun h => put <| put h) refl

def Scope.calFail : Scope := join [ofRegs [.SOR_CNT, .SOR_STAT, .SOR_FAIL], Scope.logEvent, Scope.requestEnd, Scope.raise]

theorem calFail {mach target reason : ℕ} {requested : Bool} (h : Frame σ s t) (hw : Scope.calFail.within σ = true := by decide) : Frame
    σ s (Machine.calFail mach target reason requested t) := by
  refine h.lift hw ?_
  unfold Machine.calFail
  exact logEvent <| requestEnd <| raise <| bump <| put <| put <| put <| put <| put refl

def Scope.calCommit : Scope := join [ofRegs [.SOR_CNT], Scope.log, Scope.requestEnd]

theorem calCommit {mach target : ℕ} {requested : Bool} (h : Frame σ s t) (hw : Scope.calCommit.within σ = true := by decide) : Frame σ s
    (Machine.calCommit mach target requested t) := by
  refine h.lift hw ?_
  unfold Machine.calCommit
  exact log <| requestEnd <| bump refl

def Scope.refreshAllConv : Scope := join [ofParts [.convSeen], ofRegs [.SOR_STAT], Scope.refreshLevel, Scope.raise]

theorem refreshAllConv (h : Frame σ s t) (hw : Scope.refreshAllConv.within σ = true := by decide) : Frame σ s (Machine.refreshAllConv t)
    := by
  refine h.lift hw ?_
  unfold Machine.refreshAllConv
  exact ite refl (ite (refreshLevel <| withConvSeen <| raise <| put <| put refl) (put refl))

def Scope.trimRefresh : Scope := join [ofRegs [.HT_FORCE, .HT_STAT], Scope.refreshAllConv]

theorem trimRefresh {c k : ℕ} (h : Frame σ s t) (hw : Scope.trimRefresh.within σ = true := by decide) : Frame σ s (Machine.trimRefresh c
    k t) := by
  refine h.lift hw ?_
  unfold Machine.trimRefresh
  exact refreshAllConv <| put <| put <| put <| put <| put <| put refl

def Scope.trimBoundary : Scope := join [Scope.trimRefresh, Scope.setHalf]

theorem trimBoundary {c k : ℕ} {driving : Bool} (h : Frame σ s t) (hw : Scope.trimBoundary.within σ = true := by decide) : Frame σ s
    (Machine.trimBoundary c k driving t) := by
  refine h.lift hw ?_
  unfold Machine.trimBoundary
  exact ite (trimRefresh refl) (trimRefresh <| setHalf refl)

def Scope.discardBlock : Scope := Scope.setHalf

theorem discardBlock {c k : ℕ} (h : Frame σ s t) (hw : Scope.discardBlock.within σ = true := by decide) : Frame σ s
    (Machine.discardBlock c k t) := by
  refine h.lift hw ?_
  unfold Machine.discardBlock
  exact setHalf refl

def Scope.restartWindows : Scope := join [ofRegs [.LD_DIFF], Scope.setHalf]

theorem restartWindows {c k : ℕ} (h : Frame σ s t) (hw : Scope.restartWindows.within σ = true := by decide) : Frame σ s
    (Machine.restartWindows c k t) := by
  refine h.lift hw ?_
  unfold Machine.restartWindows
  exact put <| setHalf refl

def Scope.searchFailed : Scope := join [ofRegs [.HT_STAT, .HALF_STAT], Scope.calFail, Scope.restartWindows, Scope.setHalf]

theorem searchFailed {c k reason : ℕ} (h : Frame σ s t) (hw : Scope.searchFailed.within σ = true := by decide) : Frame σ s
    (Machine.searchFailed c k reason t) := by
  refine h.lift hw ?_
  unfold Machine.searchFailed
  exact calFail <| put <| put <| restartWindows <| setHalf refl

def Scope.searchFound : Scope := join [ofParts [.freeCtr, .preds], ofRegs [.HALF_STAT], Scope.restartWindows, Scope.setHalf,
    Scope.trimRefresh]

theorem searchFound {c k code : ℕ} (h : Frame σ s t) (hw : Scope.searchFound.within σ = true := by decide) : Frame σ s
    (Machine.searchFound c k code t) := by
  refine h.lift hw ?_
  unfold Machine.searchFound
  exact ite (trimRefresh <| withFreeCtr <| put <| put <| restartWindows <| setHalf refl) (trimRefresh <| withPreds <| withFreeCtr <| put <|
      put <| restartWindows <| setHalf refl)

def Scope.startSearch : Scope := join [ofParts [.freeCtr], ofRegs [.HALF_STAT], Scope.searchFailed, Scope.setHalf]

theorem startSearch {c k : ℕ} {w : DivWord} (h : Frame σ s t) (hw : Scope.startSearch.within σ = true := by decide) : Frame σ s
    (Machine.startSearch c k w t) := by
  refine h.lift hw ?_
  unfold Machine.startSearch
  exact ite (searchFailed <| put refl) (setHalf <| withFreeCtr <| put refl)

def Scope.startNarrow : Scope := join [ofRegs [.HALF_STAT], Scope.searchFailed, Scope.setHalf]

theorem startNarrow {c k code : ℕ} (h : Frame σ s t) (hw : Scope.startNarrow.within σ = true := by decide) : Frame σ s
    (Machine.startNarrow c k code t) := by
  refine h.lift hw ?_
  unfold Machine.startNarrow
  exact ite (searchFailed <| put refl) (setHalf <| put refl)

def Scope.restartSearch : Scope := join [Scope.startNarrow, Scope.startSearch]

theorem restartSearch {c k : ℕ} (h : Frame σ s t) (hw : Scope.restartSearch.within σ = true := by decide) : Frame σ s
    (Machine.restartSearch c k t) := by
  refine h.lift hw ?_
  unfold Machine.restartSearch
  split
  · exact ite (startNarrow refl) (startSearch refl)
  · exact refl

def Scope.applyWordWith : Scope := join [ofParts [.wide], ofRegs [.HALF_STAT, .HALF_CNT, .HOP_STAT], Scope.trimBoundary, Scope.setHalf,
    Scope.restartWindows, Scope.setLocked, Scope.discardBlock]

theorem applyWordWith {c k : ℕ} {w : DivWord} {search : State → State} (hf : ∀ {t}, Frame σ s t → Frame σ s (search t))
    (h : Frame σ s t) (hw : Scope.applyWordWith.within σ = true := by decide) :
    Frame σ s (Machine.applyWordWith c k w search t) :=
  have q {a : Scope} (ha : a.within Scope.applyWordWith = true := by decide) : a.within σ = true := Scope.within_trans ha hw
  have hlock : Frame σ s (if largeChange t c k w then Machine.setLocked c k false t else t) := ite (setLocked h q) h
  have hword {u : State} (h : Frame σ s u) : Frame σ s (if w.search then u else u.put HALF_STAT.ACT_BAND w.band c k) := ite h (put h q)
  have hline {u : State} (h : Frame σ s u) : Frame σ s (if u.drive c = k then u.put HOP_STAT.ON_LINE 0 c else u) := ite (put h q) h
  have hput := hword <| put (put (put (put (put hlock q) q) q) q) q
  have hhalf := setHalf (restartWindows (bump (setWide (setWide hput q) q) q) q) q
  trimBoundary (discardBlock (when hf <| hline <| put hhalf q) q) q

def Scope.applyWord : Scope := join [Scope.applyWordWith, Scope.startSearch]

theorem applyWord {c k : ℕ} {w : DivWord} (h : Frame σ s t) (hw : Scope.applyWord.within σ = true := by decide) : Frame σ s
    (Machine.applyWord c k w t) := by
  refine h.lift hw ?_
  unfold Machine.applyWord
  exact applyWordWith (fun h => startSearch h) refl

def Scope.loadWord : Scope := join [Scope.refuseWord, Scope.applyWord]

theorem loadWord {c k : ℕ} {w : DivWord} {inLock : Bool} {divOf : ℕ → ℕ} (h : Frame σ s t) (hw : Scope.loadWord.within σ = true
    := by decide) : Frame σ s (Machine.loadWord c k w inLock divOf t).2 := by
  refine h.lift hw ?_
  unfold Machine.loadWord
  split
  · exact refuseWord refl
  · exact applyWord refl

def Scope.loadNarrow : Scope := join [Scope.refuseWord, Scope.applyWordWith, Scope.startNarrow]

theorem loadNarrow {c k : ℕ} {w : DivWord} {band : ℕ} (h : Frame σ s t) (hw : Scope.loadNarrow.within σ = true := by decide) : Frame σ s
    (Machine.loadNarrow c k w band t).2 := by
  refine h.lift hw ?_
  unfold Machine.loadNarrow
  dsimp only
  split
  · exact refuseWord refl
  · exact applyWordWith (fun h => startNarrow h) refl

def Scope.dropPending : Scope := join [ofRegs [.HALF_CMD, .HALF_STAT], Scope.setHalf]

theorem dropPending {c k : ℕ} (h : Frame σ s t) (hw : Scope.dropPending.within σ = true := by decide) : Frame σ s (Machine.dropPending c
    k t) := by
  refine h.lift hw ?_
  unfold Machine.dropPending
  exact put <| put <| setHalf refl

def Scope.commitBusy : Scope := join [ofRegs [.HOP_STAT], Scope.logEvent]

theorem commitBusy {c : ℕ} (h : Frame σ s t) (hw : Scope.commitBusy.within σ = true := by decide) : Frame σ s (Machine.commitBusy c t)
    := by
  refine h.lift hw ?_
  unfold Machine.commitBusy
  exact logEvent <| put refl

def Scope.captureCommit : Scope := join [ofRegs [.HALF_CMD, .HALF_STAT], Scope.commitBusy, Scope.setHalf]

theorem captureCommit {c k : ℕ} (h : Frame σ s t) (hw : Scope.captureCommit.within σ = true := by decide) : Frame σ s
    (Machine.captureCommit c k t) := by
  refine h.lift hw ?_
  unfold Machine.captureCommit
  exact ite (put <| commitBusy refl) (put <| put <| setHalf refl)

def Scope.applyPending : Scope := join [ofRegs [.HALF_ERR], Scope.logEvent, Scope.dropPending, Scope.loadWord]

theorem applyPending {c k : ℕ} {divOf : DivWord → ℕ → ℕ} (h : Frame σ s t) (hw : Scope.applyPending.within σ = true := by decide) :
    Frame σ s (Machine.applyPending c k divOf t) := by
  refine h.lift hw ?_
  unfold Machine.applyPending
  split
  · exact refl
  · exact ite refl (ite (logEvent <| put <| put <| dropPending refl) (dropPending <| loadWord refl))

def Scope.halfReadyS : Scope := join [ofRegs [.HALF_STAT], Scope.trimRefresh, Scope.setHalf, Scope.restartWindows]

theorem halfReadyS {c k : ℕ} (h : Frame σ s t) (hw : Scope.halfReadyS.within σ = true := by decide) : Frame σ s (Machine.halfReadyS c k
    t) := by
  refine h.lift hw ?_
  unfold Machine.halfReadyS
  exact ite (trimRefresh <| setHalf <| restartWindows <| put refl) refl

def Scope.powerDown : Scope := join [ofRegs [.HALF_STAT], Scope.trimRefresh, Scope.setHalf, Scope.dropPending, Scope.setLocked]

theorem powerDown {c k : ℕ} (h : Frame σ s t) (hw : Scope.powerDown.within σ = true := by decide) : Frame σ s (Machine.powerDown c k t)
    := by
  refine h.lift hw ?_
  unfold Machine.powerDown
  exact trimRefresh <| setHalf <| put <| dropPending <| setLocked <| put refl

def Scope.powerUp : Scope := Scope.setHalf

theorem powerUp {c k : ℕ} (h : Frame σ s t) (hw : Scope.powerUp.within σ = true := by decide) : Frame σ s (Machine.powerUp c k t) := by
  refine h.lift hw ?_
  unfold Machine.powerUp
  exact setHalf refl

def Scope.hookCoreCtrl : Scope := join [ofRegs [.CORE_CTRL, .CORE_STAT], Scope.trimRefresh, Scope.refreshOos, Scope.powerDown,
    Scope.powerUp, Scope.logEvent]

theorem hookCoreCtrl {c : ℕ} {old new : Word} (h : Frame σ s t) (hw : Scope.hookCoreCtrl.within σ = true := by decide) : Frame σ s
    (Machine.hookCoreCtrl c old new t).2 := by
  refine h.lift hw ?_
  unfold Machine.hookCoreCtrl
  exact trimRefresh <| trimRefresh <| refreshOos <| when (fun h => logEvent <| put h) <| ite (powerDown <| ite (powerUp <| ite (powerUp <|
      setReg refl) (setReg refl)) (ite (powerUp <| setReg refl) (setReg refl))) (ite (powerUp <| ite (powerUp <| setReg refl) (setReg
      refl)) (ite (powerUp <| setReg refl) (setReg refl)))

def Scope.hookLdCfg : Scope := join [ofRegs [.HALF_ERR], Scope.setHalf]

theorem hookLdCfg {c k : ℕ} {new : Word} (h : Frame σ s t) (hw : Scope.hookLdCfg.within σ = true := by decide) : Frame σ s
    (Machine.hookLdCfg c k new t).2 := by
  refine h.lift hw ?_
  unfold Machine.hookLdCfg
  exact setHalf <| when (fun h => put h) refl

def Scope.halfPhase : Scope := join [ofParts [.freeCtr], Scope.setHalf]

theorem halfPhase {c k ts : ℕ} (h : Frame σ s t) (hw : Scope.halfPhase.within σ = true := by decide) : Frame σ s (t.halfPhase c k ts).2
    := by
  refine h.lift hw ?_
  unfold State.halfPhase
  dsimp only
  split
  · exact refl
  · exact refl
  · exact setHalf <| withFreeCtr refl

def Scope.portTransition : Scope := Scope.setPort

theorem portTransition {p ts : ℕ} {a b : Pattern} (h : Frame σ s t) (hw : Scope.portTransition.within σ = true := by decide) : Frame σ s
    (Machine.portTransition p ts a b t) := by
  refine h.lift hw ?_
  unfold Machine.portTransition
  exact setPort refl

def Scope.outgoing : Scope := Scope.halfPhase

theorem outgoing {p c k ts : ℕ} (h : Frame σ s t) (hw : Scope.outgoing.within σ = true := by decide) : Frame σ s (Machine.outgoing p c k
    ts t).2 := by
  refine h.lift hw ?_
  unfold Machine.outgoing
  exact halfPhase refl

def Scope.incoming : Scope := join [Scope.halfPhase, Scope.portTransition]

theorem incoming {p c k ts : ℕ} {a : Pattern} (h : Frame σ s t) (hw : Scope.incoming.within σ = true := by decide) : Frame σ s
    (Machine.incoming p c k ts a t) := by
  refine h.lift hw ?_
  unfold Machine.incoming
  exact portTransition <| halfPhase refl

def Scope.markerPulse : Scope := Scope.outgoing

theorem markerPulse {p ts : ℕ} (h : Frame σ s t) (hw : Scope.markerPulse.within σ = true := by decide) :
    Frame σ s (Machine.markerPulse p ts t).2 := by
  suffices core : ∀ {s}, Frame Scope.markerPulse s t → Frame Scope.markerPulse s (Machine.markerPulse p ts t).2 from h.lift hw (core refl)
  intro s h
  exact outgoing (p := p) (c := t.srcCore p) (k := t.drive (t.srcCore p)) (ts := ts) h

def Scope.refreshGroup : Scope := join [ofRegs [.LG_STAT], Scope.refreshAllConv]

theorem refreshGroup {g : ℕ} (h : Frame σ s t) (hw : Scope.refreshGroup.within σ = true := by decide) : Frame σ s (Machine.refreshGroup
    g t) := by
  refine h.lift hw ?_
  unfold Machine.refreshGroup
  exact refreshAllConv <| put refl

def Scope.refreshCoreGroup : Scope := Scope.refreshGroup

theorem refreshCoreGroup {c : ℕ} (h : Frame σ s t) (hw : Scope.refreshCoreGroup.within σ = true := by decide) : Frame σ s
    (Machine.refreshCoreGroup c t) := by
  refine h.lift hw ?_
  unfold Machine.refreshCoreGroup
  split
  · exact refreshGroup refl
  · exact refl

def Scope.refreshPortGroup : Scope := join [Scope.refreshGroup, Scope.refreshAllConv]

theorem refreshPortGroup {p : ℕ} (h : Frame σ s t) (hw : Scope.refreshPortGroup.within σ = true := by decide) : Frame σ s
    (Machine.refreshPortGroup p t) := by
  refine h.lift hw ?_
  unfold Machine.refreshPortGroup
  split
  · exact refreshGroup refl
  · exact refreshAllConv refl

def Scope.startAttempt : Scope := Scope.setPort

theorem startAttempt {p : ℕ} {requested : Bool} (h : Frame σ s t) (hw : Scope.startAttempt.within σ = true := by decide) : Frame σ s
    (Machine.startAttempt p requested t) := by
  refine h.lift hw ?_
  unfold Machine.startAttempt
  exact setPort refl

def Scope.skewRefresh : Scope := join [Scope.refreshPortGroup, Scope.setPort, Scope.startAttempt]

theorem skewRefresh {p : ℕ} (h : Frame σ s t) (hw : Scope.skewRefresh.within σ = true := by decide) : Frame σ s (Machine.skewRefresh p
    t) := by
  refine h.lift hw ?_
  unfold Machine.skewRefresh
  exact ite refl (ite (refreshPortGroup <| ite (setPort refl) (startAttempt <| setPort refl)) (refreshPortGroup <| setPort refl))

def Scope.trimMotionStart : Scope := join [ofRegs [.SOR_STAT], Scope.setPort]

theorem trimMotionStart {p : ℕ} (h : Frame σ s t) (hw : Scope.trimMotionStart.within σ = true := by decide) : Frame σ s
    (Machine.trimMotionStart p t) := by
  refine h.lift hw ?_
  unfold Machine.trimMotionStart
  exact ite refl (put <| setPort refl)

def Scope.refreshPort : Scope := join [ofRegs [.PORT_STAT], Scope.skewRefresh]

theorem refreshPort {p : ℕ} (h : Frame σ s t) (hw : Scope.refreshPort.within σ = true := by decide) : Frame σ s (Machine.refreshPort p
    t) := by
  refine h.lift hw ?_
  unfold Machine.refreshPort
  exact skewRefresh <| put <| put refl

def Scope.refreshGuard : Scope := Scope.setHalf

theorem refreshGuard {c : ℕ} (h : Frame σ s t) (hw : Scope.refreshGuard.within σ = true := by decide) : Frame σ s (Machine.refreshGuard
    c t) := by
  refine h.lift hw ?_
  unfold Machine.refreshGuard
  exact ite (ite (ite (ite refl (setHalf refl)) (setHalf refl)) (setHalf <| ite (ite refl (setHalf refl)) (setHalf refl))) (setHalf <|
      ite (ite refl (setHalf refl)) (setHalf refl))

def Scope.refreshPorts : Scope := join [Scope.refreshGuard, Scope.refreshPort]

theorem refreshPorts {c : ℕ} (h : Frame σ s t) (hw : Scope.refreshPorts.within σ = true := by decide) : Frame σ s (Machine.refreshPorts
    c t) := by
  refine h.lift hw ?_
  unfold Machine.refreshPorts
  exact refreshGuard <| forList (fun _ _ h => refreshPort h) refl

def Scope.portsLine : Scope := ofRegs [.PORT_STAT]

theorem portsLine {c : ℕ} (h : Frame σ s t) (hw : Scope.portsLine.within σ = true := by decide) : Frame σ s (Machine.portsLine c t) := by
  refine h.lift hw ?_
  unfold Machine.portsLine
  exact forList (fun _ _ h => put h) refl

def Scope.setPortStateRl : Scope := join [ofRegs [.PORT_STAT], Scope.refreshPort, Scope.setPort, Scope.trimMotionStart]

theorem setPortStateRl {p st : ℕ} {rl : Bool} (h : Frame σ s t) (hw : Scope.setPortStateRl.within σ = true := by decide) : Frame σ s
    (Machine.setPortStateRl p st rl t) := by
  refine h.lift hw ?_
  unfold Machine.setPortStateRl
  exact refreshPort <| when (fun h => setPort h) <| when (fun h => trimMotionStart <| setPort h) <| put <| setPort refl

def Scope.setPortState : Scope := Scope.setPortStateRl

theorem setPortState {p st : ℕ} (h : Frame σ s t) (hw : Scope.setPortState.within σ = true := by decide) : Frame σ s
    (Machine.setPortState p st t) := by
  refine h.lift hw ?_
  unfold Machine.setPortState
  exact setPortStateRl refl

def Scope.enterHold : Scope := Scope.setPortStateRl

theorem enterHold {p : ℕ} {stale : Bool} (h : Frame σ s t) (hw : Scope.enterHold.within σ = true := by decide) : Frame σ s
    (Machine.enterHold p stale t) := by
  refine h.lift hw ?_
  unfold Machine.enterHold
  exact setPortStateRl refl

def Scope.closeLoops : Scope := Scope.setHalf

theorem closeLoops {c : ℕ} (h : Frame σ s t) (hw : Scope.closeLoops.within σ = true := by decide) : Frame σ s (Machine.closeLoops c t)
    := by
  refine h.lift hw ?_
  unfold Machine.closeLoops
  exact ite (setHalf <| ite (setHalf refl) refl) (ite (setHalf refl) refl)

def Scope.releaseSpare : Scope := ofRegs [.LG_STAT]

theorem releaseSpare {c : ℕ} (h : Frame σ s t) (hw : Scope.releaseSpare.within σ = true := by decide) : Frame σ s (Machine.releaseSpare
    c t) := by
  refine h.lift hw ?_
  unfold Machine.releaseSpare
  exact ite (forBelow (fun _ _ h => ite (put h) h) refl) refl

def Scope.beforeCeil : Scope := ofRegs [.PORT_CEIL]

theorem beforeCeil (h : Frame σ s t) (hw : Scope.beforeCeil.within σ = true := by decide) : Frame σ s (t.beforeCeil) := by
  refine h.lift hw ?_
  unfold State.beforeCeil
  exact forList (fun _ _ h => (by
    split
    · exact ite (put h) h
    · exact h)) refl

def Scope.refusePort : Scope := join [ofRegs [.PORT_ERR], Scope.logEvent, Scope.raise]

theorem refusePort {p bit : ℕ} (h : Frame σ s t) (hw : Scope.refusePort.within σ = true := by decide) : Frame σ s (Machine.refusePort p
    bit t) := by
  refine h.lift hw ?_
  unfold Machine.refusePort
  exact logEvent <| raise <| put <| put refl (show (ofRegs [.PORT_ERR]).within _ = true by decide)

def Scope.setFine : Scope := join [ofRegs [.PORT_STAT, .PORT_ACTF], Scope.setPort]

theorem setFine {p fine : ℕ} (h : Frame σ s t) (hw : Scope.setFine.within σ = true := by decide) : Frame σ s (Machine.setFine p fine t)
    := by
  refine h.lift hw ?_
  unfold Machine.setFine
  exact ite (put <| setPort refl) (put <| put <| setPort refl)

def Scope.leaveFailover : Scope := Scope.setCore

theorem leaveFailover {p : ℕ} (h : Frame σ s t) (hw : Scope.leaveFailover.within σ = true := by decide) : Frame σ s
    (Machine.leaveFailover p t) := by
  refine h.lift hw ?_
  unfold Machine.leaveFailover
  exact forList (fun _ _ h => (by
    split
    · exact ite (setCore h) h
    · exact h)) refl

def Scope.outgoingNow : Scope := Scope.outgoing

theorem outgoingNow {p : ℕ} (h : Frame σ s t) (hw : Scope.outgoingNow.within σ = true := by decide) : Frame σ s (Machine.outgoingNow p
    t).2 := by
  refine h.lift hw ?_
  unfold Machine.outgoingNow
  exact outgoing refl

def Scope.incomingNow : Scope := Scope.incoming

theorem incomingNow {p : ℕ} {a : Pattern} (h : Frame σ s t) (hw : Scope.incomingNow.within σ = true := by decide) : Frame σ s
    (Machine.incomingNow p a t) := by
  refine h.lift hw ?_
  unfold Machine.incomingNow
  exact incoming refl

def Scope.freshWord : Scope := join [ofRegs [.PORT_ACTF], Scope.setPort]

theorem freshWord {p : ℕ} (h : Frame σ s t) (hw : Scope.freshWord.within σ = true := by decide) : Frame σ s (Machine.freshWord p t) := by
  refine h.lift hw ?_
  unfold Machine.freshWord
  exact ite (put <| setPort refl) refl

def Scope.wordFine : Scope := join [ofRegs [.PORT_STAT], Scope.setPort, Scope.setFine]

theorem wordFine {p fine : ℕ} {was : ℕ × ℕ} (h : Frame σ s t) (hw : Scope.wordFine.within σ = true := by decide) : Frame σ s
    (Machine.wordFine p fine was t) := by
  refine h.lift hw ?_
  unfold Machine.wordFine
  exact ite (put <| setPort refl) (setFine refl)

def Scope.applyPortWord : Scope := join [ofRegs [.PORT_CNT, .PORT_ACT, .PORT_STAT], Scope.outgoingNow, Scope.wordFine,
    Scope.setPortStateRl, Scope.setPort, Scope.leaveFailover, Scope.incomingNow, Scope.releaseSpare, Scope.refreshGuard,
    Scope.closeLoops, Scope.refreshPortGroup, Scope.refreshCoreGroup]

theorem applyPortWord {p : ℕ} {w : PortWord} (h : Frame σ s t) (hw : Scope.applyPortWord.within σ = true := by decide) : Frame σ s
    (Machine.applyPortWord p w t) := by
  refine h.lift hw ?_
  unfold Machine.applyPortWord
  exact ite (releaseSpare <| refreshGuard <| closeLoops <| put <| wordFine <| setPortStateRl <| bump <| when (fun h => setPort h) <|
      when (fun h => incomingNow h) <| setPort <| put <| put <| put <| put <| when (fun h => leaveFailover h) <| iteSnd (outgoingNow
      refl) refl) (refreshPortGroup <| refreshCoreGroup <| releaseSpare <| refreshGuard <| closeLoops <| releaseSpare <| refreshGuard <|
      closeLoops <| put <| wordFine <| setPortStateRl <| bump <| when (fun h => setPort h) <| when (fun h => incomingNow h) <| setPort <|
      put <| put <| put <| put <| when (fun h => leaveFailover h) <| iteSnd (outgoingNow refl) refl)

def Scope.loadPortWord : Scope := join [Scope.refusePort, Scope.applyPortWord]

theorem loadPortWord {p : ℕ} {w : PortWord} (h : Frame σ s t) (hw : Scope.loadPortWord.within σ = true := by decide) : Frame σ s
    (Machine.loadPortWord p w t) := by
  refine h.lift hw ?_
  unfold Machine.loadPortWord
  split
  · exact refusePort refl
  · exact applyPortWord refl

def Scope.loadTimedWord : Scope := join [Scope.beforeCeil, Scope.refusePort, Scope.applyPortWord]

theorem loadTimedWord {p : ℕ} {w : PortWord} (h : Frame σ s t) (hw : Scope.loadTimedWord.within σ = true := by decide) : Frame σ s
    (Machine.loadTimedWord p w t) := by
  refine h.lift hw ?_
  unfold Machine.loadTimedWord
  split
  · exact refusePort refl
  · exact applyPortWord refl

def Scope.portTimed : Scope := Scope.setPort

theorem portTimed {p : ℕ} (h : Frame σ s t) (hw : Scope.portTimed.within σ = true := by decide) : Frame σ s (Machine.portTimed p t) := by
  refine h.lift hw ?_
  unfold Machine.portTimed
  exact setPort refl

def Scope.applyEntry : Scope := join [ofRegs [.PORT_CNT, .PORT_ACT], Scope.refusePort, Scope.portTimed, Scope.setPort]

theorem applyEntry {p div : ℕ} {key : ℕ × ℕ × ℕ × ℕ} (h : Frame σ s t) (hw : Scope.applyEntry.within σ = true := by decide) : Frame σ s
    (Machine.applyEntry p div key t) := by
  refine h.lift hw ?_
  unfold Machine.applyEntry
  exact ite (refusePort <| portTimed refl) (setPort <| bump <| put <| portTimed refl)

def Scope.capturePort : Scope := join [ofRegs [.PORT_CMD], Scope.setPort]

theorem capturePort {p : ℕ} (h : Frame σ s t) (hw : Scope.capturePort.within σ = true := by decide) : Frame σ s (Machine.capturePort p
    t) := by
  refine h.lift hw ?_
  unfold Machine.capturePort
  exact put <| setPort refl

def Scope.portWordApplyS : Scope := join [ofRegs [.PORT_CMD, .PORT_ERR], Scope.setPort, Scope.logEvent, Scope.loadPortWord]

theorem portWordApplyS {p : ℕ} (h : Frame σ s t) (hw : Scope.portWordApplyS.within σ = true := by decide) : Frame σ s
    (Machine.portWordApplyS p t) := by
  refine h.lift hw ?_
  unfold Machine.portWordApplyS
  split
  · exact refl
  · exact ite refl (ite (logEvent <| put <| put <| put <| setPort refl) (loadPortWord <| put <| setPort refl))

def Scope.editAdmitted : Scope := Scope.setChip

theorem editAdmitted {n : ℕ} {a b : Admitted} (h : Frame σ s t) (hw : Scope.editAdmitted.within σ = true := by decide) : Frame σ s
    (Machine.editAdmitted n a b t) := by
  refine h.lift hw ?_
  unfold Machine.editAdmitted
  exact setChip refl

def Scope.failHop : Scope := join [ofRegs [.HOP_CNT, .HOP_STAT], Scope.logEvent, Scope.raise]

theorem failHop {c reason : ℕ} (h : Frame σ s t) (hw : Scope.failHop.within σ = true := by decide) : Frame σ s (Machine.failHop c reason
    t) := by
  refine h.lift hw ?_
  unfold Machine.failHop
  exact logEvent <| raise <| bump <| put <| put refl

def Scope.closeWindow : Scope := join [ofRegs [.HOP_STAT], Scope.setCore]

theorem closeWindow {c : ℕ} (h : Frame σ s t) (hw : Scope.closeWindow.within σ = true := by decide) : Frame σ s (Machine.closeWindow c
    t) := by
  refine h.lift hw ?_
  unfold Machine.closeWindow
  exact put <| setCore refl

def Scope.endRelock : Scope := join [ofRegs [.HOP_STAT], Scope.setCore]

theorem endRelock {c : ℕ} (h : Frame σ s t) (hw : Scope.endRelock.within σ = true := by decide) : Frame σ s (Machine.endRelock c t) := by
  refine h.lift hw ?_
  unfold Machine.endRelock
  exact put <| setCore refl

def Scope.failHopsOn : Scope := join [Scope.failHop, Scope.editAdmitted, Scope.closeWindow, Scope.endRelock]

theorem failHopsOn {sp : ℕ} (h : Frame σ s t) (hw : Scope.failHopsOn.within σ = true := by decide) : Frame σ s (Machine.failHopsOn sp t)
    := by
  refine h.lift hw ?_
  unfold Machine.failHopsOn
  exact forList (fun _ _ h => failHop <| editAdmitted h) <| ite (failHop <| endRelock <| closeWindow refl) (closeWindow refl)

def Scope.squelchPolicy : Scope := Scope.setPortState

theorem squelchPolicy {p : ℕ} (h : Frame σ s t) (hw : Scope.squelchPolicy.within σ = true := by decide) : Frame σ s
    (Machine.squelchPolicy p t) := by
  refine h.lift hw ?_
  unfold Machine.squelchPolicy
  exact setPortState refl

def Scope.holdPolicy : Scope := join [ofRegs [.PORT_STAT], Scope.squelchPolicy, Scope.setPortState, Scope.setPort, Scope.setHalf]

theorem holdPolicy {p : ℕ} (h : Frame σ s t) (hw : Scope.holdPolicy.within σ = true := by decide) : Frame σ s (Machine.holdPolicy p t)
    := by
  refine h.lift hw ?_
  unfold Machine.holdPolicy
  exact ite (squelchPolicy refl) (ite (squelchPolicy <| put refl) (setPortState <| setPort <| setHalf refl))

def Scope.failoverElse : Scope := join [Scope.holdPolicy, Scope.squelchPolicy]

theorem failoverElse {p : ℕ} (h : Frame σ s t) (hw : Scope.failoverElse.within σ = true := by decide) : Frame σ s (Machine.failoverElse
    p t) := by
  refine h.lift hw ?_
  unfold Machine.failoverElse
  exact ite (holdPolicy refl) (squelchPolicy refl)

def Scope.markFailed : Scope := join [ofRegs [.HALF_FAIL], Scope.refreshOos, Scope.setHalf]

theorem markFailed {c k : ℕ} (h : Frame σ s t) (hw : Scope.markFailed.within σ = true := by decide) : Frame σ s (Machine.markFailed c k
    t) := by
  refine h.lift hw ?_
  unfold Machine.markFailed
  exact refreshOos <| setHalf <| put refl

def Scope.reportFailed : Scope := join [ofParts [.halfFaults], Scope.faultReport]

theorem reportFailed (h : Frame σ s t) (hw : Scope.reportFailed.within σ = true := by decide) : Frame σ s (Machine.reportFailed t) := by
  refine h.lift hw ?_
  unfold Machine.reportFailed
  exact ite (withHalfFaults refl) (faultReport refl)

def Scope.dropEdge : Scope := ofParts [.tb]

theorem dropEdge (h : Frame σ s t) (hw : Scope.dropEdge.within σ = true := by decide) : Frame σ s (Machine.dropEdge t) := by
  refine h.lift hw ?_
  unfold Machine.dropEdge
  split
  · exact withTb refl
  · exact refl

def Scope.startFailover : Scope := join [Scope.failoverElse, Scope.reportFailed, Scope.markFailed, Scope.failHopsOn, Scope.raise,
    Scope.dropEdge, Scope.setCore, Scope.setPortState]

theorem startFailover {c : ℕ} {ps : List ℕ} (h : Frame σ s t) (hw : Scope.startFailover.within σ = true := by decide) : Frame σ s
    (Machine.startFailover c ps t) := by
  refine h.lift hw ?_
  unfold Machine.startFailover
  split
  · exact refl
  · split
    · exact forList (fun _ _ h => failoverElse h) refl
    · exact reportFailed <| markFailed <| markFailed <| failHopsOn <| raise <| dropEdge <| setCore <| forList (fun _ _ h => setPortState
          h) refl

def Scope.policySeen : Scope := join [ofParts [.wide], ofRegs [.PORT_STAT, .PORT_CNT], Scope.raise]

theorem policySeen {p : ℕ} (h : Frame σ s t) (hw : Scope.policySeen.within σ = true := by decide) : Frame σ s (Machine.policySeen p t)
    := by
  refine h.lift hw ?_
  unfold Machine.policySeen
  exact raise <| setWide <| put <| bump refl

def Scope.holdToPolicy : Scope := join [Scope.setPortState, Scope.outgoingNow, Scope.incomingNow, Scope.freshWord]

theorem holdToPolicy {p : ℕ} (h : Frame σ s t) (hw : Scope.holdToPolicy.within σ = true := by decide) : Frame σ s (Machine.holdToPolicy
    p t) := by
  refine h.lift hw ?_
  unfold Machine.holdToPolicy
  exact ite refl (ite (setPortState refl) (ite refl (incomingNow <| freshWord <| outgoingNow refl)))

def Scope.lockLossPolicy : Scope := join [Scope.refreshPorts, Scope.closeLoops, Scope.startFailover, Scope.holdToPolicy,
    Scope.policySeen, Scope.holdPolicy, Scope.squelchPolicy]

theorem lockLossPolicy {c : ℕ} (h : Frame σ s t) (hw : Scope.lockLossPolicy.within σ = true := by decide) : Frame σ s
    (Machine.lockLossPolicy c t) := by
  refine h.lift hw ?_
  unfold Machine.lockLossPolicy
  exact refreshPorts <| closeLoops <| startFailover <| forList (fun _ _ h => holdPolicy h) <| forList (fun _ _ h => squelchPolicy h) <|
      forList (fun _ _ h => holdToPolicy h) <| forList (fun _ _ h => policySeen h) refl

def Scope.declareFailed : Scope := join [Scope.reportFailed, Scope.markFailed, Scope.lockLossPolicy]

theorem declareFailed {c k : ℕ} (h : Frame σ s t) (hw : Scope.declareFailed.within σ = true := by decide) : Frame σ s
    (Machine.declareFailed c k t) := by
  refine h.lift hw ?_
  unfold Machine.declareFailed
  exact ite refl (ite (lockLossPolicy <| reportFailed <| markFailed refl) (reportFailed <| markFailed refl))

def Scope.lockWithdrawn : Scope := join [ofParts [.wide], ofRegs [.HALF_STAT, .HALF_CNT], Scope.trimRefresh, Scope.discardBlock,
    Scope.setHalf, Scope.raise, Scope.setLocked]

theorem lockWithdrawn {c k : ℕ} (h : Frame σ s t) (hw : Scope.lockWithdrawn.within σ = true := by decide) : Frame σ s
    (Machine.lockWithdrawn c k t) := by
  refine h.lift hw ?_
  unfold Machine.lockWithdrawn
  exact trimRefresh <| discardBlock <| setHalf <| raise <| put <| bump <| setWide <| put <| setLocked refl

def Scope.lineLost : Scope := join [ofRegs [.HOP_STAT], Scope.setHalf, Scope.portsLine]

theorem lineLost {c k : ℕ} (h : Frame σ s t) (hw : Scope.lineLost.within σ = true := by decide) : Frame σ s (Machine.lineLost c k t) := by
  refine h.lift hw ?_
  unfold Machine.lineLost
  exact ite (portsLine <| put <| setHalf refl) (setHalf refl)

def Scope.lockLost : Scope := join [Scope.lineLost, Scope.lockWithdrawn, Scope.lockLossPolicy]

theorem lockLost {c k : ℕ} (h : Frame σ s t) (hw : Scope.lockLost.within σ = true := by decide) : Frame σ s (Machine.lockLost c k t) := by
  refine h.lift hw ?_
  unfold Machine.lockLost
  exact lineLost <| ite (lockLossPolicy <| lockWithdrawn refl) (lockWithdrawn refl)

def Scope.portRegain : Scope := join [ofRegs [.PORT_STAT], Scope.setPortState]

theorem portRegain {p : ℕ} (h : Frame σ s t) (hw : Scope.portRegain.within σ = true := by decide) : Frame σ s (Machine.portRegain p t)
    := by
  refine h.lift hw ?_
  unfold Machine.portRegain
  exact ite (setPortState refl) (ite (put <| setPortState refl) refl)

def Scope.lockGained : Scope := join [ofParts [.wide], Scope.trimRefresh, Scope.discardBlock, Scope.setHalf, Scope.raise,
    Scope.setLocked, Scope.refreshPorts, Scope.closeLoops, Scope.portRegain]

theorem lockGained {c k : ℕ} (h : Frame σ s t) (hw : Scope.lockGained.within σ = true := by decide) : Frame σ s (Machine.lockGained c k
    t) := by
  refine h.lift hw ?_
  unfold Machine.lockGained
  exact ite (refreshPorts <| closeLoops <| forList (fun _ _ h => portRegain h) <| trimRefresh <| discardBlock <| setHalf <| raise <|
      setWide <| setLocked refl) (trimRefresh <| discardBlock <| setHalf <| raise <| setWide <| setLocked refl)

def Scope.ldWindowEndS : Scope := join [ofRegs [.LD_DIFF, .HALF_STAT], Scope.setHalf, Scope.lockLost, Scope.lockGained]

theorem ldWindowEndS {c k : ℕ} {d : ℤ} {vtune : ℕ} (h : Frame σ s t) (hw : Scope.ldWindowEndS.within σ = true := by decide) : Frame σ s
    (Machine.ldWindowEndS c k d vtune t) := by
  refine h.lift hw ?_
  unfold Machine.ldWindowEndS
  exact ite (ite (put <| setHalf <| put <| ite (ite (lockLost <| put <| put <| put <| setHalf refl) (put <| put <| put <| setHalf refl))
      (ite (lockGained <| put <| put <| put <| setHalf refl) (put <| put <| put <| setHalf refl))) (put <| ite (ite (lockLost <| put <|
      put <| put <| setHalf refl) (put <| put <| put <| setHalf refl)) (ite (lockGained <| put <| put <| put <| setHalf refl) (put <|
      put <| put <| setHalf refl)))) refl

def Scope.grossTrip : Scope := join [ofRegs [.HALF_STAT], Scope.lockLost]

theorem grossTrip {c k : ℕ} (h : Frame σ s t) (hw : Scope.grossTrip.within σ = true := by decide) : Frame σ s (Machine.grossTrip c k t)
    := by
  refine h.lift hw ?_
  unfold Machine.grossTrip
  exact lockLost <| put refl

def Scope.grossMonitorWindowS : Scope := join [Scope.grossTrip, Scope.setHalf]

theorem grossMonitorWindowS {c k : ℕ} {d : ℤ} (h : Frame σ s t) (hw : Scope.grossMonitorWindowS.within σ = true := by decide) : Frame σ
    s (Machine.grossMonitorWindowS c k d t) := by
  refine h.lift hw ?_
  unfold Machine.grossMonitorWindowS
  exact ite (ite (grossTrip <| setHalf refl) (setHalf refl)) refl

def Scope.grossNoFeedbackS : Scope := join [Scope.setHalf, Scope.grossTrip, Scope.reportFailed, Scope.markFailed]

theorem grossNoFeedbackS {c k : ℕ} (h : Frame σ s t) (hw : Scope.grossNoFeedbackS.within σ = true := by decide) : Frame σ s
    (Machine.grossNoFeedbackS c k t) := by
  refine h.lift hw ?_
  unfold Machine.grossNoFeedbackS
  exact ite (setHalf <| grossTrip <| reportFailed <| markFailed refl) refl

def Scope.postSwitchGuardFailS : Scope := Scope.lockLost

theorem postSwitchGuardFailS {c : ℕ} (h : Frame σ s t) (hw : Scope.postSwitchGuardFailS.within σ = true := by decide) : Frame σ s
    (Machine.postSwitchGuardFailS c t) := by
  refine h.lift hw ?_
  unfold Machine.postSwitchGuardFailS
  exact ite (lockLost refl) refl

def Scope.halfRelockTimeoutS : Scope := Scope.declareFailed

theorem halfRelockTimeoutS {c k : ℕ} (h : Frame σ s t) (hw : Scope.halfRelockTimeoutS.within σ = true := by decide) : Frame σ s
    (Machine.halfRelockTimeoutS c k t) := by
  refine h.lift hw ?_
  unfold Machine.halfRelockTimeoutS
  split
  · exact ite (declareFailed refl) refl
  · exact refl

def Scope.holdLimitExpiryS : Scope := join [Scope.refreshGuard, Scope.closeLoops, Scope.squelchPolicy]

theorem holdLimitExpiryS {p : ℕ} (h : Frame σ s t) (hw : Scope.holdLimitExpiryS.within σ = true := by decide) : Frame σ s
    (Machine.holdLimitExpiryS p t) := by
  refine h.lift hw ?_
  unfold Machine.holdLimitExpiryS
  exact ite (refreshGuard <| closeLoops <| squelchPolicy refl) refl

def Scope.ceilGuardWindowS : Scope := join [ofRegs [.PORT_STAT], Scope.releaseSpare, Scope.refreshGuard, Scope.closeLoops,
    Scope.setHalf, Scope.raise, Scope.setPortState]

theorem ceilGuardWindowS {c k count : ℕ} (h : Frame σ s t) (hw : Scope.ceilGuardWindowS.within σ = true := by decide) : Frame σ s
    (Machine.ceilGuardWindowS c k count t) := by
  refine h.lift hw ?_
  unfold Machine.ceilGuardWindowS
  split
  · exact ite (releaseSpare <| refreshGuard <| closeLoops <| forList (fun _ _ h => raise <| setPortState <| put h) <| setHalf refl) refl
  · exact refl

def Scope.hookPortCeil : Scope := join [ofRegs [.PORT_STAT], Scope.setPort]

theorem hookPortCeil {p : ℕ} {old new : Word} (h : Frame σ s t) (hw : Scope.hookPortCeil.within σ = true := by decide) : Frame σ s
    (Machine.hookPortCeil p old new t).2 := by
  refine h.lift hw ?_
  unfold Machine.hookPortCeil
  exact iteSnd (put <| when (fun h => put h) <| setPort refl) (when (fun h => put h) <| setPort refl)

def Scope.hookPortCfg : Scope := ofRegs [.PORT_ERR]

theorem hookPortCfg {p : ℕ} {new : Word} (h : Frame σ s t) (hw : Scope.hookPortCfg.within σ = true := by decide) : Frame σ s
    (Machine.hookPortCfg p new t).2 := by
  refine h.lift hw ?_
  unfold Machine.hookPortCfg
  exact when (fun h => put <| put h) refl

def Scope.masterPort : Scope := join [Scope.setPortState, Scope.leaveFailover]

theorem masterPort {p : ℕ} (h : Frame σ s t) (hw : Scope.masterPort.within σ = true := by decide) : Frame σ s (Machine.masterPort p t)
    := by
  refine h.lift hw ?_
  unfold Machine.masterPort
  exact ite (ite (setPortState refl) refl) (ite refl (setPortState <| when (fun h => leaveFailover h) refl))

def Scope.masterChip : Scope := join [Scope.refreshPorts, Scope.closeLoops, Scope.masterPort]

theorem masterChip {n : ℕ} (h : Frame σ s t) (hw : Scope.masterChip.within σ = true := by decide) : Frame σ s (Machine.masterChip n t)
    := by
  refine h.lift hw ?_
  unfold Machine.masterChip
  exact forList (fun _ _ h => refreshPorts <| closeLoops h) <| forList (fun _ _ h => masterPort h) refl

def Scope.portMenS : Scope := join [ofRegs [.PORT_MEN_A], Scope.masterChip]

theorem portMenS {v : ℕ} (h : Frame σ s t) (hw : Scope.portMenS.within σ = true := by decide) : Frame σ s (Machine.portMenS v t) := by
  refine h.lift hw ?_
  unfold Machine.portMenS
  exact forBelow (fun _ _ h => ite h (masterChip h)) <| put refl

def Scope.finePhaseStepS : Scope := ofRegs [.PORT_STAT, .PORT_ACTF]

theorem finePhaseStepS {p : ℕ} (h : Frame σ s t) (hw : Scope.finePhaseStepS.within σ = true := by decide) : Frame σ s
    (Machine.finePhaseStepS p t) := by
  refine h.lift hw ?_
  unfold Machine.finePhaseStepS
  exact ite (put <| put refl) refl

def Scope.markerPulseS : Scope := join [ofParts [.outs], Scope.setPort, Scope.markerPulse]

theorem markerPulseS {p : ℕ} (h : Frame σ s t) (hw : Scope.markerPulseS.within σ = true := by decide) : Frame σ s (Machine.markerPulseS
    p t) := by
  refine h.lift hw ?_
  unfold Machine.markerPulseS
  split
  · exact ite (ite (emit <| setPort <| markerPulse <| setPort refl) (setPort refl)) refl
  · exact refl

def Scope.markPort : Scope := join [Scope.refusePort, Scope.setPort]

theorem markPort {p cnt ts : ℕ} (h : Frame σ s t) (hw : Scope.markPort.within σ = true := by decide) : Frame σ s (Machine.markPort p cnt
    ts t) := by
  refine h.lift hw ?_
  unfold Machine.markPort
  exact ite (refusePort refl) (setPort refl)

def Scope.hookLg : Scope := ofRegs [.LG_STAT]

theorem hookLg {g k : ℕ} {old new : Word} (h : Frame σ s t) (hw : Scope.hookLg.within σ = true := by decide) : Frame σ s (Machine.hookLg
    g k old new t).2 := by
  refine h.lift hw ?_
  unfold Machine.hookLg
  exact iteSnd (put refl) refl

def Scope.writeParity : Scope := ofParts [.mem, .badWords, .ecc]

theorem writeParity {r : ℕ} (h : Frame σ s t) (hw : Scope.writeParity.within σ = true := by decide) : Frame σ s (Machine.writeParity r
    t) := by
  refine h.lift hw ?_
  unfold Machine.writeParity
  exact store refl

def Scope.tansyReplace : Scope := ofParts [.mem, .badWords, .ecc]

theorem tansyReplace {w : ℕ} (h : Frame σ s t) (hw : Scope.tansyReplace.within σ = true := by decide) : Frame σ s (Machine.tansyReplace
    w t) := by
  refine h.lift hw ?_
  unfold Machine.tansyReplace
  exact store refl

def Scope.markCtx : Scope := ofParts [.ctxBad]

theorem markCtx {n : ℕ} (h : Frame σ s t) (hw : Scope.markCtx.within σ = true := by decide) : Frame σ s (Machine.markCtx n t) := by
  refine h.lift hw ?_
  unfold Machine.markCtx
  exact ite (withCtxBad refl) refl

def Scope.dropResult : Scope := ofParts [.mem, .badWords, .ecc]

theorem dropResult {w : ℕ} (h : Frame σ s t) (hw : Scope.dropResult.within σ = true := by decide) : Frame σ s (Machine.dropResult w t)
    := by
  refine h.lift hw ?_
  unfold Machine.dropResult
  exact store refl

def Scope.flagRecord : Scope := ofParts [.ecc]

theorem flagRecord {w : ℕ} (h : Frame σ s t) (hw : Scope.flagRecord.within σ = true := by decide) : Frame σ s (Machine.flagRecord w t)
    := by
  refine h.lift hw ?_
  unfold Machine.flagRecord
  exact ite refl (withEcc refl)

def Scope.freshRecord : Scope := ofParts [.ecc]

theorem freshRecord {a : ℕ} (h : Frame σ s t) (hw : Scope.freshRecord.within σ = true := by decide) : Frame σ s (Machine.freshRecord a
    t) := by
  refine h.lift hw ?_
  unfold Machine.freshRecord
  exact withEcc refl

def Scope.uncorrectable : Scope := join [ofParts [.mem, .badWords, .ecc], Scope.markCtx, Scope.tansyReplace, Scope.dropResult,
    Scope.flagRecord]

theorem uncorrectable {w : ℕ} (h : Frame σ s t) (hw : Scope.uncorrectable.within σ = true := by decide) : Frame σ s
    (Machine.uncorrectable w t) := by
  refine h.lift hw ?_
  unfold Machine.uncorrectable
  exact ite (markCtx refl) (ite (store refl) (ite (store refl) (ite (tansyReplace refl) (ite (dropResult refl) (ite (flagRecord refl)
      refl)))))

def Scope.sramFix : Scope := ofParts [.ecc]

theorem sramFix {off n : ℕ} (h : Frame σ s t) (hw : Scope.sramFix.within σ = true := by decide) : Frame σ s (Machine.sramFix off n t) :=
    by
  refine h.lift hw ?_
  unfold Machine.sramFix
  exact ite refl (withEcc refl)

def Scope.sramMeets : Scope := join [ofParts [.ecc], Scope.uncorrectable, Scope.sramFix]

theorem sramMeets {off n : ℕ} (h : Frame σ s t) (hw : Scope.sramMeets.within σ = true := by decide) : Frame σ s (Machine.sramMeets off n
    t) := by
  refine h.lift hw ?_
  unfold Machine.sramMeets
  exact forList (fun _ _ h => uncorrectable <| withEcc h) <| sramFix refl

def Scope.readCtxWords : Scope := Scope.sramMeets

theorem readCtxWords {n : ℕ} {offs : List ℕ} (h : Frame σ s t) (hw : Scope.readCtxWords.within σ = true := by decide) : Frame σ s
    (Machine.readCtxWords n offs t) := by
  refine h.lift hw ?_
  unfold Machine.readCtxWords
  exact forList (fun _ _ h => sramMeets h) refl

def Scope.refreshFifo : Scope := ofRegs [.COMMIT_STAT]

theorem refreshFifo {n : ℕ} (h : Frame σ s t) (hw : Scope.refreshFifo.within σ = true := by decide) : Frame σ s (Machine.refreshFifo n
    t) := by
  refine h.lift hw ?_
  unfold Machine.refreshFifo
  exact when (fun h => put h) <| put refl

def Scope.dropAdmitted : Scope := join [Scope.refreshFifo, Scope.setChip]

theorem dropAdmitted {n : ℕ} {a : Admitted} (h : Frame σ s t) (hw : Scope.dropAdmitted.within σ = true := by decide) : Frame σ s
    (Machine.dropAdmitted n a t) := by
  refine h.lift hw ?_
  unfold Machine.dropAdmitted
  exact refreshFifo <| setChip refl

def Scope.takeHop : Scope := join [Scope.setCore, Scope.dropAdmitted]

theorem takeHop {c : ℕ} {a : Admitted} (h : Frame σ s t) (hw : Scope.takeHop.within σ = true := by decide) : Frame σ s (Machine.takeHop
    c a t) := by
  refine h.lift hw ?_
  unfold Machine.takeHop
  exact setCore <| dropAdmitted refl

def Scope.clearBandValid : Scope := join [ofParts [.mem], Scope.readCtxWords]

theorem clearBandValid {ctx : ℕ} (h : Frame σ s t) (hw : Scope.clearBandValid.within σ = true := by decide) : Frame σ s
    (Machine.clearBandValid ctx t) := by
  refine h.lift hw ?_
  unfold Machine.clearBandValid
  exact ite refl (ite (readCtxWords refl) (setWord <| readCtxWords refl))

def Scope.failOpenHop : Scope := join [Scope.failHop, Scope.closeWindow, Scope.editAdmitted]

theorem failOpenHop {c reason : ℕ} {r : HopRun} (h : Frame σ s t) (hw : Scope.failOpenHop.within σ = true := by decide) : Frame σ s
    (Machine.failOpenHop c reason r t) := by
  refine h.lift hw ?_
  unfold Machine.failOpenHop
  exact failHop <| closeWindow <| editAdmitted refl

def Scope.applyEntries : Scope := join [ofRegs [.HOP_STAT], Scope.portTimed, Scope.applyEntry]

theorem applyEntries {c : ℕ} {a : Admitted} {es : List (ℕ × ℕ)} (h : Frame σ s t) (hw : Scope.applyEntries.within σ = true := by decide)
    : Frame σ s (Machine.applyEntries c a es t) := by
  refine h.lift hw ?_
  unfold Machine.applyEntries
  exact forList (fun _ _ h => ite (ite (portTimed h) (applyEntry h)) (put h)) refl

def Scope.setLastPlace : Scope := ofParts [.wide]

theorem setLastPlace {c : ℕ} (h : Frame σ s t) (hw : Scope.setLastPlace.within σ = true := by decide) : Frame σ s (Machine.setLastPlace
    c t) := by
  refine h.lift hw ?_
  unfold Machine.setLastPlace
  exact setWide refl

def Scope.portIncoming : Scope := Scope.setPortState

theorem portIncoming {p : ℕ} {squelched : Bool} (h : Frame σ s t) (hw : Scope.portIncoming.within σ = true := by decide) : Frame σ s
    (Machine.portIncoming p squelched t) := by
  refine h.lift hw ?_
  unfold Machine.portIncoming
  exact ite (setPortState refl) refl

def Scope.holdBusy : Scope := Scope.setCore

theorem holdBusy {c : ℕ} {iv : ℕ × ℕ} (h : Frame σ s t) (hw : Scope.holdBusy.within σ = true := by decide) : Frame σ s (Machine.holdBusy
    c iv t) := by
  refine h.lift hw ?_
  unfold Machine.holdBusy
  exact setCore refl

def Scope.hopLoad : Scope := join [ofRegs [.HOP_CNT2], Scope.loadWord, Scope.setHalf, Scope.setCore]

theorem hopLoad {c : ℕ} {r : HopRun} (h : Frame σ s t) (hw : Scope.hopLoad.within σ = true := by decide) : Frame σ s (Machine.hopLoad c
    r t) := by
  refine h.lift hw ?_
  unfold Machine.hopLoad
  split
  · exact refl
  · exact setCore <| when (fun h => bump h) <| loadWord <| setHalf refl

def Scope.openWindow : Scope := join [ofRegs [.HOP_STAT], Scope.failHop, Scope.editAdmitted, Scope.holdBusy, Scope.setCore]

theorem openWindow {c : ℕ} (h : Frame σ s t) (hw : Scope.openWindow.within σ = true := by decide) : Frame σ s (Machine.openWindow c t)
    := by
  refine h.lift hw ?_
  unfold Machine.openWindow
  dsimp only
  split
  · exact refl
  · exact ite refl (ite (failHop <| editAdmitted refl) (ite (holdBusy <| editAdmitted refl) (put <| setCore refl)))

def Scope.hopWindowOpenS : Scope := join [Scope.openWindow, Scope.hopLoad]

theorem hopWindowOpenS {c : ℕ} (h : Frame σ s t) (hw : Scope.hopWindowOpenS.within σ = true := by decide) : Frame σ s
    (Machine.hopWindowOpenS c t) := by
  refine h.lift hw ?_
  unfold Machine.hopWindowOpenS
  split
  · exact refl
  · dsimp only
    split
    · exact hopLoad <| openWindow refl
    · exact openWindow refl

def Scope.hopPrelockDoneS : Scope := Scope.setCore

theorem hopPrelockDoneS {c : ℕ} (h : Frame σ s t) (hw : Scope.hopPrelockDoneS.within σ = true := by decide) : Frame σ s
    (Machine.hopPrelockDoneS c t) := by
  refine h.lift hw ?_
  unfold Machine.hopPrelockDoneS
  dsimp only
  split
  · exact ite (setCore refl) refl
  · exact ite (setCore refl) refl
  · exact refl

def Scope.placeHalf : Scope := join [ofRegs [.HOP_STAT], Scope.setHalf]

theorem placeHalf {c k since : ℕ} {l : Option PmLine} {rot : Word} {resid : ℤ} (h : Frame σ s t) (hw : Scope.placeHalf.within σ = true
    := by decide) : Frame σ s (Machine.placeHalf c k since l rot resid t) := by
  refine h.lift hw ?_
  unfold Machine.placeHalf
  exact when (fun h => put h) <| setHalf refl

def Scope.hopPlacementDoneS : Scope := join [Scope.setCore, Scope.placeHalf]

theorem hopPlacementDoneS {c : ℕ} {rot : Word} {resid : ℤ} (h : Frame σ s t) (hw : Scope.hopPlacementDoneS.within σ = true := by decide)
    : Frame σ s (Machine.hopPlacementDoneS c rot resid t) := by
  refine h.lift hw ?_
  unfold Machine.hopPlacementDoneS
  split
  · exact ite (setCore <| placeHalf refl) refl
  · exact refl

def Scope.failReady : Scope := join [Scope.failOpenHop, Scope.clearBandValid]

theorem failReady {c reason : ℕ} {r : HopRun} (h : Frame σ s t) (hw : Scope.failReady.within σ = true := by decide) : Frame σ s
    (Machine.failReady c reason r t) := by
  refine h.lift hw ?_
  unfold Machine.failReady
  dsimp only
  split
  · exact ite (clearBandValid <| failOpenHop refl) (failOpenHop refl)
  · exact failOpenHop refl

def Scope.openMissed : Scope := Scope.openWindow

theorem openMissed {c : ℕ} (h : Frame σ s t) (hw : Scope.openMissed.within σ = true := by decide) : Frame σ s (Machine.openMissed c t)
    := by
  refine h.lift hw ?_
  unfold Machine.openMissed
  split
  · exact ite (openWindow refl) refl
  · exact refl

def Scope.hopReadinessTestS : Scope := join [Scope.openMissed, Scope.failReady, Scope.setCore]

theorem hopReadinessTestS {c : ℕ} (h : Frame σ s t) (hw : Scope.hopReadinessTestS.within σ = true := by decide) : Frame σ s
    (Machine.hopReadinessTestS c t) := by
  refine h.lift hw ?_
  unfold Machine.hopReadinessTestS
  dsimp only
  split
  · split
    · split
      · exact failReady <| openMissed refl
      · exact setCore <| openMissed refl
    · exact openMissed refl
  · exact openMissed refl

def Scope.hopSucceeds : Scope := join [ofRegs [.HOP_STAT, .HOP_CNT], Scope.setCore]

theorem hopSucceeds {c ctx : ℕ} (h : Frame σ s t) (hw : Scope.hopSucceeds.within σ = true := by decide) : Frame σ s (Machine.hopSucceeds
    c ctx t) := by
  refine h.lift hw ?_
  unfold Machine.hopSucceeds
  exact setCore <| put <| bump refl

def Scope.hopLands : Scope := join [ofParts [.wide], ofRegs [.HOP_STAT], Scope.portsLine, Scope.refreshPorts, Scope.closeLoops,
    Scope.setLastPlace, Scope.raise, Scope.hopSucceeds, Scope.setHalf]

theorem hopLands {c ctx : ℕ} {ws : List Word} {at_ : ℕ} (h : Frame σ s t) (hw : Scope.hopLands.within σ = true := by decide) : Frame σ s
    (Machine.hopLands c ctx ws at_ t) := by
  refine h.lift hw ?_
  unfold Machine.hopLands
  exact portsLine <| refreshPorts <| closeLoops <| setLastPlace <| when (fun h => put h) <| put <| when (fun h => setHalf h) <| setWide <|
      raise <| hopSucceeds refl

def Scope.outgoingOf : Scope := Scope.outgoing

theorem outgoingOf {ps : List ℕ} {c k ts : ℕ} (h : Frame σ s t) (hw : Scope.outgoingOf.within σ = true := by decide) :
    Frame σ s (Machine.outgoingOf ps c k ts t).2 := by
  suffices core : ∀ {s}, Frame Scope.outgoingOf s t → Frame Scope.outgoingOf s (Machine.outgoingOf ps c k ts t).2 from h.lift hw (core
      refl)
  intro s h
  exact List.foldlRecOn (motive := fun r : List (ℕ × Pattern) × State => Frame Scope.outgoingOf s r.2) ps _ h fun _ hr p _ =>
    outgoing (p := p) (c := c) (k := k) (ts := ts) hr

def Scope.outgoingAll : Scope := Scope.outgoingOf

theorem outgoingAll {c k ts : ℕ} (h : Frame σ s t) (hw : Scope.outgoingAll.within σ = true := by decide) : Frame σ s
    (Machine.outgoingAll c k ts t).2 := by
  refine h.lift hw ?_
  unfold Machine.outgoingAll
  exact outgoingOf refl

def Scope.incomingAll : Scope := Scope.incoming

theorem incomingAll {c k ts : ℕ} {outs : List (ℕ × Pattern)} (h : Frame σ s t) (hw : Scope.incomingAll.within σ = true := by decide) :
    Frame σ s (Machine.incomingAll c k ts outs t) := by
  refine h.lift hw ?_
  unfold Machine.incomingAll
  exact forList (fun _ _ h => incoming h) refl

def Scope.switchNow : Scope := join [ofRegs [.CORE_STAT], Scope.outgoingAll, Scope.incomingAll, Scope.applyEntries, Scope.refreshOos,
    Scope.setHalf, Scope.closeWindow, Scope.portIncoming, Scope.trimMotionStart, Scope.hopLands]

theorem switchNow {c ctx : ℕ} {ws : List Word} {r : HopRun} (h : Frame σ s t) (hw : Scope.switchNow.within σ = true := by decide) :
    Frame σ s (Machine.switchNow c ctx ws r t) := by
  refine h.lift hw ?_
  unfold Machine.switchNow
  exact forList (fun _ _ h => trimMotionStart h) <| hopLands <| when (fun h => forList (fun _ _ h => portIncoming h) h) <| incomingAll <|
      applyEntries <| refreshOos <| setHalf <| put <| closeWindow <| outgoingAll refl

def Scope.switchDue : Scope := join [Scope.takeHop, Scope.failReady, Scope.beforeCeil, Scope.switchNow, Scope.failHop, Scope.closeWindow]

theorem switchDue {c : ℕ} (h : Frame σ s t) (hw : Scope.switchDue.within σ = true := by decide) : Frame σ s (Machine.switchDue c t) := by
  refine h.lift hw ?_
  unfold Machine.switchDue
  split
  · exact refl
  · split
    · exact refl
    · split
      · exact takeHop refl
      · split
        · exact ite (failReady <| takeHop refl) (ite (failReady <| takeHop refl) (ite (switchNow <| takeHop refl) (failHop <|
              closeWindow <| takeHop refl)))
        · exact refl

def Scope.hopSwitchS : Scope := join [Scope.switchDue, Scope.openMissed]

theorem hopSwitchS {c : ℕ} (h : Frame σ s t) (hw : Scope.hopSwitchS.within σ = true := by decide) : Frame σ s (Machine.hopSwitchS c t)
    := by
  refine h.lift hw ?_
  unfold Machine.hopSwitchS
  dsimp only
  split
  · exact refl
  · exact ite refl (switchDue <| openMissed refl)

def Scope.loadTimed : Scope := join [Scope.beforeCeil, Scope.refuseWord, Scope.applyWord]

theorem loadTimed {c k : ℕ} {w : DivWord} {divOf : ℕ → ℕ} (h : Frame σ s t) (hw : Scope.loadTimed.within σ = true := by decide) : Frame
    σ s (Machine.loadTimed c k w divOf t).2 := by
  refine h.lift hw ?_
  unfold Machine.loadTimed
  split
  · exact refuseWord refl
  · exact applyWord refl

def Scope.divsAfter : Scope := Scope.loadTimedWord

theorem divsAfter {n : ℕ} (h : Frame σ s t) (hw : Scope.divsAfter.within σ = true := by decide) : Frame σ s (t.divsAfter n) := by
  refine h.lift hw ?_
  unfold State.divsAfter
  exact forList (fun _ _ h => (by
    split
    · exact ite (loadTimedWord h) h
    · exact h)) refl

def Scope.hopInplaceS : Scope := join [Scope.takeHop, Scope.failHop, Scope.outgoingOf, Scope.setHalf, Scope.loadTimed, Scope.portsLine,
    Scope.refreshPorts, Scope.closeLoops, Scope.hopSucceeds, Scope.incomingAll, Scope.applyEntries, Scope.halfPhase]

theorem hopInplaceS {c : ℕ} (h : Frame σ s t) (hw : Scope.hopInplaceS.within σ = true := by decide) : Frame σ s (Machine.hopInplaceS c
    t) := by
  refine h.lift hw ?_
  unfold Machine.hopInplaceS
  dsimp only
  split
  · exact refl
  · split
    · exact refl
    · exact ite refl (ite (takeHop refl) (ite (failHop <| takeHop refl) (ite (failHop <| takeHop refl) (ite (failHop <| takeHop refl)
          (ite (portsLine <| refreshPorts <| closeLoops <| hopSucceeds <| incomingAll <| applyEntries <| when (fun h => setHalf h) <|
          loadTimed <| outgoingOf <| setHalf <| takeHop refl) (failHop <| loadTimed <| outgoingOf <| setHalf <| takeHop refl))))))

def Scope.enterRelock : Scope := join [Scope.enterHold, Scope.beforeCeil, Scope.setPort]

theorem enterRelock {c : ℕ} {w : DivWord} {p : ℕ} (h : Frame σ s t) (hw : Scope.enterRelock.within σ = true := by decide) : Frame σ s
    (Machine.enterRelock c w p t) := by
  refine h.lift hw ?_
  unfold Machine.enterRelock
  exact ite refl (enterHold <| setPort refl)

def Scope.leaveRelock : Scope := join [Scope.incomingAll, Scope.freshWord, Scope.setPortState]

theorem leaveRelock {c : ℕ} {outs : List (ℕ × Pattern)} (h : Frame σ s t) (hw : Scope.leaveRelock.within σ = true := by decide) : Frame
    σ s (Machine.leaveRelock c outs t) := by
  refine h.lift hw ?_
  unfold Machine.leaveRelock
  exact forList (fun _ _ h => ite (setPortState h) h) <| incomingAll <| forList (fun _ _ h => freshWord h) refl

def Scope.leaveUnmoved : Scope := join [Scope.outgoingAll, Scope.leaveRelock]

theorem leaveUnmoved {c : ℕ} (h : Frame σ s t) (hw : Scope.leaveUnmoved.within σ = true := by decide) : Frame σ s (Machine.leaveUnmoved
    c t) := by
  refine h.lift hw ?_
  unfold Machine.leaveUnmoved
  exact leaveRelock <| outgoingAll refl

def Scope.relockDrops : Scope := join [Scope.commitBusy, Scope.dropPending]

theorem relockDrops {c k : ℕ} (h : Frame σ s t) (hw : Scope.relockDrops.within σ = true := by decide) : Frame σ s (Machine.relockDrops c
    k t) := by
  refine h.lift hw ?_
  unfold Machine.relockDrops
  exact ite (commitBusy <| dropPending refl) refl

def Scope.relockStartS : Scope := join [ofRegs [.HOP_STAT], Scope.holdBusy, Scope.takeHop, Scope.failHop, Scope.refreshPorts,
    Scope.closeLoops, Scope.relockDrops, Scope.setCore, Scope.enterRelock]

theorem relockStartS {c : ℕ} (h : Frame σ s t) (hw : Scope.relockStartS.within σ = true := by decide) : Frame σ s (Machine.relockStartS
    c t) := by
  refine h.lift hw ?_
  unfold Machine.relockStartS
  dsimp only
  split
  · exact refl
  · split
    · exact refl
    · exact ite refl (ite (holdBusy <| takeHop refl) (ite (failHop <| holdBusy <| takeHop refl) (ite (failHop <| holdBusy <| takeHop
          refl) (ite (failHop <| holdBusy <| takeHop refl) (refreshPorts <| closeLoops <| forList (fun _ _ h => enterRelock h) <|
          relockDrops <| put <| setCore <| holdBusy <| takeHop refl)))))

def Scope.relockWordLoadS : Scope := join [ofRegs [.HOP_CNT2], Scope.loadWord, Scope.setHalf, Scope.refreshPorts, Scope.portsLine,
    Scope.setCore, Scope.leaveUnmoved, Scope.failHop, Scope.endRelock]

theorem relockWordLoadS {c : ℕ} (h : Frame σ s t) (hw : Scope.relockWordLoadS.within σ = true := by decide) : Frame σ s
    (Machine.relockWordLoadS c t) := by
  refine h.lift hw ?_
  unfold Machine.relockWordLoadS
  split
  · split
    · exact ite refl (ite (refreshPorts <| portsLine <| setCore <| when (fun h => bump h) <| loadWord <| setHalf refl) (refreshPorts <|
          leaveUnmoved <| failHop <| endRelock <| loadWord <| setHalf refl))
    · exact refl
  · exact refl

def Scope.relockReleaseS : Scope := join [ofRegs [.HOP_CNT2], Scope.outgoingAll, Scope.beforeCeil, Scope.placeHalf, Scope.hopLands,
    Scope.leaveRelock, Scope.applyEntries, Scope.endRelock, Scope.portIncoming, Scope.setCore]

theorem relockReleaseS {c : ℕ} {rot : Word} {resid : ℤ} (h : Frame σ s t) (hw : Scope.relockReleaseS.within σ = true := by decide) :
    Frame σ s (Machine.relockReleaseS c rot resid t) := by
  refine h.lift hw ?_
  unfold Machine.relockReleaseS
  split
  · split
    · exact ite (ite (hopLands <| when (fun h => forList (fun _ _ h => portIncoming h) h) <| bump <| leaveRelock <| applyEntries <|
          endRelock <| when (fun h => placeHalf h) <| outgoingAll refl) (setCore <| when (fun h => placeHalf h) <| outgoingAll refl))
          refl
    · exact refl
  · exact refl

def Scope.relockTimeoutS : Scope := join [Scope.lineLost, Scope.lockLossPolicy, Scope.failHop, Scope.endRelock, Scope.lockWithdrawn,
    Scope.raise]

theorem relockTimeoutS {c : ℕ} (h : Frame σ s t) (hw : Scope.relockTimeoutS.within σ = true := by decide) : Frame σ s
    (Machine.relockTimeoutS c t) := by
  refine h.lift hw ?_
  unfold Machine.relockTimeoutS
  split
  · exact ite (lineLost <| lockLossPolicy <| failHop <| ite (lockWithdrawn <| endRelock refl) (raise <| endRelock refl)) refl
  · exact refl

def Scope.bandWriteBack : Scope := join [ofParts [.mem], ofRegs [.HOP_STAT], Scope.readCtxWords]

theorem bandWriteBack {c code : ℕ} {a : Admitted} (h : Frame σ s t) (hw : Scope.bandWriteBack.within σ = true := by decide) : Frame σ s
    (Machine.bandWriteBack c code a t) := by
  refine h.lift hw ?_
  unfold Machine.bandWriteBack
  split
  · exact refl
  · exact ite refl (ite (put refl) (ite (put <| readCtxWords refl) (setWord <| setWord <| readCtxWords refl)))

def Scope.bandStep : Scope := join [Scope.searchFound, Scope.searchFailed, Scope.setHalf, ofParts [.freeCtr]]

theorem bandStep {c k count span : ℕ} (h : Frame σ s t) (hw : Scope.bandStep.within σ = true := by decide) :
    Frame σ s (Machine.bandStep c k count span t).1 := by
  refine h.lift hw ?_
  unfold Machine.bandStep
  split
  · exact refl
  · split
    · dsimp only
      split
      · exact searchFound <| withFreeCtr refl
      · exact searchFailed <| withFreeCtr refl
      · exact setHalf <| withFreeCtr refl
    · exact refl

def Scope.bandSearchStepS : Scope := join [Scope.bandStep, Scope.setCore, Scope.bandWriteBack]

theorem bandSearchStepS {c k count span : ℕ} (h : Frame σ s t) (hw : Scope.bandSearchStepS.within σ = true := by decide) :
    Frame σ s (Machine.bandSearchStepS c k count span t) := by
  refine h.lift hw ?_
  unfold Machine.bandSearchStepS
  have hstep : Frame Scope.bandSearchStepS t (Machine.bandStep c k count span t).1 := bandStep refl
  split
  next u res heq =>
  rw [heq] at hstep
  split
  · exact hstep
  · refine forBelow (fun n v hv => ?_) ?_
    · split
      · exact ite (setCore hv) hv
      · exact hv
    · dsimp only
      split
      · exact ite (ite (bandWriteBack hstep) (setCore hstep)) hstep
      · exact ite hstep (ite (bandWriteBack hstep) (setCore hstep))
      · exact hstep

def Scope.halfWordApplyS : Scope := join [Scope.hopLoad, Scope.commitBusy, Scope.dropPending, Scope.applyPending, Scope.refreshPorts,
    Scope.portsLine, Scope.closeLoops]

theorem halfWordApplyS {c k : ℕ} (h : Frame σ s t) (hw : Scope.halfWordApplyS.within σ = true := by decide) : Frame σ s
    (Machine.halfWordApplyS c k t) := by
  refine h.lift hw ?_
  unfold Machine.halfWordApplyS
  dsimp only
  split
  · exact refl
  · split
    · exact hopLoad refl
    · exact ite (commitBusy <| dropPending refl) (ite refl (ite (applyPending refl) (refreshPorts <| portsLine <| closeLoops <|
          applyPending refl)))

def Scope.failoverFails : Scope := join [ofRegs [.LG_STAT], Scope.refreshPorts, Scope.failoverElse, Scope.setCore]

theorem failoverFails {c : ℕ} {f : FailoverRun} (h : Frame σ s t) (hw : Scope.failoverFails.within σ = true := by decide) : Frame σ s
    (Machine.failoverFails c f t) := by
  refine h.lift hw ?_
  unfold Machine.failoverFails
  exact refreshPorts <| forList (fun _ _ h => failoverElse h) <| (by
    split
    · exact put <| setCore refl
    · exact setCore refl)

def Scope.failoverSpareLoadS : Scope := join [ofRegs [.PORT_STAT], Scope.loadNarrow, Scope.setCore, Scope.failoverFails]

theorem failoverSpareLoadS {c : ℕ} (h : Frame σ s t) (hw : Scope.failoverSpareLoadS.within σ = true := by decide) : Frame σ s
    (Machine.failoverSpareLoadS c t) := by
  refine h.lift hw ?_
  unfold Machine.failoverSpareLoadS
  split
  · exact ite refl (ite (setCore <| loadNarrow <| when (fun h => forList (fun _ _ h => put h) h) refl) (failoverFails <| loadNarrow <|
        when (fun h => forList (fun _ _ h => put h) h) refl))
  · exact refl

def Scope.failoverSearchDoneS : Scope := Scope.failoverFails

theorem failoverSearchDoneS {c : ℕ} (h : Frame σ s t) (hw : Scope.failoverSearchDoneS.within σ = true := by decide) : Frame σ s
    (Machine.failoverSearchDoneS c t) := by
  refine h.lift hw ?_
  unfold Machine.failoverSearchDoneS
  split
  · exact ite (failoverFails refl) refl
  · exact refl

def Scope.failoverPrelockDoneS : Scope := Scope.setCore

theorem failoverPrelockDoneS {c : ℕ} (h : Frame σ s t) (hw : Scope.failoverPrelockDoneS.within σ = true := by decide) : Frame σ s
    (Machine.failoverPrelockDoneS c t) := by
  refine h.lift hw ?_
  unfold Machine.failoverPrelockDoneS
  split
  · exact ite (setCore refl) refl
  · exact refl

def Scope.failoverPort : Scope := join [ofRegs [.PORT_STAT], Scope.setPortState, Scope.squelchPolicy]

theorem failoverPort {sp : ℕ} {onLine : Bool} {p : ℕ} (h : Frame σ s t) (hw : Scope.failoverPort.within σ = true := by decide) : Frame σ
    s (Machine.failoverPort sp onLine p t) := by
  refine h.lift hw ?_
  unfold Machine.failoverPort
  exact ite (setPortState <| when (fun h => put h) <| put refl) (ite (put <| setPortState <| when (fun h => put h) <| put refl)
      (squelchPolicy <| put <| when (fun h => put h) <| put refl))

def Scope.failoverPlacedS : Scope := join [ofRegs [.HOP_STAT, .CORE_STAT, .LG_CNT, .LG_STAT], Scope.refreshPorts, Scope.releaseSpare,
    Scope.failoverPort, Scope.refreshOos, Scope.setLastPlace, Scope.setHalf, Scope.placeHalf, Scope.setCore]

theorem failoverPlacedS {c : ℕ} {rot : Word} {resid : ℤ} (h : Frame σ s t) (hw : Scope.failoverPlacedS.within σ = true := by decide) :
    Frame σ s (Machine.failoverPlacedS c rot resid t) := by
  refine h.lift hw ?_
  unfold Machine.failoverPlacedS
  split
  · split
    · exact refreshPorts <| refreshPorts <| releaseSpare <| forList (fun _ _ h => failoverPort h) <| refreshOos <| (by
        split
        · exact ite (setLastPlace <| put <| setHalf <| put <| placeHalf <| setCore refl) (bump <| put <| setLastPlace <| put <| setHalf <|
              put <| placeHalf <| setCore refl)
        · exact setLastPlace <| put <| setHalf <| put <| placeHalf <| setCore refl)
    · exact refl
  · exact refl

def Scope.setChan : Scope := ofParts [.chans]

theorem setChan {k : ℕ} {x : Chan} (h : Frame σ s t) (hw : Scope.setChan.within σ = true := by decide) : Frame σ s (t.setChan k x) := by
  refine h.lift hw ?_
  unfold State.setChan
  exact withChans refl

def Scope.editItem : Scope := Scope.setQueue

theorem editItem {q n : ℕ} {f : Item → Item} (h : Frame σ s t) (hw : Scope.editItem.within σ = true := by decide) : Frame σ s
    (Machine.editItem q n f t) := by
  refine h.lift hw ?_
  unfold Machine.editItem
  exact setQueue refl

def Scope.addWait : Scope := Scope.editItem

theorem addWait {k : ℕ} {r : ℕ × ℕ × ℕ} (h : Frame σ s t) (hw : Scope.addWait.within σ = true := by decide) : Frame σ s (Machine.addWait
    k r t) := by
  refine h.lift hw ?_
  unfold Machine.addWait
  exact editItem refl

def Scope.endWait : Scope := Scope.editItem

theorem endWait {k : ℕ} {r : ℕ × ℕ × ℕ} (h : Frame σ s t) (hw : Scope.endWait.within σ = true := by decide) : Frame σ s (Machine.endWait
    k r t) := by
  refine h.lift hw ?_
  unfold Machine.endWait
  exact editItem refl

def Scope.markStall : Scope := join [ofRegs [.TS_STAT], Scope.raise, Scope.setChan]

theorem markStall {k : ℕ} (h : Frame σ s t) (hw : Scope.markStall.within σ = true := by decide) : Frame σ s (Machine.markStall k t) := by
  refine h.lift hw ?_
  unfold Machine.markStall
  exact ite (tsSet refl) (raise <| setChan <| tsSet refl)

def Scope.pushRec : Scope := join [ofRegs [.TS_CNT3], Scope.markStall, Scope.setChan]

theorem pushRec {k : ℕ} {r : Rec} (h : Frame σ s t) (hw : Scope.pushRec.within σ = true := by decide) : Frame σ s (Machine.pushRec k r
    t) := by
  refine h.lift hw ?_
  unfold Machine.pushRec
  exact ite (setChan <| when (fun h => markStall h) refl) (tsBump <| setChan <| when (fun h => markStall h) refl)

def Scope.pushEnd : Scope := Scope.setChan

theorem pushEnd {k : ℕ} {r : Rec} (h : Frame σ s t) (hw : Scope.pushEnd.within σ = true := by decide) : Frame σ s (Machine.pushEnd k r
    t) := by
  refine h.lift hw ?_
  unfold Machine.pushEnd
  exact ite (setChan refl) (setChan refl)

def Scope.afterRecord : Scope := join [Scope.endWait, Scope.setChan]

theorem afterRecord {k : ℕ} {rest : List Rec} {r : Rec} (h : Frame σ s t) (hw : Scope.afterRecord.within σ = true := by decide) :
    Frame σ s (Machine.afterRecord k rest r t) := by
  suffices core : ∀ {s}, Frame Scope.afterRecord s t → Frame Scope.afterRecord s (Machine.afterRecord k rest r t) from h.lift hw (core
      refl)
  intro s h
  unfold Machine.afterRecord
  dsimp only
  split
  · cases r.item with
    | none => exact setChan h
    | some i => exact endWait <| setChan h
  · exact setChan h

def Scope.recordStoreS : Scope := join [ofParts [.ringSeq, .mem, .badWords, .ecc], ofRegs [.TS_CNT3, .RING_STAT, .RING_WR],
    Scope.markStall, Scope.afterRecord, Scope.freshRecord]

theorem recordStoreS {k : ℕ} (h : Frame σ s t) (hw : Scope.recordStoreS.within σ = true := by decide) : Frame σ s (Machine.recordStoreS
    k t) := by
  refine h.lift hw ?_
  unfold Machine.recordStoreS
  split
  · exact refl
  · exact ite refl (ite (markStall refl) (ite (afterRecord <| tsBump refl) (afterRecord <| when (fun h => put h) <| bump <| put <|
        withRingSeq <| freshRecord <| store refl)))

def Scope.hookRingCfg : Scope := join [ofParts [.ringSeq], ofRegs [.RING_STAT, .RING_RD, .RING_WR]]

theorem hookRingCfg {r : ℕ} {old new : Word} (h : Frame σ s t) (hw : Scope.hookRingCfg.within σ = true := by decide) : Frame σ s
    (Machine.hookRingCfg r old new t).2 := by
  refine h.lift hw ?_
  unfold Machine.hookRingCfg
  exact iteSnd (put refl) (iteSnd (withRingSeq <| put <| put <| put refl) refl)

def Scope.ringRelS : Scope := ofRegs [.RING_STAT, .RING_RD]

theorem ringRelS {r : ℕ} {v : Word} (h : Frame σ s t) (hw : Scope.ringRelS.within σ = true := by decide) : Frame σ s (Machine.ringRelS r
    v t) := by
  refine h.lift hw ?_
  unfold Machine.ringRelS
  exact ite (put refl) (put <| put refl)

def Scope.skewAgain : Scope := Scope.setPort

theorem skewAgain {k : ℕ} (h : Frame σ s t) (hw : Scope.skewAgain.within σ = true := by decide) : Frame σ s (Machine.skewAgain k t) := by
  refine h.lift hw ?_
  unfold Machine.skewAgain
  exact ite (setPort refl) refl

def Scope.cdState : Scope := ofRegs [.CD_STAT]

theorem cdState {k v : ℕ} (h : Frame σ s t) (hw : Scope.cdState.within σ = true := by decide) : Frame σ s (Machine.cdState k v t) := by
  refine h.lift hw ?_
  unfold Machine.cdState
  exact put refl

def Scope.cdInstall : Scope := join [ofRegs [.TS_STAT, .CD_STAT], Scope.setPort, Scope.cdState, Scope.setChan]

theorem cdInstall {k : ℕ} {t1 : Option (List ℕ)} (h : Frame σ s t) (hw : Scope.cdInstall.within σ = true := by decide) : Frame σ s
    (Machine.cdInstall k t1 t) := by
  refine h.lift hw ?_
  unfold Machine.cdInstall
  exact ite (setPort <| tsSet <| put <| cdState <| setChan refl) (tsSet <| put <| cdState <| setChan refl)

def Scope.reloadTable : Scope := join [Scope.setChan, Scope.cdInstall]

theorem reloadTable {k : ℕ} {t1 : Option (List ℕ)} (h : Frame σ s t) (hw : Scope.reloadTable.within σ = true := by decide) : Frame σ s
    (Machine.reloadTable k t1 t) := by
  refine h.lift hw ?_
  unfold Machine.reloadTable
  exact ite refl (ite (setChan refl) (cdInstall refl))

def Scope.cdInstallDue : Scope := Scope.cdInstall

theorem cdInstallDue {k : ℕ} (h : Frame σ s t) (hw : Scope.cdInstallDue.within σ = true := by decide) : Frame σ s (Machine.cdInstallDue
    k t) := by
  refine h.lift hw ?_
  unfold Machine.cdInstallDue
  split
  · exact ite refl (cdInstall refl)
  · exact refl

def Scope.measEnd : Scope := join [ofParts [.freeCtr], ofRegs [.TS_STAT], Scope.pushEnd, Scope.cdInstallDue, Scope.skewAgain,
    Scope.setChan]

theorem measEnd {k code endTs : ℕ} (h : Frame σ s t) (hw : Scope.measEnd.within σ = true := by decide) : Frame σ s (Machine.measEnd k
    code endTs t) := by
  refine h.lift hw ?_
  unfold Machine.measEnd
  split
  · exact refl
  · exact ite (pushEnd <| cdInstallDue <| skewAgain <| setChan <| iteSnd (withFreeCtr <| tsSet <| tsSet <| tsSet refl) (tsSet <| tsSet <|
        tsSet refl)) (cdInstallDue <| skewAgain <| setChan <| iteSnd (withFreeCtr <| tsSet <| tsSet <| tsSet refl) (tsSet <| tsSet <|
        tsSet refl))

def Scope.measDoneS : Scope := join [ofParts [.mem, .badWords, .ecc], ofRegs [.TS_STAT], Scope.raise, Scope.setChan]

theorem measDoneS {k : ℕ} (h : Frame σ s t) (hw : Scope.measDoneS.within σ = true := by decide) : Frame σ s (Machine.measDoneS k t) := by
  refine h.lift hw ?_
  unfold Machine.measDoneS
  split
  · exact refl
  · exact ite refl (raise <| tsSet <| ite (setChan refl) (store <| setChan refl))

def Scope.sampleDone : Scope := join [ofRegs [.TS_LIVE], Scope.measEnd, Scope.setChan, Scope.pushRec]

theorem sampleDone {k : ℕ} {m : Meas} {stamp : ℕ} {r : Rec} (h : Frame σ s t) (hw : Scope.sampleDone.within σ = true := by decide) :
    Frame σ s (Machine.sampleDone k m stamp r t) := by
  refine h.lift hw ?_
  unfold Machine.sampleDone
  exact ite (measEnd <| when (fun h => pushRec h) <| tsSet <| setChan refl) (ite (measEnd <| when (fun h => pushRec h) <| tsSet <|
      setChan refl) (when (fun h => pushRec h) <| tsSet <| setChan refl))

def Scope.takeSample : Scope := join [ofRegs [.TS_CNT4, .TS_CNT2], Scope.setChan, Scope.sampleDone]

theorem takeSample {k : ℕ} {m : Meas} {x : ℤ} {un : Bool} {kind stamp : ℕ} (h : Frame σ s t) (hw : Scope.takeSample.within σ = true
    := by decide) : Frame σ s (Machine.takeSample k m x un kind stamp t) := by
  refine h.lift hw ?_
  unfold Machine.takeSample
  exact ite (tsBump <| setChan refl) (sampleDone <| when (fun h => tsBump h) refl)

def Scope.takePair : Scope := Scope.takeSample

theorem takePair {k : ℕ} {m : Meas} {tStart tStop stamp : ℕ} (h : Frame σ s t) (hw : Scope.takePair.within σ = true := by decide) :
    Frame σ s (Machine.takePair k m tStart tStop stamp t) := by
  refine h.lift hw ?_
  unfold Machine.takePair
  exact takeSample refl

def Scope.startEdge : Scope := join [ofRegs [.TS_CNT1, .TS_CNT2], Scope.takePair, Scope.setChan]

theorem startEdge {k : ℕ} {m : Meas} {t1 : ℕ} (h : Frame σ s t) (hw : Scope.startEdge.within σ = true := by decide) : Frame σ s
    (Machine.startEdge k m t1 t) := by
  refine h.lift hw ?_
  unfold Machine.startEdge
  split
  · exact ite (takePair refl) (tsBump <| setChan refl)
  · exact setChan <| when (fun h => tsBump h) refl

def Scope.stopEdge : Scope := join [ofRegs [.TS_CNT1], Scope.takePair, Scope.setChan]

theorem stopEdge {k : ℕ} {m : Meas} {t1 : ℕ} (h : Frame σ s t) (hw : Scope.stopEdge.within σ = true := by decide) : Frame σ s
    (Machine.stopEdge k m t1 t) := by
  refine h.lift hw ?_
  unfold Machine.stopEdge
  split
  · exact takePair refl
  · exact ite (tsBump <| setChan refl) (setChan <| when (fun h => tsBump h) refl)

def Scope.useEdge : Scope := join [Scope.setChan, Scope.sampleDone, Scope.takeSample, Scope.stopEdge, Scope.startEdge]

theorem useEdge {k : ℕ} {own : Bool} {e : Edge} (h : Frame σ s t) (hw : Scope.useEdge.within σ = true := by decide) : Frame σ s
    (Machine.useEdge k own e t) := by
  refine h.lift hw ?_
  unfold Machine.useEdge
  split
  · exact refl
  · dsimp only
    split
    · exact setChan refl
    · split
      · exact ite (sampleDone <| setChan refl) (setChan refl)
      · split
        · exact ite (ite (setChan <| setChan refl) (takeSample <| setChan refl)) (setChan refl)
        · split
          · split
            · exact startEdge <| stopEdge <| setChan <| setChan refl
            · exact stopEdge <| setChan <| setChan refl
          · exact ite (startEdge <| setChan <| setChan refl) (ite (stopEdge <| setChan <| setChan refl) (setChan <| setChan refl))

def Scope.takeOne : Scope := join [Scope.useEdge, Scope.setChan]

theorem takeOne {k : ℕ} (h : Frame σ s t) (hw : Scope.takeOne.within σ = true := by decide) : Frame σ s (Machine.takeOne k t) := by
  refine h.lift hw ?_
  unfold Machine.takeOne
  dsimp only
  split
  · exact refl
  · exact useEdge <| setChan refl
  · exact useEdge <| setChan refl
  · exact ite (useEdge <| setChan refl) (useEdge <| setChan refl)

def Scope.sampleTakeS : Scope := Scope.takeOne

theorem sampleTakeS {k : ℕ} (h : Frame σ s t) (hw : Scope.sampleTakeS.within σ = true := by decide) : Frame σ s (Machine.sampleTakeS k
    t) := by
  refine h.lift hw ?_
  unfold Machine.sampleTakeS
  exact ite (takeOne refl) refl

def Scope.drain : Scope := Scope.takeOne

theorem drain {k n : ℕ} (h : Frame σ s t) (hw : Scope.drain.within σ = true := by decide) : Frame σ s (Machine.drain k n t) := by
  induction n generalizing t with
  | zero => exact h
  | succ n ih => exact ite (ih (takeOne h hw)) h

def Scope.takeThose : Scope := join [Scope.setChan, Scope.drain]

theorem takeThose {k : ℕ} {p : Edge → Bool} {f : State → State} (hf : ∀ {t}, Frame σ s t → Frame σ s (f t)) (h : Frame σ s t)
    (hw : Scope.takeThose.within σ = true := by decide) : Frame σ s (Machine.takeThose k p f t) :=
  have q {a : Scope} (ha : a.within Scope.takeThose = true := by decide) : a.within σ = true := Scope.within_trans ha hw
  setChan (hf <| drain (setChan h q) q) q

def Scope.endNow : Scope := join [Scope.takeThose, Scope.measEnd]

theorem endNow {k code endTs : ℕ} (h : Frame σ s t) (hw : Scope.endNow.within σ = true := by decide) :
    Frame σ s (Machine.endNow k code endTs t) := by
  suffices core : ∀ {s}, Frame Scope.endNow s t → Frame Scope.endNow s (Machine.endNow k code endTs t) from h.lift hw (core refl)
  intro s h
  exact ite (takeThose id h) (ite (takeThose id h) (takeThose measEnd h))

def Scope.endAt : Scope := Scope.endNow

theorem endAt {k code endTs : ℕ} (h : Frame σ s t) (hw : Scope.endAt.within σ = true := by decide) : Frame σ s (Machine.endAt k code
    endTs t) := by
  refine h.lift hw ?_
  unfold Machine.endAt
  split
  · exact refl
  · exact endNow refl

def Scope.cdLeave : Scope := join [ofRegs [.TS_STAT], Scope.skewAgain, Scope.setChan]

theorem cdLeave {k : ℕ} (h : Frame σ s t) (hw : Scope.cdLeave.within σ = true := by decide) : Frame σ s (Machine.cdLeave k t) := by
  refine h.lift hw ?_
  unfold Machine.cdLeave
  exact skewAgain <| tsSet <| setChan refl

def Scope.cdFail : Scope := join [Scope.refreshAllConv, Scope.cdState, Scope.calFail, Scope.cdLeave]

theorem cdFail {k reason : ℕ} {requested : Bool} (h : Frame σ s t) (hw : Scope.cdFail.within σ = true := by decide) : Frame σ s
    (Machine.cdFail k reason requested t) := by
  refine h.lift hw ?_
  unfold Machine.cdFail
  exact refreshAllConv <| cdState <| calFail <| cdLeave refl

def Scope.cdAbandon : Scope := join [Scope.cdFail, Scope.refreshAllConv, Scope.cdState, Scope.cdLeave]

theorem cdAbandon {k : ℕ} (h : Frame σ s t) (hw : Scope.cdAbandon.within σ = true := by decide) : Frame σ s (Machine.cdAbandon k t) := by
  refine h.lift hw ?_
  unfold Machine.cdAbandon
  split
  · exact ite (cdFail refl) (refreshAllConv <| cdState <| cdLeave refl)
  · exact refl

def Scope.refuseArm : Scope := join [ofRegs [.TS_ERR], Scope.logEvent, Scope.raise]

theorem refuseArm {k bit : ℕ} (h : Frame σ s t) (hw : Scope.refuseArm.within σ = true := by decide) : Frame σ s (Machine.refuseArm k bit
    t) := by
  refine h.lift hw ?_
  unfold Machine.refuseArm
  exact logEvent <| raise <| tsSet <| put refl (show (ofRegs [.TS_ERR]).within _ = true by decide)

def Scope.endKnown : Scope := Scope.endAt

theorem endKnown {k : ℕ} (h : Frame σ s t) (hw : Scope.endKnown.within σ = true := by decide) : Frame σ s (Machine.endKnown k t) := by
  refine h.lift hw ?_
  unfold Machine.endKnown
  split
  · exact refl
  · split
    · exact endAt refl
    · exact endAt refl
    · exact refl

def Scope.armChan : Scope := join [ofRegs [.TS_LIVE, .TS_STAT], Scope.refuseArm, Scope.skewAgain, Scope.setChan, Scope.endKnown]

theorem armChan {k w n tmo ta : ℕ} {item : Option (ℕ × ℕ × ℕ)} (h : Frame σ s t) (hw : Scope.armChan.within σ = true := by decide) :
    Frame σ s (Machine.armChan k w n tmo ta item t).2 := by
  refine h.lift hw ?_
  unfold Machine.armChan
  split
  · exact refuseArm refl
  · exact skewAgain <| tsSet <| tsSet <| tsSet <| tsSet <| setChan <| when (fun h => endKnown h) refl

def Scope.hookTsCmd : Scope := Scope.setChan

theorem hookTsCmd {k : ℕ} {ones new : Word} (h : Frame σ s t) (hw : Scope.hookTsCmd.within σ = true := by decide) : Frame σ s
    (Machine.hookTsCmd k ones new t).2 := by
  refine h.lift hw ?_
  unfold Machine.hookTsCmd
  exact setChan refl

def Scope.regArm : Scope := join [ofRegs [.TS_CMD, .TS_ERR], Scope.setChan, Scope.discardFrozen, Scope.logEvent, Scope.armChan,
    Scope.cdAbandon]

theorem regArm {k : ℕ} (h : Frame σ s t) (hw : Scope.regArm.within σ = true := by decide) : Frame σ s (Machine.regArm k t) := by
  refine h.lift hw ?_
  unfold Machine.regArm
  split
  · exact refl
  · exact ite (discardFrozen <| tsSet <| setChan refl) (ite (logEvent <| tsSet <| tsSet <| tsSet <| setChan refl) (armChan <| ite
        (cdAbandon <| tsSet <| setChan refl) (tsSet <| setChan refl)))

def Scope.regDisarm : Scope := join [ofRegs [.TS_CMD], Scope.setChan, Scope.discardFrozen]

theorem regDisarm {k : ℕ} (h : Frame σ s t) (hw : Scope.regDisarm.within σ = true := by decide) : Frame σ s (Machine.regDisarm k t) := by
  refine h.lift hw ?_
  unfold Machine.regDisarm
  split
  · dsimp only
    split
    · exact tsSet <| setChan refl
    · exact ite (discardFrozen <| tsSet <| setChan refl) (setChan <| tsSet <| setChan refl)
  · exact refl

def Scope.chanBoundary : Scope := join [Scope.regDisarm, Scope.regArm, Scope.endKnown]

theorem chanBoundary (h : Frame σ s t) (hw : Scope.chanBoundary.within σ = true := by decide) : Frame σ s (Machine.chanBoundary t) := by
  refine h.lift hw ?_
  unfold Machine.chanBoundary
  exact forList (fun _ _ h => regDisarm <| regArm <| endKnown h) refl

def Scope.measTimeoutS : Scope := Scope.endAt

theorem measTimeoutS {k : ℕ} (h : Frame σ s t) (hw : Scope.measTimeoutS.within σ = true := by decide) : Frame σ s (Machine.measTimeoutS
    k t) := by
  refine h.lift hw ?_
  unfold Machine.measTimeoutS
  split
  · exact ite (endAt refl) refl
  · exact refl

def Scope.endTimebase : Scope := Scope.endAt

theorem endTimebase {n : ℕ} (h : Frame σ s t) (hw : Scope.endTimebase.within σ = true := by decide) : Frame σ s (Machine.endTimebase n
    t) := by
  refine h.lift hw ?_
  unfold Machine.endTimebase
  exact forList (fun _ _ h => endAt h) refl

def Scope.gateEdge : Scope := join [ofRegs [.TS_STAT], Scope.setChan]

theorem gateEdge {k stamp : ℕ} {fall : Bool} (h : Frame σ s t) (hw : Scope.gateEdge.within σ = true := by decide) : Frame σ s
    (Machine.gateEdge k stamp fall t) := by
  refine h.lift hw ?_
  unfold Machine.gateEdge
  split
  · exact refl
  · split
    · exact refl
    · dsimp only
      split
      · exact ite (tsSet <| setChan refl) refl
      · exact ite (setChan refl) refl

def Scope.acceptEdge : Scope := join [ofParts [.wide], Scope.setChan, Scope.raise, Scope.gateEdge]

theorem acceptEdge {k : ℕ} {fall : Bool} {pos stamp : ℕ} (h : Frame σ s t) (hw : Scope.acceptEdge.within σ = true := by decide) : Frame
    σ s (Machine.acceptEdge k fall pos stamp t) := by
  refine h.lift hw ?_
  unfold Machine.acceptEdge
  exact forList (fun _ _ h => gateEdge h) <| forList (fun _ _ h => setChan h) <| when (fun h => raise <| setWide h) <| setChan refl

def Scope.overrunEdge : Scope := join [ofRegs [.TS_CNT3, .TS_STAT], Scope.setChan]

theorem overrunEdge {k : ℕ} {full : Bool} (h : Frame σ s t) (hw : Scope.overrunEdge.within σ = true := by decide) : Frame σ s
    (Machine.overrunEdge k full t) := by
  refine h.lift hw ?_
  unfold Machine.overrunEdge
  exact setChan <| when (fun h => tsSet h) <| tsBump refl

def Scope.teaselEdgeS : Scope := join [ofRegs [.TS_CNT1], Scope.overrunEdge, Scope.acceptEdge]

theorem teaselEdgeS {k : ℕ} {fall : Bool} {frac : ℕ} (h : Frame σ s t) (hw : Scope.teaselEdgeS.within σ = true := by decide) : Frame σ s
    (Machine.teaselEdgeS k fall frac t) := by
  refine h.lift hw ?_
  unfold Machine.teaselEdgeS
  exact ite refl (ite (tsBump refl) (ite (overrunEdge refl) (ite (overrunEdge refl) (acceptEdge refl))))

def Scope.hookTsIn : Scope := ofRegs [.TS_ERR]

theorem hookTsIn {k : ℕ} {new : Word} (h : Frame σ s t) (hw : Scope.hookTsIn.within σ = true := by decide) : Frame σ s (Machine.hookTsIn
    k new t).2 := by
  refine h.lift hw ?_
  unfold Machine.hookTsIn
  exact iteSnd (tsSet <| tsSet refl) refl

def Scope.judged : Scope := Scope.editItem

theorem judged {a : Action} (h : Frame σ s t) (hw : Scope.judged.within σ = true := by decide) : Frame σ s (Machine.judged a t) := by
  refine h.lift hw ?_
  unfold Machine.judged
  exact editItem refl

def Scope.actionSendS : Scope := join [ofParts [.rel], Scope.judged, Scope.editItem, Scope.setChip]

theorem actionSendS {n q : ℕ} (h : Frame σ s t) (hw : Scope.actionSendS.within σ = true := by decide) : Frame σ s (Machine.actionSendS n
    q t) := by
  refine h.lift hw ?_
  unfold Machine.actionSendS
  split
  · exact refl
  · exact ite refl (ite (judged <| editItem <| withRel refl) (ite refl (setChip <| withRel refl)))

def Scope.setMark : Scope := Scope.setChip

theorem setMark {n q v : ℕ} (h : Frame σ s t) (hw : Scope.setMark.within σ = true := by decide) : Frame σ s (Machine.setMark n q v t) :=
    by
  refine h.lift hw ?_
  unfold Machine.setMark
  exact setChip refl

def Scope.abortAt : Scope := join [ofParts [.verdicts], Scope.judged, Scope.setChip, Scope.setMark]

theorem abortAt {n : ℕ} {a : Action} {status : ℕ} (h : Frame σ s t) (hw : Scope.abortAt.within σ = true := by decide) : Frame σ s
    (Machine.abortAt n a status t) := by
  refine h.lift hw ?_
  unfold Machine.abortAt
  exact judged <| withVerdicts <| setChip <| setMark refl

def Scope.lateReport : Scope := join [ofParts [.wide], ofRegs [.COMMIT_STAT], Scope.raise]

theorem lateReport {n : ℕ} (h : Frame σ s t) (hw : Scope.lateReport.within σ = true := by decide) : Frame σ s (Machine.lateReport n t)
    := by
  refine h.lift hw ?_
  unfold Machine.lateReport
  exact setWide <| raise <| put refl

def Scope.admitAction : Scope := join [Scope.cdAbandon, Scope.addWait, Scope.editItem, Scope.judged, Scope.refreshFifo, Scope.setChip,
    Scope.setMark]

theorem admitAction {n : ℕ} {b : Admitted} (h : Frame σ s t) (hw : Scope.admitAction.within σ = true := by decide) : Frame σ s
    (Machine.admitAction n b t) := by
  refine h.lift hw ?_
  unfold Machine.admitAction
  dsimp only
  split
  · exact cdAbandon <| ite (addWait <| editItem <| judged <| refreshFifo <| setChip <| setMark refl) (editItem <| judged <| refreshFifo <|
        setChip <| setMark refl)
  · exact editItem <| judged <| refreshFifo <| setChip <| setMark refl

def Scope.arriveHop : Scope := join [Scope.failHop, Scope.abortAt, Scope.lateReport, Scope.admitAction, Scope.editItem]

theorem arriveHop {n c : ℕ} {ws : List Word} {a : Action} (h : Frame σ s t) (hw : Scope.arriveHop.within σ = true := by decide) : Frame
    σ s (Machine.arriveHop n c ws a t) := by
  refine h.lift hw ?_
  unfold Machine.arriveHop
  exact ite (failHop <| abortAt <| lateReport refl) (ite (failHop <| abortAt <| when (fun h => lateReport h) refl) (admitAction <| when
      (fun h => editItem h) <| when (fun h => lateReport h) refl))

def Scope.arriveOther : Scope := join [Scope.admitAction, Scope.editItem, Scope.lateReport, Scope.abortAt]

theorem arriveOther {n : ℕ} {a : Action} (h : Frame σ s t) (hw : Scope.arriveOther.within σ = true := by decide) : Frame σ s
    (Machine.arriveOther n a t) := by
  refine h.lift hw ?_
  unfold Machine.arriveOther
  exact ite (admitAction refl) (ite (admitAction <| editItem <| lateReport refl) (abortAt <| lateReport refl))

def Scope.actionArriveS : Scope := join [Scope.setChip, Scope.judged, Scope.setMark, Scope.raise, Scope.abortAt, Scope.arriveHop,
    Scope.arriveOther]

theorem actionArriveS {n : ℕ} (h : Frame σ s t) (hw : Scope.actionArriveS.within σ = true := by decide) : Frame σ s
    (Machine.actionArriveS n t) := by
  refine h.lift hw ?_
  unfold Machine.actionArriveS
  split
  · exact refl
  · split
    · exact refl
    · dsimp only
      split
      · exact judged <| setChip refl
      · split
        · exact judged <| setMark <| setChip refl
        · split
          · exact raise <| abortAt <| setChip refl
          · split
            · exact arriveHop <| setChip refl
            · exact arriveOther <| setChip refl

def Scope.abortVerdictArriveS : Scope := join [ofParts [.rel, .verdicts], Scope.editItem]

theorem abortVerdictArriveS (h : Frame σ s t) (hw : Scope.abortVerdictArriveS.within σ = true := by decide) : Frame σ s
    (Machine.abortVerdictArriveS t) := by
  refine h.lift hw ?_
  unfold Machine.abortVerdictArriveS
  split
  · exact refl
  · exact ite refl (editItem <| withRelVerdicts refl)

def Scope.frozenAction : Scope := join [Scope.endWait, Scope.discardFrozen]

theorem frozenAction {a : Admitted} (h : Frame σ s t) (hw : Scope.frozenAction.within σ = true := by decide) : Frame σ s
    (Machine.frozenAction a t) := by
  refine h.lift hw ?_
  unfold Machine.frozenAction
  split
  · exact endWait <| discardFrozen refl
  · exact discardFrozen refl

def Scope.applyNext : Scope := join [Scope.frozenAction, Scope.dropAdmitted]

theorem applyNext {n : ℕ} {want : ActKind → Bool} {f : Admitted → State → State} (hf : ∀ a {t}, Frame σ s t → Frame σ s (f a t))
    (h : Frame σ s t) (hw : Scope.applyNext.within σ = true := by decide) : Frame σ s (Machine.applyNext n want f t) := by
  have q {a : Scope} (ha : a.within Scope.applyNext = true := by decide) : a.within σ = true := Scope.within_trans ha hw
  unfold Machine.applyNext
  split
  · exact ite (ite (frozenAction (dropAdmitted h q) q) (hf _ <| dropAdmitted h q)) h
  · exact h

def Scope.phaseApplyS : Scope := join [Scope.applyNext, Scope.loadTimedWord, Scope.portTimed]

theorem phaseApplyS {n : ℕ} (h : Frame σ s t) (hw : Scope.phaseApplyS.within σ = true := by decide) : Frame σ s (Machine.phaseApplyS n
    t) := by
  refine h.lift hw ?_
  unfold Machine.phaseApplyS
  exact applyNext (fun _ _ h => (by
    split
    · exact loadTimedWord <| portTimed h
    · exact h)) refl

def Scope.portsetApplyS : Scope := join [Scope.applyNext, Scope.loadTimedWord, Scope.portTimed, Scope.beforeCeil, Scope.setPort]

theorem portsetApplyS {n : ℕ} (h : Frame σ s t) (hw : Scope.portsetApplyS.within σ = true := by decide) : Frame σ s
    (Machine.portsetApplyS n t) := by
  refine h.lift hw ?_
  unfold Machine.portsetApplyS
  exact applyNext (fun _ _ h => (by
    split
    · exact when (fun h => setPort h) <| loadTimedWord <| portTimed h
    · exact h)) refl

def Scope.markApplyS : Scope := join [Scope.applyNext, Scope.markPort, Scope.portTimed]

theorem markApplyS {n : ℕ} (h : Frame σ s t) (hw : Scope.markApplyS.within σ = true := by decide) : Frame σ s (Machine.markApplyS n t)
    := by
  refine h.lift hw ?_
  unfold Machine.markApplyS
  exact applyNext (fun _ _ h => (by
    split
    · exact markPort <| portTimed h
    · exact h)) refl

def Scope.armApplyS : Scope := join [Scope.applyNext, Scope.armChan, Scope.endWait]

theorem armApplyS {n : ℕ} (h : Frame σ s t) (hw : Scope.armApplyS.within σ = true := by decide) : Frame σ s (Machine.armApplyS n t) := by
  refine h.lift hw ?_
  unfold Machine.armApplyS
  exact applyNext (fun _ _ h => (by
    split
    · exact ite (armChan h) (endWait <| armChan h)
    · exact h)) refl

def Scope.disarmApplyS : Scope := join [Scope.applyNext, Scope.endAt]

theorem disarmApplyS {n : ℕ} (h : Frame σ s t) (hw : Scope.disarmApplyS.within σ = true := by decide) : Frame σ s (Machine.disarmApplyS
    n t) := by
  refine h.lift hw ?_
  unfold Machine.disarmApplyS
  exact applyNext (fun _ _ h => (by
    split
    · exact endAt h
    · exact h)) refl

def Scope.setLinkState : Scope := ofRegs [.RY_STAT]

theorem setLinkState {l st : ℕ} (h : Frame σ s t) (hw : Scope.setLinkState.within σ = true := by decide) : Frame σ s
    (Machine.setLinkState l st t) := by
  refine h.lift hw ?_
  unfold Machine.setLinkState
  exact put refl

def Scope.sendFrom : Scope := join [ofParts [.outs], Scope.setLnk]

theorem sendFrom {l type dst src : ℕ} {p : List Byte} (h : Frame σ s t) (hw : Scope.sendFrom.within σ = true := by decide) : Frame σ s
    (Machine.sendFrom l type dst src p t) := by
  refine h.lift hw ?_
  unfold Machine.sendFrom
  exact ite refl (ite (emit <| setLnk refl) (emit refl))

def Scope.sendFrame : Scope := Scope.sendFrom

theorem sendFrame {l type dst : ℕ} {p : List Byte} (h : Frame σ s t) (hw : Scope.sendFrame.within σ = true := by decide) : Frame σ s
    (Machine.sendFrame l type dst p t) := by
  refine h.lift hw ?_
  unfold Machine.sendFrame
  exact sendFrom refl

def Scope.sendTop : Scope := Scope.sendFrame

theorem sendTop {type : ℕ} {p : List Byte} (h : Frame σ s t) (hw : Scope.sendTop.within σ = true := by decide) : Frame σ s
    (Machine.sendTop type p t) := by
  refine h.lift hw ?_
  unfold Machine.sendTop
  split
  · exact sendFrame refl
  · exact refl

def Scope.sendWorker : Scope := Scope.sendFrame

theorem sendWorker {w type : ℕ} {p : List Byte} (h : Frame σ s t) (hw : Scope.sendWorker.within σ = true := by decide) : Frame σ s
    (Machine.sendWorker w type p t) := by
  refine h.lift hw ?_
  unfold Machine.sendWorker
  split
  · exact sendFrame refl
  · exact refl

def Scope.setMm : Scope := ofParts [.mem, .badWords, .ecc]

theorem setMm {q v : ℕ} (h : Frame σ s t) (hw : Scope.setMm.within σ = true := by decide) : Frame σ s (Machine.setMm q v t) := by
  refine h.lift hw ?_
  unfold Machine.setMm
  exact store refl

def Scope.sendDone : Scope := Scope.sendTop

theorem sendDone {r : Report} (h : Frame σ s t) (hw : Scope.sendDone.within σ = true := by decide) : Frame σ s (Machine.sendDone r t) :=
    by
  refine h.lift hw ?_
  unfold Machine.sendDone
  exact when (fun h => sendTop h) refl

def Scope.placeReport : Scope := join [ofParts [.mem, .badWords, .ecc, .ry], Scope.sendDone]

theorem placeReport {q mseq w1 w2 horizon : ℕ} (h : Frame σ s t) (hw : Scope.placeReport.within σ = true := by decide) : Frame σ s
    (Machine.placeReport q mseq w1 w2 horizon t) := by
  refine h.lift hw ?_
  unfold Machine.placeReport
  exact sendDone <| store <| withRy refl

def Scope.mirrorItem : Scope := join [ofParts [.mem, .badWords, .ecc], Scope.writeParity]

theorem mirrorItem {i : Item} (h : Frame σ s t) (hw : Scope.mirrorItem.within σ = true := by decide) : Frame σ s (Machine.mirrorItem i
    t) := by
  refine h.lift hw ?_
  unfold Machine.mirrorItem
  exact forList (fun _ _ h => writeParity h) <| store refl

def Scope.rewriteItem : Scope := join [Scope.editItem, Scope.mirrorItem]

theorem rewriteItem {q n : ℕ} {f : Item → Item} (h : Frame σ s t) (hw : Scope.rewriteItem.within σ = true := by decide) : Frame σ s
    (Machine.rewriteItem q n f t) := by
  refine h.lift hw ?_
  unfold Machine.rewriteItem
  dsimp only
  split
  · exact mirrorItem <| editItem refl
  · exact editItem refl

def Scope.checkStarve : Scope := join [ofRegs [.QD_STAT], Scope.raise, Scope.setQueue]

theorem checkStarve {q : ℕ} (h : Frame σ s t) (hw : Scope.checkStarve.within σ = true := by decide) : Frame σ s (Machine.checkStarve q
    t) := by
  refine h.lift hw ?_
  unfold Machine.checkStarve
  exact ite (raise <| put <| setQueue refl) refl

def Scope.checkStarveAll : Scope := Scope.checkStarve

theorem checkStarveAll (h : Frame σ s t) (hw : Scope.checkStarveAll.within σ = true := by decide) : Frame σ s (Machine.checkStarveAll t)
    := by
  refine h.lift hw ?_
  unfold Machine.checkStarveAll
  exact forList (fun _ _ h => checkStarve h) refl

def Scope.acceptItem : Scope := join [ofParts [.freeCtr, .wide], ofRegs [.QD_STAT], Scope.checkStarve, Scope.mirrorItem, Scope.setQueue]

theorem acceptItem {q : ℕ} {late cmpl : Bool} {body : List Dword} (h : Frame σ s t) (hw : Scope.acceptItem.within σ = true := by decide)
    : Frame σ s (Machine.acceptItem q late cmpl body t) := by
  refine h.lift hw ?_
  unfold Machine.acceptItem
  exact checkStarve <| setWide <| mirrorItem <| bump <| setQueue <| withFreeCtr refl

def Scope.submitS : Scope := join [ofRegs [.QD_STAT], Scope.acceptItem]

theorem submitS {q cls size : ℕ} {late : Bool} {body : List Dword} (h : Frame σ s t) (hw : Scope.submitS.within σ = true := by decide) :
    Frame σ s (Machine.submitS q cls size late body t).2.2 := by
  refine h.lift hw ?_
  unfold Machine.submitS
  exact iteSnd2 refl (iteSnd2 refl (iteSnd2 refl (iteSnd2 refl (iteSnd2 refl (iteSnd2 (put refl) (acceptItem refl))))))

def Scope.submitBytes : Scope := Scope.submitS

theorem submitBytes {q cls : ℕ} {bs : List Byte} (h : Frame σ s t) (hw : Scope.submitBytes.within σ = true := by decide) : Frame σ s
    (Machine.submitBytes q cls bs t).2.2 := by
  refine h.lift hw ?_
  unfold Machine.submitBytes
  exact submitS refl

def Scope.freeItem : Scope := join [ofRegs [.QD_STAT], Scope.setQueue]

theorem freeItem {q n : ℕ} (h : Frame σ s t) (hw : Scope.freeItem.within σ = true := by decide) : Frame σ s (Machine.freeItem q n t) := by
  refine h.lift hw ?_
  unfold Machine.freeItem
  exact put <| setQueue refl

def Scope.itemCompleteS : Scope := join [ofRegs [.QD_CNT, .QM_CNT], Scope.placeReport, Scope.freeItem, Scope.acceptItem, Scope.raise]

theorem itemCompleteS {q n : ℕ} (h : Frame σ s t) (hw : Scope.itemCompleteS.within σ = true := by decide) :
    Frame σ s (Machine.itemCompleteS q n t) := by
  suffices core : ∀ {s}, Frame Scope.itemCompleteS s t → Frame Scope.itemCompleteS s (Machine.itemCompleteS q n t) from h.lift hw (core
      refl)
  intro s h
  unfold Machine.itemCompleteS
  split
  · exact h
  · next i _ =>
      have hfree : Frame Scope.itemCompleteS s ((Machine.freeItem q n t).put QD_CNT.LAST_ST i.status.1 q) := put <| freeItem h
      refine ite h <| ite h ?_
      dsimp only
      cases i.mseq with
      | none => exact ite hfree <| ite (acceptItem hfree) (raise <| bump hfree)
      | some k => exact trans (placeReport hfree) <| ite refl <| ite (acceptItem refl) (raise <| bump refl)

def Scope.readEntries : Scope := Scope.sramMeets

theorem readEntries {i : Item} (h : Frame σ s t) (hw : Scope.readEntries.within σ = true := by decide) : Frame σ s (Machine.readEntries
    i t) := by
  refine h.lift hw ?_
  unfold Machine.readEntries
  exact sramMeets refl

def Scope.takeS : Scope := join [Scope.itemCompleteS, Scope.editItem, Scope.readEntries]

theorem takeS {q cls : ℕ} (h : Frame σ s t) (hw : Scope.takeS.within σ = true := by decide) : Frame σ s (Machine.takeS q cls t).2.2 := by
  refine h.lift hw ?_
  unfold Machine.takeS
  split
  · exact refl
  · split
    · exact refl
    · split
      · exact refl
      · exact itemCompleteS <| editItem <| readEntries refl

def Scope.setEngState : Scope := join [ofParts [.engines, .wide], ofRegs [.ENG_STAT]]

theorem setEngState {e st : ℕ} (h : Frame σ s t) (hw : Scope.setEngState.within σ = true := by decide) : Frame σ s (Machine.setEngState
    e st t) := by
  refine h.lift hw ?_
  unfold Machine.setEngState
  exact put <| setEng <| setWide refl

def Scope.queueOpens : Scope := Scope.setQueue

theorem queueOpens {q : ℕ} (h : Frame σ s t) (hw : Scope.queueOpens.within σ = true := by decide) : Frame σ s (Machine.queueOpens q t)
    := by
  refine h.lift hw ?_
  unfold Machine.queueOpens
  exact setQueue refl

def Scope.engineFree : Scope := join [ofParts [.engines], ofRegs [.ENG_PC], Scope.checkStarveAll, Scope.setEngState, Scope.queueOpens]

theorem engineFree {e : ℕ} (h : Frame σ s t) (hw : Scope.engineFree.within σ = true := by decide) : Frame σ s (Machine.engineFree e t)
    := by
  refine h.lift hw ?_
  unfold Machine.engineFree
  exact checkStarveAll <| setEngState <| put <| setEng <| (by
    split
    · exact queueOpens refl
    · exact refl)

def Scope.giveItem : Scope := join [ofParts [.engines], ofRegs [.ENG_STAT, .ENG_PC], Scope.setEngState, Scope.queueOpens,
    Scope.setQueue, Scope.editItem, Scope.readEntries]

theorem giveItem {q e : ℕ} {i : Item} (h : Frame σ s t) (hw : Scope.giveItem.within σ = true := by decide) :
    Frame σ s (Machine.giveItem q e i t) := by
  suffices core : ∀ {s}, Frame Scope.giveItem s t → Frame Scope.giveItem s (Machine.giveItem q e i t) from h.lift hw (core refl)
  intro s h
  have hread : Frame Scope.giveItem s (Machine.editItem q i.seq (fun i => { i with st := .held e }) (Machine.readEntries i t)) :=
    editItem <| readEntries h
  unfold Machine.giveItem
  generalize Machine.editItem q i.seq (fun i => { i with st := .held e }) (Machine.readEntries i t) = u at *
  exact setEngState <| put <| put <| setEng <| queueOpens <| setQueue hread

def Scope.dispatchS : Scope := Scope.giveItem

theorem dispatchS {q e : ℕ} (h : Frame σ s t) (hw : Scope.dispatchS.within σ = true := by decide) :
    Frame σ s (Machine.dispatchS q e t) := by
  suffices core : ∀ {s}, Frame Scope.dispatchS s t → Frame Scope.dispatchS s (Machine.dispatchS q e t) from h.lift hw (core refl)
  intro s h
  unfold Machine.dispatchS
  split
  · split
    · exact giveItem h
    · exact h
  · exact h

def Scope.stealS : Scope := Scope.giveItem

theorem stealS {q e : ℕ} (h : Frame σ s t) (hw : Scope.stealS.within σ = true := by decide) :
    Frame σ s (Machine.stealS q e t) := by
  suffices core : ∀ {s}, Frame Scope.stealS s t → Frame Scope.stealS s (Machine.stealS q e t) from h.lift hw (core refl)
  intro s h
  unfold Machine.stealS
  split
  · split
    · exact giveItem h
    · exact h
  · exact h

def Scope.releaseStaged : Scope := join [ofParts [.engines, .rel], Scope.setChip, Scope.editItem]

theorem releaseStaged {e : ℕ} (h : Frame σ s t) (hw : Scope.releaseStaged.within σ = true := by decide) : Frame σ s
    (Machine.releaseStaged e t) := by
  refine h.lift hw ?_
  unfold Machine.releaseStaged
  dsimp only
  split
  · exact refl
  · split
    · exact ite (setEng refl) (withRel <| forList (fun _ _ h => setChip h) <| editItem <| setEng refl)
    · exact setEng refl

def Scope.endHandler : Scope := join [ofRegs [.ENG_CNT], Scope.engineFree, Scope.editItem, Scope.releaseStaged]

theorem endHandler {e code : ℕ} {release : Bool} (h : Frame σ s t) (hw : Scope.endHandler.within σ = true := by decide) : Frame σ s
    (Machine.endHandler e code release t) := by
  refine h.lift hw ?_
  unfold Machine.endHandler
  split
  · exact refl
  · exact engineFree <| bump <| editItem <| ite (releaseStaged refl) refl

def Scope.returnItem : Scope := join [Scope.mirrorItem, Scope.setQueue]

theorem returnItem {q n : ℕ} {f : Item → Item} (h : Frame σ s t) (hw : Scope.returnItem.within σ = true := by decide) : Frame σ s
    (Machine.returnItem q n f t) := by
  refine h.lift hw ?_
  unfold Machine.returnItem
  split
  · exact refl
  · exact mirrorItem <| setQueue refl

def Scope.quarantineS : Scope := join [ofRegs [.QD_CNT, .QD_STAT], Scope.raise, Scope.acceptItem, Scope.freeItem, Scope.readEntries]

theorem quarantineS {q n fault e : ℕ} (h : Frame σ s t) (hw : Scope.quarantineS.within σ = true := by decide) : Frame σ s
    (Machine.quarantineS q n fault e t) := by
  refine h.lift hw ?_
  unfold Machine.quarantineS
  split
  · exact refl
  · exact when (fun h => put h) <| raise <| bump <| acceptItem <| freeItem <| readEntries refl

def Scope.faultSeen : Scope := join [ofRegs [.ENG_STAT, .ENG_CNT, .QD_CNT], Scope.raise]

theorem faultSeen {e q code : ℕ} (h : Frame σ s t) (hw : Scope.faultSeen.within σ = true := by decide) : Frame σ s (Machine.faultSeen e
    q code t) := by
  refine h.lift hw ?_
  unfold Machine.faultSeen
  exact raise <| put <| put <| bump <| bump refl

def Scope.handlerFault : Scope := join [ofRegs [.ENG_CNT, .QM_STAT, .QD_STAT], Scope.engineFree, Scope.faultSeen, Scope.returnItem,
    Scope.quarantineS, Scope.raise]

theorem handlerFault {e code : ℕ} (h : Frame σ s t) (hw : Scope.handlerFault.within σ = true := by decide) : Frame σ s
    (Machine.handlerFault e code t) := by
  refine h.lift hw ?_
  unfold Machine.handlerFault
  split
  · exact refl
  · exact engineFree <| faultSeen <| bump <| ite (returnItem refl) (ite (quarantineS refl) (raise <| put <| put <| returnItem refl))

def Scope.quarantineDeferredMoveS : Scope := Scope.quarantineS

theorem quarantineDeferredMoveS {q n : ℕ} (h : Frame σ s t) (hw : Scope.quarantineDeferredMoveS.within σ = true := by decide) : Frame σ
    s (Machine.quarantineDeferredMoveS q n t) := by
  refine h.lift hw ?_
  unfold Machine.quarantineDeferredMoveS
  split
  · exact ite (quarantineS refl) refl
  · exact refl

def Scope.redispatch : Scope := join [ofRegs [.QM_CNT], Scope.returnItem]

theorem redispatch {e : ℕ} (h : Frame σ s t) (hw : Scope.redispatch.within σ = true := by decide) : Frame σ s (Machine.redispatch e t)
    := by
  refine h.lift hw ?_
  unfold Machine.redispatch
  split
  · exact refl
  · exact bump <| returnItem refl

def Scope.engWipe : Scope := join [ofParts [.engines], ofRegs [.ENG_PC], Scope.redispatch]

theorem engWipe {e : ℕ} (h : Frame σ s t) (hw : Scope.engWipe.within σ = true := by decide) : Frame σ s (Machine.engWipe e t) := by
  refine h.lift hw ?_
  unfold Machine.engWipe
  exact put <| setEng <| redispatch refl

def Scope.markEngine : Scope := ofRegs [.ENG_FAIL]

theorem markEngine {e : ℕ} {b : Bool} (h : Frame σ s t) (hw : Scope.markEngine.within σ = true := by decide) : Frame σ s
    (Machine.markEngine e b t) := by
  refine h.lift hw ?_
  unfold Machine.markEngine
  exact put refl

def Scope.failsUnseen : Scope := ofParts [.lossFaults]

theorem failsUnseen {code i : ℕ} (h : Frame σ s t) (hw : Scope.failsUnseen.within σ = true := by decide) : Frame σ s
    (Machine.failsUnseen code i t) := by
  refine h.lift hw ?_
  unfold Machine.failsUnseen
  exact ite refl (withLossFaults refl)

def Scope.engFailS : Scope := join [ofRegs [.ENG_STAT], Scope.failsUnseen, Scope.checkStarveAll, Scope.faultReport, Scope.raise,
    Scope.markEngine, Scope.setEngState, Scope.engWipe]

theorem engFailS {e : ℕ} (h : Frame σ s t) (hw : Scope.engFailS.within σ = true := by decide) : Frame σ s (Machine.engFailS e t) := by
  refine h.lift hw ?_
  unfold Machine.engFailS
  exact ite refl (ite (failsUnseen refl) (checkStarveAll <| faultReport <| raise <| markEngine <| put <| setEngState <| engWipe refl))

def Scope.engReinitS : Scope := join [ofParts [.freeCtr, .engines], ofRegs [.ENG_CMD], Scope.checkStarveAll, Scope.refreshLevel,
    Scope.setEngState, Scope.markEngine, Scope.engWipe]

theorem engReinitS {e : ℕ} (h : Frame σ s t) (hw : Scope.engReinitS.within σ = true := by decide) : Frame σ s (Machine.engReinitS e t)
    := by
  refine h.lift hw ?_
  unfold Machine.engReinitS
  exact checkStarveAll <| refreshLevel <| put <| setEng <| setEngState <| markEngine <| engWipe <| withFreeCtr refl

def Scope.engReturn : Scope := join [ofParts [.engines], ofRegs [.ENG_CMD], Scope.checkStarveAll, Scope.setEngState]

theorem engReturn {e : ℕ} (h : Frame σ s t) (hw : Scope.engReturn.within σ = true := by decide) : Frame σ s (Machine.engReturn e t) := by
  refine h.lift hw ?_
  unfold Machine.engReturn
  exact checkStarveAll <| setEngState <| put <| setEng refl

def Scope.engReturns : Scope := Scope.engReturn

theorem engReturns (h : Frame σ s t) (hw : Scope.engReturns.within σ = true := by decide) : Frame σ s (Machine.engReturns t) := by
  refine h.lift hw ?_
  unfold Machine.engReturns
  exact forList (fun _ _ h => engReturn h) refl

def Scope.engineWdogS : Scope := Scope.handlerFault

theorem engineWdogS {e : ℕ} (h : Frame σ s t) (hw : Scope.engineWdogS.within σ = true := by decide) : Frame σ s (Machine.engineWdogS e
    t) := by
  refine h.lift hw ?_
  unfold Machine.engineWdogS
  exact ite (handlerFault refl) refl

def Scope.yieldEligibleS : Scope := join [Scope.checkStarve, Scope.editItem]

theorem yieldEligibleS {q n : ℕ} (h : Frame σ s t) (hw : Scope.yieldEligibleS.within σ = true := by decide) : Frame σ s
    (Machine.yieldEligibleS q n t) := by
  refine h.lift hw ?_
  unfold Machine.yieldEligibleS
  split
  · exact ite (checkStarve <| editItem refl) refl
  · exact refl

def Scope.qmLoadUpdateS : Scope := join [ofParts [.loadMark], ofRegs [.QM_LOAD], Scope.setTimer]

theorem qmLoadUpdateS {pct : ℕ} (h : Frame σ s t) (hw : Scope.qmLoadUpdateS.within σ = true := by decide) : Frame σ s
    (Machine.qmLoadUpdateS pct t) := by
  refine h.lift hw ?_
  unfold Machine.qmLoadUpdateS
  exact ite (setTimer <| put <| withLoadMark refl) refl

def Scope.engCfgWritten : Scope := join [Scope.checkStarveAll, Scope.setEngState]

theorem engCfgWritten {e : ℕ} (h : Frame σ s t) (hw : Scope.engCfgWritten.within σ = true := by decide) : Frame σ s
    (Machine.engCfgWritten e t) := by
  refine h.lift hw ?_
  unfold Machine.engCfgWritten
  exact checkStarveAll <| ite (setEngState refl) (ite (setEngState refl) refl)

def Scope.descErr : Scope := join [ofRegs [.QM_STAT, .QD_STAT], Scope.logEvent]

theorem descErr {q code : ℕ} (h : Frame σ s t) (hw : Scope.descErr.within σ = true := by decide) : Frame σ s (Machine.descErr q code t)
    := by
  refine h.lift hw ?_
  unfold Machine.descErr
  exact logEvent <| put <| ite refl (put refl)

def Scope.roundLen : Scope := ofRegs [.QD_STAT, .QD_LEN]

theorem roundLen {q : ℕ} {v : Word} (h : Frame σ s t) (hw : Scope.roundLen.within σ = true := by decide) : Frame σ s (Machine.roundLen q
    v t) := by
  refine h.lift hw ?_
  unfold Machine.roundLen
  exact ite refl (put <| put refl)

def Scope.enableQueue : Scope := join [ofParts [.freeCtr], ofRegs [.QM_STAT], Scope.setChip, Scope.setMark, Scope.setQueue]

theorem enableQueue {q : ℕ} (h : Frame σ s t) (hw : Scope.enableQueue.within σ = true := by decide) : Frame σ s (Machine.enableQueue q
    t) := by
  refine h.lift hw ?_
  unfold Machine.enableQueue
  exact forBelow (fun _ _ h => setChip <| setMark h) <| put <| setQueue <| withFreeCtr refl

def Scope.hookQdCtrl : Scope := join [ofRegs [.QD_STAT, .QM_STAT], Scope.queueOpens, Scope.descErr, Scope.setQueue, Scope.roundLen,
    Scope.enableQueue]

theorem hookQdCtrl {q : ℕ} {old new : Word} (h : Frame σ s t) (hw : Scope.hookQdCtrl.within σ = true := by decide) :
    Frame σ s (Machine.hookQdCtrl q old new t).2 := by
  suffices core : ∀ {s}, Frame Scope.hookQdCtrl s t → Frame Scope.hookQdCtrl s (Machine.hookQdCtrl q old new t).2 from h.lift hw (core
      refl)
  intro s h
  have hresume {b : Bool} : Frame Scope.hookQdCtrl s (t.when b fun s => Machine.queueOpens q (s.put QD_STAT.STOPPED 0 q)) :=
    when (fun h => queueOpens <| put h) h
  unfold Machine.hookQdCtrl
  dsimp only
  refine iteSnd (ite ?_ (descErr ?_)) ?_
  all_goals
    refine iteSnd (when descErr <| when descErr hresume) <| iteSnd ?_ <| iteSnd ?_ hresume
    · exact trans (when descErr hresume) <| iteSnd (iteSnd (descErr refl) (put <| setQueue refl)) refl
    · split
      · exact descErr <| roundLen hresume
      · exact enableQueue <| roundLen hresume

def Scope.hookQdLen : Scope := Scope.descErr

theorem hookQdLen {q : ℕ} {old new : Word} (h : Frame σ s t) (hw : Scope.hookQdLen.within σ = true := by decide) : Frame σ s
    (Machine.hookQdLen q old new t).2 := by
  refine h.lift hw ?_
  unfold Machine.hookQdLen
  exact iteSnd (descErr refl) refl

def Scope.setGr : Scope := ofParts [.engines]

theorem setGr {e k : ℕ} {v : Dword} (h : Frame σ s t) (hw : Scope.setGr.within σ = true := by decide) : Frame σ s (Machine.setGr e k v
    t) := by
  refine h.lift hw ?_
  unfold Machine.setGr
  exact ite refl (setEng refl)

def Scope.setTr : Scope := ofParts [.engines]

theorem setTr {e k : ℕ} {v : BitVec 80} (h : Frame σ s t) (hw : Scope.setTr.within σ = true := by decide) : Frame σ s (Machine.setTr e k
    v t) := by
  refine h.lift hw ?_
  unfold Machine.setTr
  exact setEng refl

def Scope.setPc : Scope := ofRegs [.ENG_PC]

theorem setPc {e a : ℕ} (h : Frame σ s t) (hw : Scope.setPc.within σ = true := by decide) : Frame σ s (Machine.setPc e a t) := by
  refine h.lift hw ?_
  unfold Machine.setPc
  exact put refl

def Scope.xipTouch : Scope := ofParts [.xip]

theorem xipTouch {off : ℕ} (h : Frame σ s t) (hw : Scope.xipTouch.within σ = true := by decide) : Frame σ s (Machine.xipTouch off t) := by
  refine h.lift hw ?_
  unfold Machine.xipTouch
  dsimp only
  split
  · exact withXip refl
  · exact refl

def Scope.xipMiss : Scope := ofParts [.engines, .xip]

theorem xipMiss {e off : ℕ} {load : Bool} (h : Frame σ s t) (hw : Scope.xipMiss.within σ = true := by decide) : Frame σ s
    (Machine.xipMiss e off load t) := by
  refine h.lift hw ?_
  unfold Machine.xipMiss
  exact ite (setEng refl) (withXip <| setEng refl)

def Scope.dropLines : Scope := ofParts [.engines]

theorem dropLines {e : ℕ} (h : Frame σ s t) (hw : Scope.dropLines.within σ = true := by decide) : Frame σ s (Machine.dropLines e t) := by
  refine h.lift hw ?_
  unfold Machine.dropLines
  split
  · exact refl
  · exact setEng refl

def Scope.fetchTouch : Scope := join [Scope.sramFix, Scope.xipTouch]

theorem fetchTouch {a : ℕ} (h : Frame σ s t) (hw : Scope.fetchTouch.within σ = true := by decide) : Frame σ s (Machine.fetchTouch a t)
    := by
  refine h.lift hw ?_
  unfold Machine.fetchTouch
  exact ite (sramFix refl) (xipTouch refl)

def Scope.fetchMeets : Scope := Scope.sramMeets

theorem fetchMeets {a c : ℕ} (h : Frame σ s t) (hw : Scope.fetchMeets.within σ = true := by decide) : Frame σ s (Machine.fetchMeets a c
    t) := by
  refine h.lift hw ?_
  unfold Machine.fetchMeets
  exact ite (sramMeets refl) refl

def Scope.runCelil : Scope := join [Scope.handlerFault, Scope.fetchMeets, Scope.xipMiss, Scope.dropLines, Scope.fetchTouch]

theorem runCelil {e : ℕ} {ws : List Word} {body : State → State} (hf : ∀ {t}, Frame σ s t → Frame σ s (body t)) (h : Frame σ s t)
    (hw : Scope.runCelil.within σ = true := by decide) : Frame σ s (Machine.runCelil e ws body t) := by
  have q {a : Scope} (ha : a.within Scope.runCelil = true := by decide) : a.within σ = true := Scope.within_trans ha hw
  unfold Machine.runCelil
  refine ite h ?_
  dsimp only
  split
  · exact handlerFault (fetchMeets h q) q
  · exact xipMiss h q
  · split
    · exact ite (dropLines (hf <| fetchTouch h q) q) h
    · refine ite ?_ h
      split
      · exact handlerFault (fetchMeets h q) q
      · exact xipMiss h q
      · exact ite (dropLines (hf <| fetchTouch (fetchTouch h q) q) q) h
    · exact h

def Scope.advance : Scope := Scope.setPc

theorem advance {e n : ℕ} (h : Frame σ s t) (hw : Scope.advance.within σ = true := by decide) : Frame σ s (Machine.advance e n t) := by
  refine h.lift hw ?_
  unfold Machine.advance
  exact setPc refl

def Scope.writeNext : Scope := join [Scope.advance, Scope.setGr]

theorem writeNext {e d : ℕ} {v : Dword} (h : Frame σ s t) (hw : Scope.writeNext.within σ = true := by decide) : Frame σ s
    (Machine.writeNext e d v t) := by
  refine h.lift hw ?_
  unfold Machine.writeNext
  exact advance <| setGr refl

def Scope.jumpTo : Scope := join [Scope.setPc, Scope.setGr, Scope.handlerFault]

theorem jumpTo {e target : ℕ} {link : Option (ℕ × ℕ)} (h : Frame σ s t) (hw : Scope.jumpTo.within σ = true := by decide) : Frame σ s
    (Machine.jumpTo e target link t) := by
  refine h.lift hw ?_
  unfold Machine.jumpTo
  split
  · exact setPc <| (by
      split
      · exact setGr refl
      · exact refl)
  · exact handlerFault refl

def Scope.setScratch : Scope := ofParts [.engines]

theorem setScratch {e off : ℕ} {bs : List Byte} (h : Frame σ s t) (hw : Scope.setScratch.within σ = true := by decide) : Frame σ s
    (Machine.setScratch e off bs t) := by
  refine h.lift hw ?_
  unfold Machine.setScratch
  exact setEng refl

def Scope.putNow : Scope := join [ofParts [.engines], Scope.handlerFault, Scope.writeNext, Scope.submitBytes, Scope.rewriteItem]

theorem putNow {e : ℕ} {d b q : GReg} (h : Frame σ s t) (hw : Scope.putNow.within σ = true := by decide) :
    Frame σ s (Machine.putNow e d b q t) := by
  suffices core : ∀ {s}, Frame Scope.putNow s t → Frame Scope.putNow s (Machine.putNow e d b q t) from h.lift hw (core refl)
  intro s h
  have result {u : State} {c : Prop} [Decidable c] {q n : ℕ} {f : Item → Item} {v : Dword} (h : Frame Scope.putNow s u) :
      Frame Scope.putNow s (Machine.writeNext e d v (if c then Machine.rewriteItem q n f u else u)) := writeNext <| ite (rewriteItem h) h
  unfold Machine.putNow
  refine ite (handlerFault h) <| ite (handlerFault h) <| ite (handlerFault h) <| ite (handlerFault h) ?_
  dsimp only
  split
  · exact ite (writeNext <| setEng h) (result <| submitBytes <| setEng h)
  · exact h

def Scope.park : Scope := join [ofParts [.engines], Scope.setEngState]

theorem park {e : ℕ} {w : EngWait} (h : Frame σ s t) (hw : Scope.park.within σ = true := by decide) : Frame σ s (Machine.park e w t) := by
  refine h.lift hw ?_
  unfold Machine.park
  exact setEngState <| setEng refl

def Scope.resume : Scope := join [ofParts [.engines], Scope.advance, Scope.setEngState]

theorem resume {e : ℕ} (h : Frame σ s t) (hw : Scope.resume.within σ = true := by decide) : Frame σ s (Machine.resume e t) := by
  refine h.lift hw ?_
  unfold Machine.resume
  exact advance <| setEngState <| setEng refl

def Scope.postAction : Scope := join [ofParts [.engines], Scope.advance]

theorem postAction {e : ℕ} {kind : ActKind} {t1 : BitVec 80} (h : Frame σ s t) (hw : Scope.postAction.within σ = true := by decide) :
    Frame σ s (Machine.postAction e kind t1 t) := by
  refine h.lift hw ?_
  unfold Machine.postAction
  split
  · exact advance <| setEng refl
  · exact refl

def Scope.actionGate : Scope := join [ofParts [.engines], Scope.handlerFault, Scope.setEngState]

theorem actionGate {e : ℕ} {i : Instr} {post : State → State} (hf : ∀ {t}, Frame σ s t → Frame σ s (post t)) (h : Frame σ s t)
    (hw : Scope.actionGate.within σ = true := by decide) : Frame σ s (Machine.actionGate e i post t) :=
  have q {a : Scope} (ha : a.within Scope.actionGate = true := by decide) : a.within σ = true := Scope.within_trans ha hw
  ite (handlerFault h q) (ite (setEngState (setEng h q) q) (hf h))

def Scope.hopNow : Scope := join [ofParts [.mem, .badWords, .ecc], Scope.postAction, Scope.sramFix]

theorem hopNow {e : ℕ} {a b : GReg} {t1 : TReg} (h : Frame σ s t) (hw : Scope.hopNow.within σ = true := by decide) : Frame σ s
    (Machine.hopNow e a b t1 t) := by
  refine h.lift hw ?_
  unfold Machine.hopNow
  exact postAction <| store <| sramFix refl

def Scope.hopOp : Scope := join [Scope.handlerFault, Scope.sramMeets, Scope.actionGate, Scope.hopNow]

theorem hopOp {e : EngineIx} {a b : GReg} {t1 : TReg} (h : Frame σ s t) (hw : Scope.hopOp.within σ = true := by decide) : Frame σ s
    (Machine.hopOp e a b t1 t) := by
  refine h.lift hw ?_
  unfold Machine.hopOp
  exact ite (handlerFault refl) (ite (handlerFault <| ite refl (sramMeets refl)) (ite (handlerFault refl) (actionGate (fun h => hopNow
      h) refl)))

def Scope.timedOp : Scope := join [Scope.handlerFault, Scope.actionGate, Scope.postAction]

theorem timedOp {e : EngineIx} {i : Instr} {target : GReg} {t1 : TReg} {top : ℕ} {kind : ℕ → State → ActKind} (h : Frame σ s t) (hw :
    Scope.timedOp.within σ = true := by decide) : Frame σ s (Machine.timedOp e i target t1 top kind t) := by
  refine h.lift hw ?_
  unfold Machine.timedOp
  exact ite (handlerFault refl) (actionGate (fun h => postAction h) refl)

def Scope.phaseOp : Scope := Scope.timedOp

theorem phaseOp {e : EngineIx} {a b : GReg} {t1 : TReg} (h : Frame σ s t) (hw : Scope.phaseOp.within σ = true := by decide) : Frame σ s
    (Machine.phaseOp e a b t1 t) := by
  refine h.lift hw ?_
  unfold Machine.phaseOp
  exact timedOp refl

def Scope.portsetOp : Scope := join [Scope.handlerFault, Scope.timedOp]

theorem portsetOp {e : EngineIx} {a b c : GReg} {t1 : TReg} (h : Frame σ s t) (hw : Scope.portsetOp.within σ = true := by decide) :
    Frame σ s (Machine.portsetOp e a b c t1 t) := by
  refine h.lift hw ?_
  unfold Machine.portsetOp
  exact ite (handlerFault refl) (ite (handlerFault refl) (timedOp refl))

def Scope.markOp : Scope := Scope.timedOp

theorem markOp {e : EngineIx} {a b : GReg} {t1 : TReg} (h : Frame σ s t) (hw : Scope.markOp.within σ = true := by decide) : Frame σ s
    (Machine.markOp e a b t1 t) := by
  refine h.lift hw ?_
  unfold Machine.markOp
  exact timedOp refl

def Scope.armOp : Scope := Scope.timedOp

theorem armOp {e : EngineIx} {a b c : GReg} {t1 : TReg} (h : Frame σ s t) (hw : Scope.armOp.within σ = true := by decide) : Frame σ s
    (Machine.armOp e a b c t1 t) := by
  refine h.lift hw ?_
  unfold Machine.armOp
  exact timedOp refl

def Scope.disarmOp : Scope := Scope.timedOp

theorem disarmOp {e : EngineIx} {a : GReg} {t1 : TReg} (h : Frame σ s t) (hw : Scope.disarmOp.within σ = true := by decide) : Frame σ s
    (Machine.disarmOp e a t1 t) := by
  refine h.lift hw ?_
  unfold Machine.disarmOp
  exact timedOp refl

def Scope.actionOf : Scope := join [Scope.hopOp, Scope.phaseOp, Scope.portsetOp, Scope.markOp, Scope.armOp, Scope.disarmOp]

theorem actionOf {i : Instr} (h : Frame σ s t) (hw : Scope.actionOf.within σ = true := by decide) :
    Frame σ s (Machine.actionOf i t) := by
  suffices core : ∀ {s}, Frame Scope.actionOf s t → Frame Scope.actionOf s (Machine.actionOf i t) from h.lift hw (core refl)
  intro s h
  unfold Machine.actionOf
  split
  · exact hopOp h
  · exact phaseOp h
  · exact portsetOp h
  · exact markOp h
  · exact armOp h
  · exact disarmOp h
  · exact h

def Scope.standbyTrim : Scope := join [Scope.trimBoundary, Scope.trimRefresh]

theorem standbyTrim {c k : ℕ} (h : Frame σ s t) (hw : Scope.standbyTrim.within σ = true := by decide) : Frame σ s (Machine.standbyTrim c
    k t) := by
  refine h.lift hw ?_
  unfold Machine.standbyTrim
  exact ite (trimBoundary refl) (trimRefresh refl)

def Scope.trimFail : Scope := join [Scope.standbyTrim, Scope.calFail, Scope.setHalf]

theorem trimFail {c k : ℕ} {dtc : Bool} {reason : ℕ} (h : Frame σ s t) (hw : Scope.trimFail.within σ = true := by decide) : Frame σ s
    (Machine.trimFail c k dtc reason t) := by
  refine h.lift hw ?_
  unfold Machine.trimFail
  exact standbyTrim <| calFail <| setHalf refl

def Scope.trimEnd : Scope := join [Scope.standbyTrim, Scope.setHalf, Scope.requestEnd]

theorem trimEnd {c k : ℕ} {dtc : Bool} (h : Frame σ s t) (hw : Scope.trimEnd.within σ = true := by decide) : Frame σ s (Machine.trimEnd
    c k dtc t) := by
  refine h.lift hw ?_
  unfold Machine.trimEnd
  exact standbyTrim <| setHalf <| when (fun h => requestEnd h) refl

def Scope.trimCommit : Scope := join [Scope.standbyTrim, Scope.calCommit, Scope.setHalf]

theorem trimCommit {c k : ℕ} {dtc : Bool} (h : Frame σ s t) (hw : Scope.trimCommit.within σ = true := by decide) : Frame σ s
    (Machine.trimCommit c k dtc t) := by
  refine h.lift hw ?_
  unfold Machine.trimCommit
  exact standbyTrim <| calCommit <| setHalf refl

def Scope.blockCounted : Scope := join [Scope.trimFail, Scope.setHalf, Scope.trimCommit, Scope.standbyTrim]

theorem blockCounted {c k : ℕ} {dtc : Bool} {r : TrimRun} {w : TrimSet} {rail small : Bool} {bins : ℕ} (h : Frame σ s t) (hw :
    Scope.blockCounted.within σ = true := by decide) : Frame σ s (Machine.blockCounted c k dtc r w rail small bins t) := by
  refine h.lift hw ?_
  unfold Machine.blockCounted
  exact ite (trimFail <| setHalf refl) (ite (trimCommit <| setHalf refl) (ite (trimFail <| setHalf refl) (standbyTrim <| setHalf refl)))

def Scope.blockEnd : Scope := join [Scope.trimEnd, Scope.trimFail, Scope.setHalf]

theorem blockEnd {c k : ℕ} {dtc : Bool} {f : TrimRun → State → State} (hf : ∀ r {t}, Frame σ s t → Frame σ s (f r t))
    (h : Frame σ s t) (hw : Scope.blockEnd.within σ = true := by decide) : Frame σ s (Machine.blockEnd c k dtc f t) := by
  have q {a : Scope} (ha : a.within Scope.blockEnd = true := by decide) : a.within σ = true := Scope.within_trans ha hw
  unfold Machine.blockEnd
  dsimp only
  split
  · exact h
  · exact ite h <| ite (trimEnd h q) <| ite (ite (trimFail h q) h) <| ite h <| ite h <| ite (setHalf h q) (hf _ h)

def Scope.lmsBlockEndS : Scope := join [Scope.blockEnd, Scope.blockCounted]

theorem lmsBlockEndS {c k : ℕ} {move : ℤ} (h : Frame σ s t) (hw : Scope.lmsBlockEndS.within σ = true := by decide) : Frame σ s
    (Machine.lmsBlockEndS c k move t) := by
  refine h.lift hw ?_
  unfold Machine.lmsBlockEndS
  exact blockEnd (fun _ _ h => blockCounted h) refl

def Scope.dtcBlockEndS : Scope := join [Scope.blockEnd, Scope.blockCounted]

theorem dtcBlockEndS {c k : ℕ} {move : ℤ} {bins : List (ℕ × ℤ)} (h : Frame σ s t) (hw : Scope.dtcBlockEndS.within σ = true := by decide)
    : Frame σ s (Machine.dtcBlockEndS c k move bins t) := by
  refine h.lift hw ?_
  unfold Machine.dtcBlockEndS
  exact blockEnd (fun _ _ h => blockCounted h) refl

def Scope.trimBoundaryS : Scope := join [Scope.standbyTrim, Scope.trimMotionStart, Scope.trimBoundary]

theorem trimBoundaryS {c k : ℕ} (h : Frame σ s t) (hw : Scope.trimBoundaryS.within σ = true := by decide) : Frame σ s
    (Machine.trimBoundaryS c k t) := by
  refine h.lift hw ?_
  unfold Machine.trimBoundaryS
  exact ite refl (ite (standbyTrim refl) (ite (forList (fun _ _ h => trimMotionStart h) <| trimBoundary refl) refl))

def Scope.cdSyncTestS : Scope := join [Scope.cdFail, Scope.setChan]

theorem cdSyncTestS {k codes most : ℕ} (h : Frame σ s t) (hw : Scope.cdSyncTestS.within σ = true := by decide) : Frame σ s
    (Machine.cdSyncTestS k codes most t) := by
  refine h.lift hw ?_
  unfold Machine.cdSyncTestS
  split
  · exact ite refl (ite (cdFail refl) (setChan refl))
  · exact refl

def Scope.cdAgreementTestS : Scope := join [ofRegs [.CD_STAT, .TS_STAT], Scope.refreshAllConv, Scope.cdState, Scope.requestEnd,
    Scope.cdLeave, Scope.calCommit, Scope.setPort, Scope.setChan]

theorem cdAgreementTestS {k : ℕ} {a b : List ℕ} (h : Frame σ s t) (hw : Scope.cdAgreementTestS.within σ = true := by decide) : Frame σ s
    (Machine.cdAgreementTestS k a b t) := by
  refine h.lift hw ?_
  unfold Machine.cdAgreementTestS
  split
  · exact ite refl (ite (refreshAllConv <| cdState <| requestEnd <| cdLeave refl) (ite (refreshAllConv <| calCommit <| ite (setPort <|
        ite (put <| cdState <| setChan <| cdLeave refl) (tsSet <| put <| cdState <| setChan <| cdLeave refl)) (ite (put <| cdState <|
        setChan <| cdLeave refl) (tsSet <| put <| cdState <| setChan <| cdLeave refl))) refl))
  · exact refl

def Scope.cdInputCheck : Scope := Scope.cdFail

theorem cdInputCheck {k : ℕ} (h : Frame σ s t) (hw : Scope.cdInputCheck.within σ = true := by decide) : Frame σ s (Machine.cdInputCheck
    k t) := by
  refine h.lift hw ?_
  unfold Machine.cdInputCheck
  split
  · exact ite (cdFail refl) refl
  · exact refl

def Scope.cdTimeoutS : Scope := Scope.cdFail

theorem cdTimeoutS {k : ℕ} (h : Frame σ s t) (hw : Scope.cdTimeoutS.within σ = true := by decide) : Frame σ s (Machine.cdTimeoutS k t)
    := by
  refine h.lift hw ?_
  unfold Machine.cdTimeoutS
  split
  · exact ite (cdFail refl) refl
  · exact refl

def Scope.oscTurn : Scope := join [Scope.refreshAllConv, Scope.cdState, Scope.cdLeave]

theorem oscTurn {k : ℕ} (h : Frame σ s t) (hw : Scope.oscTurn.within σ = true := by decide) : Frame σ s (Machine.oscTurn k t) := by
  refine h.lift hw ?_
  unfold Machine.oscTurn
  exact forList (fun _ _ h => refreshAllConv <| cdState <| cdLeave h) refl

def Scope.cdStart : Scope := join [ofRegs [.TS_STAT], Scope.cdFail, Scope.refreshAllConv, Scope.cdState, Scope.setChan, Scope.oscTurn]

theorem cdStart {k : ℕ} {requested : Bool} (h : Frame σ s t) (hw : Scope.cdStart.within σ = true := by decide) : Frame σ s
    (Machine.cdStart k requested t) := by
  refine h.lift hw ?_
  unfold Machine.cdStart
  exact ite (cdFail refl) (refreshAllConv <| tsSet <| cdState <| setChan <| when (fun h => oscTurn h) refl)

def Scope.refreshMoving : Scope := ofRegs [.SOR_STAT]

theorem refreshMoving (h : Frame σ s t) (hw : Scope.refreshMoving.within σ = true := by decide) : Frame σ s (Machine.refreshMoving t) :=
    by
  refine h.lift hw ?_
  unfold Machine.refreshMoving
  exact put refl

def Scope.trimIfStatic : Scope := Scope.trimMotionStart

theorem trimIfStatic {p : ℕ} (h : Frame σ s t) (hw : Scope.trimIfStatic.within σ = true := by decide) : Frame σ s (Machine.trimIfStatic
    p t) := by
  refine h.lift hw ?_
  unfold Machine.trimIfStatic
  exact ite refl (trimMotionStart refl)

def Scope.skewCorrect : Scope := join [ofRegs [.PORT_STAT, .PORT_TRIM], Scope.raise, Scope.setPort, Scope.trimIfStatic]

theorem skewCorrect {p : ℕ} {err : ℤ} (h : Frame σ s t) (hw : Scope.skewCorrect.within σ = true := by decide) : Frame σ s
    (Machine.skewCorrect p err t) := by
  refine h.lift hw ?_
  unfold Machine.skewCorrect
  exact ite (raise <| put <| setPort refl) (trimIfStatic <| put <| when (fun h => put h) <| setPort refl)

def Scope.skewJudge : Scope := join [Scope.refreshPortGroup, Scope.log, Scope.setPort, Scope.requestEnd, Scope.calCommit]

theorem skewJudge {p : ℕ} {err : ℤ} (h : Frame σ s t) (hw : Scope.skewJudge.within σ = true := by decide) : Frame σ s (Machine.skewJudge
    p err t) := by
  refine h.lift hw ?_
  unfold Machine.skewJudge
  exact ite (refreshPortGroup <| log <| setPort <| setPort refl) (ite (ite (refreshPortGroup <| requestEnd <| setPort <| setPort refl)
      (refreshPortGroup <| calCommit <| setPort <| setPort refl)) (setPort refl))

def Scope.skewMeanDoneS : Scope := join [ofRegs [.PORT_SKMEAS], Scope.skewJudge, Scope.setPort, Scope.skewCorrect]

theorem skewMeanDoneS {p : ℕ} {mean : ℤ} (h : Frame σ s t) (hw : Scope.skewMeanDoneS.within σ = true := by decide) : Frame σ s
    (Machine.skewMeanDoneS p mean t) := by
  refine h.lift hw ?_
  unfold Machine.skewMeanDoneS
  exact ite refl (skewJudge <| ite (setPort <| put <| put refl) (skewCorrect <| setPort <| put <| put refl))

def Scope.skewOffsetDoneS : Scope := Scope.setPort

theorem skewOffsetDoneS {p : ℕ} {offset : ℤ} (h : Frame σ s t) (hw : Scope.skewOffsetDoneS.within σ = true := by decide) : Frame σ s
    (Machine.skewOffsetDoneS p offset t) := by
  refine h.lift hw ?_
  unfold Machine.skewOffsetDoneS
  exact ite (setPort refl) refl

def Scope.skewTrimStepS : Scope := join [Scope.refreshMoving, Scope.trimIfStatic, Scope.setPort]

theorem skewTrimStepS {p : ℕ} (h : Frame σ s t) (hw : Scope.skewTrimStepS.within σ = true := by decide) : Frame σ s
    (Machine.skewTrimStepS p t) := by
  refine h.lift hw ?_
  unfold Machine.skewTrimStepS
  dsimp only
  split
  · exact refl
  · exact ite refl (refreshMoving <| ite (trimIfStatic <| setPort refl) (setPort refl))

def Scope.hookPortTrim : Scope := join [ofRegs [.PORT_STAT], Scope.setPort]

theorem hookPortTrim {p : ℕ} {new : Word} (h : Frame σ s t) (hw : Scope.hookPortTrim.within σ = true := by decide) : Frame σ s
    (Machine.hookPortTrim p new t).2 := by
  refine h.lift hw ?_
  unfold Machine.hookPortTrim
  exact iteSnd (put <| setPort refl) (setPort refl)

def Scope.portTrimWritten : Scope := join [Scope.trimIfStatic, Scope.refreshPortGroup, Scope.startAttempt]

theorem portTrimWritten {p : ℕ} (h : Frame σ s t) (hw : Scope.portTrimWritten.within σ = true := by decide) : Frame σ s
    (Machine.portTrimWritten p t) := by
  refine h.lift hw ?_
  unfold Machine.portTrimWritten
  exact trimIfStatic <| ite (refreshPortGroup <| startAttempt refl) refl

def Scope.skewAttemptTimeoutS : Scope := join [ofRegs [.PORT_TRIM], Scope.refreshPortGroup, Scope.trimIfStatic, Scope.calFail,
    Scope.setPort]

theorem skewAttemptTimeoutS {p : ℕ} (h : Frame σ s t) (hw : Scope.skewAttemptTimeoutS.within σ = true := by decide) : Frame σ s
    (Machine.skewAttemptTimeoutS p t) := by
  refine h.lift hw ?_
  unfold Machine.skewAttemptTimeoutS
  split
  · exact ite refl (refreshPortGroup <| trimIfStatic <| calFail <| setPort <| put refl)
  · exact refl

def Scope.skewFailWaitEndS : Scope := Scope.startAttempt

theorem skewFailWaitEndS {p : ℕ} (h : Frame σ s t) (hw : Scope.skewFailWaitEndS.within σ = true := by decide) : Frame σ s
    (Machine.skewFailWaitEndS p t) := by
  refine h.lift hw ?_
  unfold Machine.skewFailWaitEndS
  split
  · exact ite (startAttempt refl) refl
  · exact refl

def Scope.cdlyStart : Scope := join [ofRegs [.CDLY_STAT], Scope.setCdly]

theorem cdlyStart {l : ℕ} {requested : Bool} (h : Frame σ s t) (hw : Scope.cdlyStart.within σ = true := by decide) : Frame σ s
    (Machine.cdlyStart l requested t) := by
  refine h.lift hw ?_
  unfold Machine.cdlyStart
  exact put <| setCdly refl

def Scope.cdlyFail : Scope := join [ofRegs [.CDLY_STAT], Scope.calFail, Scope.setCdly]

theorem cdlyFail {l reason : ℕ} {requested : Bool} (h : Frame σ s t) (hw : Scope.cdlyFail.within σ = true := by decide) : Frame σ s
    (Machine.cdlyFail l reason requested t) := by
  refine h.lift hw ?_
  unfold Machine.cdlyFail
  exact put <| calFail <| setCdly refl

def Scope.cdlyLinkLost : Scope := Scope.cdlyFail

theorem cdlyLinkLost {l : ℕ} (h : Frame σ s t) (hw : Scope.cdlyLinkLost.within σ = true := by decide) : Frame σ s (Machine.cdlyLinkLost
    l t) := by
  refine h.lift hw ?_
  unfold Machine.cdlyLinkLost
  split
  · exact cdlyFail refl
  · exact refl

def Scope.cdlyTimeoutS : Scope := Scope.cdlyFail

theorem cdlyTimeoutS {l : ℕ} (h : Frame σ s t) (hw : Scope.cdlyTimeoutS.within σ = true := by decide) : Frame σ s (Machine.cdlyTimeoutS
    l t) := by
  refine h.lift hw ?_
  unfold Machine.cdlyTimeoutS
  split
  · exact ite (cdlyFail refl) refl
  · exact refl

def Scope.setDelay : Scope := join [ofRegs [.CDLY_HI, .CDLY_LO], Scope.setCdly]

theorem setDelay {l d : ℕ} (h : Frame σ s t) (hw : Scope.setDelay.within σ = true := by decide) : Frame σ s (Machine.setDelay l d t) := by
  refine h.lift hw ?_
  unfold Machine.setDelay
  exact setCdly <| put <| put refl

def Scope.cdlySample : Scope := join [ofRegs [.CDLY_STAT], Scope.requestEnd, Scope.setCdly, Scope.calCommit, Scope.setDelay]

theorem cdlySample {l : ℕ} {rtt : ℤ} (h : Frame σ s t) (hw : Scope.cdlySample.within σ = true := by decide) : Frame σ s
    (Machine.cdlySample l rtt t) := by
  refine h.lift hw ?_
  unfold Machine.cdlySample
  split
  · exact refl
  · exact ite (ite (requestEnd <| put <| setCdly refl) (calCommit <| put <| put <| put <| setDelay <| setCdly refl)) (setCdly refl)

def Scope.cdlyHiWritten : Scope := join [ofRegs [.CDLY_STAT], Scope.setCdly, Scope.calFail]

theorem cdlyHiWritten {l : ℕ} (h : Frame σ s t) (hw : Scope.cdlyHiWritten.within σ = true := by decide) : Frame σ s
    (Machine.cdlyHiWritten l t) := by
  refine h.lift hw ?_
  unfold Machine.cdlyHiWritten
  exact put <| put <| setCdly <| (by
    split
    · exact ite (put <| calFail <| put <| setCdly refl) (put <| setCdly refl)
    · exact refl)

def Scope.trimStart : Scope := join [Scope.trimRefresh, Scope.setHalf]

theorem trimStart {c k : ℕ} {dtc requested : Bool} (h : Frame σ s t) (hw : Scope.trimStart.within σ = true := by decide) : Frame σ s
    (Machine.trimStart c k dtc requested t) := by
  refine h.lift hw ?_
  unfold Machine.trimStart
  exact trimRefresh <| setHalf refl

def Scope.sorrelBackgroundStartS : Scope := join [Scope.trimStart, Scope.cdState, Scope.cdStart, Scope.cdlyStart]

theorem sorrelBackgroundStartS {m t1 : ℕ} (h : Frame σ s t) (hw : Scope.sorrelBackgroundStartS.within σ = true := by decide) : Frame σ s
    (Machine.sorrelBackgroundStartS m t1 t) := by
  refine h.lift hw ?_
  unfold Machine.sorrelBackgroundStartS
  exact ite refl (ite (ite (trimStart refl) refl) (ite (ite (ite (ite (cdState refl) refl) (ite refl (cdStart refl))) refl) (ite (ite
      (cdlyStart refl) refl) refl)))

def Scope.startRequested : Scope := join [Scope.calFail, Scope.setHalf, Scope.trimFail, Scope.trimStart, Scope.setChan, Scope.cdFail,
    Scope.cdStart, Scope.setPort, Scope.refreshPortGroup, Scope.startAttempt, Scope.setCdly, Scope.cdlyStart, Scope.cdlyFail]

theorem startRequested {m t1 : ℕ} (h : Frame σ s t) (hw : Scope.startRequested.within σ = true := by decide) : Frame σ s
    (Machine.startRequested m t1 t) := by
  refine h.lift hw ?_
  unfold Machine.startRequested
  split
  · exact calFail refl
  · split
    · exact ite (trimFail <| setHalf refl) (ite (trimFail <| setHalf refl) (ite (setHalf refl) (trimStart <| setHalf refl)))
    · split
      · split
        · exact setChan refl
        · exact ite (cdFail refl) (cdStart refl)
      · split
        · split
          · exact calFail refl
          · split
            · exact setPort refl
            · exact refreshPortGroup <| startAttempt refl
        · split
          · exact setCdly refl
          · exact ite (cdlyStart refl) (cdlyFail refl)

def Scope.refuseRequest : Scope := join [ofRegs [.SOR_REQ], Scope.calFail]

theorem refuseRequest {m t1 reason : ℕ} (h : Frame σ s t) (hw : Scope.refuseRequest.within σ = true := by decide) : Frame σ s
    (Machine.refuseRequest m t1 reason t) := by
  refine h.lift hw ?_
  unfold Machine.refuseRequest
  exact put <| put <| calFail refl

def Scope.hookSorReq : Scope := join [ofRegs [.SOR_REQ], Scope.refuseRequest, Scope.calFail, Scope.startRequested]

theorem hookSorReq {ones old new : Word} (h : Frame σ s t) (hw : Scope.hookSorReq.within σ = true := by decide) : Frame σ s
    (Machine.hookSorReq ones old new t).2 := by
  refine h.lift hw ?_
  unfold Machine.hookSorReq
  exact iteSnd refl (ite (refuseRequest <| ite refl (setReg refl)) (ite (calFail <| ite refl (setReg refl)) (startRequested <| ite refl
      (setReg refl))))

def Scope.hookSorCtrl : Scope := join []

theorem hookSorCtrl {new : Word} (h : Frame σ s t) (hw : Scope.hookSorCtrl.within σ = true := by decide) : Frame σ s
    (Machine.hookSorCtrl new t).2 := by
  refine h.lift hw ?_
  unfold Machine.hookSorCtrl
  exact refl

def Scope.endRunsOn : Scope := join [ofRegs [.CDLY_STAT], Scope.trimRefresh, Scope.setHalf, Scope.calFail, Scope.cdFail,
    Scope.refreshAllConv, Scope.cdState, Scope.cdLeave, Scope.setPort, Scope.startAttempt, Scope.setCdly, Scope.restartSearch]

theorem endRunsOn {on : ℕ → Bool} {m : ℕ} (h : Frame σ s t) (hw : Scope.endRunsOn.within σ = true := by decide) : Frame σ s
    (Machine.endRunsOn on m t) := by
  refine h.lift hw ?_
  unfold Machine.endRunsOn
  dsimp only
  split
  · exact forBelow (fun _ _ h => (by
      split
      · exact when (fun h => calFail h) <| trimRefresh <| setHalf h
      · exact h)) refl
  · split
    · exact forList (fun _ _ h => (by
        split
        · exact ite (cdFail h) (refreshAllConv <| cdState <| cdLeave h)
        · exact h)) refl
    · split
      · exact forList (fun _ _ h => (by
          split
          · exact when (fun h => startAttempt h) <| setPort <| when (fun h => calFail h) h
          · exact h)) refl
      · split
        · exact forBelow (fun _ _ h => (by
            split
            · exact when (fun h => calFail h) <| put <| setCdly h
            · exact h)) refl
        · exact ite (forBelow (fun _ _ h => when (fun h => restartSearch h) h) refl) refl

def Scope.endRuns : Scope := Scope.endRunsOn

theorem endRuns {m : ℕ} (h : Frame σ s t) (hw : Scope.endRuns.within σ = true := by decide) : Frame σ s (Machine.endRuns m t) := by
  refine h.lift hw ?_
  unfold Machine.endRuns
  exact endRunsOn refl

def Scope.restartRuns : Scope := join [Scope.setPort, Scope.setChan]

theorem restartRuns {n : ℕ} (h : Frame σ s t) (hw : Scope.restartRuns.within σ = true := by decide) : Frame σ s (Machine.restartRuns n
    t) := by
  refine h.lift hw ?_
  unfold Machine.restartRuns
  exact forList (fun _ _ h => (by
    split
    · exact setChan h
    · exact h)) <| forList (fun _ _ h => setPort h) refl

def Scope.logNvm : Scope := Scope.log

theorem logNvm {s0 : State} (h : Frame σ s t) (hw : Scope.logNvm.within σ = true := by decide) : Frame σ s (Machine.logNvm s0 t) := by
  refine h.lift hw ?_
  unfold Machine.logNvm
  exact log refl

def Scope.refuseNvm : Scope := join [ofRegs [.NVM_STAT], Scope.logNvm]

theorem refuseNvm {code : ℕ} (h : Frame σ s t) (hw : Scope.refuseNvm.within σ = true := by decide) : Frame σ s (Machine.refuseNvm code
    t) := by
  refine h.lift hw ?_
  unfold Machine.refuseNvm
  exact logNvm <| put <| put refl

def Scope.endNvm : Scope := join [ofParts [.nvmOp], ofRegs [.NVM_CTRL_A, .NVM_STAT], Scope.logNvm]

theorem endNvm {code : ℕ} {failed : Bool} (h : Frame σ s t) (hw : Scope.endNvm.within σ = true := by decide) : Frame σ s (Machine.endNvm
    code failed t) := by
  refine h.lift hw ?_
  unfold Machine.endNvm
  exact logNvm <| when (fun h => put h) <| put <| put <| put <| put <| withNvmOp refl

def Scope.eraseCommit : Scope := join [ofParts [.nvm, .eraseCnt], ofRegs [.NVM_GEN_A, .NVM_GEN_B, .NVM_STAT]]

theorem eraseCommit {b : ℕ} (h : Frame σ s t) (hw : Scope.eraseCommit.within σ = true := by decide) : Frame σ s (Machine.eraseCommit b
    t) := by
  refine h.lift hw ?_
  unfold Machine.eraseCommit
  exact put (put (nvmEraseRange refl) (by unfold nvmValid; split <;> decide)) (by unfold nvmGen; split <;> decide)

def Scope.startNvm : Scope := join [ofParts [.nvmOp], ofRegs [.NVM_STAT], Scope.eraseCommit]

theorem startNvm {b : ℕ} {store : Option (ℕ × CalSnap)} (h : Frame σ s t) (hw : Scope.startNvm.within σ = true := by decide) : Frame σ s
    (Machine.startNvm b store t) := by
  refine h.lift hw ?_
  unfold Machine.startNvm
  exact eraseCommit <| put <| put <| withNvmOp refl

def Scope.startStore : Scope := join [Scope.refuseNvm, Scope.endNvm, Scope.startNvm]

theorem startStore (h : Frame σ s t) (hw : Scope.startStore.within σ = true := by decide) : Frame σ s (Machine.startStore t) := by
  refine h.lift hw ?_
  unfold Machine.startStore
  split
  · exact refuseNvm refl
  · exact ite (endNvm refl) (startNvm refl)

def Scope.nvmCtrlWrite : Scope := join [ofRegs [.NVM_CTRL_A], Scope.startStore, Scope.refuseNvm, Scope.startNvm]

theorem nvmCtrlWrite {v : ℕ} (h : Frame σ s t) (hw : Scope.nvmCtrlWrite.within σ = true := by decide) : Frame σ s (Machine.nvmCtrlWrite
    v t) := by
  refine h.lift hw ?_
  unfold Machine.nvmCtrlWrite
  dsimp only
  split
  · exact ite (startStore refl) (ite (setReg <| startStore refl) (setReg <| startStore refl))
  · split
    · split
      · exact ite (refuseNvm refl) (ite (setReg <| refuseNvm refl) (setReg <| refuseNvm refl))
      · exact ite (setReg <| startNvm refl) (setReg <| startNvm refl)
    · exact ite (setReg refl) (ite (setReg refl) (setReg refl))

def Scope.nvmAutoStoreS : Scope := join [ofParts [.autoDone], Scope.startStore]

theorem nvmAutoStoreS (h : Frame σ s t) (hw : Scope.nvmAutoStoreS.within σ = true := by decide) : Frame σ s (Machine.nvmAutoStoreS t) :=
    by
  refine h.lift hw ?_
  unfold Machine.nvmAutoStoreS
  exact ite (startStore <| withAutoDone refl) refl

def Scope.nvmPartial : Scope := ofParts [.freeCtr, .nvm, .eraseCnt]

theorem nvmPartial {cap : ℕ} (h : Frame σ s t) (hw : Scope.nvmPartial.within σ = true := by decide) : Frame σ s (Machine.nvmPartial cap
    t) := by
  refine h.lift hw ?_
  unfold Machine.nvmPartial
  split
  · exact refl
  ·
    dsimp only
    split
    · exact nvmEraseRange <| withFreeCtr refl
    · exact ite (nvmEraseRange <| withFreeCtr refl) (ite (nvmProgram <| nvmProgram <| withFreeCtr refl) (nvmProgram <| withFreeCtr refl))

def Scope.abandonNvm : Scope := join [Scope.endNvm, Scope.nvmPartial]

theorem abandonNvm (h : Frame σ s t) (hw : Scope.abandonNvm.within σ = true := by decide) : Frame σ s (Machine.abandonNvm t) := by
  refine h.lift hw ?_
  unfold Machine.abandonNvm
  exact when (fun h => endNvm <| nvmPartial h) refl

def Scope.nvmEnded : Scope := join [ofParts [.nvmLost], Scope.faultReport]

theorem nvmEnded {r : NvmEnd} (h : Frame σ s t) (hw : Scope.nvmEnded.within σ = true := by decide) : Frame σ s (Machine.nvmEnded r t) :=
    by
  refine h.lift hw ?_
  unfold Machine.nvmEnded
  exact ite (faultReport <| withNvmLost refl) refl

def Scope.nvmFails : Scope := join [Scope.endNvm, Scope.nvmEnded, Scope.nvmPartial]

theorem nvmFails {r : NvmEnd} (h : Frame σ s t) (hw : Scope.nvmFails.within σ = true := by decide) : Frame σ s (Machine.nvmFails r t) :=
    by
  refine h.lift hw ?_
  unfold Machine.nvmFails
  exact endNvm <| nvmEnded <| nvmPartial refl

def Scope.nvmErasePhaseDoneS : Scope := join [ofParts [.nvm, .eraseCnt], ofRegs [.NVM_STAT], Scope.nvmFails]

theorem nvmErasePhaseDoneS {r : NvmEnd} (h : Frame σ s t) (hw : Scope.nvmErasePhaseDoneS.within σ = true := by decide) : Frame σ s
    (Machine.nvmErasePhaseDoneS r t) := by
  refine h.lift hw ?_
  unfold Machine.nvmErasePhaseDoneS
  split
  · exact ite (ite (put <| nvmEraseRange refl) (nvmFails refl)) refl
  · exact refl

def Scope.nvmBodyDoneS : Scope := join [ofParts [.nvm], ofRegs [.NVM_STAT], Scope.nvmFails]

theorem nvmBodyDoneS {r : NvmEnd} (h : Frame σ s t) (hw : Scope.nvmBodyDoneS.within σ = true := by decide) : Frame σ s
    (Machine.nvmBodyDoneS r t) := by
  refine h.lift hw ?_
  unfold Machine.nvmBodyDoneS
  split
  · exact ite (ite (put <| nvmProgram <| nvmProgram refl) (nvmFails refl)) refl
  · exact refl

def Scope.nvmStoreDoneS : Scope := join [ofParts [.nvm], ofRegs [.NVM_STAT, .NVM_GEN_A, .NVM_GEN_B], Scope.nvmFails, Scope.raise,
    Scope.endNvm]

theorem nvmStoreDoneS {r : NvmEnd} (h : Frame σ s t) (hw : Scope.nvmStoreDoneS.within σ = true := by decide) : Frame σ s
    (Machine.nvmStoreDoneS r t) := by
  refine h.lift hw ?_
  unfold Machine.nvmStoreDoneS
  split
  · exact ite (ite (nvmFails refl) (raise <| endNvm <| put (put (put <| put <| nvmProgram refl) (by unfold nvmGen; split <;> decide))
        (by unfold nvmValid; split <;> decide))) refl
  · exact refl

def Scope.nvmEraseDoneS : Scope := join [ofParts [.nvm, .eraseCnt], Scope.nvmFails, Scope.endNvm]

theorem nvmEraseDoneS {r : NvmEnd} (h : Frame σ s t) (hw : Scope.nvmEraseDoneS.within σ = true := by decide) : Frame σ s
    (Machine.nvmEraseDoneS r t) := by
  refine h.lift hw ?_
  unfold Machine.nvmEraseDoneS
  split
  · exact ite refl (ite (nvmFails refl) (endNvm <| nvmEraseRange refl))
  · exact refl

def Scope.vddhMonitorLowS : Scope := ofParts [.vddhLow]

theorem vddhMonitorLowS (h : Frame σ s t) (hw : Scope.vddhMonitorLowS.within σ = true := by decide) : Frame σ s (Machine.vddhMonitorLowS
    t) := by
  refine h.lift hw ?_
  unfold Machine.vddhMonitorLowS
  exact withVddhLow refl

def Scope.dropTables : Scope := Scope.reloadTable

theorem dropTables (h : Frame σ s t) (hw : Scope.dropTables.within σ = true := by decide) : Frame σ s (Machine.dropTables t) := by
  refine h.lift hw ?_
  unfold Machine.dropTables
  exact forBelow (fun _ _ h => ite (reloadTable h) h) refl

def Scope.loadArea : Scope := join [ofParts [.preds], Scope.dropTables, Scope.setHalf, Scope.reloadTable]

theorem loadArea {base : ℕ} {bank : Bool} (h : Frame σ s t) (hw : Scope.loadArea.within σ = true := by decide) : Frame σ s
    (Machine.loadArea base bank t) := by
  refine h.lift hw ?_
  unfold Machine.loadArea
  exact forBelow (fun _ _ h => forBelow (fun _ _ h => withPreds h) h) <| ite (dropTables <| forBelow (fun _ _ h => setHalf h) refl)
      (forBelow (fun _ _ h => reloadTable h) <| forBelow (fun _ _ h => setHalf h) refl)

def Scope.loadDefaults : Scope := join [ofParts [.preds], ofRegs [.SOR_STAT], Scope.dropTables, Scope.setHalf]

theorem loadDefaults (h : Frame σ s t) (hw : Scope.loadDefaults.within σ = true := by decide) : Frame σ s (Machine.loadDefaults t) := by
  refine h.lift hw ?_
  unfold Machine.loadDefaults
  exact dropTables <| withPreds <| forBelow (fun _ _ h => setHalf h) <| put refl

def Scope.loadCalibration : Scope := join [ofParts [.calGen, .nvmLost], ofRegs [.NVM_STAT, .NVM_GEN_A, .NVM_GEN_B, .SOR_STAT],
    Scope.log, Scope.faultReport, Scope.loadDefaults, Scope.loadArea]

theorem loadCalibration {answers : Bool} (h : Frame σ s t) (hw : Scope.loadCalibration.within σ = true := by decide) : Frame σ s
    (Machine.loadCalibration answers t) := by
  refine h.lift hw ?_
  unfold Machine.loadCalibration
  dsimp only
  split
  · exact log <| faultReport <| loadDefaults <| withCalGenNvmLost refl
  · exact log <| (by
      split
      · exact put <| withCalGen <| loadArea <| put <| put <| when (fun h => put h) <| put <| put <| when (fun h => put h) <| put <| put <|
            withNvmLost refl
      · exact ite (withCalGen <| loadArea <| put <| put <| when (fun h => put h) <| put <| put <| when (fun h => put h) <| put <| put <|
            withNvmLost refl) (loadDefaults <| withCalGen <| put <| when (fun h => put h) <| put <| put <| when (fun h => put h) <| put <|
            put <| withNvmLost refl))

def Scope.msixSend : Scope := join [ofParts [.outs, .msgLast], Scope.setVec]

theorem msixSend {v : ℕ} (h : Frame σ s t) (hw : Scope.msixSend.within σ = true := by decide) : Frame σ s (Machine.msixSend v t) := by
  refine h.lift hw ?_
  unfold Machine.msixSend
  exact ite (setVec refl) (ite (emit <| withMsgLast <| setVec refl) (setVec refl))

def Scope.msixFlush : Scope := Scope.msixSend

theorem msixFlush {v : ℕ} (h : Frame σ s t) (hw : Scope.msixFlush.within σ = true := by decide) : Frame σ s (Machine.msixFlush v t) := by
  refine h.lift hw ?_
  unfold Machine.msixFlush
  exact ite (msixSend refl) refl

def Scope.msixFlushAll : Scope := Scope.msixFlush

theorem msixFlushAll (h : Frame σ s t) (hw : Scope.msixFlushAll.within σ = true := by decide) : Frame σ s (Machine.msixFlushAll t) := by
  refine h.lift hw ?_
  unfold Machine.msixFlushAll
  exact forList (fun _ _ h => msixFlush h) refl

def Scope.msixModerationEndS : Scope := Scope.msixSend

theorem msixModerationEndS {v : ℕ} (h : Frame σ s t) (hw : Scope.msixModerationEndS.within σ = true := by decide) : Frame σ s
    (Machine.msixModerationEndS v t) := by
  refine h.lift hw ?_
  unfold Machine.msixModerationEndS
  exact ite (msixSend refl) refl

def Scope.msixTableWrite : Scope := join [Scope.setVec, Scope.msixFlush]

theorem msixTableWrite {i : ℕ} {v : Word} (h : Frame σ s t) (hw : Scope.msixTableWrite.within σ = true := by decide) : Frame σ s
    (Machine.msixTableWrite i v t) := by
  refine h.lift hw ?_
  unfold Machine.msixTableWrite
  exact ite (setVec refl) (ite (setVec refl) (ite (setVec refl) (msixFlush <| setVec refl)))

def Scope.routeRaise : Scope := join [ofParts [.routedAt, .ry], Scope.msixSend]

theorem routeRaise {i : ℕ} (h : Frame σ s t) (hw : Scope.routeRaise.within σ = true := by decide) : Frame σ s (Machine.routeRaise i t)
    := by
  refine h.lift hw ?_
  unfold Machine.routeRaise
  exact ite (withRy <| when (fun h => msixSend h) <| withRoutedAt refl) (when (fun h => msixSend h) <| withRoutedAt refl)

def Scope.eventRaiseS : Scope := join [ofParts [.raising, .raises, .raiseTs], ofRegs [.EV_STAT], Scope.routeRaise]

theorem eventRaiseS (h : Frame σ s t) (hw : Scope.eventRaiseS.within σ = true := by decide) : Frame σ s (Machine.eventRaiseS t) := by
  refine h.lift hw ?_
  unfold Machine.eventRaiseS
  split
  · exact refl
  · exact ite (withRaising refl) (ite (put <| withRaisesRaiseTs <| withRaising refl) (routeRaise <| put <| withRaisesRaiseTs <|
        withRaising refl))

def Scope.hookEvRoute : Scope := join []

theorem hookEvRoute {new : Word} (h : Frame σ s t) (hw : Scope.hookEvRoute.within σ = true := by decide) : Frame σ s
    (Machine.hookEvRoute new t).2 := by
  refine h.lift hw ?_
  unfold Machine.hookEvRoute
  exact refl

def Scope.pcieResetS : Scope := join [ofParts [.cfg, .bme, .fnMask], ofRegs [.PCIE_CNT, .PCIE_STAT], Scope.raise, Scope.setOrg,
    Scope.setVec]

theorem pcieResetS (h : Frame σ s t) (hw : Scope.pcieResetS.within σ = true := by decide) : Frame σ s (Machine.pcieResetS t) := by
  refine h.lift hw ?_
  unfold Machine.pcieResetS
  exact raise <| bump <| put <| put <| put <| put <| put <| setOrg <| forList (fun _ _ h => setVec h) <| withCfgBmeFnMask refl

def Scope.pcieLinkUpS : Scope := join [ofParts [.cfg], ofRegs [.PCIE_STAT]]

theorem pcieLinkUpS {speed width : ℕ} {host : HostCfg} (h : Frame σ s t) (hw : Scope.pcieLinkUpS.within σ = true := by decide) : Frame σ
    s (Machine.pcieLinkUpS speed width host t) := by
  refine h.lift hw ?_
  unfold Machine.pcieLinkUpS
  exact ite refl (put <| put <| put <| withCfg refl)

def Scope.pcieD3hotS : Scope := ofRegs [.PCIE_STAT]

theorem pcieD3hotS (h : Frame σ s t) (hw : Scope.pcieD3hotS.within σ = true := by decide) : Frame σ s (Machine.pcieD3hotS t) := by
  refine h.lift hw ?_
  unfold Machine.pcieD3hotS
  exact ite (put refl) refl

def Scope.pcieD3hotExitS : Scope := join [ofRegs [.PCIE_STAT], Scope.msixFlushAll]

theorem pcieD3hotExitS (h : Frame σ s t) (hw : Scope.pcieD3hotExitS.within σ = true := by decide) : Frame σ s (Machine.pcieD3hotExitS t)
    := by
  refine h.lift hw ?_
  unfold Machine.pcieD3hotExitS
  exact ite (msixFlushAll <| put refl) refl

def Scope.msixUnmaskS : Scope := join [ofParts [.fnMask, .bme], Scope.msixFlush, Scope.setVec, Scope.msixFlushAll]

theorem msixUnmaskS {w : Unmask} (h : Frame σ s t) (hw : Scope.msixUnmaskS.within σ = true := by decide) : Frame σ s
    (Machine.msixUnmaskS w t) := by
  refine h.lift hw ?_
  unfold Machine.msixUnmaskS
  split
  · exact when (fun h => msixFlush <| setVec h) refl
  · exact when (fun h => msixFlushAll <| withFnMask h) refl
  · exact when (fun h => msixFlushAll <| withBme h) refl

def Scope.barRefused : Scope := join [ofRegs [.PCIE_CNT, .PCIE_STAT], Scope.raise]

theorem barRefused {f : Fld} (h : Frame σ s t) (hf : (ofRegs [f.reg]).within Scope.barRefused = true := by decide)
    (hw : Scope.barRefused.within σ = true := by decide) : Frame σ s (Machine.barRefused f t) := by
  refine h.lift hw ?_
  unfold Machine.barRefused
  exact raise <| bump <| put refl hf

def Scope.storeProgram : Scope := join [ofParts [.mem, .badWords, .ecc], ofRegs [.PCIE_STAT]]

theorem storeProgram {off : ℕ} {bs : List (Option Byte)} (h : Frame σ s t) (hw : Scope.storeProgram.within σ = true := by decide) :
    Frame σ s (Machine.storeProgram off bs t) := by
  refine h.lift hw ?_
  unfold Machine.storeProgram
  split
  · exact forList (fun _ _ h => (by
      split
      · exact ite h (store h)
      · exact h)) <| put refl
  · split
    · exact store refl
    · exact forList (fun _ _ h => (by
        split
        · exact store h
        · exact h)) refl

def Scope.programLoad : Scope := join [Scope.log, Scope.storeProgram]

theorem programLoad {o off count : ℕ} {bs : List (Option Byte)} (h : Frame σ s t) (hw : Scope.programLoad.within σ = true := by decide)
    : Frame σ s (Machine.programLoad o off count bs t) := by
  refine h.lift hw ?_
  unfold Machine.programLoad
  exact log <| storeProgram refl

def Scope.showPins : Scope := ofParts [.outs]

theorem showPins (h : Frame σ s t) (hw : Scope.showPins.within σ = true := by decide) : Frame σ s (Machine.showPins t) := by
  refine h.lift hw ?_
  unfold Machine.showPins
  exact emit refl

def Scope.lowerSel : Scope := join [ofParts [.sm], Scope.showPins]

theorem lowerSel {n : ℕ} (h : Frame σ s t) (hw : Scope.lowerSel.within σ = true := by decide) : Frame σ s (Machine.lowerSel n t) := by
  refine h.lift hw ?_
  unfold Machine.lowerSel
  exact showPins <| withSm refl

def Scope.raiseSel : Scope := join [ofParts [.sm], Scope.showPins]

theorem raiseSel (h : Frame σ s t) (hw : Scope.raiseSel.within σ = true := by decide) : Frame σ s (Machine.raiseSel t) := by
  refine h.lift hw ?_
  unfold Machine.raiseSel
  split
  · exact showPins <| withSm refl
  · exact refl

def Scope.raiseLater : Scope := ofParts [.sm]

theorem raiseLater {t1 : ℕ} (h : Frame σ s t) (hw : Scope.raiseLater.within σ = true := by decide) : Frame σ s (Machine.raiseLater t1 t)
    := by
  refine h.lift hw ?_
  unfold Machine.raiseLater
  split
  · exact withSm refl
  · exact refl

def Scope.setPins : Scope := join [ofParts [.sm], Scope.showPins]

theorem setPins {v : ℕ} (h : Frame σ s t) (hw : Scope.setPins.within σ = true := by decide) : Frame σ s (Machine.setPins v t) := by
  refine h.lift hw ?_
  unfold Machine.setPins
  exact showPins <| withSm refl

def Scope.releasePins : Scope := join [ofParts [.sm], Scope.setPins]

theorem releasePins (h : Frame σ s t) (hw : Scope.releasePins.within σ = true := by decide) : Frame σ s (Machine.releasePins t) := by
  refine h.lift hw ?_
  unfold Machine.releasePins
  exact forList (fun _ _ h => setPins <| withSm h) refl

def Scope.heldOver : Scope := ofParts [.sm]

theorem heldOver {fill : Bool} {edge : ℕ} (h : Frame σ s t) (hw : Scope.heldOver.within σ = true := by decide) : Frame σ s
    (Machine.heldOver fill edge t) := by
  refine h.lift hw ?_
  unfold Machine.heldOver
  exact withSm refl

def Scope.heldEnd : Scope := join [Scope.releasePins, Scope.heldOver]

theorem heldEnd {fill : Bool} {edge : ℕ} (h : Frame σ s t) (hw : Scope.heldEnd.within σ = true := by decide) : Frame σ s
    (Machine.heldEnd fill edge t) := by
  refine h.lift hw ?_
  unfold Machine.heldEnd
  exact releasePins <| heldOver refl

def Scope.hookSmGpio : Scope := join [ofParts [.sm], Scope.setPins]

theorem hookSmGpio {o : ℕ} {new : Word} (h : Frame σ s t) (hw : Scope.hookSmGpio.within σ = true := by decide) : Frame σ s
    (Machine.hookSmGpio o new t).2 := by
  refine h.lift hw ?_
  unfold Machine.hookSmGpio
  exact ite (setPins refl) (withSm refl)

def Scope.hookSmCmd : Scope := join [ofParts [.sm], ofRegs [.SM_STAT], Scope.raise]

theorem hookSmCmd {o : ℕ} {new : Word} (h : Frame σ s t) (hw : Scope.hookSmCmd.within σ = true := by decide) : Frame σ s
    (Machine.hookSmCmd o new t).2 := by
  refine h.lift hw ?_
  unfold Machine.hookSmCmd
  dsimp only
  split
  · exact refl
  · split
    · exact put refl
    · split
      · exact raise <| put <| put refl
      · exact withSm <| put refl

def Scope.takeSmCfg : Scope := join [ofParts [.sm, .outs], Scope.showPins]

theorem takeSmCfg (h : Frame σ s t) (hw : Scope.takeSmCfg.within σ = true := by decide) : Frame σ s (Machine.takeSmCfg t) := by
  refine h.lift hw ?_
  unfold Machine.takeSmCfg
  exact when (fun h => showPins h) <| when (fun h => emit h) <| withSm refl

def Scope.smFrameStartS : Scope := join [ofParts [.outs, .sm], Scope.lowerSel]

theorem smFrameStartS (h : Frame σ s t) (hw : Scope.smFrameStartS.within σ = true := by decide) : Frame σ s (Machine.smFrameStartS t) :=
    by
  refine h.lift hw ?_
  unfold Machine.smFrameStartS
  split
  · exact ite (emit <| withSm <| when (fun h => lowerSel h) refl) refl
  · exact refl

def Scope.xipFillStartS : Scope := join [ofParts [.outs, .sm, .xip], ofRegs [.XIP_CACHE], Scope.lowerSel]

theorem xipFillStartS (h : Frame σ s t) (hw : Scope.xipFillStartS.within σ = true := by decide) : Frame σ s (Machine.xipFillStartS t) :=
    by
  refine h.lift hw ?_
  unfold Machine.xipFillStartS
  split
  · exact ite (emit <| withSm <| withXip <| lowerSel <| bump refl) refl
  · exact refl

def Scope.xipDeliver : Scope := ofParts [.engines]

theorem xipDeliver {line : ℕ} {bs : List Byte} (h : Frame σ s t) (hw : Scope.xipDeliver.within σ = true := by decide) : Frame σ s
    (Machine.xipDeliver line bs t) := by
  refine h.lift hw ?_
  unfold Machine.xipDeliver
  exact forList (fun _ _ h => setEng h) refl

def Scope.xipRemiss : Scope := ofParts [.xip]

theorem xipRemiss {line : ℕ} (h : Frame σ s t) (hw : Scope.xipRemiss.within σ = true := by decide) : Frame σ s (Machine.xipRemiss line
    t) := by
  refine h.lift hw ?_
  unfold Machine.xipRemiss
  exact ite refl (withXip refl)

def Scope.xipFillDoneS : Scope := join [ofParts [.xip], Scope.xipRemiss, Scope.heldEnd, Scope.raiseSel, Scope.xipDeliver]

theorem xipFillDoneS {bytes : List Byte} (h : Frame σ s t) (hw : Scope.xipFillDoneS.within σ = true := by decide) : Frame σ s
    (Machine.xipFillDoneS bytes t) := by
  refine h.lift hw ?_
  unfold Machine.xipFillDoneS
  split
  · exact ite refl (ite (xipRemiss <| heldEnd <| raiseSel <| withXip refl) (xipDeliver <| withXip <| heldEnd <| raiseSel <| withXip refl))
  · exact refl

def Scope.smStop : Scope := Scope.raiseLater

theorem smStop {f : SmFrame} {t1 : ℕ} (h : Frame σ s t) (hw : Scope.smStop.within σ = true := by decide) : Frame σ s (Machine.smStop f
    t1 t).2 := by
  refine h.lift hw ?_
  unfold Machine.smStop
  exact raiseLater refl

def Scope.failLine : Scope := join [ofParts [.engines], ofRegs [.XIP_CACHE, .SM_CNT, .SM_STAT], Scope.raise]

theorem failLine {fault : ℕ → ℕ → State → State} {line : ℕ} (hf : ∀ e c {t}, Frame σ s t → Frame σ s (fault e c t))
    (h : Frame σ s t) (hw : Scope.failLine.within σ = true := by decide) : Frame σ s (Machine.failLine fault line t) :=
  have q {a : Scope} (ha : a.within Scope.failLine = true := by decide) : a.within σ = true := Scope.within_trans ha hw
  forList (fun _ _ h => hf _ _ <| setEng h q) <| raise (put (bump (put h q) q) q) q

def Scope.failFills : Scope := join [ofParts [.xip], Scope.failLine, Scope.smStop, Scope.heldEnd]

theorem failFills {fault : ℕ → ℕ → State → State} (hf : ∀ e c {t}, Frame σ s t → Frame σ s (fault e c t)) (h : Frame σ s t)
    (hw : Scope.failFills.within σ = true := by decide) : Frame σ s (Machine.failFills fault t) := by
  have q {a : Scope} (ha : a.within Scope.failFills = true := by decide) : a.within σ = true := Scope.within_trans ha hw
  refine forList (fun _ _ h => failLine hf h q) ?_
  have hstop : Frame σ s (t.xip.filling.elim t fun line =>
      Machine.heldEnd true (Machine.smStop (t.fillFrame line) t.sm.fillAt t).1 { (Machine.smStop (t.fillFrame line) t.sm.fillAt t).2 with
        xip := { (Machine.smStop (t.fillFrame line) t.sm.fillAt t).2.xip with filling := none } }) := by
    cases t.xip.filling with
    | none => exact h
    | some line => exact heldEnd (withXip (smStop h q) q) q
  exact withXip hstop q

def Scope.fillsFollow : Scope := join [Scope.failFills, Scope.handlerFault]

theorem fillsFollow (h : Frame σ s t) (hw : Scope.fillsFollow.within σ = true := by decide) : Frame σ s (Machine.fillsFollow t) := by
  refine h.lift hw ?_
  unfold Machine.fillsFollow
  exact ite refl (failFills (fun _ _ _ h => handlerFault h) refl)

def Scope.smOver : Scope := join [ofParts [.sm], ofRegs [.SM_STAT], Scope.fillsFollow, Scope.heldEnd, Scope.takeSmCfg]

theorem smOver {edge : ℕ} (h : Frame σ s t) (hw : Scope.smOver.within σ = true := by decide) : Frame σ s (Machine.smOver edge t) := by
  refine h.lift hw ?_
  unfold Machine.smOver
  exact fillsFollow <| heldEnd <| takeSmCfg <| put <| withSm refl

def Scope.smDoneS : Scope := join [ofRegs [.SM_CNT, .SM_STAT, .SM_BUF], Scope.raise, Scope.smOver, Scope.raiseSel]

theorem smDoneS {rx : List Byte} (h : Frame σ s t) (hw : Scope.smDoneS.within σ = true := by decide) : Frame σ s (Machine.smDoneS rx t)
    := by
  refine h.lift hw ?_
  unfold Machine.smDoneS
  split
  · split
    · exact ite (raise <| bump <| put <| smOver <| raiseSel <| when (fun h => forBelow (fun _ _ h => setReg h) h) refl) refl
    · exact refl
  · exact refl

def Scope.xipFillFailS : Scope := join [ofParts [.xip], Scope.failFills, Scope.handlerFault, Scope.failLine]

theorem xipFillFailS (h : Frame σ s t) (hw : Scope.xipFillFailS.within σ = true := by decide) : Frame σ s (Machine.xipFillFailS t) := by
  refine h.lift hw ?_
  unfold Machine.xipFillFailS
  split
  · exact refl
  · split
    · exact failFills (fun _ _ _ h => handlerFault h) refl
    · split
      · exact ite (failLine (fun _ _ _ h => handlerFault h) <| withXip refl) refl
      · exact refl

def Scope.hookXipCache : Scope := ofParts [.xip]

theorem hookXipCache {new : Word} (h : Frame σ s t) (hw : Scope.hookXipCache.within σ = true := by decide) : Frame σ s
    (Machine.hookXipCache new t).2 := by
  refine h.lift hw ?_
  unfold Machine.hookXipCache
  exact ite (withXip <| ite (withXip refl) refl) (ite (withXip refl) refl)

def Scope.hookSmCfg : Scope := ofRegs [.SM_STAT]

theorem hookSmCfg {new : Word} (h : Frame σ s t) (hw : Scope.hookSmCfg.within σ = true := by decide) : Frame σ s (Machine.hookSmCfg new
    t).2 := by
  refine h.lift hw ?_
  unfold Machine.hookSmCfg
  exact iteSnd (put refl) refl

def Scope.smCfgWritten : Scope := join [Scope.fillsFollow, Scope.takeSmCfg]

theorem smCfgWritten (h : Frame σ s t) (hw : Scope.smCfgWritten.within σ = true := by decide) : Frame σ s (Machine.smCfgWritten t) := by
  refine h.lift hw ?_
  unfold Machine.smCfgWritten
  exact fillsFollow <| ite refl (takeSmCfg refl)

def Scope.hookSmTime : Scope := ofRegs [.SM_STAT]

theorem hookSmTime {new : Word} (h : Frame σ s t) (hw : Scope.hookSmTime.within σ = true := by decide) : Frame σ s (Machine.hookSmTime
    new t).2 := by
  refine h.lift hw ?_
  unfold Machine.hookSmTime
  exact when (fun h => put h) refl

def Scope.warmFault : Scope := Scope.faultSeen

theorem warmFault {e code : ℕ} (h : Frame σ s t) (hw : Scope.warmFault.within σ = true := by decide) : Frame σ s (Machine.warmFault e
    code t) := by
  refine h.lift hw ?_
  unfold Machine.warmFault
  split
  · exact faultSeen refl
  · exact refl

def Scope.smWarm : Scope := join [ofParts [.xip], Scope.failFills, Scope.warmFault, Scope.smStop, Scope.smOver]

theorem smWarm (h : Frame σ s t) (hw : Scope.smWarm.within σ = true := by decide) :
    Frame σ s (Machine.smWarm t) := by
  suffices core : ∀ {s}, Frame Scope.smWarm s t → Frame Scope.smWarm s (Machine.smWarm t) from h.lift hw (core refl)
  intro s h
  have hfail : Frame Scope.smWarm s (Machine.failFills Machine.warmFault t) := failFills (fun _ _ _ h => warmFault h) h
  unfold Machine.smWarm
  dsimp only
  refine withXip ?_
  split
  · next f _ =>
      refine smOver ?_
      cases f.running with
      | none => exact hfail
      | some n => exact smStop hfail
  · exact hfail

def Scope.heldTick : Scope := Scope.heldOver

theorem heldTick (h : Frame σ s t) (hw : Scope.heldTick.within σ = true := by decide) :
    Frame σ s (Machine.heldTick t) := by
  suffices core : ∀ {s}, Frame Scope.heldTick s t → Frame Scope.heldTick s (Machine.heldTick t) from h.lift hw (core refl)
  intro s h
  have passed {fill : Bool} {edge : ℕ} {t : State} (h : Frame Scope.heldTick s t) :
      Frame Scope.heldTick s (if edge ≤ t.clock then Machine.heldOver fill edge t else t) := ite (heldOver h) h
  have frame {f : SmFrame} : Frame Scope.heldTick s (f.running.elim t fun n =>
      if n + t.lastEdge f ≤ t.clock then Machine.heldOver false (n + t.lastEdge f) t else t) := by
    cases f.running with
    | none => exact h
    | some n => exact passed h
  have fill {u : State} (h : Frame Scope.heldTick s u) : Frame Scope.heldTick s (u.xip.filling.elim u fun line =>
      if u.sm.fillAt + u.lastEdge (u.fillFrame line) ≤ u.clock then
        Machine.heldOver true (u.sm.fillAt + u.lastEdge (u.fillFrame line)) u else u) := by
    cases u.xip.filling with
    | none => exact h
    | some line => rw [Option.elim_some]; exact passed h
  refine fill ?_
  split
  · exact frame
  · exact h

def Scope.smTick : Scope := join [ofParts [.sm], Scope.releasePins, Scope.heldTick, Scope.showPins]

theorem smTick (h : Frame σ s t) (hw : Scope.smTick.within σ = true := by decide) : Frame σ s (Machine.smTick t) := by
  refine h.lift hw ?_
  unfold Machine.smTick
  exact releasePins <| heldTick <| (by
    split
    · exact ite (showPins <| withSm refl) refl
    · exact refl)

def Scope.sspCfgWritten : Scope := ofParts [.ssp]

theorem sspCfgWritten {old : Word} (h : Frame σ s t) (hw : Scope.sspCfgWritten.within σ = true := by decide) : Frame σ s
    (Machine.sspCfgWritten old t) := by
  refine h.lift hw ?_
  unfold Machine.sspCfgWritten
  exact when (fun h => withSsp h) refl

def Scope.refuseLink : Scope := join [ofRegs [.RY_STAT], Scope.logEvent, Scope.raise, Scope.setLinkState, Scope.setLnk,
    Scope.cdlyLinkLost]

theorem refuseLink {l reason : ℕ} (h : Frame σ s t) (hw : Scope.refuseLink.within σ = true := by decide) : Frame σ s (Machine.refuseLink
    l reason t) := by
  refine h.lift hw ?_
  unfold Machine.refuseLink
  exact logEvent <| raise <| setLinkState <| put <| put <| setLnk <| cdlyLinkLost refl

def Scope.sendRefusal : Scope := join [Scope.refuseLink, Scope.sendFrame]

theorem sendRefusal {l serial reason : ℕ} (h : Frame σ s t) (hw : Scope.sendRefusal.within σ = true := by decide) : Frame σ s
    (Machine.sendRefusal l serial reason t) := by
  refine h.lift hw ?_
  unfold Machine.sendRefusal
  exact refuseLink <| sendFrame refl

def Scope.refreshWorkers : Scope := ofRegs [.RY_WORKERS]

theorem refreshWorkers (h : Frame σ s t) (hw : Scope.refreshWorkers.within σ = true := by decide) : Frame σ s (Machine.refreshWorkers t)
    := by
  refine h.lift hw ?_
  unfold Machine.refreshWorkers
  exact put <| put refl

def Scope.endResend : Scope := join [ofRegs [.FWD_STAT], Scope.setFwdSt]

theorem endResend {f : ℕ} (h : Frame σ s t) (hw : Scope.endResend.within σ = true := by decide) : Frame σ s (Machine.endResend f t) := by
  refine h.lift hw ?_
  unfold Machine.endResend
  exact setFwdSt <| put refl

def Scope.stopReplay : Scope := join [ofRegs [.WT_STAT], Scope.setWt, Scope.endResend]

theorem stopReplay {w : ℕ} (h : Frame σ s t) (hw : Scope.stopReplay.within σ = true := by decide) : Frame σ s (Machine.stopReplay w t)
    := by
  refine h.lift hw ?_
  unfold Machine.stopReplay
  exact put <| setWt <| forList (fun _ _ h => endResend h) refl

def Scope.parkWorker : Scope := join [ofParts [.ry], ofRegs [.WT_STAT, .RY_RACC_CTRL], Scope.stopReplay]

theorem parkWorker {w : ℕ} (h : Frame σ s t) (hw : Scope.parkWorker.within σ = true := by decide) : Frame σ s (Machine.parkWorker w t)
    := by
  refine h.lift hw ?_
  unfold Machine.parkWorker
  exact ite (withRy <| put <| put <| stopReplay <| ite (put refl) (ite (put refl) refl)) (stopReplay <| ite (put refl) (ite (put refl)
      refl))

def Scope.parkTree : Scope := join [Scope.refreshWorkers, Scope.raise, Scope.parkWorker]

theorem parkTree {w : ℕ} (h : Frame σ s t) (hw : Scope.parkTree.within σ = true := by decide) : Frame σ s (Machine.parkTree w t) := by
  refine h.lift hw ?_
  unfold Machine.parkTree
  exact refreshWorkers <| raise <| forList (fun _ _ h => parkWorker h) refl

def Scope.takeOver : Scope := join [ofRegs [.RY_CFG], Scope.sendFrame, Scope.cdlyLinkLost, Scope.setLnk, Scope.setLinkState]

theorem takeOver (h : Frame σ s t) (hw : Scope.takeOver.within σ = true := by decide) : Frame σ s (Machine.takeOver t) := by
  refine h.lift hw ?_
  unfold Machine.takeOver
  split
  · exact refl
  · exact sendFrame <| setLinkState <| cdlyLinkLost <| setLnk <| put <| forBelow (fun _ _ h => when (fun h => setLnk h) h) refl

def Scope.orphan : Scope := join [ofParts [.tb, .ry], ofRegs [.RY_TT, .RY_GSTAT], Scope.takeOver, Scope.raise]

theorem orphan {l : ℕ} (h : Frame σ s t) (hw : Scope.orphan.within σ = true := by decide) : Frame σ s (Machine.orphan l t) := by
  refine h.lift hw ?_
  unfold Machine.orphan
  exact ite (takeOver <| withTbRy <| put <| raise <| put <| put refl) refl

def Scope.entryGone : Scope := join [Scope.refreshWorkers, Scope.parkWorker, Scope.parkTree]

theorem entryGone {w : ℕ} (h : Frame σ s t) (hw : Scope.entryGone.within σ = true := by decide) : Frame σ s (Machine.entryGone w t) := by
  refine h.lift hw ?_
  unfold Machine.entryGone
  exact ite (refreshWorkers <| parkWorker refl) (parkTree refl)

def Scope.peerGone : Scope := join [ofRegs [.RY_STAT, .RY_TT], Scope.setLinkState, Scope.setLnk, Scope.cdlyLinkLost, Scope.entryGone,
    Scope.sendTop, Scope.orphan]

theorem peerGone {l st : ℕ} {keep : Bool} (h : Frame σ s t) (hw : Scope.peerGone.within σ = true := by decide) : Frame σ s
    (Machine.peerGone l st keep t) := by
  refine h.lift hw ?_
  unfold Machine.peerGone
  exact ite (setLinkState refl) (ite (ite (forList (fun _ _ h => entryGone h) <| when (fun h => put h) <| when (fun h => cdlyLinkLost h) <|
      setLnk <| setLinkState <| when (fun h => put h) refl) (when (fun h => sendTop h) <| when (fun h => put h) <| when (fun h =>
      cdlyLinkLost h) <| setLnk <| setLinkState <| when (fun h => put h) refl)) (ite (orphan <| when (fun h => put h) <| when (fun h =>
      cdlyLinkLost h) <| setLnk <| setLinkState <| when (fun h => put h) refl) (when (fun h => put h) <| when (fun h => cdlyLinkLost h) <|
      setLnk <| setLinkState <| when (fun h => put h) refl)))

def Scope.linkDown : Scope := join [ofRegs [.RY_CNT2], Scope.setLnk, Scope.peerGone]

theorem linkDown {l : ℕ} (h : Frame σ s t) (hw : Scope.linkDown.within σ = true := by decide) : Frame σ s (Machine.linkDown l t) := by
  refine h.lift hw ?_
  unfold Machine.linkDown
  exact ite refl (setLnk <| peerGone <| bump refl)

def Scope.ryrelBlockLockLossS : Scope := Scope.linkDown

theorem ryrelBlockLockLossS {l : ℕ} (h : Frame σ s t) (hw : Scope.ryrelBlockLockLossS.within σ = true := by decide) : Frame σ s
    (Machine.ryrelBlockLockLossS l t) := by
  refine h.lift hw ?_
  unfold Machine.ryrelBlockLockLossS
  exact ite (linkDown refl) refl

def Scope.ryrelTrainedS : Scope := join [ofRegs [.RY_STAT, .RY_CFG], Scope.setLinkState, Scope.setLnk]

theorem ryrelTrainedS {l : ℕ} (h : Frame σ s t) (hw : Scope.ryrelTrainedS.within σ = true := by decide) : Frame σ s
    (Machine.ryrelTrainedS l t) := by
  refine h.lift hw ?_
  unfold Machine.ryrelTrainedS
  exact ite (ite (setLinkState <| put <| put <| setLnk refl) (setLinkState <| setLnk <| when (fun h => put h) refl)) refl

def Scope.retrain : Scope := Scope.setLinkState

theorem retrain (h : Frame σ s t) (hw : Scope.retrain.within σ = true := by decide) : Frame σ s (Machine.retrain t) := by
  refine h.lift hw ?_
  unfold Machine.retrain
  exact forList (fun _ _ h => setLinkState h) refl

def Scope.refreshTop : Scope := ofRegs [.RY_GSTAT]

theorem refreshTop (h : Frame σ s t) (hw : Scope.refreshTop.within σ = true := by decide) : Frame σ s (Machine.refreshTop t) := by
  refine h.lift hw ?_
  unfold Machine.refreshTop
  exact ite (put refl) (put <| put <| put refl)

def Scope.hookRyCfg : Scope := ofRegs [.RY_STAT]

theorem hookRyCfg {l : ℕ} {new : Word} (h : Frame σ s t) (hw : Scope.hookRyCfg.within σ = true := by decide) : Frame σ s
    (Machine.hookRyCfg l new t).2 := by
  refine h.lift hw ?_
  unfold Machine.hookRyCfg
  exact iteSnd (put refl) refl

def Scope.leaveInOrder : Scope := Scope.sendFrame

theorem leaveInOrder {l old : ℕ} (h : Frame σ s t) (hw : Scope.leaveInOrder.within σ = true := by decide) : Frame σ s
    (Machine.leaveInOrder l old t) := by
  refine h.lift hw ?_
  unfold Machine.leaveInOrder
  exact when (fun h => sendFrame h) refl

def Scope.ryCfgWritten : Scope := join [ofRegs [.RY_CFG], Scope.setLinkState, Scope.refreshTop, Scope.leaveInOrder, Scope.setLnk,
    Scope.peerGone]

theorem ryCfgWritten {l old : ℕ} (h : Frame σ s t) (hw : Scope.ryCfgWritten.within σ = true := by decide) : Frame σ s
    (Machine.ryCfgWritten l old t) := by
  refine h.lift hw ?_
  unfold Machine.ryCfgWritten
  exact ite (setLinkState <| when (fun h => refreshTop <| put <| setLnk <| peerGone <| put h) <| refreshTop <| when (fun h => setLnk h) <|
      ite (leaveInOrder refl) refl) (ite (setLinkState <| refreshTop <| when (fun h => setLnk h) <| ite (leaveInOrder refl) refl)
      (ite (setLinkState <| refreshTop <| when (fun h => setLnk h) <| ite (leaveInOrder refl) refl) (ite (refreshTop <| when (fun h =>
      setLnk h) <| ite (leaveInOrder refl) refl) (refreshTop <| put <| setLnk <| peerGone <| put <| refreshTop <| when (fun h => setLnk
      h) <| ite (leaveInOrder refl) refl))))

def Scope.receive : Scope := join [ofRegs [.RY_CNT], Scope.sendFrame, Scope.setLnk]

theorem receive {l type : ℕ} {f : RyFrame} {body : State → State} (hf : ∀ {t}, Frame σ s t → Frame σ s (body t)) (h : Frame σ s t)
    (hw : Scope.receive.within σ = true := by decide) : Frame σ s (Machine.receive l type f body t) :=
  have q {a : Scope} (ha : a.within Scope.receive = true := by decide) : a.within σ = true := Scope.within_trans ha hw
  ite h <| ite (sendFrame (bump h q) q) <| ite (bump h q) <| ite h <| ite (hf h) <| ite (sendFrame (bump h q) q) (when hf <| setLnk h q)

def Scope.lackSendS : Scope := Scope.sendFrame

theorem lackSendS {l : ℕ} (h : Frame σ s t) (hw : Scope.lackSendS.within σ = true := by decide) : Frame σ s (Machine.lackSendS l t) := by
  refine h.lift hw ?_
  unfold Machine.lackSendS
  exact ite (sendFrame refl) refl

def Scope.rxLackS : Scope := join [Scope.receive, Scope.setLnk]

theorem rxLackS {l : ℕ} {f : RyFrame} (h : Frame σ s t) (hw : Scope.rxLackS.within σ = true := by decide) : Frame σ s (Machine.rxLackS l
    f t) := by
  refine h.lift hw ?_
  unfold Machine.rxLackS
  exact receive (fun h => setLnk h) refl

def Scope.rxLnakS : Scope := join [ofParts [.outs], ofRegs [.RY_CNT], Scope.receive, Scope.setLnk]

theorem rxLnakS {l : ℕ} {f : RyFrame} (h : Frame σ s t) (hw : Scope.rxLnakS.within σ = true := by decide) : Frame σ s (Machine.rxLnakS l
    f t) := by
  refine h.lift hw ?_
  unfold Machine.rxLnakS
  exact receive (fun h => forList (fun _ _ h => emit h) <| bump <| setLnk h) refl

def Scope.reliableAckTimeoutS : Scope := Scope.linkDown

theorem reliableAckTimeoutS {l : ℕ} (h : Frame σ s t) (hw : Scope.reliableAckTimeoutS.within σ = true := by decide) : Frame σ s
    (Machine.reliableAckTimeoutS l t) := by
  refine h.lift hw ?_
  unfold Machine.reliableAckTimeoutS
  split
  · exact ite (linkDown refl) refl
  · exact refl

def Scope.dropEvent : Scope := ofRegs [.RY_CNT]

theorem dropEvent (h : Frame σ s t) (hw : Scope.dropEvent.within σ = true := by decide) : Frame σ s (Machine.dropEvent t) := by
  refine h.lift hw ?_
  unfold Machine.dropEvent
  split
  · exact refl
  · split
    · exact bump refl
    · exact refl

def Scope.relay : Scope := join [Scope.dropEvent, Scope.sendFrom]

theorem relay {type : ℕ} {f : RyFrame} (h : Frame σ s t) (hw : Scope.relay.within σ = true := by decide) : Frame σ s (Machine.relay type
    f t) := by
  refine h.lift hw ?_
  unfold Machine.relay
  dsimp only
  split
  · split
    · exact ite (dropEvent refl) (sendFrom refl)
    · exact ite (dropEvent refl) refl
  · split
    · exact sendFrom refl
    · exact refl

def Scope.routed : Scope := Scope.relay

theorem routed {type : ℕ} {f : RyFrame} {body : State → State} (hf : ∀ {t}, Frame σ s t → Frame σ s (body t)) (h : Frame σ s t)
    (hw : Scope.routed.within σ = true := by decide) : Frame σ s (Machine.routed type f body t) := ite (hf h) (relay h hw)

def Scope.enterTime : Scope := join [ofParts [.ry], ofRegs [.RY_TT], Scope.setLinkState, Scope.setLnk]

theorem enterTime {l : ℕ} (h : Frame σ s t) (hw : Scope.enterTime.within σ = true := by decide) : Frame σ s (Machine.enterTime l t) := by
  refine h.lift hw ?_
  unfold Machine.enterTime
  exact ite (ite (put <| setLinkState refl) (withRy <| put <| setLinkState refl)) (setLnk <| setLinkState refl)

def Scope.workerDelayKnown : Scope := ofParts [.freeCtr]

theorem workerDelayKnown {l : ℕ} (h : Frame σ s t) (hw : Scope.workerDelayKnown.within σ = true := by decide) : Frame σ s
    (Machine.workerDelayKnown l t).2 := by
  refine h.lift hw ?_
  unfold Machine.workerDelayKnown
  exact iteSnd (withFreeCtr refl) refl

def Scope.linkAdmitted : Scope := join [Scope.setLinkState, Scope.setLnk, Scope.workerDelayKnown, Scope.enterTime, Scope.cdlyStart]

theorem linkAdmitted {l : ℕ} {final : Bool} (h : Frame σ s t) (hw : Scope.linkAdmitted.within σ = true := by decide) : Frame σ s
    (Machine.linkAdmitted l final t) := by
  refine h.lift hw ?_
  unfold Machine.linkAdmitted
  exact ite (setLinkState <| setLnk refl) (ite (enterTime <| workerDelayKnown <| setLnk refl) (ite (cdlyStart <| setLinkState <|
      workerDelayKnown <| setLnk refl) (setLinkState <| workerDelayKnown <| setLnk refl)))

def Scope.sendAdmit : Scope := join [ofRegs [.RY_STAT], Scope.sendFrame, Scope.linkAdmitted]

theorem sendAdmit {w : ℕ} {final : Bool} (h : Frame σ s t) (hw : Scope.sendAdmit.within σ = true := by decide) : Frame σ s
    (Machine.sendAdmit w final t) := by
  refine h.lift hw ?_
  unfold Machine.sendAdmit
  exact ite (linkAdmitted <| put <| put <| sendFrame refl) (sendFrame refl)

def Scope.refuseCandidate : Scope := join [Scope.sendRefusal, Scope.sendFrame]

theorem refuseCandidate {l serial reason : ℕ} {direct : Bool} (h : Frame σ s t) (hw : Scope.refuseCandidate.within σ = true
    := by decide) : Frame σ s (Machine.refuseCandidate l serial reason direct t) := by
  refine h.lift hw ?_
  unfold Machine.refuseCandidate
  exact ite (sendRefusal refl) (sendFrame refl)

def Scope.handleJoin : Scope := join [ofParts [.wide], ofRegs [.WT_STAT], Scope.refuseCandidate, Scope.refreshWorkers, Scope.setWt,
    Scope.sendAdmit, Scope.parkTree]

theorem handleJoin {l src : ℕ} {p : List Byte} (h : Frame σ s t) (hw : Scope.handleJoin.within σ = true := by decide) :
    Frame σ s (Machine.handleJoin l src p t) := by
  suffices core : ∀ {s}, Frame Scope.handleJoin s t → Frame Scope.handleJoin s (Machine.handleJoin l src p t) from h.lift hw (core refl)
  intro s h
  unfold Machine.handleJoin
  refine ite (refuseCandidate h) ?_
  split
  · exact ite (refuseCandidate h) <| ite (refreshWorkers <| setWt <| setWide <| put <| put <| put <| put h)
      (sendAdmit <| refreshWorkers <| setWt <| setWide <| put <| put <| put <| put <| when parkTree h)
  · split
    · exact refuseCandidate h
    · exact ite (refreshWorkers <| setWt <| setWide <| put <| put <| put <| put h)
        (sendAdmit <| refreshWorkers <| setWt <| setWide <| put <| put <| put <| put h)

def Scope.noteCandidate : Scope := Scope.setLnk

theorem noteCandidate {l serial : ℕ} (h : Frame σ s t) (hw : Scope.noteCandidate.within σ = true := by decide) : Frame σ s
    (Machine.noteCandidate l serial t) := by
  refine h.lift hw ?_
  unfold Machine.noteCandidate
  exact forBelow (fun _ _ h => setLnk h) refl

def Scope.joinFor : Scope := join [ofRegs [.RY_STAT], Scope.setLinkState, Scope.setLnk, Scope.handleJoin, Scope.sendTop,
    Scope.noteCandidate]

theorem joinFor {l : ℕ} {hello : List Byte} (h : Frame σ s t) (hw : Scope.joinFor.within σ = true := by decide) : Frame σ s
    (Machine.joinFor l hello t) := by
  refine h.lift hw ?_
  unfold Machine.joinFor
  exact ite (handleJoin <| put <| setLinkState <| setLnk refl) (sendTop <| noteCandidate <| put <| setLinkState <| setLnk refl)

def Scope.rxHelloS : Scope := join [ofParts [.wide], ofRegs [.RY_STAT], Scope.receive, Scope.setLinkState, Scope.setLnk,
    Scope.sendRefusal, Scope.joinFor]

theorem rxHelloS {l : ℕ} {f : RyFrame} (h : Frame σ s t) (hw : Scope.rxHelloS.within σ = true := by decide) : Frame σ s
    (Machine.rxHelloS l f t) := by
  refine h.lift hw ?_
  unfold Machine.rxHelloS
  exact receive (fun h => ite h (ite (ite (setLinkState <| setLnk <| put <| setWide h) (setLnk <| put <| setWide h)) ((by
    split
    · exact sendRefusal <| ite (setLinkState <| setLnk <| put <| setWide h) (setLnk <| put <| setWide h)
    · exact ite (setLinkState <| setLnk <| ite (setLinkState <| setLnk <| put <| setWide h) (setLnk <| put <| setWide h)) (ite
          (setLinkState <| setLnk <| ite (setLinkState <| setLnk <| put <| setWide h) (setLnk <| put <| setWide h)) (joinFor <| ite
          (setLinkState <| setLnk <| put <| setWide h) (setLnk <| put <| setWide h))))))) refl

def Scope.helloSendS : Scope := join [Scope.sendFrame, Scope.setLinkState, Scope.setLnk]

theorem helloSendS {l : ℕ} (h : Frame σ s t) (hw : Scope.helloSendS.within σ = true := by decide) : Frame σ s (Machine.helloSendS l t)
    := by
  refine h.lift hw ?_
  unfold Machine.helloSendS
  exact ite (sendFrame <| setLnk <| ite (setLinkState refl) refl) refl

def Scope.rxJoinS : Scope := join [Scope.receive, Scope.joinFor, Scope.handleJoin, Scope.relay, Scope.noteCandidate]

theorem rxJoinS {l : ℕ} {f : RyFrame} (h : Frame σ s t) (hw : Scope.rxJoinS.within σ = true := by decide) : Frame σ s (Machine.rxJoinS l
    f t) := by
  refine h.lift hw ?_
  unfold Machine.rxJoinS
  exact receive (fun h => ite (ite (joinFor h) h) (ite (handleJoin h) (relay <| noteCandidate h))) refl

def Scope.workerAdmitted : Scope := join [ofRegs [.RY_GSTAT], Scope.joinFor, Scope.linkAdmitted, Scope.raise, Scope.sendDone]

theorem workerAdmitted {l : ℕ} (h : Frame σ s t) (hw : Scope.workerAdmitted.within σ = true := by decide) : Frame σ s
    (Machine.workerAdmitted l t) := by
  refine h.lift hw ?_
  unfold Machine.workerAdmitted
  exact forBelow (fun _ _ h => when (fun h => joinFor h) h) <| forList (fun _ _ h => sendDone h) <| linkAdmitted <| raise <| put <| put
      refl

def Scope.dropCandidate : Scope := join [ofRegs [.WT_STAT], Scope.refreshWorkers]

theorem dropCandidate {w : ℕ} (h : Frame σ s t) (hw : Scope.dropCandidate.within σ = true := by decide) : Frame σ s
    (Machine.dropCandidate w t) := by
  refine h.lift hw ?_
  unfold Machine.dropCandidate
  exact ite (refreshWorkers <| put refl) refl

def Scope.joinOver : Scope := join [Scope.dropCandidate, Scope.sendFrame]

theorem joinOver {serial reason : ℕ} (h : Frame σ s t) (hw : Scope.joinOver.within σ = true := by decide) :
    Frame σ s (Machine.joinOver serial reason t) := by
  suffices core : ∀ {s}, Frame Scope.joinOver s t → Frame Scope.joinOver s (Machine.joinOver serial reason t) from h.lift hw (core refl)
  intro s h
  refine ite ?_ ?_
  · cases t.workerOf serial with
    | none => exact h
    | some w => exact dropCandidate h
  · cases t.upLink with
    | none => exact h
    | some k => exact sendFrame h

def Scope.relayAdmit : Scope := join [ofRegs [.RY_STAT], Scope.linkAdmitted, Scope.joinOver]

theorem relayAdmit {k serial w lv : ℕ} {final : Bool} (h : Frame σ s t) (hw : Scope.relayAdmit.within σ = true := by decide) : Frame σ s
    (Machine.relayAdmit k serial w lv final t) := by
  refine h.lift hw ?_
  unfold Machine.relayAdmit
  exact ite (linkAdmitted <| put <| put refl) (joinOver refl)

def Scope.rxAdmitS : Scope := join [ofParts [.ry], ofRegs [.RY_GSTAT], Scope.receive, Scope.workerAdmitted, Scope.setLnk,
    Scope.linkAdmitted, Scope.sendFrom, Scope.relayAdmit]

theorem rxAdmitS {l : ℕ} {f : RyFrame} (h : Frame σ s t) (hw : Scope.rxAdmitS.within σ = true := by decide) : Frame σ s
    (Machine.rxAdmitS l f t) := by
  refine h.lift hw ?_
  unfold Machine.rxAdmitS
  exact receive (fun h => ite h (ite (ite h (ite (workerAdmitted <| setLnk <| put <| put h) (linkAdmitted <| setLnk <| put <| put h)))
      ((by
    split
    · exact ite (relayAdmit <| sendFrom <| withRy h) (sendFrom <| withRy h)
    · exact h)))) refl

def Scope.rxRefuseS : Scope := join [Scope.receive, Scope.refuseLink, Scope.joinOver, Scope.sendFrom]

theorem rxRefuseS {l : ℕ} {f : RyFrame} (h : Frame σ s t) (hw : Scope.rxRefuseS.within σ = true := by decide) : Frame σ s
    (Machine.rxRefuseS l f t) := by
  refine h.lift hw ?_
  unfold Machine.rxRefuseS
  exact receive (fun h => ite (refuseLink h) (ite (when (fun h => refuseLink h) <| joinOver h) ((by
    split
    · exact when (fun h => refuseLink h) <| sendFrom h
    · exact h)))) refl

def Scope.refuseRetryTimerS : Scope := join [Scope.setLinkState, Scope.setLnk]

theorem refuseRetryTimerS {l : ℕ} (h : Frame σ s t) (hw : Scope.refuseRetryTimerS.within σ = true := by decide) : Frame σ s
    (Machine.refuseRetryTimerS l t) := by
  refine h.lift hw ?_
  unfold Machine.refuseRetryTimerS
  split
  · exact ite (setLinkState <| setLnk refl) refl
  · exact refl

def Scope.endJoin : Scope := join [Scope.joinOver, Scope.sendRefusal]

theorem endJoin {l reason : ℕ} (h : Frame σ s t) (hw : Scope.endJoin.within σ = true := by decide) : Frame σ s (Machine.endJoin l reason
    t) := by
  refine h.lift hw ?_
  unfold Machine.endJoin
  exact ite (joinOver <| sendRefusal refl) (sendRefusal refl)

def Scope.joinTimeoutS : Scope := Scope.endJoin

theorem joinTimeoutS {l : ℕ} (h : Frame σ s t) (hw : Scope.joinTimeoutS.within σ = true := by decide) : Frame σ s (Machine.joinTimeoutS
    l t) := by
  refine h.lift hw ?_
  unfold Machine.joinTimeoutS
  split
  · exact ite (endJoin refl) refl
  · exact refl

def Scope.cdlyEnded : Scope := join [Scope.enterTime, Scope.endJoin]

theorem cdlyEnded {l : ℕ} (h : Frame σ s t) (hw : Scope.cdlyEnded.within σ = true := by decide) : Frame σ s (Machine.cdlyEnded l t) := by
  refine h.lift hw ?_
  unfold Machine.cdlyEnded
  exact ite refl (ite (enterTime refl) (endJoin refl))

def Scope.hbSendS : Scope := join [Scope.sendFrame, Scope.setLnk]

theorem hbSendS {l : ℕ} (h : Frame σ s t) (hw : Scope.hbSendS.within σ = true := by decide) : Frame σ s (Machine.hbSendS l t) := by
  refine h.lift hw ?_
  unfold Machine.hbSendS
  exact ite (sendFrame <| setLnk refl) refl

def Scope.rxHbS : Scope := join [ofRegs [.RY_STAT], Scope.receive, Scope.setLnk, Scope.peerGone]

theorem rxHbS {l : ℕ} {f : RyFrame} (h : Frame σ s t) (hw : Scope.rxHbS.within σ = true := by decide) : Frame σ s (Machine.rxHbS l f t)
    := by
  refine h.lift hw ?_
  unfold Machine.rxHbS
  exact receive (fun h => ite (when (fun h => put h) <| setLnk h) (ite (peerGone <| when (fun h => put h) <| setLnk h) (when (fun h =>
      put h) <| setLnk h))) refl

def Scope.hbMissS : Scope := join [ofRegs [.RY_STAT, .RY_CNT2], Scope.setLnk, Scope.peerGone]

theorem hbMissS {l : ℕ} (h : Frame σ s t) (hw : Scope.hbMissS.within σ = true := by decide) : Frame σ s (Machine.hbMissS l t) := by
  refine h.lift hw ?_
  unfold Machine.hbMissS
  exact ite (ite (peerGone <| setLnk <| put <| bump refl) (setLnk <| put <| bump refl)) refl

def Scope.rxLeaveS : Scope := join [Scope.receive, Scope.peerGone, Scope.parkTree, Scope.relay, Scope.refuseLink]

theorem rxLeaveS {l : ℕ} {f : RyFrame} (h : Frame σ s t) (hw : Scope.rxLeaveS.within σ = true := by decide) : Frame σ s
    (Machine.rxLeaveS l f t) := by
  refine h.lift hw ?_
  unfold Machine.rxLeaveS
  exact receive (fun h => ite (ite (peerGone h) (ite (when (fun h => parkTree h) h) (relay h))) (ite (when (fun h => refuseLink h) <|
      peerGone h) ((by
    dsimp only
    split
    · exact when (fun h => refuseLink h) <| relay h
    · exact relay h)))) refl

def Scope.rxCdlossS : Scope := join [Scope.receive, Scope.peerGone]

theorem rxCdlossS {l : ℕ} {f : RyFrame} (h : Frame σ s t) (hw : Scope.rxCdlossS.within σ = true := by decide) : Frame σ s
    (Machine.rxCdlossS l f t) := by
  refine h.lift hw ?_
  unfold Machine.rxCdlossS
  exact receive (fun h => ite (peerGone h) h) refl

def Scope.applyEpochMsg : Scope := ofParts [.tb, .ry]

theorem applyEpochMsg (h : Frame σ s t) (hw : Scope.applyEpochMsg.within σ = true := by decide) : Frame σ s (Machine.applyEpochMsg t) :=
    by
  refine h.lift hw ?_
  unfold Machine.applyEpochMsg
  split
  · exact ite (withTbRy refl) refl
  · exact refl

def Scope.tryArm : Scope := join [ofParts [.ry], Scope.applyEpochMsg, Scope.log, Scope.epochCtrlWrite]

theorem tryArm {l : ℕ} (h : Frame σ s t) (hw : Scope.tryArm.within σ = true := by decide) : Frame σ s (Machine.tryArm l t) := by
  refine h.lift hw ?_
  unfold Machine.tryArm
  exact ite (withRy refl) (applyEpochMsg <| withRy <| log <| epochCtrlWrite refl)

def Scope.epochArmRetryS : Scope := Scope.tryArm

theorem epochArmRetryS (h : Frame σ s t) (hw : Scope.epochArmRetryS.within σ = true := by decide) : Frame σ s (Machine.epochArmRetryS t)
    := by
  refine h.lift hw ?_
  unfold Machine.epochArmRetryS
  split
  · exact ite (tryArm refl) refl
  · exact refl

def Scope.rxEpochS : Scope := join [ofParts [.ry], Scope.receive, Scope.tryArm, Scope.setLnk, Scope.applyEpochMsg]

theorem rxEpochS {l : ℕ} {f : RyFrame} (h : Frame σ s t) (hw : Scope.rxEpochS.within σ = true := by decide) : Frame σ s
    (Machine.rxEpochS l f t) := by
  refine h.lift hw ?_
  unfold Machine.rxEpochS
  exact receive (fun h => (by
    dsimp only
    split
    · exact h
    · exact ite (tryArm <| when (fun h => setLnk h) <| withRy h) (applyEpochMsg <| withRy h))) refl

def Scope.sendEpoch : Scope := join [Scope.sendFrame, Scope.setLnk]

theorem sendEpoch {l : ℕ} (h : Frame σ s t) (hw : Scope.sendEpoch.within σ = true := by decide) : Frame σ s (Machine.sendEpoch l t) := by
  refine h.lift hw ?_
  unfold Machine.sendEpoch
  dsimp only
  split
  · exact ite (sendFrame <| setLnk refl) refl
  · exact refl

def Scope.clearStamps : Scope := join [ofParts [.ry], Scope.setLnk]

theorem clearStamps (h : Frame σ s t) (hw : Scope.clearStamps.within σ = true := by decide) : Frame σ s (Machine.clearStamps t) := by
  refine h.lift hw ?_
  unfold Machine.clearStamps
  exact forBelow (fun _ _ h => setLnk h) <| withRy refl

def Scope.epochToAll : Scope := Scope.setLnk

theorem epochToAll (h : Frame σ s t) (hw : Scope.epochToAll.within σ = true := by decide) : Frame σ s (Machine.epochToAll t) := by
  refine h.lift hw ?_
  unfold Machine.epochToAll
  exact forBelow (fun _ _ h => ite (setLnk h) h) refl

def Scope.afterEpochLoad : Scope := join [ofParts [.ry], ofRegs [.RY_TT, .RY_WORKERS], Scope.clearStamps, Scope.epochToAll,
    Scope.requestSlew, Scope.setLnk]

theorem afterEpochLoad (h : Frame σ s t) (hw : Scope.afterEpochLoad.within σ = true := by decide) : Frame σ s (Machine.afterEpochLoad t)
    := by
  refine h.lift hw ?_
  unfold Machine.afterEpochLoad
  dsimp only
  split
  · exact epochToAll <| withRy <| requestSlew <| setLnk <| put <| put <| clearStamps refl
  · exact ite (epochToAll <| bump <| clearStamps refl) (clearStamps refl)

def Scope.ttSendS : Scope := join [Scope.sendFrame, Scope.setLnk]

theorem ttSendS {l frac : ℕ} (h : Frame σ s t) (hw : Scope.ttSendS.within σ = true := by decide) : Frame σ s (Machine.ttSendS l frac t)
    := by
  refine h.lift hw ?_
  unfold Machine.ttSendS
  exact ite (sendFrame <| setLnk refl) refl

def Scope.exchange : Scope := join [Scope.setLnk, Scope.cdlyEnded, Scope.cdlySample]

theorem exchange {l t1 t2 t3 t4 : ℕ} (h : Frame σ s t) (hw : Scope.exchange.within σ = true := by decide) : Frame σ s (Machine.exchange
    l t1 t2 t3 t4 t) := by
  refine h.lift hw ?_
  unfold Machine.exchange
  exact ite (setLnk refl) (cdlyEnded <| cdlySample <| setLnk refl)

def Scope.ttWorker : Scope := join [Scope.exchange, Scope.setLnk]

theorem ttWorker {l k j dep arr ta : ℕ} (h : Frame σ s t) (hw : Scope.ttWorker.within σ = true := by decide) : Frame σ s
    (Machine.ttWorker l k j dep arr ta t) := by
  refine h.lift hw ?_
  unfold Machine.ttWorker
  dsimp only
  split
  · exact exchange <| setLnk refl
  · exact setLnk refl

def Scope.ttManager : Scope := join [Scope.sendEpoch, Scope.exchange, Scope.setLnk]

theorem ttManager {l k j dep arr ta : ℕ} (h : Frame σ s t) (hw : Scope.ttManager.within σ = true := by decide) : Frame σ s
    (Machine.ttManager l k j dep arr ta t) := by
  refine h.lift hw ?_
  unfold Machine.ttManager
  exact sendEpoch <| (by
    split
    · exact exchange <| setLnk refl
    · exact setLnk refl)

def Scope.rxTtS : Scope := join [Scope.receive, Scope.setLnk, Scope.ttManager, Scope.ttWorker]

theorem rxTtS {l : ℕ} {f : RyFrame} {frac : ℕ} (h : Frame σ s t) (hw : Scope.rxTtS.within σ = true := by decide) :
    Frame σ s (Machine.rxTtS l f frac t) := by
  suffices core : ∀ {s}, Frame Scope.rxTtS s t → Frame Scope.rxTtS s (Machine.rxTtS l f frac t) from h.lift hw (core refl)
  intro s h
  have go {b : Prop} [Decidable b] {k j t1 t2 ta : ℕ} {t : State} (h : Frame Scope.rxTtS s t) :
      Frame Scope.rxTtS s ((if b then Machine.ttManager else Machine.ttWorker) l k j t1 t2 ta t) := by
    split
    · exact ttManager h
    · exact ttWorker h
  exact receive (fun h => ite (go <| setLnk h) h) h

def Scope.sendReady : Scope := join [Scope.sendFrame, Scope.setLnk]

theorem sendReady {l : ℕ} (h : Frame σ s t) (hw : Scope.sendReady.within σ = true := by decide) : Frame σ s (Machine.sendReady l t) := by
  refine h.lift hw ?_
  unfold Machine.sendReady
  exact ite (sendFrame <| setLnk refl) refl

def Scope.judgeLock : Scope := join [ofRegs [.RY_TT], Scope.setLnk, Scope.raise]

theorem judgeLock {l : ℕ} {sum : ℤ} {n : ℕ} (h : Frame σ s t) (hw : Scope.judgeLock.within σ = true := by decide) : Frame σ s
    (Machine.judgeLock l sum n t) := by
  refine h.lift hw ?_
  unfold Machine.judgeLock
  exact ite (ite (raise <| put <| put <| setLnk refl) (setLnk refl)) (ite (put <| setLnk refl) (setLnk refl))

def Scope.servo : Scope := join [ofRegs [.RY_TT], Scope.judgeLock, Scope.tryArm, Scope.sendReady, Scope.requestSlew, Scope.setLnk]

theorem servo {l : ℕ} {sum : ℤ} {n : ℕ} (h : Frame σ s t) (hw : Scope.servo.within σ = true := by decide) : Frame σ s (Machine.servo l
    sum n t) := by
  refine h.lift hw ?_
  unfold Machine.servo
  exact ite (judgeLock refl) (ite (tryArm <| put <| judgeLock refl) (ite (tryArm <| judgeLock refl) (sendReady <| requestSlew <| when
      (fun h => put h) <| setLnk <| judgeLock refl)))

def Scope.servoPeriodEndS : Scope := join [ofParts [.wide], Scope.setLnk, Scope.servo]

theorem servoPeriodEndS {l : ℕ} (h : Frame σ s t) (hw : Scope.servoPeriodEndS.within σ = true := by decide) : Frame σ s
    (Machine.servoPeriodEndS l t) := by
  refine h.lift hw ?_
  unfold Machine.servoPeriodEndS
  exact ite refl (ite (setLnk <| setWide <| setWide refl) (ite (servo <| setLnk <| setWide <| setWide refl) (ite (setLnk <| setLnk <|
      setWide <| setWide refl) (setLnk <| setWide <| setWide refl))))

def Scope.refreshMirror : Scope := ofRegs [.WT_STAT, .FWD_STAT, .RY_GSTAT]

theorem refreshMirror {f w : ℕ} (h : Frame σ s t) (hw : Scope.refreshMirror.within σ = true := by decide) : Frame σ s
    (Machine.refreshMirror f w t) := by
  refine h.lift hw ?_
  unfold Machine.refreshMirror
  exact put <| put <| put refl

def Scope.setMirror : Scope := join [ofParts [.ry, .mem, .badWords, .ecc], Scope.refreshMirror]

theorem setMirror {i : ℕ} {m : Mirror} (h : Frame σ s t) (hw : Scope.setMirror.within σ = true := by decide) : Frame σ s
    (Machine.setMirror i m t) := by
  refine h.lift hw ?_
  unfold Machine.setMirror
  exact refreshMirror <| ite (withRy refl) (store <| withRy refl)

def Scope.updateMirror : Scope := join [ofRegs [.WT_STAT], Scope.setMirror, Scope.sramMeets, Scope.sramFix]

theorem updateMirror {i : ℕ} {m : Mirror} (h : Frame σ s t) (hw : Scope.updateMirror.within σ = true := by decide) : Frame σ s
    (Machine.updateMirror i m t) := by
  refine h.lift hw ?_
  unfold Machine.updateMirror
  exact ite (setMirror <| put <| sramMeets refl) (setMirror <| sramFix refl)

def Scope.leaveReplay : Scope := join [ofRegs [.WT_STAT], Scope.setWt]

theorem leaveReplay {i w : ℕ} (h : Frame σ s t) (hw : Scope.leaveReplay.within σ = true := by decide) : Frame σ s (Machine.leaveReplay i
    w t) := by
  refine h.lift hw ?_
  unfold Machine.leaveReplay
  exact ite (when (fun h => put h) <| setWt refl) refl

def Scope.freeMirror : Scope := join [ofParts [.ry, .mem, .badWords, .ecc], Scope.refreshMirror, Scope.leaveReplay]

theorem freeMirror {i : ℕ} (h : Frame σ s t) (hw : Scope.freeMirror.within σ = true := by decide) : Frame σ s (Machine.freeMirror i t)
    := by
  refine h.lift hw ?_
  unfold Machine.freeMirror
  split
  · exact refl
  · exact refreshMirror <| ite (withRy <| leaveReplay refl) (store <| withRy <| leaveReplay refl)

def Scope.remoteRecord : Scope := join [ofRegs [.QM_CNT], Scope.raise, Scope.acceptItem]

theorem remoteRecord {f : ℕ} {body : List Dword} (h : Frame σ s t) (hw : Scope.remoteRecord.within σ = true := by decide) : Frame σ s
    (Machine.remoteRecord f body t).2 := by
  refine h.lift hw ?_
  unfold Machine.remoteRecord
  exact iteSnd (raise <| bump refl) (iteSnd refl (acceptItem refl))

def Scope.endMirror : Scope := join [Scope.freeMirror, Scope.updateMirror, Scope.remoteRecord]

theorem endMirror {i status : ℕ} (h : Frame σ s t) (hw : Scope.endMirror.within σ = true := by decide) : Frame σ s (Machine.endMirror i
    status t) := by
  refine h.lift hw ?_
  unfold Machine.endMirror
  split
  · exact refl
  · exact ite (ite (freeMirror refl) (updateMirror refl)) (ite (freeMirror <| remoteRecord refl) (updateMirror <| remoteRecord refl))

def Scope.sendDoneAck : Scope := Scope.sendWorker

theorem sendDoneAck {w rq mseq : ℕ} (h : Frame σ s t) (hw : Scope.sendDoneAck.within σ = true := by decide) : Frame σ s
    (Machine.sendDoneAck w rq mseq t) := by
  refine h.lift hw ?_
  unfold Machine.sendDoneAck
  exact sendWorker refl

def Scope.mirrorRetireS : Scope := join [Scope.remoteRecord, Scope.freeMirror, Scope.updateMirror, Scope.sendDoneAck]

theorem mirrorRetireS {i : ℕ} (h : Frame σ s t) (hw : Scope.mirrorRetireS.within σ = true := by decide) : Frame σ s
    (Machine.mirrorRetireS i t) := by
  refine h.lift hw ?_
  unfold Machine.mirrorRetireS
  split
  · exact refl
  · split
    · exact refl
    · split
      · exact ite (remoteRecord refl) (when (fun h => sendDoneAck h) <| ite (freeMirror <| remoteRecord refl) (updateMirror <|
            remoteRecord refl))
      · exact ite (freeMirror refl) refl

def Scope.sendSubmit : Scope := Scope.sendWorker

theorem sendSubmit {m : Mirror} (h : Frame σ s t) (hw : Scope.sendSubmit.within σ = true := by decide) : Frame σ s (Machine.sendSubmit m
    t) := by
  refine h.lift hw ?_
  unfold Machine.sendSubmit
  exact sendWorker refl

def Scope.sendResync : Scope := Scope.sendWorker

theorem sendResync {f floor : ℕ} (h : Frame σ s t) (hw : Scope.sendResync.within σ = true := by decide) : Frame σ s (Machine.sendResync
    f floor t) := by
  refine h.lift hw ?_
  unfold Machine.sendResync
  exact sendWorker refl

def Scope.forwarderTakeS : Scope := join [ofRegs [.RY_GSTAT], Scope.raise, Scope.sendSubmit, Scope.setMirror, Scope.itemCompleteS,
    Scope.editItem, Scope.readEntries, Scope.sendResync, Scope.setFwdSt]

theorem forwarderTakeS {f : ℕ} (h : Frame σ s t) (hw : Scope.forwarderTakeS.within σ = true := by decide) : Frame σ s
    (Machine.forwarderTakeS f t) := by
  refine h.lift hw ?_
  unfold Machine.forwarderTakeS
  dsimp only
  split
  · exact refl
  · split
    · exact refl
    · split
      · exact ite refl (raise <| put refl)
      · exact sendSubmit <| ite (sendResync <| setFwdSt <| setMirror <| itemCompleteS <| editItem <| readEntries refl) (setMirror <|
            itemCompleteS <| editItem <| readEntries refl)

def Scope.submitRemote : Scope := join [Scope.submitBytes, Scope.editItem, Scope.setMm]

theorem submitRemote {l q mseq : ℕ} {force : Bool} {bs : List Byte} (h : Frame σ s t) (hw : Scope.submitRemote.within σ = true
    := by decide) : Frame σ s (Machine.submitRemote l q mseq force bs t).2.2 := by
  refine h.lift hw ?_
  unfold Machine.submitRemote
  exact iteSnd2 refl (iteSnd2 refl (iteSnd2 refl (iteSnd2 refl (iteSnd2 (editItem <| setMm <| submitBytes refl) (submitBytes refl)))))

def Scope.rxSubmitS : Scope := join [Scope.receive, Scope.routed, Scope.submitRemote, Scope.sendFrame]

theorem rxSubmitS {l : ℕ} {f : RyFrame} (h : Frame σ s t) (hw : Scope.rxSubmitS.within σ = true := by decide) : Frame σ s
    (Machine.rxSubmitS l f t) := by
  refine h.lift hw ?_
  unfold Machine.rxSubmitS
  exact receive (fun h => routed (fun h => sendFrame <| submitRemote h) h) refl

def Scope.rxSubresS : Scope := join [ofRegs [.FWD_STAT], Scope.receive, Scope.routed, Scope.updateMirror, Scope.setFwdSt, Scope.endMirror]

theorem rxSubresS {l : ℕ} {f : RyFrame} (h : Frame σ s t) (hw : Scope.rxSubresS.within σ = true := by decide) : Frame σ s
    (Machine.rxSubresS l f t) := by
  refine h.lift hw ?_
  unfold Machine.rxSubresS
  exact receive (fun h => routed (fun h => (by
    dsimp only
    split
    · exact ite h (ite (updateMirror h) (ite (updateMirror h) (ite (setFwdSt <| put h) (endMirror h))))
    · exact h)) h) refl

def Scope.mirrorMeets : Scope := join [Scope.updateMirror, Scope.sramFix]

theorem mirrorMeets {i : ℕ} (h : Frame σ s t) (hw : Scope.mirrorMeets.within σ = true := by decide) : Frame σ s (Machine.mirrorMeets i
    t) := by
  refine h.lift hw ?_
  unfold Machine.mirrorMeets
  dsimp only
  split
  · exact ite (updateMirror refl) (sramFix refl)
  · exact refl

def Scope.replayRecord : Scope := join [Scope.mirrorMeets, Scope.endMirror, Scope.raise, Scope.sendSubmit]

theorem replayRecord {i : ℕ} (h : Frame σ s t) (hw : Scope.replayRecord.within σ = true := by decide) : Frame σ s (Machine.replayRecord
    i t) := by
  refine h.lift hw ?_
  unfold Machine.replayRecord
  dsimp only
  split
  · exact ite (endMirror <| raise <| mirrorMeets refl) (sendSubmit <| mirrorMeets refl)
  · exact mirrorMeets refl

def Scope.forwardResendS : Scope := join [Scope.endResend, Scope.replayRecord]

theorem forwardResendS {f : ℕ} (h : Frame σ s t) (hw : Scope.forwardResendS.within σ = true := by decide) : Frame σ s
    (Machine.forwardResendS f t) := by
  refine h.lift hw ?_
  unfold Machine.forwardResendS
  split
  · exact ite (forList (fun _ _ h => replayRecord h) <| endResend refl) refl
  · exact refl

def Scope.rxDoneS : Scope := join [Scope.receive, Scope.routed, Scope.sendDoneAck, Scope.remoteRecord, Scope.updateMirror]

theorem rxDoneS {l : ℕ} {f : RyFrame} (h : Frame σ s t) (hw : Scope.rxDoneS.within σ = true := by decide) : Frame σ s (Machine.rxDoneS l
    f t) := by
  refine h.lift hw ?_
  unfold Machine.rxDoneS
  exact receive (fun h => routed (fun h => (by
    dsimp only
    split
    · exact ite (when (fun h => sendDoneAck h) h) (when (fun h => sendDoneAck h) <| updateMirror <| remoteRecord h)
    · exact sendDoneAck h)) h) refl

def Scope.rxDoneackS : Scope := join [ofParts [.ry], Scope.receive, Scope.routed]

theorem rxDoneackS {l : ℕ} {f : RyFrame} (h : Frame σ s t) (hw : Scope.rxDoneackS.within σ = true := by decide) : Frame σ s
    (Machine.rxDoneackS l f t) := by
  refine h.lift hw ?_
  unfold Machine.rxDoneackS
  exact receive (fun h => routed (fun h => withRy h) h) refl

def Scope.rxResyncS : Scope := join [Scope.receive, Scope.routed, Scope.setMm]

theorem rxResyncS {l : ℕ} {f : RyFrame} (h : Frame σ s t) (hw : Scope.rxResyncS.within σ = true := by decide) : Frame σ s
    (Machine.rxResyncS l f t) := by
  refine h.lift hw ?_
  unfold Machine.rxResyncS
  exact receive (fun h => routed (fun h => ite (setMm h) h) h) refl

def Scope.replay : Scope := join [ofRegs [.WT_STAT], Scope.setWt, Scope.updateMirror]

theorem replay {w : ℕ} {cold : Bool} (h : Frame σ s t) (hw : Scope.replay.within σ = true := by decide) : Frame σ s (Machine.replay w
    cold t) := by
  refine h.lift hw ?_
  unfold Machine.replay
  exact put <| setWt <| forList (fun _ _ h => updateMirror h) <| forList (fun _ _ h => updateMirror h) refl

def Scope.replayStep : Scope := join [ofRegs [.WT_STAT], Scope.replayRecord, Scope.setWt]

theorem replayStep {w : ℕ} (h : Frame σ s t) (hw : Scope.replayStep.within σ = true := by decide) : Frame σ s (Machine.replayStep w t)
    := by
  refine h.lift hw ?_
  unfold Machine.replayStep
  split
  · exact refl
  · exact when (fun h => put h) <| replayRecord <| setWt refl

def Scope.replayTurns : Scope := Scope.replayStep

theorem replayTurns (h : Frame σ s t) (hw : Scope.replayTurns.within σ = true := by decide) : Frame σ s (Machine.replayTurns t) := by
  refine h.lift hw ?_
  unfold Machine.replayTurns
  exact ite refl (forList (fun _ _ h => replayStep h) refl)

def Scope.resyncAll : Scope := join [Scope.sendResync, Scope.setFwdSt]

theorem resyncAll {w : ℕ} (h : Frame σ s t) (hw : Scope.resyncAll.within σ = true := by decide) : Frame σ s (Machine.resyncAll w t) := by
  refine h.lift hw ?_
  unfold Machine.resyncAll
  exact forList (fun _ _ h => sendResync <| setFwdSt h) refl

def Scope.rxReadyS : Scope := join [ofRegs [.WT_STAT], Scope.receive, Scope.routed, Scope.sendAdmit, Scope.refreshWorkers,
    Scope.resyncAll, Scope.replay]

theorem rxReadyS {l : ℕ} {f : RyFrame} (h : Frame σ s t) (hw : Scope.rxReadyS.within σ = true := by decide) : Frame σ s
    (Machine.rxReadyS l f t) := by
  refine h.lift hw ?_
  unfold Machine.rxReadyS
  exact receive (fun h => routed (fun h => (by
    split
    · exact ite (ite (resyncAll <| sendAdmit <| refreshWorkers <| put h) (ite (put <| sendAdmit <| refreshWorkers <| put h) (replay <|
          sendAdmit <| refreshWorkers <| put h))) h
    · exact h)) h) refl

def Scope.hookWtCtrl : Scope := join [ofRegs [.WT_STAT], Scope.sendAdmit, Scope.refreshWorkers, Scope.refuseCandidate, Scope.replay,
    Scope.resyncAll]

theorem hookWtCtrl {w : ℕ} {new : Word} (h : Frame σ s t) (hw : Scope.hookWtCtrl.within σ = true := by decide) : Frame σ s
    (Machine.hookWtCtrl w new t).2 := by
  refine h.lift hw ?_
  unfold Machine.hookWtCtrl
  exact ite (replay <| resyncAll <| put <| ite (when (fun h => sendAdmit <| refreshWorkers <| put h) refl) (ite (refreshWorkers <| put <|
      when (fun h => refuseCandidate h) refl) refl)) (ite (when (fun h => sendAdmit <| refreshWorkers <| put h) refl) (ite
      (refreshWorkers <| put <| when (fun h => refuseCandidate h) refl) refl))

def Scope.wtEvict : Scope := join [ofParts [.wide], ofRegs [.WT_STAT], Scope.refreshWorkers, Scope.setWt, Scope.stopReplay,
    Scope.sendWorker, Scope.refuseLink, Scope.endMirror, Scope.parkWorker]

theorem wtEvict {w v : ℕ} (h : Frame σ s t) (hw : Scope.wtEvict.within σ = true := by decide) : Frame σ s (Machine.wtEvict w v t) := by
  refine h.lift hw ?_
  unfold Machine.wtEvict
  exact ite refl (refreshWorkers <| setWt <| setWide <| stopReplay <| put <| put <| forList (fun _ _ h => parkWorker h) <| forList (fun
      _ _ h => endMirror h) <| when (fun h => refuseLink h) <| ite (sendWorker refl) refl)

def Scope.hookFwd : Scope := join [ofRegs [.FWD_STAT], Scope.logEvent, Scope.setFwdSt]

theorem hookFwd {f k : ℕ} {old new : Word} (h : Frame σ s t) (hw : Scope.hookFwd.within σ = true := by decide) : Frame σ s
    (Machine.hookFwd f k old new t).2 := by
  refine h.lift hw ?_
  unfold Machine.hookFwd
  exact iteSnd (logEvent <| put refl) (iteSnd (setFwdSt refl) refl)

def Scope.queueEnabledRy : Scope := Scope.sendResync

theorem queueEnabledRy {q : ℕ} (h : Frame σ s t) (hw : Scope.queueEnabledRy.within σ = true := by decide) : Frame σ s
    (Machine.queueEnabledRy q t) := by
  refine h.lift hw ?_
  unfold Machine.queueEnabledRy
  exact forList (fun _ _ h => sendResync h) refl

def Scope.eventForwardS : Scope := join [ofParts [.ry], Scope.sendTop, Scope.dropEvent]

theorem eventForwardS {i : ℕ} (h : Frame σ s t) (hw : Scope.eventForwardS.within σ = true := by decide) : Frame σ s
    (Machine.eventForwardS i t) := by
  refine h.lift hw ?_
  unfold Machine.eventForwardS
  exact ite (ite (withRy refl) (ite (sendTop <| withRy refl) (dropEvent <| withRy refl))) refl

def Scope.rxEventS : Scope := join [ofParts [.wide], Scope.receive, Scope.routed, Scope.raise]

theorem rxEventS {l : ℕ} {f : RyFrame} (h : Frame σ s t) (hw : Scope.rxEventS.within σ = true := by decide) : Frame σ s
    (Machine.rxEventS l f t) := by
  refine h.lift hw ?_
  unfold Machine.rxEventS
  exact receive (fun h => routed (fun h => raise <| setWide h) h) refl

def Scope.hookRacc : Scope := join [ofParts [.ry], Scope.sendWorker]

theorem hookRacc {old new : Word} (h : Frame σ s t) (hw : Scope.hookRacc.within σ = true := by decide) : Frame σ s (Machine.hookRacc old
    new t).2 := by
  refine h.lift hw ?_
  unfold Machine.hookRacc
  exact iteSnd refl (iteSnd refl (iteSnd refl (iteSnd refl (sendWorker <| withRy refl))))

def Scope.raccEnd : Scope := join [ofParts [.ry], ofRegs [.RY_RACC_CTRL]]

theorem raccEnd {status : ℕ} (h : Frame σ s t) (hw : Scope.raccEnd.within σ = true := by decide) : Frame σ s (Machine.raccEnd status t)
    := by
  refine h.lift hw ?_
  unfold Machine.raccEnd
  exact withRy <| put <| put refl

def Scope.rxRrspS : Scope := join [ofRegs [.RY_RACC_DATA], Scope.receive, Scope.routed, Scope.raccEnd]

theorem rxRrspS {l : ℕ} {f : RyFrame} (h : Frame σ s t) (hw : Scope.rxRrspS.within σ = true := by decide) : Frame σ s (Machine.rxRrspS l
    f t) := by
  refine h.lift hw ?_
  unfold Machine.rxRrspS
  exact receive (fun h => routed (fun h => (by
    split
    · exact ite h (ite (raccEnd h) (raccEnd <| when (fun h => put h) h))
    · exact h)) h) refl

def Scope.raccTimeoutS : Scope := Scope.raccEnd

theorem raccTimeoutS (h : Frame σ s t) (hw : Scope.raccTimeoutS.within σ = true := by decide) : Frame σ s (Machine.raccTimeoutS t) := by
  refine h.lift hw ?_
  unfold Machine.raccTimeoutS
  split
  · exact ite (raccEnd refl) refl
  · exact refl

def Scope.hookRyGcfg : Scope := join []

theorem hookRyGcfg {new : Word} (h : Frame σ s t) (hw : Scope.hookRyGcfg.within σ = true := by decide) : Frame σ s (Machine.hookRyGcfg
    new t).2 := by
  refine h.lift hw ?_
  unfold Machine.hookRyGcfg
  exact refl

def Scope.mirrorBankLost : Scope := join [ofParts [.ry], Scope.endMirror]

theorem mirrorBankLost (h : Frame σ s t) (hw : Scope.mirrorBankLost.within σ = true := by decide) : Frame σ s (Machine.mirrorBankLost t)
    := by
  refine h.lift hw ?_
  unfold Machine.mirrorBankLost
  exact ite (forList (fun _ _ h => endMirror h) refl) (withRy refl)

def Scope.ryWarm : Scope := join [ofParts [.ry], ofRegs [.RY_RACC_CTRL, .RY_GSTAT], Scope.refreshWorkers, Scope.parkWorker]

theorem ryWarm (h : Frame σ s t) (hw : Scope.ryWarm.within σ = true := by decide) : Frame σ s (Machine.ryWarm t) := by
  refine h.lift hw ?_
  unfold Machine.ryWarm
  exact withRy <| put <| ite (refreshWorkers <| forBelow (fun _ _ h => ite h (parkWorker h)) refl) (put refl)

def Scope.ryWarmEnd : Scope := join [ofRegs [.RY_STAT], Scope.setLinkState, Scope.setLnk]

theorem ryWarmEnd (h : Frame σ s t) (hw : Scope.ryWarmEnd.within σ = true := by decide) : Frame σ s (Machine.ryWarmEnd t) := by
  refine h.lift hw ?_
  unfold Machine.ryWarmEnd
  exact forBelow (fun _ _ h => ite (setLinkState <| setLnk <| when (fun h => put h) h) h) refl

def Scope.keepaliveS : Scope := join [ofRegs [.COMMIT_STAT], Scope.setChip, Scope.setTimer]

theorem keepaliveS {answers : ℕ} (h : Frame σ s t) (hw : Scope.keepaliveS.within σ = true := by decide) : Frame σ s (Machine.keepaliveS
    answers t) := by
  refine h.lift hw ?_
  unfold Machine.keepaliveS
  exact ite refl (forBelow (fun _ _ h => ite h (ite (put <| setChip h) (put <| setChip h))) <| setTimer refl)

def Scope.dropWaits : Scope := Scope.setQueue

theorem dropWaits {n : ℕ} (h : Frame σ s t) (hw : Scope.dropWaits.within σ = true := by decide) : Frame σ s (Machine.dropWaits n t) := by
  refine h.lift hw ?_
  unfold Machine.dropWaits
  exact forList (fun _ _ h => setQueue h) refl

def Scope.loseChip : Scope := join [ofRegs [.COMMIT_STAT, .HOP_STAT], Scope.setChip, Scope.linkDown, Scope.setHalf, Scope.refreshMoving,
    Scope.refreshGroup, Scope.setCore, Scope.endRunsOn, Scope.dropWaits, Scope.judged, Scope.editItem, Scope.setChan, Scope.setPort]

theorem loseChip {n : ℕ} (h : Frame σ s t) (hw : Scope.loseChip.within σ = true := by decide) : Frame σ s (Machine.loseChip n t) := by
  refine h.lift hw ?_
  unfold Machine.loseChip
  exact put <| put <| setChip <| linkDown <| linkDown <| forBelow (fun _ _ h => when (fun h => setHalf h) h) <| refreshMoving <|
      forBelow (fun _ _ h => refreshGroup h) <| forList (fun _ _ h => setPort h) <| forBelow (fun _ _ h => put <| put <| setCore h) <|
      forList (fun _ _ h => setChan h) <| forBelow (fun _ _ h => endRunsOn h) <| dropWaits <| forList (fun _ _ h => judged <| editItem
      h) refl

def Scope.declareLost : Scope := join [ofRegs [.CHIP_STAT], Scope.faultReport, Scope.raise, Scope.loseChip]

theorem declareLost {n : ℕ} (h : Frame σ s t) (hw : Scope.declareLost.within σ = true := by decide) : Frame σ s (Machine.declareLost n
    t) := by
  refine h.lift hw ?_
  unfold Machine.declareLost
  exact faultReport <| raise <| loseChip <| put refl

def Scope.chipletLostS : Scope := join [Scope.failsUnseen, Scope.declareLost]

theorem chipletLostS {n : ℕ} (h : Frame σ s t) (hw : Scope.chipletLostS.within σ = true := by decide) : Frame σ s (Machine.chipletLostS
    n t) := by
  refine h.lift hw ?_
  unfold Machine.chipletLostS
  exact ite refl (ite (failsUnseen refl) (ite refl (declareLost refl)))

def Scope.asyncSpeedUpdateS : Scope := join [ofParts [.asyncOver], ofRegs [.ASYNC_SPEED], Scope.setTimer, Scope.raise]

theorem asyncSpeedUpdateS {stage : ℕ} (h : Frame σ s t) (hw : Scope.asyncSpeedUpdateS.within σ = true := by decide) : Frame σ s
    (Machine.asyncSpeedUpdateS stage t) := by
  refine h.lift hw ?_
  unfold Machine.asyncSpeedUpdateS
  exact ite refl (when (fun h => raise h) <| when (fun h => put h) <| withAsyncOver <| put <| put <| setTimer refl)

def Scope.chipTempUpdateS : Scope := join [ofRegs [.CHIP_TEMP], Scope.setTimer, Scope.setPort, Scope.faultReport]

theorem chipTempUpdateS {temps : List ℤ} (h : Frame σ s t) (hw : Scope.chipTempUpdateS.within σ = true := by decide) : Frame σ s
    (Machine.chipTempUpdateS temps t) := by
  refine h.lift hw ?_
  unfold Machine.chipTempUpdateS
  exact ite refl (ite (faultReport <| forList (fun _ _ h => when (fun h => setPort h) h) <| forBelow (fun _ _ h => ite h (put h)) <|
      setTimer refl) (forList (fun _ _ h => when (fun h => setPort h) h) <| forBelow (fun _ _ h => ite h (put h)) <| setTimer refl))

def Scope.membankS : Scope := join [ofRegs [.MEM_BANK_STAT], Scope.mirrorBankLost, Scope.faultReport, Scope.raise, Scope.endRuns]

theorem membankS {b : ℕ} (h : Frame σ s t) (hw : Scope.membankS.within σ = true := by decide) : Frame σ s (Machine.membankS b t) := by
  refine h.lift hw ?_
  unfold Machine.membankS
  exact ite refl (ite (mirrorBankLost <| faultReport <| raise <| put refl) (ite (forBelow (fun _ _ h => endRuns h) <| faultReport <|
      raise <| put refl) (faultReport <| raise <| put refl)))

def Scope.bringUpCore : Scope := join [ofParts [.pending, .clock, .freeCtr, .regs, .wide, .mem, .chips, .halves, .cores, .ports, .preds,
    .chans, .cdlys, .nvm, .nvmOp, .calGen, .convSeen, .autoDone, .vddhLow, .ringSeq, .tb, .queues, .engines, .xip, .ctxBad, .badWords,
    .ecc, .rel, .verdicts, .raising, .raises, .orgs, .tansyQ, .tansyGap, .tansySeq, .tansyUnrel, .parBad, .eraseCnt, .nvmLost, .timers,
    .loadMark, .ssp, .sm, .links, .ry, .raiseTs, .routedAt, .msix, .cfg, .bme, .fnMask, .msgLast, .porst, .brown, .warm, .boot,
    .bootCmd, .wdogFrom, .wdogOut, .asyncOver, .halfFaults, .lossFaults, .chipReinit, .reinits, .cdStamps, .outs], ofRegs [.HALF_CMD,
    .HALF_STAT, .CORE_STAT, .CORE_CTRL], Scope.refreshOos, Scope.trimRefresh, Scope.powerUp, Scope.setHalf]

theorem bringUpCore {c : ℕ} (h : Frame σ s t) (hw : Scope.bringUpCore.within σ = true := by decide) : Frame σ s (Machine.bringUpCore c
    t) := by
  refine h.lift hw ?_
  unfold Machine.bringUpCore
  exact refreshOos <| forBelow (fun _ _ h => trimRefresh <| powerUp <| put <| put <| setHalf h) <| put <| put <| put refl

def Scope.halfBootLockTimeoutS : Scope := join [Scope.declareFailed, Scope.setHalf]

theorem halfBootLockTimeoutS {c k : ℕ} (h : Frame σ s t) (hw : Scope.halfBootLockTimeoutS.within σ = true := by decide) : Frame σ s
    (Machine.halfBootLockTimeoutS c k t) := by
  refine h.lift hw ?_
  unfold Machine.halfBootLockTimeoutS
  split
  · exact ite (declareFailed <| setHalf refl) refl
  · exact refl

def Scope.logBoot : Scope := Scope.log

theorem logBoot {s0 : State} (h : Frame σ s t) (hw : Scope.logBoot.within σ = true := by decide) : Frame σ s (Machine.logBoot s0 t) := by
  refine h.lift hw ?_
  unfold Machine.logBoot
  exact log refl

def Scope.refuseBoot : Scope := join [ofRegs [.BOOT_STAT], Scope.logBoot]

theorem refuseBoot {code : ℕ} (h : Frame σ s t) (hw : Scope.refuseBoot.within σ = true := by decide) : Frame σ s (Machine.refuseBoot
    code t) := by
  refine h.lift hw ?_
  unfold Machine.refuseBoot
  exact logBoot <| put <| put refl

def Scope.endBoot : Scope := join [ofParts [.bootCmd], ofRegs [.BOOT_CTRL_A, .BOOT_STAT], Scope.logBoot]

theorem endBoot {code : ℕ} (h : Frame σ s t) (hw : Scope.endBoot.within σ = true := by decide) : Frame σ s (Machine.endBoot code t) := by
  refine h.lift hw ?_
  unfold Machine.endBoot
  exact logBoot <| put <| put <| put <| withBootCmd refl

def Scope.bootRead : Scope := join [Scope.sramMeets, ofParts [.freeCtr]]

theorem bootRead {b : BootCmd} (h : Frame σ s t) (hw : Scope.bootRead.within σ = true := by decide) :
    Frame σ s (Machine.bootRead b t).2 := by
  refine h.lift hw ?_
  exact List.foldlRecOn (motive := fun r : List Byte × State => Frame Scope.bootRead t r.2) _ (patchBad _) (sramMeets refl)
    fun _ hr _ _ => withFreeCtr hr

def Scope.eraseSlotCommit : Scope := ofParts [.nvm, .eraseCnt]

theorem eraseSlotCommit {k : ℕ} (h : Frame σ s t) (hw : Scope.eraseSlotCommit.within σ = true := by decide) : Frame σ s
    (Machine.eraseSlotCommit k t) := by
  refine h.lift hw ?_
  unfold Machine.eraseSlotCommit
  exact nvmEraseRange refl

def Scope.voidSlot : Scope := ofParts [.nvm]

theorem voidSlot {k : ℕ} (h : Frame σ s t) (hw : Scope.voidSlot.within σ = true := by decide) :
    Frame σ s (Machine.voidSlot k t) := by
  suffices core : ∀ {s}, Frame Scope.voidSlot s t → Frame Scope.voidSlot s (Machine.voidSlot k t) from h.lift hw (core refl)
  intro s h
  exact withNvm h

def Scope.bootPartial : Scope := join [ofParts [.freeCtr, .nvm, .eraseCnt], Scope.bootRead]

theorem bootPartial {b : BootCmd} (h : Frame σ s t) (hw : Scope.bootPartial.within σ = true := by decide) : Frame σ s
    (Machine.bootPartial b t) := by
  refine h.lift hw ?_
  unfold Machine.bootPartial
  exact ite (nvmEraseRange <| withFreeCtr refl) (ite (nvmProgram <| bootRead <| withFreeCtr refl) (nvmProgram <| nvmProgram <|
      withFreeCtr refl))

def Scope.abandonBoot : Scope := join [Scope.endBoot, Scope.voidSlot, Scope.bootPartial]

theorem abandonBoot (h : Frame σ s t) (hw : Scope.abandonBoot.within σ = true := by decide) : Frame σ s (Machine.abandonBoot t) := by
  refine h.lift hw ?_
  unfold Machine.abandonBoot
  split
  · exact refl
  · exact endBoot <| voidSlot <| bootPartial refl

def Scope.bootCtrlWrite : Scope := join [ofParts [.bootCmd], ofRegs [.BOOT_CTRL_A, .BOOT_STAT], Scope.refuseBoot, Scope.eraseSlotCommit]

theorem bootCtrlWrite {v : ℕ} (h : Frame σ s t) (hw : Scope.bootCtrlWrite.within σ = true := by decide) : Frame σ s
    (Machine.bootCtrlWrite v t) := by
  refine h.lift hw ?_
  unfold Machine.bootCtrlWrite
  dsimp only
  split
  · exact setReg refl
  · split
    · exact setReg <| refuseBoot refl
    · exact ite (eraseSlotCommit <| put <| setReg <| withBootCmd refl) (put <| setReg <| withBootCmd refl)

def Scope.bootCmdDoneS : Scope := join [ofParts [.nvm, .eraseCnt], Scope.endBoot, Scope.nvmEnded, Scope.bootPartial, Scope.bootRead]

theorem bootCmdDoneS {r : NvmEnd} (h : Frame σ s t) (hw : Scope.bootCmdDoneS.within σ = true := by decide) : Frame σ s
    (Machine.bootCmdDoneS r t) := by
  refine h.lift hw ?_
  unfold Machine.bootCmdDoneS
  split
  · exact refl
  · exact ite refl (ite (endBoot <| nvmEnded <| bootPartial refl) (endBoot <| ite (nvmEraseRange refl) (ite (nvmProgram <| bootRead
        refl) (nvmProgram <| nvmProgram refl))))

def Scope.controlDieLostS : Scope := join [ofParts [.cdStamps], ofRegs [.COMMIT_STAT], Scope.sendFrame, Scope.setChip,
    Scope.abandonBoot, Scope.abandonNvm]

theorem controlDieLostS {n : ℕ} (h : Frame σ s t) (hw : Scope.controlDieLostS.within σ = true := by decide) : Frame σ s
    (Machine.controlDieLostS n t) := by
  refine h.lift hw ?_
  unfold Machine.controlDieLostS
  exact ite refl (ite (abandonBoot <| abandonNvm <| forList (fun _ _ h => when (fun h => sendFrame h) h) <| put <| withCdStamps <|
      setChip refl) (forList (fun _ _ h => when (fun h => sendFrame h) h) <| put <| withCdStamps <| setChip refl))

def Scope.logReset : Scope := Scope.log

theorem logReset {s0 : State} {aux : ℕ} (h : Frame σ s t) (hw : Scope.logReset.within σ = true := by decide) : Frame σ s
    (Machine.logReset s0 aux t) := by
  refine h.lift hw ?_
  unfold Machine.logReset
  exact log refl

/-- Every component but the commands that wait and what has gone out, and every register. -/
def Scope.powerCycle : Scope := ⟨2 ^ Part.outs.ctorIdx - 2, 2 ^ 256 - 1⟩

theorem powerCycle (h : Frame σ s t) (hw : Scope.powerCycle.within σ = true := by decide) : Frame σ s (Machine.powerCycle t) := by
  have hend : Frame Scope.powerCycle t (Machine.abandonBoot (Machine.abandonNvm t)) := abandonBoot <| abandonNvm refl
  exact h.lift hw ⟨fun p hp => by cases p <;> first | exact absurd hp (by decide) | exact hend.part _ hp, fun hb => absurd hb (by decide)⟩

def Scope.coldOf : Scope := join [ofParts [.outs], ofRegs [.RST_STAT], Scope.logReset, Scope.powerCycle]

theorem coldOf {cause : ℕ} (h : Frame σ s t) (hw : Scope.coldOf.within σ = true := by decide) : Frame σ s (Machine.coldOf cause t) := by
  refine h.lift hw ?_
  unfold Machine.coldOf
  exact emit <| logReset <| put <| put <| powerCycle refl

def Scope.coldResetS : Scope := join [ofParts [.porst], Scope.coldOf]

theorem coldResetS (h : Frame σ s t) (hw : Scope.coldResetS.within σ = true := by decide) :
    Frame σ s (Machine.coldResetS t) := by
  suffices core : ∀ {s}, Frame Scope.coldResetS s t → Frame Scope.coldResetS s (Machine.coldResetS t) from h.lift hw (core refl)
  intro s h
  exact ite h (withPorstBrown <| coldOf h)

def Scope.resetReleaseS : Scope := ofParts [.clock, .porst]

theorem resetReleaseS (h : Frame σ s t) (hw : Scope.resetReleaseS.within σ = true := by decide) :
    Frame σ s (Machine.resetReleaseS t) := by
  suffices core : ∀ {s}, Frame Scope.resetReleaseS s t → Frame Scope.resetReleaseS s (Machine.resetReleaseS t) from h.lift hw (core refl)
  intro s h
  exact ite (withClockPorst h) h

def Scope.brownOutS : Scope := join [ofParts [.brown], Scope.coldOf]

theorem brownOutS (h : Frame σ s t) (hw : Scope.brownOutS.within σ = true := by decide) :
    Frame σ s (Machine.brownOutS t) := by
  suffices core : ∀ {s}, Frame Scope.brownOutS s t → Frame Scope.brownOutS s (Machine.brownOutS t) from h.lift hw (core refl)
  intro s h
  exact ite h (withPorstBrown <| coldOf h)

def Scope.brownOutEndS : Scope := ofParts [.clock, .brown]

theorem brownOutEndS (h : Frame σ s t) (hw : Scope.brownOutEndS.within σ = true := by decide) :
    Frame σ s (Machine.brownOutEndS t) := by
  suffices core : ∀ {s}, Frame Scope.brownOutEndS s t → Frame Scope.brownOutEndS s (Machine.brownOutEndS t) from h.lift hw (core refl)
  intro s h
  exact ite (withClockBrown h) h

def Scope.softCold : Scope := join [ofParts [.porst], Scope.coldOf]

theorem softCold (h : Frame σ s t) (hw : Scope.softCold.within σ = true := by decide) :
    Frame σ s (Machine.softCold t) := by
  suffices core : ∀ {s}, Frame Scope.softCold s t → Frame Scope.softCold s (Machine.softCold t) from h.lift hw (core refl)
  intro s h
  exact withPorst <| coldOf h

def Scope.abortMailboxes : Scope := Scope.setOrg

theorem abortMailboxes (h : Frame σ s t) (hw : Scope.abortMailboxes.within σ = true := by decide) : Frame σ s (Machine.abortMailboxes t)
    := by
  refine h.lift hw ?_
  unfold Machine.abortMailboxes
  exact forList (fun _ _ h => setOrg h) refl

def Scope.warmEngine : Scope := join [ofParts [.engines], ofRegs [.ENG_CMD, .ENG_PC], Scope.returnItem, Scope.setEngState]

theorem warmEngine {e : ℕ} (h : Frame σ s t) (hw : Scope.warmEngine.within σ = true := by decide) :
    Frame σ s (Machine.warmEngine e t) := by
  suffices core : ∀ {s}, Frame Scope.warmEngine s t → Frame Scope.warmEngine s (Machine.warmEngine e t) from h.lift hw (core refl)
  intro s h
  have rest {t : State} (h : Frame Scope.warmEngine s t) :
      Frame Scope.warmEngine s (((t.setEng e { (t.eng e).cleared with reinitAt := none }).put ENG_PC.PC 0 e).put ENG_CMD.REINIT 0 e) :=
    put <| put <| setEng h
  have hret : Frame Scope.warmEngine s (match (t.eng e).held with | some (q, n) => Machine.returnItem q n id t | none => t) := by
    split
    · exact returnItem h
    · exact h
  exact trans (rest hret) <| ite refl (setEngState refl)

def Scope.dropCommits : Scope := join [ofRegs [.PORT_CMD], Scope.dropPending, Scope.setPort]

theorem dropCommits (h : Frame σ s t) (hw : Scope.dropCommits.within σ = true := by decide) : Frame σ s (Machine.dropCommits t) := by
  refine h.lift hw ?_
  unfold Machine.dropCommits
  exact forList (fun _ _ h => put <| setPort h) <| forList (fun _ _ h => dropPending h) refl

def Scope.dropArms : Scope := join [ofRegs [.TS_CMD], Scope.setChan]

theorem dropArms (h : Frame σ s t) (hw : Scope.dropArms.within σ = true := by decide) : Frame σ s (Machine.dropArms t) := by
  refine h.lift hw ?_
  unfold Machine.dropArms
  exact forList (fun _ _ h => tsSet <| tsSet <| setChan h) refl

def Scope.withDie : Scope := Scope.setChip

theorem withDie {f : State → State} (hf : ∀ {t}, Frame σ s t → Frame σ s (f t)) (h : Frame σ s t)
    (hw : Scope.withDie.within σ = true := by decide) : Frame σ s (Machine.withDie f t) :=
  forBelow (fun _ _ h => setChip h hw) <| hf <| forBelow (fun _ _ h => setChip h hw) h

def Scope.warmReset : Scope := join [ofParts [.warm, .boot, .reinits, .outs], ofRegs [.SOR_REQ, .REINIT, .RST_STAT], Scope.withDie,
    Scope.abortMailboxes, Scope.ryWarm, Scope.warmEngine, Scope.smWarm, Scope.dropArms, Scope.dropCommits, Scope.endRuns,
    Scope.abandonBoot, Scope.abandonNvm, Scope.logReset]

theorem warmReset {cause : ℕ} (h : Frame σ s t) (hw : Scope.warmReset.within σ = true := by decide) : Frame σ s (Machine.warmReset cause
    t) := by
  refine h.lift hw ?_
  unfold Machine.warmReset
  exact ite refl (withWarmBootReinits <| withDie (fun h => emit <| put <| put <| abortMailboxes <| ryWarm <| forBelow (fun _ _ h =>
      warmEngine h) <| smWarm <| dropArms <| dropCommits <| forBelow (fun _ _ h => endRuns h) <| abandonBoot <| abandonNvm <| logReset <|
      bump <| put h) refl)

def Scope.warmResetS : Scope := Scope.warmReset

theorem warmResetS (h : Frame σ s t) (hw : Scope.warmResetS.within σ = true := by decide) : Frame σ s (Machine.warmResetS t) := by
  refine h.lift hw ?_
  unfold Machine.warmResetS
  exact warmReset refl

def Scope.scanFaults : Scope := join [ofParts [.halfFaults, .lossFaults], Scope.declareLost, Scope.engFailS, Scope.faultReport]

theorem scanFaults (h : Frame σ s t) (hw : Scope.scanFaults.within σ = true := by decide) : Frame σ s (Machine.scanFaults t) := by
  refine h.lift hw ?_
  unfold Machine.scanFaults
  exact forList (fun _ _ h => declareLost h) <| forList (fun _ _ h => engFailS h) <| forBelow (fun _ _ h => faultReport h) <|
      withHalfFaultsLossFaults refl

def Scope.lossEnd : Scope := join [ofParts [.raising, .wide], ofRegs [.CHIP_STAT], Scope.log, Scope.scanFaults, Scope.faultReport]

theorem lossEnd {seen : List ℕ} (h : Frame σ s t) (hw : Scope.lossEnd.within σ = true := by decide) : Frame σ s (Machine.lossEnd seen t)
    := by
  refine h.lift hw ?_
  unfold Machine.lossEnd
  exact log <| scanFaults <| faultReport <| withRaising <| setWide <| put refl

def Scope.tablesDue : Scope := Scope.cdInstallDue

theorem tablesDue (h : Frame σ s t) (hw : Scope.tablesDue.within σ = true := by decide) : Frame σ s (Machine.tablesDue t) := by
  refine h.lift hw ?_
  unfold Machine.tablesDue
  exact forList (fun _ _ h => cdInstallDue h) refl

def Scope.warmResetEndS : Scope := join [ofParts [.wdogFrom, .warm, .outs], Scope.checkStarveAll, Scope.msixFlushAll, Scope.ryWarmEnd,
    Scope.scanFaults, Scope.setChip, Scope.lossEnd, Scope.tablesDue]

theorem warmResetEndS (h : Frame σ s t) (hw : Scope.warmResetEndS.within σ = true := by decide) : Frame σ s (Machine.warmResetEndS t) :=
    by
  refine h.lift hw ?_
  unfold Machine.warmResetEndS
  exact ite refl (when (fun h => emit h) <| checkStarveAll <| msixFlushAll <| ryWarmEnd <| withWdogFrom <| ite (scanFaults <| forBelow
      (fun _ _ h => setChip h) <| withWarm refl) (lossEnd <| tablesDue <| forBelow (fun _ _ h => setChip h) <| withWarm refl))

def Scope.hookWdogKick : Scope := ofParts [.wdogFrom, .wdogOut]

theorem hookWdogKick {new : Word} (h : Frame σ s t) (hw : Scope.hookWdogKick.within σ = true := by decide) : Frame σ s
    (Machine.hookWdogKick new t).2 := by
  refine h.lift hw ?_
  unfold Machine.hookWdogKick
  exact ite (withWdogFromWdogOut refl) refl

def Scope.hookWdogCfg : Scope := ofParts [.wdogFrom]

theorem hookWdogCfg {new : Word} (h : Frame σ s t) (hw : Scope.hookWdogCfg.within σ = true := by decide) : Frame σ s
    (Machine.hookWdogCfg new t).2 := by
  refine h.lift hw ?_
  unfold Machine.hookWdogCfg
  exact withWdogFrom refl

def Scope.watchdogS : Scope := join [ofParts [.wdogFrom, .wdogOut], ofRegs [.WDOG_CFG], Scope.log, Scope.portMenS, Scope.faultReport,
    Scope.raise, Scope.warmReset]

theorem watchdogS (h : Frame σ s t) (hw : Scope.watchdogS.within σ = true := by decide) : Frame σ s (Machine.watchdogS t) := by
  refine h.lift hw ?_
  unfold Machine.watchdogS
  split
  · exact refl
  · exact ite refl (ite (log <| portMenS <| faultReport <| raise <| put <| withWdogFromWdogOut refl) (ite (warmReset <| faultReport <|
        raise <| put <| withWdogFromWdogOut refl) (faultReport <| raise <| put <| withWdogFromWdogOut refl)))

def Scope.clearRegs : Scope := join [allRegs, ofParts [.wide]]

theorem clearRegs {lo hi : ℕ} {keep : ℕ → Bool} (h : Frame σ s t) (hw : Scope.clearRegs.within σ = true := by decide) :
    Frame σ s (Machine.clearRegs lo hi keep t) :=
  h.lift hw ⟨fun p hp => by cases p <;> first | rfl | exact absurd hp (by decide), fun hb => absurd hb (by decide)⟩

def Scope.clearFailed : Scope := ofRegs [.HALF_FAIL]

theorem clearFailed {c : ℕ} (h : Frame σ s t) (hw : Scope.clearFailed.within σ = true := by decide) : Frame σ s (Machine.clearFailed c
    t) := by
  refine h.lift hw ?_
  unfold Machine.clearFailed
  exact put refl

def Scope.resetHalf : Scope := Scope.setHalf

theorem resetHalf {c k : ℕ} (h : Frame σ s t) (hw : Scope.resetHalf.within σ = true := by decide) : Frame σ s (Machine.resetHalf c k t)
    := by
  refine h.lift hw ?_
  unfold Machine.resetHalf
  exact setHalf refl

def Scope.failCoreHops : Scope := join [Scope.failOpenHop, Scope.leaveUnmoved, Scope.failHop, Scope.endRelock]

theorem failCoreHops {c : ℕ} (h : Frame σ s t) (hw : Scope.failCoreHops.within σ = true := by decide) :
    Frame σ s (Machine.failCoreHops c t) := by
  suffices core : ∀ {s}, Frame Scope.failCoreHops s t → Frame Scope.failCoreHops s (Machine.failCoreHops c t) from h.lift hw (core refl)
  intro s h
  have hopen : Frame Scope.failCoreHops s (match (t.core c).hop with | some r => Machine.failOpenHop c 6 r t | none => t) := by
    split
    · exact failOpenHop h
    · exact h
  exact trans hopen <| ite (leaveUnmoved <| failHop <| endRelock refl) refl

def Scope.reinitCore : Scope := join [Scope.refreshPorts, Scope.refreshLevel, Scope.bringUpCore, Scope.clearFailed, Scope.resetHalf,
    Scope.setCore, Scope.clearRegs, Scope.endRunsOn, Scope.failCoreHops]

theorem reinitCore {c : ℕ} (h : Frame σ s t) (hw : Scope.reinitCore.within σ = true := by decide) : Frame σ s (Machine.reinitCore c t)
    := by
  refine h.lift hw ?_
  unfold Machine.reinitCore
  exact refreshPorts <| refreshLevel <| bringUpCore <| clearFailed <| resetHalf <| resetHalf <| setCore <| clearRegs <| forList (fun _ _
      h => endRunsOn h) <| failCoreHops refl

def Scope.reinitPort : Scope := join [ofRegs [.PORT_STAT], Scope.refreshCoreGroup, Scope.refreshGuard, Scope.closeLoops,
    Scope.releaseSpare, Scope.refreshPort, Scope.setPort, Scope.clearRegs, Scope.leaveFailover, Scope.endRunsOn, Scope.setPortState]

theorem reinitPort {p : ℕ} (h : Frame σ s t) (hw : Scope.reinitPort.within σ = true := by decide) : Frame σ s (Machine.reinitPort p t)
    := by
  refine h.lift hw ?_
  unfold Machine.reinitPort
  exact refreshCoreGroup <| refreshGuard <| closeLoops <| releaseSpare <| refreshPort <| put <| setPort <| clearRegs <| setPortState <|
      leaveFailover <| endRunsOn refl

def Scope.reinitLink : Scope := join [ofRegs [.RY_CNT2, .RY_CNT], Scope.linkDown]

theorem reinitLink {l : ℕ} (h : Frame σ s t) (hw : Scope.reinitLink.within σ = true := by decide) : Frame σ s (Machine.reinitLink l t)
    := by
  refine h.lift hw ?_
  unfold Machine.reinitLink
  exact setReg <| setReg <| linkDown refl

def Scope.reinitTeasel : Scope := join [Scope.setChan, Scope.endAt]

theorem reinitTeasel {g : ℕ} (h : Frame σ s t) (hw : Scope.reinitTeasel.within σ = true := by decide) : Frame σ s (Machine.reinitTeasel
    g t) := by
  refine h.lift hw ?_
  unfold Machine.reinitTeasel
  exact forBelow (fun _ _ h => setChan <| ite (endAt h) h) refl

def Scope.reinitSorrel : Scope := join [ofParts [.preds], Scope.endRuns, Scope.trimRefresh, Scope.setHalf, Scope.refreshAllConv,
    Scope.reloadTable]

theorem reinitSorrel {m : ℕ} (h : Frame σ s t) (hw : Scope.reinitSorrel.within σ = true := by decide) : Frame σ s (Machine.reinitSorrel
    m t) := by
  refine h.lift hw ?_
  unfold Machine.reinitSorrel
  dsimp only
  split
  · exact endRuns refl
  · split
    · exact forBelow (fun _ _ h => trimRefresh <| setHalf h) <| endRuns refl
    · split
      · exact refreshAllConv <| forBelow (fun _ _ h => (by
          split
          · exact reloadTable h
          · exact reloadTable h)) <| endRuns refl
      · split
        · split
          · exact forBelow (fun _ _ h => forBelow (fun _ _ h => withPreds h) h) <| endRuns refl
          · exact withPreds <| endRuns refl
        · exact endRuns refl

def Scope.calMeets : Scope := join [ofParts [.badWords], Scope.sramFix, Scope.reinitSorrel, Scope.sramMeets]

theorem calMeets {m : ℕ} {f : State → State} (hf : ∀ {t}, Frame σ s t → Frame σ s (f t)) (h : Frame σ s t)
    (hw : Scope.calMeets.within σ = true := by decide) : Frame σ s (Machine.calMeets m f t) := by
  have q {a : Scope} (ha : a.within Scope.calMeets = true := by decide) : a.within σ = true := Scope.within_trans ha hw
  unfold Machine.calMeets
  refine ite (hf <| when (fun h => sramFix h q) h) ?_
  exact reinitSorrel (withBadWords (sramMeets h q) q) q

def Scope.reinitDo : Scope := join [Scope.reinitCore, Scope.reinitPort, Scope.engReinitS, Scope.reinitLink, Scope.reinitTeasel,
    Scope.reinitSorrel]

theorem reinitDo {k i : ℕ} (h : Frame σ s t) (hw : Scope.reinitDo.within σ = true := by decide) : Frame σ s (Machine.reinitDo k i t) := by
  refine h.lift hw ?_
  unfold Machine.reinitDo
  exact ite (reinitCore refl) (ite (reinitPort refl) (ite (engReinitS refl) (ite (reinitLink refl) (ite (reinitTeasel refl)
      (reinitSorrel refl)))))

def Scope.hookReinit : Scope := join [ofParts [.reinits], Scope.reinitDo]

theorem hookReinit {ones old new : Word} (h : Frame σ s t) (hw : Scope.hookReinit.within σ = true := by decide) : Frame σ s
    (Machine.hookReinit ones old new t).2 := by
  refine h.lift hw ?_
  unfold Machine.hookReinit
  dsimp only
  split
  · exact refl
  · split
    · exact refl
    · exact withReinits <| reinitDo refl

def Scope.reinitCompleteS : Scope := join [ofParts [.reinits], ofRegs [.REINIT], Scope.faultReport]

theorem reinitCompleteS {ok : Bool} {j : ℕ} (h : Frame σ s t) (hw : Scope.reinitCompleteS.within σ = true := by decide) : Frame σ s
    (Machine.reinitCompleteS ok j t) := by
  refine h.lift hw ?_
  unfold Machine.reinitCompleteS
  split
  · exact refl
  · exact ite refl (ite (ite refl (put <| put <| withReinits refl)) (ite (faultReport <| put <| put <| withReinits refl) refl))

def Scope.resetChip : Scope := join [ofParts [.parBad], ofRegs [.LG_STAT, .TS_STAT], Scope.loadCount, Scope.setChip, Scope.refreshOos,
    Scope.resetHalf, Scope.refreshTop, Scope.setLnk, Scope.clearRegs, Scope.loseChip, Scope.setPort, Scope.cdState]

theorem resetChip {n : ℕ} (h : Frame σ s t) (hw : Scope.resetChip.within σ = true := by decide) : Frame σ s (Machine.resetChip n t) := by
  refine h.lift hw ?_
  unfold Machine.resetChip
  exact loadCount <| setChip <| forBelow (fun _ _ h => put h) <| forList (fun _ _ h => when (fun h => cdState <| when (fun h => tsSet h)
      h) h) <| forList (fun _ _ h => setPort h) <| forBelow (fun _ _ h => refreshOos <| resetHalf <| resetHalf h) <| refreshTop <|
      withParBad <| forList (fun _ _ h => setLnk <| clearRegs h) <| forList (fun _ _ h => clearRegs h) <| clearRegs <| clearRegs <|
      clearRegs <| loseChip refl

def Scope.chipletReinit : Scope := join [ofParts [.chipReinit], ofRegs [.CHIP_STAT], Scope.refreshLevel, Scope.bringUpCore,
    Scope.resetChip]

theorem chipletReinit {n : ℕ} (h : Frame σ s t) (hw : Scope.chipletReinit.within σ = true := by decide) : Frame σ s
    (Machine.chipletReinit n t) := by
  refine h.lift hw ?_
  unfold Machine.chipletReinit
  exact ite refl (refreshLevel <| forBelow (fun _ _ h => bringUpCore h) <| resetChip <| withChipReinit <| put refl)

def Scope.chipletReinitDoneS : Scope := join [ofParts [.chipReinit], ofRegs [.COMMIT_STAT, .CHIP_STAT], Scope.refreshLevel,
    Scope.masterChip, Scope.loadCount, Scope.setChip, Scope.faultReport, Scope.loseChip]

theorem chipletReinitDoneS {n : ℕ} {ok : Bool} (h : Frame σ s t) (hw : Scope.chipletReinitDoneS.within σ = true := by decide) : Frame σ
    s (Machine.chipletReinitDoneS n ok t) := by
  refine h.lift hw ?_
  unfold Machine.chipletReinitDoneS
  exact ite refl (ite (refreshLevel <| masterChip <| loadCount <| put <| setChip <| put <| withChipReinit <| put refl) (ite (faultReport <|
      loseChip <| put <| withChipReinit <| put refl) refl))

def Scope.rstCtrlWrite : Scope := join [Scope.warmReset, Scope.softCold, Scope.chipletReinit]

theorem rstCtrlWrite {v : ℕ} (h : Frame σ s t) (hw : Scope.rstCtrlWrite.within σ = true := by decide) : Frame σ s (Machine.rstCtrlWrite
    v t) := by
  refine h.lift hw ?_
  unfold Machine.rstCtrlWrite
  exact ite (warmReset refl) (ite (softCold refl) (ite (chipletReinit refl) refl))

def Scope.hookEdition : Scope := join [ofRegs [.EDITION_SEL], Scope.log]

theorem hookEdition {o : ℕ} {old new : Word} (h : Frame σ s t) (hw : Scope.hookEdition.within σ = true := by decide) : Frame σ s
    (Machine.hookEdition o old new t).2 := by
  refine h.lift hw ?_
  unfold Machine.hookEdition
  exact iteSnd refl (log <| put refl)

def Scope.bootSramTestDoneS : Scope := join [ofParts [.outs, .mem, .ctxBad, .badWords, .boot], Scope.membankS]

theorem bootSramTestDoneS {bad : ℕ} (h : Frame σ s t) (hw : Scope.bootSramTestDoneS.within σ = true := by decide) :
    Frame σ s (Machine.bootSramTestDoneS bad t) := by
  suffices core : ∀ {s}, Frame Scope.bootSramTestDoneS s t → Frame Scope.bootSramTestDoneS s (Machine.bootSramTestDoneS bad t) from
      h.lift hw (core refl)
  intro s h
  exact ite h <| emit <| forBelow (fun _ _ h => when (fun h => membankS h) h) <| withMemCtxBadBadWordsBoot h

def Scope.bootCalLoadedS : Scope := join [ofParts [.boot], Scope.trimRefresh, Scope.loadCalibration]

theorem bootCalLoadedS {answers : Bool} (h : Frame σ s t) (hw : Scope.bootCalLoadedS.within σ = true := by decide) : Frame σ s
    (Machine.bootCalLoadedS answers t) := by
  refine h.lift hw ?_
  unfold Machine.bootCalLoadedS
  exact ite refl (forBelow (fun _ _ h => trimRefresh h) <| loadCalibration <| withBoot refl)

def Scope.imageEdition : Scope := join [ofRegs [.EDITION_SEL], Scope.lockViolation, Scope.log]

theorem imageEdition {ed : ℕ} (h : Frame σ s t) (hw : Scope.imageEdition.within σ = true := by decide) : Frame σ s (Machine.imageEdition
    ed t) := by
  refine h.lift hw ?_
  unfold Machine.imageEdition
  exact ite refl (ite (lockViolation refl) (ite (log <| put refl) (log <| put refl)))

def Scope.loadSlot : Scope := join [ofParts [.mem], ofRegs [.BOOT_STAT], Scope.imageEdition]

theorem loadSlot {k : ℕ} (h : Frame σ s t) (hw : Scope.loadSlot.within σ = true := by decide) : Frame σ s (Machine.loadSlot k t) := by
  refine h.lift hw ?_
  unfold Machine.loadSlot
  exact imageEdition <| put <| ite (forList (fun _ _ h => ite h (setByte h)) <| when (fun h => put h) refl) (setBytes <| forList (fun _
      _ h => ite h (setByte h)) <| when (fun h => put h) refl)

def Scope.slotBad : Scope := join [ofParts [.mem], ofRegs [.BOOT_STAT]]

theorem slotBad {k : ℕ} (h : Frame σ s t) (hw : Scope.slotBad.within σ = true := by decide) :
    Frame σ s (Machine.slotBad k t) := by
  suffices core : ∀ {s}, Frame Scope.slotBad s t → Frame Scope.slotBad s (Machine.slotBad k t) from h.lift hw (core refl)
  intro s h
  have hload {u : State} {a : ℕ} {bs : List Byte} (h : Frame Scope.slotBad s u) : Frame Scope.slotBad s (if u.bankLost 0 then u else
      u.setBytes a bs) :=
    ite h (setBytes h)
  have hvoid {u : State} {n m : ℕ} (h : Frame Scope.slotBad s u) : Frame Scope.slotBad s (if u.bankLost 0 then u else Machine.forBelow n
      (fun i s =>
      s.setWord (128 * (m + i)) (s.word (128 * (m + i)) &&& 0xFFFFFFFE#32)) u) := ite h (forBelow (fun _ _ h => setWord h) h)
  exact put <| hvoid <| hload <| withMem h

def Scope.bootImageLoadedS : Scope := join [ofParts [.boot], ofRegs [.BOOT_STAT], Scope.log, Scope.nvmEnded, Scope.loadSlot,
    Scope.slotBad]

theorem bootImageLoadedS {answers : Bool} (h : Frame σ s t) (hw : Scope.bootImageLoadedS.within σ = true := by decide) :
    Frame σ s (Machine.bootImageLoadedS answers t) := by
  suffices core : ∀ {s}, Frame Scope.bootImageLoadedS s t → Frame Scope.bootImageLoadedS s (Machine.bootImageLoadedS answers t) from
      h.lift hw (core refl)
  intro s h
  have hanswer : Frame Scope.bootImageLoadedS s (if answers then { t with boot := .cores } else Machine.nvmEnded .silent { t with boot
      := .cores }) :=
    ite (withBoot h) (nvmEnded <| withBoot h)
  unfold Machine.bootImageLoadedS
  refine ite h ?_
  dsimp only
  generalize (if answers then _ else _ : State) = u at *
  refine log <| ite (put hanswer) ?_
  split
  · exact loadSlot <| forList (fun _ _ h => slotBad h) <| put hanswer
  · exact forList (fun _ _ h => slotBad h) <| put hanswer

def Scope.bootCoreBringupS : Scope := join [ofParts [.boot], Scope.bringUpCore]

theorem bootCoreBringupS (h : Frame σ s t) (hw : Scope.bootCoreBringupS.within σ = true := by decide) : Frame σ s
    (Machine.bootCoreBringupS t) := by
  refine h.lift hw ?_
  unfold Machine.bootCoreBringupS
  exact ite refl (forBelow (fun _ _ h => ite h (bringUpCore h)) <| withBoot refl)

def Scope.countRefusal : Scope := join [ofRegs [.VETCH_STAT, .VETCH_CNT], Scope.raise]

theorem countRefusal (h : Frame σ s t) (hw : Scope.countRefusal.within σ = true := by decide) : Frame σ s (Machine.countRefusal t) := by
  refine h.lift hw ?_
  unfold Machine.countRefusal
  exact raise <| put <| bump refl

def Scope.snapMeets : Scope := Scope.sramMeets

theorem snapMeets {a : ℕ} (h : Frame σ s t) (hw : Scope.snapMeets.within σ = true := by decide) : Frame σ s (Machine.snapMeets a t) := by
  refine h.lift hw ?_
  unfold Machine.snapMeets
  exact ite (sramMeets refl) refl

def Scope.mbSnap : Scope := join [Scope.countRefusal, Scope.snapMeets]

theorem mbSnap {o a : ℕ} (h : Frame σ s t) (hw : Scope.mbSnap.within σ = true := by decide) : Frame σ s (Machine.mbSnap o a t).2 := by
  refine h.lift hw ?_
  unfold Machine.mbSnap
  split
  · exact refl
  · exact iteSnd (countRefusal refl) (iteSnd refl (snapMeets refl))

def Scope.mbSubmit : Scope := Scope.submitBytes

theorem mbSubmit {o q size : ℕ} {data : SMap Word} (h : Frame σ s t) (hw : Scope.mbSubmit.within σ = true := by decide) : Frame σ s
    (Machine.mbSubmit o q size data t).2 := by
  refine h.lift hw ?_
  unfold Machine.mbSubmit
  exact iteSnd refl (submitBytes refl)

def Scope.mbTake : Scope := Scope.takeS

theorem mbTake {o q : ℕ} (h : Frame σ s t) (hw : Scope.mbTake.within σ = true := by decide) :
    Frame σ s (Machine.mbTake o q t).2 := by
  suffices core : ∀ {s}, Frame Scope.mbTake s t → Frame Scope.mbTake s (Machine.mbTake o q t).2 from h.lift hw (core refl)
  intro s h
  have htake : Frame Scope.mbTake s (Machine.takeS q (t.classOf o) t).2.2 := takeS h
  unfold Machine.mbTake
  dsimp only
  split
  · exact htake
  · exact htake

def Scope.mbRequest : Scope := join [Scope.setOrg, Scope.mbSnap, Scope.mbSubmit, Scope.mbTake]

theorem mbRequest {o : ℕ} {v : Word} (h : Frame σ s t) (hw : Scope.mbRequest.within σ = true := by decide) : Frame σ s
    (Machine.mbRequest o v t) := by
  refine h.lift hw ?_
  unfold Machine.mbRequest
  exact ite (ite refl (setOrg refl)) (ite (setOrg refl) (setOrg <| iteSnd (mbSnap refl) (iteSnd (mbSubmit refl) (iteSnd (mbTake refl)
      refl))))

def Scope.mailboxCompleteS : Scope := Scope.setOrg

theorem mailboxCompleteS {o : ℕ} (h : Frame σ s t) (hw : Scope.mailboxCompleteS.within σ = true := by decide) : Frame σ s
    (Machine.mailboxCompleteS o t) := by
  refine h.lift hw ?_
  unfold Machine.mailboxCompleteS
  dsimp only
  split
  · exact refl
  · exact ite refl (setOrg refl)

def Scope.mailboxRead : Scope := Scope.setOrg

theorem mailboxRead {o off : ℕ} (h : Frame σ s t) (hw : Scope.mailboxRead.within σ = true := by decide) : Frame σ s (Machine.mailboxRead
    o off t).2 := by
  refine h.lift hw ?_
  unfold Machine.mailboxRead
  exact iteSnd refl (iteSnd (setOrg refl) (iteSnd refl (iteSnd refl (iteSnd refl refl))))

def Scope.mailboxWrite : Scope := join [Scope.mbRequest, Scope.setOrg]

theorem mailboxWrite {o off : ℕ} {v : Word} (h : Frame σ s t) (hw : Scope.mailboxWrite.within σ = true := by decide) : Frame σ s
    (Machine.mailboxWrite o off v t) := by
  refine h.lift hw ?_
  unfold Machine.mailboxWrite
  exact ite (mbRequest refl) (ite (setOrg refl) refl)

def Scope.clearBits : Scope := allRegs

theorem clearBits {a m : ℕ} (h : Frame σ s t) (hw : Scope.clearBits.within σ = true := by decide) : Frame σ s (Machine.clearBits a m t)
    := by
  refine h.lift hw ?_
  unfold Machine.clearBits
  exact setRegAny refl

def Scope.readReg : Scope := join [ofRegs [.VETCH_CNT], Scope.clearBits]

theorem readReg {r : RegAt} {a : ℕ} (h : Frame σ s t) (hw : Scope.readReg.within σ = true := by decide) : Frame σ s (Machine.readReg r a
    t).2 := by
  refine h.lift hw ?_
  unfold Machine.readReg
  exact iteSnd refl (iteSnd refl (when (fun h => bump h) <| ite refl (clearBits refl)))

def Scope.writeHook : Scope := join [ofParts [.tansyUnrel], ofRegs [.TANSY_WR], Scope.hookEdition, Scope.hookReinit, Scope.hookWdogCfg,
    Scope.hookWdogKick, Scope.hookLg, Scope.hookXipCache, Scope.hookRefCfg, Scope.hookRefFreq, Scope.hookTbSlew, Scope.hookEvRoute,
    Scope.hookCoreCtrl, Scope.hookLdCfg, Scope.captureCommit, Scope.hookSorCtrl, Scope.hookSorReq, Scope.hookSmCfg, Scope.hookSmGpio,
    Scope.hookSmTime, Scope.hookSmCmd, Scope.hookRyGcfg, Scope.hookRyCfg, Scope.hookRacc, Scope.hookFwd, Scope.hookWtCtrl,
    Scope.engReinitS, Scope.hookTsIn, Scope.hookTsCmd, Scope.hookRingCfg, Scope.ringRelS, Scope.hookPortCfg, Scope.capturePort,
    Scope.hookPortCeil, Scope.hookPortTrim, Scope.hookQdCtrl, Scope.hookQdLen]

theorem writeHook {o : ℕ} {r : RegAt} {m old new : Word} (h : Frame σ s t) (hw : Scope.writeHook.within σ = true := by decide) : Frame σ
    s (Machine.writeHook o r m old new t).2 := by
  refine h.lift hw ?_
  unfold Machine.writeHook
  dsimp only
  split
  · exact iteSnd refl (hookEdition refl)
  · exact hookReinit refl
  · exact hookWdogCfg refl
  · exact hookWdogKick refl
  · exact hookLg refl
  · exact hookLg refl
  · exact hookLg refl
  · exact hookXipCache refl
  · exact iteSnd (withTansyUnrel <| put refl) (iteSnd refl (withTansyUnrel refl))
  · exact hookRefCfg refl
  · exact refl
  · exact hookRefFreq refl
  · exact hookRefFreq refl
  · exact hookTbSlew refl
  · exact hookEvRoute refl
  · exact hookCoreCtrl refl
  · exact hookLdCfg refl
  · exact iteSnd (captureCommit refl) refl
  · exact hookSorCtrl refl
  · exact hookSorReq refl
  · exact hookSmCfg refl
  · exact hookSmGpio refl
  · exact hookSmTime refl
  · exact hookSmCmd refl
  · exact refl
  · exact hookRyGcfg refl
  · exact hookRyCfg refl
  · exact hookRacc refl
  · exact hookFwd refl
  · exact hookFwd refl
  · exact hookFwd refl
  · exact hookWtCtrl refl
  · exact iteSnd (engReinitS refl) refl
  · exact hookTsIn refl
  · exact hookTsCmd refl
  · exact hookRingCfg refl
  · exact ringRelS refl
  · exact hookPortCfg refl
  · exact iteSnd (capturePort refl) refl
  · exact hookPortCeil refl
  · exact refl
  · exact refl
  · exact hookPortTrim refl
  · exact hookQdCtrl refl
  · exact hookQdLen refl
  · exact refl

def Scope.groupWritten : Scope := join [Scope.refreshGroup, Scope.skewRefresh]

theorem groupWritten (h : Frame σ s t) (hw : Scope.groupWritten.within σ = true := by decide) : Frame σ s (Machine.groupWritten t) := by
  refine h.lift hw ?_
  unfold Machine.groupWritten
  exact forBelow (fun _ _ h => refreshGroup h) <| forList (fun _ _ h => skewRefresh h) refl

def Scope.afterWrite : Scope := join [Scope.groupWritten, Scope.cdlyEnded, Scope.cdlyHiWritten, Scope.smCfgWritten, Scope.sspCfgWritten,
    Scope.ryCfgWritten, Scope.engCfgWritten, Scope.refreshPort, Scope.portTrimWritten, Scope.skewRefresh, Scope.cdInputCheck,
    Scope.checkStarve, Scope.queueEnabledRy]

theorem afterWrite {r : RegAt} {old : Word} (h : Frame σ s t) (hw : Scope.afterWrite.within σ = true := by decide) : Frame σ s
    (Machine.afterWrite r old t) := by
  refine h.lift hw ?_
  unfold Machine.afterWrite
  dsimp only
  split
  · exact groupWritten refl
  · exact groupWritten refl
  · exact groupWritten refl
  · exact groupWritten refl
  · exact ite (cdlyEnded <| cdlyHiWritten refl) (cdlyHiWritten refl)
  · exact smCfgWritten refl
  · exact smCfgWritten refl
  · exact sspCfgWritten refl
  · exact ryCfgWritten refl
  · exact engCfgWritten refl
  · exact refreshPort refl
  · exact portTrimWritten refl
  · exact skewRefresh refl
  · exact cdInputCheck refl
  · exact cdInputCheck refl
  · exact checkStarve <| ite (queueEnabledRy refl) refl
  · exact checkStarve refl
  · exact refl

def Scope.rsvdViolation : Scope := join [ofRegs [.VETCH_STAT], Scope.log]

theorem rsvdViolation {o a : ℕ} {old v : Word} (h : Frame σ s t) (hw : Scope.rsvdViolation.within σ = true := by decide) : Frame σ s
    (Machine.rsvdViolation o a old v t) := by
  refine h.lift hw ?_
  unfold Machine.rsvdViolation
  exact log <| put refl

def Scope.hwoViolation : Scope := join [ofRegs [.VETCH_STAT], Scope.log]

theorem hwoViolation {o a : ℕ} {old v : Word} (h : Frame σ s t) (hw : Scope.hwoViolation.within σ = true := by decide) : Frame σ s
    (Machine.hwoViolation o a old v t) := by
  refine h.lift hw ?_
  unfold Machine.hwoViolation
  exact log <| put refl

def Scope.violations : Scope := join [ofRegs [.VETCH_STAT], Scope.lockViolation, Scope.rsvdViolation, Scope.hwoViolation]

theorem violations {o : ℕ} {r : RegAt} {a : ℕ} {held v : Word} (h : Frame σ s t) (hw : Scope.violations.within σ = true := by decide) :
    Frame σ s (Machine.violations o r a held v t) := by
  refine h.lift hw ?_
  unfold Machine.violations
  exact when (fun h => hwoViolation h) <| when (fun h => ite (put h) (rsvdViolation h)) <| when (fun h => lockViolation h) refl

def Scope.directWrite : Scope := join [allRegs, Scope.afterWrite, Scope.writeHook, Scope.violations, Scope.log]

theorem directWrite {o : ℕ} {r : RegAt} {a : ℕ} {v : Word} {bad : Option Word} (h : Frame σ s t) (hw : Scope.directWrite.within σ = true
    := by decide) : Frame σ s (Machine.directWrite o r a v t bad) := by
  refine h.lift hw ?_
  unfold Machine.directWrite
  exact ite (afterWrite <| setRegAny <| writeHook <| when (fun h => log h) <| violations refl) (setRegAny <| when (fun h => log h) <|
      violations refl)

def Scope.pairFail : Scope := join [ofRegs [.VETCH_CNT2, .VETCH_STAT], Scope.log, Scope.raise]

theorem pairFail {o a code : ℕ} {v w : Word} (h : Frame σ s t) (hw : Scope.pairFail.within σ = true := by decide) : Frame σ s
    (Machine.pairFail o a code v w t) := by
  refine h.lift hw ?_
  unfold Machine.pairFail
  exact log <| raise <| bump <| put <| put refl

def Scope.dropPair : Scope := Scope.setOrg

theorem dropPair {o : ℕ} (h : Frame σ s t) (hw : Scope.dropPair.within σ = true := by decide) : Frame σ s (Machine.dropPair o t) := by
  refine h.lift hw ?_
  unfold Machine.dropPair
  exact setOrg refl

def Scope.pairTick : Scope := join [Scope.pairFail, Scope.dropPair, Scope.setOrg]

theorem pairTick {o a : ℕ} {write : Bool} {v : Word} (h : Frame σ s t) (hw : Scope.pairTick.within σ = true := by decide) : Frame σ s
    (Machine.pairTick o a write v t) := by
  refine h.lift hw ?_
  unfold Machine.pairTick
  split
  · exact refl
  · exact ite (pairFail <| dropPair refl) (ite refl (setOrg refl))

def Scope.pairApply : Scope := join [allRegs, Scope.rstCtrlWrite, Scope.portMenS, Scope.bootCtrlWrite, Scope.epochCtrlWrite,
    Scope.nvmCtrlWrite, Scope.wtEvict]

theorem pairApply {r : RegAt} {a : ℕ} {v : Word} (h : Frame σ s t) (hw : Scope.pairApply.within σ = true := by decide) : Frame σ s
    (Machine.pairApply r a v t) := by
  refine h.lift hw ?_
  unfold Machine.pairApply
  dsimp only
  split
  · exact rstCtrlWrite refl
  · exact portMenS <| setRegAny refl
  · exact bootCtrlWrite refl
  · exact epochCtrlWrite refl
  · exact nvmCtrlWrite refl
  · exact wtEvict <| setRegAny refl
  · exact setRegAny refl

def Scope.pairRsvd : Scope := Scope.rsvdViolation

theorem pairRsvd {o : ℕ} {r : RegAt} {a : ℕ} {v : Word} (h : Frame σ s t) (hw : Scope.pairRsvd.within σ = true := by decide) : Frame σ s
    (Machine.pairRsvd o r a v t) := by
  refine h.lift hw ?_
  unfold Machine.pairRsvd
  exact when (fun h => rsvdViolation h) refl

def Scope.pairComplete : Scope := join [Scope.pairRsvd, Scope.lockViolation, Scope.pairApply, Scope.log]

theorem pairComplete {o : ℕ} {r : RegAt} {a : ℕ} {v : Word} (h : Frame σ s t) (hw : Scope.pairComplete.within σ = true := by decide) :
    Frame σ s (Machine.pairComplete o r a v t) := by
  refine h.lift hw ?_
  unfold Machine.pairComplete
  exact ite (pairRsvd <| lockViolation refl) (ite (pairApply <| when (fun h => log h) <| pairRsvd refl) (pairApply <| log <| pairRsvd
      refl))

def Scope.thawed : Scope := join [Scope.engCfgWritten, Scope.checkStarve, Scope.queueOpens]

theorem thawed {a : ℕ} (h : Frame σ s t) (hw : Scope.thawed.within σ = true := by decide) : Frame σ s (Machine.thawed a t) := by
  refine h.lift hw ?_
  unfold Machine.thawed
  split
  · exact ite (engCfgWritten refl) (ite (checkStarve <| queueOpens refl) refl)
  · exact refl

def Scope.restoreParity : Scope := ofParts [.parBad]

theorem restoreParity {a : ℕ} (h : Frame σ s t) (hw : Scope.restoreParity.within σ = true := by decide) : Frame σ s
    (Machine.restoreParity a t) := by
  refine h.lift hw ?_
  unfold Machine.restoreParity
  exact withParBad refl

def Scope.frozenPair : Scope := join [allRegs, Scope.pairComplete, Scope.discardFrozen, Scope.restoreParity, Scope.log, Scope.pairRsvd,
    Scope.thawed]

theorem frozenPair {o : ℕ} {r : RegAt} {a : ℕ} {v : Word} (h : Frame σ s t) (hw : Scope.frozenPair.within σ = true := by decide) : Frame
    σ s (Machine.frozenPair o r a v t) := by
  refine h.lift hw ?_
  unfold Machine.frozenPair
  exact ite (ite (pairComplete refl) (discardFrozen refl)) (ite (ite (pairComplete <| restoreParity refl) (log <| setRegAny <| pairRsvd <|
      restoreParity refl)) (thawed <| pairComplete <| restoreParity refl))

def Scope.pairWrite : Scope := join [Scope.setOrg, Scope.pairFail, Scope.dropPair, Scope.frozenPair, Scope.pairComplete]

theorem pairWrite {o : ℕ} {r : RegAt} {a : ℕ} {v : Word} (h : Frame σ s t) (hw : Scope.pairWrite.within σ = true := by decide) : Frame σ
    s (Machine.pairWrite o r a v t) := by
  refine h.lift hw ?_
  unfold Machine.pairWrite
  dsimp only
  split
  · exact setOrg <| (by
      split
      · exact pairFail refl
      · exact refl)
  · split
    · exact pairFail refl
    · split
      · exact pairFail <| dropPair refl
      · split
        · exact pairFail <| dropPair refl
        · split
          · exact ite (frozenPair <| dropPair refl) (pairComplete <| dropPair refl)
          · exact dropPair refl

def Scope.aliasWrite : Scope := join [allRegs, Scope.pairFail, Scope.lockViolation, Scope.writeHook, Scope.clearBits, Scope.log,
    Scope.afterWrite]

theorem aliasWrite {o : ℕ} {r : RegAt} {a view : ℕ} {v : Word} (h : Frame σ s t) (hw : Scope.aliasWrite.within σ = true := by decide) :
    Frame σ s (Machine.aliasWrite o r a view v t) := by
  refine h.lift hw ?_
  unfold Machine.aliasWrite
  exact ite (pairFail refl) (ite (when (fun h => log h) <| ite (ite (ite (iteSnd (when (fun h => lockViolation h) refl) (writeHook <|
      when (fun h => lockViolation h) refl)) (setRegAny <| iteSnd (when (fun h => lockViolation h) refl) (writeHook <| when (fun h =>
      lockViolation h) refl))) (clearBits <| ite (iteSnd (when (fun h => lockViolation h) refl) (writeHook <| when (fun h =>
      lockViolation h) refl)) (setRegAny <| iteSnd (when (fun h => lockViolation h) refl) (writeHook <| when (fun h => lockViolation h)
      refl)))) (ite (iteSnd (when (fun h => lockViolation h) refl) (writeHook <| when (fun h => lockViolation h) refl)) (setRegAny <|
      iteSnd (when (fun h => lockViolation h) refl) (writeHook <| when (fun h => lockViolation h) refl)))) (afterWrite <| when (fun h =>
      log h) <| ite (ite (ite (iteSnd (when (fun h => lockViolation h) refl) (writeHook <| when (fun h => lockViolation h) refl))
      (setRegAny <| iteSnd (when (fun h => lockViolation h) refl) (writeHook <| when (fun h => lockViolation h) refl))) (clearBits <| ite
      (iteSnd (when (fun h => lockViolation h) refl) (writeHook <| when (fun h => lockViolation h) refl)) (setRegAny <| iteSnd (when (fun h
      => lockViolation h) refl) (writeHook <| when (fun h => lockViolation h) refl)))) (ite (iteSnd (when (fun h => lockViolation h)
      refl) (writeHook <| when (fun h => lockViolation h) refl)) (setRegAny <| iteSnd (when (fun h => lockViolation h) refl) (writeHook <|
      when (fun h => lockViolation h) refl)))))

def Scope.frozenDiscard : Scope := join [Scope.discardFrozen, Scope.violations]

theorem frozenDiscard {o : ℕ} {r : RegAt} {a : ℕ} {v : Word} (h : Frame σ s t) (hw : Scope.frozenDiscard.within σ = true := by decide) :
    Frame σ s (Machine.frozenDiscard o r a v t) := by
  refine h.lift hw ?_
  unfold Machine.frozenDiscard
  exact ite (discardFrozen refl) (violations refl)

def Scope.frozenAlias : Scope := join [Scope.aliasWrite, Scope.lockViolation, Scope.discardFrozen]

theorem frozenAlias {o : ℕ} {r : RegAt} {a view : ℕ} {v : Word} (h : Frame σ s t) (hw : Scope.frozenAlias.within σ = true := by decide)
    : Frame σ s (Machine.frozenAlias o r a view v t) := by
  refine h.lift hw ?_
  unfold Machine.frozenAlias
  exact ite (aliasWrite <| when (fun h => lockViolation h) refl) (ite (discardFrozen <| when (fun h => lockViolation h) refl) (when (fun
      h => lockViolation h) refl))

def Scope.frozenWrite : Scope := join [allRegs, Scope.frozenDiscard, Scope.restoreParity, Scope.violations, Scope.log, Scope.thawed,
    Scope.directWrite]

theorem frozenWrite {o : ℕ} {r : RegAt} {a : ℕ} {v : Word} (h : Frame σ s t) (hw : Scope.frozenWrite.within σ = true := by decide) :
    Frame σ s (Machine.frozenWrite o r a v t) := by
  refine h.lift hw ?_
  unfold Machine.frozenWrite
  exact ite (frozenDiscard refl) (ite (when (fun h => log h) <| setRegAny <| violations <| restoreParity refl) (thawed <| directWrite <|
      restoreParity refl))

def Scope.refuseAccess : Scope := join [Scope.countRefusal, Scope.dropPair, Scope.log]

theorem refuseAccess {o a : ℕ} {write : Bool} {v : Word} (h : Frame σ s t) (hw : Scope.refuseAccess.within σ = true := by decide) :
    Frame σ s (Machine.refuseAccess o a write v t) := by
  refine h.lift hw ?_
  unfold Machine.refuseAccess
  exact when (fun h => log h) <| countRefusal <| (by
    split
    · exact ite (dropPair refl) refl
    · exact refl)

def Scope.reservedWrite : Scope := Scope.rsvdViolation

theorem reservedWrite {o a : ℕ} {v : Word} (h : Frame σ s t) (hw : Scope.reservedWrite.within σ = true := by decide) : Frame σ s
    (Machine.reservedWrite o a v t) := by
  refine h.lift hw ?_
  unfold Machine.reservedWrite
  exact rsvdViolation refl

def Scope.ctxWrite : Scope := join [ofParts [.badWords, .ecc, .mem, .ctxBad], Scope.log]

theorem ctxWrite {o a off : ℕ} {v : Word} (h : Frame σ s t) (hw : Scope.ctxWrite.within σ = true := by decide) : Frame σ s
    (Machine.ctxWrite o a off v t) := by
  refine h.lift hw ?_
  unfold Machine.ctxWrite
  exact ite (log refl) (when (fun h => log h) <| ite (withBadWordsEcc <| setWord refl) (withCtxBad <| withBadWordsEcc <| setWord refl))

def Scope.ctxRead : Scope := join [ofParts [.freeCtr], Scope.sramMeets, Scope.sramFix]

theorem ctxRead {off : ℕ} (h : Frame σ s t) (hw : Scope.ctxRead.within σ = true := by decide) : Frame σ s (Machine.ctxRead off t).2 := by
  refine h.lift hw ?_
  unfold Machine.ctxRead
  exact iteSnd refl (iteSnd (withFreeCtr <| sramMeets refl) (sramFix refl))

def Scope.registerWrite : Scope := join [Scope.reservedWrite, Scope.refuseAccess, Scope.log, Scope.frozenAlias, Scope.aliasWrite,
    Scope.pairWrite, Scope.frozenWrite, Scope.directWrite]

theorem registerWrite {o a : ℕ} {v : Word} (h : Frame σ s t) (hw : Scope.registerWrite.within σ = true := by decide) :
    Frame σ s (Machine.registerWrite o a v t).2 := by
  suffices core : ∀ {s}, Frame Scope.registerWrite s t → Frame Scope.registerWrite s (Machine.registerWrite o a v t).2 from h.lift hw
      (core refl)
  intro s h
  have halias {b : Bool} {r : RegAt} {x view : ℕ} :
      Frame Scope.registerWrite s ((if b then Machine.frozenAlias else Machine.aliasWrite) o r x view v t) := by
    split
    · exact frozenAlias h
    · exact aliasWrite h
  unfold Machine.registerWrite
  dsimp only
  split
  · exact reservedWrite h
  · exact iteSnd (refuseAccess h) <| iteSnd (log h) <| iteSnd halias <| iteSnd (pairWrite h) <| iteSnd (frozenWrite h) (directWrite h)

def Scope.vetchWrite : Scope := join [Scope.refuseAccess, Scope.mailboxWrite, Scope.pairTick, Scope.reservedWrite, Scope.msixTableWrite,
    Scope.ctxWrite, Scope.registerWrite]

theorem vetchWrite {o a : ℕ} {v : Word} (h : Frame σ s t) (hw : Scope.vetchWrite.within σ = true := by decide) : Frame σ s
    (Machine.vetchWrite o a v t).2 := by
  refine h.lift hw ?_
  unfold Machine.vetchWrite
  split
  · exact refl
  · split
    · exact iteSnd refl (iteSnd (refuseAccess refl) (ite (mailboxWrite refl) refl))
    · dsimp only
      split
      · exact refuseAccess <| pairTick refl
      · split
        · exact reservedWrite <| pairTick refl
        · split
          · exact refuseAccess <| pairTick refl
          · split
            · exact msixTableWrite <| pairTick refl
            · exact ctxWrite <| pairTick refl
            · exact iteSnd (pairTick refl) (registerWrite <| pairTick refl)

def Scope.registerRead : Scope := Scope.readReg

theorem registerRead {a : ℕ} (h : Frame σ s t) (hw : Scope.registerRead.within σ = true := by decide) : Frame σ s (Machine.registerRead
    a t).2 := by
  refine h.lift hw ?_
  unfold Machine.registerRead
  dsimp only
  split
  · exact refl
  · exact iteSnd refl (iteSnd refl (readReg refl))

def Scope.vetchRead : Scope := join [Scope.refuseAccess, Scope.mailboxRead, Scope.pairTick, Scope.ctxRead, Scope.registerRead]

/-- The mailbox branch of `Machine.vetchRead`, with the read and its bounds left open: a numeral bound would be evaluated. -/
theorem mailboxEnds {r : Word × State} {b c d : Prop} [Decidable b] [Decidable c] [Decidable d] {u : State}
    (h : Frame σ s t) (hrefused : Frame σ s u) (hread : Frame σ s r.2) :
    Frame σ s (if b then (none, t) else if c then (none, u) else
      if d then (match r with | (w, t) => (some w, t)) else ((some 0 : Option Word), t)).2 :=
  iteSnd h <| iteSnd hrefused <| iteSnd hread h

theorem vetchRead {o a : ℕ} (h : Frame σ s t) (hw : Scope.vetchRead.within σ = true := by decide) :
    Frame σ s (Machine.vetchRead o a t).2 := by
  suffices core : ∀ {s}, Frame Scope.vetchRead s t → Frame Scope.vetchRead s (Machine.vetchRead o a t).2 from h.lift hw (core refl)
  intro s h
  have htick : Frame Scope.vetchRead s (Machine.pairTick o a false 0 t) := pairTick h
  unfold Machine.vetchRead
  refine iteSnd h <| iteSnd ?_ ?_
  · generalize 0x41000 = c, a - 0x40000 = off
    generalize hr : Machine.mailboxRead o off t = r
    exact mailboxEnds h (refuseAccess h) (hr ▸ mailboxRead h)
  generalize Machine.pairTick o a false 0 t = u at *
  have hrefused : Frame Scope.vetchRead s (Machine.refuseAccess o a false 0 u) := refuseAccess htick
  refine iteSnd hrefused <| iteSnd htick <| iteSnd hrefused ?_
  split
  · exact htick
  · exact htick
  · next off _ _ _ =>
      have hread : Frame Scope.vetchRead s (Machine.ctxRead off u).2 := ctxRead htick
      generalize Machine.ctxRead off u = r at *
      exact hread
  · have hread : Frame Scope.vetchRead s (Machine.registerRead a u).2 := registerRead htick
    generalize Machine.registerRead a u = r at *
    exact hread

def Scope.cfgparScrubS : Scope := join [ofParts [.parBad], ofRegs [.CFGPAR_CNT, .VETCH_STAT, .CFGPAR_STAT], Scope.thawed, Scope.log,
    Scope.raise]

theorem cfgparScrubS {a : ℕ} {v : Word} (h : Frame σ s t) (hw : Scope.cfgparScrubS.within σ = true := by decide) : Frame σ s
    (Machine.cfgparScrubS a v t) := by
  refine h.lift hw ?_
  unfold Machine.cfgparScrubS
  split
  · exact refl
  · exact ite refl (ite (ite refl (bump refl)) (ite refl (thawed <| withParBad <| log <| raise <| put <| put <| put refl)))

def Scope.tansyLose : Scope := ofRegs [.TANSY_STAT, .TANSY_CNT]

theorem tansyLose (h : Frame σ s t) (hw : Scope.tansyLose.within σ = true := by decide) : Frame σ s (Machine.tansyLose t) := by
  refine h.lift hw ?_
  unfold Machine.tansyLose
  exact put <| bump refl

def Scope.tansyPut : Scope := join [ofParts [.tansySeq, .mem, .badWords, .ecc, .tansyUnrel], ofRegs [.TANSY_WR, .TANSY_STAT, .TANSY_CNT]]

theorem tansyPut {r : LogRec} (h : Frame σ s t) (hw : Scope.tansyPut.within σ = true := by decide) : Frame σ s (Machine.tansyPut r t) :=
    by
  refine h.lift hw ?_
  unfold Machine.tansyPut
  exact ite (ite (withTansyUnrel <| put <| put <| withTansySeq <| put <| store refl) (withTansyUnrel <| withTansySeq <| put <| store
      refl)) (ite (withTansyUnrel <| withTansySeq <| put <| store refl) (put <| bump <| withTansySeq <| put <| store refl))

def Scope.tansyStoreS : Scope := join [ofParts [.tansyQ, .tansyGap], Scope.tansyLose, Scope.raise, Scope.tansyPut]

theorem tansyStoreS (h : Frame σ s t) (hw : Scope.tansyStoreS.within σ = true := by decide) : Frame σ s (Machine.tansyStoreS t) := by
  refine h.lift hw ?_
  unfold Machine.tansyStoreS
  split
  · exact refl
  · split
    · split
      · exact refl
      · exact tansyLose <| withTansyQTansyGap refl
    · split
      · split
        · exact refl
        · exact tansyLose <| withTansyQTansyGap refl
      · split
        · exact raise <| tansyPut <| withTansyGap refl
        · split
          · exact refl
          · exact tansyPut <| withTansyQ refl

def Scope.bar0Access : Scope := join [ofParts [.outs], Scope.vetchWrite, Scope.vetchRead]

theorem bar0Access {a : ℕ} {write : Bool} {v : Word} (h : Frame σ s t) (hw : Scope.bar0Access.within σ = true := by decide) : Frame σ s
    (Machine.bar0Access a write v t) := by
  refine h.lift hw ?_
  unfold Machine.bar0Access
  exact ite (vetchWrite refl) (emit <| vetchRead refl)

def Scope.bar0RequestS : Scope := join [ofParts [.outs], Scope.bar0Access, Scope.barRefused]

theorem bar0RequestS {r : BarRequest} (h : Frame σ s t) (hw : Scope.bar0RequestS.within σ = true := by decide) : Frame σ s
    (Machine.bar0RequestS r t) := by
  refine h.lift hw ?_
  unfold Machine.bar0RequestS
  exact ite refl (ite (forBelow (fun _ _ h => bar0Access h) refl) (ite (barRefused refl) (emit <| barRefused refl)))

def Scope.handleBad : Scope := join [Scope.mirrorMeets, Scope.sramMeets]

theorem handleBad {off n : ℕ} (h : Frame σ s t) (hw : Scope.handleBad.within σ = true := by decide) : Frame σ s (Machine.handleBad off n
    t) := by
  refine h.lift hw ?_
  unfold Machine.handleBad
  exact forList (fun _ _ h => mirrorMeets h) <| sramMeets refl

def Scope.bar2ReadS : Scope := join [ofParts [.outs], Scope.barRefused, Scope.handleBad, Scope.sramFix]

theorem bar2ReadS {off len : ℕ} (h : Frame σ s t) (hw : Scope.bar2ReadS.within σ = true := by decide) : Frame σ s (Machine.bar2ReadS off
    len t) := by
  refine h.lift hw ?_
  unfold Machine.bar2ReadS
  exact ite refl (ite (emit <| barRefused refl) (ite (emit <| handleBad refl) (forList (fun _ _ h => emit h) <| sramFix refl)))

def Scope.malformedTlp : Scope := ofParts [.cfg]

theorem malformedTlp (h : Frame σ s t) (hw : Scope.malformedTlp.within σ = true := by decide) : Frame σ s (Machine.malformedTlp t) := by
  refine h.lift hw ?_
  unfold Machine.malformedTlp
  exact withCfg refl

def Scope.bar2WriteS : Scope := join [Scope.malformedTlp, Scope.logEvent, Scope.barRefused, Scope.programLoad]

theorem bar2WriteS {off : ℕ} {bs : List (Option Byte)} (h : Frame σ s t) (hw : Scope.bar2WriteS.within σ = true := by decide) : Frame σ
    s (Machine.bar2WriteS off bs t) := by
  refine h.lift hw ?_
  unfold Machine.bar2WriteS
  split
  · exact refl
  · split
    · exact malformedTlp refl
    · split
      · exact logEvent <| barRefused refl
      · split
        · exact refl
        · exact programLoad refl

def Scope.sspWord : Scope := ofParts [.outs]

theorem sspWord {r : Bool × List Byte} {bad : Bool} {w : Word} {out : Out} (h : Frame σ s t) (hw : Scope.sspWord.within σ = true
    := by decide) : Frame σ s (Machine.sspWord r bad w out t).2 := by
  refine h.lift hw ?_
  unfold Machine.sspWord
  exact emit <| emit <| emit refl

def Scope.sspReadWords : Scope := join [Scope.vetchRead, Scope.sspWord]

theorem sspReadWords {f : SspFrame} {n : ℕ} (h : Frame σ s t) (hw : Scope.sspReadWords.within σ = true := by decide) :
    Frame σ s (Machine.sspReadWords f n t).2 := by
  suffices core : ∀ {s}, Frame Scope.sspReadWords s t → Frame Scope.sspReadWords s (Machine.sspReadWords f n t).2 from h.lift hw (core
      refl)
  intro s h
  exact List.foldlRecOn (motive := fun r : (Bool × List Byte) × State => Frame Scope.sspReadWords s r.2) _ _ h fun _ hr _ _ => sspWord <|
      vetchRead hr

def Scope.sspMemWords : Scope := join [Scope.sspWord, Scope.handleBad, Scope.sramFix]

theorem sspMemWords {f : SspFrame} {n : ℕ} (h : Frame σ s t) (hw : Scope.sspMemWords.within σ = true := by decide) :
    Frame σ s (Machine.sspMemWords f n t).2 := by
  suffices core : ∀ {s}, Frame Scope.sspMemWords s t → Frame Scope.sspMemWords s (Machine.sspMemWords f n t).2 from h.lift hw (core refl)
  intro s h
  exact List.foldlRecOn (motive := fun r : (Bool × List Byte) × State => Frame Scope.sspMemWords s r.2) _ _ h fun _ hr _ _ =>
    iteSnd (sspWord <| handleBad hr) (sspWord <| sramFix hr)

def Scope.sspWriteWords : Scope := Scope.vetchWrite

theorem sspWriteWords {f : SspFrame} {n : ℕ} (h : Frame σ s t) (hw : Scope.sspWriteWords.within σ = true := by decide) :
    Frame σ s (Machine.sspWriteWords f n t).2 := by
  suffices core : ∀ {s}, Frame Scope.sspWriteWords s t → Frame Scope.sspWriteWords s (Machine.sspWriteWords f n t).2 from h.lift hw
      (core refl)
  intro s h
  exact List.foldlRecOn (motive := fun r : Bool × State => Frame Scope.sspWriteWords s r.2) _ _ h fun _ hr _ _ => vetchWrite hr

def Scope.sspMemWrite : Scope := Scope.programLoad

theorem sspMemWrite {f : SspFrame} {n : ℕ} (h : Frame σ s t) (hw : Scope.sspMemWrite.within σ = true := by decide) : Frame σ s
    (Machine.sspMemWrite f n t) := by
  refine h.lift hw ?_
  unfold Machine.sspMemWrite
  exact ite refl (programLoad refl)

def Scope.streamItems : Scope := Scope.submitBytes

theorem streamItems {q size n first : ℕ} {l : List (List Byte)} (h : Frame σ s t)
    (hw : Scope.streamItems.within σ = true := by decide) : Frame σ s (Machine.streamItems q size l n first t).2.2.2 := by
  induction l generalizing n first t with
  | nil => exact h
  | cons b bs ih =>
    have hone : Frame σ s (Machine.submitBytes q (t.classOf oSsp) b t).2.2 := submitBytes h hw
    unfold Machine.streamItems
    dsimp only
    split
    · exact ih hone
    · exact hone

def Scope.sspStreamDo : Scope := join [ofParts [.wide], ofRegs [.SSP_STREAM, .SSP_STAT], Scope.streamItems]

theorem sspStreamDo {f : SspFrame} {words : ℕ} (h : Frame σ s t) (hw : Scope.sspStreamDo.within σ = true := by decide) : Frame σ s
    (Machine.sspStreamDo f words t).2 := by
  refine h.lift hw ?_
  unfold Machine.sspStreamDo
  exact iteSnd refl (when (fun h => put h) <| setWide <| put <| put <| put <| streamItems refl)

def Scope.sspReject : Scope := join [ofRegs [.SSP_CNT, .SSP_STAT], Scope.logEvent, Scope.raise]

theorem sspReject {c : ℕ} (h : Frame σ s t) (hw : Scope.sspReject.within σ = true := by decide) : Frame σ s (Machine.sspReject c t) := by
  refine h.lift hw ?_
  unfold Machine.sspReject
  exact logEvent <| raise <| bump <| put <| put refl

def Scope.sspGive : Scope := join [Scope.sspReadWords, Scope.sspMemWords]

theorem sspGive {f : SspFrame} {n : ℕ} (h : Frame σ s t) (hw : Scope.sspGive.within σ = true := by decide) : Frame σ s (Machine.sspGive
    f n t).2 := by
  refine h.lift hw ?_
  unfold Machine.sspGive
  exact iteSnd (sspReadWords refl) (iteSnd (sspMemWords refl) refl)

def Scope.sspApply : Scope := join [Scope.sspWriteWords, Scope.sspStreamDo, Scope.sspMemWrite]

theorem sspApply {f : SspFrame} {n : ℕ} (h : Frame σ s t) (hw : Scope.sspApply.within σ = true := by decide) : Frame σ s
    (Machine.sspApply f n t).2 := by
  refine h.lift hw ?_
  unfold Machine.sspApply
  exact iteSnd (sspWriteWords refl) (iteSnd (sspStreamDo refl) (iteSnd (sspMemWrite refl) refl))

def Scope.sspEnd : Scope := join [ofParts [.outs, .ssp], ofRegs [.SSP_STAT, .SSP_CNT], Scope.sspReject]

theorem sspEnd {f : SspFrame} {rej perm : Bool} {body : State → (Bool × Bool) × State}
    (hf : ∀ {t}, Frame σ s t → Frame σ s (body t).2) (h : Frame σ s t) (hw : Scope.sspEnd.within σ = true := by decide) :
    Frame σ s (Machine.sspEnd f rej perm body t) :=
  have q {a : Scope} (ha : a.within Scope.sspEnd = true := by decide) : a.within σ = true := Scope.within_trans ha hw
  have hbody : Frame σ s (body (t.when _ (·.emit (.srdy false)))).2 := hf <| when (fun h => emit h q) h
  ite hbody <| withSsp (when (fun h => emit h q) <| when (fun h => put h q) <|
    put (put (bump (when (fun h => sspReject h q) hbody) q) q) q) q

def Scope.sspFrame : Scope := join [ofParts [.outs], Scope.sspGive, Scope.sspEnd, Scope.sspApply, Scope.sspReject]

theorem sspFrame {want : ℕ} {f : SspFrame} (h : Frame σ s t) (hw : Scope.sspFrame.within σ = true := by decide) :
    Frame σ s (Machine.sspFrame want f t) := by
  suffices core : ∀ {s}, Frame Scope.sspFrame s t → Frame Scope.sspFrame s (Machine.sspFrame want f t) from h.lift hw (core refl)
  intro s h
  unfold Machine.sspFrame
  dsimp only
  refine ite h ?_
  split
  · exact sspEnd (fun h => sspReject <| sspApply h) <| emit <| sspGive <| when emit h
  · exact sspEnd sspApply <| emit <| sspGive <| when emit h

def Scope.rxRreqS : Scope := join [Scope.receive, Scope.routed, Scope.vetchWrite, Scope.sendFrame, Scope.vetchRead]

theorem rxRreqS {l : ℕ} {f : RyFrame} (h : Frame σ s t) (hw : Scope.rxRreqS.within σ = true := by decide) : Frame σ s (Machine.rxRreqS l
    f t) := by
  refine h.lift hw ?_
  unfold Machine.rxRreqS
  exact receive (fun h => routed (fun h => ite (sendFrame <| vetchWrite h) (sendFrame <| vetchRead h)) h) refl

def Scope.engineWrite : Scope := join [Scope.vetchWrite, Scope.handlerFault]

theorem engineWrite {e a : ℕ} {v : Word} (h : Frame σ s t) (hw : Scope.engineWrite.within σ = true := by decide) : Frame σ s
    (Machine.engineWrite e a v t).2 := by
  refine h.lift hw ?_
  unfold Machine.engineWrite
  exact iteSnd refl (ite (handlerFault <| vetchWrite refl) (vetchWrite refl))

def Scope.engineRead : Scope := join [Scope.handlerFault, Scope.vetchRead]

theorem engineRead {e a : ℕ} (h : Frame σ s t) (hw : Scope.engineRead.within σ = true := by decide) :
    Frame σ s (Machine.engineRead e a t).2 := by
  suffices core : ∀ {s}, Frame Scope.engineRead s t → Frame Scope.engineRead s (Machine.engineRead e a t).2 from h.lift hw (core refl)
  intro s h
  unfold Machine.engineRead
  refine iteSnd h <| iteSnd (handlerFault h) ?_
  have hread : Frame Scope.engineRead s (Machine.vetchRead e a t).2 := vetchRead h
  split
  · next heq => exact of_eq heq hread
  · next heq => exact handlerFault <| of_eq heq hread

def Scope.listApply : Scope := join [ofRegs [.BOOT_STAT], Scope.vetchWrite]

theorem listApply {x : ℕ × Word} (h : Frame σ s t) (hw : Scope.listApply.within σ = true := by decide) : Frame σ s (Machine.listApply x
    t) := by
  refine h.lift hw ?_
  unfold Machine.listApply
  exact ite (put refl) (vetchWrite refl)

def Scope.bootListApplyS : Scope := join [ofParts [.boot], Scope.checkStarveAll, Scope.masterChip, Scope.refreshLevel, Scope.setLevel,
    Scope.listApply]

theorem bootListApplyS (h : Frame σ s t) (hw : Scope.bootListApplyS.within σ = true := by decide) :
    Frame σ s (Machine.bootListApplyS t) := by
  suffices core : ∀ {s}, Frame Scope.bootListApplyS s t → Frame Scope.bootListApplyS s (Machine.bootListApplyS t) from h.lift hw (core
      refl)
  intro s h
  unfold Machine.bootListApplyS
  refine ite h <| checkStarveAll <| forBelow (fun _ _ h => ite h (masterChip h)) <| refreshLevel <| setLevel <| withBoot ?_
  exact List.foldlRecOn (motive := Frame Scope.bootListApplyS s) _ _ h fun _ hr _ _ => listApply hr

def Scope.originWrite : Scope := join [Scope.engineWrite, Scope.vetchWrite]

theorem originWrite {o a : ℕ} {v : Word} (h : Frame σ s t) (hw : Scope.originWrite.within σ = true := by decide) : Frame σ s
    (Machine.originWrite o a v t).2 := by
  refine h.lift hw ?_
  unfold Machine.originWrite
  exact iteSnd refl (iteSnd (engineWrite refl) (vetchWrite refl))

def Scope.bankTick : Scope := Scope.membankS

theorem bankTick (h : Frame σ s t) (hw : Scope.bankTick.within σ = true := by decide) : Frame σ s (Machine.bankTick t) := by
  refine h.lift hw ?_
  unfold Machine.bankTick
  exact forList (fun _ _ h => membankS h) refl

def Scope.tick : Scope := join [ofParts [.clock], Scope.bankTick, Scope.smTick, Scope.replayTurns, Scope.retrain, Scope.engReturns,
    Scope.chanBoundary]

theorem tick (h : Frame σ s t) (hw : Scope.tick.within σ = true := by decide) : Frame σ s (Machine.tick t) := by
  refine h.lift hw ?_
  unfold Machine.tick
  exact ite refl (bankTick <| smTick <| replayTurns <| retrain <| engReturns <| chanBoundary <| withClock refl)

def Scope.readOut : Scope := join [ofParts [.outs], Scope.engineRead, Scope.vetchRead]

theorem readOut {o a : ℕ} (h : Frame σ s t) (hw : Scope.readOut.within σ = true := by decide) : Frame σ s (Machine.readOut o a t) := by
  refine h.lift hw ?_
  unfold Machine.readOut
  exact ite refl (emit <| iteSnd (engineRead refl) (vetchRead refl))

def Scope.dropFrozenCommit : Scope := join [Scope.discardFrozen, Scope.dropPending]

theorem dropFrozenCommit {c k : ℕ} (h : Frame σ s t) (hw : Scope.dropFrozenCommit.within σ = true := by decide) : Frame σ s
    (Machine.dropFrozenCommit c k t) := by
  refine h.lift hw ?_
  unfold Machine.dropFrozenCommit
  exact ite (discardFrozen <| dropPending refl) refl

def Scope.halfWordApply : Scope := join [Scope.dropFrozenCommit, Scope.halfWordApplyS]

theorem halfWordApply {c k : ℕ} (h : Frame σ s t) (hw : Scope.halfWordApply.within σ = true := by decide) : Frame σ s
    (Machine.halfWordApply c k t) := by
  refine h.lift hw ?_
  unfold Machine.halfWordApply
  exact ite (dropFrozenCommit refl) (halfWordApplyS refl)

def Scope.halfReady : Scope := join [Scope.refreshPorts, Scope.halfReadyS, Scope.dropFrozenCommit]

theorem halfReady {c k : ℕ} (h : Frame σ s t) (hw : Scope.halfReady.within σ = true := by decide) : Frame σ s (Machine.halfReady c k t)
    := by
  refine h.lift hw ?_
  unfold Machine.halfReady
  exact ite (refreshPorts <| halfReadyS <| ite (dropFrozenCommit refl) refl) refl

def Scope.hopWindowOpen : Scope := join [Scope.discardFrozen, Scope.dropAdmitted, Scope.hopWindowOpenS]

theorem hopWindowOpen {c : ℕ} (h : Frame σ s t) (hw : Scope.hopWindowOpen.within σ = true := by decide) : Frame σ s
    (Machine.hopWindowOpen c t) := by
  refine h.lift hw ?_
  unfold Machine.hopWindowOpen
  split
  · split
    · exact refl
    · exact ite refl (discardFrozen <| dropAdmitted refl)
  · exact hopWindowOpenS refl

def Scope.hopSwitch : Scope := join [Scope.takeHop, Scope.discardFrozen, Scope.closeWindow, Scope.hopSwitchS]

theorem hopSwitch {c : ℕ} (h : Frame σ s t) (hw : Scope.hopSwitch.within σ = true := by decide) : Frame σ s (Machine.hopSwitch c t) := by
  refine h.lift hw ?_
  unfold Machine.hopSwitch
  split
  · split
    · exact refl
    · exact ite refl (ite (takeHop refl) (discardFrozen <| closeWindow <| takeHop refl))
  · exact hopSwitchS refl

def Scope.dropFrozenHop : Scope := join [Scope.takeHop, Scope.discardFrozen]

theorem dropFrozenHop {c : ℕ} {cls : HopClass} (h : Frame σ s t) (hw : Scope.dropFrozenHop.within σ = true := by decide) : Frame σ s
    (Machine.dropFrozenHop c cls t) := by
  refine h.lift hw ?_
  unfold Machine.dropFrozenHop
  split
  · exact refl
  · exact ite (takeHop refl) (discardFrozen <| takeHop refl)

def Scope.hopInplace : Scope := join [Scope.dropFrozenHop, Scope.hopInplaceS]

theorem hopInplace {c : ℕ} (h : Frame σ s t) (hw : Scope.hopInplace.within σ = true := by decide) : Frame σ s (Machine.hopInplace c t)
    := by
  refine h.lift hw ?_
  unfold Machine.hopInplace
  exact ite (dropFrozenHop refl) (hopInplaceS refl)

def Scope.relockStart : Scope := join [Scope.dropFrozenHop, Scope.relockStartS]

theorem relockStart {c : ℕ} (h : Frame σ s t) (hw : Scope.relockStart.within σ = true := by decide) : Frame σ s (Machine.relockStart c
    t) := by
  refine h.lift hw ?_
  unfold Machine.relockStart
  exact ite (dropFrozenHop refl) (relockStartS refl)

def Scope.relockWordLoad : Scope := join [Scope.refreshPorts, Scope.leaveUnmoved, Scope.endRelock, Scope.discardFrozen,
    Scope.relockWordLoadS]

theorem relockWordLoad {c : ℕ} (h : Frame σ s t) (hw : Scope.relockWordLoad.within σ = true := by decide) : Frame σ s
    (Machine.relockWordLoad c t) := by
  refine h.lift hw ?_
  unfold Machine.relockWordLoad
  split
  · exact ite (refreshPorts <| leaveUnmoved <| endRelock <| discardFrozen refl) (relockWordLoadS refl)
  · exact refl

def Scope.portWordApply : Scope := join [ofRegs [.PORT_CMD], Scope.discardFrozen, Scope.setPort, Scope.portWordApplyS]

theorem portWordApply {p : ℕ} (h : Frame σ s t) (hw : Scope.portWordApply.within σ = true := by decide) : Frame σ s
    (Machine.portWordApply p t) := by
  refine h.lift hw ?_
  unfold Machine.portWordApply
  split
  · split
    · exact discardFrozen <| put <| setPort refl
    · exact refl
  · exact portWordApplyS refl

def Scope.cdlyTimeout : Scope := join [Scope.cdlyTimeoutS, Scope.cdlyEnded]

theorem cdlyTimeout {l : ℕ} (h : Frame σ s t) (hw : Scope.cdlyTimeout.within σ = true := by decide) : Frame σ s (Machine.cdlyTimeout l
    t) := by
  refine h.lift hw ?_
  unfold Machine.cdlyTimeout
  exact ite (cdlyEnded <| cdlyTimeoutS refl) (cdlyTimeoutS refl)

def Scope.clearChipStamps : Scope := Scope.setLnk

theorem clearChipStamps {n : ℕ} (h : Frame σ s t) (hw : Scope.clearChipStamps.within σ = true := by decide) : Frame σ s
    (Machine.clearChipStamps n t) := by
  refine h.lift hw ?_
  unfold Machine.clearChipStamps
  exact forList (fun _ _ h => setLnk h) refl

def Scope.strobeAll : Scope := join [Scope.alignmentStrobeS, Scope.clearChipStamps, Scope.restartRuns, Scope.endTimebase]

theorem strobeAll {latched : List (ℤ × ℤ)} (h : Frame σ s t) (hw : Scope.strobeAll.within σ = true := by decide) : Frame σ s
    (Machine.strobeAll latched t) := by
  refine h.lift hw ?_
  unfold Machine.strobeAll
  exact alignmentStrobeS <| forList (fun _ _ h => clearChipStamps <| restartRuns <| endTimebase h) refl

def Scope.epochLoadAll : Scope := join [Scope.afterEpochLoad, Scope.epochLoadS, Scope.restartRuns, Scope.endTimebase]

theorem epochLoadAll (h : Frame σ s t) (hw : Scope.epochLoadAll.within σ = true := by decide) : Frame σ s (Machine.epochLoadAll t) := by
  refine h.lift hw ?_
  unfold Machine.epochLoadAll
  split
  · exact ite (afterEpochLoad <| epochLoadS <| forBelow (fun _ _ h => ite h (restartRuns <| endTimebase h)) refl) refl
  · exact refl

end Frame

end Sys2Proof.Proofs

/-! ## What states that agree beside a scope both say -/

namespace Sys2Proof.Proofs

set_option Elab.async false

open Sys2Proof Sys2Proof.Machine Sys2Proof.Claims

namespace Frame

variable {w : Scope} {s t : State}

theorem coldHeld (h : Frame w s t) (hp : w.hasPart .porst = false := by decide) (hb : w.hasPart .brown = false := by decide) :
    t.coldHeld = s.coldHeld := by
  rw [State.coldHeld, State.coldHeld, show t.porst = s.porst from h.part .porst hp, show t.brown = s.brown from h.part .brown hb]

theorem chipLost (h : Frame w s t) (n : ℕ) (hr : w.hasReg .CHIP_STAT = false := by decide) : t.chipLost n = s.chipLost n := by
  rw [State.chipLost, State.chipLost, h.get hr]

theorem chipOut (h : Frame w s t) (n : ℕ) (hr : w.hasReg .CHIP_STAT = false := by decide) : t.chipOut n = s.chipOut n := by
  rw [State.chipOut, State.chipOut, h.chipLost n hr, h.get hr]

theorem cdGone (h : Frame w s t) (hr : w.hasReg .CHIP_STAT = false := by decide) (hc : w.hasPart .chips = false := by decide)
    (hp : w.hasPart .porst = false := by decide) (hb : w.hasPart .brown = false := by decide) : t.cdGone = s.cdGone := by
  simp only [State.cdGone, h.coldHeld hp hb, h.chipLost _ hr, h.chip _ hc]

theorem cdDown (h : Frame w s t) (hr : w.hasReg .CHIP_STAT = false := by decide) (hc : w.hasPart .chips = false := by decide)
    (hp : w.hasPart .porst = false := by decide) (hb : w.hasPart .brown = false := by decide)
    (hw : w.hasPart .warm = false := by decide) : t.cdDown = s.cdDown := by
  rw [State.cdDown, State.cdDown, h.cdGone hr hc hp hb, show t.warm = s.warm from h.part .warm hw]

theorem lowestLive (h : Frame w s t) (hr : w.hasReg .CHIP_STAT = false := by decide) : t.lowestLive = s.lowestLive := by
  simp only [State.lowestLive, h.chipOut _ hr]

theorem count (h : Frame w s t) (n : ℕ) (hc : w.hasPart .chips = false := by decide) (hk : w.hasPart .clock = false := by decide) :
    t.count n = s.count n := by
  rw [State.count, State.count, h.chip n hc, h.clock hk]

theorem mcount (h : Frame w s t) (hr : w.hasReg .TB_STAT = false := by decide) (hc : w.hasPart .chips = false := by decide)
    (hk : w.hasPart .clock = false := by decide) : t.mcount = s.mcount := by
  rw [State.mcount, State.mcount, h.get hr, h.count _ hc hk]

end Frame

end Sys2Proof.Proofs

/-! ## Replicas and strobes (R54 to R58) -/

namespace Sys2Proof.Proofs

set_option Elab.async false

open Sys2Proof Sys2Proof.Machine Sys2Proof.Claims

/-! ### Loops -/

theorem forBelow_zero (f : ℕ → State → State) (s : State) : forBelow 0 f s = s := rfl

theorem forBelow_succ (n : ℕ) (f : ℕ → State → State) (s : State) : forBelow (n + 1) f s = f n (forBelow n f s) := by
  rw [forBelow, forBelow, List.range_succ, List.foldl_append]
  rfl

/-- What holds at the start of a loop and goes on from turn to turn holds at its end. -/
theorem forBelow_induct {f : ℕ → State → State} {s : State} (P : ℕ → State → Prop) (n : ℕ) (h0 : P 0 s)
    (hstep : ∀ k < n, ∀ t, P k t → P (k + 1) (f k t)) : P n (forBelow n f s) := by
  induction n with
  | zero => exact h0
  | succ n ih =>
    rw [forBelow_succ]
    exact hstep n (Nat.lt_succ_self n) _ (ih fun k hk => hstep k (Nat.lt_succ_of_lt hk))

/-- A loop over a list with its numbers is one over the numbers. -/
theorem forList_zipIdx {α : Type} (d : α) (f : α → ℕ → State → State) (l : List α) (s : State) :
    forList l.zipIdx (fun x => f x.1 x.2) s = forBelow l.length (fun n => f (l.getD n d) n) s := by
  have hl : l.zipIdx = (List.range l.length).map fun n => (l.getD n d, n) := by
    apply List.ext_getElem
    · simp
    · intro n hn _
      have hn' : n < l.length := by simpa using hn
      simp [List.getElem_zipIdx, hn']
  rw [forList, hl, List.foldl_map]
  rfl

section

variable {s t : State} {n k : ℕ}

/-! ### Counts of the replicas -/

theorem count_eq (hrun : (s.chip n).running = true) : s.count n = (s.clock + (s.chip n).tickOff) % tickMod := by
  rw [State.count, if_pos hrun]

/-- A replica loaded with a count stands at it. -/
theorem loaded_count {c x : ℕ} (hx : x < tickMod) : (c + (x + tickMod - c % tickMod) % tickMod) % tickMod = x := by
  have hc : c % tickMod < tickMod := Nat.mod_lt _ (by norm_num)
  have hdiv := Nat.div_add_mod c tickMod
  rw [Nat.add_mod_mod, show c + (x + tickMod - c % tickMod) = x + tickMod * (c / tickMod + 1) by rw [Nat.mul_add]; omega,
    Nat.add_mul_mod_self_left, Nat.mod_eq_of_lt hx]

theorem count_lt : s.count n < tickMod := by
  unfold State.count
  split
  · exact Nat.mod_lt _ (by norm_num)
  · norm_num

/-- Counts read the clock and the chiplet alone. -/
theorem count_congr (hclock : t.clock = s.clock) (hchip : t.chip n = s.chip n) : t.count n = s.count n := by
  rw [State.count, State.count, hclock, hchip]


/-! ### The start pulse (R56) -/

/-- The first `k` chiplets of a start pulse. -/
structure Started (s : State) (k : ℕ) (t : State) : Prop where
  rest : ∃ cs, t = { s with chips := cs }
  started : ∀ n < k, s.chipLost n = false → (t.chip n).running = true ∧ t.count n = 0

theorem started_succ (h : Started s k t) :
    Started s (k + 1) (if t.chipLost k then t else loadCount k 0 (t.setChip k { t.chip k with running := true })) := by
  obtain ⟨⟨cs, hcs⟩, hdone⟩ := h
  have hlost : t.chipLost k = s.chipLost k := by
    rw [hcs]
    exact congrArg (· / 2 ^ k % 2 == 1) (State.get_congr rfl ..)
  rw [hlost]
  split
  · next h =>
    refine ⟨⟨cs, hcs⟩, fun n hn hl => hdone n (lt_of_le_of_ne (Nat.le_of_lt_succ hn) ?_) hl⟩
    rintro rfl
    simp [h] at hl
  · have hchip (j : ℕ) (hj : j ≠ k) : (loadCount k 0 (t.setChip k { t.chip k with running := true })).chip j = t.chip j := by
      rw [loadCount, State.chip_setChip, if_neg hj, State.chip_setChip, if_neg hj]
    refine ⟨?_, fun n hn hl => ?_⟩
    · rw [hcs]
      exact ⟨_, rfl⟩
    · rcases eq_or_ne n k with rfl | hne
      · have hself : (loadCount n 0 (t.setChip n { t.chip n with running := true })).chip n =
            { t.chip n with running := true, tickOff := (0 + tickMod - t.clock % tickMod) % tickMod } := by
          simp [loadCount]
        have hrun : ((loadCount n 0 (t.setChip n { t.chip n with running := true })).chip n).running = true := by rw [hself]
        refine ⟨hrun, ?_⟩
        rw [count_eq hrun, hself]
        exact loaded_count (by norm_num)
      · obtain ⟨hrun, hcount⟩ := hdone n (by omega) hl
        refine ⟨by rw [hchip n hne]; exact hrun, Eq.trans (count_congr ?_ (hchip n hne)) hcount⟩
        rfl

theorem lowestLive_lt : s.lowestLive < 8 := by
  unfold State.lowestLive
  cases hf : (List.range 8).find? fun n => !s.chipOut n with
  | none => simp
  | some n => simpa using List.mem_of_find?_eq_some hf

theorem replicaStart_complete (hcold : s.coldHeld = false) (hrun : ∀ n < 8, (s.chip n).running = false) :
    ∃ t, exec .replicaStart s = .next t ∧ (∀ n < 8, s.chipLost n = false → (t.chip n).running = true ∧ t.count n = 0) ∧
      t.get TB_STAT.MASTER = s.lowestLive ∧ t.tb.strobes = 0 ∧ RegsKept [RegId.TB_STAT.at] s t ∧ Kept [.regs, .chips, .tb] s t := by
  have hstop : ((List.range 8).any fun n => (s.chip n).running) = false := by simpa using hrun
  obtain ⟨⟨cs, hcs⟩, hdone⟩ := forBelow_induct (s := s.put TB_STAT.MASTER s.lowestLive) (Started (s.put TB_STAT.MASTER s.lowestLive)) 8
    ⟨⟨_, rfl⟩, by simp⟩ fun k _ t ht => started_succ ht
  have hlost (n : ℕ) : (s.put TB_STAT.MASTER s.lowestLive).chipLost n = s.chipLost n :=
    congrArg (· / 2 ^ n % 2 == 1) (State.get_put_fam _ _ _ _ _ _ _ _ (by decide))
  have hmaster : (s.put TB_STAT.MASTER s.lowestLive).get TB_STAT.MASTER = s.lowestLive :=
    get_put_lt 0 0 (by decide) lowestLive_lt
  have hregs : RegsKept [RegId.TB_STAT.at] s (s.put TB_STAT.MASTER s.lowestLive) := RegsKept.refl.put
  have hkept : Kept [.regs, .chips, .tb] s (s.put TB_STAT.MASTER s.lowestLive) := Kept.refl.put
  refine ⟨_, (act_next hcold _).trans (congrArg _ (show replicaStartS s = _ by rw [replicaStartS, hstop, if_neg Bool.false_ne_true])), ?_⟩
  dsimp only
  generalize s.put TB_STAT.MASTER s.lowestLive = u at *
  generalize forBelow 8 _ u = t at *
  refine ⟨fun n hn hl => ?_, ?_, rfl, ?_, ?_⟩
  · exact hdone n hn ((hlost n).trans hl)
  · rw [get_withTb, hcs]
    exact hmaster
  · rw [hcs]
    exact hregs
  · rw [hcs]
    exact (hkept.withChips (x := cs)).withTb

/-! ### One chiplet at a strobe (R55, R57) -/

/-- A step over no action leaves the FIFO as it was. -/
theorem map_pass_id {l : List Admitted} {c : ℕ} (h : (l.any fun a => decide (a.due < c)) = false) : l.map (Admitted.pass c) = l := by
  refine (List.map_congr_left fun a ha => ?_).trans (List.map_id l)
  rw [Admitted.pass, if_neg (by simpa using List.any_eq_false.mp h a ha)]
  rfl

/-- Chiplet `n` after the step that the last strobe commanded. -/
def steppedChip (n : ℕ) (s : State) : Chip :=
  { s.chip n with
    tickOff := (s.mcount + tickMod - s.clock % tickMod) % tickMod
    reload := false
    fifo := if s.count n < s.mcount then (s.chip n).fifo.map (Admitted.pass s.mcount) else (s.chip n).fifo }

/-- Whether the step of chiplet `n` passes over an action. -/
def stepsOver (s : State) (n : ℕ) : Bool := decide (s.count n < s.mcount) && (s.chip n).fifo.any fun a => decide (a.due < s.mcount)

/-- What a step leaves. -/
structure Stepped (n : ℕ) (s t : State) : Prop where
  chip : ∀ j, t.chip j = if j = n then steppedChip n s else s.chip j
  late : t.isSet COMMIT_STAT.LATE_SEEN n = (s.isSet COMMIT_STAT.LATE_SEEN n || stepsOver s n)
  regs : RegsKept [RegId.COMMIT_STAT.at n] s t
  kept : Kept [.regs, .chips, .cores] s t

/-- A loop over cores changes cores. -/
theorem forBelow_setCore (f : ℕ → State → ℕ) (g : ℕ → State → CoreSt) (m : ℕ) (s : State) :
    ∃ cs, forBelow m (fun j s => s.setCore (f j s) (g j s)) s = { s with cores := cs } :=
  forBelow_induct (fun _ t => ∃ cs, t = { s with cores := cs }) m ⟨s.cores, rfl⟩ fun k _ t ⟨cs, ht⟩ => by
    rw [ht]
    exact ⟨_, rfl⟩

theorem stepReplica_spec (n : ℕ) (s : State) : Stepped n s (stepReplica n s) := by
  unfold stepReplica
  dsimp only
  change Stepped n s (State.when _ (stepsOver s n) _)
  have hload (j : ℕ) : ((loadCount n s.mcount s).setChip n { (loadCount n s.mcount s).chip n with reload := false }).chip j =
      if j = n then { s.chip n with tickOff := (s.mcount + tickMod - s.clock % tickMod) % tickMod, reload := false } else s.chip j := by
    rcases eq_or_ne j n with rfl | hj
    · simp [loadCount]
    · simp [loadCount, hj]
  have hregs : RegsKept [RegId.COMMIT_STAT.at n] s
      ((loadCount n s.mcount s).setChip n { (loadCount n s.mcount s).chip n with reload := false }) := RegsKept.refl.setChip.setChip
  have hkept : Kept [.regs, .chips, .cores] s
      ((loadCount n s.mcount s).setChip n { (loadCount n s.mcount s).chip n with reload := false }) := Kept.refl.setChip.setChip
  have hlate : ((loadCount n s.mcount s).setChip n { (loadCount n s.mcount s).chip n with reload := false }).isSet
      COMMIT_STAT.LATE_SEEN n = s.isSet COMMIT_STAT.LATE_SEEN n := rfl
  generalize (loadCount n s.mcount s).setChip n { (loadCount n s.mcount s).chip n with reload := false } = u at *
  cases hover : stepsOver s n with
  | false =>
    refine ⟨fun j => ?_, by rw [hover, Bool.or_false]; exact hlate, hregs, hkept⟩
    refine (hload j).trans ?_
    split
    · rw [steppedChip]
      split
      · next hlt =>
        rw [map_pass_id]
        simpa [stepsOver, hlt] using hover
      · rfl
    · rfl
  | true =>
    have hlt : s.count n < s.mcount := by
      simp only [stepsOver, Bool.and_eq_true, decide_eq_true_eq] at hover
      exact hover.1
    obtain ⟨cs, hcs⟩ := forBelow_setCore (fun j _ => 8 * n + j)
      (fun j t => { t.core (8 * n + j) with hop := (t.core (8 * n + j)).hop.map fun r => { r with adm := r.adm.pass s.mcount } }) 8
      (u.setChip n { u.chip n with fifo := (u.chip n).fifo.map (Admitted.pass s.mcount) })
    rw [State.when, if_pos rfl, hcs]
    refine ⟨fun j => ?_, ?_, ?_, ?_⟩
    · rw [State.chip_put_keep]
      refine (State.chip_setChip ..).trans ?_
      rw [hload, hload, if_pos rfl]
      split
      · rw [steppedChip, if_pos hlt]
      · rfl
    · rw [isSet_put_one _ _ (by decide), hover, Bool.or_true]
    · exact RegsKept.put (hregs.setChip.withCores)
    · exact Kept.put (hkept.setChip.withCores)

/-- What the latching of a strobe leaves. -/
structure Latched (n : ℕ) (phase : ℤ) (s t : State) : Prop where
  rest : ∃ cs, t = { s with chips := cs }
  other : ∀ j, j ≠ n → t.chip j = s.chip j
  running : (t.chip n).running = (s.chip n).running
  reload : (t.chip n).reload = (s.chip n).reload
  fifo : (t.chip n).fifo = (s.chip n).fifo
  phase : (t.chip n).latchPhase = phase

theorem latchStrobe_spec (n : ℕ) (err phase : ℤ) (s : State) : Latched n phase s (latchStrobe n phase (upsetReplica n err s)) := by
  unfold latchStrobe upsetReplica
  exact ⟨⟨_, rfl⟩, fun j hj => by simp [hj], by simp, by simp, by simp, by simp⟩

theorem Latched.regs {phase : ℤ} {l : List ℕ} (h : Latched n phase s t) : RegsKept l s t := by
  obtain ⟨cs, hcs⟩ := h.rest
  rw [hcs]
  exact RegsKept.refl.withChips

/-- A replica without an upset keeps its count, which the strobe latches. -/
theorem latchStrobe_count (n : ℕ) (phase : ℤ) (s : State) :
    (latchStrobe n phase (upsetReplica n 0 s)).count n = s.count n ∧
      ((latchStrobe n phase (upsetReplica n 0 s)).chip n).latchCount = s.count n := by
  have hmod : ((((s.chip n).tickOff : ℤ) + 0) % (tickMod : ℤ)).toNat = (s.chip n).tickOff % tickMod := by
    rw [add_zero, ← Int.natCast_mod, Int.toNat_natCast]
  have hup : (upsetReplica n 0 s).count n = s.count n := by
    unfold upsetReplica
    rw [hmod]
    simp only [State.count, State.chip_setChip, if_true, State.setChip_clock, Nat.add_mod_mod]
  have hcount : (latchStrobe n phase (upsetReplica n 0 s)).count n = (upsetReplica n 0 s).count n := by
    simp only [State.count, latchStrobe, State.chip_setChip, if_true, State.setChip_clock]
  refine ⟨hcount.trans hup, ?_⟩
  rw [latchStrobe, State.chip_setChip, if_pos rfl]
  exact hup

/-- The count of chiplet `n` at a strobe, once the step commanded at the last one is made. -/
def strobeCount (s : State) (n : ℕ) : ℕ := if (s.chip n).reload then s.mcount else s.count n

/-- What a strobe of state `s` leaves of chiplet `n`, where `m` is the phase of the time master (R55, R57). -/
structure StrobedChip (s : State) (m phase : ℤ) (n : ℕ) (t : State) : Prop where
  reported : (t.get REPL_PHASE.PHASE n : ℤ) = (phase - m) % 2 ^ 16
  valid : t.isSet REPL_PHASE.VALID n = true
  ok : (t.get TB_STAT.REPL_OK).testBit n = (strobeCount s n == s.mcount)
  count : t.count n = strobeCount s n
  latchCount : (t.chip n).latchCount = strobeCount s n
  latchPhase : (t.chip n).latchPhase = phase
  reload : (t.chip n).reload = (strobeCount s n != s.mcount)
  fifo : (t.chip n).fifo =
    if (s.chip n).reload = true ∧ s.count n < s.mcount then (s.chip n).fifo.map (Admitted.pass s.mcount) else (s.chip n).fifo
  late : t.isSet COMMIT_STAT.LATE_SEEN n = (s.isSet COMMIT_STAT.LATE_SEEN n || (s.chip n).reload && stepsOver s n)
  off : strobeCount s n ≠ s.mcount →
    t.isSet REPL_PHASE.OUT_OF_STEP n = true ∧ t.isSet TB_STAT.TBSTEP = true ∧ 259 ∈ t.raising

/-- What a strobe of chiplet `n` leaves of the others. -/
structure StrobeFrame (n : ℕ) (s t : State) : Prop where
  clock : t.clock = s.clock
  chips : ∀ j, j ≠ n → t.chip j = s.chip j
  running : (t.chip n).running = (s.chip n).running
  master : t.get TB_STAT.MASTER = s.get TB_STAT.MASTER
  okBits : ∀ j, j ≠ n → (t.get TB_STAT.REPL_OK).testBit j = (s.get TB_STAT.REPL_OK).testBit j
  step : s.isSet TB_STAT.TBSTEP = true → t.isSet TB_STAT.TBSTEP = true
  regs : RegsKept [RegId.TB_STAT.at, RegId.REPL_PHASE.at n, RegId.COMMIT_STAT.at n] s t
  raising : s.raising ⊆ t.raising
  kept : Kept [.regs, .chips, .cores, .raising] s t
  cores : (s.chip n).reload = false → t.cores = s.cores

theorem get_lt (s : State) (f : Fld) (i j : ℕ) : s.get f i j < 2 ^ f.w := Nat.mod_lt _ (Nat.two_pow_pos _)

/-- The bits of `REPL_OK` after one chiplet's is written. -/
theorem testBit_okBits {x j : ℕ} (hx : x < 2 ^ 8) (hn : n < 8) (b : Bool) :
    ((if b then x ||| 2 ^ n else x &&& (255 - 2 ^ n)) % 2 ^ 8).testBit j = if j = n then b else x.testBit j := by
  have hhigh : ¬ j < 8 → x.testBit j = false := fun hj =>
    Nat.testBit_lt_two_pow (hx.trans_le (Nat.pow_le_pow_right (by norm_num) (by omega)))
  rw [Nat.testBit_mod_two_pow]
  cases b with
  | true =>
    rw [if_pos rfl, Nat.testBit_or, Nat.testBit_two_pow]
    by_cases hj : j = n
    · simp [hj, hn]
    · by_cases h8 : j < 8
      · simp [h8, hj, Ne.symm hj]
      · simp [h8, hj, hhigh h8]
  | false =>
    have hpow : 2 ^ n < 2 ^ 8 := Nat.pow_lt_pow_right (by norm_num) hn
    rw [if_neg Bool.false_ne_true, Nat.testBit_and, show 255 - 2 ^ n = 2 ^ 8 - (2 ^ n + 1) by omega,
      Nat.testBit_two_pow_sub_succ hpow, Nat.testBit_two_pow]
    by_cases hj : j = n
    · simp [hj]
    · by_cases h8 : j < 8
      · simp [h8, hj, Ne.symm hj]
      · simp [h8, hj, hhigh h8]

/-- The step of a chiplet at a strobe, where one was commanded. -/
structure Turned (n : ℕ) (s t : State) : Prop where
  clock : t.clock = s.clock
  chips : ∀ j, j ≠ n → t.chip j = s.chip j
  running : (t.chip n).running = (s.chip n).running
  reload : (t.chip n).reload = false
  fifo : (t.chip n).fifo =
    if (s.chip n).reload = true ∧ s.count n < s.mcount then (s.chip n).fifo.map (Admitted.pass s.mcount) else (s.chip n).fifo
  count : t.count n = strobeCount s n
  mcount : t.mcount = s.mcount
  late : t.isSet COMMIT_STAT.LATE_SEEN n = (s.isSet COMMIT_STAT.LATE_SEEN n || (s.chip n).reload && stepsOver s n)
  regs : RegsKept [RegId.COMMIT_STAT.at n] s t
  kept : Kept [.regs, .chips, .cores] s t
  cores : (s.chip n).reload = false → t.cores = s.cores

/-- The time master's count stays where chiplet `n` either keeps its own or takes the master's. -/
theorem mcount_of_turn (hclock : t.clock = s.clock) (hchips : ∀ j, j ≠ n → t.chip j = s.chip j)
    (hmaster : t.get TB_STAT.MASTER = s.get TB_STAT.MASTER) (hcount : t.count n = s.mcount ∨ t.count n = s.count n) :
    t.mcount = s.mcount := by
  rw [State.mcount, hmaster]
  rcases eq_or_ne (s.get TB_STAT.MASTER) n with he | hne
  · have hm : s.mcount = s.count n := by rw [State.mcount, he]
    rw [he, hm]
    exact hcount.elim (fun h => h.trans hm) fun h => h
  · exact count_congr hclock (hchips _ hne)

theorem turned_spec (hrun : (s.chip n).running = true) :
    Turned n s (if (s.chip n).reload then stepReplica n s else s) := by
  cases hre : (s.chip n).reload with
  | false =>
    rw [if_neg Bool.false_ne_true]
    exact ⟨rfl, fun _ _ => rfl, rfl, hre, by simp [hre], by simp [strobeCount, hre], rfl, by simp [hre], RegsKept.refl, Kept.refl,
      fun _ => rfl⟩
  | true =>
    rw [if_pos rfl]
    obtain ⟨hchip, hlate, hregs, hkept⟩ := stepReplica_spec n s
    have hclock : (stepReplica n s).clock = s.clock := hkept .clock (by simp)
    have hself : (stepReplica n s).chip n = steppedChip n s := by rw [hchip, if_pos rfl]
    have hother (j : ℕ) (hj : j ≠ n) : (stepReplica n s).chip j = s.chip j := by rw [hchip, if_neg hj]
    have hrun' : ((stepReplica n s).chip n).running = true := by rw [hself, steppedChip]; exact hrun
    have hcount : (stepReplica n s).count n = s.mcount := by
      rw [count_eq hrun', hself, hclock, steppedChip]
      exact loaded_count count_lt
    refine ⟨hclock, hother, by rw [hrun', hrun], by rw [hself, steppedChip], by rw [hself, steppedChip]; simp [hre],
      by rw [hcount, strobeCount, if_pos hre], ?_, by rw [hlate, hre, Bool.true_and], hregs, hkept, fun h => by simp [hre] at h⟩
    exact mcount_of_turn hclock hother (hregs.get (by simp [RegId.at_ne])) (.inl hcount)

/-- The comparison of chiplet `n` with the time master, whose sub-tick phase is `m`, once it has latched. -/
def compared (m phase : ℤ) (n : ℕ) (s : State) : State :=
  let s := (s.put REPL_PHASE.PHASE (twos 16 (phase - m)) n).put REPL_PHASE.VALID 1 n
  let ok := s.count n == s.mcount
  let s := s.put TB_STAT.REPL_OK (if ok then s.get TB_STAT.REPL_OK ||| 2 ^ n else s.get TB_STAT.REPL_OK &&& (255 - 2 ^ n))
  if ok then s
  else
    let s := ((s.put REPL_PHASE.OUT_OF_STEP 1 n).put TB_STAT.TBSTEP 1).raise 259
    s.setChip n { s.chip n with reload := true }

theorem strobeChip_eq {m err phase : ℤ} (hin : s.chipOut n = false) (hrun : (s.chip n).running = true) :
    strobeChip m n err phase s =
      compared m phase n (latchStrobe n phase (upsetReplica n err (if (s.chip n).reload then stepReplica n s else s))) := by
  rw [strobeChip, hin, hrun]
  rfl

theorem isSet_setChip (x : Chip) (f : Fld) (i j : ℕ) : (s.setChip n x).isSet f i j = s.isSet f i j := rfl

/-- What the comparison leaves. -/
structure Compared (m phase : ℤ) (n : ℕ) (s t : State) : Prop where
  clock : t.clock = s.clock
  chips : ∀ j, j ≠ n → t.chip j = s.chip j
  chip : t.chip n = { s.chip n with reload := (s.chip n).reload || s.count n != s.mcount }
  master : t.get TB_STAT.MASTER = s.get TB_STAT.MASTER
  okBits : ∀ j, (t.get TB_STAT.REPL_OK).testBit j = if j = n then s.count n == s.mcount else (s.get TB_STAT.REPL_OK).testBit j
  reported : t.get REPL_PHASE.PHASE n = twos 16 (phase - m)
  valid : t.isSet REPL_PHASE.VALID n = true
  step : s.isSet TB_STAT.TBSTEP = true → t.isSet TB_STAT.TBSTEP = true
  off : s.count n ≠ s.mcount → t.isSet REPL_PHASE.OUT_OF_STEP n = true ∧ t.isSet TB_STAT.TBSTEP = true ∧ 259 ∈ t.raising
  regs : RegsKept [RegId.TB_STAT.at, RegId.REPL_PHASE.at n] s t
  raising : s.raising ⊆ t.raising
  kept : Kept [.regs, .chips, .raising] s t

theorem count_put (f : Fld) (v i j n : ℕ) : (s.put f v i j).count n = s.count n := by
  rw [State.count, State.count, State.chip_put_keep, State.put_clock]

theorem twos_lt (w : ℕ) (x : ℤ) : twos w x < 2 ^ w := by
  have h := Int.emod_lt_of_pos x (show (0 : ℤ) < (2 ^ w : ℕ) by positivity)
  have h0 := Int.emod_nonneg x (show ((2 ^ w : ℕ) : ℤ) ≠ 0 by positivity)
  unfold twos
  omega

theorem compared_spec (m phase : ℤ) (hn : n < 8) (s : State) : Compared m phase n s (compared m phase n s) := by
  unfold compared
  dsimp only
  have hcount : ((s.put REPL_PHASE.PHASE (twos 16 (phase - m)) n).put REPL_PHASE.VALID 1 n).count n = s.count n := by
    rw [count_put, count_put]
  have hmaster : ((s.put REPL_PHASE.PHASE (twos 16 (phase - m)) n).put REPL_PHASE.VALID 1 n).get TB_STAT.MASTER =
      s.get TB_STAT.MASTER := by
    rw [get_put_of_apart (by decide), get_put_of_apart (by decide)]
  have hmcount : ((s.put REPL_PHASE.PHASE (twos 16 (phase - m)) n).put REPL_PHASE.VALID 1 n).mcount = s.mcount := by
    rw [State.mcount, hmaster, State.mcount, count_put, count_put]
  have hok : ((s.put REPL_PHASE.PHASE (twos 16 (phase - m)) n).put REPL_PHASE.VALID 1 n).get TB_STAT.REPL_OK =
      s.get TB_STAT.REPL_OK := by
    rw [get_put_of_apart (by decide), get_put_of_apart (by decide)]
  rw [hcount, hmcount, hok]
  have hbits := fun j => testBit_okBits (j := j) (get_lt s TB_STAT.REPL_OK 0 0) hn (s.count n == s.mcount)
  generalize (if (s.count n == s.mcount) = true then s.get TB_STAT.REPL_OK ||| 2 ^ n
    else s.get TB_STAT.REPL_OK &&& (255 - 2 ^ n)) = v at hbits ⊢
  have hphase : twos 16 (phase - m) < 2 ^ REPL_PHASE.PHASE.w := twos_lt 16 _
  by_cases h : s.count n = s.mcount
  · rw [h, beq_self_eq_true, if_pos rfl]
    rw [h, beq_self_eq_true] at hbits
    refine ⟨?_, fun j _ => ?_, ?_, ?_, fun j => ?_, ?_, ?_, fun hs => ?_, fun hne => absurd h hne, RegsKept.refl.put.put.put, ?_,
      Kept.refl.put.put.put⟩
    · rw [State.put_clock, State.put_clock, State.put_clock]
    · rw [State.chip_put_keep, State.chip_put_keep, State.chip_put_keep]
    · rw [State.chip_put_keep, State.chip_put_keep, State.chip_put_keep, h, bne_self_eq_false, Bool.or_false]
    · rw [get_put_of_apart (by decide), hmaster]
    · rw [State.get_put _ _ _ _ _ (by decide), h, beq_self_eq_true]
      exact hbits j
    · rw [get_put_of_apart (by decide), get_put_of_apart (by decide), get_put_lt _ _ (by decide) hphase]
    · rw [isSet_put_of_apart (by decide), isSet_put_one _ _ (by decide)]
    · rw [isSet_put_of_apart (by decide), isSet_put_of_apart (by decide), isSet_put_of_apart (by decide), hs]
    · rw [State.put_raising, State.put_raising, State.put_raising]
      exact List.Subset.refl _
  · have hchips (j : ℕ) : ((((((s.put REPL_PHASE.PHASE (twos 16 (phase - m)) n).put REPL_PHASE.VALID 1 n).put TB_STAT.REPL_OK v).put
        REPL_PHASE.OUT_OF_STEP 1 n).put TB_STAT.TBSTEP 1).raise 259).chip j = s.chip j := by
      rw [State.chip_raise_keep, State.chip_put_keep, State.chip_put_keep, State.chip_put_keep, State.chip_put_keep, State.chip_put_keep]
    have hf : (s.count n == s.mcount) = false := beq_false_of_ne h
    rw [hf, if_neg Bool.false_ne_true]
    rw [hf] at hbits
    refine ⟨?_, fun j hj => ?_, ?_, ?_, fun j => ?_, ?_, ?_, fun hs => ?_, fun _ => ⟨?_, ?_, ?_⟩,
      RegsKept.refl.put.put.put.put.put.raise.setChip, ?_, Kept.refl.put.put.put.put.put.raise.setChip⟩
    · rw [State.setChip_clock, State.raise_clock, State.put_clock, State.put_clock, State.put_clock, State.put_clock, State.put_clock]
    · rw [State.chip_setChip, if_neg hj]
      exact hchips j
    · rw [State.chip_setChip, if_pos rfl]
      rw [hchips, bne, hf, Bool.not_false, Bool.or_true]
    · rw [State.get_setChip_keep, State.get_raise_keep, get_put_of_apart (by decide), get_put_of_apart (by decide),
        get_put_of_apart (by decide), hmaster]
    · rw [State.get_setChip_keep, State.get_raise_keep, get_put_of_apart (by decide), get_put_of_apart (by decide),
        State.get_put _ _ _ _ _ (by decide), hf]
      exact hbits j
    · rw [State.get_setChip_keep, State.get_raise_keep, get_put_of_apart (by decide), get_put_of_apart (by decide),
        get_put_of_apart (by decide), get_put_of_apart (by decide), get_put_lt _ _ (by decide) hphase]
    · rw [isSet_setChip, isSet_raise, isSet_put_of_apart (by decide), isSet_put_of_apart (by decide), isSet_put_of_apart (by decide),
        isSet_put_one _ _ (by decide)]
    · rw [isSet_setChip, isSet_raise, isSet_put_one _ _ (by decide)]
    · rw [isSet_setChip, isSet_raise, isSet_put_of_apart (by decide), isSet_put_one _ _ (by decide)]
    · rw [isSet_setChip, isSet_raise, isSet_put_one _ _ (by decide)]
    · rw [State.setChip_raising]
      exact mem_raising_raise _ _
    · rw [State.setChip_raising, raise_raising, State.put_raising, State.put_raising, State.put_raising, State.put_raising,
        State.put_raising]
      exact List.subset_append_left _ _

/-- One chiplet in service at a strobe, without an upset. -/
theorem strobeChip_spec {m phase : ℤ} (hn : n < 8) (hin : s.chipOut n = false) (hrun : (s.chip n).running = true) :
    StrobedChip s m phase n (strobeChip m n 0 phase s) ∧ StrobeFrame n s (strobeChip m n 0 phase s) := by
  rw [strobeChip_eq hin hrun]
  have hA := turned_spec hrun
  generalize (if (s.chip n).reload then stepReplica n s else s) = A at *
  have hB := latchStrobe_spec n 0 phase A
  obtain ⟨hBcount, hBlatch⟩ := latchStrobe_count n phase A
  generalize latchStrobe n phase (upsetReplica n 0 A) = B at *
  have hBclock : B.clock = s.clock := by
    obtain ⟨cs, hcs⟩ := hB.rest
    rw [hcs]
    exact hA.clock
  have hBmaster : B.get TB_STAT.MASTER = s.get TB_STAT.MASTER :=
    (hB.regs (l := []).get (by simp)).trans (hA.regs.get (by simp [RegId.at_ne]))
  have hcount : B.count n = strobeCount s n := hBcount.trans hA.count
  have hmcount : B.mcount = s.mcount := by
    refine (mcount_of_turn (s := A) (n := n) (hBclock.trans hA.clock.symm) hB.other ?_ (.inr hBcount)).trans hA.mcount
    exact hB.regs (l := []).get (by simp)
  have hC := compared_spec m phase hn B
  generalize compared m phase n B = C at *
  have hself : C.chip n = { B.chip n with reload := strobeCount s n != s.mcount } := by
    rw [hC.chip, hB.reload, hA.reload, Bool.false_or, hcount, hmcount]
  have hchips (j : ℕ) (hj : j ≠ n) : C.chip j = s.chip j := by rw [hC.chips j hj, hB.other j hj, hA.chips j hj]
  have hlate : C.isSet COMMIT_STAT.LATE_SEEN n = A.isSet COMMIT_STAT.LATE_SEEN n := by
    rw [State.isSet, State.isSet, hC.regs.get (by simp [RegId.at_ne]), hB.regs (l := []).get (by simp)]
  have hokbits (j : ℕ) : (C.get TB_STAT.REPL_OK).testBit j =
      if j = n then strobeCount s n == s.mcount else (s.get TB_STAT.REPL_OK).testBit j := by
    rw [hC.okBits, hcount, hmcount, hB.regs (l := []).get (by simp), hA.regs.get (by simp [RegId.at_ne])]
  have hcountC : C.count n = strobeCount s n := by
    rw [← hcount, State.count, State.count, hself, hC.clock]
  refine ⟨⟨?_, hC.valid, by rw [hokbits, if_pos rfl], hcountC, ?_, ?_, by rw [hself], ?_, by rw [hlate, hA.late], fun hne => ?_⟩,
    hC.clock.trans hBclock, hchips, ?_, hC.master.trans hBmaster, fun j hj => by rw [hokbits, if_neg hj], fun hs => hC.step ?_, ?_, ?_,
    ?_, fun hre => ?_⟩
  · rw [hC.reported, twos]
    omega
  · rw [hself, ← hA.count]
    exact hBlatch
  · rw [hself]
    exact hB.phase
  · rw [hself]
    exact hB.fifo.trans hA.fifo
  · exact hC.off (by rwa [hcount, hmcount])
  · rw [hself]
    exact hB.running.trans hA.running
  · rw [State.isSet, hB.regs (l := []).get (by simp), hA.regs.get (by simp [RegId.at_ne])]
    exact hs
  · exact ((hA.regs.mono (by simp)).trans hB.regs).trans (hC.regs.mono (by simp))
  · have hraiseA : A.raising = s.raising := hA.kept .raising (by simp)
    have hraiseB : B.raising = A.raising := by
      obtain ⟨cs, hcs⟩ := hB.rest
      rw [hcs]
    rw [← hraiseA, ← hraiseB]
    exact hC.raising
  · refine ((hA.kept.mono (by simp)).trans ?_).trans (hC.kept.mono (by simp))
    obtain ⟨cs, hcs⟩ := hB.rest
    rw [hcs]
    exact Kept.refl.withChips
  · have hcoresC : C.cores = B.cores := hC.kept .cores (by simp)
    obtain ⟨cs, hcs⟩ := hB.rest
    rw [hcoresC, hcs]
    exact hA.cores hre

/-! ### All chiplets at a strobe -/

/-- The first `k` chiplets have taken the strobe of state `s`; `m` is the time master's phase and `ph n` that of chiplet `n`. -/
structure Strobing (s : State) (m : ℤ) (ph : ℕ → ℤ) (k : ℕ) (t : State) : Prop where
  clock : t.clock = s.clock
  mcount : t.mcount = s.mcount
  master : t.get TB_STAT.MASTER = s.get TB_STAT.MASTER
  running : ∀ n, (t.chip n).running = (s.chip n).running
  later : ∀ n, k ≤ n → t.chip n = s.chip n
  lateLater : ∀ n, k ≤ n → n < 8 → t.isSet COMMIT_STAT.LATE_SEEN n = s.isSet COMMIT_STAT.LATE_SEEN n
  out : ∀ n, t.chipOut n = s.chipOut n
  kept : Kept [.regs, .chips, .cores, .raising] s t
  cores : (∀ n < 8, (s.chip n).reload = false) → t.cores = s.cores
  bw : t.get REF_CFG.BW = s.get REF_CFG.BW
  done : ∀ n < k, s.chipOut n = false → (s.chip n).running = true → StrobedChip s m (ph n) n t

theorem chipOut_of_frame (h : StrobeFrame n s t) (j : ℕ) : t.chipOut j = s.chipOut j := by
  rw [State.chipOut, State.chipOut, State.chipLost, State.chipLost, h.regs.get (by simp [RegId.at_ne]),
    h.regs.get (by simp [RegId.at_ne])]

/-- What holds of a chiplet that has taken the strobe still holds once another has. -/
theorem StrobedChip.of_frame {m phase : ℤ} {u : State} (h : StrobedChip s m phase n t) (hf : StrobeFrame k t u) (hn : n < 8) (hk : k < 8)
    (hne : n ≠ k) : StrobedChip s m phase n u := by
  have hphase : RegId.REPL_PHASE.at n ≠ RegId.REPL_PHASE.at k := RegId.at_ne_self _ _ _ _ _ hn (by decide) hk (by decide) (.inl hne)
  have hlate : RegId.COMMIT_STAT.at n ≠ RegId.COMMIT_STAT.at k := RegId.at_ne_self _ _ _ _ _ hn (by decide) hk (by decide) (.inl hne)
  have hchip := hf.chips n hne
  have hget {f : Fld} (hreg : f.reg = .REPL_PHASE) : u.get f n = t.get f n :=
    hf.regs.get (by simp [hreg, RegId.at_ne, hphase])
  refine ⟨?_, ?_, ?_, ?_, ?_, ?_, ?_, ?_, ?_, fun hoff => ?_⟩
  · rw [hget rfl]
    exact h.reported
  · rw [State.isSet, hget rfl]
    exact h.valid
  · rw [hf.okBits n hne]
    exact h.ok
  · rw [count_congr hf.clock hchip]
    exact h.count
  · rw [hchip]
    exact h.latchCount
  · rw [hchip]
    exact h.latchPhase
  · rw [hchip]
    exact h.reload
  · rw [hchip]
    exact h.fifo
  · rw [← h.late, State.isSet, State.isSet, hf.regs.get (by simp [RegId.at_ne, hlate])]
  · obtain ⟨hout, hstep, hraise⟩ := h.off hoff
    refine ⟨?_, hf.step hstep, hf.raising hraise⟩
    rw [State.isSet, hget rfl]
    exact hout

/-- A chiplet of the strobe whose state another state agrees with. -/
theorem StrobedChip.of_same {m phase : ℤ} {u : State} (h : StrobedChip t m phase n u) (hchip : t.chip n = s.chip n)
    (hclock : t.clock = s.clock) (hmcount : t.mcount = s.mcount)
    (hlate : t.isSet COMMIT_STAT.LATE_SEEN n = s.isSet COMMIT_STAT.LATE_SEEN n) : StrobedChip s m phase n u := by
  have hcount : t.count n = s.count n := count_congr hclock hchip
  have hstrobe : strobeCount t n = strobeCount s n := by rw [strobeCount, strobeCount, hchip, hcount, hmcount]
  have hover : stepsOver t n = stepsOver s n := by rw [stepsOver, stepsOver, hchip, hcount, hmcount]
  obtain ⟨h1, h2, h3, h4, h5, h6, h7, h8, h9, h10⟩ := h
  rw [hstrobe, hmcount] at *
  rw [hchip, hcount] at h8
  rw [hchip, hover, hlate] at h9
  exact ⟨h1, h2, h3, h4, h5, h6, h7, h8, h9, h10⟩

theorem strobing_succ {m : ℤ} {ph : ℕ → ℤ} (hk : k < 8) (hmaster : s.get TB_STAT.MASTER = k → (s.chip k).reload = false)
    (h : Strobing s m ph k t) : Strobing s m ph (k + 1) (strobeChip m k 0 (ph k) t) := by
  by_cases hserve : t.chipOut k = false ∧ (t.chip k).running = true
  · obtain ⟨hin, hrun⟩ := hserve
    obtain ⟨hchip, hframe⟩ := strobeChip_spec (m := m) (phase := ph k) hk hin hrun
    generalize strobeChip m k 0 (ph k) t = u at *
    have hsame := hchip.of_same (h.later k le_rfl) h.clock h.mcount (h.lateLater k le_rfl hk)
    have hrunning (n : ℕ) : (u.chip n).running = (t.chip n).running := by
      rcases eq_or_ne n k with rfl | hne
      · exact hframe.running
      · rw [hframe.chips n hne]
    have hlate (n : ℕ) (hn : k + 1 ≤ n) (hn8 : n < 8) : u.isSet COMMIT_STAT.LATE_SEEN n = t.isSet COMMIT_STAT.LATE_SEEN n := by
      have hne : RegId.COMMIT_STAT.at n ≠ RegId.COMMIT_STAT.at k :=
        RegId.at_ne_self _ _ _ _ _ hn8 (by decide) hk (by decide) (.inl (by omega))
      rw [State.isSet, State.isSet, hframe.regs.get (by simp [RegId.at_ne, hne])]
    refine ⟨hframe.clock.trans h.clock, ?_, hframe.master.trans h.master, fun n => (hrunning n).trans (h.running n),
      fun n hn => (hframe.chips n (by omega)).trans (h.later n (by omega)),
      fun n hn hn8 => (hlate n hn hn8).trans (h.lateLater n (by omega) hn8), fun n => (chipOut_of_frame hframe n).trans (h.out n),
      h.kept.trans hframe.kept, fun hno => (hframe.cores ?_).trans (h.cores hno), ?_, fun n hn hin' hrun' => ?_⟩
    · refine (mcount_of_turn hframe.clock hframe.chips hframe.master ?_).trans h.mcount
      rw [hchip.count, strobeCount]
      split
      · exact .inl rfl
      · exact .inr rfl
    · rw [h.later k le_rfl]
      exact hno k hk
    · rw [hframe.regs.get (by simp [RegId.at_ne])]
      exact h.bw
    · rcases eq_or_ne n k with rfl | hne
      · exact hsame
      · exact (h.done n (by omega) hin' hrun').of_frame hframe (by omega) hk hne
  · have hstay : strobeChip m k 0 (ph k) t = t := by
      rw [strobeChip, if_pos]
      rw [Bool.or_eq_true, Bool.not_eq_true']
      by_contra hno
      rw [not_or, Bool.not_eq_true, Bool.not_eq_false] at hno
      exact hserve hno
    rw [hstay]
    refine ⟨h.clock, h.mcount, h.master, h.running, fun n hn => h.later n (by omega), fun n hn => h.lateLater n (by omega), h.out, h.kept,
      h.cores, h.bw, fun n hn hin hrun => ?_⟩
    rcases eq_or_ne n k with rfl | hne
    · exact absurd ⟨(h.out n).trans hin, (h.running n).trans hrun⟩ hserve
    · exact h.done n (by omega) hin hrun

/-! ### The strobe of the whole part -/

/-- The state in which the chiplets take a strobe: it is counted, and the lowest chiplet in service is the time master. -/
def strobeStart (s : State) : State := ({ s with tb := { s.tb with strobes := s.strobeNow } } : State).put TB_STAT.MASTER s.lowestLive

/-- A strobe's end: outside a switchover the bandwidth written is in force. -/
def strobeEnd (t : State) : State := if t.tb.sw.isNone then { t with tb := { t.tb with bwInForce := t.get REF_CFG.BW } } else t

/-- What the start of a strobe changes. -/
def Scope.strobeStart : Scope := .join [.ofParts [.tb], .ofRegs [.TB_STAT]]

theorem frame_strobeStart : Frame Scope.strobeStart s (strobeStart s) := .put (.withTb .refl)

theorem master_strobeStart : (strobeStart s).get TB_STAT.MASTER = s.lowestLive := get_put_lt 0 0 (by decide) lowestLive_lt

/-- The strobe, where the time master counts and has not been strobed in this period. -/
theorem alignmentStrobeS_eq {l : List (ℤ × ℤ)} (hrun : (s.chip (s.get TB_STAT.MASTER)).running = true)
    (hne : s.mcount / 65536 + 1 ≠ s.tb.strobes) (hl : l.length = 8) : alignmentStrobeS l s = strobeEnd (forBelow 8 (fun n =>
      (if s.cdDown then strobeAlone else strobeChip (l.getD s.lowestLive (0, 0)).2) n (l.getD n (0, 0)).1 (l.getD n (0, 0)).2)
      (strobeStart s)) := by
  have hcd : (strobeStart s).cdDown = s.cdDown := frame_strobeStart.cdDown
  have htake : l.zipIdx.take 8 = l.zipIdx := List.take_of_length_le (by simp [hl])
  have hloop := forList_zipIdx (0, 0)
    (fun x n => (if s.cdDown then strobeAlone else strobeChip (l.getD s.lowestLive (0, 0)).2) n x.1 x.2) l (strobeStart s)
  rw [hl] at hloop
  rw [← hloop, ← htake, ← hcd, ← master_strobeStart, alignmentStrobeS, if_pos (by simp [hrun, State.strobeNow, hne])]
  rfl

/-- What a strobe without measured upsets leaves, where the time master goes on. -/
theorem strobed {l : List (ℤ × ℤ)} (hcd : s.cdDown = false) (hl : l.length = 8) (hzero : ∀ x ∈ l, x.1 = 0)
    (hreload : (s.chip s.lowestLive).reload = false)
    (hrun : (s.chip (s.get TB_STAT.MASTER)).running = true) (hne : s.mcount / 65536 + 1 ≠ s.tb.strobes) :
    ∃ u, alignmentStrobeS l s = strobeEnd u ∧
      Strobing (strobeStart s) (l.getD s.lowestLive (0, 0)).2 (fun n => (l.getD n (0, 0)).2) 8 u := by
  refine ⟨_, alignmentStrobeS_eq hrun hne hl, ?_⟩
  rw [hcd, if_neg Bool.false_ne_true]
  have hstart : Strobing (strobeStart s) (l.getD s.lowestLive (0, 0)).2 (fun n => (l.getD n (0, 0)).2) 0 (strobeStart s) :=
    ⟨rfl, rfl, rfl, fun _ => rfl, fun _ _ => rfl, fun _ _ _ => rfl, fun _ => rfl, .refl, fun _ => rfl, rfl, fun n hn => by omega⟩
  refine forBelow_induct _ 8 hstart fun k hk t ht => ?_
  have herr : (l.getD k (0, 0)).1 = 0 := by
    rw [List.getD_eq_getElem _ _ (by omega)]
    exact hzero _ (List.getElem_mem _)
  rw [herr]
  refine strobing_succ hk (fun hm => ?_) ht
  rw [frame_strobeStart.chip, ← hm, master_strobeStart]
  exact hreload

/-- A strobe's count is the time master's, whose chiplet stays. -/
theorem mcount_strobeStart (hmaster : s.get TB_STAT.MASTER = s.lowestLive) : (strobeStart s).mcount = s.mcount := by
  rw [State.mcount, master_strobeStart, frame_strobeStart.count, State.mcount, hmaster]

theorem strobeEnd_frame (t : State) : Frame (.ofParts [.tb]) t (strobeEnd t) := .ite (.withTb .refl) .refl

/-- A strobed chiplet, as the state before the strobe tells it. -/
theorem StrobedChip.of_start {m phase : ℤ} {u : State} (hmaster : s.get TB_STAT.MASTER = s.lowestLive)
    (h : StrobedChip (strobeStart s) m phase n u) : StrobedChip s m phase n u :=
  h.of_same (frame_strobeStart.chip n) frame_strobeStart.clock (mcount_strobeStart hmaster) frame_strobeStart.isSet

theorem strobeEnd_tb (t : State) : (strobeEnd t).tb = if t.tb.sw = none then { t.tb with bwInForce := t.get REF_CFG.BW } else t.tb := by
  unfold strobeEnd
  cases t.tb.sw <;> rfl

/-- Where no chiplet steps, nothing else comes before the strobe. -/
theorem strobeAll_of_no_step {l : List (ℤ × ℤ)} (h : s.cdDown = true ∨ ∀ n < 8, (s.chip n).reload = false) :
    strobeAll l s = alignmentStrobeS l s := by
  unfold strobeAll
  rcases h with h | h
  · simp only [h, Bool.not_true, Bool.and_false, Bool.false_eq_true, if_false]
    rfl
  · have hstep : s.stepping = [] := List.filter_eq_nil_iff.mpr fun n hn => by simp [h n (List.mem_range.mp hn)]
    simp only [hstep, List.filter_nil, ite_self]
    rfl

theorem strobe_complete {l : List (ℤ × ℤ)} (hcold : s.coldHeld = false) (hcd : s.cdDown = false) (hl : l.length = 8)
    (hzero : ∀ x ∈ l, x.1 = 0) (hreload : ∀ n < 8, (s.chip n).reload = false) (hmaster : s.get TB_STAT.MASTER = s.lowestLive)
    (hrun : (s.chip (s.get TB_STAT.MASTER)).running = true) (hne : s.mcount / 65536 + 1 ≠ s.tb.strobes) :
    ∃ t, exec (.alignmentStrobe l) s = .next t ∧ t.tb.strobes = s.mcount / 65536 + 1 ∧
      (∀ n < 8, s.chipOut n = false → (s.chip n).running = true →
        (t.get REPL_PHASE.PHASE n : Int) = ((l.getD n (0, 0)).2 - (l.getD s.lowestLive (0, 0)).2) % 2 ^ 16 ∧
        t.isSet REPL_PHASE.VALID n = true ∧
          (t.get TB_STAT.REPL_OK).testBit n = (s.count n == s.mcount) ∧ (t.chip n).latchCount = s.count n ∧
          (t.chip n).latchPhase = (l.getD n (0, 0)).2 ∧
          (s.count n ≠ s.mcount → (t.chip n).reload = true ∧ t.isSet REPL_PHASE.OUT_OF_STEP n = true ∧
            t.isSet TB_STAT.TBSTEP = true ∧ 259 ∈ t.raising)) ∧
      (s.tb.sw = none → t.tb.bwInForce = s.get REF_CFG.BW) ∧ Kept [.regs, .chips, .tb, .raising] s t := by
  obtain ⟨u, heq, hu⟩ := strobed hcd hl hzero (hreload _ lowestLive_lt) hrun hne
  have hstart : Frame Scope.strobeStart s (strobeStart s) := frame_strobeStart
  have hstrobes : (strobeStart s).tb.strobes = s.mcount / 65536 + 1 := rfl
  have hsw : (strobeStart s).tb.sw = s.tb.sw := rfl
  have htb : u.tb = (strobeStart s).tb := hu.kept .tb (by decide)
  have hcores : u.cores = s.cores := (hu.cores fun n hn => by rw [hstart.chip]; exact hreload n hn).trans (hstart.part .cores rfl)
  have hend := strobeEnd_frame u
  have htbEnd := strobeEnd_tb u
  refine ⟨_, (act_next hcold _).trans (congrArg _ ((strobeAll_of_no_step (.inr hreload)).trans heq)), ?_, fun n hn hin hon => ?_, ?_, ?_⟩
  · rw [htbEnd, ← hstrobes, ← htb]
    split <;> rfl
  · have hchip := (hu.done n hn ((hstart.chipOut n).trans hin) (by rw [hstart.chip]; exact hon)).of_start hmaster
    have hcount : strobeCount s n = s.count n := by simp [strobeCount, hreload n hn]
    obtain ⟨h1, h2, h3, -, h5, h6, h7, -, -, h10⟩ := hchip
    rw [hcount] at h3 h5 h7 h10
    rw [hend.get, hend.isSet, hend.get, hend.chip, hend.isSet, hend.isSet, show (strobeEnd u).raising = u.raising from hend.part .raising rfl]
    exact ⟨h1, h2, h3, h5, h6, fun hoff => ⟨by rw [h7]; exact bne_iff_ne.mpr hoff, h10 hoff⟩⟩
  · intro hnone
    rw [htbEnd, if_pos (by rw [htb, hsw]; exact hnone)]
    exact hu.bw.trans hstart.get
  · refine fun p hp => ?_
    by_cases hpc : p = .cores
    · subst hpc
      exact (hend.part .cores rfl).trans hcores
    · have hpart : Kept [.regs, .chips, .cores, .tb, .raising] s (strobeEnd u) :=
        (hstart.kept.trans (hu.kept.mono (by decide))).trans hend.kept
      exact hpart p (by simp_all)

theorem forList_singleton {α : Type} (x : α) (f : α → State → State) (s : State) : forList [x] f s = f x s := rfl

/-- What comes before the strobe where chiplet `n` alone steps. -/
def stepFirst (n : ℕ) (s : State) : State := clearChipStamps n (restartRuns n (endTimebase n s))

def Scope.stepFirst : Scope := .join [Frame.Scope.clearChipStamps, Frame.Scope.restartRuns, Frame.Scope.endTimebase]

theorem frame_stepFirst (n : ℕ) (s : State) : Frame Scope.stepFirst s (stepFirst n s) := .clearChipStamps (.restartRuns (.endTimebase .refl))

theorem strobeAll_of_step {l : List (ℤ × ℤ)} {n : ChipletIx} (hcd : s.cdDown = false) (hl : l.length = 8)
    (hothers : ∀ k < 8, k ≠ n.val → (s.chip k).reload = false) (hrun : (s.chip (s.get TB_STAT.MASTER)).running = true)
    (hne : s.mcount / 65536 + 1 ≠ s.tb.strobes) (hin : s.chipOut n = false) (hon : (s.chip n).running = true)
    (hreload : (s.chip n).reload = true) : strobeAll l s = alignmentStrobeS l (stepFirst n s) := by
  have hone : ∀ n : ChipletIx, (List.range 8).filter (fun k => decide (k = n.val)) = [n.val] := by decide
  have hstep : s.stepping = [n.val] := by
    rw [State.stepping, ← hone n]
    refine List.filter_congr fun k hk => ?_
    by_cases hkn : k = n.val
    · simp [hkn, hin, hon, hreload]
    · simp [hkn, hothers k (List.mem_range.mp hk) hkn]
  have hgo : ((s.chip (s.get TB_STAT.MASTER)).running && decide (s.strobeNow ≠ s.tb.strobes) && !s.cdDown) = true := by
    simp [hrun, hne, hcd, State.strobeNow]
  have hlist : (if ((s.chip (s.get TB_STAT.MASTER)).running && decide (s.strobeNow ≠ s.tb.strobes) && !s.cdDown) = true then
      s.stepping.filter fun k => decide (k < l.length) else []) = [n.val] := by
    rw [if_pos hgo, hstep]
    simp [hl]
  rw [strobeAll]
  rw [hlist, forList_singleton, stepFirst]

theorem step_complete {l : List (ℤ × ℤ)} {n : ChipletIx} (hcold : s.coldHeld = false) (hcd : s.cdDown = false) (hl : l.length = 8)
    (hzero : ∀ x ∈ l, x.1 = 0) (hothers : ∀ k < 8, k ≠ n.val → (s.chip k).reload = false)
    (hmaster : s.get TB_STAT.MASTER = s.lowestLive) (hnm : s.lowestLive ≠ n.val) (hrun : (s.chip s.lowestLive).running = true)
    (hne : s.mcount / 65536 + 1 ≠ s.tb.strobes) (hin : s.chipOut n = false) (hon : (s.chip n).running = true)
    (hreload : (s.chip n).reload = true) :
    ∃ t, exec (.alignmentStrobe l) s = .next t ∧ t.count n = s.mcount ∧ (t.chip n).reload = false ∧
      (t.get TB_STAT.REPL_OK).testBit n = true ∧
      (t.chip n).fifo =
        (if s.count n < s.mcount then (s.chip n).fifo.map (Admitted.pass s.mcount) else (s.chip n).fifo) ∧
      t.isSet COMMIT_STAT.LATE_SEEN n =
        (s.isSet COMMIT_STAT.LATE_SEEN n || decide (s.count n < s.mcount) && (s.chip n).fifo.any fun a => decide (a.due < s.mcount)) := by
  rw [← hmaster] at hrun
  have hfirst := frame_stepFirst n s
  have hall := strobeAll_of_step hcd hl hothers hrun hne hin hon hreload
  generalize stepFirst n s = v at *
  have hmcount : v.mcount = s.mcount := hfirst.mcount
  have hlive : v.lowestLive = s.lowestLive := hfirst.lowestLive
  have hvmaster : v.get TB_STAT.MASTER = v.lowestLive := by rw [hfirst.get, hmaster, hlive]
  obtain ⟨u, heq, hu⟩ := strobed (s := v) (l := l) (hfirst.cdDown.trans hcd) hl hzero
    (by rw [hlive, hfirst.chip]; exact hothers _ lowestLive_lt hnm) (by rw [hfirst.get, hfirst.chip]; exact hrun)
    (by rw [hmcount, hfirst.tb]; exact hne)
  have hstart : Frame Scope.strobeStart v (strobeStart v) := frame_strobeStart
  have hend := strobeEnd_frame u
  have hdone := (hu.done n n.isLt (by rw [hstart.chipOut, hfirst.chipOut]; exact hin) (by rw [hstart.chip, hfirst.chip]; exact hon)).of_start hvmaster
  have hcount : strobeCount v n = s.mcount := by rw [strobeCount, hfirst.chip, hmcount, if_pos hreload]
  obtain ⟨-, -, h3, h4, -, -, h7, h8, h9, -⟩ := hdone
  rw [hcount, hmcount] at h3 h7
  rw [hfirst.chip, hfirst.count, hmcount] at h8
  rw [hfirst.isSet, hfirst.chip, stepsOver, hfirst.count, hmcount, hfirst.chip] at h9
  refine ⟨_, (act_next hcold _).trans (congrArg _ (hall.trans heq)), ?_, ?_, ?_, ?_, ?_⟩
  · rw [hend.count, h4, hcount]
  · rw [hend.chip, h7, bne_self_eq_false]
  · rw [hend.get, h3, beq_self_eq_true]
  · rw [hend.chip, h8]
    simp [hreload]
  · rw [hend.isSet, h9, hreload, Bool.true_and]

/-- While the control die does not work a strobe changes nothing but the replicas that take it. -/
structure Alone (s t : State) : Prop where
  frame : Frame (.ofParts [.chips]) s t
  reload : ∀ n, (t.chip n).reload = (s.chip n).reload

theorem alone_strobeAlone (h : Alone s t) (n : ℕ) (err phase : ℤ) : Alone s (strobeAlone n err phase t) := by
  unfold strobeAlone
  split
  · exact h
  · refine ⟨.latchStrobe (.upsetReplica h.frame), fun k => ?_⟩
    rw [← h.reload, latchStrobe, upsetReplica, State.chip_setChip, State.chip_setChip]
    split
    · next he => rw [he, if_pos rfl]
    · next he => rw [State.chip_setChip, if_neg he]

theorem lone_strobe_complete {l : List (ℤ × ℤ)} (hcold : s.coldHeld = false) (hcd : s.cdDown = true) (hl : l.length = 8)
    (hrun : (s.chip (s.get TB_STAT.MASTER)).running = true) (hne : s.mcount / 65536 + 1 ≠ s.tb.strobes) :
    ∃ t, exec (.alignmentStrobe l) s = .next t ∧ t.get TB_STAT.MASTER = s.lowestLive ∧
      (∀ n, (t.chip n).reload = (s.chip n).reload) ∧ RegsKept [RegId.TB_STAT.at] s t ∧ Kept [.regs, .chips, .tb] s t := by
  have heq := alignmentStrobeS_eq hrun hne hl
  simp only [hcd, if_true] at heq
  have hloop : Alone (strobeStart s)
      (forBelow 8 (fun n => strobeAlone n (l.getD n (0, 0)).1 (l.getD n (0, 0)).2) (strobeStart s)) :=
    forBelow_induct (fun _ => Alone (strobeStart s)) 8 ⟨.refl, fun _ => rfl⟩ fun k _ t h => alone_strobeAlone h k _ _
  have hstart : Frame Scope.strobeStart s (strobeStart s) := frame_strobeStart
  have hmaster : (strobeStart s).get TB_STAT.MASTER = s.lowestLive := master_strobeStart
  generalize forBelow 8 _ (strobeStart s) = u at *
  have hall : Frame (.join [.ofParts [.tb, .chips], .ofRegs [.TB_STAT]]) s (strobeEnd u) :=
    ((hstart.mono (by decide)).trans (hloop.frame.mono (by decide))).trans ((strobeEnd_frame u).mono (by decide))
  refine ⟨_, (act_next hcold _).trans (congrArg _ ((strobeAll_of_no_step (.inl hcd)).trans heq)), ?_, fun n => ?_, ?_, ?_⟩
  · rw [(strobeEnd_frame u).get, hloop.frame.get, hmaster]
  · rw [(strobeEnd_frame u).chip, hloop.reload, hstart.chip]
  · exact hall.regsKept [.TB_STAT]
  · exact hall.kept

end

/-- Settles O22: a strobe runs chiplet by chiplet, and each turn leaves the others, and what it has compared of those before, alone. -/
theorem replicasComplete : Obligations.ReplicasComplete := by
  unfold Obligations.ReplicasComplete
  refine ⟨fun _ => replicaStart_complete, fun _ _ hcold hcd hl hzero hreload hmaster hrun hne => ?_,
    fun _ _ _ hcold hcd hl hzero hothers hmaster hnm hrun hne hin hon hreload => ?_, fun _ _ hcold hcd hl hrun hne => ?_⟩
  · exact strobe_complete hcold hcd hl hzero hreload hmaster hrun hne
  · exact step_complete hcold hcd hl hzero hothers hmaster hnm hrun hne hin hon hreload
  · exact lone_strobe_complete hcold hcd hl hrun hne

end Sys2Proof.Proofs

/-! ## Writes that the host, a link or an engine makes (R301 to R327)

`busWrite_hook` says what a served write that meets no rule against it leaves: the word stands in the register but for what the register's
chapter makes of it, with the record in the change log. `busPair_apply` says the same of a paired write. -/

namespace Sys2Proof.Proofs

set_option Elab.async false

open Sys2Proof Sys2Proof.Machine Sys2Proof.Claims

section

variable {s : State} {r : RegAt} {a o i j : ℕ} {v : Word} {id : RegId}

/-- A register whose function is not frozen reads as it stands. -/
theorem badAt_of_thawed (h : s.frozen a = false) : s.badAt a = none := by
  rw [State.badAt, Option.map_eq_none_iff, List.find?_eq_none]
  intro e he
  have hne := List.any_eq_false.mp h e he
  simp only [beq_iff_eq] at hne ⊢
  exact fun hea => hne (congrArg fnOf hea)

/-- The bits of a word that differ lie under a mask: written under it, the word stands whole. -/
theorem merge_eq (old v m rest : Word) (hall : m ||| rest = BitVec.allOnes 32) (h : (v ^^^ old) &&& rest = 0) :
    (old &&& ~~~m) ||| (v &&& m) = v := by
  ext b hb
  have hbit := congrArg (BitVec.getLsbD · b) h
  have hcov := congrArg (BitVec.getLsbD · b) hall
  simp only [BitVec.getLsbD_and, BitVec.getLsbD_xor, BitVec.getLsbD_or, BitVec.getLsbD_allOnes, hb, decide_true] at hbit hcov
  simp only [← BitVec.getLsbD_eq_getElem, BitVec.getLsbD_or, BitVec.getLsbD_and, BitVec.getLsbD_not, hb, decide_true, Bool.true_and]
  revert hbit hcov
  cases m.getLsbD b <;> cases rest.getLsbD b <;> cases v.getLsbD b <;> cases old.getLsbD b <;> simp

/-- The word that a write stores is the one written where every bit is written, reserved or the hardware's. -/
theorem writtenWord_eq (hclean : s.clean r a v = true) (hview : s.view r a = s.reg a)
    (hall : BitVec.ofNat 32 ((regRow r.id).rw ||| (regRow r.id).cnt ||| (regRow r.id).wo1) |||
      BitVec.ofNat 32 ((regRow r.id).rsvd ||| (regRow r.id).hwo) = BitVec.allOnes 32) : writtenWord s r a v = v := by
  rw [writtenWord, writable_of_clean hclean]
  refine merge_eq _ _ _ _ hall ?_
  simp only [State.clean, Bool.and_eq_true, beq_iff_eq] at hclean
  rw [← hview]
  exact hclean.1.1.1.1.1

/-- A write that meets no rule against it: the register's chapter makes its word and its effects, with the record in the change log. -/
theorem directWrite_hook (hclean : s.clean r a v = true) (hw : s.writable r a ≠ 0#32) : ∃ q, directWrite o r a v s =
    afterWrite r (s.reg a) ((writeHook o r (s.writable r a) (s.reg a) (writtenWord s r a v) { s with tansyQ := q }).2.setReg a
      (writeHook o r (s.writable r a) (s.reg a) (writtenWord s r a v) s).1) := by
  have hviol := violations_of_clean hclean o (s.heldWord r a none)
  have hclean' := hclean
  simp only [State.clean, Bool.and_eq_true, Bool.not_eq_true', decide_eq_true_eq] at hclean'
  obtain ⟨⟨⟨⟨⟨-, hlock⟩, hown⟩, honce⟩, -⟩, hroom⟩ := hclean'
  have hlog : ∀ (b : Bool) k w w', ∃ q, s.when b (·.log o k a w w') = { s with tansyQ := q } := by
    intro b k w w'
    unfold State.when
    split
    · exact log_room hroom ..
    · exact ⟨s.tansyQ, rfl⟩
  unfold directWrite
  dsimp only
  rw [hviol]
  simp only [hlock, hown, honce, Bool.or_false, Bool.false_and, Bool.not_false, Bool.and_true]
  obtain ⟨q, hq⟩ := hlog _ _ _ _
  have hact : (s.writable r a != 0) = true := bne_iff_ne.mpr hw
  refine ⟨q, ?_⟩
  rw [hq]
  simp only [hact, if_true]
  rfl

/-- All that a family of registers says of a write to it. -/
structure Plain (id : RegId) : Prop where
  notA : id.isPairA = false
  notB : id.isPairB = false
  stored : BitVec.ofNat 32 ((regRow id).rw ||| (regRow id).cnt ||| (regRow id).wo1) ≠ 0#32
  covered : BitVec.ofNat 32 ((regRow id).rw ||| (regRow id).cnt ||| (regRow id).wo1) |||
    BitVec.ofNat 32 ((regRow id).rsvd ||| (regRow id).hwo) = BitVec.allOnes 32

/-- What an accepted write to an unpaired register leaves. -/
theorem busWrite_hook {o : Origin} (h : s.writes o id i j v = true) (hid : Plain id) (hi : i < (regRow id).n1 := by decide)
    (hj : j < (regRow id).n2 := by decide) (h0 : (RegAt.mk id i j).entry0 = false := by rfl)
    (hcomp : ∀ w, s.computed ⟨id, i, j⟩ w = w := by exact fun _ => rfl) :
    ∃ q, busWrite o (id.at i j) v s = .next (afterWrite ⟨id, i, j⟩ (s.reg (id.at i j))
      ((writeHook o.toNat ⟨id, i, j⟩ (BitVec.ofNat 32 ((regRow id).rw ||| (regRow id).cnt ||| (regRow id).wo1)) (s.reg (id.at i j)) v
        { s with tansyQ := q }).2.setReg (id.at i j)
      (writeHook o.toNat ⟨id, i, j⟩ (BitVec.ofNat 32 ((regRow id).rw ||| (regRow id).cnt ||| (regRow id).wo1)) (s.reg (id.at i j)) v s).1)) := by
  obtain ⟨hserves, hclean⟩ := Bool.and_eq_true_iff.mp h
  have hserved := serves_iff.mp hserves
  have hreg : regOf (id.at i j) = some ⟨id, i, j⟩ := regOf_at id i j hi hj h0
  have hview : s.view ⟨id, i, j⟩ (id.at i j) = s.reg (id.at i j) := by
    rw [State.view, badAt_of_thawed (hserved.thawed rfl)]
    exact hcomp _
  have hmask : s.writable ⟨id, i, j⟩ (id.at i j) = BitVec.ofNat 32 ((regRow id).rw ||| (regRow id).cnt ||| (regRow id).wo1) :=
    writable_of_clean hclean
  obtain ⟨q, hq⟩ := directWrite_hook (o := o.toNat) hclean (by rw [hmask]; exact hid.stored)
  refine ⟨q, ?_⟩
  rw [busWrite, originWrite_of_serves hserves hreg hid.notA hid.notB (reservedAt_of_served hserved hreg), hq, hmask,
    writtenWord_eq hclean hview hid.covered]

/-! ### Paired writes (R314, R315) -/

/-- A served write that opens a pair. -/
theorem vetchWrite_pairA (h : Served s o a true) (hr : regOf a = some r) (hA : r.id.isPairA = true) (hbar : s.testBarred o r = false) :
    vetchWrite o a v s = (false, s.setOrg o { s.org o with pair := some (a, v, 64) }) := by
  have htick : pairTick o a true v s = s := by simp [pairTick, h.pair]
  have hlink : s.linkRefused o = false := linkRefused_of_mayAccess h.may
  have hreg : registerWrite o a v s = (false, pairWrite o r a v s) := by
    simp [registerWrite, h.base, hr, hbar, h.free, hA]
  simp [vetchWrite, h.on, h.noMail, htick, hlink, h.aligned, h.may, h.noMsix, h.noCtx, h.noPba, hreg, pairWrite, hA, h.pair]

theorem org_setOrg (s : State) (o : ℕ) (x : OriginSt) : (s.setOrg o x).org o = x := by
  simp [State.setOrg, State.org]

/-- A served write that closes a pair with the complement completes it. -/
theorem vetchWrite_pairB {rA : RegAt} {n : ℕ} (h : Served s o (a + 4) true) (hr : regOf (a + 4) = some r) (hB : r.id.isPairB = true)
    (hA : r.id.isPairA = false) (hbar : s.testBarred o r = false) (hrA : regOf a = some rA) (hthaw : s.frozen a = false) :
    vetchWrite o (a + 4) (~~~v) (s.setOrg o { s.org o with pair := some (a, v, n + 1) }) =
      (false, pairComplete o rA a v (dropPair o (s.setOrg o { s.org o with pair := some (a, v, n + 1) }))) := by
  have horg : ((s.setOrg o { s.org o with pair := some (a, v, n + 1) }).org o).pair = some (a, v, n + 1) := by rw [org_setOrg]
  have hoff : (s.setOrg o { s.org o with pair := some (a, v, n + 1) }).vetchOff = false := h.on
  have hlink : (s.setOrg o { s.org o with pair := some (a, v, n + 1) }).linkRefused o = false := linkRefused_of_mayAccess h.may
  have hmay : (s.setOrg o { s.org o with pair := some (a, v, n + 1) }).mayAccess o (a + 4) true = true := h.may
  have hbar' : (s.setOrg o { s.org o with pair := some (a, v, n + 1) }).testBarred o r = false := hbar
  have hfree : (s.setOrg o { s.org o with pair := some (a, v, n + 1) }).barred (a + 4) = false := h.free
  have hthaw' : (dropPair o (s.setOrg o { s.org o with pair := some (a, v, n + 1) })).frozen a = false := hthaw
  generalize s.setOrg o { s.org o with pair := some (a, v, n + 1) } = u at *
  have htick : pairTick o (a + 4) true (~~~v) u = u := by simp [pairTick, horg]
  have hreg : registerWrite o (a + 4) (~~~v) u = (false, pairWrite o r (a + 4) (~~~v) u) := by
    simp [registerWrite, h.base, hr, hbar', hfree, hB]
  have hpair : pairWrite o r (a + 4) (~~~v) u = pairComplete o rA a v (dropPair o u) := by
    simp [pairWrite, hA, horg, hrA, hthaw']
  simp [vetchWrite, hoff, h.noMail, htick, hlink, h.aligned, hmay, h.noMsix, h.noCtx, h.noPba, hreg, hpair]

/-- All that a pair of registers says of a paired write. -/
structure PairedRow (id idB : RegId) : Prop where
  isA : id.isPairA = true
  isB : idB.isPairB = true
  notA : idB.isPairA = false
  testA : id ≠ .TEST_CTRL_A ∧ id ≠ .TEST_CTRL_B ∧ id ≠ .PERM_LOCK_A
  testB : idB ≠ .TEST_CTRL_A ∧ idB ≠ .TEST_CTRL_B
  next : ∀ i < (regRow id).n1, id.at i + 4 = idB.at i
  rows : (regRow idB).n1 = (regRow id).n1 ∧ (regRow id).n2 = 1 ∧ (regRow idB).n2 = 1

theorem originWrite_of_vetch {t : State} (hon : s.busOn o = true) (hoff : s.vetchOff = false) (hracc : raccAddr a = false)
    (h : vetchWrite o a v s = (false, t)) : originWrite o a v s = (false, t) := by
  simp [originWrite, hon, engineWrite, hoff, h, hracc]

/-- What an accepted paired write leaves. -/
theorem busPair_apply {o : Origin} {idB : RegId} (h : s.writesPair o id i v = true) (hid : PairedRow id idB) (hi : i < (regRow id).n1)
    (h0 : (RegAt.mk id i 0).entry0 = false) (h0B : (RegAt.mk idB i 0).entry0 = false) : ∃ q og,
    busPair o (id.at i) v s = .next (pairApply ⟨id, i, 0⟩ (id.at i) v { s with orgs := og, tansyQ := q }) := by
  obtain ⟨hnA, hnB, hnL⟩ := hid.testA
  obtain ⟨hnA', hnB'⟩ := hid.testB
  obtain ⟨hn1, hn2, hn2B⟩ := hid.rows
  simp only [State.writesPair, Bool.and_eq_true, Bool.not_eq_true', beq_iff_eq, decide_eq_true_eq] at h
  obtain ⟨⟨⟨⟨⟨hservesA, hservesB⟩, -⟩, htest⟩, hkeep⟩, hroom⟩ := h
  have hA := serves_iff.mp hservesA
  have hB := serves_iff.mp hservesB
  have hregA : regOf (id.at i) = some ⟨id, i, 0⟩ := regOf_at id i 0 hi (by omega) h0
  have hregB : regOf (id.at i + 4) = some ⟨idB, i, 0⟩ := by
    rw [hid.next i hi]
    exact regOf_at idB i 0 (by omega) (by omega) h0B
  have hopen := vetchWrite_pairA (v := v) hA hregA hid.isA (by simp [State.testBarred, hnA, hnB])
  have hclose := vetchWrite_pairB (v := v) (n := 63) hB hregB hid.isB hid.notA (by simp [State.testBarred, hnA', hnB']) hregA (hA.thawed rfl)
  have hfirst := originWrite_of_vetch hA.bus hA.on (raccAddr_of_served hA hregA) hopen
  have hsecond := originWrite_of_vetch (s := s.setOrg o.toNat { s.org o.toNat with pair := some (id.at i, v, 64) }) hB.bus hB.on
    (raccAddr_of_served hB hregB) hclose
  have hvalue : s.pairValue ⟨id, i, 0⟩ (id.at i) v = v := by
    rw [State.pairValue, htest, if_neg Bool.false_ne_true]
    refine merge_eq _ _ _ (~~~(BitVec.ofNat 32 (pairMask id))) ?_ hkeep
    ext b hb
    simp
  obtain ⟨og, hog⟩ : ∃ og, dropPair o.toNat (s.setOrg o.toNat { s.org o.toNat with pair := some (id.at i, v, 64) }) = { s with orgs := og } :=
    ⟨_, rfl⟩
  have hrsvd : pairRsvd o.toNat ⟨id, i, 0⟩ (id.at i) v { s with orgs := og } = { s with orgs := og } := by
    have hsame : ((v ^^^ ({ s with orgs := og } : State).reg (id.at i)) &&& ~~~(BitVec.ofNat 32 (pairMask id))) = 0 := hkeep
    simp [pairRsvd, State.when, hsame]
  obtain ⟨q, hq⟩ := log_room (s := { s with orgs := og }) (o := o.toNat) hroom kPAIRED (id.at i) (s.reg (id.at i)) v 0
  refine ⟨q, og, ?_⟩
  rw [busPair, hfirst]
  simp only [Bool.false_and, Bool.false_eq_true, if_false]
  rw [hsecond, hog, pairComplete]
  simp only [State.pairLocked, beq_eq_false_iff_ne.mpr hnL, Bool.false_and, Bool.false_eq_true, if_false, hrsvd]
  exact congrArg Host.Outcome.next ((congrArg (pairApply _ _ · _) hvalue).trans (congrArg (pairApply _ _ v) hq))

end

end Sys2Proof.Proofs

/-! ## References (R39, R43 to R45, R48) -/

namespace Sys2Proof.Proofs

set_option Elab.async false

open Sys2Proof Sys2Proof.Machine Sys2Proof.Claims

section

variable {s : State} {r : ℕ} {f : Fld}

/-! ### The loss of a reference (R44, R49) -/

@[simp] theorem get_setRefIn (x : RefIn) (f : Fld) (i j : ℕ) : (s.setRefIn r x).get f i j = s.get f i j := rfl

@[simp] theorem isSet_setRefIn (x : RefIn) (f : Fld) (i j : ℕ) : (s.setRefIn r x).isSet f i j = s.isSet f i j := rfl

@[simp] theorem refIn_setRefIn (x : RefIn) : (s.setRefIn r x).refIn r = x := by
  unfold State.setRefIn State.refIn
  split <;> rfl

/-- A field that no loss of a reference writes but for the reference's own marks. -/
structure Beside (f : Fld) : Prop where
  state : Apart REF_STAT.STATE f
  switching : Apart REF_STAT.SWITCHING f
  count : f.reg ≠ .REF_SWCNT

theorem get_startSwitchover (h : Beside f) (i j : ℕ) : (startSwitchover r s).get f i j = s.get f i j := by
  rw [startSwitchover, get_withTb, get_put_of_apart h.switching]

theorem get_enterHoldover (h : Beside f) (i j : ℕ) : (enterHoldover s).get f i j = s.get f i j := by
  rw [enterHoldover, get_withTb, State.get_raise_keep, State.get_setWide_keep, State.bump, State.get_put_fam _ _ _ _ _ _ _ _ h.count,
    get_put_of_apart h.switching, get_put_of_apart h.state]

/-- What the loss of a reference can do to the conditioners (R45, R48, R49, R53). -/
theorem afterRefLoss_cases (r : ℕ) (s : State) : ∃ u : State, (∃ x : TimeBase, x.ref1 = s.tb.ref1 ∧ u = { s with tb := x }) ∧
    (afterRefLoss r s = u ∨ afterRefLoss r s = enterHoldover u ∨ afterRefLoss r s = startSwitchover (1 - r) u ∨
      afterRefLoss r s = startSwitchover (1 - r) (enterHoldover u)) := by
  unfold afterRefLoss
  dsimp only
  refine ⟨if s.tb.acquiring = some r then
    { s with tb := { s.tb with acquiring := if s.isSet (refQual (1 - r)) then some (1 - r) else none } } else s, ?_, ?_⟩
  · split
    · exact ⟨{ s.tb with acquiring := if s.isSet (refQual (1 - r)) then some (1 - r) else none }, rfl, rfl⟩
    · exact ⟨s.tb, rfl, rfl⟩
  · generalize (if s.tb.acquiring = some r then _ else s : State) = u
    cases u.tb.sw with
    | some sw =>
      dsimp only
      split
      · unfold State.when
        split
        · exact .inr (.inr (.inr rfl))
        · exact .inr (.inl rfl)
      · exact .inl rfl
    | none =>
      dsimp only
      split
      · split
        · exact .inr (.inr (.inl rfl))
        · exact .inr (.inl rfl)
      · exact .inl rfl

theorem get_afterRefLoss (h : Beside f) (i j : ℕ) : (afterRefLoss r s).get f i j = s.get f i j := by
  obtain ⟨u, ⟨x, -, rfl⟩, heq | heq | heq | heq⟩ := afterRefLoss_cases r s
  · rw [heq, get_withTb]
  · rw [heq, get_enterHoldover h, get_withTb]
  · rw [heq, get_startSwitchover h, get_withTb]
  · rw [heq, get_startSwitchover h, get_enterHoldover h, get_withTb]

theorem ref1_afterRefLoss : (afterRefLoss r s).tb.ref1 = s.tb.ref1 := by
  obtain ⟨u, ⟨x, hx, rfl⟩, heq | heq | heq | heq⟩ := afterRefLoss_cases r s
  all_goals rw [heq]; exact hx

theorem ref1_loseRef : (loseRef 0 s).tb.ref1 = s.tb.ref1 := by
  rw [loseRef, ref1_afterRefLoss]
  unfold State.when
  split <;> rfl

theorem get_loseRef (h : Beside f) (hq : Apart (refQual r) f) (hl : Apart (refLost r) f) (i j : ℕ) :
    (loseRef r s).get f i j = s.get f i j := by
  unfold loseRef
  rw [get_afterRefLoss h]
  unfold State.when
  split
  · rw [State.get_raise_keep, get_setRefIn, get_put_of_apart hl, get_put_of_apart hq]
  · rw [get_setRefIn, get_put_of_apart hl, get_put_of_apart hq]

/-- The three marks of a reference are three bits of `REF_STAT` that the conditioners' state is not among. -/
structure Marks (r : ℕ) : Prop where
  qual : Beside (refQual r)
  lost : Beside (refLost r)
  present : Beside (refPresent r)
  lostQual : Apart (refLost r) (refQual r)
  qualPresent : Apart (refQual r) (refPresent r)
  lostPresent : Apart (refLost r) (refPresent r)
  presentQual : Apart (refPresent r) (refQual r)
  qualState : Apart (refQual r) REF_STAT.STATE
  qualBit : (refQual r).lo + (refQual r).w ≤ 32 ∧ 0 < (refQual r).w
  lostBit : (refLost r).lo + (refLost r).w ≤ 32 ∧ 0 < (refLost r).w
  presentBit : (refPresent r).lo + (refPresent r).w ≤ 32 ∧ 0 < (refPresent r).w

theorem marks (hr : r < 2) : Marks r := by
  obtain rfl | rfl : r = 0 ∨ r = 1 := by omega
  all_goals
    exact ⟨⟨by decide, by decide, by decide⟩, ⟨by decide, by decide, by decide⟩, ⟨by decide, by decide, by decide⟩,
      by decide, by decide, by decide, by decide, by decide, by decide, by decide, by decide⟩

/-- The marks of a reference that is lost. -/
theorem loseRef_marks (h : Marks r) : (loseRef r s).isSet (refQual r) = false ∧ (loseRef r s).isSet (refLost r) = true := by
  have hmark {f : Fld} (h : Beside f) : (loseRef r s).get f = ((s.put (refQual r) 0).put (refLost r) 1).get f := by
    unfold loseRef
    rw [get_afterRefLoss h]
    unfold State.when
    split <;> rfl
  constructor
  · rw [State.isSet, hmark h.qual, get_put_of_apart h.lostQual]
    exact isSet_put_zero 0 0 h.qualBit.1
  · rw [State.isSet, hmark h.lost]
    exact isSet_put_one 0 0 h.lostBit

theorem raising_startSwitchover : (startSwitchover r s).raising = s.raising := rfl

theorem raising_enterHoldover : (enterHoldover s).raising = s.raising ++ [258] := by
  rw [enterHoldover]
  dsimp only
  rw [raise_raising, State.setWide_raising, State.bump_raising, State.put_raising, State.put_raising]

/-- What is raised stays raised. -/
theorem raising_afterRefLoss : s.raising ⊆ (afterRefLoss r s).raising := by
  have hhold (u : State) : u.raising ⊆ (enterHoldover u).raising := by
    rw [raising_enterHoldover]
    exact List.subset_append_left ..
  obtain ⟨u, ⟨x, -, rfl⟩, heq | heq | heq | heq⟩ := afterRefLoss_cases r s
  · rw [heq]
    exact List.Subset.refl _
  · rw [heq]
    exact hhold { s with tb := x }
  · rw [heq, raising_startSwitchover]
    exact List.Subset.refl _
  · rw [heq, raising_startSwitchover]
    exact hhold { s with tb := x }

/-- The loss of a qualified reference raises source 256. -/
theorem raising_loseRef (h : s.isSet (refQual r) = true) : 256 ∈ (loseRef r s).raising := by
  unfold loseRef
  rw [h, Bool.or_true]
  refine raising_afterRefLoss ?_
  rw [State.when, if_pos rfl, raise_raising]
  exact List.mem_append_right _ (List.mem_singleton.mpr rfl)

/-! ### The reference monitors -/

theorem refAbsent_complete (h : Marks r) (hen : s.isSet (refEn r) = true) (hpresent : s.isSet (refPresent r) = true) :
    (refAbsentS r s).isSet (refPresent r) = false ∧ (refAbsentS r s).isSet (refQual r) = false ∧
      (refAbsentS r s).isSet (refLost r) = true ∧ (s.isSet (refQual r) = true → 256 ∈ (refAbsentS r s).raising) := by
  have hlose : refAbsentS r s = loseRef r (s.put (refPresent r) 0) := by simp [refAbsentS, hen, hpresent]
  rw [hlose]
  obtain ⟨hqual, hlost⟩ := loseRef_marks (s := s.put (refPresent r) 0) h
  refine ⟨?_, hqual, hlost, fun hq => raising_loseRef ?_⟩
  · rw [State.isSet, get_loseRef h.present h.qualPresent h.lostPresent]
    exact isSet_put_zero 0 0 h.presentBit.1
  · rw [isSet_put_of_apart h.presentQual, hq]

theorem refEdgesReturn_complete (h : Marks r) (hen : s.isSet (refEn r) = true) (hok : (s.refIn r).freqOk = true)
    (hpresent : s.isSet (refPresent r) = false) :
    (refEdgesReturnS r s).isSet (refPresent r) = true ∧ ((refEdgesReturnS r s).refIn r).goodFrom = s.clock := by
  have heq : refEdgesReturnS r s = (s.put (refPresent r) 1).setRefIn r { (s.put (refPresent r) 1).refIn r with
      goodFrom := (s.put (refPresent r) 1).clock, judgeFrom := (s.put (refPresent r) 1).clock / msTk + 1 } := by
    simp [refEdgesReturnS, hen, hok, hpresent]
  rw [heq, isSet_setRefIn, refIn_setRefIn]
  exact ⟨isSet_put_one 0 0 h.presentBit, s.put_clock (refPresent r) 1 0 0⟩

/-- The reference that qualifies. -/
def qualified (r : ℕ) (s : State) : State := (s.put (refQual r) 1).setRefIn r { (s.put (refQual r) 1).refIn r with qualFrom := s.clock }

theorem refQualifiedS_eq (hen : s.isSet (refEn r) = true) (hok : (s.refIn r).freqOk = true) (hpresent : s.isSet (refPresent r) = true)
    (hqual : s.isSet (refQual r) = false) (hdue : (s.refIn r).goodFrom + qualTime r s ≤ s.clock) :
    refQualifiedS r s = if (qualified r s).get REF_STAT.STATE = 3 then
        if (qualified r s).tb.acquiring = none then { qualified r s with tb := { (qualified r s).tb with acquiring := some r } }
        else qualified r s
      else if (qualified r s).get REF_STAT.STATE = 2 && (qualified r s).tb.sw.isNone then startSwitchover r (qualified r s)
      else qualified r s := by
  unfold refQualifiedS
  rw [if_pos (by simp [hen, hok, hpresent, hqual, hdue])]
  rfl

theorem refQualified_complete (h : Marks r) (hen : s.isSet (refEn r) = true) (hok : (s.refIn r).freqOk = true)
    (hpresent : s.isSet (refPresent r) = true) (hqual : s.isSet (refQual r) = false)
    (hdue : (s.refIn r).goodFrom + qualTime r s ≤ s.clock) : (refQualifiedS r s).isSet (refQual r) = true ∧
      (s.get REF_STAT.STATE = 3 → s.tb.acquiring = none → (refQualifiedS r s).tb.acquiring = some r) ∧
      (s.get REF_STAT.STATE = 2 → s.tb.sw = none →
        (refQualifiedS r s).tb.sw = some ⟨r, .decided, s.clock⟩ ∧ (refQualifiedS r s).isSet REF_STAT.SWITCHING = true) := by
  have hclock : (qualified r s).clock = s.clock := by simp only [qualified, State.setRefIn, State.put_clock]
  have hq : (qualified r s).isSet (refQual r) = true := by
    rw [qualified, isSet_setRefIn]
    exact isSet_put_one 0 0 h.qualBit
  have hstate : (qualified r s).get REF_STAT.STATE = s.get REF_STAT.STATE := by
    rw [qualified, get_setRefIn, get_put_of_apart h.qualState]
  have htb : (qualified r s).tb.acquiring = s.tb.acquiring ∧ (qualified r s).tb.sw = s.tb.sw := by
    unfold qualified State.setRefIn
    dsimp only
    split <;> exact ⟨rfl, rfl⟩
  rw [refQualifiedS_eq hen hok hpresent hqual hdue, hstate, htb.1, htb.2]
  generalize qualified r s = u at *
  refine ⟨?_, fun h3 hacq => ?_, fun h2 hsw => ?_⟩
  · split
    · split
      · exact hq
      · exact hq
    · split
      · rw [State.isSet, get_startSwitchover h.qual]
        exact hq
      · exact hq
  · rw [if_pos h3, if_pos hacq]
  · obtain ⟨hto, hon, -, -, -⟩ := startSwitchover_spec r u
    rw [if_neg (by omega), if_pos (by simp [h2, hsw]), ← hclock]
    exact ⟨hto, hon⟩

/-- A window's count departs from the declared frequency by more than the tolerance (R43). -/
theorem freqDeparts_eq (hz tol count : ℕ) :
    freqDeparts hz tol count = decide (tol * hz < ((count * 1000 : ℤ) - hz).natAbs * 1000000) := by
  have hd : (if count * 1000 ≤ hz then hz - count * 1000 else count * 1000 - hz) = ((count * 1000 : ℤ) - hz).natAbs := by
    split <;> omega
  rw [freqDeparts, hd]

theorem judgeRef_keeps {count window : ℕ}
    (h : ((count * 1000 : ℤ) - s.get (refHz r)).natAbs * 1000000 ≤ s.get REF_CFG.TOL_PPM * s.get (refHz r)) :
    judgeRef r count window s = s := by
  simp [judgeRef, freqDeparts_eq, Nat.not_lt.mpr h]

theorem judgeRef_loses {count window : ℕ} (hen : s.isSet (refEn r) = true) (hpresent : s.isSet (refPresent r) = true)
    (hfrom : (s.refIn r).judgeFrom ≤ window)
    (h : s.get REF_CFG.TOL_PPM * s.get (refHz r) < ((count * 1000 : ℤ) - s.get (refHz r)).natAbs * 1000000) :
    judgeRef r count window s = loseRef r s := by
  simp [judgeRef, freqDeparts_eq, hen, hpresent, hfrom, h]

/-- The windows run on. -/
theorem freqMonitorWindowS_eq (countA countB : ℕ) (hdue : (s.tb.freqWindows + 1) * msTk ≤ s.clock) :
    freqMonitorWindowS countA countB s =
      { judgeRef 1 countB s.tb.freqWindows (judgeRef 0 countA s.tb.freqWindows s) with
        tb := { (judgeRef 1 countB s.tb.freqWindows (judgeRef 0 countA s.tb.freqWindows s)).tb with
          freqWindows := s.tb.freqWindows + 1 } } := by
  rw [freqMonitorWindowS, if_pos hdue]

/-- A window judges a reference without regard to the other's marks. -/
theorem get_judgeRef {count window : ℕ} (h : Beside f) (hq : Apart (refQual r) f) (hl : Apart (refLost r) f) (i j : ℕ) :
    (judgeRef r count window s).get f i j = s.get f i j := by
  unfold judgeRef
  split
  · exact get_loseRef h hq hl ..
  · rfl

theorem ref1_judgeRef {count window : ℕ} : (judgeRef 0 count window s).tb.ref1 = s.tb.ref1 := by
  unfold judgeRef
  split
  · exact ref1_loseRef
  · rfl

theorem referenceMonitors : Claims.ReferenceMonitorsComplete := by
  unfold Claims.ReferenceMonitorsComplete
  refine ⟨fun r s hcold hen hpresent => ?_, fun r s hcold hen hok hpresent => ?_, fun r s hcold hen hok hpresent hqual hdue => ?_,
    fun countA countB s hcold hdue hA hB => ?_, fun countA countB s hcold hdue hen hpresent hfrom hout => ?_,
    fun countA countB s hcold hdue hen hpresent hfrom hout => ?_⟩
  · have hframe : Frame Frame.Scope.refAbsentS s (refAbsentS r s) := .refAbsentS .refl
    obtain ⟨h1, h2, h3, h4⟩ := refAbsent_complete (marks r.isLt) hen hpresent
    exact ⟨_, act_next hcold _, h1, h2, h3, h4, hframe.regsKept [.REF_STAT, .REF_SWCNT], hframe.kept⟩
  · have hframe : Frame Frame.Scope.refEdgesReturnS s (refEdgesReturnS r s) := .refEdgesReturnS .refl
    obtain ⟨h1, h2⟩ := refEdgesReturn_complete (marks r.isLt) hen hok hpresent
    exact ⟨_, act_next hcold _, h1, h2, hframe.regsKept [.REF_STAT], hframe.kept⟩
  · have hframe : Frame Frame.Scope.refQualifiedS s (refQualifiedS r s) := .refQualifiedS .refl
    obtain ⟨h1, h2, h3⟩ := refQualified_complete (marks r.isLt) hen hok hpresent hqual hdue
    exact ⟨_, act_next hcold _, h1, h2, h3, hframe.regsKept [.REF_STAT], hframe.kept⟩
  · have heq := freqMonitorWindowS_eq countA countB hdue
    rw [judgeRef_keeps (r := 0) hA, judgeRef_keeps (r := 1) hB] at heq
    exact ⟨_, (act_next hcold _).trans (congrArg _ heq), rfl, Kept.refl.withTb⟩
  · have heq := freqMonitorWindowS_eq countA countB hdue
    rw [judgeRef_loses (r := 0) hen hpresent hfrom hout] at heq
    obtain ⟨hqual, hlost⟩ := loseRef_marks (s := s) (marks (show 0 < 2 by decide))
    have hB (f : Fld) (h : Beside f) (hq : Apart (refQual 1) f) (hl : Apart (refLost 1) f) :=
      get_judgeRef (s := loseRef 0 s) (count := countB) (window := s.tb.freqWindows) h hq hl 0 0
    have hqual' := hB (refQual 0) ⟨by decide, by decide, by decide⟩ (by decide) (by decide)
    have hlost' := hB (refLost 0) ⟨by decide, by decide, by decide⟩ (by decide) (by decide)
    generalize judgeRef 1 countB s.tb.freqWindows (loseRef 0 s) = u at *
    refine ⟨_, (act_next hcold _).trans (congrArg _ heq), rfl, ?_, ?_⟩
    · exact (congrArg (· == 1) hqual').trans hqual
    · exact (congrArg (· == 1) hlost').trans hlost
  · have heq := freqMonitorWindowS_eq countA countB hdue
    have hkeep (f : Fld) (h : Beside f) (hq : Apart (refQual 0) f) (hl : Apart (refLost 0) f) :=
      get_judgeRef (s := s) (count := countA) (window := s.tb.freqWindows) h hq hl 0 0
    have hen' := hkeep REF_CFG.B_EN ⟨by decide, by decide, by decide⟩ (by decide) (by decide)
    have hpresent' := hkeep REF_STAT.B_PRESENT ⟨by decide, by decide, by decide⟩ (by decide) (by decide)
    have htol' := hkeep REF_CFG.TOL_PPM ⟨by decide, by decide, by decide⟩ (by decide) (by decide)
    have hhz' := hkeep REFB_FREQ.HZ ⟨by decide, by decide, by decide⟩ (by decide) (by decide)
    have hfrom' := ref1_judgeRef (s := s) (count := countA) (window := s.tb.freqWindows)
    generalize judgeRef 0 countA s.tb.freqWindows s = v at *
    have hlose : judgeRef 1 countB s.tb.freqWindows v = loseRef 1 v :=
      judgeRef_loses ((congrArg (· == 1) hen').trans hen) ((congrArg (· == 1) hpresent').trans hpresent)
        ((congrArg RefIn.judgeFrom hfrom').trans_le hfrom) (by rw [show refHz 1 = REFB_FREQ.HZ from rfl, htol', hhz']; exact hout)
    rw [hlose] at heq
    obtain ⟨hqual, hlost⟩ := loseRef_marks (s := v) (marks (show 1 < 2 by decide))
    exact ⟨_, (act_next hcold _).trans (congrArg _ heq), rfl, hqual, hlost⟩

/-! ### Writes to `REF_CFG` (R45, R48) -/

theorem plain_refCfg : Plain .REF_CFG := ⟨by decide, by decide, by decide, by decide⟩

/-- The word that a write stores in `REF_CFG`, but for `MAN_SEL`. -/
def refCfgWord (old new : Word) : Word := withField (refCfgStore old new) 3 1 (fieldOf old 3 1)

theorem fieldOf_refCfgWord_mid (old new : Word) {lo w : ℕ} (hlo : 4 ≤ lo) (hhi : lo + w ≤ 8) :
    fieldOf (refCfgWord old new) lo w = fieldOf new lo w := by
  rw [refCfgWord, fieldOf_withField_ne _ _ _ _ _ _ (by decide) (.inr hlo)]
  unfold refCfgStore
  have hstep (c : Prop) [Decidable c] (v : Word) (a b x : ℕ) (hab : a + b ≤ 32) (hd : lo + w ≤ a ∨ a + b ≤ lo) :
      fieldOf (if c then withField v a b x else v) lo w = fieldOf v lo w := by
    split
    · exact fieldOf_withField_ne _ _ _ _ _ _ hab hd
    · rfl
  dsimp only
  rw [hstep _ _ 16 8 1 (by decide) (by omega), hstep _ _ 8 8 1 (by decide) (by omega), hstep _ _ 0 2 _ (by decide) (by omega)]

theorem fieldOf_refCfgWord_mode (old new : Word) (h : fieldOf new 0 2 ≠ 3) : fieldOf (refCfgWord old new) 0 2 = fieldOf new 0 2 := by
  rw [refCfgWord, fieldOf_withField_ne _ _ _ _ _ _ (by decide) (.inl (by decide))]
  unfold refCfgStore
  rw [if_neg h]
  have hstep (c : Prop) [Decidable c] (v : Word) (a b x : ℕ) (hab : a + b ≤ 32) (hd : 2 ≤ a) :
      fieldOf (if c then withField v a b x else v) 0 2 = fieldOf v 0 2 := by
    split
    · exact fieldOf_withField_ne _ _ _ _ _ _ hab (.inl hd)
    · rfl
  dsimp only
  rw [hstep _ _ 16 8 1 (by decide) (by decide), hstep _ _ 8 8 1 (by decide) (by decide)]

theorem fieldOf_refCfgWord_sel (old new : Word) : fieldOf (refCfgWord old new) 3 1 = fieldOf old 3 1 := by
  rw [refCfgWord, fieldOf_withField _ _ _ _ (by decide), fieldOf, Nat.mod_mod]

/-- The reference that a write disables is lost. -/
def dropRef (old v : Word) (k bit : ℕ) (t : State) : State :=
  if fieldOf old bit 1 = 1 ∧ fieldOf v bit 1 = 0 ∧ t.isSet (refPresent k) then loseRef k (t.put (refPresent k) 0) else t

/-- What a write to `REF_CFG` does of `MAN_SEL`: held during a switchover, else taken or refused. -/
def nameRef (r : ℕ) (held : Bool) (t : State) : State :=
  if held || t.selHeld then { t with tb := { t.tb with heldSel := some r } } else selectRef r t

theorem hookRefCfg_eq (old new : Word) (s : State) : hookRefCfg (BitVec.ofNat 32 ((regRow .REF_CFG).rw ||| (regRow .REF_CFG).cnt |||
      (regRow .REF_CFG).wo1)) old new s =
    let u := nameRef (fieldOf new 3 1) s.selHeld (dropRef old (refCfgWord old new) 1 5 (dropRef old (refCfgWord old new) 0 4
      (s.setReg RegId.REF_CFG.at (refCfgWord old new))))
    (u.reg RegId.REF_CFG.at, u) := rfl

theorem selectRef_withTansyQ (q : List LogRec) : selectRef r { s with tansyQ := q } = { selectRef r s with tansyQ := q } := by
  have h1 : ({ s with tansyQ := q } : State).isSet (refQual r) = s.isSet (refQual r) := rfl
  have h2 : ({ s with tansyQ := q } : State).isSet (refEn r) = s.isSet (refEn r) := rfl
  have h3 : (({ s with tansyQ := q } : State).put REF_CFG.MAN_SEL r).get REF_CFG.MODE = (s.put REF_CFG.MAN_SEL r).get REF_CFG.MODE := rfl
  have h4 : (({ s with tansyQ := q } : State).put REF_CFG.MAN_SEL r).activeRef r = (s.put REF_CFG.MAN_SEL r).activeRef r := rfl
  unfold selectRef
  rw [h1, h2]
  split
  · dsimp only
    rw [h3, h4]
    split <;> rfl
  · rfl

theorem nameRef_withTansyQ (q : List LogRec) (held : Bool) : nameRef r held { s with tansyQ := q } = { nameRef r held s with tansyQ := q } := by
  have h : ({ s with tansyQ := q } : State).selHeld = s.selHeld := rfl
  unfold nameRef
  rw [h, selectRef_withTansyQ]
  split <;> rfl

/-- A write to `REF_CFG` that disables no reference. -/
theorem refCfgWrite_of_no_drop {o : Origin} {v : Word} (h : s.writes o .REF_CFG 0 0 v = true)
    (h4 : ¬ (fieldOf (s.reg RegId.REF_CFG.at) 4 1 = 1 ∧ fieldOf v 4 1 = 0))
    (h5 : ¬ (fieldOf (s.reg RegId.REF_CFG.at) 5 1 = 1 ∧ fieldOf v 5 1 = 0)) :
    ∃ t, busWrite o RegId.REF_CFG.at v s = .next t ∧
      (∀ a, t.reg a = (nameRef (fieldOf v 3 1) s.selHeld
        (s.setReg RegId.REF_CFG.at (refCfgWord (s.reg RegId.REF_CFG.at) v))).reg a) ∧
      Kept [.regs, .tansyQ] (nameRef (fieldOf v 3 1) s.selHeld
        (s.setReg RegId.REF_CFG.at (refCfgWord (s.reg RegId.REF_CFG.at) v))) t := by
  obtain ⟨q, hq⟩ := busWrite_hook h plain_refCfg
  have hdrop (k bit : ℕ) (hb : bit = 4 ∨ bit = 5) (t : State) : dropRef (s.reg RegId.REF_CFG.at)
      (refCfgWord (s.reg RegId.REF_CFG.at) v) k bit t = t := by
    refine if_neg fun ⟨h1, h2, _⟩ => ?_
    rw [fieldOf_refCfgWord_mid _ _ (by omega) (by omega)] at h2
    rcases hb with rfl | rfl
    · exact h4 ⟨h1, h2⟩
    · exact h5 ⟨h1, h2⟩
  have hhook (u : State) := hookRefCfg_eq (s.reg RegId.REF_CFG.at) v u
  have hw (m : Word) : writeHook o.toNat ⟨.REF_CFG, 0, 0⟩ m (s.reg RegId.REF_CFG.at) v = hookRefCfg m (s.reg RegId.REF_CFG.at) v := rfl
  rw [hw, hhook, hhook] at hq
  simp only [hdrop _ 4 (.inl rfl), hdrop _ 5 (.inr rfl)] at hq
  have hset : ({ s with tansyQ := q } : State).setReg RegId.REF_CFG.at (refCfgWord (s.reg RegId.REF_CFG.at) v) =
      { s.setReg RegId.REF_CFG.at (refCfgWord (s.reg RegId.REF_CFG.at) v) with tansyQ := q } := rfl
  have hheld : ({ s with tansyQ := q } : State).selHeld = s.selHeld := rfl
  rw [hset, hheld, nameRef_withTansyQ] at hq
  generalize nameRef _ _ _ = u at *
  refine ⟨_, hq, fun a => ?_, ?_⟩
  · exact reg_setReg_self { u with tansyQ := q } _ a
  · exact (Kept.refl.withTansyQ (t := u) (x := q)).setReg

/-! ### The clauses of the writes -/

theorem freq_complete {o : Origin} {r : RefIx} {v : Word} (h : s.writes o (freqReg r) 0 0 v = true) (hstate : s.get REF_STAT.STATE ≠ r.val)
    (hlo : 10000000 ≤ v.toNat) (hhi : v.toNat ≤ 3200000000) (hratio : v.toNat / Nat.gcd 3200000000 v.toNat ≤ 1024) :
    ∃ t, exec (.refFreqWrite o r v) s = .next t ∧ t.reg ((freqReg r).at) = v ∧ (t.refIn r).freqOk = true ∧
      RegsKept [(freqReg r).at] s t ∧ Kept [.regs, .tb, .tansyQ] s t := by
  have hrow : Plain (freqReg r) ∧ 0 < (regRow (freqReg r)).n1 ∧ 0 < (regRow (freqReg r)).n2 ∧
      (RegAt.mk (freqReg r) 0 0).entry0 = false := by
    match r with
    | 0 | 1 => exact ⟨⟨by decide, by decide, by decide, by decide⟩, by decide, by decide, rfl⟩
  have hcomp : ∀ w, s.computed ⟨freqReg r, 0, 0⟩ w = w := by
    match r with
    | 0 | 1 => exact fun _ => rfl
  have hhook (u : State) (hu : u.get REF_STAT.STATE = s.get REF_STAT.STATE) (old : Word) :
      hookRefFreq r.val old v u = (v, u.setRefIn r { u.refIn r with freqOk := true }) := by
    simp [hookRefFreq, State.activeRef, hu, hstate, freqAccepted, hlo, hhi, hratio]
  obtain ⟨q, hq⟩ := busWrite_hook h hrow.1 hrow.2.1 hrow.2.2.1 hrow.2.2.2 hcomp
  rw [writeHook_freqReg, writeHook_freqReg, hhook s rfl, hhook { s with tansyQ := q } rfl, afterWrite_freqReg] at hq
  have hat : (if r.val = 0 then RegId.REFA_FREQ.at else RegId.REFB_FREQ.at) = (freqReg r).at := by
    unfold Claims.freqReg
    split <;> rfl
  refine ⟨_, (congrArg (busWrite o · v s) hat).trans hq, ?_, ?_, fun a ha => ?_, ?_⟩
  · rw [State.reg_setReg, if_pos rfl]
  · exact congrArg RefIn.freqOk (refIn_setRefIn (s := { s with tansyQ := q }) _)
  · rw [State.reg_setReg, if_neg (by simpa using ha)]
    rfl
  · exact (Kept.refl.withTansyQ.withTb).setReg

/-- The two enables of a word. -/
theorem enables_eq (v : Word) : fieldOf v 4 1 = fieldOf v 4 2 % 2 ∧ fieldOf v 5 1 = fieldOf v 4 2 / 2 := by
  unfold fieldOf
  constructor <;> omega

/-- The state once the word of `REF_CFG` is stored but for `MAN_SEL`. -/
def cfgStored (v : Word) (s : State) : State := s.setReg RegId.REF_CFG.at (refCfgWord (s.reg RegId.REF_CFG.at) v)

theorem frame_cfgStored (v : Word) : Frame (.ofRegs [.REF_CFG]) s (cfgStored v s) := Frame.setReg .refl

theorem get_cfgStored {f : Fld} (v : Word) (hf : f.reg = .REF_CFG) :
    (cfgStored v s).get f = fieldOf (refCfgWord (s.reg RegId.REF_CFG.at) v) f.lo f.w := by
  rw [State.get, hf, cfgStored, State.reg_setReg, if_pos rfl]

theorem manSel_cfgStored (v : Word) : (cfgStored v s).get REF_CFG.MAN_SEL = s.get REF_CFG.MAN_SEL :=
  (get_cfgStored v rfl).trans (fieldOf_refCfgWord_sel _ _)

theorem selHeld_cfgStored (v : Word) : (cfgStored v s).selHeld = s.selHeld := by
  rw [State.selHeld, State.selHeld, (frame_cfgStored v).tb, (frame_cfgStored v).get]

/-- A write that leaves the enables leaves them set or clear. -/
theorem refEn_cfgStored {v : Word} (hen : fieldOf v 4 2 = fieldOf (s.reg RegId.REF_CFG.at) 4 2) :
    (cfgStored v s).isSet (refEn r) = s.isSet (refEn r) := by
  have hbit {f : Fld} (hf : f.reg = .REF_CFG) (hlo : 4 ≤ f.lo) (hhi : f.lo + f.w ≤ 8)
      (hsame : fieldOf v f.lo f.w = fieldOf (s.reg RegId.REF_CFG.at) f.lo f.w) : (cfgStored v s).isSet f = s.isSet f := by
    rw [State.isSet, get_cfgStored v hf, fieldOf_refCfgWord_mid _ _ hlo hhi, hsame, State.isSet, State.get, hf]
  obtain ⟨h4, h5⟩ := enables_eq v
  obtain ⟨h4', h5'⟩ := enables_eq (s.reg RegId.REF_CFG.at)
  unfold refEn
  split
  · exact hbit rfl (by decide) (by decide) (by rw [show REF_CFG.A_EN.lo = 4 from rfl, show REF_CFG.A_EN.w = 1 from rfl, h4, h4', hen])
  · exact hbit rfl (by decide) (by decide) (by rw [show REF_CFG.B_EN.lo = 5 from rfl, show REF_CFG.B_EN.w = 1 from rfl, h5, h5', hen])

theorem refQual_cfgStored (v : Word) : (cfgStored v s).isSet (refQual r) = s.isSet (refQual r) := by
  unfold refQual
  split <;> exact (frame_cfgStored v).isSet

/-- A write to `REF_CFG` that leaves the enables. -/
theorem manSelWrite {o : Origin} {v : Word} (h : s.writes o .REF_CFG 0 0 v = true)
    (hen : fieldOf v 4 2 = fieldOf (s.reg RegId.REF_CFG.at) 4 2) : ∃ t, busWrite o RegId.REF_CFG.at v s = .next t ∧
      (∀ a, t.reg a = (nameRef (fieldOf v 3 1) s.selHeld (cfgStored v s)).reg a) ∧
      Kept [.regs, .tansyQ] (nameRef (fieldOf v 3 1) s.selHeld (cfgStored v s)) t := by
  obtain ⟨h4, h5⟩ := enables_eq v
  obtain ⟨h4', h5'⟩ := enables_eq (s.reg RegId.REF_CFG.at)
  exact refCfgWrite_of_no_drop h (by rw [h4, h4', hen]; omega) (by rw [h5, h5', hen]; omega)

theorem nameRef_held {held : Bool} (h : (held || s.selHeld) = true) :
    nameRef r held s = { s with tb := { s.tb with heldSel := some r } } := if_pos h

theorem nameRef_free (h : s.selHeld = false) : nameRef r false s = selectRef r s := by
  rw [nameRef, h]
  rfl

theorem manSel_complete {o : Origin} {v : Word} (h : s.writes o .REF_CFG 0 0 v = true) (hr : r = fieldOf v 3 1) (hmode : fieldOf v 0 2 = 0)
    (hen : fieldOf v 4 2 = fieldOf (s.reg RegId.REF_CFG.at) 4 2) (hon : s.isSet (refEn r) = true) (hqual : s.isSet (refQual r) = true)
    (hlock : s.get REF_STAT.STATE < 2) (hother : s.get REF_STAT.STATE ≠ r) (hsw : s.tb.sw = none) :
    ∃ t, exec (.manSelWrite o v) s = .next t ∧ t.get REF_CFG.MAN_SEL = r ∧ t.get REF_CFG.MODE = 0 ∧
      t.tb.sw = some ⟨r, .decided, s.clock⟩ ∧ t.isSet REF_STAT.SWITCHING = true ∧
      RegsKept [RegId.REF_CFG.at, RegId.REF_STAT.at] s t ∧ Kept [.regs, .tb, .tansyQ] s t := by
  obtain ⟨t, hexec, hregs, hkept⟩ := manSelWrite h hen
  have hfree : s.selHeld = false := by simp [State.selHeld, hsw, show s.get REF_STAT.STATE ≠ 3 by omega]
  have hlt : r < 2 := by
    rw [hr, fieldOf]
    exact Nat.mod_lt _ (by decide)
  have hmode' : (cfgStored v s).get REF_CFG.MODE = 0 := by
    rw [get_cfgStored v rfl]
    exact (fieldOf_refCfgWord_mode _ _ (by rw [hmode]; decide)).trans hmode
  have hstate' : (cfgStored v s).get REF_STAT.STATE = s.get REF_STAT.STATE := (frame_cfgStored v).get
  have hframe := frame_cfgStored (s := s) v
  have hqual' := refQual_cfgStored (s := s) (r := r) v
  have hon' := refEn_cfgStored (r := r) hen
  rw [← hr, hfree, nameRef_free ((selHeld_cfgStored v).trans hfree)] at hregs hkept
  generalize cfgStored v s = u at *
  have hsel : selectRef r u = startSwitchover r (u.put REF_CFG.MAN_SEL r) := by
    have hm : (u.put REF_CFG.MAN_SEL r).get REF_CFG.MODE = 0 := by rw [get_put_of_apart (by decide), hmode']
    have hs : (u.put REF_CFG.MAN_SEL r).activeRef r = false := by
      rw [State.activeRef, get_put_of_apart (by decide), hstate']
      exact beq_eq_false_iff_ne.mpr hother
    rw [selectRef, if_pos (by simp [hqual', hon', hqual, hon])]
    dsimp only
    rw [hm, hs]
    rfl
  rw [hsel] at hregs hkept
  have hput : Frame (.ofRegs [.REF_CFG]) s (u.put REF_CFG.MAN_SEL r) := .put hframe
  have hnamed : (u.put REF_CFG.MAN_SEL r).get REF_CFG.MAN_SEL = r := get_put_lt 0 0 (by decide) (by simpa using hlt)
  have hmoded : (u.put REF_CFG.MAN_SEL r).get REF_CFG.MODE = 0 := by rw [get_put_of_apart (by decide), hmode']
  generalize u.put REF_CFG.MAN_SEL r = w at *
  obtain ⟨hto, hstat, -, hrk, hk⟩ := startSwitchover_spec r w
  have hget {f : Fld} (i : ℕ) : t.get f i = (startSwitchover r w).get f i := by rw [State.get, hregs, State.get]
  have hbeside {f : Fld} (hf : f.reg ≠ .REF_STAT) : (startSwitchover r w).get f = w.get f :=
    hrk.get (by simpa using RegId.at_ne _ _ _ _ _ _ hf)
  refine ⟨t, hexec, ?_, ?_, ?_, ?_, fun a ha => ?_, ?_⟩
  · rw [hget, hbeside (by decide), hnamed]
  · rw [hget, hbeside (by decide), hmoded]
  · rw [show t.tb = (startSwitchover r w).tb from hkept .tb (by decide), hto, hput.clock]
  · rw [State.isSet, hget]
    exact hstat
  · rw [hregs, hrk a (by simp_all), (hput.regsKept [.REF_CFG]) a (by simp_all)]
  · exact ((hput.kept.trans (hk.mono (by decide))).trans (hkept.mono (by decide)))

theorem manSel_refused {o : Origin} {v : Word} (h : s.writes o .REF_CFG 0 0 v = true) (hr : r = fieldOf v 3 1)
    (hen : fieldOf v 4 2 = fieldOf (s.reg RegId.REF_CFG.at) 4 2) (hbad : s.isSet (refQual r) = false ∨ s.isSet (refEn r) = false)
    (hsw : s.tb.sw = none) (hacq : s.tb.acquiring = none) :
    ∃ t, exec (.manSelWrite o v) s = .next t ∧ t.get REF_CFG.MAN_SEL = s.get REF_CFG.MAN_SEL ∧
      t.isSet REF_STAT.SEL_REFUSED = true ∧ t.tb = s.tb := by
  obtain ⟨t, hexec, hregs, hkept⟩ := manSelWrite h hen
  have hfree : s.selHeld = false := by simp [State.selHeld, hsw, hacq]
  have hbad' : (cfgStored v s).isSet (refQual r) = false ∨ (cfgStored v s).isSet (refEn r) = false := by
    rwa [refQual_cfgStored, refEn_cfgStored hen]
  have hsel : selectRef r (cfgStored v s) = (cfgStored v s).put REF_STAT.SEL_REFUSED 1 := by
    rw [selectRef, if_neg (by rcases hbad' with h | h <;> simp [h])]
  rw [← hr, hfree, nameRef_free ((selHeld_cfgStored v).trans hfree), hsel] at hregs hkept
  have hget {f : Fld} : t.get f = ((cfgStored v s).put REF_STAT.SEL_REFUSED 1).get f := by rw [State.get, hregs, State.get]
  refine ⟨t, hexec, ?_, ?_, ?_⟩
  · rw [hget, get_put_of_apart (by decide), manSel_cfgStored]
  · rw [State.isSet, hget]
    exact isSet_put_one 0 0 (by decide)
  · exact (hkept .tb (by decide)).trans (frame_cfgStored v).tb

theorem manSel_held {o : Origin} {v : Word} (h : s.writes o .REF_CFG 0 0 v = true) (hr : r = fieldOf v 3 1)
    (hen : fieldOf v 4 2 = fieldOf (s.reg RegId.REF_CFG.at) 4 2) (hsw : s.tb.sw.isSome = true) :
    ∃ t, exec (.manSelWrite o v) s = .next t ∧ t.get REF_CFG.MAN_SEL = s.get REF_CFG.MAN_SEL ∧ t.tb.heldSel = some r ∧
      t.tb.sw = s.tb.sw ∧ RegsKept [RegId.REF_CFG.at] s t := by
  obtain ⟨t, hexec, hregs, hkept⟩ := manSelWrite h hen
  have hheld : s.selHeld = true := by simp [State.selHeld, hsw]
  rw [← hr, nameRef_held (by rw [hheld, Bool.true_or])] at hregs hkept
  have htb : t.tb = { (cfgStored v s).tb with heldSel := some r } := hkept .tb (by decide)
  rw [(frame_cfgStored v).tb] at htb
  refine ⟨t, hexec, ?_, ?_, ?_, fun a ha => ?_⟩
  · rw [State.get, hregs]
    exact manSel_cfgStored v
  · rw [htb]
  · rw [htb]
  · rw [hregs]
    exact ((frame_cfgStored v).regsKept [.REF_CFG]) a ha

/-! ### A write that disables a reference -/

theorem get_dropRef {old v : Word} {k bit : ℕ} (h : Beside f) (hq : Apart (refQual k) f) (hl : Apart (refLost k) f)
    (hp : Apart (refPresent k) f) (i j : ℕ) : (dropRef old v k bit s).get f i j = s.get f i j := by
  unfold dropRef
  split
  · rw [get_loseRef h hq hl, get_put_of_apart hp]
  · rfl

theorem get_selectRef (hm : Apart REF_CFG.MAN_SEL f) (hs : Apart REF_STAT.SWITCHING f) (hr : Apart REF_STAT.SEL_REFUSED f) (i j : ℕ) :
    (selectRef r s).get f i j = s.get f i j := by
  unfold selectRef
  split
  · dsimp only
    split
    · rw [startSwitchover, get_withTb, get_put_of_apart hs, get_put_of_apart hm]
    · exact get_put_of_apart hm ..
  · exact get_put_of_apart hr ..

theorem get_nameRef {held : Bool} (hm : Apart REF_CFG.MAN_SEL f) (hs : Apart REF_STAT.SWITCHING f) (hr : Apart REF_STAT.SEL_REFUSED f)
    (i j : ℕ) : (nameRef r held s).get f i j = s.get f i j := by
  unfold nameRef
  split
  · rfl
  · exact get_selectRef hm hs hr ..

/-- What a write that disables reference A leaves of its marks. -/
structure DroppedA (t : State) : Prop where
  en : t.get REF_CFG.A_EN = 0
  present : t.isSet REF_STAT.A_PRESENT = false
  qual : t.isSet REF_STAT.A_QUAL = false
  lost : t.isSet REF_STAT.A_LOST = true

theorem droppedA (u : State) {held : Bool} {v : Word} 
    (hstat : u.reg RegId.REF_STAT.at = s.reg RegId.REF_STAT.at) (hen : s.isSet REF_CFG.A_EN = true) (hoff : fieldOf v 4 1 = 0)
    (hpresent : s.isSet REF_STAT.A_PRESENT = true) :
    DroppedA (nameRef r held (dropRef (s.reg RegId.REF_CFG.at) (refCfgWord (s.reg RegId.REF_CFG.at) v) 1 5
      (dropRef (s.reg RegId.REF_CFG.at) (refCfgWord (s.reg RegId.REF_CFG.at) v) 0 4
        (u.setReg RegId.REF_CFG.at (refCfgWord (s.reg RegId.REF_CFG.at) v))))) := by
  have hword : (u.setReg RegId.REF_CFG.at (refCfgWord (s.reg RegId.REF_CFG.at) v)).get REF_CFG.A_EN = 0 := by
    rw [State.get, State.reg_setReg, if_pos rfl]
    exact (fieldOf_refCfgWord_mid _ _ (by decide) (by decide)).trans hoff
  have hp : (u.setReg RegId.REF_CFG.at (refCfgWord (s.reg RegId.REF_CFG.at) v)).isSet (refPresent 0) = true := by
    rw [← hpresent]
    refine congrArg (· == 1) (congrArg (fieldOf · _ _) ?_)
    rw [State.reg_setReg, if_neg (RegId.at_ne _ _ _ _ _ _ (by decide))]
    exact hstat
  generalize u.setReg RegId.REF_CFG.at (refCfgWord (s.reg RegId.REF_CFG.at) v) = w at *
  have hdrop : dropRef (s.reg RegId.REF_CFG.at) (refCfgWord (s.reg RegId.REF_CFG.at) v) 0 4 w = loseRef 0 (w.put (refPresent 0) 0) := by
    refine if_pos ⟨by simpa [State.isSet, State.get] using hen, ?_, hp⟩
    exact (fieldOf_refCfgWord_mid _ _ (by decide) (by decide)).trans hoff
  obtain ⟨hqual, hlost⟩ := loseRef_marks (s := w.put (refPresent 0) 0) (marks (show 0 < 2 by decide))
  have hpres : (loseRef 0 (w.put (refPresent 0) 0)).get REF_STAT.A_PRESENT = 0 := by
    rw [get_loseRef ⟨by decide, by decide, by decide⟩ (by decide) (by decide)]
    exact State.get_put _ _ _ _ _ (by decide)
  have hen' : (loseRef 0 (w.put (refPresent 0) 0)).get REF_CFG.A_EN = 0 := by
    rw [get_loseRef ⟨by decide, by decide, by decide⟩ (by decide) (by decide), get_put_of_apart (by decide), hword]
  rw [hdrop]
  generalize loseRef 0 (w.put (refPresent 0) 0) = z at *
  have hthru {f : Fld} (h : Beside f) (hq : Apart (refQual 1) f) (hl : Apart (refLost 1) f) (hp : Apart (refPresent 1) f)
      (hm : Apart REF_CFG.MAN_SEL f) (hs : Apart REF_STAT.SWITCHING f) (hr : Apart REF_STAT.SEL_REFUSED f) :
      (nameRef r held (dropRef (s.reg RegId.REF_CFG.at) (refCfgWord (s.reg RegId.REF_CFG.at) v) 1 5 z)).get f = z.get f :=
    (get_nameRef hm hs hr 0 0).trans (get_dropRef h hq hl hp 0 0)
  refine ⟨?_, ?_, ?_, ?_⟩
  · rw [hthru ⟨by decide, by decide, by decide⟩ (by decide) (by decide) (by decide) (by decide) (by decide) (by decide), hen']
  · rw [State.isSet, hthru ⟨by decide, by decide, by decide⟩ (by decide) (by decide) (by decide) (by decide) (by decide) (by decide), hpres]
    rfl
  · rw [State.isSet, hthru ⟨by decide, by decide, by decide⟩ (by decide) (by decide) (by decide) (by decide) (by decide) (by decide)]
    exact hqual
  · rw [State.isSet, hthru ⟨by decide, by decide, by decide⟩ (by decide) (by decide) (by decide) (by decide) (by decide) (by decide)]
    exact hlost

theorem refDisable_complete {o : Origin} {v : Word} (h : s.writes o .REF_CFG 0 0 v = true) (hen : s.isSet REF_CFG.A_EN = true)
    (hoff : fieldOf v 4 1 = 0) (hpresent : s.isSet REF_STAT.A_PRESENT = true) :
    ∃ t, exec (.refEnableWrite o v) s = .next t ∧ t.isSet REF_CFG.A_EN = false ∧ t.isSet REF_STAT.A_PRESENT = false ∧
      t.isSet REF_STAT.A_QUAL = false ∧ t.isSet REF_STAT.A_LOST = true := by
  obtain ⟨q, hq⟩ := busWrite_hook h plain_refCfg
  have hhook (u : State) := hookRefCfg_eq (s.reg RegId.REF_CFG.at) v u
  have hw (m : Word) : writeHook o.toNat ⟨.REF_CFG, 0, 0⟩ m (s.reg RegId.REF_CFG.at) v = hookRefCfg m (s.reg RegId.REF_CFG.at) v := rfl
  rw [hw, hhook, hhook] at hq
  obtain ⟨hfirst, -, -, -⟩ := droppedA (s := s) (r := fieldOf v 3 1) (held := s.selHeld) s rfl hen hoff hpresent
  obtain ⟨-, hpres, hqual, hlost⟩ :=
    droppedA (s := s) (r := fieldOf v 3 1) (held := ({ s with tansyQ := q } : State).selHeld) { s with tansyQ := q } rfl hen hoff hpresent
  have hstat {x : State} {y : Word} {f : Fld} (hf : f.reg = .REF_STAT) : (x.setReg RegId.REF_CFG.at y).isSet f = x.isSet f := by
    rw [State.isSet, State.isSet, State.get, State.get, State.reg_setReg, if_neg (by rw [hf]; exact RegId.at_ne _ _ _ _ _ _ (by decide))]
  refine ⟨_, hq, ?_, (hstat rfl).trans hpres, (hstat rfl).trans hqual, (hstat rfl).trans hlost⟩
  refine (congrArg (fun x => fieldOf x REF_CFG.A_EN.lo REF_CFG.A_EN.w == 1)
    ((State.reg_setReg _ _ _ _).trans (if_pos rfl))).trans ?_
  exact (congrArg (· == 1) hfirst).trans rfl

/-! ### A write that enables both references -/

/-- What a write in another mode than manual leaves of `REF_STAT`: its `MAN_SEL` is held, taken or refused. -/
theorem nameRef_cases {held : Bool} (hmode : s.get REF_CFG.MODE ≠ 0) : (∃ x, nameRef r held s = { s with tb := x }) ∨
    nameRef r held s = s.put REF_CFG.MAN_SEL r ∨ nameRef r held s = s.put REF_STAT.SEL_REFUSED 1 := by
  unfold nameRef
  split
  · exact .inl ⟨_, rfl⟩
  · unfold selectRef
    split
    · refine .inr (.inl ?_)
      dsimp only
      rw [get_put_of_apart (by decide), if_neg (by simp [hmode])]
    · exact .inr (.inr rfl)

theorem refEnable_complete {o : Origin} {v : Word} (h : s.writes o .REF_CFG 0 0 v = true) (hmode : fieldOf v 0 2 = 1)
    (hboth : fieldOf v 4 2 = 3) :
    ∃ t, exec (.refEnableWrite o v) s = .next t ∧ t.isSet REF_CFG.A_EN = true ∧ t.isSet REF_CFG.B_EN = true ∧
      (∀ b, b ≠ REF_STAT.SEL_REFUSED.lo → (t.reg RegId.REF_STAT.at).getLsbD b = (s.reg RegId.REF_STAT.at).getLsbD b) ∧
      RegsKept [RegId.REF_CFG.at, RegId.REF_STAT.at] s t ∧ Kept [.regs, .tb, .tansyQ] s t := by
  obtain ⟨h4, h5⟩ := enables_eq v
  obtain ⟨t, hexec, hregs, hkept⟩ := refCfgWrite_of_no_drop h (by rw [h4, hboth]; omega) (by rw [h5, hboth]; omega)
  have hmode' : (cfgStored v s).get REF_CFG.MODE ≠ 0 := by
    have hm : (cfgStored v s).get REF_CFG.MODE = fieldOf v 0 2 :=
      (get_cfgStored v rfl).trans (fieldOf_refCfgWord_mode _ _ (by rw [hmode]; decide))
    rw [hm, hmode]
    decide
  have hen4 : (cfgStored v s).get REF_CFG.A_EN = 1 :=
    (get_cfgStored v rfl).trans ((fieldOf_refCfgWord_mid _ _ (by decide) (by decide)).trans (by rw [h4, hboth]))
  have hen5 : (cfgStored v s).get REF_CFG.B_EN = 1 :=
    (get_cfgStored v rfl).trans ((fieldOf_refCfgWord_mid _ _ (by decide) (by decide)).trans (by rw [h5, hboth]))
  have hframe := frame_cfgStored (s := s) v
  have hcases := nameRef_cases (r := fieldOf v 3 1) (held := s.selHeld) hmode'
  change ∀ a, t.reg a = (nameRef (fieldOf v 3 1) s.selHeld (cfgStored v s)).reg a at hregs
  change Kept [.regs, .tansyQ] (nameRef (fieldOf v 3 1) s.selHeld (cfgStored v s)) t at hkept
  have hstat := hframe.reg .REF_STAT (by decide) 0 0
  generalize cfgStored v s = u at *
  have hnamed : Frame (.join [.ofParts [.tb], .ofRegs [.REF_CFG, .REF_STAT]]) u (nameRef (fieldOf v 3 1) s.selHeld u) ∧
      (nameRef (fieldOf v 3 1) s.selHeld u).get REF_CFG.A_EN = 1 ∧ (nameRef (fieldOf v 3 1) s.selHeld u).get REF_CFG.B_EN = 1 ∧
      ∀ b, b ≠ REF_STAT.SEL_REFUSED.lo →
        ((nameRef (fieldOf v 3 1) s.selHeld u).reg RegId.REF_STAT.at).getLsbD b = (u.reg RegId.REF_STAT.at).getLsbD b := by
    rcases hcases with ⟨x, heq⟩ | heq | heq
    · rw [heq]
      exact ⟨.withTb .refl, hen4, hen5, fun _ _ => rfl⟩
    · rw [heq]
      refine ⟨.put .refl, ?_, ?_, fun b _ => ?_⟩
      · rw [get_put_of_apart (by decide), hen4]
      · rw [get_put_of_apart (by decide), hen5]
      · rw [State.reg_put _ _ _ _ _ _ (RegId.at_ne _ _ _ _ _ _ (by decide))]
    · rw [heq]
      refine ⟨.put .refl, ?_, ?_, fun b hb => ?_⟩
      · rw [get_put_of_apart (by decide), hen4]
      · rw [get_put_of_apart (by decide), hen5]
      · rw [State.put, State.reg_setReg, if_pos rfl]
        refine getLsbD_withField_ne _ _ _ _ _ (by decide) ?_
        have hw : REF_STAT.SEL_REFUSED.w = 1 := rfl
        omega
  obtain ⟨hnf, hnA, hnB, hnbits⟩ := hnamed
  have hall : Frame (.join [.ofParts [.tb], .ofRegs [.REF_CFG, .REF_STAT]]) s (nameRef (fieldOf v 3 1) s.selHeld u) :=
    (hframe.mono (by decide)).trans hnf
  generalize nameRef (fieldOf v 3 1) s.selHeld u = w at *
  refine ⟨t, hexec, ?_, ?_, fun b hb => ?_, fun a ha => ?_, ?_⟩
  · rw [State.isSet, State.get, hregs, ← State.get, hnA]
    rfl
  · rw [State.isSet, State.get, hregs, ← State.get, hnB]
    rfl
  · rw [hregs, hnbits b hb, hstat]
  · rw [hregs]
    exact (hall.regsKept [.REF_CFG, .REF_STAT]) a ha
  · exact hall.kept.trans (hkept.mono (by decide))

/-- Settles O24: each monitor judges its own reference's marks, and a write to `REF_CFG` stores its word, then judges its `MAN_SEL`. -/
theorem referencesComplete : Obligations.ReferencesComplete := by
  unfold Obligations.ReferencesComplete
  refine ⟨referenceMonitors, ?_⟩
  unfold Claims.ReferenceWritesComplete
  exact ⟨fun _ _ _ _ => freq_complete, fun _ _ _ _ => manSel_complete, fun _ _ _ _ => manSel_refused, fun _ _ _ _ => manSel_held,
    fun _ _ _ h _ => refDisable_complete h,
    fun _ _ _ h hmode _ _ => refEnable_complete h hmode⟩

end

end Sys2Proof.Proofs

/-! ## The epoch and slews of the time base (R59 to R67) -/

namespace Sys2Proof.Proofs

set_option Elab.async false

open Sys2Proof Sys2Proof.Machine Sys2Proof.Claims

section

variable {s t : State} {v w : Word} {n k : ℕ}

theorem Frame.relockOrFailover {w : Scope} (h : Frame w s t) (hr : w.hasReg .HOP_STAT = false := by decide)
    (hc : w.hasPart .cores = false := by decide) : t.relockOrFailover = s.relockOrFailover := by
  simp only [State.relockOrFailover, h.isSet (f := HOP_STAT.RELOCKING) hr, h.core _ hc]

/-! ### The writes of `EPOCH_CTRL_A` (R59) -/

theorem pairedRow_epochCtrl : PairedRow .EPOCH_CTRL_A .EPOCH_CTRL_B :=
  ⟨by decide, by decide, by decide, by decide, by decide, by decide, by decide⟩

theorem toNat_withField_low (v : Word) (lo w x : ℕ) (h : lo + w ≤ 32) : (withField v lo w x).toNat % 2 ^ lo = v.toNat % 2 ^ lo := by
  have hf := fieldOf_withField_ne v lo w x 0 lo h (.inl (by omega))
  simpa [fieldOf] using hf

/-- Bit 2 of a word whose bit 2 has been written. -/
theorem bit_withField (v : Word) (lo x : ℕ) (h : lo + 1 ≤ 32) : (withField v lo 1 x).toNat / 2 ^ lo % 2 = x % 2 := by
  have hf := fieldOf_withField v lo 1 x h
  simpa [fieldOf] using hf

/-- The low bits of a word put back under the high ones of a write that keeps them. -/
theorem withField_back (old v : Word) (k : ℕ) (hk : k ≤ 32) (h : (v ^^^ old) &&& ~~~(BitVec.ofNat 32 (2 ^ k - 1)) = 0) :
    withField v 0 k (fieldOf old 0 k) = old := by
  have hhigh : v >>> k = old >>> k := by
    ext b hb
    rw [← BitVec.getLsbD_eq_getElem, ← BitVec.getLsbD_eq_getElem, BitVec.getLsbD_ushiftRight, BitVec.getLsbD_ushiftRight]
    by_cases hlt : k + b < 32
    · have hbit := congrArg (BitVec.getLsbD · (k + b)) h
      have hm : (BitVec.ofNat 32 (2 ^ k - 1)).getLsbD (k + b) = false := by
        rw [BitVec.getLsbD_ofNat, Nat.testBit_two_pow_sub_one]
        simp
      simp only [BitVec.getLsbD_and, BitVec.getLsbD_xor, BitVec.getLsbD_not, hlt, hm, decide_true, Bool.not_false, Bool.and_true] at hbit
      simpa using hbit
    · rw [BitVec.getLsbD_of_ge _ _ (by omega), BitVec.getLsbD_of_ge _ _ (by omega)]
  have hdiv := congrArg BitVec.toNat hhigh
  simp only [BitVec.toNat_ushiftRight, Nat.shiftRight_eq_div_pow] at hdiv
  apply BitVec.eq_of_toNat_eq
  rw [(toNat_withField v 0 k _ (by omega)).1, fieldOf, Nat.zero_add, hdiv]
  simp only [Nat.pow_zero, Nat.div_one, Nat.mod_mod, Nat.mul_one, Nat.mod_one, Nat.add_zero]
  exact Nat.div_add_mod _ _

theorem pairApply_epochCtrl (a : ℕ) : pairApply ⟨.EPOCH_CTRL_A, 0, 0⟩ a w s = epochCtrlWrite w.toNat s := rfl

/-- A write of `EPOCH_CTRL_A` that asks for a load and may. -/
theorem epochCtrlWrite_arm (harm : w.toNat / 4 % 2 = 1) (hlevel : ∀ n < 8, s.get COMMIT_STAT.LEVEL n = 0)
    (hbusy : s.relockOrFailover = false) (hsrc : w.toNat % 4 ≠ 3) : epochCtrlWrite w.toNat s =
      { (s.setReg RegId.EPOCH_CTRL_A.at w).put EPOCH_STAT.ARMED 1 with
        tb := { s.tb with take := if w.toNat % 4 = 2 then some .host else none } } := by
  have hany : ((List.range 8).any fun n => decide (s.get COMMIT_STAT.LEVEL n ≠ 0)) = false := by simpa using hlevel
  unfold epochCtrlWrite
  dsimp only
  rw [if_pos harm, hany, hbusy, beq_false_of_ne hsrc, BitVec.ofNat_toNat, BitVec.setWidth_eq]
  rfl

/-- A write of `EPOCH_CTRL_A` that asks for a load and may not. -/
theorem epochCtrlWrite_refused (harm : w.toNat / 4 % 2 = 1) (hno : (∃ n < 8, s.get COMMIT_STAT.LEVEL n ≠ 0) ∨
    s.relockOrFailover = true ∨ w.toNat % 4 = 3) : epochCtrlWrite w.toNat s =
      (s.setReg RegId.EPOCH_CTRL_A.at (withField w 0 8 (fieldOf (s.reg RegId.EPOCH_CTRL_A.at) 0 8))).put EPOCH_STAT.REFUSED 1 := by
  have hcond : (((List.range 8).any fun n => decide (s.get COMMIT_STAT.LEVEL n ≠ 0)) || s.relockOrFailover || w.toNat % 4 == 3) = true := by
    simpa [or_assoc] using hno
  unfold epochCtrlWrite
  dsimp only
  rw [if_pos harm, if_pos hcond, BitVec.ofNat_toNat, BitVec.setWidth_eq]

/-- A write of `EPOCH_CTRL_A` that asks for no load. -/
theorem epochCtrlWrite_disarm (harm : w.toNat / 4 % 2 = 0) : epochCtrlWrite w.toNat s =
    { (s.setReg RegId.EPOCH_CTRL_A.at w).put EPOCH_STAT.ARMED 0 with tb := { s.tb with take := none } } := by
  unfold epochCtrlWrite
  dsimp only
  rw [if_neg (by omega), BitVec.ofNat_toNat, BitVec.setWidth_eq]
  rfl

theorem epochArm_complete {o : Origin} (h : s.writesPair o .EPOCH_CTRL_A 0 (withField v 2 1 1) = true)
    (hlevel : ∀ n < 8, s.get COMMIT_STAT.LEVEL n = 0) (hbusy : s.relockOrFailover = false) (hsrc : v.toNat % 4 ≠ 3) :
    ∃ t, exec (.epochArm o v) s = .next t ∧ t.isSet EPOCH_STAT.ARMED = true ∧ t.get EPOCH_CTRL_A.SRC = v.toNat % 4 ∧
      t.tb.take = (if v.toNat % 4 = 2 then some .host else none) ∧
      RegsKept [RegId.EPOCH_CTRL_A.at, RegId.EPOCH_STAT.at] s t ∧ Kept [.regs, .tb, .tansyQ, .orgs] s t := by
  obtain ⟨q, og, hq⟩ := busPair_apply h pairedRow_epochCtrl (by decide) rfl rfl
  have hlow : (withField v 2 1 1).toNat % 4 = v.toNat % 4 := toNat_withField_low v 2 1 1 (by decide)
  have hbit : (withField v 2 1 1).toNat / 4 % 2 = 1 := bit_withField v 2 1 (by decide)
  have hexec : exec (.epochArm o v) s = busPair o RegId.EPOCH_CTRL_A.at (withField v 2 1 1) s := rfl
  generalize withField v 2 1 1 = w at *
  have heq := epochCtrlWrite_arm (s := { s with orgs := og, tansyQ := q }) hbit hlevel hbusy (by rwa [hlow])
  refine ⟨_, hexec.trans <| hq.trans (congrArg _ ((pairApply_epochCtrl _).trans heq)), ?_, ?_, ?_, ?_, ?_⟩
  · rw [isSet_withTb, isSet_put_one _ _ (by decide)]
  · rw [get_withTb, get_put_of_apart (by decide), State.get, State.reg_setReg, if_pos rfl, ← hlow]
    simp [fieldOf]
  · rw [hlow]
  · exact RegsKept.withTb (.put (.setReg fun _ _ => rfl))
  · exact .withTb (.put (.setReg fun p hp => by cases p <;> first | rfl | simp at hp))

theorem epochArm_refused {o : Origin} (h : s.writesPair o .EPOCH_CTRL_A 0 (withField v 2 1 1) = true)
    (hno : (∃ n < 8, s.get COMMIT_STAT.LEVEL n ≠ 0) ∨ s.relockOrFailover = true ∨ v.toNat % 4 = 3) :
    ∃ t, exec (.epochArm o v) s = .next t ∧ t.isSet EPOCH_STAT.REFUSED = true ∧ t.tb = s.tb ∧ RegsKept [RegId.EPOCH_STAT.at] s t := by
  obtain ⟨q, og, hq⟩ := busPair_apply h pairedRow_epochCtrl (by decide) rfl rfl
  have hlow : (withField v 2 1 1).toNat % 4 = v.toNat % 4 := toNat_withField_low v 2 1 1 (by decide)
  have hbit : (withField v 2 1 1).toNat / 4 % 2 = 1 := bit_withField v 2 1 (by decide)
  have hkeep := h
  simp only [State.writesPair, Bool.and_eq_true, beq_iff_eq] at hkeep
  have hexec : exec (.epochArm o v) s = busPair o RegId.EPOCH_CTRL_A.at (withField v 2 1 1) s := rfl
  generalize withField v 2 1 1 = w at *
  have heq := epochCtrlWrite_refused (s := { s with orgs := og, tansyQ := q }) hbit (by rwa [hlow])
  have hback : withField w 0 8 (fieldOf (s.reg RegId.EPOCH_CTRL_A.at) 0 8) = s.reg RegId.EPOCH_CTRL_A.at :=
    withField_back _ _ 8 (by decide) hkeep.1.2
  refine ⟨_, hexec.trans <| hq.trans (congrArg _ ((pairApply_epochCtrl _).trans heq)), isSet_put_one _ _ (by decide), rfl, fun a ha => ?_⟩
  rw [State.reg_put _ _ _ _ _ _ (by simpa using ha), State.reg_setReg]
  split
  · next hA => exact hback.trans (congrArg _ hA.symm)
  · rfl

theorem epochDisarm_complete {o : Origin} (h : s.writesPair o .EPOCH_CTRL_A 0 (withField v 2 1 0) = true) :
    ∃ t, exec (.epochDisarm o v) s = .next t ∧ t.isSet EPOCH_STAT.ARMED = false ∧ t.tb.take = none ∧
      RegsKept [RegId.EPOCH_CTRL_A.at, RegId.EPOCH_STAT.at] s t ∧ Kept [.regs, .tb, .tansyQ, .orgs] s t := by
  obtain ⟨q, og, hq⟩ := busPair_apply h pairedRow_epochCtrl (by decide) rfl rfl
  have hbit : (withField v 2 1 0).toNat / 4 % 2 = 0 := bit_withField v 2 0 (by decide)
  have hexec : exec (.epochDisarm o v) s = busPair o RegId.EPOCH_CTRL_A.at (withField v 2 1 0) s := rfl
  generalize withField v 2 1 0 = w at *
  refine ⟨_, hexec.trans <| hq.trans (congrArg _ ((pairApply_epochCtrl _).trans (epochCtrlWrite_disarm hbit))), ?_, rfl, ?_, ?_⟩
  · rw [isSet_withTb, isSet_put_zero _ _ (by decide)]
  · exact RegsKept.withTb (.put (.setReg fun _ _ => rfl))
  · exact .withTb (.put (.setReg fun p hp => by cases p <;> first | rfl | simp at hp))

/-! ### Edges of `EPOCH_IN` (R61, R64) -/

theorem epochInEdge_taken {fall : Bool} {frac : BitVec 16} (hcold : s.coldHeld = false) (hfall : s.isSet EPOCH_CTRL_A.FALL = fall)
    (harmed : s.isSet EPOCH_STAT.ARMED = true) (hsrc : s.get EPOCH_CTRL_A.SRC = 0) (htake : s.tb.take = none)
    (hbusy : s.relockOrFailover = false) (hplaces : s.tb.places = none) :
    ∃ t, exec (.epochInEdge fall frac) s = .next t ∧ t.tb.take = some (.edge s.clock frac.toNat) ∧ Kept [.tb] s t := by
  refine ⟨_, act_next hcold _, ?_⟩
  simp only [epochInEdgeS, laterEdge, hfall, harmed, hsrc, htake, hbusy, hplaces, bne_self_eq_false, Option.isNone_none, beq_self_eq_true,
    Bool.not_false, Bool.and_self, Bool.false_eq_true, if_false, if_true]
  exact ⟨trivial, Kept.refl.withTb⟩

theorem matchEdge_zero {p : EpochPlaces} {tol pos : ℕ} (hper : p.period = 0) :
    matchEdge p tol pos s = { s with tb := { s.tb with edgeSinceMiss := true } } := by
  unfold matchEdge
  exact if_pos hper

theorem epochInEdge_later {fall : Bool} {frac : BitVec 16} {p : EpochPlaces} (hcold : s.coldHeld = false)
    (hfall : s.isSet EPOCH_CTRL_A.FALL = fall) (hplaces : s.tb.places = some p) (hper : p.period = 0) :
    ∃ t, exec (.epochInEdge fall frac) s = .next t ∧ t.wideAt aEPOCH_LAST = s.mcount * 65536 + frac.toNat ∧
      t.get EPOCH_STAT.PPS_CNT = (s.get EPOCH_STAT.PPS_CNT + 1) % 2 ^ EPOCH_STAT.PPS_CNT.w ∧ t.tb.places = some p ∧
      RegsKept [RegId.EPOCH_STAT.at] s t ∧ Kept [.regs, .wide, .tb] s t := by
  have htb : ((s.setWide aEPOCH_LAST (ts80 s.mcount frac.toNat)).bump EPOCH_STAT.PPS_CNT).tb = s.tb := State.bump_tb ..
  have hwide : ((s.setWide aEPOCH_LAST (ts80 s.mcount frac.toNat)).bump EPOCH_STAT.PPS_CNT).wideAt aEPOCH_LAST = s.mcount * 65536 + frac.toNat :=
    (State.wideAt_congr (State.bump_wide ..) _).trans ((State.wideAt_setWide ..).trans (if_pos rfl))
  have hcnt : ((s.setWide aEPOCH_LAST (ts80 s.mcount frac.toNat)).bump EPOCH_STAT.PPS_CNT).get EPOCH_STAT.PPS_CNT =
      (s.get EPOCH_STAT.PPS_CNT + 1) % 2 ^ EPOCH_STAT.PPS_CNT.w := by
    rw [State.bump, State.get_put _ _ _ _ _ (by decide), State.get_setWide_keep]
  have hregs : RegsKept [RegId.EPOCH_STAT.at] s ((s.setWide aEPOCH_LAST (ts80 s.mcount frac.toNat)).bump EPOCH_STAT.PPS_CNT) :=
    RegsKept.refl.setWide.bump
  have hkept : Kept [.regs, .wide, .tb] s ((s.setWide aEPOCH_LAST (ts80 s.mcount frac.toNat)).bump EPOCH_STAT.PPS_CNT) :=
    Kept.refl.setWide.bump
  have hlater : laterEdge frac.toNat s = matchEdge p (s.get EPOCH_TOL.TOL_TK) (ts80 s.mcount frac.toNat)
      ((s.setWide aEPOCH_LAST (ts80 s.mcount frac.toNat)).bump EPOCH_STAT.PPS_CNT) := by rw [laterEdge, hplaces]
  rw [matchEdge_zero hper] at hlater
  generalize (s.setWide aEPOCH_LAST (ts80 s.mcount frac.toNat)).bump EPOCH_STAT.PPS_CNT = u at *
  have hedge : ∃ y : TimeBase, epochInEdgeS fall frac.toNat s = { u with tb := y } ∧ y.places = some p := by
    unfold epochInEdgeS
    simp only [hfall, bne_self_eq_false, Bool.false_eq_true, if_false, hlater]
    split
    · exact ⟨_, rfl, by rw [htb, hplaces]⟩
    · exact ⟨_, rfl, by rw [htb, hplaces]⟩
  obtain ⟨y, hy, hyp⟩ := hedge
  refine ⟨_, (act_next hcold _).trans (congrArg _ hy), ?_, ?_, hyp, hregs.withTb, hkept.withTb⟩
  · rw [wideAt_withTb, hwide]
  · rw [get_withTb, hcnt]

theorem epochMissing_complete {p : EpochPlaces} (hcold : s.coldHeld = false) (hplaces : s.tb.places = some p) (hper : p.period ≠ 0)
    (hpast : (p.base + p.next * p.period + s.get EPOCH_TOL.TOL_TK) * 65536 + p.frac < ts80 s.mcount) :
    ∃ t, exec .epochMissing s = .next t ∧ t.isSet EPOCH_STAT.MISSING = true ∧ RegsKept [RegId.EPOCH_STAT.at] s t ∧
      Kept [.regs, .tb] s t := by
  have heq : ∃ x : TimeBase, epochMissingS s = { s.put EPOCH_STAT.MISSING 1 with tb := x } := by
    simp only [epochMissingS, hplaces, hpast, hper, ne_eq, not_false_eq_true, decide_true, Bool.and_self, if_true]
    exact ⟨_, rfl⟩
  obtain ⟨x, hx⟩ := heq
  refine ⟨_, (act_next hcold _).trans (congrArg _ hx), ?_, RegsKept.refl.put.withTb, Kept.refl.put.withTb⟩
  rw [isSet_withTb, isSet_put_one _ _ (by decide)]

/-! ### The load (R62, R63) -/

/-- One replica's turn in a load of count `c`. -/
def loadReplica (c n : ℕ) (s : State) : State :=
  if s.chipLost n || !(s.chip n).running then s
  else (loadCount n c s).setChip n { (loadCount n c s).chip n with gen := (((loadCount n c s).chip n).gen + 1) % 65536 }

/-- The generation of a replica's time after a load. -/
def nextGen (x : Chip) : ℕ := (x.gen + 1) % 65536

/-- The distance from clock `k` to a count `c` loaded at it. -/
def loadOffset (c k : ℕ) : ℕ := (c + tickMod - k % tickMod) % tickMod

/-- The chiplet that a load of count `c` at clock `k` leaves. -/
def loadedWith (c k : ℕ) (x : Chip) : Chip :=
  { x with tickOff := loadOffset c k, gen := nextGen x }

theorem tickOff_loadedWith (c k : ℕ) (x : Chip) : (loadedWith c k x).tickOff = loadOffset c k := rfl

theorem gen_loadedWith (c k : ℕ) (x : Chip) : (loadedWith c k x).gen = nextGen x := rfl

theorem running_with (x : Chip) (a b : ℕ) : ({ x with tickOff := a, gen := b } : Chip).running = x.running := rfl

theorem running_loadedWith (c k : ℕ) (x : Chip) : (loadedWith c k x).running = x.running := running_with ..

theorem chip_loadReplica (c n m : ℕ) : (loadReplica c n s).chip m =
    if m = n ∧ s.chipLost n = false ∧ (s.chip n).running = true then loadedWith c s.clock (s.chip m) else s.chip m := by
  unfold loadReplica
  cases hl : s.chipLost n with
  | true => simp
  | false =>
    cases hr : (s.chip n).running with
    | false => simp
    | true =>
      rcases eq_or_ne m n with rfl | hne
      · simp [loadCount, loadedWith, nextGen, loadOffset]
      · simp [loadCount, hne]

theorem frame_loadReplica (c n : ℕ) : Frame (.ofParts [.chips]) s (loadReplica c n s) := by
  unfold loadReplica
  split
  · exact .refl
  · exact .setChip (.loadCount .refl)

/-- What the replicas of a part stand at after a load. -/
theorem forBelow_loadReplica (c : ℕ) : Frame (.ofParts [.chips]) s (forBelow 8 (loadReplica c) s) ∧
    ∀ n < 8, s.chipLost n = false → (s.chip n).running = true → (forBelow 8 (loadReplica c) s).chip n = loadedWith c s.clock (s.chip n) := by
  refine (fun h => ⟨h.1, fun n hn => (h.2 n).1 hn⟩) <| forBelow_induct (f := loadReplica c) (s := s)
    (fun k t => Frame (.ofParts [.chips]) s t ∧ ∀ n, (n < k → s.chipLost n = false → (s.chip n).running = true →
      t.chip n = loadedWith c s.clock (s.chip n)) ∧ (k ≤ n → t.chip n = s.chip n)) 8 ⟨.refl, fun n => ⟨by omega, fun _ => rfl⟩⟩ ?_
  rintro k hk t ⟨hf, hchip⟩
  refine ⟨hf.trans (frame_loadReplica c k), fun n => ⟨fun hn hl hr => ?_, fun hn => ?_⟩⟩
  · rw [chip_loadReplica, hf.chipLost k, hf.clock]
    rcases Nat.lt_or_ge n k with hlt | hge
    · rw [if_neg (by omega)]
      exact (hchip n).1 hlt hl hr
    · have hnk : n = k := by omega
      subst hnk
      rw [(hchip n).2 hge, if_pos ⟨rfl, hl, hr⟩]
  · rw [chip_loadReplica, if_neg (by omega)]
    exact (hchip n).2 (by omega)

/-- The marks of a load in the registers, with its event. -/
def epochMarks (s : State) : State :=
  (((((((s.put EPOCH_STAT.ARMED 0).put EPOCH_CTRL_A.ARM 0).put EPOCH_STAT.LOADED 1).put TB_STAT.EPOCH_SET 1).put
    EPOCH_STAT.PPS_CNT 0).bump PM_GEN.GEN).put TB_STAT.SLEWING 0).raise 260

theorem epochMarks_spec : (epochMarks s).isSet EPOCH_STAT.ARMED = false ∧ (epochMarks s).isSet EPOCH_STAT.LOADED = true ∧
    (epochMarks s).isSet TB_STAT.EPOCH_SET = true ∧ 260 ∈ (epochMarks s).raising ∧
    Frame (.join [.ofParts [.raising], .ofRegs [.EPOCH_STAT, .EPOCH_CTRL_A, .TB_STAT, .PM_GEN]]) s (epochMarks s) := by
  unfold epochMarks
  refine ⟨?_, ?_, ?_, ?_, .raise (.put (.bump (.put (.put (.put (.put (.put .refl)))))))⟩
  · rw [isSet_raise, isSet_put_of_apart (by decide), isSet_bump_of_apart (by decide), isSet_put_of_apart (by decide),
      isSet_put_of_apart (by decide), isSet_put_of_apart (by decide), isSet_put_of_apart (by decide), isSet_put_zero _ _ (by decide)]
  · rw [isSet_raise, isSet_put_of_apart (by decide), isSet_bump_of_apart (by decide), isSet_put_of_apart (by decide),
      isSet_put_of_apart (by decide), isSet_put_one _ _ (by decide)]
  · rw [isSet_raise, isSet_put_of_apart (by decide), isSet_bump_of_apart (by decide), isSet_put_of_apart (by decide),
      isSet_put_one _ _ (by decide)]
  · rw [raise_raising]
    exact List.mem_append_right _ (List.mem_singleton.mpr rfl)

theorem epochLoadS_host (htake : s.tb.take = some .host) (harmed : s.isSet EPOCH_STAT.ARMED = true) (hbusy : s.relockOrFailover = false) :
    ∃ x : TimeBase, epochLoadS s = { epochMarks (forBelow 8 (loadReplica s.epochTick) s) with tb := x } ∧ x.take = none ∧ x.slew = none := by
  have hcond : (s.isSet EPOCH_STAT.ARMED && epochDue s .host && !s.relockOrFailover) = true := by simp [harmed, hbusy, epochDue]
  unfold epochLoadS
  rw [htake]
  dsimp only
  rw [if_pos hcond]
  exact ⟨_, rfl, rfl, rfl⟩

theorem tb_withRy (x : Ry) : ({ s with ry := x } : State).tb = s.tb := rfl

theorem tb_requestSlew (adj : ℤ) (rate : ℕ) (s : State) : (requestSlew adj rate s).tb =
    { s.tb with slew := none, slewReq := some { adj := adj, rate := rate, from_ := s.tb.strobes } } := rfl

theorem take_withSlew {x : TimeBase} {a b : Option Slew} : ({ x with slew := a, slewReq := b } : TimeBase).take = x.take := rfl

/-- What follows a load keeps its marks. -/
theorem afterEpochLoad_spec : Frame (.join [.ofParts [.tb, .links, .ry], .ofRegs [.TB_STAT, .RY_WORKERS, .RY_TT]]) s (afterEpochLoad s) ∧
    (afterEpochLoad s).isSet TB_STAT.EPOCH_SET = s.isSet TB_STAT.EPOCH_SET ∧ (afterEpochLoad s).tb.take = s.tb.take ∧
    (s.tb.slew = none → (afterEpochLoad s).tb.slew = none) := by
  have hclear : Frame (.ofParts [.links, .ry]) s (clearStamps s) := .clearStamps .refl
  unfold afterEpochLoad
  dsimp only
  generalize clearStamps s = u at *
  split
  · next l heg r hload =>
    have hy : Frame (.ofRegs [.RY_WORKERS, .RY_TT]) u ((u.put RY_WORKERS.HEG heg).put RY_TT.TT_ST (if u.timeLocked l then 3 else 2) l) :=
      .put (.put .refl)
    generalize ((u.put RY_WORKERS.HEG heg).put RY_TT.TT_ST (if u.timeLocked l then 3 else 2) l) = y at *
    have hx : Frame (.join [.ofParts [.links], .ofRegs [.RY_WORKERS, .RY_TT]]) u (y.setLnk l { y.lnk l with loaded := true }) :=
      .setLnk (hy.mono (by decide))
    generalize y.setLnk l { y.lnk l with loaded := true } = x at *
    have hall (y : State) : Frame (.ofParts [.links]) y (epochToAll y) := .epochToAll .refl
    refine ⟨((hclear.mono (by decide)).trans (hx.mono (by decide))).trans (.epochToAll (.withRy (.requestSlew .refl))), ?_, ?_, fun _ => ?_⟩
    · rw [(hall _).isSet, isSet_withRy, requestSlew, isSet_withTb, isSet_put_of_apart (by decide), hx.isSet, hclear.isSet]
    · have htb : (requestSlew r 100 x).tb.take = s.tb.take :=
        (congrArg TimeBase.take (tb_requestSlew ..)).trans (take_withSlew.trans (congrArg TimeBase.take (hx.tb.trans hclear.tb)))
      exact (congrArg TimeBase.take ((hall _).tb.trans (tb_withRy _))).trans htb
    · exact (congrArg TimeBase.slew ((hall _).tb.trans (tb_withRy _))).trans (congrArg TimeBase.slew (tb_requestSlew ..))
  · have hall : Frame (.join [.ofParts [.links], .ofRegs [.RY_WORKERS]]) u (if u.isTop then epochToAll (u.bump RY_WORKERS.HEG) else u) :=
      .ite (.epochToAll (.bump .refl)) .refl
    refine ⟨(hclear.mono (by decide)).trans (hall.mono (by decide)), ?_, ?_, fun h => ?_⟩
    · rw [hall.isSet, hclear.isSet]
    · rw [hall.tb, hclear.tb]
    · rw [hall.tb, hclear.tb, h]

theorem epochTick_lt : s.get EPOCH_TICK_HI.TICK * 2 ^ 32 + s.get EPOCH_TICK_LO.TICK < tickMod := by
  have hhi : s.get EPOCH_TICK_HI.TICK < 2 ^ 32 := Nat.mod_lt _ (by decide)
  have hlo : s.get EPOCH_TICK_LO.TICK < 2 ^ 32 := Nat.mod_lt _ (by decide)
  norm_num [tickMod] at *
  omega

theorem epochLoad_complete (hcold : s.coldHeld = false) (harmed : s.isSet EPOCH_STAT.ARMED = true) (htake : s.tb.take = some .host)
    (hbusy : s.relockOrFailover = false) :
    ∃ t, exec .epochLoad s = .next t ∧
      (∀ n < 8, s.chipLost n = false → (s.chip n).running = true →
        t.count n = s.get EPOCH_TICK_HI.TICK * 2 ^ 32 + s.get EPOCH_TICK_LO.TICK ∧
          (t.chip n).gen = ((s.chip n).gen + 1) % 65536) ∧
      t.isSet EPOCH_STAT.ARMED = false ∧ t.isSet EPOCH_STAT.LOADED = true ∧ t.isSet TB_STAT.EPOCH_SET = true ∧
      t.tb.take = none ∧ t.tb.slew = none ∧ 260 ∈ t.raising ∧ t.nvm = s.nvm ∧ t.engines = s.engines := by
  have hcond : (s.isSet EPOCH_STAT.ARMED && epochDue s .host && !s.relockOrFailover) = true := by simp [harmed, hbusy, epochDue]
  have hruns : Frame (.join [Frame.Scope.endTimebase, Frame.Scope.restartRuns]) s
      (forBelow 8 (fun n s => if s.chipLost n then s else restartRuns n (endTimebase n s)) s) :=
    .forBelow (fun _ _ h => .ite h (.restartRuns (.endTimebase h))) .refl
  have hexec : epochLoadAll s = afterEpochLoad (epochLoadS
      (forBelow 8 (fun n s => if s.chipLost n then s else restartRuns n (endTimebase n s)) s)) := by
    unfold epochLoadAll
    rw [htake]
    exact if_pos hcond
  generalize forBelow 8 (fun n s => if s.chipLost n then s else restartRuns n (endTimebase n s)) s = u at *
  obtain ⟨x, hload, htake', hslew'⟩ := epochLoadS_host (s := u) (by rw [hruns.tb, htake]) (by rw [hruns.isSet, harmed])
    (by rw [hruns.relockOrFailover, hbusy])
  obtain ⟨hloop, hchips⟩ := forBelow_loadReplica (s := u) u.epochTick
  generalize forBelow 8 (loadReplica u.epochTick) u = y at *
  obtain ⟨harm, hloaded, hset, hraise, hmarks⟩ := epochMarks_spec (s := y)
  generalize epochMarks y = z at *
  rw [hload] at hexec
  obtain ⟨hafter, hset', htake'', hslew''⟩ := afterEpochLoad_spec (s := { z with tb := x })
  have hz : Frame (.ofParts [.tb]) z { z with tb := x } := .withTb .refl
  have hz' : ({ z with tb := x } : State).tb = x := rfl
  generalize ({ z with tb := x } : State) = z' at *
  have hall : Frame Frame.Scope.epochLoadAll s (epochLoadAll s) := .epochLoadAll .refl
  have htick : u.epochTick = s.get EPOCH_TICK_HI.TICK * 2 ^ 32 + s.get EPOCH_TICK_LO.TICK := by
    rw [State.epochTick, hruns.get, hruns.get]
  have hnvm := hall.part .nvm (by decide)
  have heng := hall.part .engines (by decide)
  rw [hexec] at hnvm heng
  refine ⟨_, (act_next hcold _).trans (congrArg _ hexec), fun n hn hl hr => ?_, ?_, ?_, ?_, ?_, ?_, ?_, hnvm, heng⟩
  · have hchip : (afterEpochLoad z').chip n = loadedWith u.epochTick u.clock (s.chip n) := by
      rw [hafter.chip, hz.chip, hmarks.chip, ← hruns.chip]
      exact hchips n hn ((hruns.chipLost n).trans hl) (by rw [hruns.chip, hr])
    have hclock : (afterEpochLoad z').clock = u.clock := by rw [hafter.clock, hz.clock, hmarks.clock, hloop.clock]
    have hlt : u.epochTick < tickMod := by
      rw [htick]
      exact epochTick_lt
    have hrun : ((afterEpochLoad z').chip n).running = true := by rw [hchip, running_loadedWith, hr]
    refine ⟨?_, by rw [hchip, gen_loadedWith, nextGen]⟩
    rw [count_eq hrun, hchip, hclock, tickOff_loadedWith, loadOffset, loaded_count hlt, htick]
  · rw [hafter.isSet, hz.isSet, harm]
  · rw [hafter.isSet, hz.isSet, hloaded]
  · rw [hset', hz.isSet, hset]
  · rw [htake'', hz', htake']
  · exact hslew'' (by rw [hz', hslew'])
  · rw [show (afterEpochLoad z').raising = z'.raising from hafter.part .raising (by decide),
      show z'.raising = z.raising from hz.part .raising (by decide)]
    exact hraise

/-! ### Slews (R67) -/

theorem plain_tbSlew : Plain .TB_SLEW := ⟨by decide, by decide, by decide, by decide⟩

theorem clampRate_eq (r : ℕ) : clampRate r = max 1 (min 100 r) := by
  unfold clampRate
  split
  · omega
  · split <;> omega

theorem clampRate_ne {r : ℕ} (h : ¬ (1 ≤ r ∧ r ≤ 100)) : (r != clampRate r) = true := by
  rw [bne_iff_ne, clampRate_eq]
  omega

/-- The word that a write of `TB_SLEW` stores. -/
def slewWord (old v : Word) : Word :=
  if old.getLsbD 31 then withField (withField v 24 7 (clampRate (fieldOf v 24 7))) 31 1 1
  else withField v 24 7 (clampRate (fieldOf v 24 7))

theorem fieldOf_slewWord_adj (old v : Word) : fieldOf (slewWord old v) 0 24 = v.toNat % 2 ^ 24 := by
  unfold slewWord
  split
  · rw [fieldOf_withField_ne _ _ _ _ _ _ (by decide) (by decide), fieldOf_withField_ne _ _ _ _ _ _ (by decide) (by decide)]
    simp [fieldOf]
  · rw [fieldOf_withField_ne _ _ _ _ _ _ (by decide) (by decide)]
    simp [fieldOf]

theorem fieldOf_slewWord_rate (old v : Word) : fieldOf (slewWord old v) 24 7 = clampRate (fieldOf v 24 7) := by
  have hlt : clampRate (fieldOf v 24 7) < 2 ^ 7 := by
    rw [clampRate_eq]
    omega
  unfold slewWord
  split
  · rw [fieldOf_withField_ne _ _ _ _ _ _ (by decide) (by decide), fieldOf_withField _ _ _ _ (by decide), Nat.mod_eq_of_lt hlt]
  · rw [fieldOf_withField _ _ _ _ (by decide), Nat.mod_eq_of_lt hlt]

/-- The low 24 bits as a signed value. -/
theorem adj_eq (v : Word) : (if v.toNat % 2 ^ 24 < 2 ^ 23 then ((v.toNat % 2 ^ 24 : ℕ) : ℤ) else ((v.toNat % 2 ^ 24 : ℕ) : ℤ) - 2 ^ 24) =
    (v.setWidth 24).toInt := by
  rw [BitVec.toInt_eq_toNat_cond, BitVec.toNat_setWidth]
  split <;> split <;> omega

/-- The state that a write of `TB_SLEW` with GO = 1 requests its slew in. -/
def clamped (v : Word) (s : State) : State :=
  s.when (fieldOf v 24 7 != clampRate (fieldOf v 24 7)) (·.put TB_STAT.SLEW_CLAMP 1)

theorem hookTbSlew_go {ones old : Word} (hgo : fieldOf ones 31 1 = 1) : hookTbSlew ones old v s =
    (slewWord old v, requestSlew (v.setWidth 24).toInt (clampRate (fieldOf v 24 7)) (clamped v s)) := by
  have hadj := fieldOf_slewWord_adj old v
  have hsign := adj_eq v
  rw [← hadj] at hsign
  rw [← hsign]
  unfold hookTbSlew
  dsimp only
  rw [hgo]
  rfl

theorem clamped_spec : (fieldOf v 24 7 ≠ clampRate (fieldOf v 24 7) → (clamped v s).isSet TB_STAT.SLEW_CLAMP = true) ∧
    Frame (.ofRegs [.TB_STAT]) s (clamped v s) := by
  refine ⟨fun h => ?_, .when (fun h => .put h) .refl⟩
  rw [clamped, State.when, if_pos (bne_iff_ne.mpr h), isSet_put_one _ _ (by decide)]

theorem requestSlew_spec (adj : ℤ) (rate : ℕ) : (requestSlew adj rate s).isSet TB_STAT.SLEWING = false ∧
    (requestSlew adj rate s).isSet TB_STAT.SLEW_CLAMP = s.isSet TB_STAT.SLEW_CLAMP := by
  unfold requestSlew
  refine ⟨?_, ?_⟩
  · rw [isSet_withTb, isSet_put_zero _ _ (by decide)]
  · rw [isSet_withTb, isSet_put_of_apart (by decide)]

theorem fieldOf_go (v : Word) : fieldOf (withField v 31 1 1) 31 1 = 1 := fieldOf_withField _ _ _ _ (by decide)

theorem tbSlew_complete {o : Origin} (h : s.writes o .TB_SLEW 0 0 (withField v 31 1 1) = true) :
    ∃ t, exec (.tbSlewWrite o v) s = .next t ∧
      t.tb.slewReq = some {
        adj := (v.setWidth 24).toInt, rate := max 1 (min 100 (fieldOf v 24 7)), from_ := s.tb.strobes } ∧
      t.tb.slew = none ∧ t.isSet TB_STAT.SLEWING = false ∧ t.get TB_SLEW.RATE_PPB = max 1 (min 100 (fieldOf v 24 7)) ∧
      t.get TB_SLEW.ADJ = v.toNat % 2 ^ 24 ∧ (¬ (1 ≤ fieldOf v 24 7 ∧ fieldOf v 24 7 ≤ 100) → t.isSet TB_STAT.SLEW_CLAMP = true) ∧
      RegsKept [RegId.TB_SLEW.at, RegId.TB_STAT.at] s t ∧ Kept [.regs, .tb, .tansyQ] s t := by
  obtain ⟨q, hq⟩ := busWrite_hook h plain_tbSlew
  have hexec : exec (.tbSlewWrite o v) s = busWrite o RegId.TB_SLEW.at (withField v 31 1 1) s := rfl
  have hgo := fieldOf_go v
  have hrate : fieldOf (withField v 31 1 1) 24 7 = fieldOf v 24 7 := fieldOf_withField_ne _ _ _ _ _ _ (by decide) (by decide)
  have hadj : (withField v 31 1 1).setWidth 24 = v.setWidth 24 := by
    apply BitVec.eq_of_toNat_eq
    have hlow := fieldOf_withField_ne v 31 1 1 0 24 (by decide) (by decide)
    simpa [fieldOf] using hlow
  generalize withField v 31 1 1 = w at *
  have hw (m old : Word) (u : State) : writeHook o.toNat ⟨.TB_SLEW, 0, 0⟩ m old w u = hookTbSlew (m &&& w) old w u := rfl
  have hones : BitVec.ofNat 32 ((regRow .TB_SLEW).rw ||| (regRow .TB_SLEW).cnt ||| (regRow .TB_SLEW).wo1) &&& w = w :=
    BitVec.allOnes_and
  rw [hw, hw, hones, hookTbSlew_go hgo, hookTbSlew_go hgo] at hq
  have hafter (old : Word) (u : State) : afterWrite ⟨.TB_SLEW, 0, 0⟩ old u = u := rfl
  rw [hafter] at hq
  dsimp only at hq
  obtain ⟨hclamp, hframe⟩ := clamped_spec (v := w) (s := { s with tansyQ := q })
  have hfrom : Kept [.tansyQ] s ({ s with tansyQ := q } : State) := Kept.refl.withTansyQ
  have hregs0 : RegsKept [RegId.TB_SLEW.at, RegId.TB_STAT.at] s ({ s with tansyQ := q } : State) := RegsKept.refl.withTansyQ
  have hstrobes : ({ s with tansyQ := q } : State).tb = s.tb := rfl
  generalize ({ s with tansyQ := q } : State) = u at *
  generalize clamped w u = x at *
  obtain ⟨hslewing, hclampKeep⟩ := requestSlew_spec (s := x) (w.setWidth 24).toInt (clampRate (fieldOf w 24 7))
  have htb := tb_requestSlew (w.setWidth 24).toInt (clampRate (fieldOf w 24 7)) x
  have hreq : Frame Frame.Scope.requestSlew x (requestSlew (w.setWidth 24).toInt (clampRate (fieldOf w 24 7)) x) := .requestSlew .refl
  generalize requestSlew (w.setWidth 24).toInt (clampRate (fieldOf w 24 7)) x = y at *
  have hpast {f : Fld} (hf : f.reg = .TB_STAT) (z : Word) : (y.setReg RegId.TB_SLEW.at z).isSet f = y.isSet f := by
    rw [State.isSet, State.isSet, State.get, State.get, State.reg_setReg, if_neg (by rw [hf]; exact RegId.at_ne _ _ _ _ _ _ (by decide))]
  have hword {f : Fld} (hf : f.reg = .TB_SLEW) (z : Word) : (y.setReg RegId.TB_SLEW.at z).get f = fieldOf z f.lo f.w := by
    rw [State.get, State.reg_setReg, hf, if_pos rfl]
  have htb' (z : Word) : (y.setReg RegId.TB_SLEW.at z).tb = y.tb := rfl
  have hall : Frame (.join [.ofParts [.tb], .ofRegs [.TB_STAT, .TB_SLEW]]) u (y.setReg RegId.TB_SLEW.at (slewWord (s.reg RegId.TB_SLEW.at) w)) :=
    .setReg ((hframe.mono (by decide)).trans (hreq.mono (by decide)))
  refine ⟨_, hexec.trans hq, ?_, ?_, ?_, ?_, ?_, fun hno => ?_, ?_, ?_⟩
  · rw [htb', htb, clampRate_eq, hrate, hadj, hframe.tb, hstrobes]
  · rw [htb', htb]
  · rw [hpast rfl, hslewing]
  · rw [hword rfl]
    exact (fieldOf_slewWord_rate _ w).trans (by rw [hrate, clampRate_eq])
  · rw [hword rfl]
    refine (fieldOf_slewWord_adj _ w).trans ?_
    have hlow := congrArg BitVec.toNat hadj
    simpa using hlow
  · rw [hpast rfl, hclampKeep]
    exact hclamp (by rw [hrate]; exact bne_iff_ne.mp (clampRate_ne hno))
  · exact hregs0.trans fun a ha => (hall.regsKept [.TB_STAT, .TB_SLEW]) a fun hm => ha (by simpa [or_comm] using hm)
  · exact (hfrom.mono (by decide)).trans hall.kept

theorem slewStart_complete {q : Slew} (hcold : s.coldHeld = false) (hreq : s.tb.slewReq = some q)
    (hstrobe : s.mcount / 65536 + 1 ≠ q.from_) :
    ∃ t, exec .slewStart s = .next t ∧ t.tb.slewReq = none ∧
      t.tb.slew = some { q with endsAt := s.clock + (q.adj.natAbs * 1000000000 + 65536 * q.rate - 1) / (65536 * q.rate) } ∧
      t.isSet TB_STAT.SLEWING = true ∧ t.isSet TB_SLEW.GO = false ∧ RegsKept [RegId.TB_SLEW.at, RegId.TB_STAT.at] s t ∧
      Kept [.regs, .tb] s t := by
  have hnow : s.strobeNow ≠ q.from_ := hstrobe
  obtain ⟨x, heq, hreq', hslew⟩ : ∃ x : TimeBase, slewStartS s = { (s.put TB_SLEW.GO 0).put TB_STAT.SLEWING 1 with tb := x } ∧
      x.slewReq = none ∧ x.slew = some { q with endsAt := s.clock + slewTicks q.adj q.rate } := by
    unfold slewStartS
    rw [hreq]
    dsimp only
    rw [if_pos hnow]
    exact ⟨_, rfl, rfl, by rw [State.put_clock, State.put_clock]⟩
  refine ⟨_, (act_next hcold _).trans (congrArg _ heq), hreq', hslew, ?_, ?_, RegsKept.refl.put.put.withTb, Kept.refl.put.put.withTb⟩
  · rw [isSet_withTb, isSet_put_one _ _ (by decide)]
  · rw [isSet_withTb, isSet_put_of_apart (by decide), isSet_put_zero _ _ (by decide)]

theorem slewEnd_complete {q : Slew} (hcold : s.coldHeld = false) (hslew : s.tb.slew = some q) (hdue : q.endsAt ≤ s.clock) :
    ∃ t, exec .slewEnd s = .next t ∧ t.tb.slew = none ∧ t.isSet TB_STAT.SLEWING = false ∧ RegsKept [RegId.TB_STAT.at] s t ∧
      Kept [.regs, .tb] s t := by
  have heq : slewEndS s = { s.put TB_STAT.SLEWING 0 with tb := { s.tb with slew := none } } := by
    unfold slewEndS
    rw [hslew]
    dsimp only
    rw [if_pos hdue]
  refine ⟨_, (act_next hcold _).trans (congrArg _ heq), rfl, ?_, RegsKept.refl.put.withTb, Kept.refl.put.withTb⟩
  rw [isSet_withTb, isSet_put_zero _ _ (by decide)]

/-- Settles O23: an armed load gives each replica the epoch's count by a loop over the chiplets; the slew's word is the write's with its
rate clamped. -/
theorem epochsAndSlewsComplete : Obligations.EpochsAndSlewsComplete := by
  unfold Obligations.EpochsAndSlewsComplete
  refine ⟨?_, ?_⟩
  · unfold Claims.EpochsComplete
    exact ⟨fun _ _ _ => epochArm_complete, fun _ _ _ => epochArm_refused, fun _ _ _ => epochDisarm_complete,
      fun _ _ _ => epochInEdge_taken, fun _ _ _ _ => epochInEdge_later, fun _ => epochLoad_complete, fun _ _ => epochMissing_complete⟩
  · unfold Claims.SlewsComplete
    exact ⟨fun _ _ _ => tbSlew_complete, fun _ _ => slewStart_complete, fun _ _ => slewEnd_complete⟩

end

end Sys2Proof.Proofs

/-! ## Contexts and statistics (R237, R240) -/

namespace Sys2Proof.Proofs

set_option Elab.async false

open Sys2Proof Sys2Proof.Machine Sys2Proof.Claims

section

variable {s u : State} {e : EngineIx}

/-- A read that meets no uncorrectable word corrects at most single-bit errors. -/
theorem sramMeets_same {a n : ℕ} (hgood : s.anyBad a n = false) : SameButCache s (sramMeets a n s) := by
  have hnone : touching s.badWords a n = [] := by
    rw [touching, List.filter_eq_nil_iff]
    exact List.any_eq_false.mp hgood
  rw [sramMeets, hnone]
  exact sramFix_same a n s

/-- A body that stores bytes in scratch and goes on. -/
theorem scratch_advance {x : ℕ} {bs : List Byte} (hu : SameButCache s u) (hwait : (s.eng e).wait = none) (hpc : s.pc e + 4 * 1 < 2 ^ 32) :
    OnlyEngine e s (dropLines e (advance e 1 (setScratch e x bs u))) ∧
      WroteScratch e x bs s (dropLines e (advance e 1 (setScratch e x bs u))) ∧
      WentOn e 1 false false true s (dropLines e (advance e 1 (setScratch e x bs u))) := by
  rw [setScratch_eq, eng_cache hu]
  obtain ⟨honly, hpc', heng⟩ := onlyEngine_advance hu (z := scratchStored x bs (s.eng e)) hwait hpc
  refine ⟨honly, wroteScratch_of_stored heng, hpc', ?_⟩
  rw [heng]
  rfl

theorem ctxInvalid_cache (hu : SameButCache s u) (n : ℕ) : u.ctxInvalid n = s.ctxInvalid n := by
  obtain ⟨_, _, _, rfl⟩ := hu
  rfl

theorem bytesAt_cache (hu : SameButCache s u) (a n : ℕ) : u.bytesAt a n = s.bytesAt a n := by
  obtain ⟨_, _, _, rfl⟩ := hu
  rfl

theorem bankLost_cache (hu : SameButCache s u) (b : ℕ) : u.bankLost b = s.bankLost b := by
  obtain ⟨_, _, _, rfl⟩ := hu
  rfl

theorem anyBad_cache (hu : SameButCache s u) (a n : ℕ) : u.anyBad a n = s.anyBad a n := by
  obtain ⟨_, _, _, rfl⟩ := hu
  rfl

theorem scratchOk_of {off n al : ℕ} (halign : off % al = 0) (hin : off + n ≤ 0x1000) : scratchOk off n al = true := by
  simp [scratchOk, halign, hin]

theorem ctxld_complete {a b : GReg} {n off : ℕ} (hn : n = (s.gr e a).toNat) (hoff : off = (s.gr e b).toNat) (hmax : n ≤ 16383)
    (halign : off % 16 = 0) (hin : off + 128 ≤ 0x1000) (hfetch : s.fetches e [encA 0x21 a b 0 0 0] = true) (hgood : s.ctxInvalid n = false) :
    ∃ t, exec (.cCtxld e a b) s = .next t ∧ OnlyEngine e s t ∧ WroteScratch e off (s.bytesAt (128 * n) 128) s t ∧
      WentOn e 1 false false true s t := by
  obtain ⟨u, hu, hrun⟩ := runCelil_one e _ _ s hfetch
  refine ⟨_, congrArg Host.Outcome.next hrun, ?_⟩
  dsimp only
  rw [State.gr_cache s u hu, State.gr_cache s u hu, ← hn, ← hoff, if_neg (by omega), scratchOk_of halign hin, ctxInvalid_cache hu, hgood,
    bytesAt_cache hu]
  exact scratch_advance (hu.trans (sramFix_same ..)) (fetches_wait e _ s hfetch) (pc_room hfetch)

/-- The words of a context but that of `USES`, from scratch (R237). -/
theorem getD_ctxBytes (p q r : List Byte) (hp : p.length = 48) (hq : q.length = 4) (k : ℕ) (hk : k < 128) :
    (p ++ q ++ r).getD k 0 = if k < 48 then p.getD k 0 else if k < 52 then q.getD (k - 48) 0 else r.getD (k - 52) 0 := by
  simp only [List.getD_eq_getElem?_getD]
  split
  · rw [List.append_assoc, List.getElem?_append_left (by omega)]
  · split
    · rw [List.append_assoc, List.getElem?_append_right (by omega), List.getElem?_append_left (by omega), hp]
    · rw [List.getElem?_append_right (by simp; omega), List.length_append, hp, hq]

theorem getD_bytesAt (a n k : ℕ) (hk : k < n) : (s.bytesAt a n).getD k 0 = s.byte (a + k) := by
  simp [State.bytesAt, hk]

theorem getD_scratchAt (a n k : ℕ) (hk : k < n) : (s.scratchAt e a n).getD k 0 = s.scratchByte e (a + k) := by
  simp [State.scratchAt, State.scratchByte, hk]

theorem ctxst_complete {a b : GReg} {n off : ℕ} (hn : n = (s.gr e a).toNat) (hoff : off = (s.gr e b).toNat) (hmax : n ≤ 16383)
    (halign : off % 16 = 0) (hin : off + 128 ≤ 0x1000) (hfetch : s.fetches e [encA 0x22 a b 0 0 0] = true) (hbank : s.bankLost 0 = false)
    (hgood : s.scratchBad e off 128 = false) :
    ∃ t, exec (.cCtxst e a b) s = .next t ∧ n ∉ t.ctxBad ∧ (∀ m, m ≠ n → (m ∈ t.ctxBad ↔ m ∈ s.ctxBad)) ∧
      (∀ x, t.byte x =
        if 128 * n ≤ x ∧ x < 128 * n + 128 ∧ (x < 128 * n + 48 ∨ 128 * n + 52 ≤ x) then s.scratchByte e (off + x - 128 * n)
        else s.byte x) ∧
      (∀ k, t.gr e k = s.gr e k) ∧ (∀ y, y ≠ RegId.ENG_PC.at e → t.reg y = s.reg y) ∧ WentOn e 1 false false false s t := by
  obtain ⟨u, hu, hrun⟩ := runCelil_one e _ _ s hfetch
  have hbad : u.scratchBad e off 128 = false := by rw [State.scratchBad, eng_cache hu]; exact hgood
  refine ⟨_, congrArg Host.Outcome.next hrun, ?_⟩
  dsimp only
  rw [State.gr_cache s u hu, State.gr_cache s u hu, ← hn, ← hoff, if_neg (by omega), scratchOk_of halign hin, bankLost_cache hu, hbank, hbad]
  simp only [Bool.not_true, Bool.false_eq_true, if_false]
  have hlen : (u.scratchAt e off 48 ++ u.bytesAt (128 * n + 48) 4 ++ u.scratchAt e (off + 52) 76).length = 128 := by
    simp [State.scratchAt, State.bytesAt]
  have hget : ∀ k < 128, (u.scratchAt e off 48 ++ u.bytesAt (128 * n + 48) 4 ++ u.scratchAt e (off + 52) 76).getD k 0 =
      if k < 48 ∨ 52 ≤ k then s.scratchByte e (off + k) else s.byte (128 * n + k) := by
    intro k hk
    rw [getD_ctxBytes _ _ _ (by simp [State.scratchAt]) (by simp [State.bytesAt]) k hk]
    have hscr (j : ℕ) : u.scratchByte e j = s.scratchByte e j := by rw [State.scratchByte, State.scratchByte, eng_cache hu]
    split
    · next h => rw [if_pos (.inl h), getD_scratchAt _ _ _ h, hscr]
    · split
      · next h48 h52 =>
        rw [if_neg (by omega), getD_bytesAt _ _ _ (by omega), State.byte, mem_cache hu, ← State.byte]
        congr 1
        omega
      · next h48 h52 =>
        rw [if_pos (.inr (by omega)), getD_scratchAt _ _ _ (by omega), hscr]
        congr 1
        omega
  generalize u.scratchAt e off 48 ++ u.bytesAt (128 * n + 48) 4 ++ u.scratchAt e (off + 52) 76 = bs at *
  obtain ⟨ls, m, bad, wk, c, hy⟩ := sameButStored_store hu (128 * n) bs
  have hbytes (x : ℕ) : (u.store (128 * n) bs).byte x =
      if 128 * n ≤ x ∧ x < 128 * n + 128 ∧ (x < 128 * n + 48 ∨ 128 * n + 52 ≤ x) then s.scratchByte e (off + x - 128 * n)
      else s.byte x := by
    rw [byte_store, hlen]
    by_cases hx : 128 * n ≤ x ∧ x < 128 * n + 128
    · rw [if_pos hx, hget _ (by omega), show 128 * n + (x - 128 * n) = x by omega, show off + (x - 128 * n) = off + x - 128 * n by omega]
      by_cases hin : x < 128 * n + 48 ∨ 128 * n + 52 ≤ x
      · rw [if_pos (by omega), if_pos ⟨hx.1, hx.2, hin⟩]
      · rw [if_neg (by omega), if_neg fun h => hin h.2.2]
    · rw [if_neg hx, if_neg fun h => hx ⟨h.1, h.2.1⟩, State.byte, mem_cache hu, State.byte]
  generalize u.store (128 * n) bs = y at *
  have heng : ∀ k, y.eng k = s.eng k := fun k => by rw [hy]; rfl
  have hpcy : y.pc e = s.pc e := State.get_congr (by rw [hy]) ..
  have hctx : y.ctxBad = s.ctxBad := by rw [hy]
  have hreg (a : ℕ) : y.reg a = s.reg a := State.reg_congr (by rw [hy]) a
  obtain ⟨-, hme, hregs, hpc', es, rs, hrest⟩ := advance_spec (n := 1) (e := e) (y := { y with ctxBad := y.ctxBad.filter (· != n) })
    (Eq.trans (congrArg Eng.wait (heng e)) (fetches_wait e _ s hfetch)) (lt_of_eq_of_lt (congrArg (· + 4 * 1) hpcy) (pc_room hfetch))
  generalize dropLines e (advance e 1 { y with ctxBad := y.ctxBad.filter (· != n) }) = t at *
  refine ⟨?_, fun m hm => ?_, fun x => ?_, fun k => ?_, fun a ha => (hregs a ha).trans (hreg a), hpc'.trans (congrArg (· + 4 * 1) hpcy), ?_⟩
  · rw [hrest]
    simp
  · rw [hrest, ← hctx]
    simp [hm]
  · rw [hrest]
    exact hbytes x
  · rw [State.gr, State.gr, hme, ← heng e]
    rfl
  · rw [hme, ← heng e]
    rfl

/-! ### Statistics -/

theorem onlyEngine_setEng (z : Eng) : OnlyEngine e u (u.setEng e z) :=
  ⟨fun k hk => by rw [State.eng_setEng, if_neg hk], fun _ _ => rfl, _, _, _, _, _, rfl⟩

/-- A body that stores bytes in scratch, writes g`d` and goes on. -/
theorem scratch_writeNext {d : GReg} {v : Dword} {x : ℕ} {bs : List Byte} (hu : SameButCache s u) (hwait : (s.eng e).wait = none)
    (hpc : s.pc e + 4 * 1 < 2 ^ 32) :
    OnlyEngine e s (dropLines e (writeNext e d v (setScratch e x bs u))) ∧
      WroteScratch e x bs s (dropLines e (writeNext e d v (setScratch e x bs u))) ∧
      WroteG e d v s (dropLines e (writeNext e d v (setScratch e x bs u))) ∧
      WentOn e 1 true false true s (dropLines e (writeNext e d v (setScratch e x bs u))) := by
  have hset := onlyEngine_setEng (e := e) (u := u) (scratchStored x bs (u.eng e))
  have heng : (u.setEng e (scratchStored x bs (u.eng e))).eng e = scratchStored x bs (s.eng e) := by
    rw [State.eng_setEng, if_pos rfl, eng_cache hu]
  have hpcu : (u.setEng e (scratchStored x bs (u.eng e))).pc e = s.pc e := (State.get_congr rfl _ _ _ : _ = u.pc e).trans (State.pc_cache s u hu e)
  rw [setScratch_eq]
  generalize u.setEng e (scratchStored x bs (u.eng e)) = w at *
  obtain ⟨honly, hwrote, hwent⟩ := writeOn_spec e d 1 v w (by rw [heng]; exact hwait) (by rw [hpcu]; exact hpc)
  have hme := hwent.engine
  have hpc' := hwent.pc
  rw [heng] at hme
  rw [hpcu] at hpc'
  change OnlyEngine e w (dropLines e (writeNext e d v w)) at honly
  change WroteG e d v w (dropLines e (writeNext e d v w)) at hwrote
  change (dropLines e (writeNext e d v w)).pc e = _ at hpc'
  change (dropLines e (writeNext e d v w)).eng e = { scratchStored x bs (s.eng e) with
    g := ((dropLines e (writeNext e d v w)).eng e).g, lines := [] } at hme
  generalize dropLines e (writeNext e d v w) = t at *
  refine ⟨.of_cache hu (onlyEngine_trans hset honly), ⟨fun k => ?_, fun m => ?_⟩, fun k => ?_, hpc', ?_⟩
  · rw [State.scratchByte, hme]
    exact get_setMany ..
  · rw [hme]
    simp only [scratchStored, List.mem_filter, Bool.or_eq_true, decide_eq_true_eq]
    constructor <;> rintro ⟨hw, hout⟩ <;> exact ⟨hw, by omega⟩
  · have hgr : w.gr e k = s.gr e k := by
      rw [State.gr, State.gr, heng]
      rfl
    rw [hwrote k, hgr]
  · rw [hme]
    rfl

theorem resultBlock_cache (hu : SameButCache s u) (k : ℕ) : u.resultBlock k = s.resultBlock k := by
  obtain ⟨_, _, _, rfl⟩ := hu
  rfl

theorem statR_complete {d a b : GReg} {k : ℕ} (hk : k = (s.gr e a).toNat) (hmax : k ≤ 1279)
    (hfetch : s.fetches e [encA 0x29 a b d 0 0] = true) (hgood : s.anyBad (0x01A00000 + 64 * k) 64 = false)
    (halign : (s.gr e b).toNat % 64 = 0) (hin : (s.gr e b).toNat + 64 ≤ 0x1000) :
    ∃ t, exec (.cStatR e d b a) s = .next t ∧ OnlyEngine e s t ∧ WroteScratch e (s.gr e b).toNat (s.resultBlock k) s t ∧
      WroteG e d (BitVec.ofNat 64 (leNat (((s.resultBlock k).drop 4).take 4))) s t ∧ WentOn e 1 true false true s t := by
  obtain ⟨u, hu, hrun⟩ := runCelil_one e _ _ s hfetch
  refine ⟨_, congrArg Host.Outcome.next hrun, ?_⟩
  dsimp only
  rw [State.gr_cache s u hu, State.gr_cache s u hu, ← hk, if_neg (by omega), scratchOk_of halign hin, resultBlock_cache hu]
  simp only [Bool.not_true, Bool.false_eq_true, if_false]
  refine scratch_writeNext ?_ (fetches_wait e _ s hfetch) (pc_room hfetch)
  split
  · exact hu
  · exact hu.trans (sramMeets_same (by rw [anyBad_cache hu, hgood]))

theorem statE_complete {x : TReg} {a : GReg} {k : ℕ} (hk : k = (s.gr e a).toNat) (hmax : k ≤ 1279)
    (hfetch : s.fetches e [encA 0x29 a 0 0 x 1] = true) :
    ∃ t, exec (.cStatE e x a) s = .next t ∧ OnlyEngine e s t ∧ WroteT e x (BitVec.ofNat 80 (s.wideAt (aLAST_EDGE k))) s t ∧
      WentOn e 1 false true false s t := by
  obtain ⟨u, hu, hrun⟩ := runCelil_one e _ _ s hfetch
  refine (?_ : WroteTime _ s e x _)
  have hexec : exec (.cStatE e x a) s = _ := congrArg Host.Outcome.next hrun
  rw [hexec]
  dsimp only
  have hwide : u.wideAt (aLAST_EDGE k) = s.wideAt (aLAST_EDGE k) := by
    obtain ⟨_, _, _, rfl⟩ := hu
    rfl
  rw [State.gr_cache s u hu, ← hk, if_neg (by omega), hwide]
  exact wroteTime_advance hu (fetches_wait e _ s hfetch) (pc_room hfetch)

/-- Settles O16: a context and a result block move as bytes between on-chip memory and scratch. -/
theorem contextsAndStatisticsComplete : Obligations.ContextsAndStatisticsComplete := by
  unfold Obligations.ContextsAndStatisticsComplete
  refine ⟨?_, ?_⟩
  · unfold Claims.ContextMovesComplete
    exact fun _ _ _ _ _ _ hn hoff hmax halign hin => ⟨ctxld_complete hn hoff hmax halign hin, ctxst_complete hn hoff hmax halign hin⟩
  · unfold Claims.StatisticsComplete
    exact fun _ _ _ _ hk hmax => ⟨fun _ _ => statR_complete hk hmax, fun _ => statE_complete hk hmax⟩

end

end Sys2Proof.Proofs

/-! ## Timed actions (R11, R14, R238, R239) -/

namespace Sys2Proof.Proofs

set_option Elab.async false

open Sys2Proof Sys2Proof.Machine Sys2Proof.Claims

section

variable {s u : State} {e : EngineIx}

/-! ### Posting one action -/

/-- An engine after it has posted an action. -/
def postedEng (a : Action) (z : Eng) : Eng := { z with staged := z.staged ++ [a], nact := z.nact + 1, wait := none }

theorem heldItem_eq {q n : ℕ} {i : Item} (hheld : (u.eng e).held = some (q, n)) (hitem : u.item q n = some i) : u.heldItem e = some i := by
  rw [State.heldItem, hheld]
  exact hitem

theorem postAction_eq {q n : ℕ} {i : Item} {kind : ActKind} {k : TReg} (hheld : (u.eng e).held = some (q, n)) (hitem : u.item q n = some i) :
    postAction e kind (u.tr e k) u = advance e 1 (u.setEng e (postedEng (posted u e q n k i kind) (u.eng e))) := by
  unfold postAction
  rw [hheld, heldItem_eq hheld hitem]
  rfl

theorem postAction_of_tr {q n : ℕ} {i : Item} {kind : ActKind} {k : TReg} (htr : u.tr e k = s.tr e k)
    (hheld : (u.eng e).held = some (q, n)) (hitem : u.item q n = some i) :
    postAction e kind (s.tr e k) u = advance e 1 (u.setEng e (postedEng (posted u e q n k i kind) (u.eng e))) := by
  rw [← htr, postAction_eq hheld hitem]

/-- The limits of R11 and R14, met. -/
structure MayPost (e : EngineIx) (s : State) : Prop where
  count : (s.eng e).nact < 4096
  room : s.stagingLoad < 65536

theorem actionGate_open {x : Instr} {f : State → State} (h : MayPost e u) : actionGate e x f u = f u := by
  rw [actionGate, if_neg (by have := h.count; omega), if_neg (by have := h.room; omega)]

/-- What a state says of an engine's action beside its engine: the registers that name it. -/
structure SameOperands (e : EngineIx) (s u : State) : Prop where
  gr : ∀ k, u.gr e k = s.gr e k
  tr : ∀ k, u.tr e k = s.tr e k

/-- A timed action whose target is in range posts its kind. -/
theorem actionOf_timed {x : Instr} {k : TReg} {target top : ℕ} {kind : ActKind} (hx : timedAction s x = some (e, k, target, top, kind))
    (htop : target ≤ top) (hu : SameOperands e s u) (h : MayPost e u) : actionOf x u = postAction e kind (u.tr e k) u := by
  have htimed {i : Instr} {a : GReg} {f : ℕ → State → ActKind} (ha : (s.gr e a).toNat ≤ top) (hf : f (s.gr e a).toNat u = kind) :
      timedOp e i a k top f u = postAction e kind (u.tr e k) u := by
    rw [timedOp, hu.gr, if_neg (by omega), actionGate_open h, hf]
  cases x with
  | cPhase e' a b t =>
    simp only [timedAction, Option.some.injEq, Prod.mk.injEq] at hx
    obtain ⟨rfl, rfl, rfl, rfl, rfl⟩ := hx
    rw [actionOf, phaseOp]
    refine htimed htop ?_
    rw [hu.gr]
  | cPortset e' a b c t =>
    simp only [timedAction, Option.ite_none_left_eq_some, Option.some.injEq, Prod.mk.injEq] at hx
    obtain ⟨hmask, rfl, rfl, rfl, rfl, rfl⟩ := hx
    rw [actionOf, portsetOp, hu.gr, hu.gr, if_neg (by omega), if_neg hmask]
    refine htimed htop ?_
    rw [hu.gr, hu.gr]
  | cMark e' a b t =>
    simp only [timedAction, Option.some.injEq, Prod.mk.injEq] at hx
    obtain ⟨rfl, rfl, rfl, rfl, rfl⟩ := hx
    rw [actionOf, markOp]
    refine htimed htop ?_
    rw [hu.gr]
  | cArm e' a b c t =>
    simp only [timedAction, Option.some.injEq, Prod.mk.injEq] at hx
    obtain ⟨rfl, rfl, rfl, rfl, rfl⟩ := hx
    rw [actionOf, armOp]
    refine htimed htop ?_
    rw [hu.gr, hu.gr]
  | cDisarm e' a t =>
    simp only [timedAction, Option.some.injEq, Prod.mk.injEq] at hx
    obtain ⟨rfl, rfl, rfl, rfl, rfl⟩ := hx
    rw [actionOf, disarmOp]
    exact htimed htop rfl
  | _ => cases hx

/-- A timed action runs the instruction that `actionOf` names. -/
theorem exec_timed {x : Instr} {k : TReg} {target top : ℕ} {kind : ActKind} {ws : List Word}
    (hx : timedAction s x = some (e, k, target, top, kind)) (hws : celilWords x = some ws) :
    exec x s = .next (runCelil e ws (actionOf x) s) ∧ ∃ w, ws = [w] := by
  cases x with
  | cPhase | cPortset | cMark | cArm | cDisarm =>
    obtain rfl := Option.some.inj hws
    simp only [timedAction, Option.ite_none_left_eq_some, Option.some.injEq, Prod.mk.injEq] at hx
    first
    | obtain ⟨rfl, -⟩ := hx
      exact ⟨rfl, _, rfl⟩
    | obtain ⟨-, rfl, -⟩ := hx
      exact ⟨rfl, _, rfl⟩
  | _ => cases hx

theorem mayPost_cache (hu : SameButCache s u) (h : MayPost e s) : MayPost e u := by
  obtain ⟨_, _, _, rfl⟩ := hu
  exact ⟨h.count, h.room⟩

theorem item_cache (hu : SameButCache s u) (q n : ℕ) : u.item q n = s.item q n := by
  obtain ⟨_, _, _, rfl⟩ := hu
  rfl

theorem posted_cache (hu : SameButCache s u) (q n : ℕ) (k : TReg) (i : Item) (kind : ActKind) : posted u e q n k i kind = posted s e q n k i kind := by
  rw [posted, posted, State.tr_cache s u hu, eng_cache hu]

/-- An engine that waits for nothing, after it has posted an action and gone on. -/
theorem postedEng_ran {a : Action} {z : Eng} (hwait : z.wait = none) :
    { postedEng a z with lines := [] } = { z with staged := z.staged ++ [a], nact := z.nact + 1, lines := [] } := by
  cases z
  cases hwait
  rfl

theorem timedAction_complete {x : Instr} {k : TReg} {target top q n : ℕ} {kind : ActKind} {i : Item} {ws : List Word}
    (hx : timedAction s x = some (e, k, target, top, kind)) (htop : target ≤ top) (hws : celilWords x = some ws)
    (hfetch : s.fetches e ws = true) (hnact : (s.eng e).nact < 4096) (hload : s.stagingLoad < 65536)
    (hheld : (s.eng e).held = some (q, n)) (hitem : s.item q n = some i) :
    ∃ t, exec x s = .next t ∧ OnlyEngine e s t ∧ t.pc e = s.pc e + 4 ∧
      t.eng e = { s.eng e with
        staged := (s.eng e).staged ++ [posted s e q n k i kind], nact := (s.eng e).nact + 1, lines := [] } := by
  obtain ⟨hexec, w, rfl⟩ := exec_timed hx hws
  obtain ⟨u, hu, hrun⟩ := runCelil_one e w (actionOf x) s hfetch
  have hwait := fetches_wait e _ s hfetch
  rw [actionOf_timed hx htop ⟨State.gr_cache s u hu e, State.tr_cache s u hu e⟩ (mayPost_cache hu ⟨hnact, hload⟩),
    postAction_eq (by rw [eng_cache hu, hheld]) (by rw [item_cache hu, hitem]), posted_cache hu, eng_cache hu] at hrun
  obtain ⟨honly, hpc, heng⟩ := onlyEngine_advance hu (z := postedEng (posted s e q n k i kind) (s.eng e)) rfl (pc_room hfetch)
  exact ⟨_, hexec.trans (congrArg _ hrun), honly, hpc, heng.trans (postedEng_ran hwait)⟩

/-! ### HOP -/

theorem hopOp_posts {a b : GReg} {k : TReg} {c m : ℕ} (hc : c = (u.gr e a).toNat) (hm : m = (u.gr e b).toNat) (hcmax : c ≤ 63)
    (hmmax : m ≤ 16383) (hgood : u.ctxInvalid m = false) (hctx : ctxRefused c (u.ctxWords m) = false) (h : MayPost e u) :
    hopOp e a b k u = postAction e (.hop c m (captureCtx u (u.ctxWords m) (tickOf (u.tr e k))).1) (u.tr e k)
      ((sramFix (128 * m) 128 u).store (128 * m)
        ((captureCtx u (u.ctxWords m) (tickOf (u.tr e k))).2.flatMap fun w => leBytes 4 w.toNat)) := by
  rw [hopOp]
  rw [← hc, ← hm, if_neg (by simp; omega), hgood, if_neg Bool.false_ne_true, hctx, if_neg Bool.false_ne_true, actionGate_open h, hopNow, ← hc, ← hm]

/-- The bytes of words in a row. -/
theorem getD_words (ws : List Word) {j i : ℕ} (hj : j < ws.length) (hi : i < 4) :
    (ws.flatMap fun w => leBytes 4 w.toNat).getD (4 * j + i) 0 = BitVec.ofNat 8 ((ws.getD j 0).toNat / 256 ^ i) := by
  induction ws generalizing j with
  | nil => simp at hj
  | cons w ws ih =>
    have hlen : (leBytes 4 w.toNat).length = 4 := by simp [leBytes]
    rw [List.flatMap_cons]
    cases j with
    | zero =>
      rw [List.getD_append _ _ _ _ (by rw [hlen]; omega)]
      simp [leBytes, hi]
    | succ j =>
      rw [List.getD_append_right _ _ _ _ (by rw [hlen]; omega), hlen, show 4 * (j + 1) + i - 4 = 4 * j + i by omega,
        ih (by simpa using hj), List.getD_cons_succ]

theorem length_words (ws : List Word) : (ws.flatMap fun w => leBytes 4 w.toNat).length = 4 * ws.length := by
  induction ws with
  | nil => rfl
  | cons w ws ih =>
    rw [List.flatMap_cons, List.length_append, ih, List.length_cons]
    simp [leBytes]
    omega

/-- Four bytes spell the word that they are of. -/
theorem word_of_bytes {a : ℕ} {w : Word} (h : ∀ i < 4, s.byte (a + i) = BitVec.ofNat 8 (w.toNat / 256 ^ i)) : s.word a = w := by
  have hb : s.bytesAt a 4 = leBytes 4 w.toNat := by
    simp only [State.bytesAt, leBytes]
    exact List.map_congr_left fun i hi => h i (List.mem_range.mp hi)
  apply BitVec.eq_of_toNat_eq
  have hlt := w.isLt
  rw [State.word, hb]
  simp [leBytes, List.range_succ, leNat]
  omega

/-- A word of those that a store has written. -/
theorem word_store {a j : ℕ} {ws : List Word} (hj : j < ws.length) :
    (s.store a (ws.flatMap fun w => leBytes 4 w.toNat)).word (a + 4 * j) = ws.getD j 0 := by
  refine word_of_bytes fun i hi => ?_
  rw [byte_store, length_words, if_pos (by omega), show a + 4 * j + i - a = 4 * j + i by omega, getD_words ws hj hi]

theorem ctxWords_length (m : ℕ) : (s.ctxWords m).length = 32 := by simp [State.ctxWords]

theorem captureCtx_length (ws : List Word) (n : ℕ) : (captureCtx s ws n).2.length = ws.length := by
  unfold captureCtx
  dsimp only
  split
  · simp
  · split <;> simp

/-- Without phase memory the table counts the use, and keeps the rest. -/
theorem captureCtx_plain {ws : List Word} {n : ℕ} (hmode : ctxPmMode ws ≠ 1) : (captureCtx s ws n).2 = ws.set 12 (ctxAt ws 12 + 1) := by
  have hmode' : ctxPmMode (ws.set 12 (ctxAt ws 12 + 1)) ≠ 1 := by
    rwa [ctxPmMode, ctxAt, List.getD_eq_getElem?_getD, List.getElem?_set_ne (by decide), ← List.getD_eq_getElem?_getD, ← ctxAt, ← ctxPmMode]
  simp only [captureCtx, hmode', decide_false, Bool.false_and, Bool.false_eq_true, if_false]

theorem captureCtx_cache (hu : SameButCache s u) (ws : List Word) (n : ℕ) : captureCtx u ws n = captureCtx s ws n := by
  obtain ⟨_, _, _, rfl⟩ := hu
  rfl

theorem ctxWords_cache (hu : SameButCache s u) (m : ℕ) : u.ctxWords m = s.ctxWords m := by
  obtain ⟨_, _, _, rfl⟩ := hu
  rfl

theorem hop_complete {a b : GReg} {k : TReg} {q n c m : ℕ} {i : Item} (hc : c = (s.gr e a).toNat) (hm : m = (s.gr e b).toNat)
    (hcmax : c ≤ 63) (hmmax : m ≤ 16383) (hgood : s.ctxInvalid m = false) (hctx : ctxRefused c (s.ctxWords m) = false)
    (hfetch : s.fetches e [encA 0x23 a b 0 k 0] = true) (hnact : (s.eng e).nact < 4096) (hload : s.stagingLoad < 65536)
    (hheld : (s.eng e).held = some (q, n)) (hitem : s.item q n = some i) :
    ∃ t, exec (.cHop e a b k) s = .next t ∧ t.pc e = s.pc e + 4 ∧
      t.eng e = { s.eng e with
        staged := (s.eng e).staged ++
          [posted s e q n k i (.hop c m (captureCtx s (s.ctxWords m) (tickOf (s.tr e k))).1)]
        nact := (s.eng e).nact + 1, lines := [] } ∧
      (∀ x, x < 128 * m ∨ 128 * m + 128 ≤ x → t.byte x = s.byte x) ∧
      (∀ y, y ≠ RegId.ENG_PC.at e → t.reg y = s.reg y) ∧
      (ctxPmMode (s.ctxWords m) ≠ 1 →
        ∀ j < 32, t.word (128 * m + 4 * j) = if j = 12 then s.word (128 * m + 48) + 1 else s.word (128 * m + 4 * j)) := by
  obtain ⟨u, hu, hrun⟩ := runCelil_one e (encA 0x23 a b 0 k 0) (hopOp e a b k) s hfetch
  have hexec : exec (.cHop e a b k) s = .next (runCelil e [encA 0x23 a b 0 k 0] (hopOp e a b k) s) := rfl
  have hwait := fetches_wait e _ s hfetch
  rw [hopOp_posts (by rw [State.gr_cache s u hu, hc]) (by rw [State.gr_cache s u hu, hm]) hcmax hmmax (by rw [ctxInvalid_cache hu, hgood])
    (by rw [ctxWords_cache hu, hctx]) (mayPost_cache hu ⟨hnact, hload⟩), ctxWords_cache hu, captureCtx_cache hu, State.tr_cache s u hu] at hrun
  have hsame := hu.trans (sramFix_same (128 * m) 128 u)
  generalize sramFix (128 * m) 128 u = w at *
  have hlen : ((captureCtx s (s.ctxWords m) (tickOf (s.tr e k))).2.flatMap fun w => leBytes 4 w.toNat).length = 128 := by
    rw [length_words, captureCtx_length, ctxWords_length]
  have hwords (hmode : ctxPmMode (s.ctxWords m) ≠ 1) (j : ℕ) (hj : j < 32) :
      (w.store (128 * m) ((captureCtx s (s.ctxWords m) (tickOf (s.tr e k))).2.flatMap fun w => leBytes 4 w.toNat)).word (128 * m + 4 * j) =
        if j = 12 then s.word (128 * m + 48) + 1 else s.word (128 * m + 4 * j) := by
    rw [word_store (by rw [captureCtx_length, ctxWords_length]; exact hj), captureCtx_plain hmode, List.getD_eq_getElem?_getD]
    split
    · next h =>
      subst h
      rw [List.getElem?_set_self (by rw [ctxWords_length]; decide)]
      simp [ctxAt, State.ctxWords]
    · next h =>
      rw [List.getElem?_set_ne (Ne.symm h)]
      simp [State.ctxWords, hj]
  have hout (x : ℕ) (hx : x < 128 * m ∨ 128 * m + 128 ≤ x) :
      (w.store (128 * m) ((captureCtx s (s.ctxWords m) (tickOf (s.tr e k))).2.flatMap fun w => leBytes 4 w.toNat)).byte x = s.byte x := by
    rw [byte_store, hlen, if_neg (by omega), State.byte, mem_cache hsame, State.byte]
  obtain ⟨ls, mm, bad, wk, cc, hy⟩ := sameButStored_store hsame (128 * m)
    ((captureCtx s (s.ctxWords m) (tickOf (s.tr e k))).2.flatMap fun w => leBytes 4 w.toNat)
  generalize w.store (128 * m) ((captureCtx s (s.ctxWords m) (tickOf (s.tr e k))).2.flatMap fun w => leBytes 4 w.toNat) = y at *
  have heng : ∀ k, y.eng k = s.eng k := fun k => by rw [hy]; rfl
  have hpcy : y.pc e = s.pc e := State.get_congr (by rw [hy]) ..
  have htr : y.tr e k = s.tr e k := by rw [State.tr, State.tr, heng]
  have hitemy : y.item q n = some i := by rw [← hitem, hy]; rfl
  have hposted (kind : ActKind) : posted y e q n k i kind = posted s e q n k i kind := by rw [posted, posted, htr, heng]
  rw [postAction_of_tr htr (by rw [heng, hheld]) hitemy, hposted, heng] at hrun
  obtain ⟨-, hme, hregs, hpc', es, rs, hrest⟩ := advance_spec (n := 1) (e := e)
    (y := y.setEng e (postedEng (posted s e q n k i (.hop c m (captureCtx s (s.ctxWords m) (tickOf (s.tr e k))).1)) (s.eng e)))
    (by rw [State.eng_setEng, if_pos rfl]; rfl) (by rw [pc_setEng, hpcy]; exact pc_room hfetch)
  rw [State.eng_setEng, if_pos rfl, postedEng_ran hwait] at hme
  rw [pc_setEng, hpcy] at hpc'
  refine ⟨_, hexec.trans (congrArg _ hrun), hpc', hme, fun x hx => ?_, fun b hb => ?_, fun hmode j hj => ?_⟩
  · rw [hrest]
    exact hout x hx
  · rw [hregs b hb, State.reg_setEng_keep]
    exact State.reg_congr (by rw [hy]) b
  · rw [hrest]
    exact hwords hmode j hj

/-! ### Actions that had found the staging store full (R14) -/

/-- The actions staged at the engines of a map. -/
def stagedIn (m : SMap Eng) : ℕ := (m.map fun e => e.2.staged.length).sum

theorem stagingLoad_eq : s.stagingLoad = s.rel.length + stagedIn s.engines := by
  rw [State.stagingLoad, stagedIn, List.sum_eq_foldl]

theorem stagedIn_place (k : ℕ) (v : Eng) (m : SMap Eng) : stagedIn (SMap.place k v m) = v.staged.length + stagedIn m := by
  induction m with
  | nil => rfl
  | cons x m ih =>
    rw [SMap.place]
    split
    · simp [stagedIn]
    · simp only [stagedIn, List.map_cons, List.sum_cons] at ih ⊢
      omega

theorem stagedIn_filter (k : ℕ) (m : SMap Eng) :
    stagedIn (m.filter fun e => e.1 ≠ k) + (SMap.get (fun _ => ({} : Eng)) m k).staged.length ≤ stagedIn m := by
  induction m with
  | nil => exact Nat.le_refl 0
  | cons x m ih =>
    have hcons (y : ℕ × Eng) (l : SMap Eng) : stagedIn (y :: l) = y.2.staged.length + stagedIn l := by simp [stagedIn]
    obtain ⟨j, v⟩ := x
    rw [SMap.get, hcons]
    by_cases hj : k = j
    · subst hj
      rw [if_pos rfl, List.filter_cons_of_neg (by simp)]
      dsimp only
      omega
    · rw [if_neg hj, List.filter_cons_of_pos (by simpa using Ne.symm hj), hcons]
      omega

theorem stagingLoad_congr {t : State} (hrel : t.rel = s.rel) (heng : t.engines = s.engines) : t.stagingLoad = s.stagingLoad := by
  rw [State.stagingLoad, State.stagingLoad, hrel, heng]

/-- An engine that stages what it did adds nothing to the staging store. -/
theorem stagingLoad_setEng {z : Eng} (hz : z.staged = (s.eng e).staged) : (s.setEng e z).stagingLoad ≤ s.stagingLoad := by
  have hfilter := stagedIn_filter e s.engines
  have hset : stagedIn (SMap.set (fun _ => ({} : Eng)) s.engines e z) ≤ stagedIn s.engines := by
    rw [SMap.set]
    split
    · omega
    · rw [stagedIn_place, hz]
      exact (Nat.add_comm _ _).trans_le hfilter
  rw [stagingLoad_eq, stagingLoad_eq]
  exact Nat.add_le_add_left hset _

/-- A change of an engine's state is a change of its account of time and of its field. -/
theorem setEngState_eq (st : ℕ) : ∃ w z,
    setEngState e st s = ((s.setWide (aENG_BUSY e) w).setEng e z).put ENG_STAT.STATE st e ∧ z.staged = (s.eng e).staged := ⟨_, _, rfl, rfl⟩

theorem reg_setEngState (st : ℕ) {y : ℕ} (hy : y ≠ RegId.ENG_STAT.at e) : (setEngState e st s).reg y = s.reg y := by
  obtain ⟨w, z, heq, -⟩ := setEngState_eq (s := s) (e := e) st
  rw [heq]
  exact (State.reg_put _ _ _ _ _ _ hy).trans (State.reg_setEng_keep ..)

theorem stagingLoad_setEngState (st : ℕ) : (setEngState e st s).stagingLoad ≤ s.stagingLoad := by
  obtain ⟨w, z, heq, hz⟩ := setEngState_eq (s := s) (e := e) st
  rw [heq, stagingLoad_congr (State.put_rel ..) (State.put_engines ..)]
  exact stagingLoad_setEng (s := s.setWide (aENG_BUSY e) w) hz

/-- The state in which a stalled engine runs its instruction again. -/
def unstalled (e : ℕ) (s : State) : State := setEngState e esRun (s.setEng e { s.eng e with wait := none })

theorem unstalled_spec : SameButTimes { s.eng e with wait := none } ((unstalled e s).eng e) ∧ (unstalled e s).engState e = esRun ∧
    (unstalled e s).pc e = s.pc e ∧ (∀ y, y ≠ RegId.ENG_STAT.at e → (unstalled e s).reg y = s.reg y) ∧
    (unstalled e s).stagingLoad ≤ s.stagingLoad ∧
    Frame (.join [.ofParts [.engines, .wide], .ofRegs [.ENG_STAT]]) s (unstalled e s) := by
  obtain ⟨heng, hstate, hpc, -⟩ := setEngState_spec e esRun (s.setEng e { s.eng e with wait := none })
  rw [State.eng_setEng, if_pos rfl] at heng
  refine ⟨heng, hstate, hpc.trans (pc_setEng ..), fun y hy => ?_, ?_, .setEngState (.setEng .refl)⟩
  · exact (reg_setEngState _ hy).trans (State.reg_setEng_keep ..)
  · exact (stagingLoad_setEngState _).trans (stagingLoad_setEng rfl)

/-- An engine that posts an action where it stands, and goes on. -/
theorem posted_run {a : Action} {y : State} : ∃ t, dropLines e (advance e 1 (y.setEng e (postedEng a (y.eng e)))) = t ∧
    t.engState e = y.engState e ∧ t.pc e = (y.pc e + 4) % 2 ^ 32 ∧ t.eng e = { postedEng a (y.eng e) with lines := [] } ∧
    ∀ b, b ≠ RegId.ENG_PC.at e → t.reg b = y.reg b := by
  have hset : (y.setEng e (postedEng a (y.eng e))).eng e = postedEng a (y.eng e) := by rw [State.eng_setEng, if_pos rfl]
  have hpc := pc_setEng y e e (postedEng a (y.eng e))
  have hstate : (y.setEng e (postedEng a (y.eng e))).engState e = y.engState e :=
    State.get_setEng_keep ..
  have hreg (b : ℕ) : (y.setEng e (postedEng a (y.eng e))).reg b = y.reg b := State.reg_setEng_keep ..
  generalize y.setEng e (postedEng a (y.eng e)) = w at *
  have hkeep : (advance e 1 w).eng e = w.eng e := State.eng_put_keep w ENG_PC.PC (w.pc e + 4 * 1) e 0 e
  have hstate' : (advance e 1 w).engState e = w.engState e := by
    rw [State.engState, advance, setPc, State.get_put_fam _ _ _ _ _ _ _ _ (by decide), ← State.engState]
  have hpc' : (advance e 1 w).pc e = (w.pc e + 4) % 2 ^ 32 := by rw [advance, pc_setPc]
  have hreg' (b : ℕ) (hb : b ≠ RegId.ENG_PC.at e) : (advance e 1 w).reg b = w.reg b := reg_setPc _ _ _ _ hb
  generalize advance e 1 w = x at *
  have hwait : (x.eng e).wait = none := by rw [hkeep, hset]; rfl
  refine ⟨_, rfl, ?_, ?_, ?_, fun b hb => ?_⟩
  · rw [dropLines_none _ _ hwait, ← hstate, ← hstate']
    exact State.get_setEng_keep ..
  · rw [dropLines_none _ _ hwait, pc_setEng, hpc', hpc]
  · rw [dropLines_none _ _ hwait, State.eng_setEng, if_pos rfl, hkeep, hset]
  · rw [dropLines_none _ _ hwait, State.reg_setEng_keep, hreg' b hb, hreg]

/-- What a stalled action leaves once it has been posted. -/
def Resumed (r : Res) (s : State) (e : EngineIx) (a : Action) : Prop :=
  ∃ t, r = .next t ∧ t.engState e = esRun ∧ t.pc e = (s.pc e + 4) % 2 ^ 32 ∧
    (t.eng e).staged = (s.eng e).staged ++ [a] ∧ (t.eng e).wait = none ∧ (∀ j, t.gr e j = s.gr e j) ∧
    ∀ y, y ≠ RegId.ENG_PC.at e → y ≠ RegId.ENG_STAT.at e → t.reg y = s.reg y

theorem resumed_of_post {a : Action} {y : State} (heng : y.eng e = (unstalled e s).eng e) (hregs : y.regs = (unstalled e s).regs) :
    Resumed (.next (dropLines e (advance e 1 (y.setEng e (postedEng a (y.eng e)))))) s e a := by
  obtain ⟨hsame, hstate, hpc, hkeep, -⟩ := unstalled_spec (s := s) (e := e)
  obtain ⟨t, ht, hstate', hpc', heng', hkeep'⟩ := posted_run (e := e) (a := a) (y := y)
  have hg : ((unstalled e s).eng e).g = (s.eng e).g := by rw [hsame]
  have hst : ((unstalled e s).eng e).staged = (s.eng e).staged := by rw [hsame]
  refine ⟨t, congrArg _ ht, ?_, ?_, ?_, ?_, fun j => ?_, fun b hb hb' => ?_⟩
  · rw [hstate', ← hstate]
    exact State.get_congr hregs ..
  · rw [hpc', ← hpc]
    exact congrArg (fun x => (x + 4) % 2 ^ 32) (State.get_congr hregs ..)
  · rw [heng', heng]
    exact congrArg (· ++ [a]) hst
  · rw [heng']
    rfl
  · rw [State.gr, State.gr, heng', heng, ← hg]
    rfl
  · rw [hkeep' b hb, ← hkeep b hb']
    exact State.reg_congr hregs b

theorem exec_resume {x : Instr} (hwait : (s.eng e).wait = some (.staging x)) (hdown : s.cdDown = false) (hstall : s.engState e = esStall)
    (hload : s.stagingLoad < 65536) : exec (.stagingStallResume e) s = .next (dropLines e (actionOf x (unstalled e s))) := by
  change execStagingStallResume e s = _
  rw [execStagingStallResume, hwait]
  dsimp only
  rw [if_neg (by simp [hdown, hstall]; omega)]
  rfl

theorem stalledActionsResume : Claims.StalledActionsResume := by
  intro x s e q n i hwait hdown hstall hnact hload hheld hitem
  have hexec := exec_resume hwait hdown hstall hload
  obtain ⟨hsame, -, -, -, hroom, hframe⟩ := unstalled_spec (s := s) (e := e)
  have hgr (k : ℕ) : (unstalled e s).gr e k = s.gr e k := by rw [State.gr, State.gr, hsame]
  have htr (k : ℕ) : (unstalled e s).tr e k = s.tr e k := by rw [State.tr, State.tr, hsame]
  have hmay : MayPost e (unstalled e s) := ⟨by rw [hsame]; exact hnact, hroom.trans_lt hload⟩
  have hheld' : ((unstalled e s).eng e).held = some (q, n) := by rw [hsame]; exact hheld
  have hitem' : (unstalled e s).item q n = some i := by rw [State.item, hframe.queue]; exact hitem
  have hn : ((unstalled e s).eng e).nact = (s.eng e).nact := by rw [hsame]
  have hposted {y : State} (k : TReg) (kind : ActKind) (hy : y.eng e = (unstalled e s).eng e) : posted y e q n k i kind = posted s e q n k i kind := by
    rw [posted, posted, ← htr, State.tr, State.tr, hy, hn]
  refine ⟨fun k target top kind hx htop => ?_, fun a b k c m hx hc hm hcmax hmmax hgood hctx => ?_⟩
  · have hrun := actionOf_timed hx htop ⟨hgr, htr⟩ hmay
    rw [postAction_eq hheld' hitem', hposted k kind rfl] at hrun
    rw [hexec, hrun]
    exact resumed_of_post rfl rfl
  · subst hx
    have hwords : (unstalled e s).ctxWords m = s.ctxWords m := by simp only [State.ctxWords, State.word, State.bytesAt, State.byte, hframe.mem]
    have hinvalid : (unstalled e s).ctxInvalid m = s.ctxInvalid m := by
      rw [State.ctxInvalid, State.ctxInvalid, State.bankLost, State.bankLost, hframe.get, State.anyBad, State.anyBad,
        show (unstalled e s).ctxBad = s.ctxBad from hframe.part .ctxBad (by decide),
        show (unstalled e s).badWords = s.badWords from hframe.part .badWords (by decide)]
    have hcapture (ws : List Word) (j : ℕ) : captureCtx (unstalled e s) ws j = captureCtx s ws j := by
      simp only [captureCtx, hframe.get (f := PM_GEN.GEN), hframe.isSet (f := TB_STAT.EPOCH_SET)]
    have hrun : actionOf (.cHop e a b k) (unstalled e s) = _ := hopOp_posts (u := unstalled e s) (k := k) (by rw [hgr, hc]) (by rw [hgr, hm])
      hcmax hmmax (by rw [hinvalid, hgood]) (by rw [hwords, hctx]) hmay
    rw [hwords, hcapture, htr] at hrun
    have hfix := sramFix_same (128 * m) 128 (unstalled e s)
    generalize sramFix (128 * m) 128 (unstalled e s) = w at *
    obtain ⟨ls, mm, bad, wk, cc, hy⟩ := sameButStored_store hfix (128 * m)
      ((captureCtx s (s.ctxWords m) (tickOf (s.tr e k))).2.flatMap fun w => leBytes 4 w.toNat)
    generalize w.store (128 * m) ((captureCtx s (s.ctxWords m) (tickOf (s.tr e k))).2.flatMap fun w => leBytes 4 w.toNat) = y at *
    have heng : y.eng e = (unstalled e s).eng e := by rw [hy]; rfl
    have hitemy : y.item q n = some i := by
      rw [← hitem', hy]
      rfl
    have htry : y.tr e k = s.tr e k := by rw [← htr, State.tr, State.tr, heng]
    rw [postAction_of_tr htry (by rw [heng, hheld']) hitemy, hposted k _ heng] at hrun
    rw [hexec, hrun]
    exact resumed_of_post heng (by rw [hy])

/-- Settles O15: an instruction that the limits let through posts one action, at once or after its stall. -/
theorem timedActionsComplete : Obligations.TimedActionsComplete := by
  unfold Obligations.TimedActionsComplete
  refine ⟨?_, stalledActionsResume⟩
  unfold Claims.TimedActionsComplete
  exact ⟨fun _ _ _ _ _ _ _ _ _ _ _ => timedAction_complete, fun _ _ _ _ _ _ _ _ _ _ => hop_complete⟩

end

end Sys2Proof.Proofs

/-! ## Completion steps and fences (R195, R199, R203, R231, R241, R242) -/

namespace Sys2Proof.Proofs

set_option Elab.async false

open Sys2Proof Sys2Proof.Machine Sys2Proof.Claims

section

variable {s u w : State} {e : EngineIx} {q n : ℕ} {i : Item}

/-! ### Released actions (R12) -/

theorem item_editItem {f : Item → Item} (hf : ∀ j, (f j).seq = j.seq) (hi : s.item q n = some i) : (editItem q n f s).item q n = some (f i) := by
  have hseq : i.seq = n := by simpa using List.find?_some hi
  have hkey (j : Item) : (if j.seq == n then f j else j).seq = j.seq := by
    split
    · exact hf j
    · rfl
  rw [State.item, editItem, State.queue_setQueue, if_pos rfl]
  dsimp only
  rw [List.find?_map]
  have hcomp : ((fun j : Item => j.seq == n) ∘ fun j => if j.seq == n then f j else j) = fun j : Item => j.seq == n := by
    funext j
    simp only [Function.comp_apply, hkey]
  rw [hcomp, ← State.item, hi]
  simp [hseq]

/-- The item once `k` of its actions are released, of `m` posted. -/
def releasedItem (k m : ℕ) (i : Item) : Item := { i with out := i.out + k, relN := max i.relN m }

/-- The release mark of queue `q` at the chiplet of a released action (R12). -/
def markReleased (q : ℕ) (a : Machine.Action) (s : State) : State :=
  let c := s.chip a.kind.chip
  let m := SMap.get (fun _ => 0) c.relMarks q
  s.setChip a.kind.chip { c with relMarks := SMap.set (fun _ => 0) c.relMarks q (max m (markOf a.seq a.idx)) }

theorem releaseStaged_spec (hheld : (u.eng e).held = some (q, n)) (hitem : u.item q n = some i) (hok : i.aborted = false) :
    (∀ k, (releaseStaged e u).eng k = if k = e then { u.eng e with staged := [] } else u.eng k) ∧
      (releaseStaged e u).item q n = some (releasedItem (u.eng e).staged.length (u.eng e).nact i) ∧
      (releaseStaged e u).rel = u.rel ++ (u.eng e).staged ∧
      Frame (.ofParts [.engines, .queues, .chips, .rel]) u (releaseStaged e u) := by
  have hsetitem : (u.setEng e { u.eng e with staged := [] }).item q n = some i := hitem
  have hloop (l : List Machine.Action) (y : State) : Frame (.ofParts [.chips]) y (forList l (markReleased q) y) :=
    .forList (fun _ _ h => .setChip h) .refl
  have heq : releaseStaged e u = { forList (u.eng e).staged (markReleased q)
        (editItem q n (releasedItem (u.eng e).staged.length (u.eng e).nact) (u.setEng e { u.eng e with staged := [] })) with
      rel := (forList (u.eng e).staged (markReleased q)
        (editItem q n (releasedItem (u.eng e).staged.length (u.eng e).nact) (u.setEng e { u.eng e with staged := [] }))).rel ++
          (u.eng e).staged } := by
    unfold releaseStaged
    dsimp only
    split
    · next h =>
      rw [hheld] at h
      cases h
    · next q' n' h =>
      rw [hheld] at h
      cases h
      split
      · next j hj =>
        have hji : u.item q n = some j := hj
        rw [hitem] at hji
        cases hji
        rw [hok, if_neg Bool.false_ne_true]
        rfl
      · next hnone => exact absurd (hitem.symm.trans hnone) (by simp)
  have hset (k : ℕ) := State.eng_setEng u e { u.eng e with staged := [] } k
  have hsetf : Frame (.ofParts [.engines]) u (u.setEng e { u.eng e with staged := [] }) := .setEng .refl
  have hrel : (u.setEng e { u.eng e with staged := [] }).rel = u.rel := rfl
  generalize u.setEng e { u.eng e with staged := [] } = v at *
  have hedit := item_editItem (f := releasedItem (u.eng e).staged.length (u.eng e).nact) (fun _ => rfl) hsetitem
  have heditf : Frame (.ofParts [.queues]) v (editItem q n (releasedItem (u.eng e).staged.length (u.eng e).nact) v) := .editItem .refl
  generalize editItem q n (releasedItem (u.eng e).staged.length (u.eng e).nact) v = x at *
  have hl := hloop (u.eng e).staged x
  generalize forList (u.eng e).staged (markReleased q) x = y at *
  rw [heq]
  refine ⟨fun k => ?_, ?_, ?_, ?_⟩
  · rw [← hset k, ← heditf.eng, ← hl.eng]
    rfl
  · rw [← hedit, State.item, State.item, ← hl.queue]
    rfl
  · rw [show y.rel = u.rel from (hl.part .rel (by decide)).trans ((heditf.part .rel (by decide)).trans hrel)]
  · exact (((hsetf.mono (by decide)).trans (heditf.mono (by decide))).trans (hl.mono (by decide))).trans (.withRel .refl)

/-! ### An engine that becomes free (R195, R213) -/

/-- Where an engine goes that is free. -/
theorem freed_engState : (dropLines e (engineFree e w)).engState e = if w.engOn e then esIdle else esOff := by
  obtain ⟨y, hy, hfree⟩ : ∃ y : State, Frame (.join [.ofParts [.queues, .engines], .ofRegs [.ENG_PC]]) w y ∧
      engineFree e w = checkStarveAll (setEngState e (if y.engOn e then esIdle else esOff) y) := by
    refine ⟨_, ?_, rfl⟩
    refine .put (.setEng ?_)
    split
    · exact .mono (v := Frame.Scope.queueOpens) (.queueOpens .refl) (by decide)
    · exact .refl
  have hon : y.engOn e = w.engOn e := by
    rw [State.engOn, State.engOn, hy.isSet, State.frozen, State.frozen, show y.parBad = w.parBad from hy.part .parBad (by decide)]
  obtain ⟨-, hstate, -⟩ := setEngState_spec e (if y.engOn e then esIdle else esOff) y
  have hframe : FaultFrame e [QD_STAT.STARVED] (setEngState e (if y.engOn e then esIdle else esOff) y) (dropLines e (engineFree e w)) := by
    rw [hfree]
    exact .dropLines (.checkStarveAll (by decide) .refl)
  rw [State.engState, hframe.fields _ (by decide)]
  refine hstate.trans ?_
  rw [hon]
  split <;> rfl

/-- What a completion step leaves of engine `e` (R195, R213). -/
def Freed (e : EngineIx) (s t : State) : Prop :=
  t.engState e = (if s.isSet ENG_CFG.EN e && !s.frozen (RegId.ENG_CFG.at e) then esIdle else esOff) ∧ t.pc e = 0 ∧
    (∀ k, t.gr e k = 0) ∧ (∀ k, t.tr e k = 0) ∧ (t.eng e).held = none ∧ (t.eng e).staged = [] ∧
    (∀ k, t.scratchByte e k = s.scratchByte e k) ∧ ∀ k, k ≠ e → t.eng k = s.eng k

theorem freed_spec (hon : w.engOn e = s.engOn e) (hscratch : (w.eng e).scratch = (s.eng e).scratch) (hother : ∀ k, k ≠ e → w.eng k = s.eng k) :
    Freed e s (dropLines e (engineFree e w)) := by
  have hclear := freed_cleared e w
  have hframe : FaultFrame e [ENG_PC.PC, ENG_STAT.STATE, QD_STAT.STARVED] w (dropLines e (engineFree e w)) :=
    .dropLines (.engineFree (by decide) (by decide) (by decide) .refl)
  refine ⟨?_, freed_pc .., fun k => ?_, fun k => ?_, ?_, ?_, fun k => ?_, fun k hk => ?_⟩
  · rw [freed_engState, hon]
    rfl
  · rw [State.gr, ← hclear]
    split <;> rfl
  · rw [State.tr, ← hclear]
    rfl
  · rw [← hclear]
    rfl
  · rw [← hclear]
    rfl
  · rw [State.scratchByte, State.scratchByte, hframe.scratch, hscratch]
  · rw [hframe.engines k (Fin.val_ne_of_ne hk), hother k hk]

/-- What an engine that becomes free leaves beside itself: items, memory and released actions. -/
theorem freed_keeps : (∀ q n, (dropLines e (engineFree e w)).item q n = w.item q n) ∧ (dropLines e (engineFree e w)).mem = w.mem ∧
    (dropLines e (engineFree e w)).rel = w.rel := by
  have hf : Frame (.join [Frame.Scope.engineFree, Frame.Scope.dropLines]) w (dropLines e (engineFree e w)) := .dropLines (.engineFree .refl)
  exact ⟨(SameItems.dropLines (.engineFree .refl)).item, hf.mem, hf.part .rel (by decide)⟩

/-! ### ACK and NACK (R231) -/

/-- The item that a completion step ends. -/
def endedItem (code posted : ℕ) (i : Item) : Item := { i with st := .ended, code := code, nact := posted }

theorem endHandler_ends {code : ℕ} {b : Bool} (hheld : (u.eng e).held = some (q, n)) (hw : (if b then releaseStaged e u else u) = w)
    (hitem : w.item q n = some i) (hon : w.engOn e = u.engOn e) (hscratch : (w.eng e).scratch = (u.eng e).scratch)
    (hother : ∀ k, k ≠ e → w.eng k = u.eng k) :
    Freed e u (dropLines e (endHandler e code b u)) ∧ (dropLines e (endHandler e code b u)).rel = w.rel ∧
      (dropLines e (endHandler e code b u)).mem = w.mem ∧
      (dropLines e (endHandler e code b u)).item q n = some (endedItem code (u.eng e).nact i) := by
  have heq : endHandler e code b u = engineFree e ((editItem q n (endedItem code (u.eng e).nact) w).bump ENG_CNT.ITEMS e) := by
    unfold endHandler
    rw [hheld]
    dsimp only
    rw [hw]
    rfl
  have hedit := item_editItem (f := endedItem code (u.eng e).nact) (fun _ => rfl) hitem
  have hx : Frame (.join [.ofParts [.queues], .ofRegs [.ENG_CNT]]) w ((editItem q n (endedItem code (u.eng e).nact) w).bump ENG_CNT.ITEMS e) :=
    .bump (.editItem .refl)
  have hxi : ((editItem q n (endedItem code (u.eng e).nact) w).bump ENG_CNT.ITEMS e).item q n = some (endedItem code (u.eng e).nact i) := by
    rw [← hedit, State.item, State.item, State.queue_bump_keep]
  rw [heq]
  generalize (editItem q n (endedItem code (u.eng e).nact) w).bump ENG_CNT.ITEMS e = x at *
  obtain ⟨hitems, hmem, hrel⟩ := freed_keeps (e := e) (w := x)
  refine ⟨freed_spec ?_ ?_ fun k hk => ?_, ?_, ?_, ?_⟩
  · rw [← hon, State.engOn, State.engOn, hx.isSet, State.frozen, State.frozen, show x.parBad = w.parBad from hx.part .parBad (by decide)]
  · rw [hx.eng, hscratch]
  · rw [hx.eng, hother k hk]
  · exact hrel.trans (hx.part .rel (by decide))
  · exact hmem.trans hx.mem
  · rw [hitems, hxi]

theorem Freed.of_cache {t : State} (hu : SameButCache s u) (h : Freed e u t) : Freed e s t := by
  obtain ⟨_, _, _, rfl⟩ := hu
  exact h

theorem endCode_cache (hu : SameButCache s u) (c : EndCode) : endCode u e c = codeOf s e c := by
  cases c with
  | imm n => rfl
  | reg a => rw [endCode, State.gr_cache s u hu]; rfl

theorem released_engOn (hf : Frame (.ofParts [.engines, .queues, .chips, .rel]) u w) : w.engOn e = u.engOn e := by
  rw [State.engOn, State.engOn, hf.isSet, State.frozen, State.frozen, show w.parBad = u.parBad from hf.part .parBad (by decide)]

theorem ack_complete (hheld : (s.eng e).held = some (q, n)) (hitem : s.item q n = some i) (hok : i.aborted = false) {c : EndCode}
    (hfetch : s.fetches e [encEnd 0x1A c] = true) : ∃ t, exec (.cAck e c) s = .next t ∧ Freed e s t ∧ t.rel = s.rel ++ (s.eng e).staged ∧
      t.mem = s.mem ∧ t.item q n = some { i with
        st := .ended, code := codeOf s e c, nact := (s.eng e).nact, out := i.out + (s.eng e).staged.length
        relN := max i.relN (s.eng e).nact } := by
  obtain ⟨u, hu, hrun⟩ := runCelil_one e (encEnd 0x1A c) (fun s => endHandler e (endCode s e c) true s) s hfetch
  have hheldu : (u.eng e).held = some (q, n) := by rw [eng_cache hu, hheld]
  obtain ⟨heng, hitemw, hrel, hf⟩ := releaseStaged_spec hheldu (by rw [item_cache hu, hitem]) hok
  obtain ⟨hfreed, hrel', hmem', hitem'⟩ := endHandler_ends (code := codeOf s e c) (b := true) hheldu rfl hitemw (released_engOn hf)
    (by rw [if_pos rfl, heng, if_pos rfl]) fun k hk => by rw [if_pos rfl, heng, if_neg (Fin.val_ne_of_ne hk)]
  rw [endCode_cache hu] at hrun
  refine ⟨_, congrArg Host.Outcome.next hrun, hfreed.of_cache hu, ?_, ?_, ?_⟩
  · refine hrel'.trans (hrel.trans ?_)
    rw [eng_cache hu]
    obtain ⟨_, _, _, rfl⟩ := hu
    rfl
  · exact hmem'.trans (hf.mem.trans (mem_cache hu))
  · rw [hitem', eng_cache hu]
    rfl

theorem nack_complete (hheld : (s.eng e).held = some (q, n)) (hitem : s.item q n = some i) {c : EndCode}
    (hfetch : s.fetches e [encEnd 0x1B c] = true) : ∃ t, exec (.cNack e c) s = .next t ∧ Freed e s t ∧ t.rel = s.rel ∧
      t.mem = s.mem ∧ t.item q n = some { i with st := .ended, code := 0x40 + codeOf s e c, nact := (s.eng e).nact } := by
  obtain ⟨u, hu, hrun⟩ := runCelil_one e (encEnd 0x1B c) (fun s => endHandler e (0x40 + endCode s e c) false s) s hfetch
  obtain ⟨hfreed, hrel', hmem', hitem'⟩ := endHandler_ends (code := 0x40 + codeOf s e c) (b := false) (u := u) (w := u)
    (by rw [eng_cache hu, hheld]) rfl (by rw [item_cache hu, hitem]) rfl rfl fun _ _ => rfl
  rw [endCode_cache hu] at hrun
  refine ⟨_, congrArg Host.Outcome.next hrun, hfreed.of_cache hu, ?_, ?_, ?_⟩
  · refine hrel'.trans ?_
    obtain ⟨_, _, _, rfl⟩ := hu
    rfl
  · exact hmem'.trans (mem_cache hu)
  · rw [hitem', eng_cache hu]
    rfl

/-! ### YIELD (R242) -/

theorem yield_complete (hheld : (s.eng e).held = some (q, n)) (hitem : s.item q n = some i) (hok : i.aborted = false) {a : GReg}
    (hfetch : s.fetches e [encI 0x2B 0 a 0] = true) : ∃ t, exec (.cYield e a) s = .next t ∧ Freed e s t ∧
      t.rel = s.rel ++ (s.eng e).staged ∧ (t.queue q).items.head? = some { i with
        st := if (s.gr e a).toNat % 2 ^ 32 = 0 then .waiting else .yielded (s.clock + (s.gr e a).toNat % 2 ^ 32)
        since := s.clock, eligAt := s.clock, out := i.out + (s.eng e).staged.length, relN := max i.relN (s.eng e).nact } ∧
      (∀ x, x < 0x00200000 ∨ 0x01400000 ≤ x → t.byte x = s.byte x) := by
  obtain ⟨u, hu, hrun⟩ := runCelil_one e _ _ s hfetch
  have hheldu : (u.eng e).held = some (q, n) := by rw [eng_cache hu, hheld]
  obtain ⟨heng, hitemw, hrel, hf⟩ := releaseStaged_spec hheldu (by rw [item_cache hu, hitem]) hok
  have hexec : exec (.cYield e a) s = _ := congrArg Host.Outcome.next hrun
  dsimp only at hexec
  rw [hheldu] at hexec
  dsimp only at hexec
  rw [State.gr_cache s u hu] at hexec
  have hclock : (releaseStaged e u).clock = s.clock := by
    rw [hf.clock]
    obtain ⟨_, _, _, rfl⟩ := hu
    rfl
  have hon := released_engOn (e := e) hf
  have hmem := hf.mem
  have hrel' : (releaseStaged e u).rel = s.rel ++ (s.eng e).staged := by
    rw [hrel, eng_cache hu]
    obtain ⟨_, _, _, rfl⟩ := hu
    rfl
  rw [eng_cache hu] at hitemw
  generalize releaseStaged e u = w at *
  have hhead := head_returnItem hitemw fun i => { i with
    st := if (s.gr e a).toNat % 2 ^ 32 = 0 then .waiting else .yielded (w.clock + (s.gr e a).toNat % 2 ^ 32) }
  have hret (f : Item → Item) : FaultFrame e [ENG_CNT.ITEMS] w ((returnItem q n f w).bump ENG_CNT.ITEMS e) :=
    .bump (by decide) (.returnItem .refl)
  have hpar (f : Item → Item) : Frame (.join [Frame.Scope.returnItem, .ofRegs [.ENG_CNT]]) w ((returnItem q n f w).bump ENG_CNT.ITEMS e) :=
    .bump (.returnItem .refl)
  have hq (f : Item → Item) : ((returnItem q n f w).bump ENG_CNT.ITEMS e).queue q = (returnItem q n f w).queue q := State.queue_bump_keep ..
  replace hret := hret fun i => { i with
    st := if (s.gr e a).toNat % 2 ^ 32 = 0 then .waiting else .yielded (w.clock + (s.gr e a).toNat % 2 ^ 32) }
  replace hpar := hpar fun i => { i with
    st := if (s.gr e a).toNat % 2 ^ 32 = 0 then .waiting else .yielded (w.clock + (s.gr e a).toNat % 2 ^ 32) }
  rw [← hq, hclock] at hhead
  dsimp only at hexec hret hpar hhead
  rw [hclock] at hexec hret hpar
  generalize State.bump _ ENG_CNT.ITEMS e 0 1 = x at *
  refine ⟨_, hexec, .of_cache hu (freed_spec ?_ ?_ fun k hk => ?_), ?_, ?_, fun b hb => ?_⟩
  · rw [← hon, State.engOn, State.engOn, hpar.isSet, State.frozen, State.frozen, show x.parBad = w.parBad from hpar.part .parBad (by decide)]
  · rw [hret.scratch, heng, if_pos rfl]
  · rw [hret.engines k (Fin.val_ne_of_ne hk), heng, if_neg (Fin.val_ne_of_ne hk)]
  · rw [freed_keeps.2.2, hret.rel, hrel']
  · rw [(SameItems.dropLines (.engineFree .refl) q).1, hhead]
    rfl
  · rw [State.byte, freed_keeps.2.1, ← State.byte, hret.bytes b hb, State.byte, hmem, mem_cache hu, State.byte]

/-! ### Fences (R203, R241) -/

theorem fenceStatus_eq (hheld : (w.eng e).held = some (q, n)) (hitem : w.item q n = some i) :
    w.fenceStatus e = if i.out = 0 && !w.verdictDue q n then some ((i.hw.map (·.1)).getD 0) else none := by
  rw [State.fenceStatus, heldItem_eq hheld hitem, hheld]
  rfl

theorem put_regs_congr {f : Fld} {v x y : ℕ} (h : w.regs = s.regs) : (w.put f v x y).regs = (s.put f v x y).regs := by
  have hr : w.reg (f.reg.at x y) = s.reg (f.reg.at x y) := State.reg_congr h _
  rw [State.put, State.put, hr, State.setReg, State.setReg, h]

theorem fence_complete (hheld : (s.eng e).held = some (q, n)) (hitem : s.item q n = some i) (hok : i.aborted = false)
    (hfetch : s.fetches e [encI 0x2A 0 0 0] = true) : ∃ t, exec (.cFence e) s = .next t ∧ t.rel = s.rel ++ (s.eng e).staged ∧
      (t.eng e).staged = [] ∧ t.pc e = s.pc e + 4 ∧ (∀ k, t.gr e k = s.gr e k) ∧ t.mem = s.mem ∧
      t.regs = (setPc e (s.pc e + 4) s).regs := by
  obtain ⟨u, hu, hrun⟩ := runCelil_one e _ _ s hfetch
  have hheldu : (u.eng e).held = some (q, n) := by rw [eng_cache hu, hheld]
  obtain ⟨heng, -, hrel, hf⟩ := releaseStaged_spec hheldu (by rw [item_cache hu, hitem]) hok
  have hrelu : u.rel = s.rel := by
    obtain ⟨_, _, _, rfl⟩ := hu
    rfl
  have hregs : (releaseStaged e u).regs = s.regs := (hf.part .regs (by decide)).trans (by obtain ⟨_, _, _, rfl⟩ := hu; rfl)
  have hmem := hf.mem
  have heng' := heng e
  rw [if_pos rfl, eng_cache hu] at heng'
  rw [eng_cache hu, hrelu] at hrel
  have hexec : exec (.cFence e) s = _ := congrArg Host.Outcome.next hrun
  generalize releaseStaged e u = w at *
  have hpcw : w.pc e = s.pc e := State.get_congr hregs ..
  have hwait : (w.eng e).wait = none := by
    rw [heng']
    exact fetches_wait e _ s hfetch
  obtain ⟨-, hme, -, hpc, es, rs, hrest⟩ := advance_spec (n := 1) (e := e) hwait (by rw [hpcw]; exact pc_room hfetch)
  refine ⟨_, hexec, ?_, ?_, by rw [hpc, hpcw], fun k => ?_, ?_, ?_⟩
  · rw [hrest]
    exact hrel
  · rw [hme, heng']
  · rw [State.gr, State.gr, hme, heng']
  · rw [hrest]
    exact hmem.trans (mem_cache hu)
  · have hkeep : ((advance e 1 w).eng e).wait = none := by
      rw [← hwait]
      exact congrArg Eng.wait (State.eng_put_keep w ENG_PC.PC (w.pc e + 4 * 1) e 0 e)
    rw [dropLines_none _ _ hkeep, State.setEng_regs, advance, hpcw]
    exact put_regs_congr hregs

/-- FENCE.W of an item that its actions or a verdict still concern. -/
theorem fenceW_waits (hheld : (s.eng e).held = some (q, n)) (hitem : s.item q n = some i) (hok : i.aborted = false) {d : GReg}
    (hfetch : s.fetches e [encI 0x2A d 0 1] = true) (hdue : 0 < i.out + (s.eng e).staged.length ∨ s.verdictDue q n = true) :
    ∃ t, exec (.cFenceW e d) s = .next t ∧ t.rel = s.rel ++ (s.eng e).staged ∧ (t.eng e).wait = some (.fence d) ∧
      t.engState e = esRun ∧ t.pc e = s.pc e ∧ (∀ k, t.gr e k = s.gr e k) ∧ t.mem = s.mem := by
  obtain ⟨u, hu, hrun⟩ := runCelil_one e _ _ s hfetch
  have hheldu : (u.eng e).held = some (q, n) := by rw [eng_cache hu, hheld]
  obtain ⟨heng, hitemw, hrel, hf⟩ := releaseStaged_spec hheldu (by rw [item_cache hu, hitem]) hok
  have hrelu : u.rel = s.rel := by
    obtain ⟨_, _, _, rfl⟩ := hu
    rfl
  have hregs : (releaseStaged e u).regs = s.regs := (hf.part .regs (by decide)).trans (by obtain ⟨_, _, _, rfl⟩ := hu; rfl)
  have hver : (releaseStaged e u).verdicts = s.verdicts := (hf.part .verdicts (by decide)).trans (by obtain ⟨_, _, _, rfl⟩ := hu; rfl)
  have hmem := hf.mem
  have heng' := heng e
  rw [if_pos rfl, eng_cache hu] at heng'
  rw [eng_cache hu, hrelu] at hrel
  rw [eng_cache hu] at hitemw
  have hexec : exec (.cFenceW e d) s = _ := congrArg Host.Outcome.next hrun
  dsimp only at hexec
  generalize releaseStaged e u = w at *
  have hstatus : w.fenceStatus e = none := by
    rw [fenceStatus_eq (by rw [heng', hheld]) hitemw, State.verdictDue, hver, if_neg]
    rw [State.verdictDue] at hdue
    rintro hboth
    obtain ⟨hout, hno⟩ := Bool.and_eq_true_iff.mp hboth
    rcases hdue with hdue | hdue
    · have hz : i.out + (s.eng e).staged.length = 0 := of_decide_eq_true hout
      omega
    · rw [hdue] at hno
      cases hno
  rw [hstatus] at hexec
  dsimp only at hexec
  have hset : (w.setEng e { w.eng e with wait := some (.fence d) }).eng e = { w.eng e with wait := some (.fence d) } := by
    rw [State.eng_setEng, if_pos rfl]
  rw [dropLines_spec (fun off load h => by rw [hset] at h; cases h), hset] at hexec
  have hrun' : s.engState e = esRun := by
    simp only [State.fetches, State.canRun, Bool.and_eq_true, beq_iff_eq] at hfetch
    exact hfetch.1.1.2
  refine ⟨_, hexec, hrel, ?_, ?_, ?_, fun k => ?_, hmem.trans (mem_cache hu)⟩
  · rw [State.eng_setEng, if_pos rfl]
  · rw [← hrun', State.engState, State.get_setEng_keep, State.get_setEng_keep]
    exact State.get_congr hregs ..
  · rw [pc_setEng, pc_setEng]
    exact State.get_congr hregs ..
  · rw [State.gr, State.gr, State.eng_setEng, if_pos rfl, heng']

theorem fenceW_settled (hheld : (s.eng e).held = some (q, n)) (hitem : s.item q n = some i) (hok : i.aborted = false) {d : GReg}
    (hfetch : s.fetches e [encI 0x2A d 0 1] = true) (hout : i.out = 0) (hver : s.verdictDue q n = false) (hstaged : (s.eng e).staged = []) :
    ∃ t, exec (.cFenceW e d) s = .next t ∧ WroteG e d (BitVec.ofNat 64 ((i.hw.map (·.1)).getD 0)) s t ∧ t.rel = s.rel ∧
      t.pc e = s.pc e + 4 ∧ (t.eng e).wait = none ∧ t.mem = s.mem := by
  obtain ⟨u, hu, hrun⟩ := runCelil_one e _ _ s hfetch
  have hheldu : (u.eng e).held = some (q, n) := by rw [eng_cache hu, hheld]
  obtain ⟨heng, hitemw, hrel, hf⟩ := releaseStaged_spec hheldu (by rw [item_cache hu, hitem]) hok
  have hrelu : u.rel = s.rel := by
    obtain ⟨_, _, _, rfl⟩ := hu
    rfl
  have hregs : (releaseStaged e u).regs = s.regs := (hf.part .regs (by decide)).trans (by obtain ⟨_, _, _, rfl⟩ := hu; rfl)
  have hver' : (releaseStaged e u).verdicts = s.verdicts := (hf.part .verdicts (by decide)).trans (by obtain ⟨_, _, _, rfl⟩ := hu; rfl)
  have hmem := hf.mem
  have heng' := heng e
  rw [if_pos rfl, eng_cache hu] at heng'
  rw [eng_cache hu, hrelu, hstaged, List.append_nil] at hrel
  rw [eng_cache hu] at hitemw
  have hexec : exec (.cFenceW e d) s = _ := congrArg Host.Outcome.next hrun
  dsimp only at hexec
  generalize releaseStaged e u = w at *
  have hstatus : w.fenceStatus e = some ((i.hw.map (·.1)).getD 0) := by
    rw [fenceStatus_eq (by rw [heng', hheld]) hitemw, State.verdictDue, hver', ← State.verdictDue, hver, if_pos]
    · rfl
    · simp [releasedItem, hout, hstaged]
  rw [hstatus] at hexec
  dsimp only at hexec
  have hwait : (w.eng e).wait = none := by
    rw [heng']
    exact fetches_wait e _ s hfetch
  have hpcw : w.pc e = s.pc e := State.get_congr hregs ..
  obtain ⟨honly, hwrote, hwent⟩ := writeOn_spec e d 1 (BitVec.ofNat 64 ((i.hw.map (·.1)).getD 0)) w hwait (by rw [hpcw]; exact pc_room hfetch)
  obtain ⟨es, rs, ls, wk, c, hrest⟩ := honly.rest
  refine ⟨_, hexec, fun k => (hwrote k).trans ?_, ?_, hwent.pc.trans (by rw [hpcw]), ?_, ?_⟩
  · rw [State.gr, State.gr, heng']
  · exact (congrArg State.rel hrest).trans hrel
  · exact (congrArg Eng.wait hwent.engine).trans hwait
  · exact (congrArg State.mem hrest).trans (hmem.trans (mem_cache hu))

theorem fenceWResume_complete (hheld : (s.eng e).held = some (q, n)) (hitem : s.item q n = some i) {d : GReg}
    (hwait : (s.eng e).wait = some (.fence d)) (hdown : s.cdDown = false) (hout : i.out = 0) (hver : s.verdictDue q n = false) :
    ∃ t, exec (.fenceWResume e) s = .next t ∧ WroteG e d (BitVec.ofNat 64 ((i.hw.map (·.1)).getD 0)) s t ∧
      t.pc e = (s.pc e + 4) % 2 ^ 32 ∧ (t.eng e).wait = none ∧ t.rel = s.rel ∧ t.mem = s.mem := by
  have hexec : exec (.fenceWResume e) s = .next (writeNext e d (BitVec.ofNat 64 ((i.hw.map (·.1)).getD 0))
      (s.setEng e { s.eng e with wait := none, lines := [] })) := by
    change execFenceWResume e s = _
    rw [execFenceWResume, hwait]
    dsimp only
    rw [fenceStatus_eq hheld hitem, hver, if_pos (by simp [hout]), hdown]
    rfl
  have hset : (s.setEng e { s.eng e with wait := none, lines := [] }).eng e = { s.eng e with wait := none, lines := [] } := by
    rw [State.eng_setEng, if_pos rfl]
  have hpc := pc_setEng s e e { s.eng e with wait := none, lines := [] }
  have hy : Frame (.ofParts [.engines]) s (s.setEng e { s.eng e with wait := none, lines := [] }) := .setEng .refl
  generalize s.setEng e { s.eng e with wait := none, lines := [] } = y at *
  have hw : Frame Frame.Scope.writeNext y (writeNext e d (BitVec.ofNat 64 ((i.hw.map (·.1)).getD 0)) y) := .writeNext .refl
  have hkeep (k : ℕ) (x : State) : (advance e 1 x).eng k = x.eng k := State.eng_put_keep x ENG_PC.PC (x.pc e + 4 * 1) e 0 k
  refine ⟨_, hexec, fun k => ?_, ?_, ?_, (hw.part .rel (by decide)).trans (hy.part .rel (by decide)), hw.mem.trans hy.mem⟩
  · rw [State.gr, writeNext, hkeep, ← State.gr, gr_setGr, State.gr, State.gr, hset]
  · rw [writeNext, advance, pc_setPc, ← hpc]
    exact congrArg (fun x => (x + 4 * 1) % 2 ^ 32) (get_setGr ..)
  · rw [writeNext, hkeep, eng_setGr, if_pos rfl, hset]

/-- Settles O14: a completion step edits its item and frees its engine; a fence releases what is staged, and its status is the item's. -/
theorem acknowledgesAndFencesComplete : Obligations.AcknowledgesAndFencesComplete := by
  unfold Obligations.AcknowledgesAndFencesComplete
  refine ⟨?_, ?_⟩
  · unfold Claims.CompletionStepsComplete
    exact fun _ _ _ _ _ hheld hitem hok => ⟨fun _ => ack_complete hheld hitem hok, fun _ => nack_complete hheld hitem,
      fun _ => yield_complete hheld hitem hok⟩
  · unfold Claims.FencesComplete
    exact fun _ _ _ _ _ _ hheld hitem hok => ⟨fence_complete hheld hitem hok, fenceW_settled hheld hitem hok,
      fenceW_waits hheld hitem hok, fenceWResume_complete hheld hitem⟩

end

end Sys2Proof.Proofs

/-! ## Takes and submissions by an engine (R182, R189, R193, R194, R229, R230) -/

namespace Sys2Proof.Proofs

set_option Elab.async false

open Sys2Proof Sys2Proof.Machine Sys2Proof.Claims

section

variable {s t u w : State} {e : EngineIx} {q n r : ℕ} {i j : Item}

/-! ### Parity rows (R27) -/

/-- Whether row `r` of bank 9 is the XOR of the rows of the pool's banks. -/
def ParityGood (s : State) (r : ℕ) : Prop := s.bytesAt (parityAddr r) 16 = s.parityRow r

/-- Rows modulo the pool's rows have the same entries and the same parity. -/
theorem parityRow_mod (s : State) (r : ℕ) : s.parityRow r = s.parityRow (r % 2 ^ 17) := by
  have haddr (k : ℕ) : entryAddr (8 * r + k) = entryAddr (8 * (r % 2 ^ 17) + k) := by
    unfold entryAddr
    congr 2
    omega
  simp only [State.parityRow, haddr]

theorem parityAddr_mod (r : ℕ) : parityAddr r = parityAddr (r % 2 ^ 17) := by
  unfold parityAddr
  omega

/-- The parity of a row rests on the entries alone. -/
theorem parityRow_congr (h : ∀ a < 0x01200000, t.byte a = s.byte a) (r : ℕ) : t.parityRow r = s.parityRow r := by
  unfold State.parityRow
  refine List.map_congr_left fun b hb => ?_
  have hb' := List.mem_range.mp hb
  refine congrArg (fun f => (List.range 8).foldl f (0 : Byte)) ?_
  funext x k
  rw [h]
  unfold entryAddr
  omega

theorem parityRow_length (s : State) (r : ℕ) : (s.parityRow r).length = 16 := by simp [State.parityRow]

theorem byte_writeParity (r a : ℕ) (s : State) : (writeParity r s).byte a =
    if parityAddr r ≤ a ∧ a < parityAddr r + 16 then (s.parityRow r).getD (a - parityAddr r) 0 else s.byte a := by
  rw [writeParity, byte_store, parityRow_length]

theorem byte_writeParity_data {a : ℕ} (ha : a < 0x01200000) : (writeParity r s).byte a = s.byte a := by
  rw [byte_writeParity, if_neg]
  unfold parityAddr
  omega

theorem parityRow_writeParity (k r : ℕ) (s : State) : (writeParity k s).parityRow r = s.parityRow r :=
  parityRow_congr (fun _ ha => byte_writeParity_data ha) r

theorem parityGood_writeParity (r : ℕ) (s : State) : ParityGood (writeParity r s) r := by
  rw [ParityGood, parityRow_writeParity]
  apply List.ext_getElem
  · rw [parityRow_length]
    simp [State.bytesAt]
  · intro b hb hb'
    have hlt : b < 16 := by rwa [parityRow_length] at hb'
    simp only [State.bytesAt, List.getElem_map, List.getElem_range]
    rw [byte_writeParity, if_pos (by omega), Nat.add_sub_cancel_left]
    simp [hb']

/-- A row that is good stays so when a row's parity is written: another's, or its own. -/
theorem parityGood_of_good (h : ParityGood s r) (k : ℕ) : ParityGood (writeParity k s) r := by
  by_cases hk : k % 2 ^ 17 = r % 2 ^ 17
  · have haddr : parityAddr k = parityAddr r := by rw [parityAddr_mod k, hk, ← parityAddr_mod]
    have hrow : (writeParity k s).parityRow k = (writeParity k s).parityRow r := by rw [parityRow_mod _ k, hk, ← parityRow_mod]
    rw [ParityGood, ← haddr, ← hrow]
    exact parityGood_writeParity k s
  · rw [ParityGood, parityRow_writeParity, ← h]
    unfold State.bytesAt
    refine List.map_congr_left fun b hb => ?_
    have hb' := List.mem_range.mp hb
    rw [byte_writeParity, if_neg]
    unfold parityAddr
    omega

/-! ### The entries of an item in memory (R182, R189) -/

/-- The rows whose parity goes with an item's entries. -/
def itemRows (i : Item) : List ℕ := ((List.range (i.bytes.length / 16 + 1)).map fun k => (i.entry + min k (i.bytes.length / 16 - 1)) / 8).dedup

theorem mem_itemRows : r ∈ itemRows i ↔ rowOfItem i r := by
  unfold itemRows rowOfItem
  rw [List.mem_dedup, List.mem_map]
  constructor
  · rintro ⟨k, hk, rfl⟩
    exact ⟨min k (i.bytes.length / 16 - 1), by have := List.mem_range.mp hk; omega, rfl⟩
  · rintro ⟨m, hm, rfl⟩
    exact ⟨m, List.mem_range.mpr (by omega), by congr 2; omega⟩

theorem forList_cons {α : Type} (f : α → State → State) (x : α) (l : List α) (s : State) : forList (x :: l) f s = forList l f (f x s) := rfl

/-- The parity of some rows is written: the entries stay, no other byte of parity changes, and the rows are good. -/
theorem writeParities_spec (l : List ℕ) (s : State) : (∀ a < 0x01200000, (forList l writeParity s).byte a = s.byte a) ∧
    (∀ a, (∀ r ∈ l, a < parityAddr r ∨ parityAddr r + 16 ≤ a) → (forList l writeParity s).byte a = s.byte a) ∧
    (∀ r, r ∈ l ∨ ParityGood s r → ParityGood (forList l writeParity s) r) := by
  induction l generalizing s with
  | nil => exact ⟨fun _ _ => rfl, fun _ _ => rfl, fun r hr => hr.resolve_left (by simp)⟩
  | cons k l ih =>
    obtain ⟨hdata, hrest, hgood⟩ := ih (writeParity k s)
    rw [forList_cons]
    refine ⟨?_, ?_, ?_⟩
    · intro a ha
      rw [hdata a ha, byte_writeParity_data ha]
    · intro a ha
      refine (hrest a fun r hr => ha r (List.mem_cons_of_mem _ hr)).trans ?_
      rw [byte_writeParity, if_neg]
      have := ha k List.mem_cons_self
      omega
    · intro r hr
      have hr' : r ∈ l ∨ ParityGood (writeParity k s) r := by
        rcases hr with hr | hr
        · rcases List.mem_cons.mp hr with rfl | hr
          · exact .inr (parityGood_writeParity r s)
          · exact .inl hr
        · exact .inr (parityGood_of_good hr k)
      exact hgood r hr'

theorem mirrorItem_eq (i : Item) (s : State) : mirrorItem i s = forList (itemRows i) writeParity (s.store (entryAddr i.entry) i.bytes) := rfl

/-- What writing an item's entries leaves of memory. -/
theorem mirrorItem_spec (i : Item) (s : State) :
    (∀ a, a < 0x01200000 ∨ (∀ r, rowOfItem i r → a < parityAddr r ∨ parityAddr r + 16 ≤ a) → (mirrorItem i s).byte a =
      if entryAddr i.entry ≤ a ∧ a < entryAddr i.entry + i.bytes.length then i.bytes.getD (a - entryAddr i.entry) 0 else s.byte a) ∧
    (∀ r, rowOfItem i r → ParityGood (mirrorItem i s) r) ∧
    (∀ r, ParityGood s r → apart i (entryAddr (8 * r)) 128 → apart i (parityAddr r) 16 → ParityGood (mirrorItem i s) r) := by
  obtain ⟨hdata, hrest, hgood⟩ := writeParities_spec (itemRows i) (s.store (entryAddr i.entry) i.bytes)
  rw [mirrorItem_eq]
  refine ⟨fun a ha => ?_, fun r hr => hgood r (.inl (mem_itemRows.mpr hr)), fun r hr hentry hpar => hgood r (.inr ?_)⟩
  · rw [← byte_store]
    rcases ha with ha | ha
    · exact hdata a ha
    · exact hrest a fun r hr => ha r (mem_itemRows.mp hr)
  · have hrow : (s.store (entryAddr i.entry) i.bytes).parityRow r = s.parityRow r := by
      unfold State.parityRow
      refine List.map_congr_left fun b hb => ?_
      have hb' := List.mem_range.mp hb
      refine List.foldl_ext _ _ _ fun x k hk => ?_
      have hk' := List.mem_range.mp hk
      have haddr : entryAddr (8 * r + k) = entryAddr (8 * r) + 16 * k := by
        unfold entryAddr
        omega
      unfold apart at hentry
      rw [haddr, byte_store, if_neg (by omega)]
    rw [ParityGood, hrow, ← hr]
    unfold State.bytesAt
    refine List.map_congr_left fun b hb => ?_
    have hb' := List.mem_range.mp hb
    unfold apart at hpar
    rw [byte_store, if_neg (by omega)]

/-! ### Acceptance (R182, R189) -/

/-- The item that queue `q` accepts in the entries from `entry` on. -/
def acceptedItem (s : State) (q : ℕ) (late : Bool) (body : List Dword) (entry : ℕ) (cmpl : Bool := false) : Item :=
  { seq := (s.queue q).nextSeq, late := late, cmpl := cmpl, size := s.qItemSize q, body := body, since := s.clock, eligAt := s.clock, entry := entry }

/-- The state in which an acceptance writes the item's entries. -/
def acceptQueued (q : ℕ) (i : Item) (s : State) : State :=
  (((s.free 20).2.setQueue q { s.queue q with items := (s.queue q).items ++ [i], nextSeq := (s.queue q).nextSeq + 1 }).bump
    QD_STAT.LEVEL q 0 (s.qEntries q))

theorem acceptQueued_spec (q : ℕ) (i : Item) (s : State) : (acceptQueued q i s).mem = s.mem ∧
    ((acceptQueued q i s).queue q).items = (s.queue q).items ++ [i] ∧ ((acceptQueued q i s).queue q).nextSeq = (s.queue q).nextSeq + 1 ∧
    ∀ k, k ≠ q → (acceptQueued q i s).queue k = s.queue k := by
  have hq (k : ℕ) : (acceptQueued q i s).queue k =
      if k = q then { s.queue q with items := (s.queue q).items ++ [i], nextSeq := (s.queue q).nextSeq + 1 } else s.queue k :=
    (State.queue_bump_keep ..).trans (State.queue_setQueue ..)
  have hmem : Frame (.join [.ofParts [.freeCtr, .queues], .ofRegs [.QD_STAT]]) s (acceptQueued q i s) := .bump (.setQueue (.free .refl))
  refine ⟨hmem.mem, ?_, ?_, fun k hk => ?_⟩
  · rw [hq, if_pos rfl]
  · rw [hq, if_pos rfl]
  · rw [hq, if_neg hk]

theorem acceptItem_eq (q : ℕ) (late cmpl : Bool) (body : List Dword) (s : State) : ∃ slot,
    let j := acceptedItem s q late body (slotEntry (s.queue q).blocks (s.qEntries q) slot) cmpl
    let t := mirrorItem j (acceptQueued q j s)
    acceptItem q late cmpl body s = checkStarve q (t.setWide aQM_ACCEPTED ((t.wideAt aQM_ACCEPTED + 1) % 2 ^ 64)) := by
  obtain ⟨slot, hslot⟩ : ∃ slot, (s.free 20).2.freeSlot q (s.free 20).1 = slotEntry (s.queue q).blocks (s.qEntries q) slot := ⟨_, rfl⟩
  refine ⟨slot, ?_⟩
  rw [← hslot]
  rfl

theorem acceptItem_spec (q : ℕ) (late cmpl : Bool) (body : List Dword) (s : State) : ∃ slot,
    let j := acceptedItem s q late body (slotEntry (s.queue q).blocks (s.qEntries q) slot) cmpl
    SameItems (acceptQueued q j s) (acceptItem q late cmpl body s) ∧
      (acceptItem q late cmpl body s).mem = (mirrorItem j (acceptQueued q j s)).mem := by
  obtain ⟨slot, heq⟩ := acceptItem_eq q late cmpl body s
  refine ⟨slot, ?_, ?_⟩
  · rw [heq]
    exact .checkStarve (.setWide (.pool (mirrorItem_poolOnly ..) .refl))
  · rw [heq]
    generalize mirrorItem _ _ = y
    have hf : Frame (.join [.ofParts [.wide], Frame.Scope.checkStarve]) y (checkStarve q (y.setWide aQM_ACCEPTED ((y.wideAt aQM_ACCEPTED + 1) % 2 ^ 64))) :=
      .checkStarve (.setWide .refl)
    exact hf.mem

/-- A submission that a queue accepts. -/
theorem submitS_accepts {k cls size : ℕ} {late : Bool} {body : List Dword} (h : accepts s k cls size) :
    submitS k cls size late body s = (0, (s.queue k).nextSeq, acceptItem k late false body s) := by
  obtain ⟨hacc, hquar, hsubmit, hen, hdrain, hfrozen, hsize, hseq, hroom⟩ := h
  unfold submitS
  rw [hacc, if_neg Bool.false_ne_true, if_neg (by simp [hquar, hsubmit]), hen, hdrain, hfrozen, if_neg (by simp), if_neg (by simp [hsize]),
    if_neg (by omega), if_neg (by omega)]

/-- An item written again after a change. -/
theorem rewriteItem_eq {f : Item → Item} (hf : ∀ j, (f j).seq = j.seq) (hi : s.item q n = some i) :
    rewriteItem q n f s = mirrorItem (f i) (editItem q n f s) := by
  rw [rewriteItem, item_editItem hf hi]

theorem queue_editItem (f : Item → Item) (k : ℕ) : (editItem q n f s).queue k =
    if k = q then { s.queue q with items := (s.queue q).items.map fun i => if i.seq == n then f i else i } else s.queue k :=
  State.queue_setQueue ..

/-! ### The submission of a PUT (R194, R230) -/

/-- An item with its count of PUTs. -/
def withPuts (n : ℕ) (i : Item) : Item := { i with puts := n }

theorem length_bytes_withPuts (m : ℕ) (i : Item) : (withPuts m i).bytes.length = i.bytes.length := by
  simp [Item.bytes, leBytes, withPuts]

theorem rowOfItem_withPuts (m : ℕ) : rowOfItem (withPuts m i) r ↔ rowOfItem i r := by
  unfold rowOfItem
  rw [length_bytes_withPuts]
  rfl

theorem apart_withPuts (m a len : ℕ) : apart (withPuts m i) a len ↔ apart i a len := by
  unfold apart
  rw [length_bytes_withPuts]
  rfl

/-- The item found in a queue stays the one found when another stands behind it. -/
theorem item_acceptQueued {k : ℕ} (hi : s.item q n = some i) : (acceptQueued k j s).item q n = some i := by
  obtain ⟨-, hitems, -, hother⟩ := acceptQueued_spec k j s
  rw [State.item] at hi ⊢
  by_cases hk : q = k
  · subst hk
    rw [hitems, List.find?_append, hi]
    rfl
  · rw [hother q hk, hi]

/-- The queues after a PUT: the new item stands last in its queue, and the held one has its count of PUTs. -/
structure PutQueues (s t : State) (k hq hn m : ℕ) (i j : Item) : Prop where
  next : (t.queue k).nextSeq = (s.queue k).nextSeq + 1
  length : (t.queue k).items.length = (s.queue k).items.length + 1
  held : t.item hq hn = some (withPuts m i)
  last : (t.queue k).items.getLast? = some (if hq = k ∧ hn = j.seq then withPuts m j else j)

/-- The memory after a PUT: the new item's bytes, the held one's, and their parity rows. -/
structure PutMemory (s t : State) (i j : Item) : Prop where
  bytes : ∀ a < 0x01200000, apart i a 1 → entryAddr j.entry ≤ a → a < entryAddr j.entry + j.bytes.length →
    t.byte a = j.bytes.getD (a - entryAddr j.entry) 0
  heldRows : ∀ r, rowOfItem i r → ParityGood t r
  newRows : ∀ r, rowOfItem j r → apart i (entryAddr (8 * r)) 128 → apart i (parityAddr r) 16 → ParityGood t r
  rest : ∀ a, apart j a 1 → apart i a 1 → (∀ r, rowOfItem i r ∨ rowOfItem j r → a < parityAddr r ∨ parityAddr r + 16 ≤ a) → t.byte a = s.byte a

theorem parityGood_congr (h : t.mem = s.mem) : ParityGood t r ↔ ParityGood s r := by
  simp only [ParityGood, State.bytesAt, State.parityRow, State.byte, h]

theorem accept_rewrite {k hq hn m : ℕ} {late : Bool} {body : List Dword} (hi : s.item hq hn = some i) : ∃ slot,
    let j := acceptedItem s k late body (slotEntry (s.queue k).blocks (s.qEntries k) slot)
    PutQueues s (rewriteItem hq hn (withPuts m) (acceptItem k late false body s)) k hq hn m i j ∧
      PutMemory s (rewriteItem hq hn (withPuts m) (acceptItem k late false body s)) i j := by
  obtain ⟨slot, hsame, hmem⟩ := acceptItem_spec k late false body s
  refine ⟨slot, ?_⟩
  dsimp only at hsame hmem ⊢
  generalize acceptedItem s k late body (slotEntry (s.queue k).blocks (s.qEntries k) slot) = j at *
  generalize acceptItem k late false body s = x at *
  obtain ⟨hqmem, hqitems, hqnext, hqother⟩ := acceptQueued_spec k j s
  have hxi : x.item hq hn = some i := by rw [hsame.item, item_acceptQueued hi]
  rw [rewriteItem_eq (f := withPuts m) (fun _ => rfl) hxi]
  have hedit := item_editItem (f := withPuts m) (fun _ => rfl) hxi
  have hqueue := queue_editItem (s := x) (q := hq) (n := hn) (withPuts m)
  have hemem : (editItem hq hn (withPuts m) x).mem = x.mem := (show Frame (.ofParts [.queues]) x (editItem hq hn (withPuts m) x) from .editItem .refl).mem
  generalize editItem hq hn (withPuts m) x = y at *
  have hfin : Frame Frame.Scope.mirrorItem y (mirrorItem (withPuts m i) y) := .mirrorItem .refl
  obtain ⟨hjbytes, hjrows, -⟩ := mirrorItem_spec j (acceptQueued k j s)
  obtain ⟨hibytes, hirows, hikeep⟩ := mirrorItem_spec (withPuts m i) y
  have hbyte (a : ℕ) : y.byte a = (mirrorItem j (acceptQueued k j s)).byte a := by rw [State.byte, hemem, hmem, ← State.byte]
  have hgood (r : ℕ) : ParityGood y r ↔ ParityGood (mirrorItem j (acceptQueued k j s)) r := parityGood_congr (hemem.trans hmem)
  have hstart (a : ℕ) : (acceptQueued k j s).byte a = s.byte a := by rw [State.byte, hqmem, ← State.byte]
  have hent : entryAddr (withPuts m i).entry = entryAddr i.entry := rfl
  constructor
  · have hitems : (y.queue k).items = if k = hq then ((s.queue k).items ++ [j]).map fun i => if i.seq == hn then withPuts m i else i
        else (s.queue k).items ++ [j] := by
      rw [hqueue]
      split
      · next h =>
        subst h
        rw [← hqitems, ← (hsame k).1]
      · rw [← hqitems, (hsame k).1]
    have hnext : (y.queue k).nextSeq = (x.queue k).nextSeq := by
      rw [hqueue]
      split
      · next h => rw [h]
      · rfl
    constructor
    · rw [hfin.queue, hnext, (hsame k).2, hqnext]
    · rw [hfin.queue, hitems]
      split <;> simp
    · rw [State.item, hfin.queue, ← State.item, hedit]
    · rw [hfin.queue, hitems]
      by_cases hk : k = hq
      · rw [if_pos hk]
        by_cases hn' : hn = j.seq
        · simp [hk, hn']
        · simp [hk, hn', Ne.symm hn']
      · rw [if_neg hk, if_neg (fun h => hk h.1.symm)]
        simp
  · constructor
    · intro a ha hapart hlo hhi
      rw [hibytes a (.inl ha), hent, length_bytes_withPuts, if_neg (by unfold apart at hapart; omega), hbyte, hjbytes a (.inl ha),
        if_pos ⟨hlo, hhi⟩]
    · exact fun r hr => hirows r ((rowOfItem_withPuts m).mpr hr)
    · intro r hr hentry hpar
      exact hikeep r ((hgood r).mpr (hjrows r hr)) ((apart_withPuts ..).mpr hentry) ((apart_withPuts ..).mpr hpar)
    · intro a hj hi' hrows
      have h1 := hibytes a (.inr fun r hr => hrows r (.inl ((rowOfItem_withPuts m).mp hr)))
      have h2 := hjbytes a (.inr fun r hr => hrows r (.inr hr))
      unfold apart at hj hi'
      rw [h1, hent, length_bytes_withPuts, if_neg (by omega), hbyte, h2, if_neg (by omega), hstart]

/-! ### What the engine keeps and takes (R194, R230) -/

/-- An engine that writes `v` to g`d` and goes on. -/
theorem writeNext_run {d : GReg} {v : Dword} {y : State} (hwait : (y.eng e).wait = none) :
    ∃ t, dropLines e (writeNext e d v y) = t ∧ WroteG e d v y t ∧ t.engState e = y.engState e ∧ t.pc e = (y.pc e + 4) % 2 ^ 32 ∧
      (t.eng e).puts = (y.eng e).puts ∧ (t.eng e).wait = none ∧
      Frame (.join [.ofParts [.engines], .ofRegs [.ENG_PC]]) y t := by
  have hframe : Frame (.join [.ofParts [.engines], .ofRegs [.ENG_PC]]) y (dropLines e (writeNext e d v y)) :=
    .dropLines (.writeNext .refl)
  have hg (j : ℕ) : (setGr e d v y).gr e j = if j = 0 then 0 else if j = d then v else y.gr e j := gr_setGr ..
  have heng : (setGr e d v y).eng e = { y.eng e with g := ((setGr e d v y).eng e).g } := by rw [eng_setGr, if_pos rfl]
  have hputs : ((setGr e d v y).eng e).puts = (y.eng e).puts := by rw [heng]
  have hwait' : ((setGr e d v y).eng e).wait = none := by rw [heng, hwait]
  clear heng
  have hget (f : Fld) (i j : ℕ) : (setGr e d v y).get f i j = y.get f i j := get_setGr ..
  unfold writeNext at *
  generalize setGr e d v y = w at *
  have hkeep : (advance e 1 w).eng e = w.eng e := State.eng_put_keep w ENG_PC.PC (w.pc e + 4 * 1) e 0 e
  have hpc' : (advance e 1 w).pc e = (w.pc e + 4) % 2 ^ 32 := by rw [advance, pc_setPc]
  have hstate' : (advance e 1 w).engState e = w.engState e := by
    rw [State.engState, advance, setPc, State.get_put_fam _ _ _ _ _ _ _ _ (by decide), ← State.engState]
  generalize advance e 1 w = x at *
  rw [dropLines_none _ _ (by rw [hkeep, hwait'])] at *
  refine ⟨_, rfl, fun k => ?_, ?_, ?_, ?_, ?_, hframe⟩
  · rw [← hg, State.gr, State.eng_setEng, if_pos rfl, State.gr, hkeep]
  · rw [State.engState, State.get_setEng_keep, ← State.engState, hstate', State.engState, hget, ← State.engState]
  · rw [pc_setEng, hpc', State.pc, hget, ← State.pc]
  · rw [State.eng_setEng, if_pos rfl, ← hputs, ← hkeep]
  · rw [State.eng_setEng, if_pos rfl, ← hwait', ← hkeep]

/-- What a PUT reads of a state. -/
structure PutSame (e : EngineIx) (s v : State) : Prop where
  gr : ∀ j, v.gr e j = s.gr e j
  scratch : (v.eng e).scratch = (s.eng e).scratch
  bad : (v.eng e).scrBad = (s.eng e).scrBad
  held : (v.eng e).held = (s.eng e).held
  puts : (v.eng e).puts = (s.eng e).puts
  queue : ∀ j, v.queue j = s.queue j
  get : ∀ (f : Fld) (i j : ℕ), (Scope.ofRegs [.ENG_STAT]).hasReg f.reg = false → v.get f i j = s.get f i j
  mem : v.mem = s.mem
  clock : v.clock = s.clock
  parBad : v.parBad = s.parBad

theorem putSame_refl : PutSame e s s := ⟨fun _ => rfl, rfl, rfl, rfl, rfl, fun _ => rfl, fun _ _ _ _ => rfl, rfl, rfl, rfl⟩

theorem putSame_cache (hu : SameButCache s u) : PutSame e s u := by
  obtain ⟨_, _, _, rfl⟩ := hu
  exact ⟨fun _ => rfl, rfl, rfl, rfl, rfl, fun _ => rfl, fun _ _ _ _ => rfl, rfl, rfl, rfl⟩

theorem putSame_unstalled : PutSame e s (unstalled e s) := by
  obtain ⟨hsame, -, -, -, -, hf⟩ := unstalled_spec (s := s) (e := e)
  refine ⟨fun j => ?_, ?_, ?_, ?_, ?_, fun j => hf.queue j, fun f i j hne => ?_, hf.mem, hf.clock, hf.part .parBad (by decide)⟩
  · rw [State.gr, hsame, State.gr]
  · rw [hsame]
  · rw [hsame]
  · rw [hsame]
  · rw [hsame]
  · exact hf.get (hf := hne)

/-- The engine of a PUT as it submits. -/
def putEng (z : Eng) : Eng := { z with puts := z.puts + 1, wait := none }

theorem putNow_eq {d b q : GReg} {v : State} {k off hq hn : ℕ} {i : Item} (hs : PutSame e s v) (hk : k = (s.gr e q).toNat)
    (hoff : off = (s.gr e b).toNat) (hmax : k ≤ 32767) (halign : off % 16 = 0) (hin : off + s.qItemSize k ≤ 0x1000)
    (hsz : s.get QD_CTRL.ITEM_SZ k ≠ 3) (hbad : s.scratchBad e off (s.qItemSize k) = false) (hacc : accepts s k 2 (s.qItemSize k))
    (hheld : (s.eng e).held = some (hq, hn)) (hi : s.item hq hn = some i) (hputs : i.puts ≤ (s.eng e).puts)
    (hlimit : (s.eng e).puts + 1 < 4096) :
    putNow e d b q v = writeNext e d (queueResult 0 (s.queue k).nextSeq) (rewriteItem hq hn (withPuts ((s.eng e).puts + 1))
      (acceptItem k ((s.scratchByte e (off + 6)).getLsbD 0) false ((dwordsOf (s.scratchAt e off (s.qItemSize k))).drop 1)
        (v.setEng e (putEng (v.eng e))))) := by
  have hsize : v.qItemSize k = s.qItemSize k := by
    rw [State.qItemSize, State.qEntries, hs.get _ _ _ (by decide), ← State.qEntries, ← State.qItemSize]
  have hpos : 16 ≤ s.qItemSize k := by
    have := Nat.one_le_two_pow (n := s.get QD_CTRL.ITEM_SZ k)
    rw [State.qItemSize, State.qEntries]
    omega
  have hvbad : v.scratchBad e off (s.qItemSize k) = false := by rw [State.scratchBad, hs.bad, ← State.scratchBad, hbad]
  have hvputs : (v.eng e).puts = (s.eng e).puts := hs.puts
  have hvheld : (v.eng e).held = some (hq, hn) := hs.held.trans hheld
  have hvitem : v.heldItem e = some i := heldItem_eq hvheld (by rw [State.item, hs.queue, ← State.item, hi])
  have hscr : (v.setEng e (putEng (v.eng e))).scratchAt e off (s.qItemSize k) = s.scratchAt e off (s.qItemSize k) := by
    rw [State.scratchAt, State.eng_setEng, if_pos rfl, putEng, hs.scratch, ← State.scratchAt]
  have hlen : (s.scratchAt e off (s.qItemSize k)).length = s.qItemSize k := by simp [State.scratchAt]
  have hbyte : ((s.scratchAt e off (s.qItemSize k)).getD 6 0).getLsbD 0 = (s.scratchByte e (off + 6)).getLsbD 0 := by
    rw [getD_scratchAt _ _ _ (by omega)]
  have hacc' : accepts (v.setEng e (putEng (v.eng e))) k 2 (s.qItemSize k) := by
    obtain ⟨hoffAcc, hquar, hsub, hen, hdrain, hfroz, -, hseq, hroom⟩ := hacc
    have hget (f : Fld) (i j : ℕ) (hf : (Scope.ofRegs [.ENG_STAT]).hasReg f.reg = false) :
        (v.setEng e (putEng (v.eng e))).get f i j = s.get f i j := (State.get_setEng_keep ..).trans (hs.get f i j hf)
    have hset (f : Fld) (i j : ℕ) (hf : (Scope.ofRegs [.ENG_STAT]).hasReg f.reg = false) :
        (v.setEng e (putEng (v.eng e))).isSet f i j = s.isSet f i j := by rw [State.isSet, hget f i j hf, ← State.isSet]
    have hqueue : (v.setEng e (putEng (v.eng e))).queue k = s.queue k := (State.queue_setEng_keep ..).trans (hs.queue k)
    have hpar : (v.setEng e (putEng (v.eng e))).parBad = s.parBad := (State.setEng_parBad ..).trans hs.parBad
    generalize v.setEng e (putEng (v.eng e)) = x at *
    have hlost (b : ℕ) : x.bankLost b = s.bankLost b := by rw [State.bankLost, hget _ _ _ (by decide), ← State.bankLost]
    refine ⟨?_, hquar, ?_, ?_, ?_, ?_, ?_, ?_, ?_⟩
    · rw [← hoffAcc, State.accOff, State.accOff, State.queueService, State.queueService, hget _ _ _ (by decide)]
      simp only [hlost]
    · rw [hget _ _ _ (by decide), hsub]
    · rw [hset _ _ _ (by decide), hen]
    · rw [hset _ _ _ (by decide), hdrain]
    · rw [State.frozen, hpar, ← State.frozen, hfroz]
    · rw [State.qItemSize, State.qItemSize, State.qEntries, State.qEntries, hget _ _ _ (by decide)]
    · rw [hqueue]
      exact hseq
    · rw [State.qEntries, hget _ _ _ (by decide), hget _ _ _ (by decide), hget _ _ _ (by decide), ← State.qEntries]
      exact hroom
  have hnext : (v.setEng e (putEng (v.eng e))).queue k = s.queue k := (State.queue_setEng_keep ..).trans (hs.queue k)
  have hsubmit : submitBytes k 2 ((v.setEng e (putEng (v.eng e))).scratchAt e off (s.qItemSize k)) (v.setEng e (putEng (v.eng e))) =
      (0, (s.queue k).nextSeq, acceptItem k ((s.scratchByte e (off + 6)).getLsbD 0) false ((dwordsOf (s.scratchAt e off (s.qItemSize k))).drop 1)
        (v.setEng e (putEng (v.eng e)))) := by
    rw [hscr, submitBytes, hlen, hbyte, submitS_accepts hacc', hnext]
  unfold putNow
  dsimp only
  rw [hs.gr, hs.gr, ← hk, ← hoff, hs.get _ _ _ (by decide), if_neg hsz, hsize, if_neg (by omega), scratchOk_of halign hin,
    if_neg (by simp), if_neg (by omega), hvbad, if_neg Bool.false_ne_true]
  split
  · next hq' hn' i' h1 h2 =>
    obtain ⟨rfl, rfl⟩ := Prod.mk.inj (Option.some.inj (hvheld.symm.trans h1))
    obtain rfl := Option.some.inj (hvitem.symm.trans h2)
    rw [if_neg (by omega)]
    change (let r := submitBytes k 2 ((v.setEng e (putEng (v.eng e))).scratchAt e off (s.qItemSize k)) (v.setEng e (putEng (v.eng e)))
      writeNext e d (queueResult r.1 r.2.1) (if r.1 = 0 then rewriteItem hq hn (withPuts ((v.eng e).puts + 1)) r.2.2 else r.2.2)) = _
    rw [hsubmit, ← hvputs]
    rfl
  · next h => exact absurd hvitem (h _ _ _ hvheld)

/-! ### A PUT that nothing holds back -/

/-- A PUT that meets every condition of R189, R194 and R230. -/
structure PutReady (e : EngineIx) (b q : GReg) (s : State) (k off hq hn : ℕ) (i : Item) : Prop where
  target : k = (s.gr e q).toNat
  offset : off = (s.gr e b).toNat
  range : k ≤ 32767
  aligned : off % 16 = 0
  within : off + s.qItemSize k ≤ 0x1000
  size : s.get QD_CTRL.ITEM_SZ k ≠ 3
  good : s.scratchBad e off (s.qItemSize k) = false
  accepted : accepts s k 2 (s.qItemSize k)
  held : (s.eng e).held = some (hq, hn)
  item : s.item hq hn = some i
  puts : i.puts ≤ (s.eng e).puts
  limit : (s.eng e).puts + 1 < 4096

/-- What the queues and memory are after a PUT. -/
def PutStored (e : EngineIx) (s : State) (k off hq hn : ℕ) (i : Item) (t : State) : Prop :=
  (t.queue k).nextSeq = (s.queue k).nextSeq + 1 ∧ (t.queue k).items.length = (s.queue k).items.length + 1 ∧
    t.item hq hn = some { i with puts := (s.eng e).puts + 1 } ∧
    (∃ slot, let j := newItem s e k off (slotEntry (s.queue k).blocks (s.qEntries k) slot)
      (t.queue k).items.getLast? =
        some { j with puts := if hq = k ∧ hn = (s.queue k).nextSeq then (s.eng e).puts + 1 else 0 } ∧
      (∀ m < s.qItemSize k, apart i (entryAddr j.entry + m) 1 → t.byte (entryAddr j.entry + m) = j.bytes.getD m 0) ∧
      (∀ r, rowOfItem i r → t.bytesAt (parityAddr r) 16 = t.parityRow r) ∧
      (∀ r, rowOfItem j r → apart i (entryAddr (8 * r)) 128 → apart i (parityAddr r) 16 →
        t.bytesAt (parityAddr r) 16 = t.parityRow r) ∧
      (∀ a, apart j a 1 → apart i a 1 → (∀ r, rowOfItem i r ∨ rowOfItem j r → a < parityAddr r ∨ parityAddr r + 16 ≤ a) →
        t.byte a = s.byte a))

/-- What a PUT leaves. -/
def PutDone (e : EngineIx) (d : GReg) (s : State) (k off hq hn : ℕ) (i : Item) (t : State) : Prop :=
  WroteG e d (BitVec.ofNat 64 ((s.queue k).nextSeq * 65536)) s t ∧
    t.pc e = (s.pc e + 4) % 2 ^ 32 ∧ t.engState e = esRun ∧ (t.eng e).puts = (s.eng e).puts + 1 ∧ (t.eng e).wait = none ∧
    PutStored e s k off hq hn i t

theorem length_dwordsOf (l : List Byte) : (dwordsOf l).length = l.length / 8 := by
  induction l using dwordsOf.induct with
  | case1 b0 b1 b2 b3 b4 b5 b6 b7 l ih =>
    rw [dwordsOf, List.length_cons, ih]
    simp only [List.length_cons]
    omega
  | case2 l h =>
    rw [dwordsOf.eq_2 _ h]
    match l with
    | [] | [_] | [_, _] | [_, _, _] | [_, _, _, _] | [_, _, _, _, _] | [_, _, _, _, _, _] | [_, _, _, _, _, _, _] => simp
    | b0 :: b1 :: b2 :: b3 :: b4 :: b5 :: b6 :: b7 :: l => exact absurd rfl (h b0 b1 b2 b3 b4 b5 b6 b7 l)

theorem length_itemBytes (i : Item) : i.bytes.length = min 128 (8 + 8 * i.body.length) := by
  simp [Item.bytes, leBytes, Nat.mul_comm]

/-- The entries of a slot lie in the pool, one behind the other. -/
theorem slotEntry_mod {x : ℕ} (blocks : List ℕ) (slot : ℕ) (hx : x = 1 ∨ x = 2 ∨ x = 4) : slotEntry blocks x slot % 2 ^ 20 + x ≤ 2 ^ 20 := by
  unfold slotEntry
  rcases hx with rfl | rfl | rfl <;> omega

theorem qEntries_cases {k : ℕ} (h : s.get QD_CTRL.ITEM_SZ k ≠ 3) : s.qEntries k = 1 ∨ s.qEntries k = 2 ∨ s.qEntries k = 4 := by
  have hlt : s.get QD_CTRL.ITEM_SZ k < 2 ^ 2 := get_lt ..
  rw [State.qEntries]
  interval_cases s.get QD_CTRL.ITEM_SZ k <;> simp at *

theorem put_stored {late : Bool} {body : List Dword} {b q : GReg} {k off hq hn : ℕ} {i : Item} {x : State}
    (h : PutReady e b q s k off hq hn i) (hqueue : ∀ j, x.queue j = s.queue j) (hsz : ∀ j, x.qEntries j = s.qEntries j)
    (hmem : x.mem = s.mem) (hclock : x.clock = s.clock) (hlate : late = (s.scratchByte e (off + 6)).getLsbD 0)
    (hbody : body = (dwordsOf (s.scratchAt e off (s.qItemSize k))).drop 1) :
    PutStored e s k off hq hn i (rewriteItem hq hn (withPuts ((s.eng e).puts + 1)) (acceptItem k late false body x)) := by
  obtain ⟨slot, hqueues, hmemory⟩ := accept_rewrite (k := k) (m := (s.eng e).puts + 1) (late := late) (body := body)
    (show x.item hq hn = some i by rw [State.item, hqueue, ← State.item, h.item])
  have hitem : acceptedItem x k late body (slotEntry (x.queue k).blocks (x.qEntries k) slot) =
      newItem s e k off (slotEntry (s.queue k).blocks (s.qEntries k) slot) := by
    rw [acceptedItem, newItem, hqueue, hsz, State.qItemSize, hsz, hclock, hlate, hbody, ← State.qItemSize]
  rw [hitem] at hqueues hmemory
  have hentries := qEntries_cases h.size
  have hmod := slotEntry_mod (s.queue k).blocks slot hentries
  have hlen : (newItem s e k off (slotEntry (s.queue k).blocks (s.qEntries k) slot)).bytes.length = s.qItemSize k := by
    rw [length_itemBytes, newItem, List.length_drop, length_dwordsOf]
    simp only [State.scratchAt, List.length_map, List.length_range, State.qItemSize]
    omega
  generalize rewriteItem hq hn _ _ = t at *
  obtain ⟨hnext, hlength, hheld, hlast⟩ := hqueues
  obtain ⟨hbytes, hheldRows, hnewRows, hrest⟩ := hmemory
  rw [hqueue] at hnext hlength
  refine ⟨hnext, hlength, hheld, slot, ?_⟩
  have hentry : (newItem s e k off (slotEntry (s.queue k).blocks (s.qEntries k) slot)).entry =
    slotEntry (s.queue k).blocks (s.qEntries k) slot := rfl
  have hseq : (newItem s e k off (slotEntry (s.queue k).blocks (s.qEntries k) slot)).seq = (s.queue k).nextSeq := rfl
  have hputs : (newItem s e k off (slotEntry (s.queue k).blocks (s.qEntries k) slot)).puts = 0 := rfl
  generalize newItem s e k off (slotEntry (s.queue k).blocks (s.qEntries k) slot) = j at *
  refine ⟨?_, fun m hm hapart => ?_, hheldRows, hnewRows, fun a hj hi hr => ?_⟩
  · rw [hlast, ← hseq]
    split
    · rfl
    · rw [← hputs]
  · rw [hbytes _ ?_ hapart (by omega) (by omega), Nat.add_sub_cancel_left]
    rw [entryAddr, hentry]
    rw [State.qItemSize] at hm
    omega
  · rw [hrest a hj hi hr, State.byte, hmem, ← State.byte]

theorem PutStored.congr {k off hq hn : ℕ} {i : Item} {t y : State} (h : PutStored e s k off hq hn i y) (hqueue : ∀ j, t.queue j = y.queue j)
    (hmem : t.mem = y.mem) : PutStored e s k off hq hn i t := by
  simp only [PutStored, State.item, hqueue, State.bytesAt, State.parityRow, State.byte, hmem] at h ⊢
  exact h

theorem put_done {d b q : GReg} {k off hq hn : ℕ} {i : Item} {v : State} (h : PutReady e b q s k off hq hn i) (hs : PutSame e s v)
    (hstate : v.engState e = esRun) (hpc : v.pc e = s.pc e) : PutDone e d s k off hq hn i (dropLines e (putNow e d b q v)) := by
  rw [putNow_eq hs h.target h.offset h.range h.aligned h.within h.size h.good h.accepted h.held h.item h.puts h.limit]
  have hx : Frame (.ofParts [.engines]) v (v.setEng e (putEng (v.eng e))) := .setEng .refl
  have hxeng : (v.setEng e (putEng (v.eng e))).eng e = putEng (v.eng e) := by rw [State.eng_setEng, if_pos rfl]
  have hsz (j : ℕ) : (v.setEng e (putEng (v.eng e))).qEntries j = s.qEntries j := by
    rw [State.qEntries, hx.get, hs.get _ _ _ (by decide), ← State.qEntries]
  have hstored := put_stored h (fun j => (hx.queue j).trans (hs.queue j)) hsz (hx.mem.trans hs.mem) (hx.clock.trans hs.clock) rfl rfl
  have hxpc : (v.setEng e (putEng (v.eng e))).pc e = s.pc e := (pc_setEng ..).trans hpc
  have hxstate : (v.setEng e (putEng (v.eng e))).engState e = esRun := (State.get_setEng_keep ..).trans hstate
  generalize v.setEng e (putEng (v.eng e)) = x at *
  have hy : Frame (.join [Frame.Scope.acceptItem, Frame.Scope.rewriteItem]) x
      (rewriteItem hq hn (withPuts ((s.eng e).puts + 1)) (acceptItem k ((s.scratchByte e (off + 6)).getLsbD 0) false
        ((dwordsOf (s.scratchAt e off (s.qItemSize k))).drop 1) x)) := .rewriteItem (.acceptItem .refl)
  generalize rewriteItem hq hn _ _ = y at *
  have hyeng : y.eng e = putEng (v.eng e) := (hy.eng e).trans hxeng
  obtain ⟨t, ht, hg, hst, htpc, hputs, hwait, hf⟩ := writeNext_run (e := e) (d := d) (v := queueResult 0 (s.queue k).nextSeq) (y := y) (by rw [hyeng, putEng])
  rw [ht]
  refine ⟨fun j => ?_, ?_, ?_, ?_, hwait, ?_⟩
  · rw [hg, State.gr, hyeng, ← hs.gr]
    simp [queueResult, State.gr, putEng]
  · rw [htpc, State.pc, hy.get, ← State.pc, hxpc]
  · rw [hst, State.engState, hy.get, ← State.engState, hxstate]
  · rw [hputs, hyeng, putEng, hs.puts]
  · exact hstored.congr hf.queue hf.mem

/-- An engine whose instruction is fetched runs. -/
theorem fetches_run {ws : List Word} (h : s.fetches e ws = true) : s.engState e = esRun := by
  simp only [State.fetches, State.canRun, Bool.and_eq_true, beq_iff_eq] at h
  exact h.1.1.2

/-- The state of a PUT that acceptance holds back. -/
theorem put_held {d b q : GReg} {u : State} (hu : SameButCache s u) :
    let t := dropLines e (setEngState e esStall (u.setEng e { u.eng e with wait := some (.put (.cPut e d b q false)) }))
    t.engState e = esStall ∧ t.pc e = s.pc e ∧ t.mem = s.mem ∧ t.queues = s.queues ∧ (t.eng e).wait = some (.put (.cPut e d b q false)) := by
  have hqueues : u.queues = s.queues := by
    obtain ⟨_, _, _, rfl⟩ := hu
    rfl
  have hpcu : u.pc e = s.pc e := State.pc_cache s u hu e
  have hxeng : (u.setEng e { u.eng e with wait := some (.put (.cPut e d b q false)) }).eng e =
      { u.eng e with wait := some (.put (.cPut e d b q false)) } := by rw [State.eng_setEng, if_pos rfl]
  have hx : Frame (.ofParts [.engines]) u (u.setEng e { u.eng e with wait := some (.put (.cPut e d b q false)) }) := .setEng .refl
  generalize u.setEng e { u.eng e with wait := some (.put (.cPut e d b q false)) } = x at *
  obtain ⟨heng, hstate, hpc, -⟩ := setEngState_spec e esStall x
  have hy : Frame Frame.Scope.setEngState x (setEngState e esStall x) := .setEngState .refl
  generalize setEngState e esStall x = y at *
  have hwait : (y.eng e).wait = some (.put (.cPut e d b q false)) := by rw [heng, hxeng]
  have ht : Frame (.ofParts [.engines]) y (y.setEng e { y.eng e with lines := [] }) := .setEng .refl
  dsimp only
  rw [dropLines_spec (by rw [hwait]; simp)]
  refine ⟨(State.get_setEng_keep ..).trans hstate, ?_, ?_, ?_, ?_⟩
  · rw [pc_setEng, hpc, State.pc, hx.get, ← State.pc, hpcu]
  · rw [ht.mem, hy.mem, hx.mem, mem_cache hu]
  · rw [ht.part .queues (by decide), hy.part .queues (by decide), hx.part .queues (by decide), hqueues]
  · rw [State.eng_setEng, if_pos rfl, hwait]

theorem puts_complete : PutsComplete := by
  intro e d b q s k off hq hn i hk hoff hmax halign hin hsz hbad hacc hheld hi hputs hlimit
  have h : PutReady e b q s k off hq hn i := ⟨hk, hoff, hmax, halign, hin, hsz, hbad, hacc, hheld, hi, hputs, hlimit⟩
  refine ⟨fun hfetch => ?_, fun hwait hup hstall => ?_, fun hfetch => ?_⟩
  · obtain ⟨u, hu, hrun⟩ := runCelil_one e _ _ s hfetch
    have hstate : u.engState e = esRun := by
      rw [State.engState, State.get, reg_cache hu, ← State.get, ← State.engState, fetches_run hfetch]
    exact ⟨_, congrArg Host.Outcome.next hrun, put_done h (putSame_cache hu) hstate (State.pc_cache s u hu e)⟩
  · obtain ⟨-, hstate, hpc, -⟩ := unstalled_spec (s := s) (e := e)
    refine ⟨_, ?_, put_done h putSame_unstalled hstate hpc⟩
    change execPutWaitEnd e s = _
    rw [execPutWaitEnd, hwait]
    dsimp only
    rw [if_neg (by simp [hup, hstall])]
    rfl
  · obtain ⟨u, hu, hrun⟩ := runCelil_one e _ _ s hfetch
    exact ⟨_, congrArg Host.Outcome.next hrun, put_held hu⟩

/-! ### Takes (R193, R229) -/

theorem takeHeld_complete {d b : GReg} {i : Item} (hfetch : s.fetches e [encA 0x18 0 b d 0 0] = true) (hi : s.heldItem e = some i)
    (halign : (s.gr e b).toNat % 16 = 0) (hin : (s.gr e b).toNat + i.size ≤ 0x1000) :
    ∃ t, exec (.cTake e d b) s = .next t ∧ OnlyEngine e s t ∧ WroteG e d (BitVec.ofNat 64 i.header) s t ∧
      WroteScratch e (s.gr e b).toNat i.bytes s t ∧ WentOn e 1 true false true s t := by
  obtain ⟨u, hu, hrun⟩ := runCelil_one e _ _ s hfetch
  refine ⟨_, congrArg Host.Outcome.next hrun, ?_⟩
  have hheld : u.heldItem e = some i := by
    obtain ⟨_, _, _, rfl⟩ := hu
    exact hi
  dsimp only
  rw [hheld]
  dsimp only
  rw [State.gr_cache s u hu, scratchOk_of halign hin, if_neg (by simp)]
  obtain ⟨honly, hscratch, hg, hon⟩ := scratch_writeNext (d := d) (v := BitVec.ofNat 64 i.header) (x := (s.gr e b).toNat) (bs := i.bytes) hu
    (fetches_wait e _ s hfetch) (pc_room hfetch)
  exact ⟨honly, hg, hscratch, hon⟩

/-- A host take of a queue with no item at its head. -/
theorem takeS_empty {k : ℕ} (hen : s.isSet QD_CTRL.EN k = true) (hhost : s.isSet QD_CTRL.HOSTQ k = true)
    (hsub : (s.get QD_CTRL.SUBMIT k).testBit 2 = true) (hhead : s.headItem k = none) : takeS k 2 s = (7, none, s) := by
  rw [takeS, hen, if_neg (by simp), hhost, hsub, if_neg (by simp), hhead]

theorem takeEmpty_complete {d b q : GReg} {k : ℕ} (hfetch : s.fetches e [encA 0x18 q b d 0 1] = true) (hk : k = (s.gr e q).toNat)
    (hmax : k ≤ 32767) (halign : (s.gr e b).toNat % 16 = 0) (hin : (s.gr e b).toNat + s.qItemSize k ≤ 0x1000)
    (hen : s.isSet QD_CTRL.EN k = true) (hhost : s.isSet QD_CTRL.HOSTQ k = true) (hsub : (s.get QD_CTRL.SUBMIT k).testBit 2 = true)
    (hhead : s.headItem k = none) :
    Wrote (exec (.cTakeH e d b q) s) s e d 7 1 := by
  refine wrote_body hfetch fun u hu => ⟨u, .refl u, ?_⟩
  have htake : takeS k 2 u = (7, none, u) := by
    obtain ⟨_, _, _, rfl⟩ := hu
    exact takeS_empty hen hhost hsub hhead
  have hsize : u.qItemSize k = s.qItemSize k := by
    obtain ⟨_, _, _, rfl⟩ := hu
    rfl
  dsimp only
  rw [State.gr_cache s u hu, State.gr_cache s u hu, ← hk, if_neg (by omega), hsize, scratchOk_of halign hin, if_neg (by simp), htake]
  rfl

theorem filter_map_edit {f : Item → Item} (hf : ∀ j, (f j).seq = j.seq) (n : ℕ) (l : List Item) :
    (l.map fun j => if j.seq == n then f j else j).filter (fun j => j.seq != n) = l.filter fun j => j.seq != n := by
  induction l with
  | nil => rfl
  | cons j l ih =>
    by_cases hj : j.seq = n
    · simpa [hj, hf] using ih
    · simpa [hj] using ih

/-- An item that a host take hands over. -/
def takenItem (i : Item) : Item := { i with st := .ended, hw := some (stHOSTTAKE, 0) }

/-- The state in which a host take completes the item. -/
def takenState (k : ℕ) (i : Item) (s : State) : State :=
  (freeItem k i.seq (editItem k i.seq takenItem (readEntries i s))).put QD_CNT.LAST_ST (takenItem i).status.1 k

theorem takeS_head {k : ℕ} {i : Item} (hen : s.isSet QD_CTRL.EN k = true) (hhost : s.isSet QD_CTRL.HOSTQ k = true)
    (hsub : (s.get QD_CTRL.SUBMIT k).testBit 2 = true) (hhead : s.headItem k = some i) (hi : s.item k i.seq = some i) (hout : i.out = 0)
    (hrecs : i.recs = []) (hdue : s.verdictDue k i.seq = false) (hmseq : i.mseq = none) (hcq : s.isSet QD_CTRL.CQ_EN k = false)
    (hup : s.cdDown = false) : takeS k 2 s = (0, some i, takenState k i s) := by
  have hread : Frame Frame.Scope.readEntries s (readEntries i s) := .readEntries .refl
  rw [takeS, hen, if_neg (by simp), hhost, hsub, if_neg (by simp), hhead, takenState]
  dsimp only
  generalize readEntries i s = x at *
  have hxi : x.item k i.seq = some i := by rw [State.item, hread.queue, ← State.item, hi]
  have hyi := item_editItem (f := takenItem) (fun _ => rfl) hxi
  have hy : Frame (.join [Frame.Scope.readEntries, Frame.Scope.editItem]) s (editItem k i.seq takenItem x) := .editItem (hread.mono (by decide))
  have hcompl : itemCompleteS k i.seq (editItem k i.seq takenItem x) =
      (freeItem k i.seq (editItem k i.seq takenItem x)).put QD_CNT.LAST_ST (takenItem i).status.1 k := by
    generalize editItem k i.seq takenItem x = y at *
    have hdue' : y.verdictDue k i.seq = false := by rw [State.verdictDue, hy.part .verdicts (by decide), ← State.verdictDue, hdue]
    unfold itemCompleteS
    rw [hyi]
    dsimp only
    rw [if_neg (by simp [hy.cdDown, hup, takenItem, hout, hrecs, hdue']), hy.isSet, hcq]
    rw [if_neg (by simp [takenItem, hmseq])]
    simp only [takenItem, hmseq, Bool.false_and, Bool.not_false, if_true]
  exact congrArg (fun z => (0, some i, z)) hcompl

theorem takenState_spec (k : ℕ) (i : Item) (s : State) :
    (s.anyBad (entryAddr i.entry) i.bytes.length = false → (takenState k i s).mem = s.mem) ∧
      (∀ a, a < 0x00200000 ∨ 0x01400000 ≤ a → (takenState k i s).byte a = s.byte a) ∧
      ((takenState k i s).queue k).items = (s.queue k).items.filter (fun j => j.seq != i.seq) ∧
      Frame (.join [Frame.Scope.readEntries, Frame.Scope.editItem, Frame.Scope.freeItem, .ofRegs [.QD_CNT]]) s (takenState k i s) := by
  have hgood : s.anyBad (entryAddr i.entry) i.bytes.length = false → (readEntries i s).mem = s.mem := fun h => mem_cache (sramMeets_same h)
  obtain ⟨-, hpool⟩ := readEntries_poolOnly i s
  have hread : Frame Frame.Scope.readEntries s (readEntries i s) := .readEntries .refl
  unfold takenState
  generalize readEntries i s = x at *
  have hqueue : (freeItem k i.seq (editItem k i.seq takenItem x)).queue k =
      { x.queue k with items := (x.queue k).items.filter fun j => j.seq != i.seq } := by
    rw [queue_freeItem, if_pos rfl, queue_editItem, if_pos rfl]
    dsimp only
    rw [filter_map_edit (f := takenItem) fun _ => rfl]
  have hf : Frame (.join [Frame.Scope.editItem, Frame.Scope.freeItem]) x (freeItem k i.seq (editItem k i.seq takenItem x)) :=
    .freeItem (.editItem .refl)
  generalize freeItem k i.seq (editItem k i.seq takenItem x) = y at *
  have hput : Frame (.ofRegs [.QD_CNT]) y (y.put QD_CNT.LAST_ST (takenItem i).status.1 k) := .put .refl
  refine ⟨fun h => ?_, fun a ha => ?_, ?_, ?_⟩
  · rw [hput.mem, hf.mem, hgood h]
  · rw [State.byte, hput.mem, hf.mem, ← State.byte]
    exact hpool a ha
  · rw [hput.queue, hqueue, hread.queue]
  · exact ((hread.mono (by decide)).lift (by decide) hf).lift (by decide) hput

theorem takeHead_complete {d b q : GReg} {k : ℕ} {i : Item} (hfetch : s.fetches e [encA 0x18 q b d 0 1] = true) (hk : k = (s.gr e q).toNat)
    (hmax : k ≤ 32767) (halign : (s.gr e b).toNat % 16 = 0) (hin : (s.gr e b).toNat + s.qItemSize k ≤ 0x1000)
    (htake : ∀ u, SameButCache s u → takeS k 2 u = (0, some i, takenState k i u)) :
    ∃ t, exec (.cTakeH e d b q) s = .next t ∧ WroteG e d (BitVec.ofNat 64 (i.seq * 65536)) s t ∧
      WroteScratch e (s.gr e b).toNat i.bytes s t ∧ WentOn e 1 true false true s t ∧
      (t.queue k).items = (s.queue k).items.filter (fun j => j.seq != i.seq) ∧
      (s.anyBad (entryAddr i.entry) i.bytes.length = false → t.mem = s.mem) ∧
      (∀ a, a < 0x00200000 ∨ 0x01400000 ≤ a → t.byte a = s.byte a) := by
  obtain ⟨u, hu, hrun⟩ := runCelil_one e _ _ s hfetch
  refine ⟨_, congrArg Host.Outcome.next hrun, ?_⟩
  have hsize : u.qItemSize k = s.qItemSize k := by
    obtain ⟨_, _, _, rfl⟩ := hu
    rfl
  have hqueue : u.queue k = s.queue k := by
    obtain ⟨_, _, _, rfl⟩ := hu
    rfl
  have hv : queueResult 0 i.seq = BitVec.ofNat 64 (i.seq * 65536) := by simp [queueResult]
  dsimp only
  rw [State.gr_cache s u hu, State.gr_cache s u hu, ← hk, if_neg (by omega), hsize, scratchOk_of halign hin, if_neg (by simp), htake u hu]
  dsimp only
  rw [hv]
  obtain ⟨hmem, hbytes, hitems, hf⟩ := takenState_spec k i u
  generalize takenState k i u = x at *
  have heng : x.eng e = s.eng e := (hf.eng e).trans (eng_cache hu e)
  have hpc : x.pc e = s.pc e := (hf.get (f := ENG_PC.PC) (i := e) (j := 0)).trans (State.pc_cache s u hu e)
  obtain ⟨honly, hscratch, hg, hon⟩ := scratch_writeNext (e := e) (d := d) (v := BitVec.ofNat 64 (i.seq * 65536)) (x := (s.gr e b).toNat)
    (bs := i.bytes) (.refl x) (by rw [heng]; exact fetches_wait e _ s hfetch) (by rw [hpc]; exact pc_room hfetch)
  obtain ⟨-, -, es, rs, ls, wk, n, hrest⟩ := honly
  clear hrun
  generalize dropLines _ _ = t at *
  have htmem : t.mem = x.mem := by rw [hrest]
  refine ⟨fun j => ?_, ⟨fun j => ?_, fun w => ?_⟩, ⟨?_, ?_⟩, ?_, fun hgood => ?_, fun a ha => ?_⟩
  · rw [hg, State.gr, heng, ← State.gr]
  · rw [hscratch.1, State.scratchByte, State.scratchByte, heng]
  · rw [hscratch.2, heng]
  · rw [hon.pc, hpc]
  · rw [← heng]
    exact hon.engine
  · rw [State.queue, hrest]
    exact hitems.trans (by rw [hqueue])
  · rw [htmem, hmem (by rw [anyBad_cache hu, hgood]), mem_cache hu]
  · rw [State.byte, htmem, ← State.byte, hbytes a ha, State.byte, mem_cache hu, ← State.byte]

theorem takes_complete : TakesComplete := by
  refine ⟨fun e d b s i => takeHeld_complete, ?_, fun e d b q s k => takeEmpty_complete⟩
  intro e d b q s k i hfetch hk hmax halign hin hen hhost hsub hhead hi hout hrecs hdue hmseq hcq
  have hup : s.cdDown = false := by
    simp only [State.fetches, State.canRun, Bool.and_eq_true, Bool.not_eq_true'] at hfetch
    exact hfetch.1.1.1
  refine takeHead_complete hfetch hk hmax halign hin fun u hu => ?_
  obtain ⟨_, _, _, rfl⟩ := hu
  exact takeS_head hen hhost hsub hhead hi hout hrecs hdue hmseq hcq hup

end

/-- Settles O13: a take hands over the held item or the head of a host queue, and a PUT submits the item in scratch. -/
theorem takesAndPutsComplete : Obligations.TakesAndPutsComplete := ⟨takes_complete, puts_complete⟩

end Sys2Proof.Proofs

/-! ## Dispatch and stealing (R192, R197, R198) -/

namespace Sys2Proof.Proofs

set_option Elab.async false

open Sys2Proof Sys2Proof.Machine Sys2Proof.Claims

section

variable {s : State} {e : EngineIx} {q : ℕ} {i : Item}

/-- An item as an engine holds it. -/
def heldBy (e : ℕ) (i : Item) : Item := { i with st := .held e }

/-- The queue once its head has gone to an engine. -/
def givenQueue (q e : ℕ) (i : Item) (s : State) : State :=
  let t := editItem q i.seq (heldBy e) (readEntries i s)
  queueOpens q (t.setQueue q { t.queue q with starved := false })

/-- The registers of a fresh handler (R192). -/
def freshRegs (q arg : ℕ) : SMap Dword :=
  SMap.set (fun _ => 0) (SMap.set (fun _ => 0) [] 1 (BitVec.ofNat 64 q)) 2 (BitVec.ofNat 64 arg)

/-- An engine with a fresh handler. -/
def givenEng (q arg n clock : ℕ) (x : Eng) : Eng :=
  { x.cleared with g := freshRegs q arg, held := some (q, n), since := clock, lastQ := q }

theorem giveItem_eq : giveItem q e i s = setEngState e esRun ((((givenQueue q e i s).setEng e
    (givenEng q ((givenQueue q e i s).get QD_ARG.ARG q) i.seq (givenQueue q e i s).clock ((givenQueue q e i s).eng e))).put ENG_PC.PC
      (4 * (givenQueue q e i s).get QD_ENTRY.ENTRY q) e).put ENG_STAT.CUR_Q q e) := by
  rfl

theorem givenQueue_spec (hi : s.item q i.seq = some i) : (givenQueue q e i s).item q i.seq = some (heldBy e i) ∧
    (∀ k, k ≠ q → (givenQueue q e i s).queue k = s.queue k) ∧
      Frame (.ofParts [.queues, .mem, .badWords, .ecc]) s (givenQueue q e i s) ∧ (givenQueue q e i s).regs = s.regs ∧
      (givenQueue q e i s).mem = (readEntries i s).mem ∧ (givenQueue q e i s).badWords = (readEntries i s).badWords := by
  obtain ⟨⟨m, bad, ecc, hread⟩, -⟩ := readEntries_poolOnly i s
  unfold givenQueue
  rw [hread]
  have hx : Frame (.ofParts [.mem, .badWords, .ecc]) s { s with mem := m, badWords := bad, ecc := ecc } := by
    refine .of_parts (ps := [.mem, .badWords, .ecc]) .refl (by decide) rfl fun p hp => ?_
    cases p <;> first | rfl | exact absurd (by decide) hp
  have hqueue (k : ℕ) : ({ s with mem := m, badWords := bad, ecc := ecc } : State).queue k = s.queue k := rfl
  have hregs : ({ s with mem := m, badWords := bad, ecc := ecc } : State).regs = s.regs := rfl
  have hmem : ({ s with mem := m, badWords := bad, ecc := ecc } : State).mem = m := rfl
  have hbad : ({ s with mem := m, badWords := bad, ecc := ecc } : State).badWords = bad := rfl
  rw [hmem, hbad]
  generalize ({ s with mem := m, badWords := bad, ecc := ecc } : State) = x at *
  have hy := item_editItem (s := x) (f := heldBy e) (fun _ => rfl) (show x.item q i.seq = some i by rw [State.item, hqueue, ← State.item, hi])
  have hyq (k : ℕ) (hk : k ≠ q) : (editItem q i.seq (heldBy e) x).queue k = s.queue k := by rw [queue_editItem, if_neg hk, hqueue]
  have hyf : Frame (.ofParts [.queues]) x (editItem q i.seq (heldBy e) x) := .editItem .refl
  generalize editItem q i.seq (heldBy e) x = y at *
  have hz : Frame (.ofParts [.queues]) y (queueOpens q (y.setQueue q { y.queue q with starved := false })) := .queueOpens (.setQueue .refl)
  have hzq (k : ℕ) : (queueOpens q (y.setQueue q { y.queue q with starved := false })).queue k =
      if k = q then { y.queue q with starved := false, openAt := y.clock } else y.queue k := by
    rw [queueOpens, State.queue_setQueue, State.queue_setQueue, State.queue_setQueue, if_pos rfl]
    split <;> rfl
  dsimp only
  generalize queueOpens q (y.setQueue q { y.queue q with starved := false }) = z at *
  have hf : Frame (.ofParts [.queues, .mem, .badWords, .ecc]) s z :=
    ((hx.mono (by decide)).lift (by decide) hyf).lift (by decide) hz
  refine ⟨?_, fun k hk => ?_, hf, ?_, ?_, ?_⟩
  · rw [State.item, hzq, if_pos rfl]
    exact hy
  · rw [hzq, if_neg hk, hyq k hk]
  · rw [hz.part .regs (by decide), hyf.part .regs (by decide), hregs]
  · rw [hz.mem, hyf.mem, hmem]
  · rw [hz.part .badWords (by decide), hyf.part .badWords (by decide), hbad]

theorem freshRegs_get (q arg k : ℕ) : (if k = 0 then 0 else SMap.get (fun _ => 0) (freshRegs q arg) k) =
    if k = 1 then BitVec.ofNat 64 q else if k = 2 then BitVec.ofNat 64 arg else 0 := by
  rw [freshRegs, SMap.get_set, SMap.get_set]
  split
  · next h => subst h; rfl
  · split
    · next h => subst h; rfl
    · rfl

theorem eng_setEngState (st : ℕ) {k : ℕ} (hk : k ≠ e) : (setEngState e st s).eng k = s.eng k := by
  obtain ⟨v, z, heq, -⟩ := setEngState_eq (s := s) (e := e) st
  rw [heq, State.eng_put_keep, State.eng_setEng, if_neg hk]
  rfl

/-- The engine, its registers and its PC once the queue is written (R192). -/
theorem giveEngine_spec (hq : q < 32768) (n arg entry clock : ℕ) (z : State) (hentry : entry < 2 ^ 25) :
    let t := setEngState e esRun (((z.setEng e (givenEng q arg n clock (z.eng e))).put ENG_PC.PC (4 * entry) e).put ENG_STAT.CUR_Q q e)
    SameButTimes (givenEng q arg n clock (z.eng e)) (t.eng e) ∧ t.pc e = 4 * entry ∧ t.engState e = esRun ∧ t.get ENG_STAT.CUR_Q e = q ∧
      RegsKept [RegId.ENG_PC.at e, RegId.ENG_STAT.at e] z t ∧ (∀ k : ℕ, k ≠ e → t.eng k = z.eng k) ∧
      Frame (.join [.ofParts [.engines, .wide], .ofRegs [.ENG_PC, .ENG_STAT]]) z t := by
  dsimp only
  have hf : Frame (.join [.ofParts [.engines, .wide], .ofRegs [.ENG_PC, .ENG_STAT]]) z (setEngState e esRun
      (((z.setEng e (givenEng q arg n clock (z.eng e))).put ENG_PC.PC (4 * entry) e).put ENG_STAT.CUR_Q q e)) :=
    .setEngState (.put (.put (.setEng .refl)))
  have hxe (k : ℕ) : (z.setEng e (givenEng q arg n clock (z.eng e))).eng k =
    if k = e then givenEng q arg n clock (z.eng e) else z.eng k := State.eng_setEng ..
  have hxr (a : ℕ) : (z.setEng e (givenEng q arg n clock (z.eng e))).reg a = z.reg a := State.reg_setEng_keep ..
  generalize z.setEng e (givenEng q arg n clock (z.eng e)) = x at *
  have hye (k : ℕ) : (x.put ENG_PC.PC (4 * entry) e).eng k = x.eng k := State.eng_put_keep ..
  have hyp : (x.put ENG_PC.PC (4 * entry) e).pc e = 4 * entry := get_put_lt _ _ (by decide) (by show _ < 2 ^ 32; omega)
  have hyr (a : ℕ) (ha : a ≠ RegId.ENG_PC.at e) : (x.put ENG_PC.PC (4 * entry) e).reg a = x.reg a := State.reg_put _ _ _ _ _ _ ha
  generalize x.put ENG_PC.PC (4 * entry) e = y at *
  have hwe (k : ℕ) : (y.put ENG_STAT.CUR_Q q e).eng k = y.eng k := State.eng_put_keep ..
  have hwq : (y.put ENG_STAT.CUR_Q q e).get ENG_STAT.CUR_Q e = q := get_put_lt _ _ (by decide) hq
  have hwp : (y.put ENG_STAT.CUR_Q q e).pc e = y.pc e := State.get_put_fam _ _ _ _ _ _ _ _ (by decide)
  have hwr (a : ℕ) (ha : a ≠ RegId.ENG_STAT.at e) : (y.put ENG_STAT.CUR_Q q e).reg a = y.reg a := State.reg_put _ _ _ _ _ _ ha
  generalize y.put ENG_STAT.CUR_Q q e = w at *
  obtain ⟨heng, hstate, hpc, -⟩ := setEngState_spec e esRun w
  refine ⟨?_, ?_, hstate, ?_, fun a ha => ?_, fun k hk => ?_, hf⟩
  · rw [hwe, hye, hxe, if_pos rfl] at heng
    exact heng
  · rw [hpc, hwp, hyp]
  · obtain ⟨v, z', heq, -⟩ := setEngState_eq (s := w) (e := e) esRun
    rw [heq, get_put_of_apart (by decide), State.get_setEng_keep, State.get_setWide_keep, hwq]
  · simp only [List.mem_cons, List.not_mem_nil, or_false, not_or] at ha
    rw [reg_setEngState _ ha.2, hwr a ha.2, hyr a ha.1, hxr]
  · rw [eng_setEngState _ hk, hwe, hye, hxe, if_neg hk]

theorem giveItem_handed (hq : q < 32768) (hi : s.item q i.seq = some i) : Handed q e i s (giveItem q e i s) := by
  obtain ⟨hitem, hqueues, hf, hregs, hmem, hbad⟩ := givenQueue_spec (e := e) hi
  obtain ⟨-, hpool⟩ := readEntries_poolOnly i s
  have hgood (h : s.anyBad (entryAddr i.entry) i.bytes.length = false) : (readEntries i s).mem = s.mem ∧ (readEntries i s).badWords = s.badWords := by
    obtain ⟨_, _, _, heq⟩ := sramMeets_same h
    rw [readEntries, heq]
    exact ⟨rfl, rfl⟩
  rw [giveItem_eq]
  have heng (k : ℕ) : (givenQueue q e i s).eng k = s.eng k := hf.eng k
  have hget (f : Fld) (k : ℕ) : (givenQueue q e i s).get f k = s.get f k := State.get_congr hregs ..
  have hentry : (givenQueue q e i s).get QD_ENTRY.ENTRY q < 2 ^ 25 := get_lt ..
  rw [hget QD_ARG.ARG]
  generalize givenQueue q e i s = z at *
  obtain ⟨hte, htpc, htstate, htq, htregs, htother, htf⟩ := giveEngine_spec (e := e) hq i.seq (s.get QD_ARG.ARG q) (z.get QD_ENTRY.ENTRY q) z.clock z hentry
  generalize setEngState e esRun _ = t at *
  constructor
  · intro k
    rw [State.gr, hte, ← freshRegs_get]
    rfl
  · intro k
    rw [State.tr, hte]
    rfl
  · rw [htpc, hget]
  · exact htstate
  · exact htq
  · rw [hte]
    rfl
  · rw [State.item, htf.queue, ← State.item, hitem]
    rfl
  · rw [hte, heng]
    rfl
  · intro k hk
    rw [htother k hk, heng]
  · intro k hk
    rw [htf.queue, hqueues k hk]
  · intro a ha
    rw [htregs a ha, State.reg_congr hregs]
  · exact ((hf.mono (by decide)).lift (w := .join [.ofParts [.queues, .mem, .badWords, .ecc, .engines, .wide], .ofRegs [.ENG_PC, .ENG_STAT]])
      (by decide) htf).kept
  · intro h
    rw [htf.mem, htf.part .badWords (by decide), hmem, hbad]
    exact hgood h
  · intro a ha
    rw [State.byte, htf.mem, hmem, ← State.byte, hpool a ha]

theorem takesFrom_of {q : ℕ} (h : (s.waitedFor e = [] ∧ s.idleOwner q = some e.val) ∨ s.ownPick e = some q) : s.takesFrom q e = true := by
  rcases h with ⟨hnone, hidle⟩ | hpick
  · simp [State.takesFrom, hnone, hidle]
  · have hsome : s.waitedFor e ≠ [] := fun hnone => by simp [State.ownPick, hnone] at hpick
    simp [State.takesFrom, hsome, hpick]

end

/-- Settles O36: an engine that takes a queue, its own or a stolen one, is handed the head item. -/
theorem dispatchCompletes : Obligations.DispatchCompletes := by
  constructor
  · intro q e i s hcold hup hel hi hidle howner htakes
    refine ⟨_, act_next hcold _, ?_⟩
    rw [dispatchS, hel]
    dsimp only
    rw [if_pos (by simp [hup, hidle, howner, takesFrom_of htakes])]
    exact giveItem_handed q.isLt hi
  · intro q e i s hcold hup hel hi hidle hsteal hown hst hfirst
    have hall : (s.readyQueues.filter s.stealable).all (fun r => r == q || s.stealBefore q r) = true := by
      simp only [List.all_eq_true, List.mem_filter, Bool.or_eq_true, beq_iff_eq]
      exact fun r hr => hfirst r hr.1 hr.2
    refine ⟨_, act_next hcold _, ?_⟩
    rw [stealS, hel]
    dsimp only
    rw [if_pos (by simp [hup, hidle, hsteal, hown, hst]; simpa using hall)]
    exact giveItem_handed q.isLt hi

end Sys2Proof.Proofs

/-! ## Raises and their messages (R235, R357 to R362) -/

namespace Sys2Proof.Proofs

set_option Elab.async false

open Sys2Proof Sys2Proof.Machine Sys2Proof.Claims

section

variable {s t : State} {i v : ℕ} {rest : List ℕ} {w : Scope}

/-! ### Messages (R359, R360) -/

theorem vec_setVec (s : State) (v : ℕ) (x : Vec) (k : ℕ) : (s.setVec v x).vec k = if k = v then x else s.vec k := SMap.get_set ..

namespace Frame

theorem vec (h : Frame w s t) (k : ℕ) (hp : w.hasPart .msix = false := by decide) : t.vec k = s.vec k := by
  rw [State.vec, show t.msix = s.msix from h.part .msix hp, ← State.vec]

theorem vecHeld (h : Frame w s t) (k : ℕ) (hp : w.hasPart .msix = false := by decide) (hm : w.hasPart .fnMask = false := by decide)
    (hb : w.hasPart .bme = false := by decide) (hr : w.hasReg .PCIE_STAT = false := by decide) : t.vecHeld k = s.vecHeld k := by
  rw [State.vecHeld, State.vecHeld, h.vec k hp, show t.fnMask = s.fnMask from h.part .fnMask hm, show t.bme = s.bme from h.part .bme hb,
    h.isSet (hf := hr)]

theorem gapTicks (h : Frame w s t) (hr : w.hasReg .EV_CFG = false := by decide) : t.gapTicks = s.gapTicks := by
  rw [State.gapTicks, State.gapTicks, h.get (hf := hr)]

theorem vecFree (h : Frame w s t) (k : ℕ) (hp : w.hasPart .msix = false := by decide) (hm : w.hasPart .msgLast = false := by decide)
    (hc : w.hasPart .clock = false := by decide) (hr : w.hasReg .EV_CFG = false := by decide) : t.vecFree k = s.vecFree k := by
  rw [State.vecFree, State.vecFree, h.vec k hp, show t.msgLast = s.msgLast from h.part .msgLast hm, h.clock hc, h.gapTicks hr]

end Frame

/-- A message that nothing holds goes out. -/
theorem msixSend_sent (hheld : s.vecHeld v = false) (hup : s.cdDown = false) (hfree : s.vecFree v = true) :
    Sent v s (msixSend v s) ∧ Frame (.ofParts [.msix, .msgLast, .outs]) s (msixSend v s) := by
  have hf : Frame (.ofParts [.msix, .msgLast, .outs]) s (msixSend v s) := .msixSend .refl
  refine ⟨?_, hf⟩
  rw [msixSend, hheld, hup, if_neg (by simp), hfree, if_pos rfl]
  have hvec (k : ℕ) := vec_setVec s v { s.vec v with pending := false, merged := false, last := some s.clock } k
  have hx : Frame (.ofParts [.msix]) s (s.setVec v { s.vec v with pending := false, merged := false, last := some s.clock }) := .setVec .refl
  dsimp only
  generalize s.setVec v { s.vec v with pending := false, merged := false, last := some s.clock } = x at *
  have hemit (k : ℕ) : (({ x with msgLast := some x.clock } : State).emit (.msix v)).vec k = x.vec k := rfl
  constructor
  · rw [← hx.part .outs (by decide)]
    rfl
  · rw [hemit, hvec, if_pos rfl]
    exact ⟨rfl, rfl, rfl⟩
  · rw [← hx.clock]
    rfl
  · intro k hk
    rw [hemit, hvec, if_neg hk]

/-- A message that is masked, or falls into a warm reset, is held. -/
theorem msixSend_held (hheld : (s.vecHeld v || s.cdDown) = true) : ((msixSend v s).vec v).pending = true ∧ Frame (.ofParts [.msix]) s (msixSend v s) := by
  rw [msixSend, if_pos hheld, vec_setVec, if_pos rfl]
  exact ⟨rfl, .setVec .refl⟩

theorem sent_of_frame {u : State} (h : Sent v s t) (hf : Frame w u s) (ho : w.hasPart .outs = false := by decide)
    (hm : w.hasPart .msix = false := by decide) (hc : w.hasPart .clock = false := by decide) : Sent v u t := by
  obtain ⟨houts, hvec, hlast, hothers⟩ := h
  rw [hf.part .outs ho] at houts
  rw [hf.clock hc] at hvec hlast
  exact ⟨houts, hvec, hlast, fun k hk => (hothers k hk).trans (hf.vec k hm)⟩

/-! ### Raises (R235, R357) -/

/-- The state once the raise of source `i` is counted and latched. -/
def latched (i : ℕ) (rest : List ℕ) (s : State) : State :=
  ({ s with
    raising := rest
    raises := SMap.set (fun _ => 0) s.raises i ((SMap.get (fun _ => 0) s.raises i + 1) % 2 ^ 32)
    raiseTs := SMap.set (fun _ => 0) s.raiseTs i (ts80 s.mcount) } : State).put EV_STAT.STAT
      (s.get EV_STAT.STAT (i / 32) ||| 2 ^ (i % 32)) (i / 32)

/-- What a raise that is counted and latched leaves. -/
structure Raised (i : ℕ) (rest : List ℕ) (s t : State) : Prop where
  raising : t.raising = rest
  stat : t.get EV_STAT.STAT (i / 32) = s.get EV_STAT.STAT (i / 32) ||| 2 ^ (i % 32)
  count : SMap.get (fun _ => 0) t.raises i = (SMap.get (fun _ => 0) s.raises i + 1) % 2 ^ 32
  time : SMap.get (fun _ => 0) t.raiseTs i = ts80 s.mcount
  regs : RegsKept [RegId.EV_STAT.at (i / 32)] s t

theorem latched_spec (i : ℕ) (rest : List ℕ) (s : State) : Raised i rest s (latched i rest s) ∧
    Frame (.join [.ofParts [.raising, .raises, .raiseTs], .ofRegs [.EV_STAT]]) s (latched i rest s) := by
  have hor : s.get EV_STAT.STAT (i / 32) ||| 2 ^ (i % 32) < 2 ^ 32 :=
    Nat.or_lt_two_pow (get_lt ..) (Nat.pow_lt_pow_right (by decide) (Nat.mod_lt _ (by decide)))
  have hcount : SMap.get (fun _ => 0) (SMap.set (fun _ => 0) s.raises i ((SMap.get (fun _ => 0) s.raises i + 1) % 2 ^ 32)) i =
    (SMap.get (fun _ => 0) s.raises i + 1) % 2 ^ 32 := SMap.get_set_same ..
  have htime : SMap.get (fun _ => 0) (SMap.set (fun _ => 0) s.raiseTs i (ts80 s.mcount)) i = ts80 s.mcount := SMap.get_set_same ..
  unfold latched
  generalize SMap.set (fun _ => 0) s.raises i ((SMap.get (fun _ => 0) s.raises i + 1) % 2 ^ 32) = m at *
  generalize SMap.set (fun _ => 0) s.raiseTs i (ts80 s.mcount) = n at *
  have hx : Frame (.ofParts [.raising, .raises, .raiseTs]) s { s with raising := rest, raises := m, raiseTs := n } := by
    refine .of_parts (ps := [.raising, .raises, .raiseTs]) .refl (by decide) rfl fun p hp => ?_
    cases p <;> first | rfl | exact absurd (by decide) hp
  have h1 : ({ s with raising := rest, raises := m, raiseTs := n } : State).raising = rest := rfl
  have h2 : ({ s with raising := rest, raises := m, raiseTs := n } : State).raises = m := rfl
  have h3 : ({ s with raising := rest, raises := m, raiseTs := n } : State).raiseTs = n := rfl
  have h4 (a : ℕ) : ({ s with raising := rest, raises := m, raiseTs := n } : State).reg a = s.reg a := rfl
  generalize ({ s with raising := rest, raises := m, raiseTs := n } : State) = x at *
  generalize hval : s.get EV_STAT.STAT (i / 32) ||| 2 ^ (i % 32) = val at *
  have hy : Frame (.ofRegs [.EV_STAT]) x (x.put EV_STAT.STAT val (i / 32)) := .put .refl
  refine ⟨⟨?_, ?_, ?_, ?_, fun a ha => ?_⟩, (hx.mono (by decide)).lift (by decide) hy⟩
  · rw [hy.part .raising (by decide), h1]
  · rw [hval]
    exact get_put_lt _ _ (by decide) hor
  · rw [hy.part .raises (by decide), h2, hcount]
  · rw [hy.part .raiseTs (by decide), h3, htime]
  · rw [State.reg_put _ _ _ _ _ _ (by simpa using ha), h4]

theorem Raised.evSet (h : Raised i rest s t) : t.evSet i = true := by
  rw [State.evSet, h.stat, Nat.testBit_or, Nat.testBit_two_pow_self, Bool.or_true]

/-- A route keeps what is counted and latched. -/
theorem Raised.frame {u : State} (h : Raised i rest s t) (hf : Frame w t u) (hr : w.hasPart .raising = false := by decide)
    (hn : w.hasPart .raises = false := by decide) (ht : w.hasPart .raiseTs = false := by decide)
    (hregs : w.hasPart .regs = false := by decide) : Raised i rest s u := by
  have hreg : u.regs = t.regs := hf.part .regs hregs
  exact ⟨(hf.part .raising hr).trans h.raising, (State.get_congr hreg ..).trans h.stat, (congrArg (SMap.get _ · i) (hf.part .raises hn)).trans h.count,
    (congrArg (SMap.get _ · i) (hf.part .raiseTs ht)).trans h.time, fun a ha => (State.reg_congr hreg a).trans (h.regs a ha)⟩

theorem eventRaiseS_eq (h : s.raising = i :: rest) (hgone : s.cdGone = false) :
    eventRaiseS s = if SMap.get (fun _ => 0) s.routedAt i = s.clock + 1 then latched i rest s else routeRaise i (latched i rest s) := by
  have hgone' : State.cdGone { s with raising := rest } = false := hgone
  have htime : State.mcount { s with raising := rest } = s.mcount := rfl
  unfold eventRaiseS latched
  rw [h]
  dsimp only
  rw [hgone', if_neg Bool.false_ne_true, htime]
  generalize SMap.set (fun _ => 0) s.raises i ((SMap.get (fun _ => 0) s.raises i + 1) % 2 ^ 32) = m
  generalize SMap.set (fun _ => 0) s.raiseTs i (ts80 s.mcount) = n
  have hstat : ({ s with raising := rest, raises := m, raiseTs := n } : State).get EV_STAT.STAT (i / 32) = s.get EV_STAT.STAT (i / 32) := rfl
  rw [hstat]
  generalize s.get EV_STAT.STAT (i / 32) ||| 2 ^ (i % 32) = k
  have hrouted : ({ s with raising := rest, raises := m, raiseTs := n } : State).routedAt = s.routedAt := rfl
  have hclock : ({ s with raising := rest, raises := m, raiseTs := n } : State).clock = s.clock := rfl
  generalize ({ s with raising := rest, raises := m, raiseTs := n } : State) = x at *
  rw [State.put_routedAt, State.put_clock, hrouted, hclock]

theorem exec_raise (hcold : s.coldHeld = false) (h : s.raising = i :: rest) (hgone : s.cdGone = false)
    (hrouted : SMap.get (fun _ => 0) s.routedAt i ≠ s.clock + 1) : exec .eventRaise s = .next (routeRaise i (latched i rest s)) := by
  refine (act_next hcold _).trans ?_
  rw [eventRaiseS_eq h hgone, if_neg hrouted]

/-- The state in which the routes of source `i` act. -/
def routed (i : ℕ) (s : State) : State := { s with routedAt := SMap.set (fun _ => 0) s.routedAt i (s.clock + 1) }

theorem routed_frame : Frame (.ofParts [.routedAt]) s (routed i s) := .withRoutedAt .refl

/-- The scope of a raise up to its routes. -/
abbrev latchScope : Scope := .join [.ofParts [.raising, .raises, .raiseTs, .routedAt], .ofRegs [.EV_STAT]]

theorem routed_spec (i : ℕ) (rest : List ℕ) (s : State) : Raised i rest s (routed i (latched i rest s)) ∧
    Frame latchScope s (routed i (latched i rest s)) := by
  obtain ⟨hl, hf⟩ := latched_spec i rest s
  exact ⟨hl.frame routed_frame, (hf.mono (by decide)).lift (by decide) routed_frame⟩

/-- The route of source `i` to the manager (R297). -/
def managerRoute (i : ℕ) (s : State) : State :=
  if s.isSet EV_ROUTE.RY i && !s.isTop && s.isSet RY_GCFG.EVT_FWD && !s.ry.evPend.contains i then
    { s with ry := { s.ry with evPend := s.ry.evPend ++ [i] } }
  else s

theorem routeRaise_eq (i : ℕ) (y : State) : routeRaise i y =
    managerRoute i ((routed i y).when ((routed i y).isSet EV_ROUTE.MSIX i) (msixSend ((routed i y).get EV_ROUTE.VEC i))) := rfl

theorem managerRoute_none (h : s.isSet EV_ROUTE.RY i = false) : managerRoute i s = s := by
  rw [managerRoute, h, Bool.false_and, Bool.false_and, Bool.false_and, if_neg Bool.false_ne_true]

/-- A raise without a route. -/
theorem raise_unrouted (hcold : s.coldHeld = false) (hgone : s.cdGone = false) (hr : s.raising = i :: rest)
    (hmsix : s.isSet EV_ROUTE.MSIX i = false) (hry : s.isSet EV_ROUTE.RY i = false) :
    ∃ t, exec .eventRaise s = .next t ∧ Raised i rest s t ∧ Kept [.regs, .raising, .raises, .raiseTs, .routedAt] s t := by
  obtain ⟨hl, hf⟩ := latched_spec i rest s
  obtain ⟨hl', hf'⟩ := routed_spec i rest s
  by_cases hrouted : SMap.get (fun _ => 0) s.routedAt i = s.clock + 1
  · refine ⟨latched i rest s, (act_next hcold _).trans ?_, hl, hf.kept⟩
    rw [eventRaiseS_eq hr hgone, if_pos hrouted]
  · refine ⟨_, exec_raise hcold hr hgone hrouted, ?_⟩
    rw [routeRaise_eq, hf'.isSet, hmsix, State.when, if_neg Bool.false_ne_true, managerRoute_none (by rw [hf'.isSet, hry])]
    exact ⟨hl', hf'.kept⟩

/-- A raise whose route is a message. -/
theorem raise_message (hcold : s.coldHeld = false) (hgone : s.cdGone = false) (hr : s.raising = i :: rest)
    (hrouted : SMap.get (fun _ => 0) s.routedAt i ≠ s.clock + 1) (hmsix : s.isSet EV_ROUTE.MSIX i = true) (hv : s.get EV_ROUTE.VEC i = v)
    (hry : s.isSet EV_ROUTE.RY i = false) :
    exec .eventRaise s = .next (msixSend v (routed i (latched i rest s))) := by
  obtain ⟨-, hf⟩ := routed_spec i rest s
  rw [exec_raise hcold hr hgone hrouted, routeRaise_eq, hf.isSet, hmsix, State.when, if_pos rfl, hf.get, hv]
  have hsend : Frame (.join [latchScope, Frame.Scope.msixSend]) s (msixSend v (routed i (latched i rest s))) := .msixSend (hf.mono (by decide))
  rw [managerRoute_none (by rw [hsend.isSet, hry])]

/-- A raise whose route is the manager. -/
theorem raise_manager (hcold : s.coldHeld = false) (hgone : s.cdGone = false) (hr : s.raising = i :: rest)
    (hrouted : SMap.get (fun _ => 0) s.routedAt i ≠ s.clock + 1) (hmsix : s.isSet EV_ROUTE.MSIX i = false)
    (hry : s.isSet EV_ROUTE.RY i = true) (htop : s.isTop = false) (hfwd : s.isSet RY_GCFG.EVT_FWD = true) (hnew : i ∉ s.ry.evPend) :
    ∃ t, exec .eventRaise s = .next t ∧ Raised i rest s t ∧ t.ry.evPend = s.ry.evPend ++ [i] ∧
      Kept [.regs, .raising, .raises, .raiseTs, .routedAt, .ry] s t := by
  obtain ⟨hl, hf⟩ := routed_spec i rest s
  refine ⟨_, exec_raise hcold hr hgone hrouted, ?_⟩
  rw [routeRaise_eq, hf.isSet, hmsix, State.when, if_neg Bool.false_ne_true]
  have hryf : (routed i (latched i rest s)).ry = s.ry := hf.part .ry (by decide)
  have htop' : (routed i (latched i rest s)).isTop = false := by rw [State.isTop, hf.isSet, ← State.isTop, htop]
  rw [managerRoute, hf.isSet, hry, htop', hf.isSet, hfwd, hryf, if_pos (by simp [hnew])]
  generalize routed i (latched i rest s) = y at *
  have hx : Frame (.ofParts [.ry]) y { y with ry := { s.ry with evPend := s.ry.evPend ++ [i] } } := .withRy .refl
  exact ⟨hl.frame hx, rfl, ((hf.mono (by decide)).lift (w := .join [latchScope, .ofParts [.ry]]) (by decide) hx).kept⟩

/-! ### Masks (R359, R362) -/

/-- A message that waits and may go out does. -/
theorem msixFlush_sent (hwaits : (s.vec v).pending = true ∨ (s.vec v).merged = true) (hheld : s.vecHeld v = false) (hup : s.cdDown = false)
    (hfree : s.vecFree v = true) : Sent v s (msixFlush v s) ∧ Frame (.ofParts [.msix, .msgLast, .outs]) s (msixFlush v s) := by
  rw [msixFlush, if_pos (by rcases hwaits with h | h <;> simp [h, hheld, hfree])]
  exact msixSend_sent hheld hup hfree

theorem msixSend_ctrl (v : ℕ) (s : State) : ((msixSend v s).vec v).ctrl = (s.vec v).ctrl := by
  have hemit (x : State) (n : Option ℕ) : (({ x with msgLast := n } : State).emit (.msix v)).vec v = x.vec v := rfl
  unfold msixSend
  split
  · rw [vec_setVec, if_pos rfl]
  · split
    · rw [hemit, vec_setVec, if_pos rfl]
    · rw [vec_setVec, if_pos rfl]

theorem msixFlush_ctrl (v : ℕ) (s : State) : ((msixFlush v s).vec v).ctrl = (s.vec v).ctrl := by
  unfold msixFlush
  dsimp only
  split
  · exact msixSend_ctrl v s
  · rfl

/-- The one vector of a table holds a message, which nothing but the function's mask or bus mastering has held. -/
theorem flushAll_sent {x : Vec} (hone : s.msix = [(v, x)]) (hpending : x.pending = true) (hctrl : x.ctrl.getLsbD 0 = false)
    (hmask : s.fnMask = false) (hbme : s.bme = true) (hd3 : s.isSet PCIE_STAT.D3 = false) (hup : s.cdDown = false)
    (hfree : s.vecFree v = true) :
    Sent v s (msixFlushAll s) ∧ Frame (.ofParts [.msix, .msgLast, .outs]) s (msixFlushAll s) := by
  have hvec : s.vec v = x := by rw [State.vec, hone, SMap.get, if_pos rfl]
  have hall : msixFlushAll s = msixFlush v s := by
    rw [msixFlushAll, hone]
    rfl
  rw [hall]
  exact msixFlush_sent (.inl (by rw [hvec, hpending])) (by rw [State.vecHeld, hvec, hctrl, hmask, hbme, hd3]; rfl) hup hfree

theorem unmaskVector_sent (v : VectorIx) (hcold : s.coldHeld = false) (hup : s.cdDown = false) (hpending : (s.vec v).pending = true)
    (hmask : s.fnMask = false) (hbme : s.bme = true) (hbar : s.barOn = true) (hfree : s.vecFree v = true) :
    ∃ t, exec (.msixUnmask (.vector v)) s = .next t ∧ Sent v s t ∧ (t.vec v).ctrl.getLsbD 0 = false ∧ Kept [.msix, .msgLast, .outs] s t := by
  refine ⟨_, act_next hcold _, ?_⟩
  rw [msixUnmaskS]
  dsimp only
  rw [hbar, State.when, if_pos rfl]
  simp only [State.barOn, Bool.and_eq_true, Bool.not_eq_true'] at hbar
  have hvec (k : ℕ) := vec_setVec s v { s.vec v with ctrl := (s.vec v).ctrl &&& 0xFFFFFFFE } k
  have hf : Frame (.ofParts [.msix]) s (s.setVec v { s.vec v with ctrl := (s.vec v).ctrl &&& 0xFFFFFFFE }) := .setVec .refl
  generalize s.setVec v { s.vec v with ctrl := (s.vec v).ctrl &&& 0xFFFFFFFE } = y at *
  have hself := hvec v
  rw [if_pos rfl] at hself
  have hctrl : (y.vec v).ctrl.getLsbD 0 = false := by rw [hself]; simp
  have hheld : y.vecHeld v = false := by
    rw [State.vecHeld, hctrl, hf.part .fnMask (by decide), hmask, hf.part .bme (by decide), hbme, hf.isSet, hbar.1.2]
    rfl
  have hfree' : y.vecFree v = true := by
    rw [State.vecFree, hself, hf.part .msgLast (by decide), hf.clock, hf.gapTicks]
    exact hfree
  obtain ⟨hsent, hsf⟩ := msixFlush_sent (.inl (by rw [hself]; exact hpending)) hheld (hf.cdDown.trans hup) hfree'
  obtain ⟨houts, hpend, hlast, hothers⟩ := hsent
  rw [hf.clock] at hpend hlast
  refine ⟨⟨?_, hpend, hlast, fun k hk => ?_⟩, ?_, ((hf.mono (by decide)).lift (w := .ofParts [.msix, .msgLast, .outs]) (by decide) hsf).kept⟩
  · rw [houts, hf.part .outs (by decide)]
  · rw [hothers k hk, hvec, if_neg hk]
  · rw [msixFlush_ctrl, hctrl]

end

/-- Settles O60: a raise is counted and latched, its routes act once in a tick, and a held message goes out once it may. -/
theorem eventsComplete : Obligations.EventsComplete := by
  refine ⟨?_, ?_, ?_, ?_, ?_, ?_, ?_, ?_, ?_, ?_, ?_⟩
  · intro i rest s hcold hup hr hi hmsix hry
    obtain ⟨t, hexec, hl, hk⟩ := raise_unrouted hcold (Bool.or_eq_false_iff.mp hup).1 hr hmsix hry
    exact ⟨t, hexec, hl.raising, hl.stat, hl.count, hl.time, hl.regs, hk⟩
  · intro i v rest s hcold hup hr hi hrouted hmsix hv hry hheld hfree
    obtain ⟨hl, hf⟩ := routed_spec i rest s
    obtain ⟨hsent, hsf⟩ := msixSend_sent ((hf.vecHeld v).trans hheld) (hf.cdDown.trans hup) ((hf.vecFree v).trans hfree)
    exact ⟨_, raise_message hcold (Bool.or_eq_false_iff.mp hup).1 hr hrouted hmsix hv hry, (hl.frame hsf).raising, (hl.frame hsf).evSet, sent_of_frame hsent hf,
      ((hf.mono (by decide)).lift (w := .join [latchScope, .ofParts [.msix, .msgLast, .outs]]) (by decide) hsf).kept⟩
  · intro i v rest s hcold hup hr hi hrouted hmsix hv hry hheld
    obtain ⟨hl, hf⟩ := routed_spec i rest s
    obtain ⟨hpending, hsf⟩ := msixSend_held (v := v) (s := routed i (latched i rest s)) (by rw [hf.vecHeld, hheld, Bool.true_or])
    have htf := (hf.mono (by decide)).lift (w := .join [latchScope, .ofParts [.msix]]) (by decide) hsf
    exact ⟨_, raise_message hcold (Bool.or_eq_false_iff.mp hup).1 hr hrouted hmsix hv hry, (hl.frame hsf).raising, (hl.frame hsf).evSet, hpending,
      htf.part .outs (by decide), htf.kept⟩
  · intro i rest s hcold hup hr hi hrouted hmsix hry htop hfwd hnew
    obtain ⟨t, hexec, hl, hpend, hk⟩ := raise_manager hcold (Bool.or_eq_false_iff.mp hup).1 hr hrouted hmsix hry htop hfwd hnew
    exact ⟨t, hexec, hl.raising, hl.evSet, hpend, hk⟩
  · intro i v rest s hcold hgone hwarm hr hi hrouted hmsix hv hry
    obtain ⟨hl, hf⟩ := routed_spec i rest s
    have hdown : s.cdDown = true := by rw [State.cdDown, hwarm, Bool.or_true]
    obtain ⟨hpending, hsf⟩ := msixSend_held (v := v) (s := routed i (latched i rest s)) (by rw [hf.cdDown, hdown, Bool.or_true])
    have htf := (hf.mono (by decide)).lift (w := .join [latchScope, .ofParts [.msix]]) (by decide) hsf
    exact ⟨_, raise_message hcold hgone hr hrouted hmsix hv hry, (hl.frame hsf).raising, (hl.frame hsf).evSet, hpending,
      htf.part .outs (by decide), (hl.frame hsf).count, htf.kept⟩
  · intro i rest s hcold hgone hr hi hrouted
    obtain ⟨hl, hf⟩ := latched_spec i rest s
    refine ⟨latched i rest s, (act_next hcold _).trans ?_, hl.raising, hl.evSet, hl.count, hf.kept⟩
    rw [eventRaiseS_eq hr hgone, if_pos hrouted]
  · intro i rest s hcold hgone hr
    have hgone' : State.cdGone { s with raising := rest } = true := hgone
    refine (act_next hcold _).trans ?_
    unfold eventRaiseS
    rw [hr]
    dsimp only
    rw [if_pos hgone']
  · intro v s hcold hup hmerged hfree hheld
    obtain ⟨hsent, hsf⟩ := msixSend_sent hheld hup hfree
    refine ⟨_, (act_next hcold _).trans ?_, hsent, hsf.kept⟩
    rw [msixModerationEndS, hmerged, hfree, hup, if_pos (by decide)]
  · exact fun v s => unmaskVector_sent v
  · intro v x s hcold hup hone hpending hctrl hbme hlink hd3 hfree
    have hf : Frame (.ofParts [.fnMask]) s { s with fnMask := false } := .withFnMask .refl
    have hmask : ({ s with fnMask := false } : State).fnMask = false := rfl
    have hexec : exec (.msixUnmask .function) s = .next (msixFlushAll { s with fnMask := false }) := by
      refine (act_next hcold _).trans ?_
      rw [msixUnmaskS, hlink, State.when, if_pos rfl]
    rw [hexec]
    generalize ({ s with fnMask := false } : State) = y at *
    obtain ⟨hsent, hsf⟩ := flushAll_sent ((hf.part .msix (by decide)).trans hone) hpending hctrl hmask ((hf.part .bme (by decide)).trans hbme)
      (hf.isSet.trans hd3) (hf.cdDown.trans hup) ((hf.vecFree v).trans hfree)
    exact ⟨_, rfl, (hsf.part .fnMask (by decide)).trans hmask, sent_of_frame hsent hf,
      ((hf.mono (by decide)).lift (w := .ofParts [.fnMask, .msix, .msgLast, .outs]) (by decide) hsf).kept⟩
  · intro v x s hcold hup hone hpending hctrl hmask hlink hd3 hfree
    have hf : Frame (.ofParts [.bme]) s { s with bme := true } := .withBme .refl
    have hbme : ({ s with bme := true } : State).bme = true := rfl
    have hexec : exec (.msixUnmask .busMaster) s = .next (msixFlushAll { s with bme := true }) := by
      refine (act_next hcold _).trans ?_
      rw [msixUnmaskS, hlink, State.when, if_pos rfl]
    rw [hexec]
    generalize ({ s with bme := true } : State) = y at *
    obtain ⟨hsent, hsf⟩ := flushAll_sent ((hf.part .msix (by decide)).trans hone) hpending hctrl ((hf.part .fnMask (by decide)).trans hmask) hbme
      (hf.isSet.trans hd3) (hf.cdDown.trans hup) ((hf.vecFree v).trans hfree)
    exact ⟨_, rfl, (hsf.part .bme (by decide)).trans hbme, sent_of_frame hsent hf,
      ((hf.mono (by decide)).lift (w := .ofParts [.bme, .msix, .msgLast, .outs]) (by decide) hsf).kept⟩

end Sys2Proof.Proofs

/-! ## The scrubber and the change log (R317, R318, R325 to R327) -/

namespace Sys2Proof.Proofs

set_option Elab.async false

open Sys2Proof Sys2Proof.Machine Sys2Proof.Claims

section

variable {s t : State}

theorem get_bump {f : Fld} (s : State) (i j : ℕ) (h : f.lo + f.w ≤ 32) : (s.bump f i j).get f i j = (s.get f i j + 1) % 2 ^ f.w :=
  State.get_put _ _ _ _ _ h

theorem reg_bump {f : Fld} (s : State) (i j : ℕ) {a : ℕ} (h : a ≠ f.reg.at i j) : (s.bump f i j).reg a = s.reg a := State.reg_put _ _ _ _ _ _ h

/-! ### The scrubber (R317, R318) -/

theorem scrub_copy {v : Word} {n : ℕ} {r : RegAt} (hreg : regOf n = some r) (hup : s.cdDown = false) (hbar : s.barred n = false)
    (hconf : r.configuration = true) (hb : r.id.isPairB = false) (hthree : s.threeCopies r = true) (hne : v ≠ s.reg n) :
    cfgparScrubS n v s = s.bump CFGPAR_CNT.CORRECTED := by
  rw [cfgparScrubS, hreg]
  dsimp only
  rw [State.vetchOff, hup, hbar, hconf, hb, if_neg (by decide), hthree, if_pos rfl, if_neg hne]

/-- The state in which the scrubber reports a mismatch at `a`. -/
def mismatched (a : ℕ) (s : State) : State :=
  ((s.put CFGPAR_STAT.LAST_ADDR (a / 4)).put CFGPAR_STAT.MISMATCH 1).put VETCH_STAT.CFGPAR_SEEN 1

theorem scrub_mismatch {v : Word} {n : ℕ} {r : RegAt} (hreg : regOf n = some r) (hup : s.cdDown = false) (hbar : s.barred n = false)
    (hconf : r.configuration = true) (hb : r.id.isPairB = false) (hthree : s.threeCopies r = false) (hgood : s.badAt n = none)
    (htells : parityTells (s.reg n) v = true) (heng : r.id ∉ regIdsEngine) (hq : r.id ∉ regIdsQueue) :
    cfgparScrubS n v s =
      let t := ((mismatched n s).raise 369).log oFault kCFGPAR n (s.reg n) v ((n - regionOf n) / 0x4000)
      { t with parBad := t.parBad ++ [(n, v)] } := by
  rw [cfgparScrubS, hreg]
  dsimp only
  rw [State.vetchOff, hup, hbar, hconf, hb, if_neg (by decide), hthree, if_neg Bool.false_ne_true, hgood, htells, if_neg (by decide), thawed, hreg]
  dsimp only
  rw [if_neg heng, if_neg hq]
  rfl

theorem parityTells_self (w : Word) : parityTells w w = false := by
  have hzero : (w ^^^ w).toNat = 0 := by simp
  rw [parityTells, hzero]
  decide

theorem scrub_unchanged (n : ℕ) (s : State) : cfgparScrubS n (s.reg n) s = s := by
  unfold cfgparScrubS
  split
  · rfl
  · rw [if_pos rfl, parityTells_self, Bool.not_false, Bool.or_true, if_pos rfl]
    simp

theorem mismatch_complete {a : RegAddr} {v : Word} {r : RegAt} (hcold : s.coldHeld = false) (hup : s.cdDown = false)
    (hreg : regOf a.toNat = some r) (hbar : s.barred a.toNat = false) (hconf : r.configuration = true) (hb : r.id.isPairB = false)
    (hthree : s.threeCopies r = false) (hgood : s.badAt a.toNat = none) (htells : parityTells (s.reg a.toNat) v = true)
    (hroom : s.tansyQ.length < 256) (heng : r.id ∉ regIdsEngine) (hq : r.id ∉ regIdsQueue) :
    ∃ t, exec (.cfgparScrub a v) s = .next t ∧ t.isSet CFGPAR_STAT.MISMATCH = true ∧
      t.get CFGPAR_STAT.LAST_ADDR = a.toNat / 4 ∧ t.isSet VETCH_STAT.CFGPAR_SEEN = true ∧ t.raising = s.raising ++ [369] ∧
      t.frozen a.toNat = true ∧ t.badAt a.toNat = some v ∧ RegsKept [RegId.CFGPAR_STAT.at, RegId.VETCH_STAT.at] s t ∧
      Kept [.regs, .raising, .tansyQ, .parBad] s t := by
  refine ⟨_, (act_next hcold _).trans (congrArg Host.Outcome.next (scrub_mismatch hreg hup hbar hconf hb hthree hgood htells heng hq)), ?_⟩
  have hlast : (mismatched a.toNat s).get CFGPAR_STAT.LAST_ADDR = a.toNat / 4 := by
    rw [mismatched, get_put_of_apart (by decide), get_put_of_apart (by decide)]
    exact get_put_lt _ _ (by decide) (by have := a.isLt; show _ < 2 ^ 24; omega)
  have hmis : (mismatched a.toNat s).isSet CFGPAR_STAT.MISMATCH = true := by
    rw [mismatched, isSet_put_of_apart (by decide), isSet_put_one _ _ (by decide)]
  have hseen : (mismatched a.toNat s).isSet VETCH_STAT.CFGPAR_SEEN = true := by
    rw [mismatched, isSet_put_one _ _ (by decide)]
  have hf : Frame (.ofRegs [.CFGPAR_STAT, .VETCH_STAT]) s (mismatched a.toNat s) := .put (.put (.put .refl))
  generalize mismatched a.toNat s = x at *
  have hraise : Frame (.ofParts [.raising]) x (x.raise 369) := .raise .refl
  have hraised : (x.raise 369).raising = x.raising ++ [369] := rfl
  obtain ⟨q, hlog⟩ := log_room (s := x.raise 369) (by rw [hraise.part .tansyQ (by decide), hf.part .tansyQ (by decide)]; exact hroom) kCFGPAR a.toNat
    (s.reg a.toNat) v ((a.toNat - regionOf a.toNat) / 0x4000) (o := oFault)
  dsimp only
  rw [hlog]
  generalize x.raise 369 = y at *
  have hy : Frame (.join [.ofParts [.raising, .tansyQ, .parBad], .ofRegs [.CFGPAR_STAT, .VETCH_STAT]]) s y :=
    (hf.mono (by decide)).lift (by decide) hraise
  have hz : Frame (.ofParts [.tansyQ]) y { y with tansyQ := q } := .withTansyQ .refl
  have hzr : ({ y with tansyQ := q } : State).raising = y.raising := rfl
  have hbad : ({ y with tansyQ := q } : State).parBad = s.parBad := (hraise.part .parBad (by decide)).trans (hf.part .parBad (by decide))
  generalize ({ y with tansyQ := q } : State) = z at *
  have hregs : ({ z with parBad := z.parBad ++ [(a.toNat, v)] } : State).regs = x.regs :=
    (hz.part .regs (by decide)).trans (hraise.part .regs (by decide))
  have hget (f : Fld) : ({ z with parBad := z.parBad ++ [(a.toNat, v)] } : State).get f = x.get f := State.get_congr hregs ..
  have hset (f : Fld) : ({ z with parBad := z.parBad ++ [(a.toNat, v)] } : State).isSet f = x.isSet f := by
    rw [State.isSet, hget, ← State.isSet]
  have hall : Frame (.join [.ofParts [.raising, .tansyQ, .parBad], .ofRegs [.CFGPAR_STAT, .VETCH_STAT]]) s
      { z with parBad := z.parBad ++ [(a.toNat, v)] } := .withParBad (hy.lift (by decide) hz)
  refine ⟨(hset _).trans hmis, (hget _).trans hlast, (hset _).trans hseen, ?_, ?_, ?_, hall.regsKept [.CFGPAR_STAT, .VETCH_STAT], hall.kept⟩
  · exact hzr.trans (hraised.trans (by rw [hf.part .raising (by decide)]))
  · simp [State.frozen]
  · rw [State.badAt, Option.map_eq_none_iff] at hgood
    rw [State.badAt]
    dsimp only
    rw [hbad, List.find?_append, hgood]
    simp

/-! ### The ring (R326, R327) -/

/-- The state once a record stands in its slot. -/
def recordStored (r : LogRec) (s : State) : State :=
  let x := s.store (tansySlot (s.get TANSY_WR.WR)) (r.bytes s.tansySeq)
  { x.put TANSY_WR.WR (s.get TANSY_WR.WR + 1) with tansySeq := x.tansySeq + 1 }

theorem recordStored_spec (r : LogRec) (s : State) :
    WroteMem (tansySlot (s.get TANSY_WR.WR)) (r.bytes s.tansySeq) s (recordStored r s) ∧
      (recordStored r s).get TANSY_WR.WR = (s.get TANSY_WR.WR + 1) % 65536 ∧ (recordStored r s).tansySeq = s.tansySeq + 1 ∧
      Frame (.join [.ofParts [.mem, .badWords, .ecc, .tansySeq], .ofRegs [.TANSY_WR]]) s (recordStored r s) := by
  obtain ⟨hbyte, hbad⟩ := store_wrote s (tansySlot (s.get TANSY_WR.WR)) (r.bytes s.tansySeq)
  unfold recordStored
  have hx : Frame (.ofParts [.mem, .badWords, .ecc]) s (s.store (tansySlot (s.get TANSY_WR.WR)) (r.bytes s.tansySeq)) := .store .refl
  generalize s.store (tansySlot (s.get TANSY_WR.WR)) (r.bytes s.tansySeq) = x at *
  have hwr : (x.put TANSY_WR.WR (s.get TANSY_WR.WR + 1)).get TANSY_WR.WR = (s.get TANSY_WR.WR + 1) % 65536 := State.get_put _ _ _ _ _ (by decide)
  have hy : Frame (.ofRegs [.TANSY_WR]) x (x.put TANSY_WR.WR (s.get TANSY_WR.WR + 1)) := .put .refl
  dsimp only
  rw [hx.part .tansySeq (by decide)]
  generalize x.put TANSY_WR.WR (s.get TANSY_WR.WR + 1) = y at *
  generalize s.tansySeq + 1 = n
  have hz : Frame (.ofParts [.tansySeq]) y { y with tansySeq := n } := .withTansySeq .refl
  refine ⟨⟨fun a => ?_, fun w => ?_⟩, ?_, rfl, ?_⟩
  · rw [← hbyte, State.byte, hz.mem, hy.mem, ← State.byte]
  · rw [← hbad, hz.part .badWords (by decide), hy.part .badWords (by decide)]
  · rw [hz.get, hwr]
  · exact ((hx.mono (w := .join [.ofParts [.mem, .badWords, .ecc, .tansySeq], .ofRegs [.TANSY_WR]]) (by decide)).lift (by decide) hy).lift
      (by decide) hz

theorem tansyPut_eq (r : LogRec) (s : State) : tansyPut r s =
    let t := recordStored r s
    if t.isSet TANSY_CFG.MODE then
      if t.get TANSY_WR.WR = t.get TANSY_RD.RD then { (t.put TANSY_WR.FULL 1).put TANSY_STAT.FULL_SEEN 1 with tansyUnrel := tansySlots }
      else { t with tansyUnrel := (t.get TANSY_WR.WR + tansySlots - t.get TANSY_RD.RD) % tansySlots }
    else if t.tansyUnrel < tansySlots then { t with tansyUnrel := t.tansyUnrel + 1 }
    else (t.bump TANSY_CNT.OVERWRITTEN).put TANSY_STAT.WRAPPED 1 := by
  unfold tansyPut recordStored
  rfl

theorem wroteMem_frame {w : Scope} {u : State} {a : ℕ} {bs : List Byte} (h : WroteMem a bs s t) (hf : Frame w t u)
    (hm : w.hasPart .mem = false := by decide) (hb : w.hasPart .badWords = false := by decide) : WroteMem a bs s u := by
  obtain ⟨hbyte, hbad⟩ := h
  exact ⟨fun x => by rw [← hbyte, State.byte, hf.part .mem hm, ← State.byte], fun x => by rw [← hbad, hf.part .badWords hb]⟩

theorem tansyPut_wrote (r : LogRec) (s : State) : WroteMem (tansySlot (s.get TANSY_WR.WR)) (r.bytes s.tansySeq) s (tansyPut r s) ∧
    (tansyPut r s).tansySeq = s.tansySeq + 1 := by
  obtain ⟨hwrote, -, hseq, -⟩ := recordStored_spec r s
  rw [tansyPut_eq]
  generalize recordStored r s = x at *
  dsimp only
  have hfull : Frame (.join [.ofParts [.tansyUnrel], .ofRegs [.TANSY_WR, .TANSY_STAT]]) x
      { (x.put TANSY_WR.FULL 1).put TANSY_STAT.FULL_SEEN 1 with tansyUnrel := tansySlots } := .withTansyUnrel (.put (.put .refl))
  have hover : Frame (.ofRegs [.TANSY_CNT, .TANSY_STAT]) x ((x.bump TANSY_CNT.OVERWRITTEN).put TANSY_STAT.WRAPPED 1) := .put (.bump .refl)
  have hunrel (n : ℕ) : Frame (.ofParts [.tansyUnrel]) x { x with tansyUnrel := n } := .withTansyUnrel .refl
  split
  · split
    · exact ⟨wroteMem_frame hwrote hfull, (hfull.part .tansySeq (by decide)).trans hseq⟩
    · exact ⟨wroteMem_frame hwrote (hunrel _), ((hunrel _).part .tansySeq (by decide)).trans hseq⟩
  · split
    · exact ⟨wroteMem_frame hwrote (hunrel _), ((hunrel _).part .tansySeq (by decide)).trans hseq⟩
    · exact ⟨wroteMem_frame hwrote hover, (hover.part .tansySeq (by decide)).trans hseq⟩

/-- Where a record goes in ring mode (R326). -/
theorem tansyPut_ring {r : LogRec} (hmode : s.isSet TANSY_CFG.MODE = false) : tansyPut r s =
    if (recordStored r s).tansyUnrel < 65536 then { recordStored r s with tansyUnrel := (recordStored r s).tansyUnrel + 1 }
    else ((recordStored r s).bump TANSY_CNT.OVERWRITTEN).put TANSY_STAT.WRAPPED 1 := by
  obtain ⟨-, -, -, hf⟩ := recordStored_spec r s
  rw [tansyPut_eq]
  dsimp only
  rw [hf.isSet, hmode, if_neg Bool.false_ne_true]

theorem tansyStore_ring {r : LogRec} {rest : List LogRec} (hcold : s.coldHeld = false) (hup : s.cdDown = false) (hboot : s.boot ≠ .sram)
    (hbank : s.bankLost 12 = false) (hstop : s.tansyStopped = false) (hgap : s.tansyGap = 0) (hq : s.tansyQ = r :: rest)
    (hmode : s.isSet TANSY_CFG.MODE = false) :
    ∃ t, exec .tansyStore s = .next t ∧ t.tansyQ = rest ∧ WroteMem (tansySlot (s.get TANSY_WR.WR)) ((r.stored s).bytes s.tansySeq) s t ∧
      t.get TANSY_WR.WR = (s.get TANSY_WR.WR + 1) % 65536 ∧ t.tansySeq = s.tansySeq + 1 ∧
      (s.tansyUnrel < 65536 → t.tansyUnrel = s.tansyUnrel + 1 ∧ RegsKept [RegId.TANSY_WR.at] s t) ∧
      (65536 ≤ s.tansyUnrel → t.get TANSY_CNT.OVERWRITTEN = (s.get TANSY_CNT.OVERWRITTEN + 1) % 65536 ∧
        t.isSet TANSY_STAT.WRAPPED = true) ∧
      RegsKept [RegId.TANSY_WR.at, RegId.TANSY_CNT.at, RegId.TANSY_STAT.at] s t ∧
      Kept [.regs, .mem, .badWords, .ecc, .tansyQ, .tansySeq, .tansyUnrel] s t := by
  have hexec : exec .tansyStore s = .next (tansyPut (r.stored s) { s with tansyQ := rest }) := by
    refine (act_next hcold _).trans ?_
    rw [tansyStoreS, State.vetchOff, hup, if_neg (by simp [hboot]), hbank, if_neg Bool.false_ne_true, hstop, if_neg Bool.false_ne_true, hgap,
      if_neg (by simp), hq]
  have hx : Frame (.ofParts [.tansyQ]) s { s with tansyQ := rest } := .withTansyQ .refl
  have hxq : ({ s with tansyQ := rest } : State).tansyQ = rest := rfl
  have hxw (a : ℕ) (bs : List Byte) (t : State) (h : WroteMem a bs { s with tansyQ := rest } t) : WroteMem a bs s t := h
  generalize ({ s with tansyQ := rest } : State) = x at *
  generalize r.stored s = r' at *
  obtain ⟨hwrote, hwr, hseq, hf⟩ := recordStored_spec r' x
  rw [tansyPut_ring (hx.isSet.trans hmode)] at hexec
  rw [hx.get, hx.part .tansySeq (by decide)] at hwrote
  rw [hx.get] at hwr
  rw [hx.part .tansySeq (by decide)] at hseq
  generalize recordStored r' x = y at *
  have hy : Frame (.join [.ofParts [.tansyQ, .mem, .badWords, .ecc, .tansySeq], .ofRegs [.TANSY_WR]]) s y := (hx.mono (by decide)).lift (by decide) hf
  have hyq : y.tansyQ = rest := (hf.part .tansyQ (by decide)).trans hxq
  have hunrel : y.tansyUnrel = s.tansyUnrel := hy.part .tansyUnrel (by decide)
  rw [hunrel] at hexec
  by_cases hlt : s.tansyUnrel < 65536
  · rw [if_pos hlt] at hexec
    generalize hn : s.tansyUnrel + 1 = n at *
    have hz : Frame (.ofParts [.tansyUnrel]) y { y with tansyUnrel := n } := .withTansyUnrel .refl
    have hzu : ({ y with tansyUnrel := n } : State).tansyUnrel = n := rfl
    generalize ({ y with tansyUnrel := n } : State) = z at *
    have hall : Frame (.join [.ofParts [.tansyQ, .mem, .badWords, .ecc, .tansySeq, .tansyUnrel], .ofRegs [.TANSY_WR]]) s z :=
      (hy.mono (by decide)).lift (by decide) hz
    exact ⟨z, hexec, (hz.part .tansyQ (by decide)).trans hyq, wroteMem_frame (hxw _ _ _ hwrote) hz, hz.get.trans hwr, (hz.part .tansySeq (by decide)).trans hseq,
      fun _ => ⟨hzu, hall.regsKept [.TANSY_WR]⟩, fun h => absurd hlt (by omega),
      (hall.mono (w := .join [.ofParts [.tansyQ, .mem, .badWords, .ecc, .tansySeq, .tansyUnrel], .ofRegs [.TANSY_WR, .TANSY_CNT, .TANSY_STAT]])
        (by decide)).regsKept [.TANSY_WR, .TANSY_CNT, .TANSY_STAT], hall.kept⟩
  · rw [if_neg hlt] at hexec
    have hz : Frame (.ofRegs [.TANSY_CNT, .TANSY_STAT]) y ((y.bump TANSY_CNT.OVERWRITTEN).put TANSY_STAT.WRAPPED 1) := .put (.bump .refl)
    have hcnt : ((y.bump TANSY_CNT.OVERWRITTEN).put TANSY_STAT.WRAPPED 1).get TANSY_CNT.OVERWRITTEN = (s.get TANSY_CNT.OVERWRITTEN + 1) % 65536 := by
      rw [get_put_of_apart (by decide), get_bump _ _ _ (by decide), hy.get]
      rfl
    have hwrap : ((y.bump TANSY_CNT.OVERWRITTEN).put TANSY_STAT.WRAPPED 1).isSet TANSY_STAT.WRAPPED = true := isSet_put_one _ _ (by decide)
    generalize (y.bump TANSY_CNT.OVERWRITTEN).put TANSY_STAT.WRAPPED 1 = z at *
    have hall : Frame (.join [.ofParts [.tansyQ, .mem, .badWords, .ecc, .tansySeq], .ofRegs [.TANSY_WR, .TANSY_CNT, .TANSY_STAT]]) s z :=
      (hy.mono (by decide)).lift (by decide) hz
    exact ⟨z, hexec, (hz.part .tansyQ (by decide)).trans hyq, wroteMem_frame (hxw _ _ _ hwrote) hz, hz.get.trans hwr, (hz.part .tansySeq (by decide)).trans hseq,
      fun h => absurd h hlt, fun _ => ⟨hcnt, hwrap⟩, hall.regsKept [.TANSY_WR, .TANSY_CNT, .TANSY_STAT], hall.kept⟩

theorem tansyStore_stopped {r : LogRec} {rest : List LogRec} (hcold : s.coldHeld = false) (hup : s.cdDown = false) (hboot : s.boot ≠ .sram)
    (hbank : s.bankLost 12 = false) (hstop : s.tansyStopped = true) (hq : s.tansyQ = r :: rest) :
    ∃ t, exec .tansyStore s = .next t ∧ t.tansyQ = rest ∧ t.tansyGap = s.tansyGap + 1 ∧
      t.get TANSY_CNT.LOST = (s.get TANSY_CNT.LOST + 1) % 65536 ∧ t.isSet TANSY_STAT.LOST_SEEN = true ∧
      RegsKept [RegId.TANSY_CNT.at, RegId.TANSY_STAT.at] s t ∧ Kept [.regs, .tansyQ, .tansyGap] s t := by
  have hexec : exec .tansyStore s = .next (tansyLose { s with tansyQ := rest, tansyGap := s.tansyGap + 1 }) := by
    refine (act_next hcold _).trans ?_
    rw [tansyStoreS, State.vetchOff, hup, if_neg (by simp [hboot]), hbank, if_neg Bool.false_ne_true, hstop, if_pos rfl, hq]
  generalize s.tansyGap + 1 = n at *
  have hx : Frame (.ofParts [.tansyQ, .tansyGap]) s { s with tansyQ := rest, tansyGap := n } := .withTansyQTansyGap .refl
  have hxq : ({ s with tansyQ := rest, tansyGap := n } : State).tansyQ = rest := rfl
  have hxg : ({ s with tansyQ := rest, tansyGap := n } : State).tansyGap = n := rfl
  generalize ({ s with tansyQ := rest, tansyGap := n } : State) = x at *
  have hlost : (tansyLose x).get TANSY_CNT.LOST = (s.get TANSY_CNT.LOST + 1) % 65536 := by
    rw [tansyLose, get_put_of_apart (by decide), get_bump _ _ _ (by decide), hx.get]
    rfl
  have hseen : (tansyLose x).isSet TANSY_STAT.LOST_SEEN = true := isSet_put_one _ _ (by decide)
  have hf : Frame (.ofRegs [.TANSY_CNT, .TANSY_STAT]) x (tansyLose x) := .tansyLose .refl
  generalize tansyLose x = t at *
  have hall : Frame (.join [.ofParts [.tansyQ, .tansyGap], .ofRegs [.TANSY_CNT, .TANSY_STAT]]) s t := (hx.mono (by decide)).lift (by decide) hf
  exact ⟨t, hexec, (hf.part .tansyQ (by decide)).trans hxq, (hf.part .tansyGap (by decide)).trans hxg, hlost, hseen,
    hall.regsKept [.TANSY_CNT, .TANSY_STAT], hall.kept⟩

theorem tansyStore_gap (hcold : s.coldHeld = false) (hup : s.cdDown = false) (hboot : s.boot ≠ .sram) (hbank : s.bankLost 12 = false)
    (hstop : s.tansyStopped = false) (hgap : s.tansyGap ≠ 0) (hroom : s.tansyQ.length < 256) :
    ∃ t, exec .tansyStore s = .next t ∧ t.tansyQ = s.tansyQ ∧ t.tansyGap = 0 ∧ t.raising = s.raising ++ [370] ∧
      WroteMem (tansySlot (s.get TANSY_WR.WR)) ((gapRecord s).bytes s.tansySeq) s t ∧ t.tansySeq = s.tansySeq + 1 := by
  have hexec : exec .tansyStore s = .next ((tansyPut (gapRecord s) { s with tansyGap := 0 }).raise 370) := by
    refine (act_next hcold _).trans ?_
    rw [tansyStoreS, State.vetchOff, hup, if_neg (by simp [hboot]), hbank, if_neg Bool.false_ne_true, hstop, if_neg Bool.false_ne_true,
      if_pos (by simp [hgap, hroom])]
  generalize gapRecord s = r at *
  have hx : Frame (.ofParts [.tansyGap]) s { s with tansyGap := 0 } := .withTansyGap .refl
  have hxg : ({ s with tansyGap := 0 } : State).tansyGap = 0 := rfl
  have hxw (a : ℕ) (bs : List Byte) (t : State) (h : WroteMem a bs { s with tansyGap := 0 } t) : WroteMem a bs s t := h
  generalize ({ s with tansyGap := 0 } : State) = x at *
  obtain ⟨hwrote, hseq⟩ := tansyPut_wrote r x
  rw [hx.get, hx.part .tansySeq (by decide)] at hwrote
  rw [hx.part .tansySeq (by decide)] at hseq
  have hf : Frame Frame.Scope.tansyPut x (tansyPut r x) := .tansyPut .refl
  generalize tansyPut r x = y at *
  have hz : Frame (.ofParts [.raising]) y (y.raise 370) := .raise .refl
  refine ⟨_, hexec, ?_, ?_, ?_, wroteMem_frame (hxw _ _ _ hwrote) hz, ?_⟩
  · rw [hz.part .tansyQ (by decide), hf.part .tansyQ (by decide), hx.part .tansyQ (by decide)]
  · rw [hz.part .tansyGap (by decide), hf.part .tansyGap (by decide), hxg]
  · rw [show (y.raise 370).raising = y.raising ++ [370] from rfl, hf.part .raising (by decide), hx.part .raising (by decide)]
  · rw [hz.part .tansySeq (by decide), hseq]

/-! ### Releases (R326) -/

theorem plain_tansyRd : Plain .TANSY_RD := ⟨by decide, by decide, by decide, by decide⟩

theorem hook_release {o : ℕ} {m old v : Word} (h : fieldOf v 0 16 ≠ s.get TANSY_WR.WR) :
    writeHook o ⟨.TANSY_RD, 0, 0⟩ m old v s =
      (v, { s.put TANSY_WR.FULL 0 with tansyUnrel := (s.get TANSY_WR.WR + 65536 - fieldOf v 0 16) % 65536 }) := by
  unfold writeHook
  dsimp only
  rw [if_pos h]

theorem hook_caughtUp {o : ℕ} {m old v : Word} (h : fieldOf v 0 16 = s.get TANSY_WR.WR) :
    writeHook o ⟨.TANSY_RD, 0, 0⟩ m old v s =
      if s.isSet TANSY_WR.FULL then (v, s) else (v, { s with tansyUnrel := 0 }) := by
  unfold writeHook
  dsimp only
  rw [if_neg (by simp [h])]

theorem get_setReg_tansyRd (v : Word) (y : State) : (y.setReg RegId.TANSY_RD.at v).get TANSY_RD.RD = fieldOf v 0 16 := by
  rw [State.get, State.reg_setReg, if_pos rfl]

theorem release_complete {o : Origin} {v : Word} (h : s.writes o .TANSY_RD 0 0 v = true) (hne : fieldOf v 0 16 ≠ s.get TANSY_WR.WR) :
    ∃ t, exec (.tansyRdWrite o v) s = .next t ∧ t.get TANSY_RD.RD = fieldOf v 0 16 ∧ t.isSet TANSY_WR.FULL = false ∧
      t.tansyUnrel = (s.get TANSY_WR.WR + 65536 - fieldOf v 0 16) % 65536 ∧
      RegsKept [RegId.TANSY_RD.at, RegId.TANSY_WR.at] s t ∧ Kept [.regs, .tansyQ, .tansyUnrel] s t := by
  obtain ⟨q, hq⟩ := busWrite_hook h plain_tansyRd
  have hx : Frame (.ofParts [.tansyQ]) s { s with tansyQ := q } := .withTansyQ .refl
  generalize ({ s with tansyQ := q } : State) = x at *
  have hafter (old : Word) (u : State) : afterWrite ⟨.TANSY_RD, 0, 0⟩ old u = u := rfl
  rw [hook_release hne, hook_release (fun heq => hne (heq.trans hx.get)), hafter, hx.get] at hq
  dsimp only at hq
  generalize (s.get TANSY_WR.WR + 65536 - fieldOf v 0 16) % 65536 = n at *
  have hy : Frame (.ofRegs [.TANSY_WR]) x (x.put TANSY_WR.FULL 0) := .put .refl
  have hfull : (x.put TANSY_WR.FULL 0).isSet TANSY_WR.FULL = false := isSet_put_zero _ _ (by decide)
  generalize x.put TANSY_WR.FULL 0 = y at *
  have hz : Frame (.ofParts [.tansyUnrel]) y { y with tansyUnrel := n } := .withTansyUnrel .refl
  have hzn : ({ y with tansyUnrel := n } : State).tansyUnrel = n := rfl
  generalize ({ y with tansyUnrel := n } : State) = z at *
  have ht : Frame (.ofRegs [.TANSY_RD]) z (z.setReg RegId.TANSY_RD.at v) := .setReg .refl
  have hall : Frame (.join [.ofParts [.tansyQ, .tansyUnrel], .ofRegs [.TANSY_RD, .TANSY_WR]]) s (z.setReg RegId.TANSY_RD.at v) :=
    (((hx.mono (by decide)).lift (by decide) hy).lift (by decide) hz).lift (by decide) ht
  refine ⟨_, hq, get_setReg_tansyRd v z, ?_, ?_, hall.regsKept [.TANSY_RD, .TANSY_WR], hall.kept⟩
  · rw [ht.isSet, hz.isSet, hfull]
  · rw [ht.part .tansyUnrel (by decide), hzn]

theorem caughtUp_complete {o : Origin} {v : Word} (h : s.writes o .TANSY_RD 0 0 v = true) (heq : fieldOf v 0 16 = s.get TANSY_WR.WR) :
    ∃ t, exec (.tansyRdWrite o v) s = .next t ∧ t.get TANSY_RD.RD = fieldOf v 0 16 ∧
      t.tansyUnrel = (if s.isSet TANSY_WR.FULL then s.tansyUnrel else 0) ∧
      RegsKept [RegId.TANSY_RD.at] s t ∧ Kept [.regs, .tansyQ, .tansyUnrel] s t := by
  obtain ⟨q, hq⟩ := busWrite_hook h plain_tansyRd
  have hx : Frame (.ofParts [.tansyQ]) s { s with tansyQ := q } := .withTansyQ .refl
  generalize ({ s with tansyQ := q } : State) = x at *
  have hafter (old : Word) (u : State) : afterWrite ⟨.TANSY_RD, 0, 0⟩ old u = u := rfl
  rw [hook_caughtUp heq, hook_caughtUp (heq.trans hx.get.symm), hafter, hx.isSet] at hq
  have ht (z : State) : Frame (.ofRegs [.TANSY_RD]) z (z.setReg RegId.TANSY_RD.at v) := .setReg .refl
  by_cases hfull : s.isSet TANSY_WR.FULL = true
  · rw [hfull] at hq ⊢
    have hall : Frame (.join [.ofParts [.tansyQ], .ofRegs [.TANSY_RD]]) s (x.setReg RegId.TANSY_RD.at v) := (hx.mono (by decide)).lift (by decide) (ht x)
    exact ⟨_, hq, get_setReg_tansyRd v x, hall.part .tansyUnrel (by decide), hall.regsKept [.TANSY_RD], hall.kept⟩
  · rw [Bool.not_eq_true] at hfull
    rw [hfull] at hq ⊢
    have hz : Frame (.ofParts [.tansyUnrel]) x { x with tansyUnrel := 0 } := .withTansyUnrel .refl
    have hzn : ({ x with tansyUnrel := 0 } : State).tansyUnrel = 0 := rfl
    simp only [Bool.false_eq_true, if_false] at hq ⊢
    generalize ({ x with tansyUnrel := 0 } : State) = z at *
    have hall : Frame (.join [.ofParts [.tansyQ, .tansyUnrel], .ofRegs [.TANSY_RD]]) s (z.setReg RegId.TANSY_RD.at v) :=
      ((hx.mono (by decide)).lift (by decide) hz).lift (by decide) (ht z)
    exact ⟨_, hq, get_setReg_tansyRd v z, ((ht z).part .tansyUnrel (by decide)).trans hzn, hall.regsKept [.TANSY_RD], hall.kept⟩

end

/-- Settles O57: what the scrubber reports, what the ring takes and loses, and what a release frees. -/
theorem scrubberAndChangeLogComplete : Obligations.ScrubberAndChangeLogComplete := by
  refine ⟨?_, ?_, ?_, ?_, ?_, ?_, ?_, ?_⟩
  · intro a v r s hcold hup hreg hbar hconf hb hthree hne
    refine ⟨_, (act_next hcold _).trans (congrArg Host.Outcome.next (scrub_copy hreg hup hbar hconf hb hthree hne)), get_bump _ _ _ (by decide), ?_, ?_⟩
    · exact (show Frame (.ofRegs [.CFGPAR_CNT]) s (s.bump CFGPAR_CNT.CORRECTED) from .bump .refl).regsKept [.CFGPAR_CNT]
    · exact (show Frame (.ofRegs [.CFGPAR_CNT]) s (s.bump CFGPAR_CNT.CORRECTED) from .bump .refl).kept
  · intro a v r s
    exact mismatch_complete
  · intro a s hgood
    rw [show exec (.cfgparScrub a (s.reg a.toNat)) s = act (cfgparScrubS a.toNat (s.reg a.toNat)) s from rfl, act, scrub_unchanged, ite_self]
  · exact fun r rest s => tansyStore_ring
  · exact fun r rest s => tansyStore_stopped
  · exact fun s => tansyStore_gap
  · exact fun o v s => release_complete
  · exact fun o v s => caughtUp_complete

end Sys2Proof.Proofs

/-! ## The endpoint (R352 to R356) -/

namespace Sys2Proof.Proofs

set_option Elab.async false

open Sys2Proof Sys2Proof.Machine Sys2Proof.Claims

section

variable {s t : State}

/-! ### BAR0 (R355) -/

/-- A plain read returns its register's word, and nothing else happens. -/
theorem vetchRead_plain {o a : ℕ} (h : plainRead o a s) : vetchRead o a s = (some (wordAt a s), s) := by
  obtain ⟨hserves, r, hr, hread, hrcc⟩ := h
  rw [vetchRead_of_served (serves_iff.mp hserves) hr, readReg, hread, if_neg Bool.false_ne_true, hrcc, if_pos rfl, wordAt, hr]

theorem bar0Access_read {a : ℕ} {v : Word} (h : plainRead oPcie a s) :
    bar0Access a false v s = s.emit (.readData oPcie a (wordAt a s)) := by
  rw [bar0Access, if_neg Bool.false_ne_true, vetchRead_plain h]
  rfl

theorem bar0Read_complete {r : BarRequest} (hcold : s.coldHeld = false) (hon : s.barOn = true) (hdws : r.dws = 1 ∨ r.dws = 2)
    (hall : r.allBytes = true) (halign : r.addr.toNat % (4 * r.dws) = 0) (hread : r.write = false)
    (hplain : ∀ i, i < r.dws → plainRead oPcie (r.addr.toNat + 4 * i) s) :
    ∃ t, exec (.bar0Request r) s = .next t ∧
      t.outs = s.outs ++ (List.range r.dws).map (fun i =>
        .readData oPcie (r.addr.toNat + 4 * i) (wordAt (r.addr.toNat + 4 * i) s)) ∧ Kept [.outs] s t := by
  have hexec : exec (.bar0Request r) s =
      .next (forBelow r.dws (fun i s => bar0Access (r.addr.toNat + 4 * i) r.write (r.data.getD i 0) s) s) := by
    refine (act_next hcold _).trans ?_
    rw [bar0RequestS, hon, if_neg (by simp), if_pos (by rcases hdws with h | h <;> simp [h, hall] <;> simpa [h] using halign)]
  have hemit (o : Out) : Frame (.ofParts [.outs]) s (s.emit o) := .emit .refl
  rcases hdws with h | h
  · rw [h] at hexec hplain ⊢
    have hrun : forBelow 1 (fun i s => bar0Access (r.addr.toNat + 4 * i) r.write (r.data.getD i 0) s) s =
        s.emit (.readData oPcie (r.addr.toNat + 4 * 0) (wordAt (r.addr.toNat + 4 * 0) s)) := by
      rw [forBelow_succ, hread]
      exact bar0Access_read (hplain 0 (by decide))
    rw [hrun] at hexec
    exact ⟨_, hexec, rfl, (hemit _).kept⟩
  · rw [h] at hexec hplain ⊢
    have hsecond : plainRead oPcie (r.addr.toNat + 4 * 1) (s.emit (.readData oPcie (r.addr.toNat + 4 * 0) (wordAt (r.addr.toNat + 4 * 0) s))) :=
      hplain 1 (by decide)
    have hrun : forBelow 2 (fun i s => bar0Access (r.addr.toNat + 4 * i) r.write (r.data.getD i 0) s) s =
        (s.emit (.readData oPcie (r.addr.toNat + 4 * 0) (wordAt (r.addr.toNat + 4 * 0) s))).emit
          (.readData oPcie (r.addr.toNat + 4 * 1) (wordAt (r.addr.toNat + 4 * 1) s)) := by
      rw [forBelow_succ, forBelow_succ, hread]
      change bar0Access _ _ _ (bar0Access _ _ _ s) = _
      rw [bar0Access_read (hplain 0 (by decide)), bar0Access_read hsecond]
      rfl
    rw [hrun] at hexec
    exact ⟨_, hexec, List.append_assoc .., (show Frame (.ofParts [.outs]) s _ from .emit (hemit _)).kept⟩

theorem bar0Write_complete {r : BarRequest} {v : Word} {id : RegId} {i j : ℕ} (hcold : s.coldHeld = false) (hon : s.barOn = true)
    (hdws : r.dws = 1) (hall : r.allBytes = true) (hwrite : r.write = true) (hdata : r.data = [v]) (ha : r.addr.toNat = id.at i j)
    (hreg : regOf r.addr.toNat = some ⟨id, i, j⟩) (hplain : hooked id = false) (h : s.writes 0x100 id i j v = true) :
    ∃ t, exec (.bar0Request r) s = .next t ∧ t.reg r.addr.toNat = written s id i j v ∧ RegsKept [r.addr.toNat] s t ∧
      Kept [.regs, .tansyQ] s t := by
  obtain ⟨hserves, hclean⟩ := Bool.and_eq_true_iff.mp h
  rw [← ha] at hserves hclean
  have hserved : Served s oPcie r.addr.toNat true := serves_iff.mp hserves
  obtain ⟨hA, hB⟩ := not_paired (r := ⟨id, i, j⟩) hplain
  obtain ⟨q, hq⟩ := directWrite_plain (o := oPcie) (r := ⟨id, i, j⟩) hplain hclean
  have hexec : exec (.bar0Request r) s = .next (directWrite oPcie ⟨id, i, j⟩ r.addr.toNat v s) := by
    refine (act_next hcold _).trans ?_
    have halign : r.addr.toNat % 4 = 0 := hserved.aligned
    rw [bar0RequestS, hon, if_neg (by simp), hdws, if_pos (by simp [hall, halign]), forBelow_succ, hwrite, hdata]
    change Host.Outcome.next (bar0Access r.addr.toNat true v s) = _
    rw [bar0Access, if_pos rfl, vetchWrite_of_served hserved hreg hA hB]
  rw [hq] at hexec
  have hword : writtenWord s ⟨id, i, j⟩ r.addr.toNat v = written s id i j v := by
    rw [writtenWord, writable_of_clean hclean, ha]
    rfl
  have hx : Frame (.ofParts [.tansyQ]) s { s with tansyQ := q } := .withTansyQ .refl
  have hxr (a : ℕ) : ({ s with tansyQ := q } : State).reg a = s.reg a := rfl
  rw [hword] at hexec
  generalize ({ s with tansyQ := q } : State) = x at *
  refine ⟨_, hexec, ?_, fun a hne => ?_, hx.kept.setReg⟩
  · rw [State.reg_setReg, if_pos rfl]
  · rw [State.reg_setReg, if_neg (by simpa using hne), hxr]

/-- What a refused BAR request leaves. -/
theorem barRefused_spec {f : Fld} (hf : f.reg = .PCIE_STAT) (hw : f.lo + f.w ≤ 32 ∧ 0 < f.w) :
    (barRefused f s).isSet f = true ∧ (barRefused f s).get PCIE_CNT.REFUSED = (s.get PCIE_CNT.REFUSED + 1) % 65536 ∧
      (barRefused f s).raising = s.raising ++ [380] ∧ Frame (.join [.ofParts [.raising], .ofRegs [.PCIE_STAT, .PCIE_CNT]]) s (barRefused f s) := by
  have hx : (s.put f 1).isSet f = true := isSet_put_one _ _ hw
  have hxf : Frame (.ofRegs [f.reg]) s (s.put f 1) := .put .refl (by simp [Scope.within])
  rw [hf] at hxf
  have hcnt : ((s.put f 1).bump PCIE_CNT.REFUSED).get PCIE_CNT.REFUSED = (s.get PCIE_CNT.REFUSED + 1) % 65536 := by
    rw [get_bump _ _ _ (by decide), hxf.get]
    rfl
  have hset : ((s.put f 1).bump PCIE_CNT.REFUSED).isSet f = true := by
    rw [State.isSet, State.bump, State.get_put_fam _ _ _ _ _ _ _ _ (by rw [hf]; decide), ← State.isSet, hx]
  have hyf : Frame (.ofRegs [.PCIE_STAT, .PCIE_CNT]) s ((s.put f 1).bump PCIE_CNT.REFUSED) := .bump (hxf.mono (by decide))
  unfold barRefused
  generalize (s.put f 1).bump PCIE_CNT.REFUSED = y at *
  have hz : Frame (.ofParts [.raising]) y (y.raise 380) := .raise .refl
  refine ⟨hz.isSet (hf := by rw [hf]; decide) |>.trans hset, hz.get.trans hcnt, ?_, (hyf.mono (by decide)).lift (by decide) hz⟩
  rw [← hyf.part .raising (by decide)]
  rfl

theorem bar0Refused_complete {r : BarRequest} (hcold : s.coldHeld = false) (hon : s.barOn = true)
    (hbad : r.dws = 0 ∨ 2 < r.dws ∨ r.allBytes = false ∨ r.addr.toNat % (4 * r.dws) ≠ 0) :
    ∃ t, exec (.bar0Request r) s = .next t ∧ t.isSet PCIE_STAT.BAR0_BAD = true ∧
      t.get PCIE_CNT.REFUSED = (s.get PCIE_CNT.REFUSED + 1) % 65536 ∧ t.raising = s.raising ++ [380] ∧
      t.outs = s.outs ++ (if r.write then [] else [.refusedAccess oPcie r.addr.toNat]) ∧
      RegsKept [RegId.PCIE_STAT.at, RegId.PCIE_CNT.at] s t ∧ Kept [.regs, .raising, .outs] s t := by
  obtain ⟨hset, hcnt, hraise, hf⟩ := barRefused_spec (s := s) (f := PCIE_STAT.BAR0_BAD) rfl (by decide)
  have hexec : exec (.bar0Request r) s = .next (if r.write then barRefused PCIE_STAT.BAR0_BAD s else
      (barRefused PCIE_STAT.BAR0_BAD s).emit (.refusedAccess oPcie r.addr.toNat)) := by
    refine (act_next hcold _).trans ?_
    rw [bar0RequestS, hon, if_neg (by simp), if_neg]
    rintro h
    simp only [Bool.and_eq_true, Bool.or_eq_true, decide_eq_true_eq] at h
    obtain ⟨⟨hdws, hall⟩, halign⟩ := h
    rcases hbad with h | h | h | h
    · omega
    · omega
    · simp [hall] at h
    · exact h halign
  generalize barRefused PCIE_STAT.BAR0_BAD s = x at *
  cases hw : r.write
  · rw [hw] at hexec
    have he : Frame (.ofParts [.outs]) x (x.emit (.refusedAccess oPcie r.addr.toNat)) := .emit .refl
    have hall : Frame (.join [.ofParts [.raising, .outs], .ofRegs [.PCIE_STAT, .PCIE_CNT]]) s (x.emit (.refusedAccess oPcie r.addr.toNat)) :=
      (hf.mono (by decide)).lift (by decide) he
    refine ⟨_, hexec, he.isSet.trans hset, he.get.trans hcnt, (he.part .raising (by decide)).trans hraise, ?_,
      hall.regsKept [.PCIE_STAT, .PCIE_CNT], hall.kept⟩
    rw [← hf.part .outs (by decide)]
    rfl
  · rw [hw, if_pos rfl] at hexec
    exact ⟨_, hexec, hset, hcnt, hraise, by rw [hf.part .outs (by decide)]; simp, hf.regsKept [.PCIE_STAT, .PCIE_CNT], hf.kept⟩

/-! ### Reads of memory (R356) -/

theorem bytesAt_add (a n m : ℕ) : s.bytesAt a (n + m) = s.bytesAt a n ++ s.bytesAt (a + n) m := by
  simp [State.bytesAt, List.range_add, Nat.add_assoc]

/-- The completions of a read carry its bytes, each no longer than a payload, up to a boundary of 64 bytes or the end. -/
theorem completions_spec {mps : ℕ} (hmps : 64 ≤ mps) (fuel : ℕ) : ∀ off len, len < fuel →
    (completions mps fuel off len).flatMap (fun c => s.bytesAt c.1 c.2) = s.bytesAt off len ∧
      ∀ c ∈ completions mps fuel off len, 0 < c.2 ∧ c.2 ≤ mps ∧ ((c.1 + c.2) % 64 = 0 ∨ c.1 + c.2 = off + len) := by
  induction fuel with
  | zero => exact fun off len h => absurd h (by omega)
  | succ fuel ih =>
    intro off len hlen
    rw [completions]
    by_cases hzero : len = 0
    · rw [if_pos hzero, hzero]
      exact ⟨rfl, fun c hc => absurd hc (List.not_mem_nil)⟩
    · rw [if_neg hzero]
      have hn : 0 < min len ((off + mps) / 64 * 64 - off) ∧ min len ((off + mps) / 64 * 64 - off) ≤ len := by omega
      have hend : (off + min len ((off + mps) / 64 * 64 - off)) % 64 = 0 ∨ off + min len ((off + mps) / 64 * 64 - off) = off + len := by omega
      have hmax : min len ((off + mps) / 64 * 64 - off) ≤ mps := by omega
      generalize min len ((off + mps) / 64 * 64 - off) = n at *
      obtain ⟨hbytes, hall⟩ := ih (off + n) (len - n) (by omega)
      refine ⟨?_, fun c hc => ?_⟩
      · rw [List.flatMap_cons, hbytes, ← bytesAt_add]
        congr 1
        omega
      · rcases List.mem_cons.mp hc with rfl | hc
        · exact ⟨hn.1, hmax, hend⟩
        · obtain ⟨h1, h2, h3⟩ := hall c hc
          exact ⟨h1, h2, by omega⟩

theorem emitAll_spec (l : List Out) (s : State) :
    (forList l (fun x s => s.emit x) s).outs = s.outs ++ l ∧ Frame (.ofParts [.outs]) s (forList l (fun x s => s.emit x) s) := by
  refine ⟨?_, .forList (fun _ _ h => .emit h) .refl⟩
  induction l generalizing s with
  | nil => exact (List.append_nil _).symm
  | cons x l ih =>
    rw [forList_cons, ih]
    exact List.append_assoc ..

theorem reads_allowed {off len : ℕ} (h : ∀ i, i < len → barReads (off + i) = true) :
    (!(List.range len).all (fun i => barReads (off + i))) = false := by
  simpa using h

theorem bar2Read_complete {off : BitVec 25} {len : ℕ} (hcold : s.coldHeld = false) (hon : s.barOn = true)
    (hin : ∀ i, i < len → barReads (off.toNat + i) = true) (hgood : s.readFails off.toNat len = false) :
    ∃ (cs : List (Nat × Nat)) (t : State), exec (.bar2Read off len) s = .next t ∧
      t.outs = s.outs ++ cs.map (fun c => .memData oPcie c.1 (s.bytesAt c.1 c.2)) ∧
      cs.flatMap (fun c => s.bytesAt c.1 c.2) = s.bytesAt off.toNat len ∧
      (∀ c ∈ cs, 0 < c.2 ∧ c.2 ≤ s.maxPayload ∧ ((c.1 + c.2) % 64 = 0 ∨ c.1 + c.2 = off.toNat + len)) ∧
      Kept [.outs, .ecc] s t := by
  have hexec : exec (.bar2Read off len) s =
      .next (forList (bar2Data off.toNat len s) (fun x s => s.emit x) (sramFix off.toNat len s)) := by
    refine (act_next hcold _).trans ?_
    rw [bar2ReadS, hon, if_neg (by simp), reads_allowed hin, if_neg Bool.false_ne_true, hgood, if_neg Bool.false_ne_true]
  have hmps : 64 ≤ s.maxPayload := by
    have := Nat.one_le_two_pow (n := s.cfg.mps.val)
    rw [State.maxPayload]
    omega
  obtain ⟨hbytes, hall⟩ := completions_spec (s := s) hmps (len + 1) off.toNat len (by omega)
  obtain ⟨houts, hf⟩ := emitAll_spec (bar2Data off.toNat len s) (sramFix off.toNat len s)
  have hfix : Frame (.ofParts [.ecc]) s (sramFix off.toNat len s) := .sramFix .refl
  refine ⟨_, _, hexec, ?_, hbytes, hall, ((hfix.mono (by decide)).lift (w := .ofParts [.outs, .ecc]) (by decide) hf).kept⟩
  rw [houts, hfix.part .outs (by decide)]
  rfl

theorem bar2Read_lost {off : BitVec 25} {len : ℕ} (hcold : s.coldHeld = false) (hon : s.barOn = true)
    (hin : ∀ i, i < len → barReads (off.toNat + i) = true) (hwords : s.badWords = []) (hbad : s.readFails off.toNat len = true) :
    ∃ t, exec (.bar2Read off len) s = .next t ∧ t.outs = s.outs ++ [.refusedAccess oPcie off.toNat .abort] ∧
      Kept [.outs, .ecc] s t := by
  have hhandle : handleBad off.toNat len s = sramMeets off.toNat len s := by
    rw [handleBad, hwords]
    rfl
  have hexec : exec (.bar2Read off len) s = .next ((sramMeets off.toNat len s).emit (.refusedAccess oPcie off.toNat .abort)) := by
    refine (act_next hcold _).trans ?_
    rw [bar2ReadS, hon, if_neg (by simp), reads_allowed hin, if_neg Bool.false_ne_true, hbad, if_pos rfl, hhandle]
  have hx : Frame (.ofParts [.ecc]) s (sramMeets off.toNat len s) := by
    rw [sramMeets, hwords]
    exact .sramFix .refl
  generalize sramMeets off.toNat len s = x at *
  have he : Frame (.ofParts [.outs]) x (x.emit (.refusedAccess oPcie off.toNat .abort)) := .emit .refl
  refine ⟨_, hexec, ?_, ((hx.mono (by decide)).lift (w := .ofParts [.outs, .ecc]) (by decide) he).kept⟩
  rw [← hx.part .outs (by decide)]
  rfl

theorem bar2Read_refused {off : BitVec 25} {len i : ℕ} (hcold : s.coldHeld = false) (hon : s.barOn = true) (hi : i < len)
    (hout : barReads (off.toNat + i) = false) :
    ∃ t, exec (.bar2Read off len) s = .next t ∧ t.isSet PCIE_STAT.BAR2_BAD = true ∧
      t.get PCIE_CNT.REFUSED = (s.get PCIE_CNT.REFUSED + 1) % 65536 ∧ t.raising = s.raising ++ [380] ∧
      t.outs = s.outs ++ [.refusedAccess oPcie off.toNat] ∧
      RegsKept [RegId.PCIE_STAT.at, RegId.PCIE_CNT.at] s t ∧ Kept [.regs, .raising, .outs] s t := by
  obtain ⟨hset, hcnt, hraise, hf⟩ := barRefused_spec (s := s) (f := PCIE_STAT.BAR2_BAD) rfl (by decide)
  have hexec : exec (.bar2Read off len) s = .next ((barRefused PCIE_STAT.BAR2_BAD s).emit (.refusedAccess oPcie off.toNat)) := by
    refine (act_next hcold _).trans ?_
    rw [bar2ReadS, hon, if_neg (by simp), if_pos]
    rw [Bool.not_eq_true', ← Bool.not_eq_true, List.all_eq_true]
    exact fun h => by simpa [hout] using h i (List.mem_range.mpr hi)
  generalize barRefused PCIE_STAT.BAR2_BAD s = x at *
  have he : Frame (.ofParts [.outs]) x (x.emit (.refusedAccess oPcie off.toNat)) := .emit .refl
  have hall : Frame (.join [.ofParts [.raising, .outs], .ofRegs [.PCIE_STAT, .PCIE_CNT]]) s (x.emit (.refusedAccess oPcie off.toNat)) :=
    (hf.mono (by decide)).lift (by decide) he
  refine ⟨_, hexec, he.isSet.trans hset, he.get.trans hcnt, (he.part .raising (by decide)).trans hraise, ?_,
    hall.regsKept [.PCIE_STAT, .PCIE_CNT], hall.kept⟩
  rw [← hf.part .outs (by decide)]
  rfl

/-- While the change log has room, the record of an event only stands in it. -/
theorem logEvent_room (hroom : s.tansyQ.length < 256) (before : State) (a aux origin : ℕ) :
    ∃ q, s.logEvent before a aux origin = { s with tansyQ := q } := by
  unfold State.logEvent
  dsimp only
  by_cases hgone : s.cdGone = true
  · exact ⟨s.tansyQ, if_pos hgone⟩
  · exact ⟨_, (if_neg hgone).trans (if_pos hroom)⟩

/-! ### Writes of memory (R356) -/

theorem touched_some (b : Byte) (l : List (Option Byte)) (off : ℕ) : touched off (some b :: l) = off :: touched (off + 1) l := by
  simp [touched, List.zipIdx_cons]

theorem touched_map_some (data : List Byte) : ∀ off, touched off (data.map some) = (List.range data.length).map (off + ·) := by
  induction data with
  | nil => exact fun _ => rfl
  | cons b l ih =>
    intro off
    rw [List.map_cons, touched_some, ih, List.length_cons, List.range_succ_eq_map, List.map_cons, List.map_map]
    congr 1
    exact List.map_congr_left fun i _ => by simp [Nat.add_assoc, Nat.add_comm 1]

theorem bar2Write_complete {off : BitVec 25} {data : List Byte} (hcold : s.coldHeld = false) (hon : s.barOn = true) (hne : data ≠ [])
    (hmax : tlpPayload off.toNat data.length ≤ s.maxPayload) (hps : s.isSet PCIE_CFG.PS_WR = true) (hlo : 0x01400000 ≤ off.toNat)
    (hhi : off.toNat + data.length ≤ 0x01800000) (h10 : s.bankLost 10 = false) (h11 : s.bankLost 11 = false) (hroom : s.tansyQ.length < 256) :
    ∃ t, exec (.bar2Write off (data.map some)) s = .next t ∧ WroteMem off.toNat data s t ∧
      t.tansyQ = s.tansyQ ++ [⟨s.mcount, oPcie, kPROGLOAD, off.toNat - 0x01400000, 0, BitVec.ofNat 32 data.length, 0⟩] ∧
      Kept [.mem, .badWords, .ecc, .tansyQ] s t := by
  obtain ⟨b, l, rfl⟩ := List.exists_cons_of_ne_nil hne
  have hlost (x : ℕ) (hx : off.toNat ≤ x) (hx' : x < 0x01800000) : s.bankLost (bankOf x) = false := by
    rw [bankOf, if_neg (by omega)]
    rcases (show x / 0x200000 = 10 ∨ x / 0x200000 = 11 by omega) with h | h
    · rw [h, h10]
    · rw [h, h11]
  have hexec : exec (.bar2Write off ((b :: l).map some)) s = .next (programLoad oPcie off.toNat (b :: l).length ((b :: l).map some) s) := by
    have hfind : (touched off.toNat ((b :: l).map some)).find? (fun x => !s.barWrites x) = none := by
      rw [touched_map_some, List.find?_eq_none]
      intro x hx
      simp only [List.mem_map, List.mem_range] at hx
      obtain ⟨i, hi, rfl⟩ := hx
      have h1 : 0x01400000 ≤ off.toNat + i := by omega
      have h2 : off.toNat + i < 0x01800000 := by omega
      simp [State.barWrites, hps, h1, h2]
    refine (act_next hcold _).trans ?_
    rw [bar2WriteS, hon, if_neg (by simp), if_neg (by rw [List.length_map]; omega), hfind]
    dsimp only
    rw [List.map_cons, touched_some]
    dsimp only
    rw [touched_map_some, List.length_map, List.length_range, Nat.sub_self, List.drop_zero, List.length_cons]
  generalize hdata : b :: l = data at *
  have hpos : 0 < data.length := by rw [← hdata, List.length_cons]; omega
  have hprog : storeProgram off.toNat (data.map some) s = s.store off.toNat data := by
    rw [storeProgram, hlost _ le_rfl (by omega), List.length_map, hlost _ (by omega) (by omega), if_neg (by simp), if_pos (by simp)]
    simp
  have hup : s.cdDown = false := by
    simp only [State.barOn, Bool.and_eq_true, Bool.not_eq_true'] at hon
    exact hon.2
  rw [programLoad, hprog] at hexec
  have hstore := store_wrote s off.toNat data
  have hx : Frame (.ofParts [.mem, .badWords, .ecc]) s (s.store off.toNat data) := .store .refl
  have hmc : (s.store off.toNat data).mcount = s.mcount := hx.mcount
  generalize s.store off.toNat data = x at *
  have hlog (k a : ℕ) (old new : Word) : x.log oPcie k a old new = { x with tansyQ := x.tansyQ ++ [⟨x.mcount, oPcie, k, a, old, new, 0⟩] } := by
    rw [State.log, hx.cdGone, (Bool.or_eq_false_iff.mp hup).1, if_neg Bool.false_ne_true, State.stage, hx.part .tansyQ (by decide), if_pos hroom]
  rw [hlog, hx.part .tansyQ (by decide), hmc] at hexec
  generalize hq : s.tansyQ ++ [(⟨s.mcount, oPcie, kPROGLOAD, off.toNat - 0x01400000, 0, BitVec.ofNat 32 data.length, 0⟩ : LogRec)] = q at *
  have hz : Frame (.ofParts [.tansyQ]) x { x with tansyQ := q } := .withTansyQ .refl
  exact ⟨_, hexec, wroteMem_frame hstore hz, rfl, ((hx.mono (by decide)).lift (w := .ofParts [.mem, .badWords, .ecc, .tansyQ]) (by decide) hz).kept⟩

theorem bar2Write_refused {off : BitVec 25} {b : Byte} {rest : List (Option Byte)} (hcold : s.coldHeld = false) (hon : s.barOn = true)
    (hmax : tlpPayload off.toNat (rest.length + 1) ≤ s.maxPayload) (hout : s.barWrites off.toNat = false) (hroom : s.tansyQ.length < 256) :
    ∃ t, exec (.bar2Write off (some b :: rest)) s = .next t ∧ t.isSet PCIE_STAT.BAR2_BAD = true ∧
      t.get PCIE_CNT.REFUSED = (s.get PCIE_CNT.REFUSED + 1) % 65536 ∧ t.raising = s.raising ++ [380] ∧
      RegsKept [RegId.PCIE_STAT.at, RegId.PCIE_CNT.at] s t ∧ Kept [.regs, .raising, .tansyQ] s t := by
  obtain ⟨hset, hcnt, hraise, hf⟩ := barRefused_spec (s := s) (f := PCIE_STAT.BAR2_BAD) rfl (by decide)
  have hexec : exec (.bar2Write off (some b :: rest)) s =
      .next ((barRefused PCIE_STAT.BAR2_BAD s).logEvent s RegId.PCIE_STAT.at (bankOf off.toNat) oPcie) := by
    refine (act_next hcold _).trans ?_
    rw [bar2WriteS, hon, if_neg (by simp), List.length_cons, if_neg (by omega), touched_some, List.find?_cons_of_pos (by simp [hout])]
  generalize barRefused PCIE_STAT.BAR2_BAD s = x at *
  obtain ⟨q, hlog⟩ := logEvent_room (s := x) (by rw [hf.part .tansyQ (by decide)]; exact hroom) s RegId.PCIE_STAT.at (bankOf off.toNat) oPcie
  rw [hlog] at hexec
  have hz : Frame (.ofParts [.tansyQ]) x { x with tansyQ := q } := .withTansyQ .refl
  generalize ({ x with tansyQ := q } : State) = z at *
  have hall : Frame (.join [.ofParts [.raising, .tansyQ], .ofRegs [.PCIE_STAT, .PCIE_CNT]]) s z := (hf.mono (by decide)).lift (by decide) hz
  exact ⟨_, hexec, hz.isSet.trans hset, hz.get.trans hcnt, (hz.part .raising (by decide)).trans hraise,
    hall.regsKept [.PCIE_STAT, .PCIE_CNT], hall.kept⟩

theorem bar2Write_malformed {off : BitVec 25} {bs : List (Option Byte)} (hcold : s.coldHeld = false) (hon : s.barOn = true)
    (hmax : s.maxPayload < tlpPayload off.toNat bs.length) :
    exec (.bar2Write off bs) s = .next { s with cfg := { s.cfg with aer := s.cfg.aer ||| 0x00040000 } } := by
  refine (act_next hcold _).trans ?_
  rw [bar2WriteS, hon, if_neg (by simp), if_pos hmax]
  rfl

/-! ### The link (R352, R354) -/

/-- A vector of a table that is reset: only its window and a message that waits for it are left. -/
def windowOnly (x : Vec) : Vec := { last := x.last, merged := x.merged }

theorem resetVecs_spec (l : List ℕ) (s : State) (v : ℕ) :
    (forList l (fun v s => s.setVec v { last := (s.vec v).last, merged := (s.vec v).merged }) s).vec v =
      if v ∈ l then windowOnly (s.vec v) else s.vec v := by
  induction l generalizing s with
  | nil => rfl
  | cons k l ih =>
    rw [forList_cons, ih, vec_setVec]
    by_cases hk : v = k
    · subst hk
      rw [if_pos rfl, if_pos List.mem_cons_self]
      split <;> rfl
    · rw [if_neg hk]
      simp [hk]

theorem get_of_not_mem {α : Type} (d : ℕ → α) (m : SMap α) {k : ℕ} (h : k ∉ m.map (·.1)) : SMap.get d m k = d k := by
  induction m with
  | nil => rfl
  | cons x m ih =>
    obtain ⟨j, y⟩ := x
    simp only [List.map_cons, List.mem_cons, not_or] at h
    rw [SMap.get, if_neg h.1, ih h.2]

/-- The registers of the endpoint after a reset (R354). -/
def endpointDown (s : State) : State :=
  (((((s.put PCIE_STAT.LINK_UP 0).put PCIE_STAT.SPEED 0).put PCIE_STAT.WIDTH 0).put PCIE_STAT.D3 0).put PCIE_STAT.DOWN_SEEN 1).bump PCIE_CNT.LINKDOWNS

theorem endpointDown_spec (s : State) : fieldOf ((endpointDown s).reg RegId.PCIE_STAT.at) 0 9 = 0 ∧
    (endpointDown s).isSet PCIE_STAT.DOWN_SEEN = true ∧ (endpointDown s).get PCIE_CNT.LINKDOWNS = (s.get PCIE_CNT.LINKDOWNS + 1) % 65536 ∧
      Frame (.ofRegs [.PCIE_STAT, .PCIE_CNT]) s (endpointDown s) := by
  have hf : Frame (.ofRegs [.PCIE_STAT, .PCIE_CNT]) s (endpointDown s) := .bump (.put (.put (.put (.put (.put .refl)))))
  have hpast (f g : Fld) (v : ℕ) (t : State) (h : Apart f g) : (t.put f v).get g = t.get g := get_put_of_apart h ..
  have hlink : (endpointDown s).get PCIE_STAT.LINK_UP = 0 := by
    rw [endpointDown, State.bump, get_put_of_apart (by decide), get_put_of_apart (by decide), get_put_of_apart (by decide),
      get_put_of_apart (by decide), get_put_of_apart (by decide)]
    exact get_put_lt _ _ (by decide) (by decide)
  have hspeed : (endpointDown s).get PCIE_STAT.SPEED = 0 := by
    rw [endpointDown, State.bump, get_put_of_apart (by decide), get_put_of_apart (by decide), get_put_of_apart (by decide),
      get_put_of_apart (by decide)]
    exact get_put_lt _ _ (by decide) (by decide)
  have hwidth : (endpointDown s).get PCIE_STAT.WIDTH = 0 := by
    rw [endpointDown, State.bump, get_put_of_apart (by decide), get_put_of_apart (by decide), get_put_of_apart (by decide)]
    exact get_put_lt _ _ (by decide) (by decide)
  have hd3 : (endpointDown s).get PCIE_STAT.D3 = 0 := by
    rw [endpointDown, State.bump, get_put_of_apart (by decide), get_put_of_apart (by decide)]
    exact get_put_lt _ _ (by decide) (by decide)
  have hseen : (endpointDown s).isSet PCIE_STAT.DOWN_SEEN = true := by
    rw [endpointDown, State.bump, isSet_put_of_apart (by decide), isSet_put_one _ _ (by decide)]
  have hcnt : (endpointDown s).get PCIE_CNT.LINKDOWNS = (s.get PCIE_CNT.LINKDOWNS + 1) % 65536 := by
    rw [endpointDown, get_bump _ _ _ (by decide), get_put_of_apart (by decide), get_put_of_apart (by decide), get_put_of_apart (by decide),
      get_put_of_apart (by decide), get_put_of_apart (by decide)]
    rfl
  refine ⟨?_, hseen, hcnt, hf⟩
  simp only [State.get] at hlink hspeed hwidth hd3
  generalize (endpointDown s).reg (RegId.PCIE_STAT.at) = w at *
  change w.toNat / 2 ^ 0 % 2 ^ 1 = 0 at hlink
  change w.toNat / 2 ^ 1 % 2 ^ 3 = 0 at hspeed
  change w.toNat / 2 ^ 4 % 2 ^ 4 = 0 at hwidth
  change w.toNat / 2 ^ 8 % 2 ^ 1 = 0 at hd3
  change w.toNat / 2 ^ 0 % 2 ^ 9 = 0
  omega

theorem serial_mod (n e g : ℕ) (h : n < 2 ^ 64) : n = (n + 2 ^ 64 + e * 2 ^ 72 + g * 2 ^ 96) % 2 ^ 64 := by omega

theorem serial_identity (s : State) : s.cfgRead .deviceSerialNumber = s.identity % 2 ^ 64 := by
  rw [State.identity, ownSerial, State.cfgRead]
  exact serial_mod _ _ _ Config.serialNumber.isLt

theorem pcieReset_complete (k : EndpointReset) (hcold : s.coldHeld = false) :
    ∃ t, exec (.pcieReset k) s = .next t ∧ fieldOf (t.reg RegId.PCIE_STAT.at) 0 9 = 0 ∧
      t.isSet PCIE_STAT.DOWN_SEEN = true ∧ t.get PCIE_CNT.LINKDOWNS = (s.get PCIE_CNT.LINKDOWNS + 1) % 65536 ∧
      t.raising = s.raising ++ [380] ∧ (∀ v, t.vec v = { last := (s.vec v).last, merged := (s.vec v).merged }) ∧ t.bme = false ∧
      t.fnMask = true ∧ (t.org oPcie).pair = none ∧ t.cfg = {} ∧
      RegsKept [RegId.PCIE_STAT.at, RegId.PCIE_CNT.at] s t ∧
      Kept [.regs, .cfg, .msix, .bme, .fnMask, .orgs, .raising] s t := by
  have hexec : exec (.pcieReset k) s = .next (pcieResetS s) := by
    cases k <;> exact act_next hcold _
  refine ⟨_, hexec, ?_⟩
  unfold pcieResetS
  have hx : Frame (.ofParts [.cfg, .bme, .fnMask]) s { s with cfg := {}, bme := false, fnMask := true } := .withCfgBmeFnMask .refl
  have hxv (v : ℕ) : ({ s with cfg := {}, bme := false, fnMask := true } : State).vec v = s.vec v := rfl
  have hxm : ({ s with cfg := {}, bme := false, fnMask := true } : State).msix = s.msix := rfl
  have hx1 : ({ s with cfg := {}, bme := false, fnMask := true } : State).cfg = {} := rfl
  have hx2 : ({ s with cfg := {}, bme := false, fnMask := true } : State).bme = false := rfl
  have hx3 : ({ s with cfg := {}, bme := false, fnMask := true } : State).fnMask = true := rfl
  dsimp only
  generalize ({ s with cfg := {}, bme := false, fnMask := true } : State) = x at *
  have hyv := resetVecs_spec (s.msix.map (·.1)) x
  have hy : Frame (.ofParts [.msix]) x
    (forList (s.msix.map (·.1)) (fun v s => s.setVec v { last := (s.vec v).last, merged := (s.vec v).merged }) x) :=
    .forList (fun _ _ h => .setVec h) .refl
  generalize forList (s.msix.map (·.1)) (fun v s => s.setVec v { last := (s.vec v).last, merged := (s.vec v).merged }) x = y at *
  have hz : Frame (.ofParts [.orgs]) y (y.setOrg oPcie { y.org oPcie with pair := none }) := .setOrg .refl
  have hzp : ((y.setOrg oPcie { y.org oPcie with pair := none }).org oPcie).pair = none := by rw [org_setOrg]
  generalize y.setOrg oPcie { y.org oPcie with pair := none } = z at *
  obtain ⟨hfield, hseen, hcnt, hw⟩ := endpointDown_spec z
  rw [← endpointDown]
  generalize endpointDown z = w at *
  have ht : Frame (.ofParts [.raising]) w (w.raise 380) := .raise .refl
  have htr : (w.raise 380).raising = w.raising ++ [380] := rfl
  have htreg : (w.raise 380).reg RegId.PCIE_STAT.at = w.reg RegId.PCIE_STAT.at := ht.reg .PCIE_STAT (by decide) 0 0
  generalize w.raise 380 = t at *
  have hsz : Frame (.ofParts [.cfg, .bme, .fnMask, .msix, .orgs]) s z := ((hx.mono (by decide)).lift (by decide) hy).lift (by decide) hz
  have hsw : Frame (.join [.ofParts [.cfg, .bme, .fnMask, .msix, .orgs], .ofRegs [.PCIE_STAT, .PCIE_CNT]]) s w := (hsz.mono (by decide)).lift (by decide) hw
  have hst : Frame (.join [.ofParts [.cfg, .bme, .fnMask, .msix, .orgs, .raising], .ofRegs [.PCIE_STAT, .PCIE_CNT]]) s t :=
    (hsw.mono (by decide)).lift (by decide) ht
  have hzt : Frame (.join [.ofParts [.raising], .ofRegs [.PCIE_STAT, .PCIE_CNT]]) z t := (hw.mono (by decide)).lift (by decide) ht
  have hyt : Frame (.join [.ofParts [.raising, .orgs], .ofRegs [.PCIE_STAT, .PCIE_CNT]]) y t := (hz.mono (by decide)).trans (hzt.mono (by decide))
  have hxt : Frame (.join [.ofParts [.raising, .orgs, .msix], .ofRegs [.PCIE_STAT, .PCIE_CNT]]) x t := (hy.mono (by decide)).trans (hyt.mono (by decide))
  refine ⟨by rw [htreg, hfield], ht.isSet.trans hseen, ht.get.trans (hcnt.trans (by rw [hsz.get])), ?_, fun v => ?_, ?_, ?_, ?_, ?_,
    hst.regsKept [.PCIE_STAT, .PCIE_CNT], hst.kept⟩
  · rw [htr, hsw.part .raising (by decide)]
  · rw [hyt.vec, hyv, hxv]
    split
    · rfl
    · next hv => rw [State.vec, get_of_not_mem _ _ hv]
  · rw [hxt.part .bme (by decide), hx2]
  · rw [hxt.part .fnMask (by decide), hx3]
  · rw [State.org, hzt.part .orgs (by decide), ← State.org, hzp]
  · rw [hxt.part .cfg (by decide), hx1]

theorem linkUp_complete {speed : Fin 5} {width : Fin 9} {host : HostCfg} (hcold : s.coldHeld = false) (hup : s.cdDown = false) (hspeed : speed ≠ 0)
    (hwidth : width.val ∈ [1, 2, 4, 8]) :
    ∃ t, exec (.pcieLinkUp speed width host) s = .next t ∧
      t.cfg = { s.cfg with bar0 := host.bar0, bar2 := host.bar2, mps := host.mps } ∧ t.isSet PCIE_STAT.LINK_UP = true ∧
      t.get PCIE_STAT.SPEED = speed.val ∧ t.get PCIE_STAT.WIDTH = width.val ∧ RegsKept [RegId.PCIE_STAT.at] s t ∧
      Kept [.regs, .cfg] s t := by
  have hexec : exec (.pcieLinkUp speed width host) s = .next (((({ s with
      cfg := { s.cfg with bar0 := host.bar0, bar2 := host.bar2, mps := host.mps } } : State).put PCIE_STAT.LINK_UP 1).put PCIE_STAT.SPEED speed.val).put
        PCIE_STAT.WIDTH width.val) := by
    have hne : speed.val ≠ 0 := fun h => hspeed (Fin.ext h)
    have hcontains : [1, 2, 4, 8].contains width.val = true := List.contains_iff_mem.mpr hwidth
    refine (act_next hcold _).trans ?_
    rw [pcieLinkUpS, hup, hcontains, if_neg (by simp [hne])]
  have hs := speed.isLt
  have hw := width.isLt
  generalize speed.val = sp at *
  generalize width.val = wd at *
  generalize hcfg : ({ s.cfg with bar0 := host.bar0, bar2 := host.bar2, mps := host.mps } : CfgSpace) = c at *
  have hx : Frame (.ofParts [.cfg]) s { s with cfg := c } := .withCfg .refl
  have hxc : ({ s with cfg := c } : State).cfg = c := rfl
  generalize ({ s with cfg := c } : State) = x at *
  have hf : Frame (.ofRegs [.PCIE_STAT]) x (((x.put PCIE_STAT.LINK_UP 1).put PCIE_STAT.SPEED sp).put PCIE_STAT.WIDTH wd) := .put (.put (.put .refl))
  have hall : Frame (.join [.ofParts [.cfg], .ofRegs [.PCIE_STAT]]) s (((x.put PCIE_STAT.LINK_UP 1).put PCIE_STAT.SPEED sp).put PCIE_STAT.WIDTH wd) :=
    (hx.mono (by decide)).lift (by decide) hf
  refine ⟨_, hexec, (hf.part .cfg (by decide)).trans hxc, ?_, ?_, get_put_lt _ _ (by decide) (by show _ < 2 ^ 4; omega), hall.regsKept [.PCIE_STAT],
    hall.kept⟩
  · rw [isSet_put_of_apart (by decide), isSet_put_of_apart (by decide), isSet_put_one _ _ (by decide)]
  · rw [get_put_of_apart (by decide)]
    exact get_put_lt _ _ (by decide) (by show _ < 2 ^ 3; omega)

theorem d3hot_complete (hcold : s.coldHeld = false) (hup : s.cdDown = false) (hlink : s.isSet PCIE_STAT.LINK_UP = true) :
    ∃ t, exec .pcieD3hot s = .next t ∧ t.isSet PCIE_STAT.D3 = true ∧ RegsKept [RegId.PCIE_STAT.at] s t ∧ Kept [.regs] s t := by
  have hexec : exec .pcieD3hot s = .next (s.put PCIE_STAT.D3 1) := by
    refine (act_next hcold _).trans ?_
    rw [pcieD3hotS, hlink, hup, if_pos (by decide)]
  have hf : Frame (.ofRegs [.PCIE_STAT]) s (s.put PCIE_STAT.D3 1) := .put .refl
  exact ⟨_, hexec, isSet_put_one _ _ (by decide), hf.regsKept [.PCIE_STAT], hf.kept⟩

theorem exec_d3hotExit (hcold : s.coldHeld = false) (hup : s.cdDown = false) (hd3 : s.isSet PCIE_STAT.D3 = true) :
    exec .pcieD3hotExit s = .next (msixFlushAll (s.put PCIE_STAT.D3 0)) := by
  refine (act_next hcold _).trans ?_
  rw [pcieD3hotExitS, hd3, hup, if_pos (by decide)]

/-- A table that holds no message has none to send. -/
theorem flushAll_none (h : ∀ v, (s.vec v).pending = false ∧ (s.vec v).merged = false) : msixFlushAll s = s := by
  rw [msixFlushAll]
  generalize s.msix.map (·.1) = l
  induction l with
  | nil => rfl
  | cons v l ih =>
    rw [forList_cons, msixFlush, if_neg (by simp [h v]), ih]

theorem d3hotExit_quiet (hcold : s.coldHeld = false) (hup : s.cdDown = false) (hd3 : s.isSet PCIE_STAT.D3 = true)
    (hnone : ∀ v, (s.vec v).pending = false ∧ (s.vec v).merged = false) :
    ∃ t, exec .pcieD3hotExit s = .next t ∧ t.isSet PCIE_STAT.D3 = false ∧ RegsKept [RegId.PCIE_STAT.at] s t ∧ Kept [.regs] s t := by
  have hf : Frame (.ofRegs [.PCIE_STAT]) s (s.put PCIE_STAT.D3 0) := .put .refl
  have hexec := exec_d3hotExit hcold hup hd3
  rw [flushAll_none fun v => by rw [hf.vec]; exact hnone v] at hexec
  exact ⟨_, hexec, isSet_put_zero _ _ (by decide), hf.regsKept [.PCIE_STAT], hf.kept⟩

theorem d3hotExit_sent {v : ℕ} {x : Vec} (hcold : s.coldHeld = false) (hup : s.cdDown = false) (hd3 : s.isSet PCIE_STAT.D3 = true)
    (hone : s.msix = [(v, x)]) (hpending : x.pending = true) (hctrl : x.ctrl.getLsbD 0 = false) (hmask : s.fnMask = false) (hbme : s.bme = true)
    (hfree : s.vecFree v = true) :
    ∃ t, exec .pcieD3hotExit s = .next t ∧ t.isSet PCIE_STAT.D3 = false ∧ t.outs = s.outs ++ [.msix v] ∧ (t.vec v).pending = false := by
  have hf : Frame (.ofRegs [.PCIE_STAT]) s (s.put PCIE_STAT.D3 0) := .put .refl
  have hzero : (s.put PCIE_STAT.D3 0).isSet PCIE_STAT.D3 = false := isSet_put_zero _ _ (by decide)
  have hexec := exec_d3hotExit hcold hup hd3
  generalize s.put PCIE_STAT.D3 0 = y at *
  obtain ⟨hsent, hsf⟩ := flushAll_sent ((hf.part .msix (by decide)).trans hone) hpending hctrl ((hf.part .fnMask (by decide)).trans hmask)
    ((hf.part .bme (by decide)).trans hbme) hzero (hf.cdDown.trans hup) ((hf.vecFree v).trans hfree)
  exact ⟨_, hexec, hsf.isSet.trans hzero, hsent.outs.trans (by rw [hf.part .outs (by decide)]), hsent.vec.1⟩

end

/-- Settles O59: what each request of the host returns and leaves, and what each event of the link does. -/
theorem pcieRequestsComplete : Obligations.PcieRequestsComplete := by
  refine ⟨fun r s => bar0Read_complete, fun r v id i j s => bar0Write_complete, fun r s => bar0Refused_complete, fun off len s => bar2Read_complete,
    fun off len s => bar2Read_lost, fun off len i s => bar2Read_refused, fun off data s => bar2Write_complete, fun off b rest s => bar2Write_refused,
    fun off bs s => bar2Write_malformed, ?_, fun speed width host s => linkUp_complete, fun s => d3hot_complete, fun s => d3hotExit_quiet,
    fun v x s => d3hotExit_sent⟩
  intro k s hcold
  obtain ⟨t, hexec, hfield, hseen, hcnt, hraise, hvec, hbme, hmask, hpair, hcfg, hregs, hkept⟩ := pcieReset_complete k hcold
  refine ⟨t, hexec, hfield, hseen, hcnt, hraise, hvec, hbme, hmask, hpair, ?_, ?_, ?_, ?_, ?_, ?_, serial_identity t, ?_, ?_, ?_, ?_, hcfg, hregs, hkept⟩ <;>
    rw [State.cfgRead, hcfg] <;> rfl

end Sys2Proof.Proofs

/-! ## Items at their end (R199, R206, R242) -/

namespace Sys2Proof.Proofs

set_option Elab.async false

open Sys2Proof Sys2Proof.Machine Sys2Proof.Claims

section

variable {s t : State} {q n : ℕ} {i : Item}

/-- An item whose effects are settled (R199), here one that no worker has. -/
structure Settled (s : State) (q n : ℕ) (i : Item) : Prop where
  up : s.cdDown = false
  item : s.item q n = some i
  ended : i.st = .ended
  out : i.out = 0
  recs : i.recs = []
  due : s.verdictDue q n = false
  own : i.mseq = none

/-- The state once a settled item has left its queue. -/
def leftQueue (q n : ℕ) (i : Item) (s : State) : State := (freeItem q n s).put QD_CNT.LAST_ST i.status.1 q

theorem leftQueue_spec (q n : ℕ) (i : Item) (s : State) : (leftQueue q n i s).item q n = none ∧
    (leftQueue q n i s).get QD_STAT.LEVEL q = s.get QD_STAT.LEVEL q - s.qEntries q ∧
    (leftQueue q n i s).get QD_CNT.LAST_ST q = i.status.1 % 256 ∧ (∀ r, r ≠ q → (leftQueue q n i s).queue r = s.queue r) ∧
    RegsKept [RegId.QD_STAT.at q, RegId.QD_CNT.at q] s (leftQueue q n i s) ∧
    Frame (.join [.ofParts [.queues], .ofRegs [.QD_STAT, .QD_CNT]]) s (leftQueue q n i s) := by
  have hitem := item_freeItem q n s
  have hqueue (k : ℕ) := queue_freeItem q n k s
  have hlevel : (freeItem q n s).get QD_STAT.LEVEL q = s.get QD_STAT.LEVEL q - s.qEntries q := by
    have hlt : s.get QD_STAT.LEVEL q < 2 ^ QD_STAT.LEVEL.w := get_lt ..
    unfold freeItem
    dsimp only
    have hx : Frame (.ofParts [.queues]) s (s.setQueue q { s.queue q with items := (s.queue q).items.filter fun i => i.seq != n }) := .setQueue .refl
    rw [State.qEntries, hx.get, hx.get, ← State.qEntries]
    exact get_put_lt _ _ (by decide) (by omega)
  have hreg (a : ℕ) (ha : a ≠ RegId.QD_STAT.at q) : (freeItem q n s).reg a = s.reg a := by
    unfold freeItem
    dsimp only
    rw [State.reg_put _ _ _ _ _ _ ha]
    exact State.reg_setQueue_keep ..
  have hx : Frame (.join [.ofParts [.queues], .ofRegs [.QD_STAT]]) s (freeItem q n s) := .freeItem .refl
  unfold leftQueue
  generalize freeItem q n s = x at *
  have hy : Frame (.ofRegs [.QD_CNT]) x (x.put QD_CNT.LAST_ST i.status.1 q) := .put .refl
  refine ⟨?_, hy.get.trans hlevel, State.get_put _ _ _ _ _ (by decide), fun r hr => ?_, fun a ha => ?_, (hx.mono (by decide)).lift (by decide) hy⟩
  · rw [State.item, hy.queue, ← State.item, hitem]
  · rw [hy.queue, hqueue, if_neg hr]
  · simp only [List.mem_cons, List.not_mem_nil, or_false, not_or] at ha
    rw [State.reg_put _ _ _ _ _ _ ha.2, hreg a ha.1]

theorem itemComplete_eq (h : Settled s q n i) (hroom : (s.isSet QD_CTRL.CQ_EN q && !i.cmpl && s.cqUsable (s.get QD_CTRL.CQ q) &&
      s.cqFull (s.get QD_CTRL.CQ q)) = false) :
    itemCompleteS q n s = if !(s.isSet QD_CTRL.CQ_EN q && !i.cmpl) then leftQueue q n i s
      else if (leftQueue q n i s).cqUsable (s.get QD_CTRL.CQ q) then
        acceptItem (s.get QD_CTRL.CQ q) false true (completionBody q ((leftQueue q n i s).qItemSize (s.get QD_CTRL.CQ q)) (leftQueue q n i s).mcount i)
          (leftQueue q n i s)
      else ((leftQueue q n i s).bump QM_CNT.CQ_DROP).raise 353 := by
  unfold itemCompleteS
  rw [h.item]
  dsimp only
  rw [if_neg (by simp [h.up, h.ended, h.out, h.recs, h.due]), hroom, h.own]
  rfl

theorem leftQueue_nextSeq (k : ℕ) : ((leftQueue q n i s).queue k).nextSeq = (s.queue k).nextSeq := by
  have hqueue := queue_freeItem q n k s
  unfold leftQueue
  rw [State.queue_put_keep, hqueue]
  split
  · next h => rw [h]
  · rfl

theorem accOff_of_frame {w : Scope} (h : Frame w s t) (hm : w.hasReg .MEM_BANK_STAT = false := by decide) (hl : w.hasReg .SL_STAT = false := by decide) :
    t.accOff = s.accOff := by
  have hlost (b : ℕ) : t.bankLost b = s.bankLost b := by rw [State.bankLost, h.get (hf := hm), ← State.bankLost]
  rw [State.accOff, State.accOff, State.queueService, State.queueService, h.get (hf := hl)]
  simp only [hlost]

theorem leftQueue_usable (cq : ℕ) : (leftQueue q n i s).cqUsable cq = s.cqUsable cq := by
  obtain ⟨-, -, -, -, -, hf⟩ := leftQueue_spec q n i s
  rw [State.cqUsable, State.cqUsable, hf.isSet, hf.get, leftQueue_nextSeq, accOff_of_frame hf]

theorem complete_unrecorded {q : QueueIx} {seq : BitVec 48} (hcold : s.coldHeld = false) (h : Settled s q seq.toNat i)
    (hcq : s.isSet QD_CTRL.CQ_EN q = false) :
    ∃ t, exec (.itemComplete q seq) s = .next t ∧ t.item q seq.toNat = none ∧
      t.get QD_STAT.LEVEL q = s.get QD_STAT.LEVEL q - s.qEntries q ∧ t.get QD_CNT.LAST_ST q = i.status.1 % 256 ∧
      (∀ r, r ≠ q.val → t.queue r = s.queue r) ∧ RegsKept [RegId.QD_STAT.at q, RegId.QD_CNT.at q] s t ∧
      Kept [.queues, .regs] s t := by
  obtain ⟨hitem, hlevel, hlast, hqueue, hregs, hf⟩ := leftQueue_spec q seq.toNat i s
  refine ⟨_, (act_next hcold _).trans ?_, hitem, hlevel, hlast, hqueue, hregs, hf.kept⟩
  rw [itemComplete_eq h (by rw [hcq]; rfl), hcq, Bool.false_and, Bool.not_false, if_pos rfl]

theorem complete_dropped {q : QueueIx} {seq : BitVec 48} (hcold : s.coldHeld = false) (h : Settled s q seq.toNat i) (hcmpl : i.cmpl = false)
    (hcq : s.isSet QD_CTRL.CQ_EN q = true) (hno : s.cqUsable (s.get QD_CTRL.CQ q) = false) :
    ∃ t, exec (.itemComplete q seq) s = .next t ∧ t.item q seq.toNat = none ∧
      t.get QM_CNT.CQ_DROP = (s.get QM_CNT.CQ_DROP + 1) % 65536 ∧ t.raising = s.raising ++ [353] ∧ t.mem = s.mem := by
  obtain ⟨hitem, -, -, -, -, hf⟩ := leftQueue_spec q seq.toNat i s
  have hexec : exec (.itemComplete q seq) s = .next (((leftQueue q seq.toNat i s).bump QM_CNT.CQ_DROP).raise 353) := by
    refine (act_next hcold _).trans ?_
    rw [itemComplete_eq h (by rw [hno, Bool.and_false, Bool.false_and]), hcq, hcmpl, if_neg (by decide), leftQueue_usable, hno,
      if_neg Bool.false_ne_true]
  generalize leftQueue q seq.toNat i s = x at *
  have hdrop : (x.bump QM_CNT.CQ_DROP).get QM_CNT.CQ_DROP = (s.get QM_CNT.CQ_DROP + 1) % 65536 := by
    rw [get_bump _ _ _ (by decide), hf.get]
    rfl
  have hy : Frame (.ofRegs [.QM_CNT]) x (x.bump QM_CNT.CQ_DROP) := .bump .refl
  generalize x.bump QM_CNT.CQ_DROP = y at *
  have hz : Frame (.ofParts [.raising]) y (y.raise 353) := .raise .refl
  refine ⟨_, hexec, ?_, hz.get.trans hdrop, ?_, ?_⟩
  · rw [State.item, hz.queue, hy.queue, ← State.item, hitem]
  · rw [← hf.part .raising (by decide), ← hy.part .raising (by decide)]
    rfl
  · rw [hz.mem, hy.mem, hf.mem]

/-- An acceptance is counted. -/
theorem acceptItem_wide (cq : ℕ) (late cmpl : Bool) (body : List Dword) (s : State) :
    (acceptItem cq late cmpl body s).wideAt aQM_ACCEPTED = (s.wideAt aQM_ACCEPTED + 1) % 2 ^ 64 := by
  obtain ⟨slot, heq⟩ := acceptItem_eq cq late cmpl body s
  rw [heq]
  generalize acceptedItem s cq late body (slotEntry (s.queue cq).blocks (s.qEntries cq) slot) cmpl = j
  have hx : Frame (.join [.ofParts [.freeCtr, .queues], .ofRegs [.QD_STAT], Frame.Scope.mirrorItem]) s (mirrorItem j (acceptQueued cq j s)) :=
    .mirrorItem (.bump (.setQueue (.free .refl)))
  generalize mirrorItem j (acceptQueued cq j s) = x at *
  rw [hx.wideAt]
  generalize (s.wideAt aQM_ACCEPTED + 1) % 2 ^ 64 = n
  have hy : (x.setWide aQM_ACCEPTED n).wideAt aQM_ACCEPTED = n := by rw [State.wideAt_setWide, if_pos rfl]
  generalize x.setWide aQM_ACCEPTED n = y at *
  have hz : Frame Frame.Scope.checkStarve y (checkStarve cq y) := .checkStarve .refl
  rw [hz.wideAt, hy]

/-- The queues after an acceptance. -/
theorem acceptItem_queues (cq : ℕ) (late cmpl : Bool) (body : List Dword) (s : State) :
    (∃ entry, ((acceptItem cq late cmpl body s).queue cq).items = (s.queue cq).items ++ [acceptedItem s cq late body entry cmpl]) ∧
      ((acceptItem cq late cmpl body s).queue cq).nextSeq = (s.queue cq).nextSeq + 1 ∧
      ∀ k, k ≠ cq → ((acceptItem cq late cmpl body s).queue k).items = (s.queue k).items := by
  obtain ⟨slot, hsame, -⟩ := acceptItem_spec cq late cmpl body s
  obtain ⟨-, hitems, hnext, hother⟩ := acceptQueued_spec cq (acceptedItem s cq late body (slotEntry (s.queue cq).blocks (s.qEntries cq) slot) cmpl) s
  exact ⟨⟨_, (hsame cq).1.trans hitems⟩, (hsame cq).2.trans hnext, fun k hk => (hsame k).1.trans (congrArg Queue.items (hother k hk))⟩

theorem complete_recorded {q : QueueIx} {seq : BitVec 48} {cq : ℕ} (hcold : s.coldHeld = false) (h : Settled s q seq.toNat i) (hcmpl : i.cmpl = false)
    (hen : s.isSet QD_CTRL.CQ_EN q = true) (hcq : s.get QD_CTRL.CQ q = cq) (hne : cq ≠ q.val) (husable : s.cqUsable cq = true)
    (hroom : s.cqFull cq = false) :
    ∃ t, exec (.itemComplete q seq) s = .next t ∧ t.item q seq.toNat = none ∧
      (∃ j, (t.queue cq).items = (s.queue cq).items ++ [j] ∧ j.seq = (s.queue cq).nextSeq ∧ j.cmpl = true ∧
        j.st = .waiting ∧ j.body = completionBody q (s.qItemSize cq) s.mcount i) ∧
      (t.queue cq).nextSeq = (s.queue cq).nextSeq + 1 ∧
      t.wideAt aQM_ACCEPTED = (s.wideAt aQM_ACCEPTED + 1) % 2 ^ 64 := by
  obtain ⟨hitem, -, -, hqueue, -, hf⟩ := leftQueue_spec q seq.toNat i s
  have hsize : (leftQueue q seq.toNat i s).qItemSize cq = s.qItemSize cq := by
    rw [State.qItemSize, State.qEntries, hf.get, ← State.qEntries, ← State.qItemSize]
  have hexec : exec (.itemComplete q seq) s = .next (acceptItem cq false true (completionBody q (s.qItemSize cq) s.mcount i)
      (leftQueue q seq.toNat i s)) := by
    refine (act_next hcold _).trans ?_
    rw [itemComplete_eq h (by rw [hcq, hroom, Bool.and_false]), hen, hcmpl, if_neg (by decide), hcq, leftQueue_usable, husable, if_pos rfl, hsize,
      hf.mcount]
  generalize leftQueue q seq.toNat i s = x at *
  obtain ⟨⟨entry, hitems⟩, hnext, hothers⟩ := acceptItem_queues cq false true (completionBody q (s.qItemSize cq) s.mcount i) x
  rw [hqueue cq hne] at hitems hnext
  refine ⟨_, hexec, ?_, ⟨_, hitems, ?_, rfl, rfl, rfl⟩, hnext, ?_⟩
  · rw [State.item, hothers q (Ne.symm hne), ← State.item, hitem]
  · rw [acceptedItem, hqueue cq hne]
  · rw [acceptItem_wide, hf.wideAt]

theorem quarantineS_spec {fault e : ℕ} (hi : s.item q n = some i) (hq : q ≠ quarQ) :
    (quarantineS q n fault e s).item q n = none ∧
      (∃ j, ((quarantineS q n fault e s).queue quarQ).items = (s.queue quarQ).items ++ [j] ∧
        j.body = quarBody q fault e (s.get QD_CTRL.ITEM_SZ q) { i with fcnt := 2 }) ∧
      (quarantineS q n fault e s).get QD_CNT.QUARS q = (s.get QD_CNT.QUARS q + 1) % 256 ∧ 356 ∈ (quarantineS q n fault e s).raising := by
  rw [quarantineS_eq hi]
  have hgone : (quarantineMove q n fault e i s).item q n = none := item_quarantineMove hq
  obtain ⟨entry, hitems, -⟩ := queue_quarantineMove (n := n) (code := fault) (e := e) (i := i) (s := s) hq
  have hmoved : FaultFrame 0 [QD_STAT.LEVEL, QD_STAT.STARVED] s (quarantineMove q n fault e i s) := quarantineMove_frame 0
  generalize quarantineMove q n fault e i s = m at *
  have hsame : SameItems m (quarantineReport q m) := quarantineReport_sameItems
  refine ⟨(hsame.item q n).trans hgone, ⟨_, (hsame quarQ).1.trans hitems, rfl⟩, ?_, raising_quarantineReport⟩
  rw [get_quars_quarantineReport, hmoved.fields _ (by decide)]
  rfl

theorem quarantineDeferredMove_complete {q : QueueIx} {seq : BitVec 48} {fault e : ℕ} (hcold : s.coldHeld = false) (hcd : s.cdDown = false)
    (hi : s.item q seq.toNat = some i) (hst : i.st = .quarWait fault e) (hroom : s.quarRoom = true) (hq : q.val ≠ quarQ) :
    ∃ t, exec (.quarantineDeferredMove q seq) s = .next t ∧ t.item q seq.toNat = none ∧
      (∃ j, (t.queue quarQ).items = (s.queue quarQ).items ++ [j] ∧
        j.body = quarBody q fault e (s.get QD_CTRL.ITEM_SZ q) { i with fcnt := 2 }) ∧
      t.get QD_CNT.QUARS q = (s.get QD_CNT.QUARS q + 1) % 256 ∧ 356 ∈ t.raising := by
  refine ⟨_, act_next hcold _, ?_⟩
  have hrun : quarantineDeferredMoveS q seq.toNat s = quarantineS q seq.toNat fault e s := by
    rw [quarantineDeferredMoveS, hi, Option.map_some, hst]
    exact if_pos (by rw [hroom, hcd]; rfl)
  rw [hrun]
  exact quarantineS_spec hi hq

/-- What the starvation mark of queue q leaves (R196). -/
theorem checkStarve_spec (q : ℕ) (s : State) : (∀ r, r ≠ q → (checkStarve q s).queue r = s.queue r) ∧
    RegsKept [RegId.QD_STAT.at q] s (checkStarve q s) := by
  unfold checkStarve
  split
  · generalize hx : s.setQueue q { s.queue q with starved := true } = x
    have hreg (a : ℕ) : x.reg a = s.reg a := by rw [← hx, State.reg_setQueue_keep]
    have hqueue (k : ℕ) (hk : k ≠ q) : x.queue k = s.queue k := by rw [← hx, State.queue_setQueue, if_neg hk]
    clear hx
    generalize hy : x.put QD_STAT.STARVED 1 q = y
    have hput (a : ℕ) (ha : a ≠ RegId.QD_STAT.at q) : y.reg a = x.reg a := by rw [← hy, State.reg_put _ _ _ _ _ _ ha]
    have hf : Frame (.ofRegs [.QD_STAT]) x y := hy ▸ .put .refl
    clear hy
    have hz : Frame (.ofParts [.raising]) y (y.raise 352) := .raise .refl
    refine ⟨fun r hr => by rw [hz.queue, hf.queue, hqueue r hr], fun a ha => ?_⟩
    rw [State.reg, hz.part .regs (by decide), ← State.reg, hput a (by simpa using ha), hreg]
  · exact ⟨fun _ _ => rfl, fun _ _ => rfl⟩

theorem yieldEligible_complete {q : QueueIx} {seq : BitVec 48} {due : ℕ} (hcold : s.coldHeld = false) (hi : s.item q seq.toNat = some i)
    (hst : i.st = .yielded due) (hdue : due ≤ s.clock) :
    ∃ t, exec (.yieldEligible q seq) s = .next t ∧
      t.item q seq.toNat = some { i with st := .waiting, eligAt := s.clock } ∧
      (∀ r, r ≠ q.val → t.queue r = s.queue r) ∧ RegsKept [RegId.QD_STAT.at q] s t ∧ Kept [.queues, .regs, .raising] s t := by
  have hrun : yieldEligibleS q seq.toNat s =
      checkStarve q (editItem q seq.toNat (fun i => { i with st := .waiting, eligAt := s.clock }) s) := by
    rw [yieldEligibleS, hi, Option.map_some, hst]
    exact if_pos hdue
  refine ⟨_, act_next hcold _, ?_⟩
  rw [hrun]
  have hitem : (editItem q seq.toNat (fun i => { i with st := .waiting, eligAt := s.clock }) s).item q seq.toNat =
      some { i with st := .waiting, eligAt := s.clock } := item_editItem (fun _ => rfl) hi
  have hother (r : ℕ) (hr : r ≠ q.val) : (editItem q seq.toNat (fun i => { i with st := .waiting, eligAt := s.clock }) s).queue r = s.queue r := by
    rw [queue_editItem, if_neg hr]
  have hx : Frame (.ofParts [.queues]) s (editItem q seq.toNat (fun i => { i with st := .waiting, eligAt := s.clock }) s) := .editItem .refl
  generalize editItem q seq.toNat _ s = x at *
  have hsame : SameItems x (checkStarve q x) := .checkStarve .refl
  obtain ⟨hqueue, hreg⟩ := checkStarve_spec q x
  have hy : Frame Frame.Scope.checkStarve x (checkStarve q x) := .checkStarve .refl
  generalize checkStarve q x = y at *
  have hf : Frame (.join [.ofParts [.queues], Frame.Scope.checkStarve]) s y := (hx.mono (by decide)).lift (by decide) hy
  refine ⟨?_, fun r hr => (hqueue r hr).trans (hother r hr), fun a ha => (hreg a ha).trans ?_, hf.kept⟩
  · rw [State.item, (hsame q).1, ← State.item, hitem]
  · rw [State.reg, hx.part .regs (by decide), ← State.reg]

/-- Settles O38, by the item's end: without a record, with one, with none that its queue could take, its way to quarantine, its yield. -/
theorem itemsComplete : Obligations.ItemsComplete := by
  refine ⟨?_, ?_, ?_, ?_, ?_⟩
  · intro q seq i s hcold hcd hi hend hout hrecs hdue hown hen
    exact complete_unrecorded hcold ⟨hcd, hi, hend, hout, hrecs, hdue, hown⟩ hen
  · intro q seq i cq s hcold hcd hi hend hout hrecs hdue hown hcmpl hen hcq hne husable hroom
    exact complete_recorded hcold ⟨hcd, hi, hend, hout, hrecs, hdue, hown⟩ hcmpl hen hcq hne husable hroom
  · intro q seq i s hcold hcd hi hend hout hrecs hdue hown hcmpl hen husable
    exact complete_dropped hcold ⟨hcd, hi, hend, hout, hrecs, hdue, hown⟩ hcmpl hen husable
  · intro q seq i fault e s hcold hcd hi hst hroom hq
    exact quarantineDeferredMove_complete hcold hcd hi hst hroom hq
  · intro q seq i due s hcold hi hst hdue
    exact yieldEligible_complete hcold hi hst hdue

end

end Sys2Proof.Proofs

/-! ## Writes of queue descriptors (R183 to R187, R205) -/

namespace Sys2Proof.Proofs

set_option Elab.async false

open Sys2Proof Sys2Proof.Machine Sys2Proof.Claims

/-- A part whose boot has ended, some ticks after it, with its host link up and its chiplets running. -/
def inService : State :=
  let s : State := { State.reset with boot := .up, clock := 7, tansyQ := [], bme := true, fnMask := false }
  let s := ((s.put SL_STAT.LEVEL 2).put EDITION_SEL.ED 1).put PCIE_STAT.LINK_UP 1
  { s with chips := (List.range 8).map fun n => (n, { running := true }) }

/-- A queue that is stopped, with neither its enable nor a length. -/
def stoppedQueue : State := inService.put QD_STAT.STOPPED 1 32766

/-- The tick at which a queue was last opened, in the state that a command leaves. -/
def openedAt (q : ℕ) : Res → Option ℕ
  | .next t => some (t.queue q).openAt
  | _ => none

theorem stoppedQueue_closed : (stoppedQueue.queue 32766).openAt = 0 := by
  decide +kernel

/-- A word that asks for the queue and for its resumption writes the queue's opening before the enable is refused (R205). -/
theorem stoppedQueue_opens : openedAt 32766 (exec (.queueEnable 0x100 32766 0x8001) stoppedQueue) = some 7 := by
  decide +kernel

/-- Refutes O37: an enable that is refused for its length leaves every queue as it was, it says, but the same word may carry `RESUME`,
which ends a stop and sets the tick from which the queue is open. -/
theorem not_descriptorWritesComplete : ¬ Obligations.DescriptorWritesComplete := by
  unfold Obligations.DescriptorWritesComplete
  rintro ⟨-, hrefused, -⟩
  obtain ⟨t, hexec, -, -, hqueues⟩ := hrefused 0x100 32766 0x8001 stoppedQueue (by decide +kernel) (by decide) (by decide +kernel)
    (by decide) (by decide +kernel)
  have hopen := stoppedQueue_opens
  rw [hexec] at hopen
  have hsame : (t.queue 32766).openAt = (stoppedQueue.queue 32766).openAt := by rw [State.queue, hqueues, ← State.queue]
  rw [stoppedQueue_closed] at hsame
  simp [openedAt, hsame] at hopen

end Sys2Proof.Proofs

/-! ## The execute-in-place cache and its fills (R216, R347 to R349) -/

namespace Sys2Proof.Proofs

set_option Elab.async false

open Sys2Proof Sys2Proof.Machine Sys2Proof.Claims

section

variable {s t : State}

/-- What an accepted write to an unpaired register leaves, where some of its bits are neither the software's nor reserved. -/
theorem busWrite_masked {o : Origin} {id : RegId} {i j : ℕ} {v : Word} (h : s.writes o id i j v = true)
    (hA : id.isPairA = false) (hB : id.isPairB = false)
    (hm : BitVec.ofNat 32 ((regRow id).rw ||| (regRow id).cnt ||| (regRow id).wo1) ≠ 0#32) (hi : i < (regRow id).n1 := by decide)
    (hj : j < (regRow id).n2 := by decide) (h0 : (RegAt.mk id i j).entry0 = false := by rfl) :
    ∃ q, busWrite o (id.at i j) v s = .next (afterWrite ⟨id, i, j⟩ (s.reg (id.at i j))
      ((writeHook o.toNat ⟨id, i, j⟩ (BitVec.ofNat 32 ((regRow id).rw ||| (regRow id).cnt ||| (regRow id).wo1)) (s.reg (id.at i j))
        (writtenWord s ⟨id, i, j⟩ (id.at i j) v) { s with tansyQ := q }).2.setReg (id.at i j)
      (writeHook o.toNat ⟨id, i, j⟩ (BitVec.ofNat 32 ((regRow id).rw ||| (regRow id).cnt ||| (regRow id).wo1)) (s.reg (id.at i j))
        (writtenWord s ⟨id, i, j⟩ (id.at i j) v) s).1)) := by
  obtain ⟨hserves, hclean⟩ := Bool.and_eq_true_iff.mp h
  have hserved := serves_iff.mp hserves
  have hreg : regOf (id.at i j) = some ⟨id, i, j⟩ := regOf_at id i j hi hj h0
  have hmask : s.writable ⟨id, i, j⟩ (id.at i j) = BitVec.ofNat 32 ((regRow id).rw ||| (regRow id).cnt ||| (regRow id).wo1) :=
    writable_of_clean hclean
  obtain ⟨q, hq⟩ := directWrite_hook (o := o.toNat) hclean (by rw [hmask]; exact hm)
  refine ⟨q, ?_⟩
  rw [busWrite, originWrite_of_serves hserves hreg hA hB (reservedAt_of_served hserved hreg), hq, hmask]

theorem get_setReg (f : Fld) (y : State) (i j : ℕ) (v : Word) : (y.setReg (f.reg.at i j) v).get f i j = fieldOf v f.lo f.w := by
  rw [State.get, State.reg_setReg, if_pos rfl]

/-- A bit that a write reaches is the one written. -/
theorem fieldOf_writtenWord {r : RegAt} {a b : ℕ} {v : Word} (hm : (s.writable r a).getLsbD b = true) :
    fieldOf (writtenWord s r a v) b 1 = fieldOf v b 1 := by
  have hbit : (writtenWord s r a v).getLsbD b = v.getLsbD b := by
    rw [writtenWord, BitVec.getLsbD_or, BitVec.getLsbD_and, BitVec.getLsbD_and, BitVec.getLsbD_not, hm]
    simp
  rw [getLsbD_eq_fieldOf, getLsbD_eq_fieldOf, decide_eq_decide] at hbit
  have hone (w : Word) : fieldOf w b 1 < 2 := Nat.mod_lt _ (by decide)
  have h1 := hone (writtenWord s r a v)
  have h2 := hone v
  omega

/-! ### Invalidation (R216) -/

/-- The cache once an invalidation has met it. -/
def emptied (x : Xip) : Xip := { x with lines := [], drop := x.filling.isSome }

theorem hook_invalidate {o : ℕ} {m old v : Word} (h : fieldOf v 1 1 = 1) :
    writeHook o ⟨.XIP_CACHE, 0, 0⟩ m old v s = (withField v 1 1 0, { s with xip := emptied s.xip }) := by
  unfold writeHook
  dsimp only
  unfold hookXipCache
  rw [h]
  dsimp only [emptied]
  split <;> rfl

theorem invalidate_complete {o : Origin} {v : Word} (h : s.writes o .XIP_CACHE 0 0 (withField v 1 1 1) = true) :
    ∃ t, exec (.xipInvalidate o v) s = .next t ∧ t.xip.lines = [] ∧ t.xip.misses = s.xip.misses ∧
      t.xip.filling = s.xip.filling ∧ t.xip.drop = s.xip.filling.isSome ∧ t.isSet XIP_CACHE.INV = false ∧
      t.get XIP_CACHE.EN = fieldOf v 0 1 ∧ RegsKept [RegId.XIP_CACHE.at] s t ∧ Kept [.regs, .xip, .tansyQ] s t := by
  obtain ⟨q, hq⟩ := busWrite_masked h (by decide) (by decide) (by decide)
  have hmask := writable_of_clean (Bool.and_eq_true_iff.mp h).2
  have hinv : fieldOf (writtenWord s ⟨.XIP_CACHE, 0, 0⟩ RegId.XIP_CACHE.at (withField v 1 1 1)) 1 1 = 1 := by
    rw [fieldOf_writtenWord (by rw [hmask]; decide), fieldOf_withField _ _ _ _ (by decide)]
    rfl
  have hen : fieldOf (writtenWord s ⟨.XIP_CACHE, 0, 0⟩ RegId.XIP_CACHE.at (withField v 1 1 1)) 0 1 = fieldOf v 0 1 := by
    rw [fieldOf_writtenWord (by rw [hmask]; decide), fieldOf_withField_ne _ _ _ _ _ _ (by decide) (by decide)]
  generalize writtenWord s ⟨.XIP_CACHE, 0, 0⟩ RegId.XIP_CACHE.at (withField v 1 1 1) = w at *
  have hx : Frame (.ofParts [.tansyQ]) s { s with tansyQ := q } := .withTansyQ .refl
  generalize ({ s with tansyQ := q } : State) = x at *
  have hafter (old : Word) (u : State) : afterWrite ⟨.XIP_CACHE, 0, 0⟩ old u = u := rfl
  rw [hook_invalidate hinv, hook_invalidate hinv, hafter, hx.part .xip (by decide)] at hq
  dsimp only at hq
  have hy : Frame (.ofParts [.xip]) x { x with xip := emptied s.xip } := .withXip .refl
  have hxip : ({ x with xip := emptied s.xip } : State).xip = emptied s.xip := rfl
  generalize ({ x with xip := emptied s.xip } : State) = y at *
  have ht : Frame (.ofRegs [.XIP_CACHE]) y (y.setReg RegId.XIP_CACHE.at (withField w 1 1 0)) := .setReg .refl
  have hall : Frame (.join [.ofParts [.tansyQ, .xip], .ofRegs [.XIP_CACHE]]) s (y.setReg RegId.XIP_CACHE.at (withField w 1 1 0)) :=
    ((hx.mono (by decide)).lift (by decide) hy).lift (by decide) ht
  have hget (f : Fld) (hf : f.reg = .XIP_CACHE) : (y.setReg RegId.XIP_CACHE.at (withField w 1 1 0)).get f = fieldOf (withField w 1 1 0) f.lo f.w := by
    rw [← hf]
    exact get_setReg ..
  have htx := (ht.part .xip (by decide)).trans hxip
  refine ⟨_, hq, by rw [htx]; rfl, by rw [htx]; rfl, by rw [htx]; rfl, by rw [htx]; rfl, ?_, ?_, hall.regsKept [.XIP_CACHE], hall.kept⟩
  · rw [State.isSet, hget _ rfl, fieldOf_withField _ _ _ _ (by decide)]
    rfl
  · rw [hget _ rfl, fieldOf_withField_ne _ _ _ _ _ _ (by decide) (by decide), hen]

/-! ### Fills -/

theorem mselLevels_congr (hcfg : t.sm.cfg = s.sm.cfg) (hlow : t.sm.low = s.sm.low) (hrise : t.sm.rising = s.sm.rising)
    (hpins : t.sm.pins = s.sm.pins) : t.mselLevels = s.mselLevels := by
  rw [State.mselLevels, State.mselLevels, hcfg, hlow, hrise, hpins]

theorem fillFrame_of_frame {w : Scope} (h : Frame w s t) (line : ℕ) (hx : w.hasReg .SM_XIP = false := by decide) :
    t.fillFrame line = s.fillFrame line := by
  have hget (f : Fld) (hf : f.reg = .SM_XIP) : t.get f = s.get f := h.get (hf := by rw [hf]; exact hx)
  have hset (f : Fld) (hf : f.reg = .SM_XIP) : t.isSet f = s.isSet f := by rw [State.isSet, hget f hf, State.isSet]
  simp only [State.fillFrame, hset, hget]

theorem waveOf_of_frame {w : Scope} (h : Frame w s t) (f : SmFrame) (hcfg : t.sm.cfg = s.sm.cfg) (hx : w.hasReg .SM_TIME = false := by decide) :
    t.waveOf f = s.waveOf f := by
  have hget (f : Fld) (hf : f.reg = .SM_TIME) : t.get f = s.get f := h.get (hf := by rw [hf]; exact hx)
  simp only [State.waveOf, State.setupTicks, State.msckTicks, hget, hcfg]

theorem lowerSel_spec (n : ℕ) (s : State) : (lowerSel n s).sm = { s.sm with low := some n } ∧
    (lowerSel n s).outs = s.outs ++ [.smPins (lowerSel n s).mselLevels] ∧ Frame (.ofParts [.sm, .outs]) s (lowerSel n s) :=
  ⟨rfl, rfl, .lowerSel .refl⟩

/-- The cache as a line fill takes the bus. -/
def fillTaken (line : ℕ) (rest : List (ℕ × ℕ)) (y : State) : State :=
  { y with xip := { y.xip with misses := rest, filling := some line, drop := false } }

/-- A fill begins at the present clock. -/
def fillBegun (z : State) : State := { z with sm := { z.sm with fillAt := z.clock } }

theorem fillRun_eq (line : ℕ) (rest : List (ℕ × ℕ)) (x : State) :
    (let s : State := { lowerSel (x.get SM_XIP.SEL) x with xip := { x.xip with misses := rest, filling := some line, drop := false } }
     ({ s with sm := { s.sm with fillAt := s.clock } }).emit (.smFill (s.fillFrame line) (s.waveOf (s.fillFrame line)))) =
      (let z := fillTaken line rest (lowerSel (x.get SM_XIP.SEL) x)
       (fillBegun z).emit (.smFill (z.fillFrame line) (z.waveOf (z.fillFrame line)))) := by
  have hz : ({ lowerSel (x.get SM_XIP.SEL) x with xip := { x.xip with misses := rest, filling := some line, drop := false } } : State) =
    fillTaken line rest (lowerSel (x.get SM_XIP.SEL) x) := rfl
  rw [hz]
  rfl

theorem xipFillStartS_eq {line t0 : ℕ} {rest : List (ℕ × ℕ)} (hmiss : s.xip.misses = (line, t0) :: rest) (hready : s.fillReady = true)
    (hcd : s.cdDown = false) : xipFillStartS s =
      let z := fillTaken line rest (lowerSel ((s.bump XIP_CACHE.FILLS).get SM_XIP.SEL) (s.bump XIP_CACHE.FILLS))
      (fillBegun z).emit (.smFill (z.fillFrame line) (z.waveOf (z.fillFrame line))) := by
  have hcond : (s.fillReady && !s.cdDown) = true := by rw [hready, hcd]; rfl
  unfold xipFillStartS
  split
  · next line' t' rest' h =>
    obtain ⟨⟨rfl, rfl⟩, rfl⟩ : (line = line' ∧ t0 = t') ∧ rest = rest' := by simpa [hmiss] using h
    rw [if_pos hcond]
    exact fillRun_eq line rest (s.bump XIP_CACHE.FILLS)
  · next h => exact absurd (hmiss.symm.trans h) (List.cons_ne_nil _ _)

theorem fillStart_complete {line t0 : ℕ} {rest : List (ℕ × ℕ)} (hcold : s.coldHeld = false) (hmiss : s.xip.misses = (line, t0) :: rest)
    (hready : s.fillReady = true) (hcd : s.cdDown = false) :
    ∃ t, exec .xipFillStart s = .next t ∧ t.xip.filling = some line ∧ t.xip.misses = rest ∧ t.xip.drop = false ∧
      t.xip.lines = s.xip.lines ∧ t.get XIP_CACHE.FILLS = (s.get XIP_CACHE.FILLS + 1) % 65536 ∧
      t.sm.low = some (s.get SM_XIP.SEL) ∧
      t.outs = s.outs ++ [.smPins t.mselLevels, .smFill (s.fillFrame line) (s.waveOf (s.fillFrame line))] ∧ t.sm.fillAt = s.clock ∧
      RegsKept [RegId.XIP_CACHE.at] s t ∧ Kept [.regs, .xip, .sm, .outs] s t := by
  refine ⟨_, act_next hcold _, ?_⟩
  rw [xipFillStartS_eq hmiss hready hcd]
  have hfills : (s.bump XIP_CACHE.FILLS).get XIP_CACHE.FILLS = (s.get XIP_CACHE.FILLS + 1) % 65536 := get_bump _ _ _ (by decide)
  have hx : Frame (.ofRegs [.XIP_CACHE]) s (s.bump XIP_CACHE.FILLS) := .bump .refl
  generalize s.bump XIP_CACHE.FILLS = x at *
  rw [hx.get]
  obtain ⟨hsm, houts, hy⟩ := lowerSel_spec (s.get SM_XIP.SEL) x
  generalize lowerSel (s.get SM_XIP.SEL) x = y at *
  have hz : Frame (.ofParts [.xip]) y (fillTaken line rest y) := .withXip .refl
  have hzxip : (fillTaken line rest y).xip = { y.xip with misses := rest, filling := some line, drop := false } := rfl
  dsimp only
  generalize fillTaken line rest y = z at *
  have hsz : Frame (.join [.ofParts [.sm, .outs, .xip], .ofRegs [.XIP_CACHE]]) s z :=
    ((hx.mono (by decide)).lift (by decide) hy).lift (by decide) hz
  rw [hx.part .sm (by decide)] at hsm
  rw [fillFrame_of_frame hsz, waveOf_of_frame hsz _ (by rw [hz.part .sm (by decide), hsm])]
  have hw : Frame (.ofParts [.sm]) z (fillBegun z) := .withSm .refl
  have husm : (fillBegun z).sm = { z.sm with fillAt := z.clock } := rfl
  generalize fillBegun z = u at *
  rw [hz.part .sm (by decide), hsm, hsz.clock] at husm
  have hv : Frame (.ofParts [.outs]) u (u.emit (.smFill (s.fillFrame line) (s.waveOf (s.fillFrame line)))) := .emit .refl
  have hemit : (u.emit (.smFill (s.fillFrame line) (s.waveOf (s.fillFrame line)))).outs =
      u.outs ++ [.smFill (s.fillFrame line) (s.waveOf (s.fillFrame line))] := rfl
  generalize u.emit (.smFill (s.fillFrame line) (s.waveOf (s.fillFrame line))) = v at *
  have hvsm := (hv.part .sm (by decide)).trans husm
  have hvxip : v.xip = { s.xip with misses := rest, filling := some line, drop := false } := by
    rw [hv.part .xip (by decide), hw.part .xip (by decide), hzxip, hy.part .xip (by decide), hx.part .xip (by decide)]
  have hall : Frame (.join [.ofParts [.sm, .outs, .xip], .ofRegs [.XIP_CACHE]]) s v :=
    (hsz.lift (by decide) hw).lift (by decide) hv
  refine ⟨by rw [hvxip], by rw [hvxip], by rw [hvxip], by rw [hvxip], ?_, by rw [hvsm], ?_, by rw [hvsm], hall.regsKept [.XIP_CACHE], hall.kept⟩
  · rw [hv.get, hw.get, hz.get, hy.get, hfills]
  · have hlevels : v.mselLevels = y.mselLevels := by
      exact mselLevels_congr (by rw [hvsm, hsm]) (by rw [hvsm, hsm]) (by rw [hvsm, hsm]) (by rw [hvsm, hsm])
    rw [hlevels, hemit, hw.part .outs (by decide), hz.part .outs (by decide), houts, hx.part .outs (by decide), List.append_assoc]
    rfl

/-! ### The end of a fill -/

theorem mem_of_get {α : Type} (d : ℕ → α) (m : SMap α) {k : ℕ} (h : SMap.get d m k ≠ d k) : (k, SMap.get d m k) ∈ m := by
  induction m with
  | nil => exact absurd rfl h
  | cons e m ih =>
    by_cases hk : k = e.1
    · simp [SMap.get, hk]
    · simp only [SMap.get, if_neg hk] at h ⊢
      exact List.mem_cons_of_mem _ (ih h)

/-- An engine that waits on a line is among those that do. -/
theorem mem_xipWaiters {line e off : ℕ} {load : Bool} (h : (s.eng e).wait = some (.xip off load)) (hl : off / 64 * 64 = line) :
    (e, off, load) ∈ s.xipWaiters line := by
  have hmem : (e, s.eng e) ∈ s.engines := by
    refine mem_of_get _ _ fun hd => ?_
    rw [State.eng, hd] at h
    exact absurd h (by simp)
  refine List.mem_filterMap.mpr ⟨_, hmem, ?_⟩
  rw [h]
  exact if_pos hl

/-- A line reaches one of the engines that wait for it. -/
def handLine (bs : List Byte) (w : ℕ × ℕ × Bool) (s : State) : State :=
  s.setEng w.1 { s.eng w.1 with wait := none, lines := (w.2, bs) :: (s.eng w.1).lines }

theorem eng_handLine (bs : List Byte) (w : ℕ × ℕ × Bool) (s : State) (e : ℕ) : (handLine bs w s).eng e =
    if e = w.1 then { s.eng w.1 with wait := none, lines := (w.2, bs) :: (s.eng w.1).lines } else s.eng e := State.eng_setEng ..

theorem xipDeliver_eq (line : ℕ) (bs : List Byte) (s : State) : xipDeliver line bs s = forList (s.xipWaiters line) (handLine bs) s := rfl

theorem handLines_others (bs : List Byte) (ws : List (ℕ × ℕ × Bool)) (s : State) {e : ℕ} (h : e ∉ ws.map (·.1)) :
    (forList ws (handLine bs) s).eng e = s.eng e := by
  induction ws generalizing s with
  | nil => rfl
  | cons w ws ih =>
    rw [List.map_cons, List.mem_cons, not_or] at h
    rw [forList_cons, ih _ h.2, eng_handLine, if_neg h.1]

/-- An engine waits for nothing and has a line. -/
def HasLine (e : ℕ) (x : (ℕ × Bool) × List Byte) (s : State) : Prop := (s.eng e).wait = none ∧ x ∈ (s.eng e).lines

theorem HasLine.handLine {e : ℕ} {x : (ℕ × Bool) × List Byte} {bs : List Byte} (w : ℕ × ℕ × Bool) (h : HasLine e x s) :
    HasLine e x (handLine bs w s) := by
  obtain ⟨hwait, hmem⟩ := h
  by_cases he : e = w.1
  · rw [HasLine, eng_handLine, if_pos he]
    exact ⟨rfl, List.mem_cons_of_mem _ (he ▸ hmem)⟩
  · rw [HasLine, eng_handLine, if_neg he]
    exact ⟨hwait, hmem⟩

theorem HasLine.handLines {e : ℕ} {x : (ℕ × Bool) × List Byte} {bs : List Byte} (ws : List (ℕ × ℕ × Bool)) (h : HasLine e x s) :
    HasLine e x (forList ws (Proofs.handLine bs) s) :=
  List.foldlRecOn ws _ h fun _ ht w _ => ht.handLine w

theorem handLines_served {bs : List Byte} {ws : List (ℕ × ℕ × Bool)} {w : ℕ × ℕ × Bool} (s : State) (h : w ∈ ws) :
    HasLine w.1 (w.2, bs) (forList ws (handLine bs) s) := by
  induction ws generalizing s with
  | nil => exact absurd h List.not_mem_nil
  | cons v ws ih =>
    rw [forList_cons]
    obtain rfl | hmem := List.mem_cons.mp h
    · refine HasLine.handLines ws ?_
      rw [HasLine, eng_handLine, if_pos rfl]
      exact ⟨rfl, List.mem_cons_self⟩
    · exact ih _ hmem

theorem raiseSel_spec (s : State) : (raiseSel s).sm.low = none ∧ Frame (.ofParts [.sm, .outs]) s (raiseSel s) := by
  refine ⟨?_, .raiseSel .refl⟩
  unfold raiseSel
  split
  · rfl
  · next h => exact h

/-- The selects, the rest of the port and its frame stand as before beside the pins and the writes held for them. -/
theorem heldEnd_spec (fill : Bool) (edge : ℕ) (s : State) : (heldEnd fill edge s).sm.low = s.sm.low ∧
    (heldEnd fill edge s).sm.frame = s.sm.frame ∧ (heldEnd fill edge s).sm.cfg = s.sm.cfg ∧
    Frame (.ofParts [.sm, .outs]) s (heldEnd fill edge s) := by
  suffices h : (heldEnd fill edge s).sm.low = s.sm.low ∧ (heldEnd fill edge s).sm.frame = s.sm.frame ∧
      (heldEnd fill edge s).sm.cfg = s.sm.cfg from ⟨h.1, h.2.1, h.2.2, .heldEnd .refl⟩
  refine List.foldlRecOn (motive := fun t : State => t.sm.low = s.sm.low ∧ t.sm.frame = s.sm.frame ∧ t.sm.cfg = s.sm.cfg) _ _
    ⟨rfl, rfl, rfl⟩ fun t ht h _ => ht

theorem fillDone_complete {bytes : List Byte} {line : ℕ} (hcold : s.coldHeld = false) (hfill : s.xip.filling = some line) (hcd : s.cdDown = false)
    (hdue : s.sm.fillAt + s.frameTicks (s.fillFrame line) ≤ s.clock) (hdrop : s.xip.drop = false) (hen : s.isSet XIP_CACHE.EN = true) :
    ∃ t, exec (.xipFillDone bytes) s = .next t ∧ t.xip.filling = none ∧ t.sm.low = none ∧
      (let bs := (List.range 64).map fun i => bytes.getD i 0;
       t.xip.lines = ((line, bs) :: s.xip.lines.filter fun l => l.1 != line).take 256 ∧
       (∀ e off load, (s.eng e).wait = some (.xip off load) → off / 64 * 64 = line →
         (t.eng e).wait = none ∧ ((off, load), bs) ∈ (t.eng e).lines)) ∧
      (∀ e, e ∉ (s.xipWaiters line).map (·.1) → t.eng e = s.eng e) ∧
      Kept [.xip, .sm, .outs, .engines] s t := by
  refine ⟨_, act_next hcold _, ?_⟩
  rw [xipFillDoneS, hfill]
  dsimp only
  rw [hcd, Bool.false_or, if_neg (by simpa using hdue), hdrop, if_neg Bool.false_ne_true]
  generalize (List.range 64).map (fun i => bytes.getD i 0) = bs
  generalize s.sm.fillAt + s.lastEdge (s.fillFrame line) = edge
  have hx : Frame (.ofParts [.xip]) s { s with xip := { s.xip with filling := none, drop := false } } := .withXip .refl
  have hxip : ({ s with xip := { s.xip with filling := none, drop := false } } : State).xip = { s.xip with filling := none, drop := false } := rfl
  generalize ({ s with xip := { s.xip with filling := none, drop := false } } : State) = x at *
  obtain ⟨hlow, hy⟩ := raiseSel_spec x
  generalize raiseSel x = y at *
  obtain ⟨hzlow, -, -, hz⟩ := heldEnd_spec true edge y
  generalize heldEnd true edge y = z at *
  rw [hz.isSet, hy.isSet, hx.isSet, hen, if_pos rfl, hz.part .xip (by decide), hy.part .xip (by decide), hxip]
  dsimp only
  generalize hX : ({ lines := ((line, bs) :: s.xip.lines.filter fun l => l.1 != line).take 256, misses := s.xip.misses, filling := none, drop := false } : Xip) = X
  have hu : Frame (.ofParts [.xip]) z { z with xip := X } := .withXip .refl
  have huxip : ({ z with xip := X } : State).xip = X := rfl
  generalize ({ z with xip := X } : State) = u at *
  have hsu : Frame (.ofParts [.xip, .sm, .outs]) s u :=
    (((hx.mono (by decide)).lift (by decide) hy).lift (by decide) hz).lift (by decide) hu
  have hwait : u.xipWaiters line = s.xipWaiters line := by rw [State.xipWaiters, hsu.part .engines (by decide), ← State.xipWaiters]
  have ht : Frame (.ofParts [.engines]) u (xipDeliver line bs u) := .xipDeliver .refl
  have hserved {w} (hw : w ∈ s.xipWaiters line) : HasLine w.1 (w.2, bs) (xipDeliver line bs u) := by
    rw [xipDeliver_eq, hwait]
    exact handLines_served u hw
  have hothers (e : ℕ) (he : e ∉ (s.xipWaiters line).map (·.1)) : (xipDeliver line bs u).eng e = s.eng e := by
    rw [xipDeliver_eq, hwait, handLines_others _ _ _ he, hsu.eng]
  generalize xipDeliver line bs u = t at *
  have hall : Frame (.ofParts [.xip, .sm, .outs, .engines]) s t := (hsu.mono (by decide)).lift (by decide) ht
  have htxip := (ht.part .xip (by decide)).trans huxip
  refine ⟨by rw [htxip, ← hX], ?_, ⟨by rw [htxip, ← hX], fun e off load hw hl => hserved (mem_xipWaiters hw hl)⟩, hothers, hall.kept⟩
  rw [ht.part .sm (by decide), hu.part .sm (by decide), hzlow, hlow]

/-! ### A fill that fails (R348) -/

theorem handlerFault_frame (e code : ℕ) (s : State) : FaultFrame e (itemFields ++ endFields) s (handlerFault e code s) := by
  unfold handlerFault
  split
  · exact .refl
  · next q n hheld =>
    refine FaultFrame.engineFree (by decide) (by decide) (by decide) <| FaultFrame.faultSeen (by decide) (by decide) (by decide) (by decide) <|
      FaultFrame.bump (by decide) ?_
    split
    · exact FaultFrame.returnItem .refl
    · split
      · cases hi : s.item q n with
        | none =>
          rw [quarantineS, hi]
          exact .refl
        | some i =>
          rw [quarantineS_eq hi]
          exact ((quarantineMove_frame e).mono (by decide)).trans ((quarantineReport_frame e).mono (by decide))
      · exact FaultFrame.raise <| FaultFrame.put (by decide) <| FaultFrame.put (by decide) <| FaultFrame.returnItem .refl

theorem wait_engineFree (e : ℕ) (s : State) : ((engineFree e s).eng e).wait = none := by
  have h : ((engineFree e s).eng e).cleared = (engineFree e s).eng e := by
    unfold engineFree
    rw [checkStarveAll_eng]
    apply setEngState_cleared
    rw [State.eng_put_keep, State.eng_setEng, if_pos rfl, cleared_cleared]
  rw [← h]
  rfl

/-- A fault leaves no engine waiting that waited for nothing. -/
theorem wait_handlerFault {e k code : ℕ} (h : (s.eng k).wait = none) : ((handlerFault e code s).eng k).wait = none := by
  by_cases hk : k = e
  · subst hk
    unfold handlerFault
    split
    · exact h
    · exact wait_engineFree ..
  · rw [(handlerFault_frame e code s).engines k hk, h]

/-- One of the engines that wait on a line faults. -/
def failWaiter (w : ℕ × ℕ × Bool) (s : State) : State :=
  handlerFault w.1 (if w.2.2 then fDMEM else fIFETCH) (s.setEng w.1 { s.eng w.1 with wait := none })

theorem wait_failWaiter_same (w : ℕ × ℕ × Bool) (s : State) : ((failWaiter w s).eng w.1).wait = none :=
  wait_handlerFault (by rw [State.eng_setEng, if_pos rfl])

theorem wait_failWaiter {k : ℕ} (w : ℕ × ℕ × Bool) (h : (s.eng k).wait = none) : ((failWaiter w s).eng k).wait = none := by
  refine wait_handlerFault ?_
  rw [State.eng_setEng]
  split
  · rfl
  · exact h

theorem wait_failWaiters {ws : List (ℕ × ℕ × Bool)} {w : ℕ × ℕ × Bool} (s : State) (h : w ∈ ws) :
    ((forList ws failWaiter s).eng w.1).wait = none := by
  induction ws generalizing s with
  | nil => exact absurd h List.not_mem_nil
  | cons v ws ih =>
    rw [forList_cons]
    obtain rfl | hmem := List.mem_cons.mp h
    · exact List.foldlRecOn (motive := fun t : State => (t.eng w.1).wait = none) ws _ (wait_failWaiter_same w s) fun _ ht v _ =>
        wait_failWaiter v ht
    · exact ih _ hmem

theorem raising_failWaiters (ws : List (ℕ × ℕ × Bool)) (s : State) : s.raising ⊆ (forList ws failWaiter s).raising :=
  List.foldlRecOn (motive := fun t : State => s.raising ⊆ t.raising) ws _ (List.Subset.refl _) fun t ht w _ =>
    List.Subset.trans ht (handlerFault_frame w.1 _ (t.setEng w.1 { t.eng w.1 with wait := none })).raising

theorem frame_failWaiters (ws : List (ℕ × ℕ × Bool)) (s : State) : Frame Frame.Scope.handlerFault s (forList ws failWaiter s) :=
  .forList (fun _ _ h => .handlerFault (.setEng h)) .refl

/-- The report of a fill that has failed. -/
def fillFailed (s : State) : State :=
  ((((s.put SM_STAT.FILL_FAIL 1).bump SM_CNT.FILL_FAILS).put XIP_CACHE.ERR_SEEN 1).raise 373)

theorem failLine_eq (line : ℕ) (s : State) : failLine handlerFault line s = forList (s.xipWaiters line) failWaiter (fillFailed s) := rfl

theorem fillFailed_spec (s : State) : (fillFailed s).isSet SM_STAT.FILL_FAIL = true ∧
    (fillFailed s).get SM_CNT.FILL_FAILS = (s.get SM_CNT.FILL_FAILS + 1) % 65536 ∧ (fillFailed s).isSet XIP_CACHE.ERR_SEEN = true ∧
    373 ∈ (fillFailed s).raising ∧ Frame (.join [.ofParts [.raising], .ofRegs [.SM_STAT, .SM_CNT, .XIP_CACHE]]) s (fillFailed s) := by
  unfold fillFailed
  have hfail : (s.put SM_STAT.FILL_FAIL 1).isSet SM_STAT.FILL_FAIL = true := isSet_put_one _ _ (by decide)
  have hx : Frame (.ofRegs [.SM_STAT]) s (s.put SM_STAT.FILL_FAIL 1) := .put .refl
  generalize s.put SM_STAT.FILL_FAIL 1 = x at *
  have hcnt : (x.bump SM_CNT.FILL_FAILS).get SM_CNT.FILL_FAILS = (s.get SM_CNT.FILL_FAILS + 1) % 65536 := by
    rw [get_bump _ _ _ (by decide), hx.get]
    rfl
  have hy : Frame (.ofRegs [.SM_CNT]) x (x.bump SM_CNT.FILL_FAILS) := .bump .refl
  generalize x.bump SM_CNT.FILL_FAILS = y at *
  have herr : (y.put XIP_CACHE.ERR_SEEN 1).isSet XIP_CACHE.ERR_SEEN = true := isSet_put_one _ _ (by decide)
  have hz : Frame (.ofRegs [.XIP_CACHE]) y (y.put XIP_CACHE.ERR_SEEN 1) := .put .refl
  generalize y.put XIP_CACHE.ERR_SEEN 1 = z at *
  have ht : Frame (.ofParts [.raising]) z (z.raise 373) := .raise .refl
  refine ⟨?_, ?_, ht.isSet.trans herr, mem_raising_raise .., (((hx.mono (by decide)).lift (by decide) hy).lift (by decide) hz).lift (by decide) ht⟩
  · rw [ht.isSet, hz.isSet, hy.isSet, hfail]
  · rw [ht.get, hz.get, hcnt]

/-- What a failed fill of a line leaves (R348). -/
theorem failLine_spec (line : ℕ) (s : State) : (failLine handlerFault line s).isSet SM_STAT.FILL_FAIL = true ∧
    (failLine handlerFault line s).get SM_CNT.FILL_FAILS = (s.get SM_CNT.FILL_FAILS + 1) % 65536 ∧
    (failLine handlerFault line s).isSet XIP_CACHE.ERR_SEEN = true ∧ 373 ∈ (failLine handlerFault line s).raising ∧
    (∀ e off load, (s.eng e).wait = some (.xip off load) → off / 64 * 64 = line → ((failLine handlerFault line s).eng e).wait = none) ∧
    Frame (.join [.ofParts [.raising], .ofRegs [.SM_STAT, .SM_CNT, .XIP_CACHE], Frame.Scope.handlerFault]) s (failLine handlerFault line s) := by
  rw [failLine_eq]
  obtain ⟨hfail, hcnt, herr, hraise, hx⟩ := fillFailed_spec s
  generalize fillFailed s = x at *
  have hy := frame_failWaiters (s.xipWaiters line) x
  refine ⟨hy.isSet.trans hfail, hy.get.trans hcnt, hy.isSet.trans herr, raising_failWaiters _ x hraise, fun e off load hw hl => ?_,
    (hx.mono (by decide)).lift (by decide) hy⟩
  exact wait_failWaiters x (mem_xipWaiters hw hl)

theorem fillFail_complete {line t0 : ℕ} {rest : List (ℕ × ℕ)} (hcold : s.coldHeld = false) (hcd : s.cdDown = false) (hset : s.xipSet = true)
    (hmiss : s.xip.misses = (line, t0) :: rest) (hdue : t0 + usTk * s.get SM_XIP_TMO.TMO_US ≤ s.clock) :
    ∃ t, exec .xipFillFail s = .next t ∧ t.xip.misses = rest ∧ t.isSet SM_STAT.FILL_FAIL = true ∧
      t.get SM_CNT.FILL_FAILS = (s.get SM_CNT.FILL_FAILS + 1) % 65536 ∧ t.isSet XIP_CACHE.ERR_SEEN = true ∧
      373 ∈ t.raising ∧ (∀ e off load, (s.eng e).wait = some (.xip off load) → off / 64 * 64 = line → (t.eng e).wait = none) := by
  refine ⟨_, act_next hcold _, ?_⟩
  have hrun : xipFillFailS s = failLine handlerFault line { s with xip := { s.xip with misses := rest } } := by
    rw [xipFillFailS, hcd, hset, hmiss]
    exact if_pos hdue
  rw [hrun]
  have hx : Frame (.ofParts [.xip]) s { s with xip := { s.xip with misses := rest } } := .withXip .refl
  have hxip : ({ s with xip := { s.xip with misses := rest } } : State).xip.misses = rest := rfl
  generalize ({ s with xip := { s.xip with misses := rest } } : State) = x at *
  obtain ⟨hfail, hcnt, herr, hraise, hwait, hy⟩ := failLine_spec line x
  refine ⟨?_, hfail, by rw [hcnt, hx.get], herr, hraise, fun e off load hw hl => hwait e off load (by rw [hx.eng, hw]) hl⟩
  rw [hy.part .xip (by decide), hxip]

/-- Settles O40, by the cache's four turns: an invalidation, a fill that starts, one that is done and one that fails. -/
theorem executeInPlaceCompletes : Obligations.ExecuteInPlaceCompletes := by
  refine ⟨?_, ?_, ?_, ?_⟩
  · intro o v s h
    exact invalidate_complete h
  · intro line t0 rest s hcold hmiss hready hcd
    exact fillStart_complete hcold hmiss hready hcd
  · intro bytes line s hcold hfill hcd hdue hdrop hen
    exact fillDone_complete hcold hfill hcd hdue hdrop hen
  · intro line t0 rest s hcold hcd hset hmiss hdue
    exact fillFail_complete hcold hcd hset hmiss hdue

end

end Sys2Proof.Proofs

/-! ## The serial master port (R342 to R350) -/

namespace Sys2Proof.Proofs

set_option Elab.async false

open Sys2Proof Sys2Proof.Machine Sys2Proof.Claims

section

variable {s t : State}

/-! ### Starts (R344) -/

theorem plain_smCmd : Plain .SM_CMD := ⟨by decide, by decide, by decide, by decide⟩

theorem smRefused_of_frame {w : Scope} (h : Frame w s t) (hw : w.hasReg .SM_CFG = false ∧ w.hasReg .SM_FRM0 = false ∧ w.hasReg .SM_FRM2 = false := by decide) :
    t.smRefused = s.smRefused := by
  obtain ⟨hcfg, hfrm0, hfrm2⟩ := hw
  have hget {r : RegId} (hr : w.hasReg r = false) (f : Fld) (hf : f.reg = r) : t.get f = s.get f := h.get (hf := by rw [hf]; exact hr)
  have hset {r : RegId} (hr : w.hasReg r = false) (f : Fld) (hf : f.reg = r) : t.isSet f = s.isSet f := by
    rw [State.isSet, hget hr f hf, State.isSet]
  rw [State.smRefused, State.smRefused, hset hcfg SM_CFG.EN rfl, hget hfrm0 SM_FRM0.CMD_BYTES rfl, hget hfrm0 SM_FRM0.ADDR_BYTES rfl,
    hget hfrm2 SM_FRM2.LEN rfl, hset hfrm2 SM_FRM2.HWSEL rfl, hget hcfg SM_CFG.SEL_HW rfl, hget hfrm2 SM_FRM2.SEL rfl]

/-- The frame that a start captures (R344). -/
def captured (o : ℕ) (s : State) : SmFrame where
  frm0 := s.reg RegId.SM_FRM0.at
  frm1 := s.reg RegId.SM_FRM1.at
  frm2 := s.reg RegId.SM_FRM2.at
  buf := (List.range 128).map fun i => s.reg (RegId.SM_BUF.at i)
  o := o

theorem captured_of_frame {w : Scope} (o : ℕ) (h : Frame w s t)
    (hw : w.hasReg .SM_FRM0 = false ∧ w.hasReg .SM_FRM1 = false ∧ w.hasReg .SM_FRM2 = false ∧ w.hasReg .SM_BUF = false := by decide) :
    captured o t = captured o s := by
  obtain ⟨h0, h1, h2, hb⟩ := hw
  simp [captured, h.reg _ h0, h.reg _ h1, h.reg _ h2, h.reg _ hb]

/-- The port with a start accepted. -/
def smStarted (o : ℕ) (s : State) : State := { s.put SM_STAT.BUSY 1 with sm := { s.sm with frame := some (captured o s) } }

theorem hook_start {o : ℕ} {m old v : Word} (hgo : fieldOf v 0 1 = 1) (hbusy : s.isSet SM_STAT.BUSY = false) (hok : s.smRefused = none) :
    writeHook o ⟨.SM_CMD, 0, 0⟩ m old v s = (withField v 0 1 0, smStarted o s) := by
  unfold writeHook
  dsimp only
  rw [hookSmCmd, hgo, hbusy, hok]
  rfl

theorem hook_refused {o code : ℕ} {m old v : Word} (hgo : fieldOf v 0 1 = 1) (hbusy : s.isSet SM_STAT.BUSY = false) (hno : s.smRefused = some code) :
    writeHook o ⟨.SM_CMD, 0, 0⟩ m old v s = (withField v 0 1 0, ((s.put SM_STAT.REFUSED 1).put SM_STAT.LAST_CODE code).raise 373) := by
  unfold writeHook
  dsimp only
  rw [hookSmCmd, hgo, hbusy, hno]
  rfl

theorem fieldOf_set0 (v : Word) : fieldOf (withField v 0 1 1) 0 1 = 1 := fieldOf_withField _ _ _ _ (by decide)

theorem start_complete {o : Origin} {v : Word} (h : s.writes o .SM_CMD 0 0 (withField v 0 1 1) = true) (hbusy : s.isSet SM_STAT.BUSY = false)
    (hok : s.smRefused = none) :
    ∃ t, exec (.smGo o v) s = .next t ∧ t.isSet SM_STAT.BUSY = true ∧ t.isSet SM_CMD.GO = false ∧
      t.sm.frame = some (captured o.toNat s) ∧
      RegsKept [RegId.SM_STAT.at, RegId.SM_CMD.at] s t ∧ Kept [.regs, .sm, .tansyQ] s t := by
  obtain ⟨q, hq⟩ := busWrite_hook h plain_smCmd
  have hx : Frame (.ofParts [.tansyQ]) s { s with tansyQ := q } := .withTansyQ .refl
  generalize ({ s with tansyQ := q } : State) = x at *
  have hafter (old : Word) (u : State) : afterWrite ⟨.SM_CMD, 0, 0⟩ old u = u := rfl
  rw [hook_start (fieldOf_set0 v) hbusy hok, hook_start (fieldOf_set0 v) (by rw [hx.isSet, hbusy]) (by rw [smRefused_of_frame hx, hok]), hafter] at hq
  have hy : Frame (.join [.ofParts [.sm], .ofRegs [.SM_STAT]]) x (smStarted o.toNat x) := .withSm (.put .refl (by decide)) (by decide)
  have hyb : (smStarted o.toNat x).isSet SM_STAT.BUSY = true := by
    have hp : (x.put SM_STAT.BUSY 1).isSet SM_STAT.BUSY = true := isSet_put_one _ _ (by decide)
    have hf : Frame (.ofParts [.sm]) (x.put SM_STAT.BUSY 1) (smStarted o.toNat x) := .withSm .refl
    rw [hf.isSet, hp]
  have hyf : (smStarted o.toNat x).sm.frame = some (captured o.toNat s) := by
    rw [← captured_of_frame _ hx]
    rfl
  generalize smStarted o.toNat x = y at *
  have ht : Frame (.ofRegs [.SM_CMD]) y (y.setReg RegId.SM_CMD.at (withField (withField v 0 1 1) 0 1 0)) := .setReg .refl
  have hall : Frame (.join [.ofParts [.tansyQ, .sm], .ofRegs [.SM_STAT, .SM_CMD]]) s (y.setReg RegId.SM_CMD.at (withField (withField v 0 1 1) 0 1 0)) :=
    ((hx.mono (by decide)).lift (by decide) hy).lift (by decide) ht
  have hgo : (y.setReg RegId.SM_CMD.at (withField (withField v 0 1 1) 0 1 0)).get SM_CMD.GO = 0 :=
    (get_setReg SM_CMD.GO y 0 0 _).trans (fieldOf_withField _ _ _ _ (by decide))
  refine ⟨_, hq, ht.isSet.trans hyb, ?_, (congrArg Sm.frame (ht.part .sm (by decide))).trans hyf, hall.regsKept [.SM_STAT, .SM_CMD], hall.kept⟩
  rw [State.isSet, hgo]
  rfl

theorem refusal_complete {o : Origin} {v : Word} {code : ℕ} (h : s.writes o .SM_CMD 0 0 (withField v 0 1 1) = true)
    (hbusy : s.isSet SM_STAT.BUSY = false) (hno : s.smRefused = some code) :
    ∃ t, exec (.smGo o v) s = .next t ∧ t.isSet SM_STAT.REFUSED = true ∧ t.get SM_STAT.LAST_CODE = code ∧ t.sm = s.sm ∧
      t.raising = s.raising ++ [373] := by
  have hcode : code < 16 := by
    have hle : code ≤ 3 := by
      unfold State.smRefused at hno
      split at hno
      · cases hno; decide
      · split at hno
        · cases hno; decide
        · split at hno
          · cases hno; decide
          · cases hno
    omega
  obtain ⟨q, hq⟩ := busWrite_hook h plain_smCmd
  have hx : Frame (.ofParts [.tansyQ]) s { s with tansyQ := q } := .withTansyQ .refl
  generalize ({ s with tansyQ := q } : State) = x at *
  have hafter (old : Word) (u : State) : afterWrite ⟨.SM_CMD, 0, 0⟩ old u = u := rfl
  rw [hook_refused (fieldOf_set0 v) hbusy hno, hook_refused (fieldOf_set0 v) (by rw [hx.isSet, hbusy]) (by rw [smRefused_of_frame hx, hno]), hafter] at hq
  have hy : Frame (.ofRegs [.SM_STAT]) x (x.put SM_STAT.REFUSED 1) := .put .refl
  have hyr : (x.put SM_STAT.REFUSED 1).isSet SM_STAT.REFUSED = true := isSet_put_one _ _ (by decide)
  dsimp only at hq
  generalize x.put SM_STAT.REFUSED 1 = y at *
  have hz : Frame (.ofRegs [.SM_STAT]) y (y.put SM_STAT.LAST_CODE code) := .put .refl
  have hzr : (y.put SM_STAT.LAST_CODE code).isSet SM_STAT.REFUSED = true := by
    rw [State.isSet, get_put_of_apart (by decide), ← State.isSet, hyr]
  have hzc : (y.put SM_STAT.LAST_CODE code).get SM_STAT.LAST_CODE = code := get_put_lt _ _ (by decide) hcode
  generalize y.put SM_STAT.LAST_CODE code = z at *
  have hu : Frame (.ofParts [.raising]) z (z.raise 373) := .raise .refl
  have hur : (z.raise 373).raising = z.raising ++ [373] := rfl
  generalize z.raise 373 = u at *
  have ht : Frame (.ofRegs [.SM_CMD]) u (u.setReg RegId.SM_CMD.at (withField (withField v 0 1 1) 0 1 0)) := .setReg .refl
  refine ⟨_, hq, ?_, ?_, ?_, ?_⟩
  · rw [ht.isSet, hu.isSet, hzr]
  · rw [ht.get, hu.get, hzc]
  · rw [ht.part .sm (by decide), hu.part .sm (by decide), hz.part .sm (by decide), hy.part .sm (by decide), hx.part .sm (by decide)]
  · rw [ht.part .raising (by decide), hur, hz.part .raising (by decide), hy.part .raising (by decide), hx.part .raising (by decide)]

/-! ### The bus (R344 to R347) -/

/-- The frame runs. -/
def smRuns (g : SmFrame) (s : State) : State := { s with sm := { s.sm with frame := some g } }

theorem smFrameStartS_eq {f : SmFrame} (hf : s.sm.frame = some f) (hwait : f.running = none) (hbus : s.busFree = true)
    (hfill : s.fillWaits = false) (hcd : s.cdDown = false) (hheld : ∀ h ∈ s.sm.held, h.frame = true)
    (hpins : ∀ w, s.sm.pinsAt = some w → w + 64 ≤ s.clock) (hsel : f.hwsel = true → s.selRested f.sel = true) :
    smFrameStartS s = (smRuns { f with running := some s.clock } (s.when f.hwsel (lowerSel f.sel))).emit
      (.smFrame { f with running := some s.clock } ((s.when f.hwsel (lowerSel f.sel)).waveOf { f with running := some s.clock })) := by
  have hall : s.sm.held.all (·.frame) = true := List.all_eq_true.mpr hheld
  have hat : s.sm.pinsAt.all (fun t => decide (t + 64 ≤ s.clock)) = true := by
    cases h : s.sm.pinsAt with
    | none => rfl
    | some w => exact decide_eq_true (hpins w h)
  have hrest : (!f.hwsel || s.selRested f.sel) = true := by
    cases h : f.hwsel with
    | false => rfl
    | true => rw [hsel h]; rfl
  have hcond : (f.running.isNone && s.busFree && !s.fillWaits && !s.cdDown && s.sm.held.all (·.frame) &&
        s.sm.pinsAt.all (fun t => decide (t + 64 ≤ s.clock)) && (!f.hwsel || s.selRested f.sel)) = true := by
    rw [hwait, hbus, hfill, hcd, hall, hat, hrest]
    rfl
  unfold smFrameStartS
  rw [hf]
  exact if_pos hcond

theorem frameStart_complete {f : SmFrame} (hcold : s.coldHeld = false) (hf : s.sm.frame = some f) (hwait : f.running = none) (hbus : s.busFree = true)
    (hfill : s.fillWaits = false) (hcd : s.cdDown = false) (hheld : ∀ h ∈ s.sm.held, h.frame = true)
    (hpins : ∀ w, s.sm.pinsAt = some w → w + 64 ≤ s.clock) (hsel : f.hwsel = true → s.selRested f.sel = true) :
    let g := { f with running := some s.clock }
    ∃ t, exec .smFrameStart s = .next t ∧ t.sm.frame = some g ∧ t.sm.low = (if f.hwsel then some f.sel else s.sm.low) ∧
      t.outs = s.outs ++ (if f.hwsel then [.smPins t.mselLevels] else []) ++ [.smFrame g (s.waveOf g)] ∧ Kept [.sm, .outs] s t := by
  refine ⟨_, act_next hcold _, ?_⟩
  rw [smFrameStartS_eq hf hwait hbus hfill hcd hheld hpins hsel]
  generalize ({ f with running := some s.clock } : SmFrame) = g
  have hx : Frame (.ofParts [.sm, .outs]) s (s.when f.hwsel (lowerSel f.sel)) := .ite (.lowerSel .refl) .refl
  have hxsm : (s.when f.hwsel (lowerSel f.sel)).sm = { s.sm with low := if f.hwsel then some f.sel else s.sm.low } := by
    unfold State.when
    split <;> rfl
  have hxo : (s.when f.hwsel (lowerSel f.sel)).outs = s.outs ++ (if f.hwsel then [.smPins (s.when f.hwsel (lowerSel f.sel)).mselLevels] else []) := by
    unfold State.when
    split
    · rfl
    · rw [List.append_nil]
  generalize s.when f.hwsel (lowerSel f.sel) = x at *
  rw [waveOf_of_frame hx _ (by rw [hxsm])]
  generalize s.waveOf g = wave
  have hy : Frame (.ofParts [.sm]) x (smRuns g x) := .withSm .refl
  have hysm : (smRuns g x).sm = { x.sm with frame := some g } := rfl
  generalize smRuns g x = y at *
  have ht : Frame (.ofParts [.outs]) y (y.emit (.smFrame g wave)) := .emit .refl
  have hto : (y.emit (.smFrame g wave)).outs = y.outs ++ [.smFrame g wave] := rfl
  generalize y.emit (.smFrame g wave) = t at *
  have htsm := (ht.part .sm (by decide)).trans hysm
  have hall : Frame (.ofParts [.sm, .outs]) s t := (hx.lift (by decide) hy).lift (by decide) ht
  have hlevels : t.mselLevels = x.mselLevels := mselLevels_congr (by rw [htsm]) (by rw [htsm]) (by rw [htsm]) (by rw [htsm])
  refine ⟨by rw [htsm], by rw [htsm, hxsm], ?_, hall.kept⟩
  rw [hlevels, hto, hy.part .outs (by decide), hxo]

/-! ### The end of a frame (R344, R350) -/

/-- The words of the buffer once a read has ended. -/
def readIn (f : SmFrame) (rx : List Byte) (s : State) : State :=
  s.when f.read (forBelow ((f.len + 3) / 4) fun i s =>
    s.setReg (RegId.SM_BUF.at i) (bufWord (s.reg (RegId.SM_BUF.at i)) rx f.len i))

theorem frame_readIn (f : SmFrame) (rx : List Byte) (s : State) : Frame (.ofRegs [.SM_BUF]) s (readIn f rx s) :=
  .ite (.forBelow (fun _ _ h => .setReg h) .refl) .refl

theorem bufferWords (rx : List Byte) (len n : ℕ) (s : State) (hn : n ≤ 128) {i : ℕ} (hi : i < 128) :
    (forBelow n (fun i s => s.setReg (RegId.SM_BUF.at i) (bufWord (s.reg (RegId.SM_BUF.at i)) rx len i)) s).reg (RegId.SM_BUF.at i) =
      if i < n then bufWord (s.reg (RegId.SM_BUF.at i)) rx len i else s.reg (RegId.SM_BUF.at i) := by
  induction n with
  | zero => rfl
  | succ n ih =>
    rw [forBelow_succ, State.reg_setReg]
    by_cases h : i = n
    · subst h
      rw [if_pos rfl, ih (by omega), if_neg (by omega), if_pos (by omega)]
    · rw [if_neg (RegId.at_ne_self .SM_BUF i 0 n 0 hi (by decide) (show n < 128 by omega) (by decide) (by simp [h])), ih (by omega)]
      simp only [show i < n + 1 ↔ i < n by omega]

theorem reg_readIn (f : SmFrame) (rx : List Byte) (s : State) (hlen : f.len ≤ 512) {i : ℕ} (hi : i < 128) :
    (readIn f rx s).reg (RegId.SM_BUF.at i) =
      if f.read = true ∧ 4 * i < f.len then bufWord (s.reg (RegId.SM_BUF.at i)) rx f.len i else s.reg (RegId.SM_BUF.at i) := by
  unfold readIn State.when
  split
  · next h =>
    rw [bufferWords _ _ _ _ (by omega) hi]
    simp only [h, true_and, show i < (f.len + 3) / 4 ↔ 4 * i < f.len by omega]
  · next h => simp [h]

theorem takeSmCfg_spec (s : State) : (takeSmCfg s).sm = { s.sm with cfg := s.reg RegId.SM_CFG.at } ∧ Frame (.ofParts [.sm, .outs]) s (takeSmCfg s) := by
  refine ⟨?_, .takeSmCfg .refl⟩
  unfold takeSmCfg State.when
  dsimp only
  split <;> split <;> rfl

/-- The port once a frame has ended, before the fills follow the configuration. -/
def smClosed (edge : ℕ) (s : State) : State :=
  heldEnd false edge (takeSmCfg ({ s with sm := { s.sm with frame := none } }.put SM_STAT.BUSY 0))

theorem smClosed_spec (edge : ℕ) (s : State) : (smClosed edge s).sm.frame = none ∧ (smClosed edge s).sm.low = s.sm.low ∧
    (smClosed edge s).sm.cfg = s.reg RegId.SM_CFG.at ∧ (smClosed edge s).isSet SM_STAT.BUSY = false ∧
    Frame (.join [.ofParts [.sm, .outs], .ofRegs [.SM_STAT]]) s (smClosed edge s) := by
  unfold smClosed
  have hx : Frame (.ofParts [.sm]) s { s with sm := { s.sm with frame := none } } := .withSm .refl
  have hxsm : ({ s with sm := { s.sm with frame := none } } : State).sm = { s.sm with frame := none } := rfl
  generalize ({ s with sm := { s.sm with frame := none } } : State) = x at *
  have hy : Frame (.ofRegs [.SM_STAT]) x (x.put SM_STAT.BUSY 0) := .put .refl
  have hyb : (x.put SM_STAT.BUSY 0).isSet SM_STAT.BUSY = false := isSet_put_zero _ _ (by decide)
  generalize x.put SM_STAT.BUSY 0 = y at *
  obtain ⟨hzsm, hz⟩ := takeSmCfg_spec y
  generalize takeSmCfg y = z at *
  obtain ⟨hlow, hframe, hcfg, ht⟩ := heldEnd_spec false edge z
  have hysm := (hy.part .sm (by decide)).trans hxsm
  have hsm : z.sm = { s.sm with frame := none, cfg := s.reg RegId.SM_CFG.at } := by
    rw [hzsm, hysm, hy.reg .SM_CFG (by decide), hx.reg .SM_CFG (by decide)]
  refine ⟨by rw [hframe, hsm], by rw [hlow, hsm], by rw [hcfg, hsm], by rw [ht.isSet, hz.isSet, hyb],
    (((hx.mono (by decide)).lift (by decide) hy).lift (by decide) hz).lift (by decide) ht⟩

theorem xipSet_of_frame {w : Scope} (h : Frame w s t) (hcfg : t.sm.cfg = s.reg RegId.SM_CFG.at) (hx : w.hasReg .SM_XIP = false := by decide) :
    t.xipSet = s.xipSetNext := by
  have hget (f : Fld) (hf : f.reg = .SM_XIP) : t.get f = s.get f := h.get (hf := by rw [hf]; exact hx)
  have hn : Frame (.ofParts [.sm]) s { s with sm := { s.sm with cfg := s.reg RegId.SM_CFG.at } } := .withSm .refl
  have hncfg : ({ s with sm := { s.sm with cfg := s.reg RegId.SM_CFG.at } } : State).sm.cfg = s.reg RegId.SM_CFG.at := rfl
  unfold State.xipSetNext
  generalize ({ s with sm := { s.sm with cfg := s.reg RegId.SM_CFG.at } } : State) = n at *
  rw [State.xipSet, State.xipSet, hcfg, hncfg, State.isSet, State.isSet, hget _ rfl, hget _ rfl, hn.get, hn.get]

/-- The report of a frame's end. -/
def smReported (s : State) : State := ((s.put SM_STAT.DONE 1).bump SM_CNT.FRAMES).raise 372

theorem smReported_spec (s : State) : (smReported s).isSet SM_STAT.DONE = true ∧
    (∀ f, Apart SM_STAT.DONE f → Apart SM_CNT.FRAMES f → (smReported s).get f = s.get f) ∧
    (smReported s).get SM_CNT.FRAMES = (s.get SM_CNT.FRAMES + 1) % 65536 ∧ (smReported s).raising = s.raising ++ [372] ∧
    Frame (.join [.ofParts [.raising], .ofRegs [.SM_STAT, .SM_CNT]]) s (smReported s) := by
  unfold smReported
  have hx : Frame (.ofRegs [.SM_STAT]) s (s.put SM_STAT.DONE 1) := .put .refl
  have hdone : (s.put SM_STAT.DONE 1).isSet SM_STAT.DONE = true := isSet_put_one _ _ (by decide)
  have hxf (f : Fld) (hf : Apart SM_STAT.DONE f) : (s.put SM_STAT.DONE 1).get f = s.get f := get_put_of_apart hf _ _ _ _ _ _
  generalize s.put SM_STAT.DONE 1 = x at *
  have hy : Frame (.ofRegs [.SM_CNT]) x (x.bump SM_CNT.FRAMES) := .bump .refl
  have hcnt : (x.bump SM_CNT.FRAMES).get SM_CNT.FRAMES = (s.get SM_CNT.FRAMES + 1) % 65536 := by
    rw [get_bump _ _ _ (by decide), hx.get]
    rfl
  have hyf (f : Fld) (hf : Apart SM_CNT.FRAMES f) : (x.bump SM_CNT.FRAMES).get f = x.get f := get_put_of_apart hf _ _ _ _ _ _
  generalize x.bump SM_CNT.FRAMES = y at *
  have ht : Frame (.ofParts [.raising]) y (y.raise 372) := .raise .refl
  have hraise : (y.raise 372).raising = y.raising ++ [372] := rfl
  generalize y.raise 372 = t at *
  refine ⟨by rw [ht.isSet, hy.isSet, hdone], fun f hd hf => ?_, by rw [ht.get, hcnt], ?_, ((hx.mono (by decide)).lift (by decide) hy).lift (by decide) ht⟩
  · rw [State.get_congr (ht.part .regs (by decide)), hyf f hf, hxf f hd]
  · rw [hraise, hy.part .raising (by decide), hx.part .raising (by decide)]

theorem smDoneS_eq {rx : List Byte} {f : SmFrame} {start : ℕ} (hf : s.sm.frame = some f) (hrun : f.running = some start)
    (hdue : start + s.frameTicks f ≤ s.clock) (hcd : s.cdDown = false) :
    ∃ edge, smDoneS rx s = smReported (fillsFollow (smClosed edge (raiseSel (readIn f rx s)))) := by
  have hcond : (decide (start + s.frameTicks f ≤ s.clock) && !s.cdDown) = true := by rw [decide_eq_true hdue, hcd]; rfl
  refine ⟨start + (readIn f rx s).lastEdge f, ?_⟩
  unfold smDoneS
  rw [hf]
  dsimp only
  rw [hrun]
  exact if_pos hcond

theorem frameDone_complete {rx : List Byte} {f : SmFrame} {start : ℕ} (hcold : s.coldHeld = false) (hf : s.sm.frame = some f)
    (hrun : f.running = some start) (hdue : start + s.frameTicks f ≤ s.clock) (hcd : s.cdDown = false) (hlen : f.len ≤ 512)
    (hfills : (s.xip.misses = [] ∧ s.xip.filling = none) ∨ s.xipSetNext = true) :
    ∃ t, exec (.smDone rx) s = .next t ∧ t.sm.frame = none ∧ t.isSet SM_STAT.BUSY = false ∧ t.isSet SM_STAT.DONE = true ∧
      t.get SM_CNT.FRAMES = (s.get SM_CNT.FRAMES + 1) % 65536 ∧ t.raising = s.raising ++ [372] ∧
      t.sm.cfg = s.reg RegId.SM_CFG.at ∧ t.sm.low = none ∧
      (∀ i, i < 128 → t.reg (RegId.SM_BUF.at i) =
        if f.read = true ∧ 4 * i < f.len then bufWord (s.reg (RegId.SM_BUF.at i)) rx f.len i else s.reg (RegId.SM_BUF.at i)) ∧
      Kept [.regs, .sm, .raising, .outs] s t := by
  obtain ⟨edge, hrun⟩ := smDoneS_eq (rx := rx) hf hrun hdue hcd
  refine ⟨_, act_next hcold _, ?_⟩
  rw [hrun]
  have hx := frame_readIn f rx s
  have hbuf {i : ℕ} (hi : i < 128) := reg_readIn f rx s hlen hi
  generalize readIn f rx s = x at *
  obtain ⟨hlow, hy⟩ := raiseSel_spec x
  generalize raiseSel x = y at *
  obtain ⟨hzframe, hzlow, hzcfg, hzbusy, hz⟩ := smClosed_spec edge y
  generalize smClosed edge y = z at *
  have hsz : Frame (.join [.ofParts [.sm, .outs], .ofRegs [.SM_STAT, .SM_BUF]]) s z :=
    ((hx.mono (by decide)).lift (by decide) hy).lift (by decide) hz
  rw [hy.reg .SM_CFG (by decide), hx.reg .SM_CFG (by decide)] at hzcfg
  have hfollow : fillsFollow z = z := by
    refine if_pos ?_
    obtain ⟨hmiss, hfill⟩ | hset := hfills
    · rw [hsz.part .xip (by decide), hmiss, hfill]
      exact Bool.or_true _
    · rw [xipSet_of_frame hsz hzcfg, hset]
      rfl
  rw [hfollow]
  obtain ⟨hdone, hkeep, hcnt, hraise, ht⟩ := smReported_spec z
  generalize smReported z = t at *
  have htsm := ht.part .sm (by decide)
  refine ⟨by rw [htsm, hzframe], ?_, hdone, by rw [hcnt, hsz.get], by rw [hraise, hsz.part .raising (by decide)], by rw [htsm, hzcfg],
    by rw [htsm, hzlow, hlow], fun i hi => ?_, (hsz.mono (w := .join [.ofParts [.sm, .outs, .raising], .ofRegs [.SM_STAT, .SM_BUF, .SM_CNT]])
      (by decide)).lift (by decide) ht |>.kept⟩
  · rw [State.isSet, hkeep _ (by decide) (by decide), ← State.isSet, hzbusy]
  · rw [ht.reg .SM_BUF (by decide), hz.reg .SM_BUF (by decide), hy.reg .SM_BUF (by decide), hbuf hi]

/-! ### Fills that fail as the port changes (R348) -/

/-- Lines whose fills fail, of which there is one at least. -/
theorem failLines_spec {lines : List ℕ} (hl : lines ≠ []) (s : State) : (forList lines (failLine handlerFault) s).isSet SM_STAT.FILL_FAIL = true ∧
    373 ∈ (forList lines (failLine handlerFault) s).raising := by
  obtain ⟨line, rest, rfl⟩ := List.exists_cons_of_ne_nil hl
  rw [forList_cons]
  refine List.foldlRecOn (motive := fun t : State => t.isSet SM_STAT.FILL_FAIL = true ∧ 373 ∈ t.raising) rest _ ?_ fun t _ l _ => ?_
  · obtain ⟨hfail, -, -, hraise, -⟩ := failLine_spec line s
    exact ⟨hfail, hraise⟩
  · obtain ⟨hfail, -, -, hraise, -⟩ := failLine_spec l t
    exact ⟨hfail, hraise⟩

theorem frame_failLines (lines : List ℕ) (s : State) :
    Frame (.join [.ofParts [.raising], .ofRegs [.SM_STAT, .SM_CNT, .XIP_CACHE], Frame.Scope.handlerFault]) s
      (forList lines (failLine handlerFault) s) := by
  refine List.foldlRecOn (motive := Frame _ s) lines _ .refl fun t ht l _ => ?_
  obtain ⟨-, -, -, -, -, h⟩ := failLine_spec l t
  exact ht.trans h

/-- A fill that runs stops (R346, R348). -/
def fillStopped (line : ℕ) (s : State) : State :=
  let (edge, t) := smStop (s.fillFrame line) s.sm.fillAt s
  heldEnd true edge { t with xip := { t.xip with filling := none } }

theorem raiseLater_spec (at_ : ℕ) (s : State) : (raiseLater at_ s).sm.frame = s.sm.frame ∧ (raiseLater at_ s).sm.cfg = s.sm.cfg ∧
    Frame (.ofParts [.sm]) s (raiseLater at_ s) := by
  unfold raiseLater
  split
  · exact ⟨rfl, rfl, .withSm .refl⟩
  · exact ⟨rfl, rfl, .refl⟩

theorem fillStopped_spec (line : ℕ) (s : State) : (fillStopped line s).xip.filling = none ∧ (fillStopped line s).sm.frame = s.sm.frame ∧
    (fillStopped line s).sm.cfg = s.sm.cfg ∧ Frame (.ofParts [.sm, .outs, .xip]) s (fillStopped line s) := by
  rw [fillStopped, smStop]
  dsimp only
  generalize s.byteStop (s.fillFrame line) s.sm.fillAt = edge
  obtain ⟨hframe, hcfg, hx⟩ := raiseLater_spec (edge + 16 * s.get SM_TIME.HOLD) s
  generalize raiseLater _ s = x at *
  have hy : Frame (.ofParts [.xip]) x { x with xip := { x.xip with filling := none } } := .withXip .refl
  have hyf : ({ x with xip := { x.xip with filling := none } } : State).xip.filling = none := rfl
  generalize ({ x with xip := { x.xip with filling := none } } : State) = y at *
  obtain ⟨-, htframe, htcfg, ht⟩ := heldEnd_spec true edge y
  refine ⟨?_, ?_, ?_, ((hx.mono (by decide)).lift (by decide) hy).lift (by decide) ht⟩
  · rw [ht.part .xip (by decide), hyf]
  · rw [htframe, hy.part .sm (by decide), hframe]
  · rw [htcfg, hy.part .sm (by decide), hcfg]

/-- The port and the cache once a fill that runs, if there is one, has stopped. -/
def fillsStopped (s : State) : State := s.xip.filling.elim s fun line => fillStopped line s

theorem fillsStopped_spec (s : State) : (fillsStopped s).xip.filling = none ∧ (fillsStopped s).sm.frame = s.sm.frame ∧
    (fillsStopped s).sm.cfg = s.sm.cfg ∧ Frame (.ofParts [.sm, .outs, .xip]) s (fillsStopped s) := by
  unfold fillsStopped
  cases h : s.xip.filling with
  | none => exact ⟨h, rfl, rfl, .refl⟩
  | some line => exact fillStopped_spec line s

theorem failFills_eq (s : State) : failFills handlerFault s =
    forList (s.xip.filling.toList ++ s.xip.misses.map (·.1)) (failLine handlerFault)
      { fillsStopped s with xip := { (fillsStopped s).xip with misses := [], drop := false } } := rfl

theorem failFills_spec (hmiss : s.xip.misses ≠ []) : (failFills handlerFault s).isSet SM_STAT.FILL_FAIL = true ∧
    373 ∈ (failFills handlerFault s).raising ∧ (failFills handlerFault s).xip.misses = [] ∧ (failFills handlerFault s).xip.filling = none ∧
    (failFills handlerFault s).sm.frame = s.sm.frame ∧ (failFills handlerFault s).sm.cfg = s.sm.cfg := by
  rw [failFills_eq]
  obtain ⟨hfill, hframe, hcfg, hx⟩ := fillsStopped_spec s
  generalize fillsStopped s = x at *
  have hy : Frame (.ofParts [.xip]) x { x with xip := { x.xip with misses := [], drop := false } } := .withXip .refl
  have hyx : ({ x with xip := { x.xip with misses := [], drop := false } } : State).xip = { x.xip with misses := [], drop := false } := rfl
  generalize ({ x with xip := { x.xip with misses := [], drop := false } } : State) = y at *
  obtain ⟨hfail, hraise⟩ := failLines_spec (lines := s.xip.filling.toList ++ s.xip.misses.map (·.1)) (by simp [hmiss]) y
  have ht := frame_failLines (s.xip.filling.toList ++ s.xip.misses.map (·.1)) y
  generalize forList _ _ y = t at *
  have htx := (ht.part .xip (by decide)).trans hyx
  refine ⟨hfail, hraise, by rw [htx], by rw [htx, hfill], ?_, ?_⟩
  · rw [ht.part .sm (by decide), hy.part .sm (by decide), hframe]
  · rw [ht.part .sm (by decide), hy.part .sm (by decide), hcfg]

theorem frameDone_fails {rx : List Byte} {f : SmFrame} {start : ℕ} (hcold : s.coldHeld = false) (hf : s.sm.frame = some f)
    (hrun : f.running = some start) (hdue : start + s.frameTicks f ≤ s.clock) (hcd : s.cdDown = false) (hmiss : s.xip.misses ≠ [])
    (hset : s.xipSetNext = false) :
    ∃ t, exec (.smDone rx) s = .next t ∧ t.sm.frame = none ∧ t.isSet SM_STAT.DONE = true ∧ t.sm.cfg = s.reg RegId.SM_CFG.at ∧
      t.xip.misses = [] ∧ t.xip.filling = none ∧ t.isSet SM_STAT.FILL_FAIL = true ∧ 372 ∈ t.raising ∧ 373 ∈ t.raising := by
  obtain ⟨edge, hrun⟩ := smDoneS_eq (rx := rx) hf hrun hdue hcd
  refine ⟨_, act_next hcold _, ?_⟩
  rw [hrun]
  have hx := frame_readIn f rx s
  generalize readIn f rx s = x at *
  obtain ⟨hlow, hy⟩ := raiseSel_spec x
  generalize raiseSel x = y at *
  obtain ⟨hzframe, -, hzcfg, -, hz⟩ := smClosed_spec edge y
  generalize smClosed edge y = z at *
  have hsz : Frame (.join [.ofParts [.sm, .outs], .ofRegs [.SM_STAT, .SM_BUF]]) s z :=
    ((hx.mono (by decide)).lift (by decide) hy).lift (by decide) hz
  rw [hy.reg .SM_CFG (by decide), hx.reg .SM_CFG (by decide)] at hzcfg
  have hzmiss : z.xip.misses ≠ [] := by rw [hsz.part .xip (by decide)]; exact hmiss
  have hfollow : fillsFollow z = failFills handlerFault z := by
    refine if_neg ?_
    rw [xipSet_of_frame hsz hzcfg, hset]
    simp [hzmiss]
  rw [hfollow]
  obtain ⟨hfail, hraise, hmisses, hfill, hframe, hcfg⟩ := failFills_spec hzmiss
  generalize failFills handlerFault z = u at *
  obtain ⟨hdone, hkeep, -, htraise, ht⟩ := smReported_spec u
  generalize smReported u = t at *
  refine ⟨?_, hdone, ?_, ?_, ?_, ?_, ?_, ?_⟩
  · rw [ht.part .sm (by decide), hframe, hzframe]
  · rw [ht.part .sm (by decide), hcfg, hzcfg]
  · rw [ht.part .xip (by decide), hmisses]
  · rw [ht.part .xip (by decide), hfill]
  · rw [State.isSet, hkeep _ (by decide) (by decide), ← State.isSet, hfail]
  · rw [htraise]
    exact List.mem_append_right _ (List.mem_singleton_self _)
  · rw [htraise]
    exact List.mem_append_left _ hraise

/-! ### The select levels (R345) -/

theorem plain_smGpio : Plain .SM_GPIO := ⟨by decide, by decide, by decide, by decide⟩

/-- A write of the levels as it would be held (R345). -/
def heldPins (o : ℕ) (v : Word) (s : State) : HeldPins where
  v := fieldOf v 0 4
  fill := s.xip.filling.isSome
  frame := (s.sm.frame.any fun f => f.o == o || f.running.isSome) || s.sm.held.any (·.frame)

theorem hook_levels {o : ℕ} {m old v : Word} (hframe : s.sm.frame = none) (hbus : s.busFree = true) (hheld : s.sm.held = []) :
    writeHook o ⟨.SM_GPIO, 0, 0⟩ m old v s = (v, setPins (fieldOf v 0 4) s) := by
  have hfill : s.xip.filling = none := by
    simp only [State.busFree, Bool.and_eq_true, Option.isNone_iff_eq_none] at hbus
    exact hbus.1.2
  unfold writeHook
  dsimp only
  rw [hookSmGpio, hframe, hbus, hheld, hfill]
  refine congrArg (v, ·) (if_pos ?_)
  simp [HeldPins.free]

theorem hook_held {o : ℕ} {m old v : Word} (h : s.busFree = false ∨ s.sm.held ≠ []) :
    writeHook o ⟨.SM_GPIO, 0, 0⟩ m old v s = (v, { s with sm := { s.sm with held := s.sm.held ++ [heldPins o v s] } }) := by
  unfold writeHook
  dsimp only
  rw [hookSmGpio]
  refine congrArg (v, ·) (if_neg ?_)
  obtain h | h := h <;> simp [h]

theorem setPins_spec (n : ℕ) (s : State) : (setPins n s).sm = { s.sm with pins := n % 16, pinsAt := some s.clock } ∧
    (setPins n s).outs = s.outs ++ [.smPins (setPins n s).mselLevels] ∧ Frame (.ofParts [.sm, .outs]) s (setPins n s) :=
  ⟨rfl, rfl, .setPins .refl⟩

theorem get_selOut (v : Word) (y : State) : (y.setReg RegId.SM_GPIO.at v).get SM_GPIO.SEL_OUT = fieldOf v 0 4 := get_setReg SM_GPIO.SEL_OUT y 0 0 v

theorem levels_complete {o : Origin} {v : Word} (h : s.writes o .SM_GPIO 0 0 v = true) (hframe : s.sm.frame = none) (hbus : s.busFree = true)
    (hheld : s.sm.held = []) :
    ∃ t, exec (.smGpioWrite o v) s = .next t ∧ t.get SM_GPIO.SEL_OUT = fieldOf v 0 4 ∧ t.sm.pins = fieldOf v 0 4 ∧
      t.sm.held = [] ∧ t.outs = s.outs ++ [.smPins t.mselLevels] ∧ RegsKept [RegId.SM_GPIO.at] s t ∧
      Kept [.regs, .sm, .outs, .tansyQ] s t := by
  obtain ⟨q, hq⟩ := busWrite_hook h plain_smGpio
  have hx : Frame (.ofParts [.tansyQ]) s { s with tansyQ := q } := .withTansyQ .refl
  have hbusx : ({ s with tansyQ := q } : State).busFree = true := hbus
  generalize ({ s with tansyQ := q } : State) = x at *
  have hxsm := hx.part .sm (by decide)
  have hafter (old : Word) (u : State) : afterWrite ⟨.SM_GPIO, 0, 0⟩ old u = u := rfl
  rw [hook_levels hframe hbus hheld, hook_levels (by rw [hxsm, hframe]) hbusx (by rw [hxsm, hheld]), hafter] at hq
  obtain ⟨hysm, hyo, hy⟩ := setPins_spec (fieldOf v 0 4) x
  dsimp only at hq
  generalize setPins (fieldOf v 0 4) x = y at *
  have ht : Frame (.ofRegs [.SM_GPIO]) y (y.setReg RegId.SM_GPIO.at v) := .setReg .refl
  have hget := get_selOut v y
  generalize y.setReg RegId.SM_GPIO.at v = t at *
  have hall : Frame (.join [.ofParts [.tansyQ, .sm, .outs], .ofRegs [.SM_GPIO]]) s t := ((hx.mono (by decide)).lift (by decide) hy).lift (by decide) ht
  have htsm := (ht.part .sm (by decide)).trans hysm
  have hlt : fieldOf v 0 4 < 16 := Nat.mod_lt _ (by decide)
  have hlevels : t.mselLevels = y.mselLevels := by rw [State.mselLevels, ht.part .sm (by decide), ← State.mselLevels]
  refine ⟨_, hq, hget, by rw [htsm, Nat.mod_eq_of_lt hlt], by rw [htsm, hxsm, hheld], ?_, hall.regsKept [.SM_GPIO], hall.kept⟩
  rw [hlevels, ht.part .outs (by decide), hyo, hx.part .outs (by decide)]

theorem levelsHeld_complete {o : Origin} {v : Word} (h : s.writes o .SM_GPIO 0 0 v = true) (hwait : s.busFree = false ∨ s.sm.held ≠ []) :
    ∃ t, exec (.smGpioWrite o v) s = .next t ∧ t.get SM_GPIO.SEL_OUT = fieldOf v 0 4 ∧ t.sm.pins = s.sm.pins ∧
      t.sm.held = s.sm.held ++ [heldPins o.toNat v s] ∧ t.outs = s.outs := by
  obtain ⟨q, hq⟩ := busWrite_hook h plain_smGpio
  have hx : Frame (.ofParts [.tansyQ]) s { s with tansyQ := q } := .withTansyQ .refl
  have hwaitx : ({ s with tansyQ := q } : State).busFree = false ∨ ({ s with tansyQ := q } : State).sm.held ≠ [] := hwait
  have hpins : heldPins o.toNat v { s with tansyQ := q } = heldPins o.toNat v s := rfl
  generalize ({ s with tansyQ := q } : State) = x at *
  have hxsm := hx.part .sm (by decide)
  have hafter (old : Word) (u : State) : afterWrite ⟨.SM_GPIO, 0, 0⟩ old u = u := rfl
  rw [hook_held hwait, hook_held hwaitx, hafter, hpins] at hq
  dsimp only at hq
  generalize heldPins o.toNat v s = p at *
  have hy : Frame (.ofParts [.sm]) x { x with sm := { x.sm with held := x.sm.held ++ [p] } } := .withSm .refl
  have hysm : ({ x with sm := { x.sm with held := x.sm.held ++ [p] } } : State).sm = { x.sm with held := x.sm.held ++ [p] } := rfl
  generalize ({ x with sm := { x.sm with held := x.sm.held ++ [p] } } : State) = y at *
  have ht : Frame (.ofRegs [.SM_GPIO]) y (y.setReg RegId.SM_GPIO.at v) := .setReg .refl
  have hget := get_selOut v y
  generalize y.setReg RegId.SM_GPIO.at v = t at *
  have htsm := (ht.part .sm (by decide)).trans hysm
  refine ⟨_, hq, hget, by rw [htsm, hxsm], by rw [htsm, hxsm], ?_⟩
  rw [ht.part .outs (by decide), hy.part .outs (by decide), hx.part .outs (by decide)]

/-- Settles O41, by the port's turns: a start, its refusal, a frame's begin and its two ends, and the two ways of the select levels. -/
theorem serialMasterCompletes : Obligations.SerialMasterCompletes := by
  refine ⟨?_, ?_, ?_, ?_, ?_, ?_, ?_⟩
  · intro o v s h hbusy hok
    exact start_complete h hbusy hok
  · intro o v code s h hbusy hno
    exact refusal_complete h hbusy hno
  · intro f s hcold hf hwait hbus hfill hcd hheld hpins hsel
    exact frameStart_complete hcold hf hwait hbus hfill hcd hheld hpins hsel
  · intro rx f start s hcold hf hrun hdue hcd hlen hfills
    exact frameDone_complete hcold hf hrun hdue hcd hlen hfills
  · intro rx f start s hcold hf hrun hdue hcd hmiss hset
    exact frameDone_fails hcold hf hrun hdue hcd hmiss hset
  · intro o v s h hframe hbus hheld
    exact levels_complete h hframe hbus hheld
  · intro o v s h hwait
    exact levelsHeld_complete h hwait

end

end Sys2Proof.Proofs

/-! ## Service, faults and load of the engines (R195, R196, R207, R209, R213) -/

namespace Sys2Proof.Proofs

set_option Elab.async false

open Sys2Proof Sys2Proof.Machine Sys2Proof.Claims

section

variable {s t u : State} {e q n code : ℕ} {i : Item}

/-! ### Raises that stand -/

/-- No raise is taken back. -/
def Tells (s t : State) : Prop := s.raising ⊆ t.raising

namespace Tells

theorem refl : Tells s s := List.Subset.refl _
theorem trans (h : Tells s t) (k : Tells t u) : Tells s u := List.Subset.trans h k

theorem frame {w : Scope} (h : Tells s t) (hf : Frame w t u) (hw : w.hasPart .raising = false := by decide) : Tells s u := by
  rw [Tells, hf.part .raising hw]
  exact h

theorem raise {k : ℕ} (h : Tells s t) : Tells s (t.raise k) := List.subset_append_of_subset_left _ h

theorem ite {c : Prop} [Decidable c] (h : Tells s t) (k : Tells s u) : Tells s (if c then t else u) := by
  split
  · exact h
  · exact k

theorem forList {α : Type} {l : List α} {f : α → State → State} (hf : ∀ x {t}, Tells s t → Tells s (f x t)) (h : Tells s t) :
    Tells s (forList l f t) := List.foldlRecOn l _ h fun _ ht x _ => hf x ht

theorem checkStarve (h : Tells s t) : Tells s (checkStarve q t) :=
  ite (raise (h.frame (w := .join [.ofParts [.queues], .ofRegs [.QD_STAT]]) (.put (.setQueue .refl)))) h

theorem checkStarveAll (h : Tells s t) : Tells s (checkStarveAll t) := forList (fun _ _ h => checkStarve h) h

theorem setLevel {l : ℕ} (h : Tells s t) : Tells s (setLevel l t) := by
  unfold Machine.setLevel
  dsimp only
  refine ite h (frame (w := Frame.Scope.log) (raise (frame (w := .join [.ofParts [.wide], .ofRegs [.SL_STAT]]) h ?_)) (.log .refl))
  split
  · exact .setWide (.put (.put (.put .refl)))
  · exact .setWide (.put (.put .refl))

theorem refreshLevel (h : Tells s t) : Tells s (refreshLevel t) := by
  unfold Machine.refreshLevel
  refine ite h (ite (setLevel h) (ite (setLevel h) (ite (setLevel ?_) (setLevel h))))
  exact ite (setLevel h) h

theorem faultReport {k : ℕ} (h : Tells s t) : Tells s (faultReport k t) :=
  refreshLevel (frame (w := Frame.Scope.logEvent) (raise (frame (w := .ofRegs [.FAULT_SUM, .FAULT_CNT]) h (.bump (.put (.put .refl))))) (.logEvent .refl))

end Tells

/-! ### A handler that has ended (R195) -/

theorem SMap.filter_place {α : Type} (m : SMap α) (k : ℕ) (v : α) (h : ∀ x ∈ m, x.1 ≠ k) :
    (SMap.place k v m).filter (fun x => x.1 ≠ k) = m := by
  induction m with
  | nil => simp [SMap.place]
  | cons x m ih =>
    obtain ⟨hx, hm⟩ := List.forall_mem_cons.mp h
    unfold SMap.place
    split
    · simpa [hx] using fun a b hab => hm (a, b) hab
    · rw [List.filter_cons_of_pos (by simpa using hx), ih hm]

theorem SMap.set_set {α : Type} [DecidableEq α] (d : ℕ → α) (m : SMap α) (k : ℕ) (v : α) :
    SMap.set d (SMap.set d m k v) k v = SMap.set d m k v := by
  have hf (x) (hx : x ∈ m.filter fun x => x.1 ≠ k) : x.1 ≠ k := by simpa using (List.mem_filter.mp hx).2
  unfold SMap.set
  by_cases hv : v = d k
  · rw [if_pos hv, if_pos hv, List.filter_filter]
    simp
  · rw [if_neg hv, if_neg hv, SMap.filter_place _ _ _ hf]

/-- The engines once one of them is free: it is written last. -/
theorem engines_engineFree (e : ℕ) (s : State) : ∃ m z, (engineFree e s).engines = SMap.set (fun _ => {}) m e z := by
  unfold engineFree
  dsimp only
  generalize State.put _ ENG_PC.PC 0 e = x
  generalize hst : (if x.engOn e = true then esIdle else esOff) = st
  have hf : Frame Frame.Scope.checkStarveAll (setEngState e st x) (checkStarveAll (setEngState e st x)) := .checkStarveAll .refl
  obtain ⟨w, z, heq⟩ : ∃ w z, setEngState e st x = ((x.setWide (aENG_BUSY e) w).setEng e z).put ENG_STAT.STATE st e := ⟨_, _, rfl⟩
  refine ⟨(x.setWide (aENG_BUSY e) w).engines, z, ?_⟩
  rw [hf.part .engines (by decide), heq]
  rfl

theorem cleared_engineFree (e : ℕ) (s : State) : ((engineFree e s).eng e).cleared = (engineFree e s).eng e := by
  unfold engineFree
  rw [checkStarveAll_eng]
  apply setEngState_cleared
  rw [State.eng_put_keep, State.eng_setEng, if_pos rfl, cleared_cleared]

/-- An engine that is free keeps no lines. -/
theorem dropLines_engineFree (e : ℕ) (s : State) : dropLines e (engineFree e s) = engineFree e s := by
  obtain ⟨m, z, hm⟩ := engines_engineFree e s
  have hclear := cleared_engineFree e s
  generalize engineFree e s = x at *
  have hwait : (x.eng e).wait = none := by rw [← hclear]; rfl
  have hlines : { x.eng e with lines := [] } = x.eng e := by
    rw [← hclear]
    rfl
  have hz : x.eng e = z := by rw [State.eng, hm, SMap.get_set_same]
  rw [dropLines_spec (fun off load => by simp [hwait]), hlines, State.setEng, hz, hm, SMap.set_set, ← hm]

theorem dropLines_handlerFault (hheld : (s.eng e).held = some (q, n)) : dropLines e (handlerFault e code s) = handlerFault e code s := by
  unfold handlerFault
  rw [hheld]
  exact dropLines_engineFree ..

theorem engOn_of_frame {w : Scope} (h : Frame w s t) (hr : w.hasReg .ENG_CFG = false := by decide) (hp : w.hasPart .parBad = false := by decide) :
    t.engOn e = s.engOn e := by
  have hfrozen (a : ℕ) : t.frozen a = s.frozen a := by
    rw [State.frozen, show t.parBad = s.parBad from h.part .parBad hp, ← State.frozen]
  rw [State.engOn, State.engOn, h.isSet (hf := hr), hfrozen]

theorem engState_engineFree (e : ℕ) (s : State) : (engineFree e s).engState e = if s.engOn e then esIdle else esOff := by
  unfold engineFree
  have hx : Frame (.join [.ofParts [.queues, .engines], .ofRegs [.ENG_PC]]) s
      (((match (s.eng e).held with | some (q, _) => queueOpens q s | none => s).setEng e
        ((match (s.eng e).held with | some (q, _) => queueOpens q s | none => s).eng e).cleared).put ENG_PC.PC 0 e) := by
    refine .put (.setEng ?_)
    split
    · exact .queueOpens .refl
    · exact .refl
  dsimp only
  generalize State.put _ ENG_PC.PC 0 e = x at *
  rw [engOn_of_frame hx]
  obtain ⟨-, hst, -⟩ := setEngState_spec e (if s.engOn e = true then esIdle else esOff) x
  generalize setEngState e _ x = y at *
  have hy : Frame Frame.Scope.checkStarveAll y (checkStarveAll y) := .checkStarveAll .refl
  rw [State.engState, hy.get, ← State.engState, hst]
  split <;> rfl

/-! ### The watchdog (R195, R204 to R206) -/

theorem item_returnItem {f : Item → Item} (hf : ∀ j, (f j).seq = j.seq) (hi : s.item q n = some i) :
    (returnItem q n f s).item q n = some (f { i with st := .waiting, since := s.clock, eligAt := s.clock }) := by
  have hhead := head_returnItem hi f
  have hseq : i.seq = n := by simpa using List.find?_some hi
  rw [State.item]
  cases h : ((returnItem q n f s).queue q).items with
  | nil => simp [h] at hhead
  | cons j rest =>
    rw [h, List.head?_cons, Option.some.injEq] at hhead
    rw [List.find?_cons_of_pos (by simp [hhead, hf, hseq]), hhead]

/-- The way to the end of a fault keeps what says whether an engine is in service. -/
theorem frame_faultSeen (e q code : ℕ) (s : State) :
    Frame (.join [.ofParts [.raising], .ofRegs [.QD_CNT, .ENG_CNT, .ENG_STAT]]) s (faultSeen e q code (s.bump ENG_CNT.ITEMS e)) :=
  .raise (.put (.put (.bump (.bump (.bump .refl)))))

theorem wdog_run (hcd : s.cdDown = false) (hheld : (s.eng e).held = some (q, n)) (hus : s.get ENG_WDOG.WDOG_US e ≠ 0)
    (hdue : (s.eng e).since + s.get ENG_WDOG.WDOG_US e * usTk ≤ s.clock) : engineWdogS e s = handlerFault e 0x0E s := by
  rw [engineWdogS]
  exact if_pos (by rw [hheld, hcd]; simp [hus, hdue])

theorem wdog_returns {e : EngineIx} (hcold : s.coldHeld = false) (hcd : s.cdDown = false) (hheld : (s.eng e).held = some (q, n))
    (hus : s.get ENG_WDOG.WDOG_US e ≠ 0) (hdue : (s.eng e).since + s.get ENG_WDOG.WDOG_US e * usTk ≤ s.clock) (hi : s.item q n = some i)
    (hf : i.fcnt < 2) :
    ∃ t, exec (.engineWdog e) s = .next t ∧
      t.item q n = some { i with st := .waiting, since := s.clock, eligAt := s.clock, fcnt := i.fcnt + 1 } ∧
      (t.queue q).items.head?.map (·.seq) = some i.seq ∧ (t.eng e).held = none ∧ t.pc e = 0 ∧
      t.engState e = (if s.engOn e then esIdle else esOff) ∧ t.get ENG_STAT.LAST_FAULT e = 0x0E ∧
      t.isSet ENG_STAT.FAULTED e = true ∧ t.get ENG_CNT.FAULTS e = (s.get ENG_CNT.FAULTS e + 1) % 65536 ∧
      t.get QD_CNT.FAULTS q = (s.get QD_CNT.FAULTS q + 1) % 65536 ∧ 354 ∈ t.raising := by
  have hfault := handlerFault_faulted (code := 0x0E) hheld hi (by decide) hf
  have hrun := handlerFault_returns (code := 0x0E) hheld hi hf
  rw [dropLines_handlerFault hheld] at hfault hrun
  obtain ⟨hhead, hlast, hfaulted, hfaults, hqfaults, hraise, hfree, -, hpc, -⟩ := hfault
  refine ⟨_, act_next hcold _, ?_⟩
  rw [wdog_run hcd hheld hus hdue]
  refine ⟨?_, by rw [hhead]; rfl, hfree, hpc, ?_, hlast, hfaulted, hfaults, hqfaults, hraise⟩
  · rw [hrun, SameItems.item (faultEnd_sameItems e q 0x0E _)]
    exact item_returnItem (f := fun j => { j with fcnt := i.fcnt + 1 }) (fun _ => rfl) hi
  · rw [hrun, faultEnd, dropLines_engineFree, engState_engineFree]
    have hr : Frame Frame.Scope.returnItem s (returnItem q n (fun j => { j with fcnt := i.fcnt + 1 }) s) := .returnItem .refl
    generalize returnItem q n _ s = r at *
    rw [engOn_of_frame (frame_faultSeen e q 0x0E r), engOn_of_frame hr]

theorem wdog_third {e : EngineIx} (hcold : s.coldHeld = false) (hcd : s.cdDown = false) (hheld : (s.eng e).held = some (q, n))
    (hus : s.get ENG_WDOG.WDOG_US e ≠ 0) (hdue : (s.eng e).since + s.get ENG_WDOG.WDOG_US e * usTk ≤ s.clock) (hi : s.item q n = some i)
    (hf : i.fcnt = 2) :
    (q ≠ quarQ → s.quarRoom = true → ∃ t, exec (.engineWdog e) s = .next t ∧ Quarantined e 0x0E q n i s t) ∧
    (s.quarRoom = false → ∃ t, exec (.engineWdog e) s = .next t ∧ KeptBack e 0x0E q i s t) := by
  have hrun := wdog_run hcd hheld hus hdue
  refine ⟨fun hq hroom => ⟨_, act_next hcold _, ?_⟩, fun hroom => ⟨_, act_next hcold _, ?_⟩⟩
  · rw [hrun, ← dropLines_handlerFault hheld]
    exact handlerFault_quarantined hheld hi (by decide) hf hq hroom
  · rw [hrun, ← dropLines_handlerFault hheld]
    exact handlerFault_keptBack hheld hi (by decide) hf hroom

/-! ### Failure and re-initialisation (R207, R213) -/

/-- What an engine holds goes back to its queue, and the engine's page is clear (R207, R213). -/
structure Wiped (e : ℕ) (s t : State) : Prop where
  held : (t.eng e).held = none
  scratch : (t.eng e).scratch = []
  regs : ∀ k, t.gr e k = 0
  pc : t.pc e = 0
  item : ∀ q n i, (s.eng e).held = some (q, n) → s.item q n = some i →
    t.item q n = some { i with st := .waiting, since := s.clock, eligAt := s.clock } ∧
      t.get QM_CNT.REDISP = (s.get QM_CNT.REDISP + 1) % 65536

theorem redispatch_item (e : ℕ) (s : State) (q n : ℕ) (i : Item) (hheld : (s.eng e).held = some (q, n)) (hi : s.item q n = some i) :
    (redispatch e s).item q n = some { i with st := .waiting, since := s.clock, eligAt := s.clock } ∧
      (redispatch e s).get QM_CNT.REDISP = (s.get QM_CNT.REDISP + 1) % 65536 := by
  unfold redispatch
  rw [hheld]
  dsimp only
  have hitem : (returnItem q n id s).item q n = some { i with st := .waiting, since := s.clock, eligAt := s.clock } :=
    item_returnItem (fun _ => rfl) hi
  have hx : Frame Frame.Scope.returnItem s (returnItem q n id s) := .returnItem .refl
  generalize returnItem q n id s = x at *
  have hy : Frame (.ofRegs [.QM_CNT]) x (x.bump QM_CNT.REDISP) := .bump .refl
  refine ⟨?_, ?_⟩
  · rw [State.item, hy.queue, ← State.item, hitem]
  · rw [get_bump _ _ _ (by decide), hx.get]
    rfl

/-- The page of an engine that is wiped. -/
def Eng.wiped (x : Eng) : Eng := { x.cleared with scratch := [], scrBad := [], reinitAt := none }

theorem engWipe_eq (e : ℕ) (s : State) :
    engWipe e s = ((redispatch e s).setEng e (Eng.wiped ((redispatch e s).eng e))).put ENG_PC.PC 0 e := rfl

theorem engWipe_wiped (e : ℕ) (s : State) : Wiped e s (engWipe e s) := by
  rw [engWipe_eq]
  have hitem := redispatch_item e s
  generalize redispatch e s = x at *
  generalize hy : x.setEng e (Eng.wiped (x.eng e)) = y
  have hf : Frame (.ofParts [.engines]) x y := hy ▸ .setEng .refl
  have heng : y.eng e = Eng.wiped (x.eng e) := by rw [← hy, State.eng_setEng, if_pos rfl]
  clear hy
  have ht : Frame (.ofRegs [.ENG_PC]) y (y.put ENG_PC.PC 0 e) := .put .refl
  have hpc : (y.put ENG_PC.PC 0 e).pc e = 0 := y.get_put ENG_PC.PC 0 e 0 (by decide)
  generalize y.put ENG_PC.PC 0 e = t at *
  have hteng := (ht.eng (n := e)).trans heng
  refine ⟨by rw [hteng]; rfl, by rw [hteng]; rfl, fun k => ?_, hpc, fun q n i hheld hi => ?_⟩
  · rw [State.gr, hteng]
    split <;> rfl
  · obtain ⟨hq, hc⟩ := hitem q n i hheld hi
    exact ⟨by rw [State.item, ht.queue, hf.queue, ← State.item, hq], by rw [ht.get, hf.get, hc]⟩

/-- A change of the engine's state and of what lies beside the engines keeps a wiped page. -/
theorem Wiped.setEngState {st : ℕ} (h : Wiped e s t) : Wiped e s (setEngState e st t) := by
  obtain ⟨heng, -, hpc, -⟩ := setEngState_spec e st t
  have hf : Frame Frame.Scope.setEngState t (Machine.setEngState e st t) := .setEngState .refl
  have hg (k : ℕ) : (Machine.setEngState e st t).gr e k = t.gr e k := by
    rw [State.gr, heng, ← State.gr]
  refine ⟨by rw [heng]; exact h.held, by rw [heng]; exact h.scratch, fun k => (hg k).trans (h.regs k), hpc.trans h.pc, fun q n i hheld hi => ?_⟩
  obtain ⟨hq, hc⟩ := h.item q n i hheld hi
  exact ⟨by rw [State.item, hf.queue, ← State.item, hq], hf.get.trans hc⟩

theorem Wiped.frame {w : Scope} (h : Wiped e s t) (hf : Frame w t u) (hs : SameItems t u)
    (hw : w.hasPart .engines = false ∧ w.hasReg .ENG_PC = false ∧ w.hasReg .QM_CNT = false := by decide) : Wiped e s u := by
  obtain ⟨heng, hpc, hcnt⟩ := hw
  have hengs : u.engines = t.engines := hf.part .engines heng
  have hueng : u.eng e = t.eng e := by rw [State.eng, hengs, ← State.eng]
  refine ⟨by rw [hueng]; exact h.held, by rw [hueng]; exact h.scratch, fun k => ?_, (hf.get (hf := hpc)).trans h.pc, fun q n i hheld hi => ?_⟩
  · rw [State.gr, hueng, ← State.gr]
    exact h.regs k
  · obtain ⟨hq, hc⟩ := h.item q n i hheld hi
    exact ⟨(hs.item q n).trans hq, (hf.get (hf := hcnt)).trans hc⟩

theorem sameItems_of_frame {w : Scope} (h : Frame w s t) (hw : w.hasPart .queues = false := by decide) : SameItems s t := fun k => by
  rw [State.queue, show t.queues = s.queues from h.part .queues hw, ← State.queue]
  exact ⟨rfl, rfl⟩

theorem sameItems_checkStarveAll (s : State) : SameItems s (checkStarveAll s) :=
  List.foldlRecOn (motive := SameItems s) _ _ .refl fun _ h _ _ => h.checkStarve

theorem testBit_markEngine (e : ℕ) (b : Bool) (s : State) : ((markEngine e b s).get ENG_FAIL.ENG (e / 32)).testBit (e % 32) = b := by
  unfold markEngine
  have hlt := Nat.mod_lt e (show 0 < 32 by decide)
  rw [State.get_put _ _ _ _ _ (by decide), Nat.testBit_mod_two_pow]
  have hclear : ∀ k < 32, (2 ^ 32 - 1 - 2 ^ k).testBit k = false := by decide
  cases b with
  | true => simp [hlt]
  | false => rw [if_neg Bool.false_ne_true, Nat.testBit_and, hclear _ hlt, Bool.and_false, Bool.and_false]

theorem engFail_complete {e : EngineIx} (hcold : s.coldHeld = false) (hcd : s.cdDown = false) (hst : s.engState e ≠ esFailed) :
    ∃ t, exec (.engFail e) s = .next t ∧ t.engState e = esFailed ∧ t.isSet ENG_STAT.FAILED_SEEN e = true ∧
      (t.get ENG_FAIL.ENG (e.val / 32)).testBit (e.val % 32) = true ∧ 355 ∈ t.raising ∧ 376 ∈ t.raising ∧ Wiped e s t := by
  refine ⟨_, act_next hcold _, ?_⟩
  have hrun : engFailS e s = checkStarveAll (faultReport 2 ((markEngine e true ((setEngState e esFailed (engWipe e s)).put ENG_STAT.FAILED_SEEN 1 e)).raise 355)) := by
    rw [engFailS, hcold, hcd, if_neg (by simpa using hst), if_neg Bool.false_ne_true]
  rw [hrun]
  have hy := (engWipe_wiped e s).setEngState (st := esFailed)
  obtain ⟨-, hyst, -⟩ := setEngState_spec e esFailed (engWipe e s)
  generalize setEngState e esFailed (engWipe e s) = y at *
  have hz : Frame (.ofRegs [.ENG_STAT]) y (y.put ENG_STAT.FAILED_SEEN 1 e) := .put .refl
  have hzst : (y.put ENG_STAT.FAILED_SEEN 1 e).engState e = esFailed := (get_put_of_apart (by decide) _ _ _ _ _ _).trans hyst
  have hzseen : (y.put ENG_STAT.FAILED_SEEN 1 e).isSet ENG_STAT.FAILED_SEEN e = true := isSet_put_one _ _ (by decide)
  generalize y.put ENG_STAT.FAILED_SEEN 1 e = z at *
  have hx : Frame (.ofRegs [.ENG_FAIL]) z (markEngine e true z) := .put .refl
  have hxbit := testBit_markEngine e true z
  generalize markEngine e true z = x at *
  have hu : Frame (.ofParts [.raising]) x (x.raise 355) := .raise .refl
  have hraise : 355 ∈ (x.raise 355).raising := mem_raising_raise ..
  generalize x.raise 355 = u at *
  have hv : Frame Frame.Scope.faultReport u (faultReport 2 u) := .faultReport .refl
  have hvraise : 376 ∈ (faultReport 2 u).raising := by
    unfold faultReport
    exact Tells.refreshLevel (Tells.frame (w := Frame.Scope.logEvent) .refl (.logEvent .refl)) (mem_raising_raise ..)
  have hvtells : Tells u (faultReport 2 u) := .faultReport .refl
  generalize faultReport 2 u = v at *
  have ht : Frame Frame.Scope.checkStarveAll v (checkStarveAll v) := .checkStarveAll .refl
  have htells : Tells v (checkStarveAll v) := .checkStarveAll .refl
  have hsame := sameItems_checkStarveAll v
  generalize checkStarveAll v = t at *
  have hw : Wiped e s v := (((hy.frame hz (sameItems_of_frame hz)).frame hx (sameItems_of_frame hx)).frame hu (sameItems_of_frame hu)).frame hv
    (sameItems_of_frame hv)
  refine ⟨?_, ?_, ?_, htells (hvtells hraise), htells hvraise, hw.frame ht hsame⟩
  · rw [State.engState, ht.get, hv.get, hu.get, hx.get, ← State.engState, hzst]
  · rw [ht.isSet, hv.isSet, hu.isSet, hx.isSet, hzseen]
  · rw [ht.get, hv.get, hu.get, hxbit]

theorem engFail_unseen {e : EngineIx} (hcold : s.coldHeld = false) (hcd : s.cdDown = true) (hst : s.engState e ≠ esFailed)
    (hnew : (2, e.val) ∉ s.lossFaults) : exec (.engFail e) s = .next { s with lossFaults := s.lossFaults ++ [(2, e.val)] } := by
  refine (act_next hcold _).trans ?_
  rw [engFailS, hcold, hcd, if_neg (by simpa using hst), if_pos rfl, failsUnseen, if_neg (by simpa using hnew)]

theorem plain_engCmd : Plain .ENG_CMD := ⟨by decide, by decide, by decide, by decide⟩

/-- The engine as its re-initialisation begins (R207). -/
def reinitBegun (e d : ℕ) (s : State) : State := s.setEng e { s.eng e with reinitAt := some (s.clock + 1 + d % 6400) }

theorem engReinitS_eq (e : ℕ) (s : State) : engReinitS e s = checkStarveAll (refreshLevel
    ((reinitBegun e (s.free 13).1 (setEngState e esReinit (markEngine e false (engWipe e (s.free 13).2)))).put ENG_CMD.REINIT 1 e)) := rfl

theorem engReinitS_spec (e : ℕ) (s : State) : (engReinitS e s).engState e = esReinit ∧
    (∃ due, ((engReinitS e s).eng e).reinitAt = some due ∧ s.clock < due ∧ due ≤ s.clock + 2 * usTk) ∧
    ((engReinitS e s).get ENG_FAIL.ENG (e / 32)).testBit (e % 32) = false ∧ (engReinitS e s).get ENG_CMD.REINIT e = 1 ∧
    Wiped e s (engReinitS e s) := by
  rw [engReinitS_eq]
  have hf : Frame (.ofParts [.freeCtr]) s (s.free 13).2 := .free .refl
  generalize (s.free 13).1 = d
  have hfw : Wiped e s (engWipe e (s.free 13).2) := by
    have h := engWipe_wiped e (s.free 13).2
    refine ⟨h.held, h.scratch, h.regs, h.pc, fun q n i hheld hi => ?_⟩
    have hi' := h.item q n i (by rw [hf.eng, hheld]) (by rw [State.item, hf.queue, ← State.item, hi])
    rwa [hf.clock, hf.get] at hi'
  have hfx : Frame (.join [.ofParts [.freeCtr], Frame.Scope.engWipe]) s (engWipe e (s.free 13).2) := 
    (hf.mono (by decide)).lift (v := Frame.Scope.engWipe) (by decide) (.engWipe .refl)
  generalize engWipe e (s.free 13).2 = x at *
  have hy : Frame (.ofRegs [.ENG_FAIL]) x (markEngine e false x) := .put .refl
  have hybit := testBit_markEngine e false x
  generalize markEngine e false x = y at *
  have hzw := (hfw.frame hy (sameItems_of_frame hy)).setEngState (st := esReinit)
  obtain ⟨-, hzst, -⟩ := setEngState_spec e esReinit y
  have hz : Frame Frame.Scope.setEngState y (setEngState e esReinit y) := .setEngState .refl
  generalize setEngState e esReinit y = z at *
  have hclock : z.clock = s.clock := by rw [hz.clock, hy.clock, hfx.clock]
  have hu : Frame (.ofParts [.engines]) z (reinitBegun e d z) := .setEng .refl
  have hueng : (reinitBegun e d z).eng e = { z.eng e with reinitAt := some (s.clock + 1 + d % 6400) } := by
    rw [reinitBegun, State.eng_setEng, if_pos rfl, hclock]
  have huw : Wiped e s (reinitBegun e d z) := by
    refine ⟨by rw [hueng]; exact hzw.held, by rw [hueng]; exact hzw.scratch, fun k => ?_, hu.get.trans hzw.pc, fun q n i hheld hi => ?_⟩
    · rw [State.gr, hueng]
      exact hzw.regs k
    · obtain ⟨hq, hc⟩ := hzw.item q n i hheld hi
      exact ⟨by rw [State.item, hu.queue, ← State.item, hq], hu.get.trans hc⟩
  generalize reinitBegun e d z = u at *
  have hv : Frame (.ofRegs [.ENG_CMD]) u (u.put ENG_CMD.REINIT 1 e) := .put .refl
  have hvcmd : (u.put ENG_CMD.REINIT 1 e).get ENG_CMD.REINIT e = 1 := get_put_lt _ _ (by decide) (by decide)
  generalize u.put ENG_CMD.REINIT 1 e = v at *
  have hr : Frame Frame.Scope.refreshLevel v (refreshLevel v) := .refreshLevel .refl
  generalize refreshLevel v = r at *
  have ht : Frame Frame.Scope.checkStarveAll r (checkStarveAll r) := .checkStarveAll .refl
  have hsame := sameItems_checkStarveAll r
  generalize checkStarveAll r = t at *
  have hwt : Wiped e s t := ((huw.frame hv (sameItems_of_frame hv)).frame hr (sameItems_of_frame hr)).frame ht hsame
  refine ⟨?_, ⟨s.clock + 1 + d % 6400, ?_, by omega, ?_⟩, ?_, ?_, hwt⟩
  · rw [State.engState, ht.get, hr.get, hv.get, hu.get, ← State.engState, hzst]
    rfl
  · rw [ht.eng, hr.eng, hv.eng, hueng]
  · have hlt := Nat.mod_lt d (show 0 < 6400 by decide)
    have hus : usTk = 3200 := rfl
    omega
  · rw [ht.get, hr.get, hv.get, hu.get, hz.get, hybit]
  · rw [ht.get, hr.get, hvcmd]

theorem hook_engReinit {o : ℕ} {m old v : Word} (hgo : v.getLsbD 0 = true) :
    writeHook o ⟨.ENG_CMD, e, 0⟩ m old v s = (withField v 0 1 ((engReinitS e s).get ENG_CMD.REINIT e), engReinitS e s) := by
  unfold writeHook
  dsimp only
  rw [if_pos hgo]

theorem engReinit_complete {o : Origin} {e : EngineIx} {v : Word} (h : s.writes o .ENG_CMD e 0 (withField v 0 1 1) = true) :
    ∃ t, exec (.engReinit o e v) s = .next t ∧ t.engState e = esReinit ∧
      (∃ due, (t.eng e).reinitAt = some due ∧ s.clock < due ∧ due ≤ s.clock + 2 * usTk) ∧
      (t.get ENG_FAIL.ENG (e.val / 32)).testBit (e.val % 32) = false ∧ t.isSet ENG_CMD.REINIT e = true ∧ Wiped e s t := by
  obtain ⟨q, hq⟩ := busWrite_hook h plain_engCmd e.isLt
  have hgo : (withField v 0 1 1).getLsbD 0 = true := by rw [getLsbD_eq_fieldOf, fieldOf_set0]; rfl
  have hx : Frame (.ofParts [.tansyQ]) s { s with tansyQ := q } := .withTansyQ .refl
  generalize ({ s with tansyQ := q } : State) = x at *
  have hafter (old : Word) (u : State) : afterWrite ⟨.ENG_CMD, e, 0⟩ old u = u := rfl
  obtain ⟨-, -, -, hcmd, -⟩ := engReinitS_spec e s
  rw [hook_engReinit hgo, hook_engReinit hgo, hafter, hcmd] at hq
  dsimp only at hq
  obtain ⟨hst, ⟨due, hdue, hlo, hhi⟩, hbit, -, hw⟩ := engReinitS_spec e x
  generalize engReinitS e x = y at *
  have ht : Frame (.ofRegs [.ENG_CMD]) y (y.setReg (RegId.ENG_CMD.at e) (withField (withField v 0 1 1) 0 1 1)) := .setReg .refl
  have hset : (y.setReg (RegId.ENG_CMD.at e) (withField (withField v 0 1 1) 0 1 1)).get ENG_CMD.REINIT e = 1 :=
    (get_setReg ENG_CMD.REINIT y e 0 _).trans (fieldOf_set0 _)
  have hws : Wiped e s y := by
    refine ⟨hw.held, hw.scratch, hw.regs, hw.pc, fun q n i hheld hi => ?_⟩
    have hi' := hw.item q n i (by rw [hx.eng, hheld]) (by rw [State.item, hx.queue, ← State.item, hi])
    rwa [hx.clock, hx.get] at hi'
  refine ⟨_, hq, ?_, ⟨due, by rw [ht.eng, hdue], by rwa [hx.clock] at hlo, by rwa [hx.clock] at hhi⟩, by rw [ht.get, hbit], ?_,
    hws.frame ht (sameItems_of_frame ht)⟩
  · rw [State.engState, ht.get, ← State.engState, hst]
  · rw [State.isSet, hset]
    rfl

/-! ### Service and load (R196, R209) -/

theorem plain_engCfg : Plain .ENG_CFG := ⟨by decide, by decide, by decide, by decide⟩

/-- The state that an engine takes as `EN` says (R196). -/
def servedState (en : Bool) (st : ℕ) : ℕ := if en = true ∧ st = esOff then esIdle else if en = false ∧ st = esIdle then esOff else st

theorem engCfgWritten_spec (e : ℕ) (s : State) : (engCfgWritten e s).engState e = servedState (s.engOn e) (s.engState e) ∧
    (engCfgWritten e s).mem = s.mem ∧ Frame Frame.Scope.engCfgWritten s (engCfgWritten e s) := by
  have hf : Frame Frame.Scope.engCfgWritten s (engCfgWritten e s) := .engCfgWritten .refl
  refine ⟨?_, hf.mem, hf⟩
  unfold engCfgWritten
  dsimp only
  generalize hx : (if (s.engOn e && decide (s.engState e = esOff)) = true then setEngState e esIdle s
    else if (!s.engOn e && decide (s.engState e = esIdle)) = true then setEngState e esOff s else s) = x
  have ht : Frame Frame.Scope.checkStarveAll x (checkStarveAll x) := .checkStarveAll .refl
  rw [State.engState, ht.get, ← State.engState, ← hx, servedState]
  obtain ⟨-, hidle, -⟩ := setEngState_spec e esIdle s
  obtain ⟨-, hoff, -⟩ := setEngState_spec e esOff s
  cases s.engOn e
  · simp [apply_ite (State.engState · e), hoff]
    rfl
  · simp [apply_ite (State.engState · e), hidle]

theorem engCfg_complete {o : Origin} {e : EngineIx} {v : Word} (h : s.writes o .ENG_CFG e 0 v = true) :
    ∃ t, exec (.engCfgWrite o e v) s = .next t ∧ t.get ENG_CFG.EN e = fieldOf v 0 1 ∧
      t.get ENG_CFG.STEAL_EN e = fieldOf v 1 1 ∧
      t.engState e = (if fieldOf v 0 1 = 1 ∧ s.engState e = esOff then esIdle
        else if fieldOf v 0 1 = 0 ∧ s.engState e = esIdle then esOff else s.engState e) ∧ t.mem = s.mem := by
  have hserved := serves_iff.mp (Bool.and_eq_true_iff.mp h).1
  have hthaw := hserved.thawed rfl
  obtain ⟨q, hq⟩ := busWrite_hook h plain_engCfg e.isLt
  have hx : Frame (.ofParts [.tansyQ]) s { s with tansyQ := q } := .withTansyQ .refl
  generalize ({ s with tansyQ := q } : State) = x at *
  have hafter (old : Word) (u : State) : afterWrite ⟨.ENG_CFG, e, 0⟩ old u = engCfgWritten e u := rfl
  have hhook (o : ℕ) (m old : Word) (u : State) : writeHook o ⟨.ENG_CFG, e, 0⟩ m old v u = (v, u) := rfl
  rw [hhook, hhook, hafter] at hq
  dsimp only at hq
  have hy : Frame (.ofRegs [.ENG_CFG]) x (x.setReg (RegId.ENG_CFG.at e) v) := .setReg .refl
  have hen : (x.setReg (RegId.ENG_CFG.at e) v).get ENG_CFG.EN e = fieldOf v 0 1 := get_setReg ENG_CFG.EN x e 0 v
  have hsteal : (x.setReg (RegId.ENG_CFG.at e) v).get ENG_CFG.STEAL_EN e = fieldOf v 1 1 := get_setReg ENG_CFG.STEAL_EN x e 0 v
  generalize x.setReg (RegId.ENG_CFG.at e) v = y at *
  obtain ⟨hst, hmem, ht⟩ := engCfgWritten_spec e y
  have hon : y.engOn e = (fieldOf v 0 1 == 1) := by
    have hfrozen : y.frozen (RegId.ENG_CFG.at e) = false := by
      rw [State.frozen, show y.parBad = s.parBad from (hy.part .parBad (by decide)).trans (hx.part .parBad (by decide)), ← State.frozen]
      exact hthaw
    rw [State.engOn, State.isSet, hen, hfrozen, Bool.not_false, Bool.and_true]
  refine ⟨_, hq, by rw [ht.get, hen], by rw [ht.get, hsteal], ?_, by rw [hmem, hy.mem, hx.mem]⟩
  have hbit : fieldOf v 0 1 = 0 ∨ fieldOf v 0 1 = 1 := by
    have : fieldOf v 0 1 < 2 := Nat.mod_lt _ (by decide)
    omega
  rw [hst, hon, State.engState, hy.get, hx.get, ← State.engState, servedState]
  obtain hb | hb := hbit <;> rw [hb] <;> simp

theorem loadUpdate_complete {pct : Fin 101} (hcold : s.coldHeld = false) (hcd : s.cdDown = false) (hdue : s.timer tmLoad ≤ s.clock)
    (hload : s.loadIs pct = true) :
    ∃ t, exec (.qmLoadUpdate pct) s = .next t ∧ t.get QM_LOAD.LOAD_PCT = pct.val ∧
      t.timer tmLoad = s.timer tmLoad + msTk ∧ t.loadMark = s.loadTotal ∧ RegsKept [RegId.QM_LOAD.at] s t ∧
      Kept [.regs, .timers, .loadMark] s t := by
  have hlt := pct.isLt
  refine ⟨_, act_next hcold _, ?_⟩
  have hrun : qmLoadUpdateS pct s = (({ s with loadMark := s.loadTotal } : State).put QM_LOAD.LOAD_PCT pct).setTimer tmLoad
      ((({ s with loadMark := s.loadTotal } : State).put QM_LOAD.LOAD_PCT pct).timer tmLoad + msTk) := by
    rw [qmLoadUpdateS, if_pos (by simp [hdue, hcd, hload])]
    rfl
  rw [hrun]
  generalize s.loadTotal = total
  have hx : Frame (.ofParts [.loadMark]) s { s with loadMark := total } := .withLoadMark .refl
  have hxm : ({ s with loadMark := total } : State).loadMark = total := rfl
  generalize ({ s with loadMark := total } : State) = x at *
  have hy : Frame (.ofRegs [.QM_LOAD]) x (x.put QM_LOAD.LOAD_PCT pct) := .put .refl
  have hpct : (x.put QM_LOAD.LOAD_PCT pct).get QM_LOAD.LOAD_PCT = pct.val := get_put_lt _ _ (by decide) (show pct.val < 128 by omega)
  generalize x.put QM_LOAD.LOAD_PCT pct = y at *
  have htimer : y.timer tmLoad = s.timer tmLoad := by rw [State.timer, hy.part .timers (by decide), hx.part .timers (by decide), ← State.timer]
  rw [htimer]
  generalize s.timer tmLoad + msTk = n
  have ht : Frame (.ofParts [.timers]) y (y.setTimer tmLoad n) := .setTimer .refl
  have hset : (y.setTimer tmLoad n).timer tmLoad = n := SMap.get_set_same (fun _ => 0) y.timers tmLoad n
  generalize y.setTimer tmLoad n = t at *
  have hall : Frame (.join [.ofParts [.loadMark, .timers], .ofRegs [.QM_LOAD]]) s t := ((hx.mono (by decide)).lift (by decide) hy).lift (by decide) ht
  exact ⟨by rw [ht.get, hpct], hset, by rw [ht.part .loadMark (by decide), hy.part .loadMark (by decide), hxm], hall.regsKept [.QM_LOAD], hall.kept⟩

/-- Settles O39, by the engine's turns: the watchdog, a failure, a re-initialisation, service and the load. -/
theorem engineServiceCompletes : Obligations.EngineServiceCompletes := by
  refine ⟨?_, ?_, ?_, ?_, ?_, ?_, ?_⟩
  · intro e q n i s hcold hcd hheld hus hdue hi hf
    exact wdog_returns hcold hcd hheld hus hdue hi hf
  · intro e q n i s hcold hcd hheld hus hdue hi hf
    exact wdog_third hcold hcd hheld hus hdue hi hf
  · intro e s hcold hcd hst
    obtain ⟨t, hexec, hfail, hseen, hbit, h355, h376, hw⟩ := engFail_complete hcold hcd hst
    exact ⟨t, hexec, hfail, hseen, hbit, h355, h376, hw.held, hw.scratch, hw.pc, hw.item⟩
  · intro e s hcold hcd hst hnew
    exact engFail_unseen hcold hcd hst hnew
  · intro o e v s h
    obtain ⟨t, hexec, hst, hdue, hbit, hcmd, hw⟩ := engReinit_complete h
    exact ⟨t, hexec, hst, hdue, hbit, hcmd, hw.held, hw.scratch, hw.regs, hw.pc⟩
  · intro o e v s h
    exact engCfg_complete h
  · intro pct s hcold hcd hdue hload
    exact loadUpdate_complete hcold hcd hdue hload

end

end Sys2Proof.Proofs

/-! ## Accesses to registers (R302 to R309, R322 to R324) -/

namespace Sys2Proof.Proofs

set_option Elab.async false

open Sys2Proof Sys2Proof.Machine Sys2Proof.Claims

section

variable {s t : State} {o a : ℕ} {r : RegAt} {v : Word}

/-! ### Records -/

theorem cdGone_of_cdDown (h : s.cdDown = false) : s.cdGone = false := by
  simp only [State.cdDown, Bool.or_eq_false_iff] at h
  exact h.1

theorem log_eq (hgone : s.cdGone = false) (hroom : s.tansyQ.length < 256) (k x : ℕ) (old new : Word) (aux : ℕ) :
    s.log o k x old new aux = { s with tansyQ := s.tansyQ ++ [⟨s.mcount, o, k, x, old, new, aux⟩] } := by
  rw [State.log, hgone, if_neg Bool.false_ne_true]
  exact if_pos hroom

theorem log_record (hgone : s.cdGone = false) (hroom : s.tansyQ.length < 256) (k x : ℕ) (old new : Word) (aux : ℕ) :
    ∃ y : LogRec, s.log o k x old new aux = { s with tansyQ := s.tansyQ ++ [y] } ∧ y.kind = k ∧ y.origin = o ∧ y.addr = x ∧ y.new = new :=
  ⟨_, log_eq hgone hroom .., rfl, rfl, rfl, rfl⟩

/-- A record of a state that has the registers of which the time and the control die's state are read. -/
theorem log_of_kept (hkept : Kept [.regs] s t) (hchip : t.get CHIP_STAT.LOST = s.get CHIP_STAT.LOST)
    (hmaster : t.get TB_STAT.MASTER = s.get TB_STAT.MASTER) (hgone : s.cdGone = false) (hroom : s.tansyQ.length < 256)
    (k x : ℕ) (old new : Word) (aux : ℕ) :
    t.log o k x old new aux = { t with tansyQ := s.tansyQ ++ [⟨s.mcount, o, k, x, old, new, aux⟩] } := by
  have hchips : t.chips = s.chips := hkept .chips (by simp)
  have hq : t.tansyQ = s.tansyQ := hkept .tansyQ (by simp)
  have hlost (n : ℕ) : t.chipLost n = s.chipLost n := by rw [State.chipLost, hchip, ← State.chipLost]
  have hchipn (n : ℕ) : t.chip n = s.chip n := by rw [State.chip, hchips, ← State.chip]
  have htgone : t.cdGone = false := by
    have hcold : t.coldHeld = s.coldHeld := by
      rw [State.coldHeld, show t.porst = s.porst from hkept .porst (by simp), show t.brown = s.brown from hkept .brown (by simp), ← State.coldHeld]
    rw [← hgone, State.cdGone, State.cdGone, hcold]
    simp only [hlost, hchipn]
  have hcount : t.mcount = s.mcount := by
    rw [State.mcount, State.mcount, hmaster, State.count, State.count, hchipn, show t.clock = s.clock from hkept .clock (by simp)]
  rw [log_eq htgone (hq ▸ hroom), hq, hcount]

/-! ### Direct writes (R303, R308, R324) -/

/-- A register of which a write stores some bits reads as it is stored. -/
theorem computed_of_stored {id : RegId} (h : (regRow id).rw ||| (regRow id).cnt ||| (regRow id).wo1 ≠ 0) (i j : ℕ) (w : Word) :
    s.computed ⟨id, i, j⟩ w = w := by
  unfold State.computed
  split
  all_goals first
    | rfl
    | next hid => exact absurd (by rw [show id = _ from hid]; decide) h

/-- Bits written under a mask change the word where they differ from it. -/
theorem merge_ne_iff (old v m : Word) : (((old &&& ~~~m) ||| (v &&& m)) ^^^ old) &&& m ≠ 0#32 ↔ (old &&& ~~~m) ||| (v &&& m) ≠ old := by
  have heq : (((old &&& ~~~m) ||| (v &&& m)) ^^^ old) &&& m = ((old &&& ~~~m) ||| (v &&& m)) ^^^ old := by
    ext b hb
    simp only [← BitVec.getLsbD_eq_getElem, BitVec.getLsbD_and, BitVec.getLsbD_or, BitVec.getLsbD_xor, BitVec.getLsbD_not, hb, decide_true,
      Bool.true_and]
    cases m.getLsbD b <;> cases v.getLsbD b <;> cases old.getLsbD b <;> rfl
  rw [heq, ne_eq, BitVec.xor_eq_zero_iff]

/-- A direct write to a register without rules of its own, with its record. -/
theorem directWrite_logged (hplain : hooked r.id = false) (hgone : s.cdGone = false) (h : s.clean r a v = true) (hbad : s.badAt a = none) :
    directWrite o r a v s = ({ s with tansyQ := s.tansyQ ++ (if writtenWord s r a v = s.reg a then [] else
      [⟨s.mcount, o, writeKind s r a v, a, s.reg a, writtenWord s r a v, 0⟩]) } : State).setReg a
        (writtenWord s r a v) := by
  have hviol := violations_of_clean h o (s.heldWord r a none)
  have hroom : s.tansyQ.length < 256 := by
    simp only [State.clean, Bool.and_eq_true, decide_eq_true_eq] at h
    exact h.2
  have hring : (r.id != .RING_REL) = true := by
    rw [bne_iff_ne]
    rintro he
    rw [he] at hplain
    exact absurd hplain (by decide)
  have hchanged : ((writtenWord s r a v ^^^ s.reg a) &&& s.writable r a != 0) = decide (writtenWord s r a v ≠ s.reg a) := by
    rw [Bool.eq_iff_iff, bne_iff_ne, decide_eq_true_iff]
    exact merge_ne_iff ..
  unfold directWrite
  dsimp only
  simp only [hviol, writeHook_plain hplain, afterWrite_plain hplain, ite_self, Option.isSome_none, Bool.false_and, Bool.false_or]
  change (s.when (((writtenWord s r a v ^^^ s.reg a) &&& s.writable r a != 0) && r.id != .RING_REL) _).setReg a (writtenWord s r a v) = _
  rw [hchanged, hring, Bool.and_true]
  unfold State.when
  by_cases heq : writtenWord s r a v = s.reg a
  · rw [if_neg (by simp [heq]), if_pos heq, List.append_nil]
  · have hstored : (regRow r.id).rw ||| (regRow r.id).cnt ||| (regRow r.id).wo1 ≠ 0 := by
      intro hzero
      refine heq ?_
      rw [writtenWord, writable_of_clean h, hzero, show ~~~(BitVec.ofNat 32 0) = BitVec.allOnes 32 from rfl, BitVec.and_allOnes]
      simp
    have hheld : s.heldWord r a none = s.reg a := by
      rw [State.heldWord, Option.getD_none, State.view, hbad]
      exact computed_of_stored hstored r.i r.j _
    rw [if_pos (by simpa using heq), if_neg heq]
    beta_reduce
    rw [log_eq hgone hroom, hheld,
      show s.computed r (s.reg a &&& ~~~s.writable r a ||| v &&& s.writable r a) = writtenWord s r a v from computed_of_stored hstored r.i r.j _]

theorem regsKept_setReg (a : ℕ) (w : Word) (q : List LogRec) : RegsKept [a] s (({ s with tansyQ := q } : State).setReg a w) := fun b hb => by
  rw [State.reg_setReg, if_neg (by simpa using hb)]
  rfl

theorem kept_setReg (a : ℕ) (w : Word) (q : List LogRec) : Kept [.regs, .tansyQ] s (({ s with tansyQ := q } : State).setReg a w) := by
  have h : Frame (.join [.ofParts [.tansyQ], .allRegs]) s (({ s with tansyQ := q } : State).setReg a w) := .setRegAny (.withTansyQ .refl)
  exact h.kept

/-- A served direct write to a register without rules of its own. -/
theorem write_complete {o : Origin} {a : RegAddr} {id : RegId} {i j : ℕ} (ha : a.toNat = id.at i j) (hr : regOf a.toNat = some ⟨id, i, j⟩)
    (hplain : hooked id = false) (h : s.writes o id i j v = true) :
    ∃ t, exec (.registerWrite o a v) s = .next t ∧ t.reg a.toNat = writtenWord s ⟨id, i, j⟩ a.toNat v ∧
      Logged o.toNat (writeKind s ⟨id, i, j⟩ a.toNat v) a.toNat 0 s t ∧ RegsKept [a.toNat] s t ∧ Kept [.regs, .tansyQ] s t := by
  obtain ⟨hserves, hclean⟩ := Bool.and_eq_true_iff.mp h
  rw [← ha] at hserves hclean
  have hserved := serves_iff.mp hserves
  obtain ⟨hA, hB⟩ := not_paired (r := ⟨id, i, j⟩) hplain
  have hreg : (({ s with tansyQ := s.tansyQ ++ (if writtenWord s ⟨id, i, j⟩ a.toNat v = s.reg a.toNat then []
      else [⟨s.mcount, o.toNat, writeKind s ⟨id, i, j⟩ a.toNat v, a.toNat, s.reg a.toNat, writtenWord s ⟨id, i, j⟩ a.toNat v, 0⟩]) } : State).setReg a.toNat
        (writtenWord s ⟨id, i, j⟩ a.toNat v)).reg a.toNat = writtenWord s ⟨id, i, j⟩ a.toNat v := by rw [State.reg_setReg, if_pos rfl]
  refine ⟨_, ?_, hreg, ?_, regsKept_setReg _ _ _, kept_setReg _ _ _⟩
  · change Host.Outcome.next (originWrite o.toNat a.toNat v s).2 = _
    rw [originWrite_of_serves hserves hr hA hB (reservedAt_of_served hserved hr),
      directWrite_logged hplain (cdGone_of_cdDown hserved.on) hclean (badAt_of_thawed (hserved.thawed rfl))]
  · rw [Logged, hreg]
    rfl

/-! ### Reads (R308, R309) -/

theorem readOut_of_served {id : RegId} {i j : ℕ} (h : Served s o a false) (hr : regOf a = some ⟨id, i, j⟩) :
    readOut o a s = (readReg ⟨id, i, j⟩ a s).2.emit (.readData o a (readReg ⟨id, i, j⟩ a s).1) := by
  unfold readOut
  rw [h.on, h.bus]
  simp only [engineRead_of_served h hr, vetchRead_of_served h hr, ite_self, Option.getD_some]
  rfl

theorem read_complete {o : Origin} {a : RegAddr} {id : RegId} {i j : ℕ} (hr : regOf a.toNat = some ⟨id, i, j⟩) (hzero : id.readsZero = false)
    (h : s.serves o.toNat a.toNat false = true) :
    ∃ t, exec (.registerReadClear o a) s = .next t ∧
      t.outs = s.outs ++ [.readData o.toNat a.toNat (s.view ⟨id, i, j⟩ a.toNat)] ∧
      (∀ b, b < 32 → (t.reg a.toNat).getLsbD b = ((s.reg a.toNat).getLsbD b &&
        !((regRow id).rcc.testBit b && (s.view ⟨id, i, j⟩ a.toNat).getLsbD b && s.causeGone ⟨id, i, j⟩ b))) ∧
      RegsKept [a.toNat, RegId.VETCH_CNT.at] s t ∧ Kept [.regs, .outs] s t := by
  have hserved := serves_iff.mp h
  obtain ⟨hbits, hregs⟩ := readReg_leaves (s := s) hr hzero
  have hvalue : (readReg ⟨id, i, j⟩ a.toNat s).1 = s.view ⟨id, i, j⟩ a.toNat := by
    rw [readReg_value, show RegId.readsZero (RegAt.mk id i j).id = false from hzero]
    rfl
  have hx : Frame Frame.Scope.readReg s (readReg ⟨id, i, j⟩ a.toNat s).2 := .readReg .refl
  refine ⟨_, congrArg Host.Outcome.next (readOut_of_served hserved hr), ?_⟩
  rw [hvalue]
  generalize (readReg ⟨id, i, j⟩ a.toNat s).2 = x at *
  generalize hy : x.emit _ = y
  have hf : Frame (.ofParts [.outs]) x y := hy ▸ .emit .refl
  have houts : y.outs = x.outs ++ [.readData o.toNat a.toNat (s.view ⟨id, i, j⟩ a.toNat)] := hy ▸ rfl
  clear hy
  have hreg (b : ℕ) : y.reg b = x.reg b := by rw [State.reg, hf.part .regs (by decide), ← State.reg]
  refine ⟨by rw [houts, hx.part .outs (by decide)], fun b hb => by rw [hreg]; exact hbits b hb, fun b hb => ?_, ((hx.mono (by decide)).lift (w := .join [Frame.Scope.readReg, .ofParts [.outs]]) (by decide) hf).kept⟩
  simp only [List.mem_cons, List.not_mem_nil, or_false, not_or] at hb
  rw [hreg, hregs b hb.1 hb.2 (by simp)]

theorem readZero_complete {o : Origin} {a : RegAddr} {id : RegId} {i j : ℕ} (hr : regOf a.toNat = some ⟨id, i, j⟩) (hzero : id.readsZero = true)
    (h : s.serves o.toNat a.toNat false = true) :
    ∃ t, exec (.registerReadClear o a) s = .next t ∧ t.outs = s.outs ++ [.readData o.toNat a.toNat 0] ∧ Kept [.outs] s t := by
  have hserved := serves_iff.mp h
  have hread : readReg ⟨id, i, j⟩ a.toNat s = (0, s) := if_pos hzero
  refine ⟨_, congrArg Host.Outcome.next (readOut_of_served hserved hr), ?_⟩
  rw [hread]
  have hf : Frame (.ofParts [.outs]) s (s.emit (.readData o.toNat a.toNat 0)) := .emit .refl
  exact ⟨rfl, hf.kept⟩

/-! ### Refusals (R310, R322) -/

theorem countRefusal_spec (s : State) : Denied 1 s (countRefusal s) ∧ (countRefusal s).tansyQ = s.tansyQ := by
  unfold countRefusal
  have hx : Frame (.ofRegs [.VETCH_CNT]) s (s.bump VETCH_CNT.PERM_DENIED) := .bump .refl
  have hcnt : (s.bump VETCH_CNT.PERM_DENIED).get VETCH_CNT.PERM_DENIED = (s.get VETCH_CNT.PERM_DENIED + 1) % 65536 := get_bump _ _ _ (by decide)
  generalize s.bump VETCH_CNT.PERM_DENIED = x at *
  have hy : Frame (.ofRegs [.VETCH_STAT]) x (x.put VETCH_STAT.PERMERR_SEEN 1) := .put .refl
  have hseen : (x.put VETCH_STAT.PERMERR_SEEN 1).isSet VETCH_STAT.PERMERR_SEEN = true := isSet_put_one _ _ (by decide)
  generalize x.put VETCH_STAT.PERMERR_SEEN 1 = y at *
  have hz : Frame (.ofParts [.raising]) y (y.raise 368) := .raise .refl
  have hraise : (y.raise 368).raising = y.raising ++ [368] := rfl
  generalize y.raise 368 = z at *
  have hall : Frame (.join [.ofParts [.raising], .ofRegs [.VETCH_CNT, .VETCH_STAT]]) s z := ((hx.mono (by decide)).lift (by decide) hy).lift (by decide) hz
  refine ⟨⟨by rw [hz.get, hy.get, hcnt], hz.isSet.trans hseen, ?_, hall.regsKept [.VETCH_CNT, .VETCH_STAT], hall.kept⟩, hall.part .tansyQ (by decide)⟩
  rw [hraise, hy.part .raising (by decide), hx.part .raising (by decide)]
  rfl

/-- A record beside a refusal. -/
theorem denied_log {n : ℕ} {u : State} (h : Denied n s t) (hf : Frame (.ofParts [.tansyQ]) t u) : Denied n s u := by
  refine ⟨hf.get.trans h.count, hf.isSet.trans h.seen, (hf.part .raising (by decide)).trans h.raised, fun b hb => ?_, fun p hp => ?_⟩
  · rw [State.reg, hf.part .regs (by decide), ← State.reg, h.regs b hb]
  · have h1 := h.rest p hp
    have h2 := hf.kept (ps := [.regs, .raising, .tansyQ]) (by decide) p hp
    cases p <;> exact Eq.trans h2 h1

/-- A refused access of an origin without an open pair. -/
theorem refuseAccess_spec (o a : ℕ) (write : Bool) (v : Word) (hgone : s.cdGone = false) (hpair : (s.org o).pair = none)
    (hroom : s.tansyQ.length < 256) : Denied 1 s (refuseAccess o a write v s) ∧
      if (write && (msixTableAt a).isNone && (msixPbaAt a).isNone) = true then
        ∃ x, (refuseAccess o a write v s).tansyQ = s.tansyQ ++ [x] ∧ x.kind = kPERMDENY ∧ x.origin = o ∧ x.addr = a ∧ x.new = v
      else (refuseAccess o a write v s).tansyQ = s.tansyQ := by
  obtain ⟨hdenied, hq⟩ := countRefusal_spec s
  have hf : Frame Frame.Scope.countRefusal s (countRefusal s) := .countRefusal .refl
  unfold refuseAccess
  dsimp only
  rw [hpair]
  dsimp only
  generalize countRefusal s = x at *
  unfold State.when
  by_cases hw : (write && (msixTableAt a).isNone && (msixPbaAt a).isNone) = true
  · rw [if_pos hw, if_pos hw]
    beta_reduce
    obtain ⟨y, hy, hkind⟩ := log_record (o := o) (hf.cdGone.trans hgone) (by rw [hq]; exact hroom) kPERMDENY a _ v ((blockOf a).getD 0)
    rw [hy, hq]
    have hz : Frame (.ofParts [.tansyQ]) x { x with tansyQ := s.tansyQ ++ [y] } := .withTansyQ .refl
    have hzq : ({ x with tansyQ := s.tansyQ ++ [y] } : State).tansyQ = s.tansyQ ++ [y] := rfl
    generalize ({ x with tansyQ := s.tansyQ ++ [y] } : State) = z at *
    exact ⟨denied_log hdenied hz, y, hzq, hkind⟩
  · rw [if_neg hw, if_neg hw]
    exact ⟨hdenied, hq⟩

/-- A refused write. -/
theorem vetchWrite_refused (hcd : s.cdDown = false) (hmail : mailboxAt a = false) (halign : a % 4 = 0) (hpair : (s.org o).pair = none)
    (hmay : s.mayAccess o a true = false) : vetchWrite o a v s = (true, refuseAccess o a true v s) := by
  have htick : pairTick o a true v s = s := by simp [pairTick, hpair]
  simp [vetchWrite, State.vetchOff, hcd, hmail, htick, halign, hmay]

theorem vetchRead_refused (hcd : s.cdDown = false) (hmail : mailboxAt a = false) (halign : a % 4 = 0) (hpair : (s.org o).pair = none)
    (hmay : s.mayAccess o a false = false) : vetchRead o a s = (none, refuseAccess o a false 0 s) := by
  have htick : pairTick o a false 0#32 s = s := by simp [pairTick, hpair]
  simp [vetchRead, State.vetchOff, hcd, hmail, htick, halign, hmay]

theorem mailboxAt_eq_false (h : ¬ (0x40000 ≤ a ∧ a < 0x44000)) : mailboxAt a = false := by
  simpa [mailboxAt] using h

theorem refusedWrite_complete {o : Origin} {a : RegAddr} (hcd : s.cdDown = false) (hbus : s.busOn o.toNat = true) (halign : a.toNat % 4 = 0)
    (hmail : ¬ (0x40000 ≤ a.toNat ∧ a.toNat < 0x44000)) (hpair : (s.org o.toNat).pair = none) (hmay : s.mayAccess o.toNat a.toNat true = false)
    (hroom : s.tansyQ.length < 256) :
    ∃ t, exec (.registerWrite o a v) s = .next (faulted o t) ∧ Denied 1 s t ∧
      (if (msixTableAt a.toNat).isSome ∨ (msixPbaAt a.toNat).isSome then t.tansyQ = s.tansyQ
        else ∃ r, t.tansyQ = s.tansyQ ++ [r] ∧ r.kind = kPERMDENY ∧ r.origin = o.toNat ∧ r.addr = a.toNat ∧ r.new = v) := by
  have hwrite := vetchWrite_refused (v := v) hcd (mailboxAt_eq_false hmail) halign hpair hmay
  obtain ⟨hdenied, hlog⟩ := refuseAccess_spec o.toNat a.toNat true v (cdGone_of_cdDown hcd) hpair hroom
  refine ⟨_, ?_, hdenied, ?_⟩
  · change Host.Outcome.next (originWrite o.toNat a.toNat v s).2 = _
    unfold originWrite faulted
    rw [hbus]
    simp only [Bool.not_true, Bool.false_eq_true, if_false]
    by_cases ho : o.toNat < 256
    · rw [if_pos ho, if_pos ho, engineWrite, State.vetchOff, hcd, if_neg Bool.false_ne_true, hwrite]
      rfl
    · rw [if_neg ho, if_neg ho, hwrite]
  · cases hT : msixTableAt a.toNat <;> cases hP : msixPbaAt a.toNat <;> simpa [hT, hP] using hlog

theorem refusedRead_complete {o : Origin} {a : RegAddr} (hcd : s.cdDown = false) (hbus : s.busOn o.toNat = true) (halign : a.toNat % 4 = 0)
    (hmail : ¬ (0x40000 ≤ a.toNat ∧ a.toNat < 0x44000)) (hpair : (s.org o.toNat).pair = none) (hmay : s.mayAccess o.toNat a.toNat false = false)
    (hres : o.toNat < 256 → reservedAt a.toNat = false) :
    ∃ t, exec (.registerReadClear o a) s = .next ((faulted o t).emit (.readData o.toNat a.toNat 0)) ∧ Denied 1 s t ∧
      t.tansyQ = s.tansyQ := by
  have hread := vetchRead_refused hcd (mailboxAt_eq_false hmail) halign hpair hmay
  have hrefuse : refuseAccess o.toNat a.toNat false 0 s = countRefusal s := by
    unfold refuseAccess
    dsimp only
    rw [hpair]
    rfl
  rw [hrefuse] at hread
  obtain ⟨hdenied, hq⟩ := countRefusal_spec s
  refine ⟨_, ?_, hdenied, hq⟩
  change Host.Outcome.next (readOut o.toNat a.toNat s) = _
  unfold readOut faulted
  rw [State.vetchOff, hcd, hbus, Bool.not_true, Bool.false_or, if_neg Bool.false_ne_true]
  by_cases ho : o.toNat < 256
  · rw [if_pos ho, if_pos ho, engineRead, State.vetchOff, hcd, if_neg Bool.false_ne_true, raccAddr, mailboxAt_eq_false hmail, hres ho,
      Bool.or_false, if_neg Bool.false_ne_true, hread]
    rfl
  · rw [if_neg ho, if_neg ho, hread]
    rfl

/-- An engine reaches no mailbox and no reserved address (R304, R310). -/
theorem engineAccess_faults {o : Origin} {a : RegAddr} (hcd : s.cdDown = false) (ho : o.toNat < 256)
    (haddr : 0x40000 ≤ a.toNat ∧ a.toNat < 0x44000 ∨ reservedAt a.toNat = true) :
    (0x40000 ≤ a.toNat ∧ a.toNat < 0x44000 → exec (.registerWrite o a v) s = .next (handlerFault o.toNat fRACC s)) ∧
      exec (.registerReadClear o a) s = .next ((handlerFault o.toNat fRACC s).emit (.readData o.toNat a.toNat 0)) := by
  have hbus : s.busOn o.toNat = true := by
    have hne : o.toNat ≠ oPcie := by
      change o.toNat ≠ 256
      omega
    simp [State.busOn, hne]
  refine ⟨fun hmail => ?_, ?_⟩
  · have hm : mailboxAt a.toNat = true := by simpa [mailboxAt] using hmail
    change Host.Outcome.next (originWrite o.toNat a.toNat v s).2 = _
    have hwrite : vetchWrite o.toNat a.toNat v s = (true, s) := by simp [vetchWrite, State.vetchOff, hcd, hm, ho]
    rw [originWrite, hbus, Bool.not_true, if_neg Bool.false_ne_true, if_pos ho, engineWrite, State.vetchOff, hcd, if_neg Bool.false_ne_true, hwrite]
    rfl
  · have hracc : raccAddr a.toNat = true := by
      obtain h | h := haddr
      · simp [raccAddr, mailboxAt, h]
      · simp [raccAddr, h]
    change Host.Outcome.next (readOut o.toNat a.toNat s) = _
    rw [readOut, State.vetchOff, hcd, hbus, Bool.not_true, Bool.false_or, if_neg Bool.false_ne_true, if_pos ho, engineRead, State.vetchOff, hcd,
      if_neg Bool.false_ne_true, hracc, if_pos rfl]
    rfl

/-! ### Reserved addresses (R304) -/

theorem rsvdViolation_spec (o a : ℕ) (v : Word) (hgone : s.cdGone = false) (hroom : s.tansyQ.length < 256) :
    (rsvdViolation o a 0 v s).isSet VETCH_STAT.RSVD_SEEN = true ∧
      (rsvdViolation o a 0 v s).tansyQ = s.tansyQ ++ [⟨s.mcount, o, kRSVDWR, a, 0, v, 0⟩] ∧
      RegsKept [RegId.VETCH_STAT.at] s (rsvdViolation o a 0 v s) ∧ Kept [.regs, .tansyQ] s (rsvdViolation o a 0 v s) := by
  unfold rsvdViolation
  have hx : Frame (.ofRegs [.VETCH_STAT]) s (s.put VETCH_STAT.RSVD_SEEN 1) := .put .refl
  have hseen : (s.put VETCH_STAT.RSVD_SEEN 1).isSet VETCH_STAT.RSVD_SEEN = true := isSet_put_one _ _ (by decide)
  generalize s.put VETCH_STAT.RSVD_SEEN 1 = x at *
  have hq := hx.part .tansyQ (by decide)
  rw [log_eq (hx.cdGone.trans hgone) (by rw [hq]; exact hroom), hx.mcount, hq]
  generalize s.tansyQ ++ [⟨s.mcount, o, kRSVDWR, a, 0, v, 0⟩] = q
  have hy : Frame (.ofParts [.tansyQ]) x { x with tansyQ := q } := .withTansyQ .refl
  have hall : Frame (.join [.ofParts [.tansyQ], .ofRegs [.VETCH_STAT]]) s { x with tansyQ := q } := (hx.mono (by decide)).lift (by decide) hy
  exact ⟨hy.isSet.trans hseen, rfl, hall.regsKept [.VETCH_STAT], hall.kept⟩

theorem reservedWrite_complete {o : Origin} {a : RegAddr} (hcd : s.cdDown = false) (hbus : s.busOn o.toNat = true)
    (hmail : ¬ (0x40000 ≤ a.toNat ∧ a.toNat < 0x44000)) (hres : reservedAt a.toNat = true) (hpair : (s.org o.toNat).pair = none)
    (hmay : s.mayAccess o.toNat a.toNat true = true) (hroom : s.tansyQ.length < 256) :
    ∃ t, exec (.registerWrite o a v) s = .next (faulted o t) ∧ t.isSet VETCH_STAT.RSVD_SEEN = true ∧
      t.tansyQ = s.tansyQ ++ [⟨s.mcount, o.toNat, kRSVDWR, a.toNat, 0, v, 0⟩] ∧ RegsKept [RegId.VETCH_STAT.at] s t ∧
      Kept [.regs, .tansyQ] s t := by
  have htick : pairTick o.toNat a.toNat true v s = s := by simp [pairTick, hpair]
  have hlink := linkRefused_of_mayAccess hmay
  have hwrite : vetchWrite o.toNat a.toNat v s = (false, rsvdViolation o.toNat a.toNat 0 v s) := by
    by_cases halign : a.toNat % 4 = 0
    · have hlt := a.isLt
      obtain ⟨⟨⟨hreg, hT⟩, hP⟩, hC⟩ : (((regOf (baseOf a.toNat) = none ∧ msixTableAt a.toNat = none) ∧ msixPbaAt a.toNat = none) ∧
          ctxOffset a.toNat = none) := by
        have hle : ¬ (0x4000000 ≤ a.toNat) := by omega
        simpa [reservedAt, halign, hle] using hres
      simp [vetchWrite, State.vetchOff, hcd, mailboxAt_eq_false hmail, htick, hlink, halign, hmay, hT, hP, hC, registerWrite, hreg, reservedWrite]
    · simp [vetchWrite, State.vetchOff, hcd, mailboxAt_eq_false hmail, htick, hlink, halign, reservedWrite]
  obtain ⟨hseen, hlog, hregs, hkept⟩ := rsvdViolation_spec o.toNat a.toNat v (cdGone_of_cdDown hcd) hroom
  refine ⟨_, ?_, hseen, hlog, hregs, hkept⟩
  change Host.Outcome.next (originWrite o.toNat a.toNat v s).2 = _
  unfold originWrite faulted
  rw [hbus, Bool.not_true, if_neg Bool.false_ne_true]
  by_cases ho : o.toNat < 256
  · rw [if_pos ho, if_pos ho, engineWrite, State.vetchOff, hcd, if_neg Bool.false_ne_true, hwrite, raccAddr, hres, Bool.or_true]
    rfl
  · rw [if_neg ho, if_neg ho, hwrite]

/-! ### Alias views (R302, R323) -/

/-- The alias views of a register stand in its page. -/
structure AliasAt (x a view : ℕ) : Prop where
  eq : x = a + 0x1000 * view
  low : a < 0x02000000
  page : a % 0x4000 < 0x1000
  outside : ¬ (0x360000 ≤ a ∧ a < 0x364000)
  view : 1 ≤ view ∧ view ≤ 3

theorem AliasAt.base {x view : ℕ} (h : AliasAt x a view) : baseOf x = a := by
  obtain ⟨rfl, hlow, hpage, hout, hlo, hhi⟩ := h
  unfold baseOf
  rw [if_neg (by simp only [Bool.and_eq_true, decide_eq_true_eq]; omega), if_pos (by omega)]
  omega

theorem AliasAt.index {x view : ℕ} (h : AliasAt x a view) : (x - a) / 0x1000 = view := by
  rw [h.eq]
  omega

theorem mayAccess_alias {x view : ℕ} {w : Bool} (h : AliasAt x a view) (ha : baseOf a = a) : s.mayAccess o x w = s.mayAccess o a w := by
  have hblock : blockOf x = blockOf a := by rw [blockOf, blockOf, h.base, ha]
  rw [State.mayAccess, State.mayAccess, hblock]

/-- A served write through an alias view. -/
theorem vetchWrite_alias {x view : ℕ} (h : Served s o a true) (hx : AliasAt x a view) (hr : regOf a = some r) (hbar : s.testBarred o r = false) :
    vetchWrite o x v s = (false, aliasWrite o r a view v s) := by
  have htick : pairTick o x true v s = s := by simp [pairTick, h.pair]
  have hmay : s.mayAccess o x true = true := by rw [mayAccess_alias hx h.base, h.may]
  have hne : x ≠ a := by rw [hx.eq]; have := hx.view; omega
  have hreg : registerWrite o x v s = (false, aliasWrite o r a view v s) := by
    simp [registerWrite, hx.base, hr, hbar, h.free, hne, h.thawed rfl, hx.index]
  have hmail : mailboxAt x = false := by
    have hm := h.noMail
    simp only [mailboxAt, Bool.and_eq_false_iff, decide_eq_false_iff_not] at hm ⊢
    have := hx.eq; have := hx.view; have := hx.page
    omega
  have hT : msixTableAt x = none := by
    have hm := h.noMsix
    simp only [msixTableAt, Bool.and_eq_true, decide_eq_true_eq, ite_eq_right_iff, reduceCtorEq, imp_false] at hm ⊢
    have := hx.eq; have := hx.view; have := hx.page
    omega
  have hP : msixPbaAt x = none := by
    simp only [msixPbaAt, Bool.and_eq_true, decide_eq_true_eq, ite_eq_right_iff, reduceCtorEq, imp_false]
    have := hx.eq; have := hx.view; have := hx.page
    omega
  have hC : ctxOffset x = none := by
    simp only [ctxOffset, Bool.and_eq_true, decide_eq_true_eq, ite_eq_right_iff, reduceCtorEq, imp_false]
    have := hx.eq; have := hx.view; have := hx.page; have := hx.low
    omega
  have halign : x % 4 = 0 := by
    have := h.aligned; have := hx.eq
    omega
  simp [vetchWrite, h.on, hmail, htick, linkRefused_of_mayAccess hmay, halign, hmay, hT, hP, hC, hreg]

/-- An engine's access through an alias view of a register is no refused one. -/
theorem raccAddr_alias {x view : ℕ} (h : Served s o a true) (hx : AliasAt x a view) (hr : regOf a = some r) : raccAddr x = false := by
  have hm := h.noMail
  have halign := h.aligned
  have := hx.eq; have := hx.view; have := hx.page; have := hx.low
  simp only [raccAddr, reservedAt, hx.base, hr, mailboxAt, Bool.or_eq_false_iff, Bool.and_eq_false_iff, decide_eq_false_iff_not,
    Option.isNone_some, Bool.false_and, bne_eq_false_iff_eq] at hm ⊢
  refine ⟨by omega, ⟨by omega, by omega⟩, trivial⟩

theorem originWrite_alias {x view : ℕ} (h : Served s o a true) (hx : AliasAt x a view) (hr : regOf a = some r) (hbar : s.testBarred o r = false) :
    (originWrite o x v s).2 = aliasWrite o r a view v s := by
  rw [originWrite, h.bus, Bool.not_true, if_neg Bool.false_ne_true]
  by_cases ho : o < 256
  · rw [if_pos ho, engineWrite, h.on, if_neg Bool.false_ne_true, vetchWrite_alias h hx hr hbar, raccAddr_alias h hx hr]
    rfl
  · rw [if_neg ho, vetchWrite_alias h hx hr hbar]

/-- The bits that a write through an alias view names have changed. -/
def aliasStored (a view : ℕ) (bits : Word) (s : State) : State :=
  if bits = 0 then s else s.setReg a (aliasWord view (s.reg a) bits)

/-- The latched bits whose cause has gone are clear after a write of the clear view (R309). -/
def aliasCleared (r : RegAt) (a view : ℕ) (v : Word) (s : State) : State :=
  if view = 2 then if (s.rccClears r (s.view r a) v.toNat).1 = 0 then s else clearBits a (s.rccClears r (s.view r a) v.toNat).1 s else s

theorem hooked_rows : (regAll.all fun q => hooked q || decide ((regRow q).pw = 0)) = true := by decide +kernel

theorem pw_of_plain (h : hooked r.id = false) : (regRow r.id).pw = 0 := by
  have := List.all_eq_true.mp hooked_rows r.id (mem_regAll _)
  simpa [h] using this

theorem ownedNow_of_plain (h : hooked r.id = false) : s.ownedNow r = false := by
  have hne : r.id ≠ .TB_SLEW := by
    intro he
    rw [he] at h
    exact absurd h (by decide)
  simp [State.ownedNow, hne]

/-- The record's kind and view of an alias write (R302, R323). -/
def isPerm (r : RegAt) : Bool := r.id == .PERM_CLASS || r.id == .ORIGIN_CLASS

theorem aliasWrite_plain {view : ℕ} (hplain : hooked r.id = false) (hlock : s.lockedBy r = false ∨ v &&& BitVec.ofNat 32 (regRow r.id).rw = 0) :
    aliasWrite o r a view v s =
      let t := aliasCleared r a view v (aliasStored a view (v &&& BitVec.ofNat 32 (regRow r.id).rw) s)
      t.when (t.reg a != s.reg a) fun t => t.log o (if isPerm r then kPERM else kALIAS) a (s.view r a) (t.view r a) (if isPerm r then 0 else view) := by
  have hring : (r.id != .RING_REL) = true := by
    rw [bne_iff_ne]
    rintro he
    rw [he] at hplain
    exact absurd hplain (by decide)
  have hlocked : (s.lockedBy r && v &&& BitVec.ofNat 32 (regRow r.id).rw != 0) = false := by
    obtain h | h := hlock <;> simp [h]
  unfold aliasWrite
  dsimp only
  rw [pw_of_plain hplain, hlocked, ownedNow_of_plain hplain, hring]
  generalize v &&& BitVec.ofNat 32 (regRow r.id).rw = bits
  simp only [ne_eq, not_true_eq_false, if_false, Bool.or_self, Bool.false_eq_true, Bool.and_true, writeHook_plain hplain,
    afterWrite_plain hplain, ite_self]
  unfold aliasCleared aliasStored
  by_cases hb : bits = 0
  · simp only [hb, if_true]
    rfl
  · simp only [hb, if_false]
    rfl

theorem fieldOf_congr {u w : Word} {lo n : ℕ} (h : ∀ b, lo ≤ b → b < lo + n → u.getLsbD b = w.getLsbD b) : fieldOf u lo n = fieldOf w lo n := by
  refine Nat.eq_of_testBit_eq fun k => ?_
  rw [fieldOf, fieldOf, Nat.testBit_mod_two_pow, Nat.testBit_mod_two_pow, Nat.testBit_div_two_pow, Nat.testBit_div_two_pow]
  by_cases hk : k < n
  · have hb := h (k + lo) (by omega) (by omega)
    simp only [BitVec.getLsbD] at hb
    rw [hb]
  · simp [hk]

/-- What a write through an alias view leaves, its record aside. -/
structure AliasLeaves (r : RegAt) (a : ℕ) (s t : State) : Prop where
  kept : Kept [.regs] s t
  regs : RegsKept [a] s t
  bits : ∀ b, b < 32 → ((regRow r.id).rw ||| (regRow r.id).rcc).testBit b = false → (t.reg a).getLsbD b = (s.reg a).getLsbD b

theorem AliasLeaves.get {u : State} {f : Fld} (h : AliasLeaves r a s u) (hr : regOf a = some r)
    (hrow : ∀ b, f.lo ≤ b → b < f.lo + f.w → b < 32 ∧ ((regRow f.reg).rw ||| (regRow f.reg).rcc).testBit b = false) : u.get f = s.get f := by
  rw [State.get, State.get]
  by_cases hid : r.id = f.reg
  · refine fieldOf_congr fun b hlo hhi => ?_
    obtain ⟨hb, hbit⟩ := hrow b hlo hhi
    by_cases ha : f.reg.at = a
    · rw [ha]
      exact h.bits b hb (hid ▸ hbit)
    · rw [h.regs _ (by simpa using ha)]
  · rw [h.regs _ (by simpa using (ne_at_of_id hr hid 0 0).symm)]

theorem aliasLeaves_stored (a view : ℕ) (s : State) : AliasLeaves r a s (aliasStored a view (v &&& BitVec.ofNat 32 (regRow r.id).rw) s) := by
  unfold aliasStored
  split
  · exact ⟨fun p _ => by cases p <;> rfl, fun _ _ => rfl, fun _ _ _ => rfl⟩
  · have hf : Frame .allRegs s (s.setReg a (aliasWord view (s.reg a) (v &&& BitVec.ofNat 32 (regRow r.id).rw))) := .setRegAny .refl
    refine ⟨hf.kept, fun b hb => State.reg_setReg .. |>.trans (if_neg (by simpa using hb)), fun b hb hbit => ?_⟩
    rw [State.reg_setReg, if_pos rfl]
    have hrw : (regRow r.id).rw.testBit b = false := by
      rw [Nat.testBit_or, Bool.or_eq_false_iff] at hbit
      exact hbit.1
    have hbits : (v &&& BitVec.ofNat 32 (regRow r.id).rw).getLsbD b = false := by
      rw [BitVec.getLsbD_and, BitVec.getLsbD_ofNat, hrw, Bool.and_false, Bool.and_false]
    unfold aliasWord
    split
    · rw [BitVec.getLsbD_or, hbits, Bool.or_false]
    · split
      · rw [BitVec.getLsbD_and, BitVec.getLsbD_not, hbits, decide_eq_true hb]
        simp
      · rw [BitVec.getLsbD_xor, hbits, Bool.xor_false]

theorem aliasLeaves_cleared {u : State} (h : AliasLeaves r a s u) (view : ℕ) (v : Word) : AliasLeaves r a s (aliasCleared r a view v u) := by
  unfold aliasCleared
  split
  · split
    · exact h
    · have hf : Frame .allRegs u (clearBits a (u.rccClears r (u.view r a) v.toNat).1 u) := .clearBits .refl
      refine ⟨fun p hp => ?_, fun b hb => ?_, fun b hb hbit => ?_⟩
      · have h1 := h.kept p hp
        have h2 := hf.kept (ps := [.regs]) (by decide) p hp
        cases p <;> exact Eq.trans h2 h1
      · rw [reg_clearBits_ne (by simpa using hb), h.regs b hb]
      · have hrcc : (regRow r.id).rcc.testBit b = false := by
          rw [Nat.testBit_or, Bool.or_eq_false_iff] at hbit
          exact hbit.2
        rw [getLsbD_clearBits _ _ hb, rccClears_bits, hrcc, h.bits b hb hbit]
        simp
  · exact h

theorem view_withTansyQ (u : State) (q : List LogRec) (r : RegAt) (a : ℕ) : ({ u with tansyQ := q } : State).view r a = u.view r a := rfl

/-- A served write through an alias view of a register without rules of its own. -/
theorem alias_complete {x view : ℕ} (hserves : s.serves o a true = true) (hx : AliasAt x a view) (hr : regOf a = some r) (hplain : hooked r.id = false)
    (hlock : s.lockedBy r = false ∨ v &&& BitVec.ofNat 32 (regRow r.id).rw = 0) (hroom : s.tansyQ.length < 256) :
    ∃ t, (originWrite o x v s).2 = t ∧
      t.reg a = (aliasCleared r a view v (aliasStored a view (v &&& BitVec.ofNat 32 (regRow r.id).rw) s)).reg a ∧
      AliasLogged o a view r s t ∧ RegsKept [a] s t ∧ Kept [.regs, .tansyQ] s t := by
  have hserved := serves_iff.mp hserves
  obtain ⟨hA, hB⟩ := not_paired hplain
  have hbar : s.testBarred o r = false := by
    have hTA : r.id ≠ .TEST_CTRL_A := by rintro e; rw [e] at hA; cases hA
    have hTB : r.id ≠ .TEST_CTRL_B := by rintro e; rw [e] at hB; cases hB
    simp [State.testBarred, hTA, hTB]
  refine ⟨_, (originWrite_alias hserved hx hr hbar).trans (aliasWrite_plain hplain hlock), ?_⟩
  have hleaves : AliasLeaves r a s (aliasCleared r a view v (aliasStored a view (v &&& BitVec.ofNat 32 (regRow r.id).rw) s)) :=
    aliasLeaves_cleared (aliasLeaves_stored a view s) view v
  dsimp only
  generalize aliasCleared r a view v _ = u at *
  have hchip : u.get CHIP_STAT.LOST = s.get CHIP_STAT.LOST := hleaves.get hr (by decide)
  have hmaster : u.get TB_STAT.MASTER = s.get TB_STAT.MASTER := hleaves.get hr (by decide)
  have huq : u.tansyQ = s.tansyQ := hleaves.kept .tansyQ (by simp)
  unfold State.when AliasLogged
  by_cases heq : u.reg a = s.reg a
  · rw [if_neg (by simp [heq])]
    refine ⟨rfl, ?_, hleaves.regs, fun p hp => hleaves.kept p fun h => hp (by simp at h; simp [h])⟩
    dsimp only
    rw [if_pos heq, List.append_nil, huq]
  · rw [if_pos (by simpa using heq)]
    beta_reduce
    rw [log_of_kept hleaves.kept hchip hmaster (cdGone_of_cdDown hserved.on) hroom]
    generalize hq : s.tansyQ ++ [(⟨s.mcount, o, if isPerm r then kPERM else kALIAS, a, s.view r a, u.view r a, if isPerm r then 0 else view⟩ : LogRec)] = q
    have hf : Frame (.ofParts [.tansyQ]) u { u with tansyQ := q } := .withTansyQ .refl
    have hfq : ({ u with tansyQ := q } : State).tansyQ = q := rfl
    have hview := view_withTansyQ u q r a
    generalize ({ u with tansyQ := q } : State) = z at *
    have hreg (b : ℕ) : z.reg b = u.reg b := by rw [State.reg, hf.part .regs (by decide), ← State.reg]
    refine ⟨hreg a, ?_, fun b hb => (hreg b).trans (hleaves.regs b hb), fun p hp => ?_⟩
    · dsimp only
      rw [hreg, if_neg heq, hview, hfq, ← hq]
      rfl
    · have h1 := hleaves.kept p fun h => hp (by simp at h; simp [h])
      have h2 := hf.kept (ps := [.regs, .tansyQ]) (by decide) p hp
      cases p <;> exact Eq.trans h2 h1

/-- A family without latched bits has none to clear. -/
theorem aliasCleared_of_unlatched {view : ℕ} (h : (regRow r.id).rcc = 0) (u : State) : aliasCleared r a view v u = u := by
  have hzero : (u.rccClears r (u.view r a) v.toNat).1 = 0 := by
    refine Nat.eq_of_testBit_eq fun b => ?_
    rw [rccClears_bits, h]
    simp
  unfold aliasCleared
  rw [hzero, if_pos rfl, ite_self]

theorem reg_aliasStored (a view : ℕ) (bits : Word) (s : State) : (aliasStored a view bits s).reg a = aliasWord view (s.reg a) bits := by
  unfold aliasStored
  split
  · next h =>
    rw [h, aliasWord]
    split
    · simp
    · split
      · rw [show ~~~(0 : Word) = BitVec.allOnes 32 from rfl, BitVec.and_allOnes]
      · simp
  · rw [State.reg_setReg, if_pos rfl]

theorem aliasAt {a : RegAddr} {view : ℕ} (hlow : a.toNat < 0x02000000) (hpage : a.toNat % 0x4000 < 0x1000)
    (hout : ¬ (0x360000 ≤ a.toNat ∧ a.toNat < 0x364000)) (hview : 1 ≤ view ∧ view ≤ 3) : AliasAt (a.toNat + 0x1000 * view) a.toNat view :=
  ⟨rfl, hlow, hpage, hout, hview⟩

/-- Settles O55, by the access: a write, a read, a refusal, a reserved address, an alias view. -/
theorem registerAccessesComplete : Obligations.RegisterAccessesComplete := by
  refine ⟨?_, ?_, ?_, ?_, ?_, ?_, ?_, ?_, ?_, ?_⟩
  · intro o a v id i j s ha hr hplain hperm horigin hwo h
    obtain ⟨t, hexec, hreg, hlog, hregs, hkept⟩ := write_complete ha hr hplain h
    have hclean := (Bool.and_eq_true_iff.mp h).2
    rw [← ha] at hclean
    have hkind : writeKind s ⟨id, i, j⟩ a.toNat v = kWRITE := by simp [writeKind, hwo, hperm, horigin]
    rw [hkind] at hlog
    refine ⟨t, hexec, ?_, hlog, hregs, hkept⟩
    rw [hreg, writtenWord, writable_of_clean hclean, written, ha]
    rfl
  · intro o a v k s ha h
    have hr : regOf a.toNat = some ⟨.PERM_CLASS, k, 0⟩ := by
      rw [ha]
      exact regOf_at .PERM_CLASS k 0 k.isLt (by decide) rfl
    obtain ⟨t, hexec, hreg, hlog, hregs, hkept⟩ := write_complete ha hr (by decide) h
    obtain ⟨hserves, hclean⟩ := Bool.and_eq_true_iff.mp h
    rw [← ha] at hserves hclean
    have hview : s.view ⟨.PERM_CLASS, k, 0⟩ a.toNat = s.reg a.toNat := by
      rw [State.view, badAt_of_thawed ((serves_iff.mp hserves).thawed rfl)]
      rfl
    rw [writtenWord_eq hclean hview (by dsimp only; decide)] at hreg
    exact ⟨t, hexec, hreg, hlog, hregs, hkept⟩
  · intro o a v s hcd hbus halign hmail hpair hmay hroom
    exact refusedWrite_complete hcd hbus halign hmail hpair hmay hroom
  · intro o a id i j s _ hr hzero h
    exact read_complete hr hzero h
  · intro o a id i j s _ hr hzero h
    exact readZero_complete hr hzero h
  · intro o a s hcd hbus halign hmail hpair hmay hres
    exact refusedRead_complete hcd hbus halign hmail hpair hmay hres
  · intro o a v s hcd ho haddr
    exact engineAccess_faults hcd ho haddr
  · intro o a v s hcd hbus hmail hres hpair hmay hroom
    exact reservedWrite_complete hcd hbus hmail hres hpair hmay hroom
  · intro o a v id i j s _ hr hlow hpage hout hplain h hlock hroom hrcc
    have hdone (view : ℕ) (hview : 1 ≤ view ∧ view ≤ 3) := alias_complete (v := v) h (aliasAt hlow hpage hout hview) hr hplain (.inl hlock) hroom
    simp only [aliasCleared_of_unlatched (r := ⟨id, i, j⟩) hrcc, reg_aliasStored] at hdone
    refine ⟨?_, ?_, ?_⟩
    · obtain ⟨t, hexec, hreg, h⟩ := hdone 1 (by decide)
      exact ⟨t, congrArg Host.Outcome.next hexec, hreg, h⟩
    · obtain ⟨t, hexec, hreg, h⟩ := hdone 2 (by decide)
      exact ⟨t, congrArg Host.Outcome.next hexec, hreg, h⟩
    · obtain ⟨t, hexec, hreg, h⟩ := hdone 3 (by decide)
      exact ⟨t, congrArg Host.Outcome.next hexec, hreg, h⟩
  · intro o a v id i j s _ hr hlow hpage hout hplain h hroom hrw
    have hbits : v &&& BitVec.ofNat 32 (regRow (RegAt.mk id i j).id).rw = 0 := by
      rw [show (regRow (RegAt.mk id i j).id).rw = 0 from hrw]
      simp
    obtain ⟨t, hexec, hreg, hlog, hregs, hkept⟩ :=
      alias_complete (view := 2) h (aliasAt hlow hpage hout (by decide)) hr hplain (.inr hbits) hroom
    refine ⟨t, congrArg Host.Outcome.next hexec, fun b hb => ?_, hlog, hregs, hkept⟩
    rw [hreg, hbits, aliasStored, if_pos rfl, aliasCleared, if_pos rfl]
    have hclear := rccClears_bits (s := s) (r := ⟨id, i, j⟩) (s.view ⟨id, i, j⟩ a.toNat) v.toNat b
    generalize (s.rccClears ⟨id, i, j⟩ (s.view ⟨id, i, j⟩ a.toNat) v.toNat).1 = m at *
    have hm : m.testBit b = ((regRow id).rcc.testBit b && v.getLsbD b && (s.view ⟨id, i, j⟩ a.toNat).getLsbD b && s.causeGone ⟨id, i, j⟩ b) := by
      rw [hclear, decide_eq_true hb, Bool.true_and]
      rfl
    rw [← hm]
    split
    · next h0 => simp [h0]
    · exact getLsbD_clearBits _ _ hb

end

end Sys2Proof.Proofs

/-! ## Mailboxes (R311 to R313, R320) -/

namespace Sys2Proof.Proofs

set_option Elab.async false

open Sys2Proof Sys2Proof.Machine Sys2Proof.Claims

/-- A part in service whose change log has its staging FIFO full. -/
def fullChangeLog : State := { inService with tansyQ := List.replicate 256 ⟨0, 0, 0, 0, 0, 0, 0⟩ }

/-- The records that the change log owes in the state that a command leaves. -/
def lostRecords : Res → Option ℕ
  | .next t => some t.tansyGap
  | _ => none

/-- A link that is not the admitted upstream one is refused, and the record of its refusal is lost (R322, R327). -/
theorem fullChangeLog_loses : lostRecords (exec (.mailboxSnap 0x110 0) fullChangeLog) = some 1 := by
  decide +kernel

theorem fullChangeLog_owesNone : fullChangeLog.tansyGap = 0 := by
  decide +kernel

/-- Refutes O54: a refused mailbox access changes no register but `VETCH_CNT` and `VETCH_STAT`, it says, but its record meets a full
staging FIFO, is lost, and is counted there (R327). -/
theorem not_mailboxesComplete : ¬ Obligations.MailboxesComplete := by
  unfold Obligations.MailboxesComplete
  rintro ⟨-, -, -, -, -, -, -, -, -, hrefused, -⟩
  obtain ⟨t, hexec, hdenied, -⟩ := hrefused 0x110 0 (.mailboxSnap 0x110 0) fullChangeLog (by simp) (by decide +kernel) (by decide +kernel) (by decide +kernel)
  have hgap : t.tansyGap = fullChangeLog.tansyGap := hdenied.rest .tansyGap (by decide)
  have hlost := fullChangeLog_loses
  rw [hexec] at hlost
  simp [lostRecords, hgap, fullChangeLog_owesNone] at hlost

end Sys2Proof.Proofs

/-! ## Erases of the NVM (R270) -/

namespace Sys2Proof.Proofs

set_option Elab.async false

open Sys2Proof Sys2Proof.Machine Sys2Proof.Claims

/-- A part in service that erases bank A, with a byte of the bank's commit sector programmed. -/
def commitLeft : State := { inService with nvmOp := some ⟨0, none⟩, nvm := [(0x3F0000, 0)] }

/-- A byte of the NVM die in the state that a command leaves. -/
def nvmByteAt (a : ℕ) : Res → Option Byte
  | .next t => some (t.nvmByte a)
  | _ => none

/-- The end of an erase clears the bank up to its commit sector, which the start of one erases (R267, R270). -/
theorem commitLeft_stays : nvmByteAt 0x3F0000 (exec (.nvmEraseDone .done) commitLeft) = some 0 := by
  decide +kernel

/-- Refutes O43: the end of an erase leaves the whole bank erased, it says of every state in which one runs, but the commit sector is
erased at its start, and no hypothesis says that it still is. -/
theorem not_calibrationStoreCompletes : ¬ Obligations.CalibrationStoreCompletes := by
  unfold Obligations.CalibrationStoreCompletes
  rintro ⟨-, -, -, -, -, -, -, -, -, -, -, herase, -⟩
  obtain ⟨t, hexec, -, -, -, herased, -⟩ := herase 0 commitLeft (by decide +kernel) (by decide +kernel) rfl
  have hbyte := herased 0x3F0000
  rw [if_pos (by decide)] at hbyte
  have hleft := commitLeft_stays
  rw [hexec] at hleft
  simp [nvmByteAt, hbyte] at hleft

end Sys2Proof.Proofs

/-! ## Forwarding (R290) -/

namespace Sys2Proof.Proofs

set_option Elab.async false

open Sys2Proof Sys2Proof.Machine Sys2Proof.Claims

/-- A part that forwards queue 0 to worker 0 while it is itself admitted upward, and whose queue holds two items of one sequence: one
that has ended and is owed to a manager, and one that waits. -/
def twoOfOneSequence : State :=
  let s := ((((inService.put RY_GSTAT.TOP 1).put RY_GSTAT.ADMITTED 1).put FWD_CFG.EN 1 0).put QD_CTRL.EN 1 0).put QD_CTRL.HOSTQ 1 0
  let s := ((s.put WT_STAT.STATE 3 0).put RY_STAT.STATE lsUp 0).put RY_CFG.ROLE 2 0
  s.setQueue 0 { s.queue 0 with items := [{ seq := 1, st := .ended, mseq := some 1 }, { seq := 1 }], nextSeq := 2 }

/-- The number of frames and pin changes that the part has driven out in the state that a command leaves. -/
def drivenOut : Res → Option ℕ
  | .next t => some t.outs.length
  | _ => none

/-- The take completes the first item of its sequence, whose DONE goes out before the SUBMIT (R290, R292). -/
theorem twoOfOneSequence_reports : drivenOut (exec (.forwarderTake 0) twoOfOneSequence) = some 2 := by
  decide +kernel

theorem twoOfOneSequence_quiet : twoOfOneSequence.outs.length = 0 := by
  decide +kernel

theorem twoOfOneSequence_known : (twoOfOneSequence.fwdSt 0).fresh = false := by
  decide +kernel

theorem twoOfOneSequence_head : twoOfOneSequence.headItem (twoOfOneSequence.get FWD_CFG.FQ 0) = some { seq := 1 } := by
  decide +kernel

/-- Refutes O48: a take sends SUBMIT, after a RESYNC where the entry is fresh, and nothing else, it says of every state, but an item of
the same sequence that is owed to a manager completes with it and sends its DONE. -/
theorem not_forwardingCompletes : ¬ Obligations.ForwardingCompletes := by
  unfold Obligations.ForwardingCompletes
  rintro ⟨-, -, -, -, htake, -⟩
  obtain ⟨t, hexec, hsent, -⟩ := htake 0 _ 0 twoOfOneSequence (by decide +kernel) (by decide +kernel) (by decide +kernel)
    (by decide +kernel) (by decide +kernel) (by decide +kernel) (by decide +kernel) (by decide +kernel) (by decide +kernel)
    (by decide +kernel) (by decide +kernel) twoOfOneSequence_head (by decide +kernel)
  obtain ⟨floor, houts⟩ := hsent rfl (by decide +kernel)
  have hlength := congrArg List.length houts
  have hfresh : (twoOfOneSequence.fwdSt ((0 : Fin 1024) : ℕ)).fresh = false := twoOfOneSequence_known
  rw [hfresh, if_neg (by decide), List.append_nil, List.length_append, twoOfOneSequence_quiet, List.length_singleton] at hlength
  have hreport := twoOfOneSequence_reports
  rw [hexec] at hreport
  simp [drivenOut, hlength] at hreport

end Sys2Proof.Proofs

/-! ## Links of Ryrel (R276 to R285)

What a link does with a frame that it hears, what sending leaves, and the state in which a link that loses its peer stands. -/

namespace Sys2Proof.Proofs

set_option Elab.async false

open Sys2Proof Sys2Proof.Machine Sys2Proof.Claims

/-- On a chiplet that works an event acts. -/
theorem actOn_alive {n : ℕ} {s : State} (h : alive n s) (f : State → State) : actOn n f s = .next (f s) := by
  obtain ⟨hcold, hdead⟩ := h
  simp [actOn, hcold, hdead]

theorem Frame.linkState {w : Scope} {s t : State} (h : Frame w s t) (l : ℕ) (hr : w.hasReg .RY_STAT = false := by decide) :
    t.linkState l = s.linkState l := h.get hr

section

variable {l k type dst src : ℕ} {s : State} {f : RyFrame} {p : List Byte} {body : State → State}

/-! ### Frames (R276, R277) -/

/-- The state in which a link has taken the reliable frame that it waits for. -/
def took (l : ℕ) (s : State) : State :=
  s.setLnk l { s.lnk l with rxNext := ((s.lnk l).rxNext + 1) % 65536, rxSeen := true }

theorem took_frame : Frame Frame.Scope.setLnk s (took l s) := .setLnk .refl

theorem lnk_took : (took l s).lnk l = { s.lnk l with rxNext := ((s.lnk l).rxNext + 1) % 65536, rxSeen := true } := by
  rw [took, State.lnk_setLnk, if_pos rfl]

theorem lnk_took_ne (h : k ≠ l) : (took l s).lnk k = s.lnk k := by
  rw [took, State.lnk_setLnk, if_neg h]

/-- A whole frame of a type that is not reliable acts. -/
theorem receive_plain (h : Hears l type f s) (ht : reliableType type = false := by decide) (hl : listedType type = true := by decide) :
    receive l type f body s = body s := by
  unfold receive
  dsimp only
  simp [h.locked, h.chip, h.whole, h.typed, hl, ht]

/-- A reliable frame in order is taken, and acts while the control die works. -/
theorem receive_reliable (h : Hears l type f s) (ht : reliableType type = true := by decide) :
    receive l type f body s = body (took l s) := by
  obtain ⟨hcd, hseq⟩ := h.order ht
  have hl : listedType type = true := by rw [listedType, ht, Bool.true_or]
  simp [receive, h.locked, h.chip, h.whole, h.typed, hl, ht, hseq, State.when, hcd, took]

/-- A frame that is not reliable goes out, and nothing else happens. -/
theorem sendFrom_plain (ht : reliableType type = false) (h : lsDiscover ≤ s.linkState l) :
    sendFrom l type dst src p s = s.emit (frameOut l type 0 dst src p) := by
  unfold sendFrom
  rw [if_neg (by omega), ht]
  rfl

/-- A reliable frame goes out with the next number, and is kept. -/
theorem sendFrom_outs (h : lsDiscover ≤ s.linkState l) : (sendFrom l type dst src p s).outs =
    s.outs ++ [frameOut l type (if reliableType type then (s.lnk l).txNext else 0) dst src p] := by
  unfold sendFrom
  rw [if_neg (by omega)]
  cases reliableType type <;> rfl

/-! ### The state of a link -/

theorem linkState_setLinkState {st : ℕ} (h : st < 16) : (setLinkState l st s).linkState l = st :=
  get_put_lt l 0 (by decide) h

theorem linkState_setLinkState_ne {st : ℕ} (hl : l < 16) (hk : k < 16) (h : l ≠ k) :
    (setLinkState k st s).linkState l = s.linkState l :=
  State.get_put_index _ _ _ _ _ _ _ _ (RegId.at_ne_self _ _ _ _ _ hl (by decide) hk (by decide) (.inl h))

/-- The link that takes over was the standby, so any other stays as it was. -/
theorem linkState_takeOver (hl : l < 16) (h : s.linkState l ≠ lsStandby) : (takeOver s).linkState l = s.linkState l := by
  unfold takeOver
  split
  · rfl
  · next k hfind =>
    have hk : k < 16 := List.mem_range.mp (List.mem_of_find?_eq_some hfind)
    have hstand : s.linkState k = lsStandby := by
      have hp := List.find?_some hfind
      simp only [Bool.and_eq_true, beq_iff_eq] at hp
      exact hp.2
    have hne : l ≠ k := by
      rintro rfl
      exact h hstand
    have hmarks : Frame Frame.Scope.setLnk s
        (forBelow 16 (fun k s => s.when (s.role k == 2) fun s => s.setLnk k { s.lnk k with demoted := true }) s) :=
      .forBelow (fun _ _ h => .when (fun h => .setLnk h) h) .refl
    dsimp only
    rw [Frame.linkState (.sendFrame .refl : Frame Frame.Scope.sendFrame _ _), linkState_setLinkState_ne hl hk hne,
      Frame.linkState (.cdlyLinkLost .refl : Frame Frame.Scope.cdlyLinkLost _ _), Frame.linkState (.setLnk .refl : Frame Frame.Scope.setLnk _ _),
      Frame.linkState (.put .refl : Frame (.ofRegs [.RY_CFG]) _ _), hmarks.linkState]

/-- An orphan follows no upstream link any more. -/
def forsaken (s : State) : State :=
  { ({ s with tb := { s.tb with slewReq := none } } : State) with ry := { s.ry with want := none, msg := none } }

theorem forsaken_frame (s : State) : Frame (.ofParts [.tb, .ry]) s (forsaken s) := .withRy (.withTb .refl)

theorem orphan_eq (k : ℕ) (s : State) : orphan k s = if s.isAdmitted = true then
    takeOver (forsaken ((((s.put RY_GSTAT.ADMITTED 0).put RY_GSTAT.ORPHAN_SEEN 1).raise 361).put RY_TT.TT_ST 4 k)) else s := rfl

theorem linkState_orphan (hl : l < 16) (h : s.linkState l ≠ lsStandby) : (orphan k s).linkState l = s.linkState l := by
  rw [orphan_eq]
  split
  · have hx : Frame (.join [.ofParts [.raising], .ofRegs [.RY_GSTAT, .RY_TT]]) s
      ((((s.put RY_GSTAT.ADMITTED 0).put RY_GSTAT.ORPHAN_SEEN 1).raise 361).put RY_TT.TT_ST 4 k) := .put (.raise (.put (.put .refl)))
    generalize (((s.put RY_GSTAT.ADMITTED 0).put RY_GSTAT.ORPHAN_SEEN 1).raise 361).put RY_TT.TT_ST 4 k = x at *
    have hstate := ((forsaken_frame x).linkState l).trans (hx.linkState l)
    exact (linkState_takeOver hl (by rwa [hstate])).trans hstate
  · rfl

/-- A link whose peer is gone stands in the state that it is to go to, for a standby link takes over only where it stood by before. -/
theorem linkState_peerGone {st : ℕ} {keep : Bool} (hl : l < 16) (h : st < lsStandby) : (peerGone l st keep s).linkState l = st := by
  have hst : st < 16 := h.trans (by decide)
  unfold peerGone
  dsimp only
  split
  · exact linkState_setLinkState hst
  · generalize hu : (State.when _ (!keep) _ : State) = u
    have hstate : u.linkState l = st := by
      rw [← hu]
      have hset := linkState_setLinkState (l := l) (s := s.when (s.linkState l == lsUp || s.linkState l == lsStandby)
        (·.put RY_STAT.DOWN_SEEN 1 l)) hst
      refine (Frame.linkState (w := .join [.ofRegs [.RY_TT], Frame.Scope.setLnk, Frame.Scope.cdlyLinkLost]) ?_ l).trans hset
      exact .when (fun h => .put h) (.when (fun h => .cdlyLinkLost h) (.setLnk .refl))
    split
    · split
      · exact (Frame.linkState (w := Frame.Scope.entryGone) (.forList (fun _ _ h => .entryGone h) .refl) l).trans hstate
      · exact (Frame.linkState (w := Frame.Scope.sendTop) (.when (fun h => .sendTop h) .refl) l).trans hstate
    · split
      · exact (linkState_orphan hl (by rw [hstate]; exact h.ne)).trans hstate
      · exact hstate

/-- A link that loses block lock goes to DOWN, with nothing to resend. -/
theorem linkDown_spec (hl : l < 16) (h : lsTrain ≤ s.linkState l) :
    (linkDown l s).linkState l = lsDown ∧ ((linkDown l s).lnk l).unacked = [] ∧ (linkDown l s).mem = s.mem := by
  have hmem : (linkDown l s).mem = s.mem := Frame.mem (w := Frame.Scope.linkDown) (.linkDown .refl)
  have hnot : ¬(s.linkState l = lsOff || s.linkState l = lsDown) = true := by
    simp only [lsTrain, lsOff, lsDown, Bool.or_eq_true, decide_eq_true_eq] at h ⊢
    omega
  have hdown : linkDown l s = (peerGone l lsDown false (s.bump RY_CNT2.DOWNS l)).setLnk l
      { (peerGone l lsDown false (s.bump RY_CNT2.DOWNS l)).lnk l with unacked := [], keepTt := false } := by
    unfold linkDown
    rw [if_neg hnot]
  have hstate := linkState_peerGone (l := l) (s := s.bump RY_CNT2.DOWNS l) (keep := false) hl (show lsDown < lsStandby by decide)
  generalize peerGone l lsDown false (s.bump RY_CNT2.DOWNS l) = u at hdown hstate
  refine ⟨?_, ?_, hmem⟩
  · rw [hdown]
    exact (Frame.linkState (w := Frame.Scope.setLnk) (.setLnk .refl) l).trans hstate
  · rw [hdown, State.lnk_setLnk, if_pos rfl]

end

/-! ### Acknowledgement (R277) -/

/-- Frames sent in order, and nothing else. -/
theorem forList_emit {α : Type} (g : α → Out) (u : List α) (s : State) :
    forList u (fun x s => s.emit (g x)) s = { s with outs := s.outs ++ u.map g } := by
  induction u generalizing s with
  | nil => simp [forList]
  | cons x u ih => rw [forList_cons, ih]; simp [State.emit]

section

variable {l : LinkIx} {f : RyFrame} {s : State}

theorem lackSend_complete (halive : alive (linkChip l) s) (hseen : (s.lnk l).rxSeen = true) (hlink : lsDiscover ≤ s.linkState l)
    (hchip : s.chipLost (linkChip l) = false) : exec (.lackSend l) s =
      .next (s.emit (frameOut l fLACK 0 0xFF s.ownSrc (leBytes 8 (((s.lnk l).rxNext + 65535) % 65536)))) := by
  refine (actOn_alive halive _).trans (congrArg Host.Outcome.next ?_)
  rw [lackSendS, if_pos (by simp [hseen, hlink, hchip]), sendFrame, sendFrom_plain (by decide) hlink]

theorem rxLack_complete (h : Hears l fLACK f s) : exec (.rxLack l f) s =
    .next (s.setLnk l { s.lnk l with unacked := afterSeq (pfld f.payload 0 2) (s.lnk l).unacked }) := by
  refine (actOn_alive h.alive _).trans (congrArg Host.Outcome.next ?_)
  rw [rxLackS, receive_plain h]

/-- The frames `u` of a link are all that it has to resend, and are counted (R277). -/
def resending (l : ℕ) (u : List TxFrame) (s : State) : State :=
  (s.setLnk l { s.lnk l with unacked := u }).bump RY_CNT.RETX l 0 u.length

theorem resending_frame (l : ℕ) (u : List TxFrame) (s : State) :
    Frame (.join [.ofParts [.links], .ofRegs [.RY_CNT]]) s (resending l u s) := .bump (.setLnk .refl)

theorem lnk_resending (l : ℕ) (u : List TxFrame) (s : State) : (resending l u s).lnk l = { s.lnk l with unacked := u } := by
  rw [resending, State.lnk_bump_keep, State.lnk_setLnk, if_pos rfl]

theorem get_resending (l : ℕ) (u : List TxFrame) (s : State) :
    (resending l u s).get RY_CNT.RETX l = (s.get RY_CNT.RETX l + u.length) % 65536 := by
  rw [resending, State.bump, State.get_put _ _ _ _ _ (by decide)]
  rfl

theorem rxLnak_complete (h : Hears l fLNAK f s) (u : List TxFrame)
    (hu : u = afterSeq ((pfld f.payload 0 2 + 65535) % 65536) (s.lnk l).unacked) :
    ∃ t, exec (.rxLnak l f) s = .next t ∧ t.lnk l = { s.lnk l with unacked := u } ∧
      t.outs = s.outs ++ u.map (fun g => frameOut l g.type g.lseq g.dst g.src g.payload) ∧
      t.get RY_CNT.RETX l = (s.get RY_CNT.RETX l + u.length) % 65536 ∧
      RegsKept [RegId.RY_CNT.at l] s t ∧ Kept [.links, .outs, .regs] s t := by
  have hbody : rxLnakS l f s = forList u (fun g s => s.emit (frameOut l g.type g.lseq g.dst g.src g.payload)) (resending l u s) := by
    rw [rxLnakS, receive_plain h, hu]
    rfl
  have hact := (actOn_alive h.alive (rxLnakS l f)).trans (congrArg Host.Outcome.next (hbody.trans (forList_emit ..)))
  have hkept : Kept [.links, .outs, .regs] s
      (forList u (fun g s => s.emit (frameOut l g.type g.lseq g.dst g.src g.payload)) (resending l u s)) :=
    Frame.kept (w := .join [.ofParts [.links, .outs], .ofRegs [.RY_CNT]])
      (.forList (fun _ _ h => .emit h) ((resending_frame l u s).mono (by decide)))
  rw [forList_emit] at hkept
  have hcount := get_resending l u s
  have hregs : RegsKept [RegId.RY_CNT.at l] s (resending l u s) := .bump (.setLnk .refl)
  have hlnk := lnk_resending l u s
  have houts : (resending l u s).outs = s.outs := (resending_frame l u s).part .outs (by decide)
  generalize resending l u s = v at *
  refine ⟨_, hact, hlnk, congrArg (· ++ _) houts, hcount, hregs.congr rfl, hkept⟩

theorem reliableAckTimeout_complete {g : TxFrame} {rest : List TxFrame} (halive : alive (linkChip l) s)
    (hwait : (s.lnk l).unacked = g :: rest) (hdue : g.at_ + 100 * usTk ≤ s.clock) (hchip : s.chipLost (linkChip l) = false) :
    exec (.reliableAckTimeout l) s = .next (linkDown l s) := by
  refine (actOn_alive halive _).trans (congrArg Host.Outcome.next ?_)
  rw [reliableAckTimeoutS, hwait]
  exact if_pos (by simp [hdue, hchip])

/-- While the control die does not work, the chiplet takes the frame and what it carries is lost. -/
theorem rxEvent_down (halive : alive (linkChip l) s) (hchip : s.chipLost (linkChip l) = false) (hlink : lsDiscover ≤ s.linkState l)
    (htype : f.type.toNat = fEVENT) (hgood : frameGood f = true) (hseq : f.lseq.toNat = (s.lnk l).rxNext) (hdown : s.cdDown = true) :
    exec (.rxEvent l f) s = .next (took l s) := by
  refine (actOn_alive halive _).trans (congrArg Host.Outcome.next ?_)
  have hlisted : listedType fEVENT = true := by decide
  have hreliable : reliableType fEVENT = true := by decide
  simp [rxEventS, receive, hlink, hchip, hgood, htype, hlisted, hreliable, hseq, State.when, hdown, took]

end

/-- Settles O46. -/
theorem reliableFramesComplete : Obligations.ReliableFramesComplete := by
  unfold Obligations.ReliableFramesComplete
  refine ⟨?_, ?_, ?_, ?_, ?_⟩
  · intro l s halive hseen hlink hchip
    exact ⟨_, lackSend_complete halive hseen hlink hchip, rfl, Frame.kept (w := .ofParts [.outs]) (.emit .refl)⟩
  · intro l f s h
    refine ⟨_, rxLack_complete h, ?_, fun k hk => ?_, Frame.kept (w := Frame.Scope.setLnk) (.setLnk .refl)⟩
    · rw [State.lnk_setLnk, if_pos rfl]
    · rw [State.lnk_setLnk, if_neg hk]
  · intro l f s h
    obtain ⟨t, hexec, hlnk, houts, hcount, hregs, hkept⟩ := rxLnak_complete h _ rfl
    exact ⟨t, hexec, ⟨hlnk, houts, hcount⟩, hregs, hkept⟩
  · intro l g rest s halive hwait hdue hchip hlink
    exact ⟨_, reliableAckTimeout_complete halive hwait hdue hchip, linkDown_spec l.isLt hlink⟩
  · intro l f s halive hchip hlink htype hgood hseq hdown
    exact ⟨_, rxEvent_down halive hchip hlink htype hgood hseq hdown, lnk_took, fun k hk => lnk_took_ne hk, took_frame.kept⟩

end Sys2Proof.Proofs

/-! ## Events and register access over Ryrel (R297, R298) -/

namespace Sys2Proof.Proofs

set_option Elab.async false

open Sys2Proof Sys2Proof.Machine Sys2Proof.Claims

/-! ### What frames say of a link -/

section

variable {w : Scope} {s t : State}

theorem Frame.lnk (h : Frame w s t) (l : ℕ) (hp : w.hasPart .links = false := by decide) : t.lnk l = s.lnk l :=
  State.lnk_congr (h.part .links hp) l

theorem Frame.role (h : Frame w s t) (l : ℕ) (hr : w.hasReg .RY_CFG = false := by decide) : t.role l = s.role l := h.get hr

theorem Frame.isTop (h : Frame w s t) (hr : w.hasReg .RY_GSTAT = false := by decide) : t.isTop = s.isTop := h.isSet hr

theorem Frame.ownSrc (h : Frame w s t) (hr : w.hasReg .RY_GSTAT = false := by decide) : t.ownSrc = s.ownSrc := by
  rw [State.ownSrc, State.ownSrc, h.isTop hr, h.get hr]

theorem Frame.forMe (h : Frame w s t) (f : RyFrame) (hr : w.hasReg .RY_GSTAT = false := by decide) : t.forMe f = s.forMe f := by
  rw [State.forMe, State.forMe, h.isTop hr, h.get hr]

theorem Frame.linkRefused (h : Frame w s t) (o : ℕ) (hg : w.hasReg .RY_GSTAT = false := by decide)
    (hc : w.hasReg .RY_CFG = false := by decide) (hs : w.hasReg .RY_STAT = false := by decide) : t.linkRefused o = s.linkRefused o := by
  simp only [State.linkRefused, State.isManagerLink, h.role _ hc, h.linkState _ hs, State.isAdmitted, h.isSet (f := RY_GSTAT.ADMITTED) hg]

end

section

variable {l o a : ℕ} {s t : State} {f : RyFrame} {p : List Byte} {body : State → State} {type : ℕ}

/-- A reliable frame for this part acts here. -/
theorem receive_forMe (h : Hears l type f s) (hme : s.forMe f = true) (ht : reliableType type = true := by decide) :
    receive l type f (Machine.routed type f body) s = body (took l s) := by
  rw [receive_reliable h ht, Machine.routed, took_frame.forMe, hme, if_pos rfl]

/-- A frame of this part's own goes out from a state in which the link, its numbers and the part's own number stand as before. -/
theorem sendFrame_outs {dst : ℕ} (hlink : lsDiscover ≤ s.linkState l) (hstate : t.linkState l = s.linkState l)
    (hnext : (t.lnk l).txNext = (s.lnk l).txNext) (hsrc : t.ownSrc = s.ownSrc) (houts : t.outs = s.outs) (ht : reliableType type = true) :
    (sendFrame l type dst p t).outs = s.outs ++ [frameOut l type (s.lnk l).txNext dst s.ownSrc p] := by
  rw [sendFrame, sendFrom_outs (by rwa [hstate]), if_pos ht, hnext, hsrc, houts]

/-! ### The payload of a frame (R276) -/

theorem leNat_leBytes (n v : ℕ) : leNat (leBytes n v) = v % 256 ^ n := by
  have hdigits (m : ℕ) (k : ℕ) : leNat ((List.range m).map fun i => (BitVec.ofNat 8 (v / 256 ^ (i + k)) : Byte)) = v / 256 ^ k % 256 ^ m := by
    induction m generalizing k with
    | zero => simp [leNat, Nat.mod_one]
    | succ m ih =>
      have hshift : (List.range m).map ((fun i => (BitVec.ofNat 8 (v / 256 ^ (i + k)) : Byte)) ∘ Nat.succ) =
          (List.range m).map fun i => (BitVec.ofNat 8 (v / 256 ^ (i + (k + 1))) : Byte) :=
        List.map_congr_left fun i _ => by simp only [Function.comp_apply, Nat.succ_eq_add_one, Nat.add_assoc, Nat.add_comm 1 k]
      rw [List.range_succ_eq_map, List.map_cons, List.map_map, leNat, hshift, ih (k + 1), Nat.zero_add, BitVec.toNat_ofNat, pow_succ 256 k,
        ← Nat.div_div_eq_div_mul, pow_succ' 256 m, Nat.mod_mul]
  exact (hdigits n 0).trans (by rw [pow_zero, Nat.div_one])

/-- The first field of a payload reads back. -/
theorem pfld_leBytes (n v : ℕ) (p : List Byte) : pfld (leBytes n v ++ p) 0 n = v % 256 ^ n := by
  have hlen : (leBytes n v).length = n := by simp [leBytes]
  rw [pfld, List.drop_zero, List.take_left' hlen, leNat_leBytes]

/-! ### Accesses of a link (R298, R309, R320) -/

/-- A read leaves every field that has no bit that clears on reading. -/
theorem get_readReg {r : RegAt} (hr : regOf a = some r) (g : Fld) {x y : ℕ} (hx : x < (regRow g.reg).n1) (hy : y < (regRow g.reg).n2)
    (h0 : (RegAt.mk g.reg x y).entry0 = false) (hrcc : ∀ b < g.lo + g.w, g.lo ≤ b → (regRow g.reg).rcc.testBit b = false)
    (h32 : g.lo + g.w ≤ 32) (hcnt : g.reg ≠ .VETCH_CNT) : (readReg r a s).2.get g x y = s.get g x y := by
  by_cases hzero : r.id.readsZero = true
  · rw [readReg, if_pos hzero]
  · obtain ⟨hbits, hother⟩ := readReg_leaves (s := s) hr (by simpa using hzero)
    by_cases ha : g.reg.at x y = a
    · have hid : some r = some ⟨g.reg, x, y⟩ := by rw [← hr, ← ha, regOf_at _ _ _ hx hy h0]
      obtain rfl := Option.some.inj hid
      refine fieldOf_congr fun b hlo hhi => ?_
      rw [ha, hbits b (by omega), hrcc b hhi hlo]
      simp
    · rw [State.get, State.get, hother _ ha (RegId.at_ne _ _ _ _ _ _ hcnt) (by simp)]

/-- Vetch refuses a link that is not the admitted upstream one, and only the report changes (R320, R322). -/
theorem vetchRead_unlinked (hcd : s.cdDown = false) (ho : 256 ≤ o) (h : s.linkRefused o = true) :
    ∃ u, vetchRead o a s = (none, u) ∧ Frame (.join [Frame.Scope.pairTick, Frame.Scope.refuseAccess]) s u := by
  have htick : Frame Frame.Scope.pairTick s (pairTick o a false 0 s) := .pairTick .refl
  have hlink : (pairTick o a false 0 s).linkRefused o = true := htick.linkRefused o |>.trans h
  unfold vetchRead
  rw [if_neg (by simp [State.vetchOff, hcd])]
  split
  · rw [if_neg (Nat.not_lt.mpr ho)]
    exact ⟨_, rfl, .refuseAccess .refl⟩
  · dsimp only
    rw [if_pos hlink]
    exact ⟨_, rfl, (htick.mono (by decide)).lift (by decide) (.refuseAccess .refl : Frame Frame.Scope.refuseAccess _ _)⟩

theorem vetchWrite_unlinked {v : Word} (hcd : s.cdDown = false) (ho : 256 ≤ o) (h : s.linkRefused o = true) :
    ∃ u, vetchWrite o a v s = (true, u) ∧ Frame (.join [Frame.Scope.pairTick, Frame.Scope.refuseAccess]) s u := by
  have htick : Frame Frame.Scope.pairTick s (pairTick o a true v s) := .pairTick .refl
  have hlink : (pairTick o a true v s).linkRefused o = true := htick.linkRefused o |>.trans h
  unfold vetchWrite
  rw [if_neg (by simp [State.vetchOff, hcd])]
  split
  · rw [if_neg (Nat.not_lt.mpr ho)]
    exact ⟨_, rfl, .refuseAccess .refl⟩
  · dsimp only
    rw [if_pos hlink]
    exact ⟨_, rfl, (htick.mono (by decide)).lift (by decide) (.refuseAccess .refl : Frame Frame.Scope.refuseAccess _ _)⟩

end

/-! ### The commands -/

section

variable {l : LinkIx} {f : RyFrame} {s : State}

theorem eventForward_complete {src : SourceIx} {k : ℕ} (hcold : s.coldHeld = false) (hcd : s.cdDown = false)
    (hpend : s.ry.evPend.contains src.val = true) (hdue : SMap.get (fun _ => 0) s.ry.evFrom src ≤ s.clock) (hadm : s.isAdmitted = true)
    (hfwd : s.isSet RY_GCFG.EVT_FWD = true) (hup : s.upLink = some k) :
    ∃ t p, exec (.eventForward src) s = .next t ∧ t.ry.evPend = s.ry.evPend.filter (· ≠ src.val) ∧
      SMap.get (fun _ => 0) t.ry.evFrom src = s.clock + usTk ∧
      t.outs = s.outs ++ [frameOut k fEVENT (s.lnk k).txNext 0 s.ownSrc p] ∧ pfld p 0 4 = src.val ∧ Kept [.ry, .links, .outs] s t := by
  have hlink : lsDiscover ≤ s.linkState k := by
    have hp := List.find?_some hup
    simp only [Bool.and_eq_true, decide_eq_true_eq] at hp
    have hge := hp.1.2
    simp only [lsPending, lsDiscover] at hge ⊢
    omega
  let u : State := { s with ry := { s.ry with
    evPend := s.ry.evPend.filter (· ≠ src.val), evFrom := SMap.set (fun _ => 0) s.ry.evFrom src (s.clock + usTk) } }
  let p : List Byte := zeroTo 24 (leBytes 4 src ++ leBytes 4 (SMap.get (fun _ => 0) s.raises src) ++
    leBytes 10 (SMap.get (fun _ => 0) s.raiseTs src))
  have hu : Frame (.ofParts [.ry]) s u := .withRy .refl
  have hupu : u.upLink = some k := hup
  refine ⟨sendFrame k fEVENT 0 p u, p, (act_next hcold _).trans (congrArg Host.Outcome.next ?_), ?_, ?_, ?_, ?_, ?_⟩
  · unfold eventForwardS
    rw [if_pos (by rw [hpend, hcd, decide_eq_true hdue]; rfl)]
    dsimp only
    rw [if_neg (by rw [hu.isSet, hfwd]; simp), if_pos (by rw [State.isAdmitted, hu.isSet]; exact hadm), sendTop, hupu]
  · exact congrArg Ry.evPend ((.sendFrame .refl : Frame Frame.Scope.sendFrame u _).part .ry (by decide))
  · rw [show (sendFrame k fEVENT 0 p u).ry = u.ry from (.sendFrame .refl : Frame Frame.Scope.sendFrame u _).part .ry (by decide)]
    exact SMap.get_set_same (fun _ => 0) s.ry.evFrom src.val (s.clock + usTk)
  · exact sendFrame_outs hlink (hu.linkState k) (by rw [hu.lnk]) hu.ownSrc (hu.part .outs (by decide)) (by decide)
  · have hsrc : src.val < 256 ^ 4 := src.isLt.trans (by decide)
    rw [show p = leBytes 4 src ++ _ from by simp only [p, zeroTo, List.append_assoc]; rfl, pfld_leBytes, Nat.mod_eq_of_lt hsrc]
  · exact Frame.kept (w := .join [.ofParts [.ry], Frame.Scope.sendFrame]) (.sendFrame (.withRy .refl))

theorem rxEvent_complete (h : Hears l fEVENT f s) (hme : s.forMe f = true) :
    ∃ t, exec (.rxEvent l f) s = .next t ∧
      t.wideAt (aWT_EVT f.src.toNat) = pfld f.payload 8 10 + pfld f.payload 0 2 % 512 * 2 ^ 80 + pfld f.payload 4 4 * 2 ^ 96 ∧
      t.raising = s.raising ++ [364] ∧ Kept [.links, .wide, .raising] s t := by
  have hact : exec (.rxEvent l f) s = .next (((took l s).setWide (aWT_EVT f.src.toNat)
      (pfld f.payload 8 10 + pfld f.payload 0 2 % 512 * 2 ^ 80 + pfld f.payload 4 4 * 2 ^ 96)).raise 364) :=
    (actOn_alive h.alive (rxEventS l f)).trans (congrArg Host.Outcome.next (receive_forMe h hme))
  have htook : Frame Frame.Scope.setLnk s (took l s) := took_frame
  generalize pfld f.payload 8 10 + pfld f.payload 0 2 % 512 * 2 ^ 80 + pfld f.payload 4 4 * 2 ^ 96 = v at *
  generalize took l s = u at *
  have hframe : Frame (.ofParts [.links, .wide, .raising]) s ((u.setWide (aWT_EVT f.src.toNat) v).raise 364) :=
    .raise (.setWide (htook.mono (by decide)))
  refine ⟨_, hact, ?_, ?_, hframe.kept⟩
  · exact SMap.get_set_same ..
  · exact congrArg (· ++ [364]) (htook.part .raising (by decide))

/-- A request of a link that is not the admitted upstream one is refused, and answered so (R298, R320). -/
theorem rxRreq_refused (h : Hears l fRREQ f s) (hme : s.forMe f = true) (hlink : s.isManagerLink l = false) :
    ∃ t, exec (.rxRreq l f) s = .next t ∧
      t.outs = s.outs ++ [frameOut l fRRSP (s.lnk l).txNext 0 s.ownSrc (leBytes 4 0 ++ leBytes 1 2 ++ leBytes 3 (pfld f.payload 9 1))] ∧
      t.mem = s.mem := by
  have hcd : (took l s).cdDown = false := took_frame.cdDown.trans (h.order (by decide)).1
  have hrefused : (took l s).linkRefused (0x110 + l) = true := by
    have hl := l.isLt
    rw [took_frame.linkRefused, State.linkRefused, Nat.add_sub_cancel_left, hlink]
    simp only [Bool.and_eq_true, decide_eq_true_eq, Bool.not_false, and_true]
    omega
  have hanswer {u : State} (hu : Frame (.join [Frame.Scope.pairTick, Frame.Scope.refuseAccess]) (took l s) u) (p : List Byte) :
      (sendFrame l fRRSP 0 p u).outs = s.outs ++ [frameOut l fRRSP (s.lnk l).txNext 0 s.ownSrc p] ∧ (sendFrame l fRRSP 0 p u).mem = s.mem := by
    have hall : Frame (.join [Frame.Scope.setLnk, Frame.Scope.pairTick, Frame.Scope.refuseAccess]) s u :=
      (took_frame.mono (by decide)).lift (by decide) hu
    refine ⟨sendFrame_outs h.locked (hall.linkState l) ?_ hall.ownSrc (hall.part .outs (by decide)) (by decide), ?_⟩
    · rw [hu.lnk, lnk_took]
    · exact ((.sendFrame .refl : Frame Frame.Scope.sendFrame u _).mem).trans hall.mem
  have hact := (actOn_alive h.alive (rxRreqS l f)).trans (congrArg Host.Outcome.next (receive_forMe h hme))
  by_cases hwrite : pfld f.payload 8 1 % 2 = 1
  · obtain ⟨u, hu, hframe⟩ := vetchWrite_unlinked (a := pfld f.payload 0 4) (v := BitVec.ofNat 32 (pfld f.payload 4 4)) hcd (by omega) hrefused
    simp only [if_pos hwrite, hu] at hact
    exact ⟨_, hact, hanswer hframe _⟩
  · obtain ⟨u, hu, hframe⟩ := vetchRead_unlinked (a := pfld f.payload 0 4) hcd (by omega) hrefused
    simp only [if_neg hwrite, hu] at hact
    exact ⟨_, hact, hanswer hframe _⟩

/-- A read that Vetch serves is answered with the register's word. -/
theorem rxRreq_served {r : RegAt} (h : Hears l fRREQ f s) (hme : s.forMe f = true) (hread : pfld f.payload 8 1 % 2 = 0)
    (hserves : s.serves (0x110 + l) (pfld f.payload 0 4) false = true) (hr : regOf (pfld f.payload 0 4) = some r)
    (hzero : r.id.readsZero = false) :
    ∃ t, exec (.rxRreq l f) s = .next t ∧
      t.outs = s.outs ++ [frameOut l fRRSP (s.lnk l).txNext 0 s.ownSrc
        (leBytes 4 (s.view r (pfld f.payload 0 4)).toNat ++ leBytes 1 0 ++ leBytes 3 (pfld f.payload 9 1))] ∧ t.mem = s.mem := by
  have hserved : Served (took l s) (0x110 + l) (pfld f.payload 0 4) false := serves_iff.mp hserves
  have hview : (took l s).view r (pfld f.payload 0 4) = s.view r (pfld f.payload 0 4) := rfl
  have hact := (actOn_alive h.alive (rxRreqS l f)).trans (congrArg Host.Outcome.next (receive_forMe h hme))
  have hvalue : (readReg r (pfld f.payload 0 4) (took l s)).1 = s.view r (pfld f.payload 0 4) := by
    rw [readReg_value, hzero, hview]
    rfl
  simp only [if_neg (show ¬pfld f.payload 8 1 % 2 = 1 by omega), vetchRead_of_served hserved hr, hvalue] at hact
  refine ⟨_, hact, ?_⟩
  have hu : Frame Frame.Scope.readReg (took l s) (readReg r (pfld f.payload 0 4) (took l s)).2 := .readReg .refl
  have hstate := get_readReg (s := took l s) hr RY_STAT.STATE (x := l) (y := 0) l.isLt (by decide) rfl (by decide) (by decide) (by decide)
  have htop := get_readReg (s := took l s) hr RY_GSTAT.TOP (x := 0) (y := 0) (by decide) (by decide) rfl (by decide) (by decide) (by decide)
  have hwid := get_readReg (s := took l s) hr RY_GSTAT.WID (x := 0) (y := 0) (by decide) (by decide) rfl (by decide) (by decide) (by decide)
  generalize (readReg r (pfld f.payload 0 4) (took l s)).2 = u at *
  refine ⟨sendFrame_outs h.locked (hstate.trans (took_frame.linkState l)) ?_ ?_ ?_ (by decide), ?_⟩
  · rw [hu.lnk, lnk_took]
  · rw [State.ownSrc, State.isTop, State.isSet, htop, hwid]
    exact took_frame.ownSrc
  · exact (hu.part .outs (by decide)).trans (took_frame.part .outs (by decide))
  · exact ((.sendFrame .refl : Frame Frame.Scope.sendFrame u _).mem).trans (hu.mem.trans took_frame.mem)

/-- What the end of a remote access leaves. -/
theorem raccEnd_spec {status : ℕ} (s : State) (h : status < 16) : (raccEnd status s).isSet RY_RACC_CTRL.GO = false ∧
    (raccEnd status s).get RY_RACC_CTRL.STATUS = status ∧ (raccEnd status s).ry.racc = none ∧
      RegsKept [RegId.RY_RACC_CTRL.at] s (raccEnd status s) ∧ Frame (.join [.ofRegs [.RY_RACC_CTRL], .ofParts [.ry]]) s (raccEnd status s) := by
  have hframe : Frame (.ofRegs [.RY_RACC_CTRL]) s ((s.put RY_RACC_CTRL.GO 0).put RY_RACC_CTRL.STATUS status) := .put (.put .refl)
  have hgo : ((s.put RY_RACC_CTRL.GO 0).put RY_RACC_CTRL.STATUS status).isSet RY_RACC_CTRL.GO = false := by
    rw [isSet_put_of_apart (by decide), isSet_put_zero _ _ (by decide)]
  have hstatus := get_put_lt (s := s.put RY_RACC_CTRL.GO 0) (f := RY_RACC_CTRL.STATUS) 0 0 (by decide) h
  unfold raccEnd
  generalize (s.put RY_RACC_CTRL.GO 0).put RY_RACC_CTRL.STATUS status = u at *
  exact ⟨hgo, hstatus, rfl, (hframe.regsKept [.RY_RACC_CTRL]).congr rfl, .withRy (hframe.mono (by decide))⟩

theorem rxRrsp_complete {tag since : ℕ} (h : Hears l fRRSP f s) (hme : s.forMe f = true) (hracc : s.ry.racc = some (tag, since))
    (htag : pfld f.payload 5 1 = tag) (hok : pfld f.payload 4 1 = 0) (hwrite : s.isSet RY_RACC_CTRL.WRITE = false) :
    ∃ t, exec (.rxRrsp l f) s = .next t ∧ t.get RY_RACC_DATA.DATA = pfld f.payload 0 4 ∧ t.isSet RY_RACC_CTRL.GO = false ∧
      t.get RY_RACC_CTRL.STATUS = 0 ∧ t.ry.racc = none ∧
      RegsKept [RegId.RY_RACC_DATA.at, RegId.RY_RACC_CTRL.at] s t ∧ Kept [.links, .regs, .ry] s t := by
  have hdata : pfld f.payload 0 4 < 2 ^ 32 := by
    refine (leNat_lt _).trans_le (Nat.pow_le_pow_right (by norm_num) ?_)
    have hlen := List.length_take_le 4 (f.payload.drop 0)
    omega
  have hbody : rxRrspS l f s = raccEnd 0 ((took l s).put RY_RACC_DATA.DATA (pfld f.payload 0 4)) := by
    have hracc' : (took l s).ry.racc = some (tag, since) := hracc
    have hwrite' : (took l s).isSet RY_RACC_CTRL.WRITE = false := took_frame.isSet.trans hwrite
    rw [rxRrspS, receive_forMe h hme, hracc']
    simp [htag, hok, hwrite', State.when]
  have hput := get_put_lt (s := took l s) (f := RY_RACC_DATA.DATA) 0 0 (by decide) hdata
  have hu : Frame (.join [Frame.Scope.setLnk, .ofRegs [.RY_RACC_DATA]]) s ((took l s).put RY_RACC_DATA.DATA (pfld f.payload 0 4)) :=
    .put (took_frame.mono (by decide))
  refine ⟨_, (actOn_alive h.alive _).trans (congrArg Host.Outcome.next hbody), ?_⟩
  generalize (took l s).put RY_RACC_DATA.DATA (pfld f.payload 0 4) = u at *
  obtain ⟨hgo, hstatus, hnone, -, hend⟩ := raccEnd_spec u (show 0 < 16 by decide)
  have hall : Frame (.join [Frame.Scope.setLnk, .ofRegs [.RY_RACC_DATA, .RY_RACC_CTRL], .ofParts [.ry]]) s (raccEnd 0 u) :=
    (hu.mono (by decide)).lift (by decide) hend
  exact ⟨hend.get.trans hput, hgo, hstatus, hnone, hall.regsKept [.RY_RACC_DATA, .RY_RACC_CTRL], hall.kept⟩

theorem raccTimeout_complete {tag since : ℕ} (hcold : s.coldHeld = false) (hcd : s.cdDown = false) (hracc : s.ry.racc = some (tag, since))
    (hdue : since + 100 * usTk ≤ s.clock) : exec .raccTimeout s = .next (raccEnd 3 s) := by
  refine (act_next hcold _).trans (congrArg Host.Outcome.next ?_)
  rw [raccTimeoutS, hracc]
  exact if_pos (by simp [hdue, hcd])

end

/-- Settles O49. -/
theorem remoteEventsAndAccessesComplete : Obligations.RemoteEventsAndAccessesComplete := by
  unfold Obligations.RemoteEventsAndAccessesComplete
  refine ⟨?_, ?_, ?_, ?_, ?_, ?_⟩
  · intro src k s hcold hcd hpend hdue hadm hfwd hup
    exact eventForward_complete hcold hcd hpend hdue hadm hfwd hup
  · intro l f s h hme
    exact rxEvent_complete h hme
  · intro l f s h hme hlink
    exact rxRreq_refused h hme hlink
  · intro l f r s h hme _ hread hserves hr hzero
    exact rxRreq_served h hme hread hserves hr hzero
  · intro l f tag since s h hme hracc htag hok hwrite
    exact rxRrsp_complete h hme hracc htag hok hwrite
  · intro tag since s hcold hcd hracc hdue
    obtain ⟨hgo, hstatus, hnone, hregs, hframe⟩ := raccEnd_spec s (show 3 < 16 by decide)
    exact ⟨_, raccTimeout_complete hcold hcd hracc hdue, hgo, hstatus, hnone, hregs, hframe.kept⟩

end Sys2Proof.Proofs

/-! ## Runs of Sorrel (R246, R250, R251, R258, R259) -/

namespace Sys2Proof.Proofs

set_option Elab.async false

open Sys2Proof Sys2Proof.Machine Sys2Proof.Claims

section

variable {w : Scope} {s t u : State} {c h x l m k reason : ℕ} {dtc req : Bool}

theorem Frame.cdly (hf : Frame w s t) (l : ℕ) (hp : w.hasPart .cdlys = false := by decide) : t.cdly l = s.cdly l :=
  State.cdly_congr (hf.part .cdlys hp) l

theorem Frame.linkTimed (hf : Frame w s t) (l : ℕ) (hr : w.hasReg .RY_STAT = false := by decide) : t.linkTimed l = s.linkTimed l := by
  rw [State.linkTimed, State.linkTimed, hf.get (f := RY_STAT.STATE) hr]

theorem Frame.raising (hf : Frame w s t) (hp : w.hasPart .raising = false := by decide) : t.raising = s.raising := hf.part .raising hp

/-! ### A failed run (R250) -/

/-- The failure of a run has been reported. -/
structure RunFailed (m k reason : ℕ) (req : Bool) (s t : State) : Prop where
  reason : t.get SOR_FAIL.REASON = reason
  mach : t.get SOR_FAIL.MACH = m
  target : t.get SOR_FAIL.TARGET = k
  raised : t.raising = s.raising ++ [276]
  ended : req = true → t.isSet SOR_REQ.GO = false ∧ t.get SOR_REQ.RESULT = 2
  request : fieldOf (t.reg RegId.SOR_REQ.at) 0 14 = fieldOf (s.reg RegId.SOR_REQ.at) 0 14 ∧
    fieldOf (t.reg RegId.SOR_REQ.at) 17 15 = fieldOf (s.reg RegId.SOR_REQ.at) 17 15

/-- What follows a failed run beside its report leaves the report. -/
theorem RunFailed.after (hf : RunFailed m k reason req s t) (hu : Frame w t u) (hfail : w.hasReg .SOR_FAIL = false := by decide)
    (hreq : w.hasReg .SOR_REQ = false := by decide) (hp : w.hasPart .raising = false := by decide) : RunFailed m k reason req s u := by
  refine ⟨(hu.get (f := SOR_FAIL.REASON) hfail).trans hf.reason, (hu.get (f := SOR_FAIL.MACH) hfail).trans hf.mach,
    (hu.get (f := SOR_FAIL.TARGET) hfail).trans hf.target, (hu.raising hp).trans hf.raised, fun hr => ?_, ?_⟩
  · rw [hu.isSet (f := SOR_REQ.GO) hreq, hu.get (f := SOR_REQ.RESULT) hreq]
    exact hf.ended hr
  · rw [hu.reg _ hreq]
    exact hf.request

theorem requestEnd_spec (req : Bool) (s : State) : (req = true → (requestEnd req 2 s).isSet SOR_REQ.GO = false ∧
      (requestEnd req 2 s).get SOR_REQ.RESULT = 2) ∧
    fieldOf ((requestEnd req 2 s).reg RegId.SOR_REQ.at) 0 14 = fieldOf (s.reg RegId.SOR_REQ.at) 0 14 ∧
    fieldOf ((requestEnd req 2 s).reg RegId.SOR_REQ.at) 17 15 = fieldOf (s.reg RegId.SOR_REQ.at) 17 15 := by
  cases req
  · exact ⟨fun hr => absurd hr (by decide), rfl, rfl⟩
  · refine ⟨fun _ => ⟨?_, get_put_lt _ _ (by decide) (by decide)⟩, ?_, ?_⟩
    · exact (isSet_put_of_apart (by decide) _ _ _ _ _).trans (isSet_put_zero _ _ (by decide))
    · exact (State.get_put_field _ SOR_REQ.RESULT ⟨.SOR_REQ, 0, 14⟩ _ _ _ 0 0 (by decide) (by decide)).trans
        (State.get_put_field _ SOR_REQ.GO ⟨.SOR_REQ, 0, 14⟩ _ _ _ 0 0 (by decide) (by decide))
    · exact (State.get_put_field _ SOR_REQ.RESULT ⟨.SOR_REQ, 17, 15⟩ _ _ _ 0 0 (by decide) (by decide)).trans
        (State.get_put_field _ SOR_REQ.GO ⟨.SOR_REQ, 17, 15⟩ _ _ _ 0 0 (by decide) (by decide))

theorem calFail_spec (s : State) (hm : m < 8) (hk : k < 2 ^ 11) (hr : reason < 256) : RunFailed m k reason req s (calFail m k reason req s) := by
  have hreason := get_put_lt (s := s) (f := SOR_FAIL.REASON) 0 0 (by decide) hr
  have hmach := get_put_lt (s := s.put SOR_FAIL.REASON reason) (f := SOR_FAIL.MACH) 0 0 (by decide) hm
  have htarget := get_put_lt (s := (s.put SOR_FAIL.REASON reason).put SOR_FAIL.MACH m) (f := SOR_FAIL.TARGET) 0 0 (by decide) hk
  have hput : Frame (.ofRegs [.SOR_FAIL]) s (((s.put SOR_FAIL.REASON reason).put SOR_FAIL.MACH m).put SOR_FAIL.TARGET k) := .put (.put (.put .refl))
  have hreason' : (((s.put SOR_FAIL.REASON reason).put SOR_FAIL.MACH m).put SOR_FAIL.TARGET k).get SOR_FAIL.REASON = reason :=
    (get_put_of_apart (by decide) ..).trans ((get_put_of_apart (by decide) ..).trans hreason)
  have hmach' : (((s.put SOR_FAIL.REASON reason).put SOR_FAIL.MACH m).put SOR_FAIL.TARGET k).get SOR_FAIL.MACH = m :=
    (get_put_of_apart (by decide) ..).trans hmach
  unfold calFail
  generalize ((s.put SOR_FAIL.REASON reason).put SOR_FAIL.MACH m).put SOR_FAIL.TARGET k = a at *
  dsimp only
  have hmark : Frame (.ofRegs [.SOR_FAIL, .SOR_STAT]) a ((a.put SOR_FAIL.REQUESTED (if req then 1 else 0)).put SOR_STAT.CALFAIL_SEEN 1) :=
    .put (.put .refl)
  have hfield {g : Fld} (hg : Apart SOR_FAIL.REQUESTED g) (hg' : Apart SOR_STAT.CALFAIL_SEEN g) :
      ((a.put SOR_FAIL.REQUESTED (if req then 1 else 0)).put SOR_STAT.CALFAIL_SEEN 1).get g = a.get g :=
    (get_put_of_apart hg' ..).trans (get_put_of_apart hg ..)
  have h1 := hfield (g := SOR_FAIL.REASON) (by decide) (by decide)
  have h2 := hfield (g := SOR_FAIL.MACH) (by decide) (by decide)
  have h3 := hfield (g := SOR_FAIL.TARGET) (by decide) (by decide)
  generalize (a.put SOR_FAIL.REQUESTED _).put SOR_STAT.CALFAIL_SEEN 1 = b at *
  have hraise : Frame (.join [.ofRegs [.SOR_CNT], .ofParts [.raising]]) b ((b.bump SOR_CNT.FAILS).raise 276) := .raise (.bump .refl)
  have hraised : ((b.bump SOR_CNT.FAILS).raise 276).raising = b.raising ++ [276] := by
    have hcount : (b.bump SOR_CNT.FAILS).raising = b.raising := Frame.raising (w := .ofRegs [.SOR_CNT]) (.bump .refl)
    generalize b.bump SOR_CNT.FAILS = b' at *
    rw [← hcount]
    rfl
  generalize (b.bump SOR_CNT.FAILS).raise 276 = d at *
  obtain ⟨hended, hlow, hhigh⟩ := requestEnd_spec req d
  have hend : Frame (.ofRegs [.SOR_REQ]) d (requestEnd req 2 d) := .requestEnd .refl
  have hreq (i j : ℕ) : fieldOf (d.reg RegId.SOR_REQ.at) i j = fieldOf (s.reg RegId.SOR_REQ.at) i j := by
    rw [hraise.reg .SOR_REQ (by decide), hmark.reg .SOR_REQ (by decide), hput.reg .SOR_REQ (by decide)]
  have hfailed : RunFailed m k reason req s (requestEnd req 2 d) := by
    refine ⟨?_, ?_, ?_, ?_, hended, hlow.trans (hreq _ _), hhigh.trans (hreq _ _)⟩
    · rw [hend.get, hraise.get, h1, hreason']
    · rw [hend.get, hraise.get, h2, hmach']
    · rw [hend.get, hraise.get, h3, htarget]
    · rw [hend.raising, hraised, hmark.raising, hput.raising]
  exact hfailed.after (w := Frame.Scope.logEvent) (.logEvent .refl)

/-! ### Loop trims (R251, R255) -/

theorem inst_setInst (y : Half) (i : TrimInst) : (y.setInst dtc i).inst dtc = i := by
  cases dtc <;> rfl

theorem committed_setInst (y : Half) (i : TrimInst) : (y.setInst dtc i).committed = y.committed := by
  cases dtc <;> rfl

theorem trimStart_spec (s : State) : (((trimStart c h dtc req s).half c h).inst dtc).run = some { requested := req, since := s.clock } ∧
    ((trimStart c h dtc req s).half c h).committed = (s.half c h).committed ∧ (trimStart c h dtc req s).mem = s.mem := by
  have hmem : (trimStart c h dtc req s).mem = s.mem := Frame.mem (w := Frame.Scope.trimStart) (.trimStart .refl)
  have hhalf : (trimStart c h dtc req s).half c h = { (s.half c h).setInst dtc { (s.half c h).inst dtc with
      run := some { requested := req, since := s.clock }, failed := false } with
    working := ((s.half c h).setInst dtc { (s.half c h).inst dtc with
      run := some { requested := req, since := s.clock }, failed := false }).working.take
        ((s.half c h).setInst dtc { (s.half c h).inst dtc with
          run := some { requested := req, since := s.clock }, failed := false }).committed dtc } := by
    rw [trimStart, Frame.half (.trimRefresh .refl : Frame Frame.Scope.trimRefresh _ _), State.half_setHalf, if_pos rfl]
  rw [hhalf]
  refine ⟨?_, committed_setInst .., hmem⟩
  exact congrArg TrimInst.run (inst_setInst (dtc := dtc) (s.half c h) { (s.half c h).inst dtc with
      run := some { requested := req, since := s.clock }, failed := false })

/-! ### Code density (R256) -/

/-- Where no run is on the oscillator elsewhere, none ends. -/
theorem oscTurn_idle (h : s.oscElsewhere k = false) : oscTurn k s = s := by
  have hnone : (s.chans.filter fun e => e.2.cd.isSome && chanChip e.1 == chanChip k && chanGroup e.1 != chanGroup k && !s.cdExt e.1) = [] :=
    List.filter_eq_nil_iff.mpr fun e he => List.any_eq_false.mp h e he
  rw [oscTurn, hnone]
  rfl

theorem cdStart_spec (hext : s.cdExt k = false) (hosc : s.oscElsewhere k = false) :
    ((cdStart k req s).chan k).cd = some { requested := req, since := s.clock } ∧
      (cdStart k req s).get CD_STAT.ST (chanChip k) (chanLocal k) = 2 ∧ (cdStart k req s).ts TS_STAT.CAL k = 1 ∧
      (∀ j, j ≠ k → (cdStart k req s).chan j = s.chan j) ∧ (cdStart k req s).mem = s.mem := by
  have hrun : cdStart k req s = refreshAllConv ((cdState k 2
      (s.setChan k { s.chan k with cd := some { requested := req, since := s.clock } })).tsSet TS_STAT.CAL k 1) := by
    rw [cdStart, hext, State.when, oscTurn_idle hosc]
    simp
  rw [hrun]
  have hchan : Frame (.ofParts [.chans]) s (s.setChan k { s.chan k with cd := some { requested := req, since := s.clock } }) := .setChan .refl
  have hget := State.chan_setChan s k { s.chan k with cd := some { requested := req, since := s.clock } }
  generalize s.setChan k _ = a at *
  have hstate : (cdState k 2 a).get CD_STAT.ST (chanChip k) (chanLocal k) = 2 := get_put_lt _ _ (by decide) (by decide)
  have hset : Frame (.ofRegs [.CD_STAT]) a (cdState k 2 a) := .cdState .refl
  generalize cdState k 2 a = b at *
  have hts : (b.tsSet TS_STAT.CAL k 1).ts TS_STAT.CAL k = 1 := get_put_lt _ _ (by decide) (by decide)
  have hcal : Frame (.ofRegs [.TS_STAT]) b (b.tsSet TS_STAT.CAL k 1) := .tsSet .refl
  generalize b.tsSet TS_STAT.CAL k 1 = d at *
  have hconv : Frame Frame.Scope.refreshAllConv d (refreshAllConv d) := .refreshAllConv .refl
  have hall (j : ℕ) : (refreshAllConv d).chan j = a.chan j := by rw [hconv.chan, hcal.chan, hset.chan]
  refine ⟨?_, ?_, (hconv.get).trans hts, fun j hj => ?_, ?_⟩
  · rw [hall, hget, if_pos rfl]
  · rw [hconv.get, hcal.get, hstate]
  · rw [hall, hget, if_neg hj]
  · rw [hconv.mem, hcal.mem, hset.mem, hchan.mem]

/-! ### Cable delay (R259) -/

theorem cdlyStart_spec (s : State) : ((cdlyStart l req s).cdly l).run = some { requested := req, since := s.clock } ∧
    (cdlyStart l req s).get CDLY_STAT.ST l = 2 ∧ ((cdlyStart l req s).cdly l).delay = (s.cdly l).delay ∧
    RegsKept [RegId.CDLY_STAT.at l] s (cdlyStart l req s) ∧ Frame Frame.Scope.cdlyStart s (cdlyStart l req s) := by
  have hcdly : (cdlyStart l req s).cdly l = { s.cdly l with run := some { requested := req, since := s.clock } } := by
    rw [cdlyStart, State.cdly_put_keep, State.cdly_setCdly, if_pos rfl]
  rw [hcdly]
  exact ⟨rfl, get_put_lt _ _ (by decide) (by decide), rfl, .put (.setCdly .refl), .cdlyStart .refl⟩

theorem cdlyFail_spec (s : State) (hl : l < 16) (hr : reason < 256) : RunFailed 4 l reason req s (cdlyFail l reason req s) ∧
    (cdlyFail l reason req s).get CDLY_STAT.ST l = 4 ∧ (cdlyFail l reason req s).cdly l = { s.cdly l with run := none } := by
  have hset : Frame (.ofParts [.cdlys]) s (s.setCdly l { s.cdly l with run := none }) := .setCdly .refl
  have hcdly := State.cdly_setCdly s l { s.cdly l with run := none } l
  have hraising : (s.setCdly l { s.cdly l with run := none }).raising = s.raising := hset.raising
  unfold cdlyFail
  generalize s.setCdly l _ = a at *
  have hfail : RunFailed 4 l reason req a (calFail 4 l reason req a) := calFail_spec a (by decide) (by omega) hr
  have hframe : Frame Frame.Scope.calFail a (calFail 4 l reason req a) := .calFail .refl
  generalize calFail 4 l reason req a = b at *
  have hafter : RunFailed 4 l reason req a (b.put CDLY_STAT.ST 4 l) := hfail.after (w := .ofRegs [.CDLY_STAT]) (.put .refl)
  refine ⟨⟨hafter.reason, hafter.mach, hafter.target, hafter.raised.trans (by rw [hraising]), hafter.ended, ?_⟩,
    get_put_lt _ _ (by decide) (by decide), ?_⟩
  · rw [← hset.reg .SOR_REQ (by decide)]
    exact hafter.request
  · rw [State.cdly_put_keep, hframe.cdly, hcdly, if_pos rfl]

/-- A run that fails ends a join only where the join waits for the delay. -/
theorem cdlyEnded_elsewhere (h : s.linkState l ≠ lsCdly) : cdlyEnded l s = s := by
  rw [cdlyEnded, if_pos (by simp [h])]

end

/-! ### The commands -/

section

variable {s : State} {o : Origin} {v : Word}

theorem trimBackground_complete {m : Fin 6} {x : ℕ} (hcold : s.coldHeld = false) (hcd : s.cdDown = false) (hcal : s.calLost = false)
    (hm : m.val < 2) (hx : x < 128) (hlms : m = 0 → s.isSet SOR_CTRL.LMS_EN = true) (hdtc : m = 1 → s.isSet SOR_CTRL.DTC_EN = true)
    (hreq : s.trimRequired (x / 2) (x % 2) (m == 1) = true) (hrun : ((s.half (x / 2) (x % 2)).inst (m == 1)).run = none)
    (hconv : (s.half (x / 2) (x % 2)).committed.converged (m == 1) (s.actSel (x / 2) (x % 2)) = false) (hchip : s.chipLost (x / 16) = false) :
    exec (.sorrelBackgroundStart m x) s = .next (trimStart (x / 2) (x % 2) (m == 1) false s) := by
  refine (act_next hcold _).trans (congrArg Host.Outcome.next ?_)
  have hval : (m.val == 1) = (m == 1) := by
    rw [Bool.eq_iff_iff, beq_iff_eq, beq_iff_eq, Fin.ext_iff]
    rfl
  have hon : (if (m == 1) = true then s.isSet SOR_CTRL.DTC_EN else s.isSet SOR_CTRL.LMS_EN) = true := by
    split
    · next h1 => exact hdtc (by simpa using h1)
    · next h1 =>
      refine hlms (Fin.ext ?_)
      have hne : m.val ≠ 1 := fun he => h1 (by rw [← hval, he]; rfl)
      change m.val = 0
      omega
  have hchip' : s.chipLost (x / 2 / 8) = false := by rwa [Nat.div_div_eq_div_mul]
  unfold sorrelBackgroundStartS
  rw [hcd, hcal, if_neg (by simp), if_pos hm]
  dsimp only
  rw [hval, hon, hreq, hrun, hconv, hchip', decide_eq_true hx]
  simp

theorem cdBackground_complete {x : ℕ} (hcold : s.coldHeld = false) (hcd : s.cdDown = false) (hcal : s.calLost = false) (hx : x < 1280)
    (hen : s.isSet SOR_CTRL.CD_EN = true) (hrun : (s.chan x).cd = none) (htable : (s.chan x).cdTable = none)
    (hchip : s.chipLost (chanChip x) = false) (hfree : s.chanTaken x = false) (hext : s.cdExt x = false) (hosc : s.oscElsewhere x = false) :
    exec (.sorrelBackgroundStart 2 x) s = .next (cdStart x false s) := by
  refine (act_next hcold _).trans (congrArg Host.Outcome.next ?_)
  simp [sorrelBackgroundStartS, hcd, hcal, hx, hen, hrun, htable, hchip, hfree, hext, hosc]

theorem cdlyBackground_complete {x : ℕ} (hcold : s.coldHeld = false) (hcd : s.cdDown = false) (hcal : s.calLost = false) (hx : x < 16)
    (hen : s.isSet SOR_CTRL.CDLY_EN = true) (hlink : s.linkTimed x = true) (hrun : (s.cdly x).run = none)
    (hstate : s.get CDLY_STAT.ST x ≠ 3) : exec (.sorrelBackgroundStart 4 x) s = .next (cdlyStart x false s) := by
  refine (act_next hcold _).trans (congrArg Host.Outcome.next ?_)
  simp [sorrelBackgroundStartS, hcd, hcal, hx, hen, hlink, hrun, hstate]

/-! ### Requests (R251) -/

theorem plain_sorReq : Plain .SOR_REQ := ⟨by decide, by decide, by decide, by decide⟩

theorem writeHook_sorReq (m old new : Word) (u : State) :
    writeHook o.toNat ⟨.SOR_REQ, 0, 0⟩ m old new u = hookSorReq (m &&& new) old new u := rfl

/-- A field of a word tells each of its bits. -/
theorem getLsbD_of_fieldOf {u w : Word} {lo n b : ℕ} (h : fieldOf u lo n = fieldOf w lo n) (hlo : lo ≤ b) (hhi : b < lo + n) :
    u.getLsbD b = w.getLsbD b := by
  have hbit (x : Word) : (fieldOf x lo n).testBit (b - lo) = x.getLsbD b := by
    rw [fieldOf, Nat.testBit_mod_two_pow, Nat.testBit_div_two_pow, decide_eq_true (by omega), Bool.true_and, Nat.sub_add_cancel hlo]
    rfl
  rw [← hbit u, ← hbit w, h]

/-- What the mask of a direct write passes of `GO`. -/
theorem fieldOf_sorReq_go (w : Word) : fieldOf (BitVec.ofNat 32 ((regRow .SOR_REQ).rw ||| (regRow .SOR_REQ).cnt ||| (regRow .SOR_REQ).wo1) &&&
    withField w 14 1 1) 14 1 = 1 := by
  refine Eq.trans (b := fieldOf (withField w 14 1 1) 14 1) (fieldOf_congr fun b hlo hhi => ?_) (fieldOf_withField w 14 1 1 (by decide))
  obtain rfl : b = 14 := by omega
  rw [BitVec.getLsbD_and, show (BitVec.ofNat 32 ((regRow .SOR_REQ).rw ||| (regRow .SOR_REQ).cnt ||| (regRow .SOR_REQ).wo1)).getLsbD 14 = true
    by decide, Bool.true_and]

/-- `SOR_REQ` as a request that is taken leaves it. -/
def requested (v : Word) (s : State) : State := s.setReg RegId.SOR_REQ.at (withField (withField (withField v 14 1 1) 15 2 0) 14 1 1)

/-- What a write with `GO` does beside its own word. -/
def requestMade (v : Word) (s : State) : State :=
  if s.isSet SOR_REQ.GO then
    refuseRequest (fieldOf v 0 3) (fieldOf v 3 11)
      (if decide (5 ≤ fieldOf v 0 3) || decide (machTargets (fieldOf v 0 3) ≤ fieldOf v 3 11) then 13 else 11) s
  else if decide (5 ≤ fieldOf v 0 3) || decide (machTargets (fieldOf v 0 3) ≤ fieldOf v 3 11) then
    calFail (fieldOf v 0 3) (fieldOf v 3 11) 13 true (requested v s)
  else startRequested (fieldOf v 0 3) (fieldOf v 3 11) (requested v s)

theorem hookSorReq_go {ones : Word} (h : fieldOf ones 14 1 = 1) (u : State) (hu : u.isSet SOR_REQ.GO = s.isSet SOR_REQ.GO) :
    hookSorReq ones (s.reg RegId.SOR_REQ.at) (withField v 14 1 1) u = ((requestMade v u).reg RegId.SOR_REQ.at, requestMade v u) := by
  have hm : fieldOf (withField v 14 1 1) 0 3 = fieldOf v 0 3 := fieldOf_withField_ne _ _ _ _ _ _ (by decide) (by decide)
  have ht : fieldOf (withField v 14 1 1) 3 11 = fieldOf v 3 11 := fieldOf_withField_ne _ _ _ _ _ _ (by decide) (by decide)
  have hbusy : (fieldOf (s.reg RegId.SOR_REQ.at) 14 1 == 1) = u.isSet SOR_REQ.GO := hu.symm
  have hmade : requestMade v u = (hookSorReq ones (s.reg RegId.SOR_REQ.at) (withField v 14 1 1) u).2 := by
    unfold hookSorReq requestMade
    rw [hm, ht, hbusy, if_neg (c := fieldOf ones 14 1 = 0) (by rw [h]; decide)]
    cases u.isSet SOR_REQ.GO
    · simp only [if_neg Bool.false_ne_true, requested]
    · simp only [if_pos]
  rw [hmade]
  unfold hookSorReq
  rw [if_neg (by rw [h]; decide)]

/-- A write with `GO` leaves the request's own state, for its word is what stands there already. -/
theorem sorReq_complete (h : s.writes o .SOR_REQ 0 0 (withField v 14 1 1) = true) : ∃ q,
    exec (.sorrelRequest o v) s = .next ((requestMade v { s with tansyQ := q }).setReg RegId.SOR_REQ.at
      ((requestMade v s).reg RegId.SOR_REQ.at)) := by
  obtain ⟨q, hq⟩ := busWrite_hook h plain_sorReq
  rw [writeHook_sorReq, writeHook_sorReq, hookSorReq_go (fieldOf_sorReq_go v) s rfl,
    hookSorReq_go (s := s) (fieldOf_sorReq_go v) { s with tansyQ := q } rfl] at hq
  exact ⟨q, hq⟩

theorem get_setReg_sorReq {f : Fld} (hf : f.reg = .SOR_REQ) (x y : State) : (x.setReg RegId.SOR_REQ.at (y.reg RegId.SOR_REQ.at)).get f =
    y.get f := by
  have h := get_setReg f x 0 0 (y.reg (f.reg.at 0 0))
  rw [hf] at h
  rw [h, State.get, hf]

theorem cdlyRequest_complete (h : s.writes o .SOR_REQ 0 0 (withField v 14 1 1) = true) (hgo : s.isSet SOR_REQ.GO = false)
    (hm : fieldOf v 0 3 = 4) (hl : fieldOf v 3 11 < 16) (hchip : s.chipLost (fieldOf v 3 11 / 2) = false)
    (hlink : s.linkTimed (fieldOf v 3 11) = true) (hrun : (s.cdly (fieldOf v 3 11)).run = none) :
    ∃ t, exec (.sorrelRequest o v) s = .next t ∧ t.isSet SOR_REQ.GO = true ∧ t.get SOR_REQ.MACH = 4 ∧
      t.get SOR_REQ.TARGET = fieldOf v 3 11 ∧ t.get SOR_REQ.RESULT = 0 ∧
      (t.cdly (fieldOf v 3 11)).run = some { requested := true, since := s.clock } ∧ t.get CDLY_STAT.ST (fieldOf v 3 11) = 2 := by
  obtain ⟨q, hq⟩ := sorReq_complete h
  have hx : Frame (.ofParts [.tansyQ]) s { s with tansyQ := q } := .withTansyQ .refl
  have hmade {u : State} (hu : Frame (.ofParts [.tansyQ]) s u) : requestMade v u = cdlyStart (fieldOf v 3 11) true (requested v u) := by
    have hr : Frame (.join [.ofParts [.tansyQ], .ofRegs [.SOR_REQ]]) s (requested v u) := .setReg (hu.mono (by decide))
    rw [requestMade, hu.isSet, hgo, if_neg (by decide), hm, if_neg (by simp [machTargets, hl]), startRequested]
    simp [machChip, hr.chipLost, hchip, hr.cdly, hrun, hr.linkTimed, hlink]
  rw [hmade hx, hmade .refl] at hq
  generalize ({ s with tansyQ := q } : State) = x at *
  obtain ⟨hcdly, hst, -, -, -⟩ := cdlyStart_spec (l := fieldOf v 3 11) (req := true) (requested v x)
  obtain ⟨-, -, -, -, hframe⟩ := cdlyStart_spec (l := fieldOf v 3 11) (req := true) (requested v s)
  have hclock : (requested v x).clock = s.clock := by
    rw [show (requested v x).clock = x.clock from rfl, hx.clock]
  have hword {f : Fld} (hf : f.reg = .SOR_REQ) : (cdlyStart (fieldOf v 3 11) true (requested v s)).get f =
      fieldOf (withField (withField (withField v 14 1 1) 15 2 0) 14 1 1) f.lo f.w := by
    rw [hframe.get (by rw [hf]; decide), ← get_setReg f s 0 0, hf]
    rfl
  have hfinal : Frame (.ofRegs [.SOR_REQ]) (cdlyStart (fieldOf v 3 11) true (requested v x)) ((cdlyStart (fieldOf v 3 11) true
    (requested v x)).setReg RegId.SOR_REQ.at ((cdlyStart (fieldOf v 3 11) true (requested v s)).reg RegId.SOR_REQ.at)) := .setReg .refl
  have hlow (lo n : ℕ) (hn : lo + n ≤ 14) : fieldOf (withField (withField (withField v 14 1 1) 15 2 0) 14 1 1) lo n = fieldOf v lo n := by
    rw [fieldOf_withField_ne _ _ _ _ _ _ (by decide) (by omega), fieldOf_withField_ne _ _ _ _ _ _ (by decide) (by omega),
      fieldOf_withField_ne _ _ _ _ _ _ (by decide) (by omega)]
  refine ⟨_, hq, ?_, ?_, ?_, ?_, ?_, ?_⟩
  · rw [State.isSet, get_setReg_sorReq rfl, hword rfl]
    exact beq_iff_eq.mpr (fieldOf_withField _ _ _ _ (by decide))
  · rw [get_setReg_sorReq rfl, hword rfl]
    exact (hlow 0 3 (by decide)).trans hm
  · rw [get_setReg_sorReq rfl, hword rfl]
    exact hlow 3 11 (by decide)
  · rw [get_setReg_sorReq rfl, hword rfl]
    exact (fieldOf_withField_ne _ 14 1 1 15 2 (by decide) (by decide)).trans (fieldOf_withField _ 15 2 0 (by decide))
  · rw [hfinal.cdly, hcdly, hclock]
  · rw [hfinal.get, hst]

/-- A request that names what does not exist (R250, R251). -/
theorem badRequest_complete (h : s.writes o .SOR_REQ 0 0 (withField v 14 1 1) = true) (hgo : s.isSet SOR_REQ.GO = false)
    (hbad : 5 ≤ fieldOf v 0 3 ∨ machTargets (fieldOf v 0 3) ≤ fieldOf v 3 11) :
    ∃ t, exec (.sorrelRequest o v) s = .next t ∧ t.isSet SOR_REQ.GO = false ∧ t.get SOR_REQ.RESULT = 2 ∧
      t.get SOR_FAIL.REASON = 13 ∧ t.get SOR_FAIL.MACH = fieldOf v 0 3 ∧ t.get SOR_FAIL.TARGET = fieldOf v 3 11 ∧
      t.raising = s.raising ++ [276] := by
  obtain ⟨q, hq⟩ := sorReq_complete h
  have hx : Frame (.ofParts [.tansyQ]) s { s with tansyQ := q } := .withTansyQ .refl
  have hmade {u : State} (hu : Frame (.ofParts [.tansyQ]) s u) :
      requestMade v u = calFail (fieldOf v 0 3) (fieldOf v 3 11) 13 true (requested v u) := by
    rw [requestMade, hu.isSet, hgo, if_neg (by decide), if_pos (by simpa using hbad)]
  rw [hmade hx, hmade .refl] at hq
  have hraise : ({ s with tansyQ := q } : State).raising = s.raising := rfl
  generalize ({ s with tansyQ := q } : State) = x at *
  have hfail (u : State) : RunFailed (fieldOf v 0 3) (fieldOf v 3 11) 13 true u (calFail (fieldOf v 0 3) (fieldOf v 3 11) 13 true u) :=
    calFail_spec u (Nat.mod_lt _ (by decide)) (Nat.mod_lt _ (by decide)) (by decide)
  have hword := (hfail (requested v s)).ended rfl
  obtain ⟨hreason, hmach, htarget, hraised, -, -⟩ := hfail (requested v x)
  have hraise' : (requested v x).raising = x.raising := rfl
  generalize calFail _ _ _ _ (requested v x) = y at *
  have ht : Frame (.ofRegs [.SOR_REQ]) y (y.setReg RegId.SOR_REQ.at ((calFail (fieldOf v 0 3) (fieldOf v 3 11) 13 true (requested v s)).reg
    RegId.SOR_REQ.at)) := .setReg .refl
  refine ⟨_, hq, ?_, ?_, ht.get.trans hreason, ht.get.trans hmach, ht.get.trans htarget, ?_⟩
  · rw [State.isSet, get_setReg_sorReq rfl]
    exact hword.1
  · rw [get_setReg_sorReq rfl]
    exact hword.2
  · rw [ht.raising, hraised, hraise', hraise]

/-! ### A request while one runs -/

theorem refuseRequest_spec (hgo : s.isSet SOR_REQ.GO = true) (hm : m < 8) (hk : k < 2 ^ 11) :
    (refuseRequest m k 11 s).reg RegId.SOR_REQ.at = s.reg RegId.SOR_REQ.at ∧ (refuseRequest m k 11 s).get SOR_FAIL.REASON = 11 ∧
    (refuseRequest m k 11 s).raising = s.raising ++ [276] := by
  obtain ⟨hreason, -, -, hraised, -, hlow, hhigh⟩ := calFail_spec s hm hk (reason := 11) (req := true) (by decide)
  unfold refuseRequest
  dsimp only
  generalize calFail m k 11 true s = a at *
  have hres : s.get SOR_REQ.RESULT < 4 := Nat.mod_lt _ (by decide)
  have h1 := get_put_lt (s := a) (f := SOR_REQ.GO) (v := 1) 0 0 (by decide) (by decide)
  have hput : Frame (.ofRegs [.SOR_REQ]) a ((a.put SOR_REQ.GO 1).put SOR_REQ.RESULT (s.get SOR_REQ.RESULT)) := .put (.put .refl)
  have h2 := get_put_lt (s := a.put SOR_REQ.GO 1) (f := SOR_REQ.RESULT) 0 0 (by decide) hres
  have h3 : ((a.put SOR_REQ.GO 1).put SOR_REQ.RESULT (s.get SOR_REQ.RESULT)).get SOR_REQ.GO = 1 :=
    (get_put_of_apart (by decide) ..).trans h1
  have hother {lo n : ℕ} (hr : Apart SOR_REQ.RESULT ⟨.SOR_REQ, lo, n⟩) (hg : Apart SOR_REQ.GO ⟨.SOR_REQ, lo, n⟩) :
      fieldOf (((a.put SOR_REQ.GO 1).put SOR_REQ.RESULT (s.get SOR_REQ.RESULT)).reg RegId.SOR_REQ.at) lo n =
        fieldOf (a.reg RegId.SOR_REQ.at) lo n :=
    (get_put_of_apart (g := ⟨.SOR_REQ, lo, n⟩) hr ..).trans (get_put_of_apart (g := ⟨.SOR_REQ, lo, n⟩) hg ..)
  have h4 := hother (lo := 0) (n := 14) (by decide) (by decide)
  have h5 := hother (lo := 17) (n := 15) (by decide) (by decide)
  generalize (a.put SOR_REQ.GO 1).put SOR_REQ.RESULT (s.get SOR_REQ.RESULT) = b at *
  refine ⟨BitVec.eq_of_getLsbD_eq fun i hi => ?_, hput.get.trans hreason, hput.raising.trans hraised⟩
  have hgo' : s.get SOR_REQ.GO = 1 := beq_iff_eq.mp hgo
  rcases Nat.lt_or_ge i 14 with hlt | hge
  · exact getLsbD_of_fieldOf (h4.trans hlow) (Nat.zero_le _) (by omega)
  rcases Nat.lt_or_ge i 15 with hlt' | hge'
  · exact getLsbD_of_fieldOf (lo := 14) (n := 1) (h3.trans hgo'.symm) hge (by omega)
  rcases Nat.lt_or_ge i 17 with hlt'' | hge''
  · exact getLsbD_of_fieldOf (lo := 15) (n := 2) h2 hge' (by omega)
  · exact getLsbD_of_fieldOf (h5.trans hhigh) hge'' (by omega)

theorem busyRequest_complete (h : s.writes o .SOR_REQ 0 0 (withField v 14 1 1) = true) (hgo : s.isSet SOR_REQ.GO = true)
    (hm : fieldOf v 0 3 < 5) (hk : fieldOf v 3 11 < machTargets (fieldOf v 0 3)) :
    ∃ t, exec (.sorrelRequest o v) s = .next t ∧ t.reg RegId.SOR_REQ.at = s.reg RegId.SOR_REQ.at ∧ t.get SOR_FAIL.REASON = 11 ∧
      t.raising = s.raising ++ [276] ∧ t.halves = s.halves ∧ t.chans = s.chans ∧ t.cdlys = s.cdlys := by
  obtain ⟨q, hq⟩ := sorReq_complete h
  have hx : Frame (.ofParts [.tansyQ]) s { s with tansyQ := q } := .withTansyQ .refl
  have hmade {u : State} (hu : Frame (.ofParts [.tansyQ]) s u) : requestMade v u = refuseRequest (fieldOf v 0 3) (fieldOf v 3 11) 11 u := by
    rw [requestMade, hu.isSet, hgo, if_pos rfl, if_neg (by simp; omega)]
  rw [hmade hx, hmade .refl] at hq
  have hk' : fieldOf v 3 11 < 2 ^ 11 := Nat.mod_lt _ (by decide)
  have hgo' : ({ s with tansyQ := q } : State).isSet SOR_REQ.GO = true := hgo
  generalize ({ s with tansyQ := q } : State) = x at *
  obtain ⟨hword, -, -⟩ := refuseRequest_spec hgo (by omega : fieldOf v 0 3 < 8) hk'
  obtain ⟨-, hreason, hraised⟩ := refuseRequest_spec hgo' (by omega : fieldOf v 0 3 < 8) hk'
  have hr : Frame Frame.Scope.refuseRequest x (refuseRequest (fieldOf v 0 3) (fieldOf v 3 11) 11 x) := .refuseRequest .refl
  rw [hword] at hq
  generalize refuseRequest _ _ _ x = y at *
  have ht : Frame (.ofRegs [.SOR_REQ]) y (y.setReg RegId.SOR_REQ.at (s.reg RegId.SOR_REQ.at)) := .setReg .refl
  refine ⟨_, hq, ?_, ht.get.trans hreason, by rw [ht.raising, hraised, hx.raising], ?_, ?_, ?_⟩
  · rw [State.reg_setReg, if_pos rfl]
  · rw [ht.part .halves (by decide), hr.part .halves (by decide), hx.part .halves (by decide)]
  · rw [ht.part .chans (by decide), hr.part .chans (by decide), hx.part .chans (by decide)]
  · rw [ht.part .cdlys (by decide), hr.part .cdlys (by decide), hx.part .cdlys (by decide)]

/-! ### Cable delay: the timeout and the host's entry (R259) -/

theorem cdlyTimeout_complete {l : LinkIx} {r : CdlyRun} (ha : alive (linkChip l) s) (hrun : (s.cdly l).run = some r)
    (hcd : s.cdDown = false) (hdue : r.since + 500 * msTk ≤ s.clock) (hst : s.linkState l ≠ lsCdly) :
    ∃ t, exec (.cdlyTimeout l) s = .next t ∧ (t.cdly l).run = none ∧ t.get CDLY_STAT.ST l = 4 ∧ t.get SOR_FAIL.REASON = 9 ∧
      t.get SOR_FAIL.MACH = 4 ∧ 276 ∈ t.raising ∧ (t.cdly l).delay = (s.cdly l).delay := by
  have hlate : cdlyTimeoutS l s = cdlyFail l 9 r.requested s := by
    rw [cdlyTimeoutS, hrun]
    simp [hcd, hdue]
  obtain ⟨hfail, hstat, hcdly⟩ := cdlyFail_spec (l := l) (reason := 9) (req := r.requested) s l.isLt (by decide)
  have hf : Frame Frame.Scope.cdlyFail s (cdlyFail l 9 r.requested s) := .cdlyFail .refl
  have hend : cdlyEnded l (cdlyFail l 9 r.requested s) = cdlyFail l 9 r.requested s := cdlyEnded_elsewhere (by rwa [hf.linkState])
  have hexec : exec (.cdlyTimeout l) s = .next (cdlyFail l 9 r.requested s) := by
    refine (actOn_alive ha _).trans (congrArg Host.Outcome.next ?_)
    rw [cdlyTimeout, hlate, hend]
    exact ite_self _
  refine ⟨_, hexec, by rw [hcdly], hstat, hfail.reason, hfail.mach, ?_, by rw [hcdly]⟩
  rw [hfail.raised]
  simp

theorem plain_cdlyHi : Plain .CDLY_HI := ⟨by decide, by decide, by decide, by decide⟩

theorem cdlyHiWritten_idle (h : (s.cdly l).run = none) : cdlyHiWritten l s = ((s.setCdly l { s.cdly l with
    delay := s.get CDLY_HI.DELAY l * 2 ^ 32 + s.get CDLY_LO.DELAY l }).put CDLY_STAT.VALID 1 l).put CDLY_STAT.USER 1 l := by
  rw [cdlyHiWritten, h]

theorem cdlyHi_complete {l : LinkIx} (h : s.writes o .CDLY_HI l 0 v = true) (hrun : (s.cdly l).run = none) :
    ∃ t, exec (.cdlyHiWrite o l v) s = .next t ∧ (t.cdly l).delay = fieldOf v 0 16 * 2 ^ 32 + s.get CDLY_LO.DELAY l ∧
      t.isSet CDLY_STAT.VALID l = true ∧ t.isSet CDLY_STAT.USER l = true ∧
      RegsKept [RegId.CDLY_HI.at l, RegId.CDLY_STAT.at l] s t ∧ Kept [.regs, .cdlys, .tansyQ] s t := by
  obtain ⟨q, hq⟩ := busWrite_hook h plain_cdlyHi l.isLt
  have hx : Frame (.ofParts [.tansyQ]) s { s with tansyQ := q } := .withTansyQ .refl
  have hxregs : RegsKept [RegId.CDLY_HI.at l, RegId.CDLY_STAT.at l] s { s with tansyQ := q } := .refl
  generalize ({ s with tansyQ := q } : State) = x at *
  have hhook (m old : Word) (u : State) : writeHook o.toNat ⟨.CDLY_HI, l, 0⟩ m old v u = (v, u) := rfl
  have hafter (old : Word) (u : State) (hu : (u.cdly l).run = none) : afterWrite ⟨.CDLY_HI, l, 0⟩ old u = cdlyHiWritten l u := by
    change (if (u.cdly l).run.isSome = true then cdlyEnded l (cdlyHiWritten l u) else cdlyHiWritten l u) = _
    rw [hu]
    rfl
  have hy : Frame (.ofRegs [.CDLY_HI]) x (x.setReg (RegId.CDLY_HI.at l) v) := .setReg .refl
  have hyregs : RegsKept [RegId.CDLY_HI.at l, RegId.CDLY_STAT.at l] x (x.setReg (RegId.CDLY_HI.at l) v) := .setReg .refl
  have hhi : (x.setReg (RegId.CDLY_HI.at l) v).get CDLY_HI.DELAY l = fieldOf v 0 16 := get_setReg CDLY_HI.DELAY x l 0 v
  rw [hhook, hhook, hafter _ _ (by rw [hy.cdly, hx.cdly, hrun])] at hq
  dsimp only at hq
  generalize x.setReg (RegId.CDLY_HI.at l) v = y at *
  rw [cdlyHiWritten_idle (by rw [hy.cdly, hx.cdly, hrun]), hhi, hy.get, hx.get] at hq
  have hz : Frame (.ofParts [.cdlys]) y (y.setCdly l { y.cdly l with delay := fieldOf v 0 16 * 2 ^ 32 + s.get CDLY_LO.DELAY l }) :=
    .setCdly .refl
  have hzregs : RegsKept [RegId.CDLY_HI.at l, RegId.CDLY_STAT.at l] y (y.setCdly l { y.cdly l with
    delay := fieldOf v 0 16 * 2 ^ 32 + s.get CDLY_LO.DELAY l }) := .setCdly .refl
  have hdelay : ((y.setCdly l { y.cdly l with delay := fieldOf v 0 16 * 2 ^ 32 + s.get CDLY_LO.DELAY l }).cdly l).delay =
      fieldOf v 0 16 * 2 ^ 32 + s.get CDLY_LO.DELAY l := by
    rw [State.cdly_setCdly, if_pos rfl]
  generalize y.setCdly l _ = z at *
  have hvalid : ((z.put CDLY_STAT.VALID 1 l).put CDLY_STAT.USER 1 l).isSet CDLY_STAT.VALID l = true :=
    (isSet_put_of_apart (by decide) _ _ _ _ _).trans (isSet_put_one _ _ (by decide))
  have hall := (((hx.mono (w := .join [.ofParts [.cdlys, .tansyQ], .ofRegs [.CDLY_HI, .CDLY_STAT]]) (by decide)).lift (by decide) hy).lift
    (by decide) hz)
  refine ⟨_, hq, ?_, hvalid, isSet_put_one _ _ (by decide), ?_, ?_⟩
  · rw [State.cdly_put_keep, State.cdly_put_keep, hdelay]
  · exact .put (.put ((hxregs.trans hyregs).trans hzregs))
  · exact Frame.kept (.put (.put hall))

/-! ### `SOR_CTRL` (R246, R258) -/

theorem plain_sorCtrl : Plain .SOR_CTRL := ⟨by decide, by decide, by decide, by decide⟩

theorem sorCtrl_complete (h : s.writes o .SOR_CTRL 0 0 v = true) :
    ∃ t, exec (.sorCtrlWrite o v) s = .next t ∧ t.get SOR_CTRL.TRACK_S = max 1 (fieldOf v 8 16) ∧
      t.get SOR_CTRL.LMS_EN = fieldOf v 0 1 ∧ t.get SOR_CTRL.DTC_EN = fieldOf v 1 1 ∧ t.get SOR_CTRL.CD_EN = fieldOf v 2 1 ∧
      t.get SOR_CTRL.SK_FREEZE = fieldOf v 3 1 ∧ t.get SOR_CTRL.CDLY_EN = fieldOf v 4 1 ∧
      RegsKept [RegId.SOR_CTRL.at] s t ∧ Kept [.regs, .tansyQ] s t := by
  obtain ⟨q, hq⟩ := busWrite_hook h plain_sorCtrl
  have hx : Frame (.ofParts [.tansyQ]) s { s with tansyQ := q } := .withTansyQ .refl
  have hxregs : RegsKept [RegId.SOR_CTRL.at] s { s with tansyQ := q } := .refl
  generalize ({ s with tansyQ := q } : State) = x at *
  have hhook (m old : Word) (u : State) : writeHook o.toNat ⟨.SOR_CTRL, 0, 0⟩ m old v u = ((hookSorCtrl v s).1, u) := rfl
  have hafter (old : Word) (u : State) : afterWrite ⟨.SOR_CTRL, 0, 0⟩ old u = u := rfl
  rw [hhook, hhook, hafter] at hq
  dsimp only at hq
  have htrack : fieldOf (hookSorCtrl v s).1 8 16 = max 1 (fieldOf v 8 16) := by
    unfold hookSorCtrl
    dsimp only
    split
    · next h0 =>
      rw [fieldOf_withField _ _ _ _ (by decide), h0]
      rfl
    · next h0 => omega
  have hbit {i : ℕ} (hi : i < 8) : fieldOf (hookSorCtrl v s).1 i 1 = fieldOf v i 1 := by
    unfold hookSorCtrl
    dsimp only
    split
    · exact fieldOf_withField_ne _ _ _ _ _ _ (by decide) (by omega)
    · rfl
  generalize (hookSorCtrl v s).1 = w at *
  refine ⟨_, hq, (get_setReg SOR_CTRL.TRACK_S x 0 0 w).trans htrack, (get_setReg SOR_CTRL.LMS_EN x 0 0 w).trans (hbit (by decide)),
    (get_setReg SOR_CTRL.DTC_EN x 0 0 w).trans (hbit (by decide)), (get_setReg SOR_CTRL.CD_EN x 0 0 w).trans (hbit (by decide)),
    (get_setReg SOR_CTRL.SK_FREEZE x 0 0 w).trans (hbit (by decide)), (get_setReg SOR_CTRL.CDLY_EN x 0 0 w).trans (hbit (by decide)), ?_, ?_⟩
  · exact .setReg hxregs
  · exact Frame.kept (w := .join [.ofParts [.tansyQ], .ofRegs [.SOR_CTRL]]) (.setReg (hx.mono (by decide)))

/-- Settles O42, by the machine that a command starts, ends or refuses, and by the words that its write leaves. -/
theorem calibrationRunsComplete : Obligations.CalibrationRunsComplete := by
  refine ⟨?_, ?_, ?_, ?_, ?_, ?_, ?_, ?_, ?_⟩
  · intro m x s hcold hcd hcal hm hx hlms hdtc hreq hrun hconv hchip
    exact ⟨_, trimBackground_complete hcold hcd hcal hm hx hlms hdtc hreq hrun hconv hchip, trimStart_spec s⟩
  · intro x s hcold hcd hcal hx hen hrun htable hchip hfree hext hosc
    exact ⟨_, cdBackground_complete hcold hcd hcal hx hen hrun htable hchip hfree hext hosc, cdStart_spec hext hosc⟩
  · intro x s hcold hcd hcal hx hen hlink hrun hstate
    obtain ⟨hnew, hstat, hdelay, hregs, hf⟩ := cdlyStart_spec (l := x) (req := false) s
    exact ⟨_, cdlyBackground_complete hcold hcd hcal hx hen hlink hrun hstate, hnew, hstat, hdelay, hregs, hf.kept⟩
  · intro o v s h hgo hm hl hchip hlink hrun
    exact cdlyRequest_complete h hgo hm hl hchip hlink hrun
  · intro o v s h hgo hbad
    exact badRequest_complete h hgo hbad
  · intro o v s h hgo hm hk
    exact busyRequest_complete h hgo hm hk
  · intro l r s ha hrun hcd hdue hst
    exact cdlyTimeout_complete ha hrun hcd hdue hst
  · intro o l v s h hrun
    exact cdlyHi_complete h hrun
  · intro o v s h
    exact sorCtrl_complete h

end

end Sys2Proof.Proofs

/-! ## Actions on their way to a chiplet (R13, R15, R18 to R20, R101 to R103, R173, R202, R203) -/

namespace Sys2Proof.Proofs

set_option Elab.async false

open Sys2Proof Sys2Proof.Machine Sys2Proof.Claims

section

variable {w : Scope} {s t : State} {n c status : ℕ} {a : Machine.Action} {b : Admitted} {rest : List Machine.Action} {i : Item}

theorem Frame.verdicts (hf : Frame w s t) (hp : w.hasPart .verdicts = false := by decide) : t.verdicts = s.verdicts := hf.part .verdicts hp

theorem Frame.mark (hf : Frame w s t) (n q : ℕ) (hp : w.hasPart .chips = false := by decide) : t.mark n q = s.mark n q := by
  rw [State.mark, hf.chip n hp, ← State.mark]

/-! ### Sending (R13, R20) -/

theorem actionSend_complete {n : ChipletIx} {q : QueueIx} (hcold : s.coldHeld = false) (hnext : s.nextRel n q = some a)
    (hcd : s.cdDown = false) (hbelow : s.settledBelow q a.seq = true) (hout : s.chipOut n = false) (harm : s.isSet EPOCH_STAT.ARMED = false)
    (hload : s.fifoLoad n < 4096) : exec (.actionSend n q) s = .next (({ s with rel := s.rel.erase a } : State).setChip n
      { s.chip n with transit := (s.chip n).transit ++ [a] }) := by
  obtain ⟨hlost, hreinit⟩ := Bool.or_eq_false_iff.mp hout
  refine (act_next hcold _).trans (congrArg Host.Outcome.next ?_)
  rw [actionSendS, hnext]
  dsimp only
  rw [hcd, hbelow, if_neg (by simp), hlost, if_neg (by simpa using hreinit), harm, if_neg (by simpa using hload)]
  rfl

theorem actionSend_lost {n : ChipletIx} {q : QueueIx} (hcold : s.coldHeld = false) (hnext : s.nextRel n q = some a)
    (hcd : s.cdDown = false) (hbelow : s.settledBelow q a.seq = true) (hout : s.chipOut n = true) : exec (.actionSend n q) s =
      .next (judged a (editItem q a.seq (·.setHw stTGTLOST a.idx) { s with rel := s.rel.erase a })) := by
  refine (act_next hcold _).trans (congrArg Host.Outcome.next ?_)
  rw [actionSendS, hnext]
  dsimp only
  rw [hcd, hbelow, if_neg (by simp), if_pos (by simpa [State.chipOut] using hout)]

theorem nextRel_queue {q : ℕ} (h : s.nextRel n q = some a) : a.q = q := by
  have hmem (l : List Machine.Action) {b : Machine.Action} (hb : firstAct l = some b) : b ∈ l := by
    induction l with
    | nil => simp [firstAct] at hb
    | cons x l ih =>
      rw [firstAct] at hb
      split at hb
      · simp_all
      · next y hy =>
        split at hb
        · obtain rfl := Option.some.inj hb
          exact List.mem_cons_of_mem _ (ih hy)
        · obtain rfl := Option.some.inj hb
          exact List.mem_cons_self
  have hin := (List.mem_filter.mp (hmem _ h)).2
  simp only [Bool.and_eq_true, beq_iff_eq] at hin
  exact hin.1

theorem seq_setHw (i : Item) (x y : ℕ) : (i.setHw x y).seq = i.seq := by
  unfold Item.setHw
  split
  · split <;> rfl
  · rfl

theorem setHw_none (h : i.hw = none) (x y : ℕ) : i.setHw x y = { i with hw := some (x, y) } := by
  rw [Item.setHw, h]

/-! ### Admission (R15, R17) -/

/-- What `admitAction` does for every action (R15, R17). -/
def admitPlain (n : ℕ) (b : Admitted) (s : State) : State :=
  editItem b.act.q b.act.seq (fun i => { i with horizon := max i.horizon b.due }) (judged b.act
    (refreshFifo n ((setMark n b.act.q (markOf b.act.seq b.act.idx) s).setChip n
      { (setMark n b.act.q (markOf b.act.seq b.act.idx) s).chip n with
        fifo := ((setMark n b.act.q (markOf b.act.seq b.act.idx) s).chip n).fifo ++ [b] })))

theorem admitAction_eq (h : ∀ k x m u, b.act.kind ≠ .arm k x m u) : admitAction n b s = admitPlain n b s := by
  unfold admitAction
  dsimp only
  split
  · next k x m u hk => exact absurd hk (h k x m u)
  · rfl

theorem admitAction_arm {k x m u : ℕ} (h : b.act.kind = .arm k x m u) : admitAction n b s =
    cdAbandon k (if 2 ≤ mwOut x then addWait k (b.act.q, b.act.seq, b.act.idx) (admitPlain n b s) else admitPlain n b s) := by
  unfold admitAction
  dsimp only
  rw [h]
  rfl

/-- An action has entered a chiplet's FIFO (R15, R17). -/
structure Entered (n : ℕ) (b : Admitted) (s t : State) : Prop where
  fifo : (t.chip n).fifo = (s.chip n).fifo ++ [b]
  transit : (t.chip n).transit = (s.chip n).transit
  mark : t.mark n b.act.q = markOf b.act.seq b.act.idx
  level : t.get COMMIT_STAT.LEVEL n = ((s.chip n).fifo.length + 1) % 8192
  late : t.isSet COMMIT_STAT.LATE_SEEN n = s.isSet COMMIT_STAT.LATE_SEEN n
  frame : Frame (.join [.ofParts [.chips, .queues], .ofRegs [.COMMIT_STAT]]) s t
  regs : RegsKept [RegId.COMMIT_STAT.at n] s t

theorem admitPlain_spec (n : ℕ) (b : Admitted) (s : State) : Entered n b s (admitPlain n b s) ∧ ∀ i, s.item b.act.q b.act.seq = some i →
    ((admitPlain n b s).item b.act.q b.act.seq).map (·.recs) = some i.recs := by
  unfold admitPlain
  have hx : Frame (.ofParts [.chips]) s (setMark n b.act.q (markOf b.act.seq b.act.idx) s) := .setMark .refl
  have hxc : (setMark n b.act.q (markOf b.act.seq b.act.idx) s).chip n = { s.chip n with
      marks := SMap.set (fun _ => 0) (s.chip n).marks b.act.q (markOf b.act.seq b.act.idx) } := by
    rw [setMark, State.chip_setChip, if_pos rfl]
  have hxr : RegsKept [RegId.COMMIT_STAT.at n] s (setMark n b.act.q (markOf b.act.seq b.act.idx) s) := .refl
  have hmark : SMap.get (fun _ => 0) (SMap.set (fun _ => 0) (s.chip n).marks b.act.q (markOf b.act.seq b.act.idx)) b.act.q =
      markOf b.act.seq b.act.idx := SMap.get_set_same ..
  generalize setMark n b.act.q (markOf b.act.seq b.act.idx) s = x at *
  have hy : Frame (.ofParts [.chips]) x (x.setChip n { x.chip n with fifo := (x.chip n).fifo ++ [b] }) := .setChip .refl
  have hyc : (x.setChip n { x.chip n with fifo := (x.chip n).fifo ++ [b] }).chip n = { x.chip n with fifo := (x.chip n).fifo ++ [b] } := by
    rw [State.chip_setChip, if_pos rfl]
  have hyr : RegsKept [RegId.COMMIT_STAT.at n] x (x.setChip n { x.chip n with fifo := (x.chip n).fifo ++ [b] }) := .refl
  generalize x.setChip n _ = y at *
  have hfifo : (y.chip n).fifo = (s.chip n).fifo ++ [b] := by rw [hyc, hxc]
  have hz : Frame (.ofRegs [.COMMIT_STAT]) y (refreshFifo n y) := .refreshFifo .refl
  have hzr : RegsKept [RegId.COMMIT_STAT.at n] y (refreshFifo n y) := by
    unfold refreshFifo State.when
    dsimp only
    split
    · exact .put (.put .refl)
    · exact .put .refl
  have hzl : (refreshFifo n y).get COMMIT_STAT.LEVEL n = ((s.chip n).fifo.length + 1) % 8192 ∧
      (refreshFifo n y).isSet COMMIT_STAT.LATE_SEEN n = y.isSet COMMIT_STAT.LATE_SEEN n := by
    have hlevel := State.get_put y COMMIT_STAT.LEVEL (y.chip n).fifo.length n 0 (by decide)
    have hlate : (y.put COMMIT_STAT.LEVEL (y.chip n).fifo.length n).isSet COMMIT_STAT.LATE_SEEN n = y.isSet COMMIT_STAT.LATE_SEEN n :=
      isSet_put_of_apart (by decide) _ _ _ _ _
    have hlen : (y.chip n).fifo.length = (s.chip n).fifo.length + 1 := by rw [hfifo, List.length_append, List.length_singleton]
    unfold refreshFifo State.when
    rw [← hlen]
    dsimp only
    split
    · exact ⟨(get_put_of_apart (by decide) ..).trans hlevel, (isSet_put_of_apart (by decide) _ _ _ _ _).trans hlate⟩
    · exact ⟨hlevel, hlate⟩
  generalize refreshFifo n y = z at *
  have hall : Frame (.join [.ofParts [.chips], .ofRegs [.COMMIT_STAT]]) s z :=
    ((hx.mono (by decide)).lift (by decide) hy).lift (by decide) hz
  have hregs := (hxr.trans hyr).trans hzr
  have hu : Frame (.ofParts [.queues]) z (editItem b.act.q b.act.seq (fun i => { i with horizon := max i.horizon b.due }) (judged b.act z)) :=
    .editItem (.judged .refl)
  have hur : RegsKept [RegId.COMMIT_STAT.at n] z (editItem b.act.q b.act.seq (fun i => { i with horizon := max i.horizon b.due })
    (judged b.act z)) := .refl
  have hitem (i : Item) (hi : s.item b.act.q b.act.seq = some i) : ((editItem b.act.q b.act.seq (fun i => { i with
      horizon := max i.horizon b.due }) (judged b.act z)).item b.act.q b.act.seq).map (·.recs) = some i.recs := by
    have hzi : z.item b.act.q b.act.seq = some i := by rw [State.item, hall.queue, ← State.item, hi]
    have hji : (judged b.act z).item b.act.q b.act.seq = some { i with out := i.out - 1 } := item_editItem (fun _ => rfl) hzi
    have hui := item_editItem (f := fun i => { i with horizon := max i.horizon b.due }) (fun _ => rfl) hji
    rw [hui]
    rfl
  generalize editItem b.act.q b.act.seq _ (judged b.act z) = u at *
  refine ⟨⟨?_, ?_, ?_, ?_, ?_, (hall.mono (by decide)).lift (by decide) hu, hregs.trans hur⟩, hitem⟩
  · rw [hu.chip, hz.chip, hfifo]
  · rw [hu.chip, hz.chip, hyc, hxc]
  · rw [State.mark, hu.chip, hz.chip, hyc, hxc]
    exact hmark
  · rw [hu.get, hzl.1]
  · rw [hu.isSet, hzl.2, hy.isSet, hx.isSet]

/-! ### An abort at the chiplet (R203) -/

/-- An action has aborted its item at its chiplet (R203). -/
structure AbortedAt (n : ℕ) (a : Machine.Action) (status : ℕ) (s t : State) : Prop where
  fifo : (t.chip n).fifo = (s.chip n).fifo
  transit : (t.chip n).transit = (s.chip n).transit
  mark : t.mark n a.q = markOf a.seq a.idx
  verdicts : t.verdicts = s.verdicts ++ [(a.q, a.seq, a.idx, status)]
  frame : Frame Frame.Scope.abortAt s t

theorem abortAt_spec (n : ℕ) (a : Machine.Action) (status : ℕ) (s : State) : AbortedAt n a status s (abortAt n a status s) := by
  have hf : Frame Frame.Scope.abortAt s (abortAt n a status s) := .abortAt .refl
  have hchip : (abortAt n a status s).chip n = { s.chip n with
      marks := SMap.set (fun _ => 0) (s.chip n).marks a.q (markOf a.seq a.idx)
      aborts := SMap.set (fun _ => 0) (s.chip n).aborts a.q a.seq } := by
    unfold abortAt
    have hx : (setMark n a.q (markOf a.seq a.idx) s).chip n = { s.chip n with
        marks := SMap.set (fun _ => 0) (s.chip n).marks a.q (markOf a.seq a.idx) } := by
      rw [setMark, State.chip_setChip, if_pos rfl]
    generalize setMark n a.q (markOf a.seq a.idx) s = x at *
    dsimp only
    rw [Frame.chip (.judged .refl : Frame (.ofParts [.queues]) _ (judged a _))]
    change (x.setChip n { x.chip n with aborts := SMap.set (fun _ => 0) (x.chip n).aborts a.q a.seq }).chip n = _
    rw [State.chip_setChip, if_pos rfl, hx]
  have hmark : SMap.get (fun _ => 0) (SMap.set (fun _ => 0) (s.chip n).marks a.q (markOf a.seq a.idx)) a.q = markOf a.seq a.idx :=
    SMap.get_set_same ..
  refine ⟨by rw [hchip], by rw [hchip], ?_, rfl, hf⟩
  rw [State.mark, hchip]
  exact hmark

/-! ### Late actions (R202) -/

/-- A late action has been reported (R202). -/
structure LateReported (n : ℕ) (s t : State) : Prop where
  seen : t.isSet COMMIT_STAT.LATE_SEEN n = true
  count : t.wideAt aQM_LATE = (s.wideAt aQM_LATE + 1) % 2 ^ 64
  raised : t.raising = s.raising ++ [275]
  frame : Frame Frame.Scope.lateReport s t
  regs : RegsKept [RegId.COMMIT_STAT.at n] s t

theorem lateReport_spec (n : ℕ) (s : State) : LateReported n s (lateReport n s) := by
  have hf : Frame Frame.Scope.lateReport s (lateReport n s) := .lateReport .refl
  have hseen := isSet_put_one (s := s) (f := COMMIT_STAT.LATE_SEEN) n 0 (by decide)
  have hx : Frame (.ofRegs [.COMMIT_STAT]) s (s.put COMMIT_STAT.LATE_SEEN 1 n) := .put .refl
  have hregs : RegsKept [RegId.COMMIT_STAT.at n] s (lateReport n s) := .setWide (.raise (.put .refl))
  suffices h : (lateReport n s).isSet COMMIT_STAT.LATE_SEEN n = true ∧
      (lateReport n s).wideAt aQM_LATE = (s.wideAt aQM_LATE + 1) % 2 ^ 64 ∧ (lateReport n s).raising = s.raising ++ [275] from
    ⟨h.1, h.2.1, h.2.2, hf, hregs⟩
  unfold lateReport
  generalize s.put COMMIT_STAT.LATE_SEEN 1 n = x at *
  dsimp only
  have hy : Frame (.ofParts [.raising]) x (x.raise 275) := .raise .refl
  have hyr : (x.raise 275).raising = x.raising ++ [275] := rfl
  generalize x.raise 275 = y at *
  have hz : Frame (.ofParts [.wide]) y (y.setWide aQM_LATE ((y.wideAt aQM_LATE + 1) % 2 ^ 64)) := .setWide .refl
  have hzw := State.wideAt_setWide y aQM_LATE ((y.wideAt aQM_LATE + 1) % 2 ^ 64) aQM_LATE
  generalize y.setWide _ _ = z at *
  refine ⟨by rw [hz.isSet, hy.isSet, hseen], ?_, by rw [hz.raising, hyr, hx.raising]⟩
  rw [hzw, if_pos rfl, hy.wideAt, hx.wideAt]

/-! ### Arrival -/

/-- The first action in transit to a chiplet has been taken. -/
def arrived (n : ℕ) (rest : List Machine.Action) (s : State) : State := s.setChip n { s.chip n with transit := rest }

theorem chip_arrived (n : ℕ) (rest : List Machine.Action) (s : State) (m : ℕ) : (arrived n rest s).chip m =
    if m = n then { s.chip n with transit := rest } else s.chip m := State.chip_setChip ..

theorem arrived_frame (n : ℕ) (rest : List Machine.Action) (s : State) : Frame (.ofParts [.chips]) s (arrived n rest s) := .setChip .refl

theorem count_arrived (n : ℕ) (rest : List Machine.Action) (s : State) (m : ℕ) : (arrived n rest s).count m = s.count m := by
  rw [State.count, State.count, (arrived_frame n rest s).clock, chip_arrived]
  split
  · next h =>
    subst h
    rfl
  · rfl

theorem mark_arrived (n : ℕ) (rest : List Machine.Action) (s : State) (q : ℕ) : (arrived n rest s).mark n q = s.mark n q := by
  rw [State.mark, chip_arrived, if_pos rfl]
  rfl

/-- The action is new to its chiplet, and its item is not being aborted there. -/
structure IsJudged (n : ℕ) (a : Machine.Action) (rest : List Machine.Action) (s : State) : Prop where
  transit : (s.chip n).transit = a :: rest
  disarmed : s.isSet EPOCH_STAT.ARMED = false
  new : s.mark n a.q < markOf a.seq a.idx
  whole : SMap.get (fun _ => 0) (s.chip n).aborts a.q ≠ a.seq

/-- What an action within the horizon does where it arrives. -/
def takeIn (n : ℕ) (a : Machine.Action) (u : State) : State :=
  match a.kind with
  | .hop c _ ws => arriveHop n c ws a u
  | _ => arriveOther n a u

theorem takeIn_hop {x : ℕ} {ws : List Word} (hk : a.kind = .hop c x ws) (u : State) : takeIn n a u = arriveHop n c ws a u := by
  rw [takeIn, hk]

theorem takeIn_other (hk : ∀ c x ws, a.kind ≠ .hop c x ws) (u : State) : takeIn n a u = arriveOther n a u := by
  unfold takeIn
  split
  · next c x ws hc => exact absurd hc (hk c x ws)
  · rfl

theorem arrive_judged (h : IsJudged n a rest s) : actionArriveS n s = if s.count n + 2 ^ 32 < a.tick then
    (abortAt n a stHORIZON (arrived n rest s)).raise 274 else takeIn n a (arrived n rest s) := by
  obtain ⟨htransit, harm, hnew, hwhole⟩ := h
  unfold actionArriveS
  rw [htransit]
  change (if s.isSet EPOCH_STAT.ARMED = true then _ else if markOf a.seq a.idx ≤ (arrived n rest s).mark n a.q then _ else
    if SMap.get (fun _ => 0) ((arrived n rest s).chip n).aborts a.q = a.seq then _ else
    if (arrived n rest s).count n + 2 ^ 32 < a.tick then _ else takeIn n a (arrived n rest s)) = _
  rw [if_neg (by simp [harm]), mark_arrived, if_neg (by omega), chip_arrived, if_pos rfl, if_neg hwhole, count_arrived]
  rfl

/-! ### Actions that are no HOP (R18, R202) -/

/-- An action that is no HOP, as its chiplet admits it at `due`. -/
def plainAdmitted (a : Machine.Action) (due : ℕ) : Admitted := { act := a, due := due, cls := .inPlace, cached := true, lead := 8 }

theorem arriveOther_early (h : s.count n + 8 ≤ a.tick) : arriveOther n a s = admitAction n (plainAdmitted a a.tick) s := if_pos h

theorem arriveOther_late (h : a.tick < s.count n + 8) (hlate : a.applyLate = false) :
    arriveOther n a s = abortAt n a stLATE (lateReport n s) := by
  unfold arriveOther
  rw [hlate]
  exact if_neg (by omega)

/-- A late action under APPLY-LATE is reported, and its item remembers it (R202). -/
def appliedLate (n : ℕ) (a : Machine.Action) (s : State) : State :=
  editItem a.q a.seq (fun i => { i with lateApplied := true }) (lateReport n s)

theorem appliedLate_spec (n : ℕ) (a : Machine.Action) (s : State) : LateReported n s (lateReport n s) ∧
    Frame (.ofParts [.queues]) (lateReport n s) (appliedLate n a s) := ⟨lateReport_spec n s, .editItem .refl⟩

theorem arriveOther_applied (h : a.tick < s.count n + 8) (hlate : a.applyLate = true) :
    arriveOther n a s = admitAction n (plainAdmitted a (s.count n + 8)) (appliedLate n a s) := by
  have hcount : (lateReport n s).count n = s.count n := (lateReport_spec n s).frame.count n
  unfold arriveOther appliedLate
  generalize lateReport n s = x at *
  rw [if_neg (by omega)]
  dsimp only
  have hedit : Frame (.ofParts [.queues]) x (editItem a.q a.seq (fun i => { i with lateApplied := true }) x) := .editItem .refl
  have hx : (editItem a.q a.seq (fun i => { i with lateApplied := true }) x).count n = x.count n := hedit.count n
  rw [hlate, if_pos rfl, hx, hcount]
  rfl

/-! ### HOPs (R101 to R103, R108) -/

theorem hopOverlaps_congr {iv : ℕ × ℕ} {cls : HopClass} (hcore : t.core c = s.core c) (hfifo : (t.chip (c / 8)).fifo = (s.chip (c / 8)).fifo) :
    t.hopOverlaps c iv cls = s.hopOverlaps c iv cls := by
  unfold State.hopOverlaps State.spaceLost
  rw [hcore, hfifo]

/-- The lead of a HOP that arrives now (R102). -/
def leadOf (n c : ℕ) (ws : List Word) (s : State) : ℕ :=
  hopLead (s.hopClass c ws) (s.hopCached n ws) (ctxDiv ws (s.hopCached n ws)).preset

/-- The interval that a HOP would hold its core for (R103). -/
def intervalOf (n c : ℕ) (ws : List Word) (due : ℕ) (s : State) : ℕ × ℕ :=
  busyOf (s.hopClass c ws) (s.hopCached n ws) (ctxDiv ws (s.hopCached n ws)).preset (leadOf n c ws s) due

/-- A HOP, as its chiplet admits it at `due`. -/
def hopAdmitted (n c : ℕ) (ws : List Word) (a : Machine.Action) (due : ℕ) (s : State) : Admitted :=
  { act := a, due := due, cls := s.hopClass c ws, cached := s.hopCached n ws, lead := leadOf n c ws s }

variable {ws : List Word}

theorem leadOf_le (n c : ℕ) (ws : List Word) (s : State) : leadOf n c ws s ≤ 2 ^ 32 := by
  unfold leadOf hopLead pingPongLead presetDelay
  split
  · split_ifs <;> decide
  · decide

theorem arriveHop_eq {late : Bool} (h : decide (a.tick < s.count n + leadOf n c ws s) = late) : arriveHop n c ws a s =
    if (late && !a.applyLate) = true then failHop c 10 (abortAt n a stLATE (lateReport n s))
    else if (s.when late (lateReport n)).hopOverlaps c
        (intervalOf n c ws (if late = true then s.count n + leadOf n c ws s else a.tick) s) (s.hopClass c ws) = true then
      failHop c 9 (abortAt n a stHOPSPACE (s.when late (lateReport n)))
    else admitAction n (hopAdmitted n c ws a (if late = true then s.count n + leadOf n c ws s else a.tick) s)
      ((s.when late (lateReport n)).when late (editItem a.q a.seq fun i => { i with lateApplied := true })) := by
  subst h
  rfl

theorem arriveHop_admitted (h : s.count n + leadOf n c ws s ≤ a.tick)
    (hfree : s.hopOverlaps c (intervalOf n c ws a.tick s) (s.hopClass c ws) = false) :
    arriveHop n c ws a s = admitAction n (hopAdmitted n c ws a a.tick s) s := by
  rw [arriveHop_eq (late := false) (decide_eq_false (by omega)), if_neg (by simp)]
  simp [State.when, hfree]

theorem arriveHop_crowded (h : s.count n + leadOf n c ws s ≤ a.tick)
    (hfull : s.hopOverlaps c (intervalOf n c ws a.tick s) (s.hopClass c ws) = true) :
    arriveHop n c ws a s = failHop c 9 (abortAt n a stHOPSPACE s) := by
  rw [arriveHop_eq (late := false) (decide_eq_false (by omega)), if_neg (by simp)]
  simp [State.when, hfull]

theorem arriveHop_late (h : a.tick < s.count n + leadOf n c ws s) (hlate : a.applyLate = false) :
    arriveHop n c ws a s = failHop c 10 (abortAt n a stLATE (lateReport n s)) := by
  rw [arriveHop_eq (decide_eq_true h), hlate]
  rfl

theorem arriveHop_applied (h : a.tick < s.count n + leadOf n c ws s) (hlate : a.applyLate = true)
    (hfree : s.hopOverlaps c (intervalOf n c ws (s.count n + leadOf n c ws s) s) (s.hopClass c ws) = false) :
    arriveHop n c ws a s = admitAction n (hopAdmitted n c ws a (s.count n + leadOf n c ws s) s) (appliedLate n a s) := by
  have hr := (lateReport_spec n s).frame
  have hfree' : (lateReport n s).hopOverlaps c (intervalOf n c ws (s.count n + leadOf n c ws s) s) (s.hopClass c ws) = false := by
    rw [hopOverlaps_congr (hr.core c) (by rw [hr.chip]), hfree]
  rw [arriveHop_eq (decide_eq_true h), hlate, if_neg (by simp), State.when, if_pos rfl, if_pos rfl, hfree']
  rfl

/-- A HOP has failed at its core (R108). -/
structure HopFailed (c reason : ℕ) (s t : State) : Prop where
  fail : t.isSet HOP_STAT.FAIL c = true
  reason : t.get HOP_STAT.LAST_REASON c = reason
  raised : t.raising = s.raising ++ [265]
  frame : Frame Frame.Scope.failHop s t

theorem failHop_spec (c : ℕ) {reason : ℕ} (hr : reason < 16) (s : State) : HopFailed c reason s (failHop c reason s) := by
  have hf : Frame Frame.Scope.failHop s (failHop c reason s) := .failHop .refl
  suffices h : (failHop c reason s).isSet HOP_STAT.FAIL c = true ∧ (failHop c reason s).get HOP_STAT.LAST_REASON c = reason ∧
      (failHop c reason s).raising = s.raising ++ [265] from ⟨h.1, h.2.1, h.2.2, hf⟩
  have hx : Frame (.ofRegs [.HOP_STAT]) s ((s.put HOP_STAT.FAIL 1 c).put HOP_STAT.LAST_REASON reason c) := .put (.put .refl)
  have hfail : ((s.put HOP_STAT.FAIL 1 c).put HOP_STAT.LAST_REASON reason c).isSet HOP_STAT.FAIL c = true :=
    (isSet_put_of_apart (by decide) _ _ _ _ _).trans (isSet_put_one _ _ (by decide))
  have hreason := get_put_lt (s := s.put HOP_STAT.FAIL 1 c) (f := HOP_STAT.LAST_REASON) c 0 (by decide) hr
  unfold failHop
  generalize (s.put HOP_STAT.FAIL 1 c).put HOP_STAT.LAST_REASON reason c = x at *
  dsimp only
  have hy : Frame (.ofRegs [.HOP_CNT]) x (x.bump HOP_CNT.FAILS c) := .bump .refl
  generalize x.bump HOP_CNT.FAILS c = y at *
  have hz : Frame (.ofParts [.raising]) y (y.raise 265) := .raise .refl
  have hzr : (y.raise 265).raising = y.raising ++ [265] := rfl
  generalize y.raise 265 = z at *
  have ht : Frame Frame.Scope.logEvent z (z.logEvent s (RegId.HOP_STAT.at c) reason) := .logEvent .refl
  refine ⟨?_, ?_, ?_⟩
  · rw [ht.isSet, hz.isSet, hy.isSet, hfail]
  · rw [ht.get, hz.get, hy.get, hreason]
  · rw [ht.raising, hzr, hy.raising, hx.raising]

/-! ### Channels that an arm finds in a calibration (R173, R176) -/

theorem skewAgain_chan (k j : ℕ) (s : State) : (skewAgain k s).chan j = s.chan j := Frame.chan (w := Frame.Scope.skewAgain) (.skewAgain .refl) j

theorem cdLeave_chan (k : ℕ) (s : State) : ((cdLeave k s).chan k).cd = none := by
  rw [cdLeave, skewAgain_chan, State.tsSet]
  rw [State.chan_put_keep, State.chan_setChan, if_pos rfl]

theorem cdAbandon_chan (k : ℕ) (s : State) : ((cdAbandon k s).chan k).cd = none := by
  have hleave := cdLeave_chan k s
  unfold cdAbandon
  split
  · next r hr =>
    split
    · unfold cdFail
      generalize cdLeave k s = x at *
      have hx : Frame Frame.Scope.calFail x (calFail 2 k 11 true x) := .calFail .refl
      generalize calFail 2 k 11 true x = y at *
      have hy : Frame (.ofRegs [.CD_STAT]) y (cdState k 4 y) := .cdState .refl
      generalize cdState k 4 y = z at *
      have hz : Frame Frame.Scope.refreshAllConv z (refreshAllConv z) := .refreshAllConv .refl
      rw [hz.chan, hy.chan, hx.chan, hleave]
    · generalize cdLeave k s = y at *
      have hy : Frame (.ofRegs [.CD_STAT]) y (cdState k (s.cdRest k) y) := .cdState .refl
      generalize cdState k (s.cdRest k) y = z at *
      have hz : Frame Frame.Scope.refreshAllConv z (refreshAllConv z) := .refreshAllConv .refl
      rw [hz.chan, hy.chan, hleave]
  · next h => exact h

/-! ### The commands -/

theorem actionArrive_exec {n : ChipletIx} (ha : alive n s) : exec (.actionArrive n) s = .next (actionArriveS n s) := actOn_alive ha _

theorem arriveOld_complete {n : ChipletIx} (ha : alive n s) (htransit : (s.chip n).transit = a :: rest) (harm : s.isSet EPOCH_STAT.ARMED = false)
    (hold : markOf a.seq a.idx ≤ s.mark n a.q) : exec (.actionArrive n) s = .next (judged a (arrived n rest s)) := by
  refine (actionArrive_exec ha).trans (congrArg Host.Outcome.next ?_)
  unfold actionArriveS
  rw [htransit]
  change (if s.isSet EPOCH_STAT.ARMED = true then _ else if markOf a.seq a.idx ≤ (arrived n rest s).mark n a.q then _ else _) = _
  rw [if_neg (by simp [harm]), mark_arrived, if_pos hold]
  rfl

theorem Entered.of_arrived (h : Entered n b (arrived n rest s) t) : (t.chip n).fifo = (s.chip n).fifo ++ [b] ∧ (t.chip n).transit = rest ∧
    t.mark n b.act.q = markOf b.act.seq b.act.idx ∧ t.get COMMIT_STAT.LEVEL n = ((s.chip n).fifo.length + 1) % 8192 ∧
    RegsKept [RegId.COMMIT_STAT.at n] s t ∧ Kept [.chips, .queues, .regs] s t := by
  obtain ⟨hfifo, htransit, hmark, hlevel, -, hf, hregs⟩ := h
  have hchip : (arrived n rest s).chip n = { s.chip n with transit := rest } := by rw [chip_arrived, if_pos rfl]
  have hall : Frame (.join [.ofParts [.chips, .queues], .ofRegs [.COMMIT_STAT]]) s t :=
    ((arrived_frame n rest s).mono (by decide)).lift (by decide) hf
  have hregs' : RegsKept [RegId.COMMIT_STAT.at n] s (arrived n rest s) := .refl
  rw [hchip] at hfifo htransit hlevel
  exact ⟨hfifo, htransit, hmark, hlevel, hregs'.trans hregs, hall.kept⟩

/-- The item of an action for a lost chiplet takes TGTLOST (R23). -/
theorem lostAction_spec {q seq idx : ℕ} {l : List Machine.Action} (hi : s.item q seq = some i) (hhw : i.hw = none) :
    (editItem q seq (fun i => { i with out := i.out - 1 }) (editItem q seq (·.setHw stTGTLOST idx) { s with rel := l })).rel = l ∧
    ((editItem q seq (fun i => { i with out := i.out - 1 }) (editItem q seq (·.setHw stTGTLOST idx) { s with rel := l })).item q seq).bind
      (·.hw) = some (stTGTLOST, idx) ∧
    ((editItem q seq (fun i => { i with out := i.out - 1 }) (editItem q seq (·.setHw stTGTLOST idx) { s with rel := l })).item q seq).map
      (·.out) = some (i.out - 1) ∧
    Kept [.rel, .queues] s (editItem q seq (fun i => { i with out := i.out - 1 }) (editItem q seq (·.setHw stTGTLOST idx)
      { s with rel := l })) := by
  have hx : Frame (.ofParts [.rel]) s { s with rel := l } := .withRel .refl
  have hrel : ({ s with rel := l } : State).rel = l := rfl
  generalize ({ s with rel := l } : State) = x at *
  have hxi : x.item q seq = some i := by rw [State.item, hx.queue, ← State.item, hi]
  have hyi := item_editItem (f := (·.setHw stTGTLOST idx)) (fun j => seq_setHw j _ _) hxi
  have hzi := item_editItem (f := fun i => { i with out := i.out - 1 }) (fun _ => rfl) hyi
  rw [hzi, setHw_none hhw]
  refine ⟨hrel, rfl, rfl, ?_⟩
  exact Frame.kept (w := .ofParts [.rel, .queues]) (.editItem (.editItem (hx.mono (by decide))))

/-! ### Verdicts (R203) -/

theorem verdict_complete {q idx : ℕ} {vs : List (ℕ × ℕ × ℕ × ℕ)} (hcold : s.coldHeld = false) (hcd : s.cdDown = false)
    (hv : s.verdicts = (q, n, idx, status) :: vs) : exec .abortVerdictArrive s = .next (editItem q n (fun i => { i.setHw status idx with
      aborted := true, out := i.out - (s.rel.filter fun a => a.q == q && a.seq == n).length })
      { s with verdicts := vs, rel := s.rel.filter fun a => !(a.q == q && a.seq == n) }) := by
  refine (act_next hcold _).trans (congrArg Host.Outcome.next ?_)
  unfold abortVerdictArriveS
  rw [hv]
  dsimp only
  rw [hcd, if_neg (by decide)]

theorem verdict_spec {q idx k : ℕ} {vs : List (ℕ × ℕ × ℕ × ℕ)} {l : List Machine.Action} (hi : s.item q n = some i) (hhw : i.hw = none) :
    ((editItem q n (fun i => { i.setHw status idx with aborted := true, out := i.out - k })
      { s with verdicts := vs, rel := l }).item q n).bind (·.hw) = some (status, idx) ∧
    ((editItem q n (fun i => { i.setHw status idx with aborted := true, out := i.out - k })
      { s with verdicts := vs, rel := l }).item q n).map (·.aborted) = some true ∧
    ((editItem q n (fun i => { i.setHw status idx with aborted := true, out := i.out - k })
      { s with verdicts := vs, rel := l }).item q n).map (·.out) = some (i.out - k) ∧
    Kept [.verdicts, .rel, .queues] s (editItem q n (fun i => { i.setHw status idx with aborted := true, out := i.out - k })
      { s with verdicts := vs, rel := l }) := by
  have hx : Frame (.ofParts [.verdicts, .rel]) s { ({ s with verdicts := vs } : State) with rel := l } := .withRel (.withVerdicts .refl)
  change Frame _ s { s with verdicts := vs, rel := l } at hx
  generalize ({ s with verdicts := vs, rel := l } : State) = x at *
  have hxi : x.item q n = some i := by rw [State.item, hx.queue, ← State.item, hi]
  have hyi := item_editItem (f := fun i => { i.setHw status idx with aborted := true, out := i.out - k }) (fun j => seq_setHw j _ _) hxi
  rw [hyi, setHw_none hhw]
  exact ⟨rfl, rfl, rfl, Frame.kept (w := .ofParts [.verdicts, .rel, .queues]) (.editItem (hx.mono (by decide)))⟩

/-! ### Judgement of an action that is no HOP -/

theorem arrive_near {n : ChipletIx} (ha : alive n s) (h : IsJudged n a rest s) (hnear : a.tick ≤ s.count n + 2 ^ 32) :
    exec (.actionArrive n) s = .next (takeIn n a (arrived n rest s)) := by
  have hin : actionArriveS n s = takeIn n a (arrived n rest s) := by
    rw [arrive_judged h, if_neg (Nat.not_lt.mpr hnear)]
  rw [← hin]
  exact actionArrive_exec ha

theorem arrive_plain {n : ChipletIx} (ha : alive n s) (h : IsJudged n a rest s) (hhop : ∀ c x ws, a.kind ≠ .hop c x ws)
    (htick : s.count n + 8 ≤ a.tick) (hfar : a.tick ≤ s.count n + 2 ^ 32) :
    exec (.actionArrive n) s = .next (admitAction n (plainAdmitted a a.tick) (arrived n rest s)) := by
  have hcount : (arrived n rest s).count n + 8 ≤ a.tick := by rwa [count_arrived]
  exact (arrive_near ha h hfar).trans (congrArg Host.Outcome.next ((takeIn_other hhop _).trans (arriveOther_early hcount)))

theorem arrive_tooLate {n : ChipletIx} (ha : alive n s) (h : IsJudged n a rest s) (hhop : ∀ c x ws, a.kind ≠ .hop c x ws)
    (htick : a.tick < s.count n + 8) (hlate : a.applyLate = false) :
    ∃ t, exec (.actionArrive n) s = .next t ∧ (t.chip n).fifo = (s.chip n).fifo ∧ t.isSet COMMIT_STAT.LATE_SEEN n = true ∧
      t.wideAt aQM_LATE = (s.wideAt aQM_LATE + 1) % 2 ^ 64 ∧ t.raising = s.raising ++ [275] ∧
      t.verdicts = s.verdicts ++ [(a.q, a.seq, a.idx, stLATE)] ∧ t.mark n a.q = markOf a.seq a.idx ∧
      RegsKept [RegId.COMMIT_STAT.at n] s t ∧ Kept [.chips, .queues, .regs, .wide, .raising, .verdicts] s t := by
  refine ⟨_, arrive_near ha h (by omega), ?_⟩
  rw [takeIn_other hhop, arriveOther_late (by rwa [count_arrived]) hlate]
  have hx := arrived_frame n rest s
  have hxr : RegsKept [RegId.COMMIT_STAT.at n] s (arrived n rest s) := .refl
  have hchip : (arrived n rest s).chip n = { s.chip n with transit := rest } := by rw [chip_arrived, if_pos rfl]
  generalize arrived n rest s = x at *
  obtain ⟨hseen, hcount, hraised, hy, hyr⟩ := lateReport_spec n x
  generalize lateReport n x = y at *
  obtain ⟨hfifo, -, hmark, hverdicts, hz⟩ := abortAt_spec n a stLATE y
  have hzr : RegsKept [RegId.COMMIT_STAT.at n] y (abortAt n a stLATE y) := .congr .refl (hz.part .regs (by decide))
  generalize abortAt n a stLATE y = z at *
  have hall : Frame (.join [.ofParts [.chips], Frame.Scope.lateReport, Frame.Scope.abortAt]) s z :=
    ((hx.mono (by decide)).lift (by decide) hy).lift (by decide) hz
  refine ⟨?_, ?_, ?_, ?_, ?_, hmark, (hxr.trans hyr).trans hzr, hall.kept⟩
  · rw [hfifo, hy.chip, hchip]
  · rw [hz.isSet, hseen]
  · rw [hz.wideAt, hcount, hx.wideAt]
  · rw [hz.raising, hraised, hx.raising]
  · rw [hverdicts, hy.verdicts, hx.verdicts]

theorem arrive_appliedLate {n : ChipletIx} (ha : alive n s) (h : IsJudged n a rest s) (hhop : ∀ c x ws, a.kind ≠ .hop c x ws)
    (harmk : ∀ k w m u, a.kind ≠ .arm k w m u) (htick : a.tick < s.count n + 8) (hlate : a.applyLate = true) :
    ∃ t, exec (.actionArrive n) s = .next t ∧
      (t.chip n).fifo = (s.chip n).fifo ++ [{ act := a, due := s.count n + 8, cls := .inPlace, cached := true, lead := 8 }] ∧
      t.verdicts = s.verdicts ∧ t.wideAt aQM_LATE = (s.wideAt aQM_LATE + 1) % 2 ^ 64 ∧ t.mark n a.q = markOf a.seq a.idx := by
  refine ⟨_, arrive_near ha h (by omega), ?_⟩
  rw [takeIn_other hhop, arriveOther_applied (by rwa [count_arrived]) hlate, count_arrived, admitAction_eq harmk]
  have hx := arrived_frame n rest s
  have hchip : (arrived n rest s).chip n = { s.chip n with transit := rest } := by rw [chip_arrived, if_pos rfl]
  generalize arrived n rest s = x at *
  obtain ⟨⟨-, hcount, -, hy, -⟩, hz⟩ := appliedLate_spec n a x
  generalize lateReport n x = y at *
  generalize appliedLate n a x = z at *
  obtain ⟨⟨hfifo, -, hmark, -, -, ht, -⟩, -⟩ := admitPlain_spec n (plainAdmitted a (s.count n + 8)) z
  generalize admitPlain n _ z = t at *
  refine ⟨?_, ?_, ?_, hmark⟩
  · rw [hfifo, hz.chip, hy.chip, hchip]
    rfl
  · rw [ht.verdicts, hz.verdicts, hy.verdicts, hx.verdicts]
  · rw [ht.wideAt, hz.wideAt, hcount, hx.wideAt]

theorem arrive_beyond {n : ChipletIx} (ha : alive n s) (h : IsJudged n a rest s) (hfar : s.count n + 2 ^ 32 < a.tick) :
    ∃ t, exec (.actionArrive n) s = .next t ∧ (t.chip n).fifo = (s.chip n).fifo ∧ t.raising = s.raising ++ [274] ∧
      t.verdicts = s.verdicts ++ [(a.q, a.seq, a.idx, stHORIZON)] ∧ Kept [.chips, .queues, .raising, .verdicts] s t := by
  refine ⟨_, (actionArrive_exec ha).trans (congrArg Host.Outcome.next ((arrive_judged h).trans (if_pos hfar))), ?_⟩
  have hx := arrived_frame n rest s
  have hchip : (arrived n rest s).chip n = { s.chip n with transit := rest } := by rw [chip_arrived, if_pos rfl]
  generalize arrived n rest s = x at *
  obtain ⟨hfifo, -, -, hverdicts, hy⟩ := abortAt_spec n a stHORIZON x
  generalize abortAt n a stHORIZON x = y at *
  have hz : Frame (.ofParts [.raising]) y (y.raise 274) := .raise .refl
  have hzr : (y.raise 274).raising = y.raising ++ [274] := rfl
  generalize y.raise 274 = z at *
  have hall : Frame (.join [.ofParts [.chips, .raising], Frame.Scope.abortAt]) s z :=
    ((hx.mono (by decide)).lift (by decide) hy).lift (by decide) hz
  refine ⟨?_, ?_, ?_, hall.kept⟩
  · rw [hz.chip, hfifo, hchip]
  · rw [hzr, hy.raising, hx.raising]
  · rw [hz.verdicts, hverdicts, hx.verdicts]

/-! ### Judgement of a HOP -/

variable {ctx : ℕ}

theorem arrive_hop {n : ChipletIx} (ha : alive n s) (h : IsJudged n a rest s) (hnear : a.tick ≤ s.count n + 2 ^ 32)
    (hk : a.kind = .hop c ctx ws) : exec (.actionArrive n) s = .next (arriveHop n c ws a (arrived n rest s)) := by
  rw [arrive_near ha h hnear, takeIn_hop hk]

theorem leadOf_arrived (n c : ℕ) (ws : List Word) (m : ℕ) (rest : List Machine.Action) (s : State) :
    leadOf n c ws (arrived m rest s) = leadOf n c ws s := rfl

theorem intervalOf_arrived (n c : ℕ) (ws : List Word) (due m : ℕ) (rest : List Machine.Action) (s : State) :
    intervalOf n c ws due (arrived m rest s) = intervalOf n c ws due s := rfl

theorem hopClass_arrived (c : ℕ) (ws : List Word) (m : ℕ) (rest : List Machine.Action) (s : State) :
    (arrived m rest s).hopClass c ws = s.hopClass c ws := rfl

theorem hopAdmitted_arrived (n c : ℕ) (ws : List Word) (a : Machine.Action) (due m : ℕ) (rest : List Machine.Action) (s : State) :
    hopAdmitted n c ws a due (arrived m rest s) = hopAdmitted n c ws a due s := rfl

theorem hopOverlaps_arrived (iv : ℕ × ℕ) (cls : HopClass) (hc : c / 8 = n) (rest : List Machine.Action) (s : State) :
    (arrived n rest s).hopOverlaps c iv cls = s.hopOverlaps c iv cls := by
  refine hopOverlaps_congr ((arrived_frame n rest s).core c) ?_
  rw [hc, chip_arrived, if_pos rfl]

theorem not_arm_of_hop {k x m u : ℕ} (hk : a.kind = .hop c ctx ws) : a.kind ≠ .arm k x m u := by
  rw [hk]
  exact nofun

theorem hop_admitted {n : ChipletIx} (ha : alive n s) (h : IsJudged n a rest s) (hk : a.kind = .hop c ctx ws) (hc : c / 8 = n.val)
    (htick : s.count n + leadOf n c ws s ≤ a.tick) (hfar : a.tick ≤ s.count n + 2 ^ 32)
    (hfree : s.hopOverlaps c (intervalOf n c ws a.tick s) (s.hopClass c ws) = false) :
    ∃ t, exec (.actionArrive n) s = .next t ∧ (t.chip n).fifo = (s.chip n).fifo ++ [hopAdmitted n c ws a a.tick s] ∧
      t.mark n a.q = markOf a.seq a.idx ∧ RegsKept [RegId.COMMIT_STAT.at n] s t ∧ Kept [.chips, .queues, .regs] s t := by
  refine ⟨_, arrive_hop ha h hfar hk, ?_⟩
  rw [arriveHop_admitted (by rwa [count_arrived, leadOf_arrived]) (by rwa [hopOverlaps_arrived _ _ hc]), hopAdmitted_arrived,
    admitAction_eq fun k x m u => not_arm_of_hop hk]
  obtain ⟨hfifo, -, hmark, -, hregs, hkept⟩ := (admitPlain_spec n (hopAdmitted n c ws a a.tick s) (arrived n rest s)).1.of_arrived
  exact ⟨hfifo, hmark, hregs, hkept⟩

/-- A HOP has aborted its item at its chiplet and failed at its core. -/
theorem hopAborted_spec {status reason : ℕ} (hr : reason < 16) (n : ℕ) (s : State) :
    ((failHop c reason (abortAt n a status s)).chip n).fifo = (s.chip n).fifo ∧
    ((failHop c reason (abortAt n a status s)).chip n).transit = (s.chip n).transit ∧
    (failHop c reason (abortAt n a status s)).verdicts = s.verdicts ++ [(a.q, a.seq, a.idx, status)] ∧
    (failHop c reason (abortAt n a status s)).mark n a.q = markOf a.seq a.idx ∧
    (failHop c reason (abortAt n a status s)).isSet HOP_STAT.FAIL c = true ∧
    (failHop c reason (abortAt n a status s)).get HOP_STAT.LAST_REASON c = reason ∧
    (failHop c reason (abortAt n a status s)).raising = s.raising ++ [265] ∧
    Frame (.join [Frame.Scope.abortAt, Frame.Scope.failHop]) s (failHop c reason (abortAt n a status s)) := by
  obtain ⟨hfifo, htransit, hmark, hverdicts, hx⟩ := abortAt_spec n a status s
  generalize abortAt n a status s = x at *
  obtain ⟨hfail, hreason, hraised, hy⟩ := failHop_spec c hr x
  generalize failHop c reason x = y at *
  refine ⟨?_, ?_, ?_, ?_, hfail, hreason, ?_, (hx.mono (by decide)).lift (by decide) hy⟩
  · rw [hy.chip, hfifo]
  · rw [hy.chip, htransit]
  · rw [hy.verdicts, hverdicts]
  · rw [hy.mark, hmark]
  · rw [hraised, hx.raising]

theorem hop_crowded {n : ChipletIx} (ha : alive n s) (h : IsJudged n a rest s) (hk : a.kind = .hop c ctx ws) (hc : c / 8 = n.val)
    (hfar : a.tick ≤ s.count n + 2 ^ 32) (htick : s.count n + leadOf n c ws s ≤ a.tick)
    (hfull : s.hopOverlaps c (intervalOf n c ws a.tick s) (s.hopClass c ws) = true) :
    ∃ t, exec (.actionArrive n) s = .next t ∧ ((t.chip n).fifo = (s.chip n).fifo ∧ (t.chip n).transit = rest ∧
      t.verdicts = s.verdicts ++ [(a.q, a.seq, a.idx, stHOPSPACE)] ∧ t.mark n a.q = markOf a.seq a.idx ∧
      t.isSet HOP_STAT.FAIL c = true ∧ t.get HOP_STAT.LAST_REASON c = 9 ∧ t.halves = s.halves ∧ t.mem = s.mem) ∧
      t.raising = s.raising ++ [265] := by
  refine ⟨_, arrive_hop ha h hfar hk, ?_⟩
  rw [arriveHop_crowded (by rwa [count_arrived, leadOf_arrived]) (by rwa [hopOverlaps_arrived _ _ hc])]
  have hx := arrived_frame n rest s
  have hchip : (arrived n rest s).chip n = { s.chip n with transit := rest } := by rw [chip_arrived, if_pos rfl]
  generalize arrived n rest s = x at *
  obtain ⟨hfifo, htransit, hverdicts, hmark, hfail, hreason, hraised, hy⟩ :=
    hopAborted_spec (c := c) (a := a) (status := stHOPSPACE) (reason := 9) (by decide) n x
  generalize failHop c 9 _ = y at *
  rw [hchip] at hfifo htransit
  rw [hx.verdicts] at hverdicts
  rw [hx.raising] at hraised
  refine ⟨⟨hfifo, htransit, hverdicts, hmark, hfail, hreason, ?_, by rw [hy.mem, hx.mem]⟩, hraised⟩
  rw [hy.part .halves (by decide), hx.part .halves (by decide)]

theorem hop_late {n : ChipletIx} (ha : alive n s) (h : IsJudged n a rest s) (hk : a.kind = .hop c ctx ws)
    (htick : a.tick < s.count n + leadOf n c ws s) (hlate : a.applyLate = false) :
    ∃ t, exec (.actionArrive n) s = .next t ∧ ((t.chip n).fifo = (s.chip n).fifo ∧ (t.chip n).transit = rest ∧
      t.verdicts = s.verdicts ++ [(a.q, a.seq, a.idx, stLATE)] ∧ t.mark n a.q = markOf a.seq a.idx ∧
      t.isSet HOP_STAT.FAIL c = true ∧ t.get HOP_STAT.LAST_REASON c = 10 ∧ t.halves = s.halves ∧ t.mem = s.mem) ∧
      t.raising = s.raising ++ [275, 265] ∧ t.isSet COMMIT_STAT.LATE_SEEN n = true ∧
      t.wideAt aQM_LATE = (s.wideAt aQM_LATE + 1) % 2 ^ 64 := by
  have hlead := leadOf_le n c ws s
  refine ⟨_, arrive_hop ha h (by omega) hk, ?_⟩
  rw [arriveHop_late (by rwa [count_arrived, leadOf_arrived]) hlate]
  have hx := arrived_frame n rest s
  have hchip : (arrived n rest s).chip n = { s.chip n with transit := rest } := by rw [chip_arrived, if_pos rfl]
  generalize arrived n rest s = x at *
  obtain ⟨hseen, hcount, hlraised, hy, -⟩ := lateReport_spec n x
  generalize lateReport n x = y at *
  obtain ⟨hfifo, htransit, hverdicts, hmark, hfail, hreason, hraised, hz⟩ :=
    hopAborted_spec (c := c) (a := a) (status := stLATE) (reason := 10) (by decide) n y
  generalize failHop c 10 _ = z at *
  rw [hy.chip, hchip] at hfifo htransit
  rw [hy.verdicts, hx.verdicts] at hverdicts
  rw [hlraised, hx.raising, List.append_assoc] at hraised
  refine ⟨⟨hfifo, htransit, hverdicts, hmark, hfail, hreason, ?_, by rw [hz.mem, hy.mem, hx.mem]⟩, hraised, by rw [hz.isSet, hseen], ?_⟩
  · rw [hz.part .halves (by decide), hy.part .halves (by decide), hx.part .halves (by decide)]
  · rw [hz.wideAt, hcount, hx.wideAt]

theorem hop_applied {n : ChipletIx} (ha : alive n s) (h : IsJudged n a rest s) (hk : a.kind = .hop c ctx ws) (hc : c / 8 = n.val)
    (htick : a.tick < s.count n + leadOf n c ws s) (hlate : a.applyLate = true)
    (hfree : s.hopOverlaps c (intervalOf n c ws (s.count n + leadOf n c ws s) s) (s.hopClass c ws) = false) :
    ∃ t, exec (.actionArrive n) s = .next t ∧ t.raising = s.raising ++ [275] ∧
      (t.chip n).fifo = (s.chip n).fifo ++ [hopAdmitted n c ws a (s.count n + leadOf n c ws s) s] ∧
      t.verdicts = s.verdicts ∧ t.mark n a.q = markOf a.seq a.idx ∧ t.isSet COMMIT_STAT.LATE_SEEN n = true ∧
      t.wideAt aQM_LATE = (s.wideAt aQM_LATE + 1) % 2 ^ 64 := by
  have hlead := leadOf_le n c ws s
  refine ⟨_, arrive_hop ha h (by omega) hk, ?_⟩
  rw [arriveHop_applied (by rwa [count_arrived, leadOf_arrived]) hlate
    (by rwa [hopOverlaps_arrived _ _ hc, count_arrived, leadOf_arrived, intervalOf_arrived, hopClass_arrived]), count_arrived, leadOf_arrived,
    hopAdmitted_arrived, admitAction_eq fun k x m u => not_arm_of_hop hk]
  have hx := arrived_frame n rest s
  have hchip : (arrived n rest s).chip n = { s.chip n with transit := rest } := by rw [chip_arrived, if_pos rfl]
  generalize arrived n rest s = x at *
  obtain ⟨⟨hseen, hcount, hraised, hy, -⟩, hz⟩ := appliedLate_spec n a x
  generalize lateReport n x = y at *
  generalize appliedLate n a x = z at *
  obtain ⟨⟨hfifo, -, hmark, -, hsame, ht, -⟩, -⟩ := admitPlain_spec n (hopAdmitted n c ws a (s.count n + leadOf n c ws s) s) z
  generalize admitPlain n _ z = t at *
  refine ⟨?_, ?_, ?_, hmark, ?_, ?_⟩
  · rw [ht.raising, hz.raising, hraised, hx.raising]
  · rw [hfifo, hz.chip, hy.chip, hchip]
  · rw [ht.verdicts, hz.verdicts, hy.verdicts, hx.verdicts]
  · rw [hsame, hz.isSet, hseen]
  · rw [ht.wideAt, hz.wideAt, hcount, hx.wideAt]

/-! ### Judgement of an ARM (R173, R176) -/

theorem arm_admitted {n : ChipletIx} {k x m u : ℕ} (ha : alive n s) (h : IsJudged n a rest s) (hk : a.kind = .arm k x m u)
    (hi : s.item a.q a.seq = some i) (htick : s.count n + 8 ≤ a.tick) (hfar : a.tick ≤ s.count n + 2 ^ 32) :
    ∃ t, exec (.actionArrive n) s = .next t ∧
      (t.chip n).fifo = (s.chip n).fifo ++ [{ act := a, due := a.tick, cls := .inPlace, cached := true, lead := 8 }] ∧
      (t.chip n).transit = rest ∧ t.mark n a.q = markOf a.seq a.idx ∧ (t.chan k).cd = none ∧
      (t.item a.q a.seq).map (·.recs) = some (i.recs ++ if 2 ≤ mwOut x then [(k, a.idx)] else []) ∧
      t.get COMMIT_STAT.LEVEL n = ((s.chip n).fifo.length + 1) % 8192 ∧ t.mem = s.mem := by
  refine ⟨_, arrive_plain ha h (fun c y ws => by rw [hk]; exact nofun) htick hfar, ?_⟩
  have hadm : admitAction n (plainAdmitted a a.tick) (arrived n rest s) = cdAbandon k (if 2 ≤ mwOut x then
      addWait k (a.q, a.seq, a.idx) (admitPlain n (plainAdmitted a a.tick) (arrived n rest s))
    else admitPlain n (plainAdmitted a a.tick) (arrived n rest s)) := admitAction_arm hk
  rw [hadm]
  have hx := arrived_frame n rest s
  have hxi : (arrived n rest s).item a.q a.seq = some i := by rw [State.item, hx.queue, ← State.item, hi]
  obtain ⟨hent, hrecs⟩ := admitPlain_spec n (plainAdmitted a a.tick) (arrived n rest s)
  have hyrecs := hrecs i hxi
  have hymem : (admitPlain n (plainAdmitted a a.tick) (arrived n rest s)).mem = s.mem := by rw [hent.frame.mem, hx.mem]
  obtain ⟨hfifo, htransit, hmark, hlevel, -, -⟩ := hent.of_arrived
  generalize admitPlain n _ (arrived n rest s) = y at *
  have hz : Frame (.ofParts [.queues]) y (if 2 ≤ mwOut x then addWait k (a.q, a.seq, a.idx) y else y) := .ite (.addWait .refl) .refl
  have hzi : ((if 2 ≤ mwOut x then addWait k (a.q, a.seq, a.idx) y else y).item a.q a.seq).map (·.recs) =
      some (i.recs ++ if 2 ≤ mwOut x then [(k, a.idx)] else []) := by
    obtain ⟨j, hj, hjr⟩ := Option.map_eq_some_iff.mp hyrecs
    have hj' : y.item a.q a.seq = some j := hj
    split
    · have hwait : (addWait k (a.q, a.seq, a.idx) y).item a.q a.seq = some { j with recs := j.recs ++ [(k, a.idx)] } :=
        item_editItem (fun _ => rfl) hj'
      rw [hwait, ← hjr]
      rfl
    · rw [hj', ← hjr, List.append_nil]
      rfl
  generalize (if 2 ≤ mwOut x then addWait k (a.q, a.seq, a.idx) y else y) = z at *
  have ht : Frame Frame.Scope.cdAbandon z (cdAbandon k z) := .cdAbandon .refl
  have hcd := cdAbandon_chan k z
  generalize cdAbandon k z = t at *
  refine ⟨?_, ?_, ?_, hcd, ?_, ?_, ?_⟩
  · rw [ht.chip, hz.chip, hfifo]
    rfl
  · rw [ht.chip, hz.chip, htransit]
  · rw [ht.mark, State.mark, hz.chip, ← State.mark]
    exact hmark
  · rw [State.item, ht.queue, ← State.item, hzi]
  · rw [ht.get, hz.get, hlevel]
  · rw [ht.mem, hz.mem, hymem]

/-- Settles O30, by what each action meets where it is sent and where it arrives. -/
theorem actionsAreSentAndJudged : Obligations.ActionsAreSentAndJudged := by
  refine ⟨⟨?_, ?_, ?_⟩, ?_, ?_, ?_, ?_, ?_, ?_, ?_, ?_, ?_⟩
  · intro n q a s hcold hnext hcd hbelow hout harm hload
    refine ⟨_, actionSend_complete hcold hnext hcd hbelow hout harm hload, ?_, rfl, fun m hm => ?_, ?_⟩
    · rw [State.chip_setChip, if_pos rfl]
    · rw [State.chip_setChip, if_neg hm]
      rfl
    · exact Frame.kept (w := .ofParts [.chips, .rel]) (.setChip (.withRel .refl))
  · intro n q a i s hcold hnext hcd hbelow hout hi hhw
    refine ⟨_, actionSend_lost hcold hnext hcd hbelow hout, ?_⟩
    rw [judged, nextRel_queue hnext]
    exact lostAction_spec hi hhw
  · intro q n idx status rest i s hcold hcd hverdicts hi hhw
    exact ⟨_, verdict_complete hcold hcd hverdicts, rfl, rfl, verdict_spec hi hhw⟩
  · intro n a rest s ha htransit harm hold
    refine ⟨_, arriveOld_complete ha htransit harm hold, ?_, ?_⟩
    · rw [Frame.chip (w := .ofParts [.queues]) (.judged .refl), chip_arrived, if_pos rfl]
    · exact Frame.kept (w := .ofParts [.chips, .queues]) (.judged ((arrived_frame n rest s).mono (by decide)))
  · intro n a rest s ha htransit harm hnew hwhole _ hhop harmk htick hfar
    refine ⟨_, arrive_plain ha ⟨htransit, harm, hnew, hwhole⟩ hhop htick hfar, ?_⟩
    rw [admitAction_eq harmk]
    exact (admitPlain_spec n (plainAdmitted a a.tick) _).1.of_arrived
  · intro n a rest s ha htransit harm hnew hwhole hhop htick hlate
    exact arrive_tooLate ha ⟨htransit, harm, hnew, hwhole⟩ hhop htick hlate
  · intro n a rest s ha htransit harm hnew hwhole hhop harmk htick hlate
    exact arrive_appliedLate ha ⟨htransit, harm, hnew, hwhole⟩ hhop harmk htick hlate
  · intro n a rest s ha htransit harm hnew hwhole hfar
    exact arrive_beyond ha ⟨htransit, harm, hnew, hwhole⟩ hfar
  · intro n c ctx ws a rest s ha htransit harm hnew hwhole hk hc cls cached lead htick hfar hfree
    exact hop_admitted ha ⟨htransit, harm, hnew, hwhole⟩ hk hc htick hfar hfree
  · intro n c ctx ws a rest s ha htransit harm hnew hwhole hk hc cls cached pre lead failed
    have h : IsJudged n a rest s := ⟨htransit, harm, hnew, hwhole⟩
    exact ⟨fun hfar htick hfull => hop_crowded ha h hk hc hfar htick hfull, fun htick hlate => hop_late ha h hk htick hlate,
      fun htick hlate hfree => hop_applied ha h hk hc htick hlate hfree⟩
  · intro n k w m u a rest i s ha htransit harm hnew hwhole hk hchip hi htick hfar
    exact arm_admitted ha ⟨htransit, harm, hnew, hwhole⟩ hk hi htick hfar
  · intro n s harm
    have hstay : actionArriveS n s = s := by
      unfold actionArriveS
      split
      · rfl
      · rw [if_pos harm]
    refine congrArg Host.Outcome.next (a₁ := if (s.coldHeld || s.chipDead n) = true then s else actionArriveS n s) ?_
    rw [hstay, ite_self]

end

end Sys2Proof.Proofs

/-! ## Teasel edges and samples (R153 to R157, R161 to R167) -/

namespace Sys2Proof.Proofs

set_option Elab.async false

open Sys2Proof Sys2Proof.Machine Sys2Proof.Claims

section

variable {s t : State} {k j stamp frac : ℕ} {fall late : Bool}

/-! ### Registers of a channel -/

theorem ts_bump {f : Fld} (hf : f.lo + f.w ≤ 32) (k : ℕ) (s : State) : (s.tsBump f k).ts f k = (s.ts f k + 1) % 2 ^ f.w :=
  State.get_put _ _ _ _ _ hf

theorem ts_set {f : Fld} {v : ℕ} (hf : f.lo + f.w ≤ 32) (hv : v < 2 ^ f.w) (k : ℕ) (s : State) : (s.tsSet f k v).ts f k = v :=
  get_put_lt _ _ hf hv

/-- Two channels have different registers. -/
theorem ts_set_ne {f : Fld} {v : ℕ} (hn : 160 ≤ (regRow f.reg).n1 ∧ 8 ≤ (regRow f.reg).n2) (hk : k < 1280) (hj : j < 1280) (h : j ≠ k) (s : State) :
    (s.tsSet f k v).ts f j = s.ts f j := by
  refine State.get_put_index _ _ _ _ _ _ _ _ (RegId.at_ne_self _ _ _ _ _ ?_ ?_ ?_ ?_ ?_) <;> omega

/-! ### Edges that are not stamped (R153 to R155) -/

theorem overrunEdge_spec (full : Bool) (k : ℕ) (s : State) : (overrunEdge k full s).ts TS_CNT3.OVERRUN k = (s.ts TS_CNT3.OVERRUN k + 1) % 65536 ∧
    (full = true → (overrunEdge k full s).ts TS_STAT.FIFO_FULL k = 1) ∧
    (∀ j, (overrunEdge k full s).chan j = if j = k then { s.chan k with
      ovr := true, meas := (s.chan k).meas.map fun m => { m with overrun := true } } else s.chan j) ∧
    RegsKept [RegId.TS_CNT3.at (k / 8) (k % 8), RegId.TS_STAT.at (k / 8) (k % 8)] s (overrunEdge k full s) ∧
    (full = false → RegsKept [RegId.TS_CNT3.at (k / 8) (k % 8)] s (overrunEdge k full s)) ∧
    Kept [.regs, .chans] s (overrunEdge k full s) := by
  have hf : Frame Frame.Scope.overrunEdge s (overrunEdge k full s) := .overrunEdge .refl
  suffices h : (overrunEdge k full s).ts TS_CNT3.OVERRUN k = (s.ts TS_CNT3.OVERRUN k + 1) % 65536 ∧
      (full = true → (overrunEdge k full s).ts TS_STAT.FIFO_FULL k = 1) ∧
      (∀ j, (overrunEdge k full s).chan j = if j = k then { s.chan k with
        ovr := true, meas := (s.chan k).meas.map fun m => { m with overrun := true } } else s.chan j) ∧
      RegsKept [RegId.TS_CNT3.at (k / 8) (k % 8), RegId.TS_STAT.at (k / 8) (k % 8)] s (overrunEdge k full s) ∧
      (full = false → RegsKept [RegId.TS_CNT3.at (k / 8) (k % 8)] s (overrunEdge k full s)) by
    obtain ⟨h1, h2, h3, h4, h5⟩ := h
    exact ⟨h1, h2, h3, h4, h5, hf.kept⟩
  unfold overrunEdge State.when
  have hx : Frame (.ofRegs [.TS_CNT3]) s (s.tsBump TS_CNT3.OVERRUN k) := .tsBump .refl
  have hxr : RegsKept [RegId.TS_CNT3.at (k / 8) (k % 8)] s (s.tsBump TS_CNT3.OVERRUN k) := .bump .refl
  have hcount := ts_bump (f := TS_CNT3.OVERRUN) (by decide) k s
  generalize s.tsBump TS_CNT3.OVERRUN k = x at *
  have hy : Frame (.ofRegs [.TS_STAT]) x (if full = true then x.tsSet TS_STAT.FIFO_FULL k 1 else x) := .ite (.tsSet .refl) .refl
  have hyr : RegsKept [RegId.TS_STAT.at (k / 8) (k % 8)] x (if full = true then x.tsSet TS_STAT.FIFO_FULL k 1 else x) := by
    split
    · exact .put .refl
    · exact .refl
  have hfull (h : full = true) : (if full = true then x.tsSet TS_STAT.FIFO_FULL k 1 else x).ts TS_STAT.FIFO_FULL k = 1 := by
    rw [if_pos h]
    exact ts_set (by decide) (by decide) k x
  have hnot (h : full = false) : (if full = true then x.tsSet TS_STAT.FIFO_FULL k 1 else x) = x := by
    rw [if_neg (by simp [h])]
  beta_reduce
  generalize (if full = true then x.tsSet TS_STAT.FIFO_FULL k 1 else x) = y at *
  dsimp only
  have hz : Frame (.ofParts [.chans]) y (y.setChan k { y.chan k with
    ovr := true, meas := (y.chan k).meas.map fun m => { m with overrun := true } }) := .setChan .refl
  have hzr (l : List ℕ) : RegsKept l y (y.setChan k { y.chan k with
    ovr := true, meas := (y.chan k).meas.map fun m => { m with overrun := true } }) := .setChan .refl
  have hzc := State.chan_setChan y k { y.chan k with ovr := true, meas := (y.chan k).meas.map fun m => { m with overrun := true } }
  generalize y.setChan k _ = z at *
  refine ⟨?_, fun h => ?_, fun j => ?_, ?_, fun h => ?_⟩
  · rw [State.ts, hz.get, hy.get]
    exact hcount
  · rw [State.ts, hz.get]
    exact hfull h
  · rw [hzc, hy.chan, hx.chan, hy.chan, hx.chan]
  · exact ((hxr.mono (by simp)).trans (hyr.mono (by simp))).trans (hzr _)
  · obtain rfl := hnot h
    exact hxr.trans (hzr _)

/-! ### Edges that are stamped (R155 to R157, R165) -/

/-- The entry that a stamped edge makes in the FIFO (R155). -/
def stamped (k stamp pos : ℕ) (fall : Bool) (s : State) : Edge :=
  ⟨stamp, fall, (s.chan k).ovr, s.clock, decide (65536 ≤ pos % 65536 + 420)⟩

/-- A stamped edge enters the FIFO of its channel. -/
def enterFifo (k stamp pos : ℕ) (fall : Bool) (s : State) : State :=
  s.setChan k { s.chan k with lastAcc := some pos, ovr := false, fifo := (s.chan k).fifo ++ [stamped k stamp pos fall s] }

/-- A stamped edge of an event channel is a trigger (R157). -/
def isTrigger (k : ℕ) (fall : Bool) (s : State) : Bool :=
  decide (1024 ≤ k) && s.ts TS_IN.TRIG_EN k == 1 && polarity (s.ts TS_IN.EDGE k) fall

/-- A trigger's stamp is kept and its event raised (R157). -/
def triggered (k stamp : ℕ) (fall : Bool) (s : State) : State :=
  s.when (isTrigger k fall s) fun s => (s.setWide (aLAST_EDGE k) stamp).raise (k - 1024)

/-- A stamped edge reaches the tap of another channel's stop input (R155). -/
def tapEdge (stamp : ℕ) (fall late : Bool) (j : ℕ) (s : State) : State :=
  s.setChan j { s.chan j with taps := (s.chan j).taps ++ [{ stamp := stamp, fall := fall, at_ := s.clock, late := late }] }

/-- The channels of a chiplet whose stop input a channel is. -/
def tappedBy (k : ℕ) (fall : Bool) (s : State) : List ℕ :=
  (chansOn (chanChip k)).filter fun j =>
    j != k && s.measOn j fun m => mwMode m.word == 1 && stopChan j m.word == k && polarity (mwStop m.word) fall

/-- The channels of a chiplet whose gate a channel is. -/
def gatedBy (k : ℕ) (s : State) : List ℕ :=
  (chansOn (chanChip k)).filter fun j => s.measOn j fun m => mwGate m.word != 0 && gateChan j m.word == k

/-- An edge is stamped, enters the FIFO, triggers and reaches the taps. -/
def stampEdge (k stamp pos : ℕ) (fall : Bool) (s : State) : State :=
  forList (tappedBy k fall (triggered k stamp fall (enterFifo k stamp pos fall s)))
    (tapEdge stamp fall (decide (65536 ≤ pos % 65536 + 420))) (triggered k stamp fall (enterFifo k stamp pos fall s))

theorem acceptEdge_eq (k pos stamp : ℕ) (fall : Bool) (s : State) : acceptEdge k fall pos stamp s =
    forList (gatedBy k (stampEdge k stamp pos fall s)) (fun j s => gateEdge j stamp fall s) (stampEdge k stamp pos fall s) := rfl

theorem tapEdges_chan (l : List ℕ) (s : State) : (∀ j, j ∉ l → (forList l (tapEdge stamp fall late) s).chan j = s.chan j) ∧
    (∀ j, ((forList l (tapEdge stamp fall late) s).chan j).meas = (s.chan j).meas) ∧
    Frame (.ofParts [.chans]) s (forList l (tapEdge stamp fall late) s) := by
  induction l generalizing s with
  | nil => exact ⟨fun _ _ => rfl, fun _ => rfl, .refl⟩
  | cons i l ih =>
    obtain ⟨hne, hmeas, hf⟩ := ih (tapEdge stamp fall late i s)
    have hchan (j : ℕ) : (tapEdge stamp fall late i s).chan j = if j = i then { s.chan i with
        taps := (s.chan i).taps ++ [{ stamp := stamp, fall := fall, at_ := s.clock, late := late }] } else s.chan j := State.chan_setChan ..
    rw [forList_cons]
    refine ⟨fun j hj => ?_, fun j => ?_, Frame.trans (.setChan .refl) hf⟩
    · rw [List.mem_cons, not_or] at hj
      rw [hne j hj.2, hchan, if_neg hj.1]
    · rw [hmeas, hchan]
      split
      · next h =>
        subst h
        rfl
      · rfl

/-- What a stamped edge leaves, before the gates that it moves. -/
structure Stamped (k stamp pos : ℕ) (fall : Bool) (s t : State) : Prop where
  last : (t.chan k).lastAcc = some pos
  fifo : (t.chan k).fifo = (s.chan k).fifo ++ [stamped k stamp pos fall s]
  meas : ∀ j, (t.chan j).meas = (s.chan j).meas
  trigger : isTrigger k fall s = true → t.wideAt (aLAST_EDGE k) = stamp ∧ t.raising = s.raising ++ [k - 1024]
  quiet : isTrigger k fall s = false → t.raising = s.raising
  frame : Frame (.ofParts [.chans, .wide, .raising]) s t

theorem stampEdge_spec (k stamp pos : ℕ) (fall : Bool) (s : State) : Stamped k stamp pos fall s (stampEdge k stamp pos fall s) := by
  unfold stampEdge
  have hx : Frame (.ofParts [.chans]) s (enterFifo k stamp pos fall s) := .setChan .refl
  have hxc (j : ℕ) : (enterFifo k stamp pos fall s).chan j = if j = k then { s.chan k with
      lastAcc := some pos, ovr := false, fifo := (s.chan k).fifo ++ [stamped k stamp pos fall s] } else s.chan j := State.chan_setChan ..
  have htrig : isTrigger k fall (enterFifo k stamp pos fall s) = isTrigger k fall s := rfl
  generalize enterFifo k stamp pos fall s = x at *
  have hy : Frame (.ofParts [.wide, .raising]) x (triggered k stamp fall x) := .ite (.raise (.setWide .refl)) .refl
  have hyt (h : isTrigger k fall s = true) : (triggered k stamp fall x).wideAt (aLAST_EDGE k) = stamp ∧
      (triggered k stamp fall x).raising = x.raising ++ [k - 1024] := by
    unfold triggered
    rw [htrig, h, State.when, if_pos rfl]
    refine ⟨?_, rfl⟩
    exact (State.wideAt_setWide x (aLAST_EDGE k) stamp (aLAST_EDGE k)).trans (if_pos rfl)
  have hyq (h : isTrigger k fall s = false) : (triggered k stamp fall x).raising = x.raising := by
    unfold triggered
    rw [htrig, h]
    rfl
  generalize triggered k stamp fall x = y at *
  have hk : k ∉ tappedBy k fall y := by
    unfold tappedBy
    simp
  obtain ⟨hne, hmeas, hz⟩ := tapEdges_chan (stamp := stamp) (fall := fall) (late := decide (65536 ≤ pos % 65536 + 420)) (tappedBy k fall y) y
  generalize forList (tappedBy k fall y) _ y = z at *
  have hchan : z.chan k = { s.chan k with
      lastAcc := some pos, ovr := false, fifo := (s.chan k).fifo ++ [stamped k stamp pos fall s] } := by
    rw [hne k hk, hy.chan, hxc, if_pos rfl]
  refine ⟨by rw [hchan], by rw [hchan], fun j => ?_, fun h => ?_, fun h => ?_, ((hx.mono (by decide)).lift (by decide) hy).lift (by decide) hz⟩
  · rw [hmeas, hy.chan, hxc]
    split
    · next h =>
      subst h
      rfl
    · rfl
  · obtain ⟨hwide, hraised⟩ := hyt h
    exact ⟨by rw [hz.wideAt, hwide], by rw [hz.raising, hraised, hx.raising]⟩
  · rw [hz.raising, hyq h, hx.raising]

/-! ### Gates (R165) -/

theorem measOn_congr {f : Meas → Bool} (h : (t.chan j).meas = (s.chan j).meas) : t.measOn j f = s.measOn j f := by
  rw [State.measOn, State.measOn, h]

theorem gatedBy_congr (h : ∀ j, (t.chan j).meas = (s.chan j).meas) : gatedBy k t = gatedBy k s := by
  unfold gatedBy
  congr 1
  funext j
  exact measOn_congr (h j)

theorem gateEdge_ne {i : ℕ} (hi : i < 1280) (hj : j < 1280) (h : j ≠ i) (s : State) : (gateEdge i stamp fall s).chan j = s.chan j ∧
    (gateEdge i stamp fall s).ts TS_STAT.OPEN j = s.ts TS_STAT.OPEN j := by
  unfold gateEdge
  dsimp only
  split
  · exact ⟨rfl, rfl⟩
  · next m hm =>
    split
    · exact ⟨rfl, rfl⟩
    · split
      · split
        · refine ⟨?_, ts_set_ne (by decide) hi hj h _⟩
          exact (State.chan_setChan s i _ j).trans (if_neg h)
        · exact ⟨rfl, rfl⟩
      · split
        · exact ⟨(State.chan_setChan s i _ j).trans (if_neg h), rfl⟩
        · exact ⟨rfl, rfl⟩

theorem gateEdge_opens {m : Meas} (hm : (s.chan j).meas = some m) (hopen : m.openAt = none) (hg : mwGate m.word = 2 ∨ fall = false)
    (hta : m.ta * 65536 ≤ stamp) : ((gateEdge j stamp fall s).chan j).meas = some { m with openAt := some stamp } ∧
      (gateEdge j stamp fall s).ts TS_STAT.OPEN j = 1 := by
  have hgate : gateEdge j stamp fall s = (s.setChan j { s.chan j with meas := some { m with openAt := some stamp } }).tsSet TS_STAT.OPEN j 1 := by
    unfold gateEdge
    rw [hm]
    dsimp only
    rw [if_neg (by omega), hopen]
    dsimp only
    rw [if_pos (by simpa using hg)]
  rw [hgate]
  refine ⟨?_, ts_set (by decide) (by decide) _ _⟩
  rw [State.tsSet, State.chan_put_keep, State.chan_setChan, if_pos rfl]

theorem gateEdges_other {l : List ℕ} (hl : ∀ i ∈ l, i < 1280) (hj : j < 1280) (h : j ∉ l) (s : State) :
    (forList l (fun i s => gateEdge i stamp fall s) s).chan j = s.chan j ∧
      (forList l (fun i s => gateEdge i stamp fall s) s).ts TS_STAT.OPEN j = s.ts TS_STAT.OPEN j := by
  induction l generalizing s with
  | nil => exact ⟨rfl, rfl⟩
  | cons i l ih =>
    rw [List.mem_cons, not_or] at h
    obtain ⟨hchan, hopen⟩ := ih (fun x hx => hl x (List.mem_cons_of_mem _ hx)) h.2 (gateEdge i stamp fall s)
    obtain ⟨hchan', hopen'⟩ := gateEdge_ne (stamp := stamp) (fall := fall) (hl i List.mem_cons_self) hj h.1 s
    rw [forList_cons]
    exact ⟨hchan.trans hchan', hopen.trans hopen'⟩

/-- An edge opens each gate that waits for it (R165). -/
theorem gateEdges_open {l : List ℕ} {m : Meas} (hl : ∀ i ∈ l, i < 1280) (hnd : l.Nodup) (hj : j ∈ l) (hm : (s.chan j).meas = some m)
    (hopen : m.openAt = none) (hg : mwGate m.word = 2 ∨ fall = false) (hta : m.ta * 65536 ≤ stamp) :
    ((forList l (fun i s => gateEdge i stamp fall s) s).chan j).meas = some { m with openAt := some stamp } ∧
      (forList l (fun i s => gateEdge i stamp fall s) s).ts TS_STAT.OPEN j = 1 := by
  induction l generalizing s with
  | nil => exact absurd hj List.not_mem_nil
  | cons i l ih =>
    have hlt := hl j hj
    have hl' : ∀ x ∈ l, x < 1280 := fun x hx => hl x (List.mem_cons_of_mem _ hx)
    rw [List.nodup_cons] at hnd
    rw [forList_cons]
    rcases Decidable.em (j = i) with rfl | hne
    · obtain ⟨hmeas, hstat⟩ := gateEdge_opens hm hopen hg hta
      obtain ⟨hchan, hkeep⟩ := gateEdges_other (stamp := stamp) (fall := fall) hl' hlt hnd.1 (gateEdge j stamp fall s)
      exact ⟨by rw [hchan, hmeas], hkeep.trans hstat⟩
    · obtain ⟨hchan, -⟩ := gateEdge_ne (stamp := stamp) (fall := fall) (hl i List.mem_cons_self) hlt hne s
      refine ih hl' hnd.2 ((List.mem_cons.mp hj).resolve_left hne) ?_
      rw [hchan, hm]

theorem chansOn_lt {n : ℕ} (hn : n < 8) : ∀ i ∈ chansOn n, i < 1280 := by
  intro i hi
  obtain ⟨l, hl, rfl⟩ := List.mem_map.mp hi
  rw [List.mem_range] at hl
  unfold chanOf
  split <;> omega

theorem chanOf_inj {n x y : ℕ} (hn : n < 8) (hx : x < 160) (hy : y < 160) (h : chanOf n x = chanOf n y) : x = y := by
  unfold chanOf at h
  split at h <;> split at h <;> omega

theorem chansOn_nodup {n : ℕ} (hn : n < 8) : (chansOn n).Nodup :=
  List.Nodup.map_on (fun _ hx _ hy h => chanOf_inj hn (List.mem_range.mp hx) (List.mem_range.mp hy) h) List.nodup_range

theorem mem_chansOn (hj : j < 1280) : j ∈ chansOn (chanChip j) := by
  refine List.mem_map.mpr ⟨chanLocal j, List.mem_range.mpr ?_, ?_⟩
  · unfold chanLocal
    split <;> omega
  · unfold chanOf chanLocal chanChip
    split <;> split <;> omega

theorem chanChip_lt (hk : k < 1280) : chanChip k < 8 := by
  unfold chanChip
  split <;> omega

end

/-! ### The command -/

section

variable {s : State} {k j : ChannelIx} {fall : Bool} {frac : BitVec 16} {last : ℕ}

theorem teaselEdge_exec (ha : alive (chanChip k) s) : exec (.teaselEdge k fall frac) s = .next (teaselEdgeS k fall frac.toNat s) :=
  actOn_alive ha _

/-- Whether an edge comes within `tk` of the last accepted one. -/
def within (k frac tk : ℕ) (s : State) : Bool :=
  match (s.chan k).lastAcc.map fun p => s.clock * 65536 + frac - p with
  | some d => decide (d < tk * 65536)
  | none => false

theorem teaselEdgeS_eq {k frac : ℕ} (hin : s.inOff k = false) : teaselEdgeS k fall frac s =
    if within k frac (s.ts TS_HOLDOFF.HOLDOFF k) s = true then s.tsBump TS_CNT1.HELD k
    else if within k frac 8 s = true then overrunEdge k false s
    else if 16 ≤ (s.chan k).fifo.length then overrunEdge k true s
    else acceptEdge k fall (s.clock * 65536 + frac) (s.edgeStamp (chanChip k) frac) s := by
  unfold teaselEdgeS
  rw [hin]
  rfl

theorem within_of_last {k frac tk : ℕ} (h : (s.chan k).lastAcc = some last) :
    within k frac tk s = decide (s.clock * 65536 + frac - last < tk * 65536) := by
  rw [within, h]
  rfl

theorem within_of_clear {k frac tk : ℕ} (h : clearOfLast k frac s) (htk : tk ≤ max 8 (s.ts TS_HOLDOFF.HOLDOFF k)) :
    within k frac tk s = false := by
  unfold within
  cases hlast : (s.chan k).lastAcc with
  | none => rfl
  | some last =>
    have hclear := h last hlast
    have hmul := Nat.mul_le_mul_right 65536 htk
    exact decide_eq_false (Nat.not_lt.mpr (hmul.trans hclear))

theorem teaselEdge_accepts (ha : alive (chanChip k) s) (hin : s.inOff k = false) (hclear : clearOfLast k frac.toNat s)
    (hroom : (s.chan k).fifo.length < 16) : exec (.teaselEdge k fall frac) s =
      .next (acceptEdge k fall (s.clock * 65536 + frac.toNat) (s.edgeStamp (chanChip k) frac.toNat) s) := by
  rw [teaselEdge_exec ha, teaselEdgeS_eq hin, within_of_clear hclear (le_max_right _ _), within_of_clear hclear (le_max_left _ _),
    if_neg (by decide), if_neg (by decide), if_neg (by omega)]

/-- R153 to R157, R165. -/
theorem edgesComplete : EdgesComplete := by
  refine ⟨?_, ?_, ?_, ?_, ?_⟩
  · intro k fall frac s ha hin hclear hroom hgate
    refine ⟨_, teaselEdge_accepts ha hin hclear hroom, ?_⟩
    have hmod : (s.clock * 65536 + frac.toNat) % 65536 = frac.toNat := by omega
    obtain ⟨hlast, hfifo, hmeas, htrigger, hquiet, hf⟩ := stampEdge_spec k (s.edgeStamp (chanChip k) frac.toNat) (s.clock * 65536 + frac.toNat) fall s
    have hnone : gatedBy k (stampEdge k (s.edgeStamp (chanChip k) frac.toNat) (s.clock * 65536 + frac.toNat) fall s) = [] := by
      rw [gatedBy_congr hmeas]
      exact List.filter_eq_nil_iff.mpr fun j _ => by simp [hgate j]
    rw [acceptEdge_eq, hnone]
    change _ ∧ _ ∧ _ ∧ _ ∧ Kept _ s (stampEdge k _ _ fall s)
    refine ⟨hlast, ?_, fun hk hen hpol => ?_, fun hk => ?_, hf.kept⟩
    · refine hfifo.trans ?_
      rw [stamped, hmod]
    · exact htrigger (by simp [isTrigger, hk, hen, hpol])
    · refine hquiet ?_
      simp only [isTrigger, Bool.and_eq_false_iff, decide_eq_false_iff_not]
      exact .inl (.inl (by omega))
  · intro k fall frac last s ha hin hlast hheld
    have hwithin : within k frac.toNat (s.ts TS_HOLDOFF.HOLDOFF k) s = true := by
      rw [within_of_last hlast]
      exact decide_eq_true hheld
    refine ⟨_, teaselEdge_exec ha, ?_⟩
    rw [teaselEdgeS_eq hin, hwithin, if_pos rfl]
    exact ⟨ts_bump (by decide) _ _, .bump .refl, Frame.kept (w := .ofRegs [.TS_CNT1]) (.tsBump .refl)⟩
  · intro k fall frac last s ha hin hlast hheld hclose
    have hwithin : within k frac.toNat (s.ts TS_HOLDOFF.HOLDOFF k) s = false := by
      rw [within_of_last hlast]
      exact decide_eq_false (by omega)
    have hnear : within k frac.toNat 8 s = true := by
      rw [within_of_last hlast]
      exact decide_eq_true hclose
    obtain ⟨hcount, -, hchan, -, hregs, hkept⟩ := overrunEdge_spec false k s
    refine ⟨overrunEdge k false s, ?_, hcount, by rw [hchan, if_pos rfl], fun j hj => by rw [hchan, if_neg hj], hregs rfl, hkept⟩
    rw [teaselEdge_exec ha, teaselEdgeS_eq hin, hwithin, hnear, if_neg (by decide), if_pos rfl]
  · intro k fall frac s ha hin hclear hfull
    obtain ⟨hcount, hstat, hchan, hregs, -, hkept⟩ := overrunEdge_spec true k s
    refine ⟨overrunEdge k true s, ?_, hcount, hstat rfl, by rw [hchan, if_pos rfl], by rw [hchan, if_pos rfl], hregs, hkept⟩
    rw [teaselEdge_exec ha, teaselEdgeS_eq hin, within_of_clear hclear (le_max_right _ _), within_of_clear hclear (le_max_left _ _),
      if_neg (by decide), if_neg (by decide), if_pos hfull]
  · intro k j fall frac m s ha hin hclear hroom hchip hm hgate hchan hopen hg hta
    refine ⟨_, teaselEdge_accepts ha hin hclear hroom, ?_⟩
    have hmeas := (stampEdge_spec k (s.edgeStamp (chanChip k) frac.toNat) (s.clock * 65536 + frac.toNat) fall s).meas
    rw [acceptEdge_eq]
    generalize stampEdge k _ _ fall s = x at *
    have hn := chanChip_lt k.isLt
    have hmem : j.val ∈ gatedBy k x := by
      refine List.mem_filter.mpr ⟨by rw [← hchip]; exact mem_chansOn j.isLt, ?_⟩
      rw [measOn_congr (hmeas j), State.measOn, hm]
      simp [hgate, hchan]
    exact gateEdges_open (fun i hi => chansOn_lt hn i (List.mem_of_mem_filter hi)) ((chansOn_nodup hn).filter _) hmem
      ((hmeas j).trans hm) hopen hg hta

end

/-! ## Samples (R161 to R164, R166, R167) -/

section

variable {s t : State} {k stamp : ℕ} {m : Meas} {e : Edge}

theorem markStall_chan (k : ℕ) (s : State) : ((markStall k s).chan k).buf = (s.chan k).buf ∧
    ((markStall k s).chan k).late = (s.chan k).late ∧ ((markStall k s).chan k).meas = (s.chan k).meas := by
  unfold markStall
  have hx : Frame (.ofRegs [.TS_STAT]) s (s.tsSet TS_STAT.RING_STALL k 1) := .tsSet .refl
  have hchan := hx.chan k
  generalize s.tsSet TS_STAT.RING_STALL k 1 = x at *
  dsimp only
  split
  · rw [hchan]
    exact ⟨rfl, rfl, rfl⟩
  · have hset : ((x.setChan k { x.chan k with stalled := true }).raise 273).chan k = { x.chan k with stalled := true } :=
      (State.chan_setChan x k _ k).trans (if_pos rfl)
    rw [hset, hchan]
    exact ⟨rfl, rfl, rfl⟩

theorem pushRec_spec (k : ℕ) (r : Rec) (s : State) : ((pushRec k r s).chan k).meas = (s.chan k).meas ∧
    ((s.chan k).late = [] → (s.chan k).buf.length < 16 → ((pushRec k r s).chan k).buf = (s.chan k).buf ++ [r]) ∧
    Frame Frame.Scope.pushRec s (pushRec k r s) := by
  refine and_assoc.mp ⟨?_, .pushRec .refl⟩
  unfold pushRec
  have hx : ((s.when (s.ringFull r.ring) (markStall k)).chan k).buf = (s.chan k).buf ∧
      ((s.when (s.ringFull r.ring) (markStall k)).chan k).late = (s.chan k).late ∧
      ((s.when (s.ringFull r.ring) (markStall k)).chan k).meas = (s.chan k).meas := by
    unfold State.when
    split
    · exact markStall_chan k s
    · exact ⟨rfl, rfl, rfl⟩
  generalize s.when (s.ringFull r.ring) (markStall k) = x at *
  obtain ⟨hbuf, hlate, hmeas⟩ := hx
  dsimp only
  split
  · have hset := (State.chan_setChan x k { x.chan k with buf := (x.chan k).buf ++ [r] } k).trans (if_pos rfl)
    rw [hset]
    exact ⟨hmeas, fun _ _ => by rw [hbuf]⟩
  · next hfull =>
    refine ⟨?_, fun h1 h2 => absurd ?_ hfull⟩
    · rw [State.tsBump, State.bump, State.chan_put_keep, State.chan_setChan, if_pos rfl]
      exact hmeas
    · rw [hbuf, hlate, h1]
      simpa using h2

/-- A sample or a stamp has been taken, and the measurement goes on (R166). -/
structure Taken (k : ℕ) (m : Meas) (r : Rec) (s t : State) : Prop where
  meas : (t.chan k).meas = some m
  live : t.ts TS_LIVE.LIVE k = m.count
  buf : 2 ≤ mwOut m.word → (s.chan k).late = [] → (s.chan k).buf.length < 16 → (t.chan k).buf = (s.chan k).buf ++ [r]
  mem : t.mem = s.mem

theorem sampleDone_spec {r : Rec} (hn : m.n = 0 ∨ m.count < m.n) (hcount : m.count < 2 ^ 32 - 1) (s : State) :
    Taken k m r s (sampleDone k m stamp r s) := by
  have hgo : sampleDone k m stamp r s = State.when ((s.setChan k { s.chan k with meas := some m }).tsSet TS_LIVE.LIVE k m.count)
      (decide (2 ≤ mwOut m.word)) (pushRec k r) := by
    unfold sampleDone
    dsimp only
    have hend : ¬(decide (m.n ≠ 0) && decide (m.n ≤ m.count)) = true := by
      simp only [Bool.and_eq_true, decide_eq_true_eq, not_and]
      omega
    have hover : ¬(decide (m.n = 0) && decide (4294967295 ≤ m.count)) = true := by
      simp only [Bool.and_eq_true, decide_eq_true_eq, not_and]
      omega
    rw [if_neg hend, if_neg hover]
  rw [hgo]
  have hx : Frame (.ofParts [.chans]) s (s.setChan k { s.chan k with meas := some m }) := .setChan .refl
  have hxc := (State.chan_setChan s k { s.chan k with meas := some m } k).trans (if_pos rfl)
  generalize s.setChan k _ = x at *
  have hy : Frame (.ofRegs [.TS_LIVE]) x (x.tsSet TS_LIVE.LIVE k m.count) := .tsSet .refl
  have hylive := ts_set (f := TS_LIVE.LIVE) (by decide) (v := m.count) (hcount.trans (by decide)) k x
  generalize x.tsSet TS_LIVE.LIVE k m.count = y at *
  have hyc : y.chan k = { s.chan k with meas := some m } := by rw [hy.chan, hxc]
  obtain ⟨hmeas, hbuf, hz⟩ := pushRec_spec k r y
  unfold State.when
  split
  · refine ⟨by rw [hmeas, hyc], ?_, fun _ h1 h2 => ?_, by rw [hz.mem, hy.mem, hx.mem]⟩
    · rw [State.ts, hz.get]
      exact hylive
    · rw [hbuf (by rw [hyc]; exact h1) (by rw [hyc]; exact h2), hyc]
  · next hout => exact ⟨by rw [hyc], hylive, fun h _ _ => absurd (decide_eq_true h) hout, by rw [hy.mem, hx.mem]⟩

/-- What the statistics take in of a sample (R167). -/
theorem accumulate_spec (m : Meas) (x : ℤ) : (m.count = 0 → (m.accumulate x).pivot = x ∧ (m.accumulate x).minX = x) ∧
    (0 < m.count → (m.accumulate x).pivot = m.pivot ∧ (m.accumulate x).s1 = m.s1 + (x - m.pivot)) := by
  refine ⟨fun h => ?_, fun h => ?_⟩
  · simp [Meas.accumulate, h]
  · simp [Meas.accumulate, h.ne']

/-- A sample in range enters the statistics, and the measurement goes on (R164, R167). -/
theorem takeSample_spec {x : ℤ} {kind : ℕ} (hx : x.natAbs < 2 ^ 48) (hn : m.n = 0 ∨ m.count + 1 < m.n) (hcount : m.count + 1 < 2 ^ 32 - 1)
    (s : State) : ((takeSample k m x false kind stamp s).chan k).meas = some { m.accumulate x with unres := m.unres || false } ∧
    (takeSample k m x false kind stamp s).ts TS_LIVE.LIVE k = m.count + 1 ∧ (takeSample k m x false kind stamp s).mem = s.mem := by
  unfold takeSample
  rw [if_neg (by omega)]
  obtain ⟨hmeas, hlive, -, hmem⟩ := sampleDone_spec (k := k) (m := { m.accumulate x with unres := m.unres || false }) (stamp := stamp)
    (r := { ring := mwRing m.word, kind := kind, payload := twos 64 x, redPrec := s.ts TS_STAT.RED_PREC k == 1, unres := false }) hn hcount s
  exact ⟨hmeas, hlive, hmem⟩

/-- The sample of a pair that is resolved and in range (R163, R164). -/
theorem takePair_spec {a b : ℕ} (hres : unresolved k (stopChan k m.word) ((b : ℤ) - a).natAbs = false) (hx : ((b : ℤ) - a).natAbs < 2 ^ 48)
    (hn : m.n = 0 ∨ m.count + 1 < m.n) (hcount : m.count + 1 < 2 ^ 32 - 1) (s : State) :
    ((takePair k m a b stamp s).chan k).meas = some { m.accumulate ((b : ℤ) - a) with unres := m.unres || false } ∧
    (takePair k m a b stamp s).ts TS_LIVE.LIVE k = m.count + 1 ∧ (takePair k m a b stamp s).mem = s.mem := by
  unfold takePair
  dsimp only
  rw [hres]
  exact takeSample_spec hx hn hcount s

/-! ### The edge that the sample path takes (R161) -/

/-- The sample path has taken the first edge of the FIFO. -/
def edgeTaken (k : ℕ) (es : List Edge) (s : State) : State := s.setChan k { s.chan k with fifo := es }

/-- The measurement as an edge of its own channel finds it. -/
def metBy (e : Edge) (m : Meas) : Meas := { m with newRef := m.newRef || e.ovr }

/-- The measurement without the pending edges that have grown too old (R164). -/
def freshened (e : Edge) (m : Meas) : Meas :=
  { metBy e m with pendStart := fresh e.stamp m.pendStart, pendStop := fresh e.stamp m.pendStop }

/-- The channel's measurement is `m` now. -/
def holdMeas (k : ℕ) (m : Meas) (s : State) : State := s.setChan k { s.chan k with meas := some m }

theorem holdMeas_chan (k : ℕ) (m : Meas) (s : State) : (holdMeas k m s).chan k = { s.chan k with meas := some m } :=
  (State.chan_setChan s k _ k).trans (if_pos rfl)

theorem holdMeas_frame (k : ℕ) (m : Meas) (s : State) : Frame (.ofParts [.chans]) s (holdMeas k m s) := .setChan .refl

/-- The measurement is open, and the edge comes before its known end (R165, R166). -/
structure TakesPart (m : Meas) (e : Edge) (at_ : ℕ) : Prop where
  before : ∀ u, m.limit = some u → e.stamp < u
  opened : m.openAt = some at_
  after : at_ ≤ e.stamp
  armed : m.ta * 65536 ≤ e.stamp

theorem TakesPart.takesPart {opened : ℕ} (h : TakesPart m e opened) : (metBy e m).takesPart e.stamp = true := by
  have hm : (metBy e m).takesPart e.stamp = m.takesPart e.stamp := rfl
  obtain ⟨hbefore, hopened, hafter, harmed⟩ := h
  rw [hm, Meas.takesPart, hopened]
  cases hl : m.limit with
  | none => simp [hafter, harmed]
  | some u => simp [hafter, harmed, hbefore u hl]

theorem useEdge_stamp {opened : ℕ} (hm : (s.chan k).meas = some m) (h : TakesPart m e opened) (hmode : mwMode m.word = 0)
    (hstart : polarity (mwStart m.word) e.fall = true) : useEdge k true e s =
    sampleDone k { freshened e m with count := m.count + 1 } e.stamp
      { ring := mwRing m.word, kind := 0, payload := e.stamp / 65536, frac := e.stamp % 65536,
        redPrec := (holdMeas k (metBy e m) s).ts TS_STAT.RED_PREC k == 1 } (holdMeas k (metBy e m) s) := by
  have hpart := h.takesPart
  unfold useEdge
  rw [hm]
  change (if (!(metBy e m).takesPart e.stamp) = true then _ else if mwMode m.word = 0 then
    if (true && polarity (mwStart m.word) e.fall) = true then _ else _ else _) = _
  rw [hpart, if_neg (by decide), if_pos hmode, hstart]
  rfl

theorem useEdge_reference {opened : ℕ} (hm : (s.chan k).meas = some m) (h : TakesPart m e opened) (hmode : mwMode m.word = 2)
    (hstart : polarity (mwStart m.word) e.fall = true) (href : (m.newRef || e.ovr) = true) : useEdge k true e s =
    holdMeas k { freshened e m with newRef := false, prev := e.stamp } (holdMeas k (metBy e m) s) := by
  have hpart := h.takesPart
  unfold useEdge
  rw [hm]
  change (if (!(metBy e m).takesPart e.stamp) = true then _ else if mwMode m.word = 0 then _ else if mwMode m.word = 2 then
    if (true && polarity (mwStart m.word) e.fall) = true then if (m.newRef || e.ovr) = true then _ else _ else _ else _) = _
  rw [hpart, if_neg (by decide), if_neg (by omega), if_pos hmode, hstart, Bool.true_and, if_pos rfl, href, if_pos rfl]
  rfl

theorem useEdge_period {opened : ℕ} (hm : (s.chan k).meas = some m) (h : TakesPart m e opened) (hmode : mwMode m.word = 2)
    (hstart : polarity (mwStart m.word) e.fall = true) (href : (m.newRef || e.ovr) = false) : useEdge k true e s =
    takeSample k { freshened e m with prev := e.stamp } ((e.stamp : ℤ) - m.prev) false 2 e.stamp (holdMeas k (metBy e m) s) := by
  have hpart := h.takesPart
  unfold useEdge
  rw [hm]
  change (if (!(metBy e m).takesPart e.stamp) = true then _ else if mwMode m.word = 0 then _ else if mwMode m.word = 2 then
    if (true && polarity (mwStart m.word) e.fall) = true then if (m.newRef || e.ovr) = true then _ else _ else _ else _) = _
  rw [hpart, if_neg (by decide), if_neg (by omega), if_pos hmode, hstart, Bool.true_and, if_pos rfl, href, if_neg (by decide)]
  rfl

/-- The state in which an edge of an INTERVAL measurement is a start or a stop. -/
def pairing (k : ℕ) (e : Edge) (m : Meas) (s : State) : State := holdMeas k (freshened e m) (holdMeas k (metBy e m) s)

theorem useEdge_stop {opened : ℕ} (hm : (s.chan k).meas = some m) (h : TakesPart m e opened) (hmode : mwMode m.word = 1)
    (hstop : stopChan k m.word = k) (hno : polarity (mwStart m.word) e.fall = false) (hyes : polarity (mwStop m.word) e.fall = true) :
    useEdge k true e s = stopEdge k (freshened e m) e.stamp (pairing k e m s) := by
  have hpart := h.takesPart
  unfold useEdge
  rw [hm]
  change (if (!(metBy e m).takesPart e.stamp) = true then _ else if mwMode m.word = 0 then _ else if mwMode m.word = 2 then _ else
    if (true && polarity (mwStart m.word) e.fall && ((!true || stopChan k m.word == k) && polarity (mwStop m.word) e.fall) &&
      (freshened e m).pendStart.isSome) = true then _
    else if (true && polarity (mwStart m.word) e.fall) = true then _
    else if ((!true || stopChan k m.word == k) && polarity (mwStop m.word) e.fall) = true then _ else _) = _
  rw [hpart, if_neg (by decide), if_neg (by omega), if_neg (by omega), hno, if_neg (by simp), if_neg (by simp), if_pos (by simp [hstop, hyes])]
  rfl

theorem useEdge_start {opened : ℕ} (hm : (s.chan k).meas = some m) (h : TakesPart m e opened) (hmode : mwMode m.word = 1)
    (hstop : stopChan k m.word ≠ k) (hyes : polarity (mwStart m.word) e.fall = true) :
    useEdge k true e s = startEdge k (freshened e m) e.stamp (pairing k e m s) := by
  have hpart := h.takesPart
  unfold useEdge
  rw [hm]
  change (if (!(metBy e m).takesPart e.stamp) = true then _ else if mwMode m.word = 0 then _ else if mwMode m.word = 2 then _ else
    if (true && polarity (mwStart m.word) e.fall && ((!true || stopChan k m.word == k) && polarity (mwStop m.word) e.fall) &&
      (freshened e m).pendStart.isSome) = true then _
    else if (true && polarity (mwStart m.word) e.fall) = true then _ else _) = _
  rw [hpart, if_neg (by decide), if_neg (by omega), if_neg (by omega), if_neg (by simp [hstop]), if_pos (by simp [hyes])]
  rfl

/-- A pending edge that is not too old stays (R164). -/
theorem fresh_some {now u : ℕ} {p : Option ℕ} (hp : p = some u) (h : now ≤ u + 2 ^ 48) : fresh now p = some u := by
  rw [hp, fresh, Option.filter_some, decide_eq_true h]
  rfl

theorem stopEdge_pairs {u now : ℕ} (h : m.pendStart = some u) (s : State) : stopEdge k m now s =
    takePair k { m with pendStart := none } u now now s := by
  rw [stopEdge, h]

theorem startEdge_pairs {u now : ℕ} (h : m.pendStop = some u) (hs : mwSigned m.word = true) (s : State) : startEdge k m now s =
    takePair k { m with pendStop := none, pendStart := none } now u now s := by
  rw [startEdge, h]
  dsimp only
  rw [hs, if_pos (by simp)]

end

/-! ### The command -/

section

variable {s : State} {k : ChannelIx} {e : Edge} {es : List Edge} {m : Meas} {opened u : ℕ}

theorem takeOne_front {k : ℕ} (hfifo : (s.chan k).fifo = e :: es) (htaps : (s.chan k).taps = []) :
    takeOne k s = useEdge k true e (edgeTaken k es s) := by
  unfold takeOne edgeTaken
  dsimp only
  split
  · next h _ => exact absurd (h.symm.trans hfifo) (List.cons_ne_nil _ _).symm
  · next h _ =>
    obtain ⟨rfl, rfl⟩ := List.cons.inj (h.symm.trans hfifo)
    rfl
  · next h _ => exact absurd (h.symm.trans hfifo) (List.cons_ne_nil _ _).symm
  · next _ h => exact absurd (h.symm.trans htaps) (List.cons_ne_nil _ _)

theorem sampleTake_exec (ha : alive (chanChip k) s) (hfifo : (s.chan k).fifo = e :: es)
    (hpast : e.at_ + (if e.late then 1 else 0) < s.clock) (htaps : (s.chan k).taps = []) :
    exec (.sampleTake k) s = .next (useEdge k true e (edgeTaken k es s)) := by
  refine (actOn_alive ha _).trans (congrArg Host.Outcome.next ?_)
  have hnext : (s.chan k).nextEdge = some e := by rw [Chan.nextEdge, hfifo, htaps]
  rw [sampleTakeS, hnext, Option.any_some, decide_eq_true hpast, if_pos rfl, takeOne_front hfifo htaps]

theorem edgeTaken_chan (k : ℕ) (es : List Edge) (s : State) : (edgeTaken k es s).chan k = { s.chan k with fifo := es } :=
  (State.chan_setChan s k _ k).trans (if_pos rfl)

theorem edgeTaken_frame (k : ℕ) (es : List Edge) (s : State) : Frame (.ofParts [.chans]) s (edgeTaken k es s) := .setChan .refl

/-- R161 to R163, R165, R167. -/
theorem samplesComplete : SamplesComplete := by
  refine ⟨?_, ?_, ?_, ?_, ?_, ?_⟩
  · intro k e es s ha hfifo hpast htaps hm
    refine ⟨_, sampleTake_exec ha hfifo hpast htaps, ?_⟩
    have hnone : useEdge k true e (edgeTaken k es s) = edgeTaken k es s := by
      rw [useEdge, edgeTaken_chan, hm]
    rw [hnone]
    exact ⟨edgeTaken_chan k es s, fun j hj => (State.chan_setChan s k _ j).trans (if_neg hj), (edgeTaken_frame k es s).kept⟩
  · intro k e es m opened s ha hfifo hpast htaps hm hmode hlimit hopen hafter harm hstart hn hcount
    refine ⟨_, sampleTake_exec ha hfifo hpast htaps, ?_⟩
    have hx := edgeTaken_frame k es s
    have hxc := edgeTaken_chan k es s
    generalize edgeTaken k es s = x at *
    rw [useEdge_stamp (by rw [hxc]; exact hm) ⟨hlimit, hopen, hafter, harm⟩ hmode hstart]
    have hy := holdMeas_frame k (metBy e m) x
    have hyc := holdMeas_chan k (metBy e m) x
    generalize holdMeas k (metBy e m) x = y at *
    obtain ⟨hmeas, hlive, hbuf, hmem⟩ := sampleDone_spec (k := k) (m := { freshened e m with count := m.count + 1 }) (stamp := e.stamp)
      (r := { ring := mwRing m.word, kind := 0, payload := e.stamp / 65536, frac := e.stamp % 65536, redPrec := y.ts TS_STAT.RED_PREC k == 1 })
      hn hcount y
    refine ⟨by rw [hmeas]; rfl, hlive, fun hout hlate hroom => ?_, by rw [hmem, hy.mem, hx.mem]⟩
    rw [hbuf hout (by rw [hyc, hxc]; exact hlate) (by rw [hyc, hxc]; exact hroom), hyc, hxc, State.ts, hy.get, hx.get]
    rfl
  · intro k e es m opened u s ha hfifo hpast htaps hm hmode hlimit hopen hafter harm hstop hno hyes hpend hle hfar hres hn hcount
    refine ⟨_, sampleTake_exec ha hfifo hpast htaps, ?_⟩
    have hx := edgeTaken_frame k es s
    have hxc := edgeTaken_chan k es s
    generalize edgeTaken k es s = x at *
    rw [useEdge_stop (by rw [hxc]; exact hm) ⟨hlimit, hopen, hafter, harm⟩ hmode hstop hno hyes,
      stopEdge_pairs (m := freshened e m) (fresh_some hpend (by omega))]
    have hy : Frame (.ofParts [.chans]) x (pairing k e m x) := (holdMeas_frame ..).trans (holdMeas_frame ..)
    generalize pairing k e m x = y at *
    have habs : ((e.stamp : ℤ) - u).natAbs = e.stamp - u := by omega
    obtain ⟨hmeas, hlive, hmem⟩ := takePair_spec (k := k) (m := { freshened e m with pendStart := none }) (stamp := e.stamp) (a := u) (b := e.stamp)
      (by rw [habs]; exact (congrArg (unresolved k · (e.stamp - u)) hstop).trans hres) (by omega) hn hcount y
    have hacc := accumulate_spec { freshened e m with pendStart := none } ((e.stamp : ℤ) - u)
    exact ⟨_, hmeas, rfl, rfl, hacc.1, hacc.2, hlive, by rw [hmem, hy.mem, hx.mem]⟩
  · intro k e es m opened s ha hfifo hpast htaps hm hmode hlimit hopen hafter harm hstart href
    refine ⟨_, sampleTake_exec ha hfifo hpast htaps, ?_⟩
    have hx := edgeTaken_frame k es s
    have hxc := edgeTaken_chan k es s
    generalize edgeTaken k es s = x at *
    rw [useEdge_reference (by rw [hxc]; exact hm) ⟨hlimit, hopen, hafter, harm⟩ hmode hstart (by simpa using href)]
    have hy := (holdMeas_frame k (metBy e m) x).trans (holdMeas_frame k { freshened e m with newRef := false, prev := e.stamp } _)
    refine ⟨{ freshened e m with newRef := false, prev := e.stamp }, by rw [holdMeas_chan], rfl, rfl, rfl, rfl, by rw [holdMeas_chan, holdMeas_chan, hxc], (hx.trans hy).kept⟩
  · intro k e es m opened s ha hfifo hpast htaps hm hmode hlimit hopen hafter harm hstart href hovr hle hfar hn hcount
    refine ⟨_, sampleTake_exec ha hfifo hpast htaps, ?_⟩
    have hx := edgeTaken_frame k es s
    have hxc := edgeTaken_chan k es s
    generalize edgeTaken k es s = x at *
    rw [useEdge_period (by rw [hxc]; exact hm) ⟨hlimit, hopen, hafter, harm⟩ hmode hstart (by simp [href, hovr])]
    have hy := holdMeas_frame k (metBy e m) x
    generalize holdMeas k (metBy e m) x = y at *
    obtain ⟨hmeas, hlive, hmem⟩ := takeSample_spec (k := k) (m := { freshened e m with prev := e.stamp }) (stamp := e.stamp)
      (x := (e.stamp : ℤ) - m.prev) (kind := 2) (by omega) hn hcount y
    have hacc := accumulate_spec { freshened e m with prev := e.stamp } ((e.stamp : ℤ) - m.prev)
    exact ⟨_, hmeas, rfl, rfl, hacc.1, hacc.2, hlive, by rw [hmem, hy.mem, hx.mem]⟩
  · intro k e es m opened u s ha hfifo hpast htaps hm hmode hsigned hlimit hopen hafter harm hstop hyes hpend hle hfar hres hn hcount
    refine ⟨_, sampleTake_exec ha hfifo hpast htaps, ?_⟩
    have hx := edgeTaken_frame k es s
    have hxc := edgeTaken_chan k es s
    generalize edgeTaken k es s = x at *
    rw [useEdge_start (by rw [hxc]; exact hm) ⟨hlimit, hopen, hafter, harm⟩ hmode hstop hyes,
      startEdge_pairs (m := freshened e m) (fresh_some hpend (by omega)) hsigned]
    have hy : Frame (.ofParts [.chans]) x (pairing k e m x) := (holdMeas_frame ..).trans (holdMeas_frame ..)
    generalize pairing k e m x = y at *
    have habs : ((u : ℤ) - e.stamp).natAbs = e.stamp - u := by omega
    obtain ⟨hmeas, hlive, hmem⟩ := takePair_spec (k := k) (m := { freshened e m with pendStop := none, pendStart := none }) (stamp := e.stamp)
      (a := e.stamp) (b := u) (by rw [habs]; exact hres) (by omega) hn hcount y
    have hacc := accumulate_spec { freshened e m with pendStop := none, pendStart := none } ((u : ℤ) - e.stamp)
    exact ⟨_, hmeas, rfl, rfl, rfl, hacc.1, hacc.2, hlive, by rw [hmem, hy.mem, hx.mem]⟩

/-- Settles O33, by the edge's turn at the input and its turn in the sample path. -/
theorem edgesAndSamplesComplete : Obligations.EdgesAndSamplesComplete := ⟨edgesComplete, samplesComplete⟩

end

end Sys2Proof.Proofs

/-! ## Record rings (R169 to R173) and the Teasel code density (R256, R257) -/

namespace Sys2Proof.Proofs

set_option Elab.async false

open Sys2Proof Sys2Proof.Machine Sys2Proof.Claims

/-! ### Writes that leave no record (R324) -/

section

variable {s : State} {r : RegAt} {a : ℕ} {v : Word} {id : RegId} {i j : ℕ} {o : Origin}

/-- A write that changes nothing of its register leaves no record, nor does a write to `RING_REL`. -/
theorem directWrite_silent (hclean : s.clean r a v = true) (hw : s.writable r a ≠ 0#32) (o : ℕ)
    (hs : r.id = .RING_REL ∨ (writeHook o r (s.writable r a) (s.reg a) (writtenWord s r a v) s).1 = s.reg a) : directWrite o r a v s =
    afterWrite r (s.reg a) ((writeHook o r (s.writable r a) (s.reg a) (writtenWord s r a v) s).2.setReg a
      (writeHook o r (s.writable r a) (s.reg a) (writtenWord s r a v) s).1) := by
  have hviol := violations_of_clean hclean o (s.heldWord r a none)
  have hclean' := hclean
  simp only [State.clean, Bool.and_eq_true, Bool.not_eq_true', decide_eq_true_eq] at hclean'
  obtain ⟨⟨⟨⟨⟨-, hlock⟩, hown⟩, honce⟩, -⟩, -⟩ := hclean'
  have hact : (s.writable r a != 0) = true := bne_iff_ne.mpr hw
  have hno : (((writeHook o r (s.writable r a) (s.reg a) (writtenWord s r a v) s).1 ^^^ s.reg a) &&& s.writable r a != 0 &&
      r.id != .RING_REL) = false := by
    rcases hs with hrel | hsame
    · rw [hrel]
      simp
    · rw [hsame]
      simp
  unfold writtenWord at hno ⊢
  unfold directWrite
  dsimp only
  rw [hviol]
  simp only [hlock, hown, honce, Bool.or_false, Bool.false_and, Bool.not_false, Bool.and_true, hact, if_true, Option.isSome_none, Bool.false_or,
    hno, State.when, Bool.false_eq_true, if_false]

theorem busWrite_silent (h : s.writes o id i j v = true) (hid : Plain id)
    (hs : id = .RING_REL ∨ (writeHook o.toNat ⟨id, i, j⟩ (BitVec.ofNat 32 ((regRow id).rw ||| (regRow id).cnt ||| (regRow id).wo1))
      (s.reg (id.at i j)) v s).1 = s.reg (id.at i j))
    (hi : i < (regRow id).n1 := by decide) (hj : j < (regRow id).n2 := by decide) (h0 : (RegAt.mk id i j).entry0 = false := by rfl)
    (hcomp : ∀ w, s.computed ⟨id, i, j⟩ w = w := by exact fun _ => rfl) :
    busWrite o (id.at i j) v s = .next (afterWrite ⟨id, i, j⟩ (s.reg (id.at i j))
      ((writeHook o.toNat ⟨id, i, j⟩ (BitVec.ofNat 32 ((regRow id).rw ||| (regRow id).cnt ||| (regRow id).wo1)) (s.reg (id.at i j)) v s).2.setReg
        (id.at i j)
      (writeHook o.toNat ⟨id, i, j⟩ (BitVec.ofNat 32 ((regRow id).rw ||| (regRow id).cnt ||| (regRow id).wo1)) (s.reg (id.at i j)) v s).1)) := by
  obtain ⟨hserves, hclean⟩ := Bool.and_eq_true_iff.mp h
  have hserved := serves_iff.mp hserves
  have hreg : regOf (id.at i j) = some ⟨id, i, j⟩ := regOf_at id i j hi hj h0
  have hview : s.view ⟨id, i, j⟩ (id.at i j) = s.reg (id.at i j) := by
    rw [State.view, badAt_of_thawed (hserved.thawed rfl)]
    exact hcomp _
  have hmask : s.writable ⟨id, i, j⟩ (id.at i j) = BitVec.ofNat 32 ((regRow id).rw ||| (regRow id).cnt ||| (regRow id).wo1) :=
    writable_of_clean hclean
  have hword := writtenWord_eq hclean hview hid.covered
  have hq := directWrite_silent hclean (by rw [hmask]; exact hid.stored) o.toNat (by rw [hmask, hword]; exact hs)
  rw [busWrite, originWrite_of_serves hserves hreg hid.notA hid.notB (reservedAt_of_served hserved hreg), hq, hmask, hword]

end

/-! ### Records (R171, R172) -/

section

variable {s t : State} {k : ℕ} {r : Rec} {rest : List Rec}

theorem markStall_spec (k : ℕ) (s : State) : (markStall k s).ts TS_STAT.RING_STALL k = 1 ∧ ((markStall k s).chan k).stalled = true ∧
    (markStall k s).raising = s.raising ++ (if (s.chan k).stalled then [] else [273]) ∧ (markStall k s).mem = s.mem := by
  unfold markStall
  have hx : Frame (.ofRegs [.TS_STAT]) s (s.tsSet TS_STAT.RING_STALL k 1) := .tsSet .refl
  have hset := ts_set (f := TS_STAT.RING_STALL) (v := 1) (by decide) (by decide) k s
  generalize s.tsSet TS_STAT.RING_STALL k 1 = x at *
  dsimp only
  rw [hx.chan]
  split
  · next h => exact ⟨hset, by rw [hx.chan, h], by rw [hx.raising, List.append_nil], hx.mem⟩
  · have hy : Frame (.ofParts [.chans]) x (x.setChan k { s.chan k with stalled := true }) := .setChan .refl
    have hyc := (State.chan_setChan x k { s.chan k with stalled := true } k).trans (if_pos rfl)
    generalize x.setChan k _ = y at *
    have hz : Frame (.ofParts [.raising]) y (y.raise 273) := .raise .refl
    have hzr : (y.raise 273).raising = y.raising ++ [273] := rfl
    generalize y.raise 273 = z at *
    refine ⟨?_, by rw [hz.chan, hyc], by rw [hzr, hy.raising, hx.raising], by rw [hz.mem, hy.mem, hx.mem]⟩
    rw [State.ts, hz.get, hy.get]
    exact hset

/-- A ring counts a record. -/
def countRecord (q n : ℕ) (s : State) : State := { s with ringSeq := SMap.set (fun _ => 0) s.ringSeq q n }

/-- A record is written to memory, and counted (R171). -/
def written (k a : ℕ) (r : Rec) (s : State) : State :=
  countRecord r.ring ((SMap.get (fun _ => 0) s.ringSeq r.ring + 1) % 65536)
    (freshRecord a (s.store a (recBytes k ((SMap.get (fun _ => 0) s.ringSeq r.ring + 1) % 65536) r)))

theorem written_spec (k a : ℕ) (r : Rec) (s : State) :
    Stored a (recBytes k ((SMap.get (fun _ => 0) s.ringSeq r.ring + 1) % 65536) r) s (written k a r s) ∧
    Frame (.ofParts [.mem, .badWords, .ecc, .ringSeq]) s (written k a r s) := by
  unfold written
  generalize recBytes k _ r = bs
  have hx : Frame (.ofParts [.mem, .badWords, .ecc]) s (s.store a bs) := .store .refl
  have hbyte := byte_store s a bs
  generalize s.store a bs = x at *
  have hy (q n : ℕ) : Frame (.ofParts [.ecc, .ringSeq]) x (countRecord q n (freshRecord a x)) := .withRingSeq (.freshRecord .refl)
  refine ⟨fun b => ?_, (hx.mono (by decide)).lift (by decide) (hy _ _)⟩
  rw [State.byte, (hy _ _).mem, ← State.byte, hbyte]

/-- The ring's write place moves on (R171). -/
def advanced (q w cap : ℕ) (s : State) : State := (s.put RING_WR.WR ((w + 1) % cap) q).bump RING_STAT.LEVEL q

/-- The ring has taken a record, and tells once it is full. -/
def moved (q w : ℕ) (s : State) : State :=
  (advanced q w (s.ringCap q) s).when ((advanced q w (s.ringCap q) s).ringFull q) (·.put RING_STAT.FULL_SEEN 1 q)

/-- The places of a ring after a record. -/
structure RingMoved (q : ℕ) (s t : State) : Prop where
  place : t.get RING_WR.WR q = (s.get RING_WR.WR q + 1) % s.ringCap q
  level : t.get RING_STAT.LEVEL q = s.get RING_STAT.LEVEL q + 1
  full : t.ringFull q = true → t.isSet RING_STAT.FULL_SEEN q = true
  regs : RegsKept [RegId.RING_WR.at q, RegId.RING_STAT.at q] s t
  frame : Frame (.ofRegs [.RING_WR, .RING_STAT]) s t

theorem ringCap_le (q : ℕ) (s : State) : s.ringCap q ≤ 256 * 1023 :=
  Nat.mul_le_mul_left _ (Nat.le_of_lt_succ (Nat.mod_lt _ (by decide)))

theorem ringMoved_spec (q : ℕ) (s : State) (h : s.ringFull q = false) : RingMoved q s (moved q (s.get RING_WR.WR q) s) := by
  have hcap := ringCap_le q s
  have hlevel : s.get RING_STAT.LEVEL q < s.ringCap q := by
    unfold State.ringFull at h
    simpa using h
  have hx : Frame (.ofRegs [.RING_WR]) s (s.put RING_WR.WR ((s.get RING_WR.WR q + 1) % s.ringCap q) q) := .put .refl
  have hxr : RegsKept [RegId.RING_WR.at q, RegId.RING_STAT.at q] s (s.put RING_WR.WR ((s.get RING_WR.WR q + 1) % s.ringCap q) q) := .put .refl
  have hplace := get_put_lt (s := s) (f := RING_WR.WR) (v := (s.get RING_WR.WR q + 1) % s.ringCap q) q 0 (by decide)
    ((Nat.mod_lt _ (by omega)).trans_le (hcap.trans (by decide)))
  unfold moved advanced
  generalize s.put RING_WR.WR _ q = x at *
  have hy : Frame (.ofRegs [.RING_STAT]) x (x.bump RING_STAT.LEVEL q) := .bump .refl
  have hyr : RegsKept [RegId.RING_WR.at q, RegId.RING_STAT.at q] x (x.bump RING_STAT.LEVEL q) := .bump .refl
  have hmore : (x.bump RING_STAT.LEVEL q).get RING_STAT.LEVEL q = s.get RING_STAT.LEVEL q + 1 := by
    refine (get_put_lt (s := x) (f := RING_STAT.LEVEL) q 0 (by decide) (v := x.get RING_STAT.LEVEL q + 1) ?_).trans (by rw [hx.get])
    rw [hx.get]
    exact (show s.get RING_STAT.LEVEL q + 1 ≤ 256 * 1023 by omega).trans_lt (by decide)
  generalize x.bump RING_STAT.LEVEL q = y at *
  have hxy := (hx.mono (w := .ofRegs [.RING_WR, .RING_STAT]) (by decide)).lift (by decide) hy
  unfold State.when
  split
  · have hz : Frame (.ofRegs [.RING_STAT]) y (y.put RING_STAT.FULL_SEEN 1 q) := .put .refl
    have hlv : (y.put RING_STAT.FULL_SEEN 1 q).get RING_STAT.LEVEL q = y.get RING_STAT.LEVEL q := get_put_of_apart (by decide) ..
    exact ⟨by rw [hz.get, hy.get, hplace], by rw [hlv, hmore], fun _ => isSet_put_one _ _ (by decide), (hxr.trans hyr).put,
      hxy.lift (by decide) hz⟩
  · next hnot => exact ⟨by rw [hy.get, hplace], hmore, fun hfull => absurd hfull hnot, hxr.trans hyr, hxy⟩

theorem afterRecord_spec (k : ℕ) (rest : List Rec) (r : Rec) (s : State) :
    ((afterRecord k rest r s).chan k).buf = (Chan.refill { s.chan k with buf := rest }).buf ∧
    Frame (.ofParts [.chans, .queues]) s (afterRecord k rest r s) := by
  refine ⟨?_, .afterRecord .refl⟩
  unfold afterRecord
  dsimp only
  have hset := (State.chan_setChan s k { Chan.refill { s.chan k with buf := rest } with
    stalled := !(Chan.refill { s.chan k with buf := rest }).buf.isEmpty && (Chan.refill { s.chan k with buf := rest }).stalled } k).trans (if_pos rfl)
  generalize s.setChan k _ = x at *
  split
  · cases r.item with
    | none =>
      change (x.chan k).buf = _
      rw [hset]
    | some i =>
      change ((endWait k i x).chan k).buf = _
      rw [Frame.chan (w := .ofParts [.queues]) (.endWait .refl), hset]
  · rw [hset]

theorem recordStoreS_eq (hbuf : (s.chan k).buf = r :: rest) (hcd : s.cdDown = false) (hen : s.get RING_CFG.EN r.ring = 1)
    (hroom : s.ringFull r.ring = false) (hbank : s.bankLost (bankOf (s.ringAddr r.ring (s.get RING_WR.WR r.ring))) = false) :
    recordStoreS k s = afterRecord k rest r (moved r.ring (s.get RING_WR.WR r.ring)
      (written k (s.ringAddr r.ring (s.get RING_WR.WR r.ring)) r s)) := by
  unfold recordStoreS
  rw [hbuf]
  dsimp only
  rw [hcd, hen, if_neg (by simp), hroom, if_neg (by decide), hbank, if_neg (by decide)]
  rfl

end

section

variable {s : State} {k : ChannelIx} {r : Rec} {rest : List Rec}

theorem recordStore_complete (ha : alive (chanChip k) s) (hbuf : (s.chan k).buf = r :: rest) (hcd : s.cdDown = false)
    (hen : s.get RING_CFG.EN r.ring = 1) (hroom : s.ringFull r.ring = false)
    (hbank : s.bankLost (bankOf (s.ringAddr r.ring (s.get RING_WR.WR r.ring))) = false) :
    ∃ t, exec (.recordStore k) s = .next t ∧ (t.chan k).buf = (Chan.refill { s.chan k with buf := rest }).buf ∧
      Stored (s.ringAddr r.ring (s.get RING_WR.WR r.ring)) (recBytes k ((SMap.get (fun _ => 0) s.ringSeq r.ring + 1) % 65536) r) s t ∧
      t.get RING_WR.WR r.ring = (s.get RING_WR.WR r.ring + 1) % s.ringCap r.ring ∧
      t.get RING_STAT.LEVEL r.ring = s.get RING_STAT.LEVEL r.ring + 1 ∧
      (t.ringFull r.ring = true → t.isSet RING_STAT.FULL_SEEN r.ring = true) ∧
      RegsKept [RegId.RING_WR.at r.ring, RegId.RING_STAT.at r.ring] s t ∧ Kept [.chans, .mem, .badWords, .ecc, .regs, .ringSeq, .queues] s t := by
  refine ⟨_, (actOn_alive ha _).trans (congrArg Host.Outcome.next (recordStoreS_eq hbuf hcd hen hroom hbank)), ?_⟩
  obtain ⟨hstored, hx⟩ := written_spec k (s.ringAddr r.ring (s.get RING_WR.WR r.ring)) r s
  have hfull {w : Scope} {u v : State} (hf : Frame w u v) (h1 : w.hasReg .RING_CFG = false := by decide)
      (h2 : w.hasReg .RING_STAT = false := by decide) : v.ringCap r.ring = u.ringCap r.ring ∧ v.ringFull r.ring = u.ringFull r.ring := by
    rw [State.ringFull, State.ringFull, State.ringCap, State.ringCap, hf.get (f := RING_CFG.SIZE) h1, hf.get (f := RING_STAT.LEVEL) h2]
    exact ⟨rfl, rfl⟩
  have hxfull := hfull hx
  have hxwr := hx.get (f := RING_WR.WR) (i := r.ring) (j := 0)
  have hxregs : RegsKept [RegId.RING_WR.at r.ring, RegId.RING_STAT.at r.ring] s (written k (s.ringAddr r.ring (s.get RING_WR.WR r.ring)) r s) :=
    .congr .refl (hx.part .regs (by decide))
  generalize written k _ r s = x at *
  rw [← hxwr]
  obtain ⟨hplace, hlevel, hseen, hregs, hy⟩ := ringMoved_spec r.ring x (by rw [hxfull.2, hroom])
  generalize moved r.ring (x.get RING_WR.WR r.ring) x = y at *
  obtain ⟨hbuf', hz⟩ := afterRecord_spec k rest r y
  have hzfull := hfull hz
  generalize afterRecord k rest r y = z at *
  refine ⟨?_, fun b => ?_, ?_, ?_, fun h => ?_, (hxregs.trans hregs).congr (hz.part .regs (by decide)), ?_⟩
  · rw [hbuf', hy.chan, hx.chan]
  · rw [State.byte, hz.mem, hy.mem, ← State.byte, hxwr]
    exact hstored b
  · rw [hz.get, hplace, hxfull.1]
  · rw [hz.get, hlevel, hx.get]
  · rw [hz.isSet]
    exact hseen (by rw [← hzfull.2, h])
  · exact ((((hx.mono (w := .join [.ofParts [.mem, .badWords, .ecc, .ringSeq, .chans, .queues], .ofRegs [.RING_WR, .RING_STAT]])
      (by decide)).lift (by decide) hy).lift (by decide) hz)).kept

theorem recordStall_complete (ha : alive (chanChip k) s) (hbuf : (s.chan k).buf = r :: rest) (hcd : s.cdDown = false)
    (hen : s.get RING_CFG.EN r.ring = 1) (hfull : s.ringFull r.ring = true) : exec (.recordStore k) s = .next (markStall k s) := by
  refine (actOn_alive ha _).trans (congrArg Host.Outcome.next ?_)
  unfold recordStoreS
  rw [hbuf]
  dsimp only
  rw [hcd, hen, if_neg (by simp), hfull, if_pos rfl]

theorem markStall_buf (k : ℕ) (s : State) : ((markStall k s).chan k).buf = (s.chan k).buf := (markStall_chan k s).1

end

/-! ### Ring registers (R171) -/

section

variable {s : State} {o : Origin} {r : RingIx} {v : Word}

theorem plain_ringCfg : Plain .RING_CFG := ⟨by decide, by decide, by decide, by decide⟩

theorem plain_ringRel : Plain .RING_REL := ⟨by decide, by decide, by decide, by decide⟩

/-- A ring starts empty (R171). -/
def ringEmptied (r : ℕ) (s : State) : State :=
  let s := ((s.put RING_WR.WR 0 r).put RING_RD.RD 0 r).put RING_STAT.LEVEL 0 r
  { s with ringSeq := SMap.set (fun _ => 0) s.ringSeq r 0 }

/-- Whether a ring of these pages meets another that is enabled. -/
def ringClash (r : ℕ) (v : Word) (s : State) : Bool :=
  (List.range 32).any fun q => q != r && s.isSet RING_CFG.EN q &&
    decide (fieldOf v 0 10 < s.get RING_CFG.BASE q + s.get RING_CFG.SIZE q) && decide (s.get RING_CFG.BASE q < fieldOf v 0 10 + fieldOf v 10 10)

theorem hookRingCfg_takes {old : Word} (hnamed : s.ringNamed r = false) (hsize : fieldOf v 10 10 ≠ 0) (hen : fieldOf v 20 1 = 1)
    (hspace : fieldOf v 0 10 + fieldOf v 10 10 ≤ 748) (hclash : ringClash r v s = false) :
    hookRingCfg r old v s = (v, ringEmptied r s) := by
  unfold hookRingCfg
  rw [if_neg hsize]
  change (if (s.ringNamed r || (fieldOf v 20 1 == 1) && (decide (748 < fieldOf v 0 10 + fieldOf v 10 10) || ringClash r v s)) = true then _ else
    if (fieldOf v 20 1 == 1) = true then _ else _) = _
  rw [hnamed, hclash, decide_eq_false (by omega), hen, if_neg (by decide), if_pos (by decide)]
  rfl

theorem hookRingCfg_refuses {old : Word} (h : s.ringNamed r = true ∨ (fieldOf v 20 1 = 1 ∧ 748 < fieldOf v 0 10 + fieldOf v 10 10)) :
    hookRingCfg r old v s = (old, s.put RING_STAT.CFGBAD 1 r) := by
  unfold hookRingCfg
  dsimp only
  rw [if_pos]
  rcases h with hnamed | ⟨hen, hspace⟩
  · rw [hnamed, Bool.true_or]
  · have hkept : fieldOf (if fieldOf v 10 10 = 0 then withField v 10 10 1 else v) 0 10 = fieldOf v 0 10 ∧
        fieldOf (if fieldOf v 10 10 = 0 then withField v 10 10 1 else v) 20 1 = fieldOf v 20 1 ∧
        fieldOf v 10 10 ≤ fieldOf (if fieldOf v 10 10 = 0 then withField v 10 10 1 else v) 10 10 := by
      split
      · next h0 =>
        exact ⟨fieldOf_withField_ne _ _ _ _ _ _ (by decide) (by decide), fieldOf_withField_ne _ _ _ _ _ _ (by decide) (by decide),
          h0.trans_le (Nat.zero_le _)⟩
      · exact ⟨rfl, rfl, le_refl _⟩
    obtain ⟨hbase, hbit, hsize⟩ := hkept
    rw [hbase, hbit, hen, decide_eq_true (show 748 < fieldOf v 0 10 + _ from hspace.trans_le (Nat.add_le_add_left hsize _))]
    simp

theorem ringEmptied_spec (r : ℕ) (s : State) : (ringEmptied r s).get RING_WR.WR r = 0 ∧ (ringEmptied r s).get RING_RD.RD r = 0 ∧
    (ringEmptied r s).get RING_STAT.LEVEL r = 0 ∧ RegsKept [RegId.RING_WR.at r, RegId.RING_RD.at r, RegId.RING_STAT.at r] s (ringEmptied r s) ∧
    Frame (.join [.ofParts [.ringSeq], .ofRegs [.RING_WR, .RING_RD, .RING_STAT]]) s (ringEmptied r s) := by
  have hx := get_put_lt (s := s) (f := RING_WR.WR) (v := 0) r 0 (by decide) (by decide)
  have hxr : RegsKept [RegId.RING_WR.at r, RegId.RING_RD.at r, RegId.RING_STAT.at r] s (s.put RING_WR.WR 0 r) := .put .refl
  have hxf : Frame (.join [.ofParts [.ringSeq], .ofRegs [.RING_WR, .RING_RD, .RING_STAT]]) s (s.put RING_WR.WR 0 r) := .put .refl
  unfold ringEmptied
  generalize s.put RING_WR.WR 0 r = x at *
  have hy := get_put_lt (s := x) (f := RING_RD.RD) (v := 0) r 0 (by decide) (by decide)
  have hyw : (x.put RING_RD.RD 0 r).get RING_WR.WR r = x.get RING_WR.WR r := State.get_put_fam _ _ _ _ _ _ _ _ (by decide)
  have hyr := hxr.put (f := RING_RD.RD) (v := 0) (i := r) (j := 0)
  have hyf : Frame (.join [.ofParts [.ringSeq], .ofRegs [.RING_WR, .RING_RD, .RING_STAT]]) s (x.put RING_RD.RD 0 r) := .put hxf
  generalize x.put RING_RD.RD 0 r = y at *
  have hz := get_put_lt (s := y) (f := RING_STAT.LEVEL) (v := 0) r 0 (by decide) (by decide)
  have hzw : (y.put RING_STAT.LEVEL 0 r).get RING_WR.WR r = y.get RING_WR.WR r := State.get_put_fam _ _ _ _ _ _ _ _ (by decide)
  have hzd : (y.put RING_STAT.LEVEL 0 r).get RING_RD.RD r = y.get RING_RD.RD r := State.get_put_fam _ _ _ _ _ _ _ _ (by decide)
  have hzr := hyr.put (f := RING_STAT.LEVEL) (v := 0) (i := r) (j := 0)
  have hzf : Frame (.join [.ofParts [.ringSeq], .ofRegs [.RING_WR, .RING_RD, .RING_STAT]]) s (y.put RING_STAT.LEVEL 0 r) := .put hyf
  generalize y.put RING_STAT.LEVEL 0 r = z at *
  exact ⟨hzw.trans (hyw.trans hx), hzd.trans hy, hz, hzr.congr rfl, .withRingSeq hzf⟩

theorem ringCfg_complete (h : s.writes o .RING_CFG r 0 v = true) (hnamed : s.ringNamed r = false) (hsize : fieldOf v 10 10 ≠ 0)
    (hen : fieldOf v 20 1 = 1) (hspace : fieldOf v 0 10 + fieldOf v 10 10 ≤ 748) (hclash : ringClash r v s = false) :
    ∃ t, exec (.ringCfgWrite o r v) s = .next t ∧ t.get RING_CFG.BASE r = fieldOf v 0 10 ∧
      t.get RING_CFG.SIZE r = fieldOf v 10 10 ∧ t.get RING_CFG.EN r = 1 ∧ t.get RING_WR.WR r = 0 ∧ t.get RING_RD.RD r = 0 ∧
      t.get RING_STAT.LEVEL r = 0 ∧ Kept [.regs, .ringSeq, .tansyQ] s t ∧
      RegsKept [RegId.RING_CFG.at r, RegId.RING_WR.at r, RegId.RING_RD.at r, RegId.RING_STAT.at r] s t := by
  obtain ⟨q, hq⟩ := busWrite_hook h plain_ringCfg r.isLt
  have hx : Frame (.ofParts [.tansyQ]) s { s with tansyQ := q } := .withTansyQ .refl
  have hxr : RegsKept [] s { s with tansyQ := q } := .refl
  have hxn : ({ s with tansyQ := q } : State).ringNamed r = false := hnamed
  have hxc : ringClash r v { s with tansyQ := q } = false := hclash
  have hhook (m old : Word) (u : State) : writeHook o.toNat ⟨.RING_CFG, r, 0⟩ m old v u = hookRingCfg r old v u := rfl
  have hafter (old : Word) (u : State) : afterWrite ⟨.RING_CFG, r, 0⟩ old u = u := rfl
  rw [hhook, hhook, hafter, hookRingCfg_takes hnamed hsize hen hspace hclash, hookRingCfg_takes hxn hsize hen hspace hxc] at hq
  generalize ({ s with tansyQ := q } : State) = x at *
  obtain ⟨hwr, hrd, hlevel, hregs, hy⟩ := ringEmptied_spec r x
  dsimp only at hq
  generalize ringEmptied r x = y at *
  have ht : Frame (.ofRegs [.RING_CFG]) y (y.setReg (RegId.RING_CFG.at r) v) := .setReg .refl
  refine ⟨_, hq, get_setReg RING_CFG.BASE y r 0 v, get_setReg RING_CFG.SIZE y r 0 v, (get_setReg RING_CFG.EN y r 0 v).trans hen,
    ht.get.trans hwr, ht.get.trans hrd, ht.get.trans hlevel, ?_, ?_⟩
  · exact (((hx.mono (w := .join [.ofParts [.ringSeq, .tansyQ], .ofRegs [.RING_CFG, .RING_WR, .RING_RD, .RING_STAT]]) (by decide)).lift
      (by decide) hy).lift (by decide) ht).kept
  · refine .setReg (((hxr.mono (by simp)).trans (hregs.mono ?_)))
    simp

theorem ringCfg_refused (h : s.writes o .RING_CFG r 0 v = true)
    (hbad : s.ringNamed r = true ∨ (fieldOf v 20 1 = 1 ∧ 748 < fieldOf v 0 10 + fieldOf v 10 10)) :
    ∃ t, exec (.ringCfgWrite o r v) s = .next t ∧ t.isSet RING_STAT.CFGBAD r = true ∧ RegsKept [RegId.RING_STAT.at r] s t ∧
      Kept [.regs] s t := by
  have hhook (m old : Word) (u : State) : writeHook o.toNat ⟨.RING_CFG, r, 0⟩ m old v u = hookRingCfg r old v u := rfl
  have hafter (old : Word) (u : State) : afterWrite ⟨.RING_CFG, r, 0⟩ old u = u := rfl
  have hq := busWrite_silent h plain_ringCfg (.inr (by rw [hhook, hookRingCfg_refuses hbad])) r.isLt
  rw [hhook, hafter, hookRingCfg_refuses hbad] at hq
  have hset := isSet_put_one (s := s) (f := RING_STAT.CFGBAD) r 0 (by decide)
  have hx : Frame (.ofRegs [.RING_STAT]) s (s.put RING_STAT.CFGBAD 1 r) := .put .refl
  have hxr : RegsKept [RegId.RING_STAT.at r] s (s.put RING_STAT.CFGBAD 1 r) := .put .refl
  dsimp only at hq
  have hword := hx.reg .RING_CFG (by decide) r
  generalize s.put RING_STAT.CFGBAD 1 r = x at *
  have ht : Frame (.ofRegs [.RING_CFG]) x (x.setReg (RegId.RING_CFG.at r) (s.reg (RegId.RING_CFG.at r))) := .setReg .refl
  refine ⟨_, hq, by rw [ht.isSet, hset], fun a hmem => ?_, ((hx.mono (w := .ofRegs [.RING_STAT, .RING_CFG]) (by decide)).lift (by decide) ht).kept⟩
  rw [State.reg_setReg]
  split
  · next he => rw [he]
  · exact hxr a hmem

theorem hook_ringRel (m old : Word) : writeHook o.toNat ⟨.RING_REL, r, 0⟩ m old v s = (withField v 0 18 0, ringRelS r v s) := rfl

theorem ringRel_exec (h : s.writes o .RING_REL r 0 v = true) : exec (.ringRelease o r v) s =
    .next ((ringRelS r v s).setReg (RegId.RING_REL.at r) (withField v 0 18 0)) := by
  have hafter (old : Word) (u : State) : afterWrite ⟨.RING_REL, r, 0⟩ old u = u := rfl
  have hq := busWrite_silent h plain_ringRel (.inl rfl) r.isLt
  rw [hook_ringRel, hafter] at hq
  exact hq

theorem ringRelease_complete (h : s.writes o .RING_REL r 0 v = true) (hle : fieldOf v 0 18 ≤ s.get RING_STAT.LEVEL r)
    (hcap : 0 < s.get RING_CFG.SIZE r) : ∃ t, exec (.ringRelease o r v) s = .next t ∧
      t.get RING_RD.RD r = (s.get RING_RD.RD r + fieldOf v 0 18) % s.ringCap r ∧
      t.get RING_STAT.LEVEL r = s.get RING_STAT.LEVEL r - fieldOf v 0 18 ∧
      RegsKept [RegId.RING_RD.at r, RegId.RING_STAT.at r, RegId.RING_REL.at r] s t ∧ Kept [.regs] s t := by
  refine ⟨_, ringRel_exec h, ?_⟩
  have hmoved : ringRelS r v s = (s.put RING_RD.RD ((s.get RING_RD.RD r + fieldOf v 0 18) % s.ringCap r) r).put RING_STAT.LEVEL
      (s.get RING_STAT.LEVEL r - fieldOf v 0 18) r := by
    unfold ringRelS
    dsimp only
    rw [if_neg (by omega)]
  rw [hmoved]
  have hpos : 0 < s.ringCap r := by
    unfold State.ringCap
    omega
  have hrd := get_put_lt (s := s) (f := RING_RD.RD) (v := (s.get RING_RD.RD r + fieldOf v 0 18) % s.ringCap r) r 0 (by decide)
    ((Nat.mod_lt _ hpos).trans_le ((ringCap_le r s).trans (by decide)))
  have hlt : s.get RING_STAT.LEVEL r - fieldOf v 0 18 < 2 ^ 18 := (Nat.sub_le _ _).trans_lt (Nat.mod_lt _ (by decide))
  generalize s.get RING_STAT.LEVEL r - fieldOf v 0 18 = l at *
  have hx : Frame (.ofRegs [.RING_RD]) s (s.put RING_RD.RD ((s.get RING_RD.RD r + fieldOf v 0 18) % s.ringCap r) r) := .put .refl
  have hxr : RegsKept [RegId.RING_RD.at r, RegId.RING_STAT.at r, RegId.RING_REL.at r] s
    (s.put RING_RD.RD ((s.get RING_RD.RD r + fieldOf v 0 18) % s.ringCap r) r) := .put .refl
  generalize s.put RING_RD.RD _ r = x at *
  have hy : Frame (.ofRegs [.RING_STAT]) x (x.put RING_STAT.LEVEL l r) := .put .refl
  have hyr := hxr.put (f := RING_STAT.LEVEL) (v := l) (i := r) (j := 0)
  have hlevel := get_put_lt (s := x) (f := RING_STAT.LEVEL) r 0 (by decide) hlt
  generalize x.put RING_STAT.LEVEL l r = y at *
  have ht : Frame (.ofRegs [.RING_REL]) y (y.setReg (RegId.RING_REL.at r) (withField v 0 18 0)) := .setReg .refl
  exact ⟨by rw [ht.get, hy.get, hrd], by rw [ht.get, hlevel], hyr.setReg,
    (((hx.mono (w := .ofRegs [.RING_RD, .RING_STAT, .RING_REL]) (by decide)).lift (by decide) hy).lift (by decide) ht).kept⟩

theorem ringRelease_refused (h : s.writes o .RING_REL r 0 v = true) (hgt : s.get RING_STAT.LEVEL r < fieldOf v 0 18) :
    ∃ t, exec (.ringRelease o r v) s = .next t ∧ t.isSet RING_STAT.RELBAD r = true ∧
      t.get RING_RD.RD r = s.get RING_RD.RD r ∧ t.get RING_STAT.LEVEL r = s.get RING_STAT.LEVEL r ∧ Kept [.regs] s t := by
  refine ⟨_, ringRel_exec h, ?_⟩
  have hbad : ringRelS r v s = s.put RING_STAT.RELBAD 1 r := by
    unfold ringRelS
    dsimp only
    rw [if_pos hgt]
  rw [hbad]
  have hx : Frame (.ofRegs [.RING_STAT]) s (s.put RING_STAT.RELBAD 1 r) := .put .refl
  have hset := isSet_put_one (s := s) (f := RING_STAT.RELBAD) r 0 (by decide)
  have hlevel : (s.put RING_STAT.RELBAD 1 r).get RING_STAT.LEVEL r = s.get RING_STAT.LEVEL r := get_put_of_apart (by decide) ..
  generalize s.put RING_STAT.RELBAD 1 r = x at *
  have ht : Frame (.ofRegs [.RING_REL]) x (x.setReg (RegId.RING_REL.at r) (withField v 0 18 0)) := .setReg .refl
  exact ⟨by rw [ht.isSet, hset], by rw [ht.get, hx.get], by rw [ht.get, hlevel],
    ((hx.mono (w := .ofRegs [.RING_STAT, .RING_REL]) (by decide)).lift (by decide) ht).kept⟩

/-- R169 to R173. -/
theorem ringsComplete : RingsComplete := by
  refine ⟨?_, ?_, ?_, ?_, ?_, ?_⟩
  · intro k r rest s ha hbuf hcd hen hroom hbank
    exact recordStore_complete ha hbuf hcd hen hroom hbank
  · intro k r rest s ha hbuf hcd hen hfull
    exact ⟨_, recordStall_complete ha hbuf hcd hen hfull, markStall_buf k s, markStall_spec k s⟩
  · intro o r v s h hnamed hsize hen hspace hclear
    refine ringCfg_complete h hnamed hsize hen hspace (List.any_eq_false.mpr fun q hq => ?_)
    have hlt := List.mem_range.mp hq
    simp only [Bool.and_eq_true, bne_iff_ne, decide_eq_true_eq, not_and, and_imp]
    intro hne hset hlo
    have := hclear q hlt hne hset
    omega
  · intro o r v s h hbad
    exact ringCfg_refused h hbad
  · intro o r v s h hle hcap
    exact ringRelease_complete h hle hcap
  · intro o r v s h hgt
    exact ringRelease_refused h hgt

end

/-! ## Code density (R256, R257) -/

section

variable {s t : State} {k reason : ℕ} {req : Bool} {r : CdRun}

theorem Tells.refreshAllConv (h : Tells s t) : Tells s (Machine.refreshAllConv t) := by
  unfold Machine.refreshAllConv
  dsimp only
  refine ite h (ite (refreshLevel ?_) (frame (w := .ofRegs [.SOR_STAT]) h (.put .refl)))
  exact raise (frame (w := .ofRegs [.SOR_STAT]) h (.put (.put .refl)))

theorem cdLeave_spec (k : ℕ) (s : State) : (cdLeave k s).chan k = { s.chan k with cd := none } ∧ (cdLeave k s).ts TS_STAT.CAL k = 0 ∧
    Frame Frame.Scope.cdLeave s (cdLeave k s) := by
  refine ⟨?_, ?_, .cdLeave .refl⟩
  · rw [cdLeave, skewAgain_chan, State.tsSet, State.chan_put_keep, State.chan_setChan, if_pos rfl]
  · rw [cdLeave]
    exact (Frame.get (w := Frame.Scope.skewAgain) (.skewAgain .refl)).trans (ts_set (by decide) (by decide) _ _)

/-- A code-density run has failed (R250). -/
structure CdFailed (k reason : ℕ) (s t : State) : Prop where
  ended : (t.chan k).cd = none
  cal : t.ts TS_STAT.CAL k = 0
  state : t.get CD_STAT.ST (chanChip k) (chanLocal k) = 4
  raised : 276 ∈ t.raising
  reason : t.get SOR_FAIL.REASON = reason
  mach : t.get SOR_FAIL.MACH = 2
  mem : t.mem = s.mem

theorem cdFail_spec (hk : k < 1280) (hr : reason < 256) (s : State) : CdFailed k reason s (cdFail k reason req s) := by
  obtain ⟨hchan, hcal, hx⟩ := cdLeave_spec k s
  unfold cdFail
  generalize cdLeave k s = x at *
  have hy : Frame Frame.Scope.calFail x (calFail 2 k reason req x) := .calFail .refl
  obtain ⟨hreason, hmach, -, hraised, -, -⟩ := calFail_spec (m := 2) (k := k) (reason := reason) (req := req) x (by decide)
    (hk.trans (by decide)) hr
  generalize calFail 2 k reason req x = y at *
  have hz : Frame (.ofRegs [.CD_STAT]) y (cdState k 4 y) := .cdState .refl
  have hstate : (cdState k 4 y).get CD_STAT.ST (chanChip k) (chanLocal k) = 4 := get_put_lt _ _ (by decide) (by decide)
  generalize cdState k 4 y = z at *
  have ht : Frame Frame.Scope.refreshAllConv z (refreshAllConv z) := .refreshAllConv .refl
  have htells : Tells z (refreshAllConv z) := .refreshAllConv .refl
  generalize refreshAllConv z = t at *
  refine ⟨?_, ?_, by rw [ht.get, hstate], ?_, ?_, ?_, by rw [ht.mem, hz.mem, hy.mem, hx.mem]⟩
  · rw [ht.chan, hz.chan, hy.chan, hchan]
  · rw [State.ts, ht.get, hz.get, hy.get]
    exact hcal
  · refine htells ?_
    rw [hz.raising, hraised]
    simp
  · rw [ht.get, hz.get, hreason]
  · rw [ht.get, hz.get, hmach]

theorem calCommit_spec (m k : ℕ) (req : Bool) (s : State) : (calCommit m k req s).get SOR_CNT.COMMITS = (s.get SOR_CNT.COMMITS + 1) % 65536 ∧
    Frame Frame.Scope.calCommit s (calCommit m k req s) := by
  refine ⟨?_, .calCommit .refl⟩
  unfold calCommit
  have hx := State.get_put s SOR_CNT.COMMITS (s.get SOR_CNT.COMMITS + 1) 0 0 (by decide)
  change (s.bump SOR_CNT.COMMITS).get SOR_CNT.COMMITS = _ at hx
  generalize s.bump SOR_CNT.COMMITS = x at *
  have hy : Frame Frame.Scope.requestEnd x (requestEnd req 1 x) := .requestEnd .refl
  generalize requestEnd req 1 x = y at *
  dsimp only
  exact (Frame.get (w := Frame.Scope.log) (.log .refl)).trans (hy.get.trans hx)

/-! ### The commit of a code table (R257) -/

/-- The code table of two runs that agree. -/
def meanTable (a b : List ℕ) : List ℕ := List.zipWith (fun x y => (x + y) / 2 % 65536) a b

/-- The table takes effect on its channel. -/
def tableTaken (k : ℕ) (a b : List ℕ) (s : State) : State :=
  let s := s.setChan k { s.chan k with cdTable := some (meanTable a b), cdLast := s.clock }
  (cdState k 3 s).put CD_STAT.LOADED 0 (chanChip k) (chanLocal k)

/-- The channel's precision is whole again, and a port monitor's offset is due. -/
def precisionBack (k : ℕ) (s : State) : State :=
  let s := if s.get SOR_STAT.SRC = 3 then s else s.tsSet TS_STAT.RED_PREC k 0
  if k < 1024 then s.setPort k { s.port k with ofsDue := true } else s

theorem precisionBack_frame (k : ℕ) (s : State) : Frame (.join [.ofParts [.ports], .ofRegs [.TS_STAT]]) s (precisionBack k s) := by
  unfold precisionBack
  exact .ite (.setPort (.ite .refl (.tsSet .refl))) (.ite .refl (.tsSet .refl))

theorem tableTaken_spec (k : ℕ) (a b : List ℕ) (s : State) :
    (tableTaken k a b s).chan k = { s.chan k with cdTable := some (meanTable a b), cdLast := s.clock } ∧
    (tableTaken k a b s).get CD_STAT.ST (chanChip k) (chanLocal k) = 3 ∧
    Frame (.join [.ofParts [.chans], .ofRegs [.CD_STAT]]) s (tableTaken k a b s) := by
  unfold tableTaken
  have hx : Frame (.ofParts [.chans]) s (s.setChan k { s.chan k with cdTable := some (meanTable a b), cdLast := s.clock }) := .setChan .refl
  have hxc := (State.chan_setChan s k { s.chan k with cdTable := some (meanTable a b), cdLast := s.clock } k).trans (if_pos rfl)
  generalize s.setChan k _ = x at *
  have hy : Frame (.ofRegs [.CD_STAT]) x (cdState k 3 x) := .cdState .refl
  have hstate : (cdState k 3 x).get CD_STAT.ST (chanChip k) (chanLocal k) = 3 := get_put_lt _ _ (by decide) (by decide)
  dsimp only
  generalize cdState k 3 x = y at *
  have hz : Frame (.ofRegs [.CD_STAT]) y (y.put CD_STAT.LOADED 0 (chanChip k) (chanLocal k)) := .put .refl
  refine ⟨by rw [hz.chan, hy.chan, hxc], (get_put_of_apart (by decide) ..).trans hstate, ?_⟩
  exact (((hx.mono (by decide)).lift (by decide) hy).lift (by decide) hz)

theorem cdAgreementTestS_eq {a b : List ℕ} (hrun : (s.chan k).cd = some r) (hsync : r.synced = true) (hcd : s.cdDown = false)
    (hlost : (s.chip (chanChip k)).cdLost = false) (hmeas : (s.chan k).meas = none) (hcal : s.calLost = false) (hlen : a.length = 128)
    (hagree : tablesAgree a b = true) : cdAgreementTestS k a b s =
    refreshAllConv (calCommit 2 k r.requested (precisionBack k (tableTaken k a b (cdLeave k s)))) := by
  unfold cdAgreementTestS
  rw [hrun]
  dsimp only
  rw [hsync, hcd, hlost, hmeas, if_neg (by decide), hcal, if_neg (by decide), if_pos (by simp [hlen, hagree])]
  rfl

theorem cdAgreementTestS_spec {a b : List ℕ} (hrun : (s.chan k).cd = some r) (hsync : r.synced = true) (hcd : s.cdDown = false)
    (hlost : (s.chip (chanChip k)).cdLost = false) (hmeas : (s.chan k).meas = none) (hcal : s.calLost = false) (hlen : a.length = 128)
    (hagree : tablesAgree a b = true) : ((cdAgreementTestS k a b s).chan k).cd = none ∧
      ((cdAgreementTestS k a b s).chan k).cdTable = some (meanTable a b) ∧ ((cdAgreementTestS k a b s).chan k).cdLast = s.clock ∧
      (cdAgreementTestS k a b s).get CD_STAT.ST (chanChip k) (chanLocal k) = 3 ∧
      (cdAgreementTestS k a b s).get SOR_CNT.COMMITS = (s.get SOR_CNT.COMMITS + 1) % 65536 ∧ (cdAgreementTestS k a b s).mem = s.mem := by
  rw [cdAgreementTestS_eq hrun hsync hcd hlost hmeas hcal hlen hagree]
  obtain ⟨hchan, -, hx⟩ := cdLeave_spec k s
  generalize cdLeave k s = x at *
  obtain ⟨htable, hstate, hy⟩ := tableTaken_spec k a b x
  generalize tableTaken k a b x = y at *
  have hz := precisionBack_frame k y
  generalize precisionBack k y = z at *
  obtain ⟨hcount, hu⟩ := calCommit_spec 2 k r.requested z
  generalize calCommit 2 k r.requested z = u at *
  have ht : Frame Frame.Scope.refreshAllConv u (refreshAllConv u) := .refreshAllConv .refl
  generalize refreshAllConv u = t at *
  have hall : t.chan k = { s.chan k with cd := none, cdTable := some (meanTable a b), cdLast := s.clock } := by
    rw [ht.chan, hu.chan, hz.chan, htable, hchan, hx.clock]
  rw [hall]
  refine ⟨rfl, rfl, rfl, by rw [ht.get, hu.get, hz.get, hstate], ?_, by rw [ht.mem, hu.mem, hz.mem, hy.mem, hx.mem]⟩
  rw [ht.get, hcount, hz.get, hy.get, hx.get]

end

section

variable {s : State} {k : ChannelIx} {r : CdRun} {codes most : ℕ}

/-- R256, R257. -/
theorem codeDensityCompletes : CodeDensityCompletes := by
  refine ⟨?_, ?_, ?_, ?_⟩
  · intro k codes most r s ha hrun hsync hcd hcodes hmost
    have hstep : cdSyncTestS k codes most s = s.setChan k { s.chan k with cd := some { r with synced := true } } := by
      unfold cdSyncTestS
      rw [hrun]
      dsimp only
      rw [hsync, hcd, if_neg (by decide), if_neg (by simp; omega)]
    refine ⟨_, (actOn_alive ha _).trans (congrArg Host.Outcome.next hstep), ?_, fun j hj => ?_, Frame.kept (w := .ofParts [.chans]) (.setChan .refl)⟩
    · exact (State.chan_setChan ..).trans (if_pos rfl)
    · exact (State.chan_setChan ..).trans (if_neg hj)
  · intro k codes most r s ha hrun hsync hcd hbad
    have hstep : cdSyncTestS k codes most s = cdFail k 6 r.requested s := by
      unfold cdSyncTestS
      rw [hrun]
      dsimp only
      rw [hsync, hcd, if_neg (by decide), if_pos (by simpa using hbad)]
    obtain ⟨hended, hcal, hstate, hraised, hreason, hmach, hmem⟩ := cdFail_spec (k := k) (reason := 6) (req := r.requested) k.isLt (by decide) s
    exact ⟨_, (actOn_alive ha _).trans (congrArg Host.Outcome.next hstep), hended, hcal, hstate, hraised, hreason, hmach, hmem⟩
  · intro k a b r s ha hrun hsync hmeas hbad hcd hlost hcal hlen hagree
    have hx : Frame (.ofParts [.ecc]) s (sramFix 0x01D00000 0x00100000 s) := .sramFix .refl
    have hstep : exec (.cdAgreementTest k a b) s = .next (cdAgreementTestS k a b (sramFix 0x01D00000 0x00100000 s)) := by
      refine (actOn_alive ha _).trans (congrArg Host.Outcome.next ?_)
      rw [hrun, Option.isSome_some, if_pos rfl, calMeets, hbad, if_pos (by simp), hcd]
      rfl
    generalize sramFix 0x01D00000 0x00100000 s = x at *
    obtain ⟨hended, htable, hlast, hstate, hcount, hmem⟩ := cdAgreementTestS_spec (s := x) (k := k) (r := r) (a := a) (b := b)
      (by rw [hx.chan, hrun]) hsync (by rw [hx.cdDown, hcd]) (by rw [hx.chip, hlost]) (by rw [hx.chan, hmeas])
      (by rw [State.calLost, State.bankLost, hx.get]; exact hcal) hlen hagree
    exact ⟨_, hstep, hended, htable, by rw [hlast, hx.clock], hstate, by rw [hcount, hx.get], by rw [hmem, hx.mem]⟩
  · intro k r s ha hrun hcd hdue
    have hstep : cdTimeoutS k s = cdFail k 9 r.requested s := by
      unfold cdTimeoutS
      rw [hrun]
      dsimp only
      rw [hcd, decide_eq_true hdue]
      rfl
    obtain ⟨hended, -, hstate, hraised, hreason, hmach, hmem⟩ := cdFail_spec (k := k) (reason := 9) (req := r.requested) k.isLt (by decide) s
    exact ⟨_, (actOn_alive ha _).trans (congrArg Host.Outcome.next hstep), hended, hstate, hraised, hreason, hmach, hmem⟩

/-- Settles O35, by the ring that a record or a write moves and the end of a code-density run. -/
theorem ringsAndCodeDensityComplete : Obligations.RingsAndCodeDensityComplete := ⟨ringsComplete, codeDensityCompletes⟩

end

end Sys2Proof.Proofs
